-- ==== Sys2Proof/Word.lean ====
section
/-! DEFINITION. The word types: registers are 32 bits wide (R8, chapter 0), bytes are 8. -/

namespace Sys2Proof

/-- One register word. -/
abbrev Word := BitVec 32

/-- One byte of the serial memories, of a key or of an air frame. -/
abbrev Byte := BitVec 8

end Sys2Proof
end

