-- ==== Sys2Proof/Syntax.lean ====
section
/-! DEFINITION. The commands of the block: one constructor per row of the opcode table, with the operands each takes from
its sender, and the types of those operands. -/

namespace Sys2Proof

/-- The access level of a request (R131). -/
inductive Level where
  | user | supervisor | field | firmware
  deriving DecidableEq, Repr

/-- The blocks of R38 that have a shadow set. -/
inductive Block where
  | sys | prot | qtz | tmr | fifo | rad | syncal | rp | hdg | brm | hf | tag | grs | lnk | nbr | cal | msp | hsp
  deriving DecidableEq, Repr

/-- One block instance: the block and, for an indexed block, its instance number (R34). -/
structure BlockInst where
  block : Block
  inst : Nat
  deriving DecidableEq, Repr

/-- One image record's triple (R86): word address, mask, value. -/
structure RegTriple where
  addr : BitVec 16
  mask : Word
  value : Word
  deriving DecidableEq, Repr

/-- One Hedge entry of a HEDGE record (R90). -/
structure HedgeEntry where
  index : Byte
  nchild : Byte
  roles : BitVec 16
  child : List Byte
  weight : List Byte
  deriving DecidableEq, Repr

/-- One descriptor entry of a PROT record (R93). -/
structure ProtEntry where
  index : Byte
  perms : Byte
  first : BitVec 16
  last : BitVec 16
  deriving DecidableEq, Repr

/-- A strap pin over the 10 µs sampling window (R77): held at a level, left open, or changing. -/
inductive StrapPin where
  | low | high | open_ | changing
  deriving DecidableEq, Repr

/-- What the outside decides during a start (R74): the straps over the sampling window, whether REFIN shows activity and the
core PLL locks within 1 ms, the JEDEC ID that the serial NOR answers, the NOR sectors whose second read-back fails,
whether a NAND answers and the ring mounts, and the calibration items (item code, instance) that fail at step 8. -/
structure StartInputs where
  hgen : StrapPin
  bootsel : StrapPin
  refin : Bool
  pllLocks : Bool
  jedec : BitVec 24
  badSectors : List Nat
  nandAnswers : Bool
  ringMounts : Bool
  calFails : List (Nat × Nat)
  deriving DecidableEq, Repr

/-- Where an uncorrectable SRAM error lies (R46): in one sighting entry, or at a byte address of another region. -/
inductive SramLoc where
  | sighting (entry : Fin 2048)
  | other (byteAddr : Word)
  deriving DecidableEq, Repr

/-- The wake sources of R61, by code. -/
abbrev WakeSource := Fin 10

/-- How the edges of a select compare with its frame or transfer at the rise of HSEL_N (R121, R124, R128). -/
inductive SelectEnd where
  | exact
  | short
  | extra
  deriving DecidableEq, Repr

/-- The two UHF paths (R180): SYN-A/TXA and SYN-B/TXB. -/
inductive RfPath where
  | a | b
  deriving DecidableEq, Repr

/-- A program's fate in one of the non-volatile stores (R350, R467, R479): good, or failed. -/
inductive ProgResult where
  | good
  | failed
  deriving DecidableEq, Repr

/-- The consumers of the scheduler (R22, R156): a Slate entry, the host's immediate commands, a link slot, link data, the
external requester, a calibration instance, a forced gap on a path, Gorse's ping and its refresh, the tag engine, a host
tag-store operation, the journal writer, the Slate loader, a host memory-port command, a host journal read, the calibration
save area, and the tag's fault log. -/
inductive Consumer where
  | entry (i : Fin 1024)
  | hostUhf
  | hostHf
  | linkSlot (k : Nat)
  | linkData
  | external
  | calib (item : Fin 8) (inst : Byte)
  | forcedGap (path : Nat)
  | gorse
  | gorseRefresh
  | tagEngine
  | tagHost
  | journal
  | slateLoader
  | memPort
  | jnlRead
  | calStore
  | tagLog
  | calTrace
  deriving DecidableEq, Repr

/-- The request classes of R156. -/
inductive Class where
  | c0 | c1 | c2 | c3
  deriving DecidableEq, Repr

/-- The lease kinds of R150; a link slot carries its own length in µs. A trace of R570, which R150 does not list, carries its own in ms
(DESIGN CHOICE, log entry 37). -/
inductive LeaseKind where
  | uhfSlice
  | hfSession
  | linkSlot (us : Nat)
  | calStep
  | forcedGap
  | gorsePing
  | flint
  | msp
  | tagPage
  | external
  | trace (ms : Nat)
  deriving DecidableEq, Repr

/-- What a set does on the air, as far as the RF rules of R149 ask: nothing, a UHF carrier (the ports it may use as a mask,
its first channel in kHz), a link receive or transmit (port, channel in kHz), an HF set, a UHF calibration that transmits, one that
does not. -/
inductive AirUse where
  | none
  | carrier (ports : BitVec 4) (khz : Nat)
  | linkRx (port : Fin 4) (khz : Nat)
  | linkTx
  | hf
  | calTx
  | calRx
  deriving DecidableEq, Repr

/-- A resource request (R145): who, class, set (bit n is resource n of R144), lease kind, and for a scheduled C0 item the
time from now in µs at which its resources must be free; and its use of the air (R149). -/
structure RequestSpec where
  who : Consumer
  cls : Class
  mask : BitVec 11
  kind : LeaseKind
  freeIn : Option Nat
  air : AirUse
  deriving DecidableEq, Repr

/-- What a path is tuned for (R181): a reader carrier, link reception, a carrier without reception. -/
inductive PathUse where
  | read | rxon | txon
  deriving DecidableEq, Repr

/-- What a chain measured of one carrier during refinement (R213): the chain, the residual after the injector in −1 dBm
units before and after the refinement, and the vector that corrects it. -/
structure ChainResidual where
  chain : Fin 4
  residual : Nat
  after : Nat
  i : Int
  q : Int
  deriving DecidableEq, Repr

/-- One RN16 reply of a slot (R266, R267): its value, whether it was decoded, and its level per chain on the scale of R210. -/
structure Rn16Reply where
  rn : BitVec 16
  decoded : Bool
  levels : List Byte
  deriving DecidableEq, Repr

/-- An EPC reply after an ACK (R254, R268): its words as received (the PC, XPC words, the identifier), the CRC-16 received after
them, and its level at each chain (R210). -/
structure EpcReply where
  words : List (BitVec 16)
  crc : BitVec 16
  levels : List Byte
  deriving DecidableEq, Repr

/-- A tag's answer to an access-program step (R273, R289): the data words it carries, or the error code it backscattered. -/
inductive StepReply where
  | ok (data : List (BitVec 16))
  | tagError (code : Byte)
  deriving DecidableEq, Repr

/-- A read that reaches the sighting table (R269, R450). -/
structure ReadIn where
  tech : Fin 5
  id : List Byte
  longId : Bool
  rp : Fin 64
  /-- The channel code of a UHF read (R269). -/
  chan : BitVec 16
  q64 : BitVec 64
  level : Byte
  pc : BitVec 16
  dup : Bool
  hold : BitVec 16
  report : BitVec 4
  deriving DecidableEq, Repr

/-- A card's answer, as the HF receiver gives it (R304, R311–R324). Received bits are numbered from 0 in reception order, so
that bit k of `bits` is bit k + 1 of R311. `sparam` is the highest rate each way (codes of R239) that the card announces
through S(PARAMETERS), if it supports it (R319). -/
inductive CardFrame where
  /-- An answer to REQA or WUPA, of one card or of several. -/
  | atqa (v : BitVec 16)
  /-- The 40 bits of a cascade level, known ones included, and the first collided bit. -/
  | anticol (bits : BitVec 40) (collision : Option (Fin 40))
  | sak (v : Byte) (collided : Bool)
  /-- The ATS from its length byte on. -/
  | ats (bytes : List Byte) (sparam : Option (Fin 6 × Fin 5))
  | atqb (pupi app proto : List Byte)
  | attrib (sparam : Option (Fin 6 × Fin 5))
  /-- The answer to a PPS, or to S(PARAMETERS) (R319). -/
  | rates
  | vicc (dsfid : Byte) (uid : BitVec 64)
  | sensf (idm pmm : List Byte) (sys : BitVec 16)
  /-- A slot whose answer collides or fails its CRC (R316). -/
  | collided
  /-- The answer of a Ranelo tag to AES1, and to AES2 (R317, R356). -/
  | aes1 (rnt : BitVec 64) (e1 : BitVec 128)
  | aes2 (accepted : Bool)
  | iBlock (num chaining : Bool) (inf : List Byte)
  | rAck (num : Bool)
  | deselect
  /-- One raw frame, its CRC removed when it was checked. -/
  | raw (bytes : List Byte) (crcGood : Bool)
  deriving DecidableEq, Repr
/-- The head of an ISO/IEC 15693 request to the tag: its flags byte, the UID it carries when addressed, and whether its length
fits its command (R352). -/
structure TagHdr where
  flags : Byte
  uid : BitVec 64
  fits : Bool
  deriving DecidableEq, Repr

/-- What the receiver had of a frame before its SFD (R389): the bits of preamble, whether the whole STF of an MR-OFDM frame came, and
the carrier offset in 0.1 ppm. -/
structure LinkLead where
  bits : Nat
  stf : Bool
  ppm10 : Int
  deriving DecidableEq, Repr

/-- A decoded PHR (R381–R383): the mode switch bit, the FCS type bit as 'two octets', the whitening bit, the length, the MCS of
an OFDM PHR, and whether an OFDM PHR passes its own check. -/
structure LinkPhr where
  modeSwitch : Bool
  fcs2 : Bool
  whiten : Bool
  len : Fin 2048
  mcs : Fin 8
  checkOk : Bool
  deriving DecidableEq, Repr

/-- What a received link frame holds before its FCS (R381, R403): the octets in the order received. -/
structure LinkFrame where
  octets : List Byte
  deriving DecidableEq, Repr

/-- The kinds of link slot (R422). -/
inductive SlotKind where
  | btx | brx | rdv | data
  deriving DecidableEq, Repr

/-- The two trigger inputs of a timer (R524). -/
inductive TrigInput where
  | a | b
  deriving DecidableEq, Repr

/-- Why a calibration instance becomes due (R564): its period, the temperature, a slot's margin below MARGINMIN, or the trigger
of items 0x02 and 0x03. -/
inductive DueReason where
  | period
  | temperature
  | slotMargin (slot : Byte)
  | trigger
  deriving DecidableEq, Repr

/-- What a calibration step gives (R566, R569): whether its measurement completed, the registers it measured with their new
words, and its quality figure. -/
structure StepResult where
  ok : Bool
  values : List (BitVec 16 × Word)
  figure : Byte
  deriving DecidableEq, Repr

/-- The commands, in the order of the opcode table. Where an operand has a default value, that is the ordinary case: `REFIN` runs, a
STATUS header, a READ that is not cut, a grant rather than its top-up, a frame received with its whole preamble. -/
inductive Instr where
  /-- VBAT or the tag field returns after both were absent; the backup domain resets Quartz, sets OSF and drives PWRON active. (R71) -/
  | porBackup (byField : Bool)
  /-- VDD08 or VDD18 stays below its falling threshold for 2 µs; the device drops to BACKUP at once with no flush. (R54) -/
  | coreSupplyLoss
  /-- The core supplies become valid with VDDIO valid, and the device starts with cause POR_CORE. (R591) -/
  | coreSupplyValid
  /-- VDDIO falls below its threshold and acts as RST_N held low for as long as it lasts. (R593) -/
  | vddioLoss
  /-- VDDIO becomes valid again and the core starts with cause RSTN, or with POR_CORE on the first rise. (R593) -/
  | vddioValid
  /-- VBAT falls below 1.75 V and the backup domain changes over to the field rectifier without losing a period. (R345) -/
  | vbatLoss
  /-- VBAT rises above its rising threshold and the backup domain changes back to VBAT without loss. (R536) -/
  | vbatReturn
  /-- RST_N goes low; the core, RF and host-port domains are held in reset with HRDY low and HSO high-impedance. (R72) -/
  | rstAssert
  /-- RST_N is released and the start-up sequence runs from step 1 with cause RSTN. (R71) -/
  | rstRelease
  /-- The start-up sequence runs steps 1 to 9 in order, up to autonomous operation or BARE. (R74) -/
  | startup (inp : StartInputs)
  /-- A REG image record is checked as a whole, and then its masked triples are written in record order. (R87) -/
  | regRecord (triples : List RegTriple)
  /-- A BLOCK image record writes consecutive words and, with COMMIT set, commits every block instance it wrote. (R88) -/
  | blockRecord (addr : BitVec 16) (words : List Word) (commit : Bool)
  /-- A SLATE image record validates its entries and rewrites the NOR sectors they touch, honouring PRESERVE. (R89) -/
  | slateRecord (first : Fin 1024) (preserve : Bool) (entries : List (List Byte)) (badSectors : List Nat)
  /-- A HEDGE image record writes Hedge shadow sets and commits them in order of depth, then of Hedge number. (R90) -/
  | hedgeRecord (entries : List HedgeEntry)
  /-- A CAL image record loads an item's staged values, and TRUSTED skips its power-up calibration. (R91) -/
  | calRecord (item : Byte) (inst : Byte) (trusted : Bool) (words : List Word)
  /-- A KEY image record loads an unreadable key into the slot of its usage. (R92) -/
  | keyRecord (usage : Byte) (slot : BitVec 5) (key : List Byte)
  /-- A PROT image record writes descriptor shadow sets and commits PROT once. (R93) -/
  | protRecord (entries : List ProtEntry)
  /-- A record of unknown type with SKIPPABLE set is passed over and a fault record is sent to FLT. (R85) -/
  | recskip (index : BitVec 16) (type : Byte)
  /-- The firmware watchdog has not been serviced for 500 ms; the device resets registers and SRAM and starts at step 5. (R73) -/
  | watchdogExpiry
  /-- The RESTART boot command acts as RST_N and starts the sequence at step 1. (R97) -/
  | restart (lvl : Level) (key : BitVec 16)
  /-- The RELOAD boot command starts the sequence at step 5 with BOOTSEL ignored. (R97) -/
  | reload (lvl : Level) (key : BitVec 16)
  /-- The RUN boot command, accepted only in BARE, starts the sequence at step 7 with the registers as they stand. (R97) -/
  | run (lvl : Level) (key : BitVec 16) (inp : StartInputs)
  /-- An uncorrectable SRAM error closes the sighting entry as INVALID, or sends a fault and restarts the firmware at step 5. (R46) -/
  | sramUe (loc : SramLoc)
  /-- An engine's access to a resource outside its grant is refused by the resource and counted in VIOL. (R23) -/
  | grantViolation (res : Fin 11)
  /-- A write to a register with no row of its own acts field by field under each field's access code. (R8) -/
  | registerWrite (lvl : Level) (addr : BitVec 16) (value : Word)
  /-- Writing 1 to a block's COMMIT bit requests a commit, sets PEND, or applies within 2 µs if the block is idle. (R35) -/
  | commit (lvl : Level) (blk : BlockInst)
  /-- Writing 1 to DISCARD cancels a pending commit and reloads the shadow set from the in-force set. (R36) -/
  | discard (lvl : Level) (blk : BlockInst) (withCommit : Bool)
  /-- At its boundary a block with a pending commit validates the whole shadow set and swaps it in within one cycle, or refuses it. (R32) -/
  | shadowSwap (blk : BlockInst)
  /-- An accepted SYNCAL, FIFO or CAL set swaps in one more part at that part's own boundary until PEND clears. (R609) -/
  | partSwap (blk : BlockInst) (part : Nat)
  /-- With the idle conditions met, the device sets the SCHED wake and enters the mode that FLOOR selects within 60 µs. (R56) -/
  | sleepEntry (during : Option WakeSource)
  /-- The wake from DORMANT or WATCH completes, and the device resumes from the retained state in ACTIVE. (R54) -/
  | wakeComplete
  /-- The scheduled internal wake time is reached in DORMANT or WATCH and fires source SCHED. (R57) -/
  | schedWake
  /-- WAKE_N is low for 2 CLK32K periods; source WAKEPIN is latched, wakes the device or drives PWRON. (R61) -/
  | wakePin
  /-- No RF resource has been granted for RFHOLD; RF bias goes off and RADIO returns to ACTIVE. (R54) -/
  | rfholdExpiry
  /-- SYS_MODECMD SLEEP_NOW waives IDLEMIN and stays pending until the other sleep conditions hold. (R68) -/
  | sleepNow (lvl : Level) (key : BitVec 16)
  /-- SYS_MODECMD ENTER_SERVICE stops new grants, and SERVICE begins when the last grant ends. (R59) -/
  | enterService (lvl : Level) (key : BitVec 16)
  /-- SYS_MODECMD LEAVE_SERVICE returns the device from SERVICE to ACTIVE within 10 µs. (R54) -/
  | leaveService (lvl : Level) (key : BitVec 16)
  /-- SYS_MODECMD ENTER_BACKUP stops new grants, returns to ACTIVE once grants end, and starts the flush. (R60) -/
  | enterBackup (lvl : Level) (key : BitVec 16)
  /-- SYS_MODECMD CANCEL withdraws a pending SLEEP_NOW, ENTER_SERVICE or ENTER_BACKUP, and grants resume. (R68) -/
  | cancel (lvl : Level) (key : BitVec 16)
  /-- The ENTER_BACKUP flush of the journal and checkpoints ends or times out at 50 ms, and PWRON is driven inactive. (R60) -/
  | backupFlushDone (leftKB : Nat)
  /-- The core PLL fails to lock within 1 ms; FALLBACK is set, RF grants are refused and a fault is recorded. (R52) -/
  | pllLockTimeout (refin : Bool := true)
  /-- Every 10 ms in FALLBACK the device retries the core PLL lock. (R52) -/
  | pllLockRetry (locks : Bool) (refin : Bool := true)
  /-- The core PLL locks; FALLBACK clears and RF grants resume. (R52) -/
  | pllLock
  /-- A running core PLL loses lock; transmitters ramp down, work aborts, and the device falls back. (R53) -/
  | pllLockLoss (refin : Bool := true)
  /-- A write of SYS_WAKEEN takes effect at once and refreshes the backup copy of bits [5:0]. (R69) -/
  | wakeenWrite (lvl : Level) (value : Word)
  /-- 600 µs before a listen window in WATCH, the sequencer starts REFIN, the core PLL and RF bias. (R63) -/
  | watchWindowPrepare
  /-- A WATCH listen window closes and the sequencer stops the three clocks. (R63) -/
  | watchWindowClose
  /-- A falling edge of HSEL_N starts a frame, fixes the SPI idle level, and wakes a sleeping core as HOSTSEL. (R107) -/
  | hselFall (hsck : Bool)
  /-- HSEL_N rises and ends the frame or transfer at the host transaction boundary, discarding an incomplete one as ABORT. (R121) -/
  | hselRise (edges : SelectEnd)
  /-- An HSCK edge given while HRDY is low aborts the frame as UNDERRUN and ignores edges until HSEL_N rises. (R111) -/
  | underrun
  /-- The G2 STATUS command returns the status word and does nothing else; its header carries `cmd`, 0x80 for STATUS, and any byte
outside 0x80–0x85 makes the frame BADCMD. (R114) -/
  | g2Status (addr count crc : BitVec 16) (cmd : Byte := 0x80)
  /-- The G2 READ command returns COUNT words in ascending address order, then a CRC; `shifted` words have been read when the frame is
cut, COUNT of a whole frame; `ecc` is the error state of each word read, where it comes from a FIFO port (R501). (R120) -/
  | g2Read (addr count crc : BitVec 16) (shifted : Nat := count.toNat) (ecc : List (Fin 3) := [])
  /-- A G2 WRITE with a correct frame CRC applies its words in ascending order under the protection in force. (R119) -/
  | g2Write (addr count : BitVec 16) (words : List Word) (crc : BitVec 16)
  /-- UNLOCK compares its code with the unlock key and raises the host to SUPERVISOR, or counts a failure and starts a lockout. (R132) -/
  | unlock (addr count : BitVec 16) (code : Word) (crc : BitVec 16)
  /-- LOCK returns the host to USER level. (R132) -/
  | lock_ (addr count crc : BitVec 16)
  /-- STREAM selects a Shale channel and starts G3 for COUNT transfers if read permission is held. (R122) -/
  | stream (addr count crc : BitVec 16)
  /-- One G3 select shifts out LEN bits of 40-bit units and consumes each unit at its last bit. (R123) -/
  | g3Transfer (edges : Nat) (ecc : List (Fin 3))
  /-- HSEL_N stays high longer than G3IDLE, and G3 ends with a return to G2. (R122) -/
  | g3IdleExpiry
  /-- A blocking or skip wait reaches HSP_STALL_MAX; a NOT_VALID unit is sent and STALL is recorded. (R125) -/
  | g3StallTimeout
  /-- A G1 read unit reads its mapped byte after 8 edges, with byte-0 latching under R584; `ecc` is the error state of a FIFO word that it
  takes (R501). (R128) -/
  | g1Read (addr : BitVec 7) (ecc : Fin 3 := 0)
  /-- A G1 write unit changes only its mapped byte after all 16 edges. (R585) -/
  | g1Write (addr : BitVec 7) (data : Byte)
  /-- No G2 frame completes for SUPIDLE seconds, and the host returns from SUPERVISOR to USER. (R132) -/
  | supidleLapse
  /-- The 100 ms lockout after a failed UNLOCK expires. (R133) -/
  | unlockLockoutEnd
  /-- An engine or the firmware posts a resource request with class, mask and lease kind, fencing scheduled C0 items. (R145) -/
  | requestPost (req : RequestSpec)
  /-- A holder posts an all-or-nothing top-up for resources later in the global order. (R154) -/
  | topUp (holder : Consumer) (mask : BitVec 11) (kind : LeaseKind)
  /-- An ungranted request is withdrawn and its reservation lapses. (R153) -/
  | requestWithdraw (who : Consumer)
  /-- At a grant point the scheduler grants C0, C1, credited C3, the DRR head and backfill in one decision. (R161) -/
  | grantDecision
  /-- The 1 ms tick in ACTIVE, RADIO and SERVICE makes a grant point. (R146) -/
  | grantTick
  /-- A consumer releases its grant, or its top-up alone, at a boundary and is charged its held time. (R152) -/
  | release (who : Consumer) (topUp : Bool := false)
  /-- At the lease end minus the warning time, the engine is told to start no new work. (R151) -/
  | leaseWarning (who : Consumer)
  /-- At the lease end the grant is extended once for a transaction, or withdrawn with abort, OVERRUN and LEASE. (R151) -/
  | leaseEnd (who : Consumer) (inTransaction : Bool) (topUp : Bool := false)
  /-- A scheduled C0 item's free time arrives and it is granted within 2 µs, or refused without COEX. (R158) -/
  | c0FreeTime (who : Consumer)
  /-- A C2 request ungranted for MAXWAIT is promoted to C1 for its next grant. (R165) -/
  | starvePromote (who : Consumer)
  /-- CXGNT falls while a grant holds COEX; transmitters are muted, work is aborted and the request is reposted. (R170) -/
  | cxgntLoss
  /-- The synchronised CXGNT level rises and makes a grant point. (R146) -/
  | cxgntRise
  /-- CXREQ has been high for LEAD, and COEX may then be granted at a grant point. (R147) -/
  | cxreqLeadSatisfied
  /-- A request waiting for CXGNT reaches CXWAIT; its reservation lapses and a C2 head is passed over. (R171) -/
  | cxwaitTimeout (who : Consumer)
  /-- XREQ rises in the arbiter role and posts the external requester's COEX request. (R172) -/
  | xreqRise
  /-- XREQ falls and XGNT drops within 2 µs, ending the external grant. (R172) -/
  | xreqFall
  /-- Every 100 ms SYS_LOAD is computed, and SHED rises or falls by one. (R173) -/
  | loadSample (load : Fin 1001)
  /-- A tune command moves a path to SETTLE, checks spacing and looks up a calibration slot. (R188) -/
  | tune (path : RfPath) (chan : BitVec 14) (use : PathUse)
  /-- The synthesiser locks; the margin is measured and written, and a full result may be stored. (R188) -/
  | synthLock (path : RfPath) (margin : Fin 64) (band : BitVec 4) (cap : BitVec 7)
  /-- A stored word fails to lock within 16 µs, and the path runs a full calibration at once. (R188) -/
  | storedWordFail (path : RfPath)
  /-- No lock 250 µs after SETTLE entry; the path goes to IDLE, the slot is invalidated and the work aborts. (R191) -/
  | lockFail (path : RfPath)
  /-- A command for READ or TXON is carried out, or held while the path settles. (R192) -/
  | txCommand (path : RfPath) (use : PathUse) (chan : BitVec 14) (port : Fin 4) (index : BitVec 7)
  /-- A held transmit command sees no lock within RAD_TXHOLD_MAX and is rejected with an abort. (R192) -/
  | locktimeout (path : RfPath)
  /-- The carrier ramps up at the latest of lock plus 2 µs, switch settle, PA lead and rate switch. (R194) -/
  | carrierRampUp (path : RfPath)
  /-- A path hops within its grant: ramp-down, SETTLE on the new channel, ramp-up. (R195) -/
  | hop (path : RfPath) (chan : BitVec 14)
  /-- A visit on another read point changes USWn with the carrier off and marks samples invalid until SWSETTLE. (R196) -/
  | portSwitch (path : RfPath) (rp : Fin 64)
  /-- Every 100 µs the detector loop moves the DAC one step towards DET, or sets PWRERR at trim ±32. (R201) -/
  | detectorUpdate (path : RfPath) (reading : BitVec 10)
  /-- The detector reads over 60 codes above DET for 5 µs, and the carrier is muted without ramp. (R202) -/
  | overpower (path : RfPath)
  /-- UPAENk falls PALAG after the end of ramp-down. (R203) -/
  | paDisable (pa : Fin 2)
  /-- The 20 µs sample-rate switch completes, and sampling and pending ramp-ups resume. (R205) -/
  | rateSwitchDone (chain : Fin 4)
  /-- Each 1 µs peak measurement in RXON steps the LNA down or up, subject to DWELL and freeze. (R208) -/
  | agcStep (chain : Fin 4) (peak : Byte)
  /-- More than 4 clipped samples within 1 µs in READ step the gain down at once. (R209) -/
  | clipStepDown (chain : Fin 4)
  /-- 20 µs after ramp-up in READ the injector vector is corrected once and the READ gain is chosen. (R213) -/
  | refinementEnd (path : RfPath) (meas : List ChainResidual)
  /-- After the first 1 ms of READ, total suppression below FAIL sets CANCFAIL and makes the vector overdue. (R216) -/
  | cancelCheck (chain : Fin 4) (path : RfPath) (suppression : Byte)
  /-- SLT_CMD WRITE validates the staged entry and starts the sector rewrite, or refuses it. (R248) -/
  | slateWrite (lvl : Level) (index : Fin 1024)
  /-- SLT_CMD READ copies the in-force entry into the buffer within 20 µs. (R249) -/
  | slateRead (lvl : Level) (index : Fin 1024)
  /-- SLT_CMD ERASE rewrites the entry as 0xFF by the WRITE steps, or is refused with INUSE. (R249) -/
  | slateErase (lvl : Level) (index : Fin 1024)
  /-- A sector rewrite completes its read-back; it succeeds, retries once, or ends NORWRITE. (R248) -/
  | slateReadback (good : Bool)
  /-- A written entry comes into force at once, or when the grant holding it ends, updating summary and cache. (R248) -/
  | slateActivate
  /-- A Slate cache fill over the memory port completes, or empties the entry on a CRC failure. (R244) -/
  | cacheFill (index : Fin 1024)
  /-- PERIOD ms after its last grant ended, a periodic Slate entry becomes pending. (R241) -/
  | entryPending (index : Fin 1024)
  /-- A visit ends at its deadline, when no slot fits, or after an empty cycle with nothing singulated. (R259) -/
  | visitEnd (path : RfPath)
  /-- No preamble arrives by the empty judgement; the slot is EMPTY and the Q algorithm sends the next command. (R256) -/
  | slotEmpty (path : RfPath)
  /-- RN16 replies in a slot are classed SINGLE, CAPTURED or COLLISION, and an ACK or the next command follows. (R266) -/
  | rn16Reply (path : RfPath) (replies : List Rn16Reply)
  /-- An EPC reply with a good CRC after an ACK makes a read and starts the entry's access program. (R268) -/
  | epcReply (path : RfPath) (reply : EpcReply)
  /-- A missing or bad EPC reply is answered by a repeated ACK, or by NAK with EPCFAIL. (R268) -/
  | epcReplyMissing (path : RfPath)
  /-- A tag answers an access-program step, and the next step starts if it fits before the nearest time. (R273) -/
  | accessStepReply (path : RfPath) (reply : StepReply)
  /-- An access step gets no reply or a bad CRC, and is repeated up to STEPRETRY times or reported failed. (R274) -/
  | accessStepTimeout (path : RfPath) (badCrc : Bool)
  /-- Flint is granted for an AUTH step; the response is decrypted and checked, giving OK or AUTHFAIL. (R276) -/
  | authFlintGrant (path : RfPath) (response : BitVec 128)
  /-- HOPIVL has passed since SETTLE entry, and the path hops at the next slot boundary to a qualifying channel. (R285) -/
  | hopInterval (path : RfPath)
  /-- A channel's MAXON or OCCMAX deadline is reached; the carrier goes off and the path hops or the round ends DWELL. (R287) -/
  | regulatoryDeadline (path : RfPath)
  /-- OFF after ramp-down, a BARRED channel is cleared. (R283) -/
  | channelUnbar (index : Fin 50)
  /-- An occupancy bin of WINDOW/200 elapses and the oldest bin leaves the OCC sum. (R283) -/
  | occBin
  /-- BRM_IMM GO checks the request and posts a C1 round that runs a program on up to MAXTAGS tags. (R277) -/
  | immediateAccess (lvl : Level) (value : Word)
  /-- FOFF has passed since field-off, and the field may come on again on that port. (R302) -/
  | foffWaitEnd
  /-- GUARD after the field reaches 90 %, the first request of the class is sent. (R301) -/
  | guardEnd
  /-- A card's answer is received and handled by anticollision, selection, halting, activation and reporting. (R311) -/
  | cardFrame (frame : CardFrame)
  /-- A card's answer window passes with no answer; no card is found and the poll goes on or the visit ends. (R307) -/
  | answerTimeout
  /-- A card's S(WTX) is answered and the wait extended, or the exchange ends WTXCAP or PROTOCOL. (R322) -/
  | wtxRequest (inf : Byte)
  /-- A 14443-4 block times out or has a bad CRC and is recovered by R-blocks, then S(DESELECT), then field-off. (R324) -/
  | blockTimeout (ruleBreak : Bool)
  /-- HF_IMM OPEN posts a C1 HF session request, polls the leaves and keeps and activates the first card. (R325) -/
  | open_ (lvl : Level) (entry : BitVec 10) (target : BitVec 7)
  /-- HF_IMM XCHG sends the transmit buffer as one APDU and gathers the answer. (R325) -/
  | xchg (lvl : Level)
  /-- HF_IMM RAW sends the transmit buffer as one frame and gathers one answer within TMO. (R325) -/
  | raw (lvl : Level)
  /-- HF_IMM CLOSE deselects the card, switches the field off and releases the session. (R325) -/
  | close (lvl : Level)
  /-- No host session command is written for IMMIDLE, and the session ends with reason IDLE. (R327) -/
  | sessionIdle
  /-- A write of HF_TXLEN.CLR clears both HF buffers and sets RXLEN to 0. (R328) -/
  | txlenClr (lvl : Level) (value : Word)
  /-- A Gorse ping falls due, bursts into the antenna, measures dA and dP, and updates the baseline or the confirm count. (R331) -/
  | gorsePing (re im : Int)
  /-- 2 ms after a ping over the threshold, the next confirming ping is taken. (R332) -/
  | confirmPing (re im : Int)
  /-- Every 600 s a C3 baseline refresh retrims the Gorse oscillator. (R334) -/
  | gorseRefresh (trim : Byte)
  /-- A ping not granted within IVL × 31.25 ms of falling due is skipped. (R334) -/
  | pingSkip
  /-- The rectified field holds above threshold for 1 ms; the tag becomes ready and OPEN, and TAG_FIELD and TAGFIELD fire. (R346) -/
  | tagFieldOn (harvOk : Bool)
  /-- The field is below threshold for 100 µs, and the tag goes to power-off and OPEN. (R346) -/
  | tagFieldLost
  /-- The ISO/IEC 15693 Inventory command is answered with the UID in its slot. (R351) -/
  | inventory (hdr : TagHdr) (afi : Option Byte) (maskLen : Byte) (mask : BitVec 64)
  /-- An addressed Stay quiet puts the tag into the quiet state. (R354) -/
  | stayQuiet (hdr : TagHdr)
  /-- Read single block returns a block if its area and the security state allow it. (R349) -/
  | readSingleBlock (hdr : TagHdr) (block : Byte)
  /-- Write single block programs one block atomically under R350 if allowed. (R352) -/
  | writeSingleBlock (hdr : TagHdr) (block : Byte) (data : Word) (prog : ProgResult)
  /-- Read multiple blocks returns 1 to 64 blocks if every one is allowed. (R349) -/
  | readMultipleBlocks (hdr : TagHdr) (first : Byte) (count : Nat)
  /-- Write multiple blocks programs blocks within one page atomically if allowed. (R352) -/
  | writeMultipleBlocks (hdr : TagHdr) (first : Byte) (data : List Word) (prog : ProgResult)
  /-- Select with the tag's UID selects the tag; with another UID it returns a selected tag to ready. (R354) -/
  | select_ (hdr : TagHdr)
  /-- Reset to ready returns the tag to ready and OPEN. (R354) -/
  | resetToReady (hdr : TagHdr)
  /-- Get system info returns DSFID, AFI, a 256-block size and the IC reference. (R351) -/
  | getSystemInfo (hdr : TagHdr)
  /-- Extended read single block returns any block up to 16,383 if allowed. (R349) -/
  | extendedReadSingleBlock (hdr : TagHdr) (block : BitVec 16)
  /-- Extended write single block programs any block up to 16,383 if allowed. (R352) -/
  | extendedWriteSingleBlock (hdr : TagHdr) (block : BitVec 16) (data : Word) (prog : ProgResult)
  /-- Extended read multiple blocks returns 1 to 64 blocks anywhere in the store. (R349) -/
  | extendedReadMultipleBlocks (hdr : TagHdr) (first : BitVec 16) (count : Nat)
  /-- Extended write multiple blocks programs blocks within one page atomically. (R352) -/
  | extendedWriteMultipleBlocks (hdr : TagHdr) (first : BitVec 16) (data : List Word) (prog : ProgResult)
  /-- Extended get system info returns DSFID, AFI and the 16,384-block size. (R351) -/
  | extendedGetSystemInfo (hdr : TagHdr)
  /-- Get random returns and keeps a fresh 16-bit RN. (R355) -/
  | getRandom (hdr : TagHdr)
  /-- Authenticate METHOD LEAVE returns the tag to OPEN. (R356) -/
  | leave (hdr : TagHdr)
  /-- Authenticate PASSWORD checks P against the password and RN, and gives SECURED or a counted failure. (R358) -/
  | password (hdr : TagHdr) (keynum : Byte) (p : Word)
  /-- Authenticate AES1 draws RnT and returns it with E1, using Flint and firing TAGCMD in sleep, or answers NOCORE. (R357) -/
  | aes1 (hdr : TagHdr) (keynum : Byte) (rnr : BitVec 64)
  /-- Authenticate AES2 checks E2 right after AES1, and gives SECURED or a counted failure. (R357) -/
  | aes2 (hdr : TagHdr) (e2 : BitVec 128)
  /-- Read fault log returns TOTAL and up to COUNT records from OFFSET before the newest. (R363) -/
  | readFaultLog (hdr : TagHdr) (offset : BitVec 16) (count : Byte)
  /-- Read fault log with OFFSET 0xFFFF returns the status snapshot of 8 register words. (R364) -/
  | statusSnapshot (hdr : TagHdr) (count : Byte)
  /-- An unsupported tag command gets error 0x01 when addressed or selected, and no reply otherwise. (R351) -/
  | unsupportedCommand (hdr : TagHdr) (code : Byte)
  /-- The firmware writes a page of copied FLT records into the fault-log ring under a C3 TAGNVM grant. (R361) -/
  | faultLogWrite (prog : ProgResult)
  /-- TAG_HCMD READ copies the committed page and its generation into the host buffer. (R366) -/
  | tagHostRead (lvl : Level) (page : Byte)
  /-- TAG_HCMD WRITE copies the buffer and stages a page write until its commit point. (R367) -/
  | tagHostWrite (lvl : Level) (check : Bool) (gen page : Byte)
  /-- At the commit point a staged host write is checked for conflict, then programmed or ended CONFLICT. (R367) -/
  | tagCommitPoint (prog : ProgResult)
  /-- TAG_HCMD CLRFAIL resets the authentication failure count FAILS to 0. (R375) -/
  | clrfail (lvl : Level)
  /-- Every 1 s, and on entry to a sleep mode, the firmware refreshes the tag's status snapshot. (R364) -/
  | snapshotRefresh
  /-- The VHARV output stays below 2.9 V for 1 ms and is switched off. (R371) -/
  | harvUndervoltage
  /-- 10 ms after an undervoltage switch-off, VHARV is tried again. (R371) -/
  | harvRetry (inRegulation : Bool)
  /-- A link frame's SFD or STF end is detected; the gain freezes, the stamp is taken and preemption detection starts. `carriers` is the
  SNR of each data sub-carrier in 0.25 dB, by which the equaliser erases; empty, `erased` of `active` and `snr` stand for them (R391).
  (R390) -/
  | linkSfd (level snr : Byte) (erased active : Nat) (lead : LinkLead := ⟨32, true, 0⟩) (carriers : List Byte := [])
  /-- The PHR is decoded and checked; an invalid or unsupported one ends the frame RX_PHR or RX_UNSUPP. (R383) -/
  | linkPhr (phr : LinkPhr)
  /-- A preamble at least DB stronger during a frame abandons it as RX_PREEMPTED and acquires the new frame. (R392) -/
  | linkPreempt (level : Byte)
  /-- A received link frame ends with a PHY status, which R411 checks, and is delivered, acknowledged or reported. `psdu` is the PSDU as
  received, its FCS at the end and whitened where WHITEN has it so; given, it decides the FCS and the frame (R381, R382). (R394) -/
  | linkFrameEnd (fcsGood : Bool) (frame : LinkFrame) (psdu : Option (List Byte) := none)
  /-- Every 128 µs in RXON outside a frame, the channel energy is measured for CCA. (R396) -/
  | edSample (level : Byte)
  /-- LNK_TXCMD GO queues one frame from the buffer, or refuses it or reports FULL. (R406) -/
  | linkTx (lvl : Level) (value : Word)
  /-- LNK_TXCMD FLUSH discards every queued frame that has not begun an attempt. (R406) -/
  | txFlush (lvl : Level)
  /-- A listen ends clear and the frame is transmitted, or busy and a backoff follows, or the frame ends BUSY. (R408) -/
  | listenEnd
  /-- The random backoff ends and the next listen starts. (R408) -/
  | backoffEnd
  /-- A transmitted frame ends; it is SENT, or the device turns round to wait for an Imm-Ack. (R409) -/
  | linkTxEnd
  /-- No Imm-Ack arrives within ACKDLY ± 200 µs; the attempt fails and is retried or ends NOACK. (R409) -/
  | ackWaitEnd
  /-- Exactly ACKDLY after an acceptable data frame, an Imm-Ack is sent without listening. (R410) -/
  | immAckSend
  /-- A queued frame reaches LIFE seconds and ends EXPIRED. (R409) -/
  | frameExpired (pos : Fin 8)
  /-- A 10 s duty bin closes and the oldest bin leaves each sub-band's account. (R420) -/
  | dutyBin
  /-- A duty checkpoint of the sub-band bins is written, every 600 s or on a 1 % rise. (R421) -/
  | dutyCheckpoint
  /-- 20 ms before a BTX, BRX or RDV slot, the MAC posts it, or reports it as skipped. (R424) -/
  | slotPost (kind : SlotKind) (src : Fin 4)
  /-- A beacon instant arrives; after a clear listen the Enhanced Beacon is sent, or it is skipped if busy. (R427) -/
  | beaconInstant
  /-- A beacon window ends without reception and the source moves to MISSING, STALE or LOST. (R432) -/
  | brxWindowEnd (src : Fin 4)
  /-- Every RESCAN seconds a LOST source is searched with one widest window. (R432) -/
  | rescan (src : Fin 4)
  /-- HOLDOVER seconds without an adoptable source pass, and the node stops beaconing. (R436) -/
  | holdoverEnd
  /-- A read is merged into the open entry with its key, or opens the lowest free entry. (R450) -/
  | readMerge (read : ReadIn)
  /-- On the 10 ms tick, reads are merged and entries past HOLD or MAXOPEN are closed and reported. (R453) -/
  | sightingTick
  /-- 60 s after a traffic interval ends, a TRF packet is written for each zone and TRF_INTERVAL is raised. (R460) -/
  | intervalReport
  /-- A write of SGT_SEL copies entry INDEX into SGT_E0–SGT_E15 untorn. (R463) -/
  | sgtSelWrite (lvl : Level) (value : Word)
  /-- A write of SGT_CFG is applied, or ignored as a whole with CFGERR when a field is out of range. (R463) -/
  | sgtCfgWrite (lvl : Level) (value : Word)
  /-- MSP_HCMD READ reads 64 NOR bytes into the host buffer as a C1 request. (R467) -/
  | mspRead (lvl : Level) (addr : BitVec 24)
  /-- MSP_HCMD PROGRAM writes 1 to 64 bytes to the NOR and verifies them. (R467) -/
  | mspProgram (lvl : Level) (addr : BitVec 24) (verifyOk : Bool)
  /-- MSP_HCMD ERASE erases a 4 KB NOR sector. (R467) -/
  | mspErase (lvl : Level) (addr : BitVec 24)
  /-- The journal writer takes a packet from JNL and builds a journal record in the page buffer; the error state of its first word, and of
  the words after it (R501). (R472) -/
  | journalRecord (ecc : Fin 3) (more : List (Fin 3) := [])
  /-- A journal page buffer is programmed to the head of the NAND ring. (R477) -/
  | journalPageProgram (ok : Bool)
  /-- FLUSH seconds after a page's first record, the page is programmed. (R477) -/
  | jnlFlushTimeout
  /-- As C3 work, the tail block is compacted if allowed and then erased to keep the reserve. (R478) -/
  | journalErase (ok : Bool)
  /-- JNL_CMD FORMAT discards and reformats the mounted journal. (R481) -/
  | format (lvl : Level) (key : BitVec 16)
  /-- JNL_CMD FLUSH programs the current page buffer. (R477) -/
  | journalFlush (lvl : Level) (key : BitVec 16)
  /-- JNL_RDCMD loads one journal page into the read buffer, or ends RANGE or UCE. (R482) -/
  | journalRead (lvl : Level) (page : BitVec 21) (correctable : Bool)
  /-- A producer's packet is admitted under the free space, behind a pending GAP word, or dropped. (R496) -/
  | packetAdmit (ch : Fin 9) (words : List Word)
  /-- The write bank is handed to the consumer once the read bank is released and a handover condition holds. (R490) -/
  | bankHandover (ch : Fin 9)
  /-- A host channel's stale timer expires; STALE is set and a partial handover is permitted. (R504) -/
  | staleTimeout (ch : Fin 8)
  /-- A read of FIFO_PORTn consumes one unit and latches its tag, or returns NOT_VALID. (R509) -/
  | fifoPortRead (lvl : Level) (ch : Fin 8) (ecc : Fin 3)
  /-- FIFO_CMD DROP_PKT skips the rest of the packet being read. (R499) -/
  | dropPkt (lvl : Level) (ch : Fin 8)
  /-- FIFO_CMD FLUSH skips every packet written so far, keeping and merging GAP counts. (R500) -/
  | fifoFlush (lvl : Level) (ch : Fin 8)
  /-- A DROP_PKT or FLUSH skip completes, and a waiting G3 read proceeds; `ecc` is the error state of each word skipped (R501). (R499) -/
  | skipEnd (ch : Fin 8) (ecc : List (Fin 3) := [])
  /-- A timer's count wraps; ZERO is raised, BUF is sampled, channels re-arm and one-shots stop. (R512) -/
  | timerWrap (n : Fin 16)
  /-- An armed compare channel finds d below 2^31; it fires, sets CMP and LATE, and disarms. (R519) -/
  | compareFire (n : Fin 16) (k : Fin 4)
  /-- A capture event stores the counter in the 4-deep queue, or sets OVR when full. (R522) -/
  | capture (n : Fin 16)
  /-- One cycle after its source event, a trigger input applies GATE, RESET, START or CLOCK. (R524) -/
  | triggerAction (n : Fin 16) (input : TrigInput)
  /-- TMRn_CTRL START sets RUN and counts from the present value. (R514) -/
  | timerStart (lvl : Level) (n : Fin 16)
  /-- TMRn_CTRL STOP clears RUN and holds the counter and prescaler. (R514) -/
  | timerStop (lvl : Level) (n : Fin 16)
  /-- TMRn_CTRL RESET loads the start value, clears the prescaler and re-arms, without ZERO. (R514) -/
  | timerReset (lvl : Level) (n : Fin 16)
  /-- TMRn_CTRL CAPCLR empties the capture queue. (R523) -/
  | capclr (lvl : Level) (n : Fin 16)
  /-- TMR_GCMD START starts every masked timer in one cycle. (R533) -/
  | gcmdStart (lvl : Level) (mask : BitVec 16)
  /-- TMR_GCMD STOP stops every masked timer in one cycle. (R533) -/
  | gcmdStop (lvl : Level) (mask : BitVec 16)
  /-- TMR_GCMD RESET resets every masked timer in one cycle. (R533) -/
  | gcmdReset (lvl : Level) (mask : BitVec 16)
  /-- A write of TMRn_CNT sets the counter in the next cycle and clears the prescaler. (R514) -/
  | tmrCntWrite (lvl : Level) (n : Fin 16) (value : Word)
  /-- A write of TMRn_BUF governs the period from the next wrap. (R513) -/
  | tmrBufWrite (lvl : Level) (n : Fin 16) (value : Word)
  /-- A write of TMRn_CMPk arms compare channel k. (R519) -/
  | cmpWrite (lvl : Level) (n : Fin 16) (k : Fin 4) (value : Word)
  /-- A write of TMR_SNAP copies every masked counter into TMRn_SNAPV in one cycle. (R516) -/
  | tmrSnap (lvl : Level) (mask : BitVec 16)
  /-- A read of TMRn_CAP returns and removes the oldest capture. (R523) -/
  | tmrCapRead (lvl : Level) (n : Fin 16)
  /-- A write of TMR_TOUTm sets the output level to INIT at once, or is ignored for event code 6. (R525) -/
  | toutWrite (lvl : Level) (m : Fin 8) (value : Word)
  /-- A read of QTZ_TIME0 snapshots the time, date and Q64 time coherently. (R540) -/
  | qtzTime0Read (lvl : Level)
  /-- QTZ_CMD SETTIME checks the staged time and sets it at the next second boundary. (R541) -/
  | settime (lvl : Level) (key : BitVec 16) (clrOsf : Bool)
  /-- QTZ_CMD SET_NOW checks the staged time and sets it at the next CLK32K edge. (R541) -/
  | setNow (lvl : Level) (key : BitVec 16) (clrOsf : Bool)
  /-- QTZ_CMD CANCEL withdraws a pending SETTIME. (R541) -/
  | qtzCancel (lvl : Level) (key : BitVec 16)
  /-- QTZ_CMD PWR_RELEASE drives PWRON inactive. (R554) -/
  | pwrRelease (lvl : Level) (key : BitVec 16)
  /-- QTZ_CMD PWR_ASSERT drives PWRON active as a firing source would. (R554) -/
  | pwrAssert (lvl : Level) (key : BitVec 16)
  /-- A write of QTZ_SHIFT requests a shift for the next second boundary, unless one is pending. (R544) -/
  | shiftRequest (lvl : Level) (value : Word)
  /-- A write of QTZ_CDN loads and starts the countdown, or stops it with 0. (R552) -/
  | countdownWrite (lvl : Level) (value : Word)
  /-- The sub-second count completes a second; pending time sets, shifts, QTZ commits and the alarm are applied. (R537) -/
  | secondBoundary
  /-- The countdown reaches 0; CDN is set, the interrupt and wake fire, and it reloads or stops. (R552) -/
  | countdownZero
  /-- A spread trim adjustment adds or deletes one SUBSEC count. (R546) -/
  | trimAdjustment
  /-- An automatic-trim window ends; E is recorded and T is updated, or the window is rejected. (R550) -/
  | autotrimWindowEnd
  /-- No MAINSZC edge is accepted within 1.5 spacings; the window is abandoned as a rejection. (R548) -/
  | autotrimEdgeTimeout
  /-- The 32.768 kHz oscillator stops for 4 periods; OSF is set, QTZ_OSF is raised and the clock holds. (R551) -/
  | oscStop
  /-- The crystal's first good period resumes the calendar, countdown and trim window. (R551) -/
  | oscRestart
  /-- Every 60 s on VBAT, VBAT is compared with 2.0 V and VBATLOW is set when lower. (R536) -/
  | vbatCheck (low : Bool)
  /-- WIDTH × 10 ms after it last fired, a pulsed PWRON returns to inactive. (R554) -/
  | pwronPulseEnd
  /-- CAL_CMD RUN makes an instance of an item due. (R564) -/
  | calRun (lvl : Level) (key : BitVec 16) (item : BitVec 4) (inst : Byte)
  /-- CAL_CMD SAVE writes the calibration values to the older half of the save area and verifies them. (R573) -/
  | save (lvl : Level) (key : BitVec 16) (items : Byte) (verifyOk : Bool)
  /-- CAL_CMD RESTORE applies the newest valid half as CAL records, or is refused NOSAVE. (R573) -/
  | restore (lvl : Level) (key : BitVec 16) (items : Byte)
  /-- CAL_CMD TRACE_RX measures an external tone on a chain and corrects RXOFS. (R570) -/
  | traceRx (lvl : Level) (key : BitVec 16) (chain : Fin 4) (measured ferr : Int)
  /-- CAL_CMD TRACE_TX radiates CW on the reference port, index and channel. (R570) -/
  | traceTx (lvl : Level) (key : BitVec 16)
  /-- CAL_CMD TRACE_END computes DELTA from the written reference power and lowers DET on the port. (R570) -/
  | traceEnd (lvl : Level) (key : BitVec 16)
  /-- 60 s after TRACE_TX without TRACE_END, the carrier ends and RESULT is ABORTED. (R570) -/
  | traceTimeout
  /-- An instance becomes due by its period, a temperature change or a trigger, and is requested as C3. (R564) -/
  | calDue (item : Fin 8) (inst : Byte) (why : DueReason)
  /-- Every 1 s while the core runs, the die temperature is sampled into CAL_TEMP. (R564) -/
  | tempSample (temp : BitVec 12)
  /-- A calibration step completes and the instance moves on, or completes, or fails with CALFAIL. (R566) -/
  | calStepDone (item : Fin 8) (inst : Byte) (res : StepResult)
  /-- An instance is due for GRACE seconds without completing, becomes overdue and raises CAL_OVERDUE. (R565) -/
  | calGraceExpiry (item : Fin 8) (inst : Byte)
  /-- Staged results are written to in-force and shadow registers at the path's boundary, raising CAL_DONE. (R567) -/
  | calApply (item : Fin 8) (inst : Byte)
  /-- 60 s after an abort, the kept steps of an instance are discarded and it restarts from its first step. (R566) -/
  | calResumeExpiry (item : Fin 8) (inst : Byte)
  /-- A single-bit SRAM error is found on a read, corrected, written back, and raises interrupt source SRAM_CE. (R46) -/
  | sramCe
  /-- At SHED 4, HOSTGAP has passed since the previous admitted frame, so HRDY rises and the held READ or WRITE frame proceeds. (R174) -/
  | hostgapElapsed
  /-- LEAD before the free time of a scheduled C0 set that needs COEX, the device raises CXREQ. (R169) -/
  | cxreqRise
  /-- RF bias settles up to 300 µs after the first RF grant, so both paths go from OFF to IDLE and RFBIAS becomes 1. (R182) -/
  | rfBiasSettled
  /-- An edge on MAINSZC is accepted or ignored by spacing, counted toward N, and the first accepted edge starts an automatic-trim window. (R548) -/
  | mainszcEdge
  deriving DecidableEq, Repr

end Sys2Proof
end

