-- ==== Sys2Proof/Machine/Bits.lean ====
section
/-! DEFINITION. Bit fields, saturating and wrapping counts, byte order, and the two CRCs of the manual (R82, R115). -/

namespace Sys2Proof.Machine

/-- Bits `hi` to `lo` of a register word, as a number. -/
def bitsOf (w : Word) (hi lo : Nat) : Nat := (w.toNat >>> lo) % 2 ^ (hi + 1 - lo)

/-- The mask of bits `hi` to `lo`. -/
def maskOf (hi lo : Nat) : Word := BitVec.ofNat 32 ((2 ^ (hi + 1 - lo) - 1) <<< lo)

/-- A register word with bits `hi` to `lo` replaced. -/
def putBits (w : Word) (hi lo v : Nat) : Word :=
  (w &&& ~~~(maskOf hi lo)) ||| (BitVec.ofNat 32 (v <<< lo) &&& maskOf hi lo)

/-- A sum that stops at `top` (the saturating counters of the manual). -/
def satAdd (top a b : Nat) : Nat := if top ≤ a + b then top else a + b

/-- A signed number kept within `lo` and `hi`. -/
def clampInt (lo hi v : Int) : Int := if v < lo then lo else if hi < v then hi else v

/-- Two's complement of width `n`, read as a signed number. -/
def signedOf (n v : Nat) : Int := if v % 2 ^ n < 2 ^ (n - 1) then (v % 2 ^ n : Nat) else (v % 2 ^ n : Nat) - 2 ^ n

/-- A signed number as two's complement of width `n`. -/
def unsignedOf (n : Nat) (v : Int) : Nat := (v % (2 ^ n : Nat)).toNat

/-- Division with a half rounded away from zero (R550); the divisor is positive. -/
def roundHalfAway (a : Int) (b : Nat) : Int :=
  if 0 ≤ a then (2 * a + b) / (2 * b) else -((2 * (-a) + b) / (2 * b))

/-- The number whose bytes, least significant first, are given (R7). -/
def leNat : List Byte → Nat
  | [] => 0
  | b :: bs => b.toNat + 256 * leNat bs

/-- The bytes of a number, least significant first (R7). -/
def leBytes : Nat → Nat → List Byte
  | 0, _ => []
  | n + 1, v => BitVec.ofNat 8 v :: leBytes n (v / 256)

/-- The number whose bytes, most significant first, are given (R109). -/
def beNat (bs : List Byte) : Nat := leNat bs.reverse

/-- The bytes of a number, most significant first (R109). -/
def beBytes (n v : Nat) : List Byte := (leBytes n v).reverse

/-- Byte `k` of a word, byte 0 its least significant. -/
def wordByte (w : Word) (k : Nat) : Byte := BitVec.ofNat 8 (w.toNat >>> (8 * k))

/-- Words from bytes, byte 0 of each group in bits [7:0]; a last short group is filled with zeros. -/
def packWords : List Byte → List Word
  | a :: b :: c :: d :: bs => BitVec.ofNat 32 (leNat [a, b, c, d]) :: packWords bs
  | [] => []
  | bs => [BitVec.ofNat 32 (leNat bs)]

/-- The bytes of words, each least significant first. -/
def unpackWords (ws : List Word) : List Byte := ws.flatMap fun w => leBytes 4 w.toNat

/-- One bit of a most-significant-first CRC of width `n` with polynomial `poly`. -/
def crcBitMsb (n poly crc : Nat) (bit : Bool) : Nat :=
  let top := crc.testBit (n - 1)
  let sh := (crc <<< 1) % 2 ^ n
  if top != bit then sh ^^^ poly else sh

/-- The bits of a number of width `n`, most significant first. -/
def bitsMsb : Nat → Nat → List Bool
  | 0, _ => []
  | n + 1, v => v.testBit n :: bitsMsb n v

/-- CRC-16/CCITT of R115: 0x1021, initial 0xFFFF, no reflection, no final XOR. -/
def crc16 (bs : List Byte) : Nat :=
  (bs.flatMap fun b => bitsMsb 8 b.toNat).foldl (crcBitMsb 16 0x1021) 0xFFFF

/-- One bit of the reflected CRC-32 of R82. -/
def crc32Bit (crc : Nat) : Nat := if crc.testBit 0 then (crc >>> 1) ^^^ 0xEDB88320 else crc >>> 1

/-- One byte of the reflected CRC-32 of R82. -/
def crc32Byte (crc : Nat) (b : Byte) : Nat := Nat.repeat crc32Bit 8 (crc ^^^ b.toNat)

/-- CRC-32 of R82: 0x04C11DB7, reflected, initial and final 0xFFFFFFFF. -/
def crc32 (bs : List Byte) : Nat := bs.foldl crc32Byte 0xFFFFFFFF ^^^ 0xFFFFFFFF

/-- Write one element of a list; out of range changes nothing. -/
def setAt {α : Type} (l : List α) (n : Nat) (v : α) : List α := l.set n v

/-- The number of one bits among the low `n` bits. -/
def popCount (n v : Nat) : Nat := ((List.range n).filter fun k => v.testBit k).length

/-- The places of the one bits among the low `n` bits, rising. -/
def bitList (n v : Nat) : List Nat := (List.range n).filter fun k => v.testBit k

/-- The lowest number below `n` that satisfies a test. -/
def firstBelow (n : Nat) (p : Nat → Bool) : Option Nat := (List.range n).find? p

end Sys2Proof.Machine
end

