-- ==== Sys2Proof/Machine/RegMap.lean ====
section
/-! DEFINITION. The register map: every populated register of R576 and R579, with the field map its home chapter gives
(field bits, access code of R8, Reset column of R12). 5,835 addresses in twenty windows. -/

namespace Sys2Proof.Machine

/-- The access codes of R8. -/
inductive Acc where
  | rw | ro | wo | w1c | w1s | sh | rsv
  deriving DecidableEq, Repr

/-- One row of a field map: bits, access code, Reset column. -/
structure FieldSpec where
  hi : Nat
  lo : Nat
  acc : Acc
  reset : Nat
  deriving DecidableEq, Repr

/-- A family of registers with one field map: `count` groups of `inner` consecutive words, `stride` apart (R579). -/
structure RegRow where
  base : Nat
  stride : Nat
  count : Nat
  inner : Nat
  fields : List FieldSpec
  deriving DecidableEq, Repr

/-- A named field of one register: its word address and its bits. -/
structure Field where
  addr : Nat
  hi : Nat
  lo : Nat
  deriving DecidableEq, Repr

/-- A window of R576: first and last word address. -/
structure Window where
  first : Nat
  last : Nat
  deriving DecidableEq, Repr

/-- The windows of R576, in address order. -/
def windows : List Window :=
  [⟨0x0, 0xFF⟩,
   ⟨0x100, 0x150⟩,
   ⟨0x200, 0x2FF⟩,
   ⟨0x400, 0x5FF⟩,
   ⟨0x600, 0x6FF⟩,
   ⟨0x800, 0xBFF⟩,
   ⟨0xC00, 0xFFF⟩,
   ⟨0x1000, 0x13FF⟩,
   ⟨0x1400, 0x14FF⟩,
   ⟨0x1500, 0x17FF⟩,
   ⟨0x1800, 0x18FF⟩,
   ⟨0x1900, 0x19FF⟩,
   ⟨0x1A00, 0x1AFF⟩,
   ⟨0x1B00, 0x1FFF⟩,
   ⟨0x2000, 0x23FF⟩,
   ⟨0x2800, 0x28FF⟩,
   ⟨0x2A00, 0x2AFF⟩,
   ⟨0x2B00, 0x2BFF⟩,
   ⟨0x2C00, 0x2CFF⟩,
   ⟨0x2E00, 0x2E0F⟩]

/-- The registers of the SYS window. -/
def rowsSYS : List RegRow :=
  [⟨0x0, 1, 1, 1, [⟨31, 16, .ro, 0x4816⟩, ⟨15, 12, .ro, 0x1⟩, ⟨11, 8, .rsv, 0x0⟩, ⟨7, 4, .ro, 0x1⟩, ⟨3, 0, .ro, 0x0⟩]⟩,
   ⟨0x10, 1, 1, 1, [⟨31, 23, .rsv, 0x0⟩, ⟨22, 20, .ro, 0x0⟩, ⟨19, 16, .rsv, 0x0⟩, ⟨15, 12, .ro, 0xF⟩, ⟨11, 11, .rsv, 0x0⟩, ⟨10, 8, .ro, 0x0⟩, ⟨7, 4, .rsv, 0x0⟩, ⟨3, 3, .ro, 0x0⟩, ⟨2, 0, .ro, 0x3⟩]⟩,
   ⟨0x11, 1, 1, 1, [⟨31, 24, .sh, 0x2⟩, ⟨23, 16, .sh, 0x14⟩, ⟨15, 12, .rsv, 0x0⟩, ⟨11, 11, .sh, 0x0⟩, ⟨10, 10, .sh, 0x0⟩, ⟨9, 3, .rsv, 0x0⟩, ⟨2, 0, .sh, 0x3⟩]⟩,
   ⟨0x12, 1, 1, 1, [⟨31, 16, .wo, 0x0⟩, ⟨15, 4, .rsv, 0x0⟩, ⟨3, 0, .wo, 0x0⟩]⟩,
   ⟨0x13, 1, 1, 1, [⟨31, 10, .rsv, 0x0⟩, ⟨9, 9, .ro, 0x1⟩, ⟨8, 8, .ro, 0x1⟩, ⟨7, 7, .ro, 0x1⟩, ⟨6, 6, .rw, 0x0⟩, ⟨5, 5, .rw, 0x1⟩, ⟨4, 4, .rw, 0x1⟩, ⟨3, 3, .rw, 0x0⟩, ⟨2, 2, .rw, 0x1⟩, ⟨1, 1, .rw, 0x1⟩, ⟨0, 0, .rw, 0x1⟩]⟩,
   ⟨0x14, 1, 1, 1, [⟨31, 10, .rsv, 0x0⟩, ⟨9, 0, .w1c, 0x0⟩]⟩,
   ⟨0x15, 1, 1, 1, [⟨31, 16, .ro, 0x0⟩, ⟨15, 5, .rsv, 0x0⟩, ⟨4, 4, .ro, 0x0⟩, ⟨3, 3, .ro, 0x0⟩, ⟨2, 2, .ro, 0x0⟩, ⟨1, 1, .ro, 0x0⟩, ⟨0, 0, .ro, 0x0⟩]⟩,
   ⟨0x20, 1, 1, 1, [⟨31, 28, .ro, 0x1⟩, ⟨27, 26, .ro, 0x0⟩, ⟨25, 25, .ro, 0x0⟩, ⟨24, 24, .ro, 0x0⟩, ⟨23, 23, .ro, 0x0⟩, ⟨22, 22, .ro, 0⟩, ⟨21, 21, .ro, 0⟩, ⟨20, 20, .ro, 0x0⟩, ⟨19, 19, .ro, 0x0⟩, ⟨18, 18, .w1c, 0x0⟩, ⟨17, 16, .rsv, 0x0⟩, ⟨15, 12, .ro, 0x1⟩, ⟨11, 8, .ro, 0x1⟩, ⟨7, 0, .ro, 0x0⟩]⟩,
   ⟨0x21, 1, 1, 1, [⟨31, 16, .ro, 0xFFFF⟩, ⟨15, 8, .ro, 0x0⟩, ⟨7, 0, .ro, 0xFF⟩]⟩,
   ⟨0x22, 1, 1, 1, [⟨31, 0, .ro, 0xFFFFFFFF⟩]⟩,
   ⟨0x23, 1, 1, 1, [⟨31, 0, .ro, 0x0⟩]⟩,
   ⟨0x24, 1, 1, 1, [⟨31, 16, .wo, 0x0⟩, ⟨15, 4, .rsv, 0x0⟩, ⟨3, 0, .wo, 0x0⟩]⟩,
   ⟨0x30, 1, 1, 1, [⟨31, 20, .rsv, 0x0⟩, ⟨19, 0, .ro, 0x0⟩]⟩,
   ⟨0x40, 1, 1, 1, [⟨31, 13, .rsv, 0x0⟩, ⟨12, 12, .ro, 0x0⟩, ⟨11, 11, .ro, 0x0⟩, ⟨10, 10, .ro, 0x0⟩, ⟨9, 9, .ro, 0x0⟩, ⟨8, 8, .ro, 0x0⟩, ⟨7, 7, .ro, 0x0⟩, ⟨6, 3, .rsv, 0x0⟩, ⟨2, 0, .ro, 0x0⟩]⟩,
   ⟨0x41, 1, 1, 1, [⟨31, 26, .rsv, 0x0⟩, ⟨25, 16, .rw, 0x0⟩, ⟨15, 10, .rsv, 0x0⟩, ⟨9, 0, .ro, 0x0⟩]⟩,
   ⟨0x42, 1, 1, 1, [⟨31, 27, .rsv, 0x0⟩, ⟨26, 16, .ro, 0x0⟩, ⟨15, 11, .rsv, 0x0⟩, ⟨10, 0, .ro, 0x0⟩]⟩,
   ⟨0x43, 1, 1, 1, [⟨31, 24, .sh, 0xA⟩, ⟨23, 12, .sh, 0x7D0⟩, ⟨11, 8, .sh, 0xA⟩, ⟨7, 0, .sh, 0x2⟩]⟩,
   ⟨0x44, 1, 1, 1, [⟨31, 24, .rsv, 0x0⟩, ⟨23, 16, .sh, 0x14⟩, ⟨15, 8, .sh, 0x5⟩, ⟨7, 0, .sh, 0x64⟩]⟩,
   ⟨0x45, 1, 1, 1, [⟨31, 30, .sh, 0x0⟩, ⟨29, 29, .sh, 0x1⟩, ⟨28, 28, .sh, 0x1⟩, ⟨27, 27, .sh, 0x0⟩, ⟨26, 26, .sh, 0x0⟩, ⟨25, 16, .sh, 0x64⟩, ⟨15, 8, .sh, 0xA⟩, ⟨7, 0, .sh, 0x14⟩]⟩,
   ⟨0x46, 1, 1, 1, [⟨31, 24, .sh, 0x8⟩, ⟨23, 16, .sh, 0x1⟩, ⟨15, 8, .sh, 0x1⟩, ⟨7, 0, .rsv, 0x0⟩]⟩,
   ⟨0x48, 1, 8, 1, [⟨31, 24, .sh, 0x1⟩, ⟨23, 16, .sh, 0x1⟩, ⟨15, 8, .sh, 0x1⟩, ⟨7, 0, .sh, 0x1⟩]⟩,
   ⟨0x50, 1, 1, 1, [⟨31, 16, .rw, 0x0⟩, ⟨15, 0, .rw, 0x0⟩]⟩,
   ⟨0x51, 1, 1, 1, [⟨31, 16, .rw, 0x0⟩, ⟨15, 0, .rw, 0x0⟩]⟩,
   ⟨0x52, 1, 1, 1, [⟨31, 16, .rw, 0x0⟩, ⟨15, 0, .rw, 0x0⟩]⟩,
   ⟨0x53, 1, 1, 1, [⟨31, 16, .rw, 0x0⟩, ⟨15, 0, .rw, 0x0⟩]⟩,
   ⟨0x60, 2, 11, 1, [⟨31, 0, .rw, 0x0⟩]⟩,
   ⟨0x61, 2, 11, 1, [⟨31, 20, .rw, 0x0⟩, ⟨19, 0, .rw, 0x0⟩]⟩,
   ⟨0xFF, 1, 1, 1, [⟨31, 31, .ro, 0x0⟩, ⟨30, 30, .w1c, 0x0⟩, ⟨29, 29, .w1c, 0x0⟩, ⟨28, 24, .rsv, 0x0⟩, ⟨23, 16, .ro, 0x0⟩, ⟨15, 8, .ro, 0x0⟩, ⟨7, 2, .rsv, 0x0⟩, ⟨1, 1, .wo, 0x0⟩, ⟨0, 0, .w1s, 0x0⟩]⟩]

/-- The registers of the PROT window. -/
def rowsPROT : List RegRow :=
  [⟨0x100, 1, 1, 1, [⟨31, 8, .rsv, 0x0⟩, ⟨7, 0, .sh, 0xF3⟩]⟩,
   ⟨0x101, 1, 1, 1, [⟨31, 2, .rsv, 0x0⟩, ⟨1, 0, .ro, 0x0⟩]⟩,
   ⟨0x102, 1, 1, 1, [⟨31, 16, .ro, 0x0⟩, ⟨15, 14, .ro, 0x0⟩, ⟨13, 13, .ro, 0x0⟩, ⟨12, 0, .rsv, 0x0⟩]⟩,
   ⟨0x110, 2, 32, 1, [⟨31, 16, .sh, 0x0⟩, ⟨15, 0, .sh, 0xFFFF⟩]⟩,
   ⟨0x111, 2, 32, 1, [⟨31, 8, .rsv, 0x0⟩, ⟨7, 0, .sh, 0xFF⟩]⟩,
   ⟨0x150, 1, 1, 1, [⟨31, 31, .ro, 0x0⟩, ⟨30, 30, .w1c, 0x0⟩, ⟨29, 29, .w1c, 0x0⟩, ⟨28, 24, .rsv, 0x0⟩, ⟨23, 16, .ro, 0x0⟩, ⟨15, 8, .ro, 0x0⟩, ⟨7, 2, .rsv, 0x0⟩, ⟨1, 1, .wo, 0x0⟩, ⟨0, 0, .w1s, 0x0⟩]⟩]

/-- The registers of the QTZ window. -/
def rowsQTZ : List RegRow :=
  [⟨0x200, 1, 1, 1, [⟨31, 17, .ro, 0x0⟩, ⟨16, 12, .ro, 0x0⟩, ⟨11, 6, .ro, 0x0⟩, ⟨5, 0, .ro, 0x0⟩]⟩,
   ⟨0x201, 1, 1, 1, [⟨31, 20, .ro, 0x7D0⟩, ⟨19, 16, .ro, 0x1⟩, ⟨15, 11, .ro, 0x1⟩, ⟨10, 8, .ro, 0x6⟩, ⟨7, 0, .rsv, 0x0⟩]⟩,
   ⟨0x202, 1, 1, 1, [⟨31, 0, .ro, 0x0⟩]⟩,
   ⟨0x203, 1, 1, 1, [⟨31, 0, .ro, 0x0⟩]⟩,
   ⟨0x206, 1, 1, 1, [⟨31, 16, .wo, 0x0⟩, ⟨15, 5, .rsv, 0x0⟩, ⟨4, 4, .wo, 0x0⟩, ⟨3, 0, .wo, 0x0⟩]⟩,
   ⟨0x207, 1, 1, 1, [⟨31, 31, .wo, 0x0⟩, ⟨30, 15, .rsv, 0x0⟩, ⟨14, 0, .wo, 0x0⟩]⟩,
   ⟨0x208, 1, 1, 1, [⟨31, 31, .rw, 0x0⟩, ⟨30, 30, .ro, 0x0⟩, ⟨29, 24, .rsv, 0x0⟩, ⟨23, 0, .rw, 0x0⟩]⟩,
   ⟨0x209, 1, 1, 1, [⟨31, 31, .ro, 0x0⟩, ⟨30, 30, .ro, 0x0⟩, ⟨29, 27, .ro, 0x0⟩, ⟨26, 26, .ro, 0x0⟩, ⟨25, 25, .ro, 0x0⟩, ⟨24, 24, .ro, 0x1⟩, ⟨23, 10, .rsv, 0x0⟩, ⟨9, 9, .w1c, 0x0⟩, ⟨8, 8, .w1c, 0x0⟩, ⟨7, 7, .w1c, 0x0⟩, ⟨6, 6, .w1c, 0x0⟩, ⟨5, 5, .w1c, 0x0⟩, ⟨4, 4, .w1c, 0x0⟩, ⟨3, 3, .w1c, 0x0⟩, ⟨2, 2, .w1c, 0x0⟩, ⟨1, 1, .w1c, 0x1⟩, ⟨0, 0, .rsv, 0x0⟩]⟩,
   ⟨0x210, 1, 1, 1, [⟨31, 13, .rsv, 0x0⟩, ⟨12, 0, .sh, 0x0⟩]⟩,
   ⟨0x211, 1, 1, 1, [⟨31, 31, .sh, 0x0⟩, ⟨30, 17, .rsv, 0x0⟩, ⟨16, 12, .sh, 0x0⟩, ⟨11, 6, .sh, 0x0⟩, ⟨5, 0, .sh, 0x0⟩]⟩,
   ⟨0x212, 1, 1, 1, [⟨31, 30, .sh, 0x0⟩, ⟨29, 29, .sh, 0x0⟩, ⟨28, 28, .sh, 0x0⟩, ⟨27, 26, .sh, 0x1⟩, ⟨25, 20, .sh, 0x14⟩, ⟨19, 10, .sh, 0x32⟩, ⟨9, 0, .rsv, 0x0⟩]⟩,
   ⟨0x213, 1, 1, 1, [⟨31, 31, .sh, 0x0⟩, ⟨30, 30, .sh, 0x0⟩, ⟨29, 22, .sh, 0xA⟩, ⟨21, 16, .sh, 0x37⟩, ⟨15, 0, .rsv, 0x0⟩]⟩,
   ⟨0x214, 1, 1, 1, [⟨31, 16, .ro, 0x0⟩, ⟨15, 8, .ro, 0x0⟩, ⟨7, 0, .ro, 0x0⟩]⟩,
   ⟨0x204, 1, 1, 1, [⟨31, 17, .rsv, 0x0⟩, ⟨16, 12, .rw, 0x0⟩, ⟨11, 6, .rw, 0x0⟩, ⟨5, 0, .rw, 0x0⟩]⟩,
   ⟨0x205, 1, 1, 1, [⟨31, 20, .rw, 0x7D0⟩, ⟨19, 16, .rw, 0x1⟩, ⟨15, 11, .rw, 0x1⟩, ⟨10, 0, .rsv, 0x0⟩]⟩,
   ⟨0x2FF, 1, 1, 1, [⟨31, 31, .ro, 0x0⟩, ⟨30, 30, .w1c, 0x0⟩, ⟨29, 29, .w1c, 0x0⟩, ⟨28, 24, .rsv, 0x0⟩, ⟨23, 16, .ro, 0x0⟩, ⟨15, 8, .ro, 0x0⟩, ⟨7, 2, .rsv, 0x0⟩, ⟨1, 1, .wo, 0x0⟩, ⟨0, 0, .w1s, 0x0⟩]⟩]

/-- The registers of the TMR window. -/
def rowsTMR : List RegRow :=
  [⟨0x400, 16, 16, 1, [⟨31, 30, .sh, 0x0⟩, ⟨29, 26, .sh, 0x0⟩, ⟨25, 24, .sh, 0x0⟩, ⟨23, 16, .rsv, 0x0⟩, ⟨15, 0, .sh, 0x0⟩]⟩,
   ⟨0x401, 16, 16, 1, [⟨31, 28, .sh, 0x0⟩, ⟨27, 25, .sh, 0x0⟩, ⟨24, 22, .sh, 0x0⟩, ⟨21, 16, .rsv, 0x0⟩, ⟨15, 12, .sh, 0x0⟩, ⟨11, 9, .sh, 0x0⟩, ⟨8, 6, .sh, 0x0⟩, ⟨5, 0, .rsv, 0x0⟩]⟩,
   ⟨0x402, 16, 16, 1, [⟨31, 28, .sh, 0xF⟩, ⟨27, 26, .sh, 0x0⟩, ⟨25, 8, .rsv, 0x0⟩, ⟨7, 4, .sh, 0xF⟩, ⟨3, 0, .sh, 0x0⟩]⟩,
   ⟨0x403, 16, 16, 1, [⟨31, 4, .rsv, 0x0⟩, ⟨3, 3, .wo, 0x0⟩, ⟨2, 2, .wo, 0x0⟩, ⟨1, 1, .wo, 0x0⟩, ⟨0, 0, .wo, 0x0⟩]⟩,
   ⟨0x404, 16, 16, 1, [⟨31, 0, .rw, 0x0⟩]⟩,
   ⟨0x405, 16, 16, 1, [⟨31, 0, .rw, 0x0⟩]⟩,
   ⟨0x40A, 16, 16, 1, [⟨31, 0, .ro, 0x0⟩]⟩,
   ⟨0x40B, 16, 16, 1, [⟨31, 31, .ro, 0x0⟩, ⟨30, 30, .ro, 0x0⟩, ⟨29, 27, .ro, 0x0⟩, ⟨26, 16, .rsv, 0x0⟩, ⟨15, 12, .ro, 0x0⟩, ⟨11, 8, .w1c, 0x0⟩, ⟨7, 7, .w1c, 0x0⟩, ⟨6, 6, .w1c, 0x0⟩, ⟨5, 5, .w1c, 0x0⟩, ⟨4, 4, .w1c, 0x0⟩, ⟨3, 0, .w1c, 0x0⟩]⟩,
   ⟨0x40C, 16, 16, 1, [⟨31, 7, .rsv, 0x0⟩, ⟨6, 6, .rw, 0x0⟩, ⟨5, 5, .rw, 0x0⟩, ⟨4, 4, .rw, 0x0⟩, ⟨3, 0, .rw, 0x0⟩]⟩,
   ⟨0x40D, 16, 16, 1, [⟨31, 0, .ro, 0x0⟩]⟩,
   ⟨0x406, 16, 16, 4, [⟨31, 0, .rw, 0x0⟩]⟩,
   ⟨0x40F, 16, 16, 1, [⟨31, 31, .ro, 0x0⟩, ⟨30, 30, .w1c, 0x0⟩, ⟨29, 29, .w1c, 0x0⟩, ⟨28, 24, .rsv, 0x0⟩, ⟨23, 16, .ro, 0x0⟩, ⟨15, 8, .ro, 0x0⟩, ⟨7, 2, .rsv, 0x0⟩, ⟨1, 1, .wo, 0x0⟩, ⟨0, 0, .w1s, 0x0⟩]⟩,
   ⟨0x500, 1, 1, 1, [⟨31, 16, .rsv, 0x0⟩, ⟨15, 0, .wo, 0x0⟩]⟩,
   ⟨0x501, 1, 1, 1, [⟨31, 18, .rsv, 0x0⟩, ⟨17, 16, .wo, 0x0⟩, ⟨15, 0, .wo, 0x0⟩]⟩,
   ⟨0x502, 1, 1, 1, [⟨31, 16, .rsv, 0x0⟩, ⟨15, 0, .ro, 0x0⟩]⟩,
   ⟨0x508, 1, 8, 1, [⟨31, 31, .rw, 0x0⟩, ⟨30, 30, .rw, 0x0⟩, ⟨29, 29, .rw, 0x0⟩, ⟨28, 28, .ro, 0x0⟩, ⟨27, 24, .rw, 0x0⟩, ⟨23, 21, .rw, 0x7⟩, ⟨20, 18, .rw, 0x7⟩, ⟨17, 0, .rsv, 0x0⟩]⟩]

/-- The registers of the FIFO window. -/
def rowsFIFO : List RegRow :=
  [⟨0x600, 1, 8, 1, [⟨31, 31, .sh, 0x0⟩, ⟨30, 30, .rsv, 0x0⟩, ⟨29, 16, .sh, 0x3E8⟩, ⟨15, 9, .rsv, 0x0⟩, ⟨8, 0, .sh, 0x40⟩]⟩,
   ⟨0x610, 1, 9, 1, [⟨31, 31, .ro, 0x0⟩, ⟨30, 30, .ro, 0x1⟩, ⟨29, 29, .w1c, 0x0⟩, ⟨28, 28, .ro, 0x0⟩, ⟨27, 27, .ro, 0x0⟩, ⟨26, 26, .ro, 0x1⟩, ⟨25, 18, .rsv, 0x0⟩, ⟨17, 9, .ro, 0x0⟩, ⟨8, 0, .ro, 0x0⟩]⟩,
   ⟨0x620, 1, 9, 1, [⟨31, 16, .rw, 0x0⟩, ⟨15, 0, .rw, 0x0⟩]⟩,
   ⟨0x630, 1, 9, 1, [⟨31, 16, .rw, 0x0⟩, ⟨15, 0, .rw, 0x0⟩]⟩,
   ⟨0x640, 1, 1, 1, [⟨31, 31, .wo, 0x0⟩, ⟨30, 30, .wo, 0x0⟩, ⟨29, 3, .rsv, 0x0⟩, ⟨2, 0, .wo, 0x0⟩]⟩,
   ⟨0x680, 1, 8, 1, [⟨31, 0, .ro, 0x0⟩]⟩,
   ⟨0x688, 1, 8, 1, [⟨31, 8, .rsv, 0x0⟩, ⟨7, 4, .ro, 0x0⟩, ⟨3, 2, .ro, 0x0⟩, ⟨1, 0, .ro, 0x0⟩]⟩,
   ⟨0x6FF, 1, 1, 1, [⟨31, 31, .ro, 0x0⟩, ⟨30, 30, .w1c, 0x0⟩, ⟨29, 29, .w1c, 0x0⟩, ⟨28, 24, .rsv, 0x0⟩, ⟨23, 16, .ro, 0x0⟩, ⟨15, 8, .ro, 0x0⟩, ⟨7, 2, .rsv, 0x0⟩, ⟨1, 1, .wo, 0x0⟩, ⟨0, 0, .w1s, 0x0⟩]⟩]

/-- The registers of the RAD window. -/
def rowsRAD : List RegRow :=
  [⟨0x800, 1, 512, 1, [⟨31, 31, .sh, 0x1⟩, ⟨30, 21, .sh, 0⟩, ⟨20, 11, .sh, 0⟩, ⟨10, 7, .sh, 0⟩, ⟨6, 4, .sh, 0⟩, ⟨3, 0, .rsv, 0x0⟩]⟩,
   ⟨0xA00, 1, 256, 1, [⟨31, 31, .sh, 0x0⟩, ⟨30, 24, .rsv, 0x0⟩, ⟨23, 16, .sh, 0x0⟩, ⟨15, 8, .sh, 0x0⟩, ⟨7, 0, .sh, 0x0⟩]⟩,
   ⟨0xB00, 1, 8, 1, [⟨31, 31, .sh, 0x0⟩, ⟨30, 30, .rsv, 0x0⟩, ⟨29, 16, .sh, 0x0⟩, ⟨15, 15, .sh, 0x0⟩, ⟨14, 14, .rsv, 0x0⟩, ⟨13, 0, .sh, 0x0⟩]⟩,
   ⟨0xB10, 1, 4, 1, [⟨31, 31, .sh, 0x0⟩, ⟨30, 24, .sh, 0x7F⟩, ⟨23, 20, .sh, 0x0⟩, ⟨19, 16, .sh, 0x2⟩, ⟨15, 0, .rsv, 0x0⟩]⟩,
   ⟨0xB18, 1, 1, 1, [⟨31, 31, .sh, 0x0⟩, ⟨30, 29, .sh, 0x0⟩, ⟨28, 22, .sh, 0x0⟩, ⟨21, 16, .rsv, 0x0⟩, ⟨15, 15, .sh, 0x0⟩, ⟨14, 13, .sh, 0x0⟩, ⟨12, 6, .sh, 0x0⟩, ⟨5, 3, .sh, 0x5⟩, ⟨2, 0, .sh, 0x1⟩]⟩,
   ⟨0xB19, 1, 1, 1, [⟨31, 24, .sh, 0x18⟩, ⟨23, 16, .sh, 0x8⟩, ⟨15, 11, .rsv, 0x0⟩, ⟨10, 8, .sh, 0x5⟩, ⟨7, 0, .rsv, 0x0⟩]⟩,
   ⟨0xB1A, 1, 1, 1, [⟨31, 24, .sh, 0x1E⟩, ⟨23, 16, .sh, 0x46⟩, ⟨15, 12, .rsv, 0x0⟩, ⟨11, 8, .sh, 0x4⟩, ⟨7, 4, .sh, 0xA⟩, ⟨3, 0, .rsv, 0x0⟩]⟩,
   ⟨0xB1B, 1, 1, 1, [⟨31, 9, .rsv, 0x0⟩, ⟨8, 8, .sh, 0x1⟩, ⟨7, 0, .rsv, 0x0⟩]⟩,
   ⟨0xB1C, 1, 1, 1, [⟨31, 8, .rsv, 0x0⟩, ⟨7, 0, .sh, 0xC8⟩]⟩,
   ⟨0xB20, 1, 4, 1, [⟨31, 24, .ro, 0x0⟩, ⟨23, 16, .ro, 0x0⟩, ⟨15, 8, .ro, 0xFF⟩, ⟨7, 7, .rsv, 0x0⟩, ⟨6, 6, .ro, 0x0⟩, ⟨5, 5, .ro, 0x0⟩, ⟨4, 4, .rsv, 0x0⟩, ⟨3, 3, .ro, 0x0⟩, ⟨2, 0, .ro, 0x0⟩]⟩,
   ⟨0xB28, 1, 1, 1, [⟨31, 18, .rsv, 0x0⟩, ⟨17, 16, .ro, 0x0⟩, ⟨15, 8, .ro, 0x0⟩, ⟨7, 7, .rsv, 0x0⟩, ⟨6, 0, .ro, 0x0⟩]⟩,
   ⟨0xB29, 1, 1, 1, [⟨31, 18, .rsv, 0x0⟩, ⟨17, 16, .ro, 0x0⟩, ⟨15, 8, .ro, 0x0⟩, ⟨7, 7, .rsv, 0x0⟩, ⟨6, 0, .ro, 0x0⟩]⟩,
   ⟨0xB30, 1, 1, 1, [⟨31, 28, .ro, 0x0⟩, ⟨27, 24, .ro, 0x0⟩, ⟨23, 22, .rsv, 0x0⟩, ⟨21, 20, .ro, 0x0⟩, ⟨19, 19, .ro, 0x0⟩, ⟨18, 16, .ro, 0x0⟩, ⟨15, 6, .rsv, 0x0⟩, ⟨5, 4, .ro, 0x0⟩, ⟨3, 3, .ro, 0x0⟩, ⟨2, 0, .ro, 0x0⟩]⟩,
   ⟨0xB31, 1, 1, 1, [⟨31, 8, .rsv, 0x0⟩, ⟨7, 7, .w1c, 0x0⟩, ⟨6, 6, .w1c, 0x0⟩, ⟨5, 5, .w1c, 0x0⟩, ⟨4, 4, .w1c, 0x0⟩, ⟨3, 3, .w1c, 0x0⟩, ⟨2, 2, .w1c, 0x0⟩, ⟨1, 1, .w1c, 0x0⟩, ⟨0, 0, .rsv, 0x0⟩]⟩,
   ⟨0xB32, 1, 1, 1, [⟨31, 16, .rw, 0x0⟩, ⟨15, 0, .rw, 0x0⟩]⟩,
   ⟨0xB33, 1, 1, 1, [⟨31, 16, .rw, 0x0⟩, ⟨15, 0, .rw, 0x0⟩]⟩,
   ⟨0xB34, 1, 1, 1, [⟨31, 16, .rsv, 0x0⟩, ⟨15, 0, .ro, 0x0⟩]⟩,
   ⟨0xBFF, 1, 1, 1, [⟨31, 31, .ro, 0x0⟩, ⟨30, 30, .w1c, 0x0⟩, ⟨29, 29, .w1c, 0x0⟩, ⟨28, 24, .rsv, 0x0⟩, ⟨23, 16, .ro, 0x0⟩, ⟨15, 8, .ro, 0x0⟩, ⟨7, 2, .rsv, 0x0⟩, ⟨1, 1, .wo, 0x0⟩, ⟨0, 0, .w1s, 0x0⟩]⟩]

/-- The registers of the SYNCAL window. -/
def rowsSYNCAL : List RegRow :=
  [⟨0xC00, 1, 256, 1, [⟨31, 31, .sh, 0x0⟩, ⟨30, 30, .sh, 0x0⟩, ⟨29, 16, .sh, 0x0⟩, ⟨15, 12, .sh, 0x0⟩, ⟨11, 5, .sh, 0x0⟩, ⟨4, 0, .sh, 0x0⟩]⟩,
   ⟨0xD00, 1, 256, 1, [⟨31, 31, .sh, 0x0⟩, ⟨30, 30, .sh, 0x0⟩, ⟨29, 16, .sh, 0x0⟩, ⟨15, 12, .sh, 0x0⟩, ⟨11, 5, .sh, 0x0⟩, ⟨4, 0, .sh, 0x0⟩]⟩,
   ⟨0xE00, 1, 1, 1, [⟨31, 13, .rsv, 0x0⟩, ⟨12, 8, .sh, 0x4⟩, ⟨7, 1, .rsv, 0x0⟩, ⟨0, 0, .sh, 0x1⟩]⟩,
   ⟨0xE01, 1, 1, 1, [⟨31, 24, .ro, 0x0⟩, ⟨23, 16, .ro, 0x0⟩, ⟨15, 0, .rsv, 0x0⟩]⟩,
   ⟨0xE02, 1, 1, 1, [⟨31, 16, .rw, 0x0⟩, ⟨15, 0, .rw, 0x0⟩]⟩,
   ⟨0xFFF, 1, 1, 1, [⟨31, 31, .ro, 0x0⟩, ⟨30, 30, .w1c, 0x0⟩, ⟨29, 29, .w1c, 0x0⟩, ⟨28, 24, .rsv, 0x0⟩, ⟨23, 16, .ro, 0x0⟩, ⟨15, 8, .ro, 0x0⟩, ⟨7, 2, .rsv, 0x0⟩, ⟨1, 1, .wo, 0x0⟩, ⟨0, 0, .w1s, 0x0⟩]⟩]

/-- The registers of the RP window. -/
def rowsRP : List RegRow :=
  [⟨0x1000, 16, 64, 1, [⟨31, 30, .sh, 0x0⟩, ⟨29, 28, .sh, 0x0⟩, ⟨27, 24, .sh, 0x0⟩, ⟨23, 20, .sh, 0x0⟩, ⟨19, 0, .rsv, 0x0⟩]⟩,
   ⟨0x1001, 16, 64, 1, [⟨31, 24, .sh, 0xFF⟩, ⟨23, 0, .rsv, 0x0⟩]⟩,
   ⟨0x1002, 16, 64, 13, [⟨31, 0, .sh, 0x0⟩]⟩,
   ⟨0x100F, 16, 64, 1, [⟨31, 31, .ro, 0x0⟩, ⟨30, 30, .w1c, 0x0⟩, ⟨29, 29, .w1c, 0x0⟩, ⟨28, 24, .rsv, 0x0⟩, ⟨23, 16, .ro, 0x0⟩, ⟨15, 8, .ro, 0x0⟩, ⟨7, 2, .rsv, 0x0⟩, ⟨1, 1, .wo, 0x0⟩, ⟨0, 0, .w1s, 0x0⟩]⟩]

/-- The registers of the HDG window. -/
def rowsHDG : List RegRow :=
  [⟨0x1400, 8, 32, 1, [⟨31, 20, .rsv, 0x0⟩, ⟨19, 16, .sh, 0x0⟩, ⟨15, 0, .sh, 0x0⟩]⟩,
   ⟨0x1401, 8, 32, 1, [⟨31, 31, .rsv, 0x0⟩, ⟨30, 24, .sh, 0x7F⟩, ⟨23, 23, .rsv, 0x0⟩, ⟨22, 16, .sh, 0x7F⟩, ⟨15, 15, .rsv, 0x0⟩, ⟨14, 8, .sh, 0x7F⟩, ⟨7, 7, .rsv, 0x0⟩, ⟨6, 0, .sh, 0x7F⟩]⟩,
   ⟨0x1402, 8, 32, 1, [⟨31, 31, .rsv, 0x0⟩, ⟨30, 24, .sh, 0x7F⟩, ⟨23, 23, .rsv, 0x0⟩, ⟨22, 16, .sh, 0x7F⟩, ⟨15, 15, .rsv, 0x0⟩, ⟨14, 8, .sh, 0x7F⟩, ⟨7, 7, .rsv, 0x0⟩, ⟨6, 0, .sh, 0x7F⟩]⟩,
   ⟨0x1403, 8, 32, 1, [⟨31, 24, .sh, 0x0⟩, ⟨23, 16, .sh, 0x0⟩, ⟨15, 8, .sh, 0x0⟩, ⟨7, 0, .sh, 0x0⟩]⟩,
   ⟨0x1404, 8, 32, 1, [⟨31, 24, .sh, 0x0⟩, ⟨23, 16, .sh, 0x0⟩, ⟨15, 8, .sh, 0x0⟩, ⟨7, 0, .sh, 0x0⟩]⟩,
   ⟨0x1405, 8, 32, 1, [⟨31, 24, .ro, 0x0⟩, ⟨23, 20, .rsv, 0x0⟩, ⟨19, 16, .ro, 0x0⟩, ⟨15, 8, .ro, 0x7F⟩, ⟨7, 0, .ro, 0x7F⟩]⟩,
   ⟨0x1407, 8, 32, 1, [⟨31, 31, .ro, 0x0⟩, ⟨30, 30, .w1c, 0x0⟩, ⟨29, 29, .w1c, 0x0⟩, ⟨28, 24, .rsv, 0x0⟩, ⟨23, 16, .ro, 0x0⟩, ⟨15, 8, .ro, 0x0⟩, ⟨7, 2, .rsv, 0x0⟩, ⟨1, 1, .wo, 0x0⟩, ⟨0, 0, .w1s, 0x0⟩]⟩]

/-- The registers of the BRM window. -/
def rowsBRM : List RegRow :=
  [⟨0x1500, 1, 1, 1, [⟨31, 31, .sh, 0x0⟩, ⟨30, 24, .rsv, 0x0⟩, ⟨23, 16, .sh, 0xF⟩, ⟨15, 0, .rsv, 0x0⟩]⟩,
   ⟨0x1501, 1, 1, 1, [⟨31, 16, .rsv, 0x0⟩, ⟨15, 12, .sh, 0x4⟩, ⟨11, 8, .rsv, 0x0⟩, ⟨7, 4, .sh, 0x5⟩, ⟨3, 0, .sh, 0x3⟩]⟩,
   ⟨0x1502, 1, 1, 1, [⟨31, 9, .rsv, 0x0⟩, ⟨8, 8, .sh, 0x1⟩, ⟨7, 0, .sh, 0x6⟩]⟩,
   ⟨0x1503, 1, 1, 1, [⟨31, 16, .rsv, 0x0⟩, ⟨15, 8, .sh, 0x14⟩, ⟨7, 4, .rsv, 0x0⟩, ⟨3, 2, .sh, 0x1⟩, ⟨1, 0, .sh, 0x1⟩]⟩,
   ⟨0x1504, 1, 1, 1, [⟨31, 22, .rsv, 0x0⟩, ⟨21, 16, .sh, 0x0⟩, ⟨15, 2, .rsv, 0x0⟩, ⟨1, 0, .sh, 0x0⟩]⟩,
   ⟨0x1505, 1, 1, 1, [⟨31, 20, .sh, 0x0⟩, ⟨19, 10, .sh, 0x0⟩, ⟨9, 0, .rsv, 0x0⟩]⟩,
   ⟨0x1506, 1, 1, 1, [⟨31, 24, .sh, 0x0⟩, ⟨23, 8, .sh, 0x0⟩, ⟨7, 5, .rsv, 0x0⟩, ⟨4, 0, .sh, 0x0⟩]⟩,
   ⟨0x1507, 1, 8, 1, [⟨31, 30, .rsv, 0x0⟩, ⟨29, 16, .sh, 0x0⟩, ⟨15, 14, .rsv, 0x0⟩, ⟨13, 0, .sh, 0x0⟩]⟩,
   ⟨0x1510, 1, 1, 1, [⟨31, 31, .wo, 0x0⟩, ⟨30, 21, .wo, 0x0⟩, ⟨20, 14, .wo, 0x0⟩, ⟨13, 10, .wo, 0x0⟩, ⟨9, 6, .wo, 0x0⟩, ⟨5, 2, .wo, 0x0⟩, ⟨1, 0, .rsv, 0x0⟩]⟩,
   ⟨0x1511, 1, 1, 1, [⟨31, 31, .ro, 0x0⟩, ⟨30, 28, .ro, 0x0⟩, ⟨27, 24, .ro, 0x0⟩, ⟨23, 16, .ro, 0x0⟩, ⟨15, 0, .rsv, 0x0⟩]⟩,
   ⟨0x1512, 1, 1, 1, [⟨31, 22, .ro, 0x0⟩, ⟨21, 18, .ro, 0x0⟩, ⟨17, 17, .ro, 0x0⟩, ⟨16, 16, .ro, 0x0⟩, ⟨15, 6, .rsv, 0x0⟩, ⟨5, 0, .ro, 0x0⟩]⟩,
   ⟨0x1513, 1, 1, 1, [⟨31, 0, .rw, 0x0⟩]⟩,
   ⟨0x1514, 1, 1, 1, [⟨31, 16, .rw, 0x0⟩, ⟨15, 0, .rw, 0x0⟩]⟩,
   ⟨0x1515, 1, 1, 1, [⟨31, 16, .rw, 0x0⟩, ⟨15, 0, .rw, 0x0⟩]⟩,
   ⟨0x1516, 1, 1, 1, [⟨31, 16, .rw, 0x0⟩, ⟨15, 0, .rw, 0x0⟩]⟩,
   ⟨0x1518, 1, 1, 1, [⟨31, 6, .rsv, 0x0⟩, ⟨5, 0, .rw, 0x0⟩]⟩,
   ⟨0x1519, 1, 1, 1, [⟨31, 16, .ro, 0x0⟩, ⟨15, 15, .ro, 0x0⟩, ⟨14, 3, .ro, 0x0⟩, ⟨2, 0, .rsv, 0x0⟩]⟩,
   ⟨0x1530, 1, 64, 1, [⟨31, 16, .wo, 0x0⟩, ⟨15, 0, .wo, 0x0⟩]⟩,
   ⟨0x1570, 2, 128, 1, [⟨31, 28, .sh, 0x0⟩, ⟨27, 26, .sh, 0x0⟩, ⟨25, 24, .rsv, 0x0⟩, ⟨23, 16, .sh, 0x0⟩, ⟨15, 0, .sh, 0x0⟩]⟩,
   ⟨0x1571, 2, 128, 1, [⟨31, 21, .rsv, 0x0⟩, ⟨20, 0, .sh, 0x0⟩]⟩,
   ⟨0x1670, 6, 64, 1, [⟨31, 31, .sh, 0x0⟩, ⟨30, 28, .sh, 0x0⟩, ⟨27, 25, .sh, 0x0⟩, ⟨24, 23, .sh, 0x1⟩, ⟨22, 16, .rsv, 0x0⟩, ⟨15, 8, .sh, 0x0⟩, ⟨7, 0, .rsv, 0x0⟩]⟩,
   ⟨0x1671, 6, 64, 1, [⟨31, 16, .rsv, 0x0⟩, ⟨15, 0, .sh, 0x0⟩]⟩,
   ⟨0x1672, 6, 64, 4, [⟨31, 0, .sh, 0x0⟩]⟩,
   ⟨0x17FF, 1, 1, 1, [⟨31, 31, .ro, 0x0⟩, ⟨30, 30, .w1c, 0x0⟩, ⟨29, 29, .w1c, 0x0⟩, ⟨28, 24, .rsv, 0x0⟩, ⟨23, 16, .ro, 0x0⟩, ⟨15, 8, .ro, 0x0⟩, ⟨7, 2, .rsv, 0x0⟩, ⟨1, 1, .wo, 0x0⟩, ⟨0, 0, .w1s, 0x0⟩]⟩]

/-- The registers of the HF window. -/
def rowsHF : List RegRow :=
  [⟨0x1800, 1, 1, 1, [⟨31, 24, .sh, 0x32⟩, ⟨23, 16, .sh, 0x3C⟩, ⟨15, 8, .sh, 0x64⟩, ⟨7, 7, .sh, 0x0⟩, ⟨6, 6, .sh, 0x0⟩, ⟨5, 5, .sh, 0x0⟩, ⟨4, 0, .rsv, 0x0⟩]⟩,
   ⟨0x1801, 1, 1, 1, [⟨31, 25, .sh, 0x7F⟩, ⟨24, 18, .sh, 0x7F⟩, ⟨17, 13, .sh, 0xC⟩, ⟨12, 8, .sh, 0x14⟩, ⟨7, 7, .sh, 0x1⟩, ⟨6, 3, .sh, 0xB⟩, ⟨2, 0, .rsv, 0x0⟩]⟩,
   ⟨0x1802, 1, 1, 1, [⟨31, 30, .sh, 0x2⟩, ⟨29, 29, .sh, 0x1⟩, ⟨28, 24, .rsv, 0x0⟩, ⟨23, 16, .sh, 0x14⟩, ⟨15, 0, .rsv, 0x0⟩]⟩,
   ⟨0x1803, 1, 1, 1, [⟨31, 14, .rsv, 0x0⟩, ⟨13, 0, .sh, 0x1355⟩]⟩,
   ⟨0x1804, 1, 1, 1, [⟨31, 9, .rsv, 0x0⟩, ⟨8, 8, .sh, 0x1⟩, ⟨7, 6, .sh, 0x2⟩, ⟨5, 0, .sh, 0x10⟩]⟩,
   ⟨0x1808, 1, 1, 1, [⟨31, 31, .wo, 0x0⟩, ⟨30, 28, .wo, 0x0⟩, ⟨27, 18, .wo, 0x0⟩, ⟨17, 11, .wo, 0x0⟩, ⟨10, 0, .rsv, 0x0⟩]⟩,
   ⟨0x1809, 1, 1, 1, [⟨31, 31, .ro, 0x0⟩, ⟨30, 30, .ro, 0x0⟩, ⟨29, 29, .ro, 0x0⟩, ⟨28, 26, .ro, 0x0⟩, ⟨25, 18, .ro, 0x0⟩, ⟨17, 13, .rsv, 0x0⟩, ⟨12, 0, .ro, 0x0⟩]⟩,
   ⟨0x180A, 1, 1, 1, [⟨31, 31, .rw, 0x1⟩, ⟨30, 28, .rw, 0x0⟩, ⟨27, 20, .rsv, 0x0⟩, ⟨19, 0, .rw, 0x1388⟩]⟩,
   ⟨0x180B, 1, 1, 1, [⟨31, 31, .wo, 0x0⟩, ⟨30, 13, .rsv, 0x0⟩, ⟨12, 0, .rw, 0x0⟩]⟩,
   ⟨0x180C, 1, 1, 1, [⟨31, 31, .rw, 0x0⟩, ⟨30, 4, .rsv, 0x0⟩, ⟨3, 0, .rw, 0x0⟩]⟩,
   ⟨0x1810, 1, 1, 1, [⟨31, 24, .rsv, 0x0⟩, ⟨23, 16, .ro, 0x0⟩, ⟨15, 10, .rsv, 0x0⟩, ⟨9, 9, .ro, 0x0⟩, ⟨8, 8, .ro, 0x0⟩, ⟨7, 4, .rsv, 0x0⟩, ⟨3, 3, .w1c, 0x0⟩, ⟨2, 2, .w1c, 0x0⟩, ⟨1, 1, .w1c, 0x0⟩, ⟨0, 0, .w1c, 0x0⟩]⟩,
   ⟨0x1811, 1, 1, 1, [⟨31, 16, .rw, 0x0⟩, ⟨15, 0, .rw, 0x0⟩]⟩,
   ⟨0x1812, 1, 1, 1, [⟨31, 16, .rw, 0x0⟩, ⟨15, 0, .rw, 0x0⟩]⟩,
   ⟨0x1813, 1, 1, 1, [⟨31, 16, .rw, 0x0⟩, ⟨15, 0, .rw, 0x0⟩]⟩,
   ⟨0x1880, 1, 64, 1, [⟨31, 0, .rw, 0x0⟩]⟩,
   ⟨0x18FF, 1, 1, 1, [⟨31, 31, .ro, 0x0⟩, ⟨30, 30, .w1c, 0x0⟩, ⟨29, 29, .w1c, 0x0⟩, ⟨28, 24, .rsv, 0x0⟩, ⟨23, 16, .ro, 0x0⟩, ⟨15, 8, .ro, 0x0⟩, ⟨7, 2, .rsv, 0x0⟩, ⟨1, 1, .wo, 0x0⟩, ⟨0, 0, .w1s, 0x0⟩]⟩]

/-- The registers of the TAG window. -/
def rowsTAG : List RegRow :=
  [⟨0x1900, 1, 1, 1, [⟨31, 24, .sh, 0x0⟩, ⟨23, 16, .sh, 0x0⟩, ⟨15, 15, .sh, 0x1⟩, ⟨14, 14, .sh, 0x1⟩, ⟨13, 13, .sh, 0x0⟩, ⟨12, 12, .sh, 0x0⟩, ⟨11, 11, .sh, 0x0⟩, ⟨10, 0, .rsv, 0x0⟩]⟩,
   ⟨0x1901, 1, 1, 1, [⟨31, 25, .rsv, 0x0⟩, ⟨24, 16, .sh, 0xC0⟩, ⟨15, 9, .rsv, 0x0⟩, ⟨8, 0, .sh, 0x80⟩]⟩,
   ⟨0x1902, 1, 1, 1, [⟨31, 0, .sh, 0x0⟩]⟩,
   ⟨0x1903, 1, 1, 1, [⟨31, 0, .sh, 0x0⟩]⟩,
   ⟨0x1904, 1, 1, 1, [⟨31, 0, .sh, 0xFFFFFFFF⟩]⟩,
   ⟨0x1905, 1, 4, 1, [⟨31, 16, .sh, 0xFFFF⟩, ⟨15, 0, .sh, 0xFFFF⟩]⟩,
   ⟨0x1910, 1, 1, 1, [⟨31, 28, .wo, 0x0⟩, ⟨27, 27, .wo, 0x0⟩, ⟨26, 16, .rsv, 0x0⟩, ⟨15, 8, .wo, 0x0⟩, ⟨7, 0, .wo, 0x0⟩]⟩,
   ⟨0x1911, 1, 1, 1, [⟨31, 31, .ro, 0x0⟩, ⟨30, 28, .ro, 0x0⟩, ⟨27, 16, .rsv, 0x0⟩, ⟨15, 8, .ro, 0x0⟩, ⟨7, 0, .ro, 0x0⟩]⟩,
   ⟨0x1912, 1, 1, 1, [⟨31, 24, .ro, 0x0⟩, ⟨23, 19, .ro, 0x0⟩, ⟨18, 17, .ro, 0x0⟩, ⟨16, 16, .rsv, 0x0⟩, ⟨15, 14, .ro, 0x0⟩, ⟨13, 13, .ro, 0x0⟩, ⟨12, 12, .ro, 0x0⟩, ⟨11, 11, .ro, 0x0⟩, ⟨10, 10, .ro, 0x0⟩, ⟨9, 3, .rsv, 0x0⟩, ⟨2, 2, .w1c, 0x0⟩, ⟨1, 1, .w1c, 0x0⟩, ⟨0, 0, .w1c, 0x0⟩]⟩,
   ⟨0x1913, 1, 1, 1, [⟨31, 16, .rw, 0x0⟩, ⟨15, 0, .rw, 0x0⟩]⟩,
   ⟨0x1914, 1, 1, 1, [⟨31, 16, .rw, 0x0⟩, ⟨15, 0, .rw, 0x0⟩]⟩,
   ⟨0x1915, 1, 1, 1, [⟨31, 16, .rw, 0x0⟩, ⟨15, 0, .rw, 0x0⟩]⟩,
   ⟨0x1918, 1, 1, 1, [⟨31, 0, .ro, 0⟩]⟩,
   ⟨0x1919, 1, 1, 1, [⟨31, 0, .ro, 0⟩]⟩,
   ⟨0x1940, 1, 64, 1, [⟨31, 0, .rw, 0x0⟩]⟩,
   ⟨0x19FF, 1, 1, 1, [⟨31, 31, .ro, 0x0⟩, ⟨30, 30, .w1c, 0x0⟩, ⟨29, 29, .w1c, 0x0⟩, ⟨28, 24, .rsv, 0x0⟩, ⟨23, 16, .ro, 0x0⟩, ⟨15, 8, .ro, 0x0⟩, ⟨7, 2, .rsv, 0x0⟩, ⟨1, 1, .wo, 0x0⟩, ⟨0, 0, .w1s, 0x0⟩]⟩]

/-- The registers of the GRS window. -/
def rowsGRS : List RegRow :=
  [⟨0x1A00, 1, 1, 1, [⟨31, 31, .sh, 0x0⟩, ⟨30, 30, .sh, 0x0⟩, ⟨29, 29, .sh, 0x0⟩, ⟨28, 28, .sh, 0x1⟩, ⟨27, 21, .sh, 0x4⟩, ⟨20, 15, .sh, 0x8⟩, ⟨14, 8, .sh, 0x40⟩, ⟨7, 5, .sh, 0x1⟩, ⟨4, 1, .sh, 0x4⟩, ⟨0, 0, .sh, 0x0⟩]⟩,
   ⟨0x1A01, 1, 1, 1, [⟨31, 26, .rsv, 0x0⟩, ⟨25, 16, .sh, 0x20⟩, ⟨15, 10, .rsv, 0x0⟩, ⟨9, 0, .sh, 0x20⟩]⟩,
   ⟨0x1A02, 1, 1, 1, [⟨31, 10, .rsv, 0x0⟩, ⟨9, 0, .sh, 0x3FF⟩]⟩,
   ⟨0x1A03, 1, 1, 1, [⟨31, 16, .ro, 0x0⟩, ⟨15, 15, .ro, 0x0⟩, ⟨14, 0, .ro, 0x0⟩]⟩,
   ⟨0x1A04, 1, 1, 1, [⟨31, 16, .ro, 0x0⟩, ⟨15, 0, .ro, 0x0⟩]⟩,
   ⟨0x1A05, 1, 1, 1, [⟨31, 8, .rsv, 0x0⟩, ⟨7, 4, .ro, 0x0⟩, ⟨3, 3, .rsv, 0x0⟩, ⟨2, 2, .ro, 0x1⟩, ⟨1, 1, .w1c, 0x0⟩, ⟨0, 0, .w1c, 0x0⟩]⟩,
   ⟨0x1A06, 1, 1, 1, [⟨31, 0, .rw, 0x0⟩]⟩,
   ⟨0x1A07, 1, 1, 1, [⟨31, 16, .rw, 0x0⟩, ⟨15, 0, .rw, 0x0⟩]⟩,
   ⟨0x1AFF, 1, 1, 1, [⟨31, 31, .ro, 0x0⟩, ⟨30, 30, .w1c, 0x0⟩, ⟨29, 29, .w1c, 0x0⟩, ⟨28, 24, .rsv, 0x0⟩, ⟨23, 16, .ro, 0x0⟩, ⟨15, 8, .ro, 0x0⟩, ⟨7, 2, .rsv, 0x0⟩, ⟨1, 1, .wo, 0x0⟩, ⟨0, 0, .w1s, 0x0⟩]⟩]

/-- The registers of the LNK window. -/
def rowsLNK : List RegRow :=
  [⟨0x1B00, 1, 1, 1, [⟨31, 31, .sh, 0x0⟩, ⟨30, 30, .sh, 0x1⟩, ⟨29, 29, .sh, 0x0⟩, ⟨28, 28, .sh, 0x0⟩, ⟨27, 26, .sh, 0x0⟩, ⟨25, 16, .sh, 0x8⟩, ⟨15, 0, .rsv, 0x0⟩]⟩,
   ⟨0x1B01, 1, 1, 1, [⟨31, 9, .rsv, 0x0⟩, ⟨8, 8, .sh, 0x1⟩, ⟨7, 0, .sh, 0x8⟩]⟩,
   ⟨0x1B02, 1, 1, 1, [⟨31, 24, .rsv, 0x0⟩, ⟨23, 16, .sh, 0x4⟩, ⟨15, 8, .sh, 0xC⟩, ⟨7, 0, .sh, 0x19⟩]⟩,
   ⟨0x1B03, 1, 1, 1, [⟨31, 28, .ro, 0x0⟩, ⟨27, 24, .ro, 0x0⟩, ⟨23, 16, .ro, 0xFF⟩, ⟨15, 8, .ro, 0x0⟩, ⟨7, 7, .ro, 0x0⟩, ⟨6, 0, .ro, 0x0⟩]⟩,
   ⟨0x1B04, 1, 1, 1, [⟨31, 24, .ro, 0xFF⟩, ⟨23, 16, .rw, 0xFF⟩, ⟨15, 0, .rsv, 0x0⟩]⟩,
   ⟨0x1B05, 1, 1, 1, [⟨31, 16, .rw, 0x0⟩, ⟨15, 0, .rw, 0x0⟩]⟩,
   ⟨0x1B06, 1, 1, 1, [⟨31, 16, .rw, 0x0⟩, ⟨15, 0, .rw, 0x0⟩]⟩,
   ⟨0x1B07, 1, 1, 1, [⟨31, 16, .rw, 0x0⟩, ⟨15, 0, .rw, 0x0⟩]⟩,
   ⟨0x1B10, 1, 1, 1, [⟨31, 16, .sh, 0x0⟩, ⟨15, 0, .sh, 0xFFFF⟩]⟩,
   ⟨0x1B11, 1, 1, 1, [⟨31, 0, .ro, 0⟩]⟩,
   ⟨0x1B12, 1, 1, 1, [⟨31, 0, .ro, 0⟩]⟩,
   ⟨0x1B13, 1, 1, 1, [⟨31, 27, .sh, 0x0⟩, ⟨26, 24, .sh, 0x6⟩, ⟨23, 22, .sh, 0x2⟩, ⟨21, 21, .sh, 0x1⟩, ⟨20, 20, .sh, 0x1⟩, ⟨19, 19, .sh, 0x0⟩, ⟨18, 18, .sh, 0x0⟩, ⟨17, 15, .sh, 0x3⟩, ⟨14, 12, .rsv, 0x0⟩, ⟨11, 0, .sh, 0x3E8⟩]⟩,
   ⟨0x1B14, 1, 1, 1, [⟨31, 24, .sh, 0x55⟩, ⟨23, 16, .sh, 0x5⟩, ⟨15, 12, .sh, 0x3⟩, ⟨11, 8, .sh, 0x6⟩, ⟨7, 4, .sh, 0x5⟩, ⟨3, 0, .rsv, 0x0⟩]⟩,
   ⟨0x1B15, 1, 1, 1, [⟨31, 31, .sh, 0x0⟩, ⟨30, 30, .sh, 0x0⟩, ⟨29, 29, .sh, 0x0⟩, ⟨28, 17, .sh, 0x20⟩, ⟨16, 7, .sh, 0x3FF⟩, ⟨6, 0, .rsv, 0x0⟩]⟩,
   ⟨0x1B16, 1, 1, 1, [⟨31, 20, .rsv, 0x0⟩, ⟨19, 0, .sh, 0x0⟩]⟩,
   ⟨0x1B17, 1, 1, 1, [⟨31, 24, .sh, 0x96⟩, ⟨23, 16, .sh, 0x32⟩, ⟨15, 12, .sh, 0x1⟩, ⟨11, 6, .sh, 0x28⟩, ⟨5, 0, .rsv, 0x0⟩]⟩,
   ⟨0x1B18, 1, 1, 1, [⟨31, 31, .sh, 0x1⟩, ⟨30, 24, .sh, 0x2⟩, ⟨23, 12, .sh, 0xE10⟩, ⟨11, 0, .sh, 0x384⟩]⟩,
   ⟨0x1B19, 1, 1, 1, [⟨31, 31, .sh, 0x0⟩, ⟨30, 19, .sh, 0x64⟩, ⟨18, 12, .sh, 0x14⟩, ⟨11, 0, .sh, 0x0⟩]⟩,
   ⟨0x1B1A, 1, 1, 1, [⟨31, 31, .sh, 0x0⟩, ⟨30, 30, .sh, 0x0⟩, ⟨29, 29, .sh, 0x0⟩, ⟨28, 28, .sh, 0x0⟩, ⟨27, 18, .sh, 0x3FF⟩, ⟨17, 11, .sh, 0x14⟩, ⟨10, 0, .rsv, 0x0⟩]⟩,
   ⟨0x1B1B, 1, 1, 1, [⟨31, 24, .rsv, 0x0⟩, ⟨23, 0, .sh, 0x0⟩]⟩,
   ⟨0x1B1C, 1, 1, 1, [⟨31, 13, .rsv, 0x0⟩, ⟨12, 0, .sh, 0x100⟩]⟩,
   ⟨0x1B1D, 1, 1, 1, [⟨31, 0, .sh, 0x0⟩]⟩,
   ⟨0x1B1E, 1, 1, 1, [⟨31, 0, .ro, 0x0⟩]⟩,
   ⟨0x1B1F, 1, 1, 1, [⟨31, 6, .rsv, 0x0⟩, ⟨5, 0, .sh, 0x6⟩]⟩,
   ⟨0x1B20, 1, 4, 1, [⟨31, 31, .sh, 0x0⟩, ⟨30, 30, .sh, 0x0⟩, ⟨29, 8, .rsv, 0x0⟩, ⟨7, 0, .sh, 0x0⟩]⟩,
   ⟨0x1B28, 1, 1, 1, [⟨31, 30, .rsv, 0x0⟩, ⟨29, 16, .sh, 0x7D0⟩, ⟨15, 14, .rsv, 0x0⟩, ⟨13, 0, .sh, 0x730⟩]⟩,
   ⟨0x1B29, 1, 1, 1, [⟨31, 31, .sh, 0x1⟩, ⟨30, 14, .rsv, 0x0⟩, ⟨13, 0, .sh, 0xA⟩]⟩,
   ⟨0x1B2A, 1, 1, 1, [⟨31, 30, .rsv, 0x0⟩, ⟨29, 16, .sh, 0x8C0⟩, ⟨15, 14, .rsv, 0x0⟩, ⟨13, 0, .sh, 0x7D0⟩]⟩,
   ⟨0x1B2B, 1, 1, 1, [⟨31, 31, .sh, 0x1⟩, ⟨30, 14, .rsv, 0x0⟩, ⟨13, 0, .sh, 0x64⟩]⟩,
   ⟨0x1B2C, 1, 1, 1, [⟨31, 30, .rsv, 0x0⟩, ⟨29, 16, .sh, 0x8F0⟩, ⟨15, 14, .rsv, 0x0⟩, ⟨13, 0, .sh, 0x8C0⟩]⟩,
   ⟨0x1B2D, 1, 1, 1, [⟨31, 31, .sh, 0x1⟩, ⟨30, 14, .rsv, 0x0⟩, ⟨13, 0, .sh, 0x64⟩]⟩,
   ⟨0x1B2E, 1, 1, 1, [⟨31, 30, .rsv, 0x0⟩, ⟨29, 16, .sh, 0x920⟩, ⟨15, 14, .rsv, 0x0⟩, ⟨13, 0, .sh, 0x8F8⟩]⟩,
   ⟨0x1B2F, 1, 1, 1, [⟨31, 31, .sh, 0x1⟩, ⟨30, 14, .rsv, 0x0⟩, ⟨13, 0, .sh, 0xA⟩]⟩,
   ⟨0x1B30, 1, 1, 1, [⟨31, 30, .rsv, 0x0⟩, ⟨29, 16, .sh, 0x944⟩, ⟨15, 14, .rsv, 0x0⟩, ⟨13, 0, .sh, 0x930⟩]⟩,
   ⟨0x1B31, 1, 1, 1, [⟨31, 31, .sh, 0x1⟩, ⟨30, 14, .rsv, 0x0⟩, ⟨13, 0, .sh, 0x3E8⟩]⟩,
   ⟨0x1B32, 1, 1, 1, [⟨31, 30, .rsv, 0x0⟩, ⟨29, 16, .sh, 0x960⟩, ⟨15, 14, .rsv, 0x0⟩, ⟨13, 0, .sh, 0x948⟩]⟩,
   ⟨0x1B33, 1, 1, 1, [⟨31, 31, .sh, 0x1⟩, ⟨30, 14, .rsv, 0x0⟩, ⟨13, 0, .sh, 0x64⟩]⟩,
   ⟨0x1B34, 1, 1, 1, [⟨31, 30, .rsv, 0x0⟩, ⟨29, 16, .sh, 0x0⟩, ⟨15, 14, .rsv, 0x0⟩, ⟨13, 0, .sh, 0x0⟩]⟩,
   ⟨0x1B35, 1, 1, 1, [⟨31, 31, .sh, 0x0⟩, ⟨30, 14, .rsv, 0x0⟩, ⟨13, 0, .sh, 0x0⟩]⟩,
   ⟨0x1B36, 1, 1, 1, [⟨31, 30, .rsv, 0x0⟩, ⟨29, 16, .sh, 0x1B80⟩, ⟨15, 14, .rsv, 0x0⟩, ⟨13, 0, .sh, 0x1360⟩]⟩,
   ⟨0x1B37, 1, 1, 1, [⟨31, 31, .sh, 0x1⟩, ⟨30, 14, .rsv, 0x0⟩, ⟨13, 0, .sh, 0x2710⟩]⟩,
   ⟨0x1B38, 1, 1, 1, [⟨31, 3, .rsv, 0x0⟩, ⟨2, 0, .rw, 0x0⟩]⟩,
   ⟨0x1B39, 1, 1, 1, [⟨31, 24, .ro, 0x0⟩, ⟨23, 22, .rsv, 0x0⟩, ⟨21, 0, .ro, 0x0⟩]⟩,
   ⟨0x1B3E, 1, 1, 1, [⟨31, 16, .sh, 0x0⟩, ⟨15, 0, .rsv, 0x0⟩]⟩,
   ⟨0x1B40, 1, 1, 1, [⟨31, 31, .wo, 0x0⟩, ⟨30, 30, .wo, 0x0⟩, ⟨29, 29, .wo, 0x0⟩, ⟨28, 28, .wo, 0x0⟩, ⟨27, 24, .wo, 0x0⟩, ⟨23, 13, .wo, 0x0⟩, ⟨12, 0, .rsv, 0x0⟩]⟩,
   ⟨0x1B41, 1, 1, 1, [⟨31, 28, .ro, 0x0⟩, ⟨27, 25, .ro, 0x0⟩, ⟨24, 17, .ro, 0x0⟩, ⟨16, 16, .ro, 0x0⟩, ⟨15, 0, .rsv, 0x0⟩]⟩,
   ⟨0x1B42, 1, 1, 1, [⟨31, 16, .rw, 0xFFFF⟩, ⟨15, 8, .rw, 0x0⟩, ⟨7, 0, .rsv, 0x0⟩]⟩,
   ⟨0x1B43, 1, 1, 1, [⟨31, 8, .rsv, 0x0⟩, ⟨7, 0, .rw, 0x0⟩]⟩,
   ⟨0x1B44, 1, 1, 1, [⟨31, 16, .ro, 0xFFFF⟩, ⟨15, 12, .ro, 0x0⟩, ⟨11, 8, .ro, 0x0⟩, ⟨7, 0, .ro, 0xFF⟩]⟩,
   ⟨0x1B45, 1, 1, 1, [⟨31, 16, .ro, 0x0⟩, ⟨15, 8, .ro, 0x0⟩, ⟨7, 0, .ro, 0xFF⟩]⟩,
   ⟨0x1B46, 1, 1, 1, [⟨31, 0, .ro, 0x0⟩]⟩,
   ⟨0x1B47, 1, 1, 1, [⟨31, 0, .ro, 0x0⟩]⟩,
   ⟨0x1B48, 1, 1, 1, [⟨31, 0, .ro, 0x0⟩]⟩,
   ⟨0x1B49, 1, 1, 1, [⟨31, 16, .ro, 0x0⟩, ⟨15, 8, .ro, 0xFF⟩, ⟨7, 4, .ro, 0xF⟩, ⟨3, 3, .ro, 0x0⟩, ⟨2, 2, .ro, 0x0⟩, ⟨1, 1, .ro, 0x0⟩, ⟨0, 0, .rsv, 0x0⟩]⟩,
   ⟨0x1B4A, 1, 1, 1, [⟨31, 16, .ro, 0x0⟩, ⟨15, 0, .rw, 0x0⟩]⟩,
   ⟨0x1B50, 1, 1, 1, [⟨31, 16, .rw, 0x0⟩, ⟨15, 0, .rw, 0x0⟩]⟩,
   ⟨0x1B51, 1, 1, 1, [⟨31, 16, .rw, 0x0⟩, ⟨15, 0, .rw, 0x0⟩]⟩,
   ⟨0x1B52, 1, 1, 1, [⟨31, 16, .rw, 0x0⟩, ⟨15, 0, .rw, 0x0⟩]⟩,
   ⟨0x1B53, 1, 1, 1, [⟨31, 16, .rw, 0x0⟩, ⟨15, 0, .rw, 0x0⟩]⟩,
   ⟨0x1B54, 1, 1, 1, [⟨31, 16, .rw, 0x0⟩, ⟨15, 0, .rw, 0x0⟩]⟩,
   ⟨0x1C00, 1, 512, 1, [⟨31, 0, .rw, 0x0⟩]⟩,
   ⟨0x1FFF, 1, 1, 1, [⟨31, 31, .ro, 0x0⟩, ⟨30, 30, .w1c, 0x0⟩, ⟨29, 29, .w1c, 0x0⟩, ⟨28, 24, .rsv, 0x0⟩, ⟨23, 16, .ro, 0x0⟩, ⟨15, 8, .ro, 0x0⟩, ⟨7, 2, .rsv, 0x0⟩, ⟨1, 1, .wo, 0x0⟩, ⟨0, 0, .w1s, 0x0⟩]⟩]

/-- The registers of the NBR window. -/
def rowsNBR : List RegRow :=
  [⟨0x2000, 4, 256, 1, [⟨31, 0, .sh, 0x0⟩]⟩,
   ⟨0x2001, 4, 256, 1, [⟨31, 0, .sh, 0x0⟩]⟩,
   ⟨0x2002, 4, 256, 1, [⟨31, 0, .ro, 0x0⟩]⟩,
   ⟨0x2003, 4, 256, 1, [⟨31, 31, .ro, 0x0⟩, ⟨30, 30, .w1c, 0x0⟩, ⟨29, 29, .w1c, 0x0⟩, ⟨28, 24, .rsv, 0x0⟩, ⟨23, 16, .ro, 0x0⟩, ⟨15, 8, .ro, 0x0⟩, ⟨7, 2, .rsv, 0x0⟩, ⟨1, 1, .wo, 0x0⟩, ⟨0, 0, .w1s, 0x0⟩]⟩]

/-- The registers of the CAL window. -/
def rowsCAL : List RegRow :=
  [⟨0x2800, 1, 1, 1, [⟨31, 24, .sh, 0xA⟩, ⟨23, 16, .sh, 0x3C⟩, ⟨15, 1, .rsv, 0x0⟩, ⟨0, 0, .sh, 0x1⟩]⟩,
   ⟨0x2801, 1, 1, 1, [⟨31, 24, .sh, 0x3C⟩, ⟨23, 16, .sh, 0x3C⟩, ⟨15, 8, .sh, 0x3C⟩, ⟨7, 0, .sh, 0x3C⟩]⟩,
   ⟨0x2802, 1, 1, 1, [⟨31, 8, .rsv, 0x0⟩, ⟨7, 0, .sh, 0x3C⟩]⟩,
   ⟨0x2803, 1, 1, 1, [⟨31, 24, .sh, 0x41⟩, ⟨23, 16, .sh, 0x3C⟩, ⟨15, 8, .sh, 0x18⟩, ⟨7, 0, .rsv, 0x0⟩]⟩,
   ⟨0x2804, 1, 1, 1, [⟨31, 16, .wo, 0x0⟩, ⟨15, 12, .wo, 0x0⟩, ⟨11, 8, .wo, 0x0⟩, ⟨7, 0, .wo, 0x0⟩]⟩,
   ⟨0x2805, 1, 1, 1, [⟨31, 31, .ro, 0x0⟩, ⟨30, 28, .ro, 0x0⟩, ⟨27, 20, .ro, 0x0⟩, ⟨19, 16, .ro, 0x0⟩, ⟨15, 8, .ro, 0x0⟩, ⟨7, 2, .rsv, 0x0⟩, ⟨1, 1, .w1c, 0x0⟩, ⟨0, 0, .w1c, 0x0⟩]⟩,
   ⟨0x2806, 1, 1, 1, [⟨31, 24, .rsv, 0x0⟩, ⟨23, 16, .ro, 0x0⟩, ⟨15, 8, .rsv, 0x0⟩, ⟨7, 0, .ro, 0x0⟩]⟩,
   ⟨0x2807, 1, 1, 1, [⟨31, 12, .rsv, 0x0⟩, ⟨11, 0, .ro, 0x0⟩]⟩,
   ⟨0x2808, 1, 1, 1, [⟨31, 16, .rsv, 0x0⟩, ⟨15, 0, .rw, 0x0⟩]⟩,
   ⟨0x2809, 1, 1, 1, [⟨31, 30, .rw, 0x0⟩, ⟨29, 23, .rw, 0x0⟩, ⟨22, 14, .rsv, 0x0⟩, ⟨13, 0, .rw, 0x0⟩]⟩,
   ⟨0x280A, 1, 1, 1, [⟨31, 16, .ro, 0x0⟩, ⟨15, 0, .ro, 0x0⟩]⟩,
   ⟨0x2810, 1, 4, 1, [⟨31, 20, .sh, 0x0⟩, ⟨19, 8, .sh, 0x0⟩, ⟨7, 0, .sh, 0x0⟩]⟩,
   ⟨0x2814, 1, 2, 1, [⟨31, 24, .rsv, 0x0⟩, ⟨23, 16, .ro, 0x0⟩, ⟨15, 6, .rsv, 0x0⟩, ⟨5, 0, .sh, 0x20⟩]⟩,
   ⟨0x2816, 1, 1, 1, [⟨31, 8, .rsv, 0x0⟩, ⟨7, 0, .sh, 0x0⟩]⟩,
   ⟨0x2818, 1, 4, 1, [⟨31, 24, .ro, 0x0⟩, ⟨23, 16, .ro, 0x0⟩, ⟨15, 0, .rsv, 0x0⟩]⟩,
   ⟨0x281C, 1, 1, 1, [⟨31, 24, .ro, 0x0⟩, ⟨23, 16, .ro, 0x0⟩, ⟨15, 8, .ro, 0x0⟩, ⟨7, 0, .ro, 0x0⟩]⟩,
   ⟨0x2840, 1, 32, 1, [⟨31, 22, .sh, 0x0⟩, ⟨21, 11, .sh, 0x0⟩, ⟨10, 0, .sh, 0x0⟩]⟩,
   ⟨0x28FF, 1, 1, 1, [⟨31, 31, .ro, 0x0⟩, ⟨30, 30, .w1c, 0x0⟩, ⟨29, 29, .w1c, 0x0⟩, ⟨28, 24, .rsv, 0x0⟩, ⟨23, 16, .ro, 0x0⟩, ⟨15, 8, .ro, 0x0⟩, ⟨7, 2, .rsv, 0x0⟩, ⟨1, 1, .wo, 0x0⟩, ⟨0, 0, .w1s, 0x0⟩]⟩]

/-- The registers of the MSP window. -/
def rowsMSP : List RegRow :=
  [⟨0x2A00, 1, 1, 1, [⟨31, 30, .sh, 0x0⟩, ⟨29, 24, .sh, 0x1⟩, ⟨23, 20, .sh, 0x8⟩, ⟨19, 12, .sh, 0xB⟩, ⟨11, 0, .rsv, 0x0⟩]⟩,
   ⟨0x2A01, 1, 1, 1, [⟨31, 30, .sh, 0x0⟩, ⟨29, 24, .sh, 0x1⟩, ⟨23, 20, .sh, 0x8⟩, ⟨19, 12, .sh, 0xB⟩, ⟨11, 0, .rsv, 0x0⟩]⟩,
   ⟨0x2A02, 1, 1, 1, [⟨31, 28, .wo, 0x0⟩, ⟨27, 24, .rsv, 0x0⟩, ⟨23, 0, .wo, 0x0⟩]⟩,
   ⟨0x2A03, 1, 1, 1, [⟨31, 31, .ro, 0x0⟩, ⟨30, 28, .ro, 0x0⟩, ⟨27, 0, .rsv, 0x0⟩]⟩,
   ⟨0x2A04, 1, 1, 1, [⟨31, 7, .rsv, 0x0⟩, ⟨6, 0, .rw, 0x40⟩]⟩,
   ⟨0x2A10, 1, 16, 1, [⟨31, 0, .rw, 0x0⟩]⟩,
   ⟨0x2A40, 1, 1, 1, [⟨31, 20, .sh, 0x258⟩, ⟨19, 14, .sh, 0x4⟩, ⟨13, 13, .sh, 0x0⟩, ⟨12, 12, .sh, 0x1⟩, ⟨11, 0, .rsv, 0x0⟩]⟩,
   ⟨0x2A41, 1, 1, 1, [⟨31, 16, .wo, 0x0⟩, ⟨15, 4, .rsv, 0x0⟩, ⟨3, 0, .wo, 0x0⟩]⟩,
   ⟨0x2A42, 1, 1, 1, [⟨31, 31, .ro, 0x0⟩, ⟨30, 30, .ro, 0x0⟩, ⟨29, 29, .ro, 0x0⟩, ⟨28, 28, .ro, 0x0⟩, ⟨27, 22, .rsv, 0x0⟩, ⟨21, 16, .ro, 0x0⟩, ⟨15, 0, .ro, 0x0⟩]⟩,
   ⟨0x2A43, 1, 1, 1, [⟨31, 16, .ro, 0x0⟩, ⟨15, 0, .ro, 0x0⟩]⟩,
   ⟨0x2A44, 1, 1, 1, [⟨31, 21, .rsv, 0x0⟩, ⟨20, 0, .ro, 0x0⟩]⟩,
   ⟨0x2A45, 1, 1, 1, [⟨31, 16, .rw, 0x0⟩, ⟨15, 0, .rw, 0x0⟩]⟩,
   ⟨0x2A46, 1, 1, 1, [⟨31, 16, .rw, 0x0⟩, ⟨15, 0, .rw, 0x0⟩]⟩,
   ⟨0x2A48, 1, 1, 1, [⟨31, 31, .wo, 0x0⟩, ⟨30, 21, .rsv, 0x0⟩, ⟨20, 0, .wo, 0x0⟩]⟩,
   ⟨0x2A49, 1, 1, 1, [⟨31, 31, .ro, 0x0⟩, ⟨30, 28, .ro, 0x0⟩, ⟨27, 4, .rsv, 0x0⟩, ⟨3, 0, .rw, 0x0⟩]⟩,
   ⟨0x2A80, 1, 64, 1, [⟨31, 0, .ro, 0x0⟩]⟩,
   ⟨0x2AFF, 1, 1, 1, [⟨31, 31, .ro, 0x0⟩, ⟨30, 30, .w1c, 0x0⟩, ⟨29, 29, .w1c, 0x0⟩, ⟨28, 24, .rsv, 0x0⟩, ⟨23, 16, .ro, 0x0⟩, ⟨15, 8, .ro, 0x0⟩, ⟨7, 2, .rsv, 0x0⟩, ⟨1, 1, .wo, 0x0⟩, ⟨0, 0, .w1s, 0x0⟩]⟩]

/-- The registers of the SLT window. -/
def rowsSLT : List RegRow :=
  [⟨0x2B00, 1, 16, 1, [⟨31, 0, .rw, 0x0⟩]⟩,
   ⟨0x2B10, 1, 1, 1, [⟨31, 28, .wo, 0x0⟩, ⟨27, 10, .rsv, 0x0⟩, ⟨9, 0, .wo, 0x0⟩]⟩,
   ⟨0x2B11, 1, 1, 1, [⟨31, 31, .ro, 0x0⟩, ⟨30, 30, .w1c, 0x0⟩, ⟨29, 29, .ro, 0x0⟩, ⟨28, 26, .ro, 0x0⟩, ⟨25, 18, .ro, 0x0⟩, ⟨17, 10, .rsv, 0x0⟩, ⟨9, 0, .ro, 0x0⟩]⟩,
   ⟨0x2B12, 1, 1, 1, [⟨31, 16, .rw, 0x0⟩, ⟨15, 0, .rw, 0x0⟩]⟩,
   ⟨0x2B13, 1, 1, 1, [⟨31, 16, .ro, 0x0⟩, ⟨15, 8, .ro, 0x0⟩, ⟨7, 0, .ro, 0x0⟩]⟩]

/-- The registers of the SGT window. -/
def rowsSGT : List RegRow :=
  [⟨0x2C00, 1, 1, 1, [⟨31, 20, .rw, 0x12C⟩, ⟨19, 14, .rw, 0x3C⟩, ⟨13, 6, .rw, 0x5⟩, ⟨5, 0, .rw, 0xF⟩]⟩,
   ⟨0x2C01, 1, 1, 1, [⟨31, 20, .ro, 0x0⟩, ⟨19, 4, .rsv, 0x0⟩, ⟨3, 3, .w1c, 0x0⟩, ⟨2, 2, .w1c, 0x0⟩, ⟨1, 1, .w1c, 0x0⟩, ⟨0, 0, .rsv, 0x0⟩]⟩,
   ⟨0x2C02, 1, 1, 1, [⟨31, 0, .rw, 0x0⟩]⟩,
   ⟨0x2C03, 1, 1, 1, [⟨31, 16, .rw, 0x0⟩, ⟨15, 0, .rw, 0x0⟩]⟩,
   ⟨0x2C04, 1, 1, 1, [⟨31, 30, .ro, 0x0⟩, ⟨29, 11, .rsv, 0x0⟩, ⟨10, 0, .rw, 0x0⟩]⟩,
   ⟨0x2C10, 1, 16, 1, [⟨31, 0, .ro, 0x0⟩]⟩,
   ⟨0x2C40, 4, 32, 1, [⟨31, 0, .ro, 0x0⟩]⟩,
   ⟨0x2C41, 4, 32, 1, [⟨31, 0, .ro, 0x0⟩]⟩,
   ⟨0x2C42, 4, 32, 1, [⟨31, 0, .ro, 0x0⟩]⟩,
   ⟨0x2C43, 4, 32, 1, [⟨31, 16, .ro, 0x0⟩, ⟨15, 1, .rsv, 0x0⟩, ⟨0, 0, .ro, 0x0⟩]⟩]

/-- The registers of the HSP window. -/
def rowsHSP : List RegRow :=
  [⟨0x2E00, 1, 1, 1, [⟨31, 20, .ro, 0x0⟩, ⟨19, 17, .ro, 0x0⟩, ⟨16, 15, .ro, 0x0⟩, ⟨14, 14, .ro, 0x0⟩, ⟨13, 13, .ro, 0⟩, ⟨12, 8, .rsv, 0x0⟩, ⟨7, 7, .w1c, 0x0⟩, ⟨6, 6, .w1c, 0x0⟩, ⟨5, 5, .w1c, 0x0⟩, ⟨4, 4, .w1c, 0x0⟩, ⟨3, 3, .w1c, 0x0⟩, ⟨2, 2, .w1c, 0x0⟩, ⟨1, 1, .w1c, 0x0⟩, ⟨0, 0, .w1c, 0x0⟩]⟩,
   ⟨0x2E01, 1, 1, 1, [⟨31, 24, .sh, 0xA⟩, ⟨23, 16, .sh, 0x0⟩, ⟨15, 0, .rsv, 0x0⟩]⟩,
   ⟨0x2E02, 1, 1, 1, [⟨31, 13, .rsv, 0x0⟩, ⟨12, 0, .sh, 0x28⟩]⟩,
   ⟨0x2E03, 1, 1, 1, [⟨31, 16, .rsv, 0x0⟩, ⟨15, 0, .sh, 0x3E8⟩]⟩,
   ⟨0x2E04, 1, 1, 1, [⟨31, 16, .rw, 0x0⟩, ⟨15, 0, .rw, 0x0⟩]⟩,
   ⟨0x2E05, 1, 1, 1, [⟨31, 16, .rw, 0x0⟩, ⟨15, 0, .rw, 0x0⟩]⟩,
   ⟨0x2E06, 1, 1, 1, [⟨31, 16, .rw, 0x0⟩, ⟨15, 7, .rsv, 0x0⟩, ⟨6, 0, .ro, 0x0⟩]⟩,
   ⟨0x2E08, 1, 1, 1, [⟨31, 0, .w1c, 0x0⟩]⟩,
   ⟨0x2E09, 1, 1, 1, [⟨31, 29, .rsv, 0x0⟩, ⟨28, 0, .w1c, 0x0⟩]⟩,
   ⟨0x2E0A, 1, 1, 1, [⟨31, 0, .rw, 0x0⟩]⟩,
   ⟨0x2E0B, 1, 1, 1, [⟨31, 29, .rsv, 0x0⟩, ⟨28, 0, .rw, 0x0⟩]⟩,
   ⟨0x2E0F, 1, 1, 1, [⟨31, 31, .ro, 0x0⟩, ⟨30, 30, .w1c, 0x0⟩, ⟨29, 29, .w1c, 0x0⟩, ⟨28, 24, .rsv, 0x0⟩, ⟨23, 16, .ro, 0x0⟩, ⟨15, 8, .ro, 0x0⟩, ⟨7, 2, .rsv, 0x0⟩, ⟨1, 1, .wo, 0x0⟩, ⟨0, 0, .w1s, 0x0⟩]⟩]

/-- The rows of the window that holds an address; none outside every window. -/
def rowsAt (a : Nat) : List RegRow :=
  if 0x0 ≤ a ∧ a ≤ 0xFF then rowsSYS
  else if 0x100 ≤ a ∧ a ≤ 0x150 then rowsPROT
  else if 0x200 ≤ a ∧ a ≤ 0x2FF then rowsQTZ
  else if 0x400 ≤ a ∧ a ≤ 0x5FF then rowsTMR
  else if 0x600 ≤ a ∧ a ≤ 0x6FF then rowsFIFO
  else if 0x800 ≤ a ∧ a ≤ 0xBFF then rowsRAD
  else if 0xC00 ≤ a ∧ a ≤ 0xFFF then rowsSYNCAL
  else if 0x1000 ≤ a ∧ a ≤ 0x13FF then rowsRP
  else if 0x1400 ≤ a ∧ a ≤ 0x14FF then rowsHDG
  else if 0x1500 ≤ a ∧ a ≤ 0x17FF then rowsBRM
  else if 0x1800 ≤ a ∧ a ≤ 0x18FF then rowsHF
  else if 0x1900 ≤ a ∧ a ≤ 0x19FF then rowsTAG
  else if 0x1A00 ≤ a ∧ a ≤ 0x1AFF then rowsGRS
  else if 0x1B00 ≤ a ∧ a ≤ 0x1FFF then rowsLNK
  else if 0x2000 ≤ a ∧ a ≤ 0x23FF then rowsNBR
  else if 0x2800 ≤ a ∧ a ≤ 0x28FF then rowsCAL
  else if 0x2A00 ≤ a ∧ a ≤ 0x2AFF then rowsMSP
  else if 0x2B00 ≤ a ∧ a ≤ 0x2BFF then rowsSLT
  else if 0x2C00 ≤ a ∧ a ≤ 0x2CFF then rowsSGT
  else if 0x2E00 ≤ a ∧ a ≤ 0x2E0F then rowsHSP
  else []

/-! Word addresses. -/

namespace Adr

def SYS_ID : Nat := 0x0
def SYS_MODE : Nat := 0x10
def SYS_MODECTL : Nat := 0x11
def SYS_MODECMD : Nat := 0x12
def SYS_WAKEEN : Nat := 0x13
def SYS_WAKESRC : Nat := 0x14
def SYS_CLKSTAT : Nat := 0x15
def SYS_BOOTSTAT : Nat := 0x20
def SYS_BOOTREC : Nat := 0x21
def SYS_BOOTSEQ : Nat := 0x22
def SYS_BOOTINFO : Nat := 0x23
def SYS_BOOTCMD : Nat := 0x24
def SYS_REJSUM : Nat := 0x30
def SYS_STAT : Nat := 0x40
def SYS_LOAD : Nat := 0x41
def SYS_GRANTED : Nat := 0x42
def SYS_SCHCFG : Nat := 0x43
def SYS_C3CFG : Nat := 0x44
def SYS_CXCFG : Nat := 0x45
def SYS_SCHW : Nat := 0x46
def SYS_ZW (n : Nat) : Nat := 0x48 + n
def SYS_SCHCNT0 : Nat := 0x50
def SYS_SCHCNT1 : Nat := 0x51
def SYS_SCHCNT2 : Nat := 0x52
def SYS_SCHCNT3 : Nat := 0x53
def SYS_RES_GRANT (n : Nat) : Nat := 0x60 + 2 * n
def SYS_RES_WAIT (n : Nat) : Nat := 0x61 + 2 * n
def SYS_COMMIT : Nat := 0xFF
def PROT_DEF : Nat := 0x100
def PROT_LEVEL : Nat := 0x101
def PROT_DENY : Nat := 0x102
def PROT_RANGE (n : Nat) : Nat := 0x110 + 2 * n
def PROT_PERM (n : Nat) : Nat := 0x111 + 2 * n
def PROT_COMMIT : Nat := 0x150
def QTZ_TIME0 : Nat := 0x200
def QTZ_TIME1 : Nat := 0x201
def QTZ_Q64H : Nat := 0x202
def QTZ_Q64L : Nat := 0x203
def QTZ_CMD : Nat := 0x206
def QTZ_SHIFT : Nat := 0x207
def QTZ_CDN : Nat := 0x208
def QTZ_STAT : Nat := 0x209
def QTZ_TRIM : Nat := 0x210
def QTZ_ALARM : Nat := 0x211
def QTZ_ATRIM : Nat := 0x212
def QTZ_PWRON : Nat := 0x213
def QTZ_ATSTAT : Nat := 0x214
def QTZ_SET0 : Nat := 0x204
def QTZ_SET1 : Nat := 0x205
def QTZ_COMMIT : Nat := 0x2FF
def TMR_CFG (n : Nat) : Nat := 0x400 + 16 * n
def TMR_TRIG (n : Nat) : Nat := 0x401 + 16 * n
def TMR_CCFG (n : Nat) : Nat := 0x402 + 16 * n
def TMR_CTRL (n : Nat) : Nat := 0x403 + 16 * n
def TMR_CNT (n : Nat) : Nat := 0x404 + 16 * n
def TMR_BUF (n : Nat) : Nat := 0x405 + 16 * n
def TMR_CAP (n : Nat) : Nat := 0x40A + 16 * n
def TMR_STAT (n : Nat) : Nat := 0x40B + 16 * n
def TMR_IEN (n : Nat) : Nat := 0x40C + 16 * n
def TMR_SNAPV (n : Nat) : Nat := 0x40D + 16 * n
def TMR_CMP (n : Nat) (k : Nat) : Nat := 0x406 + 16 * n + k
def TMR_COMMIT (n : Nat) : Nat := 0x40F + 16 * n
def TMR_SNAP : Nat := 0x500
def TMR_GCMD : Nat := 0x501
def TMR_IRQ : Nat := 0x502
def TMR_TOUT (n : Nat) : Nat := 0x508 + n
def FIFO_CH_CFG (n : Nat) : Nat := 0x600 + n
def FIFO_CH_STAT (n : Nat) : Nat := 0x610 + n
def FIFO_CH_CNT (n : Nat) : Nat := 0x620 + n
def FIFO_CH_ERR (n : Nat) : Nat := 0x630 + n
def FIFO_CMD : Nat := 0x640
def FIFO_PORT (n : Nat) : Nat := 0x680 + n
def FIFO_TAG (n : Nat) : Nat := 0x688 + n
def FIFO_COMMIT : Nat := 0x6FF
def RAD_PWR (n : Nat) : Nat := 0x800 + n
def RAD_CXV (n : Nat) : Nat := 0xA00 + n
def RAD_CXANCH (n : Nat) : Nat := 0xB00 + n
def RAD_PORT_CFG (n : Nat) : Nat := 0xB10 + n
def RAD_PA : Nat := 0xB18
def RAD_AGC : Nat := 0xB19
def RAD_CANC : Nat := 0xB1A
def RAD_CFG : Nat := 0xB1B
def RAD_TXHOLD_MAX : Nat := 0xB1C
def RAD_RXC_STAT (n : Nat) : Nat := 0xB20 + n
def RAD_TXA_STAT : Nat := 0xB28
def RAD_TXB_STAT : Nat := 0xB29
def RAD_STATE : Nat := 0xB30
def RAD_STAT : Nat := 0xB31
def RAD_CNT0 : Nat := 0xB32
def RAD_CNT1 : Nat := 0xB33
def RAD_SWSTAT : Nat := 0xB34
def RAD_COMMIT : Nat := 0xBFF
def SYNCAL_A (n : Nat) : Nat := 0xC00 + n
def SYNCAL_B (n : Nat) : Nat := 0xD00 + n
def SYNCAL_CFG : Nat := 0xE00
def SYNCAL_STAT : Nat := 0xE01
def SYNCAL_CNT : Nat := 0xE02
def SYNCAL_COMMIT : Nat := 0xFFF
def RP_CFG (n : Nat) : Nat := 0x1000 + 16 * n
def RP_FILT (n : Nat) : Nat := 0x1001 + 16 * n
def RP_NOTE (n : Nat) (k : Nat) : Nat := 0x1002 + 16 * n + k
def RP_COMMIT (n : Nat) : Nat := 0x100F + 16 * n
def HDG_CFG (n : Nat) : Nat := 0x1400 + 8 * n
def HDG_CHILD0 (n : Nat) : Nat := 0x1401 + 8 * n
def HDG_CHILD1 (n : Nat) : Nat := 0x1402 + 8 * n
def HDG_WEIGHT0 (n : Nat) : Nat := 0x1403 + 8 * n
def HDG_WEIGHT1 (n : Nat) : Nat := 0x1404 + 8 * n
def HDG_STAT (n : Nat) : Nat := 0x1405 + 8 * n
def HDG_COMMIT (n : Nat) : Nat := 0x1407 + 8 * n
def BRM_CFG : Nat := 0x1500
def BRM_Q : Nat := 0x1501
def BRM_CAPTURE : Nat := 0x1502
def BRM_ACC : Nat := 0x1503
def BRM_PROF : Nat := 0x1504
def BRM_CUST0 : Nat := 0x1505
def BRM_CUST1 : Nat := 0x1506
def BRM_CUSTCH (n : Nat) : Nat := 0x1507 + n
def BRM_IMM : Nat := 0x1510
def BRM_IMMSTAT : Nat := 0x1511
def BRM_STAT : Nat := 0x1512
def BRM_CNT0 : Nat := 0x1513
def BRM_CNT1 : Nat := 0x1514
def BRM_CNT2 : Nat := 0x1515
def BRM_CNT3 : Nat := 0x1516
def BRM_OCCSEL : Nat := 0x1518
def BRM_OCC : Nat := 0x1519
def BRM_POOL (n : Nat) : Nat := 0x1530 + n
def BRM_PG_OP (n : Nat) : Nat := 0x1570 + 2 * n
def BRM_PG_ARG (n : Nat) : Nat := 0x1571 + 2 * n
def BRM_SEL_CTRL (n : Nat) : Nat := 0x1670 + 6 * n
def BRM_SEL_PTR (n : Nat) : Nat := 0x1671 + 6 * n
def BRM_SEL_MASK (n : Nat) (k : Nat) : Nat := 0x1672 + 6 * n + k
def BRM_COMMIT : Nat := 0x17FF
def HF_CFG : Nat := 0x1800
def HF_DRV : Nat := 0x1801
def HF_ISO4 : Nat := 0x1802
def HF_WTX_MAX : Nat := 0x1803
def HF_ACOL : Nat := 0x1804
def HF_IMM : Nat := 0x1808
def HF_IMMSTAT : Nat := 0x1809
def HF_RAW : Nat := 0x180A
def HF_TXLEN : Nat := 0x180B
def HF_BUFSEL : Nat := 0x180C
def HF_STAT : Nat := 0x1810
def HF_CNT0 : Nat := 0x1811
def HF_CNT1 : Nat := 0x1812
def HF_CNT2 : Nat := 0x1813
def HF_BUF (n : Nat) : Nat := 0x1880 + n
def HF_COMMIT : Nat := 0x18FF
def TAG_CFG : Nat := 0x1900
def TAG_AREA : Nat := 0x1901
def TAG_PWEN : Nat := 0x1902
def TAG_AESEN : Nat := 0x1903
def TAG_FLTMASK : Nat := 0x1904
def TAG_STATLIST (n : Nat) : Nat := 0x1905 + n
def TAG_HCMD : Nat := 0x1910
def TAG_HSTAT : Nat := 0x1911
def TAG_STAT : Nat := 0x1912
def TAG_CNT0 : Nat := 0x1913
def TAG_CNT1 : Nat := 0x1914
def TAG_CNT2 : Nat := 0x1915
def TAG_UID0 : Nat := 0x1918
def TAG_UID1 : Nat := 0x1919
def TAG_HBUF (n : Nat) : Nat := 0x1940 + n
def TAG_COMMIT : Nat := 0x19FF
def GRS_CFG : Nat := 0x1A00
def GRS_THR : Nat := 0x1A01
def GRS_TRIG : Nat := 0x1A02
def GRS_BASE : Nat := 0x1A03
def GRS_MEAS : Nat := 0x1A04
def GRS_STAT : Nat := 0x1A05
def GRS_CNT0 : Nat := 0x1A06
def GRS_CNT1 : Nat := 0x1A07
def GRS_COMMIT : Nat := 0x1AFF
def LNK_PHYCFG : Nat := 0x1B00
def LNK_CAPTURE : Nat := 0x1B01
def LNK_EQ : Nat := 0x1B02
def LNK_PHYSTAT : Nat := 0x1B03
def LNK_ED : Nat := 0x1B04
def LNK_PHYCNT0 : Nat := 0x1B05
def LNK_PHYCNT1 : Nat := 0x1B06
def LNK_PHYCNT2 : Nat := 0x1B07
def LNK_ID : Nat := 0x1B10
def LNK_EUI0 : Nat := 0x1B11
def LNK_EUI1 : Nat := 0x1B12
def LNK_MACCFG : Nat := 0x1B13
def LNK_CCA : Nat := 0x1B14
def LNK_BCN : Nat := 0x1B15
def LNK_BCNPH : Nat := 0x1B16
def LNK_DRIFT : Nat := 0x1B17
def LNK_SYNC : Nat := 0x1B18
def LNK_RDV : Nat := 0x1B19
def LNK_DATA : Nat := 0x1B1A
def LNK_IEVID : Nat := 0x1B1B
def LNK_CKPT : Nat := 0x1B1C
def LNK_FCBASE : Nat := 0x1B1D
def LNK_FCNT : Nat := 0x1B1E
def LNK_SEARCH_MAX : Nat := 0x1B1F
def LNK_SRC (n : Nat) : Nat := 0x1B20 + n
def LNK_SBSEL : Nat := 0x1B38
def LNK_SBUSE : Nat := 0x1B39
def LNK_AUTO : Nat := 0x1B3E
def LNK_TXCMD : Nat := 0x1B40
def LNK_TXSTAT : Nat := 0x1B41
def LNK_TXDEST : Nat := 0x1B42
def LNK_NVSEL : Nat := 0x1B43
def LNK_NV0 : Nat := 0x1B44
def LNK_NV1 : Nat := 0x1B45
def LNK_NV2 : Nat := 0x1B46
def LNK_NV3 : Nat := 0x1B47
def LNK_EPOCH : Nat := 0x1B48
def LNK_ORIGIN : Nat := 0x1B49
def LNK_SYNCSTAT : Nat := 0x1B4A
def LNK_MACCNT0 : Nat := 0x1B50
def LNK_MACCNT1 : Nat := 0x1B51
def LNK_MACCNT2 : Nat := 0x1B52
def LNK_MACCNT3 : Nat := 0x1B53
def LNK_MACCNT4 : Nat := 0x1B54
def LNK_TXBUF (n : Nat) : Nat := 0x1C00 + n
def LNK_COMMIT : Nat := 0x1FFF
def NBR_EUIH (n : Nat) : Nat := 0x2000 + 4 * n
def NBR_EUIL (n : Nat) : Nat := 0x2001 + 4 * n
def NBR_FC (n : Nat) : Nat := 0x2002 + 4 * n
def NBR_COMMIT (n : Nat) : Nat := 0x2003 + 4 * n
def CAL_CFG : Nat := 0x2800
def CAL_PER0 : Nat := 0x2801
def CAL_PER1 : Nat := 0x2802
def CAL_LIM : Nat := 0x2803
def CAL_CMD : Nat := 0x2804
def CAL_STAT : Nat := 0x2805
def CAL_DUE : Nat := 0x2806
def CAL_TEMP : Nat := 0x2807
def CAL_REFPWR : Nat := 0x2808
def CAL_REFCH : Nat := 0x2809
def CAL_SVCRES : Nat := 0x280A
def CAL_ALIGN (n : Nat) : Nat := 0x2810 + n
def CAL_HFTUNE (n : Nat) : Nat := 0x2814 + n
def CAL_GRSOSC : Nat := 0x2816
def CAL_QRX (n : Nat) : Nat := 0x2818 + n
def CAL_QTX : Nat := 0x281C
def CAL_ADC (n : Nat) : Nat := 0x2840 + n
def CAL_COMMIT : Nat := 0x28FF
def MSP_CFG0 : Nat := 0x2A00
def MSP_CFG1 : Nat := 0x2A01
def MSP_HCMD : Nat := 0x2A02
def MSP_HSTAT : Nat := 0x2A03
def MSP_HLEN : Nat := 0x2A04
def MSP_HBUF (n : Nat) : Nat := 0x2A10 + n
def JNL_CFG : Nat := 0x2A40
def JNL_CMD : Nat := 0x2A41
def JNL_STAT : Nat := 0x2A42
def JNL_POS : Nat := 0x2A43
def JNL_PAGES : Nat := 0x2A44
def JNL_CNT0 : Nat := 0x2A45
def JNL_CNT1 : Nat := 0x2A46
def JNL_RDCMD : Nat := 0x2A48
def JNL_RDSTAT : Nat := 0x2A49
def JNL_RDBUF (n : Nat) : Nat := 0x2A80 + n
def MSP_COMMIT : Nat := 0x2AFF
def SLT_BUF (n : Nat) : Nat := 0x2B00 + n
def SLT_CMD : Nat := 0x2B10
def SLT_STAT : Nat := 0x2B11
def SLT_CNT : Nat := 0x2B12
def SLT_CACHE : Nat := 0x2B13
def SGT_CFG : Nat := 0x2C00
def SGT_STAT : Nat := 0x2C01
def SGT_CNT0 : Nat := 0x2C02
def SGT_CNT1 : Nat := 0x2C03
def SGT_SEL : Nat := 0x2C04
def SGT_E (n : Nat) : Nat := 0x2C10 + n
def SGT_TRF_FWD (n : Nat) : Nat := 0x2C40 + 4 * n
def SGT_TRF_REV (n : Nat) : Nat := 0x2C41 + 4 * n
def SGT_TRF_NONE (n : Nat) : Nat := 0x2C42 + 4 * n
def SGT_TRF_INFO (n : Nat) : Nat := 0x2C43 + 4 * n
def HSP_STAT : Nat := 0x2E00
def HSP_CFG : Nat := 0x2E01
def HSP_LEN : Nat := 0x2E02
def HSP_STALL_MAX : Nat := 0x2E03
def HSP_CNT0 : Nat := 0x2E04
def HSP_CNT1 : Nat := 0x2E05
def HSP_UNLK : Nat := 0x2E06
def HSP_INT0 : Nat := 0x2E08
def HSP_INT1 : Nat := 0x2E09
def HSP_IMASK0 : Nat := 0x2E0A
def HSP_IMASK1 : Nat := 0x2E0B
def HSP_COMMIT : Nat := 0x2E0F
def LNK_SB_RANGE (n : Nat) : Nat := 0x1B28 + 2 * n
def LNK_SB_DUTY (n : Nat) : Nat := 0x1B29 + 2 * n

end Adr

/-! Fields, named register and field. -/

namespace Fld

def SYS_ID_PART : Field := ⟨Adr.SYS_ID, 31, 16⟩
def SYS_ID_FAMILY : Field := ⟨Adr.SYS_ID, 15, 12⟩
def SYS_ID_MAJOR : Field := ⟨Adr.SYS_ID, 7, 4⟩
def SYS_ID_MINOR : Field := ⟨Adr.SYS_ID, 3, 0⟩
def SYS_MODE_CMDRES : Field := ⟨Adr.SYS_MODE, 22, 20⟩
def SYS_MODE_LASTWAKE : Field := ⟨Adr.SYS_MODE, 15, 12⟩
def SYS_MODE_PREV : Field := ⟨Adr.SYS_MODE, 10, 8⟩
def SYS_MODE_TRANS : Field := ⟨Adr.SYS_MODE, 3, 3⟩
def SYS_MODE_MODE : Field := ⟨Adr.SYS_MODE, 2, 0⟩
def SYS_MODECTL_RFHOLD : Field := ⟨Adr.SYS_MODECTL, 31, 24⟩
def SYS_MODECTL_IDLEMIN : Field := ⟨Adr.SYS_MODECTL, 23, 16⟩
def SYS_MODECTL_WATCHLNK : Field := ⟨Adr.SYS_MODECTL, 11, 11⟩
def SYS_MODECTL_GORSE : Field := ⟨Adr.SYS_MODECTL, 10, 10⟩
def SYS_MODECTL_FLOOR : Field := ⟨Adr.SYS_MODECTL, 2, 0⟩
def SYS_MODECMD_KEY : Field := ⟨Adr.SYS_MODECMD, 31, 16⟩
def SYS_MODECMD_CMD : Field := ⟨Adr.SYS_MODECMD, 3, 0⟩
def SYS_WAKEEN_E9 : Field := ⟨Adr.SYS_WAKEEN, 9, 9⟩
def SYS_WAKEEN_E8 : Field := ⟨Adr.SYS_WAKEEN, 8, 8⟩
def SYS_WAKEEN_E7 : Field := ⟨Adr.SYS_WAKEEN, 7, 7⟩
def SYS_WAKEEN_E6 : Field := ⟨Adr.SYS_WAKEEN, 6, 6⟩
def SYS_WAKEEN_E5 : Field := ⟨Adr.SYS_WAKEEN, 5, 5⟩
def SYS_WAKEEN_E4 : Field := ⟨Adr.SYS_WAKEEN, 4, 4⟩
def SYS_WAKEEN_E3 : Field := ⟨Adr.SYS_WAKEEN, 3, 3⟩
def SYS_WAKEEN_E2 : Field := ⟨Adr.SYS_WAKEEN, 2, 2⟩
def SYS_WAKEEN_E1 : Field := ⟨Adr.SYS_WAKEEN, 1, 1⟩
def SYS_WAKEEN_E0 : Field := ⟨Adr.SYS_WAKEEN, 0, 0⟩
def SYS_WAKESRC_SRC : Field := ⟨Adr.SYS_WAKESRC, 9, 0⟩
def SYS_CLKSTAT_LOCKLOSS : Field := ⟨Adr.SYS_CLKSTAT, 31, 16⟩
def SYS_CLKSTAT_FALLBACK : Field := ⟨Adr.SYS_CLKSTAT, 4, 4⟩
def SYS_CLKSTAT_RFBIAS : Field := ⟨Adr.SYS_CLKSTAT, 3, 3⟩
def SYS_CLKSTAT_PLLLOCK : Field := ⟨Adr.SYS_CLKSTAT, 2, 2⟩
def SYS_CLKSTAT_REFOK : Field := ⟨Adr.SYS_CLKSTAT, 1, 1⟩
def SYS_CLKSTAT_CLK32OK : Field := ⟨Adr.SYS_CLKSTAT, 0, 0⟩
def SYS_BOOTSTAT_CAUSE : Field := ⟨Adr.SYS_BOOTSTAT, 31, 28⟩
def SYS_BOOTSTAT_IMAGE : Field := ⟨Adr.SYS_BOOTSTAT, 27, 26⟩
def SYS_BOOTSTAT_BARE : Field := ⟨Adr.SYS_BOOTSTAT, 25, 25⟩
def SYS_BOOTSTAT_DONE : Field := ⟨Adr.SYS_BOOTSTAT, 24, 24⟩
def SYS_BOOTSTAT_OSF : Field := ⟨Adr.SYS_BOOTSTAT, 23, 23⟩
def SYS_BOOTSTAT_HGEN : Field := ⟨Adr.SYS_BOOTSTAT, 22, 22⟩
def SYS_BOOTSTAT_BOOTSEL : Field := ⟨Adr.SYS_BOOTSTAT, 21, 21⟩
def SYS_BOOTSTAT_CALFAIL : Field := ⟨Adr.SYS_BOOTSTAT, 20, 20⟩
def SYS_BOOTSTAT_JNLFAIL : Field := ⟨Adr.SYS_BOOTSTAT, 19, 19⟩
def SYS_BOOTSTAT_HOSTWR : Field := ⟨Adr.SYS_BOOTSTAT, 18, 18⟩
def SYS_BOOTSTAT_AWHY : Field := ⟨Adr.SYS_BOOTSTAT, 15, 12⟩
def SYS_BOOTSTAT_BWHY : Field := ⟨Adr.SYS_BOOTSTAT, 11, 8⟩
def SYS_BOOTSTAT_REFUSED : Field := ⟨Adr.SYS_BOOTSTAT, 7, 0⟩
def SYS_BOOTREC_FIRSTREF : Field := ⟨Adr.SYS_BOOTREC, 31, 16⟩
def SYS_BOOTREC_REASON : Field := ⟨Adr.SYS_BOOTREC, 15, 8⟩
def SYS_BOOTREC_BLOCKID : Field := ⟨Adr.SYS_BOOTREC, 7, 0⟩
def SYS_BOOTSEQ_SEQ : Field := ⟨Adr.SYS_BOOTSEQ, 31, 0⟩
def SYS_BOOTINFO_PRODUCT : Field := ⟨Adr.SYS_BOOTINFO, 31, 0⟩
def SYS_BOOTCMD_KEY : Field := ⟨Adr.SYS_BOOTCMD, 31, 16⟩
def SYS_BOOTCMD_CMD : Field := ⟨Adr.SYS_BOOTCMD, 3, 0⟩
def SYS_REJSUM_REJ : Field := ⟨Adr.SYS_REJSUM, 19, 0⟩
def SYS_STAT_XREQ : Field := ⟨Adr.SYS_STAT, 12, 12⟩
def SYS_STAT_XGNT : Field := ⟨Adr.SYS_STAT, 11, 11⟩
def SYS_STAT_CXGNT : Field := ⟨Adr.SYS_STAT, 10, 10⟩
def SYS_STAT_CXPRI : Field := ⟨Adr.SYS_STAT, 9, 9⟩
def SYS_STAT_CXREQ : Field := ⟨Adr.SYS_STAT, 8, 8⟩
def SYS_STAT_OVERLOAD : Field := ⟨Adr.SYS_STAT, 7, 7⟩
def SYS_STAT_SHED : Field := ⟨Adr.SYS_STAT, 2, 0⟩
def SYS_LOAD_PEAK : Field := ⟨Adr.SYS_LOAD, 25, 16⟩
def SYS_LOAD_LOAD : Field := ⟨Adr.SYS_LOAD, 9, 0⟩
def SYS_GRANTED_RESERVED : Field := ⟨Adr.SYS_GRANTED, 26, 16⟩
def SYS_GRANTED_HELD : Field := ⟨Adr.SYS_GRANTED, 10, 0⟩
def SYS_SCHCFG_QUANTUM : Field := ⟨Adr.SYS_SCHCFG, 31, 24⟩
def SYS_SCHCFG_MAXWAIT : Field := ⟨Adr.SYS_SCHCFG, 23, 12⟩
def SYS_SCHCFG_HOSTGAP : Field := ⟨Adr.SYS_SCHCFG, 11, 8⟩
def SYS_SCHCFG_MINSLICE : Field := ⟨Adr.SYS_SCHCFG, 7, 0⟩
def SYS_C3CFG_SHARE : Field := ⟨Adr.SYS_C3CFG, 23, 16⟩
def SYS_C3CFG_GAPMAX : Field := ⟨Adr.SYS_C3CFG, 15, 8⟩
def SYS_C3CFG_GAPSEP : Field := ⟨Adr.SYS_C3CFG, 7, 0⟩
def SYS_CXCFG_ROLE : Field := ⟨Adr.SYS_CXCFG, 31, 30⟩
def SYS_CXCFG_UHF : Field := ⟨Adr.SYS_CXCFG, 29, 29⟩
def SYS_CXCFG_LNK : Field := ⟨Adr.SYS_CXCFG, 28, 28⟩
def SYS_CXCFG_HF : Field := ⟨Adr.SYS_CXCFG, 27, 27⟩
def SYS_CXCFG_XCLS : Field := ⟨Adr.SYS_CXCFG, 26, 26⟩
def SYS_CXCFG_LEAD : Field := ⟨Adr.SYS_CXCFG, 25, 16⟩
def SYS_CXCFG_CXWAIT : Field := ⟨Adr.SYS_CXCFG, 15, 8⟩
def SYS_CXCFG_XLEASE : Field := ⟨Adr.SYS_CXCFG, 7, 0⟩
def SYS_SCHW_LINK : Field := ⟨Adr.SYS_SCHW, 31, 24⟩
def SYS_SCHW_LOOSE : Field := ⟨Adr.SYS_SCHW, 23, 16⟩
def SYS_SCHW_XARB : Field := ⟨Adr.SYS_SCHW, 15, 8⟩
def SYS_ZW_W3 (n : Nat) : Field := ⟨Adr.SYS_ZW n, 31, 24⟩
def SYS_ZW_W2 (n : Nat) : Field := ⟨Adr.SYS_ZW n, 23, 16⟩
def SYS_ZW_W1 (n : Nat) : Field := ⟨Adr.SYS_ZW n, 15, 8⟩
def SYS_ZW_W0 (n : Nat) : Field := ⟨Adr.SYS_ZW n, 7, 0⟩
def SYS_SCHCNT0_OVERRUN : Field := ⟨Adr.SYS_SCHCNT0, 31, 16⟩
def SYS_SCHCNT0_EXTEND : Field := ⟨Adr.SYS_SCHCNT0, 15, 0⟩
def SYS_SCHCNT1_PROMOTE : Field := ⟨Adr.SYS_SCHCNT1, 31, 16⟩
def SYS_SCHCNT1_CXLOST : Field := ⟨Adr.SYS_SCHCNT1, 15, 0⟩
def SYS_SCHCNT2_CXTIMEOUT : Field := ⟨Adr.SYS_SCHCNT2, 31, 16⟩
def SYS_SCHCNT2_VIOL : Field := ⟨Adr.SYS_SCHCNT2, 15, 0⟩
def SYS_SCHCNT3_COLLIDE : Field := ⟨Adr.SYS_SCHCNT3, 31, 16⟩
def SYS_SCHCNT3_FORCEGAP : Field := ⟨Adr.SYS_SCHCNT3, 15, 0⟩
def SYS_RES_GRANT_GRANTS (n : Nat) : Field := ⟨Adr.SYS_RES_GRANT n, 31, 0⟩
def SYS_RES_WAIT_MAXWAIT (n : Nat) : Field := ⟨Adr.SYS_RES_WAIT n, 31, 20⟩
def SYS_RES_WAIT_WAITS (n : Nat) : Field := ⟨Adr.SYS_RES_WAIT n, 19, 0⟩
def SYS_COMMIT_PEND : Field := ⟨Adr.SYS_COMMIT, 31, 31⟩
def SYS_COMMIT_CFG_REJECT : Field := ⟨Adr.SYS_COMMIT, 30, 30⟩
def SYS_COMMIT_WRLOCK : Field := ⟨Adr.SYS_COMMIT, 29, 29⟩
def SYS_COMMIT_REASON : Field := ⟨Adr.SYS_COMMIT, 23, 16⟩
def SYS_COMMIT_SEQ : Field := ⟨Adr.SYS_COMMIT, 15, 8⟩
def SYS_COMMIT_DISCARD : Field := ⟨Adr.SYS_COMMIT, 1, 1⟩
def SYS_COMMIT_COMMIT : Field := ⟨Adr.SYS_COMMIT, 0, 0⟩
def PROT_DEF_PERM : Field := ⟨Adr.PROT_DEF, 7, 0⟩
def PROT_LEVEL_LEVEL : Field := ⟨Adr.PROT_LEVEL, 1, 0⟩
def PROT_DENY_ADDR : Field := ⟨Adr.PROT_DENY, 31, 16⟩
def PROT_DENY_LEVEL : Field := ⟨Adr.PROT_DENY, 15, 14⟩
def PROT_DENY_WR : Field := ⟨Adr.PROT_DENY, 13, 13⟩
def PROT_RANGE_LAST (n : Nat) : Field := ⟨Adr.PROT_RANGE n, 31, 16⟩
def PROT_RANGE_FIRST (n : Nat) : Field := ⟨Adr.PROT_RANGE n, 15, 0⟩
def PROT_PERM_PERM (n : Nat) : Field := ⟨Adr.PROT_PERM n, 7, 0⟩
def PROT_COMMIT_PEND : Field := ⟨Adr.PROT_COMMIT, 31, 31⟩
def PROT_COMMIT_CFG_REJECT : Field := ⟨Adr.PROT_COMMIT, 30, 30⟩
def PROT_COMMIT_WRLOCK : Field := ⟨Adr.PROT_COMMIT, 29, 29⟩
def PROT_COMMIT_REASON : Field := ⟨Adr.PROT_COMMIT, 23, 16⟩
def PROT_COMMIT_SEQ : Field := ⟨Adr.PROT_COMMIT, 15, 8⟩
def PROT_COMMIT_DISCARD : Field := ⟨Adr.PROT_COMMIT, 1, 1⟩
def PROT_COMMIT_COMMIT : Field := ⟨Adr.PROT_COMMIT, 0, 0⟩
def QTZ_TIME0_SUBSEC : Field := ⟨Adr.QTZ_TIME0, 31, 17⟩
def QTZ_TIME0_HOUR : Field := ⟨Adr.QTZ_TIME0, 16, 12⟩
def QTZ_TIME0_MIN : Field := ⟨Adr.QTZ_TIME0, 11, 6⟩
def QTZ_TIME0_SEC : Field := ⟨Adr.QTZ_TIME0, 5, 0⟩
def QTZ_TIME1_YEAR : Field := ⟨Adr.QTZ_TIME1, 31, 20⟩
def QTZ_TIME1_MONTH : Field := ⟨Adr.QTZ_TIME1, 19, 16⟩
def QTZ_TIME1_DAY : Field := ⟨Adr.QTZ_TIME1, 15, 11⟩
def QTZ_TIME1_WDAY : Field := ⟨Adr.QTZ_TIME1, 10, 8⟩
def QTZ_Q64H_Q64H : Field := ⟨Adr.QTZ_Q64H, 31, 0⟩
def QTZ_Q64L_Q64L : Field := ⟨Adr.QTZ_Q64L, 31, 0⟩
def QTZ_CMD_KEY : Field := ⟨Adr.QTZ_CMD, 31, 16⟩
def QTZ_CMD_CLROSF : Field := ⟨Adr.QTZ_CMD, 4, 4⟩
def QTZ_CMD_CMD : Field := ⟨Adr.QTZ_CMD, 3, 0⟩
def QTZ_SHIFT_ADD1S : Field := ⟨Adr.QTZ_SHIFT, 31, 31⟩
def QTZ_SHIFT_SUBFS : Field := ⟨Adr.QTZ_SHIFT, 14, 0⟩
def QTZ_CDN_RELOAD : Field := ⟨Adr.QTZ_CDN, 31, 31⟩
def QTZ_CDN_RUN : Field := ⟨Adr.QTZ_CDN, 30, 30⟩
def QTZ_CDN_COUNT : Field := ⟨Adr.QTZ_CDN, 23, 0⟩
def QTZ_STAT_SETPEND : Field := ⟨Adr.QTZ_STAT, 31, 31⟩
def QTZ_STAT_SHPEND : Field := ⟨Adr.QTZ_STAT, 30, 30⟩
def QTZ_STAT_CMDRES : Field := ⟨Adr.QTZ_STAT, 29, 27⟩
def QTZ_STAT_SUPPLY : Field := ⟨Adr.QTZ_STAT, 26, 26⟩
def QTZ_STAT_CLK32OK : Field := ⟨Adr.QTZ_STAT, 25, 25⟩
def QTZ_STAT_PWRON : Field := ⟨Adr.QTZ_STAT, 24, 24⟩
def QTZ_STAT_VBATLOW : Field := ⟨Adr.QTZ_STAT, 9, 9⟩
def QTZ_STAT_ATREJ : Field := ⟨Adr.QTZ_STAT, 8, 8⟩
def QTZ_STAT_TRIMUPD : Field := ⟨Adr.QTZ_STAT, 7, 7⟩
def QTZ_STAT_SHIFTCAN : Field := ⟨Adr.QTZ_STAT, 6, 6⟩
def QTZ_STAT_CDN : Field := ⟨Adr.QTZ_STAT, 5, 5⟩
def QTZ_STAT_ALARM : Field := ⟨Adr.QTZ_STAT, 4, 4⟩
def QTZ_STAT_BADDATE : Field := ⟨Adr.QTZ_STAT, 3, 3⟩
def QTZ_STAT_WRAP : Field := ⟨Adr.QTZ_STAT, 2, 2⟩
def QTZ_STAT_OSF : Field := ⟨Adr.QTZ_STAT, 1, 1⟩
def QTZ_TRIM_TRIM : Field := ⟨Adr.QTZ_TRIM, 12, 0⟩
def QTZ_ALARM_EN : Field := ⟨Adr.QTZ_ALARM, 31, 31⟩
def QTZ_ALARM_HOUR : Field := ⟨Adr.QTZ_ALARM, 16, 12⟩
def QTZ_ALARM_MIN : Field := ⟨Adr.QTZ_ALARM, 11, 6⟩
def QTZ_ALARM_SEC : Field := ⟨Adr.QTZ_ALARM, 5, 0⟩
def QTZ_ATRIM_SRC : Field := ⟨Adr.QTZ_ATRIM, 31, 30⟩
def QTZ_ATRIM_FREQ : Field := ⟨Adr.QTZ_ATRIM, 29, 29⟩
def QTZ_ATRIM_EDGES : Field := ⟨Adr.QTZ_ATRIM, 28, 28⟩
def QTZ_ATRIM_GAIN : Field := ⟨Adr.QTZ_ATRIM, 27, 26⟩
def QTZ_ATRIM_WIN : Field := ⟨Adr.QTZ_ATRIM, 25, 20⟩
def QTZ_ATRIM_LIMIT : Field := ⟨Adr.QTZ_ATRIM, 19, 10⟩
def QTZ_PWRON_POL : Field := ⟨Adr.QTZ_PWRON, 31, 31⟩
def QTZ_PWRON_PULSE : Field := ⟨Adr.QTZ_PWRON, 30, 30⟩
def QTZ_PWRON_WIDTH : Field := ⟨Adr.QTZ_PWRON, 29, 22⟩
def QTZ_PWRON_SRCEN : Field := ⟨Adr.QTZ_PWRON, 21, 16⟩
def QTZ_ATSTAT_MEAS : Field := ⟨Adr.QTZ_ATSTAT, 31, 16⟩
def QTZ_ATSTAT_UPDATES : Field := ⟨Adr.QTZ_ATSTAT, 15, 8⟩
def QTZ_ATSTAT_REJECTS : Field := ⟨Adr.QTZ_ATSTAT, 7, 0⟩
def QTZ_SET0_HOUR : Field := ⟨Adr.QTZ_SET0, 16, 12⟩
def QTZ_SET0_MIN : Field := ⟨Adr.QTZ_SET0, 11, 6⟩
def QTZ_SET0_SEC : Field := ⟨Adr.QTZ_SET0, 5, 0⟩
def QTZ_SET1_YEAR : Field := ⟨Adr.QTZ_SET1, 31, 20⟩
def QTZ_SET1_MONTH : Field := ⟨Adr.QTZ_SET1, 19, 16⟩
def QTZ_SET1_DAY : Field := ⟨Adr.QTZ_SET1, 15, 11⟩
def QTZ_COMMIT_PEND : Field := ⟨Adr.QTZ_COMMIT, 31, 31⟩
def QTZ_COMMIT_CFG_REJECT : Field := ⟨Adr.QTZ_COMMIT, 30, 30⟩
def QTZ_COMMIT_WRLOCK : Field := ⟨Adr.QTZ_COMMIT, 29, 29⟩
def QTZ_COMMIT_REASON : Field := ⟨Adr.QTZ_COMMIT, 23, 16⟩
def QTZ_COMMIT_SEQ : Field := ⟨Adr.QTZ_COMMIT, 15, 8⟩
def QTZ_COMMIT_DISCARD : Field := ⟨Adr.QTZ_COMMIT, 1, 1⟩
def QTZ_COMMIT_COMMIT : Field := ⟨Adr.QTZ_COMMIT, 0, 0⟩
def TMR_CFG_MODE (n : Nat) : Field := ⟨Adr.TMR_CFG n, 31, 30⟩
def TMR_CFG_CLKSEL (n : Nat) : Field := ⟨Adr.TMR_CFG n, 29, 26⟩
def TMR_CFG_EDGE (n : Nat) : Field := ⟨Adr.TMR_CFG n, 25, 24⟩
def TMR_CFG_PSC (n : Nat) : Field := ⟨Adr.TMR_CFG n, 15, 0⟩
def TMR_TRIG_ASRC (n : Nat) : Field := ⟨Adr.TMR_TRIG n, 31, 28⟩
def TMR_TRIG_AEVT (n : Nat) : Field := ⟨Adr.TMR_TRIG n, 27, 25⟩
def TMR_TRIG_AACT (n : Nat) : Field := ⟨Adr.TMR_TRIG n, 24, 22⟩
def TMR_TRIG_BSRC (n : Nat) : Field := ⟨Adr.TMR_TRIG n, 15, 12⟩
def TMR_TRIG_BEVT (n : Nat) : Field := ⟨Adr.TMR_TRIG n, 11, 9⟩
def TMR_TRIG_BACT (n : Nat) : Field := ⟨Adr.TMR_TRIG n, 8, 6⟩
def TMR_CCFG_CAPSRC (n : Nat) : Field := ⟨Adr.TMR_CCFG n, 31, 28⟩
def TMR_CCFG_CAPEDGE (n : Nat) : Field := ⟨Adr.TMR_CCFG n, 27, 26⟩
def TMR_CCFG_WRAPARM (n : Nat) : Field := ⟨Adr.TMR_CCFG n, 7, 4⟩
def TMR_CCFG_CMPEN (n : Nat) : Field := ⟨Adr.TMR_CCFG n, 3, 0⟩
def TMR_CTRL_CAPCLR (n : Nat) : Field := ⟨Adr.TMR_CTRL n, 3, 3⟩
def TMR_CTRL_START (n : Nat) : Field := ⟨Adr.TMR_CTRL n, 2, 2⟩
def TMR_CTRL_RESET (n : Nat) : Field := ⟨Adr.TMR_CTRL n, 1, 1⟩
def TMR_CTRL_STOP (n : Nat) : Field := ⟨Adr.TMR_CTRL n, 0, 0⟩
def TMR_CNT_CNT (n : Nat) : Field := ⟨Adr.TMR_CNT n, 31, 0⟩
def TMR_BUF_BUF (n : Nat) : Field := ⟨Adr.TMR_BUF n, 31, 0⟩
def TMR_CAP_CAP (n : Nat) : Field := ⟨Adr.TMR_CAP n, 31, 0⟩
def TMR_STAT_RUN (n : Nat) : Field := ⟨Adr.TMR_STAT n, 31, 31⟩
def TMR_STAT_GATE (n : Nat) : Field := ⟨Adr.TMR_STAT n, 30, 30⟩
def TMR_STAT_CAPN (n : Nat) : Field := ⟨Adr.TMR_STAT n, 29, 27⟩
def TMR_STAT_ARMED (n : Nat) : Field := ⟨Adr.TMR_STAT n, 15, 12⟩
def TMR_STAT_LATE (n : Nat) : Field := ⟨Adr.TMR_STAT n, 11, 8⟩
def TMR_STAT_CLOST (n : Nat) : Field := ⟨Adr.TMR_STAT n, 7, 7⟩
def TMR_STAT_OVR (n : Nat) : Field := ⟨Adr.TMR_STAT n, 6, 6⟩
def TMR_STAT_CAP (n : Nat) : Field := ⟨Adr.TMR_STAT n, 5, 5⟩
def TMR_STAT_ZERO (n : Nat) : Field := ⟨Adr.TMR_STAT n, 4, 4⟩
def TMR_STAT_CMP (n : Nat) : Field := ⟨Adr.TMR_STAT n, 3, 0⟩
def TMR_IEN_OVR (n : Nat) : Field := ⟨Adr.TMR_IEN n, 6, 6⟩
def TMR_IEN_CAP (n : Nat) : Field := ⟨Adr.TMR_IEN n, 5, 5⟩
def TMR_IEN_ZERO (n : Nat) : Field := ⟨Adr.TMR_IEN n, 4, 4⟩
def TMR_IEN_CMP (n : Nat) : Field := ⟨Adr.TMR_IEN n, 3, 0⟩
def TMR_SNAPV_SNAP (n : Nat) : Field := ⟨Adr.TMR_SNAPV n, 31, 0⟩
def TMR_CMP_CMP (n : Nat) (k : Nat) : Field := ⟨Adr.TMR_CMP n k, 31, 0⟩
def TMR_COMMIT_PEND (n : Nat) : Field := ⟨Adr.TMR_COMMIT n, 31, 31⟩
def TMR_COMMIT_CFG_REJECT (n : Nat) : Field := ⟨Adr.TMR_COMMIT n, 30, 30⟩
def TMR_COMMIT_WRLOCK (n : Nat) : Field := ⟨Adr.TMR_COMMIT n, 29, 29⟩
def TMR_COMMIT_REASON (n : Nat) : Field := ⟨Adr.TMR_COMMIT n, 23, 16⟩
def TMR_COMMIT_SEQ (n : Nat) : Field := ⟨Adr.TMR_COMMIT n, 15, 8⟩
def TMR_COMMIT_DISCARD (n : Nat) : Field := ⟨Adr.TMR_COMMIT n, 1, 1⟩
def TMR_COMMIT_COMMIT (n : Nat) : Field := ⟨Adr.TMR_COMMIT n, 0, 0⟩
def TMR_SNAP_MASK : Field := ⟨Adr.TMR_SNAP, 15, 0⟩
def TMR_GCMD_CMD : Field := ⟨Adr.TMR_GCMD, 17, 16⟩
def TMR_GCMD_MASK : Field := ⟨Adr.TMR_GCMD, 15, 0⟩
def TMR_IRQ_PEND : Field := ⟨Adr.TMR_IRQ, 15, 0⟩
def TMR_TOUT_EN (n : Nat) : Field := ⟨Adr.TMR_TOUT n, 31, 31⟩
def TMR_TOUT_POL (n : Nat) : Field := ⟨Adr.TMR_TOUT n, 30, 30⟩
def TMR_TOUT_INIT (n : Nat) : Field := ⟨Adr.TMR_TOUT n, 29, 29⟩
def TMR_TOUT_LEVEL (n : Nat) : Field := ⟨Adr.TMR_TOUT n, 28, 28⟩
def TMR_TOUT_SRC (n : Nat) : Field := ⟨Adr.TMR_TOUT n, 27, 24⟩
def TMR_TOUT_SETEVT (n : Nat) : Field := ⟨Adr.TMR_TOUT n, 23, 21⟩
def TMR_TOUT_CLREVT (n : Nat) : Field := ⟨Adr.TMR_TOUT n, 20, 18⟩
def FIFO_CH_CFG_BLOCK (n : Nat) : Field := ⟨Adr.FIFO_CH_CFG n, 31, 31⟩
def FIFO_CH_CFG_STALE (n : Nat) : Field := ⟨Adr.FIFO_CH_CFG n, 29, 16⟩
def FIFO_CH_CFG_HWM (n : Nat) : Field := ⟨Adr.FIFO_CH_CFG n, 8, 0⟩
def FIFO_CH_STAT_FULL (n : Nat) : Field := ⟨Adr.FIFO_CH_STAT n, 31, 31⟩
def FIFO_CH_STAT_EMPTY (n : Nat) : Field := ⟨Adr.FIFO_CH_STAT n, 30, 30⟩
def FIFO_CH_STAT_STALE (n : Nat) : Field := ⟨Adr.FIFO_CH_STAT n, 29, 29⟩
def FIFO_CH_STAT_SKIP (n : Nat) : Field := ⟨Adr.FIFO_CH_STAT n, 28, 28⟩
def FIFO_CH_STAT_INPKT (n : Nat) : Field := ⟨Adr.FIFO_CH_STAT n, 27, 27⟩
def FIFO_CH_STAT_RDBANK (n : Nat) : Field := ⟨Adr.FIFO_CH_STAT n, 26, 26⟩
def FIFO_CH_STAT_RDLEFT (n : Nat) : Field := ⟨Adr.FIFO_CH_STAT n, 17, 9⟩
def FIFO_CH_STAT_WRFILL (n : Nat) : Field := ⟨Adr.FIFO_CH_STAT n, 8, 0⟩
def FIFO_CH_CNT_DROP (n : Nat) : Field := ⟨Adr.FIFO_CH_CNT n, 31, 16⟩
def FIFO_CH_CNT_CORR (n : Nat) : Field := ⟨Adr.FIFO_CH_CNT n, 15, 0⟩
def FIFO_CH_ERR_UCE (n : Nat) : Field := ⟨Adr.FIFO_CH_ERR n, 31, 16⟩
def FIFO_CH_ERR_TRUNC (n : Nat) : Field := ⟨Adr.FIFO_CH_ERR n, 15, 0⟩
def FIFO_CMD_DROP_PKT : Field := ⟨Adr.FIFO_CMD, 31, 31⟩
def FIFO_CMD_FLUSH : Field := ⟨Adr.FIFO_CMD, 30, 30⟩
def FIFO_CMD_CHAN : Field := ⟨Adr.FIFO_CMD, 2, 0⟩
def FIFO_PORT_DATA (n : Nat) : Field := ⟨Adr.FIFO_PORT n, 31, 0⟩
def FIFO_TAG_KIND (n : Nat) : Field := ⟨Adr.FIFO_TAG n, 7, 4⟩
def FIFO_TAG_ECC (n : Nat) : Field := ⟨Adr.FIFO_TAG n, 3, 2⟩
def FIFO_TAG_BANK (n : Nat) : Field := ⟨Adr.FIFO_TAG n, 1, 0⟩
def FIFO_COMMIT_PEND : Field := ⟨Adr.FIFO_COMMIT, 31, 31⟩
def FIFO_COMMIT_CFG_REJECT : Field := ⟨Adr.FIFO_COMMIT, 30, 30⟩
def FIFO_COMMIT_WRLOCK : Field := ⟨Adr.FIFO_COMMIT, 29, 29⟩
def FIFO_COMMIT_REASON : Field := ⟨Adr.FIFO_COMMIT, 23, 16⟩
def FIFO_COMMIT_SEQ : Field := ⟨Adr.FIFO_COMMIT, 15, 8⟩
def FIFO_COMMIT_DISCARD : Field := ⟨Adr.FIFO_COMMIT, 1, 1⟩
def FIFO_COMMIT_COMMIT : Field := ⟨Adr.FIFO_COMMIT, 0, 0⟩
def RAD_PWR_VALID (n : Nat) : Field := ⟨Adr.RAD_PWR n, 31, 31⟩
def RAD_PWR_DET (n : Nat) : Field := ⟨Adr.RAD_PWR n, 30, 21⟩
def RAD_PWR_DAC (n : Nat) : Field := ⟨Adr.RAD_PWR n, 20, 11⟩
def RAD_PWR_BIAS (n : Nat) : Field := ⟨Adr.RAD_PWR n, 10, 7⟩
def RAD_PWR_PD (n : Nat) : Field := ⟨Adr.RAD_PWR n, 6, 4⟩
def RAD_CXV_VALID (n : Nat) : Field := ⟨Adr.RAD_CXV n, 31, 31⟩
def RAD_CXV_ARES (n : Nat) : Field := ⟨Adr.RAD_CXV n, 23, 16⟩
def RAD_CXV_I (n : Nat) : Field := ⟨Adr.RAD_CXV n, 15, 8⟩
def RAD_CXV_Q (n : Nat) : Field := ⟨Adr.RAD_CXV n, 7, 0⟩
def RAD_CXANCH_ENH (n : Nat) : Field := ⟨Adr.RAD_CXANCH n, 31, 31⟩
def RAD_CXANCH_CODEH (n : Nat) : Field := ⟨Adr.RAD_CXANCH n, 29, 16⟩
def RAD_CXANCH_ENL (n : Nat) : Field := ⟨Adr.RAD_CXANCH n, 15, 15⟩
def RAD_CXANCH_CODEL (n : Nat) : Field := ⟨Adr.RAD_CXANCH n, 13, 0⟩
def RAD_PORT_CFG_PRESENT (n : Nat) : Field := ⟨Adr.RAD_PORT_CFG n, 31, 31⟩
def RAD_PORT_CFG_MAXIDX (n : Nat) : Field := ⟨Adr.RAD_PORT_CFG n, 30, 24⟩
def RAD_PORT_CFG_SWIDLE (n : Nat) : Field := ⟨Adr.RAD_PORT_CFG n, 23, 20⟩
def RAD_PORT_CFG_SWSETTLE (n : Nat) : Field := ⟨Adr.RAD_PORT_CFG n, 19, 16⟩
def RAD_PA_PA1EN : Field := ⟨Adr.RAD_PA, 31, 31⟩
def RAD_PA_PA1PORT : Field := ⟨Adr.RAD_PA, 30, 29⟩
def RAD_PA_PA1GAIN : Field := ⟨Adr.RAD_PA, 28, 22⟩
def RAD_PA_PA0EN : Field := ⟨Adr.RAD_PA, 15, 15⟩
def RAD_PA_PA0PORT : Field := ⟨Adr.RAD_PA, 14, 13⟩
def RAD_PA_PA0GAIN : Field := ⟨Adr.RAD_PA, 12, 6⟩
def RAD_PA_PALEAD : Field := ⟨Adr.RAD_PA, 5, 3⟩
def RAD_PA_PALAG : Field := ⟨Adr.RAD_PA, 2, 0⟩
def RAD_AGC_THI : Field := ⟨Adr.RAD_AGC, 31, 24⟩
def RAD_AGC_DWELL : Field := ⟨Adr.RAD_AGC, 23, 16⟩
def RAD_AGC_LNAMAX : Field := ⟨Adr.RAD_AGC, 10, 8⟩
def RAD_CANC_REFINE : Field := ⟨Adr.RAD_CANC, 31, 24⟩
def RAD_CANC_FAIL : Field := ⟨Adr.RAD_CANC, 23, 16⟩
def RAD_CANC_TAPS : Field := ⟨Adr.RAD_CANC, 11, 8⟩
def RAD_CANC_MU : Field := ⟨Adr.RAD_CANC, 7, 4⟩
def RAD_CFG_LOWRATE : Field := ⟨Adr.RAD_CFG, 8, 8⟩
def RAD_TXHOLD_MAX_US : Field := ⟨Adr.RAD_TXHOLD_MAX, 7, 0⟩
def RAD_RXC_STAT_SUPPA (n : Nat) : Field := ⟨Adr.RAD_RXC_STAT n, 31, 24⟩
def RAD_RXC_STAT_SUPPB (n : Nat) : Field := ⟨Adr.RAD_RXC_STAT n, 23, 16⟩
def RAD_RXC_STAT_RSSI (n : Nat) : Field := ⟨Adr.RAD_RXC_STAT n, 15, 8⟩
def RAD_RXC_STAT_FROZEN (n : Nat) : Field := ⟨Adr.RAD_RXC_STAT n, 6, 6⟩
def RAD_RXC_STAT_RATE (n : Nat) : Field := ⟨Adr.RAD_RXC_STAT n, 5, 5⟩
def RAD_RXC_STAT_ON (n : Nat) : Field := ⟨Adr.RAD_RXC_STAT n, 3, 3⟩
def RAD_RXC_STAT_LNA (n : Nat) : Field := ⟨Adr.RAD_RXC_STAT n, 2, 0⟩
def RAD_TXA_STAT_PORT : Field := ⟨Adr.RAD_TXA_STAT, 17, 16⟩
def RAD_TXA_STAT_TRIM : Field := ⟨Adr.RAD_TXA_STAT, 15, 8⟩
def RAD_TXA_STAT_IDX : Field := ⟨Adr.RAD_TXA_STAT, 6, 0⟩
def RAD_TXB_STAT_PORT : Field := ⟨Adr.RAD_TXB_STAT, 17, 16⟩
def RAD_TXB_STAT_TRIM : Field := ⟨Adr.RAD_TXB_STAT, 15, 8⟩
def RAD_TXB_STAT_IDX : Field := ⟨Adr.RAD_TXB_STAT, 6, 0⟩
def RAD_STATE_CHRATE : Field := ⟨Adr.RAD_STATE, 31, 28⟩
def RAD_STATE_CHON : Field := ⟨Adr.RAD_STATE, 27, 24⟩
def RAD_STATE_BPORT : Field := ⟨Adr.RAD_STATE, 21, 20⟩
def RAD_STATE_BCARR : Field := ⟨Adr.RAD_STATE, 19, 19⟩
def RAD_STATE_BSTATE : Field := ⟨Adr.RAD_STATE, 18, 16⟩
def RAD_STATE_APORT : Field := ⟨Adr.RAD_STATE, 5, 4⟩
def RAD_STATE_ACARR : Field := ⟨Adr.RAD_STATE, 3, 3⟩
def RAD_STATE_ASTATE : Field := ⟨Adr.RAD_STATE, 2, 0⟩
def RAD_STAT_SPACING : Field := ⟨Adr.RAD_STAT, 7, 7⟩
def RAD_STAT_OVERPWR : Field := ⟨Adr.RAD_STAT, 6, 6⟩
def RAD_STAT_PWRERR : Field := ⟨Adr.RAD_STAT, 5, 5⟩
def RAD_STAT_CANCFAIL : Field := ⟨Adr.RAD_STAT, 4, 4⟩
def RAD_STAT_LOCKFAIL : Field := ⟨Adr.RAD_STAT, 3, 3⟩
def RAD_STAT_LOCKTIMEOUT : Field := ⟨Adr.RAD_STAT, 2, 2⟩
def RAD_STAT_CALABORT : Field := ⟨Adr.RAD_STAT, 1, 1⟩
def RAD_CNT0_LOCKTIMEOUT : Field := ⟨Adr.RAD_CNT0, 31, 16⟩
def RAD_CNT0_LOCKFAIL : Field := ⟨Adr.RAD_CNT0, 15, 0⟩
def RAD_CNT1_CALABORT : Field := ⟨Adr.RAD_CNT1, 31, 16⟩
def RAD_CNT1_OVERPWR : Field := ⟨Adr.RAD_CNT1, 15, 0⟩
def RAD_SWSTAT_USW : Field := ⟨Adr.RAD_SWSTAT, 15, 0⟩
def RAD_COMMIT_PEND : Field := ⟨Adr.RAD_COMMIT, 31, 31⟩
def RAD_COMMIT_CFG_REJECT : Field := ⟨Adr.RAD_COMMIT, 30, 30⟩
def RAD_COMMIT_WRLOCK : Field := ⟨Adr.RAD_COMMIT, 29, 29⟩
def RAD_COMMIT_REASON : Field := ⟨Adr.RAD_COMMIT, 23, 16⟩
def RAD_COMMIT_SEQ : Field := ⟨Adr.RAD_COMMIT, 15, 8⟩
def RAD_COMMIT_DISCARD : Field := ⟨Adr.RAD_COMMIT, 1, 1⟩
def RAD_COMMIT_COMMIT : Field := ⟨Adr.RAD_COMMIT, 0, 0⟩
def SYNCAL_A_VALID (n : Nat) : Field := ⟨Adr.SYNCAL_A n, 31, 31⟩
def SYNCAL_A_PIN (n : Nat) : Field := ⟨Adr.SYNCAL_A n, 30, 30⟩
def SYNCAL_A_CHAN (n : Nat) : Field := ⟨Adr.SYNCAL_A n, 29, 16⟩
def SYNCAL_A_BAND (n : Nat) : Field := ⟨Adr.SYNCAL_A n, 15, 12⟩
def SYNCAL_A_CAP (n : Nat) : Field := ⟨Adr.SYNCAL_A n, 11, 5⟩
def SYNCAL_A_MARGIN (n : Nat) : Field := ⟨Adr.SYNCAL_A n, 4, 0⟩
def SYNCAL_B_VALID (n : Nat) : Field := ⟨Adr.SYNCAL_B n, 31, 31⟩
def SYNCAL_B_PIN (n : Nat) : Field := ⟨Adr.SYNCAL_B n, 30, 30⟩
def SYNCAL_B_CHAN (n : Nat) : Field := ⟨Adr.SYNCAL_B n, 29, 16⟩
def SYNCAL_B_BAND (n : Nat) : Field := ⟨Adr.SYNCAL_B n, 15, 12⟩
def SYNCAL_B_CAP (n : Nat) : Field := ⟨Adr.SYNCAL_B n, 11, 5⟩
def SYNCAL_B_MARGIN (n : Nat) : Field := ⟨Adr.SYNCAL_B n, 4, 0⟩
def SYNCAL_CFG_MARGINMIN : Field := ⟨Adr.SYNCAL_CFG, 12, 8⟩
def SYNCAL_CFG_AUTOSTORE : Field := ⟨Adr.SYNCAL_CFG, 0, 0⟩
def SYNCAL_STAT_AVICTIM : Field := ⟨Adr.SYNCAL_STAT, 31, 24⟩
def SYNCAL_STAT_BVICTIM : Field := ⟨Adr.SYNCAL_STAT, 23, 16⟩
def SYNCAL_CNT_FULLCAL : Field := ⟨Adr.SYNCAL_CNT, 31, 16⟩
def SYNCAL_CNT_NOSTORE : Field := ⟨Adr.SYNCAL_CNT, 15, 0⟩
def SYNCAL_COMMIT_PEND : Field := ⟨Adr.SYNCAL_COMMIT, 31, 31⟩
def SYNCAL_COMMIT_CFG_REJECT : Field := ⟨Adr.SYNCAL_COMMIT, 30, 30⟩
def SYNCAL_COMMIT_WRLOCK : Field := ⟨Adr.SYNCAL_COMMIT, 29, 29⟩
def SYNCAL_COMMIT_REASON : Field := ⟨Adr.SYNCAL_COMMIT, 23, 16⟩
def SYNCAL_COMMIT_SEQ : Field := ⟨Adr.SYNCAL_COMMIT, 15, 8⟩
def SYNCAL_COMMIT_DISCARD : Field := ⟨Adr.SYNCAL_COMMIT, 1, 1⟩
def SYNCAL_COMMIT_COMMIT : Field := ⟨Adr.SYNCAL_COMMIT, 0, 0⟩
def RP_CFG_KIND (n : Nat) : Field := ⟨Adr.RP_CFG n, 31, 30⟩
def RP_CFG_PORT (n : Nat) : Field := ⟨Adr.RP_CFG n, 29, 28⟩
def RP_CFG_PATH (n : Nat) : Field := ⟨Adr.RP_CFG n, 27, 24⟩
def RP_CFG_RXMASK (n : Nat) : Field := ⟨Adr.RP_CFG n, 23, 20⟩
def RP_FILT_RSSIMIN (n : Nat) : Field := ⟨Adr.RP_FILT n, 31, 24⟩
def RP_NOTE_NOTE (n : Nat) (k : Nat) : Field := ⟨Adr.RP_NOTE n k, 31, 0⟩
def RP_COMMIT_PEND (n : Nat) : Field := ⟨Adr.RP_COMMIT n, 31, 31⟩
def RP_COMMIT_CFG_REJECT (n : Nat) : Field := ⟨Adr.RP_COMMIT n, 30, 30⟩
def RP_COMMIT_WRLOCK (n : Nat) : Field := ⟨Adr.RP_COMMIT n, 29, 29⟩
def RP_COMMIT_REASON (n : Nat) : Field := ⟨Adr.RP_COMMIT n, 23, 16⟩
def RP_COMMIT_SEQ (n : Nat) : Field := ⟨Adr.RP_COMMIT n, 15, 8⟩
def RP_COMMIT_DISCARD (n : Nat) : Field := ⟨Adr.RP_COMMIT n, 1, 1⟩
def RP_COMMIT_COMMIT (n : Nat) : Field := ⟨Adr.RP_COMMIT n, 0, 0⟩
def HDG_CFG_NCHILD (n : Nat) : Field := ⟨Adr.HDG_CFG n, 19, 16⟩
def HDG_CFG_ROLES (n : Nat) : Field := ⟨Adr.HDG_CFG n, 15, 0⟩
def HDG_CHILD0_C3 (n : Nat) : Field := ⟨Adr.HDG_CHILD0 n, 30, 24⟩
def HDG_CHILD0_C2 (n : Nat) : Field := ⟨Adr.HDG_CHILD0 n, 22, 16⟩
def HDG_CHILD0_C1 (n : Nat) : Field := ⟨Adr.HDG_CHILD0 n, 14, 8⟩
def HDG_CHILD0_C0 (n : Nat) : Field := ⟨Adr.HDG_CHILD0 n, 6, 0⟩
def HDG_CHILD1_C3 (n : Nat) : Field := ⟨Adr.HDG_CHILD1 n, 30, 24⟩
def HDG_CHILD1_C2 (n : Nat) : Field := ⟨Adr.HDG_CHILD1 n, 22, 16⟩
def HDG_CHILD1_C1 (n : Nat) : Field := ⟨Adr.HDG_CHILD1 n, 14, 8⟩
def HDG_CHILD1_C0 (n : Nat) : Field := ⟨Adr.HDG_CHILD1 n, 6, 0⟩
def HDG_WEIGHT0_W3 (n : Nat) : Field := ⟨Adr.HDG_WEIGHT0 n, 31, 24⟩
def HDG_WEIGHT0_W2 (n : Nat) : Field := ⟨Adr.HDG_WEIGHT0 n, 23, 16⟩
def HDG_WEIGHT0_W1 (n : Nat) : Field := ⟨Adr.HDG_WEIGHT0 n, 15, 8⟩
def HDG_WEIGHT0_W0 (n : Nat) : Field := ⟨Adr.HDG_WEIGHT0 n, 7, 0⟩
def HDG_WEIGHT1_W3 (n : Nat) : Field := ⟨Adr.HDG_WEIGHT1 n, 31, 24⟩
def HDG_WEIGHT1_W2 (n : Nat) : Field := ⟨Adr.HDG_WEIGHT1 n, 23, 16⟩
def HDG_WEIGHT1_W1 (n : Nat) : Field := ⟨Adr.HDG_WEIGHT1 n, 15, 8⟩
def HDG_WEIGHT1_W0 (n : Nat) : Field := ⟨Adr.HDG_WEIGHT1 n, 7, 0⟩
def HDG_STAT_LEAVES (n : Nat) : Field := ⟨Adr.HDG_STAT n, 31, 24⟩
def HDG_STAT_DEPTH (n : Nat) : Field := ⟨Adr.HDG_STAT n, 19, 16⟩
def HDG_STAT_PARENT (n : Nat) : Field := ⟨Adr.HDG_STAT n, 15, 8⟩
def HDG_STAT_ZONE (n : Nat) : Field := ⟨Adr.HDG_STAT n, 7, 0⟩
def HDG_COMMIT_PEND (n : Nat) : Field := ⟨Adr.HDG_COMMIT n, 31, 31⟩
def HDG_COMMIT_CFG_REJECT (n : Nat) : Field := ⟨Adr.HDG_COMMIT n, 30, 30⟩
def HDG_COMMIT_WRLOCK (n : Nat) : Field := ⟨Adr.HDG_COMMIT n, 29, 29⟩
def HDG_COMMIT_REASON (n : Nat) : Field := ⟨Adr.HDG_COMMIT n, 23, 16⟩
def HDG_COMMIT_SEQ (n : Nat) : Field := ⟨Adr.HDG_COMMIT n, 15, 8⟩
def HDG_COMMIT_DISCARD (n : Nat) : Field := ⟨Adr.HDG_COMMIT n, 1, 1⟩
def HDG_COMMIT_COMMIT (n : Nat) : Field := ⟨Adr.HDG_COMMIT n, 0, 0⟩
def BRM_CFG_DUAL : Field := ⟨Adr.BRM_CFG, 31, 31⟩
def BRM_CFG_HOPIVL : Field := ⟨Adr.BRM_CFG, 23, 16⟩
def BRM_Q_ENDEMPTY : Field := ⟨Adr.BRM_Q, 15, 12⟩
def BRM_Q_CC : Field := ⟨Adr.BRM_Q, 7, 4⟩
def BRM_Q_CE : Field := ⟨Adr.BRM_Q, 3, 0⟩
def BRM_CAPTURE_EN : Field := ⟨Adr.BRM_CAPTURE, 8, 8⟩
def BRM_CAPTURE_DB : Field := ⟨Adr.BRM_CAPTURE, 7, 0⟩
def BRM_ACC_DLYTO : Field := ⟨Adr.BRM_ACC, 15, 8⟩
def BRM_ACC_ACKRETRY : Field := ⟨Adr.BRM_ACC, 3, 2⟩
def BRM_ACC_STEPRETRY : Field := ⟨Adr.BRM_ACC, 1, 0⟩
def BRM_PROF_SEQSTART : Field := ⟨Adr.BRM_PROF, 21, 16⟩
def BRM_PROF_SEL : Field := ⟨Adr.BRM_PROF, 1, 0⟩
def BRM_CUST0_MAXON : Field := ⟨Adr.BRM_CUST0, 31, 20⟩
def BRM_CUST0_OFF : Field := ⟨Adr.BRM_CUST0, 19, 10⟩
def BRM_CUST1_WINDOW : Field := ⟨Adr.BRM_CUST1, 31, 24⟩
def BRM_CUST1_OCCMAX : Field := ⟨Adr.BRM_CUST1, 23, 8⟩
def BRM_CUST1_NCH : Field := ⟨Adr.BRM_CUST1, 4, 0⟩
def BRM_CUSTCH_CODEH (n : Nat) : Field := ⟨Adr.BRM_CUSTCH n, 29, 16⟩
def BRM_CUSTCH_CODEL (n : Nat) : Field := ⟨Adr.BRM_CUSTCH n, 13, 0⟩
def BRM_IMM_GO : Field := ⟨Adr.BRM_IMM, 31, 31⟩
def BRM_IMM_ENTRY : Field := ⟨Adr.BRM_IMM, 30, 21⟩
def BRM_IMM_TARGET : Field := ⟨Adr.BRM_IMM, 20, 14⟩
def BRM_IMM_PROG : Field := ⟨Adr.BRM_IMM, 13, 10⟩
def BRM_IMM_RXMASK : Field := ⟨Adr.BRM_IMM, 9, 6⟩
def BRM_IMM_MAXTAGS : Field := ⟨Adr.BRM_IMM, 5, 2⟩
def BRM_IMMSTAT_BUSY : Field := ⟨Adr.BRM_IMMSTAT, 31, 31⟩
def BRM_IMMSTAT_RESULT : Field := ⟨Adr.BRM_IMMSTAT, 30, 28⟩
def BRM_IMMSTAT_TAGS : Field := ⟨Adr.BRM_IMMSTAT, 27, 24⟩
def BRM_IMMSTAT_REASON : Field := ⟨Adr.BRM_IMMSTAT, 23, 16⟩
def BRM_STAT_LASTENTRY : Field := ⟨Adr.BRM_STAT, 31, 22⟩
def BRM_STAT_LASTEND : Field := ⟨Adr.BRM_STAT, 21, 18⟩
def BRM_STAT_ARUN : Field := ⟨Adr.BRM_STAT, 17, 17⟩
def BRM_STAT_BRUN : Field := ⟨Adr.BRM_STAT, 16, 16⟩
def BRM_STAT_SEQPOS : Field := ⟨Adr.BRM_STAT, 5, 0⟩
def BRM_CNT0_READS : Field := ⟨Adr.BRM_CNT0, 31, 0⟩
def BRM_CNT1_COLLIDE : Field := ⟨Adr.BRM_CNT1, 31, 16⟩
def BRM_CNT1_CAPTURE : Field := ⟨Adr.BRM_CNT1, 15, 0⟩
def BRM_CNT2_EPCFAIL : Field := ⟨Adr.BRM_CNT2, 31, 16⟩
def BRM_CNT2_DWELLHOLD : Field := ⟨Adr.BRM_CNT2, 15, 0⟩
def BRM_CNT3_ROUNDS : Field := ⟨Adr.BRM_CNT3, 31, 16⟩
def BRM_CNT3_CHSKIP : Field := ⟨Adr.BRM_CNT3, 15, 0⟩
def BRM_OCCSEL_INDEX : Field := ⟨Adr.BRM_OCCSEL, 5, 0⟩
def BRM_OCC_OCC : Field := ⟨Adr.BRM_OCC, 31, 16⟩
def BRM_OCC_BARRED : Field := ⟨Adr.BRM_OCC, 15, 15⟩
def BRM_OCC_RUN : Field := ⟨Adr.BRM_OCC, 14, 3⟩
def BRM_POOL_WORDH (n : Nat) : Field := ⟨Adr.BRM_POOL n, 31, 16⟩
def BRM_POOL_WORDL (n : Nat) : Field := ⟨Adr.BRM_POOL n, 15, 0⟩
def BRM_PG_OP_OP (n : Nat) : Field := ⟨Adr.BRM_PG_OP n, 31, 28⟩
def BRM_PG_OP_BANK (n : Nat) : Field := ⟨Adr.BRM_PG_OP n, 27, 26⟩
def BRM_PG_OP_COUNT (n : Nat) : Field := ⟨Adr.BRM_PG_OP n, 23, 16⟩
def BRM_PG_OP_PTR (n : Nat) : Field := ⟨Adr.BRM_PG_OP n, 15, 0⟩
def BRM_PG_ARG_ARG (n : Nat) : Field := ⟨Adr.BRM_PG_ARG n, 20, 0⟩
def BRM_SEL_CTRL_EN (n : Nat) : Field := ⟨Adr.BRM_SEL_CTRL n, 31, 31⟩
def BRM_SEL_CTRL_TGT (n : Nat) : Field := ⟨Adr.BRM_SEL_CTRL n, 30, 28⟩
def BRM_SEL_CTRL_ACTION (n : Nat) : Field := ⟨Adr.BRM_SEL_CTRL n, 27, 25⟩
def BRM_SEL_CTRL_BANK (n : Nat) : Field := ⟨Adr.BRM_SEL_CTRL n, 24, 23⟩
def BRM_SEL_CTRL_LENGTH (n : Nat) : Field := ⟨Adr.BRM_SEL_CTRL n, 15, 8⟩
def BRM_SEL_PTR_POINTER (n : Nat) : Field := ⟨Adr.BRM_SEL_PTR n, 15, 0⟩
def BRM_SEL_MASK_MASK (n : Nat) (k : Nat) : Field := ⟨Adr.BRM_SEL_MASK n k, 31, 0⟩
def BRM_COMMIT_PEND : Field := ⟨Adr.BRM_COMMIT, 31, 31⟩
def BRM_COMMIT_CFG_REJECT : Field := ⟨Adr.BRM_COMMIT, 30, 30⟩
def BRM_COMMIT_WRLOCK : Field := ⟨Adr.BRM_COMMIT, 29, 29⟩
def BRM_COMMIT_REASON : Field := ⟨Adr.BRM_COMMIT, 23, 16⟩
def BRM_COMMIT_SEQ : Field := ⟨Adr.BRM_COMMIT, 15, 8⟩
def BRM_COMMIT_DISCARD : Field := ⟨Adr.BRM_COMMIT, 1, 1⟩
def BRM_COMMIT_COMMIT : Field := ⟨Adr.BRM_COMMIT, 0, 0⟩
def HF_CFG_GUARD : Field := ⟨Adr.HF_CFG, 31, 24⟩
def HF_CFG_FOFF : Field := ⟨Adr.HF_CFG, 23, 16⟩
def HF_CFG_RGUARD : Field := ⟨Adr.HF_CFG, 15, 8⟩
def HF_CFG_WUP : Field := ⟨Adr.HF_CFG, 7, 7⟩
def HF_CFG_PRES1 : Field := ⟨Adr.HF_CFG, 6, 6⟩
def HF_CFG_PRES0 : Field := ⟨Adr.HF_CFG, 5, 5⟩
def HF_DRV_MAXSTEP1 : Field := ⟨Adr.HF_DRV, 31, 25⟩
def HF_DRV_MAXSTEP0 : Field := ⟨Adr.HF_DRV, 24, 18⟩
def HF_DRV_FMOD : Field := ⟨Adr.HF_DRV, 17, 13⟩
def HF_DRV_VMOD : Field := ⟨Adr.HF_DRV, 12, 8⟩
def HF_DRV_V100 : Field := ⟨Adr.HF_DRV, 7, 7⟩
def HF_DRV_BMOD : Field := ⟨Adr.HF_DRV, 6, 3⟩
def HF_ISO4_RETRY : Field := ⟨Adr.HF_ISO4, 31, 30⟩
def HF_ISO4_SPAR : Field := ⟨Adr.HF_ISO4, 29, 29⟩
def HF_ISO4_IMMIDLE : Field := ⟨Adr.HF_ISO4, 23, 16⟩
def HF_WTX_MAX_MS : Field := ⟨Adr.HF_WTX_MAX, 13, 0⟩
def HF_ACOL_FIRST : Field := ⟨Adr.HF_ACOL, 8, 8⟩
def HF_ACOL_BROUNDS : Field := ⟨Adr.HF_ACOL, 7, 6⟩
def HF_ACOL_MAXV : Field := ⟨Adr.HF_ACOL, 5, 0⟩
def HF_IMM_GO : Field := ⟨Adr.HF_IMM, 31, 31⟩
def HF_IMM_OP : Field := ⟨Adr.HF_IMM, 30, 28⟩
def HF_IMM_ENTRY : Field := ⟨Adr.HF_IMM, 27, 18⟩
def HF_IMM_TARGET : Field := ⟨Adr.HF_IMM, 17, 11⟩
def HF_IMMSTAT_BUSY : Field := ⟨Adr.HF_IMMSTAT, 31, 31⟩
def HF_IMMSTAT_OPEN : Field := ⟨Adr.HF_IMMSTAT, 30, 30⟩
def HF_IMMSTAT_ACT : Field := ⟨Adr.HF_IMMSTAT, 29, 29⟩
def HF_IMMSTAT_RESULT : Field := ⟨Adr.HF_IMMSTAT, 28, 26⟩
def HF_IMMSTAT_REASON : Field := ⟨Adr.HF_IMMSTAT, 25, 18⟩
def HF_IMMSTAT_RXLEN : Field := ⟨Adr.HF_IMMSTAT, 12, 0⟩
def HF_RAW_CRC : Field := ⟨Adr.HF_RAW, 31, 31⟩
def HF_RAW_TXBITS : Field := ⟨Adr.HF_RAW, 30, 28⟩
def HF_RAW_TMO : Field := ⟨Adr.HF_RAW, 19, 0⟩
def HF_TXLEN_CLR : Field := ⟨Adr.HF_TXLEN, 31, 31⟩
def HF_TXLEN_LEN : Field := ⟨Adr.HF_TXLEN, 12, 0⟩
def HF_BUFSEL_BUF : Field := ⟨Adr.HF_BUFSEL, 31, 31⟩
def HF_BUFSEL_PAGE : Field := ⟨Adr.HF_BUFSEL, 3, 0⟩
def HF_STAT_LASTEND : Field := ⟨Adr.HF_STAT, 23, 16⟩
def HF_STAT_PORT : Field := ⟨Adr.HF_STAT, 9, 9⟩
def HF_STAT_FIELD : Field := ⟨Adr.HF_STAT, 8, 8⟩
def HF_STAT_DRVLIM : Field := ⟨Adr.HF_STAT, 3, 3⟩
def HF_STAT_BUFERR : Field := ⟨Adr.HF_STAT, 2, 2⟩
def HF_STAT_WTXCAP : Field := ⟨Adr.HF_STAT, 1, 1⟩
def HF_STAT_ABORT : Field := ⟨Adr.HF_STAT, 0, 0⟩
def HF_CNT0_CARDS : Field := ⟨Adr.HF_CNT0, 31, 16⟩
def HF_CNT0_POLLS : Field := ⟨Adr.HF_CNT0, 15, 0⟩
def HF_CNT1_COLLIDE : Field := ⟨Adr.HF_CNT1, 31, 16⟩
def HF_CNT1_ABORTS : Field := ⟨Adr.HF_CNT1, 15, 0⟩
def HF_CNT2_WTX : Field := ⟨Adr.HF_CNT2, 31, 16⟩
def HF_CNT2_RETRANS : Field := ⟨Adr.HF_CNT2, 15, 0⟩
def HF_BUF_DATA (n : Nat) : Field := ⟨Adr.HF_BUF n, 31, 0⟩
def HF_COMMIT_PEND : Field := ⟨Adr.HF_COMMIT, 31, 31⟩
def HF_COMMIT_CFG_REJECT : Field := ⟨Adr.HF_COMMIT, 30, 30⟩
def HF_COMMIT_WRLOCK : Field := ⟨Adr.HF_COMMIT, 29, 29⟩
def HF_COMMIT_REASON : Field := ⟨Adr.HF_COMMIT, 23, 16⟩
def HF_COMMIT_SEQ : Field := ⟨Adr.HF_COMMIT, 15, 8⟩
def HF_COMMIT_DISCARD : Field := ⟨Adr.HF_COMMIT, 1, 1⟩
def HF_COMMIT_COMMIT : Field := ⟨Adr.HF_COMMIT, 0, 0⟩
def TAG_CFG_AFI : Field := ⟨Adr.TAG_CFG, 31, 24⟩
def TAG_CFG_DSFID : Field := ⟨Adr.TAG_CFG, 23, 16⟩
def TAG_CFG_FLTEN : Field := ⟨Adr.TAG_CFG, 15, 15⟩
def TAG_CFG_FLTRD : Field := ⟨Adr.TAG_CFG, 14, 14⟩
def TAG_CFG_PROTRD : Field := ⟨Adr.TAG_CFG, 13, 13⟩
def TAG_CFG_PUBWP : Field := ⟨Adr.TAG_CFG, 12, 12⟩
def TAG_CFG_HARVEN : Field := ⟨Adr.TAG_CFG, 11, 11⟩
def TAG_AREA_FLTPG : Field := ⟨Adr.TAG_AREA, 24, 16⟩
def TAG_AREA_PROTPG : Field := ⟨Adr.TAG_AREA, 8, 0⟩
def TAG_PWEN_SLOTS : Field := ⟨Adr.TAG_PWEN, 31, 0⟩
def TAG_AESEN_SLOTS : Field := ⟨Adr.TAG_AESEN, 31, 0⟩
def TAG_FLTMASK_IDS : Field := ⟨Adr.TAG_FLTMASK, 31, 0⟩
def TAG_STATLIST_ADDRH (n : Nat) : Field := ⟨Adr.TAG_STATLIST n, 31, 16⟩
def TAG_STATLIST_ADDRL (n : Nat) : Field := ⟨Adr.TAG_STATLIST n, 15, 0⟩
def TAG_HCMD_CMD : Field := ⟨Adr.TAG_HCMD, 31, 28⟩
def TAG_HCMD_CHECK : Field := ⟨Adr.TAG_HCMD, 27, 27⟩
def TAG_HCMD_GEN : Field := ⟨Adr.TAG_HCMD, 15, 8⟩
def TAG_HCMD_PAGE : Field := ⟨Adr.TAG_HCMD, 7, 0⟩
def TAG_HSTAT_BUSY : Field := ⟨Adr.TAG_HSTAT, 31, 31⟩
def TAG_HSTAT_RESULT : Field := ⟨Adr.TAG_HSTAT, 30, 28⟩
def TAG_HSTAT_GEN : Field := ⟨Adr.TAG_HSTAT, 15, 8⟩
def TAG_HSTAT_PAGE : Field := ⟨Adr.TAG_HSTAT, 7, 0⟩
def TAG_STAT_FAILS : Field := ⟨Adr.TAG_STAT, 31, 24⟩
def TAG_STAT_KEYNUM : Field := ⟨Adr.TAG_STAT, 23, 19⟩
def TAG_STAT_METHOD : Field := ⟨Adr.TAG_STAT, 18, 17⟩
def TAG_STAT_STATE : Field := ⟨Adr.TAG_STAT, 15, 14⟩
def TAG_STAT_SECURED : Field := ⟨Adr.TAG_STAT, 13, 13⟩
def TAG_STAT_FIELD : Field := ⟨Adr.TAG_STAT, 12, 12⟩
def TAG_STAT_HARVOK : Field := ⟨Adr.TAG_STAT, 11, 11⟩
def TAG_STAT_LOCKOUT : Field := ⟨Adr.TAG_STAT, 10, 10⟩
def TAG_STAT_PROGFAIL : Field := ⟨Adr.TAG_STAT, 2, 2⟩
def TAG_STAT_CONFLICT : Field := ⟨Adr.TAG_STAT, 1, 1⟩
def TAG_STAT_AUTHFAIL : Field := ⟨Adr.TAG_STAT, 0, 0⟩
def TAG_CNT0_FIELDON : Field := ⟨Adr.TAG_CNT0, 31, 16⟩
def TAG_CNT0_CMDS : Field := ⟨Adr.TAG_CNT0, 15, 0⟩
def TAG_CNT1_AUTHFAIL : Field := ⟨Adr.TAG_CNT1, 31, 16⟩
def TAG_CNT1_CONFLICT : Field := ⟨Adr.TAG_CNT1, 15, 0⟩
def TAG_CNT2_FWRITES : Field := ⟨Adr.TAG_CNT2, 31, 16⟩
def TAG_CNT2_FLTREC : Field := ⟨Adr.TAG_CNT2, 15, 0⟩
def TAG_UID0_UID : Field := ⟨Adr.TAG_UID0, 31, 0⟩
def TAG_UID1_UID : Field := ⟨Adr.TAG_UID1, 31, 0⟩
def TAG_HBUF_DATA (n : Nat) : Field := ⟨Adr.TAG_HBUF n, 31, 0⟩
def TAG_COMMIT_PEND : Field := ⟨Adr.TAG_COMMIT, 31, 31⟩
def TAG_COMMIT_CFG_REJECT : Field := ⟨Adr.TAG_COMMIT, 30, 30⟩
def TAG_COMMIT_WRLOCK : Field := ⟨Adr.TAG_COMMIT, 29, 29⟩
def TAG_COMMIT_REASON : Field := ⟨Adr.TAG_COMMIT, 23, 16⟩
def TAG_COMMIT_SEQ : Field := ⟨Adr.TAG_COMMIT, 15, 8⟩
def TAG_COMMIT_DISCARD : Field := ⟨Adr.TAG_COMMIT, 1, 1⟩
def TAG_COMMIT_COMMIT : Field := ⟨Adr.TAG_COMMIT, 0, 0⟩
def GRS_CFG_EN : Field := ⟨Adr.GRS_CFG, 31, 31⟩
def GRS_CFG_PORT : Field := ⟨Adr.GRS_CFG, 30, 30⟩
def GRS_CFG_ACTEN : Field := ⟨Adr.GRS_CFG, 29, 29⟩
def GRS_CFG_ADOPT : Field := ⟨Adr.GRS_CFG, 28, 28⟩
def GRS_CFG_IVL : Field := ⟨Adr.GRS_CFG, 27, 21⟩
def GRS_CFG_PINGLEN : Field := ⟨Adr.GRS_CFG, 20, 15⟩
def GRS_CFG_DRIVE : Field := ⟨Adr.GRS_CFG, 14, 8⟩
def GRS_CFG_CONFIRM : Field := ⟨Adr.GRS_CFG, 7, 5⟩
def GRS_CFG_ALPHA : Field := ⟨Adr.GRS_CFG, 4, 1⟩
def GRS_CFG_ADIR : Field := ⟨Adr.GRS_CFG, 0, 0⟩
def GRS_THR_THA : Field := ⟨Adr.GRS_THR, 25, 16⟩
def GRS_THR_THP : Field := ⟨Adr.GRS_THR, 9, 0⟩
def GRS_TRIG_ENTRY : Field := ⟨Adr.GRS_TRIG, 9, 0⟩
def GRS_BASE_AMP : Field := ⟨Adr.GRS_BASE, 31, 16⟩
def GRS_BASE_VALID : Field := ⟨Adr.GRS_BASE, 15, 15⟩
def GRS_BASE_PHASE : Field := ⟨Adr.GRS_BASE, 14, 0⟩
def GRS_MEAS_DA : Field := ⟨Adr.GRS_MEAS, 31, 16⟩
def GRS_MEAS_DP : Field := ⟨Adr.GRS_MEAS, 15, 0⟩
def GRS_STAT_PEND : Field := ⟨Adr.GRS_STAT, 7, 4⟩
def GRS_STAT_NOBASE : Field := ⟨Adr.GRS_STAT, 2, 2⟩
def GRS_STAT_SKIPPED : Field := ⟨Adr.GRS_STAT, 1, 1⟩
def GRS_STAT_DETECT : Field := ⟨Adr.GRS_STAT, 0, 0⟩
def GRS_CNT0_PINGS : Field := ⟨Adr.GRS_CNT0, 31, 0⟩
def GRS_CNT1_DETECT : Field := ⟨Adr.GRS_CNT1, 31, 16⟩
def GRS_CNT1_SKIP : Field := ⟨Adr.GRS_CNT1, 15, 0⟩
def GRS_COMMIT_PEND : Field := ⟨Adr.GRS_COMMIT, 31, 31⟩
def GRS_COMMIT_CFG_REJECT : Field := ⟨Adr.GRS_COMMIT, 30, 30⟩
def GRS_COMMIT_WRLOCK : Field := ⟨Adr.GRS_COMMIT, 29, 29⟩
def GRS_COMMIT_REASON : Field := ⟨Adr.GRS_COMMIT, 23, 16⟩
def GRS_COMMIT_SEQ : Field := ⟨Adr.GRS_COMMIT, 15, 8⟩
def GRS_COMMIT_DISCARD : Field := ⟨Adr.GRS_COMMIT, 1, 1⟩
def GRS_COMMIT_COMMIT : Field := ⟨Adr.GRS_COMMIT, 0, 0⟩
def LNK_PHYCFG_CONCUR : Field := ⟨Adr.LNK_PHYCFG, 31, 31⟩
def LNK_PHYCFG_WHITEN : Field := ⟨Adr.LNK_PHYCFG, 30, 30⟩
def LNK_PHYCFG_FCS2 : Field := ⟨Adr.LNK_PHYCFG, 29, 29⟩
def LNK_PHYCFG_SFDSEL : Field := ⟨Adr.LNK_PHYCFG, 28, 28⟩
def LNK_PHYCFG_SEED : Field := ⟨Adr.LNK_PHYCFG, 27, 26⟩
def LNK_PHYCFG_PREAMBLE : Field := ⟨Adr.LNK_PHYCFG, 25, 16⟩
def LNK_CAPTURE_EN : Field := ⟨Adr.LNK_CAPTURE, 8, 8⟩
def LNK_CAPTURE_DB : Field := ⟨Adr.LNK_CAPTURE, 7, 0⟩
def LNK_EQ_ABS : Field := ⟨Adr.LNK_EQ, 23, 16⟩
def LNK_EQ_REL : Field := ⟨Adr.LNK_EQ, 15, 8⟩
def LNK_EQ_ERASEMAX : Field := ⟨Adr.LNK_EQ, 7, 0⟩
def LNK_PHYSTAT_STATUS : Field := ⟨Adr.LNK_PHYSTAT, 31, 28⟩
def LNK_PHYSTAT_MODE : Field := ⟨Adr.LNK_PHYSTAT, 27, 24⟩
def LNK_PHYSTAT_RSSI : Field := ⟨Adr.LNK_PHYSTAT, 23, 16⟩
def LNK_PHYSTAT_SNR : Field := ⟨Adr.LNK_PHYSTAT, 15, 8⟩
def LNK_PHYSTAT_PREEMPTOR : Field := ⟨Adr.LNK_PHYSTAT, 7, 7⟩
def LNK_PHYSTAT_ERASED : Field := ⟨Adr.LNK_PHYSTAT, 6, 0⟩
def LNK_ED_ED : Field := ⟨Adr.LNK_ED, 31, 24⟩
def LNK_ED_EDPEAK : Field := ⟨Adr.LNK_ED, 23, 16⟩
def LNK_PHYCNT0_SYNC : Field := ⟨Adr.LNK_PHYCNT0, 31, 16⟩
def LNK_PHYCNT0_FCSERR : Field := ⟨Adr.LNK_PHYCNT0, 15, 0⟩
def LNK_PHYCNT1_PREEMPT : Field := ⟨Adr.LNK_PHYCNT1, 31, 16⟩
def LNK_PHYCNT1_PHRERR : Field := ⟨Adr.LNK_PHYCNT1, 15, 0⟩
def LNK_PHYCNT2_ERASE : Field := ⟨Adr.LNK_PHYCNT2, 31, 16⟩
def LNK_PHYCNT2_ABORT : Field := ⟨Adr.LNK_PHYCNT2, 15, 0⟩
def LNK_ID_NODE : Field := ⟨Adr.LNK_ID, 31, 16⟩
def LNK_ID_PAN : Field := ⟨Adr.LNK_ID, 15, 0⟩
def LNK_EUI0_EUI : Field := ⟨Adr.LNK_EUI0, 31, 0⟩
def LNK_EUI1_EUI : Field := ⟨Adr.LNK_EUI1, 31, 0⟩
def LNK_MACCFG_KEYSLOT : Field := ⟨Adr.LNK_MACCFG, 31, 27⟩
def LNK_MACCFG_LEVEL : Field := ⟨Adr.LNK_MACCFG, 26, 24⟩
def LNK_MACCFG_BLEVEL : Field := ⟨Adr.LNK_MACCFG, 23, 22⟩
def LNK_MACCFG_ENCREQ : Field := ⟨Adr.LNK_MACCFG, 21, 21⟩
def LNK_MACCFG_LEARN : Field := ⟨Adr.LNK_MACCFG, 20, 20⟩
def LNK_MACCFG_RXERR : Field := ⟨Adr.LNK_MACCFG, 19, 19⟩
def LNK_MACCFG_BCNRX : Field := ⟨Adr.LNK_MACCFG, 18, 18⟩
def LNK_MACCFG_MAXRETRY : Field := ⟨Adr.LNK_MACCFG, 17, 15⟩
def LNK_MACCFG_ACKDLY : Field := ⟨Adr.LNK_MACCFG, 11, 0⟩
def LNK_CCA_THR : Field := ⟨Adr.LNK_CCA, 31, 24⟩
def LNK_CCA_LISTEN : Field := ⟨Adr.LNK_CCA, 23, 16⟩
def LNK_CCA_BEMIN : Field := ⟨Adr.LNK_CCA, 15, 12⟩
def LNK_CCA_BEMAX : Field := ⟨Adr.LNK_CCA, 11, 8⟩
def LNK_CCA_MAXBO : Field := ⟨Adr.LNK_CCA, 7, 4⟩
def LNK_BCN_EN : Field := ⟨Adr.LNK_BCN, 31, 31⟩
def LNK_BCN_ORIGIN : Field := ⟨Adr.LNK_BCN, 30, 30⟩
def LNK_BCN_CANORIG : Field := ⟨Adr.LNK_BCN, 29, 29⟩
def LNK_BCN_BI : Field := ⟨Adr.LNK_BCN, 28, 17⟩
def LNK_BCN_ENTRY : Field := ⟨Adr.LNK_BCN, 16, 7⟩
def LNK_BCNPH_PHASE : Field := ⟨Adr.LNK_BCNPH, 19, 0⟩
def LNK_DRIFT_GUARD : Field := ⟨Adr.LNK_DRIFT, 31, 24⟩
def LNK_DRIFT_JITTER : Field := ⟨Adr.LNK_DRIFT, 23, 16⟩
def LNK_DRIFT_PAD : Field := ⟨Adr.LNK_DRIFT, 15, 12⟩
def LNK_DRIFT_ERRINIT : Field := ⟨Adr.LNK_DRIFT, 11, 6⟩
def LNK_SYNC_SETTIME : Field := ⟨Adr.LNK_SYNC, 31, 31⟩
def LNK_SYNC_DEADBAND : Field := ⟨Adr.LNK_SYNC, 30, 24⟩
def LNK_SYNC_HOLDOVER : Field := ⟨Adr.LNK_SYNC, 23, 12⟩
def LNK_SYNC_RESCAN : Field := ⟨Adr.LNK_SYNC, 11, 0⟩
def LNK_RDV_EN : Field := ⟨Adr.LNK_RDV, 31, 31⟩
def LNK_RDV_PERIOD : Field := ⟨Adr.LNK_RDV, 30, 19⟩
def LNK_RDV_LEN : Field := ⟨Adr.LNK_RDV, 18, 12⟩
def LNK_RDV_OFFSET : Field := ⟨Adr.LNK_RDV, 11, 0⟩
def LNK_DATA_EN : Field := ⟨Adr.LNK_DATA, 31, 31⟩
def LNK_DATA_LISTEN : Field := ⟨Adr.LNK_DATA, 30, 30⟩
def LNK_DATA_AUTOTRF : Field := ⟨Adr.LNK_DATA, 29, 29⟩
def LNK_DATA_AUTOFLT : Field := ⟨Adr.LNK_DATA, 28, 28⟩
def LNK_DATA_ENTRY : Field := ⟨Adr.LNK_DATA, 27, 18⟩
def LNK_DATA_SLOT : Field := ⟨Adr.LNK_DATA, 17, 11⟩
def LNK_IEVID_VID : Field := ⟨Adr.LNK_IEVID, 23, 0⟩
def LNK_CKPT_NBRSTEP : Field := ⟨Adr.LNK_CKPT, 12, 0⟩
def LNK_FCBASE_BASE : Field := ⟨Adr.LNK_FCBASE, 31, 0⟩
def LNK_FCNT_FC : Field := ⟨Adr.LNK_FCNT, 31, 0⟩
def LNK_SEARCH_MAX_N : Field := ⟨Adr.LNK_SEARCH_MAX, 5, 0⟩
def LNK_SRC_EN (n : Nat) : Field := ⟨Adr.LNK_SRC n, 31, 31⟩
def LNK_SRC_TRACK (n : Nat) : Field := ⟨Adr.LNK_SRC n, 30, 30⟩
def LNK_SRC_NBR (n : Nat) : Field := ⟨Adr.LNK_SRC n, 7, 0⟩
def LNK_SBSEL_SB : Field := ⟨Adr.LNK_SBSEL, 2, 0⟩
def LNK_SBUSE_PCT : Field := ⟨Adr.LNK_SBUSE, 31, 24⟩
def LNK_SBUSE_USED : Field := ⟨Adr.LNK_SBUSE, 21, 0⟩
def LNK_AUTO_DEST : Field := ⟨Adr.LNK_AUTO, 31, 16⟩
def LNK_TXCMD_GO : Field := ⟨Adr.LNK_TXCMD, 31, 31⟩
def LNK_TXCMD_AR : Field := ⟨Adr.LNK_TXCMD, 30, 30⟩
def LNK_TXCMD_ANYTIME : Field := ⟨Adr.LNK_TXCMD, 29, 29⟩
def LNK_TXCMD_FLUSH : Field := ⟨Adr.LNK_TXCMD, 28, 28⟩
def LNK_TXCMD_TAG : Field := ⟨Adr.LNK_TXCMD, 27, 24⟩
def LNK_TXCMD_LEN : Field := ⟨Adr.LNK_TXCMD, 23, 13⟩
def LNK_TXSTAT_QUEUED : Field := ⟨Adr.LNK_TXSTAT, 31, 28⟩
def LNK_TXSTAT_RESULT : Field := ⟨Adr.LNK_TXSTAT, 27, 25⟩
def LNK_TXSTAT_REASON : Field := ⟨Adr.LNK_TXSTAT, 24, 17⟩
def LNK_TXSTAT_WITHHELD : Field := ⟨Adr.LNK_TXSTAT, 16, 16⟩
def LNK_TXDEST_DEST : Field := ⟨Adr.LNK_TXDEST, 31, 16⟩
def LNK_TXDEST_LIFE : Field := ⟨Adr.LNK_TXDEST, 15, 8⟩
def LNK_NVSEL_INDEX : Field := ⟨Adr.LNK_NVSEL, 7, 0⟩
def LNK_NV0_NODE : Field := ⟨Adr.LNK_NV0, 31, 16⟩
def LNK_NV0_STATE : Field := ⟨Adr.LNK_NV0, 15, 12⟩
def LNK_NV0_M : Field := ⟨Adr.LNK_NV0, 11, 8⟩
def LNK_NV0_HOPS : Field := ⟨Adr.LNK_NV0, 7, 0⟩
def LNK_NV1_ERR : Field := ⟨Adr.LNK_NV1, 31, 16⟩
def LNK_NV1_SAMPLES : Field := ⟨Adr.LNK_NV1, 15, 8⟩
def LNK_NV1_LEVEL : Field := ⟨Adr.LNK_NV1, 7, 0⟩
def LNK_NV2_HEARD : Field := ⟨Adr.LNK_NV2, 31, 0⟩
def LNK_NV3_EPOCH : Field := ⟨Adr.LNK_NV3, 31, 0⟩
def LNK_EPOCH_EPOCH : Field := ⟨Adr.LNK_EPOCH, 31, 0⟩
def LNK_ORIGIN_ORIGIN : Field := ⟨Adr.LNK_ORIGIN, 31, 16⟩
def LNK_ORIGIN_HOPS : Field := ⟨Adr.LNK_ORIGIN, 15, 8⟩
def LNK_ORIGIN_SRC : Field := ⟨Adr.LNK_ORIGIN, 7, 4⟩
def LNK_ORIGIN_HOLD : Field := ⟨Adr.LNK_ORIGIN, 3, 3⟩
def LNK_ORIGIN_CONV : Field := ⟨Adr.LNK_ORIGIN, 2, 2⟩
def LNK_ORIGIN_ISORIG : Field := ⟨Adr.LNK_ORIGIN, 1, 1⟩
def LNK_SYNCSTAT_OFFSET : Field := ⟨Adr.LNK_SYNCSTAT, 31, 16⟩
def LNK_SYNCSTAT_SHIFTS : Field := ⟨Adr.LNK_SYNCSTAT, 15, 0⟩
def LNK_MACCNT0_TXOK : Field := ⟨Adr.LNK_MACCNT0, 31, 16⟩
def LNK_MACCNT0_NOACK : Field := ⟨Adr.LNK_MACCNT0, 15, 0⟩
def LNK_MACCNT1_RXOK : Field := ⟨Adr.LNK_MACCNT1, 31, 16⟩
def LNK_MACCNT1_REPLAY : Field := ⟨Adr.LNK_MACCNT1, 15, 0⟩
def LNK_MACCNT2_AUTHFAIL : Field := ⟨Adr.LNK_MACCNT2, 31, 16⟩
def LNK_MACCNT2_DUP : Field := ⟨Adr.LNK_MACCNT2, 15, 0⟩
def LNK_MACCNT3_BCNMISS : Field := ⟨Adr.LNK_MACCNT3, 31, 16⟩
def LNK_MACCNT3_CCABUSY : Field := ⟨Adr.LNK_MACCNT3, 15, 0⟩
def LNK_MACCNT4_BUDGET : Field := ⟨Adr.LNK_MACCNT4, 31, 16⟩
def LNK_MACCNT4_ACKLATE : Field := ⟨Adr.LNK_MACCNT4, 15, 0⟩
def LNK_TXBUF_DATA (n : Nat) : Field := ⟨Adr.LNK_TXBUF n, 31, 0⟩
def LNK_COMMIT_PEND : Field := ⟨Adr.LNK_COMMIT, 31, 31⟩
def LNK_COMMIT_CFG_REJECT : Field := ⟨Adr.LNK_COMMIT, 30, 30⟩
def LNK_COMMIT_WRLOCK : Field := ⟨Adr.LNK_COMMIT, 29, 29⟩
def LNK_COMMIT_REASON : Field := ⟨Adr.LNK_COMMIT, 23, 16⟩
def LNK_COMMIT_SEQ : Field := ⟨Adr.LNK_COMMIT, 15, 8⟩
def LNK_COMMIT_DISCARD : Field := ⟨Adr.LNK_COMMIT, 1, 1⟩
def LNK_COMMIT_COMMIT : Field := ⟨Adr.LNK_COMMIT, 0, 0⟩
def NBR_EUIH_EUI (n : Nat) : Field := ⟨Adr.NBR_EUIH n, 31, 0⟩
def NBR_EUIL_EUI (n : Nat) : Field := ⟨Adr.NBR_EUIL n, 31, 0⟩
def NBR_FC_FC (n : Nat) : Field := ⟨Adr.NBR_FC n, 31, 0⟩
def NBR_COMMIT_PEND (n : Nat) : Field := ⟨Adr.NBR_COMMIT n, 31, 31⟩
def NBR_COMMIT_CFG_REJECT (n : Nat) : Field := ⟨Adr.NBR_COMMIT n, 30, 30⟩
def NBR_COMMIT_WRLOCK (n : Nat) : Field := ⟨Adr.NBR_COMMIT n, 29, 29⟩
def NBR_COMMIT_REASON (n : Nat) : Field := ⟨Adr.NBR_COMMIT n, 23, 16⟩
def NBR_COMMIT_SEQ (n : Nat) : Field := ⟨Adr.NBR_COMMIT n, 15, 8⟩
def NBR_COMMIT_DISCARD (n : Nat) : Field := ⟨Adr.NBR_COMMIT n, 1, 1⟩
def NBR_COMMIT_COMMIT (n : Nat) : Field := ⟨Adr.NBR_COMMIT n, 0, 0⟩
def CAL_CFG_DTEMP : Field := ⟨Adr.CAL_CFG, 31, 24⟩
def CAL_CFG_GRACE : Field := ⟨Adr.CAL_CFG, 23, 16⟩
def CAL_CFG_AUTO : Field := ⟨Adr.CAL_CFG, 0, 0⟩
def CAL_PER0_P02 : Field := ⟨Adr.CAL_PER0, 31, 24⟩
def CAL_PER0_P03 : Field := ⟨Adr.CAL_PER0, 23, 16⟩
def CAL_PER0_P04 : Field := ⟨Adr.CAL_PER0, 15, 8⟩
def CAL_PER0_P05 : Field := ⟨Adr.CAL_PER0, 7, 0⟩
def CAL_PER1_P06 : Field := ⟨Adr.CAL_PER1, 7, 0⟩
def CAL_LIM_SPUR : Field := ⟨Adr.CAL_LIM, 31, 24⟩
def CAL_LIM_EYE : Field := ⟨Adr.CAL_LIM, 23, 16⟩
def CAL_LIM_EVM : Field := ⟨Adr.CAL_LIM, 15, 8⟩
def CAL_CMD_KEY : Field := ⟨Adr.CAL_CMD, 31, 16⟩
def CAL_CMD_CMD : Field := ⟨Adr.CAL_CMD, 15, 12⟩
def CAL_CMD_ITEM : Field := ⟨Adr.CAL_CMD, 11, 8⟩
def CAL_CMD_ARG : Field := ⟨Adr.CAL_CMD, 7, 0⟩
def CAL_STAT_BUSY : Field := ⟨Adr.CAL_STAT, 31, 31⟩
def CAL_STAT_RESULT : Field := ⟨Adr.CAL_STAT, 30, 28⟩
def CAL_STAT_REASON : Field := ⟨Adr.CAL_STAT, 27, 20⟩
def CAL_STAT_ITEM : Field := ⟨Adr.CAL_STAT, 19, 16⟩
def CAL_STAT_INSTANCE : Field := ⟨Adr.CAL_STAT, 15, 8⟩
def CAL_STAT_FAIL : Field := ⟨Adr.CAL_STAT, 1, 1⟩
def CAL_STAT_APPLIED : Field := ⟨Adr.CAL_STAT, 0, 0⟩
def CAL_DUE_OVERDUE : Field := ⟨Adr.CAL_DUE, 23, 16⟩
def CAL_DUE_DUE : Field := ⟨Adr.CAL_DUE, 7, 0⟩
def CAL_TEMP_TEMP : Field := ⟨Adr.CAL_TEMP, 11, 0⟩
def CAL_REFPWR_PWR : Field := ⟨Adr.CAL_REFPWR, 15, 0⟩
def CAL_REFCH_PORT : Field := ⟨Adr.CAL_REFCH, 31, 30⟩
def CAL_REFCH_INDEX : Field := ⟨Adr.CAL_REFCH, 29, 23⟩
def CAL_REFCH_CHAN : Field := ⟨Adr.CAL_REFCH, 13, 0⟩
def CAL_SVCRES_DELTA : Field := ⟨Adr.CAL_SVCRES, 31, 16⟩
def CAL_SVCRES_FERR : Field := ⟨Adr.CAL_SVCRES, 15, 0⟩
def CAL_ALIGN_GAIN (n : Nat) : Field := ⟨Adr.CAL_ALIGN n, 31, 20⟩
def CAL_ALIGN_PHASE (n : Nat) : Field := ⟨Adr.CAL_ALIGN n, 19, 8⟩
def CAL_ALIGN_RXOFS (n : Nat) : Field := ⟨Adr.CAL_ALIGN n, 7, 0⟩
def CAL_HFTUNE_EYE (n : Nat) : Field := ⟨Adr.CAL_HFTUNE n, 23, 16⟩
def CAL_HFTUNE_CODE (n : Nat) : Field := ⟨Adr.CAL_HFTUNE n, 5, 0⟩
def CAL_GRSOSC_TRIM : Field := ⟨Adr.CAL_GRSOSC, 7, 0⟩
def CAL_QRX_SPUR (n : Nat) : Field := ⟨Adr.CAL_QRX n, 31, 24⟩
def CAL_QRX_RESID (n : Nat) : Field := ⟨Adr.CAL_QRX n, 23, 16⟩
def CAL_QTX_EVM3 : Field := ⟨Adr.CAL_QTX, 31, 24⟩
def CAL_QTX_EVM2 : Field := ⟨Adr.CAL_QTX, 23, 16⟩
def CAL_QTX_EVM1 : Field := ⟨Adr.CAL_QTX, 15, 8⟩
def CAL_QTX_EVM0 : Field := ⟨Adr.CAL_QTX, 7, 0⟩
def CAL_ADC_OFFSET (n : Nat) : Field := ⟨Adr.CAL_ADC n, 31, 22⟩
def CAL_ADC_GAIN (n : Nat) : Field := ⟨Adr.CAL_ADC n, 21, 11⟩
def CAL_ADC_SKEW (n : Nat) : Field := ⟨Adr.CAL_ADC n, 10, 0⟩
def CAL_COMMIT_PEND : Field := ⟨Adr.CAL_COMMIT, 31, 31⟩
def CAL_COMMIT_CFG_REJECT : Field := ⟨Adr.CAL_COMMIT, 30, 30⟩
def CAL_COMMIT_WRLOCK : Field := ⟨Adr.CAL_COMMIT, 29, 29⟩
def CAL_COMMIT_REASON : Field := ⟨Adr.CAL_COMMIT, 23, 16⟩
def CAL_COMMIT_SEQ : Field := ⟨Adr.CAL_COMMIT, 15, 8⟩
def CAL_COMMIT_DISCARD : Field := ⟨Adr.CAL_COMMIT, 1, 1⟩
def CAL_COMMIT_COMMIT : Field := ⟨Adr.CAL_COMMIT, 0, 0⟩
def MSP_CFG0_MODE : Field := ⟨Adr.MSP_CFG0, 31, 30⟩
def MSP_CFG0_DIV : Field := ⟨Adr.MSP_CFG0, 29, 24⟩
def MSP_CFG0_DUMMY : Field := ⟨Adr.MSP_CFG0, 23, 20⟩
def MSP_CFG0_RDCMD : Field := ⟨Adr.MSP_CFG0, 19, 12⟩
def MSP_CFG1_MODE : Field := ⟨Adr.MSP_CFG1, 31, 30⟩
def MSP_CFG1_DIV : Field := ⟨Adr.MSP_CFG1, 29, 24⟩
def MSP_CFG1_DUMMY : Field := ⟨Adr.MSP_CFG1, 23, 20⟩
def MSP_CFG1_RDCMD : Field := ⟨Adr.MSP_CFG1, 19, 12⟩
def MSP_HCMD_CMD : Field := ⟨Adr.MSP_HCMD, 31, 28⟩
def MSP_HCMD_ADDR : Field := ⟨Adr.MSP_HCMD, 23, 0⟩
def MSP_HSTAT_BUSY : Field := ⟨Adr.MSP_HSTAT, 31, 31⟩
def MSP_HSTAT_RESULT : Field := ⟨Adr.MSP_HSTAT, 30, 28⟩
def MSP_HLEN_LEN : Field := ⟨Adr.MSP_HLEN, 6, 0⟩
def MSP_HBUF_DATA (n : Nat) : Field := ⟨Adr.MSP_HBUF n, 31, 0⟩
def JNL_CFG_FLUSH : Field := ⟨Adr.JNL_CFG, 31, 20⟩
def JNL_CFG_RESERVE : Field := ⟨Adr.JNL_CFG, 19, 14⟩
def JNL_CFG_SGTFULL : Field := ⟨Adr.JNL_CFG, 13, 13⟩
def JNL_CFG_COMPACT : Field := ⟨Adr.JNL_CFG, 12, 12⟩
def JNL_CMD_KEY : Field := ⟨Adr.JNL_CMD, 31, 16⟩
def JNL_CMD_CMD : Field := ⟨Adr.JNL_CMD, 3, 0⟩
def JNL_STAT_MOUNTED : Field := ⟨Adr.JNL_STAT, 31, 31⟩
def JNL_STAT_FAILED : Field := ⟨Adr.JNL_STAT, 30, 30⟩
def JNL_STAT_WRAPPED : Field := ⟨Adr.JNL_STAT, 29, 29⟩
def JNL_STAT_FMTBUSY : Field := ⟨Adr.JNL_STAT, 28, 28⟩
def JNL_STAT_ERASED : Field := ⟨Adr.JNL_STAT, 21, 16⟩
def JNL_STAT_NBAD : Field := ⟨Adr.JNL_STAT, 15, 0⟩
def JNL_POS_HEAD : Field := ⟨Adr.JNL_POS, 31, 16⟩
def JNL_POS_TAIL : Field := ⟨Adr.JNL_POS, 15, 0⟩
def JNL_PAGES_PAGES : Field := ⟨Adr.JNL_PAGES, 20, 0⟩
def JNL_CNT0_GROWN : Field := ⟨Adr.JNL_CNT0, 31, 16⟩
def JNL_CNT0_UCE : Field := ⟨Adr.JNL_CNT0, 15, 0⟩
def JNL_CNT1_GAPS : Field := ⟨Adr.JNL_CNT1, 31, 16⟩
def JNL_CNT1_NOCOMP : Field := ⟨Adr.JNL_CNT1, 15, 0⟩
def JNL_RDCMD_GO : Field := ⟨Adr.JNL_RDCMD, 31, 31⟩
def JNL_RDCMD_PAGE : Field := ⟨Adr.JNL_RDCMD, 20, 0⟩
def JNL_RDSTAT_BUSY : Field := ⟨Adr.JNL_RDSTAT, 31, 31⟩
def JNL_RDSTAT_RESULT : Field := ⟨Adr.JNL_RDSTAT, 30, 28⟩
def JNL_RDSTAT_PART : Field := ⟨Adr.JNL_RDSTAT, 3, 0⟩
def JNL_RDBUF_DATA (n : Nat) : Field := ⟨Adr.JNL_RDBUF n, 31, 0⟩
def MSP_COMMIT_PEND : Field := ⟨Adr.MSP_COMMIT, 31, 31⟩
def MSP_COMMIT_CFG_REJECT : Field := ⟨Adr.MSP_COMMIT, 30, 30⟩
def MSP_COMMIT_WRLOCK : Field := ⟨Adr.MSP_COMMIT, 29, 29⟩
def MSP_COMMIT_REASON : Field := ⟨Adr.MSP_COMMIT, 23, 16⟩
def MSP_COMMIT_SEQ : Field := ⟨Adr.MSP_COMMIT, 15, 8⟩
def MSP_COMMIT_DISCARD : Field := ⟨Adr.MSP_COMMIT, 1, 1⟩
def MSP_COMMIT_COMMIT : Field := ⟨Adr.MSP_COMMIT, 0, 0⟩
def SLT_BUF_DATA (n : Nat) : Field := ⟨Adr.SLT_BUF n, 31, 0⟩
def SLT_CMD_CMD : Field := ⟨Adr.SLT_CMD, 31, 28⟩
def SLT_CMD_INDEX : Field := ⟨Adr.SLT_CMD, 9, 0⟩
def SLT_STAT_BUSY : Field := ⟨Adr.SLT_STAT, 31, 31⟩
def SLT_STAT_CFG_REJECT : Field := ⟨Adr.SLT_STAT, 30, 30⟩
def SLT_STAT_WAITING : Field := ⟨Adr.SLT_STAT, 29, 29⟩
def SLT_STAT_RESULT : Field := ⟨Adr.SLT_STAT, 28, 26⟩
def SLT_STAT_REASON : Field := ⟨Adr.SLT_STAT, 25, 18⟩
def SLT_STAT_INDEX : Field := ⟨Adr.SLT_STAT, 9, 0⟩
def SLT_CNT_MISS : Field := ⟨Adr.SLT_CNT, 31, 16⟩
def SLT_CNT_CRCERR : Field := ⟨Adr.SLT_CNT, 15, 0⟩
def SLT_CACHE_VALID : Field := ⟨Adr.SLT_CACHE, 31, 16⟩
def SLT_CACHE_PINNED : Field := ⟨Adr.SLT_CACHE, 15, 8⟩
def SLT_CACHE_CACHED : Field := ⟨Adr.SLT_CACHE, 7, 0⟩
def SGT_CFG_HOLD : Field := ⟨Adr.SGT_CFG, 31, 20⟩
def SGT_CFG_MAXOPEN : Field := ⟨Adr.SGT_CFG, 19, 14⟩
def SGT_CFG_DIRGAP : Field := ⟨Adr.SGT_CFG, 13, 6⟩
def SGT_CFG_TRFLEN : Field := ⟨Adr.SGT_CFG, 5, 0⟩
def SGT_STAT_OPEN : Field := ⟨Adr.SGT_STAT, 31, 20⟩
def SGT_STAT_CFGERR : Field := ⟨Adr.SGT_STAT, 3, 3⟩
def SGT_STAT_INVALID : Field := ⟨Adr.SGT_STAT, 2, 2⟩
def SGT_STAT_EARLY : Field := ⟨Adr.SGT_STAT, 1, 1⟩
def SGT_CNT0_CLOSED : Field := ⟨Adr.SGT_CNT0, 31, 0⟩
def SGT_CNT1_EARLY : Field := ⟨Adr.SGT_CNT1, 31, 16⟩
def SGT_CNT1_LONG : Field := ⟨Adr.SGT_CNT1, 15, 0⟩
def SGT_SEL_STATE : Field := ⟨Adr.SGT_SEL, 31, 30⟩
def SGT_SEL_INDEX : Field := ⟨Adr.SGT_SEL, 10, 0⟩
def SGT_E_DATA (n : Nat) : Field := ⟨Adr.SGT_E n, 31, 0⟩
def SGT_TRF_FWD_FWD (n : Nat) : Field := ⟨Adr.SGT_TRF_FWD n, 31, 0⟩
def SGT_TRF_REV_REV (n : Nat) : Field := ⟨Adr.SGT_TRF_REV n, 31, 0⟩
def SGT_TRF_NONE_NONE (n : Nat) : Field := ⟨Adr.SGT_TRF_NONE n, 31, 0⟩
def SGT_TRF_INFO_EARLY (n : Nat) : Field := ⟨Adr.SGT_TRF_INFO n, 31, 16⟩
def SGT_TRF_INFO_ZONE (n : Nat) : Field := ⟨Adr.SGT_TRF_INFO n, 0, 0⟩
def HSP_STAT_FRAMESEQ : Field := ⟨Adr.HSP_STAT, 31, 20⟩
def HSP_STAT_LASTRES : Field := ⟨Adr.HSP_STAT, 19, 17⟩
def HSP_STAT_LEVEL : Field := ⟨Adr.HSP_STAT, 16, 15⟩
def HSP_STAT_G3 : Field := ⟨Adr.HSP_STAT, 14, 14⟩
def HSP_STAT_FRAMING : Field := ⟨Adr.HSP_STAT, 13, 13⟩
def HSP_STAT_STALL : Field := ⟨Adr.HSP_STAT, 7, 7⟩
def HSP_STAT_UNDERRUN : Field := ⟨Adr.HSP_STAT, 6, 6⟩
def HSP_STAT_BADCMD : Field := ⟨Adr.HSP_STAT, 5, 5⟩
def HSP_STAT_PRIV : Field := ⟨Adr.HSP_STAT, 4, 4⟩
def HSP_STAT_RANGE : Field := ⟨Adr.HSP_STAT, 3, 3⟩
def HSP_STAT_CRC : Field := ⟨Adr.HSP_STAT, 2, 2⟩
def HSP_STAT_EXTRA : Field := ⟨Adr.HSP_STAT, 1, 1⟩
def HSP_STAT_ABORT : Field := ⟨Adr.HSP_STAT, 0, 0⟩
def HSP_CFG_G3IDLE : Field := ⟨Adr.HSP_CFG, 31, 24⟩
def HSP_CFG_SUPIDLE : Field := ⟨Adr.HSP_CFG, 23, 16⟩
def HSP_LEN_LEN : Field := ⟨Adr.HSP_LEN, 12, 0⟩
def HSP_STALL_MAX_US : Field := ⟨Adr.HSP_STALL_MAX, 15, 0⟩
def HSP_CNT0_ABORT : Field := ⟨Adr.HSP_CNT0, 31, 16⟩
def HSP_CNT0_EXTRA : Field := ⟨Adr.HSP_CNT0, 15, 0⟩
def HSP_CNT1_CRCERR : Field := ⟨Adr.HSP_CNT1, 31, 16⟩
def HSP_CNT1_PRIVDEN : Field := ⟨Adr.HSP_CNT1, 15, 0⟩
def HSP_UNLK_FAILS : Field := ⟨Adr.HSP_UNLK, 31, 16⟩
def HSP_UNLK_LOCKOUT : Field := ⟨Adr.HSP_UNLK, 6, 0⟩
def HSP_INT0_INT : Field := ⟨Adr.HSP_INT0, 31, 0⟩
def HSP_INT1_INT : Field := ⟨Adr.HSP_INT1, 28, 0⟩
def HSP_IMASK0_MASK : Field := ⟨Adr.HSP_IMASK0, 31, 0⟩
def HSP_IMASK1_MASK : Field := ⟨Adr.HSP_IMASK1, 28, 0⟩
def HSP_COMMIT_PEND : Field := ⟨Adr.HSP_COMMIT, 31, 31⟩
def HSP_COMMIT_CFG_REJECT : Field := ⟨Adr.HSP_COMMIT, 30, 30⟩
def HSP_COMMIT_WRLOCK : Field := ⟨Adr.HSP_COMMIT, 29, 29⟩
def HSP_COMMIT_REASON : Field := ⟨Adr.HSP_COMMIT, 23, 16⟩
def HSP_COMMIT_SEQ : Field := ⟨Adr.HSP_COMMIT, 15, 8⟩
def HSP_COMMIT_DISCARD : Field := ⟨Adr.HSP_COMMIT, 1, 1⟩
def HSP_COMMIT_COMMIT : Field := ⟨Adr.HSP_COMMIT, 0, 0⟩
def LNK_SB_RANGE_HIGH (n : Nat) : Field := ⟨Adr.LNK_SB_RANGE n, 29, 16⟩
def LNK_SB_RANGE_LOW (n : Nat) : Field := ⟨Adr.LNK_SB_RANGE n, 13, 0⟩
def LNK_SB_DUTY_EN (n : Nat) : Field := ⟨Adr.LNK_SB_DUTY n, 31, 31⟩
def LNK_SB_DUTY_DUTY (n : Nat) : Field := ⟨Adr.LNK_SB_DUTY n, 13, 0⟩

end Fld

end Sys2Proof.Machine
end

