-- ==== Sys2Proof/Config.lean ====
section
/-! DEFINITION. What one die or one board fixes, and the free values of the model. Every constant here is opaque: it has no
body, so that no proof can rest on a value of it. -/

namespace Sys2Proof.Config

/-- The tag UID of this die, bits [47:0]; the top 16 bits are 0xE0C7 (R344). Log entry 3. -/
opaque uidLow : BitVec 48

/-- The factory value of power entry `RAD_PWRp_i` at index 128p + i, below its VALID bit (R199). Log entry 3. -/
opaque factoryPower : Nat → BitVec 31

/-- The board's VDDHF in mV (R300). Log entry 3. -/
opaque vddhf : Nat

/-- A fresh free word, applied to the State's counter of free values. Log entry 4. -/
opaque freeWord : Nat → Word

/-- A fresh random draw of 128 bits, applied to the State's counter of free values. Log entry 4. -/
opaque random : Nat → BitVec 128

/-- Time on air in µs of an MR-OFDM frame: option 0 to 3, MCS, PSDU octets with the FCS. The manual leaves the symbols of a
frame to the standard. Log entry 17. -/
opaque ofdmAirtime : Nat → Nat → Nat → Nat

/-- Time in µs from the start of an MR-OFDM frame to the end of its last LTF symbol, by option. Log entry 17. -/
opaque ofdmSync : Nat → Nat

/-- The part of it in µs that follows the STF: the LTF, by option. Log entry 17. -/
opaque ofdmLtf : Nat → Nat

/-- The 7 SECDED check bits of a report word, from its kind code and its data. The manual names no code. Log entry 41. -/
opaque secded : Nat → Word → BitVec 7

/-- The levels of `TIN0`–`TIN7` that the outside gives, by CLK100 cycle. Log entry 47. -/
opaque tin : Nat → BitVec 8

end Sys2Proof.Config
end

