-- ==== Sys2Proof/Machine/State.lean ====
section
/-! DEFINITION. The state of the block: every register, store, queue, engine and pin the manual gives it, as plain data, and
the state right after reset. Times are counts of CLK100 cycles (10 ns) unless a field says otherwise. -/

namespace Sys2Proof.Machine

/-- Registers by word address, rising; an address that is not listed holds its reset word. -/
abbrev RegFile := List (Nat × Word)

/-- A byte store: address and byte, rising, listing no byte equal to the erased value (0xFF). -/
abbrev Bytes := List Host.Cell

/-! ### Clocks, supplies and pins -/

/-- Clocks (R16, R17, R51, R52). -/
structure Clk where
  /-- CLK100 cycles since reset (R14); the time base of every interval of the model. -/
  now : Nat := 0
  /-- Phase of CLK32K against CLK100: 128 more each cycle, a CLK32K edge at 390,625 (R16). -/
  phase32 : Nat := 0
  /-- CLK100 cycles since the last CLK32K edge that advanced Q64 bits [29:15] (R17). -/
  sinceEdge : Nat := 0
  /-- The 32.768 kHz oscillator runs (R551, R558). -/
  osc : Bool := false
  /-- RF bias start-up is under way (R182). -/
  biasRising : Bool := false
  /-- The moment RF bias loses its last grant, for RFHOLD (R54). -/
  rfIdleSince : Option Nat := none
  deriving DecidableEq, Repr

/-- Supplies and pins (R591–R593, R597, R598). -/
structure Pins where
  /-- VDD08 and VDD18 valid (R592). -/
  core : Bool := true
  /-- VDDIO valid (R593). -/
  vddio : Bool := true
  /-- VBAT valid (R592). -/
  vbat : Bool := true
  /-- `RST_N` level (R72). -/
  rstN : Bool := true
  /-- `HSEL_N` level (R106). -/
  hselN : Bool := true
  /-- `HRDY` level (R110). -/
  hrdy : Bool := false
  /-- Synchronised `CXGNT` (R168). -/
  cxgnt : Bool := false
  /-- Synchronised `XREQ` (R168). -/
  xreq : Bool := false
  /-- `TIN0`–`TIN7` in the synchroniser, the newest sample first (R511, R518; log entry 47). -/
  tin : Vector (BitVec 8) 4 := Vector.replicate 4 0
  deriving DecidableEq, Repr

/-! ### Modes -/

/-- The commands of `SYS_MODECMD` that wait for a transition (R68). -/
inductive ModeCmd where
  | sleepNow
  | enterService
  | enterBackup
  deriving DecidableEq, Repr

/-- Mode control beside its registers (R54–R63). -/
structure Modes where
  /-- The accepted command that awaits its transition (R64 TRANS). -/
  cmd : Option ModeCmd := none
  /-- The ENTER_BACKUP flush has ended and `PWRON` was driven inactive (R60, R68). -/
  flushed : Bool := false
  /-- The codes latched by the wake now under way, as a mask; none outside a wake (R62). -/
  waking : Option Nat := none
  /-- A WATCH listen window is prepared or open (R63). -/
  window : Bool := false
  /-- The scheduled internal wake set before the sleep, in CLK100 time (R57). -/
  wakeAt : Option Nat := none
  deriving DecidableEq, Repr

/-! ### Start-up -/

/-- One stored key (R92). -/
structure KeySlot where
  usage : Nat
  slot : Nat
  bytes : List Byte
  deriving DecidableEq, Repr

/-- Start-up beside its registers (R71–R100). -/
structure Boot where
  /-- The step at which the pending start begins: 1, 5 or 7; 0 when none is pending (R71). -/
  step : Nat := 1
  /-- The pending start ignores BOOTSEL (R71 code 0x6). -/
  ignoreBootsel : Bool := false
  /-- The core has started since its supplies became valid (R593). -/
  started : Bool := true
  /-- Records of the image that have been applied or passed over (R102). -/
  recs : Nat := 0
  /-- The header of the image in force sets NOCAL (R99). -/
  nocal : Bool := false
  /-- The keys loaded, unreadable (R92). -/
  keys : List KeySlot := []
  /-- Instances (item code, instance) whose TRUSTED CAL record was applied (R91). -/
  trusted : List (Nat × Nat) := []
  deriving DecidableEq, Repr

/-! ### Host port -/

/-- What a select has carried so far. -/
inductive FrameState where
  | header
  | done
  | ignoring
  deriving DecidableEq, Repr

/-- A G3 run (R122–R125). -/
structure G3Run where
  chan : Nat
  left : Nat
  /-- The select of the STREAM frame has ended, so that selects are transfers. -/
  opened : Bool := false
  /-- Bits of the unit in hand already shifted out by complete transfers. -/
  bits : Nat := 0
  /-- The unit in hand is a NOT_VALID unit that has begun (R125). -/
  notValid : Bool := false
  /-- A wait with `HRDY` low is under way (R125, R499). -/
  waiting : Bool := false
  /-- Bits this select has shifted out (R123). -/
  sel : Nat := 0
  /-- Edges of this select still to be served, and whether some came past its length. -/
  todo : Nat := 0
  extra : Bool := false
  /-- Error states of the words the rest of this select consumes (R501). -/
  ecc : List Nat := []
  deriving DecidableEq, Repr

/-- A READ or WRITE frame held at SHED 4 (R174). -/
inductive HeldFrame where
  | read (addr count shifted : Nat)
  /-- With the level of the frame's first edge, whose protection it is checked against (R119). -/
  | write (addr : Nat) (words : List Word) (lvl : Level)
  deriving DecidableEq, Repr

/-- Host port beside its registers (R106–R136). -/
structure HostPort where
  /-- Progress of the select in hand. -/
  frame : FrameState := .header
  /-- Highest result of the select in hand (R118). -/
  result : Nat := 0
  /-- The idle level of `HSCK` taken at the fall of `HSEL_N` (R107). -/
  idleHigh : Bool := false
  /-- The bits `HSO` has carried in the select in hand (R116, R120, R123, R127). -/
  hso : List Bool := []
  /-- The frame in hand is a READ, whose words may have been cut (R121). -/
  reading : Bool := false
  /-- The READ in hand was cut before its last word (R121). -/
  cut : Bool := false
  /-- The level the next host transaction boundary brings (R132). -/
  raise : Bool := false
  /-- When the lockout after a failed UNLOCK began, while it runs (R133). -/
  lockout : Option Nat := none
  /-- G3 in progress (R122). -/
  g3 : Option G3Run := none
  /-- The previous G1 unit of this select was unmapped or denied (R127). -/
  g1Bad : Bool := false
  /-- Error states of the report words that the frame in hand consumes through `FIFO_PORTn`, in order (R501). -/
  ecc : List Nat := []
  /-- The latches of G1 byte-0 reads, by word address (R584). -/
  g1Latch : RegFile := []
  /-- When the last READ or WRITE frame was admitted (R174). -/
  admittedAt : Option Nat := none
  /-- The frame held for HOSTGAP at SHED 4 (R174). -/
  held : Option HeldFrame := none
  /-- When the last G2 frame completed (R132). -/
  frameAt : Nat := 0
  deriving DecidableEq, Repr

/-! ### Report FIFOs -/

/-- One stored unit with its check bits (R487, R489). -/
structure FUnit where
  kind : Nat
  data : Word
  chk : BitVec 7 := Config.secded kind data
  deriving DecidableEq, Repr

/-- What a channel is skipping (R499, R500). -/
inductive Skip where
  | none
  | packet
  | units (n : Nat)
  deriving DecidableEq, Repr

/-- One Shale channel (R484–R504). -/
structure Chan where
  /-- The write bank, oldest unit first. -/
  wr : List FUnit := []
  /-- The units of the read bank not yet consumed. -/
  rd : List FUnit := []
  /-- The bank that is the read bank; bank 1 after a start (R490). -/
  rdBank : Bool := true
  /-- Units already consumed from the read bank. -/
  rdUsed : Nat := 0
  /-- Pending GAP count (R497). -/
  gap : Nat := 0
  /-- The stale timer has expired since the last handover (R490, R504). -/
  staleDue : Bool := false
  /-- A skip in progress. -/
  skip : Skip := .none
  /-- GAP counts gathered by a flush, to be delivered as one unit (R500). -/
  flushGap : Nat := 0
  /-- KIND of the last unit consumed; 0 before the first. -/
  lastKind : Nat := 0
  /-- The Gray-coded bank sequence counters WSEQ and RSEQ (R493). -/
  wseq : BitVec 2 := 0
  rseq : BitVec 2 := 0
  /-- When the last handover and the last release took place, if one has since the start (R493). -/
  handedAt : Option Nat := none
  /-- Cycles of the consumer's own clock since the last handover, up to the two after which it sees it (R493, R494). -/
  view : Nat := 2
  relAt : Option Nat := none
  deriving DecidableEq, Repr

/-! ### Quartz -/

/-- A pending time set (R541). -/
structure TimeSet where
  secs : Nat
  clrOsf : Bool
  deriving DecidableEq, Repr

/-- An automatic-trim window (R548). -/
structure TrimWindow where
  /-- Edges accepted since the first. -/
  edges : Nat := 0
  /-- Trimmed CLK32K periods since the first edge. -/
  periods : Nat := 0
  /-- Trimmed CLK32K periods since the last accepted edge. -/
  sinceEdge : Nat := 0
  deriving DecidableEq, Repr

/-- Quartz beside its registers (R535–R556). -/
structure Qtz where
  /-- Whole seconds since 2000-01-01 00:00:00 (R15, R537). -/
  secs : Nat := 0
  /-- SUBSEC (R537). -/
  sub : Nat := 0
  /-- CLK32K periods the sub-second stays at 0 under a negative shift (R544). -/
  hold : Nat := 0
  /-- A pending SETTIME (R541). -/
  pendingSet : Option TimeSet := none
  /-- A pending SET_NOW, applied at the next CLK32K edge (R541). -/
  pendingNow : Option TimeSet := none
  /-- A pending shift, net size in 1/32,768 s (R544). -/
  pendingShift : Option Int := none
  /-- The COUNT last written to `QTZ_CDN` (R552). -/
  cdnReload : Nat := 0
  /-- Divider of the countdown (R552). -/
  cdnDiv : Nat := 0
  /-- When a pulse on `PWRON` last started or was extended; none in level mode (R554). -/
  pulseFrom : Option Nat := none
  /-- The backup copy of `SYS_WAKEEN` bits [5:0] (R554). -/
  wakeCopy : Nat := 0x37
  /-- Periods into the 256 s trim window (R546). -/
  trimPos : Nat := 0
  /-- Adjustments made in the 256 s trim window (R546). -/
  trimDone : Nat := 0
  /-- Counts a negative trim has still to delete: edges to come that do not count (R17, R546). -/
  drop : Nat := 0
  /-- A new T of an automatic update, for the next second boundary (R550). -/
  pendingTrim : Option Int := none
  /-- The automatic-trim window in progress (R548). -/
  window : Option TrimWindow := none
  /-- A window against the beacon source has ended in sleep; whether the source was steady through it (R549). -/
  measure : Option Bool := none
  deriving DecidableEq, Repr

/-! ### Scheduler -/

/-- A posted request (R145). -/
structure Request where
  who : Consumer
  cls : Class
  mask : Nat
  /-- Resources it fences beside its own (R386). -/
  fence : Nat := 0
  kind : LeaseKind
  freeAt : Option Nat := none
  air : AirUse := .none
  posted : Nat := 0
  /-- Promoted by the starvation guard for its next grant (R165). -/
  promoted : Bool := false
  /-- A top-up of a holder (R154). -/
  topUp : Bool := false
  /-- Resources reserved for it at the last decision (R159, R163, R166). -/
  reserved : Nat := 0
  /-- Resources it found not free at some grant point (R179 MAXWAIT). -/
  waitedOn : Nat := 0
  /-- When its wait for `CXGNT` began, or for a scheduled item when `CXREQ` rose for it (R169, R171). -/
  cxSince : Option Nat := none
  deriving DecidableEq, Repr

/-- A grant and its lease (R150, R151). -/
structure Grant where
  who : Consumer
  cls : Class
  mask : Nat
  /-- Resources it fences beside its own, to its end (R386). -/
  fence : Nat := 0
  kind : LeaseKind
  air : AirUse := .none
  since : Nat := 0
  until_ : Nat := 0
  warned : Bool := false
  extended : Bool := false
  /-- Its lease was cut, for a fence or for a request that stands ahead (R157, R159). -/
  shortened : Bool := false
  /-- Granted from C3 credit (R166). -/
  credited : Bool := false
  topUp : Bool := false
  /-- The grant of a promoted C2 request, which is C1 for this grant (R165). -/
  promoted : Bool := false
  /-- The grant of a scheduled C0 item, whose fence it keeps to its end (R157). -/
  scheduled : Bool := false
  /-- The partner of a paired dual grant (R164). -/
  partner : Option Consumer := none
  /-- Chains of its partner's set that its own work samples too (R164, R181). -/
  shared : Nat := 0
  deriving DecidableEq, Repr

/-- A node or member of the sharing tree (R162, R610). -/
inductive WNode where
  | root
  | hedge (n : Nat)
  | own (n : Nat)
  | rp (n : Nat)
  | loose
  | link
  | xarb
  | entry (i : Nat)
  deriving DecidableEq, Repr

/-- A child's deficit and arrival (R163). -/
structure Credit where
  node : WNode
  d : Int := 0
  arrived : Bool := false
  deriving DecidableEq, Repr

/-- The walk of R163: each node's pointer, each child's deficit. -/
structure Walk where
  ptrs : List (WNode × WNode) := []
  credits : List Credit := []
  deriving DecidableEq, Repr

/-- An operation that waits for its resource: the request that its consumer posts for it, and the command that carries it out once
granted (log entry 35). -/
structure WaitOp where
  req : Request
  cmd : Instr
  deriving DecidableEq, Repr

/-- Scheduler beside its registers (R144–R174). -/
structure Sched where
  requests : List Request := []
  grants : List Grant := []
  walk : Walk := {}
  /-- C3 credit K in units of 0.001 µs (R166). -/
  credit : Nat := 0
  /-- When K was last brought up to date (R166). -/
  creditAt : Nat := 0
  /-- When `CXREQ` last rose (R147, R169). -/
  cxreqAt : Nat := 0
  /-- When `CXPRI` last rose (R169). -/
  cxpriAt : Nat := 0
  /-- Start of the latest forced gap per path (R167). -/
  gapAt : List (Nat × Nat) := []
  /-- The item and instance for which a forced gap was last posted, per path (R167). -/
  gapFor : List (Nat × (Nat × Nat)) := []
  /-- `XREQ` must be seen low before the next external request (R172). -/
  xreqSpent : Bool := false
  /-- When `XREQ` fell after a lease end (R172). -/
  xreqLow : Option Nat := none
  /-- A grant point whose decision is due (R146). -/
  point : Bool := false
  /-- `CXREQ`, and `CXPRI`, have been high for LEAD (R147, R169). -/
  cxLead : Bool := false
  cxpriLead : Bool := false
  /-- Operations that wait for a grant of their consumer, oldest first (R22, R145; log entry 35). -/
  ops : List WaitOp := []
  deriving DecidableEq, Repr

/-! ### Radio -/

/-- A transmit command held while its path settles (R192). -/
structure HeldTx where
  /-- When the hold began; none when the command met no settling path. -/
  since : Option Nat
  use_ : PathUse
  port : Nat
  index : Nat
  deriving DecidableEq, Repr

/-- One path beside its fields of `RAD_STATE` and `RAD_TXx_STAT` (R181–R196, R201). -/
structure PathSt where
  /-- Channel code being settled or in use. -/
  chan : Nat := 0
  /-- What the tune is for. -/
  use_ : PathUse := .rxon
  /-- When SETTLE was entered. -/
  settleAt : Nat := 0
  /-- The slot whose stored word is in use (R188). -/
  slot : Option Nat := none
  /-- The slot whose stored word failed to lock (R188, R190). -/
  slotFailed : Option Nat := none
  /-- A full calibration that outlives a LOCKTIMEOUT: its channel, and the slot that failed before it (R193). -/
  fullCal : Option (Nat × Option Nat) := none
  /-- The synthesiser is locked and its carrier waits for ramp-up (R194). -/
  locked : Bool := false
  /-- The transmit command held (R192). -/
  held : Option HeldTx := none
  /-- The slot in hand receives at 1.6 GS/s, as its first entry to RXON decided (R384). -/
  low : Option Bool := none
  /-- No carrier has ramped up since the path left IDLE (R201). -/
  fromIdle : Bool := true
  /-- The read point assigned to the path's port (R196). -/
  readPoint : Option Nat := none
  /-- When this carrier last ramped up (R213, R216). -/
  rampAt : Nat := 0
  /-- Injector vector per chain, signed I and Q (R211–R213). -/
  vectors : Vector (Int × Int) 4 := Vector.replicate 4 (0, 0)
  /-- The refinement of this carrier is over (R209). -/
  refined : Bool := false
  /-- Residual of this carrier after the injector per chain, in −1 dBm units (R209, R213). -/
  resid : Vector Nat 4 := Vector.replicate 4 127
  deriving DecidableEq, Repr

/-- Radio beside its registers (R180–R226). -/
structure Radio where
  a : PathSt := {}
  b : PathSt := {}
  /-- Read points assigned to ports UP0–UP3 (R196). -/
  assigned : Vector (Option Nat) 4 := Vector.replicate 4 none
  /-- Chains that are switching their sample rate (R205). -/
  switching : List Nat := []
  /-- Chains whose LNA step may not move before the time given (R208). -/
  dwellUntil : Vector Nat 4 := Vector.replicate 4 0
  /-- Levels of `UPAENk` (R203). -/
  paOn : Vector Bool 2 := Vector.replicate 2 false
  /-- Power entries recalibrated since the start: on a port with an external PA the others are referred to the internal
  detector (R199). -/
  paMeasured : List Nat := []
  /-- Chains whose gain is chosen and held in READ (R209). -/
  gainHeld : List Nat := []
  deriving DecidableEq, Repr

/-! ### Slate -/

/-- One cached entry (R243). -/
structure CacheLine where
  index : Nat
  bytes : List Byte
  grantedAt : Nat := 0
  deriving DecidableEq, Repr

/-- What the Slate loader is doing (R248, R249). -/
inductive SltJob where
  | write
  | erase
  deriving DecidableEq, Repr

/-- A SLATE_WRITE or ERASE in progress (R248). -/
structure SltWork where
  job : SltJob
  index : Nat
  bytes : List Byte
  /-- The second programming of step 4. -/
  retry : Bool := false
  /-- Read back good, waiting for the grant that holds the entry. -/
  ready : Bool := false
  deriving DecidableEq, Repr

/-- Slate beside its registers (R238–R250). -/
structure Slate where
  /-- Entries in force: index and 64 bytes, rising (the summary of R243 and what the engines read). -/
  entries : List (Nat × List Byte) := []
  cache : List CacheLine := []
  work : Option SltWork := none
  /-- Sectors served from the SRAM copy after NORWRITE, by first byte address (R248). -/
  copied : List (Nat × List Byte) := []
  /-- Periodic entries that are pending (R241). -/
  pendingSet : List Nat := []
  /-- When the previous grant of an entry ended, from which its PERIOD runs (R241). -/
  ended : List (Nat × Nat) := []
  deriving DecidableEq, Repr

/-! ### Bramble -/

/-- A reader command on the air (R252). -/
inductive AirCmd where
  | select (list item : Nat)
  | query (q : Nat) (targetB : Bool)
  | queryRep
  | queryAdjust (upDn : Nat)
  | ack (rn : BitVec 16)
  | nak
  | reqRn
  /-- A program step: its OP, its two words, which of its commands this is where it has several (the words of a WRITE, the halves of
  a password), and the pool words it sends (R272, R273, R275). -/
  | step (op : Nat) (word : Word) (arg : Word) (part : Nat) (data : List (BitVec 16))
  | authenticate (keyId : Nat) (challenge : BitVec 80)
  deriving DecidableEq, Repr

/-- Where a round stands between commands (R266, R268, R273). -/
inductive RoundPhase where
  /-- A slot is open. -/
  | slot
  /-- An ACK was sent; repeats made so far. -/
  | acked (rn : BitVec 16) (captured : Bool) (tries : Nat)
  /-- A program step is on the air; its number and the repeats made so far. -/
  | step (n tries : Nat)
  /-- An AUTH response waits for Flint (R276). -/
  | flint (n : Nat) (keySlot : Nat)
  deriving DecidableEq, Repr

/-- The read that started a program (R269, R289). -/
structure ReadInfo where
  chan : Nat
  pc : BitVec 16
  epc : List (BitVec 16)
  level : Nat
  q64 : Nat
  deriving DecidableEq, Repr

/-- One round on one path (R258–R287). -/
structure Round where
  entry : Nat
  immediate : Bool := false
  prog : Option Nat := none
  maxTags : Nat := 0
  paired : Bool := false
  /-- The receive chains of an immediate access; 0 for those of each leaf (R267, R277). -/
  rxMask : Nat := 0
  /-- Leaves not yet visited after the present one. -/
  leaves : List Nat := []
  leaf : Nat := 0
  deadline : Nat := 0
  targetB : Bool := false
  phase : RoundPhase := .slot
  qfp : Nat := 0
  q : Nat := 0
  nslot : Nat := 0
  empties : Nat := 0
  /-- Tags singulated in the cycle in hand. -/
  singulated : Nat := 0
  /-- Channel in use and when its SETTLE was entered. -/
  chan : Nat := 0
  settleAt : Nat := 0
  /-- HOPIVL has passed; the path hops at the next slot boundary (R285). -/
  hopDue : Bool := false
  read : Option ReadInfo := none
  /-- Steps of the program reported so far: OP, RES, tag error, data words (R289). -/
  results : List (Nat × Nat × Nat × List Word) := []
  challenge : BitVec 80 := 0
  tagsOk : Nat := 0
  visits : Nat := 0
  reads : Nat := 0
  slots : Nat := 0
  collisions : Nat := 0
  emptySlots : Nat := 0
  captures : Nat := 0
  hops : Nat := 0
  deriving DecidableEq, Repr

/-- The account of one channel (R283). Times in CLK100 cycles. -/
structure Account where
  chan : Nat
  run : Nat := 0
  barredUntil : Option Nat := none
  /-- Carrier-on time per bin, the present bin first. -/
  bins : List Nat := []
  /-- When the carrier on this channel last came up; none while off. -/
  onSince : Option Nat := none
  offAt : Nat := 0
  deriving DecidableEq, Repr

/-- Bramble beside its registers (R252–R297). -/
structure Brm where
  a : Option Round := none
  b : Option Round := none
  accounts : List Account := []
  /-- When the present bin began (R283). -/
  binAt : Nat := 0
  /-- When the last round ended, which is a round boundary (R38). -/
  endedAt : Option Nat := none
  /-- Commands sent in the last step, oldest first. -/
  sent : List (RfPath × AirCmd) := []
  /-- Per entry: last channel position used (LIST mode) and next target of ALTAB (R261, R286). -/
  lastChan : List (Nat × Nat) := []
  altB : List (Nat × Bool) := []
  /-- Entries held back until one of their channels qualifies (R287). -/
  holds : List Nat := []
  /-- The immediate access accepted: entry, target, program, receive chains, tags (R277). -/
  imm : Option (Nat × Nat × Nat × Nat × Nat) := none
  /-- The data pool in force and its shadow, 128 tag words (R275). -/
  pool : List (BitVec 16) := List.replicate 128 0
  poolShadow : List (BitVec 16) := List.replicate 128 0
  deriving DecidableEq, Repr

/-! ### Sightings and journal -/

/-- One sighting entry (R451). Offsets in ms; 0xFFFF for none. -/
structure Sighting where
  id : List Byte
  first : Nat
  last : Nat
  /-- CLK100 times of the first and latest read, for elapsed time (R451, R453). -/
  firstAt : Nat
  lastAt : Nat
  rpMask : Nat := 0
  count : Nat := 0
  hold : Nat := 0
  pc : Nat := 0
  flags : Nat := 0
  upFirst : Nat := 0xFFFF
  dnFirst : Nat := 0xFFFF
  upPeak : Nat := 0xFFFF
  dnPeak : Nat := 0xFFFF
  peak : Nat := 0xFF
  upLvl : Nat := 0xFF
  dnLvl : Nat := 0xFF
  tech : Nat
  zone : Nat
  dgrp : Nat := 0x7F
  peakRp : Nat := 0
  /-- Open across a time step (R461). -/
  stepped : Bool := false
  deriving DecidableEq, Repr

/-- Counts of one traffic interval of one zone (R459, R461). -/
structure Interval where
  /-- Q64 start, and the whole seconds of the boundary that ends it. -/
  start : Nat
  stop : Nat
  fwd : Nat := 0
  rev : Nat := 0
  none_ : Nat := 0
  early : Nat := 0
  sat : Bool := false
  partial_ : Bool := false
  deriving DecidableEq, Repr

/-- The traffic counters of one zone: the filling interval and the ended ones that wait for their reports, oldest first: one while the
core is awake, more where boundaries pass in sleep (R460). -/
structure Zone where
  code : Nat
  filling : Interval
  ended : List Interval := []
  deriving DecidableEq, Repr

/-- A read on its way to the table (R269, R450). -/
structure TagRead where
  tech : Nat
  id : List Byte
  longId : Bool := false
  rp : Nat
  /-- The channel code of a UHF read (R269). -/
  chan : Nat := 0
  q64 : Nat
  at_ : Nat
  level : Nat
  pc : Nat := 0
  dup : Bool := false
  /-- The Slate entry's HOLD and REPORT. -/
  hold : Nat := 0
  report : Nat := 0
  /-- Time was stepped while it waited for the table (R461). -/
  stepped : Bool := false
  deriving DecidableEq, Repr

/-- Sightings beside their registers (R450–R463). -/
structure Sgt where
  /-- Open entries: number and content, rising. -/
  open_ : List (Nat × Sighting) := []
  /-- Reads formed and not yet merged, oldest first (R31). -/
  waiting : List TagRead := []
  zones : List Zone := []
  /-- TRFLEN of the interval being filled, in minutes (R461). -/
  trfLen : Nat := 15
  /-- HOLD, MAXOPEN and DIRGAP in force since the last tick (R463). -/
  hold : Nat := 0x12C
  maxOpen : Nat := 0x3C
  dirGap : Nat := 5
  /-- The bytes of freed entries, as their closure left them (R463). -/
  freed : List (Nat × List Byte) := []
  deriving DecidableEq, Repr

/-- A journal record in a page buffer (R471): its whole units. -/
abbrev JRecord := List Byte

/-- One NAND page: number and bytes; a page that is not listed is erased (R468). -/
abbrev NandPages := List (Nat × List Byte)

/-- A neighbour as a frame-counter checkpoint holds it (R476): EUI-64, FC, entry index, HEARD. -/
structure CkptNbr where
  eui : Nat
  fc : Nat
  index : Nat
  heard : Bool
  deriving DecidableEq, Repr

/-- The newest complete frame-counter checkpoint (R416, R476). -/
structure LinkCkpt where
  next : Nat
  epoch : Nat
  origin : Nat
  nbrs : List CkptNbr
  deriving DecidableEq, Repr

/-- The newest complete duty checkpoint (R421, R476): its Q64 time, and the bins of each sub-band with a record, newest
first. -/
structure DutyCkpt where
  time : Nat
  bins : List (Nat × List Nat)
  deriving DecidableEq, Repr

/-- Journal beside its registers (R468–R483). What META pages hold is kept decoded here too, with the newest checkpoints. -/
structure Journal where
  nand : NandPages := []
  /-- Blocks of the NAND fitted, and byte 0 of the spare area of the page 0 of blocks where it is not 0xFF: their maker marked
  them bad (R468). -/
  nblk : Nat := 8192
  spare : List (Nat × Byte) := []
  /-- Feature address 0xA0 of the NAND, its block protection (R468; log entry 42). -/
  feature : Byte := 0x38
  bad : List Nat := []
  /-- Meta pool and the page of the next META (R469). -/
  mpool : List Nat := []
  metaAt : Nat := 0
  mseq : Nat := 0
  fmtId : Nat := 0
  mounts : Nat := 0
  fcPos : Nat := 0
  dutyPos : Nat := 0
  /-- TIME of the sets at FCPOS and DUTYPOS, and the programmed records, with their positions, of a set of each kind that is not whole
  yet (R476). -/
  fcTime : Nat := 0
  dutyTime : Nat := 0
  fcOpen : List (Nat × JRecord) := []
  dutyOpen : List (Nat × JRecord) := []
  /-- A checkpoint of each kind is due and waits for its turn (R416, R421). -/
  fcDue : Bool := false
  dutyDue : Bool := false
  ckpt : Option LinkCkpt := none
  duty : Option DutyCkpt := none
  /-- PSEQ of the next page, PSEQ of page 0 of HEAD, the next page of the head block. -/
  pseq : Nat := 0
  headPseq : Nat := 0
  page : Nat := 0
  /-- Data blocks from TAIL to HEAD. -/
  ring : List Nat := []
  /-- Erased blocks ahead of the head, the next first (R478). -/
  erased : List Nat := []
  /-- Blocks entered since the last META for that reason (R469). -/
  entered : Nat := 0
  /-- Records of the page buffer in hand, and when the first came (R477). -/
  buffer : List JRecord := []
  bufferAt : Nat := 0
  /-- Pages closed and waiting to be programmed, oldest first. -/
  full : List (List JRecord) := []
  /-- Words that the writer has taken of a packet not yet whole, and whether one of them was uncorrectable (R492, R501). -/
  inHand : List Word := []
  inHandBad : Bool := false
  /-- The latest CONFIG record of each block and instance since mount, from its byte 2 on (R478). -/
  configs : List ((Nat × Nat) × JRecord) := []
  /-- The page in the read buffer, and the NAND page that the last read command chose (R482). -/
  readBuf : List Byte := []
  readPage : Nat := 0
  /-- Pages that a read has found uncorrectable (R470), and blocks of the NAND whose programs and erases fail (R479; log entry 42). -/
  uce : List Nat := []
  failProg : List Nat := []
  failErase : List Nat := []
  deriving DecidableEq, Repr

/-- The memory port (R464–R467). -/
structure Mem where
  /-- The serial NOR, 16 MB; an unlisted byte reads 0xFF (R79, R240). -/
  nor : Bytes := []
  /-- The command bytes that the last choice of an image sent on the memory port, in order (R80). -/
  sent : List Byte := []
  deriving DecidableEq, Repr

/-! ### HF engine -/

/-- A reader frame of the HF engine (R304, R311–R324). -/
inductive HfCmd where
  | reqa (wup : Bool)
  | anticollision (level known : Nat) (bits : BitVec 40)
  | select (level : Nat) (uid : List Byte)
  | hlta
  | rats (fsdi : Nat)
  | reqb (wup : Bool) (afi n : Nat)
  | slotMarker (slot : Nat)
  /-- With FSDI and the rates of Param 2 (R318, R319). -/
  | attrib (pupi : List Byte) (fsdi dr ds : Nat)
  | hltb (pupi : List Byte)
  | inventory (oneSlot : Bool) (afi : Option Nat) (maskLen mask : Nat)
  | nextSlot
  | stayQuiet (uid : Nat)
  | aes1 (uid slot : Nat) (rnr : List Byte)
  | aes2 (uid : Nat) (e2 : List Byte)
  | sensf (sys rc slots : Nat)
  | pps (dr ds : Nat)
  /-- S(PARAMETERS) with the rates of both directions (R319). -/
  | sParam (dr ds : Nat)
  | iBlock (num chaining : Bool) (inf : List Byte)
  | rAck (num : Bool)
  | rNak (num : Bool)
  | wtx (wtxm : Nat)
  | deselect
  | raw (crc : Bool) (txbits : Nat) (bytes : List Byte)
  deriving DecidableEq, Repr

/-- How a reader frame goes out (R304): the modulation index in %; the rates of the two directions in the codes of R239; for
ISO/IEC 15693, 1-of-256 coding, the high rate and the double subcarrier of the answer. -/
structure HfFraming where
  index : Nat := 100
  dr : Nat := 0
  ds : Nat := 0
  wide : Bool := false
  fast : Bool := false
  dual : Bool := false
  deriving DecidableEq, Repr

/-- What the driver holds while the field is on (R301): the port's tuning word, the drive step, and `HF_DRV` as it stood at the
field-on, with the modulation indices (R303). -/
structure HfDrive where
  tune : Word
  step : Nat
  drv : Word := 0
  deriving DecidableEq, Repr

/-- A branch of Type A anticollision (R311): the level, the UID bytes of the levels before, the known bits. -/
structure HfBranch where
  level : Nat
  uid : List Byte
  known : Nat
  bits : BitVec 40
  deriving DecidableEq, Repr

/-- A card on its way to its report (R308, R329): identifier, bits [31:8] of word 3, EXTRA bytes, Type B protocol bytes. -/
structure HfCard where
  uid : List Byte
  w3 : Nat := 0
  extra : List Byte := []
  proto : List Byte := []
  dup : Bool := false
  /-- The end of the card's last identifying frame: its Q64 time, and CLK100 cycles (R308). -/
  q64 : Nat := 0
  at_ : Nat := 0
  deriving DecidableEq, Repr

/-- An ISO/IEC 14443-4 exchange (R320–R324). -/
structure HfXchg where
  /-- Pieces of the APDU not yet acknowledged, the one in flight first. -/
  tx : List (List Byte)
  /-- Answer bytes gathered; those past 4,096 are dropped. -/
  rx : List Byte := []
  overflow : Bool := false
  /-- The card is chaining, so that a retry is an R(ACK). -/
  acking : Bool := false
  retries : Nat := 0
  /-- S(DESELECT) was sent after the last retry. -/
  desel : Bool := false
  /-- When the device's last I-block ended (R322). -/
  sentAt : Nat
  wtx : Nat := 0
  retrans : Nat := 0
  deriving DecidableEq, Repr

/-- Where a visit or a session stands (R306–R328). -/
inductive HfPhase where
  | foff
  | guard
  | reqA
  | anti (b : HfBranch) (repeated : Bool)
  | selA (level : Nat) (uid : List Byte) (bits : BitVec 40)
  | rats (c : HfCard)
  | desel
  | slotB (slot : Nat)
  | attrib (c : HfCard)
  /-- A PPS or S(PARAMETERS) is out: the rates it asks for, and those in use (R319). -/
  | rate (c : HfCard) (new old : Nat × Nat)
  | slotV (one : Bool) (maskLen mask slot : Nat)
  | authV1 (c : HfCard) (rnr : List Byte)
  /-- The second pass waits for Flint (R317, R154). -/
  | authHold (c : HfCard) (rnr : List Byte)
  | authV2 (c : HfCard)
  | slotF (slot : Nat)
  /-- The session is open and waits for a command. -/
  | open_
  | xchg (x : HfXchg)
  | raw
  deriving DecidableEq, Repr

/-- A visit of a poll, or a host session (R306, R325). -/
structure HfVisit where
  entry : Nat
  session : Bool
  /-- The leaf in hand and those still to visit. -/
  leaf : Nat
  leaves : List Nat
  startedAt : Nat
  phase : HfPhase
  /-- No request of the visit has been sent yet (R315, R316). -/
  first : Bool := true
  stack : List HfBranch := []
  /-- Masks of collided ISO/IEC 15693 slots still to resolve: length and value. -/
  masks : List (Nat × Nat) := []
  /-- Cards answered in the slots of the round in hand, still to be dealt with. -/
  queue : List HfCard := []
  /-- A slot of the round collided; rounds repeated; the N of Type B. -/
  hit : Bool := false
  rounds : Nat := 0
  bN : Nat := 0
  atqa : Nat := 0
  sak : Nat := 0
  seen : List (List Byte) := []
  cards : Nat := 0
  collisions : Nat := 0
  more : Bool := false
  /-- Session: the command in progress, the block number, FSC. -/
  op : Nat := 0
  num : Bool := false
  fsc : Nat := 256
  /-- The rates of an activated card, reader to card first (R319). -/
  dr : Nat := 0
  ds : Nat := 0
  deriving DecidableEq, Repr

/-- HF engine beside its registers (R298–R330). -/
structure Hf where
  visit : Option HfVisit := none
  /-- The entry and target of an OPEN that waits for its grant (R325). -/
  opening : Option (Nat × Nat) := none
  /-- When the field went off, on ports whose minimum field-off time has not been seen to pass (R302). -/
  foff : Vector (Option Nat) 2 := Vector.replicate 2 none
  /-- What the driver holds while the field is on (R301). -/
  drive : Option HfDrive := none
  /-- The framing of the last reader frame (R304). -/
  framing : HfFraming := {}
  /-- The earliest time of the next reader frame, which is the end of the last one at least; and when the answer window of the
  last frame ends (R307, R321, R325). -/
  nextAt : Nat := 0
  answerBy : Option Nat := none
  /-- The frame waiting time in force, in CLK100 cycles (R150, R323). -/
  fwt : Nat := 0
  /-- The waiting time that an S(WTX) has asked for, while it runs (R322, R323). -/
  wtx : Nat := 0
  /-- Frames sent in the last step, oldest first. -/
  sent : List HfCmd := []
  /-- Transmit and receive buffers by word; an unlisted word is 0 (R328). -/
  tx : RegFile := []
  rx : RegFile := []
  deriving DecidableEq, Repr

/-- Gorse beside its registers (R331–R335). -/
structure Gorse where
  /-- The baseline B in sense units, 8 fraction bits. -/
  re : Int := 0
  im : Int := 0
  /-- Pings summed for a rebuild, and their sum (R333). -/
  sum : List (Int × Int) := []
  /-- A confirming ping is awaited (R332). -/
  confirm : Bool := false
  /-- A detection since the last entry to WATCH (R333). -/
  detected : Bool := false
  deriving DecidableEq, Repr

/-! ### Tag -/

/-- A host WRITE that waits for its commit point (R367). -/
structure TagStaged where
  check : Bool
  gen : Nat
  page : Nat
  bytes : List Byte
  /-- The field wrote the page since the WRITE was accepted. -/
  fieldWrote : Bool := false
  deriving DecidableEq, Repr

/-- The status snapshot (R364). -/
structure TagSnapshot where
  denied : Nat
  time : Nat
  words : List Word
  deriving DecidableEq, Repr

/-- The key store beside the tag store (R347): the words of the TAG set from `TAG_CFG` to `TAG_STATLIST3`, and the enabled
passwords by slot. The failure count has its one home in `TAG_STAT.FAILS`. -/
structure TagMirror where
  set : List Word := [0x0000C000, 0x00C00080, 0, 0, 0xFFFFFFFF, 0xFFFFFFFF, 0xFFFFFFFF, 0xFFFFFFFF, 0xFFFFFFFF]
  passwords : List (Nat × List Byte) := []
  deriving DecidableEq, Repr

/-- AES1 answered: the key slot, RnR and RnT (R357). -/
structure TagAes where
  slot : Nat
  rnr : List Byte
  rnt : List Byte
  deriving DecidableEq, Repr

/-- Tag beside its registers (R344–R376). -/
structure Tag where
  /-- The committed contents of the 256 pages: byte 256p + k (R348, R350). -/
  store : Bytes := []
  /-- Fault records that wait to be written into the fault-log ring (R361). -/
  copies : List (List Word) := []
  /-- RN, kept until a password attempt or power-off (R355). -/
  rn : Option (BitVec 16) := none
  aes : Option TagAes := none
  /-- The later of the last failure and the last field-on (R359). -/
  lockFrom : Nat := 0
  snap : Option TagSnapshot := none
  staged : Option TagStaged := none
  /-- Page generations that are not 0 (R368). -/
  gens : List (Nat × Nat) := []
  /-- Fault-log ring: the next slot, the records held, the SEQ last given (R361). -/
  logPos : Nat := 0
  logCount : Nat := 0
  logSeq : Nat := 0
  mirror : TagMirror := {}
  /-- TGE packets of events in DORMANT and WATCH (R372). -/
  later : List (List Word) := []
  /-- The last reply, from its flags byte to before its CRC; none where the last request got none (R352). -/
  reply : Option (List Byte) := none
  /-- The slot of the last Inventory reply. -/
  slot : Nat := 0
  deriving DecidableEq, Repr

/-! ### Timers -/

/-- What has come to a timer in the CLK100 cycle in hand (R529). -/
structure TmrCycle where
  /-- Its events, by code: 0 ZERO, 1 to 4 CMP0 to CMP3, 5 CAP, 6 OVR (R524). -/
  evts : Nat := 0
  /-- Its trigger inputs that have acted (R524). -/
  acted : Nat := 0
  /-- A value written to `TMRn_CNT`, which the counter takes in the next cycle; and it has taken one in this cycle (R514). -/
  newCnt : Option Word := none
  cntSet : Bool := false
  /-- A RESET came (R529). -/
  reset : Bool := false
  /-- BUF before a write of this cycle (R513). -/
  oldBuf : Option Word := none
  /-- Compare values that armed channels held before a write of this cycle (R529). -/
  oldCmp : List (Nat × Word) := []
  /-- `TMR_SNAP` named it (R516). -/
  snapped : Bool := false
  /-- A capture that found the queue full; OVR and interrupt 53 as they stood before it (R529). -/
  lost : Option (Word × Bool × Bool) := none
  /-- The CMD that `TMR_GCMD` brought it; 0 for none (R529). -/
  gcmd : Nat := 0
  deriving DecidableEq, Repr

/-- An output in the cycle in hand: its level before the cycle's events, and whether SETEVT, or CLREVT, has come (R525). -/
structure Tout where
  was : Option Bool := none
  set : Bool := false
  clr : Bool := false
  deriving DecidableEq, Repr

/-- One timer beside its registers (R510–R524). -/
structure Tmr where
  /-- Source edges since the last count (R510). -/
  psc : Nat := 0
  /-- BUF as sampled at the last wrap or RESET (R513). -/
  buf : Word := 0
  /-- The capture queue, oldest first (R523). -/
  caps : List Word := []
  /-- Channels armed in this cycle, and channels whose first evaluation is this cycle's, as masks (R519). -/
  fresh : Nat := 0
  first : Nat := 0
  /-- Channels whose first evaluation found the value passed, as a mask (R519). -/
  late : Nat := 0
  /-- When the counter last wrapped, which is the boundary of its shadow set (R38). -/
  wrapAt : Option Nat := none
  /-- A count of this cycle is the wrap, which waits for its command. -/
  due : Bool := false
  /-- The cycle in hand, and the events of the cycle before (R524). -/
  cyc : TmrCycle := {}
  prev : Nat := 0
  deriving DecidableEq, Repr

/-! ### Node link -/

/-- A queued data frame (R406, R407). -/
structure LnkTx where
  payload : List Byte
  dest : Nat
  ar : Bool
  anytime : Bool
  tag : Nat
  life : Nat
  queuedAt : Nat
  seq : Nat
  attempts : Nat := 0
  /-- The counter it took and its PSDU before the FCS, once secured. -/
  secured : Option (Nat × List Byte) := none
  deriving DecidableEq, Repr

/-- What the link MAC is doing in its slot (R408–R410, R427). -/
inductive LnkAct where
  | idle
  /-- A listen before the head frame: be, nb, and whether a reading was busy. -/
  | listen (be nb : Nat) (busy : Bool)
  | backoff (be nb : Nat)
  /-- The wait between two attempts (R409). -/
  | retry
  /-- The head frame waits for Flint before its first listen (R405, R407). -/
  | securing
  | tx
  | ackWait
  | listenBeacon (busy : Bool)
  | txBeacon
  deriving DecidableEq, Repr

/-- A link slot granted (R422): what the engine runs on. -/
structure LnkSlot where
  kind : SlotKind
  src : Nat := 0
  entry : Nat
  rp : Nat
  chan : Nat
  /-- Its free time, in Q64 time. -/
  free : Nat := 0
  deriving DecidableEq, Repr

/-- A frame in reception past its SFD (R390–R396). -/
structure LnkRx where
  level : Nat
  snr : Nat
  erased : Nat
  stamp : Nat
  /-- The CLK100 time of the stamp point. -/
  at_ : Nat
  preemptor : Bool := false
  phr : Option LinkPhr := none
  /-- The CLK100 time of its end (R410). -/
  endAt : Nat := 0
  deriving DecidableEq, Repr

/-- A frame received whose opening waits for Flint (R394, R405): its reception, its slot, and its octets before the FCS. -/
structure LnkHeld where
  rx : LnkRx
  slot : LnkSlot
  octets : List Byte
  deriving DecidableEq, Repr

/-- A frame as it goes on the air (R381, R382, R395, R403): the octets before the FCS; preamble octets and SFD, 0 in the OFDM modes; the
PHR, and the scrambler seed of the OFDM modes; the PSDU with its FCS, whitened where the PHR says so; and the Q64 time of the stamp
point. -/
structure LnkAir where
  octets : List Byte
  preamble : Nat
  sfd : Nat
  phr : LinkPhr
  seed : Nat
  psdu : List Byte
  stamp : Nat
  deriving DecidableEq, Repr

/-- The working state of a neighbour entry beside its registers (R412–R415, R430–R432). -/
structure LnkNbr where
  heard : Bool := false
  mic : List Byte := []
  /-- FC at the last checkpoint (R416). -/
  ckptFc : Nat := 0
  node : Nat := 0xFFFF
  /-- Tracking state of a source: 2 TRACKED, 3 MISSING, 4 STALE, 5 LOST (R415). -/
  track : Nat := 4
  /-- Consecutive windows missed since the last beacon, and the search window j. -/
  missed : Nat := 0
  search : Nat := 0
  hops : Nat := 0xFF
  level : Nat := 0xFF
  heardAt : Nat := 0
  epoch : Nat := 0
  origin : Nat := 0
  /-- Q64 time of the start of its last beacon, freed of the shifts applied (R431). -/
  startAt : Int := 0
  /-- Beacons of the fit, newest first: local Q64 time, and TIME minus it corrected for shifts (R430). -/
  samples : List (Int × Int) := []
  /-- NEXT of the last beacon; none before one was heard. -/
  nextBi : Option Nat := none
  /-- A window is posted or open; the part of it in µs still to post; its beacon came (R424, R432). -/
  window : Bool := false
  left : Nat := 0
  got : Bool := false
  /-- The CLK100 time at which the next abutting part of its window starts (R424). -/
  segAt : Nat := 0
  deriving DecidableEq, Repr

/-- A beacon's Ranelo IE (R428). -/
structure Ranelo where
  epoch : Nat
  origin : Nat
  sender : Nat
  time : Nat
  next : Nat
  hops : Nat
  deriving DecidableEq, Repr

/-- A listen window planned before a sleep (R426): its kind and source, its start in Q64 time and its length in µs. -/
structure LnkWindow where
  kind : SlotKind
  src : Nat
  free : Nat
  len : Nat
  deriving DecidableEq, Repr

/-- Link beside its registers (R377–R449). -/
structure Lnk where
  queue : List LnkTx := []
  act : LnkAct := .idle
  slot : Option LnkSlot := none
  rx : Option LnkRx := none
  /-- The Imm-Ack owed: sequence number and when it starts (R410). -/
  owed : Option (Nat × Nat) := none
  /-- Next frame counter, and that of the newest checkpoint (R407, R416). -/
  next : Nat := 0
  ckptV : Nat := 0
  /-- Sequence numbers of data frames and of beacons (R403). -/
  seq : Nat := 0
  bseq : Nat := 0
  /-- Working state of neighbour entries, by entry; one not listed is as new. -/
  nbrs : List (Nat × LnkNbr) := []
  /-- Airtime bins in ms of each sub-band, the present bin first (R420), and the accounts at the last duty checkpoint. -/
  bins : Vector (List Nat) 8 := Vector.replicate 8 []
  dutyMark : Vector Nat 8 := Vector.replicate 8 0
  /-- Retired pairs, newest first (R438), and the pair beaconed while converging. -/
  retired : List (Nat × Nat) := []
  oldPair : Option (Nat × Nat) := none
  /-- Beaconing has stopped after holdover (R436). -/
  silent : Bool := false
  /-- The source searched as candidate (R433). -/
  cand : Option Nat := none
  /-- Shifts and steps applied to local time, in Q64 units (R430). -/
  shifted : Int := 0
  /-- The fraction of a beacon's time, in 1/32,768 s, to be shifted in after the step of R435 (R543). -/
  stepFrac : Option Nat := none
  /-- The adopted source and the epoch have not changed since the automatic-trim window began (R549). -/
  steady : Bool := false
  /-- When the last transmission ended, in CLK100 time (R409). -/
  txEnd : Nat := 0
  /-- An Imm-Ack is on the air (R410). -/
  acking : Bool := false
  /-- A stronger preamble has taken the receiver; its SFD is to come (R392). -/
  preempting : Bool := false
  /-- Slots posted or granted, by the number of their consumer; 100 is the DATA slot (R422). -/
  plans : List (Nat × LnkSlot) := []
  /-- The leaf of the next slot of a Slate entry, by entry (R422). -/
  leafPos : List (Nat × Nat) := []
  /-- Frames sent in the last step. -/
  sent : List LnkAir := []
  /-- Frames received that wait for Flint, oldest first (R405). -/
  opening : List LnkHeld := []
  /-- The frame counter that the slot's beacon has been secured with (R427). -/
  beaconFc : Option Nat := none
  /-- The windows planned for WATCH that are still to come, earliest first (R426). -/
  windows : List LnkWindow := []
  /-- Beacons received in WATCH, oldest first, which the next wake applies: neighbour entry, stamp, Ranelo IE (R63). -/
  beacons : List (Nat × Nat × Option Ranelo) := []
  deriving DecidableEq, Repr

/-! ### Calibration -/

/-- One instance of a calibration item (R561–R568). -/
structure CalInst where
  item : Nat
  inst : Nat
  due : Bool := false
  dueAt : Nat := 0
  overdue : Bool := false
  /-- When it last completed, and the temperature then. -/
  doneAt : Option Nat := none
  doneTemp : Nat := 0
  /-- Slots of item 0x01 that are due; empty for all in use. -/
  slots : List Nat := []
  /-- Steps completed and kept, and what they measured. -/
  steps : Nat := 0
  values : List (Nat × Word) := []
  figures : List Nat := []
  /-- A step runs. -/
  running : Bool := false
  /-- Its results wait to apply. -/
  staged : Bool := false
  deriving DecidableEq, Repr

/-- Calibration beside its registers (R561–R575). -/
structure Cal where
  insts : List CalInst := []
  /-- TRACE_TX in progress: port, index, channel (R570). -/
  trace : Option (Nat × Nat × Nat) := none
  /-- TRACE_RX that waits for its grant: chain, measured level in 0.01 dBm, tone offset in 10 Hz units (R145, R570). -/
  rxTrace : Option (Nat × Int × Int) := none
  /-- Corrections of a trace that wait to apply: item, instance, words (R567, R570). -/
  traced : List (Nat × Nat × List (Nat × Word)) := []
  deriving DecidableEq, Repr

/-! ### The whole -/

/-- Why the machine stops with a fault. -/
inductive Fault where
  /-- Raised by no command: the manual gives each command of the block an effect, or none. Safe. -/
  | unused
  deriving DecidableEq, Repr

/-- Why a command has no meaning. -/
inductive Refusal where
  /-- Raised by an arm of `exec` for a command that has no meaning yet. Safe: the machine stops. -/
  | notModelled (mnemonic : String)
  deriving DecidableEq, Repr

/-- The state of the block. -/
structure State where
  /-- The in-force and readable registers (R8, R576). -/
  regs : RegFile := []
  /-- Flags that the device has set in this CLK100 cycle, as masks by address: a write in the same cycle does not clear them
  (R9). -/
  fresh : RegFile := []
  /-- Staged words of shadow sets; a word not listed equals the word in force (R32, R36). -/
  shadow : RegFile := []
  /-- Accepted sets still swapping in part by part, with the parts that are left (R609). -/
  parts : List (Block × List Nat) := []
  clk : Clk := {}
  pins : Pins := {}
  modes : Modes := {}
  boot : Boot := {}
  host : HostPort := {}
  /-- Channels 0 to 8 (R484). -/
  fifo : Vector Chan 9 := Vector.replicate 9 {}
  qtz : Qtz := {}
  sched : Sched := {}
  radio : Radio := {}
  slate : Slate := {}
  brm : Brm := {}
  sgt : Sgt := {}
  jnl : Journal := {}
  mem : Mem := {}
  /-- Timers 0 to 15 (R510). -/
  tmr : Vector Tmr 16 := Vector.replicate 16 {}
  /-- Outputs 0 to 7 in the cycle in hand (R525). -/
  tout : Vector Tout 8 := Vector.replicate 8 {}
  hf : Hf := {}
  grs : Gorse := {}
  tag : Tag := {}
  lnk : Lnk := {}
  cal : Cal := {}
  /-- The model's own count of free values drawn (log entry 4). -/
  drawn : Nat := 0
  /-- Commands waiting, first in, first out. -/
  pending : List Instr := []
  deriving DecidableEq, Repr

/-- The machine right after reset: POR_BACKUP has reset Quartz, the core supplies have become valid, every register holds its
Reset column and the start with cause POR_CORE waits at step 1 (R12, R71, R101, R535, R582). -/
def State.reset : State := {}

end Sys2Proof.Machine
end

