-- ==== Sys2Proof/Machine/Ops.lean ====
section
/-! DEFINITION. The named operations over registers, byte stores, interrupts, Quartz time, Shale channels, fault records and
wake sources that the commands share. -/

namespace Sys2Proof.Machine

open Sys2Proof

/-! ### Register files -/

/-- The word stored for an address, if one is listed. -/
def regFind : RegFile → Nat → Option Word
  | [], _ => none
  | (b, w) :: m, a => if a = b then some w else regFind m a

/-- Store a word, keeping addresses rising. -/
def regPut : RegFile → Nat → Word → RegFile
  | [], a, v => [(a, v)]
  | (b, w) :: m, a, v =>
    if a = b then (a, v) :: m else if a < b then (a, v) :: (b, w) :: m else (b, w) :: regPut m a v

/-- A row of the register map holds an address (R579). -/
def RegRow.covers (r : RegRow) (a : Nat) : Bool :=
  r.base ≤ a && (a - r.base) / r.stride < r.count && (a - r.base) % r.stride < r.inner

/-- The row of the register map that holds an address. -/
def rowOf (a : Nat) : Option RegRow := (rowsAt a).find? fun r => r.covers a

/-- The address holds a register (R576). -/
def populated (a : Nat) : Bool := (rowOf a).isSome

/-- The bits of a row whose fields carry an access code. -/
def RegRow.mask (r : RegRow) (acc : Acc) : Word :=
  r.fields.foldl (fun m f => if f.acc = acc then m ||| maskOf f.hi f.lo else m) 0

/-- The bits of an address's fields that carry an access code; none at an unpopulated address. -/
def accMask (a : Nat) (acc : Acc) : Word :=
  match rowOf a with
  | some r => r.mask acc
  | none => 0

/-- The Reset column of a row as one word (R12). -/
def RegRow.resetWord (r : RegRow) : Word := r.fields.foldl (fun w f => putBits w f.hi f.lo f.reset) 0

/-- The tag UID and EUI-64 of this die (R344, R402). -/
def dieUid : Nat := 0xE0C7 * 2 ^ 48 + Config.uidLow.toNat

/-- What an address holds after reset: its Reset column, the factory power entries with VALID set (R199), the numbers fixed
per die (R582). -/
def resetWord (a : Nat) : Word :=
  if 0x800 ≤ a ∧ a ≤ 0x9FF then putBits (((Config.factoryPower (a - 0x800)).setWidth 32) &&& 0x7FFFFFF0#32) 31 31 1
  else if a = Adr.TAG_UID1 ∨ a = Adr.LNK_EUI1 then BitVec.ofNat 32 (dieUid / 2 ^ 32)
  else if a = Adr.TAG_UID0 ∨ a = Adr.LNK_EUI0 then BitVec.ofNat 32 dieUid
  else match rowOf a with
    | some r => r.resetWord
    | none => 0

/-- The in-force word at an address. -/
def reg (s : State) (a : Nat) : Word := (regFind s.regs a).getD (resetWord a)

/-- Replace the in-force word at an address. -/
def setReg (s : State) (a : Nat) (v : Word) : State := { s with regs := regPut s.regs a v }

/-- A field of the in-force word. -/
def fld (s : State) (f : Field) : Nat := bitsOf (reg s f.addr) f.hi f.lo

/-- Replace a field of the in-force word. -/
def setFld (s : State) (f : Field) (v : Nat) : State := setReg s f.addr (putBits (reg s f.addr) f.hi f.lo v)

/-- A one-bit field is set. -/
def flag (s : State) (f : Field) : Bool := fld s f == 1

/-- The flags at an address that the device has set in this CLK100 cycle (R9). -/
def freshAt (s : State) (a : Nat) : Word := (regFind s.fresh a).getD 0

/-- Set a one-bit field, and remember that it was set in this cycle (R9). -/
def setFlag (s : State) (f : Field) : State :=
  { setFld s f 1 with fresh := regPut s.fresh f.addr (freshAt s f.addr ||| maskOf f.hi f.lo) }

/-- A word with W1C flags cleared by a write of `v`: a flag set in this cycle stays (R8, R9). -/
def clearedBy (s : State) (a : Nat) (w v : Word) : Word := w &&& ~~~(v &&& accMask a .w1c &&& ~~~(freshAt s a))

/-- Clear a field. -/
def clrFld (s : State) (f : Field) : State := setFld s f 0

/-- Add to a counter field that saturates at all ones (R142, R179). -/
def incSat (s : State) (f : Field) (n : Nat) : State := setFld s f (satAdd (2 ^ (f.hi + 1 - f.lo) - 1) (fld s f) n)

/-- Add to a counter field that wraps. -/
def incMod (s : State) (f : Field) (n : Nat) : State := setFld s f ((fld s f + n) % 2 ^ (f.hi + 1 - f.lo))

/-- The staged word of a shadow set: what was written, or the word in force (R32, R36). -/
def shadowReg (s : State) (a : Nat) : Word := (regFind s.shadow a).getD (reg s a)

/-- A field of a staged word. -/
def shadowFld (s : State) (f : Field) : Nat := bitsOf (shadowReg s f.addr) f.hi f.lo

/-- Write the SH bits of a value into the shadow set. -/
def stage (s : State) (a : Nat) (v : Word) : State :=
  let m := accMask a .sh
  { s with shadow := regPut s.shadow a ((shadowReg s a &&& ~~~m) ||| (v &&& m)) }

/-- Write a word and its shadow copy in the same cycle, unless a commit is pending, which leaves the staged set as written
(R189, R568): the in-force word changes, and a staged word takes the new value with it. -/
def setRegBoth (s : State) (a : Nat) (v : Word) (pend : Bool) : State :=
  let s1 := setReg s a v
  if pend then
    match regFind s.shadow a with
    | some _ => s1
    | none => { s1 with shadow := regPut s.shadow a (reg s a) }
  else { s1 with shadow := s.shadow.filter fun p => p.1 != a }

/-- As `setRegBoth`, for one field: a staged word keeps its other fields. -/
def setFldBoth (s : State) (f : Field) (v : Nat) (pend : Bool) : State :=
  match regFind s.shadow f.addr with
  | some w =>
    let s1 := setFld s f v
    if pend then s1 else { s1 with shadow := regPut s.shadow f.addr (putBits w f.hi f.lo v) }
  | none => setRegBoth s f.addr (putBits (reg s f.addr) f.hi f.lo v) pend

/-! ### Byte stores -/

/-- What an unlisted byte of a byte store reads as: erased (R79, R240, R348). -/
def erasedByte : Byte := 0xFF

/-- The canonical form of a byte store: addresses rising, no byte equal to the erased value. -/
def bytesWf : Bytes → Bool
  | [] => true
  | [(_, v)] => v != erasedByte
  | (a, v) :: (b, w) :: m => v != erasedByte && a < b && bytesWf ((b, w) :: m)

/-- Read one byte. -/
def byteAt : Bytes → Nat → Byte
  | [], _ => erasedByte
  | (b, v) :: m, a => if a = b then v else byteAt m a

/-- Put one listed byte or take it out, keeping addresses rising. -/
def bytePut : Bytes → Nat → Byte → Bytes
  | [], a, v => if v = erasedByte then [] else [(a, v)]
  | (b, w) :: m, a, v =>
    if a = b then (if v = erasedByte then m else (a, v) :: m)
    else if a < b then (if v = erasedByte then (b, w) :: m else (a, v) :: (b, w) :: m)
    else (b, w) :: bytePut m a v

/-- Write consecutive bytes. -/
def bytesPut : Bytes → Nat → List Byte → Bytes
  | m, _, [] => m
  | m, a, v :: vs => bytesPut (bytePut m a v) (a + 1) vs

/-- Read consecutive bytes. -/
def bytesAt (m : Bytes) (a n : Nat) : List Byte := (List.range n).map fun k => byteAt m (a + k)

/-- Erase a range: every byte reads as erased. -/
def bytesErase (m : Bytes) (a n : Nat) : Bytes := m.filter fun c => c.1 < a || a + n ≤ c.1

/-! ### Free values -/

/-- Draw a fresh random value (log entry 4). -/
def drawRandom (s : State) : BitVec 128 × State := (Config.random s.drawn, { s with drawn := s.drawn + 1 })

/-- Draw a fresh free word (log entry 4). -/
def drawWord (s : State) : Word × State := (Config.freeWord s.drawn, { s with drawn := s.drawn + 1 })

/-- Draw a number of fresh free bytes (log entry 4). -/
def drawBytes : Nat → State → List Byte × State
  | 0, s => ([], s)
  | n + 1, s =>
    let r := drawBytes n s
    let d := drawWord r.2
    (r.1 ++ [d.1.setWidth 8], d.2)

/-! ### Interrupts -/

/-- The bit of an interrupt source (R130). -/
def intBit (k : Nat) : Field := if k < 32 then ⟨Adr.HSP_INT0, k, k⟩ else ⟨Adr.HSP_INT1, k - 32, k - 32⟩

/-- An event sets its source bit, whatever its mask (R130). -/
def raise (s : State) (k : Nat) : State := setFlag s (intBit k)

/-- `HIRQ_N` is driven low (R130). -/
def irqLow (s : State) : Bool :=
  reg s Adr.HSP_INT0 &&& reg s Adr.HSP_IMASK0 != 0 || reg s Adr.HSP_INT1 &&& reg s Adr.HSP_IMASK1 != 0

/-! ### Modes and time -/

/-- The mode in force (R64). -/
def mode (s : State) : Nat := fld s Fld.SYS_MODE_MODE

/-- CLK100 from the core PLL runs: in ACTIVE and above, and in WATCH for a link window (R47, R52, R63). -/
def clk100 (s : State) : Bool := (3 ≤ mode s || (mode s == 2 && s.modes.window)) && !flag s Fld.SYS_CLKSTAT_FALLBACK

/-- Change the mode in force: PREV takes the old one, MODECHG is raised (R64, R130). -/
def setMode (s : State) (m : Nat) : State :=
  if mode s = m then s
  else raise (setFld (setFld s Fld.SYS_MODE_PREV (mode s)) Fld.SYS_MODE_MODE m) 5

/-- Interpolated fraction bits of Q64 (R16, R17). -/
def interp (s : State) : Nat := if clk100 s then min 0x7FFF (s.clk.sinceEdge * 2 ^ 30 / 100000000) else 0

/-- The Q64 time now (R15, R16). -/
def q64 (s : State) : Nat := s.qtz.secs * 2 ^ 30 + s.qtz.sub * 2 ^ 15 + interp s

/-- The two words of a Q64 time, high half first. -/
def q64Words (t : Nat) : List Word := [BitVec.ofNat 32 (t / 2 ^ 32), BitVec.ofNat 32 t]

/-- CLK100 cycles of a number of µs. -/
def us (n : Nat) : Nat := 100 * n

/-- CLK100 cycles of a number of ms. -/
def ms (n : Nat) : Nat := 100000 * n

/-! ### Shale channels -/

/-- A channel's state. -/
def chan (s : State) (n : Nat) : Chan := s.fifo[n]?.getD {}

/-- Replace a channel's state. -/
def setChan (s : State) (n : Nat) (c : Chan) : State := { s with fifo := s.fifo.setIfInBounds n c }

/-- The largest packet of each channel in words (R484). -/
def chanLargest (n : Nat) : Nat := [19, 7, 144, 71, 3, 256, 6, 7, 24].getD n 0

/-- The next value of a 2-bit Gray counter (R493). -/
def grayNext (g : BitVec 2) : BitVec 2 := if g = 0 then 1 else if g = 1 then 3 else if g = 3 then 2 else 0

/-- A change of the other side's counter has come through the two-stage synchroniser (R493). -/
def crossed (now : Nat) (t : Option Nat) : Bool := t.elim true fun x => x + 2 ≤ now

/-- The producer sees the read bank as released (R493). -/
def seesReleased (now : Nat) (c : Chan) : Bool := c.rd.isEmpty && crossed now c.relAt

/-- The consumer sees units in the read bank: two cycles of its own clock after the handover (R493). -/
def seesHanded (c : Chan) : Bool := !c.rd.isEmpty && 2 ≤ c.view

/-- The read bank after units have been consumed: with the last one it is released (R493). -/
def chanRest (now : Nat) (c : Chan) : Chan :=
  if c.rd.isEmpty then { c with rseq := grayNext c.rseq, relAt := some now } else c

/-- Everything stored in a channel is thrown away, and a read bank that held units is released. -/
def chanDrop (now : Nat) (c : Chan) : Chan :=
  if c.rd.isEmpty then { c with wr := [], gap := 0 } else chanRest now { c with wr := [], rd := [], gap := 0 }

/-- The free space F of a channel in the producer's view (R493, R496). -/
def chanFree (now : Nat) (c : Chan) : Nat := 256 - c.wr.length + (if seesReleased now c then 256 else 0)

/-- A unit as it is stored, with its check bits (R489). -/
def unitOf (kind : Nat) (data : Word) : FUnit := { kind := kind, data := data }

/-- The units of a packet (R488). -/
def packetUnits : List Word → List FUnit
  | [] => []
  | [w] => [unitOf 0x4 w]
  | w :: ws => unitOf 0x1 w :: (ws.dropLast.map fun x => unitOf 0x2 x) ++ [unitOf 0x3 (ws.getLastD 0)]

/-- The two banks exchange roles, and WSEQ advances (R490, R493). -/
def chanSwap (now : Nat) (c : Chan) : Chan :=
  { c with rd := c.wr, wr := [], rdBank := !c.rdBank, rdUsed := 0, staleDue := false,
           wseq := grayNext c.wseq, handedAt := some now, view := 0 }

/-- Write units that fit, straddling the banks through the handover of a full write bank (R491). The answer says whether
that handover took place. -/
def chanWrite (now : Nat) (c : Chan) (us : List FUnit) : Chan × Bool :=
  let all := c.wr ++ us
  if all.length ≤ 256 then ({ c with wr := all }, false)
  else ({ chanSwap now { c with wr := all.take 256 } with wr := all.drop 256 }, true)

/-- A handover raises FIFO_AVAILn of a host channel (R490). -/
def raiseAvail (s : State) (n : Nat) : State := if n < 8 then raise s (8 + n) else s

/-- A dropped packet (R497). -/
def dropPacket (s : State) (n : Nat) : State :=
  let c := chan s n
  let s1 := incSat (setChan s n { c with gap := satAdd 0xFFFF c.gap 1 }) (Fld.FIFO_CH_CNT_DROP n) 1
  if n < 8 then raise s1 (24 + n) else s1

/-- Admission of a packet of at most 256 words behind a pending GAP word, or its drop (R496, R497). -/
def admitPacket (s : State) (n : Nat) (ws : List Word) : State :=
  let c := chan s n
  let gapU : List FUnit := if c.gap = 0 then [] else [unitOf 0xE (BitVec.ofNat 32 c.gap)]
  if ws.length + gapU.length ≤ chanFree s.clk.now c then
    let r := chanWrite s.clk.now { c with gap := 0 } (gapU ++ packetUnits ws)
    if r.2 then raiseAvail (setChan s n r.1) n else setChan s n r.1
  else dropPacket s n

/-- Tags of the packets on the internal channel, which say what record the journal writer builds (log entry 12). -/
def jnlTag (t : Nat) : Word := BitVec.ofNat 32 t

/-- A host packet and its journal copy, produced in the same cycle, the host copy first (R30, R485). -/
def emitBoth (s : State) (n : Nat) (tag : Nat) (ws : List Word) : State :=
  admitPacket (admitPacket s n ws) 8 (jnlTag tag :: ws)

/-- The words of a fault record (R502). -/
def fltWords (t blk inst code : Nat) (detail : List Byte) : List Word :=
  let d := packWords detail
  BitVec.ofNat 32 (1 * 2 ^ 28 + d.length * 2 ^ 24 + blk * 2 ^ 16 + inst * 2 ^ 8 + code) :: q64Words t ++ d

/-! ### The link's send queue -/

/-- A TX packet of the link engine, with LINK_TXDONE (R440). -/
def txPacket (s : State) (f : LnkTx) (result : Nat) : State :=
  raise (admitPacket s 6 (BitVec.ofNat 32 (1 * 2 ^ 28 + result * 2 ^ 24 + min 15 f.attempts * 2 ^ 20 + f.tag * 2 ^ 16 + f.dest) ::
    q64Words (q64 s) ++ [BitVec.ofNat 32 (f.secured.elim 0 fun p => p.1)])) 45

/-- Put a frame at the end of the queue with the next sequence number; a full queue answers no (R403, R406). -/
def queueFrame (s : State) (f : LnkTx) : State × Bool :=
  if 8 ≤ s.lnk.queue.length then (s, false)
  else ({ s with lnk := { s.lnk with queue := s.lnk.queue ++ [{ f with seq := s.lnk.seq }],
                                     seq := (s.lnk.seq + 1) % 256 } }, true)

/-- The automatic report of a packet as a data frame; one that finds the queue full is reported FULL (R441). -/
def autoReport (s : State) (kind : Nat) (ws : List Word) : State :=
  let f : LnkTx := { payload := BitVec.ofNat 8 kind :: unpackWords ws, dest := fld s Fld.LNK_AUTO_DEST, ar := true,
                     anytime := false, tag := 0xF, life := 0, queuedAt := s.clk.now, seq := 0 }
  let r := queueFrame s f
  if r.2 then r.1 else txPacket s f 8

/-- A TRF packet is reported when AUTOTRF is set, an FLT packet when AUTOFLT is (R441). -/
def autoTrf (s : State) (ws : List Word) : State := if flag s Fld.LNK_DATA_AUTOTRF then autoReport s 1 ws else s
def autoFlt (s : State) (ws : List Word) : State := if flag s Fld.LNK_DATA_AUTOFLT then autoReport s 2 ws else s

/-! ### Fault records -/

/-- A fault record goes to FLT, with its journal copy, whose tag word carries the number of detail bytes (R472, R502, R503);
firmware keeps it for the tag's fault log (R361) and may send it on the link (R441). -/
def fault (s : State) (blk inst code : Nat) (detail : List Byte) : State :=
  let ws := fltWords (q64 s) blk inst code detail
  let s1 := autoFlt (emitBoth s 7 (0x03 + detail.length * 2 ^ 8) ws) ws
  if flag s Fld.TAG_CFG_FLTEN && (fld s Fld.TAG_FLTMASK_IDS).testBit blk then
    { s1 with tag := { s1.tag with copies := s1.tag.copies ++ [ws] } }
  else s1

/-- A packet cut to 256 words: on LRX the byte count of its header counts what is left, 249 words (R439, R486). -/
def cutWords (n : Nat) (ws : List Word) : List Word :=
  match n, ws.take 256 with
  | 5, w :: l => putBits w 10 0 996 :: l
  | _, l => l

/-- A packet of any length: one longer than 256 words is cut, counted and reported (R486). -/
def admitCut (s : State) (n : Nat) (payload : Nat) (ws : List Word) : State :=
  if ws.length ≤ 256 then admitPacket s n ws
  else fault (incSat (admitPacket s n (cutWords n ws)) (Fld.FIFO_CH_ERR_TRUNC n) 1) 0x04 0 0x11
    (BitVec.ofNat 8 n :: leBytes 2 payload)

/-- A CONFIG item for the journal (R472, R475): block ID, instance, SEQ, word address, words. -/
def configRecord (s : State) (blk inst seq addr : Nat) (ws : List Word) : State :=
  admitPacket s 8 (jnlTag 0x07 :: q64Words (q64 s) ++
    [BitVec.ofNat 32 (blk + inst * 2 ^ 8 + seq * 2 ^ 16 + ws.length * 2 ^ 24), BitVec.ofNat 32 addr] ++ ws)

/-! ### `PWRON` and wake sources -/

/-- Drive `PWRON` active as a firing source does; in pulse mode a full WIDTH starts (R554). -/
def pwrAssert (s : State) : State :=
  setFlag { s with qtz := { s.qtz with
    pulseFrom := if flag s Fld.QTZ_PWRON_PULSE then some s.clk.now else none } } Fld.QTZ_STAT_PWRON

/-- Drive `PWRON` inactive (R60, R554). -/
def pwrRelease (s : State) : State :=
  clrFld { s with qtz := { s.qtz with pulseFrom := none } } Fld.QTZ_STAT_PWRON

/-- The source may drive `PWRON`: its SRCEN bit, and in BACKUP also its bit in the backup copy (R554). -/
def pwrSource (s : State) (code : Nat) : Bool :=
  code ≤ 5 && (fld s Fld.QTZ_PWRON_SRCEN).testBit code && (mode s != 0 || s.qtz.wakeCopy.testBit code)

/-- The modes in which a source wakes the device (R61). -/
def wakesIn (code m : Nat) : Bool :=
  if m = 1 then code ≤ 1 || (3 ≤ code && code ≤ 7) || code = 9
  else m = 2 && code ≤ 9

/-- Latch a wake source that is enabled, and begin the wake it causes (R61, R62); any wake cancels a pending SLEEP_NOW
(R68). -/
def latchWake (s : State) (code : Nat) : State :=
  if (reg s Adr.SYS_WAKEEN).toNat.testBit code then
    let src := (reg s Adr.SYS_WAKESRC).toNat
    let s1 := if src.testBit code then s else raise (setFlag s ⟨Adr.SYS_WAKESRC, code, code⟩) 4
    let s2 := if s1.modes.cmd = some .sleepNow
      then clrFld { s1 with modes := { s1.modes with cmd := none } } Fld.SYS_MODE_TRANS else s1
    match s2.modes.waking with
    | some m => { s2 with modes := { s2.modes with waking := some (m ||| 2 ^ code) } }
    | none => if wakesIn code (mode s2) then { s2 with modes := { s2.modes with waking := some (2 ^ code) } } else s2
  else s

/-- A wake source fires: it drives `PWRON` if it may (R554), and outside BACKUP it is latched and wakes (R61, R62). -/
def fireWake (s : State) (code : Nat) : State :=
  let s1 := if pwrSource s code then pwrAssert s else s
  if mode s1 = 0 then s1 else latchWake s1 code

/-! ### Grant points -/

/-- A grant point: the scheduler's decision is due (R146). -/
def grantPoint (s : State) : State := { s with sched := { s.sched with point := true } }

/-! ### Answers -/

/-- A command's next state. -/
def next (s : State) : Host.Outcome State Fault Refusal := .next s

end Sys2Proof.Machine
end

