-- ==== Sys2Proof/Machine/Flags.lean ====
section
/-! DEFINITION. Commit registers and their flags (R34–R42), and the permission of an access with the flags of its denial
(R131–R135). -/

namespace Sys2Proof.Machine

open Sys2Proof

/-! ### Blocks and commit registers -/

/-- The block ID of R38. -/
def blockId : Block → Nat
  | .sys => 0x00 | .prot => 0x01 | .qtz => 0x02 | .tmr => 0x03 | .fifo => 0x04 | .rad => 0x05 | .syncal => 0x06
  | .rp => 0x07 | .hdg => 0x08 | .brm => 0x09 | .hf => 0x0A | .tag => 0x0B | .grs => 0x0C | .lnk => 0x0D | .nbr => 0x0E
  | .cal => 0x0F | .msp => 0x10 | .hsp => 0x13

/-- Every block of R38. -/
def allBlocks : List Block :=
  [.sys, .prot, .qtz, .tmr, .fifo, .rad, .syncal, .rp, .hdg, .brm, .hf, .tag, .grs, .lnk, .nbr, .cal, .msp, .hsp]

/-- How many instances a block has (R34, R579). -/
def instances : Block → Nat
  | .tmr => 16 | .rp => 64 | .hdg => 32 | .nbr => 256 | _ => 1

/-- The commit register of a block instance (R38, R576). -/
def commitAddr (b : BlockInst) : Nat :=
  match b.block with
  | .sys => Adr.SYS_COMMIT | .prot => Adr.PROT_COMMIT | .qtz => Adr.QTZ_COMMIT | .tmr => Adr.TMR_COMMIT b.inst
  | .fifo => Adr.FIFO_COMMIT | .rad => Adr.RAD_COMMIT | .syncal => Adr.SYNCAL_COMMIT | .rp => Adr.RP_COMMIT b.inst
  | .hdg => Adr.HDG_COMMIT b.inst | .brm => Adr.BRM_COMMIT | .hf => Adr.HF_COMMIT | .tag => Adr.TAG_COMMIT
  | .grs => Adr.GRS_COMMIT | .lnk => Adr.LNK_COMMIT | .nbr => Adr.NBR_COMMIT b.inst | .cal => Adr.CAL_COMMIT
  | .msp => Adr.MSP_COMMIT | .hsp => Adr.HSP_COMMIT

/-- The block instance an address belongs to (R38, R576): by window, and by instance where the block is indexed. -/
def blockOf (a : Nat) : Option BlockInst :=
  if a ≤ 0xFF then some ⟨.sys, 0⟩
  else if 0x100 ≤ a ∧ a ≤ 0x150 then some ⟨.prot, 0⟩
  else if 0x200 ≤ a ∧ a ≤ 0x2FF then some ⟨.qtz, 0⟩
  else if 0x400 ≤ a ∧ a ≤ 0x4FF then some ⟨.tmr, (a - 0x400) / 16⟩
  else if 0x600 ≤ a ∧ a ≤ 0x6FF then some ⟨.fifo, 0⟩
  else if 0x800 ≤ a ∧ a ≤ 0xBFF then some ⟨.rad, 0⟩
  else if 0xC00 ≤ a ∧ a ≤ 0xFFF then some ⟨.syncal, 0⟩
  else if 0x1000 ≤ a ∧ a ≤ 0x13FF then some ⟨.rp, (a - 0x1000) / 16⟩
  else if 0x1400 ≤ a ∧ a ≤ 0x14FF then some ⟨.hdg, (a - 0x1400) / 8⟩
  else if 0x1500 ≤ a ∧ a ≤ 0x17FF then some ⟨.brm, 0⟩
  else if 0x1800 ≤ a ∧ a ≤ 0x18FF then some ⟨.hf, 0⟩
  else if 0x1900 ≤ a ∧ a ≤ 0x19FF then some ⟨.tag, 0⟩
  else if 0x1A00 ≤ a ∧ a ≤ 0x1AFF then some ⟨.grs, 0⟩
  else if 0x1B00 ≤ a ∧ a ≤ 0x1FFF then some ⟨.lnk, 0⟩
  else if 0x2000 ≤ a ∧ a ≤ 0x23FF then some ⟨.nbr, (a - 0x2000) / 4⟩
  else if 0x2800 ≤ a ∧ a ≤ 0x28FF then some ⟨.cal, 0⟩
  else if 0x2A00 ≤ a ∧ a ≤ 0x2AFF then some ⟨.msp, 0⟩
  else if 0x2E00 ≤ a ∧ a ≤ 0x2E0F then some ⟨.hsp, 0⟩
  else none

/-- The instance exists. -/
def validInst (b : BlockInst) : Bool := b.inst < instances b.block

/-- The address is a commit register. -/
def isCommit (a : Nat) : Bool :=
  match blockOf a with
  | some b => commitAddr b == a
  | none => false

/-! The fields of the R34 layout. -/

def cPend (b : BlockInst) : Field := ⟨commitAddr b, 31, 31⟩
def cReject (b : BlockInst) : Field := ⟨commitAddr b, 30, 30⟩
def cWrlock (b : BlockInst) : Field := ⟨commitAddr b, 29, 29⟩
def cReason (b : BlockInst) : Field := ⟨commitAddr b, 23, 16⟩
def cSeq (b : BlockInst) : Field := ⟨commitAddr b, 15, 8⟩
def cCommit (b : BlockInst) : Field := ⟨commitAddr b, 0, 0⟩

/-- Every instance of every block. -/
def allInsts : List BlockInst := allBlocks.flatMap fun b => (List.range (instances b)).map fun i => ⟨b, i⟩

/-- A commit is pending in some block (R56). -/
def anyPend (s : State) : Bool := s.regs.any fun p => isCommit p.1 && p.2.toNat.testBit 31

/-- The bit of `SYS_REJSUM` for a block ID: the OR of CFG_REJECT over the block's instances; bit 17 is the Slate's (R42,
R251, R578). -/
def rejBit (s : State) (id : Nat) : Bool :=
  if id = 0x11 then flag s Fld.SLT_STAT_CFG_REJECT
  else s.regs.any fun p =>
    match blockOf p.1 with
    | some b => commitAddr b == p.1 && blockId b.block == id && p.2.toNat.testBit 30
    | none => false

/-- `SYS_REJSUM` as it reads (R42). -/
def rejSum (s : State) : Nat := ((List.range 20).map fun n => if rejBit s n then 2 ^ n else 0).sum

/-- A flag of `SYS_REJSUM` went from 0 to 1: CFG_REJECT is raised (R130). -/
def raiseReject (s0 s1 : State) (id : Nat) : State := if !rejBit s0 id && rejBit s1 id then raise s1 1 else s1

/-! ### Levels and permission -/

/-- The code of a level in `PROT_DENY` (R138). -/
def levelCode : Level → Nat
  | .user => 0 | .supervisor => 1 | .field => 2 | .firmware => 3

/-- The permission bit of a level and direction, in the layout of R93. -/
def permIndex : Level → Bool → Nat
  | .supervisor, false => 7 | .supervisor, true => 6
  | .user, false => 5 | .user, true => 4
  | .field, false => 3 | .field, true => 2
  | .firmware, false => 1 | .firmware, true => 0

/-- The lowest-numbered enabled descriptor that covers an address (R134), given the range words. -/
def descriptorFor (range : Nat → Word) (a : Nat) : Option Nat :=
  firstBelow 32 fun n =>
    let first := bitsOf (range n) 15 0
    let last := bitsOf (range n) 31 16
    first ≤ last && first ≤ a && a ≤ last

/-- The permission bits that decide an address (R134), given range words, permission words and the default word. -/
def permBits (range perm : Nat → Word) (dflt : Word) (a : Nat) : Nat :=
  match descriptorFor range a with
  | some n => bitsOf (perm n) 7 0
  | none => bitsOf dflt 7 0

/-- Permission by descriptors alone. -/
def permBy (range perm : Nat → Word) (dflt : Word) (lvl : Level) (a : Nat) (wr : Bool) : Bool :=
  (permBits range perm dflt a).testBit (permIndex lvl wr)

/-- An access is permitted (R131, R134). -/
def permitted (s : State) (lvl : Level) (a : Nat) (wr : Bool) : Bool :=
  match lvl with
  | .firmware => true
  | _ =>
    if wr && 0x100 ≤ a && a ≤ 0x150 && lvl != .supervisor then false
    else permBy (fun n => reg s (Adr.PROT_RANGE n)) (fun n => reg s (Adr.PROT_PERM n)) (reg s Adr.PROT_DEF) lvl a wr

/-- A denied word (R135). -/
def deny (s : State) (lvl : Level) (a : Nat) (wr : Bool) : State :=
  let w := putBits (putBits (putBits 0 31 16 a) 15 14 (levelCode lvl)) 13 13 (if wr then 1 else 0)
  setReg (setFlag (incSat s Fld.HSP_CNT1_PRIVDEN 1) Fld.HSP_STAT_PRIV) Adr.PROT_DENY w

/-- A write of one register at a level: its effect if permitted, the denial if not. -/
def asWrite (s : State) (lvl : Level) (a : Nat) (eff : State → State) : State :=
  if permitted s lvl a true then eff s else deny s lvl a true

/-- A read of one register at a level: its effect if permitted, the denial if not. -/
def asRead (s : State) (lvl : Level) (a : Nat) (eff : State → State) : State :=
  if permitted s lvl a false then eff s else deny s lvl a false

/-- A value that writes a non-zero reserved field sets RANGE; the other fields take effect (R10). -/
def rsvCheck (s : State) (a : Nat) (v : Word) : State := if v &&& accMask a .rsv != 0 then setFlag s Fld.HSP_STAT_RANGE else s

/-- A command that is accepted from SUPERVISOR level alone (R68, R105): FIRMWARE is a level of its own (R131). -/
def supervisorLevel : Level → Bool
  | .supervisor => true | _ => false

end Sys2Proof.Machine
end

