-- ==== Sys2Proof/Machine/Operands.lean ====
section
/-! DEFINITION. The operand forms of the manual: target codes and the forest of Hedges (R25–R29, R227–R237), the fields of a
Slate entry (R238–R241), channel codes (R185), and resource sets (R144). -/

namespace Sys2Proof.Machine

open Sys2Proof

/-! ### Read points -/

def rpKind (s : State) (n : Nat) : Nat := fld s (Fld.RP_CFG_KIND n)
def rpPort (s : State) (n : Nat) : Nat := fld s (Fld.RP_CFG_PORT n)
def rpPath (s : State) (n : Nat) : Nat := fld s (Fld.RP_CFG_PATH n)
def rpRxMask (s : State) (n : Nat) : Nat := fld s (Fld.RP_CFG_RXMASK n)

/-! ### Hedges -/

/-- NCHILD; 0 is unused (R231). -/
def hedgeN (s : State) (n : Nat) : Nat := fld s (Fld.HDG_CFG_NCHILD n)

/-- The target code in child slot k (R231). -/
def hedgeChild (s : State) (n k : Nat) : Nat :=
  let w := if k < 4 then reg s (Adr.HDG_CHILD0 n) else reg s (Adr.HDG_CHILD1 n)
  bitsOf w (8 * (k % 4) + 7) (8 * (k % 4))

/-- The weight of child slot k (R231). -/
def hedgeWeight (s : State) (n k : Nat) : Nat :=
  let w := if k < 4 then reg s (Adr.HDG_WEIGHT0 n) else reg s (Adr.HDG_WEIGHT1 n)
  bitsOf w (8 * (k % 4) + 7) (8 * (k % 4))

/-- The direction role of child slot k: 0 none, 1 upstream, 2 downstream (R231). -/
def hedgeRole (s : State) (n k : Nat) : Nat := bitsOf (reg s (Adr.HDG_CFG n)) (2 * k + 1) (2 * k)

/-- The children of a Hedge in slot order. -/
def hedgeKids (s : State) (n : Nat) : List Nat := (List.range (min 8 (hedgeN s n))).map (hedgeChild s n)

/-- The Hedge that has a code among its children (R26). -/
def parentOf (s : State) (code : Nat) : Option Nat := firstBelow 32 fun n => (hedgeKids s n).contains code

/-- The target is in force: a read point in use, or a Hedge with a child (R232). -/
def targetInForce (s : State) (code : Nat) : Bool :=
  if code ≤ 0x3F then rpKind s code != 0 else code ≤ 0x5F && hedgeN s (code - 0x40) != 0

/-- Leaves of a target in leaf order (R234), down to a number of levels. -/
def leavesDown (s : State) : Nat → Nat → List Nat
  | 0, _ => []
  | d + 1, code =>
    if code ≤ 0x3F then [code]
    else if code ≤ 0x5F then (hedgeKids s (code - 0x40)).flatMap (leavesDown s d) else []

/-- Leaves of a target in leaf order (R234); no Hedge in force is deeper than 6 (R25). -/
def leaves (s : State) (code : Nat) : List Nat := leavesDown s 8 code

/-- Depth under R25, looking down a number of levels. -/
def depthDown (s : State) : Nat → Nat → Nat
  | 0, _ => 0
  | d + 1, code =>
    if code ≤ 0x3F then 0
    else if hedgeN s (code - 0x40) = 0 then 0
    else 1 + ((hedgeKids s (code - 0x40)).map (depthDown s d)).foldl max 0

/-- Depth of a target (R25). -/
def depth (s : State) (code : Nat) : Nat := depthDown s 8 code

/-- The Hedges above a code, nearest first, up to a number of levels. -/
def ancestorsUp (s : State) : Nat → Nat → List Nat
  | 0, _ => []
  | d + 1, code =>
    match parentOf s code with
    | some h => h :: ancestorsUp s d (0x40 + h)
    | none => []

/-- The Hedges above a code, nearest first. -/
def ancestors (s : State) (code : Nat) : List Nat := ancestorsUp s 40 code

/-- The Hedge is a zone: a child, and no parent (R27). -/
def isZone (s : State) (n : Nat) : Bool := hedgeN s n != 0 && (parentOf s (0x40 + n)).isNone

/-- The zone that contains a code, or 0x7F (R27, R231). -/
def zoneOf (s : State) (code : Nat) : Nat :=
  match (ancestors s code).getLast? with
  | some h => 0x40 + h
  | none => if 0x40 ≤ code ∧ code ≤ 0x5F ∧ hedgeN s (code - 0x40) ≠ 0 then code else 0x7F

/-- The direction group and role of a read point (R237): walking up, the first slot with a role. -/
def roleUp (s : State) : Nat → Nat → Option (Nat × Nat)
  | 0, _ => none
  | d + 1, code =>
    match parentOf s code with
    | none => none
    | some h =>
      match (List.range 8).find? fun k => k < hedgeN s h && hedgeChild s h k == code with
      | some k => if hedgeRole s h k != 0 then some (0x40 + h, hedgeRole s h k) else roleUp s d (0x40 + h)
      | none => none

/-- Direction group code and role of a read point, if it has one (R237). -/
def roleOf (s : State) (rp : Nat) : Option (Nat × Nat) := roleUp s 40 rp

/-! ### Slate entries -/

/-- A Slate entry's 64 bytes. -/
abbrev Entry := List Byte

def eByte (e : Entry) (k : Nat) : Nat := (e.getD k 0).toNat
def eU16 (e : Entry) (k : Nat) : Nat := eByte e k + 256 * eByte e (k + 1)
def eClass (e : Entry) : Nat := eByte e 0
def eTarget (e : Entry) : Nat := eByte e 1
def ePower (e : Entry) : Nat := eByte e 2
def eNchan (e : Entry) : Nat := eByte e 3
def eFlags (e : Entry) : Nat := eU16 e 4
def eEnable (e : Entry) : Bool := (eFlags e).testBit 0
def ePin (e : Entry) : Bool := (eFlags e).testBit 1
def eSynth (e : Entry) : Nat := (eFlags e / 4) % 4
def eDwell (e : Entry) : Nat := eU16 e 6
def ePeriod (e : Entry) : Nat := eU16 e 8
def eHold (e : Entry) : Nat := eU16 e 10
def eSelref (e : Entry) : Nat := eByte e 12
def eKeyref (e : Entry) : Nat := eByte e 13
def eReport (e : Entry) : Nat := eByte e 14
def eChan (e : Entry) (k : Nat) : Nat := eU16 e (16 + 2 * k)
def eChans (e : Entry) : List Nat := (List.range (min 16 (eNchan e))).map (eChan e)

/-- The kind of leaf a class uses (R235): 1 UHF, 2 HF, 3 LINK. -/
def classKind (c : Nat) : Nat := if c = 1 then 1 else if c ≤ 5 then 2 else 3

/-- Bits of a PARAM byte. -/
def eBits (e : Entry) (k hi lo : Nat) : Nat := (eByte e k >>> lo) % 2 ^ (hi + 1 - lo)

/-- An entry is valid: its class, and its CRC over bytes 0–61 (R240). -/
def entryValid (e : Entry) : Bool :=
  1 ≤ eClass e && eClass e ≤ 8 && crc16 (e.take 62) == eU16 e 62

/-- An entry with its CRC computed by the device (R246). -/
def withCrc (e : Entry) : Entry := e.take 62 ++ leBytes 2 (crc16 (e.take 62))

/-- The entry in force at an index. -/
def entryAt (s : State) (i : Nat) : Option Entry := (s.slate.entries.find? fun p => p.1 == i).map fun p => p.2

/-- Leaves an entry uses: those of its class's kind (R235). -/
def entryLeaves (s : State) (e : Entry) : List Nat :=
  (leaves s (eTarget e)).filter fun n => rpKind s n == classKind (eClass e)

/-- A channel code's frequency in kHz × 10 (R185). -/
def chanKhz10 (c : Nat) : Nat := 8400000 + 125 * c

/-! ### Resource sets -/

def resCoex : Nat := 0
def resPath : RfPath → Nat
  | .a => 1
  | .b => 2
def resRxc (k : Nat) : Nat := 3 + k
def resHfd : Nat := 7
def resFlint : Nat := 8
def resMsp : Nat := 9
def resTagnvm : Nat := 10

/-- The mask of a list of resources. -/
def resMask (l : List Nat) : Nat := l.foldl (fun m r => m ||| 2 ^ r) 0

/-- Two sets share a resource. -/
def meets (a b : Nat) : Bool := a &&& b != 0

/-- The RF resources: synthesisers, receive chains, HFD (R54, R182). -/
def rfMask : Nat := 0xFE

/-- The grant of a consumer, if it holds one. -/
def grantOf (s : State) (who : Consumer) : Option Grant := s.sched.grants.find? fun g => g.who == who && !g.topUp

/-- Resources held by grants. -/
def held (s : State) : Nat := s.sched.grants.foldl (fun m g => m ||| g.mask) 0

/-- Some grant holds an RF resource. -/
def rfHeld (s : State) : Bool := meets (held s) rfMask

/-- Entries named by grants. -/
def grantedEntries (s : State) : List Nat :=
  s.sched.grants.filterMap fun g => match g.who with
    | .entry i => some i.val
    | _ => none

/-- Read points used by grants now held (R38). -/
def grantedOf (s : State) (kind : Nat) : List Nat :=
  (grantedEntries s).flatMap fun i => match entryAt s i with
    | some e => if classKind (eClass e) = kind then entryLeaves s e else []
    | none => []

end Sys2Proof.Machine
end

