-- ==== Sys2Proof/Machine/Fifo.lean ====
section
/-! DEFINITION. Report FIFOs (Shale): handover, admission, reading, skipping and errors (R484–R509). -/

namespace Sys2Proof.Machine

open Sys2Proof

/-- Handover fill of a channel; 1 for JNL (R490). -/
def hwm (s : State) (n : Nat) : Nat := if n = 8 then 1 else fld s (Fld.FIFO_CH_CFG_HWM n)

/-- A G3 read of a BLOCKING channel waits for an item (R495); one that a skip holds waits for the skip (R499). -/
def waitedOn (s : State) (n : Nat) : Bool :=
  flag s (Fld.FIFO_CH_CFG_BLOCK n) && (chan s n).skip == .none && s.host.g3.any fun g => g.chan == n && g.waiting

/-- The conditions of a handover (R490). Packets are written whole, so no packet is ever part-written here. -/
def handoverDue (s : State) (n : Nat) : Bool :=
  let c := chan s n
  seesReleased s.clk.now c && !c.wr.isEmpty &&
    (hwm s n ≤ c.wr.length || c.wr.length == 256 || c.staleDue || waitedOn s n || n == 8)

/-- The handover (R490). -/
def handover (s : State) (n : Nat) : State :=
  if handoverDue s n then raiseAvail (setChan s n (chanSwap s.clk.now (chan s n))) n else s

/-- `FIFO_CHn_STAT` as it reads: everything but STALE follows from the channel (R498, R509). -/
def chanStat (s : State) (n : Nat) : Word :=
  let c := chan s n
  let full := chanFree s.clk.now c < chanLargest n + (if c.gap = 0 then 0 else 1)
  let b (x : Bool) : Nat := if x then 1 else 0
  putBits (putBits (putBits (putBits (putBits (putBits (putBits (reg s (Adr.FIFO_CH_STAT n)) 31 31 (b full)) 30 30
    (b (!seesHanded c))) 28 28 (b (c.skip != .none))) 27 27 (b (c.lastKind == 1 || c.lastKind == 2))) 26 26 (b c.rdBank))
    17 9 c.rd.length) 8 0 c.wr.length

/-- Take the next unit in the consumer's view: none while skipping or with the read bank released (R492, R495, R499). The
answer is the unit, the channel after it, and the unit's place in its bank. -/
def chanTake (now : Nat) (c : Chan) : Option (FUnit × Chan × Nat) :=
  if c.skip != .none then none
  else if c.flushGap != 0 then
    some (unitOf 0xE (BitVec.ofNat 32 c.flushGap), { c with flushGap := 0, lastKind := 0xE }, c.rdUsed)
  else if c.view < 2 then none
  else match c.rd with
    | [] => none
    | u :: us => some (u, chanRest now { c with rd := us, rdUsed := c.rdUsed + 1, lastKind := u.kind }, c.rdUsed)

/-- The 40 bits of a unit (R487). -/
def unitBits (kind ecc bank : Nat) (data : Word) : BitVec 40 :=
  BitVec.ofNat 40 (kind * 2 ^ 36 + ecc * 2 ^ 34 + bank * 2 ^ 32 + data.toNat)

/-- The error effects of a consumed word (R501); FIFO_UCE names channel, bank and word. -/
def eccEffect (s : State) (n ecc bank idx : Nat) : State :=
  if ecc = 1 then incSat s (Fld.FIFO_CH_CNT_CORR n) 1
  else if ecc = 2 then
    let s1 := incSat s (Fld.FIFO_CH_ERR_UCE n) 1
    if n = 7 then s1 else fault s1 0x04 0 0x10 [BitVec.ofNat 8 n, BitVec.ofNat 8 bank, BitVec.ofNat 8 idx]
  else s

/-- The values of KIND that occur in a stored unit (R487). -/
def storedKinds : List Nat := [0x1, 0x2, 0x3, 0x4, 0xE]

/-- A stored unit as the consumer reads it (R501): a double-bit error leaves the word as stored, whose data and KIND are then free
(log entry 4). -/
def unitRead (s : State) (u : FUnit) (ecc : Nat) : FUnit × State :=
  if ecc = 2 then
    let d := drawWord s
    let k := drawWord d.2
    ({ u with kind := storedKinds.getD (k.1.toNat % 5) 0x1, data := d.1 }, k.2)
  else (u, s)

/-- The error state a unit is read with: that of its word; the GAP unit that a flush has gathered is no stored word (R500, R501). -/
def eccOf (s : State) (n ecc : Nat) : Nat := if (chan s n).flushGap = 0 then ecc else 0

/-- Consume one unit of a channel with the error state its word is read with: the 40 bits, and the state (R487, R492). -/
def consume (s : State) (n ecc : Nat) : Option (BitVec 40) × State :=
  match chanTake s.clk.now (chan s n) with
  | none => (none, s)
  | some (u, c, idx) =>
    let e := eccOf s n ecc
    let bank := if (chan s n).rdBank then 1 else 0
    let r := unitRead s u e
    (some (unitBits r.1.kind e bank r.1.data), eccEffect (setChan r.2 n { c with lastKind := r.1.kind }) n e bank idx)

/-- The NOT_VALID unit (R487). -/
def notValid : BitVec 40 := 0

/-- A permitted read of `FIFO_PORTn` (R492, R495, R509): the data, with the tag latched. -/
def portRead (s : State) (n ecc : Nat) : Word × State :=
  let r := consume s n ecc
  match r.1 with
  | none => (0, setReg r.2 (Adr.FIFO_TAG n) 0)
  | some u => (u.setWidth 32, setReg r.2 (Adr.FIFO_TAG n) (BitVec.ofNat 32 (u.toNat / 2 ^ 32)))

/-- Payload bytes that a packet announces: its header's count on LRX (R439), else the bytes of its words. -/
def payloadOf (n : Nat) (ws : List Word) : Nat := if n = 5 then bitsOf (ws.headD 0) 10 0 else 4 * ws.length

/-- The automatic report of a packet that a producer offers on TRF or FLT (R441). -/
def autoOf (s : State) (n : Nat) (ws : List Word) : State :=
  if n = 1 then autoTrf s ws else if n = 7 then autoFlt s ws else s

/-- A packet is offered by its producer (R485, R486, R496). -/
def execPacketAdmit (ch : Fin 9) (words : List Word) (s : State) : Host.Outcome State Fault Refusal :=
  next (if words.isEmpty then s else autoOf (admitCut s ch (payloadOf ch words) words) ch words)

/-- The stale timer of a host channel that holds a word expires; it holds while CLK100 is stopped (R52, R504). -/
def execStaleTimeout (ch : Fin 8) (s : State) : Host.Outcome State Fault Refusal :=
  let c := chan s ch
  next (if (c.wr.isEmpty && c.rd.isEmpty) || !clk100 s then s
    else raise (setFlag (setChan s ch { c with staleDue := true }) (Fld.FIFO_CH_STAT_STALE ch)) (16 + ch))

/-- A read of `FIFO_PORTn` (R492, R509, R580). -/
def execFifoPortRead (lvl : Level) (ch : Fin 8) (ecc : Fin 3) (s : State) : Host.Outcome State Fault Refusal :=
  next (asRead s lvl (Adr.FIFO_PORT ch) fun t => (portRead t ch ecc).2)

/-- DROP_PKT begins a skip when the last unit consumed was START or MIDDLE (R499). -/
def dropPkt (s : State) (n : Nat) : State :=
  let c := chan s n
  if (c.lastKind = 1 ∨ c.lastKind = 2) ∧ c.skip = .none then setChan s n { c with skip := .packet } else s

/-- FLUSH begins a skip of every unit written so far (R500). -/
def flushChan (s : State) (n : Nat) : State :=
  let c := chan s n
  if c.rd.isEmpty && c.wr.isEmpty then s else setChan s n { c with skip := .units (c.rd.length + c.wr.length) }

/-- `FIFO_CMD` DROP_PKT (R499). -/
def execDropPkt (lvl : Level) (ch : Fin 8) (s : State) : Host.Outcome State Fault Refusal :=
  next (asWrite s lvl Adr.FIFO_CMD fun t => dropPkt t ch)

/-- `FIFO_CMD` FLUSH (R500). -/
def execFifoFlush (lvl : Level) (ch : Fin 8) (s : State) : Host.Outcome State Fault Refusal :=
  next (asWrite s lvl Adr.FIFO_CMD fun t => flushChan t ch)

/-- What is left of a skip after one more unit, as read: DROP_PKT's ends with an END, FLUSH's with its count (R499, R500). -/
def skipLeft (k : Skip) (u : FUnit) : Skip :=
  match k with
  | .none => .none
  | .packet => if u.kind = 3 then .none else .packet
  | .units n => if n ≤ 1 then .none else .units (n - 1)

/-- A channel that has skipped the unit at its head, as read: a FLUSH gathers the counts of GAP units (R499, R500). -/
def skipOne (now : Nat) (c : Chan) (u : FUnit) : Chan :=
  chanRest now { c with
    rd := c.rd.drop 1
    rdUsed := c.rdUsed + 1
    skip := skipLeft c.skip u
    flushGap := if c.skip != .packet && u.kind == 0xE then satAdd 0xFFFF c.flushGap (bitsOf u.data 15 0) else c.flushGap
    lastKind := u.kind }

/-- A skip over the units of the read bank, each read with its error state (R499–R501). -/
def skipUnits (n : Nat) : List FUnit → List Nat → State → State
  | [], _, s => s
  | u :: us, es, s =>
    let c := chan s n
    if c.skip = .none then s
    else
      let r := unitRead s u (es.headD 0)
      skipUnits n us (es.drop 1)
        (eccEffect (setChan r.2 n (skipOne s.clk.now c r.1)) n (es.headD 0) (if c.rdBank then 1 else 0) c.rdUsed)

/-- A skip runs over the read bank as far as the consumer sees it; what is not handed over yet stays to be skipped (R499, R500). -/
def skipRun (s : State) (n : Nat) (ecc : List Nat) : State :=
  if 2 ≤ (chan s n).view then skipUnits n (chan s n).rd ecc s else s

end Sys2Proof.Machine
end

