-- ==== Sys2Proof/Machine/Gen2.lean ====
section
/-! DEFINITION. Gen2 link timing (R255, R256, R262) and the regulatory profiles with their channel accounts (R282–R288). -/

namespace Sys2Proof.Machine

open Sys2Proof

/-! ### Link timing, in ps -/

/-- Tari of a UHF entry (R239). -/
def tari (e : Entry) : Nat := 6250000 * 2 ^ min 2 (eBits e 48 1 0)
def blf (e : Entry) : Nat := max 1 (eU16 e 49)
/-- Tpri = 1 / BLF (R255). -/
def tpri (e : Entry) : Nat := 1000000000 / blf e
def rtcal (e : Entry) : Nat := 3 * tari e
/-- TRcal = DR / BLF (R255). -/
def trcal (e : Entry) : Nat := if eBits e 48 2 2 = 1 then 64 * 1000000000 / (3 * blf e) else 8 * 1000000000 / blf e
/-- T1 (R256). -/
def t1 (e : Entry) : Nat := max (rtcal e) (10 * tpri e)
/-- T2 (R256). -/
def t2 (e : Entry) : Nat := 5 * tpri e
def millerM (e : Entry) : Nat := 2 ^ eBits e 48 4 3

/-- Length of reader bits: data-0 one Tari, data-1 two (R255). -/
def bitsTime (e : Entry) (bits : List Bool) : Nat := (bits.map fun b => if b then 2 * tari e else tari e).sum

/-- Delimiter, data-0 and RTcal before a command (R255). -/
def frameSync (e : Entry) : Nat := 12500000 + tari e + rtcal e

/-- Symbols of a tag reply of n bits: FM0 or Miller preamble with its TRext pilot, the bits, the closing bit (Gen2). -/
def replySymbols (e : Entry) (n : Nat) : Nat :=
  let t := eBits e 48 5 5 = 1
  let m := eBits e 48 4 3
  n + 1 + (if m = 0 then (if t then 18 else 6) else if t then 22 else 10)

/-- Length of a tag reply of n bits. -/
def replyTime (e : Entry) (n : Nat) : Nat := replySymbols e n * millerM e * tpri e

/-- The CRC-5 of a Query: x^5 + x^3 + 1, preset 01001 (Gen2). -/
def crc5 (bits : List Bool) : Nat := bits.foldl (crcBitMsb 5 0x09) 0x09

/-- The bits of a Query but its CRC-5 (R260). -/
def queryBits (e : Entry) (q : Nat) (targetB : Bool) : List Bool :=
  bitsMsb 4 8 ++ bitsMsb 1 (eBits e 48 2 2) ++ bitsMsb 2 (eBits e 48 4 3) ++ bitsMsb 1 (eBits e 48 5 5) ++
    bitsMsb 2 (eBits e 51 4 3) ++ bitsMsb 2 (eBits e 51 1 0) ++
    [targetB] ++ bitsMsb 4 q

/-- Length of a Query. -/
def queryTime (e : Entry) (q : Nat) (targetB : Bool) : Nat :=
  let b := queryBits e q targetB
  frameSync e + trcal e + bitsTime e (b ++ bitsMsb 5 (crc5 b))

def queryRepTime (e : Entry) : Nat := frameSync e + bitsTime e (bitsMsb 2 0 ++ bitsMsb 2 (eBits e 51 1 0))

def queryAdjustTime (e : Entry) (upDn : Nat) : Nat :=
  frameSync e + bitsTime e (bitsMsb 4 9 ++ bitsMsb 2 (eBits e 51 1 0) ++ bitsMsb 3 upDn)

/-- Length of an ACK. -/
def ackTime (e : Entry) (rn : BitVec 16) : Nat := frameSync e + bitsTime e ([false, true] ++ bitsMsb 16 rn.toNat)

/-- What follows the opening command of a slot in the worst case, its ACK the longest one, with an RN16 all ones (R262). -/
def slotTail (e : Entry) : Nat :=
  t1 e + replyTime e 16 + t2 e + ackTime e 0xFFFF + t1 e + replyTime e 160 + t2 e

/-- ps to CLK100 cycles, rounded up. -/
def psCycles (p : Nat) : Nat := (p + 9999) / 10000

/-- Worst case of a slot opened by a command of a length (R262), in CLK100 cycles. -/
def slotWorst (e : Entry) (cmd : Nat) : Nat := psCycles (cmd + slotTail e)

/-- Worst case of a slot opened by the initial Query, the yardstick of R284. -/
def firstSlotWorst (e : Entry) : Nat := slotWorst e (queryTime e (eBits e 52 3 0) false)

/-! ### Regulatory profiles -/

/-- The profile in force (R282). -/
def profile (s : State) : Nat := fld s Fld.BRM_PROF_SEL

/-- Channel m of the custom set (R292). -/
def custChan (s : State) (m : Nat) : Nat :=
  if m % 2 = 0 then fld s (Fld.BRM_CUSTCH_CODEL (m / 2)) else fld s (Fld.BRM_CUSTCH_CODEH (m / 2))

/-- The channel set of the profile (R282). -/
def profileChans (s : State) : List Nat :=
  match profile s with
  | 1 => [2056, 2104, 2152, 2200]
  | 2 => (List.range 50).map fun k => 5020 + 40 * k
  | 3 => (List.range (min 16 (fld s Fld.BRM_CUST1_NCH))).map (custChan s)
  | _ => []

/-- MAXON in CLK100 cycles (R282). -/
def maxOn (s : State) : Nat :=
  match profile s with
  | 1 => ms 4000 | 2 => ms 400 | _ => ms (fld s Fld.BRM_CUST0_MAXON)

/-- OFF in CLK100 cycles (R282). -/
def offTime (s : State) : Nat :=
  match profile s with
  | 1 => ms 100 | 2 => 0 | _ => ms (fld s Fld.BRM_CUST0_OFF)

/-- OCCMAX in CLK100 cycles, where the profile has a window (R282). -/
def occMax (s : State) : Option Nat :=
  match profile s with
  | 1 => none | 2 => some (ms 400)
  | _ => if fld s Fld.BRM_CUST1_WINDOW = 0 then none else some (ms (fld s Fld.BRM_CUST1_OCCMAX))

/-- SEQ selection, the FCC profile's (R282). -/
def seqMode (s : State) : Bool := profile s == 2

/-- The account of a channel (R283). -/
def account (s : State) (c : Nat) : Account := (s.brm.accounts.find? fun a => a.chan == c).getD { chan := c }

/-- Replace a channel's account. -/
def setAccount (s : State) (a : Account) : State :=
  { s with brm := { s.brm with accounts := s.brm.accounts.filter (fun b => b.chan != a.chan) ++ [a] } }

/-- Bring an account up to a moment: a carrier that is on adds to RUN and to the present bin. -/
def Account.flushTo (a : Account) (now : Nat) : Account :=
  match a.onSince with
  | none => a
  | some t =>
    { a with run := a.run + (now - t), onSince := some now,
             bins := match a.bins with
               | [] => [now - t]
               | b :: bs => (b + (now - t)) :: bs }

/-- OCC: the present bin and the 200 before it (R283). -/
def Account.occ (a : Account) : Nat := (a.bins.take 201).sum

/-- Channels of a frequency less than 3 MHz from a channel code (R149, R387). -/
def near3 (c khz : Nat) : Bool :=
  let k := chanKhz10 c / 10
  (k - khz) + (khz - k) < 3000

/-- A link receive slot nearby that is posted or open without the fence of R386 ends carrier time at its free time (R387): the least time
left. -/
def linkLeft (s : State) (c r : Nat) : Nat :=
  let viaReq := s.sched.requests.foldl (fun m q => match q.air, q.freeAt with
    | .linkRx _ khz, some t => if near3 c khz && q.fence == 0 then min m (t - s.clk.now) else m
    | _, _ => m) r
  s.sched.grants.foldl (fun m g => match g.air with
    | .linkRx _ khz => if near3 c khz && g.fence == 0 then 0 else m
    | _ => m) viaReq

/-- WINDOW in s (R282). -/
def occWindow (s : State) : Nat := if profile s = 2 then 20 else fld s Fld.BRM_CUST1_WINDOW

/-- Carrier time until OCC reaches its limit, with the carrier on throughout: the room left, the bins to leave at the coming bin
ends (the 201st of the bins first), the time to the next end, the length of a bin (R283). -/
def occLeft : List Nat → Nat → Nat → Nat → Nat
  | [], room, _, _ => room
  | b :: l, room, toEnd, bin => if room ≤ toEnd then room else toEnd + occLeft l (room - toEnd + b) bin bin

/-- The time until a channel's OCC reaches OCCMAX. -/
def occDeadline (s : State) (a : Account) (o : Nat) : Nat :=
  let bin := max 1 (ms (1000 * occWindow s) / 200)
  let leaving := (List.range 201).map fun k => a.bins.getD (200 - k) 0
  occLeft leaving (o - a.occ) (bin - min bin (s.clk.now - s.brm.binAt)) bin

/-- Time left before a channel's regulatory deadline (R283, R387). RUN is taken as 0 where the carrier is off and the next ramp-up
would start it afresh. -/
def regLeft (s : State) (c : Nat) : Nat :=
  let a := account s c
  let fresh := a.onSince.isNone && offTime s ≤ s.clk.now - a.offAt
  let r := linkLeft s c (if fresh then maxOn s else maxOn s - (a.flushTo s.clk.now).run)
  match occMax s with
  | none => r
  | some o => min r (occDeadline s (a.flushTo s.clk.now) o)

/-- The channel that a path's round uses. -/
def pathChan (s : State) : RfPath → Option Nat
  | .a => s.brm.a.map fun r => r.chan
  | .b => s.brm.b.map fun r => r.chan

/-- The other path. -/
def otherPath : RfPath → RfPath
  | .a => .b
  | .b => .a

/-- Distance of two channel codes is at least 1.2 MHz, 96 steps of the raster (R185, R186). -/
def spaced12 (a b : Nat) : Bool := 96 ≤ (a - b) + (b - a)

/-- A channel qualifies for a tune of an entry on a path (R284): not barred, its deadline far enough, and spaced from the
other path's channel in a paired round. -/
def qualifies (s : State) (e : Entry) (paired : Bool) (p : RfPath) (c : Nat) : Bool :=
  profileChans s != [] && (profileChans s).contains c && (account s c).barredUntil.isNone &&
    firstSlotWorst e ≤ regLeft s c &&
    (!paired || match pathChan s (otherPath p) with
      | some d => spaced12 c d
      | none => true)

/-- The channel at a SEQ position (R285). -/
def seqChan (pos : Nat) : Nat := 5020 + 40 * (27 * pos % 50)

/-- The next qualifying SEQ position from a position on, with the number of positions skipped (R285, R286). -/
def nextSeq (s : State) (e : Entry) (paired : Bool) (p : RfPath) (pos : Nat) : Option (Nat × Nat) :=
  ((List.range 50).find? fun k => qualifies s e paired p (seqChan (pos + k))).map fun k => ((pos + k) % 50, k)

/-- The next qualifying channel of a list, starting at a place and wrapping round; the place and how many were passed over
(R285, R286). -/
def nextList (s : State) (e : Entry) (paired : Bool) (p : RfPath) (start : Nat) : Option (Nat × Nat) :=
  let cs := eChans e
  ((List.range cs.length).find? fun k => qualifies s e paired p (cs.getD ((start + k) % cs.length) 0)).map
    fun k => ((start + k) % cs.length, k)

/-- Where the entry's next round starts in its list (R286). -/
def listStart (s : State) (i : Nat) (n : Nat) : Nat :=
  match s.brm.lastChan.find? fun q => q.1 == i with
  | some q => (q.2 + 1) % max 1 n
  | none => 0

/-- The channel a round of an entry would start on (R286). -/
def roundChan (s : State) (i : Nat) (e : Entry) (paired : Bool) (p : RfPath) : Option Nat :=
  if seqMode s then (nextSeq s e paired p (fld s Fld.BRM_STAT_SEQPOS)).map fun q => seqChan q.1
  else (nextList s e paired p (listStart s i (eChans e).length)).map fun q => (eChans e).getD q.1 0

/-- The channels on which the head of a pair and its partner would start (R164): in SEQ mode the partner's position follows the
head's (R285). -/
def pairChans (s : State) (i : Nat) (e : Entry) (p : RfPath) (j : Nat) (d : Entry) : Option Nat × Option Nat :=
  if seqMode s then
    match nextSeq s e false p (fld s Fld.BRM_STAT_SEQPOS) with
    | some a => (some (seqChan a.1), (nextSeq s d false (otherPath p) ((a.1 + 1) % 50)).map fun q => seqChan q.1)
    | none => (none, none)
  else (roundChan s i e false p, roundChan s j d false (otherPath p))

/-- The entry's rounds are held back until one of its channels qualifies (R287). -/
def dwellHeld (s : State) (i : Nat) (e : Entry) (p : RfPath) : Bool :=
  s.brm.holds.contains i && (roundChan s i e false p).isNone

/-- The carrier on a channel comes up (R283). -/
def accountOn (s : State) (c : Nat) : State :=
  let a := account s c
  let a1 := if offTime s ≤ s.clk.now - a.offAt then { a with run := 0 } else a
  setAccount s { a1 with onSince := some s.clk.now }

/-- The carrier on a channel goes off; a channel whose RUN has reached MAXON is barred for OFF (R283). -/
def accountOff (s : State) (c : Nat) : State :=
  let a := (account s c).flushTo s.clk.now
  if a.onSince.isSome then
    setAccount s { a with onSince := none, offAt := s.clk.now,
                          barredUntil := if maxOn s ≤ a.run then some (s.clk.now + offTime s) else a.barredUntil }
  else s

/-- The accounts after a start (R288): every channel barred for OFF from BOOT_DONE, and taken to have used OCCMAX in the bin
that ends there. -/
def accountsAtStart (s : State) : State :=
  { s with brm := { s.brm with binAt := s.clk.now, accounts := (profileChans s).map fun c =>
      { chan := c, barredUntil := some (s.clk.now + offTime s), offAt := s.clk.now,
        bins := [0, (occMax s).getD 0] } } }

/-- The accounts after a change of profile: channels in both sets keep theirs (R288). -/
def accountsForProfile (s : State) : State :=
  { s with brm := { s.brm with accounts := s.brm.accounts.filter fun a => (profileChans s).contains a.chan } }

/-- OFF after its ramp-down, a barred channel is cleared (R283). -/
def execChannelUnbar (index : Fin 50) (s : State) : Host.Outcome State Fault Refusal :=
  next (match (profileChans s)[index.val]? with
    | some c =>
      let a := account s c
      if a.barredUntil.isSome && a.onSince.isNone then
        setAccount s { a with barredUntil := none }
      else s
    | none => s)

/-- An occupancy bin ends: the oldest leaves the sum (R283). -/
def execOccBin (s : State) : Host.Outcome State Fault Refusal :=
  next { s with brm := { s.brm with
    binAt := s.clk.now
    accounts := s.brm.accounts.map fun a =>
      let b := a.flushTo s.clk.now
      { b with bins := (0 :: b.bins).take 201 } } }

/-- `BRM_OCC` of the channel selected (R295); 0 for an INDEX beyond the profile's set, of which the rules do not speak (log entry 39,
DESIGN CHOICE). -/
def brmOcc (s : State) : Word :=
  match (profileChans s)[fld s Fld.BRM_OCCSEL_INDEX]? with
  | some c =>
    let a := (account s c).flushTo s.clk.now
    let occ := if (occMax s).isNone then 0 else a.occ / 100000
    BitVec.ofNat 32 (min 0xFFFF occ * 2 ^ 16 + (if a.barredUntil.isSome then 2 ^ 15 else 0) +
      min 0xFFF (a.run / 100000) * 8)
  | none => 0

end Sys2Proof.Machine
end

