-- ==== Sys2Proof/Machine/Sched.lean ====
section
/-! DEFINITION. The scheduler: requests, leases, fences, the weighted walk and the decision of a grant point (R144–R174). -/

namespace Sys2Proof.Machine

open Sys2Proof

/-! ### Leases -/

/-- The lease of a kind in CLK100 cycles (R150). -/
def leaseOf (s : State) : LeaseKind → Nat
  | .uhfSlice => ms 400
  | .hfSession => ms 4000
  | .linkSlot n => us (min n 100000)
  | .calStep => ms 5
  | .forcedGap => ms (fld s Fld.SYS_C3CFG_GAPMAX)
  | .gorsePing => ms 1
  | .flint => us 100
  | .msp => ms 1
  | .tagPage => us 1500
  | .external => ms (fld s Fld.SYS_CXCFG_XLEASE)
  | .trace n => ms n

/-- The warning before a lease's end (R150). -/
def warnOf : LeaseKind → Nat
  | .uhfSlice => ms 5
  | .hfSession => ms 50
  | _ => 0

/-- The answer wait of a RAW in µs: a TMO outside its range is taken as the nearest limit (R339). -/
def rawTmo (s : State) : Nat := max 100 (min 1000000 (fld s Fld.HF_RAW_TMO))

/-- The frame waiting time in force (R323): the requested waiting time while one runs, bounded by `HF_WTX_MAX`; a RAW waits for
TMO. -/
def waitInForce (s : State) : Nat :=
  if (s.hf.visit.map fun v => v.phase) = some .raw then us (rawTmo s)
  else min (max s.hf.fwt s.hf.wtx) (ms (fld s Fld.HF_WTX_MAX_MS))

/-- The extension limit (R150). -/
def extendOf (s : State) : LeaseKind → Nat
  | .uhfSlice => ms 25
  | .hfSession => min (waitInForce s) (ms (fld s Fld.HF_WTX_MAX_MS))
  | _ => 0

/-! ### Resource sets -/

/-- The coexistence role (R168). -/
def cxRole (s : State) : Nat := fld s Fld.SYS_CXCFG_ROLE

/-- COEX is added to sets of an air use (R148). -/
def wantsCoex (s : State) (air : AirUse) (mask : Nat) : Bool :=
  (cxRole s = 1 || cxRole s = 2) &&
    ((match air with
      | .carrier _ _ => flag s Fld.SYS_CXCFG_UHF
      | .calTx => flag s Fld.SYS_CXCFG_UHF
      | .linkTx => flag s Fld.SYS_CXCFG_LNK
      | _ => false) || (mask.testBit resHfd && flag s Fld.SYS_CXCFG_HF))

/-- A set with COEX where R148 adds it; with no role it is never requested. -/
def withCoex (s : State) (air : AirUse) (mask : Nat) : Nat :=
  if wantsCoex s air mask then mask ||| 1 else if cxRole s = 0 then mask &&& 0x7FE else mask

/-- Frequencies at least 3 MHz apart (R149). -/
def spaced3 (a b : Nat) : Bool := 3000 ≤ (a - b) + (b - a)

/-- Two sets may run side by side under the RF rules of R149. -/
def airOk : AirUse → AirUse → Bool
  | .none, _ => true
  | _, .none => true
  | .hf, _ => true
  | _, .hf => true
  | .calTx, _ => false
  | _, .calTx => false
  | .calRx, _ => true
  | _, .calRx => true
  | .carrier _ _, .carrier _ _ => false
  | .carrier ps f, .linkRx q g => spaced3 f g && !ps.toNat.testBit q
  | .linkRx q g, .carrier ps f => spaced3 f g && !ps.toNat.testBit q
  | .carrier _ _, .linkTx => false
  | .linkTx, .carrier _ _ => false
  | _, _ => true

/-! ### Fences -/

/-- What a scheduled C0 item fences: its resources, and those R386 adds. -/
def Request.fenced (r : Request) : Nat := r.mask ||| r.fence

/-- A scheduled C0 item still to come: its resources are fenced from its free time to its end (R157); what an open slot fences
beside its own stays fenced to its end (R386). -/
def fences (s : State) : List (Nat × Nat × Nat) :=
  (s.sched.requests.filterMap fun r => match r.freeAt with
    | some t => if r.cls = .c0 then some (r.fenced, t, t + leaseOf s r.kind) else none
    | none => none) ++
  s.sched.grants.filterMap fun g => if g.fence = 0 then none else some (g.fence, g.since, g.until_)

/-- The nearest fence on a set, apart from a consumer's own. -/
def nearestFence (s : State) (who : Consumer) (mask : Nat) : Option Nat :=
  s.sched.requests.foldl (fun m r => match r.freeAt with
    | some t => if r.cls = .c0 ∧ r.who ≠ who ∧ meets r.fenced mask then
        (match m with
          | none => some t
          | some u => some (min t u)) else m
    | none => m) none

/-! ### Entries as consumers -/

/-- The paths an entry's SYNTH allows, in the order they are tried (R238; log entry 14). -/
def synthPaths (e : Entry) : List RfPath :=
  match eSynth e with
  | 0 => [.a]
  | 1 => [.b]
  | _ => [.a, .b]

/-- The receive chains of a list of leaves. -/
def leafChains (s : State) (ls : List Nat) : Nat := ls.foldl (fun m n => m ||| rpRxMask s n) 0

/-- The ports of a list of leaves, as a mask. -/
def leafPorts (s : State) (ls : List Nat) : Nat := ls.foldl (fun m n => m ||| 2 ^ rpPort s n) 0

/-- The resource set of an entry on a path, without COEX (R29, R235). -/
def entrySet (s : State) (e : Entry) (p : RfPath) : Nat :=
  if classKind (eClass e) = 1 then 2 ^ resPath p ||| (leafChains s (entryLeaves s e) * 8) else 2 ^ resHfd

/-- The use of the air of an entry on a path (R149). -/
def entryAir (s : State) (i : Nat) (e : Entry) (p : RfPath) : AirUse :=
  if classKind (eClass e) = 1 then
    .carrier (BitVec.ofNat 4 (leafPorts s (entryLeaves s e)))
      (match roundChan s i e false p with
        | some c => chanKhz10 c / 10
        | none => 0)
  else .hf

/-- The request an entry posts (R241). -/
def entryRequest (s : State) (i : Fin 1024) (e : Entry) (p : RfPath) : Request :=
  let air := entryAir s i e p
  { who := .entry i, cls := .c2, mask := withCoex s air (entrySet s e p),
    kind := if classKind (eClass e) = 1 then .uhfSlice else .hfSession, air := air, posted := s.clk.now }

/-- The entry takes part in scheduling as a C2 consumer (R241). -/
def entryActive (e : Entry) : Bool := eEnable e && classKind (eClass e) ≤ 2

/-- Entries that are pending (R241): every grant point with PERIOD 0, else once PERIOD has run. -/
def entryDue (s : State) (i : Nat) (e : Entry) : Bool :=
  entryActive e && (ePeriod e == 0 || s.slate.pendingSet.contains i)

/-- The consumer has a request posted. -/
def posted (s : State) (who : Consumer) : Bool := s.sched.requests.any fun r => r.who == who && !r.topUp

/-- The request of one entry, if it is pending and has none (R241). -/
def postEntry (t : State) (p : Nat × Entry) : State :=
  if h : p.1 < 1024 then
    let i : Fin 1024 := ⟨p.1, h⟩
    if entryDue t p.1 p.2 && !posted t (.entry i) && (grantOf t (.entry i)).isNone then
      { t with sched := { t.sched with requests := t.sched.requests ++
          [entryRequest t i p.2 ((synthPaths p.2).headD .a)] } }
    else t
  else t

/-- Every pending entry that holds no grant has a request (R241). -/
def postEntries (s : State) : State := s.slate.entries.foldl postEntry s

/-! ### The tree of weights -/

/-- Children of a node in slot order (R162, R610); the root's are its zones by number, then LOOSE, LINK and XARB (DESIGN CHOICE, log
entry 48). -/
def nodeKids (s : State) : WNode → List WNode
  | .root => ((List.range 32).filter (isZone s)).map WNode.hedge ++ [.loose, .link, .xarb]
  | .hedge n => ((hedgeKids s n).map fun c => if c ≤ 0x3F then WNode.rp c else WNode.hedge (c - 0x40)) ++ [.own n]
  | .own n => (s.slate.entries.filter fun p => eTarget p.2 == 0x40 + n && entryActive p.2).map fun p => .entry p.1
  | .rp n => (s.slate.entries.filter fun p => eTarget p.2 == n && entryActive p.2).map fun p => .entry p.1
  | .loose => ((List.range 64).filter fun n => rpKind s n != 0 && (parentOf s n).isNone).map WNode.rp
  | _ => []

/-- The weight of a child at its parent (R162, R610). -/
def nodeWeight (s : State) (parent child : WNode) : Nat :=
  match parent, child with
  | .root, .hedge n => bitsOf (reg s (Adr.SYS_ZW (n / 4))) (8 * (n % 4) + 7) (8 * (n % 4))
  | .root, .loose => fld s Fld.SYS_SCHW_LOOSE
  | .root, .link => fld s Fld.SYS_SCHW_LINK
  | .root, .xarb => fld s Fld.SYS_SCHW_XARB
  | .hedge h, .rp n => ((List.range 8).find? fun k => k < hedgeN s h && hedgeChild s h k == n).elim 1 (hedgeWeight s h)
  | .hedge h, .hedge n =>
    ((List.range 8).find? fun k => k < hedgeN s h && hedgeChild s h k == 0x40 + n).elim 1 (hedgeWeight s h)
  | _, _ => 1

/-- The nodes from a consumer up to below the root. -/
def nodePath (s : State) : Consumer → List WNode
  | .entry i =>
    match entryAt s i with
    | none => [.entry i]
    | some e =>
      let t := eTarget e
      let up := (ancestors s t).map WNode.hedge
      if t ≤ 0x3F then WNode.entry i :: .rp t :: (if up.isEmpty then [.loose] else up)
      else WNode.entry i :: .own (t - 0x40) :: .hedge (t - 0x40) :: up
  | .linkData => [.link]
  | .external => [.xarb]
  | _ => []

/-- A node that is a consumer. -/
def nodeConsumer : WNode → Option Consumer
  | .entry i => if h : i < 1024 then some (.entry ⟨i, h⟩) else none
  | .link => some .linkData
  | .xarb => some .external
  | _ => none

/-- A child's deficit and arrival. -/
def creditOf (w : Walk) (c : WNode) : Credit := (w.credits.find? fun k => k.node == c).getD { node := c }

/-- Replace a child's deficit and arrival. -/
def setCredit (w : Walk) (k : Credit) : Walk :=
  { w with credits := w.credits.filter (fun x => x.node != k.node) ++ [k] }

/-- The child under a node's pointer: the first one until it moves, and where the child it stood at is gone (DESIGN CHOICE, log entry
48). -/
def ptrOf (w : Walk) (kids : List WNode) (n : WNode) : WNode :=
  match w.ptrs.find? fun p => p.1 == n with
  | some p => if kids.contains p.2 then p.2 else kids.headD .root
  | none => kids.headD .root

/-- Move a node's pointer to the next child, wrapping round (R163). -/
def advancePtr (w : Walk) (kids : List WNode) (n : WNode) : Walk :=
  let i := kids.findIdx fun c => c == ptrOf w kids n
  let c := kids.getD ((i + 1) % max 1 kids.length) .root
  { w with ptrs := w.ptrs.filter (fun p => p.1 != n) ++ [(n, c)] }

/-- What the walk knows of the consumers: those with a request pending, and those to be passed over, each with its path. -/
structure WalkView where
  pending : List (List WNode)
  passed : List (List WNode)

/-- A child is pending (R163). -/
def WalkView.isPending (v : WalkView) (c : WNode) : Bool := v.pending.any fun p => p.contains c

/-- A child is held: every pending consumer beneath it holds a grant or was passed over (R163). -/
def WalkView.isHeld (v : WalkView) (c : WNode) : Bool :=
  (v.pending.filter fun p => p.contains c).all fun p => v.passed.contains p

/-- The walk of R163, with a bound on its moves. -/
def walkFrom (s : State) (v : WalkView) : Nat → WNode → Walk → Option (WNode × Walk)
  | 0, _, _ => none
  | f + 1, node, w =>
    let kids := nodeKids s node
    let c := ptrOf w kids node
    if !v.isPending c then walkFrom s v f node (advancePtr (setCredit w { creditOf w c with d := 0 }) kids node)
    else if v.isHeld c then walkFrom s v f node (advancePtr w kids node)
    else
      let k := creditOf w c
      let k1 := if k.arrived then k
        else { k with d := clampInt (-2147483647) 2147483647
                        (k.d + ((fld s Fld.SYS_SCHCFG_QUANTUM * 1000 * nodeWeight s node c : Nat) : Int)),
                      arrived := true }
      let w1 := setCredit w k1
      if k1.d ≤ 0 then walkFrom s v f node (advancePtr (setCredit w1 { k1 with arrived := false }) kids node)
      else if (nodeConsumer c).isSome then some (c, w1)
      else walkFrom s v f c w1

/-- A bound no walk reaches: every pass adds at least 1,000 µs to a child in want. -/
def walkBound : Nat := 2 ^ 40

/-- The pending C2 consumers and those that hold grants (R163). A promoted request is pending in the walk, which passes it over as
it does one that is held, since its next grant is C1 (DESIGN CHOICE, log entry 36). -/
def walkView (s : State) (skip : List Consumer) : WalkView :=
  let reqs := s.sched.requests.filter fun r => r.cls = .c2 && !r.topUp
  let holders := (s.sched.grants.filter fun g => g.cls = .c2 && !g.topUp).map fun g => g.who
  let firm := (reqs.filter fun r => r.promoted).map fun r => r.who
  { pending := ((reqs.map fun r => r.who) ++ holders).map (nodePath s), passed := (holders ++ firm ++ skip).map (nodePath s) }

/-- The C2 head and the walk that led to it (R163). -/
def drrNext (s : State) (skip : List Consumer) (w : Walk) : Option (Consumer × Walk) :=
  let v := walkView s skip
  if v.pending.all fun p => v.passed.contains p then none
  else match walkFrom s v walkBound .root w with
    | some (n, w1) => (nodeConsumer n).map fun c => (c, w1)
    | none => none

/-- Take the held time off the deficit of every node of a consumer's path (R152, R163). -/
def charge (s : State) (who : Consumer) (heldUs : Nat) : State :=
  { s with sched := { s.sched with walk := (nodePath s who).foldl (fun w n =>
      let k := creditOf w n
      setCredit w { k with d := clampInt (-2147483647) 2147483647 (k.d - (heldUs : Int)) }) s.sched.walk } }

/-- The pointer of every node on a consumer's path moves past it (R171). -/
def passOver (s : State) (who : Consumer) : State :=
  { s with sched := { s.sched with walk := (.root :: (nodePath s who).reverse).foldl (fun w n =>
      if (nodeConsumer n).isSome then w else advancePtr w (nodeKids s n) n) s.sched.walk } }

/-! ### Freedom of a set -/

/-- COEX may be granted: outside the requester role at once; in it `CXGNT` is high and `CXREQ`, and for C0 and C1 also
`CXPRI`, has been high for LEAD (R147, R169). -/
def coexFree (s : State) (firm : Bool) : Bool :=
  if cxRole s = 1 then
    let lead := us (fld s Fld.SYS_CXCFG_LEAD)
    s.pins.cxgnt && flag s Fld.SYS_STAT_CXREQ && (s.sched.cxLead || s.sched.cxreqAt + lead ≤ s.clk.now) &&
      (!firm || (flag s Fld.SYS_STAT_CXPRI && (s.sched.cxpriLead || s.sched.cxpriAt + lead ≤ s.clk.now)))
  else true

/-- Nothing is granted before step 9 or in BARE (R97, R100), nor once a SERVICE or BACKUP command stands; in SERVICE only to the
calibration sequencer (R59, R60). The tag engine is served in every mode in which the core runs (R48, R360). -/
def grantsOpen (s : State) (who : Consumer) : Bool :=
  flag s Fld.SYS_BOOTSTAT_DONE && 3 ≤ mode s &&
    match who with
    | .tagEngine => true
    | .calib _ _ => s.modes.cmd != some .enterBackup && s.modes.cmd != some .enterService
    | .forcedGap _ => s.modes.cmd != some .enterBackup && s.modes.cmd != some .enterService
    | .calTrace => s.modes.cmd != some .enterBackup && s.modes.cmd != some .enterService
    | .calStore => s.modes.cmd != some .enterBackup && s.modes.cmd != some .enterService
    | _ => s.modes.cmd != some .enterBackup && s.modes.cmd != some .enterService && mode s != 5

/-- An entry is in the Slate cache (R243). -/
def cached (s : State) (i : Nat) : Bool := s.slate.cache.any fun c => c.index == i

/-- The entry of a request can run: it is cached (R244) and a channel qualifies (R287). -/
def entryReady (s : State) (r : Request) : Bool :=
  match r.who with
  | .entry i =>
    match entryAt s i with
    | none => false
    | some e => cached s i && (classKind (eClass e) != 1 || !(synthPaths e).all (dwellHeld s i e))
  | _ => true

/-- A request of C0 or C1, a promoted one with them (R156, R165). -/
def Request.firm (r : Request) : Bool := r.cls == .c0 || r.cls == .c1 || r.promoted

/-- The resources of a request that are held, fenced now, or reserved for candidates ahead of it (R147). -/
def taken (s : State) (r : Request) (ahead : Nat) : Nat :=
  let fenced := (fences s).foldl (fun m f =>
    if f.2.1 ≤ s.clk.now ∧ s.clk.now < f.2.2 ∧ r.freeAt.isNone then m ||| f.1 else m) 0
  r.mask &&& (held s ||| ahead ||| fenced)

/-- The resources of a request that are not free: those taken, and COEX while `CXGNT` or its lead time is wanting (R147). -/
def notFree (s : State) (r : Request) (ahead : Nat) : Nat :=
  taken s r ahead ||| (if r.mask.testBit 0 && !coexFree s r.firm then 1 else 0)

/-- The lease a request would get now: cut at the nearest fence; none where too little is left for C2 or C3 (R160). -/
def leaseFor (s : State) (r : Request) : Option Nat :=
  let full := leaseOf s r.kind
  match nearestFence s r.who r.mask with
  | none => some full
  | some t =>
    let left := t - s.clk.now
    if !r.firm && left < warnOf r.kind + ms (fld s Fld.SYS_SCHCFG_MINSLICE) then none
    else some (min full left)

/-- A request may be granted at this grant point (R52, R147, R149, R160). A top-up belongs to a grant already held, which runs until it
ends (R59; log entry 35). -/
def grantable (s : State) (r : Request) (ahead : Nat) : Bool :=
  notFree s r ahead == 0 && (r.topUp || grantsOpen s r.who) && (!meets r.mask rfMask || !flag s Fld.SYS_CLKSTAT_FALLBACK) &&
    (s.sched.grants.all fun g => airOk g.air r.air) && entryReady s r && (leaseFor s r).isSome

/-! ### Granting -/

/-- Count a grant in GRANTS of each resource, and its wait in MAXWAIT where it found the resource not free (R179). -/
def countGrant (s : State) (r : Request) : State :=
  (bitList 11 r.mask).foldl (fun t n =>
    let t1 := setFld t (Fld.SYS_RES_GRANT_GRANTS n) (satAdd 0xFFFFFFFF (fld t (Fld.SYS_RES_GRANT_GRANTS n)) 1)
    if r.waitedOn.testBit n then
      let w := (s.clk.now - r.posted) / 100000
      setFld t1 (Fld.SYS_RES_WAIT_MAXWAIT n) (max (fld t1 (Fld.SYS_RES_WAIT_MAXWAIT n)) (min 0xFFF w))
    else t1) s

/-- Take a request off the list. -/
def dropRequest (s : State) (r : Request) : State :=
  { s with sched := { s.sched with requests := s.sched.requests.filter fun x => !(x.who == r.who && x.topUp == r.topUp) } }

/-- The grant that a request gets, for a lease in cycles. -/
def grantFor (s : State) (r : Request) (credited : Bool) (partner : Option Consumer) (lease : Nat) : Grant :=
  { who := r.who, cls := r.cls, mask := r.mask, fence := r.fence, kind := r.kind, air := r.air, since := s.clk.now,
    until_ := s.clk.now + lease, credited := credited, topUp := r.topUp, promoted := r.promoted,
    scheduled := r.freeAt.isSome, partner := partner }

/-- Grant a request for a lease (R147, R150). -/
def grantLease (s : State) (r : Request) (credited : Bool) (partner : Option Consumer) (lease : Nat) : State :=
  let s1 := countGrant (dropRequest s r) r
  let s2 := { s1 with sched := { s1.sched with grants := s1.sched.grants ++ [grantFor s r credited partner lease] } }
  match r.who with
  | .entry i => { s2 with slate := { s2.slate with
      pendingSet := s2.slate.pendingSet.filter fun j => j != i.val
      cache := s2.slate.cache.map fun c => if c.index = i.val then { c with grantedAt := s2.clk.now } else c } }
  | _ => s2

/-- Grant a request (R147, R150). -/
def grant (s : State) (r : Request) (credited : Bool) (partner : Option Consumer) : State :=
  grantLease s r credited partner ((leaseFor s r).getD (leaseOf s r.kind))

/-- Replace a request in the list. -/
def setRequest (s : State) (r : Request) : State :=
  { s with sched := { s.sched with requests := s.sched.requests.map fun x =>
      if x.who = r.who ∧ x.topUp = r.topUp then r else x } }

/-- A request that goes ungranted: WAITS of the resources that were not free (R179). -/
def countWait (s : State) (r : Request) (ahead : Nat) : State :=
  let nf := notFree s r ahead
  let s1 := (bitList 11 nf).foldl (fun t n => incSat t (Fld.SYS_RES_WAIT_WAITS n) 1) s
  setRequest s1 { r with waitedOn := r.waitedOn ||| nf }

/-- The set of a grant with that of its partner (R164). -/
def pairMask (s : State) (g : Grant) : Nat :=
  match g.partner with
  | some q => s.sched.grants.foldl (fun m x => if x.who = q ∧ !x.topUp then m ||| x.mask else m) g.mask
  | none => g.mask

/-- Shorten the leases of C2 and C3 grants that hold what a request needs, with the warning at once (R159, R166): C1 shortens
both, C3 with credit shortens C2. A paired set is cut as one. -/
def shortenFor (s : State) (r : Request) : State :=
  let cut (g : Grant) : Grant :=
    let may : Bool := !g.promoted && (g.cls == .c2 || (r.cls != .c3 && g.cls == .c3))
    if meets (pairMask s g) r.mask && may && !g.extended then
      { g with until_ := min g.until_ (s.clk.now + warnOf g.kind), warned := true, shortened := true } else g
  { s with sched := { s.sched with grants := s.sched.grants.map cut } }

/-- The part of a request's set that nothing has taken, which is kept for it; COEX is kept through its lead time too (R159, R163,
R169). -/
def freePart (s : State) (r : Request) (ahead : Nat) : Nat := r.mask &&& ((2 ^ 11 - 1) ^^^ (taken s r ahead))

/-- An ungranted request is counted, keeps so much of its set, and begins its wait for `CXGNT` (R159, R163, R171, R179). -/
def keepFor (s : State) (r : Request) (ahead kept : Nat) : State :=
  setRequest (countWait s r ahead) { r with
    reserved := kept
    waitedOn := r.waitedOn ||| notFree s r ahead
    cxSince := if r.mask.testBit 0 && r.cxSince.isNone then some s.clk.now else r.cxSince }

/-- An ungranted request keeps what is free of its set (R159, R163). -/
def reserve (s : State) (r : Request) (ahead : Nat) : State := keepFor s r ahead (freePart s r ahead)

/-- Resources reserved for requests. -/
def reservedMask (s : State) : Nat := s.sched.requests.foldl (fun m r => m ||| r.reserved) 0

/-- Grant, or shorten and reserve what is free of the set against those behind (R159, R161, R166). -/
def grantOrShorten (s : State) (r : Request) (ahead : Nat) (credited : Bool) : State :=
  if grantable s r ahead then grant s r credited none else shortenFor (reserve s r ahead) r

/-- Grant a C0 request, or keep COEX for it, foremost among the sets that wait for it (R161, R169, R179). -/
def grantOrStand (s : State) (r : Request) : State :=
  if grantable s r 0 then grant s r false none else keepFor s r 0 (freePart s r 0 &&& 1)

/-- Grant, or count the wait (R161, R179). -/
def grantOrWait (s : State) (r : Request) (ahead : Nat) : State :=
  if grantable s r ahead then grant s r false none else countWait s r ahead

/-- Credit K in units of 0.001 µs, brought up to now: SHARE × 0.1 % of the time while a C3 request is pending, capped (R166). -/
def growCredit (s : State) : State :=
  let waiting := s.sched.requests.any fun r => r.cls = .c3
  let k := if waiting then
      min 50000000 (s.sched.credit + (s.clk.now - s.sched.creditAt) * fld s Fld.SYS_C3CFG_SHARE / 100)
    else s.sched.credit
  { s with sched := { s.sched with credit := k, creditAt := s.clk.now } }

/-- The first channels of two entries on the two paths lie 1.2 MHz apart (R164). -/
def pairSpaced (s : State) (i : Nat) (e : Entry) (p : RfPath) (j : Nat) (d : Entry) : Bool :=
  match pairChans s i e p j d with
  | (some a, some b) => spaced12 a b
  | _ => false

/-- The use of the air of a head's partner (R149, R164). -/
def pairAir (s : State) (i : Nat) (e : Entry) (p : RfPath) (j : Nat) (d : Entry) : AirUse :=
  .carrier (BitVec.ofNat 4 (leafPorts s (entryLeaves s d))) ((pairChans s i e p j d).2.elim 0 fun c => chanKhz10 c / 10)

/-- The partner of a UHF head (R164, R278): the next UHF candidate of the walk on the other path that uses other ports, starts
1.2 MHz away, and allows pairing. -/
def pairFor (s : State) (i : Fin 1024) (p : RfPath) (cands : List Consumer) : Option (Fin 1024) :=
  match entryAt s i with
  | none => none
  | some e =>
    if !flag s Fld.BRM_CFG_DUAL || eBits e 55 0 0 != 1 then none else
    cands.findSome? fun c => match c with
      | .entry j =>
        match entryAt s j with
        | none => none
        | some d =>
          let ok := j != i && classKind (eClass d) == 1 && eBits d 55 0 0 == 1 &&
            (synthPaths d).contains (otherPath p) &&
            leafPorts s (entryLeaves s e) &&& leafPorts s (entryLeaves s d) == 0 && pairSpaced s i e p j d
          if ok then some j else none
      | _ => none

/-- The candidates of the walk after a consumer, on a working copy of the walk (R163), at most as many as given. -/
def candidates (s : State) : Nat → List Consumer → Walk → List Consumer
  | 0, _, _ => []
  | n + 1, skip, w =>
    match drrNext s skip w with
    | some (c, w1) => c :: candidates s n (skip ++ [c]) w1
    | none => []

/-- The request of a consumer. -/
def requestOf (s : State) (who : Consumer) : Option Request := s.sched.requests.find? fun r => r.who == who && !r.topUp

/-- The request of the immediate access accepted, on a path (R277): its own receive chains, or the leaves' where it names none. -/
def immRequest (s : State) (p : RfPath) : Option Request :=
  match s.brm.imm with
  | none => none
  | some (i, target, _, rx, _) =>
    match entryAt s i with
    | none => none
    | some e =>
      let ls := (leaves s target).filter fun n => rpKind s n == 1
      let air : AirUse := .carrier (BitVec.ofNat 4 (leafPorts s ls)) (match roundChan s i e false p with
        | some c => chanKhz10 c / 10
        | none => 0)
      some { who := .hostUhf, cls := .c1, kind := .uhfSlice, air := air,
             mask := withCoex s air (2 ^ resPath p ||| ((if rx = 0 then leafChains s ls else rx) * 8)), posted := s.clk.now }

/-- The paths that the entry of the immediate access allows. -/
def immPaths (s : State) : List RfPath := match s.brm.imm with
  | some q => (entryAt s q.1).elim [.a] synthPaths
  | none => [.a]

/-- What a request keeps when its set is drawn up anew. -/
def Request.asPosted (q r : Request) : Request :=
  { q with posted := r.posted, promoted := r.promoted, waitedOn := r.waitedOn, reserved := r.reserved, cxSince := r.cxSince }

/-- A UHF request on a path its entry allows that is free now, else as it stands. -/
def bestPath (s : State) (r : Request) (ahead : Nat) : Request × RfPath :=
  if r.topUp then (r, .a) else
  match r.who with
  | .hostUhf =>
    let opts := (immPaths s).filterMap fun p => (immRequest s p).map fun q => (q.asPosted r, p)
    (opts.find? fun o => grantable s o.1 ahead).getD (opts.headD (r, .a))
  | .entry i =>
    match entryAt s i with
    | some e =>
      if classKind (eClass e) = 1 then
        let opts := (synthPaths e).map fun p => ((entryRequest s i e p).asPosted r, p)
        (opts.find? fun o => grantable s o.1 ahead).getD (opts.headD (r, .a))
      else (r, .a)
    | none => (r, .a)
  | _ => (r, .a)

/-- The two halves of a paired set are granted: one lease, and the head's half holds what both use (R164), which the partner's chains
sample with it (R181). -/
def grantPair (s : State) (r q : Request) (i j : Fin 1024) (lease : Nat) : State :=
  let s1 := grantLease s r false (some (.entry j)) lease
  let s2 := grantLease s1 { q with mask := q.mask &&& ((2 ^ 11 - 1) ^^^ r.mask) } false (some (.entry i)) lease
  { s2 with sched := { s2.sched with grants := s2.sched.grants.map fun g =>
      if g.who == q.who && !g.topUp then { g with shared := q.mask &&& r.mask } else g } }

/-- A partner may be granted with a head as one set (R147, R149, R160, R164): its lease, where it may. -/
def pairLease (s : State) (r q : Request) (ahead : Nat) : Option Nat :=
  let both : Request := { r with mask := r.mask ||| q.mask }
  if notFree s both ahead = 0 ∧ entryReady s q ∧ (s.sched.grants.all fun g => airOk g.air q.air) then leaseFor s both else none

/-- Grant a UHF head with its partner as one paired set, or alone (R164). -/
def grantHead (s : State) (r0 : Request) (ahead : Nat) (cands : List Consumer) : State × Bool :=
  let (r, p) := bestPath s r0 ahead
  if !grantable s r ahead then (s, false)
  else
    let alone := (grant s r false none, true)
    match r.who with
    | .entry i =>
      match pairFor s i p cands with
      | some j =>
        match requestOf s (.entry j), entryAt s i, entryAt s j with
        | some q0, some e, some d =>
          let q := ({ entryRequest s j d (otherPath p) with air := pairAir s i e p j d } : Request).asPosted q0
          match pairLease s r q ahead with
          | some l => (grantPair s r q i j l, true)
          | none => alone
        | _, _, _ => alone
      | none => alone
    | _ => alone

/-- Ungranted requests of a kind by posting time. -/
def byPosting (s : State) (p : Request → Bool) : List Request :=
  (s.sched.requests.filter p).insertionSort fun a b => a.posted ≤ b.posted

/-- Backfill by one candidate, alone (R163). -/
def backfill (t : State) (c : Consumer) : State :=
  match requestOf t c with
  | some r => grantOrWait t (bestPath t r (reservedMask t)).1 (reservedMask t)
  | none => t

/-- The grant of the C2 head, or its reservation (R161, R163). -/
def headC2 (s : State) (h : Consumer) (cands : List Consumer) : State :=
  match requestOf s h with
  | none => s
  | some r =>
    let ahead := reservedMask s
    let g := grantHead s r ahead cands
    if g.2 then g.1 else reserve s (bestPath s r ahead).1 ahead

/-- The C2 head, its reservation, and the backfill (R161, R163). -/
def decideC2 (s : State) : State :=
  match drrNext s [] s.sched.walk with
  | none => s
  | some (h, w1) =>
    let s1 := { s with sched := { s.sched with walk := w1 } }
    let cands := candidates s1 s1.sched.requests.length [h] w1
    cands.foldl backfill (headC2 s1 h cands)

/-- `CXREQ` and `CXPRI` in the requester role (R169). At a posting they only rise, so that one set after the other keeps `CXREQ` high;
they fall at the decision of a grant point, which knows the next head (R170). -/
def cxRequester (s : State) (mayFall : Bool) : State :=
  let firmWait := s.sched.requests.any fun r => r.mask.testBit 0 &&
    ((r.cls = .c0 && (r.freeAt.isNone || r.cxSince.isSome)) || r.cls = .c1 || r.promoted)
  let waitSoft := s.sched.requests.any fun r => r.mask.testBit 0 &&
    (r.cxSince.isSome || (r.cls = .c3 && leaseOf s r.kind * 10 ≤ s.sched.credit))
  let holds := s.sched.grants.any fun g => g.mask.testBit 0
  let firmHold := s.sched.grants.any fun g => g.mask.testBit 0 && (g.cls = .c0 || g.cls = .c1 || g.promoted || g.extended)
  let req := holds || firmWait || waitSoft || (!mayFall && flag s Fld.SYS_STAT_CXREQ)
  let pri := firmHold || firmWait || (!mayFall && flag s Fld.SYS_STAT_CXPRI)
  let s1 := if req && flag s Fld.SYS_STAT_CXREQ then s
    else { s with sched := { s.sched with cxreqAt := s.clk.now, cxLead := false } }
  let s2 := if pri && flag s Fld.SYS_STAT_CXPRI then s1
    else { s1 with sched := { s1.sched with cxpriAt := s.clk.now, cxpriLead := false } }
  setFld (setFld s2 Fld.SYS_STAT_CXREQ (if req then 1 else 0)) Fld.SYS_STAT_CXPRI (if pri then 1 else 0)

/-- The outputs of the coexistence role in force; those of a role not in force are low (R168, R169, R172). -/
def cxOutputs (s : State) (mayFall : Bool) : State :=
  let low (t : State) : State := setFld (setFld t Fld.SYS_STAT_CXREQ 0) Fld.SYS_STAT_CXPRI 0
  if cxRole s = 1 then setFld (cxRequester s mayFall) Fld.SYS_STAT_XGNT 0
  else if cxRole s = 2 then
    setFld (low s) Fld.SYS_STAT_XGNT (if s.sched.grants.any fun g => g.who = .external then 1 else 0)
  else setFld (low s) Fld.SYS_STAT_XGNT 0

/-- The outputs after a grant point's decision, and before it. -/
def cxUpdate (s : State) : State := cxOutputs s true
def cxPost (s : State) : State := cxOutputs s false

/-- A scheduled C0 item whose free time has come (R158). -/
def Request.dueC0 (s : State) (r : Request) : Bool := r.cls = .c0 && r.freeAt.elim false fun t => t ≤ s.clk.now

/-- C2 requests that stand at no node of the tree: a holder's top-up, and the loader's fill for a C2 entry. Where they stand among
C2 the rules do not say: after credited C3 and ahead of the head (DESIGN CHOICE, log entry 36). -/
def Request.outOfTree (s : State) (r : Request) : Bool :=
  r.cls = .c2 && !r.promoted && (r.topUp || (nodePath s r.who).isEmpty)

/-- One grant point's decision (R161), without the start of the work it grants. Each reservation stands against the requests
behind it in this order only. The requests of `outOfTree` come after credited C3 and before the head (DESIGN CHOICE, log entry 36). -/
def decide_ (s0 : State) : State :=
  let p := growCredit (postEntries s0)
  let s := { p with sched := { p.sched with requests := p.sched.requests.map fun r => { r with reserved := 0 } } }
  let sa := (byPosting s (Request.dueC0 s)).foldl grantOrStand s
  let s1 := (byPosting sa fun r => r.cls = .c0 && r.freeAt.isNone).foldl grantOrStand sa
  let s2 := (byPosting s1 fun r => r.cls = .c1 || r.promoted).foldl (fun t r =>
    grantOrShorten t (bestPath t r (reservedMask t)).1 (reservedMask t) false) s1
  let s3 := (byPosting s2 fun r => r.cls = .c3 && leaseOf s2 r.kind * 10 ≤ s2.sched.credit).foldl (fun t r =>
    grantOrShorten t r (reservedMask t) true) s2
  let tops := (byPosting s3 (Request.outOfTree s3)).foldl (fun t r => grantOrWait t r (reservedMask t)) s3
  let s4 := decideC2 tops
  let s5 := (byPosting s4 fun r => r.cls = .c3 && r.reserved = 0).foldl (fun t r =>
    if leaseOf s2 r.kind * 10 ≤ s2.sched.credit then t else grantOrWait t r (reservedMask t)) s4
  cxUpdate s5

/-! ### Ends of grants -/

/-- The held time of a grant in µs. -/
def heldUs (s : State) (g : Grant) : Nat := (s.clk.now - g.since) / 100

/-- A first RF grant starts RF bias where it is off, and with any RF grant ACTIVE becomes RADIO (R54, R182). -/
def rfStart (s : State) (mask : Nat) : State :=
  if meets mask rfMask then
    let s1 := { s with clk := { s.clk with rfIdleSince := none,
                                           biasRising := s.clk.biasRising || !flag s Fld.SYS_CLKSTAT_RFBIAS } }
    if mode s1 = 3 then setMode s1 4 else s1
  else s

/-- An RF grant is over; RFHOLD runs from the end of the last one (R54). -/
def rfOver (s : State) (mask : Nat) : State :=
  if meets mask rfMask && !rfHeld s then { s with clk := { s.clk with rfIdleSince := some s.clk.now } } else s

/-- Take a consumer's grant away, with its top-ups, held or asked for: C2 is charged its held time, C3 on credit spends it (R152,
R163, R166). The coexistence outputs follow at the grant point's decision, which knows the next head (R169, R170). -/
def endGrant (s : State) (who : Consumer) : State :=
  match grantOf s who with
  | none => s
  | some g =>
    let s1 := { s with sched := { s.sched with
      grants := s.sched.grants.filter fun x => x.who != who
      requests := s.sched.requests.filter fun r => !(r.who == who && r.topUp)
      ops := s.sched.ops.filter fun o => !(o.req.who == who && o.req.topUp) } }
    let s2 := if g.cls = .c2 then charge s1 who (heldUs s g) else s1
    let s3 := if g.credited then { s2 with sched := { s2.sched with credit := s2.sched.credit - 1000 * heldUs s g } } else s2
    let s4 := if rfHeld s then rfOver s3 rfMask else s3
    let s5 := match who with
      | .entry i => { s4 with slate := { s4.slate with
          ended := s4.slate.ended.filter (fun p => p.1 != i.val) ++ [(i.val, s4.clk.now)] } }
      | _ => s4
    grantPoint s5

/-- The views of `SYS_GRANTED` and of the coexistence inputs in `SYS_STAT` (R168, R175). -/
def sysGranted (s : State) : Word := BitVec.ofNat 32 (reservedMask s * 2 ^ 16 + held s)

def sysStat (s : State) : Word :=
  let b (x : Bool) : Nat := if x then 1 else 0
  putBits (putBits (putBits (reg s Adr.SYS_STAT) 12 12 (b s.pins.xreq)) 10 10 (b s.pins.cxgnt)) 7 7
    (b (fld s Fld.SYS_STAT_SHED != 0))

end Sys2Proof.Machine
end

