-- ==== Sys2Proof/Machine/Post.lean ====
section
/-! DEFINITION. The posting and withdrawal of requests, top-ups, and operations that take their turn on a resource (R145, R148,
R153, R154, R157). -/

namespace Sys2Proof.Machine

open Sys2Proof

/-! ### Posting -/

/-- Two intervals overlap. -/
def overlaps (a b c d : Nat) : Bool := a < d && c < b

/-- A scheduled C0 item cannot be posted (R157): less than 10 ms ahead, or over the fence of another scheduled C0 item, waiting or
running, on a shared resource. -/
def collides (s : State) (r : Request) (t : Nat) : Bool :=
  let e := t + leaseOf s r.kind
  decide (t < s.clk.now + ms 10) ||
    (s.sched.requests.any fun q => match q.freeAt with
      | some u => q.cls == .c0 && meets q.fenced r.fenced && overlaps t e u (u + leaseOf s q.kind)
      | none => false) ||
    s.sched.grants.any fun g => g.scheduled && meets (g.mask ||| g.fence) r.fenced && overlaps t e g.since g.until_

/-- A grant whose lease crosses a fence on a resource that it or its partner holds ends at the free time; its warning is due at
once where its time has passed (R157, R164). -/
def fenceGrants (s : State) (mask t : Nat) : State :=
  let cut (g : Grant) : Grant :=
    if meets (pairMask s g) mask && t < g.until_ then
      { g with until_ := t, shortened := true, warned := g.warned || decide (t < s.clk.now + warnOf g.kind) } else g
  { s with sched := { s.sched with grants := s.sched.grants.map cut } }

/-- The consumer may post (R154): it has no request of its own waiting, and holds no grant. -/
def mayPost (s : State) (who : Consumer) : Bool := !posted s who && (grantOf s who).isNone

/-- Put a request on the list: a grant point (R146), at which `CXREQ` and `CXPRI` follow (R169). The credit of C3 is brought up to
date first, since it grows only while a C3 request waits (R166). -/
def putRequest (s : State) (r : Request) : State :=
  let t := growCredit s
  cxPost (grantPoint { t with sched := { t.sched with requests := t.sched.requests ++ [r] } })

/-- A request as it is posted: now, with COEX where R148 adds it. -/
def asPostedNow (s : State) (r : Request) : Request := { r with mask := withCoex s r.air r.mask, posted := s.clk.now }

/-- A request is posted; the answer says whether it stands. A scheduled C0 item fences its resources, or is refused and counted
(R145, R157). -/
def postRequest (s : State) (r0 : Request) : State × Bool :=
  let r := asPostedNow s r0
  if r.mask = 0 ∨ ¬mayPost s r.who then (s, false)
  else
    match r.freeAt with
    | some t =>
      if r.cls = .c0 then
        if collides s r t then (incSat s Fld.SYS_SCHCNT3_COLLIDE 1, false)
        else (putRequest (fenceGrants s r.fenced t) r, true)
      else (putRequest s r, true)
    | none => (putRequest s r, true)

/-! ### Withdrawal -/

/-- The immediate access is over without a round, or with one (R277, R294): its result, and the tags it completed. -/
def immOver (s : State) (res tags : Nat) : State :=
  let s1 := setFld (setFld (clrFld s Fld.BRM_IMMSTAT_BUSY) Fld.BRM_IMMSTAT_RESULT res) Fld.BRM_IMMSTAT_TAGS (min 15 tags)
  { s1 with brm := { s1.brm with imm := none } }

/-- What goes with a host request that is withdrawn: an immediate access ends ABORTED (log entry 39), an OPEN is forgotten. -/
def withdrawn (s : State) (who : Consumer) : State :=
  match who with
  | .hostUhf => if posted s who && s.brm.imm.isSome then immOver s 3 0 else s
  | .hostHf => if posted s who then { s with hf := { s.hf with opening := none } } else s
  | _ => s

/-- Ungranted requests of a consumer are withdrawn; their reservations lapse with them (R153). -/
def withdraw (s : State) (who : Consumer) : State :=
  let t := growCredit (withdrawn s who)
  grantPoint { t with sched := { t.sched with requests := t.sched.requests.filter fun r => r.who != who } }

/-- What a link slot on the air fences beside its own resources (R386): SYN-A and TXA, unless it only receives, on a port that no UHF
read point names, and CONCUR is 1. -/
def linkFence (s : State) (air : AirUse) : Nat :=
  match air with
  | .linkRx port _ =>
    if flag s Fld.LNK_PHYCFG_CONCUR ∧ (List.range 64).all (fun n => rpKind s n != 1 || rpPort s n != port.val) then 0 else 2
  | _ => 2

/-- The request a row posts. -/
def specRequest (s : State) (q : RequestSpec) : Request :=
  { who := q.who, cls := q.cls, mask := q.mask.toNat, kind := q.kind, air := q.air,
    fence := match q.who with
      | .linkSlot _ => linkFence s q.air
      | _ => 0
    freeAt := match q.cls with
      | .c0 => q.freeIn.map fun n => s.clk.now + us n
      | _ => none }

def execRequestPost (req : RequestSpec) (s : State) : Host.Outcome State Fault Refusal :=
  next (postRequest s (specRequest s req)).1

def execRequestWithdraw (who : Consumer) (s : State) : Host.Outcome State Fault Refusal := next (cxPost (withdraw s who))

/-! ### Top-ups -/

/-- The highest resource of a set, and the lowest (R154). -/
def topOf (mask : Nat) : Nat := (bitList 11 mask).getLastD 0
def lowOf (mask : Nat) : Nat := (bitList 11 mask).headD 0

/-- A consumer's top-up, granted, and asked for. -/
def topUpGrant (s : State) (who : Consumer) : Option Grant := s.sched.grants.find? fun g => g.who == who && g.topUp
def topUpRequest (s : State) (who : Consumer) : Option Request := s.sched.requests.find? fun r => r.who == who && r.topUp

/-- The request of a top-up: of the holder's class, for resources that come later in the order than all it holds, one at a time
(R154). -/
def topUpOf (s : State) (who : Consumer) (mask : Nat) (kind : LeaseKind) : Option Request :=
  match grantOf s who with
  | none => none
  | some g =>
    if mask = 0 ∨ (topUpGrant s who).isSome ∨ (topUpRequest s who).isSome ∨ ¬topOf g.mask < lowOf mask then none
    else some { who := who, cls := g.cls, mask := mask, kind := kind, posted := s.clk.now, promoted := g.promoted, topUp := true }

/-- A holder posts a top-up (R154). -/
def topUp (s : State) (who : Consumer) (mask : Nat) (kind : LeaseKind) : State :=
  match topUpOf s who mask kind with
  | some r => putRequest s r
  | none => s

def execTopUp (holder : Consumer) (mask : BitVec 11) (kind : LeaseKind) (s : State) : Host.Outcome State Fault Refusal :=
  next (topUp s holder mask.toNat kind)

/-- The top-up of a holder is over: its grant or its request goes (R154). -/
def topUpDone (s : State) (who : Consumer) : State :=
  cxPost (grantPoint { s with sched := { s.sched with
    requests := s.sched.requests.filter fun r => !(r.who == who && r.topUp)
    grants := s.sched.grants.filter fun g => !(g.who == who && g.topUp) } })

/-- The same with the operations that waited for it, which do not take place. -/
def releaseTopUp (s : State) (who : Consumer) : State :=
  let t := topUpDone s who
  { t with sched := { t.sched with ops := t.sched.ops.filter fun o => !(o.req.who == who && o.req.topUp) } }

/-! ### Turns (log entry 35) -/

/-- The scheduler makes grants: the start is over and the core runs (R97, R100, R146). -/
def arbitrated (s : State) : Bool := flag s Fld.SYS_BOOTSTAT_DONE && 3 ≤ mode s

/-- A set lies within another. -/
def covers (have_ want : Nat) : Bool := want &&& ((2 ^ 11 - 1) ^^^ have_) == 0

/-- What the grants of a consumer hold, top-ups with them. -/
def holdsOf (s : State) (who : Consumer) : Nat :=
  s.sched.grants.foldl (fun m g => if g.who = who then m ||| g.mask else m) 0

/-- A request is granted at the grant point that it makes: its set is free and no request waits for any of it. -/
def atOnce (s : State) (r : Request) : Bool :=
  (s.sched.requests.all fun q => !meets q.mask r.mask) && grantable s r 0

/-- Work takes its turn on a resource (R22, R23, R145): at once where its consumer holds the resource or nothing arbitrates it; granted,
done and released in one step where its request finds it free; else `wait` notes that it waits, and its request is posted. -/
def turnOr (s : State) (r0 : Request) (run : State → State) (wait : State → State) : State :=
  let r := asPostedNow s r0
  if !arbitrated s || covers (holdsOf s r.who) r.mask then run s
  else if mayPost s r.who && atOnce s r then grantPoint (rfOver (run (rfStart (countGrant s r) r.mask)) r.mask)
  else (postRequest (wait s) r0).1

/-- A command takes its turn, or waits as an operation, which `wait` may show in a register. -/
def turn (s : State) (r0 : Request) (cmd : Instr) (run : State → State) (wait : State → State := id) : State :=
  turnOr s r0 run fun u =>
    let t := wait u
    { t with sched := { t.sched with ops := t.sched.ops ++ [{ req := r0, cmd := cmd }] } }

/-- The request of a transaction on the memory port, and of a page operation on the tag store (R150, R156). -/
def mspRequest (who : Consumer) (cls : Class) : Request := { who := who, cls := cls, mask := 2 ^ resMsp, kind := .msp }
def nvmRequest (who : Consumer) (cls : Class) : Request := { who := who, cls := cls, mask := 2 ^ resTagnvm, kind := .tagPage }

/-- A holder takes Flint for an operation now (R154): where nothing arbitrates it, where it holds it, or by a top-up that is granted at
once; the top-up's grant is counted. None where it has to wait. -/
def flintTake (s : State) (who : Consumer) : Option State :=
  if !arbitrated s || (grantOf s who).isNone || (holdsOf s who).testBit resFlint then some s
  else
    match topUpOf s who (2 ^ resFlint) .flint with
    | some r => if atOnce s r then some (grantPoint (countGrant s r)) else none
    | none => none

/-- The top-up of an operation that has to wait for Flint (R154). -/
def flintWait (s : State) (who : Consumer) : State := topUp s who (2 ^ resFlint) .flint

/-- An operation takes its turn on Flint within its consumer's grant, or waits for it as its command (R154; log entry 35). -/
def flintTurn (s : State) (who : Consumer) (cmd : Instr) (run : State → State) : State :=
  match flintTake s who with
  | some t => run t
  | none =>
    let r : Request := { who := who, cls := .c2, mask := 2 ^ resFlint, kind := .flint, topUp := true }
    flintWait { s with sched := { s.sched with ops := s.sched.ops ++ [{ req := r, cmd := cmd }] } } who

/-- A request for each operation that waits without one: a consumer has one request at a time (R154). -/
def opsPost (s : State) : State :=
  s.sched.ops.foldl (fun t o =>
    if o.req.topUp then topUp t o.req.who o.req.mask o.req.kind else (postRequest t o.req).1) s

/-- The operation that a new grant carries out, and the list without it. -/
def nextOp (s : State) (g : Grant) : Option (WaitOp × List WaitOp) :=
  (s.sched.ops.find? fun o => o.req.who == g.who && o.req.topUp == g.topUp).map fun o => (o, s.sched.ops.erase o)

end Sys2Proof.Machine
end

