-- ==== Sys2Proof/Machine/Journal.lean ====
section
/-! DEFINITION. The journal on serial NAND: records, pages, the ring, META pages, format, mount, and the read buffer
(R468–R483). -/

namespace Sys2Proof.Machine

open Sys2Proof

/-! ### Withheld transmission -/

/-- The head frame is on the air, or waits for its Imm-Ack. -/
def headOnAir (s : State) : Bool := s.lnk.act == .tx || s.lnk.act == .ackWait

/-- The engine's step once the queue is withheld: what the head frame was about ends, unless it is on the air. -/
def actWithheld : LnkAct → LnkAct
  | .listen .. => .idle
  | .backoff .. => .idle
  | .retry => .idle
  | .securing => .idle
  | a => a

/-- Secured transmission is withheld for a reason of R503: the flag, its fault record when it begins, and the queued frames
end WITHHELD (R418); one that is on the air has been sent. -/
def withhold (s : State) (why : Nat) : State :=
  let s1 := if flag s Fld.LNK_TXSTAT_WITHHELD then s
    else fault (setFlag s Fld.LNK_TXSTAT_WITHHELD) 0x0D 0 0x0E [BitVec.ofNat 8 why]
  let kept := if headOnAir s1 then 1 else 0
  (s1.lnk.queue.drop kept).foldl (fun t f => txPacket t f 5)
    { s1 with lnk := { s1.lnk with queue := s1.lnk.queue.take kept, act := actWithheld s1.lnk.act } }

/-- Why secured transmission is withheld now, as a reason of R503: the journal failed, its checkpoints cannot be programmed, or
the counter is exhausted (R418). -/
def withheldNow (s : State) : Option Nat :=
  if flag s Fld.SYS_BOOTSTAT_JNLFAIL then some 1
  else if flag s Fld.JNL_STAT_FAILED then some 2
  else if 2 ^ 32 ≤ s.lnk.next then some 3
  else none

/-- WITHHELD follows its causes (R418). -/
def withholdUpdate (s : State) : State :=
  match withheldNow s with
  | some w => withhold s w
  | none => clrFld s Fld.LNK_TXSTAT_WITHHELD

/-! ### Records -/

/-- A record: header, body, zeros to the unit, CRC-16 from byte 4 on (R471). -/
def jrecord (type time : Nat) (body : List Byte) : JRecord :=
  let units := (12 + body.length + 31) / 32
  let rest := leBytes 8 time ++ body ++ List.replicate (32 * units - 12 - body.length) 0
  BitVec.ofNat 8 type :: BitVec.ofNat 8 units :: leBytes 2 (crc16 rest) ++ rest

/-- Units of a record (R471). -/
def junits (r : JRecord) : Nat := (r.getD 1 0).toNat % 128

/-- A record as compaction copies it: COPIED set (R478). -/
def jcopied (r : JRecord) : JRecord := r.set 1 (r.getD 1 0 ||| 0x80)

/-- The Q64 time in two words of a packet, high half first. -/
def jtime (ws : List Word) (k : Nat) : Nat := (ws.getD k 0).toNat * 2 ^ 32 + (ws.getD (k + 1) 0).toNat

def jbit (b : Bool) (k : Nat) : Nat := if b then 2 ^ k else 0

/-- A SIGHTING record from an SGT packet and the elapsed ms (R473). -/
def jsighting (s : State) (elapsed : Nat) (ws : List Word) : JRecord :=
  let e := unpackWords (ws.drop 3)
  let b (k : Nat) : Byte := e.getD k 0
  let fl := leNat [b 46, b 47]
  let len := (b 59).toNat % 32
  let two := 12 < len || flag s Fld.JNL_CFG_SGTFULL
  let count := leNat [b 40, b 41]
  let common := leBytes 2 (min 0xFFFF (elapsed / 10)) ++
    [b 60, BitVec.ofNat 8 ((b 62).toNat % 4 + jbit (fl.testBit 0) 2 + jbit (fl.testBit 1) 3 + jbit (fl.testBit 2) 4 +
       jbit (fl.testBit 4) 5 + jbit (fl.testBit 7) 6 + jbit (fl.testBit 6) 7),
     b 59, b 56, BitVec.ofNat 8 (min 255 count), b 63]
  let body := if two then common ++ e.take 16 ++ (e.drop 32).take 8 ++ [b 44, b 45, b 46, b 47, b 40, b 41, b 61, 0, b 42, b 43]
    else common ++ e.take 12
  jrecord 0x01 (leNat ((e.drop 16).take 8)) body

/-- An INTERVAL record from a TRF packet (R474). -/
def jinterval (ws : List Word) : JRecord :=
  let w := ws.headD 0
  jrecord 0x02 (jtime ws 1) ([BitVec.ofNat 8 (bitsOf w 27 21), BitVec.ofNat 8 (bitsOf w 19 16)] ++ leBytes 2 (bitsOf w 11 0) ++
    unpackWords ((ws.drop 3).take 3) ++ leBytes 2 (bitsOf (ws.getD 6 0) 31 16))

/-- A FAULT record from an FLT packet and its number of detail bytes (R474). -/
def jfault (n : Nat) (ws : List Word) : JRecord :=
  let w := ws.headD 0
  jrecord 0x03 (jtime ws 1) ([BitVec.ofNat 8 (bitsOf w 23 16), BitVec.ofNat 8 (bitsOf w 15 8), BitVec.ofNat 8 (bitsOf w 7 0),
    BitVec.ofNat 8 (min 16 n)] ++ (unpackWords (ws.drop 3)).take (min 16 n))

/-- A LINKEVENT record from an LST packet (R474). -/
def jlink (ws : List Word) : JRecord :=
  jrecord 0x04 (jtime ws 1) (unpackWords [ws.headD 0] ++ unpackWords ((ws.drop 3).take 3))

/-- A CONFIG record from its internal packet (R475, log entry 12). -/
def jconfig (ws : List Word) : JRecord :=
  let h := (ws.getD 2 0).toNat
  let n := h / 2 ^ 24 % 32
  jrecord 0x07 (jtime ws 0) ([BitVec.ofNat 8 h, BitVec.ofNat 8 (h / 2 ^ 8), BitVec.ofNat 8 (h / 2 ^ 16), BitVec.ofNat 8 n] ++
    leBytes 2 (ws.getD 3 0).toNat ++ [0, 0] ++ unpackWords ((ws.drop 4).take n))

/-- A GAP record (R474). -/
def jgap (s : State) (w : Word) : JRecord := jrecord 0x08 (q64 s) (leBytes 2 (bitsOf w 15 0))

/-- The record of an internal packet: its tag word says which (R472, log entry 12). -/
def jbuild (s : State) (ws : List Word) : Option JRecord :=
  let t := (ws.headD 0).toNat
  match t % 2 ^ 8 with
  | 0x01 => some (jsighting s (ws.getD 1 0).toNat (ws.drop 2))
  | 0x02 => some (jinterval (ws.drop 1))
  | 0x03 => some (jfault (t / 2 ^ 8) (ws.drop 1))
  | 0x04 => some (jlink (ws.drop 1))
  | 0x07 => some (jconfig (ws.drop 1))
  | _ => none

/-! ### The page buffer -/

/-- Units of a list of records. -/
def junitsAll (rs : List JRecord) : Nat := (rs.map junits).sum

/-- Close the page buffer: the page waits to be programmed, and the next record starts a new one (R477). -/
def jclose (s : State) : State :=
  if s.jnl.buffer.isEmpty then s
  else { s with jnl := { s.jnl with full := s.jnl.full ++ [s.jnl.buffer], buffer := [] } }

/-- Put a record into the page buffer; a page holds 127 units, and records never span pages (R470, R477). -/
def jappend (s : State) (r : JRecord) : State :=
  let s1 := if 127 < junitsAll s.jnl.buffer + junits r then jclose s else s
  let s2 := { s1 with jnl := { s1.jnl with
    bufferAt := if s1.jnl.buffer.isEmpty then s1.clk.now else s1.jnl.bufferAt
    buffer := s1.jnl.buffer ++ [r] } }
  if junitsAll s2.jnl.buffer = 127 then jclose s2 else s2

/-- A record of so many units finds room in the 16 page buffers (R45). -/
def jfits (s : State) (units : Nat) : Bool :=
  s.jnl.full.length < 15 || (s.jnl.full.length == 15 && junitsAll s.jnl.buffer + units ≤ 127)

/-- The page buffers have room for the record of one more packet, which takes at most 3 units (R472). -/
def jroom (s : State) : Bool := jfits s 3

/-! ### Blocks -/

/-- The maker has marked a block bad (R468). -/
def jfactoryBad (s : State) (b : Nat) : Bool := s.jnl.spare.any fun p => p.1 == b && p.2 != 0xFF

/-- A data page counts (R470): its header's magic and CRC are good, its FMTID is that of the META page in force, and no read has found it
uncorrectable. -/
def jcounts (s : State) (p : Nat × List Byte) : Bool :=
  p.2.take 4 == [0x59, 0x47, 0x4A, 0x50] && leNat ((p.2.drop 30).take 2) == crc16 (p.2.take 30) &&
    leNat ((p.2.drop 12).take 4) == s.jnl.fmtId && !s.jnl.uce.contains p.1

/-- PSEQ of a data page (R470). -/
def jpageSeq (bs : List Byte) : Nat := leNat ((bs.drop 4).take 4)

/-- A block that data may use (R469). -/
def jgood (s : State) (b : Nat) : Bool := b < s.jnl.nblk && !s.jnl.bad.contains b && !s.jnl.mpool.contains b

/-- The good data block after a block, round the NAND. -/
def jafter (s : State) (b : Nat) : Option Nat :=
  ((List.range s.jnl.nblk).find? fun k => jgood s ((b + 1 + k) % s.jnl.nblk)).map fun k => (b + 1 + k) % s.jnl.nblk

/-- The number of good data blocks. -/
def jgoodCount (s : State) : Nat := s.jnl.nblk - (s.jnl.bad ++ s.jnl.mpool.filter fun b => !s.jnl.bad.contains b).length

def jhead (s : State) : Nat := s.jnl.ring.getLastD 0
def jtail (s : State) : Nat := s.jnl.ring.headD 0

/-- The pages of a block, by page number. -/
def jblock (s : State) (b : Nat) : NandPages := s.jnl.nand.filter fun p => p.1 / 64 == b

/-- The pages of a block that count (R470). -/
def jcounted (s : State) (b : Nat) : NandPages := (jblock s b).filter (jcounts s)

/-- A NAND page as programmed; none when erased. -/
def jpage (s : State) (n : Nat) : Option (List Byte) := (s.jnl.nand.find? fun p => p.1 == n).map fun p => p.2

/-- Erase a block. -/
def jeraseBlock (s : State) (b : Nat) : State :=
  { s with jnl := { s.jnl with nand := s.jnl.nand.filter fun p => p.1 / 64 != b
                               uce := s.jnl.uce.filter fun n => n / 64 != b } }

/-- Program a page, keeping page numbers rising. -/
def jput (s : State) (n : Nat) (bs : List Byte) : State :=
  { s with jnl := { s.jnl with nand := s.jnl.nand.filter (fun p => p.1 < n) ++ [(n, bs)] ++ s.jnl.nand.filter fun p => n < p.1 } }

/-! ### META pages -/

/-- The BBT: bit b set when block b is bad (R469). -/
def jbbt (s : State) : List Byte :=
  (List.range 2048).map fun k => BitVec.ofNat 8 (((s.jnl.bad.filter fun b => b / 8 == k).map fun b => 2 ^ (b % 8)).sum)

/-- The bytes of a META page (R469). -/
def jmetaBytes (s : State) : List Byte :=
  let j := s.jnl
  let body := [0x59, 0x47, 0x4A, 0x4D] ++ leBytes 4 j.mseq ++ leBytes 4 j.fmtId ++ leBytes 2 j.nblk ++ leBytes 2 j.bad.length ++
    leBytes 2 (jhead s) ++ leBytes 2 (jtail s) ++ leBytes 4 j.headPseq ++ leBytes 2 j.mounts ++ [0, 0] ++
    leBytes 4 j.fcPos ++ leBytes 4 j.dutyPos ++ ((List.range 8).flatMap fun k => leBytes 2 (j.mpool.getD k 0)) ++
    List.replicate 12 0 ++ jbbt s ++ List.replicate 1980 0
  body ++ leBytes 4 (crc32 body)

/-- Write the next META page across the pool; a pool block is erased when writing reaches it (R469). -/
def jmeta (s : State) : State :=
  let b := s.jnl.mpool.getD (s.jnl.metaAt / 64 % 8) 0
  let s1 := { s with jnl := { s.jnl with mseq := (s.jnl.mseq + 1) % 2 ^ 32 } }
  let s2 := if s1.jnl.metaAt % 64 = 0 then jeraseBlock s1 b else s1
  let s3 := jput s2 (64 * b + s2.jnl.metaAt % 64) (jmetaBytes s2)
  { s3 with jnl := { s3.jnl with metaAt := (s3.jnl.metaAt + 1) % 512 } }

/-! ### Failures -/

/-- Writing stops: FAILED, the fault records, the channel and the page buffer discarded, secured transmission withheld (R479,
R418). The link's record enters before the journal's (R485). -/
def jstop (s : State) (b : Nat) : State :=
  let s1 := fault (withhold (setFlag s Fld.JNL_STAT_FAILED) 2) 0x10 0 0x0D (leBytes 2 b ++ [3])
  { setChan s1 8 (chanDrop s1.clk.now (chan s1 8)) with
    jnl := { s1.jnl with buffer := [], full := [], inHand := [], inHandBad := false, fcDue := false, dutyDue := false } }

/-- A block marked bad leaves the good data blocks too few (R479). -/
def jtooFew (s : State) (b : Nat) : Bool :=
  jgoodCount { s with jnl := { s.jnl with bad := s.jnl.bad ++ [b] } } < fld s Fld.JNL_CFG_RESERVE + 8

/-- A block is newly marked bad and META is written; too few good data blocks stop the journal (R469, R479). -/
def jmarkBad (s : State) (b : Nat) : State :=
  let s1 := jmeta { s with jnl := { s.jnl with bad := s.jnl.bad ++ [b], erased := s.jnl.erased.filter fun x => x != b } }
  if jtooFew s b then jstop s1 b else s1

/-- A block failed a program (1) or an erase (2) (R479). Where that stops the journal, the link's record enters first (R485). -/
def jblockFail (s : State) (b why : Nat) : State :=
  let s1 := if jtooFew s b then withhold s 2 else s
  jmarkBad (raise (fault (incSat s1 Fld.JNL_CNT0_GROWN 1) 0x10 0 0x0D (leBytes 2 b ++ [BitVec.ofNat 8 why])) 56) b

/-! ### Erasing ahead -/

/-- A record's CRC is good (R471). -/
def jsound (r : JRecord) : Bool := leNat ((r.drop 2).take 2) == crc16 (r.drop 4)

/-- TYPE and TIME of a record (R471). -/
def jtype (r : JRecord) : Nat := (r.headD 0).toNat
def jrecTime (r : JRecord) : Nat := leNat ((r.drop 4).take 8)

/-- The records among bytes with their positions from `at_` on, each by its UNITS: 0xFF ends them, and one with a bad CRC is skipped
(R471). -/
def jsplit : Nat → Nat → List Byte → List (Nat × JRecord)
  | 0, _, _ => []
  | f + 1, at_, bs =>
    match bs with
    | [] => []
    | t :: _ =>
      let u := junits bs
      let r := bs.take (32 * u)
      if t = 0xFF ∨ u = 0 then []
      else (if r.length = 32 * u ∧ jsound r then [(at_, r)] else []) ++ jsplit f (at_ + u) (bs.drop (32 * u))

/-- The records of some blocks with their positions, coded as FCPOS, in order (R469, R470). -/
def jlisted (s : State) (bs : List Nat) : List (Nat × JRecord) :=
  bs.flatMap fun b => (jcounted s b).flatMap fun p => jsplit 127 (p.1 * 2 ^ 7) (p.2.drop 32)

/-! ### Checkpoint sets -/

/-- Part number and LAST of a frame-counter record (R476). -/
def fcPart (r : JRecord) : Nat := (r.getD 22 0).toNat

/-- A set of frame-counter records is whole: its last part, and every part before it (R476). -/
def fcWhole (rs : List JRecord) : Bool :=
  (List.range 128).any fun n => rs.any (fun r => fcPart r == 128 + n) && (List.range n).all fun k => rs.any fun r => fcPart r == k

/-- A set of duty records is whole: as many sub-bands as each record says (R476). -/
def dutyWhole (rs : List JRecord) : Bool :=
  !rs.isEmpty && (rs.map fun r => r.getD 12 0).dedup.length == ((rs.headD []).getD 13 0).toNat

/-- A set of checkpoint records of a type is whole. -/
def ckptWhole (t : Nat) (l : List (Nat × JRecord)) : Bool :=
  if t = 0x05 then fcWhole (l.map fun x => x.2) else dutyWhole (l.map fun x => x.2)

/-- A checkpoint record joins those of its set, which share its TIME; those of an earlier set that is not whole are left (R476). -/
def ckptJoin (l : List (Nat × JRecord)) (x : Nat × JRecord) : List (Nat × JRecord) :=
  l.filter (fun y => jrecTime y.2 == jrecTime x.2) ++ [x]

/-- The newest whole set of a type in a list of records. -/
def ckptNewest (t : Nat) (l : List (Nat × JRecord)) : Option (List (Nat × JRecord)) :=
  (l.foldl (fun (q : List (Nat × JRecord) × Option (List (Nat × JRecord))) x =>
    if jtype x.2 = t then
      let o := ckptJoin q.1 x
      if ckptWhole t o then ([], some o) else (o, q.2)
    else q) ([], none)).2

/-- What a whole frame-counter set holds (R476). -/
def fcDecode (rs : List JRecord) : LinkCkpt :=
  let r := rs.headD []
  let num (n k : Nat) (bs : List Byte) : Nat := leNat ((bs.drop k).take n)
  { next := num 4 12 r, epoch := num 4 16 r, origin := num 2 20 r
    nbrs := rs.flatMap fun q => (List.range (q.getD 23 0).toNat).map fun i =>
      let e := q.drop (24 + 16 * i)
      { eui := num 8 0 e, fc := num 4 8 e, index := num 1 12 e, heard := num 1 13 e % 2 = 1 } }

/-- What a whole duty set holds: the bins, newest first (R476). -/
def dutyDecode (rs : List JRecord) : DutyCkpt :=
  { time := jrecTime (rs.headD [])
    bins := rs.map fun r =>
      ((r.getD 12 0).toNat, ((List.range 360).map fun i => leNat ((r.drop (16 + 2 * i)).take 2)).reverse) }

/-- A whole frame-counter set stands on the NAND: FCPOS names it, and its counter bounds the counters used (R416, R469). -/
def fcStands (s : State) (l : List (Nat × JRecord)) : State :=
  let c := fcDecode (l.map fun x => x.2)
  let fcOf (n : Nat) (x : LnkNbr) : LnkNbr := match c.nbrs.find? fun e => e.index == n with
    | some e => { x with ckptFc := e.fc }
    | none => x
  { s with
    jnl := { s.jnl with fcPos := (l.map fun x => x.1).headD 0, fcTime := jrecTime ((l.map fun x => x.2).headD []), ckpt := some c }
    lnk := { s.lnk with ckptV := c.next, nbrs := s.lnk.nbrs.map fun p => (p.1, fcOf p.1 p.2) } }

/-- A whole duty set stands on the NAND: DUTYPOS names it, and the next is due by the rise over it (R421, R469). -/
def dutyStands (s : State) (l : List (Nat × JRecord)) : State :=
  let d := dutyDecode (l.map fun x => x.2)
  let mark (j : Nat) : Nat := ((d.bins.find? fun p => p.1 == j).map fun p => p.2.sum).getD 0
  { s with
    jnl := { s.jnl with dutyPos := (l.map fun x => x.1).headD 0, dutyTime := d.time, duty := some d }
    lnk := { s.lnk with dutyMark := Vector.ofFn fun j => mark j } }

/-- A record has been programmed at a position: FCPOS and DUTYPOS follow the newest whole sets (R469, R476). -/
def jnoteSet (s : State) (x : Nat × JRecord) : State :=
  if jtype x.2 = 0x05 then
    let o := ckptJoin s.jnl.fcOpen x
    if ckptWhole 0x05 o then
      let t := { s with jnl := { s.jnl with fcOpen := [] } }
      if s.jnl.fcTime ≤ jrecTime x.2 then fcStands t o else t
    else { s with jnl := { s.jnl with fcOpen := o } }
  else if jtype x.2 = 0x06 then
    let o := ckptJoin s.jnl.dutyOpen x
    if ckptWhole 0x06 o then
      let t := { s with jnl := { s.jnl with dutyOpen := [] } }
      if s.jnl.dutyTime ≤ jrecTime x.2 then dutyStands t o else t
    else { s with jnl := { s.jnl with dutyOpen := o } }
  else s

/-- The records of a page that has been programmed, with their positions. -/
def jmarkPos (s : State) (at_ : Nat) : List JRecord → Nat → State
  | [], _ => s
  | r :: rs, u => jmarkPos (jnoteSet s (at_ * 2 ^ 7 + u, r)) at_ rs (u + junits r)

/-! ### Compaction -/

/-- Block and instance of a CONFIG record. -/
def jconfigKey (r : JRecord) : Nat × Nat := ((r.getD 12 0).toNat, (r.getD 13 0).toNat)

/-- A CONFIG record that a later one of the same block and instance, written since mount, has superseded (R478). -/
def jsuperseded (s : State) (r : JRecord) : Bool :=
  match s.jnl.configs.find? fun c => c.1 == jconfigKey r with
  | some c => c.2 != r.drop 2
  | none => false

/-- The set of a type whose first record stands at a position, where it is whole (R469, R476). -/
def ckptAt (s : State) (t pos : Nat) : Option (List (Nat × JRecord)) :=
  let l := (jlisted s s.jnl.ring).filter fun x => jtype x.2 == t
  match l.find? fun x => x.1 == pos with
  | some x => ckptNewest t (l.filter fun y => jrecTime y.2 == jrecTime x.2)
  | none => none

/-- The records that compaction copies forward from the tail (R478): CONFIG records not superseded, and the newest complete checkpoint
sets when the tail holds them. -/
def jkeep (s : State) (b : Nat) : List JRecord :=
  let held (t pos : Nat) : List JRecord :=
    if pos / 2 ^ 13 = b then ((ckptAt s t pos).getD []).map fun x => x.2 else []
  ((jlisted s [b]).map fun x => x.2).filter (fun r => jtype r == 0x07 && !jsuperseded s r) ++
    held 0x05 s.jnl.fcPos ++ held 0x06 s.jnl.dutyPos

/-- The block leaves the ring and is erased, or is marked bad when its erase fails, unless it is marked already (R478, R479). The
first erase since mount of a block that holds records sets WRAPPED (R478). -/
def jeraseOne (s : State) (b : Nat) (ok : Bool) : State :=
  let had := s.jnl.ring.contains b && !(jblock s b).isEmpty
  let s1 := { s with jnl := { s.jnl with ring := s.jnl.ring.filter fun x => x != b } }
  let s2 := if had && !flag s1 Fld.JNL_STAT_WRAPPED then raise (setFlag s1 Fld.JNL_STAT_WRAPPED) 57 else s1
  if !s2.jnl.bad.contains b && jfactoryBad s2 b then jmarkBad s2 b
  else if ok && !s2.jnl.failErase.contains b then
    let s3 := jeraseBlock s2 b
    if s3.jnl.bad.contains b then s3 else { s3 with jnl := { s3.jnl with erased := s3.jnl.erased ++ [b] } }
  else if s2.jnl.bad.contains b then s2
  else jblockFail s2 b 2

/-- The block that the writer erases next: the good block after those ahead of the head; where it is the tail, or the tail has
gone bad, the tail. -/
def jeraseNext (s : State) : Option Nat :=
  match jafter s (s.jnl.erased.getLastD (jhead s)) with
  | none => none
  | some c => if s.jnl.erased.contains c ∨ c = jhead s then none
    else if s.jnl.ring.contains c ∧ c ≠ jtail s then some (jtail s) else some c

/-! ### Programming -/

/-- The page header (R470). -/
def jheader (s : State) (used : Nat) : List Byte :=
  let h := [0x59, 0x47, 0x4A, 0x50] ++ leBytes 4 s.jnl.pseq ++ leBytes 2 used ++ leBytes 2 s.jnl.mounts ++
    leBytes 4 s.jnl.fmtId ++ List.replicate 14 0
  h ++ leBytes 2 (crc16 h)

/-- The journal writer is at work: mounted, and writing has not stopped (R98, R479). -/
def jnlRuns (s : State) : Bool := flag s Fld.JNL_STAT_MOUNTED && !flag s Fld.JNL_STAT_FAILED

/-- The reserve is used up when a block is wanted: the writer erases without compaction (R478), the next block where one fails
(R479). The number bounds the blocks tried. -/
def jforceErase : Nat → State → State
  | 0, s => s
  | n + 1, s =>
    if !s.jnl.erased.isEmpty || flag s Fld.JNL_STAT_FAILED then s
    else match jeraseNext s with
      | some b => jforceErase n (jeraseOne (if s.jnl.ring.contains b then incSat s Fld.JNL_CNT1_NOCOMP 1 else s) b true)
      | none => s

/-- The head enters the next erased block; META at every 8th (R469). -/
def jenter (s0 : State) : State :=
  let s := jforceErase s0.jnl.nblk s0
  match s.jnl.erased with
  | [] => if flag s Fld.JNL_STAT_FAILED then s else jstop s (jhead s)
  | b :: bs =>
    let n := s.jnl.entered + 1
    let s1 := { s with jnl := { s.jnl with erased := bs, ring := s.jnl.ring ++ [b], page := 0, headPseq := s.jnl.pseq,
                                           entered := n % 8 } }
    if n = 8 then jmeta s1 else s1

/-- Program records as the next page of the head block; a failure marks the block bad and programs the page at the head of the next
(R470, R477, R479). The number bounds the blocks tried. -/
def jprogram : Nat → State → List JRecord → Bool → State
  | 0, s, _, _ => s
  | f + 1, s0, rs, ok =>
    let s := if s0.jnl.page < 64 then s0 else jenter s0
    if !jnlRuns s then s
    else if ok && !s.jnl.failProg.contains (jhead s) then
      let n := 64 * jhead s + s.jnl.page
      let t := jput s n (jheader s (32 * junitsAll rs) ++ rs.flatten)
      jmarkPos { t with jnl := { t.jnl with pseq := (t.jnl.pseq + 1) % 2 ^ 32, page := t.jnl.page + 1 } } n rs 0
    else
      let t := jblockFail s (jhead s) 1
      if jnlRuns t then jprogram f (jenter t) rs true else t

/-- Program the oldest page that waits. -/
def jprogramFull (s : State) (ok : Bool) : State :=
  match s.jnl.full with
  | [] => s
  | p :: ps => jprogram s.jnl.nblk { s with jnl := { s.jnl with full := ps } } p ok

/-- Program every page that waits, as many as given. -/
def jprogramAll : Nat → State → State
  | 0, s => s
  | n + 1, s => if s.jnl.full.isEmpty then s else jprogramAll n (jprogramFull s true)

/-- The page buffer is flushed to the NAND (R477). -/
def jflush (s : State) : State :=
  if jnlRuns s then
    let s1 := jclose s
    jprogramAll s1.jnl.full.length s1
  else s

/-- A record is put into the page buffer; where it needs a 17th page buffer, pages that wait are programmed first (R45). -/
def jput1 (s : State) (r : JRecord) : State :=
  jappend (if jfits s (junits r) then s else jprogramAll s.jnl.full.length s) r

/-- Records that must stand on the NAND before the machine goes on: a checkpoint (R416, R477). -/
def jwriteNow (s : State) (rs : List JRecord) : State := jflush (rs.foldl jput1 s)

/-! ### Frame-counter checkpoints -/

/-- Working state of a neighbour entry. -/
def nbrOf (s : State) (n : Nat) : LnkNbr := ((s.lnk.nbrs.find? fun p => p.1 == n).map fun p => p.2).getD {}

def setNbr (s : State) (n : Nat) (x : LnkNbr) : State :=
  { s with lnk := { s.lnk with nbrs := s.lnk.nbrs.filter (fun p => p.1 < n) ++ [(n, x)] ++ s.lnk.nbrs.filter fun p => n < p.1 } }

/-- EUI-64 of a neighbour entry in force; 0 when free (R447). -/
def nbrEui (s : State) (n : Nat) : Nat := (reg s (Adr.NBR_EUIH n)).toNat * 2 ^ 32 + (reg s (Adr.NBR_EUIL n)).toNat

/-- The neighbour entries in use, read off the listed registers. -/
def nbrsInUse (s : State) : List Nat :=
  ((s.regs.filter fun p => 0x2000 ≤ p.1 && p.1 ≤ 0x23FF && p.1 % 4 ≤ 1 && p.2 != 0).map fun p => (p.1 - 0x2000) / 4).dedup

/-- What a checkpoint written now holds (R416); of a counter that is exhausted, the last one (R418; DESIGN CHOICE, log entry 42). -/
def ckptNow (s : State) : LinkCkpt :=
  { next := min 0xFFFFFFFF s.lnk.next, epoch := fld s Fld.LNK_EPOCH_EPOCH, origin := fld s Fld.LNK_ORIGIN_ORIGIN
    nbrs := (nbrsInUse s).map fun n =>
      { eui := nbrEui s n, fc := (reg s (Adr.NBR_FC n)).toNat, index := n, heard := (nbrOf s n).heard } }

/-- One record of a frame-counter checkpoint (R476). -/
def ckptRecord (s : State) (c : LinkCkpt) (part : Nat) (last : Bool) (l : List CkptNbr) : JRecord :=
  jrecord 0x05 (q64 s) (leBytes 4 c.next ++ leBytes 4 c.epoch ++ leBytes 2 c.origin ++
    [BitVec.ofNat 8 (jbit last 7 + part), BitVec.ofNat 8 l.length] ++
    l.flatMap fun n => leBytes 8 n.eui ++ leBytes 4 n.fc ++ [BitVec.ofNat 8 n.index, if n.heard then 1 else 0, 0, 0])

/-- The records of a checkpoint: one with at most 128 neighbours, else two (R476). -/
def ckptRecords (s : State) (c : LinkCkpt) : List JRecord :=
  if c.nbrs.length ≤ 128 then [ckptRecord s c 0 true c.nbrs]
  else [ckptRecord s c 0 false (c.nbrs.take 128), ckptRecord s c 1 true (c.nbrs.drop 128)]

/-- Write a frame-counter checkpoint holding the next counter, and program it at once (R416, R477). -/
def ckptWrite (s : State) : State := if jnlRuns s then jwriteNow s (ckptRecords s (ckptNow s)) else s

/-! ### Duty checkpoints -/

/-- A sub-band with a limit (R419, R420). -/
def sbLimited (s : State) (j : Nat) : Bool := flag s (Fld.LNK_SB_DUTY_EN j) && fld s (Fld.LNK_SB_DUTY_DUTY j) != 10000

/-- The bins of a sub-band, the present first. -/
def sbBins (s : State) (j : Nat) : List Nat := s.lnk.bins[j]?.getD []

/-- The account of a sub-band in ms: the present bin and the 359 before it (R420). -/
def sbAccount (s : State) (j : Nat) : Nat := ((sbBins s j).take 360).sum

/-- The records of a duty checkpoint: one for each limited sub-band whose account is non-zero, oldest bin first (R421, R476). -/
def dutyRecords (s : State) : List JRecord :=
  let js := (List.range 8).filter fun j => sbLimited s j && sbAccount s j != 0
  js.map fun j =>
    let b := (sbBins s j).take 360
    jrecord 0x06 (q64 s) ([BitVec.ofNat 8 j, BitVec.ofNat 8 js.length, 0, 0] ++
      ((b ++ List.replicate (360 - b.length) 0).reverse.flatMap fun n => leBytes 2 (min 0xFFFF n)))

/-- Write a duty checkpoint, and program it at once (R421, R477); without an account it has no record. -/
def dutyWrite (s : State) : State :=
  if jnlRuns s then
    match dutyRecords s with
    | [] => { s with lnk := { s.lnk with dutyMark := Vector.replicate 8 0 } }
    | rs => jwriteNow s rs
  else s

/-! ### The turn of a checkpoint -/

/-- The checkpoints that are due are written (R416, R421). -/
def ckptRun (s : State) : State :=
  let t := { s with jnl := { s.jnl with fcDue := false, dutyDue := false } }
  let u := if s.jnl.fcDue then ckptWrite t else t
  if s.jnl.dutyDue then dutyWrite u else u

/-- A checkpoint becomes due and takes its turn on the memory port (R22, R145): as `DUTY_CHECKPOINT` where it waits, whichever kinds are
due. Its class is the writer's (DESIGN CHOICE, log entry 35). -/
def ckptTurn (s : State) (fc duty : Bool) : State :=
  let t := { s with jnl := { s.jnl with fcDue := s.jnl.fcDue || fc, dutyDue := s.jnl.dutyDue || duty } }
  if !jnlRuns s then s
  else if s.jnl.fcDue || s.jnl.dutyDue then t
  else turn t (mspRequest .journal .c3) .dutyCheckpoint ckptRun

/-- A frame-counter checkpoint is asked for (R416). -/
def ckptAsk (s : State) : State := ckptTurn s true false

/-! ### Format and mount -/

/-- Format (R481): a new FMTID, the pool and the BBT from the factory markers of blocks 0 to 15, META with HEAD = TAIL = the
first data block. -/
def jformat (s : State) : State :=
  let (r, s1) := drawRandom s
  let bad := (List.range 16).filter (jfactoryBad s1)
  let pool := ((List.range 16).filter fun b => !bad.contains b).take 8
  let s2 := { s1 with jnl := { s1.jnl with
    bad := bad, mpool := pool, metaAt := 0, fmtId := r.toNat % 2 ^ 32, fcPos := 0, dutyPos := 0, fcTime := 0, dutyTime := 0,
    fcOpen := [], dutyOpen := [], ckpt := none, duty := none, pseq := 0, headPseq := 0, page := 0, erased := [], entered := 0, buffer := [], full := [], configs := [] } }
  let first := (firstBelow s2.jnl.nblk (jgood s2)).getD 0
  let s3 := jeraseBlock { s2 with jnl := { s2.jnl with ring := [first] } } first
  jmeta (setFld (clrFld s3 Fld.JNL_STAT_WRAPPED) Fld.JNL_CNT0_GROWN 0)

/-- Every page 0 of blocks 0 to 15 reads erased (R480). -/
def jblank (s : State) : Bool := (List.range 16).all fun b => (jpage s (64 * b)).isNone

/-- MSEQ of a META page (R469). -/
def jmetaSeq (bs : List Byte) : Nat := leNat ((bs.drop 4).take 4)

/-- A page is a META page with a good CRC-32 (R469, R480). -/
def jisMeta (bs : List Byte) : Bool :=
  bs.take 4 == [0x59, 0x47, 0x4A, 0x4D] && leNat ((bs.drop 4092).take 4) == crc32 (bs.take 4092)

/-- The META page with the highest MSEQ and a good CRC-32, with its page number; the pool lies in blocks 0 to 15 (R480, R481). -/
def jbestMeta (s : State) : Option (Nat × List Byte) :=
  (s.jnl.nand.filter fun p => p.1 < 1024 && jisMeta p.2).foldl (fun o p => match o with
    | some q => if jmetaSeq q.2 < jmetaSeq p.2 then some p else o
    | none => some p) none

/-- The META page in force gives the journal its fields (R469, R480). -/
def jfromMeta (s : State) (n : Nat) (bs : List Byte) : State :=
  let num (w k : Nat) : Nat := leNat ((bs.drop k).take w)
  let pool := (List.range 8).map fun k => num 2 (36 + 2 * k)
  { s with jnl := { s.jnl with
    mseq := num 4 4, fmtId := num 4 8, headPseq := num 4 20, mounts := num 2 24, fcPos := num 4 28, dutyPos := num 4 32
    mpool := pool, metaAt := (64 * pool.idxOf (n / 64) + n % 64 + 1) % 512
    bad := (((bs.drop 64).take 2048).zipIdx.flatMap fun p => (bitList 8 p.1.toNat).map fun k => 8 * p.2 + k)
    ring := [num 2 18, num 2 16] } }

/-- PSEQ after the last counting page of a block; where none counts, as before it. -/
def jseqAfter (s : State) (b p : Nat) : Nat := ((jcounted s b).getLast?.map fun q => (jpageSeq q.2 + 1) % 2 ^ 32).getD p

/-- The data blocks after one whose page 0 continues the sequence (R480). The number bounds them. -/
def jfollow : Nat → State → Nat → Nat → List Nat
  | 0, _, _, _ => []
  | f + 1, s, b, p =>
    match jafter s b with
    | none => []
    | some c =>
      if (jcounted s c).any fun q => q.1 == 64 * c && jpageSeq q.2 == p then c :: jfollow f s c (jseqAfter s c p) else []

/-- The blocks that hold records from TAIL up to HEAD, by their places and rising PSEQ; HEAD itself comes after them. -/
def jrebuilt (s : State) (tail head : Nat) : List Nat :=
  let n := s.jnl.nblk
  let span := (List.range ((head + n - tail) % n)).map fun k => (tail + k) % n
  let first (b : Nat) : Option Nat := (jcounted s b).head?.map fun q => jpageSeq q.2
  (span.foldl (fun (q : List Nat × Option Nat) b => match first b, q.2 with
    | some p, some m => if (p + 2 ^ 32 - m) % 2 ^ 32 < 2 ^ 31 then (q.1 ++ [b], some p) else q
    | some p, none => ([b], some p)
    | none, _ => q) ([], none)).1

/-- The ring, the head and the newest checkpoints as the NAND shows them (R480, steps 4 and 5). -/
def jrecover (s : State) : State :=
  let tail := jtail s
  let head := jhead s
  let new := head :: jfollow s.jnl.nblk s head (jseqAfter s head s.jnl.headPseq)
  let last := new.getLastD head
  let pseq := new.foldl (fun p b => jseqAfter s b p) s.jnl.headPseq
  let old := { s with jnl := { s.jnl with ring := jrebuilt s tail head ++ new } }
  let pages := jcounted s last
  let t := { old with jnl := { old.jnl with
    pseq := pseq, headPseq := (pages.head?.map fun q => jpageSeq q.2).getD pseq
    page := (pages.getLast?.map fun q => q.1 % 64 + 1).getD 0
    erased := [], entered := 0, fcOpen := [], dutyOpen := [], ckpt := none, duty := none } }
  let scan := jlisted t new
  let u := match (ckptNewest 0x05 scan).or (ckptAt t 0x05 t.jnl.fcPos) with
    | some l => fcStands t l
    | none => t
  match (ckptNewest 0x06 scan).or (ckptAt t 0x06 t.jnl.dutyPos) with
  | some l => dutyStands u l
  | none => u

/-- The journal cannot be mounted: JNLFAIL, a fault record, and JNL_FAULT (R98, R130). -/
def jmountFail (s : State) (why : Nat) : State :=
  raise (fault (setFlag s Fld.SYS_BOOTSTAT_JNLFAIL) 0x10 0 0x0C [BitVec.ofNat 8 why]) 56

/-- The NAND is blank and carries no valid META page: mount formats it (R480). -/
def jfresh (s : State) : Bool := (jbestMeta s).isNone && jblank s

/-- Mount at start-up step 7 (R98, R480), which clears the NAND's block protection (R468). -/
def jmount (s0 : State) (answers mounts : Bool) : State :=
  let s := { s0 with jnl := { s0.jnl with buffer := [], full := [], inHand := [], inHandBad := false, configs := [],
                                          readBuf := [], fcDue := false, dutyDue := false
                                          feature := if answers then 0 else s0.jnl.feature } }
  let begin_ (t : State) : State :=
    jmeta (setFlag { t with jnl := { t.jnl with mounts := (t.jnl.mounts + 1) % 2 ^ 16 } } Fld.JNL_STAT_MOUNTED)
  if !answers then jmountFail s 1
  else match jbestMeta s with
    | some m => if mounts then begin_ (jrecover (jfromMeta s m.1 m.2)) else jmountFail s 3
    | none =>
      if !jblank s then jmountFail s 2
      else if mounts then begin_ (jformat s)
      else jmountFail s 3

/-! ### Commands -/

/-- Take units off the writer's channel, each with the error state its word is read with, until a packet is whole: the kind of its last
unit, its words, and whether a word of it was uncorrectable; what has come of a packet that is not whole yet stays in hand (R492, R501).
An uncorrectable word, whose data nothing uses, ends the packet where the unit written did (DESIGN CHOICE, log entry 4). -/
def jtake : Nat → State → List Nat → Option (Nat × List Word × Bool) × State
  | 0, s, _ => (none, s)
  | f + 1, s, ecc =>
    match chanTake s.clk.now (chan s 8) with
    | none => (none, s)
    | some (u, c, idx) =>
      let e := ecc.headD 0
      let s1 := eccEffect (setChan s 8 c) 8 e (if (chan s 8).rdBank then 1 else 0) idx
      let ws := s.jnl.inHand ++ [u.data]
      let bad := s.jnl.inHandBad || e == 2
      if u.kind = 3 ∨ u.kind = 4 ∨ u.kind = 0xE then
        (some (u.kind, ws, bad), { s1 with jnl := { s1.jnl with inHand := [], inHandBad := false } })
      else jtake f { s1 with jnl := { s1.jnl with inHand := ws, inHandBad := bad } } ecc.tail

/-- Keep the latest CONFIG record of each block and instance (R478). -/
def jnoteConfig (s : State) (r : JRecord) : State :=
  if r.headD 0 = 0x07 then
    { s with jnl := { s.jnl with configs := s.jnl.configs.filter (fun c => c.1 != jconfigKey r) ++ [(jconfigKey r, r.drop 2)] } }
  else s

/-- The journal writer takes a packet and builds its record (R472); a packet with an uncorrectable word is discarded (R501). -/
def jtakeRecord (s : State) (ecc : List Nat) : State :=
  let q := jtake 512 s ecc
  match q.1 with
  | none => q.2
  | some (kind, ws, bad) =>
    if bad then q.2
    else if kind = 0xE then jput1 (incSat q.2 Fld.JNL_CNT1_GAPS 1) (jgap q.2 (ws.headD 0))
    else match jbuild q.2 ws with
      | some r => jput1 (jnoteConfig q.2 r) r
      | none => q.2

/-- The journal writer at work: it waits for a handover where it sees no unit (R495), and while the 16 page buffers are full (R45);
without a journal the channel is discarded (R98, R479). -/
def jrecordStep (s : State) (ecc : List Nat) : State :=
  if jnlRuns s then (if jroom s then jtakeRecord (handover s 8) ecc else s)
  else if flag s Fld.SYS_BOOTSTAT_JNLFAIL || flag s Fld.JNL_STAT_FAILED then
    setChan s 8 (chanDrop s.clk.now (chan s 8))
  else s

/-- The writer's channel after the cycles that both sides take to see the other's bank: a handover where one is due (R490, R493). -/
def jcaughtUp (s : State) : State :=
  let c := chan s 8
  if c.rd.isEmpty && !c.wr.isEmpty then setChan s 8 { chanSwap s.clk.now c with view := 2 } else setChan s 8 { c with view := 2 }

/-- Every packet on the writer's channel is taken, one bank after the other (R60). -/
def jdrain (s : State) : State :=
  if jnlRuns s then
    Nat.repeat (fun t => jtakeRecord (jcaughtUp t) []) ((chan s 8).rd.length + (chan s 8).wr.length) s
  else s

/-- The flush of ENTER_BACKUP (R60): the channel's packets, then all pages but the last `left`, for which the time did not last. -/
def jflushAll (s : State) (left : Nat) : State :=
  if jnlRuns s then
    let s1 := jclose (jdrain s)
    jprogramAll (s1.jnl.full.length - left) s1
  else s

/-- A packet is taken (R472), its first word read with the error state named and the words after it with those of `more`. -/
def execJournalRecord (ecc : Fin 3) (s : State) (more : List (Fin 3) := []) : Host.Outcome State Fault Refusal :=
  next (jrecordStep s (ecc.val :: more.map fun e => e.val))

/-- A page waits to be programmed, or the page buffer in hand holds a record. -/
def jpageWaits (s : State) : Bool := jnlRuns s && !(s.jnl.full.isEmpty && s.jnl.buffer.isEmpty)

/-- A page is programmed: the oldest that waits, else the page buffer in hand (R477). -/
def jpageProgram (s : State) (ok : Bool) : State :=
  if jnlRuns s then jprogramFull (if s.jnl.full.isEmpty then jclose s else s) ok else s

/-- The writer's work takes its turn on the memory port; its class is C3, which R156 gives for compaction and R478 for erasure, and
the model for programming (DESIGN CHOICE, log entry 35). -/
def execJournalPageProgram (ok : Bool) (s : State) : Host.Outcome State Fault Refusal :=
  next (if jpageWaits s then turn s (mspRequest .journal .c3) (.journalPageProgram ok) fun t => jpageProgram t ok else s)

/-- `JNL_CFG.FLUSH` seconds after its first record the page buffer is programmed (R477). -/
def execJnlFlushTimeout (s : State) : Host.Outcome State Fault Refusal :=
  next (if jpageWaits s then turn s (mspRequest .journal .c3) .jnlFlushTimeout jflush else s)

/-- Fewer than RESERVE erased blocks stand ahead of the head (R478). -/
def jeraseDue (s : State) : Bool := jnlRuns s && s.jnl.erased.length < fld s Fld.JNL_CFG_RESERVE

/-- Records are copied forward; the page is programmed after a checkpoint record (R477, R478). -/
def jcopy (s : State) (rs : List JRecord) : State :=
  let t := rs.foldl (fun u r => jput1 u (jcopied r)) s
  if rs.any fun r => jtype r == 0x05 || jtype r == 0x06 then jflush t else t

/-- The writer keeps RESERVE erased blocks ahead (R478): a block that holds records is compacted first when COMPACT is set
and SHED is below 3; at SHED 3 the work is deferred until the reserve is used up. -/
def jerase (s : State) (ok : Bool) : State :=
  if !jeraseDue s then s
  else match jeraseNext s with
    | none => s
    | some b =>
      if !s.jnl.ring.contains b then jeraseOne s b ok
      else if flag s Fld.JNL_CFG_COMPACT && fld s Fld.SYS_STAT_SHED < 3 then
        jeraseOne (jcopy s (jkeep s b)) b ok
      else if flag s Fld.JNL_CFG_COMPACT && !s.jnl.erased.isEmpty then s
      else jeraseOne (incSat s Fld.JNL_CNT1_NOCOMP 1) b ok

def execJournalErase (ok : Bool) (s : State) : Host.Outcome State Fault Refusal :=
  next (if jeraseDue s then turn s (mspRequest .journal .c3) (.journalErase ok) fun t => jerase t ok else s)

/-- The key of the journal's commands (R483). -/
def jkey : BitVec 16 := 0xA55A

/-- FORMAT of a mounted journal (R481); a checkpoint holding the next counter follows at once, within the command's turn. -/
def jformatRun (s : State) : State := withholdUpdate (ckptWrite (clrFld (jformat s) Fld.JNL_STAT_FAILED))

/-- `JNL_CMD` (R481, R483): FORMAT from SUPERVISOR level, and FLUSH; each takes its turn on the memory port as a host command of class
C1 (R145). -/
def jcommand (s : State) (lvl : Level) (key : BitVec 16) (cmd : Nat) : State :=
  if key = jkey then
    match cmd with
    | 1 => if supervisorLevel lvl ∧ flag s Fld.JNL_STAT_MOUNTED then
        turn s (mspRequest .jnlRead .c1) (.format lvl key) jformatRun else s
    | 2 => turn s (mspRequest .jnlRead .c1) (.journalFlush lvl key) jflush
    | _ => s
  else s

def execFormat (lvl : Level) (key : BitVec 16) (s : State) : Host.Outcome State Fault Refusal :=
  next (asWrite s lvl Adr.JNL_CMD fun t => jcommand t lvl key 1)

/-- FLUSH (R483). -/
def execJournalFlush (lvl : Level) (key : BitVec 16) (s : State) : Host.Outcome State Fault Refusal :=
  next (asWrite s lvl Adr.JNL_CMD fun t => jcommand t lvl key 2)

/-! ### The read buffer -/

/-- The pages that hold records, from the tail on (R470, R482). -/
def jpages (s : State) : List Nat := s.jnl.ring.flatMap fun b => (jcounted s b).map fun p => p.1

/-- The page that a read command chose is loaded, or ends UCE, and then counts no more (R470, R482); one erased since reads erased. -/
def jload (s : State) (correctable : Bool) : State :=
  let t := clrFld s Fld.JNL_RDSTAT_BUSY
  if correctable then
    setFld { t with jnl := { t.jnl with readBuf := (jpage s s.jnl.readPage).getD [0xFF] } } Fld.JNL_RDSTAT_RESULT 1
  else setFld (incSat { t with jnl := { t.jnl with uce := t.jnl.uce ++ [s.jnl.readPage] } } Fld.JNL_CNT0_UCE 1)
    Fld.JNL_RDSTAT_RESULT 3

/-- `JNL_RDCMD` with GO (R482): PAGE is found at the command, and its load takes its turn on the memory port (R145). -/
def jread (s : State) (lvl : Level) (page : BitVec 21) (correctable : Bool) : State :=
  if flag s Fld.JNL_RDSTAT_BUSY then setFld s Fld.JNL_RDSTAT_RESULT 4
  else match (if flag s Fld.JNL_STAT_MOUNTED then jpages s else [])[page.toNat]? with
    | none => setFld s Fld.JNL_RDSTAT_RESULT 2
    | some n => turn { s with jnl := { s.jnl with readPage := n } } (mspRequest .jnlRead .c1) (.journalRead lvl page correctable)
        (fun t => jload t correctable) fun t => setFlag t Fld.JNL_RDSTAT_BUSY

def execJournalRead (lvl : Level) (page : BitVec 21) (correctable : Bool) (s : State) : Host.Outcome State Fault Refusal :=
  next (asWrite s lvl Adr.JNL_RDCMD fun t => jread t lvl page correctable)

/-- `JNL_RDBUFw` as it reads: the part of the page that PART selects; what a page does not hold reads erased (R482). -/
def jnlRdbuf (s : State) (w : Nat) : Word :=
  let k := 256 * fld s Fld.JNL_RDSTAT_PART + 4 * w
  if s.jnl.readBuf.isEmpty then 0
  else BitVec.ofNat 32 (leNat ((List.range 4).map fun i => s.jnl.readBuf.getD (k + i) 0xFF))

/-- A FORMAT waits for its turn (R483). -/
def fmtBusy (s : State) : Bool := s.sched.ops.any fun o => match o.cmd with
  | .format _ _ => true
  | _ => false

/-- `JNL_STAT`, `JNL_POS` and `JNL_PAGES` as they read (R483); of a journal that is not mounted they show nothing. -/
def jnlStat (s : State) : Word :=
  if flag s Fld.JNL_STAT_MOUNTED then
    putBits (putBits (putBits (reg s Adr.JNL_STAT) 28 28 (jbit (fmtBusy s) 0)) 21 16 (min 63 s.jnl.erased.length)) 15 0 s.jnl.bad.length
  else reg s Adr.JNL_STAT

def jnlPos (s : State) : Word :=
  if flag s Fld.JNL_STAT_MOUNTED then BitVec.ofNat 32 (jhead s * 2 ^ 16 + jtail s) else 0

def jnlPages (s : State) : Word :=
  if flag s Fld.JNL_STAT_MOUNTED then BitVec.ofNat 32 ((jpages s).length % 2 ^ 21) else 0

end Sys2Proof.Machine
end

