-- ==== Sys2Proof/Machine/Aes.lean ====
section
/-! DEFINITION. The AES-128 encryption that Flint computes (R22, R356), as FIPS-197 gives it (PRESUMED, log entry 15: the manual names AES-128 and does
not restate it), and the CCM* of the link (R407). -/

namespace Sys2Proof.Machine

open Sys2Proof

/-- The S-box, sixteen entries a row, the lowest entry in the top byte of its row. -/
def aesSboxRow : Nat → Nat
  | 0 => 0x637c777bf26b6fc53001672bfed7ab76
  | 1 => 0xca82c97dfa5947f0add4a2af9ca472c0
  | 2 => 0xb7fd9326363ff7cc34a5e5f171d83115
  | 3 => 0x04c723c31896059a071280e2eb27b275
  | 4 => 0x09832c1a1b6e5aa0523bd6b329e32f84
  | 5 => 0x53d100ed20fcb15b6acbbe394a4c58cf
  | 6 => 0xd0efaafb434d338545f9027f503c9fa8
  | 7 => 0x51a3408f929d38f5bcb6da2110fff3d2
  | 8 => 0xcd0c13ec5f974417c4a77e3d645d1973
  | 9 => 0x60814fdc222a908846eeb814de5e0bdb
  | 10 => 0xe0323a0a4906245cc2d3ac629195e479
  | 11 => 0xe7c8376d8dd54ea96c56f4ea657aae08
  | 12 => 0xba78252e1ca6b4c6e8dd741f4bbd8b8a
  | 13 => 0x703eb5664803f60e613557b986c11d9e
  | 14 => 0xe1f8981169d98e949b1e87e9ce5528df
  | _ => 0x8ca1890dbfe6426841992d0fb054bb16

def aesSbox (b : Nat) : Nat := (aesSboxRow (b / 16) >>> (8 * (15 - b % 16))) % 256

/-- Doubling in the field of AES. -/
def aesDouble (b : Nat) : Nat := if b < 128 then 2 * b else ((2 * b) ^^^ 0x11B) % 256

/-- Row r of the state turns left by r places; the state lies column after column. -/
def aesShiftRows (s : List Nat) : List Nat := (List.range 16).map fun i => s.getD ((i + 4 * (i % 4)) % 16) 0

def aesMixColumn (a b c d : Nat) : List Nat :=
  [aesDouble a ^^^ aesDouble b ^^^ b ^^^ c ^^^ d, a ^^^ aesDouble b ^^^ aesDouble c ^^^ c ^^^ d,
   a ^^^ b ^^^ aesDouble c ^^^ aesDouble d ^^^ d, aesDouble a ^^^ a ^^^ b ^^^ c ^^^ aesDouble d]

def aesMixColumns : List Nat → List Nat
  | a :: b :: c :: d :: s => aesMixColumn a b c d ++ aesMixColumns s
  | s => s

def xorBytes (a b : List Nat) : List Nat := List.zipWith (fun x y => x ^^^ y) a b

/-- The next round key from a round key and its round constant. -/
def aesNextKey (k : List Nat) (rcon : Nat) : List Nat :=
  let w (i : Nat) : List Nat := (k.drop (4 * i)).take 4
  let t := [aesSbox (k.getD 13 0) ^^^ rcon, aesSbox (k.getD 14 0), aesSbox (k.getD 15 0), aesSbox (k.getD 12 0)]
  let w0 := xorBytes (w 0) t
  let w1 := xorBytes (w 1) w0
  let w2 := xorBytes (w 2) w1
  w0 ++ w1 ++ w2 ++ xorBytes (w 3) w2

/-- The rounds that are left: their number, the key of the last one, its constant, the state. -/
def aesRounds : Nat → List Nat → Nat → List Nat → List Nat
  | 0, _, _, s => s
  | n + 1, k, rcon, s =>
    let k1 := aesNextKey k rcon
    let t := aesShiftRows (s.map aesSbox)
    aesRounds n k1 (aesDouble rcon) (xorBytes (if n = 0 then t else aesMixColumns t) k1)

/-- AES-128-ENC of one 16-byte block (R356). -/
def aes128 (key block : List Byte) : List Byte :=
  let k := key.map fun b => b.toNat
  (aesRounds 10 k 1 (xorBytes (block.map fun b => b.toNat) k)).map (BitVec.ofNat 8)

/-! ### Decryption -/

/-- The S-box read backwards. -/
def aesUnsub (b : Nat) : Nat := (firstBelow 256 fun x => aesSbox x == b).getD 0

/-- ShiftRows undone: three times more around. -/
def aesUnshift (s : List Nat) : List Nat := aesShiftRows (aesShiftRows (aesShiftRows s))

/-- MixColumns undone: its fourth power is the identity. -/
def aesUnmix (s : List Nat) : List Nat := aesMixColumns (aesMixColumns (aesMixColumns s))

/-- The round keys after a key, last first: their number, the key, its constant, those found. -/
def aesKeys : Nat → List Nat → Nat → List (List Nat) → List (List Nat)
  | 0, _, _, ks => ks
  | n + 1, k, rcon, ks => aesKeys n (aesNextKey k rcon) (aesDouble rcon) (aesNextKey k rcon :: ks)

/-- The rounds undone, by the keys before the last one, last first. -/
def aesUnrounds : List (List Nat) → List Nat → List Nat
  | [], s => s
  | [k], s => xorBytes ((aesUnshift s).map aesUnsub) k
  | k :: ks, s => aesUnrounds ks (aesUnmix (xorBytes ((aesUnshift s).map aesUnsub) k))

/-- AES-128-DEC of one 16-byte block (R276). -/
def aes128Dec (key block : List Byte) : List Byte :=
  let k := key.map fun b => b.toNat
  let s := block.map fun b => b.toNat
  match aesKeys 10 k 1 [k] with
  | last :: ks => (aesUnrounds ks (xorBytes s last)).map (BitVec.ofNat 8)
  | [] => []

end Sys2Proof.Machine
end

