-- ==== Sys2Proof/Machine/Quartz.lean ====
section
/-! DEFINITION. Quartz: calendar, time set, shift, trim, alarm, countdown and `PWRON` (R535–R560), and the passing of time of
one CLK100 cycle in the backup domain. -/

namespace Sys2Proof.Machine

open Sys2Proof

/-! ### Calendar -/

/-- Leap years of the calendar: divisible by 4, but 2100, 2200 and 2300 (R537). -/
def leap (y : Nat) : Bool := y % 4 == 0 && y != 2100 && y != 2200 && y != 2300

/-- Length of a month (R537). -/
def monthDays (y m : Nat) : Nat :=
  if m = 2 then (if leap y then 29 else 28) else if m = 4 ∨ m = 6 ∨ m = 9 ∨ m = 11 then 30 else 31

/-- Leap years from 2000 up to but not including `y`, within 2000–2400. -/
def leapsBefore (y : Nat) : Nat :=
  (y - 2000 + 3) / 4 - (if 2100 < y then 1 else 0) - (if 2200 < y then 1 else 0) - (if 2300 < y then 1 else 0)

/-- Days from 2000-01-01 to the first of January of `y`. -/
def daysToYear (y : Nat) : Nat := 365 * (y - 2000) + leapsBefore y

/-- Days from the first of January of `y` to the first of month `m`. -/
def daysToMonth (y m : Nat) : Nat := ((List.range (m - 1)).map fun k => monthDays y (k + 1)).sum

/-- Seconds of the 400-year cycle, after which the calendar wraps (R538). -/
def calendarSpan : Nat := 146097 * 86400

/-- Seconds since 2000-01-01 00:00:00 of a date and time (R15, R537). -/
def secsOf (y mo d h mi se : Nat) : Nat :=
  (daysToYear y + daysToMonth y mo + (d - 1)) * 86400 + h * 3600 + mi * 60 + se

/-- The year that holds a day number: a search from a guess that is never too late. -/
def yearFrom : Nat → Nat → Nat → Nat
  | 0, y, _ => y
  | f + 1, y, day => if daysToYear (y + 1) ≤ day then yearFrom f (y + 1) day else y

/-- The year of a day number (R537). -/
def yearOf (day : Nat) : Nat := yearFrom 3 (2000 + day / 366) day

/-- The month of a day of the year. -/
def monthOf (y : Nat) (doy : Nat) : Nat :=
  ((List.range 12).filter fun k => daysToMonth y (k + 1) ≤ doy).length

/-- `QTZ_TIME1` of a number of seconds: year, month, day, weekday (R537, R557). -/
def dateWord (secs : Nat) : Word :=
  let day := secs / 86400
  let y := yearOf day
  let doy := day - daysToYear y
  let m := monthOf y doy
  let d := doy - daysToMonth y m + 1
  BitVec.ofNat 32 (y * 2 ^ 20 + m * 2 ^ 16 + d * 2 ^ 11 + ((day + 5) % 7 + 1) * 2 ^ 8)

/-- `QTZ_TIME0` of a number of seconds and a sub-second (R557). -/
def timeWord (secs sub : Nat) : Word :=
  let t := secs % 86400
  BitVec.ofNat 32 (sub * 2 ^ 17 + (t / 3600) * 2 ^ 12 + (t / 60 % 60) * 2 ^ 6 + t % 60)

/-- The staged date and time pass R542; the seconds they stand for. -/
def stagedTime (s : State) : Option Nat :=
  let w0 := reg s Adr.QTZ_SET0
  let w1 := reg s Adr.QTZ_SET1
  let y := bitsOf w1 31 20
  let mo := bitsOf w1 19 16
  let d := bitsOf w1 15 11
  let h := bitsOf w0 16 12
  let mi := bitsOf w0 11 6
  let se := bitsOf w0 5 0
  if 2000 ≤ y ∧ y ≤ 2399 ∧ 1 ≤ mo ∧ mo ≤ 12 ∧ 1 ≤ d ∧ d ≤ monthDays y mo ∧ h ≤ 23 ∧ mi ≤ 59 ∧ se ≤ 59 then
    some (secsOf y mo d h mi se)
  else none

/-- CMDRES of `QTZ_STAT` (R558). -/
def setQtzRes (s : State) (r : Nat) : State := setFld s Fld.QTZ_STAT_CMDRES r

/-- The key of every command register (R67, R104, R557). -/
def keyOk (key : BitVec 16) : Bool := key == 0xA55A

/-- A read of `QTZ_TIME0` takes the snapshot (R540). -/
def timeSnapshot (s : State) : State :=
  let t := q64 s
  setReg (setReg (setReg (setReg s Adr.QTZ_TIME0 (timeWord s.qtz.secs s.qtz.sub)) Adr.QTZ_TIME1 (dateWord s.qtz.secs))
    Adr.QTZ_Q64H (BitVec.ofNat 32 (t / 2 ^ 32))) Adr.QTZ_Q64L (BitVec.ofNat 32 t)

/-- A read of `QTZ_TIME0` (R540, R580). -/
def execQtzTime0Read (lvl : Level) (s : State) : Host.Outcome State Fault Refusal :=
  next (asRead s lvl Adr.QTZ_TIME0 timeSnapshot)

/-! ### Commands -/

/-- SETTIME: the staged values, checked now, wait for the next second boundary (R541, R542). -/
def setTime (s : State) (clrOsf : Bool) : State :=
  match stagedTime s with
  | some t => { s with qtz := { s.qtz with pendingSet := some ⟨t, clrOsf⟩ } }
  | none => setFlag (setQtzRes s 2) Fld.QTZ_STAT_BADDATE

/-- SET_NOW: as SETTIME, for the next CLK32K edge, and a pending SETTIME is withdrawn (R541, R555). -/
def setNow (s : State) (clrOsf : Bool) : State :=
  match stagedTime s with
  | some t => { s with qtz := { s.qtz with pendingNow := some ⟨t, clrOsf⟩, pendingSet := none } }
  | none => setFlag (setQtzRes s 2) Fld.QTZ_STAT_BADDATE

/-- CANCEL withdraws a pending SETTIME (R541). -/
def cancelSet (s : State) : State :=
  match s.qtz.pendingSet with
  | some _ => setQtzRes { s with qtz := { s.qtz with pendingSet := none } } 3
  | none => s

/-- A command of `QTZ_CMD`, refused on a wrong key (R541). -/
def qtzCommand (s : State) (lvl : Level) (key : BitVec 16) (eff : State → State) : State :=
  asWrite s lvl Adr.QTZ_CMD fun t => if keyOk key then eff t else setQtzRes t 4

def execSettime (lvl : Level) (key : BitVec 16) (clrOsf : Bool) (s : State) : Host.Outcome State Fault Refusal :=
  next (qtzCommand s lvl key fun t => setTime t clrOsf)

def execQtzCancel (lvl : Level) (key : BitVec 16) (s : State) : Host.Outcome State Fault Refusal :=
  next (qtzCommand s lvl key cancelSet)

def execPwrRelease (lvl : Level) (key : BitVec 16) (s : State) : Host.Outcome State Fault Refusal :=
  next (qtzCommand s lvl key pwrRelease)

def execPwrAssert (lvl : Level) (key : BitVec 16) (s : State) : Host.Outcome State Fault Refusal :=
  next (qtzCommand s lvl key pwrAssert)

/-- A shift is requested unless one is pending (R544, R545). -/
def shiftRequest (s : State) (value : Word) : State :=
  match s.qtz.pendingShift with
  | some _ => s
  | none =>
    let n : Int := 32768 * (bitsOf value 31 31 : Nat) - (bitsOf value 14 0 : Nat)
    { s with qtz := { s.qtz with pendingShift := some n } }

def execShiftRequest (lvl : Level) (value : Word) (s : State) : Host.Outcome State Fault Refusal :=
  next (asWrite s lvl Adr.QTZ_SHIFT fun t => shiftRequest (rsvCheck t Adr.QTZ_SHIFT value) value)

/-- A write of `QTZ_CDN` loads and starts the countdown, or stops it with 0 (R552). -/
def countdownWrite (s : State) (value : Word) : State :=
  let n := bitsOf value 23 0
  let s1 := setFld (setFld (setFld s Fld.QTZ_CDN_RELOAD (bitsOf value 31 31)) Fld.QTZ_CDN_COUNT n) Fld.QTZ_CDN_RUN
    (if n = 0 then 0 else 1)
  { s1 with qtz := { s1.qtz with cdnReload := n } }

def execCountdownWrite (lvl : Level) (value : Word) (s : State) : Host.Outcome State Fault Refusal :=
  next (asWrite s lvl Adr.QTZ_CDN fun t => countdownWrite (rsvCheck t Adr.QTZ_CDN value) value)

/-- The countdown reaches 0 (R552). -/
def countdownZero (s : State) : State :=
  if flag s Fld.QTZ_CDN_RUN then
    let s1 := if flag s Fld.QTZ_CDN_RELOAD then setFld s Fld.QTZ_CDN_COUNT s.qtz.cdnReload
      else setFld (setFld s Fld.QTZ_CDN_COUNT 0) Fld.QTZ_CDN_RUN 0
    fireWake (raise (setFlag s1 Fld.QTZ_STAT_CDN) 50) 1
  else s

def execCountdownZero (s : State) : Host.Outcome State Fault Refusal := next (countdownZero s)

/-! ### Trim -/

/-- T in force (R546). -/
def trimT (s : State) : Int := signedOf 13 (fld s Fld.QTZ_TRIM_TRIM)

/-- One trimmed CLK32K count: SUBSEC, the countdown's divider and count, the automatic-trim window. A count that would
complete a second, or bring the countdown to 0, waits for the command of that event. -/
def count32 (s : State) : State :=
  let q := s.qtz
  let adv := q.hold = 0 ∧ q.sub < 32767
  let div := (q.cdnDiv + 1) % 2048
  let s1 := { s with
    qtz := { q with
      hold := q.hold - 1
      sub := if adv then q.sub + 1 else q.sub
      cdnDiv := div
      window := q.window.map fun w => { w with periods := w.periods + 1, sinceEdge := w.sinceEdge + 1 } }
    clk := { s.clk with sinceEdge := if adv then 0 else s.clk.sinceEdge } }
  if div = 0 ∧ flag s Fld.QTZ_CDN_RUN ∧ 1 < fld s Fld.QTZ_CDN_COUNT then
    setFld s1 Fld.QTZ_CDN_COUNT (fld s Fld.QTZ_CDN_COUNT - 1)
  else s1

/-- One trim adjustment of the |T| of a 256 s window: an extra count, or a count deleted (R546). -/
def trimAdjust (s : State) : State :=
  let t := trimT s
  if t = 0 ∨ t.natAbs ≤ s.qtz.trimDone then s
  else
    let s1 := { s with qtz := { s.qtz with trimDone := s.qtz.trimDone + 1 } }
    if 0 < t then count32 s1 else { s1 with qtz := { s1.qtz with drop := s1.qtz.drop + 1 } }

def execTrimAdjustment (s : State) : Host.Outcome State Fault Refusal := next (if s.clk.osc then trimAdjust s else s)

/-- A rejected window (R550): ATREJ, REJECTS. -/
def trimReject (s : State) : State := incSat (setFlag s Fld.QTZ_STAT_ATREJ) Fld.QTZ_ATSTAT_REJECTS 1

/-- MEAS of an error in units of 0.01 ppm, saturating (R558). -/
def setMeas (s : State) (e100 : Int) : State := setFld s Fld.QTZ_ATSTAT_MEAS (unsignedOf 16 (clampInt (-32768) 32767 e100))

/-- The end of a window with error `num / den` (R550): the new T waits for the next second boundary. -/
def trimEnd (s : State) (num : Int) (den : Nat) : State :=
  let s1 := setMeas s (roundHalfAway (num * 100000000) den)
  if (fld s Fld.QTZ_ATRIM_LIMIT : Int) * den < num.natAbs * 1000000 ∨ flag s (cPend ⟨.qtz, 0⟩) then trimReject s1
  else
    let dT := roundHalfAway (num * 8388608) (den * 2 ^ fld s Fld.QTZ_ATRIM_GAIN)
    { s1 with qtz := { s1.qtz with pendingTrim := some (clampInt (-4095) 4095 (trimT s - dT)) } }

/-- The nominal count of a window: WIN minutes of CLK32K periods (R548). -/
def windowPeriods (s : State) : Nat := fld s Fld.QTZ_ATRIM_WIN * 60 * 32768

/-- Edges per second of `MAINSZC` (R548). -/
def mainsRate (s : State) : Nat :=
  (if flag s Fld.QTZ_ATRIM_FREQ then 60 else 50) * (1 + fld s Fld.QTZ_ATRIM_EDGES)

/-- Edges of a window (R548). -/
def windowEdges (s : State) : Nat := fld s Fld.QTZ_ATRIM_WIN * 60 * mainsRate s

/-- An edge on `MAINSZC` (R548): the first accepted one starts a window, after an update that waits for its second; one that follows the last by less than 0.4 of the
nominal spacing is ignored; the others are counted. -/
def mainsEdge (s : State) : State :=
  if fld s Fld.QTZ_ATRIM_SRC = 1 then
    match s.qtz.window with
    | none => if s.qtz.pendingTrim.isSome then s else { s with qtz := { s.qtz with window := some {} } }
    | some w =>
      if w.sinceEdge * mainsRate s * 10 < 4 * 32768 then s
      else { s with qtz := { s.qtz with window := some { w with edges := w.edges + 1, sinceEdge := 0 } } }
  else s

def execMainszcEdge (s : State) : Host.Outcome State Fault Refusal := next (mainsEdge s)

/-- No edge was accepted within 1.5 spacings: the window is abandoned as a rejection (R548). -/
def execAutotrimEdgeTimeout (s : State) : Host.Outcome State Fault Refusal :=
  next (match s.qtz.window with
    | some _ => if fld s Fld.QTZ_ATRIM_SRC = 1 then trimReject { s with qtz := { s.qtz with window := none } } else s
    | none => s)

/-! ### Oscillator and supply -/

/-- The crystal stops: OSF is set, QTZ_OSF raised, the clock holds (R551). -/
def execOscStop (s : State) : Host.Outcome State Fault Refusal :=
  next (raise (setFlag { s with clk := { s.clk with osc := false } } Fld.QTZ_STAT_OSF) 51)

/-- Every 60 s on VBAT, VBAT is compared with 2.0 V (R536). -/
def execVbatCheck (low : Bool) (s : State) : Host.Outcome State Fault Refusal :=
  next (if s.pins.vbat && low then setFlag s Fld.QTZ_STAT_VBATLOW else s)

/-- A pulse on `PWRON` ends (R554); PULSE committed to 0 meanwhile has made it a level. -/
def execPwronPulseEnd (s : State) : Host.Outcome State Fault Refusal :=
  next (match s.qtz.pulseFrom with
    | some _ => pwrRelease s
    | none => s)

/-- The backup domain lost VBAT: it runs from the field (R345, R536). -/
def execVbatLoss (s : State) : Host.Outcome State Fault Refusal := next { s with pins := { s.pins with vbat := false } }

/-- VBAT is back: the backup domain returns to it without loss (R536). -/
def execVbatReturn (s : State) : Host.Outcome State Fault Refusal := next { s with pins := { s.pins with vbat := true } }

/-! ### The passing of one CLK100 cycle -/

/-- One CLK32K edge in the backup domain: it counts unless a trim deletes it, and moves the 256 s trim window on (R546). -/
def edge32 (s : State) : State :=
  let q := s.qtz
  let wrap := q.trimPos + 1 = 8388608
  let s1 := { s with qtz := { q with
    trimPos := if wrap then 0 else q.trimPos + 1
    trimDone := if wrap then 0 else q.trimDone
    drop := q.drop - 1 } }
  if q.drop = 0 then count32 s1 else s1

/-- Time passes by one CLK100 cycle in the clocks and in Quartz (log entry 2). Bits [14:0] of Q64 follow the time since the last
CLK32K edge also after CLK100 has stood still, up to the next edge: DESIGN CHOICE, log entry 47. -/
def tickClocks (s : State) : State :=
  let ph := s.clk.phase32 + 128
  let c := { s.clk with now := s.clk.now + 1, sinceEdge := s.clk.sinceEdge + 1, phase32 := ph % 390625 }
  let s1 := { s with clk := c, fresh := [] }
  if 390625 ≤ ph ∧ s.clk.osc then edge32 s1 else s1

/-! ### Views -/

/-- The level of `CLKOUT` (R599): CLK32K as a square wave while VDDIO is valid, whatever the mode and `RST_N`, low while the crystal is
stopped. It rises with each CLK32K edge. -/
def clkout (s : State) : Bool := s.pins.vddio && s.clk.osc && decide (2 * s.clk.phase32 < 390625)

/-- The level of `PWRON` (R554, R557): active at POL, from the backup supply, in every mode. -/
def pwronPin (s : State) : Bool := flag s Fld.QTZ_STAT_PWRON != flag s Fld.QTZ_PWRON_POL

/-- `QTZ_STAT` as it reads: the pending and supply fields follow from the state (R558). -/
def qtzStat (s : State) : Word :=
  let b (x : Bool) : Nat := if x then 1 else 0
  putBits (putBits (putBits (putBits (reg s Adr.QTZ_STAT) 31 31 (b s.qtz.pendingSet.isSome)) 30 30
    (b s.qtz.pendingShift.isSome)) 26 26 (b (!s.pins.vbat))) 25 25 (b s.clk.osc)

end Sys2Proof.Machine
end

