-- ==== Sys2Proof/Machine/Sightings.lean ====
section
/-! DEFINITION. The sighting table, direction, traffic intervals and the SGT window (R450–R463). -/

namespace Sys2Proof.Machine

open Sys2Proof

/-! ### Entries -/

/-- No such read (R451). -/
def noOffset : Nat := 0xFFFF

def sgtFlag (e : Sighting) (k : Nat) : Sighting := { e with flags := e.flags ||| 2 ^ k }

/-- The key of R450. -/
def sgtKey (e : Sighting) (tech : Nat) (id : List Byte) (zone : Nat) : Bool := e.tech == tech && e.id == id && e.zone == zone

/-- The open entry at a number. -/
def sgtAt (s : State) (n : Nat) : Option Sighting := (s.sgt.open_.find? fun p => p.1 == n).map fun p => p.2

/-- Replace an open entry. -/
def sgtPut (s : State) (n : Nat) (e : Sighting) : State :=
  { s with sgt := { s.sgt with open_ := s.sgt.open_.map fun p => if p.1 = n then (n, e) else p } }

/-- Open an entry at a number, keeping numbers rising. -/
def sgtOpen (s : State) (n : Nat) (e : Sighting) : State :=
  let l := s.sgt.open_
  { s with sgt := { s.sgt with
      open_ := l.filter (fun p => p.1 < n) ++ [(n, e)] ++ l.filter fun p => n < p.1
      freed := s.sgt.freed.filter fun p => p.1 != n } }

/-- The lowest-numbered free entry (R450). -/
def sgtFree (s : State) : Option Nat := firstBelow 2048 fun n => (sgtAt s n).isNone

/-- Elapsed ms between two CLK100 times, saturating (R451). -/
def offsetMs (a b : Nat) : Nat := min 0xFFFE ((b - a) / 100000)

/-- DIR (R458): 0 NONE, 1 FWD, 2 REV. -/
def sgtDir (s : State) (e : Sighting) (refined : Bool) : Nat :=
  let gap := max (10 * s.sgt.dirGap) 1
  let apart (a b : Nat) : Bool := gap ≤ (a - b) + (b - a)
  if e.upFirst = noOffset ∨ e.dnFirst = noOffset then 0
  else if refined ∧ apart e.dnPeak e.upPeak then (if e.upPeak < e.dnPeak then 1 else 2)
  else if apart e.dnFirst e.upFirst then (if e.upFirst < e.dnFirst then 1 else 2)
  else 0

/-- The 64 bytes of an entry (R451). -/
def sgtBytes (e : Sighting) (state dir : Nat) : List Byte :=
  (e.id ++ List.replicate (16 - e.id.length) 0) ++ leBytes 8 e.first ++ leBytes 8 e.last ++ leBytes 8 e.rpMask ++
    leBytes 2 e.count ++ leBytes 2 e.hold ++ leBytes 2 e.pc ++ leBytes 2 e.flags ++ leBytes 2 e.upFirst ++
    leBytes 2 e.dnFirst ++ leBytes 2 e.upPeak ++ leBytes 2 e.dnPeak ++
    [BitVec.ofNat 8 e.peak, BitVec.ofNat 8 e.upLvl, BitVec.ofNat 8 e.dnLvl,
     BitVec.ofNat 8 (e.tech * 32 + e.id.length), BitVec.ofNat 8 e.zone, BitVec.ofNat 8 e.dgrp,
     BitVec.ofNat 8 (state * 64 + dir), BitVec.ofNat 8 e.peakRp]

/-! ### Intervals -/

/-- The interval that starts at a Q64 time; boundaries are multiples of 60 × TRFLEN whole seconds (R459). -/
def newInterval (s : State) (start : Nat) (part : Bool) : Interval :=
  let l := 60 * max 1 s.sgt.trfLen
  { start := start, stop := (start / 2 ^ 30 / l + 1) * l, partial_ := part }

/-- The zone of a code. -/
def zoneAt (s : State) (code : Nat) : Option Zone := s.sgt.zones.find? fun z => z.code == code

def setZone (s : State) (z : Zone) : State :=
  { s with sgt := { s.sgt with zones := s.sgt.zones.map fun y => if y.code = z.code then z else y } }

/-- Count a closed entry in an interval (R459, R462). -/
def countIn (i : Interval) (dir : Nat) (early : Bool) : Interval :=
  let top := 0xFFFFFFFF
  let j := match dir with
    | 1 => { i with fwd := satAdd top i.fwd 1, sat := i.sat || satAdd top i.fwd 1 == top }
    | 2 => { i with rev := satAdd top i.rev 1, sat := i.sat || satAdd top i.rev 1 == top }
    | _ => { i with none_ := satAdd top i.none_ 1, sat := i.sat || satAdd top i.none_ 1 == top }
  if early then { j with early := satAdd 0xFFFF j.early 1, sat := j.sat || satAdd 0xFFFF j.early 1 == 0xFFFF } else j

/-- A closed entry adds to the interval that contains its FIRST; after a step, to the one filling (R459, R461). -/
def sgtCount (s : State) (e : Sighting) (dir : Nat) : State :=
  if e.flags.testBit 2 ∨ e.flags.testBit 5 then s
  else match zoneAt s e.zone with
    | none => s
    | some z =>
      let early := e.flags.testBit 0
      let holds (i : Interval) : Bool := i.start ≤ e.first && e.first < i.stop * 2 ^ 30
      if !e.stepped && z.ended.any holds then
        setZone s { z with ended := z.ended.map fun i => if holds i then countIn i dir early else i }
      else setZone s { z with filling := countIn z.filling dir early }

/-- The TRF packet (R462), to TRF and to the journal, with TRF_INTERVAL. -/
def trfReport (s : State) (code : Nat) (i : Interval) (len : Nat) (zoneEnd timeStep : Bool) : State :=
  let w0 := 1 * 2 ^ 28 + code * 2 ^ 21 + (if i.sat then 2 ^ 19 else 0) + (if zoneEnd then 2 ^ 18 else 0) +
    (if timeStep then 2 ^ 17 else 0) + (if i.partial_ then 2 ^ 16 else 0) + min 0xFFF len
  let ws := BitVec.ofNat 32 w0 :: q64Words i.start ++
    [BitVec.ofNat 32 i.fwd, BitVec.ofNat 32 i.rev, BitVec.ofNat 32 i.none_, BitVec.ofNat 32 (i.early * 2 ^ 16)]
  raise (autoTrf (emitBoth s 1 0x02 ws) ws) 59

/-- Length in s of an interval that ran its course. -/
def fullLength (i : Interval) : Nat := (i.stop * 2 ^ 30 - i.start + 2 ^ 29) / 2 ^ 30

/-- Length in s of an interval cut at a Q64 time. -/
def cutLength (i : Interval) (t : Nat) : Nat := (t - i.start + 2 ^ 29) / 2 ^ 30

/-- Ended intervals of one zone are reported, with their own times (R460). -/
def zoneReport (due : Interval → Bool) (t : State) (z : Zone) : State :=
  setZone ((z.ended.filter due).foldl (fun u i => trfReport u z.code i (fullLength i) false false) t)
    ({ z with ended := z.ended.filter fun i => !due i } : Zone)

/-- The ended intervals are reported (R460). -/
def reportEnded (s : State) : State := s.sgt.zones.foldl (zoneReport fun _ => true) s

/-- INTERVAL_REPORT: in DORMANT and WATCH the report waits for the wake (R460). -/
def execIntervalReport (s : State) : Host.Outcome State Fault Refusal := next (if mode s < 3 then s else reportEnded s)

/-- At a wake the intervals whose 60 s have passed in the sleep are reported (R460). -/
def reportAtWake (s : State) : State :=
  s.sgt.zones.foldl (zoneReport fun i => i.stop + 60 ≤ s.qtz.secs) s

/-- A boundary at a whole second: the filling interval ends there (R459, R460); TRFLEN takes effect at it (R461). -/
def intervalBoundary (s : State) : State :=
  if s.qtz.secs % (60 * max 1 s.sgt.trfLen) = 0 then
    let s1 := if mode s < 3 then s else reportEnded s
    let s2 := { s1 with sgt := { s1.sgt with trfLen := fld s1 Fld.SGT_CFG_TRFLEN } }
    { s2 with sgt := { s2.sgt with zones := s2.sgt.zones.map fun z =>
        { z with ended := z.ended ++ [z.filling], filling := newInterval s2 (s2.qtz.secs * 2 ^ 30) false } } }
  else s

/-- Both intervals of one zone are reported at a step to another time (R461). -/
def zoneStep (before : Nat) (t : State) (z : Zone) : State :=
  let t1 := z.ended.foldl (fun u i => trfReport u z.code i (fullLength i) false true) t
  trfReport t1 z.code z.filling (cutLength z.filling before) false true

/-- A Quartz step (R461): both pending intervals are reported, flagged TIMESTEP, with the time before the step as their end;
a PARTIAL interval starts at the new time. -/
def intervalStep (s : State) (before : Nat) : State :=
  let s1 := s.sgt.zones.foldl (zoneStep before) s
  { s1 with sgt := { s1.sgt with
      zones := s1.sgt.zones.map fun z => { z with ended := [], filling := newInterval s1 (q64 s1) true }
      open_ := s1.sgt.open_.map fun p => (p.1, { p.2 with stepped := true })
      waiting := s1.sgt.waiting.map fun r => { r with stepped := true } } }

/-- A zone begins (R461). -/
def zoneBegin (s : State) (code : Nat) : State :=
  if (zoneAt s code).isSome then s
  else { s with sgt := { s.sgt with
      zones := (s.sgt.zones ++ [({ code := code, filling := newInterval s (q64 s) true } : Zone)]).insertionSort
        fun a b => a.code ≤ b.code } }

/-- BOOT_DONE starts the first interval of every zone (R461). -/
def zonesBegin (s : State) : State :=
  let s1 := { s with sgt := { s.sgt with trfLen := fld s Fld.SGT_CFG_TRFLEN } }
  ((List.range 32).filter (isZone s1)).foldl (fun t n => zoneBegin t (0x40 + n)) s1

/-! ### Closure -/

/-- An entry closes with a reason flag, or with none (R455–R459): DIR is inferred, the packet goes to SGT and to the journal
as its flags ask, the interval counts it. -/
def sgtClose (s : State) (n : Nat) (why : Option Nat) : State :=
  match sgtAt s n with
  | none => s
  | some e0 =>
    let e1 := match why with
      | some k => sgtFlag e0 k
      | none => e0
    let refined := fld s Fld.SYS_STAT_SHED < 2
    let dir := sgtDir s e1 refined
    let e := if refined then e1 else sgtFlag e1 4
    let bytes := sgtBytes e 1 dir
    let s1 := { s with sgt := { s.sgt with
      open_ := s.sgt.open_.filter (fun p => p.1 != n)
      freed := s.sgt.freed ++ [(n, bytes.set 62 (BitVec.ofNat 8 dir))] } }
    let ws := BitVec.ofNat 32 (1 * 2 ^ 28 + n * 2 ^ 16) :: q64Words (q64 s) ++ packWords bytes
    let s2 := if e.flags.testBit 14 then admitPacket s1 0 ws else s1
    let s3 := if e.flags.testBit 15 ∧ !e.flags.testBit 5 then
        admitPacket s2 8 (jnlTag 0x01 :: BitVec.ofNat 32 ((e.lastAt - e.firstAt) / 100000) :: ws)
      else s2
    let s4 := setFld s3 Fld.SGT_CNT0_CLOSED (satAdd 0xFFFFFFFF (fld s3 Fld.SGT_CNT0_CLOSED) 1)
    let s5 := match why with
      | some 0 => raise (setFlag (incSat s4 Fld.SGT_CNT1_EARLY 1) Fld.SGT_STAT_EARLY) 58
      | some 1 => incSat s4 Fld.SGT_CNT1_LONG 1
      | some 5 => setFlag s4 Fld.SGT_STAT_INVALID
      | _ => s4
    sgtCount s5 e dir

/-- A free entry for a new key: the lowest free one, else the one that EARLY_CLOSE frees (R450, R455). -/
def sgtMakeRoom (s : State) : State × Nat :=
  match sgtFree s with
  | some n => (s, n)
  | none =>
    match s.sgt.open_ with
    | [] => (s, 0)
    | p :: ps =>
      let old := ps.foldl (fun b q => if q.2.first < b.2.first then q else b) p
      (sgtClose s old.1 (some 0), old.1)

/-! ### Merging -/

/-- A role read updates the direction fields (R458). -/
def sgtRole (s : State) (e : Sighting) (r : TagRead) (off : Nat) : Sighting :=
  match roleOf s r.rp with
  | none => e
  | some (g, role) =>
    let e1 := if e.dgrp = 0x7F then { e with dgrp := g } else e
    if g ≠ e1.dgrp then sgtFlag e1 6
    else if role = 1 then
      let e2 := if e1.upFirst = noOffset then { e1 with upFirst := off } else e1
      if e2.upPeak = noOffset ∨ r.level < e2.upLvl then { e2 with upPeak := off, upLvl := r.level } else e2
    else
      let e2 := if e1.dnFirst = noOffset then { e1 with dnFirst := off } else e1
      if e2.dnPeak = noOffset ∨ r.level < e2.dnLvl then { e2 with dnPeak := off, dnLvl := r.level } else e2

/-- A read updates its entry (R451, R452). -/
def sgtUpdate (s : State) (e : Sighting) (r : TagRead) : Sighting :=
  let n := satAdd 0xFFFF e.count 1
  let e1 := { e with
    last := r.q64
    lastAt := r.at_
    rpMask := e.rpMask ||| 2 ^ r.rp
    count := n
    hold := if r.hold = 0 then s.sgt.hold else r.hold
    pc := if r.tech = 0 then r.pc else 0 }
  let e2 := if e.count = 0 ∨ r.level < e.peak then { e1 with peak := r.level, peakRp := r.rp } else e1
  let e3 := if n = 0xFFFF then sgtFlag e2 9 else e2
  let e4 := if r.longId then sgtFlag e3 3 else e3
  let e5 := if r.dup then sgtFlag e4 8 else e4
  let e6 := if r.report.testBit 0 then sgtFlag e5 14 else e5
  let e7 := if r.report.testBit 1 then sgtFlag e6 15 else e6
  sgtRole s e7 r (offsetMs e.firstAt r.at_)

/-- A read is merged into the open entry with its key, or opens an entry (R450). -/
def sgtMerge (s : State) (r : TagRead) : State :=
  let zone := zoneOf s r.rp
  match s.sgt.open_.find? fun p => sgtKey p.2 r.tech r.id zone with
  | some (n, e) => sgtPut s n (sgtUpdate s e r)
  | none =>
    let m := sgtMakeRoom s
    let e : Sighting := { id := r.id, first := r.q64, last := r.q64, firstAt := r.at_, lastAt := r.at_, tech := r.tech,
                          zone := zone, stepped := r.stepped }
    sgtOpen m.1 m.2 (sgtUpdate m.1 e r)

/-- A read that reaches the table, as a command gives it: identifiers have at most 16 bytes (R254). -/
def readOf (s : State) (r : ReadIn) : TagRead :=
  { tech := r.tech, id := r.id.take 16, longId := r.longId, rp := r.rp, chan := r.chan.toNat, q64 := r.q64.toNat, at_ := s.clk.now,
    level := r.level.toNat, pc := r.pc.toNat, dup := r.dup, hold := r.hold.toNat, report := r.report.toNat }

/-- The read waits already for the table. -/
def sameRead (a b : TagRead) : Bool := a.tech == b.tech && a.id == b.id && a.rp == b.rp && a.q64 == b.q64

/-- The order of R31. -/
def readLe (a b : TagRead) : Bool := a.q64 < b.q64 || (a.q64 == b.q64 && a.rp ≤ b.rp)

/-- Reads are merged in the order of R31. -/
def mergeAll (s : State) (l : List TagRead) : State := (l.insertionSort fun a b => readLe a b = true).foldl sgtMerge s

/-- READ_MERGE (R450): a read that waits is taken off the list as it is merged, and those that stand before it are merged before it
(R31). -/
def readMerge (s : State) (r : ReadIn) : State :=
  let t0 := readOf s r
  let t := { t0 with stepped := s.sgt.waiting.any fun w => sameRead w t0 && w.stepped }
  if t.id.isEmpty then s
  else
    let left := s.sgt.waiting.eraseP fun w => sameRead w t
    sgtMerge (mergeAll { s with sgt := { s.sgt with waiting := left.filter fun w => !readLe w t } } (left.filter fun w => readLe w t)) t

def execReadMerge (read : ReadIn) (s : State) : Host.Outcome State Fault Refusal := next (readMerge s read)

/-- Waiting reads are merged. -/
def mergeWaiting (s : State) : State := mergeAll { s with sgt := { s.sgt with waiting := [] } } s.sgt.waiting

/-- Close the entries whose hold is over, in ascending LAST (R453). -/
def closeHeld (s : State) : State :=
  let due := s.sgt.open_.filter fun p => p.2.lastAt + ms (100 * p.2.hold) ≤ s.clk.now
  (due.insertionSort fun a b => a.2.last < b.2.last ∨ (a.2.last = b.2.last ∧ a.1 ≤ b.1)).foldl
    (fun t p => sgtClose t p.1 none) s

/-- Close the entries open for MAXOPEN and open their continuations (R454); a continuation keeps HOLD and the report flags,
and the read point of its strongest read is free until it has a read (log entry 4). -/
def closeLong (s : State) : State :=
  let due := s.sgt.open_.filter fun p => p.2.firstAt + ms (1000 * s.sgt.maxOpen) ≤ s.clk.now
  due.foldl (fun t p =>
    let t1 := sgtClose t p.1 (some 1)
    let (w, t2) := drawWord t1
    let m := sgtMakeRoom t2
    let e : Sighting := { id := p.2.id, first := p.2.last, last := p.2.last, firstAt := p.2.lastAt, lastAt := p.2.lastAt,
                          tech := p.2.tech, zone := p.2.zone, hold := p.2.hold, flags := 4 + (p.2.flags &&& 0xC000),
                          peakRp := w.toNat % 64, stepped := p.2.stepped }
    sgtOpen m.1 m.2 e) s

/-- The 10 ms tick (R453): the settings of `SGT_CFG`, the reads, the closures. -/
def sightingTick (s : State) : State :=
  if mode s < 3 then s
  else
    let s1 := { s with sgt := { s.sgt with hold := fld s Fld.SGT_CFG_HOLD, maxOpen := fld s Fld.SGT_CFG_MAXOPEN,
                                           dirGap := fld s Fld.SGT_CFG_DIRGAP } }
    closeLong (closeHeld (mergeWaiting s1))

def execSightingTick (s : State) : Host.Outcome State Fault Refusal := next (sightingTick s)

/-- A zone ends (R236, R461). -/
def zoneEnd (s : State) (code : Nat) : State :=
  match zoneAt s code with
  | none => s
  | some _ =>
    let mine := (s.sgt.open_.filter fun p => p.2.zone == code).insertionSort
      fun a b => a.2.last < b.2.last ∨ (a.2.last = b.2.last ∧ a.1 ≤ b.1)
    let s1 := mine.foldl (fun t p => sgtClose t p.1 (some 7)) s
    match zoneAt s1 code with
    | none => s1
    | some z =>
      let s2 := z.ended.foldl (fun u i => trfReport u code i (fullLength i) false false) s1
      let s3 := trfReport s2 code { z.filling with partial_ := true } (cutLength z.filling (q64 s)) true false
      { s3 with sgt := { s3.sgt with zones := s3.sgt.zones.filter fun y => y.code != code } }

/-! ### The SGT window -/

/-- A divisor of 60. -/
def divides60 (n : Nat) : Bool := n != 0 && 60 % n == 0

/-- A write of `SGT_CFG` (R463). -/
def sgtCfgWrite (s : State) (v : Word) : State :=
  if 1 ≤ bitsOf v 31 20 ∧ 1 ≤ bitsOf v 19 14 ∧ bitsOf v 19 14 ≤ 60 ∧ divides60 (bitsOf v 5 0) then setReg s Adr.SGT_CFG v
  else setFlag s Fld.SGT_STAT_CFGERR

def execSgtCfgWrite (lvl : Level) (value : Word) (s : State) : Host.Outcome State Fault Refusal :=
  next (asWrite s lvl Adr.SGT_CFG fun t => sgtCfgWrite t value)

/-- The bytes that `SGT_SEL` copies: an open entry shows its unrefined direction (R458); a free one what it last held. -/
def sgtView (s : State) (n : Nat) : List Byte × Nat :=
  match sgtAt s n with
  | some e => (sgtBytes e 1 (sgtDir s e false), 1)
  | none => (((s.sgt.freed.find? fun p => p.1 == n).map fun p => p.2).getD (List.replicate 64 0), 0)

/-- A write of `SGT_SEL` (R463). -/
def sgtSelWrite (s : State) (v : Word) : State :=
  let n := bitsOf v 10 0
  let r := sgtView s n
  let s1 := setFld (setFld s Fld.SGT_SEL_INDEX n) Fld.SGT_SEL_STATE r.2
  ((List.range 16).zip (packWords r.1)).foldl (fun t p => setReg t (Adr.SGT_E p.1) p.2) s1

def execSgtSelWrite (lvl : Level) (value : Word) (s : State) : Host.Outcome State Fault Refusal :=
  next (asWrite s lvl Adr.SGT_SEL fun t => sgtSelWrite (rsvCheck t Adr.SGT_SEL value) value)

/-- `SGT_STAT` as it reads. -/
def sgtStat (s : State) : Word := putBits (reg s Adr.SGT_STAT) 31 20 s.sgt.open_.length

/-- The traffic registers of zone HDGz as they read: the filling interval (R463). -/
def sgtTrf (s : State) (z k : Nat) : Word :=
  let f := (zoneAt s (0x40 + z)).map fun y => y.filling
  match k with
  | 0 => BitVec.ofNat 32 (f.elim 0 fun i => i.fwd)
  | 1 => BitVec.ofNat 32 (f.elim 0 fun i => i.rev)
  | 2 => BitVec.ofNat 32 (f.elim 0 fun i => i.none_)
  | _ => BitVec.ofNat 32 ((f.elim 0 fun i => i.early) * 2 ^ 16 + if isZone s z then 1 else 0)

end Sys2Proof.Machine
end

