-- ==== Sys2Proof/Machine/Swap.lean ====
section
/-! DEFINITION. What every shadow set shares: the swap into force, acceptance, refusal and discard (R32–R38, R609). -/

namespace Sys2Proof.Machine

open Sys2Proof

/-- COMMIT was set in this cycle: a boundary of this cycle does not serve it (R35). -/
def commitNew (s : State) (b : BlockInst) : Bool := (freshAt s (commitAddr b)).getLsbD 31

/-! Reason codes of R40. -/

def rsnRange : Nat := 1
def rsnPair : Nat := 2
def rsnRef : Nat := 3
def rsnInuse : Nat := 4
def rsnProfile : Nat := 5
def rsnAbsent : Nat := 6
def rsnTree : Nat := 7

/-- The first failing check of a list of checks with their reasons; 0 when all pass (R40). -/
def firstFail (checks : List (Bool × Nat)) : Nat :=
  match checks.find? fun c => !c.1 with
  | some c => c.2
  | none => 0

/-- The staged words of a block instance. -/
def stagedOf (s : State) (b : BlockInst) : RegFile := s.shadow.filter fun p => blockOf p.1 == some b

/-- The staged words at the addresses a test accepts go into force, and their shadow copies with them (R32, R36). -/
def swapWords (s : State) (b : BlockInst) (p : Nat → Bool) : State :=
  let ws := (stagedOf s b).filter fun q => p q.1
  let s1 := ws.foldl (fun t q =>
    let m := accMask q.1 .sh
    setReg t q.1 ((reg t q.1 &&& ~~~m) ||| (q.2 &&& m))) s
  { s1 with shadow := s1.shadow.filter fun q => !(blockOf q.1 == some b && p q.1) }

/-- The shadow set is reloaded from the in-force set (R36). -/
def dropStaged (s : State) (b : BlockInst) : State :=
  { s with shadow := s.shadow.filter fun q => blockOf q.1 != some b }

/-- PEND and COMMIT as a request stands or is over (R34). -/
def setPend (s : State) (b : BlockInst) (v : Nat) : State := setFld (setFld s (cPend b) v) (cCommit b) v

/-- The words of a CONFIG record of a block (R475). -/
def configWords (s : State) (b : BlockInst) : Nat × List Word :=
  match b.block with
  | .rp => (Adr.RP_CFG b.inst, (List.range 15).map fun k => reg s (Adr.RP_CFG b.inst + k))
  | .hdg => (Adr.HDG_CFG b.inst, (List.range 5).map fun k => reg s (Adr.HDG_CFG b.inst + k))
  | _ => (0, [])

/-- Acceptance: SEQ rises, and the commit is journalled (R34, R472). -/
def acceptSeq (s : State) (b : BlockInst) : State :=
  let s1 := incMod s (cSeq b) 1
  let c := configWords s1 b
  configRecord s1 (blockId b.block) b.inst (fld s1 (cSeq b)) c.1 c.2

/-- A whole set is swapped in at once (R32, R34, R36). -/
def acceptWhole (s : State) (b : BlockInst) : State := acceptSeq (setPend (swapWords s b fun _ => true) b 0) b

/-- A set is refused: the in-force set and the shadow set stay, CFG_REJECT and REASON say so, a fault record goes to FLT, and
the summary of R42 may raise its interrupt (R33, R130). -/
def refuseSet (s : State) (b : BlockInst) (reason : Nat) : State :=
  let s1 := setFld (setFlag (setPend s b 0) (cReject b)) (cReason b) reason
  raiseReject s (fault s1 (blockId b.block) b.inst 0x01 [BitVec.ofNat 8 reason, BitVec.ofNat 8 (fld s1 (cSeq b))])
    (blockId b.block)

end Sys2Proof.Machine
end

