-- ==== Sys2Proof/Machine/Boundary.lean ====
section
/-! DEFINITION. The Quartz second boundary: time sets, shifts, the QTZ shadow set, automatic trim, the alarm, and the traffic
intervals that end there (R459–R461, R537–R556). -/

namespace Sys2Proof.Machine

open Sys2Proof

/-! ### The QTZ shadow set -/

def qtzInst : BlockInst := ⟨.qtz, 0⟩

/-- The checks of R560; 0 when the set passes. -/
def qtzCheck (s : State) : Nat :=
  let f (x : Field) : Nat := shadowFld s x
  firstFail [
    (f Fld.QTZ_TRIM_TRIM != 0x1000 && f Fld.QTZ_ALARM_HOUR ≤ 23 && f Fld.QTZ_ALARM_MIN ≤ 59 && f Fld.QTZ_ALARM_SEC ≤ 59 &&
      f Fld.QTZ_ATRIM_SRC != 3 && 10 ≤ f Fld.QTZ_ATRIM_WIN && f Fld.QTZ_ATRIM_WIN ≤ 60 && 1 ≤ f Fld.QTZ_ATRIM_LIMIT &&
      f Fld.QTZ_ATRIM_LIMIT ≤ 500 && 1 ≤ f Fld.QTZ_PWRON_WIDTH, rsnRange),
    (f Fld.QTZ_ATRIM_SRC != 2 || (List.range 4).any fun k => flag s (Fld.LNK_SRC_EN k), rsnRef),
    (f Fld.QTZ_PWRON_POL == fld s Fld.QTZ_PWRON_POL || !(flag s Fld.QTZ_STAT_PWRON && s.qtz.pulseFrom.isNone), rsnPair)]

/-- The beacon fits restart from their latest sample (R430). -/
def fitRestart (s : State) : State :=
  { s with lnk := { s.lnk with nbrs := s.lnk.nbrs.map fun p => (p.1, { p.2 with samples := p.2.samples.take 1 }) } }

/-- A new T: a new 256 s window begins, the beacon fits restart (R430, R547). -/
def trimChanged (s : State) : State := fitRestart { s with qtz := { s.qtz with trimPos := 0, trimDone := 0, drop := 0 } }

/-- An automatic-trim window waits for its first edge, or begins at once for the beacon source (R548, R549). -/
def trimWindowNew (s : State) : State :=
  { s with qtz := { s.qtz with window := none }
           lnk := { s.lnk with steady := fld s Fld.LNK_ORIGIN_SRC != 0xF } }

/-- What a changed QTZ set does beside its registers (R547, R548, R554). -/
def qtzApplied (s0 s : State) : State :=
  let s1 := if fld s0 Fld.QTZ_TRIM_TRIM != fld s Fld.QTZ_TRIM_TRIM then trimChanged s else s
  let s2 := if reg s0 Adr.QTZ_ATRIM != reg s Adr.QTZ_ATRIM then trimWindowNew s1 else s1
  match fld s0 Fld.QTZ_PWRON_PULSE, fld s Fld.QTZ_PWRON_PULSE with
  | 1, 0 => { s2 with qtz := { s2.qtz with pulseFrom := none } }
  | 0, 1 => if flag s2 Fld.QTZ_STAT_PWRON then { s2 with qtz := { s2.qtz with pulseFrom := some s2.clk.now } } else s2
  | _, _ => s2

/-- The QTZ set meets its boundary. -/
def qtzSwap (s : State) : State :=
  if flag s (cPend qtzInst) && !commitNew s qtzInst then
    let why := qtzCheck s
    if why = 0 then qtzApplied s (acceptWhole s qtzInst) else refuseSet s qtzInst why
  else s

/-! ### Pieces of a second boundary -/

/-- The alarm is compared with the second that begins (R553). -/
def alarmCheck (s : State) : State :=
  let t := s.qtz.secs % 86400
  if flag s Fld.QTZ_ALARM_EN && fld s Fld.QTZ_ALARM_HOUR == t / 3600 && fld s Fld.QTZ_ALARM_MIN == t / 60 % 60 &&
      fld s Fld.QTZ_ALARM_SEC == t % 60 then
    fireWake (raise (setFlag s Fld.QTZ_STAT_ALARM) 49) 0
  else s

/-- Traffic intervals that end at this second; the core keeps none in BACKUP. -/
def intervalsAt (s : State) : State := if mode s = 0 then s else intervalBoundary s

/-- The calendar begins its next second (R537, R538). -/
def secondBegins (s : State) : State :=
  let n := s.qtz.secs + 1
  let s1 := { s with qtz := { s.qtz with secs := n % calendarSpan, sub := 0 }
                     clk := { s.clk with sinceEdge := 0 } }
  if calendarSpan ≤ n then setFlag s1 Fld.QTZ_STAT_WRAP else s1

/-- An automatic update of T at the boundary, unless a commit changed TRIM there (R550). A window against `MAINSZC` starts at the
first edge after it (R548). -/
def autoTrimApply (s : State) (committed : Bool) : State :=
  match s.qtz.pendingTrim with
  | none => s
  | some t =>
    let s0 := { s with qtz := { s.qtz with pendingTrim := none, window := none } }
    if committed then trimReject s0
    else
      let s1 := setFldBoth s0 Fld.QTZ_TRIM_TRIM (unsignedOf 13 t) (flag s0 (cPend qtzInst))
      trimChanged (raise (incMod (setFlag s1 Fld.QTZ_STAT_TRIMUPD) Fld.QTZ_ATSTAT_UPDATES 1) 52)

/-- The commit and the automatic update at one boundary (R550, R555). -/
def qtzBoundary (s : State) : State :=
  let s1 := qtzSwap s
  autoTrimApply s1 (fld s Fld.QTZ_TRIM_TRIM != fld s1 Fld.QTZ_TRIM_TRIM)

/-- A pending shift is applied (R544): forwards by a jump, which may begin a further second, backwards by a hold. -/
def shiftApply (s : State) : State :=
  match s.qtz.pendingShift with
  | none => s
  | some n =>
    let s1 := { s with qtz := { s.qtz with pendingShift := none }
                       lnk := { s.lnk with shifted := s.lnk.shifted + n * 2 ^ 15 } }
    if n < 0 then { s1 with qtz := { s1.qtz with hold := (-n).toNat } }
    else if n < 32768 then { s1 with qtz := { s1.qtz with sub := n.toNat } }
    else intervalsAt (alarmCheck (secondBegins s1))

/-- A time set takes effect (R541, R543): sub-second 0, a pending shift discarded, the trim window restarted, both traffic
intervals reported, and no alarm. The fraction of the link's step is then asked for as a shift (R543). -/
def timeSetApply (s : State) (t : TimeSet) : State :=
  let before := q64 s
  let s1 := { s with qtz := { s.qtz with secs := t.secs % calendarSpan, sub := 0, hold := 0, pendingSet := none,
                                         pendingNow := none }
                     clk := { s.clk with sinceEdge := 0 } }
  let s2 := setQtzRes (if t.clrOsf then clrFld s1 Fld.QTZ_STAT_OSF else s1) 1
  let s3 := match s2.qtz.pendingShift with
    | some _ => setFlag { s2 with qtz := { s2.qtz with pendingShift := none } } Fld.QTZ_STAT_SHIFTCAN
    | none => s2
  let s4 := trimWindowNew { s3 with
    qtz := { s3.qtz with pendingShift := s3.lnk.stepFrac.map fun f => (f : Int) }
    lnk := { s3.lnk with stepFrac := none, shifted := s3.lnk.shifted + ((q64 s3 : Int) - (before : Int)) } }
  qtzBoundary (if mode s4 = 0 then s4 else intervalStep s4 before)

/-- The sub-second count completes a second (R537): a pending SETTIME takes its place (R541), else the next second begins with
the commits, the shift and the alarm of the boundary (R544, R545, R553). -/
def secondBoundary (s : State) : State :=
  if s.clk.osc then
    match s.qtz.pendingSet with
    | some t => timeSetApply s t
    | none => shiftApply (intervalsAt (alarmCheck (qtzBoundary (secondBegins s))))
  else s

def execSecondBoundary (s : State) : Host.Outcome State Fault Refusal := next (secondBoundary s)

/-- A SET_NOW that waits takes effect at a CLK32K edge, while the crystal runs (R541, R555). -/
def setNowApply (s : State) : State :=
  match s.qtz.pendingNow with
  | some t => if s.clk.osc then timeSetApply s t else s
  | none => s

/-- SET_NOW (R541): accepted and applied at the first CLK32K edge. -/
def execSetNow (lvl : Level) (key : BitVec 16) (clrOsf : Bool) (s : State) : Host.Outcome State Fault Refusal :=
  next (qtzCommand s lvl key fun t => setNowApply (setNow t clrOsf))

/-- The crystal's first good period (R551): what waits for an edge is applied. -/
def execOscRestart (s : State) : Host.Outcome State Fault Refusal :=
  next (setNowApply { s with clk := { s.clk with osc := true } })

/-! ### Automatic trim -/

/-- The clock error of a neighbour's fit in 0.01 ppm, ERRINIT before two samples (R430): the least-squares slope of TIME minus
local time against local time. -/
def fitError (s : State) (x : LnkNbr) : Int :=
  let l := x.samples
  let n : Int := l.length
  if l.length < 2 then 100 * (fld s Fld.LNK_DRIFT_ERRINIT : Int)
  else
    let sx := (l.map fun p => p.1).sum
    let sy := (l.map fun p => p.2).sum
    let sxx := (l.map fun p => p.1 * p.1).sum
    let sxy := (l.map fun p => p.1 * p.2).sum
    let den := n * sxx - sx * sx
    if den ≤ 0 then 100 * (fld s Fld.LNK_DRIFT_ERRINIT : Int)
    else clampInt (-32767) 32767 (roundHalfAway ((n * sxy - sx * sy) * 100000000) den.toNat)

/-- The measurement against the adopted beacon source, `steady` saying that it was adopted for the whole window with an unchanged
epoch (R549). -/
def beaconMeasure (s : State) (steady : Bool) : State :=
  let k := fld s Fld.LNK_ORIGIN_SRC
  let x := ((s.lnk.nbrs.find? fun p => p.1 == fld s (Fld.LNK_SRC_NBR k)).map fun p => p.2).getD {}
  if steady && k < 4 && x.samples.length == 8 then trimEnd s (-(fitError s x)) 100000000 else trimReject s

/-- A measurement that fell due while the core slept is taken at the wake (R549). -/
def measureAtWake (s : State) : State :=
  match s.qtz.measure with
  | some steady => beaconMeasure { s with qtz := { s.qtz with measure := none } } steady
  | none => s

/-- The end of an automatic-trim window (R548–R550); that against the beacon source waits for the wake while the core sleeps. -/
def trimWindowEnd (s : State) : State :=
  match fld s Fld.QTZ_ATRIM_SRC with
  | 1 =>
    match s.qtz.window with
    | some w =>
      if windowEdges s ≤ w.edges then
        trimEnd (trimWindowNew s) ((w.periods : Int) - (windowPeriods s : Int)) (windowPeriods s)
      else s
    | none => s
  | 2 =>
    let s1 := trimWindowNew s
    if mode s < 3 then { s1 with qtz := { s1.qtz with measure := some s.lnk.steady } } else beaconMeasure s1 s.lnk.steady
  | _ => s

def execAutotrimWindowEnd (s : State) : Host.Outcome State Fault Refusal := next (trimWindowEnd s)

end Sys2Proof.Machine
end

