-- ==== Sys2Proof/Machine/Tag.lean ====
section
/-! DEFINITION. The HF tag: its states, store, commands, authentication, fault log, host operations and harvest output
(R344–R376). -/

namespace Sys2Proof.Machine

open Sys2Proof

/-! ### What the tag knows -/

/-- The core, with the TAG registers and the report channels, runs or is retained. -/
def tagCore (s : State) : Bool := mode s != 0

/-- The tag has a field and is not in power-off (R346, R354). -/
def tagPowered (s : State) : Bool := flag s Fld.TAG_STAT_FIELD && fld s Fld.TAG_STAT_STATE != 0

def secured (s : State) : Bool := flag s Fld.TAG_STAT_SECURED

/-- A TGE packet (R372): not in BACKUP; in DORMANT and WATCH it waits until the core next runs. -/
def tge (s : State) (ws : List Word) : State :=
  if mode s = 0 then s
  else if mode s ≤ 2 then { s with tag := { s.tag with later := s.tag.later ++ [ws] } }
  else admitPacket s 4 ws

/-- The packets of events in sleep are written when the core runs again (R372). -/
def tgeLater (s : State) : State :=
  s.tag.later.foldl (fun t ws => admitPacket t 4 ws) { s with tag := { s.tag with later := [] } }

/-- Word 0 of a TGE packet, then the time. -/
def tgeWords (s : State) (w0 : Nat) : List Word := BitVec.ofNat 32 w0 :: q64Words (q64 s)

/-- A counter of the core domain. -/
def tagCount (s : State) (f : Field) (n : Nat) : State := if tagCore s then incSat s f n else s

/-- An interrupt of the core domain. -/
def tagRaise (s : State) (k : Nat) : State := if tagCore s then raise s k else s

/-! ### Requests and replies -/

def hdrBit (h : TagHdr) (k : Nat) : Bool := h.flags.toNat.testBit k
/-- Flags of ISO/IEC 15693-3: data rate, inventory, select, address, option. -/
def hdrRate (h : TagHdr) : Bool := hdrBit h 1
def hdrInventory (h : TagHdr) : Bool := hdrBit h 2
def hdrSelect (h : TagHdr) : Bool := hdrBit h 4
def hdrAddress (h : TagHdr) : Bool := hdrBit h 5
def hdrOption (h : TagHdr) : Bool := hdrBit h 6

/-- The request is addressed to the tag with its UID. -/
def addressed (h : TagHdr) : Bool := hdrAddress h && h.uid.toNat == dieUid

/-- The request is in addressed or selected mode and reaches the tag. -/
def direct (s : State) (h : TagHdr) : Bool :=
  if hdrAddress h then addressed h else hdrSelect h && fld s Fld.TAG_STAT_STATE == 3

/-- The tag processes a request that is not an Inventory (R344, R354): at the high data rate, not in power-off; in addressed
mode with its UID, in selected mode when selected, else unless quiet. -/
def reaches (s : State) (h : TagHdr) : Bool :=
  tagPowered s && hdrRate h && !hdrInventory h &&
    (direct s h || (!hdrAddress h && !hdrSelect h && fld s Fld.TAG_STAT_STATE != 2))

/-- The reply of the tag, counted in CMDS (R375). -/
def tagReply (s : State) (bs : List Byte) : State :=
  tagCount { s with tag := { s.tag with reply := some bs } } Fld.TAG_CNT0_CMDS 1

/-- No reply. -/
def tagSilent (s : State) : State := { s with tag := { s.tag with reply := none } }

/-- An error reply. -/
def tagError (s : State) (code : Byte) : State := tagReply s [1, code]

/-- An error reply whose code the manual does not state (log entry 4). -/
def tagErrorFree (s : State) : State :=
  let (w, s1) := drawWord s
  tagError s1 (wordByte w 0)

/-- A command in addressed or selected mode, which alone is addressed to the tag, ends the AES exchange (R357; log entry 43). -/
def leaveAes (s : State) (h : TagHdr) : State :=
  if direct s h then { s with tag := { s.tag with aes := none } } else s

/-- A request of the field gets no reply unless it reaches the tag. -/
def tagRequest (s : State) (h : TagHdr) (eff : State → State) : State :=
  if reaches s h then
    let s1 := tagSilent (leaveAes s h)
    if h.fits then eff s1 else tagError s1 0x02
  else tagSilent s

/-- A custom command: only in addressed or selected mode (R353). -/
def tagCustom (s : State) (h : TagHdr) (eff : State → State) : State :=
  if direct s h then tagRequest s h eff else tagSilent s

/-! ### Turns of the tag engine (R158, R360, R369) -/

/-- An access of the tag engine to the store, class C0. -/
def tagNvm (s : State) (cmd : Instr) (run : State → State) : State := turn s (nvmRequest .tagEngine .c0) cmd run

/-- A read of the store: the committed copy answers at once, also while another consumer holds the store (R368). -/
def tagPeek (s : State) (run : State → State) : State :=
  let r := asPostedNow s (nvmRequest .tagEngine .c0)
  if arbitrated s && atOnce s r then grantPoint (run (countGrant s r)) else run s

/-- An AES pass: Flint together with the store in one set (R154, R360). -/
def tagFlint (s : State) (cmd : Instr) (run : State → State) (wait : State → State := id) : State :=
  turn s { who := .tagEngine, cls := .c0, mask := 2 ^ resFlint ||| 2 ^ resTagnvm, kind := .flint } cmd run wait

/-! ### Store -/

/-- The areas of R348. -/
inductive TagArea where
  | publicArea
  | protectedArea
  | faultLog
  deriving DecidableEq, Repr

def areaOf (s : State) (page : Nat) : TagArea :=
  if page < fld s Fld.TAG_AREA_PROTPG then .publicArea
  else if page < fld s Fld.TAG_AREA_FLTPG then .protectedArea else .faultLog

/-- A field read of a page is allowed (R349). -/
def mayRead (s : State) (page : Nat) : Bool :=
  secured s || match areaOf s page with
    | .publicArea => true
    | .protectedArea => flag s Fld.TAG_CFG_PROTRD
    | .faultLog => !flag s Fld.TAG_CFG_FLTRD

/-- A field write of a page is allowed (R349). -/
def mayWrite (s : State) (page : Nat) : Bool :=
  match areaOf s page with
  | .publicArea => secured s || !flag s Fld.TAG_CFG_PUBWP
  | .protectedArea => secured s
  | .faultLog => false

/-- The generation of a page (R368). -/
def pageGen (s : State) (p : Nat) : Nat := ((s.tag.gens.find? fun g => g.1 == p).map fun g => g.2).getD 0

/-- A page was programmed: its generation moves on (R367, R368). -/
def bumpGen (s : State) (p : Nat) : State :=
  let g := (pageGen s p + 1) % 256
  { s with tag := { s.tag with gens := s.tag.gens.filter (fun x => x.1 != p) ++ (if g = 0 then [] else [(p, g)]) } }

/-- A page program failed twice: the old contents stand, PROGFAIL and a fault record (R350). -/
def progFail (s : State) (p : Nat) : State :=
  if tagCore s then fault (setFlag s Fld.TAG_STAT_PROGFAIL) 0x0B 0 0x0B [BitVec.ofNat 8 p] else s

/-- The reply of a read of blocks: each block's security status with the option flag, then its 4 bytes. -/
def blockBytes (s : State) (h : TagHdr) (first count : Nat) : List Byte :=
  (List.range count).flatMap fun k => (if hdrOption h then [0x00] else []) ++ bytesAt s.tag.store (4 * (first + k)) 4

/-- A read of blocks (R349, R352). -/
def readBlocks (s : State) (h : TagHdr) (first count : Nat) : State :=
  if 16384 < first + count then tagError s 0x10
  else if count = 0 ∨ 64 < count then tagErrorFree s
  else if (List.range count).all fun k => mayRead s ((first + k) / 64) then tagReply s (0 :: blockBytes s h first count)
  else tagError s 0x15

/-- A page is programmed for the field (R349, R350, R368). -/
def fieldProgram (s : State) (first : Nat) (data : List Word) (prog : ProgResult) : State :=
  let page := first / 64
  match prog with
  | .good =>
    let s1 := bumpGen { s with tag := { s.tag with
      store := bytesPut s.tag.store (4 * first) (unpackWords data)
      staged := s.tag.staged.map fun w => if w.page = page then { w with fieldWrote := true } else w } } page
    let s2 := tge (tagCount s1 Fld.TAG_CNT2_FWRITES 1)
      (tgeWords s1 (3 * 2 ^ 28 + page * 2 ^ 20 + data.length * 2 ^ 13))
    tagReply s2 [0]
  | .failed => tagErrorFree (progFail s page)

/-- A write of blocks within one page (R349, R350, R352, R368): it waits for a page operation that holds the store. -/
def writeBlocks (s : State) (cmd : Instr) (first : Nat) (data : List Word) (prog : ProgResult) : State :=
  let page := first / 64
  if data.isEmpty then tagErrorFree s
  else if 16384 < first + data.length ∨ (first + data.length - 1) / 64 ≠ page then tagError s 0x10
  else if !mayWrite s page then tagError s 0x12
  else tagNvm s cmd fun t => fieldProgram t first data prog

/-! ### States of the tag -/

def setTagState (s : State) (n : Nat) : State := setFld s Fld.TAG_STAT_STATE n

/-- OPEN (R354). -/
def tagOpen (s : State) : State := clrFld s Fld.TAG_STAT_SECURED

/-- The field is there (R346, R354, R371). -/
def tagFieldOn (s : State) (harvOk : Bool) : State :=
  if flag s Fld.TAG_STAT_FIELD then s
  else
    let s1 := tagOpen (setTagState (setFlag s Fld.TAG_STAT_FIELD) 1)
    let s2 := setFld { s1 with tag := { s1.tag with lockFrom := s1.clk.now, rn := none, aes := none } } Fld.TAG_STAT_HARVOK
      (if harvOk && flag s Fld.TAG_CFG_HARVEN then 1 else 0)
    let s3 := tge (tagCount (tagRaise s2 41) Fld.TAG_CNT0_FIELDON 1) (tgeWords s2 (1 * 2 ^ 28 + 2 ^ 27 + mode s2 * 2 ^ 24))
    fireWake s3 3

def execTagFieldOn (harvOk : Bool) (s : State) : Host.Outcome State Fault Refusal := next (tagFieldOn s harvOk)

/-- The field is lost (R346, R354, R355, R371). -/
def tagFieldLost (s : State) : State :=
  if flag s Fld.TAG_STAT_FIELD then
    let s1 := clrFld (clrFld (tagOpen (setTagState s 0)) Fld.TAG_STAT_FIELD) Fld.TAG_STAT_HARVOK
    let s2 := { s1 with tag := { s1.tag with rn := none, aes := none } }
    tge s2 (tgeWords s2 (1 * 2 ^ 28 + mode s2 * 2 ^ 24))
  else s

def execTagFieldLost (s : State) : Host.Outcome State Fault Refusal := next (tagFieldLost s)

/-! ### Standard commands -/

/-- The AFI of an Inventory matches: none or 0x00 asks for all, a low digit of 0 asks for the family (ISO/IEC 15693-3). -/
def afiMatch (s : State) : Option Byte → Bool
  | none => true
  | some a =>
    let own := fld s Fld.TAG_CFG_AFI
    a == 0 || a.toNat == own || (a.toNat % 16 == 0 && a.toNat / 16 == own / 16)

/-- The UID as it travels, least significant byte first. -/
def uidBytes : List Byte := leBytes 8 dieUid

/-- Inventory (R351): a quiet tag does not answer (R354); the tag answers in the slot its UID names. It is addressed to no tag, so an AES
exchange goes on (R357). -/
def inventory (s : State) (h : TagHdr) (afi : Option Byte) (maskLen : Byte) (mask : BitVec 64) : State :=
  let n := maskLen.toNat
  let one := hdrBit h 5
  let s1 := tagSilent s
  if tagPowered s && hdrRate h && hdrInventory h && h.fits && fld s Fld.TAG_STAT_STATE != 2 && n ≤ 64 && afiMatch s afi &&
      dieUid % 2 ^ n == mask.toNat % 2 ^ n then
    tagReply { s1 with tag := { s1.tag with slot := if one then 0 else (dieUid / 2 ^ n) % 16 } }
      ([0, BitVec.ofNat 8 (fld s Fld.TAG_CFG_DSFID)] ++ uidBytes)
  else s1

def execInventory (hdr : TagHdr) (afi : Option Byte) (maskLen : Byte) (mask : BitVec 64) (s : State) :
    Host.Outcome State Fault Refusal := next (inventory s hdr afi maskLen mask)

/-- Stay quiet, addressed only; no reply (R351, R354). -/
def execStayQuiet (hdr : TagHdr) (s : State) : Host.Outcome State Fault Refusal :=
  next (if reaches s hdr then
      let t := tagSilent (leaveAes s hdr)
      if addressed hdr && hdr.fits then setTagState t 2 else t
    else tagSilent s)

def execReadSingleBlock (hdr : TagHdr) (block : Byte) (s : State) : Host.Outcome State Fault Refusal :=
  next (tagRequest s hdr fun t => tagPeek t fun u => readBlocks u hdr block.toNat 1)

def execWriteSingleBlock (hdr : TagHdr) (block : Byte) (data : Word) (prog : ProgResult) (s : State) :
    Host.Outcome State Fault Refusal :=
  next (tagRequest s hdr fun t => writeBlocks t (.writeSingleBlock hdr block data prog) block.toNat [data] prog)

def execReadMultipleBlocks (hdr : TagHdr) (first : Byte) (count : Nat) (s : State) : Host.Outcome State Fault Refusal :=
  next (tagRequest s hdr fun t => tagPeek t fun u => readBlocks u hdr first.toNat count)

def execWriteMultipleBlocks (hdr : TagHdr) (first : Byte) (data : List Word) (prog : ProgResult) (s : State) :
    Host.Outcome State Fault Refusal :=
  next (tagRequest s hdr fun t => writeBlocks t (.writeMultipleBlocks hdr first data prog) first.toNat data prog)

def execExtendedReadSingleBlock (hdr : TagHdr) (block : BitVec 16) (s : State) : Host.Outcome State Fault Refusal :=
  next (tagRequest s hdr fun t => tagPeek t fun u => readBlocks u hdr block.toNat 1)

def execExtendedWriteSingleBlock (hdr : TagHdr) (block : BitVec 16) (data : Word) (prog : ProgResult) (s : State) :
    Host.Outcome State Fault Refusal :=
  next (tagRequest s hdr fun t => writeBlocks t (.extendedWriteSingleBlock hdr block data prog) block.toNat [data] prog)

def execExtendedReadMultipleBlocks (hdr : TagHdr) (first : BitVec 16) (count : Nat) (s : State) :
    Host.Outcome State Fault Refusal :=
  next (tagRequest s hdr fun t => tagPeek t fun u => readBlocks u hdr first.toNat count)

def execExtendedWriteMultipleBlocks (hdr : TagHdr) (first : BitVec 16) (data : List Word) (prog : ProgResult) (s : State) :
    Host.Outcome State Fault Refusal :=
  next (tagRequest s hdr fun t => writeBlocks t (.extendedWriteMultipleBlocks hdr first data prog) first.toNat data prog)

/-- Select (R354): with the tag's UID from ready or quiet, with another UID from selected. -/
def select (s : State) (h : TagHdr) : State :=
  if tagPowered s && hdrRate h && !hdrInventory h && hdrAddress h && h.fits then
    let s1 := tagSilent { s with tag := { s.tag with aes := if addressed h then none else s.tag.aes } }
    if addressed h then tagReply (setTagState s1 3) [0]
    else if fld s Fld.TAG_STAT_STATE = 3 then setTagState s1 1 else s1
  else tagRequest s h fun t => t

def execSelect (hdr : TagHdr) (s : State) : Host.Outcome State Fault Refusal := next (select s hdr)

/-- Reset to ready (R354). -/
def execResetToReady (hdr : TagHdr) (s : State) : Host.Outcome State Fault Refusal :=
  next (tagRequest s hdr fun t =>
    let u := if fld t Fld.TAG_STAT_STATE = 1 then t else tagOpen (setTagState t 1)
    tagReply u [0])

/-- The DSFID and AFI of a system-information reply. -/
def dsfidAfi (s : State) : List Byte := [BitVec.ofNat 8 (fld s Fld.TAG_CFG_DSFID), BitVec.ofNat 8 (fld s Fld.TAG_CFG_AFI)]

/-- Get system info (R351), laid out as ISO/IEC 15693-3: information flags, UID, DSFID, AFI, 256 blocks of 4 bytes, IC
reference. -/
def execGetSystemInfo (hdr : TagHdr) (s : State) : Host.Outcome State Fault Refusal :=
  next (tagRequest s hdr fun t => tagReply t ([0, 0x0F] ++ uidBytes ++ dsfidAfi t ++ [0xFF, 0x03, 0x01]))

/-- Extended get system info (R351): as above with a two-byte number of blocks. -/
def execExtendedGetSystemInfo (hdr : TagHdr) (s : State) : Host.Outcome State Fault Refusal :=
  next (tagRequest s hdr fun t => tagReply t ([0, 0x0F] ++ uidBytes ++ dsfidAfi t ++ [0xFF, 0x3F, 0x03, 0x01]))

/-- Any other command (R351, R353): error 0x01 in addressed or selected mode, else no reply. -/
def execUnsupportedCommand (hdr : TagHdr) (_code : Byte) (s : State) : Host.Outcome State Fault Refusal :=
  next (if reaches s hdr && direct s hdr then
      tagError (tagSilent (leaveAes s hdr)) 0x01
    else tagSilent s)

/-! ### Authentication -/

/-- Get random (R355). -/
def execGetRandom (hdr : TagHdr) (s : State) : Host.Outcome State Fault Refusal :=
  next (tagCustom s hdr fun t =>
    let (r, t1) := drawRandom t
    let rn : BitVec 16 := r.setWidth 16
    tagReply { t1 with tag := { t1.tag with rn := some rn } } (0 :: leBytes 2 rn.toNat))

/-- Authenticate METHOD 0x00 (R356). -/
def execLeave (hdr : TagHdr) (s : State) : Host.Outcome State Fault Refusal :=
  next (tagCustom s hdr fun t => tagReply (tagOpen t) [0])

/-- Authenticate is refused (R359). -/
def tagLocked (s : State) : Bool :=
  let n := fld s Fld.TAG_STAT_FAILS
  n != 0 && s.clk.now < s.tag.lockFrom + ms (100 * min n 64)

/-- The AUTH packet (R372). -/
def authPacket (s : State) (method key : Nat) (ok : Bool) : State :=
  tge s (tgeWords s (2 * 2 ^ 28 + method % 4 * 2 ^ 26 + key % 32 * 2 ^ 21 + (if ok then 2 ^ 20 else 0) +
    fld s Fld.TAG_STAT_FAILS * 2 ^ 12))

/-- A failed Authenticate (R358, R359). -/
def authFail (s : State) (method key : Nat) : State :=
  let s1 := setFld s Fld.TAG_STAT_FAILS (satAdd 255 (fld s Fld.TAG_STAT_FAILS) 1)
  let s2 := tagCount { s1 with tag := { s1.tag with lockFrom := s1.clk.now } } Fld.TAG_CNT1_AUTHFAIL 1
  tagError (authPacket (setFlag s2 Fld.TAG_STAT_AUTHFAIL) method key false) 0xA0

/-- An Authenticate that passes: SECURED, with TAG_SECURED and TAGCMD on entering it (R354, R359). -/
def authPass (s : State) (method shown key : Nat) : State :=
  let s1 := setFld (setFld (clrFld (setFlag s Fld.TAG_STAT_SECURED) Fld.TAG_STAT_FAILS) Fld.TAG_STAT_KEYNUM key)
    Fld.TAG_STAT_METHOD shown
  let s2 := if secured s then s1 else fireWake (tagRaise s1 42) 4
  tagReply (authPacket s2 method key true) [0]

/-- A key of a usage and slot (R92); a password also stands in the key store (R347). -/
def keyOf (s : State) (usage slot : Nat) : Option (List Byte) :=
  match s.boot.keys.find? fun k => k.usage == usage && k.slot == slot with
  | some k => some k.bytes
  | none => if usage = 3 then (s.tag.mirror.passwords.find? fun p => p.1 == slot).map fun p => p.2 else none

/-- Authenticate METHOD 0x01 (R356, R358). -/
def password (s : State) (key : Nat) (p : Word) : State :=
  if tagLocked s then tagError { s with tag := { s.tag with rn := none } } 0xA1
  else match s.tag.rn with
    | none => tagError s 0xA3
    | some rn =>
      let s1 := { s with tag := { s.tag with rn := none } }
      if (fld s Fld.TAG_PWEN_SLOTS).testBit key then
        match keyOf s 3 key with
        | some k => if p.toNat = leNat k ^^^ (rn.toNat * 2 ^ 16 + rn.toNat) then authPass s1 1 1 key else authFail s1 1 key
        | none => authFail s1 1 key
      else authFail s1 1 key

def execPassword (hdr : TagHdr) (keynum : Byte) (p : Word) (s : State) : Host.Outcome State Fault Refusal :=
  next (tagCustom s hdr fun t => password t keynum.toNat p)

/-- The AES methods are available (R360). -/
def aesServed (s : State) : Bool :=
  3 ≤ mode s || (1 ≤ mode s && (reg s Adr.SYS_WAKEEN).toNat.testBit 4)

/-- The first pass of AES (R356, R357). -/
def aes1Run (s : State) (key : Nat) (rnr : BitVec 64) : State :=
  match (if (fld s Fld.TAG_AESEN_SLOTS).testBit key then keyOf s 2 key else none) with
  | some k =>
    let (r, s2) := drawRandom s
    let rnt := leBytes 8 (r.toNat % 2 ^ 64)
    let rr := beBytes 8 rnr.toNat
    tagReply { s2 with tag := { s2.tag with aes := some ⟨key, rr, rnt⟩ } } ([0] ++ rnt ++ aes128 k (rr ++ rnt))
  | none => authFail s 2 key

/-- Authenticate METHOD 0x02 (R356, R357, R360). -/
def aes1 (s : State) (h : TagHdr) (key : Byte) (rnr : BitVec 64) : State :=
  if tagLocked s then tagError s 0xA1
  else if !aesServed s then tagError s 0xA2
  else tagFlint (if mode s ≤ 2 then fireWake s 4 else s) (.aes1 h key rnr) fun t => aes1Run t key.toNat rnr

def execAes1 (hdr : TagHdr) (keynum : Byte) (rnr : BitVec 64) (s : State) : Host.Outcome State Fault Refusal :=
  next (tagCustom s hdr fun t => aes1 t hdr keynum rnr)

/-- The second pass, given the exchange that AES1 left; the slot must still be enabled (R357, R358). -/
def aes2Run (s : State) (x : TagAes) (e2 : BitVec 128) : State :=
  match (if (fld s Fld.TAG_AESEN_SLOTS).testBit x.slot then keyOf s 2 x.slot else none) with
  | some k => if beBytes 16 e2.toNat = aes128 k (x.rnt ++ x.rnr) then authPass s 3 2 x.slot else authFail s 3 x.slot
  | none => authFail s 3 x.slot

/-- Authenticate METHOD 0x03 (R356, R357, R360); the exchange is kept while the pass waits for its turn. -/
def aes2 (s : State) (a : Option TagAes) (h : TagHdr) (e2 : BitVec 128) : State :=
  if tagLocked s then tagError s 0xA1
  else if !aesServed s then tagError s 0xA2
  else match a with
    | none => tagError s 0xA3
    | some x => tagFlint s (.aes2 h e2) (fun t => aes2Run t x e2) fun t => { t with tag := { t.tag with aes := some x } }

def execAes2 (hdr : TagHdr) (e2 : BitVec 128) (s : State) : Host.Outcome State Fault Refusal :=
  next (tagCustom s hdr fun t => aes2 t s.tag.aes hdr e2)

/-- A second pass whose turn has come. -/
def aes2Turn (s : State) (e2 : BitVec 128) : State :=
  match s.tag.aes with
  | some x => aes2Run { s with tag := { s.tag with aes := none } } x e2
  | none => s

/-! ### Fault log -/

/-- Records the fault-log area can hold (R361). -/
def logRoom (s : State) : Nat := (256 - fld s Fld.TAG_AREA_FLTPG) * 16

/-- The bytes of the record `back` places before the newest. -/
def logRecord (s : State) (back : Nat) : List Byte :=
  let n := logRoom s
  let slot := (s.tag.logPos + n - 1 - back) % n
  bytesAt s.tag.store (256 * fld s Fld.TAG_AREA_FLTPG + 16 * slot) 16

/-- The status snapshot as Read fault log gives it (R364); what a lost snapshot holds is free (log entry 4). -/
def snapshotReply (s : State) : State :=
  match s.tag.snap with
  | some p => tagReply s ([0, 1, BitVec.ofNat 8 p.denied] ++ leBytes 8 p.time ++ unpackWords p.words)
  | none =>
    let free := unpackWords ((List.range 11).map fun k => Config.freeWord (s.drawn + k))
    tagReply { s with drawn := s.drawn + 11 } ([0, 0] ++ free.take 41)

/-- Read fault log (R363, R364), under the read rule of R349. -/
def readFaultLog (s : State) (offset count : Nat) : State :=
  if !(secured s || !flag s Fld.TAG_CFG_FLTRD) then tagError s 0x15
  else if offset = 0xFFFF then snapshotReply s
  else if count = 0 ∨ 8 < count then tagErrorFree s
  else
    let n := min count (s.tag.logCount - offset)
    tagPeek s fun t => tagReply t ([0] ++ leBytes 2 t.tag.logCount ++ [BitVec.ofNat 8 n] ++
      (List.range n).flatMap fun k => logRecord t (offset + k))

def execReadFaultLog (hdr : TagHdr) (offset : BitVec 16) (count : Byte) (s : State) : Host.Outcome State Fault Refusal :=
  next (tagCustom s hdr fun t => readFaultLog t offset.toNat count.toNat)

def execStatusSnapshot (hdr : TagHdr) (count : Byte) (s : State) : Host.Outcome State Fault Refusal :=
  next (tagCustom s hdr fun t => readFaultLog t 0xFFFF count.toNat)

/-- The 16 bytes of a fault-log record (R361), from the words of its FLT packet (R502). -/
def logBytes (seq : Nat) (ws : List Word) : List Byte :=
  let w (k : Nat) : Word := ws.getD k 0
  leBytes 4 seq ++ leBytes 8 ((w 1).toNat * 2 ^ 32 + (w 2).toNat) ++
    [wordByte (w 0) 2, wordByte (w 0) 1, wordByte (w 0) 0, wordByte (w 3) 0]

/-- Nothing to write: the log is off, no copy waits, its area has no page, or the core does not run (R361). -/
def logIdle (s : State) : Bool := !flag s Fld.TAG_CFG_FLTEN || s.tag.copies.isEmpty || logRoom s = 0 || mode s < 3

/-- The firmware writes a page of the ring: as many waiting records as the page has room for; moving to a new page replaces
its 16 old records (R361). -/
def faultLogWrite (s : State) (prog : ProgResult) : State :=
  let n := logRoom s
  if logIdle s then s
  else
    let at_ := s.tag.logPos % 16
    let page := fld s Fld.TAG_AREA_FLTPG + s.tag.logPos / 16
    let k := min (16 - at_) s.tag.copies.length
    let recs := (List.range k).flatMap fun j => logBytes (s.tag.logSeq + 1 + j) (s.tag.copies.getD j [])
    match prog with
    | .failed => progFail s page
    | .good =>
      let base := if at_ = 0 then bytesPut s.tag.store (256 * page) (List.replicate 256 0) else s.tag.store
      let kept := if at_ = 0 then min s.tag.logCount (n - 16) else s.tag.logCount
      tagCount (bumpGen { s with tag := { s.tag with
        store := bytesPut base (256 * page + 16 * at_) recs
        copies := s.tag.copies.drop k
        logPos := (s.tag.logPos + k) % n
        logCount := kept + k
        logSeq := s.tag.logSeq + k } } page) Fld.TAG_CNT2_FLTREC k

/-- The write takes its turn on the store as a request of class C3 (R361). -/
def execFaultLogWrite (prog : ProgResult) (s : State) : Host.Outcome State Fault Refusal :=
  next (if logIdle s then s else turn s (nvmRequest .tagLog .c3) (.faultLogWrite prog) fun t => faultLogWrite t prog)

/-- The ring restarts empty; SEQ continues (R362). -/
def logRestart (s : State) : State := { s with tag := { s.tag with logPos := 0, logCount := 0 } }

/-! ### Host operations -/

/-- The HOST packet (R372). -/
def hostPacket (s : State) (page : Nat) (write : Bool) (result : Nat) : State :=
  tge s (tgeWords s (4 * 2 ^ 28 + page * 2 ^ 20 + (if write then 2 ^ 19 else 0) + result * 2 ^ 16))

/-- The end of a host operation on a page. -/
def tagHostEnd (s : State) (page : Nat) (write : Bool) (result : Nat) : State :=
  let s1 := setFld (setFld (setFld (clrFld s Fld.TAG_HSTAT_BUSY) Fld.TAG_HSTAT_RESULT result) Fld.TAG_HSTAT_PAGE page)
    Fld.TAG_HSTAT_GEN (pageGen s page)
  hostPacket s1 page write result

/-- A command of `TAG_HCMD`: ignored while BUSY (R369). -/
def tagHostCommand (s : State) (eff : State → State) : State :=
  if flag s Fld.TAG_HSTAT_BUSY then setFld s Fld.TAG_HSTAT_RESULT 3 else eff s

/-- A host operation takes its turn on the store as a request of class C1 (R369), BUSY while it waits. -/
def tagHostTurn (s : State) (cmd : Instr) (run : State → State) : State :=
  turn s (nvmRequest .tagHost .c1) cmd run fun t => setFlag t Fld.TAG_HSTAT_BUSY

/-- The scheduler without the field's requests and grants. -/
def withoutField (s : State) : State :=
  { s with sched := { s.sched with
    requests := s.sched.requests.filter fun r => r.who != .tagEngine
    grants := s.sched.grants.filter fun g => g.who != .tagEngine } }

/-- READ takes turns with every consumer of the store but the field's commands, for which it never waits (R366). -/
def tagReadTurn (s : State) (cmd : Instr) (run : State → State) : State :=
  let r := asPostedNow s (nvmRequest .tagHost .c1)
  if arbitrated s && mayPost s r.who && !atOnce s r && atOnce (withoutField s) r then run s else tagHostTurn s cmd run

/-- READ (R366). -/
def tagHostRead (s : State) (page : Nat) : State :=
  let s1 := (List.range 64).foldl (fun t w => setReg t (Adr.TAG_HBUF w)
    (BitVec.ofNat 32 (leNat (bytesAt s.tag.store (256 * page + 4 * w) 4)))) s
  tagHostEnd s1 page false 1

def tagHostReadCmd (s : State) (lvl : Level) (page : Byte) : State :=
  tagHostCommand s fun u => tagReadTurn u (.tagHostRead lvl page) fun v => tagHostRead v page.toNat

def execTagHostRead (lvl : Level) (page : Byte) (s : State) : Host.Outcome State Fault Refusal :=
  next (asWrite s lvl Adr.TAG_HCMD fun t => tagHostReadCmd t lvl page)

/-- The bytes of the host buffer. -/
def hostBuffer (s : State) : List Byte := unpackWords ((List.range 64).map fun w => reg s (Adr.TAG_HBUF w))

/-- The commit point of a staged host write (R367). -/
def tagCommitPoint (s : State) (prog : ProgResult) : State :=
  match s.tag.staged with
  | none => s
  | some w =>
    let s1 := { s with tag := { s.tag with staged := none } }
    if w.fieldWrote || (w.check && pageGen s w.page != w.gen) then
      let s2 := incSat (raise (setFlag s1 Fld.TAG_STAT_CONFLICT) 43) Fld.TAG_CNT1_CONFLICT 1
      tagHostEnd s2 w.page true 2
    else match prog with
      | .good => tagHostEnd (bumpGen { s1 with tag := { s1.tag with
          store := bytesPut s1.tag.store (256 * w.page) w.bytes } } w.page) w.page true 1
      | .failed => tagHostEnd (progFail s1 w.page) w.page true 4

def execTagCommitPoint (prog : ProgResult) (s : State) : Host.Outcome State Fault Refusal :=
  next (if s.tag.staged.isSome then tagHostTurn s (.tagCommitPoint prog) fun t => tagCommitPoint t prog else s)

/-- WRITE is accepted and staged, or refused for a fault-log page while the log is written (R367, R369). -/
def tagHostWrite (s : State) (check : Bool) (gen page : Nat) : State :=
  if flag s Fld.TAG_CFG_FLTEN && areaOf s page == .faultLog then tagHostEnd s page true 5
  else setFld (setFlag { s with tag := { s.tag with
    staged := some { check := check, gen := gen, page := page, bytes := hostBuffer s } } } Fld.TAG_HSTAT_BUSY)
    Fld.TAG_HSTAT_PAGE page

def execTagHostWrite (lvl : Level) (check : Bool) (gen page : Byte) (s : State) : Host.Outcome State Fault Refusal :=
  next (asWrite s lvl Adr.TAG_HCMD fun t => tagHostCommand t fun u => tagHostWrite u check gen.toNat page.toNat)

/-- CLRFAIL (R359, R375). -/
def clrFail (s : State) : State := setFld (clrFld (clrFld s Fld.TAG_HSTAT_BUSY) Fld.TAG_STAT_FAILS) Fld.TAG_HSTAT_RESULT 1

def clrFailCmd (s : State) (lvl : Level) : State := tagHostCommand s fun u => tagHostTurn u (.clrfail lvl) clrFail

def execClrfail (lvl : Level) (s : State) : Host.Outcome State Fault Refusal :=
  next (asWrite s lvl Adr.TAG_HCMD fun t => clrFailCmd t lvl)

/-- A write of `TAG_HCMD` (R375). -/
def tagHcmd (s : State) (lvl : Level) (v : Word) : State :=
  match bitsOf v 31 28 with
  | 1 => tagHostReadCmd s lvl (BitVec.ofNat 8 (bitsOf v 7 0))
  | 2 => tagHostCommand s fun u => tagHostWrite u (bitsOf v 27 27 == 1) (bitsOf v 15 8) (bitsOf v 7 0)
  | 3 => clrFailCmd s lvl
  | _ => s

/-! ### Key store and harvest -/

/-- The addresses of the TAG set, `TAG_CFG` to `TAG_STATLIST3` (R373). -/
def tagSetAddrs : List Nat := (List.range 9).map fun k => Adr.TAG_CFG + k

/-- KEY_STORE_MIRROR (R347). -/
def mirrorTag (s : State) : State :=
  { s with tag := { s.tag with mirror :=
    { set := tagSetAddrs.map (reg s)
      passwords := (bitList 32 (fld s Fld.TAG_PWEN_SLOTS)).filterMap fun n => (keyOf s 3 n).map fun k => (n, k) } } }


/-- `VHARV` stays below 2.9 V and is switched off (R371). -/
def execHarvUndervoltage (s : State) : Host.Outcome State Fault Refusal := next (clrFld s Fld.TAG_STAT_HARVOK)

/-- `VHARV` is tried again (R371). -/
def execHarvRetry (inRegulation : Bool) (s : State) : Host.Outcome State Fault Refusal :=
  next (if flag s Fld.TAG_CFG_HARVEN && flag s Fld.TAG_STAT_FIELD then
      setFld s Fld.TAG_STAT_HARVOK (if inRegulation then 1 else 0)
    else s)

/-- The harvest output after a change of HARVEN (R371): off with HARVEN 0; newly on in a field, whether it comes into regulation is free
(log entry 4). -/
def harvFollows (s : State) (oldHarv : Bool) : State :=
  if !flag s Fld.TAG_CFG_HARVEN then clrFld s Fld.TAG_STAT_HARVOK
  else if !oldHarv && flag s Fld.TAG_STAT_FIELD then
    let (w, t) := drawWord s
    setFld t Fld.TAG_STAT_HARVOK (w.toNat % 2)
  else s

/-- The TAG set as the key store prescribes it, and the harvest output with it (R345, R347, R371, R611); HARVEN was as said before. -/
def tagFromMirror (s : State) (oldHarv : Bool) : State :=
  harvFollows ((tagSetAddrs.zip s.tag.mirror.set).foldl (fun t p => setReg t p.1 p.2) s) oldHarv

/-- What an accepted TAG set changes (R347, R362, R371): the ring, the harvest output, and outside step 6 the key store. -/
def tagApplied (s : State) (oldFltpg : Nat) (oldFlten oldHarv inStep6 : Bool) : State :=
  let s1 := if fld s Fld.TAG_AREA_FLTPG ≠ oldFltpg ∨ (flag s Fld.TAG_CFG_FLTEN && !oldFlten) then logRestart s else s
  let s2 := harvFollows s1 oldHarv
  if inStep6 then s2 else mirrorTag s2

/-- `TAG_STAT` as it reads (R375). -/
def tagStat (s : State) : Word := putBits (reg s Adr.TAG_STAT) 10 10 (if tagLocked s then 1 else 0)

end Sys2Proof.Machine
end

