-- ==== Sys2Proof/Machine/CalCore.lean ====
section
/-! DEFINITION. Calibration instances: what is in use, due and overdue, the requests and forced gaps they post, and the abort of
a step (R167, R193, R562, R564–R566). -/

namespace Sys2Proof.Machine

open Sys2Proof

def calInst (s : State) (item inst : Nat) : CalInst :=
  (s.cal.insts.find? fun x => x.item == item && x.inst == inst).getD { item := item, inst := inst }

def setCalInst (s : State) (x : CalInst) : State :=
  { s with cal := { s.cal with insts := s.cal.insts.filter (fun y => !(y.item == x.item && y.inst == x.inst)) ++ [x] } }

/-! ### Slots of the synthesisers -/

/-- A calibration slot of the synthesiser of a path (R187). -/
def slotAdr : RfPath → Nat → Nat
  | .a, n => Adr.SYNCAL_A n
  | .b, n => Adr.SYNCAL_B n

def slotWord (s : State) (p : RfPath) (n : Nat) : Word := reg s (slotAdr p n)
def slotValid (s : State) (p : RfPath) (n : Nat) : Bool := bitsOf (slotWord s p n) 31 31 == 1
def slotPinned (s : State) (p : RfPath) (n : Nat) : Bool := bitsOf (slotWord s p n) 30 30 == 1
def slotChan (s : State) (p : RfPath) (n : Nat) : Nat := bitsOf (slotWord s p n) 29 16

/-- The path an instance of item 0x01 calibrates. -/
def instPath (inst : Nat) : RfPath := if inst = 0 then .a else .b

/-- The instance of item 0x01 of a path. -/
def pathInst : RfPath → Nat
  | .a => 0
  | .b => 1

/-! ### What is in use -/

/-- Leaves of the Slate entries in force, of a kind (R564). -/
def usedLeaves (s : State) (kind : Nat) : List Nat :=
  (s.slate.entries.flatMap fun p => if classKind (eClass p.2) = kind then entryLeaves s p.2 else []).dedup

/-- The UHF port is named by a leaf in use. -/
def portUsed (s : State) (p : Nat) : Bool := (usedLeaves s 1 ++ usedLeaves s 3).any fun n => rpPort s n == p

/-- The receive chain is named by a leaf in use. -/
def chainUsed (s : State) (k : Nat) : Bool := (usedLeaves s 1 ++ usedLeaves s 3).any fun n => (rpRxMask s n).testBit k

/-- The HF port is named by a leaf in use. -/
def hfPortUsed (s : State) (p : Nat) : Bool := (usedLeaves s 2).any fun n => rpPort s n == p

/-- Entries in force with their index. -/
def entries (s : State) : List (Nat × Entry) := s.slate.entries

/-- The UHF and link leaves of an entry lie on a port. -/
def entryOnPort (s : State) (e : Entry) (kindHf : Bool) (p : Nat) : Bool :=
  (classKind (eClass e) == 2) == kindHf && (entryLeaves s e).any fun n => rpPort s n == p

/-- Anchor a: enabled, and its channel code (R218). -/
def anchor (s : State) (a : Nat) : Bool × Nat :=
  if a % 2 = 0 then (flag s (Fld.RAD_CXANCH_ENL (a / 2)), fld s (Fld.RAD_CXANCH_CODEL (a / 2)))
  else (flag s (Fld.RAD_CXANCH_ENH (a / 2)), fld s (Fld.RAD_CXANCH_CODEH (a / 2)))

/-- Channels of an entry on which calibration may use the air: for UHF, those of the regulatory profile in force (R99, R562). -/
def airChans (s : State) (e : Entry) : List Nat :=
  if classKind (eClass e) = 1 then (eChans e).filter (profileChans s).contains else eChans e

/-- Channels that entries in force use on a port (R562, R564). -/
def portChannels (s : State) (p : Nat) : List Nat :=
  ((entries s).flatMap fun q => if entryOnPort s q.2 false p then airChans s q.2 else []).dedup

/-- Power indices that entries in force use on a port (R562). -/
def portIndices (s : State) (p : Nat) : List Nat :=
  ((entries s).filterMap fun q => if entryOnPort s q.2 false p && !(airChans s q.2).isEmpty then some (ePower q.2) else none).dedup

/-- Enabled anchors on a channel in use on a port, which alone may be measured (R561, R562). -/
def portAnchors (s : State) (p : Nat) : List Nat :=
  (List.range 16).filter fun a => (anchor s a).1 && (portChannels s p).contains (anchor s a).2

/-- The instance is in use (R564). -/
def calInUse (s : State) (item inst : Nat) : Bool :=
  match item with
  | 1 => inst ≤ 1 && (List.range 256).any (slotValid s (instPath inst))
  | 2 => inst ≤ 3 && portUsed s inst
  | 3 => inst ≤ 15 && portUsed s (inst / 4) && chainUsed s (inst % 4)
  | 4 => inst == 0 && (List.range 4).any (chainUsed s)
  | 5 => inst ≤ 3 && chainUsed s inst
  | 6 => inst ≤ 1 && hfPortUsed s inst
  | 7 => inst == 0
  | _ => false

/-- The path of an item for forced gaps (R167): 0 SYN-A, 1 SYN-B, 2 the HF driver. -/
def calPath (item inst : Nat) : Nat := if item = 1 then inst else if item ≤ 5 then 0 else 2

/-- The resources of a step (R562), without COEX. -/
def calSet (item inst : Nat) : Nat :=
  match item with
  | 1 => if inst = 0 then 2 else 4
  | 2 => 2
  | 3 => 2 + 2 ^ resRxc (inst % 4)
  | 4 => 2 + 0x78
  | 5 => 2 + 2 ^ resRxc inst
  | _ => 2 ^ resHfd

/-- The use of the air of a step (R149, R562). -/
def calAir (item : Nat) : AirUse := if item = 2 ∨ item = 3 then .calTx else if item ≤ 5 then .calRx else .hf

/-- The order in which due instances are requested (R99, R564). -/
def calOrder : List Nat := [5, 4, 1, 2, 3, 6]

/-- Known instances of an item. -/
def calInsts (s : State) (item : Nat) : List CalInst := s.cal.insts.filter fun x => x.item == item

/-- An instance has a step to run: one that radiates needs a channel in use within the profile (R562). -/
def calCan (s : State) (x : CalInst) : Bool :=
  match x.item with
  | 2 => !(portChannels s x.inst).isEmpty
  | 3 => !(portAnchors s (x.inst / 4)).isEmpty
  | _ => true

/-- The consumer of an instance's own steps. -/
def calWho (item inst : Nat) : Consumer := .calib (Fin.ofNat 8 item) (BitVec.ofNat 8 inst)

/-! ### Requests -/

/-- An overdue instance that waits for a forced gap on a path (R167), a Gorse baseline that failed at power-up with them (R99, R565). -/
def gapInst (s : State) (path : Nat) : Option CalInst :=
  ((calOrder ++ [7]).flatMap (calInsts s)).find? fun x => x.overdue && !x.staged && calCan s x && calPath x.item x.inst == path

/-- The scheduler posts a forced gap on a path with an overdue instance, GAPSEP after the last one began (R167). -/
def gapPost (s : State) (path : Nat) : State :=
  match gapInst s path with
  | none => s
  | some x =>
    let apart := match s.sched.gapAt.find? fun g => g.1 == path with
      | some g => decide (g.2 + ms (fld s Fld.SYS_C3CFG_GAPSEP) ≤ s.clk.now)
      | none => true
    if apart && mayPost s (.forcedGap path) then
      (postRequest { s with sched := { s.sched with
          gapFor := s.sched.gapFor.filter (fun g => g.1 != path) ++ [(path, x.item, x.inst)] } }
        { who := .forcedGap path, cls := .c1, mask := calSet x.item x.inst, kind := .forcedGap, air := calAir x.item }).1
    else s

/-- Steps of due instances are requested in the order of R99, as class C3 (R562, R564); overdue ones have their forced gaps. -/
def calPost (s : State) : State :=
  if flag s Fld.SYS_BOOTSTAT_DONE && 3 ≤ mode s then
    let s1 := (calOrder.flatMap (calInsts s)).foldl (fun t x =>
      if x.due && !x.overdue && !x.staged && !x.running && calCan t x then
        (postRequest t { who := calWho x.item x.inst, cls := .c3, mask := calSet x.item x.inst, kind := .calStep,
                         air := calAir x.item }).1
      else t) s
    [0, 1, 2].foldl gapPost s1
  else s

/-! ### Due and overdue -/

/-- An instance becomes due; a slot of item 0x01 alone may be due (R564). -/
def calMark (s : State) (item inst : Nat) (slots : List Nat) : State :=
  let x := calInst s item inst
  if x.due then
    if x.slots.isEmpty || slots.isEmpty then setCalInst s { x with slots := [] }
    else setCalInst s { x with slots := (x.slots ++ slots).dedup }
  else setCalInst s { x with due := true, dueAt := s.clk.now, slots := slots }

/-- A trigger makes an instance in use due, unless AUTO is 0 (R564). -/
def calTrigger (s : State) (item inst : Nat) (slots : List Nat) : State :=
  if flag s Fld.CAL_CFG_AUTO && calInUse s item inst then calMark s item inst slots else s

/-- An instance enters overdue: CAL_OVERDUE is raised and forced gaps are posted (R565). -/
def calOverdue (s : State) (item inst : Nat) : State :=
  let x := calInst s item inst
  if x.overdue then s
  else
    let s1 := calMark s item inst x.slots
    let s2 := raise (setCalInst s1 { calInst s1 item inst with overdue := true }) 55
    calPost (withdraw s2 (calWho item inst))

/-- The due and overdue bits of `CAL_DUE` (R575). -/
def calDueBits (s : State) : Word :=
  let bit (p : CalInst → Bool) (n : Nat) : Nat := if (calInsts s (n + 1)).any p then 2 ^ n else 0
  BitVec.ofNat 32 (((List.range 8).map (bit fun x => x.overdue)).sum * 2 ^ 16 + ((List.range 8).map (bit fun x => x.due)).sum)

/-! ### Abort -/

/-- Instances whose steps a grant runs. -/
def calRuns (who : Consumer) (x : CalInst) : Bool :=
  x.running && (match who with
    | .calib i n => x.item == i.val && x.inst == n.toNat
    | .forcedGap p => calPath x.item x.inst == p
    | _ => false)

/-- The chains that the steps running measure; a step on path A samples once that path is in CAL (R182, R221). -/
def calChains (s : State) : Nat :=
  if fld s Fld.RAD_STATE_ASTATE = 6 then
    (s.cal.insts.filter fun x => x.running && (x.item == 3 || x.item == 4 || x.item == 5)).foldl
      (fun m x => m ||| (calSet x.item x.inst / 8 % 16)) 0
  else 0

/-- The step a consumer's grant runs is aborted at its safe point: its measurements are discarded, the steps before it kept
(R193, R566). -/
def calStop (s : State) (who : Consumer) : State :=
  { s with cal := { s.cal with insts := s.cal.insts.map fun x => if calRuns who x then { x with running := false } else x } }

end Sys2Proof.Machine
end

