-- ==== Sys2Proof/Machine/Work.lean ====
section
/-! DEFINITION. The ends of engines' work and the state of the radio paths they leave (R39, R151, R181–R184, R258–R264,
R289, R290). -/

namespace Sys2Proof.Machine

open Sys2Proof

/-! ### Paths -/

def pathSt (s : State) : RfPath → PathSt
  | .a => s.radio.a
  | .b => s.radio.b

def setPathSt (s : State) (p : RfPath) (x : PathSt) : State :=
  match p with
  | .a => { s with radio := { s.radio with a := x } }
  | .b => { s with radio := { s.radio with b := x } }

def fPath : RfPath → Field
  | .a => Fld.RAD_STATE_ASTATE
  | .b => Fld.RAD_STATE_BSTATE
def fCarr : RfPath → Field
  | .a => Fld.RAD_STATE_ACARR
  | .b => Fld.RAD_STATE_BCARR
def fPort : RfPath → Field
  | .a => Fld.RAD_STATE_APORT
  | .b => Fld.RAD_STATE_BPORT
def fTxPort : RfPath → Field
  | .a => Fld.RAD_TXA_STAT_PORT
  | .b => Fld.RAD_TXB_STAT_PORT
def fTrim : RfPath → Field
  | .a => Fld.RAD_TXA_STAT_TRIM
  | .b => Fld.RAD_TXB_STAT_TRIM
def fIdx : RfPath → Field
  | .a => Fld.RAD_TXA_STAT_IDX
  | .b => Fld.RAD_TXB_STAT_IDX
def fSupp (k : Nat) : RfPath → Field
  | .a => Fld.RAD_RXC_STAT_SUPPA k
  | .b => Fld.RAD_RXC_STAT_SUPPB k

/-- The state of a path (R181). -/
def pathState (s : State) (p : RfPath) : Nat := fld s (fPath p)

/-- The receive chains that the holder of a path samples: those of its grant, and those that it shares with its partner's (R181). -/
def pathChains (s : State) (p : RfPath) : Nat :=
  s.sched.grants.foldl (fun m g => if g.mask.testBit (resPath p) then m ||| ((g.mask ||| g.shared) / 8 % 16) else m) 0

/-- CHON and ON follow the paths in RXON and READ, and the steps of calibration (R181, R221, R223). -/
def setChains (s : State) : State :=
  let on (p : RfPath) : Nat := if pathState s p = 3 ∨ pathState s p = 5 then pathChains s p else 0
  let m := on .a ||| on .b ||| calChains s
  let s1 := setFld (setFld s Fld.RAD_STATE_CHON m) Fld.RAD_STATE_CHRATE (fld s Fld.RAD_STATE_CHRATE &&& m)
  (List.range 4).foldl (fun t k =>
    if m.testBit k then setFlag t (Fld.RAD_RXC_STAT_ON k)
    else clrFld (clrFld t (Fld.RAD_RXC_STAT_ON k)) (Fld.RAD_RXC_STAT_RATE k)) s1

/-- The carrier of a path goes off: its channel's account stops, the suppression figures and residuals clear, and a trim of 16 or
more makes its port's power entries due (R213, R223, R283, R564). -/
def carrierOff (s : State) (p : RfPath) : State :=
  if flag s (fCarr p) then
    let s1 := accountOff (clrFld s (fCarr p)) (pathSt s p).chan
    let s2 := (List.range 4).foldl (fun t k => clrFld t (fSupp k p)) s1
    let s3 := setPathSt s2 p { pathSt s2 p with resid := Vector.replicate 4 127 }
    if 16 ≤ (signedOf 8 (fld s3 (fTrim p))).natAbs then calTrigger s3 2 (fld s3 (fTxPort p)) [] else s3
  else s

/-- A path goes to IDLE: end of work, release, boundary, or a forced end (R182, R184); OFF stays OFF. Its chains leave READ, and
with them the gain chosen (R209), unless the other path keeps them there. -/
def pathIdle (s : State) (p : RfPath) : State :=
  if pathState s p = 0 then s
  else
    let s1 := carrierOff s p
    let q := otherPath p
    let other := if pathState s1 q = 5 ∨ (pathState s1 q = 2 ∧ (pathSt s1 q).use_ = .read) then pathChains s1 q else 0
    let s2 := { s1 with radio := { s1.radio with gainHeld := s1.radio.gainHeld.filter fun k => other.testBit k } }
    setChains (setFld (setPathSt s2 p { pathSt s2 p with locked := false, held := none, slot := none, slotFailed := none })
      (fPath p) 1)

/-! ### Rounds -/

def roundOf (s : State) : RfPath → Option Round
  | .a => s.brm.a
  | .b => s.brm.b

def setRound (s : State) (p : RfPath) (r : Option Round) : State :=
  match p with
  | .a => { s with brm := { s.brm with a := r } }
  | .b => { s with brm := { s.brm with b := r } }

def fRun : RfPath → Field
  | .a => Fld.BRM_STAT_ARUN
  | .b => Fld.BRM_STAT_BRUN

/-- The entry a round runs, as it was in force at the grant. -/
def roundEntry (s : State) (r : Round) : Entry := (entryAt s r.entry).getD []

/-- Two tag words per word, the first in [31:16] (R289). -/
def pairWords : List (BitVec 16) → List Word
  | a :: b :: l => BitVec.ofNat 32 (a.toNat * 2 ^ 16 + b.toNat) :: pairWords l
  | [a] => [BitVec.ofNat 32 (a.toNat * 2 ^ 16)]
  | [] => []

/-- UAX packets are written for the round: REPORT bit 2, and always for an immediate access (R289). -/
def reportsUax (s : State) (r : Round) : Bool := r.immediate || (eReport (roundEntry s r)).testBit 2

/-- The ACCESS packet of a program's run (R289, R290): words of each step that has a result. -/
def accessWords (r : Round) (i : ReadInfo) (prog : Nat) : List Word :=
  let run := r.results
  let failed := run.findIdx? fun q => q.2.1 != 0
  let res := match failed with
    | some k => (run.getD k (0, 0, 0, [])).2.1
    | none => 0
  BitVec.ofNat 32 (1 * 2 ^ 28 + r.leaf * 2 ^ 22 + prog * 2 ^ 18 + (if r.immediate then 1 else 0) * 2 ^ 16 +
      (failed.getD 0xF) * 2 ^ 12 + run.length * 2 ^ 8 + res) ::
    q64Words i.q64 ++ [BitVec.ofNat 32 (i.pc.toNat * 2 ^ 16 + i.level * 2 ^ 8 + i.epc.length)] ++ pairWords i.epc ++
    run.flatMap fun q => BitVec.ofNat 32 (q.1 * 2 ^ 28 + q.2.1 * 2 ^ 24 + q.2.2.1 * 2 ^ 16 + q.2.2.2.length) :: q.2.2.2

/-- The OP of a program step (R272). -/
def stepOp (s : State) (prog n : Nat) : Nat := bitsOf (reg s (Adr.BRM_PG_OP (8 * prog + n))) 31 28

/-- Steps of a program up to its END (R272). -/
def programLength (s : State) (prog : Nat) : Nat :=
  ((List.range 8).find? fun n => stepOp s prog n == 0).getD 8

/-- The program of a tag is over: its ACCESS packet, UAX_RESULT, and the tag counts for an immediate access when every step
ended OK (R277, R289, R290). Steps that never ran are reported NOTRUN. -/
def programEnd (s : State) (p : RfPath) : State :=
  match roundOf s p with
  | none => s
  | some r =>
    match r.read, r.prog with
    | some i, some g =>
      let missing := (List.range (programLength s g)).drop r.results.length
      let r1 := { r with results := r.results ++ missing.map fun n => (stepOp s g n, 6, 0, []) }
      let ok := r1.results.all fun q => q.2.1 == 0
      let r2 := { r1 with tagsOk := if ok then r1.tagsOk + 1 else r1.tagsOk }
      let s1 := if reportsUax s r then raise (admitPacket s 2 (accessWords r1 i g)) 33 else s
      setRound s1 p (some { r2 with read := none, results := [], phase := .slot })
    | _, _ => setRound s p (some { r with read := none, results := [], phase := .slot })

/-- The ROUND packet (R289). -/
def roundWords (s : State) (p : RfPath) (r : Round) (reason : Nat) : List Word :=
  BitVec.ofNat 32 (2 * 2 ^ 28 + r.entry * 2 ^ 18 + (match p with | .a => 0 | .b => 1) * 2 ^ 16 +
      (if r.paired then 1 else 0) * 2 ^ 15 + (if r.immediate then 1 else 0) * 2 ^ 12 + reason * 2 ^ 8 +
      min 255 r.visits) ::
    q64Words (q64 s) ++
    [BitVec.ofNat 32 (min 0xFFFF r.reads * 2 ^ 16 + min 0xFFFF r.slots),
     BitVec.ofNat 32 (min 0xFFFF r.collisions * 2 ^ 16 + min 0xFFFF r.emptySlots),
     BitVec.ofNat 32 (min 0xFFFF r.captures * 2 ^ 16 + min 0xFF r.hops * 2 ^ 8)]

/-- A program under way is cut: the step in hand ends ABORTED (R264, R290). -/
def programAbort (s : State) (p : RfPath) : State :=
  match roundOf s p with
  | none => s
  | some r =>
    match r.phase, r.prog with
    | .step n _, some g =>
      programEnd (setRound s p (some { r with results := r.results ++ [(stepOp s g n, 5, 0, [])] })) p
    | .flint n _, some g =>
      programEnd (setRound s p (some { r with results := r.results ++ [(stepOp s g n, 5, 0, [])] })) p
    | _, _ => s

/-- The immediate access ends with its round (R277, R294): a round that ends COMPLETE gives DONE or FEWER, and any other end
reason ABORTED (DESIGN CHOICE, log entry 39); TAGS is written here only, not while the access runs (DESIGN CHOICE, log entry 39). One that
loses `CXGNT` stays BUSY: its request is posted again (R170). -/
def immEnd (s : State) (r : Round) (reason : Nat) : State :=
  if r.immediate ∧ reason ≠ 3 then immOver s (if reason = 0 then (if r.maxTags ≤ r.tagsOk then 1 else 4) else 3) r.tagsOk else s

/-- A round ends with a reason (R258, R264, R287, R290): the program in hand is cut, the ROUND packet is written, the path
ramps down, the accounts and counters follow. Its grant ends by RELEASE. -/
def roundEnd (s0 : State) (p : RfPath) (reason : Nat) : State :=
  let s := programAbort s0 p
  match roundOf s p with
  | none => s
  | some r =>
    let e := roundEntry s r
    let s1 := if reportsUax s r then admitPacket s 2 (roundWords s p r reason) else s
    let s2 := incSat (raise s1 32) Fld.BRM_CNT3_ROUNDS 1
    let s3 := setFld (setFld (clrFld s2 (fRun p)) Fld.BRM_STAT_LASTENTRY r.entry) Fld.BRM_STAT_LASTEND reason
    let place := (eChans e).findIdx fun c => c == r.chan
    let s4 := setRound { s3 with brm := { s3.brm with
        endedAt := some s3.clk.now
        lastChan := if place < (eChans e).length then
          s3.brm.lastChan.filter (fun q => q.1 != r.entry) ++ [(r.entry, place)] else s3.brm.lastChan
        altB := if eBits e 55 1 1 = 1 ∧ ¬r.immediate then
          s3.brm.altB.filter (fun q => q.1 != r.entry) ++ [(r.entry, !r.targetB)] else s3.brm.altB
        holds := if reason = 4 then s3.brm.holds ++ [r.entry] else s3.brm.holds } } p none
    let s5 := if reason = 4 then incSat (raise s4 34) Fld.BRM_CNT2_DWELLHOLD 1 else s4
    immEnd (pathIdle s5 p) r reason

/-- Both rounds of a pair end for one cause; a single round ends alone (R280). -/
def roundsEnd (s : State) (p : RfPath) (reason : Nat) : State :=
  match roundOf s p with
  | none => s
  | some r =>
    let s1 := roundEnd s p reason
    if r.paired then roundEnd s1 (otherPath p) reason else s1

end Sys2Proof.Machine
end

