-- ==== Sys2Proof/Machine/LinkCore.lean ====
section
/-! DEFINITION. The node link below its rows: modes and times on air, frames and their CCM* protection, the queue's attempts,
and the ends of receptions and slots (R377–R397, R403–R410, R418–R420). -/

namespace Sys2Proof.Machine

open Sys2Proof

/-! ### Modes and times on air -/

/-- The mode code of a link entry (R377, R239). -/
def lnkMode (e : Entry) : Nat :=
  match eClass e with
  | 6 => eBits e 48 2 0
  | 7 => 6 + eBits e 48 1 0
  | _ => 10 + eBits e 48 1 0

/-- The MCS an OFDM entry transmits with (R378). -/
def lnkMcs (e : Entry) : Nat := eBits e 48 6 4

/-- The option and MCS pairs the device carries (R379): option 0 to 3. -/
def mcsMarked (option mcs : Nat) : Bool :=
  match option with
  | 0 => mcs ≤ 3
  | 1 => mcs ≤ 5
  | 2 => 1 ≤ mcs && mcs ≤ 6
  | _ => 2 ≤ mcs && mcs ≤ 6

/-- The rate of a mode in units of 10 kb/s (R377); OFDM's depends on the MCS. -/
def lnkRate (m : Nat) : Nat := [5, 10, 15, 20, 20, 40, 1, 1, 1, 1, 2, 4, 10, 25].getD m 1

/-- The channel width of a mode in kHz (R377). -/
def lnkWidth (m : Nat) : Nat := [200, 400, 400, 400, 400, 600, 1200, 800, 400, 200, 600, 1200, 600, 2000].getD m 200

/-- The largest PSDU of a mode (R381). -/
def psduMax (m : Nat) : Nat := if m ≤ 9 then 2047 else 127

/-- Octets of the FCS on transmit (R381). -/
def fcsLen (s : State) (m : Nat) : Nat := if 10 ≤ m || flag s Fld.LNK_PHYCFG_FCS2 then 2 else 4

/-- Octets at a mode's rate in µs, rounded up. -/
def octetsUs (m n : Nat) : Nat := (n * 800 + lnkRate m - 1) / lnkRate m

/-- Time on air in µs of a PSDU of so many octets, FCS included (R381; log entry 17). -/
def airtime (s : State) (e : Entry) (psdu : Nat) : Nat :=
  let m := lnkMode e
  if m ≤ 5 then octetsUs m (fld s Fld.LNK_PHYCFG_PREAMBLE + 4 + psdu)
  else if m ≤ 9 then Config.ofdmAirtime (m - 6) (lnkMcs e) psdu
  else octetsUs m (6 + psdu)

/-- From the first preamble symbol to the stamp point, in ns (R381, R395). -/
def syncNs (s : State) (e : Entry) : Nat :=
  let m := lnkMode e
  if m ≤ 5 then (fld s Fld.LNK_PHYCFG_PREAMBLE + 2) * 800000 / lnkRate m
  else if m ≤ 9 then 1000 * Config.ofdmSync (m - 6)
  else 5 * 800000 / lnkRate m

/-- ns in Q64 units, and in cycles of CLK100. -/
def q64Ns (n : Nat) : Nat := n * 2 ^ 30 / 1000000000
def clkNs (n : Nat) : Nat := n / 10

/-- A number of µs in Q64 units. -/
def q64Us (n : Nat) : Nat := n * 2 ^ 30 / 1000000

/-! ### The FCS, whitening and frames on the air -/

/-- One bit, and one octet, of the two-octet FCS, least significant bit first (R381; log entry 15). -/
def fcsBit (crc : Nat) : Nat := if crc.testBit 0 then (crc >>> 1) ^^^ 0x8408 else crc >>> 1
def fcsOctet (crc : Nat) (b : Byte) : Nat := Nat.repeat fcsBit 8 (crc ^^^ b.toNat)

/-- The FCS of so many octets (R381; log entry 15): the four-octet FCS counts a short frame as filled to four octets. -/
def fcsOf (n : Nat) (bs : List Byte) : List Byte :=
  if n = 2 then leBytes 2 (bs.foldl fcsOctet 0) else leBytes 4 (crc32 (bs ++ List.replicate (4 - bs.length) 0))

/-- The PN9 sequence bit by bit from a register of nine bits, the newest bit first (R382; log entry 15). -/
def pn9 : Nat → Nat → List Bool
  | 0, _ => []
  | n + 1, r =>
    let b := r.testBit 3 != r.testBit 8
    b :: pn9 n (2 * r % 512 + (if b then 1 else 0))

/-- An octet from its bits, least significant first. -/
def octetOf (l : List Bool) : Byte := BitVec.ofNat 8 (l.foldr (fun b n => 2 * n + (if b then 1 else 0)) 0)

/-- Octets one by one with the next eight bits of a sequence. -/
def whitenWith : List Bool → List Byte → List Byte
  | _, [] => []
  | l, b :: bs => (b ^^^ octetOf (l.take 8)) :: whitenWith (l.drop 8) bs

/-- A PSDU whitened with PN9, or freed of it (R382). -/
def whiten (bs : List Byte) : List Byte := whitenWith (pn9 (8 * bs.length) 511) bs

/-- A frame in a mode as it goes on the air, its first preamble symbol so many ns from now (R378, R381, R382, R395). -/
def lnkAir (s : State) (e : Entry) (octets : List Byte) (leadNs : Nat) : LnkAir :=
  let m := lnkMode e
  let n := fcsLen s m
  let psdu := octets ++ fcsOf n octets
  let white := m ≤ 5 && flag s Fld.LNK_PHYCFG_WHITEN
  { octets := octets
    preamble := if m ≤ 5 then fld s Fld.LNK_PHYCFG_PREAMBLE else if m ≤ 9 then 0 else 4
    sfd := if m ≤ 5 then fld s Fld.LNK_PHYCFG_SFDSEL else if m ≤ 9 then 0 else 0xA7
    phr := { modeSwitch := false, fcs2 := n == 2, whiten := white, len := Fin.ofNat 2048 psdu.length
             mcs := Fin.ofNat 8 (lnkMcs e), checkOk := true }
    seed := if 6 ≤ m ∧ m ≤ 9 then fld s Fld.LNK_PHYCFG_SEED else 0
    psdu := if white then whiten psdu else psdu
    stamp := q64 s + q64Ns (leadNs + syncNs s e) }

/-- Octets of the FCS of a received frame (R381, R382). -/
def rxFcsLen (s : State) (m : Nat) (p : LinkPhr) : Nat := if m ≤ 5 then (if p.fcs2 then 2 else 4) else fcsLen s m

/-- The octets of a received PSDU before its FCS: freed of the whitening that the PHR announces, as long as it says, and with a good
FCS (R381, R382). -/
def rxOctets (s : State) (m : Nat) (p : LinkPhr) (air : List Byte) : Option (List Byte) :=
  let n := rxFcsLen s m p
  let o := if m ≤ 5 && p.whiten then whiten air else air
  let body := o.take (o.length - n)
  if o.length = p.len ∧ n ≤ o.length ∧ o.drop (o.length - n) = fcsOf n body then some body else none

/-- Octets of the MIC by security level (R404). -/
def micLen (level : Nat) : Nat := match level % 4 with | 1 => 4 | 2 => 8 | 3 => 16 | _ => 0

/-! ### CCM* -/

/-- The nonce: EUI-64, frame counter, level (R404; log entry 15). -/
def ccmNonce (eui fc level : Nat) : List Byte := beBytes 8 eui ++ beBytes 4 fc ++ [BitVec.ofNat 8 level]

/-- Bytes filled with zeros to whole blocks. -/
def ccmPad (bs : List Byte) : List Byte := bs ++ List.replicate ((16 - bs.length % 16) % 16) 0

def xorB (a b : List Byte) : List Byte := List.zipWith (fun x y => x ^^^ y) a b

/-- CBC-MAC over whole blocks; the number bounds them. -/
def cbcMac (key : List Byte) : Nat → List Byte → List Byte → List Byte
  | 0, x, _ => x
  | n + 1, x, bs => if bs.isEmpty then x else cbcMac key n (aes128 key (xorB x (bs.take 16))) (bs.drop 16)

/-- The key stream block of a number. -/
def ccmStream (key nonce : List Byte) (i : Nat) : List Byte := aes128 key (1 :: nonce ++ beBytes 2 i)

/-- A message ciphered with blocks 1 onwards. -/
def ccmCrypt (key nonce : List Byte) (bs : List Byte) : List Byte :=
  xorB bs ((List.range ((bs.length + 15) / 16)).flatMap fun i => ccmStream key nonce (i + 1))

/-- The MIC of authenticated octets and a plain message, as sent (R404; log entry 15). -/
def ccmMic (key nonce : List Byte) (mic : Nat) (a m : List Byte) : List Byte :=
  let b0 := BitVec.ofNat 8 (64 + 8 * ((mic - 2) / 2) + 1) :: nonce ++ beBytes 2 m.length
  let bs := b0 ++ ccmPad (beBytes 2 a.length ++ a) ++ ccmPad m
  (xorB (cbcMac key (bs.length / 16 + 1) (List.replicate 16 0) bs) (ccmStream key nonce 0)).take mic

/-- A frame secured (R404): levels 5 to 7 cipher the payload, levels 1 to 3 only authenticate it. -/
def ccmSecure (key : List Byte) (eui fc level : Nat) (head body : List Byte) : List Byte :=
  let n := ccmNonce eui fc level
  let k := micLen level
  if 5 ≤ level then head ++ ccmCrypt key n body ++ ccmMic key n k head body
  else head ++ body ++ ccmMic key n k (head ++ body) []

/-- The payload of a received frame and its MIC, when it authenticates. -/
def ccmOpen (key : List Byte) (eui fc level : Nat) (head rest : List Byte) : Option (List Byte × List Byte) :=
  let n := ccmNonce eui fc level
  let k := micLen level
  let body := rest.take (rest.length - k)
  let mic := rest.drop (rest.length - k)
  if rest.length < k then none
  else
    let plain := if 5 ≤ level then ccmCrypt key n body else body
    let want := if 5 ≤ level then ccmMic key n k head plain else ccmMic key n k (head ++ plain) []
    if want = mic then some (plain, mic) else none

/-! ### Frames sent -/

/-- The auxiliary security header (R404). -/
def auxHeader (s : State) (level fc : Nat) : List Byte :=
  BitVec.ofNat 8 (level + 8) :: leBytes 4 fc ++ [BitVec.ofNat 8 (fld s Fld.LNK_MACCFG_KEYSLOT + 1)]

/-- The transmit key (R404); an empty slot, which no commit accepts, counts as zeros. -/
def txKey (s : State) : List Byte := (keyOf s 1 (fld s Fld.LNK_MACCFG_KEYSLOT)).getD (List.replicate 16 0)

/-- The head of a data frame (R403). -/
def dataHead (s : State) (f : LnkTx) (fc : Nat) : List Byte :=
  leBytes 2 (1 + 8 + (if f.ar then 32 else 0) + 64 + 2 * 2 ^ 10 + 2 * 2 ^ 12 + 3 * 2 ^ 14) ++ [BitVec.ofNat 8 f.seq] ++
    leBytes 2 (fld s Fld.LNK_ID_PAN) ++ leBytes 2 f.dest ++ leBytes 8 dieUid ++ auxHeader s (fld s Fld.LNK_MACCFG_LEVEL) fc

/-- A data frame up to its MIC (R403, R404). -/
def dataFrame (s : State) (f : LnkTx) (fc : Nat) : List Byte :=
  ccmSecure (txKey s) dieUid fc (fld s Fld.LNK_MACCFG_LEVEL) (dataHead s f fc) f.payload

/-- PSDU octets of a data frame with its FCS (R403). -/
def dataPsdu (s : State) (m payload : Nat) : Nat := 21 + payload + micLen (fld s Fld.LNK_MACCFG_LEVEL) + fcsLen s m

/-- The largest data payload in a mode (R403). -/
def payloadMax (s : State) (m : Nat) : Nat := psduMax m - 21 - micLen (fld s Fld.LNK_MACCFG_LEVEL) - fcsLen s m

/-- PSDU octets of a beacon with its FCS (R403). -/
def beaconPsdu (s : State) (m : Nat) : Nat := 48 + micLen (fld s Fld.LNK_MACCFG_BLEVEL) + fcsLen s m

/-- The pair a beacon carries: the pair in force, or the one retired while converging (R436, R438). -/
def beaconPair (s : State) : Nat × Nat :=
  s.lnk.oldPair.getD (fld s Fld.LNK_EPOCH_EPOCH, fld s Fld.LNK_ORIGIN_ORIGIN)

/-- The Ranelo IE of a beacon (R428). -/
def raneloIe (s : State) (time : Nat) : List Byte :=
  let p := beaconPair s
  let conv : Nat := if flag s Fld.LNK_ORIGIN_CONV || s.lnk.oldPair.isSome then 2 else 0
  leBytes 3 (fld s Fld.LNK_IEVID_VID) ++ [1, 1] ++ leBytes 4 p.1 ++ leBytes 2 p.2 ++ leBytes 2 (fld s Fld.LNK_ID_NODE) ++
    leBytes 8 time ++ leBytes 2 (fld s Fld.LNK_BCN_BI) ++
    [BitVec.ofNat 8 (fld s Fld.LNK_ORIGIN_HOPS), BitVec.ofNat 8 (fld s Fld.LNK_ORIGIN_HOLD + conv)]

/-- A beacon up to its MIC (R403, R404, R428). -/
def beaconFrame (s : State) (fc time : Nat) : List Byte :=
  let level := fld s Fld.LNK_MACCFG_BLEVEL
  let head := leBytes 2 (0 + 8 + 2 ^ 9 + 2 * 2 ^ 12 + 3 * 2 ^ 14) ++ [BitVec.ofNat 8 s.lnk.bseq] ++
    leBytes 2 (fld s Fld.LNK_ID_PAN) ++ leBytes 8 dieUid ++ auxHeader s level fc ++ [0x00, 0x3F]
  ccmSecure (txKey s) dieUid fc level head (leBytes 2 (25 + 2 * 2 ^ 11 + 2 ^ 15) ++ raneloIe s time)

/-- An Imm-Ack before its FCS (R403). -/
def ackFrame (seq : Nat) : List Byte := leBytes 2 (2 + 2 ^ 12) ++ [BitVec.ofNat 8 seq]

/-- Time on air of an Imm-Ack in µs. -/
def ackUs (s : State) (e : Entry) : Nat := airtime s e (3 + fcsLen s (lnkMode e))

/-! ### Frame counters -/

/-- The next counter is used up to by this much (R407). -/
def setNext (s : State) (v : Nat) : State := setFld { s with lnk := { s.lnk with next := v } } Fld.LNK_FCNT_FC v

/-- The next counter lies below the bound of the newest programmed checkpoint (R416). -/
def counterCovered (s : State) : Bool := s.lnk.next < s.lnk.ckptV + 4096

/-- A checkpoint is asked for where the next counter has reached that bound (R416). -/
def counterAsk (s : State) : State := if counterCovered s then s else ckptAsk s

/-- Why the next counter cannot be had even after a wait (R418): what withholds transmission, or a checkpoint that is wanted and cannot be
programmed. -/
def counterBarred (s : State) : Option Nat :=
  match withheldNow s with
  | some w => some w
  | none => if counterCovered s || s.jnl.fcDue then none else some 2

/-- Take the next frame counter (R407, R416). The state of R418 begins as soon as the counter after it would exceed 32 bits; no frame is
sent from then on. -/
def takeCounter (s : State) : Option Nat × State :=
  if (withheldNow s).isSome || !counterCovered s then (none, s)
  else
    let t := setNext s (s.lnk.next + 1)
    match withheldNow t with
    | some w => (none, withhold t w)
    | none => (some s.lnk.next, t)

/-! ### Duty budgets -/

/-- The enabled sub-band of a channel (R419). -/
def sbOf (s : State) (c : Nat) : Option Nat :=
  firstBelow 8 fun j => flag s (Fld.LNK_SB_DUTY_EN j) && fld s (Fld.LNK_SB_RANGE_LOW j) ≤ c && c < fld s (Fld.LNK_SB_RANGE_HIGH j)

/-- The budget of a sub-band in ms (R420). -/
def sbBudget (s : State) (j : Nat) : Nat := fld s (Fld.LNK_SB_DUTY_DUTY j) * 360

/-- Airtime in µs to whole ms, rounded up (R420). -/
def msUp (n : Nat) : Nat := (n + 999) / 1000

/-- A transmission fits its sub-band's budget (R419, R420). -/
def sbFits (s : State) (c airUs : Nat) : Bool :=
  match sbOf s c with
  | none => false
  | some j => !sbLimited s j || sbAccount s j + msUp airUs ≤ sbBudget s j

/-- A transmission is charged to its sub-band (R419, R420). -/
def sbCharge (s : State) (c airUs : Nat) : State :=
  match sbOf s c with
  | none => s
  | some j =>
    let b := match sbBins s j with
      | [] => [msUp airUs]
      | x :: xs => (x + msUp airUs) :: xs
    { s with lnk := { s.lnk with bins := s.lnk.bins.setIfInBounds j b } }

/-! ### The engine's slot -/

def setAct (s : State) (a : LnkAct) : State := { s with lnk := { s.lnk with act := a } }

/-- A new step: nothing sent yet. -/
def lnkQuiet (s : State) : State := { s with lnk := { s.lnk with sent := [] } }

/-- The entry of the slot in hand. -/
def slotEntry (s : State) (x : LnkSlot) : Entry := (entryAt s x.entry).getD []

/-- The consumers of link slots. -/
def isLinkWho : Consumer → Bool
  | .linkSlot _ => true
  | .linkData => true
  | _ => false

/-- The grant of the slot in hand. -/
def lnkGrant (s : State) : Option Grant := s.sched.grants.find? fun g => isLinkWho g.who && !g.topUp

/-- The slot's end in CLK100 time. -/
def slotUntil (s : State) : Nat := (lnkGrant s).elim s.clk.now fun g => g.until_

/-- A packet of the link's events, journalled as well (R440). -/
def lst (s : State) (ws : List Word) : State := emitBoth s 6 0x04 ws

/-- A SLOT packet (R440). -/
def slotPacket (s : State) (x : LnkSlot) (cause freeAt : Nat) : State :=
  let kind := match x.kind with | .btx => 0 | .brx => 1 | .rdv => 2 | .data => 3
  lst s (BitVec.ofNat 32 (4 * 2 ^ 28 + kind * 2 ^ 26 + cause * 2 ^ 23 + x.entry * 2 ^ 13) :: q64Words freeAt)

/-- The frame at the head of the queue ends with a result (R409, R440). -/
def headEnds (s : State) (result : Nat) : State :=
  match s.lnk.queue with
  | [] => s
  | f :: q =>
    let s1 := txPacket { s with lnk := { s.lnk with queue := q } } f result
    if result ≤ 1 then incSat s1 Fld.LNK_MACCNT0_TXOK 1 else if result = 2 then incSat s1 Fld.LNK_MACCNT0_NOACK 1 else s1

/-- Replace the frame at the head of the queue. -/
def setHead (s : State) (f : LnkTx) : State := { s with lnk := { s.lnk with queue := f :: s.lnk.queue.drop 1 } }

/-- The frame may be sent in a slot of this kind (R423). -/
def eligible (f : LnkTx) : SlotKind → Bool
  | .rdv => true
  | .data => f.anytime
  | _ => false

/-- Its life is over (R409). -/
def expired (s : State) (f : LnkTx) : Bool := f.life != 0 && f.queuedAt + ms (1000 * f.life) ≤ s.clk.now

/-- The turnaround of R183 in µs. -/
def turnUs : Nat := 10

/-- What an attempt needs in µs: listen, turnaround, frame, and with AR the wait for the Imm-Ack (R408, R409). -/
def attemptUs (s : State) (e : Entry) (f : LnkTx) : Nat :=
  let m := lnkMode e
  1000 * fld s Fld.LNK_CCA_LISTEN + turnUs + airtime s e (dataPsdu s m f.payload.length) +
    (if f.ar then fld s Fld.LNK_MACCFG_ACKDLY + 200 + ackUs s e else 0)

/-- The RX_ABORTED or other status ends a reception: status, counters, the freeze released, and the error report where RXERR
asks for one (R394, R400, R411, R439). A good frame goes on to the MAC. Where no frame is in hand yet, the preamble being acquired is
given up, one that has taken the receiver with it (R392, R393). -/
def rxEnd (s : State) (status : Nat) : State :=
  match s.lnk.rx, s.lnk.slot with
  | some r, some x =>
    let m := lnkMode (slotEntry s x)
    let w := BitVec.ofNat 32 (status * 2 ^ 28 + m * 2 ^ 24 + r.level * 2 ^ 16 + r.snr * 2 ^ 8 +
      (if r.preemptor then 128 else 0) + min 127 r.erased)
    let s1 := setReg { s with lnk := { s.lnk with rx := none } } Adr.LNK_PHYSTAT w
    let s2 := match status with
      | 1 => incSat s1 Fld.LNK_PHYCNT0_FCSERR 1
      | 2 => incSat s1 Fld.LNK_PHYCNT1_PHRERR 1
      | 7 => incSat s1 Fld.LNK_PHYCNT1_PHRERR 1
      | 3 => incSat s1 Fld.LNK_PHYCNT1_PREEMPT 1
      | 4 => incSat s1 Fld.LNK_PHYCNT2_ERASE 1
      | 5 => incSat s1 Fld.LNK_PHYCNT2_ABORT 1
      | 6 => incSat s1 Fld.LNK_PHYCNT2_ABORT 1
      | _ => s1
    let s3 := (bitList 4 (rpRxMask s2 x.rp)).foldl (fun t k => clrFld t (Fld.RAD_RXC_STAT_FROZEN k)) s2
    if status ≠ 0 ∧ flag s3 Fld.LNK_MACCFG_RXERR then
      admitPacket s3 5 (BitVec.ofNat 32 (1 * 2 ^ 28 + (status + 8) * 2 ^ 24 + m * 2 ^ 20 + r.level * 2 ^ 12 +
        (if r.preemptor then 2 ^ 11 else 0)) :: q64Words r.stamp ++ [BitVec.ofNat 32 (0xFF * 2 ^ 24 + r.snr * 2 ^ 16), 0, 0, 0])
    else s3
  | _, _ => { s with lnk := { s.lnk with preempting := false } }

/-- The consumer of the slot in hand. -/
def lnkWho (s : State) : Consumer := (lnkGrant s).elim .linkData fun g => g.who

/-- A frame is secured once, at the start of its first listen (R407). -/
def secureHead (s : State) (f : LnkTx) : Option LnkTx × State :=
  match f.secured with
  | some _ => (some f, s)
  | none =>
    let q := takeCounter s
    match q.1 with
    | some fc => (some { f with secured := some (fc, dataFrame q.2 f fc) }, q.2)
    | none => (none, q.2)

/-- Flint for the CCM* of a frame, a top-up of the slot's grant (R154, R405); a frame already secured needs none. -/
def secureFlint (s : State) (f : LnkTx) : Option State := if f.secured.isSome then some s else flintTake s (lnkWho s)

/-- The head frame is secured, and its first listen takes the receiver (R407, R423). -/
def listenHead (s : State) (f : LnkTx) : State :=
  let q := secureHead s f
  match q.1 with
  | some g =>
    let s2 := rxEnd (setHead q.2 { g with attempts := g.attempts + 1 }) 5
    setAct s2 (.listen (fld s2 Fld.LNK_CCA_BEMIN) 0 false)
  | none => setAct (withhold q.2 ((withheldNow q.2).getD 2)) .idle

/-- The head frame has its counter, or one may be had at once or after a checkpoint (R416, R418): `none` where it is withheld. -/
def headCounter (s : State) (f : LnkTx) : State × Option Nat :=
  let t := if f.secured.isSome then s else counterAsk s
  (t, if f.secured.isSome then withheldNow t else counterBarred t)

/-- The head frame's first listen begins once its counter is covered and Flint has been had; until then it waits (R405, R407, R416). -/
def secureOrWait (s : State) (f : LnkTx) : State :=
  if f.secured.isNone && !counterCovered s then setAct s .securing
  else
    match secureFlint s f with
    | some t => listenHead t f
    | none => setAct (flintWait s (lnkWho s)) .securing

/-- Start a listen for the frame at the head, passing those that end before it: expired, withheld, over budget (R407–R409,
R418, R420, R423). The number bounds the frames passed. -/
def sendNext : Nat → State → State
  | 0, s => setAct s .idle
  | n + 1, s =>
    match s.lnk.slot, s.lnk.queue with
    | some x, f :: _ =>
      let e := slotEntry s x
      if !eligible f x.kind then setAct s .idle
      else if expired s f then sendNext n (headEnds s 6)
      else
        match withheldNow s with
        | some w => setAct (withhold s w) .idle
        | none =>
          if slotUntil s < s.clk.now + us (attemptUs s e f) then setAct s .idle
          else if !sbFits s x.chan (airtime s e (dataPsdu s (lnkMode e) f.payload.length)) then
            sendNext n (headEnds (incSat (raise s 46) Fld.LNK_MACCNT4_BUDGET 1) 4)
          else
            let q := headCounter s f
            match q.2 with
            | some w => setAct (withhold q.1 w) .idle
            | none => secureOrWait q.1 f
    | _, _ => setAct s .idle

/-- A step of the queue's work. -/
def sendHead (s : State) : State := sendNext 16 s

/-- A head frame that waits, without a top-up of its own, goes on: its checkpoint has been programmed, or another frame has used its turn
on Flint (R405, R416). -/
def securingGo (s : State) : State :=
  if s.lnk.act = .securing ∧ (topUpRequest s (lnkWho s)).isNone ∧ (topUpGrant s (lnkWho s)).isNone then sendHead s else s

/-- The attempt in hand has failed (R409): a retry, or NOACK after the last. -/
def attemptFails (s : State) : State :=
  match s.lnk.queue with
  | f :: _ => if f.attempts ≤ fld s Fld.LNK_MACCFG_MAXRETRY then setAct s .retry else setAct (headEnds s 2) .idle
  | [] => setAct s .idle

/-- An attempt that never went on the air does not count (R408). -/
def attemptBack (s : State) : State :=
  match s.lnk.queue with
  | f :: _ => setHead s { f with attempts := f.attempts - 1 }
  | [] => s

/-- The slot ends (R394, R409): a frame in reception ends RX_ABORTED, an attempt cut by a forced end has failed, any other
waits for the next slot; path B goes to IDLE. -/
def linkCut (s : State) (forced : Bool) : State :=
  match s.lnk.slot with
  | none => s
  | some _ =>
    let s1 := rxEnd s 5
    let s2 := match s1.lnk.act with
      | .listen .. => if forced then attemptFails s1 else attemptBack s1
      | .backoff .. => if forced then attemptFails s1 else attemptBack s1
      | .tx => attemptFails s1
      | .ackWait => attemptFails s1
      | _ => s1
    pathIdle { s2 with lnk := { s2.lnk with act := .idle, slot := none, owed := none, acking := false,
                                            preempting := false, opening := [], beaconFc := none } } .b

end Sys2Proof.Machine
end

