-- ==== Sys2Proof/Machine/Radio.lean ====
section
/-! DEFINITION. The UHF front end: path states, tunes and locks, the carrier's rise, power, gain and cancellation
(R180–R226). -/

namespace Sys2Proof.Machine

open Sys2Proof

/-! ### The engine on a path -/

/-- The grant that holds a path. -/
def pathGrant (s : State) (p : RfPath) : Option Grant := s.sched.grants.find? fun g => g.mask.testBit (resPath p)

/-- The engine may use the path: a grant holds it, or it is the link window sequencer's in WATCH (R23, R63). -/
def pathMay (s : State) (p : RfPath) : Bool := (pathGrant s p).isSome || (mode s == 2 && s.modes.window && p == .b)

/-- An access outside a grant is refused and counted (R23). -/
def violation (s : State) : State := incSat s Fld.SYS_SCHCNT2_VIOL 1

/-- The work on a path ends by abort, with the reason of R290 where it is a round; the path is IDLE (R151, R182, R184). An event of
R184 (reason 9) acts on both rounds of a pair, the others on the path's own (R280). -/
def pathAbort (s : State) (p : RfPath) (reason : Nat) : State :=
  match pathGrant s p with
  | none => pathIdle s p
  | some g =>
    match g.who with
    | .linkSlot _ => pathIdle (linkCut s true) p
    | .linkData => pathIdle (linkCut s true) p
    | .calib _ _ => pathIdle (calStop s g.who) p
    | .forcedGap _ => pathIdle (calStop s g.who) p
    | _ => pathIdle (if reason = 9 then roundsEnd s p reason else roundEnd s p reason) p

/-- A command that meets a calibration step aborts it (R193, R566). -/
def calAbort (s : State) (p : RfPath) : State :=
  match s.sched.grants.find? fun g => g.mask.testBit (resPath p) && (match g.who with
    | .calib _ _ => true
    | .forcedGap _ => true
    | _ => false) with
  | some g => incSat (setFlag (calStop s g.who) Fld.RAD_STAT_CALABORT) Fld.RAD_CNT1_CALABORT 1
  | none => incSat (setFlag s Fld.RAD_STAT_CALABORT) Fld.RAD_CNT1_CALABORT 1

/-! ### Ports and switches -/

/-- The port a path uses. -/
def pathPort (s : State) (p : RfPath) : Nat := fld s (fPort p)

/-- A grant's visit or slot assigns a read point to its port (R196). -/
def assignRp (s : State) (p : RfPath) (rp : Nat) : State :=
  let port := rpPort s rp
  let s1 := { s with radio := { s.radio with assigned := s.radio.assigned.setIfInBounds port (some rp) } }
  setFld (setPathSt s1 p { pathSt s1 p with readPoint := some rp }) (fPort p) port

/-- `RAD_SWSTAT`: each port's switch path, or SWIDLE with no read point assigned (R196, R222); all low in reset (R184). -/
def radSwstat (s : State) : Word :=
  BitVec.ofNat 32 (((List.range 4).map fun n =>
    (match s.radio.assigned[n]?.getD none with
      | some rp => rpPath s rp
      | none => fld s (Fld.RAD_PORT_CFG_SWIDLE n)) * 2 ^ (4 * n)).sum)

/-- The external PA declared on a port (R203). -/
def paOf (s : State) (port : Nat) : Option Nat :=
  if flag s Fld.RAD_PA_PA0EN && fld s Fld.RAD_PA_PA0PORT == port then some 0
  else if flag s Fld.RAD_PA_PA1EN && fld s Fld.RAD_PA_PA1PORT == port then some 1
  else none

/-- `UPAENk` rises for a carrier on its port (R203). -/
def paRaise (s : State) (port : Nat) : State :=
  match paOf s port with
  | some k => { s with radio := { s.radio with paOn := s.radio.paOn.setIfInBounds k true } }
  | none => s

/-- `UPAENk` falls (R203). -/
def paLower (s : State) (k : Nat) : State := { s with radio := { s.radio with paOn := s.radio.paOn.setIfInBounds k false } }

/-! ### Cancellation vectors -/

/-- The table entry of a port, chain and anchor (R211). -/
def cxvIndex (t k a : Nat) : Nat := 64 * t + 16 * k + a

/-- The anchors used: enabled, with a valid entry (R212), as channel, I and Q. -/
def usedAnchors (s : State) (t k : Nat) : List (Nat × Int × Int) :=
  ((List.range 16).filter fun a => (anchor s a).1 && flag s (Fld.RAD_CXV_VALID (cxvIndex t k a))).map fun a =>
    ((anchor s a).2, signedOf 8 (fld s (Fld.RAD_CXV_I (cxvIndex t k a))), signedOf 8 (fld s (Fld.RAD_CXV_Q (cxvIndex t k a))))

/-- Linear interpolation rounded to the nearest code; of two equally near, the one further from the lower anchor's (log entry 38,
DESIGN CHOICE). -/
def interpolate (c c0 c1 : Nat) (v0 v1 : Int) : Int :=
  v0 + roundHalfAway ((v1 - v0) * ((c - c0 : Nat) : Int)) (c1 - c0)

/-- The vector for a channel on a port heard by a chain (R212). -/
def cancelVector (s : State) (t k c : Nat) : Int × Int :=
  let l := usedAnchors s t k
  match (l.filter fun x => x.1 ≤ c).getLast?, l.find? fun x => c ≤ x.1 with
  | some x, some y =>
    if x.1 = y.1 then x.2 else (interpolate c x.1 y.1 x.2.1 y.2.1, interpolate c x.1 y.1 x.2.2 y.2.2)
  | some x, none => x.2
  | none, some y => y.2
  | none, none => (0, 0)

/-- The vectors are loaded at each entry to SETTLE and change of port (R211). -/
def loadVectors (s : State) (p : RfPath) : State :=
  let x := pathSt s p
  setPathSt s p { x with vectors := Vector.ofFn fun k => cancelVector s (pathPort s p) k x.chan }

/-! ### Settling -/

/-- A path carries its use or is on the way to it. -/
def pathBusy (s : State) (p : RfPath) : Bool := 2 ≤ pathState s p && pathState s p ≤ 5

/-- Frequencies less than 3 MHz apart, as channel codes (R186). -/
def within3 (a b : Nat) : Bool := (a - b) + (b - a) < 240

/-- What a path carries, or in SETTLE is to carry: a link turnaround moves it between RXON and TXON (R182). -/
def pathUse (s : State) (p : RfPath) : PathUse :=
  match pathState s p with
  | 3 => .rxon
  | 4 => .txon
  | 5 => .read
  | _ => (pathSt s p).use_

/-- A tune breaks the spacing rules against the other path (R186). -/
def spacingBreaks (s : State) (p : RfPath) (chan : Nat) (use_ : PathUse) : Bool :=
  let q := otherPath p
  let y := pathSt s q
  pathBusy s q && (match use_, pathUse s q with
    | .read, .read => !spaced12 chan y.chan
    | .rxon, .read => within3 chan y.chan || pathPort s p == pathPort s q
    | .read, .rxon => within3 chan y.chan || pathPort s p == pathPort s q
    | .txon, .read => true
    | .read, .txon => true
    | _, _ => false)

/-- The valid slot of a path's synthesiser for a channel (R188). -/
def findSlot (s : State) (p : RfPath) (chan : Nat) : Option Nat :=
  firstBelow 256 fun n => slotValid s p n && slotChan s p n == chan

/-- A path enters SETTLE, or its tune is refused with SPACING (R182, R186, R188, R203, R211). -/
def enterSettle (s : State) (p : RfPath) (chan : Nat) (use_ : PathUse) (held : Option HeldTx) : State :=
  let s0 := carrierOff s p
  if spacingBreaks s0 p chan use_ then pathAbort (setFlag s0 Fld.RAD_STAT_SPACING) p 5
  else
    let x := { pathSt s0 p with chan := chan, use_ := use_, settleAt := s0.clk.now, slot := findSlot s0 p chan,
                                slotFailed := none, fullCal := none, locked := false, held := held, low := none,
                                fromIdle := (pathSt s0 p).fromIdle || pathState s0 p ≤ 1 || pathState s0 p == 6 }
    let s1 := setChains (setFld (setPathSt s0 p x) (fPath p) 2)
    let s2 := loadVectors s1 p
    if use_ = .rxon then s2 else paRaise s2 (pathPort s2 p)

/-- A tune command (R182, R193). A path in OFF has no bias yet and takes none. -/
def tune (s : State) (p : RfPath) (chan : Nat) (use_ : PathUse) : State :=
  if !pathMay s p then violation s
  else
    match pathState s p with
    | 0 => s
    | 6 => enterSettle (calAbort s p) p chan use_ none
    | _ => enterSettle s p chan use_ none

/-! ### Locks -/

/-- A slot's MARGIN is written in force and in its shadow copy (R189). -/
def setMargin (s : State) (p : RfPath) (n m : Nat) : State :=
  setFldBoth s ⟨slotAdr p n, 4, 0⟩ m (flag s Fld.SYNCAL_COMMIT_PEND)

def fVictim : RfPath → Field
  | .a => Fld.SYNCAL_STAT_AVICTIM
  | .b => Fld.SYNCAL_STAT_BVICTIM

/-- The first unpinned slot from a place on, wrapping round; it stands for the pointer's own where that is pinned (log entry 49, DESIGN
CHOICE). -/
def unpinnedFrom (s : State) (p : RfPath) (n : Nat) : Option Nat :=
  ((List.range 256).find? fun k => !slotPinned s p ((n + k) % 256)).map fun k => (n + k) % 256

/-- The slot of a full calibration's result, given one that failed before it, and the victim pointer after it (R190). -/
def storeSlot (s : State) (p : RfPath) (failed : Option Nat) : Option (Nat × Nat) :=
  let v := fld s (fVictim p)
  match failed with
  | some n => some (n, v)
  | none =>
    match firstBelow 256 fun n => !slotValid s p n with
    | some n => some (n, v)
    | none => (unpinnedFrom s p v).map fun n => (n, (unpinnedFrom s p (n + 1)).getD n)

/-- Every slot of a synthesiser is valid and pinned (R190). -/
def allPinned (s : State) (p : RfPath) : Bool := (List.range 256).all fun n => slotValid s p n && slotPinned s p n

/-- A stored full calibration completes its slot (R567). -/
def slotDone (s : State) (p : RfPath) (n : Nat) : State :=
  let x := calInst s 1 (pathInst p)
  if x.due && x.slots.contains n then
    let l := x.slots.filter fun k => k != n
    setCalInst s (if l.isEmpty then { x with due := false, overdue := false, slots := [], doneAt := some s.clk.now,
                                              doneTemp := fld s Fld.CAL_TEMP_TEMP }
                  else { x with slots := l })
  else s

/-- The result of a full calibration on a channel is stored, or not (R190); the answer names the slot. -/
def autoStore (s : State) (p : RfPath) (chan : Nat) (failed : Option Nat) (margin band cap : Nat) : State × Option Nat :=
  if !flag s Fld.SYNCAL_CFG_AUTOSTORE then (s, none)
  else if flag s Fld.SYNCAL_COMMIT_PEND || allPinned s p then (incSat s Fld.SYNCAL_CNT_NOSTORE 1, none)
  else
    match storeSlot s p failed with
    | none => (incSat s Fld.SYNCAL_CNT_NOSTORE 1, none)
    | some (n, v) =>
      let w := BitVec.ofNat 32 (2 ^ 31 + chan * 2 ^ 16 + band * 2 ^ 12 + cap * 2 ^ 5 + margin)
      (slotDone (setFld (setRegBoth s (slotAdr p n) w false) (fVictim p) v) p n, some n)

/-- A full calibration completes (R188, R190): counted, and stored where it may be. -/
def fullCalDone (s : State) (p : RfPath) (chan : Nat) (failed : Option Nat) (margin band cap : Nat) : State × Option Nat :=
  autoStore (incSat s Fld.SYNCAL_CNT_FULLCAL 1) p chan failed margin band cap

/-- A margin below MARGINMIN makes its slot due (R189, R564). -/
def marginCheck (s : State) (p : RfPath) (slot : Option Nat) (margin : Nat) : State :=
  match slot with
  | some n => if margin < fld s Fld.SYNCAL_CFG_MARGINMIN then calTrigger s 1 (pathInst p) [n] else s
  | none => s

/-- LOCKTIMEOUT (R192). -/
def lockTimeout (s : State) (p : RfPath) : State :=
  pathAbort (incSat (setFlag s Fld.RAD_STAT_LOCKTIMEOUT) Fld.RAD_CNT0_LOCKTIMEOUT 1) p 7

/-- A link chain may run at 1.6 GS/s (R204, R384). -/
def lowRate (s : State) (p : RfPath) : Bool :=
  flag s Fld.RAD_CFG_LOWRATE && (pathGrant s (otherPath p)).isNone && (mode s == 2 || !flag s Fld.LNK_PHYCFG_CONCUR)

/-- The path enters RXON (R182, R204, R390): its chains sample, at the lower rate where they may, from the highest step. A slot that has
entered it at the higher rate keeps that rate (R384). -/
def enterRxon (s : State) (p : RfPath) : State :=
  let low := lowRate s p && (pathSt s p).low.getD true
  let s1 := setFld (setPathSt s p { pathSt s p with low := some low }) (fPath p) 3
  let m := if mode s = 2 then (match (pathSt s p).readPoint with
      | some rp => rpRxMask s rp
      | none => 0) else pathChains s p
  let s2 := setChains s1
  (bitList 4 m).foldl (fun t k =>
    let t1 := setFlag (setFld t Fld.RAD_STATE_CHON (fld t Fld.RAD_STATE_CHON ||| 2 ^ k)) (Fld.RAD_RXC_STAT_ON k)
    let t2 := clrFld (setFld t1 (Fld.RAD_RXC_STAT_LNA k) (min 5 (fld t1 Fld.RAD_AGC_LNAMAX))) (Fld.RAD_RXC_STAT_FROZEN k)
    if low then setFlag (setFld t2 Fld.RAD_STATE_CHRATE (fld t2 Fld.RAD_STATE_CHRATE ||| 2 ^ k)) (Fld.RAD_RXC_STAT_RATE k)
    else t2) s2

/-- A full calibration that a LOCKTIMEOUT did not wait for completes (R193). -/
def lateLock (s : State) (p : RfPath) (m band cap : Nat) : State :=
  match (pathSt s p).fullCal with
  | some (chan, failed) =>
    let r := fullCalDone (setPathSt s p { pathSt s p with fullCal := none }) p chan failed m band cap
    marginCheck r.1 p r.2 m
  | none => s

/-- The synthesiser locks (R182, R188–R192). -/
def synthLock (s : State) (p : RfPath) (margin band cap : Nat) : State :=
  let x := pathSt s p
  let m := min 31 margin
  if pathState s p ≠ 2 then lateLock s p m band cap
  else if x.locked then s
  else
    let r := match x.slot with
      | some n => (setMargin s p n m, some n)
      | none => fullCalDone s p x.chan x.slotFailed m band cap
    let s2 := marginCheck r.1 p r.2 m
    let s3 := setPathSt s2 p { pathSt s2 p with locked := true, slot := r.2 }
    if x.use_ = .rxon then enterRxon s3 p
    else
      match x.held.bind fun h => h.since with
      | some t => if t + us (fld s Fld.RAD_TXHOLD_MAX_US) < s.clk.now then lockTimeout s3 p else s3
      | none => s3

/-- A stored word fails to lock: a full calibration follows at once (R188). -/
def storedFail (s : State) (p : RfPath) : State :=
  let x := pathSt s p
  if pathState s p = 2 ∧ ¬x.locked then
    match x.slot with
    | some n => setPathSt s p { x with slot := none, slotFailed := some n }
    | none => s
  else s

def execStoredWordFail (path : RfPath) (s : State) : Host.Outcome State Fault Refusal := next (storedFail s path)

/-- No lock 250 µs after the entry (R191). The slot used becomes invalid in force and in the shadow set, which keeps what is staged
while a commit is pending (log entry 49, DESIGN CHOICE). A calibration that a LOCKTIMEOUT did not wait for ends without a result. -/
def lockFail (s : State) (p : RfPath) : State :=
  let x := pathSt s p
  if pathState s p ≠ 2 then setPathSt s p { x with fullCal := none }
  else if x.locked then s
  else
    let s1 := incSat (setFlag s Fld.RAD_STAT_LOCKFAIL) Fld.RAD_CNT0_LOCKFAIL 1
    let used := match x.slot with
      | some n => some n
      | none => x.slotFailed
    let s2 := match used with
      | some n => setFldBoth s1 ⟨slotAdr p n, 31, 31⟩ 0 (flag s1 Fld.SYNCAL_COMMIT_PEND)
      | none => s1
    pathAbort (fault s2 0x05 0 0x06 ([BitVec.ofNat 8 (pathInst p), 0] ++ leBytes 2 x.chan)) p 6

/-! ### Carriers -/

/-- The power index may be used on the port (R200). -/
def powerOk (s : State) (port idx : Nat) : Bool :=
  idx ≤ fld s (Fld.RAD_PORT_CFG_MAXIDX port) && flag s (Fld.RAD_PWR_VALID (128 * port + idx))

/-- A transmit command (R182, R192, R193, R200). -/
def txCommand (s : State) (p : RfPath) (use_ : PathUse) (chan port idx : Nat) : State :=
  if !pathMay s p then violation s
  else if use_ = .rxon then tune s p chan .rxon
  else if !powerOk s port idx then pathAbort s p 8
  else
    let s0 := if pathState s p = 1 ∨ pathState s p = 2 ∨ pathState s p = 6 then setFld s (fPort p) port else s
    let h (since : Option Nat) : Option HeldTx := some { since := since, use_ := use_, port := port, index := idx }
    match pathState s p with
    | 1 => enterSettle s0 p chan use_ (h none)
    | 6 => enterSettle (calAbort s0 p) p chan use_ (h (some s.clk.now))
    | 2 =>
      if (pathSt s p).chan = chan then
        let s1 := loadVectors (setPathSt s0 p { pathSt s0 p with held := h (some s.clk.now), use_ := use_ }) p
        paRaise s1 port
      else enterSettle s0 p chan use_ (h (some s.clk.now))
    | _ => s

/-- TXHOLD_MAX has passed and the path has not locked (R192). A full calibration under way still completes (R193). -/
def holdOver (s : State) (p : RfPath) : State :=
  let x := pathSt s p
  if pathState s p = 2 ∧ ¬x.locked ∧ (x.held.bind fun h => h.since).isSome then
    let t := lockTimeout s p
    if x.slot.isNone then setPathSt t p { pathSt t p with fullCal := some (x.chan, x.slotFailed) } else t
  else s

/-- The carrier rises (R182, R194, R200, R201, R205, R283), unless no profile permits a reader carrier (R282) or a chain still
switches its rate. -/
def rampUp (s : State) (p : RfPath) : State :=
  let x := pathSt s p
  match x.held with
  | none => s
  | some h =>
    if ¬x.locked ∨ ¬s.radio.switching.isEmpty ∨ (h.use_ = .read ∧ profile s = 0) then s
    else if !powerOk s h.port h.index then pathAbort s p 8
    else
      let moved := x.fromIdle || fld s (fTxPort p) != h.port
      let s1 := setFld (setFld (setFld s (fPort p) h.port) (fTxPort p) h.port) (fIdx p) h.index
      let s2 := if moved then clrFld s1 (fTrim p) else s1
      let s3 := setPathSt (setFlag s2 (fCarr p)) p { x with held := none, rampAt := s.clk.now, fromIdle := false, refined := false }
      let s4 := setChains (setFld s3 (fPath p) (if h.use_ = .read then 5 else 4))
      if h.use_ = .read then accountOn s4 x.chan else s4

/-- A hop within a grant (R182, R195): the carrier keeps its port and index, and its hold runs from here. -/
def hop (s : State) (p : RfPath) (chan : Nat) : State :=
  let x := pathSt s p
  match pathState s p with
  | 3 => enterSettle s p chan .rxon none
  | 4 => enterSettle s p chan .txon (some { since := some s.clk.now, use_ := .txon,
                                            port := fld s (fTxPort p), index := fld s (fIdx p) })
  | 5 => enterSettle s p chan .read (some { since := some s.clk.now, use_ := x.use_,
                                            port := fld s (fTxPort p), index := fld s (fIdx p) })
  | _ => s

/-- A change of port or switch path without retuning (R182, R196, R203, R211): the carrier falls and rises again. -/
def portSwitch (s : State) (p : RfPath) (rp : Nat) : State :=
  if pathState s p ≠ 5 then s
  else
    let idx := fld s (fIdx p)
    let s1 := assignRp (carrierOff s p) p rp
    let port := rpPort s1 rp
    let s2 := loadVectors (setPathSt s1 p { pathSt s1 p with
      held := some { since := none, use_ := .read, port := port, index := idx } }) p
    paRaise s2 port

def execPortSwitch (path : RfPath) (rp : Fin 64) (s : State) : Host.Outcome State Fault Refusal :=
  next (if pathMay s path then portSwitch s path rp else violation s)

/-! ### Power -/

/-- The detector target of a carrier (R198). -/
def detTarget (s : State) (p : RfPath) : Nat := fld s (Fld.RAD_PWR_DET (128 * fld s (fTxPort p) + fld s (fIdx p)))

/-- One detector step (R201): the trim moves one towards the target; at ±32 the loop stops with PWRERR, which makes the port's
power entries due (R564). -/
def detectorUpdate (s : State) (p : RfPath) (reading : Nat) : State :=
  if !flag s (fCarr p) then s
  else
    let t := signedOf 8 (fld s (fTrim p))
    let d := detTarget s p
    let t1 : Int := if 32 ≤ t.natAbs then t else if reading < d then t + 1 else if d < reading then t - 1 else t
    let s1 := setFld s (fTrim p) (unsignedOf 8 t1)
    if t1.natAbs = 32 ∧ t.natAbs ≠ 32 then
      let port := fld s (fTxPort p)
      calTrigger (fault (setFlag s1 Fld.RAD_STAT_PWRERR) 0x05 0 0x07 [BitVec.ofNat 8 port, BitVec.ofNat 8 (fld s (fIdx p))])
        2 port []
    else s1

def execDetectorUpdate (path : RfPath) (reading : BitVec 10) (s : State) : Host.Outcome State Fault Refusal :=
  next (detectorUpdate s path reading.toNat)

/-- The detector has read too high for 5 µs: the carrier is muted (R184, R202, R203). -/
def overpower (s : State) (p : RfPath) : State :=
  if !flag s (fCarr p) then s
  else
    let s1 := incSat (setFlag s Fld.RAD_STAT_OVERPWR) Fld.RAD_CNT1_OVERPWR 1
    let s2 := match paOf s1 (fld s1 (fTxPort p)) with
      | some k => paLower s1 k
      | none => s1
    pathAbort s2 p 9

/-- A carrier is up or on its way on a port. -/
def portCarries (s : State) (port : Nat) : Bool :=
  [RfPath.a, .b].any fun p => pathPort s p == port && (flag s (fCarr p) || (pathSt s p).held.isSome ||
    (pathState s p == 2 && (pathSt s p).use_ != .rxon))

/-- PALAG after the end of ramp-down, `UPAENk` falls (R203). -/
def paDisable (s : State) (k : Nat) : State :=
  let port := if k = 0 then fld s Fld.RAD_PA_PA0PORT else fld s Fld.RAD_PA_PA1PORT
  if paOf s port = some k ∧ portCarries s port then s else paLower s k

def execPaDisable (pa : Fin 2) (s : State) : Host.Outcome State Fault Refusal := next (paDisable s pa)

/-! ### Receive chains -/

/-- A chain has switched to 3.2 GS/s (R205). -/
def rateDone (s : State) (k : Nat) : State :=
  if s.radio.switching.contains k then
    let m := fld s Fld.RAD_STATE_CHRATE
    let s1 := setFld s Fld.RAD_STATE_CHRATE (if m.testBit k then m - 2 ^ k else m)
    clrFld { s1 with radio := { s1.radio with switching := s1.radio.switching.filter fun j => j != k } }
      (Fld.RAD_RXC_STAT_RATE k)
  else s

def execRateSwitchDone (chain : Fin 4) (s : State) : Host.Outcome State Fault Refusal := next (rateDone s chain)

/-- The chain samples for a path in a state. -/
def chainIn (s : State) (k st : Nat) : Bool :=
  flag s (Fld.RAD_RXC_STAT_ON k) && [RfPath.a, .b].any fun p => pathState s p == st &&
    ((pathChains s p).testBit k || mode s == 2)

/-- The level at a chain's input, on the scale of R210. -/
def reportLevel (s : State) (k level : Nat) : State := setFld s (Fld.RAD_RXC_STAT_RSSI k) level

/-- The levels of a reply at the chains of a mask that receive it (R210). RSSI takes the level of RN16 and EPC replies, of an SFD and of
an energy measurement (DESIGN CHOICE, log entry 49). -/
def reportLevels (s : State) (chains : Nat) (levels : List Byte) : State :=
  (bitList 4 chains).foldl (fun t k => reportLevel t k (levels.getD k 255).toNat) s

/-- One gain measurement in RXON, the peak in −0.5 dBFS units (R208); a chain that switches its rate measures nothing (R205). -/
def agcStep (s : State) (k peak : Nat) : State :=
  let now := s.clk.now
  if !chainIn s k 3 || s.radio.switching.contains k || flag s (Fld.RAD_RXC_STAT_FROZEN k) || now < s.radio.dwellUntil[k]?.getD 0 then s
  else
    let lna := fld s (Fld.RAD_RXC_STAT_LNA k)
    let thi := fld s Fld.RAD_AGC_THI
    let n := if peak < thi then lna - 1 else if thi + 12 < peak ∧ lna < fld s Fld.RAD_AGC_LNAMAX then lna + 1 else lna
    if n = lna then s
    else setFld { s with radio := { s.radio with dwellUntil := s.radio.dwellUntil.setIfInBounds k (now + us (fld s Fld.RAD_AGC_DWELL)) } }
      (Fld.RAD_RXC_STAT_LNA k) n

def execAgcStep (chain : Fin 4) (peak : Byte) (s : State) : Host.Outcome State Fault Refusal :=
  next (agcStep s chain peak.toNat)

/-- More than 4 samples clip within 1 µs in READ (R209). -/
def clipDown (s : State) (k : Nat) : State :=
  if chainIn s k 5 then setFld s (Fld.RAD_RXC_STAT_LNA k) (fld s (Fld.RAD_RXC_STAT_LNA k) - 1) else s

def execClipStepDown (chain : Fin 4) (s : State) : Host.Outcome State Fault Refusal := next (clipDown s chain)

/-- What a refinement makes of one chain's measurement (R213): the vector is corrected where the residual exceeds REFINE. -/
def refineOne (s : State) (p : RfPath) (c : ChainResidual) : State :=
  let x := pathSt s p
  let high := c.residual < fld s Fld.RAD_CANC_REFINE
  setPathSt s p { x with
    vectors := if high then x.vectors.setIfInBounds c.chain (c.i, c.q) else x.vectors
    resid := x.resid.setIfInBounds c.chain (if high then c.after else c.residual) }

/-- The gain step of a chain in READ (R209): the highest up to LNAMAX that leaves both residuals at or below THI; step 0 where none
does (log entry 38, DESIGN CHOICE). -/
def readStep (s : State) (k : Nat) : Nat :=
  let r := min (s.radio.a.resid[k]?.getD 127) (s.radio.b.resid[k]?.getD 127)
  let ok (n : Nat) : Bool := 4 + 12 * n + fld s Fld.RAD_AGC_THI ≤ 2 * r
  (((List.range 6).filter fun n => n ≤ fld s Fld.RAD_AGC_LNAMAX && ok n).getLast?).getD 0

/-- The refinement of every carrier that is up is over (R209). -/
def allRefined (s : State) : Bool := [RfPath.a, .b].all fun p => !flag s (fCarr p) || (pathSt s p).refined

/-- The chains that sample in READ. -/
def readChains (s : State) : Nat :=
  [RfPath.a, .b].foldl (fun m p => if pathState s p = 5 then m ||| pathChains s p else m) 0

/-- The refinement of a ramp-up is over (R209, R213): once that of every carrier is, the chains new in READ take their gain. -/
def refinementEnd (s : State) (p : RfPath) (meas : List ChainResidual) : State :=
  if pathState s p ≠ 5 ∨ ¬flag s (fCarr p) then s
  else
    let s0 := meas.foldl (fun t c => refineOne t p c) s
    let s1 := setPathSt s0 p { pathSt s0 p with refined := true }
    if !allRefined s1 then s1
    else (bitList 4 (readChains s1)).foldl (fun t k =>
      if t.radio.gainHeld.contains k then t
      else setFld { t with radio := { t.radio with gainHeld := t.radio.gainHeld ++ [k] } } (Fld.RAD_RXC_STAT_LNA k) (readStep t k)) s1

def execRefinementEnd (path : RfPath) (meas : List ChainResidual) (s : State) : Host.Outcome State Fault Refusal :=
  next (refinementEnd s path meas)

/-- The total suppression over the first 1 ms of READ, in 0.5 dB units (R216, R223): below FAIL, the vector is overdue at once
(R565). -/
def cancelCheck (s : State) (k : Nat) (p : RfPath) (sup : Nat) : State :=
  if pathState s p ≠ 5 ∨ ¬flag s (fCarr p) then s
  else
    let s1 := setFld s (fSupp k p) sup
    if sup < 2 * fld s Fld.RAD_CANC_FAIL then
      let port := fld s (fTxPort p)
      let s2 := fault (setFlag s1 Fld.RAD_STAT_CANCFAIL) 0x05 0 0x08
        ([BitVec.ofNat 8 port, BitVec.ofNat 8 k] ++ leBytes 2 (pathSt s p).chan)
      calOverdue s2 3 (4 * port + k)
    else s1

def execCancelCheck (chain : Fin 4) (path : RfPath) (suppression : Byte) (s : State) : Host.Outcome State Fault Refusal :=
  next (cancelCheck s chain path suppression.toNat)

end Sys2Proof.Machine
end

