-- ==== Sys2Proof/Machine/Bramble.lean ====
section
/-! DEFINITION. Bramble, the Gen2 reader: rounds, visits, cycles, the Q algorithm, slots, reads, access programs, hops and the
immediate access (R252–R290, R294). -/

namespace Sys2Proof.Machine

open Sys2Proof

/-! ### The air -/

/-- Put a reader command on the air. -/
def brmSend (s : State) (p : RfPath) (c : AirCmd) : State := { s with brm := { s.brm with sent := s.brm.sent ++ [(p, c)] } }

/-- A new step: nothing sent yet. -/
def brmQuiet (s : State) : State := { s with brm := { s.brm with sent := [] } }

/-- The enabled items of the entry's select list, in order (R260, R270). -/
def selectItems (s : State) (e : Entry) : List Nat :=
  if eSelref e = 0xFF then []
  else (List.range 4).filter fun k => flag s (Fld.BRM_SEL_CTRL_EN (4 * eSelref e + k))

/-- An EBV (R270): bytes of 7 bits, the most significant group first, each with a bit that says more follow. -/
def ebvFrom : Nat → Nat → List Bool
  | 0, _ => []
  | n + 1, v => (n != 0) :: bitsMsb 7 (v >>> (7 * n)) ++ ebvFrom n v

def ebvBits (v : Nat) : List Bool := ebvFrom (if v < 2 ^ 7 then 1 else if v < 2 ^ 14 then 2 else 3) v

/-- The mask bits of a select item (R271). -/
def maskBits (s : State) (n len : Nat) : List Bool :=
  ((List.range 4).flatMap fun j => bitsMsb 32 (reg s (Adr.BRM_SEL_MASK n j)).toNat).take len

/-- A CRC-16 of bits (Gen2). -/
def crc16Bits (bits : List Bool) : Nat := (bits.foldl (crcBitMsb 16 0x1021) 0xFFFF) ^^^ 0xFFFF

/-- The bits of the Select of an item, its CRC-16 last (R270, R271). -/
def selectBits (s : State) (n : Nat) : List Bool :=
  let len := fld s (Fld.BRM_SEL_CTRL_LENGTH n)
  let b := bitsMsb 4 10 ++ bitsMsb 3 (fld s (Fld.BRM_SEL_CTRL_TGT n)) ++ bitsMsb 3 (fld s (Fld.BRM_SEL_CTRL_ACTION n)) ++
    bitsMsb 2 (fld s (Fld.BRM_SEL_CTRL_BANK n)) ++ ebvBits (fld s (Fld.BRM_SEL_PTR_POINTER n)) ++ bitsMsb 8 len ++
    maskBits s n len ++ [false]
  b ++ bitsMsb 16 (crc16Bits b)

/-- What the Selects of a cycle take, each with its T4, in ps (R256, R270). -/
def selectsTime (s : State) (e : Entry) : Nat :=
  ((selectItems s e).map fun k => frameSync e + bitsTime e (selectBits s (4 * eSelref e + k)) + 2 * rtcal e).sum

/-! ### The nearest time -/

/-- Why no further slot or step may start (R264). -/
inductive BrmStop where
  | lease | visit | channel
  deriving DecidableEq, Repr

/-- The start of the lease warning; now, once the warning has come (R262, R264). -/
def leaseLimit (s : State) (p : RfPath) : Nat :=
  match pathGrant s p with
  | none => s.clk.now
  | some g => if g.warned then s.clk.now else g.until_ - warnOf g.kind

/-- The limit of a reply under way at a lease's end (R262–R264): the start of the warning, or the end of a shortened lease. -/
def replyLimit (s : State) (p : RfPath) : Nat :=
  match pathGrant s p with
  | none => s.clk.now
  | some g => if g.shortened then g.until_ else g.until_ - warnOf g.kind

/-- The nearest of the three times of R262, the lease's given, and what it is; where two fall together the lease stands before the visit, the visit before the
channel. -/
def nearestOf (s : State) (l : Nat) (r : Round) : Nat × BrmStop :=
  let c := s.clk.now + regLeft s r.chan
  if l ≤ r.deadline ∧ l ≤ c then (l, .lease) else if r.deadline ≤ c then (r.deadline, .visit) else (c, .channel)

/-- The nearest time for what is to start. -/
def nearest (s : State) (p : RfPath) (r : Round) : Nat × BrmStop := nearestOf s (leaseLimit s p) r

/-- What keeps work of a length from starting now, if anything does. -/
def blocked (s : State) (p : RfPath) (r : Round) (cycles : Nat) : Option BrmStop :=
  let n := nearest s p r
  if s.clk.now + cycles ≤ n.1 then none else some n.2

/-! ### Channels of a round -/

/-- The channels and positions passed over (R279, R285, R295); a choice that finds none counts none (log entry 39, DESIGN
CHOICE). -/
def chSkip (s : State) (n : Nat) : State := incSat s Fld.BRM_CNT3_CHSKIP n

/-- The channel for a round's start (R286): the SEQ position moves past it, and what was passed over is counted, but not where none is found
(log entry 39, DESIGN CHOICE). -/
def takeFirst (s : State) (i : Nat) (e : Entry) (paired : Bool) (p : RfPath) : Option Nat × State :=
  if seqMode s then
    match nextSeq s e paired p (fld s Fld.BRM_STAT_SEQPOS) with
    | some (pos, k) => (some (seqChan pos), chSkip (setFld s Fld.BRM_STAT_SEQPOS ((pos + 1) % 50)) k)
    | none => (none, s)
  else
    match nextList s e paired p (listStart s i (eChans e).length) with
    | some (j, k) => (some ((eChans e).getD j 0), chSkip s k)
    | none => (none, s)

/-- The channel for a hop (R285); in LIST mode it may be the present one. Where none is found, none passed over counts (log entry 39,
DESIGN CHOICE). -/
def takeNext (s : State) (e : Entry) (r : Round) (p : RfPath) : Option Nat × State :=
  if seqMode s then takeFirst s r.entry e r.paired p
  else
    let cs := eChans e
    let start := ((cs.findIdx fun c => c == r.chan) + 1) % max 1 cs.length
    match nextList s e r.paired p start with
    | some (j, k) => (some (cs.getD j 0), chSkip s k)
    | none => (none, s)

/-! ### Cycles, visits, hops -/

/-- The Selects and the Query of a new cycle (R260, R261, R265). -/
def sendCycle (s : State) (p : RfPath) (r : Round) (e : Entry) : State :=
  let q0 := eBits e 52 3 0
  let r1 := { r with phase := .slot, qfp := 16 * q0, q := q0, nslot := 0, empties := 0, singulated := 0, slots := r.slots + 1 }
  let s1 := (selectItems s e).foldl (fun t k => brmSend t p (.select (eSelref e) k)) (setRound s p (some r1))
  brmSend s1 p (.query q0 r.targetB)

/-- The path hops to another channel (R285): its SETTLE begins, and a new cycle follows. -/
def hopRound (s : State) (p : RfPath) (r : Round) (c : Nat) : State :=
  setRound s p (some { r with chan := c, settleAt := s.clk.now, hopDue := false, hops := r.hops + 1 })

/-- A visit to a leaf starts (R196, R259): its read point is assigned to its port at once while the path radiates nothing, else by the
port switch. -/
def visitRound (s0 : State) (p : RfPath) (r : Round) (e : Entry) (leaf : Nat) (rest : List Nat) : State :=
  let s := if flag s0 (fCarr p) then s0 else assignRp s0 p leaf
  setRound s p (some { r with leaf := leaf, leaves := rest, deadline := s.clk.now + us (100 * eDwell e),
                              visits := r.visits + 1 })

/-- A cycle starts on the leaf in hand, or what keeps it from starting takes its course (R259, R260, R264, R287): a lease ends
the round, a deadline ends the visit, a channel's deadline makes the path hop. Leaves and channels bound the moves; a round that
finds no channel with room for a slot ends DWELL. -/
def beginCycle : Nat → State → RfPath → State
  | 0, s, p => roundEnd s p 4
  | n + 1, s, p =>
    match roundOf s p with
    | none => s
    | some r =>
      let e := roundEntry s r
      match blocked s p r (psCycles (selectsTime s e + queryTime e (eBits e 52 3 0) r.targetB + slotTail e)) with
      | none => sendCycle s p r e
      | some .lease => roundEnd s p 1
      | some .visit =>
        match r.leaves with
        | [] => roundEnd s p 0
        | l :: ls => beginCycle n (visitRound s p r e l ls) p
      | some .channel =>
        let q := takeNext s e r p
        match q.1 with
        | none => roundEnd q.2 p 4
        | some c => if c = r.chan then roundEnd q.2 p 4 else beginCycle n (hopRound q.2 p r c) p

/-- More moves than a round has leaves and channels. -/
def cycleBound : Nat := 128

/-- The path leaves its channel (R285, R287): it hops, stays where only the present channel qualifies and it may stay, or the
round ends DWELL. The answer says whether it stayed. -/
def hopNow (s : State) (p : RfPath) (stay : Bool) : State × Bool :=
  match roundOf s p with
  | none => (s, false)
  | some r =>
    let q := takeNext s (roundEntry s r) r p
    match q.1 with
    | none => (roundEnd q.2 p 4, false)
    | some c =>
      if c ≠ r.chan then (beginCycle cycleBound (hopRound q.2 p r c) p, false)
      else if stay && !seqMode s then (setRound q.2 p (some { r with hopDue := false }), true)
      else (roundEnd q.2 p 4, false)

/-- A cycle starts at a slot boundary (R260): a hop that is due comes first (R285). -/
def cycleStart (s : State) (p : RfPath) : State :=
  match roundOf s p with
  | none => s
  | some r =>
    if r.hopDue then
      let h := hopNow s p true
      if h.2 then beginCycle cycleBound h.1 p else h.1
    else beginCycle cycleBound s p

/-- The visit ends: the next one starts, or the round is complete (R258, R259). -/
def visitEnd (s : State) (p : RfPath) : State :=
  match roundOf s p with
  | none => s
  | some r =>
    match r.leaves with
    | [] => roundEnd s p 0
    | l :: ls => cycleStart (visitRound s p r (roundEntry s r) l ls) p

/-- No further slot or step may start (R264): a channel's deadline makes the path hop also where it is a step that cannot start (DESIGN
CHOICE, log entry 50). -/
def stopWork (s : State) (p : RfPath) (why : BrmStop) : State :=
  match why with
  | .lease => roundEnd s p 1
  | .visit => visitEnd s p
  | .channel => (hopNow s p false).1

/-! ### The Q algorithm -/

/-- The commands between slots (R265). -/
inductive NextCmd where
  | adjust (upDn : Nat)
  | rep
  deriving DecidableEq, Repr

/-- What a slot's end makes of qfp, Q and the slot counter, and the command it asks for (R265). -/
def qStep (r : Round) : Round × NextCmd :=
  let newQ := (r.qfp + 8) / 16
  let n := r.nslot + 1
  if newQ ≠ r.q then ({ r with q := newQ, nslot := 0 }, .adjust (if r.q < newQ then 6 else 3))
  else if n = 2 ^ r.q then ({ r with nslot := 0 }, .adjust 0)
  else ({ r with nslot := n }, .rep)

/-- How long a command lasts, in ps. -/
def nextTime (e : Entry) : NextCmd → Nat
  | .adjust d => queryAdjustTime e d
  | .rep => queryRepTime e

/-- The command on the air. -/
def nextAir : NextCmd → AirCmd
  | .adjust d => .queryAdjust d
  | .rep => .queryRep

/-- The next command of the cycle, if its slot may start (R262, R265). -/
def nextSlot (s : State) (p : RfPath) (r : Round) (e : Entry) : State :=
  let q := qStep r
  match blocked s p r (slotWorst e (nextTime e q.2)) with
  | some why => stopWork (setRound s p (some r)) p why
  | none => brmSend (setRound s p (some { q.1 with phase := .slot, slots := r.slots + 1 })) p (nextAir q.2)

/-- The outcomes of a slot as R265 takes them. -/
inductive SlotOutcome where
  | empty | read | collision
  deriving DecidableEq, Repr

/-- The counters of a slot's outcome (R265, R289, R295). -/
def countSlot (s : State) (e : Entry) (r : Round) (o : SlotOutcome) : State × Round :=
  match o with
  | .empty =>
    let m := if r.q = eBits e 53 3 0 then r.empties + 1 else 0
    (s, { r with empties := m, emptySlots := r.emptySlots + 1,
                 qfp := max (16 * eBits e 53 3 0) (r.qfp - fld s Fld.BRM_Q_CE) })
  | .read => (s, { r with empties := 0 })
  | .collision =>
    (incSat s Fld.BRM_CNT1_COLLIDE 1,
      { r with empties := 0, collisions := r.collisions + 1,
               qfp := min (16 * eBits e 53 7 4) (r.qfp + fld s Fld.BRM_Q_CC) })

/-- A slot ends (R259, R260, R265, R285): the empty rule ends the cycle, a hop that is due is made, else the next command goes
out. -/
def slotEnd (s : State) (p : RfPath) (o : SlotOutcome) : State :=
  match roundOf s p with
  | none => s
  | some r0 =>
    let e := roundEntry s r0
    let (s1, r) := countSlot s e r0 o
    let s2 := setRound s1 p (some { r with phase := .slot })
    if o = .empty ∧ r.empties = fld s Fld.BRM_Q_ENDEMPTY then
      if r.singulated = 0 then visitEnd s2 p else cycleStart s2 p
    else if r.hopDue then
      let h := hopNow s2 p true
      if h.2 then nextSlot h.1 p { r with hopDue := false } e else h.1
    else nextSlot s2 p r e

/-! ### Slots -/

/-- A slot is open on the path. -/
def slotOpen (s : State) (p : RfPath) : Bool := match roundOf s p with
  | some r => r.phase == .slot
  | none => false

/-- The levels of replies on a chain with their places, the strongest first (R267). -/
def byLevel (l : List Rn16Reply) (k : Nat) : List (Nat × Nat) :=
  ((List.range l.length).map fun i => ((l[i]?.elim 255 fun x => (x.levels.getD k 255).toNat), i)).insertionSort
    fun a b => a.1 ≤ b.1

/-- The margin of the strongest reply over the next on a chain, in 0.5 dB, and which it is. -/
def chainMargin (l : List Rn16Reply) (k : Nat) : Nat × Nat :=
  match byLevel l k with
  | a :: b :: _ => (b.1 - a.1, a.2)
  | _ => (0, 0)

/-- The chains that receive in a visit: the leaf's own, or those of the immediate access (R267, R277). -/
def roundChains (s : State) (r : Round) : Nat := if r.rxMask = 0 then rpRxMask s r.leaf else r.rxMask

/-- The reply that captures the slot (R266, R267): the strongest one on the chain with the largest margin. -/
def captureOf (s : State) (r : Round) (l : List Rn16Reply) : Option Rn16Reply :=
  let best := (bitList 4 (roundChains s r)).foldl (fun (b : Nat × Nat) k => if b.1 < (chainMargin l k).1 then chainMargin l k else b) (0, 0)
  if flag s Fld.BRM_CAPTURE_EN && 2 * fld s Fld.BRM_CAPTURE_DB ≤ best.1 then l[best.2]?.filter fun x => x.decoded else none

/-- An ACK goes out (R266, R268). -/
def sendAck (s : State) (p : RfPath) (r : Round) (rn : BitVec 16) (captured : Bool) (tries : Nat) : State :=
  brmSend (setRound s p (some { r with phase := .acked rn captured tries })) p (.ack rn)

/-- The strongest level of some replies at each chain (R210). -/
def strongest (l : List Rn16Reply) : List Byte :=
  (List.range 4).map fun k => l.foldl (fun m x => if (x.levels.getD k 255) < m then x.levels.getD k 255 else m) 255

/-- RN16 replies of a slot are classed (R210, R266). -/
def rn16Reply (s0 : State) (p : RfPath) (l : List Rn16Reply) : State :=
  match roundOf s0 p with
  | none => s0
  | some r =>
    let s := reportLevels s0 (roundChains s0 r) (strongest l)
    match l with
    | [x] => if x.decoded then sendAck s p r x.rn false 0 else slotEnd s p .collision
    | _ =>
      match captureOf s r l with
      | some x => sendAck (incSat s Fld.BRM_CNT1_CAPTURE 1) p { r with captures := r.captures + 1 } x.rn true 0
      | none => slotEnd s p .collision

/-! ### Steps of an access program -/

/-- The OP and ARG words of a step. -/
def opWord (s : State) (g n : Nat) : Word := reg s (Adr.BRM_PG_OP (8 * g + n))
def argWord (s : State) (g n : Nat) : Word := reg s (Adr.BRM_PG_ARG (8 * g + n))

/-- The length in ps of a command of known bits and a number of bits not yet known, those taken as ones (R273). -/
def stepBits (e : Entry) (known : List Bool) (unknown : Nat) : Nat :=
  frameSync e + bitsTime e (known ++ List.replicate unknown true)

/-- A Req_RN with its reply and the T2 after it. -/
def reqRnTime (e : Entry) : Nat := stepBits e (bitsMsb 8 0xC1) 32 + t1 e + replyTime e 32 + t2 e

/-- The wait for a delayed or in-process reply, in ps (R256). -/
def delayTime (s : State) : Nat := 1000000000 * fld s Fld.BRM_ACC_DLYTO

/-- The worst case of a step's commands with their replies and T2, in ps (R272, R273, R276). -/
def stepTime (s : State) (e : Entry) (op : Nat) (w arg : Word) : Nat :=
  let bank := bitsMsb 2 (bitsOf w 27 26)
  let ptr := ebvBits (bitsOf w 15 0)
  let n := bitsOf w 23 16
  let cnt := bitsMsb 8 n
  let at_ := delayTime s + t2 e
  match op with
  | 1 => stepBits e (bitsMsb 8 0xC2 ++ bank ++ ptr ++ cnt) 32 + t1 e + replyTime e (33 + 16 * n) + t2 e
  | 2 => n * (reqRnTime e + stepBits e (bitsMsb 8 0xC3 ++ bank ++ ptr) 48 + at_)
  | 3 => stepBits e (bitsMsb 8 0xC7 ++ bank ++ ptr ++ cnt) (16 * n + 32) + at_
  | 4 => stepBits e (bitsMsb 8 0xC8 ++ bank ++ ptr ++ cnt) 32 + at_
  | 5 => stepBits e (bitsMsb 8 0xC5 ++ bitsMsb 20 (bitsOf arg 19 0)) 32 + at_
  | 6 => 2 * (reqRnTime e + stepBits e (bitsMsb 8 0xC4 ++ bitsMsb 3 (bitsOf arg 10 8)) 48) + t1 e + replyTime e 32 + t2 e + at_
  | 7 => 2 * (reqRnTime e + stepBits e (bitsMsb 8 0xC6) 48 + t1 e + replyTime e 32 + t2 e)
  | 8 =>
    let head := bitsMsb 8 0xC9 ++ bitsMsb 8 0 ++ bitsMsb 1 (bitsOf arg 7 7) ++ bank ++ ptr ++ cnt
    if bitsOf arg 7 7 = 1 then stepBits e head (16 * n + 32) + at_
    else stepBits e head 32 + t1 e + replyTime e (33 + 16 * n) + t2 e
  | _ => stepBits e (bitsMsb 8 0xD5) (24 + 96 + 32) + at_

/-- The consumer of a path's round. -/
def roundConsumer (r : Round) : Consumer :=
  if r.immediate then .hostUhf else if h : r.entry < 1024 then .entry ⟨r.entry, h⟩ else .hostUhf

/-- The pool words a step sends (R272, R275): those of a write or a mask, the two of a password. -/
def poolData (s : State) (op arg : Word) : List (BitVec 16) :=
  let take (n : Nat) : List (BitVec 16) := (s.brm.pool.drop (bitsOf arg 6 0)).take n
  match bitsOf op 31 28 with
  | 2 => take (bitsOf op 23 16)
  | 3 => take (bitsOf op 23 16)
  | 6 => take 2
  | 7 => take 2
  | 8 => if bitsOf arg 7 7 = 1 then take (bitsOf op 23 16) else []
  | _ => []

/-- The commands of a step, each behind a Req_RN where it takes a fresh RN16 (R272, R273): a WRITE word by word, a password half by
half, any other step by one command. -/
def stepCmds (s : State) (op : Nat) (w arg : Word) : List AirCmd :=
  let data := poolData s w arg
  let one (k : Nat) : List AirCmd := [.reqRn, .step op w arg k ((data.drop k).take 1)]
  match op with
  | 2 => (List.range (bitsOf w 23 16)).flatMap one
  | 6 => (List.range 2).flatMap one
  | 7 => (List.range 2).flatMap one
  | _ => [.step op w arg 0 data]

/-- A step goes on the air (R272, R273, R276): the first behind a Req_RN for the handle; an AUTH step with a fresh challenge and
its Flint top-up. A Req_RN for the handle that goes unanswered counts as step 0 unanswered, and its repeat sends no new one (DESIGN
CHOICE, log entry 50). -/
def sendStep (s : State) (p : RfPath) (r : Round) (g n tries : Nat) : State :=
  let op := stepOp s g n
  let s1 := if n = 0 ∧ tries = 0 then brmSend s p .reqRn else s
  if op = 9 then
    let d := drawRandom s1
    let ch := d.1.setWidth 80
    let s2 := setRound d.2 p (some { r with phase := .step n tries, challenge := ch })
    brmSend (topUp s2 (roundConsumer r) (2 ^ resFlint) .flint) p (.authenticate (bitsOf (argWord s g n) 15 8) ch)
  else (stepCmds s op (opWord s g n) (argWord s g n)).foldl (fun t c => brmSend t p c)
    (setRound s1 p (some { r with phase := .step n tries }))

/-- The program is over and the cycle goes on (R274), unless the tags of an immediate access are complete (R277). -/
def programDone (s : State) (p : RfPath) : State :=
  let s1 := programEnd s p
  match roundOf s1 p with
  | none => s1
  | some r => if r.immediate && decide (r.maxTags ≤ r.tagsOk) then roundEnd s1 p 0 else slotEnd s1 p .read

/-- The next step of the program, or its end; a step that cannot start ends the program and the visit (R264, R273). Where it is the
channel's deadline that keeps it from starting, the path hops and the visit goes on with a new cycle (DESIGN CHOICE, log entry
50). -/
def stepStart (s : State) (p : RfPath) (g n : Nat) : State :=
  match roundOf s p with
  | none => s
  | some r =>
    if programLength s g ≤ n then programDone s p
    else
      let e := roundEntry s r
      let t := (if n = 0 then reqRnTime e else 0) + stepTime s e (stepOp s g n) (opWord s g n) (argWord s g n)
      match blocked s p r (psCycles t) with
      | none => sendStep s p r g n 0
      | some why => stopWork (programEnd s p) p why

/-- A step has its result (R273, R274): the next one follows, or the program is over. -/
def stepResult (s : State) (p : RfPath) (n res tagErr : Nat) (data : List Word) : State :=
  match roundOf s p with
  | none => s
  | some r =>
    match r.prog with
    | none => slotEnd s p .read
    | some g =>
      let s1 := setRound (releaseTopUp s (roundConsumer r)) p (some { r with results := r.results ++ [(stepOp s g n, res, tagErr, data)] })
      if res = 0 then stepStart s1 p g (n + 1) else programDone s1 p

/-- The data words a step's answer puts into its report (R289). -/
def stepData (s : State) (g n : Nat) (data : List (BitVec 16)) : List Word :=
  let cnt := bitsOf (opWord s g n) 23 16
  match stepOp s g n with
  | 1 => pairWords (data.take cnt)
  | 8 => if bitsOf (argWord s g n) 7 7 = 0 then pairWords (data.take cnt) else []
  | _ => []

/-- A tag answers a step (R273, R276): an AUTH answer waits for Flint. -/
def stepReply (s : State) (p : RfPath) (reply : StepReply) : State :=
  match roundOf s p with
  | none => s
  | some r =>
    match r.phase, r.prog with
    | .step n _, some g =>
      match reply with
      | .tagError c => stepResult s p n 2 c.toNat []
      | .ok data =>
        if stepOp s g n = 9 then setRound s p (some { r with phase := .flint n (bitsOf (argWord s g n) 20 16) })
        else stepResult s p n 0 0 (stepData s g n data)
    | _, _ => s

/-- A step without an answer is repeated while repeats are left and one fits, else it ends NOREPLY or CRC (R274); an AUTH step
whose Flint grant has not come ends ABORTED (R276). The repeat of step 0 sends no new Req_RN for the handle (DESIGN CHOICE, log
entry 50). -/
def stepTimeout (s : State) (p : RfPath) (badCrc : Bool) : State :=
  match roundOf s p with
  | none => s
  | some r =>
    match r.phase, r.prog with
    | .step n tries, some g =>
      let e := roundEntry s r
      let t := stepTime s e (stepOp s g n) (opWord s g n) (argWord s g n)
      if tries < fld s Fld.BRM_ACC_STEPRETRY ∧ (blocked s p r (psCycles t)).isNone then
        sendStep (releaseTopUp s (roundConsumer r)) p r g n (tries + 1)
      else stepResult s p n (if badCrc then 3 else 1) 0 []
    | .flint n _, some _ => stepResult s p n 5 0 []
    | _, _ => s

/-- The key of an AUTH step (R92, R276). -/
def authKey (s : State) (slot : Nat) : List Byte :=
  ((s.boot.keys.find? fun k => k.usage == 4 && k.slot == slot).map fun k => k.bytes).getD []

/-- The plaintext of a TAM1 response: its constant, the tag's random number, the challenge (R276; log entry 15). -/
def authPlain (s : State) (slot : Nat) (response : BitVec 128) : Nat × Nat × Nat :=
  let v := beNat (aes128Dec (authKey s slot) (beBytes 16 response.toNat))
  (v / 2 ^ 112, v / 2 ^ 80 % 2 ^ 32, v % 2 ^ 80)

/-- The constant of a TAM1 plaintext. -/
def tam1Const : Nat := 0x96C5

/-- Flint for an AUTH step, by the round's top-up: already granted, or granted now where it is free (R154, R276). -/
def authFlint (s : State) (who : Consumer) : Option State :=
  if (holdsOf s who).testBit resFlint then some s
  else
    match topUpRequest s who with
    | some r => if grantable s r (reservedMask s) then some (grant s r false none) else none
    | none => flintTake s who

/-- Flint is granted for an AUTH step (R276): the response is decrypted and checked. -/
def authGrant (s : State) (p : RfPath) (response : BitVec 128) : State :=
  match roundOf s p with
  | none => s
  | some r =>
    match r.phase with
    | .flint n slot =>
      match authFlint s (roundConsumer r) with
      | none => s
      | some s1 =>
        let d := authPlain s1 slot response
        if d.1 = tam1Const ∧ d.2.2 = r.challenge.toNat then stepResult s1 p n 0 0 [BitVec.ofNat 32 d.2.1]
        else stepResult s1 p n 4 0 []
    | _ => s

/-! ### Reads -/

/-- An ACK was sent and its answer is awaited. -/
def ackPhase (s : State) (p : RfPath) : Option (Round × BitVec 16 × Bool × Nat) :=
  match roundOf s p with
  | some r => match r.phase with
    | .acked rn c n => some (r, rn, c, n)
    | _ => none
  | none => none

/-- What a repeated ACK with the same RN16, T1, a reply of 128 identifier bits and T2 take (R268). -/
def ackWorst (e : Entry) (rn : BitVec 16) : Nat := psCycles (ackTime e rn + t1 e + replyTime e 160 + t2 e)

/-- A NAK and T2 (R268). -/
def nakTime (e : Entry) : Nat := psCycles (stepBits e (bitsMsb 8 0xC0) 0 + t2 e)

/-- A missing or bad EPC reply: the ACK is repeated, or the slot fails with NAK where it fits (R268). -/
def epcMissing (s : State) (p : RfPath) : State :=
  match ackPhase s p with
  | none => s
  | some (r, rn, c, n) =>
    let e := roundEntry s r
    if n < fld s Fld.BRM_ACC_ACKRETRY ∧ (blocked s p r (ackWorst e rn)).isNone then sendAck s p r rn c (n + 1)
    else
      let s1 := if (blocked s p r (nakTime e)).isNone then brmSend s p .nak else s
      slotEnd (incSat s1 Fld.BRM_CNT2_EPCFAIL 1) p .collision

/-- The words of an EPC reply but its CRC that its PC announces (R254; log entry 25): the PC, XPC_W1 with XI, XPC_W2 where XPC_W1
says so, and as many identifier words as the L field counts. -/
def epcShape (ws : List (BitVec 16)) : Nat × Nat :=
  let pc := (ws.getD 0 0).toNat
  let xi := pc.testBit 9
  let xeb := xi && (ws.getD 1 0).toNat.testBit 15
  (1 + (if xi then 1 else 0) + (if xeb then 1 else 0), pc / 2 ^ 11)

/-- The identifier words of an EPC reply, XPC words kept out (R254). -/
def epcWords (x : EpcReply) : List (BitVec 16) := x.words.drop (epcShape x.words).1

/-- An EPC reply is as long as its PC announces, and its CRC-16 is right (R254). -/
def epcGood (x : EpcReply) : Bool :=
  x.words.length == (epcShape x.words).1 + (epcShape x.words).2 &&
    crc16Bits (x.words.flatMap fun w => bitsMsb 16 w.toNat) == x.crc.toNat

/-- The level of a read: of the chain that hears the reply strongest (R269). -/
def epcLevel (s : State) (r : Round) (x : EpcReply) : Nat :=
  (bitList 4 (roundChains s r)).foldl (fun m k => min m (x.levels.getD k 255).toNat) 255

/-- A read of a leaf (R254, R269): an identifier of more than 128 bits is cut, and marked. -/
def uhfRead (s : State) (r : Round) (x : EpcReply) : TagRead :=
  let e := roundEntry s r
  { tech := 0, id := ((epcWords x).take 8).flatMap fun w => beBytes 2 w.toNat, longId := decide (8 < (epcWords x).length),
    rp := r.leaf, chan := r.chan, q64 := q64 s, at_ := s.clk.now, level := epcLevel s r x, pc := (x.words.getD 0 0).toNat,
    hold := eHold e, report := eReport e }

/-- The read goes to the table, unless the read point's filter discards it (R228, R269). -/
def readToTable (s : State) (r : Round) (x : EpcReply) : State :=
  if fld s (Fld.RP_FILT_RSSIMIN r.leaf) < epcLevel s r x then s
  else { s with sgt := { s.sgt with waiting := s.sgt.waiting ++ [uhfRead s r x] } }

/-- What a read leaves with its round (R269, R289). -/
def readInfo (s : State) (r : Round) (x : EpcReply) : ReadInfo :=
  { chan := r.chan, pc := x.words.getD 0 0, epc := (epcWords x).take 8, level := epcLevel s r x, q64 := q64 s }

/-- A reply has run past the nearest time of R262 (R263). -/
def replyLate (s : State) (p : RfPath) (r : Round) : Option BrmStop :=
  let n := nearestOf s (replyLimit s p) r
  if s.clk.now ≤ n.1 then none else some n.2

/-- A read is formed, and its program starts (R263, R268, R269, R273). A reply that runs past the nearest time makes none: reception
stops and the carrier ramps down. -/
def epcReply (s0 : State) (p : RfPath) (x : EpcReply) : State :=
  match ackPhase s0 p with
  | none => s0
  | some (r, _, _, _) =>
    let s := reportLevels s0 (roundChains s0 r) x.levels
    match replyLate s p r with
    | some why => stopWork (setRound (carrierOff s p) p (some { r with phase := .slot })) p why
    | none => epcHeard s p r x
where
  /-- A reply heard to its end. -/
  epcHeard (s : State) (p : RfPath) (r : Round) (x : EpcReply) : State :=
    if epcGood x then
      let s1 := readToTable (setFld s Fld.BRM_CNT0_READS (satAdd 0xFFFFFFFF (fld s Fld.BRM_CNT0_READS) 1)) r x
      let r1 := { r with reads := r.reads + 1, singulated := r.singulated + 1, read := some (readInfo s r x), results := [] }
      match r.prog with
      | some g => stepStart (setRound s1 p (some r1)) p g 0
      | none => slotEnd (setRound s1 p (some { r1 with read := none })) p .read
    else epcMissing s p

/-! ### Hops, visits and rounds as rows -/

/-- HOPIVL has passed: the path hops at the next slot boundary (R285). -/
def hopInterval (s : State) (p : RfPath) : State :=
  match roundOf s p with
  | none => s
  | some r => setRound s p (some { r with hopDue := true })

/-- A channel's deadline has come (R283, R287): the carrier goes off, the work in hand is cut, and the path hops or the round ends. -/
def channelDeadline (s : State) (p : RfPath) : State :=
  match roundOf s p with
  | none => s
  | some _ => (hopNow (programAbort (carrierOff s p) p) p false).1

/-- The target of an entry's round (R261): with ALTAB it alternates, beginning with the one in PARAM. -/
def roundTargetB (s : State) (i : Nat) (e : Entry) : Bool :=
  if eBits e 55 1 1 = 1 then ((s.brm.altB.find? fun q => q.1 == i).map fun q => q.2).getD (eBits e 51 2 2 == 1)
  else eBits e 51 2 2 == 1

/-- No channel: more than any code of 14 bits. -/
def noChan : Nat := 2 ^ 14

/-- The round made ready on its channel: the entry is no longer held back, the first visit starts with the grant (R258, R259,
R286, R287); without a channel it ends DWELL at once, and the channel last used stays as it was. -/
def roundOpen (s : State) (p : RfPath) (r : Round) (ls : List Nat) : State :=
  let e := roundEntry s r
  let s0 := setFlag { s with brm := { s.brm with holds := s.brm.holds.filter fun j => j != r.entry } } (fRun p)
  let q := takeFirst s0 r.entry e r.paired p
  match q.1, ls with
  | none, _ => roundEnd (setRound q.2 p (some { r with chan := noChan })) p 4
  | some c, [] => roundEnd (setRound q.2 p (some { r with chan := c })) p 0
  | some c, l :: rest => cycleStart (visitRound q.2 p { r with chan := c, settleAt := q.2.clk.now } e l rest) p

/-- A grant of a UHF entry starts its round (R258). -/
def roundStart (s : State) (i : Nat) (p : RfPath) (paired : Bool) : State :=
  match entryAt s i with
  | none => s
  | some e =>
    let ls := entryLeaves s e
    roundOpen s p { entry := i, prog := if eByte e 54 = 0xFF then none else some (eByte e 54 % 16), paired := paired,
                    targetB := roundTargetB s i e } ls

/-- A grant of the immediate access starts its round (R277); one whose entry is no longer there ends ABORTED. It queries the target
in PARAM and leaves the alternation of ALTAB as it stands (log entry 39, DESIGN CHOICE). -/
def immStart (s : State) (p : RfPath) : State :=
  match s.brm.imm with
  | none => s
  | some (i, target, prog, rx, n) =>
    match entryAt s i with
    | none => immOver s 3 0
    | some e =>
      let ls := (leaves s target).filter fun k => rpKind s k == 1
      roundOpen s p { entry := i, immediate := true, prog := some prog, maxTags := n, rxMask := rx,
                      targetB := eBits e 51 2 2 == 1 } ls

/-! ### Immediate access -/

/-- A refusal of `BRM_IMM` (R277, R294). -/
def immRefuse (s : State) (reason : Nat) : State :=
  setFld (setFld (clrFld s Fld.BRM_IMMSTAT_TAGS) Fld.BRM_IMMSTAT_RESULT 2) Fld.BRM_IMMSTAT_REASON reason

/-- The checks of an immediate access, in order (R277). -/
def immReason (s : State) (entry target prog maxTags : Nat) : Nat :=
  firstFail
    [((entryAt s entry).any fun e => eClass e == 1, rsnRef),
     ((leaves s target).any fun n => rpKind s n == 1, rsnRef),
     (stepOp s prog 0 != 0, rsnRange),
     (maxTags != 0, rsnRange),
     (profile s != 0, rsnProfile)]

/-- The request of the immediate access accepted is posted once its consumer may post: after the release of the grant of the one
before it (R154, R277). One whose entry or leaves are gone by then ends ABORTED. -/
def immPost (s : State) : State :=
  if flag s Fld.BRM_IMMSTAT_BUSY && mayPost s .hostUhf && s.brm.imm.isSome then
    match immRequest s ((immPaths s).headD .a) with
    | some r => (postRequest s r).1
    | none => immOver s 3 0
  else s

/-- GO of `BRM_IMM` (R277); it is ignored while BUSY is 1. -/
def immGo (s : State) (v : Word) : State :=
  if flag s Fld.BRM_IMMSTAT_BUSY then s
  else
    let i := bitsOf v 30 21
    let t := bitsOf v 20 14
    let g := bitsOf v 13 10
    let n := bitsOf v 5 2
    let why := immReason s i t g n
    if why ≠ 0 then immRefuse s why
    else
      let s1 := { s with brm := { s.brm with imm := some (i, t, g, bitsOf v 9 6, n) } }
      immPost (setFlag (clrFld (clrFld (clrFld s1 Fld.BRM_IMMSTAT_TAGS) Fld.BRM_IMMSTAT_RESULT) Fld.BRM_IMMSTAT_REASON)
        Fld.BRM_IMMSTAT_BUSY)

/-- A write of `BRM_IMM` (R294). -/
def immWrite (s : State) (v : Word) : State :=
  let s1 := rsvCheck s Adr.BRM_IMM v
  if bitsOf v 31 31 = 1 then immGo s1 v else s1

def execImmediateAccess (lvl : Level) (value : Word) (s : State) : Host.Outcome State Fault Refusal :=
  next (asWrite s lvl Adr.BRM_IMM fun t => immWrite t value)

end Sys2Proof.Machine
end

