-- ==== Sys2Proof/Machine/Gorse.lean ====
section
/-! DEFINITION. Gorse, the field pings (R331–R336, R342). The measured value of a ping is an operand: real and imaginary part
in sense units, before the rotation of R332. The baseline is kept with 8 fraction bits (log entry 16). -/

namespace Sys2Proof.Machine

open Sys2Proof

/-- Integer square root from a bit downwards. -/
def isqrtFrom (n : Nat) : Nat → Nat → Nat
  | 0, r => r
  | b + 1, r => isqrtFrom n b (if (r + 2 ^ b) * (r + 2 ^ b) ≤ n then r + 2 ^ b else r)

/-- Integer square root of a number below 2^96. -/
def isqrt (n : Nat) : Nat := isqrtFrom n 48 0

/-- |x + iy|, rounded down. -/
def magnitude (x y : Int) : Nat := isqrt (x.natAbs * x.natAbs + y.natAbs * y.natAbs)

/-- Angles whose tangents are 1, 1/2, 1/4, … in units of 2^-32 turn. -/
def atanTable : List Nat :=
  [536870912, 316933406, 167458907, 85004756, 42667331, 21354465, 10679838, 5340245, 2670163, 1335087, 667544, 333772,
   166886, 83443, 41722, 20861, 10430, 5215, 2608, 1304, 652, 326, 163, 81]

/-- Turn a vector towards the positive real axis step by step; the angle turned, in units of 2^-32 turn. -/
def vectoring : List Nat → Nat → Int → Int → Int → Int
  | [], _, _, _, a => a
  | t :: ts, k, x, y, a =>
    if 0 ≤ y then vectoring ts (k + 1) (x + y / 2 ^ k) (y - x / 2 ^ k) (a + t)
    else vectoring ts (k + 1) (x - y / 2 ^ k) (y + x / 2 ^ k) (a - t)

/-- The angle of x + iy in 1/32,768 turn, 0 to 32,767. -/
def angle15 (x y : Int) : Nat :=
  let a : Int := if x < 0 then 2147483648 + vectoring atanTable 0 (-x * 65536) (-y * 65536) 0
    else vectoring atanTable 0 (x * 65536) (y * 65536) 0
  (((a + 65536) / 131072) % 32768).toNat

/-- Show the baseline in `GRS_BASE` (R342). -/
def setBase (s : State) (re im : Int) : State :=
  setFld (setFld { s with grs := { s.grs with re := re, im := im } } Fld.GRS_BASE_AMP (min 0xFFFF (magnitude re im / 256)))
    Fld.GRS_BASE_PHASE (angle15 re im)

/-- BASELINE_REBUILD (R333): the next 4 pings make the baseline. -/
def baselineRebuild (s : State) : State :=
  setFld (setFlag { s with grs := { s.grs with sum := [], confirm := false } } Fld.GRS_STAT_NOBASE) Fld.GRS_STAT_PEND 0

/-- A ping while the baseline is rebuilt: the fourth one gives the average (R333). -/
def rebuildPing (s : State) (re im : Int) : State :=
  let l := s.grs.sum ++ [(re, im)]
  if l.length < 4 then { s with grs := { s.grs with sum := l } }
  else
    let t := setBase { s with grs := { s.grs with sum := [] } } ((l.map fun p => p.1 * 256).sum / 4)
      ((l.map fun p => p.2 * 256).sum / 4)
    setFlag (clrFld t Fld.GRS_STAT_NOBASE) Fld.GRS_BASE_VALID

/-- dA and dP of a ping against the baseline (R332); with a baseline of amplitude 0 both are free (log entry 4). -/
def gorseDeltas (s : State) (re im : Int) : (Int × Int) × State :=
  let b := magnitude s.grs.re s.grs.im
  if b = 0 then
    let (w, s1) := drawWord s
    ((signedOf 16 (bitsOf w 31 16), signedOf 16 (bitsOf w 15 0)), s1)
  else
    let m := magnitude (re * 256) (im * 256)
    let cross := s.grs.re * (im * 256) - s.grs.im * (re * 256)
    ((((m : Int) - b) * 1024).tdiv b, (cross * 1024).tdiv (b * b : Nat)) |> fun d => (d, s)

/-- GORSE_DETECT (R335): GORSE packet, interrupt, wake and the entry it makes pending. -/
def gorseDetect (s : State) (da dp : Int) (overA overP : Bool) : State :=
  let s1 := incSat (setFlag s Fld.GRS_STAT_DETECT) Fld.GRS_CNT1_DETECT 1
  let w0 := 4 * 2 ^ 28 + fld s Fld.GRS_CFG_PORT * 2 ^ 27 + mode s * 2 ^ 24 + (if overA then 2 ^ 23 else 0) +
    (if overP then 2 ^ 22 else 0) + fld s Fld.GRS_CFG_CONFIRM * 2 ^ 19
  let ws := [BitVec.ofNat 32 w0] ++ q64Words (q64 s) ++
    [BitVec.ofNat 32 (unsignedOf 16 da * 2 ^ 16 + unsignedOf 16 dp), BitVec.ofNat 32 (fld s Fld.GRS_BASE_AMP * 2 ^ 16)]
  let s2 := admitPacket (raise { s1 with grs := { s1.grs with detected := true } } 40) 3 ws
  let s3 := if mode s = 2 then fireWake s2 2 else s2
  let i := fld s Fld.GRS_TRIG_ENTRY
  if i = 0x3FF ∨ s3.slate.pendingSet.contains i then s3
  else grantPoint { s3 with slate := { s3.slate with pendingSet := s3.slate.pendingSet ++ [i] } }

/-- A ping over the threshold: it counts towards CONFIRM, and the last one detects (R332). -/
def gorseOver (s : State) (da dp : Int) (overA overP : Bool) : State :=
  let n := fld s Fld.GRS_STAT_PEND + 1
  if n = fld s Fld.GRS_CFG_CONFIRM then
    gorseDetect (setFld { s with grs := { s.grs with confirm := false } } Fld.GRS_STAT_PEND 0) da dp overA overP
  else setFld { s with grs := { s.grs with confirm := true } } Fld.GRS_STAT_PEND n

/-- A ping under the threshold moves the baseline (R332). -/
def gorseUnder (s : State) (re im : Int) : State :=
  let k : Int := 2 ^ fld s Fld.GRS_CFG_ALPHA
  let t := setFld { s with grs := { s.grs with confirm := false } } Fld.GRS_STAT_PEND 0
  setBase t (s.grs.re + (re * 256 - s.grs.re) / k) (s.grs.im + (im * 256 - s.grs.im) / k)

/-- The amplitude is over its threshold, in the direction that ADIR asks for (R332). -/
def gorseOverA (s : State) (da : Int) : Bool :=
  let tha : Int := fld s Fld.GRS_THR_THA
  if flag s Fld.GRS_CFG_ADIR then tha ≤ -da else tha ≤ da.natAbs

/-- The quadrature is over its threshold (R332). -/
def gorseOverP (s : State) (dp : Int) : Bool := fld s Fld.GRS_THR_THP ≤ dp.natAbs

/-- A deviation as `GRS_MEAS` shows it. -/
def gorseSat (v : Int) : Int := clampInt (-32767) 32767 v

/-- `GRS_MEAS` of a ping. -/
def gorseShow (s : State) (d : Int × Int) : State :=
  setFld (setFld s Fld.GRS_MEAS_DA (unsignedOf 16 (gorseSat d.1))) Fld.GRS_MEAS_DP (unsignedOf 16 (gorseSat d.2))

/-- A measured ping counts as over the threshold or under it (R332). -/
def gorseJudge (s : State) (re im : Int) (d : Int × Int) : State :=
  if gorseOverA s d.1 || gorseOverP s d.2 then
    gorseOver s (gorseSat d.1) (gorseSat d.2) (gorseOverA s d.1) (gorseOverP s d.2)
  else gorseUnder s re im

/-- A ping with a baseline (R332). -/
def gorseMeasure (s : State) (re im : Int) : State :=
  let d := gorseDeltas s re im
  gorseJudge (gorseShow d.2 d.1) re im d.1

/-- Pings run now (R331). -/
def gorseRuns (s : State) : Bool :=
  flag s Fld.GRS_CFG_EN &&
    ((mode s == 2 && flag s Fld.SYS_MODECTL_GORSE) || ((mode s == 3 || mode s == 4) && flag s Fld.GRS_CFG_ACTEN))

/-- The highest drive step whose nominal power the driver can deliver: +30 dBm at 4.75 V and above, +26 dBm at 3.0 V, linear in dB
between them (R299, R300). -/
def hfTopStep : Nat := 127 - (16 * (4750 - max 3000 Config.vddhf) + 1749) / 1750

/-- A step above the deliverable level delivers that level, and DRVLIM is set (R300). -/
def driveLimit (s : State) (step : Nat) : State := if hfTopStep < step then setFlag s Fld.HF_STAT_DRVLIM else s

/-- One ping (R300, R331–R333). -/
def gorsePing (s : State) (re im : Int) : State :=
  let s1 := driveLimit (setFld s Fld.GRS_CNT0_PINGS (satAdd 0xFFFFFFFF (fld s Fld.GRS_CNT0_PINGS) 1)) (fld s Fld.GRS_CFG_DRIVE)
  if flag s1 Fld.GRS_STAT_NOBASE then rebuildPing s1 re im else gorseMeasure s1 re im

/-- A ping as its turn comes: pings still run, and no field is on (R331, R334). -/
def gorsePingRun (s : State) (re im : Int) : State :=
  if gorseRuns s && !flag s Fld.HF_STAT_FIELD then gorsePing s re im else s

/-- A confirming ping as its turn comes (R332). -/
def confirmPingRun (s : State) (re im : Int) : State := if s.grs.confirm then gorsePingRun s re im else s

/-- The C3 request for HFD of a ping, and of the refresh (R334). -/
def gorseRequest (who : Consumer) : Request := { who := who, cls := .c3, mask := 2 ^ resHfd, kind := .gorsePing, air := .hf }

/-- A ping falls due: in ACTIVE and RADIO it takes its turn on HFD (R334). -/
def execGorsePing (re im : Int) (s : State) : Host.Outcome State Fault Refusal :=
  next (if gorseRuns s then turn s (gorseRequest .gorse) (.gorsePing re im) fun t => gorsePingRun t re im else s)

/-- The next confirming ping, 2 ms after one over the threshold (R332). -/
def execConfirmPing (re im : Int) (s : State) : Host.Outcome State Fault Refusal :=
  next (if gorseRuns s && s.grs.confirm then
      turn s (gorseRequest .gorse) (.confirmPing re im) fun t => confirmPingRun t re im
    else s)

/-- The pings that wait go, with their request. -/
def pingDrop (s : State) : State :=
  withdraw { s with sched := { s.sched with ops := s.sched.ops.filter fun o => o.req.who != .gorse } } .gorse

/-- A ping not granted in time is skipped (R334). -/
def execPingSkip (s : State) : Host.Outcome State Fault Refusal :=
  next (if s.sched.ops.any fun o => o.req.who == .gorse then
      cxPost (incSat (setFlag (pingDrop s) Fld.GRS_STAT_SKIPPED) Fld.GRS_CNT1_SKIP 1)
    else s)

/-- Entry to WATCH (R333). -/
def gorseWatch (s : State) : State :=
  if s.grs.detected && flag s Fld.GRS_CFG_ADOPT then
    baselineRebuild { s with grs := { s.grs with detected := false } }
  else s

end Sys2Proof.Machine
end

