-- ==== Sys2Proof/Machine/Hf.lean ====
section
/-! DEFINITION. The HF reader: the field, polling visits, anticollision, activation, and host sessions (R298–R330, R337–R340). -/

namespace Sys2Proof.Machine

open Sys2Proof

/-! ### The engine's working state -/

def setVisit (s : State) (v : Option HfVisit) : State := { s with hf := { s.hf with visit := v } }

/-- The entry a visit serves. -/
def hfEntry (s : State) (v : HfVisit) : Entry := (entryAt s v.entry).getD []

/-! ### Frames on the air -/

/-- `HF_DRV` as it was at the last field-on (R303). -/
def hfDrv (s : State) : Word := s.hf.drive.elim (reg s Adr.HF_DRV) fun d => d.drv

/-- How the frames of a visit go out (R304): indices of `HF_DRV`, the rates in use, and the options of the entry. -/
def hfFraming (s : State) (v : HfVisit) : HfFraming :=
  let e := hfEntry s v
  let drv (f : Field) : Nat := bitsOf (hfDrv s) f.hi f.lo
  match eClass e with
  | 2 => { dr := v.dr, ds := v.ds }
  | 3 => { index := drv Fld.HF_DRV_BMOD, dr := v.dr, ds := v.ds }
  | 4 => { index := if drv Fld.HF_DRV_V100 = 1 then 100 else drv Fld.HF_DRV_VMOD
           wide := eBits e 48 0 0 == 1, fast := eBits e 48 1 1 == 1, dual := eBits e 48 2 2 == 1 }
  | _ => { index := drv Fld.HF_DRV_FMOD, dr := 1 + eBits e 48 0 0, ds := 1 + eBits e 48 0 0 }

/-- CLK100 cycles of a number of carrier cycles at 13.56 MHz, rounded up. -/
def fcTime (n : Nat) : Nat := (n * 2500 + 338) / 339

/-- Octets of a reader frame, its CRC with them (the standards', log entry 46). -/
def hfOctets : HfCmd → Nat
  | .reqa _ => 0
  | .anticollision _ _ _ => 2
  | .select _ _ => 9
  | .hlta => 4
  | .rats _ => 4
  | .reqb _ _ _ => 5
  | .slotMarker _ => 3
  | .attrib _ _ _ _ => 11
  | .hltb _ => 7
  | .inventory _ afi n _ => 5 + (if afi.isSome then 1 else 0) + (n + 7) / 8
  | .nextSlot => 0
  | .stayQuiet _ => 12
  | .aes1 _ _ _ => 23
  | .aes2 _ _ => 30
  | .sensf _ _ _ => 8
  | .pps _ _ => 5
  | .sParam _ _ => 13
  | .iBlock _ _ inf => 3 + inf.length
  | .rAck _ => 3
  | .rNak _ => 3
  | .wtx _ => 4
  | .deselect => 3
  | .raw crc _ bytes => bytes.length + if crc then 2 else 0

/-- Bits of a Type A frame, parity and the start and end of communication with them (log entry 46). -/
def bitsA (c : HfCmd) : Nat :=
  match c with
  | .reqa _ => 9
  | .anticollision _ known _ => 20 + known + known / 8
  | _ => 9 * hfOctets c + 2

/-- The length of a reader frame in carrier cycles, by class: Type A and B at 128/2^dr cycles a bit; ISO/IEC 15693 with its SOF and
EOF, an empty frame being an EOF alone; NFC-F with preamble and SYNC (log entry 46). -/
def hfCycles (cls : Nat) (f : HfFraming) (c : HfCmd) : Nat :=
  match cls with
  | 2 => bitsA c * (128 / 2 ^ f.dr)
  | 3 => (10 * hfOctets c + 24) * (128 / 2 ^ f.dr)
  | 4 => if c = .nextSlot then 512 else 1536 + hfOctets c * if f.wide then 65536 else 4096
  | _ => (64 + 8 * hfOctets c) * (128 / 2 ^ f.dr)

/-- The end of a reader frame that starts as soon as it may (R307). -/
def hfFrameEnd (s : State) (v : HfVisit) (c : HfCmd) : Nat :=
  max s.clk.now s.hf.nextAt + fcTime (hfCycles (eClass (hfEntry s v)) (hfFraming s v) c)

/-- Put a reader frame on the air (R304); the next one starts after it. -/
def hfEmit (s : State) (v : HfVisit) (c : HfCmd) : State :=
  { s with hf := { s.hf with sent := s.hf.sent ++ [c], framing := hfFraming s v, nextAt := hfFrameEnd s v c } }

/-- A frame with an answer window of its own (R307, R321, R325). -/
def hfAsk (s : State) (v : HfVisit) (c : HfCmd) (window : Nat) : State :=
  { hfEmit s v c with hf := { (hfEmit s v c).hf with answerBy := some (hfFrameEnd s v c + window) } }

/-- A frame that halts a card; 1 ms later comes the next one (R307). -/
def hfHalt (s : State) (v : HfVisit) (c : HfCmd) : State :=
  { hfEmit s v c with hf := { (hfEmit s v c).hf with nextAt := hfFrameEnd s v c + ms 1 } }

/-- No reader frame starts for a time from now, in cycles (R307, R318). -/
def hfPause (s : State) (n : Nat) : State := { s with hf := { s.hf with nextAt := max s.hf.nextAt (s.clk.now + n) } }

/-- A new step: nothing sent yet. -/
def hfQuiet (s : State) : State := { s with hf := { s.hf with sent := [] } }

/-- The consumer whose grant a visit uses. -/
def hfConsumer (v : HfVisit) : Consumer :=
  if v.session then .hostHf else if h : v.entry < 1024 then .entry ⟨v.entry, h⟩ else .hostHf

def hfGrant (s : State) (v : HfVisit) : Option Grant := grantOf s (hfConsumer v)

/-- The lease of the visit is ending (R151). -/
def hfWarned (s : State) (v : HfVisit) : Bool := (hfGrant s v).elim false fun g => g.warned

/-! ### The field -/

/-- PRESn: the port is usable (R298). -/
def hfPresent (s : State) (port : Nat) : Bool := flag s (if port = 0 then Fld.HF_CFG_PRES0 else Fld.HF_CFG_PRES1)

/-- MAXSTEPn (R299). -/
def hfMaxStep (s : State) (port : Nat) : Nat := fld s (if port = 0 then Fld.HF_DRV_MAXSTEP0 else Fld.HF_DRV_MAXSTEP1)

/-- Field on (R299–R301): the port's tuning and the step are loaded for as long as the field is on. A step never exceeds the port's
MAXSTEPn: an OPEN whose ENTRY asks for more on a port of its TARGET gets MAXSTEPn (DESIGN CHOICE, log entry 44). -/
def hfFieldOn (s : State) (port step0 : Nat) : State :=
  let step := min step0 (hfMaxStep s port)
  let s1 := setFld (setFlag s Fld.HF_STAT_FIELD) Fld.HF_STAT_PORT port
  let d : HfDrive := { tune := reg s (Adr.CAL_HFTUNE port), step := step, drv := reg s Adr.HF_DRV }
  let s2 := { s1 with hf := { s1.hf with drive := some d, nextAt := s.clk.now } }
  driveLimit s2 step

/-- Field off: the port's minimum off time starts (R302). -/
def hfFieldOff (s : State) : State :=
  if flag s Fld.HF_STAT_FIELD then
    let s1 := clrFld s Fld.HF_STAT_FIELD
    { s1 with hf := { s1.hf with
      foff := s1.hf.foff.setIfInBounds (fld s Fld.HF_STAT_PORT) (some s.clk.now)
      drive := none
      answerBy := none
      fwt := 0
      wtx := 0 } }
  else s

/-- The minimum field-off time of a port runs (R302). -/
def foffRuns (s : State) (port : Nat) : Bool :=
  (s.hf.foff[port]?.getD none).elim false fun t => s.clk.now < t + us (100 * fld s Fld.HF_CFG_FOFF)

/-- A visit to a leaf starts (R302, R306): the field comes on, at once or after FOFF. -/
def hfVisitStart (s : State) (v : HfVisit) : State :=
  let port := rpPort s v.leaf
  if foffRuns s port then setVisit s (some { v with phase := .foff })
  else hfFieldOn (setVisit s (some { v with phase := .guard })) port (ePower (hfEntry s v))

/-- The visit to a leaf that waits for nothing any more starts (R302, R306). -/
def hfNextLeaf (s : State) : State :=
  match s.hf.visit with
  | some v => if v.phase = .foff ∧ ¬foffRuns s (rpPort s v.leaf) then hfVisitStart s v else s
  | none => s

/-- The leaves whose port is usable (R298); the others are passed over (DESIGN CHOICE, log entry 44). -/
def hfUsable (s : State) (l : List Nat) : List Nat := l.filter fun n => hfPresent s (rpPort s n)

/-! ### Ends -/

/-- HF_ABORT and its counts (R330). -/
def hfAbortFlags (s : State) (reason : Nat) (session : Bool) : State :=
  if (4 ≤ reason ∧ reason ≤ 9) ∨ reason = 11 ∨ (reason = 3 ∧ session) then
    incSat (setFlag (raise s 39) Fld.HF_STAT_ABORT) Fld.HF_CNT1_ABORTS 1
  else s

/-- Words of bytes, the first byte in [31:24], padded with zeros. -/
def packBe : List Byte → List Word
  | a :: b :: c :: d :: l => BitVec.ofNat 32 (beNat [a, b, c, d]) :: packBe l
  | [] => []
  | l => [BitVec.ofNat 32 (beNat (l ++ List.replicate (4 - l.length) 0))]

/-- The POLL packet (R329). -/
def pollWords (s : State) (v : HfVisit) (reason : Nat) : List Word :=
  BitVec.ofNat 32 (2 * 2 ^ 28 + v.leaf * 2 ^ 22 + eClass (hfEntry s v) * 2 ^ 18 + reason * 2 ^ 14 + min 63 v.cards * 2 ^ 8 +
      (if v.more then 2 ^ 7 else 0)) ::
    q64Words (q64 s) ++
    [BitVec.ofNat 32 (min 0xFFFF v.collisions * 2 ^ 16 + min 0xFFFF ((s.clk.now - v.startedAt) / 10000))]

/-- The SESSION packet (R329). -/
def sessionWords (s : State) (v : HfVisit) (result reason wtx retrans rxlen : Nat) : List Word :=
  BitVec.ofNat 32 (3 * 2 ^ 28 + v.leaf * 2 ^ 22 + v.op * 2 ^ 19 + result * 2 ^ 16 + reason * 2 ^ 8) ::
    q64Words (q64 s) ++ [BitVec.ofNat 32 (min 255 wtx * 2 ^ 24 + min 255 retrans * 2 ^ 16 + rxlen)]

/-- S(WTX) and retry counts of the exchange in hand. -/
def hfCounts (v : HfVisit) : Nat × Nat :=
  match v.phase with
  | .xchg x => (x.wtx, x.retrans)
  | _ => (0, 0)

/-- A session command ends with a result (R326, R327, R329). -/
def hfResult (s : State) (v : HfVisit) (result reason rxlen : Nat) : State :=
  let s1 := setFld (setFld (clrFld s Fld.HF_IMMSTAT_BUSY) Fld.HF_IMMSTAT_RESULT result) Fld.HF_IMMSTAT_REASON reason
  let c := hfCounts v
  admitPacket s1 3 (sessionWords s1 v result reason c.1 c.2 rxlen)

/-- A session ends other than by CLOSE (R327): with a command in hand, that command ends too. -/
def hfSessionEnd (s : State) (v : HfVisit) (reason : Nat) : State :=
  let busy := flag s Fld.HF_IMMSTAT_BUSY
  let s1 := hfAbortFlags (setFld (setVisit (hfFieldOff s) none) Fld.HF_STAT_LASTEND reason) reason true
  let s2 := clrFld (clrFld s1 Fld.HF_IMMSTAT_OPEN) Fld.HF_IMMSTAT_ACT
  if busy then hfResult s2 v 5 reason 0
  else setFld (setFld s2 Fld.HF_IMMSTAT_RESULT 5) Fld.HF_IMMSTAT_REASON reason

/-- HF_VISIT_END (R306, R310, R329): the field goes off, the POLL packet is written, and the poll goes on to the next leaf after
COMPLETE, DWELL or MAXCARDS, whose field comes on at once or after FOFF (`hfNextLeaf`). A session's polling that found no card ends NOCARD after its last leaf (R327). -/
def hfVisitEnd (s : State) (v : HfVisit) (reason : Nat) : State :=
  if v.session ∧ 2 < reason then hfSessionEnd s v reason
  else
    let s1 := setFld (hfFieldOff s) Fld.HF_STAT_LASTEND reason
    let s2 := if v.session then s1
      else
        let t := incSat (hfAbortFlags s1 reason false) Fld.HF_CNT0_POLLS 1
        if (eReport (hfEntry s v)).testBit 3 ∧ (v.cards ≠ 0 ∨ reason ≠ 0) then admitPacket t 3 (pollWords t v reason) else t
    match hfUsable s v.leaves with
    | l :: ls =>
      if reason ≤ 2 then
        setVisit s2 (some { entry := v.entry, session := v.session, leaf := l, leaves := ls, startedAt := s.clk.now,
                            phase := .foff, op := v.op })
      else setVisit s2 none
    | [] => if v.session then hfResult (setVisit s2 none) v 3 0 0 else setVisit s2 none

/-! ### Cards -/

/-- The class's card limit (R306). -/
def hfCardLimit (s : State) (v : HfVisit) : Nat :=
  if eClass (hfEntry s v) = 2 then eByte (hfEntry s v) 51 else fld s Fld.HF_ACOL_MAXV

/-- A card identified now (R308). -/
def hfSeen (s : State) (c : HfCard) : HfCard := { c with q64 := q64 s, at_ := s.clk.now }

/-- The CARD packet (R329). -/
def cardWords (s : State) (v : HfVisit) (c : HfCard) (act : Bool) (dr ds auth : Nat) : List Word :=
  BitVec.ofNat 32 (1 * 2 ^ 28 + v.leaf * 2 ^ 22 + (eClass (hfEntry s v) - 2) * 2 ^ 19 + c.uid.length * 2 ^ 15 +
      (if act then 2 ^ 14 else 0) + (if c.dup then 2 ^ 13 else 0) + ds * 2 ^ 10 + dr * 2 ^ 7 + auth * 2 ^ 5) ::
    q64Words c.q64 ++ [BitVec.ofNat 32 (c.w3 * 2 ^ 8 + c.extra.length)] ++
    packBe (c.uid ++ List.replicate (12 - c.uid.length) 0) ++ packBe c.extra

/-- A card is found (R308): a read on its way to the table, HF_CARD, CARDS, and the CARD packet where REPORT asks for it. -/
def hfCard (s : State) (v : HfVisit) (c : HfCard) (act : Bool) (dr ds auth : Nat) : State × HfVisit :=
  let e := hfEntry s v
  let s1 := incSat (raise s 38) Fld.HF_CNT0_CARDS 1
  let s2 := if fld s (Fld.RP_FILT_RSSIMIN v.leaf) < 0xFF then s1
    else { s1 with sgt := { s1.sgt with waiting := s1.sgt.waiting ++
      [{ tech := eClass e - 1, id := c.uid, rp := v.leaf, q64 := c.q64, at_ := c.at_, level := 0xFF, dup := c.dup,
         hold := eHold e, report := eReport e }] } }
  let s3 := if (eReport e).testBit 3 then admitPacket s2 3 (cardWords s2 v c act dr ds auth) else s2
  (s3, { v with cards := v.cards + 1 })

/-- The work of a visit stops in time (R307, R310): cards identified and not yet dealt with are reads all the same (R308). -/
def hfStop (s : State) (v : HfVisit) (reason : Nat) : State :=
  let r := v.queue.foldl (fun t c => hfCard t.1 t.2 c false 0 0 0) (s, { v with queue := [] })
  hfVisitEnd r.1 r.2 reason

/-! ### Sending -/

/-- The latest end of an answer window (R307): the visit's deadline and the start of the lease warning. The card in hand is finished
after the warning too, within the lease (R310). -/
def hfLimit (s : State) (v : HfVisit) : Nat :=
  let d := v.startedAt + us (100 * eDwell (hfEntry s v))
  match hfGrant s v with
  | some g => min d (if g.warned then g.until_ else g.until_ - warnOf g.kind)
  | none => d

/-- The answer window of a frame ends in time (R307). -/
def hfFits (s : State) (v : HfVisit) (c : HfCmd) (window : Nat) : Bool := hfFrameEnd s v c + window ≤ hfLimit s v

/-- Send a frame for the card in hand and wait in a phase, if its answer window ends in time; else the visit ends (R307, R310). -/
def hfGoOn (s : State) (v : HfVisit) (c : HfCmd) (ph : HfPhase) (window : Nat) : State :=
  if hfFits s v c window then hfAsk (setVisit s (some { v with phase := ph })) v c window
  else hfStop s v (if hfWarned s v then 3 else 1)

/-- The same for a new frame, which is not started after a lease warning (R310). -/
def hfGo (s : State) (v : HfVisit) (c : HfCmd) (ph : HfPhase) (window : Nat) : State :=
  if hfWarned s v then hfStop s v 3 else hfGoOn s v c ph window

/-- The same for a card already identified, which is a read also where its frame no longer fits (R308). -/
def hfGoCard (s : State) (v : HfVisit) (c : HfCard) (f : HfCmd) (ph : HfPhase) (window : Nat) : State :=
  if hfFits s v f window then hfGoOn s v f ph window
  else hfStop s { v with queue := c :: v.queue } (if hfWarned s v then 3 else 1)

/-- Answer windows (R307): Type A and B; ATS and ATTRIB. -/
def winAB : Nat := us 400
def winAts : Nat := us 8460

/-- The window of an ISO/IEC 15693 slot at the rate in use, and of the first answer to a custom request (log entry 46). -/
def winV (s : State) (v : HfVisit) : Nat := fcTime (4384 + if (hfFraming s v).fast then 2048 else 8192)
def winAes : Nat := us 1513

/-- The window of a SENSF_REQ with a number of time slots (log entry 46). -/
def winF (slots : Nat) : Nat := fcTime (64 * (512 + 256 * slots))

/-- The window of a block: FWT and 49,152/fc after its end (R321). -/
def winBlock (s : State) : Nat := s.hf.fwt + fcTime 49152

/-- The window of the S(DESELECT) of a poll (log entry 46). -/
def winDesel : Nat := fcTime 65536

/-- The session keeps the card: OPEN ends OK (R325, R327); at a lease warning the session ends at once (R323). -/
def hfKeep (s : State) (v : HfVisit) (act : Bool) : State :=
  let v1 := { v with phase := .open_, stack := [], masks := [], queue := [] }
  let s1 := hfResult (setFld (setFlag (setVisit s (some v1)) Fld.HF_IMMSTAT_OPEN) Fld.HF_IMMSTAT_ACT (if act then 1 else 0))
    v 1 0 0
  if hfWarned s1 v1 then hfSessionEnd s1 v1 3 else s1

/-- ACTIVATE of the entry (R309). -/
def hfActivate (s : State) (v : HfVisit) : Bool := eBits (hfEntry s v) 50 0 0 == 1

/-! ### Type A (R311–R315) -/

/-- ANTICOLLISION from a branch, or SELECT alone where all 32 bits are known (R311, R312); a branch of a card in hand goes on after
the lease warning too (R310). -/
def hfBranch (s : State) (v : HfVisit) (b : HfBranch) (inHand : Bool) : State :=
  let go := if inHand then hfGoOn s v else hfGo s v
  if 32 ≤ b.known then go (.select b.level (leBytes 4 (b.bits.toNat % 2 ^ 32))) (.selA b.level b.uid b.bits) winAB
  else go (.anticollision b.level b.known b.bits) (.anti b false) winAB

/-- The first request of a visit, or the next one (R315). -/
def hfReqA (s : State) (v : HfVisit) : State :=
  hfGo s { v with first := false } (.reqa (v.first && flag s Fld.HF_CFG_WUP)) .reqA winAB

/-- On to the next branch, or to another request (R311, R315), or the end at the card limit (R306); after a lease warning the visit ends
(R310). -/
def hfNextA (s : State) (v : HfVisit) : State :=
  if hfWarned s v then hfVisitEnd s v 3
  else if hfCardLimit s v ≤ v.cards then hfVisitEnd s v 2
  else match v.stack with
    | b :: bs => hfBranch s { v with stack := bs } b false
    | [] => hfReqA s v

/-- Count collisions of a visit (R313, R316). -/
def hfCollide (s : State) (v : HfVisit) : State × HfVisit :=
  (incSat s Fld.HF_CNT1_COLLIDE 1, { v with collisions := v.collisions + 1 })

/-- The 32 UID bits agree with the 8 BCC bits. -/
def bccGood (bits : BitVec 40) : Bool :=
  match leBytes 5 bits.toNat with
  | [a, b, c, d, e] => a ^^^ b ^^^ c ^^^ d == e
  | _ => false

/-- An ANTICOLLISION answer (R311–R313). -/
def hfAnticol (s : State) (v : HfVisit) (b : HfBranch) (repeated : Bool) (bits : BitVec 40) (col : Option (Fin 40)) : State :=
  let fail :=
    if repeated then
      let r := hfCollide s v
      hfNextA r.1 r.2
    else hfGoOn s v (.anticollision b.level b.known b.bits) (.anti b true) winAB
  match col with
  | none => if bccGood bits then hfBranch s v { b with known := 32, bits := bits } true else fail
  | some p =>
    if p.val < 32 then
      let r := hfCollide s v
      let first := flag s Fld.HF_ACOL_FIRST
      let known := bits.toNat % 2 ^ p.val
      let with_ (x : Bool) : HfBranch :=
        { b with known := p.val + 1, bits := BitVec.ofNat 40 (known + if x then 2 ^ p.val else 0) }
      let v1 := if r.2.stack.length < 16 then { r.2 with stack := with_ (!first) :: r.2.stack } else { r.2 with more := true }
      hfBranch r.1 v1 (with_ first) true
    else fail

/-- A Type A card that is complete and not activated: reported, kept by a session, else halted (R309, R315). Type A cards do not queue. -/
def hfDoneA (s : State) (v : HfVisit) (c : HfCard) : State :=
  let r := hfCard s { v with queue := [] } c false 0 0 0
  if v.session then hfKeep r.1 r.2 false else hfNextA (hfHalt r.1 r.2 .hlta) r.2

/-- A SAK (R311, R314). -/
def hfSak (s : State) (v : HfVisit) (level : Nat) (uid : List Byte) (bits : BitVec 40) (sak : Byte) (collided : Bool) :
    State :=
  let four := leBytes 4 (bits.toNat % 2 ^ 32)
  if sak.toNat.testBit 2 ∧ !collided ∧ level < 3 then
    hfBranch s v { level := level + 1, uid := uid ++ four.drop 1, known := 0, bits := 0 } true
  else
    let c : HfCard := hfSeen s { uid := uid ++ four, w3 := v.atqa * 2 ^ 8 + sak.toNat, dup := collided }
    if hfActivate s v ∧ sak.toNat.testBit 5 ∧ !collided then
      hfGoCard s v c (.rats (eBits (hfEntry s v) 50 7 4)) (.rats c) winAts
    else hfDoneA s v c

/-! ### Activation (R318–R321) -/

/-- FWT in CLK100 cycles (R321). -/
def fwtOf (fwi : Nat) : Nat := 4096 * 2 ^ (if fwi = 15 then 4 else fwi) * 10000 / 1356

/-- Frame size of an FSCI (R318). -/
def fscOf (fsci : Nat) : Nat := [16, 24, 32, 40, 48, 64, 96, 128, 256].getD (min 8 fsci) 256

/-- A card announces a rate (R319): fc/128 always, fc/64 to fc/16 by three bits, those above by S(PARAMETERS), which names the highest;
a card with fc/4 has fc/8 too (DESIGN CHOICE, log entry 44). -/
def announced (bits top rate : Nat) : Bool := rate == 0 || (if rate ≤ 3 then bits.testBit (rate - 1) else rate ≤ top)

/-- The highest rate up to a limit that is allowed. -/
def topRate (limit : Nat) (ok : Nat → Bool) : Nat := ((List.range (limit + 1)).filter ok).getLastD 0

/-- The rates of the two directions, reader to card first (R319): the highest that the entry allows and the card announces; above fc/16
only through S(PARAMETERS), and to the reader only beside such a rate to the card (R305). A card that asks for one rate both ways gets
the highest that it announces for both. -/
def hfRates (s : State) (v : HfVisit) (ann : Nat) (sparam : Option (Fin 6 × Fin 5)) : Nat × Nat :=
  let e := hfEntry s v
  let hi : Nat × Nat := if flag s Fld.HF_ISO4_SPAR then (sparam.map fun p => (p.1.val, p.2.val)).getD (0, 0) else (0, 0)
  let toCard := announced ann hi.1
  let toReader := announced (ann / 16) hi.2
  let dr := topRate (eBits e 48 2 0) toCard
  let ds := topRate (if dr < 4 then min 3 (eBits e 49 2 0) else eBits e 49 2 0) toReader
  if ann.testBit 7 ∧ dr ≤ 3 then
    let both := topRate (min (eBits e 48 2 0) (eBits e 49 2 0)) fun r => toCard r && toReader r && r ≤ 3
    (both, both)
  else (dr, ds)

/-- SFGT in CLK100 cycles: that of SFGI 1 to 14, none otherwise (R318). -/
def sfgtOf (sfgi : Nat) : Nat := if sfgi = 0 ∨ sfgi = 15 then 0 else fcTime (4096 * 2 ^ sfgi)

/-- A card is activated: reported; kept by a session, else released with S(DESELECT) (R309, R318). -/
def hfActivated (s : State) (v : HfVisit) (c : HfCard) (r : Nat × Nat) : State :=
  let k := hfCard s { v with dr := r.1, ds := r.2, num := false } c true r.1 r.2 0
  if v.session then hfKeep k.1 k.2 true else hfGoOn k.1 k.2 .deselect .desel winDesel

/-- The rates of an activation are set (R319): fc/8 and fc/4 by S(PARAMETERS), those up to fc/16 by PPS for Type A; Type B has had
Param 2. Nothing is sent where the rates in use stay. -/
def hfSetRates (s : State) (v : HfVisit) (c : HfCard) (r old : Nat × Nat) : State :=
  if r = old then hfActivated s v c r
  else hfGoCard s v c (if 4 ≤ r.1 ∨ 4 ≤ r.2 then .sParam r.1 r.2 else .pps r.1 r.2) (.rate c r old) (winBlock s)

/-- What an activation answers: FWT and FSC are in force, and SFGT passes first (R318). -/
def hfParams (s : State) (v : HfVisit) (fwi fsci sfgi : Nat) : State × HfVisit :=
  (hfPause { s with hf := { s.hf with fwt := fwtOf fwi } } (sfgtOf sfgi), { v with fsc := fscOf fsci })

/-- An ATS: T0, TA and TB as ISO/IEC 14443-4 lays them out (R318). -/
def hfAts (s : State) (v : HfVisit) (c : HfCard) (bytes : List Byte) (sparam : Option (Fin 6 × Fin 5)) : State :=
  let t0 := if bytes.length ≤ 1 then 2 else (bytes.getD 1 0).toNat
  let ta := if t0.testBit 4 then (bytes.getD 2 0).toNat else 0
  let tb := if t0.testBit 5 then (bytes.getD (if t0.testBit 4 then 3 else 2) 0).toNat else 0x40
  let k := hfParams s v (tb / 16) (t0 % 16) (tb % 16)
  hfSetRates k.1 k.2 { c with extra := bytes } (hfRates s v ta sparam) (0, 0)

/-! ### Type B (R316) -/

/-- REQB or WUPB of a round. -/
def hfReqB (s : State) (v : HfVisit) : State :=
  hfGo s { v with first := false, hit := false, queue := [] }
    (.reqb (v.first && flag s Fld.HF_CFG_WUP) (eByte (hfEntry s v) 51) v.bN) (.slotB 0) winAB

/-- The rates that Param 2 of ATTRIB asks for (R319). -/
def hfRatesB (s : State) (v : HfVisit) (c : HfCard) : Nat × Nat := hfRates s v (c.proto.getD 0 0).toNat none

/-- ATTRIB for a Type B card (R318, R319). -/
def hfAttrib (s : State) (v : HfVisit) (c : HfCard) : HfCmd :=
  .attrib c.uid (eBits (hfEntry s v) 50 7 4) (hfRatesB s v c).1 (hfRatesB s v c).2

/-- Deal with the cards of a round one after another (R309, R316), none after a lease warning (R310): an activation waits for its
answer. -/
def hfDealB (s : State) (v : HfVisit) : List HfCard → State
  | [] =>
    if hfWarned s v then hfVisitEnd s v 3
    else if hfCardLimit s v ≤ v.cards then hfVisitEnd s v 2
    else if v.hit ∧ v.rounds < fld s Fld.HF_ACOL_BROUNDS then
      hfReqB s { v with rounds := v.rounds + 1, bN := min 4 (v.bN + 1), queue := [] }
    else hfVisitEnd s v 0
  | c :: q =>
    if hfWarned s v then hfStop s { v with queue := c :: q } 3
    else if hfCardLimit s v ≤ v.cards then hfVisitEnd s v 2
    else if hfActivate s v ∧ ((c.proto.getD 1 0).toNat).testBit 0 then
      hfGoCard s { v with queue := q } c (hfAttrib s v c) (.attrib c) winAts
    else
      let r := hfCard s { v with queue := q } c false 0 0 0
      if v.session then hfKeep r.1 r.2 false else hfDealB (hfHalt r.1 r.2 (.hltb c.uid)) r.2 q

/-- The next slot of a Type B round, or the cards of the round. -/
def hfNextB (s : State) (v : HfVisit) (slot : Nat) : State :=
  if slot + 1 < 2 ^ v.bN then hfGo s v (.slotMarker (slot + 1)) (.slotB (slot + 1)) winAB else hfDealB s v v.queue

/-! ### ISO/IEC 15693 (R316, R317) -/

/-- An Inventory with a mask. -/
def hfInventory (s : State) (v : HfVisit) (one : Bool) (len mask : Nat) : State :=
  let e := hfEntry s v
  hfGo s { v with queue := [], first := false }
    (.inventory one (if eBits e 49 1 1 = 1 then some (eByte e 50) else none) len mask) (.slotV one len mask 0) (winV s v)

/-- The tag takes part in the AES exchange (R317). -/
def hfAuths (s : State) (v : HfVisit) (c : HfCard) : Bool :=
  eKeyref (hfEntry s v) != 0xFF && leNat c.uid / 2 ^ 48 == 0xE0C7

/-- Deal with the tags of an inventory round, then with the next collided slot (R309, R316, R317), none after a lease warning
(R310). -/
def hfDealV (s : State) (v : HfVisit) : List HfCard → State
  | [] =>
    if hfWarned s v then hfVisitEnd s v 3
    else if hfCardLimit s v ≤ v.cards then hfVisitEnd s v 2
    else match v.masks with
      | m :: ms => hfInventory s { v with masks := ms } false m.1 m.2
      | [] => hfVisitEnd s v 0
  | c :: q =>
    if hfWarned s v then hfStop s { v with queue := c :: q } 3
    else if hfCardLimit s v ≤ v.cards then hfVisitEnd s v 2
    else if hfAuths s v c then
      let d := drawRandom s
      let rnr := leBytes 8 (d.1.toNat % 2 ^ 64)
      hfGoCard d.2 { v with queue := q } c (.aes1 (leNat c.uid) (eKeyref (hfEntry s v)) rnr) (.authV1 c rnr) winAes
    else
      let r := hfCard s { v with queue := q } c false 0 0 0
      if v.session then hfKeep r.1 r.2 false else hfDealV (hfHalt r.1 r.2 (.stayQuiet (leNat c.uid))) r.2 q

/-- The next slot of an Inventory, or the tags of the round. -/
def hfNextV (s : State) (v : HfVisit) (one : Bool) (len mask slot : Nat) : State :=
  if !one ∧ slot < 15 then hfGo s v .nextSlot (.slotV one len mask (slot + 1)) (winV s v) else hfDealV s v v.queue

/-- A collided slot: its mask is resolved before those found earlier, in ascending slot order; 1-slot mode turns to 16 slots
(R316). -/
def hfCollideV (s : State) (v : HfVisit) (one : Bool) (len mask slot : Nat) : State :=
  let r := hfCollide s v
  if one then hfInventory r.1 r.2 false len mask
  else
    let kids := r.2.masks.takeWhile fun m => m.1 == len + 4
    let rest := r.2.masks.drop kids.length
    let v1 := if 60 < len + 4 then { r.2 with more := true }
      else { r.2 with masks := kids ++ [(len + 4, mask + slot * 2 ^ len)] ++ rest }
    hfNextV r.1 v1 one len mask slot

/-- A tag whose exchange is over is reported with its outcome (R317). -/
def hfAuthEnd (s : State) (v : HfVisit) (c : HfCard) (auth : Nat) : State :=
  let r := hfCard s v c false 0 0 auth
  if v.session then hfKeep r.1 r.2 false else hfDealV (hfHalt r.1 r.2 (.stayQuiet (leNat c.uid))) r.2 r.2.queue

/-- The second pass with Flint in hand (R317, R357): E1 is checked, E2 sent. -/
def hfAes1Done (s : State) (v : HfVisit) (c : HfCard) (rnr : List Byte) (rnt : BitVec 64) (e1 : BitVec 128) : State :=
  let t := beBytes 8 rnt.toNat
  match keyOf s 2 (eKeyref (hfEntry s v)) with
  | some k =>
    if beBytes 16 e1.toNat = aes128 k (rnr ++ t) then
      hfGoCard s v c (.aes2 (leNat c.uid) (aes128 k (t ++ rnr))) (.authV2 c) winAes
    else hfAuthEnd s v c 2
  | none => hfAuthEnd s v c 2

/-- The second pass as its top-up is granted. -/
def hfAesRun (s : State) (rnt : BitVec 64) (e1 : BitVec 128) : State :=
  match s.hf.visit with
  | some v =>
    match v.phase with
    | .authHold c rnr => hfAes1Done s v c rnr rnt e1
    | _ => s
  | none => s

/-- The tag has answered the first pass: the second takes its turn on Flint as a top-up (R154, R317). -/
def hfAes1 (s : State) (v : HfVisit) (c : HfCard) (rnr : List Byte) (rnt : BitVec 64) (e1 : BitVec 128) : State :=
  flintTurn (setVisit s (some { v with phase := .authHold c rnr })) (hfConsumer v) (.cardFrame (.aes1 rnt e1)) fun t =>
    hfAesRun t rnt e1

/-! ### NFC-F (R316) -/

/-- SENSF_REQ. -/
def hfSensf (s : State) (v : HfVisit) : State :=
  let e := hfEntry s v
  hfGo s { v with first := false, hit := false } (.sensf (eU16 e 49) (eBits e 51 1 0) (eBits e 51 7 4)) (.slotF 0)
    (winF (1 + eBits e 51 7 4))

/-- The next time slot, another round, or the end; after a lease warning the visit ends (R310). -/
def hfNextF (s : State) (v : HfVisit) (slot : Nat) : State :=
  if hfWarned s v then hfVisitEnd s v 3
  else if hfCardLimit s v ≤ v.cards then hfVisitEnd s v 2
  else if slot < eBits (hfEntry s v) 51 7 4 then setVisit s (some { v with phase := .slotF (slot + 1) })
  else if v.hit ∧ v.rounds < fld s Fld.HF_ACOL_BROUNDS then hfSensf s { v with rounds := v.rounds + 1 }
  else hfVisitEnd s v 0

/-- A target answers: once per visit (R309). -/
def hfTarget (s : State) (v : HfVisit) (slot : Nat) (idm pmm : List Byte) (sys : BitVec 16) : State :=
  if v.seen.contains idm then hfNextF s v slot
  else
    let r := hfCard s { v with seen := v.seen ++ [idm] } (hfSeen s { uid := idm, w3 := sys.toNat * 2 ^ 8, extra := pmm })
      false 0 0 0
    if v.session then hfKeep r.1 r.2 false else hfNextF r.1 r.2 slot

/-! ### Exchanges (R320–R324) -/

/-- Pieces of a list, each at most `n` long, at most as many as given. -/
def pieces (n : Nat) : Nat → List Byte → List (List Byte)
  | 0, _ => []
  | f + 1, l => if l.length ≤ n then [l] else l.take n :: pieces n f (l.drop n)

/-- The first `n` bytes of the transmit buffer (R328). -/
def hfTxBytes (s : State) (n : Nat) : List Byte :=
  (unpackWords ((List.range ((n + 3) / 4)).map fun w => (regFind s.hf.tx w).getD 0)).take n

/-- The words of a buffer, zeros unlisted. -/
def bufferOf (ws : List Word) : RegFile := ((List.range ws.length).zip ws).filter fun p => p.2 != 0

/-- Fill the receive buffer; bytes beyond RXLEN read 0 (R328). -/
def hfReceive (s : State) (bs : List Byte) : State :=
  setFld { s with hf := { s.hf with rx := bufferOf (packWords bs) } } Fld.HF_IMMSTAT_RXLEN bs.length

/-- A command of the session is over and the session stays open, unless the lease is ending (R323, R327). -/
def hfCommandEnd (s : State) (v : HfVisit) (result rxlen : Nat) : State :=
  let v1 := { v with phase := .open_ }
  let s1 := hfResult (setVisit s (some v1)) v result 0 rxlen
  if hfWarned s1 v1 then hfSessionEnd s1 v1 3 else s1

/-- The I-block in flight. -/
def hfBlock (v : HfVisit) (x : HfXchg) : HfCmd := .iBlock v.num (1 < x.tx.length) (x.tx.headD [])

/-- An exchange goes on with a block that the card has to answer (R321). -/
def hfBlockGo (s : State) (v : HfVisit) (x : HfXchg) (c : HfCmd) : State :=
  hfAsk (setVisit s (some { v with phase := .xchg x })) v c (winBlock s)

/-- The I-block in flight goes out: its end starts the cumulative wait (R320, R322), and no waiting time runs (R323). -/
def hfIGo (s : State) (v : HfVisit) (x : HfXchg) : State :=
  let t := { s with hf := { s.hf with wtx := 0 } }
  hfBlockGo t v { x with sentAt := hfFrameEnd s v (hfBlock v x) } (hfBlock v x)

/-- No exchange starts after the lease warning: the session ends (R323). -/
def hfFresh (s : State) (v : HfVisit) (eff : State → State) : State := if hfWarned s v then hfSessionEnd s v 3 else eff s

/-- XCHG (R320, R325, R326). -/
def hfXchg (s : State) (v : HfVisit) : State :=
  let len := fld s Fld.HF_TXLEN_LEN
  if !flag s Fld.HF_IMMSTAT_ACT then hfResult s { v with op := 2 } 2 0x41 0
  else if len = 0 ∨ 4096 < len then hfResult s { v with op := 2 } 2 1 0
  else
    hfFresh s { v with op := 2 } fun t =>
      hfIGo (setFlag t Fld.HF_IMMSTAT_BUSY) { v with op := 2 } { tx := pieces (v.fsc - 3) 4097 (hfTxBytes s len), sentAt := 0 }

/-- RAW (R325, R326): one answer within TMO (R339). -/
def hfRaw (s : State) (v : HfVisit) : State :=
  let len := fld s Fld.HF_TXLEN_LEN
  if len = 0 ∨ 4096 < len then hfResult s { v with op := 3 } 2 1 0
  else
    hfFresh s { v with op := 3 } fun t =>
      hfAsk (setFlag (setVisit t (some { v with op := 3, phase := .raw })) Fld.HF_IMMSTAT_BUSY) v
        (.raw (flag s Fld.HF_RAW_CRC) (fld s Fld.HF_RAW_TXBITS) (hfTxBytes s len)) (us (rawTmo s))

/-- Answer bytes gathered, at most 4,096 (R320, R327). -/
def hfGather (x : HfXchg) (inf : List Byte) : HfXchg :=
  let all := x.rx ++ inf
  { x with rx := all.take 4096, overflow := x.overflow || 4096 < all.length, retries := 0 }

/-- A block that breaks the rules ends the session with PROTOCOL (R324). -/
def hfProtocol (s : State) (v : HfVisit) : State := hfSessionEnd s v 7

/-- An I-block of the card: the last piece of the APDU must be the one in flight, with our number (R320). -/
def hfIBlock (s0 : State) (v : HfVisit) (x : HfXchg) (num chaining : Bool) (inf : List Byte) : State :=
  let s := { s0 with hf := { s0.hf with wtx := 0 } }
  if num != v.num ∨ 1 < x.tx.length then hfProtocol s v
  else
    let x1 := hfGather x inf
    let v1 := { v with num := !v.num }
    if chaining then hfBlockGo s v1 { x1 with tx := [[]], acking := true } (.rAck v1.num)
    else hfCommandEnd (hfReceive s x1.rx) v1 (if x1.overflow then 4 else 1) x1.rx.length

/-- An R(ACK) of the card: the next piece, or the same one again where it names the block before (R320, R324). -/
def hfRAck (s : State) (v : HfVisit) (x : HfXchg) (num : Bool) : State :=
  if num = v.num then
    match x.tx with
    | _ :: p :: ps => hfIGo s { v with num := !v.num } { x with tx := p :: ps, retries := 0 }
    | _ => hfProtocol s v
  else hfIGo s v x

/-- A block times out, or comes with a bad CRC, or breaks the rules (R324). -/
def hfBlockTimeout (s : State) (v : HfVisit) (x : HfXchg) (ruleBreak : Bool) : State :=
  if ruleBreak then hfProtocol s v
  else if x.desel then hfSessionEnd s v 6
  else if x.retries < fld s Fld.HF_ISO4_RETRY then
    hfBlockGo (incSat { s with hf := { s.hf with wtx := 0 } } Fld.HF_CNT2_RETRANS 1) v
      { x with retries := x.retries + 1, retrans := x.retrans + 1 } (if x.acking then .rAck v.num else .rNak v.num)
  else hfBlockGo s v { x with desel := true } .deselect

/-- The end of the wait that an S(WTX) asks for: FWT × WTXM from the end of the device's answer (R322). -/
def wtxEnd (s : State) (v : HfVisit) (m : Nat) : Nat := hfFrameEnd s v (.wtx m) + s.hf.fwt * m

/-- S(WTX) (R322). -/
def hfWtx (s : State) (v : HfVisit) (x : HfXchg) (inf : Byte) : State :=
  let m := inf.toNat % 64
  if m = 0 ∨ 60 ≤ m then hfProtocol s v
  else if ms (fld s Fld.HF_WTX_MAX_MS) < wtxEnd s v m - x.sentAt then hfSessionEnd (setFlag s Fld.HF_STAT_WTXCAP) v 8
  else
    hfAsk (incSat (setVisit { s with hf := { s.hf with wtx := s.hf.fwt * m } }
      (some { v with phase := .xchg { x with wtx := x.wtx + 1 } })) Fld.HF_CNT2_WTX 1) v (.wtx m) (s.hf.fwt * m)

/-! ### Steps of the engine -/

/-- The first request of the visit's class (R301, R306). -/
def hfRequest (s : State) (v : HfVisit) : State :=
  match eClass (hfEntry s v) with
  | 2 => hfReqA s v
  | 3 => hfReqB s { v with bN := min 4 (eBits (hfEntry s v) 52 2 0) }
  | 4 => hfInventory s v (eBits (hfEntry s v) 49 0 0 == 1) 0 0
  | _ => hfSensf s v

/-- GUARD is over (R301). -/
def guardEnd (s0 : State) : State :=
  let s := hfQuiet s0
  match s.hf.visit with
  | some v => if v.phase = .guard then hfRequest s v else s
  | none => s

/-- The port whose field went off first, of those whose off time still runs. -/
def foffFirst (s : State) : Option Nat :=
  match s.hf.foff[0]?.getD none, s.hf.foff[1]?.getD none with
  | some a, some b => some (if b < a then 1 else 0)
  | some _, none => some 0
  | none, some _ => some 1
  | none, none => none

/-- FOFF has passed since the field went off on a port, the first to have gone off (R302): a visit that waits for it goes on. -/
def foffWaitEnd (s0 : State) : State :=
  let s := hfQuiet s0
  match foffFirst s with
  | none => s
  | some p =>
    let t := { s with hf := { s.hf with foff := s.hf.foff.setIfInBounds p none } }
    match s.hf.visit with
    | some v => if v.phase = .foff ∧ rpPort s v.leaf = p then hfVisitStart t v else t
    | none => t

/-- A card is released, or does not answer its S(DESELECT): the frames that follow go out at the rates before activation (R319). -/
def hfReleased (s : State) (v : HfVisit) : State :=
  let w := { v with dr := 0, ds := 0 }
  if eClass (hfEntry s w) = 2 then hfNextA s w else hfDealB s w w.queue

/-- A card's answer in the phase the engine is in; an answer that the phase does not await changes nothing. -/
def hfAnswer (s : State) (v : HfVisit) (f : CardFrame) : State :=
  match v.phase, f with
  | .reqA, .atqa a => hfBranch s { v with atqa := a.toNat } { level := 1, uid := [], known := 0, bits := 0 } false
  | .anti b r, .anticol bits col => hfAnticol s v b r bits col
  | .selA l u b, .sak k c => hfSak s v l u b k c
  | .rats c, .ats bs sp => hfAts s v c bs sp
  | .rate c r _, .rates => hfActivated s v c r
  | .desel, .deselect => hfReleased s v
  | .slotB k, .atqb p a q =>
    hfNextB s { v with queue := v.queue ++ [hfSeen s { uid := p, extra := a, proto := q, w3 := beNat q }] } k
  | .slotB k, .collided =>
    let r := hfCollide s v
    hfNextB r.1 { r.2 with hit := true } k
  | .attrib c, .attrib sp =>
    let k := hfParams s { v with dr := (hfRatesB s v c).1, ds := (hfRatesB s v c).2 } ((c.proto.getD 2 0).toNat / 16)
      ((c.proto.getD 1 0).toNat / 16) 0
    hfSetRates k.1 k.2 c (hfRates s v (c.proto.getD 0 0).toNat sp) (hfRatesB s v c)
  | .slotV o l m k, .vicc d u =>
    hfNextV s { v with queue := v.queue ++ [hfSeen s { uid := leBytes 8 u.toNat, w3 := d.toNat * 2 ^ 16 }] } o l m k
  | .slotV o l m k, .collided => hfCollideV s v o l m k
  | .authV1 c rnr, .aes1 t e => hfAes1 s v c rnr t e
  | .authV2 c, .aes2 ok => hfAuthEnd s v c (if ok then 1 else 2)
  | .slotF k, .sensf i p y => hfTarget s v k i p y
  | .slotF k, .collided =>
    let r := hfCollide s v
    hfNextF r.1 { r.2 with hit := true } k
  | .xchg x, .iBlock n c i => if x.desel then s else hfIBlock s v x n c i
  | .xchg x, .rAck n => if x.desel then s else hfRAck s v x n
  | .xchg x, .deselect => if x.desel then hfSessionEnd s v 6 else hfProtocol s v
  | .raw, .raw bs good =>
    if !good ∧ flag s Fld.HF_RAW_CRC then hfCommandEnd s v 7 0
    else hfCommandEnd (hfReceive s (bs.take 4096)) v 1 (min 4096 bs.length)
  | _, _ => s

/-- A phase awaits an answer of this kind. -/
def hfAwaits : HfPhase → CardFrame → Bool
  | .reqA, .atqa _ => true
  | .anti _ _, .anticol _ _ => true
  | .selA _ _ _, .sak _ _ => true
  | .rats _, .ats _ _ => true
  | .rate _ _ _, .rates => true
  | .desel, .deselect => true
  | .slotB _, .atqb _ _ _ => true
  | .slotB _, .collided => true
  | .attrib _, .attrib _ => true
  | .slotV _ _ _ _, .vicc _ _ => true
  | .slotV _ _ _ _, .collided => true
  | .authV1 _ _, .aes1 _ _ => true
  | .authV2 _, .aes2 _ => true
  | .slotF _, .sensf _ _ _ => true
  | .slotF _, .collided => true
  | .xchg _, .iBlock _ _ _ => true
  | .xchg _, .rAck _ => true
  | .xchg _, .deselect => true
  | .raw, .raw _ _ => true
  | _, _ => false

/-- The time slots of an NFC-F request share one window, which their last one ends. -/
def hfLastSlot (s : State) (v : HfVisit) : Bool :=
  match v.phase with
  | .slotF k => eBits (hfEntry s v) 51 7 4 ≤ k
  | _ => true

/-- No answer is awaited any more: it has come, or its window has passed (R303). -/
def hfWindowOver (s : State) : State := { s with hf := { s.hf with answerBy := none } }

/-- An exchange of blocks is under way. -/
def hfInExchange (v : HfVisit) : Bool :=
  match v.phase with
  | .xchg _ => true
  | _ => false

/-- A card's answer is received (R311–R324); the next reader frame starts RGUARD later (R307). -/
def cardFrame (s0 : State) (f : CardFrame) : State :=
  let s := hfPause (hfQuiet s0) (us (fld s0 Fld.HF_CFG_RGUARD))
  match s.hf.visit with
  | some v => hfAnswer s v f
  | none => hfQuiet s0

/-- The answer window of the phase passes with no answer (R307, R315, R316, R324, R327). -/
def hfNoAnswer (s : State) (v : HfVisit) : State :=
  match v.phase with
  | .reqA => hfVisitEnd s v (if hfWarned s v then 3 else 0)
  | .anti _ _ => hfNextA s v
  | .selA _ _ _ => hfNextA s v
  | .rats _ => hfNextA s v
  | .rate c _ old => hfActivated s v c old
  | .desel => hfReleased s v
  | .slotB k => hfNextB s v k
  | .attrib _ => hfDealB s v v.queue
  | .slotV o l m k => hfNextV s v o l m k
  | .authV1 c _ => hfAuthEnd s v c 2
  | .authV2 c => hfAuthEnd s v c 2
  | .slotF k => hfNextF s v k
  | .raw => hfCommandEnd s v 6 0
  | .xchg x => hfBlockTimeout s v x false
  | _ => s

/-- A card's answer window passes (R307). -/
def answerTimeout (s0 : State) : State :=
  let s := hfQuiet s0
  match s.hf.visit with
  | some v => hfNoAnswer s v
  | none => s

/-- The exchange in hand, if there is one. -/
def onXchg (s0 : State) (f : State → HfVisit → HfXchg → State) : State :=
  let s := hfQuiet s0
  match s.hf.visit with
  | some v =>
    match v.phase with
    | .xchg x => f s v x
    | _ => s
  | none => s

/-! ### Starts, ends from outside -/

/-- A poll of an entry starts at its grant (R306), on the leaves whose port is usable (R298). -/
def hfPollStart (s : State) (i : Nat) (e : Entry) : State :=
  match hfUsable s (entryLeaves s e) with
  | l :: ls => hfVisitStart (hfQuiet s)
      { entry := i, session := false, leaf := l, leaves := ls, startedAt := s.clk.now, phase := .guard }
  | [] => s

/-- The HF leaves of a target. -/
def hfLeaves (s : State) (target : Nat) : List Nat := (leaves s target).filter fun n => rpKind s n == 2

/-- A visit record for a command that has no session. -/
def hfNoVisit (op : Nat) : HfVisit := { entry := 0, session := true, leaf := 0, leaves := [], startedAt := 0, phase := .open_, op := op }

/-- A host session starts at its grant (R325); with no usable leaf it ends NOCARD (R298, R327). -/
def hfSessionStart (s : State) : State :=
  match s.hf.opening with
  | none => s
  | some (i, target) =>
    let s1 := { s with hf := { s.hf with opening := none } }
    match hfUsable s (hfLeaves s target) with
    | l :: ls => hfVisitStart (hfQuiet s1)
        { entry := i, session := true, leaf := l, leaves := ls, startedAt := s.clk.now, phase := .guard, op := 1 }
    | [] => hfResult s1 (hfNoVisit 1) 3 0 0

/-- HF work of a consumer ends at once, from outside (R310, R323): LEASE, OVERRUN, CXLOST or FAULT. -/
def hfCut (s : State) (who : Consumer) (reason : Nat) : State :=
  match s.hf.visit with
  | some v => if hfConsumer v = who then (if v.session then hfSessionEnd s v reason else hfVisitEnd s v reason) else s
  | none => s

/-- A lease warning: an open session with no exchange in hand ends (R310, R323). -/
def hfLeaseWarn (s : State) (who : Consumer) : State :=
  match s.hf.visit with
  | some v => if hfConsumer v = who ∧ v.session ∧ v.phase = .open_ then hfSessionEnd s v 3 else s
  | none => s

/-- The HF engine is inside a transaction (R323). -/
def hfInTransaction (s : State) (who : Consumer) : Bool :=
  match s.hf.visit with
  | some v => hfConsumer v == who && (match v.phase with
    | .xchg _ => true
    | .raw => true
    | _ => false)
  | none => false

/-! ### Host commands -/

/-- The request of an OPEN is posted, once its consumer holds no grant any more (R145, R154, R325). -/
def hfPost (s : State) : State :=
  if s.hf.opening.isSome then
    (postRequest s { who := .hostHf, cls := .c1, mask := 2 ^ resHfd, kind := .hfSession, air := .hf }).1
  else s

/-- OPEN (R325, R326). -/
def hfOpen (s : State) (entry target : Nat) : State :=
  let bad := (match entryAt s entry with
    | some e => classKind (eClass e) != 2
    | none => true) || (hfLeaves s target).isEmpty
  if bad then hfResult s (hfNoVisit 1) 2 3 0
  else if flag s Fld.HF_IMMSTAT_OPEN then hfResult s { hfNoVisit 1 with leaf := (s.hf.visit.map fun v => v.leaf).getD 0 } 2 0x42 0
  else
    hfPost (setFlag { s with hf := { s.hf with opening := some (entry, target) } } Fld.HF_IMMSTAT_BUSY)

/-- A command of an open session, else NOSESSION (R326). -/
def hfInSession (s : State) (op : Nat) (eff : State → HfVisit → State) : State :=
  match s.hf.visit with
  | some v => if v.session ∧ v.phase = .open_ then eff s v else hfResult s (hfNoVisit op) 2 0x40 0
  | none => hfResult s (hfNoVisit op) 2 0x40 0

/-- CLOSE: S(DESELECT) if the card is active, field off, release (R325). -/
def hfClose (s : State) (v : HfVisit) : State :=
  let s1 := if flag s Fld.HF_IMMSTAT_ACT then hfEmit s v .deselect else s
  let s2 := clrFld (clrFld (setFld (setVisit (hfFieldOff s1) none) Fld.HF_STAT_LASTEND 10) Fld.HF_IMMSTAT_OPEN)
    Fld.HF_IMMSTAT_ACT
  endGrant (hfResult s2 { v with op := 4 } 1 0 0) .hostHf

/-- A command of `HF_IMM`; GO is ignored while BUSY (R326). -/
def hfCommand (s : State) (eff : State → State) : State := if flag s Fld.HF_IMMSTAT_BUSY then s else eff (hfQuiet s)

/-- A write of `HF_IMM` (R339). -/
def hfImm (s : State) (v : Word) : State :=
  if bitsOf v 31 31 = 0 then s
  else match bitsOf v 30 28 with
    | 1 => hfCommand s fun u => hfOpen u (bitsOf v 27 18) (bitsOf v 17 11)
    | 2 => hfCommand s fun u => hfInSession u 2 hfXchg
    | 3 => hfCommand s fun u => hfInSession u 3 hfRaw
    | 4 => hfCommand s fun u => hfInSession u 4 hfClose
    | _ => s

/-- IMMIDLE without a command (R327). -/
def sessionIdle (s0 : State) : State :=
  let s := hfQuiet s0
  match s.hf.visit with
  | some v => if v.session ∧ v.phase = .open_ then hfSessionEnd s v 9 else s
  | none => s

/-- A write of `HF_TXLEN` (R328): ignored while BUSY; CLR clears both buffers. -/
def hfTxlen (s : State) (v : Word) : State :=
  if flag s Fld.HF_IMMSTAT_BUSY then setFlag s Fld.HF_STAT_BUFERR
  else
    let s1 := setFld s Fld.HF_TXLEN_LEN (bitsOf v 12 0)
    if bitsOf v 31 31 = 1 then setFld { s1 with hf := { s1.hf with tx := [], rx := [] } } Fld.HF_IMMSTAT_RXLEN 0 else s1

def execTxlenClr (lvl : Level) (value : Word) (s : State) : Host.Outcome State Fault Refusal :=
  next (asWrite s lvl Adr.HF_TXLEN fun t => hfTxlen (rsvCheck t Adr.HF_TXLEN value) (putBits value 31 31 1))

/-- The buffer word that `HF_BUFw` reaches (R328). -/
def hfBufIndex (s : State) (w : Nat) : Nat := 64 * fld s Fld.HF_BUFSEL_PAGE + w

/-- `HF_BUFw` as it reads. -/
def hfBufRead (s : State) (w : Nat) : Word :=
  (regFind (if flag s Fld.HF_BUFSEL_BUF then s.hf.rx else s.hf.tx) (hfBufIndex s w)).getD 0

/-- A write of `HF_BUFw` (R328). -/
def hfBufWrite (s : State) (w : Nat) (v : Word) : State :=
  if flag s Fld.HF_BUFSEL_BUF then s
  else if flag s Fld.HF_IMMSTAT_BUSY then setFlag s Fld.HF_STAT_BUFERR
  else
    let m := s.hf.tx.filter fun p => p.1 != hfBufIndex s w
    { s with hf := { s.hf with tx := if v = 0 then m else regPut m (hfBufIndex s w) v } }

end Sys2Proof.Machine
end

