-- ==== Sys2Proof/Machine/LinkTime.lean ====
section
/-! DEFINITION. Beacon sources, windows, and network time on the node link (R415, R430–R438). -/

namespace Sys2Proof.Machine

open Sys2Proof

/-! ### Sources -/

/-- The enabled source that names a neighbour entry (R444). -/
def sourceOf (s : State) (n : Nat) : Option Nat := firstBelow 4 fun k => flag s (Fld.LNK_SRC_EN k) && fld s (Fld.LNK_SRC_NBR k) == n

/-- The neighbour entry of a source. -/
def srcNbr (s : State) (k : Nat) : Nat := fld s (Fld.LNK_SRC_NBR k)

/-- The adopted source; 15 for none (R444). -/
def adopted (s : State) : Nat := fld s Fld.LNK_ORIGIN_SRC

/-- The first enabled source (R434). -/
def firstSource (s : State) : Option Nat := firstBelow 4 fun k => flag s (Fld.LNK_SRC_EN k)

/-- The source has windows: TRACK, the adopted one, and the candidate, which after a start is the first of all (R432–R434). -/
def srcWindows (s : State) (k : Nat) : Bool :=
  flag s (Fld.LNK_SRC_EN k) && (flag s (Fld.LNK_SRC_TRACK k) || adopted s == k || s.lnk.cand == some k)

/-- The state of a neighbour entry as reported (R415). -/
def nbrState (s : State) (n : Nat) : Nat :=
  if nbrEui s n = 0 then 0 else if (sourceOf s n).isNone then 1 else (nbrOf s n).track

/-! ### Windows -/

/-- m: misses, at most 3 (R431). -/
def nbrM (x : LnkNbr) : Nat := min 3 x.missed

/-- The half-width W in µs for the `k`-th beacon after the last received (R431). -/
def windowAt (s : State) (x : LnkNbr) (k : Nat) : Nat :=
  let quarters := k * x.nextBi.getD (fld s Fld.LNK_BCN_BI)
  fld s Fld.LNK_DRIFT_GUARD + fld s Fld.LNK_DRIFT_JITTER +
    (((fitError s x).natAbs + 100 * nbrM x * fld s Fld.LNK_DRIFT_PAD) * quarters + 399) / 400

/-- The search window's number; a source not heard since the start is at N (R434). -/
def searchJ (s : State) (x : LnkNbr) : Nat := if x.search = 0 then fld s Fld.LNK_SEARCH_MAX_N else x.search

/-- The half-width in µs of the window for the `k`-th beacon after the last received (R431, R432). -/
def halfAt (s : State) (x : LnkNbr) (k : Nat) : Nat :=
  if x.track < 4 then windowAt s x k
  else min (2 ^ searchJ s x * windowAt s x k) (250 * fld s Fld.LNK_BCN_BI * 1000 / 2)

/-- The expected interval of a source's beacons in Q64 units: NEXT × (1 + ε) (R430, R431). -/
def beaconStep (s : State) (x : LnkNbr) : Int :=
  let n : Int := (x.nextBi.getD 0 * 2 ^ 28 : Nat)
  n + n * fitError s x / 100000000

/-- The expected start in Q64 time of the `k`-th beacon after the last received (R431). -/
def expectedAt (s : State) (x : LnkNbr) (k : Nat) : Int := x.startAt + s.lnk.shifted + k * beaconStep s x

/-- The free time in Q64 time of the window for it (R431). -/
def windowFree (s : State) (x : LnkNbr) (k : Nat) : Int := expectedAt s x k - (q64Us (halfAt s x k + 20) : Nat)

/-- The next beacon to have a window, counted from the last received: the first whose slot can still be posted (R157, R431). -/
def nextBeacon (s : State) (x : LnkNbr) : Nat :=
  let soon : Int := (q64 s + q64Us 10000 : Nat)
  let k := ((soon - (x.startAt + s.lnk.shifted)) / max 1 (beaconStep s x)).toNat + 1
  if windowFree s x k < soon then k + 1 else k

/-- W for the next beacon that is to have a window (R440). -/
def windowW (s : State) (x : LnkNbr) : Nat := windowAt s x (nextBeacon s x)

/-- An NBR packet (R440). -/
def nbrPacket (s : State) (n old : Nat) (x : LnkNbr) : State :=
  lst s (BitVec.ofNat 32 (2 * 2 ^ 28 + n * 2 ^ 20 + x.track * 2 ^ 16 + old * 2 ^ 12 + nbrM x * 2 ^ 8) ::
    q64Words (q64 s) ++ [BitVec.ofNat 32 (unsignedOf 16 (fitError s x) * 2 ^ 16 + min 0xFFFF (windowW s x))])

/-- A source's working state changes; a change of its tracking state is reported (R432, R440). -/
def setTrack (s : State) (n : Nat) (x : LnkNbr) : State :=
  let old := (nbrOf s n).track
  let s1 := setNbr s n x
  if old = x.track then s1
  else
    let s2 := nbrPacket s1 n old x
    if x.track = 4 ∨ x.track = 5 then raise s2 47 else s2

/-! ### Epochs -/

/-- The pair in force (R428, R436). -/
def pairNow (s : State) : Nat × Nat := (fld s Fld.LNK_EPOCH_EPOCH, fld s Fld.LNK_ORIGIN_ORIGIN)

/-- An EPOCH packet (R440). -/
def epochPacket (s : State) (reason : Nat) (old new : Nat × Nat) : State :=
  lst s (BitVec.ofNat 32 (3 * 2 ^ 28 + reason * 2 ^ 24) :: q64Words (q64 s) ++
    [BitVec.ofNat 32 new.1, BitVec.ofNat 32 (new.2 * 2 ^ 16 + old.2), BitVec.ofNat 32 old.1])

/-- A pair comes into force; a change raises LINK_EPOCH (R436). -/
def setPair (s : State) (p : Nat × Nat) (reason : Nat) : State :=
  let old := pairNow s
  if old = p then s
  else
    let s1 := setFld (setFld s Fld.LNK_EPOCH_EPOCH p.1) Fld.LNK_ORIGIN_ORIGIN p.2
    raise (epochPacket { s1 with lnk := { s1.lnk with steady := false } } reason old p) 48

/-- A source is adopted (R433, R436). -/
def adopt (s : State) (k reason : Nat) : State :=
  let x := nbrOf s (srcNbr s k)
  let s1 := clrFld (clrFld (setFld s Fld.LNK_ORIGIN_SRC k) Fld.LNK_ORIGIN_ISORIG) Fld.LNK_ORIGIN_HOLD
  let s2 := setFld s1 Fld.LNK_ORIGIN_HOPS (min 255 (x.hops + 1))
  setPair { s2 with lnk := { s2.lnk with silent := false, cand := none,
                                         steady := s2.lnk.steady && adopted s == k } } (x.epoch, x.origin) reason

/-- The node becomes origin (R436): with its present seconds as epoch, or resuming an epoch that names it. -/
def becomeOrigin (s : State) (resume : Bool) : State :=
  let s1 := setFlag (setFld (clrFld s Fld.LNK_ORIGIN_HOLD) Fld.LNK_ORIGIN_SRC 0xF) Fld.LNK_ORIGIN_ISORIG
  let s2 := setFld s1 Fld.LNK_ORIGIN_HOPS 0
  let s3 := { s2 with lnk := { s2.lnk with silent := false, cand := none, oldPair := none } }
  if resume then s3 else setPair s3 (s3.qtz.secs % 2 ^ 32, fld s3 Fld.LNK_ID_NODE) 2

/-- The other side wins (R437, R438): its source is adopted, the pair in force retires, and a beacon-sending node goes on under it
while it converges. -/
def heal (s : State) (k : Nat) : State :=
  let old := pairNow s
  adopt { s with lnk := { s.lnk with
    retired := old :: s.lnk.retired.take 7
    oldPair := if flag s Fld.LNK_BCN_EN then some (s.lnk.oldPair.getD old) else none } } k 1

/-- The state of a source's entry. -/
def srcTrack (s : State) (k : Nat) : Nat := (nbrOf s (srcNbr s k)).track

/-- A source may be adopted outside its beacons (R433, R438): enabled, TRACKED or MISSING, with an epoch, not of a retired pair. -/
def adoptable (s : State) (k : Nat) : Bool :=
  let x := nbrOf s (srcNbr s k)
  flag s (Fld.LNK_SRC_EN k) && x.track ≤ 3 && x.epoch != 0 && !s.lnk.retired.contains (x.epoch, x.origin)

/-- An enabled source is being searched. -/
def searched (s : State) (k : Nat) : Bool := srcWindows s k && srcTrack s k == 4

/-- The next untracked source to search: not heard, and not yet LOST (R433). -/
def nextCandidate (s : State) : Option Nat :=
  firstBelow 4 fun k => flag s (Fld.LNK_SRC_EN k) && !flag s (Fld.LNK_SRC_TRACK k) && srcTrack s k == 4

/-- A source is searched as candidate from its first window on, with W computed at m = 3 (R432, R433). -/
def searchCandidate (s : State) (k : Nat) : State :=
  let x := nbrOf s (srcNbr s k)
  setNbr { s with lnk := { s.lnk with cand := some k } } (srcNbr s k) { x with search := 1, missed := max 3 x.missed }

/-- No source can be adopted (R436): the node becomes origin, or holds over. -/
def noSource (s : State) : State :=
  if flag s Fld.LNK_BCN_CANORIG && flag s Fld.LNK_BCN_EN then becomeOrigin s false
  else if fld s Fld.LNK_EPOCH_EPOCH = 0 then s
  else setFlag s Fld.LNK_ORIGIN_HOLD

/-- The search for a source while none can be adopted (R433, R434): a candidate's search goes on; once the adopted source or a candidate
is LOST the next untracked source follows, as it does when no source is being searched; after the last, a search under way is
awaited. -/
def searchOn (s : State) (lost : Bool) : State :=
  let busy := (List.range 4).any (searched s)
  if s.lnk.cand.any (searched s) || (busy && !lost) then s
  else
    match nextCandidate s with
    | some k => searchCandidate s k
    | none => if busy then s else noSource { s with lnk := { s.lnk with cand := none } }

/-- The adopted source where it must change (R433, R436): the first that is TRACKED or MISSING, else the untracked sources in
order as candidates, else the node becomes origin or holds over. -/
def reconsider (s : State) : State :=
  if flag s Fld.LNK_ORIGIN_ISORIG then s
  else if adopted s < 4 && flag s (Fld.LNK_SRC_EN (adopted s)) && srcTrack s (adopted s) ≤ 4 then s
  else
    match firstBelow 4 (adoptable s) with
    | some k => adopt s k 0
    | none => searchOn (setFld s Fld.LNK_ORIGIN_SRC 0xF) (adopted s < 4 || s.lnk.cand.isSome)

/-- What a missed window makes of a source's working state (R432). -/
def missOnce (s : State) (x : LnkNbr) : LnkNbr :=
  let y := { x with missed := x.missed + 1, window := false, left := 0, got := false }
  match x.track with
  | 2 => { y with track := 3 }
  | 3 => if y.missed < 3 then y else { y with track := 4, search := 1 }
  | 4 => if fld s Fld.LNK_SEARCH_MAX_N ≤ searchJ s x then { y with track := 5 } else { y with search := searchJ s x + 1 }
  | _ => y

/-- A window has ended without its beacon (R424, R432). -/
def windowMissed (s : State) (k : Nat) : State :=
  let n := srcNbr s k
  reconsider (setTrack (incSat s Fld.LNK_MACCNT3_BCNMISS 1) n (missOnce s (nbrOf s n)))

/-! ### Time -/

/-- The step that takes the time of the first epoch adopted (R435, R543). -/
def timeStep (s : State) (time : Nat) : State :=
  setNowApply { s with
    qtz := { s.qtz with pendingNow := some { secs := time / 2 ^ 30, clrOsf := false }, pendingSet := none }
    lnk := { s.lnk with stepFrac := some (time % 2 ^ 30 / 2 ^ 15) } }

/-- A shift of the offset, within 65 units (R435, R545). -/
def timeShift (s : State) (e : Int) : State :=
  match s.qtz.pendingShift with
  | some _ => s
  | none =>
    let n := clampInt (-65) 65 (roundHalfAway e (2 ^ 15))
    incSat { s with qtz := { s.qtz with pendingShift := some n } } Fld.LNK_SYNCSTAT_SHIFTS 1

/-- The offset of a beacon from the adopted source, and what follows from it (R435, R438). -/
def timeSync (s : State) (hadEpoch : Bool) (stamp time : Nat) : State :=
  let e : Int := (time : Int) - (stamp : Int)
  let off := clampInt (-32768) 32767 (roundHalfAway (e * 1000000) (2 ^ 30))
  let big := fld s Fld.LNK_SYNC_DEADBAND * 2 ^ 15 < e.natAbs
  let s1 := setFld (setFld s Fld.LNK_SYNCSTAT_OFFSET (unsignedOf 16 off)) Fld.LNK_ORIGIN_CONV (if big then 1 else 0)
  let s2 := if big then s1 else { s1 with lnk := { s1.lnk with oldPair := none } }
  if !flag s2 Fld.LNK_SYNC_SETTIME then s2
  else if ¬hadEpoch ∧ 2 ^ 30 ≤ e.natAbs then timeStep s2 time
  else if big then timeShift s2 e
  else s2

/-- The other side wins under R437 step 2. -/
def wins (p q : Nat × Nat) : Bool := p.1 < q.1 || (p.1 == q.1 && p.2 < q.2)

/-- A beacon of an enabled source with its Ranelo IE decides the adoption and steers time (R433, R435–R438). -/
def sourceBeacon (s : State) (k stamp : Nat) (b : Ranelo) : State :=
  let p := (b.epoch, b.origin)
  let had := fld s Fld.LNK_EPOCH_EPOCH != 0
  let s1 :=
    if s.lnk.retired.contains p then s
    else if !had then adopt s k 0
    else if p = pairNow s then
      (if ¬flag s Fld.LNK_ORIGIN_ISORIG ∧ (adopted s = 0xF ∨ k < adopted s) then adopt s k 0 else s)
    else if wins p (pairNow s) then heal s k
    else s
  if adopted s1 = k ∧ pairNow s1 = p then
    timeSync (setFld s1 Fld.LNK_ORIGIN_HOPS (min 255 (b.hops + 1))) had stamp b.time
  else s1

/-- A sample of the drift fit, its local time freed of the shifts applied (R430). -/
def fitSample (s : State) (x : LnkNbr) (stamp time : Nat) : LnkNbr :=
  let t : Int := (stamp : Int) - s.lnk.shifted
  { x with samples := ((t, (time : Int) - t) :: x.samples).take 8 }

/-- A beacon that reached OK (R429, R430, R432). -/
def beaconTrack (s : State) (n : Nat) (stamp : Nat) (b : Option Ranelo) : State :=
  let x := nbrOf s n
  let y := match b with
    | some r => { x with node := r.sender, hops := r.hops, epoch := r.epoch, origin := r.origin }
    | none => x
  match sourceOf s n with
  | none => setNbr s n (match b with
      | some r => { x with node := r.sender }
      | none => x)
  | some k =>
    let z := match b with
      | some r => fitSample s { y with nextBi := some r.next } stamp r.time
      | none => y
    let start := stamp - ((entryAt s (fld s Fld.LNK_BCN_ENTRY)).elim 0 fun e => q64Ns (syncNs s e))
    let s1 := setTrack s n { z with track := 2, missed := 0, search := 0, got := z.window, left := 0,
                                    startAt := (start : Int) - s.lnk.shifted }
    match b with
    | some r => sourceBeacon s1 k stamp r
    | none => s1

end Sys2Proof.Machine
end

