-- ==== Sys2Proof/Machine/Link.lean ====
section
/-! DEFINITION. The node link's rows: slots, reception and its checks, the send queue, acknowledgements, budgets and beacons
(R377–R449). -/

namespace Sys2Proof.Machine

open Sys2Proof

/-! ### Slots -/

/-- The number of a link consumer among the plans (R422). -/
def planNo : Consumer → Nat
  | .linkSlot k => k
  | _ => 100

/-- The plan of a link consumer. -/
def planOf (s : State) (k : Nat) : Option LnkSlot := (s.lnk.plans.find? fun p => p.1 == k).map fun p => p.2

def setPlan (s : State) (k : Nat) (x : LnkSlot) : State :=
  { s with lnk := { s.lnk with plans := s.lnk.plans.filter (fun p => p.1 != k) ++ [(k, x)] } }

def dropPlan (s : State) (k : Nat) : State :=
  { s with lnk := { s.lnk with plans := s.lnk.plans.filter fun p => p.1 != k } }

/-- The Slate entry of a kind of slot (R422). -/
def slotEntryNo (s : State) : SlotKind → Nat
  | .btx => fld s Fld.LNK_BCN_ENTRY
  | .brx => fld s Fld.LNK_BCN_ENTRY
  | _ => fld s Fld.LNK_DATA_ENTRY

/-- An entry's next LINK leaf, one leaf per slot in leaf order (R422, R235). -/
def nextLeaf (s : State) (i : Nat) (e : Entry) : Option Nat × State :=
  let l := entryLeaves s e
  let k := ((s.lnk.leafPos.find? fun p => p.1 == i).map fun p => p.2).getD 0
  (l[k % max 1 l.length]?,
    { s with lnk := { s.lnk with leafPos := s.lnk.leafPos.filter (fun p => p.1 != i) ++ [(i, (k + 1) % max 1 l.length)] } })

/-- The resources of a slot on a read point: path B and the read point's chain (R384, R422). -/
def slotMask (s : State) (rp : Nat) : Nat := 4 + rpRxMask s rp * 8

/-- The air of a slot (R149). -/
def slotAir (s : State) (kind : SlotKind) (rp chan : Nat) : AirUse :=
  match kind with
  | .brx => .linkRx (Fin.ofNat 4 (rpPort s rp)) (chanKhz10 chan / 10)
  | _ => .linkTx

/-- Whole ms since 2000-01-01 of a Q64 time. -/
def q64Ms (t : Nat) : Nat := t * 1000 / 2 ^ 30

/-- The CLK100 time at which a Q64 time comes; a past one is now. -/
def clkOfQ64 (s : State) (t : Nat) : Nat := s.clk.now + (t - q64 s) * 100000000 / 2 ^ 30

/-- The rendezvous channel at a free time (R422). -/
def rdvChan (s : State) (e : Entry) (free : Nat) : Nat :=
  let p := 10 * fld s Fld.LNK_RDV_PERIOD
  let r := (q64Ms free + p / 2 - 10 * fld s Fld.LNK_RDV_OFFSET) / max 1 p
  (eChans e).getD (r % max 1 (eNchan e)) 0

/-- The length in µs of the window for the `k`-th beacon after the last received (R431); a source not heard since the start is searched
for one BI (R434). -/
def brxLengthAt (s : State) (x : LnkNbr) (e : Entry) (k : Nat) : Nat :=
  match x.nextBi with
  | some _ => 20 + 2 * halfAt s x k + airtime s e (beaconPsdu s (lnkMode e))
  | none => 250000 * fld s Fld.LNK_BCN_BI

/-- The length of the next beacon window in µs. -/
def brxLength (s : State) (x : LnkNbr) (e : Entry) : Nat := brxLengthAt s x e (nextBeacon s x)

/-- The length of a slot in µs (R422, R431), a beacon window's whole. -/
def slotLength (s : State) (kind : SlotKind) (src : Nat) (e : Entry) : Nat :=
  match kind with
  | .btx => 1000 * fld s Fld.LNK_CCA_LISTEN + turnUs + airtime s e (beaconPsdu s (lnkMode e)) + 1000
  | .brx => brxLength s (nbrOf s (srcNbr s src)) e
  | .rdv => 1000 * fld s Fld.LNK_RDV_LEN
  | .data => 1000 * fld s Fld.LNK_DATA_SLOT

/-- The order of the MAC's own slots, foremost first (R424). -/
def slotRank (s : State) (x : LnkSlot) : Nat :=
  match x.kind with
  | .btx => 0
  | .brx => if adopted s = x.src then 1 else 2 + x.src
  | .rdv => 6
  | .data => 7

/-- A scheduled slot does not take place (R424): its packet, and a beacon window counts as missed. -/
def slotLost (s : State) (x : LnkSlot) (cause : Nat) : State :=
  let s1 := slotPacket s x cause x.free
  if x.kind = .brx then windowMissed s1 x.src else s1

/-- A consumer number of a new slot: the kind's own, or the second of a source while its first is in use. -/
def slotNo (s : State) (kind : SlotKind) (src : Nat) : Nat :=
  match kind with
  | .btx => 0
  | .brx => if mayPost s (.linkSlot (1 + src)) then 1 + src else 9 + src
  | .rdv => 5
  | .data => 100

/-- A link-class entry in force; 0x3FF names none (R444, R445). An entry with ENABLE = 0 counts like any other here: ENABLE governs its
part in the walk of R163 (R241; DESIGN CHOICE, log entry 51). -/
def linkEntry (s : State) (i : Nat) : Option Entry :=
  if i = 0x3FF then none
  else match entryAt s i with
    | some e => if classKind (eClass e) = 3 then some e else none
    | none => none

/-- The MAC's own posted slots that a new one would overlap. -/
def slotClashes (s : State) (at_ len : Nat) : List (Consumer × LnkSlot) :=
  s.sched.requests.filterMap fun r => match r.who, r.freeAt with
    | .linkSlot k, some t => if overlaps at_ (at_ + len) t (t + leaseOf s r.kind) then (planOf s k).map fun x => (r.who, x) else none
    | _, _ => none

/-- The free time in Q64 time of the `j`-th beacon instant's slot (R422, R427). -/
def btxFree (s : State) (j : Nat) : Nat :=
  (j * (250 * fld s Fld.LNK_BCN_BI) + fld s Fld.LNK_BCNPH_PHASE) * 2 ^ 30 / 1000 -
    q64Us (1000 * fld s Fld.LNK_CCA_LISTEN + turnUs)

/-- The node sends beacons (R427, R436). -/
def beacons (s : State) : Bool := flag s Fld.LNK_BCN_EN && fld s Fld.LNK_EPOCH_EPOCH != 0 && !s.lnk.silent

/-- The slots of its own beacons about a Q64 time, as free times and lengths in Q64 units. -/
def btxNear (s : State) (t : Nat) : List (Nat × Nat) :=
  match linkEntry s (slotEntryNo s .btx) with
  | some e =>
    if beacons s then (List.range 3).map fun j =>
      (btxFree s (q64Ms t / max 1 (250 * fld s Fld.LNK_BCN_BI) - 1 + j), q64Us (slotLength s .btx 0 e))
    else []
  | none => []

/-- The window to come of a source, whole or what is left of it to post, as free time and length in Q64 units (R424, R431). -/
def brxNear (s : State) (k : Nat) : Option (Nat × Nat) :=
  let x := nbrOf s (srcNbr s k)
  match linkEntry s (slotEntryNo s .brx) with
  | some e =>
    if !srcWindows s k || x.track == 5 then none
    else if x.window then some (q64 s + (x.segAt - s.clk.now) * 2 ^ 30 / 100000000, q64Us x.left)
    else if x.nextBi.isSome then some ((windowFree s x (nextBeacon s x)).toNat, q64Us (brxLength s x e))
    else none
  | none => none

/-- A slot of the MAC's own that ranks before another is due within it (R424): a beacon, or a window of a source. -/
def foremostDue (s : State) (x : LnkSlot) (len : Nat) : Bool :=
  let hits (w : Nat × Nat) : Bool := overlaps x.free (x.free + q64Us len) w.1 (w.1 + w.2)
  let rank (k : Nat) : Nat := if adopted s = k then 1 else 2 + k
  (x.kind != .btx && (btxNear s x.free).any hits) ||
    (List.range 4).any fun k => rank k < slotRank s x && (brxNear s k).any hits

/-- The scheduled slot that runs overlaps an interval. -/
def runningClash (s : State) (at_ len : Nat) : Option LnkSlot :=
  match s.lnk.slot, lnkGrant s with
  | some y, some g => if g.scheduled && overlaps at_ (at_ + len) g.since g.until_ then some y else none
  | _, _ => none

/-- The scheduled slot that runs gives way at a free time (R424). -/
def runningYields (s : State) (at_ : Nat) : State :=
  let cut (g : Grant) : Grant :=
    if isLinkWho g.who && g.scheduled && !g.topUp then { g with until_ := min g.until_ at_, shortened := true } else g
  { s with sched := { s.sched with grants := s.sched.grants.map cut } }

/-- Only the foremost of the MAC's own overlapping slots is posted (R424): none where the new one is not the foremost, else the state
without those behind it. -/
def foremost (s : State) (x : LnkSlot) (at_ len : Nat) : Option State :=
  let clash := slotClashes s at_ (us len)
  let runs := runningClash s at_ (us len)
  let ahead (y : LnkSlot) : Bool := decide (slotRank s y < slotRank s x)
  if clash.any (fun c => ahead c.2) || runs.any ahead || foremostDue s x len then none
  else
    let t := clash.foldl (fun u c => slotLost (dropPlan (withdraw u c.1) (planNo c.1)) c.2 0) s
    some (if runs.isSome then runningYields t at_ else t)

/-- Post a scheduled slot of a free time (R386, R422, R424). -/
def slotPostOn (s : State) (kind : SlotKind) (src len : Nat) (e : Entry) (at_ free : Nat) : State :=
  let i := slotEntryNo s kind
  let q := nextLeaf s i e
  match q.1 with
  | none => q.2
  | some rp =>
    let t := q.2
    let chan := if kind = .rdv then rdvChan t e free else eChan e 0
    let x : LnkSlot := { kind := kind, src := src, entry := i, rp := rp, chan := chan, free := free }
    match foremost t x at_ len with
    | none => slotLost t x 0
    | some t1 =>
      let k := slotNo t1 kind src
      let air := slotAir t1 kind rp chan
      let r := postRequest t1 { who := .linkSlot k, cls := .c0, mask := slotMask t1 rp, fence := linkFence t1 air,
                                kind := .linkSlot len, freeAt := some at_, air := air }
      if r.2 then setPlan r.1 k x else slotLost r.1 x 1

/-- A slot that comes 20 ms after its posting (R424). -/
def slotPostSoon (s : State) (kind : SlotKind) (e : Entry) : State :=
  slotPostOn s kind 0 (slotLength s kind 0 e) e (s.clk.now + ms 20) (q64 s + q64Us 20000)

/-- A window part of so many µs that starts at a CLK100 time is posted, with what is left of the window. -/
def brxPart (s : State) (k : Nat) (e : Entry) (at_ free total : Nat) : State :=
  let n := srcNbr s k
  let x := nbrOf s n
  let seg := min 100000 total
  slotPostOn (setNbr s n { x with window := true, left := total - seg, got := x.window && x.got, segAt := at_ + us seg }) .brx k seg e at_ free

/-- A part of a beacon window is posted (R424, R431, R432, R434): the first at the window's free time, each other where the one before it
ends; a source not heard since the start is searched from 20 ms on. -/
def brxPost (s : State) (k : Nat) (e : Entry) : State :=
  let x := nbrOf s (srcNbr s k)
  if x.window then
    (if x.left = 0 then s else brxPart s k e x.segAt (q64 s + (x.segAt - s.clk.now) * 2 ^ 30 / 100000000) x.left)
  else
    match x.nextBi with
    | some _ =>
      let free := (windowFree s x (nextBeacon s x)).toNat
      brxPart s k e (clkOfQ64 s free) free (brxLength s x e)
    | none => brxPart s k e (s.clk.now + ms 20) (q64 s + q64Us 20000) (brxLength s x e)

/-- The DATA slot of R422 is requested while R423 asks for one. -/
def dataPost (s : State) : State :=
  let want := flag s Fld.LNK_DATA_EN && (flag s Fld.LNK_DATA_LISTEN || s.lnk.queue.any fun f => f.anytime)
  match want, linkEntry s (fld s Fld.LNK_DATA_ENTRY) with
  | true, some e =>
    if mayPost s .linkData && flag s Fld.SYS_BOOTSTAT_DONE && 3 ≤ mode s then
      let i := fld s Fld.LNK_DATA_ENTRY
      let q := nextLeaf s i e
      match q.1 with
      | none => q.2
      | some rp =>
        let t := q.2
        let c := eChan e 0
        let r := postRequest t { who := .linkData, cls := .c2, mask := slotMask t rp, fence := 0,
                                 kind := .linkSlot (1000 * fld t Fld.LNK_DATA_SLOT), air := slotAir t .data rp c }
        if r.2 then setPlan r.1 100 { kind := .data, entry := i, rp := rp, chan := c } else s
    else s
  | _, _ => s

/-- A slot is posted ahead of its free time (R424), as its kind allows: BTX with an epoch in force (R427), BRX of a source
that has windows (R432), RDV while enabled (R422). -/
def slotPost (s : State) (kind : SlotKind) (src : Nat) : State :=
  match linkEntry s (slotEntryNo s kind) with
  | none => s
  | some e =>
    match kind with
    | .btx => if beacons s then slotPostSoon s .btx e else s
    | .brx => if srcWindows s src ∧ (nbrOf s (srcNbr s src)).track ≠ 5 then brxPost s src e else s
    | .rdv => if flag s Fld.LNK_RDV_EN then slotPostSoon s .rdv e else s
    | .data => dataPost s

def execSlotPost (kind : SlotKind) (src : Fin 4) (s : State) : Host.Outcome State Fault Refusal := next (slotPost s kind src)

/-- A LOST source is searched again with one window of the widest width, in ACTIVE or RADIO (R432). -/
def rescan (s : State) (k : Nat) : State :=
  match linkEntry s (slotEntryNo s .brx) with
  | none => s
  | some e => if flag s (Fld.LNK_SRC_EN k) ∧ (nbrOf s (srcNbr s k)).track = 5 ∧ (mode s = 3 ∨ mode s = 4) then brxPost s k e else s

def execRescan (src : Fin 4) (s : State) : Host.Outcome State Fault Refusal := next (rescan s src)

/-- The slot's beacon takes its counter and is secured for its instant (R404, R405, R427). -/
def beaconTake (s : State) : State :=
  match s.lnk.slot, s.lnk.act with
  | some x, .listenBeacon _ =>
    let q := takeCounter s
    match q.1 with
    | some fc => { q.2 with lnk := { q.2.lnk with beaconFc := some fc } }
    | none => setAct (slotPacket (withhold q.2 ((withheldNow q.2).getD 2)) x 5 x.free) .idle
  | _, _ => s

/-- The slot's beacon is secured during its listen, so that it leaves at its instant (R405, R416, R427): once its counter is covered it
takes its turn on Flint; one whose counter cannot be had is withheld (R418). -/
def beaconSecure (s : State) : State :=
  match s.lnk.slot, s.lnk.act, s.lnk.beaconFc with
  | some x, .listenBeacon _, none =>
    let t := counterAsk s
    match counterBarred t with
    | some w => setAct (slotPacket (withhold t w) x 5 x.free) .idle
    | none => if counterCovered t then flintTurn t (lnkWho t) .beaconInstant beaconTake else t
  | _, _, _ => s

/-- A beacon's own slot begins (R418, R420, R427): withheld or over budget it is skipped, else its listen begins. -/
def btxStart (s : State) (x : LnkSlot) : State :=
  let e := slotEntry s x
  match withheldNow s with
  | some w => slotPacket (withhold s w) x 5 x.free
  | none =>
    if sbFits s x.chan (airtime s e (beaconPsdu s (lnkMode e))) then beaconSecure (setAct s (.listenBeacon false))
    else slotPacket (incSat (raise s 46) Fld.LNK_MACCNT4_BUDGET 1) x 4 x.free

/-- A granted slot starts (R196, R407, R423): its read point is assigned, and the queue's or the beacon's listen begins. -/
def linkStart (s : State) (who : Consumer) : State :=
  match planOf s (planNo who) with
  | none => s
  | some x =>
    let s1 := assignRp (dropPlan s (planNo who)) .b x.rp
    let s2 := { s1 with lnk := { s1.lnk with slot := some x, act := .idle, owed := none, acking := false, rx := none, opening := [],
                                             beaconFc := none } }
    match x.kind with
    | .btx => btxStart s2 x
    | .brx => s2
    | _ => sendHead s2

/-- A scheduled slot that is not granted for want of `CXGNT` (R171, R424). -/
def slotNotGranted (s : State) (who : Consumer) : State :=
  match planOf s (planNo who) with
  | none => s
  | some x => slotLost (dropPlan s (planNo who)) x 2

/-- A beacon window is over (R424, R432). -/
def windowEnd (s : State) (k : Nat) : State :=
  let n := srcNbr s k
  if !(flag s (Fld.LNK_SRC_EN k) && (nbrOf s n).window) then s
  else
    let s1 := match s.lnk.slot with
      | some x => if x.kind = .brx ∧ x.src = k then linkCut s false else s
      | none => s
    let y := nbrOf s1 n
    if y.got then setNbr s1 n { y with window := false, left := 0, got := false } else windowMissed s1 k

/-! ### Windows to come (R424, R426, R431) -/

/-- The window of a source after `n` more windows without a beacon (R431, R432); none once it is LOST. A source not heard since the
start is searched from now on (R434). -/
def brxWindow (s : State) (e : Entry) (k n : Nat) : Option LnkWindow :=
  let y := nbrOf s (srcNbr s k)
  let x := Nat.repeat (missOnce s) n y
  let j := nextBeacon s y + n
  if x.track = 5 then none
  else
    match x.nextBi with
    | none => if n = 0 then some { kind := .brx, src := k, free := q64 s, len := brxLength s x e } else none
    | some _ => some { kind := .brx, src := k, free := (windowFree s x j).toNat, len := brxLengthAt s x e j }

/-- The `n`-th rendezvous window from now (R422). -/
def rdvWindow (s : State) (n : Nat) : LnkWindow :=
  let p := 10 * fld s Fld.LNK_RDV_PERIOD
  let o := 10 * fld s Fld.LNK_RDV_OFFSET
  let r := (q64Ms (q64 s) + p - o) / max 1 p + n
  { kind := .rdv, src := 0, free := ((r * p + o) * 2 ^ 30 + 999) / 1000, len := 1000 * fld s Fld.LNK_RDV_LEN }

/-- A window that overlaps none of those planned joins them (R424). -/
def planAdd (l : List LnkWindow) (w : LnkWindow) : List LnkWindow :=
  if l.any fun v => overlaps w.free (w.free + q64Us w.len) v.free (v.free + q64Us v.len) then l else l ++ [w]

/-- The next windows, at most 64, as if no beacon arrived, earliest first; where they overlap only the foremost is planned
(R424, R426). -/
def planWindows (s : State) : List LnkWindow :=
  let srcs := (List.range 4).filter fun k => srcWindows s k && (nbrOf s (srcNbr s k)).track != 5
  let order := srcs.filter (fun k => adopted s == k) ++ srcs.filter (fun k => adopted s != k)
  let brx := match linkEntry s (slotEntryNo s .brx) with
    | some e => order.flatMap fun k => (List.range 64).filterMap fun n => brxWindow s e k n
    | none => []
  let rdv := if flag s Fld.LNK_RDV_EN && (linkEntry s (slotEntryNo s .rdv)).isSome then (List.range 64).map (rdvWindow s) else []
  (((brx ++ rdv).foldl planAdd []).insertionSort fun a b => a.free ≤ b.free).take 64

/-- The end of the window in which a source becomes STALE if no beacon comes, in Q64 time (R426, R432). -/
def staleAt (s : State) (k : Nat) : Option Nat :=
  let x := nbrOf s (srcNbr s k)
  match linkEntry s (slotEntryNo s .brx) with
  | some e =>
    if srcWindows s k ∧ 2 ≤ x.track ∧ x.track ≤ 3 then
      (brxWindow s e k (2 - min 2 x.missed)).map fun w => w.free + q64Us w.len
    else none
  | none => none

/-- The earlier of two times, where there are any. -/
def earlier : Option Nat → Option Nat → Option Nat
  | some a, some b => some (min a b)
  | some a, none => some a
  | none, b => b

/-- The time at which 8 of the planned windows remain, or at which a source would become STALE, in Q64 time (R426). A plan of 8 windows
or fewer has no such time (DESIGN CHOICE, log entry 51). -/
def planEnds (s : State) (l : List LnkWindow) : Option Nat :=
  let few := if 8 < l.length then (l[l.length - 9]?).map fun w => w.free + q64Us w.len else none
  (List.range 4).foldl (fun m k => earlier m (staleAt s k)) few

/-- Beaconing in holdover ends (R436). -/
def holdoverEnd (s : State) : State :=
  if flag s Fld.LNK_ORIGIN_HOLD then
    if flag s Fld.LNK_BCN_CANORIG && flag s Fld.LNK_BCN_EN then becomeOrigin s false
    else
      let p := pairNow s
      epochPacket { s with lnk := { s.lnk with silent := true } } 4 p p
  else s

def execHoldoverEnd (s : State) : Host.Outcome State Fault Refusal := next (holdoverEnd s)

/-! ### Reception below the checks -/

/-- The slot's chains deliver samples (R205). -/
def chainsRun (s : State) (x : LnkSlot) : Bool := (bitList 4 (rpRxMask s x.rp)).all fun k => !s.radio.switching.contains k

/-- The receiver is free for a frame (R205, R393, R423): in RXON with its chains sampling, not listening or transmitting, no frame in
hand. -/
def canReceive (s : State) : Bool :=
  (s.lnk.slot.any (chainsRun s)) && pathState s .b == 3 && s.lnk.rx.isNone && !s.lnk.acking && (match s.lnk.act with
    | .listen .. => false
    | .listenBeacon _ => false
    | .tx => false
    | .txBeacon => false
    | _ => true)

/-- What came before the SFD, and the carrier offset, let the receiver acquire a frame of the mode (R389). -/
def acquires (m : Nat) (a : LinkLead) : Bool :=
  if 6 ≤ m ∧ m ≤ 9 then a.stf && decide (a.ppm10.natAbs ≤ 300)
  else decide ((if m ≤ 5 then 24 else 32) ≤ a.bits) && decide (a.ppm10.natAbs ≤ 600)

/-- What the equaliser makes of the SNR of each data sub-carrier, in 0.25 dB units (R391): the frame's mean, how many lie below the floor,
and how many there are. The mean is that of the values in dB (DESIGN CHOICE, log entry 51). -/
def equalise (s : State) (l : List Byte) : Nat × Nat × Nat :=
  let n := l.length
  let sum := (l.map fun b => b.toNat).sum
  let low (b : Byte) : Bool := b.toNat < 4 * fld s Fld.LNK_EQ_ABS || b.toNat * n + 4 * fld s Fld.LNK_EQ_REL * n < sum
  (sum / max 1 n, l.countP low, n)

/-- SNR, sub-carriers erased and data sub-carriers of a frame: the equaliser's from the SNR of each sub-carrier, where an OFDM frame's are
given, else as the row says. -/
def rxSnr (s : State) (m : Nat) (l : List Byte) (snr erased active : Nat) : Nat × Nat × Nat :=
  if 6 ≤ m ∧ m ≤ 9 ∧ l ≠ [] then equalise s l else (snr, erased, active)

/-- From the detection to the stamp point in ns (R390, R395): at the SFD none, at the end of the STF the LTF. -/
def stampNs (m : Nat) : Nat := if 6 ≤ m ∧ m ≤ 9 then 1000 * Config.ofdmLtf (m - 6) else 0

/-- An SFD, or the end of the STF: the frame is in hand, stamped, its gain frozen (R389–R391, R394, R395). -/
def linkSfd (s : State) (a : LinkLead) (level snr0 erased0 active0 : Nat) (carriers : List Byte) : State :=
  match s.lnk.slot with
  | none => s
  | some x =>
    let m := lnkMode (slotEntry s x)
    if !canReceive s || !acquires m a then s
    else
      let (snr, erased, active) := rxSnr s m carriers snr0 erased0 active0
      let r : LnkRx := { level := level, snr := snr, erased := erased, stamp := q64 s + q64Ns (stampNs m),
                         at_ := s.clk.now + clkNs (stampNs m), preemptor := s.lnk.preempting }
      let s1 := incSat { s with lnk := { s.lnk with rx := some r, preempting := false } } Fld.LNK_PHYCNT0_SYNC 1
      let s2 := (bitList 4 (rpRxMask s1 x.rp)).foldl (fun t k =>
        reportLevel (setFlag t (Fld.RAD_RXC_STAT_FROZEN k)) k level) s1
      if 6 ≤ m ∧ m ≤ 9 ∧ fld s2 Fld.LNK_EQ_ERASEMAX * active < 100 * erased then rxEnd s2 4 else s2

def execLinkSfd (level snr : Byte) (erased active : Nat) (s : State) (lead : LinkLead := ⟨32, true, 0⟩) (carriers : List Byte := []) :
    Host.Outcome State Fault Refusal :=
  next (linkSfd s lead level.toNat snr.toNat erased active carriers)

/-- The status a PHR ends a frame with, 0 for none (R379, R382, R383). -/
def phrStatus (s : State) (e : Entry) (p : LinkPhr) : Nat :=
  let m := lnkMode e
  let fcs := rxFcsLen s m p
  if m ≤ 5 ∧ p.modeSwitch then 7
  else if 6 ≤ m ∧ m ≤ 9 ∧ ¬p.checkOk then 2
  else if 6 ≤ m ∧ m ≤ 9 ∧ ¬mcsMarked (m - 6) p.mcs then 7
  else if p.len.val = 0 ∨ psduMax m < p.len ∨ p.len < fcs then 2
  else 0

/-- A PHR is decoded (R379, R382, R383). -/
def linkPhr (s : State) (p : LinkPhr) : State :=
  match s.lnk.slot, s.lnk.rx with
  | some x, some r =>
    if r.phr.isSome then s
    else
      let st := phrStatus s (slotEntry s x) p
      if st = 0 then { s with lnk := { s.lnk with rx := some { r with phr := some p } } } else rxEnd s st
  | _, _ => s

def execLinkPhr (phr : LinkPhr) (s : State) : Host.Outcome State Fault Refusal := next (linkPhr s phr)

/-- A second preamble during a frame (R392): at least DB above it, it takes the receiver. -/
def linkPreempt (s : State) (level : Nat) : State :=
  match s.lnk.rx with
  | some r =>
    if flag s Fld.LNK_CAPTURE_EN ∧ level + 2 * fld s Fld.LNK_CAPTURE_DB ≤ r.level then
      let s1 := rxEnd s 3
      { s1 with lnk := { s1.lnk with preempting := true } }
    else s
  | none => s

def execLinkPreempt (level : Byte) (s : State) : Host.Outcome State Fault Refusal := next (linkPreempt s level.toNat)

/-- An energy reading of 128 µs in RXON outside a frame, from chains that deliver samples (R205, R210, R396, R408): busy at or above
THR. -/
def edSample (s : State) (level : Nat) : State :=
  match s.lnk.slot with
  | none => s
  | some x => if pathState s .b ≠ 3 ∨ s.lnk.rx.isSome ∨ ¬chainsRun s x then s else energy s x level
where
  /-- A reading taken. -/
  energy (s : State) (x : LnkSlot) (level : Nat) : State :=
    let s0 := (bitList 4 (rpRxMask s x.rp)).foldl (fun t k => reportLevel t k level) s
    let s1 := setFld (setFld s0 Fld.LNK_ED_ED level) Fld.LNK_ED_EDPEAK (min level (fld s Fld.LNK_ED_EDPEAK))
    let busy := level ≤ 2 * fld s1 Fld.LNK_CCA_THR
    match s1.lnk.act with
    | .listen be nb b => setAct s1 (.listen be nb (b || busy))
    | .listenBeacon b => setAct s1 (.listenBeacon (b || busy))
    | _ => s1

def execEdSample (level : Byte) (s : State) : Host.Outcome State Fault Refusal := next (edSample s level.toNat)

/-! ### The checks of R411 -/

/-- A received MAC header (R403, R411; log entry 15). -/
structure LnkHdr where
  type : Nat
  version : Nat
  sec : Bool
  ar : Bool
  ie : Bool
  srcMode : Nat
  seq : Nat
  destPan : Option Nat
  /-- A short destination address. -/
  dest : Option Nat
  srcPan : Option Nat
  src : Nat
  level : Nat
  keyMode : Nat
  fc : Nat
  keyIndex : Nat
  /-- Octets up to the end of the auxiliary security header. -/
  len : Nat
  deriving DecidableEq, Repr

/-- Octets of an address by its mode. -/
def addrLen (m : Nat) : Nat := match m with | 2 => 2 | 3 => 8 | _ => 0

/-- Which PAN IDs a version 0b10 header carries (IEEE 802.15.4-2015; log entry 15): destination and source. -/
def panFields (dm sm : Nat) (comp : Bool) : Bool × Bool :=
  if dm = 0 ∧ sm = 0 then (comp, false)
  else if sm = 0 then (!comp, false)
  else if dm = 0 then (false, !comp)
  else if dm = 3 ∧ sm = 3 then (!comp, false)
  else (true, !comp)

/-- Read a header; none where the octets do not hold one. -/
def lnkParse (o : List Byte) : Option LnkHdr :=
  let u (k n : Nat) : Nat := leNat ((o.drop k).take n)
  let f := u 0 2
  let dm := f / 2 ^ 10 % 4
  let sm := f / 2 ^ 14 % 4
  let pans := panFields dm sm (f.testBit 6)
  let p1 := if f.testBit 8 then 2 else 3
  let p2 := p1 + (if pans.1 then 2 else 0)
  let p3 := p2 + addrLen dm
  let p4 := p3 + (if pans.2 then 2 else 0)
  let p5 := p4 + addrLen sm
  let len := if f.testBit 3 then p5 + 6 else p5
  if o.length < 3 ∨ o.length < len ∨ dm = 1 ∨ sm = 1 then none
  else some {
    type := f % 8, version := f / 2 ^ 12 % 4, sec := f.testBit 3, ar := f.testBit 5, ie := f.testBit 9, srcMode := sm,
    seq := u 2 1, destPan := if pans.1 then some (u p1 2) else none,
    dest := if dm = 2 then some (u p2 2) else none,
    srcPan := if pans.2 then some (u p3 2) else none, src := u p4 (addrLen sm),
    level := u p5 1 % 8, keyMode := u p5 1 / 8 % 4, fc := u (p5 + 1) 4, keyIndex := u (p5 + 5) 1, len := len }

/-- The end of the header IEs from a place on: HT1 with payload IEs after it, or HT2 (log entry 15). -/
def headerIes (o : List Byte) : Nat → Nat → Option (Nat × Bool)
  | 0, _ => none
  | n + 1, k =>
    let w := leNat ((o.drop k).take 2)
    if o.length < k + 2 then none
    else if w / 2 ^ 7 % 2 ^ 8 = 0x7E then some (k + 2, true)
    else if w / 2 ^ 7 % 2 ^ 8 = 0x7F then some (k + 2, false)
    else headerIes o n (k + 2 + w % 2 ^ 7)

/-- The Ranelo IE among payload IEs (R428): others, and those of another VID, SUBTYPE or VERSION, are passed over. -/
def findRanelo (s : State) (b : List Byte) : Nat → Nat → Option Ranelo
  | 0, _ => none
  | n + 1, k =>
    let u (i m : Nat) : Nat := leNat ((b.drop (k + 2 + i)).take m)
    let w := leNat ((b.drop k).take 2)
    let len := w % 2 ^ 11
    if b.length < k + 2 + len ∨ w / 2 ^ 11 % 2 ^ 4 = 0xF then none
    else if w / 2 ^ 11 % 2 ^ 4 = 2 ∧ len = 25 ∧ u 0 3 = fld s Fld.LNK_IEVID_VID ∧ u 3 1 = 1 ∧ u 4 1 = 1 then
      some { epoch := u 5 4, origin := u 9 2, sender := u 11 2, time := u 13 8, next := u 21 2, hops := u 23 1 }
    else findRanelo s b n (k + 2 + len)

/-- The neighbour entry of an EUI-64. -/
def nbrFind (s : State) (eui : Nat) : Option Nat := if eui = 0 then none else (nbrsInUse s).find? fun n => nbrEui s n == eui

/-- The lowest free entry whose commit is not pending (R413). -/
def nbrFree (s : State) : Option Nat := firstBelow 256 fun n => nbrEui s n == 0 && !flag s (cPend ⟨.nbr, n⟩)

/-- A learned source takes an entry, in force and in its shadow copy (R413). -/
def nbrLearn (s : State) (n eui : Nat) : State :=
  let s1 := setRegBoth (setRegBoth s (Adr.NBR_EUIH n) (BitVec.ofNat 32 (eui / 2 ^ 32)) false) (Adr.NBR_EUIL n) (BitVec.ofNat 32 eui) false
  setNbr (setReg s1 (Adr.NBR_FC n) 0) n {}

/-- An LRX FRAME packet (R439). -/
def lrx (s : State) (r : LnkRx) (x : LnkSlot) (status nbr : Nat) (h : Option LnkHdr) (payload : List Byte) : State :=
  let f (g : LnkHdr → Nat) : Nat := h.elim 0 g
  admitCut s 5 payload.length (BitVec.ofNat 32 (1 * 2 ^ 28 + status * 2 ^ 24 + lnkMode (slotEntry s x) * 2 ^ 20 + r.level * 2 ^ 12 +
      (if r.preemptor then 2 ^ 11 else 0) + payload.length) :: q64Words r.stamp ++
    [BitVec.ofNat 32 (nbr * 2 ^ 24 + r.snr * 2 ^ 16 + f (fun g => g.type) * 2 ^ 8 + f fun g => g.keyIndex),
     BitVec.ofNat 32 (f fun g => g.fc), BitVec.ofNat 32 ((f fun g => g.src) / 2 ^ 32), BitVec.ofNat 32 (f fun g => g.src)] ++
    packWords payload)

/-- A frame refused with a status of R439 is reported when RXERR asks for it. -/
def rxRefuse (s : State) (r : LnkRx) (x : LnkSlot) (status nbr : Nat) (h : Option LnkHdr) : State :=
  if flag s Fld.LNK_MACCFG_RXERR then lrx s r x status nbr h [] else s

/-- An Imm-Ack that answers the head frame in time (R409). -/
def ackRx (s : State) (r : LnkRx) (x : LnkSlot) (seq : Nat) : State :=
  match s.lnk.act, s.lnk.queue with
  | .ackWait, f :: _ =>
    let start := r.at_ - clkNs (syncNs s (slotEntry s x))
    let due := s.lnk.txEnd + us (fld s Fld.LNK_MACCFG_ACKDLY)
    if f.seq = seq ∧ due ≤ start + us 200 ∧ start ≤ due + us 200 then sendHead (setAct (headEnds s 0) .idle) else s
  | _, _ => s

/-- The Imm-Ack for a data frame to this node is owed ACKDLY after the frame's end, where the slot may send it; checks that end within 10 µs
of that, or after it, are too late (R410, R426). -/
def ackOwe (s : State) (r : LnkRx) (x : LnkSlot) (h : LnkHdr) : State :=
  let due := r.endAt + us (fld s Fld.LNK_MACCFG_ACKDLY)
  if h.type = 1 ∧ h.ar ∧ h.dest = some (fld s Fld.LNK_ID_NODE) ∧ x.kind ≠ .brx ∧ mode s ≠ 2 ∧
      due + us (ackUs s (slotEntry s x)) ≤ slotUntil s then
    if s.clk.now + us 10 ≤ due then { s with lnk := { s.lnk with owed := some (h.seq, due) } }
    else incSat s Fld.LNK_MACCNT4_ACKLATE 1
  else s

/-- An authenticated frame from entry n meets the counter rule (R412). A beacon received in WATCH waits for the next wake
(R63). -/
def counterRule (s : State) (r : LnkRx) (x : LnkSlot) (h : LnkHdr) (n : Nat) (fresh : Bool) (body mic : List Byte) : State :=
  let y := nbrOf s n
  let fc := (reg s (Adr.NBR_FC n)).toNat
  if (¬y.heard ∧ fc ≤ h.fc) ∨ fc < h.fc then
    let s1 := setReg s (Adr.NBR_FC n) (BitVec.ofNat 32 h.fc)
    let s2 := setNbr s1 n { y with heard := true, mic := mic, level := r.level, heardAt := s1.qtz.secs % 2 ^ 32 }
    let s3 := incSat s2 Fld.LNK_MACCNT1_RXOK 1
    -- a checkpoint for a learned entry, or NBRSTEP accepted frames since the last one (R416)
    let s4 := if fresh ∨ y.ckptFc + fld s3 Fld.LNK_CKPT_NBRSTEP ≤ h.fc then ckptAsk s3 else s3
    if h.type = 1 then
      let s5 := raise (lrx s4 r x 0 n (some h) body) 44
      ackOwe (if mode s5 = 2 then fireWake s5 8 else s5) r x h
    else
      let s5 := if flag s4 Fld.LNK_MACCFG_BCNRX ∧ (sourceOf s4 n).isNone then lrx s4 r x 0 n (some h) body else s4
      let b := findRanelo s5 body 32 0
      if mode s5 = 2 then
        let y5 := nbrOf s5 n
        let s6 := setNbr s5 n { y5 with got := y5.window || y5.got }
        { s6 with lnk := { s6.lnk with beacons := s6.lnk.beacons ++ [(n, r.stamp, b)] } }
      else beaconTrack s5 n r.stamp b
  else if h.fc = fc ∧ mic = y.mic then
    ackOwe (lrx (incSat s Fld.LNK_MACCNT2_DUP 1) r x 1 n (some h) []) r x h
  else rxRefuse (incSat s Fld.LNK_MACCNT1_REPLAY 1) r x 2 n (some h)

/-- A frame with a key is opened (R407, R411–R413): one that fails is AUTHFAIL, an unknown sender is learned if there is room. -/
def frameOpen (s : State) (r : LnkRx) (x : LnkSlot) (o : List Byte) (h : LnkHdr) (nbr : Option Nat) (key : List Byte) : State :=
  let head := if h.ie then (headerIes o 64 h.len).elim h.len fun p => p.1 else h.len
  match ccmOpen key h.src h.fc h.level (o.take head) (o.drop head) with
  | none => rxRefuse (incSat s Fld.LNK_MACCNT2_AUTHFAIL 1) r x 3 (nbr.getD 0xFF) (some h)
  | some p =>
    match nbr, nbrFree s with
    | some n, _ => counterRule s r x h n false p.1 p.2
    | none, some n => counterRule (nbrLearn s n h.src) r x h n true p.1 p.2
    | none, none => rxRefuse s r x 7 0xFF (some h)

/-- A frame is for this node, or a beacon of its PAN, and not one of its own (R411). -/
def frameMine (s : State) (h : LnkHdr) : Bool :=
  let pan := fld s Fld.LNK_ID_PAN
  let mine := if h.type = 1
    then (h.destPan == some pan || h.destPan == some 0xFFFF) && (h.dest == some (fld s Fld.LNK_ID_NODE) || h.dest == some 0xFFFF)
    else h.srcPan == some pan
  mine && !(h.srcMode == 3 && h.src == dieUid)

/-- A frame carries the security that R411 asks for. -/
def frameSecured (s : State) (h : LnkHdr) : Bool :=
  h.srcMode == 3 && h.sec && h.keyMode == 1 && h.level % 4 != 0 &&
    (h.level ≥ 5 || h.type == 0 || !flag s Fld.LNK_MACCFG_ENCREQ)

/-- What R411's checks make of a received frame before it is opened. -/
inductive FrameFate where
  /-- Nothing: it is not for this node. -/
  | drop
  /-- An Imm-Ack, which goes only to R409. -/
  | ack (h : LnkHdr)
  /-- Refused with a status of R439. -/
  | refuse (status nbr : Nat) (h : Option LnkHdr)
  /-- To be opened with a key; the sender's neighbour entry, if it has one. -/
  | open_ (h : LnkHdr) (nbr : Option Nat) (key : List Byte)
  deriving DecidableEq, Repr

/-- The checks of R411 from the address on. -/
def frameChecks (s : State) (h : LnkHdr) : FrameFate :=
  let nbr := nbrFind s h.src
  if !frameMine s h then .drop
  else if !frameSecured s h then .refuse 5 (nbr.getD 0xFF) (some h)
  else
    match (if h.keyIndex = 0 then none else keyOf s 1 (h.keyIndex - 1)) with
    | none => .refuse 4 (nbr.getD 0xFF) (some h)
    | some key => if nbr.isNone && !flag s Fld.LNK_MACCFG_LEARN then .refuse 6 0xFF (some h) else .open_ h nbr key

/-- The checks of R411 in order, up to the authentication. -/
def frameFate (s : State) (o : List Byte) : FrameFate :=
  match lnkParse o with
  | none => .refuse 8 0xFF none
  | some h =>
    if h.type = 2 ∧ h.version = 1 then .ack h
    else if h.version ≠ 2 ∨ 2 ≤ h.type then .refuse 8 0xFF (some h)
    else if h.ie ∧ (headerIes o 64 h.len).isNone then .refuse 8 0xFF (some h)
    else frameChecks s h

/-- A frame takes its fate (R411). -/
def macRx (s : State) (r : LnkRx) (x : LnkSlot) (o : List Byte) : State :=
  match frameFate s o with
  | .drop => s
  | .ack h => ackRx s r x h.seq
  | .refuse st n h => rxRefuse s r x st n h
  | .open_ h nbr key => frameOpen s r x o h nbr key

/-- Opening the frame takes Flint (R405). -/
def frameFlint (s : State) (o : List Byte) : Bool :=
  match frameFate s o with
  | .open_ _ _ _ => true
  | _ => false

/-- The oldest frame that waits for its opening is opened. -/
def linkFrameDone (s : State) : State :=
  match s.lnk.opening with
  | [] => s
  | h :: l => macRx { s with lnk := { s.lnk with opening := l } } h.rx h.slot h.octets

/-- A good frame goes to the MAC (R394, R411); one that is to be opened takes its turn on Flint, as a top-up of the slot (R154, R405). -/
def frameGot (s : State) (r : LnkRx) (x : LnkSlot) (o : List Byte) : State :=
  if frameFlint s o then
    flintTurn { s with lnk := { s.lnk with opening := s.lnk.opening ++ [{ rx := r, slot := x, octets := o }] } } (lnkWho s)
      (.linkFrameEnd true ⟨o⟩) linkFrameDone
  else macRx s r x o

/-- The octets that a frame's end yields where its FCS is good: those of its PSDU as it came off the air, or the row's word for both. -/
def frameOctets (s : State) (x : LnkSlot) (p : LinkPhr) (good : Bool) (f : LinkFrame) : Option (List Byte) → Option (List Byte)
  | some air => rxOctets s (lnkMode (slotEntry s x)) p air
  | none => if good then some f.octets else none

/-- A frame in hand ends, RX_OK or RX_FCS (R381, R382, R394). -/
def linkFrameEnd (s : State) (good : Bool) (f : LinkFrame) (psdu : Option (List Byte)) : State :=
  match s.lnk.slot, s.lnk.rx with
  | some x, some r =>
    match r.phr with
    | none => s
    | some p =>
      match frameOctets s x p good f psdu with
      | some o => frameGot (rxEnd (lnkQuiet s) 0) { r with endAt := s.clk.now } x o
      | none => rxEnd (lnkQuiet s) 1
  | _, _ => s

def execLinkFrameEnd (fcsGood : Bool) (frame : LinkFrame) (s : State) (psdu : Option (List Byte) := none) :
    Host.Outcome State Fault Refusal :=
  next (linkFrameEnd s fcsGood frame psdu)

/-! ### Transmission -/

/-- The carrier of path B comes up for the link (R183, R201, R203): the trim starts from 0 from IDLE and on another port, and an external
PA of the port is enabled. -/
def linkCarrier (s : State) (port idx : Nat) : State :=
  let moved := s.radio.b.fromIdle || fld s (fTxPort .b) != port
  let s1 := if moved then clrFld s (fTrim .b) else s
  let s2 := setFld (setFld (setFlag (setFld s1 (fPath .b) 4) (fCarr .b)) (fTxPort .b) port) (fIdx .b) idx
  let s3 := setPathSt s2 .b { s2.radio.b with fromIdle := false, rampAt := s2.clk.now }
  paRaise (setChains (setFld s3 (fPort .b) port)) port

/-- Path B transmits a frame in its slot, its first symbol so many ns from now (R183, R381, R395, R398, R420): the turnaround, the
carrier, and the charge; false where the power index may not be used (R200). -/
def linkRadiate (s : State) (x : LnkSlot) (octets : List Byte) (leadNs : Nat) : State × Bool :=
  let e := slotEntry s x
  let port := rpPort s x.rp
  if powerOk s port (ePower e) then
    let s2 := linkCarrier s port (ePower e)
    (sbCharge { s2 with lnk := { s2.lnk with sent := [lnkAir s e octets leadNs] } } x.chan (airtime s e (octets.length + fcsLen s (lnkMode e))), true)
  else (s, false)

/-- The listen of the head frame ends (R408): clear, the frame goes on the air; busy, a backoff or the end BUSY. -/
def listenEnd (s : State) : State :=
  match s.lnk.slot, s.lnk.act, s.lnk.queue with
  | some x, .listen be nb busy, f :: _ =>
    if pathState s .b ≠ 3 then s
    else if busy then
      if fld s Fld.LNK_CCA_MAXBO < nb + 1 then sendHead (headEnds s 3)
      else setAct s (.backoff (min (be + 1) (fld s Fld.LNK_CCA_BEMAX)) (nb + 1))
    else
      let r := linkRadiate (lnkQuiet s) x ((f.secured.map fun p => p.2).getD []) (1000 * turnUs)
      if r.2 then setAct r.1 .tx else pathAbort s .b 8
  | _, _, _ => s

/-- A wait ends (R408, R409): the next listen of the attempt, where it fits, or the next attempt. -/
def backoffEnd (s : State) : State :=
  match s.lnk.slot, s.lnk.act, s.lnk.queue with
  | some x, .backoff be nb, f :: _ =>
    let e := slotEntry s x
    if slotUntil s < s.clk.now + us (attemptUs s e f) then setAct (attemptBack s) .idle
    else if !sbFits s x.chan (airtime s e (dataPsdu s (lnkMode e) f.payload.length)) then
      sendHead (headEnds (incSat (raise s 46) Fld.LNK_MACCNT4_BUDGET 1) 4)
    else setAct (rxEnd s 5) (.listen be nb false)
  | some _, .retry, _ => sendHead s
  | _, _, _ => s

def execBackoffEnd (s : State) : Host.Outcome State Fault Refusal := next (backoffEnd s)

/-- The carrier of path B ends with a turnaround to receive (R183, R398). -/
def linkReceive (s : State) : State :=
  let s1 := enterRxon (carrierOff s .b) .b
  { s1 with lnk := { s1.lnk with txEnd := s1.clk.now, acking := false } }

/-- A transmission ends (R398, R409). -/
def linkTxEnd (s : State) : State :=
  if pathState s .b ≠ 4 ∨ s.lnk.slot.isNone then s
  else if s.lnk.acking then linkReceive s
  else
    match s.lnk.act, s.lnk.queue with
    | .tx, f :: _ =>
      let s1 := linkReceive s
      if f.ar then setAct s1 .ackWait else sendHead (headEnds s1 1)
    | .tx, [] => setAct (linkReceive s) .idle
    | .txBeacon, _ => setAct (linkReceive s) .idle
    | _, _ => s

def execLinkTxEnd (s : State) : Host.Outcome State Fault Refusal := next (linkTxEnd s)

/-- No Imm-Ack has come (R409): the attempt has failed. A retry that waits no time is the BACKOFF_END after it. -/
def ackWaitEnd (s : State) : State :=
  match s.lnk.act with
  | .ackWait =>
    let s1 := attemptFails s
    match s1.lnk.act with
    | .idle => sendHead s1
    | _ => s1
  | _ => s

def execAckWaitEnd (s : State) : Host.Outcome State Fault Refusal := next (ackWaitEnd s)

/-- The Imm-Ack owed is sent at its moment, or is late (R410); it is charged and never refused (R420). -/
def immAckSend (s : State) : State :=
  match s.lnk.slot, s.lnk.owed with
  | some x, some (seq, due) =>
    let s1 := lnkQuiet { s with lnk := { s.lnk with owed := none } }
    if due < s.clk.now then incSat s1 Fld.LNK_MACCNT4_ACKLATE 1
    else if pathState s1 .b ≠ 3 then s1
    else
      let r := linkRadiate (rxEnd s1 5) x (ackFrame seq) (10 * (due - s1.clk.now))
      if r.2 then { r.1 with lnk := { r.1.lnk with acking := true } } else pathAbort s1 .b 8
  | _, _ => s

/-- A beacon goes on the air at its instant (R427), carrying the time of its own stamp point (R395, R428). -/
def beaconSend (s : State) (x : LnkSlot) (fc : Nat) : State :=
  let r := linkRadiate (lnkQuiet s) x (beaconFrame s fc (q64 s + q64Ns (syncNs s (slotEntry s x)))) 0
  if r.2 then setAct { r.1 with lnk := { r.1.lnk with bseq := (r.1.lnk.bseq + 1) % 256 } } .txBeacon
  else pathAbort s .b 8

/-- The beacon instant (R427): a clear channel sends the beacon, a busy one skips it. One that is not secured by then is skipped as
WITHHELD (DESIGN CHOICE, log entry 51). -/
def beaconInstant (s : State) : State :=
  match s.lnk.slot, s.lnk.act with
  | some x, .listenBeacon busy =>
    if busy then setAct (slotPacket (incSat s Fld.LNK_MACCNT3_CCABUSY 1) x 3 x.free) .idle
    else if pathState s .b ≠ 3 then setAct s .idle
    else
      match s.lnk.beaconFc, withheldNow s with
      | some fc, none => beaconSend s x fc
      | _, _ => setAct (slotPacket s x 5 x.free) .idle
  | _, _ => s

/-! ### The queue -/

/-- The frame at the head has begun an attempt. -/
def headBegun (s : State) : Bool :=
  match s.lnk.act with
  | .listen .. => true
  | .backoff .. => true
  | .retry => true
  | .tx => true
  | .ackWait => true
  | _ => false

/-- A queued frame reaches the end of its life (R409); one in an attempt ends before its next. -/
def frameExpired (s : State) (pos : Nat) : State :=
  match s.lnk.queue[pos]? with
  | some f =>
    if expired s f ∧ ¬(pos = 0 ∧ headBegun s ∧ s.lnk.act ≠ .retry) then
      let s1 := txPacket { s with lnk := { s.lnk with queue := s.lnk.queue.eraseIdx pos } } f 6
      if pos = 0 ∧ s.lnk.act = .retry then setAct s1 .idle else s1
    else s
  | none => s

def execFrameExpired (pos : Fin 8) (s : State) : Host.Outcome State Fault Refusal := next (frameExpired s pos)

/-- Frames that have not begun an attempt are discarded (R406). -/
def txFlush (s : State) : State :=
  let gone := s.lnk.queue.filter fun f => f.attempts == 0
  gone.foldl (fun t f => txPacket t f 7) { s with lnk := { s.lnk with queue := s.lnk.queue.filter fun f => f.attempts != 0 } }

/-- RESULT and REASON of the last command (R445). -/
def txResult (s : State) (result reason : Nat) : State :=
  setFld (setFld s Fld.LNK_TXSTAT_RESULT result) Fld.LNK_TXSTAT_REASON reason

/-- The first bytes of the transmit buffer. -/
def txBytes (s : State) (n : Nat) : List Byte :=
  (unpackWords ((List.range ((n + 3) / 4)).map fun w => reg s (Adr.LNK_TXBUF w))).take n

/-- The longest payload a frame may carry now. -/
def txLimit (s : State) : Nat :=
  match linkEntry s (fld s Fld.LNK_DATA_ENTRY) with
  | some e => payloadMax s (lnkMode e)
  | none => 2006

/-- After a frame is queued: posts follow, and it may go at once in a slot that is open (R406, R418). -/
def txQueued (s : State) : State :=
  let s1 := dataPost (txResult s 1 0)
  let s2 := match withheldNow s1 with
    | some w => withhold s1 w
    | none => s1
  if s2.lnk.slot.isSome && s2.lnk.act == .idle && s2.lnk.owed.isNone && !s2.lnk.acking then sendHead s2 else s2

/-- The frame that `LNK_TXCMD` asks for. -/
def txFrame (s : State) (v : Word) : LnkTx :=
  let life := fld s Fld.LNK_TXDEST_LIFE
  { payload := txBytes s (bitsOf v 23 13), dest := fld s Fld.LNK_TXDEST_DEST, ar := bitsOf v 30 30 == 1,
    anytime := bitsOf v 29 29 == 1, tag := bitsOf v 27 24, life := life, queuedAt := s.clk.now, seq := 0 }

/-- GO = 1 queues one frame, or is refused (R406). -/
def txGo (s : State) (v : Word) : State :=
  let len := bitsOf v 23 13
  if len == 0 || decide (txLimit s < len) then txResult s 2 1
  else if bitsOf v 30 30 == 1 && fld s Fld.LNK_TXDEST_DEST == 0xFFFF then txResult s 2 2
  else if !flag s Fld.LNK_DATA_EN && !flag s Fld.LNK_RDV_EN then txResult s 2 3
  else
    let r := queueFrame s (txFrame s v)
    if r.2 then txQueued r.1 else txResult r.1 3 0

/-- A write of `LNK_TXCMD` (R406, R445): FLUSH acts before GO. -/
def txCmdWrite (s : State) (v : Word) : State :=
  let s0 := rsvCheck s Adr.LNK_TXCMD v
  let s1 := if bitsOf v 28 28 = 1 then txFlush s0 else s0
  if bitsOf v 31 31 = 1 then txGo s1 v else s1

def execLinkTx (lvl : Level) (value : Word) (s : State) : Host.Outcome State Fault Refusal :=
  next (asWrite s lvl Adr.LNK_TXCMD fun t => txCmdWrite t value)

def execTxFlush (lvl : Level) (s : State) : Host.Outcome State Fault Refusal :=
  next (asWrite s lvl Adr.LNK_TXCMD txFlush)

/-! ### Budgets -/

/-- A bin of 10 s ends (R420). -/
def dutyBin (s : State) : State := { s with lnk := { s.lnk with bins := s.lnk.bins.map fun b => (0 :: b).take 360 } }

def execDutyBin (s : State) : Host.Outcome State Fault Refusal := next (dutyBin s)

/-- A duty checkpoint falls due (R421). -/
def execDutyCheckpoint (s : State) : Host.Outcome State Fault Refusal := next (ckptTurn s false true)

/-! ### Views -/

/-- `LNK_TXSTAT` with QUEUED (R445). -/
def lnkTxstat (s : State) : Word := putBits (reg s Adr.LNK_TXSTAT) 31 28 (min 8 s.lnk.queue.length)

/-- `LNK_SBUSE` (R445): percent of the budget, 0 for a sub-band without one. -/
def lnkSbuse (s : State) : Word :=
  let j := fld s Fld.LNK_SBSEL_SB
  let a := sbAccount s j
  let pct := if sbLimited s j && sbBudget s j != 0 then min 255 (a * 100 / sbBudget s j) else 0
  BitVec.ofNat 32 (pct * 2 ^ 24 + min (2 ^ 22 - 1) a)

/-- `LNK_NV0` to `LNK_NV3` (R445). -/
def lnkNv (s : State) (k : Nat) : Word :=
  let n := fld s Fld.LNK_NVSEL_INDEX
  let x := nbrOf s n
  BitVec.ofNat 32 (match k with
    | 0 => x.node * 2 ^ 16 + nbrState s n * 2 ^ 12 + nbrM x * 2 ^ 8 + x.hops
    | 1 => unsignedOf 16 (if (sourceOf s n).isSome then fitError s x else 0) * 2 ^ 16 + x.samples.length * 2 ^ 8 + x.level
    | 2 => x.heardAt
    | _ => x.epoch)

/-! ### Commits and starts -/

/-- After an accepted LNK commit (R432, R434, R436): a node that is to be origin becomes it, and the adopted source is
reconsidered. -/
def lnkApplied (s : State) : State :=
  if !flag s Fld.SYS_BOOTSTAT_DONE then s
  else if flag s Fld.LNK_BCN_ORIGIN then
    if flag s Fld.LNK_ORIGIN_ISORIG then s
    else becomeOrigin s (fld s Fld.LNK_EPOCH_EPOCH != 0 && fld s Fld.LNK_ORIGIN_ORIGIN == fld s Fld.LNK_ID_NODE)
  else if !flag s Fld.LNK_BCN_EN && (firstSource s).isNone then s
  else reconsider s

/-- After an accepted NBR commit (R414, R416): a new or freed entry starts afresh, with a checkpoint. -/
def nbrApplied (s : State) (n oldEui : Nat) : State :=
  if nbrEui s n = oldEui then s
  else
    let s1 := setReg s (Adr.NBR_FC n) 0
    let s2 := { s1 with lnk := { s1.lnk with nbrs := s1.lnk.nbrs.filter fun p => p.1 != n } }
    ckptAsk s2

/-- The counter and HEARD of a neighbour as its checkpoint has them. -/
def nbrPut (u : State) (y : CkptNbr) (n : Nat) : State :=
  setNbr (setReg u (Adr.NBR_FC n) (BitVec.ofNat 32 y.fc)) n { nbrOf u n with heard := y.heard, ckptFc := y.fc }

/-- One checkpointed neighbour goes into its entry, or into the lowest free one (R417). -/
def nbrRestore (t : State) (y : CkptNbr) : State :=
  match nbrFind t y.eui with
  | some n => nbrPut t y n
  | none => match nbrFree t with
    | some n => nbrPut (nbrLearn t n y.eui) y n
    | none => t

/-- The link at start-up step 7 (R417, R421, R434, R436). -/
def linkRestore (s : State) : State :=
  match s.jnl.ckpt with
  | none => setNext s (fld s Fld.LNK_FCBASE_BASE)
  | some c =>
    let s1 := setNext s (max (c.next + 4096) (fld s Fld.LNK_FCBASE_BASE))
    let s2 := { s1 with lnk := { s1.lnk with ckptV := c.next } }
    let s3 := c.nbrs.foldl nbrRestore s2
    if c.epoch = 0 then s3 else setPair s3 (c.epoch, c.origin) 3

/-- The airtime accounts at step 7 (R421): restored, aged by the time elapsed, and charged for what the checkpoint may lack. -/
def dutyRestore (s : State) (osf : Bool) : State :=
  let now := q64 s
  let age (d : DutyCkpt) : Nat := (now - d.time) / 2 ^ 30 / 10
  let old (j : Nat) : List Nat := match s.jnl.duty with
    | some d => ((d.bins.find? fun b => b.1 == j).map fun b => (List.replicate (min 360 (age d)) 0 ++ b.2).take 360).getD []
    | none => []
  let charge (j : Nat) : List Nat :=
    let b := old j
    if sbLimited s j then
      let c := if osf then sbBudget s j else (sbBudget s j + 99) / 100
      match b with
      | [] => [c]
      | x :: xs => (x + c) :: xs
    else b
  let s1 := { s with lnk := { s.lnk with bins := Vector.ofFn fun j => charge j } }
  { s1 with lnk := { s1.lnk with dutyMark := Vector.ofFn fun j => sbAccount s1 j } }

/-- The first enabled source is searched after a start even when it is untracked, as the first candidate (R434). -/
def firstSearch (s : State) : State :=
  match firstSource s with
  | some k => if flag s (Fld.LNK_SRC_TRACK k) then s else { s with lnk := { s.lnk with cand := some k } }
  | none => s

/-- The node's part in network time at the end of step 7 (R434, R436): an origin starts or resumes. -/
def linkBegin (start : State) : State :=
  let s := firstSearch start
  if flag s Fld.LNK_BCN_ORIGIN && flag s Fld.LNK_BCN_EN then
    becomeOrigin s (fld s Fld.LNK_EPOCH_EPOCH != 0 && fld s Fld.LNK_ORIGIN_ORIGIN == fld s Fld.LNK_ID_NODE)
  else if flag s Fld.LNK_BCN_EN || (firstSource s).isSome then reconsider s
  else s

end Sys2Proof.Machine
end

