-- ==== Sys2Proof/Machine/MemPort.lean ====
section
/-! DEFINITION. The host's commands on the serial NOR (R464–R467). -/

namespace Sys2Proof.Machine

open Sys2Proof

/-- Bytes of the serial NOR, 16 MB (R79). -/
def norSize : Nat := 2 ^ 24

/-- Read NOR bytes; an address runs on past the end round the part. -/
def norBytes (s : State) (a n : Nat) : List Byte := (List.range n).map fun k => byteAt s.mem.nor ((a + k) % norSize)

/-- Program NOR bytes: programming only clears bits. -/
def norProgram (m : Bytes) : Nat → List Byte → Bytes
  | _, [] => m
  | a, b :: bs => norProgram (bytePut m (a % norSize) (byteAt m (a % norSize) &&& b)) (a + 1) bs

/-- Put bytes as the NOR holds them afterwards, whatever was there. -/
def norStore (s : State) (a : Nat) (bs : List Byte) : State := { s with mem := { s.mem with nor := bytesPut s.mem.nor a bs } }

/-- Erase NOR bytes. -/
def norErase (s : State) (a n : Nat) : State := { s with mem := { s.mem with nor := bytesErase s.mem.nor a n } }

/-- Start of an image's range (R80). -/
def imageBase (b : Bool) : Nat := if b then 0x400000 else 0

/-- The image in force, as its first byte and its LENGTH (R81, R101). -/
def imageInForce (s : State) : Option (Nat × Nat) :=
  match fld s Fld.SYS_BOOTSTAT_IMAGE with
  | 1 => some (0, leNat (norBytes s 8 4))
  | 2 => some (0x400000, leNat (norBytes s 0x400008 4))
  | _ => none

/-- A range touches another. -/
def touches (a n b m : Nat) : Bool := a < b + m && b < a + n

/-- A command on `n` bytes at `a` is refused: the Slate and calibration ranges, and the image in force except in BARE (R467). -/
def mspBarred (s : State) (a n : Nat) : Bool :=
  touches a n 0x800000 0x20000 ||
    (!flag s Fld.SYS_BOOTSTAT_BARE && (imageInForce s).elim false fun i => touches a n i.1 i.2)

def mspResult (s : State) (r : Nat) : State := setFld s Fld.MSP_HSTAT_RESULT r

/-- A command while BUSY is ignored and answers BUSY; one that R467 refuses answers REFUSED; the rest takes its turn on the memory
port as a request of class C1, BUSY while it waits (R145, R467). -/
def mspCommand (s : State) (refused : Bool) (cmd : Instr) (run : State → State) : State :=
  if flag s Fld.MSP_HSTAT_BUSY then mspResult s 3
  else if refused then mspResult s 2
  else turn s (mspRequest .memPort .c1) cmd run fun t => setFlag t Fld.MSP_HSTAT_BUSY

/-- The bytes of the host buffer. -/
def mspBuffer (s : State) : List Byte := unpackWords ((List.range 16).map fun w => reg s (Adr.MSP_HBUF w))

/-- The end of a command that ran. -/
def mspDone (s : State) (r : Nat) : State := mspResult (clrFld s Fld.MSP_HSTAT_BUSY) r

/-- READ 64 bytes (R467). -/
def mspRead (s : State) (a : Nat) : State :=
  mspDone (((List.range 16).zip (packWords (norBytes s a 64))).foldl (fun u p => setReg u (Adr.MSP_HBUF p.1) p.2) s) 1

/-- PROGRAM length: 1 to 64 bytes. -/
def mspLen (s : State) : Nat := max 1 (min 64 (fld s Fld.MSP_HLEN_LEN))

/-- PROGRAM with its read-back (R467). Where the part fails (`verifyOk` false), what the bytes hold is free (log entry 4). -/
def mspProgram (s : State) (a : Nat) (verifyOk : Bool) : State :=
  let n := mspLen s
  let bs := (mspBuffer s).take n
  if verifyOk then
    let t := { s with mem := { s.mem with nor := norProgram s.mem.nor a bs } }
    mspDone t (if norBytes t a n = bs then 1 else 4)
  else
    let r := drawBytes n s
    mspDone (norStore r.2 a r.1) 4

/-- ERASE a 4 KB sector (R467). -/
def mspErase (s : State) (a : Nat) : State := mspDone (norErase s a 4096) 1

/-- READ and PROGRAM refuse an address that is no multiple of 4, PROGRAM one that crosses a 256-byte page, ERASE one that is no
multiple of 4 KB (R467). -/
def mspReadRefused (s : State) (a : Nat) : Bool := mspBarred s a 64 || a % 4 != 0
def mspProgramRefused (s : State) (a : Nat) : Bool := mspBarred s a (mspLen s) || a % 4 != 0 || 256 < a % 256 + mspLen s
def mspEraseRefused (s : State) (a : Nat) : Bool := mspBarred s a 4096 || a % 4096 != 0

/-- The three commands of `MSP_HCMD` (R467). -/
def mspReadCmd (s : State) (lvl : Level) (addr : BitVec 24) : State :=
  mspCommand s (mspReadRefused s addr.toNat) (.mspRead lvl addr) fun t => mspRead t addr.toNat

def mspProgramCmd (s : State) (lvl : Level) (addr : BitVec 24) (verifyOk : Bool) : State :=
  mspCommand s (mspProgramRefused s addr.toNat) (.mspProgram lvl addr verifyOk) fun t => mspProgram t addr.toNat verifyOk

def mspEraseCmd (s : State) (lvl : Level) (addr : BitVec 24) : State :=
  mspCommand s (mspEraseRefused s addr.toNat) (.mspErase lvl addr) fun t => mspErase t addr.toNat

def execMspRead (lvl : Level) (addr : BitVec 24) (s : State) : Host.Outcome State Fault Refusal :=
  next (asWrite s lvl Adr.MSP_HCMD fun t => mspReadCmd t lvl addr)

def execMspProgram (lvl : Level) (addr : BitVec 24) (verifyOk : Bool) (s : State) : Host.Outcome State Fault Refusal :=
  next (asWrite s lvl Adr.MSP_HCMD fun t => mspProgramCmd t lvl addr verifyOk)

def execMspErase (lvl : Level) (addr : BitVec 24) (s : State) : Host.Outcome State Fault Refusal :=
  next (asWrite s lvl Adr.MSP_HCMD fun t => mspEraseCmd t lvl addr)

end Sys2Proof.Machine
end

