-- ==== Sys2Proof/Machine/Slate.lean ====
section
/-! DEFINITION. The Slate: the checks of an entry, the store in the NOR, the entries in force, the cache, and the commands of
`SLT_CMD` (R238–R251, R257, R305, R380). -/

namespace Sys2Proof.Machine

open Sys2Proof

/-! ### The store -/

/-- Where an entry's bytes lie in the NOR (R80). -/
def slateAddr (i : Nat) : Nat := 0x800000 + 64 * i

/-- The first byte of an entry's sector. -/
def slateSector (i : Nat) : Nat := 0x800000 + 4096 * (i / 64)

/-- A sector's bytes: the SRAM copy that serves it, or the NOR (R248). -/
def sectorBytes (s : State) (a : Nat) : List Byte :=
  match s.slate.copied.find? fun p => p.1 == a with
  | some p => p.2
  | none => norBytes s a 4096

/-- The stored bytes of an entry. -/
def storedEntry (s : State) (i : Nat) : Entry :=
  match s.slate.copied.find? fun p => p.1 == slateSector i with
  | some p => (p.2.drop (64 * (i % 64))).take 64
  | none => norBytes s (slateAddr i) 64

/-- A sector's bytes with one entry replaced. -/
def sectorWith (s : State) (i : Nat) (e : Entry) : List Byte :=
  let b := sectorBytes s (slateSector i)
  b.take (64 * (i % 64)) ++ e.take 64 ++ b.drop (64 * (i % 64) + 64)

/-- A sector rewritten with good read-back: the NOR holds it, and no copy serves it (R248). -/
def sectorProgram (s : State) (i : Nat) (bs : List Byte) : State :=
  norStore { s with slate := { s.slate with copied := s.slate.copied.filter fun p => p.1 != slateSector i } } (slateSector i) bs

/-- One entry of a torn sector: of one of some contents, which of them is free (log entry 4). -/
def tearStep (contents : List (List Byte)) (p : List Byte × State) (k : Nat) : List Byte × State :=
  let d := drawWord p.2
  let src := contents.getD (d.1.toNat % contents.length) []
  (p.1 ++ (src.drop (64 * k)).take 64, d.2)

/-- A sector whose program is cut or fails (R248, R250): each of its entries is that of one of some byte strings, which of them is
free (log entry 4). -/
def sectorTorn (s : State) (a : Nat) (contents : List (List Byte)) : State :=
  let r := (List.range 64).foldl (tearStep contents) ([], s)
  norStore r.2 a r.1

/-- An erased sector. -/
def erasedSector : List Byte := List.replicate 4096 0xFF

/-! ### Checks of an entry -/

/-- Bits of PARAM bytes that a class uses, from byte 48 on (R239). -/
def paramMask : Nat → List Nat
  | 1 => [0x3F, 0xFF, 0xFF, 0x1F, 0x0F, 0xFF, 0xFF, 0x03, 0, 0, 0, 0]
  | 2 => [0x07, 0x07, 0xF1, 0xFF, 0, 0, 0, 0, 0, 0, 0, 0]
  | 3 => [0x07, 0x07, 0xF1, 0xFF, 0x07, 0, 0, 0, 0, 0, 0, 0]
  | 4 => [0x07, 0x03, 0xFF, 0, 0, 0, 0, 0, 0, 0, 0, 0]
  | 5 => [0x01, 0xFF, 0xFF, 0xF3, 0, 0, 0, 0, 0, 0, 0, 0]
  | 6 => [0x07, 0x03, 0, 0, 0, 0, 0, 0, 0, 0, 0, 0]
  | 7 => [0x73, 0x03, 0, 0, 0, 0, 0, 0, 0, 0, 0, 0]
  | _ => [0x03, 0x03, 0, 0, 0, 0, 0, 0, 0, 0, 0, 0]

/-- The ranges of PARAM fields (R239). -/
def paramOk (e : Entry) : Bool :=
  match eClass e with
  | 1 => eBits e 48 1 0 ≤ 2 && 40 ≤ eU16 e 49 && eU16 e 49 ≤ 640 && eBits e 51 4 3 != 1 &&
      eBits e 53 3 0 ≤ eBits e 52 3 0 && eBits e 52 3 0 ≤ eBits e 53 7 4
  | 2 => eBits e 48 2 0 ≤ 5 && eBits e 49 2 0 ≤ 4 && eBits e 50 7 4 ≤ 8 && 1 ≤ eByte e 51 && eByte e 51 ≤ 16
  | 3 => eBits e 48 2 0 ≤ 5 && eBits e 49 2 0 ≤ 4 && eBits e 50 7 4 ≤ 8 && eBits e 52 2 0 ≤ 4
  | 6 => eBits e 48 2 0 ≤ 5 && eBits e 49 1 0 ≤ 2
  | 7 => eBits e 48 6 4 ≤ 6 && eBits e 49 1 0 ≤ 2
  | 8 => eBits e 49 1 0 ≤ 2
  | _ => true

/-- Check 1 of R242: the fields obey R238 and R239. -/
def entryRange (e : Entry) : Bool :=
  let c := eClass e
  let k := classKind c
  1 ≤ c && c ≤ 8 && eTarget e ≤ 0x5F && ePower e ≤ 127 &&
    (if k = 2 then eNchan e == 0 else 1 ≤ eNchan e && eNchan e ≤ 16) &&
    eFlags e < 16 && (if c = 1 then eSynth e ≤ 2 else eSynth e == 0) && eDwell e != 0 &&
    (eSelref e == 0xFF || (c == 1 && eSelref e ≤ 15)) && (eKeyref e == 0xFF || eKeyref e ≤ 31) &&
    eReport e < 16 && eByte e 15 == 0 && eByte e 60 == 0 && eByte e 61 == 0 &&
    ((List.range 16).all fun n => if n < eNchan e then eChan e n ≤ 9600 else eChan e n == 0) &&
    (((List.range 12).zip (paramMask c)).all fun p => (eByte e (48 + p.1)) &&& p.2 == eByte e (48 + p.1)) && paramOk e

/-- Leaves of a class's kind of the target of an entry not yet in force. -/
def kindLeaves (s : State) (e : Entry) : List Nat := entryLeaves s e

/-- Check 2 for UHF_GEN2 (R257): TRcal from 1.1 to 3 times RTcal, and the program index. -/
def uhfChecks (e : Entry) : Nat :=
  let t := tari e
  let dr : Nat × Nat := if eBits e 48 2 2 = 1 then (64, 3) else (8, 1)
  -- TRcal = dr.1 / dr.2 / BLF; both sides in ps × BLF (kHz) × dr.2
  let tr := dr.1 * 1000000000
  let rt := 3 * t * blf e * dr.2
  firstFail [(11 * rt ≤ 10 * tr && tr ≤ 3 * rt, 0x42), (eByte e 54 ≤ 15 || eByte e 54 == 0xFF, rsnRange)]

/-- Check 2 for the HF classes (R305). -/
def hfChecks (s : State) (e : Entry) : Nat :=
  let rd := eBits e 48 2 0
  let cr := eBits e 49 2 0
  let iso := eClass e == 2 || eClass e == 3
  let ports := (kindLeaves s e).map (rpPort s)
  firstFail
    [(!iso || ((eBits e 50 0 0 == 1 || (rd == 0 && cr == 0)) && (cr != 4 || 4 ≤ rd)), 0x43),
     (eKeyref e == 0xFF || eClass e == 4, 0x44),
     (ports.all fun p => flag s (if p = 0 then Fld.HF_CFG_PRES0 else Fld.HF_CFG_PRES1), rsnAbsent),
     (ports.all fun p => ePower e ≤ fld s (if p = 0 then Fld.HF_DRV_MAXSTEP0 else Fld.HF_DRV_MAXSTEP1), 0x45)]

/-- A band of kHz × 10 lies within one of the two link bands (R377, R380). -/
def inLinkBand (lo hi : Nat) : Bool := (8630000 ≤ lo && hi ≤ 8700000) || (9020000 ≤ lo && hi ≤ 9280000)

/-- Check 2 for the link classes (R380). -/
def linkChecks (e : Entry) : Nat :=
  let half := lnkWidth (lnkMode e) * 5
  firstFail
    [(eClass e != 7 || mcsMarked (eBits e 48 1 0) (lnkMcs e), 0x46),
     ((eChans e).all fun c => inLinkBand (chanKhz10 c - half) (chanKhz10 c + half), 0x47)]

/-- Check 2 of R242, by class. -/
def classChecks (s : State) (e : Entry) : Nat :=
  match classKind (eClass e) with
  | 1 => uhfChecks e
  | 2 => hfChecks s e
  | _ => linkChecks e

/-- A select list in force: some item of it is enabled (R270). -/
def listInForce (s : State) (l : Nat) : Bool := (List.range 4).any fun k => flag s (Fld.BRM_SEL_CTRL_EN (4 * l + k))

/-- A key of a usage is held in a slot (R92). -/
def keyHeld (s : State) (usage slot : Nat) : Bool := s.boot.keys.any fun k => k.usage == usage && k.slot == slot

/-- The usage of the key an entry names (R238). -/
def keyUsage (e : Entry) : Nat := match classKind (eClass e) with | 1 => 4 | 2 => 2 | _ => 1

/-- The reason an entry is refused at an index, in the order of R242; 0 where it passes. -/
def slateReason (s : State) (i : Nat) (e : Entry) : Nat :=
  if !entryRange e then rsnRange
  else
    let c := classChecks s e
    if c ≠ 0 then c
    else
      let k := classKind (eClass e)
      let ls := kindLeaves s e
      firstFail
        [(targetInForce s (eTarget e) && !ls.isEmpty, rsnRef),
         ((eSelref e == 0xFF || listInForce s (eSelref e)) && (eKeyref e == 0xFF || keyHeld s (keyUsage e) (eKeyref e)), rsnRef),
         ((eChans e).all fun c => if k = 1 then (profileChans s).contains c else inLinkBand (chanKhz10 c) (chanKhz10 c), rsnProfile),
         (k == 2 || ls.all fun n => ePower e ≤ fld s (Fld.RAD_PORT_CFG_MAXIDX (rpPort s n)), 0x40),
         (!ePin e || decide ((s.slate.entries.filter fun p => p.1 != i && ePin p.2).length < 56), 0x41)]

/-! ### Into force -/

/-- An entry is in use by work under way: a grant, a round, a visit, or a link slot holds it (R248). -/
def entryHeld (s : State) (i : Nat) : Bool :=
  (grantedEntries s).contains i || [s.brm.a, s.brm.b].any (fun r => r.elim false fun x => x.entry == i) ||
    s.hf.visit.elim false (fun v => v.entry == i) || s.lnk.slot.elim false (fun x => x.entry == i)

/-- Put an entry into the list of those in force. -/
def putEntry : List (Nat × Entry) → Nat → Entry → List (Nat × Entry)
  | [], i, e => [(i, e)]
  | (j, d) :: l, i, e => if i = j then (i, e) :: l else if i < j then (i, e) :: (j, d) :: l else (j, d) :: putEntry l i e

/-- An entry comes into force, or is empty from now on (R240, R241, R248, R261, R286): summary and cache change together; a
periodic entry newly enabled is pending at once; rounds begin with its first channel and its own target. -/
def entryApply (s : State) (i : Nat) (e : Entry) : State :=
  let valid := entryValid e
  let was := entryAt s i
  let rest := s.slate.entries.filter fun p => p.1 != i
  let fresh := valid && entryActive e && ePeriod e != 0 && !(was.any fun d => entryActive d && ePeriod d != 0)
  let keep := valid && entryActive e && was.any fun d => classKind (eClass d) == classKind (eClass e)
  let pend := s.slate.pendingSet.filter fun j => j != i || (keep && ePeriod e != 0)
  let s1 := { s with
    slate := { s.slate with
      entries := if valid then putEntry rest i e else rest
      cache := if valid then s.slate.cache.map (fun c => if c.index = i then { c with bytes := e } else c)
        else s.slate.cache.filter fun c => c.index != i
      pendingSet := if fresh then pend ++ [i] else pend }
    brm := { s.brm with lastChan := s.brm.lastChan.filter (fun q => q.1 != i), altB := s.brm.altB.filter (fun q => q.1 != i),
                        holds := s.brm.holds.filter fun j => j != i }
    sched := { s.sched with point := true } }
  if keep then s1
  else if h : i < 1024 then { s1 with sched := { s1.sched with requests := s1.sched.requests.filter fun r =>
    !(r.who == .entry ⟨i, h⟩ && !r.topUp) } } else s1

/-- The scan of the whole Slate (R612): every valid entry comes into force. -/
def slateScan (s : State) : State :=
  let es := (List.range 1024).filterMap fun i => if entryValid (storedEntry s i) then some (i, storedEntry s i) else none
  { s with slate := { s.slate with entries := es, cache := [],
                                   pendingSet := (es.filter fun p => entryActive p.2 && ePeriod p.2 != 0).map fun p => p.1 } }

/-! ### Commands -/

def sltResult (s : State) (r : Nat) : State := setFld s Fld.SLT_STAT_RESULT r

/-- An entry is refused: CFG_REJECT, REASON and the fault record with its index (R89, R248, R503). -/
def sltReject (s : State) (i reason : Nat) : State :=
  let s1 := setFlag (setFld s Fld.SLT_STAT_REASON reason) Fld.SLT_STAT_CFG_REJECT
  raiseReject s (fault s1 0x11 0 0x01 ([BitVec.ofNat 8 reason, 0] ++ leBytes 2 i)) 0x11

/-- A refusal of a WRITE (R248, R251). -/
def sltRefuse (s : State) (i reason : Nat) : State := sltReject (sltResult s 2) i reason

/-- The CONFIG record of an accepted WRITE or ERASE, or of a SLATE record's entry: the 16 entry words, ADDR the entry index (R472, R475); it
has no SEQ (DESIGN CHOICE, log entry 12). -/
def sltConfig (s : State) (i : Nat) (e : Entry) : State := configRecord s 0x11 0 0 i (packWords e)

/-- A written entry comes into force (R248), and is journalled. -/
def sltForce (s : State) (i : Nat) (e : Entry) : State := sltConfig (entryApply s i e) i e

/-- A command while BUSY is ignored and answers BUSY (R247). -/
def sltCommand (s : State) (i : Nat) (run : State → State) : State :=
  if flag s Fld.SLT_STAT_BUSY then sltResult s 3 else run (setFld s Fld.SLT_STAT_INDEX i)

/-- The rewrite of an entry begins, unless it equals the stored one (R248). -/
def sltStart (s : State) (job : SltJob) (i : Nat) (e : Entry) : State :=
  if storedEntry s i = e then sltConfig (sltResult s 1) i e
  else setFlag { s with slate := { s.slate with work := some { job := job, index := i, bytes := e } } } Fld.SLT_STAT_BUSY

/-- The staged entry (R246): the device computes the CRC. -/
def stagedEntry (s : State) : Entry := withCrc (unpackWords ((List.range 16).map fun w => reg s (Adr.SLT_BUF w)))

def erasedEntry : Entry := List.replicate 64 0xFF

/-- WRITE (R248). -/
def slateWrite (s : State) (i : Nat) : State :=
  sltCommand s i fun t =>
    let e := stagedEntry t
    if eClass e = 0 then sltStart t .erase i erasedEntry
    else
      let why := slateReason t i e
      if why ≠ 0 then sltRefuse t i why else sltStart t .write i e

/-- The link configuration in force names the entry (R249); 0x3FF names none (R444). -/
def linkNames (s : State) (i : Nat) : Bool := i != 0x3FF && (fld s Fld.LNK_BCN_ENTRY == i || fld s Fld.LNK_DATA_ENTRY == i)

/-- The entries of the head of C2 in the present walk and of the next candidate after it; link data has that of `LNK_DATA` (R163, R243). -/
def headAndNext (s : State) : List Nat :=
  let num (c : Consumer) : List Nat := match c with
    | .entry j => [j.val]
    | .linkData => if fld s Fld.LNK_DATA_ENTRY = 0x3FF then [] else [fld s Fld.LNK_DATA_ENTRY]
    | _ => []
  match drrNext s [] s.sched.walk with
  | none => []
  | some (h, w) => num h ++ (match drrNext s [h] w with
    | some (n, _) => num n
    | none => [])

/-- An entry stands at the head of C2 (R163, R244). -/
def atHead (s : State) (i : Nat) : Bool :=
  match drrNext s [] s.sched.walk with
  | some (.entry j, _) => j.val == i
  | _ => false

/-- A scheduled C0 item within 20 ms uses the entry (R243). -/
def servesC0 (s : State) (i : Nat) : Bool :=
  linkNames s i && s.sched.requests.any fun r => match r.who, r.freeAt with
    | .linkSlot _, some t => t ≤ s.clk.now + ms 20
    | _, _ => false

/-- A waiting C1 item uses the entry: an immediate access, an OPEN, or a promoted request (R156, R243). -/
def servesC1 (s : State) (i : Nat) : Bool :=
  s.brm.imm.elim false (fun q => q.1 == i) || s.hf.opening.elim false (fun q => q.1 == i) ||
    s.sched.requests.any fun r => r.promoted && !r.topUp && (match r.who with
      | .entry j => j.val == i
      | _ => false)

/-- The place of an entry in the order of R243, below those that are never replaced: 2 for C0 and C1 items, 1 for `near`, the head
of C2 and the next candidate, 0 for others. -/
def lineRank (s : State) (near : List Nat) (i : Nat) : Nat :=
  if servesC0 s i || servesC1 s i then 2 else if near.contains i then 1 else 0

/-- A cached entry that a fill may replace: not pinned, not held by a grant (R243). -/
def replaceable (s : State) (c : CacheLine) : Bool := !ePin c.bytes && !entryHeld s c.index

/-- The place of the entry that a fill brings: above every line that may be replaced where it is pinned or held by a grant (R243). -/
def fillRank (s : State) (near : List Nat) (i : Nat) : Nat :=
  if (entryAt s i).any ePin || entryHeld s i then 3 else lineRank s near i

/-- The line that a fill of an entry replaces: of those that rank no higher, the lowest in rank, and among these the least recently
granted (R243). -/
def victimLine (s : State) (i : Nat) : Option CacheLine :=
  let near := headAndNext s
  let before (c d : CacheLine) : Bool :=
    let a := lineRank s near c.index
    let b := lineRank s near d.index
    a < b || (a == b && c.grantedAt < d.grantedAt)
  (s.slate.cache.filter fun c => replaceable s c && lineRank s near c.index ≤ fillRank s near i).foldl (fun b c => match b with
    | none => some c
    | some d => if before c d then some c else b) none

/-- A fill runs (R243–R245): a CRC failure makes the entry empty. -/
def cacheFill (s : State) (i : Nat) : State :=
  match entryAt s i with
  | none => s
  | some e =>
    let hit := s.slate.cache.any fun c => c.index == i
    let s1 := if !hit && atHead s i then incSat s Fld.SLT_CNT_MISS 1 else s
    let waiting := s.slate.work.elim false fun w => w.ready && w.index == i
    if !waiting && !entryValid (storedEntry s i) then
      fault (incSat (entryApply s1 i erasedEntry) Fld.SLT_CNT_CRCERR 1) 0x11 0 0x09 (leBytes 2 i)
    else if hit then s1
    else
      let line : CacheLine := { index := i, bytes := e }
      if s1.slate.cache.length < 64 then { s1 with slate := { s1.slate with cache := s1.slate.cache ++ [line] } }
      else match victimLine s1 i with
        | none => s1
        | some v => { s1 with slate := { s1.slate with cache := s1.slate.cache.filter (fun c => c.index != v.index) ++ [line] } }

/-- The class of the work that a fill serves (R244): a beacon or another scheduled slot, an immediate command or a promoted request,
else the C2 work of the entry. -/
def fillClass (s : State) (i : Nat) : Class := if servesC0 s i then .c0 else if servesC1 s i then .c1 else .c2

/-- The loader posts a fill as a request for the memory port in the class of the work it serves (R244). -/
def execCacheFill (index : Fin 1024) (s : State) : Host.Outcome State Fault Refusal :=
  next (turn s (mspRequest .slateLoader (fillClass s index)) (.cacheFill index) fun t => cacheFill t index)

/-- READ copies the in-force entry (R249). -/
def slateCopy (s : State) (i : Nat) : State :=
  let e := (entryAt s i).getD (storedEntry s i)
  sltResult (((List.range 16).zip (packWords e)).foldl (fun u p => setReg u (Adr.SLT_BUF p.1) p.2) s) 1

/-- READ of an entry that is not cached, after its fill (R249). -/
def slateReadFill (s : State) (i : Nat) : State := slateCopy (cacheFill (clrFld s Fld.SLT_STAT_BUSY) i) i

/-- READ (R249): from the cache, or after a fill, for which it takes its turn on the memory port as a host command of class C1
(R145, R244), BUSY while it waits. -/
def slateRead (s : State) (lvl : Level) (i : Fin 1024) : State :=
  sltCommand s i fun t =>
    if cached t i then slateCopy t i
    else turn t (mspRequest .slateLoader .c1) (.slateRead lvl i) (fun u => slateReadFill u i)
      fun u => setFlag u Fld.SLT_STAT_BUSY


/-- ERASE (R249). -/
def slateErase (s : State) (i : Nat) : State :=
  sltCommand s i fun t =>
    if linkNames t i then setFld (sltResult t 2) Fld.SLT_STAT_REASON rsnInuse
    else sltStart t .erase i erasedEntry

/-- A write of `SLT_CMD` (R251). -/
def sltCmdWrite (s : State) (lvl : Level) (v : Word) : State :=
  let s1 := rsvCheck s Adr.SLT_CMD v
  match bitsOf v 31 28 with
  | 1 => slateWrite s1 (bitsOf v 9 0)
  | 2 => slateRead s1 lvl (Fin.ofNat 1024 (bitsOf v 9 0))
  | 3 => slateErase s1 (bitsOf v 9 0)
  | _ => s1

def execSlateWrite (lvl : Level) (index : Fin 1024) (s : State) : Host.Outcome State Fault Refusal :=
  next (asWrite s lvl Adr.SLT_CMD fun t => slateWrite t index)

def execSlateRead (lvl : Level) (index : Fin 1024) (s : State) : Host.Outcome State Fault Refusal :=
  next (asWrite s lvl Adr.SLT_CMD fun t => slateRead t lvl index)

def execSlateErase (lvl : Level) (index : Fin 1024) (s : State) : Host.Outcome State Fault Refusal :=
  next (asWrite s lvl Adr.SLT_CMD fun t => slateErase t index)

def setWork (s : State) (w : Option SltWork) : State := { s with slate := { s.slate with work := w } }

/-- The sector rewrite's read-back (R248): good, repeated once, or NORWRITE, with the sector then served from its SRAM copy. -/
def slateReadback (s : State) (good : Bool) : State :=
  match s.slate.work with
  | none => s
  | some w =>
    if w.ready then s
    else if good then
      let s1 := setWork (sectorProgram s w.index (sectorWith s w.index w.bytes)) (some { w with ready := true })
      if entryHeld s1 w.index then setFlag s1 Fld.SLT_STAT_WAITING else s1
    else if !w.retry then setWork s (some { w with retry := true })
    else
      let a := slateSector w.index
      let old := sectorBytes s a
      let s1 := sectorTorn s a [sectorWith s w.index w.bytes, erasedSector]
      let s2 := { s1 with slate := { s1.slate with work := none,
                                                   copied := s1.slate.copied.filter (fun p => p.1 != a) ++ [(a, old)] } }
      fault (clrFld (sltResult s2 4) Fld.SLT_STAT_BUSY) 0x11 0 0x0A (leBytes 2 w.index)

/-- The rewrite's transactions take their turn on the memory port as those of a host command (R145, R150). -/
def execSlateReadback (good : Bool) (s : State) : Host.Outcome State Fault Refusal :=
  next (turn s (mspRequest .slateLoader .c1) (.slateReadback good) fun t => slateReadback t good)

/-- A written entry comes into force once no grant holds it (R248). -/
def slateActivate (s : State) : State :=
  match s.slate.work with
  | none => s
  | some w =>
    if w.ready ∧ ¬entryHeld s w.index then
      clrFld (clrFld (sltResult (setWork (sltForce s w.index w.bytes) none) 1) Fld.SLT_STAT_WAITING) Fld.SLT_STAT_BUSY
    else s

def execSlateActivate (s : State) : Host.Outcome State Fault Refusal := next (slateActivate s)

/-- A rewrite cut by a loss of power or a reset (R250): each entry of its sector is left as it was, empty, or as it was to be
programmed, which of them is free (log entries 4, 26). -/
def slateCut (s : State) : State :=
  match s.slate.work with
  | none => s
  | some w =>
    let a := slateSector w.index
    setWork (if w.ready then s else sectorTorn s a [norBytes s a 4096, erasedSector, sectorWith s w.index w.bytes]) none

/-- PERIOD has run (R241): the entry is pending, and stays so until granted once. -/
def entryPending (s : State) (i : Nat) : State :=
  match entryAt s i with
  | none => s
  | some e =>
    if entryActive e && ePeriod e != 0 && !s.slate.pendingSet.contains i && !(grantedEntries s).contains i then
      grantPoint { s with slate := { s.slate with pendingSet := s.slate.pendingSet ++ [i] } }
    else s

def execEntryPending (index : Fin 1024) (s : State) : Host.Outcome State Fault Refusal := next (entryPending s index)

/-- `SLT_CACHE` (R251). -/
def sltCache (s : State) : Word :=
  BitVec.ofNat 32 (s.slate.entries.length * 2 ^ 16 + (s.slate.entries.filter fun p => ePin p.2).length * 2 ^ 8 +
    s.slate.cache.length)

end Sys2Proof.Machine
end

