-- ==== Sys2Proof/Machine/Timers.lean ====
section
/-! DEFINITION. General timers: counting, chains, compare, capture, the trigger matrix and the outputs (R510–R534). -/

namespace Sys2Proof.Machine

open Sys2Proof

def tmr (s : State) (n : Nat) : Tmr := s.tmr[n]?.getD {}
def setTmr (s : State) (n : Nat) (t : Tmr) : State := { s with tmr := s.tmr.setIfInBounds n t }

/-! ### What a timer does now -/

/-- MODE 0 and 1 count down (R512). -/
def tmrDown (s : State) (n : Nat) : Bool := fld s (Fld.TMR_CFG_MODE n) < 2

/-- The action of a trigger input (R524). -/
def trigAct (s : State) (n : Nat) : TrigInput → Nat
  | .a => fld s (Fld.TMR_TRIG_AACT n)
  | .b => fld s (Fld.TMR_TRIG_BACT n)

/-- An input of the timer has an action. -/
def anyAct (s : State) (n act : Nat) : Bool := trigAct s n .a == act || trigAct s n .b == act

/-- The timer has a clock in the present mode: in sleep the island alone (R49). -/
def tmrPowered (s : State) (n : Nat) : Bool := 3 ≤ mode s || (1 ≤ mode s && n < 4)

/-- The timer's clock source runs (R49, R52, R517). -/
def tmrClocked (s : State) (n : Nat) : Bool :=
  let c := fld s (Fld.TMR_CFG_CLKSEL n)
  if 3 ≤ mode s then !(c == 0 && !anyAct s n 4 && flag s Fld.SYS_CLKSTAT_FALLBACK)
  else 1 ≤ mode s && n < 4 && !anyAct s n 4 && ((1 ≤ c && c ≤ 5) || c == 10)

/-- The gate lets the timer count: open, or no input with action GATE (R524). -/
def gateOpen (s : State) (n : Nat) : Bool := !anyAct s n 1 || flag s (Fld.TMR_STAT_GATE n)

/-- The timer counts when its source gives an edge. -/
def counting (s : State) (n : Nat) : Bool := flag s (Fld.TMR_STAT_RUN n) && gateOpen s n && tmrClocked s n

/-- The next count is a wrap (R512, R513). -/
def atEnd (s : State) (n : Nat) : Bool :=
  let c := reg s (Adr.TMR_CNT n)
  if tmrDown s n then c == 0 else c == (tmr s n).buf || c == 0xFFFFFFFF

/-! ### Events -/

/-- The flag of an event: 0 ZERO, 1 to 4 CMP0 to CMP3, 5 CAP, 6 OVR (R524, R532). -/
def eventFlag (n evt : Nat) : Field :=
  if evt = 0 then Fld.TMR_STAT_ZERO n
  else if evt ≤ 4 then ⟨Adr.TMR_STAT n, evt - 1, evt - 1⟩
  else ⟨Adr.TMR_STAT n, evt, evt⟩

/-- The bit of `TMRn_IEN` that routes an event; it stands in the place of the event's flag (R532). -/
def eventRoute (n evt : Nat) : Field := ⟨Adr.TMR_IEN n, (eventFlag n evt).hi, (eventFlag n evt).lo⟩

/-- The level of an output after the events of a cycle (R525). -/
def toutLevel (old : Bool) (set clr : Bool) : Bool := if set && clr then !old else if set then true else if clr then false else old

/-- The outputs of a timer follow its events: in sleep, those of an island timer that is counting (R526). -/
def toutLive (s : State) (n : Nat) : Bool := 3 ≤ mode s || (n < 4 && counting s n)

/-- One output takes one more event of its cycle: its level is that of R525 for all of the cycle's events. -/
def toutTake (s : State) (m : Nat) (set clr : Bool) : State :=
  let o := s.tout[m]?.getD {}
  let n : Tout := ⟨some (o.was.getD (flag s (Fld.TMR_TOUT_LEVEL m))), o.set || set, o.clr || clr⟩
  setFld { s with tout := s.tout.setIfInBounds m n } (Fld.TMR_TOUT_LEVEL m)
    (if toutLevel (n.was.getD false) n.set n.clr then 1 else 0)

/-- TOUT_UPDATE: outputs that name the event follow it (R525). -/
def toutEvent (s : State) (n evt : Nat) : State :=
  (List.range 8).foldl (fun t m =>
    let set := fld t (Fld.TMR_TOUT_SETEVT m) == evt
    let clr := fld t (Fld.TMR_TOUT_CLREVT m) == evt
    if fld t (Fld.TMR_TOUT_SRC m) = n ∧ (set || clr) then toutTake t m set clr else t) s

/-- Replace the account of a timer's cycle. -/
def setCyc (s : State) (n : Nat) (c : TmrCycle) : State := setTmr s n { tmr s n with cyc := c }

/-- An event of a timer: its flag, its interrupt and wake where routed, the outputs, and the trigger inputs and captures that it is
the source of (R522, R524, R525, R527, R528). -/
def tmrEvent (s : State) (n evt : Nat) : State :=
  let c := (tmr s n).cyc
  let s1 := setFlag (setCyc s n { c with evts := c.evts ||| 2 ^ evt }) (eventFlag n evt)
  let s2 := if flag s1 (eventRoute n evt) then
      let t := raise s1 53
      if n < 4 ∧ evt ≤ 4 then fireWake t 6 else t
    else s1
  if evt ≤ 5 ∧ toutLive s2 n then toutEvent s2 n evt else s2

/-- Arm the enabled channels of a mask (R519). -/
def arm (s : State) (n mask : Nat) : State :=
  let m := mask &&& fld s (Fld.TMR_CCFG_CMPEN n)
  let t := tmr s n
  setFld (setTmr s n { t with fresh := t.fresh ||| m, late := t.late &&& (15 ^^^ m) }) (Fld.TMR_STAT_ARMED n)
    (fld s (Fld.TMR_STAT_ARMED n) ||| m)

/-! ### Counting -/

/-- No count of the timer falls in the cycle in hand: its counter is being written, or RESET came (R514, R529). -/
def countLost (s : State) (n : Nat) : Bool :=
  let c := (tmr s n).cyc
  c.newCnt.isSome || c.cntSet || c.reset

/-- The counter after a count; a snapshot of the same cycle holds it (R516). -/
def countTo (s : State) (n : Nat) (v : Word) : State :=
  let s1 := setReg s (Adr.TMR_CNT n) v
  if (tmr s n).cyc.snapped then setReg s1 (Adr.TMR_SNAPV n) v else s1

/-- The effects of a wrap on the timer itself: it samples BUF as it stood before a write of the same cycle
(R512, R513, R519). -/
def wrapOne (s : State) (n : Nat) : State :=
  let t := tmr s n
  let b := t.cyc.oldBuf.getD (reg s (Adr.TMR_BUF n))
  let s1 := countTo (setTmr s n { t with buf := b, psc := 0, wrapAt := some s.clk.now, due := false }) n (if tmrDown s n then b else 0)
  let s2 := tmrEvent s1 n 0
  let s3 := if fld s (Fld.TMR_CFG_MODE n) % 2 = 1 then clrFld s2 (Fld.TMR_STAT_RUN n) else s2
  arm s3 n (fld s (Fld.TMR_CCFG_WRAPARM n))

/-- A wrap and its carry into a CASCADE-clocked successor in the same cycle, or the loss of that carry in sleep (R515,
R517). -/
def wrapWith (edge : State → Nat → State) (s : State) (n : Nat) : State :=
  let s1 := wrapOne s n
  let m := n + 1
  if m < 16 ∧ fld s1 (Fld.TMR_CFG_CLKSEL m) = 10 ∧ flag s1 (Fld.TMR_STAT_RUN m) then
    if counting s1 m then if countLost s1 m then s1 else edge s1 m
    else if n = 3 ∧ ¬tmrPowered s1 m then setFlag s1 (Fld.TMR_STAT_CLOST m) else s1
  else s1

/-- One count short of a wrap. -/
def countStep (s : State) (n : Nat) : State :=
  let c := reg s (Adr.TMR_CNT n)
  countTo (setTmr s n { tmr s n with psc := 0 }) n (if tmrDown s n then c - 1 else c + 1)

/-- One source edge of a timer, with a bound on the length of a chain (R510, R515). -/
def tmrEdge : Nat → State → Nat → State
  | 0, s, _ => s
  | f + 1, s, n =>
    let t := tmr s n
    if t.psc < fld s (Fld.TMR_CFG_PSC n) then setTmr s n { t with psc := t.psc + 1 }
    else if atEnd s n then wrapWith (tmrEdge f) s n
    else countStep s n

/-- The timer's counts up to the wrap have gone by, and it wraps (R512). -/
def timerWrap (s : State) (n : Nat) : State :=
  if counting s n && !countLost s n then wrapWith (tmrEdge 16) s n else s

/-! ### Compare and capture -/

/-- The distance of R519, from a compare value. -/
def cmpFrom (s : State) (n : Nat) (v : Word) : Word :=
  let c := reg s (Adr.TMR_CNT n)
  if tmrDown s n then v - c else c - v

def cmpDist (s : State) (n k : Nat) : Word := cmpFrom s n (reg s (Adr.TMR_CMP n k))

/-- The counter has reached or passed the compare value (R519). -/
def cmpReached (s : State) (n k : Nat) : Bool := (cmpDist s n k).toNat < 2 ^ 31

/-- A channel fires and disarms (R519). -/
def cmpFire (s : State) (n k : Nat) (late : Bool) : State :=
  let t := tmr s n
  let off := 15 ^^^ 2 ^ k
  let s1 := setFld (setTmr s n { t with fresh := t.fresh &&& off, first := t.first &&& off, late := t.late &&& off })
    (Fld.TMR_STAT_ARMED n) (fld s (Fld.TMR_STAT_ARMED n) &&& off)
  let s2 := if late then setFlag s1 ⟨Adr.TMR_STAT n, 8 + k, 8 + k⟩ else s1
  tmrEvent s2 n (1 + k)

/-- A channel armed in an earlier cycle fires: at once where its value is reached or passed, else when the counts up to it have
gone by (R519, R520). -/
def compareArmed (s : State) (n k : Nat) : State :=
  let t := tmr s n
  if cmpReached s n k then cmpFire s n k (t.late.testBit k || (t.first.testBit k && cmpDist s n k != 0))
  else if counting s n && !countLost s n then
    cmpFire (countTo (setTmr s n { t with psc := 0 }) n (reg s (Adr.TMR_CMP n k))) n k false
  else s

/-- COMPARE_FIRE: a channel is not evaluated in the cycle of its arming, and a value that a write of this cycle replaced still
fires, which leaves the new one armed (R519, R520, R529). -/
def compareFire (s : State) (n k : Nat) : State :=
  let t := tmr s n
  if !tmrPowered s n then s
  else match t.cyc.oldCmp.lookup k with
    | some v =>
      if (cmpFrom s n v).toNat < 2 ^ 31 then
        tmrEvent (setCyc s n { t.cyc with oldCmp := t.cyc.oldCmp.filter fun e => e.1 != k }) n (1 + k)
      else s
    | none => if (fld s (Fld.TMR_STAT_ARMED n)).testBit k && !t.fresh.testBit k then compareArmed s n k else s

def execCompareFire (n : Fin 16) (k : Fin 4) (s : State) : Host.Outcome State Fault Refusal := next (compareFire s n k)

/-- Replace the capture queue; `TMRn_CAP` shows its oldest capture, CAPN its length (R523). -/
def setCaps (s : State) (n : Nat) (q : List Word) : State :=
  setFld (setReg (setTmr s n { tmr s n with caps := q }) (Adr.TMR_CAP n) (q.headD 0)) (Fld.TMR_STAT_CAPN n) q.length

/-- An edge of the kind that EDGE or CAPEDGE selects: 0 rising, 1 falling, 2 both (R510, R522). -/
def edgeOf (sel : Nat) (old new : Bool) : Bool :=
  if sel = 0 then !old && new else if sel = 1 then old && !new else old != new

/-- The edge of `TINm` that this cycle recognises behind the synchroniser (R511, R522). -/
def tinEdge (s : State) (m sel : Nat) : Bool := edgeOf sel (s.pins.tin[3].getLsbD m) (s.pins.tin[2].getLsbD m)

/-- The source timer of a trigger input, and its event (R524). -/
def trigSource (s : State) (n : Nat) : TrigInput → Nat × Nat
  | .a => (fld s (Fld.TMR_TRIG_ASRC n), fld s (Fld.TMR_TRIG_AEVT n))
  | .b => (fld s (Fld.TMR_TRIG_BSRC n), fld s (Fld.TMR_TRIG_BEVT n))

/-- The event that CAPSRC names is recognised in this cycle: an edge of a TIN pin, or the source event of a trigger input
(R522). -/
def captureEvent (s : State) (n : Nat) : Bool :=
  let c := fld s (Fld.TMR_CCFG_CAPSRC n)
  if c ≤ 7 then tinEdge s c (fld s (Fld.TMR_CCFG_CAPEDGE n))
  else if c ≤ 9 then
    let e := trigSource s n (if c = 8 then .a else .b)
    (tmr s e.1).cyc.evts.testBit e.2
  else false

/-- A capture is due: its event has come, and it has not been taken yet in this cycle (R522). -/
def captureDue (s : State) (n : Nat) : Bool :=
  captureEvent s n && tmrPowered s n && !(tmr s n).cyc.evts.testBit 5

/-- A capture (R522, R523). One that finds the queue full is kept to the cycle's end, for a read that meets it (R529). -/
def capture (s : State) (n : Nat) : State :=
  if captureDue s n then
    let t := tmr s n
    let v := reg s (Adr.TMR_CNT n)
    let s1 := if t.caps.length < 4 then setCaps s n (t.caps ++ [v])
      else tmrEvent (setCyc s n { t.cyc with lost := some (v, flag s (Fld.TMR_STAT_OVR n), flag s (intBit 53)) }) n 6
    tmrEvent s1 n 5
  else s

def execCapture (n : Fin 16) (s : State) : Host.Outcome State Fault Refusal := next (capture s n)

/-! ### Commands -/

/-- START: RUN is set, the prescaler clears, a gate closes (R510, R514, R524). -/
def tmrStart (s : State) (n : Nat) : State :=
  setFld (setFlag (setTmr s n { tmr s n with psc := 0 }) (Fld.TMR_STAT_RUN n)) (Fld.TMR_STAT_GATE n)
    (if anyAct s n 1 then 0 else 1)

/-- STOP (R514). -/
def tmrStop (s : State) (n : Nat) : State := clrFld s (Fld.TMR_STAT_RUN n)

/-- RESET: the start value, the prescaler, the arming of every enabled channel; no ZERO (R513, R514, R519). -/
def tmrReset (s : State) (n : Nat) : State :=
  let b := reg s (Adr.TMR_BUF n)
  let t := tmr s n
  arm (countTo (setTmr s n { t with psc := 0, buf := b, due := false, cyc := { t.cyc with reset := true, newCnt := none } }) n
    (if tmrDown s n then b else 0)) n 15

/-- CAPCLR (R523). -/
def tmrCapClr (s : State) (n : Nat) : State := setCaps s n []

/-- The action of a `TMR_GCMD` CMD on one timer (R533). -/
def gcmdAct (cmd : Nat) (s : State) (n : Nat) : State :=
  if cmd = 1 then tmrStart s n else if cmd = 2 then tmrStop s n else if cmd = 3 then tmrReset s n else s

/-- What a `TMRn_CTRL` write leaves: a `TMR_GCMD` of the same cycle is applied after it (R529). -/
def ctrlWritten (s : State) (n : Nat) : State := gcmdAct (tmr s n).cyc.gcmd s n

/-- The commands of one `TMRn_CTRL` write, in the order of R529. -/
def tmrCtrl (s : State) (n : Nat) (v : Word) : State :=
  let s1 := if v.toNat.testBit 0 then tmrStop s n else s
  let s2 := if v.toNat.testBit 1 then tmrReset s1 n else s1
  let s3 := if v.toNat.testBit 3 then tmrCapClr s2 n else s2
  ctrlWritten (if v.toNat.testBit 2 then tmrStart s3 n else s3) n

/-- One action on every timer of a mask (R533). -/
def onMask (mask : Nat) (f : State → Nat → State) (s : State) : State := (bitList 16 mask).foldl f s

/-- One CMD on every timer of a mask (R533). -/
def gcmdOn (cmd mask : Nat) (s : State) : State :=
  onMask mask (fun t n => gcmdAct cmd (setCyc t n { (tmr t n).cyc with gcmd := cmd }) n) s

/-- A `TMR_GCMD` write (R533). -/
def tmrGcmd (s : State) (v : Word) : State :=
  if bitsOf v 17 16 = 0 then s else gcmdOn (bitsOf v 17 16) (bitsOf v 15 0) s

/-- A write of `TMRn_CNT`: the counter takes the value in the following cycle (R510, R514). -/
def tmrCntWrite (s : State) (n : Nat) (v : Word) : State :=
  let t := tmr s n
  setTmr s n { t with psc := 0, cyc := { t.cyc with newCnt := some v } }

/-- A write of `TMRn_BUF`: a wrap of the same cycle still uses the old value (R513, R529). -/
def tmrBufWrite (s : State) (n : Nat) (v : Word) : State :=
  let c := (tmr s n).cyc
  setReg (setCyc s n { c with oldBuf := some (c.oldBuf.getD (reg s (Adr.TMR_BUF n))) }) (Adr.TMR_BUF n) v

/-- A write of `TMRn_CMPk` arms an enabled channel (R519); the value it replaces may still fire in this cycle (R529). -/
def tmrCmpWrite (s : State) (n k : Nat) (v : Word) : State :=
  let t := tmr s n
  let s1 := if (fld s (Fld.TMR_STAT_ARMED n)).testBit k && !t.fresh.testBit k then
      setCyc s n { t.cyc with oldCmp := (k, reg s (Adr.TMR_CMP n k)) :: t.cyc.oldCmp }
    else s
  arm (setReg s1 (Adr.TMR_CMP n k) v) n (2 ^ k)

/-- A write of `TMR_SNAP` (R516). -/
def tmrSnap (s : State) (mask : Nat) : State :=
  onMask mask (fun t n =>
    setReg (setCyc t n { (tmr t n).cyc with snapped := true }) (Adr.TMR_SNAPV n) (reg t (Adr.TMR_CNT n))) s

/-- Events of this cycle that `TMRn_IEN` routes to interrupt 53, for any timer (R527). -/
def tmrRouted (s : State) : Bool :=
  (List.range 16).any fun n => (List.range 7).any fun e => (tmr s n).cyc.evts.testBit e && flag s (eventRoute n e)

/-- A read of a full queue in the cycle of a capture comes before it: the capture is stored, and no OVR arises (R529). -/
def capMeets (s : State) (n : Nat) (v : Word) (ovr irq : Bool) : State :=
  let c := (tmr s n).cyc
  let s1 := setCaps (setCyc s n { c with lost := none, evts := if c.evts.testBit 6 then c.evts - 2 ^ 6 else c.evts }) n
    ((tmr s n).caps ++ [v])
  let s2 := if ovr then s1 else clrFld s1 (Fld.TMR_STAT_OVR n)
  if irq || tmrRouted s2 then s2 else clrFld s2 (intBit 53)

/-- A read of `TMRn_CAP` removes the oldest capture (R523). -/
def tmrCapRead (s : State) (n : Nat) : State :=
  match (tmr s n).caps with
  | [] => s
  | _ :: q =>
    match (tmr s n).cyc.lost with
    | some (v, ovr, irq) => capMeets (setCaps s n q) n v ovr irq
    | none => setCaps s n q

/-- A write of `TMR_TOUTm`: the level takes INIT; ignored with an event code 6 (R525, R533). -/
def toutWrite (s : State) (m : Nat) (v : Word) : State :=
  if bitsOf v 23 21 = 6 ∨ bitsOf v 20 18 = 6 then setFlag s Fld.HSP_STAT_RANGE
  else setReg { s with tout := s.tout.setIfInBounds m {} } (Adr.TMR_TOUT m) (putBits (v &&& 0xEFFC0000) 28 28 (bitsOf v 29 29))

/-- The level of a `TOUTm` pin (R525). -/
def toutPin (s : State) (m : Nat) : Bool :=
  flag s (Fld.TMR_TOUT_EN m) && (flag s (Fld.TMR_TOUT_LEVEL m) != flag s (Fld.TMR_TOUT_POL m))

/-- The bit of a trigger input in the account of the cycle. -/
def trigBit : TrigInput → Nat
  | .a => 0
  | .b => 1

/-- The source event of a trigger input came in the cycle before, and the input has not acted on it yet (R524). -/
def trigDue (s : State) (n : Nat) (i : TrigInput) : Bool :=
  let e := trigSource s n i
  tmrPowered s n && (tmr s e.1).prev.testBit e.2 && !(tmr s n).cyc.acted.testBit (trigBit i)

/-- What a trigger input's action does (R524). -/
def trigDo (s : State) (n : Nat) (i : TrigInput) : State :=
  match trigAct s n i with
  | 1 => setFld s (Fld.TMR_STAT_GATE n) (if flag s (Fld.TMR_STAT_GATE n) then 0 else 1)
  | 2 => tmrReset s n
  | 3 => if flag s (Fld.TMR_STAT_RUN n) then s else tmrStart s n
  | 4 => if counting s n && !countLost s n then tmrEdge 16 s n else s
  | _ => s

/-- A trigger input whose source event came one cycle before acts, once (R524). -/
def trigStep (s : State) (n : Nat) (i : TrigInput) : State :=
  if trigDue s n i then
    let c := (tmr s n).cyc
    trigDo (setCyc s n { c with acted := c.acted ||| 2 ^ trigBit i }) n i
  else s

/-- TRIGGER_ACTION: input A acts before input B of the same cycle (R524). -/
def triggerAction (s : State) (n : Nat) : TrigInput → State
  | .a => trigStep s n .a
  | .b => trigStep (trigStep s n .a) n .b

def execTriggerAction (n : Fin 16) (input : TrigInput) (s : State) : Host.Outcome State Fault Refusal :=
  next (triggerAction s n input)

def execTimerStart (lvl : Level) (n : Fin 16) (s : State) : Host.Outcome State Fault Refusal :=
  next (asWrite s lvl (Adr.TMR_CTRL n) fun t => ctrlWritten (tmrStart t n) n)

def execTimerStop (lvl : Level) (n : Fin 16) (s : State) : Host.Outcome State Fault Refusal :=
  next (asWrite s lvl (Adr.TMR_CTRL n) fun t => ctrlWritten (tmrStop t n) n)

def execTimerReset (lvl : Level) (n : Fin 16) (s : State) : Host.Outcome State Fault Refusal :=
  next (asWrite s lvl (Adr.TMR_CTRL n) fun t => ctrlWritten (tmrReset t n) n)

def execCapclr (lvl : Level) (n : Fin 16) (s : State) : Host.Outcome State Fault Refusal :=
  next (asWrite s lvl (Adr.TMR_CTRL n) fun t => ctrlWritten (tmrCapClr t n) n)

def execGcmdStart (lvl : Level) (mask : BitVec 16) (s : State) : Host.Outcome State Fault Refusal :=
  next (asWrite s lvl Adr.TMR_GCMD (gcmdOn 1 mask.toNat))

def execGcmdStop (lvl : Level) (mask : BitVec 16) (s : State) : Host.Outcome State Fault Refusal :=
  next (asWrite s lvl Adr.TMR_GCMD (gcmdOn 2 mask.toNat))

def execGcmdReset (lvl : Level) (mask : BitVec 16) (s : State) : Host.Outcome State Fault Refusal :=
  next (asWrite s lvl Adr.TMR_GCMD (gcmdOn 3 mask.toNat))

def execTmrCntWrite (lvl : Level) (n : Fin 16) (value : Word) (s : State) : Host.Outcome State Fault Refusal :=
  next (asWrite s lvl (Adr.TMR_CNT n) fun t => tmrCntWrite t n value)

def execTmrBufWrite (lvl : Level) (n : Fin 16) (value : Word) (s : State) : Host.Outcome State Fault Refusal :=
  next (asWrite s lvl (Adr.TMR_BUF n) fun t => tmrBufWrite t n value)

def execCmpWrite (lvl : Level) (n : Fin 16) (k : Fin 4) (value : Word) (s : State) : Host.Outcome State Fault Refusal :=
  next (asWrite s lvl (Adr.TMR_CMP n k) fun t => tmrCmpWrite t n k value)

def execTmrSnap (lvl : Level) (mask : BitVec 16) (s : State) : Host.Outcome State Fault Refusal :=
  next (asWrite s lvl Adr.TMR_SNAP fun t => tmrSnap t mask.toNat)

def execTmrCapRead (lvl : Level) (n : Fin 16) (s : State) : Host.Outcome State Fault Refusal :=
  next (asRead s lvl (Adr.TMR_CAP n) fun t => tmrCapRead t n)

def execToutWrite (lvl : Level) (m : Fin 8) (value : Word) (s : State) : Host.Outcome State Fault Refusal :=
  next (asWrite s lvl (Adr.TMR_TOUT m) fun t => toutWrite (rsvCheck t (Adr.TMR_TOUT m) value) m value)

/-! ### Commit and the passing of time -/

/-- What a swapped set does: channels it enables are armed, channels it disables are disarmed, and a timer without a GATE
input shows its gate open (R519, R532). -/
def tmrApplied (s : State) (n : Nat) (oldCmpen : Nat) : State :=
  let en := fld s (Fld.TMR_CCFG_CMPEN n)
  let t := tmr s n
  let s1 := setFld (setTmr s n { t with fresh := t.fresh &&& en, first := t.first &&& en, late := t.late &&& en }) (Fld.TMR_STAT_ARMED n)
    (fld s (Fld.TMR_STAT_ARMED n) &&& en)
  let s2 := arm s1 n (en &&& (15 ^^^ oldCmpen))
  if anyAct s2 n 1 then s2 else setFlag s2 (Fld.TMR_STAT_GATE n)

/-- `TMR_IRQ` as it reads (R527). -/
def tmrIrq (s : State) : Word :=
  BitVec.ofNat 32 (((List.range 16).map fun n =>
    if bitsOf (reg s (Adr.TMR_STAT n) &&& reg s (Adr.TMR_IEN n)) 6 0 ≠ 0 then 2 ^ n else 0).sum)

/-- Channels first evaluated in the cycle that ends whose value was passed after its counts: they fire late (R519, R520). -/
def lateFirst (s : State) (n : Nat) : Nat :=
  (bitList 4 (tmr s n).first).foldl (fun m k => if cmpReached s n k && cmpDist s n k != 0 then m ||| 2 ^ k else m) (tmr s n).late

/-- The cycle of a timer ends and the next begins: first evaluations stand, unless the cycle's count is still to come; its events
are those of the cycle before; a value written to its counter is taken (R514, R519, R524). -/
def cycleTimer (s : State) (n : Nat) : State :=
  let t := tmr s n
  let s1 := setTmr s n { t with
    fresh := 0
    first := (if t.due then t.first else 0) ||| t.fresh
    late := if t.due then t.late else lateFirst s n
    due := false
    cyc := { cntSet := t.cyc.newCnt.isSome }
    prev := t.cyc.evts }
  match t.cyc.newCnt with
  | some v => setReg s1 (Adr.TMR_CNT n) v
  | none => s1

/-- The source of a timer gives an edge in this cycle: CLK100, CLK32K or a TIN pin (R510, R518). -/
def sourceEdge (s : State) (edge : Bool) (n : Nat) : Bool :=
  let c := fld s (Fld.TMR_CFG_CLKSEL n)
  (c == 0 && clk100 s) || (c == 1 && edge) || (2 ≤ c && c ≤ 9 && tinEdge s (c - 2) (fld s (Fld.TMR_CFG_EDGE n)))

/-- The counts of one CLK100 cycle (R510, R518): plain counts alone; a wrap waits for its command. -/
def tickTimer (edge : Bool) (s : State) (n : Nat) : State :=
  let s1 := cycleTimer s n
  if flag s1 (Fld.TMR_STAT_RUN n) && counting s1 n && !anyAct s1 n 4 && !countLost s1 n && sourceEdge s1 edge n then
    let t := tmr s1 n
    if t.psc < fld s1 (Fld.TMR_CFG_PSC n) then setTmr s1 n { t with psc := t.psc + 1 }
    else if atEnd s1 n then setTmr s1 n { t with due := true }
    else countStep s1 n
  else s1

/-- The synchroniser takes the pins' levels: all of them on CLK100, `TIN0`–`TIN3` alone on CLK32K (R511, R518). -/
def tinSample (s : State) : State :=
  let v := Config.tin s.clk.now
  let new := if clk100 s then v else (v &&& 0x0F) ||| (s.pins.tin[0] &&& 0xF0)
  { s with pins := { s.pins with tin := #v[new, s.pins.tin[0], s.pins.tin[1], s.pins.tin[2]] } }

/-- One cycle of all timers, of CLK100 or, while it is stopped, of CLK32K; `edge` says whether it holds a CLK32K edge (R518). -/
def tickTimers (s : State) (edge : Bool) : State :=
  if clk100 s || edge then
    (List.range 16).foldl (tickTimer edge) (tinSample { s with tout := Vector.replicate 8 {} })
  else s

end Sys2Proof.Machine
end

