-- ==== Sys2Proof/Machine/Commit.lean ====
section
/-! DEFINITION. Shadow sets: the checks of every block in the order of its home chapter, what an accepted set changes beside its
registers, the boundaries, and the commands of the commit registers (R32–R42, R66, R136, R141, R178, R224–R226, R230–R233,
R296, R341, R343, R376, R401, R448, R449, R465, R483, R508, R534, R574, R609). Each check sees the machine `s` and the machine
`v` in which the staged set would be in force. -/

namespace Sys2Proof.Machine

open Sys2Proof

/-- A value lies within limits. -/
def inRange (lo v hi : Nat) : Bool := lo ≤ v && v ≤ hi

/-- Some enabled link source (R66, R560). -/
def sourceEnabled (s : State) : Bool := (List.range 4).any fun k => flag s (Fld.LNK_SRC_EN k)

/-! ### The checks -/

/-- R66, then R178. -/
def sysCheck (s v : State) : Nat :=
  let f (x : Field) : Nat := fld v x
  let g (x : Field) : Bool := flag v x
  firstFail [
    (inRange 1 (f Fld.SYS_MODECTL_FLOOR) 3, rsnRange),
    (f Fld.SYS_MODECTL_IDLEMIN != 0, rsnRange),
    (f Fld.SYS_MODECTL_FLOOR != 2 || g Fld.SYS_MODECTL_GORSE || g Fld.SYS_MODECTL_WATCHLNK, rsnPair),
    (f Fld.SYS_MODECTL_FLOOR != 1 || !(g Fld.SYS_MODECTL_GORSE || g Fld.SYS_MODECTL_WATCHLNK), rsnPair),
    (!g Fld.SYS_MODECTL_GORSE || flag s Fld.GRS_CFG_EN, rsnRef),
    (!g Fld.SYS_MODECTL_WATCHLNK || sourceEnabled s, rsnRef),
    (f Fld.SYS_SCHCFG_QUANTUM != 0 && f Fld.SYS_SCHCFG_MINSLICE != 0 && f Fld.SYS_SCHCFG_HOSTGAP != 0 &&
      100 ≤ f Fld.SYS_SCHCFG_MAXWAIT, rsnRange),
    (inRange 20 (f Fld.SYS_C3CFG_SHARE) 200 && inRange 1 (f Fld.SYS_C3CFG_GAPMAX) 5 && 10 ≤ f Fld.SYS_C3CFG_GAPSEP, rsnRange),
    (f Fld.SYS_CXCFG_ROLE != 3 && inRange 50 (f Fld.SYS_CXCFG_LEAD) 1000 && f Fld.SYS_CXCFG_CXWAIT != 0 &&
      f Fld.SYS_CXCFG_XLEASE != 0, rsnRange),
    (f Fld.SYS_SCHW_LINK != 0 && f Fld.SYS_SCHW_LOOSE != 0 && f Fld.SYS_SCHW_XARB != 0 &&
      ((List.range 32).all fun n => nodeWeight v .root (.hedge n) != 0), rsnRange),
    (cxRole s == cxRole v || !(held s).testBit resCoex, rsnInuse)]

/-- R136. -/
def protCheck (v : State) : Nat :=
  let ok (w : Word) : Bool := bitsOf w 1 0 == 3
  let sup (a : Nat) : Bool :=
    permBy (fun n => reg v (Adr.PROT_RANGE n)) (fun n => reg v (Adr.PROT_PERM n)) (reg v Adr.PROT_DEF) .supervisor a true
  firstFail [
    (((List.range 32).all fun n => ok (reg v (Adr.PROT_PERM n))) && ok (reg v Adr.PROT_DEF), rsnRange),
    ((List.range 81).all fun k => sup (0x100 + k), 0x40)]

/-- R141. -/
def hspCheck (v : State) : Nat :=
  firstFail [(inRange 1 (fld v Fld.HSP_LEN_LEN) 4096 && fld v Fld.HSP_STALL_MAX_US != 0 && fld v Fld.HSP_CFG_G3IDLE != 0,
    rsnRange)]

/-- R534. -/
def tmrCheck (v : State) (n : Nat) : Nat :=
  let f (x : Nat → Field) : Nat := fld v (x n)
  let clock (x : Nat) : Bool := x == 4
  firstFail [
    (f Fld.TMR_CFG_CLKSEL ≤ 10 && f Fld.TMR_CFG_EDGE ≤ 2 && f Fld.TMR_CCFG_CAPEDGE ≤ 2 && f Fld.TMR_TRIG_AEVT ≤ 5 &&
      f Fld.TMR_TRIG_BEVT ≤ 5 && f Fld.TMR_TRIG_AACT ≤ 4 && f Fld.TMR_TRIG_BACT ≤ 4 &&
      (f Fld.TMR_CCFG_CAPSRC ≤ 9 || f Fld.TMR_CCFG_CAPSRC == 15), rsnRange),
    (!(n == 0 && f Fld.TMR_CFG_CLKSEL == 10) && !(clock (f Fld.TMR_TRIG_AACT) && clock (f Fld.TMR_TRIG_BACT)) &&
      !((clock (f Fld.TMR_TRIG_AACT) || clock (f Fld.TMR_TRIG_BACT)) && f Fld.TMR_CFG_CLKSEL == 10), rsnPair)]

/-- R508. -/
def fifoCheck (v : State) : Nat :=
  let chs := List.range 8
  firstFail [
    (chs.all fun n => inRange 1 (fld v (Fld.FIFO_CH_CFG_STALE n)) 10000 && inRange 1 (fld v (Fld.FIFO_CH_CFG_HWM n)) 256,
      rsnRange),
    (decide ((chs.filter fun n => flag v (Fld.FIFO_CH_CFG_BLOCK n)).length ≤ 2), rsnPair)]

/-- The ranges of the RAD fields; an anchor holds a channel code whether it is enabled or not (R185, R198, R212, R218–R220). -/
def radRanges (v : State) : Bool :=
  let f (x : Field) : Nat := fld v x
  f Fld.RAD_PA_PA0GAIN ≤ 80 && f Fld.RAD_PA_PA1GAIN ≤ 80 && 1 ≤ f Fld.RAD_PA_PALEAD && inRange 2 (f Fld.RAD_AGC_THI) 60 &&
    1 ≤ f Fld.RAD_AGC_DWELL && f Fld.RAD_AGC_LNAMAX ≤ 5 && inRange 10 (f Fld.RAD_CANC_REFINE) 60 &&
    inRange 40 (f Fld.RAD_CANC_FAIL) 90 && inRange 1 (f Fld.RAD_CANC_TAPS) 8 && 4 ≤ f Fld.RAD_CANC_MU &&
    20 ≤ f Fld.RAD_TXHOLD_MAX_US && (List.range 16).all fun a => (anchor v a).2 ≤ 9600

/-- Nominal power of an index on a port in units of 1/508 dBm, R197: −9 + 32 i / 127, plus the gain of an external PA. -/
def nominal508 (v : State) (port idx : Nat) : Int :=
  -9 * 508 + 128 * (idx : Int) + (match paOf v port with
    | some k => 127 * (fld v (if k = 0 then Fld.RAD_PA_PA0GAIN else Fld.RAD_PA_PA1GAIN) : Int)
    | none => 0)

/-- Strictly rising. -/
def rising : List Nat → Bool
  | a :: b :: l => a < b && rising (b :: l)
  | _ => true

/-- A port that a read point in force uses over the air (R224). -/
def portReferred (s : State) (p : Nat) : Bool :=
  (List.range 64).any fun n => (rpKind s n == 1 || rpKind s n == 3) && rpPort s n == p

/-- R224. A port that read points refer to is refused INUSE where an entry in force for it names an index above the new MAXIDX and
MAXIDX falls, also where the index lay above the old one already (DESIGN CHOICE, log entry 38). -/
def radCheck (s v : State) : Nat :=
  let ports := List.range 4
  firstFail [
    (radRanges v, rsnRange),
    (!(flag v Fld.RAD_PA_PA0EN && flag v Fld.RAD_PA_PA1EN) || fld v Fld.RAD_PA_PA0PORT != fld v Fld.RAD_PA_PA1PORT, rsnPair),
    (ports.all fun p => (paOf v p).isNone || nominal508 v p (fld v (Fld.RAD_PORT_CFG_MAXIDX p)) ≤ 33 * 508, 0x40),
    (ports.all fun p => !flag v (Fld.RAD_PORT_CFG_PRESENT p) ||
      ((List.range (fld v (Fld.RAD_PORT_CFG_MAXIDX p) + 1)).all fun i => flag v (Fld.RAD_PWR_VALID (128 * p + i))), 0x41),
    (rising (((List.range 16).filter fun a => (anchor v a).1).map fun a => (anchor v a).2), rsnPair),
    (ports.all fun p => !portReferred s p ||
      ((!flag s (Fld.RAD_PORT_CFG_PRESENT p) || flag v (Fld.RAD_PORT_CFG_PRESENT p)) &&
        ((entries s).all fun q => !entryOnPort s q.2 false p || ePower q.2 ≤ fld v (Fld.RAD_PORT_CFG_MAXIDX p) ||
          fld s (Fld.RAD_PORT_CFG_MAXIDX p) ≤ fld v (Fld.RAD_PORT_CFG_MAXIDX p))), rsnInuse)]

/-- Channels of the valid slots of a synthesiser. -/
def slotChans (v : State) (p : RfPath) : List Nat := ((List.range 256).filter (slotValid v p)).map (slotChan v p)

/-- R226. -/
def syncalCheck (v : State) : Nat :=
  let a := slotChans v .a
  let b := slotChans v .b
  firstFail [((a ++ b).all fun c => c ≤ 9600, rsnRange), (decide a.Nodup && decide b.Nodup, rsnPair)]

/-- R227: the ranges of a read point. -/
def rpRange (v : State) (n : Nat) : Bool :=
  match rpKind v n with
  | 0 => rpPort v n == 0 && rpPath v n == 0 && rpRxMask v n == 0
  | 1 => rpRxMask v n != 0
  | 2 => rpPort v n ≤ 1 && rpPath v n == 0 && rpRxMask v n == 0
  | _ => popCount 4 (rpRxMask v n) == 1

/-- Some Hedge or Slate entry in force names a target (R230, R232). -/
def targetNamed (s : State) (code : Nat) : Bool :=
  (parentOf s code).isSome || (entries s).any fun q => eTarget q.2 == code

/-- R230. -/
def rpCheck (s v : State) (n : Nat) : Nat :=
  let k := rpKind v n
  firstFail [
    (rpRange v n, rsnRange),
    (!(k == 1 || k == 3) || flag s (Fld.RAD_PORT_CFG_PRESENT (rpPort v n)), rsnAbsent),
    (k == 0 || (List.range 64).all fun m => m == n || !(rpKind s m == k && rpPort s m == rpPort v n && rpPath s m == rpPath v n),
      0x40),
    (k == rpKind s n || !targetNamed s n, rsnInuse)]

/-- R232 check 1. -/
def hdgRange (v : State) (n : Nat) : Bool :=
  hedgeN v n ≤ 8 && (List.range 8).all fun k =>
    if k < hedgeN v n then hedgeChild v n k ≤ 0x5F && 1 ≤ hedgeWeight v n k && hedgeRole v n k ≤ 2
    else hedgeChild v n k == 0x7F && hedgeWeight v n k == 0 && hedgeRole v n k == 0

/-- R232 check 4: R25 and R26. -/
def hdgTree (s v : State) (n : Nat) : Bool :=
  let kids := hedgeKids v n
  let up := ancestors s (0x40 + n)
  !kids.contains (0x40 + n) && decide kids.Nodup &&
    (kids.all fun c => (parentOf s c).elim true fun h => h == n) &&
    (kids.all fun c => !(up.map fun h => 0x40 + h).contains c) &&
    ((n :: up).all fun h => depth v (0x40 + h) ≤ 6)

/-- R232. -/
def hdgCheck (s v : State) (n : Nat) : Nat :=
  let kids := hedgeKids v n
  let roles := (List.range 8).map (hedgeRole v n)
  let line := (n :: ancestors s (0x40 + n)).map fun h => 0x40 + h
  firstFail [
    (hdgRange v n, rsnRange),
    (kids.all (targetInForce s), rsnRef),
    ((roles.all fun r => r == 0) || (roles.contains 1 && roles.contains 2), rsnPair),
    (hdgTree s v n, rsnTree),
    (((entries s).all fun q => !line.contains (eTarget q.2) || !(entryLeaves v q.2).isEmpty) &&
      (hedgeN v n != 0 || (parentOf s (0x40 + n)).isNone), rsnInuse)]

/-- The channel codes of CUSTOM (R292): the first NCH. A code beyond them is of no use and is not checked (R296; DESIGN CHOICE, log entry
50). -/
def customChans (v : State) : List Nat := (List.range (fld v Fld.BRM_CUST1_NCH)).map fun k =>
  let w := reg v (Adr.BRM_CUSTCH (k / 2))
  if k % 2 = 0 then bitsOf w 13 0 else bitsOf w 29 16

/-- BANK and PTR are 0 where R272 gives 0, and ARG has no bit that R272 gives the step no use for. -/
def stepShape (op arg : Word) : Bool :=
  let k := bitsOf op 31 28
  let used := [0, 0, 0x7F, 0x7F, 0, 0xFFFFF, 0x77F, 0x7F, 0xFF, 0x1FFF00].getD k 0
  k ≤ 9 && (k == 1 || k == 2 || k == 3 || k == 4 || k == 8 || (bitsOf op 27 26 == 0 && bitsOf op 15 0 == 0)) &&
    bitsOf arg 20 0 &&& used == bitsOf arg 20 0

/-- The ranges of the BRM fields (R272, R292, R293). -/
def brmRanges (v : State) : Bool :=
  let f (x : Field) : Nat := fld v x
  1 ≤ f Fld.BRM_CFG_HOPIVL && 1 ≤ f Fld.BRM_Q_ENDEMPTY && inRange 1 (f Fld.BRM_Q_CC) 8 && inRange 1 (f Fld.BRM_Q_CE) 8 &&
    inRange 3 (f Fld.BRM_CAPTURE_DB) 20 && inRange 1 (f Fld.BRM_ACC_DLYTO) 20 && f Fld.BRM_PROF_SEQSTART ≤ 49 &&
    (f Fld.BRM_PROF_SEL != 3 || (1 ≤ f Fld.BRM_CUST0_MAXON && 1 ≤ f Fld.BRM_CUST1_OCCMAX &&
      inRange 1 (f Fld.BRM_CUST1_NCH) 16 && (customChans v).all fun c => c ≤ 9600)) &&
    ((List.range 128).all fun n => stepShape (reg v (Adr.BRM_PG_OP n)) (reg v (Adr.BRM_PG_ARG n))) &&
    ((List.range 64).all fun n =>
      let w := reg v (Adr.BRM_SEL_CTRL n)
      bitsOf w 30 28 ≤ 4 && 1 ≤ bitsOf w 24 23 && bitsOf w 15 8 ≤ 128)

/-- COUNT within the range of OP, and the pool words the step uses (R272): with OP, its COUNT range and its word count. -/
def stepPairs (op arg : Word) : Bool :=
  let n := bitsOf op 23 16
  let pool := bitsOf arg 6 0
  match bitsOf op 31 28 with
  | 1 => inRange 1 n 32
  | 2 => inRange 1 n 16 && pool + n ≤ 128
  | 3 => inRange 1 n 4 && pool + n ≤ 128
  | 4 => inRange 1 n 255
  | 6 => n == 0 && pool + 2 ≤ 128
  | 7 => n == 0 && pool + 2 ≤ 128
  | 8 => inRange 1 n 4 && (bitsOf arg 7 7 == 0 || pool + n ≤ 128)
  | _ => n == 0

/-- R296. -/
def brmCheck (s v : State) : Nat :=
  let op (n : Nat) : Word := reg v (Adr.BRM_PG_OP n)
  let arg (n : Nat) : Word := reg v (Adr.BRM_PG_ARG n)
  firstFail [
    (brmRanges v, rsnRange),
    (((List.range 128).all fun n => stepPairs (op n) (arg n)) &&
      (fld v Fld.BRM_PROF_SEL != 3 || decide (customChans v).Nodup), rsnPair),
    ((List.range 128).all fun n => bitsOf (op n) 31 28 != 9 || keyHeld s 4 (bitsOf (arg n) 20 16), rsnRef),
    ((entries s).all fun q => eClass q.2 != 1 || (eChans q.2).all fun c => (profileChans v).contains c, rsnProfile),
    ((entries s).all fun q => eClass q.2 != 1 || eSelref q.2 == 0xFF || listInForce v (eSelref q.2), rsnInuse)]

/-- Gorse in force uses an HF port. -/
def grsOn (s : State) (p : Nat) : Bool := flag s Fld.GRS_CFG_EN && fld s Fld.GRS_CFG_PORT == p

/-- R341. -/
def hfCheck (s v : State) : Nat :=
  let f (x : Field) : Nat := fld v x
  let ports := [0, 1]
  firstFail [
    (10 ≤ f Fld.HF_CFG_GUARD && 51 ≤ f Fld.HF_CFG_FOFF && 50 ≤ f Fld.HF_CFG_RGUARD && inRange 8 (f Fld.HF_DRV_FMOD) 30 &&
      inRange 10 (f Fld.HF_DRV_VMOD) 30 && inRange 8 (f Fld.HF_DRV_BMOD) 14 && 1 ≤ f Fld.HF_ISO4_IMMIDLE &&
      inRange 100 (f Fld.HF_WTX_MAX_MS) 10000 && 1 ≤ f Fld.HF_ACOL_MAXV, rsnRange),
    (ports.all fun p => !hfPresent s p || hfPresent v p ||
      !(((List.range 64).any fun n => rpKind s n == 2 && rpPort s n == p) || grsOn s p), rsnInuse),
    (ports.all fun p => ((entries s).all fun q => !entryOnPort s q.2 true p || ePower q.2 ≤ hfMaxStep v p) &&
      (!grsOn s p || fld s Fld.GRS_CFG_DRIVE ≤ hfMaxStep v p), rsnInuse)]

/-- R343. -/
def grsCheck (s v : State) : Nat :=
  let f (x : Field) : Nat := fld v x
  let e := f Fld.GRS_TRIG_ENTRY
  firstFail [
    (inRange 1 (f Fld.GRS_CFG_IVL) 64 && inRange 4 (f Fld.GRS_CFG_PINGLEN) 32 && inRange 1 (f Fld.GRS_CFG_CONFIRM) 4 &&
      inRange 1 (f Fld.GRS_CFG_ALPHA) 8 && 1 ≤ f Fld.GRS_THR_THA && 1 ≤ f Fld.GRS_THR_THP, rsnRange),
    (!flag v Fld.GRS_CFG_EN || hfPresent s (f Fld.GRS_CFG_PORT), rsnAbsent),
    (f Fld.GRS_CFG_DRIVE ≤ hfMaxStep s (f Fld.GRS_CFG_PORT), rsnPair),
    (e == 0x3FF || (entryAt s e).elim false (fun x => classKind (eClass x) == 2), rsnRef),
    (flag v Fld.GRS_CFG_EN || !flag s Fld.SYS_MODECTL_GORSE, rsnInuse)]

/-- R376. -/
def tagCheck (s v : State) : Nat :=
  let prot := fld v Fld.TAG_AREA_PROTPG
  let flt := fld v Fld.TAG_AREA_FLTPG
  firstFail [
    (prot ≤ 256 && flt ≤ 256, rsnRange),
    (prot ≤ flt && (!flag v Fld.TAG_CFG_FLTEN || flt < 256), rsnPair),
    (((bitList 32 (fld v Fld.TAG_PWEN_SLOTS)).all fun n => keyHeld s 3 n) &&
      ((bitList 32 (fld v Fld.TAG_AESEN_SLOTS)).all fun n => keyHeld s 2 n), rsnRef)]

/-- The link entry that an index names is absent, or valid, of a link class, with a Use the caller allows; 0x3FF is none. -/
def linkEntryOk (s : State) (i : Nat) (other : Nat) : Bool :=
  i == 0x3FF || (entryAt s i).elim false fun e =>
    classKind (eClass e) == 3 && (eBits e 49 1 0 == other || eBits e 49 1 0 == 2)

/-- Enabled sub-bands as ranges of channel codes. -/
def subBands (v : State) : List (Nat × Nat) :=
  ((List.range 8).filter fun j => flag v (Fld.LNK_SB_DUTY_EN j)).map fun j =>
    (fld v (Fld.LNK_SB_RANGE_LOW j), fld v (Fld.LNK_SB_RANGE_HIGH j))

/-- No two ranges of a list meet. -/
def disjoint : List (Nat × Nat) → Bool
  | [] => true
  | r :: l => (l.all fun q => r.2 ≤ q.1 || q.2 ≤ r.1) && disjoint l

/-- R448 check 2. -/
def lnkPairs (v : State) : Bool :=
  let f (x : Field) : Nat := fld v x
  let g (x : Field) : Bool := flag v x
  let srcs := (List.range 4).filter fun k => g (Fld.LNK_SRC_EN k)
  (!(g Fld.LNK_BCN_ORIGIN || g Fld.LNK_BCN_CANORIG) || g Fld.LNK_BCN_EN) &&
    (!(g Fld.LNK_BCN_EN || g Fld.LNK_DATA_EN || g Fld.LNK_RDV_EN) || f Fld.LNK_ID_NODE != 0) &&
    f Fld.LNK_BCNPH_PHASE < 250 * f Fld.LNK_BCN_BI && f Fld.LNK_RDV_OFFSET < f Fld.LNK_RDV_PERIOD &&
    f Fld.LNK_RDV_LEN ≤ 10 * f Fld.LNK_RDV_PERIOD && f Fld.LNK_CCA_BEMIN ≤ f Fld.LNK_CCA_BEMAX &&
    ((subBands v).all fun r => r.1 < r.2) && disjoint (subBands v) &&
    decide (srcs.map fun k => f (Fld.LNK_SRC_NBR k)).Nodup

/-- R401, then R448. -/
def lnkCheck (s v : State) : Nat :=
  let f (x : Field) : Nat := fld v x
  let used := [f Fld.LNK_BCN_ENTRY, f Fld.LNK_DATA_ENTRY].filterMap (linkEntry s)
  firstFail [
    (inRange 4 (f Fld.LNK_PHYCFG_PREAMBLE) 1000 && inRange 3 (f Fld.LNK_CAPTURE_DB) 20 && f Fld.LNK_EQ_ABS ≤ 30 &&
      inRange 3 (f Fld.LNK_EQ_REL) 30 && f Fld.LNK_EQ_ERASEMAX ≤ 75, rsnRange),
    (keyHeld s 1 (f Fld.LNK_MACCFG_KEYSLOT) && linkEntryOk s (f Fld.LNK_BCN_ENTRY) 1 &&
      linkEntryOk s (f Fld.LNK_DATA_ENTRY) 0 &&
      ((List.range 4).all fun k => !flag v (Fld.LNK_SRC_EN k) || nbrEui s (f (Fld.LNK_SRC_NBR k)) != 0), rsnRef),
    (lnkPairs v, rsnPair),
    (used.all fun e => (eChans e).all fun c => (subBands v).any fun r => r.1 ≤ c && c < r.2, 0x40)]

/-- R449. -/
def nbrCheck (s v : State) (n : Nat) : Nat :=
  let e := nbrEui v n
  firstFail [
    (e != 2 ^ 64 - 1, rsnRange),
    (e == 0 || (e != dieUid && (List.range 256).all fun m => m == n || nbrEui s m != e), 0x40),
    (e == nbrEui s n || (List.range 4).all fun k => !(flag s (Fld.LNK_SRC_EN k) && fld s (Fld.LNK_SRC_NBR k) == n), rsnInuse)]

/-- R465 and the ranges of `JNL_CFG` (R483). -/
def mspCheck (v : State) : Nat :=
  firstFail [(fld v Fld.MSP_CFG0_MODE != 3 && fld v Fld.MSP_CFG1_MODE != 3 && inRange 1 (fld v Fld.JNL_CFG_FLUSH) 3600 &&
    2 ≤ fld v Fld.JNL_CFG_RESERVE, rsnRange)]

/-- R574. -/
def calCheck (v : State) : Nat :=
  let f (x : Field) : Nat := fld v x
  firstFail [(inRange 1 (f Fld.CAL_CFG_DTEMP) 50 && 10 ≤ f Fld.CAL_CFG_GRACE && inRange 40 (f Fld.CAL_LIM_SPUR) 90 &&
    inRange 20 (f Fld.CAL_LIM_EYE) 90 && inRange 15 (f Fld.CAL_LIM_EVM) 40, rsnRange)]

/-- The reason a block's staged set is refused; 0 where it passes (R32, R40, R41). -/
def checkOf (s : State) (b : BlockInst) : Nat :=
  let v := swapWords s b fun _ => true
  match b.block with
  | .sys => sysCheck s v
  | .prot => protCheck v
  | .qtz => qtzCheck s
  | .tmr => tmrCheck v b.inst
  | .fifo => fifoCheck v
  | .rad => radCheck s v
  | .syncal => syncalCheck v
  | .rp => rpCheck s v b.inst
  | .hdg => hdgCheck s v b.inst
  | .brm => brmCheck s v
  | .hf => hfCheck s v
  | .tag => tagCheck s v
  | .grs => grsCheck s v
  | .lnk => lnkCheck s v
  | .nbr => nbrCheck s v b.inst
  | .cal => calCheck v
  | .msp => mspCheck v
  | .hsp => hspCheck v

/-! ### What an accepted set changes beside its registers -/

/-- Zones that end and begin with a Hedge commit (R236, R461). -/
def zonesFollow (s0 s : State) : State :=
  let ended := (List.range 32).filter fun n => isZone s0 n && !isZone s n
  let begun := (List.range 32).filter fun n => !isZone s0 n && isZone s n
  let s1 := ended.foldl (fun t n => zoneEnd t (0x40 + n)) s
  if flag s1 Fld.SYS_BOOTSTAT_DONE then begun.foldl (fun t n => zoneBegin t (0x40 + n)) s1 else s1

/-- Power entries that a commit has replaced no longer hold their factory values (R199). -/
def radApplied (s0 s : State) : State :=
  { s with radio := { s.radio with
    paMeasured := (s.radio.paMeasured ++ ((List.range 512).filter fun k =>
      reg s0 (Adr.RAD_PWR k) != reg s (Adr.RAD_PWR k))).dedup } }

/-- The pool goes into force with the set (R275); the accounts follow a change of profile (R288), the SEQ position one of SEL or
SEQSTART (R285). -/
def brmApplied (s0 s : State) : State :=
  let s1 := { s with brm := { s.brm with pool := s.brm.poolShadow } }
  let s2 := if profileChans s0 != profileChans s1 then accountsForProfile s1 else s1
  if fld s0 Fld.BRM_PROF_SEL != fld s2 Fld.BRM_PROF_SEL || fld s0 Fld.BRM_PROF_SEQSTART != fld s2 Fld.BRM_PROF_SEQSTART then
    setFld s2 Fld.BRM_STAT_SEQPOS (fld s2 Fld.BRM_PROF_SEQSTART)
  else s2

/-- A change of PORT, DRIVE or PINGLEN rebuilds the baseline (R333). -/
def grsApplied (s0 s : State) : State :=
  if [Fld.GRS_CFG_PORT, Fld.GRS_CFG_DRIVE, Fld.GRS_CFG_PINGLEN].any fun f => fld s0 f != fld s f then baselineRebuild s else s

/-- A SYS set in force: the credit of C3 has grown at the old SHARE (R166); waiting requests ask for COEX as the new role and kinds say
(R148); a request of the external requester is possible in role 2 alone; the coexistence outputs follow (R168). -/
def sysApplied (s0 s : State) : State :=
  let c := (growCredit s0).sched
  let again (r : Request) : Request :=
    if r.who = .external then r else { r with mask := withCoex s r.air (r.mask &&& 0x7FE) }
  let keep := s.sched.requests.filter fun r => cxRole s = 2 || r.who != .external
  cxUpdate { s with sched := { s.sched with credit := c.credit, creditAt := c.creditAt, requests := keep.map again } }

/-- The effects of an accepted set, given the machine before it. -/
def afterSwap (s0 s : State) (b : BlockInst) : State :=
  match b.block with
  | .sys => sysApplied s0 s
  | .tmr => tmrApplied s b.inst (fld s0 (Fld.TMR_CCFG_CMPEN b.inst))
  | .rad => radApplied s0 s
  | .hdg => zonesFollow s0 s
  | .brm => brmApplied s0 s
  | .tag => tagApplied s (fld s0 Fld.TAG_AREA_FLTPG) (flag s0 Fld.TAG_CFG_FLTEN) (flag s0 Fld.TAG_CFG_HARVEN)
      (!flag s0 Fld.SYS_BOOTSTAT_DONE && !flag s0 Fld.SYS_BOOTSTAT_BARE)
  | .grs => grsApplied s0 s
  | .lnk => lnkApplied s
  | .nbr => nbrApplied s b.inst (nbrEui s0 b.inst)
  | .qtz => qtzApplied s0 s
  | _ => s

/-! ### Commits and calibration (R568) -/

/-- The words an instance of a calibration item holds (R561, R563). -/
def itemWords (item inst : Nat) : List Nat :=
  match item with
  | 1 => (List.range 256).map (slotAdr (instPath inst))
  | 2 => (List.range 128).map fun i => Adr.RAD_PWR (128 * inst + i)
  | 3 => if inst = 0x10 then (List.range 8).map Adr.RAD_CXANCH
    else (List.range 16).map fun a => Adr.RAD_CXV (cxvIndex (inst / 4) (inst % 4) a)
  | 4 => (List.range 4).map Adr.CAL_ALIGN
  | 5 => (List.range 8).map fun j => Adr.CAL_ADC (8 * inst + j)
  | 6 => [Adr.CAL_HFTUNE inst]
  | 7 => [Adr.GRS_BASE, Adr.CAL_GRSOSC]
  | 8 => [Adr.QTZ_TRIM]
  | _ => []

/-- The new values of an instance count as its completion (R568). -/
def calCompleted (s : State) (x : CalInst) : State :=
  setCalInst s { x with due := false, overdue := false, slots := [], steps := 0, values := [], figures := [], running := false,
                        staged := false, doneAt := some s.clk.now, doneTemp := fld s Fld.CAL_TEMP_TEMP }

/-- Words have come into force by a commit: staged results that cover one of them are discarded and stay due; a running step is
aborted and the commit counts as completion (R568). -/
def calCommitted (s : State) (changed covered : List Nat) : State :=
  s.cal.insts.foldl (fun t x =>
    if x.staged then
      if x.values.any fun p => changed.contains p.1 then
        setCalInst t { x with staged := false, steps := 0, values := [], figures := [] }
      else t
    else if x.running && (itemWords x.item x.inst).any fun a => covered.contains a then calCompleted t x
    else t) s

/-- The tuning of an HF port that Gorse uses has changed, which rebuilds the baseline (R333). -/
def tuningChanged (s : State) (changed : List Nat) : State :=
  if [0, 1].any fun n => changed.contains (Adr.CAL_HFTUNE n) && fld s Fld.GRS_CFG_PORT == n then baselineRebuild s else s

/-- Addresses among some at which two machines differ. -/
def differing (s0 s : State) (l : List Nat) : List Nat := l.filter fun a => reg s0 a != reg s a

/-! ### Swapping in -/

/-- A set swapped in whole, with all that follows from it. -/
def acceptAll (s : State) (b : BlockInst) : State :=
  let words := (stagedOf s b).map fun p => p.1
  let s1 := acceptWhole s b
  calCommitted (afterSwap s s1 b) (differing s s1 words) words

/-- The parts of a block that swaps in part by part (R225, R508, R574): SYN-A and SYN-B; the channels; the alignment words, the
four ADCs, the two HF tunings, the Gorse oscillator. -/
def partOf (blk : Block) (a : Nat) : Option Nat :=
  match blk with
  | .syncal => if a < 0xD00 then some 0 else if a < 0xE00 then some 1 else none
  | .fifo => some (a - Adr.FIFO_CH_CFG 0)
  | .cal => if 0x2810 ≤ a ∧ a ≤ 0x2813 then some 0 else if 0x2840 ≤ a then some (1 + (a - 0x2840) / 8)
    else if 0x2814 ≤ a ∧ a ≤ 0x2815 then some (5 + (a - 0x2814)) else if a = 0x2816 then some 7 else none
  | _ => none

/-- The block swaps in part by part (R609). -/
def isParted : Block → Bool
  | .syncal => true | .fifo => true | .cal => true | _ => false

/-- Addresses of a block whose staged word differs from the word in force. -/
def changedWords (s : State) (b : BlockInst) : List Nat :=
  ((stagedOf s b).filter fun p => reg s p.1 != p.2).map fun p => p.1

/-- The parts that an accepted set still has to swap in: both halves of SYNCAL; changed channels; changed parts of CAL. -/
def partsOf (s : State) (b : BlockInst) : List Nat :=
  match b.block with
  | .syncal => [0, 1]
  | blk => ((changedWords s b).filterMap (partOf blk)).dedup.insertionSort (· ≤ ·)

/-- The path of a part is idle: it swaps in at once (R225, R508, R574). -/
def partIdle (s : State) (blk : Block) (n : Nat) : Bool :=
  match blk with
  | .syncal => pathState s (if n = 0 then .a else .b) ≤ 1
  | .fifo => (chan s n).wr.isEmpty && (chan s n).rd.isEmpty
  | .cal =>
    if n = 0 then fld s Fld.RAD_STATE_CHON == 0
    else if n ≤ 4 then !(fld s Fld.RAD_STATE_CHON).testBit (n - 1)
    else if n ≤ 6 then !(flag s Fld.HF_STAT_FIELD && fld s Fld.HF_STAT_PORT == n - 5)
    else true
  | _ => true

/-- A part has come to its boundary: its path is idle, its synthesiser enters SETTLE now, its channel is handed over now; the Gorse
oscillator's is the end of a ping, and a ping is one step (R225, R508, R567). -/
def partAt (s : State) (blk : Block) (n : Nat) : Bool :=
  partIdle s blk n || !commitNew s ⟨blk, 0⟩ &&
    match blk with
    | .syncal =>
      let p : RfPath := if n = 0 then .a else .b
      pathState s p == 2 && (pathSt s p).settleAt == s.clk.now
    | .fifo => (chan s n).handedAt == some s.clk.now
    | _ => false

def partsLeft (s : State) (blk : Block) : Option (List Nat) := (s.parts.find? fun p => p.1 == blk).map fun p => p.2

def setParts (s : State) (blk : Block) (l : List Nat) : State :=
  { s with parts := s.parts.filter (fun p => p.1 != blk) ++ [(blk, l)] }

def clearParts (s : State) (blk : Block) : State := { s with parts := s.parts.filter fun p => p.1 != blk }

/-- One part comes into force; words of no part come with the first of them. The last one ends PEND (R609). -/
def partSwap (s : State) (b : BlockInst) (n : Nat) : State :=
  match partsLeft s b.block with
  | none => s
  | some l =>
    if !l.contains n then s
    else
      let mine (a : Nat) : Bool := match partOf b.block a with
        | some k => k == n
        | none => true
      let words := ((stagedOf s b).map fun p => p.1).filter mine
      let s1 := swapWords s b mine
      let changed := differing s s1 words
      let s2 := tuningChanged (calCommitted s1 changed words) changed
      let rest := l.filter (· != n)
      if rest.isEmpty then dropStaged (setPend (clearParts s2 b.block) b 0) b else setParts s2 b.block rest

/-- A parted set is validated at its first boundary; once accepted, the parts at their own boundary swap in at once (R609). -/
def acceptParts (s : State) (b : BlockInst) : State :=
  let why := checkOf s b
  if why ≠ 0 then refuseSet s b why
  else
    let l := partsOf s b
    let s1 := acceptSeq s b
    if l.isEmpty then setPend (swapWords s1 b fun _ => true) b 0
    else (l.filter (partAt s b.block)).foldl (fun t n => partSwap t b n) (setParts s1 b.block l)

/-- A block with a pending commit meets its boundary (R32, R33). -/
def boundary (s : State) (b : BlockInst) : State :=
  if !flag s (cPend b) then s
  else if isParted b.block then
    match partsLeft s b.block with
    | some l => (l.filter (partAt s b.block)).foldl (fun t n => partSwap t b n) s
    | none => acceptParts s b
  else
    let why := checkOf s b
    if why = 0 then acceptAll s b else refuseSet s b why

/-! ### Where the boundaries lie (R38, R39) -/

/-- Read points that a grant of the UHF reader, of the HF reader, and a link slot use (R38). -/
def uhfPoints (s : State) : List Nat :=
  grantedOf s 1 ++ (match s.brm.imm, (grantOf s .hostUhf) with
    | some q, some _ => leaves s q.2.1
    | _, _ => [])
def hfPoints (s : State) : List Nat :=
  grantedOf s 2 ++ (match s.hf.visit with
    | some v => v.leaf :: v.leaves
    | none => [])
def linkPoints (s : State) : List Nat :=
  grantedOf s 3 ++ (match s.lnk.slot with
    | some x => [x.rp]
    | none => [])

/-- Read points in use (R38). -/
def pointsInUse (s : State) : List Nat := uhfPoints s ++ hfPoints s ++ linkPoints s

/-- A UHF round has ended in this cycle, and none runs (R38). -/
def roundOver (s : State) : Bool := s.brm.a.isNone && s.brm.b.isNone && s.brm.endedAt == some s.clk.now

/-- An HF frame boundary (R303): no answer is awaited, and the next frame starts in a step of its own. -/
def hfBetween (s : State) : Bool := s.hf.answerBy.isNone

/-- The round, frame or slot that uses a read point is at its end (R38): each kind of work that has it in use stands between two. -/
def pointFree (s : State) (n : Nat) : Bool :=
  (roundOver s || !(uhfPoints s).contains n) && (hfBetween s || !(hfPoints s).contains n) && !(linkPoints s).contains n

/-- An HF session holds a grant: a consumer other than calibration and Gorse holds HFD (R38). -/
def hfGranted (s : State) : Bool := s.sched.grants.any fun g => g.mask.testBit resHfd && (match g.who with
  | .entry _ => true
  | .hostHf => true
  | _ => false)

/-- The idle condition of R38. -/
def blockIdle (s : State) (b : BlockInst) : Bool :=
  match b.block with
  | .sys => s.sched.grants.isEmpty
  | .prot => s.pins.hselN
  | .hsp => s.pins.hselN
  | .qtz => false
  | .tmr => !flag s (Fld.TMR_STAT_RUN b.inst)
  | .rad => pathState s .a ≤ 1 && pathState s .b ≤ 1
  | .rp => !(pointsInUse s).contains b.inst
  | .hdg => (leaves s (0x40 + b.inst)).all fun n => !(pointsInUse s).contains n
  | .brm => s.brm.a.isNone && s.brm.b.isNone
  | .hf => s.hf.visit.isNone && !hfGranted s
  | .tag => !flag s Fld.TAG_STAT_FIELD
  | .lnk => s.lnk.slot.isNone
  | .nbr => s.lnk.slot.isNone
  | .msp => !(held s).testBit resMsp
  | .syncal => partIdle s .syncal 0 || partIdle s .syncal 1
  | .fifo => (partsOf s b).all (partIdle s .fifo)
  | .cal => let l := partsOf s b; l.isEmpty || l.any (partIdle s .cal)
  | .grs => true

/-- The block stands at its boundary (R38): it is idle, or the moment of the table has come, which a COMMIT of this cycle has missed
(R35). A step is a field command, a ping or a memory transaction as a whole, so the tag and the memory port stand between two of them.
A Quartz set waits for the second's own step. -/
def atBoundary (s : State) (b : BlockInst) : Bool :=
  !commitNew s b && (blockIdle s b ||
    match b.block with
    | .sys => s.sched.point
    | .tmr => (tmr s b.inst).wrapAt == some s.clk.now
    | .rad => roundOver s
    | .rp => pointFree s b.inst
    | .hf => hfBetween s
    | .tag => true
    | .syncal => [0, 1].any (partAt s .syncal)
    | .fifo => (partsOf s b).any (partAt s .fifo)
    | .cal => (partsOf s b).any (partAt s .cal)
    | _ => false)

/-- Instances with a pending commit, in address order: read points by number, then Hedges by number (R233). -/
def pendingInsts (s : State) : List BlockInst :=
  s.regs.filterMap fun p => if p.2.getLsbD 31 && isCommit p.1 then blockOf p.1 else none

/-- Every pending commit whose block stands at its boundary applies, each against what those before it have left (R39, R233). -/
def settle (s : State) : State :=
  (pendingInsts s).foldl (fun t b => if atBoundary t b then boundary t b else t) s

/-- SHADOW_SWAP: the boundary of one block, at which what else stands at its boundary in this cycle comes in its order (R233). -/
def execShadowSwap (blk : BlockInst) (s : State) : Host.Outcome State Fault Refusal :=
  next (if validInst blk && atBoundary s blk then settle s else s)

/-- A part comes to its own boundary; the first one validates the set (R609). -/
def swapPart (s : State) (b : BlockInst) (n : Nat) : State :=
  if validInst b && isParted b.block && flag s (cPend b) && partAt s b.block n then partSwap (boundary s b) b n else s

def execPartSwap (blk : BlockInst) (part : Nat) (s : State) : Host.Outcome State Fault Refusal := next (swapPart s blk part)

/-- A wrap is the boundary of the timers that wrap in it (R38, R512). -/
def execTimerWrap (n : Fin 16) (s : State) : Host.Outcome State Fault Refusal := next (settle (timerWrap s n))

/-! ### Requests -/

/-- A commit is requested: nothing more while one is pending, at once where the block is idle (R35, R38). -/
def requestCommit (s : State) (b : BlockInst) : State :=
  if flag s (cPend b) then s
  else
    let s1 := setPend s b 1
    if blockIdle s1 b then boundary s1 b
    else { s1 with fresh := regPut s1.fresh (commitAddr b) (freshAt s1 (commitAddr b) ||| maskOf 31 31) }

/-- A pending commit is cancelled and the shadow set reloaded; parts swapped in stay (R36, R609). -/
def discard (s : State) (b : BlockInst) : State :=
  let s1 := clearParts (dropStaged (setPend s b 0) b) (if isParted b.block then b.block else .prot)
  match b.block with
  | .brm => { s1 with brm := { s1.brm with poolShadow := s1.brm.pool } }
  | _ => s1

/-- A write of a commit register (R34–R37): the W1C flags, DISCARD, then COMMIT. -/
def commitWrite (s : State) (b : BlockInst) (v : Word) : State :=
  let a := commitAddr b
  let s1 := rsvCheck (setReg s a (clearedBy s a (reg s a) v)) a v
  let s2 := if v.getLsbD 1 then discard s1 b else s1
  if v.getLsbD 0 then requestCommit s2 b else s2

def execCommit (lvl : Level) (blk : BlockInst) (s : State) : Host.Outcome State Fault Refusal :=
  next (if validInst blk then asWrite s lvl (commitAddr blk) fun t => commitWrite t blk 1 else s)

def execDiscard (lvl : Level) (blk : BlockInst) (withCommit : Bool) (s : State) : Host.Outcome State Fault Refusal :=
  next (if validInst blk then asWrite s lvl (commitAddr blk) fun t => commitWrite t blk (if withCommit then 3 else 2) else s)

end Sys2Proof.Machine
end

