-- ==== Sys2Proof/Machine/Image.lean ====
section
/-! DEFINITION. Configuration images: the header, the records and their structure, the choice between two images (R80–R86,
R95, R563). -/

namespace Sys2Proof.Machine

open Sys2Proof

/-- One record: TYPE, RFLAGS, ARG and payload (R84). -/
structure Rec where
  type : Nat
  flags : Nat
  arg : Nat
  payload : List Byte
  deriving DecidableEq, Repr

/-- A CAL record of an item and instance may have this many words (R563); an item code other than 0x01 to 0x08 has none, so that its record
fails STRUCT as one of a wrong count does (DESIGN CHOICE, log entry 47). -/
def calCountOk (item inst n : Nat) : Bool :=
  match item with
  | 1 => 1 ≤ n && n ≤ 256
  | 2 => 1 ≤ n && n ≤ 128
  | 3 => if inst = 0x10 then n == 8 else n == 16
  | 4 => n == 4
  | 5 => n == 8
  | 6 => n == 1
  | 7 => n == 2
  | 8 => n == 1
  | _ => false

/-- RLEN agrees with ARG (R85, R86), given the payload's length in bytes. A KEY record's faults refuse the record instead
(R92). -/
def argAgrees (type arg n : Nat) : Bool :=
  match type with
  | 1 => n == 12 * arg
  | 2 => arg < 2 ^ 16
  | 3 => arg < 1024 && n % 64 == 0 && arg + n / 64 ≤ 1024
  | 4 => 1 ≤ arg && arg ≤ 32 && n == 24 * arg
  | 5 => arg < 2 ^ 16 && calCountOk (arg % 256) (arg / 256) (n / 4)
  | 7 => 1 ≤ arg && arg ≤ 32 && n == 8 * arg
  | 0x7F => arg == 0 && n == 0
  | _ => true

/-- The record types of R86. -/
def knownType (t : Nat) : Bool := (1 ≤ t && t ≤ 7) || t == 0x7F

/-- The record that bytes begin with: its RLEN is right and lies within them, and RFLAGS bits [6:1] are 0 (R84, R85). -/
def headRec (bs : List Byte) : Option Rec :=
  let flags := (bs.getD 1 0).toNat
  let rlen := leNat ((bs.drop 2).take 2)
  if bs.length < 8 ∨ rlen < 8 ∨ rlen % 4 ≠ 0 ∨ bs.length < rlen ∨ flags / 2 % 64 ≠ 0 then none
  else some { type := (bs.getD 0 0).toNat, flags := flags, arg := leNat ((bs.drop 4).take 4), payload := (bs.drop 8).take (rlen - 8) }

/-- The record's TYPE and its ARG hold (R85). -/
def Rec.sound (r : Rec) : Bool :=
  if knownType r.type then argAgrees r.type r.arg r.payload.length else 128 ≤ r.flags

/-- Walk records to END (R85); none where the structure fails. END must end exactly with the bytes. -/
def walkRecs : Nat → List Byte → Option (List Rec)
  | 0, _ => none
  | f + 1, bs =>
    match headRec bs with
    | none => none
    | some r =>
      if !r.sound then none
      else if r.type = 0x7F then (if bs.length = 8 then some [r] else none)
      else (walkRecs f (bs.drop (8 + r.payload.length))).map fun l => r :: l

/-- The walk stops at a CAL record of a wrong word count (R563). -/
def walkMiscounts : Nat → List Byte → Bool
  | 0, _ => false
  | f + 1, bs =>
    match headRec bs with
    | none => false
    | some r =>
      if r.sound then r.type != 0x7F && walkMiscounts f (bs.drop (8 + r.payload.length))
      else r.type == 0x05 && r.arg < 2 ^ 16 && !calCountOk (r.arg % 256) (r.arg / 256) (r.payload.length / 4)

/-- The fields of an image header that the device uses (R81). -/
structure ImageHdr where
  length : Nat
  seq : Nat
  crc : Nat
  strict : Bool
  nocal : Bool
  reccount : Nat
  product : Word
  deriving DecidableEq, Repr

/-- The header at a NOR address. -/
def imageHdr (s : State) (a : Nat) : ImageHdr :=
  let w (k : Nat) : Nat := leNat (norBytes s (a + k) 4)
  { length := w 8, seq := w 12, crc := w 16, strict := (w 20).testBit 0, nocal := (w 20).testBit 1, reccount := w 24,
    product := BitVec.ofNat 32 (w 36) }

/-- The header checks of R83: 0, or the code of the first that fails. -/
def headerWhy (s : State) (a : Nat) : Nat :=
  let h := imageHdr s a
  if norBytes s a 4 ≠ [0x59, 0x47, 0x49, 0x4D] then 2
  else if byteAt s.mem.nor (a + 5) ≠ 1 then 3
  else if leNat (norBytes s (a + 6) 2) ≠ 0x40 ∨ h.length % 4 ≠ 0 ∨ h.length < 72 ∨ 0x400000 < h.length ∨ h.seq = 0xFFFFFFFF ∨
      4 ≤ leNat (norBytes s (a + 20) 4) then 4
  else 0

/-- The records of an image, where its structure holds (R85). -/
def imageRecs (s : State) (a : Nat) : Option (List Rec) :=
  let h := imageHdr s a
  match walkRecs (h.length / 8 + 1) (norBytes s (a + 64) (h.length - 64)) with
  | some l => if l.length = h.reccount then some l else none
  | none => none

/-- The CRC and structure pass (R82, R83). -/
def passWhy (s : State) (a : Nat) : Nat :=
  let h := imageHdr s a
  if crc32 (norBytes s (a + 20) (h.length - 20)) ≠ h.crc then 5
  else if (imageRecs s a).isNone then 6
  else 0

/-- STRUCT fails by a CAL record's word count, which `SYS_BOOTREC.BLOCKID` shows (R563). -/
def miscounted (s : State) (a : Nat) : Bool :=
  let h := imageHdr s a
  walkMiscounts (h.length / 8 + 1) (norBytes s (a + 64) (h.length - 64))

/-- The images whose headers pass, in the order they are tried: by SEQ descending, A first on equal SEQ (R95). -/
def imageOrder (s : State) : List Bool :=
  let ok (b : Bool) : Bool := headerWhy s (imageBase b) == 0
  let both := if (imageHdr s (imageBase false)).seq < (imageHdr s (imageBase true)).seq then [true, false] else [false, true]
  both.filter ok

end Sys2Proof.Machine
end

