-- ==== Sys2Proof/Machine/Cal.lean ====
section
/-! DEFINITION. Calibration: due rules, steps, results and their application, the commands of `CAL_CMD`, the save area, tracing,
and what power-up calibration leaves (R91, R99, R561–R575). -/

namespace Sys2Proof.Machine

open Sys2Proof

/-! ### Loading values (R91, R563, R568) -/

/-- Write a word of a shadow set: ignored with WRLOCK while its commit is pending (R35). -/
def stageWord (s : State) (a : Nat) (v : Word) : State :=
  match blockOf a with
  | some b => if flag s (cPend b) then setFlag s (cWrlock b) else stage s a v
  | none => s

/-- Request a commit, with the reason of its refusal if it is refused at once (R94). A commit already pending stays so. -/
def commitNow (s : State) (b : BlockInst) : State × Option Nat :=
  if flag s (cPend b) then (s, none)
  else
    let s1 := requestCommit s b
    if !flag s1 (cPend b) && fld s1 (cSeq b) == fld s (cSeq b) then (s1, some (fld s1 (cReason b))) else (s1, none)

/-- The block through which an item's values are committed (R563). -/
def itemBlock (item : Nat) : BlockInst :=
  match item with
  | 1 => ⟨.syncal, 0⟩
  | 2 => ⟨.rad, 0⟩
  | 3 => ⟨.rad, 0⟩
  | 8 => ⟨.qtz, 0⟩
  | _ => ⟨.cal, 0⟩

/-- Instances of an item in a record (R561). -/
def recordInstances (item : Nat) : Nat :=
  match item with
  | 1 => 2
  | 2 => 4
  | 3 => 17
  | 5 => 4
  | 6 => 2
  | _ => 1

/-- The hardware an instance names is there (R563). -/
def itemPresent (s : State) (item inst : Nat) : Bool :=
  match item with
  | 2 => flag s (Fld.RAD_PORT_CFG_PRESENT inst)
  | 3 => inst == 0x10 || flag s (Fld.RAD_PORT_CFG_PRESENT (inst / 4))
  | 6 => hfPresent s inst
  | _ => true

/-- Turn a vector by an angle step by step, as `vectoring` undoes it; the angle is in units of 2^-32 turn within a quarter. -/
def rotating : List Nat → Nat → Int → Int → Int → Int × Int
  | [], _, x, y, _ => (x, y)
  | t :: ts, k, x, y, a =>
    if 0 ≤ a then rotating ts (k + 1) (x - y / 2 ^ k) (y + x / 2 ^ k) (a - t)
    else rotating ts (k + 1) (x + y / 2 ^ k) (y - x / 2 ^ k) (a + t)

/-- The vector of an amplitude and a phase in 1/32,768 turn, with 8 fraction bits (log entry 16). -/
def polar (amp phase : Nat) : Int × Int :=
  let a : Int := (phase * 131072 : Nat)
  let flip := 1073741824 < a ∧ a < 3221225472
  let b := if flip then a - 2147483648 else if 3221225472 ≤ a then a - 4294967296 else a
  let r := rotating atanTable 0 ((amp * 256 * 39797 : Nat) : Int) 0 b
  let x := r.1 / 65536
  let y := r.2 / 65536
  if flip then (-x, -y) else (x, y)

/-- A baseline loaded with VALID = 1 (R563). -/
def loadBaseline (s : State) (w : Word) : State :=
  let amp := bitsOf w 31 16
  let phase := bitsOf w 14 0
  let v := polar amp phase
  let s1 := { s with grs := { s.grs with re := v.1, im := v.2, sum := [] } }
  clrFld (setFlag (setFld (setFld s1 Fld.GRS_BASE_AMP amp) Fld.GRS_BASE_PHASE phase) Fld.GRS_BASE_VALID) Fld.GRS_STAT_NOBASE

/-- Load an item's words, of the count that R563 gives, into their shadow set and commit them (R91, R563): the state, and the reason and
block ID of a refusal. -/
def calLoad (s : State) (item inst : Nat) (words : List Word) : State × Option (Nat × Nat) :=
  if recordInstances item ≤ inst then (s, some (rsnRange, 0x0F))
  else if !itemPresent s item inst then (s, some (rsnAbsent, 0x0F))
  else
    let s0 := if item = 7 then loadBaseline s (words.headD 0) else s
    let pairs := ((itemWords item inst).zip words).filter fun p => p.1 != Adr.GRS_BASE
    let s1 := pairs.foldl (fun t p => stageWord t p.1 p.2) s0
    let b := itemBlock item
    let r := commitNow s1 b
    (r.1, r.2.map fun why => (why, blockId b.block))

/-! ### Steps -/

/-- Channels in use on a synthesiser: those of UHF entries that may run on it, and on SYN-B those of link entries (R99). -/
def synthChannels (s : State) (p : RfPath) : List Nat :=
  ((entries s).flatMap fun q =>
    if classKind (eClass q.2) = 1 then (if (synthPaths q.2).contains p then airChans s q.2 else [])
    else if classKind (eClass q.2) = 3 && p == .b then eChans q.2 else []).dedup

/-- Valid slots of an instance of item 0x01. -/
def validSlots (s : State) (inst : Nat) : List Nat := (List.range 256).filter (slotValid s (instPath inst))

/-- Steps that an instance takes (R561). -/
def calSteps (s : State) (x : CalInst) : Nat :=
  match x.item with
  | 1 => max 1 (if x.slots.isEmpty then (validSlots s x.inst).length else x.slots.length)
  | 2 => (portChannels s x.inst).length
  | 3 => (portAnchors s (x.inst / 4)).length
  | 4 => 2
  | 6 => 2
  | _ => 1

/-- An instance fails: the values in force stay, the fault record goes out, and it is overdue at once (R565). -/
def calFail (s : State) (item inst : Nat) : State :=
  let x := calInst s item inst
  let s1 := setCalInst s { x with steps := 0, values := [], figures := [], running := false }
  let s2 := setFld (setFld (setFlag s1 Fld.CAL_STAT_FAIL) Fld.CAL_STAT_ITEM item) Fld.CAL_STAT_INSTANCE inst
  calOverdue (fault s2 0x0F 0 0x05 [BitVec.ofNat 8 item, BitVec.ofNat 8 inst]) item inst

/-- The field of `CAL_QTX` of a port. -/
def evmField : Nat → Field
  | 0 => Fld.CAL_QTX_EVM0
  | 1 => Fld.CAL_QTX_EVM1
  | 2 => Fld.CAL_QTX_EVM2
  | _ => Fld.CAL_QTX_EVM3

/-- Report a completed measurement's figure, and say whether it keeps its limit (R569). The EVM is that of the first step, the
port's lowest channel; the residual is the worst of the anchors. -/
def calFigure (s : State) (x : CalInst) : State × Bool :=
  let worst := x.figures.foldl min 0xFF
  match x.item with
  | 1 => (s, fld s Fld.SYNCAL_CFG_MARGINMIN ≤ worst)
  | 2 => (setFld s (evmField x.inst) (x.figures.headD 0), fld s Fld.CAL_LIM_EVM ≤ x.figures.headD 0)
  | 3 => (setFld s (Fld.CAL_QRX_RESID (x.inst % 4)) worst, fld s Fld.RAD_CANC_FAIL ≤ worst)
  | 5 => (setFld s (Fld.CAL_QRX_SPUR x.inst) worst, fld s Fld.CAL_LIM_SPUR ≤ worst)
  | 6 => (s, fld s Fld.CAL_LIM_EYE ≤ x.figures.getLastD 0)
  | _ => (s, true)

/-- The words an instance stages: what it measured, with the eye width in `CAL_HFTUNEn` (R569). -/
def calValues (x : CalInst) : List (Nat × Word) :=
  if x.item = 6 then x.values.map fun p => (p.1, putBits p.2 23 16 (x.figures.getLastD 0)) else x.values

/-! ### Applying results -/

/-- The affected path is idle, or at a boundary as R567 has it. -/
def calReady (s : State) (item inst : Nat) : Bool :=
  let noRound := s.brm.a.isNone && s.brm.b.isNone
  match item with
  | 1 => pathState s (instPath inst) ≤ 2
  | 2 => noRound
  | 3 => noRound
  | 4 => fld s Fld.RAD_STATE_CHON == 0
  | 5 => !(fld s Fld.RAD_STATE_CHON).testBit inst
  | 6 => !(flag s Fld.HF_STAT_FIELD && fld s Fld.HF_STAT_PORT == inst)
  | _ => true

/-- The path is idle now (R567). -/
def calIdle (s : State) (item inst : Nat) : Bool :=
  match item with
  | 1 => pathState s (instPath inst) ≤ 1
  | 2 => pathState s .a ≤ 1 && calReady s 2 inst
  | 3 => pathState s .a ≤ 1 && calReady s 3 inst
  | _ => calReady s item inst

/-- One measured word goes into force; that of `GRS_BASE` is the baseline (R563, R567). -/
def calWord (s : State) (p : Nat × Word) : State :=
  if p.1 = Adr.GRS_BASE then loadBaseline s p.2 else setRegBoth s p.1 p.2 false

/-- The values go into force and into their shadow copies in one cycle (R567). -/
def calWrite (s : State) (item inst : Nat) (values : List (Nat × Word)) : State :=
  let words := values.map fun p => p.1
  let s1 := values.foldl calWord s
  let changed := differing s s1 words
  let s2 := { s1 with radio := { s1.radio with
    paMeasured := (s1.radio.paMeasured ++ (changed.filter fun a => 0x800 ≤ a && a ≤ 0x9FF).map fun a => a - 0x800).dedup } }
  setFld (setFld (setFlag (raise (tuningChanged s2 changed) 54) Fld.CAL_STAT_APPLIED) Fld.CAL_STAT_ITEM item)
    Fld.CAL_STAT_INSTANCE inst

/-- Staged results apply, unless a commit of the block that holds them is pending (R567, R568). -/
def calApply (s : State) (item inst : Nat) : State :=
  if flag s (cPend (itemBlock item)) then s
  else
    let x := calInst s item inst
    let s1 := if x.staged then calCompleted (calWrite s item inst x.values) x else s
    match s1.cal.traced.find? fun p => p.1 == item && p.2.1 == inst with
    | some p => calWrite { s1 with cal := { s1.cal with traced := s1.cal.traced.filter fun q => !(q.1 == item && q.2.1 == inst) } }
        item inst p.2.2
    | none => s1

/-- CAL_APPLY: the affected path's boundary (R567). -/
def execCalApply (item : Fin 8) (inst : Byte) (s : State) : Host.Outcome State Fault Refusal :=
  next (if calReady s item inst.toNat then calApply s item inst.toNat else s)

/-- Results apply at once where the path is idle, and wait for their boundary otherwise (R567). -/
def calApplyIdle (s : State) (item inst : Nat) : State := if calIdle s item inst then calApply s item inst else s

/-- All steps of an instance have run (R565, R567). -/
def calComplete (s : State) (item inst : Nat) : State :=
  let x := calInst s item inst
  let f := calFigure s x
  if f.2 then calApplyIdle (setCalInst f.1 { x with staged := true, overdue := false, running := false, values := calValues x })
      item inst
  else calFail f.1 item inst

/-- Put a measured word in place of an older one. -/
def mergeValues (old new_ : List (Nat × Word)) : List (Nat × Word) :=
  old.filter (fun p => !new_.any fun q => q.1 == p.1) ++ new_

/-! ### A step on the air (R181, R221, R223, R562) -/

/-- Paths in IDLE that a calibration grant holds go to CAL (R182). -/
def calPathsOn (s : State) (mask : Nat) : State :=
  [RfPath.a, .b].foldl (fun t p => if mask.testBit (resPath p) && pathState t p == 1 then setFld t (fPath p) 6 else t) s

/-- The paths a calibration step holds go back to IDLE (R182). -/
def calPathsIdle (s : State) (item inst : Nat) : State :=
  [RfPath.a, .b].foldl (fun t p =>
    if (calSet item inst).testBit (resPath p) && pathState t p == 6 then pathIdle t p else t) s

/-- A calibration carrier on path A: a step that radiates, or a trace. -/
def calCarrier (s : State) (port idx c : Nat) : State :=
  let s0 := carrierOff s .a
  let s1 := setFld (setPathSt s0 .a { pathSt s0 .a with chan := c, use_ := .txon, rampAt := s.clk.now }) (fPath .a) 6
  let s2 := setFld (setFld (setFld s1 (fPort .a) port) (fTxPort .a) port) (fIdx .a) idx
  accountOn (paRaise (setFlag (clrFld s2 (fTrim .a)) (fCarr .a)) port) c

/-- The port on which an instance's steps radiate, and their channels in order (R561, R562). -/
def calRadiates (s : State) (x : CalInst) : Option (Nat × List Nat) :=
  match x.item with
  | 2 => some (x.inst, portChannels s x.inst)
  | 3 => some (x.inst / 4, (portAnchors s (x.inst / 4)).map fun a => (anchor s a).2)
  | _ => none

/-- The step an instance runs shows on its path and its chains: the carrier of items 0x02 and 0x03, at the highest index in use on the port
(DESIGN CHOICE, log entry 37), and the chains that sample. -/
def calShow (s : State) (x : CalInst) : State :=
  setChains (if x.running ∧ pathState s .a = 6 then
    match calRadiates s x with
    | some (port, cs) => match cs[x.steps]? with
      | some c => calCarrier s port ((portIndices s port).foldl max 0) c
      | none => s
    | none => s
  else s)

/-- A calibration grant runs a step of its instance (R562). -/
def calStart (s : State) (x : CalInst) (mask : Nat) : State :=
  let y := { x with running := true }
  calShow (calPathsOn (setCalInst s y) mask) y

/-- The words a step may measure: of items 0x02 and 0x03, those of the indices and anchors in use (R562). -/
def calMeasurable (s : State) (item inst : Nat) : List Nat :=
  match item with
  | 2 => (portIndices s inst).map fun i => Adr.RAD_PWR (128 * inst + i)
  | 3 => (portAnchors s (inst / 4)).map fun a => Adr.RAD_CXV (cxvIndex (inst / 4) (inst % 4) a)
  | _ => itemWords item inst

/-- A step ends (R565, R566, R569). A step of the instance's own grant is its only one; in a forced gap the next follows. -/
def calStepDone (s : State) (item inst : Nat) (r : StepResult) : State :=
  let x := calInst s item inst
  if !x.running then s
  else if !r.ok then calFail (calPathsIdle s item inst) item inst
  else
    let own := (grantOf s (calWho item inst)).isSome
    let vals := (r.values.map fun p => (p.1.toNat, p.2)).filter fun p => (calMeasurable s item inst).contains p.1
    let y := { x with steps := x.steps + 1, values := mergeValues x.values vals, figures := x.figures ++ [r.figure.toNat],
                      running := !own }
    if calSteps s y ≤ y.steps then calComplete (setCalInst (calPathsIdle s item inst) y) item inst
    else if own then setCalInst (calPathsIdle s item inst) y
    else calShow (setCalInst s y) y

def execCalStepDone (item : Fin 8) (inst : Byte) (res : StepResult) (s : State) : Host.Outcome State Fault Refusal :=
  next (calPost (calStepDone s item inst.toNat res))

/-- The kept steps of an instance lapse after 60 s (R566). -/
def execCalResumeExpiry (item : Fin 8) (inst : Byte) (s : State) : Host.Outcome State Fault Refusal :=
  let x := calInst s item inst.toNat
  next (if x.steps ≠ 0 ∧ ¬x.running ∧ ¬x.staged then setCalInst s { x with steps := 0, values := [], figures := [] } else s)

/-- The baseline refresh retrims Gorse's oscillator (R334); it applies at the end of a ping, as item 0x07 (R567). -/
def gorseTrim (s : State) (trim : Byte) : State :=
  calApplyIdle (setCalInst s { calInst s 7 0 with staged := true,
                                                  values := [(Adr.CAL_GRSOSC, BitVec.ofNat 32 trim.toNat)] }) 7 0

/-- The refresh falls due: a C3 request for HFD (R334). -/
def execGorseRefresh (trim : Byte) (s : State) : Host.Outcome State Fault Refusal :=
  next (if flag s Fld.GRS_CFG_EN && (mode s == 3 || mode s == 4) then
      turn s (gorseRequest .gorseRefresh) (.gorseRefresh trim) fun t => gorseTrim t trim
    else s)

/-! ### Due -/

/-- The period of an item in minutes; 0 none, and none for the others (R575). -/
def calPeriod (s : State) (item : Nat) : Nat :=
  match item with
  | 2 => fld s Fld.CAL_PER0_P02
  | 3 => fld s Fld.CAL_PER0_P03
  | 4 => fld s Fld.CAL_PER0_P04
  | 5 => fld s Fld.CAL_PER0_P05
  | 6 => fld s Fld.CAL_PER1_P06
  | _ => 0

/-- The temperature stands DTEMP or more from that of the last completion (R564). -/
def tempMoved (s : State) (x : CalInst) : Bool :=
  x.doneAt.isSome &&
    8 * fld s Fld.CAL_CFG_DTEMP ≤ (signedOf 12 (fld s Fld.CAL_TEMP_TEMP) - signedOf 12 x.doneTemp).natAbs

/-- The reason holds (R564). -/
def dueHolds (s : State) (item inst : Nat) (why : DueReason) : Bool :=
  match why with
  | .period => calPeriod s item != 0
  | .temperature => tempMoved s (calInst s item inst)
  | .slotMargin n => item == 1 && slotValid s (instPath inst) n.toNat &&
      bitsOf (slotWord s (instPath inst) n.toNat) 4 0 < fld s Fld.SYNCAL_CFG_MARGINMIN
  | .trigger => item == 2 || item == 3

/-- CAL_DUE: an instance becomes due, and its step is requested where the core runs (R564). -/
def execCalDue (item : Fin 8) (inst : Byte) (why : DueReason) (s : State) : Host.Outcome State Fault Refusal :=
  next (if 1 ≤ item.val && item.val ≤ 6 && dueHolds s item inst.toNat why then
      calPost (calTrigger s item inst.toNat (match why with
        | .slotMargin n => [n.toNat]
        | _ => []))
    else s)

/-- The die temperature is sampled, and makes instances due (R564). -/
def execTempSample (temp : BitVec 12) (s : State) : Host.Outcome State Fault Refusal :=
  next (if mode s < 3 then s else
    let s1 := setFld s Fld.CAL_TEMP_TEMP temp.toNat
    calPost (s1.cal.insts.foldl (fun t x =>
      if x.item ≤ 6 && !x.due && tempMoved t x then calTrigger t x.item x.inst [] else t) s1))

/-- An instance has been due for GRACE without completing (R565). -/
def execCalGraceExpiry (item : Fin 8) (inst : Byte) (s : State) : Host.Outcome State Fault Refusal :=
  let x := calInst s item inst.toNat
  next (if x.due ∧ ¬x.staged then calOverdue s item inst.toNat else s)

/-! ### `CAL_CMD` -/

def calResult (s : State) (r : Nat) : State := setFld s Fld.CAL_STAT_RESULT r

def calRefuse (s : State) (why : Nat) : State := setFld (calResult s 2) Fld.CAL_STAT_REASON why

/-- A command with its key, while none is in progress (R575). -/
def calCommand (s : State) (key : BitVec 16) (run : State → State) : State :=
  if keyOk key && !flag s Fld.CAL_STAT_BUSY then run s else s

/-- Instances of an item that RUN may name (R561). -/
def runInstances (item : Nat) : Nat := if item = 3 then 16 else recordInstances item

/-- RUN makes an instance due (R564). -/
def calRun (s : State) (item inst : Nat) : State :=
  if item = 0 ∨ 6 < item ∨ runInstances item ≤ inst then calRefuse s rsnRange
  else if !calInUse s item inst then calRefuse s rsnRef
  else calPost (calMark (calResult s 1) item inst [])

def execCalRun (lvl : Level) (key : BitVec 16) (item : BitVec 4) (inst : Byte) (s : State) : Host.Outcome State Fault Refusal :=
  next (asWrite s lvl Adr.CAL_CMD fun t => calCommand t key fun u => calRun u item.toNat inst.toNat)

/-! ### The save area (R572, R573) -/

def saveHalf (second : Bool) : Nat := if second then 0x818000 else 0x810000

/-- The records of a half, where it is valid; with its SEQ (R572). -/
def saveRecs (s : State) (second : Bool) : Option (Nat × List Rec) :=
  let a := saveHalf second
  let len := leNat (norBytes s (a + 8) 4)
  if norBytes s a 4 ≠ [0x59, 0x47, 0x43, 0x53] ∨ len % 4 ≠ 0 ∨ 32768 < len ∨ len < 24 then none
  else if crc32 (norBytes s (a + 16) (len - 16)) ≠ leNat (norBytes s (a + 12) 4) then none
  else (walkRecs (len / 8) (norBytes s (a + 16) (len - 16))).map fun l => (leNat (norBytes s (a + 4) 4), l)

/-- The newest half (R572). -/
def saveNewest (s : State) : Option (Bool × Nat × List Rec) :=
  match saveRecs s false, saveRecs s true with
  | some a, some b => if a.1 < b.1 then some (true, b) else some (false, a)
  | some a, none => some (false, a)
  | none, some b => some (true, b)
  | none, none => none

/-- The instances SAVE stores for an item, with their words in force (R573). -/
def saveSet (s : State) (item : Nat) : List (Nat × List Word) :=
  let all (inst : Nat) : Nat × List Word := (inst, (itemWords item inst).map (reg s))
  match item with
  | 1 => [0, 1].filterMap fun i => (validSlots s i).getLast?.map fun n => (i, (all i).2.take (n + 1))
  | 2 => ((List.range 4).filter (itemPresent s 2)).map all
  | 3 => ((List.range 17).filter (itemPresent s 3)).map all
  | 5 => (List.range 4).map all
  | 6 => ([0, 1].filter (itemPresent s 6)).map all
  | _ => [all 0]

/-- The bytes of a CAL record with TRUSTED = 1 (R84, R86). -/
def calRecBytes (item inst : Nat) (ws : List Word) : List Byte :=
  [0x05, 0x01] ++ leBytes 2 (8 + 4 * ws.length) ++ leBytes 4 (item + 256 * inst) ++ unpackWords ws

/-- The items that ARG selects: bit n − 1 for item n, all for 0 (R573). -/
def argItems (items : Nat) : List Nat :=
  (List.range 8).filterMap fun k => if items = 0 ∨ items.testBit k then some (k + 1) else none

/-- The bytes of a half (R572). -/
def saveBytes (s : State) (seq items : Nat) : List Byte :=
  let recs := ((argItems items).flatMap fun i => (saveSet s i).flatMap fun p => calRecBytes i p.1 p.2) ++ [0x7F, 0, 8, 0, 0, 0, 0, 0]
  [0x59, 0x47, 0x43, 0x53] ++ leBytes 4 seq ++ leBytes 4 (16 + recs.length) ++ leBytes 4 (crc32 recs) ++ recs

/-- SAVE (R573): the half that is not the newest is erased, programmed and read back. On a mismatch what it holds is free (log
entry 4). -/
def calSave (s : State) (items : Nat) (verifyOk : Bool) : State :=
  let newest := saveNewest s
  let second := newest.elim false fun p => !p.1
  let bs := saveBytes s ((newest.elim 0 fun p => p.2.1) + 1) items
  let s1 := norErase s (saveHalf second) ((bs.length + 4095) / 4096 * 4096)
  if verifyOk then calResult (norStore s1 (saveHalf second) bs) 1
  else
    let r := drawBytes bs.length s1
    calResult (norStore r.2 (saveHalf second) r.1) 5

/-- The words of a payload. -/
def payloadWords (bs : List Byte) : List Word := packWords bs

/-- One record of RESTORE is applied as an image CAL record is: a refusal ends its own application (R94, R573). -/
def restoreRec (items : List Nat) (s : State) (r : Rec) : State :=
  let item := r.arg % 256
  let inst := r.arg / 256 % 256
  if r.type = 5 ∧ items.contains item then
    let t := (calLoad s item inst (payloadWords r.payload)).1
    if r.flags.testBit 0 then { t with boot := { t.boot with trusted := (t.boot.trusted ++ [(item, inst)]).dedup } } else t
  else s

/-- RESTORE (R573). -/
def calRestore (s : State) (items : Nat) : State :=
  match saveNewest s with
  | none => calRefuse s 0x42
  | some p => calResult (p.2.2.foldl (restoreRec (argItems items)) s) 1

/-- SAVE, RESTORE and the traces are for SUPERVISOR level alone (R570, R573). -/
def calPriv (s : State) (lvl : Level) (run : State → State) : State := if supervisorLevel lvl then run s else calRefuse s 0x40

/-- SAVE and RESTORE take their turn on the memory port as requests of class C1 (R573), BUSY while they wait. -/
def calTurn (s : State) (lvl : Level) (cmd : Instr) (run : State → State) : State :=
  calPriv s lvl fun t => turn t (mspRequest .calStore .c1) cmd run fun u => setFlag u Fld.CAL_STAT_BUSY

def calSaveRun (s : State) (items : Nat) (verifyOk : Bool) : State := calSave (clrFld s Fld.CAL_STAT_BUSY) items verifyOk
def calRestoreRun (s : State) (items : Nat) : State := calRestore (clrFld s Fld.CAL_STAT_BUSY) items

def execSave (lvl : Level) (key : BitVec 16) (items : Byte) (verifyOk : Bool) (s : State) : Host.Outcome State Fault Refusal :=
  next (asWrite s lvl Adr.CAL_CMD fun t => calCommand t key fun u =>
    calTurn u lvl (.save lvl key items verifyOk) fun v => calSaveRun v items.toNat verifyOk)

def execRestore (lvl : Level) (key : BitVec 16) (items : Byte) (s : State) : Host.Outcome State Fault Refusal :=
  next (asWrite s lvl Adr.CAL_CMD fun t => calCommand t key fun u =>
    calTurn u lvl (.restore lvl key items) fun v => calRestoreRun v items.toNat)

/-! ### Tracing (R570) -/

/-- The traces run only in SERVICE. -/
def calService (s : State) (lvl : Level) (run : State → State) : State :=
  calPriv s lvl fun t => if mode t = 5 then run t else calRefuse t 0x41

/-- Corrections of an item's instance that wait for their boundary. -/
def tracedOf (s : State) (item inst : Nat) : List (Nat × Word) :=
  (s.cal.traced.find? fun q => q.1 == item && q.2.1 == inst).elim [] fun q => q.2.2

/-- Corrections of a trace wait for their boundary beside those of other registers, or apply at once on an idle path (R567). -/
def tracedSet (s : State) (item inst : Nat) (values : List (Nat × Word)) : State :=
  calApplyIdle { s with cal := { s.cal with
    traced := s.cal.traced.filter (fun q => !(q.1 == item && q.2.1 == inst)) ++
      [(item, inst, mergeValues (tracedOf s item inst) values)] } } item inst

/-- REFPWR in 0.01 dBm. -/
def refPower (s : State) : Int := signedOf 16 (fld s Fld.CAL_REFPWR_PWR)

/-- TRACE_RX: the measured level in 0.01 dBm and the tone's offset in 10 Hz units. -/
def traceRx (s : State) (k : Nat) (measured ferr : Int) : State :=
  let delta := refPower s - measured
  if 600 < delta.natAbs ∨ 5000 < ferr.natAbs then calResult s 3
  else
    let old := signedOf 8 (fld s (Fld.CAL_ALIGN_RXOFS k))
    let ofs := clampInt (-128) 127 (old + roundHalfAway delta 5)
    let s1 := setFld (setFld (calResult s 1) Fld.CAL_SVCRES_DELTA (unsignedOf 16 delta)) Fld.CAL_SVCRES_FERR (unsignedOf 16 ferr)
    tracedSet s1 4 0 [(Adr.CAL_ALIGN k, putBits (reg s1 (Adr.CAL_ALIGN k)) 7 0 (unsignedOf 8 ofs))]

/-- The request of TRACE_RX: calibration work on the chain and on SYN-B, so that a carrier traced on path A goes on (R145, R570; DESIGN
CHOICE, log entry 37). -/
def traceRxRequest (k : Nat) : Request :=
  { who := .calStore, cls := .c3, mask := 2 ^ resPath .b + 2 ^ resRxc k, kind := .trace 10, air := .calRx }

/-- A waiting TRACE_RX no longer waits. -/
def traceRxTaken (s : State) : State := clrFld { s with cal := { s.cal with rxTrace := none } } Fld.CAL_STAT_BUSY

/-- TRACE_RX takes its turn; BUSY is 1 while it waits. -/
def traceRxTurn (s : State) (k : Nat) (measured ferr : Int) : State :=
  turnOr s (traceRxRequest k) (fun t => traceRx t k measured ferr) fun t =>
    setFlag { t with cal := { t.cal with rxTrace := some (k, measured, ferr) } } Fld.CAL_STAT_BUSY

/-- A grant of TRACE_RX carries it out and is over with it. -/
def traceRxGo (s : State) : State :=
  match s.cal.rxTrace with
  | some (k, measured, ferr) => endGrant (traceRx (traceRxTaken s) k measured ferr) .calStore
  | none => s

/-- A TRACE_RX that waits is posted at a grant point (R146, R154). -/
def traceRxPost (s : State) : State :=
  match s.cal.rxTrace with
  | some (k, _, _) => (postRequest s (traceRxRequest k)).1
  | none => s

def execTraceRx (lvl : Level) (key : BitVec 16) (chain : Fin 4) (measured ferr : Int) (s : State) :
    Host.Outcome State Fault Refusal :=
  next (asWrite s lvl Adr.CAL_CMD fun t => calCommand t key fun u => calService u lvl fun v =>
    traceRxTurn v chain measured ferr)

/-- The carrier of a trace comes on once its grant stands, bias has settled and path A is idle. -/
def traceGo (s : State) : State :=
  match s.cal.trace with
  | some (port, idx, c) =>
    if (grantOf s .calTrace).isSome ∧ pathState s .a = 1 then calCarrier (calResult (clrFld s Fld.CAL_STAT_BUSY) 1) port idx c else s
  | none => s

/-- A trace is over: its carrier goes off, and its grant or request goes. -/
def traceOff (s : State) : State :=
  let s1 := clrFld { s with cal := { s.cal with trace := none } } Fld.CAL_STAT_BUSY
  let s2 := if (grantOf s .calTrace).isSome ∧ pathState s1 .a = 6 then pathIdle s1 .a else s1
  endGrant (withdraw s2 .calTrace) .calTrace

/-- A trace is cut short (R570). -/
def traceAbort (s : State) : State := if s.cal.trace.isSome then calResult (traceOff s) 4 else s

/-- A TRACE_RX that waits is cut short. -/
def traceRxAbort (s : State) : State :=
  if s.cal.rxTrace.isSome then calResult (withdraw (traceRxTaken s) .calStore) 4 else s

/-- TRACE_TX: the port radiates on path A. The scheduler serves it as calibration work, which transmits on a UHF port (R145, R148, R570);
BUSY is 1 while it waits. -/
def traceTx (s : State) : State :=
  let port := fld s Fld.CAL_REFCH_PORT
  let idx := fld s Fld.CAL_REFCH_INDEX
  let c := fld s Fld.CAL_REFCH_CHAN
  if profile s = 0 ∨ ¬(profileChans s).contains c then calRefuse s rsnProfile
  else if idx < 4 then calRefuse s rsnRange
  else
    let s1 := traceOff s
    (postRequest (setFlag { s1 with cal := { s1.cal with trace := some (port, idx, c) } } Fld.CAL_STAT_BUSY)
      { who := .calTrace, cls := .c3, mask := 2, kind := .trace 60000, air := .calTx }).1

def execTraceTx (lvl : Level) (key : BitVec 16) (s : State) : Host.Outcome State Fault Refusal :=
  next (asWrite s lvl Adr.CAL_CMD fun t => calCommand t key fun u => calService u lvl traceTx)

/-- TRACE_END: REFPWR against the nominal power of the index, in 1/12,700 dB; DET of every valid entry of the port is lowered. -/
def traceEnd (s : State) : State :=
  match s.cal.trace with
  | none => calResult s 3
  | some (port, idx, _) =>
    let s1 := traceOff s
    let gain : Nat := match paOf s port with
      | some k => fld s (if k = 0 then Fld.RAD_PA_PA0GAIN else Fld.RAD_PA_PA1GAIN)
      | none => 0
    let delta : Int := 127 * refPower s - (-114300 + 3200 * (idx : Int) + 3175 * (gain : Int))
    if 38100 < delta.natAbs then calResult s1 3
    else
      let det (i : Nat) : Nat := fld s (Fld.RAD_PWR_DET (128 * port + i))
      let lower := roundHalfAway (((det idx : Int) - (det (idx - 4) : Int)) * delta) 12800
      let vals := ((List.range 128).filter fun i => flag s (Fld.RAD_PWR_VALID (128 * port + i))).map fun i =>
        (Adr.RAD_PWR (128 * port + i),
          putBits (reg s (Adr.RAD_PWR (128 * port + i))) 30 21 (clampInt 0 1023 ((det i : Int) - lower)).toNat)
      tracedSet (setFld (calResult s1 1) Fld.CAL_SVCRES_DELTA (unsignedOf 16 (roundHalfAway delta 127))) 2 port vals

def execTraceEnd (lvl : Level) (key : BitVec 16) (s : State) : Host.Outcome State Fault Refusal :=
  next (asWrite s lvl Adr.CAL_CMD fun t => calCommand t key fun u => calService u lvl traceEnd)

/-- 60 s after TRACE_TX (R570). -/
def execTraceTimeout (s : State) : Host.Outcome State Fault Refusal :=
  next (traceAbort s)

/-- A write of `CAL_CMD` as a register (R575). Whether a read-back is good, and what a trace measures, is free there (log entry
4). -/
def calCmdWrite (s : State) (lvl : Level) (v : Word) : State :=
  calCommand s (BitVec.ofNat 16 (bitsOf v 31 16)) fun t =>
    let arg := bitsOf v 7 0
    match bitsOf v 15 12 with
    | 1 => calRun t (bitsOf v 11 8) arg
    | 2 => let (w, u) := drawWord t
        calTurn u lvl (.save lvl (BitVec.ofNat 16 (bitsOf v 31 16)) (BitVec.ofNat 8 arg) (w.getLsbD 0)) fun x =>
          calSaveRun x arg (w.getLsbD 0)
    | 3 => calTurn t lvl (.restore lvl (BitVec.ofNat 16 (bitsOf v 31 16)) (BitVec.ofNat 8 arg)) fun x => calRestoreRun x arg
    | 4 => calService t lvl fun u =>
        if 4 ≤ arg then calRefuse u rsnRange
        else
          let (w, u1) := drawWord u
          traceRxTurn u1 arg (signedOf 16 (bitsOf w 31 16)) (signedOf 16 (bitsOf w 15 0))
    | 5 => calService t lvl traceTx
    | 6 => calService t lvl traceEnd
    | _ => t

/-! ### Power-up calibration (R99) -/

/-- A measured word: the bits of a mask are free (log entry 4). -/
def freeBits (s : State) (a : Nat) (mask : Word) (fixed : Word) : State :=
  let (w, s1) := drawWord s
  setRegBoth s1 a (((reg s1 a &&& ~~~mask) ||| (w &&& mask)) ||| fixed) false

/-- A channel in use is measured into the slot that holds it; where none does, into a slot chosen as for a stored full calibration
(R99, R190; DESIGN CHOICE, log entry 37). -/
def slotMeasured (p : RfPath) (s : State) (c : Nat) : State :=
  match firstBelow 256 fun n => slotValid s p n && slotChan s p n == c with
  | some n => freeBits s (slotAdr p n) 0x0000FFFF 0
  | none =>
    match storeSlot s p none with
    | some (n, v) =>
      freeBits (setRegBoth (setFld s (fVictim p) v) (slotAdr p n) (BitVec.ofNat 32 (2 ^ 31 + c * 2 ^ 16)) false) (slotAdr p n)
        0x0000FFFF 0
    | none => s

/-- What a good power-up calibration of an instance leaves: the values in use are measured, hence free, a changed tuning rebuilds the
Gorse baseline (R333), and the instance has completed. -/
def calMeasured (s : State) (item inst : Nat) : State :=
  let measure (l : List Nat) (mask fixed : Word) : State := l.foldl (fun t a => freeBits t a mask fixed) s
  let s1 := match item with
    | 1 => (synthChannels s (instPath inst)).foldl (slotMeasured (instPath inst)) s
    | 2 => measure ((portIndices s inst).map fun i => Adr.RAD_PWR (128 * inst + i)) 0x7FFFFFF0 0x80000000
    | 3 => measure ((portAnchors s (inst / 4)).map fun a => Adr.RAD_CXV (cxvIndex (inst / 4) (inst % 4) a))
        0x00FFFFFF 0x80000000
    | 4 => measure ((List.range 4).map Adr.CAL_ALIGN) 0xFFFFFF00 0
    | 5 => measure ((List.range 8).map fun j => Adr.CAL_ADC (8 * inst + j)) 0xFFFFFFFF 0
    | 6 => measure [Adr.CAL_HFTUNE inst] 0x00FF003F 0
    | 7 => baselineRebuild (measure [Adr.CAL_GRSOSC] 0xFF 0)
    | _ => s
  let s2 := match item with
    | 2 => freeBits { s1 with radio := { s1.radio with
        paMeasured := (s1.radio.paMeasured ++ (portIndices s inst).map fun i => 128 * inst + i).dedup } }
        Adr.CAL_QTX (maskOf (8 * inst + 7) (8 * inst)) 0
    | 3 => freeBits s1 (Adr.CAL_QRX (inst % 4)) 0x00FF0000 0
    | 5 => freeBits s1 (Adr.CAL_QRX inst) 0xFF000000 0
    | 6 => tuningChanged s1 (differing s s1 [Adr.CAL_HFTUNE inst])
    | _ => s1
  if item ≤ 6 then calCompleted s2 (calInst s2 item inst) else s2

/-- An instance fails at start-up or is deferred: CALFAIL, a fault record, overdue (R76, R99, R565). -/
def calPowerFail (s : State) (item inst : Nat) : State :=
  calFail (setFlag s Fld.SYS_BOOTSTAT_CALFAIL) item inst

/-- Instances that step 8 calibrates: those in use, which for the slots is a synthesiser with channels in use (R99). -/
def calPowerUse (s : State) (item inst : Nat) : Bool :=
  if item = 1 then !(synthChannels s (instPath inst)).isEmpty else calInUse s item inst

/-- Instances that step 8 calibrates, in order: those in use that no TRUSTED record covers (R99). -/
def calPowerList (s : State) : List (Nat × Nat) :=
  (calOrder ++ [7]).flatMap fun item =>
    ((List.range (if item = 3 then 16 else recordInstances item)).filter fun i =>
      calPowerUse s item i && !s.boot.trusted.contains (item, i)).map fun i => (item, i)

/-- Step 8 (R99): every item is skipped with NOCAL; those that need an RF path are deferred without the PLL (R76). The spec does not say
which these are: items 0x01 to 0x06 here, and not the Gorse baseline, whose pings run without the PLL in WATCH too (DESIGN CHOICE, log
entry 37). -/
def calPowerUp (s : State) (fails : List (Nat × Nat)) (nopll : Bool) : State :=
  if s.boot.nocal then s
  else (calPowerList s).foldl (fun t p =>
    if fails.contains p || (nopll && p.1 != 7) then calPowerFail t p.1 p.2 else calMeasured t p.1 p.2) s

end Sys2Proof.Machine
end

