-- ==== Sys2Proof/Machine/SchedCmds.lean ====
section
/-! DEFINITION. The scheduler's commands: the decision of a grant point and the work it starts, the ends of leases, and the
coexistence wires (R146–R174, R182, R205, R258, R306, R422, R562). -/

namespace Sys2Proof.Machine

open Sys2Proof

/-! ### The work a grant starts -/

/-- The path whose synthesiser a set holds. -/
def maskPath (m : Nat) : RfPath := if m.testBit (resPath .a) then .a else .b

/-- A forced gap starts: it is counted, its start spaces the next one, and the instance it was posted for runs, unless it has completed
meanwhile (R167). -/
def gapStart (s : State) (path mask : Nat) : State :=
  let s1 := incSat s Fld.SYS_SCHCNT3_FORCEGAP 1
  let s2 := { s1 with sched := { s1.sched with
    gapAt := s1.sched.gapAt.filter (fun g => g.1 != path) ++ [(path, s1.clk.now)] } }
  match s.sched.gapFor.find? fun g => g.1 == path with
  | some g =>
    let x := calInst s2 g.2.1 g.2.2
    if x.overdue && !x.staged then calStart s2 x mask else s2
  | none => s2

/-- A grant of a Slate entry starts its round or its poll (R258, R306). -/
def entryStart (s : State) (g : Grant) (i : Nat) : State :=
  match entryAt s i with
  | none => s
  | some e => if classKind (eClass e) = 1 then roundStart s i (maskPath g.mask) g.partner.isSome else hfPollStart s i e

/-- An operation of the field's is carried out while the tag has its field (R355). -/
def tagStill (s : State) (run : State → State) : State := if tagPowered s then run s else s

/-- A waiting operation on the memory port, the tag store or Flint is carried out (log entry 35). -/
def runOp (s : State) (cmd : Instr) : State :=
  match cmd with
  | .mspRead _ a => mspRead s a.toNat
  | .mspProgram _ a ok => mspProgram s a.toNat ok
  | .mspErase _ a => mspErase s a.toNat
  | .journalRead _ _ ok => jload s ok
  | .format _ _ => jformatRun s
  | .journalFlush _ _ => jflush s
  | .jnlFlushTimeout => jflush s
  | .journalPageProgram ok => jpageProgram s ok
  | .journalErase ok => jerase s ok
  | .save _ _ items ok => calSaveRun s items.toNat ok
  | .restore _ _ items => calRestoreRun s items.toNat
  | .cacheFill i => cacheFill s i
  | .slateRead _ i => slateReadFill s i
  | .slateReadback good => slateReadback s good
  | .writeSingleBlock _ block data prog => tagStill s fun t => fieldProgram t block.toNat [data] prog
  | .writeMultipleBlocks _ first data prog => tagStill s fun t => fieldProgram t first.toNat data prog
  | .extendedWriteSingleBlock _ block data prog => tagStill s fun t => fieldProgram t block.toNat [data] prog
  | .extendedWriteMultipleBlocks _ first data prog => tagStill s fun t => fieldProgram t first.toNat data prog
  | .aes1 _ key rnr => tagStill s fun t => aes1Run t key.toNat rnr
  | .aes2 _ e2 => tagStill s fun t => aes2Turn t e2
  | .faultLogWrite prog => faultLogWrite s prog
  | .tagHostRead _ page => tagHostRead s page.toNat
  | .tagCommitPoint prog => tagCommitPoint s prog
  | .clrfail _ => clrFail s
  | .gorsePing re im => gorsePingRun s re im
  | .confirmPing re im => confirmPingRun s re im
  | .gorseRefresh trim => gorseTrim s trim
  | .linkFrameEnd _ _ _ => linkFrameDone s
  | .beaconInstant => beaconTake s
  | .dutyCheckpoint => beaconSecure (securingGo (ckptRun s))
  | .cardFrame (.aes1 rnt e1) => hfAesRun s rnt e1
  | _ => s

/-- A grant carries out the operation that waited for it, and is over with it (R152, R154). -/
def startOp (s : State) (g : Grant) (cmd : Instr) (left : List WaitOp) : State :=
  let t := runOp { s with sched := { s.sched with ops := left } } cmd
  if g.topUp then (if isLinkWho g.who then securingGo (topUpDone t g.who) else topUpDone t g.who) else endGrant t g.who

/-- A top-up without an operation of its own: the link's CCM* of the frame at the head (R405), or nothing where that has been withheld; an
AUTH step waits for its own row. -/
def startTopUp (s : State) (g : Grant) : State :=
  if isLinkWho g.who then topUpDone (if s.lnk.act = .securing ∧ g.who = lnkWho s then sendHead s else s) g.who else s

/-- The work of a new grant starts (R258, R277, R306, R325, R422, R562). -/
def startWork (s : State) (g : Grant) : State :=
  match nextOp s g with
  | some p => startOp s g p.1.cmd p.2
  | none =>
  if g.topUp then startTopUp s g else
  match g.who with
  | .entry i => entryStart s g i
  | .hostUhf => immStart s (maskPath g.mask)
  | .hostHf => hfSessionStart s
  | .linkSlot k => linkStart s (.linkSlot k)
  | .linkData => linkStart s .linkData
  | .calib item inst => calStart s (calInst s item.val inst.toNat) g.mask
  | .forcedGap path => gapStart s path g.mask
  | .calTrace => traceGo s
  | .calStore => traceRxGo s
  | _ => s

/-- A grant of a synthesiser pair makes the chains of the other path that run at 1.6 GS/s switch; a link frame they receive ends
RX_RATESW (R205, R385). -/
def rateSwitch (s : State) (g : Grant) : State :=
  [RfPath.a, .b].foldl (fun t p =>
    if g.mask.testBit (resPath p) then
      let ks := (bitList 4 (pathChains t (otherPath p) &&& fld t Fld.RAD_STATE_CHRATE)).filter fun k =>
        !t.radio.switching.contains k
      let t := setPathSt t (otherPath p) { pathSt t (otherPath p) with low := (pathSt t (otherPath p)).low.map fun _ => false }
      if ks.isEmpty then t
      else rxEnd { t with radio := { t.radio with switching := t.radio.switching ++ ks } } 6
    else t) s

/-- New grants take effect (R146, R182, R205). -/
def startAll (s : State) (fresh : List Grant) : State :=
  let s1 := fresh.foldl rateSwitch (fresh.foldl (fun t g => rfStart t g.mask) s)
  fresh.foldl startWork s1

/-- The grants of a state that an earlier state did not hold. -/
def freshGrants (s0 s : State) : List Grant :=
  s.sched.grants.filter fun g => !s0.sched.grants.any fun h => h.who == g.who && h.topUp == g.topUp

/-! ### The last grant ends -/

/-- SERVICE begins when the last grant under ENTER_SERVICE ends (R59). -/
def serviceBegin (s : State) : State :=
  if s.modes.cmd = some .enterService ∧ s.sched.grants.isEmpty ∧ (mode s = 3 ∨ mode s = 4) then
    setMode (clrFld { s with modes := { s.modes with cmd := none } } Fld.SYS_MODE_TRANS) 5
  else s

/-- RF bias goes off: both paths are OFF, and no port has a read point (R54, R181, R182, R196). -/
def biasOff (s : State) : State :=
  let s0 := pathIdle (pathIdle s .a) .b
  let off (t : State) (p : RfPath) : State := setPathSt t p { pathSt t p with readPoint := none }
  let s1 := off (off { s0 with radio := { s0.radio with assigned := Vector.replicate 4 none } } .a) .b
  clrFld (clrFld (clrFld { s1 with clk := { s1.clk with biasRising := false, rfIdleSince := none } } (fPath .a)) (fPath .b))
    Fld.SYS_CLKSTAT_RFBIAS

/-- The work of calibration ends, with its grants (R54, R59, R570). -/
def calWorkOver (s : State) : State :=
  let t := traceAbort (traceRxAbort s)
  (t.sched.grants.filter fun g => match g.who with
    | .calib _ _ => true
    | .forcedGap _ => true
    | _ => false).foldl (fun u g => endGrant (calStop u g.who) g.who) t

/-- LEAVE_SERVICE: the work of calibration ends, RF bias goes off, and the device is in ACTIVE (R47, R54). -/
def serviceLeave (s : State) : State := grantPoint (setMode (biasOff (calWorkOver s)) 3)

/-- The flush of ENTER_BACKUP begins in ACTIVE: a frame-counter and a duty checkpoint are written behind what waits in the
journal writer's channel, which is taken first (R60). -/
def backupFlush (s : State) : State := dutyWrite (ckptWrite (jdrain s))

/-- Under ENTER_BACKUP the device returns to ACTIVE at once when the last grant ends (R54, R60). -/
def backupBegin (s : State) : State :=
  if s.modes.cmd = some .enterBackup ∧ s.sched.grants.isEmpty ∧ (mode s = 4 ∨ mode s = 5) then
    backupFlush (setMode (biasOff s) 3)
  else s

/-- What waits for the last grant to end (R59, R60). -/
def grantsEnded (s : State) : State := backupBegin (serviceBegin s)

/-! ### The decision -/

/-- What is posted at a grant point: due calibration and gaps, link data, an accepted immediate access, the operations that wait, an
OPEN that waits. -/
def postAll (s : State) : State := hfPost (opsPost (traceRxPost (immPost (dataPost (calPost s)))))

/-- Engines whose lease has been shortened learn of it (R151, R159). -/
def warnAll (s : State) : State := (s.sched.grants.filter fun g => g.warned).foldl (fun t g => hfLeaseWarn t g.who) s

/-- The decision of a grant point, and the start of what it grants (R146, R161). Nothing is decided where none is due. A grant point is
a boundary (R38), so pending sets come into force first. -/
def decision (s : State) : State :=
  if s.sched.point then
    let s1 := postAll (grantsEnded (settle s))
    let s2 := decide_ s1
    startAll (warnAll { s2 with sched := { s2.sched with point := false } }) (freshGrants s1 s2)
  else s

def execGrantDecision (s : State) : Host.Outcome State Fault Refusal := next (decision s)

/-- The 1 ms tick (R146). -/
def execGrantTick (s : State) : Host.Outcome State Fault Refusal := next (if 3 ≤ mode s then grantPoint s else s)

/-! ### Ends of grants -/

/-- What a grant's consumer does as the grant ends. -/
def endWho (s : State) (g : Grant) (brmWhy hfWhy : Nat) (forced : Bool) : State :=
  match g.who with
  | .entry _ => roundsEnd (hfCut s g.who hfWhy) (maskPath g.mask) brmWhy
  | .hostUhf => roundsEnd s (maskPath g.mask) brmWhy
  | .hostHf => hfCut s g.who hfWhy
  | .linkSlot _ => linkCut s forced
  | .linkData => linkCut s forced
  | .calib _ _ => calStop s g.who
  | .forcedGap _ => calStop s g.who
  | .calTrace => calResult { s with cal := { s.cal with trace := none } } 4
  | _ => s

/-- The work of one grant ends (R39, R151): a round or a visit with the reason given, a link slot by a forced end or not, a
calibration step at its safe point. -/
def endHalf (s : State) (g : Grant) (brmWhy hfWhy : Nat) (forced : Bool) : State :=
  [RfPath.a, .b].foldl (fun t p => if g.mask.testBit (resPath p) then pathIdle t p else t) (endWho s g brmWhy hfWhy forced)

/-- A grant and its partner's, which end as one (R164, R280). -/
def pairGrants (s : State) (g : Grant) : List Grant :=
  g :: (match g.partner with
    | some q => (grantOf s q).toList
    | none => [])

/-- The work of a grant and of its partner ends. -/
def endWork (s : State) (g : Grant) (brmWhy hfWhy : Nat) (forced : Bool) : State :=
  (pairGrants s g).foldl (fun t x => endHalf t x brmWhy hfWhy forced) s

/-- A set with its partner ends, as one grant (R164, R280). -/
def endPair (s : State) (g : Grant) : State :=
  let s1 := endGrant s g.who
  match g.partner with
  | some q => endGrant s1 q
  | none => s1

/-- A release (R152, R154): of a top-up alone, or of a grant, whose work in hand ends with it; the end of the work is a boundary
(R39). -/
def release (s : State) (who : Consumer) (topUp : Bool) : State :=
  if topUp then (if (topUpGrant s who).isSome then releaseTopUp s who else s)
  else match grantOf s who with
    | none => s
    | some g => settle (grantsEnded (endPair (endWork s g (if g.warned then 1 else 0) 3 false) g))

def execRelease (who : Consumer) (s : State) (topUp : Bool := false) : Host.Outcome State Fault Refusal := next (release s who topUp)

/-- Change the grants of a consumer and its partner. -/
def mapPair (s : State) (g : Grant) (f : Grant → Grant) : State :=
  { s with sched := { s.sched with grants := s.sched.grants.map fun x =>
      if (x.who == g.who || some x.who == g.partner) && !x.topUp then f x else x } }

/-- The engine is told that its lease is ending (R151). -/
def leaseWarning (s : State) (who : Consumer) : State :=
  match grantOf s who with
  | none => s
  | some g => hfLeaseWarn (mapPair s g fun x => { x with warned := true }) who

def execLeaseWarning (who : Consumer) (s : State) : Host.Outcome State Fault Refusal := next (leaseWarning s who)

/-- The end of an extension that may be given now: up to the limit, not past a fence; none for a second one (R151). -/
def extensionEnd (s : State) (g : Grant) : Option Nat :=
  let t := g.until_ + extendOf s g.kind
  let u := (pairGrants s g).foldl (fun m x => match nearestFence s x.who (pairMask s g) with
    | some f => min m f
    | none => m) t
  if !g.extended && g.until_ < u then some u else none

/-- A lease end counts as an overrun (R151). -/
def overrun (s : State) : State := raise (incSat s Fld.SYS_SCHCNT0_OVERRUN 1) 36

/-- The grant is withdrawn at its hard end, which is a boundary (R39, R151, R172). -/
def leaseOver (s : State) (g : Grant) : State :=
  let s1 := overrun (endWork s g 2 4 true)
  let s2 := if g.who = .external then { s1 with sched := { s1.sched with xreqSpent := true } } else s1
  settle (grantsEnded (endPair s2 g))

/-- The paths whose rounds use a consumer's top-up for an AUTH step. -/
def authPaths (s : State) (who : Consumer) : List RfPath :=
  [RfPath.a, .b].filter fun p => (roundOf s p).elim false fun r => roundConsumer r == who && (match r.phase with
    | .flint _ _ => true
    | _ => false)

/-- An AUTH step that loses Flint ends ABORTED (R276, R290). -/
def authAbort (s : State) (p : RfPath) : State :=
  match roundOf s p with
  | some r =>
    match r.phase with
    | .flint n _ => stepResult s p n 5 0 []
    | _ => s
  | none => s

/-- The lease of a top-up ends (R151, R154): no extension is given for it, and what uses it is aborted. -/
def topUpOver (s : State) (who : Consumer) : State :=
  if (topUpGrant s who).isNone then s
  else (authPaths s who).foldl authAbort (releaseTopUp (overrun s) who)

/-- The engine is inside a protocol transaction (R151): for the HF engine an exchange (R323), for the others as they say. -/
def inTrans (s : State) (g : Grant) (said : Bool) : Bool :=
  match g.kind with
  | .hfSession => hfInTransaction s g.who
  | _ => said

/-- The lease end (R151): one extension for a transaction, else the withdrawal. -/
def leaseEnd (s : State) (who : Consumer) (topUp inTransaction : Bool) : State :=
  if topUp then topUpOver s who
  else match grantOf s who with
    | none => s
    | some g =>
      match inTrans s g inTransaction, extensionEnd s g with
      | true, some u => incSat (mapPair s g fun x => { x with until_ := u, extended := true }) Fld.SYS_SCHCNT0_EXTEND 1
      | _, _ => leaseOver s g

def execLeaseEnd (who : Consumer) (inTransaction : Bool) (s : State) (topUp : Bool := false) : Host.Outcome State Fault Refusal :=
  next (leaseEnd s who topUp inTransaction)

/-! ### Scheduled items and the starvation guard -/

/-- A scheduled item does not take place: its owner is told the cause (R158, R171, R424). -/
def slotMissed (s : State) (r : Request) (cause : Nat) : State :=
  let s1 := dropRequest s r
  match planOf s1 (planNo r.who) with
  | some x => slotLost (dropPlan s1 (planNo r.who)) x cause
  | none => s1

/-- The request of a scheduled item. -/
def scheduled (s : State) (who : Consumer) : Option Request :=
  s.sched.requests.find? fun r => r.who == who && r.cls == .c0 && r.freeAt.isSome

/-- A scheduled item's free time (R158, R171): granted; or not granted and not retried where COEX is wanting, or where no grant is
made at all (R59); one whose resources are not yet given up waits for them. -/
def freeTime (s : State) (who : Consumer) : State :=
  match scheduled s who with
  | none => s
  | some r =>
    if grantable s r 0 then
      let s1 := grant s r false none
      startAll s1 (freshGrants s s1)
    else
      let s1 := countWait s r 0
      if r.mask.testBit 0 && !coexFree s true then slotMissed s1 r 2
      else if !grantsOpen s who then slotMissed s1 r 0
      else s1

def execC0FreeTime (who : Consumer) (s : State) : Host.Outcome State Fault Refusal :=
  next (grantsEnded (cxPost (grantPoint (freeTime s who))))

/-- A C2 request that has waited MAXWAIT is promoted for its next grant (R165). -/
def starvePromote (s : State) (who : Consumer) : State :=
  match requestOf s who with
  | none => s
  | some r =>
    if r.cls = .c2 ∧ ¬r.promoted then
      raise (incSat (setRequest s { r with promoted := true }) Fld.SYS_SCHCNT1_PROMOTE 1) 37
    else s

def execStarvePromote (who : Consumer) (s : State) : Host.Outcome State Fault Refusal := next (starvePromote s who)

/-! ### Coexistence wires -/

/-- A mute lowers the PA enable of a path's port at once (R203). -/
def muteLow (s : State) (p : RfPath) : State :=
  match paOf s (pathPort s p) with
  | some k => paDisable s k
  | none => s

/-- A grant is lost with `CXGNT` (R170): its transmitters are muted, its work is aborted, its held time charged, and a Slate entry's
request posted again. -/
def cxLost (s : State) (g : Grant) : State :=
  let s0 := endWork s g 3 5 true
  let hit := (pairGrants s g).foldl (fun m x => m ||| x.mask) 0
  let s1 := raise (incSat ([RfPath.a, .b].foldl (fun t p => if hit.testBit (resPath p) then muteLow t p else t) s0)
    Fld.SYS_SCHCNT1_CXLOST 1) 35
  let s2 := endPair s1 g
  [some g.who, g.partner].foldl (fun t c => match c with
    | some (.entry i) => { t with slate := { t.slate with pendingSet := (t.slate.pendingSet ++ [i.val]).dedup } }
    | _ => t) s2

/-- `CXGNT` falls (R168, R170): in the requester role every grant that holds COEX is lost, a boundary; requests of entries, DATA slots
and calibration steps are posted again. `CXREQ` stays as it is until the decision, which knows the new head. -/
def cxgntLoss (s : State) : State :=
  let s0 := grantPoint { s with pins := { s.pins with cxgnt := false } }
  if cxRole s = 1 then
    let hit := s.sched.grants.filter fun g => g.mask.testBit 0 && !g.topUp
    let s1 := hit.foldl (fun t g => if (grantOf t g.who).isSome then cxLost t g else t) s0
    if hit.isEmpty then s1 else settle (grantsEnded (immPost (postEntries (dataPost (calPost s1)))))
  else s0

def execCxgntLoss (s : State) : Host.Outcome State Fault Refusal := next (cxgntLoss s)

def execCxgntRise (s : State) : Host.Outcome State Fault Refusal :=
  next (grantPoint { s with pins := { s.pins with cxgnt := true } })

/-- `CXREQ` has been high for LEAD, and `CXPRI` with it where it rose no later or this is its own lead time (R146, R147, R169). -/
def leadSatisfied (s : State) : State :=
  if cxRole s = 1 ∧ flag s Fld.SYS_STAT_CXREQ then
    grantPoint { s with sched := { s.sched with
      cxLead := true
      cxpriLead := flag s Fld.SYS_STAT_CXPRI &&
        (s.sched.cxpriLead || s.sched.cxLead || decide (s.sched.cxpriAt ≤ s.sched.cxreqAt)) } }
  else s

def execCxreqLeadSatisfied (s : State) : Host.Outcome State Fault Refusal := next (leadSatisfied s)

/-- LEAD before the free time of the next scheduled item that needs COEX, `CXREQ` rises for it (R169). -/
def cxreqRise (s : State) : State :=
  let due := (s.sched.requests.filter fun r => r.cls = .c0 && r.freeAt.isSome && r.mask.testBit 0 && r.cxSince.isNone).insertionSort
    fun a b => a.freeAt.getD 0 ≤ b.freeAt.getD 0
  match due with
  | r :: _ => if cxRole s = 1 then cxPost (setRequest s { r with cxSince := some s.clk.now }) else s
  | [] => s

def execCxreqRise (s : State) : Host.Outcome State Fault Refusal := next (cxreqRise s)

/-- A wait for `CXGNT` reaches CXWAIT (R171): the reservation lapses, and a C2 head is passed over. `CXREQ` stays as it is until the next
grant point, which knows the head (R169). -/
def cxwaitTimeout (s : State) (who : Consumer) : State :=
  match requestOf s who with
  | none => s
  | some r =>
    if r.mask.testBit 0 && r.cxSince.isSome && !s.pins.cxgnt && (r.cls == .c1 || r.cls == .c2) then
      let s1 := incSat (setRequest s { r with reserved := 0, cxSince := none }) Fld.SYS_SCHCNT2_CXTIMEOUT 1
      if r.cls = .c2 ∧ ¬r.promoted then passOver s1 who else s1
    else s

def execCxwaitTimeout (who : Consumer) (s : State) : Host.Outcome State Fault Refusal := next (cxwaitTimeout s who)

/-- The external requester may ask (R172): after a lease end, once `XREQ` has been low for 1 µs. -/
def xreqArmed (s : State) : Bool :=
  !s.sched.xreqSpent || s.sched.xreqLow.elim false fun t => t + us 1 ≤ s.clk.now

/-- `XREQ` rises (R168, R172): in the arbiter role it posts the external requester's request. -/
def xreqRise (s : State) : State :=
  let s1 := grantPoint { s with pins := { s.pins with xreq := true } }
  if cxRole s = 2 ∧ xreqArmed s then
    let s2 := { s1 with sched := { s1.sched with xreqSpent := false, xreqLow := none } }
    (postRequest s2 { who := .external, cls := if flag s Fld.SYS_CXCFG_XCLS then .c2 else .c1, mask := 1, kind := .external }).1
  else s1

def execXreqRise (s : State) : Host.Outcome State Fault Refusal := next (xreqRise s)

/-- `XREQ` falls (R172): the external request or grant ends, and `XGNT` with it. -/
def xreqFall (s : State) : State :=
  let s1 := { s with pins := { s.pins with xreq := false }, sched := { s.sched with xreqLow := some s.clk.now } }
  grantsEnded (cxPost (endGrant (withdraw s1 .external) .external))

def execXreqFall (s : State) : Host.Outcome State Fault Refusal := next (xreqFall s)

/-! ### Load and refused accesses -/

/-- The load of the past 100 ms (R173, R175). Of the statistics that SHED 1 stops none is named: every counter goes on (R174; DESIGN
CHOICE, log entry 48). -/
def loadSample (s : State) (load : Nat) : State :=
  if mode s < 3 then s else
  let s1 := setFld (setFld s Fld.SYS_LOAD_LOAD load) Fld.SYS_LOAD_PEAK (max load (fld s Fld.SYS_LOAD_PEAK))
  let shed := fld s Fld.SYS_STAT_SHED
  if 850 < load ∧ shed < 4 then
    let s2 := setFld s1 Fld.SYS_STAT_SHED (shed + 1)
    if shed = 0 then raise s2 2 else s2
  else if load < 750 ∧ 0 < shed then setFld s1 Fld.SYS_STAT_SHED (shed - 1)
  else s1

def execLoadSample (load : Fin 1001) (s : State) : Host.Outcome State Fault Refusal := next (loadSample s load)

/-- An access outside a grant is refused by the resource (R23): VIOL counts it. -/
def execGrantViolation (_res : Fin 11) (s : State) : Host.Outcome State Fault Refusal := next (violation s)

/-! ### RF bias -/

/-- The paths of a calibration's grant come on, and its step with them. -/
def calibOn (t : State) (g : Grant) : State :=
  let on (u : State) : State := (u.cal.insts.filter (calRuns g.who)).foldl calShow (calPathsOn u g.mask)
  match g.who with
  | .calib _ _ => on t
  | .forcedGap _ => on t
  | .calTrace => traceGo t
  | _ => t

/-- RF bias has settled (R182): both paths are IDLE, those of a calibration step or of a trace go on to CAL. -/
def biasSettled (s : State) : State :=
  if s.clk.biasRising then
    let s1 := setFlag { s with clk := { s.clk with biasRising := false } } Fld.SYS_CLKSTAT_RFBIAS
    let s2 := [RfPath.a, .b].foldl (fun t p => if pathState t p = 0 then setFld t (fPath p) 1 else t) s1
    s2.sched.grants.foldl calibOn s2
  else s

def execRfBiasSettled (s : State) : Host.Outcome State Fault Refusal := next (biasSettled s)

/-- RFHOLD has passed without an RF grant: bias goes off, and RADIO returns to ACTIVE (R54, R182). -/
def rfholdExpiry (s : State) : State :=
  if rfHeld s || mode s < 3 then s
  else
    let s1 := biasOff s
    if mode s1 = 4 then setMode s1 3 else s1

def execRfholdExpiry (s : State) : Host.Outcome State Fault Refusal := next (rfholdExpiry s)

end Sys2Proof.Machine
end

