-- ==== Sys2Proof/Machine/Stream.lean ====
section
/-! DEFINITION. What a G3 stream shares with the wake: `HRDY`, the decision of a unit boundary, and the clock of a channel's consumer
(R110, R125, R493–R495). -/

namespace Sys2Proof.Machine

open Sys2Proof

def setHrdy (s : State) (v : Bool) : State := { s with pins := { s.pins with hrdy := v } }

def setHost (s : State) (h : HostPort) : State := { s with host := h }

def putG3 (s : State) (g : Option G3Run) : State := setHost s { s.host with g3 := g }

/-- The channel makes a G3 read wait: a skip is under way, or it is BLOCKING (R125, R499). -/
def g3Waits (s : State) (n : Nat) : Bool := (chan s n).skip != .none || flag s (Fld.FIFO_CH_CFG_BLOCK n)

/-- Begin to wait with `HRDY` low (R125). -/
def g3Wait (s : State) (g : G3Run) : State := setHrdy (putG3 s (some { g with waiting := true })) false

/-- The decision of a unit boundary (R125, R494), taken as the unit before it ends, or as the transfer begins: a unit, NOT_VALID, or
a wait with `HRDY` low. -/
def g3Decide (s : State) : State :=
  match s.host.g3 with
  | none => s
  | some g =>
    if g.bits != 0 || g.notValid || g.waiting || fld s Fld.HSP_LEN_LEN ≤ g.sel || (chanTake s.clk.now (chan s g.chan)).isSome then s
    else if g3Waits s g.chan then g3Wait s g
    else putG3 s (some { g with notValid := true })

/-- A transfer that is under way decides its first unit boundary (R494): at the fall of `HSEL_N`, or once the wake that it caused is
over (R20, R112). -/
def g3Begin (s : State) : State := if s.host.g3.any fun g => g.opened then g3Decide s else s

/-- The consumer of the channel runs on `HSCK`: a G3 transfer is selected on it with `HRDY` high (R494). -/
def onHsck (s : State) (n : Nat) : Bool :=
  !s.pins.hselN && s.pins.hrdy && s.host.frame != .ignoring && s.host.g3.any fun g => g.opened && g.chan == n

/-- A consumer's clock has given `k` edges, which bring its view of the last handover nearer (R493). -/
def viewEdges (s : State) (n k : Nat) : State :=
  let c := chan s n
  if c.view < 2 then setChan s n { c with view := min 2 (c.view + k) } else s

/-- One CLK100 cycle of the consumers that run on it (R494). -/
def tickViews (s : State) : State :=
  (List.range 9).foldl (fun t n => if onHsck t n then t else viewEdges t n 1) s

end Sys2Proof.Machine
end

