-- ==== Sys2Proof/Machine/Views.lean ====
section
/-! DEFINITION. What a register reads as: the stored word, or what the device maintains behind it (R8, R10, R117, R576, R580). -/

namespace Sys2Proof.Machine

open Sys2Proof

/-- `HDGn_STAT` (R231). -/
def hdgStat (s : State) (n : Nat) : Word :=
  let w0 := putBits 0 31 24 (if hedgeN s n = 0 then 0 else (leaves s (0x40 + n)).length)
  let w1 := putBits w0 19 16 (if hedgeN s n = 0 then 0 else depth s (0x40 + n))
  let w2 := putBits w1 15 8 ((parentOf s (0x40 + n)).elim 0x7F fun h => 0x40 + h)
  putBits w2 7 0 (if hedgeN s n = 0 then 0x7F else zoneOf s (0x40 + n))

/-- What is left of the lockout in ms (R133, R142); a part of a ms counts as a whole one (DESIGN CHOICE, log entry 47). -/
def lockoutLeft (s : State) : Nat :=
  match s.host.lockout with
  | some t => (t + ms 100 - s.clk.now + ms 1 - 1) / ms 1
  | none => 0

/-- `HSP_STAT` with the host level and G3 (R139). -/
def hspStat (s : State) : Word :=
  putBits (putBits (reg s Adr.HSP_STAT) 16 15 (fld s Fld.PROT_LEVEL_LEVEL)) 14 14 (if s.host.g3.isSome then 1 else 0)

/-- `TAG_HSTAT` and the others keep what they read in store; these registers of the SYS to TMR windows do not. -/
def viewLow (s : State) (a : Nat) : Option Word :=
  if a = Adr.SYS_CLKSTAT then some (putBits (reg s a) 0 0 (if s.clk.osc then 1 else 0))
  else if a = Adr.SYS_REJSUM then some (BitVec.ofNat 32 (rejSum s))
  else if a = Adr.SYS_STAT then some (sysStat s)
  else if a = Adr.SYS_GRANTED then some (sysGranted s)
  else if a = Adr.QTZ_STAT then some (qtzStat s)
  else if a = Adr.TMR_IRQ then some (tmrIrq s)
  else none

/-- The registers of the FIFO to RAD windows, and of Hedges and Bramble, that the device maintains. -/
def viewMid (s : State) (a : Nat) : Option Word :=
  if 0x610 ≤ a ∧ a ≤ 0x618 then some (chanStat s (a - 0x610))
  else if a = Adr.RAD_SWSTAT then some (radSwstat s)
  else if 0x1400 ≤ a ∧ a ≤ 0x14FF ∧ a % 8 = 5 then some (hdgStat s ((a - 0x1400) / 8))
  else if a = Adr.BRM_OCC then some (brmOcc s)
  else if 0x1880 ≤ a ∧ a ≤ 0x18BF then some (hfBufRead s (a - 0x1880))
  else if a = Adr.TAG_STAT then some (tagStat s)
  else none

/-- The registers of the LNK to HSP windows that the device maintains. -/
def viewHigh (s : State) (a : Nat) : Option Word :=
  if a = Adr.LNK_TXSTAT then some (lnkTxstat s)
  else if a = Adr.LNK_SBUSE then some (lnkSbuse s)
  else if Adr.LNK_NV0 ≤ a ∧ a ≤ Adr.LNK_NV3 then some (lnkNv s (a - Adr.LNK_NV0))
  else if a = Adr.CAL_DUE then some (calDueBits s)
  else if a = Adr.JNL_STAT then some (jnlStat s)
  else if a = Adr.JNL_POS then some (jnlPos s)
  else if a = Adr.JNL_PAGES then some (jnlPages s)
  else if 0x2A80 ≤ a ∧ a ≤ 0x2ABF then some (jnlRdbuf s (a - 0x2A80))
  else if a = Adr.SLT_CACHE then some (sltCache s)
  else if a = Adr.SGT_STAT then some (sgtStat s)
  else if 0x2C40 ≤ a ∧ a ≤ 0x2CBF then some (sgtTrf s ((a - 0x2C40) / 4) (a % 4))
  else if a = Adr.HSP_STAT then some (hspStat s)
  else if a = Adr.HSP_UNLK then some (putBits (reg s a) 6 0 (lockoutLeft s))
  else none

/-- The word a register reads as, without the effects of R580: WO and RSV fields read 0 (R8), an address that is not populated
reads 0 (R117). -/
def regView (s : State) (a : Nat) : Word :=
  let w := if a < 0x600 then viewLow s a else if a < 0x1B00 then viewMid s a else viewHigh s a
  w.getD (if populated a then reg s a &&& ~~~(accMask a .rsv ||| accMask a .wo) else 0)

/-- A window of R576 holds an address (R577). -/
def inWindow (a : Nat) : Bool := windows.any fun w => w.first ≤ a && a ≤ w.last

/-- A read of `FIFO_PORTn` in a host frame: the word has the error state that stands next for the frame (R501). -/
def framePortRead (s : State) (n : Nat) : Word × State :=
  portRead { s with host := { s.host with ecc := s.host.ecc.drop 1 } } n (s.host.ecc.headD 0)

/-- A permitted read of one register: its value, and its effect where R580 gives it one. -/
def readWord (s : State) (a : Nat) : Word × State :=
  if a = Adr.QTZ_TIME0 then let t := timeSnapshot s; (reg t a, t)
  else if 0x680 ≤ a ∧ a ≤ 0x687 then framePortRead s (a - 0x680)
  else if 0x400 ≤ a ∧ a ≤ 0x4FF ∧ a % 16 = 0xA then (regView s a, tmrCapRead s ((a - 0x400) / 16))
  else (regView s a, s)

/-! ### The tag's status snapshot -/

/-- The half-word of `TAG_STATLISTn` that lists word j (R364). -/
def statAddr (s : State) (j : Nat) : Nat := bitsOf (reg s (Adr.TAG_STATLIST (j / 2))) (16 * (j % 2) + 15) (16 * (j % 2))

/-- Word j of the snapshot, and whether it was denied (R131, R134, R364). -/
def statWord (s : State) (j : Nat) : Word × Bool :=
  let a := statAddr s j
  if a = 0xFFFF ∨ ¬populated a then (0, false)
  else if permitted s .field a false then (regView s a, false) else (0, true)

/-- The firmware refreshes the tag's status snapshot (R135, R364). -/
def snapshotRefresh (s : State) : State :=
  let ws := (List.range 8).map (statWord s)
  let denied := (List.range 8).filter fun j => (statWord s j).2
  let s1 := denied.foldl (fun t j => deny t .field (statAddr s j) false) s
  { s1 with tag := { s1.tag with
    snap := some { denied := (denied.map fun j => 2 ^ j).sum, time := q64 s, words := ws.map fun p => p.1 } } }

/-- Every 1 s while the core runs (R364). -/
def execSnapshotRefresh (s : State) : Host.Outcome State Fault Refusal :=
  next (if 3 ≤ mode s then snapshotRefresh s else s)

end Sys2Proof.Machine
end

