-- ==== Sys2Proof/Machine/Modes.lean ====
section
/-! DEFINITION. Modes, sleep and wake, the core PLL, and the commands of `SYS_MODECMD` (R49–R70). -/

namespace Sys2Proof.Machine

open Sys2Proof

/-! ### Sleep (R56–R58) -/

/-- The earliest time of a list. -/
def earliest (l : List Nat) : Option Nat := l.foldl (fun m t => earlier m (some t)) none

/-- WATCH, as FLOOR selects it, serves the link's listen windows itself (R57, R63). -/
def watchServes (s : State) : Bool := fld s Fld.SYS_MODECTL_FLOOR == 2 && flag s Fld.SYS_MODECTL_WATCHLNK

/-- When the next C0 or C1 item is due, in CLK100 time (R56, R57): a posted one at its free time or now, and the link's next listen
window where it is not yet posted; `served` leaves out the windows that WATCH serves itself. -/
def itemAt (s : State) (served : Bool) : Option Nat :=
  let posted := s.sched.requests.filterMap fun r =>
    if r.cls == .c0 || r.cls == .c1 || r.promoted then some (r.freeAt.getD s.clk.now) else none
  let windows := if served then [] else ((planWindows s).take 1).map fun w => clkOfQ64 s w.free
  earliest (posted ++ windows)

/-- When an entry becomes pending next (R241): now where it is, PERIOD after its previous grant ended where that is to come. -/
def entryAtTime (s : State) (i : Nat) (e : Entry) : Option Nat :=
  if !entryActive e then none
  else if entryDue s i e then some s.clk.now
  else (s.slate.ended.find? fun p => p.1 == i).map fun p => max s.clk.now (p.2 + ms (ePeriod e))

/-- When the next Slate entry is due, in CLK100 time (R56, R57). -/
def slateAt (s : State) : Option Nat := earliest (s.slate.entries.filterMap fun p => entryAtTime s p.1 p.2)

/-- The earliest hold-time expiry among open sighting entries (R57, R453). -/
def holdAt (s : State) : Option Nat := earliest (s.sgt.open_.map fun p => p.2.lastAt + ms (100 * p.2.hold))

/-- A C0 or C1 item or a Slate entry is due within IDLEMIN (R56), the link's next listen window among them. -/
def dueSoon (s : State) : Bool :=
  match earlier (itemAt s false) (slateAt s) with
  | some t => t ≤ s.clk.now + ms (fld s Fld.SYS_MODECTL_IDLEMIN)
  | none => false

/-- The scheduled internal wake (R57): 600 µs ahead of the earliest item, entry or hold expiry; with the windows of WATCH planned,
also where the plan asks for one (R426). -/
def wakeTime (s : State) (plan : List LnkWindow) : Option Nat :=
  let due := (earlier (earlier (itemAt s (watchServes s)) (slateAt s)) (holdAt s)).map fun t => t - us 600
  if watchServes s then earlier due ((planEnds s plan).map (clkOfQ64 s)) else due

/-- The journal writer's channel is empty (R56). -/
def channelEmpty (s : State) : Bool := (chan s 8).wr.isEmpty && (chan s 8).rd.isEmpty

/-- Every journal page buffer has been programmed (R56). -/
def pagesProgrammed (s : State) : Bool := s.jnl.buffer.isEmpty && s.jnl.full.isEmpty

/-- The conditions of R56 and R425 but the journal's pages; SLEEP_NOW waives IDLEMIN (R68). -/
def sleepReady (s : State) : Bool :=
  let floor := fld s Fld.SYS_MODECTL_FLOOR
  let cmdOk := match s.modes.cmd with
    | none => !dueSoon s
    | some .sleepNow => true
    | _ => false
  mode s == 3 && (floor == 1 || floor == 2) && s.sched.grants.isEmpty && cmdOk && channelEmpty s && !anyPend s &&
    s.pins.hselN && flag s Fld.SYS_BOOTSTAT_DONE && !flag s Fld.SYS_BOOTSTAT_BARE && !flag s Fld.LNK_BCN_EN

/-- All of R56. -/
def maySleep (s : State) : Bool := sleepReady s && pagesProgrammed s

/-- Where R56's other conditions hold, the journal's pages are programmed for sleep (R477), as an operation of the writer. -/
def sleepFlush (s : State) : State :=
  if sleepReady s && jpageWaits s && !(s.sched.ops.any fun o => o.req.who == .journal) then
    turn s (mspRequest .journal .c3) .jnlFlushTimeout jflush
  else s

/-- REFIN, the core PLL and RF bias as they run (R51, R63, R70): stopped, or locked, the processor is off the internal oscillator
(R52). -/
def clocksSet (s : State) (pll bias : Nat) : State :=
  setFld (setFld (setFld (clrFld s Fld.SYS_CLKSTAT_FALLBACK) Fld.SYS_CLKSTAT_PLLLOCK pll) Fld.SYS_CLKSTAT_REFOK pll)
    Fld.SYS_CLKSTAT_RFBIAS bias

/-- The pending SLEEP_NOW is over. -/
def cmdOver (s : State) : State := clrFld { s with modes := { s.modes with cmd := none } } Fld.SYS_MODE_TRANS

/-- The firmware plans the windows of WATCH and sets the scheduled wake (R57, R426). -/
def sleepPlan (s : State) : State :=
  let plan := if watchServes s then planWindows s else []
  { s with lnk := { s.lnk with windows := plan }, modes := { s.modes with wakeAt := wakeTime s plan } }

/-- The mode of FLOOR is entered: the snapshot is refreshed (R364), the scheduled wake is set (R57), a baseline may be rebuilt
(R333), the clocks stop. -/
def sleepEnter (s0 : State) : State :=
  let s := sleepPlan s0
  let s1 := clocksSet (biasOff (snapshotRefresh s)) 0 0
  let s2 := setMode (cmdOver s1) (fld s Fld.SYS_MODECTL_FLOOR)
  if mode s2 = 2 then gorseWatch s2 else s2

/-- The device sleeps where R56 lets it, its pages programmed first (R477). A wake source that fires during the entry and wakes from the
mode being entered abandons it: MODE stays ACTIVE (R58). -/
def sleepEntry (s0 : State) (during : Option WakeSource) : State :=
  let s := sleepFlush s0
  if !maySleep s then s
  else
    match during with
    | none => sleepEnter s
    | some c =>
      let s1 := fireWake s c.val
      if (reg s Adr.SYS_WAKEEN).toNat.testBit c.val && wakesIn c.val (fld s Fld.SYS_MODECTL_FLOOR) then
        setFld (cmdOver s1) Fld.SYS_MODE_LASTWAKE c.val
      else sleepEnter s1

def execSleepEntry (during : Option WakeSource) (s : State) : Host.Outcome State Fault Refusal := next (sleepEntry s during)

/-! ### Wake (R49, R54, R62) -/

/-- A link window of WATCH is over: its slot ends, the chain and bias go off (R63). -/
def windowOff (s : State) : State :=
  if s.modes.window then
    let s1 := biasOff (linkCut s false)
    { s1 with modes := { s1.modes with window := false } }
  else s

/-- The clocks as a wake leaves them (R51, R52): the core PLL locked, or the processor on the internal oscillator where the lock
has timed out. -/
def wakeClocks (s : State) : State := if flag s Fld.SYS_CLKSTAT_FALLBACK then s else clocksSet s 1 0

/-- The beacons received in WATCH are applied (R63). -/
def applyBeacons (s : State) : State :=
  s.lnk.beacons.foldl (fun t b => beaconTrack t b.1 b.2.1 b.2.2) { s with lnk := { s.lnk with beacons := [] } }

/-- The wake completes (R54, R62): ACTIVE, with the lowest code latched by it; tag events of the sleep are reported (R372), the
beacons heard in it applied (R63), what waited for the wake taken (R460, R549); `HRDY` rises for a host that has selected the device,
unless its G3 transfer finds nothing to read on a BLOCKING channel (R112, R125). -/
def wakeComplete (s : State) : State :=
  match s.modes.waking with
  | none => s
  | some m =>
    if mode s = 1 ∨ mode s = 2 then
      let s1 := wakeClocks (windowOff s)
      let s2 := setFld { s1 with modes := { s1.modes with waking := none, wakeAt := none } } Fld.SYS_MODE_LASTWAKE (lowOf m)
      let s3 := reportAtWake (measureAtWake (applyBeacons (tgeLater (setMode { s2 with lnk := { s2.lnk with windows := [] } } 3))))
      if s3.pins.hselN then s3 else g3Begin (setHrdy s3 true)
    else { s with modes := { s.modes with waking := none } }

def execWakeComplete (s : State) : Host.Outcome State Fault Refusal := next (wakeComplete s)

/-- The scheduled internal wake: its time has come (R57). -/
def schedWake (s : State) : State :=
  match s.modes.wakeAt with
  | some t =>
    if (mode s = 1 ∨ mode s = 2) ∧ t ≤ s.clk.now then fireWake { s with modes := { s.modes with wakeAt := none } } 9 else s
  | none => s

def execSchedWake (s : State) : Host.Outcome State Fault Refusal := next (schedWake s)

/-- `WAKE_N` has been low for 2 CLK32K periods (R61). -/
def execWakePin (s : State) : Host.Outcome State Fault Refusal := next (fireWake s 5)

/-! ### Link windows in WATCH (R63) -/

/-- The slot of a planned window on a read point: receive-only (R63, R426). -/
def windowSlot (s : State) (w : LnkWindow) (e : Entry) (rp : Nat) : LnkSlot :=
  { kind := w.kind, src := w.src, entry := slotEntryNo s w.kind, rp := rp,
    chan := if w.kind = .rdv then rdvChan s e w.free else eChan e 0, free := w.free }

/-- A beacon window opens: its source has one (R424, R432). -/
def windowMark (s : State) (w : LnkWindow) : State :=
  if w.kind = .brx then
    let n := srcNbr s w.src
    setNbr s n { nbrOf s n with window := true, left := 0, got := false }
  else s

/-- REFIN, the core PLL and RF bias start for the next planned window, and path B is the sequencer's (R63, R426). -/
def windowPrepare (s : State) : State :=
  if mode s = 2 ∧ flag s Fld.SYS_MODECTL_WATCHLNK ∧ ¬s.modes.window then
    match s.lnk.windows with
    | [] => s
    | w :: rest =>
      let s0 := { s with lnk := { s.lnk with windows := rest } }
      match linkEntry s (slotEntryNo s w.kind) with
      | none => s0
      | some e =>
        let q := nextLeaf s0 (slotEntryNo s w.kind) e
        match q.1 with
        | some rp =>
          let t := q.2
          let s1 := clocksSet { t with modes := { t.modes with window := true } } 1 1
          let s2 := windowMark (assignRp (setFld (setFld s1 (fPath .a) 1) (fPath .b) 1) .b rp) w
          { s2 with lnk := { s2.lnk with
            slot := some (windowSlot s w e rp)
            act := .idle, owed := none, acking := false, rx := none } }
        | none => s0
  else s

def execWatchWindowPrepare (s : State) : Host.Outcome State Fault Refusal := next (windowPrepare s)

/-- A beacon window is over: one without a beacon is missed (R432). -/
def windowOver (s : State) : State :=
  match s.lnk.slot with
  | some x => if x.kind = .brx then windowEnd s x.src else s
  | none => s

/-- The window closes, and the three clocks stop (R63). -/
def windowClose (s : State) : State :=
  if mode s = 2 ∧ s.modes.window then clocksSet (windowOff (windowOver s)) 0 0 else s

def execWatchWindowClose (s : State) : Host.Outcome State Fault Refusal := next (windowClose s)

/-! ### `SYS_MODECMD` (R64, R67, R68) -/

def cmdRes (s : State) (r : Nat) : State := setFld s Fld.SYS_MODE_CMDRES r

/-- A command that waits for its transition. -/
def cmdWait (s : State) (c : ModeCmd) : State :=
  setFlag { s with modes := { s.modes with cmd := some c, flushed := false } } Fld.SYS_MODE_TRANS

/-- An accepted command (R59, R60, R68). -/
def cmdAccept (s : State) (cmd : Nat) : State :=
  let t := cmdRes s 1
  match cmd with
  | 1 => cmdWait t .sleepNow
  | 2 => grantsEnded (cmdWait t .enterService)
  | 3 => serviceLeave t
  | 4 => if mode t = 3 then backupFlush (cmdWait t .enterBackup) else grantsEnded (cmdWait t .enterBackup)
  | _ => grantPoint (cmdOver { t with modes := { t.modes with flushed := false } })

/-- The transition a command asks for exists (R68). -/
def cmdHas (s : State) (cmd : Nat) : Bool :=
  match cmd with
  | 1 => mode s == 3 || mode s == 4
  | 2 => mode s == 3 || mode s == 4
  | 3 => mode s == 5
  | 4 => 3 ≤ mode s
  | _ => s.modes.cmd.isSome

/-- The check that fails first, as CMDRES; 1 where none does (R68). -/
def cmdCheck (s : State) (lvl : Level) (key : BitVec 16) (cmd : Nat) : Nat :=
  if !keyOk key || cmd == 0 || 5 < cmd then 4
  else if (cmd == 2 || cmd == 3 || cmd == 4) && !supervisorLevel lvl then 2
  else if s.modes.cmd.isSome && cmd != 5 then 3
  else if !cmdHas s cmd then 6
  else if cmd == 1 && fld s Fld.SYS_MODECTL_FLOOR == 3 then 5
  else 1

/-- A write of `SYS_MODECMD` (R67, R68). -/
def modeCommand (s : State) (lvl : Level) (key : BitVec 16) (cmd : Nat) : State :=
  let r := cmdCheck s lvl key cmd
  if r = 1 then cmdAccept s cmd else cmdRes s r

def execSleepNow (lvl : Level) (key : BitVec 16) (s : State) : Host.Outcome State Fault Refusal :=
  next (asWrite s lvl Adr.SYS_MODECMD fun t => modeCommand t lvl key 1)

def execEnterService (lvl : Level) (key : BitVec 16) (s : State) : Host.Outcome State Fault Refusal :=
  next (asWrite s lvl Adr.SYS_MODECMD fun t => modeCommand t lvl key 2)

def execLeaveService (lvl : Level) (key : BitVec 16) (s : State) : Host.Outcome State Fault Refusal :=
  next (asWrite s lvl Adr.SYS_MODECMD fun t => modeCommand t lvl key 3)

def execEnterBackup (lvl : Level) (key : BitVec 16) (s : State) : Host.Outcome State Fault Refusal :=
  next (asWrite s lvl Adr.SYS_MODECMD fun t => modeCommand t lvl key 4)

def execCancel (lvl : Level) (key : BitVec 16) (s : State) : Host.Outcome State Fault Refusal :=
  next (asWrite s lvl Adr.SYS_MODECMD fun t => modeCommand t lvl key 5)

/-- The flush of ENTER_BACKUP ends: what the journal holds is programmed, but for what 50 ms left over, in pages of 4 KB, which a fault
record reports (R60, R503); the snapshot is refreshed (R364) and `PWRON` driven inactive. -/
def flushDone (s0 : State) (leftKB : Nat) : State :=
  if s0.modes.cmd = some .enterBackup ∧ mode s0 = 3 ∧ ¬s0.modes.flushed then
    let s := jflushAll s0 ((leftKB + 3) / 4)
    let s1 := if leftKB = 0 then s else fault s 0x00 0 0x0F [BitVec.ofNat 8 (min 0xFF leftKB)]
    let s2 := pwrRelease (snapshotRefresh s1)
    { s2 with modes := { s2.modes with flushed := true } }
  else s0

def execBackupFlushDone (leftKB : Nat) (s : State) : Host.Outcome State Fault Refusal := next (flushDone s leftKB)

/-! ### The core PLL (R52, R53) -/

/-- FALLBACK is set, with CLKFAULT and its fault record: 1 for a lock failure, 2 for a lock loss (R52, R53, R130, R503). -/
def fallback (s : State) (why : Nat) : State :=
  fault (raise (clrFld (setFlag s Fld.SYS_CLKSTAT_FALLBACK) Fld.SYS_CLKSTAT_PLLLOCK) 3) 0x00 0 0x02 [BitVec.ofNat 8 why]

/-- The core PLL is wanted: in ACTIVE and above, for a link window of WATCH, and while a wake is under way (R51, R63). -/
def pllWanted (s : State) : Bool := 3 ≤ mode s || s.modes.window || s.modes.waking.isSome

/-- Activity on REFIN as the device sees it (R70). -/
def refinSeen (s : State) (refin : Bool) : State := setFld s Fld.SYS_CLKSTAT_REFOK (if refin then 1 else 0)

/-- A window of WATCH that cannot go on ends: it counts as one without a beacon, and path and bias go off (R53, R63). -/
def windowAbort (s : State) : State :=
  if s.modes.window then
    let s1 := windowOver s
    let s2 := biasOff (linkCut s1 true)
    { s2 with modes := { s2.modes with window := false } }
  else s

/-- The core PLL locks: FALLBACK clears and RF grants resume (R52). -/
def pllLock (s : State) : State :=
  if pllWanted s || flag s Fld.SYS_CLKSTAT_FALLBACK then
    grantPoint (refinSeen (setFlag (clrFld s Fld.SYS_CLKSTAT_FALLBACK) Fld.SYS_CLKSTAT_PLLLOCK) true)
  else s

/-- The core PLL does not lock within 1 ms (R52): the device falls back, and a window that needed it cannot open. -/
def pllTimeout (s : State) (refin : Bool) : State :=
  if pllWanted s ∧ ¬flag s Fld.SYS_CLKSTAT_FALLBACK then fallback (refinSeen (windowAbort s) refin) 1 else s

def execPllLockTimeout (s : State) (refin : Bool := true) : Host.Outcome State Fault Refusal := next (pllTimeout s refin)

/-- The lock is tried again every 10 ms in FALLBACK (R52). -/
def lockRetry (s : State) (locks refin : Bool) : State :=
  if flag s Fld.SYS_CLKSTAT_FALLBACK then (if locks then pllLock s else refinSeen s refin) else s

def execPllLockRetry (locks : Bool) (s : State) (refin : Bool := true) : Host.Outcome State Fault Refusal := next (lockRetry s locks refin)

def execPllLock (s : State) : Host.Outcome State Fault Refusal := next (pllLock s)

/-- The work of every RF grant is aborted by the loss of the PLL (R53). -/
def lockAbort (s : State) : State :=
  let hit := s.sched.grants.filter fun g => meets g.mask rfMask && !g.topUp
  hit.foldl (fun t g => if (grantOf t g.who).isSome then endPair (endWork t g 9 11 true) g else t) (windowAbort s)

/-- A running PLL loses lock (R53): every RF grant's work and a window of WATCH are aborted at their boundary (R39), the loss is
counted, and the device falls back. -/
def lockLoss (s : State) (refin : Bool) : State :=
  if flag s Fld.SYS_CLKSTAT_PLLLOCK then
    let s1 := refinSeen (lockAbort s) refin
    settle (grantsEnded (fallback (incSat (pathIdle (pathIdle s1 .a) .b) Fld.SYS_CLKSTAT_LOCKLOSS 1) 2))
  else s

def execPllLockLoss (s : State) (refin : Bool := true) : Host.Outcome State Fault Refusal := next (lockLoss s refin)

/-! ### `SYS_WAKEEN` (R69) -/

/-- A write of `SYS_WAKEEN`, with the backup copy of bits [5:0] (R69, R554). -/
def wakeenWrite (s : State) (v : Word) : State :=
  let m := accMask Adr.SYS_WAKEEN .rw
  let w := (reg s Adr.SYS_WAKEEN &&& ~~~m) ||| (v &&& m)
  let s1 := rsvCheck (setReg s Adr.SYS_WAKEEN w) Adr.SYS_WAKEEN v
  { s1 with qtz := { s1.qtz with wakeCopy := bitsOf w 5 0 } }

def execWakeenWrite (lvl : Level) (value : Word) (s : State) : Host.Outcome State Fault Refusal :=
  next (asWrite s lvl Adr.SYS_WAKEEN fun t => wakeenWrite t value)

end Sys2Proof.Machine
end

