-- ==== Sys2Proof/Machine/Reset.lean ====
section
/-! DEFINITION. Resets, supplies and the causes of a start (R46, R71–R73, R97, R104, R105, R535, R582, R591–R593). -/

namespace Sys2Proof.Machine

open Sys2Proof

/-- The address lies in the QTZ window, which only POR_BACKUP resets (R535, R582). -/
def inQtz (a : Nat) : Bool := 0x200 ≤ a && a ≤ 0x2FF

/-- The core domain is supplied and out of reset (R72, R591, R593). -/
def powered (s : State) : Bool := s.pins.core && s.pins.vddio && s.pins.rstN

/-- The core runs (R47). -/
def running (s : State) : Bool := powered s && 3 ≤ mode s

/-- What a host access meets: 0 the port ignores `HSEL_N`, 1 reads are served and writes ignored, 2 the port is open (R78). -/
def hostGate (s : State) : Nat :=
  if !powered s || mode s == 0 || s.boot.step == 1 then 0
  else if flag s Fld.SYS_BOOTSTAT_DONE || flag s Fld.SYS_BOOTSTAT_BARE then 2
  else 1

/-- What the NAND and the pool hold of the journal; the SRAM buffers are lost (R73). -/
def journalKept (j : Journal) : Journal :=
  { j with buffer := [], full := [], configs := [], readBuf := [], bufferAt := 0, inHand := [], inHandBad := false,
           fcOpen := [], dutyOpen := [], fcDue := false, dutyDue := false }

/-- The host port after a start: `HSEL_N` low belongs to no frame after a start at step 1 (R78), G3 is over (R122). -/
def hostAfter (s : State) (five : Bool) : HostPort :=
  if five then
    { s.host with raise := false, lockout := none, g3 := none, held := none, g1Latch := [], admittedAt := none,
                  frameAt := s.clk.now }
  else { frame := if s.pins.hselN then .header else .ignoring, frameAt := s.clk.now }

/-- HF ports whose field is cut begin their minimum field-off time (R302). -/
def foffAfter (s : State) : Vector (Option Nat) 2 :=
  if flag s Fld.HF_STAT_FIELD then s.hf.foff.setIfInBounds (fld s Fld.HF_STAT_PORT) (some s.clk.now) else s.hf.foff

/-- Every core-domain and RF-domain register and the SRAM at their reset values (R73, R582). The QTZ window and its shadow set,
the tag with its store and a field command that waits, the NOR and the NAND stay (R345, R535); TAG registers are those of the key-store mirror (R347). -/
def coreReset (s0 : State) (five : Bool) : State :=
  let s := slateCut s0
  let t : State :=
    { regs := s.regs.filter fun p => inQtz p.1
      shadow := s.shadow.filter fun p => inQtz p.1
      clk := { s.clk with biasRising := false, rfIdleSince := none }
      pins := s.pins
      boot := { step := 0, started := s.boot.started }
      host := hostAfter s five
      qtz := s.qtz
      sched := { creditAt := s.clk.now, ops := s.sched.ops.filter fun o => o.req.who == .tagEngine }
      jnl := journalKept s.jnl
      mem := s.mem
      hf := { foff := foffAfter s }
      tag := { s.tag with copies := [], staged := none, gens := [] }
      drawn := s.drawn
      pending := s.pending }
  tagFromMirror (setReg t Adr.TAG_STAT (reg s Adr.TAG_STAT &&& maskOf 31 11)) (flag s Fld.TAG_CFG_HARVEN)

/-- What a start at step 5 keeps besides: the straps and the framing (R77, R113), and the clocks as they run (R70). -/
def keepStraps (s0 s : State) : State :=
  let b (t : State) (f : Field) : State := setFld t f (fld s0 f)
  b (b (b (b (b (b s Fld.SYS_BOOTSTAT_HGEN) Fld.SYS_BOOTSTAT_BOOTSEL) Fld.HSP_STAT_FRAMING) Fld.SYS_CLKSTAT_PLLLOCK)
    Fld.SYS_CLKSTAT_REFOK) Fld.SYS_CLKSTAT_FALLBACK

/-- The core is held in reset (R72). -/
def holdReset (s : State) : State := setHrdy (coreReset s false) false

/-- A start with its cause, from step 1 or step 5 (R71, R73, R582). The command STARTUP runs its steps. -/
def startAt (s : State) (cause step : Nat) : State :=
  let five := step = 5
  let t := coreReset s five
  let t1 := if five then keepStraps s t else setHrdy t false
  setFld { t1 with boot := { t1.boot with step := step, started := true } } Fld.SYS_BOOTSTAT_CAUSE cause

/-! ### Supplies and `RST_N` -/

/-- VDD08 or VDD18 is lost: BACKUP at once (R54, R592). -/
def supplyLoss (s : State) : State :=
  let t := holdReset { s with pins := { s.pins with core := false } }
  setFld { t with boot := { t.boot with started := false } } Fld.SYS_MODE_MODE 0

def execCoreSupplyLoss (s : State) : Host.Outcome State Fault Refusal :=
  next (if s.pins.core then supplyLoss s else s)

/-- The core supplies become valid; the core leaves reset once VDDIO is valid and `RST_N` high (R71, R591). -/
def execCoreSupplyValid (s : State) : Host.Outcome State Fault Refusal :=
  let t := { s with pins := { s.pins with core := true } }
  next (if s.pins.core then s else if powered t then startAt t 1 1 else t)

/-- VDDIO is lost, which acts as `RST_N` low (R593). -/
def execVddioLoss (s : State) : Host.Outcome State Fault Refusal :=
  let t := { s with pins := { s.pins with vddio := false } }
  next (if s.pins.vddio && s.pins.core then holdReset t else t)

/-- VDDIO is valid again: cause RSTN after a loss while the core ran, POR_CORE on the first rise (R591, R593). -/
def execVddioValid (s : State) : Host.Outcome State Fault Refusal :=
  let t := { s with pins := { s.pins with vddio := true } }
  next (if s.pins.vddio then s else if powered t then startAt t (if t.boot.started then 2 else 1) 1 else t)

/-- `RST_N` goes low (R72). -/
def execRstAssert (s : State) : Host.Outcome State Fault Refusal :=
  let t := { s with pins := { s.pins with rstN := false } }
  next (if s.pins.rstN && s.pins.core then holdReset t else t)

/-- `RST_N` is released (R71). -/
def execRstRelease (s : State) : Host.Outcome State Fault Refusal :=
  let t := { s with pins := { s.pins with rstN := true } }
  next (if s.pins.rstN then s else if powered t then startAt t 2 1 else t)

/-- POR_BACKUP, which the cause of the last start then names (R71, R345, R364, R535, R551, R554): the QTZ window and what stands behind it at reset, OSF set, `PWRON` active,
the snapshot lost. -/
def porBackup (s : State) (byField : Bool) : State :=
  let t : State := { s with
    regs := s.regs.filter fun p => !inQtz p.1
    shadow := s.shadow.filter fun p => !inQtz p.1
    clk := { s.clk with osc := false, sinceEdge := 0 }
    pins := { s.pins with vbat := !byField }
    qtz := {}
    tag := { s.tag with snap := none } }
  let t1 := setFld (setFlag (setFlag t Fld.QTZ_STAT_OSF) Fld.QTZ_STAT_PWRON) Fld.SYS_BOOTSTAT_CAUSE 0
  if powered t1 && mode t1 != 0 then raise t1 51 else t1

def execPorBackup (byField : Bool) (s : State) : Host.Outcome State Fault Refusal :=
  next (if !s.pins.vbat && !flag s Fld.TAG_STAT_FIELD then porBackup s byField else s)

/-! ### Watchdog and SRAM errors (R46, R73) -/

/-- A start at step 5 can begin: the core runs and no start from step 1 is pending. -/
def restartable (s : State) : Bool := running s && s.boot.step != 1

def execWatchdogExpiry (s : State) : Host.Outcome State Fault Refusal :=
  next (if restartable s then startAt s 4 5 else s)

/-- An uncorrectable SRAM error (R46, R71, R503): the fault record of the restart outlives the discarded SRAM. -/
def sramUe (s : State) (loc : SramLoc) : State :=
  match loc with
  | .sighting n => if running s then sgtClose s n.val (some 5) else s
  | .other a => if restartable s then fault (startAt s 3 5) 0x00 0 0x03 (leBytes 4 a.toNat) else s

def execSramUe (loc : SramLoc) (s : State) : Host.Outcome State Fault Refusal := next (sramUe s loc)

/-- A corrected SRAM error (R46). -/
def execSramCe (s : State) : Host.Outcome State Fault Refusal := next (if running s then raise s 60 else s)

/-! ### Boot commands (R97, R104, R105) -/

/-- RUN leaves BARE, and with it the level it gave the host; the start goes on from step 7 (R97, R132). -/
def runBegin (s : State) : State :=
  { clrFld (clrFld s Fld.SYS_BOOTSTAT_BARE) Fld.PROT_LEVEL_LEVEL with boot := { s.boot with step := 7 } }

/-- A write of `SYS_BOOTCMD`: a wrong key, a level below SUPERVISOR, another value, or RUN outside BARE is ignored. -/
def bootCommand (s : State) (lvl : Level) (key : BitVec 16) (cmd : Nat) : State :=
  if !keyOk key || !supervisorLevel lvl then s
  else match cmd with
    | 1 => startAt s 5 1
    | 2 => let t := startAt s 6 5
           { t with boot := { t.boot with ignoreBootsel := true } }
    | 3 => if flag s Fld.SYS_BOOTSTAT_BARE then runBegin s else s
    | _ => s

def execRestart (lvl : Level) (key : BitVec 16) (s : State) : Host.Outcome State Fault Refusal :=
  next (asWrite s lvl Adr.SYS_BOOTCMD fun t => bootCommand t lvl key 1)

def execReload (lvl : Level) (key : BitVec 16) (s : State) : Host.Outcome State Fault Refusal :=
  next (asWrite s lvl Adr.SYS_BOOTCMD fun t => bootCommand t lvl key 2)

end Sys2Proof.Machine
end

