-- ==== Sys2Proof/Machine/Rounds.lean ====
section
/-! DEFINITION. The rows at which a round, a visit or a link slot may come to its end, and those at which an HF frame does: what is pending
applies there (R38, R39, R233, R303). -/

namespace Sys2Proof.Machine

open Sys2Proof

/-! ### Boundaries that a row brings -/

/-- A round, a visit's field or a link slot that stood before a row is over after it (R38, R39). -/
def workEnded (s t : State) : Bool :=
  (s.brm.a.isSome && t.brm.a.isNone) || (s.brm.b.isSome && t.brm.b.isNone) || (s.hf.drive.isSome && t.hf.drive.isNone) ||
    (s.lnk.slot.isSome && t.lnk.slot.isNone)

/-- A row carried out, and what stands at its boundary after it (R39, R233). -/
def row (s : State) (run : State → State) : State := if workEnded s (run s) then settle (run s) else run s

/-- A row of the HF reader: after a field-off, the next leaf follows what has come into force (R303, R306). -/
def hfRow (s : State) (run : State → State) : State := if workEnded s (run s) then hfNextLeaf (settle (run s)) else run s

/-- The end of an answer window, before what follows from it (R303): an HF frame boundary. -/
def hfBoundary (s : State) (ends : HfVisit → Bool) : State :=
  match s.hf.visit with
  | some v => if s.hf.answerBy.isSome && ends v && hfLastSlot s v then settle (hfWindowOver s) else s
  | none => s

/-! ### UHF front end -/

def execTune (path : RfPath) (chan : BitVec 14) (use : PathUse) (s : State) : Host.Outcome State Fault Refusal :=
  next (row s fun t => tune t path chan.toNat use)

def execSynthLock (path : RfPath) (margin : Fin 64) (band : BitVec 4) (cap : BitVec 7) (s : State) :
    Host.Outcome State Fault Refusal :=
  next (row s fun t => synthLock t path margin band.toNat cap.toNat)

def execLockFail (path : RfPath) (s : State) : Host.Outcome State Fault Refusal := next (row s fun t => lockFail t path)

def execTxCommand (path : RfPath) (use : PathUse) (chan : BitVec 14) (port : Fin 4) (index : BitVec 7) (s : State) :
    Host.Outcome State Fault Refusal :=
  next (row s fun t => txCommand t path use chan.toNat port index.toNat)

def execLocktimeout (path : RfPath) (s : State) : Host.Outcome State Fault Refusal := next (row s fun t => holdOver t path)

def execCarrierRampUp (path : RfPath) (s : State) : Host.Outcome State Fault Refusal := next (row s fun t => rampUp t path)

def execHop (path : RfPath) (chan : BitVec 14) (s : State) : Host.Outcome State Fault Refusal :=
  next (if pathMay s path then row s fun t => hop t path chan.toNat else violation s)

def execOverpower (path : RfPath) (s : State) : Host.Outcome State Fault Refusal := next (row s fun t => overpower t path)

/-! ### Bramble -/

def execSlotEmpty (path : RfPath) (s : State) : Host.Outcome State Fault Refusal :=
  next (if slotOpen s path then row s fun t => slotEnd (brmQuiet t) path .empty else s)

def execRn16Reply (path : RfPath) (replies : List Rn16Reply) (s : State) : Host.Outcome State Fault Refusal :=
  next (if slotOpen s path then row s fun t => rn16Reply (brmQuiet t) path replies else s)

def execAccessStepReply (path : RfPath) (reply : StepReply) (s : State) : Host.Outcome State Fault Refusal :=
  next (row s fun t => stepReply (brmQuiet t) path reply)

def execAccessStepTimeout (path : RfPath) (badCrc : Bool) (s : State) : Host.Outcome State Fault Refusal :=
  next (row s fun t => stepTimeout (brmQuiet t) path badCrc)

def execAuthFlintGrant (path : RfPath) (response : BitVec 128) (s : State) : Host.Outcome State Fault Refusal :=
  next (row s fun t => authGrant (brmQuiet t) path response)

def execEpcReplyMissing (path : RfPath) (s : State) : Host.Outcome State Fault Refusal :=
  next (row s fun t => epcMissing (brmQuiet t) path)

def execEpcReply (path : RfPath) (reply : EpcReply) (s : State) : Host.Outcome State Fault Refusal :=
  next (row s fun t => epcReply (brmQuiet t) path reply)

def execVisitEnd (path : RfPath) (s : State) : Host.Outcome State Fault Refusal :=
  next (row s fun t => visitEnd (programAbort (brmQuiet t) path) path)

def execHopInterval (path : RfPath) (s : State) : Host.Outcome State Fault Refusal := next (hopInterval (brmQuiet s) path)

def execRegulatoryDeadline (path : RfPath) (s : State) : Host.Outcome State Fault Refusal :=
  next (row s fun t => channelDeadline (brmQuiet t) path)

/-! ### HF reader -/

def execGuardEnd (s : State) : Host.Outcome State Fault Refusal := next (hfRow s guardEnd)

def execFoffWaitEnd (s : State) : Host.Outcome State Fault Refusal := next (foffWaitEnd s)

def execCardFrame (frame : CardFrame) (s : State) : Host.Outcome State Fault Refusal :=
  next (hfRow (hfBoundary s fun v => hfAwaits v.phase frame) fun t => cardFrame t frame)

def execAnswerTimeout (s : State) : Host.Outcome State Fault Refusal := next (hfRow (hfBoundary s fun _ => true) answerTimeout)

def execWtxRequest (inf : Byte) (s : State) : Host.Outcome State Fault Refusal :=
  next (hfRow (hfBoundary s fun v => hfInExchange v) fun t => onXchg t fun u v x => hfWtx u v x inf)

def execBlockTimeout (ruleBreak : Bool) (s : State) : Host.Outcome State Fault Refusal :=
  next (hfRow (hfBoundary s fun v => hfInExchange v) fun t => onXchg t fun u v x => hfBlockTimeout u v x ruleBreak)

def execOpen (lvl : Level) (entry : BitVec 10) (target : BitVec 7) (s : State) : Host.Outcome State Fault Refusal :=
  next (asWrite s lvl Adr.HF_IMM fun t => hfCommand t fun u => hfOpen u entry.toNat target.toNat)

def execXchg (lvl : Level) (s : State) : Host.Outcome State Fault Refusal :=
  next (row s fun r => asWrite r lvl Adr.HF_IMM fun t => hfCommand t fun u => hfInSession u 2 hfXchg)

def execRaw (lvl : Level) (s : State) : Host.Outcome State Fault Refusal :=
  next (row s fun r => asWrite r lvl Adr.HF_IMM fun t => hfCommand t fun u => hfInSession u 3 hfRaw)

def execClose (lvl : Level) (s : State) : Host.Outcome State Fault Refusal :=
  next (row s fun r => asWrite r lvl Adr.HF_IMM fun t => hfCommand t fun u => hfInSession u 4 hfClose)

def execSessionIdle (s : State) : Host.Outcome State Fault Refusal := next (row s sessionIdle)

/-! ### Node link -/

def execBrxWindowEnd (src : Fin 4) (s : State) : Host.Outcome State Fault Refusal := next (row s fun t => windowEnd t src)

def execListenEnd (s : State) : Host.Outcome State Fault Refusal := next (row s listenEnd)

def execImmAckSend (s : State) : Host.Outcome State Fault Refusal := next (row s immAckSend)

def execBeaconInstant (s : State) : Host.Outcome State Fault Refusal := next (row s beaconInstant)

end Sys2Proof.Machine
end

