-- ==== Sys2Proof/Machine/Access.lean ====
section
/-! DEFINITION. A permitted write of any register: field by field under the access codes of R8, with the registers whose writes
are commands sent to what they command (R8–R11, R32, R35, R581). -/

namespace Sys2Proof.Machine

open Sys2Proof

/-! ### Plain registers -/

/-- The stored effect of a write on the bits of a mask: RW stores, W1C clears, W1S sets; other fields stay (R8, R9, R11). -/
def storeFields (s : State) (a : Nat) (m v : Word) : State :=
  let rw := accMask a .rw &&& m
  let w := (reg s a &&& ~~~rw) ||| (v &&& rw)
  setReg s a (clearedBy s a w (v &&& m) ||| (v &&& m &&& accMask a .w1s))

/-- A plain write: the fields, and the SH bits of the mask into the shadow set (R32, R35). -/
def plainWrite (s : State) (a : Nat) (m v : Word) : State :=
  let sh := accMask a .sh
  let s1 := storeFields s a m v
  if sh &&& m == 0 then s1 else stageWord s1 a ((shadowReg s a &&& ~~~m) ||| (v &&& m))

/-- What a write of some bits of a register says as a whole: outside the mask, stored fields as they are and 0 for the rest. -/
def mergeWord (s : State) (a : Nat) (m v : Word) : Word :=
  (v &&& m) ||| (~~~m &&& ((reg s a &&& accMask a .rw) ||| (shadowReg s a &&& accMask a .sh)))

/-! ### Registers whose writes act -/

/-- A write of `QTZ_CMD` (R541, R558). -/
def qtzCmdWrite (s : State) (v : Word) : State :=
  let clr := bitsOf v 4 4 == 1
  if !keyOk (BitVec.ofNat 16 (bitsOf v 31 16)) then setQtzRes s 4
  else match bitsOf v 3 0 with
    | 1 => setTime s clr
    | 2 => setNowApply (setNow s clr)
    | 3 => cancelSet s
    | 4 => pwrRelease s
    | 5 => pwrAssert s
    | _ => setQtzRes s 4

/-- A write of `FIFO_CMD`: FLUSH applies where both are written (R500). -/
def fifoCmdWrite (s : State) (v : Word) : State :=
  let n := bitsOf v 2 0
  if bitsOf v 30 30 = 1 then flushChan s n else if bitsOf v 31 31 = 1 then dropPkt s n else s

/-- A write of `BRM_POOLw` into the shadow pool (R35, R275). -/
def poolWrite (s : State) (w : Nat) (v : Word) : State :=
  if flag s (cPend ⟨.brm, 0⟩) then setFlag s (cWrlock ⟨.brm, 0⟩)
  else { s with brm := { s.brm with poolShadow :=
    (s.brm.poolShadow.set (2 * w) (BitVec.ofNat 16 (bitsOf v 31 16))).set (2 * w + 1) (BitVec.ofNat 16 (bitsOf v 15 0)) } }

/-- A write of `MSP_HCMD` (R467). Whether a PROGRAM reads back well is free there (log entry 4). -/
def mspHcmd (s : State) (lvl : Level) (v : Word) : State :=
  let addr := BitVec.ofNat 24 (bitsOf v 23 0)
  match bitsOf v 31 28 with
  | 1 => mspReadCmd s lvl addr
  | 2 => let (w, t) := drawWord s
         mspProgramCmd t lvl addr (w.getLsbD 0)
  | 3 => mspEraseCmd s lvl addr
  | _ => s

/-- A write of `JNL_CMD` (R483). -/
def jnlCmdWrite (s : State) (lvl : Level) (v : Word) : State :=
  jcommand s lvl (BitVec.ofNat 16 (bitsOf v 31 16)) (bitsOf v 3 0)

/-- A write of `JNL_RDCMD` (R482). Whether the page is correctable is free there (log entry 4). -/
def jnlRdcmdWrite (s : State) (lvl : Level) (v : Word) : State :=
  if bitsOf v 31 31 = 1 then
    let (w, t) := drawWord s
    jread t lvl (BitVec.ofNat 21 (bitsOf v 20 0)) (w.getLsbD 0)
  else s

/-- A write of one register of timer `n` that acts (R510, R513, R519). -/
def tmrWrite (s : State) (n k : Nat) (v : Word) : Option State :=
  match k with
  | 3 => some (tmrCtrl s n v)
  | 4 => some (tmrCntWrite s n v)
  | 5 => some (tmrBufWrite s n v)
  | 6 => some (tmrCmpWrite s n 0 v)
  | 7 => some (tmrCmpWrite s n 1 v)
  | 8 => some (tmrCmpWrite s n 2 v)
  | 9 => some (tmrCmpWrite s n 3 v)
  | _ => none

/-- The acting registers of the SYS to TMR windows. -/
def actLow (s : State) (lvl : Level) (a : Nat) (v : Word) : Option State :=
  if a = Adr.SYS_MODECMD then some (modeCommand s lvl (BitVec.ofNat 16 (bitsOf v 31 16)) (bitsOf v 3 0))
  else if a = Adr.SYS_WAKEEN then some (wakeenWrite s v)
  else if a = Adr.SYS_BOOTCMD then some (bootCommand s lvl (BitVec.ofNat 16 (bitsOf v 31 16)) (bitsOf v 3 0))
  else if a = Adr.QTZ_CMD then some (qtzCmdWrite s v)
  else if a = Adr.QTZ_SHIFT then some (shiftRequest s v)
  else if a = Adr.QTZ_CDN then some (countdownWrite s v)
  else if 0x400 ≤ a ∧ a ≤ 0x4FF then tmrWrite s ((a - 0x400) / 16) (a % 16) v
  else if a = Adr.TMR_SNAP then some (tmrSnap s (bitsOf v 15 0))
  else if a = Adr.TMR_GCMD then some (tmrGcmd s v)
  else if Adr.TMR_TOUT 0 ≤ a ∧ a ≤ Adr.TMR_TOUT 7 then some (toutWrite s (a - Adr.TMR_TOUT 0) v)
  else none

/-- The acting registers of the FIFO to TAG windows. -/
def actMid (s : State) (lvl : Level) (a : Nat) (v : Word) : Option State :=
  if a = Adr.FIFO_CMD then some (fifoCmdWrite s v)
  else if Adr.BRM_POOL 0 ≤ a ∧ a ≤ Adr.BRM_POOL 63 then some (poolWrite s (a - Adr.BRM_POOL 0) v)
  else if a = Adr.BRM_IMM then some (immWrite s v)
  else if a = Adr.HF_IMM then some (row s fun t => hfImm t v)
  else if a = Adr.HF_TXLEN then some (hfTxlen s v)
  else if 0x1880 ≤ a ∧ a ≤ 0x18BF then some (hfBufWrite s (a - 0x1880) v)
  else if a = Adr.TAG_HCMD then some (tagHcmd s lvl v)
  else none

/-- The acting registers of the LNK to SGT windows. -/
def actHigh (s : State) (lvl : Level) (a : Nat) (v : Word) : Option State :=
  if a = Adr.LNK_TXCMD then some (txCmdWrite s v)
  else if a = Adr.CAL_CMD then some (calCmdWrite s lvl v)
  else if a = Adr.MSP_HCMD then some (mspHcmd s lvl v)
  else if a = Adr.JNL_CMD then some (jnlCmdWrite s lvl v)
  else if a = Adr.JNL_RDCMD then some (jnlRdcmdWrite s lvl v)
  else if a = Adr.SLT_CMD then some (sltCmdWrite s lvl v)
  else if a = Adr.SGT_CFG then some (sgtCfgWrite s v)
  else if a = Adr.SGT_SEL then some (sgtSelWrite s v)
  else none

/-- What a write does beyond storing fields, where it does anything. -/
def actWrite (s : State) (lvl : Level) (a : Nat) (v : Word) : Option State :=
  if a < 0x600 then actLow s lvl a v else if a < 0x1B00 then actMid s lvl a v else actHigh s lvl a v

/-! ### Any register -/

/-- A write of any register but a commit register: its fields take effect, then a reserved field written with 1 sets RANGE, which
the same write does not clear (R9, R10). -/
def otherWrite (s : State) (lvl : Level) (a : Nat) (m v : Word) : State :=
  rsvCheck ((actWrite s lvl a (mergeWord s a m v)).getD (plainWrite s a m v)) a (v &&& m)

/-- A permitted write of the bits of a mask of one populated register (R8–R11, R34, R87, R585). -/
def maskedWrite (s : State) (lvl : Level) (a : Nat) (m v : Word) : State :=
  match blockOf a with
  | some b =>
    if commitAddr b == a then commitWrite s b (v &&& m) else otherWrite s lvl a m v
  | none => otherWrite s lvl a m v

/-- A permitted write of one populated register. -/
def regWrite (s : State) (lvl : Level) (a : Nat) (v : Word) : State := maskedWrite s lvl a (BitVec.allOnes 32) v

/-- One write at a level (R10, R117, R134, R135): denied, out of range, or with its effect. -/
def execRegisterWrite (lvl : Level) (addr : BitVec 16) (value : Word) (s : State) : Host.Outcome State Fault Refusal :=
  let a := addr.toNat
  next (if populated a then asWrite s lvl a fun t => regWrite t lvl a value else setFlag s Fld.HSP_STAT_RANGE)

end Sys2Proof.Machine
end

