-- ==== Sys2Proof/Machine/Host.lean ====
section
/-! DEFINITION. The host serial port: selects, G2 frames, the G3 stream and G1 units (R78, R106–R136, R174, R577, R580,
R583–R585). -/

namespace Sys2Proof.Machine

open Sys2Proof

/-- The host's level (R129, R131, R138). -/
def hostLevel (s : State) : Level := if flag s Fld.PROT_LEVEL_LEVEL then .supervisor else .user

/-- The framing in force is G1 (R113). -/
def framingG1 (s : State) : Bool := flag s Fld.HSP_STAT_FRAMING

/-- A select is under way and its edges count: the port serves it and is ready (R78, R106, R110). -/
def serving (s : State) : Bool := !s.pins.hselN && s.pins.hrdy && s.host.frame != .ignoring && hostGate s != 0

/-- A result of the select in hand; the highest counts (R118). -/
def noteResult (s : State) (r : Nat) : State := setHost s { s.host with result := max s.host.result r }

/-- Bits carried on `HSO`. -/
def hsoPut (s : State) (bits : List Bool) : State := setHost s { s.host with hso := s.host.hso ++ bits }

/-! ### Frames and results -/

/-- The status word (R116). -/
def statusWord (s : State) : Word :=
  let w0 := putBits (putBits (putBits 0 31 24 0xA5) 23 21 (fld s Fld.HSP_STAT_LASTRES)) 20 19 (fld s Fld.PROT_LEVEL_LEVEL)
  let w1 := putBits (putBits (putBits w0 18 18 (if irqLow s then 1 else 0)) 17 17 (fld s Fld.SYS_BOOTSTAT_DONE)) 16 16
    (fld s Fld.SYS_BOOTSTAT_BARE)
  putBits (putBits (putBits w1 15 15 (if fld s Fld.SYS_STAT_SHED = 0 then 0 else 1)) 14 12 (mode s)) 11 0 (fld s Fld.HSP_STAT_FRAMESEQ)

/-- The header's bytes, and a frame's bytes, as they travel (R109, R114). -/
def headBytes (cmd addr count : Nat) : List Byte := BitVec.ofNat 8 cmd :: beBytes 2 addr ++ beBytes 2 count
def frameBytes (cmd addr count : Nat) (ws : List Word) : List Byte :=
  headBytes cmd addr count ++ ws.flatMap fun w => beBytes 4 w.toNat

/-- The frame in hand is over but for the rise of `HSEL_N`. -/
def frameDone (s : State) (r : Nat) : State :=
  let t := noteResult s r
  setHost t { t.host with frame := .done }

/-- A G2 frame may come now: a select that has carried nothing, framing G2, no stream, no frame held (R113, R122). -/
def g2Open (s : State) : Bool :=
  serving s && s.host.frame == .header && !framingG1 s && s.host.g3.isNone && s.host.held.isNone

/-- A G2 frame whose header is complete: the status word goes out (R116), a header that R114 does not allow is BADCMD, a wrong
CRC discards the frame (R118), the rest runs. -/
def g2Frame (s : State) (allowed crcOk : Bool) (zeros : Nat) (run : State → State) : State :=
  if !g2Open s then s
  else
    let t := hsoPut s (bitsMsb 32 (statusWord s).toNat ++ List.replicate zeros false)
    if !allowed then frameDone t 5 else if !crcOk then frameDone t 4 else run t

/-- The window that holds an address (R117, R576). -/
def windowOf (a : Nat) : Option Window := windows.find? fun w => w.first ≤ a && a ≤ w.last

/-- A word of a burst that began in a window is in range (R117, R577). -/
def inBurst (w : Option Window) (a : Nat) : Bool :=
  match w with
  | some x => x.first ≤ a && a ≤ x.last && populated a
  | none => false

def rangeFlag (s : State) : State := setFlag s Fld.HSP_STAT_RANGE

/-- One word of a READ: the state, the words read so far, the result (R117, R120, R135, R580). -/
def readOne (w : Option Window) (acc : State × List Word × Nat) (a : Nat) : State × List Word × Nat :=
  let s := acc.1
  if !inBurst w a then (rangeFlag s, acc.2.1 ++ [0], max acc.2.2 1)
  else if permitted s (hostLevel s) a false then
    let r := readWord s a
    (r.2, acc.2.1 ++ [r.1], acc.2.2)
  else (deny s (hostLevel s) a false, acc.2.1 ++ [0], max acc.2.2 2)

/-- A frame is admitted (R174). -/
def admitFrame (s : State) : State := setHost s { s.host with admittedAt := some s.clk.now, held := none }

/-- A READ runs (R120, R121): one that is cut has read only the words that came to be read, and has no CRC. -/
def readFrame (s : State) (addr count shifted : Nat) : State :=
  let cut : Bool := shifted < count
  let r := (List.range (min shifted count)).foldl (fun acc k => readOne (windowOf addr) acc (addr + k)) (admitFrame s, [], 0)
  let bytes := r.2.1.flatMap fun w => beBytes 4 w.toNat
  let t := hsoPut r.1 ((r.2.1.flatMap fun w => bitsMsb 32 w.toNat) ++ if cut then [] else bitsMsb 16 (crc16 bytes))
  frameDone (setHost t { t.host with reading := true, cut := cut }) r.2.2

/-- One word of a WRITE, against the protection `allowed` of the frame's first edge (R78, R117, R119, R135). Once a word has
brought a start at step 1, no frame is in hand. -/
def writeOne (allowed : Nat → Bool) (lvl : Level) (w : Option Window) (acc : State × Nat) (p : Nat × Word) : State × Nat :=
  let s := acc.1
  match hostGate s with
  | 0 => acc
  | 1 => (setFlag (setFlag s Fld.SYS_BOOTSTAT_HOSTWR) Fld.HSP_STAT_PRIV, max acc.2 2)
  | _ =>
    if !inBurst w p.1 then (rangeFlag s, max acc.2 1)
    else if allowed p.1 then (regWrite s lvl p.1 p.2, acc.2)
    else (deny s lvl p.1 true, max acc.2 2)

/-- A WRITE is applied (R119), at the level of its first edge. -/
def writeFrame (s : State) (lvl : Level) (addr : Nat) (ws : List Word) : State :=
  let r := ((List.range ws.length).zip ws).foldl
    (fun acc p => writeOne (fun a => permitted s lvl a true) lvl (windowOf addr) acc (addr + p.1, p.2)) (admitFrame s, 0)
  if r.1.boot.step = 1 then r.1 else frameDone r.1 r.2

/-- At SHED 4 a frame waits until HOSTGAP has passed since the last admitted one (R174). -/
def mustHold (s : State) : Bool :=
  fld s Fld.SYS_STAT_SHED == 4 && (match s.host.admittedAt with
    | some t => s.clk.now < t + ms (fld s Fld.SYS_SCHCFG_HOSTGAP)
    | none => false)

/-- Hold a READ or WRITE frame with `HRDY` low, or run it. -/
def holdOr (s : State) (f : HeldFrame) (run : State → State) : State :=
  if mustHold s then setHrdy (setHost s { s.host with held := some f }) false else run s

/-- STATUS; a header with a command byte outside the table is BADCMD (R114). -/
def execG2Status (addr count crc : BitVec 16) (s : State) (cmd : Byte := 0x80) : Host.Outcome State Fault Refusal :=
  next (g2Frame s (cmd == 0x80 && addr == 0 && count == 0)
    (crc.toNat == crc16 (headBytes cmd.toNat addr.toNat count.toNat)) 24 fun t => frameDone t 0)

/-- A READ, with the error states of the report words that it consumes (R501). -/
def execG2Read (addr count crc : BitVec 16) (s : State) (shifted : Nat := count.toNat) (ecc : List (Fin 3) := []) :
    Host.Outcome State Fault Refusal :=
  next (g2Frame s (1 ≤ count.toNat && count.toNat ≤ 1024) (crc.toNat == crc16 (headBytes 0x81 addr.toNat count.toNat)) 24
    fun t => holdOr (setHost t { t.host with ecc := ecc.map fun e => e.val }) (.read addr.toNat count.toNat shifted)
      fun u => readFrame u addr.toNat count.toNat shifted)

/-- A WRITE; one with fewer or more words than COUNT is no complete frame. -/
def execG2Write (addr count : BitVec 16) (words : List Word) (crc : BitVec 16) (s : State) : Host.Outcome State Fault Refusal :=
  let allowed := 1 ≤ count.toNat && count.toNat ≤ 256
  next (if allowed && words.length != count.toNat then s
    else g2Frame s allowed (crc.toNat == crc16 (frameBytes 0x82 addr.toNat count.toNat words)) (24 + 32 * words.length)
      fun t => holdOr t (.write addr.toNat words (hostLevel t)) fun u => writeFrame u (hostLevel u) addr.toNat words)

/-- HOSTGAP has passed: the held frame proceeds (R174). -/
def hostgap (s : State) : State :=
  match s.host.held with
  | none => s
  | some f =>
    let t := setHrdy (setHost s { s.host with held := none }) true
    match f with
    | .read a n k => readFrame t a n k
    | .write a ws lvl => writeFrame t lvl a ws

def execHostgapElapsed (s : State) : Host.Outcome State Fault Refusal := next (hostgap s)

/-! ### UNLOCK and LOCK (R132, R133) -/

/-- UNLOCK and STREAM are BADCMD before step 9 and in BARE (R121). -/
def fullyOpen (s : State) : Bool := hostGate s == 2 && !flag s Fld.SYS_BOOTSTAT_BARE

/-- The lockout runs. -/
def lockedOut (s : State) : Bool := s.host.lockout.any fun t => s.clk.now < t + ms 100

/-- The unlock code loaded by a KEY record (R92, R132). -/
def unlockCode (s : State) : Option Nat := (s.boot.keys.find? fun k => k.usage == 5).map fun k => leNat k.bytes

/-- An UNLOCK is compared. -/
def tryUnlock (s : State) (code : Word) : State :=
  if lockedOut s then frameDone (setFlag s Fld.HSP_STAT_PRIV) 2
  else if unlockCode s = some code.toNat then
    let t := frameDone s 0
    setHost t { t.host with raise := true }
  else
    let t := frameDone (raise (setFlag (incSat s Fld.HSP_UNLK_FAILS 1) Fld.HSP_STAT_PRIV) 7) 2
    setHost t { t.host with lockout := some s.clk.now }

def execUnlock (addr count : BitVec 16) (code : Word) (crc : BitVec 16) (s : State) : Host.Outcome State Fault Refusal :=
  next (g2Frame s (addr == 0 && count == 1 && fullyOpen s)
    (crc.toNat == crc16 (frameBytes 0x83 addr.toNat count.toNat [code])) 56 fun t => tryUnlock t code)

/-- The host returns to USER, but not in BARE (R132). -/
def toUser (s : State) : State :=
  if flag s Fld.SYS_BOOTSTAT_BARE then s
  else clrFld (setHost s { s.host with raise := false }) Fld.PROT_LEVEL_LEVEL

def execLock (addr count crc : BitVec 16) (s : State) : Host.Outcome State Fault Refusal :=
  next (g2Frame s (addr == 0 && count == 0) (crc.toNat == crc16 (headBytes 0x84 addr.toNat count.toNat)) 24
    fun t => frameDone (toUser t) 0)

/-- The lockout ends (R133). -/
def execUnlockLockoutEnd (s : State) : Host.Outcome State Fault Refusal := next (setHost s { s.host with lockout := none })

/-- No G2 frame has completed for SUPIDLE seconds (R132). -/
def execSupidleLapse (s : State) : Host.Outcome State Fault Refusal :=
  next (if fld s Fld.HSP_CFG_SUPIDLE ≠ 0 then toUser s else s)

/-! ### G3 (R122–R126) -/

/-- STREAM with read permission at the data port begins G3; without it the word is denied (R122, R126, R135). -/
def streamBegin (s : State) (n count : Nat) : State :=
  if permitted s (hostLevel s) (Adr.FIFO_PORT n) false then
    let t := frameDone s 0
    setHost t { t.host with g3 := some { chan := n, left := count } }
  else frameDone (deny s (hostLevel s) (Adr.FIFO_PORT n) false) 2

def execStream (addr count crc : BitVec 16) (s : State) : Host.Outcome State Fault Refusal :=
  next (g2Frame s (addr.toNat < 8 && count != 0 && fullyOpen s)
    (crc.toNat == crc16 (headBytes 0x85 addr.toNat count.toNat)) 24 fun t => streamBegin t addr.toNat count.toNat)

/-- Up to `n` bits of a unit go out, each at an edge of the consumer's clock (R494); `after` is the machine once the unit is consumed, at its last bit (R123). -/
def g3Shift (s after : State) (g : G3Run) (n : Nat) (u : BitVec 40) : State :=
  let k := min n (40 - g.bits)
  let full := g.bits + k == 40
  putG3 (hsoPut (viewEdges (if full then after else s) g.chan k) (((bitsMsb 40 u.toNat).drop g.bits).take k))
    (some { g with bits := if full then 0 else g.bits + k, notValid := g.notValid && !full, todo := g.todo - k,
                   sel := g.sel + k, ecc := if full && !g.notValid then g.ecc.drop 1 else g.ecc, waiting := false })

/-- Serve the edges given so far, unit by unit; edges past the transfer's length shift out 0 (R123, R125). -/
def g3Serve : Nat → State → State
  | 0, s => s
  | f + 1, s =>
    match s.host.g3 with
    | none => s
    | some g =>
      let room := fld s Fld.HSP_LEN_LEN - g.sel
      let n := min g.todo room
      if g.todo = 0 ∨ g.waiting then s
      else if room = 0 then putG3 (hsoPut (viewEdges s g.chan g.todo) (List.replicate g.todo false)) (some { g with todo := 0, extra := true })
      else if g.notValid then g3Serve f (g3Decide (g3Shift s s g n notValid))
      else
        let q := consume s g.chan (g.ecc.headD 0)
        match q.1 with
        | some u => g3Serve f (g3Decide (g3Shift s q.2 g n u))
        | none => g3Serve f (g3Decide s)

/-- A transfer has at most 4,096 bits and so at most 105 units and parts of units. -/
def g3Bound : Nat := 256

/-- A wait ends: `HRDY` is high again, the boundary is decided anew, and the edges still to come go on. -/
def g3Go (s : State) : State :=
  match s.host.g3 with
  | none => s
  | some g => g3Serve g3Bound (g3Decide (setHrdy (putG3 s (some { g with waiting := false })) true))

/-- A G3 read that waits goes on as soon as its consumer sees an item, or nothing holds it any more (R125, R499). -/
def g3Wake (s : State) : State :=
  match s.host.g3 with
  | none => s
  | some g => if g.waiting && ((chanTake s.clk.now (chan s g.chan)).isSome || !g3Waits s g.chan) then g3Go s else s

/-- The write bank is handed to the consumer when the conditions of R490 hold. -/
def execBankHandover (ch : Fin 9) (s : State) : Host.Outcome State Fault Refusal := next (g3Wake (handover s ch))

/-- A DROP_PKT or FLUSH skip completes, and a G3 read that waited for it may go on (R499); the error states are those of the words it
skips (R501). -/
def execSkipEnd (ch : Fin 8) (s : State) (ecc : List (Fin 3) := []) : Host.Outcome State Fault Refusal :=
  next (if (chan s ch).skip = .none then s else g3Wake (skipRun s ch (ecc.map fun e => e.val)))

/-- Edges of the transfer in hand (R123), given while `HRDY` is high; the error states are those of the words it consumes. -/
def g3Transfer (s : State) (edges : Nat) (ecc : List Nat) : State :=
  match s.host.g3 with
  | none => s
  | some g =>
    if !g.opened || s.pins.hselN || s.host.frame == .ignoring || hostGate s == 0 || !running s then s
    else g3Wake (g3Serve g3Bound
      (putG3 (setHost s { s.host with frame := .done }) (some { g with todo := g.todo + edges, ecc := g.ecc ++ ecc })))

def execG3Transfer (edges : Nat) (ecc : List (Fin 3)) (s : State) : Host.Outcome State Fault Refusal :=
  next (g3Transfer s edges (ecc.map fun e => e.val))

/-- HSP_STALL_MAX passes during a wait (R125, R499): a NOT_VALID unit goes out, and a skip goes on. -/
def g3Stall (s : State) : State :=
  match s.host.g3 with
  | some g =>
    if g.waiting then
      let t := noteResult (setFlag s Fld.HSP_STAT_STALL) 3
      g3Go (putG3 t (some { g with waiting := false, notValid := true }))
    else s
  | none => s

def execG3StallTimeout (s : State) : Host.Outcome State Fault Refusal := next (g3Stall s)

/-- `HSEL_N` stays high longer than G3IDLE (R122). -/
def execG3IdleExpiry (s : State) : Host.Outcome State Fault Refusal := next (if s.pins.hselN then putG3 s none else s)

/-! ### G1 (R127–R129, R583–R585) -/

/-- The register of a G1 byte address (R583). -/
def g1Reg (a : Nat) : Option Nat :=
  let word : Option Nat := match a / 4 with
    | 0x00 => some Adr.HSP_STAT | 0x01 => some Adr.SYS_MODE | 0x02 => some Adr.HSP_INT0 | 0x03 => some Adr.HSP_INT1
    | 0x04 => some Adr.HSP_IMASK0 | 0x05 => some Adr.HSP_IMASK1 | 0x06 => some Adr.SYS_BOOTSTAT | 0x07 => some Adr.SYS_STAT
    | 0x08 => some Adr.QTZ_TIME0 | 0x09 => some Adr.QTZ_TIME1 | 0x0A => some Adr.QTZ_Q64L | 0x0B => some Adr.QTZ_Q64H
    | 0x0C => some (Adr.FIFO_PORT 0) | 0x0D => some (Adr.FIFO_TAG 0) | 0x0E => some (Adr.FIFO_PORT 7)
    | 0x0F => some (Adr.FIFO_TAG 7) | 0x10 => some (Adr.FIFO_CH_STAT 0) | 0x11 => some (Adr.FIFO_CH_STAT 7)
    | 0x14 => some Adr.BRM_CNT0 | 0x15 => some Adr.BRM_STAT | 0x16 => some Adr.SGT_STAT | 0x18 => some Adr.RAD_STATE
    | 0x19 => some Adr.RAD_STAT | 0x1C => some Adr.SYS_LOAD | 0x1F => some Adr.SYS_ID | _ => none
  if (a / 4 = 0x0D ∨ a / 4 = 0x0F) ∧ a % 4 ≠ 0 then none else word

/-- Every byte of these returns the last time snapshot, unlatched (R584). -/
def g1Unlatched (r : Nat) : Bool := r == Adr.QTZ_TIME1 || r == Adr.QTZ_Q64L || r == Adr.QTZ_Q64H

/-- Bits [15:8] on `HSO` of a unit (R127). -/
def g1Status (s : State) : Nat :=
  (if irqLow s then 128 else 0) + 64 * fld s Fld.SYS_BOOTSTAT_DONE + (if s.host.g1Bad then 32 else 0)

/-- A unit has gone: its data byte, its outcome, and whether bit 5 of the next unit's status tells of it. -/
def g1Unit (s0 s : State) (data : Byte) (r : Nat) (bad : Bool) : State :=
  let t := noteResult (hsoPut s (bitsMsb 8 (g1Status s0) ++ bitsMsb 8 data.toNat)) r
  setHost t { t.host with frame := .done, g1Bad := bad }

/-- A read unit: byte 0 reads the register and latches it; bytes 1 to 3 come from the latch (R128, R129, R584). -/
def g1ReadUnit (s : State) (a : Nat) : State :=
  match g1Reg a with
  | none => g1Unit s (rangeFlag s) 0 1 true
  | some r =>
    if a % 4 ≠ 0 ∧ ¬g1Unlatched r then g1Unit s s (wordByte ((regFind s.host.g1Latch r).getD 0) (a % 4)) 0 false
    else if permitted s (hostLevel s) r false then
      let x := readWord s r
      let t := if g1Unlatched r then x.2 else setHost x.2 { x.2.host with g1Latch := regPut x.2.host.g1Latch r x.1 }
      g1Unit s t (wordByte x.1 (a % 4)) 0 false
    else
      let t := deny s (hostLevel s) r false
      g1Unit s (if g1Unlatched r then t else setHost t { t.host with g1Latch := regPut t.host.g1Latch r 0 }) 0 2 true

/-- A write unit changes only its byte (R128, R585); before step 9 it is ignored (R78). -/
def g1WriteUnit (s : State) (a : Nat) (data : Byte) : State :=
  if hostGate s = 1 then
    let t := setFlag (setFlag s Fld.SYS_BOOTSTAT_HOSTWR) Fld.HSP_STAT_PRIV
    g1Unit s (if (g1Reg a).isNone then rangeFlag t else t) 0 2 (g1Reg a).isNone
  else match g1Reg a with
  | none => g1Unit s (rangeFlag s) 0 1 true
  | some r =>
    let k := 8 * (a % 4)
    if permitted s (hostLevel s) r true then
      g1Unit s (maskedWrite s (hostLevel s) r (maskOf (k + 7) k) (BitVec.ofNat 32 (data.toNat <<< k))) 0 0 false
    else g1Unit s (deny s (hostLevel s) r true) 0 2 true

/-- A read unit; the error state is that of the report word it consumes, if it does (R501). -/
def execG1Read (addr : BitVec 7) (s : State) (ecc : Fin 3 := 0) : Host.Outcome State Fault Refusal :=
  next (if serving s && framingG1 s then g1ReadUnit (setHost s { s.host with ecc := [ecc.val] }) addr.toNat else s)

def execG1Write (addr : BitVec 7) (data : Byte) (s : State) : Host.Outcome State Fault Refusal :=
  next (if serving s && framingG1 s then g1WriteUnit s addr.toNat data else s)

/-! ### The select -/

/-- `HSEL_N` falls (R20, R61, R62, R78, R107, R112): the select begins and fires HOSTSEL; a sleeping core wakes first, with `HRDY`
low. -/
def hselFall (s : State) (hsck : Bool) : State :=
  if !s.pins.hselN then s
  else
    let gate := hostGate s
    let t := { s with
      pins := { s.pins with hselN := false }
      host := { s.host with frame := if gate = 0 then .ignoring else .header, result := 0, idleHigh := hsck, hso := [],
                            reading := false, cut := false, g1Bad := false, held := none, ecc := [] } }
    if gate = 0 then t
    else
      let u := fireWake (setHrdy t (!(mode s == 1 || mode s == 2))) 7
      if running u then g3Begin u else u

def execHselFall (hsck : Bool) (s : State) : Host.Outcome State Fault Refusal := next (hselFall s hsck)

/-- An edge while `HRDY` is low (R111): UNDERRUN; a held frame is discarded, words already applied or read stand, and a G3 read that
waits takes no further edge. -/
def execUnderrun (s : State) : Host.Outcome State Fault Refusal :=
  next (if s.pins.hselN || s.host.frame == .ignoring || hostGate s == 0 then s
    else setHost s { s.host with
      frame := .ignoring
      result := 7
      held := none
      g3 := s.host.g3.map fun g => { g with waiting := false, todo := 0 } })

/-- The result of a frame, with its flags and counters (R118, R121, R130, R139, R142). -/
def endFrame (s : State) (r : Nat) (extra : Bool) : State :=
  let s1 := setFld s Fld.HSP_STAT_LASTRES r
  let s2 := if r ≤ 3 then incMod s1 Fld.HSP_STAT_FRAMESEQ 1 else raise s1 6
  let s3 := match r with
    | 3 => setFlag s2 Fld.HSP_STAT_STALL
    | 4 => incSat (setFlag s2 Fld.HSP_STAT_CRC) Fld.HSP_CNT1_CRCERR 1
    | 5 => setFlag s2 Fld.HSP_STAT_BADCMD
    | 6 => incSat (setFlag s2 Fld.HSP_STAT_ABORT) Fld.HSP_CNT0_ABORT 1
    | 7 => setFlag s2 Fld.HSP_STAT_UNDERRUN
    | _ => s2
  if extra && r ≤ 4 then incSat (setFlag s3 Fld.HSP_STAT_EXTRA) Fld.HSP_CNT0_EXTRA 1 else s3

/-- A G3 select ends: complete, short, or UNDERRUN; the last one ends G3 (R122–R124). The next transfer goes on where a complete
one stopped, and at bit 39 of the first unit not consumed after any other. -/
def g3End (s0 : State) (g0 : G3Run) (more : Bool) : State :=
  let s := if s0.host.frame != .ignoring then g3Wake s0 else s0
  let g := s.host.g3.getD g0
  let cut := s.host.result = 7
  let short := g.sel < fld s Fld.HSP_LEN_LEN
  let r := if cut then 7 else if short then max s.host.result 6 else s.host.result
  let g1 : G3Run := { chan := g.chan, left := g.left - 1, bits := if cut || short then 0 else g.bits,
                      notValid := !(cut || short) && g.notValid, opened := true }
  endFrame (putG3 s (if g.left ≤ 1 then none else some g1)) r (!(cut || short) && (g.extra || more))

/-- A G2 or G1 select ends (R121, R128). -/
def frameEnd (s : State) (e : SelectEnd) : State :=
  let g1 := framingG1 s
  let short := s.host.result != 7 &&
    (if g1 then e == .short else s.host.frame == .header || (s.host.reading && (e == .short || s.host.cut)))
  let r := if short then max s.host.result 6 else s.host.result
  let t := endFrame s r (e == .extra && !g1)
  if !g1 && r ≤ 3 then setHost t { t.host with frameAt := t.clk.now } else t

/-- The rise of `HSEL_N` is the host transaction boundary: a raised level takes effect (R109, R132). -/
def hselDone (s : State) : State :=
  let t := { s with
    pins := { s.pins with hselN := true }
    host := { s.host with frame := .header, result := 0, reading := false, cut := false, held := none, raise := false } }
  if s.host.raise then setFlag t Fld.PROT_LEVEL_LEVEL else t

/-- What the select in hand leaves; one that the port ignored ends without a result (R78). -/
def selectEnds (s : State) (e : SelectEnd) : State :=
  if hostGate s = 0 ∨ (s.host.frame = .ignoring ∧ s.host.result = 0) then s
  else match s.host.g3 with
    | some g => if g.opened then g3End s g (e == .extra) else putG3 (frameEnd s e) (some { g with opened := true })
    | none => frameEnd s e

/-- `HSEL_N` rises, the boundary of PROT and HSP, whose pending sets come into force (R38, R109, R136). -/
def hselRise (s : State) (e : SelectEnd) : State := if s.pins.hselN then s else settle (hselDone (selectEnds s e))

def execHselRise (edges : SelectEnd) (s : State) : Host.Outcome State Fault Refusal := next (hselRise s edges)

end Sys2Proof.Machine
end

