-- ==== Sys2Proof/Machine/Records.lean ====
section
/-! DEFINITION. The records of a configuration image (R84–R96, R102, R563, R612). -/

namespace Sys2Proof.Machine

open Sys2Proof

/-- What a record left, and the reason and block ID of its refusal (R94, R102). -/
abbrev RecResult := State × Option (Nat × Nat)

/-! Record-level reasons (R102). -/

def rsnAddr : Nat := 0x20
def rsnKey : Nat := 0x21
def rsnNorwrite : Nat := 0x22

/-- Apply steps in order until one is refused (R94). -/
def untilRefused {α : Type} (f : State → α → RecResult) (s : State) (l : List α) : RecResult :=
  l.foldl (fun (p : RecResult) x => match p.2 with
    | some _ => p
    | none => f p.1 x) (s, none)

/-- A commit that a record causes, with its outcome (R94). -/
def recCommit (s : State) (b : BlockInst) : RecResult :=
  let r := commitNow s b
  (r.1, r.2.map fun why => (why, blockId b.block))

/-- A record has been dealt with: a refusal is counted, and the first one recorded (R96, R101, R102). -/
def recDone (r : RecResult) : State :=
  let s := { r.1 with boot := { r.1.boot with recs := r.1.boot.recs + 1 } }
  match r.2 with
  | none => s
  | some (why, id) =>
    let first := fld s Fld.SYS_BOOTSTAT_REFUSED == 0
    let t := incSat s Fld.SYS_BOOTSTAT_REFUSED 1
    if first then
      setFld (setFld (setFld t Fld.SYS_BOOTREC_FIRSTREF r.1.boot.recs) Fld.SYS_BOOTREC_REASON why) Fld.SYS_BOOTREC_BLOCKID id
    else t

/-! ### REG and BLOCK (R87, R88) -/

/-- A command register, which no record may write (R87). -/
def cmdReg (a : Nat) : Bool := a == Adr.SYS_MODECMD || a == Adr.SYS_BOOTCMD

/-- A triple refused with ADDR. -/
def tripleBad (t : RegTriple) : Bool :=
  !populated t.addr.toNat || cmdReg t.addr.toNat || t.mask &&& accMask t.addr.toNat .ro != 0

/-- One triple is written (R87): on a commit register DISCARD and COMMIT act as R34 states. -/
def tripleWrite (s : State) (t : RegTriple) : RecResult :=
  let a := t.addr.toNat
  match blockOf a with
  | some b =>
    if commitAddr b == a then
      let v := t.value &&& t.mask
      let s1 := commitWrite s b (v &&& ~~~1#32)
      if v.getLsbD 0 then recCommit s1 b else (s1, none)
    else (maskedWrite s .firmware a t.mask t.value, none)
  | none => (maskedWrite s .firmware a t.mask t.value, none)

/-- A REG record (R87): every triple is checked before any is written. -/
def regRec (s : State) (ts : List RegTriple) : RecResult :=
  if ts.any tripleBad then (s, some (rsnAddr, 0xFF)) else untilRefused tripleWrite s ts

/-- A BLOCK word that refuses the record: unpopulated, a command register, or no field to write (R87). -/
def blockWordBad (a : Nat) : Bool :=
  !populated a || cmdReg a ||
    (accMask a .rw ||| accMask a .wo ||| accMask a .w1c ||| accMask a .w1s ||| accMask a .sh) == 0

/-- The block instances that addresses belong to, by ascending commit register (R88). -/
def blocksOf (as_ : List Nat) : List BlockInst :=
  (as_.filterMap blockOf).dedup.insertionSort fun b c => commitAddr b ≤ commitAddr c

/-- A BLOCK record (R87, R88). -/
def blockRec (s : State) (a : Nat) (ws : List Word) (commit : Bool) : RecResult :=
  let as_ := (List.range ws.length).map fun k => a + k
  if as_.any blockWordBad then (s, some (rsnAddr, 0xFF))
  else
    let ps := (as_.zip ws).filter fun p => !isCommit p.1
    let s1 := ps.foldl (fun t p => regWrite t .firmware p.1 p.2) s
    if commit then untilRefused recCommit s1 (blocksOf (ps.map fun p => p.1)) else (s1, none)

/-! ### SLATE (R89) -/

/-- The bytes an entry of a record is stored as: CLASS 0x00 erases (R246, R248). -/
def recEntry (e : Entry) : Entry := if eClass e = 0 then erasedEntry else withCrc e

/-- The first entry refused, by index and reason (R89, R242). -/
def slateRefusal (s : State) (es : List (Nat × Entry)) : Option (Nat × Nat) :=
  es.findSome? fun p =>
    if 1024 ≤ p.1 ∨ p.2.length ≠ 64 then some (p.1, rsnRange)
    else if eClass p.2 = 0 then none
    else
      let why := slateReason s p.1 (withCrc p.2)
      if why = 0 then none else some (p.1, why)

/-- An entry needs writing: not kept by PRESERVE, and other than what is stored. -/
def slateNeeds (s : State) (preserve : Bool) (p : Nat × Entry) : Bool :=
  !(preserve && entryValid (storedEntry s p.1)) && storedEntry s p.1 != recEntry p.2

/-- A sector's bytes with several entries replaced. -/
def sectorWithAll (s : State) (a : Nat) (es : List (Nat × Entry)) : List Byte :=
  es.foldl (fun b p => b.take (64 * (p.1 % 64)) ++ recEntry p.2 ++ b.drop (64 * (p.1 % 64) + 64)) (sectorBytes s a)

/-- One sector rewrite (R89, R248): its entries come into force, or a second failed read-back refuses the record. -/
def slateSectorRec (bad : List Nat) (s : State) (es : List (Nat × Entry)) : RecResult :=
  match es with
  | [] => (s, none)
  | (i, _) :: _ =>
    let a := slateSector i
    if bad.contains a then
      let old := sectorBytes s a
      let s1 := sectorTorn s a [sectorWithAll s a es, erasedSector]
      let s2 := { s1 with slate := { s1.slate with copied := s1.slate.copied.filter (fun p => p.1 != a) ++ [(a, old)] } }
      (fault (sltResult s2 4) 0x11 0 0x0A (leBytes 2 i), some (rsnNorwrite, 0xFF))
    else (es.foldl (fun t p => sltForce t p.1 (recEntry p.2)) (sltResult (sectorProgram s i (sectorWithAll s a es)) 1), none)

/-- A SLATE record (R89): all entries are validated before any is written, and a refusal shows as that of a WRITE does (R248); one
rewrite for each sector, ascending. -/
def slateRec (s : State) (first : Nat) (preserve : Bool) (entries : List Entry) (bad : List Nat) : RecResult :=
  let es := (List.range entries.length).zip entries |>.map fun p => (first + p.1, p.2)
  match slateRefusal s es with
  | some (i, why) => (sltRefuse s i why, some (why, 0x11))
  | none =>
    let need := es.filter (slateNeeds s preserve)
    untilRefused (slateSectorRec bad) s ((List.range 16).map fun k => need.filter fun p => p.1 / 64 == k)

/-! ### HEDGE (R90) -/

/-- Children of a Hedge over a record's entries and the Hedges in force. -/
def recKids (s : State) (es : List HedgeEntry) (n : Nat) : List Nat :=
  match es.reverse.find? fun e => e.index.toNat == n with
  | some e => (e.child.take e.nchild.toNat).map fun c => c.toNat
  | none => hedgeKids s n

/-- Depth over a record's entries and the Hedges in force, looking down a number of levels; a cycle runs through them all. -/
def recDepth (s : State) (es : List HedgeEntry) : Nat → Nat → Nat
  | 0, _ => 0
  | d + 1, n =>
    1 + ((recKids s es n).filterMap fun c => if 0x40 ≤ c ∧ c ≤ 0x5F then some (recDepth s es d (c - 0x40)) else none).foldl max 0

/-- More levels than there are Hedges: only a cycle is as deep. Depths are compared up to 8, beyond which R25 refuses. -/
def cycleFrom (s : State) (es : List HedgeEntry) (n : Nat) : Bool :=
  let step (l : List Nat) : List Nat :=
    (l.flatMap fun h => (recKids s es h).filterMap fun c => if 0x40 ≤ c ∧ c ≤ 0x5F then some (c - 0x40) else none).dedup
  (List.range 32).foldl (fun (p : List Nat × Bool) _ => let l := step p.1; (l, p.2 || l.contains n)) ([n], false) |>.2

/-- One Hedge entry into its shadow set (R90, R231). -/
def hedgeStage (s : State) (e : HedgeEntry) : State :=
  let n := e.index.toNat
  let w (l : List Byte) (k : Nat) : Word := BitVec.ofNat 32 (leNat ((l.drop (4 * k)).take 4))
  let s1 := stageWord s (Adr.HDG_CFG n) (BitVec.ofNat 32 (e.nchild.toNat * 2 ^ 16 + e.roles.toNat))
  stageWord (stageWord (stageWord (stageWord s1 (Adr.HDG_CHILD0 n) (w e.child 0)) (Adr.HDG_CHILD1 n) (w e.child 1))
    (Adr.HDG_WEIGHT0 n) (w e.weight 0)) (Adr.HDG_WEIGHT1 n) (w e.weight 1)

/-- NCHILD is 0, or more than its field of the shadow set holds: R90 gives 1 to 8. -/
def nchildBad (es : List HedgeEntry) (n : Nat) : Bool :=
  (es.reverse.find? fun e => e.index.toNat == n).any fun e => e.nchild.toNat == 0 || 15 < e.nchild.toNat

/-- One entry's commit; one whose NCHILD the shadow set cannot show is refused with RANGE, and an entry of a cycle with TREE (R90,
R232). -/
def hedgeCommit (s0 : State) (es : List HedgeEntry) (s : State) (n : Nat) : RecResult :=
  if nchildBad es n then (refuseSet s ⟨.hdg, n⟩ rsnRange, some (rsnRange, 0x08))
  else if cycleFrom s0 es n then (refuseSet s ⟨.hdg, n⟩ rsnTree, some (rsnTree, 0x08)) else recCommit s ⟨.hdg, n⟩

/-- An entry that names no Hedge, or is no 24 bytes (R90). -/
def hedgeEntryBad (e : HedgeEntry) : Bool := 32 ≤ e.index.toNat || e.child.length != 8 || e.weight.length != 8

/-- A HEDGE record (R90): commits by depth, then by number. The entries of a cycle come last; one that leads into a cycle without lying on
it counts as 8 deep, comes before them, and is refused with REF (DESIGN CHOICE, log entry 40). -/
def hedgeRec (s : State) (es : List HedgeEntry) : RecResult :=
  if es.any hedgeEntryBad then (s, some (rsnRange, 0x08))
  else
    let ns := (es.map fun e => e.index.toNat).dedup
    let key (n : Nat) : Nat := (if cycleFrom s es n then 9 else recDepth s es 8 n) * 32 + n
    untilRefused (hedgeCommit s es) (es.foldl hedgeStage s) (ns.insertionSort fun a b => key a ≤ key b)

/-! ### CAL, KEY and PROT (R91–R93) -/

/-- A CAL record; TRUSTED marks the instance (R91, R99). -/
def calRec (s : State) (item inst : Nat) (trusted : Bool) (ws : List Word) : RecResult :=
  let r := calLoad s item inst ws
  match r.2 with
  | some _ => r
  | none =>
    if trusted then ({ r.1 with boot := { r.1.boot with trusted := (r.1.boot.trusted ++ [(item, inst)]).dedup } }, none) else r

/-- Length of a key of a usage; 0 for no usage (R92). -/
def keyLen (usage : Nat) : Nat :=
  match usage with
  | 1 => 16 | 2 => 16 | 3 => 4 | 4 => 16 | 5 => 4 | _ => 0

/-- A KEY record (R92). -/
def keyRec (s : State) (usage slot : Nat) (key : List Byte) : RecResult :=
  if keyLen usage = 0 ∨ key.length ≠ keyLen usage ∨ 31 < slot ∨ (usage = 5 ∧ slot ≠ 0) then (s, some (rsnKey, 0xFF))
  else ({ s with boot := { s.boot with
    keys := s.boot.keys.filter (fun k => !(k.usage == usage && k.slot == slot)) ++ [⟨usage, slot, key⟩] } }, none)

/-- A PROT record: the descriptors into the shadow set, and one commit (R93). -/
def protRec (s : State) (es : List ProtEntry) : RecResult :=
  if es.any fun e => 32 ≤ e.index.toNat then (s, some (rsnRange, 0x01))
  else
    let s1 := es.foldl (fun t e =>
      stageWord (stageWord t (Adr.PROT_RANGE e.index.toNat) (BitVec.ofNat 32 (e.last.toNat * 2 ^ 16 + e.first.toNat)))
        (Adr.PROT_PERM e.index.toNat) (BitVec.ofNat 32 e.perms.toNat)) s
    recCommit s1 ⟨.prot, 0⟩

/-! ### Commands -/

def execRegRecord (triples : List RegTriple) (s : State) : Host.Outcome State Fault Refusal := next (recDone (regRec s triples))

def execBlockRecord (addr : BitVec 16) (words : List Word) (commit : Bool) (s : State) : Host.Outcome State Fault Refusal :=
  next (recDone (blockRec s addr.toNat words commit))

def execSlateRecord (first : Fin 1024) (preserve : Bool) (entries : List (List Byte)) (badSectors : List Nat) (s : State) :
    Host.Outcome State Fault Refusal :=
  next (recDone (slateRec s first.val preserve entries badSectors))

def execHedgeRecord (entries : List HedgeEntry) (s : State) : Host.Outcome State Fault Refusal :=
  next (recDone (hedgeRec s entries))

/-- A CAL record with a wrong word count makes its image fail STRUCT before any record is applied (R85, R563): as a command it only names
the CAL block. -/
def execCalRecord (item inst : Byte) (trusted : Bool) (words : List Word) (s : State) : Host.Outcome State Fault Refusal :=
  next (if calCountOk item.toNat inst.toNat words.length then recDone (calRec s item.toNat inst.toNat trusted words)
    else setFld s Fld.SYS_BOOTREC_BLOCKID 0x0F)

def execKeyRecord (usage : Byte) (slot : BitVec 5) (key : List Byte) (s : State) : Host.Outcome State Fault Refusal :=
  next (recDone (keyRec s usage.toNat slot.toNat key))

def execProtRecord (entries : List ProtEntry) (s : State) : Host.Outcome State Fault Refusal :=
  next (recDone (protRec s entries))

/-- A record of unknown type is passed over, and a fault record tells of it (R85, R503). -/
def recSkip (s : State) (index type : Nat) : State :=
  let t := { s with boot := { s.boot with recs := s.boot.recs + 1 } }
  fault t 0x00 0 0x04 (leBytes 2 index ++ [BitVec.ofNat 8 type])

def execRecskip (index : BitVec 16) (type : Byte) (s : State) : Host.Outcome State Fault Refusal :=
  next (recSkip s index.toNat type.toNat)

/-! ### A record as an image holds it -/

/-- Chunks of a number of bytes; a last short one is left out. -/
def chunks (n : Nat) : Nat → List Byte → List (List Byte)
  | 0, _ => []
  | f + 1, bs => if bs.length < n then [] else bs.take n :: chunks n f (bs.drop n)

def parseTriple (b : List Byte) : RegTriple :=
  { addr := BitVec.ofNat 16 (leNat (b.take 2)), mask := BitVec.ofNat 32 (leNat ((b.drop 4).take 4)),
    value := BitVec.ofNat 32 (leNat ((b.drop 8).take 4)) }

def parseHedge (b : List Byte) : HedgeEntry :=
  { index := b.getD 0 0, nchild := b.getD 1 0, roles := BitVec.ofNat 16 (leNat ((b.drop 2).take 2)),
    child := (b.drop 4).take 8, weight := (b.drop 12).take 8 }

def parseProt (b : List Byte) : ProtEntry :=
  { index := b.getD 0 0, perms := b.getD 1 0, first := BitVec.ofNat 16 (leNat ((b.drop 2).take 2)),
    last := BitVec.ofNat 16 (leNat ((b.drop 4).take 2)) }

/-- Apply one record of an image (R86). A KEY record with other ARG bits set names no slot. -/
def applyRec (s : State) (bad : List Nat) (r : Rec) : RecResult :=
  let n := r.payload.length
  let bit0 := r.flags.testBit 0
  match r.type with
  | 1 => regRec s ((chunks 12 n r.payload).map parseTriple)
  | 2 => blockRec s r.arg (packWords r.payload) bit0
  | 3 => slateRec s r.arg bit0 (chunks 64 n r.payload) bad
  | 4 => hedgeRec s ((chunks 24 n r.payload).map parseHedge)
  | 5 => calRec s (r.arg % 256) (r.arg / 256) bit0 (packWords r.payload)
  | 6 => if r.arg / 2 ^ 16 ≠ 0 ∨ r.arg % 256 / 32 ≠ 0 then (s, some (rsnKey, 0xFF))
         else keyRec s (r.arg / 256) (r.arg % 32) r.payload
  | 7 => protRec s ((chunks 8 n r.payload).map parseProt)
  | _ => (s, none)

/-- One record of step 6: applied, or passed over (R85); END is no record to apply. -/
def stepRec (bad : List Nat) (s : State) (r : Rec) : State :=
  if r.type = 0x7F then s
  else if knownType r.type then recDone (applyRec s bad r)
  else recSkip s s.boot.recs r.type

end Sys2Proof.Machine
end

