-- ==== Sys2Proof/Machine/Startup.lean ====
section
/-! DEFINITION. The start-up sequence: steps 1 to 9, the choice of an image, BARE, and the command RUN (R74–R80, R83, R95–R100,
R347, R417, R421, R611, R612). -/

namespace Sys2Proof.Machine

open Sys2Proof

/-! ### Steps 1 to 4 -/

/-- A strap is sampled as 1 only if it is high throughout the window: an open pin is pulled down, one that changes reads as 0
(R77). -/
def strapHigh (p : StrapPin) : Bool := p == .high

/-- Steps 1 to 4 (R75–R78): OSF, the core PLL, the straps, and the host port opened for reads. -/
def stepsToStraps (s : State) (inp : StartInputs) : State :=
  let s1 := setFld s Fld.SYS_BOOTSTAT_OSF (fld s Fld.QTZ_STAT_OSF)
  let s2 := if inp.pllLocks then refinSeen (clrFld (setFlag s1 Fld.SYS_CLKSTAT_PLLLOCK) Fld.SYS_CLKSTAT_FALLBACK) true
    else fallback (refinSeen s1 inp.refin) 1
  let b (x : StrapPin) : Nat := if strapHigh x then 1 else 0
  let s3 := setFld (setFld (setFld s2 Fld.SYS_BOOTSTAT_HGEN (b inp.hgen)) Fld.SYS_BOOTSTAT_BOOTSEL (b inp.bootsel))
    Fld.HSP_STAT_FRAMING (b inp.hgen)
  setHrdy s3 true

/-! ### BARE and autonomous operation -/

/-- The start is over: tag events of a sleep before it are reported now (R372). -/
def startOver (s : State) : State :=
  tgeLater { s with boot := { s.boot with step := 0, ignoreBootsel := false } }

/-- BOOT_DONE is raised, with its CONFIG record (R100, R472, R475); the record has no SEQ (DESIGN CHOICE, log entry 12). -/
def raiseBootDone (s : State) : State :=
  configRecord (raise s 0) 0xFF 0 0 Adr.SYS_BOOTSTAT ([Adr.SYS_BOOTSTAT, Adr.SYS_BOOTSEQ, Adr.SYS_BOOTINFO].map (reg s))

/-- BARE is entered (R97, R100, R103). -/
def enterBare (s : State) : State :=
  startOver (raiseBootDone (setFld (setFlag (setFlag (clrFld s Fld.SYS_BOOTSTAT_DONE) Fld.SYS_BOOTSTAT_BARE) Fld.PROT_LEVEL_LEVEL)
    Fld.SYS_BOOTSEQ_SEQ 0xFFFFFFFF))

/-- What a mounted journal gives back; without one the counter starts from `LNK_FCBASE` and the accounts from nothing (R98, R417,
R421). A NAND formatted at this mount gets the checkpoint of R481. -/
def recoverLink (s : State) (formatted : Bool) : State :=
  let osf := flag s Fld.SYS_BOOTSTAT_OSF
  let t := if flag s Fld.JNL_STAT_MOUNTED then s else { s with jnl := { s.jnl with ckpt := none, duty := none } }
  let u := dutyRestore (linkRestore t) osf
  linkBegin (withholdUpdate (if formatted then ckptWrite u else u))

/-- Step 9 (R100): DONE, BOOT_DONE, the accounts of R288, the first intervals of R461, and a first grant point. -/
def bootDone (s : State) : State :=
  let t := raiseBootDone (clrFld (setFlag s Fld.SYS_BOOTSTAT_DONE) Fld.SYS_BOOTSTAT_BARE)
  startOver (grantPoint (accountsAtStart (zonesBegin t)))

/-- Steps 7 to 9 (R98–R100). -/
def stepsFromMount (s : State) (inp : StartInputs) : State :=
  let s1 := recoverLink (jmount s inp.nandAnswers inp.ringMounts) (jfresh s)
  bootDone (calPowerUp s1 inp.calFails (flag s1 Fld.SYS_CLKSTAT_FALLBACK))

/-! ### Steps 5 and 6 -/

/-- The field of an image's validity code. -/
def whyField (second : Bool) : Field := if second then Fld.SYS_BOOTSTAT_BWHY else Fld.SYS_BOOTSTAT_AWHY

/-- Records of a STRICT image are applied until one is refused (R95, R96). -/
def strictRecs (bad : List Nat) (s : State) (l : List Rec) : State :=
  l.foldl (fun t r => if fld t Fld.SYS_BOOTSTAT_REFUSED ≠ 0 then t else stepRec bad t r) s

/-- Step 6 up to its last record (R84–R96, R612). -/
def applyImage (s : State) (second : Bool) (bad : List Nat) : State :=
  let h := imageHdr s (imageBase second)
  let recs := (imageRecs s (imageBase second)).getD []
  let t := slateScan { s with boot := { s.boot with recs := 0 } }
  if h.strict then strictRecs bad t recs else recs.foldl (stepRec bad) t

/-- The register reset after a STRICT refusal (R611): SRAM and NOR stay, a pending QTZ commit is discarded, the start goes on. -/
def strictReset (s : State) (second : Bool) : State :=
  let t := keepStraps s (coreReset s true)
  let keep (u : State) (f : Field) : State := setFld u f (fld s f)
  let t1 := keep (keep (keep t Fld.SYS_BOOTSTAT_CAUSE) Fld.SYS_BOOTSTAT_OSF) Fld.SYS_BOOTSTAT_HOSTWR
  let t2 := { t1 with
    fifo := s.fifo
    slate := { s.slate with work := none }
    sgt := s.sgt
    jnl := s.jnl
    hf := { t1.hf with tx := s.hf.tx, rx := s.hf.rx }
    lnk := { t1.lnk with queue := s.lnk.queue, nbrs := s.lnk.nbrs }
    tag := { t1.tag with copies := s.tag.copies }
    boot := { t1.boot with step := s.boot.step, ignoreBootsel := s.boot.ignoreBootsel } }
  let t3 := setFld t2 (whyField second) 7
  if flag t3 (cPend ⟨.qtz, 0⟩) then discard t3 ⟨.qtz, 0⟩ else t3

/-- The image is in force (R101, R103), and step 6 ends with the key-store mirror (R347). -/
def imageTaken (s : State) (second : Bool) : State :=
  let h := imageHdr s (imageBase second)
  let t := setFld (setFld (setReg s Adr.SYS_BOOTINFO h.product) Fld.SYS_BOOTSEQ_SEQ h.seq) Fld.SYS_BOOTSTAT_IMAGE
    (if second then 2 else 1)
  mirrorTag { t with boot := { t.boot with nocal := h.nocal } }

/-- Command bytes go out on the memory port (R80): 0xAB, 0x66, 0x99 and the JEDEC read 0x9F, then one 0x0B for each header and each
image read (log entry 45). -/
def norSends (s : State) (l : List Byte) : State := { s with mem := { s.mem with sent := s.mem.sent ++ l } }

/-- The NOR answers its JEDEC ID: neither all 0x00 nor all 0xFF (R80). -/
def norAnswers (jedec : BitVec 24) : Bool := jedec != 0 && jedec != 0xFFFFFF

/-- One image that passed its header checks is tried (R95): its CRC and structure pass, then its records. The answer says
whether it is in force. -/
def tryImage (bad : List Nat) (s0 : State) (second : Bool) : State × Bool :=
  let s := norSends s0 [0x0B]
  let why := passWhy s (imageBase second)
  let s1 := setFld s (whyField second) why
  if why ≠ 0 then (if why = 6 ∧ miscounted s (imageBase second) then setFld s1 Fld.SYS_BOOTREC_BLOCKID 0x0F else s1, false)
  else
    let s2 := applyImage s1 second bad
    if (imageHdr s (imageBase second)).strict && fld s2 Fld.SYS_BOOTSTAT_REFUSED != 0 then (strictReset s2 second, false)
    else (imageTaken s2 second, true)

/-- Step 5 and step 6 (R80, R95). The candidates are chosen from the headers as first read. -/
def chooseImage (s0 : State) (inp : StartInputs) : State × Bool :=
  let s := norSends { s0 with mem := { s0.mem with sent := [] } } [0xAB, 0x66, 0x99, 0x9F]
  if !norAnswers inp.jedec then (setFld (setFld s Fld.SYS_BOOTSTAT_AWHY 8) Fld.SYS_BOOTSTAT_BWHY 8, false)
  else
    let code (b : Bool) : Nat := let w := headerWhy s (imageBase b); if w = 0 then 1 else w
    let s1 := setFld (setFld s Fld.SYS_BOOTSTAT_AWHY (code false)) Fld.SYS_BOOTSTAT_BWHY (code true)
    (imageOrder s).foldl (fun (p : State × Bool) b => if p.2 then p else tryImage inp.badSectors p.1 b)
      (norSends s1 [0x0B, 0x0B], false)

/-- From step 5 on (R77, R95, R97). -/
def stepsFromImage (s : State) (inp : StartInputs) : State :=
  if flag s Fld.SYS_BOOTSTAT_BOOTSEL && !s.boot.ignoreBootsel then enterBare s
  else
    let r := chooseImage s inp
    if r.2 then stepsFromMount r.1 inp else enterBare r.1

/-- The start that is pending runs (R74). -/
def startUp (s : State) (inp : StartInputs) : State :=
  if !powered s then s
  else match s.boot.step with
    | 1 => stepsFromImage (stepsToStraps s inp) inp
    | 5 => stepsFromImage s inp
    | 7 => stepsFromMount (slateScan s) inp
    | _ => s

def execStartup (inp : StartInputs) (s : State) : Host.Outcome State Fault Refusal := next (startUp s inp)

/-- RUN (R97, R105): from BARE, steps 7 to 9 with the registers as they stand; the Slate is scanned first (R612). -/
def execRun (lvl : Level) (key : BitVec 16) (inp : StartInputs) (s : State) : Host.Outcome State Fault Refusal :=
  next (asWrite s lvl Adr.SYS_BOOTCMD fun t =>
    let u := bootCommand t lvl key 3
    if u.boot.step = 7 then startUp u inp else u)

end Sys2Proof.Machine
end

