-- ==== Sys2Proof/Machine/Dispatch.lean ====
section
/-! DEFINITION. One arm per command: the meaning it calls. -/

namespace Sys2Proof.Machine

open Sys2Proof

/-- What a command does to everything but the queue. -/
def exec (i : Instr) (s : State) : Host.Outcome State Fault Refusal :=
  match i with
  | .porBackup byField => Sys2Proof.Machine.execPorBackup byField s
  | .coreSupplyLoss => Sys2Proof.Machine.execCoreSupplyLoss s
  | .coreSupplyValid => Sys2Proof.Machine.execCoreSupplyValid s
  | .vddioLoss => Sys2Proof.Machine.execVddioLoss s
  | .vddioValid => Sys2Proof.Machine.execVddioValid s
  | .vbatLoss => Sys2Proof.Machine.execVbatLoss s
  | .vbatReturn => Sys2Proof.Machine.execVbatReturn s
  | .rstAssert => Sys2Proof.Machine.execRstAssert s
  | .rstRelease => Sys2Proof.Machine.execRstRelease s
  | .startup inp => Sys2Proof.Machine.execStartup inp s
  | .regRecord triples => Sys2Proof.Machine.execRegRecord triples s
  | .blockRecord addr words commit => Sys2Proof.Machine.execBlockRecord addr words commit s
  | .slateRecord first preserve entries badSectors => Sys2Proof.Machine.execSlateRecord first preserve entries badSectors s
  | .hedgeRecord entries => Sys2Proof.Machine.execHedgeRecord entries s
  | .calRecord item inst trusted words => Sys2Proof.Machine.execCalRecord item inst trusted words s
  | .keyRecord usage slot key => Sys2Proof.Machine.execKeyRecord usage slot key s
  | .protRecord entries => Sys2Proof.Machine.execProtRecord entries s
  | .recskip index type => Sys2Proof.Machine.execRecskip index type s
  | .watchdogExpiry => Sys2Proof.Machine.execWatchdogExpiry s
  | .restart lvl key => Sys2Proof.Machine.execRestart lvl key s
  | .reload lvl key => Sys2Proof.Machine.execReload lvl key s
  | .run lvl key inp => Sys2Proof.Machine.execRun lvl key inp s
  | .sramUe loc => Sys2Proof.Machine.execSramUe loc s
  | .grantViolation res => Sys2Proof.Machine.execGrantViolation res s
  | .registerWrite lvl addr value => Sys2Proof.Machine.execRegisterWrite lvl addr value s
  | .commit lvl blk => Sys2Proof.Machine.execCommit lvl blk s
  | .discard lvl blk withCommit => Sys2Proof.Machine.execDiscard lvl blk withCommit s
  | .shadowSwap blk => Sys2Proof.Machine.execShadowSwap blk s
  | .partSwap blk part => Sys2Proof.Machine.execPartSwap blk part s
  | .sleepEntry during => Sys2Proof.Machine.execSleepEntry during s
  | .wakeComplete => Sys2Proof.Machine.execWakeComplete s
  | .schedWake => Sys2Proof.Machine.execSchedWake s
  | .wakePin => Sys2Proof.Machine.execWakePin s
  | .rfholdExpiry => Sys2Proof.Machine.execRfholdExpiry s
  | .sleepNow lvl key => Sys2Proof.Machine.execSleepNow lvl key s
  | .enterService lvl key => Sys2Proof.Machine.execEnterService lvl key s
  | .leaveService lvl key => Sys2Proof.Machine.execLeaveService lvl key s
  | .enterBackup lvl key => Sys2Proof.Machine.execEnterBackup lvl key s
  | .cancel lvl key => Sys2Proof.Machine.execCancel lvl key s
  | .backupFlushDone leftKB => Sys2Proof.Machine.execBackupFlushDone leftKB s
  | .pllLockTimeout refin => Sys2Proof.Machine.execPllLockTimeout s refin
  | .pllLockRetry locks refin => Sys2Proof.Machine.execPllLockRetry locks s refin
  | .pllLock => Sys2Proof.Machine.execPllLock s
  | .pllLockLoss refin => Sys2Proof.Machine.execPllLockLoss s refin
  | .wakeenWrite lvl value => Sys2Proof.Machine.execWakeenWrite lvl value s
  | .watchWindowPrepare => Sys2Proof.Machine.execWatchWindowPrepare s
  | .watchWindowClose => Sys2Proof.Machine.execWatchWindowClose s
  | .hselFall hsck => Sys2Proof.Machine.execHselFall hsck s
  | .hselRise edges => Sys2Proof.Machine.execHselRise edges s
  | .underrun => Sys2Proof.Machine.execUnderrun s
  | .g2Status addr count crc cmd => Sys2Proof.Machine.execG2Status addr count crc s cmd
  | .g2Read addr count crc shifted ecc => Sys2Proof.Machine.execG2Read addr count crc s shifted ecc
  | .g2Write addr count words crc => Sys2Proof.Machine.execG2Write addr count words crc s
  | .unlock addr count code crc => Sys2Proof.Machine.execUnlock addr count code crc s
  | .lock_ addr count crc => Sys2Proof.Machine.execLock addr count crc s
  | .stream addr count crc => Sys2Proof.Machine.execStream addr count crc s
  | .g3Transfer edges ecc => Sys2Proof.Machine.execG3Transfer edges ecc s
  | .g3IdleExpiry => Sys2Proof.Machine.execG3IdleExpiry s
  | .g3StallTimeout => Sys2Proof.Machine.execG3StallTimeout s
  | .g1Read addr ecc => Sys2Proof.Machine.execG1Read addr s ecc
  | .g1Write addr data => Sys2Proof.Machine.execG1Write addr data s
  | .supidleLapse => Sys2Proof.Machine.execSupidleLapse s
  | .unlockLockoutEnd => Sys2Proof.Machine.execUnlockLockoutEnd s
  | .requestPost req => Sys2Proof.Machine.execRequestPost req s
  | .topUp holder mask kind => Sys2Proof.Machine.execTopUp holder mask kind s
  | .requestWithdraw who => Sys2Proof.Machine.execRequestWithdraw who s
  | .grantDecision => Sys2Proof.Machine.execGrantDecision s
  | .grantTick => Sys2Proof.Machine.execGrantTick s
  | .release who topUp => Sys2Proof.Machine.execRelease who s topUp
  | .leaseWarning who => Sys2Proof.Machine.execLeaseWarning who s
  | .leaseEnd who inTransaction topUp => Sys2Proof.Machine.execLeaseEnd who inTransaction s topUp
  | .c0FreeTime who => Sys2Proof.Machine.execC0FreeTime who s
  | .starvePromote who => Sys2Proof.Machine.execStarvePromote who s
  | .cxgntLoss => Sys2Proof.Machine.execCxgntLoss s
  | .cxgntRise => Sys2Proof.Machine.execCxgntRise s
  | .cxreqLeadSatisfied => Sys2Proof.Machine.execCxreqLeadSatisfied s
  | .cxwaitTimeout who => Sys2Proof.Machine.execCxwaitTimeout who s
  | .xreqRise => Sys2Proof.Machine.execXreqRise s
  | .xreqFall => Sys2Proof.Machine.execXreqFall s
  | .loadSample load => Sys2Proof.Machine.execLoadSample load s
  | .tune path chan use => Sys2Proof.Machine.execTune path chan use s
  | .synthLock path margin band cap => Sys2Proof.Machine.execSynthLock path margin band cap s
  | .storedWordFail path => Sys2Proof.Machine.execStoredWordFail path s
  | .lockFail path => Sys2Proof.Machine.execLockFail path s
  | .txCommand path use chan port index => Sys2Proof.Machine.execTxCommand path use chan port index s
  | .locktimeout path => Sys2Proof.Machine.execLocktimeout path s
  | .carrierRampUp path => Sys2Proof.Machine.execCarrierRampUp path s
  | .hop path chan => Sys2Proof.Machine.execHop path chan s
  | .portSwitch path rp => Sys2Proof.Machine.execPortSwitch path rp s
  | .detectorUpdate path reading => Sys2Proof.Machine.execDetectorUpdate path reading s
  | .overpower path => Sys2Proof.Machine.execOverpower path s
  | .paDisable pa => Sys2Proof.Machine.execPaDisable pa s
  | .rateSwitchDone chain => Sys2Proof.Machine.execRateSwitchDone chain s
  | .agcStep chain peak => Sys2Proof.Machine.execAgcStep chain peak s
  | .clipStepDown chain => Sys2Proof.Machine.execClipStepDown chain s
  | .refinementEnd path meas => Sys2Proof.Machine.execRefinementEnd path meas s
  | .cancelCheck chain path suppression => Sys2Proof.Machine.execCancelCheck chain path suppression s
  | .slateWrite lvl index => Sys2Proof.Machine.execSlateWrite lvl index s
  | .slateRead lvl index => Sys2Proof.Machine.execSlateRead lvl index s
  | .slateErase lvl index => Sys2Proof.Machine.execSlateErase lvl index s
  | .slateReadback good => Sys2Proof.Machine.execSlateReadback good s
  | .slateActivate => Sys2Proof.Machine.execSlateActivate s
  | .cacheFill index => Sys2Proof.Machine.execCacheFill index s
  | .entryPending index => Sys2Proof.Machine.execEntryPending index s
  | .visitEnd path => Sys2Proof.Machine.execVisitEnd path s
  | .slotEmpty path => Sys2Proof.Machine.execSlotEmpty path s
  | .rn16Reply path replies => Sys2Proof.Machine.execRn16Reply path replies s
  | .epcReply path reply => Sys2Proof.Machine.execEpcReply path reply s
  | .epcReplyMissing path => Sys2Proof.Machine.execEpcReplyMissing path s
  | .accessStepReply path reply => Sys2Proof.Machine.execAccessStepReply path reply s
  | .accessStepTimeout path badCrc => Sys2Proof.Machine.execAccessStepTimeout path badCrc s
  | .authFlintGrant path response => Sys2Proof.Machine.execAuthFlintGrant path response s
  | .hopInterval path => Sys2Proof.Machine.execHopInterval path s
  | .regulatoryDeadline path => Sys2Proof.Machine.execRegulatoryDeadline path s
  | .channelUnbar index => Sys2Proof.Machine.execChannelUnbar index s
  | .occBin => Sys2Proof.Machine.execOccBin s
  | .immediateAccess lvl value => Sys2Proof.Machine.execImmediateAccess lvl value s
  | .foffWaitEnd => Sys2Proof.Machine.execFoffWaitEnd s
  | .guardEnd => Sys2Proof.Machine.execGuardEnd s
  | .cardFrame frame => Sys2Proof.Machine.execCardFrame frame s
  | .answerTimeout => Sys2Proof.Machine.execAnswerTimeout s
  | .wtxRequest inf => Sys2Proof.Machine.execWtxRequest inf s
  | .blockTimeout ruleBreak => Sys2Proof.Machine.execBlockTimeout ruleBreak s
  | .open_ lvl entry target => Sys2Proof.Machine.execOpen lvl entry target s
  | .xchg lvl => Sys2Proof.Machine.execXchg lvl s
  | .raw lvl => Sys2Proof.Machine.execRaw lvl s
  | .close lvl => Sys2Proof.Machine.execClose lvl s
  | .sessionIdle => Sys2Proof.Machine.execSessionIdle s
  | .txlenClr lvl value => Sys2Proof.Machine.execTxlenClr lvl value s
  | .gorsePing re im => Sys2Proof.Machine.execGorsePing re im s
  | .confirmPing re im => Sys2Proof.Machine.execConfirmPing re im s
  | .gorseRefresh trim => Sys2Proof.Machine.execGorseRefresh trim s
  | .pingSkip => Sys2Proof.Machine.execPingSkip s
  | .tagFieldOn harvOk => Sys2Proof.Machine.execTagFieldOn harvOk s
  | .tagFieldLost => Sys2Proof.Machine.execTagFieldLost s
  | .inventory hdr afi maskLen mask => Sys2Proof.Machine.execInventory hdr afi maskLen mask s
  | .stayQuiet hdr => Sys2Proof.Machine.execStayQuiet hdr s
  | .readSingleBlock hdr block => Sys2Proof.Machine.execReadSingleBlock hdr block s
  | .writeSingleBlock hdr block data prog => Sys2Proof.Machine.execWriteSingleBlock hdr block data prog s
  | .readMultipleBlocks hdr first count => Sys2Proof.Machine.execReadMultipleBlocks hdr first count s
  | .writeMultipleBlocks hdr first data prog => Sys2Proof.Machine.execWriteMultipleBlocks hdr first data prog s
  | .select_ hdr => Sys2Proof.Machine.execSelect hdr s
  | .resetToReady hdr => Sys2Proof.Machine.execResetToReady hdr s
  | .getSystemInfo hdr => Sys2Proof.Machine.execGetSystemInfo hdr s
  | .extendedReadSingleBlock hdr block => Sys2Proof.Machine.execExtendedReadSingleBlock hdr block s
  | .extendedWriteSingleBlock hdr block data prog => Sys2Proof.Machine.execExtendedWriteSingleBlock hdr block data prog s
  | .extendedReadMultipleBlocks hdr first count => Sys2Proof.Machine.execExtendedReadMultipleBlocks hdr first count s
  | .extendedWriteMultipleBlocks hdr first data prog => Sys2Proof.Machine.execExtendedWriteMultipleBlocks hdr first data prog s
  | .extendedGetSystemInfo hdr => Sys2Proof.Machine.execExtendedGetSystemInfo hdr s
  | .getRandom hdr => Sys2Proof.Machine.execGetRandom hdr s
  | .leave hdr => Sys2Proof.Machine.execLeave hdr s
  | .password hdr keynum p => Sys2Proof.Machine.execPassword hdr keynum p s
  | .aes1 hdr keynum rnr => Sys2Proof.Machine.execAes1 hdr keynum rnr s
  | .aes2 hdr e2 => Sys2Proof.Machine.execAes2 hdr e2 s
  | .readFaultLog hdr offset count => Sys2Proof.Machine.execReadFaultLog hdr offset count s
  | .statusSnapshot hdr count => Sys2Proof.Machine.execStatusSnapshot hdr count s
  | .unsupportedCommand hdr code => Sys2Proof.Machine.execUnsupportedCommand hdr code s
  | .faultLogWrite prog => Sys2Proof.Machine.execFaultLogWrite prog s
  | .tagHostRead lvl page => Sys2Proof.Machine.execTagHostRead lvl page s
  | .tagHostWrite lvl check gen page => Sys2Proof.Machine.execTagHostWrite lvl check gen page s
  | .tagCommitPoint prog => Sys2Proof.Machine.execTagCommitPoint prog s
  | .clrfail lvl => Sys2Proof.Machine.execClrfail lvl s
  | .snapshotRefresh => Sys2Proof.Machine.execSnapshotRefresh s
  | .harvUndervoltage => Sys2Proof.Machine.execHarvUndervoltage s
  | .harvRetry inRegulation => Sys2Proof.Machine.execHarvRetry inRegulation s
  | .linkSfd level snr erased active lead carriers => Sys2Proof.Machine.execLinkSfd level snr erased active s lead carriers
  | .linkPhr phr => Sys2Proof.Machine.execLinkPhr phr s
  | .linkPreempt level => Sys2Proof.Machine.execLinkPreempt level s
  | .linkFrameEnd fcsGood frame psdu => Sys2Proof.Machine.execLinkFrameEnd fcsGood frame s psdu
  | .edSample level => Sys2Proof.Machine.execEdSample level s
  | .linkTx lvl value => Sys2Proof.Machine.execLinkTx lvl value s
  | .txFlush lvl => Sys2Proof.Machine.execTxFlush lvl s
  | .listenEnd => Sys2Proof.Machine.execListenEnd s
  | .backoffEnd => Sys2Proof.Machine.execBackoffEnd s
  | .linkTxEnd => Sys2Proof.Machine.execLinkTxEnd s
  | .ackWaitEnd => Sys2Proof.Machine.execAckWaitEnd s
  | .immAckSend => Sys2Proof.Machine.execImmAckSend s
  | .frameExpired pos => Sys2Proof.Machine.execFrameExpired pos s
  | .dutyBin => Sys2Proof.Machine.execDutyBin s
  | .dutyCheckpoint => Sys2Proof.Machine.execDutyCheckpoint s
  | .slotPost kind src => Sys2Proof.Machine.execSlotPost kind src s
  | .beaconInstant => Sys2Proof.Machine.execBeaconInstant s
  | .brxWindowEnd src => Sys2Proof.Machine.execBrxWindowEnd src s
  | .rescan src => Sys2Proof.Machine.execRescan src s
  | .holdoverEnd => Sys2Proof.Machine.execHoldoverEnd s
  | .readMerge read => Sys2Proof.Machine.execReadMerge read s
  | .sightingTick => Sys2Proof.Machine.execSightingTick s
  | .intervalReport => Sys2Proof.Machine.execIntervalReport s
  | .sgtSelWrite lvl value => Sys2Proof.Machine.execSgtSelWrite lvl value s
  | .sgtCfgWrite lvl value => Sys2Proof.Machine.execSgtCfgWrite lvl value s
  | .mspRead lvl addr => Sys2Proof.Machine.execMspRead lvl addr s
  | .mspProgram lvl addr verifyOk => Sys2Proof.Machine.execMspProgram lvl addr verifyOk s
  | .mspErase lvl addr => Sys2Proof.Machine.execMspErase lvl addr s
  | .journalRecord ecc more => Sys2Proof.Machine.execJournalRecord ecc s more
  | .journalPageProgram ok => Sys2Proof.Machine.execJournalPageProgram ok s
  | .jnlFlushTimeout => Sys2Proof.Machine.execJnlFlushTimeout s
  | .journalErase ok => Sys2Proof.Machine.execJournalErase ok s
  | .format lvl key => Sys2Proof.Machine.execFormat lvl key s
  | .journalFlush lvl key => Sys2Proof.Machine.execJournalFlush lvl key s
  | .journalRead lvl page correctable => Sys2Proof.Machine.execJournalRead lvl page correctable s
  | .packetAdmit ch words => Sys2Proof.Machine.execPacketAdmit ch words s
  | .bankHandover ch => Sys2Proof.Machine.execBankHandover ch s
  | .staleTimeout ch => Sys2Proof.Machine.execStaleTimeout ch s
  | .fifoPortRead lvl ch ecc => Sys2Proof.Machine.execFifoPortRead lvl ch ecc s
  | .dropPkt lvl ch => Sys2Proof.Machine.execDropPkt lvl ch s
  | .fifoFlush lvl ch => Sys2Proof.Machine.execFifoFlush lvl ch s
  | .skipEnd ch ecc => Sys2Proof.Machine.execSkipEnd ch s ecc
  | .timerWrap n => Sys2Proof.Machine.execTimerWrap n s
  | .compareFire n k => Sys2Proof.Machine.execCompareFire n k s
  | .capture n => Sys2Proof.Machine.execCapture n s
  | .triggerAction n input => Sys2Proof.Machine.execTriggerAction n input s
  | .timerStart lvl n => Sys2Proof.Machine.execTimerStart lvl n s
  | .timerStop lvl n => Sys2Proof.Machine.execTimerStop lvl n s
  | .timerReset lvl n => Sys2Proof.Machine.execTimerReset lvl n s
  | .capclr lvl n => Sys2Proof.Machine.execCapclr lvl n s
  | .gcmdStart lvl mask => Sys2Proof.Machine.execGcmdStart lvl mask s
  | .gcmdStop lvl mask => Sys2Proof.Machine.execGcmdStop lvl mask s
  | .gcmdReset lvl mask => Sys2Proof.Machine.execGcmdReset lvl mask s
  | .tmrCntWrite lvl n value => Sys2Proof.Machine.execTmrCntWrite lvl n value s
  | .tmrBufWrite lvl n value => Sys2Proof.Machine.execTmrBufWrite lvl n value s
  | .cmpWrite lvl n k value => Sys2Proof.Machine.execCmpWrite lvl n k value s
  | .tmrSnap lvl mask => Sys2Proof.Machine.execTmrSnap lvl mask s
  | .tmrCapRead lvl n => Sys2Proof.Machine.execTmrCapRead lvl n s
  | .toutWrite lvl m value => Sys2Proof.Machine.execToutWrite lvl m value s
  | .qtzTime0Read lvl => Sys2Proof.Machine.execQtzTime0Read lvl s
  | .settime lvl key clrOsf => Sys2Proof.Machine.execSettime lvl key clrOsf s
  | .setNow lvl key clrOsf => Sys2Proof.Machine.execSetNow lvl key clrOsf s
  | .qtzCancel lvl key => Sys2Proof.Machine.execQtzCancel lvl key s
  | .pwrRelease lvl key => Sys2Proof.Machine.execPwrRelease lvl key s
  | .pwrAssert lvl key => Sys2Proof.Machine.execPwrAssert lvl key s
  | .shiftRequest lvl value => Sys2Proof.Machine.execShiftRequest lvl value s
  | .countdownWrite lvl value => Sys2Proof.Machine.execCountdownWrite lvl value s
  | .secondBoundary => Sys2Proof.Machine.execSecondBoundary s
  | .countdownZero => Sys2Proof.Machine.execCountdownZero s
  | .trimAdjustment => Sys2Proof.Machine.execTrimAdjustment s
  | .autotrimWindowEnd => Sys2Proof.Machine.execAutotrimWindowEnd s
  | .autotrimEdgeTimeout => Sys2Proof.Machine.execAutotrimEdgeTimeout s
  | .oscStop => Sys2Proof.Machine.execOscStop s
  | .oscRestart => Sys2Proof.Machine.execOscRestart s
  | .vbatCheck low => Sys2Proof.Machine.execVbatCheck low s
  | .pwronPulseEnd => Sys2Proof.Machine.execPwronPulseEnd s
  | .calRun lvl key item inst => Sys2Proof.Machine.execCalRun lvl key item inst s
  | .save lvl key items verifyOk => Sys2Proof.Machine.execSave lvl key items verifyOk s
  | .restore lvl key items => Sys2Proof.Machine.execRestore lvl key items s
  | .traceRx lvl key chain measured ferr => Sys2Proof.Machine.execTraceRx lvl key chain measured ferr s
  | .traceTx lvl key => Sys2Proof.Machine.execTraceTx lvl key s
  | .traceEnd lvl key => Sys2Proof.Machine.execTraceEnd lvl key s
  | .traceTimeout => Sys2Proof.Machine.execTraceTimeout s
  | .calDue item inst why => Sys2Proof.Machine.execCalDue item inst why s
  | .tempSample temp => Sys2Proof.Machine.execTempSample temp s
  | .calStepDone item inst res => Sys2Proof.Machine.execCalStepDone item inst res s
  | .calGraceExpiry item inst => Sys2Proof.Machine.execCalGraceExpiry item inst s
  | .calApply item inst => Sys2Proof.Machine.execCalApply item inst s
  | .calResumeExpiry item inst => Sys2Proof.Machine.execCalResumeExpiry item inst s
  | .sramCe => Sys2Proof.Machine.execSramCe s
  | .hostgapElapsed => Sys2Proof.Machine.execHostgapElapsed s
  | .cxreqRise => Sys2Proof.Machine.execCxreqRise s
  | .rfBiasSettled => Sys2Proof.Machine.execRfBiasSettled s
  | .mainszcEdge => Sys2Proof.Machine.execMainszcEdge s

end Sys2Proof.Machine
end

