-- ==== Sys2Proof/Machine/Step.lean ====
section
/-! DEFINITION. One step: the command at the front of the queue, or, on an empty queue, the passing of one CLK100 cycle (log entry
2). -/

namespace Sys2Proof.Machine

open Sys2Proof

/-- One CLK100 cycle passes: the clocks, Quartz's counting and the timers' counting (R14, R16, R510; log entry 2), and a G3 read sees
what has been handed over to it (R125, R493). -/
def tick (s : State) : State :=
  let edge := 390625 ≤ s.clk.phase32 + 128 && s.clk.osc
  g3Wake (tickViews (tickTimers (tickClocks s) edge))

/-- Take the front command with the queue's rest, or let time pass. -/
def step (s : State) : Host.Outcome State Fault Refusal :=
  match s.pending with
  | c :: rest => exec c { s with pending := rest }
  | [] => next (tick s)

/-- The machine with the command that a word spells at the front of its queue: no word spells one. -/
def State.withFetchWord (s : State) (nbits w : Nat) : State :=
  match decodeTableWord nbits w with
  | some c => { s with pending := c :: s.pending }
  | none => s

end Sys2Proof.Machine
end

