-- ==== Sys2Proof/Safety.lean ====
section
/-! DEFINITION. What counts as a safe run, the invariants that statements cite, and the frames they are stated with. -/

namespace Sys2Proof.Machine

/-- A step answers a next state: neither a fault nor a refusal. -/
def Safe (s : State) : Prop := ∃ t, step s = .next t

/-- The canonical form of both byte stores: the serial NOR and the tag store (log entry 5). -/
def StoresWf (s : State) : Prop := bytesWf s.mem.nor = true ∧ bytesWf s.tag.store = true

/-- A whole register as a field. -/
def whole (a : Nat) : Field := ⟨a, 31, 0⟩

/-- Two fields share no bit. -/
def Field.apart (f g : Field) : Prop := f.addr ≠ g.addr ∨ f.hi < g.lo ∨ g.hi < f.lo

/-- Every field of every register that shares no bit with the fields listed reads as before. A register that no listed field
lies in is unchanged as a whole. -/
def FldsKept (l : List Field) (s t : State) : Prop := ∀ f : Field, (∀ g ∈ l, f.apart g) → fld t f = fld s f

/-- Nothing but registers (and which of their flags this cycle set, R9) changed, and of those only the fields listed. -/
def OnlyFlds (l : List Field) (s t : State) : Prop := t = { s with regs := t.regs, fresh := t.fresh } ∧ FldsKept l s t

/-- What a wake source that fires may write (R61, R62, R68, R554): its latch, its interrupt, the transition it cancels, and
`PWRON`. -/
def wakeFlds : List Field := [whole Adr.SYS_WAKESRC, intBit 4, Fld.SYS_MODE_TRANS, Fld.QTZ_STAT_PWRON]

/-- What a timer's event writes beside its own flags (R525, R527, R528): the interrupt, the wake, the outputs' levels. -/
def timerEventFlds : List Field := intBit 53 :: wakeFlds ++ (List.range 8).map Fld.TMR_TOUT_LEVEL

/-- What packets to the report FIFOs may write: the handover and drop interrupts, the drop counters, and the end of an
automatic link report (R440, R441, R490, R497). -/
def packetFlds : List Field :=
  intBit 45 :: ((List.range 8).map fun n => intBit (8 + n)) ++ ((List.range 8).map fun n => intBit (24 + n)) ++
    (List.range 9).map Fld.FIFO_CH_CNT_DROP

/-- What the journal writer may write beside a failed program (R418, R469, R478, R479). -/
def jnlFlds : List Field :=
  [Fld.JNL_CNT0_GROWN, Fld.JNL_CNT1_NOCOMP, Fld.JNL_STAT_FAILED, Fld.JNL_STAT_WRAPPED, Fld.LNK_TXSTAT_WITHHELD, intBit 56,
   intBit 57] ++ packetFlds

/-- What the end of work on a path may write among the radio's registers (R181–R184, R213, R223). -/
def pathFlds : List Field :=
  [Fld.RAD_STATE_ASTATE, Fld.RAD_STATE_BSTATE, Fld.RAD_STATE_ACARR, Fld.RAD_STATE_BCARR, Fld.RAD_STATE_CHON,
   Fld.RAD_STATE_CHRATE] ++ (List.range 4).flatMap fun k =>
    [Fld.RAD_RXC_STAT_ON k, Fld.RAD_RXC_STAT_RATE k, Fld.RAD_RXC_STAT_SUPPA k, Fld.RAD_RXC_STAT_SUPPB k]

/-- What a round may write: its counters and status, the immediate access, the packets, the path it leaves (R258–R295). -/
def roundFlds : List Field :=
  [whole Adr.BRM_CNT0, whole Adr.BRM_CNT1, whole Adr.BRM_CNT2, whole Adr.BRM_CNT3, whole Adr.BRM_STAT, whole Adr.BRM_IMMSTAT,
   intBit 32, intBit 33, intBit 34] ++ pathFlds ++ packetFlds

/-- What the HF reader may write (R329, R330, R337–R340). -/
def hfFlds : List Field :=
  [whole Adr.HF_STAT, whole Adr.HF_CNT0, whole Adr.HF_CNT1, whole Adr.HF_CNT2, whole Adr.HF_IMMSTAT, intBit 38, intBit 39] ++
    packetFlds

/-- What a ping's turn may write beside its measurement (R179, R300). -/
def pingFlds : List Field :=
  [Fld.HF_STAT_DRVLIM, Fld.SYS_RES_GRANT_GRANTS resHfd, Fld.SYS_MODE_MODE, Fld.SYS_MODE_PREV, intBit 5]

/-- What a Gorse ping may write (R332–R335, R342). -/
def gorseFlds : List Field :=
  [whole Adr.GRS_STAT, whole Adr.GRS_CNT0, whole Adr.GRS_CNT1, whole Adr.GRS_BASE, whole Adr.GRS_MEAS, intBit 40] ++ wakeFlds ++
    packetFlds

/-- What the tag may write (R354, R359, R368, R371, R375). -/
def tagFlds : List Field :=
  [whole Adr.TAG_STAT, whole Adr.TAG_CNT0, whole Adr.TAG_CNT1, whole Adr.TAG_CNT2, whole Adr.TAG_HSTAT, intBit 41, intBit 42,
   intBit 43] ++ wakeFlds ++ packetFlds

/-- The levels that the receive chains report (R210). -/
def rssiFlds : List Field := (List.range 4).map Fld.RAD_RXC_STAT_RSSI

/-- What the end of a reception may write (R394, R400, R439): the PHY's status and counters, the chains' freeze and level, and
the error report. -/
def phyFlds : List Field :=
  [whole Adr.LNK_PHYSTAT, whole Adr.LNK_PHYCNT0, whole Adr.LNK_PHYCNT1, whole Adr.LNK_PHYCNT2, Fld.FIFO_CH_ERR_TRUNC 5] ++
    ((List.range 4).flatMap fun k => [Fld.RAD_RXC_STAT_FROZEN k, Fld.RAD_RXC_STAT_RSSI k]) ++ packetFlds

/-- What the link MAC may write (R409, R411, R412, R418, R420, R432, R436, R440, R445). -/
def linkFlds : List Field :=
  [whole Adr.LNK_MACCNT0, whole Adr.LNK_MACCNT1, whole Adr.LNK_MACCNT2, whole Adr.LNK_MACCNT3, whole Adr.LNK_MACCNT4,
   whole Adr.LNK_FCNT, whole Adr.LNK_TXSTAT, whole Adr.LNK_ORIGIN, whole Adr.LNK_EPOCH, whole Adr.LNK_SYNCSTAT,
   Fld.SYS_RES_GRANT_GRANTS resFlint, Fld.SYS_SCHCNT3_COLLIDE, intBit 44, intBit 46, intBit 47, intBit 48] ++ phyFlds ++ jnlFlds

/-- What a transmission on a path may write beside the path's state (R183, R198, R200): its port and its power index. -/
def sendFlds : List Field :=
  [Fld.RAD_STATE_APORT, Fld.RAD_STATE_BPORT, whole Adr.RAD_TXA_STAT, whole Adr.RAD_TXB_STAT] ++ pathFlds

/-- The coexistence outputs, which follow every posting and every decision (R168, R169). -/
def cxFlds : List Field := [Fld.SYS_STAT_CXREQ, Fld.SYS_STAT_CXPRI, Fld.SYS_STAT_XGNT]

/-- An operation takes place in the step that asks for it (R22, R23, R145): nothing arbitrates its resource, its consumer holds it, or
its request finds it free and unasked for (log entry 35). -/
def turnNow (s : State) (r : Request) : Bool :=
  !arbitrated s || covers (holdsOf s r.who) (asPostedNow s r).mask || (mayPost s r.who && atOnce s (asPostedNow s r))

/-- What taking a turn at once leaves in the scheduler: at most that a grant point was made. -/
def TurnTaken (s t : State) : Prop := t.sched = s.sched ∨ t.sched = { s.sched with point := true }

/-- An operation that waits stands behind those that wait already, and its request behind the others where its consumer may post one
(R145, R154). -/
def TurnWaits (s t : State) (r : Request) (cmd : Instr) : Prop :=
  t.sched.ops = s.sched.ops ++ [{ req := r, cmd := cmd }] ∧ t.sched.grants = s.sched.grants ∧
    t.sched.requests = if mayPost s r.who then s.sched.requests ++ [asPostedNow s r] else s.sched.requests

/-- The AES exchange after a command that reaches the tag: a command in addressed or selected mode ends it (R357; log entry 43). -/
def aesKept (s : State) (h : TagHdr) : Option TagAes := if direct s h then none else s.tag.aes

/-- A command of the field waits for its turn, unanswered, and keeps the AES exchange it names. -/
def TagWaits (s t : State) (aes : Option TagAes) (r : Request) (cmd : Instr) : Prop :=
  t.tag = { s.tag with aes := aes, reply := none } ∧ TurnWaits s t r cmd ∧ FldsKept cxFlds s t ∧
    t = { s with regs := t.regs, tag := t.tag, sched := t.sched }

/-- The octets of a frame that are authenticated but not ciphered (R404): up to the header termination. -/
def openHead (h : LnkHdr) (o : List Byte) : Nat := if h.ie then (headerIes o 64 h.len).elim h.len fun p => p.1 else h.len

/-- A frame that passes every check of R411 up to its key, from a known neighbour's entry. -/
def Admissible (s : State) (o : List Byte) (h : LnkHdr) (n : Nat) (key : List Byte) : Prop :=
  lnkParse o = some h ∧ h.version = 2 ∧ h.type < 2 ∧ (h.ie = true → (headerIes o 64 h.len).isSome = true) ∧ frameMine s h = true ∧
    frameSecured s h = true ∧ h.keyIndex ≠ 0 ∧ keyOf s 1 (h.keyIndex - 1) = some key ∧ nbrFind s h.src = some n

/-- The PHY's report of a frame with a status (R394, R400). -/
def phyWord (s : State) (r : LnkRx) (x : LnkSlot) (status : Nat) : Word :=
  BitVec.ofNat 32 (status * 2 ^ 28 + lnkMode (slotEntry s x) * 2 ^ 24 + r.level * 2 ^ 16 + r.snr * 2 ^ 8 +
    (if r.preemptor then 128 else 0) + min 127 r.erased)

/-- A host frame is answered with a result and does nothing else (R116, R118): the highest result of the select counts. -/
def FrameOnly (c : Instr) (s : State) (r : Nat) : Prop :=
  ∃ t, exec c s = .next t ∧ t.host.frame = .done ∧ t.host.result = max s.host.result r ∧ t = { s with host := t.host }

/-- The level, the register and the direction of a command that is an access of one register (R131, R134). -/
def access : Instr → Option (Level × Nat × Bool)
  | .restart lvl _ => some (lvl, Adr.SYS_BOOTCMD, true)
  | .reload lvl _ => some (lvl, Adr.SYS_BOOTCMD, true)
  | .run lvl _ _ => some (lvl, Adr.SYS_BOOTCMD, true)
  | .registerWrite lvl addr _ => if populated addr.toNat then some (lvl, addr.toNat, true) else none
  | .commit lvl blk => if validInst blk then some (lvl, commitAddr blk, true) else none
  | .discard lvl blk _ => if validInst blk then some (lvl, commitAddr blk, true) else none
  | .sleepNow lvl _ => some (lvl, Adr.SYS_MODECMD, true)
  | .enterService lvl _ => some (lvl, Adr.SYS_MODECMD, true)
  | .leaveService lvl _ => some (lvl, Adr.SYS_MODECMD, true)
  | .enterBackup lvl _ => some (lvl, Adr.SYS_MODECMD, true)
  | .cancel lvl _ => some (lvl, Adr.SYS_MODECMD, true)
  | .wakeenWrite lvl _ => some (lvl, Adr.SYS_WAKEEN, true)
  | .slateWrite lvl _ => some (lvl, Adr.SLT_CMD, true)
  | .slateRead lvl _ => some (lvl, Adr.SLT_CMD, true)
  | .slateErase lvl _ => some (lvl, Adr.SLT_CMD, true)
  | .immediateAccess lvl _ => some (lvl, Adr.BRM_IMM, true)
  | .open_ lvl _ _ => some (lvl, Adr.HF_IMM, true)
  | .xchg lvl => some (lvl, Adr.HF_IMM, true)
  | .raw lvl => some (lvl, Adr.HF_IMM, true)
  | .close lvl => some (lvl, Adr.HF_IMM, true)
  | .txlenClr lvl _ => some (lvl, Adr.HF_TXLEN, true)
  | .tagHostRead lvl _ => some (lvl, Adr.TAG_HCMD, true)
  | .tagHostWrite lvl _ _ _ => some (lvl, Adr.TAG_HCMD, true)
  | .clrfail lvl => some (lvl, Adr.TAG_HCMD, true)
  | .linkTx lvl _ => some (lvl, Adr.LNK_TXCMD, true)
  | .txFlush lvl => some (lvl, Adr.LNK_TXCMD, true)
  | .sgtSelWrite lvl _ => some (lvl, Adr.SGT_SEL, true)
  | .sgtCfgWrite lvl _ => some (lvl, Adr.SGT_CFG, true)
  | .mspRead lvl _ => some (lvl, Adr.MSP_HCMD, true)
  | .mspProgram lvl _ _ => some (lvl, Adr.MSP_HCMD, true)
  | .mspErase lvl _ => some (lvl, Adr.MSP_HCMD, true)
  | .format lvl _ => some (lvl, Adr.JNL_CMD, true)
  | .journalFlush lvl _ => some (lvl, Adr.JNL_CMD, true)
  | .journalRead lvl _ _ => some (lvl, Adr.JNL_RDCMD, true)
  | .fifoPortRead lvl ch _ => some (lvl, Adr.FIFO_PORT ch, false)
  | .dropPkt lvl _ => some (lvl, Adr.FIFO_CMD, true)
  | .fifoFlush lvl _ => some (lvl, Adr.FIFO_CMD, true)
  | .timerStart lvl n => some (lvl, Adr.TMR_CTRL n, true)
  | .timerStop lvl n => some (lvl, Adr.TMR_CTRL n, true)
  | .timerReset lvl n => some (lvl, Adr.TMR_CTRL n, true)
  | .capclr lvl n => some (lvl, Adr.TMR_CTRL n, true)
  | .gcmdStart lvl _ => some (lvl, Adr.TMR_GCMD, true)
  | .gcmdStop lvl _ => some (lvl, Adr.TMR_GCMD, true)
  | .gcmdReset lvl _ => some (lvl, Adr.TMR_GCMD, true)
  | .tmrCntWrite lvl n _ => some (lvl, Adr.TMR_CNT n, true)
  | .tmrBufWrite lvl n _ => some (lvl, Adr.TMR_BUF n, true)
  | .cmpWrite lvl n k _ => some (lvl, Adr.TMR_CMP n k, true)
  | .tmrSnap lvl _ => some (lvl, Adr.TMR_SNAP, true)
  | .tmrCapRead lvl n => some (lvl, Adr.TMR_CAP n, false)
  | .toutWrite lvl m _ => some (lvl, Adr.TMR_TOUT m, true)
  | .qtzTime0Read lvl => some (lvl, Adr.QTZ_TIME0, false)
  | .settime lvl _ _ => some (lvl, Adr.QTZ_CMD, true)
  | .setNow lvl _ _ => some (lvl, Adr.QTZ_CMD, true)
  | .qtzCancel lvl _ => some (lvl, Adr.QTZ_CMD, true)
  | .pwrRelease lvl _ => some (lvl, Adr.QTZ_CMD, true)
  | .pwrAssert lvl _ => some (lvl, Adr.QTZ_CMD, true)
  | .shiftRequest lvl _ => some (lvl, Adr.QTZ_SHIFT, true)
  | .countdownWrite lvl _ => some (lvl, Adr.QTZ_CDN, true)
  | .calRun lvl _ _ _ => some (lvl, Adr.CAL_CMD, true)
  | .save lvl _ _ _ => some (lvl, Adr.CAL_CMD, true)
  | .restore lvl _ _ => some (lvl, Adr.CAL_CMD, true)
  | .traceRx lvl _ _ _ _ => some (lvl, Adr.CAL_CMD, true)
  | .traceTx lvl _ => some (lvl, Adr.CAL_CMD, true)
  | .traceEnd lvl _ => some (lvl, Adr.CAL_CMD, true)
  | _ => none

/-- A start of the core domain (R73, R347, R535, R582): the QTZ window as it was, and every register outside the windows of Quartz
and the tag, but for those listed, at its reset value. -/
def CoreReset (l : List Nat) (s t : State) : Prop :=
  (∀ a, 0x200 ≤ a → a ≤ 0x2FF → reg t a = reg s a) ∧
    (∀ a, a < 0x200 ∨ 0x2FF < a → a < 0x1900 ∨ 0x19FF < a → a ∉ l → reg t a = resetWord a) ∧
    t.qtz = s.qtz ∧ t.tag.store = s.tag.store ∧ t.jnl.nand = s.jnl.nand ∧ t.pending = s.pending ∧ t.fifo = ({} : State).fifo ∧
    t.sgt = {} ∧ t.lnk = {} ∧ t.host.g3 = none ∧ (s.slate.work = none → t.mem = s.mem)

/-- A record of an image is refused (R94, R96, R101, R102): it is counted, the first refusal is recorded, nothing else changes. -/
def RecRefused (c : Instr) (s : State) (why id : Nat) : Prop :=
  ∃ t, exec c s = .next t ∧ t = { s with regs := t.regs, fresh := t.fresh, boot := { s.boot with recs := s.boot.recs + 1 } } ∧
    fld t Fld.SYS_BOOTSTAT_REFUSED = min 0xFF (fld s Fld.SYS_BOOTSTAT_REFUSED + 1) ∧
    (fld s Fld.SYS_BOOTSTAT_REFUSED = 0 → fld t Fld.SYS_BOOTREC_FIRSTREF = s.boot.recs % 0x10000 ∧
      fld t Fld.SYS_BOOTREC_REASON = why % 0x100 ∧ fld t Fld.SYS_BOOTREC_BLOCKID = id % 0x100) ∧
    (fld s Fld.SYS_BOOTSTAT_REFUSED ≠ 0 → reg t Adr.SYS_BOOTREC = reg s Adr.SYS_BOOTREC) ∧
    FldsKept [Fld.SYS_BOOTSTAT_REFUSED, whole Adr.SYS_BOOTREC] s t

/-- A staged word as it comes into force (R32, R36): the SH fields are the staged ones, the others stay. -/
def inForce (s : State) (p : Nat × Word) : Word := (reg s p.1 &&& ~~~accMask p.1 .sh) ||| (p.2 &&& accMask p.1 .sh)

/-- A commit register after the one-shot flags of a write (R34, R37): what COMMIT and DISCARD then act on. -/
def commitFlags (s : State) (b : BlockInst) (v : Word) : State :=
  rsvCheck (setReg s (commitAddr b) (clearedBy s (commitAddr b) (reg s (commitAddr b)) v)) (commitAddr b) v

end Sys2Proof.Machine
end

