-- ==== Sys2Proof/Certificates/Slice0/Obligations.lean ====
section
/-! DEFINITION. The statements for the provers, each a Prop: what each command does to every state, from the rules that the docstring
names. `FldsKept` and `OnlyFlds` name every field of a register that may differ; what a record update does not name is unchanged. -/

open Sys2Proof Sys2Proof.Machine

/-! ### The block -/

/-- Log entry 2 (the model's choice): a step takes the command at the front of the queue and runs it with the rest behind it. -/
def Obligations.StepRunsTheFrontCommand : Prop :=
  ∀ (s : State) (c : Instr) (cs : List Instr), step { s with pending := c :: cs } = exec c { s with pending := cs }

/-- Log entry 2 (the model's choice): with no command waiting, one cycle of CLK100 passes, and where no G3 transfer waits for an
item (R125) only the clocks, Quartz's counts, the timers' counts, what the synchronisers hold and what each side of a channel sees move;
the flags of the past cycle are no longer new (R9). -/
def Obligations.IdleStepPassesOneCycle : Prop :=
  ∀ s : State, s.pending = [] →
    ∃ t, step s = .next t ∧ t.clk.now = s.clk.now + 1 ∧
      ((∀ g, s.host.g3 = some g → g.waiting = false) →
        t.fresh = [] ∧ FldsKept (Fld.QTZ_CDN_COUNT :: (List.range 16).flatMap fun n =>
          [whole (Adr.TMR_CNT n), whole (Adr.TMR_SNAPV n)]) s t ∧ (∀ n : Nat, (chan t n).wr = (chan s n).wr ∧ (chan t n).rd = (chan s n).rd) ∧
        t = { s with clk := t.clk, qtz := t.qtz, regs := t.regs, fresh := t.fresh, tmr := t.tmr, tout := t.tout
                     pins := { s.pins with tin := t.pins.tin }, fifo := t.fifo })

/-- State.reset keeps the canonical form of the byte stores (log entry 5, the model's choice), and holds what R71 and R582 give
it. -/
def Obligations.ResetIsAColdStart : Prop :=
  StoresWf State.reset ∧ State.reset.pending = [] ∧ State.reset.boot.step = 1 ∧ mode State.reset = 3 ∧
    fld State.reset Fld.SYS_BOOTSTAT_CAUSE = 1 ∧ flag State.reset Fld.QTZ_STAT_OSF = true ∧
    flag State.reset Fld.QTZ_STAT_PWRON = true ∧ flag State.reset Fld.SYS_BOOTSTAT_DONE = false ∧
    fld State.reset Fld.PROT_LEVEL_LEVEL = 0 ∧ State.reset.sched.grants = [] ∧ State.reset.slate.entries = []

/-- Every command runs to a next state, leaves the queue behind it alone, and keeps the canonical form of the NOR and of the
tag's store; so every step of the block does. -/
def Obligations.EveryStepKeepsTheStores : Prop :=
  (∀ (c : Instr) (s : State), ∃ t, exec c s = .next t ∧ t.pending = s.pending ∧ (StoresWf s → StoresWf t)) ∧
    ∀ s : State, StoresWf s → ∃ t, step s = .next t ∧ StoresWf t ∧ t.pending = s.pending.tail

/-- R135: a register command that its level is not permitted is denied whole, whatever command it is; and in a READ or a WRITE
of the host every word that is denied and shifted reads as zeros or is ignored, counts one and loads `PROT_DENY`. -/
def Obligations.DeniedAccessesOnlyReport : Prop :=
  (∀ (c : Instr) (s : State) (lvl : Level) (a : Nat) (wr : Bool), access c = some (lvl, a, wr) → permitted s lvl a wr = false →
    ∃ t, exec c s = .next t ∧ flag t Fld.HSP_STAT_PRIV = true ∧
      fld t Fld.HSP_CNT1_PRIVDEN = min 0xFFFF (fld s Fld.HSP_CNT1_PRIVDEN + 1) ∧
      bitsOf (reg t Adr.PROT_DENY) 31 16 = a % 0x10000 ∧ bitsOf (reg t Adr.PROT_DENY) 15 14 = levelCode lvl ∧
      bitsOf (reg t Adr.PROT_DENY) 13 13 = (if wr then 1 else 0) ∧
      OnlyFlds [Fld.HSP_STAT_PRIV, Fld.HSP_CNT1_PRIVDEN, whole Adr.PROT_DENY] s t) ∧
  (∀ (s : State) (addr count crc : BitVec 16), g2Open s = true → mustHold s = false → 0 < count.toNat →
    (∀ (shifted n : Nat) (e : List (Fin 3)), n = min shifted count.toNat → 0 < n → count.toNat ≤ 1024 →
      crc.toNat = crc16 (headBytes 0x81 addr.toNat count.toNat) →
      (∀ k < n, inBurst (windowOf addr.toNat) (addr.toNat + k) = true ∧
        permitted s (hostLevel s) (addr.toNat + k) false = false) →
      ∃ t, exec (.g2Read addr count crc shifted e) s = .next t ∧ flag t Fld.HSP_STAT_PRIV = true ∧
        t.host.hso = s.host.hso ++ (bitsMsb 32 (statusWord s).toNat ++ List.replicate 24 false) ++
          (List.replicate (32 * n) false ++ if shifted < count.toNat then [] else
            bitsMsb 16 (crc16 (List.replicate (4 * n) 0))) ∧
        fld t Fld.HSP_CNT1_PRIVDEN = min 0xFFFF (fld s Fld.HSP_CNT1_PRIVDEN + n) ∧
        bitsOf (reg t Adr.PROT_DENY) 31 16 = (addr.toNat + n - 1) % 0x10000 ∧
        bitsOf (reg t Adr.PROT_DENY) 15 14 = levelCode (hostLevel s) ∧ bitsOf (reg t Adr.PROT_DENY) 13 13 = 0 ∧
        FldsKept [Fld.HSP_STAT_PRIV, Fld.HSP_CNT1_PRIVDEN, whole Adr.PROT_DENY] s t ∧
        t = { s with regs := t.regs, fresh := t.fresh, host := t.host }) ∧
    (∀ words : List Word, words.length = count.toNat → count.toNat ≤ 256 → hostGate s = 2 →
      crc.toNat = crc16 (frameBytes 0x82 addr.toNat count.toNat words) →
      (∀ k < count.toNat, inBurst (windowOf addr.toNat) (addr.toNat + k) = true ∧
        permitted s (hostLevel s) (addr.toNat + k) true = false) →
      ∃ t, exec (.g2Write addr count words crc) s = .next t ∧ flag t Fld.HSP_STAT_PRIV = true ∧
        fld t Fld.HSP_CNT1_PRIVDEN = min 0xFFFF (fld s Fld.HSP_CNT1_PRIVDEN + count.toNat) ∧
        bitsOf (reg t Adr.PROT_DENY) 31 16 = (addr.toNat + count.toNat - 1) % 0x10000 ∧
        bitsOf (reg t Adr.PROT_DENY) 15 14 = levelCode (hostLevel s) ∧ bitsOf (reg t Adr.PROT_DENY) 13 13 = 1 ∧
        FldsKept [Fld.HSP_STAT_PRIV, Fld.HSP_CNT1_PRIVDEN, whole Adr.PROT_DENY] s t ∧
        t = { s with regs := t.regs, fresh := t.fresh, host := t.host }))

/-- R141: at its boundary, the rise of HSEL_N, an HSP set with LEN 0 or above 4,096, US 0 or G3IDLE 0 is refused with RANGE, and
any other is accepted; in a select, and in the cycle of its COMMIT (R35), it waits. Every set at its boundary comes into force or is
refused there; the clauses about the HSP set are for it as the one that waits. `swapWords` gives the block as the set would leave it. -/
def Obligations.HspCommitIsCheckedForRange : Prop :=
  ∀ (s v : State) (b : BlockInst), b = ⟨.hsp, 0⟩ → flag s (cPend b) = true → v = swapWords s b (fun _ => true) →
    (s.pins.hselN = false ∨ commitNew s b = true → exec (.shadowSwap b) s = .next s) ∧
    (s.pins.hselN = true → commitNew s b = false → exec (.shadowSwap b) s = .next (settle s)) ∧
    (s.pins.hselN = true → commitNew s b = false → pendingInsts s = [b] → (fld v Fld.HSP_LEN_LEN = 0 ∨ 4096 < fld v Fld.HSP_LEN_LEN ∨ fld v Fld.HSP_STALL_MAX_US = 0 ∨
        fld v Fld.HSP_CFG_G3IDLE = 0) →
      ∃ t, exec (.shadowSwap b) s = .next t ∧ flag t (cReject b) = true ∧ fld t (cReason b) = rsnRange ∧
        fld t (cSeq b) = fld s (cSeq b) ∧ flag t (cPend b) = false ∧
        FldsKept ([cPend b, cCommit b, cReject b, cReason b, intBit 1] ++ packetFlds) s t ∧
        t = { s with regs := t.regs, fresh := t.fresh, fifo := t.fifo, lnk := t.lnk, tag := t.tag }) ∧
    (s.pins.hselN = true → commitNew s b = false → pendingInsts s = [b] → 0 < fld v Fld.HSP_LEN_LEN → fld v Fld.HSP_LEN_LEN ≤ 4096 → fld v Fld.HSP_STALL_MAX_US ≠ 0 →
        fld v Fld.HSP_CFG_G3IDLE ≠ 0 →
      ∃ t, exec (.shadowSwap b) s = .next t ∧ fld t (cSeq b) = (fld s (cSeq b) + 1) % 256 ∧ flag t (cPend b) = false ∧
        fld t Fld.HSP_LEN_LEN = fld v Fld.HSP_LEN_LEN ∧ fld t Fld.HSP_STALL_MAX_US = fld v Fld.HSP_STALL_MAX_US ∧
        fld t Fld.HSP_CFG_G3IDLE = fld v Fld.HSP_CFG_G3IDLE)

/-! ### Start-up, configuration, image records -/

/-- CORE_SUPPLY_LOSS, CORE_SUPPLY_VALID, VDDIO_LOSS, VDDIO_VALID, RST_ASSERT, RST_RELEASE, POR_BACKUP (R54, R71–R73, R535, R582,
R591–R593). WATCHDOG_EXPIRY, SRAM_UE, SRAM_CE, RESTART, RELOAD (R46, R71, R73, R105). -/
def Obligations.ResetsAndRestartsBeginStarts : Prop :=
  (∀ s : State,
    (s.pins.core = true → ∃ t, exec .coreSupplyLoss s = .next t ∧ CoreReset [Adr.SYS_MODE] s t ∧ mode t = 0 ∧
      t.pins = { s.pins with core := false, hrdy := false }) ∧
    (s.pins.core = false → exec .coreSupplyLoss s = .next s) ∧
    (s.pins.core = false → s.pins.vddio = true → s.pins.rstN = true →
      ∃ t, exec .coreSupplyValid s = .next t ∧ CoreReset [Adr.SYS_BOOTSTAT] s t ∧ fld t Fld.SYS_BOOTSTAT_CAUSE = 1 ∧
        flag t Fld.SYS_BOOTSTAT_DONE = false ∧ t.boot.step = 1 ∧ t.pins = { s.pins with core := true, hrdy := false }) ∧
    (s.pins.core = false → s.pins.vddio = false ∨ s.pins.rstN = false →
      exec .coreSupplyValid s = .next { s with pins := { s.pins with core := true } }) ∧
    (s.pins.vddio = true → s.pins.core = true → ∃ t, exec .vddioLoss s = .next t ∧ CoreReset [] s t ∧
      t.boot.step = 0 ∧ t.pins = { s.pins with vddio := false, hrdy := false }) ∧
    (s.pins.vddio = false ∨ s.pins.core = false →
      exec .vddioLoss s = .next { s with pins := { s.pins with vddio := false } }) ∧
    (s.pins.vddio = false → s.pins.core = true → s.pins.rstN = true →
      ∃ t, exec .vddioValid s = .next t ∧ CoreReset [Adr.SYS_BOOTSTAT] s t ∧
        fld t Fld.SYS_BOOTSTAT_CAUSE = (if s.boot.started then 2 else 1) ∧ t.boot.step = 1 ∧
        t.pins = { s.pins with vddio := true, hrdy := false }) ∧
    (s.pins.vddio = true → exec .vddioValid s = .next s) ∧
    (s.pins.rstN = true → s.pins.core = true → ∃ t, exec .rstAssert s = .next t ∧ CoreReset [] s t ∧
      t.boot.step = 0 ∧ t.pins = { s.pins with rstN := false, hrdy := false }) ∧
    (s.pins.rstN = false ∨ s.pins.core = false →
      exec .rstAssert s = .next { s with pins := { s.pins with rstN := false } }) ∧
    (s.pins.rstN = false → s.pins.core = true → s.pins.vddio = true →
      ∃ t, exec .rstRelease s = .next t ∧ CoreReset [Adr.SYS_BOOTSTAT] s t ∧ fld t Fld.SYS_BOOTSTAT_CAUSE = 2 ∧
        t.boot.step = 1 ∧ t.pins = { s.pins with rstN := true, hrdy := false }) ∧
    (s.pins.rstN = true → exec .rstRelease s = .next s) ∧
    (∀ byField, s.pins.vbat = false → flag s Fld.TAG_STAT_FIELD = false →
      ∃ t, exec (.porBackup byField) s = .next t ∧ t.pins = { s.pins with vbat := !byField } ∧
        flag t Fld.QTZ_STAT_OSF = true ∧ flag t Fld.QTZ_STAT_PWRON = true ∧ t.qtz = {} ∧ t.tag.snap = none ∧
        (∀ a, 0x200 ≤ a → a ≤ 0x2FF → a ≠ Adr.QTZ_STAT → reg t a = resetWord a) ∧
        fld t Fld.SYS_BOOTSTAT_CAUSE = 0 ∧
        (∀ g : Field, g.addr < 0x200 ∨ 0x2FF < g.addr → g.addr ≠ Adr.HSP_INT1 → g.apart Fld.SYS_BOOTSTAT_CAUSE →
          fld t g = fld s g) ∧ t.mem = s.mem ∧ t.sched = s.sched) ∧
    (∀ byField, s.pins.vbat = true ∨ flag s Fld.TAG_STAT_FIELD = true → exec (.porBackup byField) s = .next s)) ∧
  (∀ s : State,
    (restartable s = true →
      (∃ t, exec .watchdogExpiry s = .next t ∧ CoreReset [Adr.SYS_BOOTSTAT, Adr.SYS_CLKSTAT, Adr.HSP_STAT] s t ∧
        fld t Fld.SYS_BOOTSTAT_CAUSE = 4 ∧ t.boot.step = 5 ∧
        fld t Fld.SYS_BOOTSTAT_BOOTSEL = fld s Fld.SYS_BOOTSTAT_BOOTSEL ∧ t.pins = s.pins) ∧
      (∀ a : Word, ∃ t, exec (.sramUe (.other a)) s = .next t ∧ fld t Fld.SYS_BOOTSTAT_CAUSE = 3 ∧ t.boot.step = 5 ∧
        (chan t 7).wr = packetUnits (fltWords (q64 t) 0x00 0 0x03 (leBytes 4 a.toNat)) ∧ t.qtz = s.qtz ∧ t.pins = s.pins)) ∧
    (restartable s = false →
      exec .watchdogExpiry s = .next s ∧ ∀ a : Word, exec (.sramUe (.other a)) s = .next s) ∧
    (∀ (n : Fin 2048) (e : Sighting), running s = true → sgtAt s n = some e →
      ∃ t, exec (.sramUe (.sighting n)) s = .next t ∧ sgtAt t n = none ∧ flag t Fld.SGT_STAT_INVALID = true ∧
        FldsKept ([whole Adr.SGT_CNT0, Fld.SGT_STAT_INVALID] ++ packetFlds) s t ∧
        t = { s with regs := t.regs, fresh := t.fresh, fifo := t.fifo, sgt := t.sgt }) ∧
    (running s = false → exec .sramCe s = .next s ∧ ∀ n, exec (.sramUe (.sighting n)) s = .next s) ∧
    (running s = true → ∃ t, exec .sramCe s = .next t ∧ flag t (intBit 60) = true ∧ OnlyFlds [intBit 60] s t) ∧
    (∀ (lvl : Level) (key : BitVec 16), permitted s lvl Adr.SYS_BOOTCMD true = true →
      (key ≠ 0xA55A ∨ supervisorLevel lvl = false →
        exec (.restart lvl key) s = .next s ∧ exec (.reload lvl key) s = .next s) ∧
      (supervisorLevel lvl = true →
        (∃ t, exec (.restart lvl 0xA55A) s = .next t ∧ CoreReset [Adr.SYS_BOOTSTAT] s t ∧
          fld t Fld.SYS_BOOTSTAT_CAUSE = 5 ∧ t.boot.step = 1 ∧ t.pins = { s.pins with hrdy := false }) ∧
        (∃ t, exec (.reload lvl 0xA55A) s = .next t ∧
          CoreReset [Adr.SYS_BOOTSTAT, Adr.SYS_CLKSTAT, Adr.HSP_STAT] s t ∧ fld t Fld.SYS_BOOTSTAT_CAUSE = 6 ∧
          t.boot.step = 5 ∧ t.boot.ignoreBootsel = true ∧ t.pins = s.pins))))

/-- STARTUP, RUN (R74, R77, R80, R95, R97, R100, R105): the straps, BARE, and autonomous operation. -/
def Obligations.StartsEndInBareOrDone : Prop :=
  ∀ (s : State) (inp : StartInputs),
    (powered s = false ∨ s.boot.step = 0 → exec (.startup inp) s = .next s) ∧
    (powered s = true →
      (s.boot.step = 5 → flag s Fld.SYS_BOOTSTAT_BOOTSEL = true → s.boot.ignoreBootsel = false →
        ∃ t, exec (.startup inp) s = .next t ∧ flag t Fld.SYS_BOOTSTAT_BARE = true ∧ flag t Fld.SYS_BOOTSTAT_DONE = false ∧
          fld t Fld.PROT_LEVEL_LEVEL = 1 ∧ reg t Adr.SYS_BOOTSEQ = 0xFFFFFFFF ∧ flag t (intBit 0) = true ∧ t.boot.step = 0 ∧
          FldsKept ([Fld.SYS_BOOTSTAT_BARE, Fld.SYS_BOOTSTAT_DONE, Fld.PROT_LEVEL_LEVEL, whole Adr.SYS_BOOTSEQ, intBit 0] ++
            packetFlds) s t ∧
          t = { s with regs := t.regs, fresh := t.fresh, boot := t.boot, tag := t.tag, fifo := t.fifo }) ∧
      (s.boot.step = 1 → inp.bootsel = .high → inp.pllLocks = true → s.boot.ignoreBootsel = false →
        ∃ t, exec (.startup inp) s = .next t ∧ flag t Fld.SYS_BOOTSTAT_BARE = true ∧ t.pins = { s.pins with hrdy := true } ∧
          (flag t Fld.SYS_BOOTSTAT_HGEN = true ↔ inp.hgen = .high) ∧
          (flag t Fld.HSP_STAT_FRAMING = true ↔ inp.hgen = .high) ∧ flag t Fld.SYS_CLKSTAT_REFOK = true ∧
          fld t Fld.SYS_BOOTSTAT_OSF = fld s Fld.QTZ_STAT_OSF ∧ flag t Fld.SYS_CLKSTAT_PLLLOCK = true ∧
          flag t Fld.SYS_CLKSTAT_FALLBACK = false) ∧
      (s.boot.step = 5 → s.boot.ignoreBootsel = true → inp.jedec = 0 ∨ inp.jedec = 0xFFFFFF →
        ∃ t, exec (.startup inp) s = .next t ∧ flag t Fld.SYS_BOOTSTAT_BARE = true ∧ fld t Fld.SYS_BOOTSTAT_AWHY = 8 ∧
          fld t Fld.SYS_BOOTSTAT_BWHY = 8 ∧ t.pins = s.pins ∧
          t.mem = { s.mem with sent := [0xAB, 0x66, 0x99, 0x9F] }) ∧
      (s.boot.step = 7 ∨ (s.boot.step = 5 ∧ s.boot.ignoreBootsel = true ∧ (chooseImage s inp).2 = true) →
        ∃ t, exec (.startup inp) s = .next t ∧ flag t Fld.SYS_BOOTSTAT_DONE = true ∧
          flag t Fld.SYS_BOOTSTAT_BARE = false ∧ flag t (intBit 0) = true ∧ t.boot.step = 0 ∧ t.sched.point = true)) ∧
    (∀ (lvl : Level) (key : BitVec 16), permitted s lvl Adr.SYS_BOOTCMD true = true →
      (key ≠ 0xA55A ∨ supervisorLevel lvl = false ∨ flag s Fld.SYS_BOOTSTAT_BARE = false → s.boot.step ≠ 7 →
        exec (.run lvl key inp) s = .next s) ∧
      (powered s = true → supervisorLevel lvl = true → flag s Fld.SYS_BOOTSTAT_BARE = true →
        ∃ t, exec (.run lvl 0xA55A inp) s = .next t ∧ flag t Fld.SYS_BOOTSTAT_DONE = true ∧
          flag t Fld.SYS_BOOTSTAT_BARE = false ∧ fld t Fld.PROT_LEVEL_LEVEL = 0 ∧ t.sched.point = true))

/-- REGISTER_WRITE, COMMIT, DISCARD (R8–R11, R32–R37): plain fields are stored, a flag that the device has set in the same cycle
stays set and a one in a reserved bit ends with RANGE set, SH fields are staged, a pending set is not changed, a commit waits
for its boundary and a discard reloads. -/
def Obligations.WritesStageAndCommitsWait : Prop :=
  ∀ (s : State) (lvl : Level),
    (∀ (addr : BitVec 16) (v : Word), populated addr.toNat = false →
      ∃ t, exec (.registerWrite lvl addr v) s = .next t ∧ flag t Fld.HSP_STAT_RANGE = true ∧
        OnlyFlds [Fld.HSP_STAT_RANGE] s t) ∧
    (∀ (addr : BitVec 16) (v : Word), populated addr.toNat = true → permitted s lvl addr.toNat true = true →
      (∀ u w, actWrite u lvl addr.toNat w = none) →
      (accMask addr.toNat .sh = 0 → isCommit addr.toNat = false →
        ∃ t, exec (.registerWrite lvl addr v) s = .next t ∧
          (addr.toNat ≠ Adr.HSP_STAT → reg t addr.toNat =
            (((reg s addr.toNat &&& ~~~accMask addr.toNat .rw) ||| (v &&& accMask addr.toNat .rw)) &&&
              ~~~(v &&& accMask addr.toNat .w1c &&& ~~~freshAt s addr.toNat)) ||| (v &&& accMask addr.toNat .w1s)) ∧
          (v &&& accMask addr.toNat .rsv ≠ 0 → flag t Fld.HSP_STAT_RANGE = true) ∧
          OnlyFlds [whole addr.toNat, Fld.HSP_STAT_RANGE] s t) ∧
      (∀ b, blockOf addr.toNat = some b → commitAddr b ≠ addr.toNat → accMask addr.toNat .sh ≠ 0 →
        (flag s (cPend b) = false →
          ∃ t, exec (.registerWrite lvl addr v) s = .next t ∧
            shadowReg t addr.toNat &&& accMask addr.toNat .sh = v &&& accMask addr.toNat .sh ∧
            (∀ a, a ≠ addr.toNat → regFind t.shadow a = regFind s.shadow a) ∧
            FldsKept [whole addr.toNat, Fld.HSP_STAT_RANGE] s t ∧ t = { s with regs := t.regs, fresh := t.fresh, shadow := t.shadow }) ∧
        (flag s (cPend b) = true →
          ∃ t, exec (.registerWrite lvl addr v) s = .next t ∧ flag t (cWrlock b) = true ∧
            OnlyFlds [whole addr.toNat, Fld.HSP_STAT_RANGE, cWrlock b] s t))) ∧
    (∀ b : BlockInst, validInst b = false →
      exec (.commit lvl b) s = .next s ∧ ∀ c, exec (.discard lvl b c) s = .next s) ∧
    (∀ b : BlockInst, validInst b = true → permitted s lvl (commitAddr b) true = true →
      (flag s (cPend b) = true →
        ∃ t, exec (.commit lvl b) s = .next t ∧ OnlyFlds [Fld.HSP_STAT_RANGE] s t) ∧
      (flag s (cPend b) = false → blockIdle (setPend (commitFlags s b 1) b 1) b = false →
        ∃ t, exec (.commit lvl b) s = .next t ∧ flag t (cPend b) = true ∧ flag t (cCommit b) = true ∧
          OnlyFlds [cPend b, cCommit b, Fld.HSP_STAT_RANGE] s t) ∧
      (flag s (cPend b) = false → blockIdle (setPend (commitFlags s b 1) b 1) b = true →
        ∃ u, u = setPend (commitFlags s b 1) b 1 ∧ OnlyFlds [cPend b, cCommit b, Fld.HSP_STAT_RANGE] s u ∧
          exec (.commit lvl b) s = .next (boundary u b)) ∧
      (∃ t, exec (.discard lvl b false) s = .next t ∧ flag t (cPend b) = false ∧ stagedOf t b = [] ∧
        (∀ a, blockOf a ≠ some b → regFind t.shadow a = regFind s.shadow a) ∧
        (b.block = .brm → t.brm.poolShadow = s.brm.pool) ∧ FldsKept [cPend b, cCommit b, Fld.HSP_STAT_RANGE] s t ∧
        t = { s with regs := t.regs, fresh := t.fresh, shadow := t.shadow, parts := t.parts, brm := t.brm }))

/-- SHADOW_SWAP, PART_SWAP (R32–R35, R38, R40, R42, R609): away from its boundary, and in the cycle of its COMMIT, a set waits; at a
boundary every set whose boundary it is settles; the one that waits is refused whole where it fails a check, and comes into force whole
where it passes, a parted one part by part. -/
def Obligations.BoundariesSwapOrRefuse : Prop :=
  ∀ (s : State) (b : BlockInst),
    (validInst b = false → exec (.shadowSwap b) s = .next s) ∧
    (validInst b = false ∨ flag s (cPend b) = false → ∀ n, exec (.partSwap b n) s = .next s) ∧
    (atBoundary s b = false → exec (.shadowSwap b) s = .next s) ∧
    (commitNew s b = true → atBoundary s b = false) ∧
    (validInst b = true → atBoundary s b = true → exec (.shadowSwap b) s = .next (settle s)) ∧
    (∀ n, isParted b.block = false ∨ partAt s b.block n = false → exec (.partSwap b n) s = .next s) ∧
    (validInst b = true → flag s (cPend b) = true →
      (isParted b.block = false ∨ (partsLeft s b.block) = none → checkOf s b ≠ 0 → atBoundary s b = true →
        pendingInsts s = [b] →
        ∃ t, exec (.shadowSwap b) s = .next t ∧ flag t (cPend b) = false ∧ flag t (cReject b) = true ∧
          fld t (cReason b) = checkOf s b % 256 ∧ fld t (cSeq b) = fld s (cSeq b) ∧
          FldsKept ([cPend b, cCommit b, cReject b, cReason b, intBit 1] ++ packetFlds) s t ∧
          t = { s with regs := t.regs, fresh := t.fresh, fifo := t.fifo, lnk := t.lnk, tag := t.tag }) ∧
      (checkOf s b = 0 → atBoundary s b = true → pendingInsts s = [b] → b.block = .prot ∨ b.block = .rp ∨ b.block = .hf ∨ b.block = .msp ∨ b.block = .hsp →
        ∃ t, exec (.shadowSwap b) s = .next t ∧ flag t (cPend b) = false ∧
          fld t (cSeq b) = (fld s (cSeq b) + 1) % 256 ∧
          (∀ p ∈ stagedOf s b, p.1 ≠ commitAddr b → (∀ q ∈ stagedOf s b, q.1 = p.1 → q = p) → reg t p.1 = inForce s p) ∧
          t.shadow = s.shadow.filter (fun p => blockOf p.1 != some b) ∧
          FldsKept ([cPend b, cCommit b, cSeq b, Fld.FIFO_CH_CNT_DROP 8] ++ (stagedOf s b).map fun p => whole p.1) s t ∧
          t = { s with regs := t.regs, fresh := t.fresh, shadow := t.shadow, fifo := t.fifo, cal := t.cal }) ∧
      (∀ l n, isParted b.block = true → partsLeft s b.block = some l → n ∈ l → partAt s b.block n = true →
        ∃ t, exec (.partSwap b n) s = .next t ∧
          ((∀ m ∈ l, partAt s b.block m = true) → flag t (cPend b) = false ∧ partsLeft t b.block = none) ∧
          ((∃ m ∈ l, partAt s b.block m = false) →
            flag t (cPend b) = true ∧ partsLeft t b.block = some (l.filter fun m => !partAt s b.block m)) ∧
          (∀ p ∈ stagedOf s b, p.1 ≠ commitAddr b → partOf b.block p.1 = some n →
            (∀ q ∈ stagedOf s b, q.1 = p.1 → q = p) → reg t p.1 = inForce s p) ∧
          FldsKept ([cPend b, cCommit b, whole Adr.GRS_STAT] ++ (stagedOf s b).map fun p => whole p.1) s t ∧
          t = { s with regs := t.regs, fresh := t.fresh, shadow := t.shadow, parts := t.parts, cal := t.cal, grs := t.grs }))

/-- REG_RECORD, BLOCK_RECORD, KEY_RECORD, RECSKIP (R85, R87, R88, R92, R94, R102). SLATE_RECORD, HEDGE_RECORD, CAL_RECORD,
PROT_RECORD (R89–R91, R93, R94): validated before anything is written, then written, staged or in force. -/
def Obligations.ImageRecordsApplyOrAreRefused : Prop :=
  (∀ s : State,
    (∀ ts : List RegTriple, ts.any tripleBad = true → RecRefused (.regRecord ts) s rsnAddr 0xFF) ∧
    (∀ r : RegTriple, tripleBad r = false → isCommit r.addr.toNat = false → r.addr.toNat ≠ Adr.HSP_STAT →
      (∀ u w, actWrite u .firmware r.addr.toNat w = none) → accMask r.addr.toNat .sh = 0 →
      ∃ t, exec (.regRecord [r]) s = .next t ∧ t.boot = { s.boot with recs := s.boot.recs + 1 } ∧
        reg t r.addr.toNat = (((reg s r.addr.toNat &&& ~~~(accMask r.addr.toNat .rw &&& r.mask)) |||
          (r.value &&& (accMask r.addr.toNat .rw &&& r.mask))) &&& ~~~(r.value &&& r.mask &&& accMask r.addr.toNat .w1c &&&
          ~~~freshAt s r.addr.toNat)) |||
          (r.value &&& r.mask &&& accMask r.addr.toNat .w1s) ∧
        FldsKept [whole r.addr.toNat, Fld.HSP_STAT_RANGE] s t ∧ t = { s with regs := t.regs, fresh := t.fresh, boot := t.boot }) ∧
    (∀ (a : BitVec 16) (ws : List Word) (commit : Bool),
      (List.range ws.length).any (fun k => blockWordBad (a.toNat + k)) = true →
      RecRefused (.blockRecord a ws commit) s rsnAddr 0xFF) ∧
    (∀ (a : BitVec 16) (w : Word), blockWordBad a.toNat = false → isCommit a.toNat = false → a.toNat ≠ Adr.HSP_STAT →
      (∀ u w, actWrite u .firmware a.toNat w = none) → accMask a.toNat .sh = 0 →
      ∃ t, exec (.blockRecord a [w] false) s = .next t ∧ t.boot = { s.boot with recs := s.boot.recs + 1 } ∧
        reg t a.toNat = (((reg s a.toNat &&& ~~~accMask a.toNat .rw) ||| (w &&& accMask a.toNat .rw)) &&&
          ~~~(w &&& accMask a.toNat .w1c &&& ~~~freshAt s a.toNat)) ||| (w &&& accMask a.toNat .w1s) ∧
        FldsKept [whole a.toNat, Fld.HSP_STAT_RANGE] s t ∧ t = { s with regs := t.regs, fresh := t.fresh, boot := t.boot }) ∧
    (∀ (usage : Byte) (slot : BitVec 5) (key : List Byte),
      (keyLen usage.toNat = 0 ∨ key.length ≠ keyLen usage.toNat ∨ (usage = 5 ∧ slot ≠ 0) →
        RecRefused (.keyRecord usage slot key) s rsnKey 0xFF) ∧
      (keyLen usage.toNat ≠ 0 → key.length = keyLen usage.toNat → usage ≠ 5 ∨ slot = 0 →
        exec (.keyRecord usage slot key) s = .next { s with boot := { s.boot with
          recs := s.boot.recs + 1
          keys := s.boot.keys.filter (fun k => !(k.usage == usage.toNat && k.slot == slot.toNat)) ++
            [⟨usage.toNat, slot.toNat, key⟩] } })) ∧
    (∀ (index : BitVec 16) (type : Byte),
      ∃ t, exec (.recskip index type) s = .next t ∧ t.boot = { s.boot with recs := s.boot.recs + 1 } ∧
        FldsKept packetFlds s t ∧ t = { s with regs := t.regs, fresh := t.fresh, boot := t.boot, fifo := t.fifo, lnk := t.lnk, tag := t.tag })) ∧
  (∀ s : State,
    (∀ (i : Fin 1024) (preserve : Bool) (e : Entry) (bad : List Nat), e.length = 64 →
      (∀ j why, slateRefusal s [(i.val, e)] = some (j, why) →
        ∃ t, exec (.slateRecord i preserve [e] bad) s = .next t ∧ j = i ∧ flag t Fld.SLT_STAT_CFG_REJECT = true ∧
          fld t Fld.SLT_STAT_REASON = why % 0x100 ∧ fld t Fld.SLT_STAT_RESULT = 2 ∧
          fld t Fld.SYS_BOOTSTAT_REFUSED = min 0xFF (fld s Fld.SYS_BOOTSTAT_REFUSED + 1) ∧
          (fld s Fld.SYS_BOOTSTAT_REFUSED = 0 → fld t Fld.SYS_BOOTREC_FIRSTREF = s.boot.recs % 0x10000 ∧
            fld t Fld.SYS_BOOTREC_REASON = why % 0x100 ∧ fld t Fld.SYS_BOOTREC_BLOCKID = 0x11) ∧
          t.boot = { s.boot with recs := s.boot.recs + 1 } ∧
          FldsKept ([Fld.SLT_STAT_CFG_REJECT, Fld.SLT_STAT_REASON, Fld.SLT_STAT_RESULT, Fld.SYS_BOOTSTAT_REFUSED, whole Adr.SYS_BOOTREC, intBit 1] ++
            packetFlds) s t ∧
          t = { s with regs := t.regs, fresh := t.fresh, boot := t.boot, fifo := t.fifo, lnk := t.lnk, tag := t.tag }) ∧
      (slateRefusal s [(i.val, e)] = none → slateNeeds s preserve (i.val, e) = false →
        exec (.slateRecord i preserve [e] bad) s = .next { s with boot := { s.boot with recs := s.boot.recs + 1 } }) ∧
      (slateRefusal s [(i.val, e)] = none → slateNeeds s preserve (i.val, e) = true → bad.contains (slateSector i) = false →
        StoresWf s → (∀ p ∈ s.slate.copied, p.1 ≠ slateSector i) →
        ∃ t, exec (.slateRecord i preserve [e] bad) s = .next t ∧ storedEntry t i = recEntry e ∧ fld t Fld.SLT_STAT_RESULT = 1 ∧
          entryAt t i = (if entryValid (recEntry e) then some (recEntry e) else none) ∧
          t.boot = { s.boot with recs := s.boot.recs + 1 } ∧
          (∀ j : Nat, j < 1024 → j ≠ i → storedEntry t j = storedEntry s j) ∧
          (∀ a, a < slateSector i ∨ slateSector i + 4096 ≤ a → byteAt t.mem.nor a = byteAt s.mem.nor a))) ∧
    (∀ es : List HedgeEntry, es.any hedgeEntryBad = true → RecRefused (.hedgeRecord es) s rsnRange 0x08) ∧
    (∀ (e : HedgeEntry) (b : BlockInst) (u : State), hedgeEntryBad e = false → cycleFrom s [e] e.index.toNat = false →
      b = ⟨.hdg, e.index.toNat⟩ → stagedOf s b = [] → flag s (cPend b) = false → u = setPend (hedgeStage s e) b 1 →
      blockIdle u b = true → checkOf u b = 0 →
      ∃ t, exec (.hedgeRecord [e]) s = .next t ∧ hedgeN t e.index.toNat = e.nchild.toNat ∧
        (∀ k, k < 8 → hedgeChild t e.index.toNat k = (e.child.getD k 0).toNat % 128 ∧
          hedgeWeight t e.index.toNat k = (e.weight.getD k 0).toNat) ∧
        fld t (cSeq b) = (fld s (cSeq b) + 1) % 256 ∧ flag t (cPend b) = false ∧
        fld t Fld.SYS_BOOTSTAT_REFUSED = fld s Fld.SYS_BOOTSTAT_REFUSED ∧ t.boot.recs = s.boot.recs + 1 ∧
        t.mem = s.mem ∧ t.slate = s.slate) ∧
    (∀ (item inst : Byte) (trusted : Bool) (ws : List Word),
      (calCountOk item.toNat inst.toNat ws.length = false →
        ∃ t, exec (.calRecord item inst trusted ws) s = .next t ∧ fld t Fld.SYS_BOOTREC_BLOCKID = 0x0F ∧
          OnlyFlds [Fld.SYS_BOOTREC_BLOCKID] s t) ∧
      (recordInstances item.toNat ≤ inst.toNat → calCountOk item.toNat inst.toNat ws.length = true →
        RecRefused (.calRecord item inst trusted ws) s rsnRange 0x0F) ∧
      (inst.toNat < recordInstances item.toNat → calCountOk item.toNat inst.toNat ws.length = true →
        (itemPresent s item.toNat inst.toNat = false → RecRefused (.calRecord item inst trusted ws) s rsnAbsent 0x0F) ∧
        (∀ u, itemPresent s item.toNat inst.toNat = true → item ≠ 7 → flag s (cPend (itemBlock item.toNat)) = false →
          u = ((itemWords item.toNat inst.toNat).zip ws).foldl (fun t p => stageWord t p.1 p.2) s →
          blockIdle (setPend u (itemBlock item.toNat) 1) (itemBlock item.toNat) = false →
          ∃ t, exec (.calRecord item inst trusted ws) s = .next t ∧ flag t (cPend (itemBlock item.toNat)) = true ∧
            (∀ p ∈ (itemWords item.toNat inst.toNat).zip ws,
              shadowReg t p.1 &&& accMask p.1 .sh = p.2 &&& accMask p.1 .sh) ∧
            (trusted = true → (item.toNat, inst.toNat) ∈ t.boot.trusted) ∧ t.boot.recs = s.boot.recs + 1 ∧
            FldsKept [cPend (itemBlock item.toNat), cCommit (itemBlock item.toNat)] s t ∧
            t = { s with regs := t.regs, fresh := t.fresh, shadow := t.shadow, boot := t.boot }))) ∧
    (∀ es : List ProtEntry, es.any (fun e => 32 ≤ e.index.toNat) = true → RecRefused (.protRecord es) s rsnRange 0x01) ∧
    (∀ e : ProtEntry, e.index.toNat < 32 → flag s (cPend ⟨.prot, 0⟩) = false → s.pins.hselN = false →
      ∃ t, exec (.protRecord [e]) s = .next t ∧ flag t (cPend ⟨.prot, 0⟩) = true ∧
        bitsOf (shadowReg t (Adr.PROT_RANGE e.index.toNat)) 31 16 = e.last.toNat ∧
        bitsOf (shadowReg t (Adr.PROT_RANGE e.index.toNat)) 15 0 = e.first.toNat ∧
        bitsOf (shadowReg t (Adr.PROT_PERM e.index.toNat)) 7 0 = e.perms.toNat ∧
        t.boot = { s.boot with recs := s.boot.recs + 1 } ∧
        FldsKept [cPend ⟨.prot, 0⟩, cCommit ⟨.prot, 0⟩] s t ∧
        t = { s with regs := t.regs, fresh := t.fresh, shadow := t.shadow, boot := t.boot }))

/-! ### Modes, power, clocks -/

/-- SLEEP_NOW, ENTER_SERVICE, LEAVE_SERVICE, ENTER_BACKUP, CANCEL refused: the checks of R68 in their order. -/
def Obligations.ModeCommandsAreRefusedInOrder : Prop :=
  ∀ (s : State) (lvl : Level) (key : BitVec 16), permitted s lvl Adr.SYS_MODECMD true = true →
    (key ≠ 0xA55A →
      ∃ t, fld t Fld.SYS_MODE_CMDRES = 4 ∧ OnlyFlds [Fld.SYS_MODE_CMDRES] s t ∧ exec (.sleepNow lvl key) s = .next t ∧
        exec (.enterService lvl key) s = .next t ∧ exec (.leaveService lvl key) s = .next t ∧
        exec (.enterBackup lvl key) s = .next t ∧ exec (.cancel lvl key) s = .next t) ∧
    (lvl ≠ .supervisor →
      ∃ t, fld t Fld.SYS_MODE_CMDRES = 2 ∧ OnlyFlds [Fld.SYS_MODE_CMDRES] s t ∧
        exec (.enterService lvl 0xA55A) s = .next t ∧ exec (.leaveService lvl 0xA55A) s = .next t ∧
        exec (.enterBackup lvl 0xA55A) s = .next t) ∧
    (s.modes.cmd ≠ none →
      ∃ t, fld t Fld.SYS_MODE_CMDRES = 3 ∧ OnlyFlds [Fld.SYS_MODE_CMDRES] s t ∧ exec (.sleepNow lvl 0xA55A) s = .next t ∧
        (lvl = .supervisor → exec (.enterService lvl 0xA55A) s = .next t ∧
          exec (.leaveService lvl 0xA55A) s = .next t ∧ exec (.enterBackup lvl 0xA55A) s = .next t)) ∧
    (s.modes.cmd = none →
      ∃ t, fld t Fld.SYS_MODE_CMDRES = 6 ∧ OnlyFlds [Fld.SYS_MODE_CMDRES] s t ∧ exec (.cancel lvl 0xA55A) s = .next t ∧
        (mode s ≠ 3 → mode s ≠ 4 → exec (.sleepNow lvl 0xA55A) s = .next t) ∧
        (lvl = .supervisor →
          (mode s ≠ 3 → mode s ≠ 4 → exec (.enterService lvl 0xA55A) s = .next t) ∧
          (mode s ≠ 5 → exec (.leaveService lvl 0xA55A) s = .next t) ∧
          (mode s < 3 → exec (.enterBackup lvl 0xA55A) s = .next t))) ∧
    (s.modes.cmd = none → mode s = 3 ∨ mode s = 4 → fld s Fld.SYS_MODECTL_FLOOR = 3 →
      ∃ t, fld t Fld.SYS_MODE_CMDRES = 5 ∧ OnlyFlds [Fld.SYS_MODE_CMDRES] s t ∧ exec (.sleepNow lvl 0xA55A) s = .next t)

/-- SLEEP_NOW, ENTER_SERVICE, LEAVE_SERVICE, ENTER_BACKUP and CANCEL complete (R54, R59, R60, R64, R67, R68): with the key, from
a level that may, in a mode that has the transition and with no other command in hand, each answers a next state with its
effect. The first five clauses give that next state for `sleepNow`, `cancel`, `leaveService`, `enterService` and `enterBackup`
whole. -/
def Obligations.ModeCommandsTakeEffect : Prop :=
  ∀ (s : State) (lvl : Level) (key : BitVec 16), key = 0xA55A → permitted s lvl Adr.SYS_MODECMD true = true →
    (s.modes.cmd = none → mode s = 3 ∨ mode s = 4 → fld s Fld.SYS_MODECTL_FLOOR ≠ 3 →
      exec (.sleepNow lvl key) s = .next (cmdWait (setFld s Fld.SYS_MODE_CMDRES 1) .sleepNow)) ∧
    (s.modes.cmd ≠ none →
      exec (.cancel lvl key) s = .next { setFld (setFld s Fld.SYS_MODE_CMDRES 1) Fld.SYS_MODE_TRANS 0 with
        modes := { s.modes with cmd := none, flushed := false }, sched := { s.sched with point := true } }) ∧
    (lvl = .supervisor → s.modes.cmd = none → mode s = 5 →
      exec (.leaveService lvl key) s = .next (serviceLeave (setFld s Fld.SYS_MODE_CMDRES 1))) ∧
    (lvl = .supervisor → s.modes.cmd = none → mode s = 3 ∨ mode s = 4 →
      exec (.enterService lvl key) s = .next (grantsEnded (cmdWait (setFld s Fld.SYS_MODE_CMDRES 1) .enterService))) ∧
    (lvl = .supervisor → s.modes.cmd = none → 3 ≤ mode s →
      exec (.enterBackup lvl key) s = .next (if mode s = 3 then
          backupFlush (cmdWait (setFld s Fld.SYS_MODE_CMDRES 1) .enterBackup)
        else grantsEnded (cmdWait (setFld s Fld.SYS_MODE_CMDRES 1) .enterBackup))) ∧
    (s.modes.cmd = none → mode s = 3 ∨ mode s = 4 → fld s Fld.SYS_MODECTL_FLOOR ≠ 3 →
      ∃ t, exec (.sleepNow lvl key) s = .next t ∧ fld t Fld.SYS_MODE_CMDRES = 1 ∧ fld t Fld.SYS_MODE_TRANS = 1 ∧
        t.modes = { s.modes with cmd := some .sleepNow, flushed := false } ∧
        FldsKept [Fld.SYS_MODE_CMDRES, Fld.SYS_MODE_TRANS] s t ∧ t = { s with regs := t.regs, fresh := t.fresh, modes := t.modes }) ∧
    (s.modes.cmd ≠ none →
      ∃ t, exec (.cancel lvl key) s = .next t ∧ fld t Fld.SYS_MODE_CMDRES = 1 ∧ fld t Fld.SYS_MODE_TRANS = 0 ∧
        t.modes = { s.modes with cmd := none, flushed := false } ∧ t.sched = { s.sched with point := true } ∧
        FldsKept [Fld.SYS_MODE_CMDRES, Fld.SYS_MODE_TRANS] s t ∧
        t = { s with regs := t.regs, modes := t.modes, sched := t.sched }) ∧
    (lvl = .supervisor → s.modes.cmd = none →
      (mode s = 5 →
        ∃ t, exec (.leaveService lvl key) s = .next t ∧ mode t = 3 ∧ fld t Fld.SYS_MODE_PREV = 5 ∧
          fld t Fld.SYS_MODE_CMDRES = 1 ∧ flag t (intBit 5) = true ∧ fld t Fld.SYS_CLKSTAT_RFBIAS = 0 ∧
          pathState t .a = 0 ∧ pathState t .b = 0 ∧ t.cal.trace = none ∧ t.cal.rxTrace = none ∧ t.sched.point = true ∧
          (∀ item inst, grantOf t (.calib item inst) = none) ∧ t.mem = s.mem ∧ t.tmr = s.tmr) ∧
      (mode s = 3 ∨ mode s = 4 → s.sched.grants ≠ [] →
        ∃ t, exec (.enterService lvl key) s = .next t ∧ mode t = mode s ∧ fld t Fld.SYS_MODE_TRANS = 1 ∧
          fld t Fld.SYS_MODE_CMDRES = 1 ∧ t.modes = { s.modes with cmd := some .enterService, flushed := false } ∧
          FldsKept [Fld.SYS_MODE_CMDRES, Fld.SYS_MODE_TRANS] s t ∧ t = { s with regs := t.regs, fresh := t.fresh, modes := t.modes }) ∧
      (mode s = 3 ∨ mode s = 4 → s.sched.grants = [] →
        ∃ t, exec (.enterService lvl key) s = .next t ∧ mode t = 5 ∧ fld t Fld.SYS_MODE_PREV = mode s ∧
          fld t Fld.SYS_MODE_TRANS = 0 ∧ fld t Fld.SYS_MODE_CMDRES = 1 ∧ t.modes.cmd = none ∧ flag t (intBit 5) = true ∧
          FldsKept [Fld.SYS_MODE_CMDRES, Fld.SYS_MODE_TRANS, Fld.SYS_MODE_PREV, Fld.SYS_MODE_MODE, intBit 5] s t ∧
          t = { s with regs := t.regs, fresh := t.fresh, modes := t.modes }) ∧
      (mode s = 4 ∨ mode s = 5 → s.sched.grants ≠ [] →
        ∃ t, exec (.enterBackup lvl key) s = .next t ∧ mode t = mode s ∧ fld t Fld.SYS_MODE_TRANS = 1 ∧
          fld t Fld.SYS_MODE_CMDRES = 1 ∧ t.modes = { s.modes with cmd := some .enterBackup, flushed := false } ∧
          FldsKept [Fld.SYS_MODE_CMDRES, Fld.SYS_MODE_TRANS] s t ∧ t = { s with regs := t.regs, fresh := t.fresh, modes := t.modes }) ∧
      (mode s = 3 →
        ∃ t, exec (.enterBackup lvl key) s = .next t ∧ mode t = 3 ∧ fld t Fld.SYS_MODE_TRANS = 1 ∧
          fld t Fld.SYS_MODE_CMDRES = 1 ∧ t.modes.cmd = some .enterBackup ∧ t.mem = s.mem ∧ t.tmr = s.tmr))

/-- SLEEP_ENTRY, WAKE_COMPLETE, SCHED_WAKE, WAKE_PIN (R51, R54, R56, R58, R61, R62, R64, R477). The conditions of R56 are `maySleep`;
where only the journal's pages are missing they are programmed first, which is `sleepFlush`.
PLL_LOCK, PLL_LOCK_RETRY, PLL_LOCK_TIMEOUT, PLL_LOCK_LOSS (R51–R53, R70, R130); `pllWanted` says where the core PLL runs.
RF_BIAS_SETTLED, RFHOLD_EXPIRY, WAKEEN_WRITE, BACKUP_FLUSH_DONE, WATCH_WINDOW_CLOSE (R54, R60, R63, R69, R182, R554). -/
def Obligations.SleepWakeAndClocks : Prop :=
  (∀ s : State,
    (sleepReady s = false ∨ jpageWaits s = false → sleepFlush s = s) ∧
    (maySleep s = false → maySleep (sleepFlush s) = false → ∀ c, exec (.sleepEntry c) s = .next (sleepFlush s)) ∧
    (maySleep s = false → sleepReady s = false → ∀ c, exec (.sleepEntry c) s = .next s) ∧
    (maySleep s = true →
      ∃ t, exec (.sleepEntry none) s = .next t ∧ mode t = fld s Fld.SYS_MODECTL_FLOOR ∧ fld t Fld.SYS_MODE_PREV = 3 ∧
        fld t Fld.SYS_MODE_TRANS = 0 ∧ t.modes.cmd = none ∧ fld t Fld.SYS_CLKSTAT_PLLLOCK = 0 ∧
        fld t Fld.SYS_CLKSTAT_REFOK = 0 ∧ fld t Fld.SYS_CLKSTAT_RFBIAS = 0 ∧ fld t Fld.SYS_CLKSTAT_FALLBACK = 0 ∧
        t.modes.wakeAt = wakeTime s (if watchServes s then planWindows s else []) ∧
        t.lnk.windows = (if watchServes s then planWindows s else []) ∧ flag t (intBit 5) = true ∧ t.mem = s.mem ∧
        t.tmr = s.tmr ∧ t.sched = s.sched) ∧
    (∀ m, s.modes.waking = some m → mode s = 1 ∨ mode s = 2 →
      ∃ t, exec .wakeComplete s = .next t ∧ mode t = 3 ∧ fld t Fld.SYS_MODE_PREV = mode s ∧
        fld t Fld.SYS_MODE_LASTWAKE = lowOf m % 16 ∧ t.modes.waking = none ∧ t.modes.wakeAt = none ∧ t.lnk.beacons = [] ∧
        (fld s Fld.SYS_CLKSTAT_FALLBACK = 0 → fld t Fld.SYS_CLKSTAT_PLLLOCK = 1 ∧ fld t Fld.SYS_CLKSTAT_REFOK = 1) ∧
        fld t Fld.SYS_CLKSTAT_FALLBACK = fld s Fld.SYS_CLKSTAT_FALLBACK ∧ flag t (intBit 5) = true ∧
        ((∀ g, s.host.g3 = some g → g.opened = false) → t.pins.hrdy = (s.pins.hrdy || !s.pins.hselN)) ∧
        t.mem = s.mem ∧ t.tmr = s.tmr) ∧
    (s.modes.wakeAt = none ∨ (∃ w, s.modes.wakeAt = some w ∧ s.clk.now < w) → exec .schedWake s = .next s) ∧
    (∀ w, s.modes.wakeAt = some w → w ≤ s.clk.now → mode s = 1 ∨ mode s = 2 →
      (reg s Adr.SYS_WAKEEN).toNat.testBit 9 = true →
      ∃ t, exec .schedWake s = .next t ∧ (reg t Adr.SYS_WAKESRC).toNat.testBit 9 = true ∧ t.modes.wakeAt = none ∧
        t.modes.waking = some (s.modes.waking.getD 0 ||| 2 ^ 9) ∧
        FldsKept wakeFlds s t ∧ t = { s with regs := t.regs, fresh := t.fresh, qtz := t.qtz, modes := t.modes }) ∧
    (mode s ≠ 0 → (reg s Adr.SYS_WAKEEN).toNat.testBit 5 = true →
      ∃ t, exec .wakePin s = .next t ∧ (reg t Adr.SYS_WAKESRC).toNat.testBit 5 = true ∧
        ((fld s Fld.QTZ_PWRON_SRCEN).testBit 5 = true → fld t Fld.QTZ_STAT_PWRON = 1) ∧
        (mode s = 1 ∨ mode s = 2 → t.modes.waking = some (s.modes.waking.getD 0 ||| 2 ^ 5)) ∧
        FldsKept wakeFlds s t ∧ t = { s with regs := t.regs, fresh := t.fresh, qtz := t.qtz, modes := t.modes })) ∧
  (∀ (s : State) (refin : Bool),
    (pllWanted s = true ∨ fld s Fld.SYS_CLKSTAT_FALLBACK = 1 →
      ∃ t, exec .pllLock s = .next t ∧ (fld s Fld.SYS_CLKSTAT_FALLBACK = 1 → exec (.pllLockRetry true refin) s = .next t) ∧
        fld t Fld.SYS_CLKSTAT_FALLBACK = 0 ∧ fld t Fld.SYS_CLKSTAT_PLLLOCK = 1 ∧ fld t Fld.SYS_CLKSTAT_REFOK = 1 ∧
        t.sched = { s.sched with point := true } ∧
        FldsKept [Fld.SYS_CLKSTAT_FALLBACK, Fld.SYS_CLKSTAT_PLLLOCK, Fld.SYS_CLKSTAT_REFOK] s t ∧
        t = { s with regs := t.regs, fresh := t.fresh, sched := t.sched }) ∧
    (fld s Fld.SYS_CLKSTAT_FALLBACK = 1 →
      ∃ t, exec (.pllLockRetry false refin) s = .next t ∧ fld t Fld.SYS_CLKSTAT_REFOK = (if refin then 1 else 0) ∧
        OnlyFlds [Fld.SYS_CLKSTAT_REFOK] s t) ∧
    (fld s Fld.SYS_CLKSTAT_FALLBACK = 0 → exec (.pllLockRetry false refin) s = .next s) ∧
    (pllWanted s = true → fld s Fld.SYS_CLKSTAT_FALLBACK = 0 →
      ∃ t, exec (.pllLockTimeout refin) s = .next t ∧ fld t Fld.SYS_CLKSTAT_FALLBACK = 1 ∧ fld t Fld.SYS_CLKSTAT_PLLLOCK = 0 ∧
        fld t Fld.SYS_CLKSTAT_REFOK = (if refin then 1 else 0) ∧ t.modes.window = false ∧
        flag t (intBit 3) = true ∧ t.mem = s.mem ∧ t.tmr = s.tmr ∧ t.sched.grants = s.sched.grants) ∧
    (pllWanted s = false → exec (.pllLockTimeout refin) s = .next s) ∧
    (fld s Fld.SYS_CLKSTAT_PLLLOCK = 0 → exec (.pllLockLoss refin) s = .next s) ∧
    (fld s Fld.SYS_CLKSTAT_PLLLOCK = 1 →
      ∃ t, exec (.pllLockLoss refin) s = .next t ∧ fld t Fld.SYS_CLKSTAT_FALLBACK = 1 ∧ fld t Fld.SYS_CLKSTAT_PLLLOCK = 0 ∧
        fld t Fld.SYS_CLKSTAT_REFOK = (if refin then 1 else 0) ∧ flag t (intBit 3) = true ∧ t.modes.window = false ∧
        (s.sched.grants = [] →
          fld t Fld.SYS_CLKSTAT_LOCKLOSS = min 0xFFFF (fld s Fld.SYS_CLKSTAT_LOCKLOSS + 1)) ∧ t.mem = s.mem)) ∧
  (∀ (s : State) (lvl : Level) (value : Word),
    (s.clk.biasRising = true →
      ∃ t, exec .rfBiasSettled s = .next t ∧ fld t Fld.SYS_CLKSTAT_RFBIAS = 1 ∧ t.clk = { s.clk with biasRising := false } ∧
        (∀ p, pathState s p = 0 → pathState t p = 1 ∨ pathState t p = 6) ∧ (s.sched.grants = [] →
          ∀ p, pathState s p ≠ 0 → pathState t p = pathState s p) ∧
        FldsKept [Fld.SYS_CLKSTAT_RFBIAS, fPath .a, fPath .b] s t ∧ t = { s with regs := t.regs, fresh := t.fresh, clk := t.clk }) ∧
    (mode s = 4 → rfHeld s = false →
      ∃ t, exec .rfholdExpiry s = .next t ∧ mode t = 3 ∧ fld t Fld.SYS_MODE_PREV = 4 ∧ fld t Fld.SYS_CLKSTAT_RFBIAS = 0 ∧
        pathState t .a = 0 ∧ pathState t .b = 0 ∧ flag t (intBit 5) = true ∧ t.mem = s.mem ∧ t.tmr = s.tmr) ∧
    (permitted s lvl Adr.SYS_WAKEEN true = true →
      ∃ t, exec (.wakeenWrite lvl value) s = .next t ∧
        reg t Adr.SYS_WAKEEN = (reg s Adr.SYS_WAKEEN &&& ~~~0x7F#32) ||| (value &&& 0x7F#32) ∧
        t.qtz = { s.qtz with wakeCopy := bitsOf value 5 0 } ∧
        FldsKept [whole Adr.SYS_WAKEEN, Fld.HSP_STAT_RANGE] s t ∧ t = { s with regs := t.regs, fresh := t.fresh, qtz := t.qtz }) ∧
    (s.modes.cmd = some .enterBackup → mode s = 3 → s.modes.flushed = false →
      ∃ t, exec (.backupFlushDone 0) s = .next t ∧ t.modes = { s.modes with flushed := true } ∧
        fld t Fld.QTZ_STAT_PWRON = 0 ∧ t.qtz = { s.qtz with pulseFrom := none } ∧ t.mem = s.mem ∧ t.tmr = s.tmr ∧
        t.sched = s.sched) ∧
    (mode s = 2 → s.modes.window = true →
      ∃ t, exec .watchWindowClose s = .next t ∧ t.modes.window = false ∧ fld t Fld.SYS_CLKSTAT_PLLLOCK = 0 ∧
        fld t Fld.SYS_CLKSTAT_REFOK = 0 ∧ fld t Fld.SYS_CLKSTAT_RFBIAS = 0 ∧ mode t = 2 ∧ t.mem = s.mem ∧ t.tmr = s.tmr) ∧
    (∀ w rest e rp u, mode s = 2 → fld s Fld.SYS_MODECTL_WATCHLNK = 1 → s.modes.window = false →
      s.lnk.windows = w :: rest → linkEntry s (slotEntryNo s w.kind) = some e →
      nextLeaf { s with lnk := { s.lnk with windows := rest } } (slotEntryNo s w.kind) e = (some rp, u) →
      ∃ t, exec .watchWindowPrepare s = .next t ∧ t.modes.window = true ∧ fld t Fld.SYS_CLKSTAT_PLLLOCK = 1 ∧
        fld t Fld.SYS_CLKSTAT_REFOK = 1 ∧ fld t Fld.SYS_CLKSTAT_RFBIAS = 1 ∧ pathState t .b = 1 ∧ mode t = 2 ∧
        t.lnk.windows = rest ∧
        t.lnk.slot = some (windowSlot s w e rp) ∧ t.mem = s.mem ∧ t.tmr = s.tmr))

/-! ### Scheduler -/

/-- REQUEST_POST, REQUEST_WITHDRAW, TOP_UP, STARVE_PROMOTE (R145, R153, R154, R157, R165). GRANT_TICK, GRANT_DECISION (R146,
R147, R161): the tick makes the point, the decision takes it; a request that stands alone and whose resources are free is
granted with its lease. -/
def Obligations.RequestsAndGrantPoint : Prop :=
  (∀ s : State,
    (∀ q : RequestSpec, withCoex s q.air q.mask.toNat = 0 ∨ mayPost s q.who = false → exec (.requestPost q) s = .next s) ∧
    (∀ q : RequestSpec, withCoex s q.air q.mask.toNat ≠ 0 → mayPost s q.who = true → q.cls ≠ .c0 ∨ q.freeIn = none →
      ∃ t, exec (.requestPost q) s = .next t ∧ t.sched.point = true ∧ t.sched.grants = s.sched.grants ∧
        t.sched.requests = s.sched.requests ++
          [{ who := q.who, cls := q.cls, mask := withCoex s q.air q.mask.toNat, kind := q.kind, air := q.air,
             fence := (specRequest s q).fence, posted := s.clk.now }] ∧
        ((∀ k, q.who ≠ .linkSlot k) → (specRequest s q).fence = 0) ∧
        FldsKept [Fld.SYS_STAT_CXREQ, Fld.SYS_STAT_CXPRI, Fld.SYS_STAT_XGNT] s t ∧
        t = { s with regs := t.regs, sched := t.sched }) ∧
    (∀ (q : RequestSpec) (n : Nat), withCoex s q.air q.mask.toNat ≠ 0 → mayPost s q.who = true → q.cls = .c0 → q.freeIn = some n → n < 10000 →
      ∃ t, exec (.requestPost q) s = .next t ∧ 
        fld t Fld.SYS_SCHCNT3_COLLIDE = min 0xFFFF (fld s Fld.SYS_SCHCNT3_COLLIDE + 1) ∧
        OnlyFlds [Fld.SYS_SCHCNT3_COLLIDE] s t) ∧
    (∀ who, ∃ t, exec (.requestWithdraw who) s = .next t ∧ t.sched.point = true ∧ t.sched.grants = s.sched.grants ∧
      t.sched.requests = s.sched.requests.filter (fun r => r.who != who) ∧
      (who = .hostUhf → posted s who = true → s.brm.imm.isSome = true →
        fld t Fld.BRM_IMMSTAT_BUSY = 0 ∧ fld t Fld.BRM_IMMSTAT_RESULT = 3 ∧ t.brm.imm = none) ∧
      (who ≠ .hostUhf → t.brm = s.brm ∧ reg t Adr.BRM_IMMSTAT = reg s Adr.BRM_IMMSTAT) ∧ (who ≠ .hostHf → t.hf = s.hf) ∧
      FldsKept [Fld.SYS_STAT_CXREQ, Fld.SYS_STAT_CXPRI, Fld.SYS_STAT_XGNT, whole Adr.BRM_IMMSTAT] s t ∧
      t = { s with regs := t.regs, sched := t.sched, brm := t.brm, hf := t.hf }) ∧
    (∀ (who : Consumer) (g : Grant) (mask : BitVec 11) (kind : LeaseKind), grantOf s who = some g → mask ≠ 0 →
      topOf g.mask < lowOf mask.toNat → (∀ r ∈ s.sched.requests, r.who = who → r.topUp = false) →
      (∀ x ∈ s.sched.grants, x.who = who → x.topUp = false) →
      ∃ t, exec (.topUp who mask kind) s = .next t ∧ t.sched.point = true ∧ t.sched.grants = s.sched.grants ∧
        t.sched.requests = s.sched.requests ++
          [{ who := who, cls := g.cls, mask := mask.toNat, kind := kind, posted := s.clk.now, promoted := g.promoted,
             topUp := true }] ∧
        FldsKept [Fld.SYS_STAT_CXREQ, Fld.SYS_STAT_CXPRI, Fld.SYS_STAT_XGNT] s t ∧
        t = { s with regs := t.regs, sched := t.sched }) ∧
    (∀ (who : Consumer) (g : Grant) (mask : BitVec 11) (kind : LeaseKind), grantOf s who = some g →
      lowOf mask.toNat ≤ topOf g.mask → exec (.topUp who mask kind) s = .next s) ∧
    (∀ (who : Consumer) (r : Request), requestOf s who = some r → r.cls = .c2 → r.promoted = false →
      ∃ t, exec (.starvePromote who) s = .next t ∧ requestOf t who = some { r with promoted := true } ∧
        fld t Fld.SYS_SCHCNT1_PROMOTE = min 0xFFFF (fld s Fld.SYS_SCHCNT1_PROMOTE + 1) ∧ flag t (intBit 37) = true ∧
        t.sched.grants = s.sched.grants ∧ FldsKept [Fld.SYS_SCHCNT1_PROMOTE, intBit 37] s t ∧
        t = { s with regs := t.regs, fresh := t.fresh, sched := t.sched })) ∧
  (∀ s : State,
    (3 ≤ mode s → exec .grantTick s = .next { s with sched := { s.sched with point := true } }) ∧
    (s.sched.point = false → exec .grantDecision s = .next s) ∧
    (∀ r : Request, s.sched.point = true → s.sched.requests = [r] → s.slate.entries = [] →
      postAll (grantsEnded (settle s)) = s → s.sched.ops = [] → (∀ g ∈ s.sched.grants, g.warned = false) →
      r.cls = .c1 → r.topUp = false → r.promoted = false → r.freeAt = none → r.who = .gorse ∨ r.who = .tagHost ∨ r.who = .journal ∨ r.who = .slateLoader ∨
        r.who = .memPort ∨ r.who = .external → grantable s r 0 = true →
      ∃ t, exec .grantDecision s = .next t ∧ t.sched.requests = [] ∧ t.sched.point = false ∧
        t.sched.grants = s.sched.grants ++
          [{ who := r.who, cls := .c1, mask := r.mask, fence := r.fence, kind := r.kind, air := r.air, since := s.clk.now,
             until_ := s.clk.now + (leaseFor s r).getD (leaseOf s r.kind) }]))

/-- RELEASE, LEASE_WARNING, LEASE_END, C0_FREE_TIME, GRANT_VIOLATION (R23, R151, R152, R154, R158). CXGNT_RISE, CXGNT_LOSS,
CXREQ_RISE, CXREQ_LEAD_SATISFIED, CXWAIT_TIMEOUT, XREQ_RISE, XREQ_FALL (R146, R168–R172). -/
def Obligations.GrantsEndAndCoexistence : Prop :=
  (∀ (s : State) (who : Consumer),
    (∃ t, exec (.release who false) s = .next t ∧ grantOf t who = none ∧ t.mem = s.mem ∧
      (pendingInsts s = [] → t.tmr = s.tmr)) ∧
    (∃ t, exec (.release who true) s = .next t ∧ topUpGrant t who = none ∧ grantOf t who = grantOf s who ∧
      FldsKept [Fld.SYS_STAT_CXREQ, Fld.SYS_STAT_CXPRI, Fld.SYS_STAT_XGNT] s t ∧ t = { s with regs := t.regs, sched := t.sched }) ∧
    (∀ g, grantOf s who = some g → who ≠ .hostHf →
      ∃ t, exec (.leaseWarning who) s = .next t ∧ (grantOf t who).map (·.warned) = some true ∧
        (grantOf t who).map (·.until_) = some g.until_ ∧ t.sched.requests = s.sched.requests ∧ t.mem = s.mem ∧
        t.tmr = s.tmr) ∧
    (∀ g u, grantOf s who = some g → inTrans s g true = true → extensionEnd s g = some u →
      ∃ t, exec (.leaseEnd who true false) s = .next t ∧ (grantOf t who).map (·.until_) = some u ∧
        (grantOf t who).map (·.extended) = some true ∧
        fld t Fld.SYS_SCHCNT0_EXTEND = min 0xFFFF (fld s Fld.SYS_SCHCNT0_EXTEND + 1) ∧
        FldsKept [Fld.SYS_SCHCNT0_EXTEND] s t ∧ t = { s with regs := t.regs, sched := t.sched }) ∧
    (∀ g said, grantOf s who = some g → inTrans s g said = false ∨ extensionEnd s g = none →
      ∃ t, exec (.leaseEnd who said false) s = .next t ∧ grantOf t who = none ∧ flag t (intBit 36) = true ∧ t.mem = s.mem ∧
        (pendingInsts s = [] → t.tmr = s.tmr)) ∧
    (∀ said, grantOf s who = none → exec (.leaseEnd who said false) s = .next s) ∧
    (∀ said, topUpGrant s who = none → exec (.leaseEnd who said true) s = .next s) ∧
    (∀ said, topUpGrant s who ≠ none →
      ∃ t, exec (.leaseEnd who said true) s = .next t ∧ topUpGrant t who = none ∧ flag t (intBit 36) = true ∧
        fld t Fld.SYS_SCHCNT0_OVERRUN = min 0xFFFF (fld s Fld.SYS_SCHCNT0_OVERRUN + 1) ∧ t.mem = s.mem ∧ t.tmr = s.tmr) ∧
    (∀ r, scheduled s who = some r → grantable s r 0 = true →
      ∃ u, u = grant s r false none ∧ u.sched.grants = s.sched.grants ++
          [{ who := who, topUp := r.topUp, cls := .c0, mask := r.mask, fence := r.fence, kind := r.kind, air := r.air, promoted := r.promoted,
             scheduled := true, since := s.clk.now, until_ := s.clk.now + (leaseFor s r).getD (leaseOf s r.kind) }] ∧
        u.sched.requests = s.sched.requests.filter (fun q => !(q.who == who && q.topUp == r.topUp)) ∧
        exec (.c0FreeTime who) s = .next (grantsEnded (cxPost (grantPoint (startAll u (freshGrants s u)))))) ∧
    (∀ r, scheduled s who = some r → grantable s r 0 = true → r.topUp = false → s.sched.ops = [] →
      s.modes.cmd = none → meets r.mask rfMask = false → r.mask.testBit 0 = false →
      who = .gorse ∨ who = .tagHost ∨ who = .journal ∨ who = .slateLoader ∨ who = .memPort ∨ who = .external →
      ∃ t, exec (.c0FreeTime who) s = .next t ∧ (grantOf t who).map (·.mask) = some r.mask ∧
        (grantOf t who).map (·.until_) = some (s.clk.now + (leaseFor s r).getD (leaseOf s r.kind)) ∧
        requestOf t who = none ∧ t.sched.point = true ∧ t.mem = s.mem ∧ t.tmr = s.tmr) ∧
    (∀ k r x, who = .linkSlot k → scheduled s who = some r → grantable s r 0 = true → r.topUp = false → s.sched.ops = [] →
      s.modes.cmd = none → r.mask.testBit 0 = false → planOf s k = some x → x.kind = .brx →
      ∃ t, exec (.c0FreeTime who) s = .next t ∧ (grantOf t who).map (·.mask) = some r.mask ∧
        (grantOf t who).map (·.until_) = some (s.clk.now + (leaseFor s r).getD (leaseOf s r.kind)) ∧
        requestOf t who = none ∧ t.lnk.slot = some x ∧ t.lnk.act = .idle ∧ t.sched.point = true ∧ t.mem = s.mem ∧
        t.tmr = s.tmr) ∧
    (scheduled s who = none →
      ∃ t, exec (.c0FreeTime who) s = .next t ∧ t.sched.requests = s.sched.requests ∧ t.sched.point = true ∧ t.mem = s.mem ∧
        t.tmr = s.tmr) ∧
    (∀ r, scheduled s who = some r → grantable s r 0 = false → r.mask.testBit 0 = true → coexFree s true = false →
      ∃ t, exec (.c0FreeTime who) s = .next t ∧ (∀ q ∈ t.sched.requests, q.who = who → q.topUp ≠ r.topUp) ∧
        t.sched.point = true ∧ t.mem = s.mem ∧ t.tmr = s.tmr) ∧
    (∀ r, scheduled s who = some r → grantable s r 0 = false → r.mask.testBit 0 = false ∨ coexFree s true = true →
      grantsOpen s who = true →
      ∃ t, exec (.c0FreeTime who) s = .next t ∧ (∃ q ∈ t.sched.requests, q.who = who ∧ q.freeAt = r.freeAt) ∧
        t.sched.point = true ∧ t.mem = s.mem ∧ t.tmr = s.tmr) ∧
    (∀ res, ∃ t, exec (.grantViolation res) s = .next t ∧
      fld t Fld.SYS_SCHCNT2_VIOL = min 0xFFFF (fld s Fld.SYS_SCHCNT2_VIOL + 1) ∧ OnlyFlds [Fld.SYS_SCHCNT2_VIOL] s t)) ∧
  (∀ s : State,
    exec .cxgntRise s = .next { s with pins := { s.pins with cxgnt := true }, sched := { s.sched with point := true } } ∧
    (cxRole s ≠ 1 → exec .cxgntLoss s =
      .next { s with pins := { s.pins with cxgnt := false }, sched := { s.sched with point := true } }) ∧
    (cxRole s = 1 → ∃ t, exec .cxgntLoss s = .next t ∧ t.pins.cxgnt = false ∧
      (∀ g ∈ s.sched.grants, g.mask.testBit 0 = true → g.topUp = false → grantOf t g.who = none) ∧ t.mem = s.mem ∧
      (pendingInsts s = [] → t.tmr = s.tmr)) ∧
    (cxRole s = 1 → (∃ r ∈ s.sched.requests, r.cls = .c0 ∧ r.freeAt ≠ none ∧ r.mask.testBit 0 = true ∧ r.cxSince = none) →
      ∃ t, exec .cxreqRise s = .next t ∧ fld t Fld.SYS_STAT_CXREQ = 1 ∧ fld t Fld.SYS_STAT_CXPRI = 1 ∧
        t.sched.grants = s.sched.grants ∧ FldsKept [Fld.SYS_STAT_CXREQ, Fld.SYS_STAT_CXPRI, Fld.SYS_STAT_XGNT] s t ∧
        t = { s with regs := t.regs, sched := t.sched }) ∧
    (cxRole s = 1 → fld s Fld.SYS_STAT_CXREQ = 1 →
      ∃ t, exec .cxreqLeadSatisfied s = .next t ∧ t.sched.cxLead = true ∧ t.sched.point = true ∧
        t.sched.requests = s.sched.requests ∧ t.sched.grants = s.sched.grants ∧ t = { s with sched := t.sched }) ∧
    (∀ who r, requestOf s who = some r → r.cls = .c1 → r.mask.testBit 0 = true → r.cxSince ≠ none → s.pins.cxgnt = false →
      ∃ t, exec (.cxwaitTimeout who) s = .next t ∧ requestOf t who = some { r with reserved := 0, cxSince := none } ∧
        fld t Fld.SYS_SCHCNT2_CXTIMEOUT = min 0xFFFF (fld s Fld.SYS_SCHCNT2_CXTIMEOUT + 1) ∧
        t.sched.grants = s.sched.grants ∧
        FldsKept [Fld.SYS_SCHCNT2_CXTIMEOUT, Fld.SYS_STAT_CXREQ, Fld.SYS_STAT_CXPRI, Fld.SYS_STAT_XGNT] s t ∧
        t = { s with regs := t.regs, sched := t.sched }) ∧
    (cxRole s ≠ 2 ∨ xreqArmed s = false → exec .xreqRise s = .next { s with
      pins := { s.pins with xreq := true }, sched := { s.sched with point := true } }) ∧
    (cxRole s = 2 → xreqArmed s = true → mayPost s .external = true →
      ∃ t, exec .xreqRise s = .next t ∧ t.pins.xreq = true ∧ t.sched.point = true ∧ t.sched.grants = s.sched.grants ∧
        (requestOf t .external).map (·.mask) = some 1 ∧
        (requestOf t .external).map (·.cls) = some (if fld s Fld.SYS_CXCFG_XCLS = 1 then .c2 else .c1) ∧
        FldsKept [Fld.SYS_STAT_CXREQ, Fld.SYS_STAT_CXPRI, Fld.SYS_STAT_XGNT] s t ∧
        t = { s with regs := t.regs, pins := t.pins, sched := t.sched }) ∧
    (∃ t, exec .xreqFall s = .next t ∧ t.pins.xreq = false ∧ grantOf t .external = none ∧ requestOf t .external = none ∧
      t.mem = s.mem ∧ t.tmr = s.tmr))

/-- LOAD_SAMPLE (R173, R175): SHED rises above 850, falls below 750, and stays between; OVERLOAD reads 1 while SHED is above 0.
While the processor sleeps nothing is computed. -/
def Obligations.LoadMovesShed : Prop :=
  ∀ (s : State) (load : Fin 1001), (mode s < 3 → exec (.loadSample load) s = .next s) ∧ (3 ≤ mode s →
    ∃ t, exec (.loadSample load) s = .next t ∧ fld t Fld.SYS_LOAD_LOAD = load.val ∧
      bitsOf (readWord t Adr.SYS_STAT).1 7 7 = (if fld t Fld.SYS_STAT_SHED = 0 then 0 else 1) ∧
      fld t Fld.SYS_LOAD_PEAK = max load.val (fld s Fld.SYS_LOAD_PEAK) ∧
      (850 < load.val → fld s Fld.SYS_STAT_SHED < 4 → fld t Fld.SYS_STAT_SHED = fld s Fld.SYS_STAT_SHED + 1) ∧
      (850 < load.val → 4 ≤ fld s Fld.SYS_STAT_SHED → fld t Fld.SYS_STAT_SHED = fld s Fld.SYS_STAT_SHED) ∧
      (load.val < 750 → 0 < fld s Fld.SYS_STAT_SHED → fld t Fld.SYS_STAT_SHED = fld s Fld.SYS_STAT_SHED - 1) ∧
      (load.val < 750 → fld s Fld.SYS_STAT_SHED = 0 → fld t Fld.SYS_STAT_SHED = 0) ∧
      (750 ≤ load.val → load.val ≤ 850 → fld t Fld.SYS_STAT_SHED = fld s Fld.SYS_STAT_SHED) ∧
      (fld s Fld.SYS_STAT_SHED = 0 → fld t Fld.SYS_STAT_SHED ≠ 0 → flag t (intBit 2) = true) ∧
      OnlyFlds [Fld.SYS_LOAD_LOAD, Fld.SYS_LOAD_PEAK, Fld.SYS_STAT_SHED, intBit 2] s t)

/-! ### Radio front end -/

/-- TUNE, TX_COMMAND, HOP, PORT_SWITCH (R23, R181, R182, R188, R192, R195, R196, R200): the way of a path into SETTLE, and what
is refused. -/
def Obligations.PathsSettleOnCommand : Prop :=
  ∀ (s : State) (p : RfPath) (chan : BitVec 14) (use_ : PathUse) (port : Fin 4) (index : BitVec 7) (rp : Fin 64),
    (pathMay s p = false →
      ∃ t, fld t Fld.SYS_SCHCNT2_VIOL = min 0xFFFF (fld s Fld.SYS_SCHCNT2_VIOL + 1) ∧ OnlyFlds [Fld.SYS_SCHCNT2_VIOL] s t ∧
        exec (.tune p chan use_) s = .next t ∧ exec (.txCommand p use_ chan port index) s = .next t ∧
        exec (.hop p chan) s = .next t ∧ exec (.portSwitch p rp) s = .next t) ∧
    (pathMay s p = true → pathState s p = 0 → exec (.tune p chan use_) s = .next s) ∧
    (pathMay s p = true → pathState s p ≠ 0 → pathState s p ≠ 6 → spacingBreaks (carrierOff s p) p chan.toNat use_ = false →
      ∃ t, exec (.tune p chan use_) s = .next t ∧ pathState t p = 2 ∧ (pathSt t p).chan = chan.toNat ∧
        (pathSt t p).use_ = use_ ∧ (pathSt t p).locked = false ∧ (pathSt t p).held = none ∧
        (pathSt t p).slot = findSlot s p chan.toNat ∧ fld t (fCarr p) = 0 ∧ pathSt t (otherPath p) = pathSt s (otherPath p) ∧
        pathState t (otherPath p) = pathState s (otherPath p) ∧ t.mem = s.mem ∧ t.sched = s.sched) ∧
    (pathMay s p = true → use_ ≠ .rxon → powerOk s port index.toNat = true → pathState s p = 1 → fld s (fCarr p) = 0 →
      spacingBreaks (setFld s (fPort p) port) p chan.toNat use_ = false →
      ∃ t, exec (.txCommand p use_ chan port index) s = .next t ∧ pathState t p = 2 ∧ (pathSt t p).chan = chan.toNat ∧
        (pathSt t p).held = some { since := none, use_ := use_, port := port, index := index.toNat } ∧
        fld t (fCarr p) = 0 ∧ fld t (fPort p) = port ∧ pathState t (otherPath p) = pathState s (otherPath p) ∧
        t.mem = s.mem ∧ t.sched = s.sched) ∧
    (pathMay s p = true → pathState s p = 5 → spacingBreaks (carrierOff s p) p chan.toNat .read = false →
      ∃ t, exec (.hop p chan) s = .next t ∧ pathState t p = 2 ∧ (pathSt t p).chan = chan.toNat ∧ fld t (fCarr p) = 0 ∧
        (pathSt t p).held = some { since := some s.clk.now, use_ := (pathSt s p).use_,
                                   port := fld s (fTxPort p), index := fld s (fIdx p) } ∧
        pathState t (otherPath p) = pathState s (otherPath p) ∧ t.mem = s.mem ∧ t.sched = s.sched) ∧
    (pathMay s p = true → pathState s p = 5 →
      ∃ t, exec (.portSwitch p rp) s = .next t ∧ pathState t p = 5 ∧ (pathSt t p).readPoint = some rp.val ∧
        fld t (fCarr p) = 0 ∧ (pathSt t p).held.map (·.index) = some (fld s (fIdx p)) ∧
        pathState t (otherPath p) = pathState s (otherPath p) ∧ t.mem = s.mem ∧ t.sched = s.sched)

/-- SYNTH_LOCK, STORED_WORD_FAIL, LOCK_FAIL, LOCKTIMEOUT, CARRIER_RAMP_UP (R182, R188, R189, R191, R192, R194, R200, R201). -/
def Obligations.SynthesiserLocksAndCarrierRises : Prop :=
  ∀ (s : State) (p : RfPath) (margin : Fin 64) (band : BitVec 4) (cap : BitVec 7),
    (pathState s p = 2 → (pathSt s p).locked = false → (pathSt s p).use_ = .rxon →
      ∃ t, exec (.synthLock p margin band cap) s = .next t ∧ pathState t p = 3 ∧ (pathSt t p).locked = true ∧
        (∀ n, (pathSt s p).slot = some n → bitsOf (reg t (slotAdr p n)) 4 0 = min 31 margin.val) ∧ t.mem = s.mem ∧
        t.sched = s.sched) ∧
    (pathState s p = 2 → (pathSt s p).locked = false → (pathSt s p).use_ ≠ .rxon →
        ((pathSt s p).held.bind fun h => h.since) = none →
      ∃ t, exec (.synthLock p margin band cap) s = .next t ∧ pathState t p = 2 ∧ (pathSt t p).locked = true ∧
        (∀ n, (pathSt s p).slot = some n → bitsOf (reg t (slotAdr p n)) 4 0 = min 31 margin.val) ∧
        ((pathSt s p).slot = none →
          fld t Fld.SYNCAL_CNT_FULLCAL = min 0xFFFF (fld s Fld.SYNCAL_CNT_FULLCAL + 1)) ∧ t.mem = s.mem ∧
        t.sched = s.sched) ∧
    (∀ n, pathState s p = 2 → (pathSt s p).locked = false → (pathSt s p).slot = some n →
      exec (.storedWordFail p) s = .next (setPathSt s p { pathSt s p with slot := none, slotFailed := some n })) ∧
    (pathState s p = 2 → (pathSt s p).locked = false →
      ∃ t, exec (.lockFail p) s = .next t ∧ flag t Fld.RAD_STAT_LOCKFAIL = true ∧ pathState t p = 1 ∧
        (pathSt t p).held = none ∧ t.mem = s.mem) ∧
    (pathState s p = 2 → (pathSt s p).locked = false → ((pathSt s p).held.bind fun h => h.since) ≠ none →
      ∃ t, exec (.locktimeout p) s = .next t ∧ flag t Fld.RAD_STAT_LOCKTIMEOUT = true ∧ pathState t p = 1 ∧
        (pathSt t p).held = none ∧ t.mem = s.mem) ∧
    (∀ h, (pathSt s p).held = some h → (pathSt s p).locked = true → s.radio.switching = [] →
        (h.use_ = .read → profile s ≠ 0) → powerOk s h.port h.index = true →
      ∃ t, exec (.carrierRampUp p) s = .next t ∧ fld t (fCarr p) = 1 ∧ pathState t p = (if h.use_ = .read then 5 else 4) ∧
        fld t (fTxPort p) = h.port % 4 ∧ fld t (fIdx p) = h.index % 128 ∧
        fld t (fTrim p) = (if (pathSt s p).fromIdle = true ∨ fld s (fTxPort p) ≠ h.port then 0 else fld s (fTrim p)) ∧
        (pathSt t p).fromIdle = false ∧ (pathSt t p).held = none ∧ (pathSt t p).rampAt = s.clk.now ∧
        pathState t (otherPath p) = pathState s (otherPath p) ∧ t.mem = s.mem ∧ t.sched = s.sched)

/-- DETECTOR_UPDATE, OVERPOWER, PA_DISABLE, CANCEL_CHECK (R198, R201–R203, R216, R223). RATE_SWITCH_DONE, AGC_STEP,
CLIP_STEP_DOWN, REFINEMENT_END (R205, R208, R209, R213). -/
def Obligations.PowerAndReceiveLoopsAct : Prop :=
  (∀ (s : State) (p : RfPath),
    (∀ reading : BitVec 10, fld s (fCarr p) = 1 → (signedOf 8 (fld s (fTrim p))).natAbs < 31 →
      ∃ t, exec (.detectorUpdate p reading) s = .next t ∧
        signedOf 8 (fld t (fTrim p)) = signedOf 8 (fld s (fTrim p)) +
          (if reading.toNat < detTarget s p then 1 else if detTarget s p < reading.toNat then -1 else 0) ∧
        OnlyFlds [fTrim p] s t) ∧
    (∀ reading : BitVec 10, fld s (fCarr p) = 1 → signedOf 8 (fld s (fTrim p)) = 31 → reading.toNat < detTarget s p →
      ∃ t, exec (.detectorUpdate p reading) s = .next t ∧ signedOf 8 (fld t (fTrim p)) = 32 ∧
        flag t Fld.RAD_STAT_PWRERR = true ∧ t.mem = s.mem ∧ t.sched = s.sched) ∧
    (fld s (fCarr p) = 1 → pathState s p ≠ 0 →
      ∃ t, exec (.overpower p) s = .next t ∧ flag t Fld.RAD_STAT_OVERPWR = true ∧ fld t (fCarr p) = 0 ∧ pathState t p = 1 ∧
        t.mem = s.mem) ∧
    (∀ k : Fin 2, portCarries s (fld s (if k.val = 0 then Fld.RAD_PA_PA0PORT else Fld.RAD_PA_PA1PORT)) = false →
      exec (.paDisable k) s =
        .next { s with radio := { s.radio with paOn := s.radio.paOn.setIfInBounds k.val false } }) ∧
    (∀ (k : Fin 4) (sup : Byte), pathState s p = 5 → fld s (fCarr p) = 1 → 2 * fld s Fld.RAD_CANC_FAIL ≤ sup.toNat →
      ∃ t, exec (.cancelCheck k p sup) s = .next t ∧ fld t (fSupp k p) = sup.toNat ∧ OnlyFlds [fSupp k p] s t) ∧
    (∀ (k : Fin 4) (sup : Byte), pathState s p = 5 → fld s (fCarr p) = 1 → sup.toNat < 2 * fld s Fld.RAD_CANC_FAIL →
      ∃ t, exec (.cancelCheck k p sup) s = .next t ∧ fld t (fSupp k p) = sup.toNat ∧
        flag t Fld.RAD_STAT_CANCFAIL = true ∧ t.mem = s.mem)) ∧
  (∀ (s : State) (k : Fin 4) (p : RfPath),
    (k.val ∈ s.radio.switching →
      ∃ t, exec (.rateSwitchDone k) s = .next t ∧ t.radio.switching = s.radio.switching.filter (fun j => j != k.val) ∧
        (fld t Fld.RAD_STATE_CHRATE).testBit k = false ∧ fld t (Fld.RAD_RXC_STAT_RATE k) = 0 ∧
        t.radio = { s.radio with switching := t.radio.switching } ∧
        FldsKept [Fld.RAD_STATE_CHRATE, Fld.RAD_RXC_STAT_RATE k] s t ∧ t = { s with regs := t.regs, fresh := t.fresh, radio := t.radio }) ∧
    (∀ peak : Byte, s.radio.switching.contains k.val = true → exec (.agcStep k peak) s = .next s) ∧
    (∀ peak : Byte, s.radio.switching.contains k.val = false → chainIn s k 3 = true → fld s (Fld.RAD_RXC_STAT_FROZEN k) = 0 →
        s.radio.dwellUntil[k.val]?.getD 0 ≤ s.clk.now →
      ∃ t, exec (.agcStep k peak) s = .next t ∧
        (peak.toNat < fld s Fld.RAD_AGC_THI → fld t (Fld.RAD_RXC_STAT_LNA k) = fld s (Fld.RAD_RXC_STAT_LNA k) - 1) ∧
        (fld s Fld.RAD_AGC_THI ≤ peak.toNat → peak.toNat ≤ fld s Fld.RAD_AGC_THI + 12 → t = s) ∧
        (fld s Fld.RAD_AGC_THI + 12 < peak.toNat → fld s (Fld.RAD_RXC_STAT_LNA k) < fld s Fld.RAD_AGC_LNAMAX →
          fld t (Fld.RAD_RXC_STAT_LNA k) = fld s (Fld.RAD_RXC_STAT_LNA k) + 1) ∧
        FldsKept [Fld.RAD_RXC_STAT_LNA k] s t ∧ t = { s with regs := t.regs, fresh := t.fresh, radio := t.radio }) ∧
    (chainIn s k 5 = true →
      ∃ t, exec (.clipStepDown k) s = .next t ∧ fld t (Fld.RAD_RXC_STAT_LNA k) = fld s (Fld.RAD_RXC_STAT_LNA k) - 1 ∧
        OnlyFlds [Fld.RAD_RXC_STAT_LNA k] s t) ∧
    (∀ c : ChainResidual, pathState s p = 5 → fld s (fCarr p) = 1 →
      ∃ t, exec (.refinementEnd p [c]) s = .next t ∧
        (pathSt t p).resid[c.chain.val]? =
          some (if c.residual < fld s Fld.RAD_CANC_REFINE then c.after else c.residual) ∧
        (c.residual < fld s Fld.RAD_CANC_REFINE → (pathSt t p).vectors[c.chain.val]? = some (c.i, c.q)) ∧
        (fld s Fld.RAD_CANC_REFINE ≤ c.residual → (pathSt t p).vectors = (pathSt s p).vectors) ∧
        FldsKept ((List.range 4).map Fld.RAD_RXC_STAT_LNA) s t ∧ t = { s with regs := t.regs, fresh := t.fresh, radio := t.radio }))

/-! ### Read points, Hedges, Slate, serial memories -/

/-- SLATE_READ, SLATE_ERASE, and every command of `SLT_CMD` while BUSY (R247, R249): a read of an entry that is not cached takes
its turn on the memory port for the fill, or waits for it with BUSY set (log entry 35). SLATE_WRITE of the staged entry:
checked, refused with its reason, or begun (R242, R246, R248, R251). -/
def Obligations.SlateCommandsReadEraseAndWrite : Prop :=
  (∀ (s u : State) (lvl : Level) (i : Fin 1024), permitted s lvl Adr.SLT_CMD true = true → u = setFld s Fld.SLT_STAT_INDEX i →
    (fld s Fld.SLT_STAT_BUSY = 1 →
      ∃ t, exec (.slateRead lvl i) s = .next t ∧ exec (.slateErase lvl i) s = .next t ∧ exec (.slateWrite lvl i) s = .next t ∧
        fld t Fld.SLT_STAT_RESULT = 3 ∧ OnlyFlds [Fld.SLT_STAT_RESULT] s t) ∧
    (fld s Fld.SLT_STAT_BUSY = 0 → ((entryAt s i).getD (storedEntry s i)).length = 64 → cached s i = true →
      ∃ t, exec (.slateRead lvl i) s = .next t ∧ fld t Fld.SLT_STAT_RESULT = 1 ∧ fld t Fld.SLT_STAT_INDEX = i ∧
        (∀ w : Fin 16, reg t (Adr.SLT_BUF w) = (packWords ((entryAt s i).getD (storedEntry s i))).getD w 0) ∧
        OnlyFlds (Fld.SLT_STAT_RESULT :: Fld.SLT_STAT_INDEX :: (List.range 16).map fun w => whole (Adr.SLT_BUF w)) s t) ∧
    (fld s Fld.SLT_STAT_BUSY = 0 → ((entryAt s i).getD (storedEntry s i)).length = 64 → cached s i = false →
      (turnNow u (mspRequest .slateLoader .c1) = true → entryAt s i = none ∨ entryValid (storedEntry s i) = true →
        ∃ t, exec (.slateRead lvl i) s = .next t ∧ fld t Fld.SLT_STAT_RESULT = 1 ∧ fld t Fld.SLT_STAT_INDEX = i ∧
          (∀ w : Fin 16, reg t (Adr.SLT_BUF w) = (packWords ((entryAt s i).getD (storedEntry s i))).getD w 0) ∧
          t.slate.entries = s.slate.entries ∧ t.slate.work = s.slate.work ∧ TurnTaken s t ∧
          FldsKept (Fld.SLT_STAT_RESULT :: Fld.SLT_STAT_INDEX :: Fld.SLT_CNT_MISS :: Fld.SYS_RES_GRANT_GRANTS resMsp ::
            (List.range 16).map fun w => whole (Adr.SLT_BUF w)) s t ∧
          t = { s with regs := t.regs, fresh := t.fresh, slate := t.slate, sched := t.sched }) ∧
      (turnNow u (mspRequest .slateLoader .c1) = false →
        ∃ t, exec (.slateRead lvl i) s = .next t ∧ fld t Fld.SLT_STAT_BUSY = 1 ∧ fld t Fld.SLT_STAT_INDEX = i ∧
          TurnWaits s t (mspRequest .slateLoader .c1) (.slateRead lvl i) ∧
          FldsKept ([Fld.SLT_STAT_BUSY, Fld.SLT_STAT_INDEX] ++ cxFlds) s t ∧
          t = { s with regs := t.regs, fresh := t.fresh, sched := t.sched })) ∧
    (fld s Fld.SLT_STAT_BUSY = 0 → linkNames s i = true →
      ∃ t, exec (.slateErase lvl i) s = .next t ∧ fld t Fld.SLT_STAT_RESULT = 2 ∧ fld t Fld.SLT_STAT_REASON = rsnInuse ∧
        fld t Fld.SLT_STAT_INDEX = i ∧
        OnlyFlds [Fld.SLT_STAT_RESULT, Fld.SLT_STAT_INDEX, Fld.SLT_STAT_REASON] s t) ∧
    (fld s Fld.SLT_STAT_BUSY = 0 → linkNames s i = false → storedEntry s i = erasedEntry →
      ∃ t, exec (.slateErase lvl i) s = .next t ∧ fld t Fld.SLT_STAT_RESULT = 1 ∧ fld t Fld.SLT_STAT_INDEX = i ∧
        FldsKept ([Fld.SLT_STAT_RESULT, Fld.SLT_STAT_INDEX] ++ packetFlds) s t ∧
        t = { s with regs := t.regs, fresh := t.fresh, fifo := t.fifo }) ∧
    (fld s Fld.SLT_STAT_BUSY = 0 → linkNames s i = false → storedEntry s i ≠ erasedEntry →
      ∃ t, exec (.slateErase lvl i) s = .next t ∧ fld t Fld.SLT_STAT_BUSY = 1 ∧ fld t Fld.SLT_STAT_INDEX = i ∧
        t.slate = { s.slate with work := some { job := .erase, index := i, bytes := erasedEntry } } ∧
        FldsKept [Fld.SLT_STAT_BUSY, Fld.SLT_STAT_INDEX] s t ∧ t = { s with regs := t.regs, fresh := t.fresh, slate := t.slate })) ∧
  (∀ (s u : State) (lvl : Level) (i : Fin 1024), permitted s lvl Adr.SLT_CMD true = true → fld s Fld.SLT_STAT_BUSY = 0 →
    u = setFld s Fld.SLT_STAT_INDEX i →
    (1 ≤ eClass (stagedEntry u) → slateReason u i (stagedEntry u) ≠ 0 →
      ∃ t, exec (.slateWrite lvl i) s = .next t ∧ fld t Fld.SLT_STAT_RESULT = 2 ∧ fld t Fld.SLT_STAT_INDEX = i ∧
        fld t Fld.SLT_STAT_REASON = slateReason u i (stagedEntry u) % 256 ∧ fld t Fld.SLT_STAT_CFG_REJECT = 1 ∧
        FldsKept ([Fld.SLT_STAT_RESULT, Fld.SLT_STAT_INDEX, Fld.SLT_STAT_REASON, Fld.SLT_STAT_CFG_REJECT, intBit 1] ++
          packetFlds) s t ∧ t = { s with regs := t.regs, fresh := t.fresh, fifo := t.fifo, lnk := t.lnk, tag := t.tag }) ∧
    (1 ≤ eClass (stagedEntry u) → slateReason u i (stagedEntry u) = 0 → storedEntry s i ≠ stagedEntry u →
      ∃ t, exec (.slateWrite lvl i) s = .next t ∧ fld t Fld.SLT_STAT_BUSY = 1 ∧ fld t Fld.SLT_STAT_INDEX = i ∧
        t.slate = { s.slate with work := some { job := .write, index := i, bytes := stagedEntry u } } ∧
        FldsKept [Fld.SLT_STAT_BUSY, Fld.SLT_STAT_INDEX] s t ∧ t = { s with regs := t.regs, fresh := t.fresh, slate := t.slate }) ∧
    (1 ≤ eClass (stagedEntry u) → slateReason u i (stagedEntry u) = 0 → storedEntry s i = stagedEntry u →
      ∃ t, exec (.slateWrite lvl i) s = .next t ∧ fld t Fld.SLT_STAT_RESULT = 1 ∧ fld t Fld.SLT_STAT_INDEX = i ∧
        FldsKept ([Fld.SLT_STAT_RESULT, Fld.SLT_STAT_INDEX] ++ packetFlds) s t ∧
        t = { s with regs := t.regs, fresh := t.fresh, fifo := t.fifo }) ∧
    (eClass (stagedEntry u) = 0 → exec (.slateWrite lvl i) s = .next (sltStart u .erase i erasedEntry)))

/-- SLATE_READBACK (R248): a sector that reads back good holds the new entry, and no other byte of the NOR changes; the first
bad read-back programs it again, the second answers NORWRITE with each entry of the sector the new one or erased. It takes its
turn on the memory port, or waits for it (R145; log entry 35). -/
def Obligations.SlateReadbackEndsTheRewrite : Prop :=
  ∀ (s : State) (w : SltWork) (r : Request), StoresWf s → s.slate.work = some w → w.ready = false →
    (sectorWith s w.index w.bytes).length = 4096 → r = mspRequest .slateLoader .c1 →
    (turnNow s r = true → ∃ t, exec (.slateReadback true) s = .next t ∧
      (∀ k < 4096, byteAt t.mem.nor (slateSector w.index + k) = (sectorWith s w.index w.bytes).getD k 0) ∧
      (∀ a, a < slateSector w.index ∨ slateSector w.index + 4096 ≤ a → byteAt t.mem.nor a = byteAt s.mem.nor a) ∧
      t.slate = { s.slate with copied := s.slate.copied.filter (fun p => p.1 != slateSector w.index),
                               work := some { w with ready := true } } ∧
      fld t Fld.SLT_STAT_WAITING = (if entryHeld s w.index then 1 else fld s Fld.SLT_STAT_WAITING) ∧ TurnTaken s t ∧
      FldsKept [Fld.SLT_STAT_WAITING, Fld.SYS_RES_GRANT_GRANTS resMsp] s t ∧
      t = { s with regs := t.regs, fresh := t.fresh, slate := t.slate, mem := t.mem, sched := t.sched }) ∧
    (turnNow s r = true → w.retry = false →
      ∃ t, exec (.slateReadback false) s = .next t ∧ t.slate = { s.slate with work := some { w with retry := true } } ∧
        TurnTaken s t ∧ FldsKept [Fld.SYS_RES_GRANT_GRANTS resMsp] s t ∧
        t = { s with regs := t.regs, slate := t.slate, sched := t.sched }) ∧
    (turnNow s r = true → w.retry = true →
      ∃ t, exec (.slateReadback false) s = .next t ∧ fld t Fld.SLT_STAT_RESULT = 4 ∧ fld t Fld.SLT_STAT_BUSY = 0 ∧
        t.slate.work = none ∧ sectorBytes t (slateSector w.index) = sectorBytes s (slateSector w.index) ∧
        (∀ k < 64, ∃ b ∈ [sectorWith s w.index w.bytes, erasedSector], ∀ j < 64,
          byteAt t.mem.nor (slateSector w.index + 64 * k + j) = b.getD (64 * k + j) 0) ∧
        (∀ a, a < slateSector w.index ∨ slateSector w.index + 4096 ≤ a → byteAt t.mem.nor a = byteAt s.mem.nor a) ∧
        FldsKept ([Fld.SLT_STAT_RESULT, Fld.SLT_STAT_BUSY, Fld.SYS_RES_GRANT_GRANTS resMsp] ++ packetFlds) s t ∧ TurnTaken s t ∧
        t = { s with regs := t.regs, fresh := t.fresh, slate := t.slate, mem := t.mem, fifo := t.fifo, lnk := t.lnk, tag := t.tag,
                     drawn := t.drawn, sched := t.sched }) ∧
    (∀ good, turnNow s r = false →
      ∃ t, exec (.slateReadback good) s = .next t ∧ TurnWaits s t r (.slateReadback good) ∧ FldsKept cxFlds s t ∧
        t = { s with regs := t.regs, sched := t.sched })

/-- SLATE_ACTIVATE, ENTRY_PENDING, CACHE_FILL (R241, R243–R245, R248): a fill takes its turn on the memory port in the class of
the work it serves (R244; log entry 35). -/
def Obligations.SlateEntriesComeIntoForce : Prop :=
  ∀ s : State,
    (∀ w, s.slate.work = some w → w.ready = true → entryHeld s w.index = false →
      ∃ t, exec .slateActivate s = .next t ∧ entryAt t w.index = (if entryValid w.bytes then some w.bytes else none) ∧
        (∀ j, j ≠ w.index → entryAt t j = entryAt s j) ∧ t.slate.work = none ∧ fld t Fld.SLT_STAT_RESULT = 1 ∧
        fld t Fld.SLT_STAT_BUSY = 0 ∧ fld t Fld.SLT_STAT_WAITING = 0 ∧
        (∀ n, n ≠ 8 → chan t n = chan s n) ∧
        FldsKept [Fld.SLT_STAT_RESULT, Fld.SLT_STAT_BUSY, Fld.SLT_STAT_WAITING, Fld.FIFO_CH_CNT_DROP 8] s t ∧
        t = { s with regs := t.regs, fresh := t.fresh, slate := t.slate, brm := t.brm, sched := t.sched, fifo := t.fifo }) ∧
    (∀ w, s.slate.work = some w → entryHeld s w.index = true → exec .slateActivate s = .next s) ∧
    (∀ (i : Fin 1024) (e : Entry), entryAt s i = some e →
      (entryActive e = true → ePeriod e ≠ 0 → i.val ∉ s.slate.pendingSet → i.val ∉ grantedEntries s →
        exec (.entryPending i) s = .next { s with slate := { s.slate with pendingSet := s.slate.pendingSet ++ [i.val] },
                                                  sched := { s.sched with point := true } }) ∧
      (turnNow s (mspRequest .slateLoader (fillClass s i)) = false →
        ∃ t, exec (.cacheFill i) s = .next t ∧ TurnWaits s t (mspRequest .slateLoader (fillClass s i)) (.cacheFill i) ∧
          FldsKept cxFlds s t ∧ t = { s with regs := t.regs, sched := t.sched }) ∧
      (turnNow s (mspRequest .slateLoader (fillClass s i)) = true → entryValid (storedEntry s i) = true →
        (∀ c ∈ s.slate.cache, c.index ≠ i.val) → s.slate.cache.length < 64 →
        ∃ t, exec (.cacheFill i) s = .next t ∧ TurnTaken s t ∧
          t.slate = { s.slate with cache := s.slate.cache ++ [{ index := i, bytes := e }] } ∧
          fld t Fld.SLT_CNT_MISS = (if atHead s i then min 0xFFFF (fld s Fld.SLT_CNT_MISS + 1) else fld s Fld.SLT_CNT_MISS) ∧
          FldsKept [Fld.SLT_CNT_MISS, Fld.SYS_RES_GRANT_GRANTS resMsp] s t ∧
          t = { s with regs := t.regs, slate := t.slate, sched := t.sched }) ∧
      (turnNow s (mspRequest .slateLoader (fillClass s i)) = true → entryValid (storedEntry s i) = true →
        (∀ c ∈ s.slate.cache, c.index ≠ i.val) → 64 ≤ s.slate.cache.length → ∀ v, victimLine s i = some v →
        ∃ t, exec (.cacheFill i) s = .next t ∧ TurnTaken s t ∧
          t.slate = { s.slate with cache := s.slate.cache.filter (fun c => c.index != v.index) ++
            [{ index := i, bytes := e }] } ∧
          FldsKept [Fld.SLT_CNT_MISS, Fld.SYS_RES_GRANT_GRANTS resMsp] s t ∧
          t = { s with regs := t.regs, slate := t.slate, sched := t.sched }) ∧
      (turnNow s (mspRequest .slateLoader (fillClass s i)) = true → s.slate.work = none → entryValid (storedEntry s i) = false →
        ∃ t, exec (.cacheFill i) s = .next t ∧ entryAt t i = none ∧ (∀ j, j ≠ i.val → entryAt t j = entryAt s j) ∧
          fld t Fld.SLT_CNT_CRCERR = min 0xFFFF (fld s Fld.SLT_CNT_CRCERR + 1) ∧ t.mem = s.mem ∧
          FldsKept ([Fld.SLT_CNT_MISS, Fld.SLT_CNT_CRCERR, Fld.SYS_RES_GRANT_GRANTS resMsp] ++ packetFlds) s t))

/-- MSP_READ, MSP_PROGRAM, MSP_ERASE (R145, R465, R467): BUSY and refusals, programming that only clears bits, and no byte
outside the range changed; a command whose turn on the memory port has not come waits with BUSY set (log entry 35). -/
def Obligations.NorCommandsReadProgramErase : Prop :=
  ∀ (s : State) (lvl : Level) (addr : BitVec 24) (ok : Bool) (r : Request), permitted s lvl Adr.MSP_HCMD true = true → StoresWf s →
    r = mspRequest .memPort .c1 →
    (fld s Fld.MSP_HSTAT_BUSY = 1 →
      ∃ t, exec (.mspRead lvl addr) s = .next t ∧ exec (.mspProgram lvl addr ok) s = .next t ∧
        exec (.mspErase lvl addr) s = .next t ∧ fld t Fld.MSP_HSTAT_RESULT = 3 ∧ OnlyFlds [Fld.MSP_HSTAT_RESULT] s t) ∧
    (fld s Fld.MSP_HSTAT_BUSY = 0 →
      (mspReadRefused s addr.toNat = true →
        ∃ t, exec (.mspRead lvl addr) s = .next t ∧ fld t Fld.MSP_HSTAT_RESULT = 2 ∧ OnlyFlds [Fld.MSP_HSTAT_RESULT] s t) ∧
      (mspReadRefused s addr.toNat = false → turnNow s r = true →
        ∃ t, exec (.mspRead lvl addr) s = .next t ∧ fld t Fld.MSP_HSTAT_RESULT = 1 ∧
          (∀ w : Fin 16, reg t (Adr.MSP_HBUF w) = BitVec.ofNat 32 (leNat (norBytes s (addr.toNat + 4 * w) 4))) ∧ TurnTaken s t ∧
          FldsKept (Fld.MSP_HSTAT_RESULT :: Fld.SYS_RES_GRANT_GRANTS resMsp ::
            (List.range 16).map fun w => whole (Adr.MSP_HBUF w)) s t ∧
          t = { s with regs := t.regs, sched := t.sched }) ∧
      (mspProgramRefused s addr.toNat = true →
        ∃ t, exec (.mspProgram lvl addr ok) s = .next t ∧ fld t Fld.MSP_HSTAT_RESULT = 2 ∧
          OnlyFlds [Fld.MSP_HSTAT_RESULT] s t) ∧
      (mspProgramRefused s addr.toNat = false → turnNow s r = true →
        ∃ t, exec (.mspProgram lvl addr ok) s = .next t ∧
          (ok = true → ∀ k < mspLen s, byteAt t.mem.nor (addr.toNat + k) =
            byteAt s.mem.nor (addr.toNat + k) &&& (mspBuffer s).getD k 0) ∧
          (∀ a, a < addr.toNat ∨ addr.toNat + mspLen s ≤ a → byteAt t.mem.nor a = byteAt s.mem.nor a) ∧
          fld t Fld.MSP_HSTAT_RESULT = (if ok = true ∧ norBytes t addr.toNat (mspLen s) = (mspBuffer s).take (mspLen s)
            then 1 else 4) ∧
          FldsKept [Fld.MSP_HSTAT_RESULT, Fld.SYS_RES_GRANT_GRANTS resMsp] s t ∧ TurnTaken s t ∧
          t = { s with regs := t.regs, mem := t.mem, drawn := t.drawn, sched := t.sched }) ∧
      (mspEraseRefused s addr.toNat = true →
        ∃ t, exec (.mspErase lvl addr) s = .next t ∧ fld t Fld.MSP_HSTAT_RESULT = 2 ∧ OnlyFlds [Fld.MSP_HSTAT_RESULT] s t) ∧
      (mspEraseRefused s addr.toNat = false → turnNow s r = true →
        ∃ t, exec (.mspErase lvl addr) s = .next t ∧ fld t Fld.MSP_HSTAT_RESULT = 1 ∧
          (∀ a, byteAt t.mem.nor a = if addr.toNat ≤ a ∧ a < addr.toNat + 4096 then 0xFF else byteAt s.mem.nor a) ∧
          FldsKept [Fld.MSP_HSTAT_RESULT, Fld.SYS_RES_GRANT_GRANTS resMsp] s t ∧ TurnTaken s t ∧
          t = { s with regs := t.regs, mem := t.mem, sched := t.sched }) ∧
      (turnNow s r = false →
        (mspReadRefused s addr.toNat = false →
          ∃ t, exec (.mspRead lvl addr) s = .next t ∧ fld t Fld.MSP_HSTAT_BUSY = 1 ∧ TurnWaits s t r (.mspRead lvl addr) ∧
            FldsKept (Fld.MSP_HSTAT_BUSY :: cxFlds) s t ∧ t = { s with regs := t.regs, fresh := t.fresh, sched := t.sched }) ∧
        (mspProgramRefused s addr.toNat = false →
          ∃ t, exec (.mspProgram lvl addr ok) s = .next t ∧ fld t Fld.MSP_HSTAT_BUSY = 1 ∧
            TurnWaits s t r (.mspProgram lvl addr ok) ∧
            FldsKept (Fld.MSP_HSTAT_BUSY :: cxFlds) s t ∧ t = { s with regs := t.regs, fresh := t.fresh, sched := t.sched }) ∧
        (mspEraseRefused s addr.toNat = false →
          ∃ t, exec (.mspErase lvl addr) s = .next t ∧ fld t Fld.MSP_HSTAT_BUSY = 1 ∧ TurnWaits s t r (.mspErase lvl addr) ∧
            FldsKept (Fld.MSP_HSTAT_BUSY :: cxFlds) s t ∧ t = { s with regs := t.regs, fresh := t.fresh, sched := t.sched })))

/-! ### Report FIFOs and journal -/

/-- PACKET_ADMIT (R485, R486, R496, R497): a packet that fits goes behind what the channel holds, led by the GAP word owed; one
that does not is dropped and counted; one longer than 256 words is counted as cut. BANK_HANDOVER, STALE_TIMEOUT (R52, R490,
R493, R504). The conditions of R490 are `handoverDue`, among them that the producer sees the read bank as released, two cycles
after its release. -/
def Obligations.PacketsEnterTheChannels : Prop :=
  (∀ (s : State) (n : Fin 9) (ws : List Word),
    exec (.packetAdmit n []) s = .next s ∧
    (ws ≠ [] → ws.length ≤ 256 → (n = 1 → fld s Fld.LNK_DATA_AUTOTRF = 0) → (n = 7 → fld s Fld.LNK_DATA_AUTOFLT = 0) →
      (ws.length + (if (chan s n).gap = 0 then 0 else 1) ≤ chanFree s.clk.now (chan s n) →
        ∃ t, exec (.packetAdmit n ws) s = .next t ∧
          (chan t n).rd ++ (chan t n).wr = (chan s n).rd ++ (chan s n).wr ++
            (if (chan s n).gap = 0 then [] else [unitOf 0xE (BitVec.ofNat 32 (chan s n).gap)]) ++ packetUnits ws ∧
          (chan t n).gap = 0 ∧ (∀ m : Nat, m ≠ n → chan t m = chan s m) ∧
          FldsKept (if n.val < 8 then [intBit (8 + n)] else []) s t ∧ t = { s with regs := t.regs, fresh := t.fresh, fifo := t.fifo }) ∧
      (chanFree s.clk.now (chan s n) < ws.length + (if (chan s n).gap = 0 then 0 else 1) →
        ∃ t, exec (.packetAdmit n ws) s = .next t ∧
          chan t n = { chan s n with gap := min 0xFFFF ((chan s n).gap + 1) } ∧ (∀ m : Nat, m ≠ n → chan t m = chan s m) ∧
          fld t (Fld.FIFO_CH_CNT_DROP n) = min 0xFFFF (fld s (Fld.FIFO_CH_CNT_DROP n) + 1) ∧
          (n.val < 8 → flag t (intBit (24 + n)) = true) ∧
          FldsKept (Fld.FIFO_CH_CNT_DROP n :: if n.val < 8 then [intBit (24 + n)] else []) s t ∧
          t = { s with regs := t.regs, fresh := t.fresh, fifo := t.fifo })) ∧
    (256 < ws.length →
      ∃ t, exec (.packetAdmit n ws) s = .next t ∧
        fld t (Fld.FIFO_CH_ERR_TRUNC n) = min 0xFFFF (fld s (Fld.FIFO_CH_ERR_TRUNC n) + 1) ∧
        FldsKept (Fld.FIFO_CH_ERR_TRUNC n :: packetFlds) s t ∧
        t = { s with regs := t.regs, fresh := t.fresh, fifo := t.fifo, lnk := t.lnk, tag := t.tag })) ∧
  (∀ (s : State) (n : Fin 9) (h : Fin 8),
    (handoverDue s n = true →
      ∃ t, exec (.bankHandover n) s = .next (g3Wake t) ∧ (chan t n).rd = (chan s n).wr ∧ (chan t n).wr = [] ∧
        (chan t n).rdBank = !(chan s n).rdBank ∧ (chan t n).rdUsed = 0 ∧ (chan t n).wseq = grayNext (chan s n).wseq ∧
        (chan t n).handedAt = some s.clk.now ∧ (chan t n).rseq = (chan s n).rseq ∧ (∀ m : Nat, m ≠ n → chan t m = chan s m) ∧
        (n.val < 8 → flag t (intBit (8 + n)) = true) ∧
        FldsKept (if n.val < 8 then [intBit (8 + n)] else []) s t ∧ t = { s with regs := t.regs, fresh := t.fresh, fifo := t.fifo }) ∧
    ((∀ g, s.host.g3 = some g → g.waiting = false) → g3Wake s = s) ∧
    (∀ x, handoverDue s n = true → (chan s n).relAt = some x → x + 2 ≤ s.clk.now) ∧
    (handoverDue s n = false → exec (.bankHandover n) s = .next (g3Wake s)) ∧
    ((chan s h).rd ≠ [] ∨ (chan s h).wr ≠ [] → clk100 s = true →
      ∃ t, exec (.staleTimeout h) s = .next t ∧ chan t h = { chan s h with staleDue := true } ∧
        flag t (Fld.FIFO_CH_STAT_STALE h) = true ∧ flag t (intBit (16 + h)) = true ∧
        (∀ m : Nat, m ≠ h → chan t m = chan s m) ∧
        FldsKept [Fld.FIFO_CH_STAT_STALE h, intBit (16 + h)] s t ∧ t = { s with regs := t.regs, fresh := t.fresh, fifo := t.fifo }) ∧
    (((chan s h).rd = [] ∧ (chan s h).wr = []) ∨ clk100 s = false → exec (.staleTimeout h) s = .next s))

/-- FIFO_PORT_READ (R487, R492, R493, R501, R509): the unit is consumed, its tag latched, its error counted, and a bank whose
last unit it was is released; an uncorrectable unit has a KIND and data of no stated value, and its tag says so; without a unit that
the consumer sees yet, two cycles after the handover, the tag is 0. DROP_PKT, FIFO_FLUSH, SKIP_END (R493,
R499, R500): a skip runs over what the consumer sees; a G3 transfer that waits for the channel goes on (R125). -/
def Obligations.ConsumersReadAndSkipUnits : Prop :=
  (∀ (s : State) (lvl : Level) (n : Fin 8) (ecc : Fin 3), permitted s lvl (Adr.FIFO_PORT n) false = true →
    (∀ u us, (chan s n).skip = .none → (chan s n).flushGap = 0 → 2 ≤ (chan s n).view → (chan s n).rd = u :: us →
      ∃ t k, exec (.fifoPortRead lvl n ecc) s = .next t ∧ (ecc ≠ 2 → k = u.kind) ∧ (ecc = 2 → k ∈ storedKinds) ∧
        chan t n = { chan s n with
          rd := us, rdUsed := (chan s n).rdUsed + 1, lastKind := k
          rseq := if us = [] then grayNext (chan s n).rseq else (chan s n).rseq
          relAt := if us = [] then some s.clk.now else (chan s n).relAt } ∧
        reg t (Adr.FIFO_TAG n) =
          BitVec.ofNat 32 ((k * 16 + ecc * 4 + if (chan s n).rdBank then 1 else 0) % 256) ∧
        (ecc = 1 → fld t (Fld.FIFO_CH_CNT_CORR n) = min 0xFFFF (fld s (Fld.FIFO_CH_CNT_CORR n) + 1)) ∧
        (ecc = 2 → fld t (Fld.FIFO_CH_ERR_UCE n) = min 0xFFFF (fld s (Fld.FIFO_CH_ERR_UCE n) + 1)) ∧
        (ecc = 0 → OnlyFlds [whole (Adr.FIFO_TAG n)] { s with fifo := t.fifo } t) ∧
        FldsKept ([whole (Adr.FIFO_TAG n), Fld.FIFO_CH_CNT_CORR n, Fld.FIFO_CH_ERR_UCE n] ++ packetFlds) s t) ∧
    ((chan s n).skip ≠ .none ∨ ((chan s n).flushGap = 0 ∧ ((chan s n).rd = [] ∨ (chan s n).view < 2)) →
      ∃ t, exec (.fifoPortRead lvl n ecc) s = .next t ∧ reg t (Adr.FIFO_TAG n) = 0 ∧
        OnlyFlds [whole (Adr.FIFO_TAG n)] s t)) ∧
  (∀ (s : State) (lvl : Level) (n : Fin 8),
    (permitted s lvl Adr.FIFO_CMD true = true →
      ((chan s n).lastKind = 1 ∨ (chan s n).lastKind = 2 → (chan s n).skip = .none →
        exec (.dropPkt lvl n) s = .next (setChan s n { chan s n with skip := .packet })) ∧
      ((chan s n).lastKind ≠ 1 → (chan s n).lastKind ≠ 2 → exec (.dropPkt lvl n) s = .next s) ∧
      ((chan s n).rd ≠ [] ∨ (chan s n).wr ≠ [] →
        exec (.fifoFlush lvl n) s =
          .next (setChan s n { chan s n with skip := .units ((chan s n).rd.length + (chan s n).wr.length) })) ∧
      ((chan s n).rd = [] → (chan s n).wr = [] → exec (.fifoFlush lvl n) s = .next s)) ∧
    ((chan s n).skip = .none → exec (.skipEnd n) s = .next s) ∧
    ((chan s n).view < 2 → (chan s n).skip ≠ .none → exec (.skipEnd n) s = .next (g3Wake s)) ∧
    (∀ us v post, 2 ≤ (chan s n).view → (chan s n).skip = .packet → (chan s n).rd = us ++ v :: post →
      (∀ u ∈ us, u.kind ≠ 3) → v.kind = 3 →
      ∃ t, exec (.skipEnd n) s = .next (g3Wake t) ∧
        chan t n = { chan s n with
          rd := post, rdUsed := (chan s n).rdUsed + us.length + 1, skip := .none, lastKind := 3
          rseq := if post = [] then grayNext (chan s n).rseq else (chan s n).rseq
          relAt := if post = [] then some s.clk.now else (chan s n).relAt } ∧
        t = { s with fifo := t.fifo } ∧
        (∀ g, s.host.g3 = some g → g.chan = n.val → g.waiting = true → post ≠ [] ∨ fld s (Fld.FIFO_CH_CFG_BLOCK n) = 0 →
          g3Wake t = g3Go t)) ∧
    (∀ k, 2 ≤ (chan s n).view → (chan s n).skip = .units k → 0 < k → k ≤ (chan s n).rd.length →
      ∃ t, exec (.skipEnd n) s = .next (g3Wake t) ∧ (chan t n).rd = (chan s n).rd.drop k ∧ (chan t n).wr = (chan s n).wr ∧
        (chan t n).skip = .none ∧ (chan t n).flushGap = ((chan s n).rd.take k).foldl
          (fun g u => if u.kind = 0xE then satAdd 0xFFFF g (bitsOf u.data 15 0) else g) (chan s n).flushGap ∧
        t = { s with fifo := t.fifo }))

/-- JOURNAL_RECORD (R45, R98, R471, R472, R474, R479): one packet becomes one record, behind those already in the page buffer; a
full set of page buffers leaves it on the channel. JOURNAL_PAGE_PROGRAM, JNL_FLUSH_TIMEOUT, JOURNAL_FLUSH (R145, R470, R477,
R479, R483), each in its turn on the memory port, for which it waits (log entry 35). -/
def Obligations.JournalTakesAndProgramsPages : Prop :=
  (∀ (s : State) (ecc : Fin 3),
    (flag s Fld.JNL_STAT_FAILED = true →
      ∃ t, exec (.journalRecord ecc) s = .next t ∧ (chan t 8).rd = [] ∧ (chan t 8).wr = [] ∧ (chan t 8).gap = 0 ∧
        (∀ m : Nat, m ≠ 8 → chan t m = chan s m) ∧ t = { s with fifo := t.fifo }) ∧
    (jnlRuns s = true → (chan s 8).rd = [] → (chan s 8).wr = [] → (chan s 8).flushGap = 0 →
      exec (.journalRecord ecc) s = .next s) ∧
    (jnlRuns s = true → jroom s = false → exec (.journalRecord ecc) s = .next s) ∧
    (∀ ws r rest, jnlRuns s = true → jroom s = true → s.jnl.inHand = [] → s.jnl.inHandBad = false →
      2 ≤ (chan s 8).view → (chan s 8).skip = .none → (chan s 8).flushGap = 0 → ws ≠ [] → ws.length ≤ 256 →
      (chan s 8).rd = packetUnits ws ++ rest → jbuild s ws = some r →
      ∃ t, exec (.journalRecord 0) s = .next t ∧
        (t.jnl.full ++ [t.jnl.buffer]).flatten = (s.jnl.full ++ [s.jnl.buffer]).flatten ++ [r] ∧
        (chan t 8).rd = rest ∧ (chan t 8).wr = (chan s 8).wr ∧ (∀ m : Nat, m ≠ 8 → chan t m = chan s m) ∧
        t = { s with fifo := t.fifo, jnl := t.jnl }) ∧
    (∀ n u rest, jnlRuns s = true → jroom s = true → s.jnl.inHand = [] → s.jnl.inHandBad = false →
      2 ≤ (chan s 8).view → (chan s 8).skip = .none → (chan s 8).flushGap = 0 →
      (chan s 8).rd = u :: rest → u.kind = 0xE → u.data = n →
      ∃ t, exec (.journalRecord 0) s = .next t ∧ (chan t 8).rd = rest ∧
        (t.jnl.full ++ [t.jnl.buffer]).flatten = (s.jnl.full ++ [s.jnl.buffer]).flatten ++ [jgap s n] ∧
        fld t Fld.JNL_CNT1_GAPS = min 0xFFFF (fld s Fld.JNL_CNT1_GAPS + 1) ∧
        FldsKept [Fld.JNL_CNT1_GAPS] s t ∧ t = { s with regs := t.regs, fresh := t.fresh, fifo := t.fifo, jnl := t.jnl })) ∧
  (∀ (s : State) (lvl : Level) (key : BitVec 16) (w c : Request), jnlRuns s = true → w = mspRequest .journal .c3 →
    c = mspRequest .jnlRead .c1 →
    (s.jnl.full = [] → s.jnl.buffer = [] → ∀ ok, exec (.journalPageProgram ok) s = .next s ∧ exec .jnlFlushTimeout s = .next s) ∧
    (s.jnl.full ≠ [] ∨ s.jnl.buffer ≠ [] → turnNow s w = false →
      (∀ ok, ∃ t, exec (.journalPageProgram ok) s = .next t ∧ TurnWaits s t w (.journalPageProgram ok) ∧ FldsKept cxFlds s t ∧
        t = { s with regs := t.regs, sched := t.sched }) ∧
      (∃ t, exec .jnlFlushTimeout s = .next t ∧ TurnWaits s t w .jnlFlushTimeout ∧ FldsKept cxFlds s t ∧
        t = { s with regs := t.regs, sched := t.sched })) ∧
    (∀ p ps, turnNow s w = true → jhead s ∉ s.jnl.failProg → s.jnl.page < 64 → s.jnl.full = p :: ps →
      ∃ t, exec (.journalPageProgram true) s = .next t ∧
        jpage t (64 * jhead s + s.jnl.page) = some (jheader s (32 * junitsAll p) ++ p.flatten) ∧
        (∀ n, n ≠ 64 * jhead s + s.jnl.page → jpage t n = jpage s n) ∧ t.jnl.full = ps ∧ t.jnl.buffer = s.jnl.buffer ∧
        t.jnl.page = s.jnl.page + 1 ∧ t.jnl.pseq = (s.jnl.pseq + 1) % 2 ^ 32 ∧ t.jnl.ring = s.jnl.ring ∧
        FldsKept [Fld.SYS_RES_GRANT_GRANTS resMsp] s t ∧ TurnTaken s t ∧ t = { s with regs := t.regs, jnl := t.jnl, sched := t.sched }) ∧
    (turnNow s w = true → jhead s ∉ s.jnl.failProg → s.jnl.page < 64 → s.jnl.full = [] → s.jnl.buffer ≠ [] →
      ∃ t, exec (.journalPageProgram true) s = .next t ∧
        jpage t (64 * jhead s + s.jnl.page) =
          some (jheader s (32 * junitsAll s.jnl.buffer) ++ s.jnl.buffer.flatten) ∧
        (∀ n, n ≠ 64 * jhead s + s.jnl.page → jpage t n = jpage s n) ∧ t.jnl.full = [] ∧ t.jnl.buffer = [] ∧
        FldsKept [Fld.SYS_RES_GRANT_GRANTS resMsp] s t ∧ TurnTaken s t ∧ t = { s with regs := t.regs, jnl := t.jnl, sched := t.sched }) ∧
    (turnNow s w = true → s.jnl.page < 64 → s.jnl.full ≠ [] ∨ s.jnl.buffer ≠ [] →
      ∃ t, exec (.journalPageProgram false) s = .next t ∧ jhead s ∈ t.jnl.bad ∧ flag t (intBit 56) = true ∧
        FldsKept (Fld.SYS_RES_GRANT_GRANTS resMsp :: jnlFlds) s t ∧ TurnTaken s t ∧
        t = { s with regs := t.regs, fresh := t.fresh, jnl := t.jnl, fifo := t.fifo, lnk := t.lnk, tag := t.tag, sched := t.sched }) ∧
    (turnNow s w = true →
      ∃ t, exec .jnlFlushTimeout s = .next t ∧ t.jnl.buffer = [] ∧ t.jnl.full = [] ∧
        FldsKept (Fld.SYS_RES_GRANT_GRANTS resMsp :: jnlFlds) s t ∧ TurnTaken s t ∧
        t = { s with regs := t.regs, fresh := t.fresh, jnl := t.jnl, fifo := t.fifo, lnk := t.lnk, tag := t.tag, sched := t.sched }) ∧
    (permitted s lvl Adr.JNL_CMD true = true →
      (turnNow s c = true →
        ∃ t, exec (.journalFlush lvl 0xA55A) s = .next t ∧ t.jnl.buffer = [] ∧ t.jnl.full = [] ∧
          FldsKept (Fld.SYS_RES_GRANT_GRANTS resMsp :: jnlFlds) s t ∧ TurnTaken s t ∧
          t = { s with regs := t.regs, fresh := t.fresh, jnl := t.jnl, fifo := t.fifo, lnk := t.lnk, tag := t.tag,
                       sched := t.sched }) ∧
      (turnNow s c = false →
        ∃ t, exec (.journalFlush lvl 0xA55A) s = .next t ∧ TurnWaits s t c (.journalFlush lvl 0xA55A) ∧ FldsKept cxFlds s t ∧
          t = { s with regs := t.regs, sched := t.sched })) ∧
    (permitted s lvl Adr.JNL_CMD true = true → key ≠ 0xA55A → exec (.journalFlush lvl key) s = .next s))

/-- JOURNAL_ERASE, FORMAT, JOURNAL_READ (R145, R468, R478, R479, R481–R483), each in its turn on the memory port, for which it
waits (log entry 35). -/
def Obligations.JournalErasesFormatsReads : Prop :=
  ∀ (s : State) (lvl : Level) (key : BitVec 16) (page : BitVec 21) (ok : Bool) (w c : Request), w = mspRequest .journal .c3 → c = mspRequest .jnlRead .c1 →
    (fld s Fld.JNL_CFG_RESERVE ≤ s.jnl.erased.length ∨ jnlRuns s = false → exec (.journalErase ok) s = .next s) ∧
    (jnlRuns s = true → s.jnl.erased.length < fld s Fld.JNL_CFG_RESERVE → turnNow s w = false →
      ∃ t, exec (.journalErase ok) s = .next t ∧ TurnWaits s t w (.journalErase ok) ∧ FldsKept cxFlds s t ∧
        t = { s with regs := t.regs, sched := t.sched }) ∧
    (∀ b, turnNow s w = true → jnlRuns s = true → s.jnl.erased.length < fld s Fld.JNL_CFG_RESERVE → jeraseNext s = some b → b ∉ s.jnl.ring →
      b ∉ s.jnl.bad → jfactoryBad s b = false →
      (b ∉ s.jnl.failErase → ∃ t, exec (.journalErase true) s = .next t ∧ (∀ n, jpage t n = if n / 64 = b then none else jpage s n) ∧
        t.jnl.erased = s.jnl.erased ++ [b] ∧ t.jnl.ring = s.jnl.ring ∧ TurnTaken s t ∧
        FldsKept [Fld.SYS_RES_GRANT_GRANTS resMsp] s t ∧ t = { s with regs := t.regs, jnl := t.jnl, sched := t.sched }) ∧
      (∃ t, exec (.journalErase false) s = .next t ∧ b ∈ t.jnl.bad ∧ b ∉ t.jnl.erased ∧ flag t (intBit 56) = true ∧
        FldsKept (Fld.SYS_RES_GRANT_GRANTS resMsp :: jnlFlds) s t ∧ TurnTaken s t ∧
        t = { s with regs := t.regs, fresh := t.fresh, jnl := t.jnl, fifo := t.fifo, lnk := t.lnk, tag := t.tag, sched := t.sched })) ∧
    (permitted s lvl Adr.JNL_CMD true = true →
      (key ≠ 0xA55A ∨ lvl ≠ .supervisor ∨ fld s Fld.JNL_STAT_MOUNTED = 0 → exec (.format lvl key) s = .next s) ∧
      (lvl = .supervisor → fld s Fld.JNL_STAT_MOUNTED = 1 → turnNow s c = false →
        ∃ t, exec (.format lvl 0xA55A) s = .next t ∧ TurnWaits s t c (.format lvl 0xA55A) ∧ FldsKept cxFlds s t ∧
          t = { s with regs := t.regs, sched := t.sched }) ∧
      (lvl = .supervisor → fld s Fld.JNL_STAT_MOUNTED = 1 → turnNow s c = true → s.jnl.failProg = [] → s.jnl.failErase = [] →
        ∃ t, exec (.format lvl 0xA55A) s = .next t ∧ t.jnl.bad = (List.range 16).filter (jfactoryBad s) ∧
          t.jnl.ring.length = 1 ∧ t.jnl.ckpt.isSome = true ∧ t.jnl.buffer = [] ∧ t.jnl.full = [] ∧
          fld t Fld.JNL_STAT_MOUNTED = 1 ∧ fld t Fld.JNL_STAT_FAILED = 0 ∧ fld t Fld.JNL_STAT_WRAPPED = 0 ∧
          fld t Fld.JNL_CNT0_GROWN = 0 ∧ FldsKept (Fld.SYS_RES_GRANT_GRANTS resMsp :: jnlFlds) s t ∧ TurnTaken s t ∧
          t = { s with regs := t.regs, fresh := t.fresh, jnl := t.jnl, fifo := t.fifo, lnk := t.lnk, tag := t.tag, drawn := t.drawn,
                       sched := t.sched })) ∧
    (permitted s lvl Adr.JNL_RDCMD true = true →
      (fld s Fld.JNL_RDSTAT_BUSY = 1 →
        ∃ t, exec (.journalRead lvl page ok) s = .next t ∧ fld t Fld.JNL_RDSTAT_RESULT = 4 ∧
          OnlyFlds [Fld.JNL_RDSTAT_RESULT] s t) ∧
      (fld s Fld.JNL_RDSTAT_BUSY = 0 →
        (fld s Fld.JNL_STAT_MOUNTED = 0 ∨ (jpages s).length ≤ page.toNat →
          ∃ t, exec (.journalRead lvl page ok) s = .next t ∧ fld t Fld.JNL_RDSTAT_RESULT = 2 ∧
            OnlyFlds [Fld.JNL_RDSTAT_RESULT] s t) ∧
        (fld s Fld.JNL_STAT_MOUNTED = 1 → page.toNat < (jpages s).length → turnNow s c = false →
          ∃ t, exec (.journalRead lvl page ok) s = .next t ∧ fld t Fld.JNL_RDSTAT_BUSY = 1 ∧
            TurnWaits s t c (.journalRead lvl page ok) ∧ FldsKept (Fld.JNL_RDSTAT_BUSY :: cxFlds) s t ∧
            (∀ n, (jpages s)[page.toNat]? = some n → t.jnl = { s.jnl with readPage := n }) ∧
            t = { s with regs := t.regs, fresh := t.fresh, jnl := t.jnl, sched := t.sched }) ∧
        (∀ n, fld s Fld.JNL_STAT_MOUNTED = 1 → (jpages s)[page.toNat]? = some n → turnNow s c = true →
          (∃ t, exec (.journalRead lvl page true) s = .next t ∧ fld t Fld.JNL_RDSTAT_RESULT = 1 ∧
            t.jnl = { s.jnl with readBuf := (jpage s n).getD [0xFF], readPage := n } ∧
            FldsKept [Fld.JNL_RDSTAT_RESULT, Fld.SYS_RES_GRANT_GRANTS resMsp] s t ∧ TurnTaken s t ∧
            t = { s with regs := t.regs, fresh := t.fresh, jnl := t.jnl, sched := t.sched }) ∧
          (∃ t, exec (.journalRead lvl page false) s = .next t ∧ fld t Fld.JNL_RDSTAT_RESULT = 3 ∧
            fld t Fld.JNL_CNT0_UCE = min 0xFFFF (fld s Fld.JNL_CNT0_UCE + 1) ∧
            t.jnl = { s.jnl with uce := s.jnl.uce ++ [n], readPage := n } ∧
            FldsKept [Fld.JNL_RDSTAT_RESULT, Fld.JNL_CNT0_UCE, Fld.SYS_RES_GRANT_GRANTS resMsp] s t ∧ TurnTaken s t ∧
            t = { s with regs := t.regs, fresh := t.fresh, jnl := t.jnl, sched := t.sched }))))

/-! ### Sightings -/

/-- READ_MERGE (R31, R450–R452, R455): the reads that wait and stand before it in the order of R31 are merged first; it then
joins the sighting of its key, or opens one. -/
def Obligations.ReadsMergeByKey : Prop :=
  ∀ (s : State) (r : ReadIn) (left : List TagRead), r.id ≠ [] → left = s.sgt.waiting.eraseP (fun w => sameRead w (readOf s r)) →
    (∃ t, exec (.readMerge r) s = .next t ∧ t.sgt.waiting = left.filter (fun w => !readLe w (readOf s r)) ∧
      ∀ w ∈ t.sgt.waiting, readLe w (readOf s r) = false) ∧
    (∀ n e, (∀ w ∈ left, readLe w (readOf s r) = false) →
       s.sgt.open_.find? (fun p => sgtKey p.2 r.tech (r.id.take 16) (zoneOf s r.rp)) = some (n, e) →
      ∃ t d, exec (.readMerge r) s = .next t ∧ sgtAt t n = some d ∧ d.first = e.first ∧ d.last = r.q64.toNat ∧
        d.count = min 0xFFFF (e.count + 1) ∧ d.rpMask = e.rpMask ||| 2 ^ r.rp.val ∧
        d.hold = (if r.hold = 0 then s.sgt.hold else r.hold.toNat) ∧
        (e.count = 0 ∨ r.level.toNat < e.peak → d.peak = r.level.toNat ∧ d.peakRp = r.rp) ∧
        (0 < e.count → e.peak ≤ r.level.toNat → d.peak = e.peak ∧ d.peakRp = e.peakRp) ∧
        d.id = e.id ∧ d.tech = e.tech ∧ d.zone = e.zone ∧ (∀ m, m ≠ n → sgtAt t m = sgtAt s m) ∧
        t = { s with sgt := t.sgt }) ∧
    (∀ n, (∀ w ∈ left, readLe w (readOf s r) = false) →
      s.sgt.open_.find? (fun p => sgtKey p.2 r.tech (r.id.take 16) (zoneOf s r.rp)) = none → sgtFree s = some n →
      ∃ t d, exec (.readMerge r) s = .next t ∧ sgtAt t n = some d ∧ d.first = r.q64.toNat ∧ d.last = r.q64.toNat ∧
        d.count = 1 ∧ d.rpMask = 2 ^ r.rp.val ∧ d.id = r.id.take 16 ∧ d.tech = r.tech ∧ d.zone = zoneOf s r.rp ∧
        d.peak = r.level.toNat ∧ d.peakRp = r.rp ∧ (∀ m, m ≠ n → sgtAt t m = sgtAt s m) ∧ t = { s with sgt := t.sgt }) ∧
    ((∀ w ∈ left, readLe w (readOf s r) = false) →
      s.sgt.open_.find? (fun p => sgtKey p.2 r.tech (r.id.take 16) (zoneOf s r.rp)) = none → sgtFree s = none →
      ∃ t, exec (.readMerge r) s = .next t ∧ flag t Fld.SGT_STAT_EARLY = true ∧ flag t (intBit 58) = true ∧
        fld t Fld.SGT_CNT1_EARLY = min 0xFFFF (fld s Fld.SGT_CNT1_EARLY + 1) ∧
        fld t Fld.SGT_CNT0_CLOSED = min 0xFFFFFFFF (fld s Fld.SGT_CNT0_CLOSED + 1) ∧
        FldsKept ([Fld.SGT_STAT_EARLY, intBit 58, Fld.SGT_CNT1_EARLY, Fld.SGT_CNT0_CLOSED] ++ packetFlds) s t ∧
        t = { s with regs := t.regs, fresh := t.fresh, fifo := t.fifo, sgt := t.sgt })

/-- SIGHTING_TICK, INTERVAL_REPORT (R453, R459, R460, R462, R463). SGT_SEL_WRITE, SGT_CFG_WRITE (R463). -/
def Obligations.SightingsCloseAndAreCounted : Prop :=
  (∀ s : State,
    (mode s < 3 → exec .sightingTick s = .next s) ∧
    (3 ≤ mode s →
      ∃ t, exec .sightingTick s = .next t ∧ t.sgt.waiting = [] ∧ t.sgt.hold = fld s Fld.SGT_CFG_HOLD ∧
        t.sgt.maxOpen = fld s Fld.SGT_CFG_MAXOPEN ∧ t.sgt.dirGap = fld s Fld.SGT_CFG_DIRGAP ∧
        (s.sgt.waiting = [] →
          (∀ p ∈ s.sgt.open_, s.clk.now < p.2.firstAt + ms (1000 * fld s Fld.SGT_CFG_MAXOPEN)) →
          (∀ p ∈ s.sgt.open_, p.2.lastAt + ms (100 * p.2.hold) ≤ s.clk.now → sgtAt t p.1 = none) ∧
          (∀ n, (∀ p ∈ s.sgt.open_, p.1 = n → s.clk.now < p.2.lastAt + ms (100 * p.2.hold)) → sgtAt t n = sgtAt s n)) ∧
        FldsKept ([Fld.SGT_CNT0_CLOSED, Fld.SGT_CNT1_EARLY, Fld.SGT_CNT1_LONG, Fld.SGT_STAT_EARLY, intBit 58] ++ packetFlds)
          s t ∧ t = { s with regs := t.regs, fresh := t.fresh, fifo := t.fifo, sgt := t.sgt, drawn := t.drawn }) ∧
    (mode s < 3 → exec .intervalReport s = .next s) ∧
    (3 ≤ mode s → ∃ t, exec .intervalReport s = .next t ∧ (∀ z ∈ t.sgt.zones, z.ended = []) ∧ t.sgt.open_ = s.sgt.open_ ∧
      ((∃ z ∈ s.sgt.zones, z.ended ≠ []) → flag t (intBit 59) = true) ∧
      ((∀ z ∈ s.sgt.zones, z.ended = []) → (s.sgt.zones.map fun z => z.code).Nodup → t = s) ∧ FldsKept (intBit 59 :: packetFlds) s t ∧
      t = { s with regs := t.regs, fresh := t.fresh, fifo := t.fifo, sgt := t.sgt, lnk := t.lnk })) ∧
  (∀ (s : State) (lvl : Level) (value : Word),
    (permitted s lvl Adr.SGT_SEL true = true → (sgtView s (bitsOf value 10 0)).1.length = 64 →
      ∃ t, exec (.sgtSelWrite lvl value) s = .next t ∧ fld t Fld.SGT_SEL_INDEX = bitsOf value 10 0 ∧
        fld t Fld.SGT_SEL_STATE = (sgtView s (bitsOf value 10 0)).2 ∧
        (∀ w : Fin 16, reg t (Adr.SGT_E w) = (packWords (sgtView s (bitsOf value 10 0)).1).getD w 0) ∧
        OnlyFlds (Fld.SGT_SEL_INDEX :: Fld.SGT_SEL_STATE :: Fld.HSP_STAT_RANGE ::
          (List.range 16).map fun w => whole (Adr.SGT_E w)) s t) ∧
    (permitted s lvl Adr.SGT_CFG true = true →
      (1 ≤ bitsOf value 31 20 → 1 ≤ bitsOf value 19 14 → bitsOf value 19 14 ≤ 60 → divides60 (bitsOf value 5 0) = true →
        ∃ t, exec (.sgtCfgWrite lvl value) s = .next t ∧ reg t Adr.SGT_CFG = value ∧ OnlyFlds [whole Adr.SGT_CFG] s t) ∧
      (bitsOf value 31 20 = 0 ∨ bitsOf value 19 14 = 0 ∨ 60 < bitsOf value 19 14 ∨ divides60 (bitsOf value 5 0) = false →
        ∃ t, exec (.sgtCfgWrite lvl value) s = .next t ∧ fld t Fld.SGT_STAT_CFGERR = 1 ∧
          OnlyFlds [Fld.SGT_STAT_CFGERR] s t)))

/-! ### UHF inventory -/

/-- SLOT_EMPTY, RN16_REPLY, EPC_REPLY_MISSING in an open slot or after an ACK (R210, R265–R268, R295): what goes on the air
next, how the Q algorithm moves, and the levels that the chains report. EPC_REPLY (R210, R228, R254, R263, R268, R269): a reply
with a good CRC that ends in time is one read, which goes to the sighting table unless the read point's filter discards it; one
that ends late is no read. -/
def Obligations.SlotsYieldReads : Prop :=
  (∀ (s : State) (p : RfPath) (r : Round), roundOf s p = some r →
    (∀ d, r.phase = .slot → r.hopDue = false →
      d = { r with empties := if r.q = eBits (roundEntry s r) 53 3 0 then r.empties + 1 else 0
                   emptySlots := r.emptySlots + 1
                   qfp := max (16 * eBits (roundEntry s r) 53 3 0) (r.qfp - fld s Fld.BRM_Q_CE) } →
      d.empties ≠ fld s Fld.BRM_Q_ENDEMPTY →
      blocked s p d (slotWorst (roundEntry s r) (nextTime (roundEntry s r) (qStep d).2)) = none →
      ∃ t, exec (.slotEmpty p) s = .next t ∧
        roundOf t p = some { (qStep d).1 with phase := .slot, slots := r.slots + 1 } ∧
        t.brm.sent = [(p, nextAir (qStep d).2)] ∧ roundOf t (otherPath p) = roundOf s (otherPath p) ∧
        t = { s with brm := t.brm }) ∧
    (∀ l d, r.phase = .slot → r.hopDue = false → (l.length ≠ 1 ∧ captureOf s r l = none ∨ ∃ x, l = [x] ∧ x.decoded = false) →
      d = { r with empties := 0, collisions := r.collisions + 1
                   qfp := min (16 * eBits (roundEntry s r) 53 7 4) (r.qfp + fld s Fld.BRM_Q_CC) } →
      blocked s p d (slotWorst (roundEntry s r) (nextTime (roundEntry s r) (qStep d).2)) = none →
      ∃ t, exec (.rn16Reply p l) s = .next t ∧
        roundOf t p = some { (qStep d).1 with phase := .slot, slots := r.slots + 1 } ∧
        t.brm.sent = [(p, nextAir (qStep d).2)] ∧ roundOf t (otherPath p) = roundOf s (otherPath p) ∧
        fld t Fld.BRM_CNT1_COLLIDE = min 0xFFFF (fld s Fld.BRM_CNT1_COLLIDE + 1) ∧
        FldsKept (Fld.BRM_CNT1_COLLIDE :: rssiFlds) s t ∧ t = { s with regs := t.regs, fresh := t.fresh, brm := t.brm }) ∧
    (∀ x, r.phase = .slot → x.decoded = true →
      ∃ t, exec (.rn16Reply p [x]) s = .next t ∧ roundOf t p = some { r with phase := .acked x.rn false 0 } ∧
        t.brm.sent = [(p, .ack x.rn)] ∧ roundOf t (otherPath p) = roundOf s (otherPath p) ∧
        (∀ k : Fin 4, (roundChains s r).testBit k = true → fld t (Fld.RAD_RXC_STAT_RSSI k) = (x.levels.getD k 255).toNat) ∧
        FldsKept rssiFlds s t ∧ t = { s with regs := t.regs, brm := t.brm }) ∧
    (∀ l x, r.phase = .slot → l.length ≠ 1 → captureOf s r l = some x →
      ∃ t, exec (.rn16Reply p l) s = .next t ∧
        roundOf t p = some { r with phase := .acked x.rn true 0, captures := r.captures + 1 } ∧
        t.brm.sent = [(p, .ack x.rn)] ∧ fld t Fld.BRM_CNT1_CAPTURE = min 0xFFFF (fld s Fld.BRM_CNT1_CAPTURE + 1) ∧
        FldsKept (Fld.BRM_CNT1_CAPTURE :: rssiFlds) s t ∧ t = { s with regs := t.regs, fresh := t.fresh, brm := t.brm }) ∧
    (∀ rn c n, r.phase = .acked rn c n → n < fld s Fld.BRM_ACC_ACKRETRY →
      blocked s p r (ackWorst (roundEntry s r) rn) = none →
      ∃ t, exec (.epcReplyMissing p) s = .next t ∧ roundOf t p = some { r with phase := .acked rn c (n + 1) } ∧
        t.brm.sent = [(p, .ack rn)] ∧ roundOf t (otherPath p) = roundOf s (otherPath p) ∧ t = { s with brm := t.brm }) ∧
    (∀ rn c n, r.phase = .acked rn c n → fld s Fld.BRM_ACC_ACKRETRY ≤ n →
      ∃ t, exec (.epcReplyMissing p) s = .next (row s fun _ => t) ∧
        fld t Fld.BRM_CNT2_EPCFAIL = min 0xFFFF (fld s Fld.BRM_CNT2_EPCFAIL + 1) ∧
        fld t Fld.BRM_CNT1_COLLIDE = min 0xFFFF (fld s Fld.BRM_CNT1_COLLIDE + 1) ∧ FldsKept (roundFlds ++ sendFlds) s t ∧
        t = { s with regs := t.regs, fresh := t.fresh, brm := t.brm, cal := t.cal, fifo := t.fifo, radio := t.radio })) ∧
  (∀ (s : State) (p : RfPath) (r : Round) (rn : BitVec 16) (c : Bool) (n : Nat) (x : EpcReply), roundOf s p = some r →
    r.phase = .acked rn c n →
    (replyLate s p r = none → epcGood x = false →
      exec (.epcReply p x) s = exec (.epcReplyMissing p) (reportLevels s (roundChains s r) x.levels)) ∧
    (replyLate s p r ≠ none →
      ∃ t, exec (.epcReply p x) s = .next (row s fun _ => t) ∧ t.sgt = s.sgt ∧ fld t Fld.BRM_CNT0_READS = fld s Fld.BRM_CNT0_READS) ∧
    (replyLate s p r = none → epcGood x = true →
      ∃ t, exec (.epcReply p x) s = .next (row s fun _ => t) ∧
        fld t Fld.BRM_CNT0_READS = min 0xFFFFFFFF (fld s Fld.BRM_CNT0_READS + 1) ∧
        (∀ k : Fin 4, (roundChains s r).testBit k = true → fld t (Fld.RAD_RXC_STAT_RSSI k) = (x.levels.getD k 255).toNat) ∧
        (fld s (Fld.RP_FILT_RSSIMIN r.leaf) < epcLevel s r x → t.sgt = s.sgt) ∧
        (epcLevel s r x ≤ fld s (Fld.RP_FILT_RSSIMIN r.leaf) →
          ∃ d : TagRead, t.sgt = { s.sgt with waiting := s.sgt.waiting ++ [d] } ∧ d.tech = 0 ∧
            d.id = ((epcWords x).take 8).flatMap (fun w => beBytes 2 w.toNat) ∧
            d.longId = decide (8 < (epcWords x).length) ∧ d.rp = r.leaf ∧ d.chan = r.chan ∧ d.q64 = q64 s ∧
            d.level = epcLevel s r x ∧ d.pc = (x.words.getD 0 0).toNat ∧ d.hold = eHold (roundEntry s r)) ∧
        FldsKept (roundFlds ++ sendFlds ++ rssiFlds ++ cxFlds) s t ∧
        t = { s with regs := t.regs, fresh := t.fresh, brm := t.brm, cal := t.cal, fifo := t.fifo, radio := t.radio, sched := t.sched,
                     sgt := t.sgt, drawn := t.drawn }))

/-- ACCESS_STEP_REPLY, ACCESS_STEP_TIMEOUT, AUTH_FLINT_GRANT (R272–R276, R290): a step that ends OK is followed by the next one;
one without an answer is repeated; an AUTH answer waits for Flint and is checked against the challenge. -/
def Obligations.AccessStepsFollowOneAnother : Prop :=
  ∀ (s : State) (p : RfPath) (r : Round) (g n : Nat), roundOf s p = some r → r.prog = some g →
    (∀ k data, r.phase = .step n k → stepOp s g n = 9 →
      ∃ t, exec (.accessStepReply p (.ok data)) s = .next t ∧
        roundOf t p = some { r with phase := .flint n (bitsOf (argWord s g n) 20 16) } ∧
        t.brm.sent = [] ∧ t = { s with brm := t.brm }) ∧
    (∀ k data, r.phase = .step n k → stepOp s g n ≠ 9 → stepOp s g (n + 1) ≠ 9 → n + 1 < programLength s g →
      blocked (releaseTopUp s (roundConsumer r)) p r
        (psCycles (stepTime s (roundEntry s r) (stepOp s g (n + 1)) (opWord s g (n + 1)) (argWord s g (n + 1)))) = none →
      ∃ t, exec (.accessStepReply p (.ok data)) s = .next t ∧
        roundOf t p = some { r with phase := .step (n + 1) 0, results := r.results ++ [(stepOp s g n, 0, 0, stepData s g n data)] } ∧
        t.brm.sent = (stepCmds s (stepOp s g (n + 1)) (opWord s g (n + 1)) (argWord s g (n + 1))).map (fun a => (p, a)) ∧
        FldsKept cxFlds s t ∧ t = { s with regs := t.regs, brm := t.brm, sched := t.sched }) ∧
    (∀ k bad, r.phase = .step n k → stepOp s g n ≠ 9 → k < fld s Fld.BRM_ACC_STEPRETRY →
      blocked s p r (psCycles (stepTime s (roundEntry s r) (stepOp s g n) (opWord s g n) (argWord s g n))) = none →
      ∃ t, exec (.accessStepTimeout p bad) s = .next t ∧ roundOf t p = some { r with phase := .step n (k + 1) } ∧
        t.brm.sent = (stepCmds s (stepOp s g n) (opWord s g n) (argWord s g n)).map (fun a => (p, a)) ∧
        FldsKept cxFlds s t ∧ t = { s with regs := t.regs, brm := t.brm, sched := t.sched }) ∧
    (∀ k code i, r.phase = .step n k → r.read = some i → reportsUax s r = true →
      ∃ t, exec (.accessStepReply p (.tagError code)) s = .next (row s fun _ => t) ∧ flag t (intBit 33) = true ∧
        FldsKept (roundFlds ++ sendFlds ++ cxFlds) s t ∧
        t = { s with regs := t.regs, fresh := t.fresh, brm := t.brm, cal := t.cal, fifo := t.fifo, radio := t.radio, sched := t.sched }) ∧
    (∀ slot response, r.phase = .flint n slot → authFlint (brmQuiet s) (roundConsumer r) = none →
      exec (.authFlintGrant p response) s = .next (brmQuiet s)) ∧
    (∀ slot response, r.phase = .flint n slot → (holdsOf s (roundConsumer r)).testBit resFlint = true → stepOp s g (n + 1) ≠ 9 → n + 1 < programLength s g →
      (authPlain s slot response).1 = tam1Const → (authPlain s slot response).2.2 = r.challenge.toNat →
      blocked (releaseTopUp s (roundConsumer r)) p r
        (psCycles (stepTime s (roundEntry s r) (stepOp s g (n + 1)) (opWord s g (n + 1)) (argWord s g (n + 1)))) = none →
      ∃ t, exec (.authFlintGrant p response) s = .next t ∧
        roundOf t p = some { r with phase := .step (n + 1) 0, results := r.results ++
          [(stepOp s g n, 0, 0, [BitVec.ofNat 32 (authPlain s slot response).2.1])] } ∧
        FldsKept cxFlds s t ∧
        t = { s with regs := t.regs, fresh := t.fresh, brm := t.brm, sched := t.sched }) ∧
    (∀ slot response i, r.phase = .flint n slot → (holdsOf s (roundConsumer r)).testBit resFlint = true → r.read = some i → reportsUax s r = true →
      (authPlain s slot response).1 ≠ tam1Const ∨ (authPlain s slot response).2.2 ≠ r.challenge.toNat →
      ∃ t, exec (.authFlintGrant p response) s = .next (row s fun _ => t) ∧ flag t (intBit 33) = true ∧
        FldsKept (roundFlds ++ sendFlds ++ cxFlds) s t ∧
        t = { s with regs := t.regs, fresh := t.fresh, brm := t.brm, cal := t.cal, fifo := t.fifo, radio := t.radio, sched := t.sched })

/-- VISIT_END, HOP_INTERVAL, REGULATORY_DEADLINE (R258, R259, R264, R283, R285, R287, R295): the last visit ends the round with
its counts; a hop waits for the slot's end; a deadline turns the carrier off. -/
def Obligations.RoundsEndWithTheirVisits : Prop :=
  ∀ (s : State) (p : RfPath) (r : Round), roundOf s p = some r →
    (r.phase = .slot → r.leaves = [] → r.entry < 1024 →
      ∃ t, exec (.visitEnd p) s = .next (settle t) ∧ roundOf t p = none ∧ roundOf t (otherPath p) = roundOf s (otherPath p) ∧
        fld t (fRun p) = 0 ∧ fld t Fld.BRM_STAT_LASTENTRY = r.entry ∧ fld t Fld.BRM_STAT_LASTEND = 0 ∧
        fld t Fld.BRM_CNT3_ROUNDS = min 0xFFFF (fld s Fld.BRM_CNT3_ROUNDS + 1) ∧ flag t (intBit 32) = true ∧
        (pathState s p ≠ 0 → pathState t p = 1) ∧ fld t (fCarr p) = (if pathState s p = 0 then fld s (fCarr p) else 0) ∧
        (r.immediate = true → fld t Fld.BRM_IMMSTAT_BUSY = 0 ∧ t.brm.imm = none ∧
          fld t Fld.BRM_IMMSTAT_RESULT = (if r.maxTags ≤ r.tagsOk then 1 else 4)) ∧
        FldsKept (roundFlds ++ sendFlds) s t ∧
        t = { s with regs := t.regs, fresh := t.fresh, brm := t.brm, cal := t.cal, fifo := t.fifo, radio := t.radio }) ∧
    (∃ t, exec (.hopInterval p) s = .next t ∧ roundOf t p = some { r with hopDue := true } ∧
        roundOf t (otherPath p) = roundOf s (otherPath p) ∧ t.brm.sent = [] ∧ t = { s with brm := t.brm }) ∧
    (∀ d, r.phase = .slot → r.hopDue = true →
      d = { r with phase := .slot
                   empties := if r.q = eBits (roundEntry s r) 53 3 0 then r.empties + 1 else 0
                   emptySlots := r.emptySlots + 1
                   qfp := max (16 * eBits (roundEntry s r) 53 3 0) (r.qfp - fld s Fld.BRM_Q_CE) } →
      d.empties ≠ fld s Fld.BRM_Q_ENDEMPTY → (takeNext (setRound (brmQuiet s) p (some d)) (roundEntry s r) d p).1 = none →
      ∃ t, exec (.slotEmpty p) s = .next (settle t) ∧ roundOf t p = none ∧ fld t Fld.BRM_STAT_LASTEND = 4 ∧
        fld t Fld.BRM_CNT2_DWELLHOLD = min 0xFFFF (fld s Fld.BRM_CNT2_DWELLHOLD + 1) ∧ flag t (intBit 34) = true ∧
        r.entry ∈ t.brm.holds ∧ FldsKept (roundFlds ++ sendFlds) s t ∧
        t = { s with regs := t.regs, fresh := t.fresh, brm := t.brm, cal := t.cal, fifo := t.fifo, radio := t.radio }) ∧
    (∃ t, exec (.regulatoryDeadline p) s = .next (row s fun _ => t) ∧ fld t (fCarr p) = 0 ∧ FldsKept (roundFlds ++ sendFlds) s t ∧
      t = { s with regs := t.regs, fresh := t.fresh, brm := t.brm, cal := t.cal, fifo := t.fifo, radio := t.radio })

/-- CHANNEL_UNBAR, OCC_BIN, IMMEDIATE_ACCESS (R277, R283, R294). -/
def Obligations.ChannelsAndImmediateAccess : Prop :=
  ∀ s : State,
    (∀ (i : Fin 50) c, (profileChans s)[i.val]? = some c → (account s c).barredUntil.isSome = true →
      (account s c).onSince = none →
      exec (.channelUnbar i) s = .next (setAccount s { account s c with barredUntil := none })) ∧
    (∃ t, exec .occBin s = .next t ∧ t.brm.binAt = s.clk.now ∧ (∀ a ∈ t.brm.accounts, a.bins.head? = some 0 ∧ a.bins.length ≤ 201) ∧
      t.brm.accounts.map (fun a => a.chan) = s.brm.accounts.map (fun a => a.chan) ∧ t = { s with brm := t.brm }) ∧
    (∀ (lvl : Level) (v : Word), permitted s lvl Adr.BRM_IMM true = true →
      (bitsOf v 31 31 = 0 ∨ fld s Fld.BRM_IMMSTAT_BUSY = 1 →
        ∃ t, exec (.immediateAccess lvl v) s = .next t ∧ OnlyFlds [Fld.HSP_STAT_RANGE] s t) ∧
      (bitsOf v 31 31 = 1 → fld s Fld.BRM_IMMSTAT_BUSY = 0 →
        immReason s (bitsOf v 30 21) (bitsOf v 20 14) (bitsOf v 13 10) (bitsOf v 5 2) ≠ 0 →
        ∃ t, exec (.immediateAccess lvl v) s = .next t ∧ fld t Fld.BRM_IMMSTAT_RESULT = 2 ∧ fld t Fld.BRM_IMMSTAT_TAGS = 0 ∧
          fld t Fld.BRM_IMMSTAT_REASON =
            immReason s (bitsOf v 30 21) (bitsOf v 20 14) (bitsOf v 13 10) (bitsOf v 5 2) % 256 ∧
          OnlyFlds [Fld.HSP_STAT_RANGE, Fld.BRM_IMMSTAT_RESULT, Fld.BRM_IMMSTAT_TAGS, Fld.BRM_IMMSTAT_REASON] s t) ∧
      (bitsOf v 31 31 = 1 → fld s Fld.BRM_IMMSTAT_BUSY = 0 →
        immReason s (bitsOf v 30 21) (bitsOf v 20 14) (bitsOf v 13 10) (bitsOf v 5 2) = 0 →
        ∃ t, exec (.immediateAccess lvl v) s = .next t ∧ FldsKept [whole Adr.HSP_STAT, whole Adr.BRM_IMMSTAT, whole Adr.SYS_STAT,
            Fld.SYS_SCHCNT3_COLLIDE] s t ∧ t = { s with regs := t.regs, fresh := t.fresh, brm := t.brm, sched := t.sched } ∧
          fld t Fld.BRM_IMMSTAT_BUSY = 1 ∧ fld t Fld.BRM_IMMSTAT_RESULT = 0 ∧
          t.brm.imm = some (bitsOf v 30 21, bitsOf v 20 14, bitsOf v 13 10, bitsOf v 9 6, bitsOf v 5 2) ∧
          (posted s .hostUhf = false → grantOf s .hostUhf = none →
            ∃ q, t.sched.requests = s.sched.requests ++ [q] ∧ q.who = .hostUhf ∧ q.cls = .c1)))

/-! ### HF reader and Gorse -/

/-- FOFF_WAIT_END, GUARD_END (R299–R302, R304, R306, R307): a visit that waited for its port turns the field on with the port's
tuning and step; after GUARD the first request of its class goes out. Frame lengths and windows are those of log entry 46.
CARD_FRAME, ANSWER_TIMEOUT (R307–R315, R327, R330): an ATQA begins the anticollision, a SAK that completes a UID is a card,
silence ends the visit; the next frame starts RGUARD after an answer. The end of an answer window is an HF frame boundary, at which what
is pending settles before the row acts (R303); at a field-off it settles after it (R38). -/
def Obligations.HfVisitsAndCardAnswers : Prop :=
  (∀ s : State,
    (s.hf.visit = none →
      (∃ t, exec .foffWaitEnd s = .next t ∧ t = { s with hf := { s.hf with sent := [], foff := t.hf.foff } } ∧
        t.hf.foff = (foffFirst s).elim s.hf.foff fun p => s.hf.foff.setIfInBounds p none) ∧
      exec .guardEnd s = .next { s with hf := { s.hf with sent := [] } }) ∧
    (∀ v p, s.hf.visit = some v → v.phase = .foff → foffFirst s = some p → rpPort s v.leaf ≠ p →
      ∃ t, exec .foffWaitEnd s = .next t ∧ t = { s with hf := { s.hf with sent := [], foff := s.hf.foff.setIfInBounds p none } }) ∧
    (∀ v, s.hf.visit = some v → v.phase = .foff → foffFirst s = some (rpPort s v.leaf) →
      ∃ t, exec .foffWaitEnd s = .next t ∧ fld t Fld.HF_STAT_FIELD = 1 ∧ fld t Fld.HF_STAT_PORT = rpPort s v.leaf % 2 ∧
        t.hf.visit = some { v with phase := .guard } ∧ t.hf.foff = s.hf.foff.setIfInBounds (rpPort s v.leaf) none ∧
        t.hf.drive = some { tune := reg s (Adr.CAL_HFTUNE (rpPort s v.leaf))
                            step := min (ePower (hfEntry s v)) (hfMaxStep s (rpPort s v.leaf)), drv := reg s Adr.HF_DRV } ∧ t.hf.nextAt = s.clk.now ∧
        (hfTopStep < min (ePower (hfEntry s v)) (hfMaxStep s (rpPort s v.leaf)) → fld t Fld.HF_STAT_DRVLIM = 1) ∧
        FldsKept [Fld.HF_STAT_FIELD, Fld.HF_STAT_PORT, Fld.HF_STAT_DRVLIM] s t ∧ t = { s with regs := t.regs, fresh := t.fresh, hf := t.hf }) ∧
    (∀ v c ph window, s.hf.visit = some v → v.phase = .guard → hfWarned s v = false → hfFits s v c window = true →
      (eClass (hfEntry s v) = 2 ∧ c = .reqa (v.first && flag s Fld.HF_CFG_WUP) ∧ ph = .reqA ∧ window = winAB) ∨
      (eClass (hfEntry s v) = 3 ∧ c = .reqb (v.first && flag s Fld.HF_CFG_WUP) (eByte (hfEntry s v) 51)
        (min 4 (eBits (hfEntry s v) 52 2 0)) ∧ ph = .slotB 0 ∧ window = winAB) ∨
      (eClass (hfEntry s v) = 4 ∧ c = .inventory (eBits (hfEntry s v) 49 0 0 == 1)
        (if eBits (hfEntry s v) 49 1 1 = 1 then some (eByte (hfEntry s v) 50) else none) 0 0 ∧
        ph = .slotV (eBits (hfEntry s v) 49 0 0 == 1) 0 0 0 ∧ window = winV s v) ∨
      (eClass (hfEntry s v) = 5 ∧ c = .sensf (eU16 (hfEntry s v) 49) (eBits (hfEntry s v) 51 1 0) (eBits (hfEntry s v) 51 7 4) ∧
        ph = .slotF 0 ∧ window = winF (1 + eBits (hfEntry s v) 51 7 4)) →
      ∃ t, exec .guardEnd s = .next t ∧ t.hf.sent = [c] ∧ t.hf.framing = hfFraming s v ∧ t.hf.nextAt = hfFrameEnd s v c ∧
        t.hf.answerBy = some (hfFrameEnd s v c + window) ∧ (t.hf.visit.map fun w => w.phase) = some ph ∧ t = { s with hf := t.hf })) ∧
  (∀ (s : State) (v : HfVisit), s.hf.visit = some v → s.hf.answerBy.isSome = true → hfLastSlot s v = true →
    (∀ f, hfAwaits v.phase f = true → exec (.cardFrame f) s = exec (.cardFrame f) (settle (hfWindowOver s))) ∧
    exec .answerTimeout s = exec .answerTimeout (settle (hfWindowOver s))) ∧
  (∀ (s u : State), s.hf.answerBy = none → u = hfPause (hfQuiet s) (us (fld s Fld.HF_CFG_RGUARD)) →
    (s.hf.visit = none → ∀ f, exec (.cardFrame f) s = .next { s with hf := { s.hf with sent := [] } } ∧
      exec .answerTimeout s = .next { s with hf := { s.hf with sent := [] } }) ∧
    (∀ v a, s.hf.visit = some v → v.phase = .reqA → hfWarned s v = false →
      hfFits u v (.anticollision 1 0 0) winAB = true →
      ∃ t, exec (.cardFrame (.atqa a)) s = .next t ∧ t.hf.sent = [.anticollision 1 0 0] ∧
        t.hf.answerBy = some (hfFrameEnd u v (.anticollision 1 0 0) + winAB) ∧
        t.hf.visit = some { v with atqa := a.toNat
                                   phase := .anti { level := 1, uid := [], known := 0, bits := 0 } false } ∧
        t = { s with hf := t.hf }) ∧
    (∀ v level uid bits sak, s.hf.visit = some v → v.phase = .selA level uid bits → sak.toNat.testBit 2 = false →
      (hfActivate s v = false ∨ sak.toNat.testBit 5 = false) →
      ∃ t, exec (.cardFrame (.sak sak false)) s = .next (hfRow s fun _ => t) ∧ flag t (intBit 38) = true ∧
        fld t Fld.HF_CNT0_CARDS = min 0xFFFF (fld s Fld.HF_CNT0_CARDS + 1) ∧
        (fld s (Fld.RP_FILT_RSSIMIN v.leaf) = 0xFF → ∃ d : TagRead, t.sgt = { s.sgt with waiting := s.sgt.waiting ++ [d] } ∧
          d.tech = eClass (hfEntry s v) - 1 ∧ d.id = uid ++ leBytes 4 (bits.toNat % 2 ^ 32) ∧ d.rp = v.leaf ∧
          d.q64 = q64 s ∧ d.level = 0xFF) ∧
        (fld s (Fld.RP_FILT_RSSIMIN v.leaf) < 0xFF → t.sgt = s.sgt) ∧
        FldsKept hfFlds s t ∧ t = { s with regs := t.regs, fresh := t.fresh, fifo := t.fifo, hf := t.hf, sgt := t.sgt }) ∧
    (∀ v, s.hf.visit = some v → v.phase = .reqA → v.session = false → v.leaves = [] →
      ∃ t, exec .answerTimeout s = .next (hfRow s fun _ => t) ∧ t.hf.visit = none ∧ fld t Fld.HF_STAT_FIELD = 0 ∧ fld t Fld.HF_STAT_LASTEND = 0 ∧
        fld t Fld.HF_CNT0_POLLS = min 0xFFFF (fld s Fld.HF_CNT0_POLLS + 1) ∧
        (fld s Fld.HF_STAT_FIELD = 1 → t.hf.foff[fld s Fld.HF_STAT_PORT]? = some (some s.clk.now)) ∧
        FldsKept hfFlds s t ∧ t = { s with regs := t.regs, fresh := t.fresh, fifo := t.fifo, hf := t.hf }) ∧
    (∀ v, s.hf.visit = some v → v.phase = .raw → hfWarned s v = false →
      ∃ t, exec .answerTimeout s = .next t ∧ fld t Fld.HF_IMMSTAT_BUSY = 0 ∧ fld t Fld.HF_IMMSTAT_RESULT = 6 ∧
        t.hf.visit = some { v with phase := .open_ } ∧
        FldsKept ([Fld.HF_IMMSTAT_BUSY, Fld.HF_IMMSTAT_RESULT, Fld.HF_IMMSTAT_REASON] ++ packetFlds) s t ∧
        t = { s with regs := t.regs, fresh := t.fresh, fifo := t.fifo, hf := t.hf }))

/-- WTX_REQUEST, BLOCK_TIMEOUT, SESSION_IDLE (R303, R322, R324, R327, R330): the end of an answer window is a boundary, at which what is
pending settles before the row acts; waits are granted up to the cap, a block is asked for
again RETRY times, and what ends a session clears OPEN and turns the field off. -/
def Obligations.SessionsHoldOrEnd : Prop :=
  (∀ (s : State) (v : HfVisit) x, s.hf.visit = some v → v.phase = .xchg x → s.hf.answerBy.isSome = true →
    (∀ inf, exec (.wtxRequest inf) s = exec (.wtxRequest inf) (settle (hfWindowOver s))) ∧
    (∀ bad, exec (.blockTimeout bad) s = exec (.blockTimeout bad) (settle (hfWindowOver s)))) ∧
  ∀ (s : State) (v : HfVisit), s.hf.visit = some v → s.hf.answerBy = none →
    (∀ x inf, v.phase = .xchg x → 0 < inf.toNat % 64 → inf.toNat % 64 < 60 →
      wtxEnd s v (inf.toNat % 64) - x.sentAt ≤ ms (fld s Fld.HF_WTX_MAX_MS) →
      ∃ t, exec (.wtxRequest inf) s = .next t ∧ t.hf.sent = [.wtx (inf.toNat % 64)] ∧
        t.hf.visit = some { v with phase := .xchg { x with wtx := x.wtx + 1 } } ∧ t.hf.wtx = s.hf.fwt * (inf.toNat % 64) ∧
        t.hf.answerBy = some (wtxEnd s v (inf.toNat % 64)) ∧
        fld t Fld.HF_CNT2_WTX = min 0xFFFF (fld s Fld.HF_CNT2_WTX + 1) ∧
        FldsKept [Fld.HF_CNT2_WTX] s t ∧ t = { s with regs := t.regs, fresh := t.fresh, hf := t.hf }) ∧
    (∀ x inf, v.phase = .xchg x → 0 < inf.toNat % 64 → inf.toNat % 64 < 60 →
      ms (fld s Fld.HF_WTX_MAX_MS) < wtxEnd s v (inf.toNat % 64) - x.sentAt →
      ∃ t, exec (.wtxRequest inf) s = .next (hfRow s fun _ => t) ∧ fld t Fld.HF_STAT_WTXCAP = 1 ∧ t.hf.visit = none ∧
        fld t Fld.HF_STAT_LASTEND = 8 ∧ fld t Fld.HF_IMMSTAT_OPEN = 0 ∧ fld t Fld.HF_STAT_FIELD = 0 ∧
        FldsKept hfFlds s t ∧ t = { s with regs := t.regs, fresh := t.fresh, fifo := t.fifo, hf := t.hf }) ∧
    (∀ x, v.phase = .xchg x → x.desel = false → x.retries < fld s Fld.HF_ISO4_RETRY →
      ∃ t, exec (.blockTimeout false) s = .next t ∧
        t.hf.sent = [if x.acking then .rAck v.num else .rNak v.num] ∧
        t.hf.visit = some { v with phase := .xchg { x with retries := x.retries + 1, retrans := x.retrans + 1 } } ∧ t.hf.wtx = 0 ∧
        t.hf.answerBy = some (t.hf.nextAt + winBlock s) ∧
        fld t Fld.HF_CNT2_RETRANS = min 0xFFFF (fld s Fld.HF_CNT2_RETRANS + 1) ∧
        FldsKept [Fld.HF_CNT2_RETRANS] s t ∧ t = { s with regs := t.regs, fresh := t.fresh, hf := t.hf }) ∧
    (∀ x, v.phase = .xchg x → x.desel = false → fld s Fld.HF_ISO4_RETRY ≤ x.retries →
      ∃ t, exec (.blockTimeout false) s = .next t ∧ t.hf.sent = [.deselect] ∧
        t.hf.visit = some { v with phase := .xchg { x with desel := true } } ∧ t = { s with hf := t.hf }) ∧
    (∀ x, v.phase = .xchg x →
      ∃ t, exec (.blockTimeout true) s = .next (hfRow s fun _ => t) ∧ t.hf.visit = none ∧ fld t Fld.HF_STAT_LASTEND = 7 ∧
        fld t Fld.HF_IMMSTAT_OPEN = 0 ∧ fld t Fld.HF_IMMSTAT_ACT = 0 ∧ fld t Fld.HF_IMMSTAT_RESULT = 5 ∧
        fld t Fld.HF_IMMSTAT_REASON = 7 ∧ fld t Fld.HF_STAT_FIELD = 0 ∧ flag t (intBit 39) = true ∧
        fld t Fld.HF_STAT_ABORT = 1 ∧ FldsKept hfFlds s t ∧ t = { s with regs := t.regs, fresh := t.fresh, fifo := t.fifo, hf := t.hf }) ∧
    (v.session = true → v.phase = .open_ →
      ∃ t, exec .sessionIdle s = .next (row s fun _ => t) ∧ t.hf.visit = none ∧ fld t Fld.HF_STAT_LASTEND = 9 ∧
        fld t Fld.HF_IMMSTAT_OPEN = 0 ∧ fld t Fld.HF_IMMSTAT_ACT = 0 ∧ fld t Fld.HF_IMMSTAT_RESULT = 5 ∧
        fld t Fld.HF_IMMSTAT_REASON = 9 ∧ fld t Fld.HF_STAT_FIELD = 0 ∧ flag t (intBit 39) = true ∧
        FldsKept hfFlds s t ∧ t = { s with regs := t.regs, fresh := t.fresh, fifo := t.fifo, hf := t.hf })

/-- OPEN, XCHG, RAW, CLOSE, TXLEN_CLR (R145, R321–R323, R325–R328, R339): refusals with their reasons in order, and what an
accepted one does. -/
def Obligations.HostHfCommands : Prop :=
  ∀ (s : State) (lvl : Level), permitted s lvl Adr.HF_IMM true = true →
    (fld s Fld.HF_IMMSTAT_BUSY = 1 → ∀ e g, exec (.open_ lvl e g) s = .next s ∧ exec (.xchg lvl) s = .next s ∧
      exec (.raw lvl) s = .next s ∧ exec (.close lvl) s = .next s) ∧
    (fld s Fld.HF_IMMSTAT_BUSY = 0 →
      (∀ (e : BitVec 10) (g : BitVec 7), ((∀ x, entryAt s e.toNat = some x → classKind (eClass x) ≠ 2) ∨ hfLeaves s g.toNat = []) →
        ∃ t, exec (.open_ lvl e g) s = .next t ∧ fld t Fld.HF_IMMSTAT_RESULT = 2 ∧ fld t Fld.HF_IMMSTAT_REASON = 3 ∧
          fld t Fld.HF_IMMSTAT_BUSY = 0 ∧ FldsKept ([Fld.HF_IMMSTAT_BUSY, Fld.HF_IMMSTAT_RESULT, Fld.HF_IMMSTAT_REASON] ++ packetFlds) s t) ∧
      (∀ (e : BitVec 10) (g : BitVec 7) x, entryAt s e.toNat = some x → classKind (eClass x) = 2 → hfLeaves s g.toNat ≠ [] →
        (fld s Fld.HF_IMMSTAT_OPEN = 1 →
          ∃ t, exec (.open_ lvl e g) s = .next t ∧ fld t Fld.HF_IMMSTAT_RESULT = 2 ∧ fld t Fld.HF_IMMSTAT_REASON = 0x42 ∧
            fld t Fld.HF_IMMSTAT_OPEN = 1) ∧
        (fld s Fld.HF_IMMSTAT_OPEN = 0 →
          ∃ t, exec (.open_ lvl e g) s = .next t ∧ fld t Fld.HF_IMMSTAT_BUSY = 1 ∧ t.hf.opening = some (e.toNat, g.toNat) ∧
            (mayPost s .hostHf = true → ∃ q, t.sched.requests = s.sched.requests ++ [q] ∧ q.who = .hostHf ∧ q.cls = .c1 ∧
              q.mask.testBit resHfd = true ∧ t.sched.point = true) ∧ FldsKept (Fld.HF_IMMSTAT_BUSY :: cxFlds) s t ∧
            t = { s with regs := t.regs, fresh := t.fresh, hf := t.hf, sched := t.sched })) ∧
      (s.hf.visit = none →
        ∃ t, fld t Fld.HF_IMMSTAT_RESULT = 2 ∧ fld t Fld.HF_IMMSTAT_REASON = 0x40 ∧ exec (.xchg lvl) s = .next t ∧
          FldsKept ([Fld.HF_IMMSTAT_BUSY, Fld.HF_IMMSTAT_RESULT, Fld.HF_IMMSTAT_REASON] ++ packetFlds) s t ∧
          t = { s with regs := t.regs, fresh := t.fresh, fifo := t.fifo, hf := t.hf }) ∧
      (∀ v, s.hf.visit = some v → v.session = true → v.phase = .open_ →
        (fld s Fld.HF_IMMSTAT_ACT = 1 → 0 < fld s Fld.HF_TXLEN_LEN → fld s Fld.HF_TXLEN_LEN ≤ 4096 → hfWarned s v = true →
          ∃ t, exec (.xchg lvl) s = .next (row s fun _ => t) ∧ t.hf.visit = none ∧ fld t Fld.HF_IMMSTAT_RESULT = 5 ∧ fld t Fld.HF_IMMSTAT_REASON = 3) ∧
        (fld s Fld.HF_IMMSTAT_ACT = 1 → 0 < fld s Fld.HF_TXLEN_LEN → fld s Fld.HF_TXLEN_LEN ≤ 4096 → hfWarned s v = false →
          ∃ t x, exec (.xchg lvl) s = .next t ∧ fld t Fld.HF_IMMSTAT_BUSY = 1 ∧
            t.hf.visit = some { v with op := 2, phase := .xchg x } ∧ x.sentAt = t.hf.nextAt ∧
            t.hf.answerBy = some (t.hf.nextAt + winBlock s) ∧ t.hf.wtx = 0 ∧
            x.tx = pieces (v.fsc - 3) 4097 (hfTxBytes s (fld s Fld.HF_TXLEN_LEN)) ∧
            t.hf.sent = [.iBlock v.num (1 < x.tx.length) (x.tx.headD [])] ∧
            FldsKept [Fld.HF_IMMSTAT_BUSY] s t ∧ t = { s with regs := t.regs, fresh := t.fresh, hf := t.hf }) ∧
        (fld s Fld.HF_IMMSTAT_ACT = 0 →
          ∃ t, exec (.xchg lvl) s = .next t ∧ fld t Fld.HF_IMMSTAT_RESULT = 2 ∧ fld t Fld.HF_IMMSTAT_REASON = 0x41) ∧
        (0 < fld s Fld.HF_TXLEN_LEN → fld s Fld.HF_TXLEN_LEN ≤ 4096 → hfWarned s v = false →
          ∃ t, exec (.raw lvl) s = .next t ∧ fld t Fld.HF_IMMSTAT_BUSY = 1 ∧
            t.hf.visit = some { v with op := 3, phase := .raw } ∧
            t.hf.sent = [.raw (flag s Fld.HF_RAW_CRC) (fld s Fld.HF_RAW_TXBITS) (hfTxBytes s (fld s Fld.HF_TXLEN_LEN))] ∧
            t.hf.answerBy = some (t.hf.nextAt + us (max 100 (min 1000000 (fld s Fld.HF_RAW_TMO)))) ∧
            FldsKept [Fld.HF_IMMSTAT_BUSY] s t ∧ t = { s with regs := t.regs, fresh := t.fresh, hf := t.hf }) ∧
        (∃ t, exec (.close lvl) s = .next (row s fun _ => t) ∧ t.hf.visit = none ∧ fld t Fld.HF_IMMSTAT_OPEN = 0 ∧
          fld t Fld.HF_IMMSTAT_ACT = 0 ∧ fld t Fld.HF_IMMSTAT_RESULT = 1 ∧ fld t Fld.HF_STAT_FIELD = 0 ∧
          fld t Fld.HF_STAT_LASTEND = 10 ∧ grantOf t .hostHf = none ∧
          FldsKept (hfFlds ++ [Fld.SYS_STAT_CXREQ, Fld.SYS_STAT_CXPRI, Fld.SYS_STAT_XGNT]) s t ∧
          t = { s with regs := t.regs, fresh := t.fresh, fifo := t.fifo, hf := t.hf, sched := t.sched, clk := t.clk }))) ∧
    (∀ value, permitted s lvl Adr.HF_TXLEN true = true →
      (fld s Fld.HF_IMMSTAT_BUSY = 1 →
        ∃ t, exec (.txlenClr lvl value) s = .next t ∧ fld t Fld.HF_STAT_BUFERR = 1 ∧
          OnlyFlds [Fld.HF_STAT_BUFERR, Fld.HSP_STAT_RANGE] s t) ∧
      (fld s Fld.HF_IMMSTAT_BUSY = 0 →
        ∃ t, exec (.txlenClr lvl value) s = .next t ∧ fld t Fld.HF_TXLEN_LEN = bitsOf value 12 0 ∧
          t.hf = { s.hf with tx := [], rx := [] } ∧ fld t Fld.HF_IMMSTAT_RXLEN = 0 ∧
          FldsKept [Fld.HF_TXLEN_LEN, Fld.HF_IMMSTAT_RXLEN, Fld.HSP_STAT_RANGE] s t ∧
          t = { s with regs := t.regs, fresh := t.fresh, hf := t.hf }))

/-- GORSE_PING, CONFIRM_PING, PING_SKIP, GORSE_REFRESH (R300, R331–R335, R342): pings and the refresh take their turn on HFD,
for which they wait until they are skipped (log entry 35). -/
def Obligations.GorsePingsMeasureAndDetect : Prop :=
  ∀ (s : State) (re im : Int) (trim : Byte) (r f : Request), r = gorseRequest .gorse → f = gorseRequest .gorseRefresh →
    (gorseRuns s = false → exec (.gorsePing re im) s = .next s ∧ exec (.confirmPing re im) s = .next s) ∧
    (s.grs.confirm = false → exec (.confirmPing re im) s = .next s) ∧
    (s.grs.confirm = true → turnNow s r = true → exec (.confirmPing re im) s = exec (.gorsePing re im) s) ∧
    (gorseRuns s = true → turnNow s r = false →
      (∃ t, exec (.gorsePing re im) s = .next t ∧ TurnWaits s t r (.gorsePing re im) ∧ FldsKept cxFlds s t ∧
        t = { s with regs := t.regs, sched := t.sched }) ∧
      (s.grs.confirm = true → ∃ t, exec (.confirmPing re im) s = .next t ∧ TurnWaits s t r (.confirmPing re im) ∧
        FldsKept cxFlds s t ∧ t = { s with regs := t.regs, sched := t.sched })) ∧
    (gorseRuns s = true → turnNow s r = true → fld s Fld.HF_STAT_FIELD = 0 →
      ∃ t, exec (.gorsePing re im) s = .next t ∧
        fld t Fld.HF_STAT_DRVLIM = (if hfTopStep < fld s Fld.GRS_CFG_DRIVE then 1 else fld s Fld.HF_STAT_DRVLIM) ∧
        fld t Fld.GRS_CNT0_PINGS = min 0xFFFFFFFF (fld s Fld.GRS_CNT0_PINGS + 1) ∧
        (arbitrated s = true → holdsOf s .gorse = 0 → mode s = 3 →
          mode t = 4 ∧ fld t Fld.SYS_MODE_PREV = 3 ∧ flag t (intBit 5) = true)) ∧
    (gorseRuns s = true → turnNow s r = true → fld s Fld.HF_STAT_FIELD = 0 → fld s Fld.GRS_STAT_NOBASE = 1 → s.grs.sum.length < 3 →
      ∃ t, exec (.gorsePing re im) s = .next t ∧ t.grs = { s.grs with sum := s.grs.sum ++ [(re, im)] } ∧
        fld t Fld.GRS_CNT0_PINGS = min 0xFFFFFFFF (fld s Fld.GRS_CNT0_PINGS + 1) ∧
        FldsKept (Fld.GRS_CNT0_PINGS :: pingFlds) s t ∧ TurnTaken s t ∧
        t = { s with regs := t.regs, fresh := t.fresh, clk := t.clk, grs := t.grs, sched := t.sched }) ∧
    (∀ a b c : Int × Int, gorseRuns s = true → turnNow s r = true → fld s Fld.HF_STAT_FIELD = 0 → fld s Fld.GRS_STAT_NOBASE = 1 → s.grs.sum = [a, b, c] →
      ∃ t, exec (.gorsePing re im) s = .next t ∧ fld t Fld.GRS_STAT_NOBASE = 0 ∧ fld t Fld.GRS_BASE_VALID = 1 ∧
        t.grs = { s.grs with sum := [], re := 256 * (a.1 + b.1 + c.1 + re) / 4, im := 256 * (a.2 + b.2 + c.2 + im) / 4 } ∧
        FldsKept (pingFlds ++ gorseFlds) s t ∧
          t = { s with regs := t.regs, fresh := t.fresh, clk := t.clk, grs := t.grs, sched := t.sched }) ∧
    (∀ d, gorseRuns s = true → turnNow s r = true → fld s Fld.HF_STAT_FIELD = 0 → fld s Fld.GRS_STAT_NOBASE = 0 → magnitude s.grs.re s.grs.im ≠ 0 → d = (gorseDeltas s re im).1 →
      (gorseOverA s d.1 = true ∨ gorseOverP s d.2 = true → fld s Fld.GRS_STAT_PEND + 1 = fld s Fld.GRS_CFG_CONFIRM →
        ∃ t, exec (.gorsePing re im) s = .next t ∧ fld t Fld.GRS_STAT_DETECT = 1 ∧ flag t (intBit 40) = true ∧
          fld t Fld.GRS_CNT1_DETECT = min 0xFFFF (fld s Fld.GRS_CNT1_DETECT + 1) ∧ fld t Fld.GRS_STAT_PEND = 0 ∧
          t.grs = { s.grs with confirm := false, detected := true } ∧
          (fld s Fld.GRS_TRIG_ENTRY ≠ 0x3FF → fld s Fld.GRS_TRIG_ENTRY ∈ t.slate.pendingSet) ∧ FldsKept (pingFlds ++ gorseFlds) s t ∧
          t = { s with regs := t.regs, fresh := t.fresh, clk := t.clk, grs := t.grs, fifo := t.fifo, qtz := t.qtz, modes := t.modes, sched := t.sched,
                       slate := t.slate }) ∧
      (gorseOverA s d.1 = true ∨ gorseOverP s d.2 = true → fld s Fld.GRS_STAT_PEND + 1 < fld s Fld.GRS_CFG_CONFIRM →
        ∃ t, exec (.gorsePing re im) s = .next t ∧ fld t Fld.GRS_STAT_PEND = fld s Fld.GRS_STAT_PEND + 1 ∧
          t.grs = { s.grs with confirm := true } ∧ FldsKept (pingFlds ++ gorseFlds) s t ∧
          t = { s with regs := t.regs, fresh := t.fresh, clk := t.clk, grs := t.grs, sched := t.sched }) ∧
      (gorseOverA s d.1 = false → gorseOverP s d.2 = false →
        ∃ t, exec (.gorsePing re im) s = .next t ∧ fld t Fld.GRS_STAT_PEND = 0 ∧ t.grs.confirm = false ∧
          t.grs.re = s.grs.re + (re * 256 - s.grs.re) / 2 ^ fld s Fld.GRS_CFG_ALPHA ∧
          t.grs.im = s.grs.im + (im * 256 - s.grs.im) / 2 ^ fld s Fld.GRS_CFG_ALPHA ∧
          FldsKept (pingFlds ++ gorseFlds) s t ∧
          t = { s with regs := t.regs, fresh := t.fresh, clk := t.clk, grs := t.grs, sched := t.sched })) ∧
    ((∃ o ∈ s.sched.ops, o.req.who = .gorse) →
      ∃ t, exec .pingSkip s = .next t ∧ fld t Fld.GRS_STAT_SKIPPED = 1 ∧
        fld t Fld.GRS_CNT1_SKIP = min 0xFFFF (fld s Fld.GRS_CNT1_SKIP + 1) ∧
        t.sched.ops = s.sched.ops.filter (fun o => o.req.who != .gorse) ∧
        t.sched.requests = s.sched.requests.filter (fun q => q.who != .gorse) ∧ t.sched.grants = s.sched.grants ∧
        FldsKept ([Fld.GRS_STAT_SKIPPED, Fld.GRS_CNT1_SKIP] ++ cxFlds) s t ∧
        t = { s with regs := t.regs, fresh := t.fresh, sched := t.sched }) ∧
    ((∀ o ∈ s.sched.ops, o.req.who ≠ .gorse) → exec .pingSkip s = .next s) ∧
    (fld s Fld.GRS_CFG_EN = 0 ∨ mode s < 3 → exec (.gorseRefresh trim) s = .next s) ∧
    (fld s Fld.GRS_CFG_EN = 1 → mode s = 3 ∨ mode s = 4 → turnNow s f = false →
      ∃ t, exec (.gorseRefresh trim) s = .next t ∧ TurnWaits s t f (.gorseRefresh trim) ∧ FldsKept cxFlds s t ∧
        t = { s with regs := t.regs, sched := t.sched }) ∧
    (fld s Fld.GRS_CFG_EN = 1 → mode s = 3 ∨ mode s = 4 → turnNow s f = true → flag s (cPend ⟨.cal, 0⟩) = false → s.cal.traced = [] →
      ∃ t, exec (.gorseRefresh trim) s = .next t ∧ reg t Adr.CAL_GRSOSC = BitVec.ofNat 32 trim.toNat ∧
        fld t Fld.CAL_STAT_APPLIED = 1 ∧ flag t (intBit 54) = true ∧
        (arbitrated s = true → holdsOf s .gorseRefresh = 0 → mode s = 3 →
          mode t = 4 ∧ fld t Fld.SYS_MODE_PREV = 3 ∧ flag t (intBit 5) = true) ∧
        FldsKept (whole Adr.CAL_GRSOSC :: whole Adr.CAL_STAT :: whole Adr.GRS_STAT :: intBit 54 :: pingFlds) s t ∧
        TurnTaken s t ∧
        t = { s with regs := t.regs, fresh := t.fresh, shadow := t.shadow, clk := t.clk, cal := t.cal, grs := t.grs, radio := t.radio, sched := t.sched })

/-! ### HF tag -/

/-- TAG_FIELD_ON, TAG_FIELD_LOST, HARV_UNDERVOLTAGE, HARV_RETRY (R346, R354, R355, R359, R371). INVENTORY, STAY_QUIET, SELECT,
RESET_TO_READY, GET_SYSTEM_INFO, EXTENDED_GET_SYSTEM_INFO, UNSUPPORTED_COMMAND (R351–R354). -/
def Obligations.TagFieldAndStandardCommands : Prop :=
  (∀ (s : State) (ok : Bool),
    (fld s Fld.TAG_STAT_FIELD = 1 → exec (.tagFieldOn ok) s = .next s) ∧
    (fld s Fld.TAG_STAT_FIELD = 0 → exec .tagFieldLost s = .next s ∧
      ∃ t, exec (.tagFieldOn ok) s = .next t ∧ fld t Fld.TAG_STAT_FIELD = 1 ∧ fld t Fld.TAG_STAT_STATE = 1 ∧
        fld t Fld.TAG_STAT_SECURED = 0 ∧
        fld t Fld.TAG_STAT_HARVOK = (if ok = true ∧ fld s Fld.TAG_CFG_HARVEN = 1 then 1 else 0) ∧
        t.tag.rn = none ∧ t.tag.aes = none ∧ t.tag.lockFrom = s.clk.now ∧ t.tag.store = s.tag.store ∧
        (mode s ≠ 0 → flag t (intBit 41) = true ∧
          fld t Fld.TAG_CNT0_FIELDON = min 0xFFFF (fld s Fld.TAG_CNT0_FIELDON + 1)) ∧
        FldsKept tagFlds s t ∧
        t = { s with regs := t.regs, fresh := t.fresh, tag := t.tag, fifo := t.fifo, modes := t.modes, qtz := t.qtz }) ∧
    (fld s Fld.TAG_STAT_FIELD = 1 →
      ∃ t, exec .tagFieldLost s = .next t ∧ fld t Fld.TAG_STAT_FIELD = 0 ∧ fld t Fld.TAG_STAT_STATE = 0 ∧
        fld t Fld.TAG_STAT_SECURED = 0 ∧ fld t Fld.TAG_STAT_HARVOK = 0 ∧ t.tag.rn = none ∧ t.tag.aes = none ∧
        t.tag.store = s.tag.store ∧
        FldsKept ([Fld.TAG_STAT_FIELD, Fld.TAG_STAT_STATE, Fld.TAG_STAT_SECURED, Fld.TAG_STAT_HARVOK] ++ packetFlds) s t ∧
        t = { s with regs := t.regs, fresh := t.fresh, tag := t.tag, fifo := t.fifo }) ∧
    (∃ t, exec .harvUndervoltage s = .next t ∧ fld t Fld.TAG_STAT_HARVOK = 0 ∧ OnlyFlds [Fld.TAG_STAT_HARVOK] s t) ∧
    (fld s Fld.TAG_CFG_HARVEN = 1 → fld s Fld.TAG_STAT_FIELD = 1 →
      ∃ t, exec (.harvRetry ok) s = .next t ∧ fld t Fld.TAG_STAT_HARVOK = (if ok then 1 else 0) ∧
        OnlyFlds [Fld.TAG_STAT_HARVOK] s t)) ∧
  (∀ (s : State) (h : TagHdr),
    (∀ afi (n : Byte) (mask : BitVec 64), tagPowered s = true → hdrRate h = true → hdrInventory h = true → h.fits = true →
      fld s Fld.TAG_STAT_STATE ≠ 2 → n.toNat ≤ 64 → afiMatch s afi = true → dieUid % 2 ^ n.toNat = mask.toNat % 2 ^ n.toNat →
      ∃ t, exec (.inventory h afi n mask) s = .next t ∧
        t.tag = { s.tag with reply := some ([0, BitVec.ofNat 8 (fld s Fld.TAG_CFG_DSFID)] ++ uidBytes)
                             slot := if hdrBit h 5 then 0 else (dieUid / 2 ^ n.toNat) % 16 } ∧
        (mode s ≠ 0 → fld t Fld.TAG_CNT0_CMDS = min 0xFFFF (fld s Fld.TAG_CNT0_CMDS + 1)) ∧
        FldsKept [Fld.TAG_CNT0_CMDS] s t ∧ t = { s with regs := t.regs, fresh := t.fresh, tag := t.tag }) ∧
    (∀ afi n mask, fld s Fld.TAG_STAT_STATE = 2 →
      exec (.inventory h afi n mask) s = .next { s with tag := { s.tag with reply := none } }) ∧
    (reaches s h = true → addressed h = true → h.fits = true →
      ∃ t, exec (.stayQuiet h) s = .next t ∧ fld t Fld.TAG_STAT_STATE = 2 ∧
        t.tag = { s.tag with aes := none, reply := none } ∧
        FldsKept [Fld.TAG_STAT_STATE] s t ∧ t = { s with regs := t.regs, fresh := t.fresh, tag := t.tag }) ∧
    (tagPowered s = true → hdrRate h = true → hdrInventory h = false → hdrAddress h = true → h.fits = true →
      (addressed h = true →
        ∃ t, exec (.select_ h) s = .next t ∧ fld t Fld.TAG_STAT_STATE = 3 ∧
          t.tag = { s.tag with aes := none, reply := some [0] } ∧
          FldsKept [Fld.TAG_STAT_STATE, Fld.TAG_CNT0_CMDS] s t ∧ t = { s with regs := t.regs, fresh := t.fresh, tag := t.tag }) ∧
      (addressed h = false → fld s Fld.TAG_STAT_STATE = 3 →
        ∃ t, exec (.select_ h) s = .next t ∧ fld t Fld.TAG_STAT_STATE = 1 ∧ t.tag.reply = none ∧
          FldsKept [Fld.TAG_STAT_STATE] s t ∧ t = { s with regs := t.regs, fresh := t.fresh, tag := t.tag })) ∧
    (reaches s h = true → h.fits = true →
      (∃ t, exec (.resetToReady h) s = .next t ∧ fld t Fld.TAG_STAT_STATE = 1 ∧
        (fld s Fld.TAG_STAT_STATE ≠ 1 → fld t Fld.TAG_STAT_SECURED = 0) ∧
        t.tag = { s.tag with aes := aesKept s h, reply := some [0] } ∧
        FldsKept [Fld.TAG_STAT_STATE, Fld.TAG_STAT_SECURED, Fld.TAG_CNT0_CMDS] s t ∧ t = { s with regs := t.regs, fresh := t.fresh, tag := t.tag }) ∧
      (∃ t, exec (.getSystemInfo h) s = .next t ∧ t.tag = { s.tag with
          aes := aesKept s h, reply := some ([0, 0x0F] ++ uidBytes ++ dsfidAfi s ++ [0xFF, 0x03, 0x01]) } ∧
        FldsKept [Fld.TAG_CNT0_CMDS] s t ∧ t = { s with regs := t.regs, fresh := t.fresh, tag := t.tag }) ∧
      (∃ t, exec (.extendedGetSystemInfo h) s = .next t ∧ t.tag = { s.tag with
          aes := aesKept s h, reply := some ([0, 0x0F] ++ uidBytes ++ dsfidAfi s ++ [0xFF, 0x3F, 0x03, 0x01]) } ∧
        FldsKept [Fld.TAG_CNT0_CMDS] s t ∧ t = { s with regs := t.regs, fresh := t.fresh, tag := t.tag })) ∧
    (∀ code, (reaches s h = true → direct s h = true →
        ∃ t, exec (.unsupportedCommand h code) s = .next t ∧ t.tag = { s.tag with aes := none, reply := some [1, 1] } ∧
          FldsKept [Fld.TAG_CNT0_CMDS] s t ∧ t = { s with regs := t.regs, fresh := t.fresh, tag := t.tag }) ∧
      (reaches s h = false →
        exec (.unsupportedCommand h code) s = .next { s with tag := { s.tag with reply := none } } ∧
        exec (.getSystemInfo h) s = .next { s with tag := { s.tag with reply := none } } ∧
        exec (.resetToReady h) s = .next { s with tag := { s.tag with reply := none } } ∧
        exec (.stayQuiet h) s = .next { s with tag := { s.tag with reply := none } })))

/-- The eight commands that read and write blocks (R348–R350, R352, R368): what a read answers, which bytes a write changes, and
the refusals of the areas; a write waits for its turn on the store (R158; log entry 35). -/
def Obligations.TagBlocksAreReadAndWritten : Prop :=
  ∀ (s : State) (h : TagHdr) (first : BitVec 16) (r : Request), reaches s h = true → h.fits = true → r = nvmRequest .tagEngine .c0 →
    (∀ count, 0 < count → count ≤ 64 → first.toNat + count ≤ 16384 →
      (((List.range count).all fun k => mayRead s ((first.toNat + k) / 64)) = true →
        ∃ t, exec (.extendedReadMultipleBlocks h first count) s = .next t ∧
          t.tag = { s.tag with aes := aesKept s h, reply := some (0 :: blockBytes s h first.toNat count) } ∧
          FldsKept [Fld.TAG_CNT0_CMDS, Fld.SYS_RES_GRANT_GRANTS resTagnvm] s t ∧ TurnTaken s t ∧
          t = { s with regs := t.regs, fresh := t.fresh, tag := t.tag, sched := t.sched } ∧
          (count = 1 → exec (.extendedReadSingleBlock h first) s = .next t) ∧
          (∀ b : Byte, b.toNat = first.toNat → exec (.readMultipleBlocks h b count) s = .next t ∧
            (count = 1 → exec (.readSingleBlock h b) s = .next t))) ∧
      (((List.range count).all fun k => mayRead s ((first.toNat + k) / 64)) = false →
        ∃ t, exec (.extendedReadMultipleBlocks h first count) s = .next t ∧
          t.tag = { s.tag with aes := aesKept s h, reply := some [1, 0x15] } ∧
          FldsKept [Fld.TAG_CNT0_CMDS, Fld.SYS_RES_GRANT_GRANTS resTagnvm] s t)) ∧
    (∀ (data : List Word), StoresWf s → data ≠ [] → data.length ≤ 64 → first.toNat + data.length ≤ 16384 →
      (first.toNat + data.length - 1) / 64 = first.toNat / 64 →
      (mayWrite s (first.toNat / 64) = true → turnNow s r = true →
        (∃ t, exec (.extendedWriteMultipleBlocks h first data .good) s = .next t ∧ t.tag.reply = some [0] ∧
          (∀ k < 4 * data.length, byteAt t.tag.store (4 * first.toNat + k) = (unpackWords data).getD k 0) ∧
          (∀ a, a < 4 * first.toNat ∨ 4 * first.toNat + 4 * data.length ≤ a → byteAt t.tag.store a = byteAt s.tag.store a) ∧
          pageGen t (first.toNat / 64) = (pageGen s (first.toNat / 64) + 1) % 256 ∧
          (mode s ≠ 0 → fld t Fld.TAG_CNT2_FWRITES = min 0xFFFF (fld s Fld.TAG_CNT2_FWRITES + 1)) ∧
          FldsKept ([Fld.TAG_CNT0_CMDS, Fld.TAG_CNT2_FWRITES, Fld.SYS_RES_GRANT_GRANTS resTagnvm] ++ packetFlds) s t ∧
          TurnTaken s t ∧ t = { s with regs := t.regs, fresh := t.fresh, tag := t.tag, fifo := t.fifo, sched := t.sched } ∧
          (∀ w, data = [w] → exec (.extendedWriteSingleBlock h first w .good) s = .next t) ∧
          (∀ b : Byte, b.toNat = first.toNat → exec (.writeMultipleBlocks h b data .good) s = .next t ∧
            (∀ w, data = [w] → exec (.writeSingleBlock h b w .good) s = .next t))) ∧
        (∃ t, exec (.extendedWriteMultipleBlocks h first data .failed) s = .next t ∧ t.tag.store = s.tag.store ∧
          (mode s ≠ 0 → fld t Fld.TAG_STAT_PROGFAIL = 1) ∧ (t.tag.reply.bind fun r => r.head?) = some 1)) ∧
      (mayWrite s (first.toNat / 64) = true → turnNow s r = false → ∀ prog : ProgResult,
        (∃ t, exec (.extendedWriteMultipleBlocks h first data prog) s = .next t ∧
          TagWaits s t (aesKept s h) r (.extendedWriteMultipleBlocks h first data prog)) ∧
        (∀ w, data = [w] → ∃ t, exec (.extendedWriteSingleBlock h first w prog) s = .next t ∧
          TagWaits s t (aesKept s h) r (.extendedWriteSingleBlock h first w prog)) ∧
        (∀ b : Byte, b.toNat = first.toNat →
          (∃ t, exec (.writeMultipleBlocks h b data prog) s = .next t ∧
            TagWaits s t (aesKept s h) r (.writeMultipleBlocks h b data prog)) ∧
          (∀ w, data = [w] → ∃ t, exec (.writeSingleBlock h b w prog) s = .next t ∧
            TagWaits s t (aesKept s h) r (.writeSingleBlock h b w prog)))) ∧
      (mayWrite s (first.toNat / 64) = false → ∀ prog,
        ∃ t, exec (.extendedWriteMultipleBlocks h first data prog) s = .next t ∧
          t.tag = { s.tag with aes := aesKept s h, reply := some [1, 0x12] } ∧ FldsKept [Fld.TAG_CNT0_CMDS] s t))

/-- GET_RANDOM, LEAVE, PASSWORD, AES1, AES2 (R355–R360): the refusals in their order, and what passes and fails; an AES pass
waits for its turn on Flint and the store (log entry 35). -/
def Obligations.TagAuthenticates : Prop :=
  ∀ (s : State) (h : TagHdr) (key : Byte) (p : Word) (rnr : BitVec 64) (e2 : BitVec 128) (r : Request),
    r = { who := .tagEngine, cls := .c0, mask := 2 ^ resFlint ||| 2 ^ resTagnvm, kind := .flint } → reaches s h = true → direct s h = true → h.fits = true →
    (∃ t rn, exec (.getRandom h) s = .next t ∧
      t.tag = { s.tag with aes := none, rn := some rn, reply := some (0 :: leBytes 2 rn.toNat) } ∧
      FldsKept [Fld.TAG_CNT0_CMDS] s t ∧ t = { s with regs := t.regs, fresh := t.fresh, tag := t.tag, drawn := t.drawn }) ∧
    (∃ t, exec (.leave h) s = .next t ∧ fld t Fld.TAG_STAT_SECURED = 0 ∧
      t.tag = { s.tag with aes := none, reply := some [0] } ∧ FldsKept [Fld.TAG_CNT0_CMDS, Fld.TAG_STAT_SECURED] s t ∧
      t = { s with regs := t.regs, fresh := t.fresh, tag := t.tag }) ∧
    (tagLocked s = true →
      (∃ t, exec (.password h key p) s = .next t ∧ t.tag = { s.tag with aes := none, rn := none, reply := some [1, 0xA1] } ∧
        FldsKept [Fld.TAG_CNT0_CMDS] s t) ∧
      (∃ t, exec (.aes1 h key rnr) s = .next t ∧ exec (.aes2 h e2) s = .next t ∧
        t.tag = { s.tag with aes := none, reply := some [1, 0xA1] } ∧ FldsKept [Fld.TAG_CNT0_CMDS] s t)) ∧
    (tagLocked s = false →
      (s.tag.rn = none → ∃ t, exec (.password h key p) s = .next t ∧
        t.tag = { s.tag with aes := none, reply := some [1, 0xA3] } ∧ FldsKept [Fld.TAG_CNT0_CMDS] s t) ∧
      (∀ rn k, s.tag.rn = some rn → (fld s Fld.TAG_PWEN_SLOTS).testBit key.toNat = true → keyOf s 3 key.toNat = some k →
        (p.toNat = leNat k ^^^ (rn.toNat * 2 ^ 16 + rn.toNat) →
          ∃ t, exec (.password h key p) s = .next t ∧ fld t Fld.TAG_STAT_SECURED = 1 ∧ fld t Fld.TAG_STAT_FAILS = 0 ∧
            fld t Fld.TAG_STAT_KEYNUM = key.toNat ∧ fld t Fld.TAG_STAT_METHOD = 1 ∧ t.tag.reply = some [0] ∧ t.tag.rn = none ∧
            (mode s ≠ 0 → fld s Fld.TAG_STAT_SECURED = 0 → flag t (intBit 42) = true) ∧ FldsKept tagFlds s t ∧
            t = { s with regs := t.regs, fresh := t.fresh, tag := t.tag, fifo := t.fifo, modes := t.modes, qtz := t.qtz }) ∧
        (p.toNat ≠ leNat k ^^^ (rn.toNat * 2 ^ 16 + rn.toNat) →
          ∃ t, exec (.password h key p) s = .next t ∧ fld t Fld.TAG_STAT_FAILS = min 255 (fld s Fld.TAG_STAT_FAILS + 1) ∧
            fld t Fld.TAG_STAT_AUTHFAIL = 1 ∧ t.tag.reply = some [1, 0xA0] ∧ t.tag.rn = none ∧ t.tag.lockFrom = s.clk.now ∧
            fld t Fld.TAG_STAT_SECURED = fld s Fld.TAG_STAT_SECURED ∧ FldsKept tagFlds s t ∧
            t = { s with regs := t.regs, fresh := t.fresh, tag := t.tag, fifo := t.fifo })) ∧
      (aesServed s = false → ∃ t, exec (.aes1 h key rnr) s = .next t ∧ exec (.aes2 h e2) s = .next t ∧
        t.tag = { s.tag with aes := none, reply := some [1, 0xA2] } ∧ FldsKept [Fld.TAG_CNT0_CMDS] s t) ∧
      (aesServed s = true → turnNow s r = true →
        (∀ k, (fld s Fld.TAG_AESEN_SLOTS).testBit key.toNat = true → keyOf s 2 key.toNat = some k →
          ∃ t rnt, exec (.aes1 h key rnr) s = .next t ∧ t.tag.aes = some ⟨key.toNat, beBytes 8 rnr.toNat, rnt⟩ ∧
            t.tag.reply = some ([0] ++ rnt ++ aes128 k (beBytes 8 rnr.toNat ++ rnt)) ∧ TurnTaken s t ∧
            FldsKept ([Fld.SYS_RES_GRANT_GRANTS resFlint, Fld.SYS_RES_GRANT_GRANTS resTagnvm] ++ tagFlds) s t) ∧
        (s.tag.aes = none → ∃ t, exec (.aes2 h e2) s = .next t ∧ t.tag = { s.tag with reply := some [1, 0xA3] }) ∧
        (∀ x k, s.tag.aes = some x → (fld s Fld.TAG_AESEN_SLOTS).testBit x.slot = true → keyOf s 2 x.slot = some k →
          (beBytes 16 e2.toNat = aes128 k (x.rnt ++ x.rnr) →
            ∃ t, exec (.aes2 h e2) s = .next t ∧ fld t Fld.TAG_STAT_SECURED = 1 ∧ fld t Fld.TAG_STAT_FAILS = 0 ∧
              fld t Fld.TAG_STAT_KEYNUM = x.slot ∧ fld t Fld.TAG_STAT_METHOD = 2 ∧ t.tag.aes = none ∧
              t.tag.reply = some [0] ∧ FldsKept ([Fld.SYS_RES_GRANT_GRANTS resFlint, Fld.SYS_RES_GRANT_GRANTS resTagnvm] ++ tagFlds) s t) ∧
          (beBytes 16 e2.toNat ≠ aes128 k (x.rnt ++ x.rnr) →
            ∃ t, exec (.aes2 h e2) s = .next t ∧ fld t Fld.TAG_STAT_FAILS = min 255 (fld s Fld.TAG_STAT_FAILS + 1) ∧
              fld t Fld.TAG_STAT_AUTHFAIL = 1 ∧ t.tag.aes = none ∧ t.tag.reply = some [1, 0xA0] ∧
              FldsKept ([Fld.SYS_RES_GRANT_GRANTS resFlint, Fld.SYS_RES_GRANT_GRANTS resTagnvm] ++ tagFlds) s t)) ∧
        (∀ x, s.tag.aes = some x → (fld s Fld.TAG_AESEN_SLOTS).testBit x.slot = false →
          ∃ t, exec (.aes2 h e2) s = .next t ∧ fld t Fld.TAG_STAT_FAILS = min 255 (fld s Fld.TAG_STAT_FAILS + 1) ∧
            t.tag.aes = none ∧ t.tag.reply = some [1, 0xA0])) ∧
      (aesServed s = true → turnNow s r = false →
        (∃ t, exec (.aes1 h key rnr) s = .next t ∧ TagWaits s t none r (.aes1 h key rnr)) ∧
        (s.tag.aes ≠ none → ∃ t, exec (.aes2 h e2) s = .next t ∧ TagWaits s t s.tag.aes r (.aes2 h e2))))

/-- READ_FAULT_LOG, STATUS_SNAPSHOT, FAULT_LOG_WRITE, SNAPSHOT_REFRESH (R361–R364); a write of the log waits for its turn on the
store (log entry 35). TAG_HOST_READ, TAG_HOST_WRITE, TAG_COMMIT_POINT, CLRFAIL (R359, R365–R369, R375); a command of the host
waits for its turn on the store (log entry 35), but a READ for no command from the field (R366). -/
def Obligations.TagLogSnapshotAndHostPages : Prop :=
  (∀ (s : State) (h : TagHdr) (offset : BitVec 16) (count : Byte) (r : Request), r = nvmRequest .tagLog .c3 →
    (reaches s h = true → direct s h = true → h.fits = true →
      (secured s = false → fld s Fld.TAG_CFG_FLTRD = 1 →
        ∃ t, exec (.readFaultLog h offset count) s = .next t ∧ exec (.statusSnapshot h count) s = .next t ∧
          t.tag = { s.tag with aes := none, reply := some [1, 0x15] } ∧ FldsKept [Fld.TAG_CNT0_CMDS] s t) ∧
      (secured s = true ∨ fld s Fld.TAG_CFG_FLTRD = 0 →
        (offset ≠ 0xFFFF → 1 ≤ count.toNat → count.toNat ≤ 8 →
          ∃ t, exec (.readFaultLog h offset count) s = .next t ∧
            t.tag = { s.tag with aes := none, reply := some ([0] ++ leBytes 2 s.tag.logCount ++
              [BitVec.ofNat 8 (min count.toNat (s.tag.logCount - offset.toNat))] ++
              (List.range (min count.toNat (s.tag.logCount - offset.toNat))).flatMap fun k =>
                logRecord s (offset.toNat + k)) } ∧
            FldsKept [Fld.TAG_CNT0_CMDS, Fld.SYS_RES_GRANT_GRANTS resTagnvm] s t ∧ TurnTaken s t ∧
            t = { s with regs := t.regs, fresh := t.fresh, tag := t.tag, sched := t.sched }) ∧
        (∀ q, s.tag.snap = some q →
          ∃ t, exec (.statusSnapshot h count) s = .next t ∧ t.tag = { s.tag with
              aes := none, reply := some ([0, 1, BitVec.ofNat 8 q.denied] ++ leBytes 8 q.time ++ unpackWords q.words) } ∧
            FldsKept [Fld.TAG_CNT0_CMDS] s t ∧ t = { s with regs := t.regs, fresh := t.fresh, tag := t.tag }) ∧
        (s.tag.snap = none →
          ∃ t, exec (.statusSnapshot h count) s = .next t ∧ (t.tag.reply.map fun r => r.take 2) = some [0, 0]))) ∧
    (fld s Fld.TAG_CFG_FLTEN = 1 → s.tag.copies ≠ [] → 0 < logRoom s → 3 ≤ mode s → StoresWf s → turnNow s r = true →
      (∃ t, exec (.faultLogWrite .good) s = .next t ∧
        t.tag.copies = s.tag.copies.drop (min (16 - s.tag.logPos % 16) s.tag.copies.length) ∧
        t.tag.logSeq = s.tag.logSeq + min (16 - s.tag.logPos % 16) s.tag.copies.length ∧
        (∀ a, a < 256 * (fld s Fld.TAG_AREA_FLTPG + s.tag.logPos / 16) ∨
          256 * (fld s Fld.TAG_AREA_FLTPG + s.tag.logPos / 16) + 256 ≤ a → byteAt t.tag.store a = byteAt s.tag.store a) ∧
        FldsKept [Fld.TAG_CNT2_FLTREC, Fld.SYS_RES_GRANT_GRANTS resTagnvm] s t ∧ TurnTaken s t ∧
        t = { s with regs := t.regs, fresh := t.fresh, tag := t.tag, sched := t.sched }) ∧
      (∃ t, exec (.faultLogWrite .failed) s = .next t ∧ fld t Fld.TAG_STAT_PROGFAIL = 1 ∧ t.tag.store = s.tag.store ∧
        FldsKept (Fld.TAG_STAT_PROGFAIL :: Fld.SYS_RES_GRANT_GRANTS resTagnvm :: packetFlds) s t)) ∧
    (fld s Fld.TAG_CFG_FLTEN = 1 → s.tag.copies ≠ [] → 0 < logRoom s → 3 ≤ mode s → turnNow s r = false → ∀ res : ProgResult,
      ∃ t, exec (.faultLogWrite res) s = .next t ∧ TurnWaits s t r (.faultLogWrite res) ∧ FldsKept cxFlds s t ∧
        t = { s with regs := t.regs, sched := t.sched }) ∧
    (fld s Fld.TAG_CFG_FLTEN = 0 ∨ s.tag.copies = [] ∨ mode s < 3 → ∀ res, exec (.faultLogWrite res) s = .next s) ∧
    (3 ≤ mode s → fld s Fld.SYS_BOOTSTAT_DONE = 1 →
      ∃ t q, exec .snapshotRefresh s = .next t ∧ t.tag = { s.tag with snap := some q } ∧ q.time = q64 s ∧
        q.words = (List.range 8).map (fun j => (statWord s j).1) ∧
        FldsKept [Fld.HSP_CNT1_PRIVDEN, Fld.HSP_STAT_PRIV, whole Adr.PROT_DENY] s t ∧ t = { s with regs := t.regs, fresh := t.fresh, tag := t.tag }) ∧
    (mode s < 3 → exec .snapshotRefresh s = .next s)) ∧
  (∀ (s : State) (lvl : Level) (page gen : Byte) (check : Bool) (r : Request), r = nvmRequest .tagHost .c1 →
    (permitted s lvl Adr.TAG_HCMD true = true →
      (fld s Fld.TAG_HSTAT_BUSY = 1 →
        ∃ t, exec (.tagHostRead lvl page) s = .next t ∧ exec (.tagHostWrite lvl check gen page) s = .next t ∧
          exec (.clrfail lvl) s = .next t ∧ fld t Fld.TAG_HSTAT_RESULT = 3 ∧ OnlyFlds [Fld.TAG_HSTAT_RESULT] s t) ∧
      (fld s Fld.TAG_HSTAT_BUSY = 0 →
        (turnNow s r = true ∨ turnNow (withoutField s) r = true → ∃ t, exec (.tagHostRead lvl page) s = .next t ∧ fld t Fld.TAG_HSTAT_RESULT = 1 ∧
          fld t Fld.TAG_HSTAT_PAGE = page.toNat ∧ fld t Fld.TAG_HSTAT_GEN = pageGen s page.toNat % 256 ∧
          (∀ w : Fin 64, reg t (Adr.TAG_HBUF w) =
            BitVec.ofNat 32 (leNat (bytesAt s.tag.store (256 * page.toNat + 4 * w) 4))) ∧ t.tag.store = s.tag.store ∧
          FldsKept (((List.range 64).map fun w => whole (Adr.TAG_HBUF w)) ++
            [Fld.TAG_HSTAT_BUSY, Fld.TAG_HSTAT_RESULT, Fld.TAG_HSTAT_PAGE, Fld.TAG_HSTAT_GEN, Fld.SYS_RES_GRANT_GRANTS resTagnvm] ++
            packetFlds) s t ∧ TurnTaken s t ∧
          t = { s with regs := t.regs, fresh := t.fresh, fifo := t.fifo, tag := t.tag, sched := t.sched }) ∧
        (fld s Fld.TAG_CFG_FLTEN = 1 → areaOf s page.toNat = .faultLog →
          ∃ t, exec (.tagHostWrite lvl check gen page) s = .next t ∧ fld t Fld.TAG_HSTAT_RESULT = 5 ∧
            t.tag.store = s.tag.store ∧ t.tag.staged = s.tag.staged) ∧
        (fld s Fld.TAG_CFG_FLTEN = 0 ∨ areaOf s page.toNat ≠ .faultLog →
          ∃ t, exec (.tagHostWrite lvl check gen page) s = .next t ∧ fld t Fld.TAG_HSTAT_BUSY = 1 ∧
            fld t Fld.TAG_HSTAT_PAGE = page.toNat ∧ t.tag = { s.tag with
              staged := some { check := check, gen := gen.toNat, page := page.toNat, bytes := hostBuffer s } } ∧
            FldsKept [Fld.TAG_HSTAT_BUSY, Fld.TAG_HSTAT_PAGE] s t ∧ t = { s with regs := t.regs, fresh := t.fresh, tag := t.tag }) ∧
        (turnNow s r = true → ∃ t, exec (.clrfail lvl) s = .next t ∧ fld t Fld.TAG_STAT_FAILS = 0 ∧ fld t Fld.TAG_HSTAT_RESULT = 1 ∧
          FldsKept [Fld.TAG_STAT_FAILS, Fld.TAG_HSTAT_RESULT, Fld.SYS_RES_GRANT_GRANTS resTagnvm] s t ∧ TurnTaken s t ∧
          t = { s with regs := t.regs, fresh := t.fresh, sched := t.sched }) ∧
        (turnNow s r = false →
          (turnNow (withoutField s) r = false → ∃ t, exec (.tagHostRead lvl page) s = .next t ∧ fld t Fld.TAG_HSTAT_BUSY = 1 ∧
            TurnWaits s t r (.tagHostRead lvl page) ∧
            FldsKept (Fld.TAG_HSTAT_BUSY :: cxFlds) s t ∧ t = { s with regs := t.regs, fresh := t.fresh, sched := t.sched }) ∧
          (∃ t, exec (.clrfail lvl) s = .next t ∧ fld t Fld.TAG_HSTAT_BUSY = 1 ∧ TurnWaits s t r (.clrfail lvl) ∧
            FldsKept (Fld.TAG_HSTAT_BUSY :: cxFlds) s t ∧ t = { s with regs := t.regs, fresh := t.fresh, sched := t.sched })))) ∧
    (s.tag.staged = none → ∀ res, exec (.tagCommitPoint res) s = .next s) ∧
    (s.tag.staged ≠ none → turnNow s r = false → ∀ res : ProgResult,
      ∃ t, exec (.tagCommitPoint res) s = .next t ∧ TurnWaits s t r (.tagCommitPoint res) ∧
        FldsKept (Fld.TAG_HSTAT_BUSY :: cxFlds) s t ∧ t = { s with regs := t.regs, fresh := t.fresh, sched := t.sched }) ∧
    (∀ w, s.tag.staged = some w → w.page < 256 → turnNow s r = true →
      (w.fieldWrote = true ∨ (w.check = true ∧ pageGen s w.page ≠ w.gen) → ∀ res,
        ∃ t, exec (.tagCommitPoint res) s = .next t ∧ fld t Fld.TAG_HSTAT_RESULT = 2 ∧ fld t Fld.TAG_HSTAT_BUSY = 0 ∧
          fld t Fld.TAG_STAT_CONFLICT = 1 ∧ flag t (intBit 43) = true ∧ t.tag.store = s.tag.store ∧ t.tag.staged = none ∧
          FldsKept (Fld.SYS_RES_GRANT_GRANTS resTagnvm :: tagFlds) s t ∧ t = { s with regs := t.regs, fresh := t.fresh, fifo := t.fifo, tag := t.tag, sched := t.sched }) ∧
      (w.fieldWrote = false → (w.check = false ∨ pageGen s w.page = w.gen) → w.bytes.length = 256 → StoresWf s →
        (∃ t, exec (.tagCommitPoint .good) s = .next t ∧ fld t Fld.TAG_HSTAT_RESULT = 1 ∧ fld t Fld.TAG_HSTAT_BUSY = 0 ∧
          (∀ k < 256, byteAt t.tag.store (256 * w.page + k) = w.bytes.getD k 0) ∧
          (∀ a, a < 256 * w.page ∨ 256 * w.page + 256 ≤ a → byteAt t.tag.store a = byteAt s.tag.store a) ∧
          fld t Fld.TAG_HSTAT_GEN = (pageGen s w.page + 1) % 256 ∧ t.tag.staged = none ∧ FldsKept (Fld.SYS_RES_GRANT_GRANTS resTagnvm :: tagFlds) s t ∧
          t = { s with regs := t.regs, fresh := t.fresh, fifo := t.fifo, tag := t.tag, sched := t.sched }) ∧
        (∃ t, exec (.tagCommitPoint .failed) s = .next t ∧ fld t Fld.TAG_HSTAT_RESULT = 4 ∧ t.tag.store = s.tag.store ∧
          t.tag.staged = none ∧ FldsKept (Fld.SYS_RES_GRANT_GRANTS resTagnvm :: tagFlds) s t))))

/-! ### Node link -/

/-- LINK_SFD, LINK_PHR, LINK_PREEMPT, ED_SAMPLE (R379, R382, R383, R389–R392, R394–R396, R408): what a receiver acquires, the
stamp, the freeze and the status a reception ends with. LINK_FRAME_END (R154, R394, R411, R412): a frame with a bad FCS ends the
reception; a secured one waits until Flint can be had, and an authenticated data frame of a known neighbour then meets the
counter rule. -/
def Obligations.ReceptionAndCounterRule : Prop :=
  (∀ (s : State) (x : LnkSlot), s.lnk.slot = some x →
    (∀ (a : LinkLead) (level snr : Byte) (erased active : Nat) (l : List Byte) (q : Nat × Nat × Nat), canReceive s = true →
      acquires (lnkMode (slotEntry s x)) a = true → q = rxSnr s (lnkMode (slotEntry s x)) l snr.toNat erased active →
      lnkMode (slotEntry s x) < 6 ∨ 9 < lnkMode (slotEntry s x) ∨ 100 * q.2.1 ≤ fld s Fld.LNK_EQ_ERASEMAX * q.2.2 →
      ∃ t, exec (.linkSfd level snr erased active a l) s = .next t ∧
        t.lnk.rx = some { level := level.toNat, snr := q.1, erased := q.2.1
                          stamp := q64 s + q64Ns (stampNs (lnkMode (slotEntry s x)))
                          at_ := s.clk.now + clkNs (stampNs (lnkMode (slotEntry s x)))
                          preemptor := s.lnk.preempting } ∧ t.lnk.preempting = false ∧
        fld t Fld.LNK_PHYCNT0_SYNC = min 0xFFFF (fld s Fld.LNK_PHYCNT0_SYNC + 1) ∧
        (∀ k, k < 4 → (rpRxMask s x.rp).testBit k = true →
          flag t (Fld.RAD_RXC_STAT_FROZEN k) = true ∧ fld t (Fld.RAD_RXC_STAT_RSSI k) = level.toNat) ∧
        FldsKept (Fld.LNK_PHYCNT0_SYNC :: (List.range 4).flatMap fun k =>
          [Fld.RAD_RXC_STAT_FROZEN k, Fld.RAD_RXC_STAT_RSSI k]) s t ∧
        t = { s with regs := t.regs, fresh := t.fresh, lnk := t.lnk }) ∧
    (∀ (a : LinkLead) (level snr : Byte) (erased active : Nat) (l : List Byte) (q : Nat × Nat × Nat), canReceive s = true →
      acquires (lnkMode (slotEntry s x)) a = true → 6 ≤ lnkMode (slotEntry s x) → lnkMode (slotEntry s x) ≤ 9 →
      q = (if l = [] then (snr.toNat, erased, active) else
        ((l.map fun b => b.toNat).sum / l.length,
         l.countP (fun b => decide (b.toNat < 4 * fld s Fld.LNK_EQ_ABS ∨
           (b.toNat + 4 * fld s Fld.LNK_EQ_REL) * l.length < (l.map fun b => b.toNat).sum)), l.length)) →
      fld s Fld.LNK_EQ_ERASEMAX * q.2.2 < 100 * q.2.1 →
      ∃ t, exec (.linkSfd level snr erased active a l) s = .next t ∧ t.lnk.rx = none ∧ fld t Fld.LNK_PHYSTAT_STATUS = 4 ∧
        fld t Fld.LNK_PHYCNT2_ERASE = min 0xFFFF (fld s Fld.LNK_PHYCNT2_ERASE + 1) ∧ FldsKept phyFlds s t ∧
        t = { s with regs := t.regs, fresh := t.fresh, lnk := t.lnk, fifo := t.fifo }) ∧
    (∀ (a : LinkLead) (level snr : Byte) (erased active : Nat) (l : List Byte),
      canReceive s = false ∨ acquires (lnkMode (slotEntry s x)) a = false →
      exec (.linkSfd level snr erased active a l) s = .next s) ∧
    (∀ (r : LnkRx) (p : LinkPhr), s.lnk.rx = some r → r.phr = none → phrStatus s (slotEntry s x) p = 0 →
      exec (.linkPhr p) s = .next { s with lnk := { s.lnk with rx := some { r with phr := some p } } }) ∧
    (∀ (r : LnkRx) (p : LinkPhr), s.lnk.rx = some r → r.phr = none → phrStatus s (slotEntry s x) p ≠ 0 →
      ∃ t, exec (.linkPhr p) s = .next t ∧ t.lnk.rx = none ∧
        reg t Adr.LNK_PHYSTAT = phyWord s r x (phrStatus s (slotEntry s x) p) ∧
        fld t Fld.LNK_PHYCNT1_PHRERR = min 0xFFFF (fld s Fld.LNK_PHYCNT1_PHRERR + 1) ∧ FldsKept phyFlds s t ∧
        t = { s with regs := t.regs, fresh := t.fresh, lnk := t.lnk, fifo := t.fifo }) ∧
    (∀ (r : LnkRx) (level : Byte), s.lnk.rx = some r → flag s Fld.LNK_CAPTURE_EN = true →
      level.toNat + 2 * fld s Fld.LNK_CAPTURE_DB ≤ r.level →
      ∃ t, exec (.linkPreempt level) s = .next t ∧ t.lnk.rx = none ∧ t.lnk.preempting = true ∧
        reg t Adr.LNK_PHYSTAT = phyWord s r x 3 ∧
        fld t Fld.LNK_PHYCNT1_PREEMPT = min 0xFFFF (fld s Fld.LNK_PHYCNT1_PREEMPT + 1) ∧ FldsKept phyFlds s t ∧
        t = { s with regs := t.regs, fresh := t.fresh, lnk := t.lnk, fifo := t.fifo }) ∧
    (∀ (r : LnkRx) (level : Byte), s.lnk.rx = some r →
      flag s Fld.LNK_CAPTURE_EN = false ∨ r.level < level.toNat + 2 * fld s Fld.LNK_CAPTURE_DB →
      exec (.linkPreempt level) s = .next s) ∧
    (∀ level : Byte, pathState s .b = 3 → s.lnk.rx = none → chainsRun s x = true →
      ∃ t, exec (.edSample level) s = .next t ∧ fld t Fld.LNK_ED_ED = level.toNat ∧
        fld t Fld.LNK_ED_EDPEAK = min level.toNat (fld s Fld.LNK_ED_EDPEAK) ∧
        (∀ be nb b, s.lnk.act = .listen be nb b →
          t.lnk.act = .listen be nb (b || decide (level.toNat ≤ 2 * fld s Fld.LNK_CCA_THR))) ∧
        (∀ b, s.lnk.act = .listenBeacon b →
          t.lnk.act = .listenBeacon (b || decide (level.toNat ≤ 2 * fld s Fld.LNK_CCA_THR))) ∧
        (∀ k, k < 4 → (rpRxMask s x.rp).testBit k = true → fld t (Fld.RAD_RXC_STAT_RSSI k) = level.toNat) ∧
        FldsKept (Fld.LNK_ED_ED :: Fld.LNK_ED_EDPEAK :: rssiFlds) s t ∧
        t = { s with regs := t.regs, fresh := t.fresh, lnk := { s.lnk with act := t.lnk.act } })) ∧
  (∀ (s : State) (x : LnkSlot) (r : LnkRx) (f : LinkFrame), s.lnk.slot = some x → s.lnk.rx = some r → r.phr.isSome = true →
    (∀ (p : LinkPhr) (o : List Byte) (good : Bool), r.phr = some p →
      (rxOctets s (lnkMode (slotEntry s x)) p o = none → exec (.linkFrameEnd good f (some o)) s = exec (.linkFrameEnd false f) s) ∧
      (∀ b, rxOctets s (lnkMode (slotEntry s x)) p o = some b →
        exec (.linkFrameEnd good f (some o)) s = exec (.linkFrameEnd true ⟨b⟩) s)) ∧
    (∃ t, exec (.linkFrameEnd false f) s = .next t ∧ t.lnk.rx = none ∧ reg t Adr.LNK_PHYSTAT = phyWord s r x 1 ∧
      fld t Fld.LNK_PHYCNT0_FCSERR = min 0xFFFF (fld s Fld.LNK_PHYCNT0_FCSERR + 1) ∧ FldsKept phyFlds s t ∧
      t = { s with regs := t.regs, fresh := t.fresh, lnk := t.lnk, fifo := t.fifo }) ∧
    (∀ h n key, Admissible s f.octets h n key → mode s ≠ 2 → flintTake s (lnkWho s) = none →
      ∃ t, exec (.linkFrameEnd true f) s = .next t ∧ t.sched.ops = s.sched.ops ++ [
          { cmd := .linkFrameEnd true f,
            req := { who := lnkWho s, cls := .c2, mask := 2 ^ resFlint, kind := .flint, topUp := true } }] ∧ t.sched.grants = s.sched.grants ∧
        t.lnk.rx = none ∧ reg t Adr.LNK_PHYSTAT = phyWord s r x 0 ∧
        t.lnk.opening = s.lnk.opening ++ [{ rx := { r with endAt := s.clk.now }, slot := x, octets := f.octets }] ∧
        FldsKept (cxFlds ++ phyFlds) s t ∧ t = { s with regs := t.regs, fresh := t.fresh, lnk := t.lnk, sched := t.sched }) ∧
    (∀ h n key, Admissible s f.octets h n key → mode s ≠ 2 → (flintTake s (lnkWho s)).isSome = true → s.lnk.opening = [] →
      (ccmOpen key h.src h.fc h.level (f.octets.take (openHead h f.octets)) (f.octets.drop (openHead h f.octets)) = none →
        ∃ t, exec (.linkFrameEnd true f) s = .next t ∧ t.lnk.rx = none ∧
          fld t Fld.LNK_MACCNT2_AUTHFAIL = min 0xFFFF (fld s Fld.LNK_MACCNT2_AUTHFAIL + 1) ∧
          FldsKept (Fld.LNK_MACCNT2_AUTHFAIL :: Fld.SYS_RES_GRANT_GRANTS resFlint :: phyFlds) s t ∧
          TurnTaken s t ∧ t = { s with regs := t.regs, fresh := t.fresh, sched := t.sched, lnk := t.lnk, fifo := t.fifo }) ∧
      (∀ body mic, ccmOpen key h.src h.fc h.level (f.octets.take (openHead h f.octets))
          (f.octets.drop (openHead h f.octets)) = some (body, mic) → h.type = 1 →
        ((reg s (Adr.NBR_FC n)).toNat < h.fc → h.fc < (nbrOf s n).ckptFc + fld s Fld.LNK_CKPT_NBRSTEP →
          ∃ t, exec (.linkFrameEnd true f) s = .next t ∧ t.lnk.rx = none ∧ reg t (Adr.NBR_FC n) = BitVec.ofNat 32 h.fc ∧
            (nbrOf t n).heard = true ∧ (nbrOf t n).mic = mic ∧ flag t (intBit 44) = true ∧
            fld t Fld.LNK_MACCNT1_RXOK = min 0xFFFF (fld s Fld.LNK_MACCNT1_RXOK + 1) ∧
            FldsKept (whole (Adr.NBR_FC n) :: linkFlds) s t ∧
            TurnTaken s t ∧ t = { s with regs := t.regs, fresh := t.fresh, sched := t.sched, lnk := t.lnk, fifo := t.fifo, tag := t.tag }) ∧
        (h.fc < (reg s (Adr.NBR_FC n)).toNat →
          ∃ t, exec (.linkFrameEnd true f) s = .next t ∧ t.lnk.rx = none ∧ reg t (Adr.NBR_FC n) = reg s (Adr.NBR_FC n) ∧
            nbrOf t n = nbrOf s n ∧ fld t Fld.LNK_MACCNT1_REPLAY = min 0xFFFF (fld s Fld.LNK_MACCNT1_REPLAY + 1) ∧
            FldsKept (Fld.LNK_MACCNT1_REPLAY :: Fld.SYS_RES_GRANT_GRANTS resFlint :: phyFlds) s t ∧
            TurnTaken s t ∧ t = { s with regs := t.regs, fresh := t.fresh, sched := t.sched, lnk := t.lnk, fifo := t.fifo }) ∧
        (h.fc = (reg s (Adr.NBR_FC n)).toNat → (nbrOf s n).heard = true → (nbrOf s n).mic = mic →
          ∃ t, exec (.linkFrameEnd true f) s = .next t ∧ t.lnk.rx = none ∧ reg t (Adr.NBR_FC n) = reg s (Adr.NBR_FC n) ∧
            nbrOf t n = nbrOf s n ∧ fld t Fld.LNK_MACCNT2_DUP = min 0xFFFF (fld s Fld.LNK_MACCNT2_DUP + 1) ∧
            FldsKept (whole Adr.LNK_MACCNT2 :: whole Adr.LNK_MACCNT4 :: Fld.SYS_RES_GRANT_GRANTS resFlint :: phyFlds) s t ∧
            TurnTaken s t ∧ t = { s with regs := t.regs, fresh := t.fresh, sched := t.sched, lnk := t.lnk, fifo := t.fifo }))))

/-- LINK_TX, TX_FLUSH, FRAME_EXPIRED (R406, R409, R445): the queue holds eight frames, refusals say why, and a flush leaves the
frame that is under way. -/
def Obligations.SendQueueFillsAndEmpties : Prop :=
  ∀ (s : State) (lvl : Level), permitted s lvl Adr.LNK_TXCMD true = true →
    (∀ v : Word, bitsOf v 31 31 = 1 → bitsOf v 28 28 = 0 →
      (bitsOf v 23 13 = 0 ∨ txLimit s < bitsOf v 23 13 →
        ∃ t, exec (.linkTx lvl v) s = .next t ∧ fld t Fld.LNK_TXSTAT_RESULT = 2 ∧ fld t Fld.LNK_TXSTAT_REASON = 1 ∧
          OnlyFlds [Fld.LNK_TXSTAT_RESULT, Fld.LNK_TXSTAT_REASON, Fld.HSP_STAT_RANGE] s t) ∧
      (0 < bitsOf v 23 13 → bitsOf v 23 13 ≤ txLimit s →
        (bitsOf v 30 30 = 1 → fld s Fld.LNK_TXDEST_DEST = 0xFFFF →
          ∃ t, exec (.linkTx lvl v) s = .next t ∧ fld t Fld.LNK_TXSTAT_RESULT = 2 ∧ fld t Fld.LNK_TXSTAT_REASON = 2 ∧
            OnlyFlds [Fld.LNK_TXSTAT_RESULT, Fld.LNK_TXSTAT_REASON, Fld.HSP_STAT_RANGE] s t) ∧
        (bitsOf v 30 30 = 0 ∨ fld s Fld.LNK_TXDEST_DEST ≠ 0xFFFF →
          (flag s Fld.LNK_DATA_EN = false → flag s Fld.LNK_RDV_EN = false →
            ∃ t, exec (.linkTx lvl v) s = .next t ∧ fld t Fld.LNK_TXSTAT_RESULT = 2 ∧ fld t Fld.LNK_TXSTAT_REASON = 3 ∧
              OnlyFlds [Fld.LNK_TXSTAT_RESULT, Fld.LNK_TXSTAT_REASON, Fld.HSP_STAT_RANGE] s t) ∧
          (flag s Fld.LNK_DATA_EN = true ∨ flag s Fld.LNK_RDV_EN = true →
            (8 ≤ s.lnk.queue.length →
              ∃ t, exec (.linkTx lvl v) s = .next t ∧ fld t Fld.LNK_TXSTAT_RESULT = 3 ∧ fld t Fld.LNK_TXSTAT_REASON = 0 ∧
                OnlyFlds [Fld.LNK_TXSTAT_RESULT, Fld.LNK_TXSTAT_REASON, Fld.HSP_STAT_RANGE] s t) ∧
            (s.lnk.queue.length < 8 → s.lnk.slot = none → withheldNow s = none →
              ∃ t, exec (.linkTx lvl v) s = .next t ∧ fld t Fld.LNK_TXSTAT_RESULT = 1 ∧ fld t Fld.LNK_TXSTAT_REASON = 0 ∧
                t.lnk.queue = s.lnk.queue ++ [
                  { payload := txBytes s (bitsOf v 23 13), dest := fld s Fld.LNK_TXDEST_DEST,
                    ar := bitsOf v 30 30 == 1, anytime := bitsOf v 29 29 == 1, tag := bitsOf v 27 24,
                    life := fld s Fld.LNK_TXDEST_LIFE, queuedAt := s.clk.now, seq := s.lnk.seq }] ∧
                t.lnk.seq = (s.lnk.seq + 1) % 256 ∧
                FldsKept (Fld.LNK_TXSTAT_RESULT :: Fld.LNK_TXSTAT_REASON :: Fld.HSP_STAT_RANGE :: cxFlds) s t ∧
                t = { s with regs := t.regs, fresh := t.fresh, lnk := t.lnk, sched := t.sched }))))) ∧
    (∃ t, exec (.txFlush lvl) s = .next t ∧ t.lnk.queue = s.lnk.queue.filter (fun f => f.attempts != 0) ∧
      t.lnk.act = s.lnk.act ∧ ((∃ f ∈ s.lnk.queue, f.attempts = 0) → flag t (intBit 45) = true) ∧ FldsKept packetFlds s t ∧
      t = { s with regs := t.regs, fresh := t.fresh, lnk := t.lnk, fifo := t.fifo }) ∧
    (∀ (pos : Fin 8) (f : LnkTx), s.lnk.queue[pos.val]? = some f → expired s f = true → 0 < pos.val ∨ headBegun s = false →
      ∃ t, exec (.frameExpired pos) s = .next t ∧ t.lnk.queue = s.lnk.queue.eraseIdx pos.val ∧ flag t (intBit 45) = true ∧
        FldsKept packetFlds s t ∧ t = { s with regs := t.regs, fresh := t.fresh, lnk := t.lnk, fifo := t.fifo }) ∧
    (∀ (pos : Fin 8) (f : LnkTx), s.lnk.queue[pos.val]? = some f → expired s f = false →
      exec (.frameExpired pos) s = .next s)

/-- LISTEN_END, BACKOFF_END, LINK_TX_END, ACK_WAIT_END, IMM_ACK_SEND (R183, R398, R408–R410). -/
def Obligations.AttemptsListenSendAndWait : Prop :=
  ∀ (s : State) (x : LnkSlot), s.lnk.slot = some x →
    (∀ be nb f q, s.lnk.act = .listen be nb true → s.lnk.queue = f :: q → pathState s .b = 3 →
      nb + 1 ≤ fld s Fld.LNK_CCA_MAXBO →
      exec .listenEnd s =
        .next { s with lnk := { s.lnk with act := .backoff (min (be + 1) (fld s Fld.LNK_CCA_BEMAX)) (nb + 1) } }) ∧
    (∀ be nb f, s.lnk.act = .listen be nb true → s.lnk.queue = [f] → pathState s .b = 3 → fld s Fld.LNK_CCA_MAXBO < nb + 1 →
      ∃ t, exec .listenEnd s = .next t ∧ t.lnk.queue = [] ∧ t.lnk.act = .idle ∧ flag t (intBit 45) = true ∧
        FldsKept packetFlds s t ∧ t = { s with regs := t.regs, fresh := t.fresh, lnk := t.lnk, fifo := t.fifo }) ∧
    (∀ be nb f q fc octets, s.lnk.act = .listen be nb false → s.lnk.queue = f :: q → f.secured = some (fc, octets) →
      pathState s .b = 3 → powerOk s (rpPort s x.rp) (ePower (slotEntry s x)) = true →
      ∃ t, exec .listenEnd s = .next t ∧ t.lnk.act = .tx ∧ t.lnk.queue = s.lnk.queue ∧
        t.lnk.sent = [lnkAir s (slotEntry s x) octets (1000 * turnUs)] ∧
        pathState t .b = 4 ∧ flag t (fCarr .b) = true ∧ FldsKept sendFlds s t ∧
        t = { s with regs := t.regs, fresh := t.fresh, radio := t.radio, lnk := t.lnk }) ∧
    (∀ be nb f q, s.lnk.act = .backoff be nb → s.lnk.queue = f :: q →
      (slotUntil s < s.clk.now + us (attemptUs s (slotEntry s x) f) →
        exec .backoffEnd s = .next { s with lnk := { s.lnk with
          act := .idle, queue := { f with attempts := f.attempts - 1 } :: q } }) ∧
      (s.clk.now + us (attemptUs s (slotEntry s x) f) ≤ slotUntil s →
        sbFits s x.chan (airtime s (slotEntry s x) (dataPsdu s (lnkMode (slotEntry s x)) f.payload.length)) = true →
        ∃ t, exec .backoffEnd s = .next t ∧ t.lnk.act = .listen be nb false ∧ t.lnk.rx = none ∧ t.lnk.queue = s.lnk.queue ∧
          FldsKept phyFlds s t ∧ t = { s with regs := t.regs, fresh := t.fresh, lnk := t.lnk, fifo := t.fifo })) ∧
    (∀ f q, s.lnk.act = .tx → s.lnk.queue = f :: q → f.ar = true → pathState s .b = 4 → s.lnk.acking = false →
      ∃ t, exec .linkTxEnd s = .next t ∧ t.lnk.act = .ackWait ∧ t.lnk.txEnd = s.clk.now ∧ pathState t .b = 3 ∧
        flag t (fCarr .b) = false ∧ t.lnk.queue = s.lnk.queue ∧
        FldsKept (((List.range 4).flatMap fun k => [Fld.RAD_RXC_STAT_LNA k, Fld.RAD_RXC_STAT_FROZEN k]) ++ pathFlds) s t ∧
        t = { s with regs := t.regs, fresh := t.fresh, lnk := t.lnk, radio := t.radio, brm := t.brm, cal := t.cal }) ∧
    (pathState s .b = 4 → s.lnk.acking = true →
      ∃ t, exec .linkTxEnd s = .next t ∧ t.lnk.acking = false ∧ t.lnk.act = s.lnk.act ∧ pathState t .b = 3 ∧
        t.lnk.queue = s.lnk.queue ∧
        FldsKept (((List.range 4).flatMap fun k => [Fld.RAD_RXC_STAT_LNA k, Fld.RAD_RXC_STAT_FROZEN k]) ++ pathFlds) s t ∧
        t = { s with regs := t.regs, fresh := t.fresh, lnk := t.lnk, radio := t.radio, brm := t.brm, cal := t.cal }) ∧
    (∀ f q, s.lnk.act = .ackWait → s.lnk.queue = f :: q → f.attempts ≤ fld s Fld.LNK_MACCFG_MAXRETRY →
      exec .ackWaitEnd s = .next { s with lnk := { s.lnk with act := .retry } }) ∧
    (∀ f, s.lnk.act = .ackWait → s.lnk.queue = [f] → fld s Fld.LNK_MACCFG_MAXRETRY < f.attempts →
      ∃ t, exec .ackWaitEnd s = .next t ∧ t.lnk.queue = [] ∧ t.lnk.act = .idle ∧ flag t (intBit 45) = true ∧
        fld t Fld.LNK_MACCNT0_NOACK = min 0xFFFF (fld s Fld.LNK_MACCNT0_NOACK + 1) ∧
        FldsKept (Fld.LNK_MACCNT0_NOACK :: packetFlds) s t ∧ t = { s with regs := t.regs, fresh := t.fresh, lnk := t.lnk, fifo := t.fifo }) ∧
    (∀ seq due, s.lnk.owed = some (seq, due) →
      (due < s.clk.now →
        ∃ t, exec .immAckSend s = .next t ∧ t.lnk.owed = none ∧
          fld t Fld.LNK_MACCNT4_ACKLATE = min 0xFFFF (fld s Fld.LNK_MACCNT4_ACKLATE + 1) ∧
          FldsKept [Fld.LNK_MACCNT4_ACKLATE] s t ∧ t = { s with regs := t.regs, fresh := t.fresh, lnk := t.lnk }) ∧
      (s.clk.now ≤ due → pathState s .b = 3 → powerOk s (rpPort s x.rp) (ePower (slotEntry s x)) = true →
        ∃ t, exec .immAckSend s = .next t ∧ t.lnk.owed = none ∧ t.lnk.acking = true ∧
          t.lnk.sent = [lnkAir s (slotEntry s x) (ackFrame seq) (10 * (due - s.clk.now))] ∧ pathState t .b = 4 ∧ FldsKept (phyFlds ++ sendFlds) s t ∧
          t = { s with regs := t.regs, fresh := t.fresh, radio := t.radio, lnk := t.lnk, fifo := t.fifo }))

/-- SLOT_POST, RESCAN, BRX_WINDOW_END, BEACON_INSTANT (R422, R424, R427, R432). HOLDOVER_END, DUTY_BIN, DUTY_CHECKPOINT (R420,
R421, R436). -/
def Obligations.LinkSlotsBeaconsBudgets : Prop :=
  (∀ s : State,
    (∀ (src : Fin 4) (e : Entry) (rp : Nat) (u : State) (x : LnkSlot), linkEntry s (fld s Fld.LNK_DATA_ENTRY) = some e →
      flag s Fld.LNK_RDV_EN = true → nextLeaf s (fld s Fld.LNK_DATA_ENTRY) e = (some rp, u) → s.sched.requests = [] →
      (s.sched.grants.any fun g => g.scheduled) = false → s.lnk.slot = none →
      x = { kind := .rdv, entry := fld s Fld.LNK_DATA_ENTRY, rp := rp
            chan := rdvChan u e (q64 s + q64Us 20000), free := q64 s + q64Us 20000 } →
      (foremostDue u x (1000 * fld s Fld.LNK_RDV_LEN) = false → mayPost s (.linkSlot 5) = true →
        ∃ t r, exec (.slotPost .rdv src) s = .next t ∧ t.sched.requests = [r] ∧ r.who = .linkSlot 5 ∧ r.cls = .c0 ∧
          r.freeAt = some (s.clk.now + ms 20) ∧ r.kind = .linkSlot (1000 * fld s Fld.LNK_RDV_LEN) ∧ planOf t 5 = some x ∧
          FldsKept cxFlds s t ∧ t = { s with regs := t.regs, sched := t.sched, lnk := t.lnk }) ∧
      (foremostDue u x (1000 * fld s Fld.LNK_RDV_LEN) = true →
        ∃ t, exec (.slotPost .rdv src) s = .next t ∧ t.lnk = u.lnk ∧ FldsKept packetFlds s t ∧
          t = { s with regs := t.regs, fresh := t.fresh, lnk := t.lnk, fifo := t.fifo })) ∧
    (∀ src : Fin 4, flag s Fld.LNK_RDV_EN = false → exec (.slotPost .rdv src) s = .next s) ∧
    (∀ (k : Fin 4) (e : Entry) (bi rp free seg : Nat) (y : LnkNbr) (u v : State) (x : LnkSlot),
      linkEntry s (fld s Fld.LNK_BCN_ENTRY) = some e → flag s (Fld.LNK_SRC_EN k) = true → y = nbrOf s (srcNbr s k) →
      y.track = 5 → y.window = false → y.nextBi = some bi → mode s = 3 ∨ mode s = 4 → s.sched.requests = [] →
      s.lnk.slot = none → mayPost s (.linkSlot (1 + k)) = true → free = (windowFree s y (nextBeacon s y)).toNat →
      seg = min 100000 (brxLength s y e) →
      u = setNbr s (srcNbr s k) { y with window := true, left := brxLength s y e - seg, got := false
                                         segAt := clkOfQ64 s free + us seg } →
      nextLeaf u (fld s Fld.LNK_BCN_ENTRY) e = (some rp, v) →
      x = { kind := .brx, src := k, entry := fld s Fld.LNK_BCN_ENTRY, rp := rp, chan := eChan e 0, free := free } →
      foremostDue v x seg = false → s.clk.now + ms 10 ≤ clkOfQ64 s free → (s.sched.grants.any fun g => g.scheduled) = false →
      ∃ t r, exec (.rescan k) s = .next t ∧ (nbrOf t (srcNbr s k)).window = true ∧
        (nbrOf t (srcNbr s k)).left = brxLength s y e - seg ∧ t.sched.requests = [r] ∧
        r.who = .linkSlot (1 + k) ∧ r.kind = .linkSlot seg ∧ r.freeAt = some (clkOfQ64 s free) ∧
        planOf t (1 + k) = some x ∧ FldsKept cxFlds s t ∧ t = { s with regs := t.regs, sched := t.sched, lnk := t.lnk }) ∧
    (∀ k : Fin 4, (nbrOf s (srcNbr s k)).track ≠ 5 → exec (.rescan k) s = .next s) ∧
    (∀ k : Fin 4, flag s (Fld.LNK_SRC_EN k) = true → (nbrOf s (srcNbr s k)).window = true →
      (nbrOf s (srcNbr s k)).got = false →
      ∃ t, exec (.brxWindowEnd k) s = .next t ∧ (nbrOf t (srcNbr s k)).window = false ∧
        ((nbrOf t (srcNbr s k)).missed = (nbrOf s (srcNbr s k)).missed + 1 ∨
          t.lnk.cand ≠ none ∧ (nbrOf t (srcNbr s k)).missed = max 3 ((nbrOf s (srcNbr s k)).missed + 1)) ∧
        fld t Fld.LNK_MACCNT3_BCNMISS = min 0xFFFF (fld s Fld.LNK_MACCNT3_BCNMISS + 1) ∧ FldsKept (linkFlds ++ pathFlds) s t ∧
        t = { s with regs := t.regs, fresh := t.fresh, lnk := t.lnk, fifo := t.fifo, radio := t.radio, brm := t.brm, cal := t.cal }) ∧
    (∀ k : Fin 4, flag s (Fld.LNK_SRC_EN k) = false ∨ (nbrOf s (srcNbr s k)).window = false →
      exec (.brxWindowEnd k) s = .next s) ∧
    (∀ x, s.lnk.slot = some x → s.lnk.act = .listenBeacon true →
      ∃ t, exec .beaconInstant s = .next t ∧ t.lnk.act = .idle ∧
        fld t Fld.LNK_MACCNT3_CCABUSY = min 0xFFFF (fld s Fld.LNK_MACCNT3_CCABUSY + 1) ∧
        FldsKept (Fld.LNK_MACCNT3_CCABUSY :: packetFlds) s t ∧ t = { s with regs := t.regs, fresh := t.fresh, lnk := t.lnk, fifo := t.fifo }) ∧
    (∀ x b, s.lnk.slot = some x → s.lnk.act = .listenBeacon b → s.lnk.beaconFc = none → withheldNow s = none →
      s.lnk.next < s.lnk.ckptV + 4096 →
      ((flintTake s (lnkWho s)).isSome = true → s.lnk.next + 1 < 2 ^ 32 →
        (beaconSecure s).lnk.beaconFc = some s.lnk.next ∧ (beaconSecure s).lnk.next = s.lnk.next + 1 ∧
          (beaconSecure s).lnk.act = .listenBeacon b ∧ reg (beaconSecure s) Adr.LNK_FCNT = BitVec.ofNat 32 (s.lnk.next + 1) ∧
          FldsKept [whole Adr.LNK_FCNT, Fld.SYS_RES_GRANT_GRANTS resFlint] s (beaconSecure s) ∧ TurnTaken s (beaconSecure s)) ∧
      (flintTake s (lnkWho s) = none → (beaconSecure s).sched.ops = s.sched.ops ++ [
          { cmd := .beaconInstant,
            req := { who := lnkWho s, cls := .c2, mask := 2 ^ resFlint, kind := .flint, topUp := true } }] ∧
        (beaconSecure s).sched.grants = s.sched.grants ∧ (beaconSecure s).lnk = s.lnk ∧ FldsKept cxFlds s (beaconSecure s))) ∧
    (∀ x fc, s.lnk.slot = some x → s.lnk.act = .listenBeacon false → pathState s .b = 3 → withheldNow s = none →
      s.lnk.beaconFc = some fc → powerOk s (rpPort s x.rp) (ePower (slotEntry s x)) = true →
      ∃ t, exec .beaconInstant s = .next t ∧ t.lnk.act = .txBeacon ∧ t.lnk.bseq = (s.lnk.bseq + 1) % 256 ∧
        t.lnk.sent = [lnkAir s (slotEntry s x) (beaconFrame s fc (q64 s + q64Ns (syncNs s (slotEntry s x)))) 0] ∧
        pathState t .b = 4 ∧ flag t (fCarr .b) = true ∧ FldsKept sendFlds s t ∧
        t = { s with regs := t.regs, fresh := t.fresh, radio := t.radio, lnk := t.lnk }) ∧
    (∀ x, s.lnk.slot = some x → s.lnk.act = .listenBeacon false → pathState s .b = 3 →
      s.lnk.beaconFc = none ∨ (withheldNow s).isSome = true →
      ∃ t, exec .beaconInstant s = .next t ∧ t.lnk.act = .idle ∧ FldsKept packetFlds s t ∧
        t = { s with regs := t.regs, fresh := t.fresh, lnk := { s.lnk with act := .idle }, fifo := t.fifo })) ∧
  (∀ s : State,
    (flag s Fld.LNK_ORIGIN_HOLD = false → exec .holdoverEnd s = .next s) ∧
    (flag s Fld.LNK_ORIGIN_HOLD = true → flag s Fld.LNK_BCN_CANORIG = false ∨ flag s Fld.LNK_BCN_EN = false →
      ∃ t, exec .holdoverEnd s = .next t ∧ t.lnk.silent = true ∧ FldsKept packetFlds s t ∧
        t = { s with regs := t.regs, fresh := t.fresh, lnk := t.lnk, fifo := t.fifo }) ∧
    (flag s Fld.LNK_ORIGIN_HOLD = true → flag s Fld.LNK_BCN_CANORIG = true → flag s Fld.LNK_BCN_EN = true →
      ∃ t, exec .holdoverEnd s = .next t ∧ flag t Fld.LNK_ORIGIN_ISORIG = true ∧ fld t Fld.LNK_ORIGIN_SRC = 0xF ∧
        fld t Fld.LNK_ORIGIN_HOPS = 0 ∧ fld t Fld.LNK_ORIGIN_HOLD = 0 ∧ fld t Fld.LNK_EPOCH_EPOCH = s.qtz.secs % 2 ^ 32 ∧
        fld t Fld.LNK_ORIGIN_ORIGIN = fld s Fld.LNK_ID_NODE ∧
        FldsKept (whole Adr.LNK_ORIGIN :: whole Adr.LNK_EPOCH :: intBit 48 :: packetFlds) s t ∧
        t = { s with regs := t.regs, fresh := t.fresh, lnk := t.lnk, fifo := t.fifo }) ∧
    exec .dutyBin s = .next { s with lnk := { s.lnk with bins := s.lnk.bins.map fun b => (0 :: b).take 360 } } ∧
    (jnlRuns s = false → exec .dutyCheckpoint s = .next s) ∧
    (jnlRuns s = true → s.jnl.fcDue = true ∨ s.jnl.dutyDue = true →
      exec .dutyCheckpoint s = .next { s with jnl := { s.jnl with dutyDue := true } }) ∧
    (∀ r, r = mspRequest .journal .c3 → jnlRuns s = true → s.jnl.fcDue = false → s.jnl.dutyDue = false →
      (turnNow s r = true →
        ∃ t, exec .dutyCheckpoint s = .next t ∧ t.jnl.fcDue = false ∧ t.jnl.dutyDue = false ∧
          (dutyRecords s ≠ [] → t.jnl.buffer = [] ∧ t.jnl.full = []) ∧
          (dutyRecords s ≠ [] → s.jnl.buffer = [] → s.jnl.full = [] → s.jnl.dutyOpen = [] → s.jnl.dutyTime ≤ q64 s →
            q64 s < 2 ^ 64 → s.jnl.failProg = [] → 0 < s.jnl.nblk →
            s.jnl.page + 8 < 64 → jnlRuns t = true → t.jnl.duty.map (·.time) = some (q64 s)) ∧
          (dutyRecords s = [] → t.jnl = s.jnl ∧ t.lnk = { s.lnk with dutyMark := Vector.replicate 8 0 }) ∧
          FldsKept (Fld.SYS_RES_GRANT_GRANTS resMsp :: jnlFlds) s t ∧ TurnTaken s t ∧
          t = { s with regs := t.regs, fresh := t.fresh, sched := t.sched, jnl := t.jnl, lnk := t.lnk, fifo := t.fifo, tag := t.tag }) ∧
      (turnNow s r = false →
        ∃ t, exec .dutyCheckpoint s = .next t ∧ TurnWaits s t r .dutyCheckpoint ∧ FldsKept cxFlds s t ∧
          t = { s with regs := t.regs, sched := t.sched, jnl := { s.jnl with dutyDue := true } })))

/-! ### Timers -/

/-- TIMER_START, TIMER_STOP, TIMER_RESET, CAPCLR (R510, R513, R514, R519, R523, R524, R532): each acts on its own timer alone,
and no command raises an event. GCMD_START, GCMD_STOP, GCMD_RESET, TMR_SNAP (R516, R533): every timer of the mask, and no other.
-/
def Obligations.TimerControlCommandsAct : Prop :=
  (∀ (s : State) (lvl : Level) (n : Fin 16) (g : Nat), permitted s lvl (Adr.TMR_CTRL n) true = true → g = (tmr s n).cyc.gcmd →
    exec (.timerStart lvl n) s = .next (gcmdAct g (tmrStart s n) n) ∧ exec (.timerStop lvl n) s = .next (gcmdAct g (tmrStop s n) n) ∧
    exec (.timerReset lvl n) s = .next (gcmdAct g (tmrReset s n) n) ∧ exec (.capclr lvl n) s = .next (gcmdAct g (tmrCapClr s n) n)) ∧
  (∀ (s : State) (lvl : Level) (n : Fin 16), permitted s lvl (Adr.TMR_CTRL n) true = true → (tmr s n).cyc.gcmd = 0 →
    (∃ t, exec (.timerStart lvl n) s = .next t ∧ fld t (Fld.TMR_STAT_RUN n) = 1 ∧
      fld t (Fld.TMR_STAT_GATE n) = (if anyAct s n 1 then 0 else 1) ∧
      (∀ m, tmr t m = if m = n then { tmr s n with psc := 0 } else tmr s m) ∧
      FldsKept [Fld.TMR_STAT_RUN n, Fld.TMR_STAT_GATE n] s t ∧ t = { s with regs := t.regs, fresh := t.fresh, tmr := t.tmr }) ∧
    (∃ t, exec (.timerStop lvl n) s = .next t ∧ fld t (Fld.TMR_STAT_RUN n) = 0 ∧ OnlyFlds [Fld.TMR_STAT_RUN n] s t) ∧
    (∃ t, exec (.timerReset lvl n) s = .next t ∧
      reg t (Adr.TMR_CNT n) = (if fld s (Fld.TMR_CFG_MODE n) < 2 then reg s (Adr.TMR_BUF n) else 0) ∧
      (tmr t n).psc = 0 ∧ (tmr t n).buf = reg s (Adr.TMR_BUF n) ∧ (tmr t n).caps = (tmr s n).caps ∧ countLost t n = true ∧
      reg t (Adr.TMR_SNAPV n) = (if (tmr s n).cyc.snapped then reg t (Adr.TMR_CNT n) else reg s (Adr.TMR_SNAPV n)) ∧
      fld t (Fld.TMR_STAT_ARMED n) = fld s (Fld.TMR_STAT_ARMED n) ||| fld s (Fld.TMR_CCFG_CMPEN n) ∧
      (∀ m : Nat, m ≠ n → tmr t m = tmr s m) ∧
      FldsKept [whole (Adr.TMR_CNT n), whole (Adr.TMR_SNAPV n), Fld.TMR_STAT_ARMED n] s t ∧
      t = { s with regs := t.regs, fresh := t.fresh, tmr := t.tmr }) ∧
    (∃ t, exec (.capclr lvl n) s = .next t ∧ reg t (Adr.TMR_CAP n) = 0 ∧ fld t (Fld.TMR_STAT_CAPN n) = 0 ∧
      (∀ m, tmr t m = if m = n then { tmr s n with caps := [] } else tmr s m) ∧
      FldsKept [whole (Adr.TMR_CAP n), Fld.TMR_STAT_CAPN n] s t ∧ t = { s with regs := t.regs, fresh := t.fresh, tmr := t.tmr })) ∧
  (∀ (s : State) (lvl : Level) (mask : BitVec 16),
    (permitted s lvl Adr.TMR_GCMD true = true →
      (∃ t, exec (.gcmdStart lvl mask) s = .next t ∧
        (∀ n : Fin 16, fld t (Fld.TMR_STAT_RUN n) = if mask.getLsbD n then 1 else fld s (Fld.TMR_STAT_RUN n)) ∧
        (∀ n : Fin 16, tmr t n = if mask.getLsbD n then { tmr s n with psc := 0, cyc := { (tmr s n).cyc with gcmd := 1 } } else tmr s n) ∧
        FldsKept ((List.range 16).map Fld.TMR_STAT_RUN ++ (List.range 16).map Fld.TMR_STAT_GATE) s t ∧
        t = { s with regs := t.regs, fresh := t.fresh, tmr := t.tmr }) ∧
      (∃ t, exec (.gcmdStop lvl mask) s = .next t ∧
        (∀ n : Fin 16, fld t (Fld.TMR_STAT_RUN n) = if mask.getLsbD n then 0 else fld s (Fld.TMR_STAT_RUN n)) ∧
        (∀ n : Fin 16, tmr t n = if mask.getLsbD n then { tmr s n with cyc := { (tmr s n).cyc with gcmd := 2 } } else tmr s n) ∧
        FldsKept ((List.range 16).map Fld.TMR_STAT_RUN) s t ∧ t = { s with regs := t.regs, fresh := t.fresh, tmr := t.tmr }) ∧
      (∃ t, exec (.gcmdReset lvl mask) s = .next t ∧
        (∀ n : Fin 16, reg t (Adr.TMR_CNT n) = if mask.getLsbD n then
            (if fld s (Fld.TMR_CFG_MODE n) < 2 then reg s (Adr.TMR_BUF n) else 0) else reg s (Adr.TMR_CNT n)) ∧
        (∀ n : Fin 16, (tmr t n).cyc.gcmd = if mask.getLsbD n then 3 else (tmr s n).cyc.gcmd) ∧
        FldsKept ((List.range 16).map (fun n => whole (Adr.TMR_CNT n)) ++ (List.range 16).map (fun n => whole (Adr.TMR_SNAPV n)) ++
          (List.range 16).map Fld.TMR_STAT_ARMED) s t ∧
        t = { s with regs := t.regs, fresh := t.fresh, tmr := t.tmr })) ∧
    (permitted s lvl Adr.TMR_SNAP true = true →
      ∃ t, exec (.tmrSnap lvl mask) s = .next t ∧
        (∀ n : Fin 16, reg t (Adr.TMR_SNAPV n) = if mask.getLsbD n then reg s (Adr.TMR_CNT n) else reg s (Adr.TMR_SNAPV n)) ∧
        (∀ n : Fin 16, tmr t n = if mask.getLsbD n then { tmr s n with cyc := { (tmr s n).cyc with snapped := true } } else tmr s n) ∧
        FldsKept ((List.range 16).map fun n => whole (Adr.TMR_SNAPV n)) s t ∧ t = { s with regs := t.regs, fresh := t.fresh, tmr := t.tmr }))

/-- TMR_CNT_WRITE, TMR_BUF_WRITE, CMP_WRITE, TOUT_WRITE (R510, R513, R514, R519, R525, R533). CAPTURE, TMR_CAP_READ, CAPCLR: the
capture queue (R523). -/
def Obligations.TimerRegistersAndCaptures : Prop :=
  (∀ (s : State) (lvl : Level) (n : Fin 16) (k : Fin 4) (m : Fin 8) (value : Word),
    (permitted s lvl (Adr.TMR_CNT n) true = true →
      ∃ t, exec (.tmrCntWrite lvl n value) s = .next t ∧ countLost t n = true ∧
        (∀ edge, reg (tickTimer edge t n) (Adr.TMR_CNT n) = value ∧ countLost (tickTimer edge t n) n = true) ∧
        (∀ j : Nat, tmr t j = if j = n then { tmr s n with psc := 0, cyc := { (tmr s n).cyc with newCnt := some value } } else tmr s j) ∧
        t = { s with tmr := t.tmr }) ∧
    (permitted s lvl (Adr.TMR_BUF n) true = true →
      ∃ t, exec (.tmrBufWrite lvl n value) s = .next t ∧ reg t (Adr.TMR_BUF n) = value ∧
        (tmr t n).cyc.oldBuf = some ((tmr s n).cyc.oldBuf.getD (reg s (Adr.TMR_BUF n))) ∧ (∀ j : Nat, j ≠ n → tmr t j = tmr s j) ∧
        (tmr t n).buf = (tmr s n).buf ∧ FldsKept [whole (Adr.TMR_BUF n)] s t ∧
        t = { s with regs := t.regs, fresh := t.fresh, tmr := t.tmr }) ∧
    (permitted s lvl (Adr.TMR_CMP n k) true = true →
      ∃ t, exec (.cmpWrite lvl n k value) s = .next t ∧ reg t (Adr.TMR_CMP n k) = value ∧
        fld t (Fld.TMR_STAT_ARMED n) = fld s (Fld.TMR_STAT_ARMED n) ||| (2 ^ k.val &&& fld s (Fld.TMR_CCFG_CMPEN n)) ∧
        (∀ j : Nat, j ≠ n → tmr t j = tmr s j) ∧ (tmr t n).psc = (tmr s n).psc ∧ (tmr t n).caps = (tmr s n).caps ∧
        ((fld s (Fld.TMR_STAT_ARMED n)).testBit k = true → (tmr s n).fresh.testBit k = false →
          (tmr t n).cyc.oldCmp = (k.val, reg s (Adr.TMR_CMP n k)) :: (tmr s n).cyc.oldCmp) ∧
        FldsKept [whole (Adr.TMR_CMP n k), Fld.TMR_STAT_ARMED n] s t ∧ t = { s with regs := t.regs, fresh := t.fresh, tmr := t.tmr }) ∧
    (permitted s lvl (Adr.TMR_TOUT m) true = true →
      ∃ t, exec (.toutWrite lvl m value) s = .next t ∧ FldsKept [whole (Adr.TMR_TOUT m), Fld.HSP_STAT_RANGE] s t ∧
        t = { s with regs := t.regs, fresh := t.fresh, tout := t.tout } ∧
        (bitsOf value 23 21 = 6 ∨ bitsOf value 20 18 = 6 →
          reg t (Adr.TMR_TOUT m) = reg s (Adr.TMR_TOUT m) ∧ flag t Fld.HSP_STAT_RANGE = true ∧ t.tout = s.tout) ∧
        (bitsOf value 23 21 ≠ 6 → bitsOf value 20 18 ≠ 6 → t.tout = s.tout.setIfInBounds m {} ∧
          fld t (Fld.TMR_TOUT_LEVEL m) = bitsOf value 29 29 ∧ fld t (Fld.TMR_TOUT_EN m) = bitsOf value 31 31 ∧
          fld t (Fld.TMR_TOUT_POL m) = bitsOf value 30 30 ∧ fld t (Fld.TMR_TOUT_SRC m) = bitsOf value 27 24 ∧
          fld t (Fld.TMR_TOUT_SETEVT m) = bitsOf value 23 21 ∧ fld t (Fld.TMR_TOUT_CLREVT m) = bitsOf value 20 18))) ∧
  (∀ (s : State) (lvl : Level) (n : Fin 16),
    (tmrPowered s n = false ∨ (tmr s n).cyc.evts.testBit 5 = true ∨ 9 < fld s (Fld.TMR_CCFG_CAPSRC n) ∨
        (fld s (Fld.TMR_CCFG_CAPSRC n) ≤ 7 ∧ tinEdge s (fld s (Fld.TMR_CCFG_CAPSRC n)) (fld s (Fld.TMR_CCFG_CAPEDGE n)) = false) ∨
        (fld s (Fld.TMR_CCFG_CAPSRC n) = 8 ∧
          (tmr s (fld s (Fld.TMR_TRIG_ASRC n))).cyc.evts.testBit (fld s (Fld.TMR_TRIG_AEVT n)) = false) ∨
        (fld s (Fld.TMR_CCFG_CAPSRC n) = 9 ∧
          (tmr s (fld s (Fld.TMR_TRIG_BSRC n))).cyc.evts.testBit (fld s (Fld.TMR_TRIG_BEVT n)) = false) →
      exec (.capture n) s = .next s) ∧
    (captureDue s n = true →
      ∃ t, exec (.capture n) s = .next t ∧ fld t (Fld.TMR_STAT_CAP n) = 1 ∧
        ((tmr s n).caps.length < 4 → (tmr t n).caps = (tmr s n).caps ++ [reg s (Adr.TMR_CNT n)] ∧
          reg t (Adr.TMR_CAP n) = (tmr t n).caps.headD 0 ∧ fld t (Fld.TMR_STAT_CAPN n) = (tmr t n).caps.length) ∧
        (4 ≤ (tmr s n).caps.length → (tmr t n).caps = (tmr s n).caps ∧ fld t (Fld.TMR_STAT_OVR n) = 1) ∧
        (∀ m : Nat, m ≠ n → tmr t m = tmr s m) ∧
        FldsKept ([Fld.TMR_STAT_CAP n, Fld.TMR_STAT_OVR n, Fld.TMR_STAT_CAPN n, whole (Adr.TMR_CAP n), intBit 53] ++
          (List.range 8).map Fld.TMR_TOUT_LEVEL) s t ∧ t = { s with regs := t.regs, fresh := t.fresh, tmr := t.tmr, tout := t.tout }) ∧
    (permitted s lvl (Adr.TMR_CAP n) false = true →
      ((tmr s n).caps = [] → exec (.tmrCapRead lvl n) s = .next s) ∧
      ((tmr s n).caps ≠ [] → (tmr s n).cyc.lost = none →
        ∃ t, exec (.tmrCapRead lvl n) s = .next t ∧ (tmr t n).caps = (tmr s n).caps.tail ∧
          reg t (Adr.TMR_CAP n) = (tmr s n).caps.tail.headD 0 ∧
          fld t (Fld.TMR_STAT_CAPN n) = ((tmr s n).caps.length - 1) % 8 ∧
          FldsKept [whole (Adr.TMR_CAP n), Fld.TMR_STAT_CAPN n] s t ∧ t = { s with regs := t.regs, fresh := t.fresh, tmr := t.tmr }) ∧
      (∀ v ovr irq, (tmr s n).caps ≠ [] → (tmr s n).cyc.lost = some (v, ovr, irq) →
        ∃ t, exec (.tmrCapRead lvl n) s = .next t ∧ (tmr t n).caps = (tmr s n).caps.tail ++ [v] ∧ (tmr t n).cyc.lost = none ∧
          (ovr = false → fld t (Fld.TMR_STAT_OVR n) = 0) ∧
          FldsKept [whole (Adr.TMR_CAP n), Fld.TMR_STAT_CAPN n, Fld.TMR_STAT_OVR n, intBit 53] s t ∧
          t = { s with regs := t.regs, fresh := t.fresh, tmr := t.tmr })) ∧
    (permitted s lvl (Adr.TMR_CTRL n) true = true → (tmr s n).cyc.gcmd = 0 →
      ∃ t, exec (.capclr lvl n) s = .next t ∧ (tmr t n).caps = [] ∧ fld t (Fld.TMR_STAT_CAPN n) = 0))

/-- TIMER_WRAP, COMPARE_FIRE, TRIGGER_ACTION (R512, R514, R519, R524): what the timer itself does. -/
def Obligations.TimerEventsReachTheirTimer : Prop :=
  ∀ (s : State) (n : Fin 16) (k : Fin 4) (i : TrigInput),
    (counting s n = false ∨ countLost s n = true → exec (.timerWrap n) s = .next s) ∧
    (∀ b : Word, counting s n = true → countLost s n = false → b = (tmr s n).cyc.oldBuf.getD (reg s (Adr.TMR_BUF n)) →
      ∃ t, exec (.timerWrap n) s = .next t ∧ flag t (Fld.TMR_STAT_ZERO n) = true ∧
        reg t (Adr.TMR_CNT n) = (if fld s (Fld.TMR_CFG_MODE n) < 2 then b else 0) ∧ (tmr t n).buf = b ∧
        ((tmr s n).cyc.snapped = true → reg t (Adr.TMR_SNAPV n) = reg t (Adr.TMR_CNT n)) ∧
        fld t (Fld.TMR_STAT_RUN n) = (if fld s (Fld.TMR_CFG_MODE n) % 2 = 1 then 0 else fld s (Fld.TMR_STAT_RUN n)) ∧
        (∀ m < n.val, tmr t m = tmr s m ∧ reg t (Adr.TMR_CNT m) = reg s (Adr.TMR_CNT m)) ∧
        FldsKept (timerEventFlds ++ (List.range 16).flatMap fun m =>
          [whole (Adr.TMR_STAT m), whole (Adr.TMR_CNT m), whole (Adr.TMR_SNAPV m)]) s t ∧
        t = { s with regs := t.regs, fresh := t.fresh, tmr := t.tmr, tout := t.tout, qtz := t.qtz, modes := t.modes }) ∧
    (∀ v : Word, tmrPowered s n = true → (tmr s n).cyc.oldCmp.lookup k.val = some v →
      (2 ^ 31 ≤ (cmpFrom s n v).toNat → exec (.compareFire n k) s = .next s) ∧
      ((cmpFrom s n v).toNat < 2 ^ 31 →
        ∃ t, exec (.compareFire n k) s = .next t ∧ flag t ⟨Adr.TMR_STAT n, k, k⟩ = true ∧
          FldsKept (timerEventFlds ++ [⟨Adr.TMR_STAT n, k, k⟩]) s t ∧
          t = { s with regs := t.regs, fresh := t.fresh, tmr := t.tmr, tout := t.tout, qtz := t.qtz, modes := t.modes })) ∧
    ((tmr s n).cyc.oldCmp.lookup k.val = none →
      (fld s (Fld.TMR_STAT_ARMED n)).testBit k = false ∨ (tmr s n).fresh.testBit k = true ∨ tmrPowered s n = false →
      exec (.compareFire n k) s = .next s) ∧
    ((fld s (Fld.TMR_STAT_ARMED n)).testBit k = true → tmrPowered s n = true → cmpReached s n k = true →
      (tmr s n).cyc.oldCmp.lookup k.val = none → (tmr s n).fresh.testBit k = false →
      ∃ t, exec (.compareFire n k) s = .next t ∧ flag t ⟨Adr.TMR_STAT n, k, k⟩ = true ∧
        fld t (Fld.TMR_STAT_ARMED n) = fld s (Fld.TMR_STAT_ARMED n) &&& (15 ^^^ 2 ^ k.val) ∧
        FldsKept (timerEventFlds ++ [⟨Adr.TMR_STAT n, k, k⟩, ⟨Adr.TMR_STAT n, 8 + k, 8 + k⟩, Fld.TMR_STAT_ARMED n]) s t ∧
        t = { s with regs := t.regs, fresh := t.fresh, tmr := t.tmr, tout := t.tout, qtz := t.qtz, modes := t.modes }) ∧
    (trigDue s n .a = false → (i = .b → trigDue s n .b = false) → exec (.triggerAction n i) s = .next s) ∧
    (trigDue s n i = true → (i = .b → trigDue s n .a = false) → trigAct s n i = 3 → fld s (Fld.TMR_STAT_RUN n) ≠ 1 →
      ∃ t, exec (.triggerAction n i) s = .next t ∧ fld t (Fld.TMR_STAT_RUN n) = 1 ∧ (tmr t n).psc = 0 ∧
        FldsKept [Fld.TMR_STAT_RUN n, Fld.TMR_STAT_GATE n] s t ∧ t = { s with regs := t.regs, fresh := t.fresh, tmr := t.tmr }) ∧
    (trigDue s n i = true → (i = .b → trigDue s n .a = false) → trigAct s n i = 1 →
      ∃ t, exec (.triggerAction n i) s = .next t ∧
        fld t (Fld.TMR_STAT_GATE n) = (if flag s (Fld.TMR_STAT_GATE n) then 0 else 1) ∧ trigDue t n i = false ∧
        FldsKept [Fld.TMR_STAT_GATE n] s t ∧ t = { s with regs := t.regs, fresh := t.fresh, tmr := t.tmr }) ∧
    (trigDue s n i = true → (i = .b → trigDue s n .a = false) → trigAct s n i = 2 →
      ∃ t, exec (.triggerAction n i) s = .next t ∧
        reg t (Adr.TMR_CNT n) = (if fld s (Fld.TMR_CFG_MODE n) < 2 then reg s (Adr.TMR_BUF n) else 0) ∧
        FldsKept [whole (Adr.TMR_CNT n), whole (Adr.TMR_SNAPV n), Fld.TMR_STAT_ARMED n] s t ∧
        t = { s with regs := t.regs, fresh := t.fresh, tmr := t.tmr })

/-! ### Quartz -/

/-- SETTIME, SET_NOW, QTZ_CANCEL, PWR_RELEASE, PWR_ASSERT: the commands of `QTZ_CMD` (R541, R542, R554, R555, R557). The check
of R542 is `stagedTime`. QTZ_TIME0_READ, SHIFT_REQUEST, COUNTDOWN_WRITE (R540, R544, R545, R552). -/
def Obligations.QuartzCommandsAndRegisters : Prop :=
  (∀ (s : State) (lvl : Level) (key : BitVec 16) (clr : Bool), permitted s lvl Adr.QTZ_CMD true = true →
    (key ≠ 0xA55A →
      ∃ t, fld t Fld.QTZ_STAT_CMDRES = 4 ∧ OnlyFlds [Fld.QTZ_STAT_CMDRES] s t ∧ exec (.settime lvl key clr) s = .next t ∧
        exec (.qtzCancel lvl key) s = .next t ∧ exec (.pwrRelease lvl key) s = .next t ∧
        exec (.pwrAssert lvl key) s = .next t) ∧
    (stagedTime s = none →
      ∃ t, exec (.settime lvl 0xA55A clr) s = .next t ∧ fld t Fld.QTZ_STAT_CMDRES = 2 ∧ flag t Fld.QTZ_STAT_BADDATE = true ∧
        OnlyFlds [Fld.QTZ_STAT_CMDRES, Fld.QTZ_STAT_BADDATE] s t) ∧
    (∀ n, stagedTime s = some n →
      exec (.settime lvl 0xA55A clr) s = .next { s with qtz := { s.qtz with pendingSet := some ⟨n, clr⟩ } } ∧
      (s.clk.osc = false → exec (.setNow lvl 0xA55A clr) s =
        .next { s with qtz := { s.qtz with pendingNow := some ⟨n, clr⟩, pendingSet := none } }) ∧
      (s.clk.osc = true →
        ∃ t, exec (.setNow lvl 0xA55A clr) s = .next t ∧ t.qtz.secs = n % (146097 * 86400) ∧ t.qtz.sub = 0 ∧
          t.qtz.pendingSet = none ∧ t.qtz.pendingNow = none ∧ t.mem = s.mem)) ∧
    (s.qtz.pendingSet ≠ none →
      ∃ t, exec (.qtzCancel lvl 0xA55A) s = .next t ∧ t.qtz = { s.qtz with pendingSet := none } ∧
        fld t Fld.QTZ_STAT_CMDRES = 3 ∧ FldsKept [Fld.QTZ_STAT_CMDRES] s t ∧ t = { s with regs := t.regs, fresh := t.fresh, qtz := t.qtz }) ∧
    (s.qtz.pendingSet = none → exec (.qtzCancel lvl 0xA55A) s = .next s) ∧
    (∃ t, exec (.pwrRelease lvl 0xA55A) s = .next t ∧ fld t Fld.QTZ_STAT_PWRON = 0 ∧
        t.qtz = { s.qtz with pulseFrom := none } ∧ FldsKept [Fld.QTZ_STAT_PWRON] s t ∧
        t = { s with regs := t.regs, fresh := t.fresh, qtz := t.qtz }) ∧
    (∃ t, exec (.pwrAssert lvl 0xA55A) s = .next t ∧ fld t Fld.QTZ_STAT_PWRON = 1 ∧
        t.qtz.pulseFrom = (if fld s Fld.QTZ_PWRON_PULSE = 1 then some s.clk.now else none) ∧
        t.qtz = { s.qtz with pulseFrom := t.qtz.pulseFrom } ∧ FldsKept [Fld.QTZ_STAT_PWRON] s t ∧
        t = { s with regs := t.regs, fresh := t.fresh, qtz := t.qtz })) ∧
  (∀ (s : State) (lvl : Level) (value : Word),
    (permitted s lvl Adr.QTZ_TIME0 false = true →
      ∃ t, exec (.qtzTime0Read lvl) s = .next t ∧ reg t Adr.QTZ_TIME0 = timeWord s.qtz.secs s.qtz.sub ∧
        reg t Adr.QTZ_TIME1 = dateWord s.qtz.secs ∧ (reg t Adr.QTZ_Q64H).toNat = q64 s / 2 ^ 32 % 2 ^ 32 ∧
        (reg t Adr.QTZ_Q64L).toNat = q64 s % 2 ^ 32 ∧
        OnlyFlds [whole Adr.QTZ_TIME0, whole Adr.QTZ_TIME1, whole Adr.QTZ_Q64H, whole Adr.QTZ_Q64L] s t) ∧
    (permitted s lvl Adr.QTZ_SHIFT true = true →
      ∃ t, exec (.shiftRequest lvl value) s = .next t ∧
        t.qtz.pendingShift = some (s.qtz.pendingShift.getD (32768 * (bitsOf value 31 31 : Int) - (bitsOf value 14 0 : Int))) ∧
        t.qtz = { s.qtz with pendingShift := t.qtz.pendingShift } ∧ FldsKept [Fld.HSP_STAT_RANGE] s t ∧
        t = { s with regs := t.regs, fresh := t.fresh, qtz := t.qtz }) ∧
    (permitted s lvl Adr.QTZ_CDN true = true →
      ∃ t, exec (.countdownWrite lvl value) s = .next t ∧ fld t Fld.QTZ_CDN_COUNT = bitsOf value 23 0 ∧
        fld t Fld.QTZ_CDN_RELOAD = bitsOf value 31 31 ∧ fld t Fld.QTZ_CDN_RUN = (if bitsOf value 23 0 = 0 then 0 else 1) ∧
        t.qtz = { s.qtz with cdnReload := bitsOf value 23 0 } ∧
        FldsKept [whole Adr.QTZ_CDN, Fld.HSP_STAT_RANGE] s t ∧ t = { s with regs := t.regs, fresh := t.fresh, qtz := t.qtz }))

/-- COUNTDOWN_ZERO (R552): the flag, the interrupt, the wake source, and the reload or the stop. OSC_STOP, OSC_RESTART,
VBAT_CHECK, VBAT_LOSS, VBAT_RETURN, PWRON_PULSE_END (R345, R536, R551, R554). -/
def Obligations.CountdownOscillatorBackup : Prop :=
  (∀ s : State, fld s Fld.QTZ_CDN_RUN = 1 →
    ∃ t, exec .countdownZero s = .next t ∧ flag t Fld.QTZ_STAT_CDN = true ∧ flag t (intBit 50) = true ∧
      (fld s Fld.QTZ_CDN_RELOAD = 1 → fld t Fld.QTZ_CDN_COUNT = s.qtz.cdnReload % 2 ^ 24 ∧ fld t Fld.QTZ_CDN_RUN = 1) ∧
      (fld s Fld.QTZ_CDN_RELOAD = 0 → fld t Fld.QTZ_CDN_COUNT = 0 ∧ fld t Fld.QTZ_CDN_RUN = 0) ∧
      ((fld s Fld.QTZ_PWRON_SRCEN).testBit 1 = true → fld s Fld.SYS_MODE_MODE ≠ 0 → fld t Fld.QTZ_STAT_PWRON = 1) ∧
      (fld s Fld.SYS_MODE_MODE ≠ 0 → (reg s Adr.SYS_WAKEEN).toNat.testBit 1 = true →
        (reg t Adr.SYS_WAKESRC).toNat.testBit 1 = true) ∧
      FldsKept ([Fld.QTZ_CDN_COUNT, Fld.QTZ_CDN_RUN, Fld.QTZ_STAT_CDN, intBit 50] ++ wakeFlds) s t ∧
      t = { s with regs := t.regs, fresh := t.fresh, qtz := t.qtz, modes := t.modes }) ∧
  (∀ s : State,
    (∃ t, exec .oscStop s = .next t ∧ t.clk = { s.clk with osc := false } ∧ flag t Fld.QTZ_STAT_OSF = true ∧
      flag t (intBit 51) = true ∧ FldsKept [Fld.QTZ_STAT_OSF, intBit 51] s t ∧ t = { s with regs := t.regs, fresh := t.fresh, clk := t.clk }) ∧
    (s.qtz.pendingNow = none → exec .oscRestart s = .next { s with clk := { s.clk with osc := true } }) ∧
    (s.pins.vbat = true → ∃ t, exec (.vbatCheck true) s = .next t ∧ flag t Fld.QTZ_STAT_VBATLOW = true ∧
      OnlyFlds [Fld.QTZ_STAT_VBATLOW] s t) ∧
    exec (.vbatCheck false) s = .next s ∧
    exec .vbatLoss s = .next { s with pins := { s.pins with vbat := false } } ∧
    exec .vbatReturn s = .next { s with pins := { s.pins with vbat := true } } ∧
    (s.qtz.pulseFrom ≠ none → ∃ t, exec .pwronPulseEnd s = .next t ∧ fld t Fld.QTZ_STAT_PWRON = 0 ∧
      t.qtz = { s.qtz with pulseFrom := none } ∧ FldsKept [Fld.QTZ_STAT_PWRON] s t ∧
      t = { s with regs := t.regs, fresh := t.fresh, qtz := t.qtz }))

/-- SECOND_BOUNDARY without a pending time set (R537, R538, R544): the calendar moves to the next second and wraps after 400
years, and a pending shift jumps forwards or holds. TRIM_ADJUSTMENT, MAINSZC_EDGE, AUTOTRIM_EDGE_TIMEOUT, AUTOTRIM_WINDOW_END
(R546, R548, R550). -/
def Obligations.SecondsAndTrim : Prop :=
  (∀ s : State, s.clk.osc = true → s.qtz.pendingSet = none →
    ∃ t, exec .secondBoundary s = .next t ∧ t.qtz.pendingShift = none ∧ t.mem = s.mem ∧ t.tmr = s.tmr ∧
      (s.qtz.pendingShift.getD 0 < 32768 → t.qtz.secs = (s.qtz.secs + 1) % (146097 * 86400)) ∧
      (s.qtz.pendingShift.getD 0 = 0 → t.qtz.sub = 0 ∧ t.qtz.hold = s.qtz.hold) ∧
      (s.qtz.pendingShift.getD 0 < 0 → t.qtz.sub = 0 ∧ t.qtz.hold = (-(s.qtz.pendingShift.getD 0)).toNat) ∧
      (0 < s.qtz.pendingShift.getD 0 → s.qtz.pendingShift.getD 0 < 32768 →
        (t.qtz.sub : Int) = s.qtz.pendingShift.getD 0) ∧
      (s.qtz.pendingShift = some 32768 → t.qtz.secs = (s.qtz.secs + 2) % (146097 * 86400) ∧ t.qtz.sub = 0)) ∧
  (∀ s : State,
    (s.clk.osc = true → trimT s < 0 → s.qtz.trimDone < (trimT s).natAbs →
      exec .trimAdjustment s = .next { s with qtz := { s.qtz with trimDone := s.qtz.trimDone + 1, drop := s.qtz.drop + 1 } }) ∧
    (s.clk.osc = true → 0 < trimT s → s.qtz.trimDone < (trimT s).natAbs → s.qtz.hold = 0 → s.qtz.sub < 32767 →
      ∃ t, exec .trimAdjustment s = .next t ∧ t.qtz.sub = s.qtz.sub + 1 ∧ t.qtz.trimDone = s.qtz.trimDone + 1 ∧
        t.qtz.secs = s.qtz.secs ∧ FldsKept [Fld.QTZ_CDN_COUNT] s t ∧
        t = { s with regs := t.regs, fresh := t.fresh, qtz := t.qtz, clk := t.clk }) ∧
    (fld s Fld.QTZ_ATRIM_SRC = 1 →
      (s.qtz.window = none → s.qtz.pendingTrim = none → exec .mainszcEdge s = .next { s with qtz := { s.qtz with window := some {} } }) ∧
      (s.qtz.window = none → s.qtz.pendingTrim ≠ none → exec .mainszcEdge s = .next s) ∧
      (∀ w, s.qtz.window = some w →
        (w.sinceEdge * mainsRate s * 10 < 4 * 32768 → exec .mainszcEdge s = .next s) ∧
        (4 * 32768 ≤ w.sinceEdge * mainsRate s * 10 → exec .mainszcEdge s =
          .next { s with qtz := { s.qtz with window := some { w with edges := w.edges + 1, sinceEdge := 0 } } }) ∧
        (∃ t, exec .autotrimEdgeTimeout s = .next t ∧ t.qtz = { s.qtz with window := none } ∧
          flag t Fld.QTZ_STAT_ATREJ = true ∧ fld t Fld.QTZ_ATSTAT_REJECTS = min 255 (fld s Fld.QTZ_ATSTAT_REJECTS + 1) ∧
          FldsKept [Fld.QTZ_STAT_ATREJ, Fld.QTZ_ATSTAT_REJECTS] s t ∧ t = { s with regs := t.regs, fresh := t.fresh, qtz := t.qtz }) ∧
        (windowEdges s ≤ w.edges → ∃ t, exec .autotrimWindowEnd s = .next t ∧ t.qtz.window = none ∧
          (fld s Fld.QTZ_ATRIM_LIMIT * windowPeriods s < ((w.periods : Int) - windowPeriods s).natAbs * 1000000 →
            flag t Fld.QTZ_STAT_ATREJ = true ∧ t.qtz.pendingTrim = s.qtz.pendingTrim) ∧
          FldsKept [Fld.QTZ_STAT_ATREJ, Fld.QTZ_ATSTAT_REJECTS, Fld.QTZ_ATSTAT_MEAS] s t ∧
          t = { s with regs := t.regs, fresh := t.fresh, qtz := t.qtz, lnk := t.lnk }))))

/-- The calendar of R537: every date from 2000 to 2399 reads back from its count of seconds. -/
def Obligations.CalendarReadsBackEveryDate : Prop :=
  ∀ y mo d h mi se sub : Nat, 2000 ≤ y → y ≤ 2399 → 1 ≤ mo → mo ≤ 12 → 1 ≤ d → d ≤ monthDays y mo → h ≤ 23 → mi ≤ 59 →
    se ≤ 59 → sub < 32768 →
    secsOf y mo d h mi se < 146097 * 86400 ∧
    bitsOf (dateWord (secsOf y mo d h mi se)) 31 20 = y ∧ bitsOf (dateWord (secsOf y mo d h mi se)) 19 16 = mo ∧
    bitsOf (dateWord (secsOf y mo d h mi se)) 15 11 = d ∧
    bitsOf (dateWord (secsOf y mo d h mi se)) 10 8 = (secsOf y mo d h mi se / 86400 + 5) % 7 + 1 ∧
    bitsOf (timeWord (secsOf y mo d h mi se) sub) 31 17 = sub ∧ bitsOf (timeWord (secsOf y mo d h mi se) sub) 16 12 = h ∧
    bitsOf (timeWord (secsOf y mo d h mi se) sub) 11 6 = mi ∧ bitsOf (timeWord (secsOf y mo d h mi se) sub) 5 0 = se

/-! ### Calibration -/

/-- CAL_RUN, SAVE, RESTORE (R561, R564, R572, R573, R575): refused by their reason, or done; SAVE and RESTORE take their turn on
the memory port, or wait for it with BUSY set (log entry 35). -/
def Obligations.CalibrationRunsSavesAndRestores : Prop :=
  ∀ (s : State) (lvl : Level) (r : Request), permitted s lvl Adr.CAL_CMD true = true → r = mspRequest .calStore .c1 →
    (∀ key item inst, key ≠ 0xA55A ∨ flag s Fld.CAL_STAT_BUSY = true → exec (.calRun lvl key item inst) s = .next s) ∧
    (flag s Fld.CAL_STAT_BUSY = false →
      (∀ (item : BitVec 4) (inst : Byte), item.toNat = 0 ∨ 6 < item.toNat ∨ runInstances item.toNat ≤ inst.toNat →
        ∃ t, exec (.calRun lvl 0xA55A item inst) s = .next t ∧ fld t Fld.CAL_STAT_RESULT = 2 ∧
          fld t Fld.CAL_STAT_REASON = rsnRange ∧ OnlyFlds [Fld.CAL_STAT_RESULT, Fld.CAL_STAT_REASON] s t) ∧
      (∀ (item : BitVec 4) (inst : Byte), 0 < item.toNat → item.toNat ≤ 6 → inst.toNat < runInstances item.toNat →
        (calInUse s item.toNat inst.toNat = false →
          ∃ t, exec (.calRun lvl 0xA55A item inst) s = .next t ∧ fld t Fld.CAL_STAT_RESULT = 2 ∧
            fld t Fld.CAL_STAT_REASON = rsnRef ∧ OnlyFlds [Fld.CAL_STAT_RESULT, Fld.CAL_STAT_REASON] s t) ∧
        (calInUse s item.toNat inst.toNat = true →
          ∃ t, exec (.calRun lvl 0xA55A item inst) s = .next t ∧ fld t Fld.CAL_STAT_RESULT = 1 ∧
            (calInst t item.toNat inst.toNat).due = true ∧ FldsKept (Fld.CAL_STAT_RESULT :: cxFlds) s t ∧
            t = { s with regs := t.regs, fresh := t.fresh, cal := t.cal, sched := t.sched })) ∧
      (supervisorLevel lvl = false →
        (∀ items ok, ∃ t, exec (.save lvl 0xA55A items ok) s = .next t ∧ fld t Fld.CAL_STAT_RESULT = 2 ∧
          fld t Fld.CAL_STAT_REASON = 0x40 ∧ OnlyFlds [Fld.CAL_STAT_RESULT, Fld.CAL_STAT_REASON] s t) ∧
        ∀ items, ∃ t, exec (.restore lvl 0xA55A items) s = .next t ∧ fld t Fld.CAL_STAT_RESULT = 2 ∧
          fld t Fld.CAL_STAT_REASON = 0x40 ∧ OnlyFlds [Fld.CAL_STAT_RESULT, Fld.CAL_STAT_REASON] s t) ∧
      (supervisorLevel lvl = true → turnNow s r = true →
        (∀ (items : Byte) (second : Bool) (bs : List Byte), second = (saveNewest s).elim false (fun p => !p.1) →
          bs = saveBytes s ((saveNewest s).elim 0 (fun p => p.2.1) + 1) items.toNat →
          (∃ t, exec (.save lvl 0xA55A items true) s = .next t ∧ fld t Fld.CAL_STAT_RESULT = 1 ∧
            (∀ k, k < bs.length → byteAt t.mem.nor (saveHalf second + k) = bs.getD k 0) ∧
            (∀ a, a < saveHalf second ∨ saveHalf second + (bs.length + 4095) / 4096 * 4096 ≤ a →
              byteAt t.mem.nor a = byteAt s.mem.nor a) ∧
            FldsKept [Fld.CAL_STAT_RESULT, Fld.SYS_RES_GRANT_GRANTS resMsp] s t ∧ TurnTaken s t ∧
            t = { s with regs := t.regs, fresh := t.fresh, mem := { s.mem with nor := t.mem.nor }, sched := t.sched }) ∧
          (∃ t, exec (.save lvl 0xA55A items false) s = .next t ∧ fld t Fld.CAL_STAT_RESULT = 5 ∧
            (∀ a, a < saveHalf second ∨ saveHalf second + (bs.length + 4095) / 4096 * 4096 ≤ a →
              byteAt t.mem.nor a = byteAt s.mem.nor a) ∧
            FldsKept [Fld.CAL_STAT_RESULT, Fld.SYS_RES_GRANT_GRANTS resMsp] s t ∧ TurnTaken s t ∧
            t = { s with regs := t.regs, fresh := t.fresh, mem := { s.mem with nor := t.mem.nor }, drawn := t.drawn,
                         sched := t.sched })) ∧
        (∀ items, saveNewest s = none →
          ∃ t, exec (.restore lvl 0xA55A items) s = .next t ∧ fld t Fld.CAL_STAT_RESULT = 2 ∧
            fld t Fld.CAL_STAT_REASON = 0x42 ∧ TurnTaken s t ∧
            FldsKept [Fld.CAL_STAT_RESULT, Fld.CAL_STAT_REASON, Fld.SYS_RES_GRANT_GRANTS resMsp] s t ∧
            t = { s with regs := t.regs, fresh := t.fresh, sched := t.sched }) ∧
        (∀ (items : Byte) half recs, saveNewest s = some (half, recs) →
          ∃ t, exec (.restore lvl 0xA55A items) s = .next t ∧ fld t Fld.CAL_STAT_RESULT = 1 ∧
            (∀ r ∈ recs.2, r.type = 5 → (argItems items.toNat).contains (r.arg % 256) = true → r.flags.testBit 0 = true →
              (r.arg % 256, r.arg / 256 % 256) ∈ t.boot.trusted) ∧
            t.mem = s.mem ∧ t.slate = s.slate ∧ t.pins = s.pins ∧ t.pending = s.pending)) ∧
      (supervisorLevel lvl = true → turnNow s r = false → ∀ items ok,
        (∃ t, exec (.save lvl 0xA55A items ok) s = .next t ∧ flag t Fld.CAL_STAT_BUSY = true ∧
          TurnWaits s t r (.save lvl 0xA55A items ok) ∧ FldsKept (Fld.CAL_STAT_BUSY :: cxFlds) s t ∧
          t = { s with regs := t.regs, fresh := t.fresh, sched := t.sched }) ∧
        ∃ t, exec (.restore lvl 0xA55A items) s = .next t ∧ flag t Fld.CAL_STAT_BUSY = true ∧
          TurnWaits s t r (.restore lvl 0xA55A items) ∧ FldsKept (Fld.CAL_STAT_BUSY :: cxFlds) s t ∧
          t = { s with regs := t.regs, fresh := t.fresh, sched := t.sched }))

/-- TRACE_RX, TRACE_TX, TRACE_END, TRACE_TIMEOUT (R570): a trace is for SUPERVISOR level in SERVICE, moves the offset or the
detector codes by what it measures, and ends after 60 s. -/
def Obligations.TracesCorrectTheLevels : Prop :=
  ∀ (s : State) (lvl : Level),
    (permitted s lvl Adr.CAL_CMD true = true → flag s Fld.CAL_STAT_BUSY = false → supervisorLevel lvl = true →
      (mode s ≠ 5 →
        (∀ chain measured ferr, ∃ t, exec (.traceRx lvl 0xA55A chain measured ferr) s = .next t ∧
          fld t Fld.CAL_STAT_RESULT = 2 ∧ fld t Fld.CAL_STAT_REASON = 0x41 ∧
          OnlyFlds [Fld.CAL_STAT_RESULT, Fld.CAL_STAT_REASON] s t) ∧
        (∃ t, exec (.traceTx lvl 0xA55A) s = .next t ∧ fld t Fld.CAL_STAT_RESULT = 2 ∧ fld t Fld.CAL_STAT_REASON = 0x41 ∧
          OnlyFlds [Fld.CAL_STAT_RESULT, Fld.CAL_STAT_REASON] s t) ∧
        (∃ t, exec (.traceEnd lvl 0xA55A) s = .next t ∧ fld t Fld.CAL_STAT_RESULT = 2 ∧ fld t Fld.CAL_STAT_REASON = 0x41 ∧
          OnlyFlds [Fld.CAL_STAT_RESULT, Fld.CAL_STAT_REASON] s t)) ∧
      (mode s = 5 →
        (∀ (chain : Fin 4) (measured ferr : Int), turnNow s (traceRxRequest chain) = false →
          ∃ t, exec (.traceRx lvl 0xA55A chain measured ferr) s = .next t ∧ fld t Fld.CAL_STAT_BUSY = 1 ∧
            t.cal = { s.cal with rxTrace := some (chain.val, measured, ferr) } ∧ t.sched.grants = s.sched.grants ∧
            t.sched.ops = s.sched.ops ∧
            (mayPost s .calStore = true → t.sched.requests = s.sched.requests ++ [asPostedNow s (traceRxRequest chain)]) ∧
            FldsKept (Fld.CAL_STAT_BUSY :: cxFlds) s t ∧
            t = { s with regs := t.regs, fresh := t.fresh, cal := t.cal, sched := t.sched }) ∧
        (∀ (chain : Fin 4) (measured ferr : Int), turnNow s (traceRxRequest chain) = true →
          600 < (refPower s - measured).natAbs ∨ 5000 < ferr.natAbs →
          ∃ t, exec (.traceRx lvl 0xA55A chain measured ferr) s = .next t ∧ fld t Fld.CAL_STAT_RESULT = 3 ∧
            FldsKept [Fld.CAL_STAT_RESULT, Fld.SYS_RES_GRANT_GRANTS (resPath .b), Fld.SYS_RES_GRANT_GRANTS (resRxc chain)] s t ∧
            TurnTaken s t ∧ t = { s with regs := t.regs, fresh := t.fresh, clk := t.clk, sched := t.sched }) ∧
        (∀ (chain : Fin 4) (measured ferr : Int), turnNow s (traceRxRequest chain) = true →
          (refPower s - measured).natAbs ≤ 600 → ferr.natAbs ≤ 5000 → (calInst s 4 0).staged = false → tracedOf s 4 0 = [] →
          ∃ t, exec (.traceRx lvl 0xA55A chain measured ferr) s = .next t ∧ fld t Fld.CAL_STAT_RESULT = 1 ∧
            fld t Fld.CAL_SVCRES_DELTA = unsignedOf 16 (refPower s - measured) ∧
            fld t Fld.CAL_SVCRES_FERR = unsignedOf 16 ferr ∧
            (fld s Fld.RAD_STATE_CHON = 0 → flag s (cPend ⟨.cal, 0⟩) = false →
              flag t Fld.CAL_STAT_APPLIED = true ∧ flag t (intBit 54) = true ∧
              fld t (Fld.CAL_ALIGN_RXOFS chain) = unsignedOf 8 (clampInt (-128) 127
                (signedOf 8 (fld s (Fld.CAL_ALIGN_RXOFS chain)) + roundHalfAway (refPower s - measured) 5))) ∧
            FldsKept [whole Adr.CAL_STAT, whole Adr.CAL_SVCRES, Fld.CAL_ALIGN_RXOFS chain, intBit 54,
              Fld.SYS_RES_GRANT_GRANTS (resPath .b), Fld.SYS_RES_GRANT_GRANTS (resRxc chain)] s t ∧ TurnTaken s t ∧
            t = { s with regs := t.regs, fresh := t.fresh, clk := t.clk, cal := t.cal, radio := t.radio, shadow := t.shadow
                         sched := t.sched }) ∧
        (profile s = 0 ∨ (profileChans s).contains (fld s Fld.CAL_REFCH_CHAN) = false →
          ∃ t, exec (.traceTx lvl 0xA55A) s = .next t ∧ fld t Fld.CAL_STAT_RESULT = 2 ∧
            fld t Fld.CAL_STAT_REASON = rsnProfile ∧ OnlyFlds [Fld.CAL_STAT_RESULT, Fld.CAL_STAT_REASON] s t) ∧
        (profile s ≠ 0 → (profileChans s).contains (fld s Fld.CAL_REFCH_CHAN) = true →
          (fld s Fld.CAL_REFCH_INDEX < 4 →
            ∃ t, exec (.traceTx lvl 0xA55A) s = .next t ∧ fld t Fld.CAL_STAT_RESULT = 2 ∧
              fld t Fld.CAL_STAT_REASON = rsnRange ∧ OnlyFlds [Fld.CAL_STAT_RESULT, Fld.CAL_STAT_REASON] s t) ∧
          (4 ≤ fld s Fld.CAL_REFCH_INDEX →
            ∃ t, exec (.traceTx lvl 0xA55A) s = .next t ∧ fld t Fld.CAL_STAT_BUSY = 1 ∧
              t.cal.trace = some (fld s Fld.CAL_REFCH_PORT, fld s Fld.CAL_REFCH_INDEX, fld s Fld.CAL_REFCH_CHAN) ∧
              (mayPost s .calTrace = true → t.sched.grants = s.sched.grants ∧ ∃ q, t.sched.requests = s.sched.requests ++ [q] ∧
                q.who = .calTrace ∧ q.cls = .c3 ∧ q.kind = .trace 60000) ∧
              FldsKept (Fld.CAL_STAT_BUSY :: cxFlds ++ pathFlds) s t ∧
              t = { s with regs := t.regs, fresh := t.fresh, clk := t.clk, cal := { s.cal with trace := t.cal.trace }, brm := t.brm
                           radio := t.radio, sched := t.sched })) ∧
        (s.cal.trace = none →
          ∃ t, exec (.traceEnd lvl 0xA55A) s = .next t ∧ fld t Fld.CAL_STAT_RESULT = 3 ∧
            OnlyFlds [Fld.CAL_STAT_RESULT] s t) ∧
        (∀ port idx c, s.cal.trace = some (port, idx, c) → port < 4 → paOf s port = none →
          (38100 < (127 * refPower s - (-114300 + 3200 * (idx : Int))).natAbs →
            ∃ t, exec (.traceEnd lvl 0xA55A) s = .next t ∧ fld t Fld.CAL_STAT_RESULT = 3 ∧ t.cal.trace = none ∧
              grantOf t .calTrace = none ∧
              t.sched.grants.filter (fun g => g.who != .calTrace) = s.sched.grants.filter (fun g => g.who != .calTrace) ∧
              FldsKept (Fld.CAL_STAT_RESULT :: Fld.CAL_STAT_BUSY :: cxFlds ++ pathFlds) s t ∧
              t = { s with regs := t.regs, fresh := t.fresh, clk := t.clk, cal := t.cal, brm := t.brm, radio := t.radio
                           sched := t.sched }) ∧
          ((127 * refPower s - (-114300 + 3200 * (idx : Int))).natAbs ≤ 38100 → (calInst s 2 port).staged = false →
            tracedOf s 2 port = [] →
            ∃ t, exec (.traceEnd lvl 0xA55A) s = .next t ∧ fld t Fld.CAL_STAT_RESULT = 1 ∧ t.cal.trace = none ∧
              fld t Fld.CAL_SVCRES_DELTA =
                unsignedOf 16 (roundHalfAway (127 * refPower s - (-114300 + 3200 * (idx : Int))) 127) ∧
              FldsKept ([whole Adr.CAL_STAT, whole Adr.CAL_SVCRES, intBit 54] ++ cxFlds ++ pathFlds ++
                (List.range 128).map fun i => Fld.RAD_PWR_DET (128 * port + i)) s t ∧
              t = { s with regs := t.regs, fresh := t.fresh, clk := t.clk, cal := t.cal, brm := t.brm, radio := t.radio
                           shadow := t.shadow, sched := t.sched })))) ∧
    (∀ port idx c, s.cal.trace = some (port, idx, c) → port < 4 → idx < 128 → (grantOf s .calTrace).isSome = true →
      pathState s .a = 1 →
      pathState (traceGo s) .a = 6 ∧ flag (traceGo s) Fld.RAD_STATE_ACARR = true ∧ fld (traceGo s) Fld.RAD_TXA_STAT_IDX = idx ∧
        fld (traceGo s) Fld.RAD_TXA_STAT_PORT = port ∧ fld (traceGo s) Fld.CAL_STAT_RESULT = 1 ∧
        fld (traceGo s) Fld.CAL_STAT_BUSY = 0) ∧
    (s.cal.trace = none → exec .traceTimeout s = .next s) ∧
    (s.cal.trace ≠ none →
      ∃ t, exec .traceTimeout s = .next t ∧ t.cal.trace = none ∧ fld t Fld.CAL_STAT_RESULT = 4 ∧
        ((grantOf s .calTrace).isSome = true → pathState s .a = 6 → pathState t .a = 1) ∧
        grantOf t .calTrace = none ∧
        t.sched.grants.filter (fun g => g.who != .calTrace) = s.sched.grants.filter (fun g => g.who != .calTrace) ∧
        FldsKept (Fld.CAL_STAT_RESULT :: Fld.CAL_STAT_BUSY :: cxFlds ++ pathFlds) s t ∧
        t = { s with regs := t.regs, fresh := t.fresh, clk := t.clk, cal := t.cal, brm := t.brm, radio := t.radio, sched := t.sched })

/-- CAL_DUE, TEMP_SAMPLE, CAL_GRACE_EXPIRY, CAL_RESUME_EXPIRY (R564–R566): what makes an instance due and overdue, and what an
aborted one keeps. CAL_STEP_DONE, CAL_APPLY (R565–R568): a step is kept, a failure leaves the values in force and is overdue at
once, and staged results go into force together. -/
def Obligations.InstancesBecomeDueAndResultsApply : Prop :=
  (∀ s : State,
    (∀ (item : Fin 8) (inst : Byte) (why : DueReason), item.val = 0 ∨ item.val = 7 ∨ dueHolds s item inst.toNat why = false →
      exec (.calDue item inst why) s = .next s) ∧
    (∀ (item : Fin 8) (inst : Byte) (why : DueReason), 0 < item.val → item.val < 7 → dueHolds s item inst.toNat why = true →
      flag s Fld.CAL_CFG_AUTO = true → calInUse s item inst.toNat = true →
      ∃ t, exec (.calDue item inst why) s = .next t ∧ (calInst t item inst.toNat).due = true ∧ FldsKept cxFlds s t ∧
        t = { s with regs := t.regs, cal := t.cal, sched := t.sched }) ∧
    (∀ temp : BitVec 12, mode s < 3 → exec (.tempSample temp) s = .next s) ∧
    (∀ temp : BitVec 12, 3 ≤ mode s →
      ∃ t, exec (.tempSample temp) s = .next t ∧ fld t Fld.CAL_TEMP_TEMP = temp.toNat ∧
        (flag s Fld.CAL_CFG_AUTO = false → t.cal = s.cal) ∧
        (flag s Fld.CAL_CFG_AUTO = true → ∀ x ∈ s.cal.insts, x.item ≤ 6 → x.due = false → x.doneAt ≠ none →
          8 * fld s Fld.CAL_CFG_DTEMP ≤ (signedOf 12 temp.toNat - signedOf 12 x.doneTemp).natAbs →
          calInUse s x.item x.inst = true → (calInst t x.item x.inst).due = true) ∧
        FldsKept (Fld.CAL_TEMP_TEMP :: cxFlds) s t ∧ t = { s with regs := t.regs, fresh := t.fresh, cal := t.cal, sched := t.sched }) ∧
    (∀ (item : Fin 8) (inst : Byte), (calInst s item inst.toNat).due = true → (calInst s item inst.toNat).staged = false →
      (calInst s item inst.toNat).overdue = false →
      ∃ t, exec (.calGraceExpiry item inst) s = .next t ∧ (calInst t item inst.toNat).overdue = true ∧
        flag t (intBit 55) = true ∧ FldsKept (intBit 55 :: cxFlds) s t ∧
        t = { s with regs := t.regs, fresh := t.fresh, cal := t.cal, sched := t.sched }) ∧
    (∀ (item : Fin 8) (inst : Byte), (calInst s item inst.toNat).due = false ∨ (calInst s item inst.toNat).staged = true →
      exec (.calGraceExpiry item inst) s = .next s) ∧
    (∀ (item : Fin 8) (inst : Byte), (calInst s item inst.toNat).steps ≠ 0 → (calInst s item inst.toNat).running = false →
      (calInst s item inst.toNat).staged = false →
      ∃ t, exec (.calResumeExpiry item inst) s = .next t ∧ (calInst t item inst.toNat).steps = 0 ∧
        (calInst t item inst.toNat).values = [] ∧ (calInst t item inst.toNat).due = (calInst s item inst.toNat).due ∧
        t = { s with cal := t.cal }) ∧
    (∀ (item : Fin 8) (inst : Byte), (calInst s item inst.toNat).steps = 0 ∨ (calInst s item inst.toNat).running = true →
      exec (.calResumeExpiry item inst) s = .next s)) ∧
  (∀ (s : State) (item : Fin 8) (inst : Byte),
    (∀ res : StepResult, (calInst s item inst.toNat).running = true → res.ok = false →
      ∃ t, exec (.calStepDone item inst res) s = .next t ∧ flag t Fld.CAL_STAT_FAIL = true ∧
        fld t Fld.CAL_STAT_ITEM = item.val ∧ fld t Fld.CAL_STAT_INSTANCE = inst.toNat ∧
        (calInst t item inst.toNat).overdue = true ∧ (calInst t item inst.toNat).steps = 0 ∧ (calInst t item inst.toNat).values = [] ∧
        ((calInst s item inst.toNat).overdue = false → flag t (intBit 55) = true) ∧
        FldsKept ([Fld.CAL_STAT_FAIL, Fld.CAL_STAT_ITEM, Fld.CAL_STAT_INSTANCE, intBit 55] ++ pathFlds ++ cxFlds ++ packetFlds) s t ∧
        t = { s with regs := t.regs, fresh := t.fresh, cal := t.cal, sched := t.sched, fifo := t.fifo, lnk := t.lnk, tag := t.tag,
                     radio := t.radio, brm := t.brm }) ∧
    (∀ res : StepResult, (calInst s item inst.toNat).running = true → res.ok = true →
      (calInst s item inst.toNat).steps + 1 < calSteps s (calInst s item inst.toNat) →
      ∃ t, exec (.calStepDone item inst res) s = .next t ∧
        (calInst t item inst.toNat).steps = (calInst s item inst.toNat).steps + 1 ∧
        (calInst t item inst.toNat).figures = (calInst s item inst.toNat).figures ++ [res.figure.toNat] ∧
        (calInst t item inst.toNat).running = (grantOf s (calWho item inst.toNat)).isNone ∧ FldsKept (pathFlds ++ cxFlds) s t ∧
        t = { s with regs := t.regs, fresh := t.fresh, cal := t.cal, sched := t.sched, radio := t.radio, brm := t.brm }) ∧
    (calReady s item inst.toNat = false → exec (.calApply item inst) s = .next s) ∧
    (∀ x, calInst s item inst.toNat = x → calReady s item inst.toNat = true →
      flag s (cPend (itemBlock item)) = false → x.staged = true →
      (∀ p ∈ s.cal.traced, ¬(p.1 = item.val ∧ p.2.1 = inst.toNat)) → (x.values.map (·.1)).Nodup →
      (∀ p ∈ x.values, p.1 ∈ itemWords item inst.toNat) →
      ∃ t, exec (.calApply item inst) s = .next t ∧ (∀ p ∈ x.values, reg t p.1 = p.2) ∧
        (calInst t item inst.toNat).staged = false ∧ (calInst t item inst.toNat).due = false ∧
        (calInst t item inst.toNat).doneAt = some s.clk.now ∧ flag t Fld.CAL_STAT_APPLIED = true ∧
        flag t (intBit 54) = true ∧ fld t Fld.CAL_STAT_ITEM = item.val ∧ fld t Fld.CAL_STAT_INSTANCE = inst.toNat ∧
        FldsKept ([Fld.CAL_STAT_APPLIED, Fld.CAL_STAT_ITEM, Fld.CAL_STAT_INSTANCE, intBit 54, whole Adr.GRS_STAT] ++
          (x.values.map fun p => whole p.1)) s t ∧
        t = { s with regs := t.regs, fresh := t.fresh, cal := t.cal, radio := t.radio, shadow := t.shadow, grs := t.grs }))

/-! ### Host port -/

/-- HSEL_FALL, HSEL_RISE, UNDERRUN (R78, R107, R109, R111, R112, R116, R118, R121, R132): what a select begins with and what its
end records, an answer cut short among it; what waits for the host transaction boundary is applied there. G1_READ, G1_WRITE
(R127–R129, R583–R585): byte 0 reads and latches the register, the others come from the latch, a write changes its byte, and an
unmapped or denied unit is told of in the next. -/
def Obligations.SelectsAndG1Units : Prop :=
  (∀ s : State,
    (∀ hsck, s.pins.hselN = false → exec (.hselFall hsck) s = .next s) ∧
    (∀ hsck, s.pins.hselN = true → hostGate s ≠ 0 →
      ∃ t, exec (.hselFall hsck) s = .next t ∧ t.pins.hselN = false ∧
        t.host.frame = .header ∧ t.host.result = 0 ∧ t.host.hso = [] ∧ t.host.idleHigh = hsck ∧
        (s.host.g3.any (fun g => g.opened) = false ∨ running s = false →
          t.host.g3 = s.host.g3 ∧ (t.pins.hrdy = true ↔ mode s ≠ 1 ∧ mode s ≠ 2)) ∧
        (∀ g, s.host.g3 = some g → g.opened = true → g.bits = 0 → g.notValid = false → g.waiting = false →
          g.sel < fld s Fld.HSP_LEN_LEN → running s = true → chanTake s.clk.now (chan s g.chan) = none →
          (g3Waits s g.chan = true → t.host.g3 = some { g with waiting := true } ∧ t.pins.hrdy = false) ∧
          (g3Waits s g.chan = false → t.host.g3 = some { g with notValid := true } ∧ t.pins.hrdy = true)) ∧
        (flag s Fld.SYS_WAKEEN_E7 = true → mode s ≠ 0 → (reg t Adr.SYS_WAKESRC).getLsbD 7 = true) ∧ FldsKept wakeFlds s t ∧
        t = { s with regs := t.regs, fresh := t.fresh, pins := t.pins, host := t.host, modes := t.modes, qtz := t.qtz }) ∧
    (∀ hsck, s.pins.hselN = true → hostGate s = 0 →
      ∃ t, exec (.hselFall hsck) s = .next t ∧ t.pins.hselN = false ∧ t.host.frame = .ignoring ∧
        t = { s with pins := { s.pins with hselN := false }, host := t.host }) ∧
    (∀ e, s.pins.hselN = true → exec (.hselRise e) s = .next s) ∧
    (s.pins.hselN = false → hostGate s ≠ 0 → s.host.frame = .done → s.host.g3 = none → framingG1 s = false →
      s.host.cut = false ∨ s.host.reading = false → s.host.result ≤ 7 →
      ∃ t, exec (.hselRise .exact) s = .next (settle t) ∧ t.pins.hselN = true ∧ t.host.frame = .header ∧ t.host.result = 0 ∧
        t.host.raise = false ∧ fld t Fld.HSP_STAT_LASTRES = s.host.result ∧
        fld t Fld.HSP_STAT_FRAMESEQ =
          (if s.host.result ≤ 3 then (fld s Fld.HSP_STAT_FRAMESEQ + 1) % 4096 else fld s Fld.HSP_STAT_FRAMESEQ) ∧
        (3 < s.host.result → flag t (intBit 6) = true) ∧
        fld t Fld.HSP_CNT1_CRCERR = (if s.host.result = 4 then min 0xFFFF (fld s Fld.HSP_CNT1_CRCERR + 1)
          else fld s Fld.HSP_CNT1_CRCERR) ∧
        fld t Fld.PROT_LEVEL_LEVEL = (if s.host.raise then 1 else fld s Fld.PROT_LEVEL_LEVEL) ∧
        FldsKept [whole Adr.HSP_STAT, whole Adr.HSP_CNT0, Fld.HSP_CNT1_CRCERR, Fld.PROT_LEVEL_LEVEL, intBit 6] s t ∧
        t = { s with regs := t.regs, fresh := t.fresh, pins := t.pins, host := t.host }) ∧
    (pendingInsts s = [] → settle s = s) ∧
    (∀ e, s.pins.hselN = false → hostGate s ≠ 0 → s.host.frame = .header ∨
        (s.host.frame = .done ∧ s.host.reading = true ∧ (s.host.cut = true ∨ e = .short) ∧ e ≠ .extra) → s.host.g3 = none → framingG1 s = false →
      s.host.result = 0 →
      ∃ t, exec (.hselRise e) s = .next (settle t) ∧ t.pins.hselN = true ∧ fld t Fld.HSP_STAT_LASTRES = 6 ∧
        flag t Fld.HSP_STAT_ABORT = true ∧ fld t Fld.HSP_CNT0_ABORT = min 0xFFFF (fld s Fld.HSP_CNT0_ABORT + 1) ∧
        flag t (intBit 6) = true ∧
        FldsKept [Fld.HSP_STAT_LASTRES, Fld.HSP_STAT_ABORT, Fld.HSP_CNT0_ABORT, Fld.PROT_LEVEL_LEVEL, intBit 6] s t ∧
        t = { s with regs := t.regs, fresh := t.fresh, pins := t.pins, host := t.host }) ∧
    (s.pins.hselN = false → s.host.frame ≠ .ignoring → hostGate s ≠ 0 →
      exec .underrun s = .next { s with host := { s.host with 
          frame := .ignoring, result := 7, held := none
          g3 := s.host.g3.map fun g => { g with waiting := false, todo := 0 } } }) ∧
    (s.pins.hselN = true ∨ s.host.frame = .ignoring ∨ hostGate s = 0 → exec .underrun s = .next s)) ∧
  (∀ (s u : State) (a : BitVec 7) (e : Fin 3), u = { s with host := { s.host with ecc := [e.val] } } →
    (serving s = false ∨ framingG1 s = false →
      exec (.g1Read a e) s = .next s ∧ ∀ b, exec (.g1Write a b) s = .next s) ∧
    (serving s = true → framingG1 s = true →
      (g1Reg a.toNat = none →
        (∃ t, exec (.g1Read a) s = .next t ∧ flag t Fld.HSP_STAT_RANGE = true ∧ t.host.g1Bad = true ∧
          t.host.result = max s.host.result 1 ∧
          t.host.hso = s.host.hso ++ (bitsMsb 8 (g1Status s) ++ bitsMsb 8 0) ∧ FldsKept [Fld.HSP_STAT_RANGE] s t ∧
          t = { s with regs := t.regs, fresh := t.fresh, host := t.host }) ∧
        (∀ b, hostGate s ≠ 1 →
          ∃ t, exec (.g1Write a b) s = .next t ∧ flag t Fld.HSP_STAT_RANGE = true ∧ t.host.g1Bad = true ∧
            t.host.result = max s.host.result 1 ∧ FldsKept [Fld.HSP_STAT_RANGE] s t ∧
            t = { s with regs := t.regs, fresh := t.fresh, host := t.host }) ∧
        (∀ b, hostGate s = 1 →
          ∃ t, exec (.g1Write a b) s = .next t ∧ flag t Fld.SYS_BOOTSTAT_HOSTWR = true ∧ flag t Fld.HSP_STAT_PRIV = true ∧
            t.host.g1Bad = true ∧ t.host.result = max s.host.result 2 ∧
            FldsKept [Fld.SYS_BOOTSTAT_HOSTWR, Fld.HSP_STAT_PRIV, Fld.HSP_STAT_RANGE] s t ∧
            t = { s with regs := t.regs, fresh := t.fresh, host := t.host })) ∧
      (∀ r, g1Reg a.toNat = some r →
        (a.toNat % 4 = 0 → g1Unlatched r = false → permitted s (hostLevel s) r false = true →
          ∃ t, exec (.g1Read a) s = .next t ∧ regFind t.host.g1Latch r = some (readWord u r).1 ∧ t.host.g1Bad = false ∧
            t.host.hso = s.host.hso ++ (bitsMsb 8 (g1Status s) ++ bitsMsb 8 (wordByte (readWord u r).1 0).toNat) ∧
            t = { (readWord u r).2 with host := t.host }) ∧
        (a.toNat % 4 ≠ 0 → g1Unlatched r = false → ∀ w, regFind s.host.g1Latch r = some w →
          ∃ t, exec (.g1Read a) s = .next t ∧ t.host.g1Latch = s.host.g1Latch ∧
            t.host.hso = s.host.hso ++ (bitsMsb 8 (g1Status s) ++ bitsMsb 8 (wordByte w (a.toNat % 4)).toNat) ∧
            t = { s with host := t.host }) ∧
        (g1Unlatched r = true → permitted s (hostLevel s) r false = true →
          ∃ t, exec (.g1Read a) s = .next t ∧ t.host.g1Latch = s.host.g1Latch ∧
            t.host.hso = s.host.hso ++ (bitsMsb 8 (g1Status s) ++ bitsMsb 8 (wordByte (readWord u r).1 (a.toNat % 4)).toNat) ∧
            t = { s with host := t.host }) ∧
        (a.toNat % 4 = 0 ∨ g1Unlatched r = true → permitted s (hostLevel s) r false = false →
          ∃ t, exec (.g1Read a) s = .next t ∧ t.host.g1Bad = true ∧ t.host.result = max s.host.result 2 ∧
            fld t Fld.HSP_CNT1_PRIVDEN = min 0xFFFF (fld s Fld.HSP_CNT1_PRIVDEN + 1) ∧
            FldsKept [Fld.HSP_STAT_PRIV, Fld.HSP_CNT1_PRIVDEN, whole Adr.PROT_DENY] s t ∧
            t = { s with regs := t.regs, fresh := t.fresh, host := t.host }) ∧
        (∀ b, hostGate s = 1 →
          ∃ t, exec (.g1Write a b) s = .next t ∧ flag t Fld.SYS_BOOTSTAT_HOSTWR = true ∧ flag t Fld.HSP_STAT_PRIV = true ∧
            FldsKept [Fld.SYS_BOOTSTAT_HOSTWR, Fld.HSP_STAT_PRIV] s t ∧ t = { s with regs := t.regs, fresh := t.fresh, host := t.host }) ∧
        (∀ b, hostGate s = 2 → permitted s (hostLevel s) r true = false →
          ∃ t, exec (.g1Write a b) s = .next t ∧ t.host.g1Bad = true ∧ t.host.result = max s.host.result 2 ∧
            fld t Fld.HSP_CNT1_PRIVDEN = min 0xFFFF (fld s Fld.HSP_CNT1_PRIVDEN + 1) ∧
            FldsKept [Fld.HSP_STAT_PRIV, Fld.HSP_CNT1_PRIVDEN, whole Adr.PROT_DENY] s t ∧
            t = { s with regs := t.regs, fresh := t.fresh, host := t.host }) ∧
        (∀ b : Byte, hostGate s = 2 → permitted s (hostLevel s) r true = true →
          r = Adr.HSP_IMASK0 ∨ r = Adr.HSP_IMASK1 →
          ∃ t, exec (.g1Write a b) s = .next t ∧ t.host.g1Bad = false ∧
            reg t r = (reg s r &&& ~~~(maskOf (8 * (a.toNat % 4) + 7) (8 * (a.toNat % 4)) &&& accMask r .rw)) |||
              (BitVec.ofNat 32 (b.toNat <<< (8 * (a.toNat % 4))) &&& accMask r .rw) ∧
            FldsKept [whole r, Fld.HSP_STAT_RANGE] s t ∧ t = { s with regs := t.regs, fresh := t.fresh, host := t.host }))))

/-- G2_STATUS, G2_READ, G2_WRITE (R114–R120): a header that is not allowed is BADCMD, a wrong CRC discards the frame, the status
word leads every answer, the words that are shifted are read and those of a whole frame are applied in order, a frame of one word
reads it or applies it, one cut before its first word reads nothing, and one that SHED 4 holds waits for its gap. -/
def Obligations.G2FramesAreAnswered : Prop :=
  ∀ (s u : State) (cmd : Byte) (addr count crc : BitVec 16) (shifted : Nat) (e : List (Fin 3)),
    u = { s with host := { s.host with ecc := e.map fun x => x.val } } →
    (g2Open s = false →
      exec (.g2Status addr count crc cmd) s = .next s ∧ exec (.g2Read addr count crc shifted e) s = .next s) ∧
    (g2Open s = true →
      (cmd.toNat < 0x80 ∨ 0x85 < cmd.toNat ∨ (cmd = 0x80 ∧ (addr ≠ 0 ∨ count ≠ 0)) →
        FrameOnly (.g2Status addr count crc cmd) s 5) ∧
      (crc.toNat ≠ crc16 (headBytes 0x80 0 0) → FrameOnly (.g2Status 0 0 crc 0x80) s 4) ∧
      (crc.toNat = crc16 (headBytes 0x80 0 0) →
        exec (.g2Status 0 0 crc 0x80) s = .next { s with host := { s.host with
          frame := .done, hso := s.host.hso ++ (bitsMsb 32 (statusWord s).toNat ++ List.replicate 24 false) } }) ∧
      (count = 0 ∨ 1024 < count.toNat → FrameOnly (.g2Read addr count crc shifted e) s 5) ∧
      (0 < count.toNat → count.toNat ≤ 1024 → crc.toNat ≠ crc16 (headBytes 0x81 addr.toNat count.toNat) →
        FrameOnly (.g2Read addr count crc shifted e) s 4) ∧
      (0 < count.toNat → count.toNat ≤ 1024 → crc.toNat = crc16 (headBytes 0x81 addr.toNat count.toNat) →
        mustHold s = true →
        ∃ t, exec (.g2Read addr count crc shifted e) s = .next t ∧ t.pins.hrdy = false ∧ t.host.frame = s.host.frame ∧
          t.host.held = some (.read addr.toNat count.toNat shifted) ∧
          t.host.hso = s.host.hso ++ (bitsMsb 32 (statusWord s).toNat ++ List.replicate 24 false) ∧
          t = { s with host := t.host, pins := { s.pins with hrdy := false } }) ∧
      (0 < count.toNat → count.toNat ≤ shifted → count.toNat ≤ 1024 →
        crc.toNat = crc16 (headBytes 0x81 addr.toNat count.toNat) → mustHold s = false →
        ∃ t, ∃ ws : List Word, exec (.g2Read addr count crc shifted e) s = .next t ∧ t.host.frame = .done ∧ t.host.cut = false ∧
          ws.length = count.toNat ∧ t.host.hso = s.host.hso ++ (bitsMsb 32 (statusWord s).toNat ++ List.replicate 24 false) ++
            ((ws.flatMap fun w => bitsMsb 32 w.toNat) ++ bitsMsb 16 (crc16 (ws.flatMap fun w => beBytes 4 w.toNat))) ∧
          (inBurst (windowOf addr.toNat) addr.toNat = true → permitted s (hostLevel s) addr.toNat false = true →
            ws.head? = some (readWord u addr.toNat).1)) ∧
      (0 < count.toNat → count.toNat ≤ 1024 → crc.toNat = crc16 (headBytes 0x81 addr.toNat count.toNat) →
        mustHold s = false →
        ∃ t, exec (.g2Read addr count crc 0 e) s = .next t ∧ t.host.frame = .done ∧ t.host.reading = true ∧ t.host.cut = true ∧
          t.host.hso = s.host.hso ++ (bitsMsb 32 (statusWord s).toNat ++ List.replicate 24 false) ∧
          t = { s with host := t.host }) ∧
      (1 ≤ shifted → crc.toNat = crc16 (headBytes 0x81 addr.toNat 1) → mustHold s = false →
        (inBurst (windowOf addr.toNat) addr.toNat = true → permitted s (hostLevel s) addr.toNat false = true →
          ∃ t, exec (.g2Read addr 1 crc shifted e) s = .next t ∧ t.host.frame = .done ∧ t.host.result = s.host.result ∧
            t.host.hso = s.host.hso ++ (bitsMsb 32 (statusWord s).toNat ++ List.replicate 24 false) ++
              (bitsMsb 32 (readWord u addr.toNat).1.toNat ++
                bitsMsb 16 (crc16 (beBytes 4 (readWord u addr.toNat).1.toNat))) ∧
            t = { (readWord u addr.toNat).2 with host := t.host }) ∧
        (inBurst (windowOf addr.toNat) addr.toNat = true → permitted s (hostLevel s) addr.toNat false = false →
          ∃ t, exec (.g2Read addr 1 crc shifted e) s = .next t ∧ t.host.frame = .done ∧ t.host.result = max s.host.result 2 ∧
            flag t Fld.HSP_STAT_PRIV = true ∧
            fld t Fld.HSP_CNT1_PRIVDEN = min 0xFFFF (fld s Fld.HSP_CNT1_PRIVDEN + 1) ∧
            FldsKept [Fld.HSP_STAT_PRIV, Fld.HSP_CNT1_PRIVDEN, whole Adr.PROT_DENY] s t ∧
            t = { s with regs := t.regs, fresh := t.fresh, host := t.host }) ∧
        (inBurst (windowOf addr.toNat) addr.toNat = false →
          ∃ t, exec (.g2Read addr 1 crc shifted e) s = .next t ∧ t.host.frame = .done ∧ t.host.result = max s.host.result 1 ∧
            flag t Fld.HSP_STAT_RANGE = true ∧ FldsKept [Fld.HSP_STAT_RANGE] s t ∧
            t = { s with regs := t.regs, fresh := t.fresh, host := t.host }))) ∧
    (∀ words : List Word, words.length = count.toNat →
      (g2Open s = false → exec (.g2Write addr count words crc) s = .next s) ∧
      (g2Open s = true →
        (count = 0 ∨ 256 < count.toNat → FrameOnly (.g2Write addr count words crc) s 5) ∧
        (0 < count.toNat → count.toNat ≤ 256 → crc.toNat ≠ crc16 (frameBytes 0x82 addr.toNat count.toNat words) →
          FrameOnly (.g2Write addr count words crc) s 4) ∧
        (0 < count.toNat → count.toNat ≤ 256 → crc.toNat = crc16 (frameBytes 0x82 addr.toNat count.toNat words) →
          (mustHold s = true →
            ∃ t, exec (.g2Write addr count words crc) s = .next t ∧ t.pins.hrdy = false ∧
              t.host.held = some (.write addr.toNat words (hostLevel s)) ∧
              t = { s with host := t.host, pins := { s.pins with hrdy := false } }) ∧
          (mustHold s = false → hostGate s = 2 → (∀ k < count.toNat, inBurst (windowOf addr.toNat) (addr.toNat + k) = true ∧
              permitted s (hostLevel s) (addr.toNat + k) true = true ∧ blockOf (addr.toNat + k) = none ∧
              (∀ u v, actWrite u (hostLevel s) (addr.toNat + k) v = none) ∧ accMask (addr.toNat + k) .sh = 0) →
            ∃ t, exec (.g2Write addr count words crc) s = .next t ∧ t.host.frame = .done ∧ t.host.result = s.host.result ∧
              (∀ k w, words[k]? = some w → reg t (addr.toNat + k) =
                (((reg s (addr.toNat + k) &&& ~~~accMask (addr.toNat + k) .rw) ||| (w &&& accMask (addr.toNat + k) .rw)) &&&
                  ~~~(w &&& accMask (addr.toNat + k) .w1c)) ||| (w &&& accMask (addr.toNat + k) .w1s)) ∧
              FldsKept (Fld.HSP_STAT_RANGE :: (List.range count.toNat).map fun k => whole (addr.toNat + k)) s t ∧
              t = { s with regs := t.regs, fresh := t.fresh, host := t.host })) ∧
        (∀ w, words = [w] → crc.toNat = crc16 (frameBytes 0x82 addr.toNat 1 [w]) → mustHold s = false →
          (hostGate s = 1 →
            ∃ t, exec (.g2Write addr count words crc) s = .next t ∧ t.host.frame = .done ∧
              t.host.result = max s.host.result 2 ∧ flag t Fld.SYS_BOOTSTAT_HOSTWR = true ∧
              flag t Fld.HSP_STAT_PRIV = true ∧ FldsKept [Fld.SYS_BOOTSTAT_HOSTWR, Fld.HSP_STAT_PRIV] s t ∧
              t = { s with regs := t.regs, fresh := t.fresh, host := t.host }) ∧
          (hostGate s = 2 → inBurst (windowOf addr.toNat) addr.toNat = true →
            permitted s (hostLevel s) addr.toNat true = true → blockOf addr.toNat = none →
            (∀ u v, actWrite u (hostLevel s) addr.toNat v = none) → accMask addr.toNat .sh = 0 →
            ∃ t, exec (.g2Write addr count words crc) s = .next t ∧ t.host.frame = .done ∧ t.host.result = s.host.result ∧
              reg t addr.toNat =
                (((reg s addr.toNat &&& ~~~accMask addr.toNat .rw) ||| (w &&& accMask addr.toNat .rw)) &&&
                  ~~~(w &&& accMask addr.toNat .w1c)) ||| (w &&& accMask addr.toNat .w1s) ∧
              FldsKept [Fld.HSP_STAT_RANGE, whole addr.toNat] s t ∧ t = { s with regs := t.regs, fresh := t.fresh, host := t.host }) ∧
          (hostGate s = 2 → inBurst (windowOf addr.toNat) addr.toNat = true → permitted s (hostLevel s) addr.toNat true = false →
            ∃ t, exec (.g2Write addr count words crc) s = .next t ∧ t.host.frame = .done ∧ t.host.result = max s.host.result 2 ∧
              fld t Fld.HSP_CNT1_PRIVDEN = min 0xFFFF (fld s Fld.HSP_CNT1_PRIVDEN + 1) ∧
              FldsKept [Fld.HSP_STAT_PRIV, Fld.HSP_CNT1_PRIVDEN, whole Adr.PROT_DENY] s t ∧
              t = { s with regs := t.regs, fresh := t.fresh, host := t.host }))))

/-- HOSTGAP_ELAPSED, UNLOCK, LOCK, STREAM, SUPIDLE_LAPSE, UNLOCK_LOCKOUT_END (R121, R122, R126, R132, R133, R174). -/
def Obligations.FramesUnlockLockAndStream : Prop :=
  ∀ (s : State) (addr count crc : BitVec 16),
    (g2Open s = true → fullyOpen s = true →
      (∀ code : Word, crc.toNat = crc16 (frameBytes 0x83 0 1 [code]) →
        (lockedOut s = true →
          ∃ t, exec (.unlock 0 1 code crc) s = .next t ∧ t.host.result = max s.host.result 2 ∧ t.host.raise = s.host.raise ∧
            flag t Fld.HSP_STAT_PRIV = true ∧ FldsKept [Fld.HSP_STAT_PRIV] s t ∧
            t = { s with regs := t.regs, fresh := t.fresh, host := t.host }) ∧
        (lockedOut s = false → unlockCode s = some code.toNat →
          ∃ t, exec (.unlock 0 1 code crc) s = .next t ∧ t.host.result = s.host.result ∧ t.host.raise = true ∧
            t = { s with host := t.host }) ∧
        (lockedOut s = false → unlockCode s ≠ some code.toNat →
          ∃ t, exec (.unlock 0 1 code crc) s = .next t ∧ t.host.result = max s.host.result 2 ∧
            t.host.lockout = some s.clk.now ∧ t.host.raise = s.host.raise ∧
            fld t Fld.HSP_UNLK_FAILS = min 0xFFFF (fld s Fld.HSP_UNLK_FAILS + 1) ∧ flag t (intBit 7) = true ∧
            flag t Fld.HSP_STAT_PRIV = true ∧ FldsKept [Fld.HSP_UNLK_FAILS, Fld.HSP_STAT_PRIV, intBit 7] s t ∧
            t = { s with regs := t.regs, fresh := t.fresh, host := t.host })) ∧
      (addr.toNat < 8 → count ≠ 0 → crc.toNat = crc16 (headBytes 0x85 addr.toNat count.toNat) →
        (permitted s (hostLevel s) (Adr.FIFO_PORT addr.toNat) false = true →
          ∃ t, exec (.stream addr count crc) s = .next t ∧ t.host.frame = .done ∧ t.host.result = s.host.result ∧
            t.host.g3 = some { chan := addr.toNat, left := count.toNat } ∧ t = { s with host := t.host }) ∧
        (permitted s (hostLevel s) (Adr.FIFO_PORT addr.toNat) false = false →
          ∃ t, exec (.stream addr count crc) s = .next t ∧ t.host.frame = .done ∧ t.host.result = max s.host.result 2 ∧
            t.host.g3 = none ∧ fld t Fld.HSP_CNT1_PRIVDEN = min 0xFFFF (fld s Fld.HSP_CNT1_PRIVDEN + 1) ∧
            FldsKept [Fld.HSP_STAT_PRIV, Fld.HSP_CNT1_PRIVDEN, whole Adr.PROT_DENY] s t ∧
            t = { s with regs := t.regs, fresh := t.fresh, host := t.host }))) ∧
    (g2Open s = true → fullyOpen s = false →
      (∀ code, FrameOnly (.unlock addr count code crc) s 5) ∧ FrameOnly (.stream addr count crc) s 5) ∧
    (g2Open s = true → crc.toNat = crc16 (headBytes 0x84 0 0) →
      ∃ t, exec (.lock_ 0 0 crc) s = .next t ∧ t.host.frame = .done ∧ t.host.result = s.host.result ∧
        (flag s Fld.SYS_BOOTSTAT_BARE = false → fld t Fld.PROT_LEVEL_LEVEL = 0 ∧ t.host.raise = false) ∧
        (flag s Fld.SYS_BOOTSTAT_BARE = true → fld t Fld.PROT_LEVEL_LEVEL = fld s Fld.PROT_LEVEL_LEVEL) ∧
        FldsKept [Fld.PROT_LEVEL_LEVEL] s t ∧ t = { s with regs := t.regs, fresh := t.fresh, host := t.host }) ∧
    (fld s Fld.HSP_CFG_SUPIDLE = 0 ∨ flag s Fld.SYS_BOOTSTAT_BARE = true → exec .supidleLapse s = .next s) ∧
    (fld s Fld.HSP_CFG_SUPIDLE ≠ 0 → flag s Fld.SYS_BOOTSTAT_BARE = false →
      ∃ t, exec .supidleLapse s = .next t ∧ fld t Fld.PROT_LEVEL_LEVEL = 0 ∧ t.host = { s.host with raise := false } ∧
        FldsKept [Fld.PROT_LEVEL_LEVEL] s t ∧ t = { s with regs := t.regs, fresh := t.fresh, host := t.host }) ∧
    exec .unlockLockoutEnd s = .next { s with host := { s.host with lockout := none } } ∧
    (s.host.held = none → exec .hostgapElapsed s = .next s) ∧
    (∀ a shifted, s.host.held = some (.read a 1 shifted) → 1 ≤ shifted → inBurst (windowOf a) a = true → permitted s (hostLevel s) a false = true →
      ∃ t, exec .hostgapElapsed s = .next t ∧ t.host.held = none ∧ t.host.frame = .done ∧
        t.host.admittedAt = some s.clk.now ∧ t.pins.hrdy = true ∧
        t.host.hso = s.host.hso ++
          (bitsMsb 32 (readWord s a).1.toNat ++ bitsMsb 16 (crc16 (beBytes 4 (readWord s a).1.toNat))) ∧
        t = { (readWord s a).2 with host := t.host, pins := t.pins }) ∧
    (∀ a lvl w, s.host.held = some (.write a [w] lvl) → hostGate s = 2 → inBurst (windowOf a) a = true → blockOf a = none →
      (∀ u v, actWrite u lvl a v = none) → accMask a .sh = 0 →
      (permitted s lvl a true = true →
        ∃ t, exec .hostgapElapsed s = .next t ∧ t.host.held = none ∧ t.host.frame = .done ∧ t.pins.hrdy = true ∧
          reg t a = (((reg s a &&& ~~~accMask a .rw) ||| (w &&& accMask a .rw)) &&& ~~~(w &&& accMask a .w1c)) |||
            (w &&& accMask a .w1s) ∧
          FldsKept [Fld.HSP_STAT_RANGE, whole a] s t ∧
          t = { s with regs := t.regs, fresh := t.fresh, host := t.host, pins := t.pins }) ∧
      (permitted s lvl a true = false →
        ∃ t, exec .hostgapElapsed s = .next t ∧ t.host.held = none ∧ t.host.result = max s.host.result 2 ∧ t.pins.hrdy = true ∧
          FldsKept [Fld.HSP_STAT_PRIV, Fld.HSP_CNT1_PRIVDEN, whole Adr.PROT_DENY] s t ∧
          t = { s with regs := t.regs, fresh := t.fresh, host := t.host, pins := t.pins }))

/-- G3_TRANSFER, G3_IDLE_EXPIRY, G3_STALL_TIMEOUT (R122, R123, R125, R487, R495, R499): a unit in the read bank goes out whole,
an empty channel sends NOT_VALID or makes the read wait, and a stall ends the wait. -/
def Obligations.StreamsShiftUnits : Prop :=
  ∀ (s : State) (g : G3Run), s.host.g3 = some g →
    (s.pins.hselN = false → s.host.frame ≠ .ignoring → hostGate s ≠ 0 → running s = true → g.opened = true → g.bits = 0 →
      g.notValid = false → g.sel = 0 → g.todo = 0 → g.ecc = [] → g.chan < 8 → 40 ≤ fld s Fld.HSP_LEN_LEN →
      (∀ u us, (chan s g.chan).skip = .none → (chan s g.chan).flushGap = 0 → (chan s g.chan).rd = u :: us →
        2 ≤ (chan s g.chan).view →
        (fld s Fld.HSP_LEN_LEN = 40 → ∃ t, exec (.g3Transfer 40 [1]) s = .next t ∧
          t.host.hso = s.host.hso ++ bitsMsb 40 (unitBits u.kind 1 (if (chan s g.chan).rdBank then 1 else 0) u.data).toNat ∧
          fld t (Fld.FIFO_CH_CNT_CORR g.chan) = min 0xFFFF (fld s (Fld.FIFO_CH_CNT_CORR g.chan) + 1) ∧
          FldsKept [Fld.FIFO_CH_CNT_CORR g.chan] s t ∧
          t = { s with regs := t.regs, fresh := t.fresh, host := t.host, fifo := t.fifo, pins := t.pins }) ∧
        (fld s Fld.HSP_LEN_LEN = 40 ∨ us ≠ [] ∨ flag s (Fld.FIFO_CH_CFG_BLOCK g.chan) = false →
          ∃ t, exec (.g3Transfer 40 []) s = .next t ∧ t.pins.hrdy = (g.waiting || s.pins.hrdy) ∧
            t.host.hso = s.host.hso ++
              bitsMsb 40 (unitBits u.kind 0 (if (chan s g.chan).rdBank then 1 else 0) u.data).toNat ∧
            chan t g.chan = chanRest s.clk.now
              { chan s g.chan with rd := us, rdUsed := (chan s g.chan).rdUsed + 1, lastKind := u.kind } ∧
            (∀ m : Nat, m ≠ g.chan → chan t m = chan s m) ∧ t.host.g3.map (·.sel) = some 40 ∧
            t = { s with host := t.host, fifo := t.fifo, pins := t.pins }) ∧
        (40 < fld s Fld.HSP_LEN_LEN → us = [] → flag s (Fld.FIFO_CH_CFG_BLOCK g.chan) = true →
          ∃ t, exec (.g3Transfer 40 []) s = .next t ∧ t.pins.hrdy = false ∧ t.host.g3.map (·.waiting) = some true ∧
            t.host.hso = s.host.hso ++
              bitsMsb 40 (unitBits u.kind 0 (if (chan s g.chan).rdBank then 1 else 0) u.data).toNat ∧
            t = { s with host := t.host, fifo := t.fifo, pins := t.pins })) ∧
      (chanTake s.clk.now (chan s g.chan) = none →
        (flag s (Fld.FIFO_CH_CFG_BLOCK g.chan) = false → (chan s g.chan).skip = .none →
          ∃ t, exec (.g3Transfer 40 []) s = .next t ∧ t.pins.hrdy = (g.waiting || s.pins.hrdy) ∧
            t.host.hso = s.host.hso ++ bitsMsb 40 notValid.toNat ∧
            chan t g.chan = { chan s g.chan with view := max 2 (chan s g.chan).view } ∧ (∀ m : Nat, m ≠ g.chan → chan t m = chan s m) ∧
            t = { s with host := t.host, fifo := t.fifo, pins := t.pins }) ∧
        (flag s (Fld.FIFO_CH_CFG_BLOCK g.chan) = true ∨ (chan s g.chan).skip ≠ .none → g.waiting = false →
          ∃ t, exec (.g3Transfer 40 []) s = .next t ∧ t.pins.hrdy = false ∧ t.host.hso = s.host.hso ∧
            t.host.g3.map (·.waiting) = some true ∧ ((chan s g.chan).skip = .none → waitedOn t g.chan = true) ∧
            t = { s with host := t.host, pins := t.pins }))) ∧
    (s.pins.hselN = true → exec .g3IdleExpiry s = .next { s with host := { s.host with g3 := none } }) ∧
    (s.pins.hselN = false → exec .g3IdleExpiry s = .next s) ∧
    (g.waiting = false → exec .g3StallTimeout s = .next s) ∧
    (g.waiting = true →
      ∃ t, exec .g3StallTimeout s = .next t ∧ flag t Fld.HSP_STAT_STALL = true ∧ 3 ≤ t.host.result ∧
        FldsKept (Fld.HSP_STAT_STALL :: packetFlds ++ (List.range 9).flatMap fun n =>
          [Fld.FIFO_CH_ERR_UCE n, Fld.FIFO_CH_CNT_CORR n]) s t ∧
        t = { s with regs := t.regs, fresh := t.fresh, host := t.host, fifo := t.fifo, pins := t.pins, lnk := t.lnk, tag := t.tag })
end

