-- ==== Sys2Proof/Laws/Bytes.lean ====
section
/-! SUPPORT. The byte stores: every operation keeps the canonical form, a byte written reads back, the others stay. -/

namespace Sys2Proof.Machine

/-! ### The canonical form -/

/-- Every listed address is above a bound. -/
def bytesAbove (a : Nat) (m : Bytes) : Prop := ∀ c ∈ m, a < c.1

theorem bytesWf_cons (a : Nat) (v : Byte) (m : Bytes) :
    bytesWf ((a, v) :: m) = true ↔ v ≠ erasedByte ∧ bytesAbove a m ∧ bytesWf m = true := by
  induction m generalizing a v with
  | nil => simp [bytesWf, bytesAbove]
  | cons p m ih =>
    obtain ⟨b, w⟩ := p
    simp only [bytesWf, Bool.and_eq_true, bne_iff_ne, ne_eq, decide_eq_true_eq, bytesAbove, List.mem_cons]
    constructor
    · rintro ⟨⟨h1, h2⟩, h3⟩
      refine ⟨h1, ?_, h3⟩
      rintro c (rfl | hc)
      · exact h2
      · exact lt_trans h2 (((ih b w).1 h3).2.1 c hc)
    · rintro ⟨h1, h2, h3⟩
      exact ⟨⟨h1, h2 (b, w) (Or.inl rfl)⟩, h3⟩

theorem bytesAbove_put {a b : Nat} {v : Byte} {m : Bytes} (h : bytesAbove a m) (hb : a < b) :
    bytesAbove a (bytePut m b v) := by
  induction m with
  | nil => unfold bytePut; split <;> simp [bytesAbove, hb]
  | cons p m ih =>
    obtain ⟨c, w⟩ := p
    have hc : a < c := h (c, w) List.mem_cons_self
    have hm : bytesAbove a m := fun x hx => h x (List.mem_cons_of_mem _ hx)
    have cons : ∀ {d : Nat} {x : Byte} {l : Bytes}, a < d → bytesAbove a l → bytesAbove a ((d, x) :: l) := by
      intro d x l hd hl y hy
      rcases List.mem_cons.1 hy with rfl | hy
      exacts [hd, hl y hy]
    unfold bytePut
    split
    · split
      exacts [hm, cons hb hm]
    · split
      · split
        exacts [h, cons hb h]
      · exact cons hc (ih hm)

/-- Writing one byte keeps the canonical form. -/
theorem bytesWf_bytePut {m : Bytes} (h : bytesWf m = true) (a : Nat) (v : Byte) : bytesWf (bytePut m a v) = true := by
  induction m with
  | nil =>
    unfold bytePut
    split
    · rfl
    · rename_i hv; simpa [bytesWf] using hv
  | cons p m ih =>
    obtain ⟨b, w⟩ := p
    obtain ⟨h1, h2, h3⟩ := (bytesWf_cons b w m).1 h
    unfold bytePut
    split
    · subst_vars
      split
      · exact h3
      · rename_i hv; exact (bytesWf_cons _ _ _).2 ⟨hv, h2, h3⟩
    · split
      · split
        · exact h
        · rename_i hab hv
          refine (bytesWf_cons _ _ _).2 ⟨hv, ?_, h⟩
          intro x hx
          rcases List.mem_cons.1 hx with rfl | hx
          · exact hab
          · exact lt_trans hab (h2 x hx)
      · exact (bytesWf_cons _ _ _).2 ⟨h1, bytesAbove_put h2 (by omega), ih h3⟩

/-- Writing consecutive bytes keeps the canonical form. -/
theorem bytesWf_bytesPut {m : Bytes} (h : bytesWf m = true) (a : Nat) (l : List Byte) :
    bytesWf (bytesPut m a l) = true := by
  induction l generalizing m a with
  | nil => exact h
  | cons v l ih => exact ih (bytesWf_bytePut h a v) (a + 1)

/-- Programming keeps the canonical form. -/
theorem bytesWf_norProgram {m : Bytes} (h : bytesWf m = true) (a : Nat) (l : List Byte) :
    bytesWf (norProgram m a l) = true := by
  induction l generalizing m a with
  | nil => exact h
  | cons v l ih => exact ih (bytesWf_bytePut h _ _) (a + 1)

/-- Leaving bytes out keeps the canonical form. -/
theorem bytesWf_filter {m : Bytes} (h : bytesWf m = true) (p : Host.Cell → Bool) : bytesWf (m.filter p) = true := by
  induction m with
  | nil => rfl
  | cons c m ih =>
    obtain ⟨b, w⟩ := c
    obtain ⟨h1, h2, h3⟩ := (bytesWf_cons b w m).1 h
    rw [List.filter_cons]
    split
    · exact (bytesWf_cons _ _ _).2 ⟨h1, fun x hx => h2 x (List.mem_of_mem_filter hx), ih h3⟩
    · exact ih h3

/-- Erasing keeps the canonical form. -/
theorem bytesWf_bytesErase {m : Bytes} (h : bytesWf m = true) (a n : Nat) : bytesWf (bytesErase m a n) = true :=
  bytesWf_filter h _

/-! ### Reading back -/

theorem byteAt_above {a : Nat} {m : Bytes} (h : bytesAbove a m) : byteAt m a = erasedByte := by
  induction m with
  | nil => rfl
  | cons p m ih =>
    obtain ⟨b, w⟩ := p
    have hb : a < b := h (b, w) List.mem_cons_self
    rw [byteAt, if_neg (by omega)]
    exact ih fun x hx => h x (List.mem_cons_of_mem _ hx)

/-- A byte written reads back, and every other byte reads as before. -/
theorem byteAt_bytePut {m : Bytes} (h : bytesWf m = true) (a b : Nat) (v : Byte) :
    byteAt (bytePut m a v) b = if b = a then v else byteAt m b := by
  induction m with
  | nil =>
    unfold bytePut
    split <;> by_cases hb : b = a <;> simp_all [byteAt]
  | cons p m ih =>
    obtain ⟨c, w⟩ := p
    obtain ⟨h1, h2, h3⟩ := (bytesWf_cons c w m).1 h
    unfold bytePut
    by_cases hac : a = c
    · subst hac
      rw [if_pos rfl]
      by_cases hv : v = erasedByte
      · rw [if_pos hv]
        by_cases hb : b = a
        · subst hb; simp [hv, byteAt_above h2]
        · simp [byteAt, hb]
      · rw [if_neg hv]
        by_cases hb : b = a <;> simp [byteAt, hb]
    · rw [if_neg hac]
      by_cases hlt : a < c
      · rw [if_pos hlt]
        have hab : bytesAbove a ((c, w) :: m) := by
          intro x hx
          rcases List.mem_cons.1 hx with rfl | hx
          · exact hlt
          · exact lt_trans hlt (h2 x hx)
        by_cases hv : v = erasedByte
        · rw [if_pos hv]
          by_cases hb : b = a
          · subst hb; simp [hv, byteAt_above hab]
          · simp [hb]
        · rw [if_neg hv]
          by_cases hb : b = a <;> simp [byteAt, hb]
      · rw [if_neg hlt, byteAt, byteAt, ih h3]
        by_cases hb : b = c
        · have : ¬ b = a := fun e => hac (e ▸ hb)
          simp [hb, Ne.symm hac]
        · simp [hb]

/-- Bytes outside a range that is written read as before. -/
theorem byteAt_bytesPut_ne {m : Bytes} (h : bytesWf m = true) (a b : Nat) (l : List Byte) (hb : b < a ∨ a + l.length ≤ b) :
    byteAt (bytesPut m a l) b = byteAt m b := by
  induction l generalizing m a with
  | nil => rfl
  | cons v l ih =>
    simp only [List.length_cons] at hb
    rw [bytesPut, ih (bytesWf_bytePut h a v) (a + 1) (by omega), byteAt_bytePut h, if_neg (by omega)]

/-- Bytes of a range that is written read as written. -/
theorem byteAt_bytesPut_in {m : Bytes} (h : bytesWf m = true) (a k : Nat) (l : List Byte) (hk : k < l.length) :
    byteAt (bytesPut m a l) (a + k) = l.getD k 0 := by
  induction l generalizing m a k with
  | nil => simp at hk
  | cons v l ih =>
    rw [bytesPut]
    cases k with
    | zero =>
      rw [byteAt_bytesPut_ne (bytesWf_bytePut h a v) (a + 1) _ l (by omega), byteAt_bytePut h]
      simp
    | succ k =>
      have := ih (bytesWf_bytePut h a v) (a + 1) k (by simpa using hk)
      rw [show a + (k + 1) = a + 1 + k by omega, this]
      simp

end Sys2Proof.Machine
end

