-- ==== Sys2Proof/Laws/State.lean ====
section
/-! SUPPORT. What each elementary update leaves in each field of the state, one lemma a field and an update. -/

namespace Sys2Proof.Machine

variable (s : State)

@[simp] theorem setReg_fresh (a : Nat) (v : Word) : (setReg s a v).fresh = s.fresh := (rfl)
@[simp] theorem setReg_shadow (a : Nat) (v : Word) : (setReg s a v).shadow = s.shadow := (rfl)
@[simp] theorem setReg_parts (a : Nat) (v : Word) : (setReg s a v).parts = s.parts := (rfl)
@[simp] theorem setReg_clk (a : Nat) (v : Word) : (setReg s a v).clk = s.clk := (rfl)
@[simp] theorem setReg_pins (a : Nat) (v : Word) : (setReg s a v).pins = s.pins := (rfl)
@[simp] theorem setReg_modes (a : Nat) (v : Word) : (setReg s a v).modes = s.modes := (rfl)
@[simp] theorem setReg_boot (a : Nat) (v : Word) : (setReg s a v).boot = s.boot := (rfl)
@[simp] theorem setReg_host (a : Nat) (v : Word) : (setReg s a v).host = s.host := (rfl)
@[simp] theorem setReg_fifo (a : Nat) (v : Word) : (setReg s a v).fifo = s.fifo := (rfl)
@[simp] theorem setReg_qtz (a : Nat) (v : Word) : (setReg s a v).qtz = s.qtz := (rfl)
@[simp] theorem setReg_sched (a : Nat) (v : Word) : (setReg s a v).sched = s.sched := (rfl)
@[simp] theorem setReg_radio (a : Nat) (v : Word) : (setReg s a v).radio = s.radio := (rfl)
@[simp] theorem setReg_slate (a : Nat) (v : Word) : (setReg s a v).slate = s.slate := (rfl)
@[simp] theorem setReg_brm (a : Nat) (v : Word) : (setReg s a v).brm = s.brm := (rfl)
@[simp] theorem setReg_sgt (a : Nat) (v : Word) : (setReg s a v).sgt = s.sgt := (rfl)
@[simp] theorem setReg_jnl (a : Nat) (v : Word) : (setReg s a v).jnl = s.jnl := (rfl)
@[simp] theorem setReg_mem (a : Nat) (v : Word) : (setReg s a v).mem = s.mem := (rfl)
@[simp] theorem setReg_tmr (a : Nat) (v : Word) : (setReg s a v).tmr = s.tmr := (rfl)
@[simp] theorem setReg_tout (a : Nat) (v : Word) : (setReg s a v).tout = s.tout := (rfl)
@[simp] theorem setReg_hf (a : Nat) (v : Word) : (setReg s a v).hf = s.hf := (rfl)
@[simp] theorem setReg_grs (a : Nat) (v : Word) : (setReg s a v).grs = s.grs := (rfl)
@[simp] theorem setReg_tag (a : Nat) (v : Word) : (setReg s a v).tag = s.tag := (rfl)
@[simp] theorem setReg_lnk (a : Nat) (v : Word) : (setReg s a v).lnk = s.lnk := (rfl)
@[simp] theorem setReg_cal (a : Nat) (v : Word) : (setReg s a v).cal = s.cal := (rfl)
@[simp] theorem setReg_drawn (a : Nat) (v : Word) : (setReg s a v).drawn = s.drawn := (rfl)
@[simp] theorem setReg_pending (a : Nat) (v : Word) : (setReg s a v).pending = s.pending := (rfl)

@[simp] theorem setFld_fresh (f : Field) (v : Nat) : (setFld s f v).fresh = s.fresh := (rfl)
@[simp] theorem setFld_shadow (f : Field) (v : Nat) : (setFld s f v).shadow = s.shadow := (rfl)
@[simp] theorem setFld_parts (f : Field) (v : Nat) : (setFld s f v).parts = s.parts := (rfl)
@[simp] theorem setFld_clk (f : Field) (v : Nat) : (setFld s f v).clk = s.clk := (rfl)
@[simp] theorem setFld_pins (f : Field) (v : Nat) : (setFld s f v).pins = s.pins := (rfl)
@[simp] theorem setFld_modes (f : Field) (v : Nat) : (setFld s f v).modes = s.modes := (rfl)
@[simp] theorem setFld_boot (f : Field) (v : Nat) : (setFld s f v).boot = s.boot := (rfl)
@[simp] theorem setFld_host (f : Field) (v : Nat) : (setFld s f v).host = s.host := (rfl)
@[simp] theorem setFld_fifo (f : Field) (v : Nat) : (setFld s f v).fifo = s.fifo := (rfl)
@[simp] theorem setFld_qtz (f : Field) (v : Nat) : (setFld s f v).qtz = s.qtz := (rfl)
@[simp] theorem setFld_sched (f : Field) (v : Nat) : (setFld s f v).sched = s.sched := (rfl)
@[simp] theorem setFld_radio (f : Field) (v : Nat) : (setFld s f v).radio = s.radio := (rfl)
@[simp] theorem setFld_slate (f : Field) (v : Nat) : (setFld s f v).slate = s.slate := (rfl)
@[simp] theorem setFld_brm (f : Field) (v : Nat) : (setFld s f v).brm = s.brm := (rfl)
@[simp] theorem setFld_sgt (f : Field) (v : Nat) : (setFld s f v).sgt = s.sgt := (rfl)
@[simp] theorem setFld_jnl (f : Field) (v : Nat) : (setFld s f v).jnl = s.jnl := (rfl)
@[simp] theorem setFld_mem (f : Field) (v : Nat) : (setFld s f v).mem = s.mem := (rfl)
@[simp] theorem setFld_tmr (f : Field) (v : Nat) : (setFld s f v).tmr = s.tmr := (rfl)
@[simp] theorem setFld_tout (f : Field) (v : Nat) : (setFld s f v).tout = s.tout := (rfl)
@[simp] theorem setFld_hf (f : Field) (v : Nat) : (setFld s f v).hf = s.hf := (rfl)
@[simp] theorem setFld_grs (f : Field) (v : Nat) : (setFld s f v).grs = s.grs := (rfl)
@[simp] theorem setFld_tag (f : Field) (v : Nat) : (setFld s f v).tag = s.tag := (rfl)
@[simp] theorem setFld_lnk (f : Field) (v : Nat) : (setFld s f v).lnk = s.lnk := (rfl)
@[simp] theorem setFld_cal (f : Field) (v : Nat) : (setFld s f v).cal = s.cal := (rfl)
@[simp] theorem setFld_drawn (f : Field) (v : Nat) : (setFld s f v).drawn = s.drawn := (rfl)
@[simp] theorem setFld_pending (f : Field) (v : Nat) : (setFld s f v).pending = s.pending := (rfl)

@[simp] theorem setFlag_shadow (f : Field) : (setFlag s f).shadow = s.shadow := (rfl)
@[simp] theorem setFlag_parts (f : Field) : (setFlag s f).parts = s.parts := (rfl)
@[simp] theorem setFlag_clk (f : Field) : (setFlag s f).clk = s.clk := (rfl)
@[simp] theorem setFlag_pins (f : Field) : (setFlag s f).pins = s.pins := (rfl)
@[simp] theorem setFlag_modes (f : Field) : (setFlag s f).modes = s.modes := (rfl)
@[simp] theorem setFlag_boot (f : Field) : (setFlag s f).boot = s.boot := (rfl)
@[simp] theorem setFlag_host (f : Field) : (setFlag s f).host = s.host := (rfl)
@[simp] theorem setFlag_fifo (f : Field) : (setFlag s f).fifo = s.fifo := (rfl)
@[simp] theorem setFlag_qtz (f : Field) : (setFlag s f).qtz = s.qtz := (rfl)
@[simp] theorem setFlag_sched (f : Field) : (setFlag s f).sched = s.sched := (rfl)
@[simp] theorem setFlag_radio (f : Field) : (setFlag s f).radio = s.radio := (rfl)
@[simp] theorem setFlag_slate (f : Field) : (setFlag s f).slate = s.slate := (rfl)
@[simp] theorem setFlag_brm (f : Field) : (setFlag s f).brm = s.brm := (rfl)
@[simp] theorem setFlag_sgt (f : Field) : (setFlag s f).sgt = s.sgt := (rfl)
@[simp] theorem setFlag_jnl (f : Field) : (setFlag s f).jnl = s.jnl := (rfl)
@[simp] theorem setFlag_mem (f : Field) : (setFlag s f).mem = s.mem := (rfl)
@[simp] theorem setFlag_tmr (f : Field) : (setFlag s f).tmr = s.tmr := (rfl)
@[simp] theorem setFlag_tout (f : Field) : (setFlag s f).tout = s.tout := (rfl)
@[simp] theorem setFlag_hf (f : Field) : (setFlag s f).hf = s.hf := (rfl)
@[simp] theorem setFlag_grs (f : Field) : (setFlag s f).grs = s.grs := (rfl)
@[simp] theorem setFlag_tag (f : Field) : (setFlag s f).tag = s.tag := (rfl)
@[simp] theorem setFlag_lnk (f : Field) : (setFlag s f).lnk = s.lnk := (rfl)
@[simp] theorem setFlag_cal (f : Field) : (setFlag s f).cal = s.cal := (rfl)
@[simp] theorem setFlag_drawn (f : Field) : (setFlag s f).drawn = s.drawn := (rfl)
@[simp] theorem setFlag_pending (f : Field) : (setFlag s f).pending = s.pending := (rfl)

@[simp] theorem clrFld_fresh (f : Field) : (clrFld s f).fresh = s.fresh := (rfl)
@[simp] theorem clrFld_shadow (f : Field) : (clrFld s f).shadow = s.shadow := (rfl)
@[simp] theorem clrFld_parts (f : Field) : (clrFld s f).parts = s.parts := (rfl)
@[simp] theorem clrFld_clk (f : Field) : (clrFld s f).clk = s.clk := (rfl)
@[simp] theorem clrFld_pins (f : Field) : (clrFld s f).pins = s.pins := (rfl)
@[simp] theorem clrFld_modes (f : Field) : (clrFld s f).modes = s.modes := (rfl)
@[simp] theorem clrFld_boot (f : Field) : (clrFld s f).boot = s.boot := (rfl)
@[simp] theorem clrFld_host (f : Field) : (clrFld s f).host = s.host := (rfl)
@[simp] theorem clrFld_fifo (f : Field) : (clrFld s f).fifo = s.fifo := (rfl)
@[simp] theorem clrFld_qtz (f : Field) : (clrFld s f).qtz = s.qtz := (rfl)
@[simp] theorem clrFld_sched (f : Field) : (clrFld s f).sched = s.sched := (rfl)
@[simp] theorem clrFld_radio (f : Field) : (clrFld s f).radio = s.radio := (rfl)
@[simp] theorem clrFld_slate (f : Field) : (clrFld s f).slate = s.slate := (rfl)
@[simp] theorem clrFld_brm (f : Field) : (clrFld s f).brm = s.brm := (rfl)
@[simp] theorem clrFld_sgt (f : Field) : (clrFld s f).sgt = s.sgt := (rfl)
@[simp] theorem clrFld_jnl (f : Field) : (clrFld s f).jnl = s.jnl := (rfl)
@[simp] theorem clrFld_mem (f : Field) : (clrFld s f).mem = s.mem := (rfl)
@[simp] theorem clrFld_tmr (f : Field) : (clrFld s f).tmr = s.tmr := (rfl)
@[simp] theorem clrFld_tout (f : Field) : (clrFld s f).tout = s.tout := (rfl)
@[simp] theorem clrFld_hf (f : Field) : (clrFld s f).hf = s.hf := (rfl)
@[simp] theorem clrFld_grs (f : Field) : (clrFld s f).grs = s.grs := (rfl)
@[simp] theorem clrFld_tag (f : Field) : (clrFld s f).tag = s.tag := (rfl)
@[simp] theorem clrFld_lnk (f : Field) : (clrFld s f).lnk = s.lnk := (rfl)
@[simp] theorem clrFld_cal (f : Field) : (clrFld s f).cal = s.cal := (rfl)
@[simp] theorem clrFld_drawn (f : Field) : (clrFld s f).drawn = s.drawn := (rfl)
@[simp] theorem clrFld_pending (f : Field) : (clrFld s f).pending = s.pending := (rfl)

@[simp] theorem incSat_fresh (f : Field) (n : Nat) : (incSat s f n).fresh = s.fresh := (rfl)
@[simp] theorem incSat_shadow (f : Field) (n : Nat) : (incSat s f n).shadow = s.shadow := (rfl)
@[simp] theorem incSat_parts (f : Field) (n : Nat) : (incSat s f n).parts = s.parts := (rfl)
@[simp] theorem incSat_clk (f : Field) (n : Nat) : (incSat s f n).clk = s.clk := (rfl)
@[simp] theorem incSat_pins (f : Field) (n : Nat) : (incSat s f n).pins = s.pins := (rfl)
@[simp] theorem incSat_modes (f : Field) (n : Nat) : (incSat s f n).modes = s.modes := (rfl)
@[simp] theorem incSat_boot (f : Field) (n : Nat) : (incSat s f n).boot = s.boot := (rfl)
@[simp] theorem incSat_host (f : Field) (n : Nat) : (incSat s f n).host = s.host := (rfl)
@[simp] theorem incSat_fifo (f : Field) (n : Nat) : (incSat s f n).fifo = s.fifo := (rfl)
@[simp] theorem incSat_qtz (f : Field) (n : Nat) : (incSat s f n).qtz = s.qtz := (rfl)
@[simp] theorem incSat_sched (f : Field) (n : Nat) : (incSat s f n).sched = s.sched := (rfl)
@[simp] theorem incSat_radio (f : Field) (n : Nat) : (incSat s f n).radio = s.radio := (rfl)
@[simp] theorem incSat_slate (f : Field) (n : Nat) : (incSat s f n).slate = s.slate := (rfl)
@[simp] theorem incSat_brm (f : Field) (n : Nat) : (incSat s f n).brm = s.brm := (rfl)
@[simp] theorem incSat_sgt (f : Field) (n : Nat) : (incSat s f n).sgt = s.sgt := (rfl)
@[simp] theorem incSat_jnl (f : Field) (n : Nat) : (incSat s f n).jnl = s.jnl := (rfl)
@[simp] theorem incSat_mem (f : Field) (n : Nat) : (incSat s f n).mem = s.mem := (rfl)
@[simp] theorem incSat_tmr (f : Field) (n : Nat) : (incSat s f n).tmr = s.tmr := (rfl)
@[simp] theorem incSat_tout (f : Field) (n : Nat) : (incSat s f n).tout = s.tout := (rfl)
@[simp] theorem incSat_hf (f : Field) (n : Nat) : (incSat s f n).hf = s.hf := (rfl)
@[simp] theorem incSat_grs (f : Field) (n : Nat) : (incSat s f n).grs = s.grs := (rfl)
@[simp] theorem incSat_tag (f : Field) (n : Nat) : (incSat s f n).tag = s.tag := (rfl)
@[simp] theorem incSat_lnk (f : Field) (n : Nat) : (incSat s f n).lnk = s.lnk := (rfl)
@[simp] theorem incSat_cal (f : Field) (n : Nat) : (incSat s f n).cal = s.cal := (rfl)
@[simp] theorem incSat_drawn (f : Field) (n : Nat) : (incSat s f n).drawn = s.drawn := (rfl)
@[simp] theorem incSat_pending (f : Field) (n : Nat) : (incSat s f n).pending = s.pending := (rfl)

@[simp] theorem incMod_fresh (f : Field) (n : Nat) : (incMod s f n).fresh = s.fresh := (rfl)
@[simp] theorem incMod_shadow (f : Field) (n : Nat) : (incMod s f n).shadow = s.shadow := (rfl)
@[simp] theorem incMod_parts (f : Field) (n : Nat) : (incMod s f n).parts = s.parts := (rfl)
@[simp] theorem incMod_clk (f : Field) (n : Nat) : (incMod s f n).clk = s.clk := (rfl)
@[simp] theorem incMod_pins (f : Field) (n : Nat) : (incMod s f n).pins = s.pins := (rfl)
@[simp] theorem incMod_modes (f : Field) (n : Nat) : (incMod s f n).modes = s.modes := (rfl)
@[simp] theorem incMod_boot (f : Field) (n : Nat) : (incMod s f n).boot = s.boot := (rfl)
@[simp] theorem incMod_host (f : Field) (n : Nat) : (incMod s f n).host = s.host := (rfl)
@[simp] theorem incMod_fifo (f : Field) (n : Nat) : (incMod s f n).fifo = s.fifo := (rfl)
@[simp] theorem incMod_qtz (f : Field) (n : Nat) : (incMod s f n).qtz = s.qtz := (rfl)
@[simp] theorem incMod_sched (f : Field) (n : Nat) : (incMod s f n).sched = s.sched := (rfl)
@[simp] theorem incMod_radio (f : Field) (n : Nat) : (incMod s f n).radio = s.radio := (rfl)
@[simp] theorem incMod_slate (f : Field) (n : Nat) : (incMod s f n).slate = s.slate := (rfl)
@[simp] theorem incMod_brm (f : Field) (n : Nat) : (incMod s f n).brm = s.brm := (rfl)
@[simp] theorem incMod_sgt (f : Field) (n : Nat) : (incMod s f n).sgt = s.sgt := (rfl)
@[simp] theorem incMod_jnl (f : Field) (n : Nat) : (incMod s f n).jnl = s.jnl := (rfl)
@[simp] theorem incMod_mem (f : Field) (n : Nat) : (incMod s f n).mem = s.mem := (rfl)
@[simp] theorem incMod_tmr (f : Field) (n : Nat) : (incMod s f n).tmr = s.tmr := (rfl)
@[simp] theorem incMod_tout (f : Field) (n : Nat) : (incMod s f n).tout = s.tout := (rfl)
@[simp] theorem incMod_hf (f : Field) (n : Nat) : (incMod s f n).hf = s.hf := (rfl)
@[simp] theorem incMod_grs (f : Field) (n : Nat) : (incMod s f n).grs = s.grs := (rfl)
@[simp] theorem incMod_tag (f : Field) (n : Nat) : (incMod s f n).tag = s.tag := (rfl)
@[simp] theorem incMod_lnk (f : Field) (n : Nat) : (incMod s f n).lnk = s.lnk := (rfl)
@[simp] theorem incMod_cal (f : Field) (n : Nat) : (incMod s f n).cal = s.cal := (rfl)
@[simp] theorem incMod_drawn (f : Field) (n : Nat) : (incMod s f n).drawn = s.drawn := (rfl)
@[simp] theorem incMod_pending (f : Field) (n : Nat) : (incMod s f n).pending = s.pending := (rfl)

@[simp] theorem raise_shadow (k : Nat) : (raise s k).shadow = s.shadow := (rfl)
@[simp] theorem raise_parts (k : Nat) : (raise s k).parts = s.parts := (rfl)
@[simp] theorem raise_clk (k : Nat) : (raise s k).clk = s.clk := (rfl)
@[simp] theorem raise_pins (k : Nat) : (raise s k).pins = s.pins := (rfl)
@[simp] theorem raise_modes (k : Nat) : (raise s k).modes = s.modes := (rfl)
@[simp] theorem raise_boot (k : Nat) : (raise s k).boot = s.boot := (rfl)
@[simp] theorem raise_host (k : Nat) : (raise s k).host = s.host := (rfl)
@[simp] theorem raise_fifo (k : Nat) : (raise s k).fifo = s.fifo := (rfl)
@[simp] theorem raise_qtz (k : Nat) : (raise s k).qtz = s.qtz := (rfl)
@[simp] theorem raise_sched (k : Nat) : (raise s k).sched = s.sched := (rfl)
@[simp] theorem raise_radio (k : Nat) : (raise s k).radio = s.radio := (rfl)
@[simp] theorem raise_slate (k : Nat) : (raise s k).slate = s.slate := (rfl)
@[simp] theorem raise_brm (k : Nat) : (raise s k).brm = s.brm := (rfl)
@[simp] theorem raise_sgt (k : Nat) : (raise s k).sgt = s.sgt := (rfl)
@[simp] theorem raise_jnl (k : Nat) : (raise s k).jnl = s.jnl := (rfl)
@[simp] theorem raise_mem (k : Nat) : (raise s k).mem = s.mem := (rfl)
@[simp] theorem raise_tmr (k : Nat) : (raise s k).tmr = s.tmr := (rfl)
@[simp] theorem raise_tout (k : Nat) : (raise s k).tout = s.tout := (rfl)
@[simp] theorem raise_hf (k : Nat) : (raise s k).hf = s.hf := (rfl)
@[simp] theorem raise_grs (k : Nat) : (raise s k).grs = s.grs := (rfl)
@[simp] theorem raise_tag (k : Nat) : (raise s k).tag = s.tag := (rfl)
@[simp] theorem raise_lnk (k : Nat) : (raise s k).lnk = s.lnk := (rfl)
@[simp] theorem raise_cal (k : Nat) : (raise s k).cal = s.cal := (rfl)
@[simp] theorem raise_drawn (k : Nat) : (raise s k).drawn = s.drawn := (rfl)
@[simp] theorem raise_pending (k : Nat) : (raise s k).pending = s.pending := (rfl)

@[simp] theorem stage_regs (a : Nat) (v : Word) : (stage s a v).regs = s.regs := (rfl)
@[simp] theorem stage_fresh (a : Nat) (v : Word) : (stage s a v).fresh = s.fresh := (rfl)
@[simp] theorem stage_parts (a : Nat) (v : Word) : (stage s a v).parts = s.parts := (rfl)
@[simp] theorem stage_clk (a : Nat) (v : Word) : (stage s a v).clk = s.clk := (rfl)
@[simp] theorem stage_pins (a : Nat) (v : Word) : (stage s a v).pins = s.pins := (rfl)
@[simp] theorem stage_modes (a : Nat) (v : Word) : (stage s a v).modes = s.modes := (rfl)
@[simp] theorem stage_boot (a : Nat) (v : Word) : (stage s a v).boot = s.boot := (rfl)
@[simp] theorem stage_host (a : Nat) (v : Word) : (stage s a v).host = s.host := (rfl)
@[simp] theorem stage_fifo (a : Nat) (v : Word) : (stage s a v).fifo = s.fifo := (rfl)
@[simp] theorem stage_qtz (a : Nat) (v : Word) : (stage s a v).qtz = s.qtz := (rfl)
@[simp] theorem stage_sched (a : Nat) (v : Word) : (stage s a v).sched = s.sched := (rfl)
@[simp] theorem stage_radio (a : Nat) (v : Word) : (stage s a v).radio = s.radio := (rfl)
@[simp] theorem stage_slate (a : Nat) (v : Word) : (stage s a v).slate = s.slate := (rfl)
@[simp] theorem stage_brm (a : Nat) (v : Word) : (stage s a v).brm = s.brm := (rfl)
@[simp] theorem stage_sgt (a : Nat) (v : Word) : (stage s a v).sgt = s.sgt := (rfl)
@[simp] theorem stage_jnl (a : Nat) (v : Word) : (stage s a v).jnl = s.jnl := (rfl)
@[simp] theorem stage_mem (a : Nat) (v : Word) : (stage s a v).mem = s.mem := (rfl)
@[simp] theorem stage_tmr (a : Nat) (v : Word) : (stage s a v).tmr = s.tmr := (rfl)
@[simp] theorem stage_tout (a : Nat) (v : Word) : (stage s a v).tout = s.tout := (rfl)
@[simp] theorem stage_hf (a : Nat) (v : Word) : (stage s a v).hf = s.hf := (rfl)
@[simp] theorem stage_grs (a : Nat) (v : Word) : (stage s a v).grs = s.grs := (rfl)
@[simp] theorem stage_tag (a : Nat) (v : Word) : (stage s a v).tag = s.tag := (rfl)
@[simp] theorem stage_lnk (a : Nat) (v : Word) : (stage s a v).lnk = s.lnk := (rfl)
@[simp] theorem stage_cal (a : Nat) (v : Word) : (stage s a v).cal = s.cal := (rfl)
@[simp] theorem stage_drawn (a : Nat) (v : Word) : (stage s a v).drawn = s.drawn := (rfl)
@[simp] theorem stage_pending (a : Nat) (v : Word) : (stage s a v).pending = s.pending := (rfl)

@[simp] theorem drawWord_regs : ((drawWord s).2).regs = s.regs := (rfl)
@[simp] theorem drawWord_fresh : ((drawWord s).2).fresh = s.fresh := (rfl)
@[simp] theorem drawWord_shadow : ((drawWord s).2).shadow = s.shadow := (rfl)
@[simp] theorem drawWord_parts : ((drawWord s).2).parts = s.parts := (rfl)
@[simp] theorem drawWord_clk : ((drawWord s).2).clk = s.clk := (rfl)
@[simp] theorem drawWord_pins : ((drawWord s).2).pins = s.pins := (rfl)
@[simp] theorem drawWord_modes : ((drawWord s).2).modes = s.modes := (rfl)
@[simp] theorem drawWord_boot : ((drawWord s).2).boot = s.boot := (rfl)
@[simp] theorem drawWord_host : ((drawWord s).2).host = s.host := (rfl)
@[simp] theorem drawWord_fifo : ((drawWord s).2).fifo = s.fifo := (rfl)
@[simp] theorem drawWord_qtz : ((drawWord s).2).qtz = s.qtz := (rfl)
@[simp] theorem drawWord_sched : ((drawWord s).2).sched = s.sched := (rfl)
@[simp] theorem drawWord_radio : ((drawWord s).2).radio = s.radio := (rfl)
@[simp] theorem drawWord_slate : ((drawWord s).2).slate = s.slate := (rfl)
@[simp] theorem drawWord_brm : ((drawWord s).2).brm = s.brm := (rfl)
@[simp] theorem drawWord_sgt : ((drawWord s).2).sgt = s.sgt := (rfl)
@[simp] theorem drawWord_jnl : ((drawWord s).2).jnl = s.jnl := (rfl)
@[simp] theorem drawWord_mem : ((drawWord s).2).mem = s.mem := (rfl)
@[simp] theorem drawWord_tmr : ((drawWord s).2).tmr = s.tmr := (rfl)
@[simp] theorem drawWord_tout : ((drawWord s).2).tout = s.tout := (rfl)
@[simp] theorem drawWord_hf : ((drawWord s).2).hf = s.hf := (rfl)
@[simp] theorem drawWord_grs : ((drawWord s).2).grs = s.grs := (rfl)
@[simp] theorem drawWord_tag : ((drawWord s).2).tag = s.tag := (rfl)
@[simp] theorem drawWord_lnk : ((drawWord s).2).lnk = s.lnk := (rfl)
@[simp] theorem drawWord_cal : ((drawWord s).2).cal = s.cal := (rfl)
@[simp] theorem drawWord_pending : ((drawWord s).2).pending = s.pending := (rfl)

@[simp] theorem drawRandom_regs : ((drawRandom s).2).regs = s.regs := (rfl)
@[simp] theorem drawRandom_fresh : ((drawRandom s).2).fresh = s.fresh := (rfl)
@[simp] theorem drawRandom_shadow : ((drawRandom s).2).shadow = s.shadow := (rfl)
@[simp] theorem drawRandom_parts : ((drawRandom s).2).parts = s.parts := (rfl)
@[simp] theorem drawRandom_clk : ((drawRandom s).2).clk = s.clk := (rfl)
@[simp] theorem drawRandom_pins : ((drawRandom s).2).pins = s.pins := (rfl)
@[simp] theorem drawRandom_modes : ((drawRandom s).2).modes = s.modes := (rfl)
@[simp] theorem drawRandom_boot : ((drawRandom s).2).boot = s.boot := (rfl)
@[simp] theorem drawRandom_host : ((drawRandom s).2).host = s.host := (rfl)
@[simp] theorem drawRandom_fifo : ((drawRandom s).2).fifo = s.fifo := (rfl)
@[simp] theorem drawRandom_qtz : ((drawRandom s).2).qtz = s.qtz := (rfl)
@[simp] theorem drawRandom_sched : ((drawRandom s).2).sched = s.sched := (rfl)
@[simp] theorem drawRandom_radio : ((drawRandom s).2).radio = s.radio := (rfl)
@[simp] theorem drawRandom_slate : ((drawRandom s).2).slate = s.slate := (rfl)
@[simp] theorem drawRandom_brm : ((drawRandom s).2).brm = s.brm := (rfl)
@[simp] theorem drawRandom_sgt : ((drawRandom s).2).sgt = s.sgt := (rfl)
@[simp] theorem drawRandom_jnl : ((drawRandom s).2).jnl = s.jnl := (rfl)
@[simp] theorem drawRandom_mem : ((drawRandom s).2).mem = s.mem := (rfl)
@[simp] theorem drawRandom_tmr : ((drawRandom s).2).tmr = s.tmr := (rfl)
@[simp] theorem drawRandom_tout : ((drawRandom s).2).tout = s.tout := (rfl)
@[simp] theorem drawRandom_hf : ((drawRandom s).2).hf = s.hf := (rfl)
@[simp] theorem drawRandom_grs : ((drawRandom s).2).grs = s.grs := (rfl)
@[simp] theorem drawRandom_tag : ((drawRandom s).2).tag = s.tag := (rfl)
@[simp] theorem drawRandom_lnk : ((drawRandom s).2).lnk = s.lnk := (rfl)
@[simp] theorem drawRandom_cal : ((drawRandom s).2).cal = s.cal := (rfl)
@[simp] theorem drawRandom_pending : ((drawRandom s).2).pending = s.pending := (rfl)

@[simp] theorem setChan_regs (n : Nat) (c : Chan) : (setChan s n c).regs = s.regs := (rfl)
@[simp] theorem setChan_fresh (n : Nat) (c : Chan) : (setChan s n c).fresh = s.fresh := (rfl)
@[simp] theorem setChan_shadow (n : Nat) (c : Chan) : (setChan s n c).shadow = s.shadow := (rfl)
@[simp] theorem setChan_parts (n : Nat) (c : Chan) : (setChan s n c).parts = s.parts := (rfl)
@[simp] theorem setChan_clk (n : Nat) (c : Chan) : (setChan s n c).clk = s.clk := (rfl)
@[simp] theorem setChan_pins (n : Nat) (c : Chan) : (setChan s n c).pins = s.pins := (rfl)
@[simp] theorem setChan_modes (n : Nat) (c : Chan) : (setChan s n c).modes = s.modes := (rfl)
@[simp] theorem setChan_boot (n : Nat) (c : Chan) : (setChan s n c).boot = s.boot := (rfl)
@[simp] theorem setChan_host (n : Nat) (c : Chan) : (setChan s n c).host = s.host := (rfl)
@[simp] theorem setChan_qtz (n : Nat) (c : Chan) : (setChan s n c).qtz = s.qtz := (rfl)
@[simp] theorem setChan_sched (n : Nat) (c : Chan) : (setChan s n c).sched = s.sched := (rfl)
@[simp] theorem setChan_radio (n : Nat) (c : Chan) : (setChan s n c).radio = s.radio := (rfl)
@[simp] theorem setChan_slate (n : Nat) (c : Chan) : (setChan s n c).slate = s.slate := (rfl)
@[simp] theorem setChan_brm (n : Nat) (c : Chan) : (setChan s n c).brm = s.brm := (rfl)
@[simp] theorem setChan_sgt (n : Nat) (c : Chan) : (setChan s n c).sgt = s.sgt := (rfl)
@[simp] theorem setChan_jnl (n : Nat) (c : Chan) : (setChan s n c).jnl = s.jnl := (rfl)
@[simp] theorem setChan_mem (n : Nat) (c : Chan) : (setChan s n c).mem = s.mem := (rfl)
@[simp] theorem setChan_tmr (n : Nat) (c : Chan) : (setChan s n c).tmr = s.tmr := (rfl)
@[simp] theorem setChan_tout (n : Nat) (c : Chan) : (setChan s n c).tout = s.tout := (rfl)
@[simp] theorem setChan_hf (n : Nat) (c : Chan) : (setChan s n c).hf = s.hf := (rfl)
@[simp] theorem setChan_grs (n : Nat) (c : Chan) : (setChan s n c).grs = s.grs := (rfl)
@[simp] theorem setChan_tag (n : Nat) (c : Chan) : (setChan s n c).tag = s.tag := (rfl)
@[simp] theorem setChan_lnk (n : Nat) (c : Chan) : (setChan s n c).lnk = s.lnk := (rfl)
@[simp] theorem setChan_cal (n : Nat) (c : Chan) : (setChan s n c).cal = s.cal := (rfl)
@[simp] theorem setChan_drawn (n : Nat) (c : Chan) : (setChan s n c).drawn = s.drawn := (rfl)
@[simp] theorem setChan_pending (n : Nat) (c : Chan) : (setChan s n c).pending = s.pending := (rfl)

@[simp] theorem grantPoint_regs : (grantPoint s).regs = s.regs := (rfl)
@[simp] theorem grantPoint_fresh : (grantPoint s).fresh = s.fresh := (rfl)
@[simp] theorem grantPoint_shadow : (grantPoint s).shadow = s.shadow := (rfl)
@[simp] theorem grantPoint_parts : (grantPoint s).parts = s.parts := (rfl)
@[simp] theorem grantPoint_clk : (grantPoint s).clk = s.clk := (rfl)
@[simp] theorem grantPoint_pins : (grantPoint s).pins = s.pins := (rfl)
@[simp] theorem grantPoint_modes : (grantPoint s).modes = s.modes := (rfl)
@[simp] theorem grantPoint_boot : (grantPoint s).boot = s.boot := (rfl)
@[simp] theorem grantPoint_host : (grantPoint s).host = s.host := (rfl)
@[simp] theorem grantPoint_fifo : (grantPoint s).fifo = s.fifo := (rfl)
@[simp] theorem grantPoint_qtz : (grantPoint s).qtz = s.qtz := (rfl)
@[simp] theorem grantPoint_radio : (grantPoint s).radio = s.radio := (rfl)
@[simp] theorem grantPoint_slate : (grantPoint s).slate = s.slate := (rfl)
@[simp] theorem grantPoint_brm : (grantPoint s).brm = s.brm := (rfl)
@[simp] theorem grantPoint_sgt : (grantPoint s).sgt = s.sgt := (rfl)
@[simp] theorem grantPoint_jnl : (grantPoint s).jnl = s.jnl := (rfl)
@[simp] theorem grantPoint_mem : (grantPoint s).mem = s.mem := (rfl)
@[simp] theorem grantPoint_tmr : (grantPoint s).tmr = s.tmr := (rfl)
@[simp] theorem grantPoint_tout : (grantPoint s).tout = s.tout := (rfl)
@[simp] theorem grantPoint_hf : (grantPoint s).hf = s.hf := (rfl)
@[simp] theorem grantPoint_grs : (grantPoint s).grs = s.grs := (rfl)
@[simp] theorem grantPoint_tag : (grantPoint s).tag = s.tag := (rfl)
@[simp] theorem grantPoint_lnk : (grantPoint s).lnk = s.lnk := (rfl)
@[simp] theorem grantPoint_cal : (grantPoint s).cal = s.cal := (rfl)
@[simp] theorem grantPoint_drawn : (grantPoint s).drawn = s.drawn := (rfl)
@[simp] theorem grantPoint_pending : (grantPoint s).pending = s.pending := (rfl)

@[simp] theorem setTmr_regs (n : Nat) (t : Tmr) : (setTmr s n t).regs = s.regs := (rfl)
@[simp] theorem setTmr_fresh (n : Nat) (t : Tmr) : (setTmr s n t).fresh = s.fresh := (rfl)
@[simp] theorem setTmr_shadow (n : Nat) (t : Tmr) : (setTmr s n t).shadow = s.shadow := (rfl)
@[simp] theorem setTmr_parts (n : Nat) (t : Tmr) : (setTmr s n t).parts = s.parts := (rfl)
@[simp] theorem setTmr_clk (n : Nat) (t : Tmr) : (setTmr s n t).clk = s.clk := (rfl)
@[simp] theorem setTmr_pins (n : Nat) (t : Tmr) : (setTmr s n t).pins = s.pins := (rfl)
@[simp] theorem setTmr_modes (n : Nat) (t : Tmr) : (setTmr s n t).modes = s.modes := (rfl)
@[simp] theorem setTmr_boot (n : Nat) (t : Tmr) : (setTmr s n t).boot = s.boot := (rfl)
@[simp] theorem setTmr_host (n : Nat) (t : Tmr) : (setTmr s n t).host = s.host := (rfl)
@[simp] theorem setTmr_fifo (n : Nat) (t : Tmr) : (setTmr s n t).fifo = s.fifo := (rfl)
@[simp] theorem setTmr_qtz (n : Nat) (t : Tmr) : (setTmr s n t).qtz = s.qtz := (rfl)
@[simp] theorem setTmr_sched (n : Nat) (t : Tmr) : (setTmr s n t).sched = s.sched := (rfl)
@[simp] theorem setTmr_radio (n : Nat) (t : Tmr) : (setTmr s n t).radio = s.radio := (rfl)
@[simp] theorem setTmr_slate (n : Nat) (t : Tmr) : (setTmr s n t).slate = s.slate := (rfl)
@[simp] theorem setTmr_brm (n : Nat) (t : Tmr) : (setTmr s n t).brm = s.brm := (rfl)
@[simp] theorem setTmr_sgt (n : Nat) (t : Tmr) : (setTmr s n t).sgt = s.sgt := (rfl)
@[simp] theorem setTmr_jnl (n : Nat) (t : Tmr) : (setTmr s n t).jnl = s.jnl := (rfl)
@[simp] theorem setTmr_mem (n : Nat) (t : Tmr) : (setTmr s n t).mem = s.mem := (rfl)
@[simp] theorem setTmr_tout (n : Nat) (t : Tmr) : (setTmr s n t).tout = s.tout := (rfl)
@[simp] theorem setTmr_hf (n : Nat) (t : Tmr) : (setTmr s n t).hf = s.hf := (rfl)
@[simp] theorem setTmr_grs (n : Nat) (t : Tmr) : (setTmr s n t).grs = s.grs := (rfl)
@[simp] theorem setTmr_tag (n : Nat) (t : Tmr) : (setTmr s n t).tag = s.tag := (rfl)
@[simp] theorem setTmr_lnk (n : Nat) (t : Tmr) : (setTmr s n t).lnk = s.lnk := (rfl)
@[simp] theorem setTmr_cal (n : Nat) (t : Tmr) : (setTmr s n t).cal = s.cal := (rfl)
@[simp] theorem setTmr_drawn (n : Nat) (t : Tmr) : (setTmr s n t).drawn = s.drawn := (rfl)
@[simp] theorem setTmr_pending (n : Nat) (t : Tmr) : (setTmr s n t).pending = s.pending := (rfl)

@[simp] theorem setHost_regs (h : HostPort) : (setHost s h).regs = s.regs := (rfl)
@[simp] theorem setHost_fresh (h : HostPort) : (setHost s h).fresh = s.fresh := (rfl)
@[simp] theorem setHost_shadow (h : HostPort) : (setHost s h).shadow = s.shadow := (rfl)
@[simp] theorem setHost_parts (h : HostPort) : (setHost s h).parts = s.parts := (rfl)
@[simp] theorem setHost_clk (h : HostPort) : (setHost s h).clk = s.clk := (rfl)
@[simp] theorem setHost_pins (h : HostPort) : (setHost s h).pins = s.pins := (rfl)
@[simp] theorem setHost_modes (h : HostPort) : (setHost s h).modes = s.modes := (rfl)
@[simp] theorem setHost_boot (h : HostPort) : (setHost s h).boot = s.boot := (rfl)
@[simp] theorem setHost_fifo (h : HostPort) : (setHost s h).fifo = s.fifo := (rfl)
@[simp] theorem setHost_qtz (h : HostPort) : (setHost s h).qtz = s.qtz := (rfl)
@[simp] theorem setHost_sched (h : HostPort) : (setHost s h).sched = s.sched := (rfl)
@[simp] theorem setHost_radio (h : HostPort) : (setHost s h).radio = s.radio := (rfl)
@[simp] theorem setHost_slate (h : HostPort) : (setHost s h).slate = s.slate := (rfl)
@[simp] theorem setHost_brm (h : HostPort) : (setHost s h).brm = s.brm := (rfl)
@[simp] theorem setHost_sgt (h : HostPort) : (setHost s h).sgt = s.sgt := (rfl)
@[simp] theorem setHost_jnl (h : HostPort) : (setHost s h).jnl = s.jnl := (rfl)
@[simp] theorem setHost_mem (h : HostPort) : (setHost s h).mem = s.mem := (rfl)
@[simp] theorem setHost_tmr (h : HostPort) : (setHost s h).tmr = s.tmr := (rfl)
@[simp] theorem setHost_tout (h : HostPort) : (setHost s h).tout = s.tout := (rfl)
@[simp] theorem setHost_hf (h : HostPort) : (setHost s h).hf = s.hf := (rfl)
@[simp] theorem setHost_grs (h : HostPort) : (setHost s h).grs = s.grs := (rfl)
@[simp] theorem setHost_tag (h : HostPort) : (setHost s h).tag = s.tag := (rfl)
@[simp] theorem setHost_lnk (h : HostPort) : (setHost s h).lnk = s.lnk := (rfl)
@[simp] theorem setHost_cal (h : HostPort) : (setHost s h).cal = s.cal := (rfl)
@[simp] theorem setHost_drawn (h : HostPort) : (setHost s h).drawn = s.drawn := (rfl)
@[simp] theorem setHost_pending (h : HostPort) : (setHost s h).pending = s.pending := (rfl)

@[simp] theorem putG3_regs (g : Option G3Run) : (putG3 s g).regs = s.regs := (rfl)
@[simp] theorem putG3_fresh (g : Option G3Run) : (putG3 s g).fresh = s.fresh := (rfl)
@[simp] theorem putG3_shadow (g : Option G3Run) : (putG3 s g).shadow = s.shadow := (rfl)
@[simp] theorem putG3_parts (g : Option G3Run) : (putG3 s g).parts = s.parts := (rfl)
@[simp] theorem putG3_clk (g : Option G3Run) : (putG3 s g).clk = s.clk := (rfl)
@[simp] theorem putG3_pins (g : Option G3Run) : (putG3 s g).pins = s.pins := (rfl)
@[simp] theorem putG3_modes (g : Option G3Run) : (putG3 s g).modes = s.modes := (rfl)
@[simp] theorem putG3_boot (g : Option G3Run) : (putG3 s g).boot = s.boot := (rfl)
@[simp] theorem putG3_fifo (g : Option G3Run) : (putG3 s g).fifo = s.fifo := (rfl)
@[simp] theorem putG3_qtz (g : Option G3Run) : (putG3 s g).qtz = s.qtz := (rfl)
@[simp] theorem putG3_sched (g : Option G3Run) : (putG3 s g).sched = s.sched := (rfl)
@[simp] theorem putG3_radio (g : Option G3Run) : (putG3 s g).radio = s.radio := (rfl)
@[simp] theorem putG3_slate (g : Option G3Run) : (putG3 s g).slate = s.slate := (rfl)
@[simp] theorem putG3_brm (g : Option G3Run) : (putG3 s g).brm = s.brm := (rfl)
@[simp] theorem putG3_sgt (g : Option G3Run) : (putG3 s g).sgt = s.sgt := (rfl)
@[simp] theorem putG3_jnl (g : Option G3Run) : (putG3 s g).jnl = s.jnl := (rfl)
@[simp] theorem putG3_mem (g : Option G3Run) : (putG3 s g).mem = s.mem := (rfl)
@[simp] theorem putG3_tmr (g : Option G3Run) : (putG3 s g).tmr = s.tmr := (rfl)
@[simp] theorem putG3_tout (g : Option G3Run) : (putG3 s g).tout = s.tout := (rfl)
@[simp] theorem putG3_hf (g : Option G3Run) : (putG3 s g).hf = s.hf := (rfl)
@[simp] theorem putG3_grs (g : Option G3Run) : (putG3 s g).grs = s.grs := (rfl)
@[simp] theorem putG3_tag (g : Option G3Run) : (putG3 s g).tag = s.tag := (rfl)
@[simp] theorem putG3_lnk (g : Option G3Run) : (putG3 s g).lnk = s.lnk := (rfl)
@[simp] theorem putG3_cal (g : Option G3Run) : (putG3 s g).cal = s.cal := (rfl)
@[simp] theorem putG3_drawn (g : Option G3Run) : (putG3 s g).drawn = s.drawn := (rfl)
@[simp] theorem putG3_pending (g : Option G3Run) : (putG3 s g).pending = s.pending := (rfl)

@[simp] theorem setHrdy_regs (v : Bool) : (setHrdy s v).regs = s.regs := (rfl)
@[simp] theorem setHrdy_fresh (v : Bool) : (setHrdy s v).fresh = s.fresh := (rfl)
@[simp] theorem setHrdy_shadow (v : Bool) : (setHrdy s v).shadow = s.shadow := (rfl)
@[simp] theorem setHrdy_parts (v : Bool) : (setHrdy s v).parts = s.parts := (rfl)
@[simp] theorem setHrdy_clk (v : Bool) : (setHrdy s v).clk = s.clk := (rfl)
@[simp] theorem setHrdy_modes (v : Bool) : (setHrdy s v).modes = s.modes := (rfl)
@[simp] theorem setHrdy_boot (v : Bool) : (setHrdy s v).boot = s.boot := (rfl)
@[simp] theorem setHrdy_host (v : Bool) : (setHrdy s v).host = s.host := (rfl)
@[simp] theorem setHrdy_fifo (v : Bool) : (setHrdy s v).fifo = s.fifo := (rfl)
@[simp] theorem setHrdy_qtz (v : Bool) : (setHrdy s v).qtz = s.qtz := (rfl)
@[simp] theorem setHrdy_sched (v : Bool) : (setHrdy s v).sched = s.sched := (rfl)
@[simp] theorem setHrdy_radio (v : Bool) : (setHrdy s v).radio = s.radio := (rfl)
@[simp] theorem setHrdy_slate (v : Bool) : (setHrdy s v).slate = s.slate := (rfl)
@[simp] theorem setHrdy_brm (v : Bool) : (setHrdy s v).brm = s.brm := (rfl)
@[simp] theorem setHrdy_sgt (v : Bool) : (setHrdy s v).sgt = s.sgt := (rfl)
@[simp] theorem setHrdy_jnl (v : Bool) : (setHrdy s v).jnl = s.jnl := (rfl)
@[simp] theorem setHrdy_mem (v : Bool) : (setHrdy s v).mem = s.mem := (rfl)
@[simp] theorem setHrdy_tmr (v : Bool) : (setHrdy s v).tmr = s.tmr := (rfl)
@[simp] theorem setHrdy_tout (v : Bool) : (setHrdy s v).tout = s.tout := (rfl)
@[simp] theorem setHrdy_hf (v : Bool) : (setHrdy s v).hf = s.hf := (rfl)
@[simp] theorem setHrdy_grs (v : Bool) : (setHrdy s v).grs = s.grs := (rfl)
@[simp] theorem setHrdy_tag (v : Bool) : (setHrdy s v).tag = s.tag := (rfl)
@[simp] theorem setHrdy_lnk (v : Bool) : (setHrdy s v).lnk = s.lnk := (rfl)
@[simp] theorem setHrdy_cal (v : Bool) : (setHrdy s v).cal = s.cal := (rfl)
@[simp] theorem setHrdy_drawn (v : Bool) : (setHrdy s v).drawn = s.drawn := (rfl)
@[simp] theorem setHrdy_pending (v : Bool) : (setHrdy s v).pending = s.pending := (rfl)

end Sys2Proof.Machine
end

