-- ==== Sys2Proof/Laws/Regs.lean ====
section
/-! SUPPORT. Reading back what was written: register files, registers, bit fields. -/

namespace Sys2Proof.Machine

/-! ### Register files -/

theorem regFind_regPut (m : RegFile) (a b : Nat) (v : Word) :
    regFind (regPut m a v) b = if b = a then some v else regFind m b := by
  induction m with
  | nil => simp [regPut, regFind]
  | cons p m ih =>
    obtain ⟨c, w⟩ := p
    simp only [regPut]
    by_cases hac : a = c
    · subst hac
      by_cases h : b = a <;> simp [regFind, h]
    · rw [if_neg hac]
      split
      · simp [regFind]
      · by_cases h : b = c
        · simp [regFind, h, Ne.symm hac]
        · simp only [regFind, h, ite_false]
          exact ih

@[simp] theorem regFind_regPut_self (m : RegFile) (a : Nat) (v : Word) : regFind (regPut m a v) a = some v := by
  simp [regFind_regPut]

theorem regFind_regPut_ne (m : RegFile) {a b : Nat} (v : Word) (h : b ≠ a) : regFind (regPut m a v) b = regFind m b := by
  simp [regFind_regPut, h]

/-! ### Registers -/

theorem reg_setReg (s : State) (a b : Nat) (v : Word) : reg (setReg s a v) b = if b = a then v else reg s b := by
  unfold reg setReg
  rw [regFind_regPut]
  split <;> simp

@[simp] theorem reg_setReg_self (s : State) (a : Nat) (v : Word) : reg (setReg s a v) a = v := by simp [reg_setReg]

theorem reg_setReg_ne (s : State) {a b : Nat} (v : Word) (h : b ≠ a) : reg (setReg s a v) b = reg s b := by
  simp [reg_setReg, h]

theorem reg_setFld_ne (s : State) (f : Field) (v : Nat) {b : Nat} (h : b ≠ f.addr) : reg (setFld s f v) b = reg s b :=
  reg_setReg_ne s _ h

theorem fld_setReg_ne (s : State) (a : Nat) (v : Word) (g : Field) (h : g.addr ≠ a) : fld (setReg s a v) g = fld s g := by
  unfold fld
  rw [reg_setReg_ne s v h]

theorem fld_setFld_ne (s : State) (f g : Field) (v : Nat) (h : g.addr ≠ f.addr) : fld (setFld s f v) g = fld s g :=
  fld_setReg_ne s _ _ g h

/-! ### Bit fields -/

theorem testBit_maskOf (hi lo i : Nat) :
    (maskOf hi lo).getLsbD i = (decide (i < 32) && (decide (lo ≤ i) && decide (i < hi + 1))) := by
  unfold maskOf
  rw [BitVec.getLsbD_ofNat, Nat.testBit_shiftLeft, Nat.testBit_two_pow_sub_one]
  by_cases h1 : lo ≤ i
  · have : i - lo < hi + 1 - lo ↔ i < hi + 1 := by omega
    simp [h1, this]
  · simp [h1]

theorem getLsbD_putBits (w : Word) (hi lo v i : Nat) :
    (putBits w hi lo v).getLsbD i =
      if lo ≤ i ∧ i ≤ hi ∧ i < 32 then v.testBit (i - lo) else w.getLsbD i := by
  unfold putBits
  simp only [BitVec.getLsbD_or, BitVec.getLsbD_and, BitVec.getLsbD_not, testBit_maskOf, BitVec.getLsbD_ofNat,
    Nat.testBit_shiftLeft]
  by_cases h32 : i < 32
  · by_cases hl : lo ≤ i
    · by_cases hh : i ≤ hi
      · simp [h32, hl, hh, Nat.lt_succ_of_le hh]
      · have : ¬ i < hi + 1 := by omega
        simp [h32, hl, hh, this]
    · simp [h32, hl]
  · have : w.getLsbD i = false := BitVec.getLsbD_of_ge w i (by omega)
    simp [h32, this]

theorem testBit_bitsOf (w : Word) (hi lo i : Nat) :
    (bitsOf w hi lo).testBit i = (decide (i < hi + 1 - lo) && w.getLsbD (lo + i)) := by
  unfold bitsOf
  rw [Nat.testBit_mod_two_pow, Nat.testBit_shiftRight, BitVec.testBit_toNat]

/-- A field reads back what was put into it. -/
theorem bitsOf_putBits_same (w : Word) {hi lo : Nat} (v : Nat) (h : hi < 32) :
    bitsOf (putBits w hi lo v) hi lo = v % 2 ^ (hi + 1 - lo) := by
  apply Nat.eq_of_testBit_eq
  intro i
  rw [testBit_bitsOf, getLsbD_putBits, Nat.testBit_mod_two_pow]
  by_cases hi' : i < hi + 1 - lo
  · have : lo ≤ lo + i ∧ lo + i ≤ hi ∧ lo + i < 32 := by omega
    simp [hi', this]
  · simp [hi']

/-- A field apart from the one written keeps its value. -/
theorem bitsOf_putBits_apart (w : Word) {hi lo h2 l2 : Nat} (v : Nat) (h : h2 < lo ∨ hi < l2) :
    bitsOf (putBits w hi lo v) h2 l2 = bitsOf w h2 l2 := by
  apply Nat.eq_of_testBit_eq
  intro i
  rw [testBit_bitsOf, testBit_bitsOf, getLsbD_putBits]
  by_cases hi' : i < h2 + 1 - l2
  · have : ¬ (lo ≤ l2 + i ∧ l2 + i ≤ hi ∧ l2 + i < 32) := by omega
    simp [this]
  · simp [hi']

/-! ### Fields of registers -/

/-- A field reads back what was written to it. -/
theorem fld_setFld_self (s : State) (f : Field) (v : Nat) (h : f.hi < 32) :
    fld (setFld s f v) f = v % 2 ^ (f.hi + 1 - f.lo) := by
  unfold fld setFld
  rw [reg_setReg_self]
  exact bitsOf_putBits_same _ v h

/-- A field apart from the one written keeps its value. -/
theorem fld_setFld_apart (s : State) (f g : Field) (v : Nat) (h : g.addr ≠ f.addr ∨ g.hi < f.lo ∨ f.hi < g.lo) :
    fld (setFld s f v) g = fld s g := by
  by_cases ha : g.addr = f.addr
  · unfold fld setFld
    rw [ha, reg_setReg_self]
    exact bitsOf_putBits_apart _ v (by tauto)
  · exact fld_setFld_ne s f g v ha

/-- Setting a flag sets its bit; the mask of R9 is no register. -/
@[simp] theorem reg_setFlag (s : State) (f : Field) (b : Nat) : reg (setFlag s f) b = reg (setFld s f 1) b := rfl

@[simp] theorem fld_setFlag (s : State) (f g : Field) : fld (setFlag s f) g = fld (setFld s f 1) g := rfl

/-- A one-bit field that has been set is set. -/
theorem flag_setFlag_self (s : State) (f : Field) (h : f.hi < 32) (h1 : f.hi = f.lo) : flag (setFlag s f) f = true := by
  simp [flag, fld_setFld_self s f 1 h, h1]

theorem flag_setFld_apart (s : State) (f g : Field) (v : Nat) (h : g.addr ≠ f.addr ∨ g.hi < f.lo ∨ f.hi < g.lo) :
    flag (setFld s f v) g = flag s g := by
  unfold flag
  rw [fld_setFld_apart s f g v h]

/-- A field that has been cleared reads 0. -/
theorem fld_clrFld_self (s : State) (f : Field) (h : f.hi < 32) : fld (clrFld s f) f = 0 := by
  simp [clrFld, fld_setFld_self s f 0 h]

/-- A raised source is set in the interrupt registers (R130). -/
theorem flag_raise_self (s : State) (k : Nat) (h : k < 64) : flag (raise s k) (intBit k) = true := by
  apply flag_setFlag_self
  · unfold intBit; split <;> simp <;> omega
  · unfold intBit; split <;> rfl

/-- Raising a source changes the two interrupt registers alone. -/
theorem reg_raise_ne (s : State) (k : Nat) {b : Nat} (h0 : b ≠ Adr.HSP_INT0) (h1 : b ≠ Adr.HSP_INT1) :
    reg (raise s k) b = reg s b := by
  unfold raise
  rw [reg_setFlag]
  apply reg_setFld_ne
  unfold intBit
  split <;> assumption

end Sys2Proof.Machine
end

