-- ==== Sys2Proof/Laws/Frame.lean ====
section
/-! SUPPORT. How the frames of statements are built up, one update at a time, and what they say of a whole register. -/

namespace Sys2Proof.Machine

theorem FldsKept.refl (l : List Field) (s : State) : FldsKept l s s := fun _ _ => rfl

theorem FldsKept.trans {l : List Field} {s t u : State} (h1 : FldsKept l s t) (h2 : FldsKept l t u) : FldsKept l s u :=
  fun f hf => (h2 f hf).trans (h1 f hf)

theorem FldsKept.mono {l m : List Field} {s t : State} (h : FldsKept l s t) (hl : ∀ g ∈ l, g ∈ m) : FldsKept m s t :=
  fun f hf => h f fun g hg => hf g (hl g hg)

/-- What has the same registers keeps every field. -/
theorem FldsKept.regs {l : List Field} {s t u : State} (h : FldsKept l s t) (hr : u.regs = t.regs) : FldsKept l s u := by
  intro f hf
  rw [← h f hf]
  unfold fld reg
  rw [hr]

/-- A write to a listed field. -/
theorem FldsKept.setFld {l : List Field} {s t : State} (h : FldsKept l s t) {f : Field} (hf : f ∈ l) (v : Nat) :
    FldsKept l s (setFld t f v) := by
  intro g hg
  rw [fld_setFld_apart t f g v, h g hg]
  have := hg f hf
  unfold Field.apart at this
  tauto

/-- A write to a register listed as a whole. -/
theorem FldsKept.setReg {l : List Field} {s t : State} (h : FldsKept l s t) {a : Nat} (ha : whole a ∈ l) (v : Word) :
    FldsKept l s (setReg t a v) := by
  intro g hg
  rw [← h g hg]
  have hga := hg _ ha
  by_cases e : g.addr = a
  · rcases hga with h1 | h1 | h1
    · exact absurd e h1
    · exact absurd h1 (by simp [whole])
    · unfold fld
      have hw : ∀ w : Word, bitsOf w g.hi g.lo = 0 := by
        intro w
        unfold bitsOf
        have : w.toNat >>> g.lo = 0 := by
          rw [Nat.shiftRight_eq_div_pow]
          apply Nat.div_eq_of_lt
          calc w.toNat < 2 ^ 32 := w.isLt
            _ ≤ 2 ^ g.lo := Nat.pow_le_pow_right (by decide) (by simp [whole] at h1; omega)
        rw [this, Nat.zero_mod]
      rw [hw, hw]
  · exact fld_setReg_ne t a v g e

theorem FldsKept.raise {l : List Field} {s t : State} (h : FldsKept l s t) {k : Nat} (hk : intBit k ∈ l) :
    FldsKept l s (raise t k) := h.setFld hk 1

theorem FldsKept.ite {l : List Field} {s t u : State} {c : Prop} [Decidable c] (h1 : c → FldsKept l s t)
    (h2 : ¬c → FldsKept l s u) : FldsKept l s (if c then t else u) := by
  split
  · exact h1 ‹_›
  · exact h2 ‹_›

/-- A register that no listed field lies in is unchanged. -/
theorem FldsKept.reg_eq {l : List Field} {s t : State} (h : FldsKept l s t) {a : Nat} (ha : ∀ g ∈ l, a ≠ g.addr) :
    reg t a = reg s a := by
  have := h (whole a) fun g hg => Or.inl (ha g hg)
  unfold fld bitsOf whole at this
  simp only [Nat.shiftRight_zero] at this
  have h32 : ∀ w : Word, w.toNat % 2 ^ (31 + 1 - 0) = w.toNat := fun w => Nat.mod_eq_of_lt w.isLt
  rw [h32, h32] at this
  exact BitVec.eq_of_toNat_eq this

end Sys2Proof.Machine
end

