-- ==== Sys2Proof/Laws/KeptBase.lean ====
section
/-! SUPPORT. What the shared operations, the flags, the posts, the work lists and the clock leave alone: the queue, the memory device, the tag store and the
keys, but for those that write them, which keep the canonical form of the store they write. -/

open Sys2Proof

namespace Sys2Proof.Machine

/-! ### Ops -/

/-! ### Choices -/

@[simp] theorem ite_pending (c : Prop) [Decidable c] (a b : State) :
    (if c then a else b).pending = if c then a.pending else b.pending := by split <;> rfl
@[simp] theorem ite_mem (c : Prop) [Decidable c] (a b : State) :
    (if c then a else b).mem = if c then a.mem else b.mem := by split <;> rfl
@[simp] theorem ite_tag (c : Prop) [Decidable c] (a b : State) :
    (if c then a else b).tag = if c then a.tag else b.tag := by split <;> rfl
@[simp] theorem ite_boot (c : Prop) [Decidable c] (a b : State) :
    (if c then a else b).boot = if c then a.boot else b.boot := by split <;> rfl
@[simp] theorem ite_store (c : Prop) [Decidable c] (a b : Tag) :
    (if c then a else b).store = if c then a.store else b.store := by split <;> rfl
@[simp] theorem ite_keys (c : Prop) [Decidable c] (a b : Boot) :
    (if c then a else b).keys = if c then a.keys else b.keys := by split <;> rfl
@[simp] theorem ite_nor (c : Prop) [Decidable c] (a b : Mem) :
    (if c then a else b).nor = if c then a.nor else b.nor := by split <;> rfl
@[simp] theorem ite_fst {α β : Type} (c : Prop) [Decidable c] (a b : α × β) :
    (if c then a else b).1 = if c then a.1 else b.1 := by split <;> rfl
@[simp] theorem ite_snd {α β : Type} (c : Prop) [Decidable c] (a b : α × β) :
    (if c then a else b).2 = if c then a.2 else b.2 := by split <;> rfl
theorem ite_bytesWf (c : Prop) [Decidable c] (a b : Bytes) (ha : bytesWf a = true) (hb : bytesWf b = true) :
    bytesWf (if c then a else b) = true := by split <;> assumption

/-! ### Repetition -/

@[simp] theorem foldl_keeps_pending {α : Type} (f : State → α → State) (h : ∀ t x, (f t x).pending = t.pending) (l : List α)
    (s : State) : (l.foldl f s).pending = s.pending := by
  induction l generalizing s with
  | nil => rfl
  | cons x l ih => rw [List.foldl_cons, ih, h]
@[simp] theorem foldl_keeps_mem {α : Type} (f : State → α → State) (h : ∀ t x, (f t x).mem = t.mem) (l : List α)
    (s : State) : (l.foldl f s).mem = s.mem := by
  induction l generalizing s with
  | nil => rfl
  | cons x l ih => rw [List.foldl_cons, ih, h]
@[simp] theorem foldl_keeps_store {α : Type} (f : State → α → State) (h : ∀ t x, (f t x).tag.store = t.tag.store) (l : List α)
    (s : State) : (l.foldl f s).tag.store = s.tag.store := by
  induction l generalizing s with
  | nil => rfl
  | cons x l ih => rw [List.foldl_cons, ih, h]
@[simp] theorem foldl_keeps_keys {α : Type} (f : State → α → State) (h : ∀ t x, (f t x).boot.keys = t.boot.keys) (l : List α)
    (s : State) : (l.foldl f s).boot.keys = s.boot.keys := by
  induction l generalizing s with
  | nil => rfl
  | cons x l ih => rw [List.foldl_cons, ih, h]
/-- A property of the state that each round keeps holds after all rounds. -/
theorem foldl_keeps {α : Type} (P : State → Prop) (f : State → α → State) (h : ∀ t x, P t → P (f t x)) (l : List α)
    (s : State) (hs : P s) : P (l.foldl f s) := by
  induction l generalizing s with
  | nil => exact hs
  | cons x l ih => exact ih _ (h _ _ hs)
/-- As `foldl_keeps`, for rounds that carry more than the state. -/
theorem foldl_keeps_fst {α β : Type} (P : State → Prop) (f : State × β → α → State × β) (h : ∀ p x, P p.1 → P (f p x).1)
    (l : List α) (p : State × β) (hp : P p.1) : P (l.foldl f p).1 := by
  induction l generalizing p with
  | nil => exact hp
  | cons x l ih => exact ih _ (h _ _ hp)
theorem foldl_keeps_snd {α β : Type} (P : State → Prop) (f : β × State → α → β × State) (h : ∀ p x, P p.2 → P (f p x).2)
    (l : List α) (p : β × State) (hp : P p.2) : P (l.foldl f p).2 := by
  induction l generalizing p with
  | nil => exact hp
  | cons x l ih => exact ih _ (h _ _ hp)

@[simp] theorem setReg_kept (s : State) (a : Nat) (v : Word) :
    (setReg s a v).pending = s.pending ∧
      (setReg s a v).mem = s.mem ∧
      (setReg s a v).tag.store = s.tag.store ∧
      (setReg s a v).boot.keys = s.boot.keys := by
  simp [setReg]

@[simp] theorem setFld_kept (s : State) (f : Field) (v : Nat) :
    (setFld s f v).pending = s.pending ∧
      (setFld s f v).mem = s.mem ∧
      (setFld s f v).tag.store = s.tag.store ∧
      (setFld s f v).boot.keys = s.boot.keys := by
  simp [setFld]

@[simp] theorem setFlag_kept (s : State) (f : Field) :
    (setFlag s f).pending = s.pending ∧
      (setFlag s f).mem = s.mem ∧
      (setFlag s f).tag.store = s.tag.store ∧
      (setFlag s f).boot.keys = s.boot.keys := by
  simp [setFlag]

@[simp] theorem clrFld_kept (s : State) (f : Field) :
    (clrFld s f).pending = s.pending ∧
      (clrFld s f).mem = s.mem ∧
      (clrFld s f).tag.store = s.tag.store ∧
      (clrFld s f).boot.keys = s.boot.keys := by
  simp [clrFld]

@[simp] theorem incSat_kept (s : State) (f : Field) (n : Nat) :
    (incSat s f n).pending = s.pending ∧
      (incSat s f n).mem = s.mem ∧
      (incSat s f n).tag.store = s.tag.store ∧
      (incSat s f n).boot.keys = s.boot.keys := by
  simp [incSat]

@[simp] theorem incMod_kept (s : State) (f : Field) (n : Nat) :
    (incMod s f n).pending = s.pending ∧
      (incMod s f n).mem = s.mem ∧
      (incMod s f n).tag.store = s.tag.store ∧
      (incMod s f n).boot.keys = s.boot.keys := by
  simp [incMod]

@[simp] theorem stage_kept (s : State) (a : Nat) (v : Word) :
    (stage s a v).pending = s.pending ∧
      (stage s a v).mem = s.mem ∧
      (stage s a v).tag.store = s.tag.store ∧
      (stage s a v).boot.keys = s.boot.keys := by
  simp [stage]

@[simp] theorem setRegBoth_kept (s : State) (a : Nat) (v : Word) (pend : Bool) :
    (setRegBoth s a v pend).pending = s.pending ∧
      (setRegBoth s a v pend).mem = s.mem ∧
      (setRegBoth s a v pend).tag.store = s.tag.store ∧
      (setRegBoth s a v pend).boot.keys = s.boot.keys := by
  unfold setRegBoth; (repeat' split) <;> simp

@[simp] theorem setFldBoth_kept (s : State) (f : Field) (v : Nat) (pend : Bool) :
    (setFldBoth s f v pend).pending = s.pending ∧
      (setFldBoth s f v pend).mem = s.mem ∧
      (setFldBoth s f v pend).tag.store = s.tag.store ∧
      (setFldBoth s f v pend).boot.keys = s.boot.keys := by
  unfold setFldBoth; split <;> simp

@[simp] theorem drawRandom_kept (s : State) :
    (drawRandom s).2.pending = s.pending ∧
      (drawRandom s).2.mem = s.mem ∧
      (drawRandom s).2.tag.store = s.tag.store ∧
      (drawRandom s).2.boot.keys = s.boot.keys := by
  simp [drawRandom]

@[simp] theorem drawWord_kept (s : State) :
    (drawWord s).2.pending = s.pending ∧
      (drawWord s).2.mem = s.mem ∧
      (drawWord s).2.tag.store = s.tag.store ∧
      (drawWord s).2.boot.keys = s.boot.keys := by
  simp [drawWord]

@[simp] theorem drawBytes_kept (n : Nat) (s : State) :
    (drawBytes n s).2.pending = s.pending ∧
      (drawBytes n s).2.mem = s.mem ∧
      (drawBytes n s).2.tag.store = s.tag.store ∧
      (drawBytes n s).2.boot.keys = s.boot.keys := by
  induction n with
  | zero => simp [drawBytes]
  | succ n ih => simp [drawBytes, ih]

@[simp] theorem raise_kept (s : State) (k : Nat) :
    (raise s k).pending = s.pending ∧
      (raise s k).mem = s.mem ∧
      (raise s k).tag.store = s.tag.store ∧
      (raise s k).boot.keys = s.boot.keys := by
  simp [raise]

@[simp] theorem setMode_kept (s : State) (m : Nat) :
    (setMode s m).pending = s.pending ∧
      (setMode s m).mem = s.mem ∧
      (setMode s m).tag.store = s.tag.store ∧
      (setMode s m).boot.keys = s.boot.keys := by
  simp [setMode]

@[simp] theorem setChan_kept (s : State) (n : Nat) (c : Chan) :
    (setChan s n c).pending = s.pending ∧
      (setChan s n c).mem = s.mem ∧
      (setChan s n c).tag.store = s.tag.store ∧
      (setChan s n c).boot.keys = s.boot.keys := by
  simp [setChan]

@[simp] theorem raiseAvail_kept (s : State) (n : Nat) :
    (raiseAvail s n).pending = s.pending ∧
      (raiseAvail s n).mem = s.mem ∧
      (raiseAvail s n).tag.store = s.tag.store ∧
      (raiseAvail s n).boot.keys = s.boot.keys := by
  simp [raiseAvail]

@[simp] theorem dropPacket_kept (s : State) (n : Nat) :
    (dropPacket s n).pending = s.pending ∧
      (dropPacket s n).mem = s.mem ∧
      (dropPacket s n).tag.store = s.tag.store ∧
      (dropPacket s n).boot.keys = s.boot.keys := by
  simp [dropPacket]

@[simp] theorem admitPacket_kept (s : State) (n : Nat) (ws : List Word) :
    (admitPacket s n ws).pending = s.pending ∧
      (admitPacket s n ws).mem = s.mem ∧
      (admitPacket s n ws).tag.store = s.tag.store ∧
      (admitPacket s n ws).boot.keys = s.boot.keys := by
  simp [admitPacket]

@[simp] theorem emitBoth_kept (s : State) (n : Nat) (tag : Nat) (ws : List Word) :
    (emitBoth s n tag ws).pending = s.pending ∧
      (emitBoth s n tag ws).mem = s.mem ∧
      (emitBoth s n tag ws).tag.store = s.tag.store ∧
      (emitBoth s n tag ws).boot.keys = s.boot.keys := by
  simp [emitBoth]

@[simp] theorem txPacket_kept (s : State) (f : LnkTx) (result : Nat) :
    (txPacket s f result).pending = s.pending ∧
      (txPacket s f result).mem = s.mem ∧
      (txPacket s f result).tag.store = s.tag.store ∧
      (txPacket s f result).boot.keys = s.boot.keys := by
  simp [txPacket]

@[simp] theorem queueFrame_kept (s : State) (f : LnkTx) :
    (queueFrame s f).1.pending = s.pending ∧
      (queueFrame s f).1.mem = s.mem ∧
      (queueFrame s f).1.tag.store = s.tag.store ∧
      (queueFrame s f).1.boot.keys = s.boot.keys := by
  simp [queueFrame]

@[simp] theorem autoReport_kept (s : State) (kind : Nat) (ws : List Word) :
    (autoReport s kind ws).pending = s.pending ∧
      (autoReport s kind ws).mem = s.mem ∧
      (autoReport s kind ws).tag.store = s.tag.store ∧
      (autoReport s kind ws).boot.keys = s.boot.keys := by
  simp [autoReport]

@[simp] theorem autoTrf_kept (s : State) (ws : List Word) :
    (autoTrf s ws).pending = s.pending ∧
      (autoTrf s ws).mem = s.mem ∧
      (autoTrf s ws).tag.store = s.tag.store ∧
      (autoTrf s ws).boot.keys = s.boot.keys := by
  simp [autoTrf]

@[simp] theorem autoFlt_kept (s : State) (ws : List Word) :
    (autoFlt s ws).pending = s.pending ∧
      (autoFlt s ws).mem = s.mem ∧
      (autoFlt s ws).tag.store = s.tag.store ∧
      (autoFlt s ws).boot.keys = s.boot.keys := by
  simp [autoFlt]

@[simp] theorem fault_kept (s : State) (blk inst code : Nat) (detail : List Byte) :
    (fault s blk inst code detail).pending = s.pending ∧
      (fault s blk inst code detail).mem = s.mem ∧
      (fault s blk inst code detail).tag.store = s.tag.store ∧
      (fault s blk inst code detail).boot.keys = s.boot.keys := by
  simp [fault]

@[simp] theorem admitCut_kept (s : State) (n : Nat) (payload : Nat) (ws : List Word) :
    (admitCut s n payload ws).pending = s.pending ∧
      (admitCut s n payload ws).mem = s.mem ∧
      (admitCut s n payload ws).tag.store = s.tag.store ∧
      (admitCut s n payload ws).boot.keys = s.boot.keys := by
  simp [admitCut]

@[simp] theorem configRecord_kept (s : State) (blk inst seq addr : Nat) (ws : List Word) :
    (configRecord s blk inst seq addr ws).pending = s.pending ∧
      (configRecord s blk inst seq addr ws).mem = s.mem ∧
      (configRecord s blk inst seq addr ws).tag.store = s.tag.store ∧
      (configRecord s blk inst seq addr ws).boot.keys = s.boot.keys := by
  simp [configRecord]

@[simp] theorem pwrAssert_kept (s : State) :
    (pwrAssert s).pending = s.pending ∧
      (pwrAssert s).mem = s.mem ∧
      (pwrAssert s).tag.store = s.tag.store ∧
      (pwrAssert s).boot.keys = s.boot.keys := by
  simp [pwrAssert]

@[simp] theorem pwrRelease_kept (s : State) :
    (pwrRelease s).pending = s.pending ∧
      (pwrRelease s).mem = s.mem ∧
      (pwrRelease s).tag.store = s.tag.store ∧
      (pwrRelease s).boot.keys = s.boot.keys := by
  simp [pwrRelease]

@[simp] theorem latchWake_kept (s : State) (code : Nat) :
    (latchWake s code).pending = s.pending ∧
      (latchWake s code).mem = s.mem ∧
      (latchWake s code).tag.store = s.tag.store ∧
      (latchWake s code).boot.keys = s.boot.keys := by
  unfold latchWake; simp only []; (repeat' split) <;> simp_all

@[simp] theorem fireWake_kept (s : State) (code : Nat) :
    (fireWake s code).pending = s.pending ∧
      (fireWake s code).mem = s.mem ∧
      (fireWake s code).tag.store = s.tag.store ∧
      (fireWake s code).boot.keys = s.boot.keys := by
  simp [fireWake]

@[simp] theorem grantPoint_kept (s : State) :
    (grantPoint s).pending = s.pending ∧
      (grantPoint s).mem = s.mem ∧
      (grantPoint s).tag.store = s.tag.store ∧
      (grantPoint s).boot.keys = s.boot.keys := by
  simp [grantPoint]

/-! ### Flags -/

@[simp] theorem raiseReject_kept (s0 s1 : State) (id : Nat) :
    (raiseReject s0 s1 id).pending = s1.pending ∧
      (raiseReject s0 s1 id).mem = s1.mem ∧
      (raiseReject s0 s1 id).tag.store = s1.tag.store ∧
      (raiseReject s0 s1 id).boot.keys = s1.boot.keys := by
  simp [raiseReject]

@[simp] theorem deny_kept (s : State) (lvl : Level) (a : Nat) (wr : Bool) :
    (deny s lvl a wr).pending = s.pending ∧
      (deny s lvl a wr).mem = s.mem ∧
      (deny s lvl a wr).tag.store = s.tag.store ∧
      (deny s lvl a wr).boot.keys = s.boot.keys := by
  simp [deny]

@[simp] theorem asWrite_kept_pend (s : State) (lvl : Level) (a : Nat) (eff : State → State) (h_eff : ∀ t, (eff t).pending = t.pending) :
    (asWrite s lvl a eff).pending = s.pending := by
  simp [h_eff, asWrite]

@[simp] theorem asWrite_kept_mem (s : State) (lvl : Level) (a : Nat) (eff : State → State) (h_eff : ∀ t, (eff t).mem = t.mem) :
    (asWrite s lvl a eff).mem = s.mem := by
  simp [h_eff, asWrite]

@[simp] theorem asWrite_kept_store (s : State) (lvl : Level) (a : Nat) (eff : State → State) (h_eff : ∀ t, (eff t).tag.store = t.tag.store) :
    (asWrite s lvl a eff).tag.store = s.tag.store := by
  simp [h_eff, asWrite]

@[simp] theorem asWrite_kept_keys (s : State) (lvl : Level) (a : Nat) (eff : State → State) (h_eff : ∀ t, (eff t).boot.keys = t.boot.keys) :
    (asWrite s lvl a eff).boot.keys = s.boot.keys := by
  simp [h_eff, asWrite]

@[simp] theorem asWrite_wf_nor (s : State) (lvl : Level) (a : Nat) (eff : State → State) (h_eff : ∀ t, bytesWf t.mem.nor = true → bytesWf (eff t).mem.nor = true) (hs : bytesWf s.mem.nor = true) :
    bytesWf (asWrite s lvl a eff).mem.nor = true := by
  unfold asWrite; split <;> simp [h_eff, hs]

@[simp] theorem asWrite_wf_store (s : State) (lvl : Level) (a : Nat) (eff : State → State) (h_eff : ∀ t, bytesWf t.tag.store = true → bytesWf (eff t).tag.store = true) (hs : bytesWf s.tag.store = true) :
    bytesWf (asWrite s lvl a eff).tag.store = true := by
  unfold asWrite; split <;> simp [h_eff, hs]

@[simp] theorem asRead_kept_pend (s : State) (lvl : Level) (a : Nat) (eff : State → State) (h_eff : ∀ t, (eff t).pending = t.pending) :
    (asRead s lvl a eff).pending = s.pending := by
  simp [h_eff, asRead]

@[simp] theorem asRead_kept_mem (s : State) (lvl : Level) (a : Nat) (eff : State → State) (h_eff : ∀ t, (eff t).mem = t.mem) :
    (asRead s lvl a eff).mem = s.mem := by
  simp [h_eff, asRead]

@[simp] theorem asRead_kept_store (s : State) (lvl : Level) (a : Nat) (eff : State → State) (h_eff : ∀ t, (eff t).tag.store = t.tag.store) :
    (asRead s lvl a eff).tag.store = s.tag.store := by
  simp [h_eff, asRead]

@[simp] theorem asRead_kept_keys (s : State) (lvl : Level) (a : Nat) (eff : State → State) (h_eff : ∀ t, (eff t).boot.keys = t.boot.keys) :
    (asRead s lvl a eff).boot.keys = s.boot.keys := by
  simp [h_eff, asRead]

@[simp] theorem asRead_wf_nor (s : State) (lvl : Level) (a : Nat) (eff : State → State) (h_eff : ∀ t, bytesWf t.mem.nor = true → bytesWf (eff t).mem.nor = true) (hs : bytesWf s.mem.nor = true) :
    bytesWf (asRead s lvl a eff).mem.nor = true := by
  unfold asRead; split <;> simp [h_eff, hs]

@[simp] theorem asRead_wf_store (s : State) (lvl : Level) (a : Nat) (eff : State → State) (h_eff : ∀ t, bytesWf t.tag.store = true → bytesWf (eff t).tag.store = true) (hs : bytesWf s.tag.store = true) :
    bytesWf (asRead s lvl a eff).tag.store = true := by
  unfold asRead; split <;> simp [h_eff, hs]

@[simp] theorem rsvCheck_kept (s : State) (a : Nat) (v : Word) :
    (rsvCheck s a v).pending = s.pending ∧
      (rsvCheck s a v).mem = s.mem ∧
      (rsvCheck s a v).tag.store = s.tag.store ∧
      (rsvCheck s a v).boot.keys = s.boot.keys := by
  simp [rsvCheck]

/-! ### Gen2 -/

@[simp] theorem setAccount_kept (s : State) (a : Account) :
    (setAccount s a).pending = s.pending ∧
      (setAccount s a).mem = s.mem ∧
      (setAccount s a).tag.store = s.tag.store ∧
      (setAccount s a).boot.keys = s.boot.keys := by
  simp [setAccount]

@[simp] theorem accountOn_kept (s : State) (c : Nat) :
    (accountOn s c).pending = s.pending ∧
      (accountOn s c).mem = s.mem ∧
      (accountOn s c).tag.store = s.tag.store ∧
      (accountOn s c).boot.keys = s.boot.keys := by
  simp [accountOn]

@[simp] theorem accountOff_kept (s : State) (c : Nat) :
    (accountOff s c).pending = s.pending ∧
      (accountOff s c).mem = s.mem ∧
      (accountOff s c).tag.store = s.tag.store ∧
      (accountOff s c).boot.keys = s.boot.keys := by
  simp [accountOff]

@[simp] theorem accountsAtStart_kept (s : State) :
    (accountsAtStart s).pending = s.pending ∧
      (accountsAtStart s).mem = s.mem ∧
      (accountsAtStart s).tag.store = s.tag.store ∧
      (accountsAtStart s).boot.keys = s.boot.keys := by
  simp [accountsAtStart]

@[simp] theorem accountsForProfile_kept (s : State) :
    (accountsForProfile s).pending = s.pending ∧
      (accountsForProfile s).mem = s.mem ∧
      (accountsForProfile s).tag.store = s.tag.store ∧
      (accountsForProfile s).boot.keys = s.boot.keys := by
  simp [accountsForProfile]

/-! ### Sched -/

@[simp] theorem postEntry_kept (t : State) (p : Nat × Entry) :
    (postEntry t p).pending = t.pending ∧
      (postEntry t p).mem = t.mem ∧
      (postEntry t p).tag.store = t.tag.store ∧
      (postEntry t p).boot.keys = t.boot.keys := by
  unfold postEntry; split <;> simp

@[simp] theorem postEntries_kept (s : State) :
    (postEntries s).pending = s.pending ∧
      (postEntries s).mem = s.mem ∧
      (postEntries s).tag.store = s.tag.store ∧
      (postEntries s).boot.keys = s.boot.keys := by
  simp [postEntries]

@[simp] theorem charge_kept (s : State) (who : Consumer) (heldUs : Nat) :
    (charge s who heldUs).pending = s.pending ∧
      (charge s who heldUs).mem = s.mem ∧
      (charge s who heldUs).tag.store = s.tag.store ∧
      (charge s who heldUs).boot.keys = s.boot.keys := by
  simp [charge]

@[simp] theorem passOver_kept (s : State) (who : Consumer) :
    (passOver s who).pending = s.pending ∧
      (passOver s who).mem = s.mem ∧
      (passOver s who).tag.store = s.tag.store ∧
      (passOver s who).boot.keys = s.boot.keys := by
  simp [passOver]

@[simp] theorem countGrant_kept (s : State) (r : Request) :
    (countGrant s r).pending = s.pending ∧
      (countGrant s r).mem = s.mem ∧
      (countGrant s r).tag.store = s.tag.store ∧
      (countGrant s r).boot.keys = s.boot.keys := by
  simp [countGrant]

@[simp] theorem dropRequest_kept (s : State) (r : Request) :
    (dropRequest s r).pending = s.pending ∧
      (dropRequest s r).mem = s.mem ∧
      (dropRequest s r).tag.store = s.tag.store ∧
      (dropRequest s r).boot.keys = s.boot.keys := by
  simp [dropRequest]

@[simp] theorem grantLease_kept (s : State) (r : Request) (credited : Bool) (partner : Option Consumer) (lease : Nat) :
    (grantLease s r credited partner lease).pending = s.pending ∧
      (grantLease s r credited partner lease).mem = s.mem ∧
      (grantLease s r credited partner lease).tag.store = s.tag.store ∧
      (grantLease s r credited partner lease).boot.keys = s.boot.keys := by
  unfold grantLease; split <;> simp

@[simp] theorem grant_kept (s : State) (r : Request) (credited : Bool) (partner : Option Consumer) :
    (grant s r credited partner).pending = s.pending ∧
      (grant s r credited partner).mem = s.mem ∧
      (grant s r credited partner).tag.store = s.tag.store ∧
      (grant s r credited partner).boot.keys = s.boot.keys := by
  unfold grant; (repeat' split) <;> simp

@[simp] theorem setRequest_kept (s : State) (r : Request) :
    (setRequest s r).pending = s.pending ∧
      (setRequest s r).mem = s.mem ∧
      (setRequest s r).tag.store = s.tag.store ∧
      (setRequest s r).boot.keys = s.boot.keys := by
  simp [setRequest]

@[simp] theorem countWait_kept (s : State) (r : Request) (ahead : Nat) :
    (countWait s r ahead).pending = s.pending ∧
      (countWait s r ahead).mem = s.mem ∧
      (countWait s r ahead).tag.store = s.tag.store ∧
      (countWait s r ahead).boot.keys = s.boot.keys := by
  simp [countWait]

@[simp] theorem shortenFor_kept (s : State) (r : Request) :
    (shortenFor s r).pending = s.pending ∧
      (shortenFor s r).mem = s.mem ∧
      (shortenFor s r).tag.store = s.tag.store ∧
      (shortenFor s r).boot.keys = s.boot.keys := by
  simp [shortenFor]

@[simp] theorem keepFor_kept (s : State) (r : Request) (ahead kept : Nat) :
    (keepFor s r ahead kept).pending = s.pending ∧
      (keepFor s r ahead kept).mem = s.mem ∧
      (keepFor s r ahead kept).tag.store = s.tag.store ∧
      (keepFor s r ahead kept).boot.keys = s.boot.keys := by
  simp [keepFor]

@[simp] theorem reserve_kept (s : State) (r : Request) (ahead : Nat) :
    (reserve s r ahead).pending = s.pending ∧
      (reserve s r ahead).mem = s.mem ∧
      (reserve s r ahead).tag.store = s.tag.store ∧
      (reserve s r ahead).boot.keys = s.boot.keys := by
  simp [reserve]

@[simp] theorem grantOrShorten_kept (s : State) (r : Request) (ahead : Nat) (credited : Bool) :
    (grantOrShorten s r ahead credited).pending = s.pending ∧
      (grantOrShorten s r ahead credited).mem = s.mem ∧
      (grantOrShorten s r ahead credited).tag.store = s.tag.store ∧
      (grantOrShorten s r ahead credited).boot.keys = s.boot.keys := by
  simp [grantOrShorten]

@[simp] theorem grantOrStand_kept (s : State) (r : Request) :
    (grantOrStand s r).pending = s.pending ∧
      (grantOrStand s r).mem = s.mem ∧
      (grantOrStand s r).tag.store = s.tag.store ∧
      (grantOrStand s r).boot.keys = s.boot.keys := by
  simp [grantOrStand]

@[simp] theorem grantOrWait_kept (s : State) (r : Request) (ahead : Nat) :
    (grantOrWait s r ahead).pending = s.pending ∧
      (grantOrWait s r ahead).mem = s.mem ∧
      (grantOrWait s r ahead).tag.store = s.tag.store ∧
      (grantOrWait s r ahead).boot.keys = s.boot.keys := by
  simp [grantOrWait]

@[simp] theorem growCredit_kept (s : State) :
    (growCredit s).pending = s.pending ∧
      (growCredit s).mem = s.mem ∧
      (growCredit s).tag.store = s.tag.store ∧
      (growCredit s).boot.keys = s.boot.keys := by
  simp [growCredit]

@[simp] theorem grantPair_kept (s : State) (r q : Request) (i j : Fin 1024) (lease : Nat) :
    (grantPair s r q i j lease).pending = s.pending ∧
      (grantPair s r q i j lease).mem = s.mem ∧
      (grantPair s r q i j lease).tag.store = s.tag.store ∧
      (grantPair s r q i j lease).boot.keys = s.boot.keys := by
  simp [grantPair]

@[simp] theorem grantHead_kept (s : State) (r0 : Request) (ahead : Nat) (cands : List Consumer) :
    (grantHead s r0 ahead cands).1.pending = s.pending ∧
      (grantHead s r0 ahead cands).1.mem = s.mem ∧
      (grantHead s r0 ahead cands).1.tag.store = s.tag.store ∧
      (grantHead s r0 ahead cands).1.boot.keys = s.boot.keys := by
  unfold grantHead; simp only []; (repeat' split) <;> simp_all

@[simp] theorem backfill_kept (t : State) (c : Consumer) :
    (backfill t c).pending = t.pending ∧
      (backfill t c).mem = t.mem ∧
      (backfill t c).tag.store = t.tag.store ∧
      (backfill t c).boot.keys = t.boot.keys := by
  unfold backfill; split <;> simp

@[simp] theorem headC2_kept (s : State) (h : Consumer) (cands : List Consumer) :
    (headC2 s h cands).pending = s.pending ∧
      (headC2 s h cands).mem = s.mem ∧
      (headC2 s h cands).tag.store = s.tag.store ∧
      (headC2 s h cands).boot.keys = s.boot.keys := by
  unfold headC2; split <;> simp

@[simp] theorem decideC2_kept (s : State) :
    (decideC2 s).pending = s.pending ∧
      (decideC2 s).mem = s.mem ∧
      (decideC2 s).tag.store = s.tag.store ∧
      (decideC2 s).boot.keys = s.boot.keys := by
  unfold decideC2; split <;> simp

@[simp] theorem cxRequester_kept (s : State) (mayFall : Bool) :
    (cxRequester s mayFall).pending = s.pending ∧
      (cxRequester s mayFall).mem = s.mem ∧
      (cxRequester s mayFall).tag.store = s.tag.store ∧
      (cxRequester s mayFall).boot.keys = s.boot.keys := by
  simp [cxRequester]

@[simp] theorem cxOutputs_kept (s : State) (mayFall : Bool) :
    (cxOutputs s mayFall).pending = s.pending ∧
      (cxOutputs s mayFall).mem = s.mem ∧
      (cxOutputs s mayFall).tag.store = s.tag.store ∧
      (cxOutputs s mayFall).boot.keys = s.boot.keys := by
  simp [cxOutputs]

@[simp] theorem cxUpdate_kept (s : State) :
    (cxUpdate s).pending = s.pending ∧
      (cxUpdate s).mem = s.mem ∧
      (cxUpdate s).tag.store = s.tag.store ∧
      (cxUpdate s).boot.keys = s.boot.keys := by
  simp [cxUpdate]

@[simp] theorem cxPost_kept (s : State) :
    (cxPost s).pending = s.pending ∧
      (cxPost s).mem = s.mem ∧
      (cxPost s).tag.store = s.tag.store ∧
      (cxPost s).boot.keys = s.boot.keys := by
  simp [cxPost]

@[simp] theorem decide__kept (s0 : State) :
    (decide_ s0).pending = s0.pending ∧
      (decide_ s0).mem = s0.mem ∧
      (decide_ s0).tag.store = s0.tag.store ∧
      (decide_ s0).boot.keys = s0.boot.keys := by
  simp [decide_]

@[simp] theorem rfStart_kept (s : State) (mask : Nat) :
    (rfStart s mask).pending = s.pending ∧
      (rfStart s mask).mem = s.mem ∧
      (rfStart s mask).tag.store = s.tag.store ∧
      (rfStart s mask).boot.keys = s.boot.keys := by
  simp [rfStart]

@[simp] theorem rfOver_kept (s : State) (mask : Nat) :
    (rfOver s mask).pending = s.pending ∧
      (rfOver s mask).mem = s.mem ∧
      (rfOver s mask).tag.store = s.tag.store ∧
      (rfOver s mask).boot.keys = s.boot.keys := by
  simp [rfOver]

@[simp] theorem endGrant_kept (s : State) (who : Consumer) :
    (endGrant s who).pending = s.pending ∧
      (endGrant s who).mem = s.mem ∧
      (endGrant s who).tag.store = s.tag.store ∧
      (endGrant s who).boot.keys = s.boot.keys := by
  unfold endGrant; (repeat' split) <;> simp

/-! ### Post -/

@[simp] theorem fenceGrants_kept (s : State) (mask t : Nat) :
    (fenceGrants s mask t).pending = s.pending ∧
      (fenceGrants s mask t).mem = s.mem ∧
      (fenceGrants s mask t).tag.store = s.tag.store ∧
      (fenceGrants s mask t).boot.keys = s.boot.keys := by
  simp [fenceGrants]

@[simp] theorem putRequest_kept (s : State) (r : Request) :
    (putRequest s r).pending = s.pending ∧
      (putRequest s r).mem = s.mem ∧
      (putRequest s r).tag.store = s.tag.store ∧
      (putRequest s r).boot.keys = s.boot.keys := by
  simp [putRequest]

@[simp] theorem postRequest_kept (s : State) (r0 : Request) :
    (postRequest s r0).1.pending = s.pending ∧
      (postRequest s r0).1.mem = s.mem ∧
      (postRequest s r0).1.tag.store = s.tag.store ∧
      (postRequest s r0).1.boot.keys = s.boot.keys := by
  unfold postRequest; simp only []; (repeat' split) <;> simp_all

@[simp] theorem immOver_kept (s : State) (res tags : Nat) :
    (immOver s res tags).pending = s.pending ∧
      (immOver s res tags).mem = s.mem ∧
      (immOver s res tags).tag.store = s.tag.store ∧
      (immOver s res tags).boot.keys = s.boot.keys := by
  simp [immOver]

@[simp] theorem withdrawn_kept (s : State) (who : Consumer) :
    (withdrawn s who).pending = s.pending ∧
      (withdrawn s who).mem = s.mem ∧
      (withdrawn s who).tag.store = s.tag.store ∧
      (withdrawn s who).boot.keys = s.boot.keys := by
  unfold withdrawn; split <;> simp

@[simp] theorem withdraw_kept (s : State) (who : Consumer) :
    (withdraw s who).pending = s.pending ∧
      (withdraw s who).mem = s.mem ∧
      (withdraw s who).tag.store = s.tag.store ∧
      (withdraw s who).boot.keys = s.boot.keys := by
  simp [withdraw]

@[simp] theorem topUp_kept (s : State) (who : Consumer) (mask : Nat) (kind : LeaseKind) :
    (topUp s who mask kind).pending = s.pending ∧
      (topUp s who mask kind).mem = s.mem ∧
      (topUp s who mask kind).tag.store = s.tag.store ∧
      (topUp s who mask kind).boot.keys = s.boot.keys := by
  unfold topUp; split <;> simp

@[simp] theorem topUpDone_kept (s : State) (who : Consumer) :
    (topUpDone s who).pending = s.pending ∧
      (topUpDone s who).mem = s.mem ∧
      (topUpDone s who).tag.store = s.tag.store ∧
      (topUpDone s who).boot.keys = s.boot.keys := by
  simp [topUpDone]

@[simp] theorem releaseTopUp_kept (s : State) (who : Consumer) :
    (releaseTopUp s who).pending = s.pending ∧
      (releaseTopUp s who).mem = s.mem ∧
      (releaseTopUp s who).tag.store = s.tag.store ∧
      (releaseTopUp s who).boot.keys = s.boot.keys := by
  simp [releaseTopUp]

@[simp] theorem turnOr_kept_pend (s : State) (r0 : Request) (run : State → State) (wait : State → State) (h_run : ∀ t, (run t).pending = t.pending) (h_wait : ∀ t, (wait t).pending = t.pending) :
    (turnOr s r0 run wait).pending = s.pending := by
  simp [h_run, h_wait, turnOr]

@[simp] theorem turnOr_kept_mem (s : State) (r0 : Request) (run : State → State) (wait : State → State) (h_run : ∀ t, (run t).mem = t.mem) (h_wait : ∀ t, (wait t).mem = t.mem) :
    (turnOr s r0 run wait).mem = s.mem := by
  simp [h_run, h_wait, turnOr]

@[simp] theorem turnOr_kept_store (s : State) (r0 : Request) (run : State → State) (wait : State → State) (h_run : ∀ t, (run t).tag.store = t.tag.store) (h_wait : ∀ t, (wait t).tag.store = t.tag.store) :
    (turnOr s r0 run wait).tag.store = s.tag.store := by
  simp [h_run, h_wait, turnOr]

@[simp] theorem turnOr_kept_keys (s : State) (r0 : Request) (run : State → State) (wait : State → State) (h_run : ∀ t, (run t).boot.keys = t.boot.keys) (h_wait : ∀ t, (wait t).boot.keys = t.boot.keys) :
    (turnOr s r0 run wait).boot.keys = s.boot.keys := by
  simp [h_run, h_wait, turnOr]

@[simp] theorem turnOr_wf_nor (s : State) (r0 : Request) (run : State → State) (wait : State → State) (h_run : ∀ t, bytesWf t.mem.nor = true → bytesWf (run t).mem.nor = true) (h_wait : ∀ t, bytesWf t.mem.nor = true → bytesWf (wait t).mem.nor = true) (hs : bytesWf s.mem.nor = true) :
    bytesWf (turnOr s r0 run wait).mem.nor = true := by
  unfold turnOr; simp only []; (repeat' split) <;> simp_all

@[simp] theorem turnOr_wf_store (s : State) (r0 : Request) (run : State → State) (wait : State → State) (h_run : ∀ t, bytesWf t.tag.store = true → bytesWf (run t).tag.store = true) (h_wait : ∀ t, bytesWf t.tag.store = true → bytesWf (wait t).tag.store = true) (hs : bytesWf s.tag.store = true) :
    bytesWf (turnOr s r0 run wait).tag.store = true := by
  unfold turnOr; simp only []; (repeat' split) <;> simp_all

@[simp] theorem turn_kept_pend (s : State) (r0 : Request) (cmd : Instr) (run : State → State) (wait : State → State) (h_run : ∀ t, (run t).pending = t.pending) (h_wait : ∀ t, (wait t).pending = t.pending) :
    (turn s r0 cmd run wait).pending = s.pending := by
  simp [h_run, h_wait, turn]

@[simp] theorem turn_kept_mem (s : State) (r0 : Request) (cmd : Instr) (run : State → State) (wait : State → State) (h_run : ∀ t, (run t).mem = t.mem) (h_wait : ∀ t, (wait t).mem = t.mem) :
    (turn s r0 cmd run wait).mem = s.mem := by
  simp [h_run, h_wait, turn]

@[simp] theorem turn_kept_store (s : State) (r0 : Request) (cmd : Instr) (run : State → State) (wait : State → State) (h_run : ∀ t, (run t).tag.store = t.tag.store) (h_wait : ∀ t, (wait t).tag.store = t.tag.store) :
    (turn s r0 cmd run wait).tag.store = s.tag.store := by
  simp [h_run, h_wait, turn]

@[simp] theorem turn_kept_keys (s : State) (r0 : Request) (cmd : Instr) (run : State → State) (wait : State → State) (h_run : ∀ t, (run t).boot.keys = t.boot.keys) (h_wait : ∀ t, (wait t).boot.keys = t.boot.keys) :
    (turn s r0 cmd run wait).boot.keys = s.boot.keys := by
  simp [h_run, h_wait, turn]

@[simp] theorem turn_wf_nor (s : State) (r0 : Request) (cmd : Instr) (run : State → State) (wait : State → State) (h_run : ∀ t, bytesWf t.mem.nor = true → bytesWf (run t).mem.nor = true) (h_wait : ∀ t, bytesWf t.mem.nor = true → bytesWf (wait t).mem.nor = true) (hs : bytesWf s.mem.nor = true) :
    bytesWf (turn s r0 cmd run wait).mem.nor = true := by
  unfold turn; simp only []; (repeat' split) <;> simp_all

@[simp] theorem turn_wf_store (s : State) (r0 : Request) (cmd : Instr) (run : State → State) (wait : State → State) (h_run : ∀ t, bytesWf t.tag.store = true → bytesWf (run t).tag.store = true) (h_wait : ∀ t, bytesWf t.tag.store = true → bytesWf (wait t).tag.store = true) (hs : bytesWf s.tag.store = true) :
    bytesWf (turn s r0 cmd run wait).tag.store = true := by
  unfold turn; simp only []; (repeat' split) <;> simp_all

theorem flintTake_kept (s : State) (who : Consumer) (t : State) (h : flintTake s who = some t) :
    t.pending = s.pending ∧
      t.mem = s.mem ∧
      t.tag.store = s.tag.store ∧
      t.boot.keys = s.boot.keys := by
  unfold flintTake at h
  (repeat' split at h) <;> simp only [Option.some.injEq, reduceCtorEq] at h <;> subst h <;> simp

@[simp] theorem flintWait_kept (s : State) (who : Consumer) :
    (flintWait s who).pending = s.pending ∧
      (flintWait s who).mem = s.mem ∧
      (flintWait s who).tag.store = s.tag.store ∧
      (flintWait s who).boot.keys = s.boot.keys := by
  simp [flintWait]

@[simp] theorem flintTurn_kept_pend (s : State) (who : Consumer) (cmd : Instr) (run : State → State) (h_run : ∀ t, (run t).pending = t.pending) :
    (flintTurn s who cmd run).pending = s.pending := by
  unfold flintTurn
  split
  · rename_i t ht
    rw [h_run]
    exact (flintTake_kept _ _ _ ht).1
  · simp

@[simp] theorem flintTurn_kept_mem (s : State) (who : Consumer) (cmd : Instr) (run : State → State) (h_run : ∀ t, (run t).mem = t.mem) :
    (flintTurn s who cmd run).mem = s.mem := by
  unfold flintTurn
  split
  · rename_i t ht
    rw [h_run]
    exact (flintTake_kept _ _ _ ht).2.1
  · simp

@[simp] theorem flintTurn_kept_store (s : State) (who : Consumer) (cmd : Instr) (run : State → State) (h_run : ∀ t, (run t).tag.store = t.tag.store) :
    (flintTurn s who cmd run).tag.store = s.tag.store := by
  unfold flintTurn
  split
  · rename_i t ht
    rw [h_run]
    exact (flintTake_kept _ _ _ ht).2.2.1
  · simp

@[simp] theorem flintTurn_kept_keys (s : State) (who : Consumer) (cmd : Instr) (run : State → State) (h_run : ∀ t, (run t).boot.keys = t.boot.keys) :
    (flintTurn s who cmd run).boot.keys = s.boot.keys := by
  unfold flintTurn
  split
  · rename_i t ht
    rw [h_run]
    exact (flintTake_kept _ _ _ ht).2.2.2
  · simp

@[simp] theorem flintTurn_wf_nor (s : State) (who : Consumer) (cmd : Instr) (run : State → State) (h_run : ∀ t, bytesWf t.mem.nor = true → bytesWf (run t).mem.nor = true) (hs : bytesWf s.mem.nor = true) :
    bytesWf (flintTurn s who cmd run).mem.nor = true := by
  unfold flintTurn
  split
  · rename_i t ht
    apply h_run
    rw [(flintTake_kept _ _ _ ht).2.1]
    exact hs
  · simp [hs]

@[simp] theorem flintTurn_wf_store (s : State) (who : Consumer) (cmd : Instr) (run : State → State) (h_run : ∀ t, bytesWf t.tag.store = true → bytesWf (run t).tag.store = true) (hs : bytesWf s.tag.store = true) :
    bytesWf (flintTurn s who cmd run).tag.store = true := by
  unfold flintTurn
  split
  · rename_i t ht
    apply h_run
    rw [(flintTake_kept _ _ _ ht).2.2.1]
    exact hs
  · simp [hs]

@[simp] theorem opsPost_kept (s : State) :
    (opsPost s).pending = s.pending ∧
      (opsPost s).mem = s.mem ∧
      (opsPost s).tag.store = s.tag.store ∧
      (opsPost s).boot.keys = s.boot.keys := by
  simp [opsPost]

/-! ### CalCore -/

@[simp] theorem setCalInst_kept (s : State) (x : CalInst) :
    (setCalInst s x).pending = s.pending ∧
      (setCalInst s x).mem = s.mem ∧
      (setCalInst s x).tag.store = s.tag.store ∧
      (setCalInst s x).boot.keys = s.boot.keys := by
  simp [setCalInst]

@[simp] theorem gapPost_kept (s : State) (path : Nat) :
    (gapPost s path).pending = s.pending ∧
      (gapPost s path).mem = s.mem ∧
      (gapPost s path).tag.store = s.tag.store ∧
      (gapPost s path).boot.keys = s.boot.keys := by
  unfold gapPost; split <;> simp

@[simp] theorem calPost_kept (s : State) :
    (calPost s).pending = s.pending ∧
      (calPost s).mem = s.mem ∧
      (calPost s).tag.store = s.tag.store ∧
      (calPost s).boot.keys = s.boot.keys := by
  simp [calPost]

@[simp] theorem calMark_kept (s : State) (item inst : Nat) (slots : List Nat) :
    (calMark s item inst slots).pending = s.pending ∧
      (calMark s item inst slots).mem = s.mem ∧
      (calMark s item inst slots).tag.store = s.tag.store ∧
      (calMark s item inst slots).boot.keys = s.boot.keys := by
  simp [calMark]

@[simp] theorem calTrigger_kept (s : State) (item inst : Nat) (slots : List Nat) :
    (calTrigger s item inst slots).pending = s.pending ∧
      (calTrigger s item inst slots).mem = s.mem ∧
      (calTrigger s item inst slots).tag.store = s.tag.store ∧
      (calTrigger s item inst slots).boot.keys = s.boot.keys := by
  simp [calTrigger]

@[simp] theorem calOverdue_kept (s : State) (item inst : Nat) :
    (calOverdue s item inst).pending = s.pending ∧
      (calOverdue s item inst).mem = s.mem ∧
      (calOverdue s item inst).tag.store = s.tag.store ∧
      (calOverdue s item inst).boot.keys = s.boot.keys := by
  simp [calOverdue]

@[simp] theorem calStop_kept (s : State) (who : Consumer) :
    (calStop s who).pending = s.pending ∧
      (calStop s who).mem = s.mem ∧
      (calStop s who).tag.store = s.tag.store ∧
      (calStop s who).boot.keys = s.boot.keys := by
  simp [calStop]

/-! ### Work -/

@[simp] theorem setPathSt_kept (s : State) (p : RfPath) (x : PathSt) :
    (setPathSt s p x).pending = s.pending ∧
      (setPathSt s p x).mem = s.mem ∧
      (setPathSt s p x).tag.store = s.tag.store ∧
      (setPathSt s p x).boot.keys = s.boot.keys := by
  unfold setPathSt; split <;> simp

@[simp] theorem setChains_kept (s : State) :
    (setChains s).pending = s.pending ∧
      (setChains s).mem = s.mem ∧
      (setChains s).tag.store = s.tag.store ∧
      (setChains s).boot.keys = s.boot.keys := by
  simp [setChains]

@[simp] theorem carrierOff_kept (s : State) (p : RfPath) :
    (carrierOff s p).pending = s.pending ∧
      (carrierOff s p).mem = s.mem ∧
      (carrierOff s p).tag.store = s.tag.store ∧
      (carrierOff s p).boot.keys = s.boot.keys := by
  simp [carrierOff]

@[simp] theorem pathIdle_kept (s : State) (p : RfPath) :
    (pathIdle s p).pending = s.pending ∧
      (pathIdle s p).mem = s.mem ∧
      (pathIdle s p).tag.store = s.tag.store ∧
      (pathIdle s p).boot.keys = s.boot.keys := by
  simp [pathIdle]

@[simp] theorem setRound_kept (s : State) (p : RfPath) (r : Option Round) :
    (setRound s p r).pending = s.pending ∧
      (setRound s p r).mem = s.mem ∧
      (setRound s p r).tag.store = s.tag.store ∧
      (setRound s p r).boot.keys = s.boot.keys := by
  unfold setRound; split <;> simp

@[simp] theorem programEnd_kept (s : State) (p : RfPath) :
    (programEnd s p).pending = s.pending ∧
      (programEnd s p).mem = s.mem ∧
      (programEnd s p).tag.store = s.tag.store ∧
      (programEnd s p).boot.keys = s.boot.keys := by
  unfold programEnd; (repeat' split) <;> simp

@[simp] theorem programAbort_kept (s : State) (p : RfPath) :
    (programAbort s p).pending = s.pending ∧
      (programAbort s p).mem = s.mem ∧
      (programAbort s p).tag.store = s.tag.store ∧
      (programAbort s p).boot.keys = s.boot.keys := by
  unfold programAbort; (repeat' split) <;> simp

@[simp] theorem immEnd_kept (s : State) (r : Round) (reason : Nat) :
    (immEnd s r reason).pending = s.pending ∧
      (immEnd s r reason).mem = s.mem ∧
      (immEnd s r reason).tag.store = s.tag.store ∧
      (immEnd s r reason).boot.keys = s.boot.keys := by
  simp [immEnd]

@[simp] theorem roundEnd_kept (s0 : State) (p : RfPath) (reason : Nat) :
    (roundEnd s0 p reason).pending = s0.pending ∧
      (roundEnd s0 p reason).mem = s0.mem ∧
      (roundEnd s0 p reason).tag.store = s0.tag.store ∧
      (roundEnd s0 p reason).boot.keys = s0.boot.keys := by
  unfold roundEnd; simp only []; (repeat' split) <;> simp_all

@[simp] theorem roundsEnd_kept (s : State) (p : RfPath) (reason : Nat) :
    (roundsEnd s p reason).pending = s.pending ∧
      (roundsEnd s p reason).mem = s.mem ∧
      (roundsEnd s p reason).tag.store = s.tag.store ∧
      (roundsEnd s p reason).boot.keys = s.boot.keys := by
  unfold roundsEnd; split <;> simp

/-! ### Swap -/

@[simp] theorem swapWords_kept (s : State) (b : BlockInst) (p : Nat → Bool) :
    (swapWords s b p).pending = s.pending ∧
      (swapWords s b p).mem = s.mem ∧
      (swapWords s b p).tag.store = s.tag.store ∧
      (swapWords s b p).boot.keys = s.boot.keys := by
  simp [swapWords]

@[simp] theorem dropStaged_kept (s : State) (b : BlockInst) :
    (dropStaged s b).pending = s.pending ∧
      (dropStaged s b).mem = s.mem ∧
      (dropStaged s b).tag.store = s.tag.store ∧
      (dropStaged s b).boot.keys = s.boot.keys := by
  simp [dropStaged]

@[simp] theorem setPend_kept (s : State) (b : BlockInst) (v : Nat) :
    (setPend s b v).pending = s.pending ∧
      (setPend s b v).mem = s.mem ∧
      (setPend s b v).tag.store = s.tag.store ∧
      (setPend s b v).boot.keys = s.boot.keys := by
  simp [setPend]

@[simp] theorem acceptSeq_kept (s : State) (b : BlockInst) :
    (acceptSeq s b).pending = s.pending ∧
      (acceptSeq s b).mem = s.mem ∧
      (acceptSeq s b).tag.store = s.tag.store ∧
      (acceptSeq s b).boot.keys = s.boot.keys := by
  simp [acceptSeq]

@[simp] theorem acceptWhole_kept (s : State) (b : BlockInst) :
    (acceptWhole s b).pending = s.pending ∧
      (acceptWhole s b).mem = s.mem ∧
      (acceptWhole s b).tag.store = s.tag.store ∧
      (acceptWhole s b).boot.keys = s.boot.keys := by
  simp [acceptWhole]

@[simp] theorem refuseSet_kept (s : State) (b : BlockInst) (reason : Nat) :
    (refuseSet s b reason).pending = s.pending ∧
      (refuseSet s b reason).mem = s.mem ∧
      (refuseSet s b reason).tag.store = s.tag.store ∧
      (refuseSet s b reason).boot.keys = s.boot.keys := by
  simp [refuseSet]

/-! ### Quartz -/

@[simp] theorem setQtzRes_kept (s : State) (r : Nat) :
    (setQtzRes s r).pending = s.pending ∧
      (setQtzRes s r).mem = s.mem ∧
      (setQtzRes s r).tag.store = s.tag.store ∧
      (setQtzRes s r).boot.keys = s.boot.keys := by
  simp [setQtzRes]

@[simp] theorem timeSnapshot_kept (s : State) :
    (timeSnapshot s).pending = s.pending ∧
      (timeSnapshot s).mem = s.mem ∧
      (timeSnapshot s).tag.store = s.tag.store ∧
      (timeSnapshot s).boot.keys = s.boot.keys := by
  simp [timeSnapshot]

@[simp] theorem setTime_kept (s : State) (clrOsf : Bool) :
    (setTime s clrOsf).pending = s.pending ∧
      (setTime s clrOsf).mem = s.mem ∧
      (setTime s clrOsf).tag.store = s.tag.store ∧
      (setTime s clrOsf).boot.keys = s.boot.keys := by
  unfold setTime; split <;> simp

@[simp] theorem setNow_kept (s : State) (clrOsf : Bool) :
    (setNow s clrOsf).pending = s.pending ∧
      (setNow s clrOsf).mem = s.mem ∧
      (setNow s clrOsf).tag.store = s.tag.store ∧
      (setNow s clrOsf).boot.keys = s.boot.keys := by
  unfold setNow; split <;> simp

@[simp] theorem cancelSet_kept (s : State) :
    (cancelSet s).pending = s.pending ∧
      (cancelSet s).mem = s.mem ∧
      (cancelSet s).tag.store = s.tag.store ∧
      (cancelSet s).boot.keys = s.boot.keys := by
  unfold cancelSet; split <;> simp

@[simp] theorem qtzCommand_kept_pend (s : State) (lvl : Level) (key : BitVec 16) (eff : State → State) (h_eff : ∀ t, (eff t).pending = t.pending) :
    (qtzCommand s lvl key eff).pending = s.pending := by
  simp [h_eff, qtzCommand]

@[simp] theorem qtzCommand_kept_mem (s : State) (lvl : Level) (key : BitVec 16) (eff : State → State) (h_eff : ∀ t, (eff t).mem = t.mem) :
    (qtzCommand s lvl key eff).mem = s.mem := by
  simp [h_eff, qtzCommand]

@[simp] theorem qtzCommand_kept_store (s : State) (lvl : Level) (key : BitVec 16) (eff : State → State) (h_eff : ∀ t, (eff t).tag.store = t.tag.store) :
    (qtzCommand s lvl key eff).tag.store = s.tag.store := by
  simp [h_eff, qtzCommand]

@[simp] theorem qtzCommand_kept_keys (s : State) (lvl : Level) (key : BitVec 16) (eff : State → State) (h_eff : ∀ t, (eff t).boot.keys = t.boot.keys) :
    (qtzCommand s lvl key eff).boot.keys = s.boot.keys := by
  simp [h_eff, qtzCommand]

@[simp] theorem qtzCommand_wf_nor (s : State) (lvl : Level) (key : BitVec 16) (eff : State → State) (h_eff : ∀ t, bytesWf t.mem.nor = true → bytesWf (eff t).mem.nor = true) (hs : bytesWf s.mem.nor = true) :
    bytesWf (qtzCommand s lvl key eff).mem.nor = true := by
  unfold qtzCommand; (repeat' split) <;> simp_all

@[simp] theorem qtzCommand_wf_store (s : State) (lvl : Level) (key : BitVec 16) (eff : State → State) (h_eff : ∀ t, bytesWf t.tag.store = true → bytesWf (eff t).tag.store = true) (hs : bytesWf s.tag.store = true) :
    bytesWf (qtzCommand s lvl key eff).tag.store = true := by
  unfold qtzCommand; (repeat' split) <;> simp_all

@[simp] theorem shiftRequest_kept (s : State) (value : Word) :
    (shiftRequest s value).pending = s.pending ∧
      (shiftRequest s value).mem = s.mem ∧
      (shiftRequest s value).tag.store = s.tag.store ∧
      (shiftRequest s value).boot.keys = s.boot.keys := by
  unfold shiftRequest; split <;> simp

@[simp] theorem countdownWrite_kept (s : State) (value : Word) :
    (countdownWrite s value).pending = s.pending ∧
      (countdownWrite s value).mem = s.mem ∧
      (countdownWrite s value).tag.store = s.tag.store ∧
      (countdownWrite s value).boot.keys = s.boot.keys := by
  simp [countdownWrite]

@[simp] theorem countdownZero_kept (s : State) :
    (countdownZero s).pending = s.pending ∧
      (countdownZero s).mem = s.mem ∧
      (countdownZero s).tag.store = s.tag.store ∧
      (countdownZero s).boot.keys = s.boot.keys := by
  simp [countdownZero]

@[simp] theorem count32_kept (s : State) :
    (count32 s).pending = s.pending ∧
      (count32 s).mem = s.mem ∧
      (count32 s).tag.store = s.tag.store ∧
      (count32 s).boot.keys = s.boot.keys := by
  simp [count32]

@[simp] theorem trimAdjust_kept (s : State) :
    (trimAdjust s).pending = s.pending ∧
      (trimAdjust s).mem = s.mem ∧
      (trimAdjust s).tag.store = s.tag.store ∧
      (trimAdjust s).boot.keys = s.boot.keys := by
  simp [trimAdjust]

@[simp] theorem trimReject_kept (s : State) :
    (trimReject s).pending = s.pending ∧
      (trimReject s).mem = s.mem ∧
      (trimReject s).tag.store = s.tag.store ∧
      (trimReject s).boot.keys = s.boot.keys := by
  simp [trimReject]

@[simp] theorem setMeas_kept (s : State) (e100 : Int) :
    (setMeas s e100).pending = s.pending ∧
      (setMeas s e100).mem = s.mem ∧
      (setMeas s e100).tag.store = s.tag.store ∧
      (setMeas s e100).boot.keys = s.boot.keys := by
  simp [setMeas]

@[simp] theorem trimEnd_kept (s : State) (num : Int) (den : Nat) :
    (trimEnd s num den).pending = s.pending ∧
      (trimEnd s num den).mem = s.mem ∧
      (trimEnd s num den).tag.store = s.tag.store ∧
      (trimEnd s num den).boot.keys = s.boot.keys := by
  simp [trimEnd]

@[simp] theorem mainsEdge_kept (s : State) :
    (mainsEdge s).pending = s.pending ∧
      (mainsEdge s).mem = s.mem ∧
      (mainsEdge s).tag.store = s.tag.store ∧
      (mainsEdge s).boot.keys = s.boot.keys := by
  unfold mainsEdge; (repeat' split) <;> simp

@[simp] theorem edge32_kept (s : State) :
    (edge32 s).pending = s.pending ∧
      (edge32 s).mem = s.mem ∧
      (edge32 s).tag.store = s.tag.store ∧
      (edge32 s).boot.keys = s.boot.keys := by
  simp [edge32]

@[simp] theorem tickClocks_kept (s : State) :
    (tickClocks s).pending = s.pending ∧
      (tickClocks s).mem = s.mem ∧
      (tickClocks s).tag.store = s.tag.store ∧
      (tickClocks s).boot.keys = s.boot.keys := by
  simp [tickClocks]

end Sys2Proof.Machine
end

