-- ==== Sys2Proof/Laws/KeptSight.lean ====
section
/-! SUPPORT. What the sighting store, zones, FIFO and journal leave alone: the queue, the memory device, the tag store and the
keys, but for those that write them, which keep the canonical form of the store they write. -/

open Sys2Proof

namespace Sys2Proof.Machine

/-! ### Sightings -/

@[simp] theorem sgtPut_kept (s : State) (n : Nat) (e : Sighting) :
    (sgtPut s n e).pending = s.pending ∧
      (sgtPut s n e).mem = s.mem ∧
      (sgtPut s n e).tag.store = s.tag.store ∧
      (sgtPut s n e).boot.keys = s.boot.keys := by
  simp [sgtPut]

@[simp] theorem sgtOpen_kept (s : State) (n : Nat) (e : Sighting) :
    (sgtOpen s n e).pending = s.pending ∧
      (sgtOpen s n e).mem = s.mem ∧
      (sgtOpen s n e).tag.store = s.tag.store ∧
      (sgtOpen s n e).boot.keys = s.boot.keys := by
  simp [sgtOpen]

@[simp] theorem setZone_kept (s : State) (z : Zone) :
    (setZone s z).pending = s.pending ∧
      (setZone s z).mem = s.mem ∧
      (setZone s z).tag.store = s.tag.store ∧
      (setZone s z).boot.keys = s.boot.keys := by
  simp [setZone]

@[simp] theorem sgtCount_kept (s : State) (e : Sighting) (dir : Nat) :
    (sgtCount s e dir).pending = s.pending ∧
      (sgtCount s e dir).mem = s.mem ∧
      (sgtCount s e dir).tag.store = s.tag.store ∧
      (sgtCount s e dir).boot.keys = s.boot.keys := by
  unfold sgtCount; (repeat' split) <;> simp

@[simp] theorem trfReport_kept (s : State) (code : Nat) (i : Interval) (len : Nat) (zoneEnd timeStep : Bool) :
    (trfReport s code i len zoneEnd timeStep).pending = s.pending ∧
      (trfReport s code i len zoneEnd timeStep).mem = s.mem ∧
      (trfReport s code i len zoneEnd timeStep).tag.store = s.tag.store ∧
      (trfReport s code i len zoneEnd timeStep).boot.keys = s.boot.keys := by
  simp [trfReport]

@[simp] theorem zoneReport_kept (due : Interval → Bool) (t : State) (z : Zone) :
    (zoneReport due t z).pending = t.pending ∧
      (zoneReport due t z).mem = t.mem ∧
      (zoneReport due t z).tag.store = t.tag.store ∧
      (zoneReport due t z).boot.keys = t.boot.keys := by
  unfold zoneReport; (repeat' split) <;> simp

@[simp] theorem reportEnded_kept (s : State) :
    (reportEnded s).pending = s.pending ∧
      (reportEnded s).mem = s.mem ∧
      (reportEnded s).tag.store = s.tag.store ∧
      (reportEnded s).boot.keys = s.boot.keys := by
  simp [reportEnded]

@[simp] theorem reportAtWake_kept (s : State) :
    (reportAtWake s).pending = s.pending ∧
      (reportAtWake s).mem = s.mem ∧
      (reportAtWake s).tag.store = s.tag.store ∧
      (reportAtWake s).boot.keys = s.boot.keys := by
  simp [reportAtWake]

@[simp] theorem intervalBoundary_kept (s : State) :
    (intervalBoundary s).pending = s.pending ∧
      (intervalBoundary s).mem = s.mem ∧
      (intervalBoundary s).tag.store = s.tag.store ∧
      (intervalBoundary s).boot.keys = s.boot.keys := by
  simp [intervalBoundary]

@[simp] theorem zoneStep_kept (before : Nat) (t : State) (z : Zone) :
    (zoneStep before t z).pending = t.pending ∧
      (zoneStep before t z).mem = t.mem ∧
      (zoneStep before t z).tag.store = t.tag.store ∧
      (zoneStep before t z).boot.keys = t.boot.keys := by
  unfold zoneStep; (repeat' split) <;> simp

@[simp] theorem intervalStep_kept (s : State) (before : Nat) :
    (intervalStep s before).pending = s.pending ∧
      (intervalStep s before).mem = s.mem ∧
      (intervalStep s before).tag.store = s.tag.store ∧
      (intervalStep s before).boot.keys = s.boot.keys := by
  simp [intervalStep]

@[simp] theorem zoneBegin_kept (s : State) (code : Nat) :
    (zoneBegin s code).pending = s.pending ∧
      (zoneBegin s code).mem = s.mem ∧
      (zoneBegin s code).tag.store = s.tag.store ∧
      (zoneBegin s code).boot.keys = s.boot.keys := by
  simp [zoneBegin]

@[simp] theorem zonesBegin_kept (s : State) :
    (zonesBegin s).pending = s.pending ∧
      (zonesBegin s).mem = s.mem ∧
      (zonesBegin s).tag.store = s.tag.store ∧
      (zonesBegin s).boot.keys = s.boot.keys := by
  simp [zonesBegin]

@[simp] theorem sgtClose_kept (s : State) (n : Nat) (why : Option Nat) :
    (sgtClose s n why).pending = s.pending ∧
      (sgtClose s n why).mem = s.mem ∧
      (sgtClose s n why).tag.store = s.tag.store ∧
      (sgtClose s n why).boot.keys = s.boot.keys := by
  unfold sgtClose; simp only []; (repeat' split) <;> simp_all

@[simp] theorem sgtMakeRoom_kept (s : State) :
    (sgtMakeRoom s).1.pending = s.pending ∧
      (sgtMakeRoom s).1.mem = s.mem ∧
      (sgtMakeRoom s).1.tag.store = s.tag.store ∧
      (sgtMakeRoom s).1.boot.keys = s.boot.keys := by
  unfold sgtMakeRoom; (repeat' split) <;> simp

@[simp] theorem sgtMerge_kept (s : State) (r : TagRead) :
    (sgtMerge s r).pending = s.pending ∧
      (sgtMerge s r).mem = s.mem ∧
      (sgtMerge s r).tag.store = s.tag.store ∧
      (sgtMerge s r).boot.keys = s.boot.keys := by
  unfold sgtMerge; simp only []; (repeat' split) <;> simp_all

@[simp] theorem mergeAll_kept (s : State) (l : List TagRead) :
    (mergeAll s l).pending = s.pending ∧
      (mergeAll s l).mem = s.mem ∧
      (mergeAll s l).tag.store = s.tag.store ∧
      (mergeAll s l).boot.keys = s.boot.keys := by
  simp [mergeAll]

@[simp] theorem readMerge_kept (s : State) (r : ReadIn) :
    (readMerge s r).pending = s.pending ∧
      (readMerge s r).mem = s.mem ∧
      (readMerge s r).tag.store = s.tag.store ∧
      (readMerge s r).boot.keys = s.boot.keys := by
  simp [readMerge]

@[simp] theorem mergeWaiting_kept (s : State) :
    (mergeWaiting s).pending = s.pending ∧
      (mergeWaiting s).mem = s.mem ∧
      (mergeWaiting s).tag.store = s.tag.store ∧
      (mergeWaiting s).boot.keys = s.boot.keys := by
  simp [mergeWaiting]

@[simp] theorem closeHeld_kept (s : State) :
    (closeHeld s).pending = s.pending ∧
      (closeHeld s).mem = s.mem ∧
      (closeHeld s).tag.store = s.tag.store ∧
      (closeHeld s).boot.keys = s.boot.keys := by
  simp [closeHeld]

@[simp] theorem closeLong_kept (s : State) :
    (closeLong s).pending = s.pending ∧
      (closeLong s).mem = s.mem ∧
      (closeLong s).tag.store = s.tag.store ∧
      (closeLong s).boot.keys = s.boot.keys := by
  simp [closeLong]

@[simp] theorem sightingTick_kept (s : State) :
    (sightingTick s).pending = s.pending ∧
      (sightingTick s).mem = s.mem ∧
      (sightingTick s).tag.store = s.tag.store ∧
      (sightingTick s).boot.keys = s.boot.keys := by
  simp [sightingTick]

@[simp] theorem zoneEnd_kept (s : State) (code : Nat) :
    (zoneEnd s code).pending = s.pending ∧
      (zoneEnd s code).mem = s.mem ∧
      (zoneEnd s code).tag.store = s.tag.store ∧
      (zoneEnd s code).boot.keys = s.boot.keys := by
  unfold zoneEnd; simp only []; (repeat' split) <;> simp_all

@[simp] theorem sgtCfgWrite_kept (s : State) (v : Word) :
    (sgtCfgWrite s v).pending = s.pending ∧
      (sgtCfgWrite s v).mem = s.mem ∧
      (sgtCfgWrite s v).tag.store = s.tag.store ∧
      (sgtCfgWrite s v).boot.keys = s.boot.keys := by
  simp [sgtCfgWrite]

@[simp] theorem sgtSelWrite_kept (s : State) (v : Word) :
    (sgtSelWrite s v).pending = s.pending ∧
      (sgtSelWrite s v).mem = s.mem ∧
      (sgtSelWrite s v).tag.store = s.tag.store ∧
      (sgtSelWrite s v).boot.keys = s.boot.keys := by
  simp [sgtSelWrite]

/-! ### Boundary -/

@[simp] theorem fitRestart_kept (s : State) :
    (fitRestart s).pending = s.pending ∧
      (fitRestart s).mem = s.mem ∧
      (fitRestart s).tag.store = s.tag.store ∧
      (fitRestart s).boot.keys = s.boot.keys := by
  simp [fitRestart]

@[simp] theorem trimChanged_kept (s : State) :
    (trimChanged s).pending = s.pending ∧
      (trimChanged s).mem = s.mem ∧
      (trimChanged s).tag.store = s.tag.store ∧
      (trimChanged s).boot.keys = s.boot.keys := by
  simp [trimChanged]

@[simp] theorem trimWindowNew_kept (s : State) :
    (trimWindowNew s).pending = s.pending ∧
      (trimWindowNew s).mem = s.mem ∧
      (trimWindowNew s).tag.store = s.tag.store ∧
      (trimWindowNew s).boot.keys = s.boot.keys := by
  simp [trimWindowNew]

@[simp] theorem qtzApplied_kept (s0 s : State) :
    (qtzApplied s0 s).pending = s.pending ∧
      (qtzApplied s0 s).mem = s.mem ∧
      (qtzApplied s0 s).tag.store = s.tag.store ∧
      (qtzApplied s0 s).boot.keys = s.boot.keys := by
  unfold qtzApplied; (repeat' split) <;> simp

@[simp] theorem qtzSwap_kept (s : State) :
    (qtzSwap s).pending = s.pending ∧
      (qtzSwap s).mem = s.mem ∧
      (qtzSwap s).tag.store = s.tag.store ∧
      (qtzSwap s).boot.keys = s.boot.keys := by
  simp [qtzSwap]

@[simp] theorem alarmCheck_kept (s : State) :
    (alarmCheck s).pending = s.pending ∧
      (alarmCheck s).mem = s.mem ∧
      (alarmCheck s).tag.store = s.tag.store ∧
      (alarmCheck s).boot.keys = s.boot.keys := by
  simp [alarmCheck]

@[simp] theorem intervalsAt_kept (s : State) :
    (intervalsAt s).pending = s.pending ∧
      (intervalsAt s).mem = s.mem ∧
      (intervalsAt s).tag.store = s.tag.store ∧
      (intervalsAt s).boot.keys = s.boot.keys := by
  simp [intervalsAt]

@[simp] theorem secondBegins_kept (s : State) :
    (secondBegins s).pending = s.pending ∧
      (secondBegins s).mem = s.mem ∧
      (secondBegins s).tag.store = s.tag.store ∧
      (secondBegins s).boot.keys = s.boot.keys := by
  simp [secondBegins]

@[simp] theorem autoTrimApply_kept (s : State) (committed : Bool) :
    (autoTrimApply s committed).pending = s.pending ∧
      (autoTrimApply s committed).mem = s.mem ∧
      (autoTrimApply s committed).tag.store = s.tag.store ∧
      (autoTrimApply s committed).boot.keys = s.boot.keys := by
  unfold autoTrimApply; split <;> simp

@[simp] theorem qtzBoundary_kept (s : State) :
    (qtzBoundary s).pending = s.pending ∧
      (qtzBoundary s).mem = s.mem ∧
      (qtzBoundary s).tag.store = s.tag.store ∧
      (qtzBoundary s).boot.keys = s.boot.keys := by
  simp [qtzBoundary]

@[simp] theorem shiftApply_kept (s : State) :
    (shiftApply s).pending = s.pending ∧
      (shiftApply s).mem = s.mem ∧
      (shiftApply s).tag.store = s.tag.store ∧
      (shiftApply s).boot.keys = s.boot.keys := by
  unfold shiftApply; split <;> simp

@[simp] theorem timeSetApply_kept (s : State) (t : TimeSet) :
    (timeSetApply s t).pending = s.pending ∧
      (timeSetApply s t).mem = s.mem ∧
      (timeSetApply s t).tag.store = s.tag.store ∧
      (timeSetApply s t).boot.keys = s.boot.keys := by
  unfold timeSetApply; simp only []; (repeat' split) <;> simp_all

@[simp] theorem secondBoundary_kept (s : State) :
    (secondBoundary s).pending = s.pending ∧
      (secondBoundary s).mem = s.mem ∧
      (secondBoundary s).tag.store = s.tag.store ∧
      (secondBoundary s).boot.keys = s.boot.keys := by
  unfold secondBoundary; (repeat' split) <;> simp

@[simp] theorem setNowApply_kept (s : State) :
    (setNowApply s).pending = s.pending ∧
      (setNowApply s).mem = s.mem ∧
      (setNowApply s).tag.store = s.tag.store ∧
      (setNowApply s).boot.keys = s.boot.keys := by
  unfold setNowApply; split <;> simp

@[simp] theorem beaconMeasure_kept (s : State) (steady : Bool) :
    (beaconMeasure s steady).pending = s.pending ∧
      (beaconMeasure s steady).mem = s.mem ∧
      (beaconMeasure s steady).tag.store = s.tag.store ∧
      (beaconMeasure s steady).boot.keys = s.boot.keys := by
  simp [beaconMeasure]

@[simp] theorem measureAtWake_kept (s : State) :
    (measureAtWake s).pending = s.pending ∧
      (measureAtWake s).mem = s.mem ∧
      (measureAtWake s).tag.store = s.tag.store ∧
      (measureAtWake s).boot.keys = s.boot.keys := by
  unfold measureAtWake; split <;> simp

@[simp] theorem trimWindowEnd_kept (s : State) :
    (trimWindowEnd s).pending = s.pending ∧
      (trimWindowEnd s).mem = s.mem ∧
      (trimWindowEnd s).tag.store = s.tag.store ∧
      (trimWindowEnd s).boot.keys = s.boot.keys := by
  unfold trimWindowEnd; (repeat' split) <;> simp

/-! ### Fifo -/

@[simp] theorem handover_kept (s : State) (n : Nat) :
    (handover s n).pending = s.pending ∧
      (handover s n).mem = s.mem ∧
      (handover s n).tag.store = s.tag.store ∧
      (handover s n).boot.keys = s.boot.keys := by
  simp [handover]

@[simp] theorem eccEffect_kept (s : State) (n ecc bank idx : Nat) :
    (eccEffect s n ecc bank idx).pending = s.pending ∧
      (eccEffect s n ecc bank idx).mem = s.mem ∧
      (eccEffect s n ecc bank idx).tag.store = s.tag.store ∧
      (eccEffect s n ecc bank idx).boot.keys = s.boot.keys := by
  simp [eccEffect]

@[simp] theorem unitRead_kept (s : State) (u : FUnit) (ecc : Nat) :
    (unitRead s u ecc).2.pending = s.pending ∧
      (unitRead s u ecc).2.mem = s.mem ∧
      (unitRead s u ecc).2.tag.store = s.tag.store ∧
      (unitRead s u ecc).2.boot.keys = s.boot.keys := by
  simp [unitRead]

@[simp] theorem consume_kept (s : State) (n ecc : Nat) :
    (consume s n ecc).2.pending = s.pending ∧
      (consume s n ecc).2.mem = s.mem ∧
      (consume s n ecc).2.tag.store = s.tag.store ∧
      (consume s n ecc).2.boot.keys = s.boot.keys := by
  unfold consume; split <;> simp

@[simp] theorem portRead_kept (s : State) (n ecc : Nat) :
    (portRead s n ecc).2.pending = s.pending ∧
      (portRead s n ecc).2.mem = s.mem ∧
      (portRead s n ecc).2.tag.store = s.tag.store ∧
      (portRead s n ecc).2.boot.keys = s.boot.keys := by
  unfold portRead; simp only []; (repeat' split) <;> simp_all

@[simp] theorem autoOf_kept (s : State) (n : Nat) (ws : List Word) :
    (autoOf s n ws).pending = s.pending ∧
      (autoOf s n ws).mem = s.mem ∧
      (autoOf s n ws).tag.store = s.tag.store ∧
      (autoOf s n ws).boot.keys = s.boot.keys := by
  simp [autoOf]

@[simp] theorem dropPkt_kept (s : State) (n : Nat) :
    (dropPkt s n).pending = s.pending ∧
      (dropPkt s n).mem = s.mem ∧
      (dropPkt s n).tag.store = s.tag.store ∧
      (dropPkt s n).boot.keys = s.boot.keys := by
  simp [dropPkt]

@[simp] theorem flushChan_kept (s : State) (n : Nat) :
    (flushChan s n).pending = s.pending ∧
      (flushChan s n).mem = s.mem ∧
      (flushChan s n).tag.store = s.tag.store ∧
      (flushChan s n).boot.keys = s.boot.keys := by
  simp [flushChan]

@[simp] theorem skipUnits_kept (n : Nat) (us : List FUnit) (es : List Nat) (s : State) :
    (skipUnits n us es s).pending = s.pending ∧
      (skipUnits n us es s).mem = s.mem ∧
      (skipUnits n us es s).tag.store = s.tag.store ∧
      (skipUnits n us es s).boot.keys = s.boot.keys := by
  induction us generalizing es s with
  | nil => simp [skipUnits]
  | cons u us ih =>
    unfold skipUnits
    dsimp only
    split <;> simp [ih]

@[simp] theorem skipRun_kept (s : State) (n : Nat) (ecc : List Nat) :
    (skipRun s n ecc).pending = s.pending ∧
      (skipRun s n ecc).mem = s.mem ∧
      (skipRun s n ecc).tag.store = s.tag.store ∧
      (skipRun s n ecc).boot.keys = s.boot.keys := by
  simp [skipRun]

/-! ### Journal -/

@[simp] theorem withhold_kept (s : State) (why : Nat) :
    (withhold s why).pending = s.pending ∧
      (withhold s why).mem = s.mem ∧
      (withhold s why).tag.store = s.tag.store ∧
      (withhold s why).boot.keys = s.boot.keys := by
  simp [withhold]

@[simp] theorem withholdUpdate_kept (s : State) :
    (withholdUpdate s).pending = s.pending ∧
      (withholdUpdate s).mem = s.mem ∧
      (withholdUpdate s).tag.store = s.tag.store ∧
      (withholdUpdate s).boot.keys = s.boot.keys := by
  unfold withholdUpdate; split <;> simp

@[simp] theorem jclose_kept (s : State) :
    (jclose s).pending = s.pending ∧
      (jclose s).mem = s.mem ∧
      (jclose s).tag.store = s.tag.store ∧
      (jclose s).boot.keys = s.boot.keys := by
  simp [jclose]

@[simp] theorem jappend_kept (s : State) (r : JRecord) :
    (jappend s r).pending = s.pending ∧
      (jappend s r).mem = s.mem ∧
      (jappend s r).tag.store = s.tag.store ∧
      (jappend s r).boot.keys = s.boot.keys := by
  simp [jappend]

@[simp] theorem jeraseBlock_kept (s : State) (b : Nat) :
    (jeraseBlock s b).pending = s.pending ∧
      (jeraseBlock s b).mem = s.mem ∧
      (jeraseBlock s b).tag.store = s.tag.store ∧
      (jeraseBlock s b).boot.keys = s.boot.keys := by
  simp [jeraseBlock]

@[simp] theorem jput_kept (s : State) (n : Nat) (bs : List Byte) :
    (jput s n bs).pending = s.pending ∧
      (jput s n bs).mem = s.mem ∧
      (jput s n bs).tag.store = s.tag.store ∧
      (jput s n bs).boot.keys = s.boot.keys := by
  simp [jput]

@[simp] theorem jmeta_kept (s : State) :
    (jmeta s).pending = s.pending ∧
      (jmeta s).mem = s.mem ∧
      (jmeta s).tag.store = s.tag.store ∧
      (jmeta s).boot.keys = s.boot.keys := by
  simp [jmeta]

@[simp] theorem jstop_kept (s : State) (b : Nat) :
    (jstop s b).pending = s.pending ∧
      (jstop s b).mem = s.mem ∧
      (jstop s b).tag.store = s.tag.store ∧
      (jstop s b).boot.keys = s.boot.keys := by
  simp [jstop]

@[simp] theorem jmarkBad_kept (s : State) (b : Nat) :
    (jmarkBad s b).pending = s.pending ∧
      (jmarkBad s b).mem = s.mem ∧
      (jmarkBad s b).tag.store = s.tag.store ∧
      (jmarkBad s b).boot.keys = s.boot.keys := by
  simp [jmarkBad]

@[simp] theorem jblockFail_kept (s : State) (b why : Nat) :
    (jblockFail s b why).pending = s.pending ∧
      (jblockFail s b why).mem = s.mem ∧
      (jblockFail s b why).tag.store = s.tag.store ∧
      (jblockFail s b why).boot.keys = s.boot.keys := by
  simp [jblockFail]

@[simp] theorem fcStands_kept (s : State) (l : List (Nat × JRecord)) :
    (fcStands s l).pending = s.pending ∧
      (fcStands s l).mem = s.mem ∧
      (fcStands s l).tag.store = s.tag.store ∧
      (fcStands s l).boot.keys = s.boot.keys := by
  simp [fcStands]

@[simp] theorem dutyStands_kept (s : State) (l : List (Nat × JRecord)) :
    (dutyStands s l).pending = s.pending ∧
      (dutyStands s l).mem = s.mem ∧
      (dutyStands s l).tag.store = s.tag.store ∧
      (dutyStands s l).boot.keys = s.boot.keys := by
  simp [dutyStands]

@[simp] theorem jnoteSet_kept (s : State) (x : Nat × JRecord) :
    (jnoteSet s x).pending = s.pending ∧
      (jnoteSet s x).mem = s.mem ∧
      (jnoteSet s x).tag.store = s.tag.store ∧
      (jnoteSet s x).boot.keys = s.boot.keys := by
  simp [jnoteSet]

@[simp] theorem jmarkPos_kept (s : State) (at_ : Nat) (l : List JRecord) (u : Nat) :
    (jmarkPos s at_ l u).pending = s.pending ∧
      (jmarkPos s at_ l u).mem = s.mem ∧
      (jmarkPos s at_ l u).tag.store = s.tag.store ∧
      (jmarkPos s at_ l u).boot.keys = s.boot.keys := by
  induction l generalizing s u with
  | nil => simp [jmarkPos]
  | cons r rs ih => simp [jmarkPos, ih]

@[simp] theorem jeraseOne_kept (s : State) (b : Nat) (ok : Bool) :
    (jeraseOne s b ok).pending = s.pending ∧
      (jeraseOne s b ok).mem = s.mem ∧
      (jeraseOne s b ok).tag.store = s.tag.store ∧
      (jeraseOne s b ok).boot.keys = s.boot.keys := by
  simp [jeraseOne]

@[simp] theorem jforceErase_kept (n : Nat) (s : State) :
    (jforceErase n s).pending = s.pending ∧
      (jforceErase n s).mem = s.mem ∧
      (jforceErase n s).tag.store = s.tag.store ∧
      (jforceErase n s).boot.keys = s.boot.keys := by
  induction n generalizing s with
  | zero => simp [jforceErase]
  | succ n ih =>
    unfold jforceErase
    (repeat' split) <;> simp [ih]

@[simp] theorem jenter_kept (s0 : State) :
    (jenter s0).pending = s0.pending ∧
      (jenter s0).mem = s0.mem ∧
      (jenter s0).tag.store = s0.tag.store ∧
      (jenter s0).boot.keys = s0.boot.keys := by
  unfold jenter; simp only []; (repeat' split) <;> simp_all

@[simp] theorem jprogram_kept (f : Nat) (s : State) (rs : List JRecord) (ok : Bool) :
    (jprogram f s rs ok).pending = s.pending ∧
      (jprogram f s rs ok).mem = s.mem ∧
      (jprogram f s rs ok).tag.store = s.tag.store ∧
      (jprogram f s rs ok).boot.keys = s.boot.keys := by
  induction f generalizing s rs ok with
  | zero => simp [jprogram]
  | succ f ih =>
    unfold jprogram
    dsimp only
    (repeat' split) <;> simp [ih]

@[simp] theorem jprogramFull_kept (s : State) (ok : Bool) :
    (jprogramFull s ok).pending = s.pending ∧
      (jprogramFull s ok).mem = s.mem ∧
      (jprogramFull s ok).tag.store = s.tag.store ∧
      (jprogramFull s ok).boot.keys = s.boot.keys := by
  unfold jprogramFull; split <;> simp

@[simp] theorem jprogramAll_kept (n : Nat) (s : State) :
    (jprogramAll n s).pending = s.pending ∧
      (jprogramAll n s).mem = s.mem ∧
      (jprogramAll n s).tag.store = s.tag.store ∧
      (jprogramAll n s).boot.keys = s.boot.keys := by
  induction n generalizing s with
  | zero => simp [jprogramAll]
  | succ n ih => simp [jprogramAll, ih]

@[simp] theorem jflush_kept (s : State) :
    (jflush s).pending = s.pending ∧
      (jflush s).mem = s.mem ∧
      (jflush s).tag.store = s.tag.store ∧
      (jflush s).boot.keys = s.boot.keys := by
  simp [jflush]

@[simp] theorem jput1_kept (s : State) (r : JRecord) :
    (jput1 s r).pending = s.pending ∧
      (jput1 s r).mem = s.mem ∧
      (jput1 s r).tag.store = s.tag.store ∧
      (jput1 s r).boot.keys = s.boot.keys := by
  simp [jput1]

@[simp] theorem jwriteNow_kept (s : State) (rs : List JRecord) :
    (jwriteNow s rs).pending = s.pending ∧
      (jwriteNow s rs).mem = s.mem ∧
      (jwriteNow s rs).tag.store = s.tag.store ∧
      (jwriteNow s rs).boot.keys = s.boot.keys := by
  simp [jwriteNow]

@[simp] theorem setNbr_kept (s : State) (n : Nat) (x : LnkNbr) :
    (setNbr s n x).pending = s.pending ∧
      (setNbr s n x).mem = s.mem ∧
      (setNbr s n x).tag.store = s.tag.store ∧
      (setNbr s n x).boot.keys = s.boot.keys := by
  simp [setNbr]

@[simp] theorem ckptWrite_kept (s : State) :
    (ckptWrite s).pending = s.pending ∧
      (ckptWrite s).mem = s.mem ∧
      (ckptWrite s).tag.store = s.tag.store ∧
      (ckptWrite s).boot.keys = s.boot.keys := by
  simp [ckptWrite]

@[simp] theorem dutyWrite_kept (s : State) :
    (dutyWrite s).pending = s.pending ∧
      (dutyWrite s).mem = s.mem ∧
      (dutyWrite s).tag.store = s.tag.store ∧
      (dutyWrite s).boot.keys = s.boot.keys := by
  unfold dutyWrite; (repeat' split) <;> simp

@[simp] theorem ckptRun_kept (s : State) :
    (ckptRun s).pending = s.pending ∧
      (ckptRun s).mem = s.mem ∧
      (ckptRun s).tag.store = s.tag.store ∧
      (ckptRun s).boot.keys = s.boot.keys := by
  simp [ckptRun]

@[simp] theorem ckptTurn_kept (s : State) (fc duty : Bool) :
    (ckptTurn s fc duty).pending = s.pending ∧
      (ckptTurn s fc duty).mem = s.mem ∧
      (ckptTurn s fc duty).tag.store = s.tag.store ∧
      (ckptTurn s fc duty).boot.keys = s.boot.keys := by
  simp [ckptTurn]

@[simp] theorem ckptAsk_kept (s : State) :
    (ckptAsk s).pending = s.pending ∧
      (ckptAsk s).mem = s.mem ∧
      (ckptAsk s).tag.store = s.tag.store ∧
      (ckptAsk s).boot.keys = s.boot.keys := by
  simp [ckptAsk]

@[simp] theorem jformat_kept (s : State) :
    (jformat s).pending = s.pending ∧
      (jformat s).mem = s.mem ∧
      (jformat s).tag.store = s.tag.store ∧
      (jformat s).boot.keys = s.boot.keys := by
  simp [jformat]

@[simp] theorem jfromMeta_kept (s : State) (n : Nat) (bs : List Byte) :
    (jfromMeta s n bs).pending = s.pending ∧
      (jfromMeta s n bs).mem = s.mem ∧
      (jfromMeta s n bs).tag.store = s.tag.store ∧
      (jfromMeta s n bs).boot.keys = s.boot.keys := by
  simp [jfromMeta]



@[simp] theorem jrecover_kept (s : State) :
    (jrecover s).pending = s.pending ∧
      (jrecover s).mem = s.mem ∧
      (jrecover s).tag.store = s.tag.store ∧
      (jrecover s).boot.keys = s.boot.keys := by
  unfold jrecover; simp only []; (repeat' split) <;> simp_all

@[simp] theorem jmountFail_kept (s : State) (why : Nat) :
    (jmountFail s why).pending = s.pending ∧
      (jmountFail s why).mem = s.mem ∧
      (jmountFail s why).tag.store = s.tag.store ∧
      (jmountFail s why).boot.keys = s.boot.keys := by
  simp [jmountFail]

@[simp] theorem jmount_kept (s0 : State) (answers mounts : Bool) :
    (jmount s0 answers mounts).pending = s0.pending ∧
      (jmount s0 answers mounts).mem = s0.mem ∧
      (jmount s0 answers mounts).tag.store = s0.tag.store ∧
      (jmount s0 answers mounts).boot.keys = s0.boot.keys := by
  unfold jmount; simp only []; (repeat' split) <;> simp_all

@[simp] theorem jtake_kept (f : Nat) (s : State) (ecc : List Nat) :
    (jtake f s ecc).2.pending = s.pending ∧
      (jtake f s ecc).2.mem = s.mem ∧
      (jtake f s ecc).2.tag.store = s.tag.store ∧
      (jtake f s ecc).2.boot.keys = s.boot.keys := by
  induction f generalizing s ecc with
  | zero => simp [jtake]
  | succ f ih =>
    unfold jtake
    dsimp only
    (repeat' split) <;> simp [ih]

@[simp] theorem jnoteConfig_kept (s : State) (r : JRecord) :
    (jnoteConfig s r).pending = s.pending ∧
      (jnoteConfig s r).mem = s.mem ∧
      (jnoteConfig s r).tag.store = s.tag.store ∧
      (jnoteConfig s r).boot.keys = s.boot.keys := by
  simp [jnoteConfig]

@[simp] theorem jtakeRecord_kept (s : State) (ecc : List Nat) :
    (jtakeRecord s ecc).pending = s.pending ∧
      (jtakeRecord s ecc).mem = s.mem ∧
      (jtakeRecord s ecc).tag.store = s.tag.store ∧
      (jtakeRecord s ecc).boot.keys = s.boot.keys := by
  unfold jtakeRecord; simp only []; (repeat' split) <;> simp_all

@[simp] theorem jrecordStep_kept (s : State) (ecc : List Nat) :
    (jrecordStep s ecc).pending = s.pending ∧
      (jrecordStep s ecc).mem = s.mem ∧
      (jrecordStep s ecc).tag.store = s.tag.store ∧
      (jrecordStep s ecc).boot.keys = s.boot.keys := by
  unfold jrecordStep; (repeat' split) <;> simp_all

@[simp] theorem jcaughtUp_kept (s : State) :
    (jcaughtUp s).pending = s.pending ∧
      (jcaughtUp s).mem = s.mem ∧
      (jcaughtUp s).tag.store = s.tag.store ∧
      (jcaughtUp s).boot.keys = s.boot.keys := by
  simp [jcaughtUp]

theorem jtakeRecords_kept (n : Nat) (s : State) :
    (Nat.repeat (fun t => jtakeRecord (jcaughtUp t) []) n s).pending = s.pending ∧
      (Nat.repeat (fun t => jtakeRecord (jcaughtUp t) []) n s).mem = s.mem ∧
      (Nat.repeat (fun t => jtakeRecord (jcaughtUp t) []) n s).tag.store = s.tag.store ∧
      (Nat.repeat (fun t => jtakeRecord (jcaughtUp t) []) n s).boot.keys = s.boot.keys := by
  induction n generalizing s with
  | zero => simp [Nat.repeat]
  | succ n ih => simp [Nat.repeat, ih]

@[simp] theorem jdrain_kept (s : State) :
    (jdrain s).pending = s.pending ∧
      (jdrain s).mem = s.mem ∧
      (jdrain s).tag.store = s.tag.store ∧
      (jdrain s).boot.keys = s.boot.keys := by
  unfold jdrain
  split <;> simp [jtakeRecords_kept]

@[simp] theorem jflushAll_kept (s : State) (left : Nat) :
    (jflushAll s left).pending = s.pending ∧
      (jflushAll s left).mem = s.mem ∧
      (jflushAll s left).tag.store = s.tag.store ∧
      (jflushAll s left).boot.keys = s.boot.keys := by
  simp [jflushAll]

@[simp] theorem jpageProgram_kept (s : State) (ok : Bool) :
    (jpageProgram s ok).pending = s.pending ∧
      (jpageProgram s ok).mem = s.mem ∧
      (jpageProgram s ok).tag.store = s.tag.store ∧
      (jpageProgram s ok).boot.keys = s.boot.keys := by
  simp [jpageProgram]

@[simp] theorem jcopy_kept (s : State) (rs : List JRecord) :
    (jcopy s rs).pending = s.pending ∧
      (jcopy s rs).mem = s.mem ∧
      (jcopy s rs).tag.store = s.tag.store ∧
      (jcopy s rs).boot.keys = s.boot.keys := by
  simp [jcopy]

@[simp] theorem jerase_kept (s : State) (ok : Bool) :
    (jerase s ok).pending = s.pending ∧
      (jerase s ok).mem = s.mem ∧
      (jerase s ok).tag.store = s.tag.store ∧
      (jerase s ok).boot.keys = s.boot.keys := by
  unfold jerase; (repeat' split) <;> simp

@[simp] theorem jformatRun_kept (s : State) :
    (jformatRun s).pending = s.pending ∧
      (jformatRun s).mem = s.mem ∧
      (jformatRun s).tag.store = s.tag.store ∧
      (jformatRun s).boot.keys = s.boot.keys := by
  simp [jformatRun]

@[simp] theorem jcommand_kept (s : State) (lvl : Level) (key : BitVec 16) (cmd : Nat) :
    (jcommand s lvl key cmd).pending = s.pending ∧
      (jcommand s lvl key cmd).mem = s.mem ∧
      (jcommand s lvl key cmd).tag.store = s.tag.store ∧
      (jcommand s lvl key cmd).boot.keys = s.boot.keys := by
  unfold jcommand; (repeat' split) <;> simp

@[simp] theorem jload_kept (s : State) (correctable : Bool) :
    (jload s correctable).pending = s.pending ∧
      (jload s correctable).mem = s.mem ∧
      (jload s correctable).tag.store = s.tag.store ∧
      (jload s correctable).boot.keys = s.boot.keys := by
  unfold jload; split <;> simp

@[simp] theorem jread_kept (s : State) (lvl : Level) (page : BitVec 21) (correctable : Bool) :
    (jread s lvl page correctable).pending = s.pending ∧
      (jread s lvl page correctable).mem = s.mem ∧
      (jread s lvl page correctable).tag.store = s.tag.store ∧
      (jread s lvl page correctable).boot.keys = s.boot.keys := by
  unfold jread; (repeat' split) <;> simp

end Sys2Proof.Machine
end

