-- ==== Sys2Proof/Laws/KeptRadio.lean ====
section
/-! SUPPORT. What the tag, the link frames, the radio and the air protocol leave alone: the queue, the memory device, the tag store and the
keys, but for those that write them, which keep the canonical form of the store they write. -/

open Sys2Proof

namespace Sys2Proof.Machine

/-! ### Tag -/

@[simp] theorem tge_kept (s : State) (ws : List Word) :
    (tge s ws).pending = s.pending ∧
      (tge s ws).mem = s.mem ∧
      (tge s ws).tag.store = s.tag.store ∧
      (tge s ws).boot.keys = s.boot.keys := by
  simp [tge]

@[simp] theorem tgeLater_kept (s : State) :
    (tgeLater s).pending = s.pending ∧
      (tgeLater s).mem = s.mem ∧
      (tgeLater s).tag.store = s.tag.store ∧
      (tgeLater s).boot.keys = s.boot.keys := by
  simp [tgeLater]

@[simp] theorem tagCount_kept (s : State) (f : Field) (n : Nat) :
    (tagCount s f n).pending = s.pending ∧
      (tagCount s f n).mem = s.mem ∧
      (tagCount s f n).tag.store = s.tag.store ∧
      (tagCount s f n).boot.keys = s.boot.keys := by
  simp [tagCount]

@[simp] theorem tagRaise_kept (s : State) (k : Nat) :
    (tagRaise s k).pending = s.pending ∧
      (tagRaise s k).mem = s.mem ∧
      (tagRaise s k).tag.store = s.tag.store ∧
      (tagRaise s k).boot.keys = s.boot.keys := by
  simp [tagRaise]

@[simp] theorem tagReply_kept (s : State) (bs : List Byte) :
    (tagReply s bs).pending = s.pending ∧
      (tagReply s bs).mem = s.mem ∧
      (tagReply s bs).tag.store = s.tag.store ∧
      (tagReply s bs).boot.keys = s.boot.keys := by
  simp [tagReply]

@[simp] theorem tagSilent_kept (s : State) :
    (tagSilent s).pending = s.pending ∧
      (tagSilent s).mem = s.mem ∧
      (tagSilent s).tag.store = s.tag.store ∧
      (tagSilent s).boot.keys = s.boot.keys := by
  simp [tagSilent]

@[simp] theorem tagError_kept (s : State) (code : Byte) :
    (tagError s code).pending = s.pending ∧
      (tagError s code).mem = s.mem ∧
      (tagError s code).tag.store = s.tag.store ∧
      (tagError s code).boot.keys = s.boot.keys := by
  simp [tagError]

@[simp] theorem tagErrorFree_kept (s : State) :
    (tagErrorFree s).pending = s.pending ∧
      (tagErrorFree s).mem = s.mem ∧
      (tagErrorFree s).tag.store = s.tag.store ∧
      (tagErrorFree s).boot.keys = s.boot.keys := by
  simp [tagErrorFree]

@[simp] theorem leaveAes_kept (s : State) (h : TagHdr) :
    (leaveAes s h).pending = s.pending ∧
      (leaveAes s h).mem = s.mem ∧
      (leaveAes s h).tag.store = s.tag.store ∧
      (leaveAes s h).boot.keys = s.boot.keys := by
  simp [leaveAes]

@[simp] theorem tagRequest_kept_pend (s : State) (h : TagHdr) (eff : State → State) (h_eff : ∀ t, (eff t).pending = t.pending) :
    (tagRequest s h eff).pending = s.pending := by
  simp [h_eff, tagRequest]

@[simp] theorem tagRequest_kept_mem (s : State) (h : TagHdr) (eff : State → State) (h_eff : ∀ t, (eff t).mem = t.mem) :
    (tagRequest s h eff).mem = s.mem := by
  simp [h_eff, tagRequest]

@[simp] theorem tagRequest_kept_store (s : State) (h : TagHdr) (eff : State → State) (h_eff : ∀ t, (eff t).tag.store = t.tag.store) :
    (tagRequest s h eff).tag.store = s.tag.store := by
  simp [h_eff, tagRequest]

@[simp] theorem tagRequest_kept_keys (s : State) (h : TagHdr) (eff : State → State) (h_eff : ∀ t, (eff t).boot.keys = t.boot.keys) :
    (tagRequest s h eff).boot.keys = s.boot.keys := by
  simp [h_eff, tagRequest]

@[simp] theorem tagRequest_wf_nor (s : State) (h : TagHdr) (eff : State → State) (h_eff : ∀ t, bytesWf t.mem.nor = true → bytesWf (eff t).mem.nor = true) (hs : bytesWf s.mem.nor = true) :
    bytesWf (tagRequest s h eff).mem.nor = true := by
  unfold tagRequest; (repeat' split) <;> simp [h_eff, hs]

@[simp] theorem tagRequest_wf_store (s : State) (h : TagHdr) (eff : State → State) (h_eff : ∀ t, bytesWf t.tag.store = true → bytesWf (eff t).tag.store = true) (hs : bytesWf s.tag.store = true) :
    bytesWf (tagRequest s h eff).tag.store = true := by
  unfold tagRequest; (repeat' split) <;> simp [h_eff, hs]

@[simp] theorem tagCustom_kept_pend (s : State) (h : TagHdr) (eff : State → State) (h_eff : ∀ t, (eff t).pending = t.pending) :
    (tagCustom s h eff).pending = s.pending := by
  simp [h_eff, tagCustom]

@[simp] theorem tagCustom_kept_mem (s : State) (h : TagHdr) (eff : State → State) (h_eff : ∀ t, (eff t).mem = t.mem) :
    (tagCustom s h eff).mem = s.mem := by
  simp [h_eff, tagCustom]

@[simp] theorem tagCustom_kept_store (s : State) (h : TagHdr) (eff : State → State) (h_eff : ∀ t, (eff t).tag.store = t.tag.store) :
    (tagCustom s h eff).tag.store = s.tag.store := by
  simp [h_eff, tagCustom]

@[simp] theorem tagCustom_kept_keys (s : State) (h : TagHdr) (eff : State → State) (h_eff : ∀ t, (eff t).boot.keys = t.boot.keys) :
    (tagCustom s h eff).boot.keys = s.boot.keys := by
  simp [h_eff, tagCustom]

@[simp] theorem tagCustom_wf_nor (s : State) (h : TagHdr) (eff : State → State) (h_eff : ∀ t, bytesWf t.mem.nor = true → bytesWf (eff t).mem.nor = true) (hs : bytesWf s.mem.nor = true) :
    bytesWf (tagCustom s h eff).mem.nor = true := by
  unfold tagCustom; (repeat' split) <;> simp_all

@[simp] theorem tagCustom_wf_store (s : State) (h : TagHdr) (eff : State → State) (h_eff : ∀ t, bytesWf t.tag.store = true → bytesWf (eff t).tag.store = true) (hs : bytesWf s.tag.store = true) :
    bytesWf (tagCustom s h eff).tag.store = true := by
  unfold tagCustom; (repeat' split) <;> simp_all

@[simp] theorem tagNvm_kept_pend (s : State) (cmd : Instr) (run : State → State) (h_run : ∀ t, (run t).pending = t.pending) :
    (tagNvm s cmd run).pending = s.pending := by
  simp [h_run, tagNvm]

@[simp] theorem tagNvm_kept_mem (s : State) (cmd : Instr) (run : State → State) (h_run : ∀ t, (run t).mem = t.mem) :
    (tagNvm s cmd run).mem = s.mem := by
  simp [h_run, tagNvm]

@[simp] theorem tagNvm_kept_store (s : State) (cmd : Instr) (run : State → State) (h_run : ∀ t, (run t).tag.store = t.tag.store) :
    (tagNvm s cmd run).tag.store = s.tag.store := by
  simp [h_run, tagNvm]

@[simp] theorem tagNvm_kept_keys (s : State) (cmd : Instr) (run : State → State) (h_run : ∀ t, (run t).boot.keys = t.boot.keys) :
    (tagNvm s cmd run).boot.keys = s.boot.keys := by
  simp [h_run, tagNvm]

@[simp] theorem tagNvm_wf_nor (s : State) (cmd : Instr) (run : State → State) (h_run : ∀ t, bytesWf t.mem.nor = true → bytesWf (run t).mem.nor = true) (hs : bytesWf s.mem.nor = true) :
    bytesWf (tagNvm s cmd run).mem.nor = true := by
  unfold tagNvm; (repeat' split) <;> simp_all

@[simp] theorem tagNvm_wf_store (s : State) (cmd : Instr) (run : State → State) (h_run : ∀ t, bytesWf t.tag.store = true → bytesWf (run t).tag.store = true) (hs : bytesWf s.tag.store = true) :
    bytesWf (tagNvm s cmd run).tag.store = true := by
  unfold tagNvm; (repeat' split) <;> simp_all

@[simp] theorem tagPeek_kept_pend (s : State) (run : State → State) (h_run : ∀ t, (run t).pending = t.pending) :
    (tagPeek s run).pending = s.pending := by
  simp [h_run, tagPeek]

@[simp] theorem tagPeek_kept_mem (s : State) (run : State → State) (h_run : ∀ t, (run t).mem = t.mem) :
    (tagPeek s run).mem = s.mem := by
  simp [h_run, tagPeek]

@[simp] theorem tagPeek_kept_store (s : State) (run : State → State) (h_run : ∀ t, (run t).tag.store = t.tag.store) :
    (tagPeek s run).tag.store = s.tag.store := by
  simp [h_run, tagPeek]

@[simp] theorem tagPeek_kept_keys (s : State) (run : State → State) (h_run : ∀ t, (run t).boot.keys = t.boot.keys) :
    (tagPeek s run).boot.keys = s.boot.keys := by
  simp [h_run, tagPeek]

@[simp] theorem tagPeek_wf_nor (s : State) (run : State → State) (h_run : ∀ t, bytesWf t.mem.nor = true → bytesWf (run t).mem.nor = true) (hs : bytesWf s.mem.nor = true) :
    bytesWf (tagPeek s run).mem.nor = true := by
  unfold tagPeek; simp only []; (repeat' split) <;> simp_all

@[simp] theorem tagPeek_wf_store (s : State) (run : State → State) (h_run : ∀ t, bytesWf t.tag.store = true → bytesWf (run t).tag.store = true) (hs : bytesWf s.tag.store = true) :
    bytesWf (tagPeek s run).tag.store = true := by
  unfold tagPeek; simp only []; (repeat' split) <;> simp_all

@[simp] theorem tagFlint_kept_pend (s : State) (cmd : Instr) (run : State → State) (wait : State → State) (h_run : ∀ t, (run t).pending = t.pending) (h_wait : ∀ t, (wait t).pending = t.pending) :
    (tagFlint s cmd run wait).pending = s.pending := by
  simp [h_run, h_wait, tagFlint]

@[simp] theorem tagFlint_kept_mem (s : State) (cmd : Instr) (run : State → State) (wait : State → State) (h_run : ∀ t, (run t).mem = t.mem) (h_wait : ∀ t, (wait t).mem = t.mem) :
    (tagFlint s cmd run wait).mem = s.mem := by
  simp [h_run, h_wait, tagFlint]

@[simp] theorem tagFlint_kept_store (s : State) (cmd : Instr) (run : State → State) (wait : State → State) (h_run : ∀ t, (run t).tag.store = t.tag.store) (h_wait : ∀ t, (wait t).tag.store = t.tag.store) :
    (tagFlint s cmd run wait).tag.store = s.tag.store := by
  simp [h_run, h_wait, tagFlint]

@[simp] theorem tagFlint_kept_keys (s : State) (cmd : Instr) (run : State → State) (wait : State → State) (h_run : ∀ t, (run t).boot.keys = t.boot.keys) (h_wait : ∀ t, (wait t).boot.keys = t.boot.keys) :
    (tagFlint s cmd run wait).boot.keys = s.boot.keys := by
  simp [h_run, h_wait, tagFlint]

@[simp] theorem tagFlint_wf_nor (s : State) (cmd : Instr) (run : State → State) (wait : State → State) (h_run : ∀ t, bytesWf t.mem.nor = true → bytesWf (run t).mem.nor = true) (h_wait : ∀ t, bytesWf t.mem.nor = true → bytesWf (wait t).mem.nor = true) (hs : bytesWf s.mem.nor = true) :
    bytesWf (tagFlint s cmd run wait).mem.nor = true := by
  unfold tagFlint; (repeat' split) <;> simp_all

@[simp] theorem tagFlint_wf_store (s : State) (cmd : Instr) (run : State → State) (wait : State → State) (h_run : ∀ t, bytesWf t.tag.store = true → bytesWf (run t).tag.store = true) (h_wait : ∀ t, bytesWf t.tag.store = true → bytesWf (wait t).tag.store = true) (hs : bytesWf s.tag.store = true) :
    bytesWf (tagFlint s cmd run wait).tag.store = true := by
  unfold tagFlint; (repeat' split) <;> simp_all

@[simp] theorem bumpGen_kept (s : State) (p : Nat) :
    (bumpGen s p).pending = s.pending ∧
      (bumpGen s p).mem = s.mem ∧
      (bumpGen s p).tag.store = s.tag.store ∧
      (bumpGen s p).boot.keys = s.boot.keys := by
  simp [bumpGen]

@[simp] theorem progFail_kept (s : State) (p : Nat) :
    (progFail s p).pending = s.pending ∧
      (progFail s p).mem = s.mem ∧
      (progFail s p).tag.store = s.tag.store ∧
      (progFail s p).boot.keys = s.boot.keys := by
  simp [progFail]

@[simp] theorem readBlocks_kept (s : State) (h : TagHdr) (first count : Nat) :
    (readBlocks s h first count).pending = s.pending ∧
      (readBlocks s h first count).mem = s.mem ∧
      (readBlocks s h first count).tag.store = s.tag.store ∧
      (readBlocks s h first count).boot.keys = s.boot.keys := by
  simp [readBlocks]

@[simp] theorem fieldProgram_kept (s : State) (first : Nat) (data : List Word) (prog : ProgResult) :
    (fieldProgram s first data prog).pending = s.pending ∧
      (fieldProgram s first data prog).mem = s.mem ∧
      (fieldProgram s first data prog).boot.keys = s.boot.keys := by
  unfold fieldProgram; split <;> simp

@[simp] theorem fieldProgram_wf_store (s : State) (first : Nat) (data : List Word) (prog : ProgResult) (hs : bytesWf s.tag.store = true) :
    bytesWf (fieldProgram s first data prog).tag.store = true := by
  unfold fieldProgram
  dsimp only
  split
  · simp [hs, bytesWf_bytesPut hs]
  · simp [hs]

@[simp] theorem writeBlocks_kept (s : State) (cmd : Instr) (first : Nat) (data : List Word) (prog : ProgResult) :
    (writeBlocks s cmd first data prog).pending = s.pending ∧
      (writeBlocks s cmd first data prog).mem = s.mem ∧
      (writeBlocks s cmd first data prog).boot.keys = s.boot.keys := by
  unfold writeBlocks; (repeat' split) <;> simp

@[simp] theorem writeBlocks_wf_store (s : State) (cmd : Instr) (first : Nat) (data : List Word) (prog : ProgResult) (hs : bytesWf s.tag.store = true) :
    bytesWf (writeBlocks s cmd first data prog).tag.store = true := by
  unfold writeBlocks; simp only []; (repeat' split) <;> simp_all

@[simp] theorem setTagState_kept (s : State) (n : Nat) :
    (setTagState s n).pending = s.pending ∧
      (setTagState s n).mem = s.mem ∧
      (setTagState s n).tag.store = s.tag.store ∧
      (setTagState s n).boot.keys = s.boot.keys := by
  simp [setTagState]

@[simp] theorem tagOpen_kept (s : State) :
    (tagOpen s).pending = s.pending ∧
      (tagOpen s).mem = s.mem ∧
      (tagOpen s).tag.store = s.tag.store ∧
      (tagOpen s).boot.keys = s.boot.keys := by
  simp [tagOpen]

@[simp] theorem tagFieldOn_kept (s : State) (harvOk : Bool) :
    (tagFieldOn s harvOk).pending = s.pending ∧
      (tagFieldOn s harvOk).mem = s.mem ∧
      (tagFieldOn s harvOk).tag.store = s.tag.store ∧
      (tagFieldOn s harvOk).boot.keys = s.boot.keys := by
  simp [tagFieldOn]

@[simp] theorem tagFieldLost_kept (s : State) :
    (tagFieldLost s).pending = s.pending ∧
      (tagFieldLost s).mem = s.mem ∧
      (tagFieldLost s).tag.store = s.tag.store ∧
      (tagFieldLost s).boot.keys = s.boot.keys := by
  simp [tagFieldLost]

@[simp] theorem inventory_kept (s : State) (h : TagHdr) (afi : Option Byte) (maskLen : Byte) (mask : BitVec 64) :
    (inventory s h afi maskLen mask).pending = s.pending ∧
      (inventory s h afi maskLen mask).mem = s.mem ∧
      (inventory s h afi maskLen mask).tag.store = s.tag.store ∧
      (inventory s h afi maskLen mask).boot.keys = s.boot.keys := by
  simp [inventory]

@[simp] theorem select_kept (s : State) (h : TagHdr) :
    (select s h).pending = s.pending ∧
      (select s h).mem = s.mem ∧
      (select s h).tag.store = s.tag.store ∧
      (select s h).boot.keys = s.boot.keys := by
  simp [select]

@[simp] theorem authPacket_kept (s : State) (method key : Nat) (ok : Bool) :
    (authPacket s method key ok).pending = s.pending ∧
      (authPacket s method key ok).mem = s.mem ∧
      (authPacket s method key ok).tag.store = s.tag.store ∧
      (authPacket s method key ok).boot.keys = s.boot.keys := by
  simp [authPacket]

@[simp] theorem authFail_kept (s : State) (method key : Nat) :
    (authFail s method key).pending = s.pending ∧
      (authFail s method key).mem = s.mem ∧
      (authFail s method key).tag.store = s.tag.store ∧
      (authFail s method key).boot.keys = s.boot.keys := by
  simp [authFail]

@[simp] theorem authPass_kept (s : State) (method shown key : Nat) :
    (authPass s method shown key).pending = s.pending ∧
      (authPass s method shown key).mem = s.mem ∧
      (authPass s method shown key).tag.store = s.tag.store ∧
      (authPass s method shown key).boot.keys = s.boot.keys := by
  simp [authPass]

@[simp] theorem password_kept (s : State) (key : Nat) (p : Word) :
    (password s key p).pending = s.pending ∧
      (password s key p).mem = s.mem ∧
      (password s key p).tag.store = s.tag.store ∧
      (password s key p).boot.keys = s.boot.keys := by
  unfold password; (repeat' split) <;> simp

@[simp] theorem aes1Run_kept (s : State) (key : Nat) (rnr : BitVec 64) :
    (aes1Run s key rnr).pending = s.pending ∧
      (aes1Run s key rnr).mem = s.mem ∧
      (aes1Run s key rnr).tag.store = s.tag.store ∧
      (aes1Run s key rnr).boot.keys = s.boot.keys := by
  unfold aes1Run; split <;> simp

@[simp] theorem aes1_kept (s : State) (h : TagHdr) (key : Byte) (rnr : BitVec 64) :
    (aes1 s h key rnr).pending = s.pending ∧
      (aes1 s h key rnr).mem = s.mem ∧
      (aes1 s h key rnr).tag.store = s.tag.store ∧
      (aes1 s h key rnr).boot.keys = s.boot.keys := by
  unfold aes1; (repeat' split) <;> simp

@[simp] theorem aes2Run_kept (s : State) (x : TagAes) (e2 : BitVec 128) :
    (aes2Run s x e2).pending = s.pending ∧
      (aes2Run s x e2).mem = s.mem ∧
      (aes2Run s x e2).tag.store = s.tag.store ∧
      (aes2Run s x e2).boot.keys = s.boot.keys := by
  unfold aes2Run; split <;> simp

@[simp] theorem aes2_kept (s : State) (a : Option TagAes) (h : TagHdr) (e2 : BitVec 128) :
    (aes2 s a h e2).pending = s.pending ∧
      (aes2 s a h e2).mem = s.mem ∧
      (aes2 s a h e2).tag.store = s.tag.store ∧
      (aes2 s a h e2).boot.keys = s.boot.keys := by
  unfold aes2; (repeat' split) <;> simp

@[simp] theorem aes2Turn_kept (s : State) (e2 : BitVec 128) :
    (aes2Turn s e2).pending = s.pending ∧
      (aes2Turn s e2).mem = s.mem ∧
      (aes2Turn s e2).tag.store = s.tag.store ∧
      (aes2Turn s e2).boot.keys = s.boot.keys := by
  unfold aes2Turn; split <;> simp

@[simp] theorem snapshotReply_kept (s : State) :
    (snapshotReply s).pending = s.pending ∧
      (snapshotReply s).mem = s.mem ∧
      (snapshotReply s).tag.store = s.tag.store ∧
      (snapshotReply s).boot.keys = s.boot.keys := by
  unfold snapshotReply; split <;> simp

@[simp] theorem readFaultLog_kept (s : State) (offset count : Nat) :
    (readFaultLog s offset count).pending = s.pending ∧
      (readFaultLog s offset count).mem = s.mem ∧
      (readFaultLog s offset count).tag.store = s.tag.store ∧
      (readFaultLog s offset count).boot.keys = s.boot.keys := by
  simp [readFaultLog]

@[simp] theorem faultLogWrite_kept (s : State) (prog : ProgResult) :
    (faultLogWrite s prog).pending = s.pending ∧
      (faultLogWrite s prog).mem = s.mem ∧
      (faultLogWrite s prog).boot.keys = s.boot.keys := by
  unfold faultLogWrite
  dsimp only
  split
  · simp
  · cases prog
    · simp only [tagCount_kept, bumpGen_kept, and_self]
    · simp only [progFail_kept, and_self]

@[simp] theorem faultLogWrite_wf_store (s : State) (prog : ProgResult) (hs : bytesWf s.tag.store = true) :
    bytesWf (faultLogWrite s prog).tag.store = true := by
  unfold faultLogWrite
  dsimp only
  split
  · exact hs
  · cases prog with
    | failed => simp [hs]
    | good =>
      simp only [tagCount_kept, bumpGen_kept]
      apply bytesWf_bytesPut
      split
      · exact bytesWf_bytesPut hs _ _
      · exact hs

@[simp] theorem logRestart_kept (s : State) :
    (logRestart s).pending = s.pending ∧
      (logRestart s).mem = s.mem ∧
      (logRestart s).tag.store = s.tag.store ∧
      (logRestart s).boot.keys = s.boot.keys := by
  simp [logRestart]

@[simp] theorem hostPacket_kept (s : State) (page : Nat) (write : Bool) (result : Nat) :
    (hostPacket s page write result).pending = s.pending ∧
      (hostPacket s page write result).mem = s.mem ∧
      (hostPacket s page write result).tag.store = s.tag.store ∧
      (hostPacket s page write result).boot.keys = s.boot.keys := by
  simp [hostPacket]

@[simp] theorem tagHostEnd_kept (s : State) (page : Nat) (write : Bool) (result : Nat) :
    (tagHostEnd s page write result).pending = s.pending ∧
      (tagHostEnd s page write result).mem = s.mem ∧
      (tagHostEnd s page write result).tag.store = s.tag.store ∧
      (tagHostEnd s page write result).boot.keys = s.boot.keys := by
  simp [tagHostEnd]

@[simp] theorem tagHostCommand_kept_pend (s : State) (eff : State → State) (h_eff : ∀ t, (eff t).pending = t.pending) :
    (tagHostCommand s eff).pending = s.pending := by
  simp [h_eff, tagHostCommand]

@[simp] theorem tagHostCommand_kept_mem (s : State) (eff : State → State) (h_eff : ∀ t, (eff t).mem = t.mem) :
    (tagHostCommand s eff).mem = s.mem := by
  simp [h_eff, tagHostCommand]

@[simp] theorem tagHostCommand_kept_store (s : State) (eff : State → State) (h_eff : ∀ t, (eff t).tag.store = t.tag.store) :
    (tagHostCommand s eff).tag.store = s.tag.store := by
  simp [h_eff, tagHostCommand]

@[simp] theorem tagHostCommand_kept_keys (s : State) (eff : State → State) (h_eff : ∀ t, (eff t).boot.keys = t.boot.keys) :
    (tagHostCommand s eff).boot.keys = s.boot.keys := by
  simp [h_eff, tagHostCommand]

@[simp] theorem tagHostCommand_wf_nor (s : State) (eff : State → State) (h_eff : ∀ t, bytesWf t.mem.nor = true → bytesWf (eff t).mem.nor = true) (hs : bytesWf s.mem.nor = true) :
    bytesWf (tagHostCommand s eff).mem.nor = true := by
  unfold tagHostCommand; split <;> simp [h_eff, hs]

@[simp] theorem tagHostCommand_wf_store (s : State) (eff : State → State) (h_eff : ∀ t, bytesWf t.tag.store = true → bytesWf (eff t).tag.store = true) (hs : bytesWf s.tag.store = true) :
    bytesWf (tagHostCommand s eff).tag.store = true := by
  unfold tagHostCommand; split <;> simp [h_eff, hs]

@[simp] theorem tagHostTurn_kept_pend (s : State) (cmd : Instr) (run : State → State) (h_run : ∀ t, (run t).pending = t.pending) :
    (tagHostTurn s cmd run).pending = s.pending := by
  simp [h_run, tagHostTurn]

@[simp] theorem tagHostTurn_kept_mem (s : State) (cmd : Instr) (run : State → State) (h_run : ∀ t, (run t).mem = t.mem) :
    (tagHostTurn s cmd run).mem = s.mem := by
  simp [h_run, tagHostTurn]

@[simp] theorem tagHostTurn_kept_store (s : State) (cmd : Instr) (run : State → State) (h_run : ∀ t, (run t).tag.store = t.tag.store) :
    (tagHostTurn s cmd run).tag.store = s.tag.store := by
  simp [h_run, tagHostTurn]

@[simp] theorem tagHostTurn_kept_keys (s : State) (cmd : Instr) (run : State → State) (h_run : ∀ t, (run t).boot.keys = t.boot.keys) :
    (tagHostTurn s cmd run).boot.keys = s.boot.keys := by
  simp [h_run, tagHostTurn]

@[simp] theorem tagHostTurn_wf_nor (s : State) (cmd : Instr) (run : State → State) (h_run : ∀ t, bytesWf t.mem.nor = true → bytesWf (run t).mem.nor = true) (hs : bytesWf s.mem.nor = true) :
    bytesWf (tagHostTurn s cmd run).mem.nor = true := by
  unfold tagHostTurn; (repeat' split) <;> simp_all

@[simp] theorem tagHostTurn_wf_store (s : State) (cmd : Instr) (run : State → State) (h_run : ∀ t, bytesWf t.tag.store = true → bytesWf (run t).tag.store = true) (hs : bytesWf s.tag.store = true) :
    bytesWf (tagHostTurn s cmd run).tag.store = true := by
  unfold tagHostTurn; (repeat' split) <;> simp_all

@[simp] theorem withoutField_kept (s : State) :
    (withoutField s).pending = s.pending ∧
      (withoutField s).mem = s.mem ∧
      (withoutField s).tag.store = s.tag.store ∧
      (withoutField s).boot.keys = s.boot.keys := by
  simp [withoutField]

@[simp] theorem tagReadTurn_kept_pend (s : State) (cmd : Instr) (run : State → State) (h_run : ∀ t, (run t).pending = t.pending) :
    (tagReadTurn s cmd run).pending = s.pending := by
  simp [h_run, tagReadTurn]

@[simp] theorem tagReadTurn_kept_mem (s : State) (cmd : Instr) (run : State → State) (h_run : ∀ t, (run t).mem = t.mem) :
    (tagReadTurn s cmd run).mem = s.mem := by
  simp [h_run, tagReadTurn]

@[simp] theorem tagReadTurn_kept_store (s : State) (cmd : Instr) (run : State → State) (h_run : ∀ t, (run t).tag.store = t.tag.store) :
    (tagReadTurn s cmd run).tag.store = s.tag.store := by
  simp [h_run, tagReadTurn]

@[simp] theorem tagReadTurn_kept_keys (s : State) (cmd : Instr) (run : State → State) (h_run : ∀ t, (run t).boot.keys = t.boot.keys) :
    (tagReadTurn s cmd run).boot.keys = s.boot.keys := by
  simp [h_run, tagReadTurn]

@[simp] theorem tagReadTurn_wf_nor (s : State) (cmd : Instr) (run : State → State) (h_run : ∀ t, bytesWf t.mem.nor = true → bytesWf (run t).mem.nor = true) (hs : bytesWf s.mem.nor = true) :
    bytesWf (tagReadTurn s cmd run).mem.nor = true := by
  unfold tagReadTurn; simp only []; (repeat' split) <;> simp_all

@[simp] theorem tagReadTurn_wf_store (s : State) (cmd : Instr) (run : State → State) (h_run : ∀ t, bytesWf t.tag.store = true → bytesWf (run t).tag.store = true) (hs : bytesWf s.tag.store = true) :
    bytesWf (tagReadTurn s cmd run).tag.store = true := by
  unfold tagReadTurn; simp only []; (repeat' split) <;> simp_all

@[simp] theorem tagHostRead_kept (s : State) (page : Nat) :
    (tagHostRead s page).pending = s.pending ∧
      (tagHostRead s page).mem = s.mem ∧
      (tagHostRead s page).tag.store = s.tag.store ∧
      (tagHostRead s page).boot.keys = s.boot.keys := by
  simp [tagHostRead]

@[simp] theorem tagHostReadCmd_kept (s : State) (lvl : Level) (page : Byte) :
    (tagHostReadCmd s lvl page).pending = s.pending ∧
      (tagHostReadCmd s lvl page).mem = s.mem ∧
      (tagHostReadCmd s lvl page).tag.store = s.tag.store ∧
      (tagHostReadCmd s lvl page).boot.keys = s.boot.keys := by
  simp [tagHostReadCmd]

@[simp] theorem tagCommitPoint_kept (s : State) (prog : ProgResult) :
    (tagCommitPoint s prog).pending = s.pending ∧
      (tagCommitPoint s prog).mem = s.mem ∧
      (tagCommitPoint s prog).boot.keys = s.boot.keys := by
  unfold tagCommitPoint; (repeat' split) <;> simp

@[simp] theorem tagCommitPoint_wf_store (s : State) (prog : ProgResult) (hs : bytesWf s.tag.store = true) :
    bytesWf (tagCommitPoint s prog).tag.store = true := by
  unfold tagCommitPoint
  dsimp only
  (repeat' split) <;> simp [hs, bytesWf_bytesPut hs]

@[simp] theorem tagHostWrite_kept (s : State) (check : Bool) (gen page : Nat) :
    (tagHostWrite s check gen page).pending = s.pending ∧
      (tagHostWrite s check gen page).mem = s.mem ∧
      (tagHostWrite s check gen page).tag.store = s.tag.store ∧
      (tagHostWrite s check gen page).boot.keys = s.boot.keys := by
  simp [tagHostWrite]

@[simp] theorem clrFail_kept (s : State) :
    (clrFail s).pending = s.pending ∧
      (clrFail s).mem = s.mem ∧
      (clrFail s).tag.store = s.tag.store ∧
      (clrFail s).boot.keys = s.boot.keys := by
  simp [clrFail]

@[simp] theorem clrFailCmd_kept (s : State) (lvl : Level) :
    (clrFailCmd s lvl).pending = s.pending ∧
      (clrFailCmd s lvl).mem = s.mem ∧
      (clrFailCmd s lvl).tag.store = s.tag.store ∧
      (clrFailCmd s lvl).boot.keys = s.boot.keys := by
  simp [clrFailCmd]

@[simp] theorem tagHcmd_kept (s : State) (lvl : Level) (v : Word) :
    (tagHcmd s lvl v).pending = s.pending ∧
      (tagHcmd s lvl v).mem = s.mem ∧
      (tagHcmd s lvl v).tag.store = s.tag.store ∧
      (tagHcmd s lvl v).boot.keys = s.boot.keys := by
  unfold tagHcmd; split <;> simp

@[simp] theorem mirrorTag_kept (s : State) :
    (mirrorTag s).pending = s.pending ∧
      (mirrorTag s).mem = s.mem ∧
      (mirrorTag s).tag.store = s.tag.store ∧
      (mirrorTag s).boot.keys = s.boot.keys := by
  simp [mirrorTag]

@[simp] theorem harvFollows_kept (s : State) (oldHarv : Bool) :
    (harvFollows s oldHarv).pending = s.pending ∧
      (harvFollows s oldHarv).mem = s.mem ∧
      (harvFollows s oldHarv).tag.store = s.tag.store ∧
      (harvFollows s oldHarv).boot.keys = s.boot.keys := by
  simp [harvFollows]

@[simp] theorem tagFromMirror_kept (s : State) (oldHarv : Bool) :
    (tagFromMirror s oldHarv).pending = s.pending ∧
      (tagFromMirror s oldHarv).mem = s.mem ∧
      (tagFromMirror s oldHarv).tag.store = s.tag.store ∧
      (tagFromMirror s oldHarv).boot.keys = s.boot.keys := by
  simp [tagFromMirror]

@[simp] theorem tagApplied_kept (s : State) (oldFltpg : Nat) (oldFlten oldHarv inStep6 : Bool) :
    (tagApplied s oldFltpg oldFlten oldHarv inStep6).pending = s.pending ∧
      (tagApplied s oldFltpg oldFlten oldHarv inStep6).mem = s.mem ∧
      (tagApplied s oldFltpg oldFlten oldHarv inStep6).tag.store = s.tag.store ∧
      (tagApplied s oldFltpg oldFlten oldHarv inStep6).boot.keys = s.boot.keys := by
  simp [tagApplied]

/-! ### LinkCore -/

@[simp] theorem setNext_kept (s : State) (v : Nat) :
    (setNext s v).pending = s.pending ∧
      (setNext s v).mem = s.mem ∧
      (setNext s v).tag.store = s.tag.store ∧
      (setNext s v).boot.keys = s.boot.keys := by
  simp [setNext]

@[simp] theorem counterAsk_kept (s : State) :
    (counterAsk s).pending = s.pending ∧
      (counterAsk s).mem = s.mem ∧
      (counterAsk s).tag.store = s.tag.store ∧
      (counterAsk s).boot.keys = s.boot.keys := by
  simp [counterAsk]

@[simp] theorem takeCounter_kept (s : State) :
    (takeCounter s).2.pending = s.pending ∧
      (takeCounter s).2.mem = s.mem ∧
      (takeCounter s).2.tag.store = s.tag.store ∧
      (takeCounter s).2.boot.keys = s.boot.keys := by
  unfold takeCounter; simp only []; (repeat' split) <;> simp_all

@[simp] theorem sbCharge_kept (s : State) (c airUs : Nat) :
    (sbCharge s c airUs).pending = s.pending ∧
      (sbCharge s c airUs).mem = s.mem ∧
      (sbCharge s c airUs).tag.store = s.tag.store ∧
      (sbCharge s c airUs).boot.keys = s.boot.keys := by
  unfold sbCharge; split <;> simp

@[simp] theorem setAct_kept (s : State) (a : LnkAct) :
    (setAct s a).pending = s.pending ∧
      (setAct s a).mem = s.mem ∧
      (setAct s a).tag.store = s.tag.store ∧
      (setAct s a).boot.keys = s.boot.keys := by
  simp [setAct]

@[simp] theorem lnkQuiet_kept (s : State) :
    (lnkQuiet s).pending = s.pending ∧
      (lnkQuiet s).mem = s.mem ∧
      (lnkQuiet s).tag.store = s.tag.store ∧
      (lnkQuiet s).boot.keys = s.boot.keys := by
  simp [lnkQuiet]

@[simp] theorem lst_kept (s : State) (ws : List Word) :
    (lst s ws).pending = s.pending ∧
      (lst s ws).mem = s.mem ∧
      (lst s ws).tag.store = s.tag.store ∧
      (lst s ws).boot.keys = s.boot.keys := by
  simp [lst]

@[simp] theorem slotPacket_kept (s : State) (x : LnkSlot) (cause freeAt : Nat) :
    (slotPacket s x cause freeAt).pending = s.pending ∧
      (slotPacket s x cause freeAt).mem = s.mem ∧
      (slotPacket s x cause freeAt).tag.store = s.tag.store ∧
      (slotPacket s x cause freeAt).boot.keys = s.boot.keys := by
  simp [slotPacket]

@[simp] theorem headEnds_kept (s : State) (result : Nat) :
    (headEnds s result).pending = s.pending ∧
      (headEnds s result).mem = s.mem ∧
      (headEnds s result).tag.store = s.tag.store ∧
      (headEnds s result).boot.keys = s.boot.keys := by
  unfold headEnds; split <;> simp

@[simp] theorem setHead_kept (s : State) (f : LnkTx) :
    (setHead s f).pending = s.pending ∧
      (setHead s f).mem = s.mem ∧
      (setHead s f).tag.store = s.tag.store ∧
      (setHead s f).boot.keys = s.boot.keys := by
  simp [setHead]

@[simp] theorem rxEnd_kept (s : State) (status : Nat) :
    (rxEnd s status).pending = s.pending ∧
      (rxEnd s status).mem = s.mem ∧
      (rxEnd s status).tag.store = s.tag.store ∧
      (rxEnd s status).boot.keys = s.boot.keys := by
  unfold rxEnd; (repeat' split) <;> simp

@[simp] theorem secureHead_kept (s : State) (f : LnkTx) :
    (secureHead s f).2.pending = s.pending ∧
      (secureHead s f).2.mem = s.mem ∧
      (secureHead s f).2.tag.store = s.tag.store ∧
      (secureHead s f).2.boot.keys = s.boot.keys := by
  unfold secureHead; simp only []; (repeat' split) <;> simp_all

theorem secureFlint_kept (s : State) (f : LnkTx) (t : State) (h : secureFlint s f = some t) :
    t.pending = s.pending ∧
      t.mem = s.mem ∧
      t.tag.store = s.tag.store ∧
      t.boot.keys = s.boot.keys := by
  unfold secureFlint at h
  split at h
  · simp only [Option.some.injEq] at h
    subst h
    simp
  · exact flintTake_kept _ _ _ h

@[simp] theorem listenHead_kept (s : State) (f : LnkTx) :
    (listenHead s f).pending = s.pending ∧
      (listenHead s f).mem = s.mem ∧
      (listenHead s f).tag.store = s.tag.store ∧
      (listenHead s f).boot.keys = s.boot.keys := by
  unfold listenHead; simp only []; (repeat' split) <;> simp_all

@[simp] theorem headCounter_kept (s : State) (f : LnkTx) :
    (headCounter s f).1.pending = s.pending ∧
      (headCounter s f).1.mem = s.mem ∧
      (headCounter s f).1.tag.store = s.tag.store ∧
      (headCounter s f).1.boot.keys = s.boot.keys := by
  simp [headCounter]

@[simp] theorem secureOrWait_kept (s : State) (f : LnkTx) :
    (secureOrWait s f).pending = s.pending ∧
      (secureOrWait s f).mem = s.mem ∧
      (secureOrWait s f).tag.store = s.tag.store ∧
      (secureOrWait s f).boot.keys = s.boot.keys := by
  unfold secureOrWait
  split
  · simp
  · split
    · rename_i t ht
      have h := secureFlint_kept _ _ _ ht
      simp [h]
    · simp

@[simp] theorem sendNext_kept (n : Nat) (s : State) :
    (sendNext n s).pending = s.pending ∧
      (sendNext n s).mem = s.mem ∧
      (sendNext n s).tag.store = s.tag.store ∧
      (sendNext n s).boot.keys = s.boot.keys := by
  induction n generalizing s with
  | zero => simp [sendNext]
  | succ n ih =>
    unfold sendNext
    dsimp only
    (repeat' split) <;> simp [ih]

@[simp] theorem sendHead_kept (s : State) :
    (sendHead s).pending = s.pending ∧
      (sendHead s).mem = s.mem ∧
      (sendHead s).tag.store = s.tag.store ∧
      (sendHead s).boot.keys = s.boot.keys := by
  simp [sendHead]

@[simp] theorem securingGo_kept (s : State) :
    (securingGo s).pending = s.pending ∧
      (securingGo s).mem = s.mem ∧
      (securingGo s).tag.store = s.tag.store ∧
      (securingGo s).boot.keys = s.boot.keys := by
  simp [securingGo]

@[simp] theorem attemptFails_kept (s : State) :
    (attemptFails s).pending = s.pending ∧
      (attemptFails s).mem = s.mem ∧
      (attemptFails s).tag.store = s.tag.store ∧
      (attemptFails s).boot.keys = s.boot.keys := by
  unfold attemptFails; split <;> simp

@[simp] theorem attemptBack_kept (s : State) :
    (attemptBack s).pending = s.pending ∧
      (attemptBack s).mem = s.mem ∧
      (attemptBack s).tag.store = s.tag.store ∧
      (attemptBack s).boot.keys = s.boot.keys := by
  unfold attemptBack; split <;> simp

@[simp] theorem linkCut_kept (s : State) (forced : Bool) :
    (linkCut s forced).pending = s.pending ∧
      (linkCut s forced).mem = s.mem ∧
      (linkCut s forced).tag.store = s.tag.store ∧
      (linkCut s forced).boot.keys = s.boot.keys := by
  unfold linkCut; simp only []; (repeat' split) <;> simp_all

/-! ### Radio -/

@[simp] theorem violation_kept (s : State) :
    (violation s).pending = s.pending ∧
      (violation s).mem = s.mem ∧
      (violation s).tag.store = s.tag.store ∧
      (violation s).boot.keys = s.boot.keys := by
  simp [violation]

@[simp] theorem pathAbort_kept (s : State) (p : RfPath) (reason : Nat) :
    (pathAbort s p reason).pending = s.pending ∧
      (pathAbort s p reason).mem = s.mem ∧
      (pathAbort s p reason).tag.store = s.tag.store ∧
      (pathAbort s p reason).boot.keys = s.boot.keys := by
  unfold pathAbort
  split
  · simp
  · rename_i g hg
    cases g.who <;> simp

@[simp] theorem calAbort_kept (s : State) (p : RfPath) :
    (calAbort s p).pending = s.pending ∧
      (calAbort s p).mem = s.mem ∧
      (calAbort s p).tag.store = s.tag.store ∧
      (calAbort s p).boot.keys = s.boot.keys := by
  unfold calAbort; split <;> simp

@[simp] theorem assignRp_kept (s : State) (p : RfPath) (rp : Nat) :
    (assignRp s p rp).pending = s.pending ∧
      (assignRp s p rp).mem = s.mem ∧
      (assignRp s p rp).tag.store = s.tag.store ∧
      (assignRp s p rp).boot.keys = s.boot.keys := by
  simp [assignRp]

@[simp] theorem paRaise_kept (s : State) (port : Nat) :
    (paRaise s port).pending = s.pending ∧
      (paRaise s port).mem = s.mem ∧
      (paRaise s port).tag.store = s.tag.store ∧
      (paRaise s port).boot.keys = s.boot.keys := by
  unfold paRaise; split <;> simp

@[simp] theorem paLower_kept (s : State) (k : Nat) :
    (paLower s k).pending = s.pending ∧
      (paLower s k).mem = s.mem ∧
      (paLower s k).tag.store = s.tag.store ∧
      (paLower s k).boot.keys = s.boot.keys := by
  simp [paLower]

@[simp] theorem loadVectors_kept (s : State) (p : RfPath) :
    (loadVectors s p).pending = s.pending ∧
      (loadVectors s p).mem = s.mem ∧
      (loadVectors s p).tag.store = s.tag.store ∧
      (loadVectors s p).boot.keys = s.boot.keys := by
  simp [loadVectors]

@[simp] theorem enterSettle_kept (s : State) (p : RfPath) (chan : Nat) (use_ : PathUse) (held : Option HeldTx) :
    (enterSettle s p chan use_ held).pending = s.pending ∧
      (enterSettle s p chan use_ held).mem = s.mem ∧
      (enterSettle s p chan use_ held).tag.store = s.tag.store ∧
      (enterSettle s p chan use_ held).boot.keys = s.boot.keys := by
  simp [enterSettle]

@[simp] theorem tune_kept (s : State) (p : RfPath) (chan : Nat) (use_ : PathUse) :
    (tune s p chan use_).pending = s.pending ∧
      (tune s p chan use_).mem = s.mem ∧
      (tune s p chan use_).tag.store = s.tag.store ∧
      (tune s p chan use_).boot.keys = s.boot.keys := by
  unfold tune; (repeat' split) <;> simp

@[simp] theorem setMargin_kept (s : State) (p : RfPath) (n m : Nat) :
    (setMargin s p n m).pending = s.pending ∧
      (setMargin s p n m).mem = s.mem ∧
      (setMargin s p n m).tag.store = s.tag.store ∧
      (setMargin s p n m).boot.keys = s.boot.keys := by
  simp [setMargin]

@[simp] theorem slotDone_kept (s : State) (p : RfPath) (n : Nat) :
    (slotDone s p n).pending = s.pending ∧
      (slotDone s p n).mem = s.mem ∧
      (slotDone s p n).tag.store = s.tag.store ∧
      (slotDone s p n).boot.keys = s.boot.keys := by
  simp [slotDone]

@[simp] theorem autoStore_kept (s : State) (p : RfPath) (chan : Nat) (failed : Option Nat) (margin band cap : Nat) :
    (autoStore s p chan failed margin band cap).1.pending = s.pending ∧
      (autoStore s p chan failed margin band cap).1.mem = s.mem ∧
      (autoStore s p chan failed margin band cap).1.tag.store = s.tag.store ∧
      (autoStore s p chan failed margin band cap).1.boot.keys = s.boot.keys := by
  unfold autoStore; (repeat' split) <;> simp

@[simp] theorem fullCalDone_kept (s : State) (p : RfPath) (chan : Nat) (failed : Option Nat) (margin band cap : Nat) :
    (fullCalDone s p chan failed margin band cap).1.pending = s.pending ∧
      (fullCalDone s p chan failed margin band cap).1.mem = s.mem ∧
      (fullCalDone s p chan failed margin band cap).1.tag.store = s.tag.store ∧
      (fullCalDone s p chan failed margin band cap).1.boot.keys = s.boot.keys := by
  simp [fullCalDone]

@[simp] theorem marginCheck_kept (s : State) (p : RfPath) (slot : Option Nat) (margin : Nat) :
    (marginCheck s p slot margin).pending = s.pending ∧
      (marginCheck s p slot margin).mem = s.mem ∧
      (marginCheck s p slot margin).tag.store = s.tag.store ∧
      (marginCheck s p slot margin).boot.keys = s.boot.keys := by
  unfold marginCheck; split <;> simp

@[simp] theorem lockTimeout_kept (s : State) (p : RfPath) :
    (lockTimeout s p).pending = s.pending ∧
      (lockTimeout s p).mem = s.mem ∧
      (lockTimeout s p).tag.store = s.tag.store ∧
      (lockTimeout s p).boot.keys = s.boot.keys := by
  simp [lockTimeout]

@[simp] theorem enterRxon_kept (s : State) (p : RfPath) :
    (enterRxon s p).pending = s.pending ∧
      (enterRxon s p).mem = s.mem ∧
      (enterRxon s p).tag.store = s.tag.store ∧
      (enterRxon s p).boot.keys = s.boot.keys := by
  simp [enterRxon]

@[simp] theorem lateLock_kept (s : State) (p : RfPath) (m band cap : Nat) :
    (lateLock s p m band cap).pending = s.pending ∧
      (lateLock s p m band cap).mem = s.mem ∧
      (lateLock s p m band cap).tag.store = s.tag.store ∧
      (lateLock s p m band cap).boot.keys = s.boot.keys := by
  unfold lateLock; split <;> simp

@[simp] theorem synthLock_kept (s : State) (p : RfPath) (margin band cap : Nat) :
    (synthLock s p margin band cap).pending = s.pending ∧
      (synthLock s p margin band cap).mem = s.mem ∧
      (synthLock s p margin band cap).tag.store = s.tag.store ∧
      (synthLock s p margin band cap).boot.keys = s.boot.keys := by
  unfold synthLock; simp only []; (repeat' split) <;> simp_all

@[simp] theorem storedFail_kept (s : State) (p : RfPath) :
    (storedFail s p).pending = s.pending ∧
      (storedFail s p).mem = s.mem ∧
      (storedFail s p).tag.store = s.tag.store ∧
      (storedFail s p).boot.keys = s.boot.keys := by
  unfold storedFail; simp only []; (repeat' split) <;> simp_all

@[simp] theorem lockFail_kept (s : State) (p : RfPath) :
    (lockFail s p).pending = s.pending ∧
      (lockFail s p).mem = s.mem ∧
      (lockFail s p).tag.store = s.tag.store ∧
      (lockFail s p).boot.keys = s.boot.keys := by
  unfold lockFail; simp only []; (repeat' split) <;> simp_all

@[simp] theorem txCommand_kept (s : State) (p : RfPath) (use_ : PathUse) (chan port idx : Nat) :
    (txCommand s p use_ chan port idx).pending = s.pending ∧
      (txCommand s p use_ chan port idx).mem = s.mem ∧
      (txCommand s p use_ chan port idx).tag.store = s.tag.store ∧
      (txCommand s p use_ chan port idx).boot.keys = s.boot.keys := by
  unfold txCommand; (repeat' split) <;> simp

@[simp] theorem holdOver_kept (s : State) (p : RfPath) :
    (holdOver s p).pending = s.pending ∧
      (holdOver s p).mem = s.mem ∧
      (holdOver s p).tag.store = s.tag.store ∧
      (holdOver s p).boot.keys = s.boot.keys := by
  simp [holdOver]

@[simp] theorem rampUp_kept (s : State) (p : RfPath) :
    (rampUp s p).pending = s.pending ∧
      (rampUp s p).mem = s.mem ∧
      (rampUp s p).tag.store = s.tag.store ∧
      (rampUp s p).boot.keys = s.boot.keys := by
  unfold rampUp; simp only []; (repeat' split) <;> simp_all

@[simp] theorem hop_kept (s : State) (p : RfPath) (chan : Nat) :
    (hop s p chan).pending = s.pending ∧
      (hop s p chan).mem = s.mem ∧
      (hop s p chan).tag.store = s.tag.store ∧
      (hop s p chan).boot.keys = s.boot.keys := by
  unfold hop; split <;> simp

@[simp] theorem portSwitch_kept (s : State) (p : RfPath) (rp : Nat) :
    (portSwitch s p rp).pending = s.pending ∧
      (portSwitch s p rp).mem = s.mem ∧
      (portSwitch s p rp).tag.store = s.tag.store ∧
      (portSwitch s p rp).boot.keys = s.boot.keys := by
  simp [portSwitch]

@[simp] theorem detectorUpdate_kept (s : State) (p : RfPath) (reading : Nat) :
    (detectorUpdate s p reading).pending = s.pending ∧
      (detectorUpdate s p reading).mem = s.mem ∧
      (detectorUpdate s p reading).tag.store = s.tag.store ∧
      (detectorUpdate s p reading).boot.keys = s.boot.keys := by
  simp [detectorUpdate]

@[simp] theorem overpower_kept (s : State) (p : RfPath) :
    (overpower s p).pending = s.pending ∧
      (overpower s p).mem = s.mem ∧
      (overpower s p).tag.store = s.tag.store ∧
      (overpower s p).boot.keys = s.boot.keys := by
  unfold overpower; simp only []; (repeat' split) <;> simp_all

@[simp] theorem paDisable_kept (s : State) (k : Nat) :
    (paDisable s k).pending = s.pending ∧
      (paDisable s k).mem = s.mem ∧
      (paDisable s k).tag.store = s.tag.store ∧
      (paDisable s k).boot.keys = s.boot.keys := by
  simp [paDisable]

@[simp] theorem rateDone_kept (s : State) (k : Nat) :
    (rateDone s k).pending = s.pending ∧
      (rateDone s k).mem = s.mem ∧
      (rateDone s k).tag.store = s.tag.store ∧
      (rateDone s k).boot.keys = s.boot.keys := by
  simp [rateDone]

@[simp] theorem reportLevel_kept (s : State) (k level : Nat) :
    (reportLevel s k level).pending = s.pending ∧
      (reportLevel s k level).mem = s.mem ∧
      (reportLevel s k level).tag.store = s.tag.store ∧
      (reportLevel s k level).boot.keys = s.boot.keys := by
  simp [reportLevel]

@[simp] theorem reportLevels_kept (s : State) (chains : Nat) (levels : List Byte) :
    (reportLevels s chains levels).pending = s.pending ∧
      (reportLevels s chains levels).mem = s.mem ∧
      (reportLevels s chains levels).tag.store = s.tag.store ∧
      (reportLevels s chains levels).boot.keys = s.boot.keys := by
  simp [reportLevels]

@[simp] theorem agcStep_kept (s : State) (k peak : Nat) :
    (agcStep s k peak).pending = s.pending ∧
      (agcStep s k peak).mem = s.mem ∧
      (agcStep s k peak).tag.store = s.tag.store ∧
      (agcStep s k peak).boot.keys = s.boot.keys := by
  simp [agcStep]

@[simp] theorem clipDown_kept (s : State) (k : Nat) :
    (clipDown s k).pending = s.pending ∧
      (clipDown s k).mem = s.mem ∧
      (clipDown s k).tag.store = s.tag.store ∧
      (clipDown s k).boot.keys = s.boot.keys := by
  simp [clipDown]

@[simp] theorem refineOne_kept (s : State) (p : RfPath) (c : ChainResidual) :
    (refineOne s p c).pending = s.pending ∧
      (refineOne s p c).mem = s.mem ∧
      (refineOne s p c).tag.store = s.tag.store ∧
      (refineOne s p c).boot.keys = s.boot.keys := by
  simp [refineOne]

@[simp] theorem refinementEnd_kept (s : State) (p : RfPath) (meas : List ChainResidual) :
    (refinementEnd s p meas).pending = s.pending ∧
      (refinementEnd s p meas).mem = s.mem ∧
      (refinementEnd s p meas).tag.store = s.tag.store ∧
      (refinementEnd s p meas).boot.keys = s.boot.keys := by
  simp [refinementEnd]

@[simp] theorem cancelCheck_kept (s : State) (k : Nat) (p : RfPath) (sup : Nat) :
    (cancelCheck s k p sup).pending = s.pending ∧
      (cancelCheck s k p sup).mem = s.mem ∧
      (cancelCheck s k p sup).tag.store = s.tag.store ∧
      (cancelCheck s k p sup).boot.keys = s.boot.keys := by
  simp [cancelCheck]

/-! ### Bramble -/

@[simp] theorem brmSend_kept (s : State) (p : RfPath) (c : AirCmd) :
    (brmSend s p c).pending = s.pending ∧
      (brmSend s p c).mem = s.mem ∧
      (brmSend s p c).tag.store = s.tag.store ∧
      (brmSend s p c).boot.keys = s.boot.keys := by
  simp [brmSend]

@[simp] theorem brmQuiet_kept (s : State) :
    (brmQuiet s).pending = s.pending ∧
      (brmQuiet s).mem = s.mem ∧
      (brmQuiet s).tag.store = s.tag.store ∧
      (brmQuiet s).boot.keys = s.boot.keys := by
  simp [brmQuiet]

@[simp] theorem chSkip_kept (s : State) (n : Nat) :
    (chSkip s n).pending = s.pending ∧
      (chSkip s n).mem = s.mem ∧
      (chSkip s n).tag.store = s.tag.store ∧
      (chSkip s n).boot.keys = s.boot.keys := by
  simp [chSkip]

@[simp] theorem takeFirst_kept (s : State) (i : Nat) (e : Entry) (paired : Bool) (p : RfPath) :
    (takeFirst s i e paired p).2.pending = s.pending ∧
      (takeFirst s i e paired p).2.mem = s.mem ∧
      (takeFirst s i e paired p).2.tag.store = s.tag.store ∧
      (takeFirst s i e paired p).2.boot.keys = s.boot.keys := by
  unfold takeFirst; (repeat' split) <;> simp

@[simp] theorem takeNext_kept (s : State) (e : Entry) (r : Round) (p : RfPath) :
    (takeNext s e r p).2.pending = s.pending ∧
      (takeNext s e r p).2.mem = s.mem ∧
      (takeNext s e r p).2.tag.store = s.tag.store ∧
      (takeNext s e r p).2.boot.keys = s.boot.keys := by
  unfold takeNext; simp only []; (repeat' split) <;> simp_all

@[simp] theorem sendCycle_kept (s : State) (p : RfPath) (r : Round) (e : Entry) :
    (sendCycle s p r e).pending = s.pending ∧
      (sendCycle s p r e).mem = s.mem ∧
      (sendCycle s p r e).tag.store = s.tag.store ∧
      (sendCycle s p r e).boot.keys = s.boot.keys := by
  simp [sendCycle]

@[simp] theorem hopRound_kept (s : State) (p : RfPath) (r : Round) (c : Nat) :
    (hopRound s p r c).pending = s.pending ∧
      (hopRound s p r c).mem = s.mem ∧
      (hopRound s p r c).tag.store = s.tag.store ∧
      (hopRound s p r c).boot.keys = s.boot.keys := by
  simp [hopRound]

@[simp] theorem visitRound_kept (s0 : State) (p : RfPath) (r : Round) (e : Entry) (leaf : Nat) (rest : List Nat) :
    (visitRound s0 p r e leaf rest).pending = s0.pending ∧
      (visitRound s0 p r e leaf rest).mem = s0.mem ∧
      (visitRound s0 p r e leaf rest).tag.store = s0.tag.store ∧
      (visitRound s0 p r e leaf rest).boot.keys = s0.boot.keys := by
  simp [visitRound]

@[simp] theorem beginCycle_kept (n : Nat) (s : State) (p : RfPath) :
    (beginCycle n s p).pending = s.pending ∧
      (beginCycle n s p).mem = s.mem ∧
      (beginCycle n s p).tag.store = s.tag.store ∧
      (beginCycle n s p).boot.keys = s.boot.keys := by
  induction n generalizing s with
  | zero => simp [beginCycle]
  | succ n ih =>
    unfold beginCycle
    dsimp only
    (repeat' split) <;> simp [ih]

@[simp] theorem hopNow_kept (s : State) (p : RfPath) (stay : Bool) :
    (hopNow s p stay).1.pending = s.pending ∧
      (hopNow s p stay).1.mem = s.mem ∧
      (hopNow s p stay).1.tag.store = s.tag.store ∧
      (hopNow s p stay).1.boot.keys = s.boot.keys := by
  unfold hopNow
  dsimp only
  (repeat' split) <;> simp

@[simp] theorem cycleStart_kept (s : State) (p : RfPath) :
    (cycleStart s p).pending = s.pending ∧
      (cycleStart s p).mem = s.mem ∧
      (cycleStart s p).tag.store = s.tag.store ∧
      (cycleStart s p).boot.keys = s.boot.keys := by
  unfold cycleStart
  dsimp only
  (repeat' split) <;> simp

@[simp] theorem visitEnd_kept (s : State) (p : RfPath) :
    (visitEnd s p).pending = s.pending ∧
      (visitEnd s p).mem = s.mem ∧
      (visitEnd s p).tag.store = s.tag.store ∧
      (visitEnd s p).boot.keys = s.boot.keys := by
  unfold visitEnd; (repeat' split) <;> simp

@[simp] theorem stopWork_kept (s : State) (p : RfPath) (why : BrmStop) :
    (stopWork s p why).pending = s.pending ∧
      (stopWork s p why).mem = s.mem ∧
      (stopWork s p why).tag.store = s.tag.store ∧
      (stopWork s p why).boot.keys = s.boot.keys := by
  unfold stopWork; split <;> simp

@[simp] theorem nextSlot_kept (s : State) (p : RfPath) (r : Round) (e : Entry) :
    (nextSlot s p r e).pending = s.pending ∧
      (nextSlot s p r e).mem = s.mem ∧
      (nextSlot s p r e).tag.store = s.tag.store ∧
      (nextSlot s p r e).boot.keys = s.boot.keys := by
  unfold nextSlot; simp only []; (repeat' split) <;> simp_all

@[simp] theorem countSlot_kept (s : State) (e : Entry) (r : Round) (o : SlotOutcome) :
    (countSlot s e r o).1.pending = s.pending ∧
      (countSlot s e r o).1.mem = s.mem ∧
      (countSlot s e r o).1.tag.store = s.tag.store ∧
      (countSlot s e r o).1.boot.keys = s.boot.keys := by
  unfold countSlot; split <;> simp

@[simp] theorem slotEnd_kept (s : State) (p : RfPath) (o : SlotOutcome) :
    (slotEnd s p o).pending = s.pending ∧
      (slotEnd s p o).mem = s.mem ∧
      (slotEnd s p o).tag.store = s.tag.store ∧
      (slotEnd s p o).boot.keys = s.boot.keys := by
  unfold slotEnd; split <;> simp

@[simp] theorem sendAck_kept (s : State) (p : RfPath) (r : Round) (rn : BitVec 16) (captured : Bool) (tries : Nat) :
    (sendAck s p r rn captured tries).pending = s.pending ∧
      (sendAck s p r rn captured tries).mem = s.mem ∧
      (sendAck s p r rn captured tries).tag.store = s.tag.store ∧
      (sendAck s p r rn captured tries).boot.keys = s.boot.keys := by
  simp [sendAck]

@[simp] theorem rn16Reply_kept (s0 : State) (p : RfPath) (l : List Rn16Reply) :
    (rn16Reply s0 p l).pending = s0.pending ∧
      (rn16Reply s0 p l).mem = s0.mem ∧
      (rn16Reply s0 p l).tag.store = s0.tag.store ∧
      (rn16Reply s0 p l).boot.keys = s0.boot.keys := by
  unfold rn16Reply; simp only []; (repeat' split) <;> simp_all

@[simp] theorem sendStep_kept (s : State) (p : RfPath) (r : Round) (g n tries : Nat) :
    (sendStep s p r g n tries).pending = s.pending ∧
      (sendStep s p r g n tries).mem = s.mem ∧
      (sendStep s p r g n tries).tag.store = s.tag.store ∧
      (sendStep s p r g n tries).boot.keys = s.boot.keys := by
  simp [sendStep]

@[simp] theorem programDone_kept (s : State) (p : RfPath) :
    (programDone s p).pending = s.pending ∧
      (programDone s p).mem = s.mem ∧
      (programDone s p).tag.store = s.tag.store ∧
      (programDone s p).boot.keys = s.boot.keys := by
  unfold programDone; simp only []; (repeat' split) <;> simp_all

@[simp] theorem stepStart_kept (s : State) (p : RfPath) (g n : Nat) :
    (stepStart s p g n).pending = s.pending ∧
      (stepStart s p g n).mem = s.mem ∧
      (stepStart s p g n).tag.store = s.tag.store ∧
      (stepStart s p g n).boot.keys = s.boot.keys := by
  unfold stepStart; simp only []; (repeat' split) <;> simp_all

@[simp] theorem stepResult_kept (s : State) (p : RfPath) (n res tagErr : Nat) (data : List Word) :
    (stepResult s p n res tagErr data).pending = s.pending ∧
      (stepResult s p n res tagErr data).mem = s.mem ∧
      (stepResult s p n res tagErr data).tag.store = s.tag.store ∧
      (stepResult s p n res tagErr data).boot.keys = s.boot.keys := by
  unfold stepResult; (repeat' split) <;> simp

@[simp] theorem stepReply_kept (s : State) (p : RfPath) (reply : StepReply) :
    (stepReply s p reply).pending = s.pending ∧
      (stepReply s p reply).mem = s.mem ∧
      (stepReply s p reply).tag.store = s.tag.store ∧
      (stepReply s p reply).boot.keys = s.boot.keys := by
  unfold stepReply; (repeat' split) <;> simp

@[simp] theorem stepTimeout_kept (s : State) (p : RfPath) (badCrc : Bool) :
    (stepTimeout s p badCrc).pending = s.pending ∧
      (stepTimeout s p badCrc).mem = s.mem ∧
      (stepTimeout s p badCrc).tag.store = s.tag.store ∧
      (stepTimeout s p badCrc).boot.keys = s.boot.keys := by
  unfold stepTimeout; (repeat' split) <;> simp

theorem authFlint_kept (s : State) (who : Consumer) (t : State) (h : authFlint s who = some t) :
    t.pending = s.pending ∧
      t.mem = s.mem ∧
      t.tag.store = s.tag.store ∧
      t.boot.keys = s.boot.keys := by
  unfold authFlint at h
  (repeat' split at h) <;>
    first
      | exact flintTake_kept _ _ _ h
      | (simp only [Option.some.injEq, reduceCtorEq] at h <;> subst h <;> simp)

@[simp] theorem authGrant_kept (s : State) (p : RfPath) (response : BitVec 128) :
    (authGrant s p response).pending = s.pending ∧
      (authGrant s p response).mem = s.mem ∧
      (authGrant s p response).tag.store = s.tag.store ∧
      (authGrant s p response).boot.keys = s.boot.keys := by
  unfold authGrant
  split
  · simp
  · split
    · split
      · simp
      · rename_i t ht
        have h := authFlint_kept _ _ _ ht
        dsimp only
        split <;> simp [h]
    · simp

@[simp] theorem epcMissing_kept (s : State) (p : RfPath) :
    (epcMissing s p).pending = s.pending ∧
      (epcMissing s p).mem = s.mem ∧
      (epcMissing s p).tag.store = s.tag.store ∧
      (epcMissing s p).boot.keys = s.boot.keys := by
  unfold epcMissing; split <;> simp

@[simp] theorem readToTable_kept (s : State) (r : Round) (x : EpcReply) :
    (readToTable s r x).pending = s.pending ∧
      (readToTable s r x).mem = s.mem ∧
      (readToTable s r x).tag.store = s.tag.store ∧
      (readToTable s r x).boot.keys = s.boot.keys := by
  simp [readToTable]

@[simp] theorem epcHeard_kept (s : State) (p : RfPath) (r : Round) (x : EpcReply) :
    (epcReply.epcHeard s p r x).pending = s.pending ∧
      (epcReply.epcHeard s p r x).mem = s.mem ∧
      (epcReply.epcHeard s p r x).tag.store = s.tag.store ∧
      (epcReply.epcHeard s p r x).boot.keys = s.boot.keys := by
  unfold epcReply.epcHeard
  dsimp only
  (repeat' split) <;> simp

@[simp] theorem epcReply_kept (s : State) (p : RfPath) (x : EpcReply) :
    (epcReply s p x).pending = s.pending ∧
      (epcReply s p x).mem = s.mem ∧
      (epcReply s p x).tag.store = s.tag.store ∧
      (epcReply s p x).boot.keys = s.boot.keys := by
  unfold epcReply
  split
  · simp
  · dsimp only
    split <;> simp

@[simp] theorem hopInterval_kept (s : State) (p : RfPath) :
    (hopInterval s p).pending = s.pending ∧
      (hopInterval s p).mem = s.mem ∧
      (hopInterval s p).tag.store = s.tag.store ∧
      (hopInterval s p).boot.keys = s.boot.keys := by
  unfold hopInterval; split <;> simp

@[simp] theorem channelDeadline_kept (s : State) (p : RfPath) :
    (channelDeadline s p).pending = s.pending ∧
      (channelDeadline s p).mem = s.mem ∧
      (channelDeadline s p).tag.store = s.tag.store ∧
      (channelDeadline s p).boot.keys = s.boot.keys := by
  unfold channelDeadline; split <;> simp

@[simp] theorem roundOpen_kept (s : State) (p : RfPath) (r : Round) (ls : List Nat) :
    (roundOpen s p r ls).pending = s.pending ∧
      (roundOpen s p r ls).mem = s.mem ∧
      (roundOpen s p r ls).tag.store = s.tag.store ∧
      (roundOpen s p r ls).boot.keys = s.boot.keys := by
  unfold roundOpen
  dsimp only
  (repeat' split) <;> simp

@[simp] theorem roundStart_kept (s : State) (i : Nat) (p : RfPath) (paired : Bool) :
    (roundStart s i p paired).pending = s.pending ∧
      (roundStart s i p paired).mem = s.mem ∧
      (roundStart s i p paired).tag.store = s.tag.store ∧
      (roundStart s i p paired).boot.keys = s.boot.keys := by
  unfold roundStart; split <;> simp

@[simp] theorem immStart_kept (s : State) (p : RfPath) :
    (immStart s p).pending = s.pending ∧
      (immStart s p).mem = s.mem ∧
      (immStart s p).tag.store = s.tag.store ∧
      (immStart s p).boot.keys = s.boot.keys := by
  unfold immStart; (repeat' split) <;> simp

@[simp] theorem immRefuse_kept (s : State) (reason : Nat) :
    (immRefuse s reason).pending = s.pending ∧
      (immRefuse s reason).mem = s.mem ∧
      (immRefuse s reason).tag.store = s.tag.store ∧
      (immRefuse s reason).boot.keys = s.boot.keys := by
  simp [immRefuse]

@[simp] theorem immPost_kept (s : State) :
    (immPost s).pending = s.pending ∧
      (immPost s).mem = s.mem ∧
      (immPost s).tag.store = s.tag.store ∧
      (immPost s).boot.keys = s.boot.keys := by
  unfold immPost; (repeat' split) <;> simp

@[simp] theorem immGo_kept (s : State) (v : Word) :
    (immGo s v).pending = s.pending ∧
      (immGo s v).mem = s.mem ∧
      (immGo s v).tag.store = s.tag.store ∧
      (immGo s v).boot.keys = s.boot.keys := by
  unfold immGo; simp only []; (repeat' split) <;> simp_all

@[simp] theorem immWrite_kept (s : State) (v : Word) :
    (immWrite s v).pending = s.pending ∧
      (immWrite s v).mem = s.mem ∧
      (immWrite s v).tag.store = s.tag.store ∧
      (immWrite s v).boot.keys = s.boot.keys := by
  simp [immWrite]

end Sys2Proof.Machine
end

