-- ==== Sys2Proof/Laws/KeptLink.lean ====
section
/-! SUPPORT. What the memory port, the slate entries, the link, the timers and the interference unit leave alone: the queue, the memory device, the tag store and the
keys, but for those that write them, which keep the canonical form of the store they write. -/

open Sys2Proof

namespace Sys2Proof.Machine

/-! ### MemPort -/

@[simp] theorem norStore_kept (s : State) (a : Nat) (bs : List Byte) :
    (norStore s a bs).pending = s.pending ∧
      (norStore s a bs).tag.store = s.tag.store ∧
      (norStore s a bs).boot.keys = s.boot.keys := by
  simp [norStore]

@[simp] theorem norStore_wf_mem (s : State) (a : Nat) (bs : List Byte) (hs : bytesWf s.mem.nor = true) :
    bytesWf (norStore s a bs).mem.nor = true := by
  exact bytesWf_bytesPut hs _ _

@[simp] theorem norErase_kept (s : State) (a n : Nat) :
    (norErase s a n).pending = s.pending ∧
      (norErase s a n).tag.store = s.tag.store ∧
      (norErase s a n).boot.keys = s.boot.keys := by
  simp [norErase]

@[simp] theorem norErase_wf_mem (s : State) (a n : Nat) (hs : bytesWf s.mem.nor = true) :
    bytesWf (norErase s a n).mem.nor = true := by
  exact bytesWf_bytesErase hs _ _

@[simp] theorem mspResult_kept (s : State) (r : Nat) :
    (mspResult s r).pending = s.pending ∧
      (mspResult s r).mem = s.mem ∧
      (mspResult s r).tag.store = s.tag.store ∧
      (mspResult s r).boot.keys = s.boot.keys := by
  simp [mspResult]

@[simp] theorem mspCommand_kept_pend (s : State) (refused : Bool) (cmd : Instr) (run : State → State) (h_run : ∀ t, (run t).pending = t.pending) :
    (mspCommand s refused cmd run).pending = s.pending := by
  simp [h_run, mspCommand]

@[simp] theorem mspCommand_kept_mem (s : State) (refused : Bool) (cmd : Instr) (run : State → State) (h_run : ∀ t, (run t).mem = t.mem) :
    (mspCommand s refused cmd run).mem = s.mem := by
  simp [h_run, mspCommand]

@[simp] theorem mspCommand_kept_store (s : State) (refused : Bool) (cmd : Instr) (run : State → State) (h_run : ∀ t, (run t).tag.store = t.tag.store) :
    (mspCommand s refused cmd run).tag.store = s.tag.store := by
  simp [h_run, mspCommand]

@[simp] theorem mspCommand_kept_keys (s : State) (refused : Bool) (cmd : Instr) (run : State → State) (h_run : ∀ t, (run t).boot.keys = t.boot.keys) :
    (mspCommand s refused cmd run).boot.keys = s.boot.keys := by
  simp [h_run, mspCommand]

@[simp] theorem mspCommand_wf_nor (s : State) (refused : Bool) (cmd : Instr) (run : State → State) (h_run : ∀ t, bytesWf t.mem.nor = true → bytesWf (run t).mem.nor = true) (hs : bytesWf s.mem.nor = true) :
    bytesWf (mspCommand s refused cmd run).mem.nor = true := by
  unfold mspCommand; (repeat' split) <;> simp_all

@[simp] theorem mspCommand_wf_store (s : State) (refused : Bool) (cmd : Instr) (run : State → State) (h_run : ∀ t, bytesWf t.tag.store = true → bytesWf (run t).tag.store = true) (hs : bytesWf s.tag.store = true) :
    bytesWf (mspCommand s refused cmd run).tag.store = true := by
  unfold mspCommand; (repeat' split) <;> simp_all

@[simp] theorem mspDone_kept (s : State) (r : Nat) :
    (mspDone s r).pending = s.pending ∧
      (mspDone s r).mem = s.mem ∧
      (mspDone s r).tag.store = s.tag.store ∧
      (mspDone s r).boot.keys = s.boot.keys := by
  simp [mspDone]

@[simp] theorem mspRead_kept (s : State) (a : Nat) :
    (mspRead s a).pending = s.pending ∧
      (mspRead s a).mem = s.mem ∧
      (mspRead s a).tag.store = s.tag.store ∧
      (mspRead s a).boot.keys = s.boot.keys := by
  simp [mspRead]

@[simp] theorem mspProgram_kept (s : State) (a : Nat) (verifyOk : Bool) :
    (mspProgram s a verifyOk).pending = s.pending ∧
      (mspProgram s a verifyOk).tag.store = s.tag.store ∧
      (mspProgram s a verifyOk).boot.keys = s.boot.keys := by
  simp [mspProgram]

@[simp] theorem mspProgram_wf_mem (s : State) (a : Nat) (verifyOk : Bool) (hs : bytesWf s.mem.nor = true) :
    bytesWf (mspProgram s a verifyOk).mem.nor = true := by
  unfold mspProgram
  dsimp only
  (repeat' split) <;> simp [hs, bytesWf_norProgram hs]

@[simp] theorem mspErase_kept (s : State) (a : Nat) :
    (mspErase s a).pending = s.pending ∧
      (mspErase s a).tag.store = s.tag.store ∧
      (mspErase s a).boot.keys = s.boot.keys := by
  simp [mspErase]

@[simp] theorem mspErase_wf_mem (s : State) (a : Nat) (hs : bytesWf s.mem.nor = true) :
    bytesWf (mspErase s a).mem.nor = true := by
  unfold mspErase; (repeat' split) <;> simp_all

@[simp] theorem mspReadCmd_kept (s : State) (lvl : Level) (addr : BitVec 24) :
    (mspReadCmd s lvl addr).pending = s.pending ∧
      (mspReadCmd s lvl addr).mem = s.mem ∧
      (mspReadCmd s lvl addr).tag.store = s.tag.store ∧
      (mspReadCmd s lvl addr).boot.keys = s.boot.keys := by
  simp [mspReadCmd]

@[simp] theorem mspProgramCmd_kept (s : State) (lvl : Level) (addr : BitVec 24) (verifyOk : Bool) :
    (mspProgramCmd s lvl addr verifyOk).pending = s.pending ∧
      (mspProgramCmd s lvl addr verifyOk).tag.store = s.tag.store ∧
      (mspProgramCmd s lvl addr verifyOk).boot.keys = s.boot.keys := by
  simp [mspProgramCmd]

@[simp] theorem mspProgramCmd_wf_mem (s : State) (lvl : Level) (addr : BitVec 24) (verifyOk : Bool) (hs : bytesWf s.mem.nor = true) :
    bytesWf (mspProgramCmd s lvl addr verifyOk).mem.nor = true := by
  unfold mspProgramCmd; (repeat' split) <;> simp_all

@[simp] theorem mspEraseCmd_kept (s : State) (lvl : Level) (addr : BitVec 24) :
    (mspEraseCmd s lvl addr).pending = s.pending ∧
      (mspEraseCmd s lvl addr).tag.store = s.tag.store ∧
      (mspEraseCmd s lvl addr).boot.keys = s.boot.keys := by
  simp [mspEraseCmd]

@[simp] theorem mspEraseCmd_wf_mem (s : State) (lvl : Level) (addr : BitVec 24) (hs : bytesWf s.mem.nor = true) :
    bytesWf (mspEraseCmd s lvl addr).mem.nor = true := by
  unfold mspEraseCmd; (repeat' split) <;> simp_all

/-! ### Slate -/

@[simp] theorem sectorProgram_kept (s : State) (i : Nat) (bs : List Byte) :
    (sectorProgram s i bs).pending = s.pending ∧
      (sectorProgram s i bs).tag.store = s.tag.store ∧
      (sectorProgram s i bs).boot.keys = s.boot.keys := by
  simp [sectorProgram]

@[simp] theorem sectorProgram_wf_mem (s : State) (i : Nat) (bs : List Byte) (hs : bytesWf s.mem.nor = true) :
    bytesWf (sectorProgram s i bs).mem.nor = true := by
  simp [hs, sectorProgram]

@[simp] theorem tearStep_kept (contents : List (List Byte)) (p : List Byte × State) (k : Nat) :
    (tearStep contents p k).2.pending = p.2.pending ∧
      (tearStep contents p k).2.mem = p.2.mem ∧
      (tearStep contents p k).2.tag.store = p.2.tag.store ∧
      (tearStep contents p k).2.boot.keys = p.2.boot.keys := by
  simp [tearStep]

theorem tearSteps_kept (s : State) (contents : List (List Byte)) :
    let t := ((List.range 64).foldl (tearStep contents) ([], s)).2
    t.pending = s.pending ∧
      t.mem = s.mem ∧
      t.tag.store = s.tag.store ∧
      t.boot.keys = s.boot.keys :=
  foldl_keeps_snd (fun t => t.pending = s.pending ∧ t.mem = s.mem ∧ t.tag.store = s.tag.store ∧ t.boot.keys = s.boot.keys)
    (tearStep contents) (fun p k h => by simpa using h) _ ([], s) (by simp)

@[simp] theorem sectorTorn_kept (s : State) (a : Nat) (contents : List (List Byte)) :
    (sectorTorn s a contents).pending = s.pending ∧
      (sectorTorn s a contents).tag.store = s.tag.store ∧
      (sectorTorn s a contents).boot.keys = s.boot.keys := by
  have h := tearSteps_kept s contents
  simp only [sectorTorn, norStore_kept]
  exact ⟨h.1, h.2.2.1, h.2.2.2⟩

@[simp] theorem sectorTorn_wf_mem (s : State) (a : Nat) (contents : List (List Byte)) (hs : bytesWf s.mem.nor = true) :
    bytesWf (sectorTorn s a contents).mem.nor = true := by
  apply norStore_wf_mem
  rw [(tearSteps_kept s contents).2.1]
  exact hs

@[simp] theorem entryApply_kept (s : State) (i : Nat) (e : Entry) :
    (entryApply s i e).pending = s.pending ∧
      (entryApply s i e).mem = s.mem ∧
      (entryApply s i e).tag.store = s.tag.store ∧
      (entryApply s i e).boot.keys = s.boot.keys := by
  unfold entryApply; split <;> simp

@[simp] theorem slateScan_kept (s : State) :
    (slateScan s).pending = s.pending ∧
      (slateScan s).mem = s.mem ∧
      (slateScan s).tag.store = s.tag.store ∧
      (slateScan s).boot.keys = s.boot.keys := by
  simp [slateScan]

@[simp] theorem sltResult_kept (s : State) (r : Nat) :
    (sltResult s r).pending = s.pending ∧
      (sltResult s r).mem = s.mem ∧
      (sltResult s r).tag.store = s.tag.store ∧
      (sltResult s r).boot.keys = s.boot.keys := by
  simp [sltResult]

@[simp] theorem sltReject_kept (s : State) (i reason : Nat) :
    (sltReject s i reason).pending = s.pending ∧
      (sltReject s i reason).mem = s.mem ∧
      (sltReject s i reason).tag.store = s.tag.store ∧
      (sltReject s i reason).boot.keys = s.boot.keys := by
  simp [sltReject]

@[simp] theorem sltRefuse_kept (s : State) (i reason : Nat) :
    (sltRefuse s i reason).pending = s.pending ∧
      (sltRefuse s i reason).mem = s.mem ∧
      (sltRefuse s i reason).tag.store = s.tag.store ∧
      (sltRefuse s i reason).boot.keys = s.boot.keys := by
  simp [sltRefuse]

@[simp] theorem sltConfig_kept (s : State) (i : Nat) (e : Entry) :
    (sltConfig s i e).pending = s.pending ∧
      (sltConfig s i e).mem = s.mem ∧
      (sltConfig s i e).tag.store = s.tag.store ∧
      (sltConfig s i e).boot.keys = s.boot.keys := by
  simp [sltConfig]

@[simp] theorem sltForce_kept (s : State) (i : Nat) (e : Entry) :
    (sltForce s i e).pending = s.pending ∧
      (sltForce s i e).mem = s.mem ∧
      (sltForce s i e).tag.store = s.tag.store ∧
      (sltForce s i e).boot.keys = s.boot.keys := by
  simp [sltForce]

@[simp] theorem sltCommand_kept_pend (s : State) (i : Nat) (run : State → State) (h_run : ∀ t, (run t).pending = t.pending) :
    (sltCommand s i run).pending = s.pending := by
  simp [h_run, sltCommand]

@[simp] theorem sltCommand_kept_mem (s : State) (i : Nat) (run : State → State) (h_run : ∀ t, (run t).mem = t.mem) :
    (sltCommand s i run).mem = s.mem := by
  simp [h_run, sltCommand]

@[simp] theorem sltCommand_kept_store (s : State) (i : Nat) (run : State → State) (h_run : ∀ t, (run t).tag.store = t.tag.store) :
    (sltCommand s i run).tag.store = s.tag.store := by
  simp [h_run, sltCommand]

@[simp] theorem sltCommand_kept_keys (s : State) (i : Nat) (run : State → State) (h_run : ∀ t, (run t).boot.keys = t.boot.keys) :
    (sltCommand s i run).boot.keys = s.boot.keys := by
  simp [h_run, sltCommand]

@[simp] theorem sltCommand_wf_nor (s : State) (i : Nat) (run : State → State) (h_run : ∀ t, bytesWf t.mem.nor = true → bytesWf (run t).mem.nor = true) (hs : bytesWf s.mem.nor = true) :
    bytesWf (sltCommand s i run).mem.nor = true := by
  unfold sltCommand; split <;> simp [h_run, hs]

@[simp] theorem sltCommand_wf_store (s : State) (i : Nat) (run : State → State) (h_run : ∀ t, bytesWf t.tag.store = true → bytesWf (run t).tag.store = true) (hs : bytesWf s.tag.store = true) :
    bytesWf (sltCommand s i run).tag.store = true := by
  unfold sltCommand; split <;> simp [h_run, hs]

@[simp] theorem sltStart_kept (s : State) (job : SltJob) (i : Nat) (e : Entry) :
    (sltStart s job i e).pending = s.pending ∧
      (sltStart s job i e).mem = s.mem ∧
      (sltStart s job i e).tag.store = s.tag.store ∧
      (sltStart s job i e).boot.keys = s.boot.keys := by
  simp [sltStart]

@[simp] theorem slateWrite_kept (s : State) (i : Nat) :
    (slateWrite s i).pending = s.pending ∧
      (slateWrite s i).mem = s.mem ∧
      (slateWrite s i).tag.store = s.tag.store ∧
      (slateWrite s i).boot.keys = s.boot.keys := by
  simp [slateWrite]

@[simp] theorem cacheFill_kept (s : State) (i : Nat) :
    (cacheFill s i).pending = s.pending ∧
      (cacheFill s i).mem = s.mem ∧
      (cacheFill s i).tag.store = s.tag.store ∧
      (cacheFill s i).boot.keys = s.boot.keys := by
  unfold cacheFill; simp only []; (repeat' split) <;> simp_all

@[simp] theorem slateCopy_kept (s : State) (i : Nat) :
    (slateCopy s i).pending = s.pending ∧
      (slateCopy s i).mem = s.mem ∧
      (slateCopy s i).tag.store = s.tag.store ∧
      (slateCopy s i).boot.keys = s.boot.keys := by
  simp [slateCopy]

@[simp] theorem slateReadFill_kept (s : State) (i : Nat) :
    (slateReadFill s i).pending = s.pending ∧
      (slateReadFill s i).mem = s.mem ∧
      (slateReadFill s i).tag.store = s.tag.store ∧
      (slateReadFill s i).boot.keys = s.boot.keys := by
  simp [slateReadFill]

@[simp] theorem slateRead_kept (s : State) (lvl : Level) (i : Fin 1024) :
    (slateRead s lvl i).pending = s.pending ∧
      (slateRead s lvl i).mem = s.mem ∧
      (slateRead s lvl i).tag.store = s.tag.store ∧
      (slateRead s lvl i).boot.keys = s.boot.keys := by
  simp [slateRead]

@[simp] theorem slateErase_kept (s : State) (i : Nat) :
    (slateErase s i).pending = s.pending ∧
      (slateErase s i).mem = s.mem ∧
      (slateErase s i).tag.store = s.tag.store ∧
      (slateErase s i).boot.keys = s.boot.keys := by
  simp [slateErase]

@[simp] theorem sltCmdWrite_kept (s : State) (lvl : Level) (v : Word) :
    (sltCmdWrite s lvl v).pending = s.pending ∧
      (sltCmdWrite s lvl v).mem = s.mem ∧
      (sltCmdWrite s lvl v).tag.store = s.tag.store ∧
      (sltCmdWrite s lvl v).boot.keys = s.boot.keys := by
  unfold sltCmdWrite; split <;> simp

@[simp] theorem setWork_kept (s : State) (w : Option SltWork) :
    (setWork s w).pending = s.pending ∧
      (setWork s w).mem = s.mem ∧
      (setWork s w).tag.store = s.tag.store ∧
      (setWork s w).boot.keys = s.boot.keys := by
  simp [setWork]

@[simp] theorem slateReadback_kept (s : State) (good : Bool) :
    (slateReadback s good).pending = s.pending ∧
      (slateReadback s good).tag.store = s.tag.store ∧
      (slateReadback s good).boot.keys = s.boot.keys := by
  unfold slateReadback; split <;> simp

@[simp] theorem slateReadback_wf_mem (s : State) (good : Bool) (hs : bytesWf s.mem.nor = true) :
    bytesWf (slateReadback s good).mem.nor = true := by
  unfold slateReadback; (repeat' split) <;> simp [hs]

@[simp] theorem slateActivate_kept (s : State) :
    (slateActivate s).pending = s.pending ∧
      (slateActivate s).mem = s.mem ∧
      (slateActivate s).tag.store = s.tag.store ∧
      (slateActivate s).boot.keys = s.boot.keys := by
  unfold slateActivate; split <;> simp

@[simp] theorem slateCut_kept (s : State) :
    (slateCut s).pending = s.pending ∧
      (slateCut s).tag.store = s.tag.store ∧
      (slateCut s).boot.keys = s.boot.keys := by
  unfold slateCut; split <;> simp

@[simp] theorem slateCut_wf_mem (s : State) (hs : bytesWf s.mem.nor = true) :
    bytesWf (slateCut s).mem.nor = true := by
  unfold slateCut; (repeat' split) <;> simp [hs]

@[simp] theorem entryPending_kept (s : State) (i : Nat) :
    (entryPending s i).pending = s.pending ∧
      (entryPending s i).mem = s.mem ∧
      (entryPending s i).tag.store = s.tag.store ∧
      (entryPending s i).boot.keys = s.boot.keys := by
  unfold entryPending; split <;> simp

/-! ### LinkTime -/

@[simp] theorem nbrPacket_kept (s : State) (n old : Nat) (x : LnkNbr) :
    (nbrPacket s n old x).pending = s.pending ∧
      (nbrPacket s n old x).mem = s.mem ∧
      (nbrPacket s n old x).tag.store = s.tag.store ∧
      (nbrPacket s n old x).boot.keys = s.boot.keys := by
  simp [nbrPacket]

@[simp] theorem setTrack_kept (s : State) (n : Nat) (x : LnkNbr) :
    (setTrack s n x).pending = s.pending ∧
      (setTrack s n x).mem = s.mem ∧
      (setTrack s n x).tag.store = s.tag.store ∧
      (setTrack s n x).boot.keys = s.boot.keys := by
  simp [setTrack]

@[simp] theorem epochPacket_kept (s : State) (reason : Nat) (old new : Nat × Nat) :
    (epochPacket s reason old new).pending = s.pending ∧
      (epochPacket s reason old new).mem = s.mem ∧
      (epochPacket s reason old new).tag.store = s.tag.store ∧
      (epochPacket s reason old new).boot.keys = s.boot.keys := by
  simp [epochPacket]

@[simp] theorem setPair_kept (s : State) (p : Nat × Nat) (reason : Nat) :
    (setPair s p reason).pending = s.pending ∧
      (setPair s p reason).mem = s.mem ∧
      (setPair s p reason).tag.store = s.tag.store ∧
      (setPair s p reason).boot.keys = s.boot.keys := by
  simp [setPair]

@[simp] theorem adopt_kept (s : State) (k reason : Nat) :
    (adopt s k reason).pending = s.pending ∧
      (adopt s k reason).mem = s.mem ∧
      (adopt s k reason).tag.store = s.tag.store ∧
      (adopt s k reason).boot.keys = s.boot.keys := by
  simp [adopt]

@[simp] theorem becomeOrigin_kept (s : State) (resume : Bool) :
    (becomeOrigin s resume).pending = s.pending ∧
      (becomeOrigin s resume).mem = s.mem ∧
      (becomeOrigin s resume).tag.store = s.tag.store ∧
      (becomeOrigin s resume).boot.keys = s.boot.keys := by
  simp [becomeOrigin]

@[simp] theorem heal_kept (s : State) (k : Nat) :
    (heal s k).pending = s.pending ∧
      (heal s k).mem = s.mem ∧
      (heal s k).tag.store = s.tag.store ∧
      (heal s k).boot.keys = s.boot.keys := by
  simp [heal]

@[simp] theorem searchCandidate_kept (s : State) (k : Nat) :
    (searchCandidate s k).pending = s.pending ∧
      (searchCandidate s k).mem = s.mem ∧
      (searchCandidate s k).tag.store = s.tag.store ∧
      (searchCandidate s k).boot.keys = s.boot.keys := by
  simp [searchCandidate]

@[simp] theorem noSource_kept (s : State) :
    (noSource s).pending = s.pending ∧
      (noSource s).mem = s.mem ∧
      (noSource s).tag.store = s.tag.store ∧
      (noSource s).boot.keys = s.boot.keys := by
  simp [noSource]

@[simp] theorem searchOn_kept (s : State) (lost : Bool) :
    (searchOn s lost).pending = s.pending ∧
      (searchOn s lost).mem = s.mem ∧
      (searchOn s lost).tag.store = s.tag.store ∧
      (searchOn s lost).boot.keys = s.boot.keys := by
  unfold searchOn; split <;> simp

@[simp] theorem reconsider_kept (s : State) :
    (reconsider s).pending = s.pending ∧
      (reconsider s).mem = s.mem ∧
      (reconsider s).tag.store = s.tag.store ∧
      (reconsider s).boot.keys = s.boot.keys := by
  unfold reconsider; (repeat' split) <;> simp_all

@[simp] theorem windowMissed_kept (s : State) (k : Nat) :
    (windowMissed s k).pending = s.pending ∧
      (windowMissed s k).mem = s.mem ∧
      (windowMissed s k).tag.store = s.tag.store ∧
      (windowMissed s k).boot.keys = s.boot.keys := by
  simp [windowMissed]

@[simp] theorem timeStep_kept (s : State) (time : Nat) :
    (timeStep s time).pending = s.pending ∧
      (timeStep s time).mem = s.mem ∧
      (timeStep s time).tag.store = s.tag.store ∧
      (timeStep s time).boot.keys = s.boot.keys := by
  simp [timeStep]

@[simp] theorem timeShift_kept (s : State) (e : Int) :
    (timeShift s e).pending = s.pending ∧
      (timeShift s e).mem = s.mem ∧
      (timeShift s e).tag.store = s.tag.store ∧
      (timeShift s e).boot.keys = s.boot.keys := by
  unfold timeShift; split <;> simp

@[simp] theorem timeSync_kept (s : State) (hadEpoch : Bool) (stamp time : Nat) :
    (timeSync s hadEpoch stamp time).pending = s.pending ∧
      (timeSync s hadEpoch stamp time).mem = s.mem ∧
      (timeSync s hadEpoch stamp time).tag.store = s.tag.store ∧
      (timeSync s hadEpoch stamp time).boot.keys = s.boot.keys := by
  simp [timeSync]

@[simp] theorem sourceBeacon_kept (s : State) (k stamp : Nat) (b : Ranelo) :
    (sourceBeacon s k stamp b).pending = s.pending ∧
      (sourceBeacon s k stamp b).mem = s.mem ∧
      (sourceBeacon s k stamp b).tag.store = s.tag.store ∧
      (sourceBeacon s k stamp b).boot.keys = s.boot.keys := by
  simp [sourceBeacon]

@[simp] theorem beaconTrack_kept (s : State) (n : Nat) (stamp : Nat) (b : Option Ranelo) :
    (beaconTrack s n stamp b).pending = s.pending ∧ (beaconTrack s n stamp b).tag.store = s.tag.store := by
  unfold beaconTrack; (repeat' split) <;> simp

@[simp] theorem beaconTrack_wf_mem (s : State) (n : Nat) (stamp : Nat) (b : Option Ranelo) (hs : bytesWf s.mem.nor = true) :
    bytesWf (beaconTrack s n stamp b).mem.nor = true := by
  unfold beaconTrack; (repeat' split) <;> simp [hs]

/-! ### Link -/

@[simp] theorem setPlan_kept (s : State) (k : Nat) (x : LnkSlot) :
    (setPlan s k x).pending = s.pending ∧
      (setPlan s k x).mem = s.mem ∧
      (setPlan s k x).tag.store = s.tag.store ∧
      (setPlan s k x).boot.keys = s.boot.keys := by
  simp [setPlan]

@[simp] theorem dropPlan_kept (s : State) (k : Nat) :
    (dropPlan s k).pending = s.pending ∧
      (dropPlan s k).mem = s.mem ∧
      (dropPlan s k).tag.store = s.tag.store ∧
      (dropPlan s k).boot.keys = s.boot.keys := by
  simp [dropPlan]

@[simp] theorem nextLeaf_kept (s : State) (i : Nat) (e : Entry) :
    (nextLeaf s i e).2.pending = s.pending ∧
      (nextLeaf s i e).2.mem = s.mem ∧
      (nextLeaf s i e).2.tag.store = s.tag.store ∧
      (nextLeaf s i e).2.boot.keys = s.boot.keys := by
  simp [nextLeaf]

@[simp] theorem slotLost_kept (s : State) (x : LnkSlot) (cause : Nat) :
    (slotLost s x cause).pending = s.pending ∧
      (slotLost s x cause).mem = s.mem ∧
      (slotLost s x cause).tag.store = s.tag.store ∧
      (slotLost s x cause).boot.keys = s.boot.keys := by
  simp [slotLost]

@[simp] theorem runningYields_kept (s : State) (at_ : Nat) :
    (runningYields s at_).pending = s.pending ∧
      (runningYields s at_).mem = s.mem ∧
      (runningYields s at_).tag.store = s.tag.store ∧
      (runningYields s at_).boot.keys = s.boot.keys := by
  simp [runningYields]

theorem foremost_kept (s t : State) (x : LnkSlot) (at_ len : Nat) (h : foremost s x at_ len = some t) :
    t.pending = s.pending ∧
      t.mem = s.mem ∧
      t.tag.store = s.tag.store ∧
      t.boot.keys = s.boot.keys := by
  unfold foremost at h
  dsimp only at h
  split at h
  · cases h
  · cases h
    split <;> simp

@[simp] theorem slotPostOn_kept (s : State) (kind : SlotKind) (src len : Nat) (e : Entry) (at_ free : Nat) :
    (slotPostOn s kind src len e at_ free).pending = s.pending ∧
      (slotPostOn s kind src len e at_ free).mem = s.mem ∧
      (slotPostOn s kind src len e at_ free).tag.store = s.tag.store ∧
      (slotPostOn s kind src len e at_ free).boot.keys = s.boot.keys := by
  unfold slotPostOn
  dsimp only
  split
  · simp
  · split
    · simp
    · rename_i t ht
      have h := foremost_kept _ _ _ _ _ ht
      simp at h
      (repeat' split) <;> simp [h]

@[simp] theorem slotPostSoon_kept (s : State) (kind : SlotKind) (e : Entry) :
    (slotPostSoon s kind e).pending = s.pending ∧
      (slotPostSoon s kind e).mem = s.mem ∧
      (slotPostSoon s kind e).tag.store = s.tag.store ∧
      (slotPostSoon s kind e).boot.keys = s.boot.keys := by
  simp [slotPostSoon]

@[simp] theorem brxPart_kept (s : State) (k : Nat) (e : Entry) (at_ free total : Nat) :
    (brxPart s k e at_ free total).pending = s.pending ∧
      (brxPart s k e at_ free total).mem = s.mem ∧
      (brxPart s k e at_ free total).tag.store = s.tag.store ∧
      (brxPart s k e at_ free total).boot.keys = s.boot.keys := by
  simp [brxPart]

@[simp] theorem brxPost_kept (s : State) (k : Nat) (e : Entry) :
    (brxPost s k e).pending = s.pending ∧
      (brxPost s k e).mem = s.mem ∧
      (brxPost s k e).tag.store = s.tag.store ∧
      (brxPost s k e).boot.keys = s.boot.keys := by
  unfold brxPost; simp only []; (repeat' split) <;> simp_all

@[simp] theorem dataPost_kept (s : State) :
    (dataPost s).pending = s.pending ∧
      (dataPost s).mem = s.mem ∧
      (dataPost s).tag.store = s.tag.store ∧
      (dataPost s).boot.keys = s.boot.keys := by
  unfold dataPost
  dsimp only
  (repeat' split) <;> simp

@[simp] theorem slotPost_kept (s : State) (kind : SlotKind) (src : Nat) :
    (slotPost s kind src).pending = s.pending ∧
      (slotPost s kind src).mem = s.mem ∧
      (slotPost s kind src).tag.store = s.tag.store ∧
      (slotPost s kind src).boot.keys = s.boot.keys := by
  unfold slotPost; (repeat' split) <;> simp

@[simp] theorem rescan_kept (s : State) (k : Nat) :
    (rescan s k).pending = s.pending ∧
      (rescan s k).mem = s.mem ∧
      (rescan s k).tag.store = s.tag.store ∧
      (rescan s k).boot.keys = s.boot.keys := by
  unfold rescan; split <;> simp

@[simp] theorem beaconTake_kept (s : State) :
    (beaconTake s).pending = s.pending ∧
      (beaconTake s).mem = s.mem ∧
      (beaconTake s).tag.store = s.tag.store ∧
      (beaconTake s).boot.keys = s.boot.keys := by
  unfold beaconTake; simp only []; (repeat' split) <;> simp_all

@[simp] theorem beaconSecure_kept (s : State) :
    (beaconSecure s).pending = s.pending ∧
      (beaconSecure s).mem = s.mem ∧
      (beaconSecure s).tag.store = s.tag.store ∧
      (beaconSecure s).boot.keys = s.boot.keys := by
  unfold beaconSecure; simp only []; (repeat' split) <;> simp_all

@[simp] theorem btxStart_kept (s : State) (x : LnkSlot) :
    (btxStart s x).pending = s.pending ∧
      (btxStart s x).mem = s.mem ∧
      (btxStart s x).tag.store = s.tag.store ∧
      (btxStart s x).boot.keys = s.boot.keys := by
  unfold btxStart; split <;> simp

@[simp] theorem linkStart_kept (s : State) (who : Consumer) :
    (linkStart s who).pending = s.pending ∧
      (linkStart s who).mem = s.mem ∧
      (linkStart s who).tag.store = s.tag.store ∧
      (linkStart s who).boot.keys = s.boot.keys := by
  unfold linkStart; (repeat' split) <;> simp

@[simp] theorem slotNotGranted_kept (s : State) (who : Consumer) :
    (slotNotGranted s who).pending = s.pending ∧
      (slotNotGranted s who).mem = s.mem ∧
      (slotNotGranted s who).tag.store = s.tag.store ∧
      (slotNotGranted s who).boot.keys = s.boot.keys := by
  unfold slotNotGranted; split <;> simp

@[simp] theorem windowEnd_kept (s : State) (k : Nat) :
    (windowEnd s k).pending = s.pending ∧
      (windowEnd s k).mem = s.mem ∧
      (windowEnd s k).tag.store = s.tag.store ∧
      (windowEnd s k).boot.keys = s.boot.keys := by
  unfold windowEnd; split <;> simp

@[simp] theorem holdoverEnd_kept (s : State) :
    (holdoverEnd s).pending = s.pending ∧
      (holdoverEnd s).mem = s.mem ∧
      (holdoverEnd s).tag.store = s.tag.store ∧
      (holdoverEnd s).boot.keys = s.boot.keys := by
  simp [holdoverEnd]

@[simp] theorem linkSfd_kept (s : State) (a : LinkLead) (level snr0 erased0 active0 : Nat) (carriers : List Byte) :
    (linkSfd s a level snr0 erased0 active0 carriers).pending = s.pending ∧
      (linkSfd s a level snr0 erased0 active0 carriers).mem = s.mem ∧
      (linkSfd s a level snr0 erased0 active0 carriers).tag.store = s.tag.store ∧
      (linkSfd s a level snr0 erased0 active0 carriers).boot.keys = s.boot.keys := by
  unfold linkSfd; split <;> simp

@[simp] theorem linkPhr_kept (s : State) (p : LinkPhr) :
    (linkPhr s p).pending = s.pending ∧
      (linkPhr s p).mem = s.mem ∧
      (linkPhr s p).tag.store = s.tag.store ∧
      (linkPhr s p).boot.keys = s.boot.keys := by
  unfold linkPhr; split <;> simp

@[simp] theorem linkPreempt_kept (s : State) (level : Nat) :
    (linkPreempt s level).pending = s.pending ∧
      (linkPreempt s level).mem = s.mem ∧
      (linkPreempt s level).tag.store = s.tag.store ∧
      (linkPreempt s level).boot.keys = s.boot.keys := by
  unfold linkPreempt; split <;> simp

@[simp] theorem energy_kept (s : State) (x : LnkSlot) (level : Nat) :
    (edSample.energy s x level).pending = s.pending ∧
      (edSample.energy s x level).mem = s.mem ∧
      (edSample.energy s x level).tag.store = s.tag.store ∧
      (edSample.energy s x level).boot.keys = s.boot.keys := by
  unfold edSample.energy
  dsimp only
  have h := foldl_keeps (fun t => t.pending = s.pending ∧ t.mem = s.mem ∧ t.tag.store = s.tag.store ∧ t.boot.keys = s.boot.keys)
    (fun t k => reportLevel t k level) (fun t k ht => by simpa using ht) (bitList 4 (rpRxMask s x.rp)) s (by simp)
  (repeat' split) <;> simp [h]

@[simp] theorem edSample_kept (s : State) (level : Nat) :
    (edSample s level).pending = s.pending ∧
      (edSample s level).mem = s.mem ∧
      (edSample s level).tag.store = s.tag.store ∧
      (edSample s level).boot.keys = s.boot.keys := by
  unfold edSample
  (repeat' split) <;> simp

@[simp] theorem nbrLearn_kept (s : State) (n eui : Nat) :
    (nbrLearn s n eui).pending = s.pending ∧
      (nbrLearn s n eui).mem = s.mem ∧
      (nbrLearn s n eui).tag.store = s.tag.store ∧
      (nbrLearn s n eui).boot.keys = s.boot.keys := by
  simp [nbrLearn]

@[simp] theorem lrx_kept (s : State) (r : LnkRx) (x : LnkSlot) (status nbr : Nat) (h : Option LnkHdr) (payload : List Byte) :
    (lrx s r x status nbr h payload).pending = s.pending ∧
      (lrx s r x status nbr h payload).mem = s.mem ∧
      (lrx s r x status nbr h payload).tag.store = s.tag.store ∧
      (lrx s r x status nbr h payload).boot.keys = s.boot.keys := by
  simp [lrx]

@[simp] theorem rxRefuse_kept (s : State) (r : LnkRx) (x : LnkSlot) (status nbr : Nat) (h : Option LnkHdr) :
    (rxRefuse s r x status nbr h).pending = s.pending ∧
      (rxRefuse s r x status nbr h).mem = s.mem ∧
      (rxRefuse s r x status nbr h).tag.store = s.tag.store ∧
      (rxRefuse s r x status nbr h).boot.keys = s.boot.keys := by
  simp [rxRefuse]

@[simp] theorem ackRx_kept (s : State) (r : LnkRx) (x : LnkSlot) (seq : Nat) :
    (ackRx s r x seq).pending = s.pending ∧
      (ackRx s r x seq).mem = s.mem ∧
      (ackRx s r x seq).tag.store = s.tag.store ∧
      (ackRx s r x seq).boot.keys = s.boot.keys := by
  unfold ackRx; split <;> simp

@[simp] theorem ackOwe_kept (s : State) (r : LnkRx) (x : LnkSlot) (h : LnkHdr) :
    (ackOwe s r x h).pending = s.pending ∧
      (ackOwe s r x h).mem = s.mem ∧
      (ackOwe s r x h).tag.store = s.tag.store ∧
      (ackOwe s r x h).boot.keys = s.boot.keys := by
  simp [ackOwe]

@[simp] theorem counterRule_kept (s : State) (r : LnkRx) (x : LnkSlot) (h : LnkHdr) (n : Nat) (fresh : Bool) (body mic : List Byte) :
    (counterRule s r x h n fresh body mic).pending = s.pending ∧
      (counterRule s r x h n fresh body mic).tag.store = s.tag.store := by
  simp [counterRule]

@[simp] theorem counterRule_wf_mem (s : State) (r : LnkRx) (x : LnkSlot) (h : LnkHdr) (n : Nat) (fresh : Bool) (body mic : List Byte) (hs : bytesWf s.mem.nor = true) :
    bytesWf (counterRule s r x h n fresh body mic).mem.nor = true := by
  unfold counterRule; simp only []; (repeat' split) <;> simp_all

@[simp] theorem frameOpen_kept (s : State) (r : LnkRx) (x : LnkSlot) (o : List Byte) (h : LnkHdr) (nbr : Option Nat) (key : List Byte) :
    (frameOpen s r x o h nbr key).pending = s.pending ∧
      (frameOpen s r x o h nbr key).tag.store = s.tag.store := by
  unfold frameOpen; simp only []; (repeat' split) <;> simp_all

@[simp] theorem frameOpen_wf_mem (s : State) (r : LnkRx) (x : LnkSlot) (o : List Byte) (h : LnkHdr) (nbr : Option Nat) (key : List Byte) (hs : bytesWf s.mem.nor = true) :
    bytesWf (frameOpen s r x o h nbr key).mem.nor = true := by
  unfold frameOpen; simp only []; (repeat' split) <;> simp_all

@[simp] theorem macRx_kept (s : State) (r : LnkRx) (x : LnkSlot) (o : List Byte) :
    (macRx s r x o).pending = s.pending ∧ (macRx s r x o).tag.store = s.tag.store := by
  unfold macRx; split <;> simp

@[simp] theorem macRx_wf_mem (s : State) (r : LnkRx) (x : LnkSlot) (o : List Byte) (hs : bytesWf s.mem.nor = true) :
    bytesWf (macRx s r x o).mem.nor = true := by
  unfold macRx; split <;> simp [hs]

@[simp] theorem linkFrameDone_kept (s : State) :
    (linkFrameDone s).pending = s.pending ∧ (linkFrameDone s).tag.store = s.tag.store := by
  unfold linkFrameDone; split <;> simp

@[simp] theorem linkFrameDone_wf_mem (s : State) (hs : bytesWf s.mem.nor = true) :
    bytesWf (linkFrameDone s).mem.nor = true := by
  unfold linkFrameDone; (repeat' split) <;> simp [hs]

@[simp] theorem frameGot_kept (s : State) (r : LnkRx) (x : LnkSlot) (o : List Byte) :
    (frameGot s r x o).pending = s.pending ∧ (frameGot s r x o).tag.store = s.tag.store := by
  simp [frameGot]

@[simp] theorem frameGot_wf_mem (s : State) (r : LnkRx) (x : LnkSlot) (o : List Byte) (hs : bytesWf s.mem.nor = true) :
    bytesWf (frameGot s r x o).mem.nor = true := by
  unfold frameGot; simp only []; (repeat' split) <;> simp_all

@[simp] theorem linkFrameEnd_kept (s : State) (good : Bool) (f : LinkFrame) (psdu : Option (List Byte)) :
    (linkFrameEnd s good f psdu).pending = s.pending ∧
      (linkFrameEnd s good f psdu).tag.store = s.tag.store := by
  unfold linkFrameEnd; (repeat' split) <;> simp

@[simp] theorem linkFrameEnd_wf_mem (s : State) (good : Bool) (f : LinkFrame) (psdu : Option (List Byte)) (hs : bytesWf s.mem.nor = true) :
    bytesWf (linkFrameEnd s good f psdu).mem.nor = true := by
  unfold linkFrameEnd; (repeat' split) <;> simp_all

@[simp] theorem linkCarrier_kept (s : State) (port idx : Nat) :
    (linkCarrier s port idx).pending = s.pending ∧
      (linkCarrier s port idx).mem = s.mem ∧
      (linkCarrier s port idx).tag.store = s.tag.store ∧
      (linkCarrier s port idx).boot.keys = s.boot.keys := by
  simp [linkCarrier]

@[simp] theorem linkRadiate_kept (s : State) (x : LnkSlot) (octets : List Byte) (leadNs : Nat) :
    (linkRadiate s x octets leadNs).1.pending = s.pending ∧
      (linkRadiate s x octets leadNs).1.mem = s.mem ∧
      (linkRadiate s x octets leadNs).1.tag.store = s.tag.store ∧
      (linkRadiate s x octets leadNs).1.boot.keys = s.boot.keys := by
  simp [linkRadiate]

@[simp] theorem listenEnd_kept (s : State) :
    (listenEnd s).pending = s.pending ∧
      (listenEnd s).mem = s.mem ∧
      (listenEnd s).tag.store = s.tag.store ∧
      (listenEnd s).boot.keys = s.boot.keys := by
  unfold listenEnd; split <;> simp

@[simp] theorem backoffEnd_kept (s : State) :
    (backoffEnd s).pending = s.pending ∧
      (backoffEnd s).mem = s.mem ∧
      (backoffEnd s).tag.store = s.tag.store ∧
      (backoffEnd s).boot.keys = s.boot.keys := by
  unfold backoffEnd; split <;> simp

@[simp] theorem linkReceive_kept (s : State) :
    (linkReceive s).pending = s.pending ∧
      (linkReceive s).mem = s.mem ∧
      (linkReceive s).tag.store = s.tag.store ∧
      (linkReceive s).boot.keys = s.boot.keys := by
  simp [linkReceive]

@[simp] theorem linkTxEnd_kept (s : State) :
    (linkTxEnd s).pending = s.pending ∧
      (linkTxEnd s).mem = s.mem ∧
      (linkTxEnd s).tag.store = s.tag.store ∧
      (linkTxEnd s).boot.keys = s.boot.keys := by
  unfold linkTxEnd; (repeat' split) <;> simp

@[simp] theorem ackWaitEnd_kept (s : State) :
    (ackWaitEnd s).pending = s.pending ∧
      (ackWaitEnd s).mem = s.mem ∧
      (ackWaitEnd s).tag.store = s.tag.store ∧
      (ackWaitEnd s).boot.keys = s.boot.keys := by
  unfold ackWaitEnd; simp only []; (repeat' split) <;> simp_all

@[simp] theorem immAckSend_kept (s : State) :
    (immAckSend s).pending = s.pending ∧
      (immAckSend s).mem = s.mem ∧
      (immAckSend s).tag.store = s.tag.store ∧
      (immAckSend s).boot.keys = s.boot.keys := by
  unfold immAckSend; split <;> simp

@[simp] theorem beaconSend_kept (s : State) (x : LnkSlot) (fc : Nat) :
    (beaconSend s x fc).pending = s.pending ∧
      (beaconSend s x fc).mem = s.mem ∧
      (beaconSend s x fc).tag.store = s.tag.store ∧
      (beaconSend s x fc).boot.keys = s.boot.keys := by
  unfold beaconSend; simp only []; (repeat' split) <;> simp_all

@[simp] theorem beaconInstant_kept (s : State) :
    (beaconInstant s).pending = s.pending ∧
      (beaconInstant s).mem = s.mem ∧
      (beaconInstant s).tag.store = s.tag.store ∧
      (beaconInstant s).boot.keys = s.boot.keys := by
  unfold beaconInstant
  split
  · (repeat' split) <;> simp
  · simp

@[simp] theorem frameExpired_kept (s : State) (pos : Nat) :
    (frameExpired s pos).pending = s.pending ∧
      (frameExpired s pos).mem = s.mem ∧
      (frameExpired s pos).tag.store = s.tag.store ∧
      (frameExpired s pos).boot.keys = s.boot.keys := by
  unfold frameExpired; split <;> simp

@[simp] theorem txFlush_kept (s : State) :
    (txFlush s).pending = s.pending ∧
      (txFlush s).mem = s.mem ∧
      (txFlush s).tag.store = s.tag.store ∧
      (txFlush s).boot.keys = s.boot.keys := by
  simp [txFlush]

@[simp] theorem txResult_kept (s : State) (result reason : Nat) :
    (txResult s result reason).pending = s.pending ∧
      (txResult s result reason).mem = s.mem ∧
      (txResult s result reason).tag.store = s.tag.store ∧
      (txResult s result reason).boot.keys = s.boot.keys := by
  simp [txResult]

@[simp] theorem txQueued_kept (s : State) :
    (txQueued s).pending = s.pending ∧
      (txQueued s).mem = s.mem ∧
      (txQueued s).tag.store = s.tag.store ∧
      (txQueued s).boot.keys = s.boot.keys := by
  unfold txQueued; simp only []; (repeat' split) <;> simp_all

@[simp] theorem txGo_kept (s : State) (v : Word) :
    (txGo s v).pending = s.pending ∧
      (txGo s v).mem = s.mem ∧
      (txGo s v).tag.store = s.tag.store ∧
      (txGo s v).boot.keys = s.boot.keys := by
  simp [txGo]

@[simp] theorem txCmdWrite_kept (s : State) (v : Word) :
    (txCmdWrite s v).pending = s.pending ∧
      (txCmdWrite s v).mem = s.mem ∧
      (txCmdWrite s v).tag.store = s.tag.store ∧
      (txCmdWrite s v).boot.keys = s.boot.keys := by
  simp [txCmdWrite]

@[simp] theorem dutyBin_kept (s : State) :
    (dutyBin s).pending = s.pending ∧
      (dutyBin s).mem = s.mem ∧
      (dutyBin s).tag.store = s.tag.store ∧
      (dutyBin s).boot.keys = s.boot.keys := by
  simp [dutyBin]

@[simp] theorem lnkApplied_kept (s : State) :
    (lnkApplied s).pending = s.pending ∧
      (lnkApplied s).mem = s.mem ∧
      (lnkApplied s).tag.store = s.tag.store ∧
      (lnkApplied s).boot.keys = s.boot.keys := by
  simp [lnkApplied]

@[simp] theorem nbrApplied_kept (s : State) (n oldEui : Nat) :
    (nbrApplied s n oldEui).pending = s.pending ∧
      (nbrApplied s n oldEui).mem = s.mem ∧
      (nbrApplied s n oldEui).tag.store = s.tag.store ∧
      (nbrApplied s n oldEui).boot.keys = s.boot.keys := by
  simp [nbrApplied]

@[simp] theorem nbrPut_kept (u : State) (y : CkptNbr) (n : Nat) :
    (nbrPut u y n).pending = u.pending ∧
      (nbrPut u y n).mem = u.mem ∧
      (nbrPut u y n).tag.store = u.tag.store ∧
      (nbrPut u y n).boot.keys = u.boot.keys := by
  simp [nbrPut]

@[simp] theorem nbrRestore_kept (t : State) (y : CkptNbr) :
    (nbrRestore t y).pending = t.pending ∧
      (nbrRestore t y).mem = t.mem ∧
      (nbrRestore t y).tag.store = t.tag.store ∧
      (nbrRestore t y).boot.keys = t.boot.keys := by
  unfold nbrRestore
  cases nbrFind t y.eui with
  | some n => simp only [nbrPut_kept, and_self]
  | none => cases nbrFree t <;> simp only [nbrPut_kept, nbrLearn_kept, and_self]

@[simp] theorem linkRestore_kept (s : State) :
    (linkRestore s).pending = s.pending ∧
      (linkRestore s).mem = s.mem ∧
      (linkRestore s).tag.store = s.tag.store ∧
      (linkRestore s).boot.keys = s.boot.keys := by
  unfold linkRestore; split <;> simp

@[simp] theorem dutyRestore_kept (s : State) (osf : Bool) :
    (dutyRestore s osf).pending = s.pending ∧
      (dutyRestore s osf).mem = s.mem ∧
      (dutyRestore s osf).tag.store = s.tag.store ∧
      (dutyRestore s osf).boot.keys = s.boot.keys := by
  simp [dutyRestore]

@[simp] theorem firstSearch_kept (s : State) :
    (firstSearch s).pending = s.pending ∧
      (firstSearch s).mem = s.mem ∧
      (firstSearch s).tag.store = s.tag.store ∧
      (firstSearch s).boot.keys = s.boot.keys := by
  unfold firstSearch; split <;> simp

@[simp] theorem linkBegin_kept (start : State) :
    (linkBegin start).pending = start.pending ∧
      (linkBegin start).mem = start.mem ∧
      (linkBegin start).tag.store = start.tag.store ∧
      (linkBegin start).boot.keys = start.boot.keys := by
  simp [linkBegin]

/-! ### Timers -/

@[simp] theorem setTmr_kept (s : State) (n : Nat) (t : Tmr) :
    (setTmr s n t).pending = s.pending ∧
      (setTmr s n t).mem = s.mem ∧
      (setTmr s n t).tag.store = s.tag.store ∧
      (setTmr s n t).boot.keys = s.boot.keys := by
  simp [setTmr]

@[simp] theorem toutTake_kept (s : State) (m : Nat) (set clr : Bool) :
    (toutTake s m set clr).pending = s.pending ∧
      (toutTake s m set clr).mem = s.mem ∧
      (toutTake s m set clr).tag.store = s.tag.store ∧
      (toutTake s m set clr).boot.keys = s.boot.keys := by
  simp [toutTake]

@[simp] theorem toutEvent_kept (s : State) (n evt : Nat) :
    (toutEvent s n evt).pending = s.pending ∧
      (toutEvent s n evt).mem = s.mem ∧
      (toutEvent s n evt).tag.store = s.tag.store ∧
      (toutEvent s n evt).boot.keys = s.boot.keys := by
  simp [toutEvent]

@[simp] theorem setCyc_kept (s : State) (n : Nat) (c : TmrCycle) :
    (setCyc s n c).pending = s.pending ∧
      (setCyc s n c).mem = s.mem ∧
      (setCyc s n c).tag.store = s.tag.store ∧
      (setCyc s n c).boot.keys = s.boot.keys := by
  simp [setCyc]

@[simp] theorem tmrEvent_kept (s : State) (n evt : Nat) :
    (tmrEvent s n evt).pending = s.pending ∧
      (tmrEvent s n evt).mem = s.mem ∧
      (tmrEvent s n evt).tag.store = s.tag.store ∧
      (tmrEvent s n evt).boot.keys = s.boot.keys := by
  simp [tmrEvent]

@[simp] theorem arm_kept (s : State) (n mask : Nat) :
    (arm s n mask).pending = s.pending ∧
      (arm s n mask).mem = s.mem ∧
      (arm s n mask).tag.store = s.tag.store ∧
      (arm s n mask).boot.keys = s.boot.keys := by
  simp [arm]

@[simp] theorem countTo_kept (s : State) (n : Nat) (v : Word) :
    (countTo s n v).pending = s.pending ∧
      (countTo s n v).mem = s.mem ∧
      (countTo s n v).tag.store = s.tag.store ∧
      (countTo s n v).boot.keys = s.boot.keys := by
  simp [countTo]

@[simp] theorem wrapOne_kept (s : State) (n : Nat) :
    (wrapOne s n).pending = s.pending ∧
      (wrapOne s n).mem = s.mem ∧
      (wrapOne s n).tag.store = s.tag.store ∧
      (wrapOne s n).boot.keys = s.boot.keys := by
  simp [wrapOne]

@[simp] theorem wrapWith_kept_pend (edge : State → Nat → State) (s : State) (n : Nat) (h_edge : ∀ t x1, (edge t x1).pending = t.pending) :
    (wrapWith edge s n).pending = s.pending := by
  simp [h_edge, wrapWith]

@[simp] theorem wrapWith_kept_mem (edge : State → Nat → State) (s : State) (n : Nat) (h_edge : ∀ t x1, (edge t x1).mem = t.mem) :
    (wrapWith edge s n).mem = s.mem := by
  simp [h_edge, wrapWith]

@[simp] theorem wrapWith_kept_store (edge : State → Nat → State) (s : State) (n : Nat) (h_edge : ∀ t x1, (edge t x1).tag.store = t.tag.store) :
    (wrapWith edge s n).tag.store = s.tag.store := by
  simp [h_edge, wrapWith]

@[simp] theorem wrapWith_kept_keys (edge : State → Nat → State) (s : State) (n : Nat) (h_edge : ∀ t x1, (edge t x1).boot.keys = t.boot.keys) :
    (wrapWith edge s n).boot.keys = s.boot.keys := by
  simp [h_edge, wrapWith]

@[simp] theorem wrapWith_wf_nor (edge : State → Nat → State) (s : State) (n : Nat) (h_edge : ∀ t x1, bytesWf t.mem.nor = true → bytesWf (edge t x1).mem.nor = true) (hs : bytesWf s.mem.nor = true) :
    bytesWf (wrapWith edge s n).mem.nor = true := by
  unfold wrapWith; simp only []; (repeat' split) <;> simp_all

@[simp] theorem wrapWith_wf_store (edge : State → Nat → State) (s : State) (n : Nat) (h_edge : ∀ t x1, bytesWf t.tag.store = true → bytesWf (edge t x1).tag.store = true) (hs : bytesWf s.tag.store = true) :
    bytesWf (wrapWith edge s n).tag.store = true := by
  unfold wrapWith; simp only []; (repeat' split) <;> simp_all

@[simp] theorem countStep_kept (s : State) (n : Nat) :
    (countStep s n).pending = s.pending ∧
      (countStep s n).mem = s.mem ∧
      (countStep s n).tag.store = s.tag.store ∧
      (countStep s n).boot.keys = s.boot.keys := by
  simp [countStep]

@[simp] theorem tmrEdge_kept (f : Nat) (s : State) (n : Nat) :
    (tmrEdge f s n).pending = s.pending ∧
      (tmrEdge f s n).mem = s.mem ∧
      (tmrEdge f s n).tag.store = s.tag.store ∧
      (tmrEdge f s n).boot.keys = s.boot.keys := by
  induction f generalizing s n with
  | zero => simp [tmrEdge]
  | succ f ih =>
    unfold tmrEdge
    dsimp only
    (repeat' split) <;> simp [ih]

@[simp] theorem timerWrap_kept (s : State) (n : Nat) :
    (timerWrap s n).pending = s.pending ∧
      (timerWrap s n).mem = s.mem ∧
      (timerWrap s n).tag.store = s.tag.store ∧
      (timerWrap s n).boot.keys = s.boot.keys := by
  simp [timerWrap]

@[simp] theorem cmpFire_kept (s : State) (n k : Nat) (late : Bool) :
    (cmpFire s n k late).pending = s.pending ∧
      (cmpFire s n k late).mem = s.mem ∧
      (cmpFire s n k late).tag.store = s.tag.store ∧
      (cmpFire s n k late).boot.keys = s.boot.keys := by
  simp [cmpFire]

@[simp] theorem compareArmed_kept (s : State) (n k : Nat) :
    (compareArmed s n k).pending = s.pending ∧
      (compareArmed s n k).mem = s.mem ∧
      (compareArmed s n k).tag.store = s.tag.store ∧
      (compareArmed s n k).boot.keys = s.boot.keys := by
  simp [compareArmed]

@[simp] theorem compareFire_kept (s : State) (n k : Nat) :
    (compareFire s n k).pending = s.pending ∧
      (compareFire s n k).mem = s.mem ∧
      (compareFire s n k).tag.store = s.tag.store ∧
      (compareFire s n k).boot.keys = s.boot.keys := by
  unfold compareFire; simp only []; (repeat' split) <;> simp_all

@[simp] theorem setCaps_kept (s : State) (n : Nat) (q : List Word) :
    (setCaps s n q).pending = s.pending ∧
      (setCaps s n q).mem = s.mem ∧
      (setCaps s n q).tag.store = s.tag.store ∧
      (setCaps s n q).boot.keys = s.boot.keys := by
  simp [setCaps]

@[simp] theorem capture_kept (s : State) (n : Nat) :
    (capture s n).pending = s.pending ∧
      (capture s n).mem = s.mem ∧
      (capture s n).tag.store = s.tag.store ∧
      (capture s n).boot.keys = s.boot.keys := by
  simp [capture]

@[simp] theorem tmrStart_kept (s : State) (n : Nat) :
    (tmrStart s n).pending = s.pending ∧
      (tmrStart s n).mem = s.mem ∧
      (tmrStart s n).tag.store = s.tag.store ∧
      (tmrStart s n).boot.keys = s.boot.keys := by
  simp [tmrStart]

@[simp] theorem tmrStop_kept (s : State) (n : Nat) :
    (tmrStop s n).pending = s.pending ∧
      (tmrStop s n).mem = s.mem ∧
      (tmrStop s n).tag.store = s.tag.store ∧
      (tmrStop s n).boot.keys = s.boot.keys := by
  simp [tmrStop]

@[simp] theorem tmrReset_kept (s : State) (n : Nat) :
    (tmrReset s n).pending = s.pending ∧
      (tmrReset s n).mem = s.mem ∧
      (tmrReset s n).tag.store = s.tag.store ∧
      (tmrReset s n).boot.keys = s.boot.keys := by
  simp [tmrReset]

@[simp] theorem tmrCapClr_kept (s : State) (n : Nat) :
    (tmrCapClr s n).pending = s.pending ∧
      (tmrCapClr s n).mem = s.mem ∧
      (tmrCapClr s n).tag.store = s.tag.store ∧
      (tmrCapClr s n).boot.keys = s.boot.keys := by
  simp [tmrCapClr]

@[simp] theorem gcmdAct_kept (cmd : Nat) (s : State) (n : Nat) :
    (gcmdAct cmd s n).pending = s.pending ∧
      (gcmdAct cmd s n).mem = s.mem ∧
      (gcmdAct cmd s n).tag.store = s.tag.store ∧
      (gcmdAct cmd s n).boot.keys = s.boot.keys := by
  simp [gcmdAct]

@[simp] theorem ctrlWritten_kept (s : State) (n : Nat) :
    (ctrlWritten s n).pending = s.pending ∧
      (ctrlWritten s n).mem = s.mem ∧
      (ctrlWritten s n).tag.store = s.tag.store ∧
      (ctrlWritten s n).boot.keys = s.boot.keys := by
  simp [ctrlWritten]

@[simp] theorem tmrCtrl_kept (s : State) (n : Nat) (v : Word) :
    (tmrCtrl s n v).pending = s.pending ∧
      (tmrCtrl s n v).mem = s.mem ∧
      (tmrCtrl s n v).tag.store = s.tag.store ∧
      (tmrCtrl s n v).boot.keys = s.boot.keys := by
  simp [tmrCtrl]

@[simp] theorem onMask_kept_pend (mask : Nat) (f : State → Nat → State) (s : State) (h_f : ∀ t x1, (f t x1).pending = t.pending) :
    (onMask mask f s).pending = s.pending := by
  simp [h_f, onMask]

@[simp] theorem onMask_kept_mem (mask : Nat) (f : State → Nat → State) (s : State) (h_f : ∀ t x1, (f t x1).mem = t.mem) :
    (onMask mask f s).mem = s.mem := by
  simp [h_f, onMask]

@[simp] theorem onMask_kept_store (mask : Nat) (f : State → Nat → State) (s : State) (h_f : ∀ t x1, (f t x1).tag.store = t.tag.store) :
    (onMask mask f s).tag.store = s.tag.store := by
  simp [h_f, onMask]

@[simp] theorem onMask_kept_keys (mask : Nat) (f : State → Nat → State) (s : State) (h_f : ∀ t x1, (f t x1).boot.keys = t.boot.keys) :
    (onMask mask f s).boot.keys = s.boot.keys := by
  simp [h_f, onMask]

@[simp] theorem onMask_wf_nor (mask : Nat) (f : State → Nat → State) (s : State) (h_f : ∀ t x1, bytesWf t.mem.nor = true → bytesWf (f t x1).mem.nor = true) (hs : bytesWf s.mem.nor = true) :
    bytesWf (onMask mask f s).mem.nor = true := by
  exact foldl_keeps (fun t => bytesWf t.mem.nor = true) f (fun t x h => h_f t x h) _ _ hs

@[simp] theorem onMask_wf_store (mask : Nat) (f : State → Nat → State) (s : State) (h_f : ∀ t x1, bytesWf t.tag.store = true → bytesWf (f t x1).tag.store = true) (hs : bytesWf s.tag.store = true) :
    bytesWf (onMask mask f s).tag.store = true := by
  exact foldl_keeps (fun t => bytesWf t.tag.store = true) f (fun t x h => h_f t x h) _ _ hs

@[simp] theorem gcmdOn_kept (cmd mask : Nat) (s : State) :
    (gcmdOn cmd mask s).pending = s.pending ∧
      (gcmdOn cmd mask s).mem = s.mem ∧
      (gcmdOn cmd mask s).tag.store = s.tag.store ∧
      (gcmdOn cmd mask s).boot.keys = s.boot.keys := by
  simp [gcmdOn]

@[simp] theorem tmrGcmd_kept (s : State) (v : Word) :
    (tmrGcmd s v).pending = s.pending ∧
      (tmrGcmd s v).mem = s.mem ∧
      (tmrGcmd s v).tag.store = s.tag.store ∧
      (tmrGcmd s v).boot.keys = s.boot.keys := by
  unfold tmrGcmd; split <;> simp

@[simp] theorem tmrCntWrite_kept (s : State) (n : Nat) (v : Word) :
    (tmrCntWrite s n v).pending = s.pending ∧
      (tmrCntWrite s n v).mem = s.mem ∧
      (tmrCntWrite s n v).tag.store = s.tag.store ∧
      (tmrCntWrite s n v).boot.keys = s.boot.keys := by
  simp [tmrCntWrite]

@[simp] theorem tmrBufWrite_kept (s : State) (n : Nat) (v : Word) :
    (tmrBufWrite s n v).pending = s.pending ∧
      (tmrBufWrite s n v).mem = s.mem ∧
      (tmrBufWrite s n v).tag.store = s.tag.store ∧
      (tmrBufWrite s n v).boot.keys = s.boot.keys := by
  simp [tmrBufWrite]

@[simp] theorem tmrCmpWrite_kept (s : State) (n k : Nat) (v : Word) :
    (tmrCmpWrite s n k v).pending = s.pending ∧
      (tmrCmpWrite s n k v).mem = s.mem ∧
      (tmrCmpWrite s n k v).tag.store = s.tag.store ∧
      (tmrCmpWrite s n k v).boot.keys = s.boot.keys := by
  simp [tmrCmpWrite]

@[simp] theorem tmrSnap_kept (s : State) (mask : Nat) :
    (tmrSnap s mask).pending = s.pending ∧
      (tmrSnap s mask).mem = s.mem ∧
      (tmrSnap s mask).tag.store = s.tag.store ∧
      (tmrSnap s mask).boot.keys = s.boot.keys := by
  simp [tmrSnap]

@[simp] theorem capMeets_kept (s : State) (n : Nat) (v : Word) (ovr irq : Bool) :
    (capMeets s n v ovr irq).pending = s.pending ∧
      (capMeets s n v ovr irq).mem = s.mem ∧
      (capMeets s n v ovr irq).tag.store = s.tag.store ∧
      (capMeets s n v ovr irq).boot.keys = s.boot.keys := by
  simp [capMeets]

@[simp] theorem tmrCapRead_kept (s : State) (n : Nat) :
    (tmrCapRead s n).pending = s.pending ∧
      (tmrCapRead s n).mem = s.mem ∧
      (tmrCapRead s n).tag.store = s.tag.store ∧
      (tmrCapRead s n).boot.keys = s.boot.keys := by
  unfold tmrCapRead; (repeat' split) <;> simp

@[simp] theorem toutWrite_kept (s : State) (m : Nat) (v : Word) :
    (toutWrite s m v).pending = s.pending ∧
      (toutWrite s m v).mem = s.mem ∧
      (toutWrite s m v).tag.store = s.tag.store ∧
      (toutWrite s m v).boot.keys = s.boot.keys := by
  simp [toutWrite]

@[simp] theorem trigDo_kept (s : State) (n : Nat) (i : TrigInput) :
    (trigDo s n i).pending = s.pending ∧
      (trigDo s n i).mem = s.mem ∧
      (trigDo s n i).tag.store = s.tag.store ∧
      (trigDo s n i).boot.keys = s.boot.keys := by
  unfold trigDo; split <;> simp

@[simp] theorem trigStep_kept (s : State) (n : Nat) (i : TrigInput) :
    (trigStep s n i).pending = s.pending ∧
      (trigStep s n i).mem = s.mem ∧
      (trigStep s n i).tag.store = s.tag.store ∧
      (trigStep s n i).boot.keys = s.boot.keys := by
  simp [trigStep]

@[simp] theorem triggerAction_kept (s : State) (n : Nat) (i : TrigInput) :
    (triggerAction s n i).pending = s.pending ∧
      (triggerAction s n i).mem = s.mem ∧
      (triggerAction s n i).tag.store = s.tag.store ∧
      (triggerAction s n i).boot.keys = s.boot.keys := by
  cases i <;> simp [triggerAction]

@[simp] theorem tmrApplied_kept (s : State) (n : Nat) (oldCmpen : Nat) :
    (tmrApplied s n oldCmpen).pending = s.pending ∧
      (tmrApplied s n oldCmpen).mem = s.mem ∧
      (tmrApplied s n oldCmpen).tag.store = s.tag.store ∧
      (tmrApplied s n oldCmpen).boot.keys = s.boot.keys := by
  simp [tmrApplied]

@[simp] theorem cycleTimer_kept (s : State) (n : Nat) :
    (cycleTimer s n).pending = s.pending ∧
      (cycleTimer s n).mem = s.mem ∧
      (cycleTimer s n).tag.store = s.tag.store ∧
      (cycleTimer s n).boot.keys = s.boot.keys := by
  unfold cycleTimer; simp only []; (repeat' split) <;> simp_all

@[simp] theorem tickTimer_kept (edge : Bool) (s : State) (n : Nat) :
    (tickTimer edge s n).pending = s.pending ∧
      (tickTimer edge s n).mem = s.mem ∧
      (tickTimer edge s n).tag.store = s.tag.store ∧
      (tickTimer edge s n).boot.keys = s.boot.keys := by
  simp [tickTimer]

@[simp] theorem tinSample_kept (s : State) :
    (tinSample s).pending = s.pending ∧
      (tinSample s).mem = s.mem ∧
      (tinSample s).tag.store = s.tag.store ∧
      (tinSample s).boot.keys = s.boot.keys := by
  simp [tinSample]

@[simp] theorem tickTimers_kept (s : State) (edge : Bool) :
    (tickTimers s edge).pending = s.pending ∧
      (tickTimers s edge).mem = s.mem ∧
      (tickTimers s edge).tag.store = s.tag.store ∧
      (tickTimers s edge).boot.keys = s.boot.keys := by
  simp [tickTimers]

/-! ### Gorse -/

@[simp] theorem setBase_kept (s : State) (re im : Int) :
    (setBase s re im).pending = s.pending ∧
      (setBase s re im).mem = s.mem ∧
      (setBase s re im).tag.store = s.tag.store ∧
      (setBase s re im).boot.keys = s.boot.keys := by
  simp [setBase]

@[simp] theorem baselineRebuild_kept (s : State) :
    (baselineRebuild s).pending = s.pending ∧
      (baselineRebuild s).mem = s.mem ∧
      (baselineRebuild s).tag.store = s.tag.store ∧
      (baselineRebuild s).boot.keys = s.boot.keys := by
  simp [baselineRebuild]

@[simp] theorem rebuildPing_kept (s : State) (re im : Int) :
    (rebuildPing s re im).pending = s.pending ∧
      (rebuildPing s re im).mem = s.mem ∧
      (rebuildPing s re im).tag.store = s.tag.store ∧
      (rebuildPing s re im).boot.keys = s.boot.keys := by
  simp [rebuildPing]

@[simp] theorem gorseDeltas_kept (s : State) (re im : Int) :
    (gorseDeltas s re im).2.pending = s.pending ∧
      (gorseDeltas s re im).2.mem = s.mem ∧
      (gorseDeltas s re im).2.tag.store = s.tag.store ∧
      (gorseDeltas s re im).2.boot.keys = s.boot.keys := by
  simp [gorseDeltas]

@[simp] theorem gorseDetect_kept (s : State) (da dp : Int) (overA overP : Bool) :
    (gorseDetect s da dp overA overP).pending = s.pending ∧
      (gorseDetect s da dp overA overP).mem = s.mem ∧
      (gorseDetect s da dp overA overP).tag.store = s.tag.store ∧
      (gorseDetect s da dp overA overP).boot.keys = s.boot.keys := by
  simp [gorseDetect]

@[simp] theorem gorseOver_kept (s : State) (da dp : Int) (overA overP : Bool) :
    (gorseOver s da dp overA overP).pending = s.pending ∧
      (gorseOver s da dp overA overP).mem = s.mem ∧
      (gorseOver s da dp overA overP).tag.store = s.tag.store ∧
      (gorseOver s da dp overA overP).boot.keys = s.boot.keys := by
  simp [gorseOver]

@[simp] theorem gorseUnder_kept (s : State) (re im : Int) :
    (gorseUnder s re im).pending = s.pending ∧
      (gorseUnder s re im).mem = s.mem ∧
      (gorseUnder s re im).tag.store = s.tag.store ∧
      (gorseUnder s re im).boot.keys = s.boot.keys := by
  simp [gorseUnder]

@[simp] theorem gorseShow_kept (s : State) (d : Int × Int) :
    (gorseShow s d).pending = s.pending ∧
      (gorseShow s d).mem = s.mem ∧
      (gorseShow s d).tag.store = s.tag.store ∧
      (gorseShow s d).boot.keys = s.boot.keys := by
  simp [gorseShow]

@[simp] theorem gorseJudge_kept (s : State) (re im : Int) (d : Int × Int) :
    (gorseJudge s re im d).pending = s.pending ∧
      (gorseJudge s re im d).mem = s.mem ∧
      (gorseJudge s re im d).tag.store = s.tag.store ∧
      (gorseJudge s re im d).boot.keys = s.boot.keys := by
  simp [gorseJudge]

@[simp] theorem gorseMeasure_kept (s : State) (re im : Int) :
    (gorseMeasure s re im).pending = s.pending ∧
      (gorseMeasure s re im).mem = s.mem ∧
      (gorseMeasure s re im).tag.store = s.tag.store ∧
      (gorseMeasure s re im).boot.keys = s.boot.keys := by
  simp [gorseMeasure]

@[simp] theorem driveLimit_kept (s : State) (step : Nat) :
    (driveLimit s step).pending = s.pending ∧
      (driveLimit s step).mem = s.mem ∧
      (driveLimit s step).tag.store = s.tag.store ∧
      (driveLimit s step).boot.keys = s.boot.keys := by
  simp [driveLimit]

@[simp] theorem gorsePing_kept (s : State) (re im : Int) :
    (gorsePing s re im).pending = s.pending ∧
      (gorsePing s re im).mem = s.mem ∧
      (gorsePing s re im).tag.store = s.tag.store ∧
      (gorsePing s re im).boot.keys = s.boot.keys := by
  simp [gorsePing]

@[simp] theorem gorsePingRun_kept (s : State) (re im : Int) :
    (gorsePingRun s re im).pending = s.pending ∧
      (gorsePingRun s re im).mem = s.mem ∧
      (gorsePingRun s re im).tag.store = s.tag.store ∧
      (gorsePingRun s re im).boot.keys = s.boot.keys := by
  simp [gorsePingRun]

@[simp] theorem confirmPingRun_kept (s : State) (re im : Int) :
    (confirmPingRun s re im).pending = s.pending ∧
      (confirmPingRun s re im).mem = s.mem ∧
      (confirmPingRun s re im).tag.store = s.tag.store ∧
      (confirmPingRun s re im).boot.keys = s.boot.keys := by
  simp [confirmPingRun]

@[simp] theorem pingDrop_kept (s : State) :
    (pingDrop s).pending = s.pending ∧
      (pingDrop s).mem = s.mem ∧
      (pingDrop s).tag.store = s.tag.store ∧
      (pingDrop s).boot.keys = s.boot.keys := by
  simp [pingDrop]

@[simp] theorem gorseWatch_kept (s : State) :
    (gorseWatch s).pending = s.pending ∧
      (gorseWatch s).mem = s.mem ∧
      (gorseWatch s).tag.store = s.tag.store ∧
      (gorseWatch s).boot.keys = s.boot.keys := by
  simp [gorseWatch]

end Sys2Proof.Machine
end

