-- ==== Sys2Proof/Laws/KeptHf.lean ====
section
/-! SUPPORT. What the near-field visits, the commits, the image and the calibration leave alone: the queue, the memory device, the tag store and the
keys, but for those that write them, which keep the canonical form of the store they write. -/

open Sys2Proof

namespace Sys2Proof.Machine

/-! ### Hf -/

@[simp] theorem setVisit_kept (s : State) (v : Option HfVisit) :
    (setVisit s v).pending = s.pending ∧
      (setVisit s v).mem = s.mem ∧
      (setVisit s v).tag.store = s.tag.store ∧
      (setVisit s v).boot.keys = s.boot.keys := by
  simp [setVisit]

@[simp] theorem hfEmit_kept (s : State) (v : HfVisit) (c : HfCmd) :
    (hfEmit s v c).pending = s.pending ∧
      (hfEmit s v c).mem = s.mem ∧
      (hfEmit s v c).tag.store = s.tag.store ∧
      (hfEmit s v c).boot.keys = s.boot.keys := by
  simp [hfEmit]

@[simp] theorem hfAsk_kept (s : State) (v : HfVisit) (c : HfCmd) (window : Nat) :
    (hfAsk s v c window).pending = s.pending ∧
      (hfAsk s v c window).mem = s.mem ∧
      (hfAsk s v c window).tag.store = s.tag.store ∧
      (hfAsk s v c window).boot.keys = s.boot.keys := by
  simp [hfAsk]

@[simp] theorem hfHalt_kept (s : State) (v : HfVisit) (c : HfCmd) :
    (hfHalt s v c).pending = s.pending ∧
      (hfHalt s v c).mem = s.mem ∧
      (hfHalt s v c).tag.store = s.tag.store ∧
      (hfHalt s v c).boot.keys = s.boot.keys := by
  simp [hfHalt]

@[simp] theorem hfPause_kept (s : State) (n : Nat) :
    (hfPause s n).pending = s.pending ∧
      (hfPause s n).mem = s.mem ∧
      (hfPause s n).tag.store = s.tag.store ∧
      (hfPause s n).boot.keys = s.boot.keys := by
  simp [hfPause]

@[simp] theorem hfQuiet_kept (s : State) :
    (hfQuiet s).pending = s.pending ∧
      (hfQuiet s).mem = s.mem ∧
      (hfQuiet s).tag.store = s.tag.store ∧
      (hfQuiet s).boot.keys = s.boot.keys := by
  simp [hfQuiet]

@[simp] theorem hfFieldOn_kept (s : State) (port step0 : Nat) :
    (hfFieldOn s port step0).pending = s.pending ∧
      (hfFieldOn s port step0).mem = s.mem ∧
      (hfFieldOn s port step0).tag.store = s.tag.store ∧
      (hfFieldOn s port step0).boot.keys = s.boot.keys := by
  simp [hfFieldOn]

@[simp] theorem hfFieldOff_kept (s : State) :
    (hfFieldOff s).pending = s.pending ∧
      (hfFieldOff s).mem = s.mem ∧
      (hfFieldOff s).tag.store = s.tag.store ∧
      (hfFieldOff s).boot.keys = s.boot.keys := by
  simp [hfFieldOff]

@[simp] theorem hfVisitStart_kept (s : State) (v : HfVisit) :
    (hfVisitStart s v).pending = s.pending ∧
      (hfVisitStart s v).mem = s.mem ∧
      (hfVisitStart s v).tag.store = s.tag.store ∧
      (hfVisitStart s v).boot.keys = s.boot.keys := by
  simp [hfVisitStart]

@[simp] theorem hfNextLeaf_kept (s : State) :
    (hfNextLeaf s).pending = s.pending ∧
      (hfNextLeaf s).mem = s.mem ∧
      (hfNextLeaf s).tag.store = s.tag.store ∧
      (hfNextLeaf s).boot.keys = s.boot.keys := by
  unfold hfNextLeaf; split <;> simp

@[simp] theorem hfAbortFlags_kept (s : State) (reason : Nat) (session : Bool) :
    (hfAbortFlags s reason session).pending = s.pending ∧
      (hfAbortFlags s reason session).mem = s.mem ∧
      (hfAbortFlags s reason session).tag.store = s.tag.store ∧
      (hfAbortFlags s reason session).boot.keys = s.boot.keys := by
  simp [hfAbortFlags]

@[simp] theorem hfResult_kept (s : State) (v : HfVisit) (result reason rxlen : Nat) :
    (hfResult s v result reason rxlen).pending = s.pending ∧
      (hfResult s v result reason rxlen).mem = s.mem ∧
      (hfResult s v result reason rxlen).tag.store = s.tag.store ∧
      (hfResult s v result reason rxlen).boot.keys = s.boot.keys := by
  simp [hfResult]

@[simp] theorem hfSessionEnd_kept (s : State) (v : HfVisit) (reason : Nat) :
    (hfSessionEnd s v reason).pending = s.pending ∧
      (hfSessionEnd s v reason).mem = s.mem ∧
      (hfSessionEnd s v reason).tag.store = s.tag.store ∧
      (hfSessionEnd s v reason).boot.keys = s.boot.keys := by
  simp [hfSessionEnd]

@[simp] theorem hfVisitEnd_kept (s : State) (v : HfVisit) (reason : Nat) :
    (hfVisitEnd s v reason).pending = s.pending ∧
      (hfVisitEnd s v reason).mem = s.mem ∧
      (hfVisitEnd s v reason).tag.store = s.tag.store ∧
      (hfVisitEnd s v reason).boot.keys = s.boot.keys := by
  unfold hfVisitEnd; (repeat' split) <;> simp

@[simp] theorem hfCard_kept (s : State) (v : HfVisit) (c : HfCard) (act : Bool) (dr ds auth : Nat) :
    (hfCard s v c act dr ds auth).1.pending = s.pending ∧
      (hfCard s v c act dr ds auth).1.mem = s.mem ∧
      (hfCard s v c act dr ds auth).1.tag.store = s.tag.store ∧
      (hfCard s v c act dr ds auth).1.boot.keys = s.boot.keys := by
  simp [hfCard]

@[simp] theorem hfStop_kept (s : State) (v : HfVisit) (reason : Nat) :
    (hfStop s v reason).pending = s.pending ∧
      (hfStop s v reason).mem = s.mem ∧
      (hfStop s v reason).tag.store = s.tag.store ∧
      (hfStop s v reason).boot.keys = s.boot.keys := by
  unfold hfStop
  dsimp only
  have h := foldl_keeps_fst (fun t => t.pending = s.pending ∧ t.mem = s.mem ∧ t.tag.store = s.tag.store ∧ t.boot.keys = s.boot.keys)
    (fun (t : State × HfVisit) c => hfCard t.1 t.2 c false 0 0 0) (fun p c hp => by simpa using hp) v.queue
    (s, { v with queue := [] }) (by simp)
  simp [h]

@[simp] theorem hfGoOn_kept (s : State) (v : HfVisit) (c : HfCmd) (ph : HfPhase) (window : Nat) :
    (hfGoOn s v c ph window).pending = s.pending ∧
      (hfGoOn s v c ph window).mem = s.mem ∧
      (hfGoOn s v c ph window).tag.store = s.tag.store ∧
      (hfGoOn s v c ph window).boot.keys = s.boot.keys := by
  simp [hfGoOn]

@[simp] theorem hfGo_kept (s : State) (v : HfVisit) (c : HfCmd) (ph : HfPhase) (window : Nat) :
    (hfGo s v c ph window).pending = s.pending ∧
      (hfGo s v c ph window).mem = s.mem ∧
      (hfGo s v c ph window).tag.store = s.tag.store ∧
      (hfGo s v c ph window).boot.keys = s.boot.keys := by
  simp [hfGo]

@[simp] theorem hfGoCard_kept (s : State) (v : HfVisit) (c : HfCard) (f : HfCmd) (ph : HfPhase) (window : Nat) :
    (hfGoCard s v c f ph window).pending = s.pending ∧
      (hfGoCard s v c f ph window).mem = s.mem ∧
      (hfGoCard s v c f ph window).tag.store = s.tag.store ∧
      (hfGoCard s v c f ph window).boot.keys = s.boot.keys := by
  simp [hfGoCard]

@[simp] theorem hfKeep_kept (s : State) (v : HfVisit) (act : Bool) :
    (hfKeep s v act).pending = s.pending ∧
      (hfKeep s v act).mem = s.mem ∧
      (hfKeep s v act).tag.store = s.tag.store ∧
      (hfKeep s v act).boot.keys = s.boot.keys := by
  simp [hfKeep]

@[simp] theorem hfBranch_kept (s : State) (v : HfVisit) (b : HfBranch) (inHand : Bool) :
    (hfBranch s v b inHand).pending = s.pending ∧
      (hfBranch s v b inHand).mem = s.mem ∧
      (hfBranch s v b inHand).tag.store = s.tag.store ∧
      (hfBranch s v b inHand).boot.keys = s.boot.keys := by
  unfold hfBranch; split <;> simp

@[simp] theorem hfReqA_kept (s : State) (v : HfVisit) :
    (hfReqA s v).pending = s.pending ∧
      (hfReqA s v).mem = s.mem ∧
      (hfReqA s v).tag.store = s.tag.store ∧
      (hfReqA s v).boot.keys = s.boot.keys := by
  simp [hfReqA]

@[simp] theorem hfNextA_kept (s : State) (v : HfVisit) :
    (hfNextA s v).pending = s.pending ∧
      (hfNextA s v).mem = s.mem ∧
      (hfNextA s v).tag.store = s.tag.store ∧
      (hfNextA s v).boot.keys = s.boot.keys := by
  unfold hfNextA; (repeat' split) <;> simp

@[simp] theorem hfCollide_kept (s : State) (v : HfVisit) :
    (hfCollide s v).1.pending = s.pending ∧
      (hfCollide s v).1.mem = s.mem ∧
      (hfCollide s v).1.tag.store = s.tag.store ∧
      (hfCollide s v).1.boot.keys = s.boot.keys := by
  simp [hfCollide]

@[simp] theorem hfAnticol_kept (s : State) (v : HfVisit) (b : HfBranch) (repeated : Bool) (bits : BitVec 40) (col : Option (Fin 40)) :
    (hfAnticol s v b repeated bits col).pending = s.pending ∧
      (hfAnticol s v b repeated bits col).mem = s.mem ∧
      (hfAnticol s v b repeated bits col).tag.store = s.tag.store ∧
      (hfAnticol s v b repeated bits col).boot.keys = s.boot.keys := by
  unfold hfAnticol; (repeat' split) <;> simp

@[simp] theorem hfDoneA_kept (s : State) (v : HfVisit) (c : HfCard) :
    (hfDoneA s v c).pending = s.pending ∧
      (hfDoneA s v c).mem = s.mem ∧
      (hfDoneA s v c).tag.store = s.tag.store ∧
      (hfDoneA s v c).boot.keys = s.boot.keys := by
  simp [hfDoneA]

@[simp] theorem hfSak_kept (s : State) (v : HfVisit) (level : Nat) (uid : List Byte) (bits : BitVec 40) (sak : Byte) (collided : Bool) :
    (hfSak s v level uid bits sak collided).pending = s.pending ∧
      (hfSak s v level uid bits sak collided).mem = s.mem ∧
      (hfSak s v level uid bits sak collided).tag.store = s.tag.store ∧
      (hfSak s v level uid bits sak collided).boot.keys = s.boot.keys := by
  simp [hfSak]

@[simp] theorem hfActivated_kept (s : State) (v : HfVisit) (c : HfCard) (r : Nat × Nat) :
    (hfActivated s v c r).pending = s.pending ∧
      (hfActivated s v c r).mem = s.mem ∧
      (hfActivated s v c r).tag.store = s.tag.store ∧
      (hfActivated s v c r).boot.keys = s.boot.keys := by
  simp [hfActivated]

@[simp] theorem hfSetRates_kept (s : State) (v : HfVisit) (c : HfCard) (r old : Nat × Nat) :
    (hfSetRates s v c r old).pending = s.pending ∧
      (hfSetRates s v c r old).mem = s.mem ∧
      (hfSetRates s v c r old).tag.store = s.tag.store ∧
      (hfSetRates s v c r old).boot.keys = s.boot.keys := by
  simp [hfSetRates]

@[simp] theorem hfParams_kept (s : State) (v : HfVisit) (fwi fsci sfgi : Nat) :
    (hfParams s v fwi fsci sfgi).1.pending = s.pending ∧
      (hfParams s v fwi fsci sfgi).1.mem = s.mem ∧
      (hfParams s v fwi fsci sfgi).1.tag.store = s.tag.store ∧
      (hfParams s v fwi fsci sfgi).1.boot.keys = s.boot.keys := by
  simp [hfParams]

@[simp] theorem hfAts_kept (s : State) (v : HfVisit) (c : HfCard) (bytes : List Byte) (sparam : Option (Fin 6 × Fin 5)) :
    (hfAts s v c bytes sparam).pending = s.pending ∧
      (hfAts s v c bytes sparam).mem = s.mem ∧
      (hfAts s v c bytes sparam).tag.store = s.tag.store ∧
      (hfAts s v c bytes sparam).boot.keys = s.boot.keys := by
  simp [hfAts]

@[simp] theorem hfReqB_kept (s : State) (v : HfVisit) :
    (hfReqB s v).pending = s.pending ∧
      (hfReqB s v).mem = s.mem ∧
      (hfReqB s v).tag.store = s.tag.store ∧
      (hfReqB s v).boot.keys = s.boot.keys := by
  simp [hfReqB]

@[simp] theorem hfDealB_kept (s : State) (v : HfVisit) (l : List HfCard) :
    (hfDealB s v l).pending = s.pending ∧
      (hfDealB s v l).mem = s.mem ∧
      (hfDealB s v l).tag.store = s.tag.store ∧
      (hfDealB s v l).boot.keys = s.boot.keys := by
  induction l generalizing s v with
  | nil => unfold hfDealB; (repeat' split) <;> simp
  | cons c q ih =>
    unfold hfDealB
    dsimp only
    (repeat' split) <;> simp [ih]

@[simp] theorem hfNextB_kept (s : State) (v : HfVisit) (slot : Nat) :
    (hfNextB s v slot).pending = s.pending ∧
      (hfNextB s v slot).mem = s.mem ∧
      (hfNextB s v slot).tag.store = s.tag.store ∧
      (hfNextB s v slot).boot.keys = s.boot.keys := by
  simp [hfNextB]

@[simp] theorem hfInventory_kept (s : State) (v : HfVisit) (one : Bool) (len mask : Nat) :
    (hfInventory s v one len mask).pending = s.pending ∧
      (hfInventory s v one len mask).mem = s.mem ∧
      (hfInventory s v one len mask).tag.store = s.tag.store ∧
      (hfInventory s v one len mask).boot.keys = s.boot.keys := by
  simp [hfInventory]

@[simp] theorem hfDealV_kept (s : State) (v : HfVisit) (l : List HfCard) :
    (hfDealV s v l).pending = s.pending ∧
      (hfDealV s v l).mem = s.mem ∧
      (hfDealV s v l).tag.store = s.tag.store ∧
      (hfDealV s v l).boot.keys = s.boot.keys := by
  induction l generalizing s v with
  | nil => unfold hfDealV; (repeat' split) <;> simp
  | cons c q ih =>
    unfold hfDealV
    dsimp only
    (repeat' split) <;> simp [ih]

@[simp] theorem hfNextV_kept (s : State) (v : HfVisit) (one : Bool) (len mask slot : Nat) :
    (hfNextV s v one len mask slot).pending = s.pending ∧
      (hfNextV s v one len mask slot).mem = s.mem ∧
      (hfNextV s v one len mask slot).tag.store = s.tag.store ∧
      (hfNextV s v one len mask slot).boot.keys = s.boot.keys := by
  simp [hfNextV]

@[simp] theorem hfCollideV_kept (s : State) (v : HfVisit) (one : Bool) (len mask slot : Nat) :
    (hfCollideV s v one len mask slot).pending = s.pending ∧
      (hfCollideV s v one len mask slot).mem = s.mem ∧
      (hfCollideV s v one len mask slot).tag.store = s.tag.store ∧
      (hfCollideV s v one len mask slot).boot.keys = s.boot.keys := by
  simp [hfCollideV]

@[simp] theorem hfAuthEnd_kept (s : State) (v : HfVisit) (c : HfCard) (auth : Nat) :
    (hfAuthEnd s v c auth).pending = s.pending ∧
      (hfAuthEnd s v c auth).mem = s.mem ∧
      (hfAuthEnd s v c auth).tag.store = s.tag.store ∧
      (hfAuthEnd s v c auth).boot.keys = s.boot.keys := by
  simp [hfAuthEnd]

@[simp] theorem hfAes1Done_kept (s : State) (v : HfVisit) (c : HfCard) (rnr : List Byte) (rnt : BitVec 64) (e1 : BitVec 128) :
    (hfAes1Done s v c rnr rnt e1).pending = s.pending ∧
      (hfAes1Done s v c rnr rnt e1).mem = s.mem ∧
      (hfAes1Done s v c rnr rnt e1).tag.store = s.tag.store ∧
      (hfAes1Done s v c rnr rnt e1).boot.keys = s.boot.keys := by
  unfold hfAes1Done; split <;> simp

@[simp] theorem hfAesRun_kept (s : State) (rnt : BitVec 64) (e1 : BitVec 128) :
    (hfAesRun s rnt e1).pending = s.pending ∧
      (hfAesRun s rnt e1).mem = s.mem ∧
      (hfAesRun s rnt e1).tag.store = s.tag.store ∧
      (hfAesRun s rnt e1).boot.keys = s.boot.keys := by
  unfold hfAesRun; (repeat' split) <;> simp

@[simp] theorem hfAes1_kept (s : State) (v : HfVisit) (c : HfCard) (rnr : List Byte) (rnt : BitVec 64) (e1 : BitVec 128) :
    (hfAes1 s v c rnr rnt e1).pending = s.pending ∧
      (hfAes1 s v c rnr rnt e1).mem = s.mem ∧
      (hfAes1 s v c rnr rnt e1).tag.store = s.tag.store ∧
      (hfAes1 s v c rnr rnt e1).boot.keys = s.boot.keys := by
  unfold hfAes1; (repeat' split) <;> simp

@[simp] theorem hfSensf_kept (s : State) (v : HfVisit) :
    (hfSensf s v).pending = s.pending ∧
      (hfSensf s v).mem = s.mem ∧
      (hfSensf s v).tag.store = s.tag.store ∧
      (hfSensf s v).boot.keys = s.boot.keys := by
  simp [hfSensf]

@[simp] theorem hfNextF_kept (s : State) (v : HfVisit) (slot : Nat) :
    (hfNextF s v slot).pending = s.pending ∧
      (hfNextF s v slot).mem = s.mem ∧
      (hfNextF s v slot).tag.store = s.tag.store ∧
      (hfNextF s v slot).boot.keys = s.boot.keys := by
  simp [hfNextF]

@[simp] theorem hfTarget_kept (s : State) (v : HfVisit) (slot : Nat) (idm pmm : List Byte) (sys : BitVec 16) :
    (hfTarget s v slot idm pmm sys).pending = s.pending ∧
      (hfTarget s v slot idm pmm sys).mem = s.mem ∧
      (hfTarget s v slot idm pmm sys).tag.store = s.tag.store ∧
      (hfTarget s v slot idm pmm sys).boot.keys = s.boot.keys := by
  simp [hfTarget]

@[simp] theorem hfReceive_kept (s : State) (bs : List Byte) :
    (hfReceive s bs).pending = s.pending ∧
      (hfReceive s bs).mem = s.mem ∧
      (hfReceive s bs).tag.store = s.tag.store ∧
      (hfReceive s bs).boot.keys = s.boot.keys := by
  simp [hfReceive]

@[simp] theorem hfCommandEnd_kept (s : State) (v : HfVisit) (result rxlen : Nat) :
    (hfCommandEnd s v result rxlen).pending = s.pending ∧
      (hfCommandEnd s v result rxlen).mem = s.mem ∧
      (hfCommandEnd s v result rxlen).tag.store = s.tag.store ∧
      (hfCommandEnd s v result rxlen).boot.keys = s.boot.keys := by
  simp [hfCommandEnd]

@[simp] theorem hfBlockGo_kept (s : State) (v : HfVisit) (x : HfXchg) (c : HfCmd) :
    (hfBlockGo s v x c).pending = s.pending ∧
      (hfBlockGo s v x c).mem = s.mem ∧
      (hfBlockGo s v x c).tag.store = s.tag.store ∧
      (hfBlockGo s v x c).boot.keys = s.boot.keys := by
  simp [hfBlockGo]

@[simp] theorem hfIGo_kept (s : State) (v : HfVisit) (x : HfXchg) :
    (hfIGo s v x).pending = s.pending ∧
      (hfIGo s v x).mem = s.mem ∧
      (hfIGo s v x).tag.store = s.tag.store ∧
      (hfIGo s v x).boot.keys = s.boot.keys := by
  simp [hfIGo]

@[simp] theorem hfFresh_kept_pend (s : State) (v : HfVisit) (eff : State → State) (h_eff : ∀ t, (eff t).pending = t.pending) :
    (hfFresh s v eff).pending = s.pending := by
  simp [h_eff, hfFresh]

@[simp] theorem hfFresh_kept_mem (s : State) (v : HfVisit) (eff : State → State) (h_eff : ∀ t, (eff t).mem = t.mem) :
    (hfFresh s v eff).mem = s.mem := by
  simp [h_eff, hfFresh]

@[simp] theorem hfFresh_kept_store (s : State) (v : HfVisit) (eff : State → State) (h_eff : ∀ t, (eff t).tag.store = t.tag.store) :
    (hfFresh s v eff).tag.store = s.tag.store := by
  simp [h_eff, hfFresh]

@[simp] theorem hfFresh_kept_keys (s : State) (v : HfVisit) (eff : State → State) (h_eff : ∀ t, (eff t).boot.keys = t.boot.keys) :
    (hfFresh s v eff).boot.keys = s.boot.keys := by
  simp [h_eff, hfFresh]

@[simp] theorem hfFresh_wf_nor (s : State) (v : HfVisit) (eff : State → State) (h_eff : ∀ t, bytesWf t.mem.nor = true → bytesWf (eff t).mem.nor = true) (hs : bytesWf s.mem.nor = true) :
    bytesWf (hfFresh s v eff).mem.nor = true := by
  unfold hfFresh; split <;> simp [h_eff, hs]

@[simp] theorem hfFresh_wf_store (s : State) (v : HfVisit) (eff : State → State) (h_eff : ∀ t, bytesWf t.tag.store = true → bytesWf (eff t).tag.store = true) (hs : bytesWf s.tag.store = true) :
    bytesWf (hfFresh s v eff).tag.store = true := by
  unfold hfFresh; split <;> simp [h_eff, hs]

@[simp] theorem hfXchg_kept (s : State) (v : HfVisit) :
    (hfXchg s v).pending = s.pending ∧
      (hfXchg s v).mem = s.mem ∧
      (hfXchg s v).tag.store = s.tag.store ∧
      (hfXchg s v).boot.keys = s.boot.keys := by
  simp [hfXchg]

@[simp] theorem hfRaw_kept (s : State) (v : HfVisit) :
    (hfRaw s v).pending = s.pending ∧
      (hfRaw s v).mem = s.mem ∧
      (hfRaw s v).tag.store = s.tag.store ∧
      (hfRaw s v).boot.keys = s.boot.keys := by
  simp [hfRaw]

@[simp] theorem hfProtocol_kept (s : State) (v : HfVisit) :
    (hfProtocol s v).pending = s.pending ∧
      (hfProtocol s v).mem = s.mem ∧
      (hfProtocol s v).tag.store = s.tag.store ∧
      (hfProtocol s v).boot.keys = s.boot.keys := by
  simp [hfProtocol]

@[simp] theorem hfIBlock_kept (s0 : State) (v : HfVisit) (x : HfXchg) (num chaining : Bool) (inf : List Byte) :
    (hfIBlock s0 v x num chaining inf).pending = s0.pending ∧
      (hfIBlock s0 v x num chaining inf).mem = s0.mem ∧
      (hfIBlock s0 v x num chaining inf).tag.store = s0.tag.store ∧
      (hfIBlock s0 v x num chaining inf).boot.keys = s0.boot.keys := by
  simp [hfIBlock]

@[simp] theorem hfRAck_kept (s : State) (v : HfVisit) (x : HfXchg) (num : Bool) :
    (hfRAck s v x num).pending = s.pending ∧
      (hfRAck s v x num).mem = s.mem ∧
      (hfRAck s v x num).tag.store = s.tag.store ∧
      (hfRAck s v x num).boot.keys = s.boot.keys := by
  unfold hfRAck; (repeat' split) <;> simp

@[simp] theorem hfBlockTimeout_kept (s : State) (v : HfVisit) (x : HfXchg) (ruleBreak : Bool) :
    (hfBlockTimeout s v x ruleBreak).pending = s.pending ∧
      (hfBlockTimeout s v x ruleBreak).mem = s.mem ∧
      (hfBlockTimeout s v x ruleBreak).tag.store = s.tag.store ∧
      (hfBlockTimeout s v x ruleBreak).boot.keys = s.boot.keys := by
  simp [hfBlockTimeout]

@[simp] theorem hfWtx_kept (s : State) (v : HfVisit) (x : HfXchg) (inf : Byte) :
    (hfWtx s v x inf).pending = s.pending ∧
      (hfWtx s v x inf).mem = s.mem ∧
      (hfWtx s v x inf).tag.store = s.tag.store ∧
      (hfWtx s v x inf).boot.keys = s.boot.keys := by
  simp [hfWtx]

@[simp] theorem hfRequest_kept (s : State) (v : HfVisit) :
    (hfRequest s v).pending = s.pending ∧
      (hfRequest s v).mem = s.mem ∧
      (hfRequest s v).tag.store = s.tag.store ∧
      (hfRequest s v).boot.keys = s.boot.keys := by
  unfold hfRequest; split <;> simp

@[simp] theorem guardEnd_kept (s0 : State) :
    (guardEnd s0).pending = s0.pending ∧
      (guardEnd s0).mem = s0.mem ∧
      (guardEnd s0).tag.store = s0.tag.store ∧
      (guardEnd s0).boot.keys = s0.boot.keys := by
  unfold guardEnd; simp only []; (repeat' split) <;> simp_all

@[simp] theorem foffWaitEnd_kept (s0 : State) :
    (foffWaitEnd s0).pending = s0.pending ∧
      (foffWaitEnd s0).mem = s0.mem ∧
      (foffWaitEnd s0).tag.store = s0.tag.store ∧
      (foffWaitEnd s0).boot.keys = s0.boot.keys := by
  unfold foffWaitEnd; simp only []; (repeat' split) <;> simp_all

@[simp] theorem hfReleased_kept (s : State) (v : HfVisit) :
    (hfReleased s v).pending = s.pending ∧
      (hfReleased s v).mem = s.mem ∧
      (hfReleased s v).tag.store = s.tag.store ∧
      (hfReleased s v).boot.keys = s.boot.keys := by
  simp [hfReleased]

@[simp] theorem hfAnswer_kept (s : State) (v : HfVisit) (f : CardFrame) :
    (hfAnswer s v f).pending = s.pending ∧
      (hfAnswer s v f).mem = s.mem ∧
      (hfAnswer s v f).tag.store = s.tag.store ∧
      (hfAnswer s v f).boot.keys = s.boot.keys := by
  unfold hfAnswer; split <;> simp

@[simp] theorem hfWindowOver_kept (s : State) :
    (hfWindowOver s).pending = s.pending ∧
      (hfWindowOver s).mem = s.mem ∧
      (hfWindowOver s).tag.store = s.tag.store ∧
      (hfWindowOver s).boot.keys = s.boot.keys := by
  simp [hfWindowOver]

@[simp] theorem cardFrame_kept (s0 : State) (f : CardFrame) :
    (cardFrame s0 f).pending = s0.pending ∧
      (cardFrame s0 f).mem = s0.mem ∧
      (cardFrame s0 f).tag.store = s0.tag.store ∧
      (cardFrame s0 f).boot.keys = s0.boot.keys := by
  unfold cardFrame; simp only []; (repeat' split) <;> simp_all

@[simp] theorem hfNoAnswer_kept (s : State) (v : HfVisit) :
    (hfNoAnswer s v).pending = s.pending ∧
      (hfNoAnswer s v).mem = s.mem ∧
      (hfNoAnswer s v).tag.store = s.tag.store ∧
      (hfNoAnswer s v).boot.keys = s.boot.keys := by
  unfold hfNoAnswer; split <;> simp

@[simp] theorem answerTimeout_kept (s0 : State) :
    (answerTimeout s0).pending = s0.pending ∧
      (answerTimeout s0).mem = s0.mem ∧
      (answerTimeout s0).tag.store = s0.tag.store ∧
      (answerTimeout s0).boot.keys = s0.boot.keys := by
  unfold answerTimeout; simp only []; (repeat' split) <;> simp_all

@[simp] theorem onXchg_kept_pend (s0 : State) (f : State → HfVisit → HfXchg → State) (h_f : ∀ t x1 x2, (f t x1 x2).pending = t.pending) :
    (onXchg s0 f).pending = s0.pending := by
  unfold onXchg; simp only []; (repeat' split) <;> simp_all

@[simp] theorem onXchg_kept_mem (s0 : State) (f : State → HfVisit → HfXchg → State) (h_f : ∀ t x1 x2, (f t x1 x2).mem = t.mem) :
    (onXchg s0 f).mem = s0.mem := by
  unfold onXchg; simp only []; (repeat' split) <;> simp_all

@[simp] theorem onXchg_kept_store (s0 : State) (f : State → HfVisit → HfXchg → State) (h_f : ∀ t x1 x2, (f t x1 x2).tag.store = t.tag.store) :
    (onXchg s0 f).tag.store = s0.tag.store := by
  unfold onXchg; simp only []; (repeat' split) <;> simp_all

@[simp] theorem onXchg_kept_keys (s0 : State) (f : State → HfVisit → HfXchg → State) (h_f : ∀ t x1 x2, (f t x1 x2).boot.keys = t.boot.keys) :
    (onXchg s0 f).boot.keys = s0.boot.keys := by
  unfold onXchg; simp only []; (repeat' split) <;> simp_all

@[simp] theorem onXchg_wf_nor (s0 : State) (f : State → HfVisit → HfXchg → State) (h_f : ∀ t x1 x2, bytesWf t.mem.nor = true → bytesWf (f t x1 x2).mem.nor = true) (hs : bytesWf s0.mem.nor = true) :
    bytesWf (onXchg s0 f).mem.nor = true := by
  unfold onXchg; simp only []; (repeat' split) <;> simp_all

@[simp] theorem onXchg_wf_store (s0 : State) (f : State → HfVisit → HfXchg → State) (h_f : ∀ t x1 x2, bytesWf t.tag.store = true → bytesWf (f t x1 x2).tag.store = true) (hs : bytesWf s0.tag.store = true) :
    bytesWf (onXchg s0 f).tag.store = true := by
  unfold onXchg; simp only []; (repeat' split) <;> simp_all

@[simp] theorem hfPollStart_kept (s : State) (i : Nat) (e : Entry) :
    (hfPollStart s i e).pending = s.pending ∧
      (hfPollStart s i e).mem = s.mem ∧
      (hfPollStart s i e).tag.store = s.tag.store ∧
      (hfPollStart s i e).boot.keys = s.boot.keys := by
  unfold hfPollStart; split <;> simp

@[simp] theorem hfSessionStart_kept (s : State) :
    (hfSessionStart s).pending = s.pending ∧
      (hfSessionStart s).mem = s.mem ∧
      (hfSessionStart s).tag.store = s.tag.store ∧
      (hfSessionStart s).boot.keys = s.boot.keys := by
  unfold hfSessionStart; (repeat' split) <;> simp

@[simp] theorem hfCut_kept (s : State) (who : Consumer) (reason : Nat) :
    (hfCut s who reason).pending = s.pending ∧
      (hfCut s who reason).mem = s.mem ∧
      (hfCut s who reason).tag.store = s.tag.store ∧
      (hfCut s who reason).boot.keys = s.boot.keys := by
  unfold hfCut; split <;> simp

@[simp] theorem hfLeaseWarn_kept (s : State) (who : Consumer) :
    (hfLeaseWarn s who).pending = s.pending ∧
      (hfLeaseWarn s who).mem = s.mem ∧
      (hfLeaseWarn s who).tag.store = s.tag.store ∧
      (hfLeaseWarn s who).boot.keys = s.boot.keys := by
  unfold hfLeaseWarn; split <;> simp

@[simp] theorem hfPost_kept (s : State) :
    (hfPost s).pending = s.pending ∧
      (hfPost s).mem = s.mem ∧
      (hfPost s).tag.store = s.tag.store ∧
      (hfPost s).boot.keys = s.boot.keys := by
  simp [hfPost]

@[simp] theorem hfOpen_kept (s : State) (entry target : Nat) :
    (hfOpen s entry target).pending = s.pending ∧
      (hfOpen s entry target).mem = s.mem ∧
      (hfOpen s entry target).tag.store = s.tag.store ∧
      (hfOpen s entry target).boot.keys = s.boot.keys := by
  simp [hfOpen]

@[simp] theorem hfInSession_kept_pend (s : State) (op : Nat) (eff : State → HfVisit → State) (h_eff : ∀ t x1, (eff t x1).pending = t.pending) :
    (hfInSession s op eff).pending = s.pending := by
  unfold hfInSession; split <;> simp [h_eff]

@[simp] theorem hfInSession_kept_mem (s : State) (op : Nat) (eff : State → HfVisit → State) (h_eff : ∀ t x1, (eff t x1).mem = t.mem) :
    (hfInSession s op eff).mem = s.mem := by
  unfold hfInSession; split <;> simp [h_eff]

@[simp] theorem hfInSession_kept_store (s : State) (op : Nat) (eff : State → HfVisit → State) (h_eff : ∀ t x1, (eff t x1).tag.store = t.tag.store) :
    (hfInSession s op eff).tag.store = s.tag.store := by
  unfold hfInSession; split <;> simp [h_eff]

@[simp] theorem hfInSession_kept_keys (s : State) (op : Nat) (eff : State → HfVisit → State) (h_eff : ∀ t x1, (eff t x1).boot.keys = t.boot.keys) :
    (hfInSession s op eff).boot.keys = s.boot.keys := by
  unfold hfInSession; split <;> simp [h_eff]

@[simp] theorem hfInSession_wf_nor (s : State) (op : Nat) (eff : State → HfVisit → State) (h_eff : ∀ t x1, bytesWf t.mem.nor = true → bytesWf (eff t x1).mem.nor = true) (hs : bytesWf s.mem.nor = true) :
    bytesWf (hfInSession s op eff).mem.nor = true := by
  unfold hfInSession; (repeat' split) <;> simp [h_eff, hs]

@[simp] theorem hfInSession_wf_store (s : State) (op : Nat) (eff : State → HfVisit → State) (h_eff : ∀ t x1, bytesWf t.tag.store = true → bytesWf (eff t x1).tag.store = true) (hs : bytesWf s.tag.store = true) :
    bytesWf (hfInSession s op eff).tag.store = true := by
  unfold hfInSession; (repeat' split) <;> simp [h_eff, hs]

@[simp] theorem hfClose_kept (s : State) (v : HfVisit) :
    (hfClose s v).pending = s.pending ∧
      (hfClose s v).mem = s.mem ∧
      (hfClose s v).tag.store = s.tag.store ∧
      (hfClose s v).boot.keys = s.boot.keys := by
  simp [hfClose]

@[simp] theorem hfCommand_kept_pend (s : State) (eff : State → State) (h_eff : ∀ t, (eff t).pending = t.pending) :
    (hfCommand s eff).pending = s.pending := by
  simp [h_eff, hfCommand]

@[simp] theorem hfCommand_kept_mem (s : State) (eff : State → State) (h_eff : ∀ t, (eff t).mem = t.mem) :
    (hfCommand s eff).mem = s.mem := by
  simp [h_eff, hfCommand]

@[simp] theorem hfCommand_kept_store (s : State) (eff : State → State) (h_eff : ∀ t, (eff t).tag.store = t.tag.store) :
    (hfCommand s eff).tag.store = s.tag.store := by
  simp [h_eff, hfCommand]

@[simp] theorem hfCommand_kept_keys (s : State) (eff : State → State) (h_eff : ∀ t, (eff t).boot.keys = t.boot.keys) :
    (hfCommand s eff).boot.keys = s.boot.keys := by
  simp [h_eff, hfCommand]

@[simp] theorem hfCommand_wf_nor (s : State) (eff : State → State) (h_eff : ∀ t, bytesWf t.mem.nor = true → bytesWf (eff t).mem.nor = true) (hs : bytesWf s.mem.nor = true) :
    bytesWf (hfCommand s eff).mem.nor = true := by
  unfold hfCommand; split <;> simp [h_eff, hs]

@[simp] theorem hfCommand_wf_store (s : State) (eff : State → State) (h_eff : ∀ t, bytesWf t.tag.store = true → bytesWf (eff t).tag.store = true) (hs : bytesWf s.tag.store = true) :
    bytesWf (hfCommand s eff).tag.store = true := by
  unfold hfCommand; split <;> simp [h_eff, hs]

@[simp] theorem hfImm_kept (s : State) (v : Word) :
    (hfImm s v).pending = s.pending ∧
      (hfImm s v).mem = s.mem ∧
      (hfImm s v).tag.store = s.tag.store ∧
      (hfImm s v).boot.keys = s.boot.keys := by
  unfold hfImm; (repeat' split) <;> simp

@[simp] theorem sessionIdle_kept (s0 : State) :
    (sessionIdle s0).pending = s0.pending ∧
      (sessionIdle s0).mem = s0.mem ∧
      (sessionIdle s0).tag.store = s0.tag.store ∧
      (sessionIdle s0).boot.keys = s0.boot.keys := by
  unfold sessionIdle; simp only []; (repeat' split) <;> simp_all

@[simp] theorem hfTxlen_kept (s : State) (v : Word) :
    (hfTxlen s v).pending = s.pending ∧
      (hfTxlen s v).mem = s.mem ∧
      (hfTxlen s v).tag.store = s.tag.store ∧
      (hfTxlen s v).boot.keys = s.boot.keys := by
  simp [hfTxlen]

@[simp] theorem hfBufWrite_kept (s : State) (w : Nat) (v : Word) :
    (hfBufWrite s w v).pending = s.pending ∧
      (hfBufWrite s w v).mem = s.mem ∧
      (hfBufWrite s w v).tag.store = s.tag.store ∧
      (hfBufWrite s w v).boot.keys = s.boot.keys := by
  simp [hfBufWrite]

/-! ### Commit -/

@[simp] theorem zonesFollow_kept (s0 s : State) :
    (zonesFollow s0 s).pending = s.pending ∧
      (zonesFollow s0 s).mem = s.mem ∧
      (zonesFollow s0 s).tag.store = s.tag.store ∧
      (zonesFollow s0 s).boot.keys = s.boot.keys := by
  simp [zonesFollow]

@[simp] theorem radApplied_kept (s0 s : State) :
    (radApplied s0 s).pending = s.pending ∧
      (radApplied s0 s).mem = s.mem ∧
      (radApplied s0 s).tag.store = s.tag.store ∧
      (radApplied s0 s).boot.keys = s.boot.keys := by
  simp [radApplied]

@[simp] theorem brmApplied_kept (s0 s : State) :
    (brmApplied s0 s).pending = s.pending ∧
      (brmApplied s0 s).mem = s.mem ∧
      (brmApplied s0 s).tag.store = s.tag.store ∧
      (brmApplied s0 s).boot.keys = s.boot.keys := by
  simp [brmApplied]

@[simp] theorem grsApplied_kept (s0 s : State) :
    (grsApplied s0 s).pending = s.pending ∧
      (grsApplied s0 s).mem = s.mem ∧
      (grsApplied s0 s).tag.store = s.tag.store ∧
      (grsApplied s0 s).boot.keys = s.boot.keys := by
  simp [grsApplied]

@[simp] theorem sysApplied_kept (s0 s : State) :
    (sysApplied s0 s).pending = s.pending ∧
      (sysApplied s0 s).mem = s.mem ∧
      (sysApplied s0 s).tag.store = s.tag.store ∧
      (sysApplied s0 s).boot.keys = s.boot.keys := by
  simp [sysApplied]

@[simp] theorem afterSwap_kept (s0 s : State) (b : BlockInst) :
    (afterSwap s0 s b).pending = s.pending ∧
      (afterSwap s0 s b).mem = s.mem ∧
      (afterSwap s0 s b).tag.store = s.tag.store ∧
      (afterSwap s0 s b).boot.keys = s.boot.keys := by
  unfold afterSwap; split <;> simp

@[simp] theorem calCompleted_kept (s : State) (x : CalInst) :
    (calCompleted s x).pending = s.pending ∧
      (calCompleted s x).mem = s.mem ∧
      (calCompleted s x).tag.store = s.tag.store ∧
      (calCompleted s x).boot.keys = s.boot.keys := by
  simp [calCompleted]

@[simp] theorem calCommitted_kept (s : State) (changed covered : List Nat) :
    (calCommitted s changed covered).pending = s.pending ∧
      (calCommitted s changed covered).mem = s.mem ∧
      (calCommitted s changed covered).tag.store = s.tag.store ∧
      (calCommitted s changed covered).boot.keys = s.boot.keys := by
  simp [calCommitted]

@[simp] theorem tuningChanged_kept (s : State) (changed : List Nat) :
    (tuningChanged s changed).pending = s.pending ∧
      (tuningChanged s changed).mem = s.mem ∧
      (tuningChanged s changed).tag.store = s.tag.store ∧
      (tuningChanged s changed).boot.keys = s.boot.keys := by
  simp [tuningChanged]

@[simp] theorem acceptAll_kept (s : State) (b : BlockInst) :
    (acceptAll s b).pending = s.pending ∧
      (acceptAll s b).mem = s.mem ∧
      (acceptAll s b).tag.store = s.tag.store ∧
      (acceptAll s b).boot.keys = s.boot.keys := by
  simp [acceptAll]

@[simp] theorem setParts_kept (s : State) (blk : Block) (l : List Nat) :
    (setParts s blk l).pending = s.pending ∧
      (setParts s blk l).mem = s.mem ∧
      (setParts s blk l).tag.store = s.tag.store ∧
      (setParts s blk l).boot.keys = s.boot.keys := by
  simp [setParts]

@[simp] theorem clearParts_kept (s : State) (blk : Block) :
    (clearParts s blk).pending = s.pending ∧
      (clearParts s blk).mem = s.mem ∧
      (clearParts s blk).tag.store = s.tag.store ∧
      (clearParts s blk).boot.keys = s.boot.keys := by
  simp [clearParts]

@[simp] theorem partSwap_kept (s : State) (b : BlockInst) (n : Nat) :
    (partSwap s b n).pending = s.pending ∧
      (partSwap s b n).mem = s.mem ∧
      (partSwap s b n).tag.store = s.tag.store ∧
      (partSwap s b n).boot.keys = s.boot.keys := by
  unfold partSwap; split <;> simp

@[simp] theorem acceptParts_kept (s : State) (b : BlockInst) :
    (acceptParts s b).pending = s.pending ∧
      (acceptParts s b).mem = s.mem ∧
      (acceptParts s b).tag.store = s.tag.store ∧
      (acceptParts s b).boot.keys = s.boot.keys := by
  simp [acceptParts]

@[simp] theorem boundary_kept (s : State) (b : BlockInst) :
    (boundary s b).pending = s.pending ∧
      (boundary s b).mem = s.mem ∧
      (boundary s b).tag.store = s.tag.store ∧
      (boundary s b).boot.keys = s.boot.keys := by
  unfold boundary; (repeat' split) <;> simp

@[simp] theorem settle_kept (s : State) :
    (settle s).pending = s.pending ∧
      (settle s).mem = s.mem ∧
      (settle s).tag.store = s.tag.store ∧
      (settle s).boot.keys = s.boot.keys := by
  simp [settle]

@[simp] theorem swapPart_kept (s : State) (b : BlockInst) (n : Nat) :
    (swapPart s b n).pending = s.pending ∧
      (swapPart s b n).mem = s.mem ∧
      (swapPart s b n).tag.store = s.tag.store ∧
      (swapPart s b n).boot.keys = s.boot.keys := by
  simp [swapPart]

@[simp] theorem requestCommit_kept (s : State) (b : BlockInst) :
    (requestCommit s b).pending = s.pending ∧
      (requestCommit s b).mem = s.mem ∧
      (requestCommit s b).tag.store = s.tag.store ∧
      (requestCommit s b).boot.keys = s.boot.keys := by
  simp [requestCommit]

@[simp] theorem discard_kept (s : State) (b : BlockInst) :
    (discard s b).pending = s.pending ∧
      (discard s b).mem = s.mem ∧
      (discard s b).tag.store = s.tag.store ∧
      (discard s b).boot.keys = s.boot.keys := by
  unfold discard; (repeat' split) <;> simp

@[simp] theorem commitWrite_kept (s : State) (b : BlockInst) (v : Word) :
    (commitWrite s b v).pending = s.pending ∧
      (commitWrite s b v).mem = s.mem ∧
      (commitWrite s b v).tag.store = s.tag.store ∧
      (commitWrite s b v).boot.keys = s.boot.keys := by
  simp [commitWrite]

/-! ### Cal -/

@[simp] theorem stageWord_kept (s : State) (a : Nat) (v : Word) :
    (stageWord s a v).pending = s.pending ∧
      (stageWord s a v).mem = s.mem ∧
      (stageWord s a v).tag.store = s.tag.store ∧
      (stageWord s a v).boot.keys = s.boot.keys := by
  unfold stageWord; split <;> simp

@[simp] theorem commitNow_kept (s : State) (b : BlockInst) :
    (commitNow s b).1.pending = s.pending ∧
      (commitNow s b).1.mem = s.mem ∧
      (commitNow s b).1.tag.store = s.tag.store ∧
      (commitNow s b).1.boot.keys = s.boot.keys := by
  simp [commitNow]

@[simp] theorem loadBaseline_kept (s : State) (w : Word) :
    (loadBaseline s w).pending = s.pending ∧
      (loadBaseline s w).mem = s.mem ∧
      (loadBaseline s w).tag.store = s.tag.store ∧
      (loadBaseline s w).boot.keys = s.boot.keys := by
  simp [loadBaseline]

@[simp] theorem calLoad_kept (s : State) (item inst : Nat) (words : List Word) :
    (calLoad s item inst words).1.pending = s.pending ∧
      (calLoad s item inst words).1.mem = s.mem ∧
      (calLoad s item inst words).1.tag.store = s.tag.store ∧
      (calLoad s item inst words).1.boot.keys = s.boot.keys := by
  simp [calLoad]

@[simp] theorem calFail_kept (s : State) (item inst : Nat) :
    (calFail s item inst).pending = s.pending ∧
      (calFail s item inst).mem = s.mem ∧
      (calFail s item inst).tag.store = s.tag.store ∧
      (calFail s item inst).boot.keys = s.boot.keys := by
  simp [calFail]

@[simp] theorem calFigure_kept (s : State) (x : CalInst) :
    (calFigure s x).1.pending = s.pending ∧
      (calFigure s x).1.mem = s.mem ∧
      (calFigure s x).1.tag.store = s.tag.store ∧
      (calFigure s x).1.boot.keys = s.boot.keys := by
  unfold calFigure; split <;> simp

@[simp] theorem calWord_kept (s : State) (p : Nat × Word) :
    (calWord s p).pending = s.pending ∧
      (calWord s p).mem = s.mem ∧
      (calWord s p).tag.store = s.tag.store ∧
      (calWord s p).boot.keys = s.boot.keys := by
  simp [calWord]

@[simp] theorem calWrite_kept (s : State) (item inst : Nat) (values : List (Nat × Word)) :
    (calWrite s item inst values).pending = s.pending ∧
      (calWrite s item inst values).mem = s.mem ∧
      (calWrite s item inst values).tag.store = s.tag.store ∧
      (calWrite s item inst values).boot.keys = s.boot.keys := by
  simp [calWrite]

@[simp] theorem calApply_kept (s : State) (item inst : Nat) :
    (calApply s item inst).pending = s.pending ∧
      (calApply s item inst).mem = s.mem ∧
      (calApply s item inst).tag.store = s.tag.store ∧
      (calApply s item inst).boot.keys = s.boot.keys := by
  unfold calApply; simp only []; (repeat' split) <;> simp_all

@[simp] theorem calApplyIdle_kept (s : State) (item inst : Nat) :
    (calApplyIdle s item inst).pending = s.pending ∧
      (calApplyIdle s item inst).mem = s.mem ∧
      (calApplyIdle s item inst).tag.store = s.tag.store ∧
      (calApplyIdle s item inst).boot.keys = s.boot.keys := by
  simp [calApplyIdle]

@[simp] theorem calComplete_kept (s : State) (item inst : Nat) :
    (calComplete s item inst).pending = s.pending ∧
      (calComplete s item inst).mem = s.mem ∧
      (calComplete s item inst).tag.store = s.tag.store ∧
      (calComplete s item inst).boot.keys = s.boot.keys := by
  simp [calComplete]

@[simp] theorem calPathsOn_kept (s : State) (mask : Nat) :
    (calPathsOn s mask).pending = s.pending ∧
      (calPathsOn s mask).mem = s.mem ∧
      (calPathsOn s mask).tag.store = s.tag.store ∧
      (calPathsOn s mask).boot.keys = s.boot.keys := by
  simp [calPathsOn]

@[simp] theorem calPathsIdle_kept (s : State) (item inst : Nat) :
    (calPathsIdle s item inst).pending = s.pending ∧
      (calPathsIdle s item inst).mem = s.mem ∧
      (calPathsIdle s item inst).tag.store = s.tag.store ∧
      (calPathsIdle s item inst).boot.keys = s.boot.keys := by
  simp [calPathsIdle]

@[simp] theorem calCarrier_kept (s : State) (port idx c : Nat) :
    (calCarrier s port idx c).pending = s.pending ∧
      (calCarrier s port idx c).mem = s.mem ∧
      (calCarrier s port idx c).tag.store = s.tag.store ∧
      (calCarrier s port idx c).boot.keys = s.boot.keys := by
  simp [calCarrier]

@[simp] theorem calShow_kept (s : State) (x : CalInst) :
    (calShow s x).pending = s.pending ∧
      (calShow s x).mem = s.mem ∧
      (calShow s x).tag.store = s.tag.store ∧
      (calShow s x).boot.keys = s.boot.keys := by
  unfold calShow; (repeat' split) <;> simp

@[simp] theorem calStart_kept (s : State) (x : CalInst) (mask : Nat) :
    (calStart s x mask).pending = s.pending ∧
      (calStart s x mask).mem = s.mem ∧
      (calStart s x mask).tag.store = s.tag.store ∧
      (calStart s x mask).boot.keys = s.boot.keys := by
  simp [calStart]

@[simp] theorem calStepDone_kept (s : State) (item inst : Nat) (r : StepResult) :
    (calStepDone s item inst r).pending = s.pending ∧
      (calStepDone s item inst r).mem = s.mem ∧
      (calStepDone s item inst r).tag.store = s.tag.store ∧
      (calStepDone s item inst r).boot.keys = s.boot.keys := by
  simp [calStepDone]

@[simp] theorem gorseTrim_kept (s : State) (trim : Byte) :
    (gorseTrim s trim).pending = s.pending ∧
      (gorseTrim s trim).mem = s.mem ∧
      (gorseTrim s trim).tag.store = s.tag.store ∧
      (gorseTrim s trim).boot.keys = s.boot.keys := by
  simp [gorseTrim]

@[simp] theorem calResult_kept (s : State) (r : Nat) :
    (calResult s r).pending = s.pending ∧
      (calResult s r).mem = s.mem ∧
      (calResult s r).tag.store = s.tag.store ∧
      (calResult s r).boot.keys = s.boot.keys := by
  simp [calResult]

@[simp] theorem calRefuse_kept (s : State) (why : Nat) :
    (calRefuse s why).pending = s.pending ∧
      (calRefuse s why).mem = s.mem ∧
      (calRefuse s why).tag.store = s.tag.store ∧
      (calRefuse s why).boot.keys = s.boot.keys := by
  simp [calRefuse]

@[simp] theorem calCommand_kept_pend (s : State) (key : BitVec 16) (run : State → State) (h_run : ∀ t, (run t).pending = t.pending) :
    (calCommand s key run).pending = s.pending := by
  simp [h_run, calCommand]

@[simp] theorem calCommand_kept_mem (s : State) (key : BitVec 16) (run : State → State) (h_run : ∀ t, (run t).mem = t.mem) :
    (calCommand s key run).mem = s.mem := by
  simp [h_run, calCommand]

@[simp] theorem calCommand_kept_store (s : State) (key : BitVec 16) (run : State → State) (h_run : ∀ t, (run t).tag.store = t.tag.store) :
    (calCommand s key run).tag.store = s.tag.store := by
  simp [h_run, calCommand]

@[simp] theorem calCommand_kept_keys (s : State) (key : BitVec 16) (run : State → State) (h_run : ∀ t, (run t).boot.keys = t.boot.keys) :
    (calCommand s key run).boot.keys = s.boot.keys := by
  simp [h_run, calCommand]

@[simp] theorem calCommand_wf_nor (s : State) (key : BitVec 16) (run : State → State) (h_run : ∀ t, bytesWf t.mem.nor = true → bytesWf (run t).mem.nor = true) (hs : bytesWf s.mem.nor = true) :
    bytesWf (calCommand s key run).mem.nor = true := by
  unfold calCommand; split <;> simp [h_run, hs]

@[simp] theorem calCommand_wf_store (s : State) (key : BitVec 16) (run : State → State) (h_run : ∀ t, bytesWf t.tag.store = true → bytesWf (run t).tag.store = true) (hs : bytesWf s.tag.store = true) :
    bytesWf (calCommand s key run).tag.store = true := by
  unfold calCommand; split <;> simp [h_run, hs]

@[simp] theorem calRun_kept (s : State) (item inst : Nat) :
    (calRun s item inst).pending = s.pending ∧
      (calRun s item inst).mem = s.mem ∧
      (calRun s item inst).tag.store = s.tag.store ∧
      (calRun s item inst).boot.keys = s.boot.keys := by
  simp [calRun]

@[simp] theorem calSave_kept (s : State) (items : Nat) (verifyOk : Bool) :
    (calSave s items verifyOk).pending = s.pending ∧
      (calSave s items verifyOk).tag.store = s.tag.store ∧
      (calSave s items verifyOk).boot.keys = s.boot.keys := by
  unfold calSave
  dsimp only
  split <;> simp

@[simp] theorem calSave_wf_mem (s : State) (items : Nat) (verifyOk : Bool) (hs : bytesWf s.mem.nor = true) :
    bytesWf (calSave s items verifyOk).mem.nor = true := by
  unfold calSave
  dsimp only
  split <;> simp [hs]

@[simp] theorem restoreRec_kept (items : List Nat) (s : State) (r : Rec) :
    (restoreRec items s r).pending = s.pending ∧
      (restoreRec items s r).mem = s.mem ∧
      (restoreRec items s r).tag.store = s.tag.store ∧
      (restoreRec items s r).boot.keys = s.boot.keys := by
  simp [restoreRec]

@[simp] theorem calRestore_kept (s : State) (items : Nat) :
    (calRestore s items).pending = s.pending ∧
      (calRestore s items).mem = s.mem ∧
      (calRestore s items).tag.store = s.tag.store ∧
      (calRestore s items).boot.keys = s.boot.keys := by
  unfold calRestore; split <;> simp

@[simp] theorem calPriv_kept_pend (s : State) (lvl : Level) (run : State → State) (h_run : ∀ t, (run t).pending = t.pending) :
    (calPriv s lvl run).pending = s.pending := by
  simp [h_run, calPriv]

@[simp] theorem calPriv_kept_mem (s : State) (lvl : Level) (run : State → State) (h_run : ∀ t, (run t).mem = t.mem) :
    (calPriv s lvl run).mem = s.mem := by
  simp [h_run, calPriv]

@[simp] theorem calPriv_kept_store (s : State) (lvl : Level) (run : State → State) (h_run : ∀ t, (run t).tag.store = t.tag.store) :
    (calPriv s lvl run).tag.store = s.tag.store := by
  simp [h_run, calPriv]

@[simp] theorem calPriv_kept_keys (s : State) (lvl : Level) (run : State → State) (h_run : ∀ t, (run t).boot.keys = t.boot.keys) :
    (calPriv s lvl run).boot.keys = s.boot.keys := by
  simp [h_run, calPriv]

@[simp] theorem calPriv_wf_nor (s : State) (lvl : Level) (run : State → State) (h_run : ∀ t, bytesWf t.mem.nor = true → bytesWf (run t).mem.nor = true) (hs : bytesWf s.mem.nor = true) :
    bytesWf (calPriv s lvl run).mem.nor = true := by
  unfold calPriv; split <;> simp [h_run, hs]

@[simp] theorem calPriv_wf_store (s : State) (lvl : Level) (run : State → State) (h_run : ∀ t, bytesWf t.tag.store = true → bytesWf (run t).tag.store = true) (hs : bytesWf s.tag.store = true) :
    bytesWf (calPriv s lvl run).tag.store = true := by
  unfold calPriv; split <;> simp [h_run, hs]

@[simp] theorem calTurn_kept_pend (s : State) (lvl : Level) (cmd : Instr) (run : State → State) (h_run : ∀ t, (run t).pending = t.pending) :
    (calTurn s lvl cmd run).pending = s.pending := by
  simp [h_run, calTurn]

@[simp] theorem calTurn_kept_mem (s : State) (lvl : Level) (cmd : Instr) (run : State → State) (h_run : ∀ t, (run t).mem = t.mem) :
    (calTurn s lvl cmd run).mem = s.mem := by
  simp [h_run, calTurn]

@[simp] theorem calTurn_kept_store (s : State) (lvl : Level) (cmd : Instr) (run : State → State) (h_run : ∀ t, (run t).tag.store = t.tag.store) :
    (calTurn s lvl cmd run).tag.store = s.tag.store := by
  simp [h_run, calTurn]

@[simp] theorem calTurn_kept_keys (s : State) (lvl : Level) (cmd : Instr) (run : State → State) (h_run : ∀ t, (run t).boot.keys = t.boot.keys) :
    (calTurn s lvl cmd run).boot.keys = s.boot.keys := by
  simp [h_run, calTurn]

@[simp] theorem calTurn_wf_nor (s : State) (lvl : Level) (cmd : Instr) (run : State → State) (h_run : ∀ t, bytesWf t.mem.nor = true → bytesWf (run t).mem.nor = true) (hs : bytesWf s.mem.nor = true) :
    bytesWf (calTurn s lvl cmd run).mem.nor = true := by
  unfold calTurn
  apply calPriv_wf_nor _ _ _ _ hs
  intro t ht
  exact turn_wf_nor _ _ _ _ _ h_run (fun u hu => by simp [hu]) ht

@[simp] theorem calTurn_wf_store (s : State) (lvl : Level) (cmd : Instr) (run : State → State) (h_run : ∀ t, bytesWf t.tag.store = true → bytesWf (run t).tag.store = true) (hs : bytesWf s.tag.store = true) :
    bytesWf (calTurn s lvl cmd run).tag.store = true := by
  unfold calTurn
  apply calPriv_wf_store _ _ _ _ hs
  intro t ht
  exact turn_wf_store _ _ _ _ _ h_run (fun u hu => by simp [hu]) ht

@[simp] theorem calSaveRun_kept (s : State) (items : Nat) (verifyOk : Bool) :
    (calSaveRun s items verifyOk).pending = s.pending ∧
      (calSaveRun s items verifyOk).tag.store = s.tag.store ∧
      (calSaveRun s items verifyOk).boot.keys = s.boot.keys := by
  simp [calSaveRun]

@[simp] theorem calSaveRun_wf_mem (s : State) (items : Nat) (verifyOk : Bool) (hs : bytesWf s.mem.nor = true) :
    bytesWf (calSaveRun s items verifyOk).mem.nor = true := by
  simp [hs, calSaveRun]

@[simp] theorem calRestoreRun_kept (s : State) (items : Nat) :
    (calRestoreRun s items).pending = s.pending ∧
      (calRestoreRun s items).mem = s.mem ∧
      (calRestoreRun s items).tag.store = s.tag.store ∧
      (calRestoreRun s items).boot.keys = s.boot.keys := by
  simp [calRestoreRun]

@[simp] theorem calService_kept_pend (s : State) (lvl : Level) (run : State → State) (h_run : ∀ t, (run t).pending = t.pending) :
    (calService s lvl run).pending = s.pending := by
  simp [h_run, calService]

@[simp] theorem calService_kept_mem (s : State) (lvl : Level) (run : State → State) (h_run : ∀ t, (run t).mem = t.mem) :
    (calService s lvl run).mem = s.mem := by
  simp [h_run, calService]

@[simp] theorem calService_kept_store (s : State) (lvl : Level) (run : State → State) (h_run : ∀ t, (run t).tag.store = t.tag.store) :
    (calService s lvl run).tag.store = s.tag.store := by
  simp [h_run, calService]

@[simp] theorem calService_kept_keys (s : State) (lvl : Level) (run : State → State) (h_run : ∀ t, (run t).boot.keys = t.boot.keys) :
    (calService s lvl run).boot.keys = s.boot.keys := by
  simp [h_run, calService]

@[simp] theorem calService_wf_nor (s : State) (lvl : Level) (run : State → State) (h_run : ∀ t, bytesWf t.mem.nor = true → bytesWf (run t).mem.nor = true) (hs : bytesWf s.mem.nor = true) :
    bytesWf (calService s lvl run).mem.nor = true := by
  unfold calService
  apply calPriv_wf_nor _ _ _ _ hs
  intro t ht
  split
  · exact h_run t ht
  · simpa using ht

@[simp] theorem calService_wf_store (s : State) (lvl : Level) (run : State → State) (h_run : ∀ t, bytesWf t.tag.store = true → bytesWf (run t).tag.store = true) (hs : bytesWf s.tag.store = true) :
    bytesWf (calService s lvl run).tag.store = true := by
  unfold calService
  apply calPriv_wf_store _ _ _ _ hs
  intro t ht
  split
  · exact h_run t ht
  · simpa using ht

@[simp] theorem tracedSet_kept (s : State) (item inst : Nat) (values : List (Nat × Word)) :
    (tracedSet s item inst values).pending = s.pending ∧
      (tracedSet s item inst values).mem = s.mem ∧
      (tracedSet s item inst values).tag.store = s.tag.store ∧
      (tracedSet s item inst values).boot.keys = s.boot.keys := by
  simp [tracedSet]

@[simp] theorem traceRx_kept (s : State) (k : Nat) (measured ferr : Int) :
    (traceRx s k measured ferr).pending = s.pending ∧
      (traceRx s k measured ferr).mem = s.mem ∧
      (traceRx s k measured ferr).tag.store = s.tag.store ∧
      (traceRx s k measured ferr).boot.keys = s.boot.keys := by
  simp [traceRx]

@[simp] theorem traceRxTaken_kept (s : State) :
    (traceRxTaken s).pending = s.pending ∧
      (traceRxTaken s).mem = s.mem ∧
      (traceRxTaken s).tag.store = s.tag.store ∧
      (traceRxTaken s).boot.keys = s.boot.keys := by
  simp [traceRxTaken]

@[simp] theorem traceRxTurn_kept (s : State) (k : Nat) (measured ferr : Int) :
    (traceRxTurn s k measured ferr).pending = s.pending ∧
      (traceRxTurn s k measured ferr).mem = s.mem ∧
      (traceRxTurn s k measured ferr).tag.store = s.tag.store ∧
      (traceRxTurn s k measured ferr).boot.keys = s.boot.keys := by
  simp [traceRxTurn]

@[simp] theorem traceRxGo_kept (s : State) :
    (traceRxGo s).pending = s.pending ∧
      (traceRxGo s).mem = s.mem ∧
      (traceRxGo s).tag.store = s.tag.store ∧
      (traceRxGo s).boot.keys = s.boot.keys := by
  unfold traceRxGo; split <;> simp

@[simp] theorem traceRxPost_kept (s : State) :
    (traceRxPost s).pending = s.pending ∧
      (traceRxPost s).mem = s.mem ∧
      (traceRxPost s).tag.store = s.tag.store ∧
      (traceRxPost s).boot.keys = s.boot.keys := by
  unfold traceRxPost; split <;> simp

@[simp] theorem traceGo_kept (s : State) :
    (traceGo s).pending = s.pending ∧
      (traceGo s).mem = s.mem ∧
      (traceGo s).tag.store = s.tag.store ∧
      (traceGo s).boot.keys = s.boot.keys := by
  unfold traceGo; split <;> simp

@[simp] theorem traceOff_kept (s : State) :
    (traceOff s).pending = s.pending ∧
      (traceOff s).mem = s.mem ∧
      (traceOff s).tag.store = s.tag.store ∧
      (traceOff s).boot.keys = s.boot.keys := by
  simp [traceOff]

@[simp] theorem traceAbort_kept (s : State) :
    (traceAbort s).pending = s.pending ∧
      (traceAbort s).mem = s.mem ∧
      (traceAbort s).tag.store = s.tag.store ∧
      (traceAbort s).boot.keys = s.boot.keys := by
  simp [traceAbort]

@[simp] theorem traceRxAbort_kept (s : State) :
    (traceRxAbort s).pending = s.pending ∧
      (traceRxAbort s).mem = s.mem ∧
      (traceRxAbort s).tag.store = s.tag.store ∧
      (traceRxAbort s).boot.keys = s.boot.keys := by
  simp [traceRxAbort]

@[simp] theorem traceTx_kept (s : State) :
    (traceTx s).pending = s.pending ∧
      (traceTx s).mem = s.mem ∧
      (traceTx s).tag.store = s.tag.store ∧
      (traceTx s).boot.keys = s.boot.keys := by
  simp [traceTx]

@[simp] theorem traceEnd_kept (s : State) :
    (traceEnd s).pending = s.pending ∧
      (traceEnd s).mem = s.mem ∧
      (traceEnd s).tag.store = s.tag.store ∧
      (traceEnd s).boot.keys = s.boot.keys := by
  unfold traceEnd; split <;> simp

@[simp] theorem calCmdWrite_kept (s : State) (lvl : Level) (v : Word) :
    (calCmdWrite s lvl v).pending = s.pending ∧
      (calCmdWrite s lvl v).tag.store = s.tag.store ∧
      (calCmdWrite s lvl v).boot.keys = s.boot.keys := by
  unfold calCmdWrite; split <;> simp

@[simp] theorem calCmdWrite_wf_mem (s : State) (lvl : Level) (v : Word) (hs : bytesWf s.mem.nor = true) :
    bytesWf (calCmdWrite s lvl v).mem.nor = true := by
  unfold calCmdWrite
  apply calCommand_wf_nor _ _ _ _ hs
  intro t ht
  dsimp only
  split
  · simp [ht]
  · exact calTurn_wf_nor _ _ _ _ (fun u hu => by simp [hu]) (by simp [ht])
  · exact calTurn_wf_nor _ _ _ _ (fun u hu => by simp [hu]) ht
  · exact calService_wf_nor _ _ _ (fun u hu => by split <;> simp [hu]) ht
  · exact calService_wf_nor _ _ _ (fun u hu => by simpa using hu) ht
  · exact calService_wf_nor _ _ _ (fun u hu => by simpa using hu) ht
  · exact ht

@[simp] theorem freeBits_kept (s : State) (a : Nat) (mask : Word) (fixed : Word) :
    (freeBits s a mask fixed).pending = s.pending ∧
      (freeBits s a mask fixed).mem = s.mem ∧
      (freeBits s a mask fixed).tag.store = s.tag.store ∧
      (freeBits s a mask fixed).boot.keys = s.boot.keys := by
  simp [freeBits]

@[simp] theorem slotMeasured_kept (p : RfPath) (s : State) (c : Nat) :
    (slotMeasured p s c).pending = s.pending ∧
      (slotMeasured p s c).mem = s.mem ∧
      (slotMeasured p s c).tag.store = s.tag.store ∧
      (slotMeasured p s c).boot.keys = s.boot.keys := by
  unfold slotMeasured; (repeat' split) <;> simp

@[simp] theorem calMeasured_kept (s : State) (item inst : Nat) :
    (calMeasured s item inst).pending = s.pending ∧
      (calMeasured s item inst).mem = s.mem ∧
      (calMeasured s item inst).tag.store = s.tag.store ∧
      (calMeasured s item inst).boot.keys = s.boot.keys := by
  unfold calMeasured; split <;> simp

@[simp] theorem calPowerFail_kept (s : State) (item inst : Nat) :
    (calPowerFail s item inst).pending = s.pending ∧
      (calPowerFail s item inst).mem = s.mem ∧
      (calPowerFail s item inst).tag.store = s.tag.store ∧
      (calPowerFail s item inst).boot.keys = s.boot.keys := by
  simp [calPowerFail]

@[simp] theorem calPowerUp_kept (s : State) (fails : List (Nat × Nat)) (nopll : Bool) :
    (calPowerUp s fails nopll).pending = s.pending ∧
      (calPowerUp s fails nopll).mem = s.mem ∧
      (calPowerUp s fails nopll).tag.store = s.tag.store ∧
      (calPowerUp s fails nopll).boot.keys = s.boot.keys := by
  simp [calPowerUp]

end Sys2Proof.Machine
end

