-- ==== Sys2Proof/Laws/KeptHost.lean ====
section
/-! SUPPORT. What the scheduler commands, the modes, the resets, the host port, the records and the start leave alone: the queue, the memory device, the tag store and the
keys, but for those that write them, which keep the canonical form of the store they write. -/

open Sys2Proof

namespace Sys2Proof.Machine

/-! ### SchedCmds -/

@[simp] theorem gapStart_kept (s : State) (path mask : Nat) :
    (gapStart s path mask).pending = s.pending ∧
      (gapStart s path mask).mem = s.mem ∧
      (gapStart s path mask).tag.store = s.tag.store ∧
      (gapStart s path mask).boot.keys = s.boot.keys := by
  unfold gapStart; simp only []; (repeat' split) <;> simp_all

@[simp] theorem entryStart_kept (s : State) (g : Grant) (i : Nat) :
    (entryStart s g i).pending = s.pending ∧
      (entryStart s g i).mem = s.mem ∧
      (entryStart s g i).tag.store = s.tag.store ∧
      (entryStart s g i).boot.keys = s.boot.keys := by
  unfold entryStart; split <;> simp

@[simp] theorem tagStill_kept_pend (s : State) (run : State → State) (h_run : ∀ t, (run t).pending = t.pending) :
    (tagStill s run).pending = s.pending := by
  simp [h_run, tagStill]

@[simp] theorem tagStill_kept_mem (s : State) (run : State → State) (h_run : ∀ t, (run t).mem = t.mem) :
    (tagStill s run).mem = s.mem := by
  simp [h_run, tagStill]

@[simp] theorem tagStill_kept_store (s : State) (run : State → State) (h_run : ∀ t, (run t).tag.store = t.tag.store) :
    (tagStill s run).tag.store = s.tag.store := by
  simp [h_run, tagStill]

@[simp] theorem tagStill_kept_keys (s : State) (run : State → State) (h_run : ∀ t, (run t).boot.keys = t.boot.keys) :
    (tagStill s run).boot.keys = s.boot.keys := by
  simp [h_run, tagStill]

@[simp] theorem tagStill_wf_nor (s : State) (run : State → State) (h_run : ∀ t, bytesWf t.mem.nor = true → bytesWf (run t).mem.nor = true) (hs : bytesWf s.mem.nor = true) :
    bytesWf (tagStill s run).mem.nor = true := by
  unfold tagStill; split <;> simp [h_run, hs]

@[simp] theorem tagStill_wf_store (s : State) (run : State → State) (h_run : ∀ t, bytesWf t.tag.store = true → bytesWf (run t).tag.store = true) (hs : bytesWf s.tag.store = true) :
    bytesWf (tagStill s run).tag.store = true := by
  unfold tagStill; split <;> simp [h_run, hs]

@[simp] theorem runOp_mspRead (s : State) : ∀ x1 a, runOp s (.mspRead x1 a) = mspRead s a.toNat := fun _ _ => rfl

@[simp] theorem runOp_mspProgram (s : State) : ∀ x1 a ok, runOp s (.mspProgram x1 a ok) = mspProgram s a.toNat ok := fun _ _ _ => rfl

@[simp] theorem runOp_mspErase (s : State) : ∀ x1 a, runOp s (.mspErase x1 a) = mspErase s a.toNat := fun _ _ => rfl

@[simp] theorem runOp_journalRead (s : State) : ∀ x1 x2 ok, runOp s (.journalRead x1 x2 ok) = jload s ok := fun _ _ _ => rfl

@[simp] theorem runOp_format (s : State) : ∀ x1 x2, runOp s (.format x1 x2) = jformatRun s := fun _ _ => rfl

@[simp] theorem runOp_journalFlush (s : State) : ∀ x1 x2, runOp s (.journalFlush x1 x2) = jflush s := fun _ _ => rfl

@[simp] theorem runOp_jnlFlushTimeout (s : State) : runOp s (.jnlFlushTimeout) = jflush s := rfl

@[simp] theorem runOp_journalPageProgram (s : State) : ∀ ok, runOp s (.journalPageProgram ok) = jpageProgram s ok := fun _ => rfl

@[simp] theorem runOp_journalErase (s : State) : ∀ ok, runOp s (.journalErase ok) = jerase s ok := fun _ => rfl

@[simp] theorem runOp_save (s : State) : ∀ x1 x2 items ok, runOp s (.save x1 x2 items ok) = calSaveRun s items.toNat ok := fun _ _ _ _ => rfl

@[simp] theorem runOp_restore (s : State) : ∀ x1 x2 items, runOp s (.restore x1 x2 items) = calRestoreRun s items.toNat := fun _ _ _ => rfl

@[simp] theorem runOp_cacheFill (s : State) : ∀ i, runOp s (.cacheFill i) = cacheFill s i := fun _ => rfl

@[simp] theorem runOp_slateRead (s : State) : ∀ x1 i, runOp s (.slateRead x1 i) = slateReadFill s i := fun _ _ => rfl

@[simp] theorem runOp_slateReadback (s : State) : ∀ good, runOp s (.slateReadback good) = slateReadback s good := fun _ => rfl

@[simp] theorem runOp_writeSingleBlock (s : State) : ∀ x1 block data prog, runOp s (.writeSingleBlock x1 block data prog) = tagStill s fun t => fieldProgram t block.toNat [data] prog := fun _ _ _ _ => rfl

@[simp] theorem runOp_writeMultipleBlocks (s : State) : ∀ x1 first data prog, runOp s (.writeMultipleBlocks x1 first data prog) = tagStill s fun t => fieldProgram t first.toNat data prog := fun _ _ _ _ => rfl

@[simp] theorem runOp_extendedWriteSingleBlock (s : State) : ∀ x1 block data prog, runOp s (.extendedWriteSingleBlock x1 block data prog) = tagStill s fun t => fieldProgram t block.toNat [data] prog := fun _ _ _ _ => rfl

@[simp] theorem runOp_extendedWriteMultipleBlocks (s : State) : ∀ x1 first data prog, runOp s (.extendedWriteMultipleBlocks x1 first data prog) = tagStill s fun t => fieldProgram t first.toNat data prog := fun _ _ _ _ => rfl

@[simp] theorem runOp_aes1 (s : State) : ∀ x1 key rnr, runOp s (.aes1 x1 key rnr) = tagStill s fun t => aes1Run t key.toNat rnr := fun _ _ _ => rfl

@[simp] theorem runOp_aes2 (s : State) : ∀ x1 e2, runOp s (.aes2 x1 e2) = tagStill s fun t => aes2Turn t e2 := fun _ _ => rfl

@[simp] theorem runOp_faultLogWrite (s : State) : ∀ prog, runOp s (.faultLogWrite prog) = faultLogWrite s prog := fun _ => rfl

@[simp] theorem runOp_tagHostRead (s : State) : ∀ x1 page, runOp s (.tagHostRead x1 page) = tagHostRead s page.toNat := fun _ _ => rfl

@[simp] theorem runOp_tagCommitPoint (s : State) : ∀ prog, runOp s (.tagCommitPoint prog) = tagCommitPoint s prog := fun _ => rfl

@[simp] theorem runOp_clrfail (s : State) : ∀ x1, runOp s (.clrfail x1) = clrFail s := fun _ => rfl

@[simp] theorem runOp_gorsePing (s : State) : ∀ re im, runOp s (.gorsePing re im) = gorsePingRun s re im := fun _ _ => rfl

@[simp] theorem runOp_confirmPing (s : State) : ∀ re im, runOp s (.confirmPing re im) = confirmPingRun s re im := fun _ _ => rfl

@[simp] theorem runOp_gorseRefresh (s : State) : ∀ trim, runOp s (.gorseRefresh trim) = gorseTrim s trim := fun _ => rfl

@[simp] theorem runOp_linkFrameEnd (s : State) : ∀ x1 x2 x3, runOp s (.linkFrameEnd x1 x2 x3) = linkFrameDone s := fun _ _ _ => rfl

@[simp] theorem runOp_beaconInstant (s : State) : runOp s (.beaconInstant) = beaconTake s := rfl

@[simp] theorem runOp_dutyCheckpoint (s : State) : runOp s (.dutyCheckpoint) = beaconSecure (securingGo (ckptRun s)) := rfl

@[simp] theorem runOp_cardFrame (s : State) (rnt : BitVec 64) (e1 : BitVec 128) :
    runOp s (.cardFrame (.aes1 rnt e1)) = hfAesRun s rnt e1 := rfl

@[simp] theorem runOp_kept (s : State) (cmd : Instr) :
    (runOp s cmd).pending = s.pending := by
  cases cmd
  case mspRead => simp
  case mspProgram => simp
  case mspErase => simp
  case journalRead => simp
  case format => simp
  case journalFlush => simp
  case jnlFlushTimeout => simp
  case journalPageProgram => simp
  case journalErase => simp
  case save => simp
  case restore => simp
  case cacheFill => simp
  case slateRead => simp
  case slateReadback => simp
  case writeSingleBlock => simp
  case writeMultipleBlocks => simp
  case extendedWriteSingleBlock => simp
  case extendedWriteMultipleBlocks => simp
  case aes1 => simp
  case aes2 => simp
  case faultLogWrite => simp
  case tagHostRead => simp
  case tagCommitPoint => simp
  case clrfail => simp
  case gorsePing => simp
  case confirmPing => simp
  case gorseRefresh => simp
  case linkFrameEnd => simp
  case beaconInstant => simp
  case dutyCheckpoint => simp
  case cardFrame f =>
    cases f
    case aes1 => simp
    all_goals rfl
  all_goals rfl

@[simp] theorem runOp_wf_mem (s : State) (cmd : Instr) (hs : bytesWf s.mem.nor = true) :
    bytesWf (runOp s cmd).mem.nor = true := by
  cases cmd
  case mspRead => simp [hs]
  case mspProgram => simp [hs]
  case mspErase => simp [hs]
  case journalRead => simp [hs]
  case format => simp [hs]
  case journalFlush => simp [hs]
  case jnlFlushTimeout => simp [hs]
  case journalPageProgram => simp [hs]
  case journalErase => simp [hs]
  case save => simp [hs]
  case restore => simp [hs]
  case cacheFill => simp [hs]
  case slateRead => simp [hs]
  case slateReadback => simp [hs]
  case writeSingleBlock => simp [hs]
  case writeMultipleBlocks => simp [hs]
  case extendedWriteSingleBlock => simp [hs]
  case extendedWriteMultipleBlocks => simp [hs]
  case aes1 => simp [hs]
  case aes2 => simp [hs]
  case faultLogWrite => simp [hs]
  case tagHostRead => simp [hs]
  case tagCommitPoint => simp [hs]
  case clrfail => simp [hs]
  case gorsePing => simp [hs]
  case confirmPing => simp [hs]
  case gorseRefresh => simp [hs]
  case linkFrameEnd => simp [hs]
  case beaconInstant => simp [hs]
  case dutyCheckpoint => simp [hs]
  case cardFrame f =>
    cases f
    case aes1 => simp [hs]
    all_goals exact hs
  all_goals exact hs

@[simp] theorem runOp_wf_store (s : State) (cmd : Instr) (hs : bytesWf s.tag.store = true) :
    bytesWf (runOp s cmd).tag.store = true := by
  cases cmd
  case mspRead => simp [hs]
  case mspProgram => simp [hs]
  case mspErase => simp [hs]
  case journalRead => simp [hs]
  case format => simp [hs]
  case journalFlush => simp [hs]
  case jnlFlushTimeout => simp [hs]
  case journalPageProgram => simp [hs]
  case journalErase => simp [hs]
  case save => simp [hs]
  case restore => simp [hs]
  case cacheFill => simp [hs]
  case slateRead => simp [hs]
  case slateReadback => simp [hs]
  case writeSingleBlock => exact tagStill_wf_store _ _ (fun t ht => by simp [ht]) hs
  case writeMultipleBlocks => exact tagStill_wf_store _ _ (fun t ht => by simp [ht]) hs
  case extendedWriteSingleBlock => exact tagStill_wf_store _ _ (fun t ht => by simp [ht]) hs
  case extendedWriteMultipleBlocks => exact tagStill_wf_store _ _ (fun t ht => by simp [ht]) hs
  case aes1 => exact tagStill_wf_store _ _ (fun t ht => by simpa using ht) hs
  case aes2 => exact tagStill_wf_store _ _ (fun t ht => by simpa using ht) hs
  case faultLogWrite => simp [hs]
  case tagHostRead => simp [hs]
  case tagCommitPoint => simp [hs]
  case clrfail => simp [hs]
  case gorsePing => simp [hs]
  case confirmPing => simp [hs]
  case gorseRefresh => simp [hs]
  case linkFrameEnd => simp [hs]
  case beaconInstant => simp [hs]
  case dutyCheckpoint => simp [hs]
  case cardFrame f =>
    cases f
    case aes1 => simp [hs]
    all_goals exact hs
  all_goals exact hs

@[simp] theorem startOp_kept (s : State) (g : Grant) (cmd : Instr) (left : List WaitOp) :
    (startOp s g cmd left).pending = s.pending := by
  simp [startOp]

@[simp] theorem startOp_wf_mem (s : State) (g : Grant) (cmd : Instr) (left : List WaitOp) (hs : bytesWf s.mem.nor = true) :
    bytesWf (startOp s g cmd left).mem.nor = true := by
  simp [hs, startOp]

@[simp] theorem startOp_wf_store (s : State) (g : Grant) (cmd : Instr) (left : List WaitOp) (hs : bytesWf s.tag.store = true) :
    bytesWf (startOp s g cmd left).tag.store = true := by
  simp [hs, startOp]

@[simp] theorem startTopUp_kept (s : State) (g : Grant) :
    (startTopUp s g).pending = s.pending ∧
      (startTopUp s g).mem = s.mem ∧
      (startTopUp s g).tag.store = s.tag.store ∧
      (startTopUp s g).boot.keys = s.boot.keys := by
  simp [startTopUp]

@[simp] theorem startWork_kept (s : State) (g : Grant) :
    (startWork s g).pending = s.pending := by
  unfold startWork
  split
  · simp
  · cases g.topUp <;> cases g.who <;> simp

@[simp] theorem startWork_wf_mem (s : State) (g : Grant) (hs : bytesWf s.mem.nor = true) :
    bytesWf (startWork s g).mem.nor = true := by
  unfold startWork
  split
  · simp [hs]
  · cases g.topUp <;> cases g.who <;> simp [hs]

@[simp] theorem startWork_wf_store (s : State) (g : Grant) (hs : bytesWf s.tag.store = true) :
    bytesWf (startWork s g).tag.store = true := by
  unfold startWork
  split
  · simp [hs]
  · cases g.topUp <;> cases g.who <;> simp [hs]

@[simp] theorem rateSwitch_kept (s : State) (g : Grant) :
    (rateSwitch s g).pending = s.pending ∧
      (rateSwitch s g).mem = s.mem ∧
      (rateSwitch s g).tag.store = s.tag.store ∧
      (rateSwitch s g).boot.keys = s.boot.keys := by
  simp [rateSwitch]

@[simp] theorem startAll_kept (s : State) (fresh : List Grant) :
    (startAll s fresh).pending = s.pending := by
  simp [startAll]

@[simp] theorem startAll_wf_mem (s : State) (fresh : List Grant) (hs : bytesWf s.mem.nor = true) :
    bytesWf (startAll s fresh).mem.nor = true := by
  unfold startAll
  dsimp only
  have h1 : bytesWf (fresh.foldl rateSwitch (fresh.foldl (fun t g => rfStart t g.mask) s)).mem.nor = true :=
    foldl_keeps (fun t => bytesWf t.mem.nor = true) rateSwitch (fun t g ht => by simp [ht]) fresh _ (by simp [hs])
  exact foldl_keeps (fun t => bytesWf t.mem.nor = true) startWork (fun t g ht => startWork_wf_mem t g ht) fresh _ h1

@[simp] theorem startAll_wf_store (s : State) (fresh : List Grant) (hs : bytesWf s.tag.store = true) :
    bytesWf (startAll s fresh).tag.store = true := by
  unfold startAll
  dsimp only
  have h1 : bytesWf (fresh.foldl rateSwitch (fresh.foldl (fun t g => rfStart t g.mask) s)).tag.store = true :=
    foldl_keeps (fun t => bytesWf t.tag.store = true) rateSwitch (fun t g ht => by simp [ht]) fresh _ (by simp [hs])
  exact foldl_keeps (fun t => bytesWf t.tag.store = true) startWork (fun t g ht => startWork_wf_store t g ht) fresh _ h1

@[simp] theorem serviceBegin_kept (s : State) :
    (serviceBegin s).pending = s.pending ∧
      (serviceBegin s).mem = s.mem ∧
      (serviceBegin s).tag.store = s.tag.store ∧
      (serviceBegin s).boot.keys = s.boot.keys := by
  simp [serviceBegin]

@[simp] theorem biasOff_kept (s : State) :
    (biasOff s).pending = s.pending ∧
      (biasOff s).mem = s.mem ∧
      (biasOff s).tag.store = s.tag.store ∧
      (biasOff s).boot.keys = s.boot.keys := by
  simp [biasOff]

@[simp] theorem calWorkOver_kept (s : State) :
    (calWorkOver s).pending = s.pending ∧
      (calWorkOver s).mem = s.mem ∧
      (calWorkOver s).tag.store = s.tag.store ∧
      (calWorkOver s).boot.keys = s.boot.keys := by
  simp [calWorkOver]

@[simp] theorem serviceLeave_kept (s : State) :
    (serviceLeave s).pending = s.pending ∧
      (serviceLeave s).mem = s.mem ∧
      (serviceLeave s).tag.store = s.tag.store ∧
      (serviceLeave s).boot.keys = s.boot.keys := by
  simp [serviceLeave]

@[simp] theorem backupFlush_kept (s : State) :
    (backupFlush s).pending = s.pending ∧
      (backupFlush s).mem = s.mem ∧
      (backupFlush s).tag.store = s.tag.store ∧
      (backupFlush s).boot.keys = s.boot.keys := by
  simp [backupFlush]

@[simp] theorem backupBegin_kept (s : State) :
    (backupBegin s).pending = s.pending ∧
      (backupBegin s).mem = s.mem ∧
      (backupBegin s).tag.store = s.tag.store ∧
      (backupBegin s).boot.keys = s.boot.keys := by
  simp [backupBegin]

@[simp] theorem grantsEnded_kept (s : State) :
    (grantsEnded s).pending = s.pending ∧
      (grantsEnded s).mem = s.mem ∧
      (grantsEnded s).tag.store = s.tag.store ∧
      (grantsEnded s).boot.keys = s.boot.keys := by
  simp [grantsEnded]

@[simp] theorem postAll_kept (s : State) :
    (postAll s).pending = s.pending ∧
      (postAll s).mem = s.mem ∧
      (postAll s).tag.store = s.tag.store ∧
      (postAll s).boot.keys = s.boot.keys := by
  simp [postAll]

@[simp] theorem warnAll_kept (s : State) :
    (warnAll s).pending = s.pending ∧
      (warnAll s).mem = s.mem ∧
      (warnAll s).tag.store = s.tag.store ∧
      (warnAll s).boot.keys = s.boot.keys := by
  simp [warnAll]

@[simp] theorem decision_kept (s : State) :
    (decision s).pending = s.pending := by
  simp [decision]

@[simp] theorem decision_wf_mem (s : State) (hs : bytesWf s.mem.nor = true) :
    bytesWf (decision s).mem.nor = true := by
  unfold decision; split <;> simp [hs]

@[simp] theorem decision_wf_store (s : State) (hs : bytesWf s.tag.store = true) :
    bytesWf (decision s).tag.store = true := by
  unfold decision; split <;> simp [hs]

@[simp] theorem endWho_kept (s : State) (g : Grant) (brmWhy hfWhy : Nat) (forced : Bool) :
    (endWho s g brmWhy hfWhy forced).pending = s.pending ∧
      (endWho s g brmWhy hfWhy forced).mem = s.mem ∧
      (endWho s g brmWhy hfWhy forced).tag.store = s.tag.store ∧
      (endWho s g brmWhy hfWhy forced).boot.keys = s.boot.keys := by
  unfold endWho
  cases g.who <;> simp

@[simp] theorem endHalf_kept (s : State) (g : Grant) (brmWhy hfWhy : Nat) (forced : Bool) :
    (endHalf s g brmWhy hfWhy forced).pending = s.pending ∧
      (endHalf s g brmWhy hfWhy forced).mem = s.mem ∧
      (endHalf s g brmWhy hfWhy forced).tag.store = s.tag.store ∧
      (endHalf s g brmWhy hfWhy forced).boot.keys = s.boot.keys := by
  simp [endHalf]

@[simp] theorem endWork_kept (s : State) (g : Grant) (brmWhy hfWhy : Nat) (forced : Bool) :
    (endWork s g brmWhy hfWhy forced).pending = s.pending ∧
      (endWork s g brmWhy hfWhy forced).mem = s.mem ∧
      (endWork s g brmWhy hfWhy forced).tag.store = s.tag.store ∧
      (endWork s g brmWhy hfWhy forced).boot.keys = s.boot.keys := by
  simp [endWork]

@[simp] theorem endPair_kept (s : State) (g : Grant) :
    (endPair s g).pending = s.pending ∧
      (endPair s g).mem = s.mem ∧
      (endPair s g).tag.store = s.tag.store ∧
      (endPair s g).boot.keys = s.boot.keys := by
  unfold endPair; split <;> simp

@[simp] theorem release_kept (s : State) (who : Consumer) (topUp : Bool) :
    (release s who topUp).pending = s.pending ∧
      (release s who topUp).mem = s.mem ∧
      (release s who topUp).tag.store = s.tag.store ∧
      (release s who topUp).boot.keys = s.boot.keys := by
  unfold release; (repeat' split) <;> simp

@[simp] theorem mapPair_kept (s : State) (g : Grant) (f : Grant → Grant) :
    (mapPair s g f).pending = s.pending ∧
      (mapPair s g f).mem = s.mem ∧
      (mapPair s g f).tag.store = s.tag.store ∧
      (mapPair s g f).boot.keys = s.boot.keys := by
  simp [mapPair]

@[simp] theorem leaseWarning_kept (s : State) (who : Consumer) :
    (leaseWarning s who).pending = s.pending ∧
      (leaseWarning s who).mem = s.mem ∧
      (leaseWarning s who).tag.store = s.tag.store ∧
      (leaseWarning s who).boot.keys = s.boot.keys := by
  unfold leaseWarning; split <;> simp

@[simp] theorem overrun_kept (s : State) :
    (overrun s).pending = s.pending ∧
      (overrun s).mem = s.mem ∧
      (overrun s).tag.store = s.tag.store ∧
      (overrun s).boot.keys = s.boot.keys := by
  simp [overrun]

@[simp] theorem leaseOver_kept (s : State) (g : Grant) :
    (leaseOver s g).pending = s.pending ∧
      (leaseOver s g).mem = s.mem ∧
      (leaseOver s g).tag.store = s.tag.store ∧
      (leaseOver s g).boot.keys = s.boot.keys := by
  simp [leaseOver]

@[simp] theorem authAbort_kept (s : State) (p : RfPath) :
    (authAbort s p).pending = s.pending ∧
      (authAbort s p).mem = s.mem ∧
      (authAbort s p).tag.store = s.tag.store ∧
      (authAbort s p).boot.keys = s.boot.keys := by
  unfold authAbort; (repeat' split) <;> simp

@[simp] theorem topUpOver_kept (s : State) (who : Consumer) :
    (topUpOver s who).pending = s.pending ∧
      (topUpOver s who).mem = s.mem ∧
      (topUpOver s who).tag.store = s.tag.store ∧
      (topUpOver s who).boot.keys = s.boot.keys := by
  simp [topUpOver]

@[simp] theorem leaseEnd_kept (s : State) (who : Consumer) (topUp inTransaction : Bool) :
    (leaseEnd s who topUp inTransaction).pending = s.pending ∧
      (leaseEnd s who topUp inTransaction).mem = s.mem ∧
      (leaseEnd s who topUp inTransaction).tag.store = s.tag.store ∧
      (leaseEnd s who topUp inTransaction).boot.keys = s.boot.keys := by
  unfold leaseEnd; (repeat' split) <;> simp

@[simp] theorem slotMissed_kept (s : State) (r : Request) (cause : Nat) :
    (slotMissed s r cause).pending = s.pending ∧
      (slotMissed s r cause).mem = s.mem ∧
      (slotMissed s r cause).tag.store = s.tag.store ∧
      (slotMissed s r cause).boot.keys = s.boot.keys := by
  unfold slotMissed; simp only []; (repeat' split) <;> simp_all

@[simp] theorem freeTime_kept (s : State) (who : Consumer) :
    (freeTime s who).pending = s.pending := by
  unfold freeTime; split <;> simp

@[simp] theorem freeTime_wf_mem (s : State) (who : Consumer) (hs : bytesWf s.mem.nor = true) :
    bytesWf (freeTime s who).mem.nor = true := by
  unfold freeTime; (repeat' split) <;> simp [hs]

@[simp] theorem freeTime_wf_store (s : State) (who : Consumer) (hs : bytesWf s.tag.store = true) :
    bytesWf (freeTime s who).tag.store = true := by
  unfold freeTime; (repeat' split) <;> simp [hs]

@[simp] theorem starvePromote_kept (s : State) (who : Consumer) :
    (starvePromote s who).pending = s.pending ∧
      (starvePromote s who).mem = s.mem ∧
      (starvePromote s who).tag.store = s.tag.store ∧
      (starvePromote s who).boot.keys = s.boot.keys := by
  unfold starvePromote; split <;> simp

@[simp] theorem muteLow_kept (s : State) (p : RfPath) :
    (muteLow s p).pending = s.pending ∧
      (muteLow s p).mem = s.mem ∧
      (muteLow s p).tag.store = s.tag.store ∧
      (muteLow s p).boot.keys = s.boot.keys := by
  unfold muteLow; split <;> simp

@[simp] theorem cxLost_kept (s : State) (g : Grant) :
    (cxLost s g).pending = s.pending ∧
      (cxLost s g).mem = s.mem ∧
      (cxLost s g).tag.store = s.tag.store ∧
      (cxLost s g).boot.keys = s.boot.keys := by
  simp [cxLost]; (repeat' split) <;> simp_all

@[simp] theorem cxgntLoss_kept (s : State) :
    (cxgntLoss s).pending = s.pending ∧
      (cxgntLoss s).mem = s.mem ∧
      (cxgntLoss s).tag.store = s.tag.store ∧
      (cxgntLoss s).boot.keys = s.boot.keys := by
  simp [cxgntLoss]

@[simp] theorem leadSatisfied_kept (s : State) :
    (leadSatisfied s).pending = s.pending ∧
      (leadSatisfied s).mem = s.mem ∧
      (leadSatisfied s).tag.store = s.tag.store ∧
      (leadSatisfied s).boot.keys = s.boot.keys := by
  simp [leadSatisfied]

@[simp] theorem cxreqRise_kept (s : State) :
    (cxreqRise s).pending = s.pending ∧
      (cxreqRise s).mem = s.mem ∧
      (cxreqRise s).tag.store = s.tag.store ∧
      (cxreqRise s).boot.keys = s.boot.keys := by
  unfold cxreqRise; simp only []; (repeat' split) <;> simp_all

@[simp] theorem cxwaitTimeout_kept (s : State) (who : Consumer) :
    (cxwaitTimeout s who).pending = s.pending ∧
      (cxwaitTimeout s who).mem = s.mem ∧
      (cxwaitTimeout s who).tag.store = s.tag.store ∧
      (cxwaitTimeout s who).boot.keys = s.boot.keys := by
  unfold cxwaitTimeout; split <;> simp

@[simp] theorem xreqRise_kept (s : State) :
    (xreqRise s).pending = s.pending ∧
      (xreqRise s).mem = s.mem ∧
      (xreqRise s).tag.store = s.tag.store ∧
      (xreqRise s).boot.keys = s.boot.keys := by
  simp [xreqRise]

@[simp] theorem xreqFall_kept (s : State) :
    (xreqFall s).pending = s.pending ∧
      (xreqFall s).mem = s.mem ∧
      (xreqFall s).tag.store = s.tag.store ∧
      (xreqFall s).boot.keys = s.boot.keys := by
  simp [xreqFall]

@[simp] theorem loadSample_kept (s : State) (load : Nat) :
    (loadSample s load).pending = s.pending ∧
      (loadSample s load).mem = s.mem ∧
      (loadSample s load).tag.store = s.tag.store ∧
      (loadSample s load).boot.keys = s.boot.keys := by
  simp [loadSample]

@[simp] theorem calibOn_kept (t : State) (g : Grant) :
    (calibOn t g).pending = t.pending ∧
      (calibOn t g).mem = t.mem ∧
      (calibOn t g).tag.store = t.tag.store ∧
      (calibOn t g).boot.keys = t.boot.keys := by
  unfold calibOn; split <;> simp

@[simp] theorem biasSettled_kept (s : State) :
    (biasSettled s).pending = s.pending ∧
      (biasSettled s).mem = s.mem ∧
      (biasSettled s).tag.store = s.tag.store ∧
      (biasSettled s).boot.keys = s.boot.keys := by
  simp [biasSettled]

@[simp] theorem rfholdExpiry_kept (s : State) :
    (rfholdExpiry s).pending = s.pending ∧
      (rfholdExpiry s).mem = s.mem ∧
      (rfholdExpiry s).tag.store = s.tag.store ∧
      (rfholdExpiry s).boot.keys = s.boot.keys := by
  simp [rfholdExpiry]

/-! ### Stream -/

@[simp] theorem setHrdy_kept (s : State) (v : Bool) :
    (setHrdy s v).pending = s.pending ∧
      (setHrdy s v).mem = s.mem ∧
      (setHrdy s v).tag.store = s.tag.store ∧
      (setHrdy s v).boot.keys = s.boot.keys := by
  simp [setHrdy]

@[simp] theorem setHost_kept (s : State) (h : HostPort) :
    (setHost s h).pending = s.pending ∧
      (setHost s h).mem = s.mem ∧
      (setHost s h).tag.store = s.tag.store ∧
      (setHost s h).boot.keys = s.boot.keys := by
  simp [setHost]

@[simp] theorem putG3_kept (s : State) (g : Option G3Run) :
    (putG3 s g).pending = s.pending ∧
      (putG3 s g).mem = s.mem ∧
      (putG3 s g).tag.store = s.tag.store ∧
      (putG3 s g).boot.keys = s.boot.keys := by
  simp [putG3]

@[simp] theorem g3Wait_kept (s : State) (g : G3Run) :
    (g3Wait s g).pending = s.pending ∧
      (g3Wait s g).mem = s.mem ∧
      (g3Wait s g).tag.store = s.tag.store ∧
      (g3Wait s g).boot.keys = s.boot.keys := by
  simp [g3Wait]

@[simp] theorem g3Decide_kept (s : State) :
    (g3Decide s).pending = s.pending ∧
      (g3Decide s).mem = s.mem ∧
      (g3Decide s).tag.store = s.tag.store ∧
      (g3Decide s).boot.keys = s.boot.keys := by
  unfold g3Decide; split <;> simp

@[simp] theorem g3Begin_kept (s : State) :
    (g3Begin s).pending = s.pending ∧
      (g3Begin s).mem = s.mem ∧
      (g3Begin s).tag.store = s.tag.store ∧
      (g3Begin s).boot.keys = s.boot.keys := by
  simp [g3Begin]

@[simp] theorem viewEdges_kept (s : State) (n k : Nat) :
    (viewEdges s n k).pending = s.pending ∧
      (viewEdges s n k).mem = s.mem ∧
      (viewEdges s n k).tag.store = s.tag.store ∧
      (viewEdges s n k).boot.keys = s.boot.keys := by
  simp [viewEdges]

@[simp] theorem tickViews_kept (s : State) :
    (tickViews s).pending = s.pending ∧
      (tickViews s).mem = s.mem ∧
      (tickViews s).tag.store = s.tag.store ∧
      (tickViews s).boot.keys = s.boot.keys := by
  simp [tickViews]

/-! ### Views -/

@[simp] theorem framePortRead_kept (s : State) (n : Nat) :
    (framePortRead s n).2.pending = s.pending ∧
      (framePortRead s n).2.mem = s.mem ∧
      (framePortRead s n).2.tag.store = s.tag.store ∧
      (framePortRead s n).2.boot.keys = s.boot.keys := by
  simp [framePortRead]

@[simp] theorem readWord_kept (s : State) (a : Nat) :
    (readWord s a).2.pending = s.pending ∧
      (readWord s a).2.mem = s.mem ∧
      (readWord s a).2.tag.store = s.tag.store ∧
      (readWord s a).2.boot.keys = s.boot.keys := by
  simp [readWord]

@[simp] theorem snapshotRefresh_kept (s : State) :
    (snapshotRefresh s).pending = s.pending ∧
      (snapshotRefresh s).mem = s.mem ∧
      (snapshotRefresh s).tag.store = s.tag.store ∧
      (snapshotRefresh s).boot.keys = s.boot.keys := by
  simp [snapshotRefresh]

/-! ### Modes -/

@[simp] theorem sleepFlush_kept (s : State) :
    (sleepFlush s).pending = s.pending ∧
      (sleepFlush s).mem = s.mem ∧
      (sleepFlush s).tag.store = s.tag.store ∧
      (sleepFlush s).boot.keys = s.boot.keys := by
  simp [sleepFlush]

@[simp] theorem clocksSet_kept (s : State) (pll bias : Nat) :
    (clocksSet s pll bias).pending = s.pending ∧
      (clocksSet s pll bias).mem = s.mem ∧
      (clocksSet s pll bias).tag.store = s.tag.store ∧
      (clocksSet s pll bias).boot.keys = s.boot.keys := by
  simp [clocksSet]

@[simp] theorem cmdOver_kept (s : State) :
    (cmdOver s).pending = s.pending ∧
      (cmdOver s).mem = s.mem ∧
      (cmdOver s).tag.store = s.tag.store ∧
      (cmdOver s).boot.keys = s.boot.keys := by
  simp [cmdOver]

@[simp] theorem sleepPlan_kept (s : State) :
    (sleepPlan s).pending = s.pending ∧
      (sleepPlan s).mem = s.mem ∧
      (sleepPlan s).tag.store = s.tag.store ∧
      (sleepPlan s).boot.keys = s.boot.keys := by
  simp [sleepPlan]

@[simp] theorem sleepEnter_kept (s0 : State) :
    (sleepEnter s0).pending = s0.pending ∧
      (sleepEnter s0).mem = s0.mem ∧
      (sleepEnter s0).tag.store = s0.tag.store ∧
      (sleepEnter s0).boot.keys = s0.boot.keys := by
  simp [sleepEnter]

@[simp] theorem sleepEntry_kept (s0 : State) (during : Option WakeSource) :
    (sleepEntry s0 during).pending = s0.pending ∧
      (sleepEntry s0 during).mem = s0.mem ∧
      (sleepEntry s0 during).tag.store = s0.tag.store ∧
      (sleepEntry s0 during).boot.keys = s0.boot.keys := by
  unfold sleepEntry; (repeat' split) <;> simp

@[simp] theorem windowOff_kept (s : State) :
    (windowOff s).pending = s.pending ∧
      (windowOff s).mem = s.mem ∧
      (windowOff s).tag.store = s.tag.store ∧
      (windowOff s).boot.keys = s.boot.keys := by
  simp [windowOff]

@[simp] theorem wakeClocks_kept (s : State) :
    (wakeClocks s).pending = s.pending ∧
      (wakeClocks s).mem = s.mem ∧
      (wakeClocks s).tag.store = s.tag.store ∧
      (wakeClocks s).boot.keys = s.boot.keys := by
  simp [wakeClocks]

@[simp] theorem applyBeacons_kept (s : State) :
    (applyBeacons s).pending = s.pending ∧ (applyBeacons s).tag.store = s.tag.store := by
  simp [applyBeacons]

@[simp] theorem applyBeacons_wf_mem (s : State) (hs : bytesWf s.mem.nor = true) :
    bytesWf (applyBeacons s).mem.nor = true := by
  unfold applyBeacons
  exact foldl_keeps (fun t => bytesWf t.mem.nor = true) _ (fun t b ht => beaconTrack_wf_mem _ _ _ _ ht) _ _ hs

@[simp] theorem wakeComplete_kept (s : State) :
    (wakeComplete s).pending = s.pending ∧ (wakeComplete s).tag.store = s.tag.store := by
  unfold wakeComplete; split <;> simp

@[simp] theorem wakeComplete_wf_mem (s : State) (hs : bytesWf s.mem.nor = true) :
    bytesWf (wakeComplete s).mem.nor = true := by
  unfold wakeComplete; (repeat' split) <;> simp [hs]

@[simp] theorem schedWake_kept (s : State) :
    (schedWake s).pending = s.pending ∧
      (schedWake s).mem = s.mem ∧
      (schedWake s).tag.store = s.tag.store ∧
      (schedWake s).boot.keys = s.boot.keys := by
  unfold schedWake; split <;> simp

@[simp] theorem windowMark_kept (s : State) (w : LnkWindow) :
    (windowMark s w).pending = s.pending ∧
      (windowMark s w).mem = s.mem ∧
      (windowMark s w).tag.store = s.tag.store ∧
      (windowMark s w).boot.keys = s.boot.keys := by
  simp [windowMark]

@[simp] theorem windowPrepare_kept (s : State) :
    (windowPrepare s).pending = s.pending ∧
      (windowPrepare s).mem = s.mem ∧
      (windowPrepare s).tag.store = s.tag.store ∧
      (windowPrepare s).boot.keys = s.boot.keys := by
  unfold windowPrepare
  dsimp only
  (repeat' split) <;> simp

@[simp] theorem windowOver_kept (s : State) :
    (windowOver s).pending = s.pending ∧
      (windowOver s).mem = s.mem ∧
      (windowOver s).tag.store = s.tag.store ∧
      (windowOver s).boot.keys = s.boot.keys := by
  unfold windowOver; split <;> simp

@[simp] theorem windowClose_kept (s : State) :
    (windowClose s).pending = s.pending ∧
      (windowClose s).mem = s.mem ∧
      (windowClose s).tag.store = s.tag.store ∧
      (windowClose s).boot.keys = s.boot.keys := by
  unfold windowClose; (repeat' split) <;> simp

@[simp] theorem cmdRes_kept (s : State) (r : Nat) :
    (cmdRes s r).pending = s.pending ∧
      (cmdRes s r).mem = s.mem ∧
      (cmdRes s r).tag.store = s.tag.store ∧
      (cmdRes s r).boot.keys = s.boot.keys := by
  simp [cmdRes]

@[simp] theorem cmdWait_kept (s : State) (c : ModeCmd) :
    (cmdWait s c).pending = s.pending ∧
      (cmdWait s c).mem = s.mem ∧
      (cmdWait s c).tag.store = s.tag.store ∧
      (cmdWait s c).boot.keys = s.boot.keys := by
  simp [cmdWait]

@[simp] theorem cmdAccept_kept (s : State) (cmd : Nat) :
    (cmdAccept s cmd).pending = s.pending ∧
      (cmdAccept s cmd).mem = s.mem ∧
      (cmdAccept s cmd).tag.store = s.tag.store ∧
      (cmdAccept s cmd).boot.keys = s.boot.keys := by
  unfold cmdAccept; split <;> simp

@[simp] theorem modeCommand_kept (s : State) (lvl : Level) (key : BitVec 16) (cmd : Nat) :
    (modeCommand s lvl key cmd).pending = s.pending ∧
      (modeCommand s lvl key cmd).mem = s.mem ∧
      (modeCommand s lvl key cmd).tag.store = s.tag.store ∧
      (modeCommand s lvl key cmd).boot.keys = s.boot.keys := by
  simp [modeCommand]

@[simp] theorem flushDone_kept (s0 : State) (leftKB : Nat) :
    (flushDone s0 leftKB).pending = s0.pending ∧
      (flushDone s0 leftKB).mem = s0.mem ∧
      (flushDone s0 leftKB).tag.store = s0.tag.store ∧
      (flushDone s0 leftKB).boot.keys = s0.boot.keys := by
  simp [flushDone]

@[simp] theorem fallback_kept (s : State) (why : Nat) :
    (fallback s why).pending = s.pending ∧
      (fallback s why).mem = s.mem ∧
      (fallback s why).tag.store = s.tag.store ∧
      (fallback s why).boot.keys = s.boot.keys := by
  simp [fallback]

@[simp] theorem refinSeen_kept (s : State) (refin : Bool) :
    (refinSeen s refin).pending = s.pending ∧
      (refinSeen s refin).mem = s.mem ∧
      (refinSeen s refin).tag.store = s.tag.store ∧
      (refinSeen s refin).boot.keys = s.boot.keys := by
  simp [refinSeen]

@[simp] theorem windowAbort_kept (s : State) :
    (windowAbort s).pending = s.pending ∧
      (windowAbort s).mem = s.mem ∧
      (windowAbort s).tag.store = s.tag.store ∧
      (windowAbort s).boot.keys = s.boot.keys := by
  simp [windowAbort]

@[simp] theorem pllLock_kept (s : State) :
    (pllLock s).pending = s.pending ∧
      (pllLock s).mem = s.mem ∧
      (pllLock s).tag.store = s.tag.store ∧
      (pllLock s).boot.keys = s.boot.keys := by
  simp [pllLock]

@[simp] theorem pllTimeout_kept (s : State) (refin : Bool) :
    (pllTimeout s refin).pending = s.pending ∧
      (pllTimeout s refin).mem = s.mem ∧
      (pllTimeout s refin).tag.store = s.tag.store ∧
      (pllTimeout s refin).boot.keys = s.boot.keys := by
  simp [pllTimeout]

@[simp] theorem lockRetry_kept (s : State) (locks refin : Bool) :
    (lockRetry s locks refin).pending = s.pending ∧
      (lockRetry s locks refin).mem = s.mem ∧
      (lockRetry s locks refin).tag.store = s.tag.store ∧
      (lockRetry s locks refin).boot.keys = s.boot.keys := by
  simp [lockRetry]

@[simp] theorem lockAbort_kept (s : State) :
    (lockAbort s).pending = s.pending ∧
      (lockAbort s).mem = s.mem ∧
      (lockAbort s).tag.store = s.tag.store ∧
      (lockAbort s).boot.keys = s.boot.keys := by
  simp [lockAbort]

@[simp] theorem lockLoss_kept (s : State) (refin : Bool) :
    (lockLoss s refin).pending = s.pending ∧
      (lockLoss s refin).mem = s.mem ∧
      (lockLoss s refin).tag.store = s.tag.store ∧
      (lockLoss s refin).boot.keys = s.boot.keys := by
  simp [lockLoss]

@[simp] theorem wakeenWrite_kept (s : State) (v : Word) :
    (wakeenWrite s v).pending = s.pending ∧
      (wakeenWrite s v).mem = s.mem ∧
      (wakeenWrite s v).tag.store = s.tag.store ∧
      (wakeenWrite s v).boot.keys = s.boot.keys := by
  simp [wakeenWrite]

/-! ### Reset -/

@[simp] theorem coreReset_kept (s0 : State) (five : Bool) :
    (coreReset s0 five).pending = s0.pending ∧ (coreReset s0 five).tag.store = s0.tag.store := by
  simp [coreReset]

@[simp] theorem coreReset_wf_mem (s0 : State) (five : Bool) (hs : bytesWf s0.mem.nor = true) :
    bytesWf (coreReset s0 five).mem.nor = true := by
  simp [hs, coreReset]

@[simp] theorem keepStraps_kept (s0 s : State) :
    (keepStraps s0 s).pending = s.pending ∧
      (keepStraps s0 s).mem = s.mem ∧
      (keepStraps s0 s).tag.store = s.tag.store ∧
      (keepStraps s0 s).boot.keys = s.boot.keys := by
  simp [keepStraps]

@[simp] theorem holdReset_kept (s : State) :
    (holdReset s).pending = s.pending ∧ (holdReset s).tag.store = s.tag.store := by
  simp [holdReset]

@[simp] theorem holdReset_wf_mem (s : State) (hs : bytesWf s.mem.nor = true) :
    bytesWf (holdReset s).mem.nor = true := by
  simp [hs, holdReset]

@[simp] theorem startAt_kept (s : State) (cause step : Nat) :
    (startAt s cause step).pending = s.pending ∧ (startAt s cause step).tag.store = s.tag.store := by
  simp [startAt]

@[simp] theorem startAt_wf_mem (s : State) (cause step : Nat) (hs : bytesWf s.mem.nor = true) :
    bytesWf (startAt s cause step).mem.nor = true := by
  simp [hs, startAt]

@[simp] theorem supplyLoss_kept (s : State) :
    (supplyLoss s).pending = s.pending ∧ (supplyLoss s).tag.store = s.tag.store := by
  simp [supplyLoss]

@[simp] theorem supplyLoss_wf_mem (s : State) (hs : bytesWf s.mem.nor = true) :
    bytesWf (supplyLoss s).mem.nor = true := by
  simp [hs, supplyLoss]

@[simp] theorem porBackup_kept (s : State) (byField : Bool) :
    (porBackup s byField).pending = s.pending ∧
      (porBackup s byField).mem = s.mem ∧
      (porBackup s byField).tag.store = s.tag.store ∧
      (porBackup s byField).boot.keys = s.boot.keys := by
  simp [porBackup]

@[simp] theorem sramUe_kept (s : State) (loc : SramLoc) :
    (sramUe s loc).pending = s.pending ∧ (sramUe s loc).tag.store = s.tag.store := by
  unfold sramUe; split <;> simp

@[simp] theorem sramUe_wf_mem (s : State) (loc : SramLoc) (hs : bytesWf s.mem.nor = true) :
    bytesWf (sramUe s loc).mem.nor = true := by
  unfold sramUe; (repeat' split) <;> simp [hs]

@[simp] theorem runBegin_kept (s : State) :
    (runBegin s).pending = s.pending ∧
      (runBegin s).mem = s.mem ∧
      (runBegin s).tag.store = s.tag.store ∧
      (runBegin s).boot.keys = s.boot.keys := by
  simp [runBegin]

@[simp] theorem bootCommand_kept (s : State) (lvl : Level) (key : BitVec 16) (cmd : Nat) :
    (bootCommand s lvl key cmd).pending = s.pending ∧
      (bootCommand s lvl key cmd).tag.store = s.tag.store := by
  unfold bootCommand; (repeat' split) <;> simp

@[simp] theorem bootCommand_wf_mem (s : State) (lvl : Level) (key : BitVec 16) (cmd : Nat) (hs : bytesWf s.mem.nor = true) :
    bytesWf (bootCommand s lvl key cmd).mem.nor = true := by
  unfold bootCommand; (repeat' split) <;> simp [hs]

/-! ### Rounds -/

@[simp] theorem row_kept_pend (s : State) (run : State → State) (h_run : ∀ t, (run t).pending = t.pending) :
    (row s run).pending = s.pending := by
  simp [h_run, row]

@[simp] theorem row_kept_mem (s : State) (run : State → State) (h_run : ∀ t, (run t).mem = t.mem) :
    (row s run).mem = s.mem := by
  simp [h_run, row]

@[simp] theorem row_kept_store (s : State) (run : State → State) (h_run : ∀ t, (run t).tag.store = t.tag.store) :
    (row s run).tag.store = s.tag.store := by
  simp [h_run, row]

@[simp] theorem row_kept_keys (s : State) (run : State → State) (h_run : ∀ t, (run t).boot.keys = t.boot.keys) :
    (row s run).boot.keys = s.boot.keys := by
  simp [h_run, row]

@[simp] theorem row_wf_nor (s : State) (run : State → State) (h_run : ∀ t, bytesWf t.mem.nor = true → bytesWf (run t).mem.nor = true) (hs : bytesWf s.mem.nor = true) :
    bytesWf (row s run).mem.nor = true := by
  simp [h_run, hs, row]

@[simp] theorem row_wf_store (s : State) (run : State → State) (h_run : ∀ t, bytesWf t.tag.store = true → bytesWf (run t).tag.store = true) (hs : bytesWf s.tag.store = true) :
    bytesWf (row s run).tag.store = true := by
  simp [h_run, hs, row]

@[simp] theorem hfRow_kept_pend (s : State) (run : State → State) (h_run : ∀ t, (run t).pending = t.pending) :
    (hfRow s run).pending = s.pending := by
  simp [h_run, hfRow]

@[simp] theorem hfRow_kept_mem (s : State) (run : State → State) (h_run : ∀ t, (run t).mem = t.mem) :
    (hfRow s run).mem = s.mem := by
  simp [h_run, hfRow]

@[simp] theorem hfRow_kept_store (s : State) (run : State → State) (h_run : ∀ t, (run t).tag.store = t.tag.store) :
    (hfRow s run).tag.store = s.tag.store := by
  simp [h_run, hfRow]

@[simp] theorem hfRow_kept_keys (s : State) (run : State → State) (h_run : ∀ t, (run t).boot.keys = t.boot.keys) :
    (hfRow s run).boot.keys = s.boot.keys := by
  simp [h_run, hfRow]

@[simp] theorem hfRow_wf_nor (s : State) (run : State → State) (h_run : ∀ t, bytesWf t.mem.nor = true → bytesWf (run t).mem.nor = true) (hs : bytesWf s.mem.nor = true) :
    bytesWf (hfRow s run).mem.nor = true := by
  simp [h_run, hs, hfRow]

@[simp] theorem hfRow_wf_store (s : State) (run : State → State) (h_run : ∀ t, bytesWf t.tag.store = true → bytesWf (run t).tag.store = true) (hs : bytesWf s.tag.store = true) :
    bytesWf (hfRow s run).tag.store = true := by
  simp [h_run, hs, hfRow]

@[simp] theorem hfBoundary_kept (s : State) (ends : HfVisit → Bool) :
    (hfBoundary s ends).pending = s.pending ∧
      (hfBoundary s ends).mem = s.mem ∧
      (hfBoundary s ends).tag.store = s.tag.store ∧
      (hfBoundary s ends).boot.keys = s.boot.keys := by
  unfold hfBoundary; split <;> simp

/-! ### Access -/

@[simp] theorem storeFields_kept (s : State) (a : Nat) (m v : Word) :
    (storeFields s a m v).pending = s.pending ∧
      (storeFields s a m v).mem = s.mem ∧
      (storeFields s a m v).tag.store = s.tag.store ∧
      (storeFields s a m v).boot.keys = s.boot.keys := by
  simp [storeFields]

@[simp] theorem plainWrite_kept (s : State) (a : Nat) (m v : Word) :
    (plainWrite s a m v).pending = s.pending ∧
      (plainWrite s a m v).mem = s.mem ∧
      (plainWrite s a m v).tag.store = s.tag.store ∧
      (plainWrite s a m v).boot.keys = s.boot.keys := by
  simp [plainWrite]

@[simp] theorem qtzCmdWrite_kept (s : State) (v : Word) :
    (qtzCmdWrite s v).pending = s.pending ∧
      (qtzCmdWrite s v).mem = s.mem ∧
      (qtzCmdWrite s v).tag.store = s.tag.store ∧
      (qtzCmdWrite s v).boot.keys = s.boot.keys := by
  unfold qtzCmdWrite; (repeat' split) <;> simp

@[simp] theorem fifoCmdWrite_kept (s : State) (v : Word) :
    (fifoCmdWrite s v).pending = s.pending ∧
      (fifoCmdWrite s v).mem = s.mem ∧
      (fifoCmdWrite s v).tag.store = s.tag.store ∧
      (fifoCmdWrite s v).boot.keys = s.boot.keys := by
  simp [fifoCmdWrite]

@[simp] theorem poolWrite_kept (s : State) (w : Nat) (v : Word) :
    (poolWrite s w v).pending = s.pending ∧
      (poolWrite s w v).mem = s.mem ∧
      (poolWrite s w v).tag.store = s.tag.store ∧
      (poolWrite s w v).boot.keys = s.boot.keys := by
  simp [poolWrite]

@[simp] theorem mspHcmd_kept (s : State) (lvl : Level) (v : Word) :
    (mspHcmd s lvl v).pending = s.pending ∧
      (mspHcmd s lvl v).tag.store = s.tag.store ∧
      (mspHcmd s lvl v).boot.keys = s.boot.keys := by
  unfold mspHcmd; split <;> simp

@[simp] theorem mspHcmd_wf_mem (s : State) (lvl : Level) (v : Word) (hs : bytesWf s.mem.nor = true) :
    bytesWf (mspHcmd s lvl v).mem.nor = true := by
  unfold mspHcmd; split <;> simp [hs]

@[simp] theorem jnlCmdWrite_kept (s : State) (lvl : Level) (v : Word) :
    (jnlCmdWrite s lvl v).pending = s.pending ∧
      (jnlCmdWrite s lvl v).mem = s.mem ∧
      (jnlCmdWrite s lvl v).tag.store = s.tag.store ∧
      (jnlCmdWrite s lvl v).boot.keys = s.boot.keys := by
  unfold jnlCmdWrite; (repeat' split) <;> simp

@[simp] theorem jnlRdcmdWrite_kept (s : State) (lvl : Level) (v : Word) :
    (jnlRdcmdWrite s lvl v).pending = s.pending ∧
      (jnlRdcmdWrite s lvl v).mem = s.mem ∧
      (jnlRdcmdWrite s lvl v).tag.store = s.tag.store ∧
      (jnlRdcmdWrite s lvl v).boot.keys = s.boot.keys := by
  simp [jnlRdcmdWrite]

theorem tmrWrite_kept (s : State) (n k : Nat) (v : Word) (t : State)
    (h : tmrWrite s n k v = some t) : t.pending = s.pending ∧ t.tag.store = s.tag.store := by
  unfold tmrWrite at h
  (repeat' split at h) <;> simp only [Option.some.injEq, reduceCtorEq] at h <;> subst h <;> simp

theorem tmrWrite_wf_mem (s : State) (n k : Nat) (v : Word) (t : State)
    (h : tmrWrite s n k v = some t) (hs : bytesWf s.mem.nor = true) : bytesWf t.mem.nor = true := by
  unfold tmrWrite at h
  (repeat' split at h) <;> simp only [Option.some.injEq, reduceCtorEq] at h <;> subst h <;> simp [hs]

theorem actLow_kept (s : State) (lvl : Level) (a : Nat) (v : Word) (t : State)
    (h : actLow s lvl a v = some t) : t.pending = s.pending ∧ t.tag.store = s.tag.store := by
  unfold actLow at h
  (repeat' split at h) <;>
    first
      | exact tmrWrite_kept _ _ _ _ _ h
      | (simp only [Option.some.injEq, reduceCtorEq] at h <;> subst h <;> simp)

theorem actLow_wf_mem (s : State) (lvl : Level) (a : Nat) (v : Word) (t : State)
    (h : actLow s lvl a v = some t) (hs : bytesWf s.mem.nor = true) : bytesWf t.mem.nor = true := by
  unfold actLow at h
  (repeat' split at h) <;>
    first
      | exact tmrWrite_wf_mem _ _ _ _ _ h hs
      | (simp only [Option.some.injEq, reduceCtorEq] at h <;> subst h <;> simp [hs])

theorem actMid_kept (s : State) (lvl : Level) (a : Nat) (v : Word) (t : State)
    (h : actMid s lvl a v = some t) : t.pending = s.pending ∧ t.tag.store = s.tag.store := by
  unfold actMid at h
  (repeat' split at h) <;> simp only [Option.some.injEq, reduceCtorEq] at h <;> subst h <;> simp

theorem actMid_wf_mem (s : State) (lvl : Level) (a : Nat) (v : Word) (t : State)
    (h : actMid s lvl a v = some t) (hs : bytesWf s.mem.nor = true) : bytesWf t.mem.nor = true := by
  unfold actMid at h
  (repeat' split at h) <;> simp only [Option.some.injEq, reduceCtorEq] at h <;> subst h <;> simp [hs]

theorem actHigh_kept (s : State) (lvl : Level) (a : Nat) (v : Word) (t : State)
    (h : actHigh s lvl a v = some t) : t.pending = s.pending ∧ t.tag.store = s.tag.store := by
  unfold actHigh at h
  (repeat' split at h) <;> simp only [Option.some.injEq, reduceCtorEq] at h <;> subst h <;> simp

theorem actHigh_wf_mem (s : State) (lvl : Level) (a : Nat) (v : Word) (t : State)
    (h : actHigh s lvl a v = some t) (hs : bytesWf s.mem.nor = true) : bytesWf t.mem.nor = true := by
  unfold actHigh at h
  (repeat' split at h) <;> simp only [Option.some.injEq, reduceCtorEq] at h <;> subst h <;> simp [hs]

theorem actWrite_kept (s : State) (lvl : Level) (a : Nat) (v : Word) (t : State)
    (h : actWrite s lvl a v = some t) : t.pending = s.pending ∧ t.tag.store = s.tag.store := by
  unfold actWrite at h
  split at h
  · exact actLow_kept _ _ _ _ _ h
  · split at h
    · exact actMid_kept _ _ _ _ _ h
    · exact actHigh_kept _ _ _ _ _ h

theorem actWrite_wf_mem (s : State) (lvl : Level) (a : Nat) (v : Word) (t : State)
    (h : actWrite s lvl a v = some t) (hs : bytesWf s.mem.nor = true) : bytesWf t.mem.nor = true := by
  unfold actWrite at h
  split at h
  · exact actLow_wf_mem _ _ _ _ _ h hs
  · split at h
    · exact actMid_wf_mem _ _ _ _ _ h hs
    · exact actHigh_wf_mem _ _ _ _ _ h hs

theorem actOr_kept (s t u : State) (lvl : Level) (a : Nat) (v : Word) (ht : t.pending = s.pending ∧ t.tag.store = s.tag.store)
    (hu : u.pending = s.pending ∧ u.tag.store = s.tag.store) :
    ((actWrite t lvl a v).getD u).pending = s.pending ∧ ((actWrite t lvl a v).getD u).tag.store = s.tag.store := by
  cases h : actWrite t lvl a v with
  | none => exact hu
  | some x => exact ⟨(actWrite_kept _ _ _ _ _ h).1.trans ht.1, (actWrite_kept _ _ _ _ _ h).2.trans ht.2⟩

theorem actOr_wf_mem (t u : State) (lvl : Level) (a : Nat) (v : Word) (ht : bytesWf t.mem.nor = true)
    (hu : bytesWf u.mem.nor = true) : bytesWf ((actWrite t lvl a v).getD u).mem.nor = true := by
  cases h : actWrite t lvl a v with
  | none => exact hu
  | some x => exact actWrite_wf_mem _ _ _ _ _ h ht

@[simp] theorem otherWrite_kept (s : State) (lvl : Level) (a : Nat) (m v : Word) :
    (otherWrite s lvl a m v).pending = s.pending ∧ (otherWrite s lvl a m v).tag.store = s.tag.store := by
  unfold otherWrite
  simp only [rsvCheck_kept]
  exact actOr_kept _ _ _ _ _ _ ⟨rfl, rfl⟩ (by simp)

@[simp] theorem otherWrite_wf_mem (s : State) (lvl : Level) (a : Nat) (m v : Word) (hs : bytesWf s.mem.nor = true) :
    bytesWf (otherWrite s lvl a m v).mem.nor = true := by
  unfold otherWrite
  rw [(rsvCheck_kept _ _ _).2.1]
  exact actOr_wf_mem _ _ _ _ _ hs (by simp [hs])

@[simp] theorem maskedWrite_kept (s : State) (lvl : Level) (a : Nat) (m v : Word) :
    (maskedWrite s lvl a m v).pending = s.pending ∧ (maskedWrite s lvl a m v).tag.store = s.tag.store := by
  unfold maskedWrite
  (repeat' split) <;> simp

@[simp] theorem maskedWrite_wf_mem (s : State) (lvl : Level) (a : Nat) (m v : Word) (hs : bytesWf s.mem.nor = true) :
    bytesWf (maskedWrite s lvl a m v).mem.nor = true := by
  unfold maskedWrite
  (repeat' split) <;> simp [hs]

@[simp] theorem regWrite_kept (s : State) (lvl : Level) (a : Nat) (v : Word) :
    (regWrite s lvl a v).pending = s.pending ∧ (regWrite s lvl a v).tag.store = s.tag.store := by
  simp [regWrite]

@[simp] theorem regWrite_wf_mem (s : State) (lvl : Level) (a : Nat) (v : Word) (hs : bytesWf s.mem.nor = true) :
    bytesWf (regWrite s lvl a v).mem.nor = true := by
  simp [hs, regWrite]

/-! ### Host -/

@[simp] theorem noteResult_kept (s : State) (r : Nat) :
    (noteResult s r).pending = s.pending ∧
      (noteResult s r).mem = s.mem ∧
      (noteResult s r).tag.store = s.tag.store ∧
      (noteResult s r).boot.keys = s.boot.keys := by
  simp [noteResult]

@[simp] theorem hsoPut_kept (s : State) (bits : List Bool) :
    (hsoPut s bits).pending = s.pending ∧
      (hsoPut s bits).mem = s.mem ∧
      (hsoPut s bits).tag.store = s.tag.store ∧
      (hsoPut s bits).boot.keys = s.boot.keys := by
  simp [hsoPut]

@[simp] theorem frameDone_kept (s : State) (r : Nat) :
    (frameDone s r).pending = s.pending ∧
      (frameDone s r).mem = s.mem ∧
      (frameDone s r).tag.store = s.tag.store ∧
      (frameDone s r).boot.keys = s.boot.keys := by
  simp [frameDone]

@[simp] theorem g2Frame_kept_pend (s : State) (allowed crcOk : Bool) (zeros : Nat) (run : State → State) (h_run : ∀ t, (run t).pending = t.pending) :
    (g2Frame s allowed crcOk zeros run).pending = s.pending := by
  simp [h_run, g2Frame]

@[simp] theorem g2Frame_kept_mem (s : State) (allowed crcOk : Bool) (zeros : Nat) (run : State → State) (h_run : ∀ t, (run t).mem = t.mem) :
    (g2Frame s allowed crcOk zeros run).mem = s.mem := by
  simp [h_run, g2Frame]

@[simp] theorem g2Frame_kept_store (s : State) (allowed crcOk : Bool) (zeros : Nat) (run : State → State) (h_run : ∀ t, (run t).tag.store = t.tag.store) :
    (g2Frame s allowed crcOk zeros run).tag.store = s.tag.store := by
  simp [h_run, g2Frame]

@[simp] theorem g2Frame_kept_keys (s : State) (allowed crcOk : Bool) (zeros : Nat) (run : State → State) (h_run : ∀ t, (run t).boot.keys = t.boot.keys) :
    (g2Frame s allowed crcOk zeros run).boot.keys = s.boot.keys := by
  simp [h_run, g2Frame]

@[simp] theorem g2Frame_wf_nor (s : State) (allowed crcOk : Bool) (zeros : Nat) (run : State → State) (h_run : ∀ t, bytesWf t.mem.nor = true → bytesWf (run t).mem.nor = true) (hs : bytesWf s.mem.nor = true) :
    bytesWf (g2Frame s allowed crcOk zeros run).mem.nor = true := by
  unfold g2Frame; (repeat' split) <;> simp [h_run, hs]

@[simp] theorem g2Frame_wf_store (s : State) (allowed crcOk : Bool) (zeros : Nat) (run : State → State) (h_run : ∀ t, bytesWf t.tag.store = true → bytesWf (run t).tag.store = true) (hs : bytesWf s.tag.store = true) :
    bytesWf (g2Frame s allowed crcOk zeros run).tag.store = true := by
  unfold g2Frame; (repeat' split) <;> simp [h_run, hs]

@[simp] theorem rangeFlag_kept (s : State) :
    (rangeFlag s).pending = s.pending ∧
      (rangeFlag s).mem = s.mem ∧
      (rangeFlag s).tag.store = s.tag.store ∧
      (rangeFlag s).boot.keys = s.boot.keys := by
  simp [rangeFlag]

@[simp] theorem readOne_kept (w : Option Window) (acc : State × List Word × Nat) (a : Nat) :
    (readOne w acc a).1.pending = acc.1.pending ∧
      (readOne w acc a).1.mem = acc.1.mem ∧
      (readOne w acc a).1.tag.store = acc.1.tag.store ∧
      (readOne w acc a).1.boot.keys = acc.1.boot.keys := by
  simp [readOne]

@[simp] theorem admitFrame_kept (s : State) :
    (admitFrame s).pending = s.pending ∧
      (admitFrame s).mem = s.mem ∧
      (admitFrame s).tag.store = s.tag.store ∧
      (admitFrame s).boot.keys = s.boot.keys := by
  simp [admitFrame]

@[simp] theorem readFrame_kept (s : State) (addr count shifted : Nat) :
    (readFrame s addr count shifted).pending = s.pending ∧
      (readFrame s addr count shifted).mem = s.mem ∧
      (readFrame s addr count shifted).tag.store = s.tag.store ∧
      (readFrame s addr count shifted).boot.keys = s.boot.keys := by
  unfold readFrame
  dsimp only
  have h := foldl_keeps_fst (fun t => t.pending = s.pending ∧ t.mem = s.mem ∧ t.tag.store = s.tag.store ∧ t.boot.keys = s.boot.keys)
    (fun acc k => readOne (windowOf addr) acc (addr + k)) (fun p x hp => by simpa using hp) (List.range (min shifted count))
    (admitFrame s, [], 0) (by simp)
  simp only [frameDone_kept, setHost_kept, hsoPut_kept]
  exact h

@[simp] theorem writeOne_kept (allowed : Nat → Bool) (lvl : Level) (w : Option Window) (acc : State × Nat) (p : Nat × Word) :
    (writeOne allowed lvl w acc p).1.pending = acc.1.pending ∧
      (writeOne allowed lvl w acc p).1.tag.store = acc.1.tag.store := by
  unfold writeOne; simp only []; (repeat' split) <;> simp_all

@[simp] theorem writeOne_wf_mem (allowed : Nat → Bool) (lvl : Level) (w : Option Window) (acc : State × Nat) (p : Nat × Word) (hs : bytesWf acc.1.mem.nor = true) :
    bytesWf (writeOne allowed lvl w acc p).1.mem.nor = true := by
  unfold writeOne; simp only []; (repeat' split) <;> simp_all

@[simp] theorem writeFrame_kept (s : State) (lvl : Level) (addr : Nat) (ws : List Word) :
    (writeFrame s lvl addr ws).pending = s.pending ∧ (writeFrame s lvl addr ws).tag.store = s.tag.store := by
  unfold writeFrame
  dsimp only
  have h := foldl_keeps_fst (fun t => t.pending = s.pending ∧ t.tag.store = s.tag.store)
    (fun (acc : State × Nat) (p : Nat × Word) => writeOne (fun a => permitted s lvl a true) lvl (windowOf addr)
      acc (addr + p.1, p.2)) (fun p x hp => by simpa using hp) ((List.range ws.length).zip ws) (admitFrame s, 0) (by simp)
  split
  · exact h
  · simp only [frameDone_kept]
    exact h

@[simp] theorem writeFrame_wf_mem (s : State) (lvl : Level) (addr : Nat) (ws : List Word) (hs : bytesWf s.mem.nor = true) :
    bytesWf (writeFrame s lvl addr ws).mem.nor = true := by
  unfold writeFrame
  dsimp only
  have h := foldl_keeps_fst (fun t => bytesWf t.mem.nor = true)
    (fun (acc : State × Nat) (p : Nat × Word) => writeOne (fun a => permitted s lvl a true) lvl (windowOf addr)
      acc (addr + p.1, p.2)) (fun p x hp => writeOne_wf_mem _ _ _ _ _ hp) ((List.range ws.length).zip ws) (admitFrame s, 0)
      (by simp [hs])
  split
  · exact h
  · simp only [frameDone_kept]
    exact h

@[simp] theorem holdOr_kept_pend (s : State) (f : HeldFrame) (run : State → State) (h_run : ∀ t, (run t).pending = t.pending) :
    (holdOr s f run).pending = s.pending := by
  simp [h_run, holdOr]

@[simp] theorem holdOr_kept_mem (s : State) (f : HeldFrame) (run : State → State) (h_run : ∀ t, (run t).mem = t.mem) :
    (holdOr s f run).mem = s.mem := by
  simp [h_run, holdOr]

@[simp] theorem holdOr_kept_store (s : State) (f : HeldFrame) (run : State → State) (h_run : ∀ t, (run t).tag.store = t.tag.store) :
    (holdOr s f run).tag.store = s.tag.store := by
  simp [h_run, holdOr]

@[simp] theorem holdOr_kept_keys (s : State) (f : HeldFrame) (run : State → State) (h_run : ∀ t, (run t).boot.keys = t.boot.keys) :
    (holdOr s f run).boot.keys = s.boot.keys := by
  simp [h_run, holdOr]

@[simp] theorem holdOr_wf_nor (s : State) (f : HeldFrame) (run : State → State) (h_run : ∀ t, bytesWf t.mem.nor = true → bytesWf (run t).mem.nor = true) (hs : bytesWf s.mem.nor = true) :
    bytesWf (holdOr s f run).mem.nor = true := by
  unfold holdOr; split <;> simp [h_run, hs]

@[simp] theorem holdOr_wf_store (s : State) (f : HeldFrame) (run : State → State) (h_run : ∀ t, bytesWf t.tag.store = true → bytesWf (run t).tag.store = true) (hs : bytesWf s.tag.store = true) :
    bytesWf (holdOr s f run).tag.store = true := by
  unfold holdOr; split <;> simp [h_run, hs]

@[simp] theorem hostgap_kept (s : State) :
    (hostgap s).pending = s.pending ∧ (hostgap s).tag.store = s.tag.store := by
  unfold hostgap; (repeat' split) <;> simp

@[simp] theorem hostgap_wf_mem (s : State) (hs : bytesWf s.mem.nor = true) :
    bytesWf (hostgap s).mem.nor = true := by
  unfold hostgap; (repeat' split) <;> simp [hs]

@[simp] theorem tryUnlock_kept (s : State) (code : Word) :
    (tryUnlock s code).pending = s.pending ∧
      (tryUnlock s code).mem = s.mem ∧
      (tryUnlock s code).tag.store = s.tag.store ∧
      (tryUnlock s code).boot.keys = s.boot.keys := by
  simp [tryUnlock]

@[simp] theorem toUser_kept (s : State) :
    (toUser s).pending = s.pending ∧
      (toUser s).mem = s.mem ∧
      (toUser s).tag.store = s.tag.store ∧
      (toUser s).boot.keys = s.boot.keys := by
  simp [toUser]

@[simp] theorem streamBegin_kept (s : State) (n count : Nat) :
    (streamBegin s n count).pending = s.pending ∧
      (streamBegin s n count).mem = s.mem ∧
      (streamBegin s n count).tag.store = s.tag.store ∧
      (streamBegin s n count).boot.keys = s.boot.keys := by
  simp [streamBegin]

@[simp] theorem g3Shift_kept (s after : State) (g : G3Run) (n : Nat) (u : BitVec 40)
    (h : after.pending = s.pending ∧ after.mem = s.mem ∧ after.tag.store = s.tag.store ∧ after.boot.keys = s.boot.keys) :
    (g3Shift s after g n u).pending = s.pending ∧
      (g3Shift s after g n u).mem = s.mem ∧
      (g3Shift s after g n u).tag.store = s.tag.store ∧
      (g3Shift s after g n u).boot.keys = s.boot.keys := by
  simp [g3Shift, h]

@[simp] theorem g3Serve_kept (f : Nat) (s : State) :
    (g3Serve f s).pending = s.pending ∧
      (g3Serve f s).mem = s.mem ∧
      (g3Serve f s).tag.store = s.tag.store ∧
      (g3Serve f s).boot.keys = s.boot.keys := by
  induction f generalizing s with
  | zero => simp [g3Serve]
  | succ f ih =>
    unfold g3Serve
    dsimp only
    (repeat' split) <;> simp [ih]

@[simp] theorem g3Go_kept (s : State) :
    (g3Go s).pending = s.pending ∧
      (g3Go s).mem = s.mem ∧
      (g3Go s).tag.store = s.tag.store ∧
      (g3Go s).boot.keys = s.boot.keys := by
  unfold g3Go; split <;> simp

@[simp] theorem g3Wake_kept (s : State) :
    (g3Wake s).pending = s.pending ∧
      (g3Wake s).mem = s.mem ∧
      (g3Wake s).tag.store = s.tag.store ∧
      (g3Wake s).boot.keys = s.boot.keys := by
  unfold g3Wake; split <;> simp

@[simp] theorem g3Transfer_kept (s : State) (edges : Nat) (ecc : List Nat) :
    (g3Transfer s edges ecc).pending = s.pending ∧
      (g3Transfer s edges ecc).mem = s.mem ∧
      (g3Transfer s edges ecc).tag.store = s.tag.store ∧
      (g3Transfer s edges ecc).boot.keys = s.boot.keys := by
  unfold g3Transfer; split <;> simp

@[simp] theorem g3Stall_kept (s : State) :
    (g3Stall s).pending = s.pending ∧
      (g3Stall s).mem = s.mem ∧
      (g3Stall s).tag.store = s.tag.store ∧
      (g3Stall s).boot.keys = s.boot.keys := by
  unfold g3Stall; split <;> simp

@[simp] theorem g1Unit_kept (s0 s : State) (data : Byte) (r : Nat) (bad : Bool) :
    (g1Unit s0 s data r bad).pending = s.pending ∧
      (g1Unit s0 s data r bad).mem = s.mem ∧
      (g1Unit s0 s data r bad).tag.store = s.tag.store ∧
      (g1Unit s0 s data r bad).boot.keys = s.boot.keys := by
  simp [g1Unit]

@[simp] theorem g1ReadUnit_kept (s : State) (a : Nat) :
    (g1ReadUnit s a).pending = s.pending ∧
      (g1ReadUnit s a).mem = s.mem ∧
      (g1ReadUnit s a).tag.store = s.tag.store ∧
      (g1ReadUnit s a).boot.keys = s.boot.keys := by
  unfold g1ReadUnit; split <;> simp

@[simp] theorem g1WriteUnit_kept (s : State) (a : Nat) (data : Byte) :
    (g1WriteUnit s a data).pending = s.pending ∧ (g1WriteUnit s a data).tag.store = s.tag.store := by
  unfold g1WriteUnit; (repeat' split) <;> simp

@[simp] theorem g1WriteUnit_wf_mem (s : State) (a : Nat) (data : Byte) (hs : bytesWf s.mem.nor = true) :
    bytesWf (g1WriteUnit s a data).mem.nor = true := by
  unfold g1WriteUnit; (repeat' split) <;> simp [hs]

@[simp] theorem hselFall_kept (s : State) (hsck : Bool) :
    (hselFall s hsck).pending = s.pending ∧
      (hselFall s hsck).mem = s.mem ∧
      (hselFall s hsck).tag.store = s.tag.store ∧
      (hselFall s hsck).boot.keys = s.boot.keys := by
  simp [hselFall]

@[simp] theorem endFrame_kept (s : State) (r : Nat) (extra : Bool) :
    (endFrame s r extra).pending = s.pending ∧
      (endFrame s r extra).mem = s.mem ∧
      (endFrame s r extra).tag.store = s.tag.store ∧
      (endFrame s r extra).boot.keys = s.boot.keys := by
  unfold endFrame; (repeat' split) <;> simp

@[simp] theorem g3End_kept (s0 : State) (g0 : G3Run) (more : Bool) :
    (g3End s0 g0 more).pending = s0.pending ∧
      (g3End s0 g0 more).mem = s0.mem ∧
      (g3End s0 g0 more).tag.store = s0.tag.store ∧
      (g3End s0 g0 more).boot.keys = s0.boot.keys := by
  simp [g3End]

@[simp] theorem frameEnd_kept (s : State) (e : SelectEnd) :
    (frameEnd s e).pending = s.pending ∧
      (frameEnd s e).mem = s.mem ∧
      (frameEnd s e).tag.store = s.tag.store ∧
      (frameEnd s e).boot.keys = s.boot.keys := by
  simp [frameEnd]

@[simp] theorem hselDone_kept (s : State) :
    (hselDone s).pending = s.pending ∧
      (hselDone s).mem = s.mem ∧
      (hselDone s).tag.store = s.tag.store ∧
      (hselDone s).boot.keys = s.boot.keys := by
  simp [hselDone]

@[simp] theorem selectEnds_kept (s : State) (e : SelectEnd) :
    (selectEnds s e).pending = s.pending ∧
      (selectEnds s e).mem = s.mem ∧
      (selectEnds s e).tag.store = s.tag.store ∧
      (selectEnds s e).boot.keys = s.boot.keys := by
  unfold selectEnds; (repeat' split) <;> simp

@[simp] theorem hselRise_kept (s : State) (e : SelectEnd) :
    (hselRise s e).pending = s.pending ∧
      (hselRise s e).mem = s.mem ∧
      (hselRise s e).tag.store = s.tag.store ∧
      (hselRise s e).boot.keys = s.boot.keys := by
  unfold hselRise; (repeat' split) <;> simp

/-! ### Records -/

theorem untilRefused_keeps {α : Type} (P : State → Prop) (f : State → α → RecResult) (h : ∀ t x, P t → P (f t x).1)
    (s : State) (l : List α) (hs : P s) : P (untilRefused f s l).1 := by
  refine foldl_keeps_fst P _ ?_ l (s, none) hs
  intro p x hp
  split
  · exact hp
  · exact h _ _ hp

@[simp] theorem untilRefused_kept_pend {α : Type} (f : State → α → RecResult) (h : ∀ t x, (f t x).1.pending = t.pending)
    (s : State) (l : List α) : (untilRefused f s l).1.pending = s.pending :=
  untilRefused_keeps (fun t => t.pending = s.pending) f (fun t x ht => (h t x).trans ht) s l rfl

@[simp] theorem untilRefused_kept_mem {α : Type} (f : State → α → RecResult) (h : ∀ t x, (f t x).1.mem = t.mem)
    (s : State) (l : List α) : (untilRefused f s l).1.mem = s.mem :=
  untilRefused_keeps (fun t => t.mem = s.mem) f (fun t x ht => (h t x).trans ht) s l rfl

@[simp] theorem untilRefused_kept_store {α : Type} (f : State → α → RecResult)
    (h : ∀ t x, (f t x).1.tag.store = t.tag.store) (s : State) (l : List α) :
    (untilRefused f s l).1.tag.store = s.tag.store :=
  untilRefused_keeps (fun t => t.tag.store = s.tag.store) f (fun t x ht => (h t x).trans ht) s l rfl

@[simp] theorem untilRefused_kept_keys {α : Type} (f : State → α → RecResult)
    (h : ∀ t x, (f t x).1.boot.keys = t.boot.keys) (s : State) (l : List α) :
    (untilRefused f s l).1.boot.keys = s.boot.keys :=
  untilRefused_keeps (fun t => t.boot.keys = s.boot.keys) f (fun t x ht => (h t x).trans ht) s l rfl

@[simp] theorem untilRefused_wf_mem {α : Type} (f : State → α → RecResult)
    (h : ∀ t x, bytesWf t.mem.nor = true → bytesWf (f t x).1.mem.nor = true) (s : State) (l : List α)
    (hs : bytesWf s.mem.nor = true) : bytesWf (untilRefused f s l).1.mem.nor = true :=
  untilRefused_keeps (fun t => bytesWf t.mem.nor = true) f h s l hs

@[simp] theorem recCommit_kept (s : State) (b : BlockInst) :
    (recCommit s b).1.pending = s.pending ∧
      (recCommit s b).1.mem = s.mem ∧
      (recCommit s b).1.tag.store = s.tag.store ∧
      (recCommit s b).1.boot.keys = s.boot.keys := by
  simp [recCommit]

@[simp] theorem recDone_kept (r : RecResult) :
    (recDone r).pending = r.1.pending ∧
      (recDone r).mem = r.1.mem ∧
      (recDone r).tag.store = r.1.tag.store ∧
      (recDone r).boot.keys = r.1.boot.keys := by
  unfold recDone; split <;> simp

@[simp] theorem tripleWrite_kept (s : State) (t : RegTriple) :
    (tripleWrite s t).1.pending = s.pending ∧ (tripleWrite s t).1.tag.store = s.tag.store := by
  unfold tripleWrite; simp only []; (repeat' split) <;> simp_all

@[simp] theorem tripleWrite_wf_mem (s : State) (t : RegTriple) (hs : bytesWf s.mem.nor = true) :
    bytesWf (tripleWrite s t).1.mem.nor = true := by
  unfold tripleWrite; simp only []; (repeat' split) <;> simp_all

@[simp] theorem regRec_kept (s : State) (ts : List RegTriple) :
    (regRec s ts).1.pending = s.pending ∧ (regRec s ts).1.tag.store = s.tag.store := by
  simp [regRec]

@[simp] theorem regRec_wf_mem (s : State) (ts : List RegTriple) (hs : bytesWf s.mem.nor = true) :
    bytesWf (regRec s ts).1.mem.nor = true := by
  unfold regRec; (repeat' split) <;> simp_all

@[simp] theorem blockRec_kept (s : State) (a : Nat) (ws : List Word) (commit : Bool) :
    (blockRec s a ws commit).1.pending = s.pending ∧ (blockRec s a ws commit).1.tag.store = s.tag.store := by
  simp [blockRec]

@[simp] theorem blockRec_wf_mem (s : State) (a : Nat) (ws : List Word) (commit : Bool) (hs : bytesWf s.mem.nor = true) :
    bytesWf (blockRec s a ws commit).1.mem.nor = true := by
  unfold blockRec
  dsimp only
  split
  · exact hs
  · have h : ∀ l : List (Nat × Word), bytesWf (l.foldl (fun t p => regWrite t .firmware p.1 p.2) s).mem.nor = true :=
      fun l => foldl_keeps (fun t => bytesWf t.mem.nor = true) (fun t p => regWrite t .firmware p.1 p.2)
        (fun t p ht => regWrite_wf_mem _ _ _ _ ht) l s hs
    split
    · exact untilRefused_wf_mem _ (fun t x ht => by simpa using ht) _ _ (h _)
    · exact h _

@[simp] theorem slateSectorRec_kept (bad : List Nat) (s : State) (es : List (Nat × Entry)) :
    (slateSectorRec bad s es).1.pending = s.pending ∧
      (slateSectorRec bad s es).1.tag.store = s.tag.store ∧
      (slateSectorRec bad s es).1.boot.keys = s.boot.keys := by
  unfold slateSectorRec; split <;> simp

@[simp] theorem slateSectorRec_wf_mem (bad : List Nat) (s : State) (es : List (Nat × Entry)) (hs : bytesWf s.mem.nor = true) :
    bytesWf (slateSectorRec bad s es).1.mem.nor = true := by
  unfold slateSectorRec; simp only []; (repeat' split) <;> simp_all

@[simp] theorem slateRec_kept (s : State) (first : Nat) (preserve : Bool) (entries : List Entry) (bad : List Nat) :
    (slateRec s first preserve entries bad).1.pending = s.pending ∧
      (slateRec s first preserve entries bad).1.tag.store = s.tag.store ∧
      (slateRec s first preserve entries bad).1.boot.keys = s.boot.keys := by
  unfold slateRec; simp only []; (repeat' split) <;> simp_all

@[simp] theorem slateRec_wf_mem (s : State) (first : Nat) (preserve : Bool) (entries : List Entry) (bad : List Nat) (hs : bytesWf s.mem.nor = true) :
    bytesWf (slateRec s first preserve entries bad).1.mem.nor = true := by
  unfold slateRec; simp only []; (repeat' split) <;> simp_all

@[simp] theorem hedgeStage_kept (s : State) (e : HedgeEntry) :
    (hedgeStage s e).pending = s.pending ∧
      (hedgeStage s e).mem = s.mem ∧
      (hedgeStage s e).tag.store = s.tag.store ∧
      (hedgeStage s e).boot.keys = s.boot.keys := by
  simp [hedgeStage]

@[simp] theorem hedgeCommit_kept (s0 : State) (es : List HedgeEntry) (s : State) (n : Nat) :
    (hedgeCommit s0 es s n).1.pending = s.pending ∧
      (hedgeCommit s0 es s n).1.mem = s.mem ∧
      (hedgeCommit s0 es s n).1.tag.store = s.tag.store ∧
      (hedgeCommit s0 es s n).1.boot.keys = s.boot.keys := by
  simp [hedgeCommit]

@[simp] theorem hedgeRec_kept (s : State) (es : List HedgeEntry) :
    (hedgeRec s es).1.pending = s.pending ∧
      (hedgeRec s es).1.mem = s.mem ∧
      (hedgeRec s es).1.tag.store = s.tag.store ∧
      (hedgeRec s es).1.boot.keys = s.boot.keys := by
  simp [hedgeRec]

@[simp] theorem calRec_kept (s : State) (item inst : Nat) (trusted : Bool) (ws : List Word) :
    (calRec s item inst trusted ws).1.pending = s.pending ∧
      (calRec s item inst trusted ws).1.mem = s.mem ∧
      (calRec s item inst trusted ws).1.tag.store = s.tag.store ∧
      (calRec s item inst trusted ws).1.boot.keys = s.boot.keys := by
  unfold calRec; simp only []; (repeat' split) <;> simp_all

@[simp] theorem keyRec_kept (s : State) (usage slot : Nat) (key : List Byte) :
    (keyRec s usage slot key).1.pending = s.pending ∧
      (keyRec s usage slot key).1.mem = s.mem ∧
      (keyRec s usage slot key).1.tag.store = s.tag.store := by
  simp [keyRec]

@[simp] theorem protRec_kept (s : State) (es : List ProtEntry) :
    (protRec s es).1.pending = s.pending ∧
      (protRec s es).1.mem = s.mem ∧
      (protRec s es).1.tag.store = s.tag.store ∧
      (protRec s es).1.boot.keys = s.boot.keys := by
  simp [protRec]

@[simp] theorem recSkip_kept (s : State) (index type : Nat) :
    (recSkip s index type).pending = s.pending ∧
      (recSkip s index type).mem = s.mem ∧
      (recSkip s index type).tag.store = s.tag.store ∧
      (recSkip s index type).boot.keys = s.boot.keys := by
  simp [recSkip]

@[simp] theorem applyRec_kept (s : State) (bad : List Nat) (r : Rec) :
    (applyRec s bad r).1.pending = s.pending ∧ (applyRec s bad r).1.tag.store = s.tag.store := by
  unfold applyRec; split <;> simp

@[simp] theorem applyRec_wf_mem (s : State) (bad : List Nat) (r : Rec) (hs : bytesWf s.mem.nor = true) :
    bytesWf (applyRec s bad r).1.mem.nor = true := by
  unfold applyRec; split <;> simp [hs]

@[simp] theorem stepRec_kept (bad : List Nat) (s : State) (r : Rec) :
    (stepRec bad s r).pending = s.pending ∧ (stepRec bad s r).tag.store = s.tag.store := by
  simp [stepRec]

@[simp] theorem stepRec_wf_mem (bad : List Nat) (s : State) (r : Rec) (hs : bytesWf s.mem.nor = true) :
    bytesWf (stepRec bad s r).mem.nor = true := by
  unfold stepRec; (repeat' split) <;> simp [hs]

/-! ### Startup -/

@[simp] theorem stepsToStraps_kept (s : State) (inp : StartInputs) :
    (stepsToStraps s inp).pending = s.pending ∧
      (stepsToStraps s inp).mem = s.mem ∧
      (stepsToStraps s inp).tag.store = s.tag.store ∧
      (stepsToStraps s inp).boot.keys = s.boot.keys := by
  simp [stepsToStraps]

@[simp] theorem startOver_kept (s : State) :
    (startOver s).pending = s.pending ∧
      (startOver s).mem = s.mem ∧
      (startOver s).tag.store = s.tag.store ∧
      (startOver s).boot.keys = s.boot.keys := by
  simp [startOver]

@[simp] theorem raiseBootDone_kept (s : State) :
    (raiseBootDone s).pending = s.pending ∧
      (raiseBootDone s).mem = s.mem ∧
      (raiseBootDone s).tag.store = s.tag.store ∧
      (raiseBootDone s).boot.keys = s.boot.keys := by
  simp [raiseBootDone]

@[simp] theorem enterBare_kept (s : State) :
    (enterBare s).pending = s.pending ∧
      (enterBare s).mem = s.mem ∧
      (enterBare s).tag.store = s.tag.store ∧
      (enterBare s).boot.keys = s.boot.keys := by
  simp [enterBare]

@[simp] theorem recoverLink_kept (s : State) (formatted : Bool) :
    (recoverLink s formatted).pending = s.pending ∧
      (recoverLink s formatted).mem = s.mem ∧
      (recoverLink s formatted).tag.store = s.tag.store ∧
      (recoverLink s formatted).boot.keys = s.boot.keys := by
  simp [recoverLink]

@[simp] theorem bootDone_kept (s : State) :
    (bootDone s).pending = s.pending ∧
      (bootDone s).mem = s.mem ∧
      (bootDone s).tag.store = s.tag.store ∧
      (bootDone s).boot.keys = s.boot.keys := by
  simp [bootDone]

@[simp] theorem stepsFromMount_kept (s : State) (inp : StartInputs) :
    (stepsFromMount s inp).pending = s.pending ∧
      (stepsFromMount s inp).mem = s.mem ∧
      (stepsFromMount s inp).tag.store = s.tag.store ∧
      (stepsFromMount s inp).boot.keys = s.boot.keys := by
  simp [stepsFromMount]

@[simp] theorem strictRecs_kept (bad : List Nat) (s : State) (l : List Rec) :
    (strictRecs bad s l).pending = s.pending ∧ (strictRecs bad s l).tag.store = s.tag.store := by
  simp [strictRecs]

@[simp] theorem strictRecs_wf_mem (bad : List Nat) (s : State) (l : List Rec) (hs : bytesWf s.mem.nor = true) :
    bytesWf (strictRecs bad s l).mem.nor = true := by
  exact foldl_keeps (fun t => bytesWf t.mem.nor = true) _
    (fun t r ht => by
      split
      · exact ht
      · exact stepRec_wf_mem _ _ _ ht) l s hs

@[simp] theorem applyImage_kept (s : State) (second : Bool) (bad : List Nat) :
    (applyImage s second bad).pending = s.pending ∧ (applyImage s second bad).tag.store = s.tag.store := by
  simp [applyImage]

@[simp] theorem applyImage_wf_mem (s : State) (second : Bool) (bad : List Nat) (hs : bytesWf s.mem.nor = true) :
    bytesWf (applyImage s second bad).mem.nor = true := by
  unfold applyImage
  dsimp only
  split
  · exact strictRecs_wf_mem _ _ _ (by simpa using hs)
  · exact foldl_keeps (fun t => bytesWf t.mem.nor = true) _ (fun t r ht => stepRec_wf_mem _ _ _ ht) _ _ (by simpa using hs)

@[simp] theorem strictReset_kept (s : State) (second : Bool) :
    (strictReset s second).pending = s.pending ∧ (strictReset s second).tag.store = s.tag.store := by
  simp [strictReset]

@[simp] theorem strictReset_wf_mem (s : State) (second : Bool) (hs : bytesWf s.mem.nor = true) :
    bytesWf (strictReset s second).mem.nor = true := by
  simp [hs, strictReset]

@[simp] theorem imageTaken_kept (s : State) (second : Bool) :
    (imageTaken s second).pending = s.pending ∧
      (imageTaken s second).mem = s.mem ∧
      (imageTaken s second).tag.store = s.tag.store ∧
      (imageTaken s second).boot.keys = s.boot.keys := by
  simp [imageTaken]

@[simp] theorem norSends_kept (s : State) (l : List Byte) :
    (norSends s l).pending = s.pending ∧ (norSends s l).mem.nor = s.mem.nor ∧ (norSends s l).tag.store = s.tag.store ∧
      (norSends s l).boot.keys = s.boot.keys := ⟨rfl, rfl, rfl, rfl⟩

@[simp] theorem tryImage_kept (bad : List Nat) (s0 : State) (second : Bool) :
    (tryImage bad s0 second).1.pending = s0.pending ∧
      (tryImage bad s0 second).1.tag.store = s0.tag.store := by
  simp [tryImage]

@[simp] theorem tryImage_wf_mem (bad : List Nat) (s0 : State) (second : Bool) (hs : bytesWf s0.mem.nor = true) :
    bytesWf (tryImage bad s0 second).1.mem.nor = true := by
  unfold tryImage; simp only []; (repeat' split) <;> simp_all

@[simp] theorem chooseImage_kept (s0 : State) (inp : StartInputs) :
    (chooseImage s0 inp).1.pending = s0.pending ∧ (chooseImage s0 inp).1.tag.store = s0.tag.store := by
  unfold chooseImage
  dsimp only
  split
  · simp
  · exact foldl_keeps_fst (fun t => t.pending = s0.pending ∧ t.tag.store = s0.tag.store) _
      (fun p b hp => by
        split
        · exact hp
        · simpa using hp) _ _ (by simp)

@[simp] theorem chooseImage_wf_mem (s0 : State) (inp : StartInputs) (hs : bytesWf s0.mem.nor = true) :
    bytesWf (chooseImage s0 inp).1.mem.nor = true := by
  unfold chooseImage
  dsimp only
  split
  · simpa using hs
  · exact foldl_keeps_fst (fun t => bytesWf t.mem.nor = true) _
      (fun p b hp => by
        split
        · exact hp
        · exact tryImage_wf_mem _ _ _ hp) _ _ (by simpa using hs)

@[simp] theorem stepsFromImage_kept (s : State) (inp : StartInputs) :
    (stepsFromImage s inp).pending = s.pending ∧ (stepsFromImage s inp).tag.store = s.tag.store := by
  simp [stepsFromImage]

@[simp] theorem stepsFromImage_wf_mem (s : State) (inp : StartInputs) (hs : bytesWf s.mem.nor = true) :
    bytesWf (stepsFromImage s inp).mem.nor = true := by
  unfold stepsFromImage; split <;> simp [hs]

@[simp] theorem startUp_kept (s : State) (inp : StartInputs) :
    (startUp s inp).pending = s.pending ∧ (startUp s inp).tag.store = s.tag.store := by
  unfold startUp; (repeat' split) <;> simp

@[simp] theorem startUp_wf_mem (s : State) (inp : StartInputs) (hs : bytesWf s.mem.nor = true) :
    bytesWf (startUp s inp).mem.nor = true := by
  unfold startUp; (repeat' split) <;> simp [hs]

end Sys2Proof.Machine
end

