-- ==== Sys2Proof/Laws/KeptExec.lean ====
section
/-! SUPPORT. What the meaning of every command leave alone: the queue, the memory device, the tag store and the
keys, but for those that write them, which keep the canonical form of the store they write. -/

open Sys2Proof

namespace Sys2Proof.Machine

/-! ### Exec -/

/-- A meaning answers a next state, leaves the queue as it was, and keeps the canonical form of both byte stores. -/
def Kept (s : State) (o : Host.Outcome State Fault Refusal) : Prop :=
  ∃ t, o = .next t ∧ t.pending = s.pending ∧ (bytesWf s.mem.nor = true → bytesWf t.mem.nor = true) ∧
    (bytesWf s.tag.store = true → bytesWf t.tag.store = true)

theorem Kept.of {s t : State} (hp : t.pending = s.pending) (hm : bytesWf s.mem.nor = true → bytesWf t.mem.nor = true)
    (hs : bytesWf s.tag.store = true → bytesWf t.tag.store = true) : Kept s (next t) :=
  ⟨t, rfl, hp, hm, hs⟩

theorem execChannelUnbar_kept (index : Fin 50) (s : State) :
    Kept s (execChannelUnbar index s) := by
  unfold execChannelUnbar
  apply Kept.of <;> (repeat' split) <;> simp_all

theorem execOccBin_kept (s : State) :
    Kept s (execOccBin s) := by
  unfold execOccBin
  exact .of (by simp) (fun h => by simp [h]) (fun h => by simp [h])

theorem execRequestPost_kept (req : RequestSpec) (s : State) :
    Kept s (execRequestPost req s) := by
  unfold execRequestPost
  exact .of (by simp) (fun h => by simp [h]) (fun h => by simp [h])

theorem execRequestWithdraw_kept (who : Consumer) (s : State) :
    Kept s (execRequestWithdraw who s) := by
  unfold execRequestWithdraw
  exact .of (by simp) (fun h => by simp [h]) (fun h => by simp [h])

theorem execTopUp_kept (holder : Consumer) (mask : BitVec 11) (kind : LeaseKind) (s : State) :
    Kept s (execTopUp holder mask kind s) := by
  unfold execTopUp
  exact .of (by simp) (fun h => by simp [h]) (fun h => by simp [h])

theorem execQtzTime0Read_kept (lvl : Level) (s : State) :
    Kept s (execQtzTime0Read lvl s) := by
  unfold execQtzTime0Read
  exact .of (by simp) (fun h => by simp [h]) (fun h => by simp [h])

theorem execSettime_kept (lvl : Level) (key : BitVec 16) (clrOsf : Bool) (s : State) :
    Kept s (execSettime lvl key clrOsf s) := by
  unfold execSettime
  exact .of (by simp) (fun h => by simp [h]) (fun h => by simp [h])

theorem execQtzCancel_kept (lvl : Level) (key : BitVec 16) (s : State) :
    Kept s (execQtzCancel lvl key s) := by
  unfold execQtzCancel
  exact .of (by simp) (fun h => by simp [h]) (fun h => by simp [h])

theorem execPwrRelease_kept (lvl : Level) (key : BitVec 16) (s : State) :
    Kept s (execPwrRelease lvl key s) := by
  unfold execPwrRelease
  exact .of (by simp) (fun h => by simp [h]) (fun h => by simp [h])

theorem execPwrAssert_kept (lvl : Level) (key : BitVec 16) (s : State) :
    Kept s (execPwrAssert lvl key s) := by
  unfold execPwrAssert
  exact .of (by simp) (fun h => by simp [h]) (fun h => by simp [h])

theorem execShiftRequest_kept (lvl : Level) (value : Word) (s : State) :
    Kept s (execShiftRequest lvl value s) := by
  unfold execShiftRequest
  exact .of (by simp) (fun h => by simp [h]) (fun h => by simp [h])

theorem execCountdownWrite_kept (lvl : Level) (value : Word) (s : State) :
    Kept s (execCountdownWrite lvl value s) := by
  unfold execCountdownWrite
  exact .of (by simp) (fun h => by simp [h]) (fun h => by simp [h])

theorem execCountdownZero_kept (s : State) :
    Kept s (execCountdownZero s) := by
  unfold execCountdownZero
  exact .of (by simp) (fun h => by simp [h]) (fun h => by simp [h])

theorem execTrimAdjustment_kept (s : State) :
    Kept s (execTrimAdjustment s) := by
  unfold execTrimAdjustment
  exact .of (by simp) (fun h => by simp [h]) (fun h => by simp [h])

theorem execMainszcEdge_kept (s : State) :
    Kept s (execMainszcEdge s) := by
  unfold execMainszcEdge
  exact .of (by simp) (fun h => by simp [h]) (fun h => by simp [h])

theorem execAutotrimEdgeTimeout_kept (s : State) :
    Kept s (execAutotrimEdgeTimeout s) := by
  unfold execAutotrimEdgeTimeout
  apply Kept.of <;> (repeat' split) <;> simp_all

theorem execOscStop_kept (s : State) :
    Kept s (execOscStop s) := by
  unfold execOscStop
  exact .of (by simp) (fun h => by simp [h]) (fun h => by simp [h])

theorem execVbatCheck_kept (low : Bool) (s : State) :
    Kept s (execVbatCheck low s) := by
  unfold execVbatCheck
  exact .of (by simp) (fun h => by simp [h]) (fun h => by simp [h])

theorem execPwronPulseEnd_kept (s : State) :
    Kept s (execPwronPulseEnd s) := by
  unfold execPwronPulseEnd
  apply Kept.of <;> (repeat' split) <;> simp_all

theorem execVbatLoss_kept (s : State) :
    Kept s (execVbatLoss s) := by
  unfold execVbatLoss
  exact .of (by simp) (fun h => by simp [h]) (fun h => by simp [h])

theorem execVbatReturn_kept (s : State) :
    Kept s (execVbatReturn s) := by
  unfold execVbatReturn
  exact .of (by simp) (fun h => by simp [h]) (fun h => by simp [h])

theorem execIntervalReport_kept (s : State) :
    Kept s (execIntervalReport s) := by
  unfold execIntervalReport
  exact .of (by simp) (fun h => by simp [h]) (fun h => by simp [h])

theorem execReadMerge_kept (read : ReadIn) (s : State) :
    Kept s (execReadMerge read s) := by
  unfold execReadMerge
  exact .of (by simp) (fun h => by simp [h]) (fun h => by simp [h])

theorem execSightingTick_kept (s : State) :
    Kept s (execSightingTick s) := by
  unfold execSightingTick
  exact .of (by simp) (fun h => by simp [h]) (fun h => by simp [h])

theorem execSgtCfgWrite_kept (lvl : Level) (value : Word) (s : State) :
    Kept s (execSgtCfgWrite lvl value s) := by
  unfold execSgtCfgWrite
  exact .of (by simp) (fun h => by simp [h]) (fun h => by simp [h])

theorem execSgtSelWrite_kept (lvl : Level) (value : Word) (s : State) :
    Kept s (execSgtSelWrite lvl value s) := by
  unfold execSgtSelWrite
  exact .of (by simp) (fun h => by simp [h]) (fun h => by simp [h])

theorem execSecondBoundary_kept (s : State) :
    Kept s (execSecondBoundary s) := by
  unfold execSecondBoundary
  exact .of (by simp) (fun h => by simp [h]) (fun h => by simp [h])

theorem execSetNow_kept (lvl : Level) (key : BitVec 16) (clrOsf : Bool) (s : State) :
    Kept s (execSetNow lvl key clrOsf s) := by
  unfold execSetNow
  exact .of (by simp) (fun h => by simp [h]) (fun h => by simp [h])

theorem execOscRestart_kept (s : State) :
    Kept s (execOscRestart s) := by
  unfold execOscRestart
  exact .of (by simp) (fun h => by simp [h]) (fun h => by simp [h])

theorem execAutotrimWindowEnd_kept (s : State) :
    Kept s (execAutotrimWindowEnd s) := by
  unfold execAutotrimWindowEnd
  exact .of (by simp) (fun h => by simp [h]) (fun h => by simp [h])

theorem execPacketAdmit_kept (ch : Fin 9) (words : List Word) (s : State) :
    Kept s (execPacketAdmit ch words s) := by
  unfold execPacketAdmit
  exact .of (by simp) (fun h => by simp [h]) (fun h => by simp [h])

theorem execStaleTimeout_kept (ch : Fin 8) (s : State) :
    Kept s (execStaleTimeout ch s) := by
  unfold execStaleTimeout
  exact .of (by simp) (fun h => by simp [h]) (fun h => by simp [h])

theorem execFifoPortRead_kept (lvl : Level) (ch : Fin 8) (ecc : Fin 3) (s : State) :
    Kept s (execFifoPortRead lvl ch ecc s) := by
  unfold execFifoPortRead
  exact .of (by simp) (fun h => by simp [h]) (fun h => by simp [h])

theorem execDropPkt_kept (lvl : Level) (ch : Fin 8) (s : State) :
    Kept s (execDropPkt lvl ch s) := by
  unfold execDropPkt
  exact .of (by simp) (fun h => by simp [h]) (fun h => by simp [h])

theorem execFifoFlush_kept (lvl : Level) (ch : Fin 8) (s : State) :
    Kept s (execFifoFlush lvl ch s) := by
  unfold execFifoFlush
  exact .of (by simp) (fun h => by simp [h]) (fun h => by simp [h])

theorem execJournalRecord_kept (ecc : Fin 3) (s : State) (more : List (Fin 3)) :
    Kept s (execJournalRecord ecc s more) := by
  unfold execJournalRecord
  exact .of (by simp) (fun h => by simp [h]) (fun h => by simp [h])

theorem execJournalPageProgram_kept (ok : Bool) (s : State) :
    Kept s (execJournalPageProgram ok s) := by
  unfold execJournalPageProgram
  exact .of (by simp) (fun h => by simp [h]) (fun h => by simp [h])

theorem execJnlFlushTimeout_kept (s : State) :
    Kept s (execJnlFlushTimeout s) := by
  unfold execJnlFlushTimeout
  exact .of (by simp) (fun h => by simp [h]) (fun h => by simp [h])

theorem execJournalErase_kept (ok : Bool) (s : State) :
    Kept s (execJournalErase ok s) := by
  unfold execJournalErase
  exact .of (by simp) (fun h => by simp [h]) (fun h => by simp [h])

theorem execFormat_kept (lvl : Level) (key : BitVec 16) (s : State) :
    Kept s (execFormat lvl key s) := by
  unfold execFormat
  exact .of (by simp) (fun h => by simp [h]) (fun h => by simp [h])

theorem execJournalFlush_kept (lvl : Level) (key : BitVec 16) (s : State) :
    Kept s (execJournalFlush lvl key s) := by
  unfold execJournalFlush
  exact .of (by simp) (fun h => by simp [h]) (fun h => by simp [h])

theorem execJournalRead_kept (lvl : Level) (page : BitVec 21) (correctable : Bool) (s : State) :
    Kept s (execJournalRead lvl page correctable s) := by
  unfold execJournalRead
  exact .of (by simp) (fun h => by simp [h]) (fun h => by simp [h])

theorem execTagFieldOn_kept (harvOk : Bool) (s : State) :
    Kept s (execTagFieldOn harvOk s) := by
  unfold execTagFieldOn
  exact .of (by simp) (fun h => by simp [h]) (fun h => by simp [h])

theorem execTagFieldLost_kept (s : State) :
    Kept s (execTagFieldLost s) := by
  unfold execTagFieldLost
  exact .of (by simp) (fun h => by simp [h]) (fun h => by simp [h])

theorem execInventory_kept (hdr : TagHdr) (afi : Option Byte) (maskLen : Byte) (mask : BitVec 64) (s : State) :
    Kept s (execInventory hdr afi maskLen mask s) := by
  unfold execInventory
  exact .of (by simp) (fun h => by simp [h]) (fun h => by simp [h])

theorem execStayQuiet_kept (hdr : TagHdr) (s : State) :
    Kept s (execStayQuiet hdr s) := by
  unfold execStayQuiet
  exact .of (by simp) (fun h => by simp [h]) (fun h => by simp [h])

theorem execReadSingleBlock_kept (hdr : TagHdr) (block : Byte) (s : State) :
    Kept s (execReadSingleBlock hdr block s) := by
  unfold execReadSingleBlock
  exact .of (by simp) (fun h => by simp [h]) (fun h => by simp [h])

theorem execWriteSingleBlock_kept (hdr : TagHdr) (block : Byte) (data : Word) (prog : ProgResult) (s : State) :
    Kept s (execWriteSingleBlock hdr block data prog s) := by
  unfold execWriteSingleBlock
  apply Kept.of <;> (repeat' split) <;> simp_all

theorem execReadMultipleBlocks_kept (hdr : TagHdr) (first : Byte) (count : Nat) (s : State) :
    Kept s (execReadMultipleBlocks hdr first count s) := by
  unfold execReadMultipleBlocks
  exact .of (by simp) (fun h => by simp [h]) (fun h => by simp [h])

theorem execWriteMultipleBlocks_kept (hdr : TagHdr) (first : Byte) (data : List Word) (prog : ProgResult) (s : State) :
    Kept s (execWriteMultipleBlocks hdr first data prog s) := by
  unfold execWriteMultipleBlocks
  apply Kept.of <;> (repeat' split) <;> simp_all

theorem execExtendedReadSingleBlock_kept (hdr : TagHdr) (block : BitVec 16) (s : State) :
    Kept s (execExtendedReadSingleBlock hdr block s) := by
  unfold execExtendedReadSingleBlock
  exact .of (by simp) (fun h => by simp [h]) (fun h => by simp [h])

theorem execExtendedWriteSingleBlock_kept (hdr : TagHdr) (block : BitVec 16) (data : Word) (prog : ProgResult) (s : State) :
    Kept s (execExtendedWriteSingleBlock hdr block data prog s) := by
  unfold execExtendedWriteSingleBlock
  apply Kept.of <;> (repeat' split) <;> simp_all

theorem execExtendedReadMultipleBlocks_kept (hdr : TagHdr) (first : BitVec 16) (count : Nat) (s : State) :
    Kept s (execExtendedReadMultipleBlocks hdr first count s) := by
  unfold execExtendedReadMultipleBlocks
  exact .of (by simp) (fun h => by simp [h]) (fun h => by simp [h])

theorem execExtendedWriteMultipleBlocks_kept (hdr : TagHdr) (first : BitVec 16) (data : List Word) (prog : ProgResult) (s : State) :
    Kept s (execExtendedWriteMultipleBlocks hdr first data prog s) := by
  unfold execExtendedWriteMultipleBlocks
  apply Kept.of <;> (repeat' split) <;> simp_all

theorem execSelect_kept (hdr : TagHdr) (s : State) :
    Kept s (execSelect hdr s) := by
  unfold execSelect
  exact .of (by simp) (fun h => by simp [h]) (fun h => by simp [h])

theorem execResetToReady_kept (hdr : TagHdr) (s : State) :
    Kept s (execResetToReady hdr s) := by
  unfold execResetToReady
  exact .of (by simp) (fun h => by simp [h]) (fun h => by simp [h])

theorem execGetSystemInfo_kept (hdr : TagHdr) (s : State) :
    Kept s (execGetSystemInfo hdr s) := by
  unfold execGetSystemInfo
  exact .of (by simp) (fun h => by simp [h]) (fun h => by simp [h])

theorem execExtendedGetSystemInfo_kept (hdr : TagHdr) (s : State) :
    Kept s (execExtendedGetSystemInfo hdr s) := by
  unfold execExtendedGetSystemInfo
  exact .of (by simp) (fun h => by simp [h]) (fun h => by simp [h])

theorem execUnsupportedCommand_kept (hdr : TagHdr) (_code : Byte) (s : State) :
    Kept s (execUnsupportedCommand hdr _code s) := by
  unfold execUnsupportedCommand
  exact .of (by simp) (fun h => by simp [h]) (fun h => by simp [h])

theorem execGetRandom_kept (hdr : TagHdr) (s : State) :
    Kept s (execGetRandom hdr s) := by
  unfold execGetRandom
  exact .of (by simp) (fun h => by simp [h]) (fun h => by simp [h])

theorem execLeave_kept (hdr : TagHdr) (s : State) :
    Kept s (execLeave hdr s) := by
  unfold execLeave
  exact .of (by simp) (fun h => by simp [h]) (fun h => by simp [h])

theorem execPassword_kept (hdr : TagHdr) (keynum : Byte) (p : Word) (s : State) :
    Kept s (execPassword hdr keynum p s) := by
  unfold execPassword
  exact .of (by simp) (fun h => by simp [h]) (fun h => by simp [h])

theorem execAes1_kept (hdr : TagHdr) (keynum : Byte) (rnr : BitVec 64) (s : State) :
    Kept s (execAes1 hdr keynum rnr s) := by
  unfold execAes1
  exact .of (by simp) (fun h => by simp [h]) (fun h => by simp [h])

theorem execAes2_kept (hdr : TagHdr) (e2 : BitVec 128) (s : State) :
    Kept s (execAes2 hdr e2 s) := by
  unfold execAes2
  exact .of (by simp) (fun h => by simp [h]) (fun h => by simp [h])

theorem execReadFaultLog_kept (hdr : TagHdr) (offset : BitVec 16) (count : Byte) (s : State) :
    Kept s (execReadFaultLog hdr offset count s) := by
  unfold execReadFaultLog
  exact .of (by simp) (fun h => by simp [h]) (fun h => by simp [h])

theorem execStatusSnapshot_kept (hdr : TagHdr) (count : Byte) (s : State) :
    Kept s (execStatusSnapshot hdr count s) := by
  unfold execStatusSnapshot
  exact .of (by simp) (fun h => by simp [h]) (fun h => by simp [h])

theorem execFaultLogWrite_kept (prog : ProgResult) (s : State) :
    Kept s (execFaultLogWrite prog s) := by
  unfold execFaultLogWrite
  apply Kept.of <;> (repeat' split) <;> simp_all

theorem execTagHostRead_kept (lvl : Level) (page : Byte) (s : State) :
    Kept s (execTagHostRead lvl page s) := by
  unfold execTagHostRead
  exact .of (by simp) (fun h => by simp [h]) (fun h => by simp [h])

theorem execTagCommitPoint_kept (prog : ProgResult) (s : State) :
    Kept s (execTagCommitPoint prog s) := by
  unfold execTagCommitPoint
  apply Kept.of <;> (repeat' split) <;> simp_all

theorem execTagHostWrite_kept (lvl : Level) (check : Bool) (gen page : Byte) (s : State) :
    Kept s (execTagHostWrite lvl check gen page s) := by
  unfold execTagHostWrite
  exact .of (by simp) (fun h => by simp [h]) (fun h => by simp [h])

theorem execClrfail_kept (lvl : Level) (s : State) :
    Kept s (execClrfail lvl s) := by
  unfold execClrfail
  exact .of (by simp) (fun h => by simp [h]) (fun h => by simp [h])

theorem execHarvUndervoltage_kept (s : State) :
    Kept s (execHarvUndervoltage s) := by
  unfold execHarvUndervoltage
  exact .of (by simp) (fun h => by simp [h]) (fun h => by simp [h])

theorem execHarvRetry_kept (inRegulation : Bool) (s : State) :
    Kept s (execHarvRetry inRegulation s) := by
  unfold execHarvRetry
  exact .of (by simp) (fun h => by simp [h]) (fun h => by simp [h])

theorem execStoredWordFail_kept (path : RfPath) (s : State) :
    Kept s (execStoredWordFail path s) := by
  unfold execStoredWordFail
  exact .of (by simp) (fun h => by simp [h]) (fun h => by simp [h])

theorem execPortSwitch_kept (path : RfPath) (rp : Fin 64) (s : State) :
    Kept s (execPortSwitch path rp s) := by
  unfold execPortSwitch
  exact .of (by simp) (fun h => by simp [h]) (fun h => by simp [h])

theorem execDetectorUpdate_kept (path : RfPath) (reading : BitVec 10) (s : State) :
    Kept s (execDetectorUpdate path reading s) := by
  unfold execDetectorUpdate
  exact .of (by simp) (fun h => by simp [h]) (fun h => by simp [h])

theorem execPaDisable_kept (pa : Fin 2) (s : State) :
    Kept s (execPaDisable pa s) := by
  unfold execPaDisable
  exact .of (by simp) (fun h => by simp [h]) (fun h => by simp [h])

theorem execRateSwitchDone_kept (chain : Fin 4) (s : State) :
    Kept s (execRateSwitchDone chain s) := by
  unfold execRateSwitchDone
  exact .of (by simp) (fun h => by simp [h]) (fun h => by simp [h])

theorem execAgcStep_kept (chain : Fin 4) (peak : Byte) (s : State) :
    Kept s (execAgcStep chain peak s) := by
  unfold execAgcStep
  exact .of (by simp) (fun h => by simp [h]) (fun h => by simp [h])

theorem execClipStepDown_kept (chain : Fin 4) (s : State) :
    Kept s (execClipStepDown chain s) := by
  unfold execClipStepDown
  exact .of (by simp) (fun h => by simp [h]) (fun h => by simp [h])

theorem execRefinementEnd_kept (path : RfPath) (meas : List ChainResidual) (s : State) :
    Kept s (execRefinementEnd path meas s) := by
  unfold execRefinementEnd
  exact .of (by simp) (fun h => by simp [h]) (fun h => by simp [h])

theorem execCancelCheck_kept (chain : Fin 4) (path : RfPath) (suppression : Byte) (s : State) :
    Kept s (execCancelCheck chain path suppression s) := by
  unfold execCancelCheck
  exact .of (by simp) (fun h => by simp [h]) (fun h => by simp [h])

theorem execImmediateAccess_kept (lvl : Level) (value : Word) (s : State) :
    Kept s (execImmediateAccess lvl value s) := by
  unfold execImmediateAccess
  exact .of (by simp) (fun h => by simp [h]) (fun h => by simp [h])

theorem execMspRead_kept (lvl : Level) (addr : BitVec 24) (s : State) :
    Kept s (execMspRead lvl addr s) := by
  unfold execMspRead
  exact .of (by simp) (fun h => by simp [h]) (fun h => by simp [h])

theorem execMspProgram_kept (lvl : Level) (addr : BitVec 24) (verifyOk : Bool) (s : State) :
    Kept s (execMspProgram lvl addr verifyOk s) := by
  unfold execMspProgram
  apply Kept.of <;> (repeat' split) <;> simp_all

theorem execMspErase_kept (lvl : Level) (addr : BitVec 24) (s : State) :
    Kept s (execMspErase lvl addr s) := by
  unfold execMspErase
  apply Kept.of <;> (repeat' split) <;> simp_all

theorem execCacheFill_kept (index : Fin 1024) (s : State) :
    Kept s (execCacheFill index s) := by
  unfold execCacheFill
  exact .of (by simp) (fun h => by simp [h]) (fun h => by simp [h])

theorem execSlateWrite_kept (lvl : Level) (index : Fin 1024) (s : State) :
    Kept s (execSlateWrite lvl index s) := by
  unfold execSlateWrite
  exact .of (by simp) (fun h => by simp [h]) (fun h => by simp [h])

theorem execSlateRead_kept (lvl : Level) (index : Fin 1024) (s : State) :
    Kept s (execSlateRead lvl index s) := by
  unfold execSlateRead
  exact .of (by simp) (fun h => by simp [h]) (fun h => by simp [h])

theorem execSlateErase_kept (lvl : Level) (index : Fin 1024) (s : State) :
    Kept s (execSlateErase lvl index s) := by
  unfold execSlateErase
  exact .of (by simp) (fun h => by simp [h]) (fun h => by simp [h])

theorem execSlateReadback_kept (good : Bool) (s : State) :
    Kept s (execSlateReadback good s) := by
  unfold execSlateReadback
  apply Kept.of <;> (repeat' split) <;> simp_all

theorem execSlateActivate_kept (s : State) :
    Kept s (execSlateActivate s) := by
  unfold execSlateActivate
  exact .of (by simp) (fun h => by simp [h]) (fun h => by simp [h])

theorem execEntryPending_kept (index : Fin 1024) (s : State) :
    Kept s (execEntryPending index s) := by
  unfold execEntryPending
  exact .of (by simp) (fun h => by simp [h]) (fun h => by simp [h])

theorem execSlotPost_kept (kind : SlotKind) (src : Fin 4) (s : State) :
    Kept s (execSlotPost kind src s) := by
  unfold execSlotPost
  exact .of (by simp) (fun h => by simp [h]) (fun h => by simp [h])

theorem execRescan_kept (src : Fin 4) (s : State) :
    Kept s (execRescan src s) := by
  unfold execRescan
  exact .of (by simp) (fun h => by simp [h]) (fun h => by simp [h])

theorem execHoldoverEnd_kept (s : State) :
    Kept s (execHoldoverEnd s) := by
  unfold execHoldoverEnd
  exact .of (by simp) (fun h => by simp [h]) (fun h => by simp [h])

theorem execLinkSfd_kept (level snr : Byte) (erased active : Nat) (s : State) (lead : LinkLead) (carriers : List Byte) :
    Kept s (execLinkSfd level snr erased active s lead carriers) := by
  unfold execLinkSfd
  exact .of (by simp) (fun h => by simp [h]) (fun h => by simp [h])

theorem execLinkPhr_kept (phr : LinkPhr) (s : State) :
    Kept s (execLinkPhr phr s) := by
  unfold execLinkPhr
  exact .of (by simp) (fun h => by simp [h]) (fun h => by simp [h])

theorem execLinkPreempt_kept (level : Byte) (s : State) :
    Kept s (execLinkPreempt level s) := by
  unfold execLinkPreempt
  exact .of (by simp) (fun h => by simp [h]) (fun h => by simp [h])

theorem execEdSample_kept (level : Byte) (s : State) :
    Kept s (execEdSample level s) := by
  unfold execEdSample
  exact .of (by simp) (fun h => by simp [h]) (fun h => by simp [h])

theorem execLinkFrameEnd_kept (fcsGood : Bool) (frame : LinkFrame) (s : State) (psdu : Option (List Byte)) :
    Kept s (execLinkFrameEnd fcsGood frame s psdu) := by
  unfold execLinkFrameEnd
  exact .of (by simp) (fun h => by simp [h]) (fun h => by simp [h])

theorem execBackoffEnd_kept (s : State) :
    Kept s (execBackoffEnd s) := by
  unfold execBackoffEnd
  exact .of (by simp) (fun h => by simp [h]) (fun h => by simp [h])

theorem execLinkTxEnd_kept (s : State) :
    Kept s (execLinkTxEnd s) := by
  unfold execLinkTxEnd
  exact .of (by simp) (fun h => by simp [h]) (fun h => by simp [h])

theorem execAckWaitEnd_kept (s : State) :
    Kept s (execAckWaitEnd s) := by
  unfold execAckWaitEnd
  exact .of (by simp) (fun h => by simp [h]) (fun h => by simp [h])

theorem execFrameExpired_kept (pos : Fin 8) (s : State) :
    Kept s (execFrameExpired pos s) := by
  unfold execFrameExpired
  exact .of (by simp) (fun h => by simp [h]) (fun h => by simp [h])

theorem execLinkTx_kept (lvl : Level) (value : Word) (s : State) :
    Kept s (execLinkTx lvl value s) := by
  unfold execLinkTx
  exact .of (by simp) (fun h => by simp [h]) (fun h => by simp [h])

theorem execTxFlush_kept (lvl : Level) (s : State) :
    Kept s (execTxFlush lvl s) := by
  unfold execTxFlush
  exact .of (by simp) (fun h => by simp [h]) (fun h => by simp [h])

theorem execDutyBin_kept (s : State) :
    Kept s (execDutyBin s) := by
  unfold execDutyBin
  exact .of (by simp) (fun h => by simp [h]) (fun h => by simp [h])

theorem execDutyCheckpoint_kept (s : State) :
    Kept s (execDutyCheckpoint s) := by
  unfold execDutyCheckpoint
  exact .of (by simp) (fun h => by simp [h]) (fun h => by simp [h])

theorem execCompareFire_kept (n : Fin 16) (k : Fin 4) (s : State) :
    Kept s (execCompareFire n k s) := by
  unfold execCompareFire
  exact .of (by simp) (fun h => by simp [h]) (fun h => by simp [h])

theorem execCapture_kept (n : Fin 16) (s : State) :
    Kept s (execCapture n s) := by
  unfold execCapture
  exact .of (by simp) (fun h => by simp [h]) (fun h => by simp [h])

theorem execTriggerAction_kept (n : Fin 16) (input : TrigInput) (s : State) :
    Kept s (execTriggerAction n input s) := by
  unfold execTriggerAction
  exact .of (by simp) (fun h => by simp [h]) (fun h => by simp [h])

theorem execTimerStart_kept (lvl : Level) (n : Fin 16) (s : State) :
    Kept s (execTimerStart lvl n s) := by
  unfold execTimerStart
  exact .of (by simp) (fun h => by simp [h]) (fun h => by simp [h])

theorem execTimerStop_kept (lvl : Level) (n : Fin 16) (s : State) :
    Kept s (execTimerStop lvl n s) := by
  unfold execTimerStop
  exact .of (by simp) (fun h => by simp [h]) (fun h => by simp [h])

theorem execTimerReset_kept (lvl : Level) (n : Fin 16) (s : State) :
    Kept s (execTimerReset lvl n s) := by
  unfold execTimerReset
  exact .of (by simp) (fun h => by simp [h]) (fun h => by simp [h])

theorem execCapclr_kept (lvl : Level) (n : Fin 16) (s : State) :
    Kept s (execCapclr lvl n s) := by
  unfold execCapclr
  exact .of (by simp) (fun h => by simp [h]) (fun h => by simp [h])

theorem execGcmdStart_kept (lvl : Level) (mask : BitVec 16) (s : State) :
    Kept s (execGcmdStart lvl mask s) := by
  unfold execGcmdStart
  exact .of (by simp) (fun h => by simp [h]) (fun h => by simp [h])

theorem execGcmdStop_kept (lvl : Level) (mask : BitVec 16) (s : State) :
    Kept s (execGcmdStop lvl mask s) := by
  unfold execGcmdStop
  exact .of (by simp) (fun h => by simp [h]) (fun h => by simp [h])

theorem execGcmdReset_kept (lvl : Level) (mask : BitVec 16) (s : State) :
    Kept s (execGcmdReset lvl mask s) := by
  unfold execGcmdReset
  exact .of (by simp) (fun h => by simp [h]) (fun h => by simp [h])

theorem execTmrCntWrite_kept (lvl : Level) (n : Fin 16) (value : Word) (s : State) :
    Kept s (execTmrCntWrite lvl n value s) := by
  unfold execTmrCntWrite
  exact .of (by simp) (fun h => by simp [h]) (fun h => by simp [h])

theorem execTmrBufWrite_kept (lvl : Level) (n : Fin 16) (value : Word) (s : State) :
    Kept s (execTmrBufWrite lvl n value s) := by
  unfold execTmrBufWrite
  exact .of (by simp) (fun h => by simp [h]) (fun h => by simp [h])

theorem execCmpWrite_kept (lvl : Level) (n : Fin 16) (k : Fin 4) (value : Word) (s : State) :
    Kept s (execCmpWrite lvl n k value s) := by
  unfold execCmpWrite
  exact .of (by simp) (fun h => by simp [h]) (fun h => by simp [h])

theorem execTmrSnap_kept (lvl : Level) (mask : BitVec 16) (s : State) :
    Kept s (execTmrSnap lvl mask s) := by
  unfold execTmrSnap
  exact .of (by simp) (fun h => by simp [h]) (fun h => by simp [h])

theorem execTmrCapRead_kept (lvl : Level) (n : Fin 16) (s : State) :
    Kept s (execTmrCapRead lvl n s) := by
  unfold execTmrCapRead
  exact .of (by simp) (fun h => by simp [h]) (fun h => by simp [h])

theorem execToutWrite_kept (lvl : Level) (m : Fin 8) (value : Word) (s : State) :
    Kept s (execToutWrite lvl m value s) := by
  unfold execToutWrite
  exact .of (by simp) (fun h => by simp [h]) (fun h => by simp [h])

theorem execGorsePing_kept (re im : Int) (s : State) :
    Kept s (execGorsePing re im s) := by
  unfold execGorsePing
  exact .of (by simp) (fun h => by simp [h]) (fun h => by simp [h])

theorem execConfirmPing_kept (re im : Int) (s : State) :
    Kept s (execConfirmPing re im s) := by
  unfold execConfirmPing
  exact .of (by simp) (fun h => by simp [h]) (fun h => by simp [h])

theorem execPingSkip_kept (s : State) :
    Kept s (execPingSkip s) := by
  unfold execPingSkip
  exact .of (by simp) (fun h => by simp [h]) (fun h => by simp [h])

theorem execTxlenClr_kept (lvl : Level) (value : Word) (s : State) :
    Kept s (execTxlenClr lvl value s) := by
  unfold execTxlenClr
  exact .of (by simp) (fun h => by simp [h]) (fun h => by simp [h])

theorem execShadowSwap_kept (blk : BlockInst) (s : State) :
    Kept s (execShadowSwap blk s) := by
  unfold execShadowSwap
  exact .of (by simp) (fun h => by simp [h]) (fun h => by simp [h])

theorem execPartSwap_kept (blk : BlockInst) (part : Nat) (s : State) :
    Kept s (execPartSwap blk part s) := by
  unfold execPartSwap
  exact .of (by simp) (fun h => by simp [h]) (fun h => by simp [h])

theorem execTimerWrap_kept (n : Fin 16) (s : State) :
    Kept s (execTimerWrap n s) := by
  unfold execTimerWrap
  exact .of (by simp) (fun h => by simp [h]) (fun h => by simp [h])

theorem execCommit_kept (lvl : Level) (blk : BlockInst) (s : State) :
    Kept s (execCommit lvl blk s) := by
  unfold execCommit
  exact .of (by simp) (fun h => by simp [h]) (fun h => by simp [h])

theorem execDiscard_kept (lvl : Level) (blk : BlockInst) (withCommit : Bool) (s : State) :
    Kept s (execDiscard lvl blk withCommit s) := by
  unfold execDiscard
  exact .of (by simp) (fun h => by simp [h]) (fun h => by simp [h])

theorem execCalApply_kept (item : Fin 8) (inst : Byte) (s : State) :
    Kept s (execCalApply item inst s) := by
  unfold execCalApply
  exact .of (by simp) (fun h => by simp [h]) (fun h => by simp [h])

theorem execCalStepDone_kept (item : Fin 8) (inst : Byte) (res : StepResult) (s : State) :
    Kept s (execCalStepDone item inst res s) := by
  unfold execCalStepDone
  exact .of (by simp) (fun h => by simp [h]) (fun h => by simp [h])

theorem execCalResumeExpiry_kept (item : Fin 8) (inst : Byte) (s : State) :
    Kept s (execCalResumeExpiry item inst s) := by
  unfold execCalResumeExpiry
  exact .of (by simp) (fun h => by simp [h]) (fun h => by simp [h])

theorem execGorseRefresh_kept (trim : Byte) (s : State) :
    Kept s (execGorseRefresh trim s) := by
  unfold execGorseRefresh
  exact .of (by simp) (fun h => by simp [h]) (fun h => by simp [h])

theorem execCalDue_kept (item : Fin 8) (inst : Byte) (why : DueReason) (s : State) :
    Kept s (execCalDue item inst why s) := by
  unfold execCalDue
  exact .of (by simp) (fun h => by simp [h]) (fun h => by simp [h])

theorem execTempSample_kept (temp : BitVec 12) (s : State) :
    Kept s (execTempSample temp s) := by
  unfold execTempSample
  exact .of (by simp) (fun h => by simp [h]) (fun h => by simp [h])

theorem execCalGraceExpiry_kept (item : Fin 8) (inst : Byte) (s : State) :
    Kept s (execCalGraceExpiry item inst s) := by
  unfold execCalGraceExpiry
  exact .of (by simp) (fun h => by simp [h]) (fun h => by simp [h])

theorem execCalRun_kept (lvl : Level) (key : BitVec 16) (item : BitVec 4) (inst : Byte) (s : State) :
    Kept s (execCalRun lvl key item inst s) := by
  unfold execCalRun
  exact .of (by simp) (fun h => by simp [h]) (fun h => by simp [h])

theorem execSave_kept (lvl : Level) (key : BitVec 16) (items : Byte) (verifyOk : Bool) (s : State) :
    Kept s (execSave lvl key items verifyOk s) := by
  unfold execSave
  refine .of (asWrite_kept_pend _ _ _ _ (fun t => calCommand_kept_pend _ _ _ (fun u => by simp))) (fun h => ?_) (fun h => ?_)
  · exact asWrite_wf_nor _ _ _ _ (fun t ht => calCommand_wf_nor _ _ _ (fun u hu => calTurn_wf_nor _ _ _ _
      (fun v hv => by simp [hv]) hu) ht) h
  · exact asWrite_wf_store _ _ _ _ (fun t ht => calCommand_wf_store _ _ _ (fun u hu => calTurn_wf_store _ _ _ _
      (fun v hv => by simp [hv]) hu) ht) h

theorem execRestore_kept (lvl : Level) (key : BitVec 16) (items : Byte) (s : State) :
    Kept s (execRestore lvl key items s) := by
  unfold execRestore
  refine .of (asWrite_kept_pend _ _ _ _ (fun t => calCommand_kept_pend _ _ _ (fun u => by simp))) (fun h => ?_) (fun h => ?_)
  · exact asWrite_wf_nor _ _ _ _ (fun t ht => calCommand_wf_nor _ _ _ (fun u hu => calTurn_wf_nor _ _ _ _
      (fun v hv => by simp [hv]) hu) ht) h
  · exact asWrite_wf_store _ _ _ _ (fun t ht => calCommand_wf_store _ _ _ (fun u hu => calTurn_wf_store _ _ _ _
      (fun v hv => by simp [hv]) hu) ht) h

theorem execTraceRx_kept (lvl : Level) (key : BitVec 16) (chain : Fin 4) (measured ferr : Int) (s : State) :
    Kept s (execTraceRx lvl key chain measured ferr s) := by
  unfold execTraceRx
  refine .of (asWrite_kept_pend _ _ _ _ (fun t => calCommand_kept_pend _ _ _ (fun u => calService_kept_pend _ _ _ (fun v => by simp)))) (fun h => ?_) (fun h => ?_)
  · rw [show _ = s.mem from asWrite_kept_mem _ _ _ _ (fun t => calCommand_kept_mem _ _ _ (fun u => calService_kept_mem _ _ _ (fun v => by simp)))]
    exact h
  · rw [show _ = s.tag.store from asWrite_kept_store _ _ _ _ (fun t => calCommand_kept_store _ _ _ (fun u => calService_kept_store _ _ _ (fun v => by simp)))]
    exact h

theorem execTraceTx_kept (lvl : Level) (key : BitVec 16) (s : State) :
    Kept s (execTraceTx lvl key s) := by
  unfold execTraceTx
  refine .of (asWrite_kept_pend _ _ _ _ (fun t => calCommand_kept_pend _ _ _ (fun u => calService_kept_pend _ _ _ (fun v => by simp)))) (fun h => ?_) (fun h => ?_)
  · rw [show _ = s.mem from asWrite_kept_mem _ _ _ _ (fun t => calCommand_kept_mem _ _ _ (fun u => calService_kept_mem _ _ _ (fun v => by simp)))]
    exact h
  · rw [show _ = s.tag.store from asWrite_kept_store _ _ _ _ (fun t => calCommand_kept_store _ _ _ (fun u => calService_kept_store _ _ _ (fun v => by simp)))]
    exact h

theorem execTraceEnd_kept (lvl : Level) (key : BitVec 16) (s : State) :
    Kept s (execTraceEnd lvl key s) := by
  unfold execTraceEnd
  refine .of (asWrite_kept_pend _ _ _ _ (fun t => calCommand_kept_pend _ _ _ (fun u => calService_kept_pend _ _ _ (fun v => by simp)))) (fun h => ?_) (fun h => ?_)
  · rw [show _ = s.mem from asWrite_kept_mem _ _ _ _ (fun t => calCommand_kept_mem _ _ _ (fun u => calService_kept_mem _ _ _ (fun v => by simp)))]
    exact h
  · rw [show _ = s.tag.store from asWrite_kept_store _ _ _ _ (fun t => calCommand_kept_store _ _ _ (fun u => calService_kept_store _ _ _ (fun v => by simp)))]
    exact h

theorem execTraceTimeout_kept (s : State) :
    Kept s (execTraceTimeout s) := by
  unfold execTraceTimeout
  exact .of (by simp) (fun h => by simp [h]) (fun h => by simp [h])

theorem execGrantDecision_kept (s : State) :
    Kept s (execGrantDecision s) := by
  unfold execGrantDecision
  exact .of (by simp) (fun h => by simp [h]) (fun h => by simp [h])

theorem execGrantTick_kept (s : State) :
    Kept s (execGrantTick s) := by
  unfold execGrantTick
  exact .of (by simp) (fun h => by simp [h]) (fun h => by simp [h])

theorem execRelease_kept (who : Consumer) (s : State) (topUp : Bool) :
    Kept s (execRelease who s topUp) := by
  unfold execRelease
  exact .of (by simp) (fun h => by simp [h]) (fun h => by simp [h])

theorem execLeaseWarning_kept (who : Consumer) (s : State) :
    Kept s (execLeaseWarning who s) := by
  unfold execLeaseWarning
  exact .of (by simp) (fun h => by simp [h]) (fun h => by simp [h])

theorem execLeaseEnd_kept (who : Consumer) (inTransaction : Bool) (s : State) (topUp : Bool) :
    Kept s (execLeaseEnd who inTransaction s topUp) := by
  unfold execLeaseEnd
  exact .of (by simp) (fun h => by simp [h]) (fun h => by simp [h])

theorem execC0FreeTime_kept (who : Consumer) (s : State) :
    Kept s (execC0FreeTime who s) := by
  unfold execC0FreeTime
  exact .of (by simp) (fun h => by simp [h]) (fun h => by simp [h])

theorem execStarvePromote_kept (who : Consumer) (s : State) :
    Kept s (execStarvePromote who s) := by
  unfold execStarvePromote
  exact .of (by simp) (fun h => by simp [h]) (fun h => by simp [h])

theorem execCxgntLoss_kept (s : State) :
    Kept s (execCxgntLoss s) := by
  unfold execCxgntLoss
  exact .of (by simp) (fun h => by simp [h]) (fun h => by simp [h])

theorem execCxgntRise_kept (s : State) :
    Kept s (execCxgntRise s) := by
  unfold execCxgntRise
  exact .of (by simp) (fun h => by simp [h]) (fun h => by simp [h])

theorem execCxreqLeadSatisfied_kept (s : State) :
    Kept s (execCxreqLeadSatisfied s) := by
  unfold execCxreqLeadSatisfied
  exact .of (by simp) (fun h => by simp [h]) (fun h => by simp [h])

theorem execCxreqRise_kept (s : State) :
    Kept s (execCxreqRise s) := by
  unfold execCxreqRise
  exact .of (by simp) (fun h => by simp [h]) (fun h => by simp [h])

theorem execCxwaitTimeout_kept (who : Consumer) (s : State) :
    Kept s (execCxwaitTimeout who s) := by
  unfold execCxwaitTimeout
  exact .of (by simp) (fun h => by simp [h]) (fun h => by simp [h])

theorem execXreqRise_kept (s : State) :
    Kept s (execXreqRise s) := by
  unfold execXreqRise
  exact .of (by simp) (fun h => by simp [h]) (fun h => by simp [h])

theorem execXreqFall_kept (s : State) :
    Kept s (execXreqFall s) := by
  unfold execXreqFall
  exact .of (by simp) (fun h => by simp [h]) (fun h => by simp [h])

theorem execLoadSample_kept (load : Fin 1001) (s : State) :
    Kept s (execLoadSample load s) := by
  unfold execLoadSample
  exact .of (by simp) (fun h => by simp [h]) (fun h => by simp [h])

theorem execGrantViolation_kept (_res : Fin 11) (s : State) :
    Kept s (execGrantViolation _res s) := by
  unfold execGrantViolation
  exact .of (by simp) (fun h => by simp [h]) (fun h => by simp [h])

theorem execRfBiasSettled_kept (s : State) :
    Kept s (execRfBiasSettled s) := by
  unfold execRfBiasSettled
  exact .of (by simp) (fun h => by simp [h]) (fun h => by simp [h])

theorem execRfholdExpiry_kept (s : State) :
    Kept s (execRfholdExpiry s) := by
  unfold execRfholdExpiry
  exact .of (by simp) (fun h => by simp [h]) (fun h => by simp [h])

theorem execSnapshotRefresh_kept (s : State) :
    Kept s (execSnapshotRefresh s) := by
  unfold execSnapshotRefresh
  exact .of (by simp) (fun h => by simp [h]) (fun h => by simp [h])

theorem execSleepEntry_kept (during : Option WakeSource) (s : State) :
    Kept s (execSleepEntry during s) := by
  unfold execSleepEntry
  exact .of (by simp) (fun h => by simp [h]) (fun h => by simp [h])

theorem execWakeComplete_kept (s : State) :
    Kept s (execWakeComplete s) := by
  unfold execWakeComplete
  exact .of (by simp) (fun h => by simp [h]) (fun h => by simp [h])

theorem execSchedWake_kept (s : State) :
    Kept s (execSchedWake s) := by
  unfold execSchedWake
  exact .of (by simp) (fun h => by simp [h]) (fun h => by simp [h])

theorem execWakePin_kept (s : State) :
    Kept s (execWakePin s) := by
  unfold execWakePin
  exact .of (by simp) (fun h => by simp [h]) (fun h => by simp [h])

theorem execWatchWindowPrepare_kept (s : State) :
    Kept s (execWatchWindowPrepare s) := by
  unfold execWatchWindowPrepare
  exact .of (by simp) (fun h => by simp [h]) (fun h => by simp [h])

theorem execWatchWindowClose_kept (s : State) :
    Kept s (execWatchWindowClose s) := by
  unfold execWatchWindowClose
  exact .of (by simp) (fun h => by simp [h]) (fun h => by simp [h])

theorem execSleepNow_kept (lvl : Level) (key : BitVec 16) (s : State) :
    Kept s (execSleepNow lvl key s) := by
  unfold execSleepNow
  exact .of (by simp) (fun h => by simp [h]) (fun h => by simp [h])

theorem execEnterService_kept (lvl : Level) (key : BitVec 16) (s : State) :
    Kept s (execEnterService lvl key s) := by
  unfold execEnterService
  exact .of (by simp) (fun h => by simp [h]) (fun h => by simp [h])

theorem execLeaveService_kept (lvl : Level) (key : BitVec 16) (s : State) :
    Kept s (execLeaveService lvl key s) := by
  unfold execLeaveService
  exact .of (by simp) (fun h => by simp [h]) (fun h => by simp [h])

theorem execEnterBackup_kept (lvl : Level) (key : BitVec 16) (s : State) :
    Kept s (execEnterBackup lvl key s) := by
  unfold execEnterBackup
  exact .of (by simp) (fun h => by simp [h]) (fun h => by simp [h])

theorem execCancel_kept (lvl : Level) (key : BitVec 16) (s : State) :
    Kept s (execCancel lvl key s) := by
  unfold execCancel
  exact .of (by simp) (fun h => by simp [h]) (fun h => by simp [h])

theorem execBackupFlushDone_kept (leftKB : Nat) (s : State) :
    Kept s (execBackupFlushDone leftKB s) := by
  unfold execBackupFlushDone
  exact .of (by simp) (fun h => by simp [h]) (fun h => by simp [h])

theorem execPllLockTimeout_kept (s : State) (refin : Bool) :
    Kept s (execPllLockTimeout s refin) := by
  unfold execPllLockTimeout
  exact .of (by simp) (fun h => by simp [h]) (fun h => by simp [h])

theorem execPllLockRetry_kept (locks : Bool) (s : State) (refin : Bool) :
    Kept s (execPllLockRetry locks s refin) := by
  unfold execPllLockRetry
  exact .of (by simp) (fun h => by simp [h]) (fun h => by simp [h])

theorem execPllLock_kept (s : State) :
    Kept s (execPllLock s) := by
  unfold execPllLock
  exact .of (by simp) (fun h => by simp [h]) (fun h => by simp [h])

theorem execPllLockLoss_kept (s : State) (refin : Bool) :
    Kept s (execPllLockLoss s refin) := by
  unfold execPllLockLoss
  exact .of (by simp) (fun h => by simp [h]) (fun h => by simp [h])

theorem execWakeenWrite_kept (lvl : Level) (value : Word) (s : State) :
    Kept s (execWakeenWrite lvl value s) := by
  unfold execWakeenWrite
  exact .of (by simp) (fun h => by simp [h]) (fun h => by simp [h])

theorem execCoreSupplyLoss_kept (s : State) :
    Kept s (execCoreSupplyLoss s) := by
  unfold execCoreSupplyLoss
  apply Kept.of <;> (repeat' split) <;> simp_all

theorem execCoreSupplyValid_kept (s : State) :
    Kept s (execCoreSupplyValid s) := by
  unfold execCoreSupplyValid
  apply Kept.of <;> (repeat' split) <;> simp_all

theorem execVddioLoss_kept (s : State) :
    Kept s (execVddioLoss s) := by
  unfold execVddioLoss
  apply Kept.of <;> (repeat' split) <;> simp_all

theorem execVddioValid_kept (s : State) :
    Kept s (execVddioValid s) := by
  unfold execVddioValid
  apply Kept.of <;> (repeat' split) <;> simp_all

theorem execRstAssert_kept (s : State) :
    Kept s (execRstAssert s) := by
  unfold execRstAssert
  apply Kept.of <;> (repeat' split) <;> simp_all

theorem execRstRelease_kept (s : State) :
    Kept s (execRstRelease s) := by
  unfold execRstRelease
  apply Kept.of <;> (repeat' split) <;> simp_all

theorem execPorBackup_kept (byField : Bool) (s : State) :
    Kept s (execPorBackup byField s) := by
  unfold execPorBackup
  exact .of (by simp) (fun h => by simp [h]) (fun h => by simp [h])

theorem execWatchdogExpiry_kept (s : State) :
    Kept s (execWatchdogExpiry s) := by
  unfold execWatchdogExpiry
  apply Kept.of <;> (repeat' split) <;> simp_all

theorem execSramUe_kept (loc : SramLoc) (s : State) :
    Kept s (execSramUe loc s) := by
  unfold execSramUe
  exact .of (by simp) (fun h => by simp [h]) (fun h => by simp [h])

theorem execSramCe_kept (s : State) :
    Kept s (execSramCe s) := by
  unfold execSramCe
  exact .of (by simp) (fun h => by simp [h]) (fun h => by simp [h])

theorem execRestart_kept (lvl : Level) (key : BitVec 16) (s : State) :
    Kept s (execRestart lvl key s) := by
  unfold execRestart
  apply Kept.of <;> (repeat' split) <;> simp_all

theorem execReload_kept (lvl : Level) (key : BitVec 16) (s : State) :
    Kept s (execReload lvl key s) := by
  unfold execReload
  apply Kept.of <;> (repeat' split) <;> simp_all

theorem execTune_kept (path : RfPath) (chan : BitVec 14) (use : PathUse) (s : State) :
    Kept s (execTune path chan use s) := by
  unfold execTune
  exact .of (by simp) (fun h => by simp [h]) (fun h => by simp [h])

theorem execSynthLock_kept (path : RfPath) (margin : Fin 64) (band : BitVec 4) (cap : BitVec 7) (s : State) :
    Kept s (execSynthLock path margin band cap s) := by
  unfold execSynthLock
  exact .of (by simp) (fun h => by simp [h]) (fun h => by simp [h])

theorem execLockFail_kept (path : RfPath) (s : State) :
    Kept s (execLockFail path s) := by
  unfold execLockFail
  exact .of (by simp) (fun h => by simp [h]) (fun h => by simp [h])

theorem execTxCommand_kept (path : RfPath) (use : PathUse) (chan : BitVec 14) (port : Fin 4) (index : BitVec 7) (s : State) :
    Kept s (execTxCommand path use chan port index s) := by
  unfold execTxCommand
  exact .of (by simp) (fun h => by simp [h]) (fun h => by simp [h])

theorem execLocktimeout_kept (path : RfPath) (s : State) :
    Kept s (execLocktimeout path s) := by
  unfold execLocktimeout
  exact .of (by simp) (fun h => by simp [h]) (fun h => by simp [h])

theorem execCarrierRampUp_kept (path : RfPath) (s : State) :
    Kept s (execCarrierRampUp path s) := by
  unfold execCarrierRampUp
  exact .of (by simp) (fun h => by simp [h]) (fun h => by simp [h])

theorem execHop_kept (path : RfPath) (chan : BitVec 14) (s : State) :
    Kept s (execHop path chan s) := by
  unfold execHop
  exact .of (by simp) (fun h => by simp [h]) (fun h => by simp [h])

theorem execOverpower_kept (path : RfPath) (s : State) :
    Kept s (execOverpower path s) := by
  unfold execOverpower
  exact .of (by simp) (fun h => by simp [h]) (fun h => by simp [h])

theorem execSlotEmpty_kept (path : RfPath) (s : State) :
    Kept s (execSlotEmpty path s) := by
  unfold execSlotEmpty
  exact .of (by simp) (fun h => by simp [h]) (fun h => by simp [h])

theorem execRn16Reply_kept (path : RfPath) (replies : List Rn16Reply) (s : State) :
    Kept s (execRn16Reply path replies s) := by
  unfold execRn16Reply
  exact .of (by simp) (fun h => by simp [h]) (fun h => by simp [h])

theorem execAccessStepReply_kept (path : RfPath) (reply : StepReply) (s : State) :
    Kept s (execAccessStepReply path reply s) := by
  unfold execAccessStepReply
  exact .of (by simp) (fun h => by simp [h]) (fun h => by simp [h])

theorem execAccessStepTimeout_kept (path : RfPath) (badCrc : Bool) (s : State) :
    Kept s (execAccessStepTimeout path badCrc s) := by
  unfold execAccessStepTimeout
  exact .of (by simp) (fun h => by simp [h]) (fun h => by simp [h])

theorem execAuthFlintGrant_kept (path : RfPath) (response : BitVec 128) (s : State) :
    Kept s (execAuthFlintGrant path response s) := by
  unfold execAuthFlintGrant
  exact .of (by simp) (fun h => by simp [h]) (fun h => by simp [h])

theorem execEpcReplyMissing_kept (path : RfPath) (s : State) :
    Kept s (execEpcReplyMissing path s) := by
  unfold execEpcReplyMissing
  exact .of (by simp) (fun h => by simp [h]) (fun h => by simp [h])

theorem execEpcReply_kept (path : RfPath) (reply : EpcReply) (s : State) :
    Kept s (execEpcReply path reply s) := by
  unfold execEpcReply
  exact .of (by simp) (fun h => by simp [h]) (fun h => by simp [h])

theorem execVisitEnd_kept (path : RfPath) (s : State) :
    Kept s (execVisitEnd path s) := by
  unfold execVisitEnd
  exact .of (by simp) (fun h => by simp [h]) (fun h => by simp [h])

theorem execHopInterval_kept (path : RfPath) (s : State) :
    Kept s (execHopInterval path s) := by
  unfold execHopInterval
  exact .of (by simp) (fun h => by simp [h]) (fun h => by simp [h])

theorem execRegulatoryDeadline_kept (path : RfPath) (s : State) :
    Kept s (execRegulatoryDeadline path s) := by
  unfold execRegulatoryDeadline
  exact .of (by simp) (fun h => by simp [h]) (fun h => by simp [h])

theorem execGuardEnd_kept (s : State) :
    Kept s (execGuardEnd s) := by
  unfold execGuardEnd
  exact .of (by simp) (fun h => by simp [h]) (fun h => by simp [h])

theorem execFoffWaitEnd_kept (s : State) :
    Kept s (execFoffWaitEnd s) := by
  unfold execFoffWaitEnd
  exact .of (by simp) (fun h => by simp [h]) (fun h => by simp [h])

theorem execCardFrame_kept (frame : CardFrame) (s : State) :
    Kept s (execCardFrame frame s) := by
  unfold execCardFrame
  exact .of (by simp) (fun h => by simp [h]) (fun h => by simp [h])

theorem execAnswerTimeout_kept (s : State) :
    Kept s (execAnswerTimeout s) := by
  unfold execAnswerTimeout
  exact .of (by simp) (fun h => by simp [h]) (fun h => by simp [h])

theorem execWtxRequest_kept (inf : Byte) (s : State) :
    Kept s (execWtxRequest inf s) := by
  unfold execWtxRequest
  exact .of (by simp) (fun h => by simp [h]) (fun h => by simp [h])

theorem execBlockTimeout_kept (ruleBreak : Bool) (s : State) :
    Kept s (execBlockTimeout ruleBreak s) := by
  unfold execBlockTimeout
  exact .of (by simp) (fun h => by simp [h]) (fun h => by simp [h])

theorem execOpen_kept (lvl : Level) (entry : BitVec 10) (target : BitVec 7) (s : State) :
    Kept s (execOpen lvl entry target s) := by
  unfold execOpen
  exact .of (by simp) (fun h => by simp [h]) (fun h => by simp [h])

theorem execXchg_kept (lvl : Level) (s : State) :
    Kept s (execXchg lvl s) := by
  unfold execXchg
  refine .of (row_kept_pend _ _ (fun r => asWrite_kept_pend _ _ _ _ (fun t => hfCommand_kept_pend _ _ (fun u => hfInSession_kept_pend _ _ _ (fun v w => by simp))))) (fun h => ?_) (fun h => ?_)
  · rw [show _ = s.mem from row_kept_mem _ _ (fun r => asWrite_kept_mem _ _ _ _ (fun t => hfCommand_kept_mem _ _ (fun u => hfInSession_kept_mem _ _ _ (fun v w => by simp))))]
    exact h
  · rw [show _ = s.tag.store from row_kept_store _ _ (fun r => asWrite_kept_store _ _ _ _ (fun t => hfCommand_kept_store _ _ (fun u => hfInSession_kept_store _ _ _ (fun v w => by simp))))]
    exact h

theorem execRaw_kept (lvl : Level) (s : State) :
    Kept s (execRaw lvl s) := by
  unfold execRaw
  refine .of (row_kept_pend _ _ (fun r => asWrite_kept_pend _ _ _ _ (fun t => hfCommand_kept_pend _ _ (fun u => hfInSession_kept_pend _ _ _ (fun v w => by simp))))) (fun h => ?_) (fun h => ?_)
  · rw [show _ = s.mem from row_kept_mem _ _ (fun r => asWrite_kept_mem _ _ _ _ (fun t => hfCommand_kept_mem _ _ (fun u => hfInSession_kept_mem _ _ _ (fun v w => by simp))))]
    exact h
  · rw [show _ = s.tag.store from row_kept_store _ _ (fun r => asWrite_kept_store _ _ _ _ (fun t => hfCommand_kept_store _ _ (fun u => hfInSession_kept_store _ _ _ (fun v w => by simp))))]
    exact h

theorem execClose_kept (lvl : Level) (s : State) :
    Kept s (execClose lvl s) := by
  unfold execClose
  refine .of (row_kept_pend _ _ (fun r => asWrite_kept_pend _ _ _ _ (fun t => hfCommand_kept_pend _ _ (fun u => hfInSession_kept_pend _ _ _ (fun v w => by simp))))) (fun h => ?_) (fun h => ?_)
  · rw [show _ = s.mem from row_kept_mem _ _ (fun r => asWrite_kept_mem _ _ _ _ (fun t => hfCommand_kept_mem _ _ (fun u => hfInSession_kept_mem _ _ _ (fun v w => by simp))))]
    exact h
  · rw [show _ = s.tag.store from row_kept_store _ _ (fun r => asWrite_kept_store _ _ _ _ (fun t => hfCommand_kept_store _ _ (fun u => hfInSession_kept_store _ _ _ (fun v w => by simp))))]
    exact h

theorem execSessionIdle_kept (s : State) :
    Kept s (execSessionIdle s) := by
  unfold execSessionIdle
  exact .of (by simp) (fun h => by simp [h]) (fun h => by simp [h])

theorem execBrxWindowEnd_kept (src : Fin 4) (s : State) :
    Kept s (execBrxWindowEnd src s) := by
  unfold execBrxWindowEnd
  exact .of (by simp) (fun h => by simp [h]) (fun h => by simp [h])

theorem execListenEnd_kept (s : State) :
    Kept s (execListenEnd s) := by
  unfold execListenEnd
  exact .of (by simp) (fun h => by simp [h]) (fun h => by simp [h])

theorem execImmAckSend_kept (s : State) :
    Kept s (execImmAckSend s) := by
  unfold execImmAckSend
  exact .of (by simp) (fun h => by simp [h]) (fun h => by simp [h])

theorem execBeaconInstant_kept (s : State) :
    Kept s (execBeaconInstant s) := by
  unfold execBeaconInstant
  exact .of (by simp) (fun h => by simp [h]) (fun h => by simp [h])

theorem execRegisterWrite_kept (lvl : Level) (addr : BitVec 16) (value : Word) (s : State) :
    Kept s (execRegisterWrite lvl addr value s) := by
  unfold execRegisterWrite
  apply Kept.of <;> (repeat' split) <;> simp_all

theorem execG2Status_kept (addr count crc : BitVec 16) (s : State) (cmd : Byte) :
    Kept s (execG2Status addr count crc s cmd) := by
  unfold execG2Status
  exact .of (by simp) (fun h => by simp [h]) (fun h => by simp [h])

theorem execG2Read_kept (addr count crc : BitVec 16) (s : State) (shifted : Nat) (ecc : List (Fin 3)) :
    Kept s (execG2Read addr count crc s shifted ecc) := by
  unfold execG2Read
  exact .of (by simp) (fun h => by simp [h]) (fun h => by simp [h])

theorem execG2Write_kept (addr count : BitVec 16) (words : List Word) (crc : BitVec 16) (s : State) :
    Kept s (execG2Write addr count words crc s) := by
  unfold execG2Write
  dsimp only
  split
  · exact .of rfl id id
  · refine .of ?_ (fun h => ?_) (fun h => ?_)
    · exact g2Frame_kept_pend _ _ _ _ _ (fun t => holdOr_kept_pend _ _ _ (fun u => by simp))
    · exact g2Frame_wf_nor _ _ _ _ _ (fun t ht => holdOr_wf_nor _ _ _ (fun u hu => writeFrame_wf_mem _ _ _ _ hu) ht) h
    · rw [show _ = s.tag.store from g2Frame_kept_store _ _ _ _ _ (fun t => holdOr_kept_store _ _ _ (fun u => by simp))]
      exact h

theorem execHostgapElapsed_kept (s : State) :
    Kept s (execHostgapElapsed s) := by
  unfold execHostgapElapsed
  exact .of (by simp) (fun h => by simp [h]) (fun h => by simp [h])

theorem execUnlock_kept (addr count : BitVec 16) (code : Word) (crc : BitVec 16) (s : State) :
    Kept s (execUnlock addr count code crc s) := by
  unfold execUnlock
  exact .of (by simp) (fun h => by simp [h]) (fun h => by simp [h])

theorem execLock_kept (addr count crc : BitVec 16) (s : State) :
    Kept s (execLock addr count crc s) := by
  unfold execLock
  exact .of (by simp) (fun h => by simp [h]) (fun h => by simp [h])

theorem execUnlockLockoutEnd_kept (s : State) :
    Kept s (execUnlockLockoutEnd s) := by
  unfold execUnlockLockoutEnd
  exact .of (by simp) (fun h => by simp [h]) (fun h => by simp [h])

theorem execSupidleLapse_kept (s : State) :
    Kept s (execSupidleLapse s) := by
  unfold execSupidleLapse
  exact .of (by simp) (fun h => by simp [h]) (fun h => by simp [h])

theorem execStream_kept (addr count crc : BitVec 16) (s : State) :
    Kept s (execStream addr count crc s) := by
  unfold execStream
  exact .of (by simp) (fun h => by simp [h]) (fun h => by simp [h])

theorem execBankHandover_kept (ch : Fin 9) (s : State) :
    Kept s (execBankHandover ch s) := by
  unfold execBankHandover
  exact .of (by simp) (fun h => by simp [h]) (fun h => by simp [h])

theorem execSkipEnd_kept (ch : Fin 8) (s : State) (ecc : List (Fin 3)) :
    Kept s (execSkipEnd ch s ecc) := by
  unfold execSkipEnd
  exact .of (by simp) (fun h => by simp [h]) (fun h => by simp [h])

theorem execG3Transfer_kept (edges : Nat) (ecc : List (Fin 3)) (s : State) :
    Kept s (execG3Transfer edges ecc s) := by
  unfold execG3Transfer
  exact .of (by simp) (fun h => by simp [h]) (fun h => by simp [h])

theorem execG3StallTimeout_kept (s : State) :
    Kept s (execG3StallTimeout s) := by
  unfold execG3StallTimeout
  exact .of (by simp) (fun h => by simp [h]) (fun h => by simp [h])

theorem execG3IdleExpiry_kept (s : State) :
    Kept s (execG3IdleExpiry s) := by
  unfold execG3IdleExpiry
  exact .of (by simp) (fun h => by simp [h]) (fun h => by simp [h])

theorem execG1Read_kept (addr : BitVec 7) (s : State) (ecc : Fin 3) :
    Kept s (execG1Read addr s ecc) := by
  unfold execG1Read
  exact .of (by simp) (fun h => by simp [h]) (fun h => by simp [h])

theorem execG1Write_kept (addr : BitVec 7) (data : Byte) (s : State) :
    Kept s (execG1Write addr data s) := by
  unfold execG1Write
  apply Kept.of <;> (repeat' split) <;> simp_all

theorem execHselFall_kept (hsck : Bool) (s : State) :
    Kept s (execHselFall hsck s) := by
  unfold execHselFall
  exact .of (by simp) (fun h => by simp [h]) (fun h => by simp [h])

theorem execUnderrun_kept (s : State) :
    Kept s (execUnderrun s) := by
  unfold execUnderrun
  exact .of (by simp) (fun h => by simp [h]) (fun h => by simp [h])

theorem execHselRise_kept (edges : SelectEnd) (s : State) :
    Kept s (execHselRise edges s) := by
  unfold execHselRise
  exact .of (by simp) (fun h => by simp [h]) (fun h => by simp [h])

theorem execRegRecord_kept (triples : List RegTriple) (s : State) :
    Kept s (execRegRecord triples s) := by
  unfold execRegRecord
  exact .of (by simp) (fun h => by simp [h]) (fun h => by simp [h])

theorem execBlockRecord_kept (addr : BitVec 16) (words : List Word) (commit : Bool) (s : State) :
    Kept s (execBlockRecord addr words commit s) := by
  unfold execBlockRecord
  exact .of (by simp) (fun h => by simp [h]) (fun h => by simp [h])

theorem execSlateRecord_kept (first : Fin 1024) (preserve : Bool) (entries : List (List Byte)) (badSectors : List Nat) (s : State) :
    Kept s (execSlateRecord first preserve entries badSectors s) := by
  unfold execSlateRecord
  exact .of (by simp) (fun h => by simp [h]) (fun h => by simp [h])

theorem execHedgeRecord_kept (entries : List HedgeEntry) (s : State) :
    Kept s (execHedgeRecord entries s) := by
  unfold execHedgeRecord
  exact .of (by simp) (fun h => by simp [h]) (fun h => by simp [h])

theorem execCalRecord_kept (item inst : Byte) (trusted : Bool) (words : List Word) (s : State) :
    Kept s (execCalRecord item inst trusted words s) := by
  unfold execCalRecord
  exact .of (by simp) (fun h => by simp [h]) (fun h => by simp [h])

theorem execKeyRecord_kept (usage : Byte) (slot : BitVec 5) (key : List Byte) (s : State) :
    Kept s (execKeyRecord usage slot key s) := by
  unfold execKeyRecord
  exact .of (by simp) (fun h => by simp [h]) (fun h => by simp [h])

theorem execProtRecord_kept (entries : List ProtEntry) (s : State) :
    Kept s (execProtRecord entries s) := by
  unfold execProtRecord
  exact .of (by simp) (fun h => by simp [h]) (fun h => by simp [h])

theorem execRecskip_kept (index : BitVec 16) (type : Byte) (s : State) :
    Kept s (execRecskip index type s) := by
  unfold execRecskip
  exact .of (by simp) (fun h => by simp [h]) (fun h => by simp [h])

theorem execStartup_kept (inp : StartInputs) (s : State) :
    Kept s (execStartup inp s) := by
  unfold execStartup
  exact .of (by simp) (fun h => by simp [h]) (fun h => by simp [h])

theorem execRun_kept (lvl : Level) (key : BitVec 16) (inp : StartInputs) (s : State) :
    Kept s (execRun lvl key inp s) := by
  unfold execRun
  refine .of ?_ (fun h => ?_) (fun h => ?_)
  · exact asWrite_kept_pend _ _ _ _ (fun t => by simp)
  · refine asWrite_wf_nor _ _ _ _ (fun t ht => ?_) h
    dsimp only
    split
    · exact startUp_wf_mem _ _ (bootCommand_wf_mem _ _ _ _ ht)
    · exact bootCommand_wf_mem _ _ _ _ ht
  · rw [show _ = s.tag.store from asWrite_kept_store _ _ _ _ (fun t => by simp)]
    exact h

end Sys2Proof.Machine
end

