-- ==== Sys2Proof/WellFormed.lean ====
section
/-! DEFINITION. Which command terms stand for something a sender can send: lengths and numbers that the types of the operands do
not fix. A meaning takes any term; statements that need a well-formed one say so. -/

namespace Sys2Proof

/-- How many instances a block has, for the numbering of commits (R34, R579). -/
def blockCount : Block → Nat
  | .tmr => 16 | .rp => 64 | .hdg => 32 | .nbr => 256 | _ => 1

/-- The instance exists (R34). -/
def BlockInst.exists_ (b : BlockInst) : Bool := b.inst < blockCount b.block

/-- A Hedge entry has eight child and eight weight bytes (R90). -/
def HedgeEntry.ok (e : HedgeEntry) : Bool := e.child.length == 8 && e.weight.length == 8

/-- Replies carry a level for each of four chains (R266). -/
def Rn16Reply.ok (r : Rn16Reply) : Bool := r.levels.length == 4

/-- A card's fixed-length fields (R313, R318). -/
def CardFrame.ok : CardFrame → Bool
  | .atqb pupi app _ => pupi.length == 4 && app.length == 4
  | .sensf idm pmm _ => idm.length == 8 && pmm.length == 8
  | _ => true

/-- Well-formed commands. -/
def Instr.wf : Instr → Bool
  | .slateRecord first _ entries _ => first.val + entries.length ≤ 1024 && entries.all fun e => e.length == 64
  | .hedgeRecord entries => 1 ≤ entries.length && entries.length ≤ 32 && entries.all HedgeEntry.ok
  | .protRecord entries => 1 ≤ entries.length && entries.length ≤ 32
  | .commit _ blk => blk.exists_
  | .discard _ blk _ => blk.exists_
  | .shadowSwap blk => blk.exists_
  | .partSwap blk _ => blk.exists_
  | .g2Write _ count words _ => words.length == count.toNat
  | .rn16Reply _ replies => replies.all Rn16Reply.ok
  | .epcReply _ reply => 1 ≤ reply.words.length && reply.words.length ≤ 34 && reply.levels.length == 4
  | .g2Status _ _ _ cmd => cmd == 0x80 || cmd < 0x80 || 0x85 < cmd
  | .g2Read _ count _ shifted _ => shifted ≤ count.toNat
  | .cardFrame frame => frame.ok
  | .readMerge read => 1 ≤ read.id.length && read.id.length ≤ 16
  | .packetAdmit _ words => words != []
  | .porBackup _ | .coreSupplyLoss | .coreSupplyValid | .vddioLoss | .vddioValid | .vbatLoss | .vbatReturn | .rstAssert
  | .rstRelease | .startup _ | .regRecord _ | .blockRecord _ _ _ | .calRecord _ _ _ _ | .keyRecord _ _ _ | .recskip _ _
  | .watchdogExpiry | .restart _ _ | .reload _ _ | .run _ _ _ | .sramUe _ | .grantViolation _ | .registerWrite _ _ _ => true
  | .sleepEntry _ | .wakeComplete | .schedWake | .wakePin | .rfholdExpiry | .sleepNow _ _ | .enterService _ _
  | .leaveService _ _ | .enterBackup _ _ | .cancel _ _ | .backupFlushDone _ | .pllLockTimeout _ | .pllLockRetry _ _ | .pllLock
  | .pllLockLoss _ | .wakeenWrite _ _ | .watchWindowPrepare | .watchWindowClose | .hselFall _ | .hselRise _ | .underrun
  | .unlock _ _ _ _ | .lock_ _ _ _ | .stream _ _ _ | .g3Transfer _ _ | .g3IdleExpiry
  | .g3StallTimeout | .g1Read _ _ | .g1Write _ _ | .supidleLapse | .unlockLockoutEnd | .requestPost _ | .topUp _ _ _
  | .requestWithdraw _ | .grantDecision | .grantTick | .release _ _ | .leaseWarning _ | .leaseEnd _ _ _ | .c0FreeTime _
  | .starvePromote _ | .cxgntLoss | .cxgntRise | .cxreqLeadSatisfied | .cxwaitTimeout _ | .xreqRise | .xreqFall
  | .loadSample _ | .tune _ _ _ | .synthLock _ _ _ _ | .storedWordFail _ | .lockFail _ | .txCommand _ _ _ _ _
  | .locktimeout _ | .carrierRampUp _ | .hop _ _ | .portSwitch _ _ | .detectorUpdate _ _ | .overpower _ | .paDisable _
  | .rateSwitchDone _ | .agcStep _ _ | .clipStepDown _ | .refinementEnd _ _ | .cancelCheck _ _ _ | .slateWrite _ _
  | .slateRead _ _ | .slateErase _ _ | .slateReadback _ | .slateActivate | .cacheFill _ | .entryPending _ | .visitEnd _
  | .slotEmpty _ | .epcReplyMissing _ | .accessStepReply _ _ | .accessStepTimeout _ _ | .authFlintGrant _ _ | .hopInterval _
  | .regulatoryDeadline _ | .channelUnbar _ | .occBin | .immediateAccess _ _ | .foffWaitEnd | .guardEnd | .answerTimeout
  | .wtxRequest _ | .blockTimeout _ | .open_ _ _ _ | .xchg _ | .raw _ | .close _ | .sessionIdle | .txlenClr _ _
  | .gorsePing _ _ | .confirmPing _ _ | .gorseRefresh _ | .pingSkip | .tagFieldOn _ | .tagFieldLost | .inventory _ _ _ _
  | .stayQuiet _ | .readSingleBlock _ _ | .writeSingleBlock _ _ _ _ | .readMultipleBlocks _ _ _
  | .writeMultipleBlocks _ _ _ _ | .select_ _ | .resetToReady _ | .getSystemInfo _ | .extendedReadSingleBlock _ _
  | .extendedWriteSingleBlock _ _ _ _ | .extendedReadMultipleBlocks _ _ _ | .extendedWriteMultipleBlocks _ _ _ _
  | .extendedGetSystemInfo _ | .getRandom _ | .leave _ | .password _ _ _ | .aes1 _ _ _ | .aes2 _ _ | .readFaultLog _ _ _
  | .statusSnapshot _ _ | .unsupportedCommand _ _ | .faultLogWrite _ | .tagHostRead _ _ | .tagHostWrite _ _ _ _
  | .tagCommitPoint _ | .clrfail _ | .snapshotRefresh | .harvUndervoltage | .harvRetry _ | .linkSfd _ _ _ _ _ _ | .linkPhr _
  | .linkPreempt _ | .linkFrameEnd _ _ _ | .edSample _ | .linkTx _ _ | .txFlush _ | .listenEnd | .backoffEnd | .linkTxEnd
  | .ackWaitEnd | .immAckSend | .frameExpired _ | .dutyBin | .dutyCheckpoint | .slotPost _ _ | .beaconInstant
  | .brxWindowEnd _ | .rescan _ | .holdoverEnd | .sightingTick | .intervalReport | .sgtSelWrite _ _ | .sgtCfgWrite _ _
  | .mspRead _ _ | .mspProgram _ _ _ | .mspErase _ _ | .journalRecord _ _ | .journalPageProgram _ | .jnlFlushTimeout
  | .journalErase _ | .format _ _ | .journalFlush _ _ | .journalRead _ _ _ | .bankHandover _ | .staleTimeout _
  | .fifoPortRead _ _ _ | .dropPkt _ _ | .fifoFlush _ _ | .skipEnd _ _ | .timerWrap _ | .compareFire _ _ | .capture _
  | .triggerAction _ _ | .timerStart _ _ | .timerStop _ _ | .timerReset _ _ | .capclr _ _ | .gcmdStart _ _ | .gcmdStop _ _
  | .gcmdReset _ _ | .tmrCntWrite _ _ _ | .tmrBufWrite _ _ _ | .cmpWrite _ _ _ _ | .tmrSnap _ _ | .tmrCapRead _ _
  | .toutWrite _ _ _ | .qtzTime0Read _ | .settime _ _ _ | .setNow _ _ _ | .qtzCancel _ _ | .pwrRelease _ _ | .pwrAssert _ _
  | .shiftRequest _ _ | .countdownWrite _ _ | .secondBoundary | .countdownZero | .trimAdjustment | .autotrimWindowEnd
  | .autotrimEdgeTimeout | .oscStop | .oscRestart | .vbatCheck _ | .pwronPulseEnd | .calRun _ _ _ _ | .save _ _ _ _
  | .restore _ _ _ | .traceRx _ _ _ _ _ | .traceTx _ _ | .traceEnd _ _ | .traceTimeout | .calDue _ _ _ | .tempSample _
  | .calStepDone _ _ _ | .calGraceExpiry _ _ | .calApply _ _ | .calResumeExpiry _ _ | .sramCe | .hostgapElapsed | .cxreqRise
  | .rfBiasSettled | .mainszcEdge => true

end Sys2Proof
end

