-- ==== Sys2Proof/Tests/Slice0.lean ====
section
/-! SUPPORT. Tests: for each check of WellFormed a term that it refuses, and for each statement a theorem with a state and operands
that meet the hypotheses of each of its clauses. -/

namespace Sys2Proof.Tests

open Sys2Proof.Machine

set_option Elab.async false

/-! ### Ill-formed commands are refused -/

theorem test_wf_rejects_slate_record_past_the_end : Instr.wf (.slateRecord 1023 false [[], []] []) = false := by decide
theorem test_wf_rejects_short_slate_entry : Instr.wf (.slateRecord 0 false [[0]] []) = false := by decide
theorem test_wf_rejects_empty_hedge_record : Instr.wf (.hedgeRecord []) = false := by decide
theorem test_wf_rejects_long_hedge_record : Instr.wf (.hedgeRecord (List.replicate 33 ⟨0, 1, 0, List.replicate 8 0, List.replicate 8 0⟩)) = false := by decide
theorem test_wf_rejects_hedge_entry_of_seven : Instr.wf (.hedgeRecord [⟨0, 1, 0, List.replicate 7 0, List.replicate 8 0⟩]) = false := by decide
theorem test_wf_rejects_empty_prot_record : Instr.wf (.protRecord []) = false := by decide
theorem test_wf_rejects_long_prot_record : Instr.wf (.protRecord (List.replicate 33 ⟨0, 0, 0, 0⟩)) = false := by decide
theorem test_wf_rejects_commit_of_no_block : Instr.wf (.commit .user ⟨.rp, 64⟩) = false := by decide
theorem test_wf_rejects_discard_of_no_block : Instr.wf (.discard .user ⟨.hdg, 32⟩ false) = false := by decide
theorem test_wf_rejects_swap_of_no_block : Instr.wf (.shadowSwap ⟨.tmr, 16⟩) = false := by decide
theorem test_wf_rejects_part_swap_of_no_block : Instr.wf (.partSwap ⟨.fifo, 1⟩ 0) = false := by decide
theorem test_wf_rejects_write_of_other_count : Instr.wf (.g2Write 0 2 [0] 0) = false := by decide
theorem test_wf_rejects_read_past_its_count : Instr.wf (.g2Read 0 1 0 2) = false := by decide
theorem test_wf_rejects_command_byte_of_another_frame : Instr.wf (.g2Status 0 0 0 0x81) = false := by decide
theorem test_wf_rejects_reply_without_levels : Instr.wf (.rn16Reply .a [⟨0, true, []⟩]) = false := by decide
theorem test_wf_rejects_epc_reply_without_words : Instr.wf (.epcReply .a ⟨[], 0, [0, 0, 0, 0]⟩) = false := by decide
theorem test_wf_rejects_short_pupi : Instr.wf (.cardFrame (.atqb [0] [0, 0, 0, 0] [])) = false := by decide
theorem test_wf_rejects_short_idm : Instr.wf (.cardFrame (.sensf [0] [] 0)) = false := by decide
theorem test_wf_rejects_read_without_id : Instr.wf (.readMerge { tech := 0, id := [], longId := false, rp := 0, chan := 0, q64 := 0, level := 0, pc := 0, dup := false, hold := 0, report := 0 }) = false := by decide
theorem test_wf_rejects_empty_packet : Instr.wf (.packetAdmit 0 []) = false := by decide
theorem test_wf_accepts_status : Instr.wf (.g2Status 0 0 0 0x80) = true := by decide
theorem test_wf_accepts_packet : Instr.wf (.packetAdmit 0 [0]) = true := by decide

/-- The table gives no row bits, so no word spells a command. -/
theorem test_no_word_decodes : decodeTableWord 16 0x8000 = none := rfl

/-! ### States and operands that meet the hypotheses -/

/-- A key of 16 bytes. -/
def k16 : List Byte := [0, 1, 2, 3, 4, 5, 6, 7, 8, 9, 10, 11, 12, 13, 14, 15]
/-- A data frame with frame counter 5, secured with that key. -/
def oct : List Byte := [9, 232, 7, 255, 255, 0, 0, 255, 255, 136, 119, 102, 85, 68, 51, 34, 17, 13, 5, 0, 0, 0, 1, 195, 88, 162, 159, 202, 50, 170]
/-- Its header. -/
def hdr : LnkHdr :=
  { type := 1, version := 2, sec := true, ar := false, ie := false, srcMode := 3, seq := 7, destPan := some 65535, dest := some 0,
    srcPan := some 65535, src := 0x1122334455667788, level := 5, keyMode := 1, fc := 5, keyIndex := 1, len := 23 }
/-- The sender's identifier, its frame counter and the key, with such a frame in hand in a data slot. -/
def lnkSt (c : Nat) (sc : Sched) : State :=
  { setFlag (setReg (setReg (setReg {} (Adr.NBR_EUIH 0) 0x11223344) (Adr.NBR_EUIL 0) 0x55667788) (Adr.NBR_FC 0) (BitVec.ofNat 32 c))
      Fld.SYS_BOOTSTAT_DONE with
    boot := { keys := [⟨1, 0, k16⟩] }
    sched := sc
    lnk := { slot := some { kind := .data, entry := 0, rp := 0, chan := 0 },
             rx := some { level := 0, snr := 0, erased := 0, stamp := 0, at_ := 0, phr := some ⟨false, true, false, 10, 0, true⟩ },
             nbrs := [(0, { heard := true, mic := [159, 202, 50, 170] })] } }
/-- A link slot's grant that does not hold Flint, which another holds. -/
def lnkBusy : Sched :=
  { grants := [{ who := .linkSlot 5, cls := .c0, mask := 2, kind := .linkSlot 0, until_ := 10 ^ 12 },
               { who := .tagEngine, cls := .c0, mask := 2 ^ resFlint, kind := .flint, until_ := 10 ^ 12 }] }
theorem hdr_mine (s : State) (h : fld s Fld.LNK_ID_NODE = 0) : frameMine s hdr = true := by
  have e : ((0x1122334455667788 : Nat) == dieUid) = false := by simp only [dieUid, beq_eq_false_iff_ne]; omega
  simp [frameMine, hdr, e, h]
theorem oct_admissible (s : State) (o : List Byte) (hp : lnkParse o = some hdr) (hn : fld s Fld.LNK_ID_NODE = 0)
    (hs : frameSecured s hdr = true) (hk : keyOf s 1 0 = some k16) (hf : nbrFind s 0x1122334455667788 = some 0) :
    Admissible s o hdr 0 k16 :=
  ⟨hp, rfl, by decide, fun h => absurd h (by decide), hdr_mine s hn, hs, by decide, hk, hf⟩
theorem dieUid_toNat : (BitVec.ofNat 64 dieUid).toNat = dieUid := by
  have := Config.uidLow.isLt
  simp only [BitVec.toNat_ofNat, dieUid]; omega
/-- A header addressed to this tag. -/
def toDie : TagHdr := ⟨0x22, BitVec.ofNat 64 dieUid, true⟩
theorem addressed_die : addressed toDie = true := by
  simp only [addressed, toDie, dieUid_toNat, beq_self_eq_true, Bool.and_true]; decide
theorem not_addressed : addressed ⟨0x22, 0, true⟩ = false := by
  have : (0 : Nat) ≠ dieUid := by simp only [dieUid]; omega
  simpa [addressed] using fun _ => this
theorem reaches_die (s : State) (h : tagPowered s = true) : reaches s toDie = true ∧ direct s toDie = true := by
  have a : hdrAddress toDie = true := rfl
  have r : hdrRate toDie = true := rfl
  have i : hdrInventory toDie = false := rfl
  simp [reaches, direct, h, a, r, i, addressed_die]
/-- A table of 2,048 sightings. -/
def sgtFull : State :=
  { sgt := { open_ := (List.range 2048).map fun n =>
      (n, { id := [], first := 0, last := 0, firstAt := 0, lastAt := 0, tech := 0, zone := 0 }) } }
theorem sgt_full : sgtFree sgtFull = none := by
  unfold sgtFree firstBelow
  rw [List.find?_eq_none]
  intro n hn h
  simp only [sgtAt, Option.isNone_map, Option.isNone_iff_eq_none, List.find?_eq_none, sgtFull] at h
  exact absurd (h _ (List.mem_map_of_mem hn)) (by simp)
theorem sgt_full_other (r : ReadIn) (h : r.id.take 16 ≠ []) :
    sgtFull.sgt.open_.find? (fun p => sgtKey p.2 r.tech (r.id.take 16) (zoneOf sgtFull r.rp)) = none := by
  rw [List.find?_eq_none]
  intro p hp
  simp only [sgtFull, List.mem_map] at hp
  obtain ⟨n, -, rfl⟩ := hp
  simp [sgtKey]
  intro _ e
  exact absurd e.symm (by simpa using h)
/-- A data slot with a frame's PHR in hand. -/
def rxSt : State :=
  { lnk := { slot := some { kind := .data, entry := 0, rp := 0, chan := 0 },
             rx := some { level := 0, snr := 0, erased := 0, stamp := 0, at_ := 0, phr := some ⟨false, true, false, 5, 0, true⟩ } } }
/-- A link-class entry for read point 0. -/
def linkE : Entry := ((List.replicate 64 0).set 0 6).set 8 1
/-- A state in which the entry serves the rendezvous and the beacons. -/
def rdvSt : State :=
  { setFlag (setFld (setFld (setFld {} (Fld.RP_CFG_KIND 0) 3) Fld.LNK_DATA_ENTRY 2) Fld.LNK_BCN_ENTRY 2) Fld.LNK_RDV_EN with
    slate := { entries := [(2, linkE)] } }
/-- The same with a beacon of its own about 20 ms ahead. -/
def rdvLate : State :=
  setFld (setFld (setFld (setFld (setFlag rdvSt Fld.LNK_BCN_EN) Fld.LNK_EPOCH_EPOCH 1) Fld.LNK_BCN_BI 4) Fld.LNK_BCNPH_PHASE 22)
    Fld.LNK_RDV_LEN 10
/-- The same with a lost source. -/
def brxSt : State :=
  { setFlag rdvSt (Fld.LNK_SRC_EN 0) with lnk := { nbrs := [(0, { track := 5, nextBi := some 4 })] } }

theorem witness_IdleStepPassesOneCycle :
    ∃ (s : State), (s.pending = []) :=
  ⟨{}, by decide +kernel⟩

theorem witness_EveryStepKeepsTheStores :
    ∃ (s : State), (StoresWf s) :=
  ⟨{}, ⟨by decide +kernel, by decide +kernel⟩⟩

theorem witness_DeniedAccessesOnlyReport :
    (∃ (c : Instr) (s : State) (lvl : Level) (a : Nat) (wr : Bool), (access c = some (lvl, a, wr)) ∧ (permitted s lvl a wr =
      false)) ∧
    (∃ (s : State) (addr : BitVec 16) (count : BitVec 16) (crc : BitVec 16) (shifted : Nat) (n : Nat), (g2Open s = true) ∧
      (mustHold s = false) ∧ (0 < count.toNat) ∧ (n = min shifted count.toNat) ∧ (0 < n) ∧ (count.toNat ≤ 1024) ∧ (crc.toNat =
      crc16 (headBytes 0x81 addr.toNat count.toNat)) ∧ (∀ k < n, inBurst (windowOf addr.toNat) (addr.toNat + k) = true ∧
      permitted s (hostLevel s) (addr.toNat + k) false = false)) ∧
    (∃ (s : State) (addr : BitVec 16) (count : BitVec 16) (crc : BitVec 16) (words : List Word), (g2Open s = true) ∧ (mustHold
      s = false) ∧ (0 < count.toNat) ∧ (words.length = count.toNat) ∧ (count.toNat ≤ 256) ∧ (hostGate s = 2) ∧ (crc.toNat =
      crc16 (frameBytes 0x82 addr.toNat count.toNat words)) ∧ (∀ k < count.toNat, inBurst (windowOf addr.toNat) (addr.toNat +
      k) = true ∧ permitted s (hostLevel s) (addr.toNat + k) true = false)) :=
  ⟨⟨.commit .user ⟨.hsp, 0⟩, setReg {} Adr.PROT_DEF 0, .user, commitAddr ⟨.hsp, 0⟩, true, by and_intros <;> decide +kernel⟩,
   ⟨{ setReg {} Adr.PROT_DEF 0 with pins := { hselN := false, hrdy := true }, boot := { step := 0 } }, 517, 1, 0x8f34, 1, 1,
    by and_intros <;> decide +kernel⟩,
   ⟨{ setFlag (setReg {} Adr.PROT_DEF 0) Fld.SYS_BOOTSTAT_DONE with pins := { hselN := false, hrdy := true }, boot := { step := 0 } },
    BitVec.ofNat 16 Adr.HSP_IMASK0, 1, BitVec.ofNat 16 (crc16 (frameBytes 0x82 Adr.HSP_IMASK0 1 [5])), [5],
    by and_intros <;> decide +kernel⟩⟩

theorem witness_HspCommitIsCheckedForRange :
    (∃ (s : State) (v : State) (b : BlockInst), (b = ⟨.hsp, 0⟩) ∧ (flag s (cPend b) = true) ∧ (v = swapWords s b (fun _ =>
      true)) ∧ (s.pins.hselN = false ∨ commitNew s b = true)) ∧
    (∃ (s : State) (v : State) (b : BlockInst), (b = ⟨.hsp, 0⟩) ∧ (flag s (cPend b) = true) ∧ (v = swapWords s b (fun _ =>
      true)) ∧ (s.pins.hselN = true) ∧ (commitNew s b = false)) ∧
    (∃ (s : State) (v : State) (b : BlockInst), (b = ⟨.hsp, 0⟩) ∧ (flag s (cPend b) = true) ∧ (v = swapWords s b (fun _ =>
      true)) ∧ (s.pins.hselN = true) ∧ (commitNew s b = false) ∧ (pendingInsts s = [b]) ∧ (fld v Fld.HSP_LEN_LEN = 0 ∨ 4096 <
      fld v Fld.HSP_LEN_LEN ∨ fld v Fld.HSP_STALL_MAX_US = 0 ∨ fld v Fld.HSP_CFG_G3IDLE = 0)) ∧
    (∃ (s : State) (v : State) (b : BlockInst), (b = ⟨.hsp, 0⟩) ∧ (flag s (cPend b) = true) ∧ (v = swapWords s b (fun _ =>
      true)) ∧ (s.pins.hselN = true) ∧ (commitNew s b = false) ∧ (pendingInsts s = [b]) ∧ (0 < fld v Fld.HSP_LEN_LEN) ∧ (fld v
      Fld.HSP_LEN_LEN ≤ 4096) ∧ (fld v Fld.HSP_STALL_MAX_US ≠ 0) ∧ (fld v Fld.HSP_CFG_G3IDLE ≠ 0)) :=
  ⟨⟨{ regs := [(11791, 0x80000000#32)], pins := { hselN := false } }, _, _, rfl, by decide +kernel, rfl, by decide +kernel⟩,
   ⟨{ regs := [(11791, 0x80000000#32)] }, _, _, rfl, by decide +kernel, rfl, by and_intros <;> decide +kernel⟩,
   ⟨{ regs := [(11777, 0#32), (11791, 0x80000000#32)] }, _, _, rfl, by decide +kernel, rfl, by and_intros <;> decide +kernel⟩,
   ⟨{ regs := [(11791, 0x80000000#32)] }, _, _, rfl, by decide +kernel, rfl, by and_intros <;> decide +kernel⟩⟩

theorem witness_ResetsAndRestartsBeginStarts :
    (∃ (s : State), (s.pins.core = true)) ∧
    (∃ (s : State), (s.pins.core = false)) ∧
    (∃ (s : State), (s.pins.core = false) ∧ (s.pins.vddio = true) ∧ (s.pins.rstN = true)) ∧
    (∃ (s : State), (s.pins.core = false) ∧ (s.pins.vddio = false ∨ s.pins.rstN = false)) ∧
    (∃ (s : State), (s.pins.vddio = true) ∧ (s.pins.core = true)) ∧
    (∃ (s : State), (s.pins.vddio = false ∨ s.pins.core = false)) ∧
    (∃ (s : State), (s.pins.vddio = false) ∧ (s.pins.core = true) ∧ (s.pins.rstN = true)) ∧
    (∃ (s : State), (s.pins.vddio = true)) ∧
    (∃ (s : State), (s.pins.rstN = true) ∧ (s.pins.core = true)) ∧
    (∃ (s : State), (s.pins.rstN = false ∨ s.pins.core = false)) ∧
    (∃ (s : State), (s.pins.rstN = false) ∧ (s.pins.core = true) ∧ (s.pins.vddio = true)) ∧
    (∃ (s : State), (s.pins.rstN = true)) ∧
    (∃ (s : State), (s.pins.vbat = false) ∧ (flag s Fld.TAG_STAT_FIELD = false)) ∧
    (∃ (s : State), (s.pins.vbat = true ∨ flag s Fld.TAG_STAT_FIELD = true)) ∧
    (∃ (s : State), (restartable s = true)) ∧
    (∃ (s : State), (restartable s = false)) ∧
    (∃ (s : State) (n : Fin 2048) (e : Sighting), (running s = true) ∧ (sgtAt s n = some e)) ∧
    (∃ (s : State), (running s = false)) ∧
    (∃ (s : State), (running s = true)) ∧
    (∃ (s : State) (lvl : Level) (key : BitVec 16), (permitted s lvl Adr.SYS_BOOTCMD true = true) ∧ (key ≠ 0xA55A ∨
      supervisorLevel lvl = false)) ∧
    (∃ (s : State) (lvl : Level), (permitted s lvl Adr.SYS_BOOTCMD true = true) ∧ (supervisorLevel lvl = true)) :=
  ⟨⟨{}, by decide +kernel⟩,
   ⟨{ pins := { core := false } }, by decide +kernel⟩,
   ⟨{ pins := { core := false } }, by and_intros <;> decide +kernel⟩,
   ⟨{ pins := { core := false, rstN := false } }, by and_intros <;> decide +kernel⟩,
   ⟨{}, by and_intros <;> decide +kernel⟩,
   ⟨{ pins := { core := false } }, by decide +kernel⟩,
   ⟨{ pins := { vddio := false } }, by and_intros <;> decide +kernel⟩,
   ⟨{}, by decide +kernel⟩,
   ⟨{}, by and_intros <;> decide +kernel⟩,
   ⟨{ pins := { rstN := false } }, by decide +kernel⟩,
   ⟨{ pins := { rstN := false } }, by and_intros <;> decide +kernel⟩,
   ⟨{}, by decide +kernel⟩,
   ⟨{ pins := { vbat := false } }, by and_intros <;> decide +kernel⟩,
   ⟨{}, by decide +kernel⟩,
   ⟨{ boot := { step := 7 } }, by decide +kernel⟩,
   ⟨{}, by decide +kernel⟩,
   ⟨{ sgt := { open_ := [(5, { id := [], first := 0, last := 15, firstAt := 16, lastAt := 8, rpMask := 993225, count := 16, hold := 88, pc := 53, flags := 227, upFirst := 0, dnFirst := 3, upPeak := 1, dnPeak := 2, peak := 4, upLvl := 0, dnLvl := 15, tech := 86, zone := 16, dgrp := 9, peakRp := 4 })] } },
    5,
    { id := [], first := 0, last := 15, firstAt := 16, lastAt := 8, rpMask := 993225, count := 16, hold := 88, pc := 53, flags := 227, upFirst := 0, dnFirst := 3, upPeak := 1, dnPeak := 2, peak := 4, upLvl := 0, dnLvl := 15, tech := 86, zone := 16, dgrp := 9, peakRp := 4 },
    by and_intros <;> decide +kernel⟩,
   ⟨{ pins := { rstN := false } }, by decide +kernel⟩,
   ⟨{}, by decide +kernel⟩,
   ⟨{}, .firmware, 0xffff#16, by and_intros <;> decide +kernel⟩,
   ⟨{}, .supervisor, by and_intros <;> decide +kernel⟩⟩

theorem witness_StartsEndInBareOrDone :
    (∃ (s : State), (powered s = false ∨ s.boot.step = 0)) ∧
    (∃ (s : State), (powered s = true) ∧ (s.boot.step = 5) ∧ (flag s Fld.SYS_BOOTSTAT_BOOTSEL = true) ∧ (s.boot.ignoreBootsel
      = false)) ∧
    (∃ (s : State) (inp : StartInputs), (powered s = true) ∧ (s.boot.step = 1) ∧ (inp.bootsel = .high) ∧ (inp.pllLocks = true)
      ∧ (s.boot.ignoreBootsel = false)) ∧
    (∃ (s : State) (inp : StartInputs), (powered s = true) ∧ (s.boot.step = 5) ∧ (s.boot.ignoreBootsel = true) ∧ (inp.jedec =
      0 ∨ inp.jedec = 0xFFFFFF)) ∧
    (∃ (s : State) (inp : StartInputs), (powered s = true) ∧ (s.boot.step = 7 ∨ (s.boot.step = 5 ∧ s.boot.ignoreBootsel = true
      ∧ (chooseImage s inp).2 = true))) ∧
    (∃ (s : State) (lvl : Level) (key : BitVec 16), (permitted s lvl Adr.SYS_BOOTCMD true = true) ∧ (key ≠ 0xA55A ∨
      supervisorLevel lvl = false ∨ flag s Fld.SYS_BOOTSTAT_BARE = false) ∧ (s.boot.step ≠ 7)) ∧
    (∃ (s : State) (lvl : Level), (permitted s lvl Adr.SYS_BOOTCMD true = true) ∧ (powered s = true) ∧ (supervisorLevel lvl =
      true) ∧ (flag s Fld.SYS_BOOTSTAT_BARE = true)) :=
  ⟨⟨{ boot := { step := 0 } }, by decide +kernel⟩,
   ⟨{ regs := [(32, 0xe3200f00#32)], boot := { step := 5 } }, by and_intros <;> decide +kernel⟩,
   ⟨{},
    { hgen := .low, bootsel := .high, refin := false, pllLocks := true, jedec := 0#24, badSectors := [], nandAnswers := true, ringMounts := false, calFails := [] },
    by and_intros <;> decide +kernel⟩,
   ⟨{ boot := { step := 5, ignoreBootsel := true } },
    { hgen := .high, bootsel := .high, refin := true, pllLocks := true, jedec := 0xffffff#24, badSectors := [], nandAnswers := false, ringMounts := false, calFails := [] },
    by and_intros <;> decide +kernel⟩,
   ⟨{ boot := { step := 7 } },
    { hgen := .low, bootsel := .changing, refin := true, pllLocks := false, jedec := 0xffffff#24, badSectors := [], nandAnswers := false, ringMounts := false, calFails := [(1, 0)] },
    by and_intros <;> decide +kernel⟩,
   ⟨{}, .firmware, 0xffff#16, by and_intros <;> decide +kernel⟩,
   ⟨{ regs := [(32, 0x33a0f500#32)] }, .supervisor, by and_intros <;> decide +kernel⟩⟩

theorem witness_WritesStageAndCommitsWait :
    (∃ (addr : BitVec 16), (populated addr.toNat = false)) ∧
    (∃ (s : State) (lvl : Level) (addr : BitVec 16), (populated addr.toNat = true) ∧ (permitted s lvl addr.toNat true = true)
      ∧ (∀ u w, actWrite u lvl addr.toNat w = none) ∧ (accMask addr.toNat .sh = 0) ∧ (isCommit addr.toNat = false)) ∧
    (∃ (s : State) (lvl : Level) (addr : BitVec 16) (b : _), (populated addr.toNat = true) ∧ (permitted s lvl addr.toNat true
      = true) ∧ (∀ u w, actWrite u lvl addr.toNat w = none) ∧ (blockOf addr.toNat = some b) ∧ (commitAddr b ≠ addr.toNat) ∧
      (accMask addr.toNat .sh ≠ 0) ∧ (flag s (cPend b) = false)) ∧
    (∃ (s : State) (lvl : Level) (addr : BitVec 16) (b : _), (populated addr.toNat = true) ∧ (permitted s lvl addr.toNat true
      = true) ∧ (∀ u w, actWrite u lvl addr.toNat w = none) ∧ (blockOf addr.toNat = some b) ∧ (commitAddr b ≠ addr.toNat) ∧
      (accMask addr.toNat .sh ≠ 0) ∧ (flag s (cPend b) = true)) ∧
    (∃ (b : BlockInst), (validInst b = false)) ∧
    (∃ (s : State) (lvl : Level) (b : BlockInst), (validInst b = true) ∧ (permitted s lvl (commitAddr b) true = true) ∧ (flag
      s (cPend b) = true)) ∧
    (∃ (s : State) (lvl : Level) (b : BlockInst), (validInst b = true) ∧ (permitted s lvl (commitAddr b) true = true) ∧ (flag
      s (cPend b) = false) ∧ (blockIdle (setPend (commitFlags s b 1) b 1) b = false)) ∧
    (∃ (s : State) (lvl : Level) (b : BlockInst), (validInst b = true) ∧ (permitted s lvl (commitAddr b) true = true) ∧ (flag
      s (cPend b) = false) ∧ (blockIdle (setPend (commitFlags s b 1) b 1) b = true)) ∧
    (∃ (s : State) (lvl : Level) (b : BlockInst), (validInst b = true) ∧ (permitted s lvl (commitAddr b) true = true)) :=
  ⟨⟨0x9999#16, by decide +kernel⟩,
   ⟨{}, .firmware, 0x41b#16, by decide +kernel, by decide +kernel, fun _ _ => rfl, by and_intros <;> decide +kernel⟩,
   ⟨{}, .firmware, 0x1010#16, { block := .rp, inst := 1 }, by decide +kernel, by decide +kernel, fun _ _ => rfl,
    by and_intros <;> decide +kernel⟩,
   ⟨{ regs := [(11791, 0x80000000#32)] }, .supervisor, 0x2e02#16, { block := .hsp, inst := 0 }, by decide +kernel,
    by decide +kernel, fun _ _ => rfl, by and_intros <;> decide +kernel⟩,
   ⟨{ block := .hdg, inst := 40 }, by decide +kernel⟩,
   ⟨{ regs := [(6143, 0x80000000#32)] }, .firmware, { block := .brm, inst := 0 }, by and_intros <;> decide +kernel⟩,
   ⟨{ hf := { visit := some { entry := 0, session := false, leaf := 0, leaves := [], startedAt := 0, phase := .attrib { uid := [18#8, 255#8, 168#8, 175#8], w3 := 225, extra := [75#8, 86#8, 255#8], proto := [3#8, 3#8, 1#8], dup := true, q64 := 2, at_ := 291 } } } },
    .user, { block := .rp, inst := 0 }, by and_intros <;> decide +kernel⟩,
   ⟨{}, .user, { block := .rp, inst := 0 }, by and_intros <;> decide +kernel⟩,
   ⟨{}, .user, { block := .rp, inst := 0 }, by and_intros <;> decide +kernel⟩⟩

theorem witness_BoundariesSwapOrRefuse :
    (∃ (b : BlockInst), (validInst b = false)) ∧
    (∃ (s : State) (b : BlockInst), (validInst b = false ∨ flag s (cPend b) = false)) ∧
    (∃ (s : State) (b : BlockInst), (atBoundary s b = false)) ∧
    (∃ (s : State) (b : BlockInst), (commitNew s b = true)) ∧
    (∃ (s : State) (b : BlockInst), (validInst b = true) ∧ (atBoundary s b = true)) ∧
    (∃ (s : State) (b : BlockInst) (n : _), (isParted b.block = false ∨ partAt s b.block n = false)) ∧
    (∃ (s : State) (b : BlockInst), (validInst b = true) ∧ (flag s (cPend b) = true) ∧ (isParted b.block = false ∨ (partsLeft
      s b.block) = none) ∧ (checkOf s b ≠ 0) ∧ (atBoundary s b = true) ∧ (pendingInsts s = [b])) ∧
    (∃ (s : State) (b : BlockInst), (validInst b = true) ∧ (flag s (cPend b) = true) ∧ (checkOf s b = 0) ∧ (atBoundary s b =
      true) ∧ (pendingInsts s = [b]) ∧ (b.block = .prot ∨ b.block = .rp ∨ b.block = .hf ∨ b.block = .msp ∨ b.block = .hsp)) ∧
    (∃ (s : State) (b : BlockInst) (l : _) (n : _), (validInst b = true) ∧ (flag s (cPend b) = true) ∧ (isParted b.block =
      true) ∧ (partsLeft s b.block = some l) ∧ (n ∈ l) ∧ (partAt s b.block n = true)) :=
  ⟨⟨{ block := .hdg, inst := 40 }, by decide +kernel⟩,
   ⟨{}, { block := .rp, inst := 0 }, by decide +kernel⟩,
   ⟨{ hf := { visit := some { entry := 0, session := false, leaf := 0, leaves := [], startedAt := 0, phase := .rate { uid := [255#8, 3#8], w3 := 3, proto := [65#8, 74#8, 123#8], q64 := 142, at_ := 255 } (12, 1) (166, 255) }, answerBy := some 18 } },
    { block := .rp, inst := 0 }, by decide +kernel⟩,
   ⟨{ fresh := [(commitAddr ⟨.hsp, 0⟩, 0x80000000)] }, ⟨.hsp, 0⟩, by decide +kernel⟩,
   ⟨{}, { block := .rp, inst := 0 }, by and_intros <;> decide +kernel⟩,
   ⟨{}, { block := .rp, inst := 0 }, 255, by decide +kernel⟩,
   ⟨{ setPend {} ⟨.hsp, 0⟩ 1 with shadow := [(Fld.HSP_LEN_LEN.addr, 0xFFFFFFFF)] }, ⟨.hsp, 0⟩, by and_intros <;> decide +kernel⟩,
   ⟨setPend {} ⟨.rp, 0⟩ 1, ⟨.rp, 0⟩, by and_intros <;> decide +kernel⟩,
   ⟨{ regs := [(10495, 0x80000000#32)], parts := [(.cal, [1, 2])] }, { block := .cal, inst := 0 }, [1, 2], 2,
    by and_intros <;> decide +kernel⟩⟩

theorem witness_ImageRecordsApplyOrAreRefused :
    (∃ (ts : List RegTriple), (ts.any tripleBad = true)) ∧
    (∃ (r : RegTriple), (tripleBad r = false) ∧ (isCommit r.addr.toNat = false) ∧ (r.addr.toNat ≠ Adr.HSP_STAT) ∧ (∀ u w,
      actWrite u .firmware r.addr.toNat w = none) ∧ (accMask r.addr.toNat .sh = 0)) ∧
    (∃ (a : BitVec 16) (ws : List Word), ((List.range ws.length).any (fun k => blockWordBad (a.toNat + k)) = true)) ∧
    (∃ (a : BitVec 16) (w : Word), (blockWordBad a.toNat = false) ∧ (isCommit a.toNat = false) ∧ (a.toNat ≠ Adr.HSP_STAT) ∧ (∀
      u w, actWrite u .firmware a.toNat w = none) ∧ (accMask a.toNat .sh = 0)) ∧
    (∃ (usage : Byte) (slot : BitVec 5) (key : List Byte), (keyLen usage.toNat = 0 ∨ key.length ≠ keyLen usage.toNat ∨ (usage
      = 5 ∧ slot ≠ 0))) ∧
    (∃ (usage : Byte) (slot : BitVec 5) (key : List Byte), (keyLen usage.toNat ≠ 0) ∧ (key.length = keyLen usage.toNat) ∧
      (usage ≠ 5 ∨ slot = 0)) ∧
    (∃ (s : State) (i : Fin 1024) (e : Entry) (j : _) (why : _), (e.length = 64) ∧ (slateRefusal s [(i.val, e)] = some (j,
      why))) ∧
    (∃ (s : State) (i : Fin 1024) (preserve : Bool) (e : Entry), (e.length = 64) ∧ (slateRefusal s [(i.val, e)] = none) ∧
      (slateNeeds s preserve (i.val, e) = false)) ∧
    (∃ (s : State) (i : Fin 1024) (preserve : Bool) (e : Entry) (bad : List Nat), (e.length = 64) ∧ (slateRefusal s [(i.val,
      e)] = none) ∧ (slateNeeds s preserve (i.val, e) = true) ∧ (bad.contains (slateSector i) = false) ∧ (StoresWf s) ∧ (∀ p ∈
      s.slate.copied, p.1 ≠ slateSector i)) ∧
    (∃ (es : List HedgeEntry), (es.any hedgeEntryBad = true)) ∧
    (∃ (s : State) (e : HedgeEntry) (b : BlockInst) (u : State), (hedgeEntryBad e = false) ∧ (cycleFrom s [e] e.index.toNat =
      false) ∧ (b = ⟨.hdg, e.index.toNat⟩) ∧ (stagedOf s b = []) ∧ (flag s (cPend b) = false) ∧ (u = setPend (hedgeStage s e)
      b 1) ∧ (blockIdle u b = true) ∧ (checkOf u b = 0)) ∧
    (∃ (item : Byte) (inst : Byte) (ws : List Word), (calCountOk item.toNat inst.toNat ws.length = false)) ∧
    (∃ (item : Byte) (inst : Byte) (ws : List Word), (recordInstances item.toNat ≤ inst.toNat) ∧ (calCountOk item.toNat
      inst.toNat ws.length = true)) ∧
    (∃ (s : State) (item : Byte) (inst : Byte) (ws : List Word), (inst.toNat < recordInstances item.toNat) ∧ (calCountOk
      item.toNat inst.toNat ws.length = true) ∧ (itemPresent s item.toNat inst.toNat = false)) ∧
    (∃ (s : State) (item : Byte) (inst : Byte) (ws : List Word) (u : _), (inst.toNat < recordInstances item.toNat) ∧
      (calCountOk item.toNat inst.toNat ws.length = true) ∧ (itemPresent s item.toNat inst.toNat = true) ∧ (item ≠ 7) ∧ (flag
      s (cPend (itemBlock item.toNat)) = false) ∧ (u = ((itemWords item.toNat inst.toNat).zip ws).foldl (fun t p => stageWord
      t p.1 p.2) s) ∧ (blockIdle (setPend u (itemBlock item.toNat) 1) (itemBlock item.toNat) = false)) ∧
    (∃ (es : List ProtEntry), (es.any (fun e => 32 ≤ e.index.toNat) = true)) ∧
    (∃ (s : State) (e : ProtEntry), (e.index.toNat < 32) ∧ (flag s (cPend ⟨.prot, 0⟩) = false) ∧ (s.pins.hselN = false)) :=
  ⟨⟨[{ addr := 0xffff#16, mask := 10#32, value := 0xffffffff#32 },
    { addr := 0xf599#16, mask := 0xffffffff#32, value := 0x79fb23b4#32 },
    { addr := 1#16, mask := 0xd2731c45#32, value := 0x3006bceb#32 },
    { addr := 0x222b#16, mask := 7#32, value := 0xb71532bc#32 }], by decide +kernel⟩,
   ⟨{ addr := 0x1c60#16, mask := 1#32, value := 4#32 }, by decide +kernel, by decide +kernel, by decide +kernel, fun _ _ => rfl,
    by decide +kernel⟩,
   ⟨16#16, [2#32, 0#32, 0x1d18a9#32, 5#32], by decide +kernel⟩,
   ⟨0x2e0a#16, 0x3954c12c#32, by decide +kernel, by decide +kernel, by decide +kernel, fun _ _ => rfl, by decide +kernel⟩,
   ⟨243#8, 19#5, [], by decide +kernel⟩,
   ⟨3#8, 6#5, [8#8, 135#8, 1#8, 0#8], by and_intros <;> decide +kernel⟩,
   ⟨{}, 2, [6#8, 5#8, 19#8, 3#8, 3#8, 0#8, 185#8, 0#8, 6#8, 0#8, 135#8, 1#8, 0#8, 1#8, 28#8, 165#8, 1#8, 88#8, 2#8, 5#8, 1#8,
    13#8, 0#8, 13#8, 138#8, 174#8, 65#8, 14#8, 3#8, 3#8, 7#8, 118#8, 2#8, 0#8, 98#8, 3#8, 18#8, 26#8, 3#8, 1#8, 1#8, 3#8, 2#8,
    1#8, 2#8, 73#8, 5#8, 3#8, 0#8, 181#8, 58#8, 155#8, 142#8, 9#8, 8#8, 176#8, 70#8, 1#8, 15#8, 1#8, 3#8, 74#8, 120#8, 94#8],
    2, 1, by and_intros <;> decide +kernel⟩,
   ⟨{}, 0, true, List.replicate 64 0, by and_intros <;> decide +kernel⟩,
   ⟨{ mem := { nor := [(0x800000, 1)] } }, 0, true, List.replicate 64 0, [], by decide +kernel, by decide +kernel,
    by decide +kernel, by decide +kernel, ⟨by decide +kernel, by decide +kernel⟩, by decide +kernel⟩,
   ⟨[{ index := 255#8, nchild := 10#8, roles := 0xffff#16, child := [], weight := [] },
    { index := 191#8, nchild := 186#8, roles := 1#16, child := [1#8, 15#8, 109#8], weight := [] },
    { index := 144#8, nchild := 1#8, roles := 1#16, child := [255#8, 145#8, 2#8, 0#8], weight := [3#8, 3#8] },
    { index := 2#8, nchild := 13#8, roles := 2#16, child := [], weight := [255#8, 7#8, 118#8] }], by decide +kernel⟩,
   ⟨setFld {} (Fld.RP_CFG_KIND 0) 1, ⟨0, 1, 0, 0 :: List.replicate 7 0x7F, 1 :: List.replicate 7 0⟩, ⟨.hdg, 0⟩, _,
    by decide +kernel, by decide +kernel, by decide +kernel, by decide +kernel, by decide +kernel, rfl,
    by and_intros <;> decide +kernel⟩,
   ⟨243#8, 83#8, [], by decide +kernel⟩,
   ⟨1#8, 88#8, [1#32], by and_intros <;> decide +kernel⟩,
   ⟨{}, 2#8, 2#8, [1#32], by and_intros <;> decide +kernel⟩,
   ⟨{}, 8#8, 0#8, [0#32], _, by decide +kernel, by decide +kernel, by decide +kernel, by decide +kernel, by decide +kernel, rfl,
    by decide +kernel⟩,
   ⟨[{ index := 255#8, perms := 10#8, first := 0xffff#16, last := 1#16 },
    { index := 191#8, perms := 186#8, first := 1#16, last := 0xe6ce#16 },
    { index := 234#8, perms := 245#8, first := 0x222b#16, last := 7#16 },
    { index := 0#8, perms := 9#8, first := 1#16, last := 0x8158#16 }], by decide +kernel⟩,
   ⟨{ pins := { hselN := false } }, { index := 18#8, perms := 5#8, first := 4#16, last := 3#16 },
    by and_intros <;> decide +kernel⟩⟩

theorem witness_ModeCommandsAreRefusedInOrder :
    (∃ (s : State) (lvl : Level) (key : BitVec 16), (permitted s lvl Adr.SYS_MODECMD true = true) ∧ (key ≠ 0xA55A)) ∧
    (∃ (s : State) (lvl : Level), (permitted s lvl Adr.SYS_MODECMD true = true) ∧ (lvl ≠ .supervisor)) ∧
    (∃ (s : State) (lvl : Level), (permitted s lvl Adr.SYS_MODECMD true = true) ∧ (s.modes.cmd ≠ none)) ∧
    (∃ (s : State) (lvl : Level), (permitted s lvl Adr.SYS_MODECMD true = true) ∧ (s.modes.cmd = none)) ∧
    (∃ (s : State) (lvl : Level), (permitted s lvl Adr.SYS_MODECMD true = true) ∧ (s.modes.cmd = none) ∧ (mode s = 3 ∨ mode s
      = 4) ∧ (fld s Fld.SYS_MODECTL_FLOOR = 3)) :=
  ⟨⟨{}, .firmware, 0x6653#16, by and_intros <;> decide +kernel⟩,
   ⟨{}, .firmware, by and_intros <;> decide +kernel⟩,
   ⟨{ modes := { cmd := some .sleepNow } }, .firmware, by and_intros <;> decide +kernel⟩,
   ⟨{}, .user, by and_intros <;> decide +kernel⟩,
   ⟨{}, .firmware, by and_intros <;> decide +kernel⟩⟩

theorem witness_ModeCommandsTakeEffect :
    (∃ (s : State) (lvl : Level) (key : BitVec 16), (key = 0xA55A) ∧ (permitted s lvl Adr.SYS_MODECMD true = true) ∧
      (s.modes.cmd = none) ∧ (mode s = 3 ∨ mode s = 4) ∧ (fld s Fld.SYS_MODECTL_FLOOR ≠ 3)) ∧
    (∃ (s : State) (lvl : Level) (key : BitVec 16), (key = 0xA55A) ∧ (permitted s lvl Adr.SYS_MODECMD true = true) ∧
      (s.modes.cmd ≠ none)) ∧
    (∃ (s : State) (lvl : Level) (key : BitVec 16), (key = 0xA55A) ∧ (permitted s lvl Adr.SYS_MODECMD true = true) ∧ (lvl =
      .supervisor) ∧ (s.modes.cmd = none) ∧ (mode s = 5)) ∧
    (∃ (s : State) (lvl : Level) (key : BitVec 16), (key = 0xA55A) ∧ (permitted s lvl Adr.SYS_MODECMD true = true) ∧ (lvl =
      .supervisor) ∧ (s.modes.cmd = none) ∧ (mode s = 3 ∨ mode s = 4)) ∧
    (∃ (s : State) (lvl : Level) (key : BitVec 16), (key = 0xA55A) ∧ (permitted s lvl Adr.SYS_MODECMD true = true) ∧ (lvl =
      .supervisor) ∧ (s.modes.cmd = none) ∧ (3 ≤ mode s)) ∧
    (∃ (s : State) (lvl : Level) (key : BitVec 16), (key = 0xA55A) ∧ (permitted s lvl Adr.SYS_MODECMD true = true) ∧ (lvl =
      .supervisor) ∧ (s.modes.cmd = none) ∧ (mode s = 3 ∨ mode s = 4) ∧ (s.sched.grants ≠ [])) ∧
    (∃ (s : State) (lvl : Level) (key : BitVec 16), (key = 0xA55A) ∧ (permitted s lvl Adr.SYS_MODECMD true = true) ∧ (lvl =
      .supervisor) ∧ (s.modes.cmd = none) ∧ (mode s = 3 ∨ mode s = 4) ∧ (s.sched.grants = [])) ∧
    (∃ (s : State) (lvl : Level) (key : BitVec 16), (key = 0xA55A) ∧ (permitted s lvl Adr.SYS_MODECMD true = true) ∧ (lvl =
      .supervisor) ∧ (s.modes.cmd = none) ∧ (mode s = 4 ∨ mode s = 5) ∧ (s.sched.grants ≠ [])) ∧
    (∃ (s : State) (lvl : Level) (key : BitVec 16), (key = 0xA55A) ∧ (permitted s lvl Adr.SYS_MODECMD true = true) ∧ (lvl =
      .supervisor) ∧ (s.modes.cmd = none) ∧ (mode s = 3)) :=
  ⟨⟨{ regs := [(17, 0x2140004#32)] }, .user, 42330, by and_intros <;> decide +kernel⟩,
   ⟨{ modes := { cmd := some .sleepNow } }, .firmware, 42330, by and_intros <;> decide +kernel⟩,
   ⟨{ regs := [(16, 0x10f005#32)] }, .supervisor, 42330, by and_intros <;> decide +kernel⟩,
   ⟨{}, .supervisor, 42330, by and_intros <;> decide +kernel⟩,
   ⟨{}, .supervisor, 42330, by and_intros <;> decide +kernel⟩,
   ⟨{ sched := { grants := [{ who := .entry 1, cls := .c1, mask := 0, kind := .external }] } }, .supervisor, 42330,
    by and_intros <;> decide +kernel⟩,
   ⟨{}, .supervisor, 42330, by and_intros <;> decide +kernel⟩,
   ⟨{ regs := [(16, 0x70f004#32)], sched := { grants := [{ who := .entry 1, cls := .c1, mask := 0, kind := .external }] } },
    .supervisor, 42330, by and_intros <;> decide +kernel⟩,
   ⟨{}, .supervisor, 42330, by and_intros <;> decide +kernel⟩⟩

theorem witness_SleepWakeAndClocks :
    (∃ (s : State), (sleepReady s = false ∨ jpageWaits s = false)) ∧
    (∃ (s : State), (maySleep s = false) ∧ (maySleep (sleepFlush s) = false)) ∧
    (∃ (s : State), (maySleep s = false) ∧ (sleepReady s = false)) ∧
    (∃ (s : State), (maySleep s = true)) ∧
    (∃ (s : State) (m : _), (s.modes.waking = some m) ∧ (mode s = 1 ∨ mode s = 2)) ∧
    (∃ (s : State), (s.modes.wakeAt = none ∨ (∃ w, s.modes.wakeAt = some w ∧ s.clk.now < w))) ∧
    (∃ (s : State) (w : _), (s.modes.wakeAt = some w) ∧ (w ≤ s.clk.now) ∧ (mode s = 1 ∨ mode s = 2) ∧ ((reg s
      Adr.SYS_WAKEEN).toNat.testBit 9 = true)) ∧
    (∃ (s : State), (mode s ≠ 0) ∧ ((reg s Adr.SYS_WAKEEN).toNat.testBit 5 = true)) ∧
    (∃ (s : State), (pllWanted s = true ∨ fld s Fld.SYS_CLKSTAT_FALLBACK = 1)) ∧
    (∃ (s : State), (fld s Fld.SYS_CLKSTAT_FALLBACK = 1)) ∧
    (∃ (s : State), (fld s Fld.SYS_CLKSTAT_FALLBACK = 0)) ∧
    (∃ (s : State), (pllWanted s = true) ∧ (fld s Fld.SYS_CLKSTAT_FALLBACK = 0)) ∧
    (∃ (s : State), (pllWanted s = false)) ∧
    (∃ (s : State), (fld s Fld.SYS_CLKSTAT_PLLLOCK = 0)) ∧
    (∃ (s : State), (fld s Fld.SYS_CLKSTAT_PLLLOCK = 1)) ∧
    (∃ (s : State), (s.clk.biasRising = true)) ∧
    (∃ (s : State), (mode s = 4) ∧ (rfHeld s = false)) ∧
    (∃ (s : State) (lvl : Level), (permitted s lvl Adr.SYS_WAKEEN true = true)) ∧
    (∃ (s : State), (s.modes.cmd = some .enterBackup) ∧ (mode s = 3) ∧ (s.modes.flushed = false)) ∧
    (∃ (s : State), (mode s = 2) ∧ (s.modes.window = true)) ∧
    (∃ (s : State) (w : _) (rest : _) (e : _) (rp : _) (u : _), (mode s = 2) ∧ (fld s Fld.SYS_MODECTL_WATCHLNK = 1) ∧
      (s.modes.window = false) ∧ (s.lnk.windows = w :: rest) ∧ (linkEntry s (slotEntryNo s w.kind) = some e) ∧ (nextLeaf
      { s with lnk := { s.lnk with windows := rest } } (slotEntryNo s w.kind) e = (some rp, u))) :=
  ⟨⟨{}, by decide +kernel⟩,
   ⟨{}, by and_intros <;> decide +kernel⟩,
   ⟨{}, by and_intros <;> decide +kernel⟩,
   ⟨{ regs := [(17, 0x2140001#32), (32, 0x11001100#32)] }, by decide +kernel⟩,
   ⟨{ regs := [(16, 0x170a#32)], modes := { waking := some 92 } }, 92, by and_intros <;> decide +kernel⟩,
   ⟨{}, by decide +kernel⟩,
   ⟨{ regs := [(16, 0x60f002#32)], clk := { now := 3 }, modes := { wakeAt := some 2 } }, 2, by and_intros <;> decide +kernel⟩,
   ⟨{}, by and_intros <;> decide +kernel⟩,
   ⟨{}, by decide +kernel⟩,
   ⟨{ regs := [(21, 0xffff0016#32)] }, by decide +kernel⟩,
   ⟨{}, by decide +kernel⟩,
   ⟨{}, by and_intros <;> decide +kernel⟩,
   ⟨{ regs := [(16, 0x60f002#32)] }, by decide +kernel⟩,
   ⟨{}, by decide +kernel⟩,
   ⟨{ regs := [(21, 0xffff000e#32)] }, by decide +kernel⟩,
   ⟨{ clk := { biasRising := true } }, by decide +kernel⟩,
   ⟨{ regs := [(16, 0x10f10c#32)] }, by and_intros <;> decide +kernel⟩,
   ⟨{}, .firmware, by decide +kernel⟩,
   ⟨{ modes := { cmd := some .enterBackup } }, by and_intros <;> decide +kernel⟩,
   ⟨{ regs := [(16, 0xf70a#32)], modes := { window := true } }, by and_intros <;> decide +kernel⟩,
   ⟨{ regs := [(16, 0x50f50a#32), (17, 0x2140803#32), (4096, 0xcc800000#32), (6938, 0x4a000#32)], slate := { entries := [(1, [6#8, 0#8, 14#8, 2#8, 1#8, 0#8, 41#8, 0#8, 244#8, 11#8, 80#8, 2#8, 0#8, 255#8, 15#8, 173#8, 253#8, 126#8, 3#8, 2#8, 0#8, 0#8, 206#8, 2#8, 0#8, 194#8, 17#8, 2#8, 4#8, 1#8, 26#8, 32#8, 25#8, 246#8, 2#8, 57#8, 181#8, 193#8, 1#8, 192#8, 224#8, 0#8, 3#8, 1#8, 8#8, 3#8, 2#8, 79#8, 6#8, 0#8, 1#8, 10#8, 3#8, 1#8, 173#8, 4#8, 1#8, 142#8, 3#8, 1#8, 17#8, 1#8, 147#8, 241#8])] }, lnk := { windows := [{ kind := .rdv, src := 0, free := 0, len := 0 }] } },
    { kind := .rdv, src := 0, free := 0, len := 0 }, [], [6#8, 0#8, 14#8, 2#8, 1#8, 0#8, 41#8, 0#8, 244#8, 11#8, 80#8, 2#8,
    0#8, 255#8, 15#8, 173#8, 253#8, 126#8, 3#8, 2#8, 0#8, 0#8, 206#8, 2#8, 0#8, 194#8, 17#8, 2#8, 4#8, 1#8, 26#8, 32#8, 25#8,
    246#8, 2#8, 57#8, 181#8, 193#8, 1#8, 192#8, 224#8, 0#8, 3#8, 1#8, 8#8, 3#8, 2#8, 79#8, 6#8, 0#8, 1#8, 10#8, 3#8, 1#8,
    173#8, 4#8, 1#8, 142#8, 3#8, 1#8, 17#8, 1#8, 147#8, 241#8], 0,
    { regs := [(16, 0x50f50a#32), (17, 0x2140803#32), (4096, 0xcc800000#32), (6938, 0x4a000#32)], slate := { entries := [(1, [6#8, 0#8, 14#8, 2#8, 1#8, 0#8, 41#8, 0#8, 244#8, 11#8, 80#8, 2#8, 0#8, 255#8, 15#8, 173#8, 253#8, 126#8, 3#8, 2#8, 0#8, 0#8, 206#8, 2#8, 0#8, 194#8, 17#8, 2#8, 4#8, 1#8, 26#8, 32#8, 25#8, 246#8, 2#8, 57#8, 181#8, 193#8, 1#8, 192#8, 224#8, 0#8, 3#8, 1#8, 8#8, 3#8, 2#8, 79#8, 6#8, 0#8, 1#8, 10#8, 3#8, 1#8, 173#8, 4#8, 1#8, 142#8, 3#8, 1#8, 17#8, 1#8, 147#8, 241#8])] }, lnk := { leafPos := [(1, 0)] } },
    by and_intros <;> decide +kernel⟩⟩

theorem witness_RequestsAndGrantPoint :
    (∃ (s : State) (q : RequestSpec), (withCoex s q.air q.mask.toNat = 0 ∨ mayPost s q.who = false)) ∧
    (∃ (s : State) (q : RequestSpec), (withCoex s q.air q.mask.toNat ≠ 0) ∧ (mayPost s q.who = true) ∧ (q.cls ≠ .c0 ∨ q.freeIn
      = none)) ∧
    (∃ (s : State) (q : RequestSpec) (n : Nat), (withCoex s q.air q.mask.toNat ≠ 0) ∧ (mayPost s q.who = true) ∧ (q.cls = .c0)
      ∧ (q.freeIn = some n) ∧ (n < 10000)) ∧
    (∃ (s : State) (who : Consumer) (g : Grant) (mask : BitVec 11), (grantOf s who = some g) ∧ (mask ≠ 0) ∧ (topOf g.mask <
      lowOf mask.toNat) ∧ (∀ r ∈ s.sched.requests, r.who = who → r.topUp = false) ∧ (∀ x ∈ s.sched.grants, x.who = who →
      x.topUp = false)) ∧
    (∃ (s : State) (who : Consumer) (g : Grant) (mask : BitVec 11), (grantOf s who = some g) ∧ (lowOf mask.toNat ≤ topOf
      g.mask)) ∧
    (∃ (s : State) (who : Consumer) (r : Request), (requestOf s who = some r) ∧ (r.cls = .c2) ∧ (r.promoted = false)) ∧
    (∃ (s : State), (3 ≤ mode s)) ∧
    (∃ (s : State), (s.sched.point = false)) ∧
    (∃ (s : State) (r : Request), (s.sched.point = true) ∧ (s.sched.requests = [r]) ∧ (s.slate.entries = []) ∧ (postAll
      (grantsEnded (settle s)) = s) ∧ (s.sched.ops = []) ∧ (∀ g ∈ s.sched.grants, g.warned = false) ∧ (r.cls = .c1) ∧ (r.topUp
      = false) ∧ (r.promoted = false) ∧ (r.freeAt = none) ∧ (r.who = .gorse ∨ r.who = .tagHost ∨ r.who = .journal ∨ r.who =
      .slateLoader ∨ r.who = .memPort ∨ r.who = .external) ∧ (grantable s r 0 = true)) :=
  ⟨⟨{}, { who := .linkData, cls := .c0, mask := 1#11, kind := .linkSlot 105, freeIn := some 1, air := .none }, by decide +kernel⟩,
   ⟨{}, { who := .external, cls := .c3, mask := 0x7ff#11, kind := .calStep, freeIn := some 13543, air := .carrier 15#4 3 },
    by and_intros <;> decide +kernel⟩,
   ⟨{}, { who := .entry 0, cls := .c0, mask := 548#11, kind := .hfSession, freeIn := some 59, air := .calRx }, 59,
    by and_intros <;> decide +kernel⟩,
   ⟨{ sched := { grants := [{ who := .external, cls := .c2, mask := 0, kind := .tagPage }] } }, .external,
    { who := .external, cls := .c2, mask := 0, kind := .tagPage }, 18#11, by and_intros <;> decide +kernel⟩,
   ⟨{ sched := { grants := [{ who := .calib 1 0#8, cls := .c2, mask := 0, kind := .msp }] } }, (.calib 1 0#8),
    { who := .calib 1 0#8, cls := .c2, mask := 0, kind := .msp }, 0x7ff#11, by and_intros <;> decide +kernel⟩,
   ⟨{ sched := { requests := [{ who := .linkSlot 5, cls := .c2, mask := 0, kind := .trace 0 }] } }, (.linkSlot 5),
    { who := .linkSlot 5, cls := .c2, mask := 0, kind := .trace 0 }, by and_intros <;> decide +kernel⟩,
   ⟨{}, by decide +kernel⟩,
   ⟨{}, by decide +kernel⟩,
   ⟨{ regs := [(32, 0x11001100#32)], sched := { requests := [{ who := .tagHost, cls := .c1, mask := 0, kind := .tagPage }], point := true } },
    { who := .tagHost, cls := .c1, mask := 0, kind := .tagPage }, by and_intros <;> decide +kernel⟩⟩

theorem witness_GrantsEndAndCoexistence :
    (∃ (s : State) (who : Consumer) (g : _), (grantOf s who = some g) ∧ (who ≠ .hostHf)) ∧
    (∃ (s : State) (who : Consumer) (g : _) (u : _), (grantOf s who = some g) ∧ (inTrans s g true = true) ∧ (extensionEnd s g
      = some u)) ∧
    (∃ (s : State) (who : Consumer) (g : _) (said : _), (grantOf s who = some g) ∧ (inTrans s g said = false ∨ extensionEnd s
      g = none)) ∧
    (∃ (s : State) (who : Consumer), (grantOf s who = none)) ∧
    (∃ (s : State) (who : Consumer), (topUpGrant s who = none)) ∧
    (∃ (s : State) (who : Consumer), (topUpGrant s who ≠ none)) ∧
    (∃ (s : State) (who : Consumer) (r : _), (scheduled s who = some r) ∧ (grantable s r 0 = true)) ∧
    (∃ (s : State) (who : Consumer) (r : _), (scheduled s who = some r) ∧ (grantable s r 0 = true) ∧ (r.topUp = false) ∧
      (s.sched.ops = []) ∧ (s.modes.cmd = none) ∧ (meets r.mask rfMask = false) ∧ (r.mask.testBit 0 = false) ∧ (who = .gorse ∨
      who = .tagHost ∨ who = .journal ∨ who = .slateLoader ∨ who = .memPort ∨ who = .external)) ∧
    (∃ (s : State) (who : Consumer) (k : _) (r : _) (x : _), (who = .linkSlot k) ∧ (scheduled s who = some r) ∧ (grantable s r
      0 = true) ∧ (r.topUp = false) ∧ (s.sched.ops = []) ∧ (s.modes.cmd = none) ∧ (r.mask.testBit 0 = false) ∧ (planOf s k =
      some x) ∧ (x.kind = .brx)) ∧
    (∃ (s : State) (who : Consumer), (scheduled s who = none)) ∧
    (∃ (s : State) (who : Consumer) (r : _), (scheduled s who = some r) ∧ (grantable s r 0 = false) ∧ (r.mask.testBit 0 =
      true) ∧ (coexFree s true = false)) ∧
    (∃ (s : State) (who : Consumer) (r : _), (scheduled s who = some r) ∧ (grantable s r 0 = false) ∧ (r.mask.testBit 0 =
      false ∨ coexFree s true = true) ∧ (grantsOpen s who = true)) ∧
    (∃ (s : State), (cxRole s ≠ 1)) ∧
    (∃ (s : State), (cxRole s = 1)) ∧
    (∃ (s : State), (cxRole s = 1) ∧ (∃ r ∈ s.sched.requests, r.cls = .c0 ∧ r.freeAt ≠ none ∧ r.mask.testBit 0 = true ∧
      r.cxSince = none)) ∧
    (∃ (s : State), (cxRole s = 1) ∧ (fld s Fld.SYS_STAT_CXREQ = 1)) ∧
    (∃ (s : State) (who : _) (r : _), (requestOf s who = some r) ∧ (r.cls = .c1) ∧ (r.mask.testBit 0 = true) ∧ (r.cxSince ≠
      none) ∧ (s.pins.cxgnt = false)) ∧
    (∃ (s : State), (cxRole s ≠ 2 ∨ xreqArmed s = false)) ∧
    (∃ (s : State), (cxRole s = 2) ∧ (xreqArmed s = true) ∧ (mayPost s .external = true)) :=
  ⟨⟨{ sched := { grants := [{ who := .calib 1 0#8, cls := .c2, mask := 0, kind := .msp }] } }, (.calib 1 0#8),
    { who := .calib 1 0#8, cls := .c2, mask := 0, kind := .msp }, by and_intros <;> decide +kernel⟩,
   ⟨{ sched := { grants := [{ who := .entry 0, cls := .c2, mask := 0, kind := .uhfSlice }] } }, (.entry 0),
    { who := .entry 0, cls := .c2, mask := 0, kind := .uhfSlice }, 2500000, by and_intros <;> decide +kernel⟩,
   ⟨{ sched := { grants := [{ who := .calib 1 0#8, cls := .c2, mask := 0, kind := .msp }] } }, (.calib 1 0#8),
    { who := .calib 1 0#8, cls := .c2, mask := 0, kind := .msp }, true, by and_intros <;> decide +kernel⟩,
   ⟨{}, .external, by decide +kernel⟩,
   ⟨{}, .external, by decide +kernel⟩,
   ⟨{ sched := { grants := [{ who := .calib 1 0#8, cls := .c0, mask := 0, kind := .gorsePing, topUp := true }] } }, (.calib 1
    0#8), by decide +kernel⟩,
   ⟨{ regs := [(32, 0x11001100#32)], sched := { requests := [{ who := .linkSlot 0, cls := .c0, mask := 0, kind := .linkSlot 500, freeAt := some 5 }] } },
    (.linkSlot 0), { who := .linkSlot 0, cls := .c0, mask := 0, kind := .linkSlot 500, freeAt := some 5 },
    by and_intros <;> decide +kernel⟩,
   ⟨{ regs := [(32, 0x11001100#32)], sched := { requests := [{ who := .slateLoader, cls := .c0, mask := 0, kind := .external, freeAt := some 5 }] } },
    .slateLoader, { who := .slateLoader, cls := .c0, mask := 0, kind := .external, freeAt := some 5 },
    by and_intros <;> decide +kernel⟩,
   ⟨{ regs := [(32, 0x11001100#32)], sched := { requests := [{ who := .linkSlot 0, cls := .c0, mask := 0, kind := .linkSlot 500, freeAt := some 5 }] }, lnk := { plans := [(0, { kind := .brx, entry := 9, rp := 1, chan := 2, free := 19 })] } },
    (.linkSlot 0), 0, { who := .linkSlot 0, cls := .c0, mask := 0, kind := .linkSlot 500, freeAt := some 5 },
    { kind := .brx, entry := 9, rp := 1, chan := 2, free := 19 }, by and_intros <;> decide +kernel⟩,
   ⟨{}, .external, by decide +kernel⟩,
   ⟨{ regs := [(69, 0x74000a14#32)], sched := { requests := [{ who := .gorse, cls := .c0, mask := 3, kind := .trace 3, freeAt := some 5 }] } },
    .gorse, { who := .gorse, cls := .c0, mask := 3, kind := .trace 3, freeAt := some 5 }, by and_intros <;> decide +kernel⟩,
   ⟨{ regs := [(32, 0x11001100#32)], sched := { requests := [{ who := .linkSlot 1, cls := .c0, mask := 1, kind := .forcedGap, freeAt := some 5 }], grants := [{ who := .tagHost, cls := .c1, mask := 65535, kind := .tagPage }] } },
    (.linkSlot 1), { who := .linkSlot 1, cls := .c0, mask := 1, kind := .forcedGap, freeAt := some 5 },
    by and_intros <;> decide +kernel⟩,
   ⟨{}, by decide +kernel⟩,
   ⟨{ regs := [(69, 0x74640a14#32)] }, by decide +kernel⟩,
   ⟨{ regs := [(69, 0x74000a14#32)], sched := { requests := [{ who := .gorse, cls := .c0, mask := 3, kind := .trace 3, freeAt := some 5 }] } },
    by and_intros <;> decide +kernel⟩,
   ⟨{ regs := [(64, 263#32), (69, 0x74640a14#32)] }, by and_intros <;> decide +kernel⟩,
   ⟨{ sched := { requests := [{ who := .hostHf, cls := .c1, mask := 15, kind := .forcedGap, cxSince := some 3 }] } }, .hostHf,
    { who := .hostHf, cls := .c1, mask := 15, kind := .forcedGap, cxSince := some 3 }, by and_intros <;> decide +kernel⟩,
   ⟨{}, by decide +kernel⟩,
   ⟨{ regs := [(69, 0xb0070a14#32)] }, by and_intros <;> decide +kernel⟩⟩

theorem witness_LoadMovesShed :
    (∃ (s : State), (mode s < 3)) ∧
    (∃ (s : State), (3 ≤ mode s)) :=
  ⟨⟨{ regs := [(16, 0xf002#32)] }, by decide +kernel⟩,
   ⟨{}, by decide +kernel⟩⟩

theorem witness_PathsSettleOnCommand :
    (∃ (s : State) (p : RfPath), (pathMay s p = false)) ∧
    (∃ (s : State) (p : RfPath), (pathMay s p = true) ∧ (pathState s p = 0)) ∧
    (∃ (s : State) (p : RfPath) (chan : BitVec 14) (use_ : PathUse), (pathMay s p = true) ∧ (pathState s p ≠ 0) ∧ (pathState s
      p ≠ 6) ∧ (spacingBreaks (carrierOff s p) p chan.toNat use_ = false)) ∧
    (∃ (s : State) (p : RfPath) (chan : BitVec 14) (use_ : PathUse) (port : Fin 4) (index : BitVec 7), (pathMay s p = true) ∧
      (use_ ≠ .rxon) ∧ (powerOk s port index.toNat = true) ∧ (pathState s p = 1) ∧ (fld s (fCarr p) = 0) ∧ (spacingBreaks
      (setFld s (fPort p) port) p chan.toNat use_ = false)) ∧
    (∃ (s : State) (p : RfPath) (chan : BitVec 14), (pathMay s p = true) ∧ (pathState s p = 5) ∧ (spacingBreaks (carrierOff s
      p) p chan.toNat .read = false)) ∧
    (∃ (s : State) (p : RfPath), (pathMay s p = true) ∧ (pathState s p = 5)) :=
  ⟨⟨{}, .a, by decide +kernel⟩,
   ⟨{ sched := { grants := [{ who := .hostUhf, cls := .c1, mask := 6, kind := .trace 5 }] } }, .a,
    by and_intros <;> decide +kernel⟩,
   ⟨{ regs := [(2864, 0xf180004#32)], sched := { grants := [{ who := .hostUhf, cls := .c1, mask := 6, kind := .trace 5 }] } },
    .a, 0xbb8#14, .read, by and_intros <;> decide +kernel⟩,
   ⟨{ regs := [(2864, 0xf0200031#32), (Adr.RAD_PWR 0, 0x80000000)], sched := { grants := [{ who := .forcedGap 0, cls := .c3, mask := 7, kind := .linkSlot 17 }] } },
    .a, 0#14, .read, 0, 0, by and_intros <;> decide +kernel⟩,
   ⟨{ regs := [(2864, 0xff05001d#32)], sched := { grants := [{ who := .entry 0, cls := .c3, mask := 14, kind := .forcedGap }] } },
    .a, 0x808#14, by and_intros <;> decide +kernel⟩,
   ⟨{ regs := [(2864, 0xff05001d#32)], sched := { grants := [{ who := .entry 0, cls := .c3, mask := 14, kind := .forcedGap }] } },
    .a, by and_intros <;> decide +kernel⟩⟩

theorem witness_SynthesiserLocksAndCarrierRises :
    (∃ (s : State) (p : RfPath), (pathState s p = 2) ∧ ((pathSt s p).locked = false) ∧ ((pathSt s p).use_ = .rxon)) ∧
    (∃ (s : State) (p : RfPath), (pathState s p = 2) ∧ ((pathSt s p).locked = false) ∧ ((pathSt s p).use_ ≠ .rxon) ∧ (((pathSt
      s p).held.bind fun h => h.since) = none)) ∧
    (∃ (s : State) (p : RfPath) (n : _), (pathState s p = 2) ∧ ((pathSt s p).locked = false) ∧ ((pathSt s p).slot = some n)) ∧
    (∃ (s : State) (p : RfPath), (pathState s p = 2) ∧ ((pathSt s p).locked = false)) ∧
    (∃ (s : State) (p : RfPath), (pathState s p = 2) ∧ ((pathSt s p).locked = false) ∧ (((pathSt s p).held.bind fun h =>
      h.since) ≠ none)) ∧
    (∃ (s : State) (p : RfPath) (h : _), ((pathSt s p).held = some h) ∧ ((pathSt s p).locked = true) ∧ (s.radio.switching =
      []) ∧ (h.use_ = .read → profile s ≠ 0) ∧ (powerOk s h.port h.index = true)) :=
  ⟨⟨{ regs := [(2864, 0xf504003a#32)] }, .a, by and_intros <;> decide +kernel⟩,
   ⟨{ regs := [(2864, 0x1a0032#32)], radio := { a := { use_ := .read } } }, .a, by and_intros <;> decide +kernel⟩,
   ⟨{ regs := [(2864, 0x75050032#32)], radio := { a := { slot := some 1 } } }, .a, 1, by and_intros <;> decide +kernel⟩,
   ⟨{ regs := [(2864, 0x75050032#32)] }, .a, by and_intros <;> decide +kernel⟩,
   ⟨{ regs := [(2864, 0x75050032#32)], radio := { a := { held := some { since := some 3, use_ := .txon, port := 0, index := 0 } } } },
    .a, by and_intros <;> decide +kernel⟩,
   ⟨{ regs := [(Adr.RAD_PWR 0, 0x80000000)], radio := { a := { locked := true, held := some { since := none, use_ := .txon, port := 0, index := 0 } } } },
    .a, { since := none, use_ := .txon, port := 0, index := 0 }, by and_intros <;> decide +kernel⟩⟩

theorem witness_PowerAndReceiveLoopsAct :
    (∃ (s : State) (p : RfPath), (fld s (fCarr p) = 1) ∧ ((signedOf 8 (fld s (fTrim p))).natAbs < 31)) ∧
    (∃ (s : State) (p : RfPath) (reading : BitVec 10), (fld s (fCarr p) = 1) ∧ (signedOf 8 (fld s (fTrim p)) = 31) ∧
      (reading.toNat < detTarget s p)) ∧
    (∃ (s : State) (p : RfPath), (fld s (fCarr p) = 1) ∧ (pathState s p ≠ 0)) ∧
    (∃ (s : State) (k : Fin 2), (portCarries s (fld s (if k.val = 0 then Fld.RAD_PA_PA0PORT else Fld.RAD_PA_PA1PORT)) =
      false)) ∧
    (∃ (s : State) (p : RfPath) (sup : Byte), (pathState s p = 5) ∧ (fld s (fCarr p) = 1) ∧ (2 * fld s Fld.RAD_CANC_FAIL ≤
      sup.toNat)) ∧
    (∃ (s : State) (p : RfPath) (sup : Byte), (pathState s p = 5) ∧ (fld s (fCarr p) = 1) ∧ (sup.toNat < 2 * fld s
      Fld.RAD_CANC_FAIL)) ∧
    (∃ (s : State) (k : Fin 4), (k.val ∈ s.radio.switching)) ∧
    (∃ (s : State) (k : Fin 4), (s.radio.switching.contains k.val = true)) ∧
    (∃ (s : State) (k : Fin 4), (s.radio.switching.contains k.val = false) ∧ (chainIn s k 3 = true) ∧ (fld s
      (Fld.RAD_RXC_STAT_FROZEN k) = 0) ∧ (s.radio.dwellUntil[k.val]?.getD 0 ≤ s.clk.now)) ∧
    (∃ (s : State) (k : Fin 4), (chainIn s k 5 = true)) ∧
    (∃ (s : State) (p : RfPath), (pathState s p = 5) ∧ (fld s (fCarr p) = 1)) :=
  ⟨⟨{ regs := [(2864, 0x1d0003#32)] }, .b, by and_intros <;> decide +kernel⟩,
   ⟨{ regs := [(2443, 0xde400000#32), (2857, 0x31f0b#32), (2864, 0xf180004#32)] }, .b, 595#10, by and_intros <;> decide +kernel⟩,
   ⟨{ regs := [(2864, 0xff05001d#32)] }, .a, by and_intros <;> decide +kernel⟩,
   ⟨{}, 0, by decide +kernel⟩,
   ⟨{ regs := [(2864, 0x251d000d#32)] }, .a, 143#8, by and_intros <;> decide +kernel⟩,
   ⟨{ regs := [(2864, 0xff05001d#32)] }, .a, 18#8, by and_intros <;> decide +kernel⟩,
   ⟨{ radio := { switching := [0] } }, 0, by decide +kernel⟩,
   ⟨{ radio := { switching := [0] } }, 0, by decide +kernel⟩,
   ⟨{ regs := [(2848, 0xff0a#32), (2864, 0x1d0003#32)], sched := { grants := [{ who := .entry 0, cls := .c1, mask := 14, kind := .msp }] } },
    0, by and_intros <;> decide +kernel⟩,
   ⟨{ regs := [(2851, 0xff68#32), (2864, 0x1d0003#32)], sched := { grants := [{ who := .entry 0, cls := .c1, mask := 14, kind := .msp, shared := 65535 }] } },
    3, by decide +kernel⟩,
   ⟨{ regs := [(2864, 0xff05001d#32)] }, .a, by and_intros <;> decide +kernel⟩⟩

theorem witness_SlateCommandsReadEraseAndWrite :
    (∃ (s : State) (u : State) (lvl : Level) (i : Fin 1024), (permitted s lvl Adr.SLT_CMD true = true) ∧ (u = setFld s
      Fld.SLT_STAT_INDEX i) ∧ (fld s Fld.SLT_STAT_BUSY = 1)) ∧
    (∃ (s : State) (u : State) (lvl : Level) (i : Fin 1024), (permitted s lvl Adr.SLT_CMD true = true) ∧ (u = setFld s
      Fld.SLT_STAT_INDEX i) ∧ (fld s Fld.SLT_STAT_BUSY = 0) ∧ (((entryAt s i).getD (storedEntry s i)).length = 64) ∧ (cached s
      i = true)) ∧
    (∃ (s : State) (u : State) (lvl : Level) (i : Fin 1024), (permitted s lvl Adr.SLT_CMD true = true) ∧ (u = setFld s
      Fld.SLT_STAT_INDEX i) ∧ (fld s Fld.SLT_STAT_BUSY = 0) ∧ (((entryAt s i).getD (storedEntry s i)).length = 64) ∧ (cached s
      i = false) ∧ (turnNow u (mspRequest .slateLoader .c1) = true) ∧ (entryAt s i = none ∨ entryValid (storedEntry s i) =
      true)) ∧
    (∃ (s : State) (u : State) (lvl : Level) (i : Fin 1024), (permitted s lvl Adr.SLT_CMD true = true) ∧ (u = setFld s
      Fld.SLT_STAT_INDEX i) ∧ (fld s Fld.SLT_STAT_BUSY = 0) ∧ (((entryAt s i).getD (storedEntry s i)).length = 64) ∧ (cached s
      i = false) ∧ (turnNow u (mspRequest .slateLoader .c1) = false)) ∧
    (∃ (s : State) (u : State) (lvl : Level) (i : Fin 1024), (permitted s lvl Adr.SLT_CMD true = true) ∧ (u = setFld s
      Fld.SLT_STAT_INDEX i) ∧ (fld s Fld.SLT_STAT_BUSY = 0) ∧ (linkNames s i = true)) ∧
    (∃ (s : State) (u : State) (lvl : Level) (i : Fin 1024), (permitted s lvl Adr.SLT_CMD true = true) ∧ (u = setFld s
      Fld.SLT_STAT_INDEX i) ∧ (fld s Fld.SLT_STAT_BUSY = 0) ∧ (linkNames s i = false) ∧ (storedEntry s i = erasedEntry)) ∧
    (∃ (s : State) (u : State) (lvl : Level) (i : Fin 1024), (permitted s lvl Adr.SLT_CMD true = true) ∧ (u = setFld s
      Fld.SLT_STAT_INDEX i) ∧ (fld s Fld.SLT_STAT_BUSY = 0) ∧ (linkNames s i = false) ∧ (storedEntry s i ≠ erasedEntry)) ∧
    (∃ (s : State) (u : State) (lvl : Level) (i : Fin 1024), (permitted s lvl Adr.SLT_CMD true = true) ∧ (fld s
      Fld.SLT_STAT_BUSY = 0) ∧ (u = setFld s Fld.SLT_STAT_INDEX i) ∧ (1 ≤ eClass (stagedEntry u)) ∧ (slateReason u i
      (stagedEntry u) ≠ 0)) ∧
    (∃ (s : State) (u : State) (lvl : Level) (i : Fin 1024), (permitted s lvl Adr.SLT_CMD true = true) ∧ (fld s
      Fld.SLT_STAT_BUSY = 0) ∧ (u = setFld s Fld.SLT_STAT_INDEX i) ∧ (1 ≤ eClass (stagedEntry u)) ∧ (slateReason u i
      (stagedEntry u) = 0) ∧ (storedEntry s i ≠ stagedEntry u)) ∧
    (∃ (s : State) (u : State) (lvl : Level) (i : Fin 1024), (permitted s lvl Adr.SLT_CMD true = true) ∧ (fld s
      Fld.SLT_STAT_BUSY = 0) ∧ (u = setFld s Fld.SLT_STAT_INDEX i) ∧ (1 ≤ eClass (stagedEntry u)) ∧ (slateReason u i
      (stagedEntry u) = 0) ∧ (storedEntry s i = stagedEntry u)) ∧
    (∃ (s : State) (u : State) (lvl : Level) (i : Fin 1024), (permitted s lvl Adr.SLT_CMD true = true) ∧ (fld s
      Fld.SLT_STAT_BUSY = 0) ∧ (u = setFld s Fld.SLT_STAT_INDEX i) ∧ (eClass (stagedEntry u) = 0)) :=
  ⟨⟨{ regs := [(11025, 0xa0000001#32)] }, _, .user, 5, by decide +kernel, rfl, by decide +kernel⟩,
   ⟨{ slate := { cache := [{ index := 0, bytes := [] }] } }, _, .user, 0, by decide +kernel, rfl,
    by and_intros <;> decide +kernel⟩,
   ⟨{}, _, .user, 5, by decide +kernel, rfl, by and_intros <;> decide +kernel⟩,
   ⟨{ regs := [(16, 0xf005#32), (32, 0x11001100#32)] }, _, .user, 1023, by decide +kernel, rfl, by and_intros <;> decide +kernel⟩,
   ⟨{ regs := [(6933, 0x400000#32)] }, _, .firmware, 0, by decide +kernel, rfl, by and_intros <;> decide +kernel⟩,
   ⟨{}, _, .firmware, 3, by decide +kernel, rfl, by and_intros <;> decide +kernel⟩,
   ⟨{ mem := { nor := [(8388671, 43#8)] } }, _, .user, 0, by decide +kernel, rfl, by and_intros <;> decide +kernel⟩,
   ⟨{ regs := [(11008, 0xffffffff#32)] }, _, .firmware, 3, by decide +kernel, by decide +kernel, rfl,
    by and_intros <;> decide +kernel⟩,
   ⟨{ regs := [(4096, 0xb3500000#32), (6144, 0x323c6460#32), (11008, 4#32), (11009, 0x10001#32), (11011, 0xffff#32)] }, _,
    .supervisor, 2, by decide +kernel, by decide +kernel, rfl, by and_intros <;> decide +kernel⟩,
   ⟨{ regs := [(4096, 0xa3700000#32), (6144, 0x323c6460#32), (11008, 4#32), (11009, 0x10001#32), (11010, 1#32), (11011, 0xffff#32)], mem := { nor := [(8388608, 4#8), (8388609, 0#8), (8388610, 0#8), (8388611, 0#8), (8388612, 1#8), (8388613, 0#8), (8388614, 1#8), (8388615, 0#8), (8388616, 1#8), (8388617, 0#8), (8388618, 0#8), (8388619, 0#8), (8388622, 0#8), (8388623, 0#8), (8388624, 0#8), (8388625, 0#8), (8388626, 0#8), (8388627, 0#8), (8388628, 0#8), (8388629, 0#8), (8388630, 0#8), (8388631, 0#8), (8388632, 0#8), (8388633, 0#8), (8388634, 0#8), (8388635, 0#8), (8388636, 0#8), (8388637, 0#8), (8388638, 0#8), (8388639, 0#8), (8388640, 0#8), (8388641, 0#8), (8388642, 0#8), (8388643, 0#8), (8388644, 0#8), (8388645, 0#8), (8388646, 0#8), (8388647, 0#8), (8388648, 0#8), (8388649, 0#8), (8388650, 0#8), (8388651, 0#8), (8388652, 0#8), (8388653, 0#8), (8388654, 0#8), (8388655, 0#8), (8388656, 0#8), (8388657, 0#8), (8388658, 0#8), (8388659, 0#8), (8388660, 0#8), (8388661, 0#8), (8388662, 0#8), (8388663, 0#8), (8388664, 0#8), (8388665, 0#8), (8388666, 0#8), (8388667, 0#8), (8388668, 0#8), (8388669, 0#8), (8388670, 113#8), (8388671, 43#8)] } },
    _, .supervisor, 0, by decide +kernel, by decide +kernel, rfl, by and_intros <;> decide +kernel⟩,
   ⟨{}, _, .user, 1023, by decide +kernel, by decide +kernel, rfl, by decide +kernel⟩⟩

theorem witness_SlateReadbackEndsTheRewrite :
    (∃ (s : State) (w : SltWork) (r : Request), (StoresWf s) ∧ (s.slate.work = some w) ∧ (w.ready = false) ∧ ((sectorWith s
      w.index w.bytes).length = 4096) ∧ (r = mspRequest .slateLoader .c1) ∧ (turnNow s r = true)) ∧
    (∃ (s : State) (w : SltWork) (r : Request), (StoresWf s) ∧ (s.slate.work = some w) ∧ (w.ready = false) ∧ ((sectorWith s
      w.index w.bytes).length = 4096) ∧ (r = mspRequest .slateLoader .c1) ∧ (turnNow s r = true) ∧ (w.retry = false)) ∧
    (∃ (s : State) (w : SltWork) (r : Request), (StoresWf s) ∧ (s.slate.work = some w) ∧ (w.ready = false) ∧ ((sectorWith s
      w.index w.bytes).length = 4096) ∧ (r = mspRequest .slateLoader .c1) ∧ (turnNow s r = true) ∧ (w.retry = true)) ∧
    (∃ (s : State) (w : SltWork) (r : Request), (StoresWf s) ∧ (s.slate.work = some w) ∧ (w.ready = false) ∧ ((sectorWith s
      w.index w.bytes).length = 4096) ∧ (r = mspRequest .slateLoader .c1) ∧ (turnNow s r = false)) :=
  ⟨⟨{ slate := { work := some { job := .write, index := 0, bytes := List.replicate 64 255#8 } } },
    { job := .write, index := 0, bytes := List.replicate 64 255#8 }, _, ⟨by decide +kernel, by decide +kernel⟩,
    by decide +kernel, by decide +kernel, by decide +kernel, rfl, by decide +kernel⟩,
   ⟨{ slate := { work := some { job := .write, index := 0, bytes := List.replicate 64 255#8 } } },
    { job := .write, index := 0, bytes := List.replicate 64 255#8 }, _, ⟨by decide +kernel, by decide +kernel⟩,
    by decide +kernel, by decide +kernel, by decide +kernel, rfl, by and_intros <;> decide +kernel⟩,
   ⟨{ slate := { work := some { job := .erase, index := 0, bytes := List.replicate 64 255#8, retry := true } } },
    { job := .erase, index := 0, bytes := List.replicate 64 255#8, retry := true }, _, ⟨by decide +kernel, by decide +kernel⟩,
    by decide +kernel, by decide +kernel, by decide +kernel, rfl, by and_intros <;> decide +kernel⟩,
   ⟨{ regs := [(16, 0xf005#32), (32, 0x11001100#32)], slate := { work := some { job := .write, index := 0, bytes := List.replicate 64 255#8 } } },
    { job := .write, index := 0, bytes := List.replicate 64 255#8 }, _, ⟨by decide +kernel, by decide +kernel⟩,
    by decide +kernel, by decide +kernel, by decide +kernel, rfl, by decide +kernel⟩⟩

theorem witness_SlateEntriesComeIntoForce :
    (∃ (s : State) (w : _), (s.slate.work = some w) ∧ (w.ready = true) ∧ (entryHeld s w.index = false)) ∧
    (∃ (s : State) (w : _), (s.slate.work = some w) ∧ (entryHeld s w.index = true)) ∧
    (∃ (s : State) (i : Fin 1024) (e : Entry), (entryAt s i = some e) ∧ (entryActive e = true) ∧ (ePeriod e ≠ 0) ∧ (i.val ∉
      s.slate.pendingSet) ∧ (i.val ∉ grantedEntries s)) ∧
    (∃ (s : State) (i : Fin 1024) (e : Entry), (entryAt s i = some e) ∧ (turnNow s (mspRequest .slateLoader (fillClass s i)) =
      false)) ∧
    (∃ (s : State) (i : Fin 1024) (e : Entry), (entryAt s i = some e) ∧ (turnNow s (mspRequest .slateLoader (fillClass s i)) =
      true) ∧ (entryValid (storedEntry s i) = true) ∧ (∀ c ∈ s.slate.cache, c.index ≠ i.val) ∧ (s.slate.cache.length < 64)) ∧
    (∃ (s : State) (i : Fin 1024) (e : Entry) (v : _), (entryAt s i = some e) ∧ (turnNow s (mspRequest .slateLoader (fillClass
      s i)) = true) ∧ (entryValid (storedEntry s i) = true) ∧ (∀ c ∈ s.slate.cache, c.index ≠ i.val) ∧ (64 ≤
      s.slate.cache.length) ∧ (victimLine s i = some v)) ∧
    (∃ (s : State) (i : Fin 1024) (e : Entry), (entryAt s i = some e) ∧ (turnNow s (mspRequest .slateLoader (fillClass s i)) =
      true) ∧ (s.slate.work = none) ∧ (entryValid (storedEntry s i) = false)) :=
  ⟨⟨{ slate := { work := some { job := .write, index := 0, bytes := [], ready := true } } },
    { job := .write, index := 0, bytes := [], ready := true }, by and_intros <;> decide +kernel⟩,
   ⟨{ sched := { grants := [{ who := .entry 1, cls := .c1, mask := 0, kind := .external }] }, slate := { work := some { job := .write, index := 1, bytes := [] } } },
    { job := .write, index := 1, bytes := [] }, by and_intros <;> decide +kernel⟩,
   ⟨{ slate := { entries := [(3, [2#8, 0#8, 100#8, 1#8, 1#8, 0#8, 26#8, 0#8, 17#8, 18#8, 111#8, 19#8, 255#8, 1#8, 0#8, 1#8, 225#8, 11#8, 0#8, 3#8, 2#8, 2#8, 159#8, 84#8, 7#8, 2#8, 1#8, 9#8, 1#8, 244#8, 65#8, 17#8, 225#8, 251#8, 2#8, 0#8, 17#8, 2#8, 15#8, 3#8, 16#8, 1#8, 16#8, 19#8, 70#8, 19#8, 1#8, 19#8, 3#8, 22#8, 2#8, 3#8, 16#8, 9#8, 21#8, 19#8, 10#8, 2#8, 65#8, 5#8, 66#8, 14#8, 123#8, 84#8])] } },
    3, [2#8, 0#8, 100#8, 1#8, 1#8, 0#8, 26#8, 0#8, 17#8, 18#8, 111#8, 19#8, 255#8, 1#8, 0#8, 1#8, 225#8, 11#8, 0#8, 3#8, 2#8,
    2#8, 159#8, 84#8, 7#8, 2#8, 1#8, 9#8, 1#8, 244#8, 65#8, 17#8, 225#8, 251#8, 2#8, 0#8, 17#8, 2#8, 15#8, 3#8, 16#8, 1#8,
    16#8, 19#8, 70#8, 19#8, 1#8, 19#8, 3#8, 22#8, 2#8, 3#8, 16#8, 9#8, 21#8, 19#8, 10#8, 2#8, 65#8, 5#8, 66#8, 14#8, 123#8,
    84#8], by and_intros <;> decide +kernel⟩,
   ⟨{ regs := [(16, 0xf005#32), (32, 0x11001100#32)], slate := { entries := [(0, [5#8, 1#8, 1#8, 2#8, 0#8, 0#8, 173#8, 0#8, 17#8, 3#8, 0#8, 3#8, 0#8, 0#8, 2#8, 4#8, 184#8, 1#8, 0#8, 0#8, 1#8, 7#8, 0#8, 2#8, 0#8, 1#8, 75#8, 3#8, 11#8, 0#8, 1#8, 1#8, 230#8, 88#8, 2#8, 219#8, 145#8, 2#8, 19#8, 4#8, 223#8, 5#8, 3#8, 3#8, 1#8, 13#8, 42#8, 1#8, 3#8, 6#8, 0#8, 11#8, 1#8, 249#8, 2#8, 2#8, 16#8, 0#8, 14#8, 2#8, 0#8, 32#8, 240#8, 96#8])] } },
    0, [5#8, 1#8, 1#8, 2#8, 0#8, 0#8, 173#8, 0#8, 17#8, 3#8, 0#8, 3#8, 0#8, 0#8, 2#8, 4#8, 184#8, 1#8, 0#8, 0#8, 1#8, 7#8,
    0#8, 2#8, 0#8, 1#8, 75#8, 3#8, 11#8, 0#8, 1#8, 1#8, 230#8, 88#8, 2#8, 219#8, 145#8, 2#8, 19#8, 4#8, 223#8, 5#8, 3#8, 3#8,
    1#8, 13#8, 42#8, 1#8, 3#8, 6#8, 0#8, 11#8, 1#8, 249#8, 2#8, 2#8, 16#8, 0#8, 14#8, 2#8, 0#8, 32#8, 240#8, 96#8],
    by and_intros <;> decide +kernel⟩,
   ⟨{ slate := { entries := [(1, [2#8, 4#8, 0#8, 3#8, 5#8, 0#8, 54#8, 1#8, 175#8, 2#8, 10#8, 217#8, 255#8, 0#8, 28#8, 0#8, 1#8, 8#8, 12#8, 175#8, 73#8, 4#8, 6#8, 113#8, 3#8, 7#8, 3#8, 0#8, 69#8, 233#8, 0#8, 10#8, 0#8, 229#8, 91#8, 41#8, 11#8, 2#8, 201#8, 98#8, 5#8, 127#8, 3#8, 4#8, 19#8, 3#8, 17#8, 1#8, 183#8, 18#8, 5#8, 2#8, 241#8, 4#8, 9#8, 9#8, 2#8, 4#8, 0#8, 1#8, 13#8, 0#8, 43#8, 45#8])] }, mem := { nor := [(8388672, 2#8), (8388673, 4#8), (8388674, 0#8), (8388675, 3#8), (8388676, 5#8), (8388677, 0#8), (8388678, 54#8), (8388679, 1#8), (8388680, 175#8), (8388681, 2#8), (8388682, 10#8), (8388683, 217#8), (8388685, 0#8), (8388686, 28#8), (8388687, 0#8), (8388688, 1#8), (8388689, 8#8), (8388690, 12#8), (8388691, 175#8), (8388692, 73#8), (8388693, 4#8), (8388694, 6#8), (8388695, 113#8), (8388696, 3#8), (8388697, 7#8), (8388698, 3#8), (8388699, 0#8), (8388700, 69#8), (8388701, 233#8), (8388702, 0#8), (8388703, 10#8), (8388704, 0#8), (8388705, 229#8), (8388706, 91#8), (8388707, 41#8), (8388708, 11#8), (8388709, 2#8), (8388710, 201#8), (8388711, 98#8), (8388712, 5#8), (8388713, 127#8), (8388714, 3#8), (8388715, 4#8), (8388716, 19#8), (8388717, 3#8), (8388718, 17#8), (8388719, 1#8), (8388720, 183#8), (8388721, 18#8), (8388722, 5#8), (8388723, 2#8), (8388724, 241#8), (8388725, 4#8), (8388726, 9#8), (8388727, 9#8), (8388728, 2#8), (8388729, 4#8), (8388730, 0#8), (8388731, 1#8), (8388732, 13#8), (8388733, 0#8), (8388734, 43#8), (8388735, 45#8)] } },
    1, [2#8, 4#8, 0#8, 3#8, 5#8, 0#8, 54#8, 1#8, 175#8, 2#8, 10#8, 217#8, 255#8, 0#8, 28#8, 0#8, 1#8, 8#8, 12#8, 175#8, 73#8,
    4#8, 6#8, 113#8, 3#8, 7#8, 3#8, 0#8, 69#8, 233#8, 0#8, 10#8, 0#8, 229#8, 91#8, 41#8, 11#8, 2#8, 201#8, 98#8, 5#8, 127#8,
    3#8, 4#8, 19#8, 3#8, 17#8, 1#8, 183#8, 18#8, 5#8, 2#8, 241#8, 4#8, 9#8, 9#8, 2#8, 4#8, 0#8, 1#8, 13#8, 0#8, 43#8, 45#8],
    by and_intros <;> decide +kernel⟩,
   ⟨{ slate := { entries := [(1, [1#8, 1#8, 18#8, 16#8, 1#8, 0#8, 69#8, 0#8, 5#8, 0#8, 0#8, 0#8, 255#8, 255#8, 1#8, 66#8, 148#8, 2#8, 2#8, 48#8, 12#8, 4#8, 0#8, 3#8, 232#8, 6#8, 4#8, 4#8, 14#8, 0#8, 1#8, 54#8, 0#8, 9#8, 17#8, 0#8, 11#8, 9#8, 101#8, 192#8, 5#8, 3#8, 0#8, 38#8, 1#8, 0#8, 82#8, 3#8, 174#8, 5#8, 1#8, 3#8, 88#8, 52#8, 167#8, 8#8, 15#8, 54#8, 10#8, 11#8, 2#8, 8#8, 56#8, 225#8])], cache := List.replicate 64 { index := 0, bytes := [] } }, mem := { nor := [(8388672, 1#8), (8388673, 1#8), (8388674, 18#8), (8388675, 16#8), (8388676, 1#8), (8388677, 0#8), (8388678, 69#8), (8388679, 0#8), (8388680, 5#8), (8388681, 0#8), (8388682, 0#8), (8388683, 0#8), (8388686, 1#8), (8388687, 66#8), (8388688, 148#8), (8388689, 2#8), (8388690, 2#8), (8388691, 48#8), (8388692, 12#8), (8388693, 4#8), (8388694, 0#8), (8388695, 3#8), (8388696, 232#8), (8388697, 6#8), (8388698, 4#8), (8388699, 4#8), (8388700, 14#8), (8388701, 0#8), (8388702, 1#8), (8388703, 54#8), (8388704, 0#8), (8388705, 9#8), (8388706, 17#8), (8388707, 0#8), (8388708, 11#8), (8388709, 9#8), (8388710, 101#8), (8388711, 192#8), (8388712, 5#8), (8388713, 3#8), (8388714, 0#8), (8388715, 38#8), (8388716, 1#8), (8388717, 0#8), (8388718, 82#8), (8388719, 3#8), (8388720, 174#8), (8388721, 5#8), (8388722, 1#8), (8388723, 3#8), (8388724, 88#8), (8388725, 52#8), (8388726, 167#8), (8388727, 8#8), (8388728, 15#8), (8388729, 54#8), (8388730, 10#8), (8388731, 11#8), (8388732, 2#8), (8388733, 8#8), (8388734, 56#8), (8388735, 225#8)] } },
    1, [1#8, 1#8, 18#8, 16#8, 1#8, 0#8, 69#8, 0#8, 5#8, 0#8, 0#8, 0#8, 255#8, 255#8, 1#8, 66#8, 148#8, 2#8, 2#8, 48#8, 12#8,
    4#8, 0#8, 3#8, 232#8, 6#8, 4#8, 4#8, 14#8, 0#8, 1#8, 54#8, 0#8, 9#8, 17#8, 0#8, 11#8, 9#8, 101#8, 192#8, 5#8, 3#8, 0#8,
    38#8, 1#8, 0#8, 82#8, 3#8, 174#8, 5#8, 1#8, 3#8, 88#8, 52#8, 167#8, 8#8, 15#8, 54#8, 10#8, 11#8, 2#8, 8#8, 56#8, 225#8],
    { index := 0, bytes := [] }, by and_intros <;> decide +kernel⟩,
   ⟨{ slate := { entries := [(3, [2#8, 0#8, 100#8, 1#8, 1#8, 0#8, 26#8, 0#8, 17#8, 18#8, 111#8, 19#8, 255#8, 1#8, 0#8, 1#8, 225#8, 11#8, 0#8, 3#8, 2#8, 2#8, 159#8, 84#8, 7#8, 2#8, 1#8, 9#8, 1#8, 244#8, 65#8, 17#8, 225#8, 251#8, 2#8, 0#8, 17#8, 2#8, 15#8, 3#8, 16#8, 1#8, 16#8, 19#8, 70#8, 19#8, 1#8, 19#8, 3#8, 22#8, 2#8, 3#8, 16#8, 9#8, 21#8, 19#8, 10#8, 2#8, 65#8, 5#8, 66#8, 14#8, 123#8, 84#8])] } },
    3, [2#8, 0#8, 100#8, 1#8, 1#8, 0#8, 26#8, 0#8, 17#8, 18#8, 111#8, 19#8, 255#8, 1#8, 0#8, 1#8, 225#8, 11#8, 0#8, 3#8, 2#8,
    2#8, 159#8, 84#8, 7#8, 2#8, 1#8, 9#8, 1#8, 244#8, 65#8, 17#8, 225#8, 251#8, 2#8, 0#8, 17#8, 2#8, 15#8, 3#8, 16#8, 1#8,
    16#8, 19#8, 70#8, 19#8, 1#8, 19#8, 3#8, 22#8, 2#8, 3#8, 16#8, 9#8, 21#8, 19#8, 10#8, 2#8, 65#8, 5#8, 66#8, 14#8, 123#8,
    84#8], by and_intros <;> decide +kernel⟩⟩

theorem witness_NorCommandsReadProgramErase :
    (∃ (s : State) (lvl : Level) (r : Request), (permitted s lvl Adr.MSP_HCMD true = true) ∧ (StoresWf s) ∧ (r = mspRequest
      .memPort .c1) ∧ (fld s Fld.MSP_HSTAT_BUSY = 1)) ∧
    (∃ (s : State) (lvl : Level) (addr : BitVec 24) (r : Request), (permitted s lvl Adr.MSP_HCMD true = true) ∧ (StoresWf s) ∧
      (r = mspRequest .memPort .c1) ∧ (fld s Fld.MSP_HSTAT_BUSY = 0) ∧ (mspReadRefused s addr.toNat = true)) ∧
    (∃ (s : State) (lvl : Level) (addr : BitVec 24) (r : Request), (permitted s lvl Adr.MSP_HCMD true = true) ∧ (StoresWf s) ∧
      (r = mspRequest .memPort .c1) ∧ (fld s Fld.MSP_HSTAT_BUSY = 0) ∧ (mspReadRefused s addr.toNat = false) ∧ (turnNow s r =
      true)) ∧
    (∃ (s : State) (lvl : Level) (addr : BitVec 24) (r : Request), (permitted s lvl Adr.MSP_HCMD true = true) ∧ (StoresWf s) ∧
      (r = mspRequest .memPort .c1) ∧ (fld s Fld.MSP_HSTAT_BUSY = 0) ∧ (mspProgramRefused s addr.toNat = true)) ∧
    (∃ (s : State) (lvl : Level) (addr : BitVec 24) (r : Request), (permitted s lvl Adr.MSP_HCMD true = true) ∧ (StoresWf s) ∧
      (r = mspRequest .memPort .c1) ∧ (fld s Fld.MSP_HSTAT_BUSY = 0) ∧ (mspProgramRefused s addr.toNat = false) ∧ (turnNow s r
      = true)) ∧
    (∃ (s : State) (lvl : Level) (addr : BitVec 24) (r : Request), (permitted s lvl Adr.MSP_HCMD true = true) ∧ (StoresWf s) ∧
      (r = mspRequest .memPort .c1) ∧ (fld s Fld.MSP_HSTAT_BUSY = 0) ∧ (mspEraseRefused s addr.toNat = true)) ∧
    (∃ (s : State) (lvl : Level) (addr : BitVec 24) (r : Request), (permitted s lvl Adr.MSP_HCMD true = true) ∧ (StoresWf s) ∧
      (r = mspRequest .memPort .c1) ∧ (fld s Fld.MSP_HSTAT_BUSY = 0) ∧ (mspEraseRefused s addr.toNat = false) ∧ (turnNow s r =
      true)) ∧
    (∃ (s : State) (lvl : Level) (addr : BitVec 24) (r : Request), (permitted s lvl Adr.MSP_HCMD true = true) ∧ (StoresWf s) ∧
      (r = mspRequest .memPort .c1) ∧ (fld s Fld.MSP_HSTAT_BUSY = 0) ∧ (turnNow s r = false) ∧ (mspReadRefused s addr.toNat =
      false)) ∧
    (∃ (s : State) (lvl : Level) (addr : BitVec 24) (r : Request), (permitted s lvl Adr.MSP_HCMD true = true) ∧ (StoresWf s) ∧
      (r = mspRequest .memPort .c1) ∧ (fld s Fld.MSP_HSTAT_BUSY = 0) ∧ (turnNow s r = false) ∧ (mspProgramRefused s addr.toNat
      = false)) ∧
    (∃ (s : State) (lvl : Level) (addr : BitVec 24) (r : Request), (permitted s lvl Adr.MSP_HCMD true = true) ∧ (StoresWf s) ∧
      (r = mspRequest .memPort .c1) ∧ (fld s Fld.MSP_HSTAT_BUSY = 0) ∧ (turnNow s r = false) ∧ (mspEraseRefused s addr.toNat =
      false)) :=
  ⟨⟨{ regs := [(10755, 0xf0000000#32)] }, .firmware, _, by decide +kernel, ⟨by decide +kernel, by decide +kernel⟩, rfl,
    by decide +kernel⟩,
   ⟨{}, .user, 0x800000#24, _, by decide +kernel, ⟨by decide +kernel, by decide +kernel⟩, rfl, by and_intros <;> decide +kernel⟩,
   ⟨{}, .user, 0x1000#24, _, by decide +kernel, ⟨by decide +kernel, by decide +kernel⟩, rfl, by and_intros <;> decide +kernel⟩,
   ⟨{}, .user, 0x800000#24, _, by decide +kernel, ⟨by decide +kernel, by decide +kernel⟩, rfl, by and_intros <;> decide +kernel⟩,
   ⟨{}, .user, 0x1000#24, _, by decide +kernel, ⟨by decide +kernel, by decide +kernel⟩, rfl, by and_intros <;> decide +kernel⟩,
   ⟨{}, .user, 0x800000#24, _, by decide +kernel, ⟨by decide +kernel, by decide +kernel⟩, rfl, by and_intros <;> decide +kernel⟩,
   ⟨{}, .user, 0x1000#24, _, by decide +kernel, ⟨by decide +kernel, by decide +kernel⟩, rfl, by and_intros <;> decide +kernel⟩,
   ⟨{ regs := [(32, 0x13001100#32)], sched := { requests := [{ who := .external, cls := .c1, mask := 2047, kind := .msp }] } },
    .user, 0#24, _, by decide +kernel, ⟨by decide +kernel, by decide +kernel⟩, rfl, by and_intros <;> decide +kernel⟩,
   ⟨{ regs := [(32, 0x13001100#32)], sched := { requests := [{ who := .external, cls := .c1, mask := 2047, kind := .msp }] } },
    .user, 0#24, _, by decide +kernel, ⟨by decide +kernel, by decide +kernel⟩, rfl, by and_intros <;> decide +kernel⟩,
   ⟨{ regs := [(32, 0x13001100#32)], sched := { requests := [{ who := .external, cls := .c1, mask := 2047, kind := .msp }] } },
    .user, 0#24, _, by decide +kernel, ⟨by decide +kernel, by decide +kernel⟩, rfl, by and_intros <;> decide +kernel⟩⟩

theorem witness_PacketsEnterTheChannels :
    (∃ (s : State) (n : Fin 9) (ws : List Word), (ws ≠ []) ∧ (ws.length ≤ 256) ∧ (n = 1 → fld s Fld.LNK_DATA_AUTOTRF = 0) ∧ (n
      = 7 → fld s Fld.LNK_DATA_AUTOFLT = 0) ∧ (ws.length + (if (chan s n).gap = 0 then 0 else 1) ≤ chanFree s.clk.now (chan s
      n))) ∧
    (∃ (s : State) (n : Fin 9) (ws : List Word), (ws ≠ []) ∧ (ws.length ≤ 256) ∧ (n = 1 → fld s Fld.LNK_DATA_AUTOTRF = 0) ∧ (n
      = 7 → fld s Fld.LNK_DATA_AUTOFLT = 0) ∧ (chanFree s.clk.now (chan s n) < ws.length + (if (chan s n).gap = 0 then 0 else
      1))) ∧
    (∃ (ws : List Word), (256 < ws.length)) ∧
    (∃ (s : State) (n : Fin 9), (handoverDue s n = true)) ∧
    (∃ (s : State), (∀ g, s.host.g3 = some g → g.waiting = false)) ∧
    (∃ (s : State) (n : Fin 9) (x : _), (handoverDue s n = true) ∧ ((chan s n).relAt = some x)) ∧
    (∃ (s : State) (n : Fin 9), (handoverDue s n = false)) ∧
    (∃ (s : State) (h : Fin 8), ((chan s h).rd ≠ [] ∨ (chan s h).wr ≠ []) ∧ (clk100 s = true)) ∧
    (∃ (s : State) (h : Fin 8), (((chan s h).rd = [] ∧ (chan s h).wr = []) ∨ clk100 s = false)) :=
  ⟨⟨{}, 6, [0#32, 1#32, 2#32], by and_intros <;> decide +kernel⟩,
   ⟨{ fifo := ((Vector.replicate 9 {}).set 2 { wr := [{ kind := 2, data := 0#32 }, { kind := 2, data := 1#32 }, { kind := 2, data := 2#32 }, { kind := 2, data := 3#32 }, { kind := 2, data := 4#32 }, { kind := 2, data := 5#32 }, { kind := 2, data := 6#32 }, { kind := 2, data := 7#32 }, { kind := 2, data := 8#32 }, { kind := 2, data := 9#32 }, { kind := 2, data := 10#32 }, { kind := 2, data := 11#32 }, { kind := 2, data := 12#32 }, { kind := 2, data := 13#32 }, { kind := 2, data := 14#32 }, { kind := 2, data := 15#32 }, { kind := 2, data := 16#32 }, { kind := 2, data := 17#32 }, { kind := 2, data := 18#32 }, { kind := 2, data := 19#32 }, { kind := 2, data := 20#32 }, { kind := 2, data := 21#32 }, { kind := 2, data := 22#32 }, { kind := 2, data := 23#32 }, { kind := 2, data := 24#32 }, { kind := 2, data := 25#32 }, { kind := 2, data := 26#32 }, { kind := 2, data := 27#32 }, { kind := 2, data := 28#32 }, { kind := 2, data := 29#32 }, { kind := 2, data := 30#32 }, { kind := 2, data := 31#32 }, { kind := 2, data := 32#32 }, { kind := 2, data := 33#32 }, { kind := 2, data := 34#32 }, { kind := 2, data := 35#32 }, { kind := 2, data := 36#32 }, { kind := 2, data := 37#32 }, { kind := 2, data := 38#32 }, { kind := 2, data := 39#32 }, { kind := 2, data := 40#32 }, { kind := 2, data := 41#32 }, { kind := 2, data := 42#32 }, { kind := 2, data := 43#32 }, { kind := 2, data := 44#32 }, { kind := 2, data := 45#32 }, { kind := 2, data := 46#32 }, { kind := 2, data := 47#32 }, { kind := 2, data := 48#32 }, { kind := 2, data := 49#32 }, { kind := 2, data := 50#32 }, { kind := 2, data := 51#32 }, { kind := 2, data := 52#32 }, { kind := 2, data := 53#32 }, { kind := 2, data := 54#32 }, { kind := 2, data := 55#32 }, { kind := 2, data := 56#32 }, { kind := 2, data := 57#32 }, { kind := 2, data := 58#32 }, { kind := 2, data := 59#32 }, { kind := 2, data := 60#32 }, { kind := 2, data := 61#32 }, { kind := 2, data := 62#32 }, { kind := 2, data := 63#32 }, { kind := 2, data := 64#32 }, { kind := 2, data := 65#32 }, { kind := 2, data := 66#32 }, { kind := 2, data := 67#32 }, { kind := 2, data := 68#32 }, { kind := 2, data := 69#32 }, { kind := 2, data := 70#32 }, { kind := 2, data := 71#32 }, { kind := 2, data := 72#32 }, { kind := 2, data := 73#32 }, { kind := 2, data := 74#32 }, { kind := 2, data := 75#32 }, { kind := 2, data := 76#32 }, { kind := 2, data := 77#32 }, { kind := 2, data := 78#32 }, { kind := 2, data := 79#32 }, { kind := 2, data := 80#32 }, { kind := 2, data := 81#32 }, { kind := 2, data := 82#32 }, { kind := 2, data := 83#32 }, { kind := 2, data := 84#32 }, { kind := 2, data := 85#32 }, { kind := 2, data := 86#32 }, { kind := 2, data := 87#32 }, { kind := 2, data := 88#32 }, { kind := 2, data := 89#32 }, { kind := 2, data := 90#32 }, { kind := 2, data := 91#32 }, { kind := 2, data := 92#32 }, { kind := 2, data := 93#32 }, { kind := 2, data := 94#32 }, { kind := 2, data := 95#32 }, { kind := 2, data := 96#32 }, { kind := 2, data := 97#32 }, { kind := 2, data := 98#32 }, { kind := 2, data := 99#32 }, { kind := 2, data := 100#32 }, { kind := 2, data := 101#32 }, { kind := 2, data := 102#32 }, { kind := 2, data := 103#32 }, { kind := 2, data := 104#32 }, { kind := 2, data := 105#32 }, { kind := 2, data := 106#32 }, { kind := 2, data := 107#32 }, { kind := 2, data := 108#32 }, { kind := 2, data := 109#32 }, { kind := 2, data := 110#32 }, { kind := 2, data := 111#32 }, { kind := 2, data := 112#32 }, { kind := 2, data := 113#32 }, { kind := 2, data := 114#32 }, { kind := 2, data := 115#32 }, { kind := 2, data := 116#32 }, { kind := 2, data := 117#32 }, { kind := 2, data := 118#32 }, { kind := 2, data := 119#32 }, { kind := 2, data := 120#32 }, { kind := 2, data := 121#32 }, { kind := 2, data := 122#32 }, { kind := 2, data := 123#32 }, { kind := 2, data := 124#32 }, { kind := 2, data := 125#32 }, { kind := 2, data := 126#32 }, { kind := 2, data := 127#32 }, { kind := 2, data := 128#32 }, { kind := 2, data := 129#32 }, { kind := 2, data := 130#32 }, { kind := 2, data := 131#32 }, { kind := 2, data := 132#32 }, { kind := 2, data := 133#32 }, { kind := 2, data := 134#32 }, { kind := 2, data := 135#32 }, { kind := 2, data := 136#32 }, { kind := 2, data := 137#32 }, { kind := 2, data := 138#32 }, { kind := 2, data := 139#32 }, { kind := 2, data := 140#32 }, { kind := 2, data := 141#32 }, { kind := 2, data := 142#32 }, { kind := 2, data := 143#32 }, { kind := 2, data := 144#32 }, { kind := 2, data := 145#32 }, { kind := 2, data := 146#32 }, { kind := 2, data := 147#32 }, { kind := 2, data := 148#32 }, { kind := 2, data := 149#32 }, { kind := 2, data := 150#32 }, { kind := 2, data := 151#32 }, { kind := 2, data := 152#32 }, { kind := 2, data := 153#32 }, { kind := 2, data := 154#32 }, { kind := 2, data := 155#32 }, { kind := 2, data := 156#32 }, { kind := 2, data := 157#32 }, { kind := 2, data := 158#32 }, { kind := 2, data := 159#32 }, { kind := 2, data := 160#32 }, { kind := 2, data := 161#32 }, { kind := 2, data := 162#32 }, { kind := 2, data := 163#32 }, { kind := 2, data := 164#32 }, { kind := 2, data := 165#32 }, { kind := 2, data := 166#32 }, { kind := 2, data := 167#32 }, { kind := 2, data := 168#32 }, { kind := 2, data := 169#32 }, { kind := 2, data := 170#32 }, { kind := 2, data := 171#32 }, { kind := 2, data := 172#32 }, { kind := 2, data := 173#32 }, { kind := 2, data := 174#32 }, { kind := 2, data := 175#32 }, { kind := 2, data := 176#32 }, { kind := 2, data := 177#32 }, { kind := 2, data := 178#32 }, { kind := 2, data := 179#32 }, { kind := 2, data := 180#32 }, { kind := 2, data := 181#32 }, { kind := 2, data := 182#32 }, { kind := 2, data := 183#32 }, { kind := 2, data := 184#32 }, { kind := 2, data := 185#32 }, { kind := 2, data := 186#32 }, { kind := 2, data := 187#32 }, { kind := 2, data := 188#32 }, { kind := 2, data := 189#32 }, { kind := 2, data := 190#32 }, { kind := 2, data := 191#32 }, { kind := 2, data := 192#32 }, { kind := 2, data := 193#32 }, { kind := 2, data := 194#32 }, { kind := 2, data := 195#32 }, { kind := 2, data := 196#32 }, { kind := 2, data := 197#32 }, { kind := 2, data := 198#32 }, { kind := 2, data := 199#32 }, { kind := 2, data := 200#32 }, { kind := 2, data := 201#32 }, { kind := 2, data := 202#32 }, { kind := 2, data := 203#32 }, { kind := 2, data := 204#32 }, { kind := 2, data := 205#32 }, { kind := 2, data := 206#32 }, { kind := 2, data := 207#32 }, { kind := 2, data := 208#32 }, { kind := 2, data := 209#32 }, { kind := 2, data := 210#32 }, { kind := 2, data := 211#32 }, { kind := 2, data := 212#32 }, { kind := 2, data := 213#32 }, { kind := 2, data := 214#32 }, { kind := 2, data := 215#32 }, { kind := 2, data := 216#32 }, { kind := 2, data := 217#32 }, { kind := 2, data := 218#32 }, { kind := 2, data := 219#32 }, { kind := 2, data := 220#32 }, { kind := 2, data := 221#32 }, { kind := 2, data := 222#32 }, { kind := 2, data := 223#32 }, { kind := 2, data := 224#32 }, { kind := 2, data := 225#32 }, { kind := 2, data := 226#32 }, { kind := 2, data := 227#32 }, { kind := 2, data := 228#32 }, { kind := 2, data := 229#32 }, { kind := 2, data := 230#32 }, { kind := 2, data := 231#32 }, { kind := 2, data := 232#32 }, { kind := 2, data := 233#32 }, { kind := 2, data := 234#32 }, { kind := 2, data := 235#32 }, { kind := 2, data := 236#32 }, { kind := 2, data := 237#32 }, { kind := 2, data := 238#32 }, { kind := 2, data := 239#32 }, { kind := 2, data := 240#32 }, { kind := 2, data := 241#32 }, { kind := 2, data := 242#32 }, { kind := 2, data := 243#32 }, { kind := 2, data := 244#32 }, { kind := 2, data := 245#32 }, { kind := 2, data := 246#32 }, { kind := 2, data := 247#32 }, { kind := 2, data := 248#32 }, { kind := 2, data := 249#32 }, { kind := 2, data := 250#32 }, { kind := 2, data := 251#32 }, { kind := 2, data := 252#32 }, { kind := 2, data := 253#32 }, { kind := 2, data := 254#32 }, { kind := 2, data := 255#32 }], relAt := some 0 }) },
    2, [0#32, 1#32, 2#32, 3#32, 4#32, 5#32, 6#32, 7#32, 8#32, 9#32, 10#32, 11#32, 12#32, 13#32, 14#32, 15#32, 16#32, 17#32,
    18#32, 19#32, 20#32, 21#32, 22#32, 23#32, 24#32, 25#32, 26#32, 27#32, 28#32, 29#32, 30#32, 31#32, 32#32, 33#32, 34#32,
    35#32, 36#32, 37#32, 38#32, 39#32, 40#32, 41#32, 42#32, 43#32, 44#32, 45#32, 46#32, 47#32, 48#32, 49#32, 50#32, 51#32,
    52#32, 53#32, 54#32, 55#32, 56#32, 57#32, 58#32, 59#32, 60#32, 61#32, 62#32, 63#32, 64#32, 65#32, 66#32, 67#32, 68#32,
    69#32, 70#32, 71#32, 72#32, 73#32, 74#32, 75#32, 76#32, 77#32, 78#32, 79#32, 80#32, 81#32, 82#32, 83#32, 84#32, 85#32,
    86#32, 87#32, 88#32, 89#32, 90#32, 91#32, 92#32, 93#32, 94#32, 95#32, 96#32, 97#32, 98#32, 99#32, 100#32, 101#32, 102#32,
    103#32, 104#32, 105#32, 106#32, 107#32, 108#32, 109#32, 110#32, 111#32, 112#32, 113#32, 114#32, 115#32, 116#32, 117#32,
    118#32, 119#32, 120#32, 121#32, 122#32, 123#32, 124#32, 125#32, 126#32, 127#32, 128#32, 129#32, 130#32, 131#32, 132#32,
    133#32, 134#32, 135#32, 136#32, 137#32, 138#32, 139#32, 140#32, 141#32, 142#32, 143#32, 144#32, 145#32, 146#32, 147#32,
    148#32, 149#32, 150#32, 151#32, 152#32, 153#32, 154#32, 155#32, 156#32, 157#32, 158#32, 159#32, 160#32, 161#32, 162#32,
    163#32, 164#32, 165#32, 166#32, 167#32, 168#32, 169#32, 170#32, 171#32, 172#32, 173#32, 174#32, 175#32, 176#32, 177#32,
    178#32, 179#32, 180#32, 181#32, 182#32, 183#32, 184#32, 185#32, 186#32, 187#32, 188#32, 189#32, 190#32, 191#32, 192#32,
    193#32, 194#32, 195#32, 196#32, 197#32, 198#32, 199#32, 200#32, 201#32, 202#32, 203#32, 204#32, 205#32, 206#32, 207#32,
    208#32, 209#32, 210#32, 211#32, 212#32, 213#32, 214#32, 215#32, 216#32, 217#32, 218#32, 219#32, 220#32, 221#32, 222#32,
    223#32, 224#32, 225#32, 226#32, 227#32, 228#32, 229#32, 230#32, 231#32, 232#32, 233#32, 234#32, 235#32, 236#32, 237#32,
    238#32, 239#32, 240#32, 241#32, 242#32, 243#32, 244#32, 245#32, 246#32, 247#32, 248#32, 249#32, 250#32, 251#32, 252#32,
    253#32, 254#32], by and_intros <;> decide +kernel⟩,
   ⟨[0#32, 1#32, 2#32, 3#32, 4#32, 5#32, 6#32, 7#32, 8#32, 9#32, 10#32, 11#32, 12#32, 13#32, 14#32, 15#32, 16#32, 17#32, 18#32,
    19#32, 20#32, 21#32, 22#32, 23#32, 24#32, 25#32, 26#32, 27#32, 28#32, 29#32, 30#32, 31#32, 32#32, 33#32, 34#32, 35#32,
    36#32, 37#32, 38#32, 39#32, 40#32, 41#32, 42#32, 43#32, 44#32, 45#32, 46#32, 47#32, 48#32, 49#32, 50#32, 51#32, 52#32,
    53#32, 54#32, 55#32, 56#32, 57#32, 58#32, 59#32, 60#32, 61#32, 62#32, 63#32, 64#32, 65#32, 66#32, 67#32, 68#32, 69#32,
    70#32, 71#32, 72#32, 73#32, 74#32, 75#32, 76#32, 77#32, 78#32, 79#32, 80#32, 81#32, 82#32, 83#32, 84#32, 85#32, 86#32,
    87#32, 88#32, 89#32, 90#32, 91#32, 92#32, 93#32, 94#32, 95#32, 96#32, 97#32, 98#32, 99#32, 100#32, 101#32, 102#32, 103#32,
    104#32, 105#32, 106#32, 107#32, 108#32, 109#32, 110#32, 111#32, 112#32, 113#32, 114#32, 115#32, 116#32, 117#32, 118#32,
    119#32, 120#32, 121#32, 122#32, 123#32, 124#32, 125#32, 126#32, 127#32, 128#32, 129#32, 130#32, 131#32, 132#32, 133#32,
    134#32, 135#32, 136#32, 137#32, 138#32, 139#32, 140#32, 141#32, 142#32, 143#32, 144#32, 145#32, 146#32, 147#32, 148#32,
    149#32, 150#32, 151#32, 152#32, 153#32, 154#32, 155#32, 156#32, 157#32, 158#32, 159#32, 160#32, 161#32, 162#32, 163#32,
    164#32, 165#32, 166#32, 167#32, 168#32, 169#32, 170#32, 171#32, 172#32, 173#32, 174#32, 175#32, 176#32, 177#32, 178#32,
    179#32, 180#32, 181#32, 182#32, 183#32, 184#32, 185#32, 186#32, 187#32, 188#32, 189#32, 190#32, 191#32, 192#32, 193#32,
    194#32, 195#32, 196#32, 197#32, 198#32, 199#32, 200#32, 201#32, 202#32, 203#32, 204#32, 205#32, 206#32, 207#32, 208#32,
    209#32, 210#32, 211#32, 212#32, 213#32, 214#32, 215#32, 216#32, 217#32, 218#32, 219#32, 220#32, 221#32, 222#32, 223#32,
    224#32, 225#32, 226#32, 227#32, 228#32, 229#32, 230#32, 231#32, 232#32, 233#32, 234#32, 235#32, 236#32, 237#32, 238#32,
    239#32, 240#32, 241#32, 242#32, 243#32, 244#32, 245#32, 246#32, 247#32, 248#32, 249#32, 250#32, 251#32, 252#32, 253#32,
    254#32, 255#32, 256#32], by decide +kernel⟩,
   ⟨{ clk := { now := 5 }, fifo := ((Vector.replicate 9 {}).set 4 { wr := [{ kind := 2, data := 0#32 }, { kind := 2, data := 1#32 }, { kind := 2, data := 2#32 }, { kind := 2, data := 3#32 }, { kind := 2, data := 4#32 }, { kind := 2, data := 5#32 }, { kind := 2, data := 6#32 }, { kind := 2, data := 7#32 }, { kind := 2, data := 8#32 }, { kind := 2, data := 9#32 }, { kind := 2, data := 10#32 }, { kind := 2, data := 11#32 }, { kind := 2, data := 12#32 }, { kind := 2, data := 13#32 }, { kind := 2, data := 14#32 }, { kind := 2, data := 15#32 }, { kind := 2, data := 16#32 }, { kind := 2, data := 17#32 }, { kind := 2, data := 18#32 }, { kind := 2, data := 19#32 }, { kind := 2, data := 20#32 }, { kind := 2, data := 21#32 }, { kind := 2, data := 22#32 }, { kind := 2, data := 23#32 }, { kind := 2, data := 24#32 }, { kind := 2, data := 25#32 }, { kind := 2, data := 26#32 }, { kind := 2, data := 27#32 }, { kind := 2, data := 28#32 }, { kind := 2, data := 29#32 }, { kind := 2, data := 30#32 }, { kind := 2, data := 31#32 }, { kind := 2, data := 32#32 }, { kind := 2, data := 33#32 }, { kind := 2, data := 34#32 }, { kind := 2, data := 35#32 }, { kind := 2, data := 36#32 }, { kind := 2, data := 37#32 }, { kind := 2, data := 38#32 }, { kind := 2, data := 39#32 }, { kind := 2, data := 40#32 }, { kind := 2, data := 41#32 }, { kind := 2, data := 42#32 }, { kind := 2, data := 43#32 }, { kind := 2, data := 44#32 }, { kind := 2, data := 45#32 }, { kind := 2, data := 46#32 }, { kind := 2, data := 47#32 }, { kind := 2, data := 48#32 }, { kind := 2, data := 49#32 }, { kind := 2, data := 50#32 }, { kind := 2, data := 51#32 }, { kind := 2, data := 52#32 }, { kind := 2, data := 53#32 }, { kind := 2, data := 54#32 }, { kind := 2, data := 55#32 }, { kind := 2, data := 56#32 }, { kind := 2, data := 57#32 }, { kind := 2, data := 58#32 }, { kind := 2, data := 59#32 }, { kind := 2, data := 60#32 }, { kind := 2, data := 61#32 }, { kind := 2, data := 62#32 }, { kind := 2, data := 63#32 }, { kind := 2, data := 64#32 }, { kind := 2, data := 65#32 }, { kind := 2, data := 66#32 }, { kind := 2, data := 67#32 }, { kind := 2, data := 68#32 }, { kind := 2, data := 69#32 }, { kind := 2, data := 70#32 }, { kind := 2, data := 71#32 }, { kind := 2, data := 72#32 }, { kind := 2, data := 73#32 }, { kind := 2, data := 74#32 }, { kind := 2, data := 75#32 }, { kind := 2, data := 76#32 }, { kind := 2, data := 77#32 }, { kind := 2, data := 78#32 }, { kind := 2, data := 79#32 }, { kind := 2, data := 80#32 }, { kind := 2, data := 81#32 }, { kind := 2, data := 82#32 }, { kind := 2, data := 83#32 }, { kind := 2, data := 84#32 }, { kind := 2, data := 85#32 }, { kind := 2, data := 86#32 }, { kind := 2, data := 87#32 }, { kind := 2, data := 88#32 }, { kind := 2, data := 89#32 }, { kind := 2, data := 90#32 }, { kind := 2, data := 91#32 }, { kind := 2, data := 92#32 }, { kind := 2, data := 93#32 }, { kind := 2, data := 94#32 }, { kind := 2, data := 95#32 }, { kind := 2, data := 96#32 }, { kind := 2, data := 97#32 }, { kind := 2, data := 98#32 }, { kind := 2, data := 99#32 }, { kind := 2, data := 100#32 }, { kind := 2, data := 101#32 }, { kind := 2, data := 102#32 }, { kind := 2, data := 103#32 }, { kind := 2, data := 104#32 }, { kind := 2, data := 105#32 }, { kind := 2, data := 106#32 }, { kind := 2, data := 107#32 }, { kind := 2, data := 108#32 }, { kind := 2, data := 109#32 }, { kind := 2, data := 110#32 }, { kind := 2, data := 111#32 }, { kind := 2, data := 112#32 }, { kind := 2, data := 113#32 }, { kind := 2, data := 114#32 }, { kind := 2, data := 115#32 }, { kind := 2, data := 116#32 }, { kind := 2, data := 117#32 }, { kind := 2, data := 118#32 }, { kind := 2, data := 119#32 }, { kind := 2, data := 120#32 }, { kind := 2, data := 121#32 }, { kind := 2, data := 122#32 }, { kind := 2, data := 123#32 }, { kind := 2, data := 124#32 }, { kind := 2, data := 125#32 }, { kind := 2, data := 126#32 }, { kind := 2, data := 127#32 }, { kind := 2, data := 128#32 }, { kind := 2, data := 129#32 }, { kind := 2, data := 130#32 }, { kind := 2, data := 131#32 }, { kind := 2, data := 132#32 }, { kind := 2, data := 133#32 }, { kind := 2, data := 134#32 }, { kind := 2, data := 135#32 }, { kind := 2, data := 136#32 }, { kind := 2, data := 137#32 }, { kind := 2, data := 138#32 }, { kind := 2, data := 139#32 }, { kind := 2, data := 140#32 }, { kind := 2, data := 141#32 }, { kind := 2, data := 142#32 }, { kind := 2, data := 143#32 }, { kind := 2, data := 144#32 }, { kind := 2, data := 145#32 }, { kind := 2, data := 146#32 }, { kind := 2, data := 147#32 }, { kind := 2, data := 148#32 }, { kind := 2, data := 149#32 }, { kind := 2, data := 150#32 }, { kind := 2, data := 151#32 }, { kind := 2, data := 152#32 }, { kind := 2, data := 153#32 }, { kind := 2, data := 154#32 }, { kind := 2, data := 155#32 }, { kind := 2, data := 156#32 }, { kind := 2, data := 157#32 }, { kind := 2, data := 158#32 }, { kind := 2, data := 159#32 }, { kind := 2, data := 160#32 }, { kind := 2, data := 161#32 }, { kind := 2, data := 162#32 }, { kind := 2, data := 163#32 }, { kind := 2, data := 164#32 }, { kind := 2, data := 165#32 }, { kind := 2, data := 166#32 }, { kind := 2, data := 167#32 }, { kind := 2, data := 168#32 }, { kind := 2, data := 169#32 }, { kind := 2, data := 170#32 }, { kind := 2, data := 171#32 }, { kind := 2, data := 172#32 }, { kind := 2, data := 173#32 }, { kind := 2, data := 174#32 }, { kind := 2, data := 175#32 }, { kind := 2, data := 176#32 }, { kind := 2, data := 177#32 }, { kind := 2, data := 178#32 }, { kind := 2, data := 179#32 }, { kind := 2, data := 180#32 }, { kind := 2, data := 181#32 }, { kind := 2, data := 182#32 }, { kind := 2, data := 183#32 }, { kind := 2, data := 184#32 }, { kind := 2, data := 185#32 }, { kind := 2, data := 186#32 }, { kind := 2, data := 187#32 }, { kind := 2, data := 188#32 }, { kind := 2, data := 189#32 }, { kind := 2, data := 190#32 }, { kind := 2, data := 191#32 }, { kind := 2, data := 192#32 }, { kind := 2, data := 193#32 }, { kind := 2, data := 194#32 }, { kind := 2, data := 195#32 }, { kind := 2, data := 196#32 }, { kind := 2, data := 197#32 }, { kind := 2, data := 198#32 }, { kind := 2, data := 199#32 }, { kind := 2, data := 200#32 }, { kind := 2, data := 201#32 }, { kind := 2, data := 202#32 }, { kind := 2, data := 203#32 }, { kind := 2, data := 204#32 }, { kind := 2, data := 205#32 }, { kind := 2, data := 206#32 }, { kind := 2, data := 207#32 }, { kind := 2, data := 208#32 }, { kind := 2, data := 209#32 }, { kind := 2, data := 210#32 }, { kind := 2, data := 211#32 }, { kind := 2, data := 212#32 }, { kind := 2, data := 213#32 }, { kind := 2, data := 214#32 }, { kind := 2, data := 215#32 }, { kind := 2, data := 216#32 }, { kind := 2, data := 217#32 }, { kind := 2, data := 218#32 }, { kind := 2, data := 219#32 }, { kind := 2, data := 220#32 }, { kind := 2, data := 221#32 }, { kind := 2, data := 222#32 }, { kind := 2, data := 223#32 }, { kind := 2, data := 224#32 }, { kind := 2, data := 225#32 }, { kind := 2, data := 226#32 }, { kind := 2, data := 227#32 }, { kind := 2, data := 228#32 }, { kind := 2, data := 229#32 }, { kind := 2, data := 230#32 }, { kind := 2, data := 231#32 }, { kind := 2, data := 232#32 }, { kind := 2, data := 233#32 }, { kind := 2, data := 234#32 }, { kind := 2, data := 235#32 }, { kind := 2, data := 236#32 }, { kind := 2, data := 237#32 }, { kind := 2, data := 238#32 }, { kind := 2, data := 239#32 }, { kind := 2, data := 240#32 }, { kind := 2, data := 241#32 }, { kind := 2, data := 242#32 }, { kind := 2, data := 243#32 }, { kind := 2, data := 244#32 }, { kind := 2, data := 245#32 }, { kind := 2, data := 246#32 }, { kind := 2, data := 247#32 }, { kind := 2, data := 248#32 }, { kind := 2, data := 249#32 }] }) },
    4, by decide +kernel⟩,
   ⟨{}, by decide +kernel⟩,
   ⟨{ clk := { now := 5 }, fifo := ((Vector.replicate 9 {}).set 4 { wr := [{ kind := 2, data := 0#32 }, { kind := 2, data := 1#32 }, { kind := 2, data := 2#32 }, { kind := 2, data := 3#32 }, { kind := 2, data := 4#32 }, { kind := 2, data := 5#32 }, { kind := 2, data := 6#32 }, { kind := 2, data := 7#32 }, { kind := 2, data := 8#32 }, { kind := 2, data := 9#32 }, { kind := 2, data := 10#32 }, { kind := 2, data := 11#32 }, { kind := 2, data := 12#32 }, { kind := 2, data := 13#32 }, { kind := 2, data := 14#32 }, { kind := 2, data := 15#32 }, { kind := 2, data := 16#32 }, { kind := 2, data := 17#32 }, { kind := 2, data := 18#32 }, { kind := 2, data := 19#32 }, { kind := 2, data := 20#32 }, { kind := 2, data := 21#32 }, { kind := 2, data := 22#32 }, { kind := 2, data := 23#32 }, { kind := 2, data := 24#32 }, { kind := 2, data := 25#32 }, { kind := 2, data := 26#32 }, { kind := 2, data := 27#32 }, { kind := 2, data := 28#32 }, { kind := 2, data := 29#32 }, { kind := 2, data := 30#32 }, { kind := 2, data := 31#32 }, { kind := 2, data := 32#32 }, { kind := 2, data := 33#32 }, { kind := 2, data := 34#32 }, { kind := 2, data := 35#32 }, { kind := 2, data := 36#32 }, { kind := 2, data := 37#32 }, { kind := 2, data := 38#32 }, { kind := 2, data := 39#32 }, { kind := 2, data := 40#32 }, { kind := 2, data := 41#32 }, { kind := 2, data := 42#32 }, { kind := 2, data := 43#32 }, { kind := 2, data := 44#32 }, { kind := 2, data := 45#32 }, { kind := 2, data := 46#32 }, { kind := 2, data := 47#32 }, { kind := 2, data := 48#32 }, { kind := 2, data := 49#32 }, { kind := 2, data := 50#32 }, { kind := 2, data := 51#32 }, { kind := 2, data := 52#32 }, { kind := 2, data := 53#32 }, { kind := 2, data := 54#32 }, { kind := 2, data := 55#32 }, { kind := 2, data := 56#32 }, { kind := 2, data := 57#32 }, { kind := 2, data := 58#32 }, { kind := 2, data := 59#32 }, { kind := 2, data := 60#32 }, { kind := 2, data := 61#32 }, { kind := 2, data := 62#32 }, { kind := 2, data := 63#32 }, { kind := 2, data := 64#32 }, { kind := 2, data := 65#32 }, { kind := 2, data := 66#32 }, { kind := 2, data := 67#32 }, { kind := 2, data := 68#32 }, { kind := 2, data := 69#32 }, { kind := 2, data := 70#32 }, { kind := 2, data := 71#32 }, { kind := 2, data := 72#32 }, { kind := 2, data := 73#32 }, { kind := 2, data := 74#32 }, { kind := 2, data := 75#32 }, { kind := 2, data := 76#32 }, { kind := 2, data := 77#32 }, { kind := 2, data := 78#32 }, { kind := 2, data := 79#32 }, { kind := 2, data := 80#32 }, { kind := 2, data := 81#32 }, { kind := 2, data := 82#32 }, { kind := 2, data := 83#32 }, { kind := 2, data := 84#32 }, { kind := 2, data := 85#32 }, { kind := 2, data := 86#32 }, { kind := 2, data := 87#32 }, { kind := 2, data := 88#32 }, { kind := 2, data := 89#32 }, { kind := 2, data := 90#32 }, { kind := 2, data := 91#32 }, { kind := 2, data := 92#32 }, { kind := 2, data := 93#32 }, { kind := 2, data := 94#32 }, { kind := 2, data := 95#32 }, { kind := 2, data := 96#32 }, { kind := 2, data := 97#32 }, { kind := 2, data := 98#32 }, { kind := 2, data := 99#32 }, { kind := 2, data := 100#32 }, { kind := 2, data := 101#32 }, { kind := 2, data := 102#32 }, { kind := 2, data := 103#32 }, { kind := 2, data := 104#32 }, { kind := 2, data := 105#32 }, { kind := 2, data := 106#32 }, { kind := 2, data := 107#32 }, { kind := 2, data := 108#32 }, { kind := 2, data := 109#32 }, { kind := 2, data := 110#32 }, { kind := 2, data := 111#32 }, { kind := 2, data := 112#32 }, { kind := 2, data := 113#32 }, { kind := 2, data := 114#32 }, { kind := 2, data := 115#32 }, { kind := 2, data := 116#32 }, { kind := 2, data := 117#32 }, { kind := 2, data := 118#32 }, { kind := 2, data := 119#32 }, { kind := 2, data := 120#32 }, { kind := 2, data := 121#32 }, { kind := 2, data := 122#32 }, { kind := 2, data := 123#32 }, { kind := 2, data := 124#32 }, { kind := 2, data := 125#32 }, { kind := 2, data := 126#32 }, { kind := 2, data := 127#32 }, { kind := 2, data := 128#32 }, { kind := 2, data := 129#32 }, { kind := 2, data := 130#32 }, { kind := 2, data := 131#32 }, { kind := 2, data := 132#32 }, { kind := 2, data := 133#32 }, { kind := 2, data := 134#32 }, { kind := 2, data := 135#32 }, { kind := 2, data := 136#32 }, { kind := 2, data := 137#32 }, { kind := 2, data := 138#32 }, { kind := 2, data := 139#32 }, { kind := 2, data := 140#32 }, { kind := 2, data := 141#32 }, { kind := 2, data := 142#32 }, { kind := 2, data := 143#32 }, { kind := 2, data := 144#32 }, { kind := 2, data := 145#32 }, { kind := 2, data := 146#32 }, { kind := 2, data := 147#32 }, { kind := 2, data := 148#32 }, { kind := 2, data := 149#32 }, { kind := 2, data := 150#32 }, { kind := 2, data := 151#32 }, { kind := 2, data := 152#32 }, { kind := 2, data := 153#32 }, { kind := 2, data := 154#32 }, { kind := 2, data := 155#32 }, { kind := 2, data := 156#32 }, { kind := 2, data := 157#32 }, { kind := 2, data := 158#32 }, { kind := 2, data := 159#32 }, { kind := 2, data := 160#32 }, { kind := 2, data := 161#32 }, { kind := 2, data := 162#32 }, { kind := 2, data := 163#32 }, { kind := 2, data := 164#32 }, { kind := 2, data := 165#32 }, { kind := 2, data := 166#32 }, { kind := 2, data := 167#32 }, { kind := 2, data := 168#32 }, { kind := 2, data := 169#32 }, { kind := 2, data := 170#32 }, { kind := 2, data := 171#32 }, { kind := 2, data := 172#32 }, { kind := 2, data := 173#32 }, { kind := 2, data := 174#32 }, { kind := 2, data := 175#32 }, { kind := 2, data := 176#32 }, { kind := 2, data := 177#32 }, { kind := 2, data := 178#32 }, { kind := 2, data := 179#32 }, { kind := 2, data := 180#32 }, { kind := 2, data := 181#32 }, { kind := 2, data := 182#32 }, { kind := 2, data := 183#32 }, { kind := 2, data := 184#32 }, { kind := 2, data := 185#32 }, { kind := 2, data := 186#32 }, { kind := 2, data := 187#32 }, { kind := 2, data := 188#32 }, { kind := 2, data := 189#32 }, { kind := 2, data := 190#32 }, { kind := 2, data := 191#32 }, { kind := 2, data := 192#32 }, { kind := 2, data := 193#32 }, { kind := 2, data := 194#32 }, { kind := 2, data := 195#32 }, { kind := 2, data := 196#32 }, { kind := 2, data := 197#32 }, { kind := 2, data := 198#32 }, { kind := 2, data := 199#32 }, { kind := 2, data := 200#32 }, { kind := 2, data := 201#32 }, { kind := 2, data := 202#32 }, { kind := 2, data := 203#32 }, { kind := 2, data := 204#32 }, { kind := 2, data := 205#32 }, { kind := 2, data := 206#32 }, { kind := 2, data := 207#32 }, { kind := 2, data := 208#32 }, { kind := 2, data := 209#32 }, { kind := 2, data := 210#32 }, { kind := 2, data := 211#32 }, { kind := 2, data := 212#32 }, { kind := 2, data := 213#32 }, { kind := 2, data := 214#32 }, { kind := 2, data := 215#32 }, { kind := 2, data := 216#32 }, { kind := 2, data := 217#32 }, { kind := 2, data := 218#32 }, { kind := 2, data := 219#32 }, { kind := 2, data := 220#32 }, { kind := 2, data := 221#32 }, { kind := 2, data := 222#32 }, { kind := 2, data := 223#32 }, { kind := 2, data := 224#32 }, { kind := 2, data := 225#32 }, { kind := 2, data := 226#32 }, { kind := 2, data := 227#32 }, { kind := 2, data := 228#32 }, { kind := 2, data := 229#32 }, { kind := 2, data := 230#32 }, { kind := 2, data := 231#32 }, { kind := 2, data := 232#32 }, { kind := 2, data := 233#32 }, { kind := 2, data := 234#32 }, { kind := 2, data := 235#32 }, { kind := 2, data := 236#32 }, { kind := 2, data := 237#32 }, { kind := 2, data := 238#32 }, { kind := 2, data := 239#32 }, { kind := 2, data := 240#32 }, { kind := 2, data := 241#32 }, { kind := 2, data := 242#32 }, { kind := 2, data := 243#32 }, { kind := 2, data := 244#32 }, { kind := 2, data := 245#32 }, { kind := 2, data := 246#32 }, { kind := 2, data := 247#32 }, { kind := 2, data := 248#32 }, { kind := 2, data := 249#32 }], relAt := some 3 }) },
    4, 3, by and_intros <;> decide +kernel⟩,
   ⟨{}, 7, by decide +kernel⟩,
   ⟨{ fifo := ((Vector.replicate 9 {}).set 6 { wr := [{ kind := 4, data := 58#32 }] }) }, 6, by and_intros <;> decide +kernel⟩,
   ⟨{}, 0, by decide +kernel⟩⟩

theorem witness_ConsumersReadAndSkipUnits :
    (∃ (s : State) (lvl : Level) (n : Fin 8) (u : _) (us : _), (permitted s lvl (Adr.FIFO_PORT n) false = true) ∧ ((chan s
      n).skip = .none) ∧ ((chan s n).flushGap = 0) ∧ (2 ≤ (chan s n).view) ∧ ((chan s n).rd = u :: us)) ∧
    (∃ (s : State) (lvl : Level) (n : Fin 8), (permitted s lvl (Adr.FIFO_PORT n) false = true) ∧ ((chan s n).skip ≠ .none ∨
      ((chan s n).flushGap = 0 ∧ ((chan s n).rd = [] ∨ (chan s n).view < 2)))) ∧
    (∃ (s : State) (lvl : Level) (n : Fin 8), (permitted s lvl Adr.FIFO_CMD true = true) ∧ ((chan s n).lastKind = 1 ∨ (chan s
      n).lastKind = 2) ∧ ((chan s n).skip = .none)) ∧
    (∃ (s : State) (lvl : Level) (n : Fin 8), (permitted s lvl Adr.FIFO_CMD true = true) ∧ ((chan s n).lastKind ≠ 1) ∧ ((chan
      s n).lastKind ≠ 2)) ∧
    (∃ (s : State) (lvl : Level) (n : Fin 8), (permitted s lvl Adr.FIFO_CMD true = true) ∧ ((chan s n).rd ≠ [] ∨ (chan s n).wr
      ≠ [])) ∧
    (∃ (s : State) (lvl : Level) (n : Fin 8), (permitted s lvl Adr.FIFO_CMD true = true) ∧ ((chan s n).rd = []) ∧ ((chan s
      n).wr = [])) ∧
    (∃ (s : State) (n : Fin 8), ((chan s n).skip = .none)) ∧
    (∃ (s : State) (n : Fin 8), ((chan s n).view < 2) ∧ ((chan s n).skip ≠ .none)) ∧
    (∃ (s : State) (n : Fin 8) (us : _) (v : _) (post : _), (2 ≤ (chan s n).view) ∧ ((chan s n).skip = .packet) ∧ ((chan s
      n).rd = us ++ v :: post) ∧ (∀ u ∈ us, u.kind ≠ 3) ∧ (v.kind = 3)) ∧
    (∃ (s : State) (n : Fin 8) (k : _), (2 ≤ (chan s n).view) ∧ ((chan s n).skip = .units k) ∧ (0 < k) ∧ (k ≤ (chan s
      n).rd.length)) :=
  ⟨⟨{ fifo := ((Vector.replicate 9 {}).set 7 { rd := [{ kind := 3, data := 0x5897#32 }, { kind := 3, data := 0x1a1e#32 }, { kind := 2, data := 0x9860#32 }, { kind := 4, data := 0x4190#32 }, { kind := 1, data := 0xc23d#32 }] }) },
    .user, 7, { kind := 3, data := 0x5897#32 }, [{ kind := 3, data := 0x1a1e#32 }, { kind := 2, data := 0x9860#32 },
    { kind := 4, data := 0x4190#32 }, { kind := 1, data := 0xc23d#32 }], by decide +kernel, by decide +kernel,
    by decide +kernel, by decide +kernel, rfl⟩,
   ⟨{}, .firmware, 2, by and_intros <;> decide +kernel⟩,
   ⟨{ fifo := ((Vector.replicate 9 {}).set 1 { lastKind := 1 }) }, .user, 1, by and_intros <;> decide +kernel⟩,
   ⟨{}, .user, 6, by and_intros <;> decide +kernel⟩,
   ⟨{ fifo := ((Vector.replicate 9 {}).set 7 { rd := [{ kind := 2, data := 0xdd4c#32 }] }) }, .firmware, 7,
    by and_intros <;> decide +kernel⟩,
   ⟨{}, .user, 0, by decide +kernel, rfl, by decide +kernel⟩,
   ⟨{}, 0, by decide +kernel⟩,
   ⟨{ fifo := ((Vector.replicate 9 {}).set 4 { skip := .units 2, view := 0 }) }, 4, by and_intros <;> decide +kernel⟩,
   ⟨{ fifo := (Vector.replicate 9 {}).set 0 { rd := [unitOf 2 0, unitOf 3 0], skip := .packet } }, 0, [unitOf 2 0], unitOf 3 0,
    [], by decide +kernel, by decide +kernel, rfl, by decide, by decide +kernel⟩,
   ⟨{ fifo := ((Vector.replicate 9 {}).set 3 { rd := [{ kind := 2, data := 0#32 }, { kind := 2, data := 1#32 }, { kind := 2, data := 2#32 }, { kind := 2, data := 3#32 }, { kind := 2, data := 4#32 }, { kind := 2, data := 5#32 }, { kind := 2, data := 6#32 }, { kind := 2, data := 7#32 }, { kind := 2, data := 8#32 }, { kind := 2, data := 9#32 }, { kind := 2, data := 10#32 }, { kind := 2, data := 11#32 }, { kind := 2, data := 12#32 }, { kind := 2, data := 13#32 }, { kind := 2, data := 14#32 }, { kind := 2, data := 15#32 }, { kind := 2, data := 16#32 }, { kind := 2, data := 17#32 }, { kind := 2, data := 18#32 }, { kind := 2, data := 19#32 }, { kind := 2, data := 20#32 }, { kind := 2, data := 21#32 }, { kind := 2, data := 22#32 }, { kind := 2, data := 23#32 }, { kind := 2, data := 24#32 }, { kind := 2, data := 25#32 }, { kind := 2, data := 26#32 }, { kind := 2, data := 27#32 }, { kind := 2, data := 28#32 }, { kind := 2, data := 29#32 }, { kind := 2, data := 30#32 }, { kind := 2, data := 31#32 }, { kind := 2, data := 32#32 }, { kind := 2, data := 33#32 }, { kind := 2, data := 34#32 }, { kind := 2, data := 35#32 }, { kind := 2, data := 36#32 }, { kind := 2, data := 37#32 }, { kind := 2, data := 38#32 }, { kind := 2, data := 39#32 }, { kind := 2, data := 40#32 }, { kind := 2, data := 41#32 }, { kind := 2, data := 42#32 }, { kind := 2, data := 43#32 }, { kind := 2, data := 44#32 }, { kind := 2, data := 45#32 }, { kind := 2, data := 46#32 }, { kind := 2, data := 47#32 }, { kind := 2, data := 48#32 }, { kind := 2, data := 49#32 }, { kind := 2, data := 50#32 }, { kind := 2, data := 51#32 }, { kind := 2, data := 52#32 }, { kind := 2, data := 53#32 }, { kind := 2, data := 54#32 }, { kind := 2, data := 55#32 }, { kind := 2, data := 56#32 }, { kind := 2, data := 57#32 }, { kind := 2, data := 58#32 }, { kind := 2, data := 59#32 }, { kind := 2, data := 60#32 }, { kind := 2, data := 61#32 }, { kind := 2, data := 62#32 }, { kind := 2, data := 63#32 }, { kind := 2, data := 64#32 }, { kind := 2, data := 65#32 }, { kind := 2, data := 66#32 }, { kind := 2, data := 67#32 }, { kind := 2, data := 68#32 }, { kind := 2, data := 69#32 }, { kind := 2, data := 70#32 }, { kind := 2, data := 71#32 }, { kind := 2, data := 72#32 }, { kind := 2, data := 73#32 }, { kind := 2, data := 74#32 }, { kind := 2, data := 75#32 }, { kind := 2, data := 76#32 }, { kind := 2, data := 77#32 }, { kind := 2, data := 78#32 }, { kind := 2, data := 79#32 }, { kind := 2, data := 80#32 }, { kind := 2, data := 81#32 }, { kind := 2, data := 82#32 }, { kind := 2, data := 83#32 }, { kind := 2, data := 84#32 }, { kind := 2, data := 85#32 }, { kind := 2, data := 86#32 }, { kind := 2, data := 87#32 }, { kind := 2, data := 88#32 }, { kind := 2, data := 89#32 }, { kind := 2, data := 90#32 }, { kind := 2, data := 91#32 }, { kind := 2, data := 92#32 }, { kind := 2, data := 93#32 }, { kind := 2, data := 94#32 }, { kind := 2, data := 95#32 }, { kind := 2, data := 96#32 }, { kind := 2, data := 97#32 }, { kind := 2, data := 98#32 }, { kind := 2, data := 99#32 }, { kind := 2, data := 100#32 }, { kind := 2, data := 101#32 }, { kind := 2, data := 102#32 }, { kind := 2, data := 103#32 }, { kind := 2, data := 104#32 }, { kind := 2, data := 105#32 }, { kind := 2, data := 106#32 }, { kind := 2, data := 107#32 }, { kind := 2, data := 108#32 }, { kind := 2, data := 109#32 }, { kind := 2, data := 110#32 }, { kind := 2, data := 111#32 }, { kind := 2, data := 112#32 }, { kind := 2, data := 113#32 }, { kind := 2, data := 114#32 }, { kind := 2, data := 115#32 }, { kind := 2, data := 116#32 }, { kind := 2, data := 117#32 }, { kind := 2, data := 118#32 }, { kind := 2, data := 119#32 }, { kind := 2, data := 120#32 }, { kind := 2, data := 121#32 }, { kind := 2, data := 122#32 }, { kind := 2, data := 123#32 }, { kind := 2, data := 124#32 }, { kind := 2, data := 125#32 }, { kind := 2, data := 126#32 }, { kind := 2, data := 127#32 }, { kind := 2, data := 128#32 }, { kind := 2, data := 129#32 }, { kind := 2, data := 130#32 }, { kind := 2, data := 131#32 }, { kind := 2, data := 132#32 }, { kind := 2, data := 133#32 }, { kind := 2, data := 134#32 }, { kind := 2, data := 135#32 }, { kind := 2, data := 136#32 }, { kind := 2, data := 137#32 }, { kind := 2, data := 138#32 }, { kind := 2, data := 139#32 }, { kind := 2, data := 140#32 }, { kind := 2, data := 141#32 }, { kind := 2, data := 142#32 }, { kind := 2, data := 143#32 }, { kind := 2, data := 144#32 }, { kind := 2, data := 145#32 }, { kind := 2, data := 146#32 }, { kind := 2, data := 147#32 }, { kind := 2, data := 148#32 }, { kind := 2, data := 149#32 }, { kind := 2, data := 150#32 }, { kind := 2, data := 151#32 }, { kind := 2, data := 152#32 }, { kind := 2, data := 153#32 }, { kind := 2, data := 154#32 }, { kind := 2, data := 155#32 }, { kind := 2, data := 156#32 }, { kind := 2, data := 157#32 }, { kind := 2, data := 158#32 }, { kind := 2, data := 159#32 }, { kind := 2, data := 160#32 }, { kind := 2, data := 161#32 }, { kind := 2, data := 162#32 }, { kind := 2, data := 163#32 }, { kind := 2, data := 164#32 }, { kind := 2, data := 165#32 }, { kind := 2, data := 166#32 }, { kind := 2, data := 167#32 }, { kind := 2, data := 168#32 }, { kind := 2, data := 169#32 }, { kind := 2, data := 170#32 }, { kind := 2, data := 171#32 }, { kind := 2, data := 172#32 }, { kind := 2, data := 173#32 }, { kind := 2, data := 174#32 }, { kind := 2, data := 175#32 }, { kind := 2, data := 176#32 }, { kind := 2, data := 177#32 }, { kind := 2, data := 178#32 }, { kind := 2, data := 179#32 }, { kind := 2, data := 180#32 }, { kind := 2, data := 181#32 }, { kind := 2, data := 182#32 }, { kind := 2, data := 183#32 }, { kind := 2, data := 184#32 }, { kind := 2, data := 185#32 }, { kind := 2, data := 186#32 }, { kind := 2, data := 187#32 }, { kind := 2, data := 188#32 }, { kind := 2, data := 189#32 }, { kind := 2, data := 190#32 }, { kind := 2, data := 191#32 }, { kind := 2, data := 192#32 }, { kind := 2, data := 193#32 }, { kind := 2, data := 194#32 }, { kind := 2, data := 195#32 }, { kind := 2, data := 196#32 }, { kind := 2, data := 197#32 }, { kind := 2, data := 198#32 }, { kind := 2, data := 199#32 }, { kind := 2, data := 200#32 }, { kind := 2, data := 201#32 }, { kind := 2, data := 202#32 }, { kind := 2, data := 203#32 }, { kind := 2, data := 204#32 }, { kind := 2, data := 205#32 }, { kind := 2, data := 206#32 }, { kind := 2, data := 207#32 }, { kind := 2, data := 208#32 }, { kind := 2, data := 209#32 }, { kind := 2, data := 210#32 }, { kind := 2, data := 211#32 }, { kind := 2, data := 212#32 }, { kind := 2, data := 213#32 }, { kind := 2, data := 214#32 }, { kind := 2, data := 215#32 }, { kind := 2, data := 216#32 }, { kind := 2, data := 217#32 }, { kind := 2, data := 218#32 }, { kind := 2, data := 219#32 }, { kind := 2, data := 220#32 }, { kind := 2, data := 221#32 }, { kind := 2, data := 222#32 }, { kind := 2, data := 223#32 }, { kind := 2, data := 224#32 }, { kind := 2, data := 225#32 }, { kind := 2, data := 226#32 }, { kind := 2, data := 227#32 }, { kind := 2, data := 228#32 }, { kind := 2, data := 229#32 }, { kind := 2, data := 230#32 }, { kind := 2, data := 231#32 }, { kind := 2, data := 232#32 }, { kind := 2, data := 233#32 }, { kind := 2, data := 234#32 }, { kind := 2, data := 235#32 }, { kind := 2, data := 236#32 }, { kind := 2, data := 237#32 }, { kind := 2, data := 238#32 }, { kind := 2, data := 239#32 }, { kind := 2, data := 240#32 }, { kind := 2, data := 241#32 }, { kind := 2, data := 242#32 }, { kind := 2, data := 243#32 }, { kind := 2, data := 244#32 }, { kind := 2, data := 245#32 }, { kind := 2, data := 246#32 }, { kind := 2, data := 247#32 }, { kind := 2, data := 248#32 }, { kind := 2, data := 249#32 }, { kind := 2, data := 250#32 }, { kind := 2, data := 251#32 }, { kind := 2, data := 252#32 }, { kind := 2, data := 253#32 }, { kind := 2, data := 254#32 }, { kind := 2, data := 255#32 }], skip := .units 1 }) },
    3, 1, by and_intros <;> decide +kernel⟩⟩

theorem witness_JournalTakesAndProgramsPages :
    (∃ (s : State), (flag s Fld.JNL_STAT_FAILED = true)) ∧
    (∃ (s : State), (jnlRuns s = true) ∧ ((chan s 8).rd = []) ∧ ((chan s 8).wr = []) ∧ ((chan s 8).flushGap = 0)) ∧
    (∃ (s : State), (jnlRuns s = true) ∧ (jroom s = false)) ∧
    (∃ (s : State) (ws : _) (r : _) (rest : _), (jnlRuns s = true) ∧ (jroom s = true) ∧ (s.jnl.inHand = []) ∧ (s.jnl.inHandBad
      = false) ∧ (2 ≤ (chan s 8).view) ∧ ((chan s 8).skip = .none) ∧ ((chan s 8).flushGap = 0) ∧ (ws ≠ []) ∧ (ws.length ≤ 256)
      ∧ ((chan s 8).rd = packetUnits ws ++ rest) ∧ (jbuild s ws = some r)) ∧
    (∃ (s : State) (n : _) (u : _) (rest : _), (jnlRuns s = true) ∧ (jroom s = true) ∧ (s.jnl.inHand = []) ∧ (s.jnl.inHandBad
      = false) ∧ (2 ≤ (chan s 8).view) ∧ ((chan s 8).skip = .none) ∧ ((chan s 8).flushGap = 0) ∧ ((chan s 8).rd = u :: rest) ∧
      (u.kind = 0xE) ∧ (u.data = n)) ∧
    (∃ (s : State) (w : Request) (c : Request), (jnlRuns s = true) ∧ (w = mspRequest .journal .c3) ∧ (c = mspRequest .jnlRead
      .c1) ∧ (s.jnl.full = []) ∧ (s.jnl.buffer = [])) ∧
    (∃ (s : State) (w : Request) (c : Request), (jnlRuns s = true) ∧ (w = mspRequest .journal .c3) ∧ (c = mspRequest .jnlRead
      .c1) ∧ (s.jnl.full ≠ [] ∨ s.jnl.buffer ≠ []) ∧ (turnNow s w = false)) ∧
    (∃ (s : State) (w : Request) (c : Request) (p : _) (ps : _), (jnlRuns s = true) ∧ (w = mspRequest .journal .c3) ∧ (c =
      mspRequest .jnlRead .c1) ∧ (turnNow s w = true) ∧ (jhead s ∉ s.jnl.failProg) ∧ (s.jnl.page < 64) ∧ (s.jnl.full = p ::
      ps)) ∧
    (∃ (s : State) (w : Request) (c : Request), (jnlRuns s = true) ∧ (w = mspRequest .journal .c3) ∧ (c = mspRequest .jnlRead
      .c1) ∧ (turnNow s w = true) ∧ (jhead s ∉ s.jnl.failProg) ∧ (s.jnl.page < 64) ∧ (s.jnl.full = []) ∧ (s.jnl.buffer ≠ [])) ∧
    (∃ (s : State) (w : Request) (c : Request), (jnlRuns s = true) ∧ (w = mspRequest .journal .c3) ∧ (c = mspRequest .jnlRead
      .c1) ∧ (turnNow s w = true) ∧ (s.jnl.page < 64) ∧ (s.jnl.full ≠ [] ∨ s.jnl.buffer ≠ [])) ∧
    (∃ (s : State) (w : Request) (c : Request), (jnlRuns s = true) ∧ (w = mspRequest .journal .c3) ∧ (c = mspRequest .jnlRead
      .c1) ∧ (turnNow s w = true)) ∧
    (∃ (s : State) (lvl : Level) (w : Request) (c : Request), (jnlRuns s = true) ∧ (w = mspRequest .journal .c3) ∧ (c =
      mspRequest .jnlRead .c1) ∧ (permitted s lvl Adr.JNL_CMD true = true) ∧ (turnNow s c = true)) ∧
    (∃ (s : State) (lvl : Level) (w : Request) (c : Request), (jnlRuns s = true) ∧ (w = mspRequest .journal .c3) ∧ (c =
      mspRequest .jnlRead .c1) ∧ (permitted s lvl Adr.JNL_CMD true = true) ∧ (turnNow s c = false)) ∧
    (∃ (s : State) (lvl : Level) (key : BitVec 16) (w : Request) (c : Request), (jnlRuns s = true) ∧ (w = mspRequest .journal
      .c3) ∧ (c = mspRequest .jnlRead .c1) ∧ (permitted s lvl Adr.JNL_CMD true = true) ∧ (key ≠ 0xA55A)) :=
  ⟨⟨{ regs := [(10818, 0x40000000#32)] }, by decide +kernel⟩,
   ⟨{ regs := [(10818, 0xa0000000#32)] }, by decide +kernel, rfl, by and_intros <;> decide +kernel⟩,
   ⟨{ regs := [(10818, 0x80000000#32)], jnl := { full := List.replicate 16 [[1#8, 2#8, 3#8, 4#8, 5#8, 6#8, 7#8, 8#8, 9#8, 10#8, 11#8, 12#8, 13#8, 14#8, 15#8, 16#8, 17#8, 18#8, 19#8, 20#8, 21#8, 22#8, 23#8, 24#8, 25#8, 26#8, 27#8, 28#8, 29#8, 30#8, 31#8, 32#8, 33#8, 34#8, 35#8, 36#8, 37#8, 38#8, 39#8, 40#8, 41#8, 42#8, 43#8, 44#8, 45#8, 46#8, 47#8, 48#8, 49#8, 50#8, 51#8, 52#8, 53#8, 54#8, 55#8, 56#8, 57#8, 58#8, 59#8, 60#8, 61#8, 62#8, 63#8, 64#8]] } },
    by and_intros <;> decide +kernel⟩,
   ⟨{ setFlag {} Fld.JNL_STAT_MOUNTED with fifo := (Vector.replicate 9 {}).set 8 { rd := packetUnits [7] } }, [7], jconfig [],
    [], by and_intros <;> first | decide +kernel | rfl⟩,
   ⟨{ regs := [(10818, 0xa0000000#32)], fifo := ((Vector.replicate 9 {}).set 8 { rd := [{ kind := 14, data := 0x2d6b#32 }, { kind := 121, data := 0x7b0e7e0f#32 }, { kind := 1, data := 0x3f696f35#32 }] }) },
    0x2d6b#32, { kind := 14, data := 0x2d6b#32 }, [{ kind := 121, data := 0x7b0e7e0f#32 },
    { kind := 1, data := 0x3f696f35#32 }], by and_intros <;> first | decide +kernel | rfl⟩,
   ⟨{ regs := [(10818, 0xa0000000#32)] }, _, _, by decide +kernel, rfl, rfl, by and_intros <;> decide +kernel⟩,
   ⟨{ regs := [(32, 0x11001100#32), (10818, 0xa0000000#32)], sched := { requests := [{ who := .external, cls := .c1, mask := 2047, kind := .msp }] }, jnl := { full := [[[4#8, 5#8, 6#8, 7#8, 8#8, 9#8, 10#8, 11#8, 12#8, 13#8, 14#8, 15#8, 16#8, 17#8, 18#8, 19#8, 20#8, 21#8, 22#8, 23#8, 24#8, 25#8, 26#8, 27#8, 28#8, 29#8, 30#8, 31#8, 32#8, 33#8, 34#8, 35#8, 36#8, 37#8, 38#8, 39#8, 40#8, 41#8, 42#8, 43#8, 44#8, 45#8, 46#8, 47#8, 48#8, 49#8, 50#8, 51#8, 52#8, 53#8, 54#8, 55#8, 56#8, 57#8, 58#8, 59#8, 60#8, 61#8, 62#8, 63#8, 64#8, 65#8, 66#8, 67#8]]] } },
    _, _, by decide +kernel, rfl, rfl, by and_intros <;> decide +kernel⟩,
   ⟨{ regs := [(10818, 0xa0000000#32)], jnl := { full := [[[4#8, 5#8, 6#8, 7#8, 8#8, 9#8, 10#8, 11#8, 12#8, 13#8, 14#8, 15#8, 16#8, 17#8, 18#8, 19#8, 20#8, 21#8, 22#8, 23#8, 24#8, 25#8, 26#8, 27#8, 28#8, 29#8, 30#8, 31#8, 32#8, 33#8, 34#8, 35#8, 36#8, 37#8, 38#8, 39#8, 40#8, 41#8, 42#8, 43#8, 44#8, 45#8, 46#8, 47#8, 48#8, 49#8, 50#8, 51#8, 52#8, 53#8, 54#8, 55#8, 56#8, 57#8, 58#8, 59#8, 60#8, 61#8, 62#8, 63#8, 64#8, 65#8, 66#8, 67#8]]] } },
    _, _, [[4#8, 5#8, 6#8, 7#8, 8#8, 9#8, 10#8, 11#8, 12#8, 13#8, 14#8, 15#8, 16#8, 17#8, 18#8, 19#8, 20#8, 21#8, 22#8, 23#8,
    24#8, 25#8, 26#8, 27#8, 28#8, 29#8, 30#8, 31#8, 32#8, 33#8, 34#8, 35#8, 36#8, 37#8, 38#8, 39#8, 40#8, 41#8, 42#8, 43#8,
    44#8, 45#8, 46#8, 47#8, 48#8, 49#8, 50#8, 51#8, 52#8, 53#8, 54#8, 55#8, 56#8, 57#8, 58#8, 59#8, 60#8, 61#8, 62#8, 63#8,
    64#8, 65#8, 66#8, 67#8]], [], by decide +kernel, rfl, rfl, by and_intros <;> decide +kernel⟩,
   ⟨{ regs := [(10818, 0x80000000#32)], jnl := { ring := [22], buffer := [[3#8, 4#8, 5#8, 6#8, 7#8, 8#8, 9#8, 10#8, 11#8, 12#8, 13#8, 14#8, 15#8, 16#8, 17#8, 18#8, 19#8, 20#8, 21#8, 22#8, 23#8, 24#8, 25#8, 26#8, 27#8, 28#8, 29#8, 30#8, 31#8, 32#8, 33#8, 34#8, 35#8, 36#8, 37#8, 38#8, 39#8, 40#8, 41#8, 42#8, 43#8, 44#8, 45#8, 46#8, 47#8, 48#8, 49#8, 50#8, 51#8, 52#8, 53#8, 54#8, 55#8, 56#8, 57#8, 58#8, 59#8, 60#8, 61#8, 62#8, 63#8, 64#8, 65#8, 66#8]] } },
    _, _, by decide +kernel, rfl, rfl, by and_intros <;> decide +kernel⟩,
   ⟨{ regs := [(10818, 0xa0000000#32)], jnl := { full := [[[4#8, 5#8, 6#8, 7#8, 8#8, 9#8, 10#8, 11#8, 12#8, 13#8, 14#8, 15#8, 16#8, 17#8, 18#8, 19#8, 20#8, 21#8, 22#8, 23#8, 24#8, 25#8, 26#8, 27#8, 28#8, 29#8, 30#8, 31#8, 32#8, 33#8, 34#8, 35#8, 36#8, 37#8, 38#8, 39#8, 40#8, 41#8, 42#8, 43#8, 44#8, 45#8, 46#8, 47#8, 48#8, 49#8, 50#8, 51#8, 52#8, 53#8, 54#8, 55#8, 56#8, 57#8, 58#8, 59#8, 60#8, 61#8, 62#8, 63#8, 64#8, 65#8, 66#8, 67#8]]] } },
    _, _, by decide +kernel, rfl, rfl, by and_intros <;> decide +kernel⟩,
   ⟨{ regs := [(10818, 0xa0000000#32)] }, _, _, by decide +kernel, rfl, rfl, by decide +kernel⟩,
   ⟨{ regs := [(10818, 0xa0000000#32)] }, .firmware, _, _, by decide +kernel, rfl, rfl, by and_intros <;> decide +kernel⟩,
   ⟨{ regs := [(32, 0x11001100#32), (10818, 0xa0000000#32)], sched := { requests := [{ who := .external, cls := .c1, mask := 2047, kind := .msp }] } },
    .user, _, _, by decide +kernel, rfl, rfl, by and_intros <;> decide +kernel⟩,
   ⟨{ regs := [(10818, 0xa0000000#32)] }, .firmware, 0x6653#16, _, _, by decide +kernel, rfl, rfl,
    by and_intros <;> decide +kernel⟩⟩

theorem witness_JournalErasesFormatsReads :
    (∃ (s : State) (w : Request) (c : Request), (w = mspRequest .journal .c3) ∧ (c = mspRequest .jnlRead .c1) ∧ (fld s
      Fld.JNL_CFG_RESERVE ≤ s.jnl.erased.length ∨ jnlRuns s = false)) ∧
    (∃ (s : State) (w : Request) (c : Request), (w = mspRequest .journal .c3) ∧ (c = mspRequest .jnlRead .c1) ∧ (jnlRuns s =
      true) ∧ (s.jnl.erased.length < fld s Fld.JNL_CFG_RESERVE) ∧ (turnNow s w = false)) ∧
    (∃ (s : State) (w : Request) (c : Request) (b : _), (w = mspRequest .journal .c3) ∧ (c = mspRequest .jnlRead .c1) ∧
      (turnNow s w = true) ∧ (jnlRuns s = true) ∧ (s.jnl.erased.length < fld s Fld.JNL_CFG_RESERVE) ∧ (jeraseNext s = some b)
      ∧ (b ∉ s.jnl.ring) ∧ (b ∉ s.jnl.bad) ∧ (jfactoryBad s b = false) ∧ (b ∉ s.jnl.failErase)) ∧
    (∃ (s : State) (w : Request) (c : Request) (b : _), (w = mspRequest .journal .c3) ∧ (c = mspRequest .jnlRead .c1) ∧
      (turnNow s w = true) ∧ (jnlRuns s = true) ∧ (s.jnl.erased.length < fld s Fld.JNL_CFG_RESERVE) ∧ (jeraseNext s = some b)
      ∧ (b ∉ s.jnl.ring) ∧ (b ∉ s.jnl.bad) ∧ (jfactoryBad s b = false)) ∧
    (∃ (s : State) (lvl : Level) (key : BitVec 16) (w : Request) (c : Request), (w = mspRequest .journal .c3) ∧ (c =
      mspRequest .jnlRead .c1) ∧ (permitted s lvl Adr.JNL_CMD true = true) ∧ (key ≠ 0xA55A ∨ lvl ≠ .supervisor ∨ fld s
      Fld.JNL_STAT_MOUNTED = 0)) ∧
    (∃ (s : State) (lvl : Level) (w : Request) (c : Request), (w = mspRequest .journal .c3) ∧ (c = mspRequest .jnlRead .c1) ∧
      (permitted s lvl Adr.JNL_CMD true = true) ∧ (lvl = .supervisor) ∧ (fld s Fld.JNL_STAT_MOUNTED = 1) ∧ (turnNow s c =
      false)) ∧
    (∃ (s : State) (lvl : Level) (w : Request) (c : Request), (w = mspRequest .journal .c3) ∧ (c = mspRequest .jnlRead .c1) ∧
      (permitted s lvl Adr.JNL_CMD true = true) ∧ (lvl = .supervisor) ∧ (fld s Fld.JNL_STAT_MOUNTED = 1) ∧ (turnNow s c =
      true) ∧ (s.jnl.failProg = []) ∧ (s.jnl.failErase = [])) ∧
    (∃ (s : State) (lvl : Level) (w : Request) (c : Request), (w = mspRequest .journal .c3) ∧ (c = mspRequest .jnlRead .c1) ∧
      (permitted s lvl Adr.JNL_RDCMD true = true) ∧ (fld s Fld.JNL_RDSTAT_BUSY = 1)) ∧
    (∃ (s : State) (lvl : Level) (page : BitVec 21) (w : Request) (c : Request), (w = mspRequest .journal .c3) ∧ (c =
      mspRequest .jnlRead .c1) ∧ (permitted s lvl Adr.JNL_RDCMD true = true) ∧ (fld s Fld.JNL_RDSTAT_BUSY = 0) ∧ (fld s
      Fld.JNL_STAT_MOUNTED = 0 ∨ (jpages s).length ≤ page.toNat)) ∧
    (∃ (s : State) (lvl : Level) (page : BitVec 21) (w : Request) (c : Request), (w = mspRequest .journal .c3) ∧ (c =
      mspRequest .jnlRead .c1) ∧ (permitted s lvl Adr.JNL_RDCMD true = true) ∧ (fld s Fld.JNL_RDSTAT_BUSY = 0) ∧ (fld s
      Fld.JNL_STAT_MOUNTED = 1) ∧ (page.toNat < (jpages s).length) ∧ (turnNow s c = false)) ∧
    (∃ (s : State) (lvl : Level) (page : BitVec 21) (w : Request) (c : Request) (n : _), (w = mspRequest .journal .c3) ∧ (c =
      mspRequest .jnlRead .c1) ∧ (permitted s lvl Adr.JNL_RDCMD true = true) ∧ (fld s Fld.JNL_RDSTAT_BUSY = 0) ∧ (fld s
      Fld.JNL_STAT_MOUNTED = 1) ∧ ((jpages s)[page.toNat]? = some n) ∧ (turnNow s c = true)) :=
  ⟨⟨{}, _, _, rfl, rfl, by decide +kernel⟩,
   ⟨{ regs := [(32, 0x11001100#32), (10818, 0xa0000000#32)], modes := { cmd := some .enterBackup } }, _, _, rfl, rfl,
    by and_intros <;> decide +kernel⟩,
   ⟨{ regs := [(10818, 0x80000000#32)] }, _, _, 1, rfl, rfl, by and_intros <;> decide +kernel⟩,
   ⟨{ regs := [(10818, 0x80000000#32)] }, _, _, 1, rfl, rfl, by and_intros <;> decide +kernel⟩,
   ⟨{}, .firmware, 0x6653#16, _, _, rfl, rfl, by and_intros <;> decide +kernel⟩,
   ⟨{ regs := [(32, 0x11001100#32), (10818, 0xa0000000#32)], modes := { cmd := some .enterBackup } }, .supervisor, _, _, rfl,
    rfl, by and_intros <;> decide +kernel⟩,
   ⟨{ regs := [(10818, 0xc0000000#32)] }, .supervisor, _, _, rfl, rfl, by and_intros <;> decide +kernel⟩,
   ⟨{ regs := [(10825, 0xf0000000#32)] }, .user, _, _, rfl, rfl, by and_intros <;> decide +kernel⟩,
   ⟨{}, .firmware, 0x146653#21, _, _, rfl, rfl, by and_intros <;> decide +kernel⟩,
   ⟨jput
    { setFlag (setFlag {} Fld.SYS_BOOTSTAT_DONE) Fld.JNL_STAT_MOUNTED with jnl := { ring := [1] }, boot := { step := 0 }, sched := { grants := [{ who := .memPort, cls := .c0, mask := 2 ^ resMsp, kind := .msp, until_ := 10 ^ 12 }] } }
    64 (jheader {} 0), .supervisor, 0, _, _, rfl, rfl, by and_intros <;> decide +kernel⟩,
   ⟨jput { setFlag (setFlag {} Fld.SYS_BOOTSTAT_DONE) Fld.JNL_STAT_MOUNTED with jnl := { ring := [1] }, boot := { step := 0 } }
    64 (jheader {} 0), .supervisor, 0, _, _, 64, rfl, rfl, by and_intros <;> decide +kernel⟩⟩

theorem witness_ReadsMergeByKey :
    (∃ (s : State) (r : ReadIn) (left : List TagRead), (r.id ≠ []) ∧ (left = s.sgt.waiting.eraseP (fun w => sameRead w (readOf
      s r)))) ∧
    (∃ (s : State) (r : ReadIn) (left : List TagRead) (n : _) (e : _), (r.id ≠ []) ∧ (left = s.sgt.waiting.eraseP (fun w =>
      sameRead w (readOf s r))) ∧ (∀ w ∈ left, readLe w (readOf s r) = false) ∧ (s.sgt.open_.find? (fun p => sgtKey p.2 r.tech
      (r.id.take 16) (zoneOf s r.rp)) = some (n, e))) ∧
    (∃ (s : State) (r : ReadIn) (left : List TagRead) (n : _), (r.id ≠ []) ∧ (left = s.sgt.waiting.eraseP (fun w => sameRead w
      (readOf s r))) ∧ (∀ w ∈ left, readLe w (readOf s r) = false) ∧ (s.sgt.open_.find? (fun p => sgtKey p.2 r.tech (r.id.take
      16) (zoneOf s r.rp)) = none) ∧ (sgtFree s = some n)) ∧
    (∃ (s : State) (r : ReadIn) (left : List TagRead), (r.id ≠ []) ∧ (left = s.sgt.waiting.eraseP (fun w => sameRead w (readOf
      s r))) ∧ (∀ w ∈ left, readLe w (readOf s r) = false) ∧ (s.sgt.open_.find? (fun p => sgtKey p.2 r.tech (r.id.take 16)
      (zoneOf s r.rp)) = none) ∧ (sgtFree s = none)) :=
  ⟨⟨{},
    { tech := 2, id := [2#8, 3#8], longId := false, rp := 0, chan := 3#16, q64 := 0x7af7568d29f58d42#64, level := 1#8, pc := 0xe6ce#16, dup := true, hold := 0x7dea#16, report := 5#4 },
    _, by decide +kernel, rfl⟩,
   ⟨{ sgt := { open_ := [(2, { id := [1#8], first := 34795, last := 1, firstAt := 0, lastAt := 100, rpMask := 3, hold := 1, flags := 65535, upFirst := 284, dnFirst := 55970, upPeak := 11, dnPeak := 255, peak := 3, upLvl := 6, dnLvl := 6, tech := 1, zone := 127, dgrp := 277, peakRp := 5, stepped := true })] } },
    { tech := 1, id := [1#8], longId := false, rp := 5, chan := 0x2171#16, q64 := 1#64, level := 3#8, pc := 0xb891#16, dup := true, hold := 0xbb31#16, report := 11#4 },
    _, 2,
    { id := [1#8], first := 34795, last := 1, firstAt := 0, lastAt := 100, rpMask := 3, hold := 1, flags := 65535, upFirst := 284, dnFirst := 55970, upPeak := 11, dnPeak := 255, peak := 3, upLvl := 6, dnLvl := 6, tech := 1, zone := 127, dgrp := 277, peakRp := 5, stepped := true },
    by decide +kernel, rfl, by and_intros <;> decide +kernel⟩,
   ⟨{},
    { tech := 2, id := [2#8, 3#8], longId := false, rp := 0, chan := 3#16, q64 := 0x7af7568d29f58d42#64, level := 1#8, pc := 0xe6ce#16, dup := true, hold := 0x7dea#16, report := 5#4 },
    _, 0, by decide +kernel, rfl, by and_intros <;> decide +kernel⟩,
   ⟨sgtFull,
    { tech := 2, id := [2], longId := false, rp := 0, chan := 3, q64 := 0, level := 1, pc := 0, dup := true, hold := 0, report := 5 },
    [], by decide +kernel, rfl, by simp, sgt_full_other _ (by decide), sgt_full⟩⟩

theorem witness_SightingsCloseAndAreCounted :
    (∃ (s : State), (mode s < 3)) ∧
    (∃ (s : State), (3 ≤ mode s)) ∧
    (∃ (s : State) (lvl : Level) (value : Word), (permitted s lvl Adr.SGT_SEL true = true) ∧ ((sgtView s (bitsOf value 10
      0)).1.length = 64)) ∧
    (∃ (s : State) (lvl : Level) (value : Word), (permitted s lvl Adr.SGT_CFG true = true) ∧ (1 ≤ bitsOf value 31 20) ∧ (1 ≤
      bitsOf value 19 14) ∧ (bitsOf value 19 14 ≤ 60) ∧ (divides60 (bitsOf value 5 0) = true)) ∧
    (∃ (s : State) (lvl : Level) (value : Word), (permitted s lvl Adr.SGT_CFG true = true) ∧ (bitsOf value 31 20 = 0 ∨ bitsOf
      value 19 14 = 0 ∨ 60 < bitsOf value 19 14 ∨ divides60 (bitsOf value 5 0) = false)) :=
  ⟨⟨{ regs := [(16, 0xf002#32)] }, by decide +kernel⟩,
   ⟨{}, by decide +kernel⟩,
   ⟨{}, .firmware, 0xd750e040#32, by and_intros <;> decide +kernel⟩,
   ⟨{}, .user, 0x8fc36ac2#32, by and_intros <;> decide +kernel⟩,
   ⟨{}, .firmware, 0xd750e040#32, by and_intros <;> decide +kernel⟩⟩

theorem witness_SlotsYieldReads :
    (∃ (s : State) (p : RfPath) (r : Round) (d : _), (roundOf s p = some r) ∧ (r.phase = .slot) ∧ (r.hopDue = false) ∧ (d =
      { r with empties := if r.q = eBits (roundEntry s r) 53 3 0 then r.empties + 1 else 0, emptySlots := r.emptySlots + 1, qfp := max (16 * eBits (roundEntry s r) 53 3 0) (r.qfp - fld s Fld.BRM_Q_CE) })
      ∧ (d.empties ≠ fld s Fld.BRM_Q_ENDEMPTY) ∧ (blocked s p d (slotWorst (roundEntry s r) (nextTime (roundEntry s r) (qStep
      d).2)) = none)) ∧
    (∃ (s : State) (p : RfPath) (r : Round) (l : _) (d : _), (roundOf s p = some r) ∧ (r.phase = .slot) ∧ (r.hopDue = false) ∧
      (l.length ≠ 1 ∧ captureOf s r l = none ∨ ∃ x, l = [x] ∧ x.decoded = false) ∧ (d =
      { r with empties := 0, collisions := r.collisions + 1, qfp := min (16 * eBits (roundEntry s r) 53 7 4) (r.qfp + fld s Fld.BRM_Q_CC) })
      ∧ (blocked s p d (slotWorst (roundEntry s r) (nextTime (roundEntry s r) (qStep d).2)) = none)) ∧
    (∃ (s : State) (p : RfPath) (r : Round) (x : Rn16Reply), (roundOf s p = some r) ∧ (r.phase = .slot) ∧ (x.decoded = true)) ∧
    (∃ (s : State) (p : RfPath) (r : Round) (l : _) (x : Rn16Reply), (roundOf s p = some r) ∧ (r.phase = .slot) ∧ (l.length ≠
      1) ∧ (captureOf s r l = some x)) ∧
    (∃ (s : State) (p : RfPath) (r : Round) (rn : _) (c : _) (n : _), (roundOf s p = some r) ∧ (r.phase = .acked rn c n) ∧ (n
      < fld s Fld.BRM_ACC_ACKRETRY) ∧ (blocked s p r (ackWorst (roundEntry s r) rn) = none)) ∧
    (∃ (s : State) (p : RfPath) (r : Round) (rn : _) (c : _) (n : _), (roundOf s p = some r) ∧ (r.phase = .acked rn c n) ∧
      (fld s Fld.BRM_ACC_ACKRETRY ≤ n)) ∧
    (∃ (s : State) (p : RfPath) (r : Round) (rn : BitVec 16) (c : Bool) (n : Nat) (x : EpcReply), (roundOf s p = some r) ∧
      (r.phase = .acked rn c n) ∧ (replyLate s p r = none) ∧ (epcGood x = false)) ∧
    (∃ (s : State) (p : RfPath) (r : Round) (rn : BitVec 16) (c : Bool) (n : Nat), (roundOf s p = some r) ∧ (r.phase = .acked
      rn c n) ∧ (replyLate s p r ≠ none)) ∧
    (∃ (s : State) (p : RfPath) (r : Round) (rn : BitVec 16) (c : Bool) (n : Nat) (x : EpcReply), (roundOf s p = some r) ∧
      (r.phase = .acked rn c n) ∧ (replyLate s p r = none) ∧ (epcGood x = true)) :=
  ⟨⟨{ regs := [(5380, 1#32)], sched := { grants := [{ who := .entry 3, cls := .c1, mask := 2, kind := .trace 0, until_ := 50000000000000 }] }, brm := { a := some { entry := 0, deadline := 1000000016 } } },
    .a, { entry := 0, deadline := 1000000016 }, _, by decide +kernel, by decide +kernel, by decide +kernel, rfl,
    by and_intros <;> decide +kernel⟩,
   ⟨{ regs := [(5380, 1#32)], sched := { grants := [{ who := .entry 3, cls := .c1, mask := 2, kind := .trace 0, until_ := 50000000000000 }] }, brm := { a := some { entry := 0, deadline := 1000000016 } } },
    .a, { entry := 0, deadline := 1000000016 }, [{ rn := 0xffff#16, decoded := true, levels := [1#8, 70#8] },
    { rn := 0x351a#16, decoded := true, levels := [] },
    { rn := 0xec64#16, decoded := false, levels := [0#8, 94#8, 0#8, 9#8] }], _, by decide +kernel, by decide +kernel,
    by decide +kernel, Or.inl (by decide +kernel), rfl, by decide +kernel⟩,
   ⟨{ brm := { a := some { entry := 0 } } }, .a, { entry := 0 }, { rn := 0x106d#16, decoded := true, levels := [144#8, 1#8] },
    by and_intros <;> decide +kernel⟩,
   ⟨{ brm := { a := some { entry := 0, rxMask := 15 } } }, .a, { entry := 0, rxMask := 15 },
    [{ rn := 13#16, decoded := true, levels := [] }, { rn := 0xb508#16, decoded := true, levels := [255#8, 54#8, 2#8, 3#8] }],
    { rn := 0xb508#16, decoded := true, levels := [255#8, 54#8, 2#8, 3#8] }, by and_intros <;> decide +kernel⟩,
   ⟨{ regs := [(5380, 2#32)], sched := { grants := [{ who := .hostUhf, cls := .c2, mask := 2, kind := .trace 2, until_ := 50000000000000 }] }, brm := { a := some { entry := 0, deadline := 1000000254, phase := .acked 5#16 true 0 } } },
    .a, { entry := 0, deadline := 1000000254, phase := .acked 5#16 true 0 }, 5#16, true, 0, by and_intros <;> decide +kernel⟩,
   ⟨{ brm := { a := some { entry := 0, phase := .acked 143#16 false 19 } } }, .a,
    { entry := 0, phase := .acked 143#16 false 19 }, 143#16, false, 19, by and_intros <;> decide +kernel⟩,
   ⟨{ brm := { a := some { entry := 0, phase := .acked 5#16 false 1 } } }, .a, { entry := 0, phase := .acked 5#16 false 1 },
    5#16, false, 1, { words := [0#16], crc := 0xe2f1#16, levels := [9#8, 255#8, 3#8, 80#8] },
    by and_intros <;> decide +kernel⟩,
   ⟨{ clk := { now := 18 }, brm := { a := some { entry := 0, phase := .acked 5#16 true 3 } } }, .a,
    { entry := 0, phase := .acked 5#16 true 3 }, 5#16, true, 3, by and_intros <;> decide +kernel⟩,
   ⟨{ brm := { a := some { entry := 0, phase := .acked 143#16 false 19 } } }, .a,
    { entry := 0, phase := .acked 143#16 false 19 }, 143#16, false, 19,
    { words := [0#16], crc := 0xe2f0#16, levels := [9#8, 255#8, 3#8, 80#8] }, by and_intros <;> decide +kernel⟩⟩

theorem witness_AccessStepsFollowOneAnother :
    (∃ (s : State) (p : RfPath) (r : Round) (g : Nat) (n : Nat) (k : _), (roundOf s p = some r) ∧ (r.prog = some g) ∧ (r.phase
      = .step n k) ∧ (stepOp s g n = 9)) ∧
    (∃ (s : State) (p : RfPath) (r : Round) (g : Nat) (n : Nat) (k : _), (roundOf s p = some r) ∧ (r.prog = some g) ∧ (r.phase
      = .step n k) ∧ (stepOp s g n ≠ 9) ∧ (stepOp s g (n + 1) ≠ 9) ∧ (n + 1 < programLength s g) ∧ (blocked (releaseTopUp s
      (roundConsumer r)) p r (psCycles (stepTime s (roundEntry s r) (stepOp s g (n + 1)) (opWord s g (n + 1)) (argWord s g (n
      + 1)))) = none)) ∧
    (∃ (s : State) (p : RfPath) (r : Round) (g : Nat) (n : Nat) (k : _), (roundOf s p = some r) ∧ (r.prog = some g) ∧ (r.phase
      = .step n k) ∧ (stepOp s g n ≠ 9) ∧ (k < fld s Fld.BRM_ACC_STEPRETRY) ∧ (blocked s p r (psCycles (stepTime s (roundEntry
      s r) (stepOp s g n) (opWord s g n) (argWord s g n))) = none)) ∧
    (∃ (s : State) (p : RfPath) (r : Round) (g : Nat) (n : Nat) (k : _) (i : _), (roundOf s p = some r) ∧ (r.prog = some g) ∧
      (r.phase = .step n k) ∧ (r.read = some i) ∧ (reportsUax s r = true)) ∧
    (∃ (s : State) (p : RfPath) (r : Round) (g : Nat) (n : Nat) (slot : _), (roundOf s p = some r) ∧ (r.prog = some g) ∧
      (r.phase = .flint n slot) ∧ (authFlint (brmQuiet s) (roundConsumer r) = none)) ∧
    (∃ (s : State) (p : RfPath) (r : Round) (g : Nat) (n : Nat) (slot : _) (response : _), (roundOf s p = some r) ∧ (r.prog =
      some g) ∧ (r.phase = .flint n slot) ∧ ((holdsOf s (roundConsumer r)).testBit resFlint = true) ∧ (stepOp s g (n + 1) ≠ 9)
      ∧ (n + 1 < programLength s g) ∧ ((authPlain s slot response).1 = tam1Const) ∧ ((authPlain s slot response).2.2 =
      r.challenge.toNat) ∧ (blocked (releaseTopUp s (roundConsumer r)) p r (psCycles (stepTime s (roundEntry s r) (stepOp s g
      (n + 1)) (opWord s g (n + 1)) (argWord s g (n + 1)))) = none)) ∧
    (∃ (s : State) (p : RfPath) (r : Round) (g : Nat) (n : Nat) (slot : _) (response : _) (i : _), (roundOf s p = some r) ∧
      (r.prog = some g) ∧ (r.phase = .flint n slot) ∧ ((holdsOf s (roundConsumer r)).testBit resFlint = true) ∧ (r.read = some
      i) ∧ (reportsUax s r = true) ∧ ((authPlain s slot response).1 ≠ tam1Const ∨ (authPlain s slot response).2.2 ≠
      r.challenge.toNat)) :=
  ⟨⟨{ regs := [(5538, 0x90006f93#32)], brm := { a := some { entry := 0, prog := some 1, phase := .step 17 8 } } }, .a,
    { entry := 0, prog := some 1, phase := .step 17 8 }, 1, 17, 8, by and_intros <;> decide +kernel⟩,
   ⟨{ regs := [(5504, 0x40008380#32), (5506, 0x9000a4d1#32), (5508, 0x8000740e#32), (5510, 0x30007272#32), (5512, 0x3000a38f#32), (5514, 0x6000ef74#32), (5516, 0x20008abd#32), (5518, 0x200062e4#32)], brm := { a := some { entry := 0, prog := some 1, phase := .step 6 0 } } },
    .a, { entry := 0, prog := some 1, phase := .step 6 0 }, 1, 6, 0, by and_intros <;> decide +kernel⟩,
   ⟨{ regs := [(5504, 0x20005b51#32)], brm := { a := some { entry := 0, prog := some 1, phase := .step 0 0 } } }, .a,
    { entry := 0, prog := some 1, phase := .step 0 0 }, 1, 0, 0, by and_intros <;> decide +kernel⟩,
   ⟨{ brm := { a := some { entry := 0, immediate := true, prog := some 1, phase := .step 17 8, read := some { chan := 112, pc := 0#16, epc := [3#16, 0#16, 0x18d1#16, 0xffff#16], level := 2, q64 := 63 } } } },
    .a,
    { entry := 0, immediate := true, prog := some 1, phase := .step 17 8, read := some { chan := 112, pc := 0#16, epc := [3#16, 0#16, 0x18d1#16, 0xffff#16], level := 2, q64 := 63 } },
    1, 17, 8, { chan := 112, pc := 0#16, epc := [3#16, 0#16, 0x18d1#16, 0xffff#16], level := 2, q64 := 63 },
    by and_intros <;> decide +kernel⟩,
   ⟨{ regs := [(32, 0x11001100#32)], sched := { grants := [{ who := .entry 2, cls := .c0, mask := 0, kind := .calStep }] }, brm := { a := some { entry := 2, prog := some 0, phase := .flint 0 240 } } },
    .a, { entry := 2, prog := some 0, phase := .flint 0 240 }, 0, 0, 240, by and_intros <;> decide +kernel⟩,
   ⟨{ regs := [(5380, 1#32), (5488, 0x9000037c#32), (5490, 0x5000166d#32), (5492, 0x800033c9#32)], boot := { keys := [{ usage := 4, slot := 1, bytes := [0#8, 5#8, 10#8, 15#8, 20#8, 25#8, 30#8, 35#8, 40#8, 45#8, 50#8, 55#8, 60#8, 65#8, 70#8, 75#8] }] }, sched := { grants := [{ who := .entry 2, cls := .c2, mask := 258, kind := .forcedGap, until_ := 50000000000000 }] }, brm := { a := some { entry := 2, prog := some 0, deadline := 1000000000, phase := .flint 1 1 } } },
    .a, { entry := 2, prog := some 0, deadline := 1000000000, phase := .flint 1 1 }, 0, 1, 1,
    0xe0577cc9091d5230747fb727b0698a62#128, by and_intros <;> decide +kernel⟩,
   ⟨{ sched := { grants := [{ who := .hostUhf, cls := .c2, mask := 258, kind := .trace 212 }] }, brm := { a := some { entry := 0, immediate := true, prog := some 0, phase := .flint 1 1, read := some { chan := 1, pc := 0x7cea#16, epc := [], level := 0, q64 := 19 } } } },
    .a,
    { entry := 0, immediate := true, prog := some 0, phase := .flint 1 1, read := some { chan := 1, pc := 0x7cea#16, epc := [], level := 0, q64 := 19 } },
    0, 1, 1, 0#128, { chan := 1, pc := 0x7cea#16, epc := [], level := 0, q64 := 19 }, by and_intros <;> decide +kernel⟩⟩

theorem witness_RoundsEndWithTheirVisits :
    (∃ (s : State) (p : RfPath) (r : Round), (roundOf s p = some r) ∧ (r.phase = .slot) ∧ (r.leaves = []) ∧ (r.entry < 1024)) ∧
    (∃ (s : State) (p : RfPath) (r : Round), (roundOf s p = some r)) ∧
    (∃ (s : State) (p : RfPath) (r : Round) (d : _), (roundOf s p = some r) ∧ (r.phase = .slot) ∧ (r.hopDue = true) ∧ (d =
      { r with phase := .slot, empties := if r.q = eBits (roundEntry s r) 53 3 0 then r.empties + 1 else 0, emptySlots := r.emptySlots + 1, qfp := max (16 * eBits (roundEntry s r) 53 3 0) (r.qfp - fld s Fld.BRM_Q_CE) })
      ∧ (d.empties ≠ fld s Fld.BRM_Q_ENDEMPTY) ∧ ((takeNext (setRound (brmQuiet s) p (some d)) (roundEntry s r) d p).1 =
      none)) :=
  ⟨⟨{ brm := { a := some { entry := 0 } } }, .a, { entry := 0 }, by and_intros <;> decide +kernel⟩,
   ⟨{ brm := { a := some { entry := 0 } } }, .a, { entry := 0 }, by decide +kernel⟩,
   ⟨{ brm := { a := some { entry := 0, hopDue := true } } }, .a, { entry := 0, hopDue := true }, _, by decide +kernel,
    by decide +kernel, by decide +kernel, rfl, by and_intros <;> decide +kernel⟩⟩

theorem witness_ChannelsAndImmediateAccess :
    (∃ (s : State) (i : Fin 50) (c : _), ((profileChans s)[i.val]? = some c) ∧ ((account s c).barredUntil.isSome = true) ∧
      ((account s c).onSince = none)) ∧
    (∃ (s : State) (lvl : Level) (v : Word), (permitted s lvl Adr.BRM_IMM true = true) ∧ (bitsOf v 31 31 = 0 ∨ fld s
      Fld.BRM_IMMSTAT_BUSY = 1)) ∧
    (∃ (s : State) (lvl : Level) (v : Word), (permitted s lvl Adr.BRM_IMM true = true) ∧ (bitsOf v 31 31 = 1) ∧ (fld s
      Fld.BRM_IMMSTAT_BUSY = 0) ∧ (immReason s (bitsOf v 30 21) (bitsOf v 20 14) (bitsOf v 13 10) (bitsOf v 5 2) ≠ 0)) ∧
    (∃ (s : State) (lvl : Level) (v : Word), (permitted s lvl Adr.BRM_IMM true = true) ∧ (bitsOf v 31 31 = 1) ∧ (fld s
      Fld.BRM_IMMSTAT_BUSY = 0) ∧ (immReason s (bitsOf v 30 21) (bitsOf v 20 14) (bitsOf v 13 10) (bitsOf v 5 2) = 0)) :=
  ⟨⟨{ regs := [(5380, 1#32)], brm := { accounts := [{ chan := 2056, barredUntil := some 184 }] } }, 0, 2056,
    by and_intros <;> decide +kernel⟩,
   ⟨{}, .firmware, 0x60c08c#32, by and_intros <;> decide +kernel⟩,
   ⟨{}, .firmware, 0x8060479c#32, by and_intros <;> decide +kernel⟩,
   ⟨{ regs := [(4128, 0x67800000#32), (5380, 2#32), (5488, 0x30001b35#32)], slate := { entries := [(2, [1#8, 4#8, 2#8, 16#8, 0#8, 0#8, 169#8, 0#8, 14#8, 1#8, 6#8, 51#8, 1#8, 255#8, 0#8, 2#8, 19#8, 4#8, 11#8, 0#8, 182#8, 78#8, 2#8, 3#8, 154#8, 16#8, 157#8, 31#8, 72#8, 4#8, 3#8, 167#8, 254#8, 12#8, 0#8, 60#8, 2#8, 8#8, 1#8, 7#8, 1#8, 1#8, 1#8, 136#8, 3#8, 102#8, 10#8, 207#8, 0#8, 1#8, 230#8, 0#8, 11#8, 2#8, 2#8, 1#8, 105#8, 2#8, 2#8, 3#8, 12#8, 16#8, 247#8, 221#8])] } },
    .supervisor, 0x80408104#32, by and_intros <;> decide +kernel⟩⟩

theorem witness_HfVisitsAndCardAnswers :
    (∃ (s : State), (s.hf.visit = none)) ∧
    (∃ (s : State) (v : _) (p : _), (s.hf.visit = some v) ∧ (v.phase = .foff) ∧ (foffFirst s = some p) ∧ (rpPort s v.leaf ≠
      p)) ∧
    (∃ (s : State) (v : _), (s.hf.visit = some v) ∧ (v.phase = .foff) ∧ (foffFirst s = some (rpPort s v.leaf))) ∧
    (∃ (s : State) (v : _) (c : HfCmd) (ph : HfPhase) (window : _), (s.hf.visit = some v) ∧ (v.phase = .guard) ∧ (hfWarned s v
      = false) ∧ (hfFits s v c window = true) ∧ ((eClass (hfEntry s v) = 2 ∧ c = .reqa (v.first && flag s Fld.HF_CFG_WUP) ∧ ph
      = .reqA ∧ window = winAB) ∨ (eClass (hfEntry s v) = 3 ∧ c = .reqb (v.first && flag s Fld.HF_CFG_WUP) (eByte (hfEntry s
      v) 51) (min 4 (eBits (hfEntry s v) 52 2 0)) ∧ ph = .slotB 0 ∧ window = winAB) ∨ (eClass (hfEntry s v) = 4 ∧ c =
      .inventory (eBits (hfEntry s v) 49 0 0 == 1) (if eBits (hfEntry s v) 49 1 1 = 1 then some (eByte (hfEntry s v) 50) else
      none) 0 0 ∧ ph = .slotV (eBits (hfEntry s v) 49 0 0 == 1) 0 0 0 ∧ window = winV s v) ∨ (eClass (hfEntry s v) = 5 ∧ c =
      .sensf (eU16 (hfEntry s v) 49) (eBits (hfEntry s v) 51 1 0) (eBits (hfEntry s v) 51 7 4) ∧ ph = .slotF 0 ∧ window = winF
      (1 + eBits (hfEntry s v) 51 7 4)))) ∧
    (∃ (s : State) (v : HfVisit) (f : _), (s.hf.visit = some v) ∧ (s.hf.answerBy.isSome = true) ∧ (hfLastSlot s v = true) ∧
      (hfAwaits v.phase f = true)) ∧
    (∃ (s : State) (v : HfVisit), (s.hf.visit = some v) ∧ (s.hf.answerBy.isSome = true) ∧ (hfLastSlot s v = true)) ∧
    (∃ (s : State) (u : State), (s.hf.answerBy = none) ∧ (u = hfPause (hfQuiet s) (us (fld s Fld.HF_CFG_RGUARD))) ∧
      (s.hf.visit = none)) ∧
    (∃ (s : State) (u : State) (v : _), (s.hf.answerBy = none) ∧ (u = hfPause (hfQuiet s) (us (fld s Fld.HF_CFG_RGUARD))) ∧
      (s.hf.visit = some v) ∧ (v.phase = .reqA) ∧ (hfWarned s v = false) ∧ (hfFits u v (.anticollision 1 0 0) winAB = true)) ∧
    (∃ (s : State) (u : State) (v : _) (level : _) (uid : _) (bits : _) (sak : Byte), (s.hf.answerBy = none) ∧ (u = hfPause
      (hfQuiet s) (us (fld s Fld.HF_CFG_RGUARD))) ∧ (s.hf.visit = some v) ∧ (v.phase = .selA level uid bits) ∧
      (sak.toNat.testBit 2 = false) ∧ (hfActivate s v = false ∨ sak.toNat.testBit 5 = false)) ∧
    (∃ (s : State) (u : State) (v : _), (s.hf.answerBy = none) ∧ (u = hfPause (hfQuiet s) (us (fld s Fld.HF_CFG_RGUARD))) ∧
      (s.hf.visit = some v) ∧ (v.phase = .reqA) ∧ (v.session = false) ∧ (v.leaves = [])) ∧
    (∃ (s : State) (u : State) (v : _), (s.hf.answerBy = none) ∧ (u = hfPause (hfQuiet s) (us (fld s Fld.HF_CFG_RGUARD))) ∧
      (s.hf.visit = some v) ∧ (v.phase = .raw) ∧ (hfWarned s v = false)) :=
  ⟨⟨{}, by decide +kernel⟩,
   ⟨{ hf := { visit := some { entry := 0, session := false, leaf := 0, leaves := [], startedAt := 0, phase := .foff }, foff := #v[none, some 0] } },
    { entry := 0, session := false, leaf := 0, leaves := [], startedAt := 0, phase := .foff }, 1,
    by and_intros <;> decide +kernel⟩,
   ⟨{ regs := [(4160, 0xdc600000#32)], hf := { visit := some { entry := 0, session := false, leaf := 4, leaves := [], startedAt := 0, phase := .foff }, foff := #v[none, some 0] } },
    { entry := 0, session := false, leaf := 4, leaves := [], startedAt := 0, phase := .foff },
    by and_intros <;> decide +kernel⟩,
   ⟨{ slate := { entries := [(1, [3#8, 5#8, 2#8, 3#8, 1#8, 0#8, 104#8, 0#8, 2#8, 5#8, 0#8, 32#8, 1#8, 0#8, 0#8, 169#8, 0#8, 58#8, 16#8, 10#8, 3#8, 182#8, 2#8, 133#8, 0#8, 244#8, 0#8, 19#8, 75#8, 213#8, 2#8, 1#8, 62#8, 6#8, 143#8, 0#8, 3#8, 1#8, 11#8, 2#8, 176#8, 254#8, 3#8, 205#8, 0#8, 0#8, 45#8, 168#8, 0#8, 2#8, 15#8, 1#8, 67#8, 37#8, 0#8, 2#8, 11#8, 43#8, 0#8, 19#8, 123#8, 2#8, 223#8, 202#8])] }, hf := { visit := some { entry := 1, session := false, leaf := 0, leaves := [], startedAt := 0, phase := .guard } } },
    { entry := 1, session := false, leaf := 0, leaves := [], startedAt := 0, phase := .guard }, (.reqb false 1 3), (.slotB 0),
    40000, by and_intros <;> decide +kernel⟩,
   ⟨{ hf := { visit := some { entry := 0, session := false, leaf := 0, leaves := [], startedAt := 0, phase := .xchg { tx := [[3#8, 246#8], [], [36#8, 21#8], []], acking := true, retries := 3, desel := true, sentAt := 3, retrans := 4 } }, answerBy := some 255 } },
    { entry := 0, session := false, leaf := 0, leaves := [], startedAt := 0, phase := .xchg { tx := [[3#8, 246#8], [], [36#8, 21#8], []], acking := true, retries := 3, desel := true, sentAt := 3, retrans := 4 } },
    (.iBlock false true [8#8, 135#8, 1#8, 0#8]), by and_intros <;> decide +kernel⟩,
   ⟨{ hf := { visit := some { entry := 0, session := false, leaf := 0, leaves := [], startedAt := 0, phase := .raw }, answerBy := some 18 } },
    { entry := 0, session := false, leaf := 0, leaves := [], startedAt := 0, phase := .raw },
    by and_intros <;> decide +kernel⟩,
   ⟨{}, _, by decide +kernel, rfl, by decide +kernel⟩,
   ⟨{ slate := { entries := [(0, [3#8, 3#8, 3#8, 16#8, 0#8, 0#8, 116#8, 0#8, 3#8, 15#8, 0#8, 32#8, 1#8, 255#8, 1#8, 1#8, 0#8, 3#8, 3#8, 0#8, 138#8, 8#8, 92#8, 14#8, 18#8, 0#8, 3#8, 4#8, 129#8, 0#8, 11#8, 0#8, 184#8, 87#8, 2#8, 0#8, 25#8, 11#8, 8#8, 115#8, 2#8, 1#8, 92#8, 154#8, 15#8, 1#8, 18#8, 1#8, 3#8, 3#8, 5#8, 151#8, 117#8, 2#8, 1#8, 238#8, 55#8, 15#8, 1#8, 69#8, 66#8, 7#8, 157#8, 134#8])] }, hf := { visit := some { entry := 0, session := false, leaf := 0, leaves := [], startedAt := 0, phase := .reqA } } },
    _, { entry := 0, session := false, leaf := 0, leaves := [], startedAt := 0, phase := .reqA }, by decide +kernel, rfl,
    by and_intros <;> decide +kernel⟩,
   ⟨{ hf := { visit := some { entry := 0, session := false, leaf := 0, leaves := [], startedAt := 0, phase := .selA 1 [1#8, 2#8, 3#8] 513#40 } } },
    _, { entry := 0, session := false, leaf := 0, leaves := [], startedAt := 0, phase := .selA 1 [1#8, 2#8, 3#8] 513#40 }, 1,
    [1#8, 2#8, 3#8], 513#40, 17#8, by decide +kernel, rfl, by and_intros <;> decide +kernel⟩,
   ⟨{ hf := { visit := some { entry := 0, session := false, leaf := 0, leaves := [], startedAt := 0, phase := .reqA } } }, _,
    { entry := 0, session := false, leaf := 0, leaves := [], startedAt := 0, phase := .reqA }, by decide +kernel, rfl,
    by and_intros <;> decide +kernel⟩,
   ⟨{ hf := { visit := some { entry := 0, session := false, leaf := 0, leaves := [], startedAt := 0, phase := .raw } } }, _,
    { entry := 0, session := false, leaf := 0, leaves := [], startedAt := 0, phase := .raw }, by decide +kernel, rfl,
    by and_intros <;> decide +kernel⟩⟩

theorem witness_SessionsHoldOrEnd :
    (∃ (s : State) (v : HfVisit) (x : _), (s.hf.visit = some v) ∧ (v.phase = .xchg x) ∧ (s.hf.answerBy.isSome = true)) ∧
    (∃ (s : State) (v : HfVisit) (x : _) (inf : Byte), (s.hf.visit = some v) ∧ (s.hf.answerBy = none) ∧ (v.phase = .xchg x) ∧
      (0 < inf.toNat % 64) ∧ (inf.toNat % 64 < 60) ∧ (wtxEnd s v (inf.toNat % 64) - x.sentAt ≤ ms (fld s Fld.HF_WTX_MAX_MS))) ∧
    (∃ (s : State) (v : HfVisit) (x : _) (inf : Byte), (s.hf.visit = some v) ∧ (s.hf.answerBy = none) ∧ (v.phase = .xchg x) ∧
      (0 < inf.toNat % 64) ∧ (inf.toNat % 64 < 60) ∧ (ms (fld s Fld.HF_WTX_MAX_MS) < wtxEnd s v (inf.toNat % 64) - x.sentAt)) ∧
    (∃ (s : State) (v : HfVisit) (x : _), (s.hf.visit = some v) ∧ (s.hf.answerBy = none) ∧ (v.phase = .xchg x) ∧ (x.desel =
      false) ∧ (x.retries < fld s Fld.HF_ISO4_RETRY)) ∧
    (∃ (s : State) (v : HfVisit) (x : _), (s.hf.visit = some v) ∧ (s.hf.answerBy = none) ∧ (v.phase = .xchg x) ∧ (x.desel =
      false) ∧ (fld s Fld.HF_ISO4_RETRY ≤ x.retries)) ∧
    (∃ (s : State) (v : HfVisit) (x : _), (s.hf.visit = some v) ∧ (s.hf.answerBy = none) ∧ (v.phase = .xchg x)) ∧
    (∃ (s : State) (v : HfVisit), (s.hf.visit = some v) ∧ (s.hf.answerBy = none) ∧ (v.session = true) ∧ (v.phase = .open_)) :=
  ⟨⟨{ hf := { visit := some { entry := 0, session := false, leaf := 0, leaves := [], startedAt := 0, phase := .xchg { tx := [[3#8, 246#8], [], [36#8, 21#8], []], acking := true, retries := 3, desel := true, sentAt := 3, retrans := 4 } }, answerBy := some 255 } },
    { entry := 0, session := false, leaf := 0, leaves := [], startedAt := 0, phase := .xchg { tx := [[3#8, 246#8], [], [36#8, 21#8], []], acking := true, retries := 3, desel := true, sentAt := 3, retrans := 4 } },
    { tx := [[3#8, 246#8], [], [36#8, 21#8], []], acking := true, retries := 3, desel := true, sentAt := 3, retrans := 4 },
    by and_intros <;> decide +kernel⟩,
   ⟨{ hf := { visit := some { entry := 0, session := false, leaf := 0, leaves := [], startedAt := 0, phase := .xchg { tx := [[]], overflow := true, retries := 1, sentAt := 0, wtx := 2, retrans := 7 } } } },
    { entry := 0, session := false, leaf := 0, leaves := [], startedAt := 0, phase := .xchg { tx := [[]], overflow := true, retries := 1, sentAt := 0, wtx := 2, retrans := 7 } },
    { tx := [[]], overflow := true, retries := 1, sentAt := 0, wtx := 2, retrans := 7 }, 197#8,
    by and_intros <;> decide +kernel⟩,
   ⟨{ regs := [(6147, 0#32)], hf := { visit := some { entry := 0, session := false, leaf := 0, leaves := [], startedAt := 0, phase := .xchg { tx := [], rx := [2#8, 255#8, 157#8], overflow := true, retries := 2, sentAt := 0, wtx := 1, retrans := 199 } } } },
    { entry := 0, session := false, leaf := 0, leaves := [], startedAt := 0, phase := .xchg { tx := [], rx := [2#8, 255#8, 157#8], overflow := true, retries := 2, sentAt := 0, wtx := 1, retrans := 199 } },
    { tx := [], rx := [2#8, 255#8, 157#8], overflow := true, retries := 2, sentAt := 0, wtx := 1, retrans := 199 }, 184#8,
    by and_intros <;> decide +kernel⟩,
   ⟨{ hf := { visit := some { entry := 0, session := false, leaf := 0, leaves := [], startedAt := 0, phase := .xchg { tx := [[]], overflow := true, retries := 1, sentAt := 0, wtx := 2, retrans := 7 } } } },
    { entry := 0, session := false, leaf := 0, leaves := [], startedAt := 0, phase := .xchg { tx := [[]], overflow := true, retries := 1, sentAt := 0, wtx := 2, retrans := 7 } },
    { tx := [[]], overflow := true, retries := 1, sentAt := 0, wtx := 2, retrans := 7 }, by and_intros <;> decide +kernel⟩,
   ⟨{ hf := { visit := some { entry := 0, session := false, leaf := 0, leaves := [], startedAt := 0, phase := .xchg { tx := [[5#8], [1#8, 28#8], [], []], rx := [255#8, 77#8], retries := 3, sentAt := 0, retrans := 265 } } } },
    { entry := 0, session := false, leaf := 0, leaves := [], startedAt := 0, phase := .xchg { tx := [[5#8], [1#8, 28#8], [], []], rx := [255#8, 77#8], retries := 3, sentAt := 0, retrans := 265 } },
    { tx := [[5#8], [1#8, 28#8], [], []], rx := [255#8, 77#8], retries := 3, sentAt := 0, retrans := 265 },
    by and_intros <;> decide +kernel⟩,
   ⟨{ hf := { visit := some { entry := 0, session := false, leaf := 0, leaves := [], startedAt := 0, phase := .xchg { tx := [[]], overflow := true, retries := 1, sentAt := 0, wtx := 2, retrans := 7 } } } },
    { entry := 0, session := false, leaf := 0, leaves := [], startedAt := 0, phase := .xchg { tx := [[]], overflow := true, retries := 1, sentAt := 0, wtx := 2, retrans := 7 } },
    { tx := [[]], overflow := true, retries := 1, sentAt := 0, wtx := 2, retrans := 7 }, by and_intros <;> decide +kernel⟩,
   ⟨{ hf := { visit := some { entry := 0, session := true, leaf := 0, leaves := [], startedAt := 0, phase := .open_ } } },
    { entry := 0, session := true, leaf := 0, leaves := [], startedAt := 0, phase := .open_ },
    by and_intros <;> decide +kernel⟩⟩

theorem witness_HostHfCommands :
    (∃ (s : State) (lvl : Level), (permitted s lvl Adr.HF_IMM true = true) ∧ (fld s Fld.HF_IMMSTAT_BUSY = 1)) ∧
    (∃ (s : State) (lvl : Level) (e : BitVec 10) (g : BitVec 7), (permitted s lvl Adr.HF_IMM true = true) ∧ (fld s
      Fld.HF_IMMSTAT_BUSY = 0) ∧ ((∀ x, entryAt s e.toNat = some x → classKind (eClass x) ≠ 2) ∨ hfLeaves s g.toNat = [])) ∧
    (∃ (s : State) (lvl : Level) (e : BitVec 10) (g : BitVec 7) (x : _), (permitted s lvl Adr.HF_IMM true = true) ∧ (fld s
      Fld.HF_IMMSTAT_BUSY = 0) ∧ (entryAt s e.toNat = some x) ∧ (classKind (eClass x) = 2) ∧ (hfLeaves s g.toNat ≠ []) ∧ (fld
      s Fld.HF_IMMSTAT_OPEN = 1)) ∧
    (∃ (s : State) (lvl : Level) (e : BitVec 10) (g : BitVec 7) (x : _), (permitted s lvl Adr.HF_IMM true = true) ∧ (fld s
      Fld.HF_IMMSTAT_BUSY = 0) ∧ (entryAt s e.toNat = some x) ∧ (classKind (eClass x) = 2) ∧ (hfLeaves s g.toNat ≠ []) ∧ (fld
      s Fld.HF_IMMSTAT_OPEN = 0)) ∧
    (∃ (s : State) (lvl : Level), (permitted s lvl Adr.HF_IMM true = true) ∧ (fld s Fld.HF_IMMSTAT_BUSY = 0) ∧ (s.hf.visit =
      none)) ∧
    (∃ (s : State) (lvl : Level) (v : _), (permitted s lvl Adr.HF_IMM true = true) ∧ (fld s Fld.HF_IMMSTAT_BUSY = 0) ∧
      (s.hf.visit = some v) ∧ (v.session = true) ∧ (v.phase = .open_) ∧ (fld s Fld.HF_IMMSTAT_ACT = 1) ∧ (0 < fld s
      Fld.HF_TXLEN_LEN) ∧ (fld s Fld.HF_TXLEN_LEN ≤ 4096) ∧ (hfWarned s v = true)) ∧
    (∃ (s : State) (lvl : Level) (v : _), (permitted s lvl Adr.HF_IMM true = true) ∧ (fld s Fld.HF_IMMSTAT_BUSY = 0) ∧
      (s.hf.visit = some v) ∧ (v.session = true) ∧ (v.phase = .open_) ∧ (fld s Fld.HF_IMMSTAT_ACT = 1) ∧ (0 < fld s
      Fld.HF_TXLEN_LEN) ∧ (fld s Fld.HF_TXLEN_LEN ≤ 4096) ∧ (hfWarned s v = false)) ∧
    (∃ (s : State) (lvl : Level) (v : _), (permitted s lvl Adr.HF_IMM true = true) ∧ (fld s Fld.HF_IMMSTAT_BUSY = 0) ∧
      (s.hf.visit = some v) ∧ (v.session = true) ∧ (v.phase = .open_) ∧ (fld s Fld.HF_IMMSTAT_ACT = 0)) ∧
    (∃ (s : State) (lvl : Level) (v : _), (permitted s lvl Adr.HF_IMM true = true) ∧ (fld s Fld.HF_IMMSTAT_BUSY = 0) ∧
      (s.hf.visit = some v) ∧ (v.session = true) ∧ (v.phase = .open_) ∧ (0 < fld s Fld.HF_TXLEN_LEN) ∧ (fld s Fld.HF_TXLEN_LEN
      ≤ 4096) ∧ (hfWarned s v = false)) ∧
    (∃ (s : State) (lvl : Level) (v : _), (permitted s lvl Adr.HF_IMM true = true) ∧ (fld s Fld.HF_IMMSTAT_BUSY = 0) ∧
      (s.hf.visit = some v) ∧ (v.session = true) ∧ (v.phase = .open_)) ∧
    (∃ (s : State) (lvl : Level), (permitted s lvl Adr.HF_IMM true = true) ∧ (permitted s lvl Adr.HF_TXLEN true = true) ∧ (fld
      s Fld.HF_IMMSTAT_BUSY = 1)) ∧
    (∃ (s : State) (lvl : Level), (permitted s lvl Adr.HF_IMM true = true) ∧ (permitted s lvl Adr.HF_TXLEN true = true) ∧ (fld
      s Fld.HF_IMMSTAT_BUSY = 0)) :=
  ⟨⟨{ regs := [(6153, 0xdc040000#32)] }, .firmware, by and_intros <;> decide +kernel⟩,
   ⟨{}, .supervisor, 4#10, 6#7, by and_intros <;> decide +kernel⟩,
   ⟨{ regs := [(4176, 0x9db00000#32), (6153, 0x53fc0001#32)], slate := { entries := [(2, [4#8, 65#8, 0#8, 16#8, 1#8, 0#8, 30#8, 1#8, 2#8, 0#8, 0#8, 32#8, 1#8, 255#8, 2#8, 2#8, 149#8, 0#8, 18#8, 3#8, 121#8, 3#8, 2#8, 11#8, 1#8, 4#8, 48#8, 152#8, 1#8, 3#8, 184#8, 0#8, 95#8, 13#8, 13#8, 137#8, 244#8, 2#8, 1#8, 173#8, 10#8, 236#8, 1#8, 4#8, 45#8, 105#8, 1#8, 238#8, 12#8, 3#8, 89#8, 250#8, 145#8, 197#8, 178#8, 16#8, 16#8, 2#8, 7#8, 3#8, 135#8, 107#8, 155#8, 255#8])] } },
    .supervisor, 2#10, 5#7, [4#8, 65#8, 0#8, 16#8, 1#8, 0#8, 30#8, 1#8, 2#8, 0#8, 0#8, 32#8, 1#8, 255#8, 2#8, 2#8, 149#8, 0#8,
    18#8, 3#8, 121#8, 3#8, 2#8, 11#8, 1#8, 4#8, 48#8, 152#8, 1#8, 3#8, 184#8, 0#8, 95#8, 13#8, 13#8, 137#8, 244#8, 2#8, 1#8,
    173#8, 10#8, 236#8, 1#8, 4#8, 45#8, 105#8, 1#8, 238#8, 12#8, 3#8, 89#8, 250#8, 145#8, 197#8, 178#8, 16#8, 16#8, 2#8, 7#8,
    3#8, 135#8, 107#8, 155#8, 255#8], by and_intros <;> decide +kernel⟩,
   ⟨{ regs := [(4128, 0x91b00000#32)], slate := { entries := [(1, [4#8, 3#8, 130#8, 1#8, 1#8, 0#8, 40#8, 1#8, 0#8, 0#8, 0#8, 32#8, 255#8, 255#8, 202#8, 13#8, 2#8, 84#8, 3#8, 10#8, 1#8, 129#8, 63#8, 1#8, 1#8, 11#8, 5#8, 77#8, 164#8, 2#8, 3#8, 0#8, 3#8, 2#8, 68#8, 5#8, 141#8, 180#8, 0#8, 56#8, 3#8, 1#8, 19#8, 9#8, 7#8, 3#8, 1#8, 207#8, 66#8, 2#8, 67#8, 42#8, 16#8, 245#8, 11#8, 254#8, 58#8, 3#8, 47#8, 15#8, 17#8, 92#8, 5#8, 185#8])] } },
    .firmware, 1#10, 2#7, [4#8, 3#8, 130#8, 1#8, 1#8, 0#8, 40#8, 1#8, 0#8, 0#8, 0#8, 32#8, 255#8, 255#8, 202#8, 13#8, 2#8,
    84#8, 3#8, 10#8, 1#8, 129#8, 63#8, 1#8, 1#8, 11#8, 5#8, 77#8, 164#8, 2#8, 3#8, 0#8, 3#8, 2#8, 68#8, 5#8, 141#8, 180#8,
    0#8, 56#8, 3#8, 1#8, 19#8, 9#8, 7#8, 3#8, 1#8, 207#8, 66#8, 2#8, 67#8, 42#8, 16#8, 245#8, 11#8, 254#8, 58#8, 3#8, 47#8,
    15#8, 17#8, 92#8, 5#8, 185#8], by and_intros <;> decide +kernel⟩,
   ⟨{}, .supervisor, by and_intros <;> decide +kernel⟩,
   ⟨{ regs := [(6153, 0x7c000000#32), (6155, 1#32)], sched := { grants := [{ who := .hostHf, cls := .c1, mask := 0, kind := .gorsePing, warned := true }] }, hf := { visit := some { entry := 0, session := true, leaf := 0, leaves := [], startedAt := 0, phase := .open_ } } },
    .supervisor, { entry := 0, session := true, leaf := 0, leaves := [], startedAt := 0, phase := .open_ },
    by and_intros <;> decide +kernel⟩,
   ⟨{ regs := [(6153, 0x20100001#32), (6155, 5#32)], hf := { visit := some { entry := 0, session := true, leaf := 0, leaves := [], startedAt := 0, phase := .open_ } } },
    .supervisor, { entry := 0, session := true, leaf := 0, leaves := [], startedAt := 0, phase := .open_ },
    by and_intros <;> decide +kernel⟩,
   ⟨{ hf := { visit := some { entry := 0, session := true, leaf := 0, leaves := [], startedAt := 0, phase := .open_ } } },
    .firmware, { entry := 0, session := true, leaf := 0, leaves := [], startedAt := 0, phase := .open_ },
    by and_intros <;> decide +kernel⟩,
   ⟨{ regs := [(6155, 5#32)], hf := { visit := some { entry := 0, session := true, leaf := 0, leaves := [], startedAt := 0, phase := .open_ } } },
    .supervisor, { entry := 0, session := true, leaf := 0, leaves := [], startedAt := 0, phase := .open_ },
    by and_intros <;> decide +kernel⟩,
   ⟨{ hf := { visit := some { entry := 0, session := true, leaf := 0, leaves := [], startedAt := 0, phase := .open_ } } },
    .firmware, { entry := 0, session := true, leaf := 0, leaves := [], startedAt := 0, phase := .open_ },
    by and_intros <;> decide +kernel⟩,
   ⟨{ regs := [(6153, 0xdc040000#32)] }, .firmware, by and_intros <;> decide +kernel⟩,
   ⟨{}, .supervisor, by and_intros <;> decide +kernel⟩⟩

theorem witness_GorsePingsMeasureAndDetect :
    (∃ (s : State) (r : Request) (f : Request), (r = gorseRequest .gorse) ∧ (f = gorseRequest .gorseRefresh) ∧ (gorseRuns s =
      false)) ∧
    (∃ (s : State) (r : Request) (f : Request), (r = gorseRequest .gorse) ∧ (f = gorseRequest .gorseRefresh) ∧ (s.grs.confirm
      = false)) ∧
    (∃ (s : State) (r : Request) (f : Request), (r = gorseRequest .gorse) ∧ (f = gorseRequest .gorseRefresh) ∧ (s.grs.confirm
      = true) ∧ (turnNow s r = true)) ∧
    (∃ (s : State) (r : Request) (f : Request), (r = gorseRequest .gorse) ∧ (f = gorseRequest .gorseRefresh) ∧ (gorseRuns s =
      true) ∧ (turnNow s r = false)) ∧
    (∃ (s : State) (r : Request) (f : Request), (r = gorseRequest .gorse) ∧ (f = gorseRequest .gorseRefresh) ∧ (gorseRuns s =
      true) ∧ (turnNow s r = false) ∧ (s.grs.confirm = true)) ∧
    (∃ (s : State) (r : Request) (f : Request), (r = gorseRequest .gorse) ∧ (f = gorseRequest .gorseRefresh) ∧ (gorseRuns s =
      true) ∧ (turnNow s r = true) ∧ (fld s Fld.HF_STAT_FIELD = 0)) ∧
    (∃ (s : State) (r : Request) (f : Request), (r = gorseRequest .gorse) ∧ (f = gorseRequest .gorseRefresh) ∧ (gorseRuns s =
      true) ∧ (turnNow s r = true) ∧ (fld s Fld.HF_STAT_FIELD = 0) ∧ (fld s Fld.GRS_STAT_NOBASE = 1) ∧ (s.grs.sum.length < 3)) ∧
    (∃ (s : State) (r : Request) (f : Request) (a : Int × Int) (b : Int × Int) (c : Int × Int), (r = gorseRequest .gorse) ∧ (f
      = gorseRequest .gorseRefresh) ∧ (gorseRuns s = true) ∧ (turnNow s r = true) ∧ (fld s Fld.HF_STAT_FIELD = 0) ∧ (fld s
      Fld.GRS_STAT_NOBASE = 1) ∧ (s.grs.sum = [a, b, c])) ∧
    (∃ (s : State) (re : Int) (im : Int) (r : Request) (f : Request) (d : _), (r = gorseRequest .gorse) ∧ (f = gorseRequest
      .gorseRefresh) ∧ (gorseRuns s = true) ∧ (turnNow s r = true) ∧ (fld s Fld.HF_STAT_FIELD = 0) ∧ (fld s
      Fld.GRS_STAT_NOBASE = 0) ∧ (magnitude s.grs.re s.grs.im ≠ 0) ∧ (d = (gorseDeltas s re im).1) ∧ (gorseOverA s d.1 = true
      ∨ gorseOverP s d.2 = true) ∧ (fld s Fld.GRS_STAT_PEND + 1 = fld s Fld.GRS_CFG_CONFIRM)) ∧
    (∃ (s : State) (re : Int) (im : Int) (r : Request) (f : Request) (d : _), (r = gorseRequest .gorse) ∧ (f = gorseRequest
      .gorseRefresh) ∧ (gorseRuns s = true) ∧ (turnNow s r = true) ∧ (fld s Fld.HF_STAT_FIELD = 0) ∧ (fld s
      Fld.GRS_STAT_NOBASE = 0) ∧ (magnitude s.grs.re s.grs.im ≠ 0) ∧ (d = (gorseDeltas s re im).1) ∧ (gorseOverA s d.1 = true
      ∨ gorseOverP s d.2 = true) ∧ (fld s Fld.GRS_STAT_PEND + 1 < fld s Fld.GRS_CFG_CONFIRM)) ∧
    (∃ (s : State) (re : Int) (im : Int) (r : Request) (f : Request) (d : _), (r = gorseRequest .gorse) ∧ (f = gorseRequest
      .gorseRefresh) ∧ (gorseRuns s = true) ∧ (turnNow s r = true) ∧ (fld s Fld.HF_STAT_FIELD = 0) ∧ (fld s
      Fld.GRS_STAT_NOBASE = 0) ∧ (magnitude s.grs.re s.grs.im ≠ 0) ∧ (d = (gorseDeltas s re im).1) ∧ (gorseOverA s d.1 =
      false) ∧ (gorseOverP s d.2 = false)) ∧
    (∃ (s : State) (r : Request) (f : Request), (r = gorseRequest .gorse) ∧ (f = gorseRequest .gorseRefresh) ∧ (∃ o ∈
      s.sched.ops, o.req.who = .gorse)) ∧
    (∃ (s : State) (r : Request) (f : Request), (r = gorseRequest .gorse) ∧ (f = gorseRequest .gorseRefresh) ∧ (∀ o ∈
      s.sched.ops, o.req.who ≠ .gorse)) ∧
    (∃ (s : State) (r : Request) (f : Request), (r = gorseRequest .gorse) ∧ (f = gorseRequest .gorseRefresh) ∧ (fld s
      Fld.GRS_CFG_EN = 0 ∨ mode s < 3)) ∧
    (∃ (s : State) (r : Request) (f : Request), (r = gorseRequest .gorse) ∧ (f = gorseRequest .gorseRefresh) ∧ (fld s
      Fld.GRS_CFG_EN = 1) ∧ (mode s = 3 ∨ mode s = 4) ∧ (turnNow s f = false)) ∧
    (∃ (s : State) (r : Request) (f : Request), (r = gorseRequest .gorse) ∧ (f = gorseRequest .gorseRefresh) ∧ (fld s
      Fld.GRS_CFG_EN = 1) ∧ (mode s = 3 ∨ mode s = 4) ∧ (turnNow s f = true) ∧ (flag s (cPend ⟨.cal, 0⟩) = false) ∧
      (s.cal.traced = [])) :=
  ⟨⟨{}, _, _, rfl, rfl, by decide +kernel⟩,
   ⟨{}, _, _, rfl, rfl, by decide +kernel⟩,
   ⟨{ grs := { confirm := true } }, _, _, rfl, rfl, by and_intros <;> decide +kernel⟩,
   ⟨{ regs := [(32, 0x11001100#32), (6656, 0xb0840022#32)], sched := { requests := [{ who := .external, cls := .c1, mask := 2047, kind := .msp }] } },
    _, _, rfl, rfl, by and_intros <;> decide +kernel⟩,
   ⟨{ regs := [(32, 0x11001100#32), (6656, 0xb0840022#32)], sched := { requests := [{ who := .external, cls := .c1, mask := 2047, kind := .msp }] }, grs := { confirm := true } },
    _, _, rfl, rfl, by and_intros <;> decide +kernel⟩,
   ⟨{ regs := [(6656, 0xb0847f7e#32)] }, _, _, rfl, rfl, by and_intros <;> decide +kernel⟩,
   ⟨{ regs := [(6656, 0xb0840048#32)] }, _, _, rfl, rfl, by and_intros <;> decide +kernel⟩,
   ⟨{ regs := [(6656, 0xb084205e#32)], grs := { sum := [(1, 2), (-3, 4), (5, -7)] } }, _, _, (1, 2), (-3, 4), (5, -7), rfl, rfl,
    by and_intros <;> decide +kernel⟩,
   ⟨{ regs := [(6656, 0xb0847f7e#32), (6661, 34#32)], grs := { im := 25600 } }, 3, 3, _, _, _, rfl, rfl, by decide +kernel,
    by decide +kernel, by decide +kernel, by decide +kernel, by decide +kernel, rfl, by and_intros <;> decide +kernel⟩,
   ⟨{ regs := [(16, 0xf702#32), (17, 0x2140403#32), (6656, 0x90840768#32), (6661, 17#32)], grs := { re := 25600 } }, (-52), (-1),
    _, _, _, rfl, rfl, by decide +kernel, by decide +kernel, by decide +kernel, by decide +kernel, by decide +kernel, rfl,
    by and_intros <;> decide +kernel⟩,
   ⟨{ regs := [(6656, 0xb084015e#32), (6657, 0x3e803e8#32), (6661, 17#32)], grs := { re := 2560 } }, (-1), 3, _, _, _, rfl, rfl,
    by decide +kernel, by decide +kernel, by decide +kernel, by decide +kernel, by decide +kernel, rfl,
    by and_intros <;> decide +kernel⟩,
   ⟨{ sched := { ops := [{ req := { who := .gorse, cls := .c3, mask := 128, kind := .gorsePing, air := .hf }, cmd := .gorsePing 1 2 }] } },
    _, _, rfl, rfl, by decide +kernel⟩,
   ⟨{}, _, _, rfl, rfl, by decide +kernel⟩,
   ⟨{}, _, _, rfl, rfl, by decide +kernel⟩,
   ⟨{ regs := [(32, 0x11001100#32), (6656, 0x90844060#32)], sched := { requests := [{ who := .journal, cls := .c1, mask := 2047, kind := .msp }] } },
    _, _, rfl, rfl, by and_intros <;> decide +kernel⟩,
   ⟨{ regs := [(6656, 0x90847f7e#32)] }, _, _, rfl, rfl, by and_intros <;> decide +kernel⟩⟩

theorem witness_TagFieldAndStandardCommands :
    (∃ (s : State), (fld s Fld.TAG_STAT_FIELD = 1)) ∧
    (∃ (s : State), (fld s Fld.TAG_STAT_FIELD = 0)) ∧
    (∃ (s : State), (fld s Fld.TAG_CFG_HARVEN = 1) ∧ (fld s Fld.TAG_STAT_FIELD = 1)) ∧
    (∃ (s : State) (h : TagHdr) (afi : _) (n : Byte) (mask : BitVec 64), (tagPowered s = true) ∧ (hdrRate h = true) ∧
      (hdrInventory h = true) ∧ (h.fits = true) ∧ (fld s Fld.TAG_STAT_STATE ≠ 2) ∧ (n.toNat ≤ 64) ∧ (afiMatch s afi = true) ∧
      (dieUid % 2 ^ n.toNat = mask.toNat % 2 ^ n.toNat)) ∧
    (∃ (s : State), (fld s Fld.TAG_STAT_STATE = 2)) ∧
    (∃ (s : State) (h : TagHdr), (reaches s h = true) ∧ (addressed h = true) ∧ (h.fits = true)) ∧
    (∃ (s : State) (h : TagHdr), (tagPowered s = true) ∧ (hdrRate h = true) ∧ (hdrInventory h = false) ∧ (hdrAddress h = true)
      ∧ (h.fits = true) ∧ (addressed h = true)) ∧
    (∃ (s : State) (h : TagHdr), (tagPowered s = true) ∧ (hdrRate h = true) ∧ (hdrInventory h = false) ∧ (hdrAddress h = true)
      ∧ (h.fits = true) ∧ (addressed h = false) ∧ (fld s Fld.TAG_STAT_STATE = 3)) ∧
    (∃ (s : State) (h : TagHdr), (reaches s h = true) ∧ (h.fits = true)) ∧
    (∃ (s : State) (h : TagHdr), (reaches s h = true) ∧ (direct s h = true)) ∧
    (∃ (s : State) (h : TagHdr), (reaches s h = false)) :=
  ⟨⟨{ regs := [(6418, 0x29803#32)] }, by decide +kernel⟩,
   ⟨{}, by decide +kernel⟩,
   ⟨{ regs := [(6400, 0x32800#32), (6418, 0x29803#32)] }, by and_intros <;> decide +kernel⟩,
   ⟨{ regs := [(6418, 0xfff8d002#32)] }, { flags := 38#8, uid := 0xe0c7000000000000#64, fits := true }, none, 0,
    0xe0c7000000000000#64, by decide +kernel, by decide +kernel, by decide +kernel, by decide +kernel, by decide +kernel,
    by decide +kernel, by decide +kernel, by simp [Nat.mod_one]⟩,
   ⟨{ regs := [(6418, 0x29803#32)] }, by decide +kernel⟩,
   ⟨{ regs := [(6418, 0xfffe5002#32)] }, toDie, (reaches_die _ (by decide +kernel)).1, addressed_die, by decide +kernel⟩,
   ⟨{ regs := [(6418, 0xfffe5002#32)] }, toDie, by decide +kernel, by decide +kernel, by decide +kernel, by decide +kernel,
    by decide +kernel, addressed_die⟩,
   ⟨{ regs := [(6418, 0xd802#32)] }, ⟨0x22, 0, true⟩, by decide +kernel, by decide +kernel, by decide +kernel, by decide +kernel,
    by decide +kernel, not_addressed, by decide +kernel⟩,
   ⟨{ regs := [(6418, 0xfff8d002#32)] }, { flags := 66#8, uid := 5#64, fits := true }, by and_intros <;> decide +kernel⟩,
   ⟨{ regs := [(6418, 0x29803#32)] }, toDie, (reaches_die _ (by decide +kernel)).1, (reaches_die _ (by decide +kernel)).2⟩,
   ⟨{}, { flags := 34#8, uid := 0xe0c7000000000000#64, fits := false }, by decide +kernel⟩⟩

theorem witness_TagBlocksAreReadAndWritten :
    (∃ (s : State) (h : TagHdr) (first : BitVec 16) (r : Request) (count : _), (reaches s h = true) ∧ (h.fits = true) ∧ (r =
      nvmRequest .tagEngine .c0) ∧ (0 < count) ∧ (count ≤ 64) ∧ (first.toNat + count ≤ 16384) ∧ (((List.range count).all fun k
      => mayRead s ((first.toNat + k) / 64)) = true)) ∧
    (∃ (s : State) (h : TagHdr) (first : BitVec 16) (r : Request) (count : _), (reaches s h = true) ∧ (h.fits = true) ∧ (r =
      nvmRequest .tagEngine .c0) ∧ (0 < count) ∧ (count ≤ 64) ∧ (first.toNat + count ≤ 16384) ∧ (((List.range count).all fun k
      => mayRead s ((first.toNat + k) / 64)) = false)) ∧
    (∃ (s : State) (h : TagHdr) (first : BitVec 16) (r : Request) (data : List Word), (reaches s h = true) ∧ (h.fits = true) ∧
      (r = nvmRequest .tagEngine .c0) ∧ (StoresWf s) ∧ (data ≠ []) ∧ (data.length ≤ 64) ∧ (first.toNat + data.length ≤ 16384)
      ∧ ((first.toNat + data.length - 1) / 64 = first.toNat / 64) ∧ (mayWrite s (first.toNat / 64) = true) ∧ (turnNow s r =
      true)) ∧
    (∃ (s : State) (h : TagHdr) (first : BitVec 16) (r : Request) (data : List Word), (reaches s h = true) ∧ (h.fits = true) ∧
      (r = nvmRequest .tagEngine .c0) ∧ (StoresWf s) ∧ (data ≠ []) ∧ (data.length ≤ 64) ∧ (first.toNat + data.length ≤ 16384)
      ∧ ((first.toNat + data.length - 1) / 64 = first.toNat / 64) ∧ (mayWrite s (first.toNat / 64) = true) ∧ (turnNow s r =
      false)) ∧
    (∃ (s : State) (h : TagHdr) (first : BitVec 16) (r : Request) (data : List Word) (w : _), (reaches s h = true) ∧ (h.fits =
      true) ∧ (r = nvmRequest .tagEngine .c0) ∧ (StoresWf s) ∧ (data ≠ []) ∧ (data.length ≤ 64) ∧ (first.toNat + data.length ≤
      16384) ∧ ((first.toNat + data.length - 1) / 64 = first.toNat / 64) ∧ (mayWrite s (first.toNat / 64) = true) ∧ (turnNow s
      r = false) ∧ (data = [w])) ∧
    (∃ (s : State) (h : TagHdr) (first : BitVec 16) (r : Request) (data : List Word) (b : Byte), (reaches s h = true) ∧
      (h.fits = true) ∧ (r = nvmRequest .tagEngine .c0) ∧ (StoresWf s) ∧ (data ≠ []) ∧ (data.length ≤ 64) ∧ (first.toNat +
      data.length ≤ 16384) ∧ ((first.toNat + data.length - 1) / 64 = first.toNat / 64) ∧ (mayWrite s (first.toNat / 64) =
      true) ∧ (turnNow s r = false) ∧ (b.toNat = first.toNat)) ∧
    (∃ (s : State) (h : TagHdr) (first : BitVec 16) (r : Request) (data : List Word) (b : Byte) (w : _), (reaches s h = true)
      ∧ (h.fits = true) ∧ (r = nvmRequest .tagEngine .c0) ∧ (StoresWf s) ∧ (data ≠ []) ∧ (data.length ≤ 64) ∧ (first.toNat +
      data.length ≤ 16384) ∧ ((first.toNat + data.length - 1) / 64 = first.toNat / 64) ∧ (mayWrite s (first.toNat / 64) =
      true) ∧ (turnNow s r = false) ∧ (b.toNat = first.toNat) ∧ (data = [w])) ∧
    (∃ (s : State) (h : TagHdr) (first : BitVec 16) (r : Request) (data : List Word), (reaches s h = true) ∧ (h.fits = true) ∧
      (r = nvmRequest .tagEngine .c0) ∧ (StoresWf s) ∧ (data ≠ []) ∧ (data.length ≤ 64) ∧ (first.toNat + data.length ≤ 16384)
      ∧ ((first.toNat + data.length - 1) / 64 = first.toNat / 64) ∧ (mayWrite s (first.toNat / 64) = false)) :=
  ⟨⟨{ regs := [(6418, 0xfff8d002#32)] }, { flags := 66#8, uid := 5#64, fits := true }, 64#16, _, 1, by decide +kernel,
    by decide +kernel, rfl, by and_intros <;> decide +kernel⟩,
   ⟨{ regs := [(6418, 0xfff8d002#32)] }, { flags := 66#8, uid := 5#64, fits := true }, 0x3fff#16, _, 1, by decide +kernel,
    by decide +kernel, rfl, by and_intros <;> decide +kernel⟩,
   ⟨{ regs := [(6418, 0xfff8d002#32)] }, { flags := 66#8, uid := 5#64, fits := true }, 64#16, _, [0#32], by decide +kernel,
    by decide +kernel, rfl, ⟨by decide +kernel, by decide +kernel⟩, by and_intros <;> decide +kernel⟩,
   ⟨{ regs := [(32, 0x11001100#32), (6418, 0xff08f007#32)], sched := { requests := [{ who := .external, cls := .c1, mask := 2047, kind := .msp }] } },
    { flags := 18#8, uid := 5#64, fits := true }, 64#16, _, [0#32], by decide +kernel, by decide +kernel, rfl,
    ⟨by decide +kernel, by decide +kernel⟩, by and_intros <;> decide +kernel⟩,
   ⟨{ regs := [(32, 0x11001100#32), (6418, 0xff08f007#32)], sched := { requests := [{ who := .external, cls := .c1, mask := 2047, kind := .msp }] } },
    { flags := 18#8, uid := 5#64, fits := true }, 64#16, _, [0#32], 0#32, by decide +kernel, by decide +kernel, rfl,
    ⟨by decide +kernel, by decide +kernel⟩, by and_intros <;> decide +kernel⟩,
   ⟨{ regs := [(32, 0x11001100#32), (6418, 0xff08f007#32)], sched := { requests := [{ who := .external, cls := .c1, mask := 2047, kind := .msp }] } },
    { flags := 18#8, uid := 5#64, fits := true }, 64#16, _, [0#32], 64#8, by decide +kernel, by decide +kernel, rfl,
    ⟨by decide +kernel, by decide +kernel⟩, by and_intros <;> decide +kernel⟩,
   ⟨{ regs := [(32, 0x11001100#32), (6418, 0xff08f007#32)], sched := { requests := [{ who := .external, cls := .c1, mask := 2047, kind := .msp }] } },
    { flags := 18#8, uid := 5#64, fits := true }, 64#16, _, [0#32], 64#8, 0#32, by decide +kernel, by decide +kernel, rfl,
    ⟨by decide +kernel, by decide +kernel⟩, by and_intros <;> decide +kernel⟩,
   ⟨{ regs := [(6418, 0xfff8d002#32)] }, { flags := 66#8, uid := 5#64, fits := true }, 0x3fff#16, _, [0#32], by decide +kernel,
    by decide +kernel, rfl, ⟨by decide +kernel, by decide +kernel⟩, by and_intros <;> decide +kernel⟩⟩

theorem witness_TagAuthenticates :
    (∃ (s : State) (h : TagHdr) (r : Request), (r =
      { who := .tagEngine, cls := .c0, mask := 2 ^ resFlint ||| 2 ^ resTagnvm, kind := .flint }) ∧ (reaches s h = true) ∧
      (direct s h = true) ∧ (h.fits = true)) ∧
    (∃ (s : State) (h : TagHdr) (r : Request), (r =
      { who := .tagEngine, cls := .c0, mask := 2 ^ resFlint ||| 2 ^ resTagnvm, kind := .flint }) ∧ (reaches s h = true) ∧
      (direct s h = true) ∧ (h.fits = true) ∧ (tagLocked s = true)) ∧
    (∃ (s : State) (h : TagHdr) (r : Request), (r =
      { who := .tagEngine, cls := .c0, mask := 2 ^ resFlint ||| 2 ^ resTagnvm, kind := .flint }) ∧ (reaches s h = true) ∧
      (direct s h = true) ∧ (h.fits = true) ∧ (tagLocked s = false) ∧ (s.tag.rn = none)) ∧
    (∃ (s : State) (h : TagHdr) (key : Byte) (p : Word) (r : Request) (rn : _) (k : _), (r =
      { who := .tagEngine, cls := .c0, mask := 2 ^ resFlint ||| 2 ^ resTagnvm, kind := .flint }) ∧ (reaches s h = true) ∧
      (direct s h = true) ∧ (h.fits = true) ∧ (tagLocked s = false) ∧ (s.tag.rn = some rn) ∧ ((fld s
      Fld.TAG_PWEN_SLOTS).testBit key.toNat = true) ∧ (keyOf s 3 key.toNat = some k) ∧ (p.toNat = leNat k ^^^ (rn.toNat * 2 ^
      16 + rn.toNat))) ∧
    (∃ (s : State) (h : TagHdr) (key : Byte) (p : Word) (r : Request) (rn : _) (k : _), (r =
      { who := .tagEngine, cls := .c0, mask := 2 ^ resFlint ||| 2 ^ resTagnvm, kind := .flint }) ∧ (reaches s h = true) ∧
      (direct s h = true) ∧ (h.fits = true) ∧ (tagLocked s = false) ∧ (s.tag.rn = some rn) ∧ ((fld s
      Fld.TAG_PWEN_SLOTS).testBit key.toNat = true) ∧ (keyOf s 3 key.toNat = some k) ∧ (p.toNat ≠ leNat k ^^^ (rn.toNat * 2 ^
      16 + rn.toNat))) ∧
    (∃ (s : State) (h : TagHdr) (r : Request), (r =
      { who := .tagEngine, cls := .c0, mask := 2 ^ resFlint ||| 2 ^ resTagnvm, kind := .flint }) ∧ (reaches s h = true) ∧
      (direct s h = true) ∧ (h.fits = true) ∧ (tagLocked s = false) ∧ (aesServed s = false)) ∧
    (∃ (s : State) (h : TagHdr) (key : Byte) (r : Request) (k : _), (r =
      { who := .tagEngine, cls := .c0, mask := 2 ^ resFlint ||| 2 ^ resTagnvm, kind := .flint }) ∧ (reaches s h = true) ∧
      (direct s h = true) ∧ (h.fits = true) ∧ (tagLocked s = false) ∧ (aesServed s = true) ∧ (turnNow s r = true) ∧ ((fld s
      Fld.TAG_AESEN_SLOTS).testBit key.toNat = true) ∧ (keyOf s 2 key.toNat = some k)) ∧
    (∃ (s : State) (h : TagHdr) (r : Request), (r =
      { who := .tagEngine, cls := .c0, mask := 2 ^ resFlint ||| 2 ^ resTagnvm, kind := .flint }) ∧ (reaches s h = true) ∧
      (direct s h = true) ∧ (h.fits = true) ∧ (tagLocked s = false) ∧ (aesServed s = true) ∧ (turnNow s r = true) ∧ (s.tag.aes
      = none)) ∧
    (∃ (s : State) (h : TagHdr) (e2 : BitVec 128) (r : Request) (x : _) (k : _), (r =
      { who := .tagEngine, cls := .c0, mask := 2 ^ resFlint ||| 2 ^ resTagnvm, kind := .flint }) ∧ (reaches s h = true) ∧
      (direct s h = true) ∧ (h.fits = true) ∧ (tagLocked s = false) ∧ (aesServed s = true) ∧ (turnNow s r = true) ∧ (s.tag.aes
      = some x) ∧ ((fld s Fld.TAG_AESEN_SLOTS).testBit x.slot = true) ∧ (keyOf s 2 x.slot = some k) ∧ (beBytes 16 e2.toNat =
      aes128 k (x.rnt ++ x.rnr))) ∧
    (∃ (s : State) (h : TagHdr) (e2 : BitVec 128) (r : Request) (x : _) (k : _), (r =
      { who := .tagEngine, cls := .c0, mask := 2 ^ resFlint ||| 2 ^ resTagnvm, kind := .flint }) ∧ (reaches s h = true) ∧
      (direct s h = true) ∧ (h.fits = true) ∧ (tagLocked s = false) ∧ (aesServed s = true) ∧ (turnNow s r = true) ∧ (s.tag.aes
      = some x) ∧ ((fld s Fld.TAG_AESEN_SLOTS).testBit x.slot = true) ∧ (keyOf s 2 x.slot = some k) ∧ (beBytes 16 e2.toNat ≠
      aes128 k (x.rnt ++ x.rnr))) ∧
    (∃ (s : State) (h : TagHdr) (r : Request) (x : _), (r =
      { who := .tagEngine, cls := .c0, mask := 2 ^ resFlint ||| 2 ^ resTagnvm, kind := .flint }) ∧ (reaches s h = true) ∧
      (direct s h = true) ∧ (h.fits = true) ∧ (tagLocked s = false) ∧ (aesServed s = true) ∧ (turnNow s r = true) ∧ (s.tag.aes
      = some x) ∧ ((fld s Fld.TAG_AESEN_SLOTS).testBit x.slot = false)) ∧
    (∃ (s : State) (h : TagHdr) (r : Request), (r =
      { who := .tagEngine, cls := .c0, mask := 2 ^ resFlint ||| 2 ^ resTagnvm, kind := .flint }) ∧ (reaches s h = true) ∧
      (direct s h = true) ∧ (h.fits = true) ∧ (tagLocked s = false) ∧ (aesServed s = true) ∧ (turnNow s r = false)) ∧
    (∃ (s : State) (h : TagHdr) (r : Request), (r =
      { who := .tagEngine, cls := .c0, mask := 2 ^ resFlint ||| 2 ^ resTagnvm, kind := .flint }) ∧ (reaches s h = true) ∧
      (direct s h = true) ∧ (h.fits = true) ∧ (tagLocked s = false) ∧ (aesServed s = true) ∧ (turnNow s r = false) ∧
      (s.tag.aes ≠ none)) :=
  ⟨⟨{ regs := [(6418, 0xff08f007#32)] }, toDie, _, rfl, (reaches_die _ (by decide +kernel)).1, (reaches_die _
    (by decide +kernel)).2, by decide +kernel⟩,
   ⟨{ regs := [(6418, 0xff08f007#32)] }, toDie, _, rfl, (reaches_die _ (by decide +kernel)).1, (reaches_die _
    (by decide +kernel)).2, by and_intros <;> decide +kernel⟩,
   ⟨{ regs := [(6418, 0x2f800#32)] }, toDie, _, rfl, (reaches_die _ (by decide +kernel)).1, (reaches_die _
    (by decide +kernel)).2, by and_intros <;> decide +kernel⟩,
   ⟨{ regs := [(6402, 0xffffffff#32), (6418, 0x10b806#32)], boot := { keys := [{ usage := 3, slot := 0, bytes := [1#8, 2#8, 3#8, 4#8] }] }, tag := { rn := some 5#16 } },
    toDie, 0#8, 0x4060204#32, _, 5#16, [1#8, 2#8, 3#8, 4#8], rfl, (reaches_die _ (by decide +kernel)).1, (reaches_die _
    (by decide +kernel)).2, by and_intros <;> decide +kernel⟩,
   ⟨{ regs := [(6402, 0xffffffff#32), (6418, 0x109007#32)], boot := { keys := [{ usage := 3, slot := 1, bytes := [] }] }, tag := { rn := some 7#16 } },
    toDie, 1#8, 0x90c090c#32, _, 7#16, [], rfl, (reaches_die _ (by decide +kernel)).1, (reaches_die _ (by decide +kernel)).2,
    by and_intros <;> decide +kernel⟩,
   ⟨{ regs := [(16, 0xf002#32), (19, 0#32), (6418, 0x109007#32)] }, toDie, _, rfl, (reaches_die _ (by decide +kernel)).1,
    (reaches_die _ (by decide +kernel)).2, by and_intros <;> decide +kernel⟩,
   ⟨{ regs := [(6403, 0xffffffff#32), (6418, 0x2f800#32)], boot := { keys := [{ usage := 2, slot := 0, bytes := [] }] } }, toDie,
    0#8, _, [], rfl, (reaches_die _ (by decide +kernel)).1, (reaches_die _ (by decide +kernel)).2,
    by and_intros <;> decide +kernel⟩,
   ⟨{ regs := [(6418, 0x48f804#32)] }, toDie, _, rfl, (reaches_die _ (by decide +kernel)).1, (reaches_die _
    (by decide +kernel)).2, by and_intros <;> decide +kernel⟩,
   ⟨{ regs := [(6403, 3#32), (6418, 0xd002#32)], boot := { keys := [{ usage := 2, slot := 0, bytes := [0#8, 1#8, 2#8, 3#8, 4#8, 5#8, 6#8, 7#8, 8#8, 9#8, 10#8, 11#8, 12#8, 13#8, 14#8, 15#8] }] }, tag := { aes := some { slot := 0, rnr := [3#8, 4#8, 5#8, 6#8, 7#8, 8#8, 9#8, 10#8], rnt := [0#8, 1#8, 2#8, 3#8, 4#8, 5#8, 6#8, 7#8] } } },
    toDie, 0x2d3beb3ffbd1f5b5ee22ecc449d5737e#128, _,
    { slot := 0, rnr := [3#8, 4#8, 5#8, 6#8, 7#8, 8#8, 9#8, 10#8], rnt := [0#8, 1#8, 2#8, 3#8, 4#8, 5#8, 6#8, 7#8] }, [0#8,
    1#8, 2#8, 3#8, 4#8, 5#8, 6#8, 7#8, 8#8, 9#8, 10#8, 11#8, 12#8, 13#8, 14#8, 15#8], rfl, (reaches_die _
    (by decide +kernel)).1, (reaches_die _ (by decide +kernel)).2, by and_intros <;> decide +kernel⟩,
   ⟨{ regs := [(6403, 0xffffffff#32), (6418, 0x2f800#32)], boot := { keys := [{ usage := 2, slot := 1, bytes := [] }] }, tag := { aes := some { slot := 1, rnr := [], rnt := [] } } },
    toDie, 7#128, _, { slot := 1, rnr := [], rnt := [] }, [], rfl, (reaches_die _ (by decide +kernel)).1, (reaches_die _
    (by decide +kernel)).2, by and_intros <;> decide +kernel⟩,
   ⟨{ regs := [(6418, 0x6e5002#32)], tag := { aes := some { slot := 0, rnr := [], rnt := [] } } }, toDie, _,
    { slot := 0, rnr := [], rnt := [] }, rfl, (reaches_die _ (by decide +kernel)).1, (reaches_die _ (by decide +kernel)).2,
    by and_intros <;> decide +kernel⟩,
   ⟨{ regs := [(32, 0x11001100#32), (6418, 0x6f807#32)], sched := { requests := [{ who := .journal, cls := .c1, mask := 2047, kind := .msp }] } },
    toDie, _, rfl, (reaches_die _ (by decide +kernel)).1, (reaches_die _ (by decide +kernel)).2,
    by and_intros <;> decide +kernel⟩,
   ⟨{ regs := [(32, 0x11001100#32), (6418, 0x6f807#32)], sched := { requests := [{ who := .journal, cls := .c1, mask := 2047, kind := .msp }] }, tag := { aes := some { slot := 0, rnr := [], rnt := [] } } },
    toDie, _, rfl, (reaches_die _ (by decide +kernel)).1, (reaches_die _ (by decide +kernel)).2,
    by and_intros <;> decide +kernel⟩⟩

theorem witness_TagLogSnapshotAndHostPages :
    (∃ (s : State) (h : TagHdr) (r : Request), (r = nvmRequest .tagLog .c3) ∧ (reaches s h = true) ∧ (direct s h = true) ∧
      (h.fits = true) ∧ (secured s = false) ∧ (fld s Fld.TAG_CFG_FLTRD = 1)) ∧
    (∃ (s : State) (h : TagHdr) (offset : BitVec 16) (count : Byte) (r : Request), (r = nvmRequest .tagLog .c3) ∧ (reaches s h
      = true) ∧ (direct s h = true) ∧ (h.fits = true) ∧ (secured s = true ∨ fld s Fld.TAG_CFG_FLTRD = 0) ∧ (offset ≠ 0xFFFF) ∧
      (1 ≤ count.toNat) ∧ (count.toNat ≤ 8)) ∧
    (∃ (s : State) (h : TagHdr) (r : Request) (q : _), (r = nvmRequest .tagLog .c3) ∧ (reaches s h = true) ∧ (direct s h =
      true) ∧ (h.fits = true) ∧ (secured s = true ∨ fld s Fld.TAG_CFG_FLTRD = 0) ∧ (s.tag.snap = some q)) ∧
    (∃ (s : State) (h : TagHdr) (r : Request), (r = nvmRequest .tagLog .c3) ∧ (reaches s h = true) ∧ (direct s h = true) ∧
      (h.fits = true) ∧ (secured s = true ∨ fld s Fld.TAG_CFG_FLTRD = 0) ∧ (s.tag.snap = none)) ∧
    (∃ (s : State) (r : Request), (r = nvmRequest .tagLog .c3) ∧ (fld s Fld.TAG_CFG_FLTEN = 1) ∧ (s.tag.copies ≠ []) ∧ (0 <
      logRoom s) ∧ (3 ≤ mode s) ∧ (StoresWf s) ∧ (turnNow s r = true)) ∧
    (∃ (s : State) (r : Request), (r = nvmRequest .tagLog .c3) ∧ (fld s Fld.TAG_CFG_FLTEN = 1) ∧ (s.tag.copies ≠ []) ∧ (0 <
      logRoom s) ∧ (3 ≤ mode s) ∧ (turnNow s r = false)) ∧
    (∃ (s : State) (r : Request), (r = nvmRequest .tagLog .c3) ∧ (fld s Fld.TAG_CFG_FLTEN = 0 ∨ s.tag.copies = [] ∨ mode s <
      3)) ∧
    (∃ (s : State) (r : Request), (r = nvmRequest .tagLog .c3) ∧ (3 ≤ mode s) ∧ (fld s Fld.SYS_BOOTSTAT_DONE = 1)) ∧
    (∃ (s : State) (r : Request), (r = nvmRequest .tagLog .c3) ∧ (mode s < 3)) ∧
    (∃ (s : State) (lvl : Level) (r : Request), (r = nvmRequest .tagHost .c1) ∧ (permitted s lvl Adr.TAG_HCMD true = true) ∧
      (fld s Fld.TAG_HSTAT_BUSY = 1)) ∧
    (∃ (s : State) (lvl : Level) (r : Request), (r = nvmRequest .tagHost .c1) ∧ (permitted s lvl Adr.TAG_HCMD true = true) ∧
      (fld s Fld.TAG_HSTAT_BUSY = 0) ∧ (turnNow s r = true ∨ turnNow (withoutField s) r = true)) ∧
    (∃ (s : State) (lvl : Level) (page : Byte) (r : Request), (r = nvmRequest .tagHost .c1) ∧ (permitted s lvl Adr.TAG_HCMD
      true = true) ∧ (fld s Fld.TAG_HSTAT_BUSY = 0) ∧ (fld s Fld.TAG_CFG_FLTEN = 1) ∧ (areaOf s page.toNat = .faultLog)) ∧
    (∃ (s : State) (lvl : Level) (page : Byte) (r : Request), (r = nvmRequest .tagHost .c1) ∧ (permitted s lvl Adr.TAG_HCMD
      true = true) ∧ (fld s Fld.TAG_HSTAT_BUSY = 0) ∧ (fld s Fld.TAG_CFG_FLTEN = 0 ∨ areaOf s page.toNat ≠ .faultLog)) ∧
    (∃ (s : State) (lvl : Level) (r : Request), (r = nvmRequest .tagHost .c1) ∧ (permitted s lvl Adr.TAG_HCMD true = true) ∧
      (fld s Fld.TAG_HSTAT_BUSY = 0) ∧ (turnNow s r = true)) ∧
    (∃ (s : State) (lvl : Level) (r : Request), (r = nvmRequest .tagHost .c1) ∧ (permitted s lvl Adr.TAG_HCMD true = true) ∧
      (fld s Fld.TAG_HSTAT_BUSY = 0) ∧ (turnNow s r = false) ∧ (turnNow (withoutField s) r = false)) ∧
    (∃ (s : State) (lvl : Level) (r : Request), (r = nvmRequest .tagHost .c1) ∧ (permitted s lvl Adr.TAG_HCMD true = true) ∧
      (fld s Fld.TAG_HSTAT_BUSY = 0) ∧ (turnNow s r = false)) ∧
    (∃ (s : State) (r : Request), (r = nvmRequest .tagHost .c1) ∧ (s.tag.staged = none)) ∧
    (∃ (s : State) (r : Request), (r = nvmRequest .tagHost .c1) ∧ (s.tag.staged ≠ none) ∧ (turnNow s r = false)) ∧
    (∃ (s : State) (r : Request) (w : _), (r = nvmRequest .tagHost .c1) ∧ (s.tag.staged = some w) ∧ (w.page < 256) ∧ (turnNow
      s r = true) ∧ (w.fieldWrote = true ∨ (w.check = true ∧ pageGen s w.page ≠ w.gen))) ∧
    (∃ (s : State) (r : Request) (w : _), (r = nvmRequest .tagHost .c1) ∧ (s.tag.staged = some w) ∧ (w.page < 256) ∧ (turnNow
      s r = true) ∧ (w.fieldWrote = false) ∧ (w.check = false ∨ pageGen s w.page = w.gen) ∧ (w.bytes.length = 256) ∧ (StoresWf
      s)) :=
  ⟨⟨{ regs := [(6418, 0xfffe5002#32)] }, toDie, _, rfl, (reaches_die _ (by decide +kernel)).1, (reaches_die _
    (by decide +kernel)).2, by and_intros <;> decide +kernel⟩,
   ⟨{ regs := [(6418, 0xff08f007#32)] }, toDie, 30#16, 8#8, _, rfl, (reaches_die _ (by decide +kernel)).1, (reaches_die _
    (by decide +kernel)).2, by and_intros <;> decide +kernel⟩,
   ⟨{ regs := [(6418, 0xff08f007#32)], tag := { snap := some { denied := 0, time := 0, words := [] } } }, toDie, _,
    { denied := 0, time := 0, words := [] }, rfl, (reaches_die _ (by decide +kernel)).1, (reaches_die _
    (by decide +kernel)).2, by and_intros <;> decide +kernel⟩,
   ⟨{ regs := [(6418, 0x2f800#32)] }, toDie, _, rfl, (reaches_die _ (by decide +kernel)).1, (reaches_die _
    (by decide +kernel)).2, by and_intros <;> decide +kernel⟩,
   ⟨{ tag := { copies := [[15#32, 1#32, 2#32, 3#32]] } }, _, rfl, by decide +kernel, by decide +kernel, by decide +kernel,
    by decide +kernel, ⟨by decide +kernel, by decide +kernel⟩, by decide +kernel⟩,
   ⟨{ regs := [(32, 0x11001100#32)], modes := { cmd := some .enterService }, tag := { copies := [[12#32, 1#32, 2#32, 3#32]] } },
    _, rfl, by and_intros <;> decide +kernel⟩,
   ⟨{}, _, rfl, by decide +kernel⟩,
   ⟨{ regs := [(32, 0x11001100#32)] }, _, rfl, by and_intros <;> decide +kernel⟩,
   ⟨{ regs := [(16, 0xf000#32)] }, _, rfl, by decide +kernel⟩,
   ⟨{ regs := [(6417, 0x9000ff64#32)] }, .supervisor, _, rfl, by and_intros <;> decide +kernel⟩,
   ⟨{}, .supervisor, _, rfl, by and_intros <;> decide +kernel⟩,
   ⟨{ regs := [(6401, 0x80000#32)] }, .supervisor, 8#8, _, rfl, by and_intros <;> decide +kernel⟩,
   ⟨{}, .supervisor, 10#8, _, rfl, by and_intros <;> decide +kernel⟩,
   ⟨{}, .supervisor, _, rfl, by and_intros <;> decide +kernel⟩,
   ⟨{ regs := [(32, 0x11001100#32)], modes := { cmd := some .enterService } }, .supervisor, _, rfl,
    by and_intros <;> decide +kernel⟩,
   ⟨{ regs := [(32, 0x11001100#32)], modes := { cmd := some .enterService } }, .supervisor, _, rfl,
    by and_intros <;> decide +kernel⟩,
   ⟨{}, _, rfl, by decide +kernel⟩,
   ⟨{ regs := [(32, 0x11001100#32)], sched := { requests := [{ who := .external, cls := .c1, mask := 2047, kind := .msp }] }, tag := { staged := some { check := false, gen := 0, page := 0, bytes := [] } } },
    _, rfl, by and_intros <;> decide +kernel⟩,
   ⟨{ tag := { staged := some { check := true, gen := 1, page := 0, bytes := [] } } }, _,
    { check := true, gen := 1, page := 0, bytes := [] }, rfl, by and_intros <;> decide +kernel⟩,
   ⟨{ tag := { staged := some { check := false, gen := 0, page := 0, bytes := [0#8, 7#8, 14#8, 21#8, 28#8, 35#8, 42#8, 49#8, 56#8, 63#8, 70#8, 77#8, 84#8, 91#8, 98#8, 105#8, 112#8, 119#8, 126#8, 133#8, 140#8, 147#8, 154#8, 161#8, 168#8, 175#8, 182#8, 189#8, 196#8, 203#8, 210#8, 217#8, 224#8, 231#8, 238#8, 245#8, 252#8, 3#8, 10#8, 17#8, 24#8, 31#8, 38#8, 45#8, 52#8, 59#8, 66#8, 73#8, 80#8, 87#8, 94#8, 101#8, 108#8, 115#8, 122#8, 129#8, 136#8, 143#8, 150#8, 157#8, 164#8, 171#8, 178#8, 185#8, 192#8, 199#8, 206#8, 213#8, 220#8, 227#8, 234#8, 241#8, 248#8, 255#8, 6#8, 13#8, 20#8, 27#8, 34#8, 41#8, 48#8, 55#8, 62#8, 69#8, 76#8, 83#8, 90#8, 97#8, 104#8, 111#8, 118#8, 125#8, 132#8, 139#8, 146#8, 153#8, 160#8, 167#8, 174#8, 181#8, 188#8, 195#8, 202#8, 209#8, 216#8, 223#8, 230#8, 237#8, 244#8, 251#8, 2#8, 9#8, 16#8, 23#8, 30#8, 37#8, 44#8, 51#8, 58#8, 65#8, 72#8, 79#8, 86#8, 93#8, 100#8, 107#8, 114#8, 121#8, 128#8, 135#8, 142#8, 149#8, 156#8, 163#8, 170#8, 177#8, 184#8, 191#8, 198#8, 205#8, 212#8, 219#8, 226#8, 233#8, 240#8, 247#8, 254#8, 5#8, 12#8, 19#8, 26#8, 33#8, 40#8, 47#8, 54#8, 61#8, 68#8, 75#8, 82#8, 89#8, 96#8, 103#8, 110#8, 117#8, 124#8, 131#8, 138#8, 145#8, 152#8, 159#8, 166#8, 173#8, 180#8, 187#8, 194#8, 201#8, 208#8, 215#8, 222#8, 229#8, 236#8, 243#8, 250#8, 1#8, 8#8, 15#8, 22#8, 29#8, 36#8, 43#8, 50#8, 57#8, 64#8, 71#8, 78#8, 85#8, 92#8, 99#8, 106#8, 113#8, 120#8, 127#8, 134#8, 141#8, 148#8, 155#8, 162#8, 169#8, 176#8, 183#8, 190#8, 197#8, 204#8, 211#8, 218#8, 225#8, 232#8, 239#8, 246#8, 253#8, 4#8, 11#8, 18#8, 25#8, 32#8, 39#8, 46#8, 53#8, 60#8, 67#8, 74#8, 81#8, 88#8, 95#8, 102#8, 109#8, 116#8, 123#8, 130#8, 137#8, 144#8, 151#8, 158#8, 165#8, 172#8, 179#8, 186#8, 193#8, 200#8, 207#8, 214#8, 221#8, 228#8, 235#8, 242#8, 249#8] } } },
    _,
    { check := false, gen := 0, page := 0, bytes := [0#8, 7#8, 14#8, 21#8, 28#8, 35#8, 42#8, 49#8, 56#8, 63#8, 70#8, 77#8, 84#8, 91#8, 98#8, 105#8, 112#8, 119#8, 126#8, 133#8, 140#8, 147#8, 154#8, 161#8, 168#8, 175#8, 182#8, 189#8, 196#8, 203#8, 210#8, 217#8, 224#8, 231#8, 238#8, 245#8, 252#8, 3#8, 10#8, 17#8, 24#8, 31#8, 38#8, 45#8, 52#8, 59#8, 66#8, 73#8, 80#8, 87#8, 94#8, 101#8, 108#8, 115#8, 122#8, 129#8, 136#8, 143#8, 150#8, 157#8, 164#8, 171#8, 178#8, 185#8, 192#8, 199#8, 206#8, 213#8, 220#8, 227#8, 234#8, 241#8, 248#8, 255#8, 6#8, 13#8, 20#8, 27#8, 34#8, 41#8, 48#8, 55#8, 62#8, 69#8, 76#8, 83#8, 90#8, 97#8, 104#8, 111#8, 118#8, 125#8, 132#8, 139#8, 146#8, 153#8, 160#8, 167#8, 174#8, 181#8, 188#8, 195#8, 202#8, 209#8, 216#8, 223#8, 230#8, 237#8, 244#8, 251#8, 2#8, 9#8, 16#8, 23#8, 30#8, 37#8, 44#8, 51#8, 58#8, 65#8, 72#8, 79#8, 86#8, 93#8, 100#8, 107#8, 114#8, 121#8, 128#8, 135#8, 142#8, 149#8, 156#8, 163#8, 170#8, 177#8, 184#8, 191#8, 198#8, 205#8, 212#8, 219#8, 226#8, 233#8, 240#8, 247#8, 254#8, 5#8, 12#8, 19#8, 26#8, 33#8, 40#8, 47#8, 54#8, 61#8, 68#8, 75#8, 82#8, 89#8, 96#8, 103#8, 110#8, 117#8, 124#8, 131#8, 138#8, 145#8, 152#8, 159#8, 166#8, 173#8, 180#8, 187#8, 194#8, 201#8, 208#8, 215#8, 222#8, 229#8, 236#8, 243#8, 250#8, 1#8, 8#8, 15#8, 22#8, 29#8, 36#8, 43#8, 50#8, 57#8, 64#8, 71#8, 78#8, 85#8, 92#8, 99#8, 106#8, 113#8, 120#8, 127#8, 134#8, 141#8, 148#8, 155#8, 162#8, 169#8, 176#8, 183#8, 190#8, 197#8, 204#8, 211#8, 218#8, 225#8, 232#8, 239#8, 246#8, 253#8, 4#8, 11#8, 18#8, 25#8, 32#8, 39#8, 46#8, 53#8, 60#8, 67#8, 74#8, 81#8, 88#8, 95#8, 102#8, 109#8, 116#8, 123#8, 130#8, 137#8, 144#8, 151#8, 158#8, 165#8, 172#8, 179#8, 186#8, 193#8, 200#8, 207#8, 214#8, 221#8, 228#8, 235#8, 242#8, 249#8] },
    rfl, by decide +kernel, by decide +kernel, by decide +kernel, by decide +kernel, by decide +kernel, by decide +kernel,
    ⟨by decide +kernel, by decide +kernel⟩⟩⟩

theorem witness_ReceptionAndCounterRule :
    (∃ (s : State) (x : LnkSlot) (a : LinkLead) (snr : Byte) (erased : Nat) (active : Nat) (l : List Byte) (q : Nat × Nat ×
      Nat), (s.lnk.slot = some x) ∧ (canReceive s = true) ∧ (acquires (lnkMode (slotEntry s x)) a = true) ∧ (q = rxSnr s
      (lnkMode (slotEntry s x)) l snr.toNat erased active) ∧ (lnkMode (slotEntry s x) < 6 ∨ 9 < lnkMode (slotEntry s x) ∨ 100
      * q.2.1 ≤ fld s Fld.LNK_EQ_ERASEMAX * q.2.2)) ∧
    (∃ (s : State) (x : LnkSlot) (a : LinkLead) (snr : Byte) (erased : Nat) (active : Nat) (l : List Byte) (q : Nat × Nat ×
      Nat), (s.lnk.slot = some x) ∧ (canReceive s = true) ∧ (acquires (lnkMode (slotEntry s x)) a = true) ∧ (6 ≤ lnkMode
      (slotEntry s x)) ∧ (lnkMode (slotEntry s x) ≤ 9) ∧ (q = (if l = [] then (snr.toNat, erased, active) else ((l.map fun b
      => b.toNat).sum / l.length, l.countP (fun b => decide (b.toNat < 4 * fld s Fld.LNK_EQ_ABS ∨ (b.toNat + 4 * fld s
      Fld.LNK_EQ_REL) * l.length < (l.map fun b => b.toNat).sum)), l.length))) ∧ (fld s Fld.LNK_EQ_ERASEMAX * q.2.2 < 100 *
      q.2.1)) ∧
    (∃ (s : State) (x : LnkSlot) (a : LinkLead), (s.lnk.slot = some x) ∧ (canReceive s = false ∨ acquires (lnkMode (slotEntry
      s x)) a = false)) ∧
    (∃ (s : State) (x : LnkSlot) (r : LnkRx) (p : LinkPhr), (s.lnk.slot = some x) ∧ (s.lnk.rx = some r) ∧ (r.phr = none) ∧
      (phrStatus s (slotEntry s x) p = 0)) ∧
    (∃ (s : State) (x : LnkSlot) (r : LnkRx) (p : LinkPhr), (s.lnk.slot = some x) ∧ (s.lnk.rx = some r) ∧ (r.phr = none) ∧
      (phrStatus s (slotEntry s x) p ≠ 0)) ∧
    (∃ (s : State) (x : LnkSlot) (r : LnkRx) (level : Byte), (s.lnk.slot = some x) ∧ (s.lnk.rx = some r) ∧ (flag s
      Fld.LNK_CAPTURE_EN = true) ∧ (level.toNat + 2 * fld s Fld.LNK_CAPTURE_DB ≤ r.level)) ∧
    (∃ (s : State) (x : LnkSlot) (r : LnkRx) (level : Byte), (s.lnk.slot = some x) ∧ (s.lnk.rx = some r) ∧ (flag s
      Fld.LNK_CAPTURE_EN = false ∨ r.level < level.toNat + 2 * fld s Fld.LNK_CAPTURE_DB)) ∧
    (∃ (s : State) (x : LnkSlot), (s.lnk.slot = some x) ∧ (pathState s .b = 3) ∧ (s.lnk.rx = none) ∧ (chainsRun s x = true)) ∧
    (∃ (s : State) (x : LnkSlot) (r : LnkRx) (p : LinkPhr) (o : List Byte), (s.lnk.slot = some x) ∧ (s.lnk.rx = some r) ∧
      (r.phr.isSome = true) ∧ (r.phr = some p) ∧ (rxOctets s (lnkMode (slotEntry s x)) p o = none)) ∧
    (∃ (s : State) (x : LnkSlot) (r : LnkRx) (p : LinkPhr) (o : List Byte) (b : _), (s.lnk.slot = some x) ∧ (s.lnk.rx = some
      r) ∧ (r.phr.isSome = true) ∧ (r.phr = some p) ∧ (rxOctets s (lnkMode (slotEntry s x)) p o = some b)) ∧
    (∃ (s : State) (x : LnkSlot) (r : LnkRx), (s.lnk.slot = some x) ∧ (s.lnk.rx = some r) ∧ (r.phr.isSome = true)) ∧
    (∃ (s : State) (x : LnkSlot) (r : LnkRx) (f : LinkFrame) (h : _) (n : _) (key : _), (s.lnk.slot = some x) ∧ (s.lnk.rx =
      some r) ∧ (r.phr.isSome = true) ∧ (Admissible s f.octets h n key) ∧ (mode s ≠ 2) ∧ (flintTake s (lnkWho s) = none)) ∧
    (∃ (s : State) (x : LnkSlot) (r : LnkRx) (f : LinkFrame) (h : _) (n : _) (key : _), (s.lnk.slot = some x) ∧ (s.lnk.rx =
      some r) ∧ (r.phr.isSome = true) ∧ (Admissible s f.octets h n key) ∧ (mode s ≠ 2) ∧ ((flintTake s (lnkWho s)).isSome =
      true) ∧ (s.lnk.opening = []) ∧ (ccmOpen key h.src h.fc h.level (f.octets.take (openHead h f.octets)) (f.octets.drop
      (openHead h f.octets)) = none)) ∧
    (∃ (s : State) (x : LnkSlot) (r : LnkRx) (f : LinkFrame) (h : _) (n : _) (key : _) (body : _) (mic : _), (s.lnk.slot =
      some x) ∧ (s.lnk.rx = some r) ∧ (r.phr.isSome = true) ∧ (Admissible s f.octets h n key) ∧ (mode s ≠ 2) ∧ ((flintTake s
      (lnkWho s)).isSome = true) ∧ (s.lnk.opening = []) ∧ (ccmOpen key h.src h.fc h.level (f.octets.take (openHead h
      f.octets)) (f.octets.drop (openHead h f.octets)) = some (body, mic)) ∧ (h.type = 1) ∧ ((reg s (Adr.NBR_FC n)).toNat <
      h.fc) ∧ (h.fc < (nbrOf s n).ckptFc + fld s Fld.LNK_CKPT_NBRSTEP)) ∧
    (∃ (s : State) (x : LnkSlot) (r : LnkRx) (f : LinkFrame) (h : _) (n : _) (key : _) (body : _) (mic : _), (s.lnk.slot =
      some x) ∧ (s.lnk.rx = some r) ∧ (r.phr.isSome = true) ∧ (Admissible s f.octets h n key) ∧ (mode s ≠ 2) ∧ ((flintTake s
      (lnkWho s)).isSome = true) ∧ (s.lnk.opening = []) ∧ (ccmOpen key h.src h.fc h.level (f.octets.take (openHead h
      f.octets)) (f.octets.drop (openHead h f.octets)) = some (body, mic)) ∧ (h.type = 1) ∧ (h.fc < (reg s (Adr.NBR_FC
      n)).toNat)) ∧
    (∃ (s : State) (x : LnkSlot) (r : LnkRx) (f : LinkFrame) (h : _) (n : _) (key : _) (body : _) (mic : _), (s.lnk.slot =
      some x) ∧ (s.lnk.rx = some r) ∧ (r.phr.isSome = true) ∧ (Admissible s f.octets h n key) ∧ (mode s ≠ 2) ∧ ((flintTake s
      (lnkWho s)).isSome = true) ∧ (s.lnk.opening = []) ∧ (ccmOpen key h.src h.fc h.level (f.octets.take (openHead h
      f.octets)) (f.octets.drop (openHead h f.octets)) = some (body, mic)) ∧ (h.type = 1) ∧ (h.fc = (reg s (Adr.NBR_FC
      n)).toNat) ∧ ((nbrOf s n).heard = true) ∧ ((nbrOf s n).mic = mic)) :=
  ⟨⟨{ regs := [(2864, 0x30000#32)], slate := { entries := [(0, [7#8, 3#8, 2#8, 3#8, 3#8, 0#8, 53#8, 1#8, 7#8, 0#8, 3#8, 16#8, 0#8, 0#8, 103#8, 4#8, 18#8, 3#8, 1#8, 17#8, 10#8, 12#8, 9#8, 17#8, 13#8, 90#8, 143#8, 15#8, 2#8, 3#8, 7#8, 208#8, 235#8, 82#8, 3#8, 0#8, 117#8, 249#8, 0#8, 215#8, 9#8, 1#8, 229#8, 12#8, 3#8, 15#8, 2#8, 242#8, 1#8, 0#8, 1#8, 1#8, 59#8, 2#8, 2#8, 33#8, 14#8, 2#8, 1#8, 2#8, 8#8, 145#8, 4#8, 158#8])] }, lnk := { slot := some { kind := .brx, entry := 0, rp := 0, chan := 0 } } },
    { kind := .brx, entry := 0, rp := 0, chan := 0 }, { bits := 16, stf := true, ppm10 := 1 }, 1#8, 169, 3, [255#8, 248#8], _,
    by decide +kernel, by decide +kernel, by decide +kernel, rfl, by decide +kernel⟩,
   ⟨{ regs := [(2864, 0x30000#32)], slate := { entries := [(0, [7#8, 3#8, 2#8, 3#8, 3#8, 0#8, 53#8, 1#8, 7#8, 0#8, 3#8, 16#8, 0#8, 0#8, 103#8, 4#8, 18#8, 3#8, 1#8, 17#8, 10#8, 12#8, 9#8, 17#8, 13#8, 90#8, 143#8, 15#8, 2#8, 3#8, 7#8, 208#8, 235#8, 82#8, 3#8, 0#8, 117#8, 249#8, 0#8, 215#8, 9#8, 1#8, 229#8, 12#8, 3#8, 15#8, 2#8, 242#8, 1#8, 0#8, 1#8, 1#8, 59#8, 2#8, 2#8, 33#8, 14#8, 2#8, 1#8, 2#8, 8#8, 145#8, 4#8, 158#8])] }, lnk := { slot := some { kind := .brx, entry := 0, rp := 0, chan := 0 } } },
    { kind := .brx, entry := 0, rp := 0, chan := 0 }, { bits := 16, stf := true, ppm10 := 1 }, 1#8, 169, 2, [], _,
    by decide +kernel, by decide +kernel, by decide +kernel, by decide +kernel, by decide +kernel, rfl, by decide +kernel⟩,
   ⟨{ lnk := { slot := some { kind := .data, entry := 0, rp := 0, chan := 0 } } },
    { kind := .data, entry := 0, rp := 0, chan := 0 }, { bits := 255, stf := true, ppm10 := 10 },
    by and_intros <;> decide +kernel⟩,
   ⟨{ lnk := { slot := some { kind := .brx, entry := 0, rp := 0, chan := 0 }, rx := some { level := 0, snr := 0, erased := 0, stamp := 0, at_ := 0 } } },
    { kind := .brx, entry := 0, rp := 0, chan := 0 }, { level := 0, snr := 0, erased := 0, stamp := 0, at_ := 0 },
    { modeSwitch := false, fcs2 := true, whiten := true, len := 3, mcs := 3, checkOk := true },
    by and_intros <;> decide +kernel⟩,
   ⟨{ lnk := { slot := some { kind := .rdv, entry := 0, rp := 0, chan := 0 }, rx := some { level := 0, snr := 0, erased := 0, stamp := 0, at_ := 0 } } },
    { kind := .rdv, entry := 0, rp := 0, chan := 0 }, { level := 0, snr := 0, erased := 0, stamp := 0, at_ := 0 },
    { modeSwitch := false, fcs2 := false, whiten := false, len := 914, mcs := 5, checkOk := true },
    by and_intros <;> decide +kernel⟩,
   ⟨{ regs := [(6913, 260#32)], lnk := { slot := some { kind := .data, entry := 0, rp := 0, chan := 0 }, rx := some { level := 10, snr := 0, erased := 0, stamp := 0, at_ := 0 } } },
    { kind := .data, entry := 0, rp := 0, chan := 0 }, { level := 10, snr := 0, erased := 0, stamp := 0, at_ := 0 }, 2#8,
    by and_intros <;> decide +kernel⟩,
   ⟨{ lnk := { slot := some { kind := .data, entry := 0, rp := 0, chan := 0 }, rx := some { level := 0, snr := 0, erased := 0, stamp := 0, at_ := 0 } } },
    { kind := .data, entry := 0, rp := 0, chan := 0 }, { level := 0, snr := 0, erased := 0, stamp := 0, at_ := 0 }, 243#8,
    by and_intros <;> decide +kernel⟩,
   ⟨{ regs := [(2864, 0x30000#32)], lnk := { slot := some { kind := .brx, entry := 0, rp := 0, chan := 0 } } },
    { kind := .brx, entry := 0, rp := 0, chan := 0 }, by and_intros <;> decide +kernel⟩,
   ⟨{ lnk := { slot := some { kind := .data, entry := 0, rp := 0, chan := 0 }, rx := some { level := 0, snr := 0, erased := 0, stamp := 0, at_ := 0, phr := some { modeSwitch := false, fcs2 := false, whiten := false, len := 50, mcs := 2, checkOk := true } } } },
    { kind := .data, entry := 0, rp := 0, chan := 0 },
    { level := 0, snr := 0, erased := 0, stamp := 0, at_ := 0, phr := some { modeSwitch := false, fcs2 := false, whiten := false, len := 50, mcs := 2, checkOk := true } },
    { modeSwitch := false, fcs2 := false, whiten := false, len := 50, mcs := 2, checkOk := true }, [83#8, 10#8, 255#8, 1#8],
    by and_intros <;> decide +kernel⟩,
   ⟨rxSt, { kind := .data, entry := 0, rp := 0, chan := 0 },
    { level := 0, snr := 0, erased := 0, stamp := 0, at_ := 0, phr := some ⟨false, true, false, 5, 0, true⟩ }, ⟨false, true,
    false, 5, 0, true⟩, [1, 2, 3] ++ fcsOf 2 [1, 2, 3], [1, 2, 3], by and_intros <;> decide +kernel⟩,
   ⟨{ lnk := { slot := some { kind := .data, entry := 0, rp := 0, chan := 0 }, rx := some { level := 0, snr := 0, erased := 0, stamp := 0, at_ := 0, phr := some { modeSwitch := false, fcs2 := false, whiten := false, len := 50, mcs := 2, checkOk := true } } } },
    { kind := .data, entry := 0, rp := 0, chan := 0 },
    { level := 0, snr := 0, erased := 0, stamp := 0, at_ := 0, phr := some { modeSwitch := false, fcs2 := false, whiten := false, len := 50, mcs := 2, checkOk := true } },
    by and_intros <;> decide +kernel⟩,
   ⟨lnkSt 0 lnkBusy, { kind := .data, entry := 0, rp := 0, chan := 0 },
    { level := 0, snr := 0, erased := 0, stamp := 0, at_ := 0, phr := some ⟨false, true, false, 10, 0, true⟩ }, ⟨oct⟩, hdr, 0,
    k16, by decide +kernel, by decide +kernel, by decide +kernel, oct_admissible _ _ (by decide +kernel) (by decide +kernel)
    (by decide +kernel) (by decide +kernel) (by decide +kernel), by and_intros <;> decide +kernel⟩,
   ⟨lnkSt 0 {}, { kind := .data, entry := 0, rp := 0, chan := 0 },
    { level := 0, snr := 0, erased := 0, stamp := 0, at_ := 0, phr := some ⟨false, true, false, 10, 0, true⟩ }, ⟨oct.set 29
    0⟩, hdr, 0, k16, by decide +kernel, by decide +kernel, by decide +kernel, oct_admissible _ _ (by decide +kernel)
    (by decide +kernel) (by decide +kernel) (by decide +kernel) (by decide +kernel), by and_intros <;> decide +kernel⟩,
   ⟨lnkSt 4 {}, { kind := .data, entry := 0, rp := 0, chan := 0 },
    { level := 0, snr := 0, erased := 0, stamp := 0, at_ := 0, phr := some ⟨false, true, false, 10, 0, true⟩ }, ⟨oct⟩, hdr, 0,
    k16, [1, 2, 3], [159, 202, 50, 170], by decide +kernel, by decide +kernel, by decide +kernel, oct_admissible _ _
    (by decide +kernel) (by decide +kernel) (by decide +kernel) (by decide +kernel) (by decide +kernel),
    by and_intros <;> decide +kernel⟩,
   ⟨lnkSt 6 {}, { kind := .data, entry := 0, rp := 0, chan := 0 },
    { level := 0, snr := 0, erased := 0, stamp := 0, at_ := 0, phr := some ⟨false, true, false, 10, 0, true⟩ }, ⟨oct⟩, hdr, 0,
    k16, [1, 2, 3], [159, 202, 50, 170], by decide +kernel, by decide +kernel, by decide +kernel, oct_admissible _ _
    (by decide +kernel) (by decide +kernel) (by decide +kernel) (by decide +kernel) (by decide +kernel),
    by and_intros <;> decide +kernel⟩,
   ⟨lnkSt 5 {}, { kind := .data, entry := 0, rp := 0, chan := 0 },
    { level := 0, snr := 0, erased := 0, stamp := 0, at_ := 0, phr := some ⟨false, true, false, 10, 0, true⟩ }, ⟨oct⟩, hdr, 0,
    k16, [1, 2, 3], [159, 202, 50, 170], by decide +kernel, by decide +kernel, by decide +kernel, oct_admissible _ _
    (by decide +kernel) (by decide +kernel) (by decide +kernel) (by decide +kernel) (by decide +kernel),
    by and_intros <;> decide +kernel⟩⟩

theorem witness_SendQueueFillsAndEmpties :
    (∃ (s : State) (lvl : Level) (v : Word), (permitted s lvl Adr.LNK_TXCMD true = true) ∧ (bitsOf v 31 31 = 1) ∧ (bitsOf v 28
      28 = 0) ∧ (bitsOf v 23 13 = 0 ∨ txLimit s < bitsOf v 23 13)) ∧
    (∃ (s : State) (lvl : Level) (v : Word), (permitted s lvl Adr.LNK_TXCMD true = true) ∧ (bitsOf v 31 31 = 1) ∧ (bitsOf v 28
      28 = 0) ∧ (0 < bitsOf v 23 13) ∧ (bitsOf v 23 13 ≤ txLimit s) ∧ (bitsOf v 30 30 = 1) ∧ (fld s Fld.LNK_TXDEST_DEST =
      0xFFFF)) ∧
    (∃ (s : State) (lvl : Level) (v : Word), (permitted s lvl Adr.LNK_TXCMD true = true) ∧ (bitsOf v 31 31 = 1) ∧ (bitsOf v 28
      28 = 0) ∧ (0 < bitsOf v 23 13) ∧ (bitsOf v 23 13 ≤ txLimit s) ∧ (bitsOf v 30 30 = 0 ∨ fld s Fld.LNK_TXDEST_DEST ≠
      0xFFFF) ∧ (flag s Fld.LNK_DATA_EN = false) ∧ (flag s Fld.LNK_RDV_EN = false)) ∧
    (∃ (s : State) (lvl : Level) (v : Word), (permitted s lvl Adr.LNK_TXCMD true = true) ∧ (bitsOf v 31 31 = 1) ∧ (bitsOf v 28
      28 = 0) ∧ (0 < bitsOf v 23 13) ∧ (bitsOf v 23 13 ≤ txLimit s) ∧ (bitsOf v 30 30 = 0 ∨ fld s Fld.LNK_TXDEST_DEST ≠
      0xFFFF) ∧ (flag s Fld.LNK_DATA_EN = true ∨ flag s Fld.LNK_RDV_EN = true) ∧ (8 ≤ s.lnk.queue.length)) ∧
    (∃ (s : State) (lvl : Level) (v : Word), (permitted s lvl Adr.LNK_TXCMD true = true) ∧ (bitsOf v 31 31 = 1) ∧ (bitsOf v 28
      28 = 0) ∧ (0 < bitsOf v 23 13) ∧ (bitsOf v 23 13 ≤ txLimit s) ∧ (bitsOf v 30 30 = 0 ∨ fld s Fld.LNK_TXDEST_DEST ≠
      0xFFFF) ∧ (flag s Fld.LNK_DATA_EN = true ∨ flag s Fld.LNK_RDV_EN = true) ∧ (s.lnk.queue.length < 8) ∧ (s.lnk.slot =
      none) ∧ (withheldNow s = none)) ∧
    (∃ (s : State) (lvl : Level), (permitted s lvl Adr.LNK_TXCMD true = true)) ∧
    (∃ (s : State) (lvl : Level) (pos : Fin 8) (f : LnkTx), (permitted s lvl Adr.LNK_TXCMD true = true) ∧
      (s.lnk.queue[pos.val]? = some f) ∧ (expired s f = true) ∧ (0 < pos.val ∨ headBegun s = false)) ∧
    (∃ (s : State) (lvl : Level) (pos : Fin 8) (f : LnkTx), (permitted s lvl Adr.LNK_TXCMD true = true) ∧
      (s.lnk.queue[pos.val]? = some f) ∧ (expired s f = false)) :=
  ⟨⟨{}, .supervisor, 0xaafae000#32, by and_intros <;> decide +kernel⟩,
   ⟨{ regs := [(6938, 0x4a000#32)], slate := { entries := [(1, [7#8, 0#8, 8#8, 2#8, 1#8, 0#8, 63#8, 1#8, 1#8, 1#8, 17#8, 19#8, 1#8, 0#8, 174#8, 2#8, 72#8, 4#8, 0#8, 0#8, 19#8, 8#8, 139#8, 34#8, 2#8, 5#8, 2#8, 3#8, 10#8, 218#8, 3#8, 9#8, 22#8, 1#8, 7#8, 162#8, 18#8, 15#8, 17#8, 6#8, 13#8, 0#8, 22#8, 202#8, 59#8, 3#8, 3#8, 1#8, 39#8, 1#8, 1#8, 156#8, 165#8, 10#8, 170#8, 3#8, 129#8, 5#8, 10#8, 0#8, 17#8, 100#8, 198#8, 166#8])] } },
    .supervisor, 0xe0fae000#32, by and_intros <;> decide +kernel⟩,
   ⟨{}, .supervisor, 0x81014000#32, by and_intros <;> decide +kernel⟩,
   ⟨{ regs := [(6938, 0x8000a000#32)], slate := { entries := [(0, [6#8, 0#8, 209#8, 1#8, 1#8, 0#8, 1#8, 1#8, 1#8, 17#8, 74#8, 3#8, 0#8, 255#8, 2#8, 2#8, 1#8, 15#8, 3#8, 185#8, 49#8, 0#8, 173#8, 1#8, 95#8, 3#8, 3#8, 0#8, 13#8, 10#8, 2#8, 2#8, 231#8, 2#8, 5#8, 10#8, 0#8, 9#8, 0#8, 1#8, 243#8, 2#8, 1#8, 3#8, 17#8, 1#8, 56#8, 220#8, 141#8, 9#8, 33#8, 119#8, 9#8, 3#8, 3#8, 12#8, 1#8, 3#8, 4#8, 0#8, 66#8, 3#8, 26#8, 166#8])] }, lnk := { queue := List.replicate 8 { payload := [], dest := 0, ar := false, anytime := false, tag := 0, life := 0, queuedAt := 0, seq := 0 } } },
    .supervisor, 0xaafae000#32, by and_intros <;> decide +kernel⟩,
   ⟨{ regs := [(6937, 0x83214000#32)] }, .firmware, 0xae002000#32, by and_intros <;> decide +kernel⟩,
   ⟨{}, .firmware, by decide +kernel⟩,
   ⟨{ clk := { now := 500000000 }, lnk := { queue := [{ payload := [], dest := 0, ar := false, anytime := false, tag := 0, life := 1, queuedAt := 0, seq := 0 }] } },
    .supervisor, 0, { payload := [], dest := 0, ar := false, anytime := false, tag := 0, life := 1, queuedAt := 0, seq := 0 },
    by and_intros <;> decide +kernel⟩,
   ⟨{ lnk := { queue := [{ payload := [], dest := 0, ar := false, anytime := false, tag := 0, life := 0, queuedAt := 0, seq := 0 }, { payload := [], dest := 0, ar := false, anytime := false, tag := 0, life := 0, queuedAt := 0, seq := 0 }, { payload := [], dest := 0, ar := false, anytime := false, tag := 0, life := 0, queuedAt := 0, seq := 0 }] } },
    .firmware, 2, { payload := [], dest := 0, ar := false, anytime := false, tag := 0, life := 0, queuedAt := 0, seq := 0 },
    by and_intros <;> decide +kernel⟩⟩

theorem witness_AttemptsListenSendAndWait :
    (∃ (s : State) (x : LnkSlot) (be : _) (nb : _) (f : _) (q : _), (s.lnk.slot = some x) ∧ (s.lnk.act = .listen be nb true) ∧
      (s.lnk.queue = f :: q) ∧ (pathState s .b = 3) ∧ (nb + 1 ≤ fld s Fld.LNK_CCA_MAXBO)) ∧
    (∃ (s : State) (x : LnkSlot) (be : _) (nb : _) (f : _), (s.lnk.slot = some x) ∧ (s.lnk.act = .listen be nb true) ∧
      (s.lnk.queue = [f]) ∧ (pathState s .b = 3) ∧ (fld s Fld.LNK_CCA_MAXBO < nb + 1)) ∧
    (∃ (s : State) (x : LnkSlot) (be : _) (nb : _) (f : _) (q : _) (fc : _) (octets : _), (s.lnk.slot = some x) ∧ (s.lnk.act =
      .listen be nb false) ∧ (s.lnk.queue = f :: q) ∧ (f.secured = some (fc, octets)) ∧ (pathState s .b = 3) ∧ (powerOk s
      (rpPort s x.rp) (ePower (slotEntry s x)) = true)) ∧
    (∃ (s : State) (x : LnkSlot) (be : _) (nb : _) (f : _) (q : _), (s.lnk.slot = some x) ∧ (s.lnk.act = .backoff be nb) ∧
      (s.lnk.queue = f :: q) ∧ (slotUntil s < s.clk.now + us (attemptUs s (slotEntry s x) f))) ∧
    (∃ (s : State) (x : LnkSlot) (be : _) (nb : _) (f : _) (q : _), (s.lnk.slot = some x) ∧ (s.lnk.act = .backoff be nb) ∧
      (s.lnk.queue = f :: q) ∧ (s.clk.now + us (attemptUs s (slotEntry s x) f) ≤ slotUntil s) ∧ (sbFits s x.chan (airtime s
      (slotEntry s x) (dataPsdu s (lnkMode (slotEntry s x)) f.payload.length)) = true)) ∧
    (∃ (s : State) (x : LnkSlot) (f : _) (q : _), (s.lnk.slot = some x) ∧ (s.lnk.act = .tx) ∧ (s.lnk.queue = f :: q) ∧ (f.ar =
      true) ∧ (pathState s .b = 4) ∧ (s.lnk.acking = false)) ∧
    (∃ (s : State) (x : LnkSlot), (s.lnk.slot = some x) ∧ (pathState s .b = 4) ∧ (s.lnk.acking = true)) ∧
    (∃ (s : State) (x : LnkSlot) (f : _) (q : _), (s.lnk.slot = some x) ∧ (s.lnk.act = .ackWait) ∧ (s.lnk.queue = f :: q) ∧
      (f.attempts ≤ fld s Fld.LNK_MACCFG_MAXRETRY)) ∧
    (∃ (s : State) (x : LnkSlot) (f : _), (s.lnk.slot = some x) ∧ (s.lnk.act = .ackWait) ∧ (s.lnk.queue = [f]) ∧ (fld s
      Fld.LNK_MACCFG_MAXRETRY < f.attempts)) ∧
    (∃ (s : State) (x : LnkSlot) (seq : _) (due : _), (s.lnk.slot = some x) ∧ (s.lnk.owed = some (seq, due)) ∧ (due <
      s.clk.now)) ∧
    (∃ (s : State) (x : LnkSlot) (seq : _) (due : _), (s.lnk.slot = some x) ∧ (s.lnk.owed = some (seq, due)) ∧ (s.clk.now ≤
      due) ∧ (pathState s .b = 3) ∧ (powerOk s (rpPort s x.rp) (ePower (slotEntry s x)) = true)) :=
  ⟨⟨{ regs := [(2864, 0x30000#32)], lnk := { queue := [{ payload := [], dest := 0, ar := false, anytime := false, tag := 0, life := 0, queuedAt := 0, seq := 0 }], act := .listen 3 0 true, slot := some { kind := .btx, entry := 0, rp := 0, chan := 0 } } },
    { kind := .btx, entry := 0, rp := 0, chan := 0 }, 3, 0,
    { payload := [], dest := 0, ar := false, anytime := false, tag := 0, life := 0, queuedAt := 0, seq := 0 }, [],
    by and_intros <;> decide +kernel⟩,
   ⟨{ regs := [(2864, 0x30000#32), (6932, 0xff053100#32)], lnk := { queue := [{ payload := [], dest := 0, ar := false, anytime := false, tag := 0, life := 0, queuedAt := 0, seq := 0 }], act := .listen 3 0 true, slot := some { kind := .rdv, entry := 0, rp := 0, chan := 0 } } },
    { kind := .rdv, entry := 0, rp := 0, chan := 0 }, 3, 0,
    { payload := [], dest := 0, ar := false, anytime := false, tag := 0, life := 0, queuedAt := 0, seq := 0 },
    by and_intros <;> decide +kernel⟩,
   ⟨{ regs := [(2864, 0x30000#32), (Adr.RAD_PWR 0, 0x80000000)], lnk := { queue := [{ payload := [], dest := 0, ar := false, anytime := false, tag := 0, life := 0, queuedAt := 0, seq := 0, secured := some (5, [1#8, 2#8, 3#8, 4#8]) }], act := .listen 3 1 false, slot := some { kind := .brx, entry := 0, rp := 0, chan := 0 } } },
    { kind := .brx, entry := 0, rp := 0, chan := 0 }, 3, 1,
    { payload := [], dest := 0, ar := false, anytime := false, tag := 0, life := 0, queuedAt := 0, seq := 0, secured := some (5, [1#8, 2#8, 3#8, 4#8]) },
    [], 5, [1#8, 2#8, 3#8, 4#8], by and_intros <;> decide +kernel⟩,
   ⟨{ lnk := { queue := [{ payload := [], dest := 0, ar := false, anytime := false, tag := 0, life := 0, queuedAt := 0, seq := 0 }], act := .backoff 3 1, slot := some { kind := .data, entry := 0, rp := 0, chan := 0 } } },
    { kind := .data, entry := 0, rp := 0, chan := 0 }, 3, 1,
    { payload := [], dest := 0, ar := false, anytime := false, tag := 0, life := 0, queuedAt := 0, seq := 0 }, [],
    by and_intros <;> decide +kernel⟩,
   ⟨{ regs := [(6952, 0x3fff0000#32)], sched := { grants := [{ who := .linkSlot 5, cls := .c2, mask := 0, kind := .external, until_ := 100008709 }] }, lnk := { queue := [{ payload := [], dest := 0, ar := false, anytime := false, tag := 0, life := 0, queuedAt := 0, seq := 0 }], act := .backoff 3 1, slot := some { kind := .data, entry := 0, rp := 0, chan := 0 } } },
    { kind := .data, entry := 0, rp := 0, chan := 0 }, 3, 1,
    { payload := [], dest := 0, ar := false, anytime := false, tag := 0, life := 0, queuedAt := 0, seq := 0 }, [],
    by and_intros <;> decide +kernel⟩,
   ⟨{ regs := [(2864, 0x40000#32)], lnk := { queue := [{ payload := [], dest := 0, ar := true, anytime := false, tag := 0, life := 0, queuedAt := 0, seq := 0 }], act := .tx, slot := some { kind := .rdv, entry := 0, rp := 0, chan := 0 } } },
    { kind := .rdv, entry := 0, rp := 0, chan := 0 },
    { payload := [], dest := 0, ar := true, anytime := false, tag := 0, life := 0, queuedAt := 0, seq := 0 }, [],
    by and_intros <;> decide +kernel⟩,
   ⟨{ regs := [(2864, 0x40000#32)], lnk := { slot := some { kind := .brx, entry := 0, rp := 0, chan := 0 }, acking := true } },
    { kind := .brx, entry := 0, rp := 0, chan := 0 }, by and_intros <;> decide +kernel⟩,
   ⟨{ lnk := { queue := [{ payload := [], dest := 0, ar := false, anytime := false, tag := 0, life := 0, queuedAt := 0, seq := 0 }], act := .ackWait, slot := some { kind := .rdv, entry := 0, rp := 0, chan := 0 } } },
    { kind := .rdv, entry := 0, rp := 0, chan := 0 },
    { payload := [], dest := 0, ar := false, anytime := false, tag := 0, life := 0, queuedAt := 0, seq := 0 }, [],
    by and_intros <;> decide +kernel⟩,
   ⟨{ lnk := { queue := [{ payload := [], dest := 0, ar := false, anytime := false, tag := 0, life := 0, queuedAt := 0, seq := 0, attempts := 9 }], act := .ackWait, slot := some { kind := .rdv, entry := 0, rp := 0, chan := 0 } } },
    { kind := .rdv, entry := 0, rp := 0, chan := 0 },
    { payload := [], dest := 0, ar := false, anytime := false, tag := 0, life := 0, queuedAt := 0, seq := 0, attempts := 9 },
    by and_intros <;> decide +kernel⟩,
   ⟨{ clk := { now := 500000000 }, lnk := { slot := some { kind := .rdv, entry := 0, rp := 0, chan := 0 }, owed := some (3, 8) } },
    { kind := .rdv, entry := 0, rp := 0, chan := 0 }, 3, 8, by and_intros <;> decide +kernel⟩,
   ⟨{ regs := [(2864, 0x30000#32), (Adr.RAD_PWR 0, 0x80000000)], lnk := { slot := some { kind := .data, entry := 0, rp := 0, chan := 0 }, owed := some (3, 255) } },
    { kind := .data, entry := 0, rp := 0, chan := 0 }, 3, 255, by and_intros <;> decide +kernel⟩⟩

theorem witness_LinkSlotsBeaconsBudgets :
    (∃ (s : State) (e : Entry) (rp : Nat) (u : State) (x : LnkSlot), (linkEntry s (fld s Fld.LNK_DATA_ENTRY) = some e) ∧ (flag
      s Fld.LNK_RDV_EN = true) ∧ (nextLeaf s (fld s Fld.LNK_DATA_ENTRY) e = (some rp, u)) ∧ (s.sched.requests = []) ∧
      ((s.sched.grants.any fun g => g.scheduled) = false) ∧ (s.lnk.slot = none) ∧ (x =
      { kind := .rdv, entry := fld s Fld.LNK_DATA_ENTRY, rp := rp, chan := rdvChan u e (q64 s + q64Us 20000), free := q64 s + q64Us 20000 })
      ∧ (foremostDue u x (1000 * fld s Fld.LNK_RDV_LEN) = false) ∧ (mayPost s (.linkSlot 5) = true)) ∧
    (∃ (s : State) (e : Entry) (rp : Nat) (u : State) (x : LnkSlot), (linkEntry s (fld s Fld.LNK_DATA_ENTRY) = some e) ∧ (flag
      s Fld.LNK_RDV_EN = true) ∧ (nextLeaf s (fld s Fld.LNK_DATA_ENTRY) e = (some rp, u)) ∧ (s.sched.requests = []) ∧
      ((s.sched.grants.any fun g => g.scheduled) = false) ∧ (s.lnk.slot = none) ∧ (x =
      { kind := .rdv, entry := fld s Fld.LNK_DATA_ENTRY, rp := rp, chan := rdvChan u e (q64 s + q64Us 20000), free := q64 s + q64Us 20000 })
      ∧ (foremostDue u x (1000 * fld s Fld.LNK_RDV_LEN) = true)) ∧
    (∃ (s : State), (flag s Fld.LNK_RDV_EN = false)) ∧
    (∃ (s : State) (k : Fin 4) (e : Entry) (bi : Nat) (rp : Nat) (free : Nat) (seg : Nat) (y : LnkNbr) (u : State) (v : State)
      (x : LnkSlot), (linkEntry s (fld s Fld.LNK_BCN_ENTRY) = some e) ∧ (flag s (Fld.LNK_SRC_EN k) = true) ∧ (y = nbrOf s
      (srcNbr s k)) ∧ (y.track = 5) ∧ (y.window = false) ∧ (y.nextBi = some bi) ∧ (mode s = 3 ∨ mode s = 4) ∧
      (s.sched.requests = []) ∧ (s.lnk.slot = none) ∧ (mayPost s (.linkSlot (1 + k)) = true) ∧ (free = (windowFree s y
      (nextBeacon s y)).toNat) ∧ (seg = min 100000 (brxLength s y e)) ∧ (u = setNbr s (srcNbr s k)
      { y with window := true, left := brxLength s y e - seg, got := false, segAt := clkOfQ64 s free + us seg }) ∧ (nextLeaf u
      (fld s Fld.LNK_BCN_ENTRY) e = (some rp, v)) ∧ (x =
      { kind := .brx, src := k, entry := fld s Fld.LNK_BCN_ENTRY, rp := rp, chan := eChan e 0, free := free }) ∧ (foremostDue
      v x seg = false) ∧ (s.clk.now + ms 10 ≤ clkOfQ64 s free) ∧ ((s.sched.grants.any fun g => g.scheduled) = false)) ∧
    (∃ (s : State) (k : Fin 4), ((nbrOf s (srcNbr s k)).track ≠ 5)) ∧
    (∃ (s : State) (k : Fin 4), (flag s (Fld.LNK_SRC_EN k) = true) ∧ ((nbrOf s (srcNbr s k)).window = true) ∧ ((nbrOf s
      (srcNbr s k)).got = false)) ∧
    (∃ (s : State) (k : Fin 4), (flag s (Fld.LNK_SRC_EN k) = false ∨ (nbrOf s (srcNbr s k)).window = false)) ∧
    (∃ (s : State) (x : _), (s.lnk.slot = some x) ∧ (s.lnk.act = .listenBeacon true)) ∧
    (∃ (s : State) (x : _) (b : _), (s.lnk.slot = some x) ∧ (s.lnk.act = .listenBeacon b) ∧ (s.lnk.beaconFc = none) ∧
      (withheldNow s = none) ∧ (s.lnk.next < s.lnk.ckptV + 4096) ∧ ((flintTake s (lnkWho s)).isSome = true) ∧ (s.lnk.next + 1
      < 2 ^ 32)) ∧
    (∃ (s : State) (x : _) (b : _), (s.lnk.slot = some x) ∧ (s.lnk.act = .listenBeacon b) ∧ (s.lnk.beaconFc = none) ∧
      (withheldNow s = none) ∧ (s.lnk.next < s.lnk.ckptV + 4096) ∧ (flintTake s (lnkWho s) = none)) ∧
    (∃ (s : State) (x : _) (fc : _), (s.lnk.slot = some x) ∧ (s.lnk.act = .listenBeacon false) ∧ (pathState s .b = 3) ∧
      (withheldNow s = none) ∧ (s.lnk.beaconFc = some fc) ∧ (powerOk s (rpPort s x.rp) (ePower (slotEntry s x)) = true)) ∧
    (∃ (s : State) (x : _), (s.lnk.slot = some x) ∧ (s.lnk.act = .listenBeacon false) ∧ (pathState s .b = 3) ∧ (s.lnk.beaconFc
      = none ∨ (withheldNow s).isSome = true)) ∧
    (∃ (s : State), (flag s Fld.LNK_ORIGIN_HOLD = false)) ∧
    (∃ (s : State), (flag s Fld.LNK_ORIGIN_HOLD = true) ∧ (flag s Fld.LNK_BCN_CANORIG = false ∨ flag s Fld.LNK_BCN_EN =
      false)) ∧
    (∃ (s : State), (flag s Fld.LNK_ORIGIN_HOLD = true) ∧ (flag s Fld.LNK_BCN_CANORIG = true) ∧ (flag s Fld.LNK_BCN_EN =
      true)) ∧
    (∃ (s : State), (jnlRuns s = false)) ∧
    (∃ (s : State), (jnlRuns s = true) ∧ (s.jnl.fcDue = true ∨ s.jnl.dutyDue = true)) ∧
    (∃ (s : State) (r : _), (r = mspRequest .journal .c3) ∧ (jnlRuns s = true) ∧ (s.jnl.fcDue = false) ∧ (s.jnl.dutyDue =
      false) ∧ (turnNow s r = true)) ∧
    (∃ (s : State) (r : _), (r = mspRequest .journal .c3) ∧ (jnlRuns s = true) ∧ (s.jnl.fcDue = false) ∧ (s.jnl.dutyDue =
      false) ∧ (turnNow s r = false)) :=
  ⟨⟨rdvSt, linkE, 0, (nextLeaf rdvSt 2 linkE).2, _, by decide +kernel, by decide +kernel, by decide +kernel, by decide +kernel,
    by decide +kernel, by decide +kernel, rfl, by and_intros <;> decide +kernel⟩,
   ⟨rdvLate, linkE, 0, (nextLeaf rdvLate 2 linkE).2, _, by decide +kernel, by decide +kernel, by decide +kernel,
    by decide +kernel, by decide +kernel, by decide +kernel, rfl, by decide +kernel⟩,
   ⟨{}, by decide +kernel⟩,
   ⟨brxSt, 0, linkE, 4, 0, _, _, _, _, (nextLeaf (setNbr brxSt (srcNbr brxSt 0)
    { nbrOf brxSt (srcNbr brxSt 0) with window := true, left := brxLength brxSt (nbrOf brxSt (srcNbr brxSt 0)) linkE - min 100000 (brxLength brxSt (nbrOf brxSt (srcNbr brxSt 0)) linkE), got := false, segAt := clkOfQ64 brxSt (windowFree brxSt (nbrOf brxSt (srcNbr brxSt 0)) (nextBeacon brxSt (nbrOf brxSt (srcNbr brxSt 0)))).toNat + us (min 100000 (brxLength brxSt (nbrOf brxSt (srcNbr brxSt 0)) linkE)) })
    2 linkE).2, _, by decide +kernel, by decide +kernel, rfl, by decide +kernel, by decide +kernel, by decide +kernel,
    by decide +kernel, by decide +kernel, by decide +kernel, by decide +kernel, rfl, rfl, rfl, by decide +kernel, rfl,
    by and_intros <;> decide +kernel⟩,
   ⟨{}, 2, by decide +kernel⟩,
   ⟨{ regs := [(6946, 0xc0000001#32)], lnk := { nbrs := [(1, { mic := [75#8, 211#8, 250#8, 241#8], node := 3, track := 5, missed := 17, search := 92, hops := 2, level := 16, heardAt := 65535, epoch := 2, origin := 201, startAt := -117, window := true, left := 748746, segAt := 9 })] } },
    2, by and_intros <;> decide +kernel⟩,
   ⟨{}, 2, by decide +kernel⟩,
   ⟨{ lnk := { act := .listenBeacon true, slot := some { kind := .btx, entry := 0, rp := 0, chan := 0 } } },
    { kind := .btx, entry := 0, rp := 0, chan := 0 }, by and_intros <;> decide +kernel⟩,
   ⟨{ lnk := { act := .listenBeacon false, slot := some { kind := .data, entry := 0, rp := 0, chan := 0 } } },
    { kind := .data, entry := 0, rp := 0, chan := 0 }, false, by and_intros <;> decide +kernel⟩,
   ⟨{ regs := [(32, 0x11001100#32)], sched := { grants := [{ who := .linkSlot 5, cls := .c2, mask := 18, kind := .hfSession }, { who := .tagEngine, cls := .c2, mask := 256, kind := .hfSession }] }, lnk := { act := .listenBeacon false, slot := some { kind := .rdv, entry := 0, rp := 0, chan := 0 } } },
    { kind := .rdv, entry := 0, rp := 0, chan := 0 }, false, by and_intros <;> decide +kernel⟩,
   ⟨{ regs := [(2864, 0x30000#32), (Adr.RAD_PWR 0, 0x80000000)], lnk := { act := .listenBeacon false, slot := some { kind := .btx, entry := 0, rp := 0, chan := 0 }, beaconFc := some 5 } },
    { kind := .btx, entry := 0, rp := 0, chan := 0 }, 5, by and_intros <;> decide +kernel⟩,
   ⟨{ regs := [(2864, 0x30000#32)], lnk := { act := .listenBeacon false, slot := some { kind := .btx, entry := 0, rp := 0, chan := 0 } } },
    { kind := .btx, entry := 0, rp := 0, chan := 0 }, by and_intros <;> decide +kernel⟩,
   ⟨{}, by decide +kernel⟩,
   ⟨{ regs := [(6985, 184#32)] }, by and_intros <;> decide +kernel⟩,
   ⟨{ regs := [(6933, 0xa041ff80#32), (6985, 0xffff0358#32)] }, by and_intros <;> decide +kernel⟩,
   ⟨{}, by decide +kernel⟩,
   ⟨{ regs := [(10818, 0x80000000#32)], jnl := { dutyDue := true } }, by and_intros <;> decide +kernel⟩,
   ⟨{ regs := [(10818, 0x80000000#32)] }, _, rfl, by and_intros <;> decide +kernel⟩,
   ⟨{ regs := [(16, 0xf005#32), (32, 0x11081100#32), (10818, 0x80000000#32)] }, _, rfl, by and_intros <;> decide +kernel⟩⟩

theorem witness_TimerControlCommandsAct :
    (∃ (s : State) (lvl : Level) (n : Fin 16) (g : Nat), (permitted s lvl (Adr.TMR_CTRL n) true = true) ∧ (g = (tmr s
      n).cyc.gcmd)) ∧
    (∃ (s : State) (lvl : Level) (n : Fin 16), (permitted s lvl (Adr.TMR_CTRL n) true = true) ∧ ((tmr s n).cyc.gcmd = 0)) ∧
    (∃ (s : State) (lvl : Level), (permitted s lvl Adr.TMR_GCMD true = true)) ∧
    (∃ (s : State) (lvl : Level), (permitted s lvl Adr.TMR_SNAP true = true)) :=
  ⟨⟨{}, .firmware, 2, _, by decide +kernel, rfl⟩,
   ⟨{}, .firmware, 2, by and_intros <;> decide +kernel⟩,
   ⟨{}, .firmware, by decide +kernel⟩,
   ⟨{}, .firmware, by decide +kernel⟩⟩

theorem witness_TimerRegistersAndCaptures :
    (∃ (s : State) (lvl : Level) (n : Fin 16), (permitted s lvl (Adr.TMR_CNT n) true = true)) ∧
    (∃ (s : State) (lvl : Level) (n : Fin 16), (permitted s lvl (Adr.TMR_BUF n) true = true)) ∧
    (∃ (s : State) (lvl : Level) (n : Fin 16) (k : Fin 4), (permitted s lvl (Adr.TMR_CMP n k) true = true)) ∧
    (∃ (s : State) (lvl : Level) (m : Fin 8), (permitted s lvl (Adr.TMR_TOUT m) true = true)) ∧
    (∃ (s : State) (n : Fin 16), (tmrPowered s n = false ∨ (tmr s n).cyc.evts.testBit 5 = true ∨ 9 < fld s
      (Fld.TMR_CCFG_CAPSRC n) ∨ (fld s (Fld.TMR_CCFG_CAPSRC n) ≤ 7 ∧ tinEdge s (fld s (Fld.TMR_CCFG_CAPSRC n)) (fld s
      (Fld.TMR_CCFG_CAPEDGE n)) = false) ∨ (fld s (Fld.TMR_CCFG_CAPSRC n) = 8 ∧ (tmr s (fld s (Fld.TMR_TRIG_ASRC
      n))).cyc.evts.testBit (fld s (Fld.TMR_TRIG_AEVT n)) = false) ∨ (fld s (Fld.TMR_CCFG_CAPSRC n) = 9 ∧ (tmr s (fld s
      (Fld.TMR_TRIG_BSRC n))).cyc.evts.testBit (fld s (Fld.TMR_TRIG_BEVT n)) = false))) ∧
    (∃ (s : State) (n : Fin 16), (captureDue s n = true)) ∧
    (∃ (s : State) (lvl : Level) (n : Fin 16), (permitted s lvl (Adr.TMR_CAP n) false = true) ∧ ((tmr s n).caps = [])) ∧
    (∃ (s : State) (lvl : Level) (n : Fin 16), (permitted s lvl (Adr.TMR_CAP n) false = true) ∧ ((tmr s n).caps ≠ []) ∧ ((tmr
      s n).cyc.lost = none)) ∧
    (∃ (s : State) (lvl : Level) (n : Fin 16) (v : _) (ovr : _) (irq : _), (permitted s lvl (Adr.TMR_CAP n) false = true) ∧
      ((tmr s n).caps ≠ []) ∧ ((tmr s n).cyc.lost = some (v, ovr, irq))) ∧
    (∃ (s : State) (lvl : Level) (n : Fin 16), (permitted s lvl (Adr.TMR_CTRL n) true = true) ∧ ((tmr s n).cyc.gcmd = 0)) :=
  ⟨⟨{}, .firmware, 2, by decide +kernel⟩,
   ⟨{}, .firmware, 2, by decide +kernel⟩,
   ⟨{}, .user, 7, 1, by decide +kernel⟩,
   ⟨{}, .firmware, 2, by decide +kernel⟩,
   ⟨{}, 14, by decide +kernel⟩,
   ⟨{ regs := [(1058, 0xc0000f1#32)], pins := { tin := #v[1#8, 13#8, 25#8, 2#8] } }, 2, by decide +kernel⟩,
   ⟨{}, .user, 14, by and_intros <;> decide +kernel⟩,
   ⟨{ tmr := ((Vector.replicate 16 {}).set 2 { caps := [16#32, 0xc6e92ed6#32, 7#32, 0xdd15aba8#32] }) }, .firmware, 2,
    by and_intros <;> decide +kernel⟩,
   ⟨{ tmr := ((Vector.replicate 16 {}).set 9 { caps := [3#32, 0xb18407d7#32, 1#32, 0#32], cyc := { evts := 11, cntSet := true, lost := some (2#32, false, false), gcmd := 12 } }) },
    .user, 9, 2#32, false, false, by and_intros <;> decide +kernel⟩,
   ⟨{}, .firmware, 2, by and_intros <;> decide +kernel⟩⟩

theorem witness_TimerEventsReachTheirTimer :
    (∃ (s : State) (n : Fin 16), (counting s n = false ∨ countLost s n = true)) ∧
    (∃ (s : State) (n : Fin 16) (b : Word), (counting s n = true) ∧ (countLost s n = false) ∧ (b = (tmr s n).cyc.oldBuf.getD
      (reg s (Adr.TMR_BUF n)))) ∧
    (∃ (s : State) (n : Fin 16) (k : Fin 4) (v : Word), (tmrPowered s n = true) ∧ ((tmr s n).cyc.oldCmp.lookup k.val = some v)
      ∧ (2 ^ 31 ≤ (cmpFrom s n v).toNat)) ∧
    (∃ (s : State) (n : Fin 16) (k : Fin 4) (v : Word), (tmrPowered s n = true) ∧ ((tmr s n).cyc.oldCmp.lookup k.val = some v)
      ∧ ((cmpFrom s n v).toNat < 2 ^ 31)) ∧
    (∃ (s : State) (n : Fin 16) (k : Fin 4), ((tmr s n).cyc.oldCmp.lookup k.val = none) ∧ ((fld s (Fld.TMR_STAT_ARMED
      n)).testBit k = false ∨ (tmr s n).fresh.testBit k = true ∨ tmrPowered s n = false)) ∧
    (∃ (s : State) (n : Fin 16) (k : Fin 4), ((fld s (Fld.TMR_STAT_ARMED n)).testBit k = true) ∧ (tmrPowered s n = true) ∧
      (cmpReached s n k = true) ∧ ((tmr s n).cyc.oldCmp.lookup k.val = none) ∧ ((tmr s n).fresh.testBit k = false)) ∧
    (∃ (s : State) (n : Fin 16) (i : TrigInput), (trigDue s n .a = false) ∧ (i = .b → trigDue s n .b = false)) ∧
    (∃ (s : State) (n : Fin 16) (i : TrigInput), (trigDue s n i = true) ∧ (i = .b → trigDue s n .a = false) ∧ (trigAct s n i =
      3) ∧ (fld s (Fld.TMR_STAT_RUN n) ≠ 1)) ∧
    (∃ (s : State) (n : Fin 16) (i : TrigInput), (trigDue s n i = true) ∧ (i = .b → trigDue s n .a = false) ∧ (trigAct s n i =
      1)) ∧
    (∃ (s : State) (n : Fin 16) (i : TrigInput), (trigDue s n i = true) ∧ (i = .b → trigDue s n .a = false) ∧ (trigAct s n i =
      2)) :=
  ⟨⟨{}, 14, by decide +kernel⟩,
   ⟨{ regs := [(1131, 0xb8008000#32)] }, 6, _, by decide +kernel, by decide +kernel, rfl⟩,
   ⟨{ tmr := ((Vector.replicate 16 {}).set 1 { cyc := { acted := 11, reset := true, oldBuf := some 0xffffffff#32, oldCmp := [(5, 70#32), (13, 2#32), (2, 0xffffffff#32), (52109, 1#32)], snapped := true, gcmd := 3 } }) },
    1, 2, 0xffffffff#32, by and_intros <;> decide +kernel⟩,
   ⟨{ tmr := ((Vector.replicate 16 {}).set 8 { cyc := { newCnt := some 0xffffffff#32, reset := true, oldCmp := [(1, 2#32), (3, 0#32)], snapped := true, lost := some (0xdfd4bf4e#32, false, true), gcmd := 65535 } }) },
    8, 3, 0#32, by and_intros <;> decide +kernel⟩,
   ⟨{}, 14, 3, by and_intros <;> decide +kernel⟩,
   ⟨{ regs := [(1067, 0xf050#32)] }, 2, 2, by and_intros <;> decide +kernel⟩,
   ⟨{}, 0, .a, by and_intros <;> decide +kernel⟩,
   ⟨{ regs := [(1057, 0xf0c01e00#32)], tmr := ((Vector.replicate 16 {}).set 15 { prev := 3 }) }, 2, .a,
    by and_intros <;> decide +kernel⟩,
   ⟨{ regs := [(1121, 0x240fcc0#32)], tmr := ((Vector.replicate 16 {}).set 0 { prev := 6 }) }, 6, .a,
    by and_intros <;> decide +kernel⟩,
   ⟨{ regs := [(1089, 0xf3400080#32)], tmr := (((Vector.replicate 16 {}).set 0 { prev := 3 }).set 4 { cyc := { evts := 2, acted := 1, cntSet := true, oldBuf := some 0x50dde824#32, lost := some (19#32, false, false), gcmd := 1 } }) },
    4, .b, by and_intros <;> decide +kernel⟩⟩

theorem witness_QuartzCommandsAndRegisters :
    (∃ (s : State) (lvl : Level) (key : BitVec 16), (permitted s lvl Adr.QTZ_CMD true = true) ∧ (key ≠ 0xA55A)) ∧
    (∃ (s : State) (lvl : Level), (permitted s lvl Adr.QTZ_CMD true = true) ∧ (stagedTime s = none)) ∧
    (∃ (s : State) (lvl : Level) (n : _), (permitted s lvl Adr.QTZ_CMD true = true) ∧ (stagedTime s = some n)) ∧
    (∃ (s : State) (lvl : Level) (n : _), (permitted s lvl Adr.QTZ_CMD true = true) ∧ (stagedTime s = some n) ∧ (s.clk.osc =
      false)) ∧
    (∃ (s : State) (lvl : Level) (n : _), (permitted s lvl Adr.QTZ_CMD true = true) ∧ (stagedTime s = some n) ∧ (s.clk.osc =
      true)) ∧
    (∃ (s : State) (lvl : Level), (permitted s lvl Adr.QTZ_CMD true = true) ∧ (s.qtz.pendingSet ≠ none)) ∧
    (∃ (s : State) (lvl : Level), (permitted s lvl Adr.QTZ_CMD true = true) ∧ (s.qtz.pendingSet = none)) ∧
    (∃ (s : State) (lvl : Level), (permitted s lvl Adr.QTZ_CMD true = true)) ∧
    (∃ (s : State) (lvl : Level), (permitted s lvl Adr.QTZ_TIME0 false = true)) ∧
    (∃ (s : State) (lvl : Level), (permitted s lvl Adr.QTZ_SHIFT true = true)) ∧
    (∃ (s : State) (lvl : Level), (permitted s lvl Adr.QTZ_CDN true = true)) :=
  ⟨⟨{}, .firmware, 0x6653#16, by and_intros <;> decide +kernel⟩,
   ⟨{ regs := [(517, 0x960ce000#32)] }, .firmware, by and_intros <;> decide +kernel⟩,
   ⟨{}, .user, 0, by and_intros <;> decide +kernel⟩,
   ⟨{}, .user, 0, by and_intros <;> decide +kernel⟩,
   ⟨{ clk := { osc := true } }, .user, 0, by and_intros <;> decide +kernel⟩,
   ⟨{ qtz := { pendingSet := some { secs := 0, clrOsf := false } } }, .firmware, by and_intros <;> decide +kernel⟩,
   ⟨{}, .user, by and_intros <;> decide +kernel⟩,
   ⟨{}, .firmware, by decide +kernel⟩,
   ⟨{}, .firmware, by decide +kernel⟩,
   ⟨{}, .firmware, by decide +kernel⟩,
   ⟨{}, .firmware, by decide +kernel⟩⟩

theorem witness_CountdownOscillatorBackup :
    (∃ (s : State), (fld s Fld.QTZ_CDN_RUN = 1)) ∧
    (∃ (s : State), (s.qtz.pendingNow = none)) ∧
    (∃ (s : State), (s.pins.vbat = true)) ∧
    (∃ (s : State), (s.qtz.pulseFrom ≠ none)) :=
  ⟨⟨{ regs := [(520, 0x40d8dc13#32)] }, by decide +kernel⟩,
   ⟨{}, by decide +kernel⟩,
   ⟨{}, by decide +kernel⟩,
   ⟨{ qtz := { pulseFrom := some 152 } }, by decide +kernel⟩⟩

theorem witness_SecondsAndTrim :
    (∃ (s : State), (s.clk.osc = true) ∧ (s.qtz.pendingSet = none)) ∧
    (∃ (s : State), (s.clk.osc = true) ∧ (trimT s < 0) ∧ (s.qtz.trimDone < (trimT s).natAbs)) ∧
    (∃ (s : State), (s.clk.osc = true) ∧ (0 < trimT s) ∧ (s.qtz.trimDone < (trimT s).natAbs) ∧ (s.qtz.hold = 0) ∧ (s.qtz.sub <
      32767)) ∧
    (∃ (s : State), (fld s Fld.QTZ_ATRIM_SRC = 1) ∧ (s.qtz.window = none) ∧ (s.qtz.pendingTrim = none)) ∧
    (∃ (s : State), (fld s Fld.QTZ_ATRIM_SRC = 1) ∧ (s.qtz.window = none) ∧ (s.qtz.pendingTrim ≠ none)) ∧
    (∃ (s : State) (w : _), (fld s Fld.QTZ_ATRIM_SRC = 1) ∧ (s.qtz.window = some w) ∧ (w.sinceEdge * mainsRate s * 10 < 4 *
      32768)) ∧
    (∃ (s : State) (w : _), (fld s Fld.QTZ_ATRIM_SRC = 1) ∧ (s.qtz.window = some w) ∧ (4 * 32768 ≤ w.sinceEdge * mainsRate s *
      10)) ∧
    (∃ (s : State) (w : _), (fld s Fld.QTZ_ATRIM_SRC = 1) ∧ (s.qtz.window = some w)) ∧
    (∃ (s : State) (w : _), (fld s Fld.QTZ_ATRIM_SRC = 1) ∧ (s.qtz.window = some w) ∧ (windowEdges s ≤ w.edges)) :=
  ⟨⟨{ clk := { osc := true } }, by and_intros <;> decide +kernel⟩,
   ⟨{ regs := [(528, 0x1fa4#32)], clk := { osc := true } }, by and_intros <;> decide +kernel⟩,
   ⟨{ regs := [(528, 0xfff#32)], clk := { osc := true } }, by and_intros <;> decide +kernel⟩,
   ⟨{ regs := [(530, 0x4540c800#32)] }, by and_intros <;> decide +kernel⟩,
   ⟨{ regs := [(530, 0x454ffc00#32)], qtz := { pendingTrim := some (-1) } }, by and_intros <;> decide +kernel⟩,
   ⟨{ regs := [(530, 0x4410c800#32)], qtz := { window := some {} } }, {}, by and_intros <;> decide +kernel⟩,
   ⟨{ regs := [(530, 0x4420c800#32)], qtz := { window := some { sinceEdge := 3000 } } }, { sinceEdge := 3000 },
    by and_intros <;> decide +kernel⟩,
   ⟨{ regs := [(530, 0x4420c800#32)], qtz := { window := some {} } }, {}, by and_intros <;> decide +kernel⟩,
   ⟨{ regs := [(530, 0x4400c800#32)], qtz := { window := some {} } }, {}, by and_intros <;> decide +kernel⟩⟩

theorem witness_CalendarReadsBackEveryDate :
    ∃ (y : Nat) (mo : Nat) (d : Nat) (h : Nat) (mi : Nat) (se : Nat) (sub : Nat), (2000 ≤ y) ∧ (y ≤ 2399) ∧ (1 ≤ mo) ∧ (mo ≤
      12) ∧ (1 ≤ d) ∧ (d ≤ monthDays y mo) ∧ (h ≤ 23) ∧ (mi ≤ 59) ∧ (se ≤ 59) ∧ (sub < 32768) :=
  ⟨2399, 12, 31, 23, 59, 59, 32767, by and_intros <;> decide +kernel⟩

theorem witness_CalibrationRunsSavesAndRestores :
    (∃ (s : State) (lvl : Level) (r : Request) (key : _), (permitted s lvl Adr.CAL_CMD true = true) ∧ (r = mspRequest
      .calStore .c1) ∧ (key ≠ 0xA55A ∨ flag s Fld.CAL_STAT_BUSY = true)) ∧
    (∃ (s : State) (lvl : Level) (r : Request) (item : BitVec 4) (inst : Byte), (permitted s lvl Adr.CAL_CMD true = true) ∧ (r
      = mspRequest .calStore .c1) ∧ (flag s Fld.CAL_STAT_BUSY = false) ∧ (item.toNat = 0 ∨ 6 < item.toNat ∨ runInstances
      item.toNat ≤ inst.toNat)) ∧
    (∃ (s : State) (lvl : Level) (r : Request) (item : BitVec 4) (inst : Byte), (permitted s lvl Adr.CAL_CMD true = true) ∧ (r
      = mspRequest .calStore .c1) ∧ (flag s Fld.CAL_STAT_BUSY = false) ∧ (0 < item.toNat) ∧ (item.toNat ≤ 6) ∧ (inst.toNat <
      runInstances item.toNat) ∧ (calInUse s item.toNat inst.toNat = false)) ∧
    (∃ (s : State) (lvl : Level) (r : Request) (item : BitVec 4) (inst : Byte), (permitted s lvl Adr.CAL_CMD true = true) ∧ (r
      = mspRequest .calStore .c1) ∧ (flag s Fld.CAL_STAT_BUSY = false) ∧ (0 < item.toNat) ∧ (item.toNat ≤ 6) ∧ (inst.toNat <
      runInstances item.toNat) ∧ (calInUse s item.toNat inst.toNat = true)) ∧
    (∃ (s : State) (lvl : Level) (r : Request), (permitted s lvl Adr.CAL_CMD true = true) ∧ (r = mspRequest .calStore .c1) ∧
      (flag s Fld.CAL_STAT_BUSY = false) ∧ (supervisorLevel lvl = false)) ∧
    (∃ (s : State) (lvl : Level) (r : Request) (items : Byte) (second : Bool) (bs : List Byte), (permitted s lvl Adr.CAL_CMD
      true = true) ∧ (r = mspRequest .calStore .c1) ∧ (flag s Fld.CAL_STAT_BUSY = false) ∧ (supervisorLevel lvl = true) ∧
      (turnNow s r = true) ∧ (second = (saveNewest s).elim false (fun p => !p.1)) ∧ (bs = saveBytes s ((saveNewest s).elim 0
      (fun p => p.2.1) + 1) items.toNat)) ∧
    (∃ (s : State) (lvl : Level) (r : Request), (permitted s lvl Adr.CAL_CMD true = true) ∧ (r = mspRequest .calStore .c1) ∧
      (flag s Fld.CAL_STAT_BUSY = false) ∧ (supervisorLevel lvl = true) ∧ (turnNow s r = true) ∧ (saveNewest s = none)) ∧
    (∃ (s : State) (lvl : Level) (r : Request) (half : _) (recs : _), (permitted s lvl Adr.CAL_CMD true = true) ∧ (r =
      mspRequest .calStore .c1) ∧ (flag s Fld.CAL_STAT_BUSY = false) ∧ (supervisorLevel lvl = true) ∧ (turnNow s r = true) ∧
      (saveNewest s = some (half, recs))) ∧
    (∃ (s : State) (lvl : Level) (r : Request), (permitted s lvl Adr.CAL_CMD true = true) ∧ (r = mspRequest .calStore .c1) ∧
      (flag s Fld.CAL_STAT_BUSY = false) ∧ (supervisorLevel lvl = true) ∧ (turnNow s r = false)) :=
  ⟨⟨{}, .supervisor, _, 255, by decide +kernel, rfl, by decide +kernel⟩,
   ⟨{}, .supervisor, _, 15#4, 3#8, by decide +kernel, rfl, by and_intros <;> decide +kernel⟩,
   ⟨{}, .supervisor, _, 3#4, 2#8, by decide +kernel, rfl, by and_intros <;> decide +kernel⟩,
   ⟨{ regs := [(3073, 0x80000028#32)] }, .supervisor, _, 1#4, 0#8, by decide +kernel, rfl, by and_intros <;> decide +kernel⟩,
   ⟨{}, .user, _, by decide +kernel, rfl, by and_intros <;> decide +kernel⟩,
   ⟨{}, .supervisor, _, 1#8, _, _, by decide +kernel, rfl, by decide +kernel, by decide +kernel, by decide +kernel, rfl, rfl⟩,
   ⟨{}, .supervisor, _, by decide +kernel, rfl, by and_intros <;> decide +kernel⟩,
   ⟨{ mem := { nor := [(8486912, 89#8), (8486913, 71#8), (8486914, 67#8), (8486915, 83#8), (8486920, 64#8), (8486921, 0#8), (8486922, 0#8), (8486923, 0#8), (8486924, 174#8), (8486925, 66#8), (8486926, 161#8), (8486927, 172#8), (8486928, 5#8), (8486929, 1#8), (8486930, 40#8), (8486931, 0#8), (8486932, 3#8), (8486933, 16#8), (8486934, 0#8), (8486935, 0#8), (8486936, 0#8), (8486937, 0#8), (8486938, 0#8), (8486939, 0#8), (8486940, 0#8), (8486941, 0#8), (8486942, 0#8), (8486943, 0#8), (8486944, 0#8), (8486945, 0#8), (8486946, 0#8), (8486947, 0#8), (8486948, 0#8), (8486949, 0#8), (8486950, 0#8), (8486951, 0#8), (8486952, 0#8), (8486953, 0#8), (8486954, 0#8), (8486955, 0#8), (8486956, 0#8), (8486957, 0#8), (8486958, 0#8), (8486959, 0#8), (8486960, 0#8), (8486961, 0#8), (8486962, 0#8), (8486963, 0#8), (8486964, 0#8), (8486965, 0#8), (8486966, 0#8), (8486967, 0#8), (8486968, 127#8), (8486969, 0#8), (8486970, 8#8), (8486971, 0#8), (8486972, 0#8), (8486973, 0#8), (8486974, 0#8), (8486975, 0#8)] } },
    .supervisor, _, true, (4294967295, [{ type := 5, flags := 1, arg := 4099, payload := List.replicate 32 0#8 },
    { type := 127, flags := 0, arg := 0, payload := [] }]), by decide +kernel, rfl, by and_intros <;> decide +kernel⟩,
   ⟨{ regs := [(32, 0x11001100#32)], sched := { grants := [{ who := .memPort, cls := .c1, mask := 2047, kind := .msp }] } },
    .supervisor, _, by decide +kernel, rfl, by and_intros <;> decide +kernel⟩⟩

theorem witness_TracesCorrectTheLevels :
    (∃ (s : State) (lvl : Level), (permitted s lvl Adr.CAL_CMD true = true) ∧ (flag s Fld.CAL_STAT_BUSY = false) ∧
      (supervisorLevel lvl = true) ∧ (mode s ≠ 5)) ∧
    (∃ (s : State) (lvl : Level) (chain : Fin 4), (permitted s lvl Adr.CAL_CMD true = true) ∧ (flag s Fld.CAL_STAT_BUSY =
      false) ∧ (supervisorLevel lvl = true) ∧ (mode s = 5) ∧ (turnNow s (traceRxRequest chain) = false)) ∧
    (∃ (s : State) (lvl : Level) (chain : Fin 4) (measured : Int) (ferr : Int), (permitted s lvl Adr.CAL_CMD true = true) ∧
      (flag s Fld.CAL_STAT_BUSY = false) ∧ (supervisorLevel lvl = true) ∧ (mode s = 5) ∧ (turnNow s (traceRxRequest chain) =
      true) ∧ (600 < (refPower s - measured).natAbs ∨ 5000 < ferr.natAbs)) ∧
    (∃ (s : State) (lvl : Level) (chain : Fin 4) (measured : Int) (ferr : Int), (permitted s lvl Adr.CAL_CMD true = true) ∧
      (flag s Fld.CAL_STAT_BUSY = false) ∧ (supervisorLevel lvl = true) ∧ (mode s = 5) ∧ (turnNow s (traceRxRequest chain) =
      true) ∧ ((refPower s - measured).natAbs ≤ 600) ∧ (ferr.natAbs ≤ 5000) ∧ ((calInst s 4 0).staged = false) ∧ (tracedOf s 4
      0 = [])) ∧
    (∃ (s : State) (lvl : Level), (permitted s lvl Adr.CAL_CMD true = true) ∧ (flag s Fld.CAL_STAT_BUSY = false) ∧
      (supervisorLevel lvl = true) ∧ (mode s = 5) ∧ (profile s = 0 ∨ (profileChans s).contains (fld s Fld.CAL_REFCH_CHAN) =
      false)) ∧
    (∃ (s : State) (lvl : Level), (permitted s lvl Adr.CAL_CMD true = true) ∧ (flag s Fld.CAL_STAT_BUSY = false) ∧
      (supervisorLevel lvl = true) ∧ (mode s = 5) ∧ (profile s ≠ 0) ∧ ((profileChans s).contains (fld s Fld.CAL_REFCH_CHAN) =
      true) ∧ (fld s Fld.CAL_REFCH_INDEX < 4)) ∧
    (∃ (s : State) (lvl : Level), (permitted s lvl Adr.CAL_CMD true = true) ∧ (flag s Fld.CAL_STAT_BUSY = false) ∧
      (supervisorLevel lvl = true) ∧ (mode s = 5) ∧ (profile s ≠ 0) ∧ ((profileChans s).contains (fld s Fld.CAL_REFCH_CHAN) =
      true) ∧ (4 ≤ fld s Fld.CAL_REFCH_INDEX)) ∧
    (∃ (s : State) (lvl : Level), (permitted s lvl Adr.CAL_CMD true = true) ∧ (flag s Fld.CAL_STAT_BUSY = false) ∧
      (supervisorLevel lvl = true) ∧ (mode s = 5) ∧ (s.cal.trace = none)) ∧
    (∃ (s : State) (lvl : Level) (port : _) (idx : _) (c : _), (permitted s lvl Adr.CAL_CMD true = true) ∧ (flag s
      Fld.CAL_STAT_BUSY = false) ∧ (supervisorLevel lvl = true) ∧ (mode s = 5) ∧ (s.cal.trace = some (port, idx, c)) ∧ (port <
      4) ∧ (paOf s port = none) ∧ (38100 < (127 * refPower s - (-114300 + 3200 * (idx : Int))).natAbs)) ∧
    (∃ (s : State) (lvl : Level) (port : _) (idx : _) (c : _), (permitted s lvl Adr.CAL_CMD true = true) ∧ (flag s
      Fld.CAL_STAT_BUSY = false) ∧ (supervisorLevel lvl = true) ∧ (mode s = 5) ∧ (s.cal.trace = some (port, idx, c)) ∧ (port <
      4) ∧ (paOf s port = none) ∧ ((127 * refPower s - (-114300 + 3200 * (idx : Int))).natAbs ≤ 38100) ∧ ((calInst s 2
      port).staged = false) ∧ (tracedOf s 2 port = [])) ∧
    (∃ (s : State) (port : _) (idx : _) (c : _), (s.cal.trace = some (port, idx, c)) ∧ (port < 4) ∧ (idx < 128) ∧ ((grantOf s
      .calTrace).isSome = true) ∧ (pathState s .a = 1)) ∧
    (∃ (s : State), (s.cal.trace = none)) ∧
    (∃ (s : State), (s.cal.trace ≠ none)) :=
  ⟨⟨{}, .supervisor, by and_intros <;> decide +kernel⟩,
   ⟨{ regs := [(16, 0xf005#32), (32, 0x11001100#32)], sched := { grants := [{ who := .memPort, cls := .c1, mask := 2047, kind := .msp }] } },
    .supervisor, 3, by and_intros <;> decide +kernel⟩,
   ⟨{ regs := [(16, 0xf005#32)] }, .supervisor, 2, 77, 5001, by and_intros <;> decide +kernel⟩,
   ⟨{ regs := [(16, 0xf005#32)] }, .supervisor, 3, 0, (-3), by and_intros <;> decide +kernel⟩,
   ⟨{ regs := [(16, 0xf005#32)] }, .supervisor, by and_intros <;> decide +kernel⟩,
   ⟨{ regs := [(16, 0xf005#32), (5380, 2#32), (10249, 0x180139c#32)] }, .supervisor, by and_intros <;> decide +kernel⟩,
   ⟨{ regs := [(16, 0xf005#32), (5380, 1#32), (10249, 0x2000808#32)] }, .supervisor, by and_intros <;> decide +kernel⟩,
   ⟨{ regs := [(16, 0xf005#32)] }, .supervisor, by and_intros <;> decide +kernel⟩,
   ⟨{ regs := [(16, 0xf005#32)], cal := { trace := some (0, 124, 2056) } }, .supervisor, 0, 124, 2056,
    by and_intros <;> decide +kernel⟩,
   ⟨{ regs := [(16, 0xf005#32), (10248, 0x697#32)], cal := { trace := some (1, 101, 2056) } }, .supervisor, 1, 101, 2056,
    by and_intros <;> decide +kernel⟩,
   ⟨{ regs := [(2864, 1#32)], sched := { grants := [{ who := .calTrace, cls := .c1, mask := 0, kind := .forcedGap }] }, cal := { trace := some (2, 55, 2056) } },
    2, 55, 2056, by and_intros <;> decide +kernel⟩,
   ⟨{}, by decide +kernel⟩,
   ⟨{ cal := { trace := some (3, 104, 2056) } }, by decide +kernel⟩⟩

theorem witness_InstancesBecomeDueAndResultsApply :
    (∃ (s : State) (item : Fin 8) (inst : Byte) (why : DueReason), (item.val = 0 ∨ item.val = 7 ∨ dueHolds s item inst.toNat
      why = false)) ∧
    (∃ (s : State) (item : Fin 8) (inst : Byte) (why : DueReason), (0 < item.val) ∧ (item.val < 7) ∧ (dueHolds s item
      inst.toNat why = true) ∧ (flag s Fld.CAL_CFG_AUTO = true) ∧ (calInUse s item inst.toNat = true)) ∧
    (∃ (s : State), (mode s < 3)) ∧
    (∃ (s : State), (3 ≤ mode s)) ∧
    (∃ (s : State) (item : Fin 8) (inst : Byte), ((calInst s item inst.toNat).due = true) ∧ ((calInst s item
      inst.toNat).staged = false) ∧ ((calInst s item inst.toNat).overdue = false)) ∧
    (∃ (s : State) (item : Fin 8) (inst : Byte), ((calInst s item inst.toNat).due = false ∨ (calInst s item inst.toNat).staged
      = true)) ∧
    (∃ (s : State) (item : Fin 8) (inst : Byte), ((calInst s item inst.toNat).steps ≠ 0) ∧ ((calInst s item
      inst.toNat).running = false) ∧ ((calInst s item inst.toNat).staged = false)) ∧
    (∃ (s : State) (item : Fin 8) (inst : Byte), ((calInst s item inst.toNat).steps = 0 ∨ (calInst s item inst.toNat).running
      = true)) ∧
    (∃ (s : State) (item : Fin 8) (inst : Byte) (res : StepResult), ((calInst s item inst.toNat).running = true) ∧ (res.ok =
      false)) ∧
    (∃ (s : State) (item : Fin 8) (inst : Byte) (res : StepResult), ((calInst s item inst.toNat).running = true) ∧ (res.ok =
      true) ∧ ((calInst s item inst.toNat).steps + 1 < calSteps s (calInst s item inst.toNat))) ∧
    (∃ (s : State) (item : Fin 8) (inst : Byte), (calReady s item inst.toNat = false)) ∧
    (∃ (s : State) (item : Fin 8) (inst : Byte) (x : _), (calInst s item inst.toNat = x) ∧ (calReady s item inst.toNat = true)
      ∧ (flag s (cPend (itemBlock item)) = false) ∧ (x.staged = true) ∧ (∀ p ∈ s.cal.traced, ¬(p.1 = item.val ∧ p.2.1 =
      inst.toNat)) ∧ ((x.values.map (·.1)).Nodup) ∧ (∀ p ∈ x.values, p.1 ∈ itemWords item inst.toNat)) :=
  ⟨⟨{}, 6, 3#8, .trigger, by decide +kernel⟩,
   ⟨{ regs := [(4176, 0x59600000#32)], slate := { entries := [(3, [1#8, 5#8, 71#8, 3#8, 3#8, 0#8, 6#8, 0#8, 2#8, 0#8, 37#8, 1#8, 1#8, 1#8, 247#8, 3#8, 1#8, 0#8, 0#8, 192#8, 241#8, 0#8, 146#8, 10#8, 17#8, 0#8, 4#8, 8#8, 12#8, 8#8, 51#8, 16#8, 11#8, 134#8, 12#8, 1#8, 17#8, 3#8, 124#8, 198#8, 0#8, 4#8, 151#8, 240#8, 4#8, 11#8, 56#8, 10#8, 10#8, 126#8, 0#8, 17#8, 1#8, 1#8, 0#8, 3#8, 127#8, 52#8, 1#8, 29#8, 8#8, 3#8, 253#8, 85#8])] } },
    2, 1#8, .period, by and_intros <;> decide +kernel⟩,
   ⟨{ regs := [(16, 0xf002#32)] }, by decide +kernel⟩,
   ⟨{}, by decide +kernel⟩,
   ⟨{ cal := { insts := [{ item := 0, inst := 0, due := true }] } }, 0, 0#8, by and_intros <;> decide +kernel⟩,
   ⟨{}, 6, 3#8, by decide +kernel⟩,
   ⟨{ cal := { insts := [{ item := 4, inst := 1, steps := 2 }] } }, 4, 1#8, by and_intros <;> decide +kernel⟩,
   ⟨{}, 6, 3#8, by decide +kernel⟩,
   ⟨{ cal := { insts := [{ item := 3, inst := 2, running := true }] } }, 3, 2#8,
    { ok := false, values := [(12#16, 1#32)], figure := 121#8 }, by and_intros <;> decide +kernel⟩,
   ⟨{ cal := { insts := [{ item := 6, inst := 2, running := true }] } }, 6, 2#8,
    { ok := true, values := [(0xffff#16, 0x4d1b277f#32), (3#16, 0xdaf482fe#32)], figure := 255#8 },
    by and_intros <;> decide +kernel⟩,
   ⟨{ regs := [(2864, 0xf000008#32)] }, 4, 0#8, by decide +kernel⟩,
   ⟨{ cal := { insts := [{ item := 0, inst := 0, staged := true }] } }, 0, 0#8, { item := 0, inst := 0, staged := true },
    by and_intros <;> decide +kernel⟩⟩

theorem witness_SelectsAndG1Units :
    (∃ (s : State), (s.pins.hselN = false)) ∧
    (∃ (s : State), (s.pins.hselN = true) ∧ (hostGate s ≠ 0)) ∧
    (∃ (s : State), (s.pins.hselN = true) ∧ (hostGate s = 0)) ∧
    (∃ (s : State), (s.pins.hselN = true)) ∧
    (∃ (s : State), (s.pins.hselN = false) ∧ (hostGate s ≠ 0) ∧ (s.host.frame = .done) ∧ (s.host.g3 = none) ∧ (framingG1 s =
      false) ∧ (s.host.cut = false ∨ s.host.reading = false) ∧ (s.host.result ≤ 7)) ∧
    (∃ (s : State), (pendingInsts s = [])) ∧
    (∃ (s : State) (e : SelectEnd), (s.pins.hselN = false) ∧ (hostGate s ≠ 0) ∧ (s.host.frame = .header ∨ (s.host.frame =
      .done ∧ s.host.reading = true ∧ (s.host.cut = true ∨ e = .short) ∧ e ≠ .extra)) ∧ (s.host.g3 = none) ∧ (framingG1 s =
      false) ∧ (s.host.result = 0)) ∧
    (∃ (s : State), (s.pins.hselN = false) ∧ (s.host.frame ≠ .ignoring) ∧ (hostGate s ≠ 0)) ∧
    (∃ (s : State), (s.pins.hselN = true ∨ s.host.frame = .ignoring ∨ hostGate s = 0)) ∧
    (∃ (s : State) (u : State) (e : Fin 3), (u = { s with host := { s.host with ecc := [e.val] } }) ∧ (serving s = false ∨
      framingG1 s = false)) ∧
    (∃ (s : State) (u : State) (a : BitVec 7) (e : Fin 3), (u = { s with host := { s.host with ecc := [e.val] } }) ∧ (serving
      s = true) ∧ (framingG1 s = true) ∧ (g1Reg a.toNat = none)) ∧
    (∃ (s : State) (u : State) (a : BitVec 7) (e : Fin 3), (u = { s with host := { s.host with ecc := [e.val] } }) ∧ (serving
      s = true) ∧ (framingG1 s = true) ∧ (g1Reg a.toNat = none) ∧ (hostGate s ≠ 1)) ∧
    (∃ (s : State) (u : State) (a : BitVec 7) (e : Fin 3), (u = { s with host := { s.host with ecc := [e.val] } }) ∧ (serving
      s = true) ∧ (framingG1 s = true) ∧ (g1Reg a.toNat = none) ∧ (hostGate s = 1)) ∧
    (∃ (s : State) (u : State) (a : BitVec 7) (e : Fin 3) (r : _), (u = { s with host := { s.host with ecc := [e.val] } }) ∧
      (serving s = true) ∧ (framingG1 s = true) ∧ (g1Reg a.toNat = some r) ∧ (a.toNat % 4 = 0) ∧ (g1Unlatched r = false) ∧
      (permitted s (hostLevel s) r false = true)) ∧
    (∃ (s : State) (u : State) (a : BitVec 7) (e : Fin 3) (r : _) (w : _), (u =
      { s with host := { s.host with ecc := [e.val] } }) ∧ (serving s = true) ∧ (framingG1 s = true) ∧ (g1Reg a.toNat = some
      r) ∧ (a.toNat % 4 ≠ 0) ∧ (g1Unlatched r = false) ∧ (regFind s.host.g1Latch r = some w)) ∧
    (∃ (s : State) (u : State) (a : BitVec 7) (e : Fin 3) (r : _), (u = { s with host := { s.host with ecc := [e.val] } }) ∧
      (serving s = true) ∧ (framingG1 s = true) ∧ (g1Reg a.toNat = some r) ∧ (g1Unlatched r = true) ∧ (permitted s (hostLevel
      s) r false = true)) ∧
    (∃ (s : State) (u : State) (a : BitVec 7) (e : Fin 3) (r : _), (u = { s with host := { s.host with ecc := [e.val] } }) ∧
      (serving s = true) ∧ (framingG1 s = true) ∧ (g1Reg a.toNat = some r) ∧ (a.toNat % 4 = 0 ∨ g1Unlatched r = true) ∧
      (permitted s (hostLevel s) r false = false)) ∧
    (∃ (s : State) (u : State) (a : BitVec 7) (e : Fin 3) (r : _), (u = { s with host := { s.host with ecc := [e.val] } }) ∧
      (serving s = true) ∧ (framingG1 s = true) ∧ (g1Reg a.toNat = some r) ∧ (hostGate s = 1)) ∧
    (∃ (s : State) (u : State) (a : BitVec 7) (e : Fin 3) (r : _), (u = { s with host := { s.host with ecc := [e.val] } }) ∧
      (serving s = true) ∧ (framingG1 s = true) ∧ (g1Reg a.toNat = some r) ∧ (hostGate s = 2) ∧ (permitted s (hostLevel s) r
      true = false)) ∧
    (∃ (s : State) (u : State) (a : BitVec 7) (e : Fin 3) (r : _), (u = { s with host := { s.host with ecc := [e.val] } }) ∧
      (serving s = true) ∧ (framingG1 s = true) ∧ (g1Reg a.toNat = some r) ∧ (hostGate s = 2) ∧ (permitted s (hostLevel s) r
      true = true) ∧ (r = Adr.HSP_IMASK0 ∨ r = Adr.HSP_IMASK1)) :=
  ⟨⟨{ pins := { hselN := false } }, by decide +kernel⟩,
   ⟨{ boot := { step := 0 } }, by and_intros <;> decide +kernel⟩,
   ⟨{}, by and_intros <;> decide +kernel⟩,
   ⟨{}, by decide +kernel⟩,
   ⟨{ pins := { hselN := false }, boot := { step := 0 }, host := { frame := .done } }, by and_intros <;> decide +kernel⟩,
   ⟨{}, by decide +kernel⟩,
   ⟨{ pins := { hselN := false }, boot := { step := 0 } }, .short, by and_intros <;> decide +kernel⟩,
   ⟨{ pins := { hselN := false }, boot := { step := 0 } }, by and_intros <;> decide +kernel⟩,
   ⟨{}, by decide +kernel⟩,
   ⟨{}, _, 1, rfl, by decide +kernel⟩,
   ⟨{ regs := [(11776, 0x3a2011#32)], pins := { hselN := false, hrdy := true }, boot := { step := 0 } }, _, 105#7, 1, rfl,
    by and_intros <;> decide +kernel⟩,
   ⟨{ regs := [(32, 0x11001100#32), (11776, 0x3a2011#32)], pins := { hselN := false, hrdy := true }, boot := { step := 0 } }, _,
    105#7, 1, rfl, by and_intros <;> decide +kernel⟩,
   ⟨{ regs := [(11776, 0xfff02008#32)], pins := { hselN := false, hrdy := true }, boot := { step := 0 } }, _, 53#7, 2, rfl,
    by and_intros <;> decide +kernel⟩,
   ⟨{ regs := [(11776, 0xfffe2010#32)], pins := { hselN := false, hrdy := true }, boot := { step := 0 } }, _, 64#7, 0, 1552, rfl,
    by and_intros <;> decide +kernel⟩,
   ⟨{ regs := [(11776, 0x3a2011#32)], pins := { hselN := false, hrdy := true }, boot := { step := 0 }, host := { g1Latch := [(11776, 0x1020304#32)] } },
    _, 2#7, 1, 11776, 0x1020304#32, rfl, by and_intros <;> decide +kernel⟩,
   ⟨{ regs := [(11776, 0x6fa02088#32)], pins := { hselN := false, hrdy := true }, boot := { step := 0 } }, _, 40#7, 1, 515, rfl,
    by and_intros <;> decide +kernel⟩,
   ⟨{ regs := [(256, 0x55555555#32), (11776, 0x3a2011#32)], pins := { hselN := false, hrdy := true }, boot := { step := 0 } }, _,
    40#7, 1, 515, rfl, by and_intros <;> decide +kernel⟩,
   ⟨{ regs := [(11776, 0x1e2010#32)], pins := { hselN := false, hrdy := true }, boot := { step := 0 } }, _, 2#7, 1, 11776, rfl,
    by and_intros <;> decide +kernel⟩,
   ⟨{ regs := [(32, 0x11041100#32), (256, 3#32), (11776, 0xe2019#32)], pins := { hselN := false, hrdy := true }, boot := { step := 5 } },
    _, 29#7, 1, 64, rfl, by and_intros <;> decide +kernel⟩,
   ⟨{ regs := [(32, 0x13001100#32), (11776, 0x2e2099#32)], pins := { hselN := false, hrdy := true }, boot := { step := 0 } }, _,
    22#7, 0, Adr.HSP_IMASK1, rfl, by and_intros <;> decide +kernel⟩⟩

theorem witness_G2FramesAreAnswered :
    (∃ (s : State) (u : State) (e : List (Fin 3)), (u = { s with host := { s.host with ecc := e.map fun x => x.val } }) ∧
      (g2Open s = false)) ∧
    (∃ (s : State) (u : State) (cmd : Byte) (addr : BitVec 16) (count : BitVec 16) (e : List (Fin 3)), (u =
      { s with host := { s.host with ecc := e.map fun x => x.val } }) ∧ (g2Open s = true) ∧ (cmd.toNat < 0x80 ∨ 0x85 <
      cmd.toNat ∨ (cmd = 0x80 ∧ (addr ≠ 0 ∨ count ≠ 0)))) ∧
    (∃ (s : State) (u : State) (crc : BitVec 16) (e : List (Fin 3)), (u =
      { s with host := { s.host with ecc := e.map fun x => x.val } }) ∧ (g2Open s = true) ∧ (crc.toNat ≠ crc16 (headBytes 0x80
      0 0))) ∧
    (∃ (s : State) (u : State) (crc : BitVec 16) (e : List (Fin 3)), (u =
      { s with host := { s.host with ecc := e.map fun x => x.val } }) ∧ (g2Open s = true) ∧ (crc.toNat = crc16 (headBytes 0x80
      0 0))) ∧
    (∃ (s : State) (u : State) (count : BitVec 16) (e : List (Fin 3)), (u =
      { s with host := { s.host with ecc := e.map fun x => x.val } }) ∧ (g2Open s = true) ∧ (count = 0 ∨ 1024 < count.toNat)) ∧
    (∃ (s : State) (u : State) (addr : BitVec 16) (count : BitVec 16) (crc : BitVec 16) (e : List (Fin 3)), (u =
      { s with host := { s.host with ecc := e.map fun x => x.val } }) ∧ (g2Open s = true) ∧ (0 < count.toNat) ∧ (count.toNat ≤
      1024) ∧ (crc.toNat ≠ crc16 (headBytes 0x81 addr.toNat count.toNat))) ∧
    (∃ (s : State) (u : State) (addr : BitVec 16) (count : BitVec 16) (crc : BitVec 16) (e : List (Fin 3)), (u =
      { s with host := { s.host with ecc := e.map fun x => x.val } }) ∧ (g2Open s = true) ∧ (0 < count.toNat) ∧ (count.toNat ≤
      1024) ∧ (crc.toNat = crc16 (headBytes 0x81 addr.toNat count.toNat)) ∧ (mustHold s = true)) ∧
    (∃ (s : State) (u : State) (addr : BitVec 16) (count : BitVec 16) (crc : BitVec 16) (shifted : Nat) (e : List (Fin 3)), (u
      = { s with host := { s.host with ecc := e.map fun x => x.val } }) ∧ (g2Open s = true) ∧ (0 < count.toNat) ∧ (count.toNat
      ≤ shifted) ∧ (count.toNat ≤ 1024) ∧ (crc.toNat = crc16 (headBytes 0x81 addr.toNat count.toNat)) ∧ (mustHold s = false)) ∧
    (∃ (s : State) (u : State) (addr : BitVec 16) (count : BitVec 16) (crc : BitVec 16) (e : List (Fin 3)), (u =
      { s with host := { s.host with ecc := e.map fun x => x.val } }) ∧ (g2Open s = true) ∧ (0 < count.toNat) ∧ (count.toNat ≤
      1024) ∧ (crc.toNat = crc16 (headBytes 0x81 addr.toNat count.toNat)) ∧ (mustHold s = false)) ∧
    (∃ (s : State) (u : State) (addr : BitVec 16) (crc : BitVec 16) (shifted : Nat) (e : List (Fin 3)), (u =
      { s with host := { s.host with ecc := e.map fun x => x.val } }) ∧ (g2Open s = true) ∧ (1 ≤ shifted) ∧ (crc.toNat = crc16
      (headBytes 0x81 addr.toNat 1)) ∧ (mustHold s = false) ∧ (inBurst (windowOf addr.toNat) addr.toNat = true) ∧ (permitted s
      (hostLevel s) addr.toNat false = true)) ∧
    (∃ (s : State) (u : State) (addr : BitVec 16) (crc : BitVec 16) (shifted : Nat) (e : List (Fin 3)), (u =
      { s with host := { s.host with ecc := e.map fun x => x.val } }) ∧ (g2Open s = true) ∧ (1 ≤ shifted) ∧ (crc.toNat = crc16
      (headBytes 0x81 addr.toNat 1)) ∧ (mustHold s = false) ∧ (inBurst (windowOf addr.toNat) addr.toNat = true) ∧ (permitted s
      (hostLevel s) addr.toNat false = false)) ∧
    (∃ (s : State) (u : State) (addr : BitVec 16) (crc : BitVec 16) (shifted : Nat) (e : List (Fin 3)), (u =
      { s with host := { s.host with ecc := e.map fun x => x.val } }) ∧ (g2Open s = true) ∧ (1 ≤ shifted) ∧ (crc.toNat = crc16
      (headBytes 0x81 addr.toNat 1)) ∧ (mustHold s = false) ∧ (inBurst (windowOf addr.toNat) addr.toNat = false)) ∧
    (∃ (s : State) (u : State) (count : BitVec 16) (e : List (Fin 3)) (words : List Word), (u =
      { s with host := { s.host with ecc := e.map fun x => x.val } }) ∧ (words.length = count.toNat) ∧ (g2Open s = false)) ∧
    (∃ (s : State) (u : State) (count : BitVec 16) (e : List (Fin 3)) (words : List Word), (u =
      { s with host := { s.host with ecc := e.map fun x => x.val } }) ∧ (words.length = count.toNat) ∧ (g2Open s = true) ∧
      (count = 0 ∨ 256 < count.toNat)) ∧
    (∃ (s : State) (u : State) (addr : BitVec 16) (count : BitVec 16) (crc : BitVec 16) (e : List (Fin 3)) (words : List
      Word), (u = { s with host := { s.host with ecc := e.map fun x => x.val } }) ∧ (words.length = count.toNat) ∧ (g2Open s =
      true) ∧ (0 < count.toNat) ∧ (count.toNat ≤ 256) ∧ (crc.toNat ≠ crc16 (frameBytes 0x82 addr.toNat count.toNat words))) ∧
    (∃ (s : State) (u : State) (addr : BitVec 16) (count : BitVec 16) (crc : BitVec 16) (e : List (Fin 3)) (words : List
      Word), (u = { s with host := { s.host with ecc := e.map fun x => x.val } }) ∧ (words.length = count.toNat) ∧ (g2Open s =
      true) ∧ (0 < count.toNat) ∧ (count.toNat ≤ 256) ∧ (crc.toNat = crc16 (frameBytes 0x82 addr.toNat count.toNat words)) ∧
      (mustHold s = true)) ∧
    (∃ (s : State) (u : State) (addr : BitVec 16) (count : BitVec 16) (crc : BitVec 16) (e : List (Fin 3)) (words : List
      Word), (u = { s with host := { s.host with ecc := e.map fun x => x.val } }) ∧ (words.length = count.toNat) ∧ (g2Open s =
      true) ∧ (0 < count.toNat) ∧ (count.toNat ≤ 256) ∧ (crc.toNat = crc16 (frameBytes 0x82 addr.toNat count.toNat words)) ∧
      (mustHold s = false) ∧ (hostGate s = 2) ∧ (∀ k < count.toNat, inBurst (windowOf addr.toNat) (addr.toNat + k) = true ∧
      permitted s (hostLevel s) (addr.toNat + k) true = true ∧ blockOf (addr.toNat + k) = none ∧ (∀ u v, actWrite u (hostLevel
      s) (addr.toNat + k) v = none) ∧ accMask (addr.toNat + k) .sh = 0)) ∧
    (∃ (s : State) (u : State) (addr : BitVec 16) (count : BitVec 16) (crc : BitVec 16) (e : List (Fin 3)) (words : List Word)
      (w : _), (u = { s with host := { s.host with ecc := e.map fun x => x.val } }) ∧ (words.length = count.toNat) ∧ (g2Open s
      = true) ∧ (words = [w]) ∧ (crc.toNat = crc16 (frameBytes 0x82 addr.toNat 1 [w])) ∧ (mustHold s = false) ∧ (hostGate s =
      1)) ∧
    (∃ (s : State) (u : State) (addr : BitVec 16) (count : BitVec 16) (crc : BitVec 16) (e : List (Fin 3)) (words : List Word)
      (w : _), (u = { s with host := { s.host with ecc := e.map fun x => x.val } }) ∧ (words.length = count.toNat) ∧ (g2Open s
      = true) ∧ (words = [w]) ∧ (crc.toNat = crc16 (frameBytes 0x82 addr.toNat 1 [w])) ∧ (mustHold s = false) ∧ (hostGate s =
      2) ∧ (inBurst (windowOf addr.toNat) addr.toNat = true) ∧ (permitted s (hostLevel s) addr.toNat true = true) ∧ (blockOf
      addr.toNat = none) ∧ (∀ u v, actWrite u (hostLevel s) addr.toNat v = none) ∧ (accMask addr.toNat .sh = 0)) ∧
    (∃ (s : State) (u : State) (addr : BitVec 16) (count : BitVec 16) (crc : BitVec 16) (e : List (Fin 3)) (words : List Word)
      (w : _), (u = { s with host := { s.host with ecc := e.map fun x => x.val } }) ∧ (words.length = count.toNat) ∧ (g2Open s
      = true) ∧ (words = [w]) ∧ (crc.toNat = crc16 (frameBytes 0x82 addr.toNat 1 [w])) ∧ (mustHold s = false) ∧ (hostGate s =
      2) ∧ (inBurst (windowOf addr.toNat) addr.toNat = true) ∧ (permitted s (hostLevel s) addr.toNat true = false)) :=
  ⟨⟨{}, _, [0, 0, 1, 1], rfl, by decide +kernel⟩,
   ⟨{ pins := { hselN := false, hrdy := true }, boot := { step := 0 } }, _, 89#8, 516#16, 0x3a0a#16, [], rfl,
    by and_intros <;> decide +kernel⟩,
   ⟨{ pins := { hselN := false, hrdy := true }, boot := { step := 0 } }, _, 0x8459#16, [], rfl, by and_intros <;> decide +kernel⟩,
   ⟨{ pins := { hselN := false, hrdy := true }, boot := { step := 0 } }, _, 0x33dc#16, [], rfl, by and_intros <;> decide +kernel⟩,
   ⟨{ pins := { hselN := false, hrdy := true }, boot := { step := 0 } }, _, 0x8459#16, [], rfl, by and_intros <;> decide +kernel⟩,
   ⟨{ pins := { hselN := false, hrdy := true }, boot := { step := 0 } }, _, 0x2e08#16, 3#16, 0xffff#16, [], rfl,
    by and_intros <;> decide +kernel⟩,
   ⟨{ regs := [(64, 4#32)], pins := { hselN := false, hrdy := true }, boot := { step := 0 }, host := { admittedAt := some 1 } },
    _, 0x1014#16, 2#16, 0x3dcb#16, [2, 0, 0], rfl, by and_intros <;> decide +kernel⟩,
   ⟨{ pins := { hselN := false, hrdy := true }, boot := { step := 0 } }, _, 0x2e0a#16, 3#16, 0xfb3b#16, 255, [], rfl,
    by and_intros <;> decide +kernel⟩,
   ⟨{ pins := { hselN := false, hrdy := true }, boot := { step := 0 } }, _, 0x2e08#16, 3#16, 0x955b#16, [], rfl,
    by and_intros <;> decide +kernel⟩,
   ⟨{ pins := { hselN := false, hrdy := true }, boot := { step := 0 } }, _, 512#16, 0x64c4#16, 1, [], rfl,
    by and_intros <;> decide +kernel⟩,
   ⟨{ regs := [(256, 3#32)], pins := { hselN := false, hrdy := true }, boot := { step := 0 } }, _, 516#16, 0xb804#16, 161, [],
    rfl, by and_intros <;> decide +kernel⟩,
   ⟨{ pins := { hselN := false, hrdy := true }, boot := { step := 0 } }, _, 8#16, 0x200d#16, 161, [], rfl,
    by and_intros <;> decide +kernel⟩,
   ⟨{}, _, 2#16, [], [297#32, 3#32], rfl, by and_intros <;> decide +kernel⟩,
   ⟨{ pins := { hselN := false, hrdy := true }, boot := { step := 0 } }, _, 0#16, [1, 2, 2, 1], [], rfl,
    by and_intros <;> decide +kernel⟩,
   ⟨{ pins := { hselN := false, hrdy := true }, boot := { step := 0 } }, _, 16#16, 2#16, 0xcf05#16, [], [0xffffffff#32,
    0x18140744#32], rfl, by and_intros <;> decide +kernel⟩,
   ⟨{ regs := [(64, 4#32)], pins := { hselN := false, hrdy := true }, boot := { step := 0 }, host := { admittedAt := some 1 } },
    _, 0x2e00#16, 1#16, 0xbb22#16, [], [0x5ebea3f0#32], rfl, by and_intros <;> decide +kernel⟩,
   ⟨{ setFlag (setFlag {} Fld.SYS_BOOTSTAT_DONE) Fld.PROT_LEVEL_LEVEL with pins := { hselN := false, hrdy := true }, boot := { step := 0 } },
    _, BitVec.ofNat 16 (Adr.SLT_BUF 3), 1, BitVec.ofNat 16 (crc16 (frameBytes 0x82 (Adr.SLT_BUF 3) 1 [5])), [], [5], rfl,
    by decide +kernel, by decide +kernel, by decide +kernel, by decide +kernel, by decide +kernel, by decide +kernel,
    by decide +kernel, fun k hk => by obtain rfl : k = 0 := Nat.lt_one_iff.mp hk ; exact ⟨by decide +kernel,
    by decide +kernel, by decide +kernel, fun _ _ => rfl, by decide +kernel⟩⟩,
   ⟨{ pins := { hselN := false, hrdy := true }, boot := { step := 0 } }, _, 0x1513#16, 1#16, 0xf3b7#16, [], [0x4c2ad0b7#32],
    0x4c2ad0b7#32, rfl, by and_intros <;> decide +kernel⟩,
   ⟨{ setFlag (setFlag {} Fld.SYS_BOOTSTAT_DONE) Fld.PROT_LEVEL_LEVEL with pins := { hselN := false, hrdy := true }, boot := { step := 0 } },
    _, BitVec.ofNat 16 (Adr.SLT_BUF 3), 1, BitVec.ofNat 16 (crc16 (frameBytes 0x82 (Adr.SLT_BUF 3) 1 [5])), [], [5], 5, rfl,
    by decide +kernel, by decide +kernel, by decide +kernel, by decide +kernel, by decide +kernel, by decide +kernel,
    by decide +kernel, by decide +kernel, by decide +kernel, fun _ _ => rfl, by decide +kernel⟩,
   ⟨{ regs := [(32, 0x11001100#32), (256, 3#32)], pins := { hselN := false, hrdy := true }, boot := { step := 0 } }, _,
    0x2e08#16, 1#16, 0xad03#16, [2, 2, 1, 2], [1#32], 1#32, rfl, by and_intros <;> decide +kernel⟩⟩

theorem witness_FramesUnlockLockAndStream :
    (∃ (s : State) (crc : BitVec 16) (code : Word), (g2Open s = true) ∧ (fullyOpen s = true) ∧ (crc.toNat = crc16 (frameBytes
      0x83 0 1 [code])) ∧ (lockedOut s = true)) ∧
    (∃ (s : State) (crc : BitVec 16) (code : Word), (g2Open s = true) ∧ (fullyOpen s = true) ∧ (crc.toNat = crc16 (frameBytes
      0x83 0 1 [code])) ∧ (lockedOut s = false) ∧ (unlockCode s = some code.toNat)) ∧
    (∃ (s : State) (crc : BitVec 16) (code : Word), (g2Open s = true) ∧ (fullyOpen s = true) ∧ (crc.toNat = crc16 (frameBytes
      0x83 0 1 [code])) ∧ (lockedOut s = false) ∧ (unlockCode s ≠ some code.toNat)) ∧
    (∃ (s : State) (addr : BitVec 16) (count : BitVec 16) (crc : BitVec 16), (g2Open s = true) ∧ (fullyOpen s = true) ∧
      (addr.toNat < 8) ∧ (count ≠ 0) ∧ (crc.toNat = crc16 (headBytes 0x85 addr.toNat count.toNat)) ∧ (permitted s (hostLevel
      s) (Adr.FIFO_PORT addr.toNat) false = true)) ∧
    (∃ (s : State) (addr : BitVec 16) (count : BitVec 16) (crc : BitVec 16), (g2Open s = true) ∧ (fullyOpen s = true) ∧
      (addr.toNat < 8) ∧ (count ≠ 0) ∧ (crc.toNat = crc16 (headBytes 0x85 addr.toNat count.toNat)) ∧ (permitted s (hostLevel
      s) (Adr.FIFO_PORT addr.toNat) false = false)) ∧
    (∃ (s : State), (g2Open s = true) ∧ (fullyOpen s = false)) ∧
    (∃ (s : State) (crc : BitVec 16), (g2Open s = true) ∧ (crc.toNat = crc16 (headBytes 0x84 0 0))) ∧
    (∃ (s : State), (fld s Fld.HSP_CFG_SUPIDLE = 0 ∨ flag s Fld.SYS_BOOTSTAT_BARE = true)) ∧
    (∃ (s : State), (fld s Fld.HSP_CFG_SUPIDLE ≠ 0) ∧ (flag s Fld.SYS_BOOTSTAT_BARE = false)) ∧
    (∃ (s : State), (s.host.held = none)) ∧
    (∃ (s : State) (a : _) (shifted : _), (s.host.held = some (.read a 1 shifted)) ∧ (1 ≤ shifted) ∧ (inBurst (windowOf a) a =
      true) ∧ (permitted s (hostLevel s) a false = true)) ∧
    (∃ (s : State) (a : _) (lvl : _) (w : _), (s.host.held = some (.write a [w] lvl)) ∧ (hostGate s = 2) ∧ (inBurst (windowOf
      a) a = true) ∧ (blockOf a = none) ∧ (∀ u v, actWrite u lvl a v = none) ∧ (accMask a .sh = 0) ∧ (permitted s lvl a true =
      true)) ∧
    (∃ (s : State) (a : _) (lvl : _) (w : _), (s.host.held = some (.write a [w] lvl)) ∧ (hostGate s = 2) ∧ (inBurst (windowOf
      a) a = true) ∧ (blockOf a = none) ∧ (∀ u v, actWrite u lvl a v = none) ∧ (accMask a .sh = 0) ∧ (permitted s lvl a true =
      false)) :=
  ⟨⟨{ regs := [(32, 0x11001100#32)], pins := { hselN := false, hrdy := true }, boot := { step := 0 }, host := { lockout := some 1 } },
    0x30f4#16, 1#32, by and_intros <;> decide +kernel⟩,
   ⟨{ regs := [(32, 0x11001100#32)], pins := { hselN := false, hrdy := true }, boot := { step := 0, keys := [{ usage := 5, slot := 0, bytes := [1#8, 0#8, 0#8, 0#8] }] } },
    0x30f4#16, 1#32, by and_intros <;> decide +kernel⟩,
   ⟨{ regs := [(32, 0x11001100#32)], pins := { hselN := false, hrdy := true }, boot := { step := 0 } }, 0x30f4#16, 1#32,
    by and_intros <;> decide +kernel⟩,
   ⟨{ regs := [(32, 0x11001100#32)], pins := { hselN := false, hrdy := true }, boot := { step := 0 } }, 1#16, 0x3534#16,
    0xab0c#16, by and_intros <;> decide +kernel⟩,
   ⟨{ regs := [(32, 0x11001100#32), (256, 0x55555555#32)], pins := { hselN := false, hrdy := true }, boot := { step := 0 } },
    1#16, 3#16, 0x17d8#16, by and_intros <;> decide +kernel⟩,
   ⟨{ pins := { hselN := false, hrdy := true }, boot := { step := 0 } }, by and_intros <;> decide +kernel⟩,
   ⟨{ pins := { hselN := false, hrdy := true }, boot := { step := 0 } }, 0xbada#16, by and_intros <;> decide +kernel⟩,
   ⟨{}, by decide +kernel⟩,
   ⟨{ regs := [(11777, 0xaff0000#32)] }, by and_intros <;> decide +kernel⟩,
   ⟨{}, by decide +kernel⟩,
   ⟨{ host := { held := some (.read 1288 1 2) } }, 1288, 2, by and_intros <;> decide +kernel⟩,
   ⟨{ setFlag {} Fld.SYS_BOOTSTAT_DONE with boot := { step := 0 }, host := { held := some (.write (Adr.SLT_BUF 3) [5] .supervisor) } },
    Adr.SLT_BUF 3, .supervisor, 5, by decide +kernel, by decide +kernel, by decide +kernel, by decide +kernel, fun _ _ => rfl,
    by and_intros <;> decide +kernel⟩,
   ⟨{ setReg (setFlag {} Fld.SYS_BOOTSTAT_DONE) Adr.PROT_DEF 0 with boot := { step := 0 }, host := { held := some (.write (Adr.SLT_BUF 3) [5] .user) } },
    Adr.SLT_BUF 3, .user, 5, by decide +kernel, by decide +kernel, by decide +kernel, by decide +kernel, fun _ _ => rfl,
    by and_intros <;> decide +kernel⟩⟩

theorem witness_StreamsShiftUnits :
    (∃ (s : State) (g : G3Run) (u : _) (us : _), (s.host.g3 = some g) ∧ (s.pins.hselN = false) ∧ (s.host.frame ≠ .ignoring) ∧
      (hostGate s ≠ 0) ∧ (running s = true) ∧ (g.opened = true) ∧ (g.bits = 0) ∧ (g.notValid = false) ∧ (g.sel = 0) ∧ (g.todo
      = 0) ∧ (g.ecc = []) ∧ (g.chan < 8) ∧ (40 ≤ fld s Fld.HSP_LEN_LEN) ∧ ((chan s g.chan).skip = .none) ∧ ((chan s
      g.chan).flushGap = 0) ∧ ((chan s g.chan).rd = u :: us) ∧ (2 ≤ (chan s g.chan).view) ∧ (fld s Fld.HSP_LEN_LEN = 40)) ∧
    (∃ (s : State) (g : G3Run) (u : _) (us : _), (s.host.g3 = some g) ∧ (s.pins.hselN = false) ∧ (s.host.frame ≠ .ignoring) ∧
      (hostGate s ≠ 0) ∧ (running s = true) ∧ (g.opened = true) ∧ (g.bits = 0) ∧ (g.notValid = false) ∧ (g.sel = 0) ∧ (g.todo
      = 0) ∧ (g.ecc = []) ∧ (g.chan < 8) ∧ (40 ≤ fld s Fld.HSP_LEN_LEN) ∧ ((chan s g.chan).skip = .none) ∧ ((chan s
      g.chan).flushGap = 0) ∧ ((chan s g.chan).rd = u :: us) ∧ (2 ≤ (chan s g.chan).view) ∧ (fld s Fld.HSP_LEN_LEN = 40 ∨ us ≠
      [] ∨ flag s (Fld.FIFO_CH_CFG_BLOCK g.chan) = false)) ∧
    (∃ (s : State) (g : G3Run) (u : _) (us : _), (s.host.g3 = some g) ∧ (s.pins.hselN = false) ∧ (s.host.frame ≠ .ignoring) ∧
      (hostGate s ≠ 0) ∧ (running s = true) ∧ (g.opened = true) ∧ (g.bits = 0) ∧ (g.notValid = false) ∧ (g.sel = 0) ∧ (g.todo
      = 0) ∧ (g.ecc = []) ∧ (g.chan < 8) ∧ (40 ≤ fld s Fld.HSP_LEN_LEN) ∧ ((chan s g.chan).skip = .none) ∧ ((chan s
      g.chan).flushGap = 0) ∧ ((chan s g.chan).rd = u :: us) ∧ (2 ≤ (chan s g.chan).view) ∧ (40 < fld s Fld.HSP_LEN_LEN) ∧ (us
      = []) ∧ (flag s (Fld.FIFO_CH_CFG_BLOCK g.chan) = true)) ∧
    (∃ (s : State) (g : G3Run), (s.host.g3 = some g) ∧ (s.pins.hselN = false) ∧ (s.host.frame ≠ .ignoring) ∧ (hostGate s ≠ 0)
      ∧ (running s = true) ∧ (g.opened = true) ∧ (g.bits = 0) ∧ (g.notValid = false) ∧ (g.sel = 0) ∧ (g.todo = 0) ∧ (g.ecc =
      []) ∧ (g.chan < 8) ∧ (40 ≤ fld s Fld.HSP_LEN_LEN) ∧ (chanTake s.clk.now (chan s g.chan) = none) ∧ (flag s
      (Fld.FIFO_CH_CFG_BLOCK g.chan) = false) ∧ ((chan s g.chan).skip = .none)) ∧
    (∃ (s : State) (g : G3Run), (s.host.g3 = some g) ∧ (s.pins.hselN = false) ∧ (s.host.frame ≠ .ignoring) ∧ (hostGate s ≠ 0)
      ∧ (running s = true) ∧ (g.opened = true) ∧ (g.bits = 0) ∧ (g.notValid = false) ∧ (g.sel = 0) ∧ (g.todo = 0) ∧ (g.ecc =
      []) ∧ (g.chan < 8) ∧ (40 ≤ fld s Fld.HSP_LEN_LEN) ∧ (chanTake s.clk.now (chan s g.chan) = none) ∧ (flag s
      (Fld.FIFO_CH_CFG_BLOCK g.chan) = true ∨ (chan s g.chan).skip ≠ .none) ∧ (g.waiting = false)) ∧
    (∃ (s : State) (g : G3Run), (s.host.g3 = some g) ∧ (s.pins.hselN = true)) ∧
    (∃ (s : State) (g : G3Run), (s.host.g3 = some g) ∧ (s.pins.hselN = false)) ∧
    (∃ (s : State) (g : G3Run), (s.host.g3 = some g) ∧ (g.waiting = false)) ∧
    (∃ (s : State) (g : G3Run), (s.host.g3 = some g) ∧ (g.waiting = true)) :=
  ⟨⟨{ pins := { hselN := false }, boot := { step := 0 }, host := { g3 := some { chan := 0, left := 0, opened := true } }, fifo := ((Vector.replicate 9 {}).set 0 { rd := [{ kind := 1, data := 77#32 }] }) },
    { chan := 0, left := 0, opened := true }, { kind := 1, data := 77#32 }, [],
    by and_intros <;> first | decide +kernel | rfl⟩,
   ⟨{ pins := { hselN := false }, boot := { step := 0 }, host := { g3 := some { chan := 0, left := 0, opened := true } }, fifo := ((Vector.replicate 9 {}).set 0 { rd := [{ kind := 1, data := 77#32 }, { kind := 3, data := 88#32 }] }) },
    { chan := 0, left := 0, opened := true }, { kind := 1, data := 77#32 }, [{ kind := 3, data := 88#32 }],
    by and_intros <;> first | decide +kernel | rfl⟩,
   ⟨{ regs := [(1539, 0xffffffff#32), (11778, 80#32)], pins := { hselN := false }, boot := { step := 0 }, host := { g3 := some { chan := 3, left := 0, opened := true } }, fifo := ((Vector.replicate 9 {}).set 3 { rd := [{ kind := 1, data := 77#32 }] }) },
    { chan := 3, left := 0, opened := true }, { kind := 1, data := 77#32 }, [],
    by and_intros <;> first | decide +kernel | rfl⟩,
   ⟨{ pins := { hselN := false }, boot := { step := 0 }, host := { g3 := some { chan := 0, left := 0, opened := true } } },
    { chan := 0, left := 0, opened := true }, by and_intros <;> decide +kernel⟩,
   ⟨{ regs := [(1538, 0xffffffff#32)], pins := { hselN := false }, boot := { step := 0 }, host := { g3 := some { chan := 2, left := 0, opened := true } } },
    { chan := 2, left := 0, opened := true }, by and_intros <;> decide +kernel⟩,
   ⟨{ host := { g3 := some { chan := 0, left := 0 } } }, { chan := 0, left := 0 }, by and_intros <;> decide +kernel⟩,
   ⟨{ pins := { hselN := false }, host := { g3 := some { chan := 0, left := 0 } } }, { chan := 0, left := 0 },
    by and_intros <;> decide +kernel⟩,
   ⟨{ host := { g3 := some { chan := 0, left := 0 } } }, { chan := 0, left := 0 }, by and_intros <;> decide +kernel⟩,
   ⟨{ host := { g3 := some { chan := 0, left := 0, waiting := true } } }, { chan := 0, left := 0, waiting := true },
    by and_intros <;> decide +kernel⟩⟩

end Sys2Proof.Tests
end

/-! One cycle of CLK100 (log entry 2): what the passing of time moves, and that a G3 read which goes on moves no clock. -/

namespace Sys2Proof.Machine

/-! ### A G3 read that goes on leaves the clocks alone -/

@[simp] theorem ite_clk (c : Prop) [Decidable c] (a b : State) :
    (if c then a else b).clk = if c then a.clk else b.clk := by split <;> rfl

@[simp] theorem raiseAvail_clk (s : State) (n : Nat) : (raiseAvail s n).clk = s.clk := by
  simp [raiseAvail]

@[simp] theorem dropPacket_clk (s : State) (n : Nat) : (dropPacket s n).clk = s.clk := by
  simp [dropPacket]

@[simp] theorem admitPacket_clk (s : State) (n : Nat) (ws : List Word) : (admitPacket s n ws).clk = s.clk := by
  simp [admitPacket]

@[simp] theorem emitBoth_clk (s : State) (n tag : Nat) (ws : List Word) : (emitBoth s n tag ws).clk = s.clk := by
  simp [emitBoth]

@[simp] theorem txPacket_clk (s : State) (f : LnkTx) (r : Nat) : (txPacket s f r).clk = s.clk := by
  simp [txPacket]

@[simp] theorem queueFrame_clk (s : State) (f : LnkTx) : (queueFrame s f).1.clk = s.clk := by
  unfold queueFrame
  split <;> rfl

@[simp] theorem autoFlt_clk (s : State) (ws : List Word) : (autoFlt s ws).clk = s.clk := by
  simp [autoFlt, autoReport]

@[simp] theorem fault_clk (s : State) (blk inst code : Nat) (detail : List Byte) :
    (fault s blk inst code detail).clk = s.clk := by
  simp [fault]

@[simp] theorem eccEffect_clk (s : State) (n ecc bank idx : Nat) : (eccEffect s n ecc bank idx).clk = s.clk := by
  simp [eccEffect]

@[simp] theorem unitRead_clk (s : State) (u : FUnit) (ecc : Nat) : (unitRead s u ecc).2.clk = s.clk := by
  unfold unitRead
  split <;> simp

@[simp] theorem consume_clk (s : State) (n ecc : Nat) : (consume s n ecc).2.clk = s.clk := by
  unfold consume
  split <;> simp

@[simp] theorem viewEdges_clk (s : State) (n k : Nat) : (viewEdges s n k).clk = s.clk := by
  simp [viewEdges]

@[simp] theorem g3Wait_clk (s : State) (g : G3Run) : (g3Wait s g).clk = s.clk := rfl

@[simp] theorem g3Decide_clk (s : State) : (g3Decide s).clk = s.clk := by
  unfold g3Decide
  split <;> simp

@[simp] theorem hsoPut_clk (s : State) (bs : List Bool) : (hsoPut s bs).clk = s.clk := rfl

@[simp] theorem g3Shift_clk (s after : State) (g : G3Run) (n : Nat) (u : BitVec 40) (h : after.clk = s.clk) :
    (g3Shift s after g n u).clk = s.clk := by
  simp [g3Shift, h]

@[simp] theorem g3Serve_clk (f : Nat) (s : State) : (g3Serve f s).clk = s.clk := by
  induction f generalizing s with
  | zero => rfl
  | succ f ih =>
    unfold g3Serve
    dsimp only
    (repeat' split) <;> simp [ih]

@[simp] theorem g3Wake_clk (s : State) : (g3Wake s).clk = s.clk := by
  unfold g3Wake g3Go
  split
  · rfl
  · split
    · split <;> simp
    · rfl

/-! ### One cycle of CLK100 -/

/-- The registers' fields that count time: Quartz's countdown, the timers' counters and their snapshots (R510, R516, R552). -/
def timeFlds : List Field :=
  Fld.QTZ_CDN_COUNT :: (List.range 16).flatMap fun n => [whole (Adr.TMR_CNT n), whole (Adr.TMR_SNAPV n)]

theorem cdnCount_mem_timeFlds : Fld.QTZ_CDN_COUNT ∈ timeFlds := List.mem_cons_self

theorem tmrCnt_mem_timeFlds {n : Nat} (h : n < 16) : whole (Adr.TMR_CNT n) ∈ timeFlds := by
  simp only [timeFlds, List.mem_cons, List.mem_flatMap, List.mem_range]
  exact .inr ⟨n, h, by simp⟩

theorem tmrSnapv_mem_timeFlds {n : Nat} (h : n < 16) : whole (Adr.TMR_SNAPV n) ∈ timeFlds := by
  simp only [timeFlds, List.mem_cons, List.mem_flatMap, List.mem_range]
  exact .inr ⟨n, h, by simp⟩

/-- A channel whose view alone is replaced holds what it held (R493). -/
theorem chan_setChan_view (s : State) (n m v : Nat) :
    (chan (setChan s n { chan s n with view := v }) m).wr = (chan s m).wr ∧
      (chan (setChan s n { chan s n with view := v }) m).rd = (chan s m).rd := by
  by_cases h : n = m
  · subst h
    by_cases h9 : n < 9 <;> simp [chan, setChan, h9]
  · simp [chan, setChan, Vector.getElem?_setIfInBounds_ne, h]

/-- What the passing of one cycle may have done to a state by the point at hand (log entry 2). -/
structure CyclePassed (s t : State) : Prop where
  now : t.clk.now = s.clk.now + 1
  fresh : t.fresh = []
  flds : FldsKept timeFlds s t
  banks : ∀ n : Nat, (chan t n).wr = (chan s n).wr ∧ (chan t n).rd = (chan s n).rd
  frame : t = { s with clk := t.clk, qtz := t.qtz, regs := t.regs, fresh := t.fresh, tmr := t.tmr, tout := t.tout
                       pins := { s.pins with tin := t.pins.tin }, fifo := t.fifo }

namespace CyclePassed

variable {s t : State}

theorem host_eq (h : CyclePassed s t) : t.host = s.host := by rw [h.frame]

theorem setReg (h : CyclePassed s t) {a : Nat} (ha : whole a ∈ timeFlds) (v : Word) : CyclePassed s (setReg t a v) :=
  ⟨h.now, h.fresh, h.flds.setReg ha v, h.banks, by rw [h.frame]; rfl⟩

theorem setFld (h : CyclePassed s t) {f : Field} (hf : f ∈ timeFlds) (v : Nat) : CyclePassed s (setFld t f v) :=
  ⟨h.now, h.fresh, h.flds.setFld hf v, h.banks, by rw [h.frame]; rfl⟩

theorem setTmr (h : CyclePassed s t) (n : Nat) (x : Tmr) : CyclePassed s (setTmr t n x) :=
  ⟨h.now, h.fresh, h.flds.regs rfl, h.banks, by rw [h.frame]; rfl⟩

theorem clocks (h : CyclePassed s t) (q : Qtz) {c : Clk} (hc : c.now = t.clk.now) :
    CyclePassed s { t with qtz := q, clk := c } :=
  ⟨hc.trans h.now, h.fresh, h.flds.regs rfl, h.banks, by rw [h.frame]⟩

theorem outputs (h : CyclePassed s t) (o : Vector Tout 8) : CyclePassed s { t with tout := o } :=
  ⟨h.now, h.fresh, h.flds.regs rfl, h.banks, by rw [h.frame]⟩

theorem tinSample (h : CyclePassed s t) : CyclePassed s (tinSample t) :=
  ⟨h.now, h.fresh, h.flds.regs rfl, h.banks, by rw [h.frame]; rfl⟩

/-- An edge of a consumer's clock moves what it sees of a channel, not what the channel holds (R493). -/
theorem viewEdges (h : CyclePassed s t) (n k : Nat) : CyclePassed s (viewEdges t n k) := by
  unfold Machine.viewEdges
  dsimp only
  split
  · refine ⟨h.now, h.fresh, h.flds.regs rfl, fun m => ?_, by rw [h.frame]; rfl⟩
    rw [← (h.banks m).1, ← (h.banks m).2]
    exact chan_setChan_view t n m _
  · exact h

/-- A count of CLK32K moves Quartz's counts and the countdown (R537, R552). -/
theorem count32 (h : CyclePassed s t) : CyclePassed s (count32 t) := by
  unfold Machine.count32
  dsimp only
  split
  · refine CyclePassed.setFld ?_ cdnCount_mem_timeFlds _
    exact h.clocks _ rfl
  · exact h.clocks _ rfl

theorem edge32 (h : CyclePassed s t) : CyclePassed s (edge32 t) := by
  unfold Machine.edge32
  dsimp only
  split
  · exact (h.clocks _ rfl).count32
  · exact h.clocks _ rfl

/-- The cycle of the clocks themselves, after which no flag is new (R9). -/
theorem tickClocks (s : State) : CyclePassed s (tickClocks s) := by
  unfold Machine.tickClocks
  dsimp only
  split
  · exact edge32 ⟨rfl, rfl, fun _ _ => rfl, fun _ => ⟨rfl, rfl⟩, rfl⟩
  · exact ⟨rfl, rfl, fun _ _ => rfl, fun _ => ⟨rfl, rfl⟩, rfl⟩

theorem countTo (h : CyclePassed s t) {n : Nat} (hn : n < 16) (v : Word) : CyclePassed s (countTo t n v) := by
  unfold Machine.countTo
  dsimp only
  split
  · exact (h.setReg (tmrCnt_mem_timeFlds hn) v).setReg (tmrSnapv_mem_timeFlds hn) v
  · exact h.setReg (tmrCnt_mem_timeFlds hn) v

theorem cycleTimer (h : CyclePassed s t) {n : Nat} (hn : n < 16) : CyclePassed s (cycleTimer t n) := by
  unfold Machine.cycleTimer
  dsimp only
  split
  · exact (h.setTmr n _).setReg (tmrCnt_mem_timeFlds hn) _
  · exact h.setTmr n _

/-- A timer's part of the cycle (R510): its counter alone among the registers. -/
theorem tickTimer (h : CyclePassed s t) (edge : Bool) {n : Nat} (hn : n < 16) : CyclePassed s (tickTimer edge t n) := by
  have h1 := h.cycleTimer hn
  unfold Machine.tickTimer
  dsimp only
  split
  · split
    · exact h1.setTmr n _
    · split
      · exact h1.setTmr n _
      · exact (h1.setTmr n _).countTo hn _
  · exact h1

theorem tickTimers (h : CyclePassed s t) (edge : Bool) : CyclePassed s (tickTimers t edge) := by
  unfold Machine.tickTimers
  split
  · exact List.foldlRecOn (motive := CyclePassed s) _ _ (h.outputs _).tinSample
      fun _ hu _ hn => hu.tickTimer edge (List.mem_range.mp hn)
  · exact h

theorem tickViews (h : CyclePassed s t) : CyclePassed s (tickViews t) :=
  foldl_keeps (CyclePassed s) _ (fun _ n hu => by split; exacts [hu, hu.viewEdges n 1]) _ _ h

end CyclePassed

/-- A G3 transfer that waits for nothing is not woken (R125). -/
theorem g3Wake_of_not_waiting (s : State) (h : ∀ g, s.host.g3 = some g → g.waiting = false) : g3Wake s = s := by
  unfold g3Wake
  split
  · rfl
  · next g hg => simp [h g hg]

/-- The cycle of the clocks, the timers and the consumers' views: all of `tick` but the G3 read that may go on. -/
def tickFree (s : State) : State :=
  tickViews (tickTimers (tickClocks s) (390625 ≤ s.clk.phase32 + 128 && s.clk.osc))

theorem tick_eq (s : State) : tick s = g3Wake (tickFree s) := rfl

theorem tickFree_passes (s : State) : CyclePassed s (tickFree s) := ((CyclePassed.tickClocks s).tickTimers _).tickViews

/-- With no command waiting a step is one cycle (log entry 2). -/
theorem step_idle {s : State} (h : s.pending = []) : step s = .next (tick s) := by
  unfold step
  rw [h]
  rfl

/-- Settles O2: each part of the cycle is carried through `CyclePassed`, and the G3 read that may go on moves no clock. -/
theorem idleStepPassesOneCycle : Obligations.IdleStepPassesOneCycle := by
  unfold Obligations.IdleStepPassesOneCycle
  intro s hs
  have h := tickFree_passes s
  refine ⟨tick s, step_idle hs, ?_, fun hg => ?_⟩
  · rw [tick_eq, g3Wake_clk, h.now]
  · rw [tick_eq, g3Wake_of_not_waiting _ (h.host_eq ▸ hg)]
    exact ⟨h.fresh, h.flds, h.banks, h.frame⟩

end Sys2Proof.Machine

/-! Writes of registers, commits and discards (R8–R11, R32–R37). -/

namespace Sys2Proof.Machine

/-! ### Frames of registers and flags -/

theorem FldsKept.setFlag {l : List Field} {s t : State} (h : FldsKept l s t) {f : Field} (hf : f ∈ l) :
    FldsKept l s (setFlag t f) := (h.setFld hf 1).regs rfl

theorem rsvCheck_frame (s : State) (a : Nat) (v : Word) :
    ∃ rs fr, rsvCheck s a v = { s with regs := rs, fresh := fr } := by
  unfold rsvCheck
  split
  · exact ⟨_, _, rfl⟩
  · exact ⟨_, _, rfl⟩

theorem FldsKept.rsvCheck {l : List Field} {s t : State} (h : FldsKept l s t) (hl : Fld.HSP_STAT_RANGE ∈ l) (a : Nat)
    (v : Word) : FldsKept l s (rsvCheck t a v) := by
  unfold Machine.rsvCheck
  split
  · exact h.setFlag hl
  · exact h

/-- Writing back the word in force changes nothing that can be read. -/
theorem FldsKept.setReg_reg {l : List Field} {s t : State} (h : FldsKept l s t) (a : Nat) :
    FldsKept l s (Machine.setReg t a (reg t a)) := by
  intro f hf
  rw [← h f hf, fld, reg_setReg]
  split
  · next e => rw [← e, fld]
  · rfl

namespace OnlyFlds

variable {l : List Field} {s t : State}

theorem refl (l : List Field) (s : State) : OnlyFlds l s s := ⟨rfl, .refl l s⟩

theorem mono {m : List Field} (h : OnlyFlds l s t) (hl : ∀ g ∈ l, g ∈ m) : OnlyFlds m s t := ⟨h.1, h.2.mono hl⟩

theorem shadow_eq (h : OnlyFlds l s t) : t.shadow = s.shadow := by rw [h.1]

theorem brm_eq (h : OnlyFlds l s t) : t.brm = s.brm := by rw [h.1]

/-- An update of registers alone, whose fields are known to be kept. -/
theorem update (h : OnlyFlds l s t) (rs fr : RegFile) (hk : FldsKept l s { t with regs := rs, fresh := fr }) :
    OnlyFlds l s { t with regs := rs, fresh := fr } := ⟨by rw [h.1], hk⟩

theorem setReg (h : OnlyFlds l s t) {a : Nat} (ha : whole a ∈ l) (v : Word) : OnlyFlds l s (setReg t a v) :=
  h.update _ _ (h.2.setReg ha v)

theorem setReg_reg (h : OnlyFlds l s t) (a : Nat) : OnlyFlds l s (Machine.setReg t a (reg t a)) :=
  h.update _ _ (h.2.setReg_reg a)

theorem setFld (h : OnlyFlds l s t) {f : Field} (hf : f ∈ l) (v : Nat) : OnlyFlds l s (setFld t f v) :=
  h.update _ _ (h.2.setFld hf v)

theorem setFlag (h : OnlyFlds l s t) {f : Field} (hf : f ∈ l) : OnlyFlds l s (setFlag t f) :=
  h.update _ _ (h.2.setFlag hf)

theorem setFresh (h : OnlyFlds l s t) (fr : RegFile) : OnlyFlds l s { t with fresh := fr } :=
  h.update _ _ (h.2.regs rfl)

theorem rsvCheck (h : OnlyFlds l s t) (hl : Fld.HSP_STAT_RANGE ∈ l) (a : Nat) (v : Word) :
    OnlyFlds l s (rsvCheck t a v) := by
  have hk := h.2.rsvCheck hl a v
  obtain ⟨rs, fr, e⟩ := rsvCheck_frame t a v
  rw [e] at hk ⊢
  exact h.update rs fr hk

theorem setPend (h : OnlyFlds l s t) {b : BlockInst} (hp : cPend b ∈ l) (hc : cCommit b ∈ l) (v : Nat) :
    OnlyFlds l s (setPend t b v) := (h.setFld hp v).setFld hc v

end OnlyFlds

/-- A field depends on the registers alone. -/
theorem fld_congr {s t : State} (h : t.regs = s.regs) (f : Field) : fld t f = fld s f := by
  rw [fld, fld, reg, reg, h]

/-! ### Reserved fields (R10) -/

@[simp] theorem rsvCheck_shadow (s : State) (a : Nat) (v : Word) : (rsvCheck s a v).shadow = s.shadow := by
  unfold rsvCheck
  split <;> simp

theorem reg_rsvCheck_ne (s : State) (a : Nat) (v : Word) {c : Nat} (h : c ≠ Adr.HSP_STAT) :
    reg (rsvCheck s a v) c = reg s c := by
  unfold rsvCheck
  split
  · rw [reg_setFlag, reg_setFld_ne s _ 1 h]
  · rfl

theorem flag_rsvCheck_range (s : State) (a : Nat) (v : Word) (h : v &&& accMask a .rsv ≠ 0) :
    flag (rsvCheck s a v) Fld.HSP_STAT_RANGE = true := by
  unfold rsvCheck
  rw [if_pos (by simpa using h)]
  exact flag_setFlag_self s _ (by decide) rfl

/-- A flag other than RANGE is as it was. -/
theorem flag_rsvCheck_apart (s : State) (a : Nat) (v : Word) (f : Field) (h : f.apart Fld.HSP_STAT_RANGE) :
    flag (rsvCheck s a v) f = flag s f := by
  have := ((OnlyFlds.refl [Fld.HSP_STAT_RANGE] s).rsvCheck (by simp) a v).2 f (by simpa using h)
  rw [flag, this, flag]

/-! ### What a plain write does (R8, R9, R11, R32, R35) -/

theorem storeFields_all (s : State) (a : Nat) (v : Word) :
    storeFields s a (BitVec.allOnes 32) v = setReg s a
      (clearedBy s a ((reg s a &&& ~~~accMask a .rw) ||| (v &&& accMask a .rw)) v ||| (v &&& accMask a .w1s)) := by
  simp only [storeFields, BitVec.and_allOnes]

/-- A register without SH fields stores its fields. -/
theorem plainWrite_of_no_sh (s : State) {a : Nat} (v : Word) (h : accMask a .sh = 0) :
    plainWrite s a (BitVec.allOnes 32) v = storeFields s a (BitVec.allOnes 32) v := by
  simp [plainWrite, h]

/-- The commit register of a block lies at another address than the word: its flags are not touched by the stored fields. -/
theorem flag_storeFields_ne (s : State) (a : Nat) (m v : Word) (f : Field) (h : f.addr ≠ a) :
    flag (storeFields s a m v) f = flag s f := by
  rw [storeFields, flag, fld_setReg_ne _ _ _ _ h, flag]

/-- SH fields are staged while no commit is pending; while one is, the write sets WRLOCK and stages nothing. -/
theorem plainWrite_of_sh (s : State) {a : Nat} (v : Word) {b : BlockInst} (hb : blockOf a = some b)
    (hc : commitAddr b ≠ a) (h : accMask a .sh ≠ 0) :
    plainWrite s a (BitVec.allOnes 32) v =
      if flag s (cPend b) then setFlag (storeFields s a (BitVec.allOnes 32) v) (cWrlock b)
      else stage (storeFields s a (BitVec.allOnes 32) v) a v := by
  have hm : ¬accMask a .sh = 0#32 := h
  simp [plainWrite, stageWord, hm, hb, flag_storeFields_ne _ _ _ _ (cPend b) hc, -BitVec.reduceAllOnes]

/-- The bits of a mask are those put in. -/
theorem or_and_mask (x v m : Word) : ((x &&& ~~~m) ||| (v &&& m)) &&& m = v &&& m := by
  ext i
  simp
  cases m[i] <;> simp

theorem regFind_stage_self (s : State) (a : Nat) (v : Word) :
    regFind (stage s a v).shadow a = some ((shadowReg s a &&& ~~~accMask a .sh) ||| (v &&& accMask a .sh)) :=
  regFind_regPut_self _ _ _

theorem regFind_stage_ne (s : State) {a c : Nat} (v : Word) (h : c ≠ a) :
    regFind (stage s a v).shadow c = regFind s.shadow c := regFind_regPut_ne _ _ h

/-! ### REGISTER_WRITE -/

theorem exec_registerWrite (lvl : Level) (addr : BitVec 16) (v : Word) (s : State) :
    exec (.registerWrite lvl addr v) s = execRegisterWrite lvl addr v s := rfl

theorem isCommit_eq_false {a : Nat} {b : BlockInst} (hb : blockOf a = some b) (h : commitAddr b ≠ a) :
    isCommit a = false := by
  simp [isCommit, hb, h]

theorem exec_registerWrite_unpopulated (s : State) (lvl : Level) {addr : BitVec 16} (v : Word)
    (h : populated addr.toNat = false) :
    exec (.registerWrite lvl addr v) s = .next (setFlag s Fld.HSP_STAT_RANGE) := by
  simp [exec_registerWrite, execRegisterWrite, next, h]

/-- A write of a register that neither commits nor acts stores or stages, and then checks the reserved fields. -/
theorem regWrite_plain (s : State) {lvl : Level} {a : Nat} (v : Word) (hc : isCommit a = false)
    (hact : ∀ u w, actWrite u lvl a w = none) :
    regWrite s lvl a v = rsvCheck (plainWrite s a (BitVec.allOnes 32) v) a v := by
  have ho : otherWrite s lvl a (BitVec.allOnes 32) v = rsvCheck (plainWrite s a (BitVec.allOnes 32) v) a v := by
    simp [otherWrite, hact, -BitVec.reduceAllOnes]
  unfold regWrite maskedWrite
  split
  · next b hb => simpa [show commitAddr b ≠ a by simpa [isCommit, hb] using hc] using ho
  · exact ho

theorem exec_registerWrite_plain (s : State) {lvl : Level} {addr : BitVec 16} (v : Word)
    (hp : populated addr.toNat = true) (hperm : permitted s lvl addr.toNat true = true)
    (hc : isCommit addr.toNat = false) (hact : ∀ u w, actWrite u lvl addr.toNat w = none) :
    exec (.registerWrite lvl addr v) s =
      .next (rsvCheck (plainWrite s addr.toNat (BitVec.allOnes 32) v) addr.toNat v) := by
  simp [exec_registerWrite, execRegisterWrite, next, asWrite, hp, hperm, regWrite_plain s v hc hact]

/-! ### The commit register (R34–R37) -/

theorem mem_allInsts {b : BlockInst} (h : validInst b = true) : b ∈ allInsts := by
  obtain ⟨blk, i⟩ := b
  simp only [allInsts, List.mem_flatMap, List.mem_map, List.mem_range]
  exact ⟨blk, by cases blk <;> decide, i, by simpa [validInst] using h, rfl⟩

/-- The W1C flags of every commit register are CFG_REJECT and WRLOCK (R34): read off the map at each of the 382 instances. -/
theorem accMask_commitAddr_w1c {b : BlockInst} (h : validInst b = true) :
    accMask (commitAddr b) .w1c = 0x60000000#32 :=
  (by decide +kernel : ∀ c ∈ allInsts, accMask (commitAddr c) .w1c = 0x60000000#32) b (mem_allInsts h)

/-- A write that names neither flag leaves the register, but for RANGE. -/
theorem commitFlags_only (s : State) {b : BlockInst} {v : Word} (hb : validInst b = true) (hv : v &&& 0x60000000#32 = 0) :
    OnlyFlds [Fld.HSP_STAT_RANGE] s (commitFlags s b v) := by
  have hw : clearedBy s (commitAddr b) (reg s (commitAddr b)) v = reg s (commitAddr b) := by
    rw [clearedBy, accMask_commitAddr_w1c hb, hv, BitVec.ofNat_eq_ofNat, BitVec.zero_and, BitVec.not_zero, BitVec.and_allOnes]
  rw [commitFlags, hw]
  exact ((OnlyFlds.refl _ s).setReg_reg _).rsvCheck (by simp) _ _

theorem flag_commitFlags_pend (s : State) {b : BlockInst} {v : Word} (hb : validInst b = true)
    (hv : v &&& 0x60000000#32 = 0) : flag (commitFlags s b v) (cPend b) = flag s (cPend b) := by
  rw [flag, (commitFlags_only s hb hv).2 (cPend b) (by simp [Field.apart, cPend, Fld.HSP_STAT_RANGE]), flag]

theorem fld_setPend_pend (s : State) (b : BlockInst) (v : Nat) : fld (setPend s b v) (cPend b) = v % 2 := by
  rw [setPend, fld_setFld_apart _ _ _ _ (by simp [cPend, cCommit]), fld_setFld_self _ _ _ (by simp [cPend])]
  rfl

theorem fld_setPend_commit (s : State) (b : BlockInst) (v : Nat) : fld (setPend s b v) (cCommit b) = v % 2 := by
  rw [setPend, fld_setFld_self _ _ _ (by simp [cCommit])]
  rfl

theorem commitWrite_commit (s : State) (b : BlockInst) : commitWrite s b 1 = requestCommit (commitFlags s b 1) b := rfl

theorem commitWrite_discard (s : State) (b : BlockInst) : commitWrite s b 2 = discard (commitFlags s b 2) b := rfl

/-- Nothing more is requested while a commit is pending (R35). -/
theorem requestCommit_pending {s : State} {b : BlockInst} (h : flag s (cPend b) = true) : requestCommit s b = s := by
  simp [requestCommit, h]

/-- On an idle block the boundary is now (R38). -/
theorem requestCommit_idle {s : State} {b : BlockInst} (h : flag s (cPend b) = false)
    (hi : blockIdle (setPend s b 1) b = true) : requestCommit s b = boundary (setPend s b 1) b := by
  simp [requestCommit, h, hi]

/-- Away from its boundary the set waits, and the request is new in this cycle (R35). -/
theorem requestCommit_busy {s : State} {b : BlockInst} (h : flag s (cPend b) = false)
    (hi : blockIdle (setPend s b 1) b = false) :
    requestCommit s b = { setPend s b 1 with
      fresh := regPut (setPend s b 1).fresh (commitAddr b) (freshAt (setPend s b 1) (commitAddr b) ||| maskOf 31 31) } := by
  simp [requestCommit, h, hi]

/-! ### DISCARD (R36) -/

/-- Taking words out of a register file by their address. -/
theorem regFind_filter (m : RegFile) (p : Nat → Bool) (a : Nat) :
    regFind (m.filter fun q => p q.1) a = if p a then regFind m a else none := by
  induction m with
  | nil => simp [regFind]
  | cons q m ih =>
    obtain ⟨c, w⟩ := q
    by_cases hc : p c <;> by_cases hac : a = c
    · subst hac; simp [regFind, hc]
    · simp [regFind, hc, hac, ih]
    · subst hac; simp [hc, ih]
    · simp [regFind, hc, hac, ih]

theorem discard_regs (s : State) (b : BlockInst) : (discard s b).regs = (setPend s b 0).regs := by
  unfold discard
  dsimp only
  split <;> rfl

theorem discard_shadow (s : State) (b : BlockInst) :
    (discard s b).shadow = s.shadow.filter fun q => blockOf q.1 != some b := by
  unfold discard
  dsimp only
  split <;> rfl

theorem discard_frame (s : State) (b : BlockInst) :
    ∃ rs sh ps br, discard s b = { s with regs := rs, shadow := sh, parts := ps, brm := br } := by
  unfold discard
  dsimp only
  split
  · exact ⟨_, _, _, _, rfl⟩
  · exact ⟨_, _, _, _, rfl⟩

theorem discard_pool (s : State) {b : BlockInst} (h : b.block = .brm) :
    (discard s b).brm.poolShadow = s.brm.pool := by
  unfold discard
  dsimp only
  split
  · rfl
  · next hb => exact absurd h hb

theorem stagedOf_discard (s : State) (b : BlockInst) : stagedOf (discard s b) b = [] := by
  simp [stagedOf, discard_shadow, List.filter_filter]

theorem exec_commit (lvl : Level) (b : BlockInst) (s : State) : exec (.commit lvl b) s = execCommit lvl b s := rfl

theorem exec_discard (lvl : Level) (b : BlockInst) (c : Bool) (s : State) :
    exec (.discard lvl b c) s = execDiscard lvl b c s := rfl

theorem exec_commit_invalid (s : State) (lvl : Level) {b : BlockInst} (h : validInst b = false) :
    exec (.commit lvl b) s = .next s := by
  simp [exec_commit, execCommit, next, h]

theorem exec_discard_invalid (s : State) (lvl : Level) {b : BlockInst} (h : validInst b = false) (c : Bool) :
    exec (.discard lvl b c) s = .next s := by
  simp [exec_discard, execDiscard, next, h]

theorem exec_commit_permitted {s : State} {lvl : Level} {b : BlockInst} (h : validInst b = true)
    (hp : permitted s lvl (commitAddr b) true = true) :
    exec (.commit lvl b) s = .next (requestCommit (commitFlags s b 1) b) := by
  simp only [exec_commit, execCommit, next, asWrite, h, hp, if_true, commitWrite_commit]

theorem exec_discard_permitted {s : State} {lvl : Level} {b : BlockInst} (h : validInst b = true)
    (hp : permitted s lvl (commitAddr b) true = true) :
    exec (.discard lvl b false) s = .next (discard (commitFlags s b 2) b) := by
  simp only [exec_discard, execDiscard, next, asWrite, h, hp, if_true, Bool.false_eq_true, if_false, commitWrite_discard]

/-! ### The statement, clause by clause -/

/-- A plain register's write stores each field by its code (R8, R9, R11). -/
theorem registerWrite_stores {s : State} {lvl : Level} {addr : BitVec 16} (v : Word) (hp : populated addr.toNat = true)
    (hperm : permitted s lvl addr.toNat true = true) (hact : ∀ u w, actWrite u lvl addr.toNat w = none)
    (hsh : accMask addr.toNat .sh = 0) (hc : isCommit addr.toNat = false) :
    ∃ t, exec (.registerWrite lvl addr v) s = .next t ∧
      (addr.toNat ≠ Adr.HSP_STAT → reg t addr.toNat =
        (((reg s addr.toNat &&& ~~~accMask addr.toNat .rw) ||| (v &&& accMask addr.toNat .rw)) &&&
          ~~~(v &&& accMask addr.toNat .w1c &&& ~~~freshAt s addr.toNat)) ||| (v &&& accMask addr.toNat .w1s)) ∧
      (v &&& accMask addr.toNat .rsv ≠ 0 → flag t Fld.HSP_STAT_RANGE = true) ∧
      OnlyFlds [whole addr.toNat, Fld.HSP_STAT_RANGE] s t := by
  refine ⟨_, exec_registerWrite_plain s v hp hperm hc hact, fun ha => ?_, flag_rsvCheck_range _ _ _, ?_⟩
  · rw [reg_rsvCheck_ne _ _ _ ha, plainWrite_of_no_sh s v hsh, storeFields_all, reg_setReg_self]
    rfl
  · rw [plainWrite_of_no_sh s v hsh, storeFields_all]
    exact ((OnlyFlds.refl _ s).setReg (by simp) _).rsvCheck (by simp) _ _

/-- With no commit pending the SH fields are staged (R32). -/
theorem registerWrite_stages {s : State} {lvl : Level} {addr : BitVec 16} (v : Word) (hp : populated addr.toNat = true)
    (hperm : permitted s lvl addr.toNat true = true) (hact : ∀ u w, actWrite u lvl addr.toNat w = none) {b : BlockInst}
    (hb : blockOf addr.toNat = some b) (hc : commitAddr b ≠ addr.toNat) (hsh : accMask addr.toNat .sh ≠ 0)
    (hpend : flag s (cPend b) = false) :
    ∃ t, exec (.registerWrite lvl addr v) s = .next t ∧
      shadowReg t addr.toNat &&& accMask addr.toNat .sh = v &&& accMask addr.toNat .sh ∧
      (∀ a, a ≠ addr.toNat → regFind t.shadow a = regFind s.shadow a) ∧
      FldsKept [whole addr.toNat, Fld.HSP_STAT_RANGE] s t ∧
      t = { s with regs := t.regs, fresh := t.fresh, shadow := t.shadow } := by
  have hw := exec_registerWrite_plain s v hp hperm (isCommit_eq_false hb hc) hact
  rw [plainWrite_of_sh s v hb hc hsh, hpend, if_neg Bool.false_ne_true, storeFields_all] at hw
  refine ⟨_, hw, ?_, fun a ha => ?_, ?_, ?_⟩
  · rw [shadowReg, rsvCheck_shadow, regFind_stage_self]
    exact or_and_mask _ v _
  · rw [rsvCheck_shadow, regFind_stage_ne _ v ha]
    rfl
  · refine FldsKept.rsvCheck ?_ (by simp) _ _
    exact ((FldsKept.refl _ s).setReg (by simp) _).regs rfl
  · obtain ⟨rs, fr, e⟩ := rsvCheck_frame _ _ _
    rw [e]
    rfl

/-- While a commit is pending the staged set is not changed, and WRLOCK says so (R35). -/
theorem registerWrite_locked {s : State} {lvl : Level} {addr : BitVec 16} (v : Word) (hp : populated addr.toNat = true)
    (hperm : permitted s lvl addr.toNat true = true) (hact : ∀ u w, actWrite u lvl addr.toNat w = none) {b : BlockInst}
    (hb : blockOf addr.toNat = some b) (hc : commitAddr b ≠ addr.toNat) (hsh : accMask addr.toNat .sh ≠ 0)
    (hpend : flag s (cPend b) = true) :
    ∃ t, exec (.registerWrite lvl addr v) s = .next t ∧ flag t (cWrlock b) = true ∧
      OnlyFlds [whole addr.toNat, Fld.HSP_STAT_RANGE, cWrlock b] s t := by
  have hw := exec_registerWrite_plain s v hp hperm (isCommit_eq_false hb hc) hact
  rw [plainWrite_of_sh s v hb hc hsh, if_pos hpend, storeFields_all] at hw
  refine ⟨_, hw, ?_, ?_⟩
  · rw [flag_rsvCheck_apart _ _ _ _ (by simp [Field.apart, cWrlock, Fld.HSP_STAT_RANGE])]
    exact flag_setFlag_self _ _ (by simp [cWrlock]) rfl
  · exact (((OnlyFlds.refl _ s).setReg (by simp) _).setFlag (by simp)).rsvCheck (by simp) _ _

/-- The state in which a requested commit stands: only PEND, COMMIT and RANGE differ (R34, R35). -/
theorem setPend_commitFlags_only (s : State) {b : BlockInst} (hb : validInst b = true) {v : Word}
    (hv : v &&& 0x60000000#32 = 0) (n : Nat) :
    OnlyFlds [cPend b, cCommit b, Fld.HSP_STAT_RANGE] s (setPend (commitFlags s b v) b n) :=
  ((commitFlags_only s hb hv).mono (by simp)).setPend (by simp) (by simp) n

/-- A COMMIT on a block that is not idle waits (R35). -/
theorem commit_waits {s : State} {lvl : Level} {b : BlockInst} (hb : validInst b = true)
    (hperm : permitted s lvl (commitAddr b) true = true) (hpend : flag s (cPend b) = false)
    (hidle : blockIdle (setPend (commitFlags s b 1) b 1) b = false) :
    ∃ t, exec (.commit lvl b) s = .next t ∧ flag t (cPend b) = true ∧ flag t (cCommit b) = true ∧
      OnlyFlds [cPend b, cCommit b, Fld.HSP_STAT_RANGE] s t := by
  have hp : flag (commitFlags s b 1) (cPend b) = false := (flag_commitFlags_pend s hb (by decide)).trans hpend
  refine ⟨_, (exec_commit_permitted hb hperm).trans (by rw [requestCommit_busy hp hidle]), ?_, ?_, ?_⟩
  · exact congrArg (· == 1) (fld_setPend_pend (commitFlags s b 1) b 1)
  · exact congrArg (· == 1) (fld_setPend_commit (commitFlags s b 1) b 1)
  · exact (setPend_commitFlags_only s hb (by decide) 1).setFresh _

/-- A COMMIT on an idle block is at its boundary (R38). -/
theorem commit_applies {s : State} {lvl : Level} {b : BlockInst} (hb : validInst b = true)
    (hperm : permitted s lvl (commitAddr b) true = true) (hpend : flag s (cPend b) = false)
    (hidle : blockIdle (setPend (commitFlags s b 1) b 1) b = true) :
    exec (.commit lvl b) s = .next (boundary (setPend (commitFlags s b 1) b 1) b) := by
  have hp : flag (commitFlags s b 1) (cPend b) = false := (flag_commitFlags_pend s hb (by decide)).trans hpend
  rw [exec_commit_permitted hb hperm, requestCommit_idle hp hidle]

/-- A DISCARD cancels the request and reloads the shadow set (R36). -/
theorem discard_reloads {s : State} {lvl : Level} {b : BlockInst} (hb : validInst b = true)
    (hperm : permitted s lvl (commitAddr b) true = true) :
    ∃ t, exec (.discard lvl b false) s = .next t ∧ flag t (cPend b) = false ∧ stagedOf t b = [] ∧
      (∀ a, blockOf a ≠ some b → regFind t.shadow a = regFind s.shadow a) ∧
      (b.block = .brm → t.brm.poolShadow = s.brm.pool) ∧ FldsKept [cPend b, cCommit b, Fld.HSP_STAT_RANGE] s t ∧
      t = { s with regs := t.regs, fresh := t.fresh, shadow := t.shadow, parts := t.parts, brm := t.brm } := by
  have hf := commitFlags_only s hb (v := 2) (by decide)
  refine ⟨_, exec_discard_permitted hb hperm, ?_, stagedOf_discard _ b, fun a ha => ?_, fun h => ?_, ?_, ?_⟩
  · rw [flag, fld_congr (discard_regs _ b), fld_setPend_pend]
    rfl
  · rw [discard_shadow, hf.shadow_eq]
    exact (regFind_filter s.shadow (fun c => blockOf c != some b) a).trans (if_pos (by simpa using ha))
  · rw [discard_pool _ h, hf.brm_eq]
  · exact (setPend_commitFlags_only s hb (by decide) 0).2.regs (discard_regs _ b)
  · obtain ⟨rs, sh, ps, br, e⟩ := discard_frame (commitFlags s b 2) b
    rw [e, hf.1]

/-- Settles O9, clause by clause: a write stores, stages or is locked out; a commit waits or applies; a discard reloads. -/
theorem writesStageAndCommitsWait : Obligations.WritesStageAndCommitsWait := by
  unfold Obligations.WritesStageAndCommitsWait
  intro s lvl
  refine ⟨fun addr v hp => ?_, fun addr v hp hperm hact => ⟨fun hsh hc => ?_, fun b hb hc hsh => ⟨?_, ?_⟩⟩,
    fun b hb => ⟨exec_commit_invalid s lvl hb, exec_discard_invalid s lvl hb⟩,
    fun b hb hperm => ⟨fun hpend => ?_, commit_waits hb hperm, fun hpend hidle => ?_, discard_reloads hb hperm⟩⟩
  · exact ⟨_, exec_registerWrite_unpopulated s lvl v hp, flag_setFlag_self s _ (by decide) rfl,
      (OnlyFlds.refl _ s).setFlag (by simp)⟩
  · exact registerWrite_stores v hp hperm hact hsh hc
  · exact registerWrite_stages v hp hperm hact hb hc hsh
  · exact registerWrite_locked v hp hperm hact hb hc hsh
  · refine ⟨_, exec_commit_permitted hb hperm, ?_⟩
    rw [requestCommit_pending ((flag_commitFlags_pend s hb (by decide)).trans hpend)]
    exact commitFlags_only s hb (by decide)
  · exact ⟨_, rfl, setPend_commitFlags_only s hb (by decide) 1, commit_applies hb hperm hpend hidle⟩

end Sys2Proof.Machine

/-! Grants and scheduled items (R152, R158): a consumer that holds a grant as its scheduled item comes to its free time. -/

namespace Sys2Proof.Machine

/-- Gorse holds a grant of no resource while its scheduled request for Flint stands at its free time. -/
def heldWhileScheduled : State :=
  { setFlag {} Fld.SYS_BOOTSTAT_DONE with
    sched := {
      grants := [{ who := .gorse, cls := .c0, mask := 0, kind := .gorsePing }]
      requests := [{ who := .gorse, cls := .c0, mask := 2 ^ resFlint, kind := .gorsePing, freeAt := some 0 }] } }

/-- The new grant stands behind the one held, which is still the one that `grantOf` finds. -/
theorem grantOf_freeTime_heldWhileScheduled :
    (grantOf (grantsEnded (cxPost (grantPoint (freeTime heldWhileScheduled .gorse)))) .gorse).map (fun g => g.mask) =
      some 0 := by
  decide +kernel

/-- Refutes O16: at C0_FREE_TIME the clause of a plain consumer says that its grant has the request's set, and does not ask that it
holds none before; a consumer that holds one keeps that first. -/
theorem not_grantsEndAndCoexistence : ¬ Obligations.GrantsEndAndCoexistence := by
  unfold Obligations.GrantsEndAndCoexistence
  rintro ⟨h, -⟩
  obtain ⟨-, -, -, -, -, -, -, -, -, plain, -⟩ := h heldWhileScheduled .gorse
  obtain ⟨t, ht, hmask, -⟩ :=
    plain { who := .gorse, cls := .c0, mask := 2 ^ resFlint, kind := .gorsePing, freeAt := some 0 }
      (by decide +kernel) (by decide +kernel) rfl rfl rfl (by decide) (by decide) (by decide)
  cases ht
  exact absurd (grantOf_freeTime_heldWhileScheduled.symm.trans hmask) (by decide)

end Sys2Proof.Machine

/-! The journal's page buffers (R45, R472, R477): a packet whose record takes more than the three units that are asked for. -/

namespace Sys2Proof.Machine

/-- An internal CONFIG packet of 20 words, whose record takes four units. -/
def longConfigPacket : List Word := [jnlTag 0x07, 0, 0, BitVec.ofNat 32 (20 * 2 ^ 24), 0] ++ List.replicate 20 0

/-- Its record. -/
def longConfigRecord : JRecord := jconfig (longConfigPacket.drop 1)

/-- The packet waits on the writer's channel; 15 page buffers wait to be programmed, and the one in hand has three units left. -/
def threeUnitsLeft : State :=
  { setFlag {} Fld.JNL_STAT_MOUNTED with
    fifo := (Vector.replicate 9 {}).set 8 { rd := packetUnits longConfigPacket, view := 2 }
    jnl := { full := List.replicate 15 [[0]], buffer := [[0, 124]] } }

/-- The record finds no room, so the 15 pages are programmed, and the page buffers hold two records where they held 16. -/
theorem buffered_jrecordStep_threeUnitsLeft :
    ((jrecordStep threeUnitsLeft [0]).jnl.full ++ [(jrecordStep threeUnitsLeft [0]).jnl.buffer]).flatten.length = 2 := by
  decide +kernel

/-- Refutes O27: JOURNAL_RECORD waits for room for three units (R472) and the clause of a packet taken bounds its words by 256, not its
record by three units; a longer record has the waiting pages programmed, whose records then stand in no page buffer. -/
theorem not_journalTakesAndProgramsPages : ¬ Obligations.JournalTakesAndProgramsPages := by
  unfold Obligations.JournalTakesAndProgramsPages
  rintro ⟨h, -⟩
  obtain ⟨-, -, -, taken, -⟩ := h threeUnitsLeft 0
  obtain ⟨t, ht, hbuf, -⟩ := taken longConfigPacket longConfigRecord [] (by decide +kernel) (by decide +kernel) rfl rfl
    (by decide) rfl rfl (by decide) (by decide) (List.append_nil _).symm rfl
  cases ht
  have hlen := buffered_jrecordStep_threeUnitsLeft.symm.trans (congrArg List.length hbuf)
  exact absurd hlen (by decide)

end Sys2Proof.Machine

/-! Packets to the report FIFOs and fault records (R485–R503): what they leave alone. -/

namespace Sys2Proof.Machine

/-! ### The fields that packets write -/

theorem intBit_avail_mem_packetFlds {n : Nat} (h : n < 8) : intBit (8 + n) ∈ packetFlds := by
  simp only [packetFlds, List.mem_append, List.mem_cons, List.mem_map, List.mem_range]
  exact .inl (.inl (.inr ⟨n, h, rfl⟩))

theorem intBit_drop_mem_packetFlds {n : Nat} (h : n < 8) : intBit (24 + n) ∈ packetFlds := by
  simp only [packetFlds, List.mem_append, List.mem_cons, List.mem_map, List.mem_range]
  exact .inl (.inr ⟨n, h, rfl⟩)

theorem cntDrop_mem_packetFlds {n : Nat} (h : n < 9) : Fld.FIFO_CH_CNT_DROP n ∈ packetFlds := by
  simp only [packetFlds, List.mem_append, List.mem_map, List.mem_range]
  exact .inr ⟨n, h, rfl⟩

theorem intBit_txDone_mem_packetFlds : intBit 45 ∈ packetFlds := by
  simp [packetFlds]

/-- A field that lies in none of the registers that packets write. -/
theorem apart_packetFlds {f : Field} (h0 : f.addr ≠ Adr.HSP_INT0) (h1 : f.addr ≠ Adr.HSP_INT1)
    (hd : ∀ n < 9, f.addr ≠ (Fld.FIFO_CH_CNT_DROP n).addr) : ∀ g ∈ packetFlds, f.apart g := by
  have hint : ∀ k, f.apart (intBit k) := fun k => by
    unfold intBit
    split
    · exact .inl h0
    · exact .inl h1
  simp only [packetFlds, List.mem_append, List.mem_cons, List.mem_map, List.mem_range]
  rintro g (((rfl | ⟨n, -, rfl⟩) | ⟨n, -, rfl⟩) | ⟨n, hn, rfl⟩)
  exacts [hint _, hint _, hint _, .inl (hd n hn)]

/-! ### Packets -/

/-- What an offered packet does (R491, R496, R497): it is written, with the handover of a full bank or without, or dropped. -/
theorem admitPacket_cases (s : State) (n : Nat) (ws : List Word) :
    (∃ c, admitPacket s n ws = setChan s n c) ∨ (∃ c, admitPacket s n ws = raiseAvail (setChan s n c) n) ∨
      admitPacket s n ws = dropPacket s n := by
  unfold admitPacket
  dsimp only
  generalize (if (chan s n).gap = 0 then [] else [unitOf 0xE (BitVec.ofNat 32 (chan s n).gap)]) = gaps
  split
  · split
    · exact .inr (.inl ⟨_, rfl⟩)
    · exact .inl ⟨_, rfl⟩
  · exact .inr (.inr rfl)

/-- Nothing but registers, of those only the fields listed, and channels changed. -/
def OnlyFifo (l : List Field) (s t : State) : Prop :=
  t = { s with regs := t.regs, fresh := t.fresh, fifo := t.fifo } ∧ FldsKept l s t

namespace OnlyFifo

variable {l : List Field} {s t : State}

theorem refl (l : List Field) (s : State) : OnlyFifo l s s := ⟨rfl, .refl l s⟩

theorem setFld (h : OnlyFifo l s t) {f : Field} (hf : f ∈ l) (v : Nat) : OnlyFifo l s (setFld t f v) :=
  ⟨by rw [h.1]; rfl, h.2.setFld hf v⟩

theorem setFlag (h : OnlyFifo l s t) {f : Field} (hf : f ∈ l) : OnlyFifo l s (setFlag t f) :=
  ⟨by rw [h.1]; rfl, h.2.setFlag hf⟩

theorem mono {m : List Field} (h : OnlyFifo l s t) (hl : l ⊆ m) : OnlyFifo m s t := ⟨h.1, h.2.mono hl⟩

theorem ite {u : State} {c : Prop} [Decidable c] (h : OnlyFifo l s t) (hu : OnlyFifo l s u) :
    OnlyFifo l s (if c then t else u) := by
  split
  · exact h
  · exact hu

theorem setChan (h : OnlyFifo l s t) (n : Nat) (c : Chan) : OnlyFifo l s (setChan t n c) :=
  ⟨by rw [h.1]; rfl, h.2.regs rfl⟩

theorem raiseAvail (h : OnlyFifo l s t) (hl : packetFlds ⊆ l) (n : Nat) : OnlyFifo l s (raiseAvail t n) := by
  unfold Machine.raiseAvail
  split
  · next hn => exact h.setFlag (hl (intBit_avail_mem_packetFlds hn))
  · exact h

theorem dropPacket (h : OnlyFifo l s t) {n : Nat} (hd : Fld.FIFO_CH_CNT_DROP n ∈ l)
    (hi : n < 8 → intBit (24 + n) ∈ l) : OnlyFifo l s (dropPacket t n) := by
  have h1 := (h.setChan n { chan t n with gap := satAdd 0xFFFF (chan t n).gap 1 }).setFld hd
    (satAdd (2 ^ ((Fld.FIFO_CH_CNT_DROP n).hi + 1 - (Fld.FIFO_CH_CNT_DROP n).lo) - 1) (fld (Machine.setChan t n
      { chan t n with gap := satAdd 0xFFFF (chan t n).gap 1 }) (Fld.FIFO_CH_CNT_DROP n)) 1)
  unfold Machine.dropPacket
  dsimp only
  split
  · next hn => exact h1.setFlag (hi hn)
  · exact h1

/-- A packet is written, with a handover where it straddles the banks, or dropped (R490, R491, R497). -/
theorem admitPacket (h : OnlyFifo l s t) (hl : packetFlds ⊆ l) {n : Nat} (hn : n < 9) (ws : List Word) :
    OnlyFifo l s (admitPacket t n ws) := by
  rcases admitPacket_cases t n ws with ⟨c, e⟩ | ⟨c, e⟩ | e <;> rw [e]
  · exact h.setChan n c
  · exact (h.setChan n c).raiseAvail hl n
  · exact h.dropPacket (hl (cntDrop_mem_packetFlds hn)) fun h8 => hl (intBit_drop_mem_packetFlds h8)

/-- A packet on the writer's channel raises no interrupt: at most its drop is counted (R490, R497). -/
theorem admitPacket_jnl (h : OnlyFifo l s t) (hl : Fld.FIFO_CH_CNT_DROP 8 ∈ l) (ws : List Word) :
    OnlyFifo l s (Machine.admitPacket t 8 ws) := by
  rcases admitPacket_cases t 8 ws with ⟨c, e⟩ | ⟨c, e⟩ | e <;> rw [e]
  · exact h.setChan 8 c
  · exact h.setChan 8 c
  · exact h.dropPacket hl fun h8 => absurd h8 (by decide)

end OnlyFifo

/-! ### Fault records -/

/-- Nothing but registers, of those only the fields listed, channels, the link's queue and the tag's copies changed. -/
def OnlyReports (l : List Field) (s t : State) : Prop :=
  t = { s with regs := t.regs, fresh := t.fresh, fifo := t.fifo, lnk := t.lnk, tag := t.tag } ∧ FldsKept l s t

namespace OnlyReports

variable {l : List Field} {s t : State}

theorem refl (l : List Field) (s : State) : OnlyReports l s s := ⟨rfl, .refl l s⟩

theorem fifo (h : OnlyReports l s t) {u : State} (hu : OnlyFifo l t u) : OnlyReports l s u :=
  ⟨by rw [hu.1, h.1], h.2.trans hu.2⟩

theorem setFld (h : OnlyReports l s t) {f : Field} (hf : f ∈ l) (v : Nat) : OnlyReports l s (setFld t f v) :=
  h.fifo ((OnlyFifo.refl l t).setFld hf v)

theorem setFlag (h : OnlyReports l s t) {f : Field} (hf : f ∈ l) : OnlyReports l s (setFlag t f) :=
  h.fifo ((OnlyFifo.refl l t).setFlag hf)

theorem setLnk (h : OnlyReports l s t) (x : Lnk) : OnlyReports l s { t with lnk := x } :=
  ⟨by rw [h.1], h.2.regs rfl⟩

theorem setTag (h : OnlyReports l s t) (x : Tag) : OnlyReports l s { t with tag := x } :=
  ⟨by rw [h.1], h.2.regs rfl⟩

theorem admitPacket (h : OnlyReports l s t) (hl : packetFlds ⊆ l) {n : Nat} (hn : n < 9) (ws : List Word) :
    OnlyReports l s (admitPacket t n ws) := h.fifo ((OnlyFifo.refl l t).admitPacket hl hn ws)

theorem emitBoth (h : OnlyReports l s t) (hl : packetFlds ⊆ l) {n : Nat} (hn : n < 9) (tag : Nat) (ws : List Word) :
    OnlyReports l s (emitBoth t n tag ws) := (h.admitPacket hl hn ws).admitPacket hl (by decide) _

/-- An automatic report is queued, or reported FULL (R441). -/
theorem autoFlt (h : OnlyReports l s t) (hl : packetFlds ⊆ l) (ws : List Word) : OnlyReports l s (autoFlt t ws) := by
  unfold Machine.autoFlt autoReport queueFrame
  split
  · split
    · exact (h.admitPacket hl (by decide) _).setFlag (hl intBit_txDone_mem_packetFlds)
    · exact h.setLnk _
  · exact h

theorem fault (h : OnlyReports l s t) (hl : packetFlds ⊆ l) (blk inst code : Nat) (detail : List Byte) :
    OnlyReports l s (fault t blk inst code detail) := by
  have h1 := (h.emitBoth hl (n := 7) (by decide) (0x03 + detail.length * 2 ^ 8)
    (fltWords (q64 t) blk inst code detail)).autoFlt hl (fltWords (q64 t) blk inst code detail)
  unfold Machine.fault
  dsimp only
  split
  · exact h1.setTag _
  · exact h1

end OnlyReports

end Sys2Proof.Machine

/-! Sightings (R31, R450–R459): the table's entries, the merging of a read, the closure of an entry. -/

namespace Sys2Proof.Machine

/-! ### Counters that saturate -/

theorem satAdd_eq_min (top a b : Nat) : satAdd top a b = min top (a + b) := by
  unfold satAdd
  split <;> omega

/-- A saturating counter counts up to all ones (R142, R179). -/
theorem fld_incSat_self (s : State) (f : Field) (n : Nat) (h : f.hi < 32) :
    fld (incSat s f n) f = min (2 ^ (f.hi + 1 - f.lo) - 1) (fld s f + n) := by
  have hp : 0 < 2 ^ (f.hi + 1 - f.lo) := Nat.two_pow_pos _
  rw [incSat, fld_setFld_self s f _ h, satAdd_eq_min, Nat.mod_eq_of_lt (by omega)]

theorem FldsKept.fld_eq {l : List Field} {s t : State} (h : FldsKept l s t) {f : Field} (hf : ∀ g ∈ l, f.apart g) :
    fld t f = fld s f := h f hf

theorem FldsKept.flag_eq {l : List Field} {s t : State} (h : FldsKept l s t) {f : Field} (hf : ∀ g ∈ l, f.apart g) :
    flag t f = flag s f := by rw [flag, h.fld_eq hf, flag]

/-! ### The table -/

/-- Replacing an entry in force leaves the others. -/
theorem sgtAt_sgtPut (s : State) (n m : Nat) (e : Sighting) :
    sgtAt (sgtPut s n e) m = if m = n then (sgtAt s n).map fun _ => e else sgtAt s m := by
  unfold sgtAt sgtPut
  dsimp only
  induction s.sgt.open_ with
  | nil => simp
  | cons p l ih =>
    by_cases hp : p.1 = n <;> by_cases hm : p.1 = m
    · simp [← hp, ← hm]
    · simpa [← hp, hm, Ne.symm hm] using ih
    · simp [hp, ← hm]
    · simpa [hp, hm] using ih

theorem isSome_sgtAt_of_mem {s : State} {n : Nat} {e : Sighting} (h : (n, e) ∈ s.sgt.open_) : (sgtAt s n).isSome := by
  rw [sgtAt, Option.isSome_map, List.find?_isSome]
  exact ⟨_, h, beq_self_eq_true n⟩

/-- Looking a number up among entries that are kept by their numbers. -/
theorem find?_filter_fst {α : Type} (l : List (Nat × α)) (c : Nat → Bool) (m : Nat) :
    (l.filter fun p => c p.1).find? (fun p => p.1 == m) = if c m then l.find? fun p => p.1 == m else none := by
  rw [List.find?_filter]
  split
  · next h =>
    congr 1; funext p
    by_cases hp : p.1 = m <;> simp [hp, h]
  · next h =>
    rw [List.find?_eq_none]
    rintro p - hp
    simp only [decide_eq_true_eq, beq_iff_eq] at hp
    exact h (hp.2 ▸ hp.1)

theorem sgtAt_sgtOpen_self (s : State) (n : Nat) (e : Sighting) : sgtAt (sgtOpen s n e) n = some e := by
  simp [sgtAt, sgtOpen, List.find?_append, find?_filter_fst s.sgt.open_ (fun k => decide (k < n)) n]

theorem sgtAt_sgtOpen_ne (s : State) {n m : Nat} (e : Sighting) (h : m ≠ n) : sgtAt (sgtOpen s n e) m = sgtAt s m := by
  unfold sgtAt sgtOpen
  dsimp only
  rw [List.find?_append, List.find?_append, find?_filter_fst _ (fun k => decide (k < n)),
    find?_filter_fst _ (fun k => decide (n < k))]
  rcases Nat.lt_or_gt_of_ne h with hlt | hgt
  · simp [hlt, Nat.lt_asymm hlt, Ne.symm h]
  · simp [hgt, Nat.lt_asymm hgt, Ne.symm h]

/-! ### What a read does to its entry (R451, R452, R458) -/

/-- A role read writes the direction fields and DGRP, and may set a flag. -/
theorem sgtRole_frame (s : State) (e : Sighting) (r : TagRead) (off : Nat) :
    ∃ d f uf df up dp ul dl, sgtRole s e r off = { e with
      dgrp := d, flags := f, upFirst := uf, dnFirst := df, upPeak := up, dnPeak := dp, upLvl := ul, dnLvl := dl } := by
  unfold sgtRole sgtFlag
  dsimp only
  split
  · exact ⟨_, _, _, _, _, _, _, _, rfl⟩
  · (repeat' split) <;> exact ⟨_, _, _, _, _, _, _, _, rfl⟩

theorem ite_sgtFlag (c : Prop) [Decidable c] (e : Sighting) (k : Nat) :
    (if c then sgtFlag e k else e) = { e with flags := if c then e.flags ||| 2 ^ k else e.flags } := by
  split <;> rfl

/-- A read updates its entry's times, counts and strongest read, and nothing that names the entry (R451, R452). -/
theorem sgtUpdate_frame (s : State) (e : Sighting) (r : TagRead) :
    ∃ d f uf df up dp ul dl, sgtUpdate s e r = { e with
      last := r.q64, lastAt := r.at_, rpMask := e.rpMask ||| 2 ^ r.rp, count := satAdd 0xFFFF e.count 1
      hold := if r.hold = 0 then s.sgt.hold else r.hold
      pc := if r.tech = 0 then r.pc else 0
      peak := if e.count = 0 ∨ r.level < e.peak then r.level else e.peak
      peakRp := if e.count = 0 ∨ r.level < e.peak then r.rp else e.peakRp
      dgrp := d, flags := f, upFirst := uf, dnFirst := df, upPeak := up, dnPeak := dp, upLvl := ul, dnLvl := dl } := by
  unfold sgtUpdate
  simp only [ite_sgtFlag]
  obtain ⟨d, f, uf, df, up, dp, ul, dl, h⟩ := sgtRole_frame s _ r (offsetMs e.firstAt r.at_)
  rw [h]
  refine ⟨d, f, uf, df, up, dp, ul, dl, ?_⟩
  split <;> rfl

/-! ### Closure (R453–R459) -/

/-- Nothing but registers, of those only the fields listed, channels and the table changed. -/
def OnlySgt (l : List Field) (s t : State) : Prop :=
  t = { s with regs := t.regs, fresh := t.fresh, fifo := t.fifo, sgt := t.sgt } ∧ FldsKept l s t

namespace OnlySgt

variable {l : List Field} {s t : State}

theorem fifo (h : OnlySgt l s t) {u : State} (hu : OnlyFifo l t u) : OnlySgt l s u :=
  ⟨by rw [hu.1, h.1], h.2.trans hu.2⟩

theorem setSgt (h : OnlySgt l s t) (x : Sgt) : OnlySgt l s { t with sgt := x } := ⟨by rw [h.1], h.2.regs rfl⟩

end OnlySgt

/-- The flags and counters of a closure's reason (R453–R456): EARLY_CLOSE, an entry open too long, an entry lost to an SRAM error. -/
def closeFlags (why : Option Nat) (s : State) : State :=
  match why with
  | some 0 => raise (setFlag (incSat s Fld.SGT_CNT1_EARLY 1) Fld.SGT_STAT_EARLY) 58
  | some 1 => incSat s Fld.SGT_CNT1_LONG 1
  | some 5 => setFlag s Fld.SGT_STAT_INVALID
  | _ => s

/-- A closed entry counts in its zone's intervals, which alone change (R459). -/
theorem sgtCount_frame (s : State) (e : Sighting) (dir : Nat) :
    ∃ z, sgtCount s e dir = { s with sgt := { s.sgt with zones := z } } := by
  unfold sgtCount setZone
  dsimp only
  (repeat' split) <;> exact ⟨_, rfl⟩

/-- The table without an entry. -/
def sgtWithout (s : State) (n : Nat) (freed : List (Nat × List Byte)) : State :=
  { s with sgt := { s.sgt with open_ := s.sgt.open_.filter (fun p => p.1 != n), freed := freed } }

/-- A closure (R455–R459): the entry leaves the table, its packets go out, it is counted, and its reason's flags are set. -/
theorem sgtClose_of_open {s : State} {n : Nat} {e0 : Sighting} (h : sgtAt s n = some e0) (why : Option Nat) :
    ∃ freed u z, OnlyFifo packetFlds (sgtWithout s n freed) u ∧
      sgtClose s n why = let t := closeFlags why (incSat u Fld.SGT_CNT0_CLOSED 1)
        { t with sgt := { t.sgt with zones := z } } := by
  have hc : ∃ u e dir, sgtClose s n why = sgtCount (closeFlags why (incSat u Fld.SGT_CNT0_CLOSED 1)) e dir ∧
      ∃ freed, OnlyFifo packetFlds (sgtWithout s n freed) u := by
    unfold sgtClose
    rw [h]
    have admits : ∀ {c : Prop} [Decidable c] {b u : State} (k : Nat) (ws : List Word), k < 9 → OnlyFifo packetFlds b u →
        OnlyFifo packetFlds b (if c then admitPacket u k ws else u) :=
      fun k ws hk hu => .ite (hu.admitPacket (List.Subset.refl _) hk ws) hu
    exact ⟨_, _, _, rfl, _, admits 8 _ (by decide) (admits 0 _ (by decide) (.refl _ _))⟩
  obtain ⟨u, e, dir, hc, freed, hu⟩ := hc
  obtain ⟨z, hz⟩ := sgtCount_frame (closeFlags why (incSat u Fld.SGT_CNT0_CLOSED 1)) e dir
  exact ⟨freed, u, z, hu, hc.trans hz⟩

@[simp] theorem closeFlags_sgt (why : Option Nat) (s : State) : (closeFlags why s).sgt = s.sgt := by
  unfold closeFlags
  split <;> rfl

theorem OnlyFifo.sgt_eq {l : List Field} {s t : State} (h : OnlyFifo l s t) : t.sgt = s.sgt := by rw [h.1]

/-- A closure takes its entry from the table and leaves the reads that wait (R450, R455). -/
theorem sgtClose_sgt {s : State} {n : Nat} {e0 : Sighting} (h : sgtAt s n = some e0) (why : Option Nat) :
    ∃ freed z, (sgtClose s n why).sgt =
      { s.sgt with open_ := s.sgt.open_.filter (fun p => p.1 != n), freed := freed, zones := z } := by
  obtain ⟨freed, u, z, hu, hc⟩ := sgtClose_of_open h why
  refine ⟨freed, z, ?_⟩
  rw [hc]
  simp only [closeFlags_sgt, incSat, setFld_sgt, hu.sgt_eq]
  rfl

theorem sgtClose_of_free {s : State} {n : Nat} (h : sgtAt s n = none) (why : Option Nat) : sgtClose s n why = s := by
  unfold sgtClose
  rw [h]

@[simp] theorem sgtClose_waiting (s : State) (n : Nat) (why : Option Nat) :
    (sgtClose s n why).sgt.waiting = s.sgt.waiting := by
  cases h : sgtAt s n with
  | none => rw [sgtClose_of_free h]
  | some e =>
    obtain ⟨freed, z, hs⟩ := sgtClose_sgt h why
    rw [hs]

/-- A closed entry is free. -/
theorem sgtAt_sgtClose_self {s : State} {n : Nat} {e : Sighting} (h : sgtAt s n = some e) (why : Option Nat) :
    sgtAt (sgtClose s n why) n = none := by
  obtain ⟨freed, z, hs⟩ := sgtClose_sgt h why
  rw [sgtAt, hs, find?_filter_fst s.sgt.open_ (fun k => k != n)]
  simp

theorem apart_packetFlds_sgt {f : Field} (h : f.addr = Adr.SGT_STAT ∨ f.addr = Adr.SGT_CNT0 ∨ f.addr = Adr.SGT_CNT1) :
    ∀ g ∈ packetFlds, f.apart g := by
  refine apart_packetFlds ?_ ?_ fun n hn => ?_
  · rcases h with h | h | h <;> rw [h] <;> decide
  · rcases h with h | h | h <;> rw [h] <;> decide
  · rcases h with h | h | h <;> rw [h] <;> (revert n; decide)

/-- What EARLY_CLOSE writes beside the table (R455). -/
def earlyFlds : List Field :=
  [Fld.SGT_STAT_EARLY, intBit 58, Fld.SGT_CNT1_EARLY, Fld.SGT_CNT0_CLOSED] ++ packetFlds

theorem packetFlds_subset_earlyFlds : packetFlds ⊆ earlyFlds := List.subset_append_right _ _

/-- EARLY_CLOSE counts twice, in all closures and in its own, and raises its flag and its interrupt (R455). -/
theorem sgtClose_early {s : State} {n : Nat} {e : Sighting} (h : sgtAt s n = some e) :
    OnlySgt earlyFlds s (sgtClose s n (some 0)) ∧ flag (sgtClose s n (some 0)) Fld.SGT_STAT_EARLY = true ∧
      flag (sgtClose s n (some 0)) (intBit 58) = true ∧
      fld (sgtClose s n (some 0)) Fld.SGT_CNT1_EARLY = min 0xFFFF (fld s Fld.SGT_CNT1_EARLY + 1) ∧
      fld (sgtClose s n (some 0)) Fld.SGT_CNT0_CLOSED = min 0xFFFFFFFF (fld s Fld.SGT_CNT0_CLOSED + 1) := by
  obtain ⟨freed, u, z, hu, hc⟩ := sgtClose_of_open h (some 0)
  rw [hc]
  have hCnt1 : fld u Fld.SGT_CNT1_EARLY = fld s Fld.SGT_CNT1_EARLY := hu.2.fld_eq (apart_packetFlds_sgt (.inr (.inr rfl)))
  have hCnt0 : fld u Fld.SGT_CNT0_CLOSED = fld s Fld.SGT_CNT0_CLOSED := hu.2.fld_eq (apart_packetFlds_sgt (.inr (.inl rfl)))
  let v := incSat (incSat u Fld.SGT_CNT0_CLOSED 1) Fld.SGT_CNT1_EARLY 1
  refine ⟨?_, ?_, ?_, ?_, ?_⟩
  · have hw : OnlySgt earlyFlds s (sgtWithout s n freed) := ⟨rfl, (FldsKept.refl _ s).regs rfl⟩
    have hv : OnlyFifo earlyFlds (sgtWithout s n freed) v :=
      ((hu.mono packetFlds_subset_earlyFlds).setFld (by simp [earlyFlds]) _).setFld (by simp [earlyFlds]) _
    exact (hw.fifo ((hv.setFlag (by simp [earlyFlds])).setFlag (by simp [earlyFlds]))).setSgt _
  · exact (flag_setFld_apart (setFlag v Fld.SGT_STAT_EARLY) (intBit 58) _ 1 (by decide)).trans
      (flag_setFlag_self v _ (by decide) rfl)
  · exact flag_raise_self (setFlag v Fld.SGT_STAT_EARLY) 58 (by decide)
  · calc fld (raise (setFlag v Fld.SGT_STAT_EARLY) 58) Fld.SGT_CNT1_EARLY
        = fld (setFlag v Fld.SGT_STAT_EARLY) Fld.SGT_CNT1_EARLY := fld_setFld_apart _ _ _ 1 (by decide)
      _ = fld v Fld.SGT_CNT1_EARLY := fld_setFld_apart _ _ _ 1 (by decide)
      _ = min 0xFFFF (fld (incSat u Fld.SGT_CNT0_CLOSED 1) Fld.SGT_CNT1_EARLY + 1) := fld_incSat_self _ _ 1 (by decide)
      _ = min 0xFFFF (fld s Fld.SGT_CNT1_EARLY + 1) := by rw [incSat, fld_setFld_apart _ _ _ _ (by decide), hCnt1]
  · calc fld (raise (setFlag v Fld.SGT_STAT_EARLY) 58) Fld.SGT_CNT0_CLOSED
        = fld (setFlag v Fld.SGT_STAT_EARLY) Fld.SGT_CNT0_CLOSED := fld_setFld_apart _ _ _ 1 (by decide)
      _ = fld v Fld.SGT_CNT0_CLOSED := fld_setFld_apart _ _ _ 1 (by decide)
      _ = fld (incSat u Fld.SGT_CNT0_CLOSED 1) Fld.SGT_CNT0_CLOSED := fld_setFld_apart _ _ _ _ (by decide)
      _ = min 0xFFFFFFFF (fld u Fld.SGT_CNT0_CLOSED + 1) := fld_incSat_self _ _ 1 (by decide)
      _ = min 0xFFFFFFFF (fld s Fld.SGT_CNT0_CLOSED + 1) := by rw [hCnt0]

/-! ### Merging (R31, R450) -/

/-- The read that a command brings, as it is merged: with the mark of a time step that it met while it waited (R461). -/
def mergedRead (s : State) (r : ReadIn) : TagRead :=
  { readOf s r with stepped := s.sgt.waiting.any fun w => sameRead w (readOf s r) && w.stepped }

/-- The reads that wait, replaced. -/
def withWaiting (s : State) (l : List TagRead) : State := { s with sgt := { s.sgt with waiting := l } }

/-! Where a new entry goes (R450, R455). -/

theorem sgtMakeRoom_of_free {s : State} {n : Nat} (h : sgtFree s = some n) : sgtMakeRoom s = (s, n) := by
  unfold sgtMakeRoom
  generalize sgtFree s = o at h
  subst h
  rfl

/-- Choosing among elements by a running comparison gives one of them. -/
theorem foldl_pick_mem {α : Type} (c : α → α → Bool) (p : α) (l : List α) :
    l.foldl (fun b q => if c q b then q else b) p ∈ p :: l := by
  induction l generalizing p with
  | nil => exact List.mem_singleton_self p
  | cons q l ih =>
    rw [List.foldl_cons]
    split
    · exact List.mem_cons_of_mem _ (ih q)
    · exact List.mem_cons.mpr ((List.mem_cons.mp (ih p)).imp_right (List.mem_cons_of_mem _))

/-- The open entry with the earliest FIRST, which EARLY_CLOSE closes (R455). -/
def earliestOpen (p : Nat × Sighting) (ps : List (Nat × Sighting)) : Nat × Sighting :=
  ps.foldl (fun b q => if q.2.first < b.2.first then q else b) p

theorem earliestOpen_mem (p : Nat × Sighting) (ps : List (Nat × Sighting)) : earliestOpen p ps ∈ p :: ps := by
  simpa [earliestOpen] using foldl_pick_mem (fun q b : Nat × Sighting => decide (q.2.first < b.2.first)) p ps

theorem open_ne_nil_of_full {s : State} (h : sgtFree s = none) : s.sgt.open_ ≠ [] := by
  intro hl
  unfold sgtFree firstBelow at h
  rw [List.find?_eq_none] at h
  exact h 0 (List.mem_range.mpr (by omega)) (by simp [sgtAt, hl])

/-- With no entry free an open one is closed early and its number taken. -/
theorem sgtMakeRoom_of_full {s : State} (h : sgtFree s = none) :
    ∃ k e, sgtAt s k = some e ∧ sgtMakeRoom s = (sgtClose s k (some 0), k) := by
  have hne := open_ne_nil_of_full h
  cases hl : s.sgt.open_ with
  | nil => exact absurd hl hne
  | cons p ps =>
    obtain ⟨e, he⟩ := Option.isSome_iff_exists.mp (isSome_sgtAt_of_mem (hl ▸ earliestOpen_mem p ps))
    refine ⟨(earliestOpen p ps).1, e, he, ?_⟩
    unfold sgtMakeRoom
    generalize sgtFree s = o at h
    subst h
    rw [hl]
    rfl

/-- Making room leaves the reads that wait. -/
theorem sgtMakeRoom_waiting (s : State) : (sgtMakeRoom s).1.sgt.waiting = s.sgt.waiting := by
  cases h : sgtFree s with
  | some n => rw [sgtMakeRoom_of_free h]
  | none =>
    obtain ⟨k, e, -, hk⟩ := sgtMakeRoom_of_full h
    rw [hk, sgtClose_waiting]

@[simp] theorem sgtOpen_waiting (s : State) (n : Nat) (e : Sighting) : (sgtOpen s n e).sgt.waiting = s.sgt.waiting := rfl

@[simp] theorem sgtPut_waiting (s : State) (n : Nat) (e : Sighting) : (sgtPut s n e).sgt.waiting = s.sgt.waiting := rfl

/-! A read joins the entry of its key or opens one (R450). -/

theorem sgtMerge_joins {s : State} {r : TagRead} {n : Nat} {e : Sighting}
    (h : s.sgt.open_.find? (fun p => sgtKey p.2 r.tech r.id (zoneOf s r.rp)) = some (n, e)) :
    sgtMerge s r = sgtPut s n (sgtUpdate s e r) := by
  rw [sgtMerge, h]

/-- The entry that a read opens, before the read counts in it. -/
def newSighting (r : TagRead) (zone : Nat) : Sighting :=
  { id := r.id, first := r.q64, last := r.q64, firstAt := r.at_, lastAt := r.at_, tech := r.tech, zone := zone
    stepped := r.stepped }

theorem sgtMerge_opens {s : State} {r : TagRead}
    (h : s.sgt.open_.find? (fun p => sgtKey p.2 r.tech r.id (zoneOf s r.rp)) = none) :
    sgtMerge s r = sgtOpen (sgtMakeRoom s).1 (sgtMakeRoom s).2
      (sgtUpdate (sgtMakeRoom s).1 (newSighting r (zoneOf s r.rp)) r) := by
  rw [sgtMerge, h]
  rfl

theorem sgtMerge_waiting (s : State) (r : TagRead) : (sgtMerge s r).sgt.waiting = s.sgt.waiting := by
  cases h : s.sgt.open_.find? fun p => sgtKey p.2 r.tech r.id (zoneOf s r.rp) with
  | some p => rw [sgtMerge_joins h, sgtPut_waiting]
  | none => rw [sgtMerge_opens h, sgtOpen_waiting, sgtMakeRoom_waiting]

theorem mergeAll_waiting (s : State) (l : List TagRead) : (mergeAll s l).sgt.waiting = s.sgt.waiting :=
  foldl_keeps (fun t => t.sgt.waiting = s.sgt.waiting) _ (fun t r h => (sgtMerge_waiting t r).trans h) _ _ rfl

/-- A read with an identifier is merged behind those that stand before it in the order of R31. -/
theorem readMerge_eq {s : State} {r : ReadIn} (h : r.id ≠ []) {left : List TagRead}
    (hl : left = s.sgt.waiting.eraseP fun w => sameRead w (readOf s r)) :
    readMerge s r = sgtMerge (mergeAll (withWaiting s (left.filter fun w => !readLe w (readOf s r)))
      (left.filter fun w => readLe w (readOf s r))) (mergedRead s r) := by
  have hid : (r.id.take 16).isEmpty = false := by
    cases hr : r.id with
    | nil => exact absurd hr h
    | cons b l => rfl
  subst hl
  unfold readMerge
  simp only [readOf, hid]
  rfl

/-- A read that none stands before is merged at once. -/
theorem readMerge_first {s : State} {r : ReadIn} (h : r.id ≠ []) {left : List TagRead}
    (hl : left = s.sgt.waiting.eraseP fun w => sameRead w (readOf s r))
    (hf : ∀ w ∈ left, readLe w (readOf s r) = false) :
    readMerge s r = sgtMerge (withWaiting s left) (mergedRead s r) := by
  have h0 : (left.filter fun w => readLe w (readOf s r)) = [] :=
    List.filter_eq_nil_iff.mpr fun w hw => by simp [hf w hw]
  have h1 : (left.filter fun w => !readLe w (readOf s r)) = left :=
    List.filter_eq_self.mpr fun w hw => by simp [hf w hw]
  rw [readMerge_eq h hl, h0, h1]
  rfl

/-! ### READ_MERGE -/

theorem exec_readMerge (r : ReadIn) (s : State) : exec (.readMerge r) s = .next (readMerge s r) := rfl

/-- The reads that wait after a merge: those that stand behind the one merged (R31). -/
theorem readMerge_waiting {s : State} {r : ReadIn} (h : r.id ≠ []) {left : List TagRead}
    (hl : left = s.sgt.waiting.eraseP fun w => sameRead w (readOf s r)) :
    (readMerge s r).sgt.waiting = left.filter fun w => !readLe w (readOf s r) := by
  rw [readMerge_eq h hl, sgtMerge_waiting, mergeAll_waiting]
  rfl

theorem toNat_eq_zero_iff {n : Nat} {v : BitVec n} : v.toNat = 0 ↔ v = 0 :=
  ⟨fun h => BitVec.eq_of_toNat_eq (h.trans (BitVec.toNat_zero).symm), fun h => h ▸ BitVec.toNat_zero⟩

section

variable {s : State} {r : ReadIn} {left : List TagRead} (hid : r.id ≠ [])
  (hl : left = s.sgt.waiting.eraseP fun w => sameRead w (readOf s r)) (hf : ∀ w ∈ left, readLe w (readOf s r) = false)

include hid hl hf

/-- The read joins the open entry of its key (R450–R452). -/
theorem readMerge_joins {n : Nat} {e : Sighting}
    (hk : s.sgt.open_.find? (fun p => sgtKey p.2 r.tech (r.id.take 16) (zoneOf s r.rp)) = some (n, e)) :
    ∃ t d, exec (.readMerge r) s = .next t ∧ sgtAt t n = some d ∧ d.first = e.first ∧ d.last = r.q64.toNat ∧
      d.count = min 0xFFFF (e.count + 1) ∧ d.rpMask = e.rpMask ||| 2 ^ r.rp.val ∧
      d.hold = (if r.hold = 0 then s.sgt.hold else r.hold.toNat) ∧
      (e.count = 0 ∨ r.level.toNat < e.peak → d.peak = r.level.toNat ∧ d.peakRp = r.rp) ∧
      (0 < e.count → e.peak ≤ r.level.toNat → d.peak = e.peak ∧ d.peakRp = e.peakRp) ∧
      d.id = e.id ∧ d.tech = e.tech ∧ d.zone = e.zone ∧ (∀ m, m ≠ n → sgtAt t m = sgtAt s m) ∧
      t = { s with sgt := t.sgt } := by
  have hm : readMerge s r = sgtPut (withWaiting s left) n (sgtUpdate (withWaiting s left) e (mergedRead s r)) :=
    (readMerge_first hid hl hf).trans (sgtMerge_joins hk)
  obtain ⟨e', he⟩ := Option.isSome_iff_exists.mp (isSome_sgtAt_of_mem (List.mem_of_find?_eq_some hk))
  obtain ⟨d, f, uf, df, up, dp, ul, dl, hu⟩ := sgtUpdate_frame (withWaiting s left) e (mergedRead s r)
  refine ⟨_, sgtUpdate (withWaiting s left) e (mergedRead s r), exec_readMerge r s, ?_, ?_⟩
  · rw [hm, sgtAt_sgtPut, if_pos rfl, show sgtAt (withWaiting s left) n = some e' from he]
    rfl
  · rw [hm, hu]
    refine ⟨rfl, rfl, satAdd_eq_min _ _ _, rfl, if_congr toNat_eq_zero_iff rfl rfl, fun hp => ⟨if_pos hp, if_pos hp⟩,
      fun hc hp => ?_, rfl, rfl, rfl, fun m hne => ?_, rfl⟩
    · have hn : ¬(e.count = 0 ∨ r.level.toNat < e.peak) := by omega
      exact ⟨if_neg hn, if_neg hn⟩
    · rw [sgtAt_sgtPut, if_neg hne]
      rfl

/-- The read opens the lowest free entry (R450–R452). -/
theorem readMerge_opens {n : Nat}
    (hk : s.sgt.open_.find? (fun p => sgtKey p.2 r.tech (r.id.take 16) (zoneOf s r.rp)) = none)
    (hn : sgtFree s = some n) :
    ∃ t d, exec (.readMerge r) s = .next t ∧ sgtAt t n = some d ∧ d.first = r.q64.toNat ∧ d.last = r.q64.toNat ∧
      d.count = 1 ∧ d.rpMask = 2 ^ r.rp.val ∧ d.id = r.id.take 16 ∧ d.tech = r.tech ∧ d.zone = zoneOf s r.rp ∧
      d.peak = r.level.toNat ∧ d.peakRp = r.rp ∧ (∀ m, m ≠ n → sgtAt t m = sgtAt s m) ∧ t = { s with sgt := t.sgt } := by
  let w := withWaiting s left
  let e := newSighting (mergedRead s r) (zoneOf s r.rp)
  have hm : readMerge s r = sgtOpen w n (sgtUpdate w e (mergedRead s r)) := by
    rw [readMerge_first hid hl hf, sgtMerge_opens hk, sgtMakeRoom_of_free (s := withWaiting s left) hn]
    rfl
  obtain ⟨d, f, uf, df, up, dp, ul, dl, hu⟩ := sgtUpdate_frame w e (mergedRead s r)
  refine ⟨_, sgtUpdate w e (mergedRead s r), exec_readMerge r s, ?_, ?_⟩
  · rw [hm, sgtAt_sgtOpen_self]
  · rw [hm, hu]
    refine ⟨rfl, rfl, rfl, Nat.zero_or _, rfl, rfl, rfl, rfl, rfl, fun m hne => ?_, rfl⟩
    rw [sgtAt_sgtOpen_ne _ _ hne]
    rfl

/-- With the table full EARLY_CLOSE makes room for the read (R450, R455). -/
theorem readMerge_closes_early
    (hk : s.sgt.open_.find? (fun p => sgtKey p.2 r.tech (r.id.take 16) (zoneOf s r.rp)) = none) (hn : sgtFree s = none) :
    ∃ t, exec (.readMerge r) s = .next t ∧ flag t Fld.SGT_STAT_EARLY = true ∧ flag t (intBit 58) = true ∧
      fld t Fld.SGT_CNT1_EARLY = min 0xFFFF (fld s Fld.SGT_CNT1_EARLY + 1) ∧
      fld t Fld.SGT_CNT0_CLOSED = min 0xFFFFFFFF (fld s Fld.SGT_CNT0_CLOSED + 1) ∧
      FldsKept ([Fld.SGT_STAT_EARLY, intBit 58, Fld.SGT_CNT1_EARLY, Fld.SGT_CNT0_CLOSED] ++ packetFlds) s t ∧
      t = { s with regs := t.regs, fresh := t.fresh, fifo := t.fifo, sgt := t.sgt } := by
  obtain ⟨k, e, he, hroom⟩ := sgtMakeRoom_of_full (s := withWaiting s left) hn
  obtain ⟨⟨hframe, hkept⟩, hflag, hint, hearly, hclosed⟩ := sgtClose_early he
  have hm := (readMerge_first hid hl hf).trans (sgtMerge_opens hk)
  rw [hroom] at hm
  refine ⟨_, exec_readMerge r s, ?_⟩
  rw [hm]
  refine ⟨hflag, hint, hearly, hclosed, fun g hg => hkept g hg, ?_⟩
  rw [sgtOpen, hframe]
  rfl

end

/-- Settles O29: a read is merged behind those before it, and joins the entry of its key, opens a free one, or has one closed early. -/
theorem readsMergeByKey : Obligations.ReadsMergeByKey := by
  unfold Obligations.ReadsMergeByKey
  intro s r left hid hl
  refine ⟨⟨_, exec_readMerge r s, readMerge_waiting hid hl, fun w hw => ?_⟩, fun n e hf hk => readMerge_joins hid hl hf hk,
    fun n hf hk hn => readMerge_opens hid hl hf hk hn, fun hf hk hn => readMerge_closes_early hid hl hf hk hn⟩
  rw [readMerge_waiting hid hl] at hw
  simpa using (List.mem_filter.mp hw).2

end Sys2Proof.Machine

/-! The paths of the UHF front end (R181–R203): what their moves touch, and the ways into SETTLE. -/

namespace Sys2Proof.Machine

/-! ### What a path's moves touch -/

@[simp] theorem pathSt_setPathSt_self (s : State) (p : RfPath) (x : PathSt) : pathSt (setPathSt s p x) p = x := by
  cases p <;> rfl

@[simp] theorem pathSt_setPathSt_other (s : State) (p : RfPath) (x : PathSt) :
    pathSt (setPathSt s p x) (otherPath p) = pathSt s (otherPath p) := by
  cases p <;> rfl

theorem setPathSt_radio (s : State) (p : RfPath) (x : PathSt) :
    setPathSt s p x = { s with radio := (setPathSt s p x).radio } := by
  cases p <;> rfl

@[simp] theorem pathSt_setFld (s : State) (f : Field) (v : Nat) (p : RfPath) : pathSt (setFld s f v) p = pathSt s p := by
  cases p <;> rfl

/-- A state with the same front end has the same paths. -/
theorem pathSt_congr {s t : State} (h : t.radio = s.radio) (p : RfPath) : pathSt t p = pathSt s p := by
  cases p <;> simp [pathSt, h]

/-- Nothing but registers, of those only the fields listed, the front end, the channels' accounts and calibration changed, and the
other path is as it was. -/
structure OnlyPath (p : RfPath) (l : List Field) (s t : State) : Prop where
  state : t = { s with regs := t.regs, fresh := t.fresh, radio := t.radio, cal := t.cal
                       brm := { s.brm with accounts := t.brm.accounts } }
  other : pathSt t (otherPath p) = pathSt s (otherPath p)
  kept : FldsKept l s t

namespace OnlyPath

variable {p : RfPath} {l : List Field} {s t u : State}

theorem refl (p : RfPath) (l : List Field) (s : State) : OnlyPath p l s s := ⟨rfl, rfl, .refl l s⟩

theorem trans (h : OnlyPath p l s t) (h' : OnlyPath p l t u) : OnlyPath p l s u :=
  ⟨by rw [h'.state, h.state], h'.other.trans h.other, h.kept.trans h'.kept⟩

theorem mono {m : List Field} (h : OnlyPath p l s t) (hl : l ⊆ m) : OnlyPath p m s t := ⟨h.state, h.other, h.kept.mono hl⟩

theorem onlyFlds (h : OnlyFlds l s t) : OnlyPath p l s t :=
  ⟨by rw [h.1], by rw [h.1]; exact pathSt_congr rfl _, h.2⟩

theorem setFld (h : OnlyPath p l s t) {f : Field} (hf : f ∈ l) (v : Nat) : OnlyPath p l s (setFld t f v) :=
  h.trans (onlyFlds ((OnlyFlds.refl l t).setFld hf v))

theorem setPathSt (h : OnlyPath p l s t) (x : PathSt) : OnlyPath p l s (setPathSt t p x) :=
  h.trans ⟨by rw [setPathSt_radio], pathSt_setPathSt_other t p x, by rw [setPathSt_radio]; exact (FldsKept.refl l t).regs rfl⟩

theorem setCal (h : OnlyPath p l s t) (c : Cal) : OnlyPath p l s { t with cal := c } :=
  h.trans ⟨rfl, pathSt_congr rfl _, (FldsKept.refl l t).regs rfl⟩

theorem setAccounts (h : OnlyPath p l s t) (a : List Account) :
    OnlyPath p l s { t with brm := { t.brm with accounts := a } } :=
  h.trans ⟨rfl, pathSt_congr rfl _, (FldsKept.refl l t).regs rfl⟩

theorem setAssigned (h : OnlyPath p l s t) (a : Vector (Option Nat) 4) :
    OnlyPath p l s { t with radio := { t.radio with assigned := a } } :=
  h.trans ⟨rfl, by cases p <;> rfl, (FldsKept.refl l t).regs rfl⟩

theorem paRaise (h : OnlyPath p l s t) (port : Nat) : OnlyPath p l s (paRaise t port) := by
  unfold Machine.paRaise
  split
  · exact h.trans ⟨rfl, by cases p <;> rfl, (FldsKept.refl l t).regs rfl⟩
  · exact h

theorem foldl {α : Type} (f : State → α → State) (L : List α) (hf : ∀ k ∈ L, ∀ u, OnlyPath p l s u → OnlyPath p l s (f u k))
    (h : OnlyPath p l s t) : OnlyPath p l s (L.foldl f t) := by
  induction L generalizing t with
  | nil => exact h
  | cons k L ih => exact ih (fun j hj => hf j (List.mem_cons_of_mem k hj)) (hf k List.mem_cons_self t h)

theorem pathState_other (h : OnlyPath p l s t) (hl : ∀ g ∈ l, (fPath (otherPath p)).apart g) :
    pathState t (otherPath p) = pathState s (otherPath p) := h.kept.fld_eq hl

theorem mem_eq (h : OnlyPath p l s t) : t.mem = s.mem := by rw [h.state]

theorem sched_eq (h : OnlyPath p l s t) : t.sched = s.sched := by rw [h.state]

/-- A path's moves end no round, visit or slot, so the row at which they stand brings no boundary (R38, R39). -/
theorem row_eq {run : State → State} (h : OnlyPath p l s (run s)) : row s run = run s := by
  have hw : workEnded s (run s) = false := by
    rw [h.state]
    unfold workEnded
    simp
  rw [row, if_neg (by simp [hw])]

/-- The slots that a tune may use are as they were. -/
theorem findSlot_eq (h : OnlyPath p l s t) (hl : ∀ g ∈ l, g.addr < 0xC00) (chan : Nat) : findSlot t p chan = findSlot s p chan := by
  have hw : ∀ n, slotWord t p n = slotWord s p n := fun n =>
    h.kept.reg_eq fun g hg e => absurd (hl g hg) (by
      rw [← e]
      cases p <;> simp only [slotAdr, Adr.SYNCAL_A, Adr.SYNCAL_B] <;> omega)
  unfold findSlot slotValid slotChan
  simp only [hw]

end OnlyPath

/-! ### The carrier falls, the chains follow, the vectors are loaded -/

/-- The fields that a carrier's fall writes: its flag and its suppression figures. -/
def carrierFlds (p : RfPath) : List Field := fCarr p :: (List.range 4).map fun k => fSupp k p

/-- The fields of the receive chains in use (R181, R223). -/
def chainFlds : List Field :=
  [Fld.RAD_STATE_CHON, Fld.RAD_STATE_CHRATE] ++ (List.range 4).map Fld.RAD_RXC_STAT_ON ++
    (List.range 4).map Fld.RAD_RXC_STAT_RATE

/-- The fields that a way into SETTLE writes. -/
def settleFlds (p : RfPath) : List Field := fPath p :: (carrierFlds p ++ chainFlds)

theorem carrierFlds_subset (p : RfPath) : carrierFlds p ⊆ settleFlds p := fun _ h =>
  List.mem_cons_of_mem _ (List.mem_append_left _ h)

theorem chainFlds_subset (p : RfPath) : chainFlds ⊆ settleFlds p := fun _ h =>
  List.mem_cons_of_mem _ (List.mem_append_right _ h)

theorem fPath_apart_chainFlds (p : RfPath) : ∀ g ∈ chainFlds, (fPath p).apart g := by
  unfold Field.apart
  cases p <;> decide

theorem fCarr_apart_chainFlds (p : RfPath) : ∀ g ∈ chainFlds, (fCarr p).apart g := by
  unfold Field.apart
  cases p <;> decide

theorem fPort_apart_settleFlds (p : RfPath) : ∀ g ∈ settleFlds p, (fPort p).apart g := by
  unfold Field.apart
  cases p <;> decide

theorem otherPath_apart_settleFlds (p : RfPath) : ∀ g ∈ settleFlds p, (fPath (otherPath p)).apart g := by
  unfold Field.apart
  cases p <;> decide

theorem carrierFlds_below_slots (p : RfPath) : ∀ g ∈ carrierFlds p, g.addr < 0xC00 := by
  cases p <;> decide

theorem setCalInst_onlyPath (p : RfPath) (s : State) (x : CalInst) : OnlyPath p (carrierFlds p) s (setCalInst s x) :=
  (OnlyPath.refl p _ s).setCal _

theorem calTrigger_onlyPath (p : RfPath) (s : State) (item inst : Nat) (slots : List Nat) :
    OnlyPath p (carrierFlds p) s (calTrigger s item inst slots) := by
  unfold calTrigger calMark
  dsimp only
  split
  · split
    · split
      · exact setCalInst_onlyPath p s _
      · exact setCalInst_onlyPath p s _
    · exact setCalInst_onlyPath p s _
  · exact .refl p _ s

theorem accountOff_onlyPath (p : RfPath) (s : State) (c : Nat) : OnlyPath p (carrierFlds p) s (accountOff s c) := by
  unfold accountOff
  dsimp only
  split
  · exact (OnlyPath.refl p _ s).setAccounts _
  · exact .refl p _ s

/-- A carrier that is off stays off. -/
theorem carrierOff_of_off {s : State} {p : RfPath} (h : fld s (fCarr p) = 0) : carrierOff s p = s := by
  simp [carrierOff, flag, h]

/-- Whether a carrier is on is one bit. -/
theorem fld_fCarr_of_flag {s : State} {p : RfPath} (h : flag s (fCarr p) = false) : fld s (fCarr p) = 0 := by
  have h2 : fld s (fCarr p) < 2 := by
    cases p <;> exact Nat.mod_lt _ (by decide)
  have h1 : fld s (fCarr p) ≠ 1 := by simpa [flag] using h
  omega

/-- The path with its carrier's flag cleared and its suppression figures and residuals gone (R213). -/
def carrierCleared (s : State) (p : RfPath) : State :=
  let s2 := (List.range 4).foldl (fun t k => clrFld t (fSupp k p)) (accountOff (clrFld s (fCarr p)) (pathSt s p).chan)
  setPathSt s2 p { pathSt s2 p with resid := Vector.replicate 4 127 }

theorem suppCleared_onlyPath (p : RfPath) (s : State) :
    OnlyPath p ((List.range 4).map fun k => fSupp k p) s ((List.range 4).foldl (fun t k => clrFld t (fSupp k p)) s) :=
  OnlyPath.foldl _ _ (fun _ hk _ h => h.setFld (List.mem_map_of_mem hk) 0) (.refl p _ s)

theorem carrierCleared_onlyPath (s : State) (p : RfPath) : OnlyPath p (carrierFlds p) s (carrierCleared s p) :=
  ((((OnlyPath.refl p (carrierFlds p) s).setFld List.mem_cons_self 0).trans (accountOff_onlyPath p _ _)).trans
    ((suppCleared_onlyPath p _).mono (List.subset_cons_self _ _))).setPathSt _

theorem regs_accountOff (s : State) (c : Nat) : (accountOff s c).regs = s.regs := by
  unfold accountOff
  dsimp only
  split <;> rfl

theorem fld_fCarr_carrierCleared (s : State) (p : RfPath) : fld (carrierCleared s p) (fCarr p) = 0 := by
  have hsupp : ∀ g ∈ (List.range 4).map fun k => fSupp k p, (fCarr p).apart g := by
    unfold Field.apart
    cases p <;> decide
  unfold carrierCleared
  dsimp only
  rw [fld_congr (s := (List.range 4).foldl (fun t k => clrFld t (fSupp k p)) (accountOff (clrFld s (fCarr p)) (pathSt s p).chan))
      (by rw [setPathSt_radio]), (suppCleared_onlyPath p _).kept.fld_eq hsupp, fld_congr (regs_accountOff _ _),
    fld_clrFld_self s (fCarr p) (by cases p <;> decide)]

theorem regs_calTrigger (s : State) (item inst : Nat) (slots : List Nat) : (calTrigger s item inst slots).regs = s.regs := by
  unfold calTrigger calMark
  dsimp only
  (repeat' split) <;> rfl

/-- A carrier's fall: nothing, or the cleared path with what its trim makes due (R213, R564). -/
theorem carrierOff_cases (s : State) (p : RfPath) :
    carrierOff s p = s ∧ fld s (fCarr p) = 0 ∨ carrierOff s p = carrierCleared s p ∨
      ∃ inst, carrierOff s p = calTrigger (carrierCleared s p) 2 inst [] := by
  cases hf : flag s (fCarr p) with
  | false => exact .inl ⟨carrierOff_of_off (fld_fCarr_of_flag hf), fld_fCarr_of_flag hf⟩
  | true =>
    refine .inr ?_
    unfold carrierOff
    rw [if_pos hf]
    dsimp only
    split
    · exact .inr ⟨_, rfl⟩
    · exact .inl rfl

theorem carrierOff_onlyPath (s : State) (p : RfPath) : OnlyPath p (carrierFlds p) s (carrierOff s p) := by
  rcases carrierOff_cases s p with ⟨e, -⟩ | e | ⟨inst, e⟩ <;> rw [e]
  · exact .refl p _ s
  · exact carrierCleared_onlyPath s p
  · exact (carrierCleared_onlyPath s p).trans (calTrigger_onlyPath p _ 2 inst [])

theorem fld_fCarr_carrierOff (s : State) (p : RfPath) : fld (carrierOff s p) (fCarr p) = 0 := by
  rcases carrierOff_cases s p with ⟨e, h⟩ | e | ⟨inst, e⟩ <;> rw [e]
  · exact h
  · exact fld_fCarr_carrierCleared s p
  · rw [fld_congr (regs_calTrigger _ _ _ _), fld_fCarr_carrierCleared]

theorem mem_chainFlds_on {k : Nat} (h : k ∈ List.range 4) : Fld.RAD_RXC_STAT_ON k ∈ chainFlds :=
  List.mem_append_left _ (List.mem_append_right _ (List.mem_map_of_mem h))

theorem mem_chainFlds_rate {k : Nat} (h : k ∈ List.range 4) : Fld.RAD_RXC_STAT_RATE k ∈ chainFlds :=
  List.mem_append_right _ (List.mem_map_of_mem h)

theorem foldl_onlyFlds {α : Type} {l : List Field} {s t : State} (f : State → α → State) (L : List α)
    (hf : ∀ k ∈ L, ∀ u, OnlyFlds l s u → OnlyFlds l s (f u k)) (h : OnlyFlds l s t) : OnlyFlds l s (L.foldl f t) := by
  induction L generalizing t with
  | nil => exact h
  | cons k L ih => exact ih (fun j hj => hf j (List.mem_cons_of_mem k hj)) (hf k List.mem_cons_self t h)

theorem OnlyFlds.ite {l : List Field} {s t u : State} {c : Prop} [Decidable c] (ht : OnlyFlds l s t) (hu : OnlyFlds l s u) :
    OnlyFlds l s (if c then t else u) := by
  split
  · exact ht
  · exact hu

/-- The chains in use are shown in their own fields. -/
theorem setChains_onlyFlds (s : State) : OnlyFlds chainFlds s (setChains s) := by
  unfold setChains
  dsimp only
  refine foldl_onlyFlds _ _ (fun k hk _ h => ?_)
    (((OnlyFlds.refl chainFlds s).setFld (by simp [chainFlds]) _).setFld (by simp [chainFlds]) _)
  exact (h.setFlag (mem_chainFlds_on hk)).ite ((h.setFld (mem_chainFlds_on hk) 0).setFld (mem_chainFlds_rate hk) 0)

theorem radio_setChains (s : State) : (setChains s).radio = s.radio := by rw [(setChains_onlyFlds s).1]

theorem regs_loadVectors (s : State) (p : RfPath) : (loadVectors s p).regs = s.regs := by
  unfold loadVectors
  rw [setPathSt_radio]

/-- Vectors are loaded into the path (R211). -/
theorem pathSt_loadVectors (s : State) (p : RfPath) :
    ∃ v, pathSt (loadVectors s p) p = { pathSt s p with vectors := v } := ⟨_, pathSt_setPathSt_self s p _⟩

theorem regs_paRaise (s : State) (port : Nat) : (paRaise s port).regs = s.regs := by
  unfold paRaise
  split <;> rfl

theorem pathSt_paRaise (s : State) (port : Nat) (p : RfPath) : pathSt (paRaise s port) p = pathSt s p := by
  unfold paRaise
  split
  · cases p <;> rfl
  · rfl

/-! ### The way into SETTLE (R182) -/

/-- The path has entered SETTLE for a channel and a use, with what it holds to transmit. -/
structure Settles (p : RfPath) (chan : Nat) (use_ : PathUse) (held : Option HeldTx) (s t : State) : Prop where
  frame : OnlyPath p (settleFlds p) s t
  state : pathState t p = 2
  carr : fld t (fCarr p) = 0
  chan_ : (pathSt t p).chan = chan
  use : (pathSt t p).use_ = use_
  unlocked : (pathSt t p).locked = false
  held_ : (pathSt t p).held = held
  slot : (pathSt t p).slot = findSlot s p chan

/-- The external PA follows; the path is not touched (R203). -/
theorem Settles.paRaise {p : RfPath} {chan : Nat} {use_ : PathUse} {held : Option HeldTx} {s t : State}
    (h : Settles p chan use_ held s t) (port : Nat) : Settles p chan use_ held s (paRaise t port) := by
  obtain ⟨frame, state, carr, chan_, use, unlocked, held_, slot⟩ := h
  have hp := pathSt_paRaise t port p
  have hf := fld_congr (regs_paRaise t port)
  exact ⟨frame.paRaise port, (hf _).trans state, (hf _).trans carr, by rw [hp, chan_], by rw [hp, use],
    by rw [hp, unlocked], by rw [hp, held_], by rw [hp, slot]⟩

/-- A path that is in SETTLE loads its vectors. -/
theorem Settles.loadVectors {p : RfPath} {chan : Nat} {use_ : PathUse} {held : Option HeldTx} {s t : State}
    (h : Settles p chan use_ held s t) : Settles p chan use_ held s (loadVectors t p) := by
  obtain ⟨frame, state, carr, chan_, use, unlocked, held_, slot⟩ := h
  obtain ⟨v, hp⟩ := pathSt_loadVectors t p
  have hf := fld_congr (regs_loadVectors t p)
  exact ⟨frame.setPathSt _, (hf _).trans state, (hf _).trans carr, by rw [hp, chan_], by rw [hp, use],
    by rw [hp, unlocked], by rw [hp, held_], by rw [hp, slot]⟩

/-- The path's registers and its own state, as the way into SETTLE writes them. -/
theorem settles_setChains {s t : State} {p : RfPath} (ht : OnlyPath p (carrierFlds p) s t) (hc : fld t (fCarr p) = 0)
    {x : PathSt} {chan : Nat} {use_ : PathUse} {held : Option HeldTx} (hch : x.chan = chan) (hu : x.use_ = use_)
    (hh : x.held = held) (hl : x.locked = false) (hs : x.slot = findSlot s p chan) :
    Settles p chan use_ held s (setChains (setFld (setPathSt t p x) (fPath p) 2)) := by
  have hx : pathSt (setChains (setFld (setPathSt t p x) (fPath p) 2)) p = x := by
    rw [pathSt_congr (radio_setChains _), pathSt_setFld, pathSt_setPathSt_self]
  have hstate : fld (setFld (setPathSt t p x) (fPath p) 2) (fPath p) = 2 := by
    rw [fld_setFld_self _ (fPath p) 2 (by cases p <;> decide)]
    cases p <;> rfl
  have hcarr : fld (setFld (setPathSt t p x) (fPath p) 2) (fCarr p) = 0 := by
    rw [fld_setFld_apart _ _ _ _ (by cases p <;> decide), fld_congr (s := t) (by rw [setPathSt_radio]), hc]
  refine ⟨?_, ?_, ?_, by rw [hx, hch], by rw [hx, hu], by rw [hx, hl], by rw [hx, hh], by rw [hx, hs]⟩
  · exact (((ht.mono (carrierFlds_subset p)).setPathSt x).setFld List.mem_cons_self 2).trans
      (.onlyFlds ((setChains_onlyFlds _).mono (chainFlds_subset p)))
  · exact ((setChains_onlyFlds _).2.fld_eq (fPath_apart_chainFlds p)).trans hstate
  · exact ((setChains_onlyFlds _).2.fld_eq (fCarr_apart_chainFlds p)).trans hcarr

/-- A tune that keeps to the spacing rules takes the path into SETTLE. -/
theorem enterSettle_settles {s : State} {p : RfPath} {chan : Nat} {use_ : PathUse} {held : Option HeldTx}
    (h : spacingBreaks (carrierOff s p) p chan use_ = false) : Settles p chan use_ held s (enterSettle s p chan use_ held) := by
  have hs := carrierOff_onlyPath s p
  have hslot := hs.findSlot_eq (carrierFlds_below_slots p) chan
  unfold enterSettle
  dsimp only
  rw [if_neg (by simp [h])]
  split
  · apply Settles.loadVectors
    exact settles_setChains hs (fld_fCarr_carrierOff s p) rfl rfl rfl rfl hslot
  · apply Settles.paRaise
    apply Settles.loadVectors
    exact settles_setChains hs (fld_fCarr_carrierOff s p) rfl rfl rfl rfl hslot

/-! ### The commands -/

theorem execTune_settles {s : State} {p : RfPath} {chan : BitVec 14} {use_ : PathUse} (hmay : pathMay s p = true)
    (h0 : pathState s p ≠ 0) (h6 : pathState s p ≠ 6) (hsp : spacingBreaks (carrierOff s p) p chan.toNat use_ = false) :
    ∃ t, exec (.tune p chan use_) s = .next t ∧ Settles p chan.toNat use_ none s t := by
  have e : tune s p chan.toNat use_ = enterSettle s p chan.toNat use_ none := by
    unfold tune
    rw [if_neg (by simp [hmay])]
    split
    · next h => exact absurd h h0
    · next h => exact absurd h h6
    · rfl
  have ht := enterSettle_settles (held := none) hsp
  exact ⟨_, congrArg Host.Outcome.next ((OnlyPath.row_eq (run := fun t => tune t p chan.toNat use_) (e ▸ ht.frame)).trans e), ht⟩

/-- A transmit command to a path in IDLE (R182, R192). -/
theorem txCommand_of_idle {s : State} {p : RfPath} {chan port idx : Nat} {use_ : PathUse} (hmay : pathMay s p = true)
    (hu : use_ ≠ .rxon) (hp : powerOk s port idx = true) (h1 : pathState s p = 1) :
    txCommand s p use_ chan port idx = enterSettle (setFld s (fPort p) port) p chan use_
      (some { since := none, use_ := use_, port := port, index := idx }) := by
  unfold txCommand
  simp [hmay, hu, hp, h1]

/-- A hop of a reader's carrier (R195). -/
theorem hop_of_read {s : State} {p : RfPath} {chan : Nat} (h5 : pathState s p = 5) :
    hop s p chan = enterSettle s p chan .read (some { since := some s.clk.now, use_ := (pathSt s p).use_,
                                                      port := fld s (fTxPort p), index := fld s (fIdx p) }) := by
  unfold hop
  simp [h5]

/-- The path's port and read point, as a grant's visit assigns them (R196). -/
theorem assignRp_onlyPath (s : State) (p : RfPath) (rp : Nat) : OnlyPath p [fPort p] s (assignRp s p rp) :=
  (((OnlyPath.refl p [fPort p] s).setAssigned _).setPathSt _).setFld List.mem_cons_self _

theorem pathSt_assignRp (s : State) (p : RfPath) (rp : Nat) : (pathSt (assignRp s p rp) p).readPoint = some rp := by
  unfold assignRp
  dsimp only
  rw [pathSt_setFld, pathSt_setPathSt_self]

/-- The fields that a change of port writes. -/
def switchFlds (p : RfPath) : List Field := fPort p :: carrierFlds p

theorem fPath_apart_switchFlds (p q : RfPath) : ∀ g ∈ switchFlds p, (fPath q).apart g := by
  unfold Field.apart
  cases p <;> cases q <;> decide

theorem assignRp_carrierOff_onlyPath (s : State) (p : RfPath) (rp : Nat) :
    OnlyPath p (switchFlds p) s (assignRp (carrierOff s p) p rp) :=
  ((carrierOff_onlyPath s p).mono (List.subset_cons_self _ _)).trans
    ((assignRp_onlyPath _ p rp).mono (by simp))

/-- A change of port drops the carrier and holds its command for the new port (R196). -/
theorem portSwitch_of_read {s : State} {p : RfPath} {rp : Nat} (h5 : pathState s p = 5) :
    ∃ port, portSwitch s p rp = paRaise (loadVectors (setPathSt (assignRp (carrierOff s p) p rp) p
      { pathSt (assignRp (carrierOff s p) p rp) p with
        held := some { since := none, use_ := .read, port := port, index := fld s (fIdx p) } }) p) port := by
  unfold portSwitch
  rw [if_neg (by simp [h5])]
  exact ⟨_, rfl⟩

theorem fld_fCarr_assignRp (s : State) (p : RfPath) (rp : Nat) : fld (assignRp s p rp) (fCarr p) = fld s (fCarr p) :=
  (assignRp_onlyPath s p rp).kept.fld_eq (by unfold Field.apart; cases p <;> decide)

/-- A refused access counts one violation (R23). -/
theorem violation_viol (s : State) :
    fld (violation s) Fld.SYS_SCHCNT2_VIOL = min 0xFFFF (fld s Fld.SYS_SCHCNT2_VIOL + 1) :=
  fld_incSat_self s Fld.SYS_SCHCNT2_VIOL 1 (by decide)

theorem violation_onlyFlds (s : State) : OnlyFlds [Fld.SYS_SCHCNT2_VIOL] s (violation s) :=
  (OnlyFlds.refl _ s).setFld List.mem_cons_self _

theorem exec_of_not_pathMay {s : State} {p : RfPath} (h : pathMay s p = false) (chan : BitVec 14) (use_ : PathUse)
    (port : Fin 4) (index : BitVec 7) (rp : Fin 64) :
    exec (.tune p chan use_) s = .next (violation s) ∧ exec (.txCommand p use_ chan port index) s = .next (violation s) ∧
      exec (.hop p chan) s = .next (violation s) ∧ exec (.portSwitch p rp) s = .next (violation s) := by
  have hv := OnlyPath.onlyFlds (p := p) (violation_onlyFlds s)
  have htune : tune s p chan.toNat use_ = violation s := by simp [tune, h]
  have htx : txCommand s p use_ chan.toNat port index.toNat = violation s := by simp [txCommand, h]
  refine ⟨congrArg Host.Outcome.next ?_, congrArg Host.Outcome.next ?_, congrArg Host.Outcome.next (if_neg (by simp [h])),
    congrArg Host.Outcome.next (if_neg (by simp [h]))⟩
  · exact (OnlyPath.row_eq (run := fun t => tune t p chan.toNat use_) (htune ▸ hv)).trans htune
  · exact (OnlyPath.row_eq (run := fun t => txCommand t p use_ chan.toNat port index.toNat) (htx ▸ hv)).trans htx

theorem execTune_of_off {s : State} {p : RfPath} (hmay : pathMay s p = true) (h0 : pathState s p = 0) (chan : BitVec 14)
    (use_ : PathUse) : exec (.tune p chan use_) s = .next s := by
  have e : tune s p chan.toNat use_ = s := by simp [tune, hmay, h0]
  exact congrArg Host.Outcome.next ((OnlyPath.row_eq (p := p) (run := fun t => tune t p chan.toNat use_) (by rw [e]; exact .refl p [] s)).trans e)

theorem execTxCommand_settles {s : State} {p : RfPath} {chan : BitVec 14} {use_ : PathUse} {port : Fin 4} {index : BitVec 7}
    (hmay : pathMay s p = true) (hu : use_ ≠ .rxon) (hp : powerOk s port index.toNat = true) (h1 : pathState s p = 1)
    (hc : fld s (fCarr p) = 0) (hsp : spacingBreaks (setFld s (fPort p) port) p chan.toNat use_ = false) :
    ∃ t, exec (.txCommand p use_ chan port index) s = .next t ∧
      OnlyPath p (fPort p :: settleFlds p) s t ∧ Settles p chan.toNat use_
        (some { since := none, use_ := use_, port := port, index := index.toNat }) (setFld s (fPort p) port) t := by
  have e := txCommand_of_idle (chan := chan.toNat) hmay hu hp h1
  have hc' : fld (setFld s (fPort p) port) (fCarr p) = 0 := by
    rw [fld_setFld_apart _ _ _ _ (by cases p <;> decide), hc]
  have ht := enterSettle_settles (held := some { since := none, use_ := use_, port := port, index := index.toNat })
    (by rwa [carrierOff_of_off hc'])
  have hframe := ((OnlyPath.refl p (fPort p :: settleFlds p) s).setFld List.mem_cons_self port).trans
    (ht.frame.mono (List.subset_cons_self _ _))
  exact ⟨_, congrArg Host.Outcome.next ((OnlyPath.row_eq (run := fun t => txCommand t p use_ chan.toNat port index.toNat)
    (e ▸ hframe)).trans e), hframe, ht⟩

theorem execHop_settles {s : State} {p : RfPath} {chan : BitVec 14} (hmay : pathMay s p = true) (h5 : pathState s p = 5)
    (hsp : spacingBreaks (carrierOff s p) p chan.toNat .read = false) :
    ∃ t, exec (.hop p chan) s = .next t ∧ Settles p chan.toNat .read
      (some { since := some s.clk.now, use_ := (pathSt s p).use_, port := fld s (fTxPort p), index := fld s (fIdx p) }) s t := by
  have e := hop_of_read (chan := chan.toNat) h5
  have ht := enterSettle_settles (held := some { since := some s.clk.now, use_ := (pathSt s p).use_, port := fld s (fTxPort p),
                                                 index := fld s (fIdx p) }) hsp
  exact ⟨_, congrArg Host.Outcome.next ((if_pos hmay).trans
    ((OnlyPath.row_eq (run := fun t => hop t p chan.toNat) (e ▸ ht.frame)).trans e)), ht⟩

theorem execPortSwitch_of_read {s : State} {p : RfPath} {rp : Fin 64} (hmay : pathMay s p = true) (h5 : pathState s p = 5) :
    ∃ t, exec (.portSwitch p rp) s = .next t ∧ OnlyPath p (switchFlds p) s t ∧ fld t (fCarr p) = 0 ∧
      (pathSt t p).readPoint = some rp.val ∧ (pathSt t p).held.map (·.index) = some (fld s (fIdx p)) := by
  obtain ⟨port, e⟩ := portSwitch_of_read (rp := rp.val) h5
  refine ⟨portSwitch s p rp.val, congrArg Host.Outcome.next (if_pos hmay), ?_⟩
  rw [e, pathSt_paRaise, fld_congr (regs_paRaise _ _), fld_congr (regs_loadVectors _ _)]
  generalize hx : ({ pathSt (assignRp (carrierOff s p) p rp) p with
    held := some { since := none, use_ := .read, port := port, index := fld s (fIdx p) } } : PathSt) = x
  obtain ⟨v, hv⟩ := pathSt_loadVectors (setPathSt (assignRp (carrierOff s p) p rp) p x) p
  rw [hv, pathSt_setPathSt_self, ← hx]
  refine ⟨(((assignRp_carrierOff_onlyPath s p rp).setPathSt _).setPathSt _).paRaise port, ?_, pathSt_assignRp _ p rp, rfl⟩
  rw [fld_congr (s := assignRp (carrierOff s p) p rp) (by rw [setPathSt_radio]), fld_fCarr_assignRp, fld_fCarr_carrierOff]

/-- Settles O18: each command's way into SETTLE is one equation, whose frame ends no round, visit or slot. -/
theorem pathsSettleOnCommand : Obligations.PathsSettleOnCommand := by
  unfold Obligations.PathsSettleOnCommand
  intro s p chan use_ port index rp
  refine ⟨fun h => ⟨violation s, violation_viol s, violation_onlyFlds s, exec_of_not_pathMay h chan use_ port index rp⟩,
    fun hmay h0 => execTune_of_off hmay h0 chan use_, fun hmay h0 h6 hsp => ?tune, fun hmay hu hp h1 hc hsp => ?tx,
    fun hmay h5 hsp => ?hop, fun hmay h5 => ?portSwitch⟩
  case tune =>
    obtain ⟨t, e, frame, state, carr, chan_, use, unlocked, held, slot⟩ := execTune_settles hmay h0 h6 hsp
    exact ⟨t, e, state, chan_, use, unlocked, held, slot, carr, frame.other,
      frame.pathState_other (otherPath_apart_settleFlds p), frame.mem_eq, frame.sched_eq⟩
  case tx =>
    obtain ⟨t, e, frame, settled⟩ := execTxCommand_settles hmay hu hp h1 hc hsp
    have hport : fld t (fPort p) = port := by
      rw [settled.frame.kept.fld_eq (fPort_apart_settleFlds p), fld_setFld_self s _ _ (by cases p <;> decide)]
      cases p <;> exact Nat.mod_eq_of_lt port.isLt
    have hother := frame.pathState_other (List.forall_mem_cons.mpr
      ⟨by unfold Field.apart; cases p <;> decide, otherPath_apart_settleFlds p⟩)
    exact ⟨t, e, settled.state, settled.chan_, settled.held_, settled.carr, hport, hother, frame.mem_eq, frame.sched_eq⟩
  case hop =>
    obtain ⟨t, e, frame, state, carr, chan_, use, unlocked, held, slot⟩ := execHop_settles hmay h5 hsp
    exact ⟨t, e, state, chan_, carr, held, frame.pathState_other (otherPath_apart_settleFlds p), frame.mem_eq, frame.sched_eq⟩
  case portSwitch =>
    obtain ⟨t, e, frame, carr, readPoint, held⟩ := execPortSwitch_of_read (rp := rp) hmay h5
    exact ⟨t, e, (frame.kept.fld_eq (fPath_apart_switchFlds p p)).trans h5, readPoint, carr, held,
      frame.pathState_other (fPath_apart_switchFlds p (otherPath p)), frame.mem_eq, frame.sched_eq⟩

end Sys2Proof.Machine

/-! Shadow sets at their boundaries (R32–R42, R609): the swap of words, refusal, acceptance, and the parts of a parted set. -/

namespace Sys2Proof.Machine

/-! ### The commit registers -/

/-- The shadow part of every commit register is empty: read off the map at each of the 382 instances. -/
theorem accMask_commitAddr_sh {b : BlockInst} (h : validInst b = true) : accMask (commitAddr b) .sh = 0 :=
  (by decide +kernel : ∀ c ∈ allInsts, accMask (commitAddr c) .sh = 0) b (mem_allInsts h)

theorem commitAddr_ne_int {b : BlockInst} (h : validInst b = true) :
    commitAddr b ≠ Adr.HSP_INT0 ∧ commitAddr b ≠ Adr.HSP_INT1 :=
  (by decide +kernel : ∀ c ∈ allInsts, commitAddr c ≠ Adr.HSP_INT0 ∧ commitAddr c ≠ Adr.HSP_INT1) b (mem_allInsts h)

theorem commitAddr_ne_drop {b : BlockInst} (h : validInst b = true) :
    ∀ n < 9, commitAddr b ≠ (Fld.FIFO_CH_CNT_DROP n).addr :=
  (by decide +kernel : ∀ c ∈ allInsts, ∀ n < 9, commitAddr c ≠ (Fld.FIFO_CH_CNT_DROP n).addr) b (mem_allInsts h)

theorem commitAddr_ne_grsStat {b : BlockInst} (h : validInst b = true) : commitAddr b ≠ Adr.GRS_STAT :=
  (by decide +kernel : ∀ c ∈ allInsts, commitAddr c ≠ Adr.GRS_STAT) b (mem_allInsts h)

/-- No field of a commit register is one that packets write. -/
theorem commitField_apart_packetFlds {b : BlockInst} (h : validInst b = true) {f : Field} (hf : f.addr = commitAddr b) :
    ∀ g ∈ packetFlds, f.apart g :=
  apart_packetFlds (hf ▸ (commitAddr_ne_int h).1) (hf ▸ (commitAddr_ne_int h).2) (hf ▸ commitAddr_ne_drop h)

/-- A field of another register is apart from PEND and COMMIT. -/
theorem reg_setPend_ne (s : State) (b : BlockInst) (v : Nat) {a : Nat} (h : a ≠ commitAddr b) :
    reg (setPend s b v) a = reg s a := by
  rw [setPend, reg_setFld_ne _ _ _ h, reg_setFld_ne _ _ _ h]

theorem flag_setPend_zero (s : State) (b : BlockInst) : flag (setPend s b 0) (cPend b) = false := by
  rw [flag, fld_setPend_pend]
  rfl

/-! ### The swap of words (R32, R36) -/

/-- A staged word goes into force in its shadow bits. -/
def swapWord (t : State) (q : Nat × Word) : State := setReg t q.1 (inForce t q)

theorem swapWords_eq (s : State) (b : BlockInst) (f : Nat → Bool) :
    swapWords s b f = { ((stagedOf s b).filter fun q => f q.1).foldl swapWord s with
      shadow := s.shadow.filter fun q => !(blockOf q.1 == some b && f q.1) } := by
  have hsh : ∀ (ws : RegFile) (t : State), (ws.foldl swapWord t).shadow = t.shadow := fun ws => by
    induction ws with
    | nil => exact fun _ => rfl
    | cons q ws ih => exact fun t => ih (swapWord t q)
  rw [← hsh ((stagedOf s b).filter fun q => f q.1) s]
  rfl

theorem swapFold_frame (ws : RegFile) (t : State) : ws.foldl swapWord t = { t with regs := (ws.foldl swapWord t).regs } := by
  induction ws generalizing t with
  | nil => rfl
  | cons q ws ih => rw [List.foldl_cons, ih]; rfl

theorem reg_swapFold_of_not_mem (ws : RegFile) (t : State) {a : Nat} (h : ∀ q ∈ ws, q.1 ≠ a) :
    reg (ws.foldl swapWord t) a = reg t a := by
  induction ws generalizing t with
  | nil => rfl
  | cons q ws ih =>
    obtain ⟨hq, hws⟩ := List.forall_mem_cons.mp h
    rw [List.foldl_cons, ih _ hws, swapWord, reg_setReg_ne _ _ (Ne.symm hq)]

theorem inForce_of_sh {t : State} {q : Nat × Word} (h : accMask q.1 .sh = 0) : inForce t q = reg t q.1 := by
  rw [inForce, h, BitVec.ofNat_eq_ofNat, BitVec.not_zero, BitVec.and_allOnes, BitVec.and_zero, BitVec.or_zero]

theorem reg_swapFold_of_sh (ws : RegFile) (t : State) {a : Nat} (h : accMask a .sh = 0) :
    reg (ws.foldl swapWord t) a = reg t a := by
  induction ws generalizing t with
  | nil => rfl
  | cons q ws ih =>
    rw [List.foldl_cons, ih, swapWord, reg_setReg]
    split
    · next e => subst e; exact inForce_of_sh h
    · rfl

/-- Putting a word into force twice is putting it in once. -/
theorem inForce_swapWord (t : State) (p : Nat × Word) : inForce (swapWord t p) p = inForce t p := by
  have e : reg (swapWord t p) p.1 = inForce t p := reg_setReg_self t _ _
  rw [inForce, e, inForce]
  ext i
  simp only [BitVec.getElem_or, BitVec.getElem_and, BitVec.getElem_not]
  cases (accMask p.1 Acc.sh)[i] <;> simp

theorem inForce_congr {s t : State} {p : Nat × Word} (h : reg t p.1 = reg s p.1) : inForce t p = inForce s p := by
  rw [inForce, h, inForce]

theorem reg_swapFold_of_mem (ws : RegFile) (t : State) {p : Nat × Word} (hp : p ∈ ws) (hu : ∀ q ∈ ws, q.1 = p.1 → q = p) :
    reg (ws.foldl swapWord t) p.1 = inForce t p := by
  induction ws generalizing t with
  | nil => exact absurd hp List.not_mem_nil
  | cons q ws ih =>
    obtain ⟨hq, hws⟩ := List.forall_mem_cons.mp hu
    rw [List.foldl_cons]
    by_cases hmem : p ∈ ws
    · rw [ih _ hmem hws]
      by_cases e : q.1 = p.1
      · rw [hq e, inForce_swapWord]
      · exact inForce_congr (reg_setReg_ne t _ (Ne.symm e))
    · obtain rfl : p = q := (List.mem_cons.mp hp).resolve_right hmem
      rw [reg_swapFold_of_not_mem ws _ fun q hq e => hmem (hws q hq e ▸ hq)]
      exact reg_setReg_self t _ _

/-- The words staged for a block, as fields. -/
def stagedFlds (s : State) (b : BlockInst) : List Field := (stagedOf s b).map fun p => whole p.1

theorem mem_stagedFlds {s : State} {b : BlockInst} {q : Nat × Word} (h : q ∈ stagedOf s b) : whole q.1 ∈ stagedFlds s b :=
  List.mem_map_of_mem h

theorem blockOf_of_mem_stagedOf {s : State} {b : BlockInst} {q : Nat × Word} (h : q ∈ stagedOf s b) : blockOf q.1 = some b :=
  eq_of_beq (List.mem_filter.mp h).2

theorem swapWords_frame (s : State) (b : BlockInst) (f : Nat → Bool) :
    swapWords s b f = { s with regs := (swapWords s b f).regs, shadow := (swapWords s b f).shadow } := by
  rw [swapWords_eq, swapFold_frame]

theorem kept_swapFold (l : List Field) (ws : RegFile) (t : State) (h : ∀ q ∈ ws, whole q.1 ∈ l) :
    FldsKept l t (ws.foldl swapWord t) := by
  induction ws generalizing t with
  | nil => exact .refl l t
  | cons q ws ih =>
    obtain ⟨hq, hws⟩ := List.forall_mem_cons.mp h
    exact ((FldsKept.refl l t).setReg hq _).trans (ih _ hws)

theorem swapWords_kept_flds (s : State) (b : BlockInst) (f : Nat → Bool) : FldsKept (stagedFlds s b) s (swapWords s b f) := by
  rw [swapWords_eq]
  exact (kept_swapFold _ _ _ fun q hq => mem_stagedFlds (List.mem_filter.mp hq).1).regs rfl

theorem reg_swapWords_of_sh (s : State) (b : BlockInst) (f : Nat → Bool) {a : Nat} (h : accMask a .sh = 0) :
    reg (swapWords s b f) a = reg s a := by
  rw [swapWords_eq]
  exact reg_swapFold_of_sh _ s h

/-- Where no staged word of the set is swapped in, the word in force stays. -/
theorem reg_swapWords_of_not_mem {s : State} {b : BlockInst} {f : Nat → Bool} {a : Nat}
    (h : ∀ q ∈ stagedOf s b, q.1 = a → f a = false) : reg (swapWords s b f) a = reg s a := by
  rw [swapWords_eq]
  exact reg_swapFold_of_not_mem _ s fun q hq e => by
    obtain ⟨hm, hf⟩ := List.mem_filter.mp hq
    rw [e, h q hm e] at hf
    exact Bool.false_ne_true hf

/-- The one word staged at an address comes into force. -/
theorem reg_swapWords_of_mem {s : State} {b : BlockInst} {f : Nat → Bool} {p : Nat × Word} (hp : p ∈ stagedOf s b)
    (hf : f p.1 = true) (hu : ∀ q ∈ stagedOf s b, q.1 = p.1 → q = p) : reg (swapWords s b f) p.1 = inForce s p := by
  rw [swapWords_eq]
  exact reg_swapFold_of_mem _ s (List.mem_filter.mpr ⟨hp, hf⟩) fun q hq => hu q (List.mem_filter.mp hq).1

theorem mem_stagedOf_swapWords {s : State} {b : BlockInst} {f : Nat → Bool} {q : Nat × Word} :
    q ∈ stagedOf (swapWords s b f) b ↔ q ∈ stagedOf s b ∧ f q.1 = false := by
  rw [swapWords_eq]
  simp only [stagedOf, List.mem_filter, beq_iff_eq, Bool.not_eq_true', Bool.and_eq_false_iff, beq_eq_false_iff_ne]
  tauto

/-- The register that holds PEND takes no staged word. -/
theorem reg_swapWords_commit (s : State) {b : BlockInst} (h : validInst b = true) (f : Nat → Bool) :
    reg (swapWords s b f) (commitAddr b) = reg s (commitAddr b) := reg_swapWords_of_sh s b f (accMask_commitAddr_sh h)

theorem fld_of_reg_eq {s t : State} {f : Field} (h : reg t f.addr = reg s f.addr) : fld t f = fld s f := by
  rw [fld, h, fld]

/-! ### A block at its boundary -/

theorem execShadowSwap_at {s : State} {b : BlockInst} (hv : validInst b = true) (hat : atBoundary s b = true) :
    exec (.shadowSwap b) s = .next (settle s) :=
  congrArg Host.Outcome.next (if_pos (by rw [hv, hat]; rfl))

theorem execShadowSwap_away {s : State} {b : BlockInst} (h : validInst b = false ∨ atBoundary s b = false) :
    exec (.shadowSwap b) s = .next s :=
  congrArg Host.Outcome.next (if_neg (by rcases h with h | h <;> simp [h]))

theorem atBoundary_of_commitNew {s : State} {b : BlockInst} (h : commitNew s b = true) : atBoundary s b = false := by
  simp [atBoundary, h]

/-- The only set that is pending settles alone. -/
theorem settle_single {s : State} {b : BlockInst} (hp : pendingInsts s = [b]) (hat : atBoundary s b = true) :
    settle s = boundary s b := by
  simp [settle, hp, hat]

theorem execPartSwap_at {s : State} {b : BlockInst} {n : Nat} (hv : validInst b = true) (hp : isParted b.block = true)
    (hpend : flag s (cPend b) = true) (hat : partAt s b.block n = true) :
    exec (.partSwap b n) s = .next (partSwap (boundary s b) b n) :=
  congrArg Host.Outcome.next (if_pos (by rw [hv, hp, hpend, hat]; rfl))

theorem execPartSwap_away {s : State} {b : BlockInst} {n : Nat} (h : validInst b = false ∨ flag s (cPend b) = false ∨
    isParted b.block = false ∨ partAt s b.block n = false) : exec (.partSwap b n) s = .next s :=
  congrArg Host.Outcome.next (if_neg (by rcases h with h | h | h | h <;> simp [h]))

/-! ### Refusal (R33, R40) -/

/-- What a refusal writes. -/
def refuseFlds (b : BlockInst) : List Field := [cPend b, cCommit b, cReject b, cReason b, intBit 1] ++ packetFlds

theorem packetFlds_subset_refuseFlds (b : BlockInst) : packetFlds ⊆ refuseFlds b := fun _ => List.mem_append_right _

/-- A pending set that fails its check is refused whole. -/
theorem boundary_refuses {s : State} {b : BlockInst} (hpend : flag s (cPend b) = true)
    (hp : isParted b.block = false ∨ partsLeft s b.block = none) (hc : checkOf s b ≠ 0) :
    boundary s b = refuseSet s b (checkOf s b) := by
  unfold boundary acceptParts
  rcases hp with hp | hp
  · simp [hpend, hp, hc]
  · cases isParted b.block <;> simp [hpend, hp, hc]

/-- The commit register as a refusal leaves it, before the fault record. -/
def refusedMark (s : State) (b : BlockInst) (reason : Nat) : State :=
  setFld (setFlag (setPend s b 0) (cReject b)) (cReason b) reason

/-- The refusal reports the set, and raises the interrupt of R42 or not. -/
theorem refuseSet_cases (s : State) (b : BlockInst) (reason : Nat) :
    ∃ blk inst code detail, refuseSet s b reason = fault (refusedMark s b reason) blk inst code detail ∨
      refuseSet s b reason = raise (fault (refusedMark s b reason) blk inst code detail) 1 := by
  refine ⟨blockId b.block, b.inst, 0x01,
    [BitVec.ofNat 8 reason, BitVec.ofNat 8 (fld (refusedMark s b reason) (cSeq b))], ?_⟩
  unfold refuseSet raiseReject
  dsimp only
  split
  · exact .inr rfl
  · exact .inl rfl

theorem refusedMark_reports (s : State) (b : BlockInst) (reason : Nat) :
    OnlyReports (refuseFlds b) s (refusedMark s b reason) :=
  ((((OnlyReports.refl _ s).setFld (by simp [refuseFlds]) 0).setFld (by simp [refuseFlds]) 0).setFlag
    (by simp [refuseFlds])).setFld (by simp [refuseFlds]) reason

theorem refuseSet_reports (s : State) (b : BlockInst) (reason : Nat) :
    OnlyReports (refuseFlds b) s (refuseSet s b reason) := by
  obtain ⟨blk, inst, code, detail, e | e⟩ := refuseSet_cases s b reason <;> rw [e]
  · exact (refusedMark_reports s b reason).fault (packetFlds_subset_refuseFlds b) ..
  · exact ((refusedMark_reports s b reason).fault (packetFlds_subset_refuseFlds b) ..).setFlag (by simp [refuseFlds])

/-- The report of a refusal leaves the commit register. -/
theorem fld_refuseSet {s : State} {b : BlockInst} (hv : validInst b = true) (reason : Nat) {f : Field}
    (hf : f.addr = commitAddr b) : fld (refuseSet s b reason) f = fld (refusedMark s b reason) f := by
  have hfault : ∀ blk inst code detail, fld (fault (refusedMark s b reason) blk inst code detail) f =
      fld (refusedMark s b reason) f := fun blk inst code detail =>
    ((OnlyReports.refl packetFlds (refusedMark s b reason)).fault (List.Subset.refl _) blk inst code detail).2.fld_eq
      (commitField_apart_packetFlds hv hf)
  obtain ⟨blk, inst, code, detail, e | e⟩ := refuseSet_cases s b reason <;> rw [e]
  · exact hfault ..
  · rw [fld_of_reg_eq (reg_raise_ne _ 1 (hf ▸ (commitAddr_ne_int hv).1) (hf ▸ (commitAddr_ne_int hv).2)), hfault]

theorem refusedMark_flds (s : State) (b : BlockInst) (reason : Nat) :
    flag (refusedMark s b reason) (cPend b) = false ∧ flag (refusedMark s b reason) (cReject b) = true ∧
      fld (refusedMark s b reason) (cReason b) = reason % 256 ∧ fld (refusedMark s b reason) (cSeq b) = fld s (cSeq b) := by
  unfold refusedMark
  refine ⟨?_, ?_, fld_setFld_self _ _ _ (by simp [cReason]), ?_⟩
  · rw [flag_setFld_apart _ _ _ _ (by simp [cPend, cReason]), flag, fld_setFlag,
      fld_setFld_apart _ _ _ _ (by simp [cPend, cReject]), fld_setPend_pend]
    rfl
  · rw [flag_setFld_apart _ _ _ _ (by simp [cReject, cReason])]
    exact flag_setFlag_self _ _ (by simp [cReject]) rfl
  · rw [fld_setFld_apart _ _ _ _ (by simp [cSeq, cReason]), fld_setFlag, fld_setFld_apart _ _ _ _ (by simp [cSeq, cReject]),
      setPend, fld_setFld_apart _ _ _ _ (by simp [cSeq, cCommit]), fld_setFld_apart _ _ _ _ (by simp [cSeq, cPend])]

/-- A refused set: its commit register, and nothing else but the reports (R33). -/
theorem refuseSet_flds {s : State} {b : BlockInst} (hv : validInst b = true) (reason : Nat) :
    flag (refuseSet s b reason) (cPend b) = false ∧ flag (refuseSet s b reason) (cReject b) = true ∧
      fld (refuseSet s b reason) (cReason b) = reason % 256 ∧ fld (refuseSet s b reason) (cSeq b) = fld s (cSeq b) := by
  have h : ∀ {f : Field}, f.addr = commitAddr b → fld (refuseSet s b reason) f = fld (refusedMark s b reason) f :=
    fun hf => fld_refuseSet hv reason hf
  rw [flag, flag, h rfl, h rfl, h rfl, h rfl]
  exact refusedMark_flds s b reason

/-! ### Acceptance of a whole set (R32, R34) -/

theorem foldl_cal {α : Type} (f : State → α → State) (hf : ∀ t x, f t x = { t with cal := (f t x).cal }) (L : List α)
    (t : State) : L.foldl f t = { t with cal := (L.foldl f t).cal } := by
  induction L generalizing t with
  | nil => rfl
  | cons x L ih => rw [List.foldl_cons, ih, hf]

/-- Results of calibration that a commit overtakes change in the calibration alone (R568). -/
theorem calCommitted_frame (s : State) (changed covered : List Nat) :
    calCommitted s changed covered = { s with cal := (calCommitted s changed covered).cal } :=
  foldl_cal _ (fun t x => by (repeat' split) <;> rfl) s.cal.insts s

/-- The blocks whose acceptance changes their registers alone. -/
theorem afterSwap_plain {b : BlockInst} (h : b.block = .prot ∨ b.block = .rp ∨ b.block = .hf ∨ b.block = .msp ∨
    b.block = .hsp) (s0 s : State) : afterSwap s0 s b = s := by
  unfold afterSwap
  rcases h with h | h | h | h | h <;> rw [h]

theorem isParted_plain {b : BlockInst} (h : b.block = .prot ∨ b.block = .rp ∨ b.block = .hf ∨ b.block = .msp ∨
    b.block = .hsp) : isParted b.block = false := by
  rcases h with h | h | h | h | h <;> rw [h] <;> rfl

theorem blockOf_drop : ∀ n < 9, blockOf (Fld.FIFO_CH_CNT_DROP n).addr = some ⟨.fifo, 0⟩ := by decide

/-- The commit register as an acceptance leaves it, before the record for the journal. -/
def acceptedMark (s : State) (b : BlockInst) : State := incMod (setPend (swapWords s b fun _ => true) b 0) (cSeq b) 1

/-- A plain set comes into force whole: the words, the commit register, the record for the journal, and what it does to calibration. -/
theorem acceptAll_plain {b : BlockInst} (hb : ∀ s0 s, afterSwap s0 s b = s) (s : State) :
    ∃ ws c, acceptAll s b = { admitPacket (acceptedMark s b) 8 ws with cal := c } := by
  have hrec : ∃ ws, acceptWhole s b = admitPacket (acceptedMark s b) 8 ws := ⟨_, rfl⟩
  obtain ⟨ws, hws⟩ := hrec
  unfold acceptAll
  dsimp only
  rw [hb, calCommitted_frame, hws]
  exact ⟨ws, _, rfl⟩

/-- What an acceptance writes. -/
def acceptFlds (s : State) (b : BlockInst) : List Field :=
  [cPend b, cCommit b, cSeq b, Fld.FIFO_CH_CNT_DROP 8] ++ stagedFlds s b

theorem acceptedMark_kept (s : State) (b : BlockInst) : FldsKept (acceptFlds s b) s (acceptedMark s b) :=
  ((((swapWords_kept_flds s b _).mono fun _ => List.mem_append_right _).setFld (by simp) 0).setFld
    (by simp) 0).setFld (by simp) _

theorem acceptedMark_frame (s : State) (b : BlockInst) : acceptedMark s b = { s with
    regs := (acceptedMark s b).regs, shadow := s.shadow.filter fun q => blockOf q.1 != some b } := by
  have h : (swapWords s b fun _ => true).shadow = s.shadow.filter fun q => blockOf q.1 != some b := by
    rw [swapWords_eq]
    exact List.filter_congr fun q _ => by rw [Bool.and_true]; rfl
  unfold acceptedMark
  rw [swapWords_frame, h]
  rfl

theorem acceptedMark_pend (s : State) (b : BlockInst) : flag (acceptedMark s b) (cPend b) = false := by
  unfold acceptedMark incMod
  rw [flag_setFld_apart _ _ _ _ (by simp [cPend, cSeq]), flag_setPend_zero]

theorem acceptedMark_seq (s : State) {b : BlockInst} (hv : validInst b = true) :
    fld (acceptedMark s b) (cSeq b) = (fld s (cSeq b) + 1) % 256 := by
  have h : fld (setPend (swapWords s b fun _ => true) b 0) (cSeq b) = fld s (cSeq b) := by
    rw [setPend, fld_setFld_apart _ _ _ _ (by simp [cSeq, cCommit]), fld_setFld_apart _ _ _ _ (by simp [cSeq, cPend]),
      fld_of_reg_eq (reg_swapWords_commit s hv _)]
  unfold acceptedMark incMod
  rw [fld_setFld_self _ _ _ (by simp [cSeq]), h]
  exact Nat.mod_mod _ _

theorem acceptedMark_reg {s : State} {b : BlockInst} {p : Nat × Word} (hp : p ∈ stagedOf s b) (hne : p.1 ≠ commitAddr b)
    (hu : ∀ q ∈ stagedOf s b, q.1 = p.1 → q = p) : reg (acceptedMark s b) p.1 = inForce s p := by
  unfold acceptedMark incMod
  rw [reg_setFld_ne _ _ _ hne, reg_setPend_ne _ _ _ hne, reg_swapWords_of_mem hp rfl hu]

theorem boundary_accepts {s : State} {b : BlockInst} (hpend : flag s (cPend b) = true) (hp : isParted b.block = false)
    (hc : checkOf s b = 0) : boundary s b = acceptAll s b := by
  simp [boundary, hpend, hp, hc]

/-- A plain set that has come into force. -/
theorem acceptAll_flds {s : State} {b : BlockInst} (hv : validInst b = true) (hb : ∀ s0 s, afterSwap s0 s b = s)
    (hf : b.block ≠ .fifo) :
    flag (acceptAll s b) (cPend b) = false ∧ fld (acceptAll s b) (cSeq b) = (fld s (cSeq b) + 1) % 256 ∧
      (∀ p ∈ stagedOf s b, p.1 ≠ commitAddr b → (∀ q ∈ stagedOf s b, q.1 = p.1 → q = p) →
        reg (acceptAll s b) p.1 = inForce s p) ∧
      (acceptAll s b).shadow = s.shadow.filter (fun p => blockOf p.1 != some b) ∧
      FldsKept (acceptFlds s b) s (acceptAll s b) ∧
      acceptAll s b = { s with
        regs := (acceptAll s b).regs, fresh := (acceptAll s b).fresh, shadow := (acceptAll s b).shadow
        fifo := (acceptAll s b).fifo, cal := (acceptAll s b).cal } := by
  obtain ⟨ws, c, e⟩ := acceptAll_plain hb s
  have hrec := (OnlyFifo.refl [Fld.FIFO_CH_CNT_DROP 8] (acceptedMark s b)).admitPacket_jnl (List.mem_singleton_self _) ws
  have hreg : ∀ {a : Nat}, a ≠ (Fld.FIFO_CH_CNT_DROP 8).addr → reg (acceptAll s b) a = reg (acceptedMark s b) a := fun ha => by
    rw [e]
    exact hrec.2.reg_eq (List.forall_mem_singleton.mpr ha)
  have hcommit : ∀ {f : Field}, f.addr = commitAddr b → fld (acceptAll s b) f = fld (acceptedMark s b) f := fun hf =>
    fld_of_reg_eq (hreg (hf ▸ commitAddr_ne_drop hv 8 (by decide)))
  have hframe : acceptAll s b = { s with
      regs := (acceptAll s b).regs, fresh := (acceptAll s b).fresh
      shadow := s.shadow.filter (fun p => blockOf p.1 != some b)
      fifo := (acceptAll s b).fifo, cal := (acceptAll s b).cal } := by
    rw [e, hrec.1, acceptedMark_frame]
  have hshadow : (acceptAll s b).shadow = s.shadow.filter (fun p => blockOf p.1 != some b) := by rw [hframe]
  refine ⟨?_, (hcommit rfl).trans (acceptedMark_seq s hv), fun p hp hne hu => ?_, hshadow, ?_, by rw [hshadow]; exact hframe⟩
  · rw [flag, hcommit rfl]
    exact acceptedMark_pend s b
  · refine (hreg fun ha => hf ?_).trans (acceptedMark_reg hp hne hu)
    have hblk := blockOf_of_mem_stagedOf hp
    rw [ha, blockOf_drop 8 (by decide)] at hblk
    exact (congrArg BlockInst.block (Option.some.inj hblk)).symm
  · rw [e]
    exact ((acceptedMark_kept s b).trans (hrec.2.mono (by simp [acceptFlds]))).regs rfl

end Sys2Proof.Machine

/-! The parts of a parted set come into force one by one (R609). -/

namespace Sys2Proof.Machine

/-! ### One part -/

/-- The addresses that come into force with a part: its own, and those of no part. -/
def partMine (blk : Block) (n a : Nat) : Bool :=
  match partOf blk a with
  | some k => k == n
  | none => true

theorem partMine_of_partOf {blk : Block} {n k a : Nat} (h : partOf blk a = some k) : partMine blk n a = (k == n) := by
  rw [partMine, h]

/-- A part's words in force, with what follows from them for calibration and the Gorse baseline (R333, R568). -/
def partWords (s : State) (b : BlockInst) (n : Nat) : State :=
  let s1 := swapWords s b (partMine b.block n)
  let words := ((stagedOf s b).map fun p => p.1).filter (partMine b.block n)
  tuningChanged (calCommitted s1 (differing s s1 words) words) (differing s s1 words)

/-- The rest of the parts waits on, or the last part ends PEND. -/
def partEnd (s : State) (b : BlockInst) (rest : List Nat) : State :=
  if rest.isEmpty then dropStaged (setPend (clearParts s b.block) b 0) b else setParts s b.block rest

theorem partSwap_of_left {s : State} {b : BlockInst} {n : Nat} {l : List Nat} (hl : partsLeft s b.block = some l)
    (hn : n ∈ l) : partSwap s b n = partEnd (partWords s b n) b (l.filter (· != n)) := by
  unfold partSwap
  rw [hl]
  dsimp only
  rw [if_neg (by simp [hn])]
  rfl

theorem partSwap_of_not_left {s : State} {b : BlockInst} {n : Nat} (h : ∀ l, partsLeft s b.block = some l → n ∉ l) :
    partSwap s b n = s := by
  unfold partSwap
  split
  · rfl
  · next l hl => rw [if_pos (by simpa using h l hl)]

/-- A part was swapped in, or it had nothing left to swap. -/
theorem partSwap_cases (s : State) (b : BlockInst) (n : Nat) :
    partSwap s b n = s ∨ ∃ rest, partSwap s b n = partEnd (partWords s b n) b rest := by
  by_cases h : ∀ l, partsLeft s b.block = some l → n ∉ l
  · exact .inl (partSwap_of_not_left h)
  · push Not at h
    obtain ⟨l, hl, hn⟩ := h
    exact .inr ⟨_, partSwap_of_left hl hn⟩

/-! ### What a part's swap touches -/

/-- Nothing but registers, of those only the fields listed, the shadow set, its parts, calibration and Gorse changed. -/
def OnlyParts (l : List Field) (s t : State) : Prop :=
  t = { s with regs := t.regs, fresh := t.fresh, shadow := t.shadow, parts := t.parts, cal := t.cal, grs := t.grs } ∧
    FldsKept l s t

theorem OnlyParts.refl (l : List Field) (s : State) : OnlyParts l s s := ⟨rfl, .refl l s⟩

theorem OnlyParts.trans {l : List Field} {s t u : State} (h : OnlyParts l s t) (h' : OnlyParts l t u) : OnlyParts l s u :=
  ⟨by rw [h'.1, h.1], h.2.trans h'.2⟩

theorem OnlyParts.mono {l m : List Field} {s t : State} (h : OnlyParts l s t) (hl : l ⊆ m) : OnlyParts m s t :=
  ⟨h.1, h.2.mono hl⟩

theorem OnlyParts.setFld {l : List Field} {s t : State} (h : OnlyParts l s t) {f : Field} (hf : f ∈ l) (v : Nat) :
    OnlyParts l s (setFld t f v) := h.trans ⟨rfl, (FldsKept.refl l t).setFld hf v⟩

theorem OnlyParts.setShadow {l : List Field} {s t : State} (h : OnlyParts l s t) (sh : RegFile) :
    OnlyParts l s { t with shadow := sh } := h.trans ⟨rfl, (FldsKept.refl l t).regs rfl⟩

theorem OnlyParts.setParts {l : List Field} {s t : State} (h : OnlyParts l s t) (ps : List (Block × List Nat)) :
    OnlyParts l s { t with parts := ps } := h.trans ⟨rfl, (FldsKept.refl l t).regs rfl⟩

/-- The tuning of an HF port touches GRS_STAT alone (R333). -/
theorem tuningChanged_only (s : State) (changed : List Nat) : OnlyParts [whole Adr.GRS_STAT] s (tuningChanged s changed) := by
  unfold tuningChanged baselineRebuild
  split
  · exact ⟨rfl, ((FldsKept.refl _ s).setReg (List.mem_singleton_self _) _).trans
      (((FldsKept.refl _ _).setReg (List.mem_singleton_self _) _).regs rfl)⟩
  · exact .refl _ s

theorem tuningChanged_shadow (s : State) (changed : List Nat) :
    (tuningChanged s changed).shadow = s.shadow ∧ (tuningChanged s changed).parts = s.parts := by
  unfold tuningChanged
  split <;> exact ⟨rfl, rfl⟩

theorem calCommitted_only (s : State) (changed covered : List Nat) : OnlyParts [] s (calCommitted s changed covered) := by
  rw [calCommitted_frame]
  exact ⟨rfl, (FldsKept.refl [] s).regs rfl⟩

theorem partWords_shadow (s : State) (b : BlockInst) (n : Nat) :
    (partWords s b n).shadow = (swapWords s b (partMine b.block n)).shadow ∧ (partWords s b n).parts = s.parts := by
  unfold partWords
  dsimp only
  rw [(tuningChanged_shadow _ _).1, (tuningChanged_shadow _ _).2, calCommitted_frame]
  exact ⟨rfl, by rw [swapWords_frame]⟩

/-- Beyond the words swapped in, a part writes GRS_STAT alone. -/
theorem swapWords_partWords (s : State) (b : BlockInst) (n : Nat) :
    OnlyParts [whole Adr.GRS_STAT] (swapWords s b (partMine b.block n)) (partWords s b n) :=
  ((calCommitted_only _ _ _).mono (List.nil_subset _)).trans (tuningChanged_only _ _)

theorem reg_partWords (s : State) (b : BlockInst) (n : Nat) {a : Nat} (h : a ≠ Adr.GRS_STAT) :
    reg (partWords s b n) a = reg (swapWords s b (partMine b.block n)) a :=
  (swapWords_partWords s b n).2.reg_eq (List.forall_mem_singleton.mpr h)

/-- What the parts of a set may write. -/
def partFlds (s : State) (b : BlockInst) : List Field := [cPend b, cCommit b, whole Adr.GRS_STAT] ++ stagedFlds s b

theorem partWords_only (s : State) (b : BlockInst) (n : Nat) : OnlyParts (partFlds s b) s (partWords s b n) := by
  have hswap : OnlyParts (partFlds s b) s (swapWords s b (partMine b.block n)) :=
    ⟨by rw [swapWords_frame], (swapWords_kept_flds s b _).mono fun _ => List.mem_append_right _⟩
  exact hswap.trans ((swapWords_partWords s b n).mono (by simp [partFlds]))

theorem partEnd_only (s : State) (b : BlockInst) (rest : List Nat) : OnlyParts [cPend b, cCommit b] s (partEnd s b rest) := by
  unfold partEnd
  split
  · exact ((((OnlyParts.refl _ s).setParts _).setFld List.mem_cons_self 0).setFld
      (List.mem_cons_of_mem _ List.mem_cons_self) 0).setShadow _
  · exact (OnlyParts.refl _ s).setParts _

theorem reg_partEnd (s : State) (b : BlockInst) (rest : List Nat) {a : Nat} (h : a ≠ commitAddr b) :
    reg (partEnd s b rest) a = reg s a :=
  (partEnd_only s b rest).2.reg_eq (by simp [cPend, cCommit, h])

/-- The words still staged after the end of a part are of those before it. -/
theorem stagedOf_partEnd_subset (s : State) (b : BlockInst) (rest : List Nat) : stagedOf (partEnd s b rest) b ⊆ stagedOf s b := by
  unfold partEnd
  split
  · exact fun q hq => List.mem_filter.mpr ⟨(List.mem_filter.mp (List.mem_filter.mp hq).1).1, (List.mem_filter.mp hq).2⟩
  · exact fun _ h => h

theorem mem_stagedOf_partWords {s : State} {b : BlockInst} {n : Nat} {q : Nat × Word} :
    q ∈ stagedOf (partWords s b n) b ↔ q ∈ stagedOf s b ∧ partMine b.block n q.1 = false := by
  rw [← mem_stagedOf_swapWords, stagedOf, (partWords_shadow s b n).1, stagedOf]

theorem stagedOf_partSwap_subset (s : State) (b : BlockInst) (n : Nat) : stagedOf (partSwap s b n) b ⊆ stagedOf s b := by
  rcases partSwap_cases s b n with e | ⟨rest, e⟩ <;> rw [e]
  · exact fun _ h => h
  · exact fun q hq => (mem_stagedOf_partWords.mp (stagedOf_partEnd_subset _ b rest hq)).1

theorem partFlds_mono {s t : State} {b : BlockInst} (h : stagedOf t b ⊆ stagedOf s b) : partFlds t b ⊆ partFlds s b :=
  List.append_subset.mpr ⟨List.subset_append_left _ _, fun _ hf => List.mem_append_right _ (List.map_subset _ h hf)⟩

theorem partSwap_only (s : State) (b : BlockInst) (n : Nat) : OnlyParts (partFlds s b) s (partSwap s b n) := by
  rcases partSwap_cases s b n with e | ⟨rest, e⟩ <;> rw [e]
  · exact .refl _ s
  · exact (partWords_only s b n).trans ((partEnd_only _ b rest).mono (by simp [partFlds]))

/-! ### The parts that are left, and PEND -/

/-- The parts of the set that still have to come into force; with none left PEND is over. -/
def PartsWait (t : State) (b : BlockInst) (l : List Nat) : Prop :=
  if l = [] then partsLeft t b.block = none ∧ flag t (cPend b) = false
  else partsLeft t b.block = some l ∧ flag t (cPend b) = true

theorem partsLeft_clearParts (s : State) (blk : Block) : partsLeft (clearParts s blk) blk = none := by
  simp [partsLeft, clearParts]

theorem partsLeft_setParts (s : State) (blk : Block) (l : List Nat) : partsLeft (setParts s blk l) blk = some l := by
  have h : (s.parts.filter fun p => p.1 != blk).find? (fun p => p.1 == blk) = none := by simp
  rw [partsLeft, setParts, List.find?_append, h]
  simp

theorem partsLeft_congr {s t : State} (h : t.parts = s.parts) (blk : Block) : partsLeft t blk = partsLeft s blk := by
  rw [partsLeft, h, partsLeft]

theorem dropStaged_kept_regs (s : State) (b : BlockInst) : (dropStaged s b).regs = s.regs := rfl

theorem dropStaged_kept_parts (s : State) (b : BlockInst) : (dropStaged s b).parts = s.parts := rfl

theorem setParts_regs (s : State) (blk : Block) (l : List Nat) : (setParts s blk l).regs = s.regs := rfl

theorem setPend_parts (s : State) (b : BlockInst) (v : Nat) : (setPend s b v).parts = s.parts := rfl

theorem partEnd_nil (s : State) (b : BlockInst) : partEnd s b [] = dropStaged (setPend (clearParts s b.block) b 0) b :=
  if_pos rfl

theorem partEnd_cons (s : State) (b : BlockInst) (m : Nat) (rest : List Nat) :
    partEnd s b (m :: rest) = setParts s b.block (m :: rest) := if_neg Bool.false_ne_true

theorem flag_partWords_pend (s : State) {b : BlockInst} (hv : validInst b = true) (n : Nat) :
    flag (partWords s b n) (cPend b) = flag s (cPend b) := by
  rw [flag, flag, fld_of_reg_eq ((reg_partWords s b n (commitAddr_ne_grsStat hv)).trans (reg_swapWords_commit s hv _))]

theorem partsWait_partEnd {s : State} {b : BlockInst} (hp : flag s (cPend b) = true) (rest : List Nat) :
    PartsWait (partEnd s b rest) b rest := by
  cases rest with
  | nil =>
    rw [PartsWait, if_pos rfl, partEnd_nil, flag, fld_congr (dropStaged_kept_regs _ b),
      partsLeft_congr (dropStaged_kept_parts _ b), partsLeft_congr (setPend_parts _ b 0)]
    exact ⟨partsLeft_clearParts s b.block, flag_setPend_zero _ b⟩
  | cons m rest =>
    rw [PartsWait, if_neg (List.cons_ne_nil m rest), partEnd_cons, flag, fld_congr (setParts_regs s b.block _)]
    exact ⟨partsLeft_setParts s b.block _, hp⟩

/-- One part's swap takes it out of the parts that are left. -/
theorem PartsWait.partSwap {t : State} {b : BlockInst} {l : List Nat} (hv : validInst b = true) (h : PartsWait t b l)
    (k : Nat) : PartsWait (partSwap t b k) b (l.filter (· != k)) := by
  by_cases hk : k ∈ l
  · have hne : l ≠ [] := List.ne_nil_of_mem hk
    rw [PartsWait, if_neg hne] at h
    obtain ⟨hleft, hpend⟩ := h
    rw [partSwap_of_left hleft hk]
    exact partsWait_partEnd ((flag_partWords_pend t hv k).trans hpend) _
  · have hnot : ∀ l', partsLeft t b.block = some l' → k ∉ l' := fun l' hl' => by
      unfold PartsWait at h
      split at h
      · rw [h.1] at hl'
        cases hl'
      · rw [h.1] at hl'
        exact Option.some.inj hl' ▸ hk
    have hfilter : l.filter (· != k) = l := List.filter_eq_self.mpr fun m hm => by
      simpa using fun e : m = k => hk (e ▸ hm)
    rw [partSwap_of_not_left hnot, hfilter]
    exact h

/-- The parts that come to their boundary together. -/
def swapParts (t : State) (b : BlockInst) (ks : List Nat) : State := ks.foldl (fun t n => partSwap t b n) t

theorem PartsWait.swapParts {t : State} {b : BlockInst} {l : List Nat} (hv : validInst b = true) (h : PartsWait t b l)
    (ks : List Nat) : PartsWait (swapParts t b ks) b (l.filter fun m => !ks.contains m) := by
  induction ks generalizing t l with
  | nil => simpa [Machine.swapParts] using h
  | cons k ks ih =>
    have e : (l.filter fun m => !(k :: ks).contains m) = (l.filter (· != k)).filter fun m => !ks.contains m := by
      rw [List.filter_filter]
      exact List.filter_congr fun m _ => by by_cases hm : m = k <;> simp [hm]
    rw [e]
    exact ih (h.partSwap hv k)

theorem swapParts_only (t : State) (b : BlockInst) (ks : List Nat) : OnlyParts (partFlds t b) t (swapParts t b ks) := by
  induction ks generalizing t with
  | nil => exact .refl _ t
  | cons k ks ih =>
    exact (partSwap_only t b k).trans ((ih (partSwap t b k)).mono (partFlds_mono (stagedOf_partSwap_subset t b k)))

/-! ### A word of a part -/

/-- A word still waits: it is the only one staged at its address, and what is in force there is as it was. -/
def WordWaits (s t : State) (b : BlockInst) (p : Nat × Word) : Prop :=
  p ∈ stagedOf t b ∧ (∀ q ∈ stagedOf t b, q.1 = p.1 → q = p) ∧ reg t p.1 = reg s p.1

/-- A word is in force, and nothing is staged at its address. -/
def WordInForce (s t : State) (b : BlockInst) (p : Nat × Word) : Prop :=
  reg t p.1 = inForce s p ∧ ∀ q ∈ stagedOf t b, q.1 ≠ p.1

section Word

variable {s t : State} {b : BlockInst} {p : Nat × Word} {n k : Nat} {l : List Nat}

theorem reg_partSwap_of_not_staged (hc : p.1 ≠ commitAddr b) (hg : p.1 ≠ Adr.GRS_STAT)
    (h : ∀ q ∈ stagedOf t b, q.1 = p.1 → partMine b.block k q.1 = false) : reg (partSwap t b k) p.1 = reg t p.1 := by
  rcases partSwap_cases t b k with e | ⟨rest, e⟩ <;> rw [e]
  rw [reg_partEnd _ _ _ hc, reg_partWords _ _ _ hg]
  exact reg_swapWords_of_not_mem fun q hq hqp => hqp ▸ h q hq hqp

/-- A word in force stays in force. -/
theorem WordInForce.partSwap (h : WordInForce s t b p) (hc : p.1 ≠ commitAddr b) (hg : p.1 ≠ Adr.GRS_STAT) :
    WordInForce s (partSwap t b k) b p := by
  obtain ⟨hreg, hst⟩ := h
  refine ⟨(reg_partSwap_of_not_staged hc hg fun q hq e => absurd e (hst q hq)).trans hreg, fun q hq => ?_⟩
  exact hst q (stagedOf_partSwap_subset t b k hq)

theorem WordInForce.swapParts (h : WordInForce s t b p) (hc : p.1 ≠ commitAddr b) (hg : p.1 ≠ Adr.GRS_STAT) (ks : List Nat) :
    WordInForce s (swapParts t b ks) b p := by
  induction ks generalizing t with
  | nil => exact h
  | cons k ks ih => exact ih (h.partSwap hc hg)

/-- Another part's swap leaves the word waiting. -/
theorem WordWaits.partSwap_ne (h : WordWaits s t b p) (hc : p.1 ≠ commitAddr b) (hg : p.1 ≠ Adr.GRS_STAT)
    (hp : partOf b.block p.1 = some n) (hl : PartsWait t b l) (hn : n ∈ l) (hk : n ≠ k) : WordWaits s (partSwap t b k) b p := by
  obtain ⟨hmem, huniq, hreg⟩ := h
  have hmine : partMine b.block k p.1 = false := by
    rw [partMine_of_partOf hp]
    exact beq_eq_false_iff_ne.mpr hk
  refine ⟨?_, fun q hq => huniq q (stagedOf_partSwap_subset t b k hq), ?_⟩
  · rw [PartsWait, if_neg (List.ne_nil_of_mem hn)] at hl
    by_cases hkl : k ∈ l
    · have hrest : (l.filter (· != k)).isEmpty = false :=
        List.isEmpty_eq_false_iff_exists_mem.mpr ⟨n, List.mem_filter.mpr ⟨hn, by simpa using hk⟩⟩
      rw [partSwap_of_left hl.1 hkl, partEnd, if_neg (by simp [hrest])]
      exact mem_stagedOf_partWords.mpr ⟨hmem, hmine⟩
    · rwa [partSwap_of_not_left fun l' hl' => Option.some.inj (hl.1.symm.trans hl') ▸ hkl]
  · exact (reg_partSwap_of_not_staged hc hg fun q _ e => e ▸ hmine).trans hreg

/-- The word's own part brings it into force. -/
theorem WordWaits.partSwap_self (h : WordWaits s t b p) (hc : p.1 ≠ commitAddr b) (hg : p.1 ≠ Adr.GRS_STAT)
    (hp : partOf b.block p.1 = some n) (hl : PartsWait t b l) (hn : n ∈ l) : WordInForce s (partSwap t b n) b p := by
  obtain ⟨hmem, huniq, hreg⟩ := h
  have hmine : partMine b.block n p.1 = true := by
    rw [partMine_of_partOf hp]
    exact beq_self_eq_true n
  rw [PartsWait, if_neg (List.ne_nil_of_mem hn)] at hl
  rw [partSwap_of_left hl.1 hn]
  constructor
  · rw [reg_partEnd _ _ _ hc, reg_partWords _ _ _ hg, reg_swapWords_of_mem hmem hmine huniq, inForce_congr hreg]
  · intro q hq e
    obtain ⟨-, hq'⟩ := mem_stagedOf_partWords.mp (stagedOf_partEnd_subset _ b _ hq)
    rw [e, hmine] at hq'
    exact Bool.noConfusion hq'

/-- Among the parts swapped in is the word's own. -/
theorem WordWaits.swapParts (h : WordWaits s t b p) (hv : validInst b = true) (hc : p.1 ≠ commitAddr b)
    (hg : p.1 ≠ Adr.GRS_STAT) (hp : partOf b.block p.1 = some n) (hl : PartsWait t b l) (hn : n ∈ l) {ks : List Nat}
    (hks : n ∈ ks) : WordInForce s (swapParts t b ks) b p := by
  induction ks generalizing t l with
  | nil => exact absurd hks List.not_mem_nil
  | cons k ks ih =>
    by_cases hk : n = k
    · subst hk
      exact (h.partSwap_self hc hg hp hl hn).swapParts hc hg ks
    · exact ih (h.partSwap_ne hc hg hp hl hn hk) (hl.partSwap hv k) (List.mem_filter.mpr ⟨hn, by simpa using hk⟩)
        ((List.mem_cons.mp hks).resolve_left hk)

end Word

/-! ### PART_SWAP -/

theorem boundary_of_partsLeft {s : State} {b : BlockInst} {l : List Nat} (hpend : flag s (cPend b) = true)
    (hp : isParted b.block = true) (hl : partsLeft s b.block = some l) :
    boundary s b = swapParts s b (l.filter (partAt s b.block)) := by
  unfold boundary
  simp only [hpend, hp, hl]
  rfl

/-- With its boundary, a part of the parts that wait has come into force already. -/
theorem partSwap_swapParts {s : State} {b : BlockInst} {l ks : List Nat} {n : Nat} (hv : validInst b = true)
    (h : PartsWait s b l) (hn : n ∈ ks) : partSwap (swapParts s b ks) b n = swapParts s b ks := by
  refine partSwap_of_not_left fun l' hl' hmem => ?_
  have hw := h.swapParts hv ks
  unfold PartsWait at hw
  split at hw
  · rw [hw.1] at hl'
    cases hl'
  · obtain rfl := Option.some.inj (hw.1.symm.trans hl')
    simpa [hn] using (List.mem_filter.mp hmem).2

theorem isParted_not_grs {b : BlockInst} (h : isParted b.block = true) : b.block ≠ .grs := fun e => by
  rw [e] at h
  exact Bool.noConfusion h

/-- The statement's clause of a parted set, once accepted. -/
theorem execPartSwap_of_left {s : State} {b : BlockInst} {l : List Nat} {n : Nat} (hv : validInst b = true)
    (hpend : flag s (cPend b) = true) (hp : isParted b.block = true) (hl : partsLeft s b.block = some l) (hn : n ∈ l)
    (hat : partAt s b.block n = true) :
    ∃ t, exec (.partSwap b n) s = .next t ∧ PartsWait t b (l.filter fun m => !partAt s b.block m) ∧
      (∀ p ∈ stagedOf s b, p.1 ≠ commitAddr b → partOf b.block p.1 = some n →
        (∀ q ∈ stagedOf s b, q.1 = p.1 → q = p) → reg t p.1 = inForce s p) ∧ OnlyParts (partFlds s b) s t := by
  have hw : PartsWait s b l := by
    rw [PartsWait, if_neg (List.ne_nil_of_mem hn)]
    exact ⟨hl, hpend⟩
  have hks : n ∈ l.filter (partAt s b.block) := List.mem_filter.mpr ⟨hn, hat⟩
  have e : exec (.partSwap b n) s = .next (swapParts s b (l.filter (partAt s b.block))) := by
    rw [execPartSwap_at hv hp hpend hat, boundary_of_partsLeft hpend hp hl, partSwap_swapParts hv hw hks]
  have hleft : (l.filter fun m => !(l.filter (partAt s b.block)).contains m) = l.filter fun m => !partAt s b.block m :=
    List.filter_congr fun m hm => by cases hm' : partAt s b.block m <;> simp [hm, hm']
  refine ⟨_, e, hleft ▸ hw.swapParts hv _, fun p hp' hc hpart hu => ?_, swapParts_only s b _⟩
  have hg : p.1 ≠ Adr.GRS_STAT := fun ha => isParted_not_grs hp (by
    have hblk := blockOf_of_mem_stagedOf hp'
    rw [ha] at hblk
    exact (congrArg BlockInst.block (Option.some.inj hblk)).symm)
  exact (WordWaits.swapParts ⟨hp', hu, rfl⟩ hv hc hg hpart hw hn hks).1

/-- Settles O10: a settle of the one pending set is its boundary, which refuses it, accepts it whole, or swaps in the parts that have come
to theirs. -/
theorem boundariesSwapOrRefuse : Obligations.BoundariesSwapOrRefuse := by
  unfold Obligations.BoundariesSwapOrRefuse
  intro s b
  refine ⟨fun h => execShadowSwap_away (.inl h), fun h n => execPartSwap_away (h.imp_right .inl),
    fun h => execShadowSwap_away (.inr h), atBoundary_of_commitNew, execShadowSwap_at,
    fun n h => execPartSwap_away (.inr (.inr h)), fun hv hpend => ⟨fun hp hc hat hone => ?refused,
      fun hc hat hone hblk => ?accepted, fun l n hp hl hn hat => ?parts⟩⟩
  case refused =>
    obtain ⟨pend, reject, reason, seq⟩ := refuseSet_flds (s := s) hv (checkOf s b)
    obtain ⟨frame, kept⟩ := refuseSet_reports s b (checkOf s b)
    refine ⟨refuseSet s b (checkOf s b), ?_, pend, reject, reason, seq, kept, frame⟩
    rw [execShadowSwap_at hv hat, settle_single hone hat, boundary_refuses hpend hp hc]
  case accepted =>
    have hfifo : b.block ≠ .fifo := fun e => by
      rw [e] at hblk
      simp at hblk
    obtain ⟨pend, seq, words, shadow, kept, frame⟩ := acceptAll_flds (s := s) hv (afterSwap_plain hblk) hfifo
    refine ⟨acceptAll s b, ?_, pend, seq, words, shadow, kept, frame⟩
    rw [execShadowSwap_at hv hat, settle_single hone hat, boundary_accepts hpend (isParted_plain hblk) hc]
  case parts =>
    obtain ⟨t, e, wait, words, frame, kept⟩ := execPartSwap_of_left hv hpend hp hl hn hat
    refine ⟨t, e, fun hall => ?_, fun ⟨m, hm, hmat⟩ => ?_, words, kept, frame⟩
    · rw [PartsWait, if_pos (List.filter_eq_nil_iff.mpr fun m hm => by simp [hall m hm])] at wait
      exact wait.symm
    · rw [PartsWait, if_neg (List.ne_nil_of_mem (List.mem_filter.mpr ⟨hm, by simp [hmat]⟩))] at wait
      exact wait.symm

end Sys2Proof.Machine

/-! Resets and starts (R46, R54, R71–R73, R535, R582): what a start of the core domain leaves, and the causes that begin one. -/

namespace Sys2Proof.Machine

/-! ### A rewrite cut short (R250) -/

theorem tearStep_frame (contents : List (List Byte)) (p : List Byte × State) (k : Nat) :
    (tearStep contents p k).2 = { p.2 with drawn := (tearStep contents p k).2.drawn } := rfl

theorem tearSteps_frame (contents : List (List Byte)) (ks : List Nat) (p : List Byte × State) :
    (ks.foldl (tearStep contents) p).2 = { p.2 with drawn := (ks.foldl (tearStep contents) p).2.drawn } := by
  induction ks generalizing p with
  | nil => rfl
  | cons k ks ih => rw [List.foldl_cons, ih, tearStep_frame]

theorem sectorTorn_frame (s : State) (a : Nat) (contents : List (List Byte)) :
    ∃ m d, sectorTorn s a contents = { s with mem := m, drawn := d } := by
  unfold sectorTorn norStore
  dsimp only
  rw [tearSteps_frame]
  exact ⟨_, _, rfl⟩

/-- A cut rewrite is over: the NOR, the choices drawn and the Slate's work alone differ. -/
theorem slateCut_frame (s : State) : ∃ m sl d, slateCut s = { s with mem := m, slate := sl, drawn := d } := by
  unfold slateCut setWork
  split
  · exact ⟨_, _, _, rfl⟩
  · dsimp only
    split
    · exact ⟨_, _, _, rfl⟩
    · obtain ⟨m, d, e⟩ := sectorTorn_frame s _ _
      rw [e]
      exact ⟨_, _, _, rfl⟩

theorem slateCut_of_idle {s : State} (h : s.slate.work = none) : slateCut s = s := by
  unfold slateCut
  rw [h]

/-! ### The registers of the tag's window (R347) -/

theorem harvFollows_frame (s : State) (old : Bool) :
    harvFollows s old = { s with regs := (harvFollows s old).regs, drawn := (harvFollows s old).drawn } := by
  unfold harvFollows
  split
  · rfl
  · split <;> rfl

/-- Outside the tag's window. -/
def OffTag (a : Nat) : Prop := a < 0x1900 ∨ 0x19FF < a

theorem ne_tagStat {a : Nat} (h : OffTag a) : a ≠ Adr.TAG_STAT := by
  rintro rfl
  exact absurd h (by unfold OffTag; decide)

theorem reg_harvFollows (s : State) (old : Bool) {a : Nat} (h : OffTag a) : reg (harvFollows s old) a = reg s a := by
  unfold harvFollows
  split
  · exact reg_setFld_ne s _ 0 (ne_tagStat h)
  · split
    · exact reg_setFld_ne (drawWord s).2 _ _ (ne_tagStat h)
    · rfl

/-- Words written to addresses of the tag's window. -/
theorem setRegs_frame (L : List (Nat × Word)) (s : State) :
    L.foldl (fun t p => setReg t p.1 p.2) s = { s with regs := (L.foldl (fun t p => setReg t p.1 p.2) s).regs } := by
  induction L generalizing s with
  | nil => rfl
  | cons p L ih => rw [List.foldl_cons, ih]; rfl

theorem reg_setRegs_ne (L : List (Nat × Word)) (s : State) {a : Nat} (h : ∀ p ∈ L, a ≠ p.1) :
    reg (L.foldl (fun t p => setReg t p.1 p.2) s) a = reg s a := by
  induction L generalizing s with
  | nil => rfl
  | cons p L ih =>
    obtain ⟨hp, hL⟩ := List.forall_mem_cons.mp h
    rw [List.foldl_cons, ih _ hL, reg_setReg_ne _ _ hp]

theorem tagFromMirror_frame (s : State) (old : Bool) :
    tagFromMirror s old = { s with regs := (tagFromMirror s old).regs, drawn := (tagFromMirror s old).drawn } := by
  unfold tagFromMirror
  rw [harvFollows_frame, setRegs_frame]

theorem reg_tagFromMirror (s : State) (old : Bool) {a : Nat} (h : OffTag a) : reg (tagFromMirror s old) a = reg s a := by
  unfold tagFromMirror
  rw [reg_harvFollows _ _ h]
  refine reg_setRegs_ne _ s fun p hp e => ?_
  have hmem : p.1 ∈ tagSetAddrs := (List.of_mem_zip hp).1
  have hin : ∀ c ∈ tagSetAddrs, 0x1900 ≤ c ∧ c ≤ 0x19FF := by decide
  obtain ⟨hlo, hhi⟩ := hin p.1 hmem
  unfold OffTag at h
  omega

/-! ### The core domain at its reset values (R73, R582) -/

/-- The machine of a start before the tag's registers follow the key-store mirror. -/
def coreCleared (s : State) (five : Bool) : State :=
  { regs := s.regs.filter fun p => inQtz p.1
    shadow := s.shadow.filter fun p => inQtz p.1
    clk := { s.clk with biasRising := false, rfIdleSince := none }
    pins := s.pins
    boot := { step := 0, started := s.boot.started }
    host := hostAfter s five
    qtz := s.qtz
    sched := { creditAt := s.clk.now, ops := s.sched.ops.filter fun o => o.req.who == .tagEngine }
    jnl := journalKept s.jnl
    mem := s.mem
    hf := { foff := foffAfter s }
    tag := { s.tag with copies := [], staged := none, gens := [] }
    drawn := s.drawn
    pending := s.pending }

theorem coreReset_eq (s : State) (five : Bool) : coreReset s five =
    tagFromMirror (setReg (coreCleared (slateCut s) five) Adr.TAG_STAT (reg (slateCut s) Adr.TAG_STAT &&& maskOf 31 11))
      (flag (slateCut s) Fld.TAG_CFG_HARVEN) := rfl

theorem coreReset_frame (s : State) (five : Bool) : coreReset s five = { coreCleared (slateCut s) five with
    regs := (coreReset s five).regs, drawn := (coreReset s five).drawn } := by
  rw [coreReset_eq, tagFromMirror_frame]
  rfl

theorem reg_coreCleared (s : State) (five : Bool) (a : Nat) :
    reg (coreCleared s five) a = if inQtz a then reg s a else resetWord a := by
  have h : reg (coreCleared s five) a = (regFind (s.regs.filter fun p => inQtz p.1) a).getD (resetWord a) := rfl
  rw [h, regFind_filter]
  split
  · rfl
  · rfl

theorem reg_coreReset (s : State) (five : Bool) {a : Nat} (h : OffTag a) :
    reg (coreReset s five) a = if inQtz a then reg s a else resetWord a := by
  obtain ⟨m, sl, d, e⟩ := slateCut_frame s
  rw [coreReset_eq, reg_tagFromMirror _ _ h, reg_setReg_ne _ _ (ne_tagStat h), reg_coreCleared, e]
  rfl

theorem hostAfter_g3 (s : State) (five : Bool) : (hostAfter s five).g3 = none := by
  unfold hostAfter
  split <;> rfl

theorem pins_coreReset (s : State) (five : Bool) : (coreReset s five).pins = s.pins := by
  obtain ⟨m, sl, d, e⟩ := slateCut_frame s
  rw [coreReset_frame, e]
  rfl

theorem qtz_coreReset (s : State) (five : Bool) : (coreReset s five).qtz = s.qtz := by
  obtain ⟨m, sl, d, e⟩ := slateCut_frame s
  rw [coreReset_frame, e]
  rfl

theorem fifo_coreReset (s : State) (five : Bool) : (coreReset s five).fifo = ({} : State).fifo := by
  rw [coreReset_frame]
  rfl

theorem inQtz_iff (a : Nat) : inQtz a = true ↔ 0x200 ≤ a ∧ a ≤ 0x2FF := by
  simp [inQtz]

/-- A reset of the core domain is what the statements take it for. -/
theorem coreReset_isReset (s : State) (five : Bool) : CoreReset [] s (coreReset s five) := by
  obtain ⟨m, sl, d, e⟩ := slateCut_frame s
  refine ⟨fun a hlo hhi => ?_, fun a hq ht _ => ?_, qtz_coreReset s five, (coreReset_kept s five).2, ?_,
    (coreReset_kept s five).1, fifo_coreReset s five, ?_, ?_, ?_, fun hw => ?_⟩
  · rw [reg_coreReset s five (.inl (by omega)), if_pos ((inQtz_iff a).mpr ⟨hlo, hhi⟩)]
  · rw [reg_coreReset s five ht, if_neg (by rw [inQtz_iff]; omega)]
  · rw [coreReset_frame, e]; rfl
  · rw [coreReset_frame]; rfl
  · rw [coreReset_frame]; rfl
  · rw [coreReset_frame]; exact hostAfter_g3 _ five
  · rw [coreReset_frame, slateCut_of_idle hw]; rfl

/-! ### What follows a reset -/

namespace CoreReset

variable {l : List Nat} {s t : State}

theorem mono {m : List Nat} (h : CoreReset l s t) (hl : l ⊆ m) : CoreReset m s t := by
  obtain ⟨hq, hr, hrest⟩ := h
  exact ⟨hq, fun a h1 h2 h3 => hr a h1 h2 fun h4 => h3 (hl h4), hrest⟩

/-- A field of a listed register outside the QTZ window is written. -/
theorem setFld (h : CoreReset l s t) {f : Field} (hf : f.addr ∈ l) (hout : inQtz f.addr = false) (v : Nat) :
    CoreReset l s (setFld t f v) := by
  obtain ⟨hq, hr, hrest⟩ := h
  refine ⟨fun a hlo hhi => ?_, fun a h1 h2 h3 => ?_, hrest⟩
  · rw [reg_setFld_ne t f v fun e => by rw [← e, (inQtz_iff a).mpr ⟨hlo, hhi⟩] at hout; exact Bool.noConfusion hout]
    exact hq a hlo hhi
  · rw [reg_setFld_ne t f v fun e => h3 (by rw [e]; exact hf)]
    exact hr a h1 h2 h3

theorem setPins (h : CoreReset l s t) (x : Pins) : CoreReset l s { t with pins := x } := h

theorem setBoot (h : CoreReset l s t) (x : Boot) : CoreReset l s { t with boot := x } := h

/-- The pins before the start do not matter to it. -/
theorem ofPins {x : Pins} (h : CoreReset l { s with pins := x } t) : CoreReset l s t := h

end CoreReset

/-! ### Held in reset (R72), the loss of a supply (R54) -/

theorem holdReset_isReset (s : State) : CoreReset [] s (holdReset s) := (coreReset_isReset s false).setPins _

theorem pins_holdReset (s : State) : (holdReset s).pins = { s.pins with hrdy := false } := by
  have h : (holdReset s).pins = { (coreReset s false).pins with hrdy := false } := rfl
  rw [h, pins_coreReset]

theorem boot_coreReset (s : State) (five : Bool) : (coreReset s five).boot.step = 0 := by
  rw [coreReset_frame]
  rfl

theorem boot_holdReset (s : State) : (holdReset s).boot.step = 0 := boot_coreReset s false

theorem supplyLoss_isReset (s : State) : CoreReset [Adr.SYS_MODE] s (supplyLoss s) :=
  ((((holdReset_isReset { s with pins := { s.pins with core := false } }).mono (List.nil_subset [Adr.SYS_MODE])).setBoot
    _).setFld (f := Fld.SYS_MODE_MODE) (List.mem_singleton_self _) rfl 0).ofPins

theorem mode_supplyLoss (s : State) : mode (supplyLoss s) = 0 := fld_setFld_self _ Fld.SYS_MODE_MODE 0 (by decide)

theorem pins_supplyLoss (s : State) : (supplyLoss s).pins = { s.pins with core := false, hrdy := false } :=
  pins_holdReset { s with pins := { s.pins with core := false } }

/-! ### Starts (R71, R73) -/

/-- The fields that a start at step 5 keeps (R77, R113, R70). -/
theorem keepStraps_isReset {s t : State} (h : CoreReset [Adr.SYS_BOOTSTAT, Adr.SYS_CLKSTAT, Adr.HSP_STAT] s t) (s0 : State) :
    CoreReset [Adr.SYS_BOOTSTAT, Adr.SYS_CLKSTAT, Adr.HSP_STAT] s (keepStraps s0 t) :=
  (((((h.setFld (f := Fld.SYS_BOOTSTAT_HGEN) (by decide) rfl _).setFld (f := Fld.SYS_BOOTSTAT_BOOTSEL) (by decide) rfl _).setFld
    (f := Fld.HSP_STAT_FRAMING) (by decide) rfl _).setFld (f := Fld.SYS_CLKSTAT_PLLLOCK) (by decide) rfl _).setFld
    (f := Fld.SYS_CLKSTAT_REFOK) (by decide) rfl _).setFld (f := Fld.SYS_CLKSTAT_FALLBACK) (by decide) rfl _

/-- The straps' field is kept as it was (R77). -/
theorem bootsel_keepStraps (s0 t : State) :
    fld (keepStraps s0 t) Fld.SYS_BOOTSTAT_BOOTSEL = fld s0 Fld.SYS_BOOTSTAT_BOOTSEL := by
  have hlt : fld s0 Fld.SYS_BOOTSTAT_BOOTSEL < 2 := Nat.mod_lt _ (by decide)
  unfold keepStraps
  dsimp only
  rw [fld_setFld_apart _ _ _ _ (by decide), fld_setFld_apart _ _ _ _ (by decide), fld_setFld_apart _ _ _ _ (by decide),
    fld_setFld_apart _ _ _ _ (by decide), fld_setFld_self _ _ _ (by decide)]
  exact Nat.mod_eq_of_lt hlt

theorem startAt_one (s : State) (cause : Nat) : startAt s cause 1 = setFld { setHrdy (coreReset s false) false with
    boot := { (setHrdy (coreReset s false) false).boot with step := 1, started := true } } Fld.SYS_BOOTSTAT_CAUSE cause := rfl

theorem startAt_five (s : State) (cause : Nat) : startAt s cause 5 = setFld { keepStraps s (coreReset s true) with
    boot := { (keepStraps s (coreReset s true)).boot with step := 5, started := true } } Fld.SYS_BOOTSTAT_CAUSE cause := rfl

theorem cause_startAt (s : State) (cause step : Nat) (h : cause < 16) :
    fld (startAt s cause step) Fld.SYS_BOOTSTAT_CAUSE = cause := by
  unfold startAt
  rw [fld_setFld_self _ _ _ (by decide)]
  exact Nat.mod_eq_of_lt h

theorem step_startAt (s : State) (cause step : Nat) : (startAt s cause step).boot.step = step := rfl

theorem startAt_one_isReset (s : State) (cause : Nat) : CoreReset [Adr.SYS_BOOTSTAT] s (startAt s cause 1) := by
  rw [startAt_one]
  exact ((((coreReset_isReset s false).mono (List.nil_subset _)).setPins _).setBoot _).setFld (List.mem_singleton_self _) rfl _

theorem pins_startAt_one (s : State) (cause : Nat) : (startAt s cause 1).pins = { s.pins with hrdy := false } := by
  have h : (startAt s cause 1).pins = { (coreReset s false).pins with hrdy := false } := rfl
  rw [h, pins_coreReset]

/-- A start from step 1 has not been completed (R105). -/
theorem done_startAt_one (s : State) (cause : Nat) : flag (startAt s cause 1) Fld.SYS_BOOTSTAT_DONE = false := by
  have hreg : reg (coreReset s false) Fld.SYS_BOOTSTAT_DONE.addr = resetWord Fld.SYS_BOOTSTAT_DONE.addr :=
    reg_coreReset s false (.inl (by decide))
  have hfld : fld (startAt s cause 1) Fld.SYS_BOOTSTAT_DONE = fld (coreReset s false) Fld.SYS_BOOTSTAT_DONE := by
    rw [startAt_one, fld_setFld_apart _ _ _ _ (by decide)]
    rfl
  rw [flag, hfld, fld, hreg]
  decide

theorem startAt_five_isReset (s : State) (cause : Nat) :
    CoreReset [Adr.SYS_BOOTSTAT, Adr.SYS_CLKSTAT, Adr.HSP_STAT] s (startAt s cause 5) := by
  rw [startAt_five]
  exact ((keepStraps_isReset ((coreReset_isReset s true).mono (List.nil_subset _)) s).setBoot _).setFld (by decide) rfl _

theorem pins_startAt_five (s : State) (cause : Nat) : (startAt s cause 5).pins = s.pins := pins_coreReset s true

theorem bootsel_startAt_five (s : State) (cause : Nat) :
    fld (startAt s cause 5) Fld.SYS_BOOTSTAT_BOOTSEL = fld s Fld.SYS_BOOTSTAT_BOOTSEL := by
  rw [startAt_five, fld_setFld_apart _ _ _ _ (by decide)]
  exact (fld_congr rfl _).trans (bootsel_keepStraps s (coreReset s true))

/-- A start from step 1 as the statements list it. -/
theorem startAt_one_spec (s : State) {cause : Nat} (h : cause < 16) :
    CoreReset [Adr.SYS_BOOTSTAT] s (startAt s cause 1) ∧ fld (startAt s cause 1) Fld.SYS_BOOTSTAT_CAUSE = cause ∧
      flag (startAt s cause 1) Fld.SYS_BOOTSTAT_DONE = false ∧ (startAt s cause 1).boot.step = 1 ∧
      (startAt s cause 1).pins = { s.pins with hrdy := false } :=
  ⟨startAt_one_isReset s cause, cause_startAt s cause 1 h, done_startAt_one s cause, step_startAt s cause 1,
    pins_startAt_one s cause⟩

/-- A start at step 5 as the statements list it. -/
theorem startAt_five_spec (s : State) {cause : Nat} (h : cause < 16) :
    CoreReset [Adr.SYS_BOOTSTAT, Adr.SYS_CLKSTAT, Adr.HSP_STAT] s (startAt s cause 5) ∧
      fld (startAt s cause 5) Fld.SYS_BOOTSTAT_CAUSE = cause ∧ (startAt s cause 5).boot.step = 5 ∧
      (startAt s cause 5).pins = s.pins :=
  ⟨startAt_five_isReset s cause, cause_startAt s cause 5 h, step_startAt s cause 5, pins_startAt_five s cause⟩

/-! ### Supplies and RST_N (R54, R71, R72, R591–R593) -/

/-- A start from step 1 once the last of the conditions is met, which is said of the pins alone. -/
theorem startAt_pins {s : State} {x : Pins} {cause : Nat} (h : cause < 16) :
    CoreReset [Adr.SYS_BOOTSTAT] s (startAt { s with pins := x } cause 1) ∧
      fld (startAt { s with pins := x } cause 1) Fld.SYS_BOOTSTAT_CAUSE = cause ∧
      flag (startAt { s with pins := x } cause 1) Fld.SYS_BOOTSTAT_DONE = false ∧
      (startAt { s with pins := x } cause 1).boot.step = 1 ∧
      (startAt { s with pins := x } cause 1).pins = { x with hrdy := false } := by
  obtain ⟨hreset, hcause, hdone, hstep, hpins⟩ := startAt_one_spec { s with pins := x } h
  exact ⟨hreset.ofPins, hcause, hdone, hstep, hpins⟩

/-- The core held in reset by a pin. -/
theorem holdReset_pins (s : State) (x : Pins) : CoreReset [] s (holdReset { s with pins := x }) ∧
    (holdReset { s with pins := x }).boot.step = 0 ∧ (holdReset { s with pins := x }).pins = { x with hrdy := false } :=
  ⟨(holdReset_isReset _).ofPins, boot_holdReset _, pins_holdReset _⟩

theorem exec_coreSupplyLoss (s : State) :
    exec .coreSupplyLoss s = .next (if s.pins.core then supplyLoss s else s) := rfl

theorem exec_coreSupplyValid (s : State) : exec .coreSupplyValid s = .next (if s.pins.core then s
    else if powered { s with pins := { s.pins with core := true } } then startAt { s with pins := { s.pins with core := true } } 1 1
    else { s with pins := { s.pins with core := true } }) := rfl

theorem exec_vddioLoss (s : State) : exec .vddioLoss s = .next (if s.pins.vddio && s.pins.core
    then holdReset { s with pins := { s.pins with vddio := false } } else { s with pins := { s.pins with vddio := false } }) := rfl

theorem exec_vddioValid (s : State) : exec .vddioValid s = .next (if s.pins.vddio then s
    else if powered { s with pins := { s.pins with vddio := true } } then
      startAt { s with pins := { s.pins with vddio := true } } (if s.boot.started then 2 else 1) 1
    else { s with pins := { s.pins with vddio := true } }) := rfl

theorem exec_rstAssert (s : State) : exec .rstAssert s = .next (if s.pins.rstN && s.pins.core
    then holdReset { s with pins := { s.pins with rstN := false } } else { s with pins := { s.pins with rstN := false } }) := rfl

theorem exec_rstRelease (s : State) : exec .rstRelease s = .next (if s.pins.rstN then s
    else if powered { s with pins := { s.pins with rstN := true } } then startAt { s with pins := { s.pins with rstN := true } } 2 1
    else { s with pins := { s.pins with rstN := true } }) := rfl

/-! ### POR_BACKUP (R71, R535, R551) -/

/-- The Quartz window and what stands behind it at reset. -/
def quartzCleared (s : State) (byField : Bool) : State :=
  { s with
    regs := s.regs.filter fun p => !inQtz p.1
    shadow := s.shadow.filter fun p => !inQtz p.1
    clk := { s.clk with osc := false, sinceEdge := 0 }
    pins := { s.pins with vbat := !byField }
    qtz := {}
    tag := { s.tag with snap := none } }

/-- It has OSF and `PWRON` set, and names the cause. -/
def backupReset (s : State) (byField : Bool) : State :=
  setFld (setFlag (setFlag (quartzCleared s byField) Fld.QTZ_STAT_OSF) Fld.QTZ_STAT_PWRON) Fld.SYS_BOOTSTAT_CAUSE 0

theorem reg_quartzCleared (s : State) (byField : Bool) (a : Nat) :
    reg (quartzCleared s byField) a = if inQtz a then resetWord a else reg s a := by
  have h : reg (quartzCleared s byField) a = (regFind (s.regs.filter fun p => !inQtz p.1) a).getD (resetWord a) := rfl
  rw [h, regFind_filter s.regs (fun b => !inQtz b)]
  cases inQtz a <;> rfl

/-- The start is reported where the core runs (R551). -/
theorem porBackup_eq (s : State) (byField : Bool) : porBackup s byField =
    if powered (backupReset s byField) && mode (backupReset s byField) != 0 then raise (backupReset s byField) 51
    else backupReset s byField := rfl

theorem porBackup_frame (s : State) (byField : Bool) : porBackup s byField = { backupReset s byField with
    regs := (porBackup s byField).regs, fresh := (porBackup s byField).fresh } := by
  rw [porBackup_eq]
  split <;> rfl

theorem reg_porBackup (s : State) (byField : Bool) {a : Nat} (h : a ≠ Adr.HSP_INT1) :
    reg (porBackup s byField) a = reg (backupReset s byField) a := by
  rw [porBackup_eq]
  split
  · exact reg_setFld_ne _ _ _ h
  · rfl

theorem reg_backupReset (s : State) (byField : Bool) {a : Nat} (h1 : a ≠ Adr.QTZ_STAT) (h2 : a ≠ Adr.SYS_BOOTSTAT) :
    reg (backupReset s byField) a = if inQtz a then resetWord a else reg s a := by
  unfold backupReset
  rw [reg_setFld_ne _ _ _ h2, reg_setFlag, reg_setFld_ne _ _ _ h1, reg_setFlag, reg_setFld_ne _ _ _ h1, reg_quartzCleared]

theorem fld_backupReset (s : State) (byField : Bool) {g : Field} (hq : inQtz g.addr = false)
    (hc : g.apart Fld.SYS_BOOTSTAT_CAUSE) : fld (backupReset s byField) g = fld s g := by
  have hstat : g.addr ≠ Adr.QTZ_STAT := fun e => by
    rw [e] at hq
    exact absurd hq (by decide)
  unfold backupReset
  rw [fld_setFld_apart _ _ _ _ (by unfold Field.apart at hc; tauto), fld_setFlag, fld_setFld_ne _ _ _ _ hstat, fld_setFlag,
    fld_setFld_ne _ _ _ _ hstat]
  exact fld_of_reg_eq ((reg_quartzCleared s byField g.addr).trans (by simp [hq]))

theorem backupReset_flags (s : State) (byField : Bool) :
    flag (backupReset s byField) Fld.QTZ_STAT_OSF = true ∧ flag (backupReset s byField) Fld.QTZ_STAT_PWRON = true ∧
      fld (backupReset s byField) Fld.SYS_BOOTSTAT_CAUSE = 0 := by
  unfold backupReset
  refine ⟨?_, ?_, fld_setFld_self _ _ _ (by decide)⟩
  · rw [flag_setFld_apart _ _ _ _ (by decide), flag, fld_setFlag, fld_setFld_apart _ _ _ _ (by decide)]
    exact flag_setFlag_self _ Fld.QTZ_STAT_OSF (by decide) rfl
  · rw [flag_setFld_apart _ _ _ _ (by decide)]
    exact flag_setFlag_self _ _ (by decide) rfl

theorem exec_porBackup (s : State) (byField : Bool) : exec (.porBackup byField) s =
    .next (if !s.pins.vbat && !flag s Fld.TAG_STAT_FIELD then porBackup s byField else s) := rfl

/-! ### Watchdog and SRAM errors (R46, R71, R503) -/

theorem length_packetUnits (ws : List Word) : (packetUnits ws).length = ws.length := by
  rcases ws with _ | ⟨w, _ | ⟨x, ws⟩⟩
  · rfl
  · rfl
  · simp [packetUnits]

theorem chan_setTag (s : State) (x : Tag) (n : Nat) : chan { s with tag := x } n = chan s n := rfl

/-- A packet that fits in the write bank of an untouched channel is written there (R491). -/
theorem chan_admitPacket_fresh {s : State} {n : Nat} (hn : n < 9) (hc : chan s n = {}) {ws : List Word}
    (hl : ws.length ≤ 256) : (chan (admitPacket s n ws) n).wr = packetUnits ws := by
  have hfree : ws.length ≤ chanFree s.clk.now {} := Nat.le_trans hl (Nat.le_add_right 256 _)
  have e : admitPacket s n ws = setChan s n { wr := packetUnits ws } := by
    unfold admitPacket chanWrite
    rw [hc]
    dsimp only
    rw [if_pos (show ws.length + _ ≤ _ from hfree)]
    simp [length_packetUnits, hl]
  rw [e]
  simp [chan, setChan, hn]

theorem chan_admitPacket_ne (s : State) {n m : Nat} (h : n ≠ m) (ws : List Word) : chan (admitPacket s m ws) n = chan s n := by
  have hset : ∀ c, chan (setChan s m c) n = chan s n := fun c => by
    unfold chan setChan
    dsimp only
    rw [Vector.getElem?_setIfInBounds_ne (Ne.symm h)]
  rcases admitPacket_cases s m ws with ⟨c, e⟩ | ⟨c, e⟩ | e <;> rw [e]
  · exact hset c
  · unfold raiseAvail
    split
    · exact hset c
    · exact hset c
  · unfold dropPacket
    dsimp only
    split
    · exact hset _
    · exact hset _

theorem chan_emitBoth_flt {s : State} (hc : chan s 7 = {}) {ws : List Word} (hl : ws.length ≤ 256) (tag : Nat) :
    (chan (emitBoth s 7 tag ws) 7).wr = packetUnits ws := by
  rw [emitBoth, chan_admitPacket_ne _ (by decide : 7 ≠ 8), chan_admitPacket_fresh (by decide) hc hl]

/-- Without AUTOFLT a fault record makes no report of its own (R441). -/
theorem autoFlt_emitBoth {s : State} (ha : flag s Fld.LNK_DATA_AUTOFLT = false) (tag : Nat) (ws : List Word) :
    autoFlt (emitBoth s 7 tag ws) ws = emitBoth s 7 tag ws := by
  have h := (OnlyReports.refl packetFlds s).emitBoth (List.Subset.refl _) (by decide : 7 < 9) tag ws
  have hflag : flag (emitBoth s 7 tag ws) Fld.LNK_DATA_AUTOFLT = false := by
    rw [h.2.flag_eq (apart_packetFlds (by decide) (by decide) (by decide)), ha]
  rw [autoFlt, if_neg (by simp [hflag])]

/-- With no automatic reports a fault record stands on FLT as it was written (R502). -/
theorem chan_fault {s : State} (hc : chan s 7 = {}) (ha : flag s Fld.LNK_DATA_AUTOFLT = false) (blk inst code : Nat)
    (detail : List Byte) (hl : (fltWords (q64 s) blk inst code detail).length ≤ 256) :
    (chan (fault s blk inst code detail) 7).wr = packetUnits (fltWords (q64 s) blk inst code detail) := by
  unfold fault
  dsimp only
  rw [autoFlt_emitBoth ha]
  split
  · rw [chan_setTag, chan_emitBoth_flt hc hl]
  · rw [chan_emitBoth_flt hc hl]

/-- A start at step 5 leaves the FLT channel and the automatic reports at reset. -/
theorem fresh_startAt_five (s : State) (cause : Nat) :
    chan (startAt s cause 5) 7 = {} ∧ flag (startAt s cause 5) Fld.LNK_DATA_AUTOFLT = false := by
  obtain ⟨-, hr, -, -, -, -, hfifo, -⟩ := startAt_five_isReset s cause
  constructor
  · rw [chan, hfifo]
    rfl
  · have hreg : reg (startAt s cause 5) Fld.LNK_DATA_AUTOFLT.addr = resetWord Fld.LNK_DATA_AUTOFLT.addr :=
      hr _ (by decide) (by decide) (by decide)
    rw [flag, fld, hreg]
    decide

theorem qtz_startAt_five (s : State) (cause : Nat) : (startAt s cause 5).qtz = s.qtz := by
  obtain ⟨-, -, hqtz, -⟩ := startAt_five_isReset s cause
  exact hqtz

/-- The time does not depend on what reports change. -/
theorem OnlyReports.q64_eq {s t : State} (h : OnlyReports packetFlds s t) : q64 t = q64 s := by
  have hclk : t.clk = s.clk := by rw [h.1]
  have hqtz : t.qtz = s.qtz := by rw [h.1]
  have hmodes : t.modes = s.modes := by rw [h.1]
  have hmode : mode t = mode s := h.2.fld_eq (apart_packetFlds (by decide) (by decide) (by decide))
  have hfall : flag t Fld.SYS_CLKSTAT_FALLBACK = flag s Fld.SYS_CLKSTAT_FALLBACK :=
    h.2.flag_eq (apart_packetFlds (by decide) (by decide) (by decide))
  have hclk100 : clk100 t = clk100 s := by rw [clk100, hmode, hmodes, hfall, clk100]
  rw [q64, interp, hclk, hqtz, hclk100, q64, interp]

theorem exec_sramUe_other (s : State) (a : Word) : exec (.sramUe (.other a)) s =
    .next (if restartable s then fault (startAt s 3 5) 0x00 0 0x03 (leBytes 4 a.toNat) else s) := rfl

theorem exec_sramUe_sighting (s : State) (n : Fin 2048) : exec (.sramUe (.sighting n)) s =
    .next (if running s then sgtClose s n.val (some 5) else s) := rfl

theorem exec_watchdogExpiry (s : State) : exec .watchdogExpiry s = .next (if restartable s then startAt s 4 5 else s) := rfl

/-- The record of an uncorrectable error outlives the restart (R46). -/
theorem fault_startAt_five (s : State) (a : Word) :
    ∃ t, t = fault (startAt s 3 5) 0x00 0 0x03 (leBytes 4 a.toNat) ∧ fld t Fld.SYS_BOOTSTAT_CAUSE = 3 ∧ t.boot.step = 5 ∧
      (chan t 7).wr = packetUnits (fltWords (q64 t) 0x00 0 0x03 (leBytes 4 a.toNat)) ∧ t.qtz = s.qtz ∧ t.pins = s.pins := by
  obtain ⟨hchan, hauto⟩ := fresh_startAt_five s 3
  have hrep := (OnlyReports.refl packetFlds (startAt s 3 5)).fault (List.Subset.refl _) 0x00 0 0x03 (leBytes 4 a.toNat)
  refine ⟨_, rfl, ?_, ?_, ?_, ?_, ?_⟩
  · rw [hrep.2.fld_eq (apart_packetFlds (by decide) (by decide) (by decide)), cause_startAt s 3 5 (by decide)]
  · rw [hrep.1]
    exact step_startAt s 3 5
  · rw [hrep.q64_eq]
    exact chan_fault hchan hauto 0x00 0 0x03 (leBytes 4 a.toNat) (show 4 ≤ 256 by decide)
  · rw [hrep.1]
    exact qtz_startAt_five s 3
  · rw [hrep.1]
    exact pins_startAt_five s 3

/-- An entry lost to an uncorrectable error is closed, counted and flagged (R46, R456). -/
theorem sgtClose_lost {s : State} {n : Nat} {e : Sighting} (h : sgtAt s n = some e) :
    sgtAt (sgtClose s n (some 5)) n = none ∧ flag (sgtClose s n (some 5)) Fld.SGT_STAT_INVALID = true ∧
      FldsKept ([whole Adr.SGT_CNT0, Fld.SGT_STAT_INVALID] ++ packetFlds) s (sgtClose s n (some 5)) ∧
      sgtClose s n (some 5) = { s with
        regs := (sgtClose s n (some 5)).regs, fresh := (sgtClose s n (some 5)).fresh
        fifo := (sgtClose s n (some 5)).fifo, sgt := (sgtClose s n (some 5)).sgt } := by
  obtain ⟨freed, u, z, hu, hclose⟩ := sgtClose_of_open h (some 5)
  have ht : sgtClose s n (some 5) = { setFlag (incSat u Fld.SGT_CNT0_CLOSED 1) Fld.SGT_STAT_INVALID with
      sgt := { (setFlag (incSat u Fld.SGT_CNT0_CLOSED 1) Fld.SGT_STAT_INVALID).sgt with zones := z } } := hclose
  refine ⟨sgtAt_sgtClose_self h (some 5), ?_, ?_, ?_⟩
  · rw [ht]
    exact flag_setFlag_self (incSat u Fld.SGT_CNT0_CLOSED 1) Fld.SGT_STAT_INVALID (by decide) rfl
  · rw [ht]
    have hku : FldsKept ([whole Adr.SGT_CNT0, Fld.SGT_STAT_INVALID] ++ packetFlds) s u :=
      (((FldsKept.refl packetFlds s).regs rfl).trans hu.2).mono fun _ => List.mem_append_right _
    exact ((hku.setReg (a := Adr.SGT_CNT0) (by simp) _).setFlag (by simp)).regs rfl
  · rw [ht, hu.1]
    rfl

theorem exec_sramCe (s : State) : exec .sramCe s = .next (if running s then raise s 60 else s) := rfl

/-! ### RESTART and RELOAD (R105) -/

theorem exec_restart (s : State) {lvl : Level} (key : BitVec 16) (h : permitted s lvl Adr.SYS_BOOTCMD true = true) :
    exec (.restart lvl key) s = .next (bootCommand s lvl key 1) :=
  congrArg Host.Outcome.next (if_pos h)

theorem exec_reload (s : State) {lvl : Level} (key : BitVec 16) (h : permitted s lvl Adr.SYS_BOOTCMD true = true) :
    exec (.reload lvl key) s = .next (bootCommand s lvl key 2) :=
  congrArg Host.Outcome.next (if_pos h)

theorem bootCommand_ignored {s : State} {lvl : Level} {key : BitVec 16} (h : key ≠ 0xA55A ∨ supervisorLevel lvl = false)
    (cmd : Nat) : bootCommand s lvl key cmd = s := by
  have hrefused : (!keyOk key || !supervisorLevel lvl) = true := by
    rcases h with h | h
    · rw [keyOk, beq_eq_false_iff_ne.mpr h]
      rfl
    · rw [h, Bool.not_false, Bool.or_true]
  unfold bootCommand
  exact if_pos hrefused

theorem bootCommand_restart {s : State} {lvl : Level} (h : supervisorLevel lvl = true) :
    bootCommand s lvl 0xA55A 1 = startAt s 5 1 := by
  simp [bootCommand, keyOk, h]

theorem bootCommand_reload {s : State} {lvl : Level} (h : supervisorLevel lvl = true) :
    bootCommand s lvl 0xA55A 2 = { startAt s 6 5 with boot := { (startAt s 6 5).boot with ignoreBootsel := true } } := by
  simp [bootCommand, keyOk, h]

/-! ### The statement, command by command -/

theorem coreSupplyLoss_starts (s : State) :
    (s.pins.core = true → ∃ t, exec .coreSupplyLoss s = .next t ∧ CoreReset [Adr.SYS_MODE] s t ∧ mode t = 0 ∧
      t.pins = { s.pins with core := false, hrdy := false }) ∧
    (s.pins.core = false → exec .coreSupplyLoss s = .next s) := by
  rw [exec_coreSupplyLoss]
  exact ⟨fun h => ⟨supplyLoss s, by rw [if_pos h], supplyLoss_isReset s, mode_supplyLoss s, pins_supplyLoss s⟩,
    fun h => by rw [if_neg (by simp [h])]⟩

theorem coreSupplyValid_starts (s : State) :
    (s.pins.core = false → s.pins.vddio = true → s.pins.rstN = true →
      ∃ t, exec .coreSupplyValid s = .next t ∧ CoreReset [Adr.SYS_BOOTSTAT] s t ∧ fld t Fld.SYS_BOOTSTAT_CAUSE = 1 ∧
        flag t Fld.SYS_BOOTSTAT_DONE = false ∧ t.boot.step = 1 ∧ t.pins = { s.pins with core := true, hrdy := false }) ∧
    (s.pins.core = false → s.pins.vddio = false ∨ s.pins.rstN = false →
      exec .coreSupplyValid s = .next { s with pins := { s.pins with core := true } }) := by
  rw [exec_coreSupplyValid]
  refine ⟨fun hc hv hr => ⟨_, ?_, startAt_pins (s := s) (x := { s.pins with core := true }) (cause := 1) (by decide)⟩,
    fun hc h => ?_⟩
  · rw [if_neg (by simp [hc]), if_pos (by simp [powered, hv, hr])]
  · rw [if_neg (by simp [hc]), if_neg (by rcases h with h | h <;> simp [powered, h])]

theorem vddioLoss_starts (s : State) :
    (s.pins.vddio = true → s.pins.core = true → ∃ t, exec .vddioLoss s = .next t ∧ CoreReset [] s t ∧
      t.boot.step = 0 ∧ t.pins = { s.pins with vddio := false, hrdy := false }) ∧
    (s.pins.vddio = false ∨ s.pins.core = false →
      exec .vddioLoss s = .next { s with pins := { s.pins with vddio := false } }) := by
  rw [exec_vddioLoss]
  exact ⟨fun hv hc => ⟨_, by rw [if_pos (by simp [hv, hc])], holdReset_pins s { s.pins with vddio := false }⟩,
    fun h => by rw [if_neg (by rcases h with h | h <;> simp [h])]⟩

theorem vddioValid_starts (s : State) :
    (s.pins.vddio = false → s.pins.core = true → s.pins.rstN = true →
      ∃ t, exec .vddioValid s = .next t ∧ CoreReset [Adr.SYS_BOOTSTAT] s t ∧
        fld t Fld.SYS_BOOTSTAT_CAUSE = (if s.boot.started then 2 else 1) ∧ t.boot.step = 1 ∧
        t.pins = { s.pins with vddio := true, hrdy := false }) ∧
    (s.pins.vddio = true → exec .vddioValid s = .next s) := by
  rw [exec_vddioValid]
  refine ⟨fun hv hc hr => ?_, fun hv => by rw [if_pos hv]⟩
  obtain ⟨hreset, hcause, -, hstep, hpins⟩ := startAt_pins (s := s) (x := { s.pins with vddio := true })
    (cause := if s.boot.started then 2 else 1) (by split <;> decide)
  refine ⟨_, ?_, hreset, hcause, hstep, hpins⟩
  rw [if_neg (by simp [hv]), if_pos (by simp [powered, hc, hr])]

theorem rstAssert_starts (s : State) :
    (s.pins.rstN = true → s.pins.core = true → ∃ t, exec .rstAssert s = .next t ∧ CoreReset [] s t ∧
      t.boot.step = 0 ∧ t.pins = { s.pins with rstN := false, hrdy := false }) ∧
    (s.pins.rstN = false ∨ s.pins.core = false →
      exec .rstAssert s = .next { s with pins := { s.pins with rstN := false } }) := by
  rw [exec_rstAssert]
  exact ⟨fun hr hc => ⟨_, by rw [if_pos (by simp [hr, hc])], holdReset_pins s { s.pins with rstN := false }⟩,
    fun h => by rw [if_neg (by rcases h with h | h <;> simp [h])]⟩

theorem rstRelease_starts (s : State) :
    (s.pins.rstN = false → s.pins.core = true → s.pins.vddio = true →
      ∃ t, exec .rstRelease s = .next t ∧ CoreReset [Adr.SYS_BOOTSTAT] s t ∧ fld t Fld.SYS_BOOTSTAT_CAUSE = 2 ∧
        t.boot.step = 1 ∧ t.pins = { s.pins with rstN := true, hrdy := false }) ∧
    (s.pins.rstN = true → exec .rstRelease s = .next s) := by
  rw [exec_rstRelease]
  refine ⟨fun hr hc hv => ?_, fun hr => by rw [if_pos hr]⟩
  obtain ⟨hreset, hcause, -, hstep, hpins⟩ := startAt_pins (s := s) (x := { s.pins with rstN := true })
    (cause := 2) (by decide)
  refine ⟨_, ?_, hreset, hcause, hstep, hpins⟩
  rw [if_neg (by simp [hr]), if_pos (by simp [powered, hc, hv])]

/-- POR_BACKUP resets the Quartz window and leaves the other registers (R535). -/
theorem porBackup_resets (s : State) (byField : Bool) :
    (porBackup s byField).pins = { s.pins with vbat := !byField } ∧
      flag (porBackup s byField) Fld.QTZ_STAT_OSF = true ∧ flag (porBackup s byField) Fld.QTZ_STAT_PWRON = true ∧
      (porBackup s byField).qtz = {} ∧ (porBackup s byField).tag.snap = none ∧
      (∀ a, 0x200 ≤ a → a ≤ 0x2FF → a ≠ Adr.QTZ_STAT → reg (porBackup s byField) a = resetWord a) ∧
      fld (porBackup s byField) Fld.SYS_BOOTSTAT_CAUSE = 0 ∧
      (∀ g : Field, g.addr < 0x200 ∨ 0x2FF < g.addr → g.addr ≠ Adr.HSP_INT1 → g.apart Fld.SYS_BOOTSTAT_CAUSE →
        fld (porBackup s byField) g = fld s g) ∧
      (porBackup s byField).mem = s.mem ∧ (porBackup s byField).sched = s.sched := by
  have hfld : ∀ {g : Field}, g.addr ≠ Adr.HSP_INT1 → fld (porBackup s byField) g = fld (backupReset s byField) g :=
    fun hg => fld_of_reg_eq (reg_porBackup s byField hg)
  obtain ⟨hosf, hpwron, hcause⟩ := backupReset_flags s byField
  have hother : ∀ a, 0x200 ≤ a → a ≤ 0x2FF → a ≠ Adr.HSP_INT1 ∧ a ≠ Adr.SYS_BOOTSTAT := fun a hlo hhi => by
    constructor <;> rintro rfl
    · exact absurd hhi (by decide)
    · exact absurd hlo (by decide)
  refine ⟨?_, ?_, ?_, ?_, ?_, fun a hlo hhi hne => ?_, ?_, fun g hout hne hap => ?_, ?_, ?_⟩
  · rw [porBackup_frame]; rfl
  · rw [flag, hfld (by decide)]; exact hosf
  · rw [flag, hfld (by decide)]; exact hpwron
  · rw [porBackup_frame]; rfl
  · rw [porBackup_frame]; rfl
  · rw [reg_porBackup s byField (hother a hlo hhi).1, reg_backupReset s byField hne (hother a hlo hhi).2,
      if_pos ((inQtz_iff a).mpr ⟨hlo, hhi⟩)]
  · rw [hfld (by decide), hcause]
  · have hq : inQtz g.addr = false := Bool.eq_false_iff.mpr fun h => by
      have := (inQtz_iff g.addr).mp h
      omega
    rw [hfld hne, fld_backupReset s byField hq hap]
  · rw [porBackup_frame]; rfl
  · rw [porBackup_frame]; rfl

theorem restart_starts {s : State} {lvl : Level} (hp : permitted s lvl Adr.SYS_BOOTCMD true = true)
    (hl : supervisorLevel lvl = true) :
    ∃ t, exec (.restart lvl 0xA55A) s = .next t ∧ CoreReset [Adr.SYS_BOOTSTAT] s t ∧
      fld t Fld.SYS_BOOTSTAT_CAUSE = 5 ∧ t.boot.step = 1 ∧ t.pins = { s.pins with hrdy := false } := by
  obtain ⟨hreset, hcause, -, hstep, hpins⟩ := startAt_one_spec s (cause := 5) (by decide)
  exact ⟨_, (exec_restart s _ hp).trans (congrArg Host.Outcome.next (bootCommand_restart hl)), hreset, hcause, hstep, hpins⟩

theorem reload_starts {s : State} {lvl : Level} (hp : permitted s lvl Adr.SYS_BOOTCMD true = true)
    (hl : supervisorLevel lvl = true) :
    ∃ t, exec (.reload lvl 0xA55A) s = .next t ∧ CoreReset [Adr.SYS_BOOTSTAT, Adr.SYS_CLKSTAT, Adr.HSP_STAT] s t ∧
      fld t Fld.SYS_BOOTSTAT_CAUSE = 6 ∧ t.boot.step = 5 ∧ t.boot.ignoreBootsel = true ∧ t.pins = s.pins := by
  obtain ⟨hreset, hcause, hstep, hpins⟩ := startAt_five_spec s (cause := 6) (by decide)
  exact ⟨_, (exec_reload s _ hp).trans (congrArg Host.Outcome.next (bootCommand_reload hl)), hreset.setBoot _, (fld_congr rfl _).trans hcause, hstep, rfl, hpins⟩

/-- Settles O7: each cause ends in one reset of the core domain, and the start names its cause and step. -/
theorem resetsAndRestartsBeginStarts : Obligations.ResetsAndRestartsBeginStarts := by
  unfold Obligations.ResetsAndRestartsBeginStarts
  refine ⟨fun s => ?supplies, fun s => ?errors⟩
  case supplies =>
    obtain ⟨supplyLoss, supplyLossOff⟩ := coreSupplyLoss_starts s
    obtain ⟨supplyValid, supplyValidWaits⟩ := coreSupplyValid_starts s
    obtain ⟨vddioLoss, vddioLossOff⟩ := vddioLoss_starts s
    obtain ⟨vddioValid, vddioValidOn⟩ := vddioValid_starts s
    obtain ⟨rstAssert, rstAssertOff⟩ := rstAssert_starts s
    obtain ⟨rstRelease, rstReleaseOn⟩ := rstRelease_starts s
    refine ⟨supplyLoss, supplyLossOff, supplyValid, supplyValidWaits, vddioLoss, vddioLossOff, vddioValid, vddioValidOn,
      rstAssert, rstAssertOff, rstRelease, rstReleaseOn, fun byField hb hf => ?_, fun byField h => ?_⟩
    · exact ⟨porBackup s byField, by rw [exec_porBackup, if_pos (by simp [hb, hf])], porBackup_resets s byField⟩
    · rw [exec_porBackup, if_neg (by rcases h with h | h <;> simp [h])]
  case errors =>
    refine ⟨fun hr => ⟨?watchdog, fun a => ?sram⟩, fun hr => ⟨?_, fun a => ?_⟩, fun n e hr hn => ?sighting,
      fun hr => ⟨?_, fun n => ?_⟩, fun hr => ⟨raise s 60, ?_, flag_raise_self s 60 (by decide), ?_⟩,
      fun lvl key hp => ⟨fun h => ?ignored, fun hl => ⟨restart_starts hp hl, reload_starts hp hl⟩⟩⟩
    case watchdog =>
      obtain ⟨hreset, hcause, hstep, hpins⟩ := startAt_five_spec s (cause := 4) (by decide)
      exact ⟨_, by rw [exec_watchdogExpiry, if_pos hr], hreset, hcause, hstep, bootsel_startAt_five s 4, hpins⟩
    case sram =>
      obtain ⟨t, ht, hrest⟩ := fault_startAt_five s a
      exact ⟨t, by rw [exec_sramUe_other, if_pos hr, ht], hrest⟩
    case sighting =>
      exact ⟨_, by rw [exec_sramUe_sighting, if_pos hr], sgtClose_lost hn⟩
    case ignored =>
      rw [exec_restart s key hp, exec_reload s key hp, bootCommand_ignored h, bootCommand_ignored h]
      exact ⟨rfl, rfl⟩
    · rw [exec_watchdogExpiry, if_neg (by simp [hr])]
    · rw [exec_sramUe_other, if_neg (by simp [hr])]
    · rw [exec_sramCe, if_neg (by simp [hr])]
    · rw [exec_sramUe_sighting, if_neg (by simp [hr])]
    · rw [exec_sramCe, if_pos hr]
    · exact (OnlyFlds.refl _ s).setFlag (List.mem_singleton_self _)

end Sys2Proof.Machine

/-! The commands of `SYS_MODECMD` (R64, R67, R68): the checks in their order, and the result that each leaves. -/

namespace Sys2Proof.Machine

/-! ### The check that fails first (R68) -/

/-- A write of `SYS_MODECMD` that its level is permitted runs the command of its code (R67). -/
theorem exec_modeCommands {s : State} {lvl : Level} (h : permitted s lvl Adr.SYS_MODECMD true = true) (key : BitVec 16) :
    exec (.sleepNow lvl key) s = .next (modeCommand s lvl key 1) ∧
      exec (.enterService lvl key) s = .next (modeCommand s lvl key 2) ∧
      exec (.leaveService lvl key) s = .next (modeCommand s lvl key 3) ∧
      exec (.enterBackup lvl key) s = .next (modeCommand s lvl key 4) ∧
      exec (.cancel lvl key) s = .next (modeCommand s lvl key 5) := by
  have hrun : ∀ cmd, next (asWrite s lvl Adr.SYS_MODECMD fun t => modeCommand t lvl key cmd) =
      .next (modeCommand s lvl key cmd) := fun _ => congrArg Host.Outcome.next (if_pos h)
  exact ⟨hrun 1, hrun 2, hrun 3, hrun 4, hrun 5⟩

theorem modeCommand_refused {s : State} {lvl : Level} {key : BitVec 16} {cmd r : Nat} (h : cmdCheck s lvl key cmd = r)
    (hr : r ≠ 1) : modeCommand s lvl key cmd = cmdRes s r := by
  subst h
  exact if_neg hr

theorem modeCommand_accepted {s : State} {lvl : Level} {key : BitVec 16} {cmd : Nat} (h : cmdCheck s lvl key cmd = 1) :
    modeCommand s lvl key cmd = cmdAccept s cmd := if_pos h

/-- The level is one that the command is accepted from: SUPERVISOR for ENTER_SERVICE, LEAVE_SERVICE and ENTER_BACKUP (R68). -/
def cmdLevel (lvl : Level) (cmd : Nat) : Prop := cmd = 1 ∨ cmd = 5 ∨ lvl = .supervisor

theorem cmdLevel_supervisor (cmd : Nat) : cmdLevel .supervisor cmd := .inr (.inr rfl)

theorem supervisorLevel_eq_false {lvl : Level} (h : lvl ≠ .supervisor) : supervisorLevel lvl = false := by
  cases lvl
  case supervisor => exact absurd rfl h
  all_goals rfl

section Checks

variable {s : State} {lvl : Level} {cmd : Nat}

theorem cmdCheck_key {key : BitVec 16} (h : key ≠ 0xA55A) : cmdCheck s lvl key cmd = 4 := by
  have hk : keyOk key = false := beq_eq_false_iff_ne.mpr h
  simp [cmdCheck, hk]

theorem cmdCheck_level (h : lvl ≠ .supervisor) (hc : cmd = 2 ∨ cmd = 3 ∨ cmd = 4) : cmdCheck s lvl 0xA55A cmd = 2 := by
  have hl := supervisorLevel_eq_false h
  rcases hc with rfl | rfl | rfl <;> simp [cmdCheck, keyOk, hl]

/-- Key and level passed, the command in hand, the transition and FLOOR are what is left to check. -/
theorem cmdCheck_of_level (h : cmdLevel lvl cmd) (hc : 0 < cmd ∧ cmd ≤ 5) :
    cmdCheck s lvl 0xA55A cmd =
      if s.modes.cmd.isSome && cmd != 5 then 3
      else if !cmdHas s cmd then 6
      else if cmd == 1 && fld s Fld.SYS_MODECTL_FLOOR == 3 then 5
      else 1 := by
  have hlevel : ((cmd == 2 || cmd == 3 || cmd == 4) && !supervisorLevel lvl) = false := by
    rcases h with rfl | rfl | rfl <;> simp [supervisorLevel]
  have hkey : (!keyOk 0xA55A || cmd == 0 || decide (5 < cmd)) = false := by
    simp [keyOk]
    omega
  rw [cmdCheck, if_neg (Bool.eq_false_iff.mp hkey), if_neg (Bool.eq_false_iff.mp hlevel)]

theorem cmdCheck_inHand (h : cmdLevel lvl cmd) (hc : 0 < cmd ∧ cmd < 5) (hs : s.modes.cmd ≠ none) :
    cmdCheck s lvl 0xA55A cmd = 3 := by
  rw [cmdCheck_of_level h (by omega), if_pos]
  simp [Option.isSome_iff_ne_none.mpr hs]
  omega

theorem cmdCheck_absent (h : cmdLevel lvl cmd) (hc : 0 < cmd ∧ cmd ≤ 5) (hs : s.modes.cmd = none)
    (hh : cmdHas s cmd = false) : cmdCheck s lvl 0xA55A cmd = 6 := by
  rw [cmdCheck_of_level h hc, if_neg (by simp [hs]), if_pos (by simp [hh])]

theorem cmdCheck_floor (hs : s.modes.cmd = none) (hh : cmdHas s 1 = true) (hf : fld s Fld.SYS_MODECTL_FLOOR = 3) :
    cmdCheck s lvl 0xA55A 1 = 5 := by
  rw [cmdCheck_of_level (.inl rfl) (by omega), if_neg (by simp [hs]), if_neg (by simp [hh]), if_pos (by simp [hf])]

theorem cmdCheck_passes (h : cmdLevel lvl cmd) (hc : 0 < cmd ∧ cmd ≤ 5) (hs : s.modes.cmd = none ∨ cmd = 5)
    (hh : cmdHas s cmd = true) (hf : cmd = 1 → fld s Fld.SYS_MODECTL_FLOOR ≠ 3) : cmdCheck s lvl 0xA55A cmd = 1 := by
  rw [cmdCheck_of_level h hc, if_neg, if_neg (by simp [hh]), if_neg]
  · simpa using hf
  · rcases hs with hs | rfl
    · simp [hs]
    · simp

end Checks

/-! ### Refused commands -/

/-- A refused command leaves its result and nothing else (R68). -/
theorem cmdRes_only (s : State) (r : Nat) (hr : r < 8) :
    fld (cmdRes s r) Fld.SYS_MODE_CMDRES = r ∧ OnlyFlds [Fld.SYS_MODE_CMDRES] s (cmdRes s r) :=
  ⟨(fld_setFld_self s Fld.SYS_MODE_CMDRES r (by decide)).trans (Nat.mod_eq_of_lt hr),
    (OnlyFlds.refl _ s).setFld (List.mem_singleton_self _) r⟩

/-- Settles O12: each check of R68 answers its code where those before it pass. -/
theorem modeCommandsAreRefusedInOrder : Obligations.ModeCommandsAreRefusedInOrder := by
  unfold Obligations.ModeCommandsAreRefusedInOrder
  intro s lvl key hp
  have hex := fun key => exec_modeCommands (key := key) hp
  have run : ∀ {e : Host.Outcome State Fault Refusal} {key : BitVec 16} {cmd r : Nat}, e = .next (modeCommand s lvl key cmd) →
      cmdCheck s lvl key cmd = r → r ≠ 1 → e = .next (cmdRes s r) := fun he hc hr => by
    rw [he, modeCommand_refused hc hr]
  obtain ⟨sleep, enter, leave, backup, cancel⟩ := hex key
  obtain ⟨sleepK, enterK, leaveK, backupK, cancelK⟩ := hex 0xA55A
  have sup : lvl = .supervisor → ∀ cmd, cmdLevel lvl cmd := fun hl cmd => hl ▸ cmdLevel_supervisor cmd
  refine ⟨fun hk => ⟨cmdRes s 4, ?_⟩, fun hl => ⟨cmdRes s 2, ?_⟩, fun hs => ⟨cmdRes s 3, ?_⟩, fun hs => ⟨cmdRes s 6, ?_⟩,
    fun hs hm hf => ⟨cmdRes s 5, ?_⟩⟩
  · obtain ⟨hfld, honly⟩ := cmdRes_only s 4 (by decide)
    have key4 : ∀ cmd, cmdCheck s lvl key cmd = 4 := fun _ => cmdCheck_key hk
    exact ⟨hfld, honly, run sleep (key4 _) (by decide), run enter (key4 _) (by decide), run leave (key4 _) (by decide),
      run backup (key4 _) (by decide), run cancel (key4 _) (by decide)⟩
  · obtain ⟨hfld, honly⟩ := cmdRes_only s 2 (by decide)
    exact ⟨hfld, honly, run enterK (cmdCheck_level hl (by decide)) (by decide),
      run leaveK (cmdCheck_level hl (by decide)) (by decide), run backupK (cmdCheck_level hl (by decide)) (by decide)⟩
  · obtain ⟨hfld, honly⟩ := cmdRes_only s 3 (by decide)
    have hand : ∀ cmd, cmdLevel lvl cmd → 0 < cmd ∧ cmd < 5 → cmdCheck s lvl 0xA55A cmd = 3 := fun _ h hc =>
      cmdCheck_inHand h hc hs
    exact ⟨hfld, honly, run sleepK (hand 1 (.inl rfl) (by decide)) (by decide), fun hl =>
      ⟨run enterK (hand 2 (sup hl 2) (by decide)) (by decide), run leaveK (hand 3 (sup hl 3) (by decide)) (by decide),
        run backupK (hand 4 (sup hl 4) (by decide)) (by decide)⟩⟩
  · obtain ⟨hfld, honly⟩ := cmdRes_only s 6 (by decide)
    have absent : ∀ cmd, cmdLevel lvl cmd → 0 < cmd ∧ cmd ≤ 5 → cmdHas s cmd = false → cmdCheck s lvl 0xA55A cmd = 6 :=
      fun _ h hc hh => cmdCheck_absent h hc hs hh
    exact ⟨hfld, honly, run cancelK (absent 5 (.inr (.inl rfl)) (by decide) (by simp [cmdHas, hs])) (by decide),
      fun h3 h4 => run sleepK (absent 1 (.inl rfl) (by decide) (by simp [cmdHas, h3, h4])) (by decide),
      fun hl => ⟨fun h3 h4 => run enterK (absent 2 (sup hl 2) (by decide) (by simp [cmdHas, h3, h4])) (by decide),
        fun h5 => run leaveK (absent 3 (sup hl 3) (by decide) (by simp [cmdHas, h5])) (by decide),
        fun h3 => run backupK (absent 4 (sup hl 4) (by decide) (by simp [cmdHas, h3])) (by decide)⟩⟩
  · obtain ⟨hfld, honly⟩ := cmdRes_only s 5 (by decide)
    have hh : cmdHas s 1 = true := by simpa [cmdHas] using hm
    exact ⟨hfld, honly, run sleepK (cmdCheck_floor hs hh hf) (by decide)⟩

end Sys2Proof.Machine

/-! The journal writer (R469–R479): what taking packets, building records and programming pages leave alone. -/

namespace Sys2Proof.Machine

/-- What the journal writer may write as it takes packets and programs pages: the GAP records are counted too (R472). -/
def writerFlds : List Field := Fld.JNL_CNT1_GAPS :: jnlFlds

theorem packetFlds_subset_writerFlds : packetFlds ⊆ writerFlds := fun _ h =>
  List.mem_cons_of_mem _ (List.mem_append_right _ h)

/-- Nothing but the journal, the reports that its failures make, and the registers of both changed. -/
structure OnlyJournal (s t : State) : Prop where
  state : t = { s with regs := t.regs, fresh := t.fresh, fifo := t.fifo, lnk := t.lnk, tag := t.tag, jnl := t.jnl }
  kept : FldsKept writerFlds s t

namespace OnlyJournal

variable {s t u : State}

theorem refl (s : State) : OnlyJournal s s := ⟨rfl, .refl _ s⟩

theorem trans (h : OnlyJournal s t) (h' : OnlyJournal t u) : OnlyJournal s u :=
  ⟨by rw [h'.state, h.state], h.kept.trans h'.kept⟩

theorem ite {c : Prop} [Decidable c] (ht : OnlyJournal s t) (hu : OnlyJournal s u) :
    OnlyJournal s (if c then t else u) := by
  split
  · exact ht
  · exact hu

theorem foldl {α : Type} (f : State → α → State) (hf : ∀ u k, OnlyJournal s u → OnlyJournal s (f u k)) (L : List α)
    (h : OnlyJournal s t) : OnlyJournal s (L.foldl f t) := by
  induction L generalizing t with
  | nil => exact h
  | cons k L ih => exact ih (hf t k h)

theorem reports (h : OnlyJournal s t) (hu : OnlyReports writerFlds t u) : OnlyJournal s u :=
  h.trans ⟨by rw [hu.1], hu.2⟩

theorem setJnl (h : OnlyJournal s t) (j : Journal) : OnlyJournal s { t with jnl := j } :=
  h.trans ⟨rfl, (FldsKept.refl _ t).regs rfl⟩

theorem setLnk (h : OnlyJournal s t) (x : Lnk) : OnlyJournal s { t with lnk := x } := h.reports ((OnlyReports.refl _ t).setLnk x)

theorem setFld (h : OnlyJournal s t) {f : Field} (hf : f ∈ writerFlds) (v : Nat) : OnlyJournal s (setFld t f v) :=
  h.reports ((OnlyReports.refl _ t).setFld hf v)

theorem setFlag (h : OnlyJournal s t) {f : Field} (hf : f ∈ writerFlds) : OnlyJournal s (setFlag t f) :=
  h.reports ((OnlyReports.refl _ t).setFlag hf)

theorem setChan (h : OnlyJournal s t) (n : Nat) (c : Chan) : OnlyJournal s (setChan t n c) :=
  h.reports ((OnlyReports.refl _ t).fifo ((OnlyFifo.refl _ t).setChan n c))

theorem fault (h : OnlyJournal s t) (blk inst code : Nat) (detail : List Byte) :
    OnlyJournal s (fault t blk inst code detail) :=
  h.reports ((OnlyReports.refl _ t).fault packetFlds_subset_writerFlds blk inst code detail)

/-! Failures (R418, R479). -/

theorem txPacket (h : OnlyJournal s t) (f : LnkTx) (result : Nat) : OnlyJournal s (txPacket t f result) :=
  h.reports (((OnlyReports.refl _ t).admitPacket packetFlds_subset_writerFlds (by decide) _).setFlag
    (packetFlds_subset_writerFlds intBit_txDone_mem_packetFlds))

theorem withhold (h : OnlyJournal s t) (why : Nat) : OnlyJournal s (withhold t why) := by
  unfold Machine.withhold
  exact foldl _ (fun u f hu => hu.txPacket f 5) _ ((h.ite ((h.setFlag (by decide)).fault _ _ _ _)).setLnk _)

theorem jstop (h : OnlyJournal s t) (b : Nat) : OnlyJournal s (jstop t b) :=
  (((((h.setFlag (by decide)).withhold 2).fault _ _ _ _).setChan 8 _).setJnl _)

theorem jeraseBlock (h : OnlyJournal s t) (b : Nat) : OnlyJournal s (jeraseBlock t b) := h.setJnl _

theorem jmeta (h : OnlyJournal s t) : OnlyJournal s (jmeta t) := by
  unfold Machine.jmeta
  exact ((((h.setJnl _).jeraseBlock _).ite (h.setJnl _)).setJnl _).setJnl _

theorem jmarkBad (h : OnlyJournal s t) (b : Nat) : OnlyJournal s (jmarkBad t b) := by
  have hm := (h.setJnl { t.jnl with bad := t.jnl.bad ++ [b], erased := t.jnl.erased.filter fun x => x != b }).jmeta
  unfold Machine.jmarkBad
  exact (hm.jstop b).ite hm

theorem jblockFail (h : OnlyJournal s t) (b why : Nat) : OnlyJournal s (jblockFail t b why) := by
  unfold Machine.jblockFail
  exact (((((h.withhold 2).ite h).setFld (by decide) _).fault _ _ _ _).setFlag (by decide)).jmarkBad b

/-! Erasing and entering blocks (R469, R478). -/

theorem jeraseOne (h : OnlyJournal s t) (b : Nat) (ok : Bool) : OnlyJournal s (jeraseOne t b ok) := by
  have h1 := h.setJnl { t.jnl with ring := t.jnl.ring.filter fun x => x != b }
  have h2 : ∀ {c : Prop} [Decidable c], OnlyJournal s (if c then _ else _) := fun {c} _ =>
    ((h1.setFlag (f := Fld.JNL_STAT_WRAPPED) (by decide)).setFlag (f := intBit 57) (by decide)).ite (c := c) h1
  unfold Machine.jeraseOne
  exact (h2.jmarkBad b).ite (((h2.jeraseBlock b).ite ((h2.jeraseBlock b).setJnl _)).ite (h2.ite (h2.jblockFail b 2)))

theorem jforceErase (n : Nat) (h : OnlyJournal s t) : OnlyJournal s (jforceErase n t) := by
  induction n generalizing t with
  | zero => exact h
  | succ n ih =>
    unfold Machine.jforceErase
    split
    · exact h
    · split
      · exact ih (((h.setFld (by decide) _).ite h).jeraseOne _ true)
      · exact h

theorem jenter (h : OnlyJournal s t) : OnlyJournal s (jenter t) := by
  have hf := h.jforceErase t.jnl.nblk
  unfold Machine.jenter
  dsimp only
  split
  · exact hf.ite (hf.jstop _)
  · exact (hf.setJnl _).jmeta.ite (hf.setJnl _)

/-! Programming pages (R470, R476, R477). -/

theorem fcStands (h : OnlyJournal s t) (l : List (Nat × JRecord)) : OnlyJournal s (fcStands t l) :=
  h.trans ⟨rfl, (FldsKept.refl _ t).regs rfl⟩

theorem dutyStands (h : OnlyJournal s t) (l : List (Nat × JRecord)) : OnlyJournal s (dutyStands t l) :=
  h.trans ⟨rfl, (FldsKept.refl _ t).regs rfl⟩

theorem jnoteSet (h : OnlyJournal s t) (x : Nat × JRecord) : OnlyJournal s (jnoteSet t x) := by
  unfold Machine.jnoteSet
  dsimp only
  exact ite (ite (ite ((h.setJnl _).fcStands _) (h.setJnl _)) (h.setJnl _))
    (ite (ite (ite ((h.setJnl _).dutyStands _) (h.setJnl _)) (h.setJnl _)) h)

theorem jmarkPos (h : OnlyJournal s t) (at_ : Nat) (rs : List JRecord) (k : Nat) : OnlyJournal s (jmarkPos t at_ rs k) := by
  induction rs generalizing t k with
  | nil => exact h
  | cons r rs ih => exact ih (h.jnoteSet _) _

theorem jprogram (n : Nat) (h : OnlyJournal s t) (rs : List JRecord) (ok : Bool) : OnlyJournal s (jprogram n t rs ok) := by
  induction n generalizing t ok with
  | zero => exact h
  | succ n ih =>
    have he := h.ite (c := t.jnl.page < 64) h.jenter
    have hb := he.jblockFail (jhead (if t.jnl.page < 64 then t else Machine.jenter t)) 1
    unfold Machine.jprogram
    dsimp only
    exact he.ite ((((he.setJnl _).setJnl _).jmarkPos _ _ _).ite ((ih hb.jenter true).ite hb))

theorem jprogramFull (h : OnlyJournal s t) (ok : Bool) : OnlyJournal s (jprogramFull t ok) := by
  unfold Machine.jprogramFull
  split
  · exact h
  · exact (h.setJnl _).jprogram _ _ ok

theorem jprogramAll (n : Nat) (h : OnlyJournal s t) : OnlyJournal s (jprogramAll n t) := by
  induction n generalizing t with
  | zero => exact h
  | succ n ih => exact h.ite (ih (h.jprogramFull true))

theorem jclose (h : OnlyJournal s t) : OnlyJournal s (jclose t) := h.ite (h.setJnl _)

theorem jflush (h : OnlyJournal s t) : OnlyJournal s (jflush t) := (h.jclose.jprogramAll _).ite h

theorem jput1 (h : OnlyJournal s t) (r : JRecord) : OnlyJournal s (jput1 t r) := by
  have happend : ∀ {u}, OnlyJournal s u → OnlyJournal s (jappend u r) := fun hu => by
    unfold jappend
    exact (((hu.jclose.ite hu).setJnl _).jclose).ite ((hu.jclose.ite hu).setJnl _)
  exact happend (h.ite (h.jprogramAll _))

theorem jwriteNow (h : OnlyJournal s t) (rs : List JRecord) : OnlyJournal s (jwriteNow t rs) :=
  (foldl _ (fun _ r hu => hu.jput1 r) rs h).jflush

/-! Packets taken off the writer's channel (R60, R472, R492). -/

theorem jtake (n : Nat) (h : OnlyJournal s t) : OnlyJournal s (jtake n t []).2 := by
  induction n generalizing t with
  | zero => exact h
  | succ n ih =>
    unfold Machine.jtake
    split
    · exact h
    · dsimp only
      split
      · exact (h.setChan 8 _).setJnl _
      · exact ih ((h.setChan 8 _).setJnl _)

theorem jtakeRecord (h : OnlyJournal s t) : OnlyJournal s (jtakeRecord t []) := by
  have hq := h.jtake 512
  unfold Machine.jtakeRecord
  dsimp only
  split
  · exact hq
  · refine hq.ite (((hq.setFld (by decide) _).jput1 _).ite ?_)
    split
    · refine OnlyJournal.jput1 ?_ _
      unfold jnoteConfig
      exact (hq.setJnl _).ite hq
    · exact hq

theorem jdrain (h : OnlyJournal s t) : OnlyJournal s (jdrain t) := by
  have hrep : ∀ n {u}, OnlyJournal s u → OnlyJournal s (Nat.repeat (fun t => Machine.jtakeRecord (jcaughtUp t) []) n u) := by
    intro n u hu
    induction n with
    | zero => exact hu
    | succ n ih => exact ((ih.setChan 8 _).ite (ih.setChan 8 _)).jtakeRecord
  exact (hrep _ h).ite h

/-! The checkpoints of a flush (R60, R416, R421). -/

theorem ckptWrite (h : OnlyJournal s t) : OnlyJournal s (ckptWrite t) := (h.jwriteNow _).ite h

theorem dutyWrite (h : OnlyJournal s t) : OnlyJournal s (dutyWrite t) := by
  unfold Machine.dutyWrite
  split
  · split
    · exact h.setLnk _
    · exact h.jwriteNow _
  · exact h

theorem backupFlush (h : OnlyJournal s t) : OnlyJournal s (backupFlush t) := h.jdrain.ckptWrite.dutyWrite

end OnlyJournal

end Sys2Proof.Machine

/-! The end of calibration work and of RF bias (R47, R54, R181, R182): what they leave alone, and what they end. -/

namespace Sys2Proof.Machine

/-! ### What ends with RF bias -/

/-- The fields of the paths, of the bias and of the traces that end with them (R54, R181, R570). -/
def biasFlds : List Field :=
  [Fld.SYS_CLKSTAT_RFBIAS, Fld.CAL_STAT_BUSY, Fld.CAL_STAT_RESULT] ++ settleFlds .a ++ settleFlds .b

theorem settleFlds_subset_biasFlds (p : RfPath) : settleFlds p ⊆ biasFlds := by
  cases p
  · exact fun _ h => List.mem_append_left _ (List.mem_append_right _ h)
  · exact fun _ h => List.mem_append_right _ h

theorem fPath_mem_biasFlds (p : RfPath) : fPath p ∈ biasFlds := settleFlds_subset_biasFlds p List.mem_cons_self

/-- Nothing but the front end, the clocks, the channels' accounts, calibration, the scheduler and when entries ended changed, with
the fields of registers listed. -/
structure OnlyBias (s t : State) : Prop where
  state : t = { s with regs := t.regs, fresh := t.fresh, clk := t.clk, radio := t.radio, cal := t.cal, sched := t.sched
                       slate := t.slate, brm := t.brm }
  kept : FldsKept biasFlds s t

namespace OnlyBias

variable {s t u : State}

theorem refl (s : State) : OnlyBias s s := ⟨rfl, .refl _ s⟩

theorem trans (h : OnlyBias s t) (h' : OnlyBias t u) : OnlyBias s u :=
  ⟨by rw [h'.state, h.state], h.kept.trans h'.kept⟩

theorem path {p : RfPath} (h : OnlyBias s t) (hu : OnlyPath p (settleFlds p) t u) : OnlyBias s u :=
  h.trans ⟨by rw [hu.state], hu.kept.mono (settleFlds_subset_biasFlds p)⟩

theorem setFld (h : OnlyBias s t) {f : Field} (hf : f ∈ biasFlds) (v : Nat) : OnlyBias s (setFld t f v) :=
  h.trans ⟨rfl, (FldsKept.refl _ t).setFld hf v⟩

/-- An update of stores other than the registers. -/
theorem stores (h : OnlyBias s t) (c : Clk) (r : Radio) (x : Cal) (d : Sched) (l : Slate) (b : Brm) :
    OnlyBias s { t with clk := c, radio := r, cal := x, sched := d, slate := l, brm := b } :=
  h.trans ⟨rfl, (FldsKept.refl _ t).regs rfl⟩

theorem mode_eq (h : OnlyBias s t) : mode t = mode s := h.kept.fld_eq (by unfold Field.apart; decide)

theorem foldl {α : Type} (f : State → α → State) (hf : ∀ u k, OnlyBias s u → OnlyBias s (f u k)) (L : List α)
    (h : OnlyBias s t) : OnlyBias s (L.foldl f t) := by
  induction L generalizing t with
  | nil => exact h
  | cons k L ih => exact ih (hf t k h)

end OnlyBias

/-- A trace that runs or waits (R570) is as it was. -/
def TracesKept (s t : State) : Prop := t.cal.trace = s.cal.trace ∧ t.cal.rxTrace = s.cal.rxTrace

namespace TracesKept

variable {s t u : State}

theorem trans (h : TracesKept s t) (h' : TracesKept t u) : TracesKept s u := ⟨h'.1.trans h.1, h'.2.trans h.2⟩

theorem cal_eq (h : t.cal = s.cal) : TracesKept s t := ⟨by rw [h], by rw [h]⟩

end TracesKept

/-! ### A path goes to IDLE (R182, R184) -/

theorem accountOff_traces (s : State) (c : Nat) : TracesKept s (accountOff s c) := by
  unfold accountOff
  dsimp only
  split
  · exact .cal_eq rfl
  · exact .cal_eq rfl

theorem carrierCleared_traces (s : State) (p : RfPath) : TracesKept s (carrierCleared s p) := by
  have hsupp : ∀ u : State, (((List.range 4).foldl (fun t k => clrFld t (fSupp k p)) u).cal = u.cal) := fun _ => rfl
  refine ((accountOff_traces (clrFld s (fCarr p)) (pathSt s p).chan).trans (.cal_eq (hsupp _))).trans (.cal_eq ?_)
  rw [carrierCleared, setPathSt_radio]

theorem calTrigger_traces (s : State) (item inst : Nat) (slots : List Nat) : TracesKept s (calTrigger s item inst slots) := by
  unfold calTrigger calMark
  dsimp only
  (repeat' split) <;> exact ⟨rfl, rfl⟩

theorem carrierOff_traces (s : State) (p : RfPath) : TracesKept s (carrierOff s p) := by
  rcases carrierOff_cases s p with ⟨e, -⟩ | e | ⟨inst, e⟩ <;> rw [e]
  · exact .cal_eq rfl
  · exact carrierCleared_traces s p
  · exact (carrierCleared_traces s p).trans (calTrigger_traces _ _ _ _)

/-- A path that is not OFF goes to IDLE: its carrier falls, what it holds of the gains and of its tune goes, its chains follow. -/
theorem pathIdle_eq (s : State) (p : RfPath) (h : pathState s p ≠ 0) :
    ∃ gains x, pathIdle s p = setChains (setFld (setPathSt { carrierOff s p with
      radio := { (carrierOff s p).radio with gainHeld := gains } } p x) (fPath p) 1) :=
  ⟨_, _, if_neg h⟩

theorem pathIdle_onlyPath (s : State) (p : RfPath) : OnlyPath p (settleFlds p) s (pathIdle s p) := by
  by_cases h : pathState s p = 0
  · rw [pathIdle, if_pos h]
    exact .refl p _ s
  · obtain ⟨gains, x, e⟩ := pathIdle_eq s p h
    have h1 := (carrierOff_onlyPath s p).mono (carrierFlds_subset p)
    have h2 : OnlyPath p (settleFlds p) s { carrierOff s p with
        radio := { (carrierOff s p).radio with gainHeld := gains } } :=
      h1.trans ⟨rfl, by cases p <;> rfl, (FldsKept.refl _ _).regs rfl⟩
    rw [e]
    exact ((h2.setPathSt x).setFld List.mem_cons_self 1).trans
      (.onlyFlds ((setChains_onlyFlds _).mono (chainFlds_subset p)))

theorem pathIdle_traces (s : State) (p : RfPath) : TracesKept s (pathIdle s p) := by
  by_cases h : pathState s p = 0
  · rw [pathIdle, if_pos h]
    exact .cal_eq rfl
  · obtain ⟨gains, x, e⟩ := pathIdle_eq s p h
    refine (carrierOff_traces s p).trans (.cal_eq ?_)
    rw [e, (setChains_onlyFlds _).1, setPathSt_radio]
    rfl

/-! ### RF bias goes off (R54, R181) -/

theorem biasOff_eq (s : State) :
    ∃ r c, biasOff s = clrFld (clrFld (clrFld { pathIdle (pathIdle s .a) .b with radio := r, clk := c } (fPath .a)) (fPath .b))
      Fld.SYS_CLKSTAT_RFBIAS := by
  unfold biasOff
  generalize pathIdle (pathIdle s .a) .b = t
  exact ⟨_, _, rfl⟩

theorem biasOff_only (s : State) : OnlyBias s (biasOff s) := by
  obtain ⟨r, c, e⟩ := biasOff_eq s
  rw [e]
  exact ((((((OnlyBias.refl s).path (pathIdle_onlyPath s .a)).path (pathIdle_onlyPath _ .b)).stores c r _ _ _ _).setFld
    (fPath_mem_biasFlds .a) 0).setFld (fPath_mem_biasFlds .b) 0).setFld (by decide) 0

theorem biasOff_sched (s : State) : (biasOff s).sched = s.sched :=
  (pathIdle_onlyPath (pathIdle s .a) .b).sched_eq.trans (pathIdle_onlyPath s .a).sched_eq

theorem biasOff_traces (s : State) : TracesKept s (biasOff s) := by
  obtain ⟨r, c, e⟩ := biasOff_eq s
  rw [e]
  exact ((pathIdle_traces s .a).trans (pathIdle_traces _ .b)).trans (.cal_eq rfl)

/-- RF bias is off and both paths are OFF. -/
theorem biasOff_off (s : State) :
    fld (biasOff s) Fld.SYS_CLKSTAT_RFBIAS = 0 ∧ pathState (biasOff s) .a = 0 ∧ pathState (biasOff s) .b = 0 := by
  obtain ⟨r, c, e⟩ := biasOff_eq s
  rw [e]
  refine ⟨fld_clrFld_self _ _ (by decide), ?_, ?_⟩
  · rw [pathState, clrFld, fld_setFld_apart _ _ _ _ (by decide), clrFld, fld_setFld_apart _ _ _ _ (by decide),
      fld_clrFld_self _ _ (by decide)]
  · rw [pathState, clrFld, fld_setFld_apart _ _ _ _ (by decide), fld_clrFld_self _ _ (by decide)]

/-! ### Grants end (R152) -/

/-- The end of a grant moves the scheduler, the clock of RFHOLD and when its entry ended. -/
theorem endGrant_frame (s : State) (who : Consumer) :
    endGrant s who = { s with clk := (endGrant s who).clk, sched := (endGrant s who).sched, slate := (endGrant s who).slate } := by
  unfold endGrant rfOver
  dsimp only
  (repeat' split) <;> rfl

/-- The grant of the consumer goes with its top-ups; without a grant nothing goes. -/
theorem grants_endGrant (s : State) (who : Consumer) :
    (endGrant s who).sched.grants = if (grantOf s who).isSome then s.sched.grants.filter fun x => x.who != who
      else s.sched.grants := by
  unfold endGrant rfOver
  dsimp only
  (repeat' split) <;> simp_all [grantPoint, charge]

theorem grantOf_eq_none {s : State} {who : Consumer} :
    grantOf s who = none ↔ ∀ g ∈ s.sched.grants, g.who = who → g.topUp = true := by
  simp [grantOf]

theorem grantOf_endGrant_self (s : State) (who : Consumer) : grantOf (endGrant s who) who = none := by
  rw [grantOf_eq_none, grants_endGrant]
  split
  · intro g hg hw
    simp [hw] at hg
  · next h => exact grantOf_eq_none.mp (by simpa using h)

theorem grantOf_endGrant_none {s : State} {w : Consumer} (h : grantOf s w = none) (who : Consumer) :
    grantOf (endGrant s who) w = none := by
  rw [grantOf_eq_none] at h ⊢
  intro g hg
  rw [grants_endGrant] at hg
  split at hg
  · exact h g (List.mem_of_mem_filter hg)
  · exact h g hg

/-! ### Calibration's work ends (R47, R59, R570) -/

namespace OnlyBias

variable {s t : State}

theorem endGrant (h : OnlyBias s t) (who : Consumer) : OnlyBias s (endGrant t who) := by
  rw [endGrant_frame]
  exact h.stores _ _ _ _ _ _

theorem calStop (h : OnlyBias s t) (who : Consumer) : OnlyBias s (calStop t who) := h.stores _ _ _ _ _ _

/-- The requests of traces go by the scheduler alone (R153). -/
theorem withdraw (h : OnlyBias s t) {who : Consumer} (hw : who = .calTrace ∨ who = .calStore) :
    OnlyBias s (withdraw t who) := by
  rcases hw with rfl | rfl
  · exact h.stores _ _ _ _ _ _
  · exact h.stores _ _ _ _ _ _

theorem calResult (h : OnlyBias s t) (r : Nat) : OnlyBias s (calResult t r) := h.setFld (by decide) r

theorem traceOff (h : OnlyBias s t) : OnlyBias s (traceOff t) := by
  have h1 : OnlyBias s (clrFld { t with cal := { t.cal with trace := none } } Fld.CAL_STAT_BUSY) :=
    (h.stores _ _ _ _ _ _).setFld (by decide) 0
  unfold Machine.traceOff
  dsimp only
  split
  · exact ((h1.path (pathIdle_onlyPath _ .a)).withdraw (.inl rfl)).endGrant _
  · exact (h1.withdraw (.inl rfl)).endGrant _

end OnlyBias

theorem endGrant_traces (s : State) (who : Consumer) : TracesKept s (endGrant s who) := .cal_eq (by rw [endGrant_frame])

theorem withdraw_trace_traces (s : State) : TracesKept s (withdraw s .calTrace) := .cal_eq rfl

theorem traceOff_traces (s : State) : (traceOff s).cal.trace = none ∧ (traceOff s).cal.rxTrace = s.cal.rxTrace := by
  have hoff : ∀ t, TracesKept { s with cal := { s.cal with trace := none } } t →
      TracesKept { s with cal := { s.cal with trace := none } } (endGrant (withdraw t .calTrace) .calTrace) := fun t ht =>
    (ht.trans (withdraw_trace_traces t)).trans (endGrant_traces _ _)
  unfold traceOff
  dsimp only
  split
  · exact hoff _ (pathIdle_traces (clrFld { s with cal := { s.cal with trace := none } } Fld.CAL_STAT_BUSY) .a)
  · exact hoff _ (.cal_eq rfl)

theorem traceAbort_only (s : State) : OnlyBias s (traceAbort s) := by
  unfold traceAbort
  split
  · exact (OnlyBias.refl s).traceOff.calResult 4
  · exact .refl s

theorem traceRxAbort_only (s : State) : OnlyBias s (traceRxAbort s) := by
  unfold traceRxAbort
  split
  · exact ((((OnlyBias.refl s).stores _ _ _ _ _ _).setFld (by decide) 0).withdraw (.inr rfl)).calResult 4
  · exact .refl s

/-- No trace runs and none waits once both have been cut short (R570). -/
theorem traces_aborted (s : State) :
    (traceAbort (traceRxAbort s)).cal.trace = none ∧ (traceAbort (traceRxAbort s)).cal.rxTrace = none := by
  have hrx : (traceRxAbort s).cal.rxTrace = none := by
    unfold traceRxAbort
    split
    · rfl
    · next h => exact Option.not_isSome_iff_eq_none.mp h
  unfold traceAbort
  split
  · obtain ⟨htrace, hkept⟩ := traceOff_traces (traceRxAbort s)
    exact ⟨htrace, hkept.trans hrx⟩
  · next h => exact ⟨Option.not_isSome_iff_eq_none.mp h, hrx⟩

/-- Calibration's work ends grant by grant, once the traces are cut short; every grant of its steps is among them. -/
theorem calWorkOver_eq (s : State) :
    ∃ L : List Grant, calWorkOver s = L.foldl (fun u g => endGrant (calStop u g.who) g.who) (traceAbort (traceRxAbort s)) ∧
      ∀ item inst, ∀ g ∈ (traceAbort (traceRxAbort s)).sched.grants, g.who = .calib item inst → g ∈ L :=
  ⟨_, rfl, fun _ _ _ hg hw => List.mem_filter.mpr ⟨hg, by simp [hw]⟩⟩

theorem calWorkOver_only (s : State) : OnlyBias s (calWorkOver s) := by
  obtain ⟨L, e, -⟩ := calWorkOver_eq s
  rw [e]
  exact .foldl _ (fun u g hu => (hu.calStop g.who).endGrant g.who) L ((traceRxAbort_only s).trans (traceAbort_only _))

theorem calWorkOver_traces (s : State) : (calWorkOver s).cal.trace = none ∧ (calWorkOver s).cal.rxTrace = none := by
  have hfold : ∀ (L : List Grant) u, TracesKept u (L.foldl (fun u g => endGrant (calStop u g.who) g.who) u) := fun L => by
    induction L with
    | nil => exact fun u => .cal_eq rfl
    | cons g L ih =>
      have hstop : ∀ u, TracesKept u (calStop u g.who) := fun _ => ⟨rfl, rfl⟩
      exact fun u => ((hstop u).trans (endGrant_traces _ _)).trans (ih _)
  obtain ⟨L, e, -⟩ := calWorkOver_eq s
  obtain ⟨htrace, hrx⟩ := traces_aborted s
  obtain ⟨hkept, hkeptRx⟩ := hfold L (traceAbort (traceRxAbort s))
  rw [e]
  exact ⟨hkept.trans htrace, hkeptRx.trans hrx⟩

theorem grantOf_foldl_endGrant (L : List Grant) {u : State} {w : Consumer} (h : grantOf u w = none ∨ ∃ g ∈ L, g.who = w) :
    grantOf (L.foldl (fun u g => endGrant (calStop u g.who) g.who) u) w = none := by
  induction L generalizing u with
  | nil => exact h.elim id fun ⟨g, hg, _⟩ => absurd hg (by simp)
  | cons g L ih =>
    refine ih ?_
    rcases h with h | ⟨x, hx, rfl⟩
    · exact .inl (grantOf_endGrant_none (s := calStop u g.who) h g.who)
    · rcases List.mem_cons.mp hx with rfl | hx
      · exact .inl (grantOf_endGrant_self _ _)
      · exact .inr ⟨x, hx, rfl⟩

/-- No calibration step holds a grant any more. -/
theorem grantOf_calWorkOver (s : State) (item : Fin 8) (inst : Byte) : grantOf (calWorkOver s) (.calib item inst) = none := by
  obtain ⟨L, e, hL⟩ := calWorkOver_eq s
  rw [e]
  refine grantOf_foldl_endGrant L ?_
  by_cases h : grantOf (traceAbort (traceRxAbort s)) (.calib item inst) = none
  · exact .inl h
  · obtain ⟨g, hg⟩ := Option.ne_none_iff_exists'.mp h
    have hwho : g.who = .calib item inst := by
      have := List.find?_some hg
      simp at this
      exact this.1
    exact .inr ⟨g, hL item inst g (List.mem_of_find?_eq_some hg) hwho, hwho⟩

end Sys2Proof.Machine

/-! The accepted commands of `SYS_MODECMD` (R54, R59, R60, R64, R67, R68). -/

namespace Sys2Proof.Machine

/-! ### A change of the mode in force (R64) -/

theorem mode_lt (s : State) : mode s < 8 := Nat.mod_lt _ (by decide)

theorem setMode_only (s : State) (m : Nat) :
    OnlyFlds [Fld.SYS_MODE_PREV, Fld.SYS_MODE_MODE, intBit 5] s (setMode s m) := by
  unfold setMode
  split
  · exact .refl _ s
  · exact (((OnlyFlds.refl _ s).setFld (by decide) _).setFld (by decide) _).setFlag (by decide)

/-- PREV takes the old mode, MODE the new one, and MODECHG is raised (R64, R130). -/
theorem setMode_changes {s : State} {m : Nat} (h : mode s ≠ m) (hm : m < 8) :
    mode (setMode s m) = m ∧ fld (setMode s m) Fld.SYS_MODE_PREV = mode s ∧ flag (setMode s m) (intBit 5) = true := by
  rw [setMode, if_neg h]
  refine ⟨?_, ?_, flag_raise_self _ 5 (by decide)⟩
  · rw [mode, raise, fld_setFlag, fld_setFld_apart _ _ _ _ (by decide), fld_setFld_self _ _ _ (by decide)]
    exact Nat.mod_eq_of_lt hm
  · rw [raise, fld_setFlag, fld_setFld_apart _ _ _ _ (by decide), fld_setFld_apart _ _ _ _ (by decide),
      fld_setFld_self _ _ _ (by decide)]
    exact Nat.mod_eq_of_lt (mode_lt s)

/-! ### Frames of mode commands -/

/-- Nothing but registers, of those only the fields listed, and what is kept about modes changed. -/
structure OnlyModes (l : List Field) (s t : State) : Prop where
  state : t = { s with regs := t.regs, fresh := t.fresh, modes := t.modes }
  kept : FldsKept l s t

namespace OnlyModes

variable {l : List Field} {s t u : State}

theorem flds (h : OnlyFlds l s t) : OnlyModes l s t := ⟨by rw [h.1], h.2⟩

theorem trans (h : OnlyModes l s t) (h' : OnlyModes l t u) : OnlyModes l s u :=
  ⟨by rw [h'.state, h.state], h.kept.trans h'.kept⟩

theorem mono {m : List Field} (h : OnlyModes l s t) (hl : l ⊆ m) : OnlyModes m s t := ⟨h.state, h.kept.mono hl⟩

theorem setModes (l : List Field) (s : State) (m : Modes) : OnlyModes l s { s with modes := m } :=
  ⟨rfl, (FldsKept.refl l s).regs rfl⟩

end OnlyModes

theorem mode_cmdRes (s : State) (r : Nat) : mode (cmdRes s r) = mode s :=
  fld_setFld_apart s _ _ r (by decide)

/-- A command that waits: accepted, in hand, with TRANS set, in the mode as it was (R67, R68). -/
theorem cmdWait_accepted (s : State) (c : ModeCmd) :
    OnlyModes [Fld.SYS_MODE_CMDRES, Fld.SYS_MODE_TRANS] s (cmdWait (cmdRes s 1) c) ∧
      mode (cmdWait (cmdRes s 1) c) = mode s ∧ fld (cmdWait (cmdRes s 1) c) Fld.SYS_MODE_TRANS = 1 ∧
      fld (cmdWait (cmdRes s 1) c) Fld.SYS_MODE_CMDRES = 1 ∧
      (cmdWait (cmdRes s 1) c).modes = { s.modes with cmd := some c, flushed := false } := by
  have honly : OnlyModes [Fld.SYS_MODE_CMDRES, Fld.SYS_MODE_TRANS] s (cmdWait (cmdRes s 1) c) :=
    ((OnlyModes.flds ((cmdRes_only s 1 (by decide)).2.mono (by simp))).trans (.setModes _ _ _)).trans
      (.flds ((OnlyFlds.refl _ _).setFlag (by simp)))
  refine ⟨honly, honly.kept.fld_eq (by unfold Field.apart; decide), ?_, ?_, rfl⟩
  · rw [cmdWait, fld_setFlag, fld_setFld_self _ _ _ (by decide)]
    rfl
  · rw [cmdWait, fld_setFlag, fld_setFld_apart _ _ _ _ (by decide)]
    exact (cmdRes_only s 1 (by decide)).1

/-! ### What waits for the last grant (R59, R60) -/

/-- Nothing happens before the last grant ends. -/
theorem grantsEnded_of_grants {s : State} (h : s.sched.grants ≠ []) : grantsEnded s = s := by
  have hne : s.sched.grants.isEmpty = false := by simpa using h
  have hs : serviceBegin s = s := if_neg (by simp [hne])
  rw [grantsEnded, hs]
  exact if_neg (by simp [hne])

/-- SERVICE begins where no grant is held under ENTER_SERVICE. -/
theorem grantsEnded_service {s : State} (hc : s.modes.cmd = some .enterService) (hg : s.sched.grants = [])
    (hm : mode s = 3 ∨ mode s = 4) :
    grantsEnded s = setMode (clrFld { s with modes := { s.modes with cmd := none } } Fld.SYS_MODE_TRANS) 5 := by
  have hs : serviceBegin s = setMode (clrFld { s with modes := { s.modes with cmd := none } } Fld.SYS_MODE_TRANS) 5 :=
    if_pos ⟨hc, by simp [hg], hm⟩
  have hmodes : (serviceBegin s).modes.cmd = none := by
    rw [hs, (setMode_only _ 5).1]
    rfl
  rw [grantsEnded, backupBegin, if_neg (by simp [hmodes]), hs]

/-! ### The commands -/

section Commands

variable {s : State} {lvl : Level}

theorem cmdAccept_enterBackup (s : State) : cmdAccept s 4 = if mode s = 3 then
    backupFlush (cmdWait (cmdRes s 1) .enterBackup) else grantsEnded (cmdWait (cmdRes s 1) .enterBackup) := by
  rw [cmdAccept, mode_cmdRes]

theorem modeCommand_sleepNow (hs : s.modes.cmd = none) (hm : mode s = 3 ∨ mode s = 4)
    (hf : fld s Fld.SYS_MODECTL_FLOOR ≠ 3) : modeCommand s lvl 0xA55A 1 = cmdWait (cmdRes s 1) .sleepNow :=
  modeCommand_accepted (cmdCheck_passes (.inl rfl) (by decide) (.inl hs) (by simpa [cmdHas] using hm) fun _ => hf)

theorem modeCommand_cancel (hs : s.modes.cmd ≠ none) : modeCommand s lvl 0xA55A 5 = cmdAccept s 5 :=
  modeCommand_accepted (cmdCheck_passes (.inr (.inl rfl)) (by decide) (.inr rfl)
    (by simpa [cmdHas, Option.isSome_iff_ne_none] using hs) (by simp))

theorem modeCommand_enterService (hs : s.modes.cmd = none) (hm : mode s = 3 ∨ mode s = 4) :
    modeCommand s .supervisor 0xA55A 2 = grantsEnded (cmdWait (cmdRes s 1) .enterService) :=
  modeCommand_accepted (cmdCheck_passes (cmdLevel_supervisor 2) (by decide) (.inl hs) (by simpa [cmdHas] using hm) (by simp))

theorem modeCommand_leaveService (hs : s.modes.cmd = none) (hm : mode s = 5) :
    modeCommand s .supervisor 0xA55A 3 = serviceLeave (cmdRes s 1) :=
  modeCommand_accepted (cmdCheck_passes (cmdLevel_supervisor 3) (by decide) (.inl hs) (by simpa [cmdHas] using hm) (by simp))

theorem modeCommand_enterBackup (hs : s.modes.cmd = none) (hm : 3 ≤ mode s) :
    modeCommand s .supervisor 0xA55A 4 = cmdAccept s 4 :=
  modeCommand_accepted (cmdCheck_passes (cmdLevel_supervisor 4) (by decide) (.inl hs) (by simpa [cmdHas] using hm) (by simp))

end Commands

/-! ### Their effects -/

/-- CANCEL drops what is in hand (R68). -/
theorem cancel_accepted (s : State) :
    fld (cmdAccept s 5) Fld.SYS_MODE_CMDRES = 1 ∧ fld (cmdAccept s 5) Fld.SYS_MODE_TRANS = 0 ∧
      FldsKept [Fld.SYS_MODE_CMDRES, Fld.SYS_MODE_TRANS] s (cmdAccept s 5) := by
  obtain ⟨hres, hkept⟩ := cmdRes_only s 1 (by decide)
  have hregs : (cmdAccept s 5).regs = (clrFld (cmdRes s 1) Fld.SYS_MODE_TRANS).regs := rfl
  refine ⟨?_, ?_, ?_⟩
  · rw [fld_congr hregs, clrFld, fld_setFld_apart _ _ _ _ (by decide), hres]
  · rw [fld_congr hregs, fld_clrFld_self _ _ (by decide)]
  · exact ((hkept.2.mono (by simp)).setFld (f := Fld.SYS_MODE_TRANS) (by simp) 0).regs hregs

/-- What the registers show of LEAVE_SERVICE: ACTIVE after SERVICE, RF bias off, both paths OFF (R54, R64). -/
theorem serviceLeave_flds {s : State} (hm : mode s = 5) :
    mode (serviceLeave s) = 3 ∧ fld (serviceLeave s) Fld.SYS_MODE_PREV = 5 ∧ flag (serviceLeave s) (intBit 5) = true ∧
      fld (serviceLeave s) Fld.SYS_CLKSTAT_RFBIAS = 0 ∧ pathState (serviceLeave s) .a = 0 ∧
      pathState (serviceLeave s) .b = 0 ∧ fld (serviceLeave s) Fld.SYS_MODE_CMDRES = fld s Fld.SYS_MODE_CMDRES := by
  obtain ⟨hbias, ha, hb⟩ := biasOff_off (calWorkOver s)
  have honly := (calWorkOver_only s).trans (biasOff_only _)
  have hregs : (serviceLeave s).regs = (setMode (biasOff (calWorkOver s)) 3).regs := rfl
  rw [mode, pathState, pathState, flag]
  simp only [fld_congr hregs]
  generalize biasOff (calWorkOver s) = u at *
  have hmode : mode u = 5 := honly.mode_eq.trans hm
  obtain ⟨hnew, hprev, hint⟩ := setMode_changes (s := u) (m := 3) (by omega) (by decide)
  have hkept := (setMode_only u 3).2
  exact ⟨hnew, hprev.trans hmode, hint, (hkept.fld_eq (by unfold Field.apart; decide)).trans hbias,
    (hkept.fld_eq (by unfold Field.apart; decide)).trans ha, (hkept.fld_eq (by unfold Field.apart; decide)).trans hb,
    (hkept.fld_eq (by unfold Field.apart; decide)).trans (honly.kept.fld_eq (by unfold Field.apart; decide))⟩

/-- What LEAVE_SERVICE ends: the traces and the grants of calibration; memory and timers go on (R47, R59). -/
theorem serviceLeave_stores (s : State) :
    (serviceLeave s).cal.trace = none ∧ (serviceLeave s).cal.rxTrace = none ∧ (serviceLeave s).sched.point = true ∧
      (∀ item inst, grantOf (serviceLeave s) (.calib item inst) = none) ∧ (serviceLeave s).mem = s.mem ∧
      (serviceLeave s).tmr = s.tmr := by
  obtain ⟨htrace, hrx⟩ := calWorkOver_traces s
  obtain ⟨hkept, hkeptRx⟩ := biasOff_traces (calWorkOver s)
  have hsched := biasOff_sched (calWorkOver s)
  have honly := ((calWorkOver_only s).trans (biasOff_only _)).state
  rw [serviceLeave, grantPoint, (setMode_only (biasOff (calWorkOver s)) 3).1]
  generalize biasOff (calWorkOver s) = u at *
  refine ⟨hkept.trans htrace, hkeptRx.trans hrx, rfl, fun item inst => ?_, by rw [honly], by rw [honly]⟩
  rw [grantOf, hsched]
  exact grantOf_calWorkOver s item inst

/-- SERVICE begins at once where no grant is held under ENTER_SERVICE (R59). -/
theorem grantsEnded_begins {w : State} (hc : w.modes.cmd = some .enterService) (hg : w.sched.grants = [])
    (hm : mode w = 3 ∨ mode w = 4) :
    mode (grantsEnded w) = 5 ∧ fld (grantsEnded w) Fld.SYS_MODE_PREV = mode w ∧
      fld (grantsEnded w) Fld.SYS_MODE_TRANS = 0 ∧ (grantsEnded w).modes.cmd = none ∧
      flag (grantsEnded w) (intBit 5) = true ∧
      OnlyModes [Fld.SYS_MODE_TRANS, Fld.SYS_MODE_PREV, Fld.SYS_MODE_MODE, intBit 5] w (grantsEnded w) := by
  rw [grantsEnded_service hc hg hm]
  have hclear : OnlyModes [Fld.SYS_MODE_TRANS] w
      (clrFld { w with modes := { w.modes with cmd := none } } Fld.SYS_MODE_TRANS) :=
    (OnlyModes.setModes _ w _).trans (.flds ((OnlyFlds.refl _ _).setFld (by simp) 0))
  have htrans := fld_clrFld_self { w with modes := { w.modes with cmd := none } } Fld.SYS_MODE_TRANS (by decide)
  have hcmd : (clrFld { w with modes := { w.modes with cmd := none } } Fld.SYS_MODE_TRANS).modes.cmd = none := rfl
  generalize clrFld { w with modes := { w.modes with cmd := none } } Fld.SYS_MODE_TRANS = u at *
  have hmode : mode u = mode w := hclear.kept.fld_eq (by unfold Field.apart; decide)
  obtain ⟨hnew, hprev, hint⟩ := setMode_changes (s := u) (m := 5) (by omega) (by decide)
  have hset := setMode_only u 5
  exact ⟨hnew, hprev.trans hmode, (hset.2.fld_eq (by unfold Field.apart; decide)).trans htrans, by rw [hset.1, hcmd], hint,
    (hclear.mono (by simp)).trans ((OnlyModes.flds hset).mono (by simp))⟩

/-- The flush of ENTER_BACKUP moves neither the mode nor the command in hand (R60). -/
theorem enterBackup_flushes (s : State) {t : State} (ht : t = backupFlush (cmdWait (cmdRes s 1) .enterBackup)) :
    mode t = mode s ∧ fld t Fld.SYS_MODE_TRANS = 1 ∧ fld t Fld.SYS_MODE_CMDRES = 1 ∧ t.modes.cmd = some .enterBackup ∧
      t.mem = s.mem ∧ t.tmr = s.tmr := by
  obtain ⟨hwait, hmode, htrans, hres, hmodes⟩ := cmdWait_accepted s .enterBackup
  have hj : OnlyJournal (cmdWait (cmdRes s 1) .enterBackup) t := by
    rw [ht]
    exact (OnlyJournal.refl _).backupFlush
  refine ⟨?_, ?_, ?_, ?_, ?_, ?_⟩
  · rw [← hmode]
    exact hj.kept.fld_eq (by unfold Field.apart; decide)
  · rw [hj.kept.fld_eq (by unfold Field.apart; decide), htrans]
  · rw [hj.kept.fld_eq (by unfold Field.apart; decide), hres]
  · rw [hj.state, hmodes]
  · rw [hj.state, hwait.state]
  · rw [hj.state, hwait.state]

/-- Settles O13: the next state of each accepted command, and what that state holds. -/
theorem modeCommandsTakeEffect : Obligations.ModeCommandsTakeEffect := by
  unfold Obligations.ModeCommandsTakeEffect
  rintro s lvl key rfl hp
  obtain ⟨sleep, enter, leave, backup, cancel⟩ := exec_modeCommands hp 0xA55A
  have enterOf : lvl = .supervisor → s.modes.cmd = none → mode s = 3 ∨ mode s = 4 →
      exec (.enterService lvl 0xA55A) s = .next (grantsEnded (cmdWait (cmdRes s 1) .enterService)) := by
    rintro rfl hs hm
    rw [enter, modeCommand_enterService hs hm]
  have backupOf : lvl = .supervisor → s.modes.cmd = none → 3 ≤ mode s →
      exec (.enterBackup lvl 0xA55A) s = .next (cmdAccept s 4) := by
    rintro rfl hs hm
    rw [backup, modeCommand_enterBackup hs hm]
  have leaveOf : lvl = .supervisor → s.modes.cmd = none → mode s = 5 →
      exec (.leaveService lvl 0xA55A) s = .next (serviceLeave (cmdRes s 1)) := by
    rintro rfl hs hm
    rw [leave, modeCommand_leaveService hs hm]
  have grants : ∀ c, (cmdWait (cmdRes s 1) c).sched = s.sched := fun c => by rw [(cmdWait_accepted s c).1.state]
  refine ⟨fun hs hm hf => ?_, fun hs => ?_, leaveOf, enterOf, fun hl hs hm => ?_, fun hs hm hf => ?_, fun hs => ?_,
    fun hl hs => ⟨fun hm => ?_, fun hm hg => ?_, fun hm hg => ?_, fun hm hg => ?_, fun hm => ?_⟩⟩
  · rw [sleep, modeCommand_sleepNow hs hm hf]
    rfl
  · rw [cancel, modeCommand_cancel hs]
    rfl
  · rw [backupOf hl hs hm, cmdAccept_enterBackup]
    rfl
  · obtain ⟨hwait, -, htrans, hres, hmodes⟩ := cmdWait_accepted s .sleepNow
    exact ⟨_, by rw [sleep, modeCommand_sleepNow hs hm hf], hres, htrans, hmodes, hwait.kept, hwait.state⟩
  · obtain ⟨hres, htrans, hkept⟩ := cancel_accepted s
    exact ⟨_, by rw [cancel, modeCommand_cancel hs], hres, htrans, rfl, rfl, hkept, rfl⟩
  · obtain ⟨hmode, hprev, hint, hbias, ha, hb, hres⟩ := serviceLeave_flds ((mode_cmdRes s 1).trans hm)
    exact ⟨_, leaveOf hl hs hm, hmode, hprev, hres.trans (cmdRes_only s 1 (by decide)).1, hint, hbias, ha, hb,
      serviceLeave_stores _⟩
  · obtain ⟨hwait, hmode, htrans, hres, hmodes⟩ := cmdWait_accepted s .enterService
    exact ⟨_, by rw [enterOf hl hs hm, grantsEnded_of_grants (by rw [grants]; exact hg)], hmode, htrans, hres, hmodes,
      hwait.kept, hwait.state⟩
  · obtain ⟨hwait, hmode, -, hres, hmodes⟩ := cmdWait_accepted s .enterService
    obtain ⟨hnew, hprev, htrans, hcmd, hint, honly⟩ := grantsEnded_begins (by rw [hmodes]) (by rw [grants]; exact hg)
      (by rw [hmode]; exact hm)
    have hboth := (hwait.mono (m := [Fld.SYS_MODE_CMDRES, Fld.SYS_MODE_TRANS, Fld.SYS_MODE_PREV, Fld.SYS_MODE_MODE,
      intBit 5]) (by simp)).trans (honly.mono (by simp))
    exact ⟨_, enterOf hl hs hm, hnew, hprev.trans hmode, htrans,
      (honly.kept.fld_eq (by unfold Field.apart; decide)).trans hres, hcmd, hint, hboth.kept, hboth.state⟩
  · obtain ⟨hwait, hmode, htrans, hres, hmodes⟩ := cmdWait_accepted s .enterBackup
    exact ⟨_, by rw [backupOf hl hs (by omega), cmdAccept_enterBackup, if_neg (by omega),
      grantsEnded_of_grants (by rw [grants]; exact hg)], hmode, htrans, hres, hmodes, hwait.kept, hwait.state⟩
  · obtain ⟨hmode, hrest⟩ := enterBackup_flushes s rfl
    exact ⟨_, by rw [backupOf hl hs (by omega), cmdAccept_enterBackup, if_pos hm], hmode.trans hm, hrest⟩

end Sys2Proof.Machine

/-! RF bias settles while a trace holds path A (R182, R570). -/

namespace Sys2Proof.Machine

/-- RF bias is about to settle; the trace of port 0 at power index 4 and channel 0 holds path A. -/
def biasRisingForTrace : State :=
  { clk := { biasRising := true }, cal := { trace := some (0, 4, 0) },
    sched := { grants := [{ who := .calTrace, cls := .c3, mask := 2, kind := .trace 60000 }] } }

/-- The trace radiates as soon as bias has settled: the flag of path A's carrier rises with it. -/
theorem fld_carrier_biasSettled : fld (biasSettled biasRisingForTrace) Fld.RAD_STATE_ACARR = 1 ∧
    fld biasRisingForTrace Fld.RAD_STATE_ACARR = 0 := by
  constructor <;> decide +kernel

/-- Refutes O14: a trace holds path A when RF bias settles, so that its carrier comes on in the same step; the carrier's flag is
not among the fields that RF_BIAS_SETTLED is said to move. -/
theorem not_sleepWakeAndClocks : ¬ Obligations.SleepWakeAndClocks := by
  unfold Obligations.SleepWakeAndClocks
  rintro ⟨-, -, hclocks⟩
  obtain ⟨hbias, -⟩ := hclocks biasRisingForTrace .firmware 0
  obtain ⟨t, ht, -, -, -, -, hkept, -⟩ := hbias rfl
  have e : t = biasSettled biasRisingForTrace := (Host.Outcome.next.inj ht).symm
  obtain ⟨hon, hoff⟩ := fld_carrier_biasSettled
  have hsame : fld t Fld.RAD_STATE_ACARR = fld biasRisingForTrace Fld.RAD_STATE_ACARR :=
    hkept.fld_eq (by unfold Field.apart; decide)
  rw [e, hon, hoff] at hsame
  exact absurd hsame (by decide)

end Sys2Proof.Machine

/-! Admission to the report FIFOs and the handover of banks (R485–R504). -/

namespace Sys2Proof.Machine

/-! ### Channels -/

theorem chan_congr {s t : State} (h : t.fifo = s.fifo) (n : Nat) : chan t n = chan s n := by rw [chan, h, chan]

theorem chan_setChan_self (s : State) {n : Nat} (hn : n < 9) (c : Chan) : chan (setChan s n c) n = c := by
  simp [chan, setChan, hn]

theorem chan_setChan_ne (s : State) {n m : Nat} (h : m ≠ n) (c : Chan) : chan (setChan s n c) m = chan s m := by
  simp [chan, setChan, Vector.getElem?_setIfInBounds_ne (Ne.symm h)]

@[simp] theorem raiseAvail_fifo (s : State) (n : Nat) : (raiseAvail s n).fifo = s.fifo := by
  unfold raiseAvail
  split
  · rfl
  · rfl

/-- The handover interrupt of a channel is its own alone; the journal's has none (R490). -/
theorem raiseAvail_only (s : State) (n : Nat) : OnlyFifo (if n < 8 then [intBit (8 + n)] else []) s (raiseAvail s n) := by
  unfold raiseAvail
  split
  · exact (OnlyFifo.refl _ s).setFlag (List.mem_singleton_self _)
  · exact .refl _ s

theorem flag_raiseAvail (s : State) {n : Nat} (h : n < 8) : flag (raiseAvail s n) (intBit (8 + n)) = true := by
  rw [raiseAvail, if_pos h]
  exact flag_raise_self s _ (by omega)

theorem setChan_only (s : State) (n : Nat) (c : Chan) (l : List Field) : OnlyFifo l s (setChan s n c) :=
  (OnlyFifo.refl l s).setChan n c

/-- A channel replaced with its handover interrupt leaves the others (R490). -/
theorem chan_raiseAvail_setChan (s : State) {n : Nat} (hn : n < 9) (c : Chan) :
    chan (raiseAvail (setChan s n c) n) n = c ∧ ∀ m : Nat, m ≠ n → chan (raiseAvail (setChan s n c) n) m = chan s m :=
  ⟨(chan_congr (raiseAvail_fifo _ n) n).trans (chan_setChan_self s hn c), fun m hm =>
    (chan_congr (raiseAvail_fifo _ n) m).trans (chan_setChan_ne s hm c)⟩

theorem raiseAvail_setChan_only (s : State) (n : Nat) (c : Chan) :
    OnlyFifo (if n < 8 then [intBit (8 + n)] else []) s (raiseAvail (setChan s n c) n) :=
  have h := raiseAvail_only (setChan s n c) n
  have h0 := setChan_only s n c (if n < 8 then [intBit (8 + n)] else [])
  ⟨by rw [h.1, h0.1], h0.2.trans h.2⟩

/-! ### Writing what fits (R491, R493, R496) -/

/-- Units that fit go behind what the channel holds, over the handover of a full write bank too: the read bank that it takes has been
released. -/
theorem chanWrite_holds {now : Nat} {c : Chan} {us : List FUnit} (hne : us ≠ []) (hfit : us.length ≤ chanFree now c) :
    (chanWrite now c us).1.rd ++ (chanWrite now c us).1.wr = c.rd ++ c.wr ++ us ∧ (chanWrite now c us).1.gap = c.gap := by
  have hpos := List.length_pos_iff.mpr hne
  unfold chanWrite
  dsimp only
  split
  · exact ⟨(List.append_assoc _ _ _).symm, rfl⟩
  · next h256 =>
    have hrel : seesReleased now c = true := by
      by_contra hrel
      rw [chanFree, if_neg hrel] at hfit
      rw [List.length_append] at h256
      omega
    have hrd : c.rd = [] := by
      rw [seesReleased, Bool.and_eq_true] at hrel
      exact List.isEmpty_iff.mp hrel.1
    exact ⟨by simp [chanSwap, hrd], rfl⟩

/-- The GAP word that a channel owes (R497). -/
def gapUnits (c : Chan) : List FUnit := if c.gap = 0 then [] else [unitOf 0xE (BitVec.ofNat 32 c.gap)]

theorem length_gapUnits (c : Chan) : (gapUnits c).length = if c.gap = 0 then 0 else 1 := by
  unfold gapUnits
  split
  · rfl
  · rfl

/-- A packet that fits is written behind the GAP word owed, with a handover or without (R491, R496). -/
theorem admitPacket_fits {s : State} {n : Nat} {ws : List Word} (hne : ws ≠ [])
    (hfit : ws.length + (if (chan s n).gap = 0 then 0 else 1) ≤ chanFree s.clk.now (chan s n)) :
    ∃ c : Chan, (admitPacket s n ws = setChan s n c ∨ admitPacket s n ws = raiseAvail (setChan s n c) n) ∧
      c.rd ++ c.wr = (chan s n).rd ++ (chan s n).wr ++ gapUnits (chan s n) ++ packetUnits ws ∧ c.gap = 0 := by
  rw [← length_gapUnits] at hfit
  have hunits : gapUnits (chan s n) ++ packetUnits ws ≠ [] := by
    rw [← List.length_pos_iff, List.length_append, length_packetUnits]
    have := List.length_pos_iff.mpr hne
    omega
  obtain ⟨r, hr⟩ : ∃ r, r = chanWrite s.clk.now { chan s n with gap := 0 } (gapUnits (chan s n) ++ packetUnits ws) :=
    ⟨_, rfl⟩
  have hadmit : admitPacket s n ws = if r.2 then raiseAvail (setChan s n r.1) n else setChan s n r.1 := by
    rw [hr]
    exact if_pos hfit
  obtain ⟨hholds, hgap⟩ := chanWrite_holds (now := s.clk.now) (c := { chan s n with gap := 0 }) hunits (by
    rw [List.length_append, length_packetUnits, Nat.add_comm]
    exact hfit)
  rw [← hr] at hholds hgap
  refine ⟨r.1, ?_, ?_, hgap⟩
  · rw [hadmit]
    split
    · exact .inr rfl
    · exact .inl rfl
  · rw [hholds, List.append_assoc _ (gapUnits _)]

theorem admitPacket_drops {s : State} {n : Nat} {ws : List Word}
    (h : chanFree s.clk.now (chan s n) < ws.length + (if (chan s n).gap = 0 then 0 else 1)) :
    admitPacket s n ws = dropPacket s n := by
  rw [← length_gapUnits] at h
  exact if_neg (Nat.not_le.mpr h)

/-! ### A dropped packet (R497) -/

theorem intBit_addr (k : Nat) : (intBit k).addr = Adr.HSP_INT0 ∨ (intBit k).addr = Adr.HSP_INT1 := by
  unfold intBit
  split
  · exact .inl rfl
  · exact .inr rfl

theorem dropPacket_spec (s : State) {n : Nat} (hn : n < 9) :
    chan (dropPacket s n) n = { chan s n with gap := min 0xFFFF ((chan s n).gap + 1) } ∧
      (∀ m : Nat, m ≠ n → chan (dropPacket s n) m = chan s m) ∧
      fld (dropPacket s n) (Fld.FIFO_CH_CNT_DROP n) = min 0xFFFF (fld s (Fld.FIFO_CH_CNT_DROP n) + 1) ∧
      (n < 8 → flag (dropPacket s n) (intBit (24 + n)) = true) ∧
      OnlyFifo (Fld.FIFO_CH_CNT_DROP n :: if n < 8 then [intBit (24 + n)] else []) s (dropPacket s n) := by
  obtain ⟨c, hc⟩ : ∃ c, c = { chan s n with gap := satAdd 0xFFFF (chan s n).gap 1 } := ⟨_, rfl⟩
  obtain ⟨u, hu⟩ : ∃ u, u = incSat (setChan s n c) (Fld.FIFO_CH_CNT_DROP n) 1 := ⟨_, rfl⟩
  have hdrop : dropPacket s n = if n < 8 then raise u (24 + n) else u := by
    rw [hu, hc]
    rfl
  have hfifo : (dropPacket s n).fifo = (setChan s n c).fifo := by
    rw [hdrop, hu]
    split
    · rfl
    · rfl
  have hcount : fld u (Fld.FIFO_CH_CNT_DROP n) = min 0xFFFF (fld s (Fld.FIFO_CH_CNT_DROP n) + 1) := by
    rw [hu]
    exact fld_incSat_self (setChan s n c) (Fld.FIFO_CH_CNT_DROP n) 1 (by simp [Fld.FIFO_CH_CNT_DROP])
  refine ⟨?_, fun m hm => (chan_congr hfifo m).trans (chan_setChan_ne s hm c), ?_, fun h8 => ?_, ?_⟩
  · rw [chan_congr hfifo, chan_setChan_self s hn, hc, satAdd_eq_min]
  · rw [hdrop, ← hcount]
    split
    · refine fld_setFld_ne u _ (Fld.FIFO_CH_CNT_DROP n) 1 ?_
      rcases intBit_addr (24 + n) with e | e <;> rw [e] <;>
        simp only [Fld.FIFO_CH_CNT_DROP, Adr.FIFO_CH_CNT, Adr.HSP_INT0, Adr.HSP_INT1] <;> omega
    · rfl
  · rw [hdrop, if_pos h8]
    exact flag_raise_self u _ (by omega)
  · exact (OnlyFifo.refl _ s).dropPacket List.mem_cons_self fun h8 =>
      List.mem_cons_of_mem _ (by rw [if_pos h8]; exact List.mem_singleton_self _)

/-! ### Automatic reports of packets (R441) -/

namespace OnlyReports

variable {l : List Field} {s t : State}

theorem autoTrf (h : OnlyReports l s t) (hl : packetFlds ⊆ l) (ws : List Word) : OnlyReports l s (autoTrf t ws) := by
  unfold Machine.autoTrf autoReport queueFrame
  split
  · split
    · exact (h.admitPacket hl (by decide) _).setFlag (hl intBit_txDone_mem_packetFlds)
    · exact h.setLnk _
  · exact h

theorem autoOf (h : OnlyReports l s t) (hl : packetFlds ⊆ l) (n : Nat) (ws : List Word) : OnlyReports l s (autoOf t n ws) := by
  unfold Machine.autoOf
  split
  · exact h.autoTrf hl ws
  · split
    · exact h.autoFlt hl ws
    · exact h

end OnlyReports

/-- Without AUTOTRF and AUTOFLT a packet makes no report of its own (R441). -/
theorem autoOf_off {t : State} {n : Nat} (h1 : n = 1 → fld t Fld.LNK_DATA_AUTOTRF = 0)
    (h7 : n = 7 → fld t Fld.LNK_DATA_AUTOFLT = 0) (ws : List Word) : autoOf t n ws = t := by
  unfold autoOf autoTrf autoFlt flag
  split
  · next hn => exact if_neg (by simp [h1 hn])
  · split
    · next hn => exact if_neg (by simp [h7 hn])
    · rfl

/-! ### PACKET_ADMIT (R485, R486, R496, R497) -/

theorem exec_packetAdmit (n : Fin 9) {ws : List Word} (h : ws ≠ []) (s : State) :
    exec (.packetAdmit n ws) s = .next (autoOf (admitCut s n (payloadOf n ws) ws) n ws) := by
  have hne : ws.isEmpty = false := by simpa using h
  exact congrArg Host.Outcome.next (if_neg (by simp [hne]))

/-- A packet of at most 256 words on a channel without automatic reports is admitted, and nothing more. -/
theorem exec_packetAdmit_short {s : State} {n : Fin 9} {ws : List Word} (h : ws ≠ []) (hl : ws.length ≤ 256)
    (h1 : n = 1 → fld s Fld.LNK_DATA_AUTOTRF = 0) (h7 : n = 7 → fld s Fld.LNK_DATA_AUTOFLT = 0) :
    exec (.packetAdmit n ws) s = .next (admitPacket s n ws) := by
  have hkept := ((OnlyFifo.refl packetFlds s).admitPacket (List.Subset.refl _) n.isLt ws).2
  have hcut : admitCut s n (payloadOf n ws) ws = admitPacket s n ws := if_pos hl
  rw [exec_packetAdmit n h, hcut, autoOf_off]
  · intro hn
    rw [hkept.fld_eq (apart_packetFlds (by decide) (by decide) (by decide)), h1 (Fin.ext hn)]
  · intro hn
    rw [hkept.fld_eq (apart_packetFlds (by decide) (by decide) (by decide)), h7 (Fin.ext hn)]

/-- A packet of more than 256 words is cut and counted (R486). -/
theorem packetAdmit_cut (s : State) (n : Fin 9) {ws : List Word} (h : 256 < ws.length) :
    ∃ t, exec (.packetAdmit n ws) s = .next t ∧
      fld t (Fld.FIFO_CH_ERR_TRUNC n) = min 0xFFFF (fld s (Fld.FIFO_CH_ERR_TRUNC n) + 1) ∧
      OnlyReports (Fld.FIFO_CH_ERR_TRUNC n :: packetFlds) s t := by
  have hne : ws ≠ [] := by
    rintro rfl
    exact absurd h (by decide)
  obtain ⟨u, hu⟩ : ∃ u, u = incSat (admitPacket s n (cutWords n ws)) (Fld.FIFO_CH_ERR_TRUNC n) 1 := ⟨_, rfl⟩
  obtain ⟨t, ht⟩ : ∃ t, t = autoOf (admitCut s n (payloadOf n ws) ws) n ws := ⟨_, rfl⟩
  have hcut : admitCut s n (payloadOf n ws) ws =
      fault u 0x04 0 0x11 (BitVec.ofNat 8 n :: leBytes 2 (payloadOf n ws)) := by
    rw [hu]
    exact if_neg (Nat.not_le.mpr h)
  have hsub : packetFlds ⊆ Fld.FIFO_CH_ERR_TRUNC n :: packetFlds := List.subset_cons_self _ _
  have hapart : ∀ g ∈ packetFlds, (Fld.FIFO_CH_ERR_TRUNC n).apart g :=
    apart_packetFlds (by simp only [Fld.FIFO_CH_ERR_TRUNC, Adr.FIFO_CH_ERR, Adr.HSP_INT0]; omega)
      (by simp only [Fld.FIFO_CH_ERR_TRUNC, Adr.FIFO_CH_ERR, Adr.HSP_INT1]; omega)
      (fun m hm => by simp only [Fld.FIFO_CH_ERR_TRUNC, Adr.FIFO_CH_ERR, Fld.FIFO_CH_CNT_DROP, Adr.FIFO_CH_CNT]; omega)
  have hreports : OnlyReports packetFlds u t := by
    rw [ht, hcut]
    exact ((OnlyReports.refl _ u).fault (List.Subset.refl _) _ _ _ _).autoOf (List.Subset.refl _) n ws
  have hadmit := (OnlyFifo.refl packetFlds s).admitPacket (List.Subset.refl _) n.isLt (cutWords n ws)
  have hcount : OnlyReports (Fld.FIFO_CH_ERR_TRUNC n :: packetFlds) s u := by
    rw [hu]
    exact ((OnlyReports.refl _ s).fifo (hadmit.mono hsub)).setFld List.mem_cons_self _
  refine ⟨t, (exec_packetAdmit n hne s).trans (by rw [ht]), ?_, ?_⟩
  · rw [hreports.2.fld_eq hapart, hu, fld_incSat_self _ (Fld.FIFO_CH_ERR_TRUNC n) 1 (by simp [Fld.FIFO_CH_ERR_TRUNC]),
      hadmit.2.fld_eq hapart]
    rfl
  · exact ⟨by rw [hreports.1, hcount.1], hcount.2.trans (hreports.2.mono hsub)⟩

/-! ### BANK_HANDOVER and STALE_TIMEOUT (R490, R493, R504) -/

theorem exec_bankHandover (n : Fin 9) (s : State) : exec (.bankHandover n) s = .next (g3Wake (handover s n)) := rfl

theorem handover_due {s : State} {n : Nat} (h : handoverDue s n = true) :
    handover s n = raiseAvail (setChan s n (chanSwap s.clk.now (chan s n))) n := if_pos h

theorem handover_not_due {s : State} {n : Nat} (h : handoverDue s n = false) : handover s n = s := if_neg (by simp [h])

/-- At a handover the producer sees the read bank as released, two cycles after its release (R493). -/
theorem released_of_handoverDue {s : State} {n x : Nat} (h : handoverDue s n = true) (hx : (chan s n).relAt = some x) :
    x + 2 ≤ s.clk.now := by
  simp only [handoverDue, seesReleased, crossed, hx, Bool.and_eq_true, Option.elim_some, decide_eq_true_eq] at h
  exact h.1.1.2

theorem exec_staleTimeout (n : Fin 8) (s : State) :
    exec (.staleTimeout n) s = .next (if ((chan s n).wr.isEmpty && (chan s n).rd.isEmpty) || !clk100 s then s
      else raise (setFlag (setChan s n { chan s n with staleDue := true }) (Fld.FIFO_CH_STAT_STALE n)) (16 + n)) := rfl

theorem staleTimeout_expires {s : State} {n : Fin 8} (h : (chan s n).rd ≠ [] ∨ (chan s n).wr ≠ []) (hc : clk100 s = true) :
    exec (.staleTimeout n) s = .next
      (raise (setFlag (setChan s n { chan s n with staleDue := true }) (Fld.FIFO_CH_STAT_STALE n)) (16 + n)) := by
  rw [exec_staleTimeout, if_neg]
  rcases h with h | h <;> simp [h, hc]

theorem staleTimeout_holds {s : State} {n : Fin 8} (h : ((chan s n).rd = [] ∧ (chan s n).wr = []) ∨ clk100 s = false) :
    exec (.staleTimeout n) s = .next s := by
  rw [exec_staleTimeout, if_pos]
  rcases h with ⟨hr, hw⟩ | h
  · simp [hr, hw]
  · simp [h]

/-- STALE and its interrupt are set, and the channel's stale timer has expired (R504). -/
theorem stale_spec (s : State) (n : Fin 8) {t : State}
    (ht : t = raise (setFlag (setChan s n { chan s n with staleDue := true }) (Fld.FIFO_CH_STAT_STALE n)) (16 + n)) :
    chan t n = { chan s n with staleDue := true } ∧ flag t (Fld.FIFO_CH_STAT_STALE n) = true ∧
      flag t (intBit (16 + n)) = true ∧ (∀ m : Nat, m ≠ n → chan t m = chan s m) ∧
      OnlyFifo [Fld.FIFO_CH_STAT_STALE n, intBit (16 + n)] s t := by
  have hfifo : t.fifo = (setChan s n { chan s n with staleDue := true }).fifo := by rw [ht]; rfl
  refine ⟨(chan_congr hfifo _).trans (chan_setChan_self s (by omega) _), ?_, ?_,
    fun m hm => (chan_congr hfifo m).trans (chan_setChan_ne s hm _), ?_⟩
  · rw [ht, raise, flag, fld_setFlag, fld_setFld_ne]
    · exact flag_setFlag_self _ (Fld.FIFO_CH_STAT_STALE n) (by simp [Fld.FIFO_CH_STAT_STALE]) rfl
    · rcases intBit_addr (16 + n) with e | e <;> rw [e] <;>
        simp only [Fld.FIFO_CH_STAT_STALE, Adr.FIFO_CH_STAT, Adr.HSP_INT0, Adr.HSP_INT1] <;> omega
  · rw [ht]
    exact flag_raise_self _ _ (by omega)
  · rw [ht]
    exact ((setChan_only s n _ _).setFlag (by simp)).setFlag (by simp)

/-- Settles O25: a packet that fits is written behind the GAP word owed, another is dropped or cut, and a bank is handed over where R490
says so. -/
theorem packetsEnterTheChannels : Obligations.PacketsEnterTheChannels := by
  unfold Obligations.PacketsEnterTheChannels
  refine ⟨fun s n ws => ⟨rfl, fun hne hl h1 h7 => ?fits, fun h => ?cut⟩, fun s n h => ?banks⟩
  case fits =>
    have hexec := exec_packetAdmit_short hne hl h1 h7
    refine ⟨fun hfit => ?fits, fun hfull => ?drops⟩
    case fits =>
      obtain ⟨c, hc, hholds, hgap⟩ := admitPacket_fits hne hfit
      rcases hc with hc | hc
      · have honly := setChan_only s n c (if n.val < 8 then [intBit (8 + n)] else [])
        refine ⟨_, hexec.trans (congrArg Host.Outcome.next hc), ?_, ?_, fun m hm => chan_setChan_ne s hm c, honly.2, honly.1⟩
        · rw [chan_setChan_self s n.isLt]
          exact hholds
        · rw [chan_setChan_self s n.isLt, hgap]
      · obtain ⟨hself, hother⟩ := chan_raiseAvail_setChan s n.isLt c
        have honly := raiseAvail_setChan_only s n c
        refine ⟨_, hexec.trans (congrArg Host.Outcome.next hc), ?_, ?_, hother, honly.2, honly.1⟩
        · rw [hself]
          exact hholds
        · rw [hself, hgap]
    case drops =>
      obtain ⟨hself, hother, hcount, hint, honly⟩ := dropPacket_spec s n.isLt
      exact ⟨_, hexec.trans (congrArg Host.Outcome.next (admitPacket_drops hfull)), hself, hother, hcount, hint, honly.2,
        honly.1⟩
  case cut =>
    obtain ⟨t, ht, hcount, honly⟩ := packetAdmit_cut s n h
    exact ⟨t, ht, hcount, honly.2, honly.1⟩
  case banks =>
    refine ⟨fun hdue => ?_, g3Wake_of_not_waiting s, fun x => released_of_handoverDue, fun hdue => ?_, fun hu hc => ?_,
      staleTimeout_holds⟩
    · obtain ⟨hself, hother⟩ := chan_raiseAvail_setChan s n.isLt (chanSwap s.clk.now (chan s n))
      have honly := raiseAvail_setChan_only s n (chanSwap s.clk.now (chan s n))
      exact ⟨_, (exec_bankHandover n s).trans (by rw [handover_due hdue]), congrArg Chan.rd hself, congrArg Chan.wr hself,
        congrArg Chan.rdBank hself, congrArg Chan.rdUsed hself, congrArg Chan.wseq hself, congrArg Chan.handedAt hself,
        (congrArg Chan.rseq hself :), hother, flag_raiseAvail _, honly.2, honly.1⟩
    · rw [exec_bankHandover, handover_not_due hdue]
    · obtain ⟨hself, hstale, hint, hother, honly⟩ := stale_spec s h rfl
      exact ⟨_, staleTimeout_expires hu hc, hself, hstale, hint, hother, honly.2, honly.1⟩

end Sys2Proof.Machine

/-! Start-up (R74–R100): the register of the level of privilege stays as steps 7 and 8 run. -/

namespace Sys2Proof.Machine

/-! ### What keeps the level of privilege (R134) -/

/-- The register of the level of privilege reads as before. -/
def LevelKept (s t : State) : Prop := reg t Adr.PROT_LEVEL = reg s Adr.PROT_LEVEL

namespace LevelKept

variable {s t u : State}

theorem refl (s : State) : LevelKept s s := rfl

theorem trans (h : LevelKept s t) (h' : LevelKept t u) : LevelKept s u := Eq.trans h' h

/-- An update of anything but registers. -/
theorem same (h : LevelKept s t) (hr : u.regs = t.regs) : LevelKept s u := by
  rw [LevelKept, ← h, reg, reg, hr]

theorem setLnk (h : LevelKept s t) (x : Lnk) : LevelKept s { t with lnk := x } := h

theorem setJnl (h : LevelKept s t) (x : Journal) : LevelKept s { t with jnl := x } := h

theorem setSched (h : LevelKept s t) (x : Sched) : LevelKept s { t with sched := x } := h

theorem setCal (h : LevelKept s t) (x : Cal) : LevelKept s { t with cal := x } := h

theorem flds (h : LevelKept s t) {l : List Field} (hu : FldsKept l t u) (hl : ∀ g ∈ l, Adr.PROT_LEVEL ≠ g.addr) :
    LevelKept s u := h.trans (hu.reg_eq hl)

theorem setReg (h : LevelKept s t) {a : Nat} (ha : Adr.PROT_LEVEL < a) (v : Word) : LevelKept s (setReg t a v) :=
  h.trans (reg_setReg_ne t v (Nat.ne_of_lt ha))

theorem setFld (h : LevelKept s t) {f : Field} (hf : Adr.PROT_LEVEL ≠ f.addr) (v : Nat) : LevelKept s (setFld t f v) :=
  h.trans (reg_setFld_ne t f v hf)

theorem setFlag (h : LevelKept s t) {f : Field} (hf : Adr.PROT_LEVEL ≠ f.addr) : LevelKept s (setFlag t f) :=
  (h.setFld hf 1).same rfl

theorem raise (h : LevelKept s t) (k : Nat) : LevelKept s (raise t k) :=
  h.trans (reg_raise_ne t k (by decide) (by decide))

theorem setRegBoth (h : LevelKept s t) {a : Nat} (ha : Adr.PROT_LEVEL < a) (v : Word) :
    LevelKept s (setRegBoth t a v false) := (h.setReg ha v).same rfl

theorem ite {c : Prop} [Decidable c] (ht : LevelKept s t) (hu : LevelKept s u) : LevelKept s (if c then t else u) := by
  split
  · exact ht
  · exact hu

theorem foldl {α : Type} (f : State → α → State) (hf : ∀ u k, LevelKept s u → LevelKept s (f u k)) (L : List α)
    (h : LevelKept s t) : LevelKept s (L.foldl f t) := foldl_keeps (LevelKept s) f hf L t h

/-- Packets write interrupts and drop counters (R490, R497). -/
theorem ne_packetFlds : ∀ g ∈ packetFlds, Adr.PROT_LEVEL ≠ g.addr := by decide

theorem reports (h : LevelKept s t) (hu : OnlyReports packetFlds t u) : LevelKept s u := h.flds hu.2 ne_packetFlds

theorem fault (h : LevelKept s t) (blk inst code : Nat) (detail : List Byte) : LevelKept s (fault t blk inst code detail) :=
  h.reports ((OnlyReports.refl _ t).fault (fun _ hf => hf) blk inst code detail)

theorem journal (h : LevelKept s t) (hu : OnlyJournal t u) : LevelKept s u := h.flds hu.kept (by decide)

/-! ### Requests (R145, R154) -/

theorem cxOutputs (h : LevelKept s t) (mayFall : Bool) : LevelKept s (cxOutputs t mayFall) := by
  have hreq : LevelKept s (cxRequester t mayFall) := by
    unfold cxRequester
    dsimp only
    exact ((ite (ite h (h.setSched _)) (setSched (ite h (h.setSched _)) _)).setFld (by decide) _).setFld (by decide) _
  have hlow := (h.setFld (f := Fld.SYS_STAT_CXREQ) (by decide) 0).setFld (f := Fld.SYS_STAT_CXPRI) (by decide) 0
  unfold Machine.cxOutputs
  exact ite (hreq.setFld (by decide) _) (ite (hlow.setFld (by decide) _) (hlow.setFld (by decide) _))

theorem putRequest (h : LevelKept s t) (r : Request) : LevelKept s (putRequest t r) := by
  unfold Machine.putRequest growCredit grantPoint cxPost
  exact (h.setSched _).cxOutputs false

theorem postRequest (h : LevelKept s t) (r : Request) : LevelKept s (postRequest t r).1 := by
  unfold Machine.postRequest
  dsimp only
  split
  · exact h
  · split
    · split
      · split
        · exact h.setFld (by decide) _
        · exact (h.setSched _).putRequest _
      · exact h.putRequest _
    · exact h.putRequest _

/-! ### Step 7: the journal, the link (R98, R417, R421, R434) -/

theorem jmountFail (h : LevelKept s t) (why : Nat) : LevelKept s (jmountFail t why) :=
  ((h.setFlag (by decide)).fault _ _ _ _).raise _

theorem jformat (h : LevelKept s t) : LevelKept s (jformat t) := by
  unfold Machine.jformat
  refine journal (setFld (setFld (f := Fld.JNL_STAT_WRAPPED) ?_ (by decide) 0) (by decide) 0) (OnlyJournal.refl _).jmeta
  exact h

theorem jrecover (h : LevelKept s t) : LevelKept s (jrecover t) := by
  unfold Machine.jrecover
  dsimp only
  (repeat' split) <;> exact h.same rfl

theorem jmount (h : LevelKept s t) (answers mounts : Bool) : LevelKept s (jmount t answers mounts) := by
  have hbegin : ∀ {u : State}, LevelKept s u → LevelKept s (jmeta (Machine.setFlag
      { u with jnl := { u.jnl with mounts := (u.jnl.mounts + 1) % 2 ^ 16 } } Fld.JNL_STAT_MOUNTED)) := fun hu =>
    ((hu.setJnl _).setFlag (by decide)).journal (OnlyJournal.refl _).jmeta
  have h0 := h.setJnl { t.jnl with
    buffer := [], full := [], inHand := [], inHandBad := false, configs := [], readBuf := [], fcDue := false, dutyDue := false
    feature := if answers then 0 else t.jnl.feature }
  unfold Machine.jmount
  dsimp only
  refine ite (h0.jmountFail 1) ?_
  split
  · exact ite (hbegin (jrecover (h0.setJnl _))) (h0.jmountFail 3)
  · exact ite (h0.jmountFail 2) (ite (hbegin h0.jformat) (h0.jmountFail 3))

theorem setPair (h : LevelKept s t) (p : Nat × Nat) (reason : Nat) : LevelKept s (setPair t p reason) := by
  unfold Machine.setPair
  dsimp only
  split
  · exact h
  · have h1 := (h.setFld (f := Fld.LNK_EPOCH_EPOCH) (by decide) p.1).setFld (f := Fld.LNK_ORIGIN_ORIGIN) (by decide) p.2
    have h2 := h1.setLnk { (Machine.setFld (Machine.setFld t Fld.LNK_EPOCH_EPOCH p.1) Fld.LNK_ORIGIN_ORIGIN p.2).lnk with
      steady := false }
    exact (h2.reports ((OnlyReports.refl _ _).emitBoth (fun _ hf => hf) (by decide) _ _)).raise 48

theorem becomeOrigin (h : LevelKept s t) (resume : Bool) : LevelKept s (becomeOrigin t resume) := by
  have h1 : LevelKept s (Machine.setFld (Machine.setFlag (Machine.setFld (clrFld t Fld.LNK_ORIGIN_HOLD) Fld.LNK_ORIGIN_SRC 0xF)
      Fld.LNK_ORIGIN_ISORIG) Fld.LNK_ORIGIN_HOPS 0) :=
    (((h.setFld (by decide) 0).setFld (by decide) _).setFlag (by decide)).setFld (by decide) 0
  unfold Machine.becomeOrigin
  dsimp only
  exact ite (h1.setLnk _) ((h1.setLnk _).setPair _ _)

theorem adopt (h : LevelKept s t) (k reason : Nat) : LevelKept s (adopt t k reason) := by
  have h1 : LevelKept s (Machine.setFld (clrFld (clrFld (Machine.setFld t Fld.LNK_ORIGIN_SRC k) Fld.LNK_ORIGIN_ISORIG)
      Fld.LNK_ORIGIN_HOLD) Fld.LNK_ORIGIN_HOPS (min 255 ((nbrOf t (srcNbr t k)).hops + 1))) :=
    (((h.setFld (by decide) _).setFld (by decide) 0).setFld (by decide) 0).setFld (by decide) _
  exact (h1.setLnk _).setPair _ _

theorem noSource (h : LevelKept s t) : LevelKept s (noSource t) := by
  unfold Machine.noSource
  exact ite (h.becomeOrigin _) (ite h (h.setFlag (by decide)))

theorem searchOn (h : LevelKept s t) (lost : Bool) : LevelKept s (searchOn t lost) := by
  unfold Machine.searchOn
  dsimp only
  split
  · exact h
  · split
    · exact h.setLnk _
    · exact ite h (h.setLnk _).noSource

theorem reconsider (h : LevelKept s t) : LevelKept s (reconsider t) := by
  unfold Machine.reconsider
  refine ite h (ite h ?_)
  split
  · exact h.adopt _ _
  · exact searchOn (h.setFld (by decide) _) _

theorem linkBegin (h : LevelKept s t) : LevelKept s (linkBegin t) := by
  have h1 : LevelKept s (firstSearch t) := by
    unfold firstSearch
    split
    · exact ite h (h.setLnk _)
    · exact h
  unfold Machine.linkBegin
  exact ite (h1.becomeOrigin _) (ite h1.reconsider h1)

/-- A neighbour's registers lie above the protection registers. -/
theorem lt_nbrAdr (n : Nat) :
    Adr.PROT_LEVEL < Adr.NBR_EUIH n ∧ Adr.PROT_LEVEL < Adr.NBR_EUIL n ∧ Adr.PROT_LEVEL < Adr.NBR_FC n := by
  simp only [Adr.NBR_EUIH, Adr.NBR_EUIL, Adr.NBR_FC, Adr.PROT_LEVEL]
  omega

theorem nbrPut (h : LevelKept s t) (y : CkptNbr) (n : Nat) : LevelKept s (nbrPut t y n) :=
  (h.setReg (lt_nbrAdr n).2.2 _).setLnk _

theorem nbrLearn (h : LevelKept s t) (n eui : Nat) : LevelKept s (nbrLearn t n eui) := by
  obtain ⟨heuih, heuil, hfc⟩ := lt_nbrAdr n
  exact (((h.setRegBoth heuih _).setRegBoth heuil _).setReg hfc 0).setLnk _

theorem nbrRestore (h : LevelKept s t) (y : CkptNbr) : LevelKept s (nbrRestore t y) := by
  unfold Machine.nbrRestore
  cases nbrFind t y.eui with
  | some n => exact h.nbrPut y n
  | none =>
    cases nbrFree t with
    | some n => exact (h.nbrLearn n y.eui).nbrPut y n
    | none => exact h

theorem setNext (h : LevelKept s t) (v : Nat) : LevelKept s (setNext t v) := (h.setLnk _).setFld (by decide) v

theorem linkRestore (h : LevelKept s t) : LevelKept s (linkRestore t) := by
  have hnbrs : ∀ {u : State} (L : List CkptNbr), LevelKept s u → LevelKept s (L.foldl Machine.nbrRestore u) :=
    foldl Machine.nbrRestore fun u y hu => hu.nbrRestore y
  unfold Machine.linkRestore
  split
  · exact h.setNext _
  · refine ite (hnbrs _ ?_) (setPair (hnbrs _ ?_) _ _) <;> exact (h.setNext _).setLnk _

theorem withholdUpdate (h : LevelKept s t) : LevelKept s (withholdUpdate t) := by
  unfold Machine.withholdUpdate
  split
  · exact h.journal ((OnlyJournal.refl t).withhold _)
  · exact h.setFld (by decide) 0

theorem recoverLink (h : LevelKept s t) (formatted : Bool) : LevelKept s (recoverLink t formatted) := by
  have hu : ∀ osf, LevelKept s (dutyRestore (Machine.linkRestore (if flag t Fld.JNL_STAT_MOUNTED then t else
      { t with jnl := { t.jnl with ckpt := none, duty := none } })) osf) := fun _ =>
    (linkRestore (ite h (h.setJnl _))).setLnk _
  exact linkBegin (withholdUpdate (ite ((hu _).journal (OnlyJournal.refl _).ckptWrite) (hu _)))

/-! ### Step 8: calibration (R99) -/

theorem freeBits (h : LevelKept s t) {a : Nat} (ha : Adr.PROT_LEVEL < a) (mask fixed : Word) :
    LevelKept s (freeBits t a mask fixed) := LevelKept.setRegBoth (h.same rfl) ha _

/-- Measured words lie far above the protection registers. -/
theorem measured (L : List Nat) (h : LevelKept s t) (hL : ∀ a ∈ L, Adr.PROT_LEVEL < a) (mask fixed : Word) :
    LevelKept s (L.foldl (fun u a => Machine.freeBits u a mask fixed) t) := by
  induction L generalizing t with
  | nil => exact h
  | cons a L ih =>
    exact ih (h.freeBits (hL a List.mem_cons_self) mask fixed) fun b hb => hL b (List.mem_cons_of_mem a hb)

theorem slotMeasured (h : LevelKept s t) (p : RfPath) (c : Nat) : LevelKept s (slotMeasured p t c) := by
  have hslot : ∀ n, Adr.PROT_LEVEL < slotAdr p n := fun n => by
    cases p <;> simp only [slotAdr, Adr.SYNCAL_A, Adr.SYNCAL_B, Adr.PROT_LEVEL] <;> omega
  unfold Machine.slotMeasured
  split
  · exact h.freeBits (hslot _) _ _
  · split
    · exact freeBits (setRegBoth (h.setFld (by cases p <;> decide) _) (hslot _) _) (hslot _) _ _
    · exact h

theorem tuningChanged (h : LevelKept s t) (changed : List Nat) : LevelKept s (tuningChanged t changed) :=
  h.flds (tuningChanged_only t changed).2 (by decide)

theorem baselineRebuild (h : LevelKept s t) : LevelKept s (baselineRebuild t) :=
  LevelKept.setFld (LevelKept.setFlag (h.same rfl) (by decide)) (by decide) 0

/-- The words that calibration measures lie above the protection registers. -/
theorem lt_calAdr (n : Nat) :
    Adr.PROT_LEVEL < Adr.RAD_PWR n ∧ Adr.PROT_LEVEL < Adr.RAD_CXV n ∧ Adr.PROT_LEVEL < Adr.CAL_ALIGN n ∧
      Adr.PROT_LEVEL < Adr.CAL_ADC n ∧ Adr.PROT_LEVEL < Adr.CAL_HFTUNE n ∧ Adr.PROT_LEVEL < Adr.CAL_QRX n := by
  simp only [Adr.RAD_PWR, Adr.RAD_CXV, Adr.CAL_ALIGN, Adr.CAL_ADC, Adr.CAL_HFTUNE, Adr.CAL_QRX, Adr.PROT_LEVEL]
  omega

theorem calMeasured (h : LevelKept s t) (item inst : Nat) : LevelKept s (calMeasured t item inst) := by
  have above : ∀ {f : Nat → Nat} {L : List Nat}, (∀ n, Adr.PROT_LEVEL < f n) → ∀ a ∈ L.map f, Adr.PROT_LEVEL < a :=
    fun hf a ha => by
      obtain ⟨n, -, rfl⟩ := List.mem_map.mp ha
      exact hf n
  have hdone : ∀ {u : State}, LevelKept s u → LevelKept s (if item ≤ 6 then calCompleted u (calInst u item inst) else u) :=
    fun hu => ite (hu.setCal _) hu
  obtain ⟨hpwr, hcxv, halign, hadc, htune, hqrx⟩ : _ ∧ _ ∧ _ ∧ _ ∧ _ ∧ _ := by
    simpa only [forall_and] using lt_calAdr
  unfold Machine.calMeasured
  dsimp only
  refine hdone ?_
  split
  · exact freeBits (LevelKept.same (measured _ h (above fun n => hpwr _) _ _) rfl) (by decide) _ _
  · exact (measured _ h (above fun n => hcxv _) _ _).freeBits (hqrx _) _ _
  · exact (measured _ h (above fun n => hadc _) _ _).freeBits (hqrx _) _ _
  · exact (measured _ h (by simpa using htune _) _ _).tuningChanged _
  · split
    · exact foldl _ (fun u c hu => hu.slotMeasured _ c) _ h
    · exact absurd rfl ‹_›
    · exact absurd rfl ‹_›
    · exact measured _ h (above halign) _ _
    · exact absurd rfl ‹_›
    · exact absurd rfl ‹_›
    · exact (measured _ h (by decide) _ _).baselineRebuild
    · exact h

theorem gapPost (h : LevelKept s t) (path : Nat) : LevelKept s (gapPost t path) := by
  unfold Machine.gapPost
  split
  · exact h
  · exact ite ((h.setSched _).postRequest _) h

theorem calPost (h : LevelKept s t) : LevelKept s (calPost t) := by
  unfold Machine.calPost
  exact ite (foldl _ (fun u k hu => hu.gapPost k) _ (foldl _ (fun u x hu => ite (hu.postRequest _) hu) _ h)) h

theorem calMark (h : LevelKept s t) (item inst : Nat) (slots : List Nat) : LevelKept s (calMark t item inst slots) := by
  unfold Machine.calMark
  exact ite (ite (h.setCal _) (h.setCal _)) (h.setCal _)

theorem calOverdue (h : LevelKept s t) (item inst : Nat) : LevelKept s (calOverdue t item inst) := by
  unfold Machine.calOverdue
  exact ite h (calPost (setSched (raise (setCal (h.calMark item inst _) _) 55) _))

theorem calPowerFail (h : LevelKept s t) (item inst : Nat) : LevelKept s (calPowerFail t item inst) := by
  unfold Machine.calPowerFail calFail
  exact (((((h.setFlag (by decide)).setCal _).setFlag (by decide)).setFld (by decide) _).setFld (by decide) _).fault _ _ _ _
    |>.calOverdue _ _

theorem calPowerUp (h : LevelKept s t) (fails : List (Nat × Nat)) (nopll : Bool) :
    LevelKept s (calPowerUp t fails nopll) := by
  unfold Machine.calPowerUp
  exact ite h (foldl _ (fun u p hu => ite (hu.calPowerFail _ _) (hu.calMeasured _ _)) _ h)

end LevelKept
end Sys2Proof.Machine

/-! Start-up (R74–R100, R105): the straps, BARE and autonomous operation. -/

namespace Sys2Proof.Machine

/-! ### The reset state (R71, R582) -/

/-- Settles O3: the fields of the reset state, read off its definition. -/
theorem resetIsAColdStart : Obligations.ResetIsAColdStart := by
  unfold Obligations.ResetIsAColdStart
  exact ⟨⟨rfl, rfl⟩, rfl, rfl, by decide +kernel, by decide +kernel, by decide +kernel, by decide +kernel, by decide +kernel,
    by decide +kernel, rfl, rfl⟩

/-! ### The end of a start (R100, R372) -/

/-- Nothing but registers, of those only the fields listed, the start's own state, the tag's reports and channels changed. -/
def OnlyStart (l : List Field) (s t : State) : Prop :=
  t = { s with regs := t.regs, fresh := t.fresh, boot := t.boot, tag := t.tag, fifo := t.fifo } ∧ FldsKept l s t

namespace OnlyStart

variable {l : List Field} {s t u : State}

theorem flds (h : OnlyFlds l s t) : OnlyStart l s t := ⟨by rw [h.1], h.2⟩

theorem fifo (h : OnlyFifo l s t) : OnlyStart l s t := ⟨by rw [h.1], h.2⟩

theorem trans (h : OnlyStart l s t) (h' : OnlyStart l t u) : OnlyStart l s u := ⟨by rw [h'.1, h.1], h.2.trans h'.2⟩

theorem mono {m : List Field} (h : OnlyStart l s t) (hl : l ⊆ m) : OnlyStart m s t := ⟨h.1, h.2.mono hl⟩

end OnlyStart

/-- The reports that waited for the end of a sleep are packets (R372). -/
theorem tgeLater_only (s : State) : OnlyStart packetFlds s (tgeLater s) := by
  have h : ∀ (L : List (List Word)) (u : State), OnlyFifo packetFlds u (L.foldl (fun t ws => admitPacket t 4 ws) u) := by
    intro L
    induction L with
    | nil => exact OnlyFifo.refl _
    | cons ws L ih =>
      intro u
      have h1 : OnlyFifo packetFlds u (admitPacket u 4 ws) := (OnlyFifo.refl _ u).admitPacket (fun _ hf => hf) (by decide) ws
      exact ⟨by rw [List.foldl_cons, (ih _).1, h1.1], h1.2.trans (ih _).2⟩
  have h1 : OnlyStart packetFlds s { s with tag := { s.tag with later := [] } } := ⟨rfl, (FldsKept.refl _ s).regs rfl⟩
  exact h1.trans (.fifo (h s.tag.later _))

theorem startOver_only (s : State) : OnlyStart packetFlds s (startOver s) :=
  OnlyStart.trans ⟨rfl, (FldsKept.refl _ s).regs rfl⟩ (tgeLater_only _)

theorem startOver_step (s : State) : (startOver s).boot.step = 0 ∧ (startOver s).sched = s.sched := by
  have hlater : ∀ u : State, (tgeLater u).boot = u.boot := fun u =>
    foldl_keeps (fun t => t.boot = u.boot) _ (fun t ws ht => by
      rw [((OnlyFifo.refl _ t).admitPacket (fun _ hf => hf) (by decide) ws).1]
      exact ht) _ _ rfl
  refine ⟨?_, by rw [(startOver_only s).1]⟩
  rw [startOver, hlater]

/-- BOOT_DONE's record is a packet behind its interrupt (R100, R472). -/
theorem raiseBootDone_only (s : State) : OnlyStart packetFlds (raise s 0) (raiseBootDone s) :=
  .fifo ((OnlyFifo.refl _ _).admitPacket (fun _ hf => hf) (by decide) _)

/-! ### BARE (R97, R100, R103) -/

/-- The registers as BARE is entered, before BOOT_DONE. -/
def bareRegs (s : State) : State :=
  setFld (setFlag (setFlag (clrFld s Fld.SYS_BOOTSTAT_DONE) Fld.SYS_BOOTSTAT_BARE) Fld.PROT_LEVEL_LEVEL)
    Fld.SYS_BOOTSEQ_SEQ 0xFFFFFFFF

/-- The fields that entering BARE writes. -/
def bareFlds : List Field :=
  [Fld.SYS_BOOTSTAT_BARE, Fld.SYS_BOOTSTAT_DONE, Fld.PROT_LEVEL_LEVEL, whole Adr.SYS_BOOTSEQ, intBit 0] ++ packetFlds

theorem packetFlds_subset_bareFlds : packetFlds ⊆ bareFlds := List.subset_append_right _ _

theorem enterBare_packets (s : State) : OnlyStart packetFlds (raise (bareRegs s) 0) (enterBare s) :=
  (raiseBootDone_only _).trans (startOver_only _)

theorem bareRegs_only (s : State) : OnlyStart bareFlds s (raise (bareRegs s) 0) :=
  .flds (((((OnlyFlds.refl bareFlds s).setFld (by decide) 0).setFlag (by decide)).setFlag (by decide)).setFld
    (f := Fld.SYS_BOOTSEQ_SEQ) (by decide) _ |>.setFlag (by decide))

theorem enterBare_only (s : State) : OnlyStart bareFlds s (enterBare s) :=
  (bareRegs_only s).trans ((enterBare_packets s).mono packetFlds_subset_bareFlds)

/-- A whole register is the field of its 32 bits. -/
theorem toNat_reg (s : State) (a : Nat) : (reg s a).toNat = fld s (whole a) :=
  (Nat.mod_eq_of_lt (reg s a).isLt).symm

theorem enterBare_fields (s : State) :
    flag (enterBare s) Fld.SYS_BOOTSTAT_BARE = true ∧ flag (enterBare s) Fld.SYS_BOOTSTAT_DONE = false ∧
      fld (enterBare s) Fld.PROT_LEVEL_LEVEL = 1 ∧ reg (enterBare s) Adr.SYS_BOOTSEQ = 0xFFFFFFFF ∧
      flag (enterBare s) (intBit 0) = true ∧ (enterBare s).boot.step = 0 := by
  have hk := (enterBare_packets s).2
  have hbare : flag (bareRegs s) Fld.SYS_BOOTSTAT_BARE = true := by
    simp (disch := decide) only [bareRegs, flag, fld_setFlag, fld_setFld_apart, fld_setFld_self]
    rfl
  have hdone : fld (bareRegs s) Fld.SYS_BOOTSTAT_DONE = 0 := by
    simp (disch := decide) only [bareRegs, fld_setFlag, fld_setFld_apart, fld_clrFld_self]
  have hlevel : fld (bareRegs s) Fld.PROT_LEVEL_LEVEL = 1 := by
    simp (disch := decide) only [bareRegs, fld_setFlag, fld_setFld_apart, fld_setFld_self]
    rfl
  have hseq : fld (bareRegs s) (whole Adr.SYS_BOOTSEQ) = 0xFFFFFFFF := fld_setFld_self _ Fld.SYS_BOOTSEQ_SEQ _ (by decide)
  have hraise : ∀ {f : Field}, f.addr ≠ Adr.HSP_INT0 → fld (raise (bareRegs s) 0) f = fld (bareRegs s) f := fun hf => by
    rw [raise, fld_setFlag, fld_setFld_ne _ _ _ _ hf]
  refine ⟨?_, ?_, ?_, ?_, ?_, (startOver_step _).1⟩
  · rw [hk.flag_eq (by unfold Field.apart; decide), flag, hraise (by decide), ← flag, hbare]
  · rw [hk.flag_eq (by unfold Field.apart; decide), flag, hraise (by decide), hdone]
    rfl
  · rw [hk.fld_eq (by unfold Field.apart; decide), hraise (by decide), hlevel]
  · apply BitVec.eq_of_toNat_eq
    rw [toNat_reg, hk.fld_eq (by unfold Field.apart; decide), hraise (by decide), hseq]
    rfl
  · rw [hk.flag_eq (by unfold Field.apart; decide), flag_raise_self _ 0 (by decide)]

/-! ### Autonomous operation (R100) -/

theorem zonesBegin_regs (s : State) : (zonesBegin s).regs = s.regs := by
  unfold zonesBegin
  refine foldl_keeps (fun t => t.regs = s.regs) _ (fun t n ht => ?_) _ _ rfl
  unfold zoneBegin
  split <;> exact ht

/-- The registers as autonomous operation begins. -/
def doneRegs (s : State) : State := clrFld (setFlag s Fld.SYS_BOOTSTAT_DONE) Fld.SYS_BOOTSTAT_BARE

theorem bootDone_kept_flds (s : State) : FldsKept packetFlds (raise (doneRegs s) 0) (bootDone s) := by
  have h1 := (raiseBootDone_only (doneRegs s)).2
  have h2 : FldsKept packetFlds (raiseBootDone (doneRegs s)) (grantPoint (accountsAtStart (zonesBegin
      (raiseBootDone (doneRegs s))))) := (FldsKept.refl _ _).regs (zonesBegin_regs (raiseBootDone (doneRegs s)))
  exact (h1.trans h2).trans (startOver_only _).2

theorem bootDone_spec (s : State) :
    flag (bootDone s) Fld.SYS_BOOTSTAT_DONE = true ∧ flag (bootDone s) Fld.SYS_BOOTSTAT_BARE = false ∧
      flag (bootDone s) (intBit 0) = true ∧ (bootDone s).boot.step = 0 ∧ (bootDone s).sched.point = true ∧
      LevelKept s (bootDone s) := by
  have hk := bootDone_kept_flds s
  have hraise : ∀ {f : Field}, f.addr ≠ Adr.HSP_INT0 → flag (raise (doneRegs s) 0) f = flag (doneRegs s) f := fun hf => by
    rw [flag, raise, fld_setFlag, fld_setFld_ne _ _ _ _ hf, flag]
  refine ⟨?_, ?_, ?_, (startOver_step _).1, ?_, ?_⟩
  · rw [hk.flag_eq (by unfold Field.apart; decide), hraise (by decide), doneRegs, clrFld, flag_setFld_apart _ _ _ _ (by decide),
      flag_setFlag_self _ _ (by decide) rfl]
  · rw [hk.flag_eq (by unfold Field.apart; decide), hraise (by decide), doneRegs, flag, fld_clrFld_self _ _ (by decide)]
    rfl
  · rw [hk.flag_eq (by unfold Field.apart; decide), flag_raise_self _ 0 (by decide)]
  · rw [bootDone, (startOver_step _).2]
    rfl
  · exact ((((LevelKept.refl s).setFlag (by decide)).setFld (by decide) 0).raise 0).flds hk LevelKept.ne_packetFlds

theorem stepsFromMount_spec (s : State) (inp : StartInputs) :
    flag (stepsFromMount s inp) Fld.SYS_BOOTSTAT_DONE = true ∧ flag (stepsFromMount s inp) Fld.SYS_BOOTSTAT_BARE = false ∧
      flag (stepsFromMount s inp) (intBit 0) = true ∧ (stepsFromMount s inp).boot.step = 0 ∧
      (stepsFromMount s inp).sched.point = true ∧ LevelKept s (stepsFromMount s inp) := by
  obtain ⟨hdone, hbare, hint, hstep, hpoint, hlevel⟩ := bootDone_spec (calPowerUp (recoverLink
    (jmount s inp.nandAnswers inp.ringMounts) (jfresh s)) inp.calFails
      (flag (recoverLink (jmount s inp.nandAnswers inp.ringMounts) (jfresh s)) Fld.SYS_CLKSTAT_FALLBACK))
  exact ⟨hdone, hbare, hint, hstep, hpoint, ((((LevelKept.refl s).jmount _ _).recoverLink _).calPowerUp _ _).trans hlevel⟩

/-! ### The straps (R75–R78) -/

/-- With the core PLL locked, steps 1 to 4 sample OSF and the straps and open the host port for reads. -/
theorem stepsToStraps_locked (s : State) {inp : StartInputs} (hlock : inp.pllLocks = true) :
    stepsToStraps s inp = setHrdy (setFld (setFld (setFld (refinSeen (clrFld (setFlag
      (setFld s Fld.SYS_BOOTSTAT_OSF (fld s Fld.QTZ_STAT_OSF)) Fld.SYS_CLKSTAT_PLLLOCK) Fld.SYS_CLKSTAT_FALLBACK) true)
      Fld.SYS_BOOTSTAT_HGEN (if strapHigh inp.hgen then 1 else 0)) Fld.SYS_BOOTSTAT_BOOTSEL
      (if strapHigh inp.bootsel then 1 else 0)) Fld.HSP_STAT_FRAMING (if strapHigh inp.hgen then 1 else 0)) true := by
  rw [stepsToStraps, hlock]
  rfl

theorem fld_setHrdy (s : State) (v : Bool) (f : Field) : fld (setHrdy s v) f = fld s f := rfl

theorem strapBit_eq_one (p : StrapPin) : (if strapHigh p then 1 else 0 : Nat) % 2 = 1 ↔ p = .high := by
  cases p <;> decide

/-- The fields of the straps, the clock and OSF lie apart from each other. -/
theorem stepsToStraps_fields (s : State) {inp : StartInputs} (hlock : inp.pllLocks = true) {t : State}
    (ht : t = stepsToStraps s inp) :
    fld t Fld.SYS_BOOTSTAT_HGEN = (if strapHigh inp.hgen then 1 else 0) % 2 ∧
      fld t Fld.SYS_BOOTSTAT_BOOTSEL = (if strapHigh inp.bootsel then 1 else 0) % 2 ∧
      fld t Fld.HSP_STAT_FRAMING = (if strapHigh inp.hgen then 1 else 0) % 2 ∧ fld t Fld.SYS_CLKSTAT_REFOK = 1 ∧
      fld t Fld.SYS_BOOTSTAT_OSF = fld s Fld.QTZ_STAT_OSF ∧ fld t Fld.SYS_CLKSTAT_PLLLOCK = 1 ∧
      fld t Fld.SYS_CLKSTAT_FALLBACK = 0 := by
  have hself : ∀ (u : State) (f : Field) (v : Nat), f.hi = f.lo → f.hi < 32 → fld (setFld u f v) f = v % 2 := fun u f v h1 h => by
    rw [fld_setFld_self u f v h, h1, Nat.add_sub_cancel_left, pow_one]
  rw [ht, stepsToStraps_locked s hlock]
  simp (disch := decide) only [fld_setHrdy, refinSeen, clrFld, fld_setFld_apart, fld_setFlag, hself, true_and]
  exact ⟨rfl, Nat.mod_eq_of_lt (Nat.mod_lt _ (Nat.two_pow_pos 1)), trivial⟩

/-! ### The start that is pending (R74, R80, R95, R105) -/

theorem exec_startup (inp : StartInputs) (s : State) : exec (.startup inp) s = .next (startUp s inp) := rfl

theorem startUp_idle {s : State} (inp : StartInputs) (h : powered s = false ∨ s.boot.step = 0) : startUp s inp = s := by
  unfold startUp
  rcases h with h | h
  · rw [h]
    rfl
  · rw [h]
    exact ite_self s

theorem startUp_one {s : State} (inp : StartInputs) (hp : powered s = true) (h : s.boot.step = 1) :
    startUp s inp = stepsFromImage (stepsToStraps s inp) inp := by
  rw [startUp, hp, h]
  rfl

theorem startUp_five {s : State} (inp : StartInputs) (hp : powered s = true) (h : s.boot.step = 5) :
    startUp s inp = stepsFromImage s inp := by
  rw [startUp, hp, h]
  rfl

theorem startUp_seven {s : State} (inp : StartInputs) (hp : powered s = true) (h : s.boot.step = 7) :
    startUp s inp = stepsFromMount (slateScan s) inp := by
  rw [startUp, hp, h]
  rfl

/-- BOOTSEL, where it counts, leads into BARE (R77). -/
theorem stepsFromImage_strapped {s : State} (inp : StartInputs) (hsel : flag s Fld.SYS_BOOTSTAT_BOOTSEL = true)
    (hi : s.boot.ignoreBootsel = false) : stepsFromImage s inp = enterBare s := by
  rw [stepsFromImage, hsel, hi]
  rfl

theorem stepsFromImage_ignoring {s : State} (inp : StartInputs) (hi : s.boot.ignoreBootsel = true) :
    stepsFromImage s inp = if (chooseImage s inp).2 then stepsFromMount (chooseImage s inp).1 inp
      else enterBare (chooseImage s inp).1 := by
  rw [stepsFromImage, hi, Bool.not_true, Bool.and_false]
  rfl

/-- A NOR that does not answer holds no image (R80). -/
theorem chooseImage_silent (s : State) {inp : StartInputs} (h : inp.jedec = 0 ∨ inp.jedec = 0xFFFFFF) :
    chooseImage s inp = (setFld (setFld { s with mem := { s.mem with sent := [0xAB, 0x66, 0x99, 0x9F] } }
      Fld.SYS_BOOTSTAT_AWHY 8) Fld.SYS_BOOTSTAT_BWHY 8, false) := by
  have hn : norAnswers inp.jedec = false := by rcases h with h | h <;> rw [h] <;> rfl
  rw [chooseImage, hn]
  rfl

/-! ### RUN (R97, R105) -/

theorem exec_run (s : State) {lvl : Level} (key : BitVec 16) (inp : StartInputs)
    (h : permitted s lvl Adr.SYS_BOOTCMD true = true) :
    exec (.run lvl key inp) s = .next (if (bootCommand s lvl key 3).boot.step = 7 then startUp (bootCommand s lvl key 3) inp
      else bootCommand s lvl key 3) := congrArg Host.Outcome.next (if_pos h)

theorem bootCommand_run {s : State} {lvl : Level} (h : supervisorLevel lvl = true) :
    bootCommand s lvl 0xA55A 3 = if flag s Fld.SYS_BOOTSTAT_BARE then runBegin s else s := by
  simp [bootCommand, keyOk, h]

/-- RUN outside BARE, below SUPERVISOR or without its key is ignored. -/
theorem bootCommand_run_ignored {s : State} {lvl : Level} {key : BitVec 16}
    (h : key ≠ 0xA55A ∨ supervisorLevel lvl = false ∨ flag s Fld.SYS_BOOTSTAT_BARE = false) : bootCommand s lvl key 3 = s := by
  by_cases hc : key ≠ 0xA55A ∨ supervisorLevel lvl = false
  · exact bootCommand_ignored hc 3
  · obtain ⟨hkey, hl⟩ := not_or.mp hc
    obtain rfl := not_not.mp hkey
    rw [bootCommand_run (by simpa using hl), if_neg (by simp_all)]

/-- From BARE, RUN runs steps 7 to 9 at level USER. -/
theorem run_runs {s : State} {lvl : Level} (inp : StartInputs) (hperm : permitted s lvl Adr.SYS_BOOTCMD true = true)
    (hp : powered s = true) (hl : supervisorLevel lvl = true) (hb : flag s Fld.SYS_BOOTSTAT_BARE = true) :
    ∃ t, exec (.run lvl 0xA55A inp) s = .next t ∧ flag t Fld.SYS_BOOTSTAT_DONE = true ∧
      flag t Fld.SYS_BOOTSTAT_BARE = false ∧ fld t Fld.PROT_LEVEL_LEVEL = 0 ∧ t.sched.point = true := by
  obtain ⟨hdone, hbare, -, -, hpoint, hlevel⟩ := stepsFromMount_spec (slateScan (runBegin s)) inp
  have hzero : fld (slateScan (runBegin s)) Fld.PROT_LEVEL_LEVEL = 0 := fld_clrFld_self _ Fld.PROT_LEVEL_LEVEL (by decide)
  refine ⟨_, ?_, hdone, hbare, (fld_of_reg_eq (f := Fld.PROT_LEVEL_LEVEL) hlevel).trans hzero, hpoint⟩
  rw [exec_run s _ inp hperm, bootCommand_run hl, if_pos hb, if_pos (show (runBegin s).boot.step = 7 from rfl),
    startUp_seven (s := runBegin s) inp hp rfl]

/-- Settles O8: a start ends in BARE by its straps or without an image, and else, as RUN does, in autonomous operation. -/
theorem startsEndInBareOrDone : Obligations.StartsEndInBareOrDone := by
  unfold Obligations.StartsEndInBareOrDone
  intro s inp
  refine ⟨fun h => ?_, fun hp => ⟨fun h5 hsel hi => ?bare, fun h1 hsel hlock hi => ?straps, fun h5 hi hj => ?silent,
    fun h => ?done⟩, fun lvl key hperm => ⟨fun h h7 => ?_, fun hp hl hb => run_runs inp hperm hp hl hb⟩⟩
  case bare =>
    obtain ⟨hbare, hdone, hlevel, hseq, hint, hstep⟩ := enterBare_fields s
    exact ⟨enterBare s, by rw [exec_startup, startUp_five inp hp h5, stepsFromImage_strapped inp hsel hi], hbare, hdone, hlevel,
      hseq, hint, hstep, (enterBare_only s).2, (enterBare_only s).1⟩
  case straps =>
    obtain ⟨hhgen, hboot, hframing, hrefok, hosf, hpll, hfall⟩ := stepsToStraps_fields s hlock rfl
    have hstart : startUp s inp = enterBare (stepsToStraps s inp) := by
      rw [startUp_one inp hp h1, stepsFromImage_strapped inp _ _]
      · rw [flag, hboot, hsel]
        rfl
      · rw [stepsToStraps_locked s hlock]
        exact hi
    obtain ⟨hframe, hk⟩ := enterBare_only (stepsToStraps s inp)
    refine ⟨_, (exec_startup inp s).trans (congrArg _ hstart), (enterBare_fields _).1, ?_, ?_, ?_, ?_, ?_, ?_, ?_⟩
    · rw [hframe, stepsToStraps_locked s hlock]
      rfl
    · rw [hk.flag_eq (by unfold Field.apart; decide), flag, hhgen, beq_iff_eq, strapBit_eq_one]
    · rw [hk.flag_eq (by unfold Field.apart; decide), flag, hframing, beq_iff_eq, strapBit_eq_one]
    · rw [hk.flag_eq (by unfold Field.apart; decide), flag, hrefok]
      rfl
    · rw [hk.fld_eq (by unfold Field.apart; decide), hosf]
    · rw [hk.flag_eq (by unfold Field.apart; decide), flag, hpll]
      rfl
    · rw [hk.flag_eq (by unfold Field.apart; decide), flag, hfall]
      rfl
  case silent =>
    have hstart : startUp s inp = enterBare (chooseImage s inp).1 := by
      rw [startUp_five inp hp h5, stepsFromImage_ignoring inp hi, chooseImage_silent s hj]
      rfl
    rw [chooseImage_silent s hj] at hstart
    obtain ⟨hframe, hk⟩ := enterBare_only (setFld (setFld { s with mem := { s.mem with sent := [0xAB, 0x66, 0x99, 0x9F] } }
      Fld.SYS_BOOTSTAT_AWHY 8) Fld.SYS_BOOTSTAT_BWHY 8)
    refine ⟨_, (exec_startup inp s).trans (congrArg _ hstart), (enterBare_fields _).1, ?_, ?_, ?_, ?_⟩
    · rw [hk.fld_eq (by unfold Field.apart; decide), fld_setFld_apart _ _ _ _ (by decide), fld_setFld_self _ _ _ (by decide)]
      rfl
    · rw [hk.fld_eq (by unfold Field.apart; decide), fld_setFld_self _ _ _ (by decide)]
      rfl
    · rw [hframe]
      rfl
    · rw [hframe]
      rfl
  case done =>
    have hstart : ∃ u, startUp s inp = stepsFromMount u inp := by
      rcases h with h7 | ⟨h5, hi, hc⟩
      · exact ⟨_, startUp_seven inp hp h7⟩
      · exact ⟨_, (startUp_five inp hp h5).trans ((stepsFromImage_ignoring inp hi).trans (if_pos hc))⟩
    obtain ⟨u, hu⟩ := hstart
    obtain ⟨hdone, hbare, hint, hstep, hpoint, -⟩ := stepsFromMount_spec u inp
    exact ⟨_, (exec_startup inp s).trans (congrArg _ hu), hdone, hbare, hint, hstep, hpoint⟩
  · rw [exec_startup, startUp_idle inp h]
  · rw [exec_run s key inp hperm, bootCommand_run_ignored h, if_neg h7]

end Sys2Proof.Machine

/-! A HEDGE record (R90) whose entry names more children than its field of the shadow set holds. -/

namespace Sys2Proof.Machine

/-- Sixteen children: four bits of NCHILD keep none of them, so that the words staged are those of an empty Hedge. -/
def sixteenChildren : HedgeEntry :=
  { index := 0, nchild := 16, roles := 0, child := List.replicate 8 0x7F, weight := List.replicate 8 0 }

/-- A record of that entry leads into no cycle, and the set that it stages is at its boundary and passes every check of R33. -/
theorem sixteenChildren_passes : cycleFrom State.reset [sixteenChildren] 0 = false ∧
    blockIdle (setPend (hedgeStage State.reset sixteenChildren) ⟨.hdg, 0⟩ 1) ⟨.hdg, 0⟩ = true ∧
    checkOf (setPend (hedgeStage State.reset sixteenChildren) ⟨.hdg, 0⟩ 1) ⟨.hdg, 0⟩ = 0 := by
  refine ⟨?_, ?_, ?_⟩ <;> decide +kernel

theorem hedgeN_lt (s : State) (n : Nat) : hedgeN s n < 16 := Nat.mod_lt _ (Nat.two_pow_pos 4)

/-- Refutes O11: the clause of one HEDGE entry says that NCHILD in force is the record's, and does not hold it to 8; for an entry of 16
children, which R90 refuses with RANGE, no state has it. -/
theorem not_imageRecordsApplyOrAreRefused : ¬ Obligations.ImageRecordsApplyOrAreRefused := by
  unfold Obligations.ImageRecordsApplyOrAreRefused
  rintro ⟨-, h⟩
  obtain ⟨-, -, hedge, -⟩ := h State.reset
  obtain ⟨hcycle, hidle, hcheck⟩ := sixteenChildren_passes
  obtain ⟨t, -, hn, -⟩ := hedge sixteenChildren ⟨.hdg, 0⟩ _ (by decide) hcycle rfl rfl (by decide +kernel) rfl hidle hcheck
  exact absurd hn (Nat.ne_of_lt (hedgeN_lt t 0))

end Sys2Proof.Machine

/-! A G1 read of a report FIFO's port (R128, R501, R583): the error state of the word that it consumes. -/

namespace Sys2Proof.Machine

/-- A G1 select under way, and one unit in the read bank of channel 0. -/
def unitForG1 : State :=
  { setFlag {} Fld.HSP_STAT_FRAMING with
    boot := { step := 0 }
    pins := { hselN := false, hrdy := true }
    fifo := ({} : State).fifo.setIfInBounds 0 { rd := [{ kind := 0x4, data := 0, chk := 0 }] } }

/-- Byte 0 of `FIFO_PORT0` in the map of G1. -/
def portByte : BitVec 7 := 0x30

theorem unitForG1_serves : serving unitForG1 = true ∧ framingG1 unitForG1 = true ∧
    g1Reg portByte.toNat = some (Adr.FIFO_PORT 0) ∧ g1Unlatched (Adr.FIFO_PORT 0) = false ∧
    permitted unitForG1 (hostLevel unitForG1) (Adr.FIFO_PORT 0) false = true := by
  refine ⟨?_, ?_, ?_, ?_, ?_⟩ <;> decide +kernel

theorem exec_g1Read (a : BitVec 7) (e : Fin 3) (s : State) : exec (.g1Read a e) s = .next (if serving s && framingG1 s then
    g1ReadUnit (setHost s { s.host with ecc := [e.val] }) a.toNat else s) := rfl

/-- The unit is counted as corrected where its error state says so, and not where the read gives it none (R501). -/
theorem corrected_unitForG1 :
    fld (g1ReadUnit (setHost unitForG1 { unitForG1.host with ecc := [0] }) portByte.toNat) (Fld.FIFO_CH_CNT_CORR 0) = 0 ∧
      fld (readWord { unitForG1 with host := { unitForG1.host with ecc := [1] } } (Adr.FIFO_PORT 0)).2
        (Fld.FIFO_CH_CNT_CORR 0) = 1 := by
  constructor <;> decide +kernel

/-- Refutes O57: its clauses of G1_READ run the command without an error state, which is then 0, and compare it with a read of the
register under any; a port's word with a corrected error counts one in the second and none in the first. -/
theorem not_selectsAndG1Units : ¬ Obligations.SelectsAndG1Units := by
  unfold Obligations.SelectsAndG1Units
  rintro ⟨-, h⟩
  obtain ⟨hserving, hg1, hport, hlatched, hpermitted⟩ := unitForG1_serves
  obtain ⟨-, hunits⟩ := h unitForG1 _ portByte 1 rfl
  obtain ⟨-, hmapped⟩ := hunits hserving hg1
  obtain ⟨hbyteZero, -⟩ := hmapped (Adr.FIFO_PORT 0) hport
  obtain ⟨t, ht, -, -, -, hframe⟩ := hbyteZero (by decide) hlatched hpermitted
  rw [exec_g1Read, hserving, hg1] at ht
  have hread := Host.Outcome.next.inj ht
  obtain ⟨hzero, hone⟩ := corrected_unitForG1
  have hcount : fld t (Fld.FIFO_CH_CNT_CORR 0) = 1 := (congrArg (fld · (Fld.FIFO_CH_CNT_CORR 0)) hframe).trans hone
  rw [← hread] at hcount
  exact absurd (hzero.symm.trans hcount) (by decide)

end Sys2Proof.Machine

/-! Reads of the channels by their consumers (R487–R509): what a port read of an uncorrectable word reports. -/

namespace Sys2Proof.Machine

/-- A word with a double-bit error is at the head of the link's report channel, AUTOFLT is set, and the send queue is full. -/
def reportWithError : State :=
  { setFlag {} Fld.LNK_DATA_AUTOFLT with
    lnk := { queue := List.replicate 8 { payload := [], dest := 0, ar := true, anytime := false, tag := 0, life := 0
                                         queuedAt := 0, seq := 0 } }
    fifo := ({} : State).fifo.setIfInBounds 6 { rd := [{ kind := 0x4, data := 0, chk := 0 }] } }

theorem wr_reportWithError : (chan reportWithError 6).wr = [] := rfl

theorem exec_fifoPortRead_firmware (n : Fin 8) (ecc : Fin 3) (s : State) :
    exec (.fifoPortRead .firmware n ecc) s = .next (portRead s n ecc).2 := rfl

/-- The fault record of the read is reported on the link, and the report that finds the queue full is a packet of four words for the
same channel (R440, R441, R501). -/
theorem wr_portRead_reportWithError : (chan (portRead reportWithError 6 2).2 6).wr.length = 4 := by decide +kernel

/-- Refutes O26: its clause of FIFO_PORT_READ says that the channel read keeps its write bank; with an uncorrectable word on the
link's report channel, AUTOFLT set and the send queue full, the fault record ends in a packet for that channel. -/
theorem not_consumersReadAndSkipUnits : ¬ Obligations.ConsumersReadAndSkipUnits := by
  unfold Obligations.ConsumersReadAndSkipUnits
  rintro ⟨hread, -⟩
  obtain ⟨hunit, -⟩ := hread reportWithError .firmware 6 2 rfl
  obtain ⟨t, k, ht, -, -, hchan, -⟩ :=
    hunit _ [] (by decide +kernel) (by decide +kernel) (by decide +kernel) rfl
  rw [exec_fifoPortRead_firmware] at ht
  have hempty : (chan t 6).wr = [] := (congrArg Chan.wr hchan).trans wr_reportWithError
  have hfour : (chan t 6).wr.length = 4 := Host.Outcome.next.inj ht ▸ wr_portRead_reportWithError
  rw [hempty] at hfour
  exact absurd hfour (by decide)

end Sys2Proof.Machine

/-! A G3 transfer that goes on after a stall (R125): the units it reads behind the NOT_VALID unit. -/

namespace Sys2Proof.Machine

/-- A transfer of 80 bits waits at its first boundary on a BLOCKING channel. A bank has just been handed over, which the consumer's
clock has not brought into its view yet; its word is read with a double-bit error. -/
def stallBeforeView : State :=
  { setReg (setReg {} (Adr.FIFO_CH_CFG 3) 0xFFFFFFFF) Adr.HSP_LEN 80 with
    boot := { step := 0 }
    pins := { hselN := false }
    host := { frame := .done, g3 := some { chan := 3, left := 1, opened := true, waiting := true, todo := 80, ecc := [2] } }
    fifo := ({} : State).fifo.setIfInBounds 3 { rd := [{ kind := 0x4, data := 0, chk := 0 }], view := 0 } }

theorem exec_g3StallTimeout (s : State) : exec .g3StallTimeout s = .next (g3Stall s) := rfl

/-- The 40 edges of the NOT_VALID unit bring the bank into view (R493), and the next unit draws its free word and KIND (R501). -/
theorem drawn_g3Stall_stallBeforeView : (g3Stall stallBeforeView).drawn = 2 := by decide +kernel

/-- Refutes O60: its frame of G3_STALL_TIMEOUT keeps the count of free values drawn (log entry 4); a transfer that goes on after the
stall to a word with a double-bit error draws two. -/
theorem not_streamsShiftUnits : ¬ Obligations.StreamsShiftUnits := by
  unfold Obligations.StreamsShiftUnits
  intro h
  obtain ⟨-, -, -, -, hstall⟩ := h stallBeforeView _ rfl
  obtain ⟨t, ht, -, -, -, hframe⟩ := hstall rfl
  rw [exec_g3StallTimeout] at ht
  have hnone : t.drawn = 0 := by rw [hframe]; rfl
  have htwo : t.drawn = 2 := Host.Outcome.next.inj ht ▸ drawn_g3Stall_stallBeforeView
  rw [hnone] at htwo
  exact absurd htwo (by decide)

end Sys2Proof.Machine

/-! The HSP set at its boundary (R38, R109, R141): the rise of `HSEL_N`, and the check of its ranges. -/

namespace Sys2Proof.Machine

/-- Between two selects the HSP set is at its boundary, but for a COMMIT of this cycle (R35, R38). -/
theorem atBoundary_hsp (s : State) : atBoundary s ⟨.hsp, 0⟩ = (!commitNew s ⟨.hsp, 0⟩ && s.pins.hselN) := by
  simp [atBoundary, blockIdle]

theorem checkOf_hsp (s : State) : checkOf s ⟨.hsp, 0⟩ = hspCheck (swapWords s ⟨.hsp, 0⟩ fun _ => true) := rfl

theorem firstFail_single (c : Bool) (r : Nat) : firstFail [(c, r)] = if c then 0 else r := by
  cases c <;> rfl

theorem hspCheck_eq (v : State) : hspCheck v =
    if 1 ≤ fld v Fld.HSP_LEN_LEN ∧ fld v Fld.HSP_LEN_LEN ≤ 4096 ∧ fld v Fld.HSP_STALL_MAX_US ≠ 0 ∧
      fld v Fld.HSP_CFG_G3IDLE ≠ 0 then 0 else rsnRange := by
  rw [hspCheck, firstFail_single]
  simp [inRange, and_assoc]

/-- A plain set that has come into force: the registers other than the commit register are those of the swap. -/
theorem reg_acceptAll {s : State} {b : BlockInst} (hb : ∀ s0 s, afterSwap s0 s b = s) {a : Nat} (hc : a ≠ commitAddr b)
    (hd : a ≠ (Fld.FIFO_CH_CNT_DROP 8).addr) : reg (acceptAll s b) a = reg (swapWords s b fun _ => true) a := by
  obtain ⟨ws, c, e⟩ := acceptAll_plain hb s
  have hrec := (OnlyFifo.refl [Fld.FIFO_CH_CNT_DROP 8] (acceptedMark s b)).admitPacket_jnl (List.mem_singleton_self _) ws
  calc reg (acceptAll s b) a = reg (admitPacket (acceptedMark s b) 8 ws) a := by rw [e]; rfl
    _ = reg (acceptedMark s b) a := hrec.2.reg_eq (List.forall_mem_singleton.mpr hd)
    _ = reg (swapWords s b fun _ => true) a := by
      rw [acceptedMark, incMod, reg_setFld_ne _ _ _ hc, reg_setPend_ne _ _ _ hc]

/-- Settles O6: the set's boundary is the rise of `HSEL_N`, and there the ranges decide between refusal and acceptance. -/
theorem hspCommitIsCheckedForRange : Obligations.HspCommitIsCheckedForRange := by
  unfold Obligations.HspCommitIsCheckedForRange
  rintro s _ _ rfl hpend rfl
  have hat : s.pins.hselN = true → commitNew s ⟨.hsp, 0⟩ = false → atBoundary s ⟨.hsp, 0⟩ = true := fun hsel hnew => by
    rw [atBoundary_hsp, hsel, hnew]
    rfl
  refine ⟨fun h => ?waits, fun hsel hnew => execShadowSwap_at rfl (hat hsel hnew), fun hsel hnew hone hbad => ?refused,
    fun hsel hnew hone hlow hhigh hus hidle => ?accepted⟩
  case waits =>
    refine execShadowSwap_away (.inr ?_)
    rw [atBoundary_hsp]
    rcases h with h | h <;> simp [h]
  case refused =>
    have hcheck : checkOf s ⟨.hsp, 0⟩ = rsnRange := by
      rw [checkOf_hsp, hspCheck_eq, if_neg]
      rintro ⟨hlow, hhigh, hus, hidle⟩
      rcases hbad with h | h | h | h
      exacts [absurd h (by omega), absurd h (by omega), hus h, hidle h]
    obtain ⟨pend, reject, reason, seq⟩ := refuseSet_flds (s := s) (b := ⟨.hsp, 0⟩) rfl rsnRange
    obtain ⟨frame, kept⟩ := refuseSet_reports s ⟨.hsp, 0⟩ rsnRange
    refine ⟨refuseSet s ⟨.hsp, 0⟩ rsnRange, ?_, reject, reason, seq, pend, kept, frame⟩
    rw [execShadowSwap_at rfl (hat hsel hnew), settle_single hone (hat hsel hnew),
      boundary_refuses hpend (.inl rfl) (by rw [hcheck]; decide), hcheck]
  case accepted =>
    have hcheck : checkOf s ⟨.hsp, 0⟩ = 0 := by
      rw [checkOf_hsp, hspCheck_eq, if_pos ⟨hlow, hhigh, hus, hidle⟩]
    have hplain := afterSwap_plain (b := ⟨.hsp, 0⟩) (by simp)
    obtain ⟨pend, seq, -⟩ := acceptAll_flds (s := s) (b := ⟨.hsp, 0⟩) rfl hplain (by decide)
    refine ⟨acceptAll s ⟨.hsp, 0⟩, ?_, seq, pend, fld_of_reg_eq (reg_acceptAll hplain (by decide) (by decide)),
      fld_of_reg_eq (reg_acceptAll hplain (by decide) (by decide)), fld_of_reg_eq (reg_acceptAll hplain (by decide) (by decide))⟩
    rw [execShadowSwap_at rfl (hat hsel hnew), settle_single hone (hat hsel hnew), boundary_accepts hpend rfl hcheck]

end Sys2Proof.Machine

/-! Denied accesses (R135): what a denial leaves, the commands that are accesses of one register, and bursts of denied words. -/

namespace Sys2Proof.Machine

/-! ### The descriptors that decide (R134) -/

theorem lt_of_descriptorFor {range : Nat → Word} {a n : Nat} (h : descriptorFor range a = some n) : n < 32 := by
  unfold descriptorFor firstBelow at h
  exact List.mem_range.mp (List.mem_of_find?_eq_some h)

/-- Only the 32 range words that exist count. -/
theorem descriptorFor_congr {r q : Nat → Word} (h : ∀ n < 32, r n = q n) (a : Nat) : descriptorFor r a = descriptorFor q a := by
  unfold descriptorFor firstBelow
  exact List.find?_congr fun n hn => by simp only [h n (List.mem_range.mp hn)]

theorem permBits_congr {r q p o : Nat → Word} (hr : ∀ n < 32, r n = q n) (hp : ∀ n < 32, p n = o n) (dflt : Word) (a : Nat) :
    permBits r p dflt a = permBits q o dflt a := by
  unfold permBits
  rw [descriptorFor_congr hr]
  split
  · next n hn => rw [hp n (lt_of_descriptorFor hn)]
  · rfl

/-! ### What denials leave -/

/-- What a denial writes. -/
def denyFlds : List Field := [Fld.HSP_STAT_PRIV, Fld.HSP_CNT1_PRIVDEN, whole Adr.PROT_DENY]

/-- `n` words from an address on have been denied at a level in one direction, and nothing else has happened outside the host port:
each counts, and the last one stands in `PROT_DENY`. -/
structure Denied (lvl : Level) (wr : Bool) (addr n : Nat) (s t : State) : Prop where
  frame : t = { s with regs := t.regs, fresh := t.fresh, host := t.host }
  kept : FldsKept denyFlds s t
  count : fld t Fld.HSP_CNT1_PRIVDEN = min 0xFFFF (fld s Fld.HSP_CNT1_PRIVDEN + n)
  priv : 0 < n → flag t Fld.HSP_STAT_PRIV = true
  last : 0 < n → bitsOf (reg t Adr.PROT_DENY) 31 16 = (addr + n - 1) % 0x10000 ∧
    bitsOf (reg t Adr.PROT_DENY) 15 14 = levelCode lvl ∧ bitsOf (reg t Adr.PROT_DENY) 13 13 = if wr then 1 else 0

/-- The word that a denial loads into `PROT_DENY` (R138). -/
def denyWord (lvl : Level) (a : Nat) (wr : Bool) : Word :=
  putBits (putBits (putBits 0 31 16 a) 15 14 (levelCode lvl)) 13 13 (if wr then 1 else 0)

theorem deny_eq (s : State) (lvl : Level) (a : Nat) (wr : Bool) : deny s lvl a wr =
    setReg (setFlag (incSat s Fld.HSP_CNT1_PRIVDEN 1) Fld.HSP_STAT_PRIV) Adr.PROT_DENY (denyWord lvl a wr) := rfl

theorem deny_only (s : State) (lvl : Level) (a : Nat) (wr : Bool) : OnlyFlds denyFlds s (deny s lvl a wr) :=
  (((OnlyFlds.refl _ s).setFld (by simp [denyFlds]) _).setFlag (by simp [denyFlds])).setReg (by simp [denyFlds]) _

theorem levelCode_lt (lvl : Level) : levelCode lvl < 4 := by cases lvl <;> decide

theorem bitsOf_denyWord (lvl : Level) (a : Nat) (wr : Bool) :
    bitsOf (denyWord lvl a wr) 31 16 = a % 0x10000 ∧ bitsOf (denyWord lvl a wr) 15 14 = levelCode lvl ∧
      bitsOf (denyWord lvl a wr) 13 13 = if wr then 1 else 0 := by
  unfold denyWord
  refine ⟨?_, ?_, ?_⟩
  · rw [bitsOf_putBits_apart _ _ (by decide), bitsOf_putBits_apart _ _ (by decide), bitsOf_putBits_same _ _ (by decide)]
    rfl
  · rw [bitsOf_putBits_apart _ _ (by decide), bitsOf_putBits_same _ _ (by decide)]
    exact Nat.mod_eq_of_lt (levelCode_lt lvl)
  · rw [bitsOf_putBits_same _ _ (by decide)]
    cases wr <;> rfl

namespace Denied

variable {lvl : Level} {wr : Bool} {addr n : Nat} {s t : State}

/-- No word has been denied yet. -/
theorem start (lvl : Level) (wr : Bool) (addr : Nat) (s : State) : Denied lvl wr addr 0 s s where
  frame := rfl
  kept := .refl _ s
  count := by
    have h : fld s Fld.HSP_CNT1_PRIVDEN < 2 ^ 16 := Nat.mod_lt _ (Nat.two_pow_pos _)
    omega
  priv := fun h => absurd h (Nat.lt_irrefl 0)
  last := fun h => absurd h (Nat.lt_irrefl 0)

/-- The next word is denied. -/
theorem deny (h : Denied lvl wr addr n s t) : Denied lvl wr addr (n + 1) s (deny t lvl (addr + n) wr) where
  frame := by rw [(deny_only t lvl (addr + n) wr).1, h.frame]
  kept := h.kept.trans (deny_only t lvl (addr + n) wr).2
  count := by
    rw [deny_eq, fld_setReg_ne _ _ _ _ (by decide), fld_setFlag, fld_setFld_ne _ _ _ _ (by decide),
      fld_incSat_self _ _ _ (by decide), h.count]
    simp only [Fld.HSP_CNT1_PRIVDEN]
    omega
  priv := fun _ => by
    rw [deny_eq, flag, fld_setReg_ne _ _ _ _ (by decide)]
    exact flag_setFlag_self _ _ (by decide) rfl
  last := fun _ => by
    rw [deny_eq, reg_setReg_self]
    exact bitsOf_denyWord lvl (addr + n) wr

/-- What the host port does meanwhile. -/
theorem setHost (h : Denied lvl wr addr n s t) (x : HostPort) : Denied lvl wr addr n s (setHost t x) where
  frame := by rw [h.frame]; rfl
  kept := h.kept.regs rfl
  count := h.count
  priv := h.priv
  last := h.last

theorem hsoPut (h : Denied lvl wr addr n s t) (bits : List Bool) : Denied lvl wr addr n s (hsoPut t bits) := h.setHost _

theorem frameDone (h : Denied lvl wr addr n s t) (r : Nat) : Denied lvl wr addr n s (frameDone t r) :=
  (h.setHost _).setHost _

theorem reg_eq (h : Denied lvl wr addr n s t) {a : Nat} (ha : a < Adr.HSP_STAT) (hd : a ≠ Adr.PROT_DENY) : reg t a = reg s a :=
  h.kept.reg_eq fun g hg => by
    simp only [denyFlds, List.mem_cons, List.not_mem_nil, or_false] at hg
    simp only [Adr.HSP_STAT] at ha
    rcases hg with rfl | rfl | rfl
    · simp only [Fld.HSP_STAT_PRIV, Adr.HSP_STAT]
      omega
    · simp only [Fld.HSP_CNT1_PRIVDEN, Adr.HSP_CNT1]
      omega
    · exact hd

/-- The level of the host is as it was. -/
theorem hostLevel_eq (h : Denied lvl wr addr n s t) : hostLevel t = hostLevel s := by
  rw [hostLevel, flag, fld_of_reg_eq (h.reg_eq (by decide) (by decide)), hostLevel, flag]

/-- What the gate of the host port depends on is as it was. -/
theorem hostGate_eq (h : Denied lvl wr addr n s t) : hostGate t = hostGate s := by
  have hfld : ∀ f : Field, f.addr < Adr.PROT_DENY → fld t f = fld s f := fun f hf =>
    fld_of_reg_eq (h.reg_eq (Nat.lt_trans hf (by decide)) (Nat.ne_of_lt hf))
  have hstate := h.frame
  unfold hostGate flag mode powered
  rw [hfld _ (by decide), hfld _ (by decide), hfld _ (by decide), hstate]

/-- A denial does not change the permissions of the words behind it. -/
theorem permitted_eq (h : Denied lvl wr addr n s t) (l : Level) (a : Nat) (d : Bool) : permitted t l a d = permitted s l a d := by
  have hrange : ∀ m < 32, reg t (Adr.PROT_RANGE m) = reg s (Adr.PROT_RANGE m) := fun m hm =>
    h.reg_eq (by simp only [Adr.PROT_RANGE, Adr.HSP_STAT]; omega) (by simp only [Adr.PROT_RANGE, Adr.PROT_DENY]; omega)
  have hperm : ∀ m < 32, reg t (Adr.PROT_PERM m) = reg s (Adr.PROT_PERM m) := fun m hm =>
    h.reg_eq (by simp only [Adr.PROT_PERM, Adr.HSP_STAT]; omega) (by simp only [Adr.PROT_PERM, Adr.PROT_DENY]; omega)
  have hdflt : reg t Adr.PROT_DEF = reg s Adr.PROT_DEF := h.reg_eq (by decide) (by decide)
  unfold permitted permBy
  rw [permBits_congr hrange hperm, hdflt]

end Denied

/-! ### Commands that are accesses of one register (R131, R134) -/

theorem asWrite_denied {s : State} {lvl : Level} {a : Nat} (h : permitted s lvl a true = false) (eff : State → State) :
    asWrite s lvl a eff = deny s lvl a true := if_neg (by simp [h])

theorem asRead_denied {s : State} {lvl : Level} {a : Nat} (h : permitted s lvl a false = false) (eff : State → State) :
    asRead s lvl a eff = deny s lvl a false := if_neg (by simp [h])

/-- A denial ends no work, so the row at which it stands brings no boundary (R38, R39). -/
theorem row_deny {s : State} {lvl : Level} {a : Nat} {wr : Bool} {run : State → State} (h : run s = deny s lvl a wr) :
    row s run = deny s lvl a wr := by
  have hw : workEnded s (deny s lvl a wr) = false := by
    unfold workEnded
    simp [deny_eq]
  rw [row, h, if_neg (by simp [hw])]

/-- Whatever command it is, an access that its level is not permitted is denied and does nothing else. -/
theorem exec_denied {c : Instr} {s : State} {lvl : Level} {a : Nat} {wr : Bool} (hc : access c = some (lvl, a, wr))
    (hp : permitted s lvl a wr = false) : exec c s = .next (deny s lvl a wr) := by
  cases c
  case registerWrite l addr v =>
    obtain ⟨hpop, e⟩ := Option.ite_none_right_eq_some.mp hc
    cases e
    exact congrArg Host.Outcome.next ((if_pos hpop).trans (asWrite_denied hp _))
  case commit l b =>
    obtain ⟨hv, e⟩ := Option.ite_none_right_eq_some.mp hc
    cases e
    exact congrArg Host.Outcome.next ((if_pos hv).trans (asWrite_denied hp _))
  case discard l b w =>
    obtain ⟨hv, e⟩ := Option.ite_none_right_eq_some.mp hc
    cases e
    exact congrArg Host.Outcome.next ((if_pos hv).trans (asWrite_denied hp _))
  all_goals cases hc
  case fifoPortRead => exact congrArg Host.Outcome.next (asRead_denied hp _)
  case tmrCapRead => exact congrArg Host.Outcome.next (asRead_denied hp _)
  case qtzTime0Read => exact congrArg Host.Outcome.next (asRead_denied hp _)
  case xchg => exact congrArg Host.Outcome.next (row_deny (asWrite_denied hp _))
  case raw => exact congrArg Host.Outcome.next (row_deny (asWrite_denied hp _))
  case close => exact congrArg Host.Outcome.next (row_deny (asWrite_denied hp _))
  all_goals exact congrArg Host.Outcome.next (asWrite_denied hp _)

/-! ### Bursts of denied words (R117, R119, R120) -/

theorem readOne_denied {w : Option Window} {s : State} {a : Nat} (hw : inBurst w a = true)
    (hp : permitted s (hostLevel s) a false = false) (ws : List Word) (r : Nat) :
    readOne w (s, ws, r) a = (deny s (hostLevel s) a false, ws ++ [0], max r 2) := by
  simp [readOne, hw, hp]

/-- The words of a READ that are all denied: zeros. -/
theorem readFold_denied {s s0 : State} {w : Option Window} {addr n : Nat} (h0 : Denied (hostLevel s) false addr 0 s s0)
    (h : ∀ k < n, inBurst w (addr + k) = true ∧ permitted s (hostLevel s) (addr + k) false = false) :
    ∃ t r, (List.range n).foldl (fun acc k => readOne w acc (addr + k)) (s0, [], 0) = (t, List.replicate n 0, r) ∧
      Denied (hostLevel s) false addr n s t ∧ t.host = s0.host := by
  induction n with
  | zero => exact ⟨s0, 0, rfl, h0, rfl⟩
  | succ n ih =>
    obtain ⟨t, r, hfold, hden, hhost⟩ := ih fun k hk => h k (Nat.lt_succ_of_lt hk)
    obtain ⟨hw, hp⟩ := h n (Nat.lt_succ_self n)
    refine ⟨deny t (hostLevel s) (addr + n) false, max r 2, ?_, hden.deny, hhost⟩
    rw [List.range_succ, List.foldl_append, hfold, List.foldl_cons, List.foldl_nil,
      readOne_denied hw (by rw [hden.hostLevel_eq, hden.permitted_eq, hp]), hden.hostLevel_eq, ← List.replicate_succ']

theorem writeOne_denied {allowed : Nat → Bool} {lvl : Level} {w : Option Window} {s : State} {a : Nat} (hg : hostGate s = 2)
    (hw : inBurst w a = true) (hp : allowed a = false) (v : Word) (r : Nat) :
    writeOne allowed lvl w (s, r) (a, v) = (deny s lvl a true, max r 2) := by
  simp [writeOne, hg, hw, hp]

/-- The words of a WRITE that are all denied. -/
theorem writeFold_denied {allowed : Nat → Bool} {lvl : Level} {s s0 : State} {w : Option Window} {addr : Nat} (ws : List Word)
    (h0 : Denied lvl true addr 0 s s0) (hg : hostGate s = 2)
    (h : ∀ k < ws.length, inBurst w (addr + k) = true ∧ allowed (addr + k) = false) :
    ∃ t r, ((List.range ws.length).zip ws).foldl (fun acc p => writeOne allowed lvl w acc (addr + p.1, p.2)) (s0, 0) = (t, r) ∧
      Denied lvl true addr ws.length s t := by
  induction ws using List.reverseRecOn with
  | nil => exact ⟨s0, 0, rfl, h0⟩
  | append_singleton ws v ih =>
    rw [List.length_append, List.length_singleton] at h ⊢
    obtain ⟨t, r, hfold, hden⟩ := ih fun k hk => h k (Nat.lt_succ_of_lt hk)
    obtain ⟨hw, hp⟩ := h ws.length (Nat.lt_succ_self _)
    refine ⟨deny t lvl (addr + ws.length) true, max r 2, ?_, hden.deny⟩
    rw [List.range_succ, List.zip_append (by simp), List.foldl_append, hfold]
    exact writeOne_denied (hden.hostGate_eq.trans hg) hw hp v r

/-! ### READ and WRITE frames (R114, R116, R174) -/

/-- The status word of a frame has gone out, and the zeros behind it (R116). -/
def afterHead (s : State) (zeros : Nat) : State :=
  hsoPut s (bitsMsb 32 (statusWord s).toNat ++ List.replicate zeros false)

theorem g2Frame_runs {s : State} (h : g2Open s = true) (zeros : Nat) (run : State → State) :
    g2Frame s true true zeros run = run (afterHead s zeros) := by
  simp [g2Frame, h, afterHead]

theorem holdOr_runs {s : State} (h : mustHold s = false) (f : HeldFrame) (run : State → State) : holdOr s f run = run s :=
  if_neg (by simp [h])

/-- A READ that the port takes, with the error states of the words that it may consume (R501). -/
def readBegins (s : State) (ecc : List (Fin 3)) : State :=
  setHost (afterHead s 24) { (afterHead s 24).host with ecc := ecc.map fun e => e.val }

theorem exec_g2Read_runs {s : State} {addr count crc : BitVec 16} (hopen : g2Open s = true) (hhold : mustHold s = false)
    (hpos : 0 < count.toNat) (hmax : count.toNat ≤ 1024) (hcrc : crc.toNat = crc16 (headBytes 0x81 addr.toNat count.toNat))
    (shifted : Nat) (ecc : List (Fin 3)) :
    exec (.g2Read addr count crc shifted ecc) s =
      .next (readFrame (readBegins s ecc) addr.toNat count.toNat shifted) := by
  have hallowed : (decide (1 ≤ count.toNat) && decide (count.toNat ≤ 1024)) = true := by
    simp only [Bool.and_eq_true, decide_eq_true_eq]
    omega
  have hexec : exec (.g2Read addr count crc shifted ecc) s = .next (g2Frame s
      (decide (1 ≤ count.toNat) && decide (count.toNat ≤ 1024)) (crc.toNat == crc16 (headBytes 0x81 addr.toNat count.toNat)) 24
      fun t => holdOr (setHost t { t.host with ecc := ecc.map fun e => e.val }) (.read addr.toNat count.toNat shifted)
        fun u => readFrame u addr.toNat count.toNat shifted) := rfl
  rw [hexec, hallowed, beq_iff_eq.mpr hcrc, g2Frame_runs hopen]
  exact congrArg Host.Outcome.next (holdOr_runs (s := readBegins s ecc) hhold _ _)

theorem exec_g2Write_runs {s : State} {addr count crc : BitVec 16} {words : List Word} (hopen : g2Open s = true)
    (hhold : mustHold s = false) (hpos : 0 < count.toNat) (hmax : count.toNat ≤ 256) (hlen : words.length = count.toNat)
    (hcrc : crc.toNat = crc16 (frameBytes 0x82 addr.toNat count.toNat words)) :
    exec (.g2Write addr count words crc) s =
      .next (writeFrame (afterHead s (24 + 32 * words.length)) (hostLevel s) addr.toNat words) := by
  have hallowed : (decide (1 ≤ count.toNat) && decide (count.toNat ≤ 256)) = true := by
    simp only [Bool.and_eq_true, decide_eq_true_eq]
    omega
  have hexec : exec (.g2Write addr count words crc) s = .next (
      if (decide (1 ≤ count.toNat) && decide (count.toNat ≤ 256)) && words.length != count.toNat then s
      else g2Frame s (decide (1 ≤ count.toNat) && decide (count.toNat ≤ 256))
        (crc.toNat == crc16 (frameBytes 0x82 addr.toNat count.toNat words)) (24 + 32 * words.length)
        fun t => holdOr t (.write addr.toNat words (hostLevel t)) fun u => writeFrame u (hostLevel u) addr.toNat words) := rfl
  rw [hexec, if_neg (by simp [hlen]), hallowed, beq_iff_eq.mpr hcrc, g2Frame_runs hopen]
  exact congrArg Host.Outcome.next (holdOr_runs (s := afterHead s _) hhold _ _)

theorem bitsMsb_zero (n : Nat) : bitsMsb n 0 = List.replicate n false := by
  induction n with
  | zero => rfl
  | succ n ih => rw [bitsMsb, ih, Nat.zero_testBit, List.replicate_succ]

/-- Zeros on `HSO`, and the bytes that their CRC covers (R109, R120). -/
theorem flatMap_zeros (n : Nat) :
    ((List.replicate n (0 : Word)).flatMap fun w => bitsMsb 32 w.toNat) = List.replicate (32 * n) false ∧
      ((List.replicate n (0 : Word)).flatMap fun w => beBytes 4 w.toNat) = List.replicate (4 * n) 0 := by
  have hbits : bitsMsb 32 (0 : Word).toNat = List.replicate 32 false := bitsMsb_zero 32
  have hbytes : beBytes 4 (0 : Word).toNat = List.replicate 4 (0 : Byte) := rfl
  rw [List.flatMap_replicate, List.flatMap_replicate, hbits, hbytes, List.flatten_replicate_replicate,
    List.flatten_replicate_replicate, Nat.mul_comm n, Nat.mul_comm n]
  exact ⟨rfl, rfl⟩

/-- A READ is over: its bits go out (R120). -/
def readEnds (s : State) (bits : List Bool) (cut : Bool) (r : Nat) : State :=
  frameDone (setHost (hsoPut s bits) { (hsoPut s bits).host with reading := true, cut := cut }) r

theorem readFrame_eq {s t : State} {addr count shifted r : Nat} {ws : List Word}
    (h : (List.range (min shifted count)).foldl (fun acc k => readOne (windowOf addr) acc (addr + k)) (admitFrame s, [], 0) =
      (t, ws, r)) :
    readFrame s addr count shifted = readEnds t ((ws.flatMap fun w => bitsMsb 32 w.toNat) ++
      if shifted < count then [] else bitsMsb 16 (crc16 (ws.flatMap fun w => beBytes 4 w.toNat))) (shifted < count) r := by
  simp only [readFrame, h, decide_eq_true_eq, readEnds]

/-- A READ whose words are all denied (R120, R135). -/
theorem readFrame_denied {s s0 : State} {addr count shifted n : Nat} (h0 : Denied (hostLevel s) false addr 0 s s0)
    (hn : n = min shifted count)
    (h : ∀ k < n, inBurst (windowOf addr) (addr + k) = true ∧ permitted s (hostLevel s) (addr + k) false = false) :
    Denied (hostLevel s) false addr n s (readFrame s0 addr count shifted) ∧
      (readFrame s0 addr count shifted).host.hso = s0.host.hso ++ (List.replicate (32 * n) false ++
        if shifted < count then [] else bitsMsb 16 (crc16 (List.replicate (4 * n) 0))) := by
  obtain ⟨t, r, hfold, hden, hhost⟩ := readFold_denied (s0 := admitFrame s0) (h0.setHost _) h
  obtain ⟨hbits, hbytes⟩ := flatMap_zeros n
  rw [hn] at hfold
  rw [readFrame_eq hfold, ← hn, hbits, hbytes]
  exact ⟨((hden.hsoPut _).setHost _).frameDone r, congrArg (·.hso ++ _) hhost⟩

/-- A WRITE whose words are all denied (R119, R135). -/
theorem writeFrame_denied {s s0 : State} {lvl : Level} {addr n : Nat} {ws : List Word} (h0 : Denied lvl true addr 0 s s0)
    (hn : ws.length = n) (hg : hostGate s = 2)
    (h : ∀ k < n, inBurst (windowOf addr) (addr + k) = true ∧ permitted s lvl (addr + k) true = false) :
    Denied lvl true addr n s (writeFrame s0 lvl addr ws) := by
  subst hn
  obtain ⟨t, r, hfold, hden⟩ := writeFold_denied (allowed := fun a => permitted s0 lvl a true) (s0 := admitFrame s0) ws
    (h0.setHost _) hg fun k hk => ⟨(h k hk).1, (h0.permitted_eq _ _ _).trans (h k hk).2⟩
  unfold writeFrame
  rw [hfold]
  dsimp only
  split
  · exact hden
  · exact hden.frameDone r

/-! ### The statement -/

/-- Settles O5: a command that is not permitted is denied before it does anything, and so is each word of a frame in its turn. -/
theorem deniedAccessesOnlyReport : Obligations.DeniedAccessesOnlyReport := by
  unfold Obligations.DeniedAccessesOnlyReport
  refine ⟨fun c s lvl a wr hc hp => ?command, fun s addr count crc hopen hhold hpos =>
    ⟨fun shifted n e hn hpos' hmax hcrc hden => ?read, fun words hlen hmax hg hcrc hden => ?write⟩⟩
  case command =>
    have h := (Denied.start lvl wr a s).deny
    obtain ⟨address, level, direction⟩ := h.last Nat.one_pos
    exact ⟨_, exec_denied hc hp, h.priv Nat.one_pos, h.count, address, level, direction, deny_only s lvl a wr⟩
  case read =>
    have h0 : Denied (hostLevel s) false addr.toNat 0 s (readBegins s e) := ((Denied.start _ _ _ s).hsoPut _).setHost _
    obtain ⟨h, hso⟩ := readFrame_denied h0 hn hden
    obtain ⟨address, level, direction⟩ := h.last hpos'
    exact ⟨_, exec_g2Read_runs hopen hhold hpos hmax hcrc shifted e, h.priv hpos', hso, h.count, address, level, direction,
      h.kept, h.frame⟩
  case write =>
    have h0 : Denied (hostLevel s) true addr.toNat 0 s (afterHead s (24 + 32 * words.length)) :=
      (Denied.start _ _ _ s).hsoPut _
    have h := writeFrame_denied h0 hlen hg hden
    obtain ⟨address, level, direction⟩ := h.last hpos
    exact ⟨_, exec_g2Write_runs hopen hhold hpos hmax hlen hcrc, h.priv hpos, h.count, address, level, direction, h.kept,
      h.frame⟩

end Sys2Proof.Machine

/-! The scheduler's lists (R145, R146, R153, R154, R169): what posting, the coexistence outputs and a turn leave. -/

namespace Sys2Proof.Machine

/-! ### The coexistence outputs (R169) -/

/-- Nothing but the coexistence outputs and the moments of their rises changed. -/
def OnlyCx (s t : State) : Prop :=
  t = { s with
    regs := t.regs
    sched := { s.sched with cxreqAt := t.sched.cxreqAt, cxLead := t.sched.cxLead, cxpriAt := t.sched.cxpriAt,
                            cxpriLead := t.sched.cxpriLead } } ∧
    FldsKept cxFlds s t

namespace OnlyCx

variable {s t u : State}

theorem refl (s : State) : OnlyCx s s := ⟨rfl, .refl _ s⟩

theorem setFld (h : OnlyCx s t) {f : Field} (hf : f ∈ cxFlds) (v : Nat) : OnlyCx s (setFld t f v) :=
  ⟨by rw [h.1]; rfl, h.2.setFld hf v⟩

theorem rose (h : OnlyCx s t) (n : Nat) (b : Bool) :
    OnlyCx s { t with sched := { t.sched with cxreqAt := n, cxLead := b } } := ⟨by rw [h.1], h.2.regs rfl⟩

theorem priRose (h : OnlyCx s t) (n : Nat) (b : Bool) :
    OnlyCx s { t with sched := { t.sched with cxpriAt := n, cxpriLead := b } } := ⟨by rw [h.1], h.2.regs rfl⟩

theorem ite {c : Prop} [Decidable c] (ht : OnlyCx s t) (hu : OnlyCx s u) : OnlyCx s (if c then t else u) := by
  split
  · exact ht
  · exact hu

end OnlyCx

theorem cxRequester_only (s : State) (mayFall : Bool) : OnlyCx s (cxRequester s mayFall) := by
  unfold cxRequester
  dsimp only
  exact ((OnlyCx.ite (.ite (.refl s) ((OnlyCx.refl s).rose _ _))
    (OnlyCx.priRose (.ite (.refl s) ((OnlyCx.refl s).rose _ _)) _ _)).setFld (by decide) _).setFld (by decide) _

theorem cxOutputs_only (s : State) (mayFall : Bool) : OnlyCx s (cxOutputs s mayFall) := by
  have hlow := ((OnlyCx.refl s).setFld (f := Fld.SYS_STAT_CXREQ) (by decide) 0).setFld (f := Fld.SYS_STAT_CXPRI) (by decide) 0
  unfold cxOutputs
  exact ((cxRequester_only s mayFall).setFld (by decide) _).ite ((hlow.setFld (by decide) _).ite (hlow.setFld (by decide) _))

/-! ### Posting (R145, R154) -/

/-- A request joins the list: nothing but the list, the credit of C3, the outputs and the grant point changed. -/
structure Posts (s t : State) (r : Request) : Prop where
  requests : t.sched.requests = s.sched.requests ++ [r]
  grants : t.sched.grants = s.sched.grants
  ops : t.sched.ops = s.sched.ops
  point : t.sched.point = true
  kept : FldsKept cxFlds s t
  state : t = { s with regs := t.regs, sched := t.sched }

theorem putRequest_posts (s : State) (r : Request) : Posts s (putRequest s r) r := by
  unfold putRequest cxPost
  obtain ⟨heq, hkept⟩ := cxOutputs_only (grantPoint { growCredit s with
    sched := { (growCredit s).sched with requests := (growCredit s).sched.requests ++ [r] } }) false
  dsimp only
  generalize cxOutputs _ false = t at heq hkept ⊢
  refine ⟨?_, ?_, ?_, ?_, (FldsKept.refl _ s).trans hkept, ?_⟩ <;> rw [heq] <;> rfl

theorem postRequest_of_not {s : State} {r : Request} (h : (asPostedNow s r).mask = 0 ∨ mayPost s r.who = false) :
    postRequest s r = (s, false) := by
  unfold postRequest
  exact if_pos (h.imp id fun h => by simpa [asPostedNow] using h)

/-- A request that is no scheduled C0 item stands as posted (R145). -/
theorem postRequest_of_plain {s : State} {r : Request} (hm : (asPostedNow s r).mask ≠ 0) (hp : mayPost s r.who = true)
    (hf : r.cls ≠ .c0 ∨ r.freeAt = none) : postRequest s r = (putRequest s (asPostedNow s r), true) := by
  have hno : ¬((asPostedNow s r).mask = 0 ∨ ¬mayPost s (asPostedNow s r).who = true) := not_or.2 ⟨hm, not_not.2 hp⟩
  unfold postRequest
  dsimp only
  rw [if_neg hno]
  cases ht : r.freeAt with
  | none => rw [show (asPostedNow s r).freeAt = none from ht]
  | some n =>
    rw [show (asPostedNow s r).freeAt = some n from ht]
    exact if_neg (hf.resolve_right (by simp [ht]))

/-- A scheduled C0 item that collides is counted, and not posted (R157). -/
theorem postRequest_of_collides {s : State} {r : Request} {n : Nat} (hm : (asPostedNow s r).mask ≠ 0)
    (hp : mayPost s r.who = true) (hc : r.cls = .c0) (hf : r.freeAt = some n) (hcol : collides s (asPostedNow s r) n = true) :
    postRequest s r = (incSat s Fld.SYS_SCHCNT3_COLLIDE 1, false) := by
  have hno : ¬((asPostedNow s r).mask = 0 ∨ ¬mayPost s (asPostedNow s r).who = true) := not_or.2 ⟨hm, not_not.2 hp⟩
  unfold postRequest
  dsimp only
  rw [if_neg hno, show (asPostedNow s r).freeAt = some n from hf]
  exact (if_pos hc).trans (if_pos hcol)

/-! ### Turns (log entry 35) -/

/-- The sets of the memory port, the tag store and Flint, which no coexistence role and no RF bias touches. -/
def quietSet (n : Nat) : Prop := n = resFlint ∨ n = resMsp ∨ n = resTagnvm

theorem asPostedNow_quiet (s : State) {r : Request} {n : Nat} (hn : quietSet n) (hm : r.mask = 2 ^ n) (ha : r.air = .none) :
    (asPostedNow s r).mask = 2 ^ n := by
  have hw : wantsCoex s r.air r.mask = false := by
    rcases hn with rfl | rfl | rfl <;> simp [wantsCoex, ha, hm, resFlint, resMsp, resTagnvm, resHfd, Nat.testBit]
  have hand : 2 ^ n &&& 0x7FE = 2 ^ n := by rcases hn with rfl | rfl | rfl <;> decide
  simp only [asPostedNow, withCoex, hw]
  simp [hm, hand]

theorem asPostedNow_quiet_ne_zero (s : State) {r : Request} {n : Nat} (hn : quietSet n) (hm : r.mask = 2 ^ n)
    (ha : r.air = .none) : (asPostedNow s r).mask ≠ 0 := by
  rw [asPostedNow_quiet s hn hm ha]
  exact (Nat.two_pow_pos n).ne'

theorem countGrant_quiet (s : State) {r : Request} {n : Nat} (hn : quietSet n) (hm : r.mask = 2 ^ n) (hw : r.waitedOn = 0) :
    countGrant s r = incSat s (Fld.SYS_RES_GRANT_GRANTS n) 1 := by
  have hl : bitList 11 r.mask = [n] := by rw [hm]; rcases hn with rfl | rfl | rfl <;> decide
  simp [countGrant, hl, hw, incSat, Fld.SYS_RES_GRANT_GRANTS]

/-- Nothing changed but the count of the grants of a resource. -/
structure Counted (n : Nat) (s u : State) : Prop where
  state : u = { s with regs := u.regs }
  kept : FldsKept [Fld.SYS_RES_GRANT_GRANTS n] s u

theorem Counted.refl (n : Nat) (s : State) : Counted n s s := ⟨rfl, .refl _ s⟩

theorem Counted.incSat (n : Nat) (s : State) : Counted n s (incSat s (Fld.SYS_RES_GRANT_GRANTS n) 1) :=
  ⟨rfl, (FldsKept.refl _ s).setFld List.mem_cons_self _⟩

theorem Counted.reg_eq {n : Nat} {s u : State} (h : Counted n s u) {a : Nat} (ha : a ≠ Adr.SYS_RES_GRANT n) :
    reg u a = reg s a := h.kept.reg_eq fun _ hg => List.mem_singleton.1 hg ▸ ha

/-- An operation whose turn has come runs in this step, on the state as it is or with its grant counted, and at most makes a grant
point (R145). -/
theorem turnOr_now {s : State} {r : Request} {n : Nat} (hn : quietSet n) (hm : r.mask = 2 ^ n) (ha : r.air = .none)
    (hw : r.waitedOn = 0) (h : turnNow s r = true) {run : State → State} (hrun : ∀ u, (run u).sched = u.sched)
    (wait : State → State) :
    ∃ u x t, turnOr s r run wait = t ∧ Counted n s u ∧ run u = x ∧ TurnTaken s t ∧ t = { x with sched := t.sched } := by
  have hmask := asPostedNow_quiet s hn hm ha
  have hrf : meets (2 ^ n) rfMask = false := by rcases hn with rfl | rfl | rfl <;> decide
  unfold turnOr
  dsimp only
  by_cases h1 : (!arbitrated s || covers (holdsOf s (asPostedNow s r).who) (asPostedNow s r).mask) = true
  · rw [if_pos h1]
    exact ⟨s, _, _, rfl, .refl n s, rfl, .inl (hrun s), rfl⟩
  · have h2 : (mayPost s (asPostedNow s r).who && atOnce s (asPostedNow s r)) = true :=
      (Bool.or_eq_true_iff.1 h).resolve_left h1
    rw [if_neg h1, if_pos h2, hmask, rfStart, if_neg (by simp [hrf]), rfOver, if_neg (by simp [hrf]),
      countGrant_quiet s hn hmask hw]
    refine ⟨_, _, _, rfl, .incSat n s, rfl, .inr ?_, rfl⟩
    rw [grantPoint, hrun]
    rfl

/-- An operation whose turn has not come notes that it waits and posts its request. -/
theorem turnOr_later {s : State} {r : Request} (h : turnNow s r = false) (run wait : State → State) :
    turnOr s r run wait = (postRequest (wait s) r).1 := by
  obtain ⟨h1, h2⟩ := Bool.or_eq_false_iff.1 h
  unfold turnOr
  dsimp only
  rw [if_neg (by rw [show (asPostedNow s r).who = r.who from rfl, h1]; exact Bool.false_ne_true),
    if_neg (by rw [show (asPostedNow s r).who = r.who from rfl, h2]; exact Bool.false_ne_true)]

/-- What is posted as the request of an operation that waits (R145, R154). -/
theorem turn_waits {s w : State} {r : Request} (hm : (asPostedNow s r).mask ≠ 0) (hf : r.freeAt = none) {l : List Field}
    (hw : FldsKept l s w) (hcx : ∀ g ∈ l, Adr.SYS_CXCFG ≠ g.addr) (hsched : w.sched = s.sched) (hclk : w.clk = s.clk)
    (h : turnNow s r = false) (cmd : Instr) (run : State → State) {wait : State → State} (hwait : wait s = w) :
    ∃ t, turn s r cmd run wait = t ∧ TurnWaits s t r cmd ∧ FldsKept cxFlds w t ∧
      t = { w with regs := t.regs, sched := t.sched } := by
  have hreg : reg w Adr.SYS_CXCFG = reg s Adr.SYS_CXCFG := hw.reg_eq hcx
  let v : State := { w with sched := { w.sched with ops := w.sched.ops ++ [{ req := r, cmd := cmd }] } }
  have hposted : asPostedNow v r = asPostedNow s r := by
    have hrole : cxRole v = cxRole s := congrArg (fun x => bitsOf x _ _) hreg
    have hflag : ∀ f : Field, f.addr = Adr.SYS_CXCFG → flag v f = flag s f := fun f hf => by
      unfold flag fld
      rw [hf, show reg v Adr.SYS_CXCFG = reg w Adr.SYS_CXCFG from rfl, hreg]
    have hwants : wantsCoex v r.air r.mask = wantsCoex s r.air r.mask := by
      unfold wantsCoex
      rw [hrole, hflag _ rfl, hflag _ rfl, hflag _ rfl]
    unfold asPostedNow withCoex
    rw [hwants, hrole, show v.clk = s.clk from hclk]
  have hmay : mayPost v r.who = mayPost s r.who := by
    unfold mayPost posted grantOf
    rw [show v.sched.requests = w.sched.requests from rfl, show v.sched.grants = w.sched.grants from rfl, hsched]
  refine ⟨_, rfl, ?_⟩
  unfold turn
  rw [turnOr_later h]
  dsimp only
  rw [hwait]
  change TurnWaits s (postRequest v r).1 r cmd ∧ FldsKept cxFlds w (postRequest v r).1 ∧
    (postRequest v r).1 = { w with regs := (postRequest v r).1.regs, sched := (postRequest v r).1.sched }
  have hkept : FldsKept cxFlds w v := (FldsKept.refl _ w).regs rfl
  by_cases hp : mayPost s r.who = true
  · rw [postRequest_of_plain (hposted ▸ hm) (hmay.trans hp) (.inr hf)]
    have hposts := putRequest_posts v (asPostedNow v r)
    refine ⟨⟨?_, ?_, ?_⟩, hkept.trans hposts.kept, hposts.state⟩
    · rw [hposts.ops, ← hsched]
    · rw [hposts.grants, ← hsched]
    · rw [hposts.requests, hposted, if_pos hp, ← hsched]
  · rw [postRequest_of_not (.inr (by rw [hmay]; simpa using hp))]
    refine ⟨⟨?_, ?_, ?_⟩, hkept, rfl⟩
    · rw [← hsched]
    · rw [← hsched]
    · rw [if_neg hp, ← hsched]

end Sys2Proof.Machine

/-! The load of the processor (R173, R175): `SYS_LOAD`, SHED and OVERLOAD. -/

namespace Sys2Proof.Machine

theorem fld_lt (s : State) (f : Field) : fld s f < 2 ^ (f.hi + 1 - f.lo) := Nat.mod_lt _ (Nat.two_pow_pos _)

/-- A field that is wide enough reads back what was written to it. -/
theorem fld_setFld_of_lt (s : State) {f : Field} {v : Nat} (h : f.hi < 32) (hv : v < 2 ^ (f.hi + 1 - f.lo)) :
    fld (setFld s f v) f = v := (fld_setFld_self s f v h).trans (Nat.mod_eq_of_lt hv)

/-- OVERLOAD shows whether SHED is above 0 (R175). -/
theorem overload_view (t : State) :
    bitsOf (readWord t Adr.SYS_STAT).1 7 7 = if fld t Fld.SYS_STAT_SHED = 0 then 0 else 1 := by
  have hview : (readWord t Adr.SYS_STAT).1 = sysStat t := rfl
  rw [hview, sysStat, bitsOf_putBits_same _ _ (by decide)]
  by_cases h : fld t Fld.SYS_STAT_SHED = 0 <;> simp [h]

/-- The load and its peak as a sample records them. -/
def loadRecorded (s : State) (load : Nat) : State :=
  setFld (setFld s Fld.SYS_LOAD_LOAD load) Fld.SYS_LOAD_PEAK (max load (fld s Fld.SYS_LOAD_PEAK))

theorem exec_loadSample (load : Fin 1001) (s : State) : exec (.loadSample load) s = .next (loadSample s load) := rfl

theorem loadSample_asleep {s : State} (h : mode s < 3) (load : Nat) : loadSample s load = s := if_pos h

/-- A sample of an awake processor raises SHED, lowers it, or leaves it (R173). -/
theorem loadSample_awake {s : State} (h : 3 ≤ mode s) (load : Nat) : loadSample s load =
    if 850 < load ∧ fld s Fld.SYS_STAT_SHED < 4 then
      if fld s Fld.SYS_STAT_SHED = 0 then raise (setFld (loadRecorded s load) Fld.SYS_STAT_SHED (fld s Fld.SYS_STAT_SHED + 1)) 2
      else setFld (loadRecorded s load) Fld.SYS_STAT_SHED (fld s Fld.SYS_STAT_SHED + 1)
    else if load < 750 ∧ 0 < fld s Fld.SYS_STAT_SHED then
      setFld (loadRecorded s load) Fld.SYS_STAT_SHED (fld s Fld.SYS_STAT_SHED - 1)
    else loadRecorded s load := if_neg (by omega)

theorem loadRecorded_fields (s : State) (load : Fin 1001) :
    fld (loadRecorded s load) Fld.SYS_LOAD_LOAD = load ∧
      fld (loadRecorded s load) Fld.SYS_LOAD_PEAK = max load.val (fld s Fld.SYS_LOAD_PEAK) := by
  have hpeak : fld s Fld.SYS_LOAD_PEAK < 1024 := fld_lt s Fld.SYS_LOAD_PEAK
  have hload := load.isLt
  refine ⟨?_, fld_setFld_of_lt _ (by decide) (show _ < 1024 by omega)⟩
  rw [loadRecorded, fld_setFld_apart _ _ _ _ (by decide)]
  exact fld_setFld_of_lt s (by decide) (show load.val < 1024 by omega)

/-- What a sample leaves, by the value that SHED takes. -/
structure LoadSampled (s t : State) (load : Fin 1001) (shed : Nat) : Prop where
  load_eq : fld t Fld.SYS_LOAD_LOAD = load
  peak_eq : fld t Fld.SYS_LOAD_PEAK = max load.val (fld s Fld.SYS_LOAD_PEAK)
  shed_eq : fld t Fld.SYS_STAT_SHED = shed
  only : OnlyFlds [Fld.SYS_LOAD_LOAD, Fld.SYS_LOAD_PEAK, Fld.SYS_STAT_SHED, intBit 2] s t

namespace LoadSampled

variable {s t : State} {load : Fin 1001} {shed : Nat}

theorem recorded (s : State) (load : Fin 1001) : LoadSampled s (loadRecorded s load) load (fld s Fld.SYS_STAT_SHED) where
  load_eq := (loadRecorded_fields s load).1
  peak_eq := (loadRecorded_fields s load).2
  shed_eq := by
    rw [loadRecorded, fld_setFld_apart _ _ _ _ (by decide), fld_setFld_apart _ _ _ _ (by decide)]
  only := ((OnlyFlds.refl _ s).setFld (by decide) _).setFld (by decide) _

theorem setShed (h : LoadSampled s t load shed) {n : Nat} (hn : n < 8) :
    LoadSampled s (setFld t Fld.SYS_STAT_SHED n) load n where
  load_eq := (fld_setFld_apart t _ _ n (by decide)).trans h.load_eq
  peak_eq := (fld_setFld_apart t _ _ n (by decide)).trans h.peak_eq
  shed_eq := fld_setFld_of_lt t (by decide) hn
  only := h.only.setFld (by decide) n

theorem raise (h : LoadSampled s t load shed) : LoadSampled s (raise t 2) load shed where
  load_eq := (fld_setFld_apart t _ _ 1 (by decide)).trans h.load_eq
  peak_eq := (fld_setFld_apart t _ _ 1 (by decide)).trans h.peak_eq
  shed_eq := (fld_setFld_apart t _ _ 1 (by decide)).trans h.shed_eq
  only := h.only.setFlag (by decide)

end LoadSampled

/-- The value that SHED takes on a sample (R173). -/
def shedAfter (shed load : Nat) : Nat :=
  if 850 < load ∧ shed < 4 then shed + 1 else if load < 750 ∧ 0 < shed then shed - 1 else shed

theorem loadSample_sampled {s : State} (h : 3 ≤ mode s) (load : Fin 1001) :
    LoadSampled s (loadSample s load) load (shedAfter (fld s Fld.SYS_STAT_SHED) load) := by
  have hshed : fld s Fld.SYS_STAT_SHED < 8 := fld_lt s Fld.SYS_STAT_SHED
  have hrec := LoadSampled.recorded s load
  rw [loadSample_awake h, shedAfter]
  split_ifs with hup hzero hdown
  · exact (hrec.setShed (by omega)).raise
  · exact hrec.setShed (by omega)
  · exact hrec.setShed (by omega)
  · exact hrec

/-- SHED leaves 0 with its interrupt (R173). -/
theorem flag_loadSample_of_rise {s : State} (h : 3 ≤ mode s) {load : Nat} (h0 : fld s Fld.SYS_STAT_SHED = 0)
    (hr : 850 < load) : flag (loadSample s load) (intBit 2) = true := by
  rw [loadSample_awake h, if_pos ⟨hr, by omega⟩, if_pos h0]
  exact flag_raise_self _ 2 (by decide)

/-- Settles O17: a sample records the load and moves SHED by at most one step, with the interrupt as it leaves 0. -/
theorem loadMovesShed : Obligations.LoadMovesShed := by
  unfold Obligations.LoadMovesShed
  refine fun s load => ⟨fun h => ?asleep, fun h => ?awake⟩
  case asleep => rw [exec_loadSample, loadSample_asleep h]
  case awake =>
    obtain ⟨hload, hpeak, hshed, honly⟩ := loadSample_sampled h load
    refine ⟨_, exec_loadSample load s, hload, overload_view _, hpeak, ?_, ?_, ?_, ?_, ?_, fun h0 hne => ?_, honly⟩
    case refine_6 =>
      refine flag_loadSample_of_rise h h0 (by_contra fun hr => hne ?_)
      rw [hshed, shedAfter, if_neg (by omega), if_neg (by omega), h0]
    all_goals
      rw [hshed, shedAfter]
      split_ifs <;> omega

end Sys2Proof.Machine

/-! The serial NOR and the host's commands on it (R464–R467). -/

namespace Sys2Proof.Machine

/-! ### Bytes of the NOR -/

/-- Erasing leaves every byte outside its range. -/
theorem byteAt_bytesErase (m : Bytes) (a n b : Nat) :
    byteAt (bytesErase m a n) b = if a ≤ b ∧ b < a + n then erasedByte else byteAt m b := by
  unfold bytesErase
  induction m with
  | nil => simp [byteAt]
  | cons c m ih =>
    obtain ⟨k, v⟩ := c
    rw [List.filter_cons]
    by_cases hin : a ≤ k ∧ k < a + n
    · rw [if_neg (by simpa using hin), ih]
      by_cases hb : b = k
      · rw [if_pos (hb ▸ hin), if_pos (hb ▸ hin)]
      · rw [byteAt, if_neg hb]
    · rw [if_pos (by simp only [Bool.or_eq_true, decide_eq_true_eq]; omega), byteAt, ih]
      by_cases hb : b = k
      · rw [if_pos hb, if_neg (hb ▸ hin), byteAt, if_pos hb]
      · rw [if_neg hb, byteAt, if_neg hb]

/-- Programming clears the bits of each byte of its range that its data has clear, and leaves the others (R465). -/
theorem byteAt_norProgram {m : Bytes} (h : bytesWf m = true) {a : Nat} (l : List Byte) (ha : a + l.length ≤ norSize) (b : Nat) :
    byteAt (norProgram m a l) b =
      if a ≤ b ∧ b < a + l.length then byteAt m b &&& l.getD (b - a) 0 else byteAt m b := by
  induction l generalizing m a with
  | nil => simp [norProgram]
  | cons v l ih =>
    rw [List.length_cons] at ha
    have hmod : a % norSize = a := Nat.mod_eq_of_lt (by omega)
    rw [norProgram, hmod, ih (bytesWf_bytePut h _ _) (by omega), List.length_cons, byteAt_bytePut h]
    rcases Nat.lt_trichotomy b a with hlt | rfl | hgt
    · rw [if_neg (by omega), if_neg (by omega), if_neg (by omega)]
    · rw [if_neg (by omega), if_pos rfl, if_pos (by omega), Nat.sub_self, List.getD_cons_zero]
    · have hk : b - a = b - (a + 1) + 1 := by omega
      by_cases hin : b < a + 1 + l.length
      · rw [if_pos ⟨hgt, hin⟩, if_neg (by omega), if_pos (by omega), hk, List.getD_cons_succ]
      · rw [if_neg (by omega), if_neg (by omega), if_neg (by omega)]

theorem length_norBytes (s : State) (a n : Nat) : (norBytes s a n).length = n := by simp [norBytes]

theorem norBytes_congr {s u : State} (h : u.mem.nor = s.mem.nor) (a n : Nat) : norBytes u a n = norBytes s a n := by
  rw [norBytes, h, norBytes]

/-- The words that bytes of the NOR make up. -/
theorem packWords_norBytes (s : State) (n a : Nat) :
    packWords (norBytes s a (4 * n)) = (List.range n).map fun w => BitVec.ofNat 32 (leNat (norBytes s (a + 4 * w) 4)) := by
  induction n generalizing a with
  | zero => rfl
  | succ n ih =>
    have hsplit : norBytes s a (4 * (n + 1)) = norBytes s a 4 ++ norBytes s (a + 4) (4 * n) := by
      unfold norBytes
      rw [show 4 * (n + 1) = 4 + 4 * n by omega, List.range_add, List.map_append, List.map_map]
      exact congrArg _ (List.map_congr_left fun k _ => congrArg (fun x => byteAt s.mem.nor (x % norSize)) (Nat.add_assoc a 4 k).symm)
    rw [hsplit, List.range_succ_eq_map, List.map_cons, List.map_map]
    refine congrArg (List.cons _) ((ih (a + 4)).trans (List.map_congr_left fun w _ => ?_))
    rw [Function.comp_apply, show a + 4 * w.succ = a + 4 + 4 * w by omega]

theorem drawBytes_frame (n : Nat) (s : State) :
    (drawBytes n s).1.length = n ∧ (drawBytes n s).2 = { s with drawn := (drawBytes n s).2.drawn } := by
  induction n with
  | zero => exact ⟨rfl, rfl⟩
  | succ n ih =>
    obtain ⟨hlen, heq⟩ := ih
    refine ⟨by simp [drawBytes, hlen], ?_⟩
    rw [drawBytes, drawWord]
    dsimp only
    rw [heq]

/-! ### Registers written in a row -/

/-- Words written to a row of registers read back, and no other register changes. -/
theorem reg_foldl_setReg {A : Nat → Nat} (hA : A.Injective) (g : Nat → Word) (L : List Nat) (s : State) (k : Nat) :
    reg (L.foldl (fun u k => setReg u (A k) (g k)) s) (A k) = if k ∈ L then g k else reg s (A k) := by
  induction L generalizing s with
  | nil => simp
  | cons j L ih =>
    rw [List.foldl_cons, ih, reg_setReg]
    by_cases hk : k = j
    · simp [hk]
    · simp [hk, hA.ne hk]

theorem setReg_foldl_only {l : List Field} {A : Nat → Nat} (g : Nat → Word) (L : List Nat) (s : State)
    (h : ∀ k ∈ L, whole (A k) ∈ l) : OnlyFlds l s (L.foldl (fun u k => setReg u (A k) (g k)) s) :=
  foldl_onlyFlds _ L (fun k hk _ hu => hu.setReg (h k hk) _) (.refl l s)

theorem foldl_setReg_fresh {A : Nat → Nat} (g : Nat → Word) (L : List Nat) (s : State) :
    (L.foldl (fun u k => setReg u (A k) (g k)) s).fresh = s.fresh := by
  induction L generalizing s with
  | nil => rfl
  | cons k L ih => exact ih _

/-! ### A field written with what it holds -/

theorem putBits_bitsOf (w : Word) (hi lo : Nat) : putBits w hi lo (bitsOf w hi lo) = w := by
  apply BitVec.eq_of_getLsbD_eq
  intro i hi32
  rw [getLsbD_putBits, testBit_bitsOf]
  split
  · next h => rw [show lo + (i - lo) = i by omega, decide_eq_true (by omega), Bool.true_and]
  · rfl

theorem FldsKept.setFld_same {l : List Field} {s t : State} (h : FldsKept l s t) {f : Field} {v : Nat} (hv : fld t f = v) :
    FldsKept l s (Machine.setFld t f v) := by
  refine h.trans fun g _ => ?_
  subst hv
  have hreg : ∀ a, reg (Machine.setFld t f (fld t f)) a = reg t a := fun a => by
    rw [Machine.setFld, reg_setReg, fld, putBits_bitsOf]
    split
    · next e => rw [e]
    · rfl
  exact congrArg (bitsOf · g.hi g.lo) (hreg g.addr)

/-! ### The commands (R467) -/

theorem mspDone_result (u : State) {r : Nat} (hr : r < 8) : fld (mspDone u r) Fld.MSP_HSTAT_RESULT = r :=
  fld_setFld_of_lt _ (by decide) hr

theorem mspDone_flds {l : List Field} {s u : State} (h : FldsKept l s u) (hl : Fld.MSP_HSTAT_RESULT ∈ l)
    (hb : fld u Fld.MSP_HSTAT_BUSY = 0) (r : Nat) : FldsKept l s (mspDone u r) := (h.setFld_same hb).setFld hl r

theorem hbuf_injective : Function.Injective Adr.MSP_HBUF := fun _ _ h => Nat.add_left_cancel h

/-- The host buffer with bytes of the NOR in it. -/
def mspFilled (s : State) (a : Nat) : State :=
  (List.range 16).foldl (fun u w => setReg u (Adr.MSP_HBUF w) (BitVec.ofNat 32 (leNat (norBytes s (a + 4 * w) 4)))) s

theorem mspRead_eq (s : State) (a : Nat) : mspRead s a = mspDone (mspFilled s a) 1 := by
  unfold mspRead mspFilled
  rw [show 64 = 4 * 16 from rfl, packWords_norBytes, ← List.map_id (List.range 16), List.map_map, List.zip_map',
    List.foldl_map]
  simp

/-! READ fills the buffer and leaves the NOR. -/

def hbufFlds : List Field := (List.range 16).map fun w => whole (Adr.MSP_HBUF w)

theorem mspFilled_only (s : State) (a : Nat) : OnlyFlds hbufFlds s (mspFilled s a) :=
  setReg_foldl_only _ _ s fun _ hk => List.mem_map_of_mem hk

theorem mspFilled_state (s : State) (a : Nat) : mspFilled s a = { s with regs := (mspFilled s a).regs } := by
  rw [(mspFilled_only s a).1, mspFilled, foldl_setReg_fresh]

theorem mspRead_state (s : State) (a : Nat) : mspRead s a = { s with regs := (mspRead s a).regs } := by
  have h := mspFilled_state s a
  rw [mspRead_eq]
  generalize mspFilled s a = u at h ⊢
  rw [h]
  rfl

theorem reg_mspRead (s : State) (a : Nat) (w : Fin 16) :
    reg (mspRead s a) (Adr.MSP_HBUF w) = BitVec.ofNat 32 (leNat (norBytes s (a + 4 * w) 4)) := by
  have hne : Adr.MSP_HBUF w ≠ Adr.MSP_HSTAT := by unfold Adr.MSP_HBUF Adr.MSP_HSTAT; omega
  rw [mspRead_eq, mspDone, mspResult, reg_setFld_ne _ _ _ hne, clrFld, reg_setFld_ne _ _ _ hne, mspFilled,
    reg_foldl_setReg hbuf_injective (fun w => BitVec.ofNat 32 (leNat (norBytes s (a + 4 * w) 4))),
    if_pos (List.mem_range.2 w.isLt)]

theorem mspRead_flds {s : State} (hb : fld s Fld.MSP_HSTAT_BUSY = 0) (a : Nat) :
    FldsKept (Fld.MSP_HSTAT_RESULT :: hbufFlds) s (mspRead s a) := by
  have honly := mspFilled_only s a
  rw [mspRead_eq]
  refine mspDone_flds (honly.2.mono fun _ => List.mem_cons_of_mem _) List.mem_cons_self ?_ 1
  refine (honly.2.fld_eq ?_).trans hb
  simp only [hbufFlds, List.mem_map, List.mem_range, forall_exists_index, and_imp, forall_apply_eq_imp_iff₂]
  exact fun w _ => .inl (by simp only [Fld.MSP_HSTAT_BUSY, whole, Adr.MSP_HSTAT, Adr.MSP_HBUF]; omega)

/-! PROGRAM clears bits of the bytes in its range (R465). -/

theorem length_unpackWords (ws : List Word) : (unpackWords ws).length = 4 * ws.length := by
  induction ws with
  | nil => rfl
  | cons w ws ih =>
    rw [unpackWords, List.flatMap_cons, List.length_append, List.length_cons, ← unpackWords, ih]
    simp [leBytes]
    omega

theorem length_mspBuffer_take (s : State) : ((mspBuffer s).take (mspLen s)).length = mspLen s := by
  rw [List.length_take, mspBuffer, length_unpackWords, List.length_map, List.length_range, mspLen]
  omega

theorem mspLen_counted {s u : State} (h : Counted resMsp s u) : mspLen u = mspLen s := by
  rw [mspLen, fld, h.reg_eq (by decide), mspLen, fld]

theorem mspBuffer_counted {s u : State} (h : Counted resMsp s u) : mspBuffer u = mspBuffer s := by
  unfold mspBuffer
  exact congrArg unpackWords (List.map_congr_left fun w _ => h.reg_eq
    (by simp only [Adr.MSP_HBUF, Adr.SYS_RES_GRANT, resMsp]; omega))

/-- The bytes that a PROGRAM leaves in the NOR. -/
def mspProgrammed (s : State) (a : Nat) (ok : Bool) : Bytes :=
  if ok then norProgram s.mem.nor a ((mspBuffer s).take (mspLen s)) else bytesPut s.mem.nor a (drawBytes (mspLen s) s).1

theorem mspProgram_eq (s : State) (a : Nat) (ok : Bool) : ∃ d, mspProgram s a ok = mspDone { s with
    mem := { s.mem with nor := mspProgrammed s a ok }, drawn := d }
    (if ok = true ∧ norBytes { s with mem := { s.mem with nor := mspProgrammed s a ok } } a (mspLen s) =
      (mspBuffer s).take (mspLen s) then 1 else 4) := by
  cases ok with
  | true => exact ⟨s.drawn, by simp [mspProgram, mspProgrammed]⟩
  | false =>
    refine ⟨(drawBytes (mspLen s) s).2.drawn, ?_⟩
    rw [mspProgram, if_neg Bool.false_ne_true]
    dsimp only
    rw [(drawBytes_frame (mspLen s) s).2]
    simp [norStore, mspProgrammed]

theorem byteAt_mspProgrammed_out {s : State} (h : bytesWf s.mem.nor = true) {a : Nat} (ha : a + mspLen s ≤ norSize) (ok : Bool)
    {b : Nat} (hb : b < a ∨ a + mspLen s ≤ b) : byteAt (mspProgrammed s a ok) b = byteAt s.mem.nor b := by
  have hlen := length_mspBuffer_take s
  cases ok with
  | true =>
    rw [mspProgrammed, if_pos rfl, byteAt_norProgram h _ (by rw [hlen]; exact ha), if_neg (by omega)]
  | false => exact byteAt_bytesPut_ne h _ _ _ ((drawBytes_frame (mspLen s) s).1.symm ▸ hb)

theorem byteAt_mspProgrammed_in {s : State} (h : bytesWf s.mem.nor = true) {a : Nat} (ha : a + mspLen s ≤ norSize)
    {k : Nat} (hk : k < mspLen s) :
    byteAt (mspProgrammed s a true) (a + k) = byteAt s.mem.nor (a + k) &&& (mspBuffer s).getD k 0 := by
  have hlen := length_mspBuffer_take s
  rw [mspProgrammed, if_pos rfl, byteAt_norProgram h _ (by rw [hlen]; exact ha), if_pos (by omega), Nat.add_sub_cancel_left,
    List.getD_eq_getElem?_getD, List.getElem?_take_of_lt hk, ← List.getD_eq_getElem?_getD]

/-- A command of `MSP_HCMD` that is permitted (R131). -/
theorem exec_msp {s : State} {lvl : Level} (h : permitted s lvl Adr.MSP_HCMD true = true) (addr : BitVec 24) (ok : Bool) :
    exec (.mspRead lvl addr) s = .next (mspReadCmd s lvl addr) ∧
      exec (.mspProgram lvl addr ok) s = .next (mspProgramCmd s lvl addr ok) ∧
      exec (.mspErase lvl addr) s = .next (mspEraseCmd s lvl addr) :=
  ⟨congrArg next (if_pos h), congrArg next (if_pos h), congrArg next (if_pos h)⟩

section Command

variable {s : State} {refused : Bool} {cmd : Instr} {run : State → State}

theorem mspCommand_busy (h : fld s Fld.MSP_HSTAT_BUSY = 1) : mspCommand s refused cmd run = mspResult s 3 :=
  if_pos (by simp [flag, h])

theorem mspCommand_refused (h : fld s Fld.MSP_HSTAT_BUSY = 0) (hr : refused = true) :
    mspCommand s refused cmd run = mspResult s 2 := (if_neg (by simp [flag, h])).trans (if_pos hr)

theorem mspCommand_turn (h : fld s Fld.MSP_HSTAT_BUSY = 0) (hr : refused = false) : mspCommand s refused cmd run =
    turn s (mspRequest .memPort .c1) cmd run fun t => setFlag t Fld.MSP_HSTAT_BUSY :=
  (if_neg (by simp [flag, h])).trans (if_neg (by simp [hr]))

/-- A command that is ignored or refused leaves its result alone (R467). -/
theorem mspResult_only (s : State) {r : Nat} (hr : r < 8) :
    fld (mspResult s r) Fld.MSP_HSTAT_RESULT = r ∧ OnlyFlds [Fld.MSP_HSTAT_RESULT] s (mspResult s r) :=
  ⟨fld_setFld_of_lt s (by decide) hr, (OnlyFlds.refl _ s).setFld (by decide) r⟩

/-- A command whose turn has not come waits with BUSY set. -/
theorem mspCommand_waits (h : fld s Fld.MSP_HSTAT_BUSY = 0) (hr : refused = false)
    (hturn : turnNow s (mspRequest .memPort .c1) = false) :
    ∃ t, mspCommand s refused cmd run = t ∧ fld t Fld.MSP_HSTAT_BUSY = 1 ∧ TurnWaits s t (mspRequest .memPort .c1) cmd ∧
      FldsKept (Fld.MSP_HSTAT_BUSY :: cxFlds) s t ∧ t = { s with regs := t.regs, fresh := t.fresh, sched := t.sched } := by
  have hset : FldsKept (Fld.MSP_HSTAT_BUSY :: cxFlds) s (setFlag s Fld.MSP_HSTAT_BUSY) :=
    (FldsKept.refl _ s).setFlag List.mem_cons_self
  obtain ⟨t, ht, hwaits, hkept, hstate⟩ := turn_waits (asPostedNow_quiet_ne_zero s (.inr (.inl rfl)) rfl rfl) rfl hset
    (by decide) rfl rfl hturn cmd run (wait := fun t => setFlag t Fld.MSP_HSTAT_BUSY) rfl
  refine ⟨t, (mspCommand_turn h hr).trans ht, ?_, hwaits, hset.trans (hkept.mono fun _ => List.mem_cons_of_mem _), ?_⟩
  · exact (hkept.fld_eq (by unfold Field.apart; decide)).trans (fld_setFld_of_lt s (by decide) (by decide))
  · rw [hstate]
    rfl

/-- A command whose turn has come runs. -/
theorem mspCommand_runs (h : fld s Fld.MSP_HSTAT_BUSY = 0) (hr : refused = false)
    (hturn : turnNow s (mspRequest .memPort .c1) = true) (hrun : ∀ u, (run u).sched = u.sched) :
    ∃ u x t, mspCommand s refused cmd run = t ∧ Counted resMsp s u ∧ fld u Fld.MSP_HSTAT_BUSY = 0 ∧ run u = x ∧
      TurnTaken s t ∧ t = { x with sched := t.sched } := by
  obtain ⟨u, x, t, ht, hu, hrest⟩ := turnOr_now (.inr (.inl rfl)) rfl rfl rfl hturn hrun
    fun u => { setFlag u Fld.MSP_HSTAT_BUSY with
      sched := { (setFlag u Fld.MSP_HSTAT_BUSY).sched with
        ops := (setFlag u Fld.MSP_HSTAT_BUSY).sched.ops ++ [{ req := mspRequest .memPort .c1, cmd := cmd }] } }
  exact ⟨u, x, t, (mspCommand_turn h hr).trans ht, hu, (fld_of_reg_eq (hu.reg_eq (by decide))).trans h, hrest⟩

end Command

theorem mspDone_state (s : State) (r : Nat) : mspDone s r = { s with regs := (mspDone s r).regs } := rfl

/-- The registers that a command's run may write, its grant counted. -/
theorem mspRan_flds {s u x t : State} {l : List Field} (hu : Counted resMsp s u) (hstate : t = { x with sched := t.sched })
    (hrun : FldsKept (Fld.MSP_HSTAT_RESULT :: l) u x) :
    FldsKept (Fld.MSP_HSTAT_RESULT :: Fld.SYS_RES_GRANT_GRANTS resMsp :: l) s t := by
  have hregs : t.regs = x.regs := by rw [hstate]
  refine ((hu.kept.mono ?_).trans (hrun.mono ?_)).regs hregs <;> simp +contextual

theorem mspRead_runs {s : State} {addr : BitVec 24} {lvl : Level} (hb : fld s Fld.MSP_HSTAT_BUSY = 0)
    (hr : mspReadRefused s addr.toNat = false) (hturn : turnNow s (mspRequest .memPort .c1) = true) :
    ∃ t, mspReadCmd s lvl addr = t ∧ fld t Fld.MSP_HSTAT_RESULT = 1 ∧
      (∀ w : Fin 16, reg t (Adr.MSP_HBUF w) = BitVec.ofNat 32 (leNat (norBytes s (addr.toNat + 4 * w) 4))) ∧ TurnTaken s t ∧
      FldsKept (Fld.MSP_HSTAT_RESULT :: Fld.SYS_RES_GRANT_GRANTS resMsp :: hbufFlds) s t ∧
      t = { s with regs := t.regs, sched := t.sched } := by
  obtain ⟨u, x, t, ht, hu, hub, hx, htaken, hstate⟩ := mspCommand_runs (cmd := .mspRead lvl addr) hb hr hturn
    (run := fun u => mspRead u addr.toNat) fun u => by rw [mspRead_state]
  have hregs : t.regs = x.regs := by rw [hstate]
  have hreg : ∀ a, reg t a = reg x a := fun a => by rw [reg, hregs, reg]
  refine ⟨t, ht, ?_, fun w => ?_, htaken, mspRan_flds hu hstate (hx ▸ mspRead_flds hub _), ?_⟩
  · rw [fld_congr hregs, ← hx, mspRead_eq]
    exact mspDone_result _ (by decide)
  · rw [hreg, ← hx, reg_mspRead, norBytes_congr (show u.mem.nor = s.mem.nor by rw [hu.state])]
  · have hxs : x = { u with regs := x.regs } := hx ▸ mspRead_state u addr.toNat
    rw [hstate, hxs, hu.state]

theorem mspProgram_runs {s : State} {addr : BitVec 24} {lvl : Level} {ok : Bool} (hwf : bytesWf s.mem.nor = true)
    (hb : fld s Fld.MSP_HSTAT_BUSY = 0) (hr : mspProgramRefused s addr.toNat = false)
    (hturn : turnNow s (mspRequest .memPort .c1) = true) :
    ∃ t, mspProgramCmd s lvl addr ok = t ∧
      (ok = true → ∀ k < mspLen s, byteAt t.mem.nor (addr.toNat + k) =
        byteAt s.mem.nor (addr.toNat + k) &&& (mspBuffer s).getD k 0) ∧
      (∀ a, a < addr.toNat ∨ addr.toNat + mspLen s ≤ a → byteAt t.mem.nor a = byteAt s.mem.nor a) ∧
      fld t Fld.MSP_HSTAT_RESULT = (if ok = true ∧ norBytes t addr.toNat (mspLen s) = (mspBuffer s).take (mspLen s)
        then 1 else 4) ∧
      FldsKept [Fld.MSP_HSTAT_RESULT, Fld.SYS_RES_GRANT_GRANTS resMsp] s t ∧ TurnTaken s t ∧
      t = { s with regs := t.regs, mem := t.mem, drawn := t.drawn, sched := t.sched } := by
  obtain ⟨u, x, t, ht, hu, hub, hx, htaken, hstate⟩ := mspCommand_runs (cmd := .mspProgram lvl addr ok) hb hr hturn
    (run := fun u => mspProgram u addr.toNat ok) fun u => by
      obtain ⟨d, h⟩ := mspProgram_eq u addr.toNat ok
      rw [h]
      rfl
  obtain ⟨d, hrun⟩ := mspProgram_eq u addr.toNat ok
  rw [hx] at hrun
  have hmem : u.mem = s.mem := by rw [hu.state]
  have hfit : addr.toNat + mspLen s ≤ norSize := by
    have h24 := addr.isLt
    have hcross : ¬256 < addr.toNat % 256 + mspLen s := fun hc => by simp [mspProgramRefused, hc] at hr
    unfold norSize
    omega
  have hnor : t.mem.nor = mspProgrammed u addr.toNat ok := by
    rw [hstate, hrun]
    rfl
  have hlen := mspLen_counted hu
  have hbuf := mspBuffer_counted hu
  have hregs : t.regs = x.regs := by rw [hstate]
  refine ⟨t, ht, fun hok k hk => ?_, fun a ha => ?_, ?_, mspRan_flds hu hstate ?_, htaken, ?_⟩
  · subst hok
    rw [hnor, byteAt_mspProgrammed_in (hmem ▸ hwf) (hlen ▸ hfit) (hlen ▸ hk), hmem, hbuf]
  · rw [hnor, byteAt_mspProgrammed_out (hmem ▸ hwf) (hlen ▸ hfit) ok (hlen ▸ ha), hmem]
  · rw [fld_congr hregs, hrun, mspDone_result _ (by split <;> decide), hlen, hbuf]
    rw [norBytes_congr (s := { u with mem := { u.mem with nor := mspProgrammed u addr.toNat ok } }) (u := t) hnor]
  · rw [hrun]
    exact mspDone_flds ((FldsKept.refl _ u).regs rfl) List.mem_cons_self hub _
  · have hxs : x = { u with regs := x.regs, mem := x.mem, drawn := x.drawn } := by
      rw [hrun, mspDone_state]
    rw [hstate, hxs, hu.state]

theorem mspErase_runs {s : State} {addr : BitVec 24} {lvl : Level} (hb : fld s Fld.MSP_HSTAT_BUSY = 0)
    (hr : mspEraseRefused s addr.toNat = false) (hturn : turnNow s (mspRequest .memPort .c1) = true) :
    ∃ t, mspEraseCmd s lvl addr = t ∧ fld t Fld.MSP_HSTAT_RESULT = 1 ∧
      (∀ a, byteAt t.mem.nor a = if addr.toNat ≤ a ∧ a < addr.toNat + 4096 then 0xFF else byteAt s.mem.nor a) ∧
      FldsKept [Fld.MSP_HSTAT_RESULT, Fld.SYS_RES_GRANT_GRANTS resMsp] s t ∧ TurnTaken s t ∧
      t = { s with regs := t.regs, mem := t.mem, sched := t.sched } := by
  obtain ⟨u, x, t, ht, hu, hub, hx, htaken, hstate⟩ := mspCommand_runs (cmd := .mspErase lvl addr) hb hr hturn
    (run := fun u => mspErase u addr.toNat) fun _ => rfl
  have hregs : t.regs = x.regs := by rw [hstate]
  have hnor : t.mem.nor = bytesErase s.mem.nor addr.toNat 4096 := by
    rw [hstate, ← hx, ← show u.mem = s.mem by rw [hu.state]]
    rfl
  refine ⟨t, ht, ?_, fun a => ?_, mspRan_flds hu hstate ?_, htaken, ?_⟩
  · rw [fld_congr hregs, ← hx]
    exact mspDone_result _ (by decide)
  · rw [hnor]
    exact byteAt_bytesErase _ _ _ _
  · exact hx ▸ mspDone_flds ((FldsKept.refl _ u).regs rfl) List.mem_cons_self hub _
  · have hxs : x = { u with regs := x.regs, mem := x.mem } := by
      rw [← hx, mspErase, mspDone_state]
      rfl
    rw [hstate, hxs, hu.state]

/-- Settles O24: a command of `MSP_HCMD` is ignored while BUSY, refused, run on its turn, or waits for it with BUSY set. -/
theorem norCommandsReadProgramErase : Obligations.NorCommandsReadProgramErase := by
  unfold Obligations.NorCommandsReadProgramErase
  rintro s lvl addr ok r hperm hwf rfl
  obtain ⟨hread, hprog, herase⟩ := exec_msp hperm addr ok
  rw [hread, hprog, herase]
  have refused : ∀ {c : Bool} {cmd run}, fld s Fld.MSP_HSTAT_BUSY = 0 → c = true →
      ∃ t, Host.Outcome.next (mspCommand s c cmd run) = (.next t : Host.Outcome State Fault Refusal) ∧
        fld t Fld.MSP_HSTAT_RESULT = 2 ∧ OnlyFlds [Fld.MSP_HSTAT_RESULT] s t := fun hb hc =>
    ⟨_, congrArg _ (mspCommand_refused hb hc), mspResult_only s (by decide)⟩
  refine ⟨fun hb => ?busy, fun hb => ⟨refused hb, fun hr ht => ?read, refused hb, fun hr ht => ?program, refused hb,
    fun hr ht => ?erase, fun ht => ⟨fun hr => ?_, fun hr => ?_, fun hr => ?_⟩⟩⟩
  case busy =>
    exact ⟨_, congrArg _ (mspCommand_busy hb), congrArg _ (mspCommand_busy hb), congrArg _ (mspCommand_busy hb),
      mspResult_only s (by decide)⟩
  case read =>
    obtain ⟨t, h, hrest⟩ := mspRead_runs (lvl := lvl) hb hr ht
    exact ⟨t, congrArg _ h, hrest⟩
  case program =>
    obtain ⟨t, h, hrest⟩ := mspProgram_runs (lvl := lvl) (ok := ok) hwf.1 hb hr ht
    exact ⟨t, congrArg _ h, hrest⟩
  case erase =>
    obtain ⟨t, h, hrest⟩ := mspErase_runs (lvl := lvl) hb hr ht
    exact ⟨t, congrArg _ h, hrest⟩
  all_goals
    obtain ⟨t, h, hrest⟩ := mspCommand_waits hb hr ht
    exact ⟨t, congrArg _ h, hrest⟩

end Sys2Proof.Machine

/-! The rewrite of a Slate sector and its read-back (R248). -/

namespace Sys2Proof.Machine

/-! ### Sectors -/

theorem sectorBytes_congr {s u : State} (hs : u.slate.copied = s.slate.copied) (hm : u.mem.nor = s.mem.nor) (a : Nat) :
    sectorBytes u a = sectorBytes s a := by
  rw [sectorBytes, hs, norBytes_congr hm, sectorBytes]

theorem sectorWith_congr {s u : State} (hs : u.slate.copied = s.slate.copied) (hm : u.mem.nor = s.mem.nor) (i : Nat)
    (e : Entry) : sectorWith u i e = sectorWith s i e := by
  rw [sectorWith, sectorBytes_congr hs hm, sectorWith]

theorem entryHeld_congr {s u : State} (hd : u.sched.grants = s.sched.grants) (hb : u.brm = s.brm) (hh : u.hf = s.hf)
    (hl : u.lnk = s.lnk) (i : Nat) : entryHeld u i = entryHeld s i := by
  rw [entryHeld, grantedEntries, hd, hb, hh, hl, entryHeld, grantedEntries]

/-- A sector served from its copy reads as the copy. -/
theorem sectorBytes_of_copy {s : State} {l : List (Nat × List Byte)} {a : Nat} {b : List Byte}
    (h : s.slate.copied = l.filter (fun p => p.1 != a) ++ [(a, b)]) : sectorBytes s a = b := by
  have hfind : (l.filter (fun p => p.1 != a)).find? (fun p => p.1 == a) = none := by
    rw [List.find?_eq_none]
    intro p hp hpa
    exact absurd hpa (by simpa using (List.mem_filter.1 hp).2)
  rw [sectorBytes, h, List.find?_append, hfind]
  simp

/-- One entry of a torn sector has the bytes of one of the contents. -/
theorem tearStep_entry {contents : List (List Byte)} (hne : contents ≠ []) (p : List Byte × State) (k : Nat) :
    ∃ b ∈ contents, (tearStep contents p k).1 = p.1 ++ (b.drop (64 * k)).take 64 := by
  have hlt : (drawWord p.2).1.toNat % contents.length < contents.length := Nat.mod_lt _ (List.length_pos_iff.2 hne)
  refine ⟨_, List.getElem_mem hlt, ?_⟩
  rw [tearStep, List.getD_eq_getElem _ _ hlt]

/-- The entries of a torn sector, one by one. -/
theorem tearSteps_entries {contents : List (List Byte)} (hne : contents ≠ []) (hlen : ∀ b ∈ contents, b.length = 4096)
    (s : State) {n : Nat} (hn : n ≤ 64) :
    ((List.range n).foldl (tearStep contents) ([], s)).1.length = 64 * n ∧
      ∀ k < n, ∃ b ∈ contents, ∀ j < 64,
        ((List.range n).foldl (tearStep contents) ([], s)).1.getD (64 * k + j) 0 = b.getD (64 * k + j) 0 := by
  induction n with
  | zero => exact ⟨rfl, fun k hk => absurd hk (Nat.not_lt_zero k)⟩
  | succ n ih =>
    obtain ⟨hl, hentries⟩ := ih (by omega)
    rw [List.range_succ, List.foldl_append, List.foldl_cons, List.foldl_nil]
    obtain ⟨b, hb, heq⟩ := tearStep_entry hne ((List.range n).foldl (tearStep contents) ([], s)) n
    have hlast : ((b.drop (64 * n)).take 64).length = 64 := by
      rw [List.length_take, List.length_drop, hlen b hb]
      omega
    rw [heq]
    refine ⟨by rw [List.length_append, hl, hlast]; omega, fun k hk => ?_⟩
    rcases Nat.lt_succ_iff_lt_or_eq.1 hk with hlt | rfl
    · obtain ⟨c, hc, hbytes⟩ := hentries k hlt
      refine ⟨c, hc, fun j hj => ?_⟩
      rw [List.getD_append _ _ _ _ (by rw [hl]; omega), hbytes j hj]
    · refine ⟨b, hb, fun j hj => ?_⟩
      rw [List.getD_append_right _ _ _ _ (by rw [hl]; omega), hl, Nat.add_sub_cancel_left, List.getD_eq_getElem?_getD,
        List.getElem?_take_of_lt hj, List.getElem?_drop, ← List.getD_eq_getElem?_getD]

/-- A torn sector holds in each of its entries that of one of the contents, and no other byte changes (R248). -/
theorem sectorTorn_bytes {s : State} (h : bytesWf s.mem.nor = true) {contents : List (List Byte)} (hne : contents ≠ [])
    (hlen : ∀ b ∈ contents, b.length = 4096) (a : Nat) :
    (∀ k < 64, ∃ b ∈ contents, ∀ j < 64,
      byteAt (sectorTorn s a contents).mem.nor (a + 64 * k + j) = b.getD (64 * k + j) 0) ∧
    ∀ c, c < a ∨ a + 4096 ≤ c → byteAt (sectorTorn s a contents).mem.nor c = byteAt s.mem.nor c := by
  obtain ⟨hl, hentries⟩ := tearSteps_entries hne hlen s (Nat.le_refl 64)
  have hnor : (sectorTorn s a contents).mem.nor =
      bytesPut s.mem.nor a ((List.range 64).foldl (tearStep contents) ([], s)).1 := by
    rw [sectorTorn, norStore]
    dsimp only
    rw [tearSteps_frame]
  rw [hnor]
  refine ⟨fun k hk => ?_, fun c hc => byteAt_bytesPut_ne h _ _ _ (by rw [hl]; exact hc)⟩
  obtain ⟨b, hb, hbytes⟩ := hentries k hk
  refine ⟨b, hb, fun j hj => ?_⟩
  rw [Nat.add_assoc, byteAt_bytesPut_in h _ _ _ (by rw [hl]; omega), hbytes j hj]

/-! ### The read-back (R248) -/

/-- The state that a second bad read-back reports its failure from. -/
def rewriteFailed (s : State) (w : SltWork) : State :=
  let a := slateSector w.index
  let t := sectorTorn s a [sectorWith s w.index w.bytes, erasedSector]
  clrFld (sltResult { t with slate := { t.slate with
    work := none, copied := t.slate.copied.filter (fun p => p.1 != a) ++ [(a, sectorBytes s a)] } } 4) Fld.SLT_STAT_BUSY

section Readback

variable {s : State} {w : SltWork}

theorem slateReadback_good (h : s.slate.work = some w) (hr : w.ready = false) : slateReadback s true =
    let t := setWork (sectorProgram s w.index (sectorWith s w.index w.bytes)) (some { w with ready := true })
    if entryHeld s w.index then setFlag t Fld.SLT_STAT_WAITING else t := by
  unfold slateReadback
  rw [h]
  dsimp only
  rw [if_neg (by simp [hr]), if_pos rfl]
  rfl

theorem slateReadback_again (h : s.slate.work = some w) (hr : w.ready = false) (hw : w.retry = false) :
    slateReadback s false = setWork s (some { w with retry := true }) := by
  unfold slateReadback
  rw [h]
  dsimp only
  rw [if_neg (by simp [hr]), if_neg Bool.false_ne_true, if_pos (by simp [hw])]

theorem slateReadback_fails (h : s.slate.work = some w) (hr : w.ready = false) (hw : w.retry = true) :
    slateReadback s false = fault (rewriteFailed s w) 0x11 0 0x0A (leBytes 2 w.index) := by
  unfold slateReadback
  rw [h]
  dsimp only
  rw [if_neg (by simp [hr]), if_neg Bool.false_ne_true, if_neg (by simp [hw])]
  rfl

theorem rewriteFailed_state (s : State) (w : SltWork) : rewriteFailed s w = { s with
    regs := (rewriteFailed s w).regs, slate := (rewriteFailed s w).slate, mem := (rewriteFailed s w).mem
    drawn := (rewriteFailed s w).drawn } := by
  obtain ⟨m, d, h⟩ := sectorTorn_frame s (slateSector w.index) [sectorWith s w.index w.bytes, erasedSector]
  unfold rewriteFailed
  dsimp only
  rw [h]
  rfl

/-- What a failed rewrite leaves: the result, the old sector's copy, and the torn sector. -/
theorem rewriteFailed_fields (s : State) (w : SltWork) :
    fld (rewriteFailed s w) Fld.SLT_STAT_RESULT = 4 ∧ fld (rewriteFailed s w) Fld.SLT_STAT_BUSY = 0 ∧
      (rewriteFailed s w).slate = { s.slate with
        work := none
        copied := s.slate.copied.filter (fun p => p.1 != slateSector w.index) ++
          [(slateSector w.index, sectorBytes s (slateSector w.index))] } ∧
      (rewriteFailed s w).mem =
        (sectorTorn s (slateSector w.index) [sectorWith s w.index w.bytes, erasedSector]).mem ∧
      FldsKept [Fld.SLT_STAT_RESULT, Fld.SLT_STAT_BUSY] s (rewriteFailed s w) := by
  obtain ⟨m, d, h⟩ := sectorTorn_frame s (slateSector w.index) [sectorWith s w.index w.bytes, erasedSector]
  unfold rewriteFailed
  dsimp only
  rw [h]
  refine ⟨?_, fld_clrFld_self _ _ (by decide), rfl, rfl, ?_⟩
  · rw [clrFld, fld_setFld_apart _ _ _ _ (by decide)]
    exact fld_setFld_of_lt _ (by decide) (by decide)
  · exact FldsKept.setFld (FldsKept.setFld ((FldsKept.refl _ s).regs rfl) (by decide) _) (by decide) _

theorem slateReadback_idle (h : ∀ w, s.slate.work = some w → w.ready = true) (good : Bool) : slateReadback s good = s := by
  unfold slateReadback
  split
  · rfl
  · next hw => exact if_pos (h _ hw)

end Readback

theorem fault_reports (s : State) (blk inst code : Nat) (detail : List Byte) :
    OnlyReports packetFlds s (fault s blk inst code detail) := (OnlyReports.refl _ s).fault (fun _ h => h) _ _ _ _

theorem slateReadback_sched (s : State) (good : Bool) : (slateReadback s good).sched = s.sched := by
  by_cases hidle : ∀ w, s.slate.work = some w → w.ready = true
  · rw [slateReadback_idle hidle]
  · obtain ⟨w, hw, hr⟩ := not_forall₂.1 hidle
    have hr : w.ready = false := by simpa using hr
    cases good with
    | true =>
      rw [slateReadback_good hw hr]
      dsimp only
      split <;> rfl
    | false =>
      cases hretry : w.retry with
      | false =>
        rw [slateReadback_again hw hr hretry]
        rfl
      | true => rw [slateReadback_fails hw hr hretry, (fault_reports _ _ _ _ _).1, rewriteFailed_state]

/-! ### The command on its turn -/

theorem exec_slateReadback (good : Bool) (s : State) : exec (.slateReadback good) s =
    .next (turn s (mspRequest .slateLoader .c1) (.slateReadback good) fun t => slateReadback t good) := rfl

theorem slateReadback_runs {s : State} (hturn : turnNow s (mspRequest .slateLoader .c1) = true) (good : Bool) :
    ∃ u x t, exec (.slateReadback good) s = .next t ∧ Counted resMsp s u ∧ slateReadback u good = x ∧ TurnTaken s t ∧
      t = { x with sched := t.sched } := by
  obtain ⟨u, x, t, ht, hrest⟩ := turnOr_now (.inr (.inl rfl)) rfl rfl rfl hturn (fun u => slateReadback_sched u good)
    fun u => { u with sched := { u.sched with
      ops := u.sched.ops ++ [{ req := mspRequest .slateLoader .c1, cmd := .slateReadback good }] } }
  exact ⟨u, x, t, (exec_slateReadback good s).trans (congrArg _ ht), hrest⟩

section Clauses

variable {s : State} {w : SltWork}

/-- A sector that reads back good (R248). -/
theorem readback_ends (hwf : bytesWf s.mem.nor = true) (hwork : s.slate.work = some w) (hready : w.ready = false)
    (hlen : (sectorWith s w.index w.bytes).length = 4096) (hturn : turnNow s (mspRequest .slateLoader .c1) = true) :
    ∃ t, exec (.slateReadback true) s = .next t ∧
      (∀ k < 4096, byteAt t.mem.nor (slateSector w.index + k) = (sectorWith s w.index w.bytes).getD k 0) ∧
      (∀ a, a < slateSector w.index ∨ slateSector w.index + 4096 ≤ a → byteAt t.mem.nor a = byteAt s.mem.nor a) ∧
      t.slate = { s.slate with copied := s.slate.copied.filter (fun p => p.1 != slateSector w.index),
                               work := some { w with ready := true } } ∧
      fld t Fld.SLT_STAT_WAITING = (if entryHeld s w.index then 1 else fld s Fld.SLT_STAT_WAITING) ∧ TurnTaken s t ∧
      FldsKept [Fld.SLT_STAT_WAITING, Fld.SYS_RES_GRANT_GRANTS resMsp] s t ∧
      t = { s with regs := t.regs, fresh := t.fresh, slate := t.slate, mem := t.mem, sched := t.sched } := by
  obtain ⟨u, x, t, ht, hu, hx, htaken, hstate⟩ := slateReadback_runs hturn true
  have hslate : u.slate = s.slate := by rw [hu.state]
  have hmem : u.mem = s.mem := by rw [hu.state]
  have hheld : entryHeld u w.index = entryHeld s w.index := by rw [hu.state]; rfl
  have hwait : fld u Fld.SLT_STAT_WAITING = fld s Fld.SLT_STAT_WAITING := fld_of_reg_eq (hu.reg_eq (by decide))
  rw [slateReadback_good (hslate ▸ hwork) hready, sectorWith_congr (congrArg _ hslate) (congrArg _ hmem), hheld] at hx
  dsimp only at hx
  have hxs : x = { u with regs := x.regs, fresh := x.fresh, slate := x.slate, mem := x.mem } := by
    rw [← hx]
    split <;> rfl
  have hxmem : x.mem.nor = bytesPut s.mem.nor (slateSector w.index) (sectorWith s w.index w.bytes) := by
    rw [← hx, ← hmem]
    split <;> rfl
  have hxslate : x.slate = { s.slate with copied := s.slate.copied.filter (fun p => p.1 != slateSector w.index),
                                          work := some { w with ready := true } } := by
    rw [← hx, ← hslate]
    split <;> rfl
  have hxkept : FldsKept [Fld.SLT_STAT_WAITING] u x := by
    rw [← hx]
    refine .ite (fun _ => FldsKept.setFlag ?_ List.mem_cons_self) fun _ => ?_ <;> exact (FldsKept.refl _ u).regs rfl
  have hxwait : fld x Fld.SLT_STAT_WAITING = if entryHeld s w.index then 1 else fld s Fld.SLT_STAT_WAITING := by
    rw [← hx, ← hwait]
    split
    · exact fld_setFld_of_lt _ (by decide) (by decide)
    · rfl
  have hregs : t.regs = x.regs := by rw [hstate]
  have hnor : t.mem.nor = x.mem.nor := by rw [hstate]
  refine ⟨t, ht, fun k hk => ?_, fun a ha => ?_, ?_, (fld_congr hregs _).trans hxwait, htaken, ?_, ?_⟩
  · rw [hnor, hxmem, byteAt_bytesPut_in hwf _ _ _ (hlen ▸ hk)]
  · rw [hnor, hxmem, byteAt_bytesPut_ne hwf _ _ _ (hlen ▸ ha)]
  · rw [← hxslate, hstate]
  · exact ((hu.kept.mono (by simp)).trans (hxkept.mono (by simp))).regs hregs
  · rw [hstate, hxs, hu.state]

/-- A first bad read-back (R248). -/
theorem readback_repeats (hwork : s.slate.work = some w) (hready : w.ready = false)
    (hturn : turnNow s (mspRequest .slateLoader .c1) = true) (hretry : w.retry = false) :
    ∃ t, exec (.slateReadback false) s = .next t ∧ t.slate = { s.slate with work := some { w with retry := true } } ∧
      TurnTaken s t ∧ FldsKept [Fld.SYS_RES_GRANT_GRANTS resMsp] s t ∧
      t = { s with regs := t.regs, slate := t.slate, sched := t.sched } := by
  obtain ⟨u, x, t, ht, hu, hx, htaken, hstate⟩ := slateReadback_runs hturn false
  have hslate : u.slate = s.slate := by rw [hu.state]
  rw [slateReadback_again (hslate ▸ hwork) hready hretry] at hx
  have hregs : t.regs = u.regs := by rw [hstate, ← hx]; rfl
  refine ⟨t, ht, ?_, htaken, hu.kept.regs hregs, ?_⟩
  · rw [hstate, ← hx, ← hslate]
    rfl
  · rw [hstate, ← hx, setWork, hu.state]

/-- A second bad read-back (R248). -/
theorem readback_fails (hwf : bytesWf s.mem.nor = true) (hwork : s.slate.work = some w) (hready : w.ready = false)
    (hlen : (sectorWith s w.index w.bytes).length = 4096) (hturn : turnNow s (mspRequest .slateLoader .c1) = true)
    (hretry : w.retry = true) :
    ∃ t, exec (.slateReadback false) s = .next t ∧ fld t Fld.SLT_STAT_RESULT = 4 ∧ fld t Fld.SLT_STAT_BUSY = 0 ∧
      t.slate.work = none ∧ sectorBytes t (slateSector w.index) = sectorBytes s (slateSector w.index) ∧
      (∀ k < 64, ∃ b ∈ [sectorWith s w.index w.bytes, erasedSector], ∀ j < 64,
        byteAt t.mem.nor (slateSector w.index + 64 * k + j) = b.getD (64 * k + j) 0) ∧
      (∀ a, a < slateSector w.index ∨ slateSector w.index + 4096 ≤ a → byteAt t.mem.nor a = byteAt s.mem.nor a) ∧
      FldsKept ([Fld.SLT_STAT_RESULT, Fld.SLT_STAT_BUSY, Fld.SYS_RES_GRANT_GRANTS resMsp] ++ packetFlds) s t ∧
      TurnTaken s t ∧
      t = { s with regs := t.regs, fresh := t.fresh, slate := t.slate, mem := t.mem, fifo := t.fifo, lnk := t.lnk, tag := t.tag,
                   drawn := t.drawn, sched := t.sched } := by
  obtain ⟨u, x, t, ht, hu, hx, htaken, hstate⟩ := slateReadback_runs hturn false
  have hslate : u.slate = s.slate := by rw [hu.state]
  have hmem : u.mem = s.mem := by rw [hu.state]
  rw [slateReadback_fails (hslate ▸ hwork) hready hretry] at hx
  have hrep := fault_reports (rewriteFailed u w) 0x11 0 0x0A (leBytes 2 w.index)
  have hys := rewriteFailed_state u w
  obtain ⟨hresult, hbusy, hyslate, hymem, hykept⟩ := rewriteFailed_fields u w
  rw [hx] at hrep
  rw [sectorWith_congr (congrArg _ hslate) (congrArg _ hmem)] at hymem
  rw [hslate, sectorBytes_congr (congrArg _ hslate) (congrArg _ hmem)] at hyslate
  obtain ⟨htorn, houter⟩ := sectorTorn_bytes (hmem ▸ hwf : bytesWf u.mem.nor = true)
    (contents := [sectorWith s w.index w.bytes, erasedSector]) (List.cons_ne_nil _ _)
    (fun b hb => (List.mem_pair.1 hb).elim (· ▸ hlen) (· ▸ List.length_replicate)) (slateSector w.index)
  generalize rewriteFailed u w = y at hrep hys hresult hbusy hyslate hymem hykept
  have hregs : t.regs = x.regs := by rw [hstate]
  have htslate : t.slate = y.slate := by rw [hstate, hrep.1]
  have htmem : t.mem = y.mem := by rw [hstate, hrep.1]
  refine ⟨t, ht, ?_, ?_, by rw [htslate, hyslate], ?_, ?_, ?_, ?_, htaken, ?_⟩
  · rw [fld_congr hregs, ← hresult]
    exact hrep.2.fld_eq (apart_packetFlds (by decide) (by decide) (by decide))
  · rw [fld_congr hregs, ← hbusy]
    exact hrep.2.fld_eq (apart_packetFlds (by decide) (by decide) (by decide))
  · exact sectorBytes_of_copy (by rw [htslate, hyslate])
  · rw [htmem, hymem]
    exact htorn
  · rw [htmem, hymem, ← hmem]
    exact houter
  · refine (((hu.kept.mono ?_).trans (hykept.mono ?_)).trans (hrep.2.mono ?_)).regs hregs <;> simp +contextual
  · rw [hstate, hrep.1, hys, hu.state]

end Clauses

/-- Settles O22: the read-back of a sector in its turn ends the rewrite, repeats it or fails it, and out of its turn waits. -/
theorem slateReadbackEndsTheRewrite : Obligations.SlateReadbackEndsTheRewrite := by
  unfold Obligations.SlateReadbackEndsTheRewrite
  rintro s w r hwf hwork hready hlen rfl
  refine ⟨readback_ends hwf.1 hwork hready hlen, readback_repeats hwork hready, readback_fails hwf.1 hwork hready hlen,
    fun good hturn => ?_⟩
  obtain ⟨t, ht, hwaits, hkept, hstate⟩ := turn_waits (w := s) (asPostedNow_quiet_ne_zero s (.inr (.inl rfl)) rfl rfl) rfl
    (FldsKept.refl [] s) (by simp) rfl rfl hturn (.slateReadback good) (fun t => slateReadback t good) (wait := id) rfl
  exact ⟨t, (exec_slateReadback good s).trans (congrArg _ ht), hwaits, hkept, hstate⟩

end Sys2Proof.Machine

/-! Requests and the grant point (R145–R165): posting, withdrawal, top-ups, promotion, and the decision of a lone request. -/

namespace Sys2Proof.Machine

/-! ### REQUEST_POST (R145, R157) -/

theorem exec_requestPost (q : RequestSpec) (s : State) :
    exec (.requestPost q) s = .next (postRequest s (specRequest s q)).1 := rfl

theorem specRequest_freeAt {s : State} {q : RequestSpec} (h : q.cls ≠ .c0 ∨ q.freeIn = none) :
    (specRequest s q).freeAt = none := by
  rcases h with h | h
  · cases hc : q.cls <;> simp_all [specRequest]
  · cases hc : q.cls <;> simp [specRequest, h, hc]

theorem specRequest_fence {s : State} {q : RequestSpec} (h : ∀ k, q.who ≠ .linkSlot k) : (specRequest s q).fence = 0 := by
  cases hw : q.who <;> simp_all [specRequest]

/-- The request as it joins the list. -/
theorem asPostedNow_specRequest {s : State} {q : RequestSpec} (h : q.cls ≠ .c0 ∨ q.freeIn = none) :
    asPostedNow s (specRequest s q) =
      { who := q.who, cls := q.cls, mask := withCoex s q.air q.mask.toNat, kind := q.kind, air := q.air,
        fence := (specRequest s q).fence, posted := s.clk.now } := by
  have hf := specRequest_freeAt (s := s) h
  calc asPostedNow s (specRequest s q)
    _ = { who := q.who, cls := q.cls, mask := withCoex s q.air q.mask.toNat, kind := q.kind, air := q.air,
          fence := (specRequest s q).fence, freeAt := (specRequest s q).freeAt, posted := s.clk.now } := rfl
    _ = _ := by rw [hf]

/-- A scheduled item less than 10 ms ahead collides (R157). -/
theorem collides_of_near (s : State) (r : Request) {n : Nat} (h : n < 10000) : collides s r (s.clk.now + us n) = true := by
  have hnear : s.clk.now + us n < s.clk.now + ms 10 := by simp only [us, ms]; omega
  simp [collides, hnear]

/-! ### REQUEST_WITHDRAW (R153) -/

theorem exec_requestWithdraw (who : Consumer) (s : State) :
    exec (.requestWithdraw who) s = .next (cxPost (withdraw s who)) := rfl

/-- What goes with a host's request touches Bramble's immediate access and the waiting OPEN alone (R153). -/
theorem withdrawn_spec (s : State) (who : Consumer) :
    (withdrawn s who) = { s with regs := (withdrawn s who).regs, brm := (withdrawn s who).brm, hf := (withdrawn s who).hf } ∧
      FldsKept [whole Adr.BRM_IMMSTAT] s (withdrawn s who) ∧
      (who ≠ .hostUhf → (withdrawn s who).regs = s.regs ∧ (withdrawn s who).brm = s.brm) ∧
      (who ≠ .hostHf → (withdrawn s who).hf = s.hf) := by
  have himm : FldsKept [whole Adr.BRM_IMMSTAT] s (immOver s 3 0) := by
    have hset : ∀ {t : State} {f : Field} (v : Nat), f.addr = Adr.BRM_IMMSTAT → FldsKept [whole Adr.BRM_IMMSTAT] s t →
        FldsKept [whole Adr.BRM_IMMSTAT] s (setFld t f v) := fun v hf ht => ht.setReg (hf ▸ List.mem_cons_self) _
    exact (hset _ rfl (hset _ rfl (hset _ rfl (.refl _ s)))).regs rfl
  unfold withdrawn
  split
  · split
    · exact ⟨rfl, himm, fun h => absurd rfl h, fun _ => rfl⟩
    · exact ⟨rfl, .refl _ s, fun _ => ⟨rfl, rfl⟩, fun _ => rfl⟩
  · split
    · exact ⟨rfl, .refl _ s, fun _ => ⟨rfl, rfl⟩, fun h => absurd rfl h⟩
    · exact ⟨rfl, .refl _ s, fun _ => ⟨rfl, rfl⟩, fun _ => rfl⟩
  · exact ⟨rfl, .refl _ s, fun _ => ⟨rfl, rfl⟩, fun _ => rfl⟩

theorem immOver_fields (s : State) {r : Nat} (hr : r < 8) (n : Nat) : fld (immOver s r n) Fld.BRM_IMMSTAT_BUSY = 0 ∧
    fld (immOver s r n) Fld.BRM_IMMSTAT_RESULT = r ∧ (immOver s r n).brm.imm = none := by
  have hregs : (immOver s r n).regs = (setFld (setFld (clrFld s Fld.BRM_IMMSTAT_BUSY) Fld.BRM_IMMSTAT_RESULT r)
    Fld.BRM_IMMSTAT_TAGS (min 15 n)).regs := rfl
  refine ⟨?_, ?_, rfl⟩
  · rw [fld_congr hregs, fld_setFld_apart _ _ _ _ (by decide), fld_setFld_apart _ _ _ _ (by decide)]
    exact fld_clrFld_self _ _ (by decide)
  · rw [fld_congr hregs, fld_setFld_apart _ _ _ _ (by decide)]
    exact fld_setFld_of_lt _ (by decide) hr

theorem requestWithdraw_spec (s : State) (who : Consumer) : ∃ t, exec (.requestWithdraw who) s = .next t ∧
    t.sched.point = true ∧ t.sched.grants = s.sched.grants ∧
    t.sched.requests = s.sched.requests.filter (fun r => r.who != who) ∧
    (who = .hostUhf → posted s who = true → s.brm.imm.isSome = true →
      fld t Fld.BRM_IMMSTAT_BUSY = 0 ∧ fld t Fld.BRM_IMMSTAT_RESULT = 3 ∧ t.brm.imm = none) ∧
    (who ≠ .hostUhf → t.brm = s.brm ∧ reg t Adr.BRM_IMMSTAT = reg s Adr.BRM_IMMSTAT) ∧ (who ≠ .hostHf → t.hf = s.hf) ∧
    FldsKept [Fld.SYS_STAT_CXREQ, Fld.SYS_STAT_CXPRI, Fld.SYS_STAT_XGNT, whole Adr.BRM_IMMSTAT] s t ∧
    t = { s with regs := t.regs, sched := t.sched, brm := t.brm, hf := t.hf } := by
  obtain ⟨hwith, hwflds, hbrm, hhf⟩ := withdrawn_spec s who
  obtain ⟨heq, hkept⟩ := cxOutputs_only (withdraw s who) false
  have hsched : (withdrawn s who).sched = s.sched := by rw [hwith]
  have hregs : (withdraw s who).regs = (withdrawn s who).regs := rfl
  have hkeptw : ∀ f, (∀ g ∈ cxFlds, f.apart g) → fld (cxOutputs (withdraw s who) false) f = fld (withdrawn s who) f :=
    fun f hf => (hkept.fld_eq hf).trans (fld_congr hregs f)
  have hs : cxOutputs (withdraw s who) false = { withdrawn s who with
      regs := (cxOutputs (withdraw s who) false).regs, sched := (cxOutputs (withdraw s who) false).sched } := by
    rw [heq]
    rfl
  have hreq : (cxOutputs (withdraw s who) false).sched.requests = s.sched.requests.filter (fun r => r.who != who) := by
    rw [heq, ← hsched]
    rfl
  have hgrants : (cxOutputs (withdraw s who) false).sched.grants = s.sched.grants := by
    rw [heq, ← hsched]
    rfl
  have hpoint : (cxOutputs (withdraw s who) false).sched.point = true := by
    rw [heq]
    rfl
  have hbrm' : (cxOutputs (withdraw s who) false).brm = (withdrawn s who).brm := by rw [hs]
  have hhf' : (cxOutputs (withdraw s who) false).hf = (withdrawn s who).hf := by rw [hs]
  refine ⟨_, exec_requestWithdraw who s, hpoint, hgrants, hreq, fun hu hp hi => ?_, fun hu => ⟨?_, ?_⟩, fun hu => ?_, ?_, ?_⟩
  · have himm : withdrawn s who = immOver s 3 0 := by
      subst hu
      exact if_pos (by simp [hp, hi])
    obtain ⟨hbusy, hresult, hnone⟩ := immOver_fields s (r := 3) (by decide) 0
    refine ⟨?_, ?_, ?_⟩
    · rw [cxPost, hkeptw _ (by unfold Field.apart; decide), himm, hbusy]
    · rw [cxPost, hkeptw _ (by unfold Field.apart; decide), himm, hresult]
    · rw [cxPost, hbrm', himm, hnone]
  · exact hbrm'.trans (hbrm hu).2
  · refine (hkept.reg_eq (by decide)).trans ?_
    rw [reg, hregs, (hbrm hu).1, reg]
  · exact hhf'.trans (hhf hu)
  · exact (hwflds.mono (by simp)).trans (((FldsKept.refl _ _).regs hregs).trans (hkept.mono (by simp [cxFlds])))
  · rw [cxPost, hs, hwith]

/-! ### TOP_UP (R154) -/

theorem exec_topUp (who : Consumer) (mask : BitVec 11) (kind : LeaseKind) (s : State) :
    exec (.topUp who mask kind) s = .next (topUp s who mask.toNat kind) := rfl

theorem topUpOf_of_later {s : State} {who : Consumer} {g : Grant} {mask : Nat} (kind : LeaseKind) (hg : grantOf s who = some g)
    (hm : mask ≠ 0) (hlater : topOf g.mask < lowOf mask) (hreq : ∀ r ∈ s.sched.requests, r.who = who → r.topUp = false)
    (hgr : ∀ x ∈ s.sched.grants, x.who = who → x.topUp = false) :
    topUpOf s who mask kind = some { who := who, cls := g.cls, mask := mask, kind := kind, posted := s.clk.now,
                                     promoted := g.promoted, topUp := true } := by
  have h1 : topUpGrant s who = none := List.find?_eq_none.2 fun x hx h => by
    obtain ⟨hw, ht⟩ := Bool.and_eq_true_iff.1 h
    rw [hgr x hx (beq_iff_eq.1 hw)] at ht
    exact Bool.false_ne_true ht
  have h2 : topUpRequest s who = none := List.find?_eq_none.2 fun x hx h => by
    obtain ⟨hw, ht⟩ := Bool.and_eq_true_iff.1 h
    rw [hreq x hx (beq_iff_eq.1 hw)] at ht
    exact Bool.false_ne_true ht
  unfold topUpOf
  rw [hg]
  exact if_neg (by simp [hm, h1, h2, hlater])

/-- A top-up for resources that do not come later in the order is ignored (R154). -/
theorem topUp_of_not_later {s : State} {who : Consumer} {g : Grant} {mask : Nat} (kind : LeaseKind) (hg : grantOf s who = some g)
    (h : lowOf mask ≤ topOf g.mask) : topUp s who mask kind = s := by
  unfold topUp topUpOf
  rw [hg]
  dsimp only
  rw [if_pos (.inr (.inr (.inr (Nat.not_lt.2 h))))]

/-! ### STARVE_PROMOTE (R165) -/

theorem exec_starvePromote (who : Consumer) (s : State) : exec (.starvePromote who) s = .next (starvePromote s who) := rfl

/-- A request that is replaced is found as its replacement. -/
theorem requestOf_setRequest {s : State} {who : Consumer} {r q : Request} (h : requestOf s who = some r) (hw : q.who = r.who)
    (ht : q.topUp = r.topUp) : requestOf (setRequest s q) who = some q := by
  have hr := List.find?_some h
  obtain ⟨hrw, hrt⟩ : r.who = who ∧ r.topUp = false := by simpa using hr
  unfold requestOf setRequest at *
  dsimp only
  rw [List.find?_map]
  have hsame : (fun x : Request => x.who == who && !x.topUp) ∘ (fun x => if x.who = q.who ∧ x.topUp = q.topUp then q else x) =
      fun x => x.who == who && !x.topUp := by
    funext x
    rw [Function.comp_apply]
    split
    · next hx => rw [hx.1, hx.2]
    · rfl
  rw [hsame, h, Option.map_some, if_pos ⟨hw.symm, ht.symm⟩]

theorem starvePromote_spec {s : State} {who : Consumer} {r : Request} (h : requestOf s who = some r) (hc : r.cls = .c2)
    (hp : r.promoted = false) : ∃ t, exec (.starvePromote who) s = .next t ∧
      requestOf t who = some { r with promoted := true } ∧
      fld t Fld.SYS_SCHCNT1_PROMOTE = min 0xFFFF (fld s Fld.SYS_SCHCNT1_PROMOTE + 1) ∧ flag t (intBit 37) = true ∧
      t.sched.grants = s.sched.grants ∧ FldsKept [Fld.SYS_SCHCNT1_PROMOTE, intBit 37] s t ∧
      t = { s with regs := t.regs, fresh := t.fresh, sched := t.sched } := by
  have hrun : starvePromote s who = raise (incSat (setRequest s { r with promoted := true }) Fld.SYS_SCHCNT1_PROMOTE 1) 37 := by
    unfold starvePromote
    rw [h]
    exact if_pos ⟨hc, by simp [hp]⟩
  refine ⟨_, (exec_starvePromote who s).trans (congrArg _ hrun), requestOf_setRequest (q := { r with promoted := true }) h rfl rfl,
    ?_, flag_raise_self _ 37 (by decide), rfl, ?_, rfl⟩
  · refine (fld_setFld_apart _ _ _ 1 (by decide)).trans ?_
    exact fld_incSat_self (setRequest s { r with promoted := true }) Fld.SYS_SCHCNT1_PROMOTE 1 (by decide)
  · exact FldsKept.setFlag (((FldsKept.refl _ s).regs rfl).setFld (by decide) _) (by decide)

/-! ### A lone request (R147, R160, R161) -/

theorem exec_grantTick (s : State) : exec .grantTick s = .next (if 3 ≤ mode s then grantPoint s else s) := rfl

theorem exec_grantDecision (s : State) : exec .grantDecision s = .next (decision s) := rfl

/-- A consumer whose grant starts no work of an engine (R146). -/
def plainWho (who : Consumer) : Prop :=
  who = .gorse ∨ who = .tagHost ∨ who = .journal ∨ who = .slateLoader ∨ who = .memPort ∨ who = .external

theorem entryReady_plain {r : Request} (hw : plainWho r.who) (s : State) : entryReady s r = true := by
  unfold entryReady
  rcases hw with hw | hw | hw | hw | hw | hw <;> rw [hw]

/-- Where the one request is no scheduled item, no fence cuts its lease (R157, R160). -/
theorem leaseFor_lone {s : State} {r q : Request} (h : s.sched.requests = [q]) (hq : q.freeAt = none) :
    leaseFor s r = some (leaseOf s r.kind) := by
  unfold leaseFor nearestFence
  simp [h, hq]

/-- The state in which a lone request is decided: the credit of C3 is up to date, and what the request kept is given up (R166). -/
def loneState (s : State) (r : Request) : State :=
  { growCredit s with sched := { (growCredit s).sched with requests := [{ r with reserved := 0 }] } }

theorem grantable_loneState {s : State} {r : Request} (h : s.sched.requests = [r]) (hf : r.freeAt = none)
    (hw : plainWho r.who) :
    grantable (loneState s r) { r with reserved := 0 } 0 = grantable s r 0 := by
  have hfences : fences (loneState s r) = fences s := by simp [fences, loneState, growCredit, h, hf]
  have hlease : (leaseFor (loneState s r) { r with reserved := 0 }).isSome = (leaseFor s r).isSome := by
    rw [leaseFor_lone (q := { r with reserved := 0 }) rfl hf, leaseFor_lone h hf]
    rfl
  have htaken : taken (loneState s r) { r with reserved := 0 } 0 = taken s r 0 := by
    unfold taken
    rw [hfences]
    rfl
  unfold grantable notFree
  rw [htaken, hlease, entryReady_plain hw, entryReady_plain (r := { r with reserved := 0 }) hw]
  rfl

theorem byPosting_lone {s : State} {r : Request} {p : Request → Bool} (h : s.sched.requests = [r]) (hp : p r = true) :
    byPosting s p = [r] := by simp [byPosting, h, hp]

theorem byPosting_lone_not {s : State} {r : Request} {p : Request → Bool} (h : s.sched.requests = [r]) (hp : p r = false) :
    byPosting s p = [] := by simp [byPosting, h, hp]

theorem byPosting_nil {s : State} (p : Request → Bool) (h : s.sched.requests = []) : byPosting s p = [] := by
  simp [byPosting, h]

/-- Without requests the walk finds no candidate: each consumer in it holds its grant (R163). -/
theorem drrNext_idle {s : State} (h : s.sched.requests = []) (w : Walk) : drrNext s [] w = none := by
  unfold drrNext walkView
  rw [h]
  refine if_pos (List.all_eq_true.2 fun p hp => List.contains_iff_mem.2 ?_)
  simpa using hp

theorem foldl_sched {α : Type} {f : State → α → State} (hf : ∀ u a, (f u a).sched = u.sched) (L : List α) (s : State) :
    (L.foldl f s).sched = s.sched := by
  induction L generalizing s with
  | nil => rfl
  | cons a L ih => exact (ih _).trans (hf s a)

theorem ite_sched {s t u : State} {c : Prop} [Decidable c] (ht : t.sched = s.sched) (hu : u.sched = s.sched) :
    (if c then t else u).sched = s.sched := by
  split
  · exact ht
  · exact hu

theorem countGrant_sched (s : State) (r : Request) : (countGrant s r).sched = s.sched := by
  unfold countGrant
  refine foldl_sched (fun u n => ?_) _ s
  dsimp only
  split <;> rfl

theorem grantLease_sched {s : State} {r : Request} (hw : plainWho r.who) (credited : Bool) (partner : Option Consumer)
    (lease : Nat) : (grantLease s r credited partner lease).sched =
      { (dropRequest s r).sched with grants := s.sched.grants ++ [grantFor s r credited partner lease] } := by
  have hcount := countGrant_sched (dropRequest s r) r
  unfold grantLease
  rcases hw with hw | hw | hw | hw | hw | hw <;> rw [hw] <;> dsimp only <;> rw [hcount] <;> rfl

/-- The grant that a lone request gets. -/
def loneGrant (s : State) (r : Request) : Grant :=
  { who := r.who, cls := .c1, mask := r.mask, fence := r.fence, kind := r.kind, air := r.air, since := s.clk.now,
    until_ := s.clk.now + (leaseFor s r).getD (leaseOf s r.kind) }

section Lone

variable {s : State} {r : Request}

theorem bestPath_plain (hw : plainWho r.who) (ht : r.topUp = false) (t : State) (ahead : Nat) : bestPath t r ahead = (r, .a) := by
  unfold bestPath
  rw [if_neg (by simp [ht])]
  rcases hw with hw | hw | hw | hw | hw | hw <;> rw [hw]

/-- A lone C1 request that may be granted is, and the coexistence outputs follow (R161). -/
theorem decide_lone (hreq : s.sched.requests = [r]) (hent : s.slate.entries = []) (hc : r.cls = .c1) (ht : r.topUp = false)
    (hf : r.freeAt = none) (hw : plainWho r.who) (hg : grantable s r 0 = true) :
    decide_ s = cxUpdate (grant (loneState s r) { r with reserved := 0 } false none) := by
  have hlone : (loneState s r).sched.requests = [{ r with reserved := 0 }] := rfl
  have hposted : postEntries s = s := by rw [postEntries, hent]; rfl
  have hstate : ({ growCredit s with sched := { (growCredit s).sched with
      requests := (growCredit s).sched.requests.map fun r => { r with reserved := 0 } } } : State) = loneState s r := by
    rw [loneState, show (growCredit s).sched.requests = s.sched.requests from rfl, hreq]
    rfl
  have hbest := bestPath_plain (r := { r with reserved := 0 }) hw ht (loneState s r) 0
  have hgrantable := (grantable_loneState hreq hf hw).trans hg
  have hdone : (grant (loneState s r) { r with reserved := 0 } false none).sched.requests = [] := by
    rw [grant, grantLease_sched (r := { r with reserved := 0 }) hw]
    simp [dropRequest, loneState]
  have hres : reservedMask (loneState s r) = 0 := by simp [reservedMask, hlone]
  unfold decide_
  rw [hposted]
  dsimp only
  rw [hstate, byPosting_lone_not (p := Request.dueC0 (loneState s r)) hlone (by simp [Request.dueC0, hc]), List.foldl_nil,
    byPosting_lone_not (p := fun r => decide (r.cls = .c0) && r.freeAt.isNone) hlone (by simp [hc]), List.foldl_nil,
    byPosting_lone (p := fun r => decide (r.cls = .c1) || r.promoted) hlone (by simp [hc]), List.foldl_cons, List.foldl_nil, hres,
    hbest, grantOrShorten, if_pos hgrantable]
  generalize grant (loneState s r) { r with reserved := 0 } false none = t at hdone ⊢
  rw [byPosting_nil _ hdone, List.foldl_nil, byPosting_nil _ hdone, List.foldl_nil]
  have hc2 : decideC2 t = t := by rw [decideC2, drrNext_idle hdone]
  rw [hc2, byPosting_nil _ hdone, List.foldl_nil]

/-- What the decision of a lone request leaves in the scheduler. -/
theorem decide_lone_sched (hreq : s.sched.requests = [r]) (hent : s.slate.entries = []) (hc : r.cls = .c1)
    (ht : r.topUp = false) (hp : r.promoted = false) (hf : r.freeAt = none) (hw : plainWho r.who)
    (hg : grantable s r 0 = true) :
    (decide_ s).sched.requests = [] ∧ (decide_ s).sched.grants = s.sched.grants ++ [loneGrant s r] ∧
      (decide_ s).sched.ops = s.sched.ops := by
  have hfor : ∀ l, grantFor (loneState s r) { r with reserved := 0 } false none l = { loneGrant s r with
      until_ := s.clk.now + l } := fun l => by
    simp [grantFor, loneGrant, loneState, growCredit, hc, ht, hp, hf]
  have hlease : (leaseFor (loneState s r) { r with reserved := 0 }).getD (leaseOf (loneState s r) r.kind) =
      (leaseFor s r).getD (leaseOf s r.kind) := by
    rw [leaseFor_lone (q := { r with reserved := 0 }) rfl hf, leaseFor_lone hreq hf]
    rfl
  have hsched : (grant (loneState s r) { r with reserved := 0 } false none).sched =
      { (dropRequest (loneState s r) { r with reserved := 0 }).sched with
        grants := s.sched.grants ++ [loneGrant s r] } := by
    rw [grant, grantLease_sched (r := { r with reserved := 0 }) hw, hfor, hlease]
    rfl
  obtain ⟨heq, -⟩ := cxOutputs_only (grant (loneState s r) { r with reserved := 0 } false none) true
  rw [decide_lone hreq hent hc ht hf hw hg, cxUpdate, heq]
  dsimp only
  rw [hsched]
  exact ⟨by simp [dropRequest, loneState], rfl, rfl⟩

end Lone

/-! ### The start of what is granted (R146, R182, R205) -/

theorem rfStart_sched (s : State) (mask : Nat) : (rfStart s mask).sched = s.sched := by
  unfold rfStart setMode
  dsimp only
  split
  · split
    · split <;> rfl
    · rfl
  · rfl

theorem rxEnd_sched (s : State) (status : Nat) : (rxEnd s status).sched = s.sched := by
  have hadmit : ∀ (u : State) (ws : List Word), (admitPacket u 5 ws).sched = u.sched := fun u ws => by
    rw [((OnlyFifo.refl packetFlds u).admitPacket (fun _ h => h) (by decide) ws).1]
  have hthaw : ∀ (L : List Nat) (u : State), (L.foldl (fun t k => clrFld t (Fld.RAD_RXC_STAT_FROZEN k)) u).sched = u.sched :=
    foldl_sched fun _ _ => rfl
  unfold rxEnd
  split
  · dsimp only
    refine ite_sched ((hadmit _ _).trans ((hthaw _ _).trans ?_)) ((hthaw _ _).trans ?_) <;>
      split <;> rfl
  · rfl

theorem rateSwitch_sched (s : State) (g : Grant) : (rateSwitch s g).sched = s.sched := by
  unfold rateSwitch
  refine foldl_sched (fun u p => ?_) _ s
  dsimp only
  split
  · split
    · cases p <;> rfl
    · rw [rxEnd_sched]
      cases p <;> rfl
  · rfl

/-- The grants of plain consumers start no work. -/
theorem startWork_plain {g : Grant} (hw : plainWho g.who) (ht : g.topUp = false) {s : State} (hops : s.sched.ops = []) :
    startWork s g = s := by
  unfold startWork nextOp
  rw [hops]
  dsimp only [List.find?_nil, Option.map_none]
  rw [if_neg (by simp [ht])]
  rcases hw with hw | hw | hw | hw | hw | hw <;> rw [hw]

theorem startAll_plain {s : State} {L : List Grant} (hL : ∀ g ∈ L, plainWho g.who ∧ g.topUp = false) (hops : s.sched.ops = []) :
    (startAll s L).sched = s.sched := by
  have hwork : ∀ u : State, u.sched.ops = [] → L.foldl startWork u = u := fun u hu => by
    induction L with
    | nil => rfl
    | cons g L ih =>
      obtain ⟨hw, ht⟩ := hL g List.mem_cons_self
      rw [List.foldl_cons, startWork_plain hw ht hu]
      exact ih fun g hg => hL g (List.mem_cons_of_mem _ hg)
  have hs := (foldl_sched rateSwitch_sched L _).trans (foldl_sched (fun u (g : Grant) => rfStart_sched u g.mask) L s)
  unfold startAll
  dsimp only
  rw [hwork _ (hs ▸ hops), hs]

theorem warnAll_of_none {s : State} (h : ∀ g ∈ s.sched.grants, g.warned = false) : warnAll s = s := by
  have hnil : (s.sched.grants.filter fun g => g.warned) = [] :=
    List.filter_eq_nil_iff.2 fun g hg => by simp [h g hg]
  rw [warnAll, hnil]
  rfl

/-- The new grants of a decision that only appends one. -/
theorem freshGrants_append {s t : State} {g : Grant} (h : t.sched.grants = s.sched.grants ++ [g]) :
    ∀ x ∈ freshGrants s t, x = g := by
  intro x hx
  obtain ⟨hmem, hnew⟩ := List.mem_filter.1 hx
  rw [h] at hmem
  rcases List.mem_append.1 hmem with hold | hlast
  · have hany : (s.sched.grants.any fun y => y.who == x.who && y.topUp == x.topUp) = true :=
      List.any_eq_true.2 ⟨x, hold, by simp⟩
    simp [hany] at hnew
  · exact List.mem_singleton.1 hlast

/-- A grant point whose decision has been taken. -/
def pointOver (s : State) : State := { s with sched := { s.sched with point := false } }

/-- The decision of a lone request: it is granted with its lease (R146, R161). -/
theorem decision_lone {s : State} {r : Request} (hpt : s.sched.point = true) (hreq : s.sched.requests = [r])
    (hent : s.slate.entries = []) (hpost : postAll (grantsEnded (settle s)) = s) (hops : s.sched.ops = [])
    (hwarn : ∀ g ∈ s.sched.grants, g.warned = false) (hc : r.cls = .c1) (ht : r.topUp = false) (hp : r.promoted = false)
    (hf : r.freeAt = none) (hw : plainWho r.who) (hg : grantable s r 0 = true) :
    (decision s).sched.requests = [] ∧ (decision s).sched.point = false ∧
      (decision s).sched.grants = s.sched.grants ++ [loneGrant s r] := by
  obtain ⟨hreqs, hgrants, hops2⟩ := decide_lone_sched hreq hent hc ht hp hf hw hg
  have hfresh : ∀ g ∈ freshGrants s (decide_ s), plainWho g.who ∧ g.topUp = false := fun g hg =>
    freshGrants_append hgrants g hg ▸ ⟨hw, rfl⟩
  have hwarned : ∀ g ∈ (decide_ s).sched.grants, g.warned = false := fun g hg => by
    rw [hgrants] at hg
    rcases List.mem_append.1 hg with hold | hlast
    · exact hwarn g hold
    · rw [List.mem_singleton.1 hlast]
      rfl
  have hrun : decision s = startAll (pointOver (decide_ s)) (freshGrants s (decide_ s)) := by
    rw [decision, if_pos hpt, hpost, ← warnAll_of_none (s := pointOver (decide_ s)) hwarned]
    rfl
  rw [hrun, startAll_plain (s := pointOver (decide_ s)) hfresh (hops2.trans hops)]
  exact ⟨hreqs, rfl, hgrants⟩

/-! ### The statement -/

/-- Settles O15: a request joins the list, leaves it, is promoted or is ignored as its rules say, and one that stands alone is granted. -/
theorem requestsAndGrantPoint : Obligations.RequestsAndGrantPoint := by
  unfold Obligations.RequestsAndGrantPoint
  refine ⟨fun s => ⟨fun q h => ?unposted, fun q hm hp hf => ?posted, fun q n hm hp hc hf hn => ?collides, requestWithdraw_spec s,
    fun who g mask kind hg hm hl hr hgr => ?topUp, fun who g mask kind hg hl => ?ignored, fun who r => starvePromote_spec⟩,
    fun s => ⟨fun h => ?tick, fun h => ?idle, fun r hpt hreq hent hpost hops hwarn hc ht hp hf hw hg => ?decision⟩⟩
  case unposted => rw [exec_requestPost, postRequest_of_not (r := specRequest s q) h]
  case posted =>
    have hrun := postRequest_of_plain (r := specRequest s q) hm hp (.inr (specRequest_freeAt hf))
    have hposts := putRequest_posts s (asPostedNow s (specRequest s q))
    exact ⟨_, (exec_requestPost q s).trans (by rw [hrun]), hposts.point, hposts.grants,
      hposts.requests.trans (by rw [asPostedNow_specRequest hf]), specRequest_fence, hposts.kept, hposts.state⟩
  case collides =>
    have hfree : (specRequest s q).freeAt = some (s.clk.now + us n) := by simp [specRequest, hc, hf]
    have hrun := postRequest_of_collides (r := specRequest s q) hm hp hc hfree (collides_of_near s _ hn)
    exact ⟨_, (exec_requestPost q s).trans (by rw [hrun]), fld_incSat_self s Fld.SYS_SCHCNT3_COLLIDE 1 (by decide),
      (OnlyFlds.refl _ s).setFld List.mem_cons_self _⟩
  case topUp =>
    have hm0 : mask.toNat ≠ 0 := fun h => hm (toNat_eq_zero_iff.1 h)
    have hposts := putRequest_posts s { who := who, cls := g.cls, mask := mask.toNat, kind := kind, posted := s.clk.now,
                                        promoted := g.promoted, topUp := true }
    refine ⟨_, (exec_topUp who mask kind s).trans ?_, hposts.point, hposts.grants, hposts.requests, hposts.kept, hposts.state⟩
    rw [topUp, topUpOf_of_later kind hg hm0 hl hr hgr]
  case ignored => rw [exec_topUp, topUp_of_not_later kind hg hl]
  case tick =>
    rw [exec_grantTick, if_pos h]
    rfl
  case idle =>
    rw [exec_grantDecision, decision, if_neg (by simp [h])]
  case decision =>
    obtain ⟨hr, hpoint, hgrants⟩ := decision_lone hpt hreq hent hpost hops hwarn hc ht hp hf hw hg
    exact ⟨_, exec_grantDecision s, hr, hpoint, hgrants⟩

end Sys2Proof.Machine
/-! The host's commands of the HF session (R321–R328, R339): what a result, a frame on the air and the end of a field leave. -/

namespace Sys2Proof.Machine

/-! ### What the reader's operations leave -/

/-- Nothing but registers, of those only the fields listed, channels and the HF reader's own state changed. -/
def OnlyHf (l : List Field) (s t : State) : Prop :=
  t = { s with regs := t.regs, fresh := t.fresh, fifo := t.fifo, hf := t.hf } ∧ FldsKept l s t

namespace OnlyHf

variable {l : List Field} {s t u : State}

theorem refl (l : List Field) (s : State) : OnlyHf l s s := ⟨rfl, .refl l s⟩

theorem setHf (h : OnlyHf l s t) (x : Hf) : OnlyHf l s { t with hf := x } := ⟨by rw [h.1], h.2.regs rfl⟩

theorem setFld (h : OnlyHf l s t) {f : Field} (hf : whole f.addr ∈ l) (v : Nat) : OnlyHf l s (setFld t f v) :=
  ⟨by rw [h.1]; rfl, h.2.setReg hf _⟩

theorem fifo (h : OnlyHf l s t) (hu : OnlyFifo l t u) : OnlyHf l s u := ⟨by rw [hu.1, h.1], h.2.trans hu.2⟩

theorem fieldOff (h : OnlyHf l s t) (hl : whole Adr.HF_STAT ∈ l) : OnlyHf l s (hfFieldOff t) := by
  unfold hfFieldOff
  split
  · exact (h.setFld hl 0).setHf _
  · exact h

end OnlyHf

/-- What the result of a command of the session writes (R326, R329). -/
abbrev hfResultFlds : List Field := [Fld.HF_IMMSTAT_BUSY, Fld.HF_IMMSTAT_RESULT, Fld.HF_IMMSTAT_REASON] ++ packetFlds

theorem apart_packetFlds_hf {f : Field} (h : f.addr = Adr.HF_IMMSTAT ∨ f.addr = Adr.HF_STAT) : ∀ g ∈ packetFlds, f.apart g := by
  refine apart_packetFlds ?_ ?_ fun n hn => ?_
  · rcases h with h | h <;> rw [h] <;> decide
  · rcases h with h | h <;> rw [h] <;> decide
  · rcases h with h | h <;> rw [h] <;> (revert n; decide)

/-- The three fields of a result stand in `HF_IMMSTAT` before the SESSION packet is written. -/
def resultState (s : State) (result reason : Nat) : State :=
  setFld (setFld (clrFld s Fld.HF_IMMSTAT_BUSY) Fld.HF_IMMSTAT_RESULT result) Fld.HF_IMMSTAT_REASON reason

/-- The SESSION packet moves nothing but its channel. -/
theorem hfResult_packet (s : State) (v : HfVisit) (result reason rxlen : Nat) :
    OnlyFifo packetFlds (resultState s result reason) (hfResult s v result reason rxlen) :=
  (OnlyFifo.refl _ _).admitPacket (List.Subset.refl _) (by decide) _

theorem hfResult_only (s : State) (v : HfVisit) (result reason rxlen : Nat) :
    OnlyFifo hfResultFlds s (hfResult s v result reason rxlen) :=
  ((((OnlyFifo.refl _ s).setFld (by simp) 0).setFld (by simp) result).setFld (by simp) reason).admitPacket
    (List.subset_append_right _ _) (by decide) _

/-- The fields of a result read as they were written (R326, R327). -/
theorem hfResult_reads (s : State) (v : HfVisit) {result reason : Nat} (hr : result < 8) (hq : reason < 256) (rxlen : Nat) :
    fld (hfResult s v result reason rxlen) Fld.HF_IMMSTAT_BUSY = 0 ∧
      fld (hfResult s v result reason rxlen) Fld.HF_IMMSTAT_RESULT = result ∧
      fld (hfResult s v result reason rxlen) Fld.HF_IMMSTAT_REASON = reason := by
  have h := (hfResult_packet s v result reason rxlen).2
  refine ⟨?_, ?_, ?_⟩
  · rw [h.fld_eq (apart_packetFlds_hf (.inl rfl)), resultState, fld_setFld_apart _ _ _ _ (by decide),
      fld_setFld_apart _ _ _ _ (by decide), fld_clrFld_self _ _ (by decide)]
  · rw [h.fld_eq (apart_packetFlds_hf (.inl rfl)), resultState, fld_setFld_apart _ _ _ _ (by decide),
      fld_setFld_of_lt _ (by decide) hr]
  · rw [h.fld_eq (apart_packetFlds_hf (.inl rfl)), resultState, fld_setFld_of_lt _ (by decide) hq]

/-- A field of the reader beside the result is as it was. -/
theorem hfResult_fld (s : State) (v : HfVisit) (result reason rxlen : Nat) {f : Field}
    (h : f.addr = Adr.HF_IMMSTAT ∨ f.addr = Adr.HF_STAT)
    (hf : ∀ g ∈ [Fld.HF_IMMSTAT_BUSY, Fld.HF_IMMSTAT_RESULT, Fld.HF_IMMSTAT_REASON], f.apart g) :
    fld (hfResult s v result reason rxlen) f = fld s f :=
  (hfResult_only s v result reason rxlen).2.fld_eq fun g hg => (List.mem_append.1 hg).elim (hf g) (apart_packetFlds_hf h g)

theorem fld_of_not_flag {s : State} {f : Field} (h1 : f.hi = f.lo) (h : flag s f = false) : fld s f = 0 := by
  have hlt : fld s f < 2 := by simpa [h1] using fld_lt s f
  have hne : fld s f ≠ 1 := by simpa [flag] using h
  omega

theorem fieldOff_reads (s : State) : fld (hfFieldOff s) Fld.HF_STAT_FIELD = 0 := by
  unfold hfFieldOff
  split
  · exact fld_clrFld_self s _ (by decide)
  · next h => exact fld_of_not_flag rfl (by simpa using h)

/-- A row that moves no round, no field and no slot brings no boundary (R38, R39). -/
theorem row_of_work_kept {s t : State} (hb : t.brm = s.brm) (hd : t.hf.drive = s.hf.drive) (hl : t.lnk = s.lnk) :
    row s (fun _ => t) = t := by
  have hw : workEnded s t = false := by
    unfold workEnded
    rw [hb, hd, hl]
    simp
  exact if_neg (by rw [hw]; exact Bool.false_ne_true)

theorem row_of_fifo {s t : State} {l : List Field} (h : OnlyFifo l (hfQuiet s) t) : row s (fun _ => t) = t := by
  apply row_of_work_kept <;> rw [h.1] <;> rfl

theorem row_self (s : State) : row s (fun _ => s) = s := row_of_work_kept rfl rfl rfl

/-! ### Commands reach the reader (R325, R326, R339) -/

section
variable {s : State} {lvl : Level} (hp : permitted s lvl Adr.HF_IMM true = true)
include hp

/-- OPEN while another command runs does nothing; else it acts on the new step (R326). -/
theorem exec_open (e : BitVec 10) (g : BitVec 7) :
    exec (.open_ lvl e g) s = .next (hfCommand s fun u => hfOpen u e.toNat g.toNat) := congrArg Host.Outcome.next (if_pos hp)

theorem asWrite_hfImm (eff : State → State) :
    (row s fun r => asWrite r lvl Adr.HF_IMM eff) = row s fun _ => eff s := by
  have h : asWrite s lvl Adr.HF_IMM eff = eff s := if_pos hp
  exact congrArg (fun t => row s fun _ => t) h

theorem exec_xchg : exec (.xchg lvl) s = .next (row s fun _ => hfCommand s fun u => hfInSession u 2 hfXchg) :=
  congrArg Host.Outcome.next (asWrite_hfImm hp _)

theorem exec_raw : exec (.raw lvl) s = .next (row s fun _ => hfCommand s fun u => hfInSession u 3 hfRaw) :=
  congrArg Host.Outcome.next (asWrite_hfImm hp _)

theorem exec_close : exec (.close lvl) s = .next (row s fun _ => hfCommand s fun u => hfInSession u 4 hfClose) :=
  congrArg Host.Outcome.next (asWrite_hfImm hp _)

end

theorem hfCommand_busy {s : State} (h : fld s Fld.HF_IMMSTAT_BUSY = 1) (eff : State → State) : hfCommand s eff = s :=
  if_pos (by simp [flag, h])

theorem hfCommand_idle {s : State} (h : fld s Fld.HF_IMMSTAT_BUSY = 0) (eff : State → State) :
    hfCommand s eff = eff (hfQuiet s) := if_neg (by simp [flag, h])

theorem hfInSession_of_none {s : State} (h : s.hf.visit = none) (op : Nat) (eff : State → HfVisit → State) :
    hfInSession s op eff = hfResult s (hfNoVisit op) 2 0x40 0 := by rw [hfInSession, h]

theorem hfInSession_of_open {s : State} {v : HfVisit} (h : s.hf.visit = some v) (hs : v.session = true) (ho : v.phase = .open_)
    (op : Nat) (eff : State → HfVisit → State) : hfInSession s op eff = eff s v := by
  rw [hfInSession, h]
  exact if_pos ⟨hs, ho⟩

/-! ### OPEN (R325, R326) -/

/-- An entry that is no HF entry, or a target without HF leaves, is refused (R326). -/
theorem hfOpen_of_bad {s : State} {entry target : Nat}
    (h : (∀ x, entryAt s entry = some x → classKind (eClass x) ≠ 2) ∨ hfLeaves s target = []) :
    hfOpen s entry target = hfResult s (hfNoVisit 1) 2 3 0 := by
  refine if_pos (Bool.or_eq_true_iff.2 (h.imp (fun h => ?_) fun h => by rw [h]; rfl))
  cases hx : entryAt s entry with
  | none => rfl
  | some x => simpa using h x hx

theorem hfOpen_of_good {s : State} {entry target : Nat} {x : Entry} (hx : entryAt s entry = some x)
    (hk : classKind (eClass x) = 2) (hl : hfLeaves s target ≠ []) :
    hfOpen s entry target =
      if flag s Fld.HF_IMMSTAT_OPEN then hfResult s { hfNoVisit 1 with leaf := (s.hf.visit.map fun v => v.leaf).getD 0 } 2 0x42 0
      else hfPost (setFlag { s with hf := { s.hf with opening := some (entry, target) } } Fld.HF_IMMSTAT_BUSY) := by
  refine if_neg ?_
  rw [hx]
  simpa [hk] using hl

/-- The request of an OPEN as it is posted asks for HFD, whatever COEX adds (R148). -/
theorem hfd_asPosted (s : State) {r : Request} (hm : r.mask = 2 ^ resHfd) : (asPostedNow s r).mask.testBit resHfd = true := by
  unfold asPostedNow withCoex
  dsimp only
  rw [hm]
  (repeat' split) <;> simp [resHfd, Nat.testBit]

/-- The request of an OPEN is posted where its consumer may post; without that the OPEN waits (R145, R154). -/
theorem hfPost_opens {s : State} (h : s.hf.opening.isSome = true) :
    ∃ t, hfPost s = t ∧ t.hf = s.hf ∧ t = { s with regs := t.regs, sched := t.sched } ∧ FldsKept cxFlds s t ∧
      (mayPost s .hostHf = true → ∃ q, t.sched.requests = s.sched.requests ++ [q] ∧ q.who = .hostHf ∧ q.cls = .c1 ∧
        q.mask.testBit resHfd = true ∧ t.sched.point = true) := by
  rw [hfPost, if_pos h]
  generalize hr : ({ who := .hostHf, cls := .c1, mask := 2 ^ resHfd, kind := .hfSession, air := .hf } : Request) = r
  have hbit : (asPostedNow s r).mask.testBit resHfd = true := hfd_asPosted s (by rw [← hr])
  have hwho : r.who = .hostHf := by rw [← hr]
  by_cases hmay : mayPost s .hostHf = true
  · have hne : (asPostedNow s r).mask ≠ 0 := fun h0 => by simp [h0] at hbit
    rw [postRequest_of_plain hne (hwho ▸ hmay) (.inr (by rw [← hr]))]
    have hp := putRequest_posts s (asPostedNow s r)
    exact ⟨_, rfl, by rw [hp.state], hp.state, hp.kept, fun _ => ⟨_, hp.requests, hwho, by rw [← hr]; rfl, hbit, hp.point⟩⟩
  · rw [postRequest_of_not (.inr (by rw [hwho]; simpa using hmay))]
    exact ⟨s, rfl, rfl, rfl, .refl _ s, fun h => absurd h hmay⟩

/-! ### XCHG and RAW (R320–R323) -/

/-- The length of the transmit buffer can be sent (R326, R328). -/
theorem txlen_fits {n : Nat} (h0 : 0 < n) (h1 : n ≤ 4096) : ¬(n = 0 ∨ 4096 < n) := by omega

theorem hfXchg_of_inactive {s : State} (h : fld s Fld.HF_IMMSTAT_ACT = 0) (v : HfVisit) :
    hfXchg s v = hfResult s { v with op := 2 } 2 0x41 0 := if_pos (by simp [flag, h])

theorem hfXchg_of_active {s : State} (h : fld s Fld.HF_IMMSTAT_ACT = 1) (h0 : 0 < fld s Fld.HF_TXLEN_LEN)
    (h1 : fld s Fld.HF_TXLEN_LEN ≤ 4096) (v : HfVisit) :
    hfXchg s v = if hfWarned s v then hfSessionEnd s { v with op := 2 } 3
      else hfIGo (setFlag s Fld.HF_IMMSTAT_BUSY) { v with op := 2 }
        { tx := pieces (v.fsc - 3) 4097 (hfTxBytes s (fld s Fld.HF_TXLEN_LEN)), sentAt := 0 } := by
  unfold hfXchg
  dsimp only
  rw [if_neg (by simp [flag, h]), if_neg (txlen_fits h0 h1)]
  rfl

theorem hfRaw_of_fits {s : State} (h0 : 0 < fld s Fld.HF_TXLEN_LEN) (h1 : fld s Fld.HF_TXLEN_LEN ≤ 4096) {v : HfVisit}
    (hw : hfWarned s v = false) :
    hfRaw s v = hfAsk (setFlag (setVisit s (some { v with op := 3, phase := .raw })) Fld.HF_IMMSTAT_BUSY) v
      (.raw (flag s Fld.HF_RAW_CRC) (fld s Fld.HF_RAW_TXBITS) (hfTxBytes s (fld s Fld.HF_TXLEN_LEN))) (us (rawTmo s)) := by
  unfold hfRaw
  dsimp only
  rw [if_neg (txlen_fits h0 h1)]
  exact if_neg (by rw [show hfWarned s { v with op := 3 } = hfWarned s v from rfl, hw]; exact Bool.false_ne_true)

/-- A frame that asks for an answer waits for it from its end, before which no other goes out (R307). -/
theorem hfAsk_reads (s : State) (v : HfVisit) (c : HfCmd) (window : Nat) :
    hfAsk s v c window = { s with hf := (hfAsk s v c window).hf } ∧ (hfAsk s v c window).hf.visit = s.hf.visit ∧
      (hfAsk s v c window).hf.sent = s.hf.sent ++ [c] ∧ (hfAsk s v c window).hf.drive = s.hf.drive ∧
      (hfAsk s v c window).hf.wtx = s.hf.wtx ∧
      (hfAsk s v c window).hf.nextAt = hfFrameEnd s v c ∧
      (hfAsk s v c window).hf.answerBy = some ((hfAsk s v c window).hf.nextAt + window) :=
  ⟨rfl, rfl, rfl, rfl, rfl, rfl, rfl⟩

@[simp] theorem hfWarned_hfQuiet (s : State) (v : HfVisit) : hfWarned (hfQuiet s) v = hfWarned s v := rfl

theorem hfAbortFlags_hf (s : State) (reason : Nat) (session : Bool) : (hfAbortFlags s reason session).hf = s.hf := by
  unfold hfAbortFlags
  split <;> rfl

/-- A session that ends with no command in hand leaves its reason (R327). -/
theorem hfSessionEnd_idle {s : State} (h : fld s Fld.HF_IMMSTAT_BUSY = 0) (v : HfVisit) {reason : Nat} (hq : reason < 256) :
    (hfSessionEnd s v reason).hf.visit = none ∧ fld (hfSessionEnd s v reason) Fld.HF_IMMSTAT_RESULT = 5 ∧
      fld (hfSessionEnd s v reason) Fld.HF_IMMSTAT_REASON = reason := by
  unfold hfSessionEnd
  dsimp only
  rw [if_neg (by simp [flag, h])]
  refine ⟨congrArg Hf.visit (hfAbortFlags_hf _ reason true), ?_, ?_⟩
  · rw [fld_setFld_apart _ _ _ _ (by decide), fld_setFld_of_lt _ (by decide) (by decide)]
  · exact fld_setFld_of_lt _ (by decide) hq

/-! ### CLOSE (R325) -/

/-- What stands when a CLOSE has taken the field off, before its result. -/
def closedState (s : State) (v : HfVisit) : State :=
  let s1 := if flag s Fld.HF_IMMSTAT_ACT then hfEmit s v .deselect else s
  clrFld (clrFld (setFld (setVisit (hfFieldOff s1) none) Fld.HF_STAT_LASTEND 10) Fld.HF_IMMSTAT_OPEN) Fld.HF_IMMSTAT_ACT

theorem hfClose_eq (s : State) (v : HfVisit) :
    hfClose s v = endGrant (hfResult (closedState s v) { v with op := 4 } 1 0 0) .hostHf := rfl

theorem closedState_only {s u : State} (h : OnlyHf hfFlds s u) (v : HfVisit) : OnlyHf hfFlds s (closedState u v) := by
  have h1 : OnlyHf hfFlds s (if flag u Fld.HF_IMMSTAT_ACT then hfEmit u v .deselect else u) := by
    split
    · exact h.setHf _
    · exact h
  exact ((((h1.fieldOff (by simp [hfFlds])).setHf _).setFld (by decide) 10).setFld (by decide) 0).setFld (by decide) 0

theorem closedState_reads (s : State) (v : HfVisit) :
    (closedState s v).hf.visit = none ∧ fld (closedState s v) Fld.HF_IMMSTAT_OPEN = 0 ∧
      fld (closedState s v) Fld.HF_IMMSTAT_ACT = 0 ∧ fld (closedState s v) Fld.HF_STAT_FIELD = 0 ∧
      fld (closedState s v) Fld.HF_STAT_LASTEND = 10 := by
  unfold closedState
  dsimp only
  refine ⟨rfl, ?_, fld_clrFld_self _ _ (by decide), ?_, ?_⟩
  · rw [clrFld, fld_setFld_apart _ _ _ _ (by decide), fld_clrFld_self _ _ (by decide)]
  · rw [clrFld, fld_setFld_apart _ _ _ _ (by decide), clrFld, fld_setFld_apart _ _ _ _ (by decide),
      fld_setFld_apart _ _ _ _ (by decide)]
    exact fieldOff_reads _
  · rw [clrFld, fld_setFld_apart _ _ _ _ (by decide), clrFld, fld_setFld_apart _ _ _ _ (by decide),
      fld_setFld_of_lt _ (by decide) (by decide)]

/-- The host's grant ends without an entry to name. -/
theorem endGrant_hostHf_frame (s : State) :
    endGrant s .hostHf = { s with clk := (endGrant s .hostHf).clk, sched := (endGrant s .hostHf).sched } := by
  unfold endGrant rfOver
  dsimp only
  (repeat' split) <;> rfl

/-! ### The transmit length (R328, R339) -/

/-- CLR is always 1 in what TXLEN_CLR writes, and the length is the value's. -/
theorem txlen_value (value : Word) :
    bitsOf (putBits value 31 31 1) 31 31 = 1 ∧ bitsOf (putBits value 31 31 1) 12 0 = bitsOf value 12 0 :=
  ⟨bitsOf_putBits_same value 1 (by decide), bitsOf_putBits_apart value 1 (.inl (by decide))⟩

theorem exec_txlenClr {s : State} {lvl : Level} (hp : permitted s lvl Adr.HF_TXLEN true = true) (value : Word) :
    exec (.txlenClr lvl value) s =
      .next (hfTxlen (rsvCheck s Adr.HF_TXLEN value) (putBits value 31 31 1)) :=
  congrArg Host.Outcome.next (if_pos hp)

theorem hfTxlen_busy {s : State} (h : fld s Fld.HF_IMMSTAT_BUSY = 1) (w : Word) : hfTxlen s w = setFlag s Fld.HF_STAT_BUFERR :=
  if_pos (by simp [flag, h])

theorem hfTxlen_clears {s : State} (h : fld s Fld.HF_IMMSTAT_BUSY = 0) {w : Word} (hw : bitsOf w 31 31 = 1) :
    hfTxlen s w = setFld { setFld s Fld.HF_TXLEN_LEN (bitsOf w 12 0) with hf := { s.hf with tx := [], rx := [] } }
      Fld.HF_IMMSTAT_RXLEN 0 := by
  unfold hfTxlen
  rw [if_neg (by simp [flag, h])]
  exact if_pos hw

/-- The check of reserved fields leaves BUSY. -/
theorem busy_rsvCheck (s : State) (a : Nat) (w : Word) :
    fld (rsvCheck s a w) Fld.HF_IMMSTAT_BUSY = fld s Fld.HF_IMMSTAT_BUSY :=
  ((FldsKept.refl [Fld.HSP_STAT_RANGE] s).rsvCheck (by simp) a w).fld_eq (by unfold Field.apart; decide)

/-! ### The obligation's parts -/

theorem openIsRefused {s : State} {entry target : Nat}
    (h : (∀ x, entryAt s entry = some x → classKind (eClass x) ≠ 2) ∨ hfLeaves s target = []) :
    ∃ t, hfOpen (hfQuiet s) entry target = t ∧ fld t Fld.HF_IMMSTAT_RESULT = 2 ∧ fld t Fld.HF_IMMSTAT_REASON = 3 ∧
      fld t Fld.HF_IMMSTAT_BUSY = 0 ∧ FldsKept hfResultFlds s t := by
  obtain ⟨hbusy, hres, hreason⟩ := hfResult_reads (hfQuiet s) (hfNoVisit 1) (result := 2) (reason := 3) (by decide) (by decide) 0
  exact ⟨_, hfOpen_of_bad h, hres, hreason, hbusy,
    ((FldsKept.refl _ s).regs rfl).trans (hfResult_only (hfQuiet s) (hfNoVisit 1) 2 3 0).2⟩

theorem openOfOpenSessionIsRefused {s : State} {entry target : Nat} {x : Entry} (hx : entryAt s entry = some x)
    (hk : classKind (eClass x) = 2) (hl : hfLeaves s target ≠ []) (ho : fld s Fld.HF_IMMSTAT_OPEN = 1) :
    ∃ t, hfOpen (hfQuiet s) entry target = t ∧ fld t Fld.HF_IMMSTAT_RESULT = 2 ∧ fld t Fld.HF_IMMSTAT_REASON = 0x42 ∧
      fld t Fld.HF_IMMSTAT_OPEN = 1 := by
  refine ⟨_, (hfOpen_of_good (s := hfQuiet s) hx hk hl).trans (if_pos (by rw [flag, beq_iff_eq]; exact ho)), ?_⟩
  obtain ⟨-, hres, hreason⟩ := hfResult_reads (hfQuiet s)
    { hfNoVisit 1 with leaf := ((hfQuiet s).hf.visit.map fun v => v.leaf).getD 0 } (result := 2) (reason := 0x42)
    (by decide) (by decide) 0
  exact ⟨hres, hreason, (hfResult_fld _ _ _ _ _ (.inl rfl) (by unfold Field.apart; decide)).trans ho⟩

theorem openWaitsForItsGrant {s : State} {entry target : Nat} {x : Entry} (hx : entryAt s entry = some x)
    (hk : classKind (eClass x) = 2) (hl : hfLeaves s target ≠ []) (ho : fld s Fld.HF_IMMSTAT_OPEN = 0) :
    ∃ t, hfOpen (hfQuiet s) entry target = t ∧ fld t Fld.HF_IMMSTAT_BUSY = 1 ∧ t.hf.opening = some (entry, target) ∧
      (mayPost s .hostHf = true → ∃ q, t.sched.requests = s.sched.requests ++ [q] ∧ q.who = .hostHf ∧ q.cls = .c1 ∧
        q.mask.testBit resHfd = true ∧ t.sched.point = true) ∧ FldsKept (Fld.HF_IMMSTAT_BUSY :: cxFlds) s t ∧
      t = { s with regs := t.regs, fresh := t.fresh, hf := t.hf, sched := t.sched } := by
  let u : State := setFlag { hfQuiet s with hf := { (hfQuiet s).hf with opening := some (entry, target) } } Fld.HF_IMMSTAT_BUSY
  have hu : hfOpen (hfQuiet s) entry target = hfPost u :=
    (hfOpen_of_good (s := hfQuiet s) hx hk hl).trans (if_neg (by
      rw [flag, beq_iff_eq, show fld (hfQuiet s) Fld.HF_IMMSTAT_OPEN = fld s Fld.HF_IMMSTAT_OPEN from rfl, ho]; decide))
  have hbusy : fld u Fld.HF_IMMSTAT_BUSY = 1 := fld_setFld_of_lt _ (by decide) (by decide)
  have hkept : FldsKept (Fld.HF_IMMSTAT_BUSY :: cxFlds) s u := ((FldsKept.refl _ s).regs rfl).setFlag List.mem_cons_self
  have hstate : u = { s with regs := u.regs, fresh := u.fresh, hf := u.hf } := rfl
  have hopening : u.hf.opening = some (entry, target) := rfl
  have hsched : u.sched = s.sched := rfl
  have hmay : mayPost u .hostHf = mayPost s .hostHf := rfl
  rw [hu]
  generalize u = u at *
  obtain ⟨t, ht, hhf, heq, hcx, hpost⟩ := hfPost_opens (s := u) (by rw [hopening]; rfl)
  rw [hsched, hmay] at hpost
  exact ⟨t, ht, (hcx.fld_eq (by unfold Field.apart; decide)).trans hbusy, by rw [hhf, hopening], hpost,
    hkept.trans (hcx.mono fun _ => List.mem_cons_of_mem _), by rw [heq, hstate]⟩

theorem commandWithoutSessionIsRefused {s : State} (h : s.hf.visit = none) (op : Nat) (eff : State → HfVisit → State) :
    ∃ t, fld t Fld.HF_IMMSTAT_RESULT = 2 ∧ fld t Fld.HF_IMMSTAT_REASON = 0x40 ∧
      (row s fun _ => hfInSession (hfQuiet s) op eff) = t ∧ FldsKept hfResultFlds s t ∧
      t = { s with regs := t.regs, fresh := t.fresh, fifo := t.fifo, hf := t.hf } := by
  obtain ⟨-, hres, hreason⟩ := hfResult_reads (hfQuiet s) (hfNoVisit op) (result := 2) (reason := 0x40) (by decide) (by decide) 0
  have honly := hfResult_only (hfQuiet s) (hfNoVisit op) 2 0x40 0
  rw [hfInSession_of_none (s := hfQuiet s) h]
  exact ⟨_, hres, hreason, row_of_fifo honly, (((OnlyHf.refl _ s).setHf _).fifo honly).2, (((OnlyHf.refl _ s).setHf _).fifo honly).1⟩

theorem xchgOfInactiveCardIsRefused {s : State} (h : fld s Fld.HF_IMMSTAT_ACT = 0) (v : HfVisit) :
    ∃ t, (row s fun _ => hfXchg (hfQuiet s) v) = t ∧ fld t Fld.HF_IMMSTAT_RESULT = 2 ∧ fld t Fld.HF_IMMSTAT_REASON = 0x41 := by
  obtain ⟨-, hres, hreason⟩ := hfResult_reads (hfQuiet s) { v with op := 2 } (result := 2) (reason := 0x41) (by decide)
    (by decide) 0
  rw [hfXchg_of_inactive (s := hfQuiet s) h]
  exact ⟨_, row_of_fifo (hfResult_only _ _ _ _ _), hres, hreason⟩

theorem xchgAfterWarningEndsTheSession {s : State} {v : HfVisit} (hb : fld s Fld.HF_IMMSTAT_BUSY = 0)
    (ha : fld s Fld.HF_IMMSTAT_ACT = 1) (h0 : 0 < fld s Fld.HF_TXLEN_LEN) (h1 : fld s Fld.HF_TXLEN_LEN ≤ 4096)
    (hw : hfWarned s v = true) :
    ∃ t, (row s fun _ => hfXchg (hfQuiet s) v) = (row s fun _ => t) ∧ t.hf.visit = none ∧ fld t Fld.HF_IMMSTAT_RESULT = 5 ∧
      fld t Fld.HF_IMMSTAT_REASON = 3 := by
  rw [hfXchg_of_active (s := hfQuiet s) ha h0 h1, hfWarned_hfQuiet, if_pos hw]
  exact ⟨_, rfl, hfSessionEnd_idle (s := hfQuiet s) hb { v with op := 2 } (by decide)⟩

theorem xchgSendsItsFirstBlock {s : State} {v : HfVisit} (ha : fld s Fld.HF_IMMSTAT_ACT = 1)
    (h0 : 0 < fld s Fld.HF_TXLEN_LEN) (h1 : fld s Fld.HF_TXLEN_LEN ≤ 4096) (hw : hfWarned s v = false) :
    ∃ t x, (row s fun _ => hfXchg (hfQuiet s) v) = t ∧ fld t Fld.HF_IMMSTAT_BUSY = 1 ∧
      t.hf.visit = some { v with op := 2, phase := .xchg x } ∧ x.sentAt = t.hf.nextAt ∧
      t.hf.answerBy = some (t.hf.nextAt + winBlock s) ∧ t.hf.wtx = 0 ∧
      x.tx = pieces (v.fsc - 3) 4097 (hfTxBytes s (fld s Fld.HF_TXLEN_LEN)) ∧
      t.hf.sent = [.iBlock v.num (1 < x.tx.length) (x.tx.headD [])] ∧
      FldsKept [Fld.HF_IMMSTAT_BUSY] s t ∧ t = { s with regs := t.regs, fresh := t.fresh, hf := t.hf } := by
  let u : State := setFlag (hfQuiet s) Fld.HF_IMMSTAT_BUSY
  have hbusy : fld u Fld.HF_IMMSTAT_BUSY = 1 := fld_setFld_of_lt _ (by decide) (by decide)
  have hkept : FldsKept [Fld.HF_IMMSTAT_BUSY] s u := ((FldsKept.refl _ s).regs rfl).setFlag List.mem_cons_self
  have hstate : u = { s with regs := u.regs, fresh := u.fresh, hf := u.hf } := rfl
  have hhf : u.hf = { s.hf with sent := [] } := rfl
  rw [hfXchg_of_active (s := hfQuiet s) ha h0 h1, if_neg (by simp [hw]),
    show hfTxBytes (hfQuiet s) (fld (hfQuiet s) Fld.HF_TXLEN_LEN) = hfTxBytes s (fld s Fld.HF_TXLEN_LEN) from rfl]
  change ∃ t x, (row s fun _ => hfIGo u { v with op := 2 } _) = t ∧ _
  generalize pieces (v.fsc - 3) 4097 (hfTxBytes s (fld s Fld.HF_TXLEN_LEN)) = ps
  generalize u = u at *
  refine ⟨_, { tx := ps, sentAt := hfFrameEnd u { v with op := 2 } (hfBlock { v with op := 2 } { tx := ps, sentAt := 0 }) },
    row_of_work_kept ?_ ?_ ?_, hbusy, rfl, rfl, ?_, rfl, rfl, ?_, hkept.regs rfl, ?_⟩
  · rw [hstate]; rfl
  · rw [show (hfIGo u _ _).hf.drive = u.hf.drive from rfl, hhf]
  · rw [hstate]; rfl
  · rw [show winBlock s = winBlock u by rw [winBlock, winBlock, hhf]]; rfl
  · rw [show (hfIGo u _ _).hf.sent = u.hf.sent ++ _ from rfl, hhf]; rfl
  · rw [hstate]; rfl

theorem rawSendsItsBytes {s : State} {v : HfVisit} (h0 : 0 < fld s Fld.HF_TXLEN_LEN) (h1 : fld s Fld.HF_TXLEN_LEN ≤ 4096)
    (hw : hfWarned s v = false) :
    ∃ t, (row s fun _ => hfRaw (hfQuiet s) v) = t ∧ fld t Fld.HF_IMMSTAT_BUSY = 1 ∧
      t.hf.visit = some { v with op := 3, phase := .raw } ∧
      t.hf.sent = [.raw (flag s Fld.HF_RAW_CRC) (fld s Fld.HF_RAW_TXBITS) (hfTxBytes s (fld s Fld.HF_TXLEN_LEN))] ∧
      t.hf.answerBy = some (t.hf.nextAt + us (max 100 (min 1000000 (fld s Fld.HF_RAW_TMO)))) ∧
      FldsKept [Fld.HF_IMMSTAT_BUSY] s t ∧ t = { s with regs := t.regs, fresh := t.fresh, hf := t.hf } := by
  let u : State := setFlag (setVisit (hfQuiet s) (some { v with op := 3, phase := .raw })) Fld.HF_IMMSTAT_BUSY
  have hbusy : fld u Fld.HF_IMMSTAT_BUSY = 1 := fld_setFld_of_lt _ (by decide) (by decide)
  have hkept : FldsKept [Fld.HF_IMMSTAT_BUSY] s u := ((FldsKept.refl _ s).regs rfl).setFlag List.mem_cons_self
  have hstate : u = { s with regs := u.regs, fresh := u.fresh, hf := u.hf } := rfl
  have hhf : u.hf = { s.hf with sent := [], visit := some { v with op := 3, phase := .raw } } := rfl
  rw [hfRaw_of_fits (s := hfQuiet s) h0 h1 hw]
  change ∃ t, (row s fun _ => hfAsk u v (.raw (flag s Fld.HF_RAW_CRC) (fld s Fld.HF_RAW_TXBITS)
    (hfTxBytes s (fld s Fld.HF_TXLEN_LEN))) (us (rawTmo s))) = t ∧ _
  generalize (HfCmd.raw _ _ _) = c
  generalize u = u at *
  obtain ⟨heq, hvisit, hsent, hdrive, -, -, hby⟩ := hfAsk_reads u v c (us (rawTmo s))
  generalize hfAsk u v c (us (rawTmo s)) = t at *
  refine ⟨t, row_of_work_kept ?_ ?_ ?_, ?_, ?_, ?_, hby, ?_, ?_⟩
  · rw [heq, hstate]
  · rw [hdrive, hhf]
  · rw [heq, hstate]
  · rw [heq]; exact hbusy
  · rw [hvisit, hhf]
  · rw [hsent, hhf]; rfl
  · rw [heq]; exact hkept.regs rfl
  · rw [heq, hstate]

theorem closeEndsTheSession (s : State) (v : HfVisit) :
    ∃ t, (row s fun _ => hfClose (hfQuiet s) v) = (row s fun _ => t) ∧ t.hf.visit = none ∧ fld t Fld.HF_IMMSTAT_OPEN = 0 ∧
      fld t Fld.HF_IMMSTAT_ACT = 0 ∧ fld t Fld.HF_IMMSTAT_RESULT = 1 ∧ fld t Fld.HF_STAT_FIELD = 0 ∧
      fld t Fld.HF_STAT_LASTEND = 10 ∧ grantOf t .hostHf = none ∧
      FldsKept (hfFlds ++ [Fld.SYS_STAT_CXREQ, Fld.SYS_STAT_CXPRI, Fld.SYS_STAT_XGNT]) s t ∧
      t = { s with regs := t.regs, fresh := t.fresh, fifo := t.fifo, hf := t.hf, sched := t.sched, clk := t.clk } := by
  have hc := closedState_only ((OnlyHf.refl hfFlds s).setHf (hfQuiet s).hf) v
  obtain ⟨hvisit, hopen, hact, hfield, hend⟩ := closedState_reads (hfQuiet s) v
  change OnlyHf hfFlds s (closedState (hfQuiet s) v) at hc
  rw [hfClose_eq]
  generalize closedState (hfQuiet s) v = c at *
  have hr := (((hc.setFld (f := Fld.HF_IMMSTAT_BUSY) (by decide) 0).setFld (f := Fld.HF_IMMSTAT_RESULT) (by decide) 1).setFld
    (f := Fld.HF_IMMSTAT_REASON) (by decide) 0).fifo
      ((hfResult_packet c { v with op := 4 } 1 0 0).mono (List.subset_append_right _ _))
  have hrvisit : (hfResult c { v with op := 4 } 1 0 0).hf = c.hf := by rw [(hfResult_only c { v with op := 4 } 1 0 0).1]
  obtain ⟨-, hres, -⟩ := hfResult_reads c { v with op := 4 } (result := 1) (reason := 0) (by decide) (by decide) 0
  have hbeside := fun {f : Field} => hfResult_fld c { v with op := 4 } 1 0 0 (f := f)
  have hropen := (hbeside (.inl rfl) (by unfold Field.apart; decide)).trans hopen
  have hract := (hbeside (.inl rfl) (by unfold Field.apart; decide)).trans hact
  have hrfield := (hbeside (.inr rfl) (by unfold Field.apart; decide)).trans hfield
  have hrend := (hbeside (.inr rfl) (by unfold Field.apart; decide)).trans hend
  generalize hfResult c { v with op := 4 } 1 0 0 = r at *
  have hg := endGrant_hostHf_frame r
  have hnone := grantOf_endGrant_self r .hostHf
  generalize endGrant r .hostHf = t at *
  have hregs : t.regs = r.regs := by rw [hg]
  refine ⟨t, rfl, ?_, (fld_congr hregs _).trans hropen, (fld_congr hregs _).trans hract, (fld_congr hregs _).trans hres,
    (fld_congr hregs _).trans hrfield, (fld_congr hregs _).trans hrend, hnone,
    (hr.2.mono fun _ h => List.mem_append_left _ h).regs hregs, ?_⟩
  · rw [hg, hrvisit, hvisit]
  · rw [hg, hr.1]

theorem txlenWhileBusyIsRefused {s : State} (h : fld s Fld.HF_IMMSTAT_BUSY = 1) (value w : Word) :
    ∃ t, hfTxlen (rsvCheck s Adr.HF_TXLEN value) w = t ∧ fld t Fld.HF_STAT_BUFERR = 1 ∧
      OnlyFlds [Fld.HF_STAT_BUFERR, Fld.HSP_STAT_RANGE] s t :=
  ⟨_, hfTxlen_busy ((busy_rsvCheck s _ value).trans h) w, fld_setFld_of_lt _ (by decide) (by decide),
    ((OnlyFlds.refl _ s).rsvCheck (by simp) _ value).setFlag (by simp)⟩

theorem txlenClearsTheBuffers {s : State} (h : fld s Fld.HF_IMMSTAT_BUSY = 0) (value : Word) :
    ∃ t, hfTxlen (rsvCheck s Adr.HF_TXLEN value) (putBits value 31 31 1) = t ∧ fld t Fld.HF_TXLEN_LEN = bitsOf value 12 0 ∧
      t.hf = { s.hf with tx := [], rx := [] } ∧ fld t Fld.HF_IMMSTAT_RXLEN = 0 ∧
      FldsKept [Fld.HF_TXLEN_LEN, Fld.HF_IMMSTAT_RXLEN, Fld.HSP_STAT_RANGE] s t ∧
      t = { s with regs := t.regs, fresh := t.fresh, hf := t.hf } := by
  obtain ⟨hclr, hlen⟩ := txlen_value value
  have hu := (OnlyFlds.refl [Fld.HF_TXLEN_LEN, Fld.HF_IMMSTAT_RXLEN, Fld.HSP_STAT_RANGE] s).rsvCheck (by simp) Adr.HF_TXLEN value
  have hb := (busy_rsvCheck s Adr.HF_TXLEN value).trans h
  generalize rsvCheck s Adr.HF_TXLEN value = u at *
  have hhf : u.hf = s.hf := by rw [hu.1]
  rw [hfTxlen_clears hb hclr, hlen]
  refine ⟨_, rfl, ?_, by rw [← hhf]; rfl, fld_setFld_of_lt _ (by decide) (by decide),
    ((hu.2.setFld (by simp) _).regs rfl).setFld (by simp) _, by rw [hu.1]; rfl⟩
  rw [fld_setFld_apart _ _ _ _ (by decide)]
  exact fld_setFld_of_lt _ (by decide) (Nat.mod_lt _ (by decide))

/-- Settles O37: each command is an equation of the model, read through what a result, a frame and the end of a field leave. -/
theorem hostHfCommands : Obligations.HostHfCommands := by
  unfold Obligations.HostHfCommands
  intro s lvl hp
  refine ⟨fun hb e g => ?_, fun hb => ⟨fun e g hbad => ?_, fun e g x hx hk hl => ⟨fun ho => ?_, fun ho => ?_⟩, fun hv => ?_,
    fun v hv hsess hopen => ⟨fun ha h0 h1 hw => ?_, fun ha h0 h1 hw => ?_, fun ha => ?_, fun h0 h1 hw => ?_, ?_⟩⟩,
    fun value hpt => ⟨fun hb => ?_, fun hb => ?_⟩⟩
  · rw [exec_open hp, exec_xchg hp, exec_raw hp, exec_close hp]
    simp only [hfCommand_busy hb, row_self, and_self]
  · rw [exec_open hp, hfCommand_idle hb]
    obtain ⟨t, rfl, h⟩ := openIsRefused hbad
    exact ⟨_, rfl, h⟩
  · rw [exec_open hp, hfCommand_idle hb]
    obtain ⟨t, rfl, h⟩ := openOfOpenSessionIsRefused hx hk hl ho
    exact ⟨_, rfl, h⟩
  · rw [exec_open hp, hfCommand_idle hb]
    obtain ⟨t, rfl, h⟩ := openWaitsForItsGrant hx hk hl ho
    exact ⟨_, rfl, h⟩
  · rw [exec_xchg hp, hfCommand_idle hb]
    obtain ⟨t, hres, hreason, rfl, h⟩ := commandWithoutSessionIsRefused hv 2 hfXchg
    exact ⟨_, hres, hreason, rfl, h⟩
  · rw [exec_xchg hp, hfCommand_idle hb, hfInSession_of_open (s := hfQuiet s) hv hsess hopen]
    obtain ⟨t, ht, h⟩ := xchgAfterWarningEndsTheSession hb ha h0 h1 hw
    exact ⟨t, congrArg _ ht, h⟩
  · rw [exec_xchg hp, hfCommand_idle hb, hfInSession_of_open (s := hfQuiet s) hv hsess hopen]
    obtain ⟨t, x, ht, h⟩ := xchgSendsItsFirstBlock ha h0 h1 hw
    exact ⟨t, x, congrArg _ ht, h⟩
  · rw [exec_xchg hp, hfCommand_idle hb, hfInSession_of_open (s := hfQuiet s) hv hsess hopen]
    obtain ⟨t, ht, h⟩ := xchgOfInactiveCardIsRefused ha v
    exact ⟨t, congrArg _ ht, h⟩
  · rw [exec_raw hp, hfCommand_idle hb, hfInSession_of_open (s := hfQuiet s) hv hsess hopen]
    obtain ⟨t, ht, h⟩ := rawSendsItsBytes h0 h1 hw
    exact ⟨t, congrArg _ ht, h⟩
  · rw [exec_close hp, hfCommand_idle hb, hfInSession_of_open (s := hfQuiet s) hv hsess hopen]
    obtain ⟨t, ht, h⟩ := closeEndsTheSession s v
    exact ⟨t, congrArg _ ht, h⟩
  · rw [exec_txlenClr hpt]
    obtain ⟨t, ht, h⟩ := txlenWhileBusyIsRefused hb value (putBits value 31 31 1)
    exact ⟨t, congrArg _ ht, h⟩
  · rw [exec_txlenClr hpt]
    obtain ⟨t, ht, h⟩ := txlenClearsTheBuffers hb value
    exact ⟨t, congrArg _ ht, h⟩

end Sys2Proof.Machine
/-! A journal without blocks is formatted (R481). -/

namespace Sys2Proof.Machine

/-- The journal is mounted on a NAND of no blocks; the start is not done, so that nothing arbitrates the memory port. -/
def mountedWithoutBlocks : State := { regs := [(Adr.JNL_STAT, 0x80000000)], jnl := { nblk := 0 } }

theorem mountedWithoutBlocks_runs :
    permitted mountedWithoutBlocks .supervisor Adr.JNL_CMD true = true ∧
      fld mountedWithoutBlocks Fld.JNL_STAT_MOUNTED = 1 ∧
      turnNow mountedWithoutBlocks (mspRequest .jnlRead .c1) = true := by
  refine ⟨?_, ?_, ?_⟩ <;> decide +kernel

/-- FORMAT acts within its step. -/
theorem exec_format_mountedWithoutBlocks :
    exec (.format .supervisor 0xA55A) mountedWithoutBlocks = .next (jformatRun mountedWithoutBlocks) := rfl

/-- No page can be programmed, so that no checkpoint stands on the NAND after the format. -/
theorem ckpt_jformatRun_mountedWithoutBlocks : (jformatRun mountedWithoutBlocks).jnl.ckpt.isSome = false := by
  decide +kernel

/-- Refutes O28: on a NAND of no blocks FORMAT programs no page, so that no frame-counter checkpoint stands after it. -/
theorem not_journalErasesFormatsReads : ¬ Obligations.JournalErasesFormatsReads := by
  unfold Obligations.JournalErasesFormatsReads
  intro h
  obtain ⟨hperm, hmounted, hturn⟩ := mountedWithoutBlocks_runs
  obtain ⟨-, -, -, hformat, -⟩ := h mountedWithoutBlocks .supervisor 0 0 false _ _ rfl rfl
  obtain ⟨-, -, hruns⟩ := hformat hperm
  obtain ⟨t, ht, -, -, hckpt, -⟩ := hruns rfl hmounted hturn rfl rfl
  have e : jformatRun mountedWithoutBlocks = t := Host.Outcome.next.inj (exec_format_mountedWithoutBlocks.symm.trans ht)
  rw [← e, ckpt_jformatRun_mountedWithoutBlocks] at hckpt
  exact Bool.false_ne_true hckpt

end Sys2Proof.Machine
/-! The tag's block commands (R348–R350, R352, R368): what a reply, a packet of the tag and a page's program leave. -/

namespace Sys2Proof.Machine

/-! ### What the tag's operations leave -/

/-- Nothing but registers, of those only the fields listed, channels and the tag's own state changed. -/
def OnlyTag (l : List Field) (s t : State) : Prop :=
  t = { s with regs := t.regs, fresh := t.fresh, tag := t.tag, fifo := t.fifo } ∧ FldsKept l s t

namespace OnlyTag

variable {l : List Field} {s t u : State}

theorem refl (l : List Field) (s : State) : OnlyTag l s s := ⟨rfl, .refl l s⟩

theorem setTag (h : OnlyTag l s t) (x : Tag) : OnlyTag l s { t with tag := x } := ⟨by rw [h.1], h.2.regs rfl⟩

theorem fifo (h : OnlyTag l s t) (hu : OnlyFifo l t u) : OnlyTag l s u := ⟨by rw [hu.1, h.1], h.2.trans hu.2⟩

theorem tagCount (h : OnlyTag l s t) {f : Field} (hf : f ∈ l) (n : Nat) : OnlyTag l s (tagCount t f n) := by
  unfold Machine.tagCount
  split
  · exact ⟨by rw [h.1]; rfl, h.2.setFld hf _⟩
  · exact h

theorem tagReply (h : OnlyTag l s t) (hl : Fld.TAG_CNT0_CMDS ∈ l) (bs : List Byte) : OnlyTag l s (tagReply t bs) :=
  (h.setTag _).tagCount hl 1

/-- A packet of the tag is written now or kept for later (R372). -/
theorem tge (h : OnlyTag l s t) (hl : packetFlds ⊆ l) (ws : List Word) : OnlyTag l s (tge t ws) := by
  unfold Machine.tge
  split
  · exact h
  · split
    · exact h.setTag _
    · exact h.fifo ((OnlyFifo.refl l t).admitPacket hl (by decide) ws)

end OnlyTag

/-! ### Replies (R375) -/

@[simp] theorem tagCount_tag (s : State) (f : Field) (n : Nat) : (tagCount s f n).tag = s.tag := by
  unfold tagCount
  split <;> rfl

@[simp] theorem tagReply_tag (s : State) (bs : List Byte) : (tagReply s bs).tag = { s.tag with reply := some bs } := by
  simp [tagReply]

@[simp] theorem tagReply_sched (s : State) (bs : List Byte) : (tagReply s bs).sched = s.sched := by
  rw [((OnlyTag.refl [Fld.TAG_CNT0_CMDS] s).tagReply List.mem_cons_self bs).1]

theorem tagReply_flds (s : State) (bs : List Byte) : FldsKept [Fld.TAG_CNT0_CMDS] s (tagReply s bs) :=
  ((OnlyTag.refl [Fld.TAG_CNT0_CMDS] s).tagReply List.mem_cons_self bs).2

theorem tagReply_state (s : State) (bs : List Byte) :
    tagReply s bs = { s with regs := (tagReply s bs).regs, tag := (tagReply s bs).tag } := by
  unfold tagReply tagCount
  split <;> rfl

/-- An error of the tag's choosing is a reply all the same (log entry 4). -/
theorem tagErrorFree_eq (s : State) :
    tagErrorFree s = tagReply { s with drawn := s.drawn + 1 } [1, wordByte (drawWord s).1 0] := rfl

theorem tagErrorFree_flds (s : State) : FldsKept [Fld.TAG_CNT0_CMDS] s (tagErrorFree s) :=
  ((FldsKept.refl _ s).regs rfl : FldsKept _ s { s with drawn := s.drawn + 1 }).trans (tagReply_flds _ _)

@[simp] theorem tagErrorFree_sched (s : State) : (tagErrorFree s).sched = s.sched := tagReply_sched _ _

/-- A packet of the tag leaves what the tag holds, but for the packets that wait (R372). -/
theorem tge_tag (s : State) (ws : List Word) : (tge s ws).tag = { s.tag with later := (tge s ws).tag.later } := by
  unfold tge
  split
  · rfl
  · split
    · rfl
    · rw [((OnlyFifo.refl packetFlds s).admitPacket (fun _ h => h) (by decide) ws).1]

/-! ### Requests of the field (R344, R354, R357) -/

/-- The state in which a request that reaches the tag is answered. -/
def heard (s : State) (h : TagHdr) : State := { s with tag := { s.tag with aes := aesKept s h, reply := none } }

theorem tagRequest_of_reaches {s : State} {h : TagHdr} (hr : reaches s h = true) (hf : h.fits = true) (eff : State → State) :
    tagRequest s h eff = eff (heard s h) := by
  have he : tagSilent (leaveAes s h) = heard s h := by
    unfold leaveAes heard aesKept
    split <;> rfl
  unfold tagRequest
  dsimp only
  rw [if_pos hr, he, if_pos hf]

/-- The tag's store is quiet: a grant of it counts and does nothing else. -/
theorem tagnvm_quiet : quietSet resTagnvm := .inr (.inr rfl)

/-- A read of the store runs at once, with its grant counted where it holds the store for it (R368). -/
theorem tagPeek_runs (s : State) {run : State → State} (hrun : ∀ u, (run u).sched = u.sched) :
    ∃ u x t, tagPeek s run = t ∧ Counted resTagnvm s u ∧ run u = x ∧ TurnTaken s t ∧ t = { x with sched := t.sched } := by
  unfold tagPeek
  dsimp only
  split
  · rw [countGrant_quiet s tagnvm_quiet (asPostedNow_quiet s tagnvm_quiet rfl rfl) rfl]
    refine ⟨_, _, _, rfl, .incSat resTagnvm s, rfl, .inr ?_, rfl⟩
    rw [grantPoint, hrun]
    rfl
  · exact ⟨s, _, _, rfl, .refl _ s, rfl, .inl (hrun s), rfl⟩

/-- The count of grants says nothing about the areas of the store. -/
theorem Counted.mayRead_eq {s u : State} (h : Counted resTagnvm s u) (page : Nat) : mayRead u page = mayRead s page := by
  have hfld : ∀ f : Field, f.addr ≠ Adr.SYS_RES_GRANT resTagnvm → fld u f = fld s f := fun f hf =>
    fld_of_reg_eq (h.reg_eq hf)
  unfold mayRead areaOf secured flag
  rw [hfld Fld.TAG_STAT_SECURED (by decide), hfld Fld.TAG_AREA_PROTPG (by decide), hfld Fld.TAG_AREA_FLTPG (by decide),
    hfld Fld.TAG_CFG_PROTRD (by decide), hfld Fld.TAG_CFG_FLTRD (by decide)]

/-! ### Reads (R349, R352) -/

theorem readBlocks_sched (s : State) (h : TagHdr) (first count : Nat) : (readBlocks s h first count).sched = s.sched := by
  unfold readBlocks tagError
  (repeat' split) <;> simp

/-- Blocks that lie in the store are read as a whole or refused as a whole. -/
theorem readBlocks_of_fits (s : State) (h : TagHdr) {first count : Nat} (h0 : 0 < count) (h1 : count ≤ 64)
    (h2 : first + count ≤ 16384) :
    readBlocks s h first count =
      if (List.range count).all fun k => mayRead s ((first + k) / 64) then tagReply s (0 :: blockBytes s h first count)
      else tagError s 0x15 := by
  unfold readBlocks
  rw [if_neg (by omega), if_neg (by omega)]

/-- What a read of blocks answers: the blocks, or that one of them may not be read (R349). -/
def readAnswer (s : State) (h : TagHdr) (first count : Nat) : List Byte :=
  if (List.range count).all fun k => mayRead s ((first + k) / 64) then 0 :: blockBytes s h first count else [1, 0x15]

theorem Counted.readBlocks_eq {s u : State} {h : TagHdr} (hu : Counted resTagnvm (heard s h) u) {first count : Nat}
    (h0 : 0 < count) (h1 : count ≤ 64) (h2 : first + count ≤ 16384) :
    readBlocks u h first count = tagReply u (readAnswer s h first count) := by
  have hread : (fun k => mayRead u ((first + k) / 64)) = fun k => mayRead s ((first + k) / 64) :=
    funext fun k => hu.mayRead_eq _
  have hbytes : blockBytes u h first count = blockBytes s h first count := by
    unfold blockBytes
    rw [hu.state]
    rfl
  rw [readBlocks_of_fits u h h0 h1 h2, hread, hbytes, readAnswer]
  split <;> rfl

/-- A read of blocks answers with one reply, whether it is allowed or refused. -/
theorem readBlocks_answers (s : State) (h : TagHdr) {first count : Nat} (h0 : 0 < count) (h1 : count ≤ 64)
    (h2 : first + count ≤ 16384) :
    ∃ t, tagPeek (heard s h) (fun u => readBlocks u h first count) = t ∧
      t.tag = { s.tag with aes := aesKept s h, reply := some (readAnswer s h first count) } ∧
      FldsKept [Fld.TAG_CNT0_CMDS, Fld.SYS_RES_GRANT_GRANTS resTagnvm] s t ∧ TurnTaken s t ∧
      t = { s with regs := t.regs, fresh := t.fresh, tag := t.tag, sched := t.sched } := by
  obtain ⟨u, x, t, ht, hu, hx, htaken, hstate⟩ := tagPeek_runs (heard s h) fun u => readBlocks_sched u h first count
  rw [hu.readBlocks_eq h0 h1 h2] at hx
  have hheard : FldsKept [Fld.SYS_RES_GRANT_GRANTS resTagnvm] s (heard s h) := (FldsKept.refl _ s).regs rfl
  have hkept := ((hheard.trans hu.kept).mono (List.subset_cons_self Fld.TAG_CNT0_CMDS _)).trans
    ((tagReply_flds u (readAnswer s h first count)).mono (List.cons_subset_cons _ (List.nil_subset _)))
  refine ⟨t, ht, ?_, by rw [hstate, ← hx]; exact hkept.regs rfl, htaken, ?_⟩
  · rw [hstate, ← hx, tagReply_tag, hu.state]
    rfl
  · rw [hstate, ← hx, tagReply_state, hu.state]
    rfl

/-! ### Generations (R367, R368) -/

theorem pageGen_congr {s t : State} (h : t.tag.gens = s.tag.gens) (p : Nat) : pageGen t p = pageGen s p := by
  rw [pageGen, h, pageGen]

/-- A page that is programmed is of the next generation; a generation of 0 is not listed. -/
theorem pageGen_bumpGen (s : State) (p : Nat) : pageGen (bumpGen s p) p = (pageGen s p + 1) % 256 := by
  have hnone : (s.tag.gens.filter fun x => x.1 != p).find? (fun g => g.1 == p) = none := by
    simp [List.find?_eq_none]
  unfold bumpGen
  dsimp only
  generalize (pageGen s p + 1) % 256 = g
  rw [pageGen]
  dsimp only
  rw [List.find?_append, hnone]
  split
  · next h0 => exact h0.symm
  · simp

/-! ### Programs of a page by the field (R349, R350, R368) -/

/-- The state whose store holds the blocks written, before the write is counted and reported. -/
def pageWritten (s : State) (first : Nat) (data : List Word) : State :=
  bumpGen { s with tag := { s.tag with
    store := bytesPut s.tag.store (4 * first) (unpackWords data)
    staged := s.tag.staged.map fun w => if w.page = first / 64 then { w with fieldWrote := true } else w } } (first / 64)

theorem fieldProgram_good (s : State) (first : Nat) (data : List Word) :
    fieldProgram s first data .good = tagReply (tge (tagCount (pageWritten s first data) Fld.TAG_CNT2_FWRITES 1)
      (tgeWords (pageWritten s first data) (3 * 2 ^ 28 + first / 64 * 2 ^ 20 + data.length * 2 ^ 13))) [0] := rfl

/-- What a write by the field moves among the registers (R372, R375). -/
abbrev fieldWriteFlds : List Field := [Fld.TAG_CNT0_CMDS, Fld.TAG_CNT2_FWRITES] ++ packetFlds

theorem fieldProgram_good_only (s : State) (first : Nat) (data : List Word) :
    OnlyTag fieldWriteFlds s (fieldProgram s first data .good) := by
  have hw : OnlyTag fieldWriteFlds s (pageWritten s first data) := (OnlyTag.refl _ s).setTag _
  rw [fieldProgram_good]
  exact ((hw.tagCount (by simp) 1).tge (List.subset_append_right _ _) _).tagReply (by simp) [0]

/-- After a program by the field the store holds its data, and its page is of the next generation. -/
theorem fieldProgram_good_tag (s : State) (first : Nat) (data : List Word) :
    (fieldProgram s first data .good).tag.store = bytesPut s.tag.store (4 * first) (unpackWords data) ∧
      (fieldProgram s first data .good).tag.reply = some [0] ∧
      pageGen (fieldProgram s first data .good) (first / 64) = (pageGen s (first / 64) + 1) % 256 := by
  have htag : ∃ x, (fieldProgram s first data .good).tag =
      { (pageWritten s first data).tag with later := x, reply := some [0] } := by
    rw [fieldProgram_good, tagReply_tag, tge_tag, tagCount_tag]
    exact ⟨_, rfl⟩
  obtain ⟨x, htag⟩ := htag
  refine ⟨by rw [htag]; rfl, by rw [htag], ?_⟩
  rw [pageGen_congr (s := pageWritten s first data) (by rw [htag]), pageWritten, pageGen_bumpGen]
  rfl

theorem apart_packetFlds_fwrites : ∀ g ∈ packetFlds, Fld.TAG_CNT2_FWRITES.apart g :=
  apart_packetFlds (by decide) (by decide) (by decide)

/-- A program by the field is counted, except in BACKUP (R375). -/
theorem fieldProgram_good_counted {s : State} (hm : mode s ≠ 0) (first : Nat) (data : List Word) :
    fld (fieldProgram s first data .good) Fld.TAG_CNT2_FWRITES = min 0xFFFF (fld s Fld.TAG_CNT2_FWRITES + 1) := by
  have hcount : tagCount (pageWritten s first data) Fld.TAG_CNT2_FWRITES 1 =
      incSat (pageWritten s first data) Fld.TAG_CNT2_FWRITES 1 := if_pos (bne_iff_ne.2 hm)
  rw [fieldProgram_good, (tagReply_flds _ _).fld_eq (by unfold Field.apart; decide), hcount,
    ((OnlyTag.refl packetFlds _).tge (fun _ h => h) _).2.fld_eq apart_packetFlds_fwrites, fld_incSat_self _ _ _ (by decide)]
  rfl

theorem fieldProgram_failed (s : State) (first : Nat) (data : List Word) :
    fieldProgram s first data .failed = tagErrorFree (progFail s (first / 64)) := rfl

theorem progFail_sched (s : State) (p : Nat) : (progFail s p).sched = s.sched := by
  unfold progFail
  split
  · rw [(fault_reports _ _ _ _ _).1]
    rfl
  · rfl

theorem fieldProgram_sched (s : State) (first : Nat) (data : List Word) (prog : ProgResult) :
    (fieldProgram s first data prog).sched = s.sched := by
  cases prog with
  | good => rw [(fieldProgram_good_only s first data).1]
  | failed => rw [fieldProgram_failed, tagErrorFree_sched, progFail_sched]

/-- A page that cannot be programmed keeps its contents (R350). -/
theorem fieldProgram_failed_store (s : State) (first : Nat) (data : List Word) :
    (fieldProgram s first data .failed).tag.store = s.tag.store := by simp [fieldProgram_failed]

/-- A program that failed is reported while the core runs or is retained (R350). -/
theorem fieldProgram_failed_reported {s : State} (hm : mode s ≠ 0) (first : Nat) (data : List Word) :
    fld (fieldProgram s first data .failed) Fld.TAG_STAT_PROGFAIL = 1 := by
  have hfail : progFail s (first / 64) = fault (setFlag s Fld.TAG_STAT_PROGFAIL) 0x0B 0 0x0B [BitVec.ofNat 8 (first / 64)] :=
    if_pos (bne_iff_ne.2 hm)
  rw [fieldProgram_failed, (tagErrorFree_flds _).fld_eq (by unfold Field.apart; decide), hfail,
    (fault_reports _ _ _ _ _).2.fld_eq (apart_packetFlds (by decide) (by decide) (by decide))]
  exact fld_setFld_of_lt _ (by decide) (by decide)

/-! ### Writes of blocks within one page (R349, R350, R368) -/

/-- Where its turn has come, an operation does not wait. -/
theorem turnOr_wait_irrelevant {s : State} {r : Request} (h : turnNow s r = true) (run wait wait' : State → State) :
    turnOr s r run wait = turnOr s r run wait' := by
  unfold turnOr
  dsimp only
  by_cases h1 : (!arbitrated s || covers (holdsOf s (asPostedNow s r).who) (asPostedNow s r).mask) = true
  · rw [if_pos h1, if_pos h1]
  · have h2 : (mayPost s (asPostedNow s r).who && atOnce s (asPostedNow s r)) = true :=
      (Bool.or_eq_true_iff.1 h).resolve_left h1
    rw [if_neg h1, if_neg h1, if_pos h2, if_pos h2]

/-- Blocks to write lie in one page of the store. -/
structure WriteFits (first : Nat) (data : List Word) : Prop where
  nonempty : data ≠ []
  inside : first + data.length ≤ 16384
  page : (first + data.length - 1) / 64 = first / 64

/-- A write that lies in one page takes its turn on the store, or is refused by the page's area. -/
theorem WriteFits.writeBlocks_eq {first : Nat} {data : List Word} (h : WriteFits first data) (s : State) (cmd : Instr)
    (prog : ProgResult) :
    writeBlocks s cmd first data prog =
      if mayWrite s (first / 64) then tagNvm s cmd fun t => fieldProgram t first data prog else tagError s 0x12 := by
  unfold writeBlocks
  dsimp only
  rw [if_neg (by simpa using h.nonempty), if_neg (not_or.2 ⟨Nat.not_lt.2 h.inside, not_not.2 h.page⟩)]
  cases mayWrite s (first / 64) <;> rfl

/-- A write whose turn has come runs now, whichever command asks for it. -/
theorem writeBlocks_runs {s : State} {first : Nat} {data : List Word} (h : WriteFits first data)
    (hmay : mayWrite s (first / 64) = true) (hturn : turnNow s (nvmRequest .tagEngine .c0) = true) (prog : ProgResult) :
    ∃ u x t, (∀ cmd, writeBlocks s cmd first data prog = t) ∧ Counted resTagnvm s u ∧ fieldProgram u first data prog = x ∧
      TurnTaken s t ∧ t = { x with sched := t.sched } := by
  obtain ⟨u, x, t, ht, hrest⟩ := turnOr_now tagnvm_quiet rfl rfl rfl hturn
    (fun u => fieldProgram_sched u first data prog) id
  refine ⟨u, x, t, fun cmd => ?_, hrest⟩
  rw [h.writeBlocks_eq, if_pos hmay, tagNvm, turn, turnOr_wait_irrelevant hturn _ _ id, ht]

/-- The count of grants says nothing about the mode. -/
theorem Counted.mode_eq {s u : State} (h : Counted resTagnvm s u) : mode u = mode s :=
  fld_of_reg_eq (h.reg_eq (by decide))

theorem writeOfBlocksIsDone {s : State} (h : TagHdr) (hs : StoresWf s) {first : Nat} {data : List Word} (hd : WriteFits first data)
    (hmay : mayWrite s (first / 64) = true) (hturn : turnNow s (nvmRequest .tagEngine .c0) = true) :
    ∃ t, (∀ cmd, writeBlocks (heard s h) cmd first data .good = t) ∧ t.tag.reply = some [0] ∧
      (∀ k < 4 * data.length, byteAt t.tag.store (4 * first + k) = (unpackWords data).getD k 0) ∧
      (∀ a, a < 4 * first ∨ 4 * first + 4 * data.length ≤ a → byteAt t.tag.store a = byteAt s.tag.store a) ∧
      pageGen t (first / 64) = (pageGen s (first / 64) + 1) % 256 ∧
      (mode s ≠ 0 → fld t Fld.TAG_CNT2_FWRITES = min 0xFFFF (fld s Fld.TAG_CNT2_FWRITES + 1)) ∧
      FldsKept ([Fld.TAG_CNT0_CMDS, Fld.TAG_CNT2_FWRITES, Fld.SYS_RES_GRANT_GRANTS resTagnvm] ++ packetFlds) s t ∧
      TurnTaken s t ∧ t = { s with regs := t.regs, fresh := t.fresh, tag := t.tag, fifo := t.fifo, sched := t.sched } := by
  obtain ⟨u, x, t, ht, hu, hx, htaken, hstate⟩ := writeBlocks_runs (s := heard s h) hd hmay hturn .good
  have honly := fieldProgram_good_only u first data
  obtain ⟨hstore, hreply, hgen⟩ := fieldProgram_good_tag u first data
  have hcount := fun hm => fieldProgram_good_counted (s := u) hm first data
  rw [hx] at honly hstore hreply hgen hcount
  have hustore : u.tag.store = s.tag.store := by rw [hu.state]; rfl
  have hugens : u.tag.gens = s.tag.gens := by rw [hu.state]; rfl
  have hheard : FldsKept [Fld.SYS_RES_GRANT_GRANTS resTagnvm] s (heard s h) := (FldsKept.refl _ s).regs rfl
  have hutag : t.tag = x.tag := by rw [hstate]
  have hregs : t.regs = x.regs := by rw [hstate]
  have hlen : (unpackWords data).length = 4 * data.length := length_unpackWords data
  refine ⟨t, ht, hutag ▸ hreply, fun k hk => ?_, fun a ha => ?_, ?_, fun hm => ?_, ?_, htaken, ?_⟩
  · rw [hutag, hstore, hustore]
    exact byteAt_bytesPut_in hs.2 _ _ _ (hlen ▸ hk)
  · rw [hutag, hstore, hustore]
    exact byteAt_bytesPut_ne hs.2 _ _ _ (hlen ▸ ha)
  · rw [pageGen_congr (s := x) (by rw [hutag]), hgen, pageGen_congr hugens]
  · rw [fld_congr hregs, hcount (hu.mode_eq ▸ hm), (hheard.trans hu.kept).fld_eq (by unfold Field.apart; decide)]
  · refine (((hheard.trans hu.kept).mono ?_).trans (honly.2.mono ?_)).regs hregs
    · simp
    · intro g hg
      rcases List.mem_append.1 hg with hg | hg
      · exact List.mem_append_left _ ((List.cons_subset_cons _ (List.cons_subset_cons _ (List.nil_subset _))) hg)
      · exact List.mem_append_right _ hg
  · rw [hstate, honly.1, hu.state]
    rfl

theorem writeOfBlocksFails {s : State} (h : TagHdr) {first : Nat} {data : List Word} (hd : WriteFits first data)
    (hmay : mayWrite s (first / 64) = true) (hturn : turnNow s (nvmRequest .tagEngine .c0) = true) (cmd : Instr) :
    ∃ t, writeBlocks (heard s h) cmd first data .failed = t ∧ t.tag.store = s.tag.store ∧
      (mode s ≠ 0 → fld t Fld.TAG_STAT_PROGFAIL = 1) ∧ (t.tag.reply.bind fun r => r.head?) = some 1 := by
  obtain ⟨u, x, t, ht, hu, hx, -, hstate⟩ := writeBlocks_runs (s := heard s h) hd hmay hturn .failed
  have hutag : t.tag = x.tag := by rw [hstate]
  have hregs : t.regs = x.regs := by rw [hstate]
  refine ⟨t, ht cmd, ?_, fun hm => ?_, ?_⟩
  · rw [hutag, ← hx, fieldProgram_failed_store, hu.state]
    rfl
  · rw [fld_congr hregs, ← hx]
    exact fieldProgram_failed_reported (hu.mode_eq ▸ hm) first data
  · rw [hutag, ← hx, fieldProgram_failed, tagErrorFree_eq, tagReply_tag]
    rfl

theorem writeOfBlocksWaits {s : State} (h : TagHdr) {first : Nat} {data : List Word} (hd : WriteFits first data)
    (hmay : mayWrite s (first / 64) = true) (hturn : turnNow s (nvmRequest .tagEngine .c0) = false) (cmd : Instr)
    (prog : ProgResult) :
    ∃ t, writeBlocks (heard s h) cmd first data prog = t ∧
      TagWaits s t (aesKept s h) (nvmRequest .tagEngine .c0) cmd := by
  have hyes : mayWrite (heard s h) (first / 64) = true := hmay
  rw [hd.writeBlocks_eq, if_pos hyes, tagNvm]
  obtain ⟨t, ht, hwaits, hkept, hstate⟩ := turn_waits (s := heard s h) (w := heard s h)
    (asPostedNow_quiet_ne_zero (heard s h) tagnvm_quiet rfl rfl) rfl (.refl [] _) (fun _ hg => nomatch hg) rfl rfl hturn cmd
    (fun t => fieldProgram t first data prog) (wait := id) rfl
  exact ⟨t, ht, by rw [hstate]; rfl, hwaits, ((FldsKept.refl _ s).regs rfl : FldsKept _ s (heard s h)).trans hkept,
    by rw [hstate]; rfl⟩

theorem writeOfBlocksIsRefused {s : State} (h : TagHdr) {first : Nat} {data : List Word} (hd : WriteFits first data)
    (hmay : mayWrite s (first / 64) = false) (cmd : Instr) (prog : ProgResult) :
    ∃ t, writeBlocks (heard s h) cmd first data prog = t ∧
      t.tag = { s.tag with aes := aesKept s h, reply := some [1, 0x12] } ∧ FldsKept [Fld.TAG_CNT0_CMDS] s t := by
  have hno : ¬mayWrite (heard s h) (first / 64) = true := fun hm => Bool.false_ne_true (hmay.symm.trans hm)
  rw [hd.writeBlocks_eq, if_neg hno]
  exact ⟨_, rfl, tagReply_tag _ _, ((FldsKept.refl _ s).regs rfl : FldsKept _ s (heard s h)).trans (tagReply_flds _ _)⟩

/-! ### The eight commands -/

/-- A command of the field that reaches the tag is answered there. -/
theorem exec_tagRequest {s : State} {h : TagHdr} (hr : reaches s h = true) (hf : h.fits = true) {i : Instr}
    {eff : State → State} (hi : exec i s = .next (tagRequest s h eff)) : exec i s = .next (eff (heard s h)) :=
  hi.trans (congrArg _ (tagRequest_of_reaches hr hf eff))

/-- Settles O40: a read runs on the store as it is; a write lies in one page, whose program runs in its turn or waits for it. -/
theorem tagBlocksAreReadAndWritten : Obligations.TagBlocksAreReadAndWritten := by
  unfold Obligations.TagBlocksAreReadAndWritten
  rintro s h first _ hr hf rfl
  refine ⟨fun count h0 h1 h2 => ?_, fun data hs hne _ hin hpage => ?_⟩
  · obtain ⟨t, ht, htag, hkept, htaken, hstate⟩ := readBlocks_answers s h h0 h1 h2
    refine ⟨fun hall => ⟨t, ?_, ?_, hkept, htaken, hstate, fun h1 => ?_, fun b hb => ⟨?_, fun h1 => ?_⟩⟩,
      fun hall => ⟨t, ?_, ?_, hkept⟩⟩
    · rw [exec_tagRequest hr hf rfl, ht]
    · rw [htag, readAnswer, if_pos hall]
    · rw [exec_tagRequest hr hf rfl, ← ht, h1]
    · rw [exec_tagRequest hr hf rfl, hb, ht]
    · rw [exec_tagRequest hr hf rfl, hb, ← ht, h1]
    · rw [exec_tagRequest hr hf rfl, ht]
    · rw [htag, readAnswer, if_neg (by simp [hall])]
  · have hd : WriteFits first.toNat data := ⟨hne, hin, hpage⟩
    refine ⟨fun hmay hturn => ⟨?_, ?_⟩, fun hmay hturn prog => ⟨?_, fun w hw => ?_, fun b hb => ⟨?_, fun w hw => ?_⟩⟩,
      fun hmay prog => ?_⟩
    · obtain ⟨t, ht, hreply, hin, hout, hgen, hcount, hkept, htaken, hstate⟩ := writeOfBlocksIsDone h hs hd hmay hturn
      refine ⟨t, ?_, hreply, hin, hout, hgen, hcount, hkept, htaken, hstate, fun w hw => ?_, fun b hb => ⟨?_, fun w hw => ?_⟩⟩
      · rw [exec_tagRequest hr hf rfl, ht]
      · rw [exec_tagRequest hr hf rfl, ← hw, ht]
      · rw [exec_tagRequest hr hf rfl, hb, ht]
      · rw [exec_tagRequest hr hf rfl, hb, ← hw, ht]
    · rw [exec_tagRequest hr hf rfl]
      obtain ⟨t, ht, hrest⟩ := writeOfBlocksFails h hd hmay hturn (.extendedWriteMultipleBlocks h first data .failed)
      exact ⟨t, congrArg _ ht, hrest⟩
    · rw [exec_tagRequest hr hf rfl]
      obtain ⟨t, ht, hrest⟩ := writeOfBlocksWaits h hd hmay hturn (.extendedWriteMultipleBlocks h first data prog) prog
      exact ⟨t, congrArg _ ht, hrest⟩
    · rw [exec_tagRequest hr hf rfl, ← hw]
      obtain ⟨t, ht, hrest⟩ := writeOfBlocksWaits h hd hmay hturn (.extendedWriteSingleBlock h first w prog) prog
      exact ⟨t, congrArg _ ht, hrest⟩
    · rw [exec_tagRequest hr hf rfl, hb]
      obtain ⟨t, ht, hrest⟩ := writeOfBlocksWaits h hd hmay hturn (.writeMultipleBlocks h b data prog) prog
      exact ⟨t, congrArg _ ht, hrest⟩
    · rw [exec_tagRequest hr hf rfl, hb, ← hw]
      obtain ⟨t, ht, hrest⟩ := writeOfBlocksWaits h hd hmay hturn (.writeSingleBlock h b w prog) prog
      exact ⟨t, congrArg _ ht, hrest⟩
    · rw [exec_tagRequest hr hf rfl]
      obtain ⟨t, ht, hrest⟩ := writeOfBlocksIsRefused h hd hmay (.extendedWriteMultipleBlocks h first data prog) prog
      exact ⟨t, congrArg _ ht, hrest⟩

end Sys2Proof.Machine

/-! A full calibration in place of a stored word that failed to lock (R190), whose slot lies beyond the 256 of its synthesiser. -/

namespace Sys2Proof.Machine

/-- Path A settles for transmission; the word that failed is said to be that of slot 514, where `SYNCAL_CNT` stands. -/
def slotBeyondTable : State :=
  { setFlag (setFld {} Fld.RAD_STATE_ASTATE 2) Fld.SYNCAL_CFG_AUTOSTORE with
    radio := { a := { use_ := .txon, slotFailed := some 514 } } }

/-- The result is stored over the count that it has just raised. -/
theorem fullcal_slotBeyondTable : fld slotBeyondTable Fld.SYNCAL_CNT_FULLCAL = 0 ∧
    fld (row slotBeyondTable fun t => synthLock t .a 0 0 0) Fld.SYNCAL_CNT_FULLCAL ≠ 1 := by
  constructor <;> decide +kernel

/-- Refutes O19: its clause of SYNTH_LOCK says that a full calibration counts one in FULLCAL, of a state whose failed slot is any number;
where that number names `SYNCAL_CNT`, the result stored replaces the count. -/
theorem not_synthesiserLocksAndCarrierRises : ¬ Obligations.SynthesiserLocksAndCarrierRises := by
  unfold Obligations.SynthesiserLocksAndCarrierRises
  intro h
  obtain ⟨-, hlock, -⟩ := h slotBeyondTable .a 0 0 0
  obtain ⟨t, ht, -, -, -, hcount, -⟩ := hlock (by decide +kernel) rfl (by decide) rfl
  have e : t = row slotBeyondTable fun u => synthLock u .a 0 0 0 := (Host.Outcome.next.inj ht).symm
  obtain ⟨hzero, hone⟩ := fullcal_slotBeyondTable
  have hfull := hcount rfl
  rw [hzero, e] at hfull
  exact hone hfull

end Sys2Proof.Machine

/-! The attempts of the node link (R183, R398, R408–R410): listens, backoffs, transmissions, and the Imm-Ack. -/

namespace Sys2Proof.Machine

/-! ### What the link's steps leave -/

/-- A row that ends no round, no field and no slot brings no boundary (R38, R39). -/
theorem row_of_standing {s : State} {run : State → State} (hb : (run s).brm = s.brm) (hd : (run s).hf = s.hf)
    (hl : (run s).lnk.slot = s.lnk.slot) : row s run = run s := by
  have hw : workEnded s (run s) = false := by
    unfold workEnded
    rw [hb, hd, hl]
    simp
  exact if_neg (by rw [hw]; exact Bool.false_ne_true)

/-- Nothing but registers, of those only the fields listed, the link and the channels changed. -/
def OnlyLink (l : List Field) (s t : State) : Prop :=
  t = { s with regs := t.regs, fresh := t.fresh, lnk := t.lnk, fifo := t.fifo } ∧ FldsKept l s t

namespace OnlyLink

variable {l : List Field} {s t u : State}

theorem refl (l : List Field) (s : State) : OnlyLink l s s := ⟨rfl, .refl l s⟩

theorem setLnk (h : OnlyLink l s t) (x : Lnk) : OnlyLink l s { t with lnk := x } := ⟨by rw [h.1], h.2.regs rfl⟩

theorem fifo (h : OnlyLink l s t) (hu : OnlyFifo l t u) : OnlyLink l s u := ⟨by rw [hu.1, h.1], h.2.trans hu.2⟩

theorem setFld (h : OnlyLink l s t) {f : Field} (hf : f ∈ l) (v : Nat) : OnlyLink l s (setFld t f v) :=
  h.fifo ((OnlyFifo.refl l t).setFld hf v)

/-- A packet of the link's own with its interrupt (R440). -/
theorem txPacket (h : OnlyLink l s t) (hl : packetFlds ⊆ l) (f : LnkTx) (result : Nat) :
    OnlyLink l s (txPacket t f result) :=
  h.fifo (((OnlyFifo.refl l t).admitPacket hl (by decide) _).setFlag (hl intBit_txDone_mem_packetFlds))

end OnlyLink

theorem txPacket_fifo (s : State) (f : LnkTx) (result : Nat) : OnlyFifo packetFlds s (txPacket s f result) :=
  ((OnlyFifo.refl _ s).admitPacket (List.Subset.refl _) (by decide) _).setFlag intBit_txDone_mem_packetFlds

@[simp] theorem lnk_txPacket (s : State) (f : LnkTx) (result : Nat) : (txPacket s f result).lnk = s.lnk := by
  rw [(txPacket_fifo s f result).1]

/-- An empty queue has no frame to send (R408). -/
theorem sendHead_of_empty {s : State} (h : s.lnk.queue = []) : sendHead s = setAct s .idle := by
  unfold sendHead sendNext
  rw [h]
  cases s.lnk.slot <;> rfl

/-! ### Listens and backoffs (R408) -/

section Listen

variable {s : State} {x : LnkSlot} {be nb : Nat} {f : LnkTx} {q : List LnkTx}

/-- A busy listen with backoffs left. -/
theorem listenEnd_of_busy (hx : s.lnk.slot = some x) (ha : s.lnk.act = .listen be nb true) (hq : s.lnk.queue = f :: q)
    (h3 : pathState s .b = 3) (hn : nb + 1 ≤ fld s Fld.LNK_CCA_MAXBO) :
    listenEnd s = setAct s (.backoff (min (be + 1) (fld s Fld.LNK_CCA_BEMAX)) (nb + 1)) := by
  unfold listenEnd
  rw [hx, ha, hq]
  dsimp only
  rw [if_neg (by simp [h3]), if_pos rfl, if_neg (by omega)]

/-- A busy listen after the last backoff ends the frame BUSY. -/
theorem listenEnd_of_last (hx : s.lnk.slot = some x) (ha : s.lnk.act = .listen be nb true) (hq : s.lnk.queue = f :: q)
    (h3 : pathState s .b = 3) (hn : fld s Fld.LNK_CCA_MAXBO < nb + 1) : listenEnd s = sendHead (headEnds s 3) := by
  unfold listenEnd
  rw [hx, ha, hq]
  dsimp only
  rw [if_neg (by simp [h3]), if_pos rfl, if_pos hn]

/-- A clear listen sends the frame. -/
theorem listenEnd_of_clear {fc : Nat} {octets : List Byte} (hx : s.lnk.slot = some x)
    (ha : s.lnk.act = .listen be nb false) (hq : s.lnk.queue = f :: q) (hf : f.secured = some (fc, octets))
    (h3 : pathState s .b = 3) (hp : (linkRadiate (lnkQuiet s) x octets (1000 * turnUs)).2 = true) :
    listenEnd s = setAct (linkRadiate (lnkQuiet s) x octets (1000 * turnUs)).1 .tx := by
  unfold listenEnd
  rw [hx, ha, hq]
  dsimp only
  rw [if_neg (by simp [h3]), if_neg Bool.false_ne_true, hf]
  exact if_pos hp

/-- A backoff that leaves the slot no room for the attempt. -/
theorem backoffEnd_of_late (hx : s.lnk.slot = some x) (ha : s.lnk.act = .backoff be nb) (hq : s.lnk.queue = f :: q)
    (hu : slotUntil s < s.clk.now + us (attemptUs s (slotEntry s x) f)) :
    backoffEnd s = setAct (attemptBack s) .idle := by
  unfold backoffEnd
  rw [hx, ha, hq]
  exact if_pos hu

/-- The next listen of the attempt. -/
theorem backoffEnd_of_room (hx : s.lnk.slot = some x) (ha : s.lnk.act = .backoff be nb) (hq : s.lnk.queue = f :: q)
    (hu : s.clk.now + us (attemptUs s (slotEntry s x) f) ≤ slotUntil s)
    (hfit : sbFits s x.chan (airtime s (slotEntry s x) (dataPsdu s (lnkMode (slotEntry s x)) f.payload.length)) = true) :
    backoffEnd s = setAct (rxEnd s 5) (.listen be nb false) := by
  unfold backoffEnd
  rw [hx, ha, hq]
  dsimp only
  rw [if_neg (Nat.not_lt.2 hu), if_neg (by simp [hfit])]

end Listen

/-- A frame that was alone in the queue ends, and nothing is left to send (R409, R440). -/
theorem headEnds_alone {s : State} {f : LnkTx} (hq : s.lnk.queue = [f]) {result : Nat} (h : result ≠ 2) (h1 : 1 < result) :
    headEnds s result = txPacket { s with lnk := { s.lnk with queue := [] } } f result := by
  unfold headEnds
  rw [hq]
  dsimp only
  rw [if_neg (by omega), if_neg h]

theorem headEnds_noAck {s : State} {f : LnkTx} (hq : s.lnk.queue = [f]) :
    headEnds s 2 = incSat (txPacket { s with lnk := { s.lnk with queue := [] } } f 2) Fld.LNK_MACCNT0_NOACK 1 := by
  unfold headEnds
  rw [hq]
  rfl

/-! ### The end of a reception (R394, R400) -/

theorem packetFlds_subset_phyFlds : packetFlds ⊆ phyFlds := List.subset_append_right _ _

theorem frozen_mem_phyFlds {k : Nat} (h : k < 4) : Fld.RAD_RXC_STAT_FROZEN k ∈ phyFlds := by
  revert k
  decide

/-- The counter of a reception's status (R394, R400). -/
def rxCount (s : State) (status : Nat) : State :=
  match status with
  | 1 => incSat s Fld.LNK_PHYCNT0_FCSERR 1
  | 2 => incSat s Fld.LNK_PHYCNT1_PHRERR 1
  | 7 => incSat s Fld.LNK_PHYCNT1_PHRERR 1
  | 3 => incSat s Fld.LNK_PHYCNT1_PREEMPT 1
  | 4 => incSat s Fld.LNK_PHYCNT2_ERASE 1
  | 5 => incSat s Fld.LNK_PHYCNT2_ABORT 1
  | 6 => incSat s Fld.LNK_PHYCNT2_ABORT 1
  | _ => s

/-- The gains of chains are released (R394). -/
def thaw (s : State) (L : List Nat) : State := L.foldl (fun t k => clrFld t (Fld.RAD_RXC_STAT_FROZEN k)) s

/-- The receiver's registers after a frame with a status (R394, R400). -/
def rxNoted (s : State) (w : Word) (status m : Nat) : State :=
  thaw (rxCount (setReg { s with lnk := { s.lnk with rx := none } } Adr.LNK_PHYSTAT w) status) (bitList 4 m)

theorem rxEnd_of_frame {s : State} {r : LnkRx} {x : LnkSlot} (hr : s.lnk.rx = some r) (hx : s.lnk.slot = some x)
    (status : Nat) : ∃ w m ws, rxEnd s status = rxNoted s w status m ∨
      rxEnd s status = admitPacket (rxNoted s w status m) 5 ws := by
  unfold rxEnd
  rw [hr, hx]
  exact ⟨_, _, _, (ite_eq_or_eq _ _ _).symm⟩

theorem lt_of_mem_bitList {n v k : Nat} (h : k ∈ bitList n v) : k < n := List.mem_range.1 (List.mem_filter.1 h).1

theorem OnlyLink.thaw {l : List Field} {s t : State} (h : OnlyLink l s t) {L : List Nat}
    (hL : ∀ k ∈ L, Fld.RAD_RXC_STAT_FROZEN k ∈ l) : OnlyLink l s (thaw t L) := by
  unfold Machine.thaw
  induction L generalizing t with
  | nil => exact h
  | cons k L ih => exact ih (h.setFld (hL k List.mem_cons_self) 0) fun j hj => hL j (List.mem_cons_of_mem k hj)

theorem OnlyLink.rxCount {l : List Field} {s t : State} (h : OnlyLink l s t)
    (hl : [whole Adr.LNK_PHYCNT0, whole Adr.LNK_PHYCNT1, whole Adr.LNK_PHYCNT2] ⊆ l) (status : Nat) :
    OnlyLink l s (rxCount t status) := by
  have hinc : ∀ f : Field, whole f.addr ∈ l → OnlyLink l s (incSat t f 1) := fun f hf =>
    ⟨by rw [h.1]; rfl, h.2.setReg hf _⟩
  unfold Machine.rxCount
  split
  · exact hinc _ (hl (by decide))
  · exact hinc _ (hl (by decide))
  · exact hinc _ (hl (by decide))
  · exact hinc _ (hl (by decide))
  · exact hinc _ (hl (by decide))
  · exact hinc _ (hl (by decide))
  · exact hinc _ (hl (by decide))
  · exact h

theorem lnk_rxCount (s : State) (status : Nat) : (rxCount s status).lnk = s.lnk := by
  unfold rxCount
  split <;> rfl

theorem lnk_thaw (s : State) (L : List Nat) : (thaw s L).lnk = s.lnk := by
  unfold thaw
  induction L generalizing s with
  | nil => rfl
  | cons k L ih => exact ih _

/-- A reception ends: the receiver's registers, and the frame or the preamble in hand is given up. -/
theorem rxEnd_only (s : State) (status : Nat) :
    OnlyLink phyFlds s (rxEnd s status) ∧ ((rxEnd s status).lnk = { s.lnk with rx := none } ∨
      (s.lnk.rx = none ∨ s.lnk.slot = none) ∧ (rxEnd s status).lnk = { s.lnk with preempting := false }) := by
  cases hr : s.lnk.rx with
  | none =>
    have e : rxEnd s status = { s with lnk := { s.lnk with preempting := false } } := by
      unfold rxEnd
      rw [hr]
    rw [e]
    exact ⟨(OnlyLink.refl _ s).setLnk _, .inr ⟨.inl rfl, rfl⟩⟩
  | some r =>
    cases hx : s.lnk.slot with
    | none =>
      have e : rxEnd s status = { s with lnk := { s.lnk with preempting := false } } := by
        unfold rxEnd
        rw [hr, hx]
      rw [e]
      exact ⟨(OnlyLink.refl _ s).setLnk _, .inr ⟨.inr rfl, rfl⟩⟩
    | some x =>
      obtain ⟨w, m, ws, h⟩ := rxEnd_of_frame hr hx status
      have hset : OnlyLink phyFlds s (setReg { s with lnk := { s.lnk with rx := none } } Adr.LNK_PHYSTAT w) :=
        ⟨rfl, ((FldsKept.refl _ s).regs rfl : FldsKept _ s { s with lnk := { s.lnk with rx := none } }).setReg
          (by simp [phyFlds]) w⟩
      have hnoted : OnlyLink phyFlds s (rxNoted s w status m) :=
        (hset.rxCount (by simp [phyFlds]) status).thaw fun k hk => frozen_mem_phyFlds (lt_of_mem_bitList hk)
      have hlnk : (rxNoted s w status m).lnk = { s.lnk with rx := none } := by
        rw [rxNoted, lnk_thaw, lnk_rxCount]
        rfl
      rcases h with e | e <;> rw [e]
      · exact ⟨hnoted, .inl hlnk⟩
      · have hpacket := (OnlyFifo.refl phyFlds (rxNoted s w status m)).admitPacket packetFlds_subset_phyFlds (n := 5) (by decide) ws
        exact ⟨hnoted.fifo hpacket, .inl (by rw [hpacket.1]; exact hlnk)⟩

/-- In a slot no frame is in hand after the end of a reception. -/
theorem rx_rxEnd {s : State} {x : LnkSlot} (hx : s.lnk.slot = some x) (status : Nat) : (rxEnd s status).lnk.rx = none := by
  rcases (rxEnd_only s status).2 with e | ⟨hr, e⟩ <;> rw [e]
  simpa [hx] using hr

/-! ### The carrier of path B for the link (R183, R398) -/

/-- Nothing but registers, of those only the fields listed, and the front end changed. -/
def OnlyRadio (l : List Field) (s t : State) : Prop :=
  t = { s with regs := t.regs, fresh := t.fresh, radio := t.radio } ∧ FldsKept l s t

namespace OnlyRadio

variable {l : List Field} {s t u : State}

theorem refl (l : List Field) (s : State) : OnlyRadio l s s := ⟨rfl, .refl l s⟩

theorem flds (h : OnlyRadio l s t) (hu : OnlyFlds l t u) : OnlyRadio l s u := ⟨by rw [hu.1, h.1], h.2.trans hu.2⟩

theorem setFld (h : OnlyRadio l s t) {f : Field} (hf : f ∈ l) (v : Nat) : OnlyRadio l s (setFld t f v) :=
  h.flds ((OnlyFlds.refl l t).setFld hf v)

/-- A field of a register listed as a whole. -/
theorem setFldIn (h : OnlyRadio l s t) {f : Field} (hf : whole f.addr ∈ l) (v : Nat) : OnlyRadio l s (Machine.setFld t f v) :=
  ⟨by rw [h.1]; rfl, h.2.setReg hf _⟩

theorem setPathSt (h : OnlyRadio l s t) (p : RfPath) (x : PathSt) : OnlyRadio l s (setPathSt t p x) := by
  rw [setPathSt_radio]
  exact ⟨by rw [h.1], h.2.regs rfl⟩

theorem paRaise (h : OnlyRadio l s t) (port : Nat) : OnlyRadio l s (paRaise t port) := by
  unfold Machine.paRaise
  split
  · exact ⟨by rw [h.1], h.2.regs rfl⟩
  · exact h

theorem mono {m : List Field} (h : OnlyRadio l s t) (hl : l ⊆ m) : OnlyRadio m s t := ⟨h.1, h.2.mono hl⟩

theorem trans (h : OnlyRadio l s t) (hu : OnlyRadio l t u) : OnlyRadio l s u := ⟨by rw [hu.1, h.1], h.2.trans hu.2⟩

end OnlyRadio

/-- What a carrier of path B writes beside the path's state and its carrier's flag. -/
def bSendFlds : List Field := [Fld.RAD_STATE_BPORT, whole Adr.RAD_TXB_STAT] ++ chainFlds

theorem bSendFlds_subset_sendFlds : bSendFlds ⊆ sendFlds := by decide

theorem fPathB_apart_bSendFlds : ∀ g ∈ bSendFlds, (fPath .b).apart g := by
  unfold Field.apart
  decide

theorem fCarrB_apart_bSendFlds : ∀ g ∈ bSendFlds, (fCarr .b).apart g := by
  unfold Field.apart
  decide

/-- The trim starts from 0 from IDLE and on another port (R201). -/
def trimFrom (s : State) (port : Nat) : State :=
  if s.radio.b.fromIdle || fld s (fTxPort .b) != port then clrFld s (fTrim .b) else s

theorem trimFrom_only (s : State) (port : Nat) : OnlyRadio sendFlds s (trimFrom s port) := by
  unfold trimFrom
  split
  · exact (OnlyRadio.refl _ s).setFldIn (by decide) 0
  · exact .refl _ s

/-- Path B sends, and its carrier is on. -/
def carrierUp (s : State) : State := setFlag (setFld s (fPath .b) 4) (fCarr .b)

theorem carrierUp_only (s : State) : OnlyRadio sendFlds s (carrierUp s) :=
  ((OnlyRadio.refl _ s).setFld (by decide) 4).flds ((OnlyFlds.refl _ _).setFlag (by decide))

theorem pathState_carrierUp (s : State) : pathState (carrierUp s) .b = 4 := by
  unfold pathState carrierUp
  rw [fld_setFlag, fld_setFld_apart _ _ _ _ (by decide), fld_setFld_self _ _ _ (by decide)]
  rfl

theorem linkCarrier_after (s : State) (port idx : Nat) :
    OnlyRadio bSendFlds (carrierUp (trimFrom s port)) (linkCarrier s port idx) := by
  have hstat := ((OnlyRadio.refl bSendFlds (carrierUp (trimFrom s port))).setFldIn (f := fTxPort .b) (by decide)
    port).setFldIn (f := fIdx .b) (by decide) idx
  have hchains : ∀ t, OnlyFlds bSendFlds t (setChains t) := fun t =>
    ⟨(setChains_onlyFlds t).1, (setChains_onlyFlds t).2.mono (List.subset_append_right _ _)⟩
  exact (((hstat.setPathSt .b _).setFld (f := fPort .b) (by decide) port).flds (hchains _)).paRaise port

/-- The carrier of path B is on for the link. -/
theorem linkCarrier_sends (s : State) (port idx : Nat) :
    OnlyRadio sendFlds s (linkCarrier s port idx) ∧ pathState (linkCarrier s port idx) .b = 4 ∧
      flag (linkCarrier s port idx) (fCarr .b) = true := by
  have hafter := linkCarrier_after s port idx
  refine ⟨((trimFrom_only s port).trans (carrierUp_only _)).trans (hafter.mono bSendFlds_subset_sendFlds), ?_, ?_⟩
  · exact (hafter.2.fld_eq fPathB_apart_bSendFlds).trans (pathState_carrierUp _)
  · exact (hafter.2.flag_eq fCarrB_apart_bSendFlds).trans (flag_setFlag_self _ _ (by decide) (by decide))

theorem sbCharge_lnk (s : State) (c airUs : Nat) :
    sbCharge s c airUs = { s with lnk := { s.lnk with bins := (sbCharge s c airUs).lnk.bins } } := by
  unfold sbCharge
  split <;> rfl

/-- What a transmission on the air leaves: path B sends, the frame is sent and charged (R183, R420). -/
structure LinkSends (s t : State) (air : LnkAir) : Prop where
  state : t = { s with regs := t.regs, fresh := t.fresh, radio := t.radio
                       lnk := { s.lnk with sent := [air], bins := t.lnk.bins } }
  kept : FldsKept sendFlds s t
  path : pathState t .b = 4
  carr : flag t (fCarr .b) = true

/-- A power index that may be used puts the frame on the air (R200). -/
theorem linkRadiate_sends {s : State} {x : LnkSlot} (hp : powerOk s (rpPort s x.rp) (ePower (slotEntry s x)) = true)
    (octets : List Byte) (leadNs : Nat) : (linkRadiate s x octets leadNs).2 = true ∧
      LinkSends s (linkRadiate s x octets leadNs).1 (lnkAir s (slotEntry s x) octets leadNs) := by
  obtain ⟨hs, hpath, hcarr⟩ := linkCarrier_sends s (rpPort s x.rp) (ePower (slotEntry s x))
  unfold linkRadiate
  dsimp only
  rw [if_pos hp, sbCharge_lnk]
  exact ⟨rfl, by rw [hs.1], hs.2.regs rfl, hpath, hcarr⟩

/-! ### What the end of a reception leaves to a transmission -/

theorem rpPort_rxEnd (s : State) (status n : Nat) : rpPort (rxEnd s status) n = rpPort s n := by
  have hl : ∀ g ∈ phyFlds, g.addr % 16 ≠ 0 ∨ g.addr < 0x1000 := by decide
  refine (rxEnd_only s status).1.2.fld_eq fun g hg => .inl ?_
  have h := hl g hg
  simp only [Fld.RP_CFG_PORT, Adr.RP_CFG]
  omega

/-- The fields of the radio's tables stand below the receivers' registers. -/
theorem fld_rxEnd_table (s : State) (status : Nat) {f : Field} (h1 : 0x800 ≤ f.addr) (h2 : f.addr < 0xB20) :
    fld (rxEnd s status) f = fld s f := by
  have hl : ∀ g ∈ phyFlds, g.addr < 0x800 ∨ 0xB20 ≤ g.addr := by decide
  refine (rxEnd_only s status).1.2.fld_eq fun g hg => .inl ?_
  have h := hl g hg
  omega

theorem slotEntry_rxEnd (s : State) (status : Nat) (x : LnkSlot) : slotEntry (rxEnd s status) x = slotEntry s x := by
  rw [slotEntry, entryAt, (rxEnd_only s status).1.1, slotEntry, entryAt]

theorem rpPort_lt (s : State) (n : Nat) : rpPort s n < 4 := fld_lt s _

theorem powerOk_rxEnd (s : State) (status rp idx : Nat) :
    powerOk (rxEnd s status) (rpPort s rp) idx = powerOk s (rpPort s rp) idx := by
  have hport := rpPort_lt s rp
  have hmax : fld (rxEnd s status) (Fld.RAD_PORT_CFG_MAXIDX (rpPort s rp)) = fld s (Fld.RAD_PORT_CFG_MAXIDX (rpPort s rp)) :=
    fld_rxEnd_table s status (by simp only [Fld.RAD_PORT_CFG_MAXIDX, Adr.RAD_PORT_CFG]; omega)
      (by simp only [Fld.RAD_PORT_CFG_MAXIDX, Adr.RAD_PORT_CFG]; omega)
  unfold powerOk
  rw [hmax]
  by_cases hidx : idx ≤ fld s (Fld.RAD_PORT_CFG_MAXIDX (rpPort s rp))
  · have hlt : fld s (Fld.RAD_PORT_CFG_MAXIDX (rpPort s rp)) < 128 := fld_lt s _
    rw [flag, fld_rxEnd_table s status (by simp only [Fld.RAD_PWR_VALID, Adr.RAD_PWR]; omega)
      (by simp only [Fld.RAD_PWR_VALID, Adr.RAD_PWR]; omega), flag]
  · simp [hidx]

/-- The registers of the link's PHY, of the mode and of the clocks are not the end of a reception's. -/
theorem fld_rxEnd_phy (s : State) (status : Nat) {f : Field}
    (h : f.addr = Adr.LNK_PHYCFG ∨ f.addr = Adr.SYS_MODE ∨ f.addr = Adr.SYS_CLKSTAT) : fld (rxEnd s status) f = fld s f := by
  have hl : ∀ g ∈ phyFlds, g.addr ≠ Adr.LNK_PHYCFG ∧ g.addr ≠ Adr.SYS_MODE ∧ g.addr ≠ Adr.SYS_CLKSTAT := by decide
  refine (rxEnd_only s status).1.2.fld_eq fun g hg => .inl ?_
  obtain ⟨hphy, hmode, hclk⟩ := hl g hg
  rcases h with h | h | h <;> rw [h]
  · exact hphy.symm
  · exact hmode.symm
  · exact hclk.symm

theorem q64_rxEnd (s : State) (status : Nat) : q64 (rxEnd s status) = q64 s := by
  have hs := (rxEnd_only s status).1.1
  have hmode : mode (rxEnd s status) = mode s := fld_rxEnd_phy s status (.inr (.inl rfl))
  have hfall : fld (rxEnd s status) Fld.SYS_CLKSTAT_FALLBACK = fld s Fld.SYS_CLKSTAT_FALLBACK :=
    fld_rxEnd_phy s status (.inr (.inr rfl))
  have hclk : clk100 (rxEnd s status) = clk100 s := by rw [clk100, clk100, flag, flag, hmode, hfall, hs]
  rw [q64, q64, interp, interp, hclk, hs]

theorem lnkAir_rxEnd (s : State) (status : Nat) (e : Entry) (octets : List Byte) (leadNs : Nat) :
    lnkAir (rxEnd s status) e octets leadNs = lnkAir s e octets leadNs := by
  have hphy : ∀ f : Field, f.addr = Adr.LNK_PHYCFG → fld (rxEnd s status) f = fld s f := fun f h =>
    fld_rxEnd_phy s status (.inl h)
  unfold lnkAir syncNs fcsLen flag
  rw [q64_rxEnd, hphy _ rfl, hphy _ rfl, hphy _ rfl, hphy _ rfl, hphy _ rfl]

/-! ### The turnaround to receive (R183, R398) -/

/-- What the way into RXON writes of the receive chains. -/
def rxonFlds : List Field :=
  ((List.range 4).flatMap fun k => [Fld.RAD_RXC_STAT_LNA k, Fld.RAD_RXC_STAT_FROZEN k]) ++ chainFlds

/-- What the turnaround to receive writes: the gains of the chains, and what the end of work on a path may. -/
def receiveFlds : List Field :=
  ((List.range 4).flatMap fun k => [Fld.RAD_RXC_STAT_LNA k, Fld.RAD_RXC_STAT_FROZEN k]) ++ pathFlds

theorem rxonFlds_subset_receiveFlds : rxonFlds ⊆ receiveFlds := by decide

theorem carrierFldsB_subset_receiveFlds : carrierFlds .b ⊆ receiveFlds := by decide

theorem fPath_apart_rxonFlds (p : RfPath) : ∀ g ∈ rxonFlds, (fPath p).apart g := by
  unfold Field.apart
  cases p <;> decide

theorem fCarr_apart_rxonFlds (p : RfPath) : ∀ g ∈ rxonFlds, (fCarr p).apart g := by
  unfold Field.apart
  cases p <;> decide

theorem rxcFlds_subset_rxonFlds {k : Nat} (hk : k < 4) :
    Fld.RAD_RXC_STAT_ON k ∈ rxonFlds ∧ Fld.RAD_RXC_STAT_LNA k ∈ rxonFlds ∧ Fld.RAD_RXC_STAT_FROZEN k ∈ rxonFlds ∧
      Fld.RAD_RXC_STAT_RATE k ∈ rxonFlds := by
  revert k
  decide

/-- The path is in RXON and its chains follow. -/
theorem enterRxon_after (s : State) (p : RfPath) :
    ∃ x, OnlyPath p rxonFlds (setFld (setPathSt s p x) (fPath p) 3) (enterRxon s p) := by
  unfold enterRxon
  dsimp only
  refine ⟨_, .onlyFlds (foldl_onlyFlds _ _ (fun k hk u h => ?_)
    ⟨(setChains_onlyFlds _).1, (setChains_onlyFlds _).2.mono (List.subset_append_right _ _)⟩)⟩
  obtain ⟨hon, hlna, hfrozen, hrate⟩ := rxcFlds_subset_rxonFlds (lt_of_mem_bitList hk)
  have hsamples : ∀ v w, OnlyFlds rxonFlds _ (clrFld (setFld (setFlag (setFld u Fld.RAD_STATE_CHON v) (Fld.RAD_RXC_STAT_ON k))
      (Fld.RAD_RXC_STAT_LNA k) w) (Fld.RAD_RXC_STAT_FROZEN k)) := fun v w =>
    (((h.setFld (by decide) v).setFlag hon).setFld hlna w).setFld hfrozen 0
  exact (((hsamples _ _).setFld (f := Fld.RAD_STATE_CHRATE) (by decide) _).setFlag hrate).ite (hsamples _ _)

/-- The carrier of a path falls and the path is in RXON. -/
theorem linkReceive_only (s : State) :
    OnlyPath .b receiveFlds s (enterRxon (carrierOff s .b) .b) ∧ pathState (linkReceive s) .b = 3 ∧
      flag (linkReceive s) (fCarr .b) = false := by
  obtain ⟨x, hafter⟩ := enterRxon_after (carrierOff s .b) .b
  have hoff := (carrierOff_onlyPath s .b).mono carrierFldsB_subset_receiveFlds
  have hcarr : flag (enterRxon (carrierOff s .b) .b) (fCarr .b) = false := by
    rw [hafter.kept.flag_eq (fCarr_apart_rxonFlds .b), flag, fld_setFld_apart _ _ _ _ (by decide),
      fld_congr (s := carrierOff s .b) (by rw [setPathSt_radio]), fld_fCarr_carrierOff]
    rfl
  refine ⟨((hoff.setPathSt x).setFld (by decide) 3).trans (hafter.mono rxonFlds_subset_receiveFlds), ?_, hcarr⟩
  exact (hafter.kept.fld_eq (fPath_apart_rxonFlds .b)).trans (fld_setFld_self _ _ _ (by decide))

/-- The turnaround moves path B and the receiver's stamps, no more. -/
theorem linkReceive_state (s : State) : linkReceive s =
    { s with regs := (linkReceive s).regs, fresh := (linkReceive s).fresh, radio := (linkReceive s).radio
             cal := (linkReceive s).cal, brm := (linkReceive s).brm
             lnk := { s.lnk with txEnd := s.clk.now, acking := false } } := by
  have h := (linkReceive_only s).1.state
  unfold linkReceive
  dsimp only
  rw [h]

theorem fldsKept_linkReceive (s : State) : FldsKept receiveFlds s (linkReceive s) := (linkReceive_only s).1.kept.regs rfl

/-! ### Ends of frames and attempts (R408, R409) -/

theorem txPacket_done (s : State) (f : LnkTx) (result : Nat) : flag (txPacket s f result) (intBit 45) = true :=
  flag_setFlag_self _ _ (by decide) (by decide)

theorem noack_apart_txDone : (intBit 45).addr ≠ Fld.LNK_MACCNT0_NOACK.addr := by decide

/-- A frame alone in the queue ends with its packet, and the link is idle. -/
theorem headEnds_alone_idle {s : State} {f : LnkTx} (hq : s.lnk.queue = [f]) {result : Nat} (h : result ≠ 2) (h1 : 1 < result) :
    (headEnds s result).lnk.queue = [] ∧ flag (headEnds s result) (intBit 45) = true ∧
      OnlyLink packetFlds s (setAct (headEnds s result) .idle) := by
  rw [headEnds_alone hq h h1]
  exact ⟨by rw [lnk_txPacket], txPacket_done _ _ _,
    (((OnlyLink.refl packetFlds s).setLnk _).txPacket (List.Subset.refl _) f result).setLnk _⟩

/-- The last attempt of a frame alone in the queue has failed: NOACK counts, and its packet is written. -/
theorem headEnds_noAck_idle {s : State} {f : LnkTx} (hq : s.lnk.queue = [f]) :
    (headEnds s 2).lnk.queue = [] ∧ flag (headEnds s 2) (intBit 45) = true ∧
      fld (headEnds s 2) Fld.LNK_MACCNT0_NOACK = min 0xFFFF (fld s Fld.LNK_MACCNT0_NOACK + 1) ∧
      OnlyLink (Fld.LNK_MACCNT0_NOACK :: packetFlds) s (setAct (headEnds s 2) .idle) := by
  have hpacket := txPacket_fifo { s with lnk := { s.lnk with queue := [] } } f 2
  have hcount := fld_incSat_self (txPacket { s with lnk := { s.lnk with queue := [] } } f 2) Fld.LNK_MACCNT0_NOACK 1 (by decide)
  rw [hpacket.2.fld_eq (apart_packetFlds (by decide) (by decide) (by decide))] at hcount
  have honly := ((OnlyLink.refl (Fld.LNK_MACCNT0_NOACK :: packetFlds) s).setLnk { s.lnk with queue := [] }).txPacket
    (List.subset_cons_self _ _) f 2
  rw [headEnds_noAck hq]
  refine ⟨?_, ?_, hcount, (honly.setFld List.mem_cons_self _).setLnk _⟩
  · exact congrArg Lnk.queue (lnk_txPacket _ f 2)
  · exact (flag_setFld_apart _ _ _ _ (.inl noack_apart_txDone)).trans (txPacket_done _ f 2)

theorem ackWaitEnd_of_retry {s : State} {f : LnkTx} {q : List LnkTx} (ha : s.lnk.act = .ackWait) (hq : s.lnk.queue = f :: q)
    (hn : f.attempts ≤ fld s Fld.LNK_MACCFG_MAXRETRY) : ackWaitEnd s = setAct s .retry := by
  have h : attemptFails s = setAct s .retry := by
    unfold attemptFails
    rw [hq]
    exact if_pos hn
  unfold ackWaitEnd
  rw [ha]
  dsimp only
  rw [h]
  rfl

theorem ackWaitEnd_of_last {s : State} {f : LnkTx} (ha : s.lnk.act = .ackWait) (hq : s.lnk.queue = [f])
    (hn : fld s Fld.LNK_MACCFG_MAXRETRY < f.attempts) : ackWaitEnd s = setAct (setAct (headEnds s 2) .idle) .idle := by
  have h : attemptFails s = setAct (headEnds s 2) .idle := by
    unfold attemptFails
    rw [hq]
    exact if_neg (Nat.not_le.2 hn)
  unfold ackWaitEnd
  rw [ha]
  dsimp only
  rw [h]
  exact sendHead_of_empty (headEnds_noAck_idle hq).1

theorem linkTxEnd_of_acking {s : State} {x : LnkSlot} (hx : s.lnk.slot = some x) (h4 : pathState s .b = 4)
    (ha : s.lnk.acking = true) : linkTxEnd s = linkReceive s := by
  unfold linkTxEnd
  rw [if_neg (by simp [h4, hx]), if_pos ha]

/-- A frame that asks for an Imm-Ack has been sent. -/
theorem linkTxEnd_of_ar {s : State} {x : LnkSlot} {f : LnkTx} {q : List LnkTx} (hx : s.lnk.slot = some x)
    (h4 : pathState s .b = 4) (ha : s.lnk.acking = false) (htx : s.lnk.act = .tx) (hq : s.lnk.queue = f :: q) (hf : f.ar = true) :
    linkTxEnd s = setAct (linkReceive s) .ackWait := by
  unfold linkTxEnd
  rw [if_neg (by simp [h4, hx]), if_neg (by simp [ha]), htx, hq]
  exact if_pos hf

/-! ### The Imm-Ack owed (R410) -/

/-- The Imm-Ack is no longer owed, and nothing has been sent yet. -/
def ackTaken (s : State) : State := lnkQuiet { s with lnk := { s.lnk with owed := none } }

section
variable {s : State} {x : LnkSlot} {seq due : Nat} (hx : s.lnk.slot = some x) (ho : s.lnk.owed = some (seq, due))
include hx ho

theorem immAckSend_of_late (hd : due < s.clk.now) : immAckSend s = incSat (ackTaken s) Fld.LNK_MACCNT4_ACKLATE 1 := by
  unfold immAckSend
  rw [hx, ho]
  exact if_pos hd

theorem immAckSend_of_due (hd : s.clk.now ≤ due) (h3 : pathState s .b = 3)
    (hp : (linkRadiate (rxEnd (ackTaken s) 5) x (ackFrame seq) (10 * (due - s.clk.now))).2 = true) :
    immAckSend s = { (linkRadiate (rxEnd (ackTaken s) 5) x (ackFrame seq) (10 * (due - s.clk.now))).1 with
      lnk := { (linkRadiate (rxEnd (ackTaken s) 5) x (ackFrame seq) (10 * (due - s.clk.now))).1.lnk with acking := true } } := by
  have h3' : ¬ pathState (ackTaken s) .b ≠ 3 := not_not_intro h3
  unfold immAckSend
  rw [hx, ho]
  exact ((if_neg (Nat.not_lt.2 hd)).trans (if_neg h3')).trans (if_pos hp)

end

/-- Sending an Imm-Ack: the reception in hand ends, and path B sends. -/
theorem ackSent {s : State} {x : LnkSlot} (hp : powerOk s (rpPort s x.rp) (ePower (slotEntry s x)) = true)
    (octets : List Byte) (leadNs : Nat) : (linkRadiate (rxEnd (ackTaken s) 5) x octets leadNs).2 = true ∧
      LinkSends (rxEnd (ackTaken s) 5) (linkRadiate (rxEnd (ackTaken s) 5) x octets leadNs).1
        (lnkAir s (slotEntry s x) octets leadNs) := by
  have hport : rpPort (rxEnd (ackTaken s) 5) x.rp = rpPort s x.rp := rpPort_rxEnd _ _ _
  have hentry : slotEntry (rxEnd (ackTaken s) 5) x = slotEntry s x := slotEntry_rxEnd _ _ _
  have hok : powerOk (rxEnd (ackTaken s) 5) (rpPort s x.rp) (ePower (slotEntry s x)) = true :=
    (powerOk_rxEnd (ackTaken s) 5 x.rp _).trans hp
  have hair : lnkAir (rxEnd (ackTaken s) 5) (slotEntry s x) octets leadNs = lnkAir s (slotEntry s x) octets leadNs :=
    lnkAir_rxEnd _ _ _ _ _
  have h := linkRadiate_sends (s := rxEnd (ackTaken s) 5) (x := x) (by rw [hport, hentry]; exact hok) octets leadNs
  rwa [hentry, hair] at h

/-! ### The commands -/

section
variable {s t : State} (hb : t.brm = s.brm) (hd : t.hf = s.hf) (hl : t.lnk.slot = s.lnk.slot)
include hb hd hl

theorem exec_listenEnd_of_standing (e : listenEnd s = t) : exec .listenEnd s = .next t := by
  have hexec : exec .listenEnd s = .next (row s listenEnd) := rfl
  subst e
  rw [hexec, row_of_standing hb hd hl]

theorem exec_immAckSend_of_standing (e : immAckSend s = t) : exec .immAckSend s = .next t := by
  have hexec : exec .immAckSend s = .next (row s immAckSend) := rfl
  subst e
  rw [hexec, row_of_standing hb hd hl]

end

/-- A busy listen in RXON (R408). -/
theorem listenEnd_busy_acts {s : State} {x : LnkSlot} {be nb : Nat} {f : LnkTx} (hx : s.lnk.slot = some x)
    (ha : s.lnk.act = .listen be nb true) (hq : s.lnk.queue = [f]) (h3 : pathState s .b = 3)
    (hn : fld s Fld.LNK_CCA_MAXBO < nb + 1) : ∃ t, exec .listenEnd s = .next t ∧ t.lnk.queue = [] ∧ t.lnk.act = .idle ∧
      flag t (intBit 45) = true ∧ FldsKept packetFlds s t ∧
      t = { s with regs := t.regs, fresh := t.fresh, lnk := t.lnk, fifo := t.fifo } := by
  obtain ⟨hempty, hdone, hstate, hkept⟩ := headEnds_alone_idle hq (result := 3) (by decide) (by decide)
  have e : listenEnd s = setAct (headEnds s 3) .idle := by
    rw [listenEnd_of_last hx ha hq h3 hn, sendHead_of_empty hempty]
  have hslot : (headEnds s 3).lnk.slot = s.lnk.slot := by
    rw [headEnds_alone hq (by decide) (by decide), lnk_txPacket]
  exact ⟨setAct (headEnds s 3) .idle, exec_listenEnd_of_standing (by rw [hstate]) (by rw [hstate]) hslot e, hempty, rfl, hdone,
    hkept, hstate⟩

/-- A clear listen in RXON (R408). -/
theorem listenEnd_clear_acts {s : State} {x : LnkSlot} {be nb fc : Nat} {f : LnkTx} {q : List LnkTx} {octets : List Byte}
    (hx : s.lnk.slot = some x) (ha : s.lnk.act = .listen be nb false) (hq : s.lnk.queue = f :: q)
    (hf : f.secured = some (fc, octets)) (h3 : pathState s .b = 3)
    (hp : powerOk s (rpPort s x.rp) (ePower (slotEntry s x)) = true) :
    ∃ t, exec .listenEnd s = .next t ∧ t.lnk.act = .tx ∧ t.lnk.queue = s.lnk.queue ∧
      t.lnk.sent = [lnkAir s (slotEntry s x) octets (1000 * turnUs)] ∧
      pathState t .b = 4 ∧ flag t (fCarr .b) = true ∧ FldsKept sendFlds s t ∧
      t = { s with regs := t.regs, fresh := t.fresh, radio := t.radio, lnk := t.lnk } := by
  obtain ⟨hsent, hstate, hkept, hpath, hcarr⟩ := linkRadiate_sends (s := lnkQuiet s) hp octets (1000 * turnUs)
  refine ⟨_, exec_listenEnd_of_standing ?_ ?_ ?_ (listenEnd_of_clear hx ha hq hf h3 hsent), rfl, ?_, ?_, hpath, hcarr,
    hkept.regs rfl, ?_⟩
  · rw [hstate]; rfl
  · rw [hstate]; rfl
  · exact (congrArg (fun u => u.lnk.slot) hstate :)
  · exact (congrArg (fun u => u.lnk.queue) hstate :)
  · exact (congrArg (fun u => u.lnk.sent) hstate :)
  · rw [hstate]; rfl

/-- The Imm-Ack owed is late (R410). -/
theorem immAckSend_late_acts {s : State} {x : LnkSlot} {seq due : Nat} (hx : s.lnk.slot = some x)
    (ho : s.lnk.owed = some (seq, due)) (hd : due < s.clk.now) :
    ∃ t, exec .immAckSend s = .next t ∧ t.lnk.owed = none ∧
      fld t Fld.LNK_MACCNT4_ACKLATE = min 0xFFFF (fld s Fld.LNK_MACCNT4_ACKLATE + 1) ∧
      FldsKept [Fld.LNK_MACCNT4_ACKLATE] s t ∧ t = { s with regs := t.regs, fresh := t.fresh, lnk := t.lnk } := by
  have hkept : FldsKept [Fld.LNK_MACCNT4_ACKLATE] s (ackTaken s) := (FldsKept.refl _ s).regs rfl
  exact ⟨incSat (ackTaken s) Fld.LNK_MACCNT4_ACKLATE 1,
    exec_immAckSend_of_standing rfl rfl rfl (immAckSend_of_late hx ho hd), rfl,
    fld_incSat_self (ackTaken s) Fld.LNK_MACCNT4_ACKLATE 1 (by decide), hkept.setFld List.mem_cons_self _, rfl⟩

/-- The Imm-Ack owed goes on the air in time (R410). -/
theorem immAckSend_due_acts {s : State} {x : LnkSlot} {seq due : Nat} (hx : s.lnk.slot = some x)
    (ho : s.lnk.owed = some (seq, due)) (hd : s.clk.now ≤ due) (h3 : pathState s .b = 3)
    (hp : powerOk s (rpPort s x.rp) (ePower (slotEntry s x)) = true) :
    ∃ t, exec .immAckSend s = .next t ∧ t.lnk.owed = none ∧ t.lnk.acking = true ∧
      t.lnk.sent = [lnkAir s (slotEntry s x) (ackFrame seq) (10 * (due - s.clk.now))] ∧ pathState t .b = 4 ∧
      FldsKept (phyFlds ++ sendFlds) s t ∧
      t = { s with regs := t.regs, fresh := t.fresh, radio := t.radio, lnk := t.lnk, fifo := t.fifo } := by
  obtain ⟨hsent, hstate, hkept, hpath, -⟩ := ackSent hp (ackFrame seq) (10 * (due - s.clk.now))
  obtain ⟨⟨hrxState, hrxKept⟩, hrxLnk⟩ := rxEnd_only (ackTaken s) 5
  have howed : (rxEnd (ackTaken s) 5).lnk.owed = none := by rcases hrxLnk with e | ⟨-, e⟩ <;> rw [e] <;> rfl
  have hslot : (rxEnd (ackTaken s) 5).lnk.slot = s.lnk.slot := by rcases hrxLnk with e | ⟨-, e⟩ <;> rw [e] <;> rfl
  refine ⟨_, exec_immAckSend_of_standing ?_ ?_ ?_ (immAckSend_of_due hx ho hd h3 hsent), ?_, rfl, ?_, hpath, ?_, ?_⟩
  · rw [hstate, hrxState]; rfl
  · rw [hstate, hrxState]; rfl
  · exact (congrArg (fun u => u.lnk.slot) hstate :).trans hslot
  · exact (congrArg (fun u => u.lnk.owed) hstate :).trans howed
  · exact (congrArg (fun u => u.lnk.sent) hstate :)
  · exact (hrxKept.mono (List.subset_append_left _ _)).trans ((hkept.regs rfl).mono (List.subset_append_right _ _))
  · rw [hstate, hrxState]; rfl

/-- Settles O45: each command by the branch of its clause; a row here ends no round, field or slot. -/
theorem attemptsListenSendAndWait : Obligations.AttemptsListenSendAndWait := by
  unfold Obligations.AttemptsListenSendAndWait
  intro s x hx
  refine ⟨?_, ?_, ?_, ?_, ?_, ?_, ?_, ?_, ?_⟩
  · intro be nb f q ha hq h3 hn
    exact exec_listenEnd_of_standing rfl rfl rfl (listenEnd_of_busy hx ha hq h3 hn)
  · intro be nb f ha hq h3 hn
    exact listenEnd_busy_acts hx ha hq h3 hn
  · intro be nb f q fc octets ha hq hf h3 hp
    exact listenEnd_clear_acts hx ha hq hf h3 hp
  · intro be nb f q ha hq
    refine ⟨fun hu => ?_, fun hu hfit => ?_⟩
    · have e : attemptBack s = setHead s { f with attempts := f.attempts - 1 } := by
        unfold attemptBack
        rw [hq]
      have h := congrArg next (backoffEnd_of_late hx ha hq hu)
      rw [e, setHead, hq] at h
      exact h
    · have honly := rxEnd_only s 5
      refine ⟨_, congrArg next (backoffEnd_of_room hx ha hq hu hfit), rfl, rx_rxEnd hx 5, ?_, honly.1.2.regs rfl, ?_⟩
      · rcases honly.2 with e | ⟨-, e⟩ <;> exact (congrArg Lnk.queue e :)
      · rw [setAct, honly.1.1]
  · intro f q ha hq hf h4 hack
    obtain ⟨-, hpath, hcarr⟩ := linkReceive_only s
    have hstate := linkReceive_state s
    refine ⟨_, congrArg next (linkTxEnd_of_ar hx h4 hack ha hq hf), rfl,
      (congrArg (fun u => u.lnk.txEnd) hstate :), hpath, hcarr, ?_,
      (fldsKept_linkReceive s).regs rfl, ?_⟩
    · exact (congrArg (fun u => u.lnk.queue) hstate :)
    · rw [setAct, hstate]
  · intro h4 hack
    obtain ⟨-, hpath, -⟩ := linkReceive_only s
    have hstate := linkReceive_state s
    exact ⟨_, congrArg next (linkTxEnd_of_acking hx h4 hack), rfl, (congrArg (fun u => u.lnk.act) hstate :), hpath,
      (congrArg (fun u => u.lnk.queue) hstate :), fldsKept_linkReceive s, by rw [hstate]⟩
  · intro f q ha hq hn
    exact congrArg next (ackWaitEnd_of_retry ha hq hn)
  · intro f ha hq hn
    obtain ⟨hempty, hdone, hcount, hstate, hkept⟩ := headEnds_noAck_idle hq
    exact ⟨_, congrArg next (ackWaitEnd_of_last ha hq hn), hempty, rfl, hdone, hcount, hkept, hstate⟩
  · intro seq due ho
    refine ⟨fun hd => ?_, fun hd h3 hp => immAckSend_due_acts hx ho hd h3 hp⟩
    exact immAckSend_late_acts hx ho hd

end Sys2Proof.Machine

/-! What stands at a boundary in a row leaves the front end's state and events (R32–R39, R222, R225). -/

namespace Sys2Proof.Machine

/-! ### Posting (R145) -/

/-- What a posting may write: the coexistence outputs, and the count of a scheduled item that collides (R157, R168). -/
def postFlds : List Field := Fld.SYS_SCHCNT3_COLLIDE :: cxFlds

theorem putRequest_flds (s : State) (r : Request) : FldsKept postFlds s (putRequest s r) :=
  ((FldsKept.refl postFlds s).regs rfl).trans ((cxOutputs_only _ false).2.mono (List.subset_cons_self _ _))

theorem postRequest_flds (s : State) (r : Request) : FldsKept postFlds s (postRequest s r).1 := by
  have hsched : ∀ x : Sched, FldsKept postFlds s { s with sched := x } := fun _ => FldsKept.regs (.refl _ s) rfl
  unfold postRequest
  dsimp only
  split
  · exact .refl _ s
  · split
    · split
      · split
        · exact (FldsKept.refl _ s).setFld List.mem_cons_self _
        · exact (hsched _).trans (putRequest_flds _ _)
      · exact putRequest_flds s _
    · exact putRequest_flds s _

/-! ### What keeps the registers of the paths and of the front end's events -/

/-- An address other than those of `RAD_STATE` and `RAD_STAT`. -/
abbrev OffFront (a : Nat) : Prop := Adr.RAD_STATE ≠ a ∧ Adr.RAD_STAT ≠ a

/-- `RAD_STATE` and `RAD_STAT` read as before. -/
def FrontKept (s t : State) : Prop := reg t Adr.RAD_STATE = reg s Adr.RAD_STATE ∧ reg t Adr.RAD_STAT = reg s Adr.RAD_STAT

namespace FrontKept

variable {s t u : State}

theorem refl (s : State) : FrontKept s s := ⟨rfl, rfl⟩

theorem trans (h : FrontKept s t) (h' : FrontKept t u) : FrontKept s u := ⟨h'.1.trans h.1, h'.2.trans h.2⟩

/-- An update of anything but registers. -/
theorem same (h : FrontKept s t) (hr : u.regs = t.regs) : FrontKept s u :=
  h.trans ⟨by rw [reg, hr, reg], by rw [reg, hr, reg]⟩

theorem setLnk (h : FrontKept s t) (x : Lnk) : FrontKept s { t with lnk := x } := h

theorem setSched (h : FrontKept s t) (x : Sched) : FrontKept s { t with sched := x } := h

theorem flds (h : FrontKept s t) {l : List Field} (hu : FldsKept l t u) (hl : ∀ g ∈ l, OffFront g.addr) : FrontKept s u :=
  h.trans ⟨hu.reg_eq fun g hg => (hl g hg).1, hu.reg_eq fun g hg => (hl g hg).2⟩

theorem setReg (h : FrontKept s t) {a : Nat} (ha : OffFront a) (v : Word) : FrontKept s (setReg t a v) :=
  h.trans ⟨reg_setReg_ne t v ha.1, reg_setReg_ne t v ha.2⟩

theorem setFld (h : FrontKept s t) {f : Field} (hf : OffFront f.addr) (v : Nat) : FrontKept s (setFld t f v) := h.setReg hf _

theorem setFlag (h : FrontKept s t) {f : Field} (hf : OffFront f.addr) : FrontKept s (setFlag t f) := (h.setFld hf 1).same rfl

theorem raise (h : FrontKept s t) (k : Nat) : FrontKept s (raise t k) :=
  h.trans ⟨reg_raise_ne t k (by decide) (by decide), reg_raise_ne t k (by decide) (by decide)⟩

theorem ite {c : Prop} [Decidable c] (ht : FrontKept s t) (hu : FrontKept s u) : FrontKept s (if c then t else u) := by
  split
  · exact ht
  · exact hu

theorem foldl {α : Type} (f : State → α → State) (L : List α) (hf : ∀ k ∈ L, ∀ u, FrontKept s u → FrontKept s (f u k))
    (h : FrontKept s t) : FrontKept s (L.foldl f t) := by
  induction L generalizing t with
  | nil => exact h
  | cons k L ih => exact ih (fun j hj => hf j (List.mem_cons_of_mem k hj)) (hf k List.mem_cons_self t h)

theorem fifo (h : FrontKept s t) (hu : OnlyFifo packetFlds t u) : FrontKept s u := h.flds hu.2 (by decide)

theorem reports (h : FrontKept s t) (hu : OnlyReports packetFlds t u) : FrontKept s u := h.flds hu.2 (by decide)

theorem journal (h : FrontKept s t) (hu : OnlyJournal t u) : FrontKept s u := h.flds hu.kept (by decide)

theorem admitPacket (h : FrontKept s t) {n : Nat} (hn : n < 9) (ws : List Word) : FrontKept s (admitPacket t n ws) :=
  h.fifo ((OnlyFifo.refl _ t).admitPacket (List.Subset.refl _) hn ws)

theorem emitBoth (h : FrontKept s t) {n : Nat} (hn : n < 9) (tag : Nat) (ws : List Word) : FrontKept s (emitBoth t n tag ws) :=
  h.reports ((OnlyReports.refl _ t).emitBoth (List.Subset.refl _) hn tag ws)

/-! ### Requests and turns (R145, R154) -/

theorem cxOutputs (h : FrontKept s t) (mayFall : Bool) : FrontKept s (cxOutputs t mayFall) :=
  h.flds (cxOutputs_only t mayFall).2 (by decide)

theorem postRequest (h : FrontKept s t) (r : Request) : FrontKept s (postRequest t r).1 :=
  h.flds (postRequest_flds t r) (by decide)

theorem countGrant (h : FrontKept s t) (r : Request) : FrontKept s (countGrant t r) := by
  have hoff : ∀ n < 11, OffFront (Adr.SYS_RES_GRANT n) ∧ OffFront (Adr.SYS_RES_WAIT n) := by decide
  unfold Machine.countGrant
  refine foldl _ _ (fun n hn u hu => ?_) h
  obtain ⟨hgrant, hwait⟩ := hoff n (List.mem_range.1 (List.mem_filter.1 hn).1)
  exact ite ((hu.setFld (f := Fld.SYS_RES_GRANT_GRANTS n) hgrant _).setFld (f := Fld.SYS_RES_WAIT_MAXWAIT n) hwait _)
    (hu.setFld (f := Fld.SYS_RES_GRANT_GRANTS n) hgrant _)

theorem rfStart (h : FrontKept s t) (mask : Nat) : FrontKept s (rfStart t mask) := by
  unfold Machine.rfStart
  exact ite (ite (FrontKept.flds (h.same rfl) (setMode_only _ 4).2 (by decide)) (h.same rfl)) h

theorem rfOver (h : FrontKept s t) (mask : Nat) : FrontKept s (rfOver t mask) := by
  unfold Machine.rfOver
  exact ite (h.same rfl) h

/-- A command that takes its turn, or waits for it. -/
theorem turn (h : FrontKept s t) (r : Request) (cmd : Instr) {run : State → State}
    (hrun : ∀ u, FrontKept s u → FrontKept s (run u)) : FrontKept s (turn t r cmd run) := by
  unfold Machine.turn turnOr
  dsimp only
  split
  · exact hrun t h
  · split
    · exact ((hrun _ ((h.countGrant _).rfStart _)).rfOver _).setSched _
    · exact (h.setSched _).postRequest _

/-! ### What an accepted set changes beside its registers -/

theorem ckptRun (h : FrontKept s t) : FrontKept s (ckptRun t) := by
  have h0 : FrontKept s { t with jnl := { t.jnl with fcDue := false, dutyDue := false } } := h
  unfold Machine.ckptRun
  exact ite (FrontKept.journal (ite (h0.journal (OnlyJournal.refl _).ckptWrite) h0) (OnlyJournal.refl _).dutyWrite)
    (ite (h0.journal (OnlyJournal.refl _).ckptWrite) h0)

theorem ckptAsk (h : FrontKept s t) : FrontKept s (ckptAsk t) := by
  have h0 : ∀ j : Journal, FrontKept s { t with jnl := j } := fun _ => h
  unfold Machine.ckptAsk ckptTurn
  exact ite h (ite (h0 _) ((h0 _).turn _ _ fun _ hu => hu.ckptRun))

theorem setPair (h : FrontKept s t) (p : Nat × Nat) (reason : Nat) : FrontKept s (setPair t p reason) := by
  unfold Machine.setPair
  dsimp only
  split
  · exact h
  · have h1 := (h.setFld (f := Fld.LNK_EPOCH_EPOCH) (by decide) p.1).setFld (f := Fld.LNK_ORIGIN_ORIGIN) (by decide) p.2
    exact ((h1.setLnk _).emitBoth (by decide) _ _).raise 48

theorem becomeOrigin (h : FrontKept s t) (resume : Bool) : FrontKept s (becomeOrigin t resume) := by
  have h1 : FrontKept s (Machine.setFld (Machine.setFlag (Machine.setFld (clrFld t Fld.LNK_ORIGIN_HOLD) Fld.LNK_ORIGIN_SRC 0xF)
      Fld.LNK_ORIGIN_ISORIG) Fld.LNK_ORIGIN_HOPS 0) :=
    (((h.setFld (by decide) 0).setFld (by decide) _).setFlag (by decide)).setFld (by decide) 0
  unfold Machine.becomeOrigin
  exact ite (h1.setLnk _) ((h1.setLnk _).setPair _ _)

theorem adopt (h : FrontKept s t) (k reason : Nat) : FrontKept s (adopt t k reason) := by
  have h1 : FrontKept s (Machine.setFld (clrFld (clrFld (Machine.setFld t Fld.LNK_ORIGIN_SRC k) Fld.LNK_ORIGIN_ISORIG)
      Fld.LNK_ORIGIN_HOLD) Fld.LNK_ORIGIN_HOPS (min 255 ((nbrOf t (srcNbr t k)).hops + 1))) :=
    (((h.setFld (by decide) _).setFld (by decide) 0).setFld (by decide) 0).setFld (by decide) _
  exact (h1.setLnk _).setPair _ _

theorem noSource (h : FrontKept s t) : FrontKept s (noSource t) := by
  unfold Machine.noSource
  exact ite (h.becomeOrigin _) (ite h (h.setFlag (by decide)))

theorem searchOn (h : FrontKept s t) (lost : Bool) : FrontKept s (searchOn t lost) := by
  unfold Machine.searchOn
  dsimp only
  split
  · exact h
  · split
    · exact h.setLnk _
    · exact ite h (h.setLnk _).noSource

theorem reconsider (h : FrontKept s t) : FrontKept s (reconsider t) := by
  unfold Machine.reconsider
  refine ite h (ite h ?_)
  split
  · exact h.adopt _ _
  · exact searchOn (h.setFld (by decide) _) _

theorem lnkApplied (h : FrontKept s t) : FrontKept s (lnkApplied t) := by
  unfold Machine.lnkApplied
  exact ite h (ite (ite h (h.becomeOrigin _)) (ite h h.reconsider))

theorem nbrApplied (h : FrontKept s t) (n oldEui : Nat) : FrontKept s (nbrApplied t n oldEui) := by
  have hfc : OffFront (Adr.NBR_FC n) := by
    simp only [OffFront, Adr.RAD_STATE, Adr.RAD_STAT, Adr.NBR_FC]
    omega
  unfold Machine.nbrApplied
  exact ite h ((h.setReg hfc 0).setLnk _).ckptAsk

theorem sgtClose (h : FrontKept s t) (n : Nat) (why : Option Nat) : FrontKept s (sgtClose t n why) := by
  have hflags : ∀ {u : State}, FrontKept s u → FrontKept s (closeFlags why u) := fun {u} hu => by
    unfold closeFlags
    split
    · exact ((hu.setFld (by decide) _).setFlag (by decide)).raise 58
    · exact hu.setFld (by decide) _
    · exact hu.setFlag (by decide)
    · exact hu
  cases he : sgtAt t n with
  | none => rwa [sgtClose_of_free he]
  | some e =>
    obtain ⟨freed, u, z, hu, hc⟩ := sgtClose_of_open he why
    have hfreed : FrontKept s (sgtWithout t n freed) := h
    rw [hc]
    exact hflags ((hfreed.fifo hu).setFld (f := Fld.SGT_CNT0_CLOSED) (by decide) _)

/-- An automatic report is queued, or its refusal is a packet (R441). -/
theorem autoTrf (h : FrontKept s t) (ws : List Word) : FrontKept s (autoTrf t ws) := by
  unfold Machine.autoTrf autoReport queueFrame
  split
  · split
    · exact (h.admitPacket (by decide) _).setFlag (by decide)
    · exact h.setLnk _
  · exact h

theorem trfReport (h : FrontKept s t) (code : Nat) (i : Interval) (len : Nat) (zoneEnd timeStep : Bool) :
    FrontKept s (trfReport t code i len zoneEnd timeStep) := ((h.emitBoth (by decide) _ _).autoTrf _).raise 59

theorem zoneEnd (h : FrontKept s t) (code : Nat) : FrontKept s (zoneEnd t code) := by
  unfold Machine.zoneEnd
  split
  · exact h
  · have hclosed : ∀ L : List (Nat × Sighting), FrontKept s (L.foldl (fun t p => Machine.sgtClose t p.1 (some 7)) t) :=
      fun L => foldl _ L (fun p _ u hu => hu.sgtClose p.1 _) h
    dsimp only
    split
    · exact hclosed _
    · exact FrontKept.trfReport (foldl _ _ (fun i _ u hu => hu.trfReport ..) (hclosed _)) ..

theorem zoneBegin (h : FrontKept s t) (code : Nat) : FrontKept s (zoneBegin t code) := by
  unfold Machine.zoneBegin
  exact ite h (h.same rfl)

theorem zonesFollow (h : FrontKept s t) (s0 : State) : FrontKept s (zonesFollow s0 t) := by
  have hended : ∀ L : List Nat, FrontKept s (L.foldl (fun t n => Machine.zoneEnd t (0x40 + n)) t) := fun L =>
    foldl _ L (fun n _ u hu => hu.zoneEnd _) h
  unfold Machine.zonesFollow
  exact ite (foldl _ _ (fun n _ u hu => hu.zoneBegin _) (hended _)) (hended _)

/-- A timer's status register. -/
theorem offFront_tmrStat (n : Nat) : OffFront (Adr.TMR_STAT n) := by
  simp only [OffFront, Adr.RAD_STATE, Adr.RAD_STAT, Adr.TMR_STAT]
  omega

theorem arm (h : FrontKept s t) (n mask : Nat) : FrontKept s (arm t n mask) := by
  have h0 : ∀ x, FrontKept s (setTmr t n x) := fun _ => h
  exact (h0 _).setFld (f := Fld.TMR_STAT_ARMED n) (offFront_tmrStat n) _

theorem tmrApplied (h : FrontKept s t) (n oldCmpen : Nat) : FrontKept s (tmrApplied t n oldCmpen) := by
  have h0 : ∀ x v, FrontKept s (Machine.setFld (setTmr t n x) (Fld.TMR_STAT_ARMED n) v) := fun x v =>
    (h.same rfl : FrontKept s (setTmr t n x)).setFld (offFront_tmrStat n) v
  unfold Machine.tmrApplied
  exact ite ((h0 _ _).arm _ _) (((h0 _ _).arm _ _).setFlag (f := Fld.TMR_STAT_GATE n) (offFront_tmrStat n))

theorem brmApplied (h : FrontKept s t) (s0 : State) : FrontKept s (brmApplied s0 t) := by
  have h0 : FrontKept s { t with brm := { t.brm with pool := t.brm.poolShadow } } := h
  have h1 : FrontKept s (if profileChans s0 != profileChans { t with brm := { t.brm with pool := t.brm.poolShadow } } then
      accountsForProfile { t with brm := { t.brm with pool := t.brm.poolShadow } } else
      { t with brm := { t.brm with pool := t.brm.poolShadow } }) := ite (h0.same rfl) h0
  unfold Machine.brmApplied
  exact ite (h1.setFld (by decide) _) h1

theorem harvFollows (h : FrontKept s t) (oldHarv : Bool) : FrontKept s (harvFollows t oldHarv) := by
  unfold Machine.harvFollows
  exact ite (h.setFld (by decide) 0) (ite (FrontKept.setFld (h.same rfl) (by decide) _) h)

theorem tagApplied (h : FrontKept s t) (oldFltpg : Nat) (oldFlten oldHarv inStep6 : Bool) :
    FrontKept s (tagApplied t oldFltpg oldFlten oldHarv inStep6) := by
  have h0 : ∀ {u}, FrontKept s u → FrontKept s (mirrorTag u) := fun hu => hu
  have h1 : FrontKept s (logRestart t) := h
  unfold Machine.tagApplied
  exact ite (harvFollows (ite h1 h) _) (h0 (harvFollows (ite h1 h) _))

theorem grsApplied (h : FrontKept s t) (s0 : State) : FrontKept s (grsApplied s0 t) := by
  unfold Machine.grsApplied baselineRebuild
  exact ite (FrontKept.setFld (FrontKept.setFlag (h.same rfl) (by decide)) (by decide) 0) h

theorem qtzApplied (h : FrontKept s t) (s0 : State) : FrontKept s (qtzApplied s0 t) := by
  have e : (Machine.qtzApplied s0 t).regs = t.regs := by
    unfold Machine.qtzApplied trimChanged trimWindowNew fitRestart
    dsimp only
    (repeat' split) <;> rfl
  exact h.same e

/-- The effects of an accepted set do not reach the front end's state (R609). -/
theorem afterSwap (h : FrontKept s t) (s0 : State) (b : BlockInst) : FrontKept s (afterSwap s0 t b) := by
  unfold Machine.afterSwap
  split
  · exact (h.setSched _).cxOutputs true
  · exact h.tmrApplied _ _
  · exact h.same rfl
  · exact h.zonesFollow _
  · exact h.brmApplied _
  · exact h.tagApplied _ _ _ _
  · exact h.grsApplied _
  · exact h.lnkApplied
  · exact h.nbrApplied _ _
  · exact h.qtzApplied _
  · exact h

/-! ### Boundaries (R32–R39, R609) -/

/-- No commit register is one of the front end's. -/
theorem offFront_commitAddr (b : BlockInst) : OffFront (commitAddr b) := by
  unfold OffFront commitAddr
  cases b.block <;> simp only [Adr.RAD_STATE, Adr.RAD_STAT, Adr.SYS_COMMIT, Adr.PROT_COMMIT, Adr.QTZ_COMMIT, Adr.TMR_COMMIT,
    Adr.FIFO_COMMIT, Adr.RAD_COMMIT, Adr.SYNCAL_COMMIT, Adr.RP_COMMIT, Adr.HDG_COMMIT, Adr.BRM_COMMIT, Adr.HF_COMMIT,
    Adr.TAG_COMMIT, Adr.GRS_COMMIT, Adr.LNK_COMMIT, Adr.NBR_COMMIT, Adr.CAL_COMMIT, Adr.MSP_COMMIT, Adr.HSP_COMMIT] <;> omega

/-- Neither register has a field with a shadow. -/
theorem swapWords (h : FrontKept s t) (b : BlockInst) (f : Nat → Bool) : FrontKept s (swapWords t b f) :=
  h.trans ⟨reg_swapWords_of_sh t b f (by decide +kernel), reg_swapWords_of_sh t b f (by decide +kernel)⟩

theorem setPend (h : FrontKept s t) (b : BlockInst) (v : Nat) : FrontKept s (setPend t b v) :=
  (h.setFld (f := cPend b) (offFront_commitAddr b) v).setFld (f := cCommit b) (offFront_commitAddr b) v

theorem acceptSeq (h : FrontKept s t) (b : BlockInst) : FrontKept s (acceptSeq t b) :=
  (h.setFld (f := cSeq b) (offFront_commitAddr b) _).admitPacket (by decide) _

theorem refuseSet (h : FrontKept s t) (b : BlockInst) (reason : Nat) : FrontKept s (refuseSet t b reason) :=
  h.flds (refuseSet_reports t b reason).2 fun g hg => by
    rcases List.mem_append.1 hg with hg | hg
    · have hint : OffFront (intBit 1).addr := by decide
      simp only [List.mem_cons, List.not_mem_nil, or_false] at hg
      rcases hg with rfl | rfl | rfl | rfl | rfl
      · exact offFront_commitAddr b
      · exact offFront_commitAddr b
      · exact offFront_commitAddr b
      · exact offFront_commitAddr b
      · exact hint
    · exact (by decide : ∀ g ∈ packetFlds, OffFront g.addr) g hg

theorem calCommitted (h : FrontKept s t) (changed covered : List Nat) : FrontKept s (calCommitted t changed covered) :=
  h.same (by rw [calCommitted_frame])

theorem acceptAll (h : FrontKept s t) (b : BlockInst) : FrontKept s (acceptAll t b) :=
  FrontKept.calCommitted (FrontKept.afterSwap (((h.swapWords b _).setPend b 0).acceptSeq b) t b) _ _

theorem partEnd (h : FrontKept s t) (b : BlockInst) (rest : List Nat) : FrontKept s (partEnd t b rest) :=
  h.trans ⟨reg_partEnd t b rest (offFront_commitAddr b).1, reg_partEnd t b rest (offFront_commitAddr b).2⟩

theorem partSwap (h : FrontKept s t) (b : BlockInst) (n : Nat) : FrontKept s (partSwap t b n) := by
  rcases partSwap_cases t b n with e | ⟨rest, e⟩ <;> rw [e]
  · exact h
  · have hwords : FrontKept t (partWords t b n) :=
      ((refl t).swapWords b _).flds (swapWords_partWords t b n).2 (by decide)
    exact (h.trans hwords).partEnd b rest

theorem partSwaps (h : FrontKept s t) (b : BlockInst) (L : List Nat) :
    FrontKept s (L.foldl (fun u n => Machine.partSwap u b n) t) := foldl _ L (fun n _ _ hu => hu.partSwap b n) h

theorem acceptParts (h : FrontKept s t) (b : BlockInst) : FrontKept s (acceptParts t b) := by
  have hparts : FrontKept s (setParts (Machine.acceptSeq t b) b.block (partsOf t b)) := h.acceptSeq b
  unfold Machine.acceptParts
  exact ite (h.refuseSet b _) (ite (((h.acceptSeq b).swapWords b _).setPend b 0) (hparts.partSwaps b _))

theorem boundary (h : FrontKept s t) (b : BlockInst) : FrontKept s (boundary t b) := by
  unfold Machine.boundary
  refine ite h (ite ?_ (ite (h.acceptAll b) (h.refuseSet b _)))
  split
  · exact h.partSwaps b _
  · exact h.acceptParts b

theorem settle (h : FrontKept s t) : FrontKept s (settle t) := by
  unfold Machine.settle
  exact foldl _ _ (fun b _ u hu => ite (hu.boundary b) hu) h

end FrontKept

/-- A row leaves the front end's state and events as its command did. -/
theorem row_front (s : State) (run : State → State) : FrontKept (run s) (row s run) := by
  unfold row
  exact FrontKept.ite (FrontKept.refl (run s)).settle (.refl _)

end Sys2Proof.Machine

/-! The work of rounds (R258–R264, R285–R290): what the ends of rounds and visits, and the hops between channels, may move. -/

namespace Sys2Proof.Machine

/-! ### A path goes to IDLE (R182) -/

/-- A path that is not off is IDLE, and its carrier is off. -/
theorem pathIdle_idle {s : State} {p : RfPath} (h : pathState s p ≠ 0) :
    pathState (pathIdle s p) p = 1 ∧ fld (pathIdle s p) (fCarr p) = 0 := by
  obtain ⟨gains, x, e⟩ := pathIdle_eq s p h
  rw [e]
  constructor
  · rw [pathState, (setChains_onlyFlds _).2.fld_eq (fPath_apart_chainFlds p), fld_setFld_self _ _ _ (by cases p <;> decide)]
    cases p <;> rfl
  · rw [(setChains_onlyFlds _).2.fld_eq (fCarr_apart_chainFlds p), fld_setFld_apart _ _ _ _ (by cases p <;> decide),
      fld_congr (s := carrierOff s p) (by rw [setPathSt_radio]), fld_fCarr_carrierOff]

theorem eq_otherPath_of_ne {p q : RfPath} (h : q ≠ p) : q = otherPath p := by
  cases p with
  | a => cases q with
    | a => exact absurd rfl h
    | b => rfl
  | b => cases q with
    | a => rfl
    | b => exact absurd rfl h

/-- No path goes off where one goes to IDLE. -/
theorem pathIdle_awake (s : State) (p : RfPath) {q : RfPath} (h : pathState s q ≠ 0) : pathState (pathIdle s p) q ≠ 0 := by
  by_cases e : q = p
  · subst e
    rw [(pathIdle_idle h).1]
    decide
  · obtain rfl := eq_otherPath_of_ne e
    rwa [(pathIdle_onlyPath s p).pathState_other (otherPath_apart_settleFlds p)]

/-! ### What a round moves -/

/-- What the work of a round writes beside the states of the paths. -/
def quietFlds : List Field :=
  [intBit 32, intBit 33, intBit 34, Fld.BRM_STAT_ARUN, Fld.BRM_STAT_BRUN, Fld.BRM_STAT_LASTENTRY, Fld.BRM_STAT_LASTEND,
   Fld.BRM_STAT_SEQPOS, Fld.BRM_CNT2_DWELLHOLD, Fld.BRM_CNT3_ROUNDS, Fld.BRM_CNT3_CHSKIP, Fld.BRM_IMMSTAT_BUSY,
   Fld.BRM_IMMSTAT_RESULT, Fld.BRM_IMMSTAT_TAGS, Fld.RAD_STATE_APORT, Fld.RAD_STATE_BPORT] ++
    carrierFlds .a ++ carrierFlds .b ++ chainFlds ++ packetFlds

/-- What the work of a round writes. -/
def workFlds : List Field := [fPath .a, fPath .b] ++ quietFlds

theorem quietFlds_subset_workFlds : quietFlds ⊆ workFlds := List.subset_append_right _ _

theorem packetFlds_subset_quietFlds : packetFlds ⊆ quietFlds := List.subset_append_right _ _

theorem settleFlds_subset_workFlds (p : RfPath) : settleFlds p ⊆ workFlds := by
  cases p <;> decide

theorem fPath_apart_quietFlds (p : RfPath) : ∀ g ∈ quietFlds, (fPath p).apart g := by
  unfold Field.apart
  cases p <;> decide

/-- Nothing but a round's fields, the front end, the reader, the accounts' calibration and the channels changed, and no path went
off. -/
structure RoundMove (s t : State) : Prop where
  state : t = { s with regs := t.regs, fresh := t.fresh, radio := t.radio, brm := t.brm, cal := t.cal, fifo := t.fifo }
  kept : FldsKept workFlds s t
  awake : ∀ q, pathState s q ≠ 0 → pathState t q ≠ 0

namespace RoundMove

variable {s t u : State}

theorem refl (s : State) : RoundMove s s := ⟨rfl, .refl _ s, fun _ h => h⟩

theorem trans (h : RoundMove s t) (h' : RoundMove t u) : RoundMove s u :=
  ⟨by rw [h'.state, h.state], h.kept.trans h'.kept, fun q hq => h'.awake q (h.awake q hq)⟩

/-- A move that leaves the states of the paths. -/
theorem quiet (h : RoundMove s t)
    (hs : u = { t with regs := u.regs, fresh := u.fresh, radio := u.radio, brm := u.brm, cal := u.cal, fifo := u.fifo })
    (hk : FldsKept quietFlds t u) : RoundMove s u :=
  h.trans ⟨hs, hk.mono quietFlds_subset_workFlds, fun q hq => by
    rwa [pathState, hk.fld_eq (fPath_apart_quietFlds q)]⟩

theorem setFld (h : RoundMove s t) {f : Field} (hf : f ∈ quietFlds) (v : Nat) : RoundMove s (setFld t f v) :=
  h.quiet rfl ((FldsKept.refl _ t).setFld hf v)

theorem raise (h : RoundMove s t) {k : Nat} (hk : intBit k ∈ quietFlds) : RoundMove s (raise t k) :=
  h.quiet rfl ((FldsKept.refl _ t).raise hk)

theorem setBrm (h : RoundMove s t) (b : Brm) : RoundMove s { t with brm := b } := h.quiet rfl ((FldsKept.refl _ t).regs rfl)

theorem setRound (h : RoundMove s t) (p : RfPath) (r : Option Round) : RoundMove s (setRound t p r) := by
  cases p
  · exact h.setBrm _
  · exact h.setBrm _

theorem ite {c : Prop} [Decidable c] (ht : RoundMove s t) (hu : RoundMove s u) : RoundMove s (if c then t else u) := by
  split
  · exact ht
  · exact hu

theorem admitPacket (h : RoundMove s t) {n : Nat} (hn : n < 9) (ws : List Word) : RoundMove s (admitPacket t n ws) := by
  have hp := (OnlyFifo.refl packetFlds t).admitPacket (List.Subset.refl _) hn ws
  exact h.quiet (by rw [hp.1]) (hp.2.mono packetFlds_subset_quietFlds)

/-- A path that is not off goes to IDLE, and one that is off stays off (R182). -/
theorem pathIdle (h : RoundMove s t) (p : RfPath) : RoundMove s (pathIdle t p) := by
  have hpath := pathIdle_onlyPath t p
  exact h.trans ⟨by rw [hpath.state], hpath.kept.mono (settleFlds_subset_workFlds p), fun _ hq => pathIdle_awake t p hq⟩

theorem carrierOff (h : RoundMove s t) (p : RfPath) : RoundMove s (carrierOff t p) := by
  have hpath := carrierOff_onlyPath t p
  refine h.quiet (by rw [hpath.state]) (hpath.kept.mono ?_)
  cases p <;> decide

/-! ### The end of a round (R258, R264, R289, R290) -/

theorem programEnd (h : RoundMove s t) (p : RfPath) : RoundMove s (programEnd t p) := by
  unfold Machine.programEnd
  split
  · exact h
  · split
    · exact (ite ((h.admitPacket (by decide) _).raise (by decide)) h).setRound p _
    · exact h.setRound p _

theorem programAbort (h : RoundMove s t) (p : RfPath) : RoundMove s (programAbort t p) := by
  unfold Machine.programAbort
  split
  · exact h
  · split
    · exact (h.setRound p _).programEnd p
    · exact (h.setRound p _).programEnd p
    · exact h

theorem immEnd (h : RoundMove s t) (r : Round) (reason : Nat) : RoundMove s (immEnd t r reason) := by
  have hover : ∀ res tags, RoundMove s (immOver t res tags) := fun _ _ =>
    (((h.setFld (by decide) 0).setFld (by decide) _).setFld (by decide) _).setBrm _
  unfold Machine.immEnd
  exact ite (hover _ _) h

theorem roundEnd (h : RoundMove s t) (p : RfPath) (reason : Nat) : RoundMove s (roundEnd t p reason) := by
  have hrun : fRun p ∈ quietFlds := by cases p <;> decide
  have hcut := h.programAbort p
  unfold Machine.roundEnd
  dsimp only
  split
  · exact hcut
  · refine immEnd (pathIdle (ite (setFld (raise ?closed (by decide)) (by decide) _) ?closed) p) _ reason
    exact setRound (setBrm (setFld (setFld (setFld (setFld (raise (ite (admitPacket hcut (by decide) _) hcut) (by decide))
      (by decide) _) hrun 0) (by decide) _) (by decide) _) _) p none

/-- Both rounds of a pair, or the round alone. -/
theorem roundsEnd (h : RoundMove s t) (p : RfPath) (reason : Nat) : RoundMove s (roundsEnd t p reason) := by
  unfold Machine.roundsEnd
  split
  · exact h
  · exact ite ((h.roundEnd p reason).roundEnd _ reason) (h.roundEnd p reason)

/-! ### Channels, visits and hops (R259, R264, R285–R287) -/

theorem chSkip (h : RoundMove s t) (n : Nat) : RoundMove s (chSkip t n) := h.setFld (by decide) _

theorem takeFirst (h : RoundMove s t) (i : Nat) (e : Entry) (paired : Bool) (p : RfPath) :
    RoundMove s (takeFirst t i e paired p).2 := by
  unfold Machine.takeFirst
  split
  · split
    · exact (h.setFld (by decide) _).chSkip _
    · exact h
  · split
    · exact h.chSkip _
    · exact h

theorem takeNext (h : RoundMove s t) (e : Entry) (r : Round) (p : RfPath) : RoundMove s (takeNext t e r p).2 := by
  unfold Machine.takeNext
  split
  · exact h.takeFirst _ _ _ _
  · dsimp only
    split
    · exact h.chSkip _
    · exact h

theorem brmSend (h : RoundMove s t) (p : RfPath) (c : AirCmd) : RoundMove s (brmSend t p c) := h.setBrm _

theorem brmSends {α : Type} (h : RoundMove s t) (p : RfPath) (c : α → AirCmd) (L : List α) :
    RoundMove s (L.foldl (fun u k => Machine.brmSend u p (c k)) t) :=
  foldl_keeps (RoundMove s) _ (fun _ _ hu => hu.brmSend p _) L t h

theorem sendCycle (h : RoundMove s t) (p : RfPath) (r : Round) (e : Entry) : RoundMove s (sendCycle t p r e) :=
  ((h.setRound p _).brmSends p _ _).brmSend p _

theorem hopRound (h : RoundMove s t) (p : RfPath) (r : Round) (c : Nat) : RoundMove s (hopRound t p r c) := h.setRound p _

theorem assignRp (h : RoundMove s t) (p : RfPath) (rp : Nat) : RoundMove s (assignRp t p rp) := by
  have hpath := assignRp_onlyPath t p rp
  refine h.quiet (by rw [hpath.state]) (hpath.kept.mono ?_)
  cases p <;> decide

theorem visitRound (h : RoundMove s t) (p : RfPath) (r : Round) (e : Entry) (leaf : Nat) (rest : List Nat) :
    RoundMove s (visitRound t p r e leaf rest) := (ite h (h.assignRp p leaf)).setRound p _

theorem beginCycle (n : Nat) (h : RoundMove s t) (p : RfPath) : RoundMove s (beginCycle n t p) := by
  induction n generalizing t with
  | zero => exact h.roundEnd p 4
  | succ n ih =>
    unfold Machine.beginCycle
    split
    · exact h
    · next r _ =>
      dsimp only
      split
      · exact h.sendCycle p _ _
      · exact h.roundEnd p 1
      · split
        · exact h.roundEnd p 0
        · exact ih (h.visitRound p _ _ _ _)
      · have hnext := h.takeNext (roundEntry t r) r p
        split
        · exact hnext.roundEnd p 4
        · exact ite (hnext.roundEnd p 4) (ih (hnext.hopRound p _ _))

theorem hopNow (h : RoundMove s t) (p : RfPath) (stay : Bool) : RoundMove s (hopNow t p stay).1 := by
  unfold Machine.hopNow
  split
  · exact h
  · next r _ =>
    have hnext := h.takeNext (roundEntry t r) r p
    dsimp only
    split
    · exact hnext.roundEnd p 4
    · split
      · exact beginCycle _ (hnext.hopRound p _ _) p
      · split
        · exact hnext.setRound p _
        · exact hnext.roundEnd p 4

theorem cycleStart (h : RoundMove s t) (p : RfPath) : RoundMove s (cycleStart t p) := by
  unfold Machine.cycleStart
  split
  · exact h
  · split
    · exact ite (beginCycle _ (h.hopNow p true) p) (h.hopNow p true)
    · exact beginCycle _ h p

theorem visitEnd (h : RoundMove s t) (p : RfPath) : RoundMove s (visitEnd t p) := by
  unfold Machine.visitEnd
  split
  · exact h
  · split
    · exact h.roundEnd p 0
    · exact (h.visitRound p _ _ _ _).cycleStart p

theorem stopWork (h : RoundMove s t) (p : RfPath) (why : BrmStop) : RoundMove s (stopWork t p why) := by
  cases why with
  | lease => exact h.roundEnd p 1
  | visit => exact h.visitEnd p
  | channel => exact h.hopNow p false

/-! ### Slots (R260, R265) -/

theorem nextSlot (h : RoundMove s t) (p : RfPath) (r : Round) (e : Entry) : RoundMove s (nextSlot t p r e) := by
  unfold Machine.nextSlot
  dsimp only
  split
  · exact (h.setRound p _).stopWork p _
  · exact (h.setRound p _).brmSend p _

end RoundMove

end Sys2Proof.Machine

/-! The power loop, the cancellation check and the receive chains' gain (R198–R223). -/

namespace Sys2Proof.Machine

/-! ### A carrier that is muted (R184, R202) -/

/-- No path has gone off, and OVERPWR stands as it did. -/
def StillMuting (s t : State) : Prop :=
  (∀ q, pathState s q ≠ 0 → pathState t q ≠ 0) ∧ flag t Fld.RAD_STAT_OVERPWR = flag s Fld.RAD_STAT_OVERPWR

namespace StillMuting

variable {s t u : State}

theorem refl (s : State) : StillMuting s s := ⟨fun _ h => h, rfl⟩

theorem trans (h : StillMuting s t) (h' : StillMuting t u) : StillMuting s u :=
  ⟨fun q hq => h'.1 q (h.1 q hq), h'.2.trans h.2⟩

theorem front (h : StillMuting s t) (hu : FrontKept t u) : StillMuting s u := by
  refine h.trans ⟨fun q hq => ?_, by rw [flag, fld_of_reg_eq hu.2, flag]⟩
  have e : reg u (fPath q).addr = reg t (fPath q).addr := by
    cases q
    · exact hu.1
    · exact hu.1
  rwa [pathState, fld_of_reg_eq e]

theorem pathIdle (h : StillMuting s t) (p : RfPath) : StillMuting s (pathIdle t p) := by
  refine h.trans ⟨fun _ hq => pathIdle_awake t p hq, (pathIdle_onlyPath t p).kept.flag_eq ?_⟩
  unfold Field.apart
  cases p <;> decide

theorem round (h : StillMuting s t) (hu : RoundMove t u) : StillMuting s u :=
  h.trans ⟨hu.awake, hu.kept.flag_eq (by unfold Field.apart; decide)⟩

theorem ite {c : Prop} [Decidable c] (ht : StillMuting s t) (hu : StillMuting s u) : StillMuting s (if c then t else u) := by
  split
  · exact ht
  · exact hu

end StillMuting

theorem FrontKept.headEnds {s t : State} (h : FrontKept s t) (result : Nat) : FrontKept s (headEnds t result) := by
  have hpacket : ∀ x f, FrontKept s (txPacket { t with lnk := x } f result) := fun x f =>
    (h.setLnk x).fifo (txPacket_fifo _ f result)
  unfold Machine.headEnds
  split
  · exact h
  · exact ite ((hpacket _ _).setFld (by decide) _) (ite ((hpacket _ _).setFld (by decide) _) (hpacket _ _))

theorem FrontKept.attemptFails {s t : State} (h : FrontKept s t) : FrontKept s (attemptFails t) := by
  unfold Machine.attemptFails
  split
  · exact ite (h.setLnk _) ((h.headEnds 2).setLnk _)
  · exact h.setLnk _

theorem FrontKept.attemptBack {s t : State} (h : FrontKept s t) : FrontKept s (attemptBack t) := by
  unfold Machine.attemptBack
  split
  · exact h.setLnk _
  · exact h

namespace StillMuting

variable {s t : State}

/-- A slot that is cut leaves path B IDLE where it is not off (R394, R409). -/
theorem linkCut (h : StillMuting s t) (forced : Bool) : StillMuting s (linkCut t forced) := by
  have hrx : FrontKept t (rxEnd t 5) := (FrontKept.refl t).flds (rxEnd_only t 5).1.2 (by decide)
  unfold Machine.linkCut
  split
  · exact h
  · refine StillMuting.pathIdle (h.front (FrontKept.setLnk ?_ _)) .b
    split
    · exact hrx.attemptFails.ite hrx.attemptBack
    · exact hrx.attemptFails.ite hrx.attemptBack
    · exact hrx.attemptFails
    · exact hrx.attemptFails
    · exact hrx

end StillMuting

/-- An abort puts the path to IDLE after what ends the work on it (R151, R182, R184). -/
theorem pathAbort_idle (s : State) (p : RfPath) (reason : Nat) :
    ∃ t, StillMuting s t ∧ pathAbort s p reason = pathIdle t p := by
  have h := StillMuting.refl s
  have hround := (h.round ((RoundMove.refl s).roundsEnd p reason)).ite (c := reason = 9)
    (h.round ((RoundMove.refl s).roundEnd p reason))
  have hstop : ∀ who, StillMuting s (calStop s who) := fun _ => h.front ((FrontKept.refl s).same rfl)
  unfold pathAbort
  split
  · exact ⟨s, h, rfl⟩
  · split
    · exact ⟨_, h.linkCut true, rfl⟩
    · exact ⟨_, h.linkCut true, rfl⟩
    · exact ⟨_, hstop _, rfl⟩
    · exact ⟨_, hstop _, rfl⟩
    · exact ⟨_, hround, rfl⟩

/-- OVERPOWER mutes the carrier: the path is IDLE with its carrier off, and OVERPWR is set (R184, R202). -/
theorem overpower_mutes {s : State} {p : RfPath} (hc : fld s (fCarr p) = 1) (h0 : pathState s p ≠ 0) :
    flag (overpower s p) Fld.RAD_STAT_OVERPWR = true ∧ fld (overpower s p) (fCarr p) = 0 ∧ pathState (overpower s p) p = 1 := by
  have hset : ∃ u, overpower s p = pathAbort u p 9 ∧
      u.regs = (incSat (setFlag s Fld.RAD_STAT_OVERPWR) Fld.RAD_CNT1_OVERPWR 1).regs := by
    unfold overpower
    rw [if_neg (by simp [flag, hc])]
    dsimp only
    split
    · exact ⟨_, rfl, rfl⟩
    · exact ⟨_, rfl, rfl⟩
  obtain ⟨u, e, hregs⟩ := hset
  obtain ⟨t, ht, hidle⟩ := pathAbort_idle u p 9
  have hover : flag u Fld.RAD_STAT_OVERPWR = true := by
    rw [flag, fld_congr hregs]
    exact (flag_setFld_apart _ _ _ _ (by decide)).trans (flag_setFlag_self _ _ (by decide) (by decide))
  have hup : pathState u p ≠ 0 := by
    have hstate : pathState u p = pathState s p := by
      rw [pathState, fld_congr hregs, incSat, fld_setFld_ne _ _ _ _ (by cases p <;> decide), fld_setFlag,
        fld_setFld_ne _ _ _ _ (by cases p <;> decide), pathState]
    rwa [hstate]
  obtain ⟨hone, hcarr⟩ := pathIdle_idle (ht.1 p hup)
  rw [e, hidle]
  exact ⟨((StillMuting.refl t).pathIdle p).2.trans (ht.2.trans hover), hcarr, hone⟩

/-! ### The power loop (R198, R201) -/

/-- A signed number read back from its two's complement. -/
theorem signedOf_unsignedOf {v : Int} (h1 : -128 ≤ v) (h2 : v < 128) : signedOf 8 (unsignedOf 8 v) = v := by
  unfold signedOf unsignedOf
  omega

theorem signedOf_mod (v : Nat) : signedOf 8 (v % 256) = signedOf 8 v := by
  unfold signedOf
  omega

/-- The trim of a path takes a value of eight bits. -/
theorem signedOf_setTrim (s : State) (p : RfPath) {v : Int} (h1 : -128 ≤ v) (h2 : v < 128) :
    signedOf 8 (fld (setFld s (fTrim p) (unsignedOf 8 v)) (fTrim p)) = v := by
  rw [fld_setFld_self _ _ _ (by cases p <;> decide)]
  have hwidth : 2 ^ ((fTrim p).hi + 1 - (fTrim p).lo) = 256 := by cases p <;> rfl
  rw [hwidth, signedOf_mod, signedOf_unsignedOf h1 h2]

/-- The trim after a detector step (R201). -/
def trimStep (s : State) (p : RfPath) (reading : Nat) : Int :=
  signedOf 8 (fld s (fTrim p)) + (if reading < detTarget s p then 1 else if detTarget s p < reading then -1 else 0)

theorem trimStep_eq {s : State} {p : RfPath} {reading : Nat} (ht : (signedOf 8 (fld s (fTrim p))).natAbs < 32) :
    (if 32 ≤ (signedOf 8 (fld s (fTrim p))).natAbs then signedOf 8 (fld s (fTrim p))
      else if reading < detTarget s p then signedOf 8 (fld s (fTrim p)) + 1
      else if detTarget s p < reading then signedOf 8 (fld s (fTrim p)) - 1 else signedOf 8 (fld s (fTrim p))) =
    trimStep s p reading := by
  rw [if_neg (Nat.not_le.2 ht), trimStep]
  split
  · rfl
  · split
    · rfl
    · exact (Int.add_zero _).symm

/-- Within the loop's range the trim moves alone. -/
theorem detectorUpdate_of_inner {s : State} {p : RfPath} {reading : Nat} (hc : fld s (fCarr p) = 1)
    (ht : (signedOf 8 (fld s (fTrim p))).natAbs < 32) (hn : (trimStep s p reading).natAbs ≠ 32) :
    detectorUpdate s p reading = setFld s (fTrim p) (unsignedOf 8 (trimStep s p reading)) := by
  unfold detectorUpdate
  rw [if_neg (by simp [flag, hc])]
  dsimp only
  rw [trimStep_eq ht]
  exact if_neg fun h => hn h.1

/-- At the end of the range the loop stops with PWRERR, and the port's power entries fall due (R201, R564). -/
theorem detectorUpdate_of_end {s : State} {p : RfPath} {reading : Nat} (hc : fld s (fCarr p) = 1)
    (ht : (signedOf 8 (fld s (fTrim p))).natAbs < 32) (hn : (trimStep s p reading).natAbs = 32) :
    ∃ detail port, detectorUpdate s p reading = calTrigger (fault (setFlag (setFld s (fTrim p)
      (unsignedOf 8 (trimStep s p reading))) Fld.RAD_STAT_PWRERR) 0x05 0 0x07 detail) 2 port [] := by
  unfold detectorUpdate
  rw [if_neg (by simp [flag, hc])]
  dsimp only
  rw [trimStep_eq ht]
  exact ⟨_, _, if_pos ⟨hn, Nat.ne_of_lt ht⟩⟩

/-- One step of the detector inside its range. -/
theorem detectorUpdate_steps {s : State} {p : RfPath} {reading : BitVec 10} (hc : fld s (fCarr p) = 1)
    (ht : (signedOf 8 (fld s (fTrim p))).natAbs < 31) :
    ∃ t, exec (.detectorUpdate p reading) s = .next t ∧
      signedOf 8 (fld t (fTrim p)) = signedOf 8 (fld s (fTrim p)) +
        (if reading.toNat < detTarget s p then 1 else if detTarget s p < reading.toNat then -1 else 0) ∧
      OnlyFlds [fTrim p] s t := by
  have hrange : (trimStep s p reading.toNat).natAbs < 32 := by
    unfold trimStep
    split
    · omega
    · split <;> omega
  refine ⟨_, congrArg next (detectorUpdate_of_inner hc (by omega) (by omega)), ?_,
    (OnlyFlds.refl _ s).setFld List.mem_cons_self _⟩
  exact signedOf_setTrim s p (by omega) (by omega)

/-- The step from the last trim to the end of the range. -/
theorem detectorUpdate_stops {s : State} {p : RfPath} {reading : BitVec 10} (hc : fld s (fCarr p) = 1)
    (ht : signedOf 8 (fld s (fTrim p)) = 31) (hr : reading.toNat < detTarget s p) :
    ∃ t, exec (.detectorUpdate p reading) s = .next t ∧ signedOf 8 (fld t (fTrim p)) = 32 ∧
      flag t Fld.RAD_STAT_PWRERR = true ∧ t.mem = s.mem ∧ t.sched = s.sched := by
  have hstep : trimStep s p reading.toNat = 32 := by
    rw [trimStep, ht, if_pos hr]
    rfl
  obtain ⟨detail, port, e⟩ := detectorUpdate_of_end hc (by rw [ht]; decide) (by rw [hstep]; rfl)
  rw [hstep] at e
  generalize hu : setFlag (setFld s (fTrim p) (unsignedOf 8 32)) Fld.RAD_STAT_PWRERR = u at e
  have hfault := (OnlyReports.refl packetFlds u).fault (List.Subset.refl _) 0x05 0 0x07 detail
  have hdue := calTrigger_onlyPath p (fault u 0x05 0 0x07 detail) 2 port []
  have hsched : u.sched = s.sched := by rw [← hu]; rfl
  have hmem : u.mem = s.mem := by rw [← hu]; rfl
  refine ⟨_, congrArg next e, ?_, ?_, ?_, ?_⟩
  · rw [fld_congr (regs_calTrigger _ _ _ _), hfault.2.fld_eq (by unfold Field.apart; cases p <;> decide), ← hu, fld_setFlag,
      fld_setFld_ne _ _ _ _ (by cases p <;> decide)]
    exact signedOf_setTrim s p (by decide) (by decide)
  · rw [flag, fld_congr (regs_calTrigger _ _ _ _), hfault.2.fld_eq (by unfold Field.apart; decide), ← hu]
    exact flag_setFlag_self _ _ (by decide) (by decide)
  · rw [hdue.mem_eq, hfault.1, hmem]
  · rw [hdue.sched_eq, hfault.1, hsched]

/-! ### The suppression of a carrier (R216, R223) -/

/-- What a calibration that enters overdue writes (R565). -/
def overdueFlds : List Field := intBit 55 :: postFlds

theorem calPost_flds (s : State) : FldsKept overdueFlds s (calPost s) := by
  have hpost : ∀ {t : State} (r : Request), FldsKept overdueFlds s t → FldsKept overdueFlds s (postRequest t r).1 :=
    fun r ht => ht.trans ((postRequest_flds _ r).mono (List.subset_cons_self _ _))
  have hsched : ∀ {t : State} (x : Sched), FldsKept overdueFlds s t → FldsKept overdueFlds s { t with sched := x } :=
    fun _ ht => ht.regs rfl
  have hgap : ∀ {t : State} (path : Nat), FldsKept overdueFlds s t → FldsKept overdueFlds s (gapPost t path) := by
    intro t path ht
    unfold gapPost
    split
    · exact ht
    · exact FldsKept.ite (fun _ => hpost _ (hsched _ ht)) fun _ => ht
  unfold calPost
  refine FldsKept.ite (fun _ => ?_) fun _ => .refl _ s
  refine foldl_keeps (FldsKept overdueFlds s) _ (fun _ path ht => hgap path ht) _ _ ?_
  refine foldl_keeps (FldsKept overdueFlds s) _ (fun t x ht => ?_) _ s (.refl _ s)
  exact FldsKept.ite (fun _ => hpost _ ht) fun _ => ht

theorem regs_calMark (s : State) (item inst : Nat) (slots : List Nat) : (calMark s item inst slots).regs = s.regs := by
  unfold calMark
  dsimp only
  (repeat' split) <;> rfl

/-- Entering overdue raises an interrupt and posts requests (R565). -/
theorem calOverdue_flds (s : State) (item inst : Nat) : FldsKept overdueFlds s (calOverdue s item inst) := by
  have hmark : ∀ slots x, FldsKept overdueFlds s (setCalInst (calMark s item inst slots) x) := fun slots _ =>
    (FldsKept.refl _ s).regs (regs_calMark s item inst slots)
  have hwithdraw : ∀ {t : State}, FldsKept overdueFlds s t → FldsKept overdueFlds s (withdraw t (calWho item inst)) :=
    fun ht => ht.regs rfl
  unfold calOverdue
  dsimp only
  refine FldsKept.ite (fun _ => .refl _ s) fun _ => ?_
  exact (hwithdraw ((hmark _ _).raise List.mem_cons_self)).trans (calPost_flds _)

/-- A suppression figure of a chain takes a byte. -/
theorem fld_setSupp (s : State) (k : Nat) (p : RfPath) (sup : Byte) :
    fld (setFld s (fSupp k p) sup.toNat) (fSupp k p) = sup.toNat := by
  have hsup := sup.isLt
  cases p with
  | a => exact fld_setFld_of_lt s (f := Fld.RAD_RXC_STAT_SUPPA k) (by decide : 31 < 32) hsup
  | b => exact fld_setFld_of_lt s (f := Fld.RAD_RXC_STAT_SUPPB k) (by decide : 23 < 32) hsup

theorem fSupp_apart_overdue (k : Fin 4) (p : RfPath) : ∀ g ∈ overdueFlds ++ packetFlds, (fSupp k p).apart g := by
  unfold Field.apart
  revert k
  cases p <;> decide

theorem fSupp_ne_radStat (k : Fin 4) (p : RfPath) : (fSupp k p).addr ≠ Fld.RAD_STAT_CANCFAIL.addr := by
  revert k
  cases p <;> decide

section
variable {s : State} {k : Fin 4} {p : RfPath} {sup : Byte} (h5 : pathState s p = 5) (hc : fld s (fCarr p) = 1)
include h5 hc

/-- A suppression that does not fail is shown alone. -/
theorem cancelCheck_of_good (hs : 2 * fld s Fld.RAD_CANC_FAIL ≤ sup.toNat) :
    cancelCheck s k p sup.toNat = setFld s (fSupp k p) sup.toNat := by
  unfold cancelCheck
  rw [if_neg (by simp [h5, flag, hc])]
  exact if_neg (Nat.not_lt.2 hs)

/-- One below FAIL is shown, reported, and its vector overdue (R223, R565). -/
theorem cancelCheck_of_bad (hs : sup.toNat < 2 * fld s Fld.RAD_CANC_FAIL) :
    ∃ detail inst, cancelCheck s k p sup.toNat =
      calOverdue (fault (setFlag (setFld s (fSupp k p) sup.toNat) Fld.RAD_STAT_CANCFAIL) 0x05 0 0x08 detail) 3 inst := by
  unfold cancelCheck
  rw [if_neg (by simp [h5, flag, hc])]
  exact ⟨_, _, if_pos hs⟩

theorem cancelCheck_fails (hs : sup.toNat < 2 * fld s Fld.RAD_CANC_FAIL) :
    ∃ t, exec (.cancelCheck k p sup) s = .next t ∧ fld t (fSupp k p) = sup.toNat ∧
      flag t Fld.RAD_STAT_CANCFAIL = true ∧ t.mem = s.mem := by
  obtain ⟨detail, inst, e⟩ := cancelCheck_of_bad (k := k) h5 hc hs
  have hapart := fSupp_apart_overdue k p
  have hflag : ∀ g ∈ overdueFlds ++ packetFlds, Fld.RAD_STAT_CANCFAIL.apart g := by
    unfold Field.apart
    decide
  generalize hu : setFlag (setFld s (fSupp k p) sup.toNat) Fld.RAD_STAT_CANCFAIL = u at e
  have hkept : FldsKept (overdueFlds ++ packetFlds) u (cancelCheck s k p sup.toNat) := by
    rw [e]
    exact (((OnlyReports.refl packetFlds u).fault (List.Subset.refl _) 0x05 0 0x08 detail).2.mono
      (List.subset_append_right _ _)).trans ((calOverdue_flds _ 3 inst).mono (List.subset_append_left _ _))
  refine ⟨_, rfl, ?_, ?_, (cancelCheck_kept s k p sup.toNat).2.1⟩
  · refine (hkept.fld_eq hapart).trans ?_
    rw [← hu, fld_setFlag, fld_setFld_ne _ _ _ _ (fSupp_ne_radStat k p), fld_setSupp]
  · refine (hkept.flag_eq hflag).trans ?_
    rw [← hu]
    exact flag_setFlag_self _ _ (by decide) (by decide)

end

/-! ### The receive chains (R205, R208, R209) -/

theorem chrate_ne_rate (k : Fin 4) : Fld.RAD_STATE_CHRATE.addr ≠ (Fld.RAD_RXC_STAT_RATE k).addr := by
  revert k
  decide

theorem chrate_cleared : ∀ m < 16, ∀ k < 4, (if m.testBit k then m - 2 ^ k else m) < 16 ∧
    (if m.testBit k then m - 2 ^ k else m).testBit k = false := by decide

/-- A chain has switched its rate (R205). -/
theorem rateDone_acts {s : State} {k : Fin 4} (hk : k.val ∈ s.radio.switching) :
    ∃ t, exec (.rateSwitchDone k) s = .next t ∧ t.radio.switching = s.radio.switching.filter (fun j => j != k.val) ∧
      (fld t Fld.RAD_STATE_CHRATE).testBit k = false ∧ fld t (Fld.RAD_RXC_STAT_RATE k) = 0 ∧
      t.radio = { s.radio with switching := t.radio.switching } ∧
      FldsKept [Fld.RAD_STATE_CHRATE, Fld.RAD_RXC_STAT_RATE k] s t ∧
      t = { s with regs := t.regs, fresh := t.fresh, radio := t.radio } := by
  obtain ⟨hlt, hbit⟩ := chrate_cleared _ (fld_lt s Fld.RAD_STATE_CHRATE) k k.isLt
  generalize hv : (if (fld s Fld.RAD_STATE_CHRATE).testBit k then fld s Fld.RAD_STATE_CHRATE - 2 ^ k.val
    else fld s Fld.RAD_STATE_CHRATE) = v at hlt hbit
  have hrate : ∀ {u : State}, fld (clrFld u (Fld.RAD_RXC_STAT_RATE k)) Fld.RAD_STATE_CHRATE = fld u Fld.RAD_STATE_CHRATE :=
    fld_setFld_ne _ _ _ _ (chrate_ne_rate k)
  have e : rateDone s k = clrFld { setFld s Fld.RAD_STATE_CHRATE v with
      radio := { s.radio with switching := s.radio.switching.filter fun j => j != k.val } } (Fld.RAD_RXC_STAT_RATE k) := by
    unfold rateDone
    rw [if_pos (by simpa using hk)]
    dsimp only
    rw [hv]
    rfl
  refine ⟨_, congrArg next e, rfl, ?_, fld_clrFld_self _ _ (by simp [Fld.RAD_RXC_STAT_RATE]), rfl, ?_, rfl⟩
  · exact (congrArg (fun m => m.testBit k.val) (hrate.trans
      (fld_setFld_of_lt s (f := Fld.RAD_STATE_CHRATE) (by decide) hlt))).trans hbit
  · exact (((FldsKept.refl _ s).setFld List.mem_cons_self v).regs rfl).setFld (List.mem_cons_of_mem _ List.mem_cons_self) 0

/-- The gain of a chain takes a step of three bits. -/
theorem fld_setLna (s : State) (k : Nat) {n : Nat} (hn : n < 8) :
    fld (setFld s (Fld.RAD_RXC_STAT_LNA k) n) (Fld.RAD_RXC_STAT_LNA k) = n :=
  fld_setFld_of_lt s (by decide : 2 < 32) hn

theorem lna_lt (s : State) (k : Nat) : fld s (Fld.RAD_RXC_STAT_LNA k) < 8 := fld_lt s _

/-- The step that a measurement asks for (R208). -/
def agcNext (s : State) (k peak : Nat) : Nat :=
  if peak < fld s Fld.RAD_AGC_THI then fld s (Fld.RAD_RXC_STAT_LNA k) - 1
  else if fld s Fld.RAD_AGC_THI + 12 < peak ∧ fld s (Fld.RAD_RXC_STAT_LNA k) < fld s Fld.RAD_AGC_LNAMAX then
    fld s (Fld.RAD_RXC_STAT_LNA k) + 1
  else fld s (Fld.RAD_RXC_STAT_LNA k)

theorem agcNext_lt (s : State) (k peak : Nat) : agcNext s k peak < 8 := by
  have hlna := lna_lt s k
  have hmax : fld s Fld.RAD_AGC_LNAMAX < 8 := fld_lt s _
  unfold agcNext
  split
  · omega
  · split <;> omega

section
variable {s : State} {k : Fin 4} {peak : Byte}

/-- A measurement that counts sets the step it asks for, or changes nothing where that is the step in hand (R208). -/
theorem agcStep_of_measured (hsw : s.radio.switching.contains k.val = false) (hin : chainIn s k 3 = true)
    (hf : fld s (Fld.RAD_RXC_STAT_FROZEN k) = 0) (hd : s.radio.dwellUntil[k.val]?.getD 0 ≤ s.clk.now) :
    agcStep s k peak.toNat = s ∧ agcNext s k peak.toNat = fld s (Fld.RAD_RXC_STAT_LNA k) ∨
      ∃ r, agcStep s k peak.toNat = setFld { s with radio := r } (Fld.RAD_RXC_STAT_LNA k) (agcNext s k peak.toNat) ∧
        agcNext s k peak.toNat ≠ fld s (Fld.RAD_RXC_STAT_LNA k) := by
  have hgo : ¬(!chainIn s k 3 || s.radio.switching.contains k.val || flag s (Fld.RAD_RXC_STAT_FROZEN k) ||
      decide (s.clk.now < s.radio.dwellUntil[k.val]?.getD 0)) = true := by
    rw [hin, hsw, flag, hf, decide_eq_false (Nat.not_lt.2 hd)]
    decide
  have e : agcStep s k peak.toNat = if agcNext s k peak.toNat = fld s (Fld.RAD_RXC_STAT_LNA k) then s
      else setFld { s with radio := { s.radio with
        dwellUntil := s.radio.dwellUntil.setIfInBounds k (s.clk.now + us (fld s Fld.RAD_AGC_DWELL)) } }
          (Fld.RAD_RXC_STAT_LNA k) (agcNext s k peak.toNat) := if_neg hgo
  by_cases h : agcNext s k peak.toNat = fld s (Fld.RAD_RXC_STAT_LNA k)
  · exact .inl ⟨by rw [e, if_pos h], h⟩
  · exact .inr ⟨_, by rw [e, if_neg h], h⟩

/-- One gain measurement (R208). -/
theorem agcStep_acts (hsw : s.radio.switching.contains k.val = false) (hin : chainIn s k 3 = true)
    (hf : fld s (Fld.RAD_RXC_STAT_FROZEN k) = 0) (hd : s.radio.dwellUntil[k.val]?.getD 0 ≤ s.clk.now) :
    ∃ t, exec (.agcStep k peak) s = .next t ∧
      (peak.toNat < fld s Fld.RAD_AGC_THI → fld t (Fld.RAD_RXC_STAT_LNA k) = fld s (Fld.RAD_RXC_STAT_LNA k) - 1) ∧
      (fld s Fld.RAD_AGC_THI ≤ peak.toNat → peak.toNat ≤ fld s Fld.RAD_AGC_THI + 12 → t = s) ∧
      (fld s Fld.RAD_AGC_THI + 12 < peak.toNat → fld s (Fld.RAD_RXC_STAT_LNA k) < fld s Fld.RAD_AGC_LNAMAX →
        fld t (Fld.RAD_RXC_STAT_LNA k) = fld s (Fld.RAD_RXC_STAT_LNA k) + 1) ∧
      FldsKept [Fld.RAD_RXC_STAT_LNA k] s t ∧ t = { s with regs := t.regs, fresh := t.fresh, radio := t.radio } := by
  have hfld : fld (agcStep s k peak.toNat) (Fld.RAD_RXC_STAT_LNA k) = agcNext s k peak.toNat := by
    rcases agcStep_of_measured (peak := peak) hsw hin hf hd with ⟨e, h⟩ | ⟨r, e, -⟩
    · rw [e, h]
    · rw [e, fld_setLna _ _ (agcNext_lt s k peak.toNat)]
  refine ⟨_, rfl, fun hlow => ?_, fun hlow hhigh => ?_, fun hhigh hmax => ?_, ?_⟩
  · rw [hfld, agcNext, if_pos hlow]
  · rcases agcStep_of_measured (peak := peak) hsw hin hf hd with ⟨e, -⟩ | ⟨r, -, h⟩
    · exact e
    · refine absurd ?_ h
      rw [agcNext, if_neg (Nat.not_lt.2 hlow), if_neg fun hc => absurd hc.1 (Nat.not_lt.2 hhigh)]
  · rw [hfld, agcNext, if_neg (by omega), if_pos ⟨hhigh, hmax⟩]
  · rcases agcStep_of_measured (peak := peak) hsw hin hf hd with ⟨e, -⟩ | ⟨r, e, -⟩ <;> rw [e]
    · exact ⟨.refl _ s, rfl⟩
    · exact ⟨FldsKept.setFld (FldsKept.regs (.refl _ s) rfl) List.mem_cons_self _, rfl⟩

end

/-- A chain that switches its rate measures nothing (R205). -/
theorem agcStep_of_switching {s : State} {k : Fin 4} (h : s.radio.switching.contains k.val = true) (peak : Byte) :
    agcStep s k peak.toNat = s := if_pos (by rw [h]; simp)

/-- Clipping takes the gain one step down (R209). -/
theorem clipDown_acts {s : State} {k : Fin 4} (h : chainIn s k 5 = true) :
    ∃ t, exec (.clipStepDown k) s = .next t ∧ fld t (Fld.RAD_RXC_STAT_LNA k) = fld s (Fld.RAD_RXC_STAT_LNA k) - 1 ∧
      OnlyFlds [Fld.RAD_RXC_STAT_LNA k] s t := by
  have hlna := lna_lt s k
  exact ⟨_, congrArg next (if_pos h), fld_setLna s k (by omega), (OnlyFlds.refl _ s).setFld List.mem_cons_self _⟩

/-! ### Refinement (R209, R213) -/

/-- A chain new in READ takes its gain (R209). -/
def gainTaken (t : State) (k : Nat) : State :=
  if t.radio.gainHeld.contains k then t
  else setFld { t with radio := { t.radio with gainHeld := t.radio.gainHeld ++ [k] } } (Fld.RAD_RXC_STAT_LNA k) (readStep t k)

/-- What a refinement may write of the chains. -/
def gainFlds : List Field := (List.range 4).map Fld.RAD_RXC_STAT_LNA

theorem gainTaken_only {s t : State} {k : Nat} (hk : k < 4) (h : OnlyRadio gainFlds s t) : OnlyRadio gainFlds s (gainTaken t k) := by
  have hradio : ∀ r, OnlyRadio gainFlds s { t with radio := r } := fun _ => ⟨by rw [h.1], h.2.regs rfl⟩
  unfold gainTaken
  split
  · exact h
  · exact (hradio _).setFld (List.mem_map_of_mem (List.mem_range.2 hk)) _

theorem pathSt_gainTaken (t : State) (k : Nat) (p : RfPath) : pathSt (gainTaken t k) p = pathSt t p := by
  unfold gainTaken
  split
  · rfl
  · cases p <;> rfl

theorem gainsTaken_only (L : List Nat) (hL : ∀ k ∈ L, k < 4) {s t : State} (h : OnlyRadio gainFlds s t) :
    OnlyRadio gainFlds s (L.foldl gainTaken t) := by
  induction L generalizing t with
  | nil => exact h
  | cons k L ih => exact ih (fun j hj => hL j (List.mem_cons_of_mem k hj)) (gainTaken_only (hL k List.mem_cons_self) h)

theorem pathSt_gainsTaken (L : List Nat) (t : State) (p : RfPath) : pathSt (L.foldl gainTaken t) p = pathSt t p := by
  induction L generalizing t with
  | nil => rfl
  | cons k L ih => rw [List.foldl_cons, ih, pathSt_gainTaken]

/-- The path once the refinement of one chain is over. -/
def refinedOne (s : State) (p : RfPath) (c : ChainResidual) : State :=
  setPathSt (refineOne s p c) p { pathSt (refineOne s p c) p with refined := true }

theorem refinementEnd_one {s : State} {p : RfPath} (h5 : pathState s p = 5) (hc : fld s (fCarr p) = 1) (c : ChainResidual) :
    refinementEnd s p [c] = if !allRefined (refinedOne s p c) then refinedOne s p c
      else (bitList 4 (readChains (refinedOne s p c))).foldl gainTaken (refinedOne s p c) := by
  unfold refinementEnd
  rw [if_neg (by simp [h5, flag, hc])]
  rfl

/-- What the measurement of one chain makes of the path (R213). -/
theorem pathSt_refinedOne (s : State) (p : RfPath) (c : ChainResidual) :
    (pathSt (refinedOne s p c) p).vectors = (if c.residual < fld s Fld.RAD_CANC_REFINE then
      (pathSt s p).vectors.setIfInBounds c.chain (c.i, c.q) else (pathSt s p).vectors) ∧
    (pathSt (refinedOne s p c) p).resid = (pathSt s p).resid.setIfInBounds c.chain
      (if c.residual < fld s Fld.RAD_CANC_REFINE then c.after else c.residual) := by
  unfold refinedOne refineOne
  simp only [pathSt_setPathSt_self]
  constructor
  · simp
  · simp

theorem refinementEnd_acts {s : State} {p : RfPath} (h5 : pathState s p = 5) (hc : fld s (fCarr p) = 1) (c : ChainResidual) :
    ∃ t, exec (.refinementEnd p [c]) s = .next t ∧
      (pathSt t p).resid[c.chain.val]? = some (if c.residual < fld s Fld.RAD_CANC_REFINE then c.after else c.residual) ∧
      (c.residual < fld s Fld.RAD_CANC_REFINE → (pathSt t p).vectors[c.chain.val]? = some (c.i, c.q)) ∧
      (fld s Fld.RAD_CANC_REFINE ≤ c.residual → (pathSt t p).vectors = (pathSt s p).vectors) ∧
      FldsKept ((List.range 4).map Fld.RAD_RXC_STAT_LNA) s t ∧ t = { s with regs := t.regs, fresh := t.fresh, radio := t.radio } := by
  have hone : OnlyRadio gainFlds s (refinedOne s p c) := ((OnlyRadio.refl _ s).setPathSt p _).setPathSt p _
  have hall := gainsTaken_only (bitList 4 (readChains (refinedOne s p c))) (fun _ hk => lt_of_mem_bitList hk) hone
  have hend : OnlyRadio gainFlds s (refinementEnd s p [c]) ∧
      pathSt (refinementEnd s p [c]) p = pathSt (refinedOne s p c) p := by
    rw [refinementEnd_one h5 hc]
    split
    · exact ⟨hone, rfl⟩
    · exact ⟨hall, pathSt_gainsTaken _ _ _⟩
  obtain ⟨⟨hstate, hkept⟩, hpath⟩ := hend
  obtain ⟨hvec, hres⟩ := pathSt_refinedOne s p c
  refine ⟨_, rfl, ?_, fun h => ?_, fun h => ?_, hkept, hstate⟩
  · rw [hpath, hres, Vector.getElem?_setIfInBounds_self_of_lt c.chain.isLt]
  · rw [hpath, hvec, if_pos h, Vector.getElem?_setIfInBounds_self_of_lt c.chain.isLt]
  · rw [hpath, hvec, if_neg (Nat.not_lt.2 h)]

/-! ### The commands -/

/-- The external PA of a port without a carrier goes off (R203). -/
theorem paDisable_of_quiet {s : State} {k : Fin 2}
    (h : portCarries s (fld s (if k.val = 0 then Fld.RAD_PA_PA0PORT else Fld.RAD_PA_PA1PORT)) = false) :
    paDisable s k = paLower s k := by
  refine if_neg fun hc => ?_
  rw [← apply_ite (fld s), h] at hc
  exact Bool.false_ne_true hc.2

theorem overpower_acts {s : State} {p : RfPath} (hc : fld s (fCarr p) = 1) (h0 : pathState s p ≠ 0) :
    ∃ t, exec (.overpower p) s = .next t ∧ flag t Fld.RAD_STAT_OVERPWR = true ∧ fld t (fCarr p) = 0 ∧ pathState t p = 1 ∧
      t.mem = s.mem := by
  obtain ⟨hover, hcarr, hpath⟩ := overpower_mutes hc h0
  obtain ⟨hstate, hstat⟩ := row_front s fun t => overpower t p
  have hmem : (row s fun t => overpower t p).mem = s.mem := row_kept_mem s _ fun t => (overpower_kept t p).2.1
  refine ⟨row s fun t => overpower t p, rfl, ?_, ?_, ?_, hmem⟩
  · rw [flag, fld_of_reg_eq hstat]
    exact hover
  · refine (fld_of_reg_eq ?_).trans hcarr
    cases p <;> exact hstate
  · refine (fld_of_reg_eq ?_).trans hpath
    cases p <;> exact hstate

/-- Settles O20: each loop by the branch of its clause; what stands at a boundary after a muted carrier leaves the front end as it is. -/
theorem powerAndReceiveLoopsAct : Obligations.PowerAndReceiveLoopsAct := by
  unfold Obligations.PowerAndReceiveLoopsAct
  refine ⟨fun s p => ⟨?_, ?_, ?_, ?_, ?_, ?_⟩, fun s k p => ⟨?_, ?_, ?_, ?_, ?_⟩⟩
  · intro reading hc ht
    exact detectorUpdate_steps hc ht
  · intro reading hc ht hr
    exact detectorUpdate_stops hc ht hr
  · intro hc h0
    exact overpower_acts hc h0
  · intro k h
    exact congrArg next (paDisable_of_quiet h)
  · intro k sup h5 hc hs
    exact ⟨_, congrArg next (cancelCheck_of_good h5 hc hs), fld_setSupp s k p sup,
      (OnlyFlds.refl _ s).setFld List.mem_cons_self _⟩
  · intro k sup h5 hc hs
    exact cancelCheck_fails h5 hc hs
  · intro hk
    exact rateDone_acts hk
  · intro peak h
    exact congrArg next (agcStep_of_switching h peak)
  · intro peak hsw hin hf hd
    exact agcStep_acts hsw hin hf hd
  · intro h
    exact clipDown_acts h
  · intro c h5 hc
    exact refinementEnd_acts h5 hc c

end Sys2Proof.Machine

/-! Slots and EPC replies (R210, R254, R262–R269): the limits of what may start, the levels of replies, the reads they make. -/

namespace Sys2Proof.Machine

/-! ### Lists of fields that cover each other -/

/-- Fields of registers that are listed as a whole need not be listed themselves. -/
theorem FldsKept.cover {l m : List Field} {s t : State} (h : FldsKept l s t)
    (hl : ∀ g ∈ l, g ∈ m ∨ whole g.addr ∈ m ∧ g.hi < 32) : FldsKept m s t := fun f hf => h f fun g hg => by
  rcases hl g hg with hm | ⟨hm, hhi⟩
  · exact hf g hm
  · rcases hf _ hm with ha | hlo | hlo
    · exact .inl ha
    · exact absurd hlo (Nat.not_lt_zero _)
    · exact .inr (.inr (Nat.lt_of_lt_of_le hhi hlo))

/-! ### What limits a slot, a step and a reply (R262–R264) -/

/-- The two machines are at one time, with the same grants and accounts, and the same profile in force. -/
structure SameLimits (s t : State) : Prop where
  clk : t.clk = s.clk
  sched : t.sched = s.sched
  accounts : t.brm.accounts = s.brm.accounts
  binAt : t.brm.binAt = s.brm.binAt
  prof : ∀ f ∈ [Fld.BRM_PROF_SEL, Fld.BRM_CUST0_MAXON, Fld.BRM_CUST0_OFF, Fld.BRM_CUST1_WINDOW, Fld.BRM_CUST1_OCCMAX],
    fld t f = fld s f

namespace SameLimits

variable {s t : State}

theorem profile_eq (h : SameLimits s t) : profile t = profile s := h.prof _ (by decide)

theorem account_eq (h : SameLimits s t) (c : Nat) : account t c = account s c := by rw [account, h.accounts, account]

theorem offTime_eq (h : SameLimits s t) : offTime t = offTime s := by
  unfold offTime
  rw [h.profile_eq, h.prof Fld.BRM_CUST0_OFF (by decide)]

theorem maxOn_eq (h : SameLimits s t) : maxOn t = maxOn s := by
  unfold maxOn
  rw [h.profile_eq, h.prof Fld.BRM_CUST0_MAXON (by decide)]

theorem occMax_eq (h : SameLimits s t) : occMax t = occMax s := by
  unfold occMax
  rw [h.profile_eq, h.prof Fld.BRM_CUST1_WINDOW (by decide), h.prof Fld.BRM_CUST1_OCCMAX (by decide)]

theorem occDeadline_eq (h : SameLimits s t) (a : Account) (o : Nat) : occDeadline t a o = occDeadline s a o := by
  unfold occDeadline occWindow
  rw [h.profile_eq, h.prof Fld.BRM_CUST1_WINDOW (by decide), h.clk, h.binAt]

theorem linkLeft_eq (h : SameLimits s t) (c r : Nat) : linkLeft t c r = linkLeft s c r := by
  unfold linkLeft
  rw [h.sched, h.clk]

theorem regLeft_eq (h : SameLimits s t) (c : Nat) : regLeft t c = regLeft s c := by
  unfold regLeft
  simp only [h.account_eq, h.offTime_eq, h.maxOn_eq, h.occMax_eq, h.occDeadline_eq, h.linkLeft_eq, h.clk]

theorem nearestOf_eq (h : SameLimits s t) (l : Nat) (r : Round) : nearestOf t l r = nearestOf s l r := by
  simp only [nearestOf, h.clk, h.regLeft_eq]

theorem pathGrant_eq (h : SameLimits s t) (p : RfPath) : pathGrant t p = pathGrant s p := by rw [pathGrant, h.sched, pathGrant]

theorem leaseLimit_eq (h : SameLimits s t) (p : RfPath) : leaseLimit t p = leaseLimit s p := by
  unfold leaseLimit
  rw [h.pathGrant_eq, h.clk]

theorem replyLimit_eq (h : SameLimits s t) (p : RfPath) : replyLimit t p = replyLimit s p := by
  unfold replyLimit
  rw [h.pathGrant_eq, h.clk]

/-- What keeps work from starting is the same. -/
theorem blocked_eq (h : SameLimits s t) (p : RfPath) (r : Round) (cycles : Nat) : blocked t p r cycles = blocked s p r cycles := by
  unfold blocked nearest
  rw [h.leaseLimit_eq, h.nearestOf_eq, h.clk]

/-- A reply has run late or not alike. -/
theorem replyLate_eq (h : SameLimits s t) (p : RfPath) (r : Round) : replyLate t p r = replyLate s p r := by
  unfold replyLate
  rw [h.replyLimit_eq, h.nearestOf_eq, h.clk]

theorem refl (s : State) : SameLimits s s := ⟨rfl, rfl, rfl, rfl, fun _ _ => rfl⟩

theorem setRound (h : SameLimits s t) (p : RfPath) (r : Option Round) : SameLimits s (setRound t p r) := by
  obtain ⟨hclk, hsched, haccounts, hbin, hprof⟩ := h
  cases p
  · exact ⟨hclk, hsched, haccounts, hbin, hprof⟩
  · exact ⟨hclk, hsched, haccounts, hbin, hprof⟩

theorem quiet (h : SameLimits s t) : SameLimits s (brmQuiet t) := ⟨h.clk, h.sched, h.accounts, h.binAt, h.prof⟩

/-- Registers that are none of the profile's. -/
theorem setFld (h : SameLimits s t) {f : Field}
    (hf : f.addr ≠ Adr.BRM_PROF ∧ f.addr ≠ Adr.BRM_CUST0 ∧ f.addr ≠ Adr.BRM_CUST1) (v : Nat) : SameLimits s (setFld t f v) := by
  obtain ⟨hclk, hsched, haccounts, hbin, hprof⟩ := h
  refine ⟨hclk, hsched, haccounts, hbin, fun g hg => ?_⟩
  have hne : g.addr ≠ f.addr := by
    simp only [List.mem_cons, List.not_mem_nil, or_false] at hg
    rcases hg with rfl | rfl | rfl | rfl | rfl
    · exact hf.1.symm
    · exact hf.2.1.symm
    · exact hf.2.1.symm
    · exact hf.2.2.symm
    · exact hf.2.2.symm
  rw [fld_setFld_ne _ _ _ _ hne, hprof g hg]

end SameLimits

/-! ### The levels that the chains report (R210) -/

/-- Levels shown on some chains, one after another. -/
def levelsShown (levels : List Byte) (s : State) (L : List Nat) : State :=
  L.foldl (fun t k => reportLevel t k (levels.getD k 255).toNat) s

theorem levelsShown_cons (levels : List Byte) (s : State) (k : Nat) (L : List Nat) :
    levelsShown levels s (k :: L) = levelsShown levels (reportLevel s k (levels.getD k 255).toNat) L := rfl

theorem levelsShown_state (levels : List Byte) (L : List Nat) (s : State) :
    levelsShown levels s L = { s with regs := (levelsShown levels s L).regs } := by
  induction L generalizing s with
  | nil => rfl
  | cons k L ih => rw [levelsShown_cons, ih]; rfl

theorem levelsShown_flds (levels : List Byte) {L : List Nat} (hL : ∀ k ∈ L, k < 4) (s : State) :
    FldsKept rssiFlds s (levelsShown levels s L) := by
  induction L generalizing s with
  | nil => exact .refl _ s
  | cons k L ih =>
    obtain ⟨hk, hrest⟩ := List.forall_mem_cons.mp hL
    exact ((FldsKept.refl _ s).setFld (List.mem_map_of_mem (List.mem_range.2 hk)) _).trans (ih hrest _)

theorem levelsShown_quiet (levels : List Byte) (L : List Nat) (s : State) :
    levelsShown levels (brmQuiet s) L = brmQuiet (levelsShown levels s L) := by
  induction L generalizing s with
  | nil => rfl
  | cons k L ih => exact ih (reportLevel s k (levels.getD k 255).toNat)

theorem rssi_apart {k j : Nat} (h : j ≠ k) : (Fld.RAD_RXC_STAT_RSSI j).addr ≠ (Fld.RAD_RXC_STAT_RSSI k).addr := by
  simp only [Fld.RAD_RXC_STAT_RSSI, Adr.RAD_RXC_STAT]
  omega

/-- A chain shows the level of its own. -/
theorem rssi_levelsShown (levels : List Byte) (L : List Nat) (s : State) (k : Nat) :
    fld (levelsShown levels s L) (Fld.RAD_RXC_STAT_RSSI k) =
      if k ∈ L then (levels.getD k 255).toNat else fld s (Fld.RAD_RXC_STAT_RSSI k) := by
  induction L generalizing s with
  | nil => rfl
  | cons j L ih =>
    rw [levelsShown_cons, ih]
    by_cases hL : k ∈ L
    · rw [if_pos hL, if_pos (List.mem_cons_of_mem j hL)]
    · rw [if_neg hL]
      by_cases e : k = j
      · subst e
        rw [if_pos List.mem_cons_self]
        exact fld_setFld_of_lt s (by decide : 15 < 32) (levels.getD k 255).isLt
      · rw [if_neg (by simp [e, hL])]
        exact fld_setFld_ne _ _ _ _ (rssi_apart e)

theorem reportLevels_eq (s : State) (chains : Nat) (levels : List Byte) :
    reportLevels s chains levels = levelsShown levels s (bitList 4 chains) := rfl

theorem reportLevels_state (s : State) (chains : Nat) (levels : List Byte) :
    reportLevels s chains levels = { s with regs := (reportLevels s chains levels).regs } :=
  levelsShown_state levels (bitList 4 chains) s

theorem reportLevels_flds (s : State) (chains : Nat) (levels : List Byte) :
    FldsKept rssiFlds s (reportLevels s chains levels) := levelsShown_flds levels (fun _ hk => lt_of_mem_bitList hk) s

theorem reportLevels_quiet (s : State) (chains : Nat) (levels : List Byte) :
    reportLevels (brmQuiet s) chains levels = brmQuiet (reportLevels s chains levels) := levelsShown_quiet _ _ s

theorem rssi_reportLevels (s : State) {chains : Nat} (levels : List Byte) {k : Fin 4} (hk : chains.testBit k = true) :
    fld (reportLevels s chains levels) (Fld.RAD_RXC_STAT_RSSI k) = (levels.getD k 255).toNat := by
  have hmem : k.val ∈ bitList 4 chains := List.mem_filter.2 ⟨List.mem_range.2 k.isLt, hk⟩
  rw [reportLevels_eq, rssi_levelsShown, if_pos hmem]

/-- Fields below the receive chains' registers or above them. -/
theorem fld_reportLevels (s : State) (chains : Nat) (levels : List Byte) {f : Field} (hf : f.addr < 0xB20 ∨ 0xC00 ≤ f.addr) :
    fld (reportLevels s chains levels) f = fld s f := by
  have hl : ∀ g ∈ rssiFlds, 0xB20 ≤ g.addr ∧ g.addr < 0xC00 := by decide
  refine (reportLevels_flds s chains levels).fld_eq fun g hg => .inl ?_
  have h := hl g hg
  omega

theorem SameLimits.reportLevels (s : State) (chains : Nat) (levels : List Byte) :
    SameLimits s (reportLevels s chains levels) := by
  have hs := reportLevels_state s chains levels
  refine ⟨by rw [hs], by rw [hs], by rw [hs], by rw [hs], fun f hf => fld_reportLevels s chains levels (.inr ?_)⟩
  revert f
  decide

/-- The level of a lone reply is the strongest. -/
theorem strongest_one (x : Rn16Reply) (k : Fin 4) : (strongest [x]).getD k 255 = x.levels.getD k 255 := by
  have hmin : ∀ b : Byte, (if b < 255 then b else 255) = b := fun b => by
    split
    · rfl
    · bv_omega
  unfold strongest
  rw [List.getD_eq_getElem?_getD, List.getElem?_map, List.getElem?_range k.isLt]
  exact hmin _

end Sys2Proof.Machine

/-! The slots of a round (R265–R268): what goes on the air next, and how the Q algorithm moves. -/

namespace Sys2Proof.Machine

/-! ### Rounds of the paths -/

@[simp] theorem roundOf_setRound_self (s : State) (p : RfPath) (r : Option Round) : roundOf (setRound s p r) p = r := by
  cases p <;> rfl

@[simp] theorem roundOf_setRound_other (s : State) (p : RfPath) (r : Option Round) :
    roundOf (setRound s p r) (otherPath p) = roundOf s (otherPath p) := by
  cases p <;> rfl

@[simp] theorem roundOf_brmSend (s : State) (p q : RfPath) (c : AirCmd) : roundOf (brmSend s p c) q = roundOf s q := by
  cases q <;> rfl

@[simp] theorem roundOf_brmQuiet (s : State) (q : RfPath) : roundOf (brmQuiet s) q = roundOf s q := by
  cases q <;> rfl

/-- A round changes with the reader's state alone. -/
theorem setRound_brm (s : State) (p : RfPath) (r : Option Round) :
    setRound s p r = { s with brm := (setRound s p r).brm } := by
  cases p <;> rfl

theorem sent_setRound (s : State) (p : RfPath) (r : Option Round) : (setRound s p r).brm.sent = s.brm.sent := by
  cases p <;> rfl

/-- The path's round goes on with one command on the air, and the other path's as it was. -/
structure SlotGoes (p : RfPath) (s t : State) (r : Round) (c : AirCmd) : Prop where
  state : t = { s with brm := t.brm }
  round : roundOf t p = some r
  sent : t.brm.sent = s.brm.sent ++ [(p, c)]
  other : roundOf t (otherPath p) = roundOf s (otherPath p)

theorem slotGoes_send (p : RfPath) (s : State) (r : Round) (c : AirCmd) :
    SlotGoes p s (brmSend (setRound s p (some r)) p c) r c :=
  ⟨by rw [brmSend, setRound_brm], by simp, by rw [brmSend, sent_setRound], by simp⟩

/-- An ACK goes out (R266): the round goes on. -/
theorem slotGoes_ack (s : State) (p : RfPath) (r : Round) (rn : BitVec 16) (c : Bool) (n : Nat) :
    SlotGoes p s (sendAck s p r rn c n) { r with phase := .acked rn c n } (.ack rn) := slotGoes_send p s _ _

/-- A round that goes on brings no boundary (R38). -/
theorem row_of_slotGoes {s u : State} {run : State → State} {p : RfPath} {r r0 : Round} {c : AirCmd} (h : SlotGoes p u (run s) r c)
    (hr : roundOf s p = some r0) (hu : roundOf u (otherPath p) = roundOf s (otherPath p)) (hd : u.hf = s.hf)
    (hl : u.lnk = s.lnk) : row s run = run s := by
  have hhf : (run s).hf = s.hf := by rw [h.state, hd]
  have hlnk : (run s).lnk = s.lnk := by rw [h.state, hl]
  have hother := h.other.trans hu
  have hround := h.round
  have hw : workEnded s (run s) = false := by
    unfold workEnded
    rw [hhf, hlnk]
    cases p
    · simp only [roundOf, otherPath] at hr hround hother
      simp [hround, hother]
    · simp only [roundOf, otherPath] at hr hround hother
      simp [hround, hother]
  exact if_neg (by rw [hw]; exact Bool.false_ne_true)

/-! ### The next slot (R262, R265) -/

theorem nextSlot_of_free {s : State} {p : RfPath} {r : Round} {e : Entry}
    (h : blocked s p r (slotWorst e (nextTime e (qStep r).2)) = none) :
    nextSlot s p r e = brmSend (setRound s p (some { (qStep r).1 with phase := .slot, slots := r.slots + 1 })) p
      (nextAir (qStep r).2) := by
  unfold nextSlot
  dsimp only
  rw [h]

/-- A move of the round before it goes on is part of going on. -/
theorem SlotGoes.of_setRound {p : RfPath} {s t : State} {x : Option Round} {r : Round} {c : AirCmd}
    (h : SlotGoes p (setRound s p x) t r c) : SlotGoes p s t r c := by
  obtain ⟨hstate, hround, hsent, hother⟩ := h
  refine ⟨?_, hround, by rw [hsent, sent_setRound], by rw [hother, roundOf_setRound_other]⟩
  rw [setRound_brm] at hstate
  exact hstate

/-- The slot ends without a hop due and without the empty rule: the next command goes out where its slot may start. -/
theorem slotEnd_goes {s : State} {p : RfPath} {r0 : Round} (hr : roundOf s p = some r0) {o : SlotOutcome} {s1 : State} {d : Round}
    (hc : countSlot s (roundEntry s r0) r0 o = (s1, d)) (ho : ¬(o = .empty ∧ d.empties = fld s Fld.BRM_Q_ENDEMPTY))
    (hhop : d.hopDue = false)
    (hb : blocked s1 p d (slotWorst (roundEntry s r0) (nextTime (roundEntry s r0) (qStep d).2)) = none) :
    SlotGoes p s1 (slotEnd s p o) { (qStep d).1 with phase := .slot, slots := d.slots + 1 } (nextAir (qStep d).2) := by
  have hset : SameLimits s1 (setRound s1 p (some { d with phase := .slot })) := (SameLimits.refl s1).setRound p _
  have e : slotEnd s p o = nextSlot (setRound s1 p (some { d with phase := .slot })) p d (roundEntry s r0) := by
    unfold slotEnd
    rw [hr]
    dsimp only
    rw [hc]
    dsimp only
    rw [if_neg ho, if_neg (by simp [hhop])]
  rw [e, nextSlot_of_free ((hset.blocked_eq p d _).trans hb)]
  exact (slotGoes_send p _ _ _).of_setRound

/-! ### Outcomes of a slot -/

section
variable {s : State} {p : RfPath} {r d : Round} (hr : roundOf s p = some r)
include hr

theorem slotOpen_of_phase (h : r.phase = .slot) : slotOpen s p = true := by
  unfold slotOpen
  rw [hr]
  dsimp only
  rw [h]
  rfl

/-- SLOT_EMPTY (R265). -/
theorem slotEmpty_goes (hp : r.phase = .slot) (hhop : r.hopDue = false)
    (hd : d = { r with empties := if r.q = eBits (roundEntry s r) 53 3 0 then r.empties + 1 else 0
                       emptySlots := r.emptySlots + 1
                       qfp := max (16 * eBits (roundEntry s r) 53 3 0) (r.qfp - fld s Fld.BRM_Q_CE) })
    (hne : d.empties ≠ fld s Fld.BRM_Q_ENDEMPTY)
    (hb : blocked s p d (slotWorst (roundEntry s r) (nextTime (roundEntry s r) (qStep d).2)) = none) :
    ∃ t, exec (.slotEmpty p) s = .next t ∧
      roundOf t p = some { (qStep d).1 with phase := .slot, slots := r.slots + 1 } ∧
      t.brm.sent = [(p, nextAir (qStep d).2)] ∧ roundOf t (otherPath p) = roundOf s (otherPath p) ∧
      t = { s with brm := t.brm } := by
  have hquiet : roundOf (brmQuiet s) p = some r := by rw [roundOf_brmQuiet, hr]
  have hcount : countSlot (brmQuiet s) (roundEntry s r) r .empty = (brmQuiet s, d) := by rw [hd]; rfl
  have hslots : d.slots = r.slots := by rw [hd]
  have hdue : d.hopDue = false := by rw [hd]; exact hhop
  have hlimit : SameLimits s (brmQuiet s) := (SameLimits.refl s).quiet
  have h := slotEnd_goes hquiet hcount (fun h => hne h.2) hdue ((hlimit.blocked_eq p d _).trans hb)
  have hrow : row s (fun t => slotEnd (brmQuiet t) p .empty) = slotEnd (brmQuiet s) p .empty :=
    row_of_slotGoes (run := fun t => slotEnd (brmQuiet t) p .empty) h hr (roundOf_brmQuiet s _) rfl rfl
  obtain ⟨hstate, hround, hsent, hother⟩ := h
  rw [hslots] at hround
  have hexec : exec (.slotEmpty p) s = .next (slotEnd (brmQuiet s) p .empty) := by
    rw [← hrow]
    exact congrArg next (if_pos (slotOpen_of_phase hr hp))
  exact ⟨_, hexec, hround, hsent, hother.trans (roundOf_brmQuiet s _), hstate⟩

end

/-! ### Replies (R210, R266, R267) -/

/-- The machine once the chains of a round have reported the levels of a reply, in a new step. -/
def replyHeard (s : State) (r : Round) (levels : List Byte) : State := reportLevels (brmQuiet s) (roundChains s r) levels

section
variable (s : State) (r : Round) (levels : List Byte)

theorem replyHeard_state : replyHeard s r levels = { s with regs := (replyHeard s r levels).regs, brm := { s.brm with sent := [] } } :=
  reportLevels_state (brmQuiet s) (roundChains s r) levels

theorem replyHeard_flds : FldsKept rssiFlds s (replyHeard s r levels) :=
  FldsKept.trans (FldsKept.regs (.refl _ s) rfl) (reportLevels_flds (brmQuiet s) (roundChains s r) levels)

theorem roundOf_replyHeard (q : RfPath) : roundOf (replyHeard s r levels) q = roundOf s q := by
  rw [replyHeard_state]
  cases q <;> rfl

theorem roundEntry_replyHeard (x : Round) : roundEntry (replyHeard s r levels) x = roundEntry s x := by
  rw [roundEntry, entryAt, replyHeard_state, roundEntry, entryAt]

theorem replyHeard_limits : SameLimits s (replyHeard s r levels) := by
  obtain ⟨hclk, hsched, haccounts, hbin, hprof⟩ := SameLimits.reportLevels (brmQuiet s) (roundChains s r) levels
  exact ⟨hclk, hsched, haccounts, hbin, hprof⟩

theorem fld_replyHeard {f : Field} (hf : f.addr < 0xB20 ∨ 0xC00 ≤ f.addr) : fld (replyHeard s r levels) f = fld s f :=
  fld_reportLevels (brmQuiet s) (roundChains s r) levels hf

theorem roundChains_replyHeard (x : Round) : roundChains (replyHeard s r levels) x = roundChains s x := by
  unfold roundChains rpRxMask
  rw [fld_replyHeard s r levels (f := Fld.RP_CFG_RXMASK x.leaf) (by simp only [Fld.RP_CFG_RXMASK, Adr.RP_CFG]; omega)]

theorem captureOf_replyHeard (x : Round) (l : List Rn16Reply) : captureOf (replyHeard s r levels) x l = captureOf s x l := by
  unfold captureOf flag
  rw [roundChains_replyHeard, fld_replyHeard s r levels (f := Fld.BRM_CAPTURE_EN) (.inr (by decide)),
    fld_replyHeard s r levels (f := Fld.BRM_CAPTURE_DB) (.inr (by decide))]

end

section
variable {s : State} {p : RfPath} {r d : Round} {l : List Rn16Reply} (hr : roundOf s p = some r)
include hr

theorem rn16Reply_of_many (hl : l.length ≠ 1) : rn16Reply (brmQuiet s) p l =
    match captureOf s r l with
    | some x => sendAck (incSat (replyHeard s r (strongest l)) Fld.BRM_CNT1_CAPTURE 1) p { r with captures := r.captures + 1 } x.rn
        true 0
    | none => slotEnd (replyHeard s r (strongest l)) p .collision := by
  rw [← captureOf_replyHeard s r (strongest l)]
  unfold rn16Reply
  rw [roundOf_brmQuiet, hr]
  match l, hl with
  | [], _ => rfl
  | _ :: _ :: _, _ => rfl

theorem rn16Reply_of_one (x : Rn16Reply) : rn16Reply (brmQuiet s) p [x] =
    if x.decoded then sendAck (replyHeard s r (strongest [x])) p r x.rn false 0
    else slotEnd (replyHeard s r (strongest [x])) p .collision := by
  unfold rn16Reply
  rw [roundOf_brmQuiet, hr]
  rfl

/-- Replies that collide, or one that is not decoded, end the slot (R266). -/
theorem rn16Reply_collides (h : l.length ≠ 1 ∧ captureOf s r l = none ∨ ∃ x, l = [x] ∧ x.decoded = false) :
    rn16Reply (brmQuiet s) p l = slotEnd (replyHeard s r (strongest l)) p .collision := by
  rcases h with ⟨hl, hc⟩ | ⟨x, rfl, hx⟩
  · rw [rn16Reply_of_many hr hl, hc]
  · rw [rn16Reply_of_one hr, if_neg (by simp [hx])]

/-- A round that goes on after replies (R38). -/
theorem exec_rn16Reply_of_goes {u : State} {r1 : Round} {c : AirCmd} (hp : r.phase = .slot)
    (h : SlotGoes p u (rn16Reply (brmQuiet s) p l) r1 c) (hu : ∀ q, roundOf u q = roundOf s q) (hd : u.hf = s.hf)
    (hl : u.lnk = s.lnk) : exec (.rn16Reply p l) s = .next (rn16Reply (brmQuiet s) p l) := by
  have hrow : row s (fun t => rn16Reply (brmQuiet t) p l) = rn16Reply (brmQuiet s) p l :=
    row_of_slotGoes (run := fun t => rn16Reply (brmQuiet t) p l) h hr (hu _) hd hl
  rw [← hrow]
  exact congrArg next (if_pos (slotOpen_of_phase hr hp))

/-- RN16_REPLY of replies that collide (R265, R295). -/
theorem rn16Reply_collision_acts (hp : r.phase = .slot) (hhop : r.hopDue = false)
    (h : l.length ≠ 1 ∧ captureOf s r l = none ∨ ∃ x, l = [x] ∧ x.decoded = false)
    (hd : d = { r with empties := 0, collisions := r.collisions + 1
                       qfp := min (16 * eBits (roundEntry s r) 53 7 4) (r.qfp + fld s Fld.BRM_Q_CC) })
    (hb : blocked s p d (slotWorst (roundEntry s r) (nextTime (roundEntry s r) (qStep d).2)) = none) :
    ∃ t, exec (.rn16Reply p l) s = .next t ∧
      roundOf t p = some { (qStep d).1 with phase := .slot, slots := r.slots + 1 } ∧
      t.brm.sent = [(p, nextAir (qStep d).2)] ∧ roundOf t (otherPath p) = roundOf s (otherPath p) ∧
      fld t Fld.BRM_CNT1_COLLIDE = min 0xFFFF (fld s Fld.BRM_CNT1_COLLIDE + 1) ∧
      FldsKept (Fld.BRM_CNT1_COLLIDE :: rssiFlds) s t ∧ t = { s with regs := t.regs, fresh := t.fresh, brm := t.brm } := by
  generalize hv : replyHeard s r (strongest l) = v
  have hvr : ∀ q, roundOf v q = roundOf s q := by rw [← hv]; exact roundOf_replyHeard s r _
  have hve : roundEntry v r = roundEntry s r := by rw [← hv]; exact roundEntry_replyHeard s r _ r
  have hvs : v = { s with regs := v.regs, brm := { s.brm with sent := [] } } := by rw [← hv]; exact replyHeard_state s r _
  have hvf : FldsKept rssiFlds s v := by rw [← hv]; exact replyHeard_flds s r _
  have hvl : SameLimits s v := by rw [← hv]; exact replyHeard_limits s r _
  have hcc : fld v Fld.BRM_Q_CC = fld s Fld.BRM_Q_CC := by rw [← hv]; exact fld_replyHeard s r _ (.inr (by decide))
  have hcol : fld v Fld.BRM_CNT1_COLLIDE = fld s Fld.BRM_CNT1_COLLIDE := by rw [← hv]; exact fld_replyHeard s r _ (.inr (by decide))
  have hcount : countSlot v (roundEntry v r) r .collision = (incSat v Fld.BRM_CNT1_COLLIDE 1, d) := by
    rw [hve, hd, ← hcc]
    rfl
  have hslots : d.slots = r.slots := by rw [hd]
  have hdue : d.hopDue = false := by rw [hd]; exact hhop
  have hinc : SameLimits s (incSat v Fld.BRM_CNT1_COLLIDE 1) := hvl.setFld (by decide) _
  have hgoes := slotEnd_goes ((hvr p).trans hr) hcount (fun h => absurd h.1 (by decide)) hdue
    (by rw [hve]; exact (hinc.blocked_eq p d _).trans hb)
  rw [hslots] at hgoes
  have e : rn16Reply (brmQuiet s) p l = slotEnd v p .collision := by rw [← hv]; exact rn16Reply_collides hr h
  rw [← e] at hgoes
  have hexec := exec_rn16Reply_of_goes hr hp hgoes hvr (by rw [hvs]; rfl) (by rw [hvs]; rfl)
  obtain ⟨hstate, hround, hsent, hother⟩ := hgoes
  have hregs : (rn16Reply (brmQuiet s) p l).regs = (incSat v Fld.BRM_CNT1_COLLIDE 1).regs := by rw [hstate]
  have hkept : FldsKept (Fld.BRM_CNT1_COLLIDE :: rssiFlds) s (incSat v Fld.BRM_CNT1_COLLIDE 1) :=
    (hvf.mono (List.subset_cons_self _ _)).setFld List.mem_cons_self _
  have hnone : v.brm.sent = [] := by rw [hvs]
  refine ⟨_, hexec, hround, ?_, hother.trans (hvr _), ?_, hkept.regs hregs, ?_⟩
  · rw [hsent]
    exact congrArg (· ++ _) hnone
  · rw [fld_congr hregs, fld_incSat_self _ _ _ (by decide), hcol]
    rfl
  · rw [hstate, hvs]
    rfl

/-- RN16_REPLY of one reply that is decoded (R210, R266). -/
theorem rn16Reply_one_acts {x : Rn16Reply} (hp : r.phase = .slot) (hx : x.decoded = true) :
    ∃ t, exec (.rn16Reply p [x]) s = .next t ∧ roundOf t p = some { r with phase := .acked x.rn false 0 } ∧
      t.brm.sent = [(p, .ack x.rn)] ∧ roundOf t (otherPath p) = roundOf s (otherPath p) ∧
      (∀ k : Fin 4, (roundChains s r).testBit k = true → fld t (Fld.RAD_RXC_STAT_RSSI k) = (x.levels.getD k 255).toNat) ∧
      FldsKept rssiFlds s t ∧ t = { s with regs := t.regs, brm := t.brm } := by
  have e : rn16Reply (brmQuiet s) p [x] = sendAck (replyHeard s r (strongest [x])) p r x.rn false 0 := by
    rw [rn16Reply_of_one hr, if_pos hx]
  have hgoes := slotGoes_ack (replyHeard s r (strongest [x])) p r x.rn false 0
  rw [← e] at hgoes
  have hstate' := replyHeard_state s r (strongest [x])
  have hexec := exec_rn16Reply_of_goes hr hp hgoes (roundOf_replyHeard s r _) (by rw [hstate']) (by rw [hstate'])
  obtain ⟨hstate, hround, hsent, hother⟩ := hgoes
  have hregs : (rn16Reply (brmQuiet s) p [x]).regs = (replyHeard s r (strongest [x])).regs := by rw [hstate]
  refine ⟨_, hexec, hround, ?_, hother.trans (roundOf_replyHeard s r _ _), fun k hk => ?_, (replyHeard_flds s r _).regs hregs, ?_⟩
  · rw [hsent, hstate']
    rfl
  · rw [fld_congr hregs, replyHeard, rssi_reportLevels _ _ hk, strongest_one]
  · rw [hstate, hstate']

/-- RN16_REPLY of several replies of which one captures the slot (R266, R267). -/
theorem rn16Reply_capture_acts {x : Rn16Reply} (hp : r.phase = .slot) (hl : l.length ≠ 1) (hx : captureOf s r l = some x) :
    ∃ t, exec (.rn16Reply p l) s = .next t ∧
      roundOf t p = some { r with phase := .acked x.rn true 0, captures := r.captures + 1 } ∧
      t.brm.sent = [(p, .ack x.rn)] ∧ fld t Fld.BRM_CNT1_CAPTURE = min 0xFFFF (fld s Fld.BRM_CNT1_CAPTURE + 1) ∧
      FldsKept (Fld.BRM_CNT1_CAPTURE :: rssiFlds) s t ∧ t = { s with regs := t.regs, fresh := t.fresh, brm := t.brm } := by
  generalize hv : replyHeard s r (strongest l) = v
  have hvr : ∀ q, roundOf v q = roundOf s q := by rw [← hv]; exact roundOf_replyHeard s r _
  have hvs : v = { s with regs := v.regs, brm := { s.brm with sent := [] } } := by rw [← hv]; exact replyHeard_state s r _
  have hvf : FldsKept rssiFlds s v := by rw [← hv]; exact replyHeard_flds s r _
  have hcap : fld v Fld.BRM_CNT1_CAPTURE = fld s Fld.BRM_CNT1_CAPTURE := by
    rw [← hv]
    exact fld_replyHeard s r _ (.inr (by decide))
  have e : rn16Reply (brmQuiet s) p l =
      sendAck (incSat v Fld.BRM_CNT1_CAPTURE 1) p { r with captures := r.captures + 1 } x.rn true 0 := by
    rw [rn16Reply_of_many hr hl, hx, hv]
  have hgoes := slotGoes_ack (incSat v Fld.BRM_CNT1_CAPTURE 1) p { r with captures := r.captures + 1 } x.rn true 0
  rw [← e] at hgoes
  have hexec := exec_rn16Reply_of_goes hr hp hgoes hvr (by rw [hvs]; rfl) (by rw [hvs]; rfl)
  obtain ⟨hstate, hround, hsent, -⟩ := hgoes
  have hregs : (rn16Reply (brmQuiet s) p l).regs = (incSat v Fld.BRM_CNT1_CAPTURE 1).regs := by rw [hstate]
  have hkept : FldsKept (Fld.BRM_CNT1_CAPTURE :: rssiFlds) s (incSat v Fld.BRM_CNT1_CAPTURE 1) :=
    (hvf.mono (List.subset_cons_self _ _)).setFld List.mem_cons_self _
  have hnone : v.brm.sent = [] := by rw [hvs]
  refine ⟨_, hexec, hround, ?_, ?_, hkept.regs hregs, ?_⟩
  · rw [hsent]
    exact congrArg (· ++ _) hnone
  · rw [fld_congr hregs, fld_incSat_self _ _ _ (by decide), hcap]
    rfl
  · rw [hstate, hvs]
    rfl

end

/-! ### An ACK without its answer (R268) -/

section
variable {s : State} {p : RfPath} {r : Round} {rn : BitVec 16} {c : Bool} {n : Nat} (hr : roundOf s p = some r)
  (hp : r.phase = .acked rn c n)
include hr hp

theorem ackPhase_of_acked : ackPhase s p = some (r, rn, c, n) := by
  unfold ackPhase
  rw [hr]
  dsimp only
  rw [hp]

theorem epcMissing_of_retry (hn : n < fld s Fld.BRM_ACC_ACKRETRY) (hb : blocked s p r (ackWorst (roundEntry s r) rn) = none) :
    epcMissing s p = sendAck s p r rn c (n + 1) := by
  unfold epcMissing
  rw [ackPhase_of_acked hr hp]
  exact if_pos ⟨hn, by rw [hb]; rfl⟩

/-- The slot fails, behind a NAK where it fits. -/
theorem epcMissing_of_failed (hn : fld s Fld.BRM_ACC_ACKRETRY ≤ n) :
    epcMissing s p = slotEnd (incSat s Fld.BRM_CNT2_EPCFAIL 1) p .collision ∨
      epcMissing s p = slotEnd (incSat (brmSend s p .nak) Fld.BRM_CNT2_EPCFAIL 1) p .collision := by
  unfold epcMissing
  rw [ackPhase_of_acked hr hp]
  dsimp only
  rw [if_neg fun h => absurd h.1 (Nat.not_lt.2 hn)]
  split
  · exact .inr rfl
  · exact .inl rfl

/-- EPC_REPLY_MISSING with repeats of the ACK left (R268). -/
theorem epcReplyMissing_retries (hn : n < fld s Fld.BRM_ACC_ACKRETRY)
    (hb : blocked s p r (ackWorst (roundEntry s r) rn) = none) :
    ∃ t, exec (.epcReplyMissing p) s = .next t ∧ roundOf t p = some { r with phase := .acked rn c (n + 1) } ∧
      t.brm.sent = [(p, .ack rn)] ∧ roundOf t (otherPath p) = roundOf s (otherPath p) ∧ t = { s with brm := t.brm } := by
  have hquiet : roundOf (brmQuiet s) p = some r := by rw [roundOf_brmQuiet, hr]
  have hlimit : SameLimits s (brmQuiet s) := (SameLimits.refl s).quiet
  have e : epcMissing (brmQuiet s) p = sendAck (brmQuiet s) p r rn c (n + 1) :=
    epcMissing_of_retry hquiet hp hn ((hlimit.blocked_eq p r _).trans hb)
  have h := slotGoes_ack (brmQuiet s) p r rn c (n + 1)
  rw [← e] at h
  have hrow : row s (fun t => epcMissing (brmQuiet t) p) = epcMissing (brmQuiet s) p :=
    row_of_slotGoes (run := fun t => epcMissing (brmQuiet t) p) h hr (roundOf_brmQuiet s _) rfl rfl
  obtain ⟨hstate, hround, hsent, hother⟩ := h
  have hexec : exec (.epcReplyMissing p) s = .next (epcMissing (brmQuiet s) p) := by
    rw [← hrow]
    rfl
  exact ⟨_, hexec, hround, hsent, hother.trans (roundOf_brmQuiet s _), hstate⟩

end

end Sys2Proof.Machine

/-! EPC replies (R254, R263, R268, R269, R273): what a read, or a reply without one, may move. -/

namespace Sys2Proof.Machine

/-! ### Ends of slots (R259, R260, R285) -/

/-- A slot's end counts its outcome, and what follows is work of the round. -/
theorem slotEnd_move {s s1 : State} {p : RfPath} {r0 d : Round} {o : SlotOutcome} (hr : roundOf s p = some r0)
    (hc : countSlot s (roundEntry s r0) r0 o = (s1, d)) : RoundMove s1 (slotEnd s p o) := by
  have h2 := (RoundMove.refl s1).setRound p (some { d with phase := .slot })
  unfold slotEnd
  rw [hr]
  dsimp only
  rw [hc]
  dsimp only
  split
  · exact (h2.visitEnd p).ite (h2.cycleStart p)
  · split
    · exact ((h2.hopNow p true).nextSlot p _ _).ite (h2.hopNow p true)
    · exact h2.nextSlot p _ _

theorem slotEnd_collision_move {s : State} {p : RfPath} {r0 : Round} (hr : roundOf s p = some r0) :
    RoundMove (incSat s Fld.BRM_CNT1_COLLIDE 1) (slotEnd s p .collision) := slotEnd_move hr rfl

theorem slotEnd_read_move (s : State) (p : RfPath) : RoundMove s (slotEnd s p .read) := by
  cases hr : roundOf s p with
  | none =>
    unfold slotEnd
    rw [hr]
    exact .refl s
  | some r0 => exact slotEnd_move hr rfl

/-- The work of a round is among the fields that the statements list. -/
theorem workFlds_covered : ∀ g ∈ Fld.BRM_CNT2_EPCFAIL :: Fld.BRM_CNT1_COLLIDE :: workFlds,
    g ∈ roundFlds ++ sendFlds ∨ whole g.addr ∈ roundFlds ++ sendFlds ∧ g.hi < 32 := by decide

theorem apart_workFlds {f : Field} (hf : f = Fld.BRM_CNT0_READS ∨ f = Fld.BRM_CNT1_COLLIDE ∨ f = Fld.BRM_CNT2_EPCFAIL) :
    ∀ g ∈ workFlds, f.apart g := by
  unfold Field.apart
  rcases hf with rfl | rfl | rfl
  · decide
  · decide
  · decide

/-- A row whose run is written for the machine before it. -/
theorem row_const (s : State) (run : State → State) : row s run = row s fun _ => run s := by
  unfold row
  rfl

/-- Two rows that come to the same machine, from machines with the same work. -/
theorem row_congr {s u : State} {run run' : State → State} (h : run s = run' u) (hb : u.brm = s.brm) (hd : u.hf = s.hf)
    (hl : u.lnk = s.lnk) : row s run = row u run' := by
  have hw : workEnded s (run s) = workEnded u (run' u) := by
    rw [h]
    unfold workEnded
    rw [hb, hd, hl]
  unfold row
  rw [hw, h]

/-! ### An ACK that is not repeated (R268) -/

/-- EPC_REPLY_MISSING after the last repeat of the ACK. -/
theorem epcReplyMissing_fails {s : State} {p : RfPath} {r : Round} {rn : BitVec 16} {c : Bool} {n : Nat}
    (hr : roundOf s p = some r) (hp : r.phase = .acked rn c n) (hn : fld s Fld.BRM_ACC_ACKRETRY ≤ n) :
    ∃ t, exec (.epcReplyMissing p) s = .next (row s fun _ => t) ∧
      fld t Fld.BRM_CNT2_EPCFAIL = min 0xFFFF (fld s Fld.BRM_CNT2_EPCFAIL + 1) ∧
      fld t Fld.BRM_CNT1_COLLIDE = min 0xFFFF (fld s Fld.BRM_CNT1_COLLIDE + 1) ∧ FldsKept (roundFlds ++ sendFlds) s t ∧
      t = { s with regs := t.regs, fresh := t.fresh, brm := t.brm, cal := t.cal, fifo := t.fifo, radio := t.radio } := by
  have hquiet : roundOf (brmQuiet s) p = some r := by rw [roundOf_brmQuiet, hr]
  have hmove : ∃ b : Brm, roundOf { s with brm := b } p = some r ∧
      epcMissing (brmQuiet s) p = slotEnd (incSat { s with brm := b } Fld.BRM_CNT2_EPCFAIL 1) p .collision := by
    rcases epcMissing_of_failed hquiet hp hn with e | e
    · exact ⟨(brmQuiet s).brm, hquiet, e⟩
    · exact ⟨(brmSend (brmQuiet s) p .nak).brm, (roundOf_brmSend _ _ _ _).trans hquiet, e⟩
  obtain ⟨b, hb, e⟩ := hmove
  have hround : roundOf (incSat { s with brm := b } Fld.BRM_CNT2_EPCFAIL 1) p = some r := by
    rw [← hb]
    cases p <;> rfl
  have h := slotEnd_collision_move hround
  rw [← e] at h
  obtain ⟨hstate, hkept, -⟩ := h
  generalize hu : incSat { s with brm := b } Fld.BRM_CNT2_EPCFAIL 1 = u at hstate hkept
  have hfail : fld u Fld.BRM_CNT2_EPCFAIL = min 0xFFFF (fld s Fld.BRM_CNT2_EPCFAIL + 1) := by
    rw [← hu]
    exact fld_incSat_self { s with brm := b } Fld.BRM_CNT2_EPCFAIL 1 (by decide)
  have hcol : fld u Fld.BRM_CNT1_COLLIDE = fld s Fld.BRM_CNT1_COLLIDE := by
    rw [← hu]
    exact fld_setFld_ne { s with brm := b } _ _ _ (by decide)
  have hus : FldsKept (Fld.BRM_CNT2_EPCFAIL :: Fld.BRM_CNT1_COLLIDE :: workFlds) s (incSat u Fld.BRM_CNT1_COLLIDE 1) := by
    have h0 : FldsKept (Fld.BRM_CNT2_EPCFAIL :: Fld.BRM_CNT1_COLLIDE :: workFlds) s { s with brm := b } :=
      FldsKept.regs (.refl _ s) rfl
    rw [← hu]
    exact (h0.setFld List.mem_cons_self _).setFld (List.mem_cons_of_mem _ List.mem_cons_self) _
  refine ⟨epcMissing (brmQuiet s) p, congrArg next (row_const s _), ?_, ?_, ?_, ?_⟩
  · rw [hkept.fld_eq (apart_workFlds (.inr (.inr rfl))), incSat, fld_setFld_ne _ _ _ _ (by decide), hfail]
  · rw [hkept.fld_eq (apart_workFlds (.inr (.inl rfl))), fld_incSat_self _ _ _ (by decide), hcol]
    rfl
  · exact (hus.trans (hkept.mono fun _ hg => List.mem_cons_of_mem _ (List.mem_cons_of_mem _ hg))).cover workFlds_covered
  · rw [hstate, ← hu]
    rfl

/-! ### Steps of a program (R272, R273, R276) -/

/-- The work of a round, with the top-up and the challenge of an access step. -/
structure StepMove (s t : State) : Prop where
  state : t = { s with regs := t.regs, fresh := t.fresh, radio := t.radio, brm := t.brm, cal := t.cal, fifo := t.fifo
                       sched := t.sched, drawn := t.drawn }
  kept : FldsKept (workFlds ++ cxFlds) s t

namespace StepMove

variable {s t u : State}

theorem of_round (h : RoundMove s t) : StepMove s t := ⟨by rw [h.state], h.kept.mono (List.subset_append_left _ _)⟩

theorem trans (h : StepMove s t) (h' : StepMove t u) : StepMove s u := ⟨by rw [h'.state, h.state], h.kept.trans h'.kept⟩

theorem round (h : StepMove s t) (hu : RoundMove t u) : StepMove s u := h.trans (of_round hu)

theorem topUp (h : StepMove s t) (who : Consumer) (mask : Nat) (kind : LeaseKind) : StepMove s (topUp t who mask kind) := by
  unfold Machine.topUp
  split
  · have hput := putRequest_posts t ‹_›
    exact h.trans ⟨by rw [hput.state], hput.kept.mono (List.subset_append_right _ _)⟩
  · exact h

theorem draw (h : StepMove s t) : StepMove s (drawRandom t).2 := h.trans ⟨rfl, FldsKept.regs (.refl _ t) rfl⟩

/-- A step goes on the air (R272, R276). -/
theorem sendStep (s : State) (p : RfPath) (r : Round) (g n tries : Nat) : StepMove s (sendStep s p r g n tries) := by
  have h1 : RoundMove s (if n = 0 ∧ tries = 0 then brmSend s p .reqRn else s) := ((RoundMove.refl s).brmSend p _).ite (.refl s)
  unfold Machine.sendStep
  dsimp only
  split
  · exact (((of_round h1).draw.round ((RoundMove.refl _).setRound p _)).topUp _ _ _).round ((RoundMove.refl _).brmSend p _)
  · exact of_round ((h1.setRound p _).brmSends p id _)

end StepMove

theorem programDone_move (s : State) (p : RfPath) : RoundMove s (programDone s p) := by
  have h := (RoundMove.refl s).programEnd p
  unfold programDone
  dsimp only
  split
  · exact h
  · exact (h.roundEnd p 0).ite (h.trans (slotEnd_read_move _ p))

/-- The next step of a program, or its end (R264, R273). -/
theorem stepStart_move (s : State) (p : RfPath) (g n : Nat) : StepMove s (stepStart s p g n) := by
  unfold stepStart
  split
  · exact .of_round (.refl s)
  · dsimp only
    split
    · exact .of_round (programDone_move s p)
    · split
      · exact .sendStep s p _ g n 0
      · exact .of_round (((RoundMove.refl s).programEnd p).stopWork p _)

end Sys2Proof.Machine

/-! Reads of EPC replies (R228, R254, R263, R269), and the statement about slots. -/

namespace Sys2Proof.Machine

/-! ### A read -/

/-- The time does not depend on what a read changes. -/
theorem q64_congr {s t : State} (hclk : t.clk = s.clk) (hqtz : t.qtz = s.qtz) (hmodes : t.modes = s.modes) (hmode : mode t = mode s)
    (hfall : fld t Fld.SYS_CLKSTAT_FALLBACK = fld s Fld.SYS_CLKSTAT_FALLBACK) : q64 t = q64 s := by
  have hclk100 : clk100 t = clk100 s := by rw [clk100, clk100, flag, flag, hmode, hmodes, hfall]
  rw [q64, q64, interp, interp, hclk, hqtz, hclk100]

/-- The machine once a reply has been heard and its read counted (R210, R295). -/
def readCounted (s : State) (r : Round) (levels : List Byte) : State :=
  setFld (replyHeard s r levels) Fld.BRM_CNT0_READS (satAdd 0xFFFFFFFF (fld (replyHeard s r levels) Fld.BRM_CNT0_READS) 1)

section
variable (s : State) (r : Round) (levels : List Byte)

theorem readCounted_state :
    readCounted s r levels = { s with regs := (readCounted s r levels).regs, brm := { s.brm with sent := [] } } := by
  rw [readCounted, replyHeard_state]
  rfl

theorem fld_readCounted {f : Field} (hf : f.addr < 0xB20 ∨ 0xC00 ≤ f.addr) (hne : f.addr ≠ Adr.BRM_CNT0) :
    fld (readCounted s r levels) f = fld s f := by
  rw [readCounted, fld_setFld_ne _ _ _ _ hne, fld_replyHeard s r levels hf]

theorem reads_readCounted :
    fld (readCounted s r levels) Fld.BRM_CNT0_READS = min 0xFFFFFFFF (fld s Fld.BRM_CNT0_READS + 1) := by
  rw [readCounted, satAdd_eq_min, fld_setFld_of_lt _ (by decide) (Nat.lt_of_le_of_lt (Nat.min_le_left _ _) (by decide)),
    fld_replyHeard s r levels (.inr (by decide))]

theorem roundChains_readCounted : roundChains (readCounted s r levels) r = roundChains s r := by
  unfold roundChains rpRxMask
  rw [fld_readCounted s r levels (f := Fld.RP_CFG_RXMASK r.leaf) (by simp only [Fld.RP_CFG_RXMASK, Adr.RP_CFG]; omega)
    (by simp only [Fld.RP_CFG_RXMASK, Adr.RP_CFG, Adr.BRM_CNT0]; omega)]

theorem epcLevel_readCounted (x : EpcReply) : epcLevel (readCounted s r levels) r x = epcLevel s r x := by
  unfold epcLevel
  rw [roundChains_readCounted]

theorem rssiMin_readCounted :
    fld (readCounted s r levels) (Fld.RP_FILT_RSSIMIN r.leaf) = fld s (Fld.RP_FILT_RSSIMIN r.leaf) :=
  fld_readCounted s r levels (by simp only [Fld.RP_FILT_RSSIMIN, Adr.RP_FILT]; omega)
    (by simp only [Fld.RP_FILT_RSSIMIN, Adr.RP_FILT, Adr.BRM_CNT0]; omega)

theorem roundEntry_readCounted : roundEntry (readCounted s r levels) r = roundEntry s r := by
  rw [roundEntry, entryAt, readCounted_state, roundEntry, entryAt]

theorem q64_readCounted : q64 (readCounted s r levels) = q64 s := by
  have hs := readCounted_state s r levels
  exact q64_congr (by rw [hs]) (by rw [hs]) (by rw [hs]) (fld_readCounted s r levels (.inl (by decide)) (by decide))
    (fld_readCounted s r levels (.inl (by decide)) (by decide))

/-- A chain that hears the reply reports its level. -/
theorem rssi_readCounted {k : Fin 4} (hk : (roundChains s r).testBit k = true) :
    fld (readCounted s r levels) (Fld.RAD_RXC_STAT_RSSI k) = (levels.getD k 255).toNat := by
  have hne : ∀ j : Fin 4, (Fld.RAD_RXC_STAT_RSSI j).addr ≠ Adr.BRM_CNT0 := by decide
  rw [readCounted, fld_setFld_ne _ _ _ _ (hne k), replyHeard, rssi_reportLevels _ _ hk]

theorem readCounted_flds : FldsKept (Fld.BRM_CNT0_READS :: rssiFlds) s (readCounted s r levels) :=
  ((replyHeard_flds s r levels).mono (List.subset_cons_self _ _)).setFld List.mem_cons_self _

end

/-- The read is discarded by the filter, or waits for the table (R228, R269). -/
theorem readToTable_only (s : State) (r : Round) (x : EpcReply) :
    readToTable s r x = { s with sgt := (readToTable s r x).sgt } := by
  unfold readToTable
  split <;> rfl

theorem sgt_readToTable_of_far {s : State} {r : Round} {x : EpcReply} (h : fld s (Fld.RP_FILT_RSSIMIN r.leaf) < epcLevel s r x) :
    (readToTable s r x).sgt = s.sgt := by
  rw [readToTable, if_pos h]

theorem sgt_readToTable_of_near {s : State} {r : Round} {x : EpcReply} (h : epcLevel s r x ≤ fld s (Fld.RP_FILT_RSSIMIN r.leaf)) :
    (readToTable s r x).sgt = { s.sgt with waiting := s.sgt.waiting ++ [uhfRead s r x] } := by
  rw [readToTable, if_neg (Nat.not_lt.2 h)]

/-! ### EPC_REPLY -/

section
variable {s : State} {p : RfPath} {r : Round} {rn : BitVec 16} {c : Bool} {n : Nat} {x : EpcReply} (hr : roundOf s p = some r)
  (hp : r.phase = .acked rn c n)
include hr hp

theorem epcReply_heard : epcReply (brmQuiet s) p x =
    match replyLate (replyHeard s r x.levels) p r with
    | some why => stopWork (setRound (carrierOff (replyHeard s r x.levels) p) p (some { r with phase := .slot })) p why
    | none => epcReply.epcHeard (replyHeard s r x.levels) p r x := by
  have hquiet : roundOf (brmQuiet s) p = some r := by rw [roundOf_brmQuiet, hr]
  unfold epcReply
  rw [ackPhase_of_acked hquiet hp]
  rfl

/-- A reply that ends in time with a bad CRC is a missing one (R268). -/
theorem epcReply_of_bad (hl : replyLate s p r = none) (hg : epcGood x = false) :
    exec (.epcReply p x) s = exec (.epcReplyMissing p) (reportLevels s (roundChains s r) x.levels) := by
  have hs := reportLevels_state s (roundChains s r) x.levels
  have hlate : replyLate (replyHeard s r x.levels) p r = none := ((replyHeard_limits s r x.levels).replyLate_eq p r).trans hl
  have e : epcReply (brmQuiet s) p x = epcMissing (brmQuiet (reportLevels s (roundChains s r) x.levels)) p := by
    rw [epcReply_heard hr hp, hlate, ← reportLevels_quiet]
    exact if_neg (by simp [hg])
  exact congrArg next (row_congr (run := fun t => epcReply (brmQuiet t) p x) (run' := fun t => epcMissing (brmQuiet t) p) e
    (by rw [hs]) (by rw [hs]) (by rw [hs]))

/-- A reply that ends late is no read (R263). -/
theorem epcReply_of_late (hl : replyLate s p r ≠ none) :
    ∃ t, exec (.epcReply p x) s = .next (row s fun _ => t) ∧ t.sgt = s.sgt ∧
      fld t Fld.BRM_CNT0_READS = fld s Fld.BRM_CNT0_READS := by
  obtain ⟨why, hwhy⟩ := Option.ne_none_iff_exists'.mp hl
  have hlate : replyLate (replyHeard s r x.levels) p r = some why :=
    ((replyHeard_limits s r x.levels).replyLate_eq p r).trans hwhy
  have h : RoundMove (replyHeard s r x.levels) (epcReply (brmQuiet s) p x) := by
    rw [epcReply_heard hr hp, hlate]
    exact (((RoundMove.refl _).carrierOff p).setRound p _).stopWork p why
  obtain ⟨hstate, hkept, -⟩ := h
  refine ⟨epcReply (brmQuiet s) p x, congrArg next (row_const s _), ?_, ?_⟩
  · rw [hstate, replyHeard_state]
  · rw [hkept.fld_eq (apart_workFlds (.inl rfl)), fld_replyHeard s r _ (.inr (by decide))]

/-- A good reply counts a read, which goes to the table, and its program starts or its slot ends. -/
theorem epcReply_of_good (hl : replyLate s p r = none) (hg : epcGood x = true) :
    StepMove (readToTable (readCounted s r x.levels) r x) (epcReply (brmQuiet s) p x) := by
  have hlate : replyLate (replyHeard s r x.levels) p r = none := ((replyHeard_limits s r x.levels).replyLate_eq p r).trans hl
  have e : epcReply (brmQuiet s) p x = epcReply.epcHeard (replyHeard s r x.levels) p r x := by
    rw [epcReply_heard hr hp, hlate]
  have hset : ∀ y, StepMove (readToTable (readCounted s r x.levels) r x)
      (setRound (readToTable (readCounted s r x.levels) r x) p y) := fun y => .of_round ((RoundMove.refl _).setRound p y)
  rw [e]
  unfold epcReply.epcHeard
  rw [if_pos hg]
  dsimp only
  split
  · exact (hset _).trans (stepStart_move _ p _ 0)
  · exact (hset _).round (slotEnd_read_move _ p)

end

/-- A read's fields are among those that the statement lists. -/
theorem readFlds_covered : ∀ g ∈ (Fld.BRM_CNT0_READS :: rssiFlds) ++ (workFlds ++ cxFlds),
    g ∈ roundFlds ++ sendFlds ++ rssiFlds ++ cxFlds ∨ whole g.addr ∈ roundFlds ++ sendFlds ++ rssiFlds ++ cxFlds ∧ g.hi < 32 := by
  decide

theorem reads_apart_stepFlds : ∀ g ∈ workFlds ++ cxFlds, Fld.BRM_CNT0_READS.apart g := by
  unfold Field.apart
  decide

theorem rssi_apart_stepFlds (k : Fin 4) : ∀ g ∈ workFlds ++ cxFlds, (Fld.RAD_RXC_STAT_RSSI k).apart g := by
  unfold Field.apart
  revert k
  decide

/-- EPC_REPLY with a good CRC, in time (R210, R228, R269). -/
theorem epcReply_reads {s : State} {p : RfPath} {r : Round} {rn : BitVec 16} {c : Bool} {n : Nat} {x : EpcReply}
    (hr : roundOf s p = some r) (hp : r.phase = .acked rn c n) (hl : replyLate s p r = none) (hg : epcGood x = true) :
    ∃ t, exec (.epcReply p x) s = .next (row s fun _ => t) ∧
      fld t Fld.BRM_CNT0_READS = min 0xFFFFFFFF (fld s Fld.BRM_CNT0_READS + 1) ∧
      (∀ k : Fin 4, (roundChains s r).testBit k = true → fld t (Fld.RAD_RXC_STAT_RSSI k) = (x.levels.getD k 255).toNat) ∧
      (fld s (Fld.RP_FILT_RSSIMIN r.leaf) < epcLevel s r x → t.sgt = s.sgt) ∧
      (epcLevel s r x ≤ fld s (Fld.RP_FILT_RSSIMIN r.leaf) →
        ∃ d : TagRead, t.sgt = { s.sgt with waiting := s.sgt.waiting ++ [d] } ∧ d.tech = 0 ∧
          d.id = ((epcWords x).take 8).flatMap (fun w => beBytes 2 w.toNat) ∧
          d.longId = decide (8 < (epcWords x).length) ∧ d.rp = r.leaf ∧ d.chan = r.chan ∧ d.q64 = q64 s ∧
          d.level = epcLevel s r x ∧ d.pc = (x.words.getD 0 0).toNat ∧ d.hold = eHold (roundEntry s r)) ∧
      FldsKept (roundFlds ++ sendFlds ++ rssiFlds ++ cxFlds) s t ∧
      t = { s with regs := t.regs, fresh := t.fresh, brm := t.brm, cal := t.cal, fifo := t.fifo, radio := t.radio, sched := t.sched,
                   sgt := t.sgt, drawn := t.drawn } := by
  obtain ⟨hstate, hkept⟩ := epcReply_of_good (x := x) hr hp hl hg
  have htable := readToTable_only (readCounted s r x.levels) r x
  have hcounted := readCounted_state s r x.levels
  have hregs : (readToTable (readCounted s r x.levels) r x).regs = (readCounted s r x.levels).regs := by rw [htable]
  have hsgt : (epcReply (brmQuiet s) p x).sgt = (readToTable (readCounted s r x.levels) r x).sgt := by rw [hstate]
  have hsgt0 : (readCounted s r x.levels).sgt = s.sgt := by rw [hcounted]
  refine ⟨epcReply (brmQuiet s) p x, congrArg next (row_const s _), ?_, fun k hk => ?_, fun hfar => ?_, fun hnear => ?_, ?_, ?_⟩
  · rw [hkept.fld_eq reads_apart_stepFlds, fld_congr hregs, reads_readCounted]
  · rw [hkept.fld_eq (rssi_apart_stepFlds k), fld_congr hregs, rssi_readCounted s r _ hk]
  · rw [hsgt, sgt_readToTable_of_far (by rwa [rssiMin_readCounted, epcLevel_readCounted]), hsgt0]
  · refine ⟨uhfRead (readCounted s r x.levels) r x, ?_, rfl, rfl, rfl, rfl, rfl, q64_readCounted s r _,
      epcLevel_readCounted s r _ x, rfl, congrArg eHold (roundEntry_readCounted s r _)⟩
    rw [hsgt, sgt_readToTable_of_near (by rwa [rssiMin_readCounted, epcLevel_readCounted]), hsgt0]
  · have hread := ((readCounted_flds s r x.levels).regs hregs).mono (List.subset_append_left _ (workFlds ++ cxFlds))
    exact (hread.trans (hkept.mono (List.subset_append_right _ _))).cover readFlds_covered
  · rw [hstate, htable, hcounted]

/-- Settles O31: each reply by the branch of its clause; a round that goes on brings no boundary. -/
theorem slotsYieldReads : Obligations.SlotsYieldReads := by
  unfold Obligations.SlotsYieldReads
  refine ⟨fun s p r hr => ⟨?_, ?_, ?_, ?_, ?_, ?_⟩, fun s p r rn c n x hr hp => ⟨?_, ?_, ?_⟩⟩
  · intro d hp hhop hd hne hb
    exact slotEmpty_goes hr hp hhop hd hne hb
  · intro l d hp hhop hl hd hb
    exact rn16Reply_collision_acts hr hp hhop hl hd hb
  · intro x hp hx
    exact rn16Reply_one_acts hr hp hx
  · intro l x hp hl hx
    exact rn16Reply_capture_acts hr hp hl hx
  · intro rn c n hp hn hb
    exact epcReplyMissing_retries hr hp hn hb
  · intro rn c n hp hn
    exact epcReplyMissing_fails hr hp hn
  · intro hl hg
    exact epcReply_of_bad hr hp hl hg
  · intro hl
    exact epcReply_of_late hr hp hl
  · intro hl hg
    exact epcReply_reads hr hp hl hg

end Sys2Proof.Machine

/-! The walk of R163 reads the forest, the weights and the Slate's entries: what changes other registers leaves its answer. -/

namespace Sys2Proof.Machine

/-! ### The registers of the forest -/

/-- The registers that the walk reads: the scheduler's settings and weights, and the windows of read points, Hedges and the link. -/
def walkReads (a : Nat) : Prop := a < 0x60 ∨ (0x1000 ≤ a ∧ a < 0x2000)

/-- Only registers changed, and none that the walk reads. -/
structure SameWalk (s u : State) : Prop where
  state : u = { s with regs := u.regs }
  reads : ∀ a, walkReads a → reg u a = reg s a

/-- A node whose registers are among those of the Hedges' window: a child's code has 8 bits (R28). -/
def WNode.inTree : WNode → Prop
  | .hedge n => n < 192
  | _ => True

namespace SameWalk

variable {s u : State}

theorem refl (s : State) : SameWalk s s := ⟨rfl, fun _ _ => rfl⟩

theorem of_counted (h : Counted resMsp s u) : SameWalk s u :=
  ⟨h.state, fun a ha => h.reg_eq (by simp only [walkReads, Adr.SYS_RES_GRANT, resMsp] at *; omega)⟩

theorem setFld (s : State) {f : Field} (hf : ¬walkReads f.addr) (v : Nat) : SameWalk s (setFld s f v) :=
  ⟨rfl, fun _ ha => reg_setFld_ne s f v fun h => hf (h ▸ ha)⟩

theorem fld_eq (h : SameWalk s u) {f : Field} (hf : walkReads f.addr) : fld u f = fld s f := fld_of_reg_eq (h.reads _ hf)

theorem slate_eq (h : SameWalk s u) : u.slate = s.slate := by rw [h.state]

theorem sched_eq (h : SameWalk s u) : u.sched = s.sched := by rw [h.state]

theorem entryAt_eq (h : SameWalk s u) (i : Nat) : entryAt u i = entryAt s i := by rw [entryAt, h.slate_eq, entryAt]

theorem rpKind_eq (h : SameWalk s u) {n : Nat} (hn : n < 64) : rpKind u n = rpKind s n :=
  h.fld_eq (by simp only [walkReads, Fld.RP_CFG_KIND, Adr.RP_CFG]; omega)

theorem hedgeN_eq (h : SameWalk s u) {n : Nat} (hn : n < 192) : hedgeN u n = hedgeN s n :=
  h.fld_eq (by simp only [walkReads, Fld.HDG_CFG_NCHILD, Adr.HDG_CFG]; omega)

theorem hedgeChild_eq (h : SameWalk s u) {n : Nat} (hn : n < 192) : hedgeChild u n = hedgeChild s n := by
  funext k
  rw [hedgeChild, h.reads _ (by simp only [walkReads, Adr.HDG_CHILD0]; omega),
    h.reads _ (by simp only [walkReads, Adr.HDG_CHILD1]; omega), hedgeChild]

theorem hedgeWeight_eq (h : SameWalk s u) {n : Nat} (hn : n < 192) : hedgeWeight u n = hedgeWeight s n := by
  funext k
  rw [hedgeWeight, h.reads _ (by simp only [walkReads, Adr.HDG_WEIGHT0]; omega),
    h.reads _ (by simp only [walkReads, Adr.HDG_WEIGHT1]; omega), hedgeWeight]

theorem hedgeKids_eq (h : SameWalk s u) {n : Nat} (hn : n < 192) : hedgeKids u n = hedgeKids s n := by
  rw [hedgeKids, h.hedgeN_eq hn, h.hedgeChild_eq hn, hedgeKids]

theorem parentOf_eq (h : SameWalk s u) (code : Nat) : parentOf u code = parentOf s code := by
  unfold parentOf firstBelow
  exact List.find?_congr fun n hn => by rw [h.hedgeKids_eq (by have := List.mem_range.1 hn; omega)]

theorem ancestorsUp_eq (h : SameWalk s u) (d code : Nat) : ancestorsUp u d code = ancestorsUp s d code := by
  induction d generalizing code with
  | zero => rfl
  | succ d ih =>
    rw [ancestorsUp, ancestorsUp, h.parentOf_eq]
    simp only [ih]

theorem ancestors_eq (h : SameWalk s u) : ancestors u = ancestors s := by
  funext code
  unfold ancestors
  exact h.ancestorsUp_eq _ _

theorem isZone_eq (h : SameWalk s u) {n : Nat} (hn : n < 192) : isZone u n = isZone s n := by
  rw [isZone, h.hedgeN_eq hn, h.parentOf_eq, isZone]

/-! ### The tree of weights -/

theorem nodePath_eq (h : SameWalk s u) : nodePath u = nodePath s := by
  funext who
  cases who with
  | entry i =>
    unfold nodePath
    dsimp only
    rw [h.entryAt_eq, h.ancestors_eq]
  | _ => rfl

theorem nodeKids_eq (h : SameWalk s u) {c : WNode} (hc : c.inTree) : nodeKids u c = nodeKids s c := by
  cases c with
  | root =>
    simp only [nodeKids]
    rw [List.filter_congr fun n hn => h.isZone_eq (by have := List.mem_range.1 hn; omega)]
  | hedge n => simp only [nodeKids, h.hedgeKids_eq hc]
  | loose =>
    simp only [nodeKids]
    rw [List.filter_congr fun n hn => by rw [h.rpKind_eq (List.mem_range.1 hn), h.parentOf_eq]]
  | own n => simp only [nodeKids, h.slate_eq]
  | rp n => simp only [nodeKids, h.slate_eq]
  | _ => rfl

end SameWalk

theorem hedgeChild_lt (s : State) (n k : Nat) : hedgeChild s n k < 256 := by
  unfold hedgeChild bitsOf
  rw [show 8 * (k % 4) + 7 + 1 - 8 * (k % 4) = 8 by omega]
  exact Nat.mod_lt _ (by decide)

theorem mem_nodeKids_root {s : State} {n : Nat} (h : WNode.hedge n ∈ nodeKids s .root) : n < 32 := by
  have hzone : n < 32 ∧ isZone s n = true := by simpa [nodeKids] using h
  exact hzone.1

theorem inTree_of_mem_nodeKids {s : State} {p c : WNode} (h : c ∈ nodeKids s p) : c.inTree := by
  cases c with
  | hedge n =>
    cases p with
    | root => exact (mem_nodeKids_root h).trans (by decide)
    | hedge m =>
      simp only [nodeKids, hedgeKids, List.map_map, List.mem_append, List.mem_map, Function.comp_apply] at h
      obtain ⟨k, -, hk⟩ | h := h
      · have hlt := hedgeChild_lt s m k
        split at hk
        · exact absurd hk (by simp)
        · obtain rfl := WNode.hedge.inj hk
          show _ < 192
          omega
      · simp at h
    | _ => simp [nodeKids] at h
  | _ => trivial

/-- A pointer stands at a child, or at none where there is no child. -/
theorem ptrOf_mem (w : Walk) (kids : List WNode) (n : WNode) : ptrOf w kids n ∈ kids ∨ ptrOf w kids n = .root := by
  have hhead : kids.headD .root ∈ kids ∨ kids.headD .root = .root := by
    cases kids with
    | nil => exact .inr rfl
    | cons c l => exact .inl List.mem_cons_self
  unfold ptrOf
  split
  · split
    · next hp => exact .inl (List.contains_iff_mem.1 hp)
    · exact hhead
  · exact hhead

namespace SameWalk

variable {s u : State}

theorem nodeWeight_eq (h : SameWalk s u) {p c : WNode} (hp : p.inTree) (hc : c ∈ nodeKids s p ∨ c = .root) :
    nodeWeight u p c = nodeWeight s p c := by
  rcases hc with hc | rfl
  · cases p with
    | root =>
      cases c with
      | hedge n =>
        have hn := mem_nodeKids_root hc
        simp only [nodeWeight]
        rw [h.reads _ (by simp only [walkReads, Adr.SYS_ZW]; omega)]
      | loose => exact h.fld_eq (.inl (by decide))
      | link => exact h.fld_eq (.inl (by decide))
      | xarb => exact h.fld_eq (.inl (by decide))
      | _ => rfl
    | hedge n => cases c <;> simp only [nodeWeight, h.hedgeN_eq hp, h.hedgeChild_eq hp, h.hedgeWeight_eq hp]
    | _ => rfl
  · cases p <;> rfl

theorem walkView_eq (h : SameWalk s u) (skip : List Consumer) : walkView u skip = walkView s skip := by
  rw [walkView, h.sched_eq, h.nodePath_eq, walkView]

theorem walkFrom_eq (h : SameWalk s u) (v : WalkView) (f : Nat) {node : WNode} (hn : node.inTree) (w : Walk) :
    walkFrom u v f node w = walkFrom s v f node w := by
  induction f generalizing node w with
  | zero => rfl
  | succ f ih =>
    have hptr := ptrOf_mem w (nodeKids s node) node
    have htree : (ptrOf w (nodeKids s node) node).inTree := by
      rcases hptr with hmem | heq
      · exact inTree_of_mem_nodeKids hmem
      · rw [heq]; trivial
    simp only [walkFrom, h.nodeKids_eq hn, h.nodeWeight_eq hn hptr, h.fld_eq (f := Fld.SYS_SCHCFG_QUANTUM) (.inl (by decide)),
      ih hn, ih htree]

theorem drrNext_eq (h : SameWalk s u) : drrNext u = drrNext s := by
  funext skip w
  simp only [drrNext, h.walkView_eq, h.walkFrom_eq _ _ (node := .root) trivial]

/-! ### The head of C2, and the lines of the cache (R163, R243) -/

theorem dataEntry_eq (h : SameWalk s u) : fld u Fld.LNK_DATA_ENTRY = fld s Fld.LNK_DATA_ENTRY :=
  h.fld_eq (.inr (by decide))

theorem headAndNext_eq (h : SameWalk s u) : headAndNext u = headAndNext s := by
  unfold headAndNext
  rw [h.drrNext_eq, h.dataEntry_eq, h.sched_eq]

theorem atHead_eq (h : SameWalk s u) (i : Nat) : atHead u i = atHead s i := by
  unfold atHead
  rw [h.drrNext_eq, h.sched_eq]

theorem linkNames_eq (h : SameWalk s u) (i : Nat) : linkNames u i = linkNames s i := by
  rw [linkNames, h.dataEntry_eq, h.fld_eq (f := Fld.LNK_BCN_ENTRY) (.inr (by decide)), linkNames]

theorem servesC0_eq (h : SameWalk s u) (i : Nat) : servesC0 u i = servesC0 s i := by
  rw [servesC0, h.linkNames_eq, h.sched_eq, show u.clk = s.clk by rw [h.state], servesC0]

theorem servesC1_eq (h : SameWalk s u) (i : Nat) : servesC1 u i = servesC1 s i := by
  rw [h.state]
  rfl

theorem entryHeld_eq (h : SameWalk s u) (i : Nat) : entryHeld u i = entryHeld s i := by
  rw [h.state]
  rfl

theorem lineRank_eq (h : SameWalk s u) : lineRank u = lineRank s := by
  funext near i
  rw [lineRank, h.servesC0_eq, h.servesC1_eq, lineRank]

theorem victimLine_eq (h : SameWalk s u) (i : Nat) : victimLine u i = victimLine s i := by
  unfold victimLine fillRank replaceable
  simp only [h.headAndNext_eq, h.lineRank_eq, h.entryAt_eq, h.entryHeld_eq, h.slate_eq]

end SameWalk

end Sys2Proof.Machine

/-! Slate entries in force and the cache (R240–R245, R248): an entry that comes into force, a fill, and turns on the memory port. -/

namespace Sys2Proof.Machine

/-! ### Turns on the memory port -/

/-- The set of the memory port, the tag store or Flint stands as it was asked for, posted now. -/
theorem asPostedNow_quiet_eq (s : State) {r : Request} {n : Nat} (hn : quietSet n) (hm : r.mask = 2 ^ n) (ha : r.air = .none) :
    asPostedNow s r = { r with posted := s.clk.now } := by
  have hmask : withCoex s r.air r.mask = r.mask := (asPostedNow_quiet s hn hm ha).trans hm.symm
  rw [asPostedNow, hmask]

/-- A turn that has come runs the operation on the state as it is or with its grant counted; a grant that it takes makes a grant
point (R145). Unlike in `turnOr_now`, the operation may move the scheduler, as a fill that fails does. -/
theorem turn_runs {s : State} {r : Request} {n : Nat} (hn : quietSet n) (hm : r.mask = 2 ^ n) (ha : r.air = .none)
    (hw : r.waitedOn = 0) (h : turnNow s r = true) (cmd : Instr) (run wait : State → State) :
    ∃ u, Counted n s u ∧ (turn s r cmd run wait = run u ∨ turn s r cmd run wait = grantPoint (run u)) := by
  have hmask := asPostedNow_quiet s hn hm ha
  have hrf : meets (2 ^ n) rfMask = false := by rcases hn with rfl | rfl | rfl <;> decide
  unfold turn turnOr
  dsimp only
  by_cases hfree : (!arbitrated s || covers (holdsOf s (asPostedNow s r).who) (asPostedNow s r).mask) = true
  · exact ⟨s, .refl n s, .inl (if_pos hfree)⟩
  · have hgrant : (mayPost s (asPostedNow s r).who && atOnce s (asPostedNow s r)) = true :=
      (Bool.or_eq_true_iff.1 h).resolve_left hfree
    refine ⟨_, .incSat n s, .inr ?_⟩
    rw [if_neg hfree, if_pos hgrant, hmask, rfStart, if_neg (by simp [hrf]), rfOver, if_neg (by simp [hrf]),
      countGrant_quiet s hn hmask hw]

/-- An operation that keeps the scheduler takes its turn. -/
theorem TurnTaken.of_runs {s x t : State} (hx : x.sched = s.sched) (ht : t = x ∨ t = grantPoint x) :
    TurnTaken s t ∧ t = { x with sched := t.sched } := by
  rcases ht with rfl | rfl
  · exact ⟨.inl hx, rfl⟩
  · exact ⟨.inr (by rw [← hx]; rfl), rfl⟩

/-- What waits since a state that differs in registers alone waits since this one. -/
theorem TurnWaits.of_sched {s u t : State} {r : Request} {cmd : Instr} (h : TurnWaits u t r cmd) (hs : u.sched = s.sched)
    (hp : asPostedNow u r = asPostedNow s r) : TurnWaits s t r cmd := by
  have hmay : mayPost u r.who = mayPost s r.who := by unfold mayPost posted grantOf; rw [hs]
  obtain ⟨hops, hgrants, hrequests⟩ := h
  exact ⟨hs ▸ hops, hs ▸ hgrants, by rw [hrequests, hmay, hp, hs]⟩

/-! ### Into force (R240, R241, R248) -/

theorem find?_putEntry (l : List (Nat × Entry)) (i j : Nat) (e : Entry) :
    (putEntry l i e).find? (fun p => p.1 == j) = if j = i then some (i, e) else l.find? fun p => p.1 == j := by
  induction l with
  | nil => by_cases hj : j = i <;> simp [putEntry, hj, Ne.symm]
  | cons p l ih =>
    obtain ⟨k, d⟩ := p
    rw [putEntry]
    by_cases hj : j = i
    · subst hj
      rw [if_pos rfl]
      split
      · simp
      · next hk =>
        split
        · simp
        · rw [List.find?_cons_of_neg (by simpa using Ne.symm hk), ih, if_pos rfl]
    · rw [if_neg hj]
      split
      · next hk => subst hk; simp [Ne.symm hj]
      · split
        · simp [Ne.symm hj]
        · rw [List.find?_cons, ih, if_neg hj, List.find?_cons]

/-- What an entry that comes into force leaves alone. -/
theorem entryApply_state (s : State) (i : Nat) (e : Entry) : entryApply s i e =
    { s with slate := (entryApply s i e).slate, brm := (entryApply s i e).brm, sched := (entryApply s i e).sched } := by
  unfold entryApply
  dsimp only
  split
  · rfl
  · split <;> rfl

theorem entryApply_entries (s : State) (i : Nat) (e : Entry) : (entryApply s i e).slate.entries =
    if entryValid e then putEntry (s.slate.entries.filter fun p => p.1 != i) i e
    else s.slate.entries.filter fun p => p.1 != i := by
  unfold entryApply
  dsimp only
  split
  · rfl
  · split <;> rfl

/-- A valid entry is in force from now on, an invalid one leaves its index empty, and no other entry changes (R240). -/
theorem entryAt_entryApply (s : State) (i j : Nat) (e : Entry) :
    entryAt (entryApply s i e) j = if j = i then (if entryValid e then some e else none) else entryAt s j := by
  unfold entryAt
  rw [entryApply_entries]
  split
  · next hv =>
    rw [find?_putEntry, find?_filter_fst s.slate.entries (fun k => k != i)]
    by_cases hj : j = i <;> simp [hj]
  · rw [find?_filter_fst s.slate.entries (fun k => k != i)]
    by_cases hj : j = i <;> simp [hj]

theorem entryAt_congr {s t : State} (h : t.slate.entries = s.slate.entries) (i : Nat) : entryAt t i = entryAt s i := by
  rw [entryAt, h, entryAt]

theorem storedEntry_congr {s u : State} (hs : u.slate.copied = s.slate.copied) (hm : u.mem = s.mem) (i : Nat) :
    storedEntry u i = storedEntry s i := by
  rw [storedEntry, hs, norBytes_congr (congrArg _ hm), storedEntry]

/-! ### Fills (R243–R245) -/

/-- The miss of a fill for the entry at the head is counted (R244). -/
def missCounted (s : State) (i : Nat) : State := if !cached s i && atHead s i then incSat s Fld.SLT_CNT_MISS 1 else s

/-- The lines of the cache after a fill (R243). -/
def filledCache (s : State) (i : Nat) (e : Entry) : List CacheLine :=
  if s.slate.cache.length < 64 then s.slate.cache ++ [{ index := i, bytes := e }]
  else match victimLine s i with
    | none => s.slate.cache
    | some v => s.slate.cache.filter (fun c => c.index != v.index) ++ [{ index := i, bytes := e }]

theorem missCounted_sameWalk (s : State) (i : Nat) : SameWalk s (missCounted s i) := by
  unfold missCounted
  split
  · exact .setFld s (by unfold walkReads; decide) _
  · exact .refl s

theorem missCounted_kept (s : State) (i : Nat) : FldsKept [Fld.SLT_CNT_MISS] s (missCounted s i) := by
  unfold missCounted
  exact .ite (fun _ => (FldsKept.refl _ s).setFld List.mem_cons_self _) fun _ => .refl _ s

theorem fld_missCounted (s : State) (i : Nat) : fld (missCounted s i) Fld.SLT_CNT_MISS =
    if !cached s i && atHead s i then min 0xFFFF (fld s Fld.SLT_CNT_MISS + 1) else fld s Fld.SLT_CNT_MISS := by
  unfold missCounted
  split
  · exact fld_incSat_self _ _ _ (by decide)
  · rfl

theorem cached_eq_false {s : State} {i : Nat} (h : ∀ c ∈ s.slate.cache, c.index ≠ i) : cached s i = false :=
  List.any_eq_false.2 fun c hc => by simpa using h c hc

theorem cacheFill_of_none {s : State} {i : Nat} (h : entryAt s i = none) : cacheFill s i = s := by
  unfold cacheFill
  rw [h]

section Fill

variable {s : State} {i : Nat} {e : Entry}

/-- A fill that reads its entry whole brings it into the cache, and touches the cache alone. -/
theorem cacheFill_brings (he : entryAt s i = some e) (hv : entryValid (storedEntry s i) = true) (hc : cached s i = false) :
    cacheFill s i = { missCounted s i with slate := { s.slate with cache := filledCache s i e } } := by
  have hmiss : (if !cached s i && atHead s i then incSat s Fld.SLT_CNT_MISS 1 else s) = missCounted s i := rfl
  have hslate : (missCounted s i).slate = s.slate := (missCounted_sameWalk s i).slate_eq
  unfold cacheFill filledCache
  rw [he]
  dsimp only
  rw [show (s.slate.cache.any fun c => c.index == i) = cached s i from rfl, hmiss, if_neg (by simp [hv]),
    if_neg (by simp [hc]), hslate, (missCounted_sameWalk s i).victimLine_eq]
  split
  · rfl
  · cases victimLine s i with
    | none => rw [← hslate]
    | some v => rfl

/-- A fill for an entry that is not in force, or that reads whole, leaves the Slate but for the cache's lines, and the registers but
for the misses. -/
theorem cacheFill_sound (h : entryAt s i = none ∨ entryValid (storedEntry s i) = true) (hc : cached s i = false) :
    cacheFill s i = { s with regs := (cacheFill s i).regs, slate := { s.slate with cache := (cacheFill s i).slate.cache } } ∧
      FldsKept [Fld.SLT_CNT_MISS] s (cacheFill s i) := by
  cases he : entryAt s i with
  | none =>
    rw [cacheFill_of_none he]
    exact ⟨rfl, .refl _ s⟩
  | some e =>
    rw [cacheFill_brings he (h.resolve_left (by simp [he])) hc]
    refine ⟨?_, (missCounted_kept s i).regs rfl⟩
    rw [(missCounted_sameWalk s i).state]

/-- A fill whose CRC fails leaves its index empty, counts the failure and reports it (R245). -/
theorem cacheFill_fails (he : entryAt s i = some e) (hw : s.slate.work = none) (hv : entryValid (storedEntry s i) = false) :
    cacheFill s i = fault (incSat (entryApply (missCounted s i) i erasedEntry) Fld.SLT_CNT_CRCERR 1) 0x11 0 0x09
      (leBytes 2 i) := by
  unfold cacheFill
  rw [he, hw]
  dsimp only
  rw [if_pos (by simp [hv])]
  rfl

end Fill

theorem entryValid_erasedEntry : entryValid erasedEntry = false := by decide

theorem SameWalk.filledCache_eq {s u : State} (h : SameWalk s u) (i : Nat) (e : Entry) :
    filledCache u i e = filledCache s i e := by
  rw [filledCache, h.slate_eq, h.victimLine_eq, filledCache]

end Sys2Proof.Machine

/-! Slate entries come into force, become pending and fill the cache (R241–R245, R248). -/

namespace Sys2Proof.Machine

/-! ### The CONFIG record (R472, R475) -/

theorem sltConfig_only (s : State) (i : Nat) (e : Entry) : OnlyFifo [Fld.FIFO_CH_CNT_DROP 8] s (sltConfig s i e) :=
  (OnlyFifo.refl _ s).admitPacket_jnl List.mem_cons_self _

theorem chan_sltConfig_ne (s : State) (i : Nat) (e : Entry) {n : Nat} (h : n ≠ 8) : chan (sltConfig s i e) n = chan s n :=
  chan_admitPacket_ne s h _

/-- An entry that comes into force and is journalled: the record at most counts its drop. -/
theorem sltForce_flds (s : State) (i : Nat) (e : Entry) : FldsKept [Fld.FIFO_CH_CNT_DROP 8] s (sltForce s i e) :=
  ((FldsKept.refl _ s).regs (by rw [entryApply_state])).trans (sltConfig_only (entryApply s i e) i e).2

theorem sltForce_state (s : State) (i : Nat) (e : Entry) : sltForce s i e =
    { s with regs := (sltForce s i e).regs, fresh := (sltForce s i e).fresh, slate := (entryApply s i e).slate
             brm := (entryApply s i e).brm, sched := (entryApply s i e).sched, fifo := (sltForce s i e).fifo } := by
  have hstate := entryApply_state s i e
  have hrecord := (sltConfig_only (entryApply s i e) i e).1
  unfold sltForce
  generalize sltConfig (entryApply s i e) i e = t at hrecord ⊢
  rw [hrecord, hstate]

theorem chan_sltForce_ne (s : State) (i : Nat) (e : Entry) {n : Nat} (h : n ≠ 8) : chan (sltForce s i e) n = chan s n :=
  (chan_sltConfig_ne _ i e h).trans (chan_congr (by rw [entryApply_state]) n)

/-! ### SLATE_ACTIVATE (R248) -/

/-- A command of `SLT_CMD` has ended: its result stands, BUSY and WAITING fall. -/
def sltEnded (s : State) (r : Nat) : State := clrFld (clrFld (sltResult s r) Fld.SLT_STAT_WAITING) Fld.SLT_STAT_BUSY

theorem sltEnded_flds (s : State) {r : Nat} (hr : r < 8) : fld (sltEnded s r) Fld.SLT_STAT_RESULT = r ∧
    fld (sltEnded s r) Fld.SLT_STAT_BUSY = 0 ∧ fld (sltEnded s r) Fld.SLT_STAT_WAITING = 0 := by
  unfold sltEnded
  refine ⟨?_, fld_clrFld_self _ _ (by decide), ?_⟩
  · rw [clrFld, fld_setFld_apart _ _ _ _ (by decide), clrFld, fld_setFld_apart _ _ _ _ (by decide)]
    exact fld_setFld_of_lt s (by decide) hr
  · rw [clrFld, fld_setFld_apart _ _ _ _ (by decide)]
    exact fld_clrFld_self _ _ (by decide)

theorem sltEnded_only (s : State) (r : Nat) :
    OnlyFlds [Fld.SLT_STAT_RESULT, Fld.SLT_STAT_BUSY, Fld.SLT_STAT_WAITING] s (sltEnded s r) :=
  (((OnlyFlds.refl _ s).setFld (by decide) r).setFld (by decide) 0).setFld (by decide) 0

section Activate

variable {s : State} {w : SltWork}

theorem slateActivate_of_ready (hw : s.slate.work = some w) (hr : w.ready = true) (hh : entryHeld s w.index = false) :
    slateActivate s = sltEnded (setWork (sltForce s w.index w.bytes) none) 1 := by
  unfold slateActivate
  rw [hw]
  exact if_pos ⟨hr, by simp [hh]⟩

theorem slateActivate_of_held (hw : s.slate.work = some w) (hh : entryHeld s w.index = true) : slateActivate s = s := by
  unfold slateActivate
  rw [hw]
  exact if_neg fun h => h.2 hh

/-- A written entry that no grant holds comes into force, and its command ends (R248). -/
theorem activate_ends (hw : s.slate.work = some w) (hr : w.ready = true) (hh : entryHeld s w.index = false) :
    ∃ t, exec .slateActivate s = .next t ∧ entryAt t w.index = (if entryValid w.bytes then some w.bytes else none) ∧
      (∀ j, j ≠ w.index → entryAt t j = entryAt s j) ∧ t.slate.work = none ∧ fld t Fld.SLT_STAT_RESULT = 1 ∧
      fld t Fld.SLT_STAT_BUSY = 0 ∧ fld t Fld.SLT_STAT_WAITING = 0 ∧
      (∀ n, n ≠ 8 → chan t n = chan s n) ∧
      FldsKept [Fld.SLT_STAT_RESULT, Fld.SLT_STAT_BUSY, Fld.SLT_STAT_WAITING, Fld.FIFO_CH_CNT_DROP 8] s t ∧
      t = { s with regs := t.regs, fresh := t.fresh, slate := t.slate, brm := t.brm, sched := t.sched, fifo := t.fifo } := by
  have hstate := sltForce_state s w.index w.bytes
  have hflds := sltForce_flds s w.index w.bytes
  have hchan := fun n => chan_sltForce_ne s w.index w.bytes (n := n)
  have hentry := fun j => entryAt_entryApply s w.index j w.bytes
  rw [show exec .slateActivate s = .next (slateActivate s) from rfl, slateActivate_of_ready hw hr hh]
  generalize sltForce s w.index w.bytes = x at hstate hflds hchan ⊢
  have hentries : x.slate.entries = (entryApply s w.index w.bytes).slate.entries := by rw [hstate]
  have hat : ∀ j, entryAt (sltEnded (setWork x none) 1) j = entryAt (entryApply s w.index w.bytes) j :=
    entryAt_congr hentries
  obtain ⟨hresult, hbusy, hwaiting⟩ := sltEnded_flds (setWork x none) (r := 1) (by decide)
  refine ⟨_, rfl, ?_, fun j hj => ?_, rfl, hresult, hbusy, hwaiting, hchan, ?_, ?_⟩
  · rw [hat, hentry, if_pos rfl]
  · rw [hat, hentry, if_neg hj]
  · refine ((hflds.mono ?_).regs rfl).trans ((sltEnded_only (setWork x none) 1).2.mono ?_) <;> simp
  · rw [hstate]
    rfl

end Activate

/-! ### ENTRY_PENDING and CACHE_FILL (R241, R243–R245) -/

theorem entryPending_of_due {s : State} {i : Fin 1024} {e : Entry} (he : entryAt s i = some e) (ha : entryActive e = true)
    (hp : ePeriod e ≠ 0) (hs : i.val ∉ s.slate.pendingSet) (hg : i.val ∉ grantedEntries s) :
    entryPending s i = grantPoint { s with slate := { s.slate with pendingSet := s.slate.pendingSet ++ [i.val] } } := by
  unfold entryPending
  rw [he]
  exact if_pos (by simp [ha, hp, hs, hg])

theorem exec_cacheFill (i : Fin 1024) (s : State) : exec (.cacheFill i) s =
    .next (turn s (mspRequest .slateLoader (fillClass s i)) (.cacheFill i) fun t => cacheFill t i) := rfl

/-- A request of the loader takes its turn on the memory port (R145). -/
theorem loader_runs {s : State} {c : Class} (h : turnNow s (mspRequest .slateLoader c) = true) (cmd : Instr)
    (run wait : State → State) : ∃ u, Counted resMsp s u ∧
      (turn s (mspRequest .slateLoader c) cmd run wait = run u ∨
        turn s (mspRequest .slateLoader c) cmd run wait = grantPoint (run u)) :=
  turn_runs (.inr (.inl rfl)) rfl rfl rfl h cmd run wait

section Fill

variable {s : State} {i : Fin 1024} {e : Entry}

/-- A fill whose turn has not come waits for it (log entry 35). -/
theorem fill_waits (h : turnNow s (mspRequest .slateLoader (fillClass s i)) = false) :
    ∃ t, exec (.cacheFill i) s = .next t ∧ TurnWaits s t (mspRequest .slateLoader (fillClass s i)) (.cacheFill i) ∧
      FldsKept cxFlds s t ∧ t = { s with regs := t.regs, sched := t.sched } := by
  obtain ⟨t, ht, hrest⟩ := turn_waits (w := s) (asPostedNow_quiet_ne_zero s (.inr (.inl rfl)) rfl rfl) rfl
    (FldsKept.refl [] s) (by simp) rfl rfl h (.cacheFill i) (fun t => cacheFill t i) (wait := id) rfl
  exact ⟨t, congrArg Host.Outcome.next ht, hrest⟩

/-- A fill on its turn that reads its entry whole brings it into the cache, and a miss of the head is counted (R243, R244). -/
theorem fill_brings (h : turnNow s (mspRequest .slateLoader (fillClass s i)) = true) (he : entryAt s i = some e)
    (hv : entryValid (storedEntry s i) = true) (hc : cached s i = false) :
    ∃ t, exec (.cacheFill i) s = .next t ∧ TurnTaken s t ∧ t.slate = { s.slate with cache := filledCache s i e } ∧
      fld t Fld.SLT_CNT_MISS = (if atHead s i then min 0xFFFF (fld s Fld.SLT_CNT_MISS + 1) else fld s Fld.SLT_CNT_MISS) ∧
      FldsKept [Fld.SLT_CNT_MISS, Fld.SYS_RES_GRANT_GRANTS resMsp] s t ∧
      t = { s with regs := t.regs, slate := t.slate, sched := t.sched } := by
  obtain ⟨u, hu, ht⟩ := loader_runs h (.cacheFill i) (fun t => cacheFill t i) id
  have hwalk := SameWalk.of_counted hu
  have hmiss := missCounted_sameWalk u i
  have hcached : cached u i = false := by rw [cached, hwalk.slate_eq]; exact hc
  have hcount : fld u Fld.SLT_CNT_MISS = fld s Fld.SLT_CNT_MISS := fld_of_reg_eq (hu.reg_eq (by decide))
  have hfill := cacheFill_brings ((hwalk.entryAt_eq i).trans he)
    ((congrArg entryValid (storedEntry_congr (congrArg _ hwalk.slate_eq) (by rw [hu.state]) i)).trans hv) hcached
  rw [hwalk.slate_eq, hwalk.filledCache_eq] at hfill
  obtain ⟨htaken, hstate⟩ := TurnTaken.of_runs (s := s)
    (by rw [hfill]; exact hmiss.sched_eq.trans hwalk.sched_eq) ht
  rw [exec_cacheFill]
  generalize turn s _ _ _ id = t at hstate htaken
  rw [hfill] at hstate
  have hregs : t.regs = (missCounted u i).regs := by rw [hstate]
  refine ⟨t, rfl, htaken, by rw [hstate], ?_, ?_, ?_⟩
  · rw [fld_congr hregs, fld_missCounted, hcached, hwalk.atHead_eq, hcount]
    rfl
  · exact ((hu.kept.mono (by simp)).trans ((missCounted_kept u i).mono (by simp))).regs hregs
  · rw [hstate, hmiss.state, hu.state]

/-- A fill on its turn whose CRC fails leaves its index empty, and the failure is counted and reported (R245). -/
theorem fill_fails (h : turnNow s (mspRequest .slateLoader (fillClass s i)) = true) (he : entryAt s i = some e)
    (hw : s.slate.work = none) (hv : entryValid (storedEntry s i) = false) :
    ∃ t, exec (.cacheFill i) s = .next t ∧ entryAt t i = none ∧ (∀ j, j ≠ i.val → entryAt t j = entryAt s j) ∧
      fld t Fld.SLT_CNT_CRCERR = min 0xFFFF (fld s Fld.SLT_CNT_CRCERR + 1) ∧ t.mem = s.mem ∧
      FldsKept ([Fld.SLT_CNT_MISS, Fld.SLT_CNT_CRCERR, Fld.SYS_RES_GRANT_GRANTS resMsp] ++ packetFlds) s t := by
  obtain ⟨u, hu, ht⟩ := loader_runs h (.cacheFill i) (fun t => cacheFill t i) id
  have hwalk := SameWalk.of_counted hu
  have hmiss := missCounted_sameWalk u i
  have hfill := cacheFill_fails ((hwalk.entryAt_eq i).trans he) ((congrArg Slate.work hwalk.slate_eq).trans hw)
    ((congrArg entryValid (storedEntry_congr (congrArg _ hwalk.slate_eq) (by rw [hu.state]) i)).trans hv)
  have happly := entryApply_state (missCounted u i) i erasedEntry
  have hempty := entryAt_entryApply (missCounted u i) i (e := erasedEntry)
  generalize entryApply (missCounted u i) i erasedEntry = y at hfill happly hempty
  have hyregs : y.regs = (missCounted u i).regs := by rw [happly]
  have hreport := fault_reports (incSat y Fld.SLT_CNT_CRCERR 1) 0x11 0 0x09 (leBytes 2 i)
  rw [← hfill] at hreport
  rw [exec_cacheFill]
  generalize turn s _ _ _ id = t at ht
  obtain ⟨hregs, hslate, hmem⟩ : t.regs = (cacheFill u i).regs ∧ t.slate = (cacheFill u i).slate ∧
      t.mem = (cacheFill u i).mem := by rcases ht with rfl | rfl <;> exact ⟨rfl, rfl, rfl⟩
  have hentry : ∀ j, entryAt t j = entryAt y j := entryAt_congr (by rw [hslate, hreport.1]; rfl)
  refine ⟨t, rfl, ?_, fun j hj => ?_, ?_, ?_, ?_⟩
  · rw [hentry, hempty, if_pos rfl, entryValid_erasedEntry]
    rfl
  · rw [hentry, hempty, if_neg hj, hmiss.entryAt_eq, hwalk.entryAt_eq]
  · rw [fld_congr hregs, hreport.2.fld_eq (apart_packetFlds (by decide) (by decide) (by decide)),
      fld_incSat_self _ _ _ (by decide), fld_congr hyregs, (missCounted_kept u i).fld_eq (by unfold Field.apart; decide),
      fld_of_reg_eq (hu.reg_eq (by decide))]
    rfl
  · rw [hmem, hreport.1]
    change y.mem = _
    rw [happly, hmiss.state, hu.state]
  · have hcounted : FldsKept [Fld.SLT_CNT_MISS, Fld.SLT_CNT_CRCERR] u (incSat y Fld.SLT_CNT_CRCERR 1) :=
      FldsKept.setFld (((missCounted_kept u i).mono (by simp)).regs hyregs) (by simp) _
    refine (((hu.kept.mono ?_).trans (hcounted.mono ?_)).trans (hreport.2.mono ?_)).regs hregs <;> simp +contextual

end Fill

/-- Settles O23: an entry comes into force once no grant holds it, a periodic entry becomes pending, and a fill on its turn brings
its entry into the cache or leaves its index empty. -/
theorem slateEntriesComeIntoForce : Obligations.SlateEntriesComeIntoForce := by
  unfold Obligations.SlateEntriesComeIntoForce
  refine fun s => ⟨fun w => activate_ends, fun w hw hh => congrArg Host.Outcome.next (slateActivate_of_held hw hh),
    fun i e he => ⟨fun ha hp hs hg => congrArg Host.Outcome.next (entryPending_of_due he ha hp hs hg), fill_waits,
      fun hturn hv hc hroom => ?room, fun hturn hv hc hfull v hvictim => ?full, fun hturn => fill_fails hturn he⟩⟩
  case room =>
    obtain ⟨t, ht, htaken, hslate, hrest⟩ := fill_brings hturn he hv (cached_eq_false hc)
    exact ⟨t, ht, htaken, by rw [hslate, filledCache, if_pos hroom], hrest⟩
  case full =>
    obtain ⟨t, ht, htaken, hslate, -, hrest⟩ := fill_brings hturn he hv (cached_eq_false hc)
    exact ⟨t, ht, htaken, by rw [hslate, filledCache, if_neg (by omega), hvictim], hrest⟩

end Sys2Proof.Machine

/-! The commands of `SLT_CMD` (R242, R246–R249, R251): ignored while BUSY, refused, ended at once, begun, or waiting for a fill. -/

namespace Sys2Proof.Machine

/-! ### Acceptance (R247) -/

/-- The commands of `SLT_CMD` where they are permitted (R131). -/
theorem exec_slt {s : State} {lvl : Level} (h : permitted s lvl Adr.SLT_CMD true = true) (i : Fin 1024) :
    exec (.slateRead lvl i) s = .next (slateRead s lvl i) ∧ exec (.slateErase lvl i) s = .next (slateErase s i) ∧
      exec (.slateWrite lvl i) s = .next (slateWrite s i) :=
  ⟨congrArg next (if_pos h), congrArg next (if_pos h), congrArg next (if_pos h)⟩

theorem sltCommand_busy {s : State} (h : fld s Fld.SLT_STAT_BUSY = 1) (i : Nat) (run : State → State) :
    sltCommand s i run = sltResult s 3 := if_pos (by simp [flag, h])

theorem sltCommand_idle {s : State} (h : fld s Fld.SLT_STAT_BUSY = 0) (i : Nat) (run : State → State) :
    sltCommand s i run = run (setFld s Fld.SLT_STAT_INDEX i) := if_neg (by simp [flag, h])

theorem sltResult_result (s : State) {r : Nat} (hr : r < 8) : fld (sltResult s r) Fld.SLT_STAT_RESULT = r :=
  fld_setFld_of_lt s (by decide) hr

/-- An accepted command shows its index. -/
theorem fld_sltIndex (s : State) (i : Fin 1024) : fld (setFld s Fld.SLT_STAT_INDEX i) Fld.SLT_STAT_INDEX = i :=
  fld_setFld_of_lt s (by decide) i.isLt

theorem sltIndex_sameWalk (s : State) (i : Nat) : SameWalk s (setFld s Fld.SLT_STAT_INDEX i) :=
  .setFld s (by unfold walkReads; decide) i

/-! ### The buffer (R246, R249) -/

theorem length_packWords {n : Nat} {l : List Byte} (h : l.length = 4 * n) : (packWords l).length = n := by
  induction n generalizing l with
  | zero => rw [List.length_eq_zero_iff.1 h]; rfl
  | succ n ih =>
    obtain _ | ⟨a, _ | ⟨b, _ | ⟨c, _ | ⟨d, l⟩⟩⟩⟩ := l
    case cons.cons.cons.cons => rw [packWords, List.length_cons, ih (by simp only [List.length_cons] at h; omega)]
    all_goals
      simp only [List.length_cons, List.length_nil] at h
      omega

theorem zip_range_eq_map {ws : List Word} {n : Nat} (h : ws.length = n) :
    (List.range n).zip ws = (List.range n).map fun k => (k, ws.getD k 0) := by
  subst h
  refine List.ext_getElem (by simp) fun k hk _ => ?_
  have hlt : k < ws.length := by simpa using hk
  simp [List.getElem?_eq_getElem hlt]

def sltBufFlds : List Field := (List.range 16).map fun w => whole (Adr.SLT_BUF w)

theorem sltBuf_injective : Function.Injective Adr.SLT_BUF := fun _ _ h => Nat.add_left_cancel h

theorem sltStat_apart_buf {f : Field} (hf : f.addr = Adr.SLT_STAT) : ∀ g ∈ sltBufFlds, f.apart g := by
  simp only [sltBufFlds, List.mem_map, List.mem_range, forall_exists_index, and_imp, forall_apply_eq_imp_iff₂]
  exact fun w hw => .inl (by simp only [hf, whole, Adr.SLT_STAT, Adr.SLT_BUF]; omega)

/-- The buffer with the words of an entry. -/
def sltBuffered (s : State) (e : Entry) : State :=
  (List.range 16).foldl (fun u w => setReg u (Adr.SLT_BUF w) ((packWords e).getD w 0)) s

theorem slateCopy_eq {s : State} {i : Nat} {e : Entry} (he : (entryAt s i).getD (storedEntry s i) = e) (hl : e.length = 64) :
    slateCopy s i = sltResult (sltBuffered s e) 1 := by
  unfold slateCopy sltBuffered
  rw [he]
  dsimp only
  rw [zip_range_eq_map (length_packWords (n := 16) hl), List.foldl_map]

theorem sltBuffered_only (s : State) (e : Entry) : OnlyFlds sltBufFlds s (sltBuffered s e) :=
  setReg_foldl_only _ _ s fun _ hk => List.mem_map_of_mem hk

/-- What a READ leaves once its entry is at hand: the entry in the buffer, and OK (R249). -/
theorem slateCopy_spec {s : State} {i : Nat} {e : Entry} (he : (entryAt s i).getD (storedEntry s i) = e)
    (hl : e.length = 64) : fld (slateCopy s i) Fld.SLT_STAT_RESULT = 1 ∧
      fld (slateCopy s i) Fld.SLT_STAT_INDEX = fld s Fld.SLT_STAT_INDEX ∧
      (∀ w : Fin 16, reg (slateCopy s i) (Adr.SLT_BUF w) = (packWords e).getD w 0) ∧
      OnlyFlds (Fld.SLT_STAT_RESULT :: sltBufFlds) s (slateCopy s i) := by
  have honly := sltBuffered_only s e
  rw [slateCopy_eq he hl]
  refine ⟨sltResult_result _ (by decide), ?_, fun w => ?_,
    (honly.mono fun _ => List.mem_cons_of_mem _).setFld List.mem_cons_self 1⟩
  · exact (fld_setFld_apart _ _ _ _ (by decide)).trans (honly.2.fld_eq (sltStat_apart_buf rfl))
  · have hne : Adr.SLT_BUF w ≠ Adr.SLT_STAT := by unfold Adr.SLT_BUF Adr.SLT_STAT; omega
    exact (reg_setFld_ne _ _ _ hne).trans ((reg_foldl_setReg sltBuf_injective _ _ s w).trans (if_pos (List.mem_range.2 w.isLt)))

/-! ### READ (R249) -/

section Read

variable {s : State} {i : Fin 1024} {lvl : Level}

theorem slateRead_of_cached (hb : fld s Fld.SLT_STAT_BUSY = 0) (hc : cached s i = true) :
    slateRead s lvl i = slateCopy (setFld s Fld.SLT_STAT_INDEX i) i := (sltCommand_idle hb i _).trans (if_pos hc)

theorem slateRead_of_uncached (hb : fld s Fld.SLT_STAT_BUSY = 0) (hc : cached s i = false) : slateRead s lvl i =
    turn (setFld s Fld.SLT_STAT_INDEX i) (mspRequest .slateLoader .c1) (.slateRead lvl i) (fun u => slateReadFill u i)
      fun u => setFlag u Fld.SLT_STAT_BUSY :=
  (sltCommand_idle hb i _).trans (if_neg (by rw [show cached (setFld s Fld.SLT_STAT_INDEX i) i = cached s i from rfl, hc]; decide))

theorem read_cached (hb : fld s Fld.SLT_STAT_BUSY = 0) (hl : ((entryAt s i).getD (storedEntry s i)).length = 64)
    (hc : cached s i = true) :
    ∃ t, slateRead s lvl i = t ∧ fld t Fld.SLT_STAT_RESULT = 1 ∧ fld t Fld.SLT_STAT_INDEX = i ∧
      (∀ w : Fin 16, reg t (Adr.SLT_BUF w) = (packWords ((entryAt s i).getD (storedEntry s i))).getD w 0) ∧
      OnlyFlds (Fld.SLT_STAT_RESULT :: Fld.SLT_STAT_INDEX :: sltBufFlds) s t := by
  obtain ⟨hresult, hindex, hbuf, hstate, hflds⟩ := slateCopy_spec (s := setFld s Fld.SLT_STAT_INDEX i)
    (show _ = (entryAt s i).getD (storedEntry s i) from rfl) hl
  refine ⟨_, slateRead_of_cached hb hc, hresult, hindex.trans (fld_sltIndex s i), hbuf, hstate, ?_⟩
  exact ((FldsKept.refl _ s).setFld (by simp) i).trans (hflds.mono (by simp +contextual))

/-- A READ after its fill (R249, R244). -/
theorem slateReadFill_spec (hb : fld s Fld.SLT_STAT_BUSY = 0) (hl : ((entryAt s i).getD (storedEntry s i)).length = 64)
    (hc : cached s i = false) (hv : entryAt s i = none ∨ entryValid (storedEntry s i) = true) :
    fld (slateReadFill s i) Fld.SLT_STAT_RESULT = 1 ∧
      fld (slateReadFill s i) Fld.SLT_STAT_INDEX = fld s Fld.SLT_STAT_INDEX ∧
      (∀ w : Fin 16, reg (slateReadFill s i) (Adr.SLT_BUF w) =
        (packWords ((entryAt s i).getD (storedEntry s i))).getD w 0) ∧
      FldsKept (Fld.SLT_STAT_RESULT :: Fld.SLT_CNT_MISS :: sltBufFlds) s (slateReadFill s i) ∧
      ∃ c, slateReadFill s i = { s with
        regs := (slateReadFill s i).regs, fresh := (slateReadFill s i).fresh, slate := { s.slate with cache := c } } := by
  have hclear : FldsKept [] s (clrFld s Fld.SLT_STAT_BUSY) := (FldsKept.refl [] s).setFld_same hb
  obtain ⟨hstate, hmiss⟩ := cacheFill_sound (s := clrFld s Fld.SLT_STAT_BUSY) (i := i) hv hc
  unfold slateReadFill
  generalize cacheFill (clrFld s Fld.SLT_STAT_BUSY) i = x at hstate hmiss
  have hentry : entryAt x i = entryAt s i := entryAt_congr (by rw [hstate]; rfl) i
  have hstored : storedEntry x i = storedEntry s i := storedEntry_congr (by rw [hstate]; rfl) (by rw [hstate]; rfl) i
  obtain ⟨hresult, hindex, hbuf, hcopy, hflds⟩ := slateCopy_spec (s := x) (i := i) (by rw [hentry, hstored]) hl
  refine ⟨hresult, ?_, hbuf, ?_, x.slate.cache, ?_⟩
  · rw [hindex, hmiss.fld_eq (by unfold Field.apart; decide), hclear.fld_eq (by simp)]
  · exact ((hclear.mono (by simp)).trans (hmiss.mono (by simp))).trans (hflds.mono (by simp +contextual))
  · rw [hcopy, hstate]
    rfl

theorem read_fills (hb : fld s Fld.SLT_STAT_BUSY = 0) (hl : ((entryAt s i).getD (storedEntry s i)).length = 64)
    (hc : cached s i = false) (hturn : turnNow (setFld s Fld.SLT_STAT_INDEX i) (mspRequest .slateLoader .c1) = true)
    (hv : entryAt s i = none ∨ entryValid (storedEntry s i) = true) :
    ∃ t, slateRead s lvl i = t ∧ fld t Fld.SLT_STAT_RESULT = 1 ∧ fld t Fld.SLT_STAT_INDEX = i ∧
      (∀ w : Fin 16, reg t (Adr.SLT_BUF w) = (packWords ((entryAt s i).getD (storedEntry s i))).getD w 0) ∧
      t.slate.entries = s.slate.entries ∧ t.slate.work = s.slate.work ∧ TurnTaken s t ∧
      FldsKept (Fld.SLT_STAT_RESULT :: Fld.SLT_STAT_INDEX :: Fld.SLT_CNT_MISS :: Fld.SYS_RES_GRANT_GRANTS resMsp ::
        sltBufFlds) s t ∧
      t = { s with regs := t.regs, fresh := t.fresh, slate := t.slate, sched := t.sched } := by
  obtain ⟨u, hu, ht⟩ := loader_runs hturn (.slateRead lvl i) (fun u => slateReadFill u i)
    fun u => setFlag u Fld.SLT_STAT_BUSY
  have hslate : u.slate = s.slate := by rw [hu.state]; rfl
  have hmem : u.mem = s.mem := by rw [hu.state]; rfl
  have hentry : entryAt u i = entryAt s i := entryAt_congr (congrArg _ hslate) i
  have hstored : storedEntry u i = storedEntry s i := storedEntry_congr (congrArg _ hslate) hmem i
  have hkept : FldsKept [Fld.SLT_STAT_INDEX] s (setFld s Fld.SLT_STAT_INDEX i) :=
    (FldsKept.refl _ s).setFld List.mem_cons_self i
  have hbusy : fld u Fld.SLT_STAT_BUSY = 0 := by
    rw [fld_of_reg_eq (hu.reg_eq (by decide)), hkept.fld_eq (by unfold Field.apart; decide), hb]
  obtain ⟨hresult, hindex, hbuf, hflds, c, hfill⟩ := slateReadFill_spec (s := u) (i := i) hbusy
    (by rw [hentry, hstored]; exact hl) (by rw [cached, hslate]; exact hc) (by rw [hentry, hstored]; exact hv)
  rw [hentry, hstored] at hbuf
  rw [slateRead_of_uncached hb hc]
  generalize turn _ _ _ _ _ = t at ht
  generalize slateReadFill u i = x at ht hresult hindex hbuf hflds hfill
  obtain ⟨htaken, hstate⟩ := TurnTaken.of_runs (s := s) (by rw [hfill, hu.state]; rfl) ht
  have hregs : t.regs = x.regs := by rw [hstate]
  have htslate : t.slate = { s.slate with cache := c } := by rw [hstate, hfill, hslate]
  refine ⟨t, rfl, (fld_congr hregs _).trans hresult, ?_, fun w => ?_, by rw [htslate], by rw [htslate], htaken, ?_, ?_⟩
  · rw [fld_congr hregs, hindex, fld_of_reg_eq (hu.reg_eq (by decide)), fld_sltIndex]
  · rw [← hbuf w, reg, hregs, reg]
  · exact (((hkept.mono (by simp)).trans (hu.kept.mono (by simp))).trans (hflds.mono (by simp +contextual))).regs hregs
  · rw [hstate, hfill, hu.state]
    rfl

theorem read_waits (hb : fld s Fld.SLT_STAT_BUSY = 0) (hc : cached s i = false)
    (hturn : turnNow (setFld s Fld.SLT_STAT_INDEX i) (mspRequest .slateLoader .c1) = false) :
    ∃ t, slateRead s lvl i = t ∧ fld t Fld.SLT_STAT_BUSY = 1 ∧ fld t Fld.SLT_STAT_INDEX = i ∧
      TurnWaits s t (mspRequest .slateLoader .c1) (.slateRead lvl i) ∧
      FldsKept ([Fld.SLT_STAT_BUSY, Fld.SLT_STAT_INDEX] ++ cxFlds) s t ∧
      t = { s with regs := t.regs, fresh := t.fresh, sched := t.sched } := by
  let u := setFld s Fld.SLT_STAT_INDEX i
  have hindexed : FldsKept [Fld.SLT_STAT_INDEX] s u := (FldsKept.refl _ s).setFld List.mem_cons_self i
  have hbusy : FldsKept [Fld.SLT_STAT_BUSY] u (setFlag u Fld.SLT_STAT_BUSY) := (FldsKept.refl _ u).setFlag List.mem_cons_self
  obtain ⟨t, ht, hwaits, hkept, hstate⟩ := turn_waits (s := u) (asPostedNow_quiet_ne_zero u (.inr (.inl rfl)) rfl rfl) rfl
    hbusy (by decide) rfl rfl hturn (.slateRead lvl i) (fun u => slateReadFill u i)
    (wait := fun u => setFlag u Fld.SLT_STAT_BUSY) rfl
  have hposted := asPostedNow_quiet_eq (r := mspRequest .slateLoader .c1) (n := resMsp) (hn := .inr (.inl rfl)) (hm := rfl)
    (ha := rfl)
  refine ⟨t, (slateRead_of_uncached hb hc).trans ht, ?_, ?_,
    hwaits.of_sched (s := s) rfl ((hposted u).trans (hposted s).symm), ?_, ?_⟩
  · rw [hkept.fld_eq (by unfold Field.apart; decide)]
    exact fld_setFld_of_lt u (by decide) (by decide)
  · rw [hkept.fld_eq (by unfold Field.apart; decide), hbusy.fld_eq (by unfold Field.apart; decide), fld_sltIndex]
  · exact ((hindexed.mono (by simp)).trans (hbusy.mono (by simp))).trans (hkept.mono (by simp +contextual))
  · rw [hstate]
    rfl

end Read

/-! ### A rewrite begins, or is not needed (R248) -/

section Start

variable {s : State} {i : Fin 1024} {job : SltJob} {e : Entry}

theorem start_equal (h : storedEntry s i = e) :
    ∃ t, sltStart (setFld s Fld.SLT_STAT_INDEX i) job i e = t ∧ fld t Fld.SLT_STAT_RESULT = 1 ∧
      fld t Fld.SLT_STAT_INDEX = i ∧ FldsKept ([Fld.SLT_STAT_RESULT, Fld.SLT_STAT_INDEX] ++ packetFlds) s t ∧
      t = { s with regs := t.regs, fresh := t.fresh, fifo := t.fifo } := by
  let u := sltResult (setFld s Fld.SLT_STAT_INDEX i) 1
  have hu : OnlyFlds [Fld.SLT_STAT_RESULT, Fld.SLT_STAT_INDEX] s u :=
    ((OnlyFlds.refl _ s).setFld (by simp) i).setFld (by simp) 1
  obtain ⟨hstate, hflds⟩ := sltConfig_only u i e
  have hrecord : ∀ f : Field, f.addr = Adr.SLT_STAT → fld (sltConfig u i e) f = fld u f := fun f hf =>
    hflds.fld_eq fun g hg => .inl (by
      rw [List.mem_singleton.1 hg, hf]
      decide)
  refine ⟨sltConfig u i e, if_pos h, ?_, ?_, ?_, ?_⟩
  · rw [hrecord _ rfl]
    exact sltResult_result _ (by decide)
  · rw [hrecord _ rfl]
    exact (fld_setFld_apart _ _ _ _ (by decide)).trans (fld_sltIndex s i)
  · refine (hu.2.mono fun _ => List.mem_append_left _).trans (hflds.mono fun g hg => List.mem_append_right _ ?_)
    exact List.mem_singleton.1 hg ▸ cntDrop_mem_packetFlds (by decide)
  · rw [hstate, hu.1]

theorem start_begins (h : storedEntry s i ≠ e) :
    ∃ t, sltStart (setFld s Fld.SLT_STAT_INDEX i) job i e = t ∧ fld t Fld.SLT_STAT_BUSY = 1 ∧
      fld t Fld.SLT_STAT_INDEX = i ∧ t.slate = { s.slate with work := some { job := job, index := i, bytes := e } } ∧
      FldsKept [Fld.SLT_STAT_BUSY, Fld.SLT_STAT_INDEX] s t ∧
      t = { s with regs := t.regs, fresh := t.fresh, slate := t.slate } := by
  refine ⟨_, if_neg h, fld_setFld_of_lt _ (by decide) (by decide), ?_, rfl, ?_, rfl⟩
  · exact (fld_setFld_apart _ _ _ _ (by decide)).trans (fld_sltIndex s i)
  · exact (((FldsKept.refl _ s).setFld (by simp) i).regs rfl).setFlag (by simp)

end Start

/-! ### ERASE (R249) -/

section Erase

variable {s : State} {i : Fin 1024}

theorem slateErase_of_named (hb : fld s Fld.SLT_STAT_BUSY = 0) (h : linkNames s i = true) : slateErase s i =
    setFld (sltResult (setFld s Fld.SLT_STAT_INDEX i) 2) Fld.SLT_STAT_REASON rsnInuse :=
  (sltCommand_idle hb i _).trans (if_pos (by rw [(sltIndex_sameWalk s i).linkNames_eq, h]))

theorem slateErase_of_unnamed (hb : fld s Fld.SLT_STAT_BUSY = 0) (h : linkNames s i = false) :
    slateErase s i = sltStart (setFld s Fld.SLT_STAT_INDEX i) .erase i erasedEntry :=
  (sltCommand_idle hb i _).trans (if_neg (by rw [(sltIndex_sameWalk s i).linkNames_eq, h]; decide))

/-- An entry that the link configuration names is not erased. -/
theorem erase_refused (hb : fld s Fld.SLT_STAT_BUSY = 0) (h : linkNames s i = true) :
    ∃ t, slateErase s i = t ∧ fld t Fld.SLT_STAT_RESULT = 2 ∧ fld t Fld.SLT_STAT_REASON = rsnInuse ∧
      fld t Fld.SLT_STAT_INDEX = i ∧
      OnlyFlds [Fld.SLT_STAT_RESULT, Fld.SLT_STAT_INDEX, Fld.SLT_STAT_REASON] s t := by
  refine ⟨_, slateErase_of_named hb h, ?_, fld_setFld_of_lt _ (by decide) (by decide), ?_,
    (((OnlyFlds.refl _ s).setFld (by simp) i).setFld (by simp) 2).setFld (by simp) rsnInuse⟩
  · exact (fld_setFld_apart _ _ _ _ (by decide)).trans (sltResult_result _ (by decide))
  · exact (fld_setFld_apart _ _ _ _ (by decide)).trans ((fld_setFld_apart _ _ _ _ (by decide)).trans (fld_sltIndex s i))

end Erase

/-! ### WRITE (R242, R248) -/

/-- What a refusal of a WRITE shows in `SLT_STAT`, before its fault record. -/
def sltRefused (s : State) (reason : Nat) : State :=
  setFlag (setFld (sltResult s 2) Fld.SLT_STAT_REASON reason) Fld.SLT_STAT_CFG_REJECT

/-- A refusal is reported, and raises the interrupt of R42 or not. -/
theorem sltRefuse_cases (s : State) (i reason : Nat) :
    ∃ detail, sltRefuse s i reason = fault (sltRefused s reason) 0x11 0 0x01 detail ∨
      sltRefuse s i reason = raise (fault (sltRefused s reason) 0x11 0 0x01 detail) 1 := by
  refine ⟨[BitVec.ofNat 8 reason, 0] ++ leBytes 2 i, ?_⟩
  unfold sltRefuse sltReject raiseReject
  dsimp only
  split
  · exact .inr rfl
  · exact .inl rfl

/-- The report of a refusal leaves `SLT_STAT`. -/
theorem fld_sltRefuse (s : State) (i reason : Nat) {f : Field} (hf : f.addr = Adr.SLT_STAT) :
    fld (sltRefuse s i reason) f = fld (sltRefused s reason) f := by
  have hfault : ∀ detail, fld (fault (sltRefused s reason) 0x11 0 0x01 detail) f = fld (sltRefused s reason) f := fun detail =>
    (fault_reports _ _ _ _ detail).2.fld_eq (apart_packetFlds (by rw [hf]; decide) (by rw [hf]; decide) (by rw [hf]; decide))
  obtain ⟨detail, e | e⟩ := sltRefuse_cases s i reason <;> rw [e]
  · exact hfault detail
  · rw [fld_of_reg_eq (reg_raise_ne _ 1 (by rw [hf]; decide) (by rw [hf]; decide)), hfault]

theorem sltRefuse_reports {l : List Field} (hl : [Fld.SLT_STAT_RESULT, Fld.SLT_STAT_REASON, Fld.SLT_STAT_CFG_REJECT,
    intBit 1] ++ packetFlds ⊆ l) {s t : State} (h : OnlyReports l s t) (i reason : Nat) :
    OnlyReports l s (sltRefuse t i reason) := by
  have hmark : OnlyReports l s (sltRefused t reason) :=
    ((h.setFld (hl (by simp)) 2).setFld (hl (by simp)) reason).setFlag (hl (by simp))
  have hpackets : packetFlds ⊆ l := fun _ hg => hl (List.mem_append_right _ hg)
  obtain ⟨detail, e | e⟩ := sltRefuse_cases t i reason <;> rw [e]
  · exact hmark.fault hpackets ..
  · exact (hmark.fault hpackets ..).setFlag (hl (by simp))

section Write

variable {s : State} {i : Fin 1024}

theorem slateWrite_idle (hb : fld s Fld.SLT_STAT_BUSY = 0) : slateWrite s i =
    (let u := setFld s Fld.SLT_STAT_INDEX i
     if eClass (stagedEntry u) = 0 then sltStart u .erase i erasedEntry
     else if slateReason u i (stagedEntry u) ≠ 0 then sltRefuse u i (slateReason u i (stagedEntry u))
     else sltStart u .write i (stagedEntry u)) := sltCommand_idle hb i _

/-- A staged entry that fails a check is refused with its reason (R242, R248). -/
theorem write_refused (hb : fld s Fld.SLT_STAT_BUSY = 0)
    (hclass : 1 ≤ eClass (stagedEntry (setFld s Fld.SLT_STAT_INDEX i)))
    (hwhy : slateReason (setFld s Fld.SLT_STAT_INDEX i) i (stagedEntry (setFld s Fld.SLT_STAT_INDEX i)) ≠ 0) :
    ∃ t, slateWrite s i = t ∧ fld t Fld.SLT_STAT_RESULT = 2 ∧ fld t Fld.SLT_STAT_INDEX = i ∧
      fld t Fld.SLT_STAT_REASON =
        slateReason (setFld s Fld.SLT_STAT_INDEX i) i (stagedEntry (setFld s Fld.SLT_STAT_INDEX i)) % 256 ∧
      fld t Fld.SLT_STAT_CFG_REJECT = 1 ∧
      FldsKept ([Fld.SLT_STAT_RESULT, Fld.SLT_STAT_INDEX, Fld.SLT_STAT_REASON, Fld.SLT_STAT_CFG_REJECT, intBit 1] ++
        packetFlds) s t ∧
      t = { s with regs := t.regs, fresh := t.fresh, fifo := t.fifo, lnk := t.lnk, tag := t.tag } := by
  have hrun := slateWrite_idle (i := i) hb
  dsimp only at hrun
  rw [if_neg (by omega), if_pos hwhy] at hrun
  generalize slateReason _ _ _ = why at hrun
  have hreports := sltRefuse_reports
    (l := [Fld.SLT_STAT_RESULT, Fld.SLT_STAT_INDEX, Fld.SLT_STAT_REASON, Fld.SLT_STAT_CFG_REJECT, intBit 1] ++ packetFlds)
    (by simp +contextual [List.subset_def]) ((OnlyReports.refl _ s).setFld (f := Fld.SLT_STAT_INDEX) (by simp) i) i why
  refine ⟨_, hrun, ?_, ?_, ?_, ?_, hreports.2, hreports.1⟩ <;> rw [fld_sltRefuse _ _ _ rfl]
  · exact (fld_setFld_apart _ _ _ _ (by decide)).trans ((fld_setFld_apart _ _ _ _ (by decide)).trans
      (sltResult_result _ (by decide)))
  · exact (fld_setFld_apart _ _ _ _ (by decide)).trans ((fld_setFld_apart _ _ _ _ (by decide)).trans
      ((fld_setFld_apart _ _ _ _ (by decide)).trans (fld_sltIndex s i)))
  · exact (fld_setFld_apart _ _ _ _ (by decide)).trans (fld_setFld_self _ _ _ (by decide))
  · exact fld_setFld_of_lt _ (by decide) (by decide)

theorem slateWrite_of_passes (hb : fld s Fld.SLT_STAT_BUSY = 0)
    (hclass : 1 ≤ eClass (stagedEntry (setFld s Fld.SLT_STAT_INDEX i)))
    (hwhy : slateReason (setFld s Fld.SLT_STAT_INDEX i) i (stagedEntry (setFld s Fld.SLT_STAT_INDEX i)) = 0) :
    slateWrite s i = sltStart (setFld s Fld.SLT_STAT_INDEX i) .write i (stagedEntry (setFld s Fld.SLT_STAT_INDEX i)) :=
  (slateWrite_idle hb).trans ((if_neg (by omega)).trans (if_neg (not_not.2 hwhy)))

end Write

/-! ### The statement -/

/-- Settles O21: a command of `SLT_CMD` is ignored while BUSY; a READ copies its entry, after a fill where it is not cached, or
waits for it; an ERASE or a WRITE is refused, ends at once, or begins the rewrite. -/
theorem slateCommandsReadEraseAndWrite : Obligations.SlateCommandsReadEraseAndWrite := by
  unfold Obligations.SlateCommandsReadEraseAndWrite
  constructor
  · rintro s u lvl i hperm rfl
    obtain ⟨hread, herase, hwrite⟩ := exec_slt hperm i
    rw [hread, herase, hwrite]
    refine ⟨fun hb => ?busy, fun hb hl hc => ?cached, fun hb hl hc => ⟨fun hturn hv => ?fill, fun hturn => ?waits⟩,
      fun hb hn => ?refused, fun hb hn he => ?erased, fun hb hn he => ?begins⟩
    case busy =>
      exact ⟨_, congrArg _ (sltCommand_busy hb i _), congrArg _ (sltCommand_busy hb i _), congrArg _ (sltCommand_busy hb i _),
        sltResult_result s (by decide), (OnlyFlds.refl _ s).setFld (by simp) 3⟩
    case cached =>
      obtain ⟨t, ht, hrest⟩ := read_cached (lvl := lvl) hb hl hc
      exact ⟨t, congrArg _ ht, hrest⟩
    case fill =>
      obtain ⟨t, ht, hrest⟩ := read_fills (lvl := lvl) hb hl hc hturn hv
      exact ⟨t, congrArg _ ht, hrest⟩
    case waits =>
      obtain ⟨t, ht, hrest⟩ := read_waits (lvl := lvl) hb hc hturn
      exact ⟨t, congrArg _ ht, hrest⟩
    case refused =>
      obtain ⟨t, ht, hrest⟩ := erase_refused hb hn
      exact ⟨t, congrArg _ ht, hrest⟩
    case erased =>
      obtain ⟨t, ht, hrest⟩ := start_equal (job := .erase) he
      exact ⟨t, congrArg _ ((slateErase_of_unnamed hb hn).trans ht), hrest⟩
    case begins =>
      obtain ⟨t, ht, hrest⟩ := start_begins (job := .erase) he
      exact ⟨t, congrArg _ ((slateErase_of_unnamed hb hn).trans ht), hrest⟩
  · rintro s u lvl i hperm hb rfl
    rw [(exec_slt hperm i).2.2]
    refine ⟨fun hclass hwhy => ?refused, fun hclass hwhy he => ?begins, fun hclass hwhy he => ?equal,
      fun hclass => congrArg _ ((slateWrite_idle hb).trans (if_pos hclass))⟩
    case refused =>
      obtain ⟨t, ht, hrest⟩ := write_refused hb hclass hwhy
      exact ⟨t, congrArg _ ht, hrest⟩
    case begins =>
      obtain ⟨t, ht, hrest⟩ := start_begins (job := .write) he
      exact ⟨t, congrArg _ ((slateWrite_of_passes hb hclass hwhy).trans ht), hrest⟩
    case equal =>
      obtain ⟨t, ht, hrest⟩ := start_equal (job := .write) he
      exact ⟨t, congrArg _ ((slateWrite_of_passes hb hclass hwhy).trans ht), hrest⟩

end Sys2Proof.Machine

/-! The channels' accounts and the immediate access (R277, R283, R294). -/

namespace Sys2Proof.Machine

/-! ### Accounts of channels (R283) -/

theorem chan_flushTo (a : Account) (now : Nat) : (a.flushTo now).chan = a.chan := by
  unfold Account.flushTo
  split <;> rfl

/-- CHANNEL_UNBAR of a barred channel whose carrier is off. -/
theorem exec_channelUnbar_of_barred {s : State} {i : Fin 50} {c : Nat} (hc : (profileChans s)[i.val]? = some c)
    (hb : (account s c).barredUntil.isSome = true) (ho : (account s c).onSince = none) :
    exec (.channelUnbar i) s = .next (setAccount s { account s c with barredUntil := none }) := by
  have e : exec (.channelUnbar i) s = execChannelUnbar i s := rfl
  rw [e, execChannelUnbar, hc]
  exact congrArg next (if_pos (by simp [hb, ho]))

/-! ### What the immediate access is checked against (R277) -/

/-- The leaves of a target follow from the children of the Hedges in the forest. -/
theorem leavesDown_congr {s t : State} (h : ∀ n < 32, hedgeKids t n = hedgeKids s n) (d code : Nat) :
    leavesDown t d code = leavesDown s d code := by
  induction d generalizing code with
  | zero => rfl
  | succ d ih =>
    unfold leavesDown
    split
    · rfl
    · split
      · rw [h _ (by omega), funext ih]
      · rfl

/-- Leaves are read points. -/
theorem lt_of_mem_leavesDown (s : State) {d code n : Nat} (h : n ∈ leavesDown s d code) : n < 64 := by
  induction d generalizing code with
  | zero => exact absurd h List.not_mem_nil
  | succ d ih =>
    unfold leavesDown at h
    split at h
    · simp only [List.mem_singleton] at h
      omega
    · split at h
      · obtain ⟨c, -, hc⟩ := List.mem_flatMap.1 h
        exact ih hc
      · exact absurd h List.not_mem_nil

section
variable (s : State) (a : Nat) (v : Word)

/-- The forest's registers lie away from RANGE. -/
theorem hedgeKids_rsvCheck {n : Nat} (hn : n < 32) : hedgeKids (rsvCheck s a v) n = hedgeKids s n := by
  have h : SameWalk s (setFld s Fld.HSP_STAT_RANGE 1) := .setFld s (by unfold walkReads; decide) 1
  unfold rsvCheck
  split
  · exact h.hedgeKids_eq (by omega)
  · rfl

theorem leaves_rsvCheck (code : Nat) : leaves (rsvCheck s a v) code = leaves s code :=
  leavesDown_congr (fun _ hn => hedgeKids_rsvCheck s a v hn) 8 code

theorem entryAt_rsvCheck (i : Nat) : entryAt (rsvCheck s a v) i = entryAt s i := by
  obtain ⟨rs, fr, e⟩ := rsvCheck_frame s a v
  rw [e, entryAt, entryAt]

theorem fld_rsvCheck_ne {f : Field} (hf : f.addr ≠ Adr.HSP_STAT) : fld (rsvCheck s a v) f = fld s f :=
  fld_of_reg_eq (reg_rsvCheck_ne s a v hf)

theorem immReason_rsvCheck (entry target maxTags : Nat) {prog : Nat} (hg : prog < 16) :
    immReason (rsvCheck s a v) entry target prog maxTags = immReason s entry target prog maxTags := by
  have hkinds : ((leaves s target).any fun n => rpKind (rsvCheck s a v) n == 1) =
      (leaves s target).any fun n => rpKind s n == 1 := by
    rw [Bool.eq_iff_iff, List.any_eq_true, List.any_eq_true]
    refine exists_congr fun n => and_congr_right fun hn => ?_
    have hlt : n < 64 := lt_of_mem_leavesDown s hn
    rw [rpKind, fld_rsvCheck_ne s a v (by simp only [Fld.RP_CFG_KIND, Adr.RP_CFG, Adr.HSP_STAT]; omega), rpKind]
  have hop : stepOp (rsvCheck s a v) prog 0 = stepOp s prog 0 := by
    rw [stepOp, reg_rsvCheck_ne _ _ _ (by simp only [Adr.BRM_PG_OP, Adr.HSP_STAT]; omega), stepOp]
  have hprof : profile (rsvCheck s a v) = profile s := fld_rsvCheck_ne s a v (by decide)
  unfold immReason
  rw [entryAt_rsvCheck, leaves_rsvCheck, hkinds, hop, hprof]

end

/-- A check that is passed names an entry that there is. -/
theorem entryAt_of_immReason {s : State} {entry target prog maxTags : Nat} (h : immReason s entry target prog maxTags = 0) :
    ∃ e, entryAt s entry = some e := by
  cases he : entryAt s entry with
  | some e => exact ⟨e, rfl⟩
  | none =>
    rw [immReason, he] at h
    exact absurd (show rsnRef = 0 from h) (by decide)

/-! ### The request (R145, R148, R154, R277) -/

/-- A set that asks for a path is not empty, whatever COEX does to it (R148). -/
theorem testBit_withCoex (s : State) (air : AirUse) {mask : Nat} {p : RfPath} (h : mask.testBit (resPath p) = true) :
    (withCoex s air mask).testBit (resPath p) = true := by
  have hbit : (0x7FE).testBit (resPath p) = true := by cases p <;> decide
  unfold withCoex
  split
  · rw [Nat.testBit_or, h, Bool.true_or]
  · split
    · rw [Nat.testBit_and, h, hbit, Bool.true_and]
    · exact h

/-- The request of an access whose entry is in force: C1, for a path. -/
theorem immRequest_of_entry {s : State} {q : Nat × Nat × Nat × Nat × Nat} {e : Entry} (hq : s.brm.imm = some q)
    (he : entryAt s q.1 = some e) (p : RfPath) :
    ∃ r, immRequest s p = some r ∧ r.who = .hostUhf ∧ r.cls = .c1 ∧ r.freeAt = none ∧ r.mask.testBit (resPath p) = true := by
  obtain ⟨i, target, prog, rx, n⟩ := q
  refine ⟨_, by rw [immRequest, hq]; dsimp only; rw [he], rfl, rfl, rfl, testBit_withCoex s _ ?_⟩
  rw [Nat.testBit_or, Nat.testBit_two_pow_self, Bool.true_or]

/-- What the posting of an accepted access leaves: its request joins the list where its consumer may post, and waits otherwise. -/
theorem immPost_posts {s : State} {q : Nat × Nat × Nat × Nat × Nat} {e : Entry} (hq : s.brm.imm = some q)
    (he : entryAt s q.1 = some e) :
    immPost s = { s with regs := (immPost s).regs, sched := (immPost s).sched } ∧ FldsKept cxFlds s (immPost s) ∧
      (flag s Fld.BRM_IMMSTAT_BUSY = true → mayPost s .hostUhf = true →
        ∃ r, (immPost s).sched.requests = s.sched.requests ++ [r] ∧ r.who = .hostUhf ∧ r.cls = .c1) := by
  obtain ⟨r, hr, hwho, hcls, hfree, hmask⟩ := immRequest_of_entry hq he ((immPaths s).headD .a)
  have hne : (asPostedNow s r).mask ≠ 0 := fun h0 => by
    have := testBit_withCoex s r.air hmask
    simp [show withCoex s r.air r.mask = 0 from h0] at this
  by_cases h : (flag s Fld.BRM_IMMSTAT_BUSY && mayPost s .hostUhf && s.brm.imm.isSome) = true
  · have hmay : mayPost s r.who = true := by
      rw [hwho]
      simp only [Bool.and_eq_true] at h
      exact h.1.2
    have e1 : immPost s = putRequest s (asPostedNow s r) := by
      rw [immPost, if_pos h, hr]
      exact congrArg Prod.fst (postRequest_of_plain hne hmay (.inr hfree))
    rw [e1]
    have hp := putRequest_posts s (asPostedNow s r)
    exact ⟨hp.state, hp.kept, fun _ _ => ⟨_, hp.requests, hwho, hcls⟩⟩
  · have e1 : immPost s = s := if_neg h
    rw [e1]
    exact ⟨rfl, .refl _ s, fun hb hm => absurd (by simp [hb, hm, hq]) h⟩

/-! ### IMMEDIATE_ACCESS (R277, R294) -/

/-- The machine as it has taken an access on: what it is to do, and BUSY with the other figures cleared. -/
def immTaken (s : State) (q : Nat × Nat × Nat × Nat × Nat) : State :=
  setFlag (clrFld (clrFld (clrFld { s with brm := { s.brm with imm := some q } } Fld.BRM_IMMSTAT_TAGS) Fld.BRM_IMMSTAT_RESULT)
    Fld.BRM_IMMSTAT_REASON) Fld.BRM_IMMSTAT_BUSY

theorem immTaken_flds (s : State) (q : Nat × Nat × Nat × Nat × Nat) : FldsKept [whole Adr.BRM_IMMSTAT] s (immTaken s q) := by
  have h0 : FldsKept [whole Adr.BRM_IMMSTAT] s { s with brm := { s.brm with imm := some q } } := .regs (.refl _ s) rfl
  have hset : ∀ {t : State} {f : Field} (n : Nat), f.addr = Adr.BRM_IMMSTAT → FldsKept [whole Adr.BRM_IMMSTAT] s t →
      FldsKept [whole Adr.BRM_IMMSTAT] s (setFld t f n) := fun n hf ht => ht.setReg (hf ▸ List.mem_cons_self) _
  exact (hset 1 rfl (hset 0 rfl (hset 0 rfl (hset 0 rfl h0)))).regs rfl

theorem immTaken_result (s : State) (q : Nat × Nat × Nat × Nat × Nat) :
    fld (immTaken s q) Fld.BRM_IMMSTAT_BUSY = 1 ∧ fld (immTaken s q) Fld.BRM_IMMSTAT_RESULT = 0 := by
  constructor
  · exact fld_setFld_of_lt _ (by decide) (by decide)
  · rw [immTaken, fld_setFlag, fld_setFld_apart _ _ _ _ (by decide), clrFld, fld_setFld_apart _ _ _ _ (by decide)]
    exact fld_clrFld_self _ _ (by decide)

/-- What an access that is refused leaves. -/
theorem immRefuse_result (s : State) (why : Nat) :
    fld (immRefuse s why) Fld.BRM_IMMSTAT_RESULT = 2 ∧ fld (immRefuse s why) Fld.BRM_IMMSTAT_TAGS = 0 ∧
      fld (immRefuse s why) Fld.BRM_IMMSTAT_REASON = why % 256 := by
  refine ⟨?_, ?_, fld_setFld_self _ _ _ (by decide)⟩
  · rw [immRefuse, fld_setFld_apart _ _ _ _ (by decide)]
    exact fld_setFld_of_lt _ (by decide) (by decide)
  · rw [immRefuse, fld_setFld_apart _ _ _ _ (by decide), fld_setFld_apart _ _ _ _ (by decide)]
    exact fld_clrFld_self _ _ (by decide)

section
variable {s : State} {lvl : Level} {v : Word}

theorem exec_immediateAccess (hp : permitted s lvl Adr.BRM_IMM true = true) :
    exec (.immediateAccess lvl v) s = .next (immWrite s v) := congrArg next (if_pos hp)

/-- BUSY does not follow from the check of reserved fields. -/
theorem flag_busy_rsvCheck (s : State) (v : Word) :
    flag (rsvCheck s Adr.BRM_IMM v) Fld.BRM_IMMSTAT_BUSY = flag s Fld.BRM_IMMSTAT_BUSY :=
  flag_rsvCheck_apart s _ v _ (by unfold Field.apart; decide)

/-- Without GO, or while an access runs, nothing is asked for. -/
theorem immWrite_ignored (h : bitsOf v 31 31 = 0 ∨ fld s Fld.BRM_IMMSTAT_BUSY = 1) :
    immWrite s v = rsvCheck s Adr.BRM_IMM v := by
  unfold immWrite
  dsimp only
  split
  · next hgo =>
    have hb : fld s Fld.BRM_IMMSTAT_BUSY = 1 := h.resolve_left (by omega)
    exact if_pos (by rw [flag_busy_rsvCheck]; simp [flag, hb])
  · rfl

/-- GO with no access under way (R277). -/
theorem immWrite_of_go (hgo : bitsOf v 31 31 = 1) (hb : fld s Fld.BRM_IMMSTAT_BUSY = 0) : immWrite s v =
    if immReason s (bitsOf v 30 21) (bitsOf v 20 14) (bitsOf v 13 10) (bitsOf v 5 2) ≠ 0 then
      immRefuse (rsvCheck s Adr.BRM_IMM v) (immReason s (bitsOf v 30 21) (bitsOf v 20 14) (bitsOf v 13 10) (bitsOf v 5 2))
    else immPost (immTaken (rsvCheck s Adr.BRM_IMM v)
      (bitsOf v 30 21, bitsOf v 20 14, bitsOf v 13 10, bitsOf v 9 6, bitsOf v 5 2)) := by
  have hprog : bitsOf v 13 10 < 16 := Nat.mod_lt _ (by decide)
  have hreason := immReason_rsvCheck s Adr.BRM_IMM v (bitsOf v 30 21) (bitsOf v 20 14) (bitsOf v 5 2) hprog
  have hbusy : ¬flag (rsvCheck s Adr.BRM_IMM v) Fld.BRM_IMMSTAT_BUSY = true := by
    rw [flag_busy_rsvCheck]
    simp [flag, hb]
  unfold immWrite immGo
  dsimp only
  rw [if_pos hgo, if_neg hbusy, hreason]
  rfl

/-- An access that fails a check is refused with the reason. -/
theorem immediateAccess_refused (hp : permitted s lvl Adr.BRM_IMM true = true) (hgo : bitsOf v 31 31 = 1)
    (hb : fld s Fld.BRM_IMMSTAT_BUSY = 0)
    (hwhy : immReason s (bitsOf v 30 21) (bitsOf v 20 14) (bitsOf v 13 10) (bitsOf v 5 2) ≠ 0) :
    ∃ t, exec (.immediateAccess lvl v) s = .next t ∧ fld t Fld.BRM_IMMSTAT_RESULT = 2 ∧ fld t Fld.BRM_IMMSTAT_TAGS = 0 ∧
      fld t Fld.BRM_IMMSTAT_REASON =
        immReason s (bitsOf v 30 21) (bitsOf v 20 14) (bitsOf v 13 10) (bitsOf v 5 2) % 256 ∧
      OnlyFlds [Fld.HSP_STAT_RANGE, Fld.BRM_IMMSTAT_RESULT, Fld.BRM_IMMSTAT_TAGS, Fld.BRM_IMMSTAT_REASON] s t := by
  rw [exec_immediateAccess hp, immWrite_of_go hgo hb, if_pos hwhy]
  obtain ⟨hres, htags, hreason⟩ := immRefuse_result (rsvCheck s Adr.BRM_IMM v)
    (immReason s (bitsOf v 30 21) (bitsOf v 20 14) (bitsOf v 13 10) (bitsOf v 5 2))
  refine ⟨_, rfl, hres, htags, hreason, ?_⟩
  exact ((((OnlyFlds.refl _ s).rsvCheck List.mem_cons_self _ v).setFld (by simp) 0).setFld (by simp) 2).setFld (by simp) _

/-- An access that passes them is taken on, and its request posted where its consumer may post. -/
theorem immediateAccess_accepted (hp : permitted s lvl Adr.BRM_IMM true = true) (hgo : bitsOf v 31 31 = 1)
    (hb : fld s Fld.BRM_IMMSTAT_BUSY = 0)
    (hwhy : immReason s (bitsOf v 30 21) (bitsOf v 20 14) (bitsOf v 13 10) (bitsOf v 5 2) = 0) :
    ∃ t, exec (.immediateAccess lvl v) s = .next t ∧ FldsKept [whole Adr.HSP_STAT, whole Adr.BRM_IMMSTAT, whole Adr.SYS_STAT,
        Fld.SYS_SCHCNT3_COLLIDE] s t ∧ t = { s with regs := t.regs, fresh := t.fresh, brm := t.brm, sched := t.sched } ∧
      fld t Fld.BRM_IMMSTAT_BUSY = 1 ∧ fld t Fld.BRM_IMMSTAT_RESULT = 0 ∧
      t.brm.imm = some (bitsOf v 30 21, bitsOf v 20 14, bitsOf v 13 10, bitsOf v 9 6, bitsOf v 5 2) ∧
      (posted s .hostUhf = false → grantOf s .hostUhf = none →
        ∃ q, t.sched.requests = s.sched.requests ++ [q] ∧ q.who = .hostUhf ∧ q.cls = .c1) := by
  obtain ⟨e, he⟩ := entryAt_of_immReason hwhy
  rw [exec_immediateAccess hp, immWrite_of_go hgo hb, if_neg (not_not.2 hwhy)]
  generalize hq : (bitsOf v 30 21, bitsOf v 20 14, bitsOf v 13 10, bitsOf v 9 6, bitsOf v 5 2) = q
  have hentry : entryAt (immTaken (rsvCheck s Adr.BRM_IMM v) q) q.1 = some e := by
    rw [← hq]
    exact (entryAt_rsvCheck s _ v _).trans he
  obtain ⟨rs, fr, hchecked⟩ := rsvCheck_frame s Adr.BRM_IMM v
  have htaken : immTaken (rsvCheck s Adr.BRM_IMM v) q = { s with
      regs := (immTaken (rsvCheck s Adr.BRM_IMM v) q).regs, fresh := (immTaken (rsvCheck s Adr.BRM_IMM v) q).fresh
      brm := { s.brm with imm := some q } } := by
    rw [hchecked]
    rfl
  have hrange : FldsKept [Fld.HSP_STAT_RANGE] s (rsvCheck s Adr.BRM_IMM v) := (FldsKept.refl _ s).rsvCheck (by simp) _ v
  have hflds := immTaken_flds (rsvCheck s Adr.BRM_IMM v) q
  obtain ⟨hbusy, hresult⟩ := immTaken_result (rsvCheck s Adr.BRM_IMM v) q
  generalize immTaken (rsvCheck s Adr.BRM_IMM v) q = u at hentry htaken hflds hbusy hresult ⊢
  obtain ⟨hstate, hkept, hposts⟩ := immPost_posts (s := u) (by rw [htaken]) hentry
  refine ⟨_, rfl, ?_, ?_, ?_, ?_, ?_, fun hnone hfree => ?_⟩
  · refine FldsKept.cover (l := [Fld.HSP_STAT_RANGE] ++ [whole Adr.BRM_IMMSTAT] ++ cxFlds) ?_ (by decide)
    exact ((hrange.mono (by simp)).trans (hflds.mono (by simp))).trans (hkept.mono (List.subset_append_right _ _))
  · rw [hstate, htaken]
  · rw [hkept.fld_eq (by unfold Field.apart; decide), hbusy]
  · rw [hkept.fld_eq (by unfold Field.apart; decide), hresult]
  · rw [hstate, htaken]
  · have hsched : u.sched = s.sched := by rw [htaken]
    have hmay : mayPost u .hostUhf = true := by
      rw [mayPost, posted, grantOf, hsched, ← posted, ← grantOf, hnone, hfree]
      rfl
    rw [← hsched]
    exact hposts (by simp [flag, hbusy]) hmay

end

/-- Settles O34: an unbarred channel and the end of a bin by their equations; an access is ignored, refused or taken on. -/
theorem channelsAndImmediateAccess : Obligations.ChannelsAndImmediateAccess := by
  unfold Obligations.ChannelsAndImmediateAccess
  refine fun s => ⟨?_, ?_, fun lvl v hp => ⟨?_, ?_, ?_⟩⟩
  · intro i c hc hb ho
    exact exec_channelUnbar_of_barred hc hb ho
  · refine ⟨_, rfl, rfl, ?_, ?_, rfl⟩
    · intro a ha
      obtain ⟨b, -, rfl⟩ := List.mem_map.1 ha
      exact ⟨rfl, List.length_take_le _ _⟩
    · rw [List.map_map]
      exact List.map_congr_left fun a _ => chan_flushTo a _
  · intro h
    exact ⟨_, exec_immediateAccess hp, immWrite_ignored h ▸ (OnlyFlds.refl _ s).rsvCheck List.mem_cons_self _ v⟩
  · intro hgo hb hwhy
    exact immediateAccess_refused hp hgo hb hwhy
  · intro hgo hb hwhy
    exact immediateAccess_accepted hp hgo hb hwhy

end Sys2Proof.Machine

/-! The ends of rounds (R258, R264, R285–R290, R295): what they leave, and what the work of rounds cannot undo. -/

namespace Sys2Proof.Machine

/-! ### The parts of a round's end -/

/-- A round's end as it is reported and counted (R289, R290, R295). -/
def roundCounted (s : State) (p : RfPath) (r : Round) (reason : Nat) : State :=
  setFld (setFld (clrFld (incSat (raise (if reportsUax s r then admitPacket s 2 (roundWords s p r reason) else s) 32)
    Fld.BRM_CNT3_ROUNDS 1) (fRun p)) Fld.BRM_STAT_LASTENTRY r.entry) Fld.BRM_STAT_LASTEND reason

/-- The reader without a round, with what the entry's next one follows from (R261, R286, R287). -/
def brmAfter (b : Brm) (now : Nat) (r : Round) (e : Entry) (reason : Nat) : Brm :=
  { b with
    endedAt := some now
    lastChan := if (eChans e).findIdx (fun c => c == r.chan) < (eChans e).length then
        b.lastChan.filter (fun q => q.1 != r.entry) ++ [(r.entry, (eChans e).findIdx fun c => c == r.chan)] else b.lastChan
    altB := if eBits e 55 1 1 = 1 ∧ ¬r.immediate then
        b.altB.filter (fun q => q.1 != r.entry) ++ [(r.entry, !r.targetB)] else b.altB
    holds := if reason = 4 then b.holds ++ [r.entry] else b.holds }

/-- A round that ends for want of a channel is counted as such (R287). -/
def dwellCounted (s : State) (reason : Nat) : State :=
  if reason = 4 then incSat (raise s 34) Fld.BRM_CNT2_DWELLHOLD 1 else s

/-- A round that is over, before its path goes to IDLE. -/
def roundClosed (s : State) (p : RfPath) (r : Round) (reason : Nat) : State :=
  dwellCounted (setRound { roundCounted s p r reason with
    brm := brmAfter (roundCounted s p r reason).brm (roundCounted s p r reason).clk.now r (roundEntry s r) reason } p none) reason

theorem roundEnd_of_round {s : State} {p : RfPath} {r : Round} (h : roundOf (programAbort s p) p = some r) (reason : Nat) :
    roundEnd s p reason = immEnd (pathIdle (roundClosed (programAbort s p) p r reason) p) r reason := by
  unfold roundEnd
  dsimp only
  rw [h]
  rfl

theorem roundEnd_of_none {s : State} {p : RfPath} (h : roundOf (programAbort s p) p = none) (reason : Nat) :
    roundEnd s p reason = programAbort s p := by
  unfold roundEnd
  dsimp only
  rw [h]

/-- No program is under way between slots. -/
theorem programAbort_of_slot {s : State} {p : RfPath} {r : Round} (hr : roundOf s p = some r) (hp : r.phase = .slot) :
    programAbort s p = s := by
  unfold programAbort
  rw [hr]
  dsimp only
  rw [hp]

/-- What the count of a round's end writes. -/
def countedFlds : List Field :=
  [intBit 32, Fld.BRM_STAT_ARUN, Fld.BRM_STAT_BRUN, Fld.BRM_STAT_LASTENTRY, Fld.BRM_STAT_LASTEND, Fld.BRM_CNT3_ROUNDS] ++
    packetFlds

/-- What the count of a round that ends for want of a channel writes. -/
def dwellFlds : List Field := [intBit 34, Fld.BRM_CNT2_DWELLHOLD]

/-- What a round's end writes beside the path and the immediate access. -/
def closedFlds : List Field := countedFlds ++ dwellFlds

/-- What the end of an immediate access writes (R294). -/
def immFlds : List Field := [Fld.BRM_IMMSTAT_BUSY, Fld.BRM_IMMSTAT_RESULT, Fld.BRM_IMMSTAT_TAGS]

/-- What choosing a channel and a leaf writes (R196, R285). -/
def moveFlds : List Field := [Fld.BRM_STAT_SEQPOS, Fld.BRM_CNT3_CHSKIP, fPort .a, fPort .b]

section
variable (s : State) (p : RfPath) (r : Round) (reason : Nat)

theorem reported_fifo : OnlyFifo packetFlds s (if reportsUax s r then admitPacket s 2 (roundWords s p r reason) else s) :=
  OnlyFifo.ite ((OnlyFifo.refl _ s).admitPacket (List.Subset.refl _) (by decide) _) (.refl _ s)

theorem roundCounted_state : roundCounted s p r reason = { s with
    regs := (roundCounted s p r reason).regs, fresh := (roundCounted s p r reason).fresh
    fifo := (roundCounted s p r reason).fifo } := by
  have h := (reported_fifo s p r reason).1
  unfold roundCounted
  generalize (if reportsUax s r then admitPacket s 2 (roundWords s p r reason) else s) = u at h ⊢
  rw [h]
  rfl

theorem roundCounted_flds : FldsKept countedFlds s (roundCounted s p r reason) := by
  have h := (reported_fifo s p r reason).2.mono (m := countedFlds) (List.subset_append_right _ _)
  have hrun : fRun p ∈ countedFlds := by cases p <;> decide
  exact ((((h.raise (by decide)).setFld (f := Fld.BRM_CNT3_ROUNDS) (by decide) _).setFld hrun 0).setFld (by decide) _).setFld
    (by decide) _

theorem regs_setRound (x : Option Round) : (setRound s p x).regs = s.regs := by rw [setRound_brm]

theorem dwellCounted_flds : FldsKept dwellFlds s (dwellCounted s reason) := by
  unfold dwellCounted
  exact .ite (fun _ => ((FldsKept.refl _ s).raise (by decide)).setFld (by decide) _) fun _ => .refl _ s

theorem dwellCounted_brm : (dwellCounted s reason).brm = s.brm := by
  unfold dwellCounted
  split <;> rfl

/-- The registers of a closed round are those of its count, but for what is held back. -/
theorem roundClosed_counted : FldsKept dwellFlds (roundCounted s p r reason) (roundClosed s p r reason) :=
  fun f hf => (dwellCounted_flds _ reason f hf).trans (fld_congr (regs_setRound _ p none) f)

theorem roundClosed_flds : FldsKept closedFlds s (roundClosed s p r reason) :=
  ((roundCounted_flds s p r reason).mono (List.subset_append_left _ _)).trans
    ((roundClosed_counted s p r reason).mono (List.subset_append_right _ _))

theorem roundClosed_brm : (roundClosed s p r reason).brm =
    (setRound { s with brm := brmAfter s.brm s.clk.now r (roundEntry s r) reason } p none).brm := by
  have h := roundCounted_state s p r reason
  rw [roundClosed, dwellCounted_brm]
  generalize roundCounted s p r reason = u at h ⊢
  rw [h]
  cases p <;> rfl

theorem pathIdle_brm : (pathIdle s p).brm = { s.brm with accounts := (pathIdle s p).brm.accounts } :=
  congrArg State.brm (pathIdle_onlyPath s p).state

theorem immEnd_flds : FldsKept immFlds s (immEnd s r reason) := by
  unfold immEnd
  refine .ite (fun _ => .regs ?_ rfl) fun _ => .refl _ s
  exact (((FldsKept.refl immFlds s).setFld (f := Fld.BRM_IMMSTAT_BUSY) (by simp [immFlds]) 0).setFld (by simp [immFlds]) _).setFld
    (by simp [immFlds]) _

theorem immEnd_brm : (immEnd s r reason).brm = { s.brm with imm := (immEnd s r reason).brm.imm } := by
  unfold immEnd
  split <;> rfl

end

/-! ### What the work of rounds cannot undo -/

/-- A value of a field that no part of a round's work changes: no report, no end, no move. -/
structure WorkKeeps (f : Field) (v : Nat) : Prop where
  raised : ∀ s, fld s f = v → fld (raise s 33) f = v
  idle : ∀ s p, fld s f = v → fld (pathIdle s p) f = v
  apart : ∀ g ∈ closedFlds ++ immFlds ++ moveFlds, f.apart g

namespace WorkKeeps

variable {f : Field} {v : Nat} {s t : State} (h : WorkKeeps f v)
include h

theorem kept {l : List Field} (hk : FldsKept l s t) (hl : l ⊆ closedFlds ++ immFlds ++ moveFlds) (hs : fld s f = v) :
    fld t f = v := (hk.fld_eq fun g hg => h.apart g (hl hg)).trans hs

omit h in
theorem setRound (hs : fld s f = v) (p : RfPath) (r : Option Round) : fld (setRound s p r) f = v :=
  (fld_congr (regs_setRound s p r) f).trans hs

theorem programEnd (hs : fld s f = v) (p : RfPath) : fld (programEnd s p) f = v := by
  have hraised : ∀ ws, fld (raise (admitPacket s 2 ws) 33) f = v := fun ws =>
    h.raised _ (h.kept ((OnlyFifo.refl packetFlds s).admitPacket (List.Subset.refl _) (by decide) ws).2 (by decide) hs)
  unfold Machine.programEnd
  split
  · exact hs
  · split
    · refine setRound ?_ p _
      split
      · exact hraised _
      · exact hs
    · exact setRound hs p _

theorem programAbort (hs : fld s f = v) (p : RfPath) : fld (programAbort s p) f = v := by
  unfold Machine.programAbort
  split
  · exact hs
  · split
    · exact h.programEnd (setRound hs p _) p
    · exact h.programEnd (setRound hs p _) p
    · exact hs

theorem roundEnd (hs : fld s f = v) (p : RfPath) (reason : Nat) : fld (roundEnd s p reason) f = v := by
  have hcut := h.programAbort hs p
  cases hr : roundOf (Machine.programAbort s p) p with
  | none => rwa [roundEnd_of_none hr]
  | some r =>
    rw [roundEnd_of_round hr]
    exact h.kept (immEnd_flds _ r reason) (by decide)
      (h.idle _ p (h.kept (roundClosed_flds _ p r reason) (by decide) hcut))

theorem takeFirst (hs : fld s f = v) (i : Nat) (e : Entry) (paired : Bool) (p : RfPath) :
    fld (takeFirst s i e paired p).2 f = v := by
  have hmoved : ∀ n k, fld (chSkip (setFld s Fld.BRM_STAT_SEQPOS n) k) f = v := fun n k =>
    h.kept (((FldsKept.refl moveFlds s).setFld (by simp [moveFlds]) n).setFld (by simp [moveFlds]) _) (by decide) hs
  have hskip : ∀ k, fld (chSkip s k) f = v := fun k =>
    h.kept ((FldsKept.refl moveFlds s).setFld (by simp [moveFlds]) _) (by decide) hs
  unfold Machine.takeFirst
  split
  · split
    · exact hmoved _ _
    · exact hs
  · split
    · exact hskip _
    · exact hs

theorem takeNext (hs : fld s f = v) (e : Entry) (r : Round) (p : RfPath) : fld (takeNext s e r p).2 f = v := by
  have hskip : ∀ k, fld (chSkip s k) f = v := fun k =>
    h.kept ((FldsKept.refl moveFlds s).setFld (by simp [moveFlds]) _) (by decide) hs
  unfold Machine.takeNext
  split
  · exact h.takeFirst hs _ _ _ _
  · dsimp only
    split
    · exact hskip _
    · exact hs

omit h in
/-- Commands on the air change no register. -/
theorem brmSend (hs : fld s f = v) (p : RfPath) (c : AirCmd) : fld (brmSend s p c) f = v := hs

omit h in
theorem sendCycle (hs : fld s f = v) (p : RfPath) (r : Round) (e : Entry) : fld (sendCycle s p r e) f = v :=
  foldl_keeps (fun t => fld t f = v) (fun t k => Machine.brmSend t p (.select (eSelref e) k)) (fun _ _ ht => brmSend ht p _) _ _
    (setRound hs p _)

theorem visitRound (hs : fld s f = v) (p : RfPath) (r : Round) (e : Entry) (leaf : Nat) (rest : List Nat) :
    fld (visitRound s p r e leaf rest) f = v := by
  refine setRound ?_ p _
  split
  · exact hs
  · exact h.kept (assignRp_onlyPath s p leaf).kept (by cases p <;> decide) hs

theorem beginCycle (n : Nat) (hs : fld s f = v) (p : RfPath) : fld (beginCycle n s p) f = v := by
  induction n generalizing s with
  | zero => exact h.roundEnd hs p 4
  | succ n ih =>
    unfold Machine.beginCycle
    split
    · exact hs
    · next r _ =>
      dsimp only
      split
      · exact sendCycle hs p _ _
      · exact h.roundEnd hs p 1
      · split
        · exact h.roundEnd hs p 0
        · exact ih (h.visitRound hs p _ _ _ _)
      · have hnext := h.takeNext hs (roundEntry s r) r p
        split
        · exact h.roundEnd hnext p 4
        · split
          · exact h.roundEnd hnext p 4
          · exact ih (setRound hnext p _)

theorem hopNow (hs : fld s f = v) (p : RfPath) (stay : Bool) : fld (hopNow s p stay).1 f = v := by
  unfold Machine.hopNow
  split
  · exact hs
  · next r _ =>
    have hnext := h.takeNext hs (roundEntry s r) r p
    dsimp only
    split
    · exact h.roundEnd hnext p 4
    · split
      · exact h.beginCycle _ (setRound hnext p _) p
      · split
        · exact setRound hnext p _
        · exact h.roundEnd hnext p 4

theorem cycleStart (hs : fld s f = v) (p : RfPath) : fld (cycleStart s p) f = v := by
  unfold Machine.cycleStart
  split
  · exact hs
  · split
    · dsimp only
      split
      · exact h.beginCycle _ (h.hopNow hs p true) p
      · exact h.hopNow hs p true
    · exact h.beginCycle _ hs p

theorem visitEnd (hs : fld s f = v) (p : RfPath) : fld (visitEnd s p) f = v := by
  unfold Machine.visitEnd
  split
  · exact hs
  · split
    · exact h.roundEnd hs p 0
    · exact h.cycleStart (h.visitRound hs p _ _ _ _) p

theorem stopWork (hs : fld s f = v) (p : RfPath) (why : BrmStop) : fld (stopWork s p why) f = v := by
  cases why with
  | lease => exact h.roundEnd hs p 1
  | visit => exact h.visitEnd hs p
  | channel => exact h.hopNow hs p false

theorem nextSlot (hs : fld s f = v) (p : RfPath) (r : Round) (e : Entry) : fld (nextSlot s p r e) f = v := by
  unfold Machine.nextSlot
  dsimp only
  split
  · exact h.stopWork (setRound hs p _) p _
  · exact setRound hs p _

/-- The end of a slot that yielded a read counts nothing. -/
theorem slotEnd_read (hs : fld s f = v) (p : RfPath) : fld (slotEnd s p .read) f = v := by
  unfold slotEnd
  split
  · exact hs
  · next r0 _ =>
    dsimp only [countSlot]
    have h2 := setRound hs p (some { r0 with empties := 0, phase := .slot })
    split
    · split
      · exact h.visitEnd h2 p
      · exact h.cycleStart h2 p
    · split
      · split
        · exact h.nextSlot (h.hopNow h2 p true) p _ _
        · exact h.hopNow h2 p true
      · exact h.nextSlot h2 p _ _

end WorkKeeps

theorem fCarr_apart_closed (p : RfPath) : ∀ g ∈ closedFlds ++ immFlds ++ moveFlds, (fCarr p).apart g := by
  unfold Field.apart
  cases p <;> decide

theorem fCarr_apart_otherSettle (p : RfPath) : ∀ g ∈ settleFlds (otherPath p), (fCarr p).apart g := by
  unfold Field.apart
  cases p <;> decide

/-- Raising an interrupt leaves the carriers. -/
theorem fCarr_raise (s : State) (p : RfPath) (k : Nat) : fld (raise s k) (fCarr p) = fld s (fCarr p) := by
  have h0 : (fCarr p).addr ≠ Adr.HSP_INT0 := by cases p <;> decide
  have h1 : (fCarr p).addr ≠ Adr.HSP_INT1 := by cases p <;> decide
  exact fld_of_reg_eq (reg_raise_ne s k h0 h1)

/-- A carrier that is off stays off as a path goes to IDLE. -/
theorem fCarr_pathIdle_of_off {s : State} {p : RfPath} (h : fld s (fCarr p) = 0) (q : RfPath) :
    fld (pathIdle s q) (fCarr p) = 0 := by
  by_cases e : q = p
  · subst e
    by_cases h0 : pathState s q = 0
    · rwa [pathIdle, if_pos h0]
    · exact (pathIdle_idle h0).2
  · obtain rfl := eq_otherPath_of_ne e
    rwa [(pathIdle_onlyPath s _).kept.fld_eq (fCarr_apart_otherSettle p)]

/-- No work of a round brings a carrier up. -/
theorem workKeeps_carrierOff (p : RfPath) : WorkKeeps (fCarr p) 0 where
  raised s h := (fCarr_raise s p 33).trans h
  idle _ q h := fCarr_pathIdle_of_off h q
  apart := fCarr_apart_closed p

/-- No work of a round takes the interrupt of a program's report back. -/
theorem workKeeps_uaxResult : WorkKeeps (intBit 33) 1 where
  raised s _ := by simpa [flag] using flag_raise_self s 33 (by decide)
  idle s p h := by
    rwa [(pathIdle_onlyPath s p).kept.fld_eq (by unfold Field.apart; cases p <;> decide)]
  apart := by unfold Field.apart; decide

end Sys2Proof.Machine

/-! VISIT_END, HOP_INTERVAL and REGULATORY_DEADLINE (R258, R259, R264, R283, R285, R287, R295). -/

namespace Sys2Proof.Machine

/-! ### A round that has ended -/

/-- What a round's end leaves to be read: the path's round gone and the path IDLE, the counts and the status, the immediate access
over, and the entry held back where it was a channel that failed. -/
structure RoundEnded (p : RfPath) (s t : State) (r : Round) (reason : Nat) : Prop where
  gone : roundOf t p = none
  other : roundOf t (otherPath p) = roundOf s (otherPath p)
  run : fld t (fRun p) = 0
  entry : r.entry < 1024 → fld t Fld.BRM_STAT_LASTENTRY = r.entry
  last : fld t Fld.BRM_STAT_LASTEND = reason
  rounds : fld t Fld.BRM_CNT3_ROUNDS = min 0xFFFF (fld s Fld.BRM_CNT3_ROUNDS + 1)
  done : flag t (intBit 32) = true
  idle : pathState s p ≠ 0 → pathState t p = 1
  carrier : fld t (fCarr p) = if pathState s p = 0 then fld s (fCarr p) else 0
  imm : r.immediate = true → reason ≠ 3 → fld t Fld.BRM_IMMSTAT_BUSY = 0 ∧ t.brm.imm = none ∧
    fld t Fld.BRM_IMMSTAT_RESULT = if reason = 0 then (if r.maxTags ≤ r.tagsOk then 1 else 4) else 3
  held : reason = 4 → fld t Fld.BRM_CNT2_DWELLHOLD = min 0xFFFF (fld s Fld.BRM_CNT2_DWELLHOLD + 1) ∧
    flag t (intBit 34) = true ∧ r.entry ∈ t.brm.holds

theorem roundOf_congr {s t : State} (ha : t.brm.a = s.brm.a) (hb : t.brm.b = s.brm.b) (q : RfPath) : roundOf t q = roundOf s q := by
  cases q
  · exact ha
  · exact hb

/-- The counts of a round's end, as they stand when it is counted. -/
theorem roundCounted_values (s : State) (p : RfPath) (r : Round) {reason : Nat} (h16 : reason < 16) :
    fld (roundCounted s p r reason) (fRun p) = 0 ∧
      (r.entry < 1024 → fld (roundCounted s p r reason) Fld.BRM_STAT_LASTENTRY = r.entry) ∧
      fld (roundCounted s p r reason) Fld.BRM_STAT_LASTEND = reason ∧
      fld (roundCounted s p r reason) Fld.BRM_CNT3_ROUNDS = min 0xFFFF (fld s Fld.BRM_CNT3_ROUNDS + 1) ∧
      flag (roundCounted s p r reason) (intBit 32) = true := by
  have hrun : ∀ f ∈ [Fld.BRM_STAT_LASTENTRY, Fld.BRM_STAT_LASTEND, Fld.BRM_CNT3_ROUNDS, intBit 32],
      (fRun p).addr ≠ f.addr ∨ (fRun p).hi < f.lo ∨ f.hi < (fRun p).lo := by cases p <;> decide
  have hother : ∀ f ∈ [Fld.BRM_CNT3_ROUNDS, intBit 32], f.addr ≠ (fRun p).addr := by cases p <;> decide
  have hrounds := (reported_fifo s p r reason).2.fld_eq (f := Fld.BRM_CNT3_ROUNDS) (by unfold Field.apart; decide)
  unfold roundCounted
  generalize (if reportsUax s r then admitPacket s 2 (roundWords s p r reason) else s) = u at hrounds ⊢
  refine ⟨?_, fun he => ?_, fld_setFld_of_lt _ (by decide) h16, ?_, ?_⟩
  · rw [fld_setFld_apart _ _ _ _ (hrun _ (by simp)), fld_setFld_apart _ _ _ _ (hrun _ (by simp))]
    exact fld_clrFld_self _ _ (by cases p <;> decide)
  · rw [fld_setFld_apart _ _ _ _ (by decide)]
    exact fld_setFld_of_lt _ (by decide) he
  · rw [fld_setFld_ne _ _ _ _ (by decide), fld_setFld_ne _ _ _ _ (by decide), clrFld,
      fld_setFld_ne _ _ _ _ (hother _ (by simp)), fld_incSat_self _ _ _ (by decide), ← hrounds]
    exact congrArg (fun n => min 0xFFFF (n + 1)) (fld_of_reg_eq (reg_raise_ne u 32 (by decide) (by decide)))
  · rw [flag, fld_setFld_ne _ _ _ _ (by decide), fld_setFld_ne _ _ _ _ (by decide), clrFld,
      fld_setFld_ne _ _ _ _ (hother _ (by simp)), incSat, fld_setFld_ne _ _ _ _ (by decide), ← flag]
    exact flag_raise_self u 32 (by decide)

theorem immEnd_over {r : Round} (s : State) (hi : r.immediate = true) {reason : Nat} (h3 : reason ≠ 3) :
    fld (immEnd s r reason) Fld.BRM_IMMSTAT_BUSY = 0 ∧ (immEnd s r reason).brm.imm = none ∧
      fld (immEnd s r reason) Fld.BRM_IMMSTAT_RESULT = if reason = 0 then (if r.maxTags ≤ r.tagsOk then 1 else 4) else 3 := by
  have h8 : (if reason = 0 then (if r.maxTags ≤ r.tagsOk then 1 else 4) else 3) < 8 := by
    (repeat' split) <;> decide
  obtain ⟨hbusy, hresult, hnone⟩ := immOver_fields s h8 r.tagsOk
  rw [immEnd, if_pos ⟨hi, h3⟩]
  exact ⟨hbusy, hnone, hresult⟩

/-- A round without a channel is counted, and its entry's next ones are held back (R287). -/
theorem dwellCounted_values (s : State) :
    fld (dwellCounted s 4) Fld.BRM_CNT2_DWELLHOLD = min 0xFFFF (fld s Fld.BRM_CNT2_DWELLHOLD + 1) ∧
      flag (dwellCounted s 4) (intBit 34) = true := by
  constructor
  · rw [dwellCounted, if_pos rfl, fld_incSat_self _ _ _ (by decide)]
    exact congrArg (fun n => min 0xFFFF (n + 1)) (fld_of_reg_eq (reg_raise_ne s 34 (by decide) (by decide)))
  · rw [dwellCounted, if_pos rfl, flag, incSat, fld_setFld_ne _ _ _ _ (by decide), ← flag]
    exact flag_raise_self s 34 (by decide)

theorem roundClosed_dwell (s : State) (p : RfPath) (r : Round) :
    fld (roundClosed s p r 4) Fld.BRM_CNT2_DWELLHOLD = min 0xFFFF (fld s Fld.BRM_CNT2_DWELLHOLD + 1) ∧
      flag (roundClosed s p r 4) (intBit 34) = true := by
  obtain ⟨hcount, hint⟩ := dwellCounted_values (setRound { roundCounted s p r 4 with
    brm := brmAfter (roundCounted s p r 4).brm (roundCounted s p r 4).clk.now r (roundEntry s r) 4 } p none)
  refine ⟨hcount.trans ?_, hint⟩
  rw [fld_congr (regs_setRound _ p none)]
  exact congrArg (fun n => min 0xFFFF (n + 1)) ((roundCounted_flds s p r 4).fld_eq (by unfold Field.apart; decide))

section
variable {s : State} {p : RfPath} {r : Round} (hr : roundOf s p = some r) (hp : r.phase = .slot) (reason : Nat)
include hr hp

theorem roundEnd_of_slot : roundEnd s p reason = immEnd (pathIdle (roundClosed s p r reason) p) r reason := by
  have hcut := programAbort_of_slot hr hp
  rw [roundEnd_of_round (by rw [hcut, hr]), hcut]

/-- Behind the fall to IDLE comes the immediate access alone. -/
theorem roundEnd_idle : FldsKept immFlds (pathIdle (roundClosed s p r reason) p) (roundEnd s p reason) := by
  rw [roundEnd_of_slot hr hp]
  exact immEnd_flds _ r reason

/-- Behind the closed round come the path and the immediate access. -/
theorem roundEnd_closed : FldsKept (settleFlds p ++ immFlds) (roundClosed s p r reason) (roundEnd s p reason) :=
  ((pathIdle_onlyPath _ p).kept.mono (List.subset_append_left _ _)).trans
    ((roundEnd_idle hr hp reason).mono (List.subset_append_right _ _))

/-- Behind the count comes what is held back as well. -/
theorem roundEnd_counted : FldsKept (dwellFlds ++ (settleFlds p ++ immFlds)) (roundCounted s p r reason) (roundEnd s p reason) :=
  ((roundClosed_counted s p r reason).mono (List.subset_append_left _ _)).trans
    ((roundEnd_closed hr hp reason).mono (List.subset_append_right _ _))

theorem roundEnd_brm : (roundEnd s p reason).brm = { (roundClosed s p r reason).brm with
    accounts := (roundEnd s p reason).brm.accounts, imm := (roundEnd s p reason).brm.imm } := by
  rw [roundEnd_of_slot hr hp, immEnd_brm, pathIdle_brm]

theorem roundOf_roundEnd (q : RfPath) : roundOf (roundEnd s p reason) q = roundOf (setRound s p none) q := by
  have hbrm := roundEnd_brm hr hp reason
  refine roundOf_congr ?_ ?_ q
  · rw [hbrm, roundClosed_brm]
    cases p <;> rfl
  · rw [hbrm, roundClosed_brm]
    cases p <;> rfl

/-- The round's path is IDLE unless it is off, and radiates nothing. -/
theorem path_roundEnd : (pathState s p ≠ 0 → pathState (roundEnd s p reason) p = 1) ∧
    fld (roundEnd s p reason) (fCarr p) = if pathState s p = 0 then fld s (fCarr p) else 0 := by
  have hclosed := roundClosed_flds s p r reason
  have hidle := roundEnd_idle hr hp reason
  have hstate : pathState (roundClosed s p r reason) p = pathState s p :=
    hclosed.fld_eq (by unfold Field.apart; cases p <;> decide)
  have hcarr : fld (roundClosed s p r reason) (fCarr p) = fld s (fCarr p) :=
    hclosed.fld_eq (by unfold Field.apart; cases p <;> decide)
  have hpath : pathState (roundEnd s p reason) p = pathState (pathIdle (roundClosed s p r reason) p) p :=
    hidle.fld_eq (by unfold Field.apart; cases p <;> decide)
  rw [hpath, hidle.fld_eq (by unfold Field.apart; cases p <;> decide), ← hstate, ← hcarr]
  refine ⟨fun h0 => (pathIdle_idle h0).1, ?_⟩
  split
  · next h0 => rw [pathIdle, if_pos h0]
  · next h0 => exact (pathIdle_idle h0).2

/-- A round that ends between slots. -/
theorem roundEnd_ended {reason : Nat} (h16 : reason < 16) : RoundEnded p s (roundEnd s p reason) r reason := by
  have hcounted := roundEnd_counted hr hp reason
  obtain ⟨hrun, hentry, hlast, hrounds, hdone⟩ := roundCounted_values s p r h16
  obtain ⟨hidle, hcarrier⟩ := path_roundEnd hr hp reason
  refine ⟨?_, ?_, ?_, fun he => ?_, ?_, ?_, ?_, hidle, hcarrier, fun hi h3 => ?_, fun h4 => ?_⟩
  · rw [roundOf_roundEnd hr hp, roundOf_setRound_self]
  · rw [roundOf_roundEnd hr hp, roundOf_setRound_other]
  · rw [hcounted.fld_eq (by unfold Field.apart; cases p <;> decide), hrun]
  · rw [hcounted.fld_eq (by unfold Field.apart; cases p <;> decide), hentry he]
  · rw [hcounted.fld_eq (by unfold Field.apart; cases p <;> decide), hlast]
  · rw [hcounted.fld_eq (by unfold Field.apart; cases p <;> decide), hrounds]
  · rw [hcounted.flag_eq (by unfold Field.apart; cases p <;> decide), hdone]
  · rw [roundEnd_of_slot hr hp]
    exact immEnd_over _ hi h3
  · subst h4
    obtain ⟨hcount, hint⟩ := roundClosed_dwell s p r
    have hclosed := roundEnd_closed hr hp 4
    refine ⟨?_, ?_, ?_⟩
    · rw [hclosed.fld_eq (by unfold Field.apart; cases p <;> decide), hcount]
    · rw [hclosed.flag_eq (by unfold Field.apart; cases p <;> decide), hint]
    · rw [roundEnd_brm hr hp, roundClosed_brm]
      cases p <;> simp [setRound, brmAfter]

end

/-! ### The rows -/

/-- A row in which the path's round ends brings a boundary (R38, R39). -/
theorem row_of_gone {s : State} {p : RfPath} {r : Round} {run : State → State} (hr : roundOf s p = some r)
    (h : roundOf (run s) p = none) : row s run = settle (run s) := by
  have hw : workEnded s (run s) = true := by
    unfold workEnded
    cases p
    · simp only [roundOf] at hr h
      simp [hr, h]
    · simp only [roundOf] at hr h
      simp [hr, h]
  exact if_pos hw

/-- A new step of the reader is among what a round moves. -/
theorem RoundMove.quieted (s : State) : RoundMove s (brmQuiet s) := (RoundMove.refl s).setBrm _

/-- The work of a round is among the fields that the statements list. -/
theorem RoundMove.listed {s t : State} (h : RoundMove s t) : FldsKept (roundFlds ++ sendFlds) s t :=
  h.kept.cover fun g hg => workFlds_covered g (List.mem_cons_of_mem _ (List.mem_cons_of_mem _ hg))

section
variable {s : State} {p : RfPath} {r : Round} (hr : roundOf s p = some r)
include hr

/-- VISIT_END on the last leaf (R258, R295). -/
theorem visitEnd_last (hp : r.phase = .slot) (hl : r.leaves = []) :
    exec (.visitEnd p) s = .next (settle (roundEnd (brmQuiet s) p 0)) := by
  have hquiet : roundOf (brmQuiet s) p = some r := by rw [roundOf_brmQuiet, hr]
  have e : visitEnd (programAbort (brmQuiet s) p) p = roundEnd (brmQuiet s) p 0 := by
    rw [programAbort_of_slot hquiet hp, visitEnd, hquiet]
    dsimp only
    rw [hl]
  have hgone := (roundEnd_ended hquiet hp (reason := 0) (by decide)).gone
  rw [← e] at hgone ⊢
  exact congrArg next (row_of_gone (run := fun t => visitEnd (programAbort (brmQuiet t) p) p) hr hgone)

/-- HOP_INTERVAL marks the round (R285). -/
theorem hopInterval_marks : exec (.hopInterval p) s = .next (setRound (brmQuiet s) p (some { r with hopDue := true })) := by
  have hquiet : roundOf (brmQuiet s) p = some r := by rw [roundOf_brmQuiet, hr]
  refine congrArg next ?_
  rw [hopInterval, hquiet]

/-- REGULATORY_DEADLINE takes the carrier off, and what follows leaves it off (R283, R287). -/
theorem regulatoryDeadline_acts :
    ∃ t, exec (.regulatoryDeadline p) s = .next (row s fun _ => t) ∧ fld t (fCarr p) = 0 ∧ FldsKept (roundFlds ++ sendFlds) s t ∧
      t = { s with regs := t.regs, fresh := t.fresh, brm := t.brm, cal := t.cal, fifo := t.fifo, radio := t.radio } := by
  have e : channelDeadline (brmQuiet s) p = (hopNow (programAbort (carrierOff (brmQuiet s) p) p) p false).1 := by
    rw [channelDeadline, roundOf_brmQuiet, hr]
  have hkeeps := workKeeps_carrierOff p
  have hmove : RoundMove s (channelDeadline (brmQuiet s) p) := by
    rw [e]
    exact (((RoundMove.quieted s).carrierOff p).programAbort p).hopNow p false
  refine ⟨channelDeadline (brmQuiet s) p, congrArg next (row_const s _), ?_, hmove.listed, by rw [hmove.state]⟩
  rw [e]
  exact hkeeps.hopNow (hkeeps.programAbort (fld_fCarr_carrierOff _ p) p) p false

end

/-! ### A hop that finds no channel (R285, R287) -/

/-- A choice that finds no channel changes nothing. -/
theorem takeFirst_of_none {s : State} {i : Nat} {e : Entry} {paired : Bool} {p : RfPath} :
    (takeFirst s i e paired p).1 = none → (takeFirst s i e paired p).2 = s := by
  unfold takeFirst
  split
  · split
    · exact fun h => nomatch h
    · exact fun _ => rfl
  · split
    · exact fun h => nomatch h
    · exact fun _ => rfl

theorem takeNext_of_none {s : State} {e : Entry} {r : Round} {p : RfPath} :
    (takeNext s e r p).1 = none → (takeNext s e r p).2 = s := by
  unfold takeNext
  split
  · exact takeFirst_of_none
  · dsimp only
    split
    · exact fun h => nomatch h
    · exact fun _ => rfl

/-- A slot that ends with a hop due ends the round where no channel is left. -/
theorem slotEnd_dwells {s : State} {p : RfPath} {r0 : Round} (hr : roundOf s p = some r0) {o : SlotOutcome} {s1 : State} {d : Round}
    (hc : countSlot s (roundEntry s r0) r0 o = (s1, d)) (ho : ¬(o = .empty ∧ d.empties = fld s Fld.BRM_Q_ENDEMPTY))
    (hp : d.phase = .slot) (hhop : d.hopDue = true)
    (hnone : (takeNext (setRound s1 p (some d)) (roundEntry (setRound s1 p (some d)) d) d p).1 = none) :
    slotEnd s p o = roundEnd (setRound s1 p (some d)) p 4 := by
  have hd : { d with phase := .slot } = d := by rw [← hp]
  have hhopNow : hopNow (setRound s1 p (some d)) p true = (roundEnd (setRound s1 p (some d)) p 4, false) := by
    unfold hopNow
    rw [roundOf_setRound_self]
    dsimp only
    rw [hnone, takeNext_of_none hnone]
  unfold slotEnd
  rw [hr]
  dsimp only
  rw [hc]
  dsimp only
  rw [if_neg ho, hd, if_pos hhop, hhopNow]
  rfl

section
variable {s : State} {p : RfPath} {r d : Round} (hr : roundOf s p = some r)
include hr

/-- SLOT_EMPTY with a hop due, and no channel for it (R285, R287, R295). -/
theorem slotEmpty_dwells (hp : r.phase = .slot) (hhop : r.hopDue = true)
    (hd : d = { r with phase := .slot
                       empties := if r.q = eBits (roundEntry s r) 53 3 0 then r.empties + 1 else 0
                       emptySlots := r.emptySlots + 1
                       qfp := max (16 * eBits (roundEntry s r) 53 3 0) (r.qfp - fld s Fld.BRM_Q_CE) })
    (hne : d.empties ≠ fld s Fld.BRM_Q_ENDEMPTY)
    (hnone : (takeNext (setRound (brmQuiet s) p (some d)) (roundEntry s r) d p).1 = none) :
    ∃ t, exec (.slotEmpty p) s = .next (settle t) ∧ roundOf t p = none ∧ fld t Fld.BRM_STAT_LASTEND = 4 ∧
      fld t Fld.BRM_CNT2_DWELLHOLD = min 0xFFFF (fld s Fld.BRM_CNT2_DWELLHOLD + 1) ∧ flag t (intBit 34) = true ∧
      r.entry ∈ t.brm.holds ∧ FldsKept (roundFlds ++ sendFlds) s t ∧
      t = { s with regs := t.regs, fresh := t.fresh, brm := t.brm, cal := t.cal, fifo := t.fifo, radio := t.radio } := by
  have hquiet : roundOf (brmQuiet s) p = some r := by rw [roundOf_brmQuiet, hr]
  have hcount : countSlot (brmQuiet s) (roundEntry s r) r .empty = (brmQuiet s, d) := by
    rw [hd, ← hp]
    rfl
  have hphase : d.phase = .slot := by rw [hd]
  have hentry : d.entry = r.entry := by rw [hd]
  have hroundEntry : roundEntry (setRound (brmQuiet s) p (some d)) d = roundEntry s r := by
    rw [roundEntry, hentry, setRound_brm]
    rfl
  have e := slotEnd_dwells hquiet hcount (fun h => hne h.2) hphase (by rw [hd]; exact hhop) (by rw [hroundEntry]; exact hnone)
  have hmove : RoundMove s (setRound (brmQuiet s) p (some d)) := (RoundMove.quieted s).setRound p _
  have hended := roundEnd_ended (reason := 4) (roundOf_setRound_self (brmQuiet s) p (some d)) hphase (by decide)
  have hend := hmove.roundEnd p 4
  rw [← e] at hended hend
  obtain ⟨hdwell, hint, hheld⟩ := hended.held rfl
  have hexec : exec (.slotEmpty p) s = .next (settle (slotEnd (brmQuiet s) p .empty)) := by
    rw [← row_of_gone (run := fun t => slotEnd (brmQuiet t) p .empty) hr hended.gone]
    exact congrArg next (if_pos (slotOpen_of_phase hr hp))
  refine ⟨_, hexec, hended.gone, hended.last, ?_, hint, hentry ▸ hheld, hend.listed, by rw [hend.state]⟩
  rw [hdwell, fld_congr (regs_setRound _ p _)]
  rfl

end

/-- Settles O33: the last visit and a hop without a channel end the round; a deadline's work leaves the carrier off. -/
theorem roundsEndWithTheirVisits : Obligations.RoundsEndWithTheirVisits := by
  unfold Obligations.RoundsEndWithTheirVisits
  refine fun s p r hr => ⟨?_, ?_, ?_, regulatoryDeadline_acts hr⟩
  · intro hp hl he
    have hquiet : roundOf (brmQuiet s) p = some r := by rw [roundOf_brmQuiet, hr]
    have hended := roundEnd_ended hquiet hp (reason := 0) (by decide)
    have hmove := (RoundMove.quieted s).roundEnd p 0
    exact ⟨_, visitEnd_last hr hp hl, hended.gone, hended.other.trans (roundOf_brmQuiet s _), hended.run, hended.entry he,
      hended.last, hended.rounds, hended.done, hended.idle, hended.carrier, fun hi => hended.imm hi (by decide), hmove.listed,
      by rw [hmove.state]⟩
  · exact ⟨_, hopInterval_marks hr, roundOf_setRound_self _ p _,
      (roundOf_setRound_other _ p _).trans (roundOf_brmQuiet s _), by rw [sent_setRound]; rfl, by rw [setRound_brm]; rfl⟩
  · intro d hp hhop hd hne hnone
    exact slotEmpty_dwells hr hp hhop hd hne hnone

end Sys2Proof.Machine

/-! The steps of access programs (R154, R272–R276, R290): what goes on the air next, and how a program that fails is reported. -/

namespace Sys2Proof.Machine

/-! ### The end of a top-up (R154) -/

/-- The coexistence outputs do not follow from the reader. -/
theorem cxRequester_brm (s : State) (b : Brm) (m : Bool) :
    cxRequester { s with brm := b } m = { cxRequester s m with brm := b } := by
  have hlease : ∀ k, leaseOf { s with brm := b } k = leaseOf s k := fun _ => rfl
  have hflag : ∀ f, flag { s with brm := b } f = flag s f := fun _ => rfl
  unfold cxRequester
  simp only [hlease, hflag]
  split
  · split <;> rfl
  · split <;> rfl

theorem cxOutputs_brm (s : State) (b : Brm) (m : Bool) : cxOutputs { s with brm := b } m = { cxOutputs s m with brm := b } := by
  have hrole : cxRole { s with brm := b } = cxRole s := rfl
  unfold cxOutputs
  simp only [hrole, cxRequester_brm]
  split
  · rfl
  · split <;> rfl

/-- The machine without a holder's top-up, at the grant point that this makes. -/
def topUpDropped (s : State) (who : Consumer) : State :=
  grantPoint { s with sched := { s.sched with
    requests := s.sched.requests.filter fun r => !(r.who == who && r.topUp)
    grants := s.sched.grants.filter fun g => !(g.who == who && g.topUp) } }

/-- The machine without the operations that wait for a holder's top-up. -/
def opsDropped (s : State) (who : Consumer) : State :=
  { s with sched := { s.sched with ops := s.sched.ops.filter fun o => !(o.req.who == who && o.req.topUp) } }

theorem releaseTopUp_eq (s : State) (who : Consumer) :
    releaseTopUp s who = opsDropped (cxOutputs (topUpDropped s who) false) who := rfl

theorem releaseTopUp_brm (s : State) (b : Brm) (who : Consumer) :
    releaseTopUp { s with brm := b } who = { releaseTopUp s who with brm := b } :=
  congrArg (opsDropped · who) (cxOutputs_brm (topUpDropped s who) b false)

theorem releaseTopUp_state (s : State) (who : Consumer) :
    releaseTopUp s who = { s with regs := (releaseTopUp s who).regs, sched := (releaseTopUp s who).sched } := by
  rw [releaseTopUp_eq, opsDropped, (cxOutputs_only (topUpDropped s who) false).1]
  rfl

theorem releaseTopUp_flds (s : State) (who : Consumer) : FldsKept cxFlds s (releaseTopUp s who) :=
  ((FldsKept.refl cxFlds s).regs (u := topUpDropped s who) rfl).trans ((cxOutputs_only (topUpDropped s who) false).2.regs rfl)

/-! ### Ready for the next step of a program -/

/-- What a step's answer leaves before anything goes on the air: the coexistence outputs, the scheduler's lists and the path's round
may have changed. -/
structure StepReady (p : RfPath) (s v : State) : Prop where
  state : v = { s with regs := v.regs, brm := v.brm, sched := v.sched }
  kept : FldsKept cxFlds s v
  pool : v.brm.pool = s.brm.pool
  sent : v.brm.sent = []
  other : roundOf v (otherPath p) = roundOf s (otherPath p)

/-- The machine once a step's top-up is over, in a new step of the reader (R276). -/
def stepReleased (s : State) (r : Round) : State := releaseTopUp (brmQuiet s) (roundConsumer r)

theorem stepReleased_eq (s : State) (r : Round) :
    stepReleased s r = { releaseTopUp s (roundConsumer r) with brm := { s.brm with sent := [] } } := releaseTopUp_brm s _ _

/-- What may start is limited as after the end of the top-up (R262). -/
theorem stepReleased_limits (s : State) (r : Round) : SameLimits (releaseTopUp s (roundConsumer r)) (stepReleased s r) := by
  have hbrm : (releaseTopUp s (roundConsumer r)).brm = s.brm := by rw [releaseTopUp_state]
  rw [stepReleased_eq]
  exact ⟨rfl, rfl, by rw [hbrm], by rw [hbrm], fun _ _ => rfl⟩

theorem stepReleased_ready (s : State) (r : Round) (p : RfPath) : StepReady p s (stepReleased s r) := by
  have hstate := releaseTopUp_state s (roundConsumer r)
  have hkept := releaseTopUp_flds s (roundConsumer r)
  rw [stepReleased_eq]
  refine ⟨?_, hkept.regs rfl, rfl, rfl, ?_⟩
  · rw [hstate]
  · cases p <;> rfl

namespace StepReady

variable {p : RfPath} {s v : State} (h : StepReady p s v)
include h

theorem setRound (x : Option Round) : StepReady p s (setRound v p x) := by
  obtain ⟨hstate, hkept, hpool, hsent, hother⟩ := h
  refine ⟨?_, hkept.regs (regs_setRound v p x), ?_, by rw [sent_setRound, hsent], by rw [roundOf_setRound_other, hother]⟩
  · rw [setRound_brm, hstate]
  · rw [← hpool]
    cases p <;> rfl

/-- The reader's registers are as they were. -/
theorem reg_eq {a : Nat} (ha : 0x1000 ≤ a) : reg v a = reg s a := by
  have hcx : ∀ g ∈ cxFlds, g.addr < 0x1000 := by decide
  exact h.kept.reg_eq fun g hg e => absurd (hcx g hg) (by omega)

theorem roundEntry_eq (r : Round) : roundEntry v r = roundEntry s r := by
  rw [roundEntry, entryAt, h.state, roundEntry, entryAt]

theorem reportsUax_eq (r : Round) : reportsUax v r = reportsUax s r := by rw [reportsUax, h.roundEntry_eq, reportsUax]

theorem opWord_eq (g n : Nat) : opWord v g n = opWord s g n := h.reg_eq (by simp only [Adr.BRM_PG_OP]; omega)

theorem argWord_eq (g n : Nat) : argWord v g n = argWord s g n := h.reg_eq (by simp only [Adr.BRM_PG_ARG]; omega)

theorem stepOp_eq (g n : Nat) : stepOp v g n = stepOp s g n := congrArg (bitsOf · 31 28) (h.opWord_eq g n)

theorem programLength_eq (g : Nat) : programLength v g = programLength s g := by
  unfold programLength
  simp only [h.stepOp_eq]

theorem stepTime_eq (e : Entry) (op : Nat) (w arg : Word) : stepTime v e op w arg = stepTime s e op w arg := by
  have hdelay : delayTime v = delayTime s := by
    rw [delayTime, fld_of_reg_eq (h.reg_eq (by decide)), delayTime]
  unfold stepTime
  rw [hdelay]

theorem stepCmds_eq (op : Nat) (w arg : Word) : stepCmds v op w arg = stepCmds s op w arg := by
  unfold stepCmds poolData
  rw [h.pool]

end StepReady

/-! ### A step goes on the air (R272, R273) -/

/-- The path's round goes on with the commands of a step on the air, and the other path's as it was. -/
structure StepGoes (p : RfPath) (s t : State) (r : Round) (cmds : List AirCmd) : Prop where
  state : t = { s with regs := t.regs, brm := t.brm, sched := t.sched }
  kept : FldsKept cxFlds s t
  round : roundOf t p = some r
  sent : t.brm.sent = cmds.map fun a => (p, a)
  other : roundOf t (otherPath p) = roundOf s (otherPath p)

theorem brmSends_eq (p : RfPath) (cmds : List AirCmd) (s : State) : cmds.foldl (fun t c => brmSend t p c) s =
    { s with brm := { s.brm with sent := s.brm.sent ++ cmds.map fun a => (p, a) } } := by
  induction cmds generalizing s with
  | nil => simp
  | cons c cmds ih =>
    rw [List.foldl_cons, ih]
    simp [brmSend]

/-- A step that is no AUTH step, behind the first command of its program. -/
theorem StepReady.sendStep_goes {p : RfPath} {s v : State} (h : StepReady p s v) {r : Round} {g n tries : Nat}
    (h9 : stepOp s g n ≠ 9) (hlater : ¬(n = 0 ∧ tries = 0)) :
    StepGoes p s (sendStep v p r g n tries) { r with phase := .step n tries }
      (stepCmds s (stepOp s g n) (opWord s g n) (argWord s g n)) := by
  obtain ⟨hstate, hkept, -, hsent, hother⟩ := h.setRound (some { r with phase := .step n tries })
  have hround := roundOf_setRound_self v p (some { r with phase := .step n tries })
  have e : sendStep v p r g n tries = (stepCmds s (stepOp s g n) (opWord s g n) (argWord s g n)).foldl
      (fun t c => brmSend t p c) (Machine.setRound v p (some { r with phase := .step n tries })) := by
    unfold sendStep
    dsimp only
    rw [if_neg hlater, h.stepOp_eq, if_neg h9, h.stepCmds_eq, h.opWord_eq, h.argWord_eq]
  rw [e, brmSends_eq]
  generalize Machine.setRound v p (some { r with phase := .step n tries }) = u at hstate hkept hsent hother hround ⊢
  refine ⟨by rw [hstate], hkept.regs rfl, hround ▸ ?_, by rw [hsent]; rfl, hother ▸ ?_⟩
  · cases p <;> rfl
  · cases p <;> rfl

/-- The next step starts where it fits (R262, R273). -/
theorem StepReady.stepStart_goes {p : RfPath} {s v : State} (h : StepReady p s v) {r : Round} (hr : roundOf v p = some r)
    {g n : Nat} (h9 : stepOp s g (n + 1) ≠ 9) (hlen : n + 1 < programLength s g)
    (hb : blocked v p r (psCycles (stepTime s (roundEntry s r) (stepOp s g (n + 1)) (opWord s g (n + 1))
      (argWord s g (n + 1)))) = none) :
    StepGoes p s (stepStart v p g (n + 1)) { r with phase := .step (n + 1) 0 }
      (stepCmds s (stepOp s g (n + 1)) (opWord s g (n + 1)) (argWord s g (n + 1))) := by
  have e : stepStart v p g (n + 1) = sendStep v p r g (n + 1) 0 := by
    unfold stepStart
    rw [hr]
    dsimp only
    rw [if_neg (by rw [h.programLength_eq]; omega), if_neg (Nat.succ_ne_zero n), Nat.zero_add, h.roundEntry_eq, h.stepTime_eq,
      h.stepOp_eq, h.opWord_eq, h.argWord_eq, hb]
  rw [e]
  exact h.sendStep_goes h9 fun hn => absurd hn.1 (Nat.succ_ne_zero n)

/-- A row that leaves both rounds, the field and the link's slot standing brings no boundary (R38). -/
theorem row_of_roundStanding {s : State} {run : State → State} {p : RfPath} {r r0 : Round} (hr : roundOf s p = some r0)
    (hround : roundOf (run s) p = some r) (hother : roundOf (run s) (otherPath p) = roundOf s (otherPath p))
    (hhf : (run s).hf = s.hf) (hlnk : (run s).lnk = s.lnk) : row s run = run s := by
  have hw : workEnded s (run s) = false := by
    unfold workEnded
    rw [hhf, hlnk]
    cases p
    · simp only [roundOf, otherPath] at hr hround hother
      simp [hround, hother]
    · simp only [roundOf, otherPath] at hr hround hother
      simp [hround, hother]
  exact if_neg (by rw [hw]; exact Bool.false_ne_true)

theorem row_of_stepGoes {s : State} {run : State → State} {p : RfPath} {r r0 : Round} {cmds : List AirCmd}
    (h : StepGoes p s (run s) r cmds) (hr : roundOf s p = some r0) : row s run = run s :=
  row_of_roundStanding hr h.round h.other (by rw [h.state]) (by rw [h.state])

/-! ### Results of steps (R273, R274) -/

section
variable {s : State} {p : RfPath} {r : Round} {g : Nat} (hr : roundOf s p = some r) (hg : r.prog = some g)
include hr hg

theorem stepResult_of_round (n res tagErr : Nat) (data : List Word) : stepResult (brmQuiet s) p n res tagErr data =
    if res = 0 then stepStart (setRound (stepReleased s r) p
      (some { r with results := r.results ++ [(stepOp s g n, res, tagErr, data)] })) p g (n + 1)
    else programDone (setRound (stepReleased s r) p
      (some { r with results := r.results ++ [(stepOp s g n, res, tagErr, data)] })) p := by
  unfold stepResult
  rw [roundOf_brmQuiet, hr]
  dsimp only
  rw [hg]
  rfl

/-- A step that ends OK is followed by the next one. -/
theorem stepResult_goes {n : Nat} (data : List Word) (h9 : stepOp s g (n + 1) ≠ 9) (hlen : n + 1 < programLength s g)
    (hb : blocked (releaseTopUp s (roundConsumer r)) p r (psCycles (stepTime s (roundEntry s r) (stepOp s g (n + 1))
      (opWord s g (n + 1)) (argWord s g (n + 1)))) = none) :
    StepGoes p s (stepResult (brmQuiet s) p n 0 0 data)
      { r with phase := .step (n + 1) 0, results := r.results ++ [(stepOp s g n, 0, 0, data)] }
      (stepCmds s (stepOp s g (n + 1)) (opWord s g (n + 1)) (argWord s g (n + 1))) := by
  rw [stepResult_of_round hr hg, if_pos rfl]
  have hlimit := (stepReleased_limits s r).setRound p (some { r with results := r.results ++ [(stepOp s g n, 0, 0, data)] })
  exact ((stepReleased_ready s r p).setRound _).stepStart_goes (roundOf_setRound_self _ p _) h9 hlen
    ((hlimit.blocked_eq p _ _).trans hb)

end

/-! ### A program that fails (R274, R289, R290) -/

/-- A program's report raises UAX_RESULT. -/
theorem programEnd_reports {s : State} {p : RfPath} {r : Round} {g : Nat} {i : ReadInfo} (hr : roundOf s p = some r)
    (hg : r.prog = some g) (hi : r.read = some i) (hu : reportsUax s r = true) : fld (programEnd s p) (intBit 33) = 1 := by
  have hraised : ∀ t, fld (raise t 33) (intBit 33) = 1 := fun t => by
    simpa [flag] using flag_raise_self t 33 (by decide)
  unfold programEnd
  rw [hr]
  dsimp only
  rw [hg, hi]
  dsimp only
  rw [if_pos hu]
  exact WorkKeeps.setRound (hraised _) p _

/-- What follows the program leaves the interrupt raised. -/
theorem programDone_reports {s : State} {p : RfPath} {r : Round} {g : Nat} {i : ReadInfo} (hr : roundOf s p = some r)
    (hg : r.prog = some g) (hi : r.read = some i) (hu : reportsUax s r = true) : flag (programDone s p) (intBit 33) = true := by
  have hend := programEnd_reports hr hg hi hu
  have hdone : fld (programDone s p) (intBit 33) = 1 := by
    unfold programDone
    dsimp only
    split
    · exact hend
    · split
      · exact workKeeps_uaxResult.roundEnd hend p 0
      · exact workKeeps_uaxResult.slotEnd_read hend p
  simp [flag, hdone]

/-- The work of a round behind a step's answer is among the fields that the statement lists. -/
theorem stepFlds_covered : ∀ g ∈ cxFlds ++ workFlds,
    g ∈ roundFlds ++ sendFlds ++ cxFlds ∨ whole g.addr ∈ roundFlds ++ sendFlds ++ cxFlds ∧ g.hi < 32 := by decide

/-- A step that fails ends its program, which is reported. -/
theorem stepResult_fails {s : State} {p : RfPath} {r : Round} {g : Nat} {i : ReadInfo} (hr : roundOf s p = some r)
    (hg : r.prog = some g) (hi : r.read = some i) (hu : reportsUax s r = true) (n tagErr : Nat) {res : Nat} (hres : res ≠ 0)
    (data : List Word) :
    flag (stepResult (brmQuiet s) p n res tagErr data) (intBit 33) = true ∧
      FldsKept (roundFlds ++ sendFlds ++ cxFlds) s (stepResult (brmQuiet s) p n res tagErr data) ∧
      stepResult (brmQuiet s) p n res tagErr data = { s with
        regs := (stepResult (brmQuiet s) p n res tagErr data).regs
        fresh := (stepResult (brmQuiet s) p n res tagErr data).fresh
        brm := (stepResult (brmQuiet s) p n res tagErr data).brm
        cal := (stepResult (brmQuiet s) p n res tagErr data).cal
        fifo := (stepResult (brmQuiet s) p n res tagErr data).fifo
        radio := (stepResult (brmQuiet s) p n res tagErr data).radio
        sched := (stepResult (brmQuiet s) p n res tagErr data).sched } := by
  rw [stepResult_of_round hr hg, if_neg hres]
  have hready := (stepReleased_ready s r p).setRound (some { r with results := r.results ++ [(stepOp s g n, res, tagErr, data)] })
  have hround := roundOf_setRound_self (stepReleased s r) p
    (some { r with results := r.results ++ [(stepOp s g n, res, tagErr, data)] })
  generalize setRound (stepReleased s r) p _ = v at hready hround ⊢
  have hmove := programDone_move v p
  refine ⟨programDone_reports hround hg hi ((hready.reportsUax_eq _).trans hu), ?_, ?_⟩
  · exact ((hready.kept.mono (List.subset_append_left _ _)).trans (hmove.kept.mono (List.subset_append_right _ _))).cover
      stepFlds_covered
  · rw [hmove.state, hready.state]

/-! ### ACCESS_STEP_REPLY and ACCESS_STEP_TIMEOUT (R272–R276) -/

section
variable {s : State} {p : RfPath} {r : Round} {g n k : Nat} (hr : roundOf s p = some r) (hg : r.prog = some g)
  (hp : r.phase = .step n k)
include hr hg hp

theorem stepReply_of_ok (data : List (BitVec 16)) : stepReply (brmQuiet s) p (.ok data) =
    if stepOp s g n = 9 then setRound (brmQuiet s) p (some { r with phase := .flint n (bitsOf (argWord s g n) 20 16) })
    else stepResult (brmQuiet s) p n 0 0 (stepData s g n data) := by
  unfold stepReply
  rw [roundOf_brmQuiet, hr]
  dsimp only
  rw [hp, hg]
  rfl

theorem stepReply_of_error (code : Byte) :
    stepReply (brmQuiet s) p (.tagError code) = stepResult (brmQuiet s) p n 2 code.toNat [] := by
  unfold stepReply
  rw [roundOf_brmQuiet, hr]
  dsimp only
  rw [hp, hg]

/-- The answer to an AUTH step waits for Flint (R276). -/
theorem accessStepReply_auth (data : List (BitVec 16)) (h9 : stepOp s g n = 9) :
    ∃ t, exec (.accessStepReply p (.ok data)) s = .next t ∧
      roundOf t p = some { r with phase := .flint n (bitsOf (argWord s g n) 20 16) } ∧
      t.brm.sent = [] ∧ t = { s with brm := t.brm } := by
  have e : stepReply (brmQuiet s) p (.ok data) =
      setRound (brmQuiet s) p (some { r with phase := .flint n (bitsOf (argWord s g n) 20 16) }) := by
    rw [stepReply_of_ok hr hg hp, if_pos h9]
  have hgoes : StepGoes p s (stepReply (brmQuiet s) p (.ok data))
      { r with phase := .flint n (bitsOf (argWord s g n) 20 16) } [] := by
    rw [e]
    exact ⟨by rw [setRound_brm]; rfl, .regs (.refl _ s) (regs_setRound _ p _), roundOf_setRound_self _ p _,
      by rw [sent_setRound]; rfl, (roundOf_setRound_other _ p _).trans (roundOf_brmQuiet s _)⟩
  refine ⟨_, congrArg next (row_of_stepGoes (run := fun t => stepReply (brmQuiet t) p (.ok data)) hgoes hr), hgoes.round,
    hgoes.sent, ?_⟩
  rw [e, setRound_brm]
  rfl

/-- Any other step that is answered is followed by the next one. -/
theorem accessStepReply_next (data : List (BitVec 16)) (h9 : stepOp s g n ≠ 9) (hnext : stepOp s g (n + 1) ≠ 9)
    (hlen : n + 1 < programLength s g)
    (hb : blocked (releaseTopUp s (roundConsumer r)) p r (psCycles (stepTime s (roundEntry s r) (stepOp s g (n + 1))
      (opWord s g (n + 1)) (argWord s g (n + 1)))) = none) :
    ∃ t, exec (.accessStepReply p (.ok data)) s = .next t ∧ StepGoes p s t
      { r with phase := .step (n + 1) 0, results := r.results ++ [(stepOp s g n, 0, 0, stepData s g n data)] }
      (stepCmds s (stepOp s g (n + 1)) (opWord s g (n + 1)) (argWord s g (n + 1))) := by
  have hgoes := stepResult_goes hr hg (stepData s g n data) hnext hlen hb
  have e : stepReply (brmQuiet s) p (.ok data) = stepResult (brmQuiet s) p n 0 0 (stepData s g n data) := by
    rw [stepReply_of_ok hr hg hp, if_neg h9]
  rw [← e] at hgoes
  exact ⟨_, congrArg next (row_of_stepGoes (run := fun t => stepReply (brmQuiet t) p (.ok data)) hgoes hr), hgoes⟩

/-- A step without an answer is repeated while repeats are left and one fits (R274). -/
theorem accessStepTimeout_repeats (bad : Bool) (h9 : stepOp s g n ≠ 9) (hk : k < fld s Fld.BRM_ACC_STEPRETRY)
    (hb : blocked s p r (psCycles (stepTime s (roundEntry s r) (stepOp s g n) (opWord s g n) (argWord s g n))) = none) :
    ∃ t, exec (.accessStepTimeout p bad) s = .next t ∧ StepGoes p s t { r with phase := .step n (k + 1) }
      (stepCmds s (stepOp s g n) (opWord s g n) (argWord s g n)) := by
  have hlimit : SameLimits s (brmQuiet s) := (SameLimits.refl s).quiet
  have e : stepTimeout (brmQuiet s) p bad = sendStep (stepReleased s r) p r g n (k + 1) := by
    unfold stepTimeout
    rw [roundOf_brmQuiet, hr]
    dsimp only
    rw [hp, hg]
    exact if_pos ⟨hk, by rw [hlimit.blocked_eq]; exact congrArg Option.isNone hb⟩
  have hgoes : StepGoes p s (stepTimeout (brmQuiet s) p bad) { r with phase := .step n (k + 1) }
      (stepCmds s (stepOp s g n) (opWord s g n) (argWord s g n)) := by
    rw [e]
    exact (stepReleased_ready s r p).sendStep_goes h9 fun h => absurd h.2 (Nat.succ_ne_zero k)
  exact ⟨_, congrArg next (row_of_stepGoes (run := fun t => stepTimeout (brmQuiet t) p bad) hgoes hr), hgoes⟩

end

/-! ### AUTH_FLINT_GRANT (R276) -/

section
variable {s : State} {p : RfPath} {r : Round} {n slot : Nat} (hr : roundOf s p = some r) (hp : r.phase = .flint n slot)
include hr hp

/-- Without a grant of Flint the answer waits. -/
theorem authGrant_waits (response : BitVec 128) (h : authFlint (brmQuiet s) (roundConsumer r) = none) :
    exec (.authFlintGrant p response) s = .next (brmQuiet s) := by
  have e : authGrant (brmQuiet s) p response = brmQuiet s := by
    unfold authGrant
    rw [roundOf_brmQuiet, hr]
    dsimp only
    rw [hp]
    dsimp only
    rw [h]
  have hrow := row_of_roundStanding (run := fun t => authGrant (brmQuiet t) p response) hr (by rw [e, roundOf_brmQuiet, hr])
    (by rw [e, roundOf_brmQuiet]) (by rw [e]; rfl) (by rw [e]; rfl)
  exact congrArg next (hrow.trans e)

/-- With Flint held, the response is checked against the challenge. -/
theorem authGrant_of_held (response : BitVec 128) (h : (holdsOf s (roundConsumer r)).testBit resFlint = true) :
    authGrant (brmQuiet s) p response =
      if (authPlain s slot response).1 = tam1Const ∧ (authPlain s slot response).2.2 = r.challenge.toNat then
        stepResult (brmQuiet s) p n 0 0 [BitVec.ofNat 32 (authPlain s slot response).2.1]
      else stepResult (brmQuiet s) p n 4 0 [] := by
  have hflint : authFlint (brmQuiet s) (roundConsumer r) = some (brmQuiet s) := if_pos h
  unfold authGrant
  rw [roundOf_brmQuiet, hr]
  dsimp only
  rw [hp]
  dsimp only
  rw [hflint]
  rfl

end

/-- Settles O32: an answer is followed by the next step, silence by a repeat, and a failed step by the program's report. -/
theorem accessStepsFollowOneAnother : Obligations.AccessStepsFollowOneAnother := by
  unfold Obligations.AccessStepsFollowOneAnother
  refine fun s p r g n hr hg => ⟨?_, ?_, ?_, ?_, ?_, ?_, ?_⟩
  · intro k data hp h9
    exact accessStepReply_auth hr hg hp data h9
  · intro k data hp h9 hnext hlen hb
    obtain ⟨t, ht, hgoes⟩ := accessStepReply_next hr hg hp data h9 hnext hlen hb
    exact ⟨t, ht, hgoes.round, hgoes.sent, hgoes.kept, hgoes.state⟩
  · intro k bad hp h9 hk hb
    obtain ⟨t, ht, hgoes⟩ := accessStepTimeout_repeats hr hg hp bad h9 hk hb
    exact ⟨t, ht, hgoes.round, hgoes.sent, hgoes.kept, hgoes.state⟩
  · intro k code i hp hi hu
    have h := stepResult_fails hr hg hi hu n code.toNat (res := 2) (by decide) []
    rw [← stepReply_of_error hr hg hp] at h
    exact ⟨_, congrArg next (row_const s _), h⟩
  · intro slot response hp h
    exact authGrant_waits hr hp response h
  · intro slot response hp hheld hnext hlen hconst hch hb
    have hgoes := stepResult_goes hr hg [BitVec.ofNat 32 (authPlain s slot response).2.1] hnext hlen hb
    have e := authGrant_of_held hr hp response hheld
    rw [if_pos ⟨hconst, hch⟩] at e
    rw [← e] at hgoes
    have hstate := hgoes.state
    exact ⟨_, congrArg next (row_of_stepGoes (run := fun t => authGrant (brmQuiet t) p response) hgoes hr), hgoes.round,
      hgoes.kept, by rw [hstate]⟩
  · intro slot response i hp hheld hi hu hbad
    have h := stepResult_fails hr hg hi hu n 0 (res := 4) (by decide) []
    have e := authGrant_of_held hr hp response hheld
    rw [if_neg fun hok => hbad.elim (· hok.1) (· hok.2)] at e
    rw [← e] at h
    exact ⟨_, congrArg next (row_const s _), h⟩

end Sys2Proof.Machine

/-! The HF reader's own state through a boundary (R38, R39, R303): nothing that settles touches it. -/

namespace Sys2Proof.Machine

/-! ### Frames that leave the reader -/

theorem OnlyFifo.hf_eq {l : List Field} {s t : State} (h : OnlyFifo l s t) : t.hf = s.hf := by rw [h.1]

theorem OnlyReports.hf_eq {l : List Field} {s t : State} (h : OnlyReports l s t) : t.hf = s.hf := by rw [h.1]

theorem OnlyJournal.hf_eq {s t : State} (h : OnlyJournal s t) : t.hf = s.hf := by rw [h.state]

theorem OnlyCx.hf_eq {s t : State} (h : OnlyCx s t) : t.hf = s.hf := by rw [h.1]

theorem foldl_hf {α : Type} (f : State → α → State) (h : ∀ t k, (f t k).hf = t.hf) (L : List α) (s : State) :
    (L.foldl f s).hf = s.hf := foldl_keeps (fun t => t.hf = s.hf) f (fun t k ht => (h t k).trans ht) L s rfl

theorem emitBoth_hf (s : State) {n : Nat} (hn : n < 9) (tag : Nat) (ws : List Word) : (emitBoth s n tag ws).hf = s.hf :=
  ((OnlyReports.refl packetFlds s).emitBoth (List.Subset.refl _) hn tag ws).hf_eq

theorem admitPacket_hf (s : State) {n : Nat} (hn : n < 9) (ws : List Word) : (admitPacket s n ws).hf = s.hf :=
  ((OnlyFifo.refl packetFlds s).admitPacket (List.Subset.refl _) hn ws).hf_eq

/-! ### Requests and turns -/

theorem postRequest_hf (s : State) (r : Request) : (postRequest s r).1.hf = s.hf := by
  have hput : ∀ u : State, ∀ q, (putRequest u q).hf = u.hf := fun u q => by rw [(putRequest_posts u q).state]
  unfold postRequest
  dsimp only
  (repeat' split)
  · rfl
  · rfl
  · exact hput _ _
  · exact hput _ _
  · exact hput _ _

theorem countGrant_hf (s : State) (r : Request) : (countGrant s r).hf = s.hf :=
  foldl_hf _ (fun t n => by dsimp only; split <;> rfl) _ s

theorem rfStart_hf (s : State) (mask : Nat) : (rfStart s mask).hf = s.hf := by
  unfold rfStart setMode
  dsimp only
  (repeat' split) <;> rfl

theorem rfOver_hf (s : State) (mask : Nat) : (rfOver s mask).hf = s.hf := by
  unfold rfOver
  split <;> rfl

/-- A turn leaves the reader as its operation does. -/
theorem turn_hf (s : State) (r : Request) (cmd : Instr) {run : State → State} (h : ∀ u, (run u).hf = u.hf) :
    (turn s r cmd run).hf = s.hf := by
  unfold turn turnOr
  dsimp only
  split
  · exact h s
  · split
    · rw [grantPoint_hf, rfOver_hf, h, rfStart_hf, countGrant_hf]
    · exact postRequest_hf _ r

/-! ### What an accepted set changes beside its registers -/

theorem ckptRun_hf (s : State) : (ckptRun s).hf = s.hf := by
  have hj : OnlyJournal s (ckptRun s) := by
    have h := (OnlyJournal.refl s).setJnl { s.jnl with fcDue := false, dutyDue := false }
    unfold ckptRun
    exact ((h.ckptWrite.ite h).dutyWrite).ite (h.ckptWrite.ite h)
  exact hj.hf_eq

theorem ckptAsk_hf (s : State) : (ckptAsk s).hf = s.hf := by
  unfold ckptAsk ckptTurn
  dsimp only
  (repeat' split)
  · rfl
  · rfl
  · exact turn_hf _ _ _ ckptRun_hf

theorem setPair_hf (s : State) (p : Nat × Nat) (reason : Nat) : (setPair s p reason).hf = s.hf := by
  unfold setPair epochPacket lst
  dsimp only
  split
  · rfl
  · rw [raise_hf, emitBoth_hf _ (by decide)]; rfl

theorem becomeOrigin_hf (s : State) (resume : Bool) : (becomeOrigin s resume).hf = s.hf := by
  unfold becomeOrigin
  dsimp only
  split
  · rfl
  · exact setPair_hf _ _ _

theorem adopt_hf (s : State) (k reason : Nat) : (adopt s k reason).hf = s.hf := setPair_hf _ _ _

theorem noSource_hf (s : State) : (noSource s).hf = s.hf := by
  unfold noSource
  (repeat' split)
  · exact becomeOrigin_hf s false
  · rfl
  · rfl

theorem searchOn_hf (s : State) (lost : Bool) : (searchOn s lost).hf = s.hf := by
  unfold searchOn
  dsimp only
  (repeat' split)
  · rfl
  · rfl
  · rfl
  · exact noSource_hf _

theorem reconsider_hf (s : State) : (reconsider s).hf = s.hf := by
  unfold reconsider
  (repeat' split)
  · rfl
  · rfl
  · exact adopt_hf _ _ _
  · exact searchOn_hf _ _

theorem lnkApplied_hf (s : State) : (lnkApplied s).hf = s.hf := by
  unfold lnkApplied
  (repeat' split)
  · rfl
  · rfl
  · exact becomeOrigin_hf s _
  · rfl
  · exact reconsider_hf s

theorem nbrApplied_hf (s : State) (n oldEui : Nat) : (nbrApplied s n oldEui).hf = s.hf := by
  unfold nbrApplied
  split
  · rfl
  · exact ckptAsk_hf _

theorem sgtClose_hf (s : State) (n : Nat) (why : Option Nat) : (sgtClose s n why).hf = s.hf := by
  have hflags : ∀ u, (closeFlags why u).hf = u.hf := fun u => by
    unfold closeFlags
    split <;> rfl
  cases he : sgtAt s n with
  | none => rw [sgtClose_of_free he]
  | some e =>
    obtain ⟨freed, u, z, hu, hc⟩ := sgtClose_of_open he why
    rw [hc]
    exact (hflags _).trans hu.hf_eq

theorem autoTrf_hf (s : State) (ws : List Word) : (autoTrf s ws).hf = s.hf := by
  unfold autoTrf autoReport queueFrame
  (repeat' split)
  · exact admitPacket_hf s (by decide) _
  · rfl
  · rfl

theorem trfReport_hf (s : State) (code : Nat) (i : Interval) (len : Nat) (zoneEnd timeStep : Bool) :
    (trfReport s code i len zoneEnd timeStep).hf = s.hf := (autoTrf_hf _ _).trans (emitBoth_hf s (by decide) _ _)

theorem zoneEnd_hf (s : State) (code : Nat) : (zoneEnd s code).hf = s.hf := by
  have hclosed : ∀ L : List (Nat × Sighting), (L.foldl (fun t p => sgtClose t p.1 (some 7)) s).hf = s.hf := fun L =>
    foldl_hf _ (fun t p => sgtClose_hf t p.1 _) L s
  unfold zoneEnd
  split
  · rfl
  · dsimp only
    split
    · exact hclosed _
    · exact (trfReport_hf ..).trans ((foldl_hf _ (fun t i => trfReport_hf t ..) _ _).trans (hclosed _))

theorem zoneBegin_hf (s : State) (code : Nat) : (zoneBegin s code).hf = s.hf := by
  unfold zoneBegin
  split <;> rfl

theorem zonesFollow_hf (s0 s : State) : (zonesFollow s0 s).hf = s.hf := by
  have hended : ∀ L : List Nat, (L.foldl (fun t n => zoneEnd t (0x40 + n)) s).hf = s.hf := fun L =>
    foldl_hf _ (fun t n => zoneEnd_hf t _) L s
  unfold zonesFollow
  dsimp only
  split
  · exact (foldl_hf _ (fun t n => zoneBegin_hf t _) _ _).trans (hended _)
  · exact hended _

theorem tmrApplied_hf (s : State) (n oldCmpen : Nat) : (tmrApplied s n oldCmpen).hf = s.hf := by
  unfold tmrApplied arm
  dsimp only
  split <;> rfl

theorem brmApplied_hf (s0 s : State) : (brmApplied s0 s).hf = s.hf := by
  unfold brmApplied accountsForProfile
  dsimp only
  (repeat' split) <;> rfl

theorem tagApplied_hf (s : State) (oldFltpg : Nat) (oldFlten oldHarv inStep6 : Bool) :
    (tagApplied s oldFltpg oldFlten oldHarv inStep6).hf = s.hf := by
  have hharv : ∀ u, (harvFollows u oldHarv).hf = u.hf := fun u => by
    unfold harvFollows
    split
    · rfl
    · split <;> rfl
  have hlog : (if fld s Fld.TAG_AREA_FLTPG ≠ oldFltpg ∨ (flag s Fld.TAG_CFG_FLTEN && !oldFlten) then logRestart s else s).hf =
      s.hf := by split <;> rfl
  unfold tagApplied
  dsimp only
  split <;> exact (hharv _).trans hlog

theorem grsApplied_hf (s0 s : State) : (grsApplied s0 s).hf = s.hf := by
  unfold grsApplied
  split <;> rfl

theorem qtzApplied_hf (s0 s : State) : (qtzApplied s0 s).hf = s.hf := by
  unfold qtzApplied trimChanged trimWindowNew fitRestart
  dsimp only
  (repeat' split) <;> rfl

theorem afterSwap_hf (s0 s : State) (b : BlockInst) : (afterSwap s0 s b).hf = s.hf := by
  unfold afterSwap
  split
  · exact (cxOutputs_only _ true).hf_eq
  · exact tmrApplied_hf s _ _
  · rfl
  · exact zonesFollow_hf s0 s
  · exact brmApplied_hf s0 s
  · exact tagApplied_hf s _ _ _ _
  · exact grsApplied_hf s0 s
  · exact lnkApplied_hf s
  · exact nbrApplied_hf s _ _
  · exact qtzApplied_hf s0 s
  · rfl

/-! ### Boundaries -/

theorem swapWords_hf (s : State) (b : BlockInst) (f : Nat → Bool) : (swapWords s b f).hf = s.hf := by rw [swapWords_frame]

theorem setPend_hf (s : State) (b : BlockInst) (v : Nat) : (setPend s b v).hf = s.hf := rfl

theorem setParts_hf (s : State) (blk : Block) (l : List Nat) : (setParts s blk l).hf = s.hf := rfl

theorem acceptSeq_hf (s : State) (b : BlockInst) : (acceptSeq s b).hf = s.hf := admitPacket_hf _ (by decide) _

theorem refuseSet_hf (s : State) (b : BlockInst) (reason : Nat) : (refuseSet s b reason).hf = s.hf :=
  (refuseSet_reports s b reason).hf_eq

theorem acceptAll_hf (s : State) (b : BlockInst) : (acceptAll s b).hf = s.hf := by
  unfold acceptAll
  dsimp only
  rw [calCommitted_frame]
  rw [afterSwap_hf, acceptWhole, acceptSeq_hf, setPend_hf, swapWords_hf]

theorem partSwaps_hf (s : State) (b : BlockInst) (L : List Nat) : (L.foldl (fun t n => partSwap t b n) s).hf = s.hf :=
  foldl_hf _ (fun t n => by rw [(partSwap_only t b n).1]) L s

theorem acceptParts_hf (s : State) (b : BlockInst) : (acceptParts s b).hf = s.hf := by
  unfold acceptParts
  dsimp only
  split
  · exact refuseSet_hf s b _
  · split
    · rw [setPend_hf, swapWords_hf, acceptSeq_hf]
    · rw [partSwaps_hf, setParts_hf, acceptSeq_hf]

theorem boundary_hf (s : State) (b : BlockInst) : (boundary s b).hf = s.hf := by
  unfold boundary
  dsimp only
  (repeat' split)
  · rfl
  · exact partSwaps_hf s b _
  · exact acceptParts_hf s b
  · exact acceptAll_hf s b
  · exact refuseSet_hf s b _

/-- What settles leaves the reader's visit, its answer window and the field as they are. -/
@[simp] theorem settle_hf (s : State) : (settle s).hf = s.hf :=
  foldl_hf _ (fun t b => by
    split
    · exact boundary_hf t b
    · rfl) _ s

end Sys2Proof.Machine

/-! The ends of HF answer windows and of sessions (R303, R322–R324, R327, R330). -/

namespace Sys2Proof.Machine

/-! ### Boundaries of the reader's rows (R303) -/

theorem hfBoundary_of_between {s : State} (h : s.hf.answerBy = none) (ends : HfVisit → Bool) : hfBoundary s ends = s := by
  unfold hfBoundary
  split
  · rw [h]
    exact if_neg (by simp)
  · rfl

theorem hfBoundary_of_awaited {s : State} {v : HfVisit} {ends : HfVisit → Bool} (hv : s.hf.visit = some v)
    (hb : s.hf.answerBy.isSome = true) (he : ends v = true) (hl : hfLastSlot s v = true) :
    hfBoundary s ends = settle (hfWindowOver s) := by
  rw [hfBoundary, hv]
  exact if_pos (by rw [hb, he, hl]; rfl)

/-- What has settled at the end of a window stands between two frames: the row meets no second boundary. -/
theorem hfRow_settled {s : State} {v : HfVisit} {ends : HfVisit → Bool} (hv : s.hf.visit = some v)
    (hb : s.hf.answerBy.isSome = true) (he : ends v = true) (hl : hfLastSlot s v = true) (run : State → State) :
    hfRow (hfBoundary s ends) run = hfRow (hfBoundary (settle (hfWindowOver s)) ends) run := by
  have hover : (settle (hfWindowOver s)).hf.answerBy = none := by rw [settle_hf]; rfl
  rw [hfBoundary_of_between hover, hfBoundary_of_awaited hv hb he hl]

theorem workEnded_of_kept {s t : State} (hb : t.brm = s.brm) (hd : t.hf.drive = s.hf.drive) (hl : t.lnk = s.lnk) :
    workEnded s t = false := by
  unfold workEnded
  rw [hb, hd, hl]
  simp

/-- A row that moves no round, no field and no slot brings no boundary (R38, R39). -/
theorem hfRow_of_work_kept {s t : State} (hb : t.brm = s.brm) (hd : t.hf.drive = s.hf.drive) (hl : t.lnk = s.lnk) :
    hfRow s (fun _ => t) = t := if_neg (by rw [workEnded_of_kept hb hd hl]; exact Bool.false_ne_true)

/-! ### Rows of an exchange -/

theorem onXchg_of_xchg {s : State} {v : HfVisit} {x : HfXchg} (hv : s.hf.visit = some v) (hx : v.phase = .xchg x)
    (f : State → HfVisit → HfXchg → State) : onXchg s f = f (hfQuiet s) v x := by
  unfold onXchg
  dsimp only
  rw [show (hfQuiet s).hf.visit = some v from hv]
  dsimp only
  rw [hx]

section
variable {s : State} {v : HfVisit} {x : HfXchg} (hv : s.hf.visit = some v) (hx : v.phase = .xchg x)
include hv hx

theorem exec_wtxRequest (hb : s.hf.answerBy = none) (inf : Byte) :
    exec (.wtxRequest inf) s = .next (hfRow s fun _ => hfWtx (hfQuiet s) v x inf) := by
  change Host.Outcome.next (hfRow (hfBoundary s _) _) = _
  rw [hfBoundary_of_between hb, ← onXchg_of_xchg hv hx fun u v x => hfWtx u v x inf]
  rfl

theorem exec_blockTimeout (hb : s.hf.answerBy = none) (bad : Bool) :
    exec (.blockTimeout bad) s = .next (hfRow s fun _ => hfBlockTimeout (hfQuiet s) v x bad) := by
  change Host.Outcome.next (hfRow (hfBoundary s _) _) = _
  rw [hfBoundary_of_between hb, ← onXchg_of_xchg hv hx fun u v x => hfBlockTimeout u v x bad]
  rfl

/-- The exchange's rows meet the boundary of their window first (R303). -/
theorem exec_xchgRows_settled (hb : s.hf.answerBy.isSome = true) :
    (∀ inf, exec (.wtxRequest inf) s = exec (.wtxRequest inf) (settle (hfWindowOver s))) ∧
      (∀ bad, exec (.blockTimeout bad) s = exec (.blockTimeout bad) (settle (hfWindowOver s))) := by
  have hin : hfInExchange v = true := by rw [hfInExchange, hx]
  have hlast : hfLastSlot s v = true := by rw [hfLastSlot, hx]
  exact ⟨fun inf => congrArg Host.Outcome.next (hfRow_settled hv hb hin hlast _),
    fun bad => congrArg Host.Outcome.next (hfRow_settled hv hb hin hlast _)⟩

end

theorem exec_sessionIdle {s : State} {v : HfVisit} (hv : s.hf.visit = some v) (hs : v.session = true) (ho : v.phase = .open_) :
    exec .sessionIdle s = .next (row s fun _ => hfSessionEnd (hfQuiet s) v 9) := by
  have h : sessionIdle s = hfSessionEnd (hfQuiet s) v 9 := by
    unfold sessionIdle
    dsimp only
    rw [show (hfQuiet s).hf.visit = some v from hv]
    exact if_pos ⟨hs, ho⟩
  exact congrArg (fun t => Host.Outcome.next (row s fun _ => t)) h

/-! ### The end of a session (R323, R327, R330) -/

/-- An end for one of the reasons 4 to 9 reports HF_ABORT, whatever it ends (R330). -/
theorem hfAbortFlags_of_abort {reason : Nat} (h4 : 4 ≤ reason) (h9 : reason ≤ 9) (s : State) (session : Bool) :
    hfAbortFlags s reason session = incSat (setFlag (raise s 39) Fld.HF_STAT_ABORT) Fld.HF_CNT1_ABORTS 1 :=
  if_pos (.inl ⟨h4, h9⟩)

/-- What the end of a session writes beside its result. -/
def sessionEndFlds : List Field :=
  [Fld.HF_STAT_FIELD, Fld.HF_STAT_LASTEND, Fld.HF_STAT_ABORT, intBit 39, Fld.HF_CNT1_ABORTS, Fld.HF_IMMSTAT_OPEN,
   Fld.HF_IMMSTAT_ACT]

/-- What stands when a session has taken the field off, before its result. -/
def sessionOver (s : State) (reason : Nat) : State :=
  clrFld (clrFld (hfAbortFlags (setFld (setVisit (hfFieldOff s) none) Fld.HF_STAT_LASTEND reason) reason true)
    Fld.HF_IMMSTAT_OPEN) Fld.HF_IMMSTAT_ACT

theorem hfSessionEnd_eq (s : State) (v : HfVisit) (reason : Nat) :
    hfSessionEnd s v reason = if flag s Fld.HF_IMMSTAT_BUSY then hfResult (sessionOver s reason) v 5 reason 0
      else setFld (setFld (sessionOver s reason) Fld.HF_IMMSTAT_RESULT 5) Fld.HF_IMMSTAT_REASON reason := rfl

theorem OnlyHf.quiet (l : List Field) (s : State) : OnlyHf l s (hfQuiet s) := (OnlyHf.refl l s).setHf _

theorem OnlyHf.mono {l m : List Field} {s t : State} (h : OnlyHf l s t) (hl : l ⊆ m) : OnlyHf m s t := ⟨h.1, h.2.mono hl⟩

theorem hfFieldOff_only (s : State) : OnlyHf [Fld.HF_STAT_FIELD] s (hfFieldOff s) := by
  unfold hfFieldOff
  split
  · exact ⟨rfl, ((FldsKept.refl _ s).setFld List.mem_cons_self 0).regs rfl⟩
  · exact .refl _ s

theorem hfAbortFlags_only (s : State) (reason : Nat) (session : Bool) :
    OnlyFifo [intBit 39, Fld.HF_STAT_ABORT, Fld.HF_CNT1_ABORTS] s (hfAbortFlags s reason session) := by
  unfold hfAbortFlags
  exact .ite ((((OnlyFifo.refl _ s).setFlag (by simp)).setFlag (by simp)).setFld (by simp) _) (.refl _ s)

theorem sessionOver_only (s : State) (reason : Nat) : OnlyHf sessionEndFlds s (sessionOver s reason) := by
  have hoff := ((hfFieldOff_only s).mono (m := sessionEndFlds) (by simp [sessionEndFlds])).setHf
    { (hfFieldOff s).hf with visit := none }
  have hend := hoff.fifo ((OnlyFifo.refl _ _).setFld (f := Fld.HF_STAT_LASTEND) (by simp [sessionEndFlds]) reason)
  have habort := hend.fifo ((hfAbortFlags_only _ reason true).mono (by simp [sessionEndFlds]))
  exact habort.fifo (((OnlyFifo.refl _ _).setFld (by simp [sessionEndFlds]) 0).setFld (by simp [sessionEndFlds]) 0)

/-- A session that is over: its visit has gone, the field is off, and the reason stands (R327). -/
structure SessionOver (reason : Nat) (t : State) : Prop where
  visit : t.hf.visit = none
  lastend : fld t Fld.HF_STAT_LASTEND = reason
  opened : fld t Fld.HF_IMMSTAT_OPEN = 0
  active : fld t Fld.HF_IMMSTAT_ACT = 0
  field : fld t Fld.HF_STAT_FIELD = 0

theorem sessionOver_over (s : State) {reason : Nat} (hq : reason < 256) : SessionOver reason (sessionOver s reason) := by
  have habort := (hfAbortFlags_only (setFld (setVisit (hfFieldOff s) none) Fld.HF_STAT_LASTEND reason) reason true).2
  have hstat : ∀ {f : Field}, f.addr = Adr.HF_STAT → f.apart Fld.HF_STAT_ABORT → fld (sessionOver s reason) f =
      fld (setFld (setVisit (hfFieldOff s) none) Fld.HF_STAT_LASTEND reason) f := fun {f} ha hf => by
    rw [sessionOver, clrFld, fld_setFld_apart _ _ _ _ (.inl (by rw [ha]; decide)), clrFld,
      fld_setFld_apart _ _ _ _ (.inl (by rw [ha]; decide))]
    refine habort.fld_eq fun g hg => ?_
    simp only [List.mem_cons, List.not_mem_nil, or_false] at hg
    rcases hg with rfl | rfl | rfl
    · exact .inl (by rw [ha]; decide)
    · exact hf
    · exact .inl (by rw [ha]; decide)
  refine ⟨?_, ?_, ?_, fld_clrFld_self _ _ (by decide), ?_⟩
  · exact congrArg Hf.visit (hfAbortFlags_hf _ reason true)
  · rw [hstat rfl (by unfold Field.apart; decide), fld_setFld_of_lt _ (by decide) hq]
  · rw [sessionOver, clrFld, fld_setFld_apart _ _ _ _ (by decide), fld_clrFld_self _ _ (by decide)]
  · rw [hstat rfl (by unfold Field.apart; decide), fld_setFld_apart _ _ _ _ (by decide)]
    exact fieldOff_reads s

/-- HF_ABORT stands, as flag and as interrupt (R330). -/
theorem sessionOver_aborts (s : State) {reason : Nat} (h4 : 4 ≤ reason) (h9 : reason ≤ 9) :
    flag (sessionOver s reason) (intBit 39) = true ∧ fld (sessionOver s reason) Fld.HF_STAT_ABORT = 1 := by
  unfold sessionOver
  rw [hfAbortFlags_of_abort h4 h9, flag, clrFld, clrFld, incSat]
  constructor
  · rw [fld_setFld_apart _ _ _ _ (by decide), fld_setFld_apart _ _ _ _ (by decide), fld_setFld_apart _ _ _ _ (by decide),
      fld_setFlag, fld_setFld_apart _ _ _ _ (by decide)]
    exact flag_raise_self _ 39 (by decide)
  · rw [fld_setFld_apart _ _ _ _ (by decide), fld_setFld_apart _ _ _ _ (by decide), fld_setFld_apart _ _ _ _ (by decide),
      fld_setFlag, fld_setFld_of_lt _ (by decide) (by decide)]

/-- The result of the end writes the fields of a result and nothing else of the reader (R326, R327). -/
theorem hfSessionEnd_result (s : State) (v : HfVisit) (reason : Nat) :
    OnlyFifo hfResultFlds (sessionOver s reason) (hfSessionEnd s v reason) := by
  rw [hfSessionEnd_eq]
  exact .ite (hfResult_only _ _ _ _ _) (((OnlyFifo.refl _ _).setFld (by simp) 5).setFld (by simp) reason)

theorem hfSessionEnd_reads (s : State) (v : HfVisit) {reason : Nat} (hq : reason < 256) :
    fld (hfSessionEnd s v reason) Fld.HF_IMMSTAT_RESULT = 5 ∧ fld (hfSessionEnd s v reason) Fld.HF_IMMSTAT_REASON = reason := by
  rw [hfSessionEnd_eq]
  split
  · exact (hfResult_reads (sessionOver s reason) v (by decide) hq 0).2
  · rw [fld_setFld_apart _ _ _ _ (by decide), fld_setFld_of_lt _ (by decide) (by decide)]
    exact ⟨rfl, fld_setFld_of_lt _ (by decide) hq⟩

/-- What the end of a session leaves of the reader, whether a command is in hand or not. -/
theorem hfSessionEnd_over (s : State) (v : HfVisit) {reason : Nat} (hq : reason < 256) :
    SessionOver reason (hfSessionEnd s v reason) := by
  obtain ⟨hvisit, hend, hopen, hact, hfield⟩ := sessionOver_over s hq
  have hres := hfSessionEnd_result s v reason
  have hbeside : ∀ {f : Field}, (∀ g ∈ hfResultFlds, f.apart g) →
      fld (hfSessionEnd s v reason) f = fld (sessionOver s reason) f := fun hf => hres.2.fld_eq hf
  refine ⟨hres.hf_eq ▸ hvisit, (hbeside ?_).trans hend, (hbeside ?_).trans hopen, (hbeside ?_).trans hact,
    (hbeside ?_).trans hfield⟩ <;> (unfold Field.apart; decide)

theorem hfSessionEnd_aborts (s : State) (v : HfVisit) {reason : Nat} (h4 : 4 ≤ reason) (h9 : reason ≤ 9) :
    flag (hfSessionEnd s v reason) (intBit 39) = true ∧ fld (hfSessionEnd s v reason) Fld.HF_STAT_ABORT = 1 := by
  obtain ⟨hint, habort⟩ := sessionOver_aborts s h4 h9
  have hres := (hfSessionEnd_result s v reason).2
  exact ⟨(hres.flag_eq (by unfold Field.apart; decide)).trans hint, (hres.fld_eq (by unfold Field.apart; decide)).trans habort⟩

/-- The end of a session writes among what the reader may write, and leaves the rest of the machine (R329, R330). -/
theorem hfSessionEnd_only (s : State) (v : HfVisit) (reason : Nat) :
    OnlyHf (sessionEndFlds ++ hfResultFlds) s (hfSessionEnd s v reason) :=
  ((sessionOver_only s reason).mono (List.subset_append_left _ _)).fifo
    ((hfSessionEnd_result s v reason).mono (List.subset_append_right _ _))

theorem OnlyHf.sessionEnd {s u : State} (h : OnlyHf hfFlds s u) (v : HfVisit) (reason : Nat) :
    OnlyHf hfFlds s (hfSessionEnd u v reason) := by
  have hend := hfSessionEnd_only u v reason
  exact ⟨by rw [hend.1, h.1], h.2.trans (hend.2.cover (by decide))⟩

/-! ### S(WTX) (R322) -/

section
variable {s : State} {v : HfVisit} {x : HfXchg} {inf : Byte} (h0 : 0 < inf.toNat % 64) (h60 : inf.toNat % 64 < 60)
include h0 h60

theorem hfWtx_of_granted (hcap : wtxEnd s v (inf.toNat % 64) - x.sentAt ≤ ms (fld s Fld.HF_WTX_MAX_MS)) :
    hfWtx s v x inf = hfAsk (incSat (setVisit { s with hf := { s.hf with wtx := s.hf.fwt * (inf.toNat % 64) } }
      (some { v with phase := .xchg { x with wtx := x.wtx + 1 } })) Fld.HF_CNT2_WTX 1) v (.wtx (inf.toNat % 64))
      (s.hf.fwt * (inf.toNat % 64)) := by
  unfold hfWtx
  dsimp only
  rw [if_neg (by omega), if_neg (Nat.not_lt.2 hcap)]

theorem hfWtx_of_capped (hcap : ms (fld s Fld.HF_WTX_MAX_MS) < wtxEnd s v (inf.toNat % 64) - x.sentAt) :
    hfWtx s v x inf = hfSessionEnd (setFlag s Fld.HF_STAT_WTXCAP) v 8 := by
  unfold hfWtx
  dsimp only
  rw [if_neg (by omega), if_pos hcap]

end

/-- The end of a frame depends on the time, the entry, and what the driver holds (R304, R307). -/
theorem hfFrameEnd_congr {s t : State} (hc : t.clk = s.clk) (he : t.slate = s.slate) (hn : t.hf.nextAt = s.hf.nextAt)
    (hd : t.hf.drive = s.hf.drive) (hr : reg t Adr.HF_DRV = reg s Adr.HF_DRV) (v : HfVisit) (c : HfCmd) :
    hfFrameEnd t v c = hfFrameEnd s v c := by
  unfold hfFrameEnd hfFraming hfDrv hfEntry entryAt
  rw [hc, he, hn, hd, hr]

theorem waitIsGranted {s : State} {v : HfVisit} {x : HfXchg} {inf : Byte} (h0 : 0 < inf.toNat % 64) (h60 : inf.toNat % 64 < 60)
    (hcap : wtxEnd s v (inf.toNat % 64) - x.sentAt ≤ ms (fld s Fld.HF_WTX_MAX_MS)) :
    ∃ t, (hfRow s fun _ => hfWtx (hfQuiet s) v x inf) = t ∧ t.hf.sent = [.wtx (inf.toNat % 64)] ∧
      t.hf.visit = some { v with phase := .xchg { x with wtx := x.wtx + 1 } } ∧ t.hf.wtx = s.hf.fwt * (inf.toNat % 64) ∧
      t.hf.answerBy = some (wtxEnd s v (inf.toNat % 64)) ∧
      fld t Fld.HF_CNT2_WTX = min 0xFFFF (fld s Fld.HF_CNT2_WTX + 1) ∧
      FldsKept [Fld.HF_CNT2_WTX] s t ∧ t = { s with regs := t.regs, fresh := t.fresh, hf := t.hf } := by
  rw [hfWtx_of_granted (s := hfQuiet s) h0 h60 hcap]
  let w : State := setVisit { hfQuiet s with hf := { (hfQuiet s).hf with wtx := s.hf.fwt * (inf.toNat % 64) } }
    (some { v with phase := .xchg { x with wtx := x.wtx + 1 } })
  let u : State := incSat w Fld.HF_CNT2_WTX 1
  change ∃ t, (hfRow s fun _ => hfAsk u v (.wtx (inf.toNat % 64)) (s.hf.fwt * (inf.toNat % 64))) = t ∧ _
  have hcnt : fld u Fld.HF_CNT2_WTX = min 0xFFFF (fld s Fld.HF_CNT2_WTX + 1) := fld_incSat_self w _ 1 (by decide)
  have hkept : FldsKept [Fld.HF_CNT2_WTX] s u := ((FldsKept.refl _ s).regs (u := w) rfl).setFld List.mem_cons_self _
  have hstate : u = { s with regs := u.regs, fresh := u.fresh, hf := u.hf } := rfl
  have hhf : u.hf = { s.hf with sent := [], wtx := s.hf.fwt * (inf.toNat % 64),
                                visit := some { v with phase := .xchg { x with wtx := x.wtx + 1 } } } := rfl
  generalize u = u at *
  have hend : hfFrameEnd u v (.wtx (inf.toNat % 64)) = hfFrameEnd s v (.wtx (inf.toNat % 64)) :=
    hfFrameEnd_congr (by rw [hstate]) (by rw [hstate]) (by rw [hhf]) (by rw [hhf]) (hkept.reg_eq (by decide)) v _
  obtain ⟨heq, hvisit, hsent, hdrive, hwtx, hnext, hby⟩ :=
    hfAsk_reads u v (.wtx (inf.toNat % 64)) (s.hf.fwt * (inf.toNat % 64))
  generalize hfAsk u v (.wtx (inf.toNat % 64)) (s.hf.fwt * (inf.toNat % 64)) = t at *
  refine ⟨t, hfRow_of_work_kept ?_ ?_ ?_, ?_, ?_, ?_, ?_, ?_, ?_, ?_⟩
  · rw [heq, hstate]
  · rw [hdrive, hhf]
  · rw [heq, hstate]
  · rw [hsent, hhf]; rfl
  · rw [hvisit, hhf]
  · rw [hwtx, hhf]
  · rw [hby, hnext, hend]; rfl
  · rw [heq]; exact hcnt
  · rw [heq]; exact hkept.regs rfl
  · rw [heq, hstate]

/-- A wait beyond the cap ends the session with WTXCAP (R322). -/
theorem waitBeyondTheCapEndsTheSession {s : State} {v : HfVisit} {x : HfXchg} {inf : Byte} (h0 : 0 < inf.toNat % 64)
    (h60 : inf.toNat % 64 < 60) (hcap : ms (fld s Fld.HF_WTX_MAX_MS) < wtxEnd s v (inf.toNat % 64) - x.sentAt) :
    ∃ t, hfWtx (hfQuiet s) v x inf = t ∧ fld t Fld.HF_STAT_WTXCAP = 1 ∧ SessionOver 8 t ∧ OnlyHf hfFlds s t := by
  have hu : OnlyHf hfFlds s (setFlag (hfQuiet s) Fld.HF_STAT_WTXCAP) :=
    (OnlyHf.quiet _ s).fifo ⟨rfl, ((FldsKept.refl _ _).setReg (by decide) _).regs rfl⟩
  refine ⟨_, hfWtx_of_capped (s := hfQuiet s) h0 h60 hcap, ?_, hfSessionEnd_over _ v (by decide), hu.sessionEnd v 8⟩
  rw [(hfSessionEnd_only _ v 8).2.fld_eq (by unfold Field.apart; decide)]
  exact fld_setFld_of_lt _ (by decide) (by decide)

/-! ### A block without its answer (R324) -/

theorem hfBlockTimeout_of_retry {s : State} {x : HfXchg} (hd : x.desel = false) (hr : x.retries < fld s Fld.HF_ISO4_RETRY)
    (v : HfVisit) : hfBlockTimeout s v x false =
      hfBlockGo (incSat { s with hf := { s.hf with wtx := 0 } } Fld.HF_CNT2_RETRANS 1) v
        { x with retries := x.retries + 1, retrans := x.retrans + 1 } (if x.acking then .rAck v.num else .rNak v.num) := by
  unfold hfBlockTimeout
  rw [if_neg Bool.false_ne_true, if_neg (by simp [hd]), if_pos hr]

theorem hfBlockTimeout_of_spent {s : State} {x : HfXchg} (hd : x.desel = false) (hr : fld s Fld.HF_ISO4_RETRY ≤ x.retries)
    (v : HfVisit) : hfBlockTimeout s v x false = hfBlockGo s v { x with desel := true } .deselect := by
  unfold hfBlockTimeout
  rw [if_neg Bool.false_ne_true, if_neg (by simp [hd]), if_neg (Nat.not_lt.2 hr)]

theorem hfBlockTimeout_of_ruleBreak (s : State) (v : HfVisit) (x : HfXchg) : hfBlockTimeout s v x true = hfSessionEnd s v 7 :=
  if_pos rfl

/-- A block that the card has to answer waits for it with the window of a block (R321). -/
theorem hfBlockGo_reads (s : State) (v : HfVisit) (x : HfXchg) (c : HfCmd) :
    hfBlockGo s v x c = { s with hf := (hfBlockGo s v x c).hf } ∧
      (hfBlockGo s v x c).hf.visit = some { v with phase := .xchg x } ∧ (hfBlockGo s v x c).hf.sent = s.hf.sent ++ [c] ∧
      (hfBlockGo s v x c).hf.drive = s.hf.drive ∧ (hfBlockGo s v x c).hf.wtx = s.hf.wtx ∧
      (hfBlockGo s v x c).hf.answerBy = some ((hfBlockGo s v x c).hf.nextAt + winBlock s) := ⟨rfl, rfl, rfl, rfl, rfl, rfl⟩

theorem blockIsAskedForAgain {s : State} {v : HfVisit} {x : HfXchg} (hd : x.desel = false)
    (hr : x.retries < fld s Fld.HF_ISO4_RETRY) :
    ∃ t, (hfRow s fun _ => hfBlockTimeout (hfQuiet s) v x false) = t ∧
      t.hf.sent = [if x.acking then .rAck v.num else .rNak v.num] ∧
      t.hf.visit = some { v with phase := .xchg { x with retries := x.retries + 1, retrans := x.retrans + 1 } } ∧ t.hf.wtx = 0 ∧
      t.hf.answerBy = some (t.hf.nextAt + winBlock s) ∧
      fld t Fld.HF_CNT2_RETRANS = min 0xFFFF (fld s Fld.HF_CNT2_RETRANS + 1) ∧
      FldsKept [Fld.HF_CNT2_RETRANS] s t ∧ t = { s with regs := t.regs, fresh := t.fresh, hf := t.hf } := by
  rw [hfBlockTimeout_of_retry (s := hfQuiet s) hd hr]
  let w : State := { hfQuiet s with hf := { (hfQuiet s).hf with wtx := 0 } }
  let u : State := incSat w Fld.HF_CNT2_RETRANS 1
  change ∃ t, (hfRow s fun _ => hfBlockGo u v _ _) = t ∧ _
  have hcnt : fld u Fld.HF_CNT2_RETRANS = min 0xFFFF (fld s Fld.HF_CNT2_RETRANS + 1) := fld_incSat_self w _ 1 (by decide)
  have hkept : FldsKept [Fld.HF_CNT2_RETRANS] s u := ((FldsKept.refl _ s).regs (u := w) rfl).setFld List.mem_cons_self _
  have hstate : u = { s with regs := u.regs, fresh := u.fresh, hf := u.hf } := rfl
  have hhf : u.hf = { s.hf with sent := [], wtx := 0 } := rfl
  generalize u = u at *
  generalize (if x.acking = true then HfCmd.rAck v.num else HfCmd.rNak v.num) = c
  generalize ({ x with retries := x.retries + 1, retrans := x.retrans + 1 } : HfXchg) = y
  obtain ⟨heq, hvisit, hsent, hdrive, hwtx, hby⟩ := hfBlockGo_reads u v y c
  generalize hfBlockGo u v y c = t at *
  refine ⟨t, hfRow_of_work_kept ?_ ?_ ?_, ?_, hvisit, ?_, ?_, ?_, ?_, ?_⟩
  · rw [heq, hstate]
  · rw [hdrive, hhf]
  · rw [heq, hstate]
  · rw [hsent, hhf]; rfl
  · rw [hwtx, hhf]
  · rw [hby, winBlock, winBlock, hhf]
  · rw [heq]; exact hcnt
  · rw [heq]; exact hkept.regs rfl
  · rw [heq, hstate]

/-- With its retries spent, an exchange deselects the card (R324). -/
theorem spentBlockDeselects {s : State} {v : HfVisit} {x : HfXchg} (hd : x.desel = false)
    (hr : fld s Fld.HF_ISO4_RETRY ≤ x.retries) :
    ∃ t, (hfRow s fun _ => hfBlockTimeout (hfQuiet s) v x false) = t ∧ t.hf.sent = [.deselect] ∧
      t.hf.visit = some { v with phase := .xchg { x with desel := true } } ∧ t = { s with hf := t.hf } := by
  rw [hfBlockTimeout_of_spent (s := hfQuiet s) hd hr]
  obtain ⟨heq, hvisit, hsent, hdrive, -, -⟩ := hfBlockGo_reads (hfQuiet s) v { x with desel := true } .deselect
  generalize hfBlockGo (hfQuiet s) v { x with desel := true } .deselect = t at *
  exact ⟨t, hfRow_of_work_kept (by rw [heq]; rfl) hdrive (by rw [heq]; rfl), hsent, hvisit, heq⟩

/-! ### The statement -/

/-- Settles O36: a row of an exchange meets the boundary of its window once, since what settles leaves the reader; past it each row is
an equation of the model, read through what a frame and the end of a session leave. -/
theorem sessionsHoldOrEnd : Obligations.SessionsHoldOrEnd := by
  unfold Obligations.SessionsHoldOrEnd
  refine ⟨fun s v x hv hx hb => exec_xchgRows_settled hv hx hb, fun s v hv hb => ⟨fun x inf hx h0 h60 hcap => ?granted,
    fun x inf hx h0 h60 hcap => ?capped, fun x hx hd hr => ?retry, fun x hx hd hr => ?spent, fun x hx => ?ruleBreak,
    fun hs ho => ?idle⟩⟩
  case granted =>
    rw [exec_wtxRequest hv hx hb]
    obtain ⟨t, ht, h⟩ := waitIsGranted h0 h60 hcap
    exact ⟨t, congrArg _ ht, h⟩
  case capped =>
    rw [exec_wtxRequest hv hx hb]
    obtain ⟨t, ht, hcapped, hover, hstate, hkept⟩ := waitBeyondTheCapEndsTheSession h0 h60 hcap
    exact ⟨t, by rw [ht], hcapped, hover.visit, hover.lastend, hover.opened, hover.field, hkept, hstate⟩
  case retry =>
    rw [exec_blockTimeout hv hx hb]
    obtain ⟨t, ht, h⟩ := blockIsAskedForAgain hd hr
    exact ⟨t, congrArg _ ht, h⟩
  case spent =>
    rw [exec_blockTimeout hv hx hb]
    obtain ⟨t, ht, h⟩ := spentBlockDeselects hd hr
    exact ⟨t, congrArg _ ht, h⟩
  case ruleBreak =>
    rw [exec_blockTimeout hv hx hb, hfBlockTimeout_of_ruleBreak]
    have hover := hfSessionEnd_over (hfQuiet s) v (reason := 7) (by decide)
    obtain ⟨hresult, hreason⟩ := hfSessionEnd_reads (hfQuiet s) v (reason := 7) (by decide)
    obtain ⟨hint, habort⟩ := hfSessionEnd_aborts (hfQuiet s) v (reason := 7) (by decide) (by decide)
    obtain ⟨hstate, hkept⟩ := (OnlyHf.quiet hfFlds s).sessionEnd v 7
    exact ⟨_, rfl, hover.visit, hover.lastend, hover.opened, hover.active, hresult, hreason, hover.field, hint, habort, hkept,
      hstate⟩
  case idle =>
    rw [exec_sessionIdle hv hs ho]
    have hover := hfSessionEnd_over (hfQuiet s) v (reason := 9) (by decide)
    obtain ⟨hresult, hreason⟩ := hfSessionEnd_reads (hfQuiet s) v (reason := 9) (by decide)
    obtain ⟨hint, -⟩ := hfSessionEnd_aborts (hfQuiet s) v (reason := 9) (by decide) (by decide)
    obtain ⟨hstate, hkept⟩ := (OnlyHf.quiet hfFlds s).sessionEnd v 9
    exact ⟨_, rfl, hover.visit, hover.lastend, hover.opened, hover.active, hresult, hreason, hover.field, hint, hkept, hstate⟩

end Sys2Proof.Machine

/-! An answer window that closes after the lease warning (R307, R310): the visit ends with reason LEASE. -/

namespace Sys2Proof.Machine

/-! ### Settling with no commit pending (R32, R39) -/

/-- One window of the map: its instances are those of its block, and the rest decides beyond it. -/
theorem validInst_of_window {c : Prop} [Decidable c] {x : BlockInst} {rest : Option BlockInst} (hx : c → x.inst < instances x.block)
    (hrest : ∀ b, rest = some b → validInst b = true) : ∀ b, (if c then some x else rest) = some b → validInst b = true := by
  intro b hb
  split at hb
  · next hc => exact Option.some.inj hb ▸ decide_eq_true (hx hc)
  · exact hrest b hb

/-- What an address names exists. -/
theorem validInst_of_blockOf {a : Nat} : ∀ b, blockOf a = some b → validInst b = true := by
  unfold blockOf
  repeat refine validInst_of_window (fun h => by simp only [instances]; omega) ?_
  exact nofun

theorem validInst_of_mem_pendingInsts {s : State} {b : BlockInst} (h : b ∈ pendingInsts s) : validInst b = true := by
  obtain ⟨p, -, hp⟩ := List.mem_filterMap.1 h
  split at hp
  · exact validInst_of_blockOf b hp
  · cases hp

theorem settle_of_none_pending {s : State} (h : ∀ b, validInst b = true → flag s (cPend b) = false) : settle s = s := by
  have hstep : ∀ b ∈ pendingInsts s, (if atBoundary s b then boundary s b else s) = s := fun b hb => by
    split
    · exact if_pos (by rw [h b (validInst_of_mem_pendingInsts hb)]; rfl)
    · rfl
  unfold settle
  generalize pendingInsts s = L at hstep
  induction L with
  | nil => rfl
  | cons b L ih =>
    rw [List.foldl_cons, hstep b List.mem_cons_self]
    exact ih fun c hc => hstep c (List.mem_cons_of_mem b hc)

/-- The reader writes no commit register. -/
theorem pend_of_kept {s t : State} (h : FldsKept hfFlds s t) {b : BlockInst} (hb : validInst b = true) :
    flag t (cPend b) = flag s (cPend b) :=
  h.flag_eq fun g hg =>
    .inl ((by decide +kernel : ∀ c ∈ allInsts, ∀ g ∈ hfFlds, commitAddr c ≠ g.addr) b (mem_allInsts hb) g hg)

/-- With no commit pending and no leaf to go on to, a row of the reader leaves what its command left. -/
theorem hfRow_of_none_pending {s t : State} (hp : ∀ b, validInst b = true → flag t (cPend b) = false)
    (hv : t.hf.visit = none) : hfRow s (fun _ => t) = t := by
  have hleaf : hfNextLeaf t = t := by rw [hfNextLeaf, hv]
  unfold hfRow
  split
  · exact (congrArg hfNextLeaf (settle_of_none_pending hp)).trans hleaf
  · rfl

/-! ### The counterexample -/

/-- A Type A poll of entry 0 whose request is on the air. -/
def requestedVisit : HfVisit := { entry := 0, session := false, leaf := 0, leaves := [], startedAt := 0, phase := .reqA }

/-- The field is on and the lease of the poll has been warned as the answer window of its request closes. -/
def warnedAsWindowCloses : State :=
  { setFld {} Fld.HF_STAT_FIELD 1 with
    slate := { entries := [(0, [2#8])] }
    sched := { grants := [{ who := .entry 0, cls := .c2, mask := 2 ^ resHfd, kind := .hfSession, air := .hf, until_ := ms 1,
                            warned := true }] }
    hf := { visit := some requestedVisit, drive := some { tune := 0, step := 0 } } }

theorem nonePending_warnedAsWindowCloses {b : BlockInst} (hb : validInst b = true) :
    flag warnedAsWindowCloses (cPend b) = false :=
  (by decide +kernel : ∀ c ∈ allInsts, flag warnedAsWindowCloses (cPend c) = false) b (mem_allInsts hb)

/-- The visit ends LEASE (R310). -/
theorem lastend_warnedAsWindowCloses : fld (hfRow warnedAsWindowCloses answerTimeout) Fld.HF_STAT_LASTEND = 3 := by
  decide +kernel

theorem exec_answerTimeout {s : State} (hb : s.hf.answerBy = none) : exec .answerTimeout s = .next (hfRow s answerTimeout) := by
  change Host.Outcome.next (hfRow (hfBoundary s _) answerTimeout) = _
  rw [hfBoundary_of_between hb]

/-- Refutes O35: the clause of a request that stays unanswered on the last leaf says that the visit ends COMPLETE, and does not ask
that its lease has not been warned; after a warning it ends LEASE. -/
theorem not_hfVisitsAndCardAnswers : ¬ Obligations.HfVisitsAndCardAnswers := by
  unfold Obligations.HfVisitsAndCardAnswers
  rintro ⟨-, -, h⟩
  obtain ⟨-, -, -, silence, -⟩ := h warnedAsWindowCloses _ rfl rfl
  obtain ⟨t, ht, hvisit, -, hend, -, -, hkept, -⟩ := silence requestedVisit rfl rfl rfl rfl
  have hrow : hfRow warnedAsWindowCloses (fun _ => t) = t :=
    hfRow_of_none_pending (fun b hb => (pend_of_kept hkept hb).trans (nonePending_warnedAsWindowCloses hb)) hvisit
  rw [exec_answerTimeout rfl, hrow] at ht
  rw [← Host.Outcome.next.inj ht, lastend_warnedAsWindowCloses] at hend
  exact absurd hend (by decide)

end Sys2Proof.Machine

/-! A Gorse ping whose set has COEX added (R148, R331): its grant counts for COEX too (R179). -/

namespace Sys2Proof.Machine

/-- RADIO with pings on at drive step 0 and the baseline still to be built, in the arbiter role with COEX added for HF (R148, R168). -/
def pingWithCoex : State :=
  setFld (setFlag (setFld (setFlag (setFlag (setFlag (setFld (setFlag {} Fld.SYS_BOOTSTAT_DONE) Fld.SYS_MODE_MODE 4)
    Fld.GRS_CFG_EN) Fld.GRS_CFG_ACTEN) Fld.GRS_STAT_NOBASE) Fld.GRS_CFG_DRIVE 0) Fld.SYS_CXCFG_HF) Fld.SYS_CXCFG_ROLE 2

/-- A ping that falls due takes its turn on HFD (R334). -/
theorem exec_gorsePing {s : State} (h : gorseRuns s = true) (re im : Int) :
    exec (.gorsePing re im) s =
      .next (turn s (gorseRequest .gorse) (.gorsePing re im) fun t => gorsePingRun t re im) :=
  congrArg Host.Outcome.next (if_pos h)

/-- The grant is counted for COEX beside HFD. -/
theorem grantsOfCoex_pingWithCoex :
    fld pingWithCoex (Fld.SYS_RES_GRANT_GRANTS resCoex) = 0 ∧
      fld (turn pingWithCoex (gorseRequest .gorse) (.gorsePing 0 0) fun t => gorsePingRun t 0 0)
        (Fld.SYS_RES_GRANT_GRANTS resCoex) = 1 := by
  decide +kernel

/-- Refutes O38: the clause of a ping that builds the baseline lets it write GRANTS of HFD alone, and does not ask that COEX stays out
of its set; with COEX added for HF the ping's grant counts in GRANTS of COEX as well. -/
theorem not_gorsePingsMeasureAndDetect : ¬ Obligations.GorsePingsMeasureAndDetect := by
  unfold Obligations.GorsePingsMeasureAndDetect
  intro h
  obtain ⟨-, -, -, -, -, building, -⟩ := h pingWithCoex 0 0 0 _ _ rfl rfl
  have hruns : gorseRuns pingWithCoex = true := by decide +kernel
  obtain ⟨t, ht, -, -, hkept, -⟩ :=
    building hruns (by decide +kernel) (by decide +kernel) (by decide +kernel) (by decide)
  have hcount := hkept (Fld.SYS_RES_GRANT_GRANTS resCoex) (by unfold Field.apart; decide)
  obtain ⟨hbefore, hafter⟩ := grantsOfCoex_pingWithCoex
  rw [exec_gorsePing hruns] at ht
  rw [← Host.Outcome.next.inj ht, hbefore, hafter] at hcount
  exact absurd hcount (by decide)

end Sys2Proof.Machine
